-- ==== Sys2Proof/Word.lean ====
section
/-!
DEFINITION. The widths the spec writes its registers and tables in.  A value the manual shows as bits is a bit vector;
counts, indices, addresses and lengths are natural numbers.
-/
namespace Sys2Proof

/-- A byte: the unit of frames, of DMA and of the persistent store. -/
abbrev Byte := BitVec 8

/-- A 32-bit register word, the width of every register access (R13). -/
abbrev W32 := BitVec 32

/-- A 64-bit value: a counter, a host address, an account's counter. -/
abbrev W64 := BitVec 64

/-- A 64-byte DRAM line (half a flow record, a bucket, an account): its byte 0 is bits 7 to 0 (R6). -/
abbrev Line := BitVec 512

end Sys2Proof
end

