-- ==== Sys2Proof/Syntax.lean ====
section
/-!
DEFINITION. The commands: one constructor of `Instr` per row of spec/opcode_table.json, with the operands that the row's rule
gives it.  What comes from outside the device (a frame, host memory read by DMA, flash contents, a pin level, a peer's frame, a
sensor reading) is an operand; what the device holds is not.
-/
namespace Sys2Proof

/-- The fabric masters of R14. -/
inductive Master where
  | host | mcNs | mcSec
  | pip (p : Fin 8)
  | globalPip | quince | scrubber | board
  | peer (d : Fin 4)
deriving DecidableEq, Repr

/-- The identity of a master (R14). -/
def Master.id : Master → Nat
  | .host => 0x01
  | .mcNs => 0x10
  | .mcSec => 0x11
  | .pip p => 0x20 + p.val
  | .globalPip => 0x28
  | .quince => 0x30
  | .scrubber => 0x31
  | .board => 0x40
  | .peer d => 0x80 + d.val

/-- A sequencer: the Pip of one pipeline, or the global Pip (index 8). -/
abbrev Seq := Fin 9

/-- A table command (R87): queue, then bytes 2 to 47 of its entry; OP and TABLE are the row's own.  `known` is false for an
entry whose OP or TABLE is of no row: it ends with BAD_COMMAND (R89), whichever row it is taken as.  `host` is what the host
address of an INDIRECT command holds (read by the device for commands that carry data in), and `dmaOk` whether the buffer could be
reached. -/
structure Cmd where
  queue : Fin 16
  known : Bool
  parts : BitVec 8
  flags : BitVec 8
  tag : BitVec 32
  index : BitVec 64
  data : BitVec 256
  host : List Byte
  dmaOk : Bool := true
deriving DecidableEq, Repr

/-- How a microword is issued: fetched from the store, as a step of the standard routine, or with an error (R259): a double-bit
error in nano-word `idx`, or a second parity error of a ROM word. -/
inductive Issue where
  | fetched | routine
  | nanoError (idx : Nat)
  | romParity
deriving DecidableEq, Repr

/-- How a read of a DRAM line ends (R276), with the raw codeword of an error. -/
inductive ReadEnd where
  | clean | corrected
  | bad (raw : BitVec 576)
  | wrongLine (raw : BitVec 576)
  | command (raw : BitVec 576)
deriving DecidableEq, Repr

/-- What a configuration write sets (R62, R64, R73): the Command register; BAR0; Max_Payload_Size and Max_Read_Request_Size; the
power state; ECRC and the error masks of Advanced Error Reporting; MSI-X Enable and Function Mask; the Message Address and
Message Data of a vector. -/
inductive CfgWrite where
  | command (memEn bme : Bool)
  | bar0 (base : BitVec 64)
  | deviceControl (mps mrrs : Fin 8)
  | power (d3hot : Bool)
  | errors (ecrcGen ecrcCheck : Bool) (uncMask corMask : BitVec 32)
  | msixControl (enable functionMask : Bool)
  | msixEntry (vec : Fin 64) (addr : BitVec 64) (data : BitVec 32)
deriving DecidableEq, Repr

/-- The arrays that the integrity scan of R155 walks. -/
inductive ArrayKind where
  | cls | l2 | lpm
deriving DecidableEq, Repr

/-- What a scan or scrub finds in a word: nothing, an error it corrects, a copy it rewrites, or an error in every copy. -/
inductive ScrubEnd where
  | clean | corrected | copyFixed | lost
deriving DecidableEq, Repr

/-- The on-chip memories of R475.  `cell` names a stored packet, `staging` a pipeline and a place in its staging, `cache` a line,
`copied` a page whose state is held twice or three times, `counter` the BAR0 offset of a counter, `quince` an account in the
accumulator, `nano` and `patch` a sequencer, `log` an entry of the error log. -/
inductive Sram where
  | cell (id : Nat)
  | staging (pipe place : Nat)
  | cache (line : Nat)
  | copied (page : BitVec 26)
  | action (pipe profile : Nat)
  | template (pipe t : Nat)
  | search (pipe profile : Nat)
  | select (pipe word : Nat)
  | slot (pool i : Nat)
  | member (m : Nat)
  | block (g : Nat)
  | counter (addr : BitVec 26)
  | quince (place : Nat)
  | nano (q : Seq)
  | patch (q : Seq)
  | mcMemory
  | log (entry : Fin 16384)
deriving DecidableEq, Repr

/-- A command of the block: one constructor per row of the opcode table, in its order. -/
inductive Instr where
  /-- REGISTER_WRITE (R7): a write of 32 bits, or with `wide` of 64, at a BAR0 offset. -/
  | registerWrite (m : Master) (addr : BitVec 26) (data : BitVec 64) (wide : Bool)
  /-- BAD_SIZE_ACCESS (R13): an access of `size` bytes that is not 4 or 8, or not aligned to 4. -/
  | badSizeAccess (m : Master) (addr : BitVec 26) (size : Nat) (write : Bool)
  /-- UNMAPPED_ACCESS (R68): an access to an offset in no page. -/
  | unmappedAccess (m : Master) (addr : BitVec 26) (write : Bool)
  /-- SOFT_RST (R71): PG_CTL.SOFT_RST of the page at that offset, EN kept. -/
  | softRst (m : Master) (page : BitVec 26)
  /-- SOFT_RESET_DONE (R71): the end of the soft reset of a page. -/
  | softResetDone (page : BitVec 26)
  /-- IRQ_FORCE (R69): a write of PG_IRQ_FORCE. -/
  | irqForce (m : Master) (page : BitVec 26) (bits : W32)
  /-- IRQ_REARM (R73): a write of both words of SYS_IRQ_REARM. -/
  | irqRearm (m : Master) (mask : BitVec 64)
  /-- MSIX_RESUME (R73): software sets or clears the mask bit of a vector, or the function may send again. -/
  | msixResume (vec : Fin 64) (masked : Bool)
  /-- SEM_READ (R77): a read of SYS_SEMn. -/
  | semRead (m : Master) (n : Fin 32)
  /-- SEM_RELEASE (R79): a write of SYS_SEMn. -/
  | semRelease (m : Master) (n : Fin 32) (value : W32)
  /-- SEM_FORCE (R79): a write of SYS_SEM_FORCE. -/
  | semForce (m : Master) (mask : W32)
  /-- RING_CONFIG_WRITE (R82): a write of the low or high word of RING_BASE (0, 1) or of RING_SIZE (2). -/
  | ringConfigWrite (m : Master) (ring : Fin 60) (word : Fin 3) (value : W32)
  /-- RING_MOD_TIMER (R81): MOD_US has passed since a completion of the ring. -/
  | ringModTimer (ring : Fin 60)
  /-- RING_DMA_FAIL (R81): DMA to or from the ring fails. -/
  | ringDmaFail (ring : Fin 60)
  /-- HOST_TX_ENTRY (R84): the entry that host memory holds at the consumer index. -/
  | hostTxEntry (ring : Fin 16) (entry : BitVec 128)
  /-- HOST_TX_FRAME_FETCHED (R83): the bytes that host memory holds at the accepted entry. -/
  | hostTxFrameFetched (ring : Fin 16) (frame : List Byte)
  /-- HOST_RX_DELIVER (R83): per host ring, the address and length of the posted buffers; the errors met in the frame's cells (R305). -/
  | hostRxDeliver (posted : List (List (Nat × Nat))) (cells : List (Nat × Bool))
  /-- FEAT_COMMIT (R93): a write of FEAT_COMMIT.GO. -/
  | featCommit (m : Master)
  /-- PERST_N_ASSERT (R64): PERST_N falls. -/
  | perstNAssert
  /-- FUNCTION_LEVEL_RESET (R64): a Function Level Reset. -/
  | functionLevelReset
  /-- MGMT_RST_N_ASSERT (R499): MGMT_RST_N has been low for 1 µs. -/
  | mgmtRstNAssert
  /-- SYS_RST_MGMT (R499): a write of SYS_RST_CTL.MGMT. -/
  | sysRstMgmt (m : Master)
  /-- MANAGEMENT_RESET (R65): the requested management reset takes place. -/
  | managementReset
  /-- MANAGEMENT_RESET_END (R499): 1 µs after it began. -/
  | managementResetEnd
  /-- POWER_ON_RESET (R496): a rail is below its minimum. -/
  | powerOnReset
  /-- CHIP_RST_N_ASSERT (R497): CHIP_RST_N has been low for 1 µs. -/
  | chipRstNAssert
  /-- COLD_RESET_RELEASE (R496): power-on reset is released. -/
  | coldResetRelease (testEn : Bool)
  /-- STRAP_SAMPLE (R501): the levels of the strap balls at a sampling instant. -/
  | strapSample (levels : BitVec 6)
  /-- BOOT_STEP_COMPLETE (R502): the running step ends `ms` after release; the contents of the two flash slots; how many of the two head slots of the persistent store fail their check. -/
  | bootStepComplete (ms : Nat) (flash0 flash1 : List Byte) (headsBad : Nat)
  /-- THERMAL_TRIP (R471): die sensor n at 120 °C, or the signal of stack n. -/
  | thermalTrip (stack : Bool) (n : Fin 16)
  /-- SUPPLY_FAULT (R472): a rail has been below its minimum for 2 µs. -/
  | supplyFault (rail : Fin 8)
  /-- STOP_PERSIST (R473): 1 µs after the detection. -/
  | stopPersist
  /-- STOP_HALT (R473): 20 µs after the detection. -/
  | stopHalt
  /-- THERM_WARN (R495): what a die sensor reads, in °C. -/
  | thermWarn (sensor : Fin 16) (celsius : Nat)
  /-- REFERENCE_LOSS (R33): 64 phase-detector periods without an edge. -/
  | referenceLoss
  /-- REFERENCE_RETURN (R33): edges are seen again. -/
  | referenceReturn
  /-- LOOP_RELOCK (R33): the last loop has relocked. -/
  | loopRelock
  /-- HOLDOVER_END (R33): 1 ms after the last loop relocked. -/
  | holdoverEnd
  /-- LOCK_LOST (R58): the root synthesizer is out of lock. -/
  | lockLost
  /-- DROOP_TRIP (R35): the sag a sensor sees, in mV. -/
  | droopTrip (sensor : Fin 32) (sagMv : Nat)
  /-- DIVISOR_RETURN (R36): the present sag of each of the 32 sensors, in mV. -/
  | divisorReturn (region : Fin 11) (sagsMv : List Nat)
  /-- STRETCH_LIMIT (R39): a region stays stretched past LIMIT_US. -/
  | stretchLimit (region : Fin 10)
  /-- TIME_STEP_RELATIVE (R41): EPC_STEP_CTL.GO with MODE 0. -/
  | timeStepRelative (m : Master)
  /-- TIME_STEP_ABSOLUTE (R41): EPC_STEP_CTL.GO with MODE 1. -/
  | timeStepAbsolute (m : Master)
  /-- TIME_NS_READ (R60): a read of EPC_TIME_NS. -/
  | timeNsRead (m : Master)
  /-- BOUNDARY_EVENT (R44): the next multiple of 2^K is crossed. -/
  | boundaryEvent
  /-- HELD_BOUNDARY (R45): a held boundary event occurs. -/
  | heldBoundary
  /-- DRAIN_COMPLETE (R51): nothing in flight uses the previous bank of the page any more. -/
  | drainComplete (page : BitVec 26)
  /-- SHADOW_COPY_DONE (R51): the bank copy of the page is complete. -/
  | shadowCopyDone (page : BitVec 26)
  /-- COMMIT_GO (R54): a write of EPC_COMMIT_CTL.GO. -/
  | commitGo (m : Master)
  /-- COMMIT_ABORT (R55): a write of EPC_COMMIT_CTL.ABORT. -/
  | commitAbort (m : Master)
  /-- SHADOW_ARM (R52): a write of PG_SHADOW_CTL.ARM, RD_SEL kept. -/
  | shadowArm (m : Master) (page : BitVec 26) (arm : Bool)
  /-- GROUP_APPLY (R99): a write of ETH_GRP_CTL.APPLY, with the slots that have a frame in reception. -/
  | groupApply (m : Master) (group : Fin 32) (receiving : BitVec 4)
  /-- LINK_UP (R114): the link comes up, with or without auto-negotiation. -/
  | linkUp (port : Fin 128) (anDone : Bool)
  /-- LINK_DOWN (R104): the link goes down, a frame being received or not, with the faults seen and BLOCK_LOCK,
  AM_LOCK and HI_BER. -/
  | linkDown (port : Fin 128) (receiving localFault remoteFault : Bool) (pcs : BitVec 3)
  /-- LT_FAIL (R114): link training has timed out on a lane of the group. -/
  | ltFail (group : Fin 32)
  /-- LINK_HOLD_EXPIRE (R104): HOLD_MS after the link went down. -/
  | linkHoldExpire (port : Fin 128)
  /-- FRAME_RECEIVE (R101): a frame with its FCS, and whether it carried an uncorrectable codeword. -/
  | frameReceive (port : Fin 128) (frame : List Byte) (badFec : Bool)
  /-- PAUSE_RECEIVE (R105): the class-enable vector and the quanta of the frame; PAUSE has its quanta first. -/
  | pauseReceive (port : Fin 128) (pfc : Bool) (classes : BitVec 8) (quanta : List (BitVec 16))
  /-- PAUSE_TIMER_EXPIRE (R105): the timer of a paused queue runs out. -/
  | pauseTimerExpire (port : Fin 128) (queue : Fin 8)
  /-- XOFF_RESEND (R106): half the quanta time has passed since the last XOFF. -/
  | xoffResend (port : Fin 128)
  /-- PFC_WATCHDOG (R107): the queue has been paused longer than LIMIT_MS. -/
  | pfcWatchdog (port : Fin 128) (queue : Fin 8)
  /-- PFC_WD_RECOVER (R107): the watched queue has been empty for 1 ms. -/
  | pfcWdRecover (port : Fin 128) (queue : Fin 8)
  /-- FEC_DEGRADE_WINDOW (R114): what the decoder counted in the window that ends. -/
  | fecDegradeWindow (port : Fin 128) (corrected symbols uncorrectable : Nat)
  /-- TXTS_POP (R110): a write of ETH_TXTS_POP. -/
  | txtsPop (m : Master) (group : Fin 32) (mask : BitVec 4)
  /-- PPS_OUT_PULSE (R112): the nanoseconds return to 0. -/
  | ppsOutPulse
  /-- PPS_OUT_END (R112): WIDTH_US after the rise. -/
  | ppsOutEnd
  /-- PPS_IN_EDGE (R113): an edge of PPS_IN. -/
  | ppsInEdge (rising : Bool)
  /-- PASS_ADMIT (R22): a slot of the pipeline takes the next pass. -/
  | passAdmit (pipe : Fin 8)
  /-- FLOW_READ_RETURN (R176): the tracker entry whose read returns, and the cache lines held by others. -/
  | flowReadReturn (pipe : Fin 8) (entry : Nat) (held : BitVec 4)
  /-- CACHE_INSTALL (R170): the tracker entry that waits for a way, and the cache lines held by others. -/
  | cacheInstall (pipe : Fin 8) (entry : Nat) (held : BitVec 4)
  /-- CACHE_CLEAN (R171): the cleaning interval of a bank of the cache. -/
  | cacheClean (bank : Fin 64)
  /-- LEARN_TAKE (R147): the learn engine takes its next event. -/
  | learnTake (pipe : Fin 8)
  /-- L2_AGE_VISIT (R149): the sweep reaches an entry. -/
  | l2AgeVisit (pipe : Fin 8) (index : Fin 65536)
  /-- FLAP_WINDOW_END (R150): the flap window ends. -/
  | flapWindowEnd (pipe : Fin 8)
  /-- ARRAY_SCAN_VISIT (R155): an entry of an array, its shadow word correctable or not, and the soft errors that strike the array up to
  the next visit. -/
  | arrayScanVisit (kind : ArrayKind) (part index : Nat) (shadowBad : Bool) (strikes : List (Nat × BitVec 512))
  /-- CLS_READ (R137): TABLE 0x01 READ. -/
  | clsRead (c : Cmd)
  /-- CLS_WRITE (R137): TABLE 0x01 WRITE. -/
  | clsWrite (c : Cmd)
  /-- CLS_DELETE (R137): TABLE 0x01 DELETE. -/
  | clsDelete (c : Cmd)
  /-- CLS_SEARCH (R139): TABLE 0x01 SEARCH. -/
  | clsSearch (c : Cmd)
  /-- CLS_MOVE (R140): TABLE 0x01 MOVE. -/
  | clsMove (c : Cmd)
  /-- SEARCH_PROFILE_READ (R134): TABLE 0x02 READ. -/
  | searchProfileRead (c : Cmd)
  /-- SEARCH_PROFILE_WRITE (R134): TABLE 0x02 WRITE. -/
  | searchProfileWrite (c : Cmd)
  /-- ACTION_PROFILE_READ (R198): TABLE 0x03 READ. -/
  | actionProfileRead (c : Cmd)
  /-- ACTION_PROFILE_WRITE (R198): TABLE 0x03 WRITE of a profile. -/
  | actionProfileWrite (c : Cmd)
  /-- ACTION_PROFILE_DELETE (R198): TABLE 0x03 DELETE. -/
  | actionProfileDelete (c : Cmd)
  /-- TEMPLATE_WRITE (R198): TABLE 0x03 WRITE of a template. -/
  | templateWrite (c : Cmd)
  /-- L2_READ (R152): TABLE 0x04 READ. -/
  | l2Read (c : Cmd)
  /-- L2_WRITE (R152): TABLE 0x04 WRITE. -/
  | l2Write (c : Cmd)
  /-- L2_DELETE (R152): TABLE 0x04 DELETE. -/
  | l2Delete (c : Cmd)
  /-- L2_FLUSH (R152): TABLE 0x04 FLUSH. -/
  | l2Flush (c : Cmd)
  /-- L2_READ_AT (R152): TABLE 0x04 READ_AT. -/
  | l2ReadAt (c : Cmd)
  /-- LPM_WRITE (R144): TABLE 0x05 WRITE. -/
  | lpmWrite (c : Cmd)
  /-- LPM_DELETE (R144): TABLE 0x05 DELETE. -/
  | lpmDelete (c : Cmd)
  /-- LPM_READ (R143): TABLE 0x05 READ. -/
  | lpmRead (c : Cmd)
  /-- LPM_SEARCH (R143): TABLE 0x05 SEARCH. -/
  | lpmSearch (c : Cmd)
  /-- FLOW_READ (R191): TABLE 0x06 READ; how its DRAM reads end. -/
  | flowRead (c : Cmd) (ends : List ReadEnd)
  /-- FLOW_WRITE (R192): TABLE 0x06 WRITE; how its DRAM reads end. -/
  | flowWrite (c : Cmd) (ends : List ReadEnd)
  /-- FLOW_DELETE (R191): TABLE 0x06 DELETE; how its DRAM reads end. -/
  | flowDelete (c : Cmd) (ends : List ReadEnd)
  /-- FLOW_SEARCH (R191): TABLE 0x06 SEARCH; how its DRAM reads end. -/
  | flowSearch (c : Cmd) (ends : List ReadEnd)
  /-- FLOW_WALK (R191): TABLE 0x06 WALK. -/
  | flowWalk (c : Cmd)
  /-- FLOW_READ_BUCKET (R191): TABLE 0x06 READ_BUCKET; how its DRAM reads end. -/
  | flowReadBucket (c : Cmd) (ends : List ReadEnd)
  /-- ACCOUNT_READ (R376): TABLE 0x07 READ; how its DRAM read ends. -/
  | accountRead (c : Cmd) (ends : List ReadEnd)
  /-- ACCOUNT_WRITE (R376): TABLE 0x07 WRITE. -/
  | accountWrite (c : Cmd)
  /-- ACCOUNT_DELETE (R376): TABLE 0x07 DELETE. -/
  | accountDelete (c : Cmd)
  /-- READ_MAP (R376): TABLE 0x07 READ_MAP. -/
  | readMap (c : Cmd)
  /-- WRITE_MAP (R376): TABLE 0x07 WRITE_MAP. -/
  | writeMap (c : Cmd)
  /-- LB_SLOTS_READ (R216): TABLE 0x08 READ. -/
  | lbSlotsRead (c : Cmd)
  /-- LB_SLOTS_WRITE (R216): TABLE 0x08 WRITE. -/
  | lbSlotsWrite (c : Cmd)
  /-- WRITE_MEMBER (R216): TABLE 0x08 WRITE_MEMBER. -/
  | writeMember (c : Cmd)
  /-- SET_STATE (R216): TABLE 0x08 SET_STATE. -/
  | setState (c : Cmd)
  /-- LB_WRITE_POOL (R216): TABLE 0x08 WRITE_POOL. -/
  | lbWritePool (c : Cmd)
  /-- READ_MEMBER (R216): TABLE 0x08 READ_MEMBER. -/
  | readMember (c : Cmd)
  /-- READ_POOL (R224): TABLE 0x09 READ_POOL. -/
  | readPool (c : Cmd)
  /-- NAT_WRITE_POOL (R224): TABLE 0x09 WRITE_POOL. -/
  | natWritePool (c : Cmd)
  /-- NAT_SEARCH (R224): TABLE 0x09 SEARCH. -/
  | natSearch (c : Cmd)
  /-- READ_BLOCK (R224): TABLE 0x09 READ_BLOCK. -/
  | readBlock (c : Cmd)
  /-- WRITE_ADDR (R224): TABLE 0x09 WRITE_ADDR. -/
  | writeAddr (c : Cmd)
  /-- WRITE_PREFIX (R224): TABLE 0x09 WRITE_PREFIX. -/
  | writePrefix (c : Cmd)
  /-- ZONE_TIMEOUT_READ (R228): TABLE 0x0A READ. -/
  | zoneTimeoutRead (c : Cmd)
  /-- ZONE_TIMEOUT_WRITE (R228): TABLE 0x0A WRITE. -/
  | zoneTimeoutWrite (c : Cmd)
  /-- CLAIM_START (R177): the insert unit takes the next claim. -/
  | claimStart
  /-- CLAIM_READ_RETURN (R177): the bucket reads of a claim return. -/
  | claimReadReturn
  /-- CLAIM_HALVES_ACCEPTED (R177): the mirrors have accepted the halves of a record. -/
  | claimHalvesAccepted
  /-- CLAIM_HEADER_ACCEPTED (R177): the header write is accepted. -/
  | claimHeaderAccepted
  /-- RELOC_NEW_ACCEPTED (R180): the new-bucket write of a relocation is accepted. -/
  | relocNewAccepted
  /-- FENCE_CLOSE (R180): 486 core cycles after a clear was accepted. -/
  | fenceClose
  /-- STASH_DRAIN (R181): the drain tries a stash entry. -/
  | stashDrain (entry : Fin 1024)
  /-- STASH_PLACE_ACCEPTED (R181): both mirrors have accepted a drained header. -/
  | stashPlaceAccepted
  /-- REMOVAL_START (R187): the next removal starts. -/
  | removalStart
  /-- REMOVAL_WAIT_END (R187): 4 µs after the clear was accepted. -/
  | removalWaitEnd
  /-- REMOVAL_FINAL_READ (R187): the final hot half arrives; how its reads end. -/
  | removalFinalRead (ends : List ReadEnd)
  /-- AGING_WALK_VISIT (R185): the walker reads the next hot half; how the read ends. -/
  | agingWalkVisit (ends : List ReadEnd)
  /-- ROUTINE_START (R235): an event of the sequencer finds a context. -/
  | routineStart (seq : Seq)
  /-- MICROWORD_ISSUE (R234): a ready context issues. -/
  | microwordIssue (seq : Seq) (ctx : Fin 32) (how : Issue)
  /-- MEM_RESPONSE (R245): operation `op` of the context responds; how its DRAM reads end. -/
  | memResponse (seq : Seq) (ctx : Fin 32) (op : Nat) (ends : List ReadEnd)
  /-- WAIT_SATISFIED (R241): the wait condition of a context is found to hold. -/
  | waitSatisfied (seq : Seq) (ctx : Fin 32)
  /-- CONTEXT_TIMER_EXPIRE (R241): the timer of a context runs out. -/
  | contextTimerExpire (seq : Seq) (ctx : Fin 32)
  /-- LOCK_GRANT (R246): a waiting LOCK finds its lock free. -/
  | lockGrant (seq : Seq) (ctx : Fin 32)
  /-- COMMIT_ACCEPTED (R248): every write of the COMMIT of a context has been accepted. -/
  | commitAccepted (seq : Seq) (ctx : Fin 32)
  /-- DEADLINE (R257): the first deadline of the SETUP in a context, or of the tracker entry that waits for one. -/
  | deadlineFault (pipe : Fin 8) (ctx : Option (Fin 32)) (entry : Nat)
  /-- SLICE (R249): 8 µs with visible state. -/
  | sliceFault (seq : Seq) (ctx : Fin 32)
  /-- PIP_STOP (R254): a write of PIP_CTL.STOP = 1. -/
  | pipStop (m : Master) (seq : Seq)
  /-- PIP_RESUME (R254): a write of PIP_CTL.STOP = 0. -/
  | pipResume (m : Master) (seq : Seq)
  /-- PIP_LOAD_GO (R261): a write of PIP_LOAD_CTL.GO. -/
  | pipLoadGo (m : Master) (seq : Seq)
  /-- PIP_LOAD_CHECKED (R261): the image that memory holds at the load address, and whether it could be read. -/
  | pipLoadChecked (seq : Seq) (image : List Byte) (dmaOk : Bool)
  /-- PIP_INSTALL (R262): a passed image is installed. -/
  | pipInstall (seq : Seq)
  /-- NANO_REFETCH_DONE (R259): the reread of a nano-word from its DRAM copy ends. -/
  | nanoRefetchDone (seq : Seq) (ctx : Fin 32) (index : Nat) (ok : Bool)
  /-- DRAM_COMMAND_ISSUE (R270): a command cycle of a pseudo-channel; whether its oldest read has waited past its bound, and whether the stack reports a command error on a write it issues. -/
  | dramCommandIssue (pc : Fin 128) (aged err : Bool)
  /-- DRAM_WRITE_ACCEPT (R269): the write queue has room for the next write. -/
  | dramWriteAccept (pc : Fin 128)
  /-- DRAM_READ_COMPLETE (R276): the oldest read in flight ends. -/
  | dramReadComplete (pc : Fin 128) (how : ReadEnd)
  /-- REFRESH_DUE (R280): a bank falls due, its stack at that temperature, with the errors that lines of it have gathered (R276). -/
  | refreshDue (pc : Fin 128) (bank : Fin 16) (celsius : Nat) (faults : List (Nat × ReadEnd))
  /-- RETRAIN_START (R281): the retraining period of a channel elapses. -/
  | retrainStart (stack : Fin 4) (ch : Fin 16)
  /-- RETRAIN_END (R281): the retraining of a channel ends. -/
  | retrainEnd (stack : Fin 4) (ch : Fin 16) (ok : Bool)
  /-- PC_FREEZE (R282): a write of FMC_PC_CTL.FREEZE. -/
  | pcFreeze (m : Master) (pc : Fin 128)
  /-- PC_RELEASE (R285): a write of FMC_PC_CTL.RELEASE. -/
  | pcRelease (m : Master) (pc : Fin 128)
  /-- RELEASE_RETRAIN_DONE (R285): the retraining of a release ends. -/
  | releaseRetrainDone (pc : Fin 128)
  /-- REPAIR_ENTRY (R279): the engine takes the next degraded line; how its read ends. -/
  | repairEntry (stack : Fin 4) (ends : List ReadEnd)
  /-- ROW_RETIRE (R286): a write of FMC_RETIRE_CTL.GO with KIND 0: pseudo-channel of the stack, bank and row. -/
  | rowRetire (m : Master) (stack : Fin 4) (pc : Fin 32) (bank : Fin 16) (row : Fin 32768)
  /-- PC_RETIRE (R287): a write of FMC_RETIRE_CTL.GO with KIND 1. -/
  | pcRetire (m : Master) (stack : Fin 4) (pc : Fin 32)
  /-- REBUILD_LINE (R288): the rebuild takes its next line; how its read ends. -/
  | rebuildLine (stack : Fin 4) (ends : List ReadEnd)
  /-- REBUILD_DONE (R288): the rebuild reaches its end. -/
  | rebuildDone (stack : Fin 4)
  /-- DIAG_READ (R284): a write of FMC_DIAG_CTL.GO with WRITE 0. -/
  | diagRead (m : Master) (stack : Fin 4) (pc : Fin 32)
  /-- DIAG_WRITE (R284): a write of FMC_DIAG_CTL.GO with WRITE 1. -/
  | diagWrite (m : Master) (stack : Fin 4) (pc : Fin 32)
  /-- DIAG_DONE (R284): the DIAG access ends; the codeword the array gives, where it is not the one last written. -/
  | diagDone (stack : Fin 4) (raw : Option (BitVec 576))
  /-- SCRUB_READ (R291): the scrubber reads its next line. -/
  | scrubRead
  /-- BW_WINDOW_END (R292): the bandwidth window of the stack ends. -/
  | bwWindowEnd (stack : Fin 4)
  /-- TX_FRAME_START (R306): the port asks for its next frame. -/
  | txFrameStart (port : Fin 128)
  /-- TX_FRAME_DONE (R294): the last byte of the frame in transmission; the cells read with an error, true where it is
  uncorrectable (R305). -/
  | txFrameDone (port : Fin 128) (cells : List (Nat × Bool))
  /-- Q_FLUSH (R303): a write of TMB_Q_FLUSH. -/
  | qFlush (m : Master) (port : Fin 128) (mask : BitVec 8)
  /-- WATERMARK_WRITE (R310): a write of the high watermark of a queue, or of the low watermark of the pool. -/
  | watermarkWrite (m : Master) (queue : Option (Fin 128 × Fin 8)) (value : W32)
  /-- TOKEN_REFILL (R312): 64 ns of counted time have passed. -/
  | tokenRefill
  /-- GATE_CHANGE (R326): the present entry of the list of a port ends. -/
  | gateChange (port : Fin 128)
  /-- LIST_START (R331): the start time of an adopted list is reached. -/
  | listStart (port : Fin 128)
  /-- MESSAGE_FLUSH (R334): FLUSH_US after the first record of the message. -/
  | messageFlush
  /-- TEMPLATE_SEND (R337): a write of TEL_EXPORT_TMPL with SEND, and its REFRESH_S. -/
  | templateSend (m : Master) (refresh : BitVec 16)
  /-- TEMPLATE_REFRESH (R337): REFRESH_S seconds have passed. -/
  | templateRefresh
  /-- START_RECORD_READ (R339): the reads of the oldest start entry end. -/
  | startRecordRead (ends : List ReadEnd)
  /-- SNAPSHOT_PERIODIC (R345): a multiple of PERIOD_US; whether the previous snapshot is still being written. -/
  | snapshotPeriodic (busy : Bool)
  /-- SNAP_NOW (R345): a write of TEL_SNAP_CTL.NOW; whether the previous snapshot is still being written. -/
  | snapNow (m : Master) (busy : Bool)
  /-- ELEPHANT_WINDOW_END (R348): WIN_EPOCHS boundary events have passed. -/
  | elephantWindowEnd
  /-- COUNTER_LOW_READ (R359): a read of the low word of a 64-bit counter. -/
  | counterLowRead (m : Master) (addr : BitVec 26)
  /-- COUNTER_HIGH_READ (R359): a read of the high word of a 64-bit counter. -/
  | counterHighRead (m : Master) (addr : BitVec 26)
  /-- COUNTER_PRESET (R360): a write of PMC_PRE_CTL.GO. -/
  | counterPreset (m : Master)
  /-- FILTER_CFG_WRITE (R364): a write of PMC_FLT_CFGf. -/
  | filterCfgWrite (m : Master) (pipe : Fin 8) (filter : Fin 16) (value : W32)
  /-- PMC_WINDOW_END (R367): a multiple of the window length is crossed. -/
  | pmcWindowEnd
  /-- SWEEP_VISIT (R378): the hot half of the next record is read; how the read ends. -/
  | sweepVisit (ends : List ReadEnd)
  /-- SWEEP_COLD_READ (R378): the cold half is read. -/
  | sweepColdRead (ends : List ReadEnd)
  /-- SWEEP_ROLLED_ACCEPTED (R378): the ROLLED write is accepted. -/
  | sweepRolledAccepted
  /-- FINAL_ROLL (R379): the cold half of a removed record is read. -/
  | finalRoll (ends : List ReadEnd)
  /-- LOST_RECORD_READ (R382): the halves of a lost record are read. -/
  | lostRecordRead (ends : List ReadEnd)
  /-- CLOSE_ENTRY_READ (R386): the entry of the next touched account is read; whether the bitmap line that names it could not be
  (R383). -/
  | closeEntryRead (bitmapLost : Bool) (ends : List ReadEnd)
  /-- BLOCK_TAGGED (R389): the tag of a ledger block is complete. -/
  | blockTagged
  /-- HEAD_PERSISTED (R396): the head write is complete. -/
  | headPersisted
  /-- BLOCK_TO_RING (R390): a staged block goes onto ring 32, or is found lost in both copies (R391). -/
  | blockToRing (lost : Bool)
  /-- ALIVE_PERSIST (R397): a multiple of 2^20 ns. -/
  | alivePersist
  /-- KEY_LOAD (R393): a write of QNC_KEY_CTL.LOAD. -/
  | keyLoad (m : Master)
  /-- KEY_UNWRAP_DONE (R393): the unwrap of the ledger key is complete. -/
  | keyUnwrapDone
  /-- CPH_BIND (R406): a write of CPH_BINDn. -/
  | cphBind (m : Master) (page : Fin 64) (value : W32)
  /-- CPH_VIOLATION (R408): an access to a user half by a master that it is not bound to. -/
  | cphViolation (m : Master) (page : Fin 64) (offset : BitVec 11) (write : Bool)
  /-- CPH_KEY_LOAD (R410): a write of CPH_KEY_CTL.LOAD. -/
  | cphKeyLoad (m : Master) (page : Fin 64)
  /-- CPH_KEY_LOAD_DONE (R413): the load of a key ends. -/
  | cphKeyLoadDone (page : Fin 64)
  /-- ZEROIZE (R413): a write of CPH_KEY_CTL.ZEROIZE. -/
  | zeroize (m : Master) (page : Fin 64)
  /-- CPH_JOB_GO (R415): a write of CPH_JOB_CTL.GO. -/
  | cphJobGo (m : Master) (page : Fin 64)
  /-- CPH_JOB_ABORT (R419): a write of CPH_JOB_CTL.ABORT; the blocks of the segment already done, and the input they read from host memory. -/
  | cphJobAbort (m : Master) (page : Fin 64) (done : Nat) (input : List Byte)
  /-- ENGINE_GRANT (R404): a free engine takes a segment. -/
  | engineGrant (engine : Fin 16)
  /-- SEGMENT_DONE (R404): an engine finishes; what host memory holds of the segment, and whether DMA worked. -/
  | segmentDone (engine : Fin 16) (input : List Byte) (dmaOk : Bool)
  /-- RNG_FAIL (R423): a health test fails. -/
  | rngFail
  /-- RNG_RECOVER (R423): the tests have passed for 1 ms. -/
  | rngRecover
  /-- MBX_BIND_WRITE (R429): a write of MBX_BINDc. -/
  | mbxBindWrite (m : Master) (ch : Fin 16) (value : W32)
  /-- MBX_VIOLATION (R430): an access to a channel page by a stranger or with EN 0. -/
  | mbxViolation (m : Master) (ch : Fin 16) (offset : BitVec 12) (write : Bool)
  /-- MBX_POST (R434): a write of MBX_POST. -/
  | mbxPost (m : Master) (ch : Fin 16) (value : W32)
  /-- TAKE (R433): a write of MBX_RX_CTL.TAKE. -/
  | mbxTake (m : Master) (ch : Fin 16)
  /-- MBX_ACK_WRITE (R433): a write of MBX_ACK. -/
  | mbxAckWrite (m : Master) (ch : Fin 16) (value : W32)
  /-- DOORBELL_SET (R436): a write of MBX_DB_SET. -/
  | doorbellSet (m : Master) (ch : Fin 16) (bits : W32)
  /-- DOORBELL_CLEAR (R436): a W1C write of MBX_DB. -/
  | doorbellClear (m : Master) (ch : Fin 16) (bits : W32)
  /-- DOORBELL_MASK_WRITE (R437): a write of MBX_DB_MASK. -/
  | doorbellMaskWrite (m : Master) (ch : Fin 16) (mask : W32)
  /-- MBX_DECLARE_RESET (R438): a write of MBX_DECLARE.RESET. -/
  | mbxDeclareReset (m : Master)
  /-- STACK_LINK_UP (R447): the link trains with that device and link number. -/
  | stackLinkUp (link : Fin 4) (peer : Fin 4) (peerLink : Fin 4)
  /-- STACK_LINK_DOWN (R447): the link goes down. -/
  | stackLinkDown (link : Fin 4)
  /-- STACK_FRAME_RX (R449): a frame is received whole. -/
  | stackFrameRx (link : Fin 4) (frame : List Byte)
  /-- STEER_RX (R465): the oldest received frame of the link, a STEER frame, is acted on. -/
  | steerRx (link : Fin 4)
  /-- DATA_RX (R463): the oldest received frame of the link, a DATA frame, is acted on. -/
  | dataRx (link : Fin 4)
  /-- HELLO (R446): the oldest received frame of the link, a HELLO frame, is acted on. -/
  | helloRx (link : Fin 4)
  /-- HELLO_SEND (R451): every 1 ms. -/
  | helloSend
  /-- TIME (R453): the oldest received frame of the link, a TIME frame, is acted on. -/
  | timeRx (link : Fin 4)
  /-- TIME_SEND (R452): a multiple of 2^14 ns. -/
  | timeSend
  /-- DELAY_REQ (R452): the oldest received frame of the link, a DELAY_REQ frame, is acted on. -/
  | delayReqRx (link : Fin 4)
  /-- DELAY_REQ_SEND (R452): every 1 ms. -/
  | delayReqSend
  /-- DELAY_RESP (R452): the oldest received frame of the link, a DELAY_RESP frame, is acted on. -/
  | delayRespRx (link : Fin 4)
  /-- PREPARE_SEND (R458): B − PREP_US is reached. -/
  | prepareSend
  /-- PREPARE (R458): the oldest received frame of the link, a PREPARE frame, is acted on. -/
  | prepareRx (link : Fin 4)
  /-- PREPARED (R458): the oldest received frame of the link, a PREPARED frame, is acted on. -/
  | preparedRx (link : Fin 4)
  /-- REFUSED (R458): the oldest received frame of the link, a REFUSED frame, is acted on. -/
  | refusedRx (link : Fin 4)
  /-- DECIDE_SEND (R458): B − MARGIN_US is reached. -/
  | decideSend
  /-- DECIDE (R458): the oldest received frame of the link, a DECIDE frame, is acted on. -/
  | decideRx (link : Fin 4)
  /-- TIME_LOST (R456): no TIME for four intervals of 2^14 ns. -/
  | timeLost
  /-- PEER_LIVE_EXPIRE (R458): no HELLO of a device for 4 ms. -/
  | peerLiveExpire (device : Fin 4)
  /-- HANDBACK (R461): a write of CSC_MASTER_CTL.HANDBACK. -/
  | handback (m : Master)
  /-- CASC_EPOCH_EDGE (R455): the falling edge, and its distance in ns from the own boundary. -/
  | cascEpochEdge (skewNs : Int)
  /-- CASC_EPOCH_RELEASE (R455): 100 ns after the boundary of the master. -/
  | cascEpochRelease
  /-- RMT_GO (R469): a write of CSC_RMT_CTL.GO. -/
  | rmtGo (m : Master) (write : Bool)
  /-- RMT_REQ (R469): the oldest received frame of the link, an RMT_REQ frame, is acted on. -/
  | rmtReqRx (link : Fin 4)
  /-- RMT_RSP (R469): the oldest received frame of the link, an RMT_RSP frame, is acted on. -/
  | rmtRspRx (link : Fin 4)
  /-- RMT_TIMEOUT (R469): no response for 2 µs. -/
  | rmtTimeout
  /-- SRAM_SCRUB (R475): the word that is read, by the scrubber or (`inUse`) by its unit, what is found, and how the DRAM reads that
  follow end. -/
  | sramScrub (word : Sram) (index : Nat) (found : ScrubEnd) (inUse : Bool) (ends : List ReadEnd)
  /-- ERROR_LOG_WRITTEN (R482): the oldest record waiting for the persistent log is written. -/
  | errorLogWritten
  /-- FW_LOAD (R486): a write of RAS_FW_CTL.LOAD. -/
  | fwLoad (m : Master)
  /-- FW_CHECK_DONE (R487): the image that host memory holds, and whether DMA worked. -/
  | fwCheckDone (image : List Byte) (dmaOk : Bool)
  /-- FW_PROGRAM_DONE (R487): programming and read-back end. -/
  | fwProgramDone (ok : Bool)
  /-- YIELD (R488): a write of RAS_FW_CTL.YIELD. -/
  | fwYield (m : Master)
  /-- YIELD_TIMEOUT (R488): 1 ms without YIELD. -/
  | yieldTimeout
  /-- FW_WARM_START (R488): 10 µs after the halt. -/
  | fwWarmStart
  /-- ALIVE (R489): a write of RAS_FW_WDOG with ALIVE, and its LIMIT_MS. -/
  | fwAlive (m : Master) (limitMs : BitVec 16)
  /-- FW_WDOG_EXPIRE (R489): no ALIVE within LIMIT_MS; what the flash slot to fall back to holds. -/
  | fwWdogExpire (other : List Byte)
  /-- KICK (R491): a write of RAS_MC_WDOG with KICK, and its LIMIT_MS. -/
  | mcKick (m : Master) (limitMs : BitVec 16)
  /-- MC_WDOG_EXPIRE (R491): the watchdog of the management core expires. -/
  | mcWdogExpire
  /-- INLINE_WRITE (R510): a write of SYS_BYPASS.INLINE. -/
  | inlineWrite (m : Master) (on : Bool)
  /-- AVS_WRITE (R523): a write of SYS_AVS. -/
  | avsWrite (m : Master) (value : W32)
  /-- I2C_TRANSACTION (R512): a read, or a write with its data, of a BAR0 offset. -/
  | i2cTransaction (addr : W32) (data : Option W32)
  /-- PCIE_LINK_DOWN (R24): the link is lost. -/
  | pcieLinkDown
  /-- PCIE_LINK_UP (R73, R62): the link has trained: its speed, 2.5, 5, 8, 16 or 32 GT/s, and the log2 of its width. -/
  | pcieLinkUp (speed width : Fin 5)
  /-- PERST_N_DEASSERT (R500): PERST_N rises. -/
  | perstNDeassert
  /-- CONFIG_WRITE (R64): a write of Configuration Space or of an entry of the MSI-X table. -/
  | configWrite (w : CfgWrite)
  /-- STACK_FRAME_TX (R450): the link takes its next frame; the errors met in its cells (R305). -/
  | stackFrameTx (link : Fin 4) (cells : List (Nat × Bool))
  /-- LED_TIMER_EXPIRE (R513): the half period of a blinking LED, or the off interval of one in mode 3. -/
  | ledTimerExpire (led : Fin 4)
deriving DecidableEq, Repr

end Sys2Proof
end

