-- ==== Sys2Proof/Decode.lean ====
section
/-!
DEFINITION. Reading a command from a word.  The block has no instruction encoding: no row of the opcode table gives bits, so no
word spells a command.
-/
namespace Sys2Proof

/-- The command a word of `nbits` bits spells by the table's bits: none, as no row gives bits. -/
def decodeTableWord (_nbits _w : Nat) : Option Instr := none

end Sys2Proof
end

