-- ==== Sys2Proof/Machine/Bits.lean ====
section
/-!
DEFINITION. Bit fields, byte order and small arithmetic, written once (R6: little-endian unless a format table or a published
protocol says otherwise).
-/
namespace Sys2Proof.Machine

/-- Bits `lo` to `lo + len - 1` of `v`. -/
def bitsOf (v lo len : Nat) : Nat := (v >>> lo) % 2 ^ len

/-- `v` with bits `lo` to `lo + len - 1` replaced by the low bits of `x`. -/
def setBitsOf (v lo len x : Nat) : Nat :=
  v - (bitsOf v lo len) * 2 ^ lo + (x % 2 ^ len) * 2 ^ lo

/-- Bit `i` of `v` as a Boolean. -/
def bitAt (v i : Nat) : Bool := v.testBit i

/-- 1 for true, 0 for false. -/
def b2n (b : Bool) : Nat := if b then 1 else 0

/-- A field of a bit vector. -/
def gb {n : Nat} (w : BitVec n) (lo len : Nat) : Nat := bitsOf w.toNat lo len

/-- A bit vector with a field replaced. -/
def sb {n : Nat} (w : BitVec n) (lo len x : Nat) : BitVec n := BitVec.ofNat n (setBitsOf w.toNat lo len x)

/-- Bit `i` of a bit vector. -/
def tb {n : Nat} (w : BitVec n) (i : Nat) : Bool := w.toNat.testBit i

/-- A signed reading of the low `n` bits of `v`. -/
def toSigned (n v : Nat) : Int :=
  let u := v % 2 ^ n
  if u < 2 ^ (n - 1) then (u : Int) else (u : Int) - (2 ^ n : Nat)

/-- The `n`-bit two's complement word of an integer. -/
def ofSigned (n : Nat) (x : Int) : Nat := (x % (2 ^ n : Nat)).toNat

/-- The `n` low bytes of `v`, lowest first (R6). -/
def bytesLE : Nat → Nat → List Byte
  | 0, _ => []
  | n + 1, v => BitVec.ofNat 8 v :: bytesLE n (v / 256)

/-- The value of bytes, lowest first (R6). -/
def ofBytesLE : List Byte → Nat
  | [] => 0
  | b :: t => b.toNat + 256 * ofBytesLE t

/-- The `n` low bytes of `v` in network order. -/
def bytesBE (n v : Nat) : List Byte := (bytesLE n v).reverse

/-- The value of bytes in network order. -/
def ofBytesBE (l : List Byte) : Nat := l.foldl (fun a b => a * 256 + b.toNat) 0

/-- `n` bytes of `l` from offset `o`; bytes past the end read 0. -/
def sliceB (l : List Byte) (o n : Nat) : List Byte :=
  let t := (l.drop o).take n
  t ++ List.replicate (n - t.length) 0#8

/-- Replace the bytes of `l` from offset `o` by `x` (inside `l`). -/
def patchB (l : List Byte) (o : Nat) (x : List Byte) : List Byte :=
  (l.take o ++ x ++ l.drop (o + x.length)).take (max l.length (o + x.length))

/-- Big-endian field of `n` bytes at offset `o`. -/
def beAt (l : List Byte) (o n : Nat) : Nat := ofBytesBE (sliceB l o n)

/-- Little-endian field of `n` bytes at offset `o`. -/
def leAt (l : List Byte) (o n : Nat) : Nat := ofBytesLE (sliceB l o n)

/-- Bytes as a bit vector of `w` bits, byte 0 lowest. -/
def lineOfBytes (w : Nat) (l : List Byte) : BitVec w := BitVec.ofNat w (ofBytesLE l)

/-- The number of 1 bits among the low `n` bits of `v`. -/
def popCount (n v : Nat) : Nat := ((List.range n).filter fun i => v.testBit i).length

/-- The indices below `n` of the 1 bits of `v`, rising. -/
def onesOf (n v : Nat) : List Nat := (List.range n).filter fun i => v.testBit i

/-- The lowest 1 bit below `n` of `v`. -/
def lowestOne (n v : Nat) : Option Nat := (List.range n).find? fun i => v.testBit i

/-- Round up division. -/
def ceilDiv (a b : Nat) : Nat := (a + b - 1) / b

/-- `a - b` modulo 2^n. -/
def subMod (n a b : Nat) : Nat := (a + (2 ^ n - b % 2 ^ n)) % 2 ^ n

/-- `a` clamped to at most `m`. -/
def satTo (m a : Nat) : Nat := min m a

/-- Apply `f` to each element of a list in turn. -/
def foldEach {α β : Type} (l : List β) (f : β → α → α) (a : α) : α := l.foldl (fun a b => f b a) a

end Sys2Proof.Machine
end

