-- ==== Sys2Proof/Machine/Crc.lean ====
section
/-!
DEFINITION. The CRCs the spec names: CRC-32C of RFC 3720 (flow hash R123, store R482, stack frames), the Ethernet FCS, and
CRC-64 where a chapter asks for it.
-/
namespace Sys2Proof.Machine

/-- One bit of a reflected CRC with reflected polynomial `p`. -/
def crcBit (p c : Nat) : Nat := if c.testBit 0 then (c >>> 1) ^^^ p else c >>> 1

/-- One byte of a reflected CRC. -/
def crcByte (p c : Nat) (b : Byte) : Nat :=
  let x := c ^^^ b.toNat
  crcBit p (crcBit p (crcBit p (crcBit p (crcBit p (crcBit p (crcBit p (crcBit p x)))))))

/-- A reflected CRC over bytes from initial value `i`. -/
def crcRun (p i : Nat) (l : List Byte) : Nat := l.foldl (crcByte p) i

/-- CRC-32C: polynomial 0x1EDC6F41 reflected, initial value and final XOR all ones (R123). -/
def crc32c (l : List Byte) : Nat := crcRun 0x82F63B78 0xFFFFFFFF l ^^^ 0xFFFFFFFF

/-- The Ethernet FCS: CRC-32, polynomial 0x04C11DB7 reflected (IEEE 802.3, R101). -/
def crc32 (l : List Byte) : Nat := crcRun 0xEDB88320 0xFFFFFFFF l ^^^ 0xFFFFFFFF

/-- The FCS of a frame's bytes, in wire order. -/
def fcsOf (l : List Byte) : List Byte := bytesLE 4 (crc32 l)

/-- One bit of a CRC that shifts left in 64 bits with polynomial `p`. -/
def crc64Bit (p c : Nat) : Nat := if c.testBit 63 then (2 * c % 2 ^ 64) ^^^ p else 2 * c % 2 ^ 64

/-- One byte of such a CRC. -/
def crc64Byte (p c : Nat) (b : Byte) : Nat :=
  let x := c ^^^ (b.toNat * 2 ^ 56)
  crc64Bit p (crc64Bit p (crc64Bit p (crc64Bit p (crc64Bit p (crc64Bit p (crc64Bit p (crc64Bit p x)))))))

/-- CRC-64 of ECMA-182, not reflected, initial value and final XOR 0 (R158). -/
def crc64 (l : List Byte) : Nat := l.foldl (crc64Byte 0x42F0E1EBA9EA3693) 0

end Sys2Proof.Machine
end

