-- ==== Sys2Proof/Config.lean ====
section
/-!
DEFINITION. What a part has fused or wired, and the values the spec leaves open.  Each is an opaque constant: nothing can be
proved of its value, so what is proved holds whatever it is.  The assumption log names each.
-/
namespace Sys2Proof.Config

/-- The n-th free value: a value that the spec leaves open, drawn with the model's counter `Io.free`. -/
opaque freeValue : Nat → Nat

/-- The VDD_CORE set-point fused in the part, SYS_AVS.TARGET_MV (R523). -/
opaque fusedTargetMv : BitVec 10

/-- The device's unique identity in one-time storage. -/
opaque uid : BitVec 64

/-- The root key of one-time storage, from which KB and the device keys derive (R411). -/
opaque rootKey : BitVec 256

/-- The identity key of one-time storage. -/
opaque identityKey : BitVec 256

/-- The SHA-384 digest of the firmware key in one-time storage (R486). -/
opaque fwKeyDigest : BitVec 384

/-- The SHA-384 digest of the patch key in one-time storage (R261). -/
opaque patchKeyDigest : BitVec 384

/-- PG_CAPS of a page by its block code: the spec says only that each block defines it (R69). -/
opaque caps : Nat → BitVec 32

/-- PG_STAT.BLK_STAT of a page by block code: a block-specific status the spec does not define (R69). -/
opaque blkStat : Nat → BitVec 16

/-- The reading of a die sensor, in °C, that nothing has yet reported (R495). -/
opaque dieTemp : Nat → Nat

/-- The 8 check bytes of a line in a pseudo-channel at a local line address (R276): the code itself is not in the spec. -/
opaque checkBytes : Nat → Nat → BitVec 512 → BitVec 64

/-- The microword ROM of a kind of sequencer (0 pipeline, 1 global): the spec gives its routines' work, not its words (R236, R255). -/
opaque rom : Nat → Nat → BitVec 24

/-- The boot image's nano-words of a kind of sequencer (R238). -/
opaque nano : Nat → Nat → BitVec 192

end Sys2Proof.Config
end

