-- ==== Sys2Proof/Machine/RegMap.lean ====
section
/-!
DEFINITION. The register map: one `Fld` per named field of every register table of the spec (offset in its page, stride
between the registers of an array, lowest bit, width, whether it is an RWS field), and one `RegRow` per register with the
masks of its access types (R7) and its reset value.  A register's rule is named beside it.  Fields named `reserved` are
in no mask: they read 0 and are not stored (R11).  A dash or a word in the spec's Reset column is 0 here; the values that
depend on the index or on the part are in `resetWord` (Ops).
-/
namespace Sys2Proof.Machine

/-- A register field: byte offset in the page, stride of the register array, lowest bit, width, RWS or not. -/
structure Fld where
  off : Nat
  stride : Nat
  lo : Nat
  len : Nat
  rws : Bool := false
deriving DecidableEq, Repr

/-- A register: offset, stride, count, number of 32-bit words, 64-bit counter or not, reset value and access masks (R7). -/
structure RegRow where
  off : Nat
  stride : Nat
  count : Nat
  words : Nat
  ctr : Bool
  reset : Nat
  rw : Nat
  rws : Nat
  w1c : Nat
  w1s : Nat
  wo : Nat
  rwl : Nat
deriving DecidableEq, Repr

/-! ### CLK page -/

/-- CLK_SYNTH_CFG FBDIV (R58). -/
def CLK_SYNTH_CFG.FBDIV : Fld := ⟨0x40, 4, 12, 12, false⟩
/-- CLK_SYNTH_CFG REFDIV (R58). -/
def CLK_SYNTH_CFG.REFDIV : Fld := ⟨0x40, 4, 0, 8, false⟩
/-- CLK_STAT REF_LOST (R58). -/
def CLK_STAT.REF_LOST : Fld := ⟨0x44, 4, 3, 1, false⟩
/-- CLK_STAT HOLDOVER (R58). -/
def CLK_STAT.HOLDOVER : Fld := ⟨0x44, 4, 2, 1, false⟩
/-- CLK_STAT REF_PRESENT (R58). -/
def CLK_STAT.REF_PRESENT : Fld := ⟨0x44, 4, 1, 1, false⟩
/-- CLK_STAT LOCK (R58). -/
def CLK_STAT.LOCK : Fld := ⟨0x44, 4, 0, 1, false⟩
/-- CLK_STRETCH_LIMIT LIMIT_US (R58). -/
def CLK_STRETCH_LIMIT.LIMIT_US : Fld := ⟨0x48, 4, 0, 16, false⟩
/-- CLK_DROOP_ACTIVE ACTIVE (R58). -/
def CLK_DROOP_ACTIVE.ACTIVE : Fld := ⟨0x4c, 4, 0, 32, false⟩
/-- CLK_DROOP_STICKY SEEN (R58). -/
def CLK_DROOP_STICKY.SEEN : Fld := ⟨0x50, 4, 0, 32, false⟩
/-- CLK_DROOP_CFGn EN (R58). -/
def CLK_DROOP_CFGn.EN : Fld := ⟨0x80, 4, 31, 1, false⟩
/-- CLK_DROOP_CFGn TRIP2 (R58). -/
def CLK_DROOP_CFGn.TRIP2 : Fld := ⟨0x80, 4, 8, 6, false⟩
/-- CLK_DROOP_CFGn TRIP1 (R58). -/
def CLK_DROOP_CFGn.TRIP1 : Fld := ⟨0x80, 4, 0, 6, false⟩
/-- CLK_SWALLOWn COUNT (R58). -/
def CLK_SWALLOWn.COUNT : Fld := ⟨0x100, 8, 0, 64, false⟩
/-- CLK_STRETCH_EVTn COUNT (R58). -/
def CLK_STRETCH_EVTn.COUNT : Fld := ⟨0x180, 4, 0, 32, false⟩
/-! ### EPC page -/

/-- EPC_EPOCH_CFG K (R59). -/
def EPC_EPOCH_CFG.K : Fld := ⟨0x40, 4, 0, 5, true⟩
/-- EPC_EPOCH_NUM NUM (R59). -/
def EPC_EPOCH_NUM.NUM : Fld := ⟨0x44, 4, 0, 32, false⟩
/-- EPC_TIME_NS NS (R59). -/
def EPC_TIME_NS.NS : Fld := ⟨0x48, 4, 0, 32, false⟩
/-- EPC_TIME_SEC_LO SEC[31:0] (R59). -/
def EPC_TIME_SEC_LO.SEC : Fld := ⟨0x4c, 4, 0, 32, false⟩
/-- EPC_TIME_SEC_HI SEC[47:32] (R59). -/
def EPC_TIME_SEC_HI.SEC : Fld := ⟨0x50, 4, 0, 16, false⟩
/-- EPC_RATE_ADJ PPB (R59). -/
def EPC_RATE_ADJ.PPB : Fld := ⟨0x54, 4, 0, 32, false⟩
/-- EPC_STEP_NS NS (R59). -/
def EPC_STEP_NS.NS : Fld := ⟨0x58, 4, 0, 32, false⟩
/-- EPC_STEP_SEC SEC (R59). -/
def EPC_STEP_SEC.SEC : Fld := ⟨0x5c, 4, 0, 32, false⟩
/-- EPC_STEP_CTL MODE (R59). -/
def EPC_STEP_CTL.MODE : Fld := ⟨0x60, 4, 1, 1, false⟩
/-- EPC_STEP_CTL GO (R59). -/
def EPC_STEP_CTL.GO : Fld := ⟨0x60, 4, 0, 1, false⟩
/-- EPC_COMMIT_TARGET TARGET (R59). -/
def EPC_COMMIT_TARGET.TARGET : Fld := ⟨0x64, 4, 0, 32, false⟩
/-- EPC_COMMIT_CTL ABORT (R59). -/
def EPC_COMMIT_CTL.ABORT : Fld := ⟨0x68, 4, 1, 1, false⟩
/-- EPC_COMMIT_CTL GO (R59). -/
def EPC_COMMIT_CTL.GO : Fld := ⟨0x68, 4, 0, 1, false⟩
/-- EPC_COMMIT_STAT STATE (R59). -/
def EPC_COMMIT_STAT.STATE : Fld := ⟨0x6c, 4, 0, 3, false⟩
/-- EPC_DRAIN_MAX NS (R59). -/
def EPC_DRAIN_MAX.NS : Fld := ⟨0x70, 4, 0, 32, false⟩
/-- EPC_STAT STEP_BACK (R59). -/
def EPC_STAT.STEP_BACK : Fld := ⟨0x74, 4, 1, 1, false⟩
/-- EPC_STAT BOUNDARY_DEFERRED (R59). -/
def EPC_STAT.BOUNDARY_DEFERRED : Fld := ⟨0x74, 4, 0, 1, false⟩
/-! ### HDR page -/

/-- PG_ID BLOCK (R69). -/
def PG_ID.BLOCK : Fld := ⟨0x0, 4, 16, 16, false⟩
/-- PG_ID INSTANCE (R69). -/
def PG_ID.INSTANCE : Fld := ⟨0x0, 4, 8, 8, false⟩
/-- PG_ID VERSION (R69). -/
def PG_ID.VERSION : Fld := ⟨0x0, 4, 0, 8, false⟩
/-- PG_CAPS CAPS (R69). -/
def PG_CAPS.CAPS : Fld := ⟨0x4, 4, 0, 32, false⟩
/-- PG_CTL SOFT_RST (R69). -/
def PG_CTL.SOFT_RST : Fld := ⟨0x8, 4, 1, 1, false⟩
/-- PG_CTL EN (R69). -/
def PG_CTL.EN : Fld := ⟨0x8, 4, 0, 1, false⟩
/-- PG_STAT BLK_STAT (R69). -/
def PG_STAT.BLK_STAT : Fld := ⟨0xc, 4, 16, 16, false⟩
/-- PG_STAT RST_BUSY (R69). -/
def PG_STAT.RST_BUSY : Fld := ⟨0xc, 4, 1, 1, false⟩
/-- PG_STAT READY (R69). -/
def PG_STAT.READY : Fld := ⟨0xc, 4, 0, 1, false⟩
/-- PG_IRQ_STAT STAT (R69). -/
def PG_IRQ_STAT.STAT : Fld := ⟨0x10, 4, 0, 32, false⟩
/-- PG_IRQ_EN EN (R69). -/
def PG_IRQ_EN.EN : Fld := ⟨0x14, 4, 0, 32, false⟩
/-- PG_IRQ_FORCE FORCE (R69). -/
def PG_IRQ_FORCE.FORCE : Fld := ⟨0x18, 4, 0, 32, false⟩
/-- PG_ERR_CAP VALID (R69). -/
def PG_ERR_CAP.VALID : Fld := ⟨0x1c, 4, 31, 1, false⟩
/-- PG_ERR_CAP TYPE (R69). -/
def PG_ERR_CAP.TYPE : Fld := ⟨0x1c, 4, 24, 4, false⟩
/-- PG_ERR_CAP MASTER (R69). -/
def PG_ERR_CAP.MASTER : Fld := ⟨0x1c, 4, 16, 8, false⟩
/-- PG_ERR_CAP OFFSET (R69). -/
def PG_ERR_CAP.OFFSET : Fld := ⟨0x1c, 4, 0, 12, false⟩
/-- PG_ERR_CNT COUNT (R69). -/
def PG_ERR_CNT.COUNT : Fld := ⟨0x20, 4, 0, 32, false⟩
/-- PG_SHADOW_CTL ARM_REFUSED (R69). -/
def PG_SHADOW_CTL.ARM_REFUSED : Fld := ⟨0x24, 4, 5, 1, false⟩
/-- PG_SHADOW_CTL WR_DROPPED (R69). -/
def PG_SHADOW_CTL.WR_DROPPED : Fld := ⟨0x24, 4, 4, 1, false⟩
/-- PG_SHADOW_CTL SHADOW_BUSY (R69). -/
def PG_SHADOW_CTL.SHADOW_BUSY : Fld := ⟨0x24, 4, 3, 1, false⟩
/-- PG_SHADOW_CTL ACTIVE_BANK (R69). -/
def PG_SHADOW_CTL.ACTIVE_BANK : Fld := ⟨0x24, 4, 2, 1, false⟩
/-- PG_SHADOW_CTL RD_SEL (R69). -/
def PG_SHADOW_CTL.RD_SEL : Fld := ⟨0x24, 4, 1, 1, false⟩
/-- PG_SHADOW_CTL ARM (R69). -/
def PG_SHADOW_CTL.ARM : Fld := ⟨0x24, 4, 0, 1, false⟩
/-- PG_EPOCH_TAG EPOCH (R69). -/
def PG_EPOCH_TAG.EPOCH : Fld := ⟨0x28, 4, 0, 32, false⟩
/-- PG_OWNER LOCKED (R69). -/
def PG_OWNER.LOCKED : Fld := ⟨0x2c, 4, 8, 1, false⟩
/-- PG_OWNER OWNER (R69). -/
def PG_OWNER.OWNER : Fld := ⟨0x2c, 4, 0, 8, false⟩
/-! ### SYS page -/

/-- SYS_DEVICE_ID DEVICE (R76). -/
def SYS_DEVICE_ID.DEVICE : Fld := ⟨0x40, 4, 16, 16, false⟩
/-- SYS_DEVICE_ID REVISION (R76). -/
def SYS_DEVICE_ID.REVISION : Fld := ⟨0x40, 4, 8, 8, false⟩
/-- SYS_DEVICE_ID PACKAGE (R76). -/
def SYS_DEVICE_ID.PACKAGE : Fld := ⟨0x40, 4, 0, 8, false⟩
/-- SYS_STRAP STRAPS (R76). -/
def SYS_STRAP.STRAPS : Fld := ⟨0x44, 4, 0, 32, false⟩
/-- SYS_IRQ_SUMMARY SUMMARY (R76). -/
def SYS_IRQ_SUMMARY.SUMMARY : Fld := ⟨0x48, 4, 0, 64, false⟩
/-- SYS_IRQ_EN EN (R76). -/
def SYS_IRQ_EN.EN : Fld := ⟨0x50, 4, 0, 64, false⟩
/-- SYS_IRQ_PIN_EN EN (R76). -/
def SYS_IRQ_PIN_EN.EN : Fld := ⟨0x58, 4, 0, 64, false⟩
/-- SYS_IRQ_REARM REARM (R76). -/
def SYS_IRQ_REARM.REARM : Fld := ⟨0x60, 4, 0, 64, false⟩
/-- SYS_IRQ_DET_SEL SOURCE (R76). -/
def SYS_IRQ_DET_SEL.SOURCE : Fld := ⟨0x68, 4, 0, 6, false⟩
/-- SYS_IRQ_MC_EN EN (R76). -/
def SYS_IRQ_MC_EN.EN : Fld := ⟨0x70, 4, 0, 64, false⟩
/-- SYS_IRQ_DETn MEMBERS (R76). -/
def SYS_IRQ_DETn.MEMBERS : Fld := ⟨0x80, 4, 0, 32, false⟩
/-- HIF_UNMAPPED_CNT COUNT (R76). -/
def HIF_UNMAPPED_CNT.COUNT : Fld := ⟨0xa0, 4, 0, 32, false⟩
/-- SYS_SEMn ACQUIRED (R76). -/
def SYS_SEMn.ACQUIRED : Fld := ⟨0x100, 4, 31, 1, false⟩
/-- SYS_SEMn HOLDER (R76). -/
def SYS_SEMn.HOLDER : Fld := ⟨0x100, 4, 0, 8, false⟩
/-- SYS_SEM_FORCE RELEASE (R76). -/
def SYS_SEM_FORCE.RELEASE : Fld := ⟨0x180, 4, 0, 32, false⟩
/-! ### RING page -/

/-- RING_BASE ADDR (R81). -/
def RING_BASE.ADDR : Fld := ⟨0x40, 4, 0, 64, false⟩
/-- RING_SIZE LOG2 (R81). -/
def RING_SIZE.LOG2 : Fld := ⟨0x48, 4, 0, 5, false⟩
/-- RING_PROD IDX (R81). -/
def RING_PROD.IDX : Fld := ⟨0x4c, 4, 0, 16, false⟩
/-- RING_CONS IDX (R81). -/
def RING_CONS.IDX : Fld := ⟨0x50, 4, 0, 16, false⟩
/-- RING_CTL MOD_US (R81). -/
def RING_CTL.MOD_US : Fld := ⟨0x54, 4, 24, 8, false⟩
/-- RING_CTL MOD_CNT (R81). -/
def RING_CTL.MOD_CNT : Fld := ⟨0x54, 4, 8, 16, false⟩
/-- RING_CTL VEC (R81). -/
def RING_CTL.VEC : Fld := ⟨0x54, 4, 1, 5, false⟩
/-- RING_CTL EN (R81). -/
def RING_CTL.EN : Fld := ⟨0x54, 4, 0, 1, false⟩
/-- RING_STAT BAD_ENTRY (R81). -/
def RING_STAT.BAD_ENTRY : Fld := ⟨0x58, 4, 3, 1, false⟩
/-- RING_STAT DMA_ERR (R81). -/
def RING_STAT.DMA_ERR : Fld := ⟨0x58, 4, 2, 1, false⟩
/-- RING_STAT OVERRUN (R81). -/
def RING_STAT.OVERRUN : Fld := ⟨0x58, 4, 1, 1, false⟩
/-- RING_STAT IRQ (R81). -/
def RING_STAT.IRQ : Fld := ⟨0x58, 4, 0, 1, false⟩
/-- RING_DROP_CNT COUNT (R81). -/
def RING_DROP_CNT.COUNT : Fld := ⟨0x5c, 4, 0, 32, false⟩
/-! ### FTR page -/

/-- FEAT_OFFERi OFFER (R92). -/
def FEAT_OFFERi.OFFER : Fld := ⟨0x40, 4, 0, 32, false⟩
/-- FEAT_ACCEPTi ACCEPT (R92). -/
def FEAT_ACCEPTi.ACCEPT : Fld := ⟨0x50, 4, 0, 32, false⟩
/-- FEAT_ACTIVEi ACTIVE (R92). -/
def FEAT_ACTIVEi.ACTIVE : Fld := ⟨0x60, 4, 0, 32, false⟩
/-- FEAT_COMMIT GO (R92). -/
def FEAT_COMMIT.GO : Fld := ⟨0x70, 4, 0, 1, false⟩
/-- FEAT_STATUS DETAIL (R92). -/
def FEAT_STATUS.DETAIL : Fld := ⟨0x74, 4, 16, 16, false⟩
/-- FEAT_STATUS CODE (R92). -/
def FEAT_STATUS.CODE : Fld := ⟨0x74, 4, 0, 4, false⟩
/-! ### ETH0 page -/

/-- ETH_GRP_CFG IFACE (R114). -/
def ETH_GRP_CFG.IFACE : Fld := ⟨0x40, 4, 4, 2, false⟩
/-- ETH_GRP_CFG MODE (R114). -/
def ETH_GRP_CFG.MODE : Fld := ⟨0x40, 4, 0, 2, false⟩
/-- ETH_GRP_CTL APPLY (R114). -/
def ETH_GRP_CTL.APPLY : Fld := ⟨0x44, 4, 0, 1, false⟩
/-- ETH_LANE_POL TX_INV (R114). -/
def ETH_LANE_POL.TX_INV : Fld := ⟨0x48, 4, 4, 4, false⟩
/-- ETH_LANE_POL RX_INV (R114). -/
def ETH_LANE_POL.RX_INV : Fld := ⟨0x48, 4, 0, 4, false⟩
/-- ETH_LANE_MAP TX_MAP (R114). -/
def ETH_LANE_MAP.TX_MAP : Fld := ⟨0x4c, 4, 8, 8, false⟩
/-- ETH_LANE_MAP RX_MAP (R114). -/
def ETH_LANE_MAP.RX_MAP : Fld := ⟨0x4c, 4, 0, 8, false⟩
/-- ETH_AN_CFG LT_EN (R114). -/
def ETH_AN_CFG.LT_EN : Fld := ⟨0x50, 4, 1, 1, false⟩
/-- ETH_AN_CFG AN_EN (R114). -/
def ETH_AN_CFG.AN_EN : Fld := ⟨0x50, 4, 0, 1, false⟩
/-- ETH_LOOPBACK MODE (R114). -/
def ETH_LOOPBACK.MODE : Fld := ⟨0x54, 4, 0, 2, false⟩
/-- ETH_LINK_STAT PORT (R114). -/
def ETH_LINK_STAT.PORT : Fld := ⟨0x58, 4, 0, 16, false⟩
/-- ETH_LINK_CHG CHG (R114). -/
def ETH_LINK_CHG.CHG : Fld := ⟨0x5c, 4, 0, 4, false⟩
/-- ETH_SERDES_STATj CDR_LOCK (R114). -/
def ETH_SERDES_STATj.CDR_LOCK : Fld := ⟨0x60, 4, 9, 1, false⟩
/-- ETH_SERDES_STATj SIG_DET (R114). -/
def ETH_SERDES_STATj.SIG_DET : Fld := ⟨0x60, 4, 8, 1, false⟩
/-- ETH_SERDES_STATj EYE_MV (R114). -/
def ETH_SERDES_STATj.EYE_MV : Fld := ⟨0x60, 4, 0, 8, false⟩
/-! ### ETH1 page -/

/-- ETH_MAC_CFG HOLD_MS (R114). -/
def ETH_MAC_CFG.HOLD_MS : Fld := ⟨0x40, 32, 24, 8, false⟩
/-- ETH_MAC_CFG FC_MODE (R114). -/
def ETH_MAC_CFG.FC_MODE : Fld := ⟨0x40, 32, 16, 2, false⟩
/-- ETH_MAC_CFG TX_EN (R114). -/
def ETH_MAC_CFG.TX_EN : Fld := ⟨0x40, 32, 15, 1, false⟩
/-- ETH_MAC_CFG RX_EN (R114). -/
def ETH_MAC_CFG.RX_EN : Fld := ⟨0x40, 32, 14, 1, false⟩
/-- ETH_MAC_CFG MAX_FRAME (R114). -/
def ETH_MAC_CFG.MAX_FRAME : Fld := ⟨0x40, 32, 0, 14, false⟩
/-- ETH_FC_XOFF XON (R114). -/
def ETH_FC_XOFF.XON : Fld := ⟨0x44, 32, 16, 16, false⟩
/-- ETH_FC_XOFF XOFF (R114). -/
def ETH_FC_XOFF.XOFF : Fld := ⟨0x44, 32, 0, 16, false⟩
/-- ETH_FC_QUANTA QUANTA (R114). -/
def ETH_FC_QUANTA.QUANTA : Fld := ⟨0x48, 32, 0, 16, false⟩
/-- ETH_PFC_MAP TX_EN (R114). -/
def ETH_PFC_MAP.TX_EN : Fld := ⟨0x4c, 32, 8, 8, false⟩
/-- ETH_PFC_MAP RX_EN (R114). -/
def ETH_PFC_MAP.RX_EN : Fld := ⟨0x4c, 32, 0, 8, false⟩
/-- ETH_PFC_WD ACTION (R114). -/
def ETH_PFC_WD.ACTION : Fld := ⟨0x50, 32, 16, 1, false⟩
/-- ETH_PFC_WD LIMIT_MS (R114). -/
def ETH_PFC_WD.LIMIT_MS : Fld := ⟨0x50, 32, 0, 16, false⟩
/-- ETH_FC_STAT WD_FIRED (R114). -/
def ETH_FC_STAT.WD_FIRED : Fld := ⟨0x54, 32, 16, 8, false⟩
/-- ETH_FC_STAT TX_XOFF (R114). -/
def ETH_FC_STAT.TX_XOFF : Fld := ⟨0x54, 32, 8, 8, false⟩
/-- ETH_FC_STAT RX_PAUSED (R114). -/
def ETH_FC_STAT.RX_PAUSED : Fld := ⟨0x54, 32, 0, 8, false⟩
/-! ### ETH2 page -/

/-- ETH_FEC_CORR COUNT (R114). -/
def ETH_FEC_CORR.COUNT : Fld := ⟨0x40, 32, 0, 64, false⟩
/-- ETH_FEC_UNCORR COUNT (R114). -/
def ETH_FEC_UNCORR.COUNT : Fld := ⟨0x48, 32, 0, 64, false⟩
/-- ETH_FEC_SYMERR COUNT (R114). -/
def ETH_FEC_SYMERR.COUNT : Fld := ⟨0x50, 32, 0, 64, false⟩
/-- ETH_FEC_DEGRADE_CFG THRESH (R114). -/
def ETH_FEC_DEGRADE_CFG.THRESH : Fld := ⟨0x58, 32, 0, 24, false⟩
/-- ETH_PCS_STAT DEGRADED (R114). -/
def ETH_PCS_STAT.DEGRADED : Fld := ⟨0x5c, 32, 3, 1, false⟩
/-- ETH_PCS_STAT HI_BER (R114). -/
def ETH_PCS_STAT.HI_BER : Fld := ⟨0x5c, 32, 2, 1, false⟩
/-- ETH_PCS_STAT AM_LOCK (R114). -/
def ETH_PCS_STAT.AM_LOCK : Fld := ⟨0x5c, 32, 1, 1, false⟩
/-- ETH_PCS_STAT BLOCK_LOCK (R114). -/
def ETH_PCS_STAT.BLOCK_LOCK : Fld := ⟨0x5c, 32, 0, 1, false⟩
/-! ### ETH3 page -/

/-- ETH_TS_RX_ADJj PS (R114). -/
def ETH_TS_RX_ADJj.PS : Fld := ⟨0x40, 4, 0, 32, false⟩
/-- ETH_TS_TX_ADJj PS (R114). -/
def ETH_TS_TX_ADJj.PS : Fld := ⟨0x50, 4, 0, 32, false⟩
/-- ETH_TXTS_CNT CNT (R114). -/
def ETH_TXTS_CNT.CNT : Fld := ⟨0x60, 4, 0, 32, false⟩
/-- ETH_TXTS_POP POP (R114). -/
def ETH_TXTS_POP.POP : Fld := ⟨0x64, 4, 0, 4, false⟩
/-- ETH_TXTS_OVF OVF (R114). -/
def ETH_TXTS_OVF.OVF : Fld := ⟨0x68, 4, 0, 4, false⟩
/-- ETH_TXTS_HEADj NS (R114). -/
def ETH_TXTS_HEADj.NS : Fld := ⟨0x70, 16, 0, 32, false⟩
/-- ETH_TXTS_HEADj.word 1 SEC_LO (R114). -/
def ETH_TXTS_HEADj_word_1.SEC_LO : Fld := ⟨0x74, 16, 0, 32, false⟩
/-- ETH_TXTS_HEADj.word 2 SEC_HI (R114). -/
def ETH_TXTS_HEADj_word_2.SEC_HI : Fld := ⟨0x78, 16, 0, 16, false⟩
/-- ETH_TXTS_HEADj.word 3 VALID (R114). -/
def ETH_TXTS_HEADj_word_3.VALID : Fld := ⟨0x7c, 16, 31, 1, false⟩
/-- ETH_TXTS_HEADj.word 3 DOMAIN (R114). -/
def ETH_TXTS_HEADj_word_3.DOMAIN : Fld := ⟨0x7c, 16, 16, 8, false⟩
/-- ETH_TXTS_HEADj.word 3 SEQ_ID (R114). -/
def ETH_TXTS_HEADj_word_3.SEQ_ID : Fld := ⟨0x7c, 16, 0, 16, false⟩
/-- ETH_PPS_CFG WIDTH_US (R114). -/
def ETH_PPS_CFG.WIDTH_US : Fld := ⟨0xb0, 4, 8, 24, false⟩
/-- ETH_PPS_CFG IN_EDGE (R114). -/
def ETH_PPS_CFG.IN_EDGE : Fld := ⟨0xb0, 4, 2, 1, false⟩
/-- ETH_PPS_CFG IN_EN (R114). -/
def ETH_PPS_CFG.IN_EN : Fld := ⟨0xb0, 4, 1, 1, false⟩
/-- ETH_PPS_CFG OUT_EN (R114). -/
def ETH_PPS_CFG.OUT_EN : Fld := ⟨0xb0, 4, 0, 1, false⟩
/-- ETH_PPS_CAP_NS NS (R114). -/
def ETH_PPS_CAP_NS.NS : Fld := ⟨0xb4, 4, 0, 32, false⟩
/-- ETH_PPS_CAP_SEC_LO SEC (R114). -/
def ETH_PPS_CAP_SEC_LO.SEC : Fld := ⟨0xb8, 4, 0, 32, false⟩
/-- ETH_PPS_CAP_STAT VALID (R114). -/
def ETH_PPS_CAP_STAT.VALID : Fld := ⟨0xbc, 4, 31, 1, false⟩
/-- ETH_PPS_CAP_STAT OVERRUN (R114). -/
def ETH_PPS_CAP_STAT.OVERRUN : Fld := ⟨0xbc, 4, 30, 1, false⟩
/-- ETH_PPS_CAP_STAT STEPPED (R114). -/
def ETH_PPS_CAP_STAT.STEPPED : Fld := ⟨0xbc, 4, 29, 1, false⟩
/-- ETH_PPS_CAP_STAT SEC_HI (R114). -/
def ETH_PPS_CAP_STAT.SEC_HI : Fld := ⟨0xbc, 4, 0, 16, false⟩
/-! ### PRS page -/

/-- PRS_CFG ALT_TPID (R131). -/
def PRS_CFG.ALT_TPID : Fld := ⟨0x40, 4, 16, 16, true⟩
/-- PRS_CFG ICMP_ERR_QUOTED (R131). -/
def PRS_CFG.ICMP_ERR_QUOTED : Fld := ⟨0x40, 4, 1, 1, true⟩
/-- PRS_CFG ALT_TPID_EN (R131). -/
def PRS_CFG.ALT_TPID_EN : Fld := ⟨0x40, 4, 0, 1, true⟩
/-- PRS_UDP_TUN VXLAN_PORT (R131). -/
def PRS_UDP_TUN.VXLAN_PORT : Fld := ⟨0x44, 4, 16, 16, true⟩
/-- PRS_UDP_TUN GENEVE_PORT (R131). -/
def PRS_UDP_TUN.GENEVE_PORT : Fld := ⟨0x44, 4, 0, 16, true⟩
/-- PRS_GTPU GTPU_PORT (R131). -/
def PRS_GTPU.GTPU_PORT : Fld := ⟨0x48, 4, 0, 16, true⟩
/-- PRS_MAL_ACT ACTc (R131). -/
def PRS_MAL_ACT.ACTc : Fld := ⟨0x4c, 4, 2, 12, true⟩
/-- PRS_PORT_CFGj ZONE_SRC (R131). -/
def PRS_PORT_CFGj.ZONE_SRC : Fld := ⟨0x80, 4, 31, 1, true⟩
/-- PRS_PORT_CFGj HASH_LAYER (R131). -/
def PRS_PORT_CFGj.HASH_LAYER : Fld := ⟨0x80, 4, 28, 2, true⟩
/-- PRS_PORT_CFGj ZONE (R131). -/
def PRS_PORT_CFGj.ZONE : Fld := ⟨0x80, 4, 0, 12, true⟩
/-- PRS_MAL_PKTc COUNT (R131). -/
def PRS_MAL_PKTc.COUNT : Fld := ⟨0x100, 16, 0, 64, false⟩
/-- PRS_MAL_BYTESc COUNT (R131). -/
def PRS_MAL_BYTESc.COUNT : Fld := ⟨0x108, 16, 0, 64, false⟩
/-- PRS_DEPTH_CNT COUNT (R131). -/
def PRS_DEPTH_CNT.COUNT : Fld := ⟨0x160, 4, 0, 64, false⟩
/-- PRS_TRIM_CNT COUNT (R131). -/
def PRS_TRIM_CNT.COUNT : Fld := ⟨0x168, 4, 0, 64, false⟩
/-- PRS_FRAG_CNT COUNT (R131). -/
def PRS_FRAG_CNT.COUNT : Fld := ⟨0x170, 4, 0, 64, false⟩
/-- PRS_ICMP_QUOTED_CNT COUNT (R131). -/
def PRS_ICMP_QUOTED_CNT.COUNT : Fld := ⟨0x178, 4, 0, 64, false⟩
/-! ### CLS page -/

/-- CLS_STAT FREE (R156). -/
def CLS_STAT.FREE : Fld := ⟨0x40, 4, 0, 15, false⟩
/-- CLS_MISS_CNT COUNT (R156). -/
def CLS_MISS_CNT.COUNT : Fld := ⟨0x48, 4, 0, 64, false⟩
/-- CLS_PARITY_FIX COUNT (R156). -/
def CLS_PARITY_FIX.COUNT : Fld := ⟨0x50, 4, 0, 64, false⟩
/-- CLS_PARITY_LOST COUNT (R156). -/
def CLS_PARITY_LOST.COUNT : Fld := ⟨0x58, 4, 0, 32, false⟩
/-- CLS_PARITY_IDX INDEX (R156). -/
def CLS_PARITY_IDX.INDEX : Fld := ⟨0x5c, 4, 0, 14, false⟩
/-- CLS_PSELn PROFILE (R156). -/
def CLS_PSELn.PROFILE : Fld := ⟨0x100, 4, 0, 32, true⟩
/-! ### L2T page -/

/-- L2T_LEARN_EN EN (R156). -/
def L2T_LEARN_EN.EN : Fld := ⟨0x40, 4, 0, 16, false⟩
/-- L2T_AGE_CFG AGE_MAX (R156). -/
def L2T_AGE_CFG.AGE_MAX : Fld := ⟨0x44, 4, 16, 4, false⟩
/-- L2T_AGE_CFG TICK_MS (R156). -/
def L2T_AGE_CFG.TICK_MS : Fld := ⟨0x44, 4, 0, 16, false⟩
/-- L2T_FLAP_CFG HOLD (R156). -/
def L2T_FLAP_CFG.HOLD : Fld := ⟨0x48, 4, 24, 4, false⟩
/-- L2T_FLAP_CFG MOVES_MAX (R156). -/
def L2T_FLAP_CFG.MOVES_MAX : Fld := ⟨0x48, 4, 16, 4, false⟩
/-- L2T_FLAP_CFG WINDOW_MS (R156). -/
def L2T_FLAP_CFG.WINDOW_MS : Fld := ⟨0x48, 4, 0, 16, false⟩
/-- L2T_STAT USED (R156). -/
def L2T_STAT.USED : Fld := ⟨0x4c, 4, 0, 17, false⟩
/-- L2T_LEARN_Q HIGH (R156). -/
def L2T_LEARN_Q.HIGH : Fld := ⟨0x50, 4, 16, 9, false⟩
/-- L2T_LEARN_Q DEPTH (R156). -/
def L2T_LEARN_Q.DEPTH : Fld := ⟨0x50, 4, 0, 9, false⟩
/-- L2T_LEARN_CNT COUNT (R156). -/
def L2T_LEARN_CNT.COUNT : Fld := ⟨0x80, 4, 0, 64, false⟩
/-- L2T_MOVE_CNT COUNT (R156). -/
def L2T_MOVE_CNT.COUNT : Fld := ⟨0x88, 4, 0, 64, false⟩
/-- L2T_AGED_CNT COUNT (R156). -/
def L2T_AGED_CNT.COUNT : Fld := ⟨0x90, 4, 0, 64, false⟩
/-- L2T_LEARN_DROP_CNT COUNT (R156). -/
def L2T_LEARN_DROP_CNT.COUNT : Fld := ⟨0x98, 4, 0, 64, false⟩
/-- L2T_FULL_CNT COUNT (R156). -/
def L2T_FULL_CNT.COUNT : Fld := ⟨0xa0, 4, 0, 64, false⟩
/-- L2T_STATIC_HIT_CNT COUNT (R156). -/
def L2T_STATIC_HIT_CNT.COUNT : Fld := ⟨0xa8, 4, 0, 64, false⟩
/-- L2T_FROZEN_CNT COUNT (R156). -/
def L2T_FROZEN_CNT.COUNT : Fld := ⟨0xb0, 4, 0, 64, false⟩
/-- L2T_PARITY_FIX COUNT (R156). -/
def L2T_PARITY_FIX.COUNT : Fld := ⟨0xb8, 4, 0, 64, false⟩
/-- L2T_PARITY_LOST COUNT (R156). -/
def L2T_PARITY_LOST.COUNT : Fld := ⟨0xc0, 4, 0, 32, false⟩
/-- L2T_PARITY_IDX INDEX (R156). -/
def L2T_PARITY_IDX.INDEX : Fld := ⟨0xc4, 4, 0, 16, false⟩
/-! ### LPM page -/

/-- LPM_STAT USED (R156). -/
def LPM_STAT.USED : Fld := ⟨0x40, 4, 0, 18, false⟩
/-- LPM_MISS_CNT0 COUNT (R156). -/
def LPM_MISS_CNT0.COUNT : Fld := ⟨0x48, 4, 0, 64, false⟩
/-- LPM_MISS_CNT1 COUNT (R156). -/
def LPM_MISS_CNT1.COUNT : Fld := ⟨0x50, 4, 0, 64, false⟩
/-- LPM_MOVE_CNT COUNT (R156). -/
def LPM_MOVE_CNT.COUNT : Fld := ⟨0x58, 4, 0, 64, false⟩
/-- LPM_PARITY_FIX COUNT (R156). -/
def LPM_PARITY_FIX.COUNT : Fld := ⟨0x60, 4, 0, 64, false⟩
/-- LPM_PARITY_LOST COUNT (R156). -/
def LPM_PARITY_LOST.COUNT : Fld := ⟨0x68, 4, 0, 32, false⟩
/-- LPM_PARITY_IDX INDEX (R156). -/
def LPM_PARITY_IDX.INDEX : Fld := ⟨0x6c, 4, 0, 17, false⟩
/-! ### FLW page -/

/-- FLW_TBL_STAT USED (R194). -/
def FLW_TBL_STAT.USED : Fld := ⟨0x40, 4, 0, 27, false⟩
/-- FLW_FREE_STAT FREE (R194). -/
def FLW_FREE_STAT.FREE : Fld := ⟨0x44, 4, 0, 27, false⟩
/-- FLW_STASH_STAT HIGH (R194). -/
def FLW_STASH_STAT.HIGH : Fld := ⟨0x48, 4, 16, 11, false⟩
/-- FLW_STASH_STAT USED (R194). -/
def FLW_STASH_STAT.USED : Fld := ⟨0x48, 4, 0, 11, false⟩
/-- FLW_FENCE_STAT HIGH (R194). -/
def FLW_FENCE_STAT.HIGH : Fld := ⟨0x4c, 4, 16, 7, false⟩
/-- FLW_FENCE_STAT OPEN (R194). -/
def FLW_FENCE_STAT.OPEN : Fld := ⟨0x4c, 4, 0, 7, false⟩
/-- FLW_CLEAN_CFG LOG2_NS (R194). -/
def FLW_CLEAN_CFG.LOG2_NS : Fld := ⟨0x50, 4, 0, 5, false⟩
/-- FLW_AGE_PASS PASS_MS (R194). -/
def FLW_AGE_PASS.PASS_MS : Fld := ⟨0x54, 4, 0, 16, false⟩
/-- FLW_PRESSURE HIGH_K (R194). -/
def FLW_PRESSURE.HIGH_K : Fld := ⟨0x58, 4, 16, 16, false⟩
/-- FLW_PRESSURE LOW_K (R194). -/
def FLW_PRESSURE.LOW_K : Fld := ⟨0x58, 4, 0, 16, false⟩
/-- FLW_INSERT_CFG STASH_EN (R194). -/
def FLW_INSERT_CFG.STASH_EN : Fld := ⟨0x5c, 4, 1, 1, false⟩
/-- FLW_INSERT_CFG RELOC_EN (R194). -/
def FLW_INSERT_CFG.RELOC_EN : Fld := ⟨0x5c, 4, 0, 1, false⟩
/-- FLW_OUTSTANDING HIGH (R194). -/
def FLW_OUTSTANDING.HIGH : Fld := ⟨0x60, 4, 16, 11, false⟩
/-- FLW_OUTSTANDING NOW (R194). -/
def FLW_OUTSTANDING.NOW : Fld := ⟨0x60, 4, 0, 11, false⟩
/-- FLW_AGE_CLASSn FLOOR_PCT (R194). -/
def FLW_AGE_CLASSn.FLOOR_PCT : Fld := ⟨0x80, 8, 24, 8, false⟩
/-- FLW_AGE_CLASSn TIMEOUT (R194). -/
def FLW_AGE_CLASSn.TIMEOUT : Fld := ⟨0x80, 8, 0, 23, false⟩
/-- FLW_AGE_EFFn EFF (R194). -/
def FLW_AGE_EFFn.EFF : Fld := ⟨0x84, 8, 0, 23, false⟩
/-- FLW_LOOKUP_CNT COUNT (R194). -/
def FLW_LOOKUP_CNT.COUNT : Fld := ⟨0x100, 4, 0, 64, false⟩
/-- FLW_CACHE_HIT_CNT COUNT (R194). -/
def FLW_CACHE_HIT_CNT.COUNT : Fld := ⟨0x108, 4, 0, 64, false⟩
/-- FLW_STASH_HIT_CNT COUNT (R194). -/
def FLW_STASH_HIT_CNT.COUNT : Fld := ⟨0x110, 4, 0, 64, false⟩
/-- FLW_BUCKET1_HIT_CNT COUNT (R194). -/
def FLW_BUCKET1_HIT_CNT.COUNT : Fld := ⟨0x118, 4, 0, 64, false⟩
/-- FLW_BUCKET2_HIT_CNT COUNT (R194). -/
def FLW_BUCKET2_HIT_CNT.COUNT : Fld := ⟨0x120, 4, 0, 64, false⟩
/-- FLW_MISS_CNT COUNT (R194). -/
def FLW_MISS_CNT.COUNT : Fld := ⟨0x128, 4, 0, 64, false⟩
/-- FLW_RETRY_CNT COUNT (R194). -/
def FLW_RETRY_CNT.COUNT : Fld := ⟨0x130, 4, 0, 64, false⟩
/-- FLW_RETRY_FOUND_CNT COUNT (R194). -/
def FLW_RETRY_FOUND_CNT.COUNT : Fld := ⟨0x138, 4, 0, 64, false⟩
/-- FLW_ATTACH_CNT COUNT (R194). -/
def FLW_ATTACH_CNT.COUNT : Fld := ⟨0x140, 4, 0, 64, false⟩
/-- FLW_CLAIM_OK_CNT COUNT (R194). -/
def FLW_CLAIM_OK_CNT.COUNT : Fld := ⟨0x148, 4, 0, 64, false⟩
/-- FLW_CLAIM_EXISTS_CNT COUNT (R194). -/
def FLW_CLAIM_EXISTS_CNT.COUNT : Fld := ⟨0x150, 4, 0, 64, false⟩
/-- FLW_CLAIM_FULL_CNT COUNT (R194). -/
def FLW_CLAIM_FULL_CNT.COUNT : Fld := ⟨0x158, 4, 0, 64, false⟩
/-- FLW_NOCREATE_CNT COUNT (R194). -/
def FLW_NOCREATE_CNT.COUNT : Fld := ⟨0x160, 4, 0, 64, false⟩
/-- FLW_WRITEBACK_CNT COUNT (R194). -/
def FLW_WRITEBACK_CNT.COUNT : Fld := ⟨0x168, 4, 0, 64, false⟩
/-- FLW_RELOC_CNT COUNT (R194). -/
def FLW_RELOC_CNT.COUNT : Fld := ⟨0x170, 4, 0, 64, false⟩
/-- FLW_STASH_IN_CNT COUNT (R194). -/
def FLW_STASH_IN_CNT.COUNT : Fld := ⟨0x178, 4, 0, 64, false⟩
/-- FLW_AGED_CNT COUNT (R194). -/
def FLW_AGED_CNT.COUNT : Fld := ⟨0x180, 4, 0, 64, false⟩
/-- FLW_EVICT_CNT COUNT (R194). -/
def FLW_EVICT_CNT.COUNT : Fld := ⟨0x188, 4, 0, 64, false⟩
/-- FLW_TEARDOWN_CNT COUNT (R194). -/
def FLW_TEARDOWN_CNT.COUNT : Fld := ⟨0x190, 4, 0, 64, false⟩
/-- FLW_LOST_CNT COUNT (R194). -/
def FLW_LOST_CNT.COUNT : Fld := ⟨0x198, 4, 0, 64, false⟩
/-- FLW_CLAIM_ERR_CNT COUNT (R194). -/
def FLW_CLAIM_ERR_CNT.COUNT : Fld := ⟨0x1a0, 4, 0, 64, false⟩
/-! ### ACT page -/

/-- ACT_CFG EXC_Q (R232). -/
def ACT_CFG.EXC_Q : Fld := ⟨0x40, 4, 4, 4, false⟩
/-- ACT_CFG EXC_TS (R232). -/
def ACT_CFG.EXC_TS : Fld := ⟨0x40, 4, 3, 1, false⟩
/-- ACT_CFG MIRROR_Q (R232). -/
def ACT_CFG.MIRROR_Q : Fld := ⟨0x40, 4, 0, 3, false⟩
/-- ACT_EXC_COPY EN (R232). -/
def ACT_EXC_COPY.EN : Fld := ⟨0x44, 4, 0, 15, false⟩
/-- ACT_STAT TMPL_FREE (R232). -/
def ACT_STAT.TMPL_FREE : Fld := ⟨0x48, 4, 16, 7, false⟩
/-- ACT_STAT PROF_FREE (R232). -/
def ACT_STAT.PROF_FREE : Fld := ⟨0x48, 4, 0, 13, false⟩
/-- ACT_FWD_CNT COUNT (R232). -/
def ACT_FWD_CNT.COUNT : Fld := ⟨0x80, 4, 0, 64, false⟩
/-- ACT_ADMIT_REFUSED_CNT COUNT (R232). -/
def ACT_ADMIT_REFUSED_CNT.COUNT : Fld := ⟨0x88, 4, 0, 64, false⟩
/-- ACT_HOST_CNT COUNT (R232). -/
def ACT_HOST_CNT.COUNT : Fld := ⟨0x90, 4, 0, 64, false⟩
/-- ACT_MIRROR_CNT COUNT (R232). -/
def ACT_MIRROR_CNT.COUNT : Fld := ⟨0x98, 4, 0, 64, false⟩
/-- ACT_RECIRC_CNT COUNT (R232). -/
def ACT_RECIRC_CNT.COUNT : Fld := ⟨0xa0, 4, 0, 64, false⟩
/-- ACT_POLICED_CNT COUNT (R232). -/
def ACT_POLICED_CNT.COUNT : Fld := ⟨0xa8, 4, 0, 64, false⟩
/-- ACT_EDIT_SKIP_CNT COUNT (R232). -/
def ACT_EDIT_SKIP_CNT.COUNT : Fld := ⟨0xb0, 4, 0, 64, false⟩
/-- ACT_REPIN_CNT COUNT (R232). -/
def ACT_REPIN_CNT.COUNT : Fld := ⟨0xb8, 4, 0, 64, false⟩
/-- ACT_REPIN_BLOCKED_CNT COUNT (R232). -/
def ACT_REPIN_BLOCKED_CNT.COUNT : Fld := ⟨0xc0, 4, 0, 64, false⟩
/-- ACT_PTP_SKIP_CNT COUNT (R232). -/
def ACT_PTP_SKIP_CNT.COUNT : Fld := ⟨0xc8, 4, 0, 64, false⟩
/-- ACT_TCP_INVALID_CNT COUNT (R232). -/
def ACT_TCP_INVALID_CNT.COUNT : Fld := ⟨0xd0, 4, 0, 64, false⟩
/-- ACT_SEALED_CNT COUNT (R232). -/
def ACT_SEALED_CNT.COUNT : Fld := ⟨0xd8, 4, 0, 64, false⟩
/-- ACT_REASON_CNTr COUNT (R232). -/
def ACT_REASON_CNTr.COUNT : Fld := ⟨0x100, 8, 0, 64, false⟩
/-! ### PIP page -/

/-- PIP_CTL STOP (R263). -/
def PIP_CTL.STOP : Fld := ⟨0x40, 4, 0, 1, false⟩
/-- PIP_STAT HIGH (R263). -/
def PIP_STAT.HIGH : Fld := ⟨0x44, 4, 8, 8, false⟩
/-- PIP_STAT STOPPED (R263). -/
def PIP_STAT.STOPPED : Fld := ⟨0x44, 4, 7, 1, false⟩
/-- PIP_STAT BUSY (R263). -/
def PIP_STAT.BUSY : Fld := ⟨0x44, 4, 0, 6, false⟩
/-- PIP_IMAGE PEND_VER (R263). -/
def PIP_IMAGE.PEND_VER : Fld := ⟨0x48, 4, 16, 16, false⟩
/-- PIP_IMAGE ACT_VER (R263). -/
def PIP_IMAGE.ACT_VER : Fld := ⟨0x48, 4, 0, 16, false⟩
/-- PIP_LOAD_LEN LEN (R263). -/
def PIP_LOAD_LEN.LEN : Fld := ⟨0x4c, 4, 0, 14, false⟩
/-- PIP_LOAD_ADDR ADDR (R263). -/
def PIP_LOAD_ADDR.ADDR : Fld := ⟨0x50, 4, 0, 64, false⟩
/-- PIP_LOAD_CTL GO (R263). -/
def PIP_LOAD_CTL.GO : Fld := ⟨0x58, 4, 0, 1, false⟩
/-- PIP_LOAD_STAT VERSION (R263). -/
def PIP_LOAD_STAT.VERSION : Fld := ⟨0x5c, 4, 16, 16, false⟩
/-- PIP_LOAD_STAT CODE (R263). -/
def PIP_LOAD_STAT.CODE : Fld := ⟨0x5c, 4, 0, 4, false⟩
/-- PIP_FAULT_CAP VALID (R263). -/
def PIP_FAULT_CAP.VALID : Fld := ⟨0x60, 4, 31, 1, false⟩
/-- PIP_FAULT_CAP CODE (R263). -/
def PIP_FAULT_CAP.CODE : Fld := ⟨0x60, 4, 27, 4, false⟩
/-- PIP_FAULT_CAP EVT (R263). -/
def PIP_FAULT_CAP.EVT : Fld := ⟨0x60, 4, 21, 6, false⟩
/-- PIP_FAULT_CAP CTX (R263). -/
def PIP_FAULT_CAP.CTX : Fld := ⟨0x60, 4, 15, 5, false⟩
/-- PIP_FAULT_CAP UADDR (R263). -/
def PIP_FAULT_CAP.UADDR : Fld := ⟨0x60, 4, 0, 15, false⟩
/-- PIP_CKPT_MAX NS (R263). -/
def PIP_CKPT_MAX.NS : Fld := ⟨0x64, 4, 0, 32, false⟩
/-- PIP_MATCHn EN (R263). -/
def PIP_MATCHn.EN : Fld := ⟨0x100, 4, 31, 1, false⟩
/-- PIP_MATCHn PATCH (R263). -/
def PIP_MATCHn.PATCH : Fld := ⟨0x100, 4, 15, 9, false⟩
/-- PIP_MATCHn ROM_ADDR (R263). -/
def PIP_MATCHn.ROM_ADDR : Fld := ⟨0x100, 4, 0, 14, false⟩
/-- PIP_ROUTINE_CNT COUNT (R263). -/
def PIP_ROUTINE_CNT.COUNT : Fld := ⟨0x180, 4, 0, 64, false⟩
/-- PIP_COMMIT_CNT COUNT (R263). -/
def PIP_COMMIT_CNT.COUNT : Fld := ⟨0x188, 4, 0, 64, false⟩
/-- PIP_RESTART_CNT COUNT (R263). -/
def PIP_RESTART_CNT.COUNT : Fld := ⟨0x190, 4, 0, 64, false⟩
/-- PIP_DEFER_CNT COUNT (R263). -/
def PIP_DEFER_CNT.COUNT : Fld := ⟨0x198, 4, 0, 64, false⟩
/-- PIP_FAULT_CNT COUNT (R263). -/
def PIP_FAULT_CNT.COUNT : Fld := ⟨0x1a0, 4, 0, 64, false⟩
/-- PIP_DEADLINE_CNT COUNT (R263). -/
def PIP_DEADLINE_CNT.COUNT : Fld := ⟨0x1a8, 4, 0, 64, false⟩
/-- PIP_STOP_DROP_CNT COUNT (R263). -/
def PIP_STOP_DROP_CNT.COUNT : Fld := ⟨0x1b0, 4, 0, 64, false⟩
/-- PIP_EVT_DROP_CNT COUNT (R263). -/
def PIP_EVT_DROP_CNT.COUNT : Fld := ⟨0x1b8, 4, 0, 64, false⟩
/-- PIP_NANO_FIX_CNT COUNT (R263). -/
def PIP_NANO_FIX_CNT.COUNT : Fld := ⟨0x1c0, 4, 0, 64, false⟩
/-- PIP_STEP_CNT COUNT (R263). -/
def PIP_STEP_CNT.COUNT : Fld := ⟨0x1c8, 4, 0, 64, false⟩
/-! ### FMC0 page -/

/-- FMC_STK_STAT TEMP_C (R293). -/
def FMC_STK_STAT.TEMP_C : Fld := ⟨0x40, 4, 24, 8, false⟩
/-- FMC_STK_STAT RETIRED_PC (R293). -/
def FMC_STK_STAT.RETIRED_PC : Fld := ⟨0x40, 4, 16, 8, false⟩
/-- FMC_STK_STAT HOT (R293). -/
def FMC_STK_STAT.HOT : Fld := ⟨0x40, 4, 1, 1, false⟩
/-- FMC_STK_STAT TRAINED (R293). -/
def FMC_STK_STAT.TRAINED : Fld := ⟨0x40, 4, 0, 1, false⟩
/-- FMC_PC_FROZEN FROZEN (R293). -/
def FMC_PC_FROZEN.FROZEN : Fld := ⟨0x44, 4, 0, 32, false⟩
/-- FMC_PC_DEGR DEGR (R293). -/
def FMC_PC_DEGR.DEGR : Fld := ⟨0x48, 4, 0, 32, false⟩
/-- FMC_TRAIN_CFG EN (R293). -/
def FMC_TRAIN_CFG.EN : Fld := ⟨0x4c, 4, 31, 1, false⟩
/-- FMC_TRAIN_CFG PERIOD_MS (R293). -/
def FMC_TRAIN_CFG.PERIOD_MS : Fld := ⟨0x4c, 4, 0, 16, false⟩
/-- FMC_RETIRE_CTL GO (R293). -/
def FMC_RETIRE_CTL.GO : Fld := ⟨0x50, 4, 31, 1, false⟩
/-- FMC_RETIRE_CTL KIND (R293). -/
def FMC_RETIRE_CTL.KIND : Fld := ⟨0x50, 4, 30, 1, false⟩
/-- FMC_RETIRE_CTL PC (R293). -/
def FMC_RETIRE_CTL.PC : Fld := ⟨0x50, 4, 25, 5, false⟩
/-- FMC_RETIRE_CTL BANK (R293). -/
def FMC_RETIRE_CTL.BANK : Fld := ⟨0x50, 4, 15, 4, false⟩
/-- FMC_RETIRE_CTL ROW (R293). -/
def FMC_RETIRE_CTL.ROW : Fld := ⟨0x50, 4, 0, 15, false⟩
/-- FMC_RETIRE_STAT CODE (R293). -/
def FMC_RETIRE_STAT.CODE : Fld := ⟨0x54, 4, 28, 4, false⟩
/-- FMC_RETIRE_STAT ROWS (R293). -/
def FMC_RETIRE_STAT.ROWS : Fld := ⟨0x54, 4, 0, 15, false⟩
/-- FMC_TRAIN_SKIP_CNT COUNT (R293). -/
def FMC_TRAIN_SKIP_CNT.COUNT : Fld := ⟨0x58, 4, 0, 32, false⟩
/-! ### FMCPC page -/

/-- FMC_PC_CTL FREEZE (R293). -/
def FMC_PC_CTL.FREEZE : Fld := ⟨0x40, 64, 1, 1, false⟩
/-- FMC_PC_CTL RELEASE (R293). -/
def FMC_PC_CTL.RELEASE : Fld := ⟨0x40, 64, 0, 1, false⟩
/-- FMC_PC_STAT DEG_LINES (R293). -/
def FMC_PC_STAT.DEG_LINES : Fld := ⟨0x44, 64, 16, 16, false⟩
/-- FMC_PC_STAT STALE (R293). -/
def FMC_PC_STAT.STALE : Fld := ⟨0x44, 64, 3, 1, false⟩
/-- FMC_PC_STAT STATE (R293). -/
def FMC_PC_STAT.STATE : Fld := ⟨0x44, 64, 0, 3, false⟩
/-- FMC_CE_CNT COUNT (R293). -/
def FMC_CE_CNT.COUNT : Fld := ⟨0x48, 64, 0, 32, false⟩
/-- FMC_UE_CNT COUNT (R293). -/
def FMC_UE_CNT.COUNT : Fld := ⟨0x4c, 64, 0, 32, false⟩
/-- FMC_CMD_ERR_CNT COUNT (R293). -/
def FMC_CMD_ERR_CNT.COUNT : Fld := ⟨0x50, 64, 0, 32, false⟩
/-- FMC_PC_ROWS COUNT (R293). -/
def FMC_PC_ROWS.COUNT : Fld := ⟨0x54, 64, 0, 15, false⟩
/-- FMC_RD_LINES COUNT (R293). -/
def FMC_RD_LINES.COUNT : Fld := ⟨0x58, 64, 0, 64, false⟩
/-- FMC_WR_LINES COUNT (R293). -/
def FMC_WR_LINES.COUNT : Fld := ⟨0x60, 64, 0, 64, false⟩
/-- FMC_ROW_HIT COUNT (R293). -/
def FMC_ROW_HIT.COUNT : Fld := ⟨0x68, 64, 0, 64, false⟩
/-- FMC_FWD_HIT COUNT (R293). -/
def FMC_FWD_HIT.COUNT : Fld := ⟨0x70, 64, 0, 64, false⟩
/-- FMC_DRAIN_WAIT COUNT (R293). -/
def FMC_DRAIN_WAIT.COUNT : Fld := ⟨0x78, 64, 0, 64, false⟩
/-! ### FMC9 page -/

/-- FMC_CAP_STAT VALID (R293). -/
def FMC_CAP_STAT.VALID : Fld := ⟨0x40, 4, 31, 1, false⟩
/-- FMC_CAP_STAT KIND (R293). -/
def FMC_CAP_STAT.KIND : Fld := ⟨0x40, 4, 28, 3, false⟩
/-- FMC_CAP_STAT PC (R293). -/
def FMC_CAP_STAT.PC : Fld := ⟨0x40, 4, 23, 5, false⟩
/-- FMC_CAP_ADDR ADDR (R293). -/
def FMC_CAP_ADDR.ADDR : Fld := ⟨0x44, 4, 0, 29, false⟩
/-- FMC_CAP_SYND SYND (R293). -/
def FMC_CAP_SYND.SYND : Fld := ⟨0x48, 4, 0, 32, false⟩
/-- FMC_CAP_TIME NS (R293). -/
def FMC_CAP_TIME.NS : Fld := ⟨0x4c, 4, 0, 32, false⟩
/-- FMC_CAP_RAWn RAW (R293). -/
def FMC_CAP_RAWn.RAW : Fld := ⟨0x80, 4, 0, 32, false⟩
/-- FMC_DIAG_CTL GO (R293). -/
def FMC_DIAG_CTL.GO : Fld := ⟨0x100, 4, 31, 1, false⟩
/-- FMC_DIAG_CTL WRITE (R293). -/
def FMC_DIAG_CTL.WRITE : Fld := ⟨0x100, 4, 30, 1, false⟩
/-- FMC_DIAG_CTL PC (R293). -/
def FMC_DIAG_CTL.PC : Fld := ⟨0x100, 4, 25, 5, false⟩
/-- FMC_DIAG_ADDR ADDR (R293). -/
def FMC_DIAG_ADDR.ADDR : Fld := ⟨0x104, 4, 0, 29, false⟩
/-- FMC_DIAG_STAT CODE (R293). -/
def FMC_DIAG_STAT.CODE : Fld := ⟨0x108, 4, 0, 4, false⟩
/-- FMC_DIAG_DATAn DATA (R293). -/
def FMC_DIAG_DATAn.DATA : Fld := ⟨0x140, 4, 0, 32, false⟩
/-! ### FMC10 page -/

/-- FMC_DEG_STAT HIGH (R293). -/
def FMC_DEG_STAT.HIGH : Fld := ⟨0x40, 4, 16, 13, false⟩
/-- FMC_DEG_STAT USED (R293). -/
def FMC_DEG_STAT.USED : Fld := ⟨0x40, 4, 0, 13, false⟩
/-- FMC_REBUILD_CFG RATE_GBS (R293). -/
def FMC_REBUILD_CFG.RATE_GBS : Fld := ⟨0x44, 4, 0, 8, false⟩
/-- FMC_REBUILD_STAT ACTIVE (R293). -/
def FMC_REBUILD_STAT.ACTIVE : Fld := ⟨0x48, 4, 31, 1, false⟩
/-- FMC_REBUILD_STAT PC (R293). -/
def FMC_REBUILD_STAT.PC : Fld := ⟨0x48, 4, 26, 5, false⟩
/-- FMC_REBUILD_STAT LEFT (R293). -/
def FMC_REBUILD_STAT.LEFT : Fld := ⟨0x48, 4, 0, 26, false⟩
/-- FMC_DEG_OVF_CNT COUNT (R293). -/
def FMC_DEG_OVF_CNT.COUNT : Fld := ⟨0x50, 4, 0, 64, false⟩
/-- FMC_REPAIR_CNT COUNT (R293). -/
def FMC_REPAIR_CNT.COUNT : Fld := ⟨0x58, 4, 0, 64, false⟩
/-- FMC_REBUILD_CNT COUNT (R293). -/
def FMC_REBUILD_CNT.COUNT : Fld := ⟨0x60, 4, 0, 32, false⟩
/-! ### FMC11 page -/

/-- FMC_BG_RATE RATE (R293). -/
def FMC_BG_RATE.RATE : Fld := ⟨0x40, 4, 0, 16, false⟩
/-- FMC_BW_WINDOW US (R293). -/
def FMC_BW_WINDOW.US : Fld := ⟨0x44, 4, 0, 16, false⟩
/-- FMC_SCRUB_CFG EN (R293). -/
def FMC_SCRUB_CFG.EN : Fld := ⟨0x48, 4, 31, 1, false⟩
/-- FMC_SCRUB_CFG PERIOD_S (R293). -/
def FMC_SCRUB_CFG.PERIOD_S : Fld := ⟨0x48, 4, 0, 20, false⟩
/-- FMC_WIN_RDc BYTES (R293). -/
def FMC_WIN_RDc.BYTES : Fld := ⟨0x80, 16, 0, 64, false⟩
/-- FMC_WIN_WRc BYTES (R293). -/
def FMC_WIN_WRc.BYTES : Fld := ⟨0x88, 16, 0, 64, false⟩
/-- FMC_BG_THROTTLE_CNT COUNT (R293). -/
def FMC_BG_THROTTLE_CNT.COUNT : Fld := ⟨0xc0, 4, 0, 64, false⟩
/-- FMC_SCRUB_PASS_CNT COUNT (R293). -/
def FMC_SCRUB_PASS_CNT.COUNT : Fld := ⟨0xc8, 4, 0, 32, false⟩
/-! ### TMB0 page -/

/-- TMB_POOL_STAT FREE (R311). -/
def TMB_POOL_STAT.FREE : Fld := ⟨0x40, 4, 0, 19, false⟩
/-- TMB_SHARED_STAT USED (R311). -/
def TMB_SHARED_STAT.USED : Fld := ⟨0x44, 4, 0, 19, false⟩
/-- TMB_RESERVED SUM (R311). -/
def TMB_RESERVED.SUM : Fld := ⟨0x48, 4, 0, 19, false⟩
/-- TMB_FREE_LOW LOW (R311). -/
def TMB_FREE_LOW.LOW : Fld := ⟨0x4c, 4, 0, 19, false⟩
/-- TMB_ELE_CFG ELE_ALPHA (R311). -/
def TMB_ELE_CFG.ELE_ALPHA : Fld := ⟨0x50, 4, 0, 4, false⟩
/-- TMB_LOW_THRESH CELLS (R311). -/
def TMB_LOW_THRESH.CELLS : Fld := ⟨0x54, 4, 0, 19, false⟩
/-- TMB_HOSTQ_CFGh EN (R311). -/
def TMB_HOSTQ_CFGh.EN : Fld := ⟨0x80, 4, 31, 1, false⟩
/-- TMB_HOSTQ_CFGh MAX (R311). -/
def TMB_HOSTQ_CFGh.MAX : Fld := ⟨0x80, 4, 0, 19, false⟩
/-- TMB_HOSTQ_OCCh CELLS (R311). -/
def TMB_HOSTQ_OCCh.CELLS : Fld := ⟨0xc0, 4, 0, 19, false⟩
/-- TMB_HOST_REFUSED_CNT COUNT (R311). -/
def TMB_HOST_REFUSED_CNT.COUNT : Fld := ⟨0x100, 4, 0, 64, false⟩
/-- TMB_ECC_STOMP_CNT COUNT (R311). -/
def TMB_ECC_STOMP_CNT.COUNT : Fld := ⟨0x108, 4, 0, 64, false⟩
/-- TMB_POOL_EMPTY_CNT COUNT (R311). -/
def TMB_POOL_EMPTY_CNT.COUNT : Fld := ⟨0x110, 4, 0, 64, false⟩
/-- TMB_HOSTTX_REFUSED_CNT COUNT (R311). -/
def TMB_HOSTTX_REFUSED_CNT.COUNT : Fld := ⟨0x118, 4, 0, 64, false⟩
/-! ### TMBP page -/

/-- TMB_Q_CFG EN (R311). -/
def TMB_Q_CFG.EN : Fld := ⟨0x40, 16, 31, 1, false⟩
/-- TMB_Q_CFG ELE_Q (R311). -/
def TMB_Q_CFG.ELE_Q : Fld := ⟨0x40, 16, 28, 3, false⟩
/-- TMB_Q_CFG ALPHA (R311). -/
def TMB_Q_CFG.ALPHA : Fld := ⟨0x40, 16, 24, 4, false⟩
/-- TMB_Q_CFG MIN (R311). -/
def TMB_Q_CFG.MIN : Fld := ⟨0x40, 16, 0, 16, false⟩
/-- TMB_Q_MAX MAX (R311). -/
def TMB_Q_MAX.MAX : Fld := ⟨0x44, 16, 0, 19, false⟩
/-- TMB_Q_OCC CELLS (R311). -/
def TMB_Q_OCC.CELLS : Fld := ⟨0x48, 16, 0, 19, false⟩
/-- TMB_Q_HIGH HIGH (R311). -/
def TMB_Q_HIGH.HIGH : Fld := ⟨0x4c, 16, 0, 19, false⟩
/-- TMB_PORT_CFG ELE_EN (R311). -/
def TMB_PORT_CFG.ELE_EN : Fld := ⟨0xc0, 4, 0, 1, false⟩
/-- TMB_Q_FLUSH FLUSH (R311). -/
def TMB_Q_FLUSH.FLUSH : Fld := ⟨0xc4, 4, 0, 8, false⟩
/-- TMB_PORT_OCC CELLS (R311). -/
def TMB_PORT_OCC.CELLS : Fld := ⟨0xc8, 4, 0, 22, false⟩
/-- TMB_Q_ADMIT_PKTSq COUNT (R311). -/
def TMB_Q_ADMIT_PKTSq.COUNT : Fld := ⟨0x100, 32, 0, 64, false⟩
/-- TMB_Q_ADMIT_BYTESq COUNT (R311). -/
def TMB_Q_ADMIT_BYTESq.COUNT : Fld := ⟨0x108, 32, 0, 64, false⟩
/-- TMB_Q_DROP_PKTSq COUNT (R311). -/
def TMB_Q_DROP_PKTSq.COUNT : Fld := ⟨0x110, 32, 0, 64, false⟩
/-- TMB_Q_DROP_BYTESq COUNT (R311). -/
def TMB_Q_DROP_BYTESq.COUNT : Fld := ⟨0x118, 32, 0, 64, false⟩
/-- TMB_ABSENT_CNT COUNT (R311). -/
def TMB_ABSENT_CNT.COUNT : Fld := ⟨0x200, 4, 0, 64, false⟩
/-- TMB_LINKDOWN_REFUSED_CNT COUNT (R311). -/
def TMB_LINKDOWN_REFUSED_CNT.COUNT : Fld := ⟨0x208, 4, 0, 64, false⟩
/-- TMB_LINKDOWN_FLUSH_CNT COUNT (R311). -/
def TMB_LINKDOWN_FLUSH_CNT.COUNT : Fld := ⟨0x210, 4, 0, 64, false⟩
/-- TMB_CEASED_CNT COUNT (R311). -/
def TMB_CEASED_CNT.COUNT : Fld := ⟨0x218, 4, 0, 64, false⟩
/-- TMB_WD_DISCARD_CNT COUNT (R311). -/
def TMB_WD_DISCARD_CNT.COUNT : Fld := ⟨0x220, 4, 0, 64, false⟩
/-- TMB_SWFLUSH_CNT COUNT (R311). -/
def TMB_SWFLUSH_CNT.COUNT : Fld := ⟨0x228, 4, 0, 64, false⟩
/-- TMB_TX_ABORT_CNT COUNT (R311). -/
def TMB_TX_ABORT_CNT.COUNT : Fld := ⟨0x230, 4, 0, 64, false⟩
/-! ### SCH0 page -/

/-- SCH_HOSTQ_QUANTUMh QUANTUM (R311). -/
def SCH_HOSTQ_QUANTUMh.QUANTUM : Fld := ⟨0x40, 4, 0, 8, false⟩
/-! ### SCHP page -/

/-- SCH_Q_CFGq SP (R311). -/
def SCH_Q_CFGq.SP : Fld := ⟨0x40, 4, 31, 1, false⟩
/-- SCH_Q_CFGq QUANTUM (R311). -/
def SCH_Q_CFGq.QUANTUM : Fld := ⟨0x40, 4, 0, 8, false⟩
/-- SCH_Q_DEFICITq BYTES (R311). -/
def SCH_Q_DEFICITq.BYTES : Fld := ⟨0x60, 4, 0, 15, false⟩
/-- SCH_PORT_STAT ELIGIBLE (R311). -/
def SCH_PORT_STAT.ELIGIBLE : Fld := ⟨0x80, 4, 8, 8, false⟩
/-- SCH_PORT_STAT BACKLOG (R311). -/
def SCH_PORT_STAT.BACKLOG : Fld := ⟨0x80, 4, 0, 8, false⟩
/-- SCH_Q_TX_PKTSq COUNT (R311). -/
def SCH_Q_TX_PKTSq.COUNT : Fld := ⟨0x100, 16, 0, 64, false⟩
/-- SCH_Q_TX_BYTESq COUNT (R311). -/
def SCH_Q_TX_BYTESq.COUNT : Fld := ⟨0x108, 16, 0, 64, false⟩
/-! ### SHP0 page -/

/-- SHP_POL_SEL KIND (R332). -/
def SHP_POL_SEL.KIND : Fld := ⟨0x40, 4, 31, 1, false⟩
/-- SHP_POL_SEL INDEX (R332). -/
def SHP_POL_SEL.INDEX : Fld := ⟨0x40, 4, 0, 12, false⟩
/-- SHP_POL_CFG EN (R332). -/
def SHP_POL_CFG.EN : Fld := ⟨0x44, 4, 31, 1, true⟩
/-- SHP_POL_CFG RATE (R332). -/
def SHP_POL_CFG.RATE : Fld := ⟨0x44, 4, 0, 24, true⟩
/-- SHP_POL_BURST BYTES (R332). -/
def SHP_POL_BURST.BYTES : Fld := ⟨0x48, 4, 0, 24, true⟩
/-- SHP_POL_ACCT ACCT_HI (R332). -/
def SHP_POL_ACCT.ACCT_HI : Fld := ⟨0x4c, 4, 0, 10, true⟩
/-- SHP_POL_TOKENS BYTES (R332). -/
def SHP_POL_TOKENS.BYTES : Fld := ⟨0x50, 4, 0, 32, false⟩
/-- SHP_POL_CONF_PKTS COUNT (R332). -/
def SHP_POL_CONF_PKTS.COUNT : Fld := ⟨0x58, 4, 0, 64, false⟩
/-- SHP_POL_CONF_BYTES COUNT (R332). -/
def SHP_POL_CONF_BYTES.COUNT : Fld := ⟨0x60, 4, 0, 64, false⟩
/-- SHP_POL_EXC_PKTS COUNT (R332). -/
def SHP_POL_EXC_PKTS.COUNT : Fld := ⟨0x68, 4, 0, 64, false⟩
/-- SHP_POL_EXC_BYTES COUNT (R332). -/
def SHP_POL_EXC_BYTES.COUNT : Fld := ⟨0x70, 4, 0, 64, false⟩
/-- SHP_EXCESS_TOTAL COUNT (R332). -/
def SHP_EXCESS_TOTAL.COUNT : Fld := ⟨0x80, 4, 0, 64, false⟩
/-! ### SHPP page -/

/-- SHP_Q_CIR RATE (R332). -/
def SHP_Q_CIR.RATE : Fld := ⟨0x40, 16, 0, 24, true⟩
/-- SHP_Q_CBS BYTES (R332). -/
def SHP_Q_CBS.BYTES : Fld := ⟨0x44, 16, 0, 24, true⟩
/-- SHP_Q_PIR RATE (R332). -/
def SHP_Q_PIR.RATE : Fld := ⟨0x48, 16, 0, 24, true⟩
/-- SHP_Q_PBS BYTES (R332). -/
def SHP_Q_PBS.BYTES : Fld := ⟨0x4c, 16, 0, 24, true⟩
/-- SHP_PORT_CIR RATE (R332). -/
def SHP_PORT_CIR.RATE : Fld := ⟨0xc0, 4, 0, 24, true⟩
/-- SHP_PORT_CBS BYTES (R332). -/
def SHP_PORT_CBS.BYTES : Fld := ⟨0xc4, 4, 0, 24, true⟩
/-- SHP_PORT_PIR RATE (R332). -/
def SHP_PORT_PIR.RATE : Fld := ⟨0xc8, 4, 0, 24, true⟩
/-- SHP_PORT_PBS BYTES (R332). -/
def SHP_PORT_PBS.BYTES : Fld := ⟨0xcc, 4, 0, 24, true⟩
/-- SHP_Q_CTOKq TOKENS (R332). -/
def SHP_Q_CTOKq.TOKENS : Fld := ⟨0x100, 8, 0, 32, false⟩
/-- SHP_Q_PTOKq TOKENS (R332). -/
def SHP_Q_PTOKq.TOKENS : Fld := ⟨0x104, 8, 0, 32, false⟩
/-- SHP_PORT_CTOK TOKENS (R332). -/
def SHP_PORT_CTOK.TOKENS : Fld := ⟨0x140, 4, 0, 32, false⟩
/-- SHP_PORT_PTOK TOKENS (R332). -/
def SHP_PORT_PTOK.TOKENS : Fld := ⟨0x144, 4, 0, 32, false⟩
/-- SHP_PORT_STAT PORT_ELIG (R332). -/
def SHP_PORT_STAT.PORT_ELIG : Fld := ⟨0x148, 4, 8, 1, false⟩
/-- SHP_PORT_STAT Q_ELIG (R332). -/
def SHP_PORT_STAT.Q_ELIG : Fld := ⟨0x148, 4, 0, 8, false⟩
/-! ### TGT0 page -/

/-- TGT_ACTIVEi PORTS (R333). -/
def TGT_ACTIVEi.PORTS : Fld := ⟨0x40, 4, 0, 32, false⟩
/-- TGT_OVERSIZE_TOTAL COUNT (R333). -/
def TGT_OVERSIZE_TOTAL.COUNT : Fld := ⟨0x50, 4, 0, 64, false⟩
/-! ### TGTP page -/

/-- TGT_ADMIN_CFG EN (R333). -/
def TGT_ADMIN_CFG.EN : Fld := ⟨0x40, 4, 31, 1, true⟩
/-- TGT_ADMIN_CFG LEN (R333). -/
def TGT_ADMIN_CFG.LEN : Fld := ⟨0x40, 4, 0, 9, true⟩
/-- TGT_ADMIN_CYCLE NS (R333). -/
def TGT_ADMIN_CYCLE.NS : Fld := ⟨0x44, 4, 0, 30, true⟩
/-- TGT_ADMIN_BASE_NS NS (R333). -/
def TGT_ADMIN_BASE_NS.NS : Fld := ⟨0x48, 4, 0, 30, true⟩
/-- TGT_ADMIN_BASE_SEC_LO SEC (R333). -/
def TGT_ADMIN_BASE_SEC_LO.SEC : Fld := ⟨0x4c, 4, 0, 32, true⟩
/-- TGT_ADMIN_BASE_SEC_HI SEC (R333). -/
def TGT_ADMIN_BASE_SEC_HI.SEC : Fld := ⟨0x50, 4, 0, 16, true⟩
/-- TGT_OPER_CFG EN (R333). -/
def TGT_OPER_CFG.EN : Fld := ⟨0x60, 4, 31, 1, false⟩
/-- TGT_OPER_CFG LEN (R333). -/
def TGT_OPER_CFG.LEN : Fld := ⟨0x60, 4, 0, 9, false⟩
/-- TGT_OPER_CYCLE NS (R333). -/
def TGT_OPER_CYCLE.NS : Fld := ⟨0x64, 4, 0, 30, false⟩
/-- TGT_OPER_BASE_NS NS (R333). -/
def TGT_OPER_BASE_NS.NS : Fld := ⟨0x68, 4, 0, 30, false⟩
/-- TGT_OPER_BASE_SEC_LO SEC (R333). -/
def TGT_OPER_BASE_SEC_LO.SEC : Fld := ⟨0x6c, 4, 0, 32, false⟩
/-- TGT_OPER_BASE_SEC_HI SEC (R333). -/
def TGT_OPER_BASE_SEC_HI.SEC : Fld := ⟨0x70, 4, 0, 16, false⟩
/-- TGT_START_NS NS (R333). -/
def TGT_START_NS.NS : Fld := ⟨0x74, 4, 0, 30, false⟩
/-- TGT_START_SEC_LO SEC (R333). -/
def TGT_START_SEC_LO.SEC : Fld := ⟨0x78, 4, 0, 32, false⟩
/-- TGT_START_SEC_HI SEC (R333). -/
def TGT_START_SEC_HI.SEC : Fld := ⟨0x7c, 4, 0, 16, false⟩
/-- TGT_MAXWINq NS (R333). -/
def TGT_MAXWINq.NS : Fld := ⟨0x80, 4, 0, 32, false⟩
/-- TGT_STAT REJECT_CODE (R333). -/
def TGT_STAT.REJECT_CODE : Fld := ⟨0xa0, 4, 13, 3, false⟩
/-- TGT_STAT START_PENDING (R333). -/
def TGT_STAT.START_PENDING : Fld := ⟨0xa0, 4, 12, 1, false⟩
/-- TGT_STAT STEPPED (R333). -/
def TGT_STAT.STEPPED : Fld := ⟨0xa0, 4, 11, 1, false⟩
/-- TGT_STAT LIST_REJECTED (R333). -/
def TGT_STAT.LIST_REJECTED : Fld := ⟨0xa0, 4, 10, 1, false⟩
/-- TGT_STAT START_ADJUSTED (R333). -/
def TGT_STAT.START_ADJUSTED : Fld := ⟨0xa0, 4, 9, 1, false⟩
/-- TGT_STAT GATES (R333). -/
def TGT_STAT.GATES : Fld := ⟨0xa0, 4, 0, 8, false⟩
/-- TGT_OVERSIZE_CNTq COUNT (R333). -/
def TGT_OVERSIZE_CNTq.COUNT : Fld := ⟨0xc0, 8, 0, 64, false⟩
/-- TGT_SUPERSEDED_CNT COUNT (R333). -/
def TGT_SUPERSEDED_CNT.COUNT : Fld := ⟨0x100, 4, 0, 32, false⟩
/-- TGT_LIST_GATESe GATES (R333). -/
def TGT_LIST_GATESe.GATES : Fld := ⟨0x800, 8, 0, 8, true⟩
/-- TGT_LIST_INTe NS (R333). -/
def TGT_LIST_INTe.NS : Fld := ⟨0x804, 8, 0, 30, true⟩
/-! ### TEL page -/

/-- TEL_EXPORT_CFG START_EN (R355). -/
def TEL_EXPORT_CFG.START_EN : Fld := ⟨0x40, 4, 31, 1, false⟩
/-- TEL_EXPORT_CFG END_EN (R355). -/
def TEL_EXPORT_CFG.END_EN : Fld := ⟨0x40, 4, 30, 1, false⟩
/-- TEL_EXPORT_CFG CLASS_MASK (R355). -/
def TEL_EXPORT_CFG.CLASS_MASK : Fld := ⟨0x40, 4, 0, 16, false⟩
/-- TEL_EXPORT_DOMAIN ID (R355). -/
def TEL_EXPORT_DOMAIN.ID : Fld := ⟨0x44, 4, 0, 32, false⟩
/-- TEL_EXPORT_MSG FLUSH_US (R355). -/
def TEL_EXPORT_MSG.FLUSH_US : Fld := ⟨0x48, 4, 16, 16, false⟩
/-- TEL_EXPORT_MSG MAX_LEN (R355). -/
def TEL_EXPORT_MSG.MAX_LEN : Fld := ⟨0x48, 4, 0, 13, false⟩
/-- TEL_EXPORT_TMPL SEND (R355). -/
def TEL_EXPORT_TMPL.SEND : Fld := ⟨0x4c, 4, 31, 1, false⟩
/-- TEL_EXPORT_TMPL REFRESH_S (R355). -/
def TEL_EXPORT_TMPL.REFRESH_S : Fld := ⟨0x4c, 4, 0, 16, false⟩
/-- TEL_EXPORT_SEQ SEQ (R355). -/
def TEL_EXPORT_SEQ.SEQ : Fld := ⟨0x50, 4, 0, 32, false⟩
/-- TEL_START_Q HIGH (R355). -/
def TEL_START_Q.HIGH : Fld := ⟨0x54, 4, 16, 13, false⟩
/-- TEL_START_Q DEPTH (R355). -/
def TEL_START_Q.DEPTH : Fld := ⟨0x54, 4, 0, 13, false⟩
/-- TEL_SAMPLE_CFG EN (R355). -/
def TEL_SAMPLE_CFG.EN : Fld := ⟨0x58, 4, 31, 1, false⟩
/-- TEL_SAMPLE_CFG N (R355). -/
def TEL_SAMPLE_CFG.N : Fld := ⟨0x58, 4, 0, 24, false⟩
/-- TEL_SAMPLE_LIM PORTS (R355). -/
def TEL_SAMPLE_LIM.PORTS : Fld := ⟨0x5c, 4, 16, 16, false⟩
/-- TEL_SAMPLE_LIM MAX_PER_MS (R355). -/
def TEL_SAMPLE_LIM.MAX_PER_MS : Fld := ⟨0x5c, 4, 0, 16, false⟩
/-- TEL_TAG_CFG EN (R355). -/
def TEL_TAG_CFG.EN : Fld := ⟨0x60, 4, 31, 1, false⟩
/-- TEL_TAG_CFG LOG2 (R355). -/
def TEL_TAG_CFG.LOG2 : Fld := ⟨0x60, 4, 0, 5, false⟩
/-- TEL_TAG_STAT BUSY (R355). -/
def TEL_TAG_STAT.BUSY : Fld := ⟨0x64, 4, 0, 6, false⟩
/-- TEL_SNAP_CFG EN (R355). -/
def TEL_SNAP_CFG.EN : Fld := ⟨0x68, 4, 31, 1, false⟩
/-- TEL_SNAP_CFG PERIOD_US (R355). -/
def TEL_SNAP_CFG.PERIOD_US : Fld := ⟨0x68, 4, 0, 20, false⟩
/-- TEL_SNAP_CTL NOW (R355). -/
def TEL_SNAP_CTL.NOW : Fld := ⟨0x6c, 4, 0, 1, false⟩
/-- TEL_SNAP_PORTSi PORTS (R355). -/
def TEL_SNAP_PORTSi.PORTS : Fld := ⟨0x70, 4, 0, 32, false⟩
/-- TEL_SUSPEND TELEM (R355). -/
def TEL_SUSPEND.TELEM : Fld := ⟨0x80, 4, 2, 1, false⟩
/-- TEL_SUSPEND SCRUB (R355). -/
def TEL_SUSPEND.SCRUB : Fld := ⟨0x80, 4, 1, 1, false⟩
/-- TEL_SUSPEND BG (R355). -/
def TEL_SUSPEND.BG : Fld := ⟨0x80, 4, 0, 1, false⟩
/-- TEL_POL_EN EN (R355). -/
def TEL_POL_EN.EN : Fld := ⟨0xa0, 4, 0, 5, false⟩
/-- TEL_ELE_CFG WIN_EPOCHS (R355). -/
def TEL_ELE_CFG.WIN_EPOCHS : Fld := ⟨0xa4, 4, 24, 8, false⟩
/-- TEL_ELE_CFG HOLD (R355). -/
def TEL_ELE_CFG.HOLD : Fld := ⟨0xa4, 4, 20, 4, false⟩
/-- TEL_ELE_CFG MAX (R355). -/
def TEL_ELE_CFG.MAX : Fld := ⟨0xa4, 4, 0, 11, false⟩
/-- TEL_ELE_BYTES BYTES (R355). -/
def TEL_ELE_BYTES.BYTES : Fld := ⟨0xa8, 4, 0, 32, false⟩
/-- TEL_LB_CFG STEP (R355). -/
def TEL_LB_CFG.STEP : Fld := ⟨0xac, 4, 24, 8, false⟩
/-- TEL_LB_CFG KEEP (R355). -/
def TEL_LB_CFG.KEEP : Fld := ⟨0xac, 4, 12, 12, false⟩
/-- TEL_LB_CONG CELLS (R355). -/
def TEL_LB_CONG.CELLS : Fld := ⟨0xb0, 4, 0, 22, false⟩
/-- TEL_LB_EPOCH_MAX SLOTS (R355). -/
def TEL_LB_EPOCH_MAX.SLOTS : Fld := ⟨0xb4, 4, 0, 16, false⟩
/-- TEL_AGE_TUNE HI (R355). -/
def TEL_AGE_TUNE.HI : Fld := ⟨0xb8, 4, 8, 5, false⟩
/-- TEL_AGE_TUNE LO (R355). -/
def TEL_AGE_TUNE.LO : Fld := ⟨0xb8, 4, 0, 5, false⟩
/-- TEL_EVICT_CFG MAX (R355). -/
def TEL_EVICT_CFG.MAX : Fld := ⟨0xbc, 4, 16, 16, false⟩
/-- TEL_EVICT_CFG CLASS_MASK (R355). -/
def TEL_EVICT_CFG.CLASS_MASK : Fld := ⟨0xbc, 4, 0, 16, false⟩
/-- TEL_EVICT_IDLE MIN_IDLE (R355). -/
def TEL_EVICT_IDLE.MIN_IDLE : Fld := ⟨0xc0, 4, 0, 24, false⟩
/-- TEL_POWER_CFG RESTORE_US (R355). -/
def TEL_POWER_CFG.RESTORE_US : Fld := ⟨0xc4, 4, 16, 16, false⟩
/-- TEL_POWER_CFG SUSP_TELEM (R355). -/
def TEL_POWER_CFG.SUSP_TELEM : Fld := ⟨0xc4, 4, 15, 1, false⟩
/-- TEL_POWER_CFG SUSP_SCRUB (R355). -/
def TEL_POWER_CFG.SUSP_SCRUB : Fld := ⟨0xc4, 4, 14, 1, false⟩
/-- TEL_POWER_CFG SUSP_BG (R355). -/
def TEL_POWER_CFG.SUSP_BG : Fld := ⟨0xc4, 4, 13, 1, false⟩
/-- TEL_POWER_CFG BG_RATE (R355). -/
def TEL_POWER_CFG.BG_RATE : Fld := ⟨0xc4, 4, 0, 9, false⟩
/-- TEL_ELE_COUNT COUNT (R355). -/
def TEL_ELE_COUNT.COUNT : Fld := ⟨0xc8, 4, 0, 11, false⟩
/-- TEL_EVICT_CURSOR INDEX (R355). -/
def TEL_EVICT_CURSOR.INDEX : Fld := ⟨0xcc, 4, 0, 26, false⟩
/-- TEL_SAMPLE_CNT COUNT (R355). -/
def TEL_SAMPLE_CNT.COUNT : Fld := ⟨0x100, 4, 0, 64, false⟩
/-- TEL_SAMPLE_LIMITED_CNT COUNT (R355). -/
def TEL_SAMPLE_LIMITED_CNT.COUNT : Fld := ⟨0x108, 4, 0, 64, false⟩
/-- TEL_TAG_CNT COUNT (R355). -/
def TEL_TAG_CNT.COUNT : Fld := ⟨0x110, 4, 0, 64, false⟩
/-- TEL_TAG_NOENTRY_CNT COUNT (R355). -/
def TEL_TAG_NOENTRY_CNT.COUNT : Fld := ⟨0x118, 4, 0, 64, false⟩
/-- TEL_ELE_EVT_CNT COUNT (R355). -/
def TEL_ELE_EVT_CNT.COUNT : Fld := ⟨0x120, 4, 0, 64, false⟩
/-- TEL_LB_EVT_CNT COUNT (R355). -/
def TEL_LB_EVT_CNT.COUNT : Fld := ⟨0x128, 4, 0, 64, false⟩
/-- TEL_START_REC_CNT COUNT (R355). -/
def TEL_START_REC_CNT.COUNT : Fld := ⟨0x130, 4, 0, 64, false⟩
/-- TEL_END_REC_CNT COUNT (R355). -/
def TEL_END_REC_CNT.COUNT : Fld := ⟨0x138, 4, 0, 64, false⟩
/-- TEL_START_SKIP_CNT COUNT (R355). -/
def TEL_START_SKIP_CNT.COUNT : Fld := ⟨0x140, 4, 0, 64, false⟩
/-- TEL_START_DROP_CNT COUNT (R355). -/
def TEL_START_DROP_CNT.COUNT : Fld := ⟨0x148, 4, 0, 64, false⟩
/-- TEL_MSG_CNT COUNT (R355). -/
def TEL_MSG_CNT.COUNT : Fld := ⟨0x150, 4, 0, 64, false⟩
/-- TEL_SNAP_SKIP_CNT COUNT (R355). -/
def TEL_SNAP_SKIP_CNT.COUNT : Fld := ⟨0x158, 4, 0, 64, false⟩
/-- TEL_JOURNAL_CNT COUNT (R355). -/
def TEL_JOURNAL_CNT.COUNT : Fld := ⟨0x160, 4, 0, 64, false⟩
/-! ### PMCG page -/

/-- PMC_WIN_CFG US (R370). -/
def PMC_WIN_CFG.US : Fld := ⟨0x40, 4, 0, 16, false⟩
/-- PMC_WIN_SEQ SEQ (R370). -/
def PMC_WIN_SEQ.SEQ : Fld := ⟨0x44, 4, 0, 32, false⟩
/-- PMC_WIN_LEN_NS NS (R370). -/
def PMC_WIN_LEN_NS.NS : Fld := ⟨0x48, 4, 0, 32, false⟩
/-- PMC_CYCLES COUNT (R370). -/
def PMC_CYCLES.COUNT : Fld := ⟨0x50, 4, 0, 64, false⟩
/-- PMC_OVF_ADDR ADDR (R370). -/
def PMC_OVF_ADDR.ADDR : Fld := ⟨0x58, 4, 0, 26, false⟩
/-- PMC_OVF_STAT VALID (R370). -/
def PMC_OVF_STAT.VALID : Fld := ⟨0x5c, 4, 31, 1, false⟩
/-- PMC_OVF_STAT STICKY (R370). -/
def PMC_OVF_STAT.STICKY : Fld := ⟨0x5c, 4, 0, 1, false⟩
/-- PMC_OVF_FIRST VALID (R370). -/
def PMC_OVF_FIRST.VALID : Fld := ⟨0x60, 4, 31, 1, false⟩
/-- PMC_OVF_FIRST ADDR (R370). -/
def PMC_OVF_FIRST.ADDR : Fld := ⟨0x60, 4, 0, 26, false⟩
/-- PMC_OVF_CNT COUNT (R370). -/
def PMC_OVF_CNT.COUNT : Fld := ⟨0x64, 4, 0, 32, false⟩
/-- PMC_PRE_ADDR ADDR (R370). -/
def PMC_PRE_ADDR.ADDR : Fld := ⟨0x68, 4, 0, 26, false⟩
/-- PMC_PRE_CTL GO (R370). -/
def PMC_PRE_CTL.GO : Fld := ⟨0x6c, 4, 0, 1, false⟩
/-- PMC_PRE_DATA DATA (R370). -/
def PMC_PRE_DATA.DATA : Fld := ⟨0x70, 4, 0, 64, false⟩
/-- PMC_PRE_STAT CODE (R370). -/
def PMC_PRE_STAT.CODE : Fld := ⟨0x78, 4, 0, 3, false⟩
/-- PMC_SNAP_MISS_CNT COUNT (R370). -/
def PMC_SNAP_MISS_CNT.COUNT : Fld := ⟨0x7c, 4, 0, 32, false⟩
/-! ### PMCL page -/

/-- PMC_SLOT_RETIRED COUNT (R371). -/
def PMC_SLOT_RETIRED.COUNT : Fld := ⟨0x100, 4, 0, 64, false⟩
/-- PMC_SLOT_WASTED COUNT (R371). -/
def PMC_SLOT_WASTED.COUNT : Fld := ⟨0x108, 4, 0, 64, false⟩
/-- PMC_SLOT_FRONT COUNT (R371). -/
def PMC_SLOT_FRONT.COUNT : Fld := ⟨0x110, 4, 0, 64, false⟩
/-- PMC_SLOT_BACK COUNT (R371). -/
def PMC_SLOT_BACK.COUNT : Fld := ⟨0x118, 4, 0, 64, false⟩
/-- PMC_SLOT_CYCLES COUNT (R371). -/
def PMC_SLOT_CYCLES.COUNT : Fld := ⟨0x120, 4, 0, 64, false⟩
/-- PMC_SLOT_INFLIGHT COUNT (R371). -/
def PMC_SLOT_INFLIGHT.COUNT : Fld := ⟨0x128, 4, 0, 13, false⟩
/-- PMC_EVT_PARSE_FIRST COUNT (R371). -/
def PMC_EVT_PARSE_FIRST.COUNT : Fld := ⟨0x140, 4, 0, 64, false⟩
/-- PMC_EVT_PARSE_ALL COUNT (R371). -/
def PMC_EVT_PARSE_ALL.COUNT : Fld := ⟨0x148, 4, 0, 64, false⟩
/-- PMC_EVT_PARSE_BYTES COUNT (R371). -/
def PMC_EVT_PARSE_BYTES.COUNT : Fld := ⟨0x150, 4, 0, 64, false⟩
/-- PMC_EVT_FLOW_DRAM COUNT (R371). -/
def PMC_EVT_FLOW_DRAM.COUNT : Fld := ⟨0x158, 4, 0, 64, false⟩
/-- PMC_EVT_FAB_RD COUNT (R371). -/
def PMC_EVT_FAB_RD.COUNT : Fld := ⟨0x160, 4, 0, 64, false⟩
/-- PMC_EVT_FAB_WR COUNT (R371). -/
def PMC_EVT_FAB_WR.COUNT : Fld := ⟨0x168, 4, 0, 64, false⟩
/-- PMC_EVT_CMD_PART COUNT (R371). -/
def PMC_EVT_CMD_PART.COUNT : Fld := ⟨0x170, 4, 0, 64, false⟩
/-- PMC_EVT_FMC_RD COUNT (R371). -/
def PMC_EVT_FMC_RD.COUNT : Fld := ⟨0x178, 4, 0, 64, false⟩
/-- PMC_EVT_FMC_FWD COUNT (R371). -/
def PMC_EVT_FMC_FWD.COUNT : Fld := ⟨0x180, 4, 0, 64, false⟩
/-- PMC_WIN_RETIRED SLOTS (R371). -/
def PMC_WIN_RETIRED.SLOTS : Fld := ⟨0x1c0, 4, 0, 32, false⟩
/-- PMC_WIN_WASTED SLOTS (R371). -/
def PMC_WIN_WASTED.SLOTS : Fld := ⟨0x1c4, 4, 0, 32, false⟩
/-- PMC_WIN_FRONT SLOTS (R371). -/
def PMC_WIN_FRONT.SLOTS : Fld := ⟨0x1c8, 4, 0, 32, false⟩
/-- PMC_WIN_BACK SLOTS (R371). -/
def PMC_WIN_BACK.SLOTS : Fld := ⟨0x1cc, 4, 0, 32, false⟩
/-- PMC_WIN_CYCLES SLOTS (R371). -/
def PMC_WIN_CYCLES.SLOTS : Fld := ⟨0x1d0, 4, 0, 32, false⟩
/-- PMC_WIN_INFLIGHT COUNT (R371). -/
def PMC_WIN_INFLIGHT.COUNT : Fld := ⟨0x1d4, 4, 0, 13, false⟩
/-- PMC_FLT_CFGf EN (R371). -/
def PMC_FLT_CFGf.EN : Fld := ⟨0x200, 16, 31, 1, false⟩
/-- PMC_FLT_CFGf QUAL (R371). -/
def PMC_FLT_CFGf.QUAL : Fld := ⟨0x200, 16, 28, 3, false⟩
/-- PMC_FLT_CFGf EVENT (R371). -/
def PMC_FLT_CFGf.EVENT : Fld := ⟨0x200, 16, 16, 8, false⟩
/-- PMC_FLT_CFGf QMASK (R371). -/
def PMC_FLT_CFGf.QMASK : Fld := ⟨0x200, 16, 8, 8, false⟩
/-- PMC_FLT_CFGf QVAL (R371). -/
def PMC_FLT_CFGf.QVAL : Fld := ⟨0x200, 16, 0, 8, false⟩
/-- PMC_FLT_RANGEf HI (R371). -/
def PMC_FLT_RANGEf.HI : Fld := ⟨0x204, 16, 16, 14, false⟩
/-- PMC_FLT_RANGEf LO (R371). -/
def PMC_FLT_RANGEf.LO : Fld := ⟨0x204, 16, 0, 14, false⟩
/-- PMC_FLT_COUNTf COUNT (R371). -/
def PMC_FLT_COUNTf.COUNT : Fld := ⟨0x208, 16, 0, 64, false⟩
/-- PORT_RX_BYTES COUNT (R371). -/
def PORT_RX_BYTES.COUNT : Fld := ⟨0x400, 32, 0, 32, false⟩
/-- PORT_TX_BYTES COUNT (R371). -/
def PORT_TX_BYTES.COUNT : Fld := ⟨0x404, 32, 0, 32, false⟩
/-- PORT_RX_FRAMES COUNT (R371). -/
def PORT_RX_FRAMES.COUNT : Fld := ⟨0x408, 32, 0, 32, false⟩
/-- PORT_TX_FRAMES COUNT (R371). -/
def PORT_TX_FRAMES.COUNT : Fld := ⟨0x40c, 32, 0, 32, false⟩
/-- PORT_SLOTS_USED COUNT (R371). -/
def PORT_SLOTS_USED.COUNT : Fld := ⟨0x410, 32, 0, 32, false⟩
/-- PORT_SLOTS_WASTED COUNT (R371). -/
def PORT_SLOTS_WASTED.COUNT : Fld := ⟨0x414, 32, 0, 32, false⟩
/-- PORT_SLOTS_BACK COUNT (R371). -/
def PORT_SLOTS_BACK.COUNT : Fld := ⟨0x418, 32, 0, 32, false⟩
/-- PORT_STG_DROP COUNT (R371). -/
def PORT_STG_DROP.COUNT : Fld := ⟨0x41c, 32, 0, 32, false⟩
/-- PMC_RX_FRAMES COUNT (R371). -/
def PMC_RX_FRAMES.COUNT : Fld := ⟨0x800, 96, 0, 64, false⟩
/-- PMC_RX_BYTES COUNT (R371). -/
def PMC_RX_BYTES.COUNT : Fld := ⟨0x808, 96, 0, 64, false⟩
/-- PMC_RX_FCS_ERR COUNT (R371). -/
def PMC_RX_FCS_ERR.COUNT : Fld := ⟨0x810, 96, 0, 64, false⟩
/-- PMC_RX_RUNT COUNT (R371). -/
def PMC_RX_RUNT.COUNT : Fld := ⟨0x818, 96, 0, 64, false⟩
/-- PMC_RX_OVERSIZE COUNT (R371). -/
def PMC_RX_OVERSIZE.COUNT : Fld := ⟨0x820, 96, 0, 64, false⟩
/-- PMC_RX_LINK_ABORT COUNT (R371). -/
def PMC_RX_LINK_ABORT.COUNT : Fld := ⟨0x828, 96, 0, 64, false⟩
/-- PMC_RX_DISABLED COUNT (R371). -/
def PMC_RX_DISABLED.COUNT : Fld := ⟨0x830, 96, 0, 64, false⟩
/-- PMC_RX_MACCTL COUNT (R371). -/
def PMC_RX_MACCTL.COUNT : Fld := ⟨0x838, 96, 0, 64, false⟩
/-- PMC_RX_MACCTL_UNK COUNT (R371). -/
def PMC_RX_MACCTL_UNK.COUNT : Fld := ⟨0x840, 96, 0, 64, false⟩
/-- PMC_RX_STG_DROP COUNT (R371). -/
def PMC_RX_STG_DROP.COUNT : Fld := ⟨0x848, 96, 0, 64, false⟩
/-- PMC_TX_FRAMES COUNT (R371). -/
def PMC_TX_FRAMES.COUNT : Fld := ⟨0x850, 96, 0, 64, false⟩
/-- PMC_TX_BYTES COUNT (R371). -/
def PMC_TX_BYTES.COUNT : Fld := ⟨0x858, 96, 0, 64, false⟩
/-! ### QNC page -/

/-- QNC_CFG L (R401). -/
def QNC_CFG.L : Fld := ⟨0x40, 4, 0, 5, false⟩
/-- QNC_SWEEP_CFG RATE (R401). -/
def QNC_SWEEP_CFG.RATE : Fld := ⟨0x44, 4, 0, 8, false⟩
/-- QNC_STAT HEAD_LOST (R401). -/
def QNC_STAT.HEAD_LOST : Fld := ⟨0x48, 4, 7, 1, false⟩
/-- QNC_STAT DEFERRING (R401). -/
def QNC_STAT.DEFERRING : Fld := ⟨0x48, 4, 6, 1, false⟩
/-- QNC_STAT EMITTING (R401). -/
def QNC_STAT.EMITTING : Fld := ⟨0x48, 4, 5, 1, false⟩
/-- QNC_STAT EXHAUSTED (R401). -/
def QNC_STAT.EXHAUSTED : Fld := ⟨0x48, 4, 4, 1, false⟩
/-- QNC_STAT REKEY_PENDING (R401). -/
def QNC_STAT.REKEY_PENDING : Fld := ⟨0x48, 4, 3, 1, false⟩
/-- QNC_STAT TIME_SET (R401). -/
def QNC_STAT.TIME_SET : Fld := ⟨0x48, 4, 2, 1, false⟩
/-- QNC_STAT KEY_READY (R401). -/
def QNC_STAT.KEY_READY : Fld := ⟨0x48, 4, 1, 1, false⟩
/-- QNC_STAT ACTIVE (R401). -/
def QNC_STAT.ACTIVE : Fld := ⟨0x48, 4, 0, 1, false⟩
/-- QNC_KEY_ID ID (R401). -/
def QNC_KEY_ID.ID : Fld := ⟨0x4c, 4, 0, 32, false⟩
/-- QNC_NEXT_SEQ SEQ (R401). -/
def QNC_NEXT_SEQ.SEQ : Fld := ⟨0x50, 4, 0, 64, false⟩
/-- QNC_CLOSE_NUM NUM (R401). -/
def QNC_CLOSE_NUM.NUM : Fld := ⟨0x58, 4, 0, 32, false⟩
/-- QNC_BACKLOG HIGH (R401). -/
def QNC_BACKLOG.HIGH : Fld := ⟨0x5c, 4, 16, 16, false⟩
/-- QNC_BACKLOG BLOCKS (R401). -/
def QNC_BACKLOG.BLOCKS : Fld := ⟨0x5c, 4, 0, 16, false⟩
/-- QNC_SWEEP_PASS_US US (R401). -/
def QNC_SWEEP_PASS_US.US : Fld := ⟨0x60, 4, 0, 32, false⟩
/-- QNC_SWEEP_LAG_US US (R401). -/
def QNC_SWEEP_LAG_US.US : Fld := ⟨0x64, 4, 0, 32, false⟩
/-- QNC_LOCKS DIRECT_TX (R401). -/
def QNC_LOCKS.DIRECT_TX : Fld := ⟨0x68, 4, 4, 1, false⟩
/-- QNC_LOCKS KEY (R401). -/
def QNC_LOCKS.KEY : Fld := ⟨0x68, 4, 3, 1, false⟩
/-- QNC_LOCKS PERIOD (R401). -/
def QNC_LOCKS.PERIOD : Fld := ⟨0x68, 4, 2, 1, false⟩
/-- QNC_LOCKS MAP (R401). -/
def QNC_LOCKS.MAP : Fld := ⟨0x68, 4, 1, 1, false⟩
/-- QNC_LOCKS CLASS (R401). -/
def QNC_LOCKS.CLASS : Fld := ⟨0x68, 4, 0, 1, false⟩
/-- QNC_ASSIGN_GEN GEN (R401). -/
def QNC_ASSIGN_GEN.GEN : Fld := ⟨0x6c, 4, 0, 32, false⟩
/-- QNC_KEY_WRAPn DATA (R401). -/
def QNC_KEY_WRAPn.DATA : Fld := ⟨0x80, 4, 0, 32, false⟩
/-- QNC_KEY_NEW_ID ID (R401). -/
def QNC_KEY_NEW_ID.ID : Fld := ⟨0xa8, 4, 0, 32, false⟩
/-- QNC_KEY_CTL LOAD (R401). -/
def QNC_KEY_CTL.LOAD : Fld := ⟨0xac, 4, 0, 1, false⟩
/-- QNC_KEY_STAT CODE (R401). -/
def QNC_KEY_STAT.CODE : Fld := ⟨0xb0, 4, 0, 4, false⟩
/-- QNC_CLASSn SRC (R401). -/
def QNC_CLASSn.SRC : Fld := ⟨0x100, 8, 29, 3, false⟩
/-- QNC_CLASSn SIDE (R401). -/
def QNC_CLASSn.SIDE : Fld := ⟨0x100, 8, 28, 1, false⟩
/-- QNC_CLASSn SHIFT (R401). -/
def QNC_CLASSn.SHIFT : Fld := ⟨0x100, 8, 21, 7, false⟩
/-- QNC_CLASSn WIDTH (R401). -/
def QNC_CLASSn.WIDTH : Fld := ⟨0x100, 8, 16, 5, false⟩
/-- QNC_CLASSn word 1 BASE (R401). -/
def QNC_CLASSn_W1.BASE : Fld := ⟨0x104, 8, 0, 22, false⟩
/-- QNC_SWEPT_CNT COUNT (R401). -/
def QNC_SWEPT_CNT.COUNT : Fld := ⟨0x180, 4, 0, 64, false⟩
/-- QNC_ROLL_CNT COUNT (R401). -/
def QNC_ROLL_CNT.COUNT : Fld := ⟨0x188, 4, 0, 64, false⟩
/-- QNC_FINAL_ROLL_CNT COUNT (R401). -/
def QNC_FINAL_ROLL_CNT.COUNT : Fld := ⟨0x190, 4, 0, 64, false⟩
/-- QNC_DISCARD_CNT COUNT (R401). -/
def QNC_DISCARD_CNT.COUNT : Fld := ⟨0x198, 4, 0, 64, false⟩
/-- QNC_BLOCK_CNT COUNT (R401). -/
def QNC_BLOCK_CNT.COUNT : Fld := ⟨0x1a0, 4, 0, 64, false⟩
/-- QNC_ENTRY_CNT COUNT (R401). -/
def QNC_ENTRY_CNT.COUNT : Fld := ⟨0x1a8, 4, 0, 64, false⟩
/-- QNC_LOST_REC_CNT COUNT (R401). -/
def QNC_LOST_REC_CNT.COUNT : Fld := ⟨0x1b0, 4, 0, 64, false⟩
/-- QNC_LOST_ACCT_CNT COUNT (R401). -/
def QNC_LOST_ACCT_CNT.COUNT : Fld := ⟨0x1b8, 4, 0, 64, false⟩
/-- QNC_DEFER_CNT COUNT (R401). -/
def QNC_DEFER_CNT.COUNT : Fld := ⟨0x1c0, 4, 0, 64, false⟩
/-- QNC_PASS_CNT COUNT (R401). -/
def QNC_PASS_CNT.COUNT : Fld := ⟨0x1c8, 4, 0, 64, false⟩
/-- QNC_DIRECT_TX_CNT COUNT (R401). -/
def QNC_DIRECT_TX_CNT.COUNT : Fld := ⟨0x1d0, 4, 0, 64, false⟩
/-- QNC_DIRECT_TX_BYTES COUNT (R401). -/
def QNC_DIRECT_TX_BYTES.COUNT : Fld := ⟨0x1d8, 4, 0, 64, false⟩
/-! ### CPHC page -/

/-- CPH_CFG DUMMY_MAX (R424). -/
def CPH_CFG.DUMMY_MAX : Fld := ⟨0x40, 4, 0, 3, false⟩
/-- CPH_STAT RNG_OK (R424). -/
def CPH_STAT.RNG_OK : Fld := ⟨0x44, 4, 31, 1, false⟩
/-- CPH_STAT LAST_EXH (R424). -/
def CPH_STAT.LAST_EXH : Fld := ⟨0x44, 4, 16, 6, false⟩
/-- CPH_STAT BUSY (R424). -/
def CPH_STAT.BUSY : Fld := ⟨0x44, 4, 0, 16, false⟩
/-- CPH_BOOT_NONCEi NONCE (R424). -/
def CPH_BOOT_NONCEi.NONCE : Fld := ⟨0x50, 4, 0, 32, false⟩
/-- CPH_VIOL_CAP VALID (R424). -/
def CPH_VIOL_CAP.VALID : Fld := ⟨0x60, 4, 31, 1, false⟩
/-- CPH_VIOL_CAP WRITE (R424). -/
def CPH_VIOL_CAP.WRITE : Fld := ⟨0x60, 4, 30, 1, false⟩
/-- CPH_VIOL_CAP PAGE (R424). -/
def CPH_VIOL_CAP.PAGE : Fld := ⟨0x60, 4, 24, 6, false⟩
/-- CPH_VIOL_CAP MASTER (R424). -/
def CPH_VIOL_CAP.MASTER : Fld := ⟨0x60, 4, 16, 8, false⟩
/-- CPH_VIOL_CAP OFFSET (R424). -/
def CPH_VIOL_CAP.OFFSET : Fld := ⟨0x60, 4, 0, 11, false⟩
/-- CPH_VIOL_CNT COUNT (R424). -/
def CPH_VIOL_CNT.COUNT : Fld := ⟨0x80, 4, 0, 64, false⟩
/-- CPH_BLOCK_CNT COUNT (R424). -/
def CPH_BLOCK_CNT.COUNT : Fld := ⟨0x88, 4, 0, 64, false⟩
/-- CPH_DUMMY_CNT COUNT (R424). -/
def CPH_DUMMY_CNT.COUNT : Fld := ⟨0x90, 4, 0, 64, false⟩
/-- CPH_QNC_BLOCK_CNT COUNT (R424). -/
def CPH_QNC_BLOCK_CNT.COUNT : Fld := ⟨0x98, 4, 0, 64, false⟩
/-- CPH_AUTH_FAIL_CNT COUNT (R424). -/
def CPH_AUTH_FAIL_CNT.COUNT : Fld := ⟨0xa0, 4, 0, 64, false⟩
/-- CPH_RNG_FAIL_CNT COUNT (R424). -/
def CPH_RNG_FAIL_CNT.COUNT : Fld := ⟨0xa8, 4, 0, 32, false⟩
/-- CPH_DUMMY_CFG_CNT COUNT (R424). -/
def CPH_DUMMY_CFG_CNT.COUNT : Fld := ⟨0xac, 4, 0, 32, false⟩
/-- CPH_BINDn LOCK (R424). -/
def CPH_BINDn.LOCK : Fld := ⟨0x100, 4, 31, 1, false⟩
/-- CPH_BINDn MASTER (R424). -/
def CPH_BINDn.MASTER : Fld := ⟨0x100, 4, 0, 8, false⟩
/-! ### CPHU page -/

/-- CPH_KEY_CFG SRC (R425). -/
def CPH_KEY_CFG.SRC : Fld := ⟨0x40, 4, 4, 2, false⟩
/-- CPH_KEY_CFG MODE (R425). -/
def CPH_KEY_CFG.MODE : Fld := ⟨0x40, 4, 1, 3, false⟩
/-- CPH_KEY_CFG SIZE (R425). -/
def CPH_KEY_CFG.SIZE : Fld := ⟨0x40, 4, 0, 1, false⟩
/-- CPH_KEY_LABEL LABEL (R425). -/
def CPH_KEY_LABEL.LABEL : Fld := ⟨0x44, 4, 0, 32, false⟩
/-- CPH_KEY_GEN GEN (R425). -/
def CPH_KEY_GEN.GEN : Fld := ⟨0x48, 4, 0, 32, false⟩
/-- CPH_KEY_NEXT_GEN GEN (R425). -/
def CPH_KEY_NEXT_GEN.GEN : Fld := ⟨0x4c, 4, 0, 32, false⟩
/-- CPH_KEY_INIT CTR (R425). -/
def CPH_KEY_INIT.CTR : Fld := ⟨0x50, 4, 0, 64, false⟩
/-- CPH_KEY_LIMIT LIMIT (R425). -/
def CPH_KEY_LIMIT.LIMIT : Fld := ⟨0x58, 4, 0, 64, false⟩
/-- CPH_KEY_CTL ZEROIZE (R425). -/
def CPH_KEY_CTL.ZEROIZE : Fld := ⟨0x60, 4, 1, 1, false⟩
/-- CPH_KEY_CTL LOAD (R425). -/
def CPH_KEY_CTL.LOAD : Fld := ⟨0x60, 4, 0, 1, false⟩
/-- CPH_KEY_STAT CODE (R425). -/
def CPH_KEY_STAT.CODE : Fld := ⟨0x64, 4, 8, 4, false⟩
/-- CPH_KEY_STAT STATE (R425). -/
def CPH_KEY_STAT.STATE : Fld := ⟨0x64, 4, 0, 3, false⟩
/-- CPH_KEY_DATAn DATA (R425). -/
def CPH_KEY_DATAn.DATA : Fld := ⟨0x80, 4, 0, 32, false⟩
/-- CPH_CTR CTR (R425). -/
def CPH_CTR.CTR : Fld := ⟨0xc0, 4, 0, 64, false⟩
/-- CPH_JOB_CFG TAG_LEN (R425). -/
def CPH_JOB_CFG.TAG_LEN : Fld := ⟨0xc8, 4, 8, 5, false⟩
/-- CPH_JOB_CFG SRC (R425). -/
def CPH_JOB_CFG.SRC : Fld := ⟨0xc8, 4, 4, 1, false⟩
/-- CPH_JOB_CFG PART (R425). -/
def CPH_JOB_CFG.PART : Fld := ⟨0xc8, 4, 2, 2, false⟩
/-- CPH_JOB_OP OP (R425). -/
def CPH_JOB_OP.OP : Fld := ⟨0xcc, 4, 0, 3, false⟩
/-- CPH_JOB_AAD_LEN BYTES (R425). -/
def CPH_JOB_AAD_LEN.BYTES : Fld := ⟨0xd0, 4, 0, 32, false⟩
/-- CPH_JOB_LEN BYTES (R425). -/
def CPH_JOB_LEN.BYTES : Fld := ⟨0xd4, 4, 0, 32, false⟩
/-- CPH_JOB_SRC ADDR (R425). -/
def CPH_JOB_SRC.ADDR : Fld := ⟨0xd8, 4, 0, 64, false⟩
/-- CPH_JOB_DST ADDR (R425). -/
def CPH_JOB_DST.ADDR : Fld := ⟨0xe0, 4, 0, 64, false⟩
/-- CPH_JOB_IVi IV (R425). -/
def CPH_JOB_IVi.IV : Fld := ⟨0xe8, 4, 0, 32, false⟩
/-- CPH_JOB_CTL ABORT (R425). -/
def CPH_JOB_CTL.ABORT : Fld := ⟨0xf8, 4, 1, 1, false⟩
/-- CPH_JOB_CTL GO (R425). -/
def CPH_JOB_CTL.GO : Fld := ⟨0xf8, 4, 0, 1, false⟩
/-- CPH_JOB_STAT CODE (R425). -/
def CPH_JOB_STAT.CODE : Fld := ⟨0xfc, 4, 8, 4, false⟩
/-- CPH_JOB_STAT STATE (R425). -/
def CPH_JOB_STAT.STATE : Fld := ⟨0xfc, 4, 0, 2, false⟩
/-- CPH_TAGi TAG (R425). -/
def CPH_TAGi.TAG : Fld := ⟨0x100, 4, 0, 32, false⟩
/-- CPH_MSG_BLOCKS BLOCKS (R425). -/
def CPH_MSG_BLOCKS.BLOCKS : Fld := ⟨0x110, 4, 0, 64, false⟩
/-- CPH_PG_BLOCK_CNT COUNT (R425). -/
def CPH_PG_BLOCK_CNT.COUNT : Fld := ⟨0x180, 4, 0, 64, false⟩
/-- CPH_PG_AUTH_FAIL_CNT COUNT (R425). -/
def CPH_PG_AUTH_FAIL_CNT.COUNT : Fld := ⟨0x188, 4, 0, 64, false⟩
/-- CPH_PG_ABANDON_CNT COUNT (R425). -/
def CPH_PG_ABANDON_CNT.COUNT : Fld := ⟨0x190, 4, 0, 64, false⟩
/-- CPH_WIN DATA (R425). -/
def CPH_WIN.DATA : Fld := ⟨0x400, 4, 0, 32, false⟩
/-! ### MBXC page -/

/-- MBX_BIND_LOCK LOCK (R443). -/
def MBX_BIND_LOCK.LOCK : Fld := ⟨0x40, 4, 0, 1, false⟩
/-- MBX_DECLARE RESET (R443). -/
def MBX_DECLARE.RESET : Fld := ⟨0x44, 4, 0, 1, false⟩
/-- MBX_GEN0 GEN_40 (R443). -/
def MBX_GEN0.GEN_40 : Fld := ⟨0x48, 4, 24, 8, false⟩
/-- MBX_GEN0 GEN_11 (R443). -/
def MBX_GEN0.GEN_11 : Fld := ⟨0x48, 4, 16, 8, false⟩
/-- MBX_GEN0 GEN_10 (R443). -/
def MBX_GEN0.GEN_10 : Fld := ⟨0x48, 4, 8, 8, false⟩
/-- MBX_GEN0 GEN_01 (R443). -/
def MBX_GEN0.GEN_01 : Fld := ⟨0x48, 4, 0, 8, false⟩
/-- MBX_GEN1 GEN_PEER (R443). -/
def MBX_GEN1.GEN_PEER : Fld := ⟨0x4c, 4, 0, 32, false⟩
/-- MBX_VIOL_CAP VALID (R443). -/
def MBX_VIOL_CAP.VALID : Fld := ⟨0x50, 4, 31, 1, false⟩
/-- MBX_VIOL_CAP WRITE (R443). -/
def MBX_VIOL_CAP.WRITE : Fld := ⟨0x50, 4, 30, 1, false⟩
/-- MBX_VIOL_CAP MASTER (R443). -/
def MBX_VIOL_CAP.MASTER : Fld := ⟨0x50, 4, 16, 8, false⟩
/-- MBX_VIOL_CAP CHANNEL (R443). -/
def MBX_VIOL_CAP.CHANNEL : Fld := ⟨0x50, 4, 12, 4, false⟩
/-- MBX_VIOL_CAP OFFSET (R443). -/
def MBX_VIOL_CAP.OFFSET : Fld := ⟨0x50, 4, 0, 12, false⟩
/-- MBX_VIOL_CNT COUNT (R443). -/
def MBX_VIOL_CNT.COUNT : Fld := ⟨0x58, 4, 0, 64, false⟩
/-- MBX_BINDc EN (R443). -/
def MBX_BINDc.EN : Fld := ⟨0x100, 4, 31, 1, false⟩
/-- MBX_BINDc SENDER (R443). -/
def MBX_BINDc.SENDER : Fld := ⟨0x100, 4, 8, 8, false⟩
/-- MBX_BINDc RECEIVER (R443). -/
def MBX_BINDc.RECEIVER : Fld := ⟨0x100, 4, 0, 8, false⟩
/-! ### MBXCH page -/

/-- MBX_MSGw DATA (R444). -/
def MBX_MSGw.DATA : Fld := ⟨0x40, 4, 0, 32, false⟩
/-- MBX_POST LEN (R444). -/
def MBX_POST.LEN : Fld := ⟨0x80, 4, 0, 5, false⟩
/-- MBX_RX_CTL TAKE (R444). -/
def MBX_RX_CTL.TAKE : Fld := ⟨0x84, 4, 0, 1, false⟩
/-- MBX_ACK CODE (R444). -/
def MBX_ACK.CODE : Fld := ⟨0x88, 4, 0, 16, false⟩
/-- MBX_STAT SENDER_GEN (R444). -/
def MBX_STAT.SENDER_GEN : Fld := ⟨0x8c, 4, 24, 8, false⟩
/-- MBX_STAT LEN (R444). -/
def MBX_STAT.LEN : Fld := ⟨0x8c, 4, 16, 5, false⟩
/-- MBX_STAT WAS_TAKEN (R444). -/
def MBX_STAT.WAS_TAKEN : Fld := ⟨0x8c, 4, 3, 1, false⟩
/-- MBX_STAT ORPHAN (R444). -/
def MBX_STAT.ORPHAN : Fld := ⟨0x8c, 4, 2, 1, false⟩
/-- MBX_STAT STATE (R444). -/
def MBX_STAT.STATE : Fld := ⟨0x8c, 4, 0, 2, false⟩
/-- MBX_DB BITS (R444). -/
def MBX_DB.BITS : Fld := ⟨0x90, 4, 0, 32, false⟩
/-- MBX_DB_SET SET (R444). -/
def MBX_DB_SET.SET : Fld := ⟨0x94, 4, 0, 32, false⟩
/-- MBX_DB_MASK MASK (R444). -/
def MBX_DB_MASK.MASK : Fld := ⟨0x98, 4, 0, 32, false⟩
/-- MBX_POST_CNT COUNT (R444). -/
def MBX_POST_CNT.COUNT : Fld := ⟨0x9c, 4, 0, 32, false⟩
/-! ### CSC page -/

/-- CSC_CFG FALLBACK (R470). -/
def CSC_CFG.FALLBACK : Fld := ⟨0x40, 4, 31, 1, false⟩
/-- CSC_CFG DEVICES (R470). -/
def CSC_CFG.DEVICES : Fld := ⟨0x40, 4, 0, 3, false⟩
/-- CSC_STAT ACTIVE (R470). -/
def CSC_STAT.ACTIVE : Fld := ⟨0x44, 4, 31, 1, false⟩
/-- CSC_STAT IS_MASTER (R470). -/
def CSC_STAT.IS_MASTER : Fld := ⟨0x44, 4, 30, 1, false⟩
/-- CSC_STAT TIME_LOCKED (R470). -/
def CSC_STAT.TIME_LOCKED : Fld := ⟨0x44, 4, 29, 1, false⟩
/-- CSC_STAT DIVERGED (R470). -/
def CSC_STAT.DIVERGED : Fld := ⟨0x44, 4, 28, 1, false⟩
/-- CSC_STAT DEMOTED (R470). -/
def CSC_STAT.DEMOTED : Fld := ⟨0x44, 4, 27, 1, false⟩
/-- CSC_STAT MISMATCH (R470). -/
def CSC_STAT.MISMATCH : Fld := ⟨0x44, 4, 26, 1, false⟩
/-- CSC_STAT LIVE (R470). -/
def CSC_STAT.LIVE : Fld := ⟨0x44, 4, 16, 4, false⟩
/-- CSC_STAT MASTER_ID (R470). -/
def CSC_STAT.MASTER_ID : Fld := ⟨0x44, 4, 12, 2, false⟩
/-- CSC_STAT ID (R470). -/
def CSC_STAT.ID : Fld := ⟨0x44, 4, 8, 2, false⟩
/-- CSC_STAT ROLE (R470). -/
def CSC_STAT.ROLE : Fld := ⟨0x44, 4, 0, 2, false⟩
/-- CSC_COMMIT_CFG MARGIN_US (R470). -/
def CSC_COMMIT_CFG.MARGIN_US : Fld := ⟨0x48, 4, 8, 8, false⟩
/-- CSC_COMMIT_CFG PREP_US (R470). -/
def CSC_COMMIT_CFG.PREP_US : Fld := ⟨0x48, 4, 0, 8, false⟩
/-- CSC_COMMIT_STAT OUTCOME (R470). -/
def CSC_COMMIT_STAT.OUTCOME : Fld := ⟨0x4c, 4, 12, 2, false⟩
/-- CSC_COMMIT_STAT REASON (R470). -/
def CSC_COMMIT_STAT.REASON : Fld := ⟨0x4c, 4, 8, 4, false⟩
/-- CSC_COMMIT_STAT REFUSED (R470). -/
def CSC_COMMIT_STAT.REFUSED : Fld := ⟨0x4c, 4, 4, 4, false⟩
/-- CSC_COMMIT_STAT PREPARED (R470). -/
def CSC_COMMIT_STAT.PREPARED : Fld := ⟨0x4c, 4, 0, 4, false⟩
/-- CSC_COMMIT_TGT EPOCH (R470). -/
def CSC_COMMIT_TGT.EPOCH : Fld := ⟨0x50, 4, 0, 32, false⟩
/-- CSC_TIME_OFFSET NS (R470). -/
def CSC_TIME_OFFSET.NS : Fld := ⟨0x54, 4, 0, 32, false⟩
/-- CSC_SKEW LIMIT_NS (R470). -/
def CSC_SKEW.LIMIT_NS : Fld := ⟨0x58, 4, 16, 16, false⟩
/-- CSC_SKEW SKEW_NS (R470). -/
def CSC_SKEW.SKEW_NS : Fld := ⟨0x58, 4, 0, 16, false⟩
/-- CSC_LINK_STATk UP (R470). -/
def CSC_LINK_STATk.UP : Fld := ⟨0x60, 4, 31, 1, false⟩
/-- CSC_LINK_STATk MISWIRED (R470). -/
def CSC_LINK_STATk.MISWIRED : Fld := ⟨0x60, 4, 30, 1, false⟩
/-- CSC_LINK_STATk PEER_ID (R470). -/
def CSC_LINK_STATk.PEER_ID : Fld := ⟨0x60, 4, 28, 2, false⟩
/-- CSC_LINK_STATk PEER_LINK (R470). -/
def CSC_LINK_STATk.PEER_LINK : Fld := ⟨0x60, 4, 26, 2, false⟩
/-- CSC_LINK_STATk DELAY_NS (R470). -/
def CSC_LINK_STATk.DELAY_NS : Fld := ⟨0x60, 4, 0, 16, false⟩
/-- CSC_LINK_CFGk EN (R470). -/
def CSC_LINK_CFGk.EN : Fld := ⟨0x70, 4, 31, 1, false⟩
/-- CSC_LINK_CFGk TX_INV (R470). -/
def CSC_LINK_CFGk.TX_INV : Fld := ⟨0x70, 4, 4, 4, false⟩
/-- CSC_LINK_CFGk RX_INV (R470). -/
def CSC_LINK_CFGk.RX_INV : Fld := ⟨0x70, 4, 0, 4, false⟩
/-- CSC_SQ_CFGc ALPHA (R470). -/
def CSC_SQ_CFGc.ALPHA : Fld := ⟨0x80, 8, 24, 4, false⟩
/-- CSC_SQ_CFGc MIN (R470). -/
def CSC_SQ_CFGc.MIN : Fld := ⟨0x80, 8, 0, 16, false⟩
/-- CSC_SQ_CFGc word 1 MAX (R470). -/
def CSC_SQ_CFGc_W1.MAX : Fld := ⟨0x84, 8, 0, 19, false⟩
/-- CSC_MASTER_CTL HANDBACK (R470). -/
def CSC_MASTER_CTL.HANDBACK : Fld := ⟨0x90, 4, 0, 1, false⟩
/-- CSC_RMT_ADDR DEV (R470). -/
def CSC_RMT_ADDR.DEV : Fld := ⟨0xa0, 4, 30, 2, false⟩
/-- CSC_RMT_ADDR OFFSET (R470). -/
def CSC_RMT_ADDR.OFFSET : Fld := ⟨0xa0, 4, 0, 26, false⟩
/-- CSC_RMT_DATA DATA (R470). -/
def CSC_RMT_DATA.DATA : Fld := ⟨0xa4, 4, 0, 32, false⟩
/-- CSC_RMT_CTL WRITE (R470). -/
def CSC_RMT_CTL.WRITE : Fld := ⟨0xa8, 4, 1, 1, false⟩
/-- CSC_RMT_CTL GO (R470). -/
def CSC_RMT_CTL.GO : Fld := ⟨0xa8, 4, 0, 1, false⟩
/-- CSC_RMT_STAT CODE (R470). -/
def CSC_RMT_STAT.CODE : Fld := ⟨0xac, 4, 0, 4, false⟩
/-- CSC_STEER_CNT COUNT (R470). -/
def CSC_STEER_CNT.COUNT : Fld := ⟨0x100, 4, 0, 64, false⟩
/-- CSC_FALLBACK_CNT COUNT (R470). -/
def CSC_FALLBACK_CNT.COUNT : Fld := ⟨0x108, 4, 0, 64, false⟩
/-- CSC_STEER_REFUSED_CNT COUNT (R470). -/
def CSC_STEER_REFUSED_CNT.COUNT : Fld := ⟨0x110, 4, 0, 64, false⟩
/-- CSC_NOPATH_CNT COUNT (R470). -/
def CSC_NOPATH_CNT.COUNT : Fld := ⟨0x118, 4, 0, 64, false⟩
/-- CSC_RMT_DENIED_CNT COUNT (R470). -/
def CSC_RMT_DENIED_CNT.COUNT : Fld := ⟨0x120, 4, 0, 32, false⟩
/-- CSC_TAKEOVER_CNT COUNT (R470). -/
def CSC_TAKEOVER_CNT.COUNT : Fld := ⟨0x124, 4, 0, 32, false⟩
/-- CSC_TX_FRAMESk COUNT (R470). -/
def CSC_TX_FRAMESk.COUNT : Fld := ⟨0x200, 32, 0, 64, false⟩
/-- CSC_TX_BYTESk COUNT (R470). -/
def CSC_TX_BYTESk.COUNT : Fld := ⟨0x208, 32, 0, 64, false⟩
/-- CSC_RX_FRAMESk COUNT (R470). -/
def CSC_RX_FRAMESk.COUNT : Fld := ⟨0x210, 32, 0, 64, false⟩
/-- CSC_RX_CRC_ERRk COUNT (R470). -/
def CSC_RX_CRC_ERRk.COUNT : Fld := ⟨0x218, 32, 0, 64, false⟩
/-- CSC_PORT_MAPv EN (R470). -/
def CSC_PORT_MAPv.EN : Fld := ⟨0x400, 4, 31, 1, false⟩
/-- CSC_PORT_MAPv DEV (R470). -/
def CSC_PORT_MAPv.DEV : Fld := ⟨0x400, 4, 28, 2, false⟩
/-- CSC_PORT_MAPv PORT (R470). -/
def CSC_PORT_MAPv.PORT : Fld := ⟨0x400, 4, 0, 8, false⟩
/-! ### RAS page -/

/-- RAS_STAT TJ_MAX (R495). -/
def RAS_STAT.TJ_MAX : Fld := ⟨0x40, 4, 24, 8, false⟩
/-- RAS_STAT HOTTEST (R495). -/
def RAS_STAT.HOTTEST : Fld := ⟨0x40, 4, 20, 4, false⟩
/-- RAS_STAT LOG_WRAPPED (R495). -/
def RAS_STAT.LOG_WRAPPED : Fld := ⟨0x40, 4, 2, 1, false⟩
/-- RAS_STAT FW_FALLBACK (R495). -/
def RAS_STAT.FW_FALLBACK : Fld := ⟨0x40, 4, 1, 1, false⟩
/-- RAS_STAT THERM_WARN (R495). -/
def RAS_STAT.THERM_WARN : Fld := ⟨0x40, 4, 0, 1, false⟩
/-- RAS_THERM_CFG HYST (R495). -/
def RAS_THERM_CFG.HYST : Fld := ⟨0x44, 4, 8, 8, false⟩
/-- RAS_THERM_CFG WARN (R495). -/
def RAS_THERM_CFG.WARN : Fld := ⟨0x44, 4, 0, 8, false⟩
/-- RAS_CE_CFG INTERVAL_MS (R495). -/
def RAS_CE_CFG.INTERVAL_MS : Fld := ⟨0x48, 4, 0, 16, false⟩
/-- RAS_SCRUB_CFG EN (R495). -/
def RAS_SCRUB_CFG.EN : Fld := ⟨0x4c, 4, 31, 1, false⟩
/-- RAS_SCRUB_CFG PERIOD_MS (R495). -/
def RAS_SCRUB_CFG.PERIOD_MS : Fld := ⟨0x4c, 4, 0, 16, false⟩
/-- RAS_LOG_STAT VALID (R495). -/
def RAS_LOG_STAT.VALID : Fld := ⟨0x50, 4, 16, 15, false⟩
/-- RAS_LOG_STAT HEAD (R495). -/
def RAS_LOG_STAT.HEAD : Fld := ⟨0x50, 4, 0, 14, false⟩
/-- RAS_LOG_SEL INDEX (R495). -/
def RAS_LOG_SEL.INDEX : Fld := ⟨0x54, 4, 0, 14, false⟩
/-- RAS_SEQ SEQ (R495). -/
def RAS_SEQ.SEQ : Fld := ⟨0x58, 4, 0, 64, false⟩
/-- RAS_FW_SEL SLOT (R495). -/
def RAS_FW_SEL.SLOT : Fld := ⟨0x60, 4, 0, 1, true⟩
/-- RAS_FW_STAT VERSION (R495). -/
def RAS_FW_STAT.VERSION : Fld := ⟨0x64, 4, 16, 16, false⟩
/-- RAS_FW_STAT RUNNING (R495). -/
def RAS_FW_STAT.RUNNING : Fld := ⟨0x64, 4, 8, 1, false⟩
/-- RAS_FW_STAT CODE (R495). -/
def RAS_FW_STAT.CODE : Fld := ⟨0x64, 4, 0, 4, false⟩
/-- RAS_FW_ADDR ADDR (R495). -/
def RAS_FW_ADDR.ADDR : Fld := ⟨0x68, 4, 0, 64, false⟩
/-- RAS_FW_LEN BYTES (R495). -/
def RAS_FW_LEN.BYTES : Fld := ⟨0x70, 4, 0, 23, false⟩
/-- RAS_FW_CTL YIELD (R495). -/
def RAS_FW_CTL.YIELD : Fld := ⟨0x74, 4, 1, 1, false⟩
/-- RAS_FW_CTL LOAD (R495). -/
def RAS_FW_CTL.LOAD : Fld := ⟨0x74, 4, 0, 1, false⟩
/-- RAS_FW_WDOG ALIVE (R495). -/
def RAS_FW_WDOG.ALIVE : Fld := ⟨0x78, 4, 31, 1, false⟩
/-- RAS_FW_WDOG LIMIT_MS (R495). -/
def RAS_FW_WDOG.LIMIT_MS : Fld := ⟨0x78, 4, 0, 16, false⟩
/-- RAS_MC_WDOG KICK (R495). -/
def RAS_MC_WDOG.KICK : Fld := ⟨0x7c, 4, 31, 1, false⟩
/-- RAS_MC_WDOG LIMIT_MS (R495). -/
def RAS_MC_WDOG.LIMIT_MS : Fld := ⟨0x7c, 4, 0, 16, false⟩
/-- RAS_LOG_DATAn DATA (R495). -/
def RAS_LOG_DATAn.DATA : Fld := ⟨0x80, 4, 0, 32, false⟩
/-- RAS_CE_CNT COUNT (R495). -/
def RAS_CE_CNT.COUNT : Fld := ⟨0x100, 4, 0, 64, false⟩
/-- RAS_DEGRADED_CNT COUNT (R495). -/
def RAS_DEGRADED_CNT.COUNT : Fld := ⟨0x108, 4, 0, 64, false⟩
/-- RAS_LOST_CNT COUNT (R495). -/
def RAS_LOST_CNT.COUNT : Fld := ⟨0x110, 4, 0, 64, false⟩
/-- RAS_SUPPRESSED_CNT COUNT (R495). -/
def RAS_SUPPRESSED_CNT.COUNT : Fld := ⟨0x118, 4, 0, 64, false⟩
/-- RAS_LOG_SKIP_CNT COUNT (R495). -/
def RAS_LOG_SKIP_CNT.COUNT : Fld := ⟨0x120, 4, 0, 64, false⟩
/-- RAS_STG_UE_CNT COUNT (R495). -/
def RAS_STG_UE_CNT.COUNT : Fld := ⟨0x128, 4, 0, 64, false⟩
/-- RAS_MC_RESTART_CNT COUNT (R495). -/
def RAS_MC_RESTART_CNT.COUNT : Fld := ⟨0x130, 4, 0, 32, false⟩
/-- RAS_HANDOVER_CNT COUNT (R495). -/
def RAS_HANDOVER_CNT.COUNT : Fld := ⟨0x134, 4, 0, 32, false⟩
/-! ### SYS page -/

/-- SYS_RST_CTL MGMT (R513). -/
def SYS_RST_CTL.MGMT : Fld := ⟨0xc0, 4, 0, 1, false⟩
/-- SYS_RST_CAUSE MGMT_CNT (R513). -/
def SYS_RST_CAUSE.MGMT_CNT : Fld := ⟨0xc4, 4, 24, 8, false⟩
/-- SYS_RST_CAUSE PERST_CNT (R513). -/
def SYS_RST_CAUSE.PERST_CNT : Fld := ⟨0xc4, 4, 16, 8, false⟩
/-- SYS_RST_CAUSE COLD (R513). -/
def SYS_RST_CAUSE.COLD : Fld := ⟨0xc4, 4, 0, 3, false⟩
/-- SYS_BOOT_STAT CODE (R513). -/
def SYS_BOOT_STAT.CODE : Fld := ⟨0xc8, 4, 6, 2, false⟩
/-- SYS_BOOT_STAT SLOT (R513). -/
def SYS_BOOT_STAT.SLOT : Fld := ⟨0xc8, 4, 4, 1, false⟩
/-- SYS_BOOT_STAT STEP (R513). -/
def SYS_BOOT_STAT.STEP : Fld := ⟨0xc8, 4, 0, 4, false⟩
/-- SYS_BOOT_MS MS (R513). -/
def SYS_BOOT_MS.MS : Fld := ⟨0xcc, 4, 0, 16, false⟩
/-- SYS_BYPASS CHANGES (R513). -/
def SYS_BYPASS.CHANGES : Fld := ⟨0xd0, 4, 16, 16, false⟩
/-- SYS_BYPASS INLINE (R513). -/
def SYS_BYPASS.INLINE : Fld := ⟨0xd0, 4, 0, 1, false⟩
/-- SYS_GPIO_DIR DIR (R513). -/
def SYS_GPIO_DIR.DIR : Fld := ⟨0xd4, 4, 0, 8, false⟩
/-- SYS_GPIO_OD OD (R513). -/
def SYS_GPIO_OD.OD : Fld := ⟨0xd8, 4, 0, 8, false⟩
/-- SYS_GPIO_OUT OUT (R513). -/
def SYS_GPIO_OUT.OUT : Fld := ⟨0xdc, 4, 0, 8, false⟩
/-- SYS_GPIO_IN IN (R513). -/
def SYS_GPIO_IN.IN : Fld := ⟨0xe0, 4, 0, 8, false⟩
/-- SYS_LED_CFGn PORT (R513). -/
def SYS_LED_CFGn.PORT : Fld := ⟨0xe4, 4, 2, 7, false⟩
/-- SYS_LED_CFGn MODE (R513). -/
def SYS_LED_CFGn.MODE : Fld := ⟨0xe4, 4, 0, 2, false⟩
/-- SYS_AVS TARGET_MV (R523). -/
def SYS_AVS.TARGET_MV : Fld := ⟨0x1c0, 4, 16, 10, false⟩
/-- SYS_AVS APPLIED_MV (R523). -/
def SYS_AVS.APPLIED_MV : Fld := ⟨0x1c0, 4, 0, 10, false⟩

/-- The registers of a CLK page. -/
def rowsCLK : List RegRow := [
  ⟨0x40, 4, 1, 1, false, 0x6c0019, 0, 0, 0, 0, 0, 0⟩,   -- CLK_SYNTH_CFG
  ⟨0x44, 4, 1, 1, false, 0, 0, 0, 0x8, 0, 0, 0⟩,   -- CLK_STAT
  ⟨0x48, 4, 1, 1, false, 0x32, 0xffff, 0, 0, 0, 0, 0⟩,   -- CLK_STRETCH_LIMIT
  ⟨0x4c, 4, 1, 1, false, 0, 0, 0, 0, 0, 0, 0⟩,   -- CLK_DROOP_ACTIVE
  ⟨0x50, 4, 1, 1, false, 0, 0, 0, 0xffffffff, 0, 0, 0⟩,   -- CLK_DROOP_STICKY
  ⟨0x80, 4, 32, 1, false, 0x8000190f, 0x80003f3f, 0, 0, 0, 0, 0⟩,   -- CLK_DROOP_CFGn
  ⟨0x100, 8, 11, 2, true, 0, 0, 0, 0, 0, 0, 0⟩,   -- CLK_SWALLOWn
  ⟨0x180, 4, 11, 1, false, 0, 0, 0, 0, 0, 0, 0⟩ ]   -- CLK_STRETCH_EVTn

/-- The registers of a EPC page. -/
def rowsEPC : List RegRow := [
  ⟨0x40, 4, 1, 1, false, 0x14, 0, 0x1f, 0, 0, 0, 0⟩,   -- EPC_EPOCH_CFG
  ⟨0x44, 4, 1, 1, false, 0, 0, 0, 0, 0, 0, 0⟩,   -- EPC_EPOCH_NUM
  ⟨0x48, 4, 1, 1, false, 0, 0, 0, 0, 0, 0, 0⟩,   -- EPC_TIME_NS
  ⟨0x4c, 4, 1, 1, false, 0, 0, 0, 0, 0, 0, 0⟩,   -- EPC_TIME_SEC_LO
  ⟨0x50, 4, 1, 1, false, 0, 0, 0, 0, 0, 0, 0⟩,   -- EPC_TIME_SEC_HI
  ⟨0x54, 4, 1, 1, false, 0, 0xffffffff, 0, 0, 0, 0, 0⟩,   -- EPC_RATE_ADJ
  ⟨0x58, 4, 1, 1, false, 0, 0xffffffff, 0, 0, 0, 0, 0⟩,   -- EPC_STEP_NS
  ⟨0x5c, 4, 1, 1, false, 0, 0xffffffff, 0, 0, 0, 0, 0⟩,   -- EPC_STEP_SEC
  ⟨0x60, 4, 1, 1, false, 0, 0, 0, 0, 0, 0x3, 0⟩,   -- EPC_STEP_CTL
  ⟨0x64, 4, 1, 1, false, 0, 0xffffffff, 0, 0, 0, 0, 0⟩,   -- EPC_COMMIT_TARGET
  ⟨0x68, 4, 1, 1, false, 0, 0, 0, 0, 0, 0x3, 0⟩,   -- EPC_COMMIT_CTL
  ⟨0x6c, 4, 1, 1, false, 0, 0, 0, 0, 0, 0, 0⟩,   -- EPC_COMMIT_STAT
  ⟨0x70, 4, 1, 1, false, 0, 0, 0, 0, 0, 0, 0⟩,   -- EPC_DRAIN_MAX
  ⟨0x74, 4, 1, 1, false, 0, 0, 0, 0x3, 0, 0, 0⟩ ]   -- EPC_STAT

/-- The registers of a HDR page. -/
def rowsHDR : List RegRow := [
  ⟨0x0, 4, 1, 1, false, 0x1, 0, 0, 0, 0, 0, 0⟩,   -- PG_ID
  ⟨0x4, 4, 1, 1, false, 0, 0, 0, 0, 0, 0, 0⟩,   -- PG_CAPS
  ⟨0x8, 4, 1, 1, false, 0x1, 0x1, 0, 0, 0, 0x2, 0⟩,   -- PG_CTL
  ⟨0xc, 4, 1, 1, false, 0, 0, 0, 0, 0, 0, 0⟩,   -- PG_STAT
  ⟨0x10, 4, 1, 1, false, 0, 0, 0, 0xffffffff, 0, 0, 0⟩,   -- PG_IRQ_STAT
  ⟨0x14, 4, 1, 1, false, 0, 0xffffffff, 0, 0, 0, 0, 0⟩,   -- PG_IRQ_EN
  ⟨0x18, 4, 1, 1, false, 0, 0, 0, 0, 0xffffffff, 0, 0⟩,   -- PG_IRQ_FORCE
  ⟨0x1c, 4, 1, 1, false, 0, 0, 0, 0x80000000, 0, 0, 0⟩,   -- PG_ERR_CAP
  ⟨0x20, 4, 1, 1, false, 0, 0xffffffff, 0, 0, 0, 0, 0⟩,   -- PG_ERR_CNT
  ⟨0x24, 4, 1, 1, false, 0, 0x3, 0, 0x30, 0, 0, 0⟩,   -- PG_SHADOW_CTL
  ⟨0x28, 4, 1, 1, false, 0, 0, 0, 0, 0, 0, 0⟩,   -- PG_EPOCH_TAG
  ⟨0x2c, 4, 1, 1, false, 0, 0, 0, 0, 0, 0, 0⟩ ]   -- PG_OWNER

/-- The registers of a SYS page. -/
def rowsSYS : List RegRow := [
  ⟨0x40, 4, 1, 1, false, 0x9640b001, 0, 0, 0, 0, 0, 0⟩,   -- SYS_DEVICE_ID
  ⟨0x44, 4, 1, 1, false, 0, 0, 0, 0, 0, 0, 0⟩,   -- SYS_STRAP
  ⟨0x48, 4, 1, 2, false, 0, 0, 0, 0, 0, 0, 0⟩,   -- SYS_IRQ_SUMMARY
  ⟨0x50, 4, 1, 2, false, 0, 0xffffffffffffffff, 0, 0, 0, 0, 0⟩,   -- SYS_IRQ_EN
  ⟨0x58, 4, 1, 2, false, 0, 0xffffffffffffffff, 0, 0, 0, 0, 0⟩,   -- SYS_IRQ_PIN_EN
  ⟨0x60, 4, 1, 2, false, 0, 0, 0, 0, 0, 0xffffffffffffffff, 0⟩,   -- SYS_IRQ_REARM
  ⟨0x68, 4, 1, 1, false, 0, 0x3f, 0, 0, 0, 0, 0⟩,   -- SYS_IRQ_DET_SEL
  ⟨0x70, 4, 1, 2, false, 0, 0xffffffffffffffff, 0, 0, 0, 0, 0⟩,   -- SYS_IRQ_MC_EN
  ⟨0x80, 4, 8, 1, false, 0, 0, 0, 0, 0, 0, 0⟩,   -- SYS_IRQ_DETn
  ⟨0xa0, 4, 1, 1, false, 0, 0xffffffff, 0, 0, 0, 0, 0⟩,   -- HIF_UNMAPPED_CNT
  ⟨0x100, 4, 32, 1, false, 0, 0xff, 0, 0, 0, 0, 0⟩,   -- SYS_SEMn
  ⟨0x180, 4, 1, 1, false, 0, 0, 0, 0, 0, 0xffffffff, 0⟩,   -- SYS_SEM_FORCE
  ⟨0xc0, 4, 1, 1, false, 0, 0, 0, 0, 0, 0x1, 0⟩,   -- SYS_RST_CTL
  ⟨0xc4, 4, 1, 1, false, 0, 0, 0, 0, 0, 0, 0⟩,   -- SYS_RST_CAUSE
  ⟨0xc8, 4, 1, 1, false, 0x1, 0, 0, 0, 0, 0, 0⟩,   -- SYS_BOOT_STAT
  ⟨0xcc, 4, 1, 1, false, 0, 0, 0, 0, 0, 0, 0⟩,   -- SYS_BOOT_MS
  ⟨0xd0, 4, 1, 1, false, 0, 0x1, 0, 0, 0, 0, 0⟩,   -- SYS_BYPASS
  ⟨0xd4, 4, 1, 1, false, 0, 0xff, 0, 0, 0, 0, 0⟩,   -- SYS_GPIO_DIR
  ⟨0xd8, 4, 1, 1, false, 0, 0xff, 0, 0, 0, 0, 0⟩,   -- SYS_GPIO_OD
  ⟨0xdc, 4, 1, 1, false, 0, 0xff, 0, 0, 0, 0, 0⟩,   -- SYS_GPIO_OUT
  ⟨0xe0, 4, 1, 1, false, 0, 0, 0, 0, 0, 0, 0⟩,   -- SYS_GPIO_IN
  ⟨0xe4, 4, 4, 1, false, 0, 0x1ff, 0, 0, 0, 0, 0⟩,   -- SYS_LED_CFGn
  ⟨0x1c0, 4, 1, 1, false, 0x2ee, 0x3ff, 0, 0, 0, 0, 0⟩ ]   -- SYS_AVS

/-- The registers of a RING page. -/
def rowsRING : List RegRow := [
  ⟨0x40, 4, 1, 2, false, 0, 0xffffffffffffffff, 0, 0, 0, 0, 0⟩,   -- RING_BASE
  ⟨0x48, 4, 1, 1, false, 0xa, 0x1f, 0, 0, 0, 0, 0⟩,   -- RING_SIZE
  ⟨0x4c, 4, 1, 1, false, 0, 0xffff, 0, 0, 0, 0, 0⟩,   -- RING_PROD
  ⟨0x50, 4, 1, 1, false, 0, 0xffff, 0, 0, 0, 0, 0⟩,   -- RING_CONS
  ⟨0x54, 4, 1, 1, false, 0x100, 0xffffff3f, 0, 0, 0, 0, 0⟩,   -- RING_CTL
  ⟨0x58, 4, 1, 1, false, 0, 0, 0, 0xf, 0, 0, 0⟩,   -- RING_STAT
  ⟨0x5c, 4, 1, 1, false, 0, 0, 0, 0, 0, 0, 0⟩ ]   -- RING_DROP_CNT

/-- The registers of a FTR page. -/
def rowsFTR : List RegRow := [
  ⟨0x40, 4, 4, 1, false, 0, 0, 0, 0, 0, 0, 0⟩,   -- FEAT_OFFERi
  ⟨0x50, 4, 4, 1, false, 0, 0xffffffff, 0, 0, 0, 0, 0⟩,   -- FEAT_ACCEPTi
  ⟨0x60, 4, 4, 1, false, 0, 0, 0, 0, 0, 0, 0⟩,   -- FEAT_ACTIVEi
  ⟨0x70, 4, 1, 1, false, 0, 0, 0, 0, 0, 0x1, 0⟩,   -- FEAT_COMMIT
  ⟨0x74, 4, 1, 1, false, 0, 0, 0, 0, 0, 0, 0⟩ ]   -- FEAT_STATUS

/-- The registers of a ETH0 page. -/
def rowsETH0 : List RegRow := [
  ⟨0x40, 4, 1, 1, false, 0x3, 0x33, 0, 0, 0, 0, 0⟩,   -- ETH_GRP_CFG
  ⟨0x44, 4, 1, 1, false, 0, 0, 0, 0, 0, 0x1, 0⟩,   -- ETH_GRP_CTL
  ⟨0x48, 4, 1, 1, false, 0, 0xff, 0, 0, 0, 0, 0⟩,   -- ETH_LANE_POL
  ⟨0x4c, 4, 1, 1, false, 0xe4e4, 0xffff, 0, 0, 0, 0, 0⟩,   -- ETH_LANE_MAP
  ⟨0x50, 4, 1, 1, false, 0x3, 0x3, 0, 0, 0, 0, 0⟩,   -- ETH_AN_CFG
  ⟨0x54, 4, 1, 1, false, 0, 0x3, 0, 0, 0, 0, 0⟩,   -- ETH_LOOPBACK
  ⟨0x58, 4, 1, 1, false, 0, 0, 0, 0, 0, 0, 0⟩,   -- ETH_LINK_STAT
  ⟨0x5c, 4, 1, 1, false, 0, 0, 0, 0xf, 0, 0, 0⟩,   -- ETH_LINK_CHG
  ⟨0x60, 4, 4, 1, false, 0, 0, 0, 0, 0, 0, 0⟩ ]   -- ETH_SERDES_STATj

/-- The registers of a ETH1 page. -/
def rowsETH1 : List RegRow := [
  ⟨0x40, 32, 4, 1, false, 0xa00e400, 0xff03ffff, 0, 0, 0, 0, 0⟩,   -- ETH_MAC_CFG
  ⟨0x44, 32, 4, 1, false, 0x2000400, 0xffffffff, 0, 0, 0, 0, 0⟩,   -- ETH_FC_XOFF
  ⟨0x48, 32, 4, 1, false, 0xffff, 0xffff, 0, 0, 0, 0, 0⟩,   -- ETH_FC_QUANTA
  ⟨0x4c, 32, 4, 1, false, 0xffff, 0xffff, 0, 0, 0, 0, 0⟩,   -- ETH_PFC_MAP
  ⟨0x50, 32, 4, 1, false, 0x64, 0x1ffff, 0, 0, 0, 0, 0⟩,   -- ETH_PFC_WD
  ⟨0x54, 32, 4, 1, false, 0, 0, 0, 0xff0000, 0, 0, 0⟩ ]   -- ETH_FC_STAT

/-- The registers of a ETH2 page. -/
def rowsETH2 : List RegRow := [
  ⟨0x40, 32, 4, 2, true, 0, 0, 0, 0, 0, 0, 0⟩,   -- ETH_FEC_CORR
  ⟨0x48, 32, 4, 2, true, 0, 0, 0, 0, 0, 0, 0⟩,   -- ETH_FEC_UNCORR
  ⟨0x50, 32, 4, 2, true, 0, 0, 0, 0, 0, 0, 0⟩,   -- ETH_FEC_SYMERR
  ⟨0x58, 32, 4, 1, false, 0x186a0, 0xffffff, 0, 0, 0, 0, 0⟩,   -- ETH_FEC_DEGRADE_CFG
  ⟨0x5c, 32, 4, 1, false, 0, 0, 0, 0, 0, 0, 0⟩ ]   -- ETH_PCS_STAT

/-- The registers of a ETH3 page. -/
def rowsETH3 : List RegRow := [
  ⟨0x40, 4, 4, 1, false, 0, 0xffffffff, 0, 0, 0, 0, 0⟩,   -- ETH_TS_RX_ADJj
  ⟨0x50, 4, 4, 1, false, 0, 0xffffffff, 0, 0, 0, 0, 0⟩,   -- ETH_TS_TX_ADJj
  ⟨0x60, 4, 1, 1, false, 0, 0, 0, 0, 0, 0, 0⟩,   -- ETH_TXTS_CNT
  ⟨0x64, 4, 1, 1, false, 0, 0, 0, 0, 0, 0xf, 0⟩,   -- ETH_TXTS_POP
  ⟨0x68, 4, 1, 1, false, 0, 0, 0, 0xf, 0, 0, 0⟩,   -- ETH_TXTS_OVF
  ⟨0x70, 16, 4, 1, false, 0, 0, 0, 0, 0, 0, 0⟩,   -- ETH_TXTS_HEADj
  ⟨0x74, 16, 4, 1, false, 0, 0, 0, 0, 0, 0, 0⟩,   -- ETH_TXTS_HEADj.word 1
  ⟨0x78, 16, 4, 1, false, 0, 0, 0, 0, 0, 0, 0⟩,   -- ETH_TXTS_HEADj.word 2
  ⟨0x7c, 16, 4, 1, false, 0, 0, 0, 0, 0, 0, 0⟩,   -- ETH_TXTS_HEADj.word 3
  ⟨0xb0, 4, 1, 1, false, 0x3e800, 0xffffff07, 0, 0, 0, 0, 0⟩,   -- ETH_PPS_CFG
  ⟨0xb4, 4, 1, 1, false, 0, 0, 0, 0, 0, 0, 0⟩,   -- ETH_PPS_CAP_NS
  ⟨0xb8, 4, 1, 1, false, 0, 0, 0, 0, 0, 0, 0⟩,   -- ETH_PPS_CAP_SEC_LO
  ⟨0xbc, 4, 1, 1, false, 0, 0, 0, 0xe0000000, 0, 0, 0⟩ ]   -- ETH_PPS_CAP_STAT

/-- The registers of a PRS page. -/
def rowsPRS : List RegRow := [
  ⟨0x40, 4, 1, 1, false, 0x91000002, 0, 0xffff0003, 0, 0, 0, 0⟩,   -- PRS_CFG
  ⟨0x44, 4, 1, 1, false, 0x12b517c1, 0, 0xffffffff, 0, 0, 0, 0⟩,   -- PRS_UDP_TUN
  ⟨0x48, 4, 1, 1, false, 0x868, 0, 0xffff, 0, 0, 0, 0⟩,   -- PRS_GTPU
  ⟨0x4c, 4, 1, 1, false, 0, 0, 0x3ffc, 0, 0, 0, 0⟩,   -- PRS_MAL_ACT
  ⟨0x80, 4, 16, 1, false, 0, 0, 0xb0000fff, 0, 0, 0, 0⟩,   -- PRS_PORT_CFGj
  ⟨0x100, 16, 6, 2, true, 0, 0, 0, 0, 0, 0, 0⟩,   -- PRS_MAL_PKTc
  ⟨0x108, 16, 6, 2, true, 0, 0, 0, 0, 0, 0, 0⟩,   -- PRS_MAL_BYTESc
  ⟨0x160, 4, 1, 2, true, 0, 0, 0, 0, 0, 0, 0⟩,   -- PRS_DEPTH_CNT
  ⟨0x168, 4, 1, 2, true, 0, 0, 0, 0, 0, 0, 0⟩,   -- PRS_TRIM_CNT
  ⟨0x170, 4, 1, 2, true, 0, 0, 0, 0, 0, 0, 0⟩,   -- PRS_FRAG_CNT
  ⟨0x178, 4, 1, 2, true, 0, 0, 0, 0, 0, 0, 0⟩ ]   -- PRS_ICMP_QUOTED_CNT

/-- The registers of a CLS page. -/
def rowsCLS : List RegRow := [
  ⟨0x40, 4, 1, 1, false, 0x4000, 0, 0, 0, 0, 0, 0⟩,   -- CLS_STAT
  ⟨0x48, 4, 1, 2, true, 0, 0, 0, 0, 0, 0, 0⟩,   -- CLS_MISS_CNT
  ⟨0x50, 4, 1, 2, true, 0, 0, 0, 0, 0, 0, 0⟩,   -- CLS_PARITY_FIX
  ⟨0x58, 4, 1, 1, false, 0, 0, 0, 0, 0, 0, 0⟩,   -- CLS_PARITY_LOST
  ⟨0x5c, 4, 1, 1, false, 0, 0, 0, 0, 0, 0, 0⟩,   -- CLS_PARITY_IDX
  ⟨0x100, 4, 32, 1, false, 0, 0, 0x3f3f3f3f, 0, 0, 0, 0⟩ ]   -- CLS_PSELn

/-- The registers of a L2T page. -/
def rowsL2T : List RegRow := [
  ⟨0x40, 4, 1, 1, false, 0xffff, 0xffff, 0, 0, 0, 0, 0⟩,   -- L2T_LEARN_EN
  ⟨0x44, 4, 1, 1, false, 0xf4e20, 0xfffff, 0, 0, 0, 0, 0⟩,   -- L2T_AGE_CFG
  ⟨0x48, 4, 1, 1, false, 0xa0503e8, 0xf0fffff, 0, 0, 0, 0, 0⟩,   -- L2T_FLAP_CFG
  ⟨0x4c, 4, 1, 1, false, 0, 0, 0, 0, 0, 0, 0⟩,   -- L2T_STAT
  ⟨0x50, 4, 1, 1, false, 0, 0, 0, 0, 0, 0, 0⟩,   -- L2T_LEARN_Q
  ⟨0x80, 4, 1, 2, true, 0, 0, 0, 0, 0, 0, 0⟩,   -- L2T_LEARN_CNT
  ⟨0x88, 4, 1, 2, true, 0, 0, 0, 0, 0, 0, 0⟩,   -- L2T_MOVE_CNT
  ⟨0x90, 4, 1, 2, true, 0, 0, 0, 0, 0, 0, 0⟩,   -- L2T_AGED_CNT
  ⟨0x98, 4, 1, 2, true, 0, 0, 0, 0, 0, 0, 0⟩,   -- L2T_LEARN_DROP_CNT
  ⟨0xa0, 4, 1, 2, true, 0, 0, 0, 0, 0, 0, 0⟩,   -- L2T_FULL_CNT
  ⟨0xa8, 4, 1, 2, true, 0, 0, 0, 0, 0, 0, 0⟩,   -- L2T_STATIC_HIT_CNT
  ⟨0xb0, 4, 1, 2, true, 0, 0, 0, 0, 0, 0, 0⟩,   -- L2T_FROZEN_CNT
  ⟨0xb8, 4, 1, 2, true, 0, 0, 0, 0, 0, 0, 0⟩,   -- L2T_PARITY_FIX
  ⟨0xc0, 4, 1, 1, false, 0, 0, 0, 0, 0, 0, 0⟩,   -- L2T_PARITY_LOST
  ⟨0xc4, 4, 1, 1, false, 0, 0, 0, 0, 0, 0, 0⟩ ]   -- L2T_PARITY_IDX

/-- The registers of a LPM page. -/
def rowsLPM : List RegRow := [
  ⟨0x40, 4, 1, 1, false, 0, 0, 0, 0, 0, 0, 0⟩,   -- LPM_STAT
  ⟨0x48, 4, 1, 2, true, 0, 0, 0, 0, 0, 0, 0⟩,   -- LPM_MISS_CNT0
  ⟨0x50, 4, 1, 2, true, 0, 0, 0, 0, 0, 0, 0⟩,   -- LPM_MISS_CNT1
  ⟨0x58, 4, 1, 2, true, 0, 0, 0, 0, 0, 0, 0⟩,   -- LPM_MOVE_CNT
  ⟨0x60, 4, 1, 2, true, 0, 0, 0, 0, 0, 0, 0⟩,   -- LPM_PARITY_FIX
  ⟨0x68, 4, 1, 1, false, 0, 0, 0, 0, 0, 0, 0⟩,   -- LPM_PARITY_LOST
  ⟨0x6c, 4, 1, 1, false, 0, 0, 0, 0, 0, 0, 0⟩ ]   -- LPM_PARITY_IDX

/-- The registers of a FLW page. -/
def rowsFLW : List RegRow := [
  ⟨0x40, 4, 1, 1, false, 0, 0, 0, 0, 0, 0, 0⟩,   -- FLW_TBL_STAT
  ⟨0x44, 4, 1, 1, false, 0x4000000, 0, 0, 0, 0, 0, 0⟩,   -- FLW_FREE_STAT
  ⟨0x48, 4, 1, 1, false, 0, 0, 0, 0, 0, 0, 0⟩,   -- FLW_STASH_STAT
  ⟨0x4c, 4, 1, 1, false, 0, 0, 0, 0, 0, 0, 0⟩,   -- FLW_FENCE_STAT
  ⟨0x50, 4, 1, 1, false, 0x1a, 0x1f, 0, 0, 0, 0, 0⟩,   -- FLW_CLEAN_CFG
  ⟨0x54, 4, 1, 1, false, 0x3e8, 0xffff, 0, 0, 0, 0, 0⟩,   -- FLW_AGE_PASS
  ⟨0x58, 4, 1, 1, false, 0x8000400, 0xffffffff, 0, 0, 0, 0, 0⟩,   -- FLW_PRESSURE
  ⟨0x5c, 4, 1, 1, false, 0x3, 0x3, 0, 0, 0, 0, 0⟩,   -- FLW_INSERT_CFG
  ⟨0x60, 4, 1, 1, false, 0, 0, 0, 0, 0, 0, 0⟩,   -- FLW_OUTSTANDING
  ⟨0x80, 8, 16, 1, false, 0x64006fc2, 0xff7fffff, 0, 0, 0, 0, 0⟩,   -- FLW_AGE_CLASSn
  ⟨0x84, 8, 16, 1, false, 0x6fc2, 0x7fffff, 0, 0, 0, 0, 0⟩,   -- FLW_AGE_EFFn
  ⟨0x100, 4, 1, 2, true, 0, 0, 0, 0, 0, 0, 0⟩,   -- FLW_LOOKUP_CNT
  ⟨0x108, 4, 1, 2, true, 0, 0, 0, 0, 0, 0, 0⟩,   -- FLW_CACHE_HIT_CNT
  ⟨0x110, 4, 1, 2, true, 0, 0, 0, 0, 0, 0, 0⟩,   -- FLW_STASH_HIT_CNT
  ⟨0x118, 4, 1, 2, true, 0, 0, 0, 0, 0, 0, 0⟩,   -- FLW_BUCKET1_HIT_CNT
  ⟨0x120, 4, 1, 2, true, 0, 0, 0, 0, 0, 0, 0⟩,   -- FLW_BUCKET2_HIT_CNT
  ⟨0x128, 4, 1, 2, true, 0, 0, 0, 0, 0, 0, 0⟩,   -- FLW_MISS_CNT
  ⟨0x130, 4, 1, 2, true, 0, 0, 0, 0, 0, 0, 0⟩,   -- FLW_RETRY_CNT
  ⟨0x138, 4, 1, 2, true, 0, 0, 0, 0, 0, 0, 0⟩,   -- FLW_RETRY_FOUND_CNT
  ⟨0x140, 4, 1, 2, true, 0, 0, 0, 0, 0, 0, 0⟩,   -- FLW_ATTACH_CNT
  ⟨0x148, 4, 1, 2, true, 0, 0, 0, 0, 0, 0, 0⟩,   -- FLW_CLAIM_OK_CNT
  ⟨0x150, 4, 1, 2, true, 0, 0, 0, 0, 0, 0, 0⟩,   -- FLW_CLAIM_EXISTS_CNT
  ⟨0x158, 4, 1, 2, true, 0, 0, 0, 0, 0, 0, 0⟩,   -- FLW_CLAIM_FULL_CNT
  ⟨0x160, 4, 1, 2, true, 0, 0, 0, 0, 0, 0, 0⟩,   -- FLW_NOCREATE_CNT
  ⟨0x168, 4, 1, 2, true, 0, 0, 0, 0, 0, 0, 0⟩,   -- FLW_WRITEBACK_CNT
  ⟨0x170, 4, 1, 2, true, 0, 0, 0, 0, 0, 0, 0⟩,   -- FLW_RELOC_CNT
  ⟨0x178, 4, 1, 2, true, 0, 0, 0, 0, 0, 0, 0⟩,   -- FLW_STASH_IN_CNT
  ⟨0x180, 4, 1, 2, true, 0, 0, 0, 0, 0, 0, 0⟩,   -- FLW_AGED_CNT
  ⟨0x188, 4, 1, 2, true, 0, 0, 0, 0, 0, 0, 0⟩,   -- FLW_EVICT_CNT
  ⟨0x190, 4, 1, 2, true, 0, 0, 0, 0, 0, 0, 0⟩,   -- FLW_TEARDOWN_CNT
  ⟨0x198, 4, 1, 2, true, 0, 0, 0, 0, 0, 0, 0⟩,   -- FLW_LOST_CNT
  ⟨0x1a0, 4, 1, 2, true, 0, 0, 0, 0, 0, 0, 0⟩ ]   -- FLW_CLAIM_ERR_CNT

/-- The registers of a ACT page. -/
def rowsACT : List RegRow := [
  ⟨0x40, 4, 1, 1, false, 0, 0xff, 0, 0, 0, 0, 0⟩,   -- ACT_CFG
  ⟨0x44, 4, 1, 1, false, 0, 0x7fff, 0, 0, 0, 0, 0⟩,   -- ACT_EXC_COPY
  ⟨0x48, 4, 1, 1, false, 0x401000, 0, 0, 0, 0, 0, 0⟩,   -- ACT_STAT
  ⟨0x80, 4, 1, 2, true, 0, 0, 0, 0, 0, 0, 0⟩,   -- ACT_FWD_CNT
  ⟨0x88, 4, 1, 2, true, 0, 0, 0, 0, 0, 0, 0⟩,   -- ACT_ADMIT_REFUSED_CNT
  ⟨0x90, 4, 1, 2, true, 0, 0, 0, 0, 0, 0, 0⟩,   -- ACT_HOST_CNT
  ⟨0x98, 4, 1, 2, true, 0, 0, 0, 0, 0, 0, 0⟩,   -- ACT_MIRROR_CNT
  ⟨0xa0, 4, 1, 2, true, 0, 0, 0, 0, 0, 0, 0⟩,   -- ACT_RECIRC_CNT
  ⟨0xa8, 4, 1, 2, true, 0, 0, 0, 0, 0, 0, 0⟩,   -- ACT_POLICED_CNT
  ⟨0xb0, 4, 1, 2, true, 0, 0, 0, 0, 0, 0, 0⟩,   -- ACT_EDIT_SKIP_CNT
  ⟨0xb8, 4, 1, 2, true, 0, 0, 0, 0, 0, 0, 0⟩,   -- ACT_REPIN_CNT
  ⟨0xc0, 4, 1, 2, true, 0, 0, 0, 0, 0, 0, 0⟩,   -- ACT_REPIN_BLOCKED_CNT
  ⟨0xc8, 4, 1, 2, true, 0, 0, 0, 0, 0, 0, 0⟩,   -- ACT_PTP_SKIP_CNT
  ⟨0xd0, 4, 1, 2, true, 0, 0, 0, 0, 0, 0, 0⟩,   -- ACT_TCP_INVALID_CNT
  ⟨0xd8, 4, 1, 2, true, 0, 0, 0, 0, 0, 0, 0⟩,   -- ACT_SEALED_CNT
  ⟨0x100, 8, 32, 2, true, 0, 0, 0, 0, 0, 0, 0⟩ ]   -- ACT_REASON_CNTr

/-- The registers of a PIP page. -/
def rowsPIP : List RegRow := [
  ⟨0x40, 4, 1, 1, false, 0, 0x1, 0, 0, 0, 0, 0⟩,   -- PIP_CTL
  ⟨0x44, 4, 1, 1, false, 0, 0, 0, 0, 0, 0, 0⟩,   -- PIP_STAT
  ⟨0x48, 4, 1, 1, false, 0, 0, 0, 0, 0, 0, 0⟩,   -- PIP_IMAGE
  ⟨0x4c, 4, 1, 1, false, 0, 0x3fff, 0, 0, 0, 0, 0⟩,   -- PIP_LOAD_LEN
  ⟨0x50, 4, 1, 2, false, 0, 0xffffffffffffffff, 0, 0, 0, 0, 0⟩,   -- PIP_LOAD_ADDR
  ⟨0x58, 4, 1, 1, false, 0, 0, 0, 0, 0, 0x1, 0⟩,   -- PIP_LOAD_CTL
  ⟨0x5c, 4, 1, 1, false, 0, 0, 0, 0, 0, 0, 0⟩,   -- PIP_LOAD_STAT
  ⟨0x60, 4, 1, 1, false, 0, 0, 0, 0x80000000, 0, 0, 0⟩,   -- PIP_FAULT_CAP
  ⟨0x64, 4, 1, 1, false, 0, 0, 0, 0, 0, 0, 0⟩,   -- PIP_CKPT_MAX
  ⟨0x100, 4, 32, 1, false, 0, 0, 0, 0, 0, 0, 0⟩,   -- PIP_MATCHn
  ⟨0x180, 4, 1, 2, true, 0, 0, 0, 0, 0, 0, 0⟩,   -- PIP_ROUTINE_CNT
  ⟨0x188, 4, 1, 2, true, 0, 0, 0, 0, 0, 0, 0⟩,   -- PIP_COMMIT_CNT
  ⟨0x190, 4, 1, 2, true, 0, 0, 0, 0, 0, 0, 0⟩,   -- PIP_RESTART_CNT
  ⟨0x198, 4, 1, 2, true, 0, 0, 0, 0, 0, 0, 0⟩,   -- PIP_DEFER_CNT
  ⟨0x1a0, 4, 1, 2, true, 0, 0, 0, 0, 0, 0, 0⟩,   -- PIP_FAULT_CNT
  ⟨0x1a8, 4, 1, 2, true, 0, 0, 0, 0, 0, 0, 0⟩,   -- PIP_DEADLINE_CNT
  ⟨0x1b0, 4, 1, 2, true, 0, 0, 0, 0, 0, 0, 0⟩,   -- PIP_STOP_DROP_CNT
  ⟨0x1b8, 4, 1, 2, true, 0, 0, 0, 0, 0, 0, 0⟩,   -- PIP_EVT_DROP_CNT
  ⟨0x1c0, 4, 1, 2, true, 0, 0, 0, 0, 0, 0, 0⟩,   -- PIP_NANO_FIX_CNT
  ⟨0x1c8, 4, 1, 2, true, 0, 0, 0, 0, 0, 0, 0⟩ ]   -- PIP_STEP_CNT

/-- The registers of a FMC0 page. -/
def rowsFMC0 : List RegRow := [
  ⟨0x40, 4, 1, 1, false, 0xff0000, 0, 0, 0, 0, 0, 0⟩,   -- FMC_STK_STAT
  ⟨0x44, 4, 1, 1, false, 0, 0, 0, 0, 0, 0, 0⟩,   -- FMC_PC_FROZEN
  ⟨0x48, 4, 1, 1, false, 0, 0, 0, 0, 0, 0, 0⟩,   -- FMC_PC_DEGR
  ⟨0x4c, 4, 1, 1, false, 0x80000064, 0x8000ffff, 0, 0, 0, 0, 0⟩,   -- FMC_TRAIN_CFG
  ⟨0x50, 4, 1, 1, false, 0, 0, 0, 0, 0, 0xfe07ffff, 0⟩,   -- FMC_RETIRE_CTL
  ⟨0x54, 4, 1, 1, false, 0, 0, 0, 0, 0, 0, 0⟩,   -- FMC_RETIRE_STAT
  ⟨0x58, 4, 1, 1, false, 0, 0, 0, 0, 0, 0, 0⟩ ]   -- FMC_TRAIN_SKIP_CNT

/-- The registers of a FMCPC page. -/
def rowsFMCPC : List RegRow := [
  ⟨0x40, 64, 4, 1, false, 0, 0, 0, 0, 0, 0x3, 0⟩,   -- FMC_PC_CTL
  ⟨0x44, 64, 4, 1, false, 0, 0, 0, 0, 0, 0, 0⟩,   -- FMC_PC_STAT
  ⟨0x48, 64, 4, 1, false, 0, 0, 0, 0, 0, 0, 0⟩,   -- FMC_CE_CNT
  ⟨0x4c, 64, 4, 1, false, 0, 0, 0, 0, 0, 0, 0⟩,   -- FMC_UE_CNT
  ⟨0x50, 64, 4, 1, false, 0, 0, 0, 0, 0, 0, 0⟩,   -- FMC_CMD_ERR_CNT
  ⟨0x54, 64, 4, 1, false, 0, 0, 0, 0, 0, 0, 0⟩,   -- FMC_PC_ROWS
  ⟨0x58, 64, 4, 2, true, 0, 0, 0, 0, 0, 0, 0⟩,   -- FMC_RD_LINES
  ⟨0x60, 64, 4, 2, true, 0, 0, 0, 0, 0, 0, 0⟩,   -- FMC_WR_LINES
  ⟨0x68, 64, 4, 2, true, 0, 0, 0, 0, 0, 0, 0⟩,   -- FMC_ROW_HIT
  ⟨0x70, 64, 4, 2, true, 0, 0, 0, 0, 0, 0, 0⟩,   -- FMC_FWD_HIT
  ⟨0x78, 64, 4, 2, true, 0, 0, 0, 0, 0, 0, 0⟩ ]   -- FMC_DRAIN_WAIT

/-- The registers of a FMC9 page. -/
def rowsFMC9 : List RegRow := [
  ⟨0x40, 4, 1, 1, false, 0, 0, 0, 0x80000000, 0, 0, 0⟩,   -- FMC_CAP_STAT
  ⟨0x44, 4, 1, 1, false, 0, 0, 0, 0, 0, 0, 0⟩,   -- FMC_CAP_ADDR
  ⟨0x48, 4, 1, 1, false, 0, 0, 0, 0, 0, 0, 0⟩,   -- FMC_CAP_SYND
  ⟨0x4c, 4, 1, 1, false, 0, 0, 0, 0, 0, 0, 0⟩,   -- FMC_CAP_TIME
  ⟨0x80, 4, 18, 1, false, 0, 0, 0, 0, 0, 0, 0⟩,   -- FMC_CAP_RAWn
  ⟨0x100, 4, 1, 1, false, 0, 0, 0, 0, 0, 0xfe000000, 0⟩,   -- FMC_DIAG_CTL
  ⟨0x104, 4, 1, 1, false, 0, 0x1fffffff, 0, 0, 0, 0, 0⟩,   -- FMC_DIAG_ADDR
  ⟨0x108, 4, 1, 1, false, 0, 0, 0, 0, 0, 0, 0⟩,   -- FMC_DIAG_STAT
  ⟨0x140, 4, 18, 1, false, 0, 0xffffffff, 0, 0, 0, 0, 0⟩ ]   -- FMC_DIAG_DATAn

/-- The registers of a FMC10 page. -/
def rowsFMC10 : List RegRow := [
  ⟨0x40, 4, 1, 1, false, 0, 0, 0, 0, 0, 0, 0⟩,   -- FMC_DEG_STAT
  ⟨0x44, 4, 1, 1, false, 0x8, 0xff, 0, 0, 0, 0, 0⟩,   -- FMC_REBUILD_CFG
  ⟨0x48, 4, 1, 1, false, 0, 0, 0, 0, 0, 0, 0⟩,   -- FMC_REBUILD_STAT
  ⟨0x50, 4, 1, 2, true, 0, 0, 0, 0, 0, 0, 0⟩,   -- FMC_DEG_OVF_CNT
  ⟨0x58, 4, 1, 2, true, 0, 0, 0, 0, 0, 0, 0⟩,   -- FMC_REPAIR_CNT
  ⟨0x60, 4, 1, 1, false, 0, 0, 0, 0, 0, 0, 0⟩ ]   -- FMC_REBUILD_CNT

/-- The registers of a FMC11 page. -/
def rowsFMC11 : List RegRow := [
  ⟨0x40, 4, 1, 1, false, 0x190, 0xffff, 0, 0, 0, 0, 0⟩,   -- FMC_BG_RATE
  ⟨0x44, 4, 1, 1, false, 0x3e8, 0xffff, 0, 0, 0, 0, 0⟩,   -- FMC_BW_WINDOW
  ⟨0x48, 4, 1, 1, false, 0x80000e10, 0x800fffff, 0, 0, 0, 0, 0⟩,   -- FMC_SCRUB_CFG
  ⟨0x80, 16, 4, 2, false, 0, 0, 0, 0, 0, 0, 0⟩,   -- FMC_WIN_RDc
  ⟨0x88, 16, 4, 2, false, 0, 0, 0, 0, 0, 0, 0⟩,   -- FMC_WIN_WRc
  ⟨0xc0, 4, 1, 2, true, 0, 0, 0, 0, 0, 0, 0⟩,   -- FMC_BG_THROTTLE_CNT
  ⟨0xc8, 4, 1, 1, false, 0, 0, 0, 0, 0, 0, 0⟩ ]   -- FMC_SCRUB_PASS_CNT

/-- The registers of a TMB0 page. -/
def rowsTMB0 : List RegRow := [
  ⟨0x40, 4, 1, 1, false, 0x60000, 0, 0, 0, 0, 0, 0⟩,   -- TMB_POOL_STAT
  ⟨0x44, 4, 1, 1, false, 0, 0, 0, 0, 0, 0, 0⟩,   -- TMB_SHARED_STAT
  ⟨0x48, 4, 1, 1, false, 0x4000, 0, 0, 0, 0, 0, 0⟩,   -- TMB_RESERVED
  ⟨0x4c, 4, 1, 1, false, 0x60000, 0x7ffff, 0, 0, 0, 0, 0⟩,   -- TMB_FREE_LOW
  ⟨0x50, 4, 1, 1, false, 0x3, 0xf, 0, 0, 0, 0, 0⟩,   -- TMB_ELE_CFG
  ⟨0x54, 4, 1, 1, false, 0x8000, 0x7ffff, 0, 0, 0, 0, 0⟩,   -- TMB_LOW_THRESH
  ⟨0x80, 4, 16, 1, false, 0x80001000, 0x8007ffff, 0, 0, 0, 0, 0⟩,   -- TMB_HOSTQ_CFGh
  ⟨0xc0, 4, 16, 1, false, 0, 0, 0, 0, 0, 0, 0⟩,   -- TMB_HOSTQ_OCCh
  ⟨0x100, 4, 1, 2, true, 0, 0, 0, 0, 0, 0, 0⟩,   -- TMB_HOST_REFUSED_CNT
  ⟨0x108, 4, 1, 2, true, 0, 0, 0, 0, 0, 0, 0⟩,   -- TMB_ECC_STOMP_CNT
  ⟨0x110, 4, 1, 2, true, 0, 0, 0, 0, 0, 0, 0⟩,   -- TMB_POOL_EMPTY_CNT
  ⟨0x118, 4, 1, 2, true, 0, 0, 0, 0, 0, 0, 0⟩ ]   -- TMB_HOSTTX_REFUSED_CNT

/-- The registers of a TMBP page. -/
def rowsTMBP : List RegRow := [
  ⟨0x40, 16, 8, 1, false, 0x85000010, 0xff00ffff, 0, 0, 0, 0, 0⟩,   -- TMB_Q_CFG
  ⟨0x44, 16, 8, 1, false, 0x10000, 0x7ffff, 0, 0, 0, 0, 0⟩,   -- TMB_Q_MAX
  ⟨0x48, 16, 8, 1, false, 0, 0, 0, 0, 0, 0, 0⟩,   -- TMB_Q_OCC
  ⟨0x4c, 16, 8, 1, false, 0, 0x7ffff, 0, 0, 0, 0, 0⟩,   -- TMB_Q_HIGH
  ⟨0xc0, 4, 1, 1, false, 0, 0x1, 0, 0, 0, 0, 0⟩,   -- TMB_PORT_CFG
  ⟨0xc4, 4, 1, 1, false, 0, 0, 0, 0, 0, 0xff, 0⟩,   -- TMB_Q_FLUSH
  ⟨0xc8, 4, 1, 1, false, 0, 0, 0, 0, 0, 0, 0⟩,   -- TMB_PORT_OCC
  ⟨0x100, 32, 8, 2, true, 0, 0, 0, 0, 0, 0, 0⟩,   -- TMB_Q_ADMIT_PKTSq
  ⟨0x108, 32, 8, 2, true, 0, 0, 0, 0, 0, 0, 0⟩,   -- TMB_Q_ADMIT_BYTESq
  ⟨0x110, 32, 8, 2, true, 0, 0, 0, 0, 0, 0, 0⟩,   -- TMB_Q_DROP_PKTSq
  ⟨0x118, 32, 8, 2, true, 0, 0, 0, 0, 0, 0, 0⟩,   -- TMB_Q_DROP_BYTESq
  ⟨0x200, 4, 1, 2, true, 0, 0, 0, 0, 0, 0, 0⟩,   -- TMB_ABSENT_CNT
  ⟨0x208, 4, 1, 2, true, 0, 0, 0, 0, 0, 0, 0⟩,   -- TMB_LINKDOWN_REFUSED_CNT
  ⟨0x210, 4, 1, 2, true, 0, 0, 0, 0, 0, 0, 0⟩,   -- TMB_LINKDOWN_FLUSH_CNT
  ⟨0x218, 4, 1, 2, true, 0, 0, 0, 0, 0, 0, 0⟩,   -- TMB_CEASED_CNT
  ⟨0x220, 4, 1, 2, true, 0, 0, 0, 0, 0, 0, 0⟩,   -- TMB_WD_DISCARD_CNT
  ⟨0x228, 4, 1, 2, true, 0, 0, 0, 0, 0, 0, 0⟩,   -- TMB_SWFLUSH_CNT
  ⟨0x230, 4, 1, 2, true, 0, 0, 0, 0, 0, 0, 0⟩ ]   -- TMB_TX_ABORT_CNT

/-- The registers of a SCH0 page. -/
def rowsSCH0 : List RegRow := [
  ⟨0x40, 4, 16, 1, false, 0x18, 0xff, 0, 0, 0, 0, 0⟩ ]   -- SCH_HOSTQ_QUANTUMh

/-- The registers of a SCHP page. -/
def rowsSCHP : List RegRow := [
  ⟨0x40, 4, 8, 1, false, 0x18, 0x800000ff, 0, 0, 0, 0, 0⟩,   -- SCH_Q_CFGq
  ⟨0x60, 4, 8, 1, false, 0, 0, 0, 0, 0, 0, 0⟩,   -- SCH_Q_DEFICITq
  ⟨0x80, 4, 1, 1, false, 0, 0, 0, 0, 0, 0, 0⟩,   -- SCH_PORT_STAT
  ⟨0x100, 16, 8, 2, true, 0, 0, 0, 0, 0, 0, 0⟩,   -- SCH_Q_TX_PKTSq
  ⟨0x108, 16, 8, 2, true, 0, 0, 0, 0, 0, 0, 0⟩ ]   -- SCH_Q_TX_BYTESq

/-- The registers of a SHP0 page. -/
def rowsSHP0 : List RegRow := [
  ⟨0x40, 4, 1, 1, false, 0, 0x80000fff, 0, 0, 0, 0, 0⟩,   -- SHP_POL_SEL
  ⟨0x44, 4, 1, 1, false, 0, 0, 0x80ffffff, 0, 0, 0, 0⟩,   -- SHP_POL_CFG
  ⟨0x48, 4, 1, 1, false, 0, 0, 0xffffff, 0, 0, 0, 0⟩,   -- SHP_POL_BURST
  ⟨0x4c, 4, 1, 1, false, 0, 0, 0x3ff, 0, 0, 0, 0⟩,   -- SHP_POL_ACCT
  ⟨0x50, 4, 1, 1, false, 0, 0, 0, 0, 0, 0, 0⟩,   -- SHP_POL_TOKENS
  ⟨0x58, 4, 1, 2, true, 0, 0, 0, 0, 0, 0, 0⟩,   -- SHP_POL_CONF_PKTS
  ⟨0x60, 4, 1, 2, true, 0, 0, 0, 0, 0, 0, 0⟩,   -- SHP_POL_CONF_BYTES
  ⟨0x68, 4, 1, 2, true, 0, 0, 0, 0, 0, 0, 0⟩,   -- SHP_POL_EXC_PKTS
  ⟨0x70, 4, 1, 2, true, 0, 0, 0, 0, 0, 0, 0⟩,   -- SHP_POL_EXC_BYTES
  ⟨0x80, 4, 1, 2, true, 0, 0, 0, 0, 0, 0, 0⟩ ]   -- SHP_EXCESS_TOTAL

/-- The registers of a SHPP page. -/
def rowsSHPP : List RegRow := [
  ⟨0x40, 16, 8, 1, false, 0, 0, 0xffffff, 0, 0, 0, 0⟩,   -- SHP_Q_CIR
  ⟨0x44, 16, 8, 1, false, 0, 0, 0xffffff, 0, 0, 0, 0⟩,   -- SHP_Q_CBS
  ⟨0x48, 16, 8, 1, false, 0, 0, 0xffffff, 0, 0, 0, 0⟩,   -- SHP_Q_PIR
  ⟨0x4c, 16, 8, 1, false, 0, 0, 0xffffff, 0, 0, 0, 0⟩,   -- SHP_Q_PBS
  ⟨0xc0, 4, 1, 1, false, 0, 0, 0xffffff, 0, 0, 0, 0⟩,   -- SHP_PORT_CIR
  ⟨0xc4, 4, 1, 1, false, 0, 0, 0xffffff, 0, 0, 0, 0⟩,   -- SHP_PORT_CBS
  ⟨0xc8, 4, 1, 1, false, 0, 0, 0xffffff, 0, 0, 0, 0⟩,   -- SHP_PORT_PIR
  ⟨0xcc, 4, 1, 1, false, 0, 0, 0xffffff, 0, 0, 0, 0⟩,   -- SHP_PORT_PBS
  ⟨0x100, 8, 8, 1, false, 0, 0, 0, 0, 0, 0, 0⟩,   -- SHP_Q_CTOKq
  ⟨0x104, 8, 8, 1, false, 0, 0, 0, 0, 0, 0, 0⟩,   -- SHP_Q_PTOKq
  ⟨0x140, 4, 1, 1, false, 0, 0, 0, 0, 0, 0, 0⟩,   -- SHP_PORT_CTOK
  ⟨0x144, 4, 1, 1, false, 0, 0, 0, 0, 0, 0, 0⟩,   -- SHP_PORT_PTOK
  ⟨0x148, 4, 1, 1, false, 0x1ff, 0, 0, 0, 0, 0, 0⟩ ]   -- SHP_PORT_STAT

/-- The registers of a TGT0 page. -/
def rowsTGT0 : List RegRow := [
  ⟨0x40, 4, 4, 1, false, 0, 0, 0, 0, 0, 0, 0⟩,   -- TGT_ACTIVEi
  ⟨0x50, 4, 1, 2, true, 0, 0, 0, 0, 0, 0, 0⟩ ]   -- TGT_OVERSIZE_TOTAL

/-- The registers of a TGTP page. -/
def rowsTGTP : List RegRow := [
  ⟨0x40, 4, 1, 1, false, 0, 0, 0x800001ff, 0, 0, 0, 0⟩,   -- TGT_ADMIN_CFG
  ⟨0x44, 4, 1, 1, false, 0, 0, 0x3fffffff, 0, 0, 0, 0⟩,   -- TGT_ADMIN_CYCLE
  ⟨0x48, 4, 1, 1, false, 0, 0, 0x3fffffff, 0, 0, 0, 0⟩,   -- TGT_ADMIN_BASE_NS
  ⟨0x4c, 4, 1, 1, false, 0, 0, 0xffffffff, 0, 0, 0, 0⟩,   -- TGT_ADMIN_BASE_SEC_LO
  ⟨0x50, 4, 1, 1, false, 0, 0, 0xffff, 0, 0, 0, 0⟩,   -- TGT_ADMIN_BASE_SEC_HI
  ⟨0x60, 4, 1, 1, false, 0, 0, 0, 0, 0, 0, 0⟩,   -- TGT_OPER_CFG
  ⟨0x64, 4, 1, 1, false, 0, 0, 0, 0, 0, 0, 0⟩,   -- TGT_OPER_CYCLE
  ⟨0x68, 4, 1, 1, false, 0, 0, 0, 0, 0, 0, 0⟩,   -- TGT_OPER_BASE_NS
  ⟨0x6c, 4, 1, 1, false, 0, 0, 0, 0, 0, 0, 0⟩,   -- TGT_OPER_BASE_SEC_LO
  ⟨0x70, 4, 1, 1, false, 0, 0, 0, 0, 0, 0, 0⟩,   -- TGT_OPER_BASE_SEC_HI
  ⟨0x74, 4, 1, 1, false, 0, 0, 0, 0, 0, 0, 0⟩,   -- TGT_START_NS
  ⟨0x78, 4, 1, 1, false, 0, 0, 0, 0, 0, 0, 0⟩,   -- TGT_START_SEC_LO
  ⟨0x7c, 4, 1, 1, false, 0, 0, 0, 0, 0, 0, 0⟩,   -- TGT_START_SEC_HI
  ⟨0x80, 4, 8, 1, false, 0xffffffff, 0, 0, 0, 0, 0, 0⟩,   -- TGT_MAXWINq
  ⟨0xa0, 4, 1, 1, false, 0xff, 0, 0, 0xe00, 0, 0, 0⟩,   -- TGT_STAT
  ⟨0xc0, 8, 8, 2, true, 0, 0, 0, 0, 0, 0, 0⟩,   -- TGT_OVERSIZE_CNTq
  ⟨0x100, 4, 1, 1, false, 0, 0, 0, 0, 0, 0, 0⟩,   -- TGT_SUPERSEDED_CNT
  ⟨0x800, 8, 256, 1, false, 0, 0, 0xff, 0, 0, 0, 0⟩,   -- TGT_LIST_GATESe
  ⟨0x804, 8, 256, 1, false, 0, 0, 0x3fffffff, 0, 0, 0, 0⟩ ]   -- TGT_LIST_INTe

/-- The registers of a TEL page. -/
def rowsTEL : List RegRow := [
  ⟨0x40, 4, 1, 1, false, 0xffff, 0xc000ffff, 0, 0, 0, 0, 0⟩,   -- TEL_EXPORT_CFG
  ⟨0x44, 4, 1, 1, false, 0, 0xffffffff, 0, 0, 0, 0, 0⟩,   -- TEL_EXPORT_DOMAIN
  ⟨0x48, 4, 1, 1, false, 0x3e80578, 0xffff1fff, 0, 0, 0, 0, 0⟩,   -- TEL_EXPORT_MSG
  ⟨0x4c, 4, 1, 1, false, 0x258, 0xffff, 0, 0, 0, 0x80000000, 0⟩,   -- TEL_EXPORT_TMPL
  ⟨0x50, 4, 1, 1, false, 0, 0, 0, 0, 0, 0, 0⟩,   -- TEL_EXPORT_SEQ
  ⟨0x54, 4, 1, 1, false, 0, 0, 0, 0, 0, 0, 0⟩,   -- TEL_START_Q
  ⟨0x58, 4, 1, 1, false, 0x400, 0x80ffffff, 0, 0, 0, 0, 0⟩,   -- TEL_SAMPLE_CFG
  ⟨0x5c, 4, 1, 1, false, 0xffff0400, 0xffffffff, 0, 0, 0, 0, 0⟩,   -- TEL_SAMPLE_LIM
  ⟨0x60, 4, 1, 1, false, 0x14, 0x8000001f, 0, 0, 0, 0, 0⟩,   -- TEL_TAG_CFG
  ⟨0x64, 4, 1, 1, false, 0, 0, 0, 0, 0, 0, 0⟩,   -- TEL_TAG_STAT
  ⟨0x68, 4, 1, 1, false, 0x3e8, 0x800fffff, 0, 0, 0, 0, 0⟩,   -- TEL_SNAP_CFG
  ⟨0x6c, 4, 1, 1, false, 0, 0, 0, 0, 0, 0x1, 0⟩,   -- TEL_SNAP_CTL
  ⟨0x70, 4, 4, 1, false, 0xffffffff, 0xffffffff, 0, 0, 0, 0, 0⟩,   -- TEL_SNAP_PORTSi
  ⟨0x80, 4, 1, 1, false, 0, 0x7, 0, 0, 0, 0, 0⟩,   -- TEL_SUSPEND
  ⟨0xa0, 4, 1, 1, false, 0x10, 0x1f, 0, 0, 0, 0, 0⟩,   -- TEL_POL_EN
  ⟨0xa4, 4, 1, 1, false, 0x1400100, 0xfff007ff, 0, 0, 0, 0, 0⟩,   -- TEL_ELE_CFG
  ⟨0xa8, 4, 1, 1, false, 0x100000, 0xffffffff, 0, 0, 0, 0, 0⟩,   -- TEL_ELE_BYTES
  ⟨0xac, 4, 1, 1, false, 0x10040000, 0xfffff000, 0, 0, 0, 0, 0⟩,   -- TEL_LB_CFG
  ⟨0xb0, 4, 1, 1, false, 0x10000, 0x3fffff, 0, 0, 0, 0, 0⟩,   -- TEL_LB_CONG
  ⟨0xb4, 4, 1, 1, false, 0x100, 0xffff, 0, 0, 0, 0, 0⟩,   -- TEL_LB_EPOCH_MAX
  ⟨0xb8, 4, 1, 1, false, 0xe08, 0x1f1f, 0, 0, 0, 0, 0⟩,   -- TEL_AGE_TUNE
  ⟨0xbc, 4, 1, 1, false, 0x8000ffff, 0xffffffff, 0, 0, 0, 0, 0⟩,   -- TEL_EVICT_CFG
  ⟨0xc0, 4, 1, 1, false, 0x3ba, 0xffffff, 0, 0, 0, 0, 0⟩,   -- TEL_EVICT_IDLE
  ⟨0xc4, 4, 1, 1, false, 0x3e8e050, 0xffffe1ff, 0, 0, 0, 0, 0⟩,   -- TEL_POWER_CFG
  ⟨0xc8, 4, 1, 1, false, 0, 0, 0, 0, 0, 0, 0⟩,   -- TEL_ELE_COUNT
  ⟨0xcc, 4, 1, 1, false, 0, 0, 0, 0, 0, 0, 0⟩,   -- TEL_EVICT_CURSOR
  ⟨0x100, 4, 1, 2, true, 0, 0, 0, 0, 0, 0, 0⟩,   -- TEL_SAMPLE_CNT
  ⟨0x108, 4, 1, 2, true, 0, 0, 0, 0, 0, 0, 0⟩,   -- TEL_SAMPLE_LIMITED_CNT
  ⟨0x110, 4, 1, 2, true, 0, 0, 0, 0, 0, 0, 0⟩,   -- TEL_TAG_CNT
  ⟨0x118, 4, 1, 2, true, 0, 0, 0, 0, 0, 0, 0⟩,   -- TEL_TAG_NOENTRY_CNT
  ⟨0x120, 4, 1, 2, true, 0, 0, 0, 0, 0, 0, 0⟩,   -- TEL_ELE_EVT_CNT
  ⟨0x128, 4, 1, 2, true, 0, 0, 0, 0, 0, 0, 0⟩,   -- TEL_LB_EVT_CNT
  ⟨0x130, 4, 1, 2, true, 0, 0, 0, 0, 0, 0, 0⟩,   -- TEL_START_REC_CNT
  ⟨0x138, 4, 1, 2, true, 0, 0, 0, 0, 0, 0, 0⟩,   -- TEL_END_REC_CNT
  ⟨0x140, 4, 1, 2, true, 0, 0, 0, 0, 0, 0, 0⟩,   -- TEL_START_SKIP_CNT
  ⟨0x148, 4, 1, 2, true, 0, 0, 0, 0, 0, 0, 0⟩,   -- TEL_START_DROP_CNT
  ⟨0x150, 4, 1, 2, true, 0, 0, 0, 0, 0, 0, 0⟩,   -- TEL_MSG_CNT
  ⟨0x158, 4, 1, 2, true, 0, 0, 0, 0, 0, 0, 0⟩,   -- TEL_SNAP_SKIP_CNT
  ⟨0x160, 4, 1, 2, true, 0, 0, 0, 0, 0, 0, 0⟩ ]   -- TEL_JOURNAL_CNT

/-- The registers of a PMCG page. -/
def rowsPMCG : List RegRow := [
  ⟨0x40, 4, 1, 1, false, 0x3e8, 0xffff, 0, 0, 0, 0, 0⟩,   -- PMC_WIN_CFG
  ⟨0x44, 4, 1, 1, false, 0, 0, 0, 0, 0, 0, 0⟩,   -- PMC_WIN_SEQ
  ⟨0x48, 4, 1, 1, false, 0, 0, 0, 0, 0, 0, 0⟩,   -- PMC_WIN_LEN_NS
  ⟨0x50, 4, 1, 2, true, 0, 0, 0, 0, 0, 0, 0⟩,   -- PMC_CYCLES
  ⟨0x58, 4, 1, 1, false, 0, 0x3ffffff, 0, 0, 0, 0, 0⟩,   -- PMC_OVF_ADDR
  ⟨0x5c, 4, 1, 1, false, 0, 0, 0, 0x1, 0, 0, 0⟩,   -- PMC_OVF_STAT
  ⟨0x60, 4, 1, 1, false, 0, 0, 0, 0x80000000, 0, 0, 0⟩,   -- PMC_OVF_FIRST
  ⟨0x64, 4, 1, 1, false, 0, 0, 0, 0, 0, 0, 0⟩,   -- PMC_OVF_CNT
  ⟨0x68, 4, 1, 1, false, 0, 0x3ffffff, 0, 0, 0, 0, 0⟩,   -- PMC_PRE_ADDR
  ⟨0x6c, 4, 1, 1, false, 0, 0, 0, 0, 0, 0x1, 0⟩,   -- PMC_PRE_CTL
  ⟨0x70, 4, 1, 2, false, 0, 0xffffffffffffffff, 0, 0, 0, 0, 0⟩,   -- PMC_PRE_DATA
  ⟨0x78, 4, 1, 1, false, 0, 0, 0, 0, 0, 0, 0⟩,   -- PMC_PRE_STAT
  ⟨0x7c, 4, 1, 1, false, 0, 0, 0, 0, 0, 0, 0⟩ ]   -- PMC_SNAP_MISS_CNT

/-- The registers of a PMCL page. -/
def rowsPMCL : List RegRow := [
  ⟨0x100, 4, 1, 2, true, 0, 0, 0, 0, 0, 0, 0⟩,   -- PMC_SLOT_RETIRED
  ⟨0x108, 4, 1, 2, true, 0, 0, 0, 0, 0, 0, 0⟩,   -- PMC_SLOT_WASTED
  ⟨0x110, 4, 1, 2, true, 0, 0, 0, 0, 0, 0, 0⟩,   -- PMC_SLOT_FRONT
  ⟨0x118, 4, 1, 2, true, 0, 0, 0, 0, 0, 0, 0⟩,   -- PMC_SLOT_BACK
  ⟨0x120, 4, 1, 2, true, 0, 0, 0, 0, 0, 0, 0⟩,   -- PMC_SLOT_CYCLES
  ⟨0x128, 4, 1, 1, false, 0, 0, 0, 0, 0, 0, 0⟩,   -- PMC_SLOT_INFLIGHT
  ⟨0x140, 4, 1, 2, true, 0, 0, 0, 0, 0, 0, 0⟩,   -- PMC_EVT_PARSE_FIRST
  ⟨0x148, 4, 1, 2, true, 0, 0, 0, 0, 0, 0, 0⟩,   -- PMC_EVT_PARSE_ALL
  ⟨0x150, 4, 1, 2, true, 0, 0, 0, 0, 0, 0, 0⟩,   -- PMC_EVT_PARSE_BYTES
  ⟨0x158, 4, 1, 2, true, 0, 0, 0, 0, 0, 0, 0⟩,   -- PMC_EVT_FLOW_DRAM
  ⟨0x160, 4, 1, 2, true, 0, 0, 0, 0, 0, 0, 0⟩,   -- PMC_EVT_FAB_RD
  ⟨0x168, 4, 1, 2, true, 0, 0, 0, 0, 0, 0, 0⟩,   -- PMC_EVT_FAB_WR
  ⟨0x170, 4, 1, 2, true, 0, 0, 0, 0, 0, 0, 0⟩,   -- PMC_EVT_CMD_PART
  ⟨0x178, 4, 1, 2, true, 0, 0, 0, 0, 0, 0, 0⟩,   -- PMC_EVT_FMC_RD
  ⟨0x180, 4, 1, 2, true, 0, 0, 0, 0, 0, 0, 0⟩,   -- PMC_EVT_FMC_FWD
  ⟨0x1c0, 4, 1, 1, false, 0, 0, 0, 0, 0, 0, 0⟩,   -- PMC_WIN_RETIRED
  ⟨0x1c4, 4, 1, 1, false, 0, 0, 0, 0, 0, 0, 0⟩,   -- PMC_WIN_WASTED
  ⟨0x1c8, 4, 1, 1, false, 0, 0, 0, 0, 0, 0, 0⟩,   -- PMC_WIN_FRONT
  ⟨0x1cc, 4, 1, 1, false, 0, 0, 0, 0, 0, 0, 0⟩,   -- PMC_WIN_BACK
  ⟨0x1d0, 4, 1, 1, false, 0, 0, 0, 0, 0, 0, 0⟩,   -- PMC_WIN_CYCLES
  ⟨0x1d4, 4, 1, 1, false, 0, 0, 0, 0, 0, 0, 0⟩,   -- PMC_WIN_INFLIGHT
  ⟨0x200, 16, 16, 1, false, 0x10000, 0xf0ffffff, 0, 0, 0, 0, 0⟩,   -- PMC_FLT_CFGf
  ⟨0x204, 16, 16, 1, false, 0x3fff0000, 0x3fff3fff, 0, 0, 0, 0, 0⟩,   -- PMC_FLT_RANGEf
  ⟨0x208, 16, 16, 2, true, 0, 0, 0, 0, 0, 0, 0⟩,   -- PMC_FLT_COUNTf
  ⟨0x400, 32, 16, 1, false, 0, 0, 0, 0, 0, 0, 0⟩,   -- PORT_RX_BYTES
  ⟨0x404, 32, 16, 1, false, 0, 0, 0, 0, 0, 0, 0⟩,   -- PORT_TX_BYTES
  ⟨0x408, 32, 16, 1, false, 0, 0, 0, 0, 0, 0, 0⟩,   -- PORT_RX_FRAMES
  ⟨0x40c, 32, 16, 1, false, 0, 0, 0, 0, 0, 0, 0⟩,   -- PORT_TX_FRAMES
  ⟨0x410, 32, 16, 1, false, 0, 0, 0, 0, 0, 0, 0⟩,   -- PORT_SLOTS_USED
  ⟨0x414, 32, 16, 1, false, 0, 0, 0, 0, 0, 0, 0⟩,   -- PORT_SLOTS_WASTED
  ⟨0x418, 32, 16, 1, false, 0, 0, 0, 0, 0, 0, 0⟩,   -- PORT_SLOTS_BACK
  ⟨0x41c, 32, 16, 1, false, 0, 0, 0, 0, 0, 0, 0⟩,   -- PORT_STG_DROP
  ⟨0x800, 96, 16, 2, true, 0, 0, 0, 0, 0, 0, 0⟩,   -- PMC_RX_FRAMES
  ⟨0x808, 96, 16, 2, true, 0, 0, 0, 0, 0, 0, 0⟩,   -- PMC_RX_BYTES
  ⟨0x810, 96, 16, 2, true, 0, 0, 0, 0, 0, 0, 0⟩,   -- PMC_RX_FCS_ERR
  ⟨0x818, 96, 16, 2, true, 0, 0, 0, 0, 0, 0, 0⟩,   -- PMC_RX_RUNT
  ⟨0x820, 96, 16, 2, true, 0, 0, 0, 0, 0, 0, 0⟩,   -- PMC_RX_OVERSIZE
  ⟨0x828, 96, 16, 2, true, 0, 0, 0, 0, 0, 0, 0⟩,   -- PMC_RX_LINK_ABORT
  ⟨0x830, 96, 16, 2, true, 0, 0, 0, 0, 0, 0, 0⟩,   -- PMC_RX_DISABLED
  ⟨0x838, 96, 16, 2, true, 0, 0, 0, 0, 0, 0, 0⟩,   -- PMC_RX_MACCTL
  ⟨0x840, 96, 16, 2, true, 0, 0, 0, 0, 0, 0, 0⟩,   -- PMC_RX_MACCTL_UNK
  ⟨0x848, 96, 16, 2, true, 0, 0, 0, 0, 0, 0, 0⟩,   -- PMC_RX_STG_DROP
  ⟨0x850, 96, 16, 2, true, 0, 0, 0, 0, 0, 0, 0⟩,   -- PMC_TX_FRAMES
  ⟨0x858, 96, 16, 2, true, 0, 0, 0, 0, 0, 0, 0⟩ ]   -- PMC_TX_BYTES

/-- The registers of a QNC page. -/
def rowsQNC : List RegRow := [
  ⟨0x40, 4, 1, 1, false, 0x1e, 0x1f, 0, 0, 0, 0, 0⟩,   -- QNC_CFG
  ⟨0x44, 4, 1, 1, false, 0xc8, 0xff, 0, 0, 0, 0, 0⟩,   -- QNC_SWEEP_CFG
  ⟨0x48, 4, 1, 1, false, 0, 0, 0, 0, 0, 0, 0⟩,   -- QNC_STAT
  ⟨0x4c, 4, 1, 1, false, 0, 0, 0, 0, 0, 0, 0⟩,   -- QNC_KEY_ID
  ⟨0x50, 4, 1, 2, false, 0, 0, 0, 0, 0, 0, 0⟩,   -- QNC_NEXT_SEQ
  ⟨0x58, 4, 1, 1, false, 0, 0, 0, 0, 0, 0, 0⟩,   -- QNC_CLOSE_NUM
  ⟨0x5c, 4, 1, 1, false, 0, 0, 0, 0, 0, 0, 0⟩,   -- QNC_BACKLOG
  ⟨0x60, 4, 1, 1, false, 0, 0, 0, 0, 0, 0, 0⟩,   -- QNC_SWEEP_PASS_US
  ⟨0x64, 4, 1, 1, false, 0, 0, 0, 0, 0, 0, 0⟩,   -- QNC_SWEEP_LAG_US
  ⟨0x68, 4, 1, 1, false, 0, 0, 0, 0, 0, 0, 0x1f⟩,   -- QNC_LOCKS
  ⟨0x6c, 4, 1, 1, false, 0, 0, 0, 0, 0, 0, 0⟩,   -- QNC_ASSIGN_GEN
  ⟨0x80, 4, 10, 1, false, 0, 0, 0, 0, 0, 0xffffffff, 0⟩,   -- QNC_KEY_WRAPn
  ⟨0xa8, 4, 1, 1, false, 0, 0, 0, 0, 0, 0xffffffff, 0⟩,   -- QNC_KEY_NEW_ID
  ⟨0xac, 4, 1, 1, false, 0, 0, 0, 0, 0, 0x1, 0⟩,   -- QNC_KEY_CTL
  ⟨0xb0, 4, 1, 1, false, 0, 0, 0, 0, 0, 0, 0⟩,   -- QNC_KEY_STAT
  ⟨0x100, 8, 8, 1, false, 0, 0xffff0000, 0, 0, 0, 0, 0⟩,   -- QNC_CLASSn
  ⟨0x104, 8, 8, 1, false, 0, 0x3fffff, 0, 0, 0, 0, 0⟩,   -- QNC_CLASSn word 1
  ⟨0x180, 4, 1, 2, true, 0, 0, 0, 0, 0, 0, 0⟩,   -- QNC_SWEPT_CNT
  ⟨0x188, 4, 1, 2, true, 0, 0, 0, 0, 0, 0, 0⟩,   -- QNC_ROLL_CNT
  ⟨0x190, 4, 1, 2, true, 0, 0, 0, 0, 0, 0, 0⟩,   -- QNC_FINAL_ROLL_CNT
  ⟨0x198, 4, 1, 2, true, 0, 0, 0, 0, 0, 0, 0⟩,   -- QNC_DISCARD_CNT
  ⟨0x1a0, 4, 1, 2, true, 0, 0, 0, 0, 0, 0, 0⟩,   -- QNC_BLOCK_CNT
  ⟨0x1a8, 4, 1, 2, true, 0, 0, 0, 0, 0, 0, 0⟩,   -- QNC_ENTRY_CNT
  ⟨0x1b0, 4, 1, 2, true, 0, 0, 0, 0, 0, 0, 0⟩,   -- QNC_LOST_REC_CNT
  ⟨0x1b8, 4, 1, 2, true, 0, 0, 0, 0, 0, 0, 0⟩,   -- QNC_LOST_ACCT_CNT
  ⟨0x1c0, 4, 1, 2, true, 0, 0, 0, 0, 0, 0, 0⟩,   -- QNC_DEFER_CNT
  ⟨0x1c8, 4, 1, 2, true, 0, 0, 0, 0, 0, 0, 0⟩,   -- QNC_PASS_CNT
  ⟨0x1d0, 4, 1, 2, true, 0, 0, 0, 0, 0, 0, 0⟩,   -- QNC_DIRECT_TX_CNT
  ⟨0x1d8, 4, 1, 2, true, 0, 0, 0, 0, 0, 0, 0⟩ ]   -- QNC_DIRECT_TX_BYTES

/-- The registers of a CPHC page. -/
def rowsCPHC : List RegRow := [
  ⟨0x40, 4, 1, 1, false, 0x7, 0x7, 0, 0, 0, 0, 0⟩,   -- CPH_CFG
  ⟨0x44, 4, 1, 1, false, 0, 0, 0, 0, 0, 0, 0⟩,   -- CPH_STAT
  ⟨0x50, 4, 4, 1, false, 0, 0, 0, 0, 0, 0, 0⟩,   -- CPH_BOOT_NONCEi
  ⟨0x60, 4, 1, 1, false, 0, 0, 0, 0x80000000, 0, 0, 0⟩,   -- CPH_VIOL_CAP
  ⟨0x80, 4, 1, 2, true, 0, 0, 0, 0, 0, 0, 0⟩,   -- CPH_VIOL_CNT
  ⟨0x88, 4, 1, 2, true, 0, 0, 0, 0, 0, 0, 0⟩,   -- CPH_BLOCK_CNT
  ⟨0x90, 4, 1, 2, true, 0, 0, 0, 0, 0, 0, 0⟩,   -- CPH_DUMMY_CNT
  ⟨0x98, 4, 1, 2, true, 0, 0, 0, 0, 0, 0, 0⟩,   -- CPH_QNC_BLOCK_CNT
  ⟨0xa0, 4, 1, 2, true, 0, 0, 0, 0, 0, 0, 0⟩,   -- CPH_AUTH_FAIL_CNT
  ⟨0xa8, 4, 1, 1, false, 0, 0, 0, 0, 0, 0, 0⟩,   -- CPH_RNG_FAIL_CNT
  ⟨0xac, 4, 1, 1, false, 0, 0, 0, 0, 0, 0, 0⟩,   -- CPH_DUMMY_CFG_CNT
  ⟨0x100, 4, 64, 1, false, 0, 0xff, 0, 0, 0, 0, 0x80000000⟩ ]   -- CPH_BINDn

/-- The registers of a CPHU page. -/
def rowsCPHU : List RegRow := [
  ⟨0x40, 4, 1, 1, false, 0, 0x3f, 0, 0, 0, 0, 0⟩,   -- CPH_KEY_CFG
  ⟨0x44, 4, 1, 1, false, 0, 0xffffffff, 0, 0, 0, 0, 0⟩,   -- CPH_KEY_LABEL
  ⟨0x48, 4, 1, 1, false, 0, 0xffffffff, 0, 0, 0, 0, 0⟩,   -- CPH_KEY_GEN
  ⟨0x4c, 4, 1, 1, false, 0, 0, 0, 0, 0, 0, 0⟩,   -- CPH_KEY_NEXT_GEN
  ⟨0x50, 4, 1, 2, false, 0, 0xffffffffffffffff, 0, 0, 0, 0, 0⟩,   -- CPH_KEY_INIT
  ⟨0x58, 4, 1, 2, false, 0xffffffffffffffff, 0xffffffffffffffff, 0, 0, 0, 0, 0⟩,   -- CPH_KEY_LIMIT
  ⟨0x60, 4, 1, 1, false, 0, 0, 0, 0, 0, 0x3, 0⟩,   -- CPH_KEY_CTL
  ⟨0x64, 4, 1, 1, false, 0, 0, 0, 0, 0, 0, 0⟩,   -- CPH_KEY_STAT
  ⟨0x80, 4, 10, 1, false, 0, 0, 0, 0, 0, 0xffffffff, 0⟩,   -- CPH_KEY_DATAn
  ⟨0xc0, 4, 1, 2, false, 0, 0, 0, 0, 0, 0, 0⟩,   -- CPH_CTR
  ⟨0xc8, 4, 1, 1, false, 0x1000, 0x1f1c, 0, 0, 0, 0, 0⟩,   -- CPH_JOB_CFG
  ⟨0xcc, 4, 1, 1, false, 0, 0x7, 0, 0, 0, 0, 0⟩,   -- CPH_JOB_OP
  ⟨0xd0, 4, 1, 1, false, 0, 0xffffffff, 0, 0, 0, 0, 0⟩,   -- CPH_JOB_AAD_LEN
  ⟨0xd4, 4, 1, 1, false, 0, 0xffffffff, 0, 0, 0, 0, 0⟩,   -- CPH_JOB_LEN
  ⟨0xd8, 4, 1, 2, false, 0, 0xffffffffffffffff, 0, 0, 0, 0, 0⟩,   -- CPH_JOB_SRC
  ⟨0xe0, 4, 1, 2, false, 0, 0xffffffffffffffff, 0, 0, 0, 0, 0⟩,   -- CPH_JOB_DST
  ⟨0xe8, 4, 3, 1, false, 0, 0xffffffff, 0, 0, 0, 0, 0⟩,   -- CPH_JOB_IVi
  ⟨0xf8, 4, 1, 1, false, 0, 0, 0, 0, 0, 0x3, 0⟩,   -- CPH_JOB_CTL
  ⟨0xfc, 4, 1, 1, false, 0, 0, 0, 0, 0, 0, 0⟩,   -- CPH_JOB_STAT
  ⟨0x100, 4, 4, 1, false, 0, 0xffffffff, 0, 0, 0, 0, 0⟩,   -- CPH_TAGi
  ⟨0x110, 4, 1, 2, false, 0, 0, 0, 0, 0, 0, 0⟩,   -- CPH_MSG_BLOCKS
  ⟨0x180, 4, 1, 2, true, 0, 0, 0, 0, 0, 0, 0⟩,   -- CPH_PG_BLOCK_CNT
  ⟨0x188, 4, 1, 2, true, 0, 0, 0, 0, 0, 0, 0⟩,   -- CPH_PG_AUTH_FAIL_CNT
  ⟨0x190, 4, 1, 2, true, 0, 0, 0, 0, 0, 0, 0⟩,   -- CPH_PG_ABANDON_CNT
  ⟨0x400, 4, 256, 1, false, 0, 0xffffffff, 0, 0, 0, 0, 0⟩ ]   -- CPH_WIN

/-- The registers of a MBXC page. -/
def rowsMBXC : List RegRow := [
  ⟨0x40, 4, 1, 1, false, 0, 0, 0, 0, 0, 0, 0x1⟩,   -- MBX_BIND_LOCK
  ⟨0x44, 4, 1, 1, false, 0, 0, 0, 0, 0, 0x1, 0⟩,   -- MBX_DECLARE
  ⟨0x48, 4, 1, 1, false, 0, 0, 0, 0, 0, 0, 0⟩,   -- MBX_GEN0
  ⟨0x4c, 4, 1, 1, false, 0, 0, 0, 0, 0, 0, 0⟩,   -- MBX_GEN1
  ⟨0x50, 4, 1, 1, false, 0, 0, 0, 0x80000000, 0, 0, 0⟩,   -- MBX_VIOL_CAP
  ⟨0x58, 4, 1, 2, true, 0, 0, 0, 0, 0, 0, 0⟩,   -- MBX_VIOL_CNT
  ⟨0x100, 4, 16, 1, false, 0, 0x8000ffff, 0, 0, 0, 0, 0⟩ ]   -- MBX_BINDc

/-- The registers of a MBXCH page. -/
def rowsMBXCH : List RegRow := [
  ⟨0x40, 4, 16, 1, false, 0, 0xffffffff, 0, 0, 0, 0, 0⟩,   -- MBX_MSGw
  ⟨0x80, 4, 1, 1, false, 0, 0, 0, 0, 0, 0x1f, 0⟩,   -- MBX_POST
  ⟨0x84, 4, 1, 1, false, 0, 0, 0, 0, 0, 0x1, 0⟩,   -- MBX_RX_CTL
  ⟨0x88, 4, 1, 1, false, 0, 0xffff, 0, 0, 0, 0, 0⟩,   -- MBX_ACK
  ⟨0x8c, 4, 1, 1, false, 0, 0, 0, 0, 0, 0, 0⟩,   -- MBX_STAT
  ⟨0x90, 4, 1, 1, false, 0, 0, 0, 0xffffffff, 0, 0, 0⟩,   -- MBX_DB
  ⟨0x94, 4, 1, 1, false, 0, 0, 0, 0, 0, 0xffffffff, 0⟩,   -- MBX_DB_SET
  ⟨0x98, 4, 1, 1, false, 0xffffffff, 0xffffffff, 0, 0, 0, 0, 0⟩,   -- MBX_DB_MASK
  ⟨0x9c, 4, 1, 1, false, 0, 0, 0, 0, 0, 0, 0⟩ ]   -- MBX_POST_CNT

/-- The registers of a CSC page. -/
def rowsCSC : List RegRow := [
  ⟨0x40, 4, 1, 1, false, 0x80000002, 0x80000007, 0, 0, 0, 0, 0⟩,   -- CSC_CFG
  ⟨0x44, 4, 1, 1, false, 0, 0, 0, 0, 0, 0, 0⟩,   -- CSC_STAT
  ⟨0x48, 4, 1, 1, false, 0x214, 0xffff, 0, 0, 0, 0, 0⟩,   -- CSC_COMMIT_CFG
  ⟨0x4c, 4, 1, 1, false, 0, 0, 0, 0, 0, 0, 0⟩,   -- CSC_COMMIT_STAT
  ⟨0x50, 4, 1, 1, false, 0, 0, 0, 0, 0, 0, 0⟩,   -- CSC_COMMIT_TGT
  ⟨0x54, 4, 1, 1, false, 0, 0, 0, 0, 0, 0, 0⟩,   -- CSC_TIME_OFFSET
  ⟨0x58, 4, 1, 1, false, 0x320000, 0xffff0000, 0, 0, 0, 0, 0⟩,   -- CSC_SKEW
  ⟨0x60, 4, 4, 1, false, 0, 0, 0, 0, 0, 0, 0⟩,   -- CSC_LINK_STATk
  ⟨0x70, 4, 4, 1, false, 0x80000000, 0x800000ff, 0, 0, 0, 0, 0⟩,   -- CSC_LINK_CFGk
  ⟨0x80, 8, 2, 1, false, 0x5000040, 0xf00ffff, 0, 0, 0, 0, 0⟩,   -- CSC_SQ_CFGc
  ⟨0x84, 8, 2, 1, false, 0x4000, 0x7ffff, 0, 0, 0, 0, 0⟩,   -- CSC_SQ_CFGc word 1
  ⟨0x90, 4, 1, 1, false, 0, 0, 0, 0, 0, 0x1, 0⟩,   -- CSC_MASTER_CTL
  ⟨0xa0, 4, 1, 1, false, 0, 0xc3ffffff, 0, 0, 0, 0, 0⟩,   -- CSC_RMT_ADDR
  ⟨0xa4, 4, 1, 1, false, 0, 0xffffffff, 0, 0, 0, 0, 0⟩,   -- CSC_RMT_DATA
  ⟨0xa8, 4, 1, 1, false, 0, 0, 0, 0, 0, 0x3, 0⟩,   -- CSC_RMT_CTL
  ⟨0xac, 4, 1, 1, false, 0, 0, 0, 0, 0, 0, 0⟩,   -- CSC_RMT_STAT
  ⟨0x100, 4, 1, 2, true, 0, 0, 0, 0, 0, 0, 0⟩,   -- CSC_STEER_CNT
  ⟨0x108, 4, 1, 2, true, 0, 0, 0, 0, 0, 0, 0⟩,   -- CSC_FALLBACK_CNT
  ⟨0x110, 4, 1, 2, true, 0, 0, 0, 0, 0, 0, 0⟩,   -- CSC_STEER_REFUSED_CNT
  ⟨0x118, 4, 1, 2, true, 0, 0, 0, 0, 0, 0, 0⟩,   -- CSC_NOPATH_CNT
  ⟨0x120, 4, 1, 1, false, 0, 0, 0, 0, 0, 0, 0⟩,   -- CSC_RMT_DENIED_CNT
  ⟨0x124, 4, 1, 1, false, 0, 0, 0, 0, 0, 0, 0⟩,   -- CSC_TAKEOVER_CNT
  ⟨0x200, 32, 4, 2, true, 0, 0, 0, 0, 0, 0, 0⟩,   -- CSC_TX_FRAMESk
  ⟨0x208, 32, 4, 2, true, 0, 0, 0, 0, 0, 0, 0⟩,   -- CSC_TX_BYTESk
  ⟨0x210, 32, 4, 2, true, 0, 0, 0, 0, 0, 0, 0⟩,   -- CSC_RX_FRAMESk
  ⟨0x218, 32, 4, 2, true, 0, 0, 0, 0, 0, 0, 0⟩,   -- CSC_RX_CRC_ERRk
  ⟨0x400, 4, 128, 1, false, 0, 0xb00000ff, 0, 0, 0, 0, 0⟩ ]   -- CSC_PORT_MAPv

/-- The registers of a RAS page. -/
def rowsRAS : List RegRow := [
  ⟨0x40, 4, 1, 1, false, 0, 0, 0, 0x2, 0, 0, 0⟩,   -- RAS_STAT
  ⟨0x44, 4, 1, 1, false, 0x569, 0xffff, 0, 0, 0, 0, 0⟩,   -- RAS_THERM_CFG
  ⟨0x48, 4, 1, 1, false, 0x3e8, 0xffff, 0, 0, 0, 0, 0⟩,   -- RAS_CE_CFG
  ⟨0x4c, 4, 1, 1, false, 0x800003e8, 0x8000ffff, 0, 0, 0, 0, 0⟩,   -- RAS_SCRUB_CFG
  ⟨0x50, 4, 1, 1, false, 0, 0, 0, 0, 0, 0, 0⟩,   -- RAS_LOG_STAT
  ⟨0x54, 4, 1, 1, false, 0, 0x3fff, 0, 0, 0, 0, 0⟩,   -- RAS_LOG_SEL
  ⟨0x58, 4, 1, 2, false, 0, 0, 0, 0, 0, 0, 0⟩,   -- RAS_SEQ
  ⟨0x60, 4, 1, 1, false, 0, 0, 0x1, 0, 0, 0, 0⟩,   -- RAS_FW_SEL
  ⟨0x64, 4, 1, 1, false, 0, 0, 0, 0, 0, 0, 0⟩,   -- RAS_FW_STAT
  ⟨0x68, 4, 1, 2, false, 0, 0xffffffffffffffff, 0, 0, 0, 0, 0⟩,   -- RAS_FW_ADDR
  ⟨0x70, 4, 1, 1, false, 0, 0x7fffff, 0, 0, 0, 0, 0⟩,   -- RAS_FW_LEN
  ⟨0x74, 4, 1, 1, false, 0, 0, 0, 0, 0, 0x3, 0⟩,   -- RAS_FW_CTL
  ⟨0x78, 4, 1, 1, false, 0x1f4, 0xffff, 0, 0, 0, 0x80000000, 0⟩,   -- RAS_FW_WDOG
  ⟨0x7c, 4, 1, 1, false, 0x7d0, 0xffff, 0, 0, 0, 0x80000000, 0⟩,   -- RAS_MC_WDOG
  ⟨0x80, 4, 16, 1, false, 0, 0, 0, 0, 0, 0, 0⟩,   -- RAS_LOG_DATAn
  ⟨0x100, 4, 1, 2, true, 0, 0, 0, 0, 0, 0, 0⟩,   -- RAS_CE_CNT
  ⟨0x108, 4, 1, 2, true, 0, 0, 0, 0, 0, 0, 0⟩,   -- RAS_DEGRADED_CNT
  ⟨0x110, 4, 1, 2, true, 0, 0, 0, 0, 0, 0, 0⟩,   -- RAS_LOST_CNT
  ⟨0x118, 4, 1, 2, true, 0, 0, 0, 0, 0, 0, 0⟩,   -- RAS_SUPPRESSED_CNT
  ⟨0x120, 4, 1, 2, true, 0, 0, 0, 0, 0, 0, 0⟩,   -- RAS_LOG_SKIP_CNT
  ⟨0x128, 4, 1, 2, true, 0, 0, 0, 0, 0, 0, 0⟩,   -- RAS_STG_UE_CNT
  ⟨0x130, 4, 1, 1, false, 0, 0, 0, 0, 0, 0, 0⟩,   -- RAS_MC_RESTART_CNT
  ⟨0x134, 4, 1, 1, false, 0, 0, 0, 0, 0, 0, 0⟩ ]   -- RAS_HANDOVER_CNT

end Sys2Proof.Machine
end

