-- ==== Sys2Proof/Machine/Pages.lean ====
section
/-!
DEFINITION. The BAR0 map (R66, R67): the kinds of page, where each page lies, its block code and instance number, and the
registers it holds.
-/
namespace Sys2Proof.Machine

/-- The kinds of page: one per block code and page assignment of R66.  `rsv` is a page the spec gives only a header. -/
inductive Kind where
  | sys | clk | epc | ftr | hif | ring | mbxc | mbxch | cphc | cphu | qnc | pmcg | ras | csc
  | eth0 | eth1 | eth2 | eth3 | fmc0 | fmcpc | fmc9 | fmc10 | fmc11 | rsv
  | tmb0 | tmbp | sch0 | schp | shp0 | shpp | tgt0 | tgtp
  | prs | cls | l2t | lpm | flw | act | pip | tel | pmcl
deriving DecidableEq, Repr

/-- A page: its kind, the index of the page among its kind, and its BAR0 base. -/
structure Page where
  kind : Kind
  idx : Nat
  base : Nat
deriving DecidableEq, Repr

/-- Base of pipeline `p`. -/
def pipeBase (p : Nat) : Nat := 0x1000000 + p * 0x100000

/-! Bases of the pages hardware names (R66). -/

def pgSys : Nat := 0x0000000
def pgClk : Nat := 0x0010000
def pgEpc : Nat := 0x0020000
def pgFtr : Nat := 0x0030000
def pgHif : Nat := 0x0040000
def pgRing (n : Nat) : Nat := 0x0044000 + n * 0x1000
def pgMbx : Nat := 0x0080000
def pgMbxCh (c : Nat) : Nat := 0x0081000 + c * 0x1000
def pgCph : Nat := 0x00C0000
def pgCphU (u : Nat) : Nat := 0x00C1000 + u * 0x800
def pgQnc : Nat := 0x0100000
def pgPmc : Nat := 0x0140000
def pgRas : Nat := 0x0180000
def pgCsc : Nat := 0x01C0000
def pgEth (g i : Nat) : Nat := 0x0200000 + (4 * g + i) * 0x1000
def pgFmc (st i : Nat) : Nat := 0x0400000 + (16 * st + i) * 0x1000
def pgTmb : Nat := 0x0800000
def pgTmbP (n : Nat) : Nat := 0x0800000 + (1 + n) * 0x1000
def pgSch : Nat := 0x0A00000
def pgSchP (n : Nat) : Nat := 0x0A00000 + (1 + n) * 0x1000
def pgShp : Nat := 0x0C00000
def pgShpP (n : Nat) : Nat := 0x0C00000 + (1 + n) * 0x1000
def pgTgt : Nat := 0x0E00000
def pgTgtP (n : Nat) : Nat := 0x0E00000 + (1 + n) * 0x1000
def pgPrs (p : Nat) : Nat := pipeBase p
def pgCls (p : Nat) : Nat := pipeBase p + 0x10000
def pgL2t (p : Nat) : Nat := pipeBase p + 0x20000
def pgLpm (p : Nat) : Nat := pipeBase p + 0x30000
def pgFlw (p : Nat) : Nat := pipeBase p + 0x40000
def pgAct (p : Nat) : Nat := pipeBase p + 0x50000
/-- The PIP page of sequencer `q`: pipeline `q`, or the global Pip for 8. -/
def pgPip (q : Nat) : Nat := if q < 8 then pipeBase q + 0x60000 else 0x1800000
def pgTel (p : Nat) : Nat := pipeBase p + 0x70000
def pgPmcL (p : Nat) : Nat := pipeBase p + 0x80000

/-- The page of pipeline region offset `o` (R66); LPM pages exist for even pipelines only. -/
def pipePage (p o : Nat) : Option Page :=
  let b := pipeBase p + o / 0x1000 * 0x1000
  match o / 0x1000 with
  | 0x00 => some ⟨.prs, p, b⟩
  | 0x10 => some ⟨.cls, p, b⟩
  | 0x20 => some ⟨.l2t, p, b⟩
  | 0x30 => if p % 2 = 0 then some ⟨.lpm, p, b⟩ else none
  | 0x40 => some ⟨.flw, p, b⟩
  | 0x50 => some ⟨.act, p, b⟩
  | 0x60 => some ⟨.pip, p, b⟩
  | 0x70 => some ⟨.tel, p, b⟩
  | 0x80 => some ⟨.pmcl, p, b⟩
  | _ => none

/-- A page of a region with one global page and one page per port. -/
def portPage (g n : Kind) (region a : Nat) : Option Page :=
  let i := (a - region) / 0x1000
  if i = 0 then some ⟨g, 0, region⟩
  else if i ≤ 128 then some ⟨n, i - 1, region + i * 0x1000⟩ else none

/-- Page `i` of a port group (R66, R115). -/
def ethKind (i : Nat) : Kind := if i = 0 then .eth0 else if i = 1 then .eth1 else if i = 2 then .eth2 else .eth3

/-- Page `i` of a stack (R292): 0 the stack, 1 to 8 its pseudo-channels, 9 to 11 the rest. -/
def fmcKind (i : Nat) : Kind :=
  if i = 0 then .fmc0 else if i ≤ 8 then .fmcpc else if i = 9 then .fmc9
  else if i = 10 then .fmc10 else if i = 11 then .fmc11 else .rsv

/-- The page an address of BAR0 lies in (R66, R67); `none` for an address in no page (R68). -/
def pageOf (a : Nat) : Option Page :=
  if a < 0x1000 then some ⟨.sys, 0, pgSys⟩
  else if pgClk ≤ a ∧ a < pgClk + 0x1000 then some ⟨.clk, 0, pgClk⟩
  else if pgEpc ≤ a ∧ a < pgEpc + 0x1000 then some ⟨.epc, 0, pgEpc⟩
  else if pgFtr ≤ a ∧ a < pgFtr + 0x1000 then some ⟨.ftr, 0, pgFtr⟩
  else if pgHif ≤ a ∧ a < pgHif + 0x40000 then
    let i := (a - pgHif) / 0x1000
    if i < 4 then some ⟨if i = 0 then .hif else .rsv, i, pgHif + i * 0x1000⟩
    else some ⟨.ring, i - 4, pgHif + i * 0x1000⟩
  else if pgMbx ≤ a ∧ a < pgMbx + 0x11000 then
    let i := (a - pgMbx) / 0x1000
    if i = 0 then some ⟨.mbxc, 0, pgMbx⟩ else some ⟨.mbxch, i - 1, pgMbx + i * 0x1000⟩
  else if pgCph ≤ a ∧ a < pgCph + 0x21000 then
    if a < pgCph + 0x1000 then some ⟨.cphc, 0, pgCph⟩
    else
      let u := (a - (pgCph + 0x1000)) / 0x800
      some ⟨.cphu, u, pgCphU u⟩
  else if pgQnc ≤ a ∧ a < pgQnc + 0x1000 then some ⟨.qnc, 0, pgQnc⟩
  else if pgPmc ≤ a ∧ a < pgPmc + 0x1000 then some ⟨.pmcg, 0, pgPmc⟩
  else if pgRas ≤ a ∧ a < pgRas + 0x1000 then some ⟨.ras, 0, pgRas⟩
  else if pgCsc ≤ a ∧ a < pgCsc + 0x1000 then some ⟨.csc, 0, pgCsc⟩
  else if 0x0200000 ≤ a ∧ a < 0x0280000 then
    let i := (a - 0x0200000) / 0x1000
    some ⟨ethKind (i % 4), i / 4, 0x0200000 + i * 0x1000⟩
  else if 0x0400000 ≤ a ∧ a < 0x0440000 then
    let i := (a - 0x0400000) / 0x1000
    let k := fmcKind (i % 16)
    some ⟨k, if k = .fmcpc then 8 * (i / 16) + (i % 16 - 1) else i / 16, 0x0400000 + i * 0x1000⟩
  else if pgTmb ≤ a ∧ a < pgTmb + 0x81000 then portPage .tmb0 .tmbp pgTmb a
  else if pgSch ≤ a ∧ a < pgSch + 0x81000 then portPage .sch0 .schp pgSch a
  else if pgShp ≤ a ∧ a < pgShp + 0x81000 then portPage .shp0 .shpp pgShp a
  else if pgTgt ≤ a ∧ a < pgTgt + 0x81000 then portPage .tgt0 .tgtp pgTgt a
  else if 0x1000000 ≤ a ∧ a < 0x1800000 then pipePage ((a - 0x1000000) / 0x100000) (a % 0x100000)
  else if pgPip 8 ≤ a ∧ a < pgPip 8 + 0x1000 then some ⟨.pip, 8, pgPip 8⟩
  else none

/-- The block code of a kind of page (R66). -/
def Kind.code : Kind → Nat
  | .sys => 0x9640 | .clk => 0x0002 | .epc => 0x0003 | .ftr => 0x0004
  | .hif => 0x0005 | .ring => 0x0005 | .mbxc => 0x0006 | .mbxch => 0x0006
  | .cphc => 0x0007 | .cphu => 0x0007 | .qnc => 0x0008 | .pmcg => 0x0009 | .ras => 0x000A | .csc => 0x000B
  | .eth0 => 0x000C | .eth1 => 0x000C | .eth2 => 0x000C | .eth3 => 0x000C
  | .fmc0 => 0x000D | .fmcpc => 0x000D | .fmc9 => 0x000D | .fmc10 => 0x000D | .fmc11 => 0x000D
  | .rsv => 0x0005
  | .tmb0 => 0x000E | .tmbp => 0x000E | .sch0 => 0x000F | .schp => 0x000F
  | .shp0 => 0x0010 | .shpp => 0x0010 | .tgt0 => 0x0011 | .tgtp => 0x0011
  | .prs => 0x0020 | .cls => 0x0021 | .l2t => 0x0022 | .lpm => 0x0023 | .flw => 0x0024
  | .act => 0x0025 | .pip => 0x0026 | .tel => 0x0027 | .pmcl => 0x0028

/-- The block code of a page: R66; the reserved pages of the FMC region carry the FMC code. -/
def Page.code (p : Page) : Nat :=
  if p.kind = .rsv ∧ 0x0400000 ≤ p.base then 0x000D else p.kind.code

/-- PG_INSTANCE (R68): port group, stack, port, pipeline or channel number of the page; the revision in SYS.  A ring page gives its ring
number (DESIGN CHOICE, log entry 77). -/
def Page.inst (p : Page) : Nat :=
  match p.kind with
  | .sys => 0xB0
  | .fmcpc => p.idx / 8
  | .rsv => if 0x0400000 ≤ p.base then p.idx else 0
  | .hif => 0
  | _ => p.idx

/-- The registers that follow the common header of a page. -/
def Kind.rows : Kind → List RegRow
  | .sys => rowsSYS | .clk => rowsCLK | .epc => rowsEPC | .ftr => rowsFTR
  | .hif => [] | .rsv => [] | .ring => rowsRING | .mbxc => rowsMBXC | .mbxch => rowsMBXCH
  | .cphc => rowsCPHC | .cphu => rowsCPHU | .qnc => rowsQNC | .pmcg => rowsPMCG | .ras => rowsRAS | .csc => rowsCSC
  | .eth0 => rowsETH0 | .eth1 => rowsETH1 | .eth2 => rowsETH2 | .eth3 => rowsETH3
  | .fmc0 => rowsFMC0 | .fmcpc => rowsFMCPC | .fmc9 => rowsFMC9 | .fmc10 => rowsFMC10 | .fmc11 => rowsFMC11
  | .tmb0 => rowsTMB0 | .tmbp => rowsTMBP | .sch0 => rowsSCH0 | .schp => rowsSCHP
  | .shp0 => rowsSHP0 | .shpp => rowsSHPP | .tgt0 => rowsTGT0 | .tgtp => rowsTGTP
  | .prs => rowsPRS | .cls => rowsCLS | .l2t => rowsL2T | .lpm => rowsLPM | .flw => rowsFLW
  | .act => rowsACT | .pip => rowsPIP | .tel => rowsTEL | .pmcl => rowsPMCL

/-- The word of a register that lies at page offset `o`: index in its array and word number (0 low, 1 high). -/
def RegRow.hit (r : RegRow) (o : Nat) : Option (Nat × Nat) :=
  if o < r.off then none
  else
    let d := o - r.off
    let st := if r.count ≤ 1 then 4 * r.words else r.stride
    let i := d / st
    if i < r.count ∧ d % st < 4 * r.words then some (i, d % st / 4) else none

/-- A register found at an offset. -/
structure Hit where
  row : RegRow
  i : Nat
  word : Nat
deriving DecidableEq, Repr

/-- Search a list of registers for the one at offset `o`. -/
def findRow (l : List RegRow) (o : Nat) : Option Hit :=
  match l with
  | [] => none
  | r :: t =>
    match r.hit o with
    | some (i, w) => some ⟨r, i, w⟩
    | none => findRow t o

/-- The register at page offset `o` of a kind of page (R69, R12). -/
def Kind.regAt (k : Kind) (o : Nat) : Option Hit :=
  if o < 0x40 then findRow rowsHDR o else findRow k.rows o

/-- A page with RWS fields or banked entries (R47, R61): classifier and action pages, and any page with an RWS field. -/
def Kind.shadowed (k : Kind) : Bool :=
  k = .cls || k = .act || k = .pip || k.rows.any fun r => r.rws != 0

/-- The four kinds of page whose RWS fields keep their banks without EPOCH_BANKS (R57). -/
def Kind.banksAlways : Kind → Bool
  | .epc | .tgt0 | .tgtp | .pip | .ras => true
  | _ => false

end Sys2Proof.Machine
end

