-- ==== Sys2Proof/Machine/SMap.lean ====
section
/-!
DEFINITION. Sparse stores: the one shape every table, buffer and memory of the device is held in.  A store lists
(key, value) pairs with keys strictly rising and no value equal to what an unlisted key reads as, so equal stores are equal
data.
-/
namespace Sys2Proof.Machine

/-- A sparse store: keys strictly rising, no listed value equal to the default of its key (`SMap.wf`). -/
abbrev SMap (α : Type) := List (Nat × α)

/-- Read key `k`; an unlisted key reads as `d`. -/
def SMap.get {α : Type} (m : SMap α) (d : α) (k : Nat) : α :=
  match m with
  | [] => d
  | (j, v) :: t => if j = k then v else SMap.get t d k

/-- Remove every entry whose key satisfies `p` (the keys then read as their default again). -/
def SMap.drop {α : Type} (m : SMap α) (p : Nat → Bool) : SMap α := m.filter fun e => !(p e.1)

/-- Enter `v` at `k`, at its place in the rising order. -/
def SMap.enter {α : Type} (m : SMap α) (k : Nat) (v : α) : SMap α :=
  match m with
  | [] => [(k, v)]
  | (j, w) :: t => if k < j then (k, v) :: (j, w) :: t else if k = j then (k, v) :: t else (j, w) :: SMap.enter t k v

/-- Write `v` at `k`, where an unlisted key reads as `d`: writing `d` removes the entry. -/
def SMap.set {α : Type} [DecidableEq α] (m : SMap α) (d : α) (k : Nat) (v : α) : SMap α :=
  if v = d then m.drop (· == k) else m.enter k v

/-- Every key of `m` is above `k`. -/
def SMap.above {α : Type} (k : Nat) (m : SMap α) : Bool := m.all fun e => decide (k < e.1)

/-- The canonical form: keys strictly rising, no listed value equal to its key's default. -/
def SMap.wf {α : Type} [DecidableEq α] (d : Nat → α) (m : SMap α) : Bool :=
  match m with
  | [] => true
  | (j, v) :: t => decide (v ≠ d j) && SMap.above j t && SMap.wf d t

/-- The keys that are listed. -/
def SMap.keys {α : Type} (m : SMap α) : List Nat := m.map (·.1)

/-- The lowest key below `n` that is not listed, if any. -/
def SMap.freshBelow {α : Type} (m : SMap α) (n : Nat) : Option Nat :=
  (List.range (min n (m.length + 1))).find? fun k => !(m.keys.contains k)

end Sys2Proof.Machine
end

