-- ==== Sys2Proof/Machine/State.lean ====
section
/-!
DEFINITION. The state of the device: plain data.  Every register has one home in `Io.regs` (fields other than RWS) or
`Io.bank` (the two copies of RWS fields, R47); tables, buffers, queues and engines each have a structure of their own.  What
the model adds for itself is named in the assumption log.
-/
namespace Sys2Proof.Machine

/-- What leaves the device, newest first (the model's own record of outputs). -/
inductive Out where
  /-- The completion of a register read: master and value. -/
  | read (m : Nat) (v : Nat)
  /-- A write to host memory. -/
  | dma (addr : Nat) (bytes : List Byte)
  /-- The MSI-X message of a vector: the Message Address and Message Data of its table entry. -/
  | msix (v : Nat) (addr : BitVec 64) (data : W32)
  /-- A data frame on an Ethernet port, and whether its FCS was left bad (stomped). -/
  | frame (port : Nat) (bytes : List Byte) (stomped : Bool)
  /-- A PAUSE or PFC frame on a port: class enable vector (all ones for PAUSE) and the eight timers. -/
  | macCtl (port : Nat) (pfc : Bool) (classes : Nat) (quanta : List Nat)
  /-- A frame on a stack link. -/
  | stack (link : Nat) (bytes : List Byte)
  /-- A request to host memory, flash or a peer, by kind. -/
  | request (kind : String) (addr : Nat) (len : Nat)
deriving DecidableEq, Repr

/-- The power and reset phase: held in cold reset, running (boot included), in the first 20 µs of a stop, stopped. -/
inductive Phase where
  | held | running | stopping | halted
deriving DecidableEq, Repr

/-- A movement of the time base from `a` to `b` ns, at whose end the count stood at `stamp`: by counting, or by a step (R44). -/
structure Span where
  a : Nat
  b : Nat
  stamp : Nat
  step : Bool
deriving DecidableEq, Repr

/-- Crossings of the time base that have happened and whose event has not yet been taken. -/
structure Due where
  /-- The movements, oldest first, in which multiples of 2^K not yet taken as boundaries lie (R44, R45). -/
  boundary : List Span := []
  /-- 64 ns refills crossed by counting and not yet made (R312). -/
  refill : Nat := 0
  /-- The movements in which window ends not yet taken lie (R367). -/
  window : List Span := []
  /-- Returns of the nanoseconds to 0 (R112), snapshot periods (R345), multiples of 2^20 ns (R397) and of 2^14 ns (R452). -/
  pps : Nat := 0
  snapshot : Nat := 0
  alive : Nat := 0
  timeSend : Nat := 0
deriving DecidableEq, Repr

/-- The time base of R40: whole nanoseconds since 0 and the invisible fraction, in units of 2^-32 ns. -/
structure TimeBase where
  ns : Nat := 0
  sub : Nat := 0
  /-- Nanoseconds counted since cold reset, steps excluded (R45). -/
  counted : Nat := 0
  /-- `counted` at the last boundary event. -/
  lastBoundary : Option Nat := none
  /-- A crossing is held under R45. -/
  held : Bool := false
  /-- The time base has been set by a step since cold reset (R397). -/
  set : Bool := false
  /-- The time base before a step of R41 that took effect in the present core cycle (R113). -/
  stepped : Option Nat := none
  /-- The target of the armed commit (R53). -/
  armed : Option Nat := none
  /-- `counted` at the last commit, for EPC_DRAIN_MAX (R51). -/
  commitAt : Nat := 0
  /-- `counted` at the last window end (R367): the true length of a window. -/
  windowAt : Nat := 0
  /-- The slew of a cascade member towards its master, signed ppb in 32 bits (R453). -/
  slew : Nat := 0
  due : Due := {}
deriving DecidableEq, Repr

/-- The clock of the stretch regions (R34 to R39): divisor (8, 9, 10), root-edge phase, stretched cycles held. -/
structure Clk where
  div : SMap Nat := []
  phase : SMap Nat := []
  hold : SMap Nat := []
  /-- The level a sensor has tripped (0 none, 1 TRIP1, 2 TRIP2). -/
  sensor : SMap Nat := []
  /-- `counted` when a region last returned to ÷8 (R353). -/
  calm : Nat := 0
  /-- `counted` when a region's present stretch episode started (R39). -/
  since : SMap Nat := []
deriving DecidableEq, Repr

/-- The PCI Express side (R5, R62 to R65, R73, R528): the link, and the Configuration Space the function holds. -/
structure Pcie where
  linkUp : Bool := false
  /-- Link speed, 1 (2.5 GT/s) to 5 (32 GT/s), and lanes in use; 0 while the link is down. -/
  speed : Nat := 0
  width : Nat := 0
  /-- The identity registers (R5). -/
  vendorId : BitVec 16 := 0x1F3A
  deviceId : BitVec 16 := 0x9640
  /-- The Slot Clock Configuration bit of the Link Status register (R528). -/
  slotClock : Bool := false
  /-- Memory Space Enable and Bus Master Enable. -/
  memEn : Bool := false
  bme : Bool := false
  /-- BAR0: the base of the 64 MiB window. -/
  bar0 : BitVec 64 := 0
  /-- Max_Payload_Size and Max_Read_Request_Size, as the log2 of a multiple of 128 B. -/
  mps : Nat := 0
  mrrs : Nat := 2
  /-- Power state D3hot; otherwise D0. -/
  d3hot : Bool := false
  /-- Advanced Error Reporting: ECRC generation and checking, and the masks of uncorrectable and correctable errors. -/
  ecrcGen : Bool := false
  ecrcCheck : Bool := false
  uncMask : W32 := 0
  corMask : W32 := 0x2000
  msixEn : Bool := false
  funcMask : Bool := false
  /-- Message Address and Message Data of the MSI-X table. -/
  vecAddr : SMap (BitVec 64) := []
  vecData : SMap W32 := []
  /-- Vector Control mask bits of the MSI-X table. -/
  vecMask : BitVec 64 := BitVec.allOnes 64
  /-- Pending Bits. -/
  pend : BitVec 64 := 0
  perstLow : Bool := false
deriving DecidableEq, Repr

/-- An accepted host transmit entry whose frame is being fetched (R83). -/
structure TxFetch where
  ring : Nat
  addr : Nat
  len : Nat
  inject : Bool
  dst : Nat
deriving DecidableEq, Repr

/-- Pins and the reset machinery of chapters 19 to 21. -/
structure Sys where
  phase : Phase := .running
  porHeld : Bool := false
  /-- TEST_EN is high: the device does not leave cold reset (R520). -/
  testEn : Bool := false
  chipRstLow : Bool := false
  /-- A management reset is requested and not yet applied (R499). -/
  mgmtPending : Bool := false
  /-- The 1 µs management reset is in progress. -/
  mgmtActive : Bool := false
  /-- The strap samples so far (R501). -/
  straps : List (BitVec 6) := []
  /-- What each die sensor was last seen to read, in °C (R474, R495). -/
  temp : SMap (Option Nat) := []
  faultLow : Bool := false
  /-- The level PPS_OUT drives when enabled. -/
  ppsHigh : Bool := false
  /-- `counted` at which the pulse of PPS_OUT ends (R112). -/
  ppsEnd : Nat := 0
  /-- CASC_EPOCH driven low by this device (R455). -/
  cascLow : Bool := false
  /-- Blink phase of each LED (R513). -/
  ledPhase : BitVec 4 := 0
  /-- LEDs in the 50 ms off interval of mode 3. -/
  ledOff : BitVec 4 := 0
  /-- Why the last cold reset happened, for SYS_RST_CAUSE.COLD. -/
  coldCause : Nat := 0
  /-- The stop that is in progress or last happened: 2 thermal trip, 3 supply fault. -/
  stopCause : Nat := 0
  /-- Time of release, for SYS_BOOT_MS. -/
  bootMs : Nat := 0
deriving DecidableEq, Repr

/-- A ledger head slot (R396): the block it records, if any, and the wrapped keys with their KEY_IDs. -/
structure QHead where
  hasBlock : Bool := false
  seq : Nat := 0
  tag : Nat := 0
  num : Nat := 0
  openNs : Nat := 0
  closeNs : Nat := 0
  index : Nat := 0
  last : Bool := false
  key : Option (Nat × List Byte) := none
  pend : Option (Nat × List Byte) := none
deriving DecidableEq, Repr

/-- What the persistent store keeps (R483, R487, R490), in 64 B lines by store offset ÷ 64, with its log bookkeeping. -/
structure Nvm where
  lines : SMap Line := []
  logHead : Nat := 0
  logCount : Nat := 0
  logWrapped : Bool := false
  seq : Nat := 0
  /-- The slot that last wrote ALIVE. -/
  slot : Nat := 0
  /-- The minimum security version. -/
  minSvn : Nat := 0
  /-- Slot n is marked valid. -/
  slotValid : BitVec 2 := 0b11#2
  /-- VERSION and security version of the image in a slot, once the device has checked it. -/
  slotVer : SMap (Option (Nat × Nat)) := []
  /-- Row remaps (R289): (pc, bank, row) packed → spare index. -/
  remaps : SMap Nat := []
  /-- Retired pseudo-channels (R289): pc → the PC that now holds its data. -/
  retired : SMap Nat := []
  /-- Ledger head slots that hold a head, the newest first; none: the erased state (R392, R396). -/
  heads : List QHead := []
  /-- ALIVE in ns, and the UNTIMED_RUN record (R397). -/
  alive : Option Nat := none
  untimed : Bool := false
deriving DecidableEq, Repr

/-- Error reporting (R478 to R482). -/
structure Ras where
  /-- Severity 0 keys: when the last record of the key was produced (`counted`, plus 1). -/
  last : SMap Nat := []
  /-- Withheld records of a key. -/
  withheld : SMap Nat := []
  /-- Records detected, not yet written to the log (R482), oldest first. -/
  toLog : List Line := []
  /-- Log writes in the present second: (second, count). -/
  logRate : Nat × Nat := (0, 0)
  /-- Sensors that have reached WARN and not fallen to WARN − HYST since (R495). -/
  warned : SMap Bool := []
deriving DecidableEq, Repr

/-- The register file and everything every page shares. -/
structure Io where
  /-- Register words by BAR0 offset, RWS bits aside; unlisted: the reset value (`resetWord`). -/
  regs : SMap W32 := []
  /-- RWS copies by 2 × BAR0 offset + bank. -/
  bank : SMap W32 := []
  /-- Sticky overflow bits by the offset of a counter's low word (R358). -/
  sticky : SMap Bool := []
  /-- Window accumulators by the offset of the window value they load (R367). -/
  acc : SMap Nat := []
  /-- Snapshot slots by master identity: counter offset and high word (R359). -/
  ctrSlot : SMap (Option (Nat × Nat)) := []
  /-- Time slots by master identity (R60). -/
  timeSlot : SMap Nat := []
  /-- Ring write counts (R82). -/
  wcount : SMap Nat := []
  /-- Completions of a ring since IRQ was last clear (R81). -/
  modCnt : SMap Nat := []
  /-- Accepted host transmit entries whose frame is being fetched, by ring (R83). -/
  fetch : SMap (List TxFetch) := []
  /-- Slots of a pipeline taken by passes since the last core tick (R365). -/
  taken : SMap Nat := []
  /-- Pages whose drain after a commit has ended and whose bank copy is running (R51). -/
  drained : SMap Bool := []
  time : TimeBase := {}
  clk : Clk := {}
  pcie : Pcie := {}
  sys : Sys := {}
  nvm : Nvm := {}
  ras : Ras := {}
  /-- Whether a feature commit has succeeded since cold reset (R94). -/
  featDone : Bool := false
  out : List Out := []
  /-- The model's own counter of free values drawn. -/
  free : Nat := 0
deriving DecidableEq, Repr

/-! ### Packets -/

/-- A packet between its ports and the buffer: the frame without its FCS and what travels beside it (R23, R49, R108, R124,
R229). -/
structure Pkt where
  bytes : List Byte := []
  pipe : Nat := 0
  inPort : Nat := 0
  injected : Bool := false
  /-- Ingress timestamp in units of 2^-16 ns. -/
  ts : Nat := 0
  bank : Nat := 0
  /-- Passes made before this one. -/
  pass : Nat := 0
  zone : Option Nat := none
  hashLayer : Option Nat := none
  /-- PKT_LEN of the first pass (R229). -/
  firstLen : Nat := 0
  /-- PCP of the outer tag of the received frame, 0 when untagged (R106, R363). -/
  prio : Nat := 0
  /-- The packet came by a STEER frame (R465). -/
  steered : Bool := false
  /-- The identity and source side of the first pass (R175). -/
  hash : Nat := 0
  key : Nat := 0
  srcLow : Bool := false
  /-- The tracker entry of a tagged packet (R343). -/
  tag : Option Nat := none
  /-- It has been counted as malformed (R130). -/
  malFound : Bool := false
deriving DecidableEq, Repr

/-- A PTP operation for the transmitting port (R109, R205): operation, header offset, UDP header offset, IPv6 or not. -/
structure Ptp where
  op : Nat := 0
  off : Nat := 0
  udp : Option Nat := none
  v6 : Bool := false
deriving DecidableEq, Repr

/-- A packet as stored in the buffer (R294, R295): bytes without FCS, physical cells, copies that reference it. -/
structure Stored where
  bytes : List Byte := []
  cells : Nat := 0
  refs : Nat := 0
  /-- The index of a cell that holds an uncorrectable error, if one is known (R305). -/
  bad : Option Nat := none
deriving DecidableEq, Repr

/-- An admitted copy in its queue (R295). -/
structure Copy where
  pkt : Nat := 0
  /-- L: frame length with FCS, trailer included, or the cut length. -/
  len : Nat := 0
  ptp : Ptp := {}
  ts : Nat := 0
  reason : Nat := 0
  pipe : Nat := 0
  srcPort : Nat := 0
  frec : Nat := 0
  trailer : Bool := false
  /-- For a stack copy: its 32 B header (R449). -/
  stack : BitVec 256 := 0
  /-- The tracker entry of a tagged packet, in its destination copy (R343). -/
  tag : Option Nat := none
deriving DecidableEq, Repr

/-- The scheduler of one port, or of the host queues (R306 to R309). -/
structure Sched where
  /-- Queue the round robin stands at. -/
  cur : Nat := 0
  /-- The visit to `cur` has added its quantum. -/
  visited : Bool := false
  /-- The frame in transmission and its queue. -/
  tx : Option (Copy × Nat) := none
  /-- The transmit stamp of the frame in transmission, taken as it starts (R108). -/
  txStamp : Nat := 0
  /-- Queues whose received pause is ignored after the watchdog (R107). -/
  ignore : Nat := 0
  /-- Per queue, the count at which its received-pause timer runs out (R105). -/
  pauseEnd : SMap Nat := []
deriving DecidableEq, Repr

/-- A token bucket (R312, R315): adopted rate in Mb/s, burst in B, tokens in 1/1000 B. -/
structure Bucket where
  rate : Nat := 0
  burst : Nat := 0
  tokens : Int := 0
deriving DecidableEq, Repr

/-- A policer (R319 to R323): two banks of EN, RATE, BURST, ACCT_HI, and its tokens in 1/1000 B. -/
structure Policer where
  cfg : BitVec 64 := 0
  burst : BitVec 64 := 0
  acct : BitVec 64 := 0
  tokens : Nat := 0
deriving DecidableEq, Repr

/-- A gate control list (R325, R330): enabled, cycle, base or start in ns, entries (gates, interval). -/
structure GateList where
  en : Bool := false
  cycle : Nat := 0
  base : Nat := 0
  entries : List (Nat × Nat) := []
deriving DecidableEq, Repr

/-- The adopted configuration of a port group (R99). -/
structure Group where
  mode : Nat := 3
  iface : Nat := 0
  pol : Nat := 0
  map : Nat := 0xE4E4
deriving DecidableEq, Repr

/-- Ports, staging, buffer, scheduling, shaping and gates. -/
structure Buf where
  group : SMap Group := []
  /-- Ingress staging of a pipeline, oldest first (R101). -/
  staging : SMap (List Pkt) := []
  /-- Recirculated packets of a pipeline waiting for a slot (R23). -/
  recirc : SMap (List Pkt) := []
  /-- Host-injected packets of a pipeline (R83). -/
  inject : SMap (List Pkt) := []
  store : SMap Stored := []
  nextId : Nat := 0
  /-- Queues: egress 8n + q, host 1024 + h, stack 1040 + 2·link + class. -/
  queues : SMap (List Copy) := []
  sched : SMap Sched := []
  /-- Corrections saturated per port: the spec counts them and names no register (R109). -/
  corrSat : SMap Nat := []
  /-- DEFICIT of the host queues (R309). -/
  hostDef : SMap Nat := []
  /-- Buckets: 4·(8n + q) + 0, 1 for a queue, 4096 + 2·n + 0, 1 for a port. -/
  bucket : SMap Bucket := []
  /-- Policers: 4096·KIND + INDEX. -/
  policer : SMap Policer := []
  /-- The gate list in force, and the adopted one awaiting its start, per port. -/
  oper : SMap GateList := []
  await : SMap (Option GateList) := []
  /-- Transmit timestamp FIFOs: (ns, sec, domain, sequence) oldest first. -/
  txts : SMap (List (Nat × Nat × Nat × Nat)) := []
deriving DecidableEq, Repr

/-! ### Forwarding tables -/

/-- An LPM entry (R141): VRF, wildcard, family, mask length M of 128, address, result. -/
structure LpmEntry where
  vrf : Nat
  wild : Bool
  fam : Nat
  m : Nat
  addr : Nat
  res : Nat
  /-- Clear once the entry is lost in the array and its shadow: it holds its place and matches nothing (R155). -/
  valid : Bool := true
deriving DecidableEq, Repr

/-- A learn event (R146). -/
structure LearnEv where
  mac : Nat
  fid : Nat
  port : Nat
deriving DecidableEq, Repr

/-- Classifier, L2, LPM and action tables.  Banked valid bits are keyed 2·entry + bank. -/
structure Fwd where
  cls : SMap (BitVec 384) := []
  clsValid : SMap Bool := []
  prof : SMap (BitVec 576) := []
  act : SMap (BitVec 128) := []
  actValid : SMap Bool := []
  tmpl : SMap (BitVec 1024) := []
  l2 : SMap (BitVec 80) := []
  learn : SMap (List LearnEv) := []
  lpm : SMap (List LpmEntry) := []
  /-- Search profiles (64 · pipeline + profile) and CLS_PSELn words (1024 + 32 · pipeline + n) that the scrubber found lost
  (R475), until they are written again. -/
  gone : SMap Bool := []
  /-- How the array words of the classifier, the L2 table and the LPM banks differ from their shadow copies, which the fields above
  are: a mask per entry, bit 511 its parity bit (R154). -/
  upset : SMap Nat := []
deriving DecidableEq, Repr

/-! ### Table commands -/

/-- What one part of a command gives: its code, its RESULT, data for DATA or the INDIRECT buffer, bytes for INDEX (R87). -/
structure Res where
  code : Nat := 0
  result : Option Nat := none
  data : List Byte := []
  index : List Byte := []
  /-- Where the data begin in the INDIRECT buffer (R191). -/
  off : Nat := 0
  /-- Bytes returned in DATA from entry byte 32, beside an INDIRECT buffer (R224). -/
  at32 : List Byte := []
deriving DecidableEq, Repr

/-- The command a queue is busy with (R52, R91, R191, R192): the command and its opcode. -/
structure CmdJob where
  cmd : Cmd
  op : Nat
  /-- It waits on SHADOW_BUSY: no part has started (R52). -/
  waits : Bool := false
  /-- Its one part has ended, and its status waits until the device may issue DMA again (R64). -/
  result : Option Res := none
  /-- The host interface was reset since it started: it writes no status (R64). -/
  dead : Bool := false
deriving DecidableEq, Repr

/-! ### Flow memory (R264 to R293) -/

/-- Where a line lies: its pseudo-channel at A and at B, its local line address (byte address ÷ 64), mirrored or not (R267). -/
structure Loc where
  a : Nat
  b : Nat
  la : Nat
  mirrored : Bool := true
deriving DecidableEq, Repr

/-- A queued read: its line, the copy it is sent to (`side` B) and where that copy lies, class of R25 (1 to 4), requester,
drain-wait, and whether it has been re-issued to the other copy. -/
structure Req where
  id : Nat
  loc : Loc
  side : Bool
  pc : Nat
  la : Nat
  cls : Nat
  who : Nat
  drain : Bool
  /-- The unit that the performance events of the read name (R362). -/
  unit : Nat := 0
  again : Bool := false
  /-- Ahead of its class: moved by a freeze or re-issued (R277, R282). -/
  first : Bool := false
deriving DecidableEq, Repr

/-- A write of one copy of a line (`side` B) and where that copy lies. -/
structure WReq where
  loc : Loc
  side : Bool
  pc : Nat
  la : Nat
  data : Line
  cls : Nat
  who : Nat
  /-- The requester's tag: it waits until no write with its tag is unaccepted. -/
  tag : Nat
  /-- The copy has been refused once and is issued again (R279). -/
  again : Bool := false
  /-- A conditional write that waits for acceptance: a write of its line that is accepted first discards it (R275). -/
  cond : Bool := false
deriving DecidableEq, Repr

/-- A read that has been issued to the array: what the array held, and whether a write of its line has been accepted since (R274). -/
structure Flight where
  req : Req
  data : Line
  passed : Bool := false
deriving DecidableEq, Repr

/-- A DIAG access in progress (R284). -/
structure Diag where
  write : Bool
  pc : Nat
  la : Nat
deriving DecidableEq, Repr

/-- The four controllers and their stacks. -/
structure Fmc where
  /-- The array: physical pc · 2^23 + physical line address. -/
  mem : SMap Line := []
  /-- Check bytes that a DIAG write stored; otherwise they are those of the code. -/
  chk : SMap (Option (BitVec 64)) := []
  /-- How an array read of a line ends while the errors it has gathered stand: they go with its next write (R276). -/
  fault : SMap ReadEnd := []
  rq : SMap (List Req) := []
  /-- Reads that wait for an entry of a read queue, oldest first (R269). -/
  rqWait : SMap (List Req) := []
  wq : SMap (List WReq) := []
  /-- Writes issued and not yet accepted, oldest first. -/
  wait : List WReq := []
  /-- Reads issued to the array. -/
  flight : List Flight := []
  /-- Responses by request: `some none` is MEM_ERROR. -/
  resp : SMap (Option (Option Line)) := []
  nextId : Nat := 1
  openRow : SMap Nat := []
  /-- Write mode of a pseudo-channel (R271): 0 none, 1 until 16 entries are left, 2 until its queue is empty. -/
  wmode : SMap Nat := []
  /-- The retraining buffer of a stack. -/
  tbuf : SMap (List WReq) := []
  /-- Degraded-line tables: (pc, line) by stack, oldest first. -/
  deg : SMap (List (Nat × Nat)) := []
  rebuild : SMap (List Nat) := []
  rebuildPos : SMap Nat := []
  /-- A pseudo-channel in its release retraining (R285). -/
  releasing : SMap Bool := []
  diag : SMap (Option Diag) := []
  scrub : Nat := 0
  /-- Limiter tokens in 1/10 B below the depth, and the count they were last filled at (R290). -/
  bgUsed : Nat := 0
  bgAt : Nat := 0
  /-- Background requesters that wait for tokens, and the one served last (R290). -/
  bgWait : SMap Bool := []
  bgLast : Nat := 0
  /-- Bytes of rebuild reads above what RATE_GBS allows, and the count they were last reckoned at (R288). -/
  rebuildUsed : Nat := 0
  rebuildAt : Nat := 0
  /-- Tags of writes that failed (R279). -/
  failed : SMap Bool := []
  /-- Requests the limiter has delayed once already. -/
  delayed : SMap Bool := []
deriving DecidableEq, Repr

/-! ### Parse and lookup results -/

/-- The header vector (R121), as named fields; `HV.bytes` (Parser) gives its 128 B. -/
structure HV where
  pktLen : Nat := 0
  inPort : Nat := 0
  bank : Nat := 0
  pass : Nat := 0
  depth : Bool := false
  trimmed : Bool := false
  frag : Bool := false
  tunnel : Bool := false
  malformed : Bool := false
  malClass : Nat := 0
  outVlans : Nat := 0
  mplsCnt : Nat := 0
  inVlans : Nat := 0
  hashInner : Bool := false
  zone : Nat := 0
  hash : Nat := 0
  oL3o : Nat := 0xFF
  oL4o : Nat := 0xFF
  oTun : Nat := 0xFF
  oL2i : Nat := 0xFF
  oL3i : Nat := 0xFF
  oL4i : Nat := 0xFF
  oMpls : Nat := 0xFF
  oPay : Nat := 0xFF
  l3o : Nat := 0
  l4o : Nat := 0
  tunType : Nat := 0
  l3i : Nat := 0
  l4i : Nat := 0
  etypeIdx : Nat := 0
  dmac : Nat := 0
  smac : Nat := 0
  tci1 : Nat := 0
  tci2 : Nat := 0
  mplsTop : Nat := 0
  outSrc : Nat := 0
  outDst : Nat := 0
  outProto : Nat := 0
  outTtl : Nat := 0
  outTos : Nat := 0
  outTcpf : Nat := 0
  outSport : Nat := 0
  outDport : Nat := 0
  tunId : Nat := 0
  inSrc : Nat := 0
  inDst : Nat := 0
  inSport : Nat := 0
  inDport : Nat := 0
  inProto : Nat := 0
  inTcpf : Nat := 0
  inTos : Nat := 0
  inTtl : Nat := 0
deriving DecidableEq, Repr

/-- What the arrays hand on (R132), with the identifiers they searched under. -/
structure Lookup where
  clsHit : Bool := false
  clsIndex : Nat := 0
  action : Nat := 0
  flowClass : Nat := 0
  create : Bool := false
  l2Hit : Bool := false
  l2Port : Nat := 0
  l2Static : Bool := false
  /-- A search was made in the LPM bank (R142). -/
  lpmTried : Bool := false
  lpmHit : Bool := false
  lpmLen : Nat := 0
  lpmRes : Nat := 0
  fid : Nat := 0
  learn : Bool := false
deriving DecidableEq, Repr

/-! ### Flow table (R157 to R194) -/

/-- A pass that waits for its record or is acted on: packet, parse results, lookup, identity and direction (R157, R175). -/
structure Pass where
  pkt : Pkt := {}
  hv : HV := {}
  block : List Byte := []
  srcLow : Bool := false
  lk : Lookup := {}
  hash : Nat := 0
  key : Nat := 0
  /-- Bits 43:20 of the time base at the first parser admission (R166). -/
  seen : Nat := 0
  /-- `counted` at this parser admission (R257). -/
  since : Nat := 0
  /-- `counted` at the miss decision (R257). -/
  born : Nat := 0
  /-- How the lookup found the record (R344). -/
  outcome : Nat := 7
deriving DecidableEq, Repr

/-- Where a lookup that missed stands (R173, R176). -/
inductive Stage where
  /-- Reading bucket c1 or c2. -/
  | bucket (which : Nat)
  /-- Reading the hot half of a record; where its header was found: 0 stash, 1 c1, 2 c2, 3 an open fence, 4 the
  stash under a fence retry. -/
  | hot (r src : Nat)
  /-- The hot half of a record has been read, and waits for a way. -/
  | way (r : Nat)
  /-- A final create miss waiting for a context. -/
  | wants
  /-- Its setup runs in this context of the pipeline's Pip. -/
  | setup (c : Nat)
  /-- Waiting on the claim with this number, made by another setup or by a host create. -/
  | claim (c : Nat)
deriving DecidableEq, Repr

/-- An entry of the outstanding-miss tracker: the passes that wait, first the one that caused it (R21, R22). -/
structure Miss where
  hash : Nat
  key : Nat
  stage : Stage
  req : Nat := 0
  /-- The lookup has gone back to step 2 once (R176). -/
  again : Bool := false
  /-- It has made its one retry under a fence (R180). -/
  retried : Bool := false
  passes : List Pass := []
deriving DecidableEq, Repr

/-- A line of the flow cache: its 4 B of state (R169) and its hot half. -/
structure CacheLine where
  st : W32 := 0
  data : Line := 0
deriving DecidableEq, Repr

/-- An open relocation fence (R180). -/
structure Fence where
  hash : Nat
  key : Nat
  r : Nat
  oldB : Nat
  oldSlot : Nat
  newB : Nat
  newSlot : Nat
  /-- 0 new-bucket write issued, 1 clear issued. -/
  stage : Nat := 0
  /-- The claim it serves. -/
  claim : Nat := 0
deriving DecidableEq, Repr

/-- Where a claim stands (R177, R179, R180). -/
inductive ClaimStage where
  | queued | reading (r1 r2 : Nat) | held
  | halves | needMove | moving | header | done
deriving DecidableEq, Repr

/-- A claim in flight. -/
structure Claim where
  id : Nat
  /-- The pipeline, or 8 for a host create. -/
  src : Nat
  hash : Nat
  key : Nat
  block : List Byte
  action : Nat
  cls : Nat
  origLow : Bool
  stage : ClaimStage := .queued
  r : Nat := 0
  /-- Where the header goes: bucket and slot, or the stash entry (`stash`). -/
  bkt : Nat := 0
  slot : Nat := 0
  stash : Bool := false
  /-- What it answers once done: code (0 OK, 13 EXISTS, 5 FULL, 10 MEM_ERROR). -/
  code : Option Nat := none
  /-- The Pip context it serves (sequencer · 32 + context), or the host queue. -/
  owner : Nat := 0
  /-- The residents to be tried for a move, as bucket · 4 + slot, each with the MOVE_GEN its slot is expected to have (R161). -/
  tries : List (Nat × Nat) := []
deriving DecidableEq, Repr

/-- A stash entry being placed (R181). -/
structure Drain where
  entry : Nat
  bkt : Nat
  slot : Nat
  /-- The MOVE_GEN that the slot has once the header is in it (R161). -/
  gen : Nat
deriving DecidableEq, Repr

/-- Where a removal stands (R187): `rolling` once its final hot halves are handed to Quince. -/
inductive RemStage where
  | queued | cleared | reading
  | rolling (hot hot2 : Option Line)
deriving DecidableEq, Repr

/-- A removal: record, cause (0 AGED, 1 EVICTED, 2 TEARDOWN, 3 DELETED), partner taken along. -/
structure Removal where
  id : Nat
  r : Nat
  cause : Nat
  stage : RemStage := .queued
  partner : Option Nat := none
  /-- The pipeline whose page counts events of the removal. -/
  pipe : Nat := 0
deriving DecidableEq, Repr

/-- The flow table's on-chip state. -/
structure Flow where
  cache : SMap CacheLine := []
  miss : SMap (List Miss) := []
  stash : SMap (BitVec 128) := []
  fences : List Fence := []
  /-- Locked buckets and the claim or removal that holds each. -/
  locks : SMap Nat := []
  claims : List Claim := []
  /-- The source the insert unit took last, 0 to 8 (R177). -/
  rr : Nat := 8
  drains : List Drain := []
  /-- Withdrawn claims whose header is still to be cleared: another holder has their buckets (R182). -/
  undo : List Claim := []
  removals : List Removal := []
  /-- Records lost under R190 that Quince has not yet read (R382), oldest first. -/
  lost : List Nat := []
  /-- Records that are not FREE or whose index is taken. -/
  used : SMap Bool := []
  walk : Nat := 0
  nextId : Nat := 1
  /-- PRESSURE has been raised and free records have not risen above HIGH_K since (R186). -/
  pressed : Bool := false
  /-- An occupancy step last reported (R255, OCCUPANCY). -/
  occStep : Nat := 0
deriving DecidableEq, Repr

/-! ### Balancing, translation and timeouts (R211 to R228) -/

/-- The action unit's tables other than profiles and templates. -/
structure Act where
  /-- Slots: 4096 · pool + slot. -/
  slot : SMap (BitVec 16) := []
  member : SMap W32 := []
  memberExt : SMap (BitVec 128) := []
  gap : SMap (BitVec 16) := []
  /-- NAT pools as bytes 16 to 27 of WRITE_POOL. -/
  pool : SMap (BitVec 96) := []
  /-- Address slots: 1024 · pool + slot. -/
  addr : SMap W32 := []
  block : SMap W32 := []
  /-- Subscriber bindings (zone · 2^128 + address): their blocks. -/
  bind : SMap (List Nat) := []
  /-- NAT64 prefixes: length · 2^128 + prefix. -/
  pfx : SMap (BitVec 136) := []
  /-- Timeout set of a zone: 4096 · pipeline + zone. -/
  zoneSet : SMap Nat := []
  /-- Classes of a set: 16 · pipeline + set. -/
  classes : SMap (BitVec 128) := []
  /-- Slots (4096 · pool + slot) and members (2^23 + member) lost to an uncorrectable error: treated as DOWN until written
  (R475). -/
  gone : SMap Bool := []
  /-- Quarantined port blocks (R477). -/
  quar : SMap Bool := []
deriving DecidableEq, Repr

/-! ### Telemetry (R334 to R354) -/

/-- A tagged packet (R343, R344): what its trace record will say; stamps in units of 2^-16 ns. -/
structure Tag where
  pipe : Nat := 0
  inPort : Nat := 0
  bank : Nat := 0
  seq : Nat := 0
  ts : Nat := 0
  len : Nat := 0
  passes : Nat := 1
  outcome : Nat := 7
  record : Nat := 0x3FFFFFF
  egress : Nat := 0xFF
  queue : Nat := 0
  occ : Nat := 0
  parse : Option Nat := none
  flow : Option Nat := none
  act : Option Nat := none
  buf : Option Nat := none
deriving DecidableEq, Repr

/-- The TEL blocks. -/
structure Tel where
  /-- Tracker entries: 32 · pipeline + entry. -/
  tags : SMap (Option Tag) := []
  tagSeq : SMap Nat := []
  /-- Samples recorded by a pipeline: (millisecond, count). -/
  sampled : SMap (Nat × Nat) := []
  /-- Start queue: record index, hash, key check, oldest first. -/
  startQ : List (Nat × Nat × Nat) := []
  /-- The message in assembly: template and record bytes, oldest first. -/
  msg : List (Nat × List Byte) := []
  /-- `counted` when its first record joined it (R334). -/
  msgAt : Nat := 0
  /-- `counted` when IPFIX_EXPORT became active or the last periodic Template Set fell due (R337). -/
  tmplAt : Nat := 0
  snapSeq : Nat := 0
  /-- Elephant tables: 512 · pipeline + entry → (record, bytes). -/
  ele : SMap (Option (Nat × Nat)) := []
  /-- EPC_EPOCH_NUM at the last window end. -/
  eleAt : Nat := 0
deriving DecidableEq, Repr

/-- An entry of the promotion list (R349). -/
structure Promo where
  r : Nat
  hash : Nat
  key : Nat
  /-- Windows ended when it was last refreshed. -/
  stamp : Nat
deriving DecidableEq, Repr

/-- What the global Pip's policies keep (R348 to R353). -/
structure Policy where
  promo : List Promo := []
  /-- Elephant windows ended. -/
  window : Nat := 0
  /-- Pools for which LB_CONGEST has been posted in an epoch. -/
  lbPosted : Nat × List Nat := (0, [])
  /-- Slots rewritten in an epoch. -/
  lbCount : Nat × Nat := (0, 0)
  /-- Removals submitted in an epoch. -/
  evicted : Nat × Nat := (0, 0)
  /-- Where the cursor stood at the event or after the last victim: a full turn ends there (R352). -/
  evictFrom : Nat := 0
  /-- The epoch in which OCCUPANCY was last posted. -/
  occEpoch : Option Nat := none
  /-- `counted` when POWER engaged. -/
  engaged : Option Nat := none
  journal : Nat := 0
deriving DecidableEq, Repr

/-! ### Pip (R233 to R263) -/

/-- A memory operation that has not responded (R245): operation, space, size in bytes, destination operand; address, lock, record
index or claim number. -/
structure MemOp where
  op : Nat
  space : Nat
  size : Nat
  dst : Nat
  addr : Nat
  /-- The micro-address of the microword that issued it. -/
  src : Nat := 0
deriving DecidableEq, Repr

/-- A staged effect (R247, R248). -/
inductive Staged where
  | write (space addr : Nat) (bytes : List Byte)
  | emit (code : Nat) (g : List Nat)
  | remove (r : Nat)
deriving DecidableEq, Repr

/-- What a context is doing. -/
inductive CtxPhase where
  | free | ready | waiting | committing | suspended | refetch
deriving DecidableEq, Repr

/-- A claim of a routine: its number, and the record it gave once it answered OK. -/
structure Held where
  id : Nat
  r : Option Nat := none
  /-- A COMMIT has made the record ACTIVE. -/
  live : Bool := false
deriving DecidableEq, Repr

/-- The identity a standard setup works with for its reply record (R183, R219): block, LO side, zone. -/
structure Reply where
  block : List Byte := []
  srcLow : Bool := false
  zone : Nat := 0
  /-- ADDR and L4 of the original record. -/
  addr : Nat := 0
  l4 : Nat := 0
deriving DecidableEq, Repr

/-- A context of a sequencer and the routine it runs (R233, R247 to R251). -/
structure Ctx where
  phase : CtxPhase := .free
  evt : Nat := 0
  uaddr : Nat := 0
  /-- The microword last issued. -/
  last : Nat := 0
  /-- Microwords are fetched; otherwise the standard routine of R255 advances by its steps (log entry 40). -/
  micro : Bool := false
  w : BitVec 1024 := 0
  x : BitVec 1024 := 0
  g : SMap Nat := []
  z : Bool := false
  c : Bool := false
  n : Bool := false
  v : Bool := false
  stack : List Nat := []
  stage : List Staged := []
  /-- Claims of W and X, and the record fetched into X. -/
  wClaim : Option Held := none
  /-- How the claim of W was answered (R89, EXISTS 13). -/
  wCode : Option Nat := none
  xClaim : Option Held := none
  fetched : Option Nat := none
  locks : List Nat := []
  ops : List MemOp := []
  /-- Balancer slots that the routine has read, 4096 · pool + slot: the member each held, + 1 (R346). -/
  slots : SMap Nat := []
  unread : Nat := 0
  status : Nat := 0
  result : Nat := 0
  /-- The wait condition, whether it has been satisfied, the epoch at which it began. -/
  cond : Nat := 0
  satisfied : Bool := false
  waitEp : Nat := 0
  /-- Time-base count at which the timer expires, and whether it has. -/
  timer : Option Nat := none
  fired : Bool := false
  /-- Steps since the start or the last CKPT, and since state was first made visible after it. -/
  steps : Nat := 0
  visSteps : Nat := 0
  /-- `counted` at the first visible effect since the last CKPT (R249). -/
  visAt : Option Nat := none
  /-- State has been made visible since the routine started. -/
  visible : Bool := false
  /-- The COMMIT in progress is a CKPT; what follows it: 0 the next microword, 1 END, 2 + reason ABORT. -/
  ckpt : Bool := false
  fin : Nat := 0
  image : Nat := 0
  dStop : Bool := false
  dUrgent : Bool := false
  dCommit : Bool := false
  /-- The creating packet of a SETUP. -/
  pass : Option Pass := none
  data : List Nat := []
  /-- Progress of a standard routine. -/
  rt : Nat := 0
  /-- Blocks whose FLOWS this routine has raised (R219). -/
  natBlocks : List Nat := []
  /-- The present block of R219, by its place among the subscriber's, tries made and ports passed over in it. -/
  blockAt : Nat := 0
  tries : Nat := 0
  skips : Nat := 0
  reply : Reply := {}
  member : Nat := 0
  natPort : Nat := 0
deriving DecidableEq, Repr

/-- An event of the global Pip (R235). -/
structure Event where
  evt : Nat
  data : List Nat := []
deriving DecidableEq, Repr

/-- A patch image that has been checked and waits to be installed (R262). -/
structure Image where
  version : Nat
  regs : List (BitVec 32)
  words : List (BitVec 24)
  nano : List (BitVec 192)
deriving DecidableEq, Repr

/-- The nine sequencers. -/
structure Pip where
  /-- Contexts: 32 · sequencer + context. -/
  ctx : SMap Ctx := []
  /-- The contexts that issued the last three microwords of a sequencer, newest first (R234). -/
  recent : SMap (List Nat) := []
  evq : List Event := []
  /-- Banks: (2 · sequencer + bank) · 512 + index, · 32 for match registers. -/
  patch : SMap (BitVec 24) := []
  nano : SMap (BitVec 192) := []
  mtch : SMap (BitVec 32) := []
  version : SMap Nat := []
  /-- PIP_LOAD_LEN at GO + 1 of a load in progress (0: none), and a checked image that waits (R261, R262). -/
  loading : SMap Nat := []
  image : SMap (Option Image) := []
  /-- Nano-words that the boot image supplied: 4096 · kind + index (R502, R508). -/
  bootNano : SMap (Option (BitVec 192)) := []
  /-- Nano-words lost in both copies: 4096 · sequencer + index (R259). -/
  lost : SMap Bool := []
  /-- Device locks: holder + 1 (32 · sequencer + context). -/
  lock : SMap Nat := []
deriving DecidableEq, Repr

/-! ### Cascade (R445 to R470) -/

/-- What the cascade keeps beside the CSC page. -/
structure Csc where
  /-- Links whose peer is not as R446 wants it: they carry CONTROL frames only. -/
  mism : BitVec 4 := 0
  /-- Good frames received on a link and not yet acted on, oldest first: time of receipt in ns, and the frame (R449). -/
  rx : SMap (List (Nat × List Byte)) := []
  /-- When a link has sent what it was given, in units of a fiftieth of `counted`: a byte at 400 Gb/s (R468). -/
  free : SMap Nat := []
  /-- `counted` + 1 at the last HELLO of a device. -/
  hello : SMap Nat := []
  /-- `counted` + 1 at the last TIME. -/
  timeAt : Nat := 0
  /-- By link: the master's transmit time of the last TIME that came from it directly, and its receipt here, in ns. -/
  t1 : SMap Nat := []
  t2 : SMap Nat := []
  /-- Transmit time of the last DELAY_REQ of a link. -/
  t3 : SMap Nat := []
  /-- Consecutive TIME messages within 8 ns. -/
  near : Nat := 0
  /-- The first step or lock has loaded the epoch number and K. -/
  adopted : Bool := false
  /-- TIME, PREPARE and DECIDE already acted on: originator, code and content. -/
  seen : List (List Byte) := []
  /-- The epoch of the last cascade commit made. -/
  lastCommit : Nat := 0
  /-- The cascade commit in progress: its target, and on the master whether DECIDE has been sent, with its answer. -/
  target : Option Nat := none
  decided : Option Bool := none
  /-- On a member: the epoch it answered PREPARED for, and the DECIDE received. -/
  prepared : Option Nat := none
  verdict : Option (Nat × Bool) := none
  /-- A member has met a target's boundary without a DECIDE (R459). -/
  passed : Option Nat := none
  /-- A commit missed under R459, to be made at the next boundary. -/
  late : Bool := false
  /-- The master is lost, or hands back, at the next boundary. -/
  lost : Bool := false
  handback : Bool := false
  /-- `counted` + 1 when the first link came up (R461). -/
  firstUp : Nat := 0
  /-- The last RMT_REQ: its tag, whether it is a write, whether a response is awaited, and `counted` when it was sent. -/
  rmtTag : Nat := 0
  rmtWrite : Bool := false
  rmtWait : Bool := false
  rmtAt : Nat := 0
deriving DecidableEq, Repr

/-! ### The ledger (R372 to R401) -/

/-- An account in Quince's accumulator (R377): pending packets, bytes and final rolls of a parity. -/
structure QAcc where
  acct : Nat
  par : Nat
  pkts : Nat := 0
  bytes : Nat := 0
  ended : Nat := 0
  loss : Bool := false
deriving DecidableEq, Repr

/-- Where a sweep roll stands (R378). -/
inductive SweepStage where
  | cold | written
deriving DecidableEq, Repr

/-- The sweep roll in progress: record and the hot half it read. -/
structure Sweep where
  r : Nat
  hot : Line
  stage : SweepStage := .cold
deriving DecidableEq, Repr

/-- What every block of a close says (R387). -/
structure CloseHead where
  kind : Nat := 0
  flags : Nat := 0
  keyId : Nat := 0
  num : Nat := 0
  firstEpoch : Nat := 0
  lastEpoch : Nat := 0
  openNs : Nat := 0
  closeNs : Nat := 0
  l : Nat := 0
  locks : Nat := 0
  deferred : Nat := 0
  lostRec : Nat := 0
  lostAcct : Nat := 0
  gapNs : Nat := 0
  aliveNs : Nat := 0
  gen : Nat := 0
deriving DecidableEq, Repr

/-- A close in progress: its accounts still to be visited, and the block being filled. -/
structure Close where
  head : CloseHead
  todo : List Nat
  blocks : Nat
  index : Nat := 0
  entries : List (List Byte) := []
deriving DecidableEq, Repr

/-- A block of the ledger: its bytes without the tag, the tag once computed, whether its head is persisted, segments done. -/
structure QBlock where
  seq : Nat
  bytes : List Byte
  last : Bool
  index : Nat
  head : CloseHead
  tag : Option Nat := none
  persisted : Bool := false
  segs : Nat := 0
deriving DecidableEq, Repr

/-- A ledger key: its identifier, its wrapped form, and the key. -/
structure QKey where
  id : Nat
  wrapped : List Byte
  key : BitVec 256
deriving DecidableEq, Repr


/-- The Quince agent. -/
structure Qnc where
  map : SMap (BitVec 4) := []
  /-- Oldest added first. -/
  acc : List QAcc := []
  /-- Touched bitmaps: 2^22 · parity + account. -/
  touched : SMap Bool := []
  sweepPos : Nat := 0
  sweepStart : Nat := 0
  /-- Duration of the last completed sweep pass, in ns. -/
  passNs : Nat := 0
  sweep : Option Sweep := none
  close : Option Close := none
  /-- Blocks not yet on the ring, in SEQ order. -/
  blocks : List QBlock := []
  key : Option QKey := none
  pend : Option QKey := none
  /-- A LOAD in progress: KEY_ID and wrapped key. -/
  load : Option (Nat × List Byte) := none
  prevTag : Nat := 0
  /-- A block has ever been emitted (R392). -/
  started : Bool := false
  /-- The head of a started chain found at boot, with the alive time and the UNTIMED_RUN record found then (R398). -/
  boot : Option QHead := none
  bootAlive : Nat := 0
  bootUntimed : Bool := false
  /-- The time base when closes were last looked for. -/
  lookNs : Nat := 0
  /-- QNC_KEY_WRAPn and QNC_KEY_NEW_ID. -/
  wrap : SMap W32 := []
  newId : Nat := 0
  /-- The run's first close is still to come. -/
  first : Bool := true
  openNs : Nat := 0
  firstEpoch : Nat := 0
  /-- L in force at the last close. -/
  lForce : Nat := 30
  /-- What the open period will report. -/
  deferred : Nat := 0
  lostRec : Nat := 0
  lostAcct : Nat := 0
  timeStep : Bool := false
  directTx : Bool := false
deriving DecidableEq, Repr

/-! ### The cipher engine (R402 to R425) -/

/-- A key LOAD in progress, with what it was given (R410): KEY_CFG fields, label, generation, starting counter, key data, and
the key state before it. -/
structure CLoad where
  src : Nat
  mode : Nat
  size : Nat
  label : Nat
  gen : Nat
  init : Nat
  data : List Byte
  old : Nat
deriving DecidableEq, Repr

/-- An open message (R415): its operation, key and IV; the GHASH or CMAC chaining value, the counter block, the tag mask, bytes of
AAD and data so far, and the CMAC bytes that wait to know whether they are the last. -/
structure CMsg where
  op : Nat
  mode : Nat
  key : List Byte
  iv : Nat
  y : Nat := 0
  ctr : Nat := 0
  mask : Option Nat := none
  aad : Nat := 0
  data : Nat := 0
  hold : List Byte := []
deriving DecidableEq, Repr

/-- A running part (R404, R415): bytes of its AAD and data taken so far, and the chaining state of a key wrap. -/
structure CJob where
  aad : Nat := 0
  data : Nat := 0
  kw : Option (Nat × List Nat) := none
  step : Nat := 0
deriving DecidableEq, Repr

/-- What a user page keeps beside its registers: the key and the mode it serves, key data words, LOAD, message, part. -/
structure CPage where
  key : Option (List Byte) := none
  mode : Nat := 0
  data : SMap W32 := []
  load : Option CLoad := none
  msg : Option CMsg := none
  job : Option CJob := none
deriving DecidableEq, Repr

/-- The cipher engine: engines hold 0 when free, n + 1 for user page n, 65 for the Quince context. -/
structure Cph where
  page : SMap CPage := []
  engine : SMap Nat := []
  /-- The page granted last. -/
  rr : Nat := 63
  bootKey : List Byte := []
deriving DecidableEq, Repr

/-- A firmware load (R487): its first phase (reading and checking) or its second, the slot it programs, RAS_FW_LEN as LOAD found it
(R486), and the image. -/
structure FwLoad where
  second : Bool := false
  slot : Nat := 0
  len : Nat := 0
  image : List Byte := []
deriving DecidableEq, Repr

/-- Where the management core stands (R488, R489): nothing awaited; waiting for YIELD; halted; the new image running without
ALIVE, after a handover or after boot. -/
inductive FwStage where
  | idle | yield | halted | warm | boot
deriving DecidableEq, Repr

/-- Management firmware (R486 to R492). -/
structure Fw where
  load : Option FwLoad := none
  stage : FwStage := .idle
  /-- The slot being started, the one before it, and `counted` at the last transition. -/
  next : Nat := 0
  prev : Nat := 0
  since : Nat := 0
  /-- Security version of the running image. -/
  svn : Nat := 0
  /-- An ALIVE has been written since the boot (R505). -/
  alive : Bool := false
  /-- The image booted, from step 3 to step 7 (R502). -/
  image : List Byte := []
  /-- `counted` at the last KICK or start (R491). -/
  kick : Nat := 0
deriving DecidableEq, Repr

/-- The device: the queue of waiting commands and everything the spec gives the machine. -/
structure State where
  pending : List Instr := []
  io : Io := {}
  buf : Buf := {}
  fwd : Fwd := {}
  fmc : Fmc := {}
  flow : Flow := {}
  act : Act := {}
  tel : Tel := {}
  policy : Policy := {}
  pip : Pip := {}
  csc : Csc := {}
  qnc : Qnc := {}
  cph : Cph := {}
  fw : Fw := {}
  /-- The command of each queue that waits, or has started and waits on another unit. -/
  jobs : SMap (Option CmdJob) := []
deriving DecidableEq, Repr

/-- The device right after power-on reset release: every field at its reset value (R498). -/
def State.reset : State := {}

/-- Why a command's meaning stops with a fault.  The block has no such case: every command the spec lists has an effect or
leaves the state as it is (log entry 2). -/
inductive Fault where
  /-- Raised by no meaning; safe. -/
  | none
deriving DecidableEq, Repr

/-- Why a command is refused. -/
inductive Refusal where
  /-- Raised only by an arm of `exec` whose meaning has not been written; safe: it proves nothing of the command. -/
  | notModelled (mnemonic : String)
deriving DecidableEq, Repr

end Sys2Proof.Machine
end

