-- ==== Sys2Proof/Machine/Ops.lean ====
section
/-!
DEFINITION. The named operations every page shares, over the register file `Io`: reading and writing fields, counters, error
capture, interrupts, device-produced ring records, error records, and the generic register access of R7 to R13.
-/
namespace Sys2Proof.Machine

/-! ### The register file -/

/-- The reset value of the 32-bit word at a BAR0 offset: the register map's, with the values that depend on the index. -/
def resetWord (a : Nat) : W32 :=
  match pageOf a with
  | none => 0
  | some pg =>
    match pg.kind.regAt (a - pg.base) with
    | none => 0
    | some h =>
      let w : Nat := (h.row.reset >>> (32 * h.word)) % 2 ^ 32
      let o := a - pg.base
      if o = 0x000 then BitVec.ofNat 32 (pg.code * 2 ^ 16 + pg.inst % 256 * 2 ^ 8 + 1)
      else if pg.kind = .ring ∧ o = 0x014 then 1#32
      else if pg.kind = .ftr ∧ (h.row.off = 0x040 ∨ h.row.off = 0x060) then
        (if h.i = 0 then (if h.row.off = 0x040 then 0xFFFF#32 else 1#32) else 0#32)
      else if pg.kind = .tmbp ∧ h.row.off = 0x040 then BitVec.ofNat 32 (setBitsOf w 28 3 h.i)
      else if pg.kind = .sys ∧ o = 0x1C0 then 750#32
      else BitVec.ofNat 32 w

/-- The stored word at `a`, RWS bits aside. -/
def Io.rd (s : Io) (a : Nat) : W32 := s.regs.get (resetWord a) a

/-- Store the word at `a`. -/
def Io.wr (s : Io) (a : Nat) (v : W32) : Io := { s with regs := s.regs.set (resetWord a) a v }

/-- Copy `b` (0 A, 1 B) of the RWS bits of the word at `a`. -/
def Io.bk (s : Io) (a b : Nat) : W32 := s.bank.get (resetWord a) (2 * a + b)

/-- Store copy `b` of the RWS bits of the word at `a`. -/
def Io.bkSet (s : Io) (a b : Nat) (v : W32) : Io := { s with bank := s.bank.set (resetWord a) (2 * a + b) v }

/-- The active bank of a page: PG_SHADOW_CTL.ACTIVE_BANK (R61). -/
def Io.active (s : Io) (base : Nat) : Nat := gb (s.rd (base + 0x24)) 2 1

/-- A two-word register. -/
def Io.rd64 (s : Io) (a : Nat) : Nat := (s.rd a).toNat + (s.rd (a + 4)).toNat * 2 ^ 32

/-- Store a two-word register. -/
def Io.wr64 (s : Io) (a v : Nat) : Io :=
  (s.wr a (BitVec.ofNat 32 v)).wr (a + 4) (BitVec.ofNat 32 (v >>> 32))

/-- Field `f`, element `i`, of the page at `base`: for an RWS field the active copy. -/
def Io.get (s : Io) (base : Nat) (f : Fld) (i : Nat := 0) : Nat :=
  let a := base + f.off + f.stride * i
  if f.rws then gb (s.bk a (s.active base)) f.lo f.len
  else if f.lo + f.len ≤ 32 then gb (s.rd a) f.lo f.len
  else bitsOf (s.rd64 a) f.lo f.len

/-- The pending copy of an RWS field (R47). -/
def Io.getPending (s : Io) (base : Nat) (f : Fld) (i : Nat := 0) : Nat :=
  gb (s.bk (base + f.off + f.stride * i) (1 - s.active base)) f.lo f.len

/-- The device writes field `f`, element `i`: for an RWS field, the active copy. -/
def Io.put (s : Io) (base : Nat) (f : Fld) (v : Nat) (i : Nat := 0) : Io :=
  let a := base + f.off + f.stride * i
  if f.rws then
    let b := s.active base
    s.bkSet a b (sb (s.bk a b) f.lo f.len v)
  else if f.lo + f.len ≤ 32 then s.wr a (sb (s.rd a) f.lo f.len v)
  else s.wr64 a (setBitsOf (s.rd64 a) f.lo f.len v)

/-- The device writes copy `b` of an RWS field. -/
def Io.putBank (s : Io) (base : Nat) (f : Fld) (b v : Nat) (i : Nat := 0) : Io :=
  let a := base + f.off + f.stride * i
  s.bkSet a b (sb (s.bk a b) f.lo f.len v)

/-- A one-bit field as a Boolean. -/
def Io.flag (s : Io) (base : Nat) (f : Fld) (i : Nat := 0) : Bool := s.get base f i = 1

/-- Add `n` to field `f`, wrapping in its width (R357). -/
def Io.bump (s : Io) (base : Nat) (f : Fld) (n : Nat := 1) (i : Nat := 0) : Io :=
  s.put base f (s.get base f i + n) i

/-- Add `n` to field `f`, saturating at its width. -/
def Io.bumpSat (s : Io) (base : Nat) (f : Fld) (n : Nat := 1) (i : Nat := 0) : Io :=
  s.put base f (min (2 ^ f.len - 1) (s.get base f i + n)) i

/-- Raise field `f` to `v` if `v` is larger. -/
def Io.maxTo (s : Io) (base : Nat) (f : Fld) (v : Nat) (i : Nat := 0) : Io :=
  if s.get base f i < v then s.put base f (min (2 ^ f.len - 1) v) i else s

/-- Feature bit `j` is in force (R93). -/
def Io.feature (s : Io) (j : Nat) : Bool := tb (s.rd (pgFtr + 0x060 + 4 * (j / 32))) (j % 32)

/-- Draw a free value: the spec leaves this value open. -/
def Io.draw (s : Io) : Nat × Io := (Config.freeValue s.free, { s with free := s.free + 1 })

/-- Append an output. -/
def Io.emit (s : Io) (o : Out) : Io := { s with out := o :: s.out }

/-- The boot step running, 8 once READY (R513). -/
def Io.step (s : Io) : Nat := s.get pgSys SYS_BOOT_STAT.STEP

/-- SYS PG_STAT.READY (R503). -/
def Io.sysReady (s : Io) : Bool := s.step = 8

/-- PG_STAT.READY of a page: HIF, SYS, FTR and RAS from the end of step 2, the rest from the end of step 7 (R502). -/
def Io.ready (s : Io) (k : Kind) : Bool :=
  match k with
  | .sys | .ftr | .ras | .hif | .ring => 3 ≤ s.step
  | .rsv => 3 ≤ s.step
  | _ => s.step = 8

/-! ### Interrupts (R69, R72, R73) -/

/-- The pages of summary source `n` below 32, in address order (R72). -/
def sourcePages (n : Nat) : List Nat :=
  match n with
  | 0 => [pgSys] | 1 => [pgClk] | 2 => [pgEpc] | 3 => [pgFtr] | 4 => [pgHif]
  | 5 => pgMbx :: (List.range 16).map pgMbxCh
  | 6 => pgCph :: (List.range 64).map pgCphU
  | 7 => [pgQnc] | 8 => [pgPmc] | 9 => [pgRas] | 10 => [pgCsc]
  | 11 => (List.range 16).map (pgFmc 0) | 12 => (List.range 16).map (pgFmc 1)
  | 13 => (List.range 16).map (pgFmc 2) | 14 => (List.range 16).map (pgFmc 3)
  | 15 => (List.range 129).map fun i => pgTmb + i * 0x1000
  | 16 => (List.range 129).map fun i => pgSch + i * 0x1000
  | 17 => (List.range 129).map fun i => pgShp + i * 0x1000
  | 18 => (List.range 129).map fun i => pgTgt + i * 0x1000
  | 19 => (List.range 32).map fun i => pgEth 0 i
  | 20 => (List.range 32).map fun i => pgEth 8 i
  | 21 => (List.range 32).map fun i => pgEth 16 i
  | 22 => (List.range 32).map fun i => pgEth 24 i
  | 23 => [pgPip 8]
  | n =>
    let p := n - 24
    [pgPrs p, pgCls p, pgL2t p] ++ (if p % 2 = 0 then [pgLpm p] else []) ++
      [pgFlw p, pgAct p, pgPip p, pgTel p, pgPmcL p]

/-- The page has a set cause that is enabled. -/
def Io.pageIrq (s : Io) (base : Nat) : Bool := (s.rd (base + 0x10) &&& s.rd (base + 0x14)) != 0

/-- The rings of summary source 32 + v (R72, R81). -/
def Io.sourceRings (s : Io) (n : Nat) : List Nat :=
  (List.range 60).filter fun r => s.get (pgRing r) RING_CTL.VEC + 32 = n

/-- Bit `n` of SYS_IRQ_SUMMARY (R72). -/
def Io.summary (s : Io) (n : Nat) : Bool :=
  if n < 32 then (sourcePages n).any s.pageIrq
  else (List.range 60).any fun r => s.pageIrq (pgRing r) && (s.get (pgRing r) RING_CTL.VEC + 32 == n)

/-- The whole of SYS_IRQ_SUMMARY. -/
def Io.summaryWord (s : Io) : Nat :=
  (List.range 64).foldl (fun a n => a + b2n (s.summary n) * 2 ^ n) 0

/-- Bit `n` of SYS_IRQ_SUMMARY & SYS_IRQ_EN, the level whose rising edge sends message `n` (R73). -/
def Io.level (s : Io) (n : Nat) : Bool :=
  (s.rd64 (pgSys + 0x050)).testBit n && s.summary n

/-- The device may issue requests to host memory: the link is up in D0 and Bus Master Enable is 1 (R62, R64). -/
def Io.mayDma (s : Io) : Bool := s.pcie.linkUp && s.pcie.bme && !s.pcie.d3hot

/-- The message of vector `n`, from its entry of the MSI-X table. -/
def Io.msixOut (s : Io) (n : Nat) : Out := .msix n (s.pcie.vecAddr.get 0 n) (s.pcie.vecData.get 0 n)

/-- The function may send MSI-X messages (R73). -/
def Io.mayMsix (s : Io) : Bool := s.mayDma && s.pcie.msixEn && !s.pcie.funcMask && s.pcie.perstLow == false

/-- Message `n` falls due: it is sent, or its Pending Bit is set while the vector is masked or the function may not send. -/
def Io.msix (s : Io) (n : Nat) : Io :=
  if s.mayMsix && !(tb s.pcie.vecMask n) then s.emit (s.msixOut n)
  else { s with pcie := { s.pcie with pend := s.pcie.pend ||| BitVec.ofNat 64 (2 ^ n) } }

/-- Pending messages that may now be sent are sent if their level is still 1, else their Pending Bit clears (R73). -/
def Io.flushPend (s : Io) : Io :=
  (List.range 64).foldl (fun s n =>
    if tb s.pcie.pend n && s.mayMsix && !(tb s.pcie.vecMask n) then
      let s' := { s with pcie := { s.pcie with pend := s.pcie.pend &&& ~~~ (BitVec.ofNat 64 (2 ^ n)) } }
      if s.level n then s'.emit (s.msixOut n) else s'
    else s) s

/-- The summary source of a page (R72). -/
def Io.sourceOf (s : Io) (base : Nat) : Nat :=
  match pageOf base with
  | none => 64
  | some pg =>
    match pg.kind with
    | .sys => 0 | .clk => 1 | .epc => 2 | .ftr => 3 | .hif => 4
    | .mbxc => 5 | .mbxch => 5 | .cphc => 6 | .cphu => 6 | .qnc => 7 | .pmcg => 8 | .ras => 9 | .csc => 10
    | .fmc0 => 11 + (base - 0x0400000) / 0x10000
    | .fmcpc => 11 + (base - 0x0400000) / 0x10000
    | .fmc9 => 11 + (base - 0x0400000) / 0x10000
    | .fmc10 => 11 + (base - 0x0400000) / 0x10000
    | .fmc11 => 11 + (base - 0x0400000) / 0x10000
    | .rsv => if 0x0400000 ≤ base then 11 + (base - 0x0400000) / 0x10000 else 64
    | .tmb0 => 15 | .tmbp => 15 | .sch0 => 16 | .schp => 16 | .shp0 => 17 | .shpp => 17 | .tgt0 => 18 | .tgtp => 18
    | .eth0 => 19 + pg.idx / 8 | .eth1 => 19 + pg.idx / 8 | .eth2 => 19 + pg.idx / 8 | .eth3 => 19 + pg.idx / 8
    | .pip => if pg.idx = 8 then 23 else 24 + pg.idx
    | .ring => 32 + s.get base RING_CTL.VEC
    | .prs => 24 + pg.idx | .cls => 24 + pg.idx | .l2t => 24 + pg.idx | .lpm => 24 + pg.idx
    | .flw => 24 + pg.idx | .act => 24 + pg.idx | .tel => 24 + pg.idx | .pmcl => 24 + pg.idx

/-- Do `f`, and send message `n` if its level rose. -/
def Io.edge (s : Io) (n : Nat) (f : Io → Io) : Io :=
  let s' := f s
  if n < 64 && !(s.level n) && s'.level n then s'.msix n else s'

/-- Write PG_IRQ_STAT of a page, with the MSI-X edge that follows. -/
def Io.setIrqStat (s : Io) (base : Nat) (v : W32) : Io :=
  s.edge (s.sourceOf base) fun s => s.wr (base + 0x10) v

/-- The device sets causes `bits` of PG_IRQ_STAT (R69). -/
def Io.raiseBits (s : Io) (base bits : Nat) : Io :=
  s.setIrqStat base (s.rd (base + 0x10) ||| BitVec.ofNat 32 bits)

/-- The device sets cause `n` of PG_IRQ_STAT. -/
def Io.raise (s : Io) (base n : Nat) : Io := s.raiseBits base (2 ^ n)

/-- Cause `n` of a page is set. -/
def Io.cause (s : Io) (base n : Nat) : Bool := tb (s.rd (base + 0x10)) n

/-! ### Errors (R69, R70) -/

/-- Count an error in PG_ERR_CNT, saturating, and capture it when PG_ERR_CAP holds none (R69, R70). -/
def Io.err (s : Io) (base type master off : Nat) : Io :=
  let s := s.bumpSat base PG_ERR_CNT.COUNT
  if s.get base PG_ERR_CAP.VALID = 1 then s
  else s.wr (base + 0x1C) (BitVec.ofNat 32 (2 ^ 31 + type * 2 ^ 24 + master * 2 ^ 16 + off % 2 ^ 12))

/-! ### Counters (R356 to R361) -/

/-- The counters of policer `k` (SHP page 0 window, R332) lie outside BAR0, eight words apart from `polCtr k`. -/
def polCtr (k : Nat) : Nat := 0x4000000 + 32 * k

/-- The BAR0 offset a counter is reached at: the policer window's for a policer's own counter (R332). -/
def ctrBar (a : Nat) : Nat := if 0x4000000 ≤ a then pgShp + 0x058 + a % 32 else a

/-- Sticky overflow and its record when the counter at `a` wraps (R358). -/
def Io.wrapped (s : Io) (a : Nat) : Io :=
  let s := { s with sticky := s.sticky.set false a true }
  let s := s.bump pgPmc PMC_OVF_CNT.COUNT
  if s.get pgPmc PMC_OVF_FIRST.VALID = 1 then s
  else (s.wr (pgPmc + 0x060) (BitVec.ofNat 32 (2 ^ 31 + ctrBar a % 2 ^ 26))).raise pgPmc 0

/-- A 64-bit counter at `a` counts `n` (R356, R358). -/
def Io.ctrAt (s : Io) (a n : Nat) : Io :=
  let v := s.rd64 a + n
  let s' := s.wr64 a v
  if v < 2 ^ 64 then s' else s'.wrapped a

/-- The 64-bit counter `f`, element `i`, of a page counts `n`. -/
def Io.ctr (s : Io) (base : Nat) (f : Fld) (n : Nat := 1) (i : Nat := 0) : Io :=
  s.ctrAt (base + f.off + f.stride * i) n

/-- Add to the accumulator behind a window value (R367). -/
def Io.accAdd (s : Io) (base : Nat) (f : Fld) (n : Nat := 1) (i : Nat := 0) : Io :=
  let a := base + f.off + f.stride * i
  { s with acc := s.acc.set 0 a (s.acc.get 0 a + n) }

/-- The BAR0 offset of the low word of a 64-bit counter? (R358, R360) -/
def isCounter (a : Nat) : Bool :=
  match pageOf a with
  | none => false
  | some pg =>
    match pg.kind.regAt (a - pg.base) with
    | none => false
    | some h => h.row.ctr && h.word == 0

/-- One occurrence of a filterable event (R362): its facts for the qualifiers of R363. -/
structure Evt where
  code : Nat
  n : Nat := 1
  master : Nat := 0
  unit : Nat := 0
  tc : Nat := 0
deriving DecidableEq, Repr

/-- The event passes the qualifier of filtered counter `f` of pipeline `p` (R363). -/
def Io.qualifies (s : Io) (p f : Nat) (e : Evt) : Bool :=
  let b := pgPmcL p
  let qval := s.get b PMC_FLT_CFGf.QVAL f
  let qmask := s.get b PMC_FLT_CFGf.QMASK f
  match s.get b PMC_FLT_CFGf.QUAL f with
  | 0 => true
  | 1 => if qval.testBit 0 then e.master == 0x11 else e.master != 0x11
  | 2 => (e.master &&& qmask) == (qval &&& qmask)
  | 3 => s.get b PMC_FLT_RANGEf.LO f ≤ e.unit && e.unit ≤ s.get b PMC_FLT_RANGEf.HI f
  | 4 => qmask.testBit e.tc
  | _ => false

/-- The filtered counters of pipeline `p` see an event (R363). -/
def Io.filtered (s : Io) (p : Nat) (e : Evt) : Io :=
  (List.range 16).foldl (fun s f =>
    if s.get (pgPmcL p) PMC_FLT_CFGf.EN f = 1 && s.get (pgPmcL p) PMC_FLT_CFGf.EVENT f == e.code && s.qualifies p f e
    then s.ctr (pgPmcL p) PMC_FLT_COUNTf.COUNT e.n f else s) s

/-- An event counted without filter by `f` of page `base`, and by the filtered counters (R362). -/
def Io.event (s : Io) (p base : Nat) (f : Fld) (e : Evt) : Io :=
  (s.ctr base f e.n).filtered p e

/-! ### Device-produced rings (R81, R82, R85, R86) -/

/-- Entries of ring `n`. -/
def Io.ringSize (s : Io) (n : Nat) : Nat := 2 ^ s.get (pgRing n) RING_SIZE.LOG2

/-- Host address of entry 0. -/
def Io.ringBase (s : Io) (n : Nat) : Nat := s.rd64 (pgRing n + 0x040)

/-- DMA is possible for ring `n`: enabled, link up, Bus Master Enable set, and its DMA_ERR bit clear, whoever set it; it goes on when the
bit is cleared (DESIGN CHOICE, log entry 77). -/
def Io.ringLive (s : Io) (n : Nat) : Bool :=
  s.get (pgRing n) RING_CTL.EN = 1 && s.cause (pgRing n) 2 == false && s.mayDma

/-- Set RING_STAT bits: PG_IRQ_STAT bits 3:0 of the ring page, which are the same bits (R81). -/
def Io.ringFlag (s : Io) (n bit : Nat) : Io := s.raise (pgRing n) bit

/-- The phase bit of the next entry the device writes (R82). -/
def Io.phase (s : Io) (n count : Nat) : Nat := 1 - bitsOf count (s.get (pgRing n) RING_SIZE.LOG2) 1

/-- One completion for the moderation of R81; `irq`: FLAGS[0] of a table command (R87). -/
def Io.complete (s : Io) (n : Nat) (irq : Bool := false) : Io :=
  if irq then ({ s with modCnt := s.modCnt.set 0 n 0 }).ringFlag n 0
  else if s.cause (pgRing n) 0 then s
  else
    let c := s.modCnt.get 0 n + 1
    let m := s.get (pgRing n) RING_CTL.MOD_CNT
    if m ≠ 0 ∧ m ≤ c then ({ s with modCnt := s.modCnt.set 0 n 0 }).ringFlag n 0
    else { s with modCnt := s.modCnt.set 0 n c }

/-- Used entries of a ring. -/
def Io.ringUsed (s : Io) (n : Nat) : Nat :=
  (s.get (pgRing n) RING_PROD.IDX + s.ringSize n - s.get (pgRing n) RING_CONS.IDX % s.ringSize n) % s.ringSize n

/-- A device-produced ring has room for `k` more entries (R81). -/
def Io.ringRoom (s : Io) (n k : Nat) : Bool := s.ringLive n && s.ringUsed n + k < s.ringSize n

/-- Byte 0 to 3 of entry `i` of a record of `k` entries (R85). -/
def entryHead (ph i k : Nat) : Nat := ph * 128 + (if i = 0 then 64 + k * 256 else 0)

/-- Write a record of 64 B entries to a device-produced ring that has room (R82, R85).  However many entries it has, it is one completion
(DESIGN CHOICE, log entry 77). -/
def Io.ringWrite (s : Io) (n : Nat) (es : List Line) : Io :=
  let k := es.length
  let c := s.wcount.get 0 n
  let s' := (es.zipIdx).foldl (fun s (e, i) =>
    let v := setBitsOf e.toNat 0 (if i = 0 then 32 else 8) (entryHead (s.phase n (c + i)) i k)
    s.emit (.dma (s.ringBase n + 64 * ((c + i) % s.ringSize n)) (bytesLE 64 v))) s
  let s' := { s' with wcount := s'.wcount.set 0 n (c + k) }
  let s' := s'.put (pgRing n) RING_PROD.IDX ((c + k) % s.ringSize n)
  s'.complete n

/-- Offer a record to a device-produced ring other than 32: written, or dropped with OVERRUN (R86). -/
def Io.ringPut (s : Io) (n : Nat) (es : List Line) : Io :=
  if s.ringRoom n es.length then s.ringWrite n es
  else (s.ringFlag n 1).bump (pgRing n) RING_DROP_CNT.COUNT

/-! ### Error records (R478 to R482) -/

/-- The time base seconds. -/
def Io.sec (s : Io) : Nat := s.time.ns / 1000000000

/-- The time base nanoseconds within the second. -/
def Io.nsec (s : Io) : Nat := s.time.ns % 1000000000

/-- The 64 B record of R479, bytes 0 to 3 left for the ring's entry header. -/
def rasRecord (sev code block unit suppressed seq nsec sec loc detail epoch : Nat) : Line :=
  BitVec.ofNat 512 (sev % 256 * 2 ^ 32 + code % 256 * 2 ^ 40 + block % 2 ^ 16 * 2 ^ 48 + unit % 256 * 2 ^ 64
    + suppressed % 2 ^ 16 * 2 ^ 80 + seq % 2 ^ 64 * 2 ^ 96 + nsec % 2 ^ 32 * 2 ^ 160 + sec % 2 ^ 48 * 2 ^ 192
    + loc % 2 ^ 64 * 2 ^ 256 + detail % 2 ^ 128 * 2 ^ 320 + epoch % 2 ^ 32 * 2 ^ 448)

/-- The key of R480: event code, block code and unit number. -/
def reportKey (pg : Page) (code : Nat) : Nat := 2 ^ 24 * code + 2 ^ 8 * pg.code + pg.inst % 256

/-- A severity 0 record: on ring 38 at once, or withheld while its key has had one within INTERVAL_MS (R480). -/
def Io.reportCorrected (s : Io) (key : Nat) (r : Line) : Io :=
  let gap := 1000000 * max 1 (s.get pgRas RAS_CE_CFG.INTERVAL_MS)
  let last := s.ras.last.get 0 key
  if last ≠ 0 ∧ s.time.counted + 1 < last + gap then
    ({ s with ras := { s.ras with withheld := s.ras.withheld.set 0 key (s.ras.withheld.get 0 key + 1) } }).ctr
      pgRas RAS_SUPPRESSED_CNT.COUNT
  else
    ({ s with ras := { s.ras with last := s.ras.last.set 0 key (s.time.counted + 1),
                                  withheld := s.ras.withheld.set 0 key 0 } }).ringPut 38 [r]

/-- The counter and cause of a severity (R495). -/
def Io.countSeverity (s : Io) (sev : Nat) : Io :=
  match sev with
  | 0 => s.ctr pgRas RAS_CE_CNT.COUNT
  | 1 => (s.ctr pgRas RAS_DEGRADED_CNT.COUNT).raise pgRas 1
  | 2 => (s.ctr pgRas RAS_LOST_CNT.COUNT).raise pgRas 2
  | _ => s

/-- A record of severity 1 or more waits for its log write (ERROR_LOG_WRITTEN, R482). -/
def Io.reportLogged (s : Io) (r : Line) : Io := { s with ras := { s.ras with toLog := s.ras.toLog ++ [r] } }

/-- Take the next record sequence number (R481). -/
def Io.nextSeq (s : Io) : Io := { s with nvm := { s.nvm with seq := s.nvm.seq + 1 } }

/-- Report an event: sequence number, counters, causes, and its record (R478 to R482).  Severity 0 is limited per key and
goes to ring 38 at once; the others wait for their log write (ERROR_LOG_WRITTEN). -/
def Io.report (s : Io) (sev code base loc detail : Nat) : Io :=
  match pageOf base with
  | none => s
  | some pg =>
    let key := reportKey pg code
    let r := rasRecord sev code pg.code pg.inst (min (s.ras.withheld.get 0 key) 0xFFFF) s.nvm.seq s.nsec s.sec loc detail
      (s.get pgEpc EPC_EPOCH_NUM.NUM)
    let s' := s.nextSeq.countSeverity sev
    if sev = 0 then s'.reportCorrected key r else s'.reportLogged r

/-! ### The generic register access (R7 to R13, R52, R57, R61, R69) -/

/-- RWS fields of a page have two banks now (R57). -/
def Io.banked (s : Io) (k : Kind) : Bool := k.banksAlways || s.feature 1

/-- Mask `m` of a register, the part in word `w`. -/
def wordMask (m w : Nat) : W32 := BitVec.ofNat 32 (m >>> (32 * w))

/-- The RWL part of a write: the new RWL bits and whether an error is counted (R9, R10). -/
def rwlWrite (old v mask : W32) (permitted : Bool) : W32 × Bool :=
  let reach := (old ^^^ v) &&& mask
  let lock := if permitted then reach &&& ~~~ old else 0#32
  (old ||| lock, decide ((reach &&& ~~~ lock) ≠ 0))

/-- Write a register word under its access types: RW, RWL, W1C to the word, RWS to the pending bank (or to both, R57).
`may` says whether the master may write the RWL fields of the register. -/
def Io.swWord (s : Io) (pg : Page) (h : Hit) (a m : Nat) (v : W32) (may : Bool := true) : Io :=
  let rw := wordMask h.row.rw h.word
  let rws := wordMask h.row.rws h.word
  let w1c := wordMask h.row.w1c h.word
  let rwl := wordMask h.row.rwl h.word
  let o := a - pg.base
  let old := s.rd a
  let (locked, bad) := rwlWrite old v rwl may
  let new := ((locked &&& ~~~ rw) ||| (v &&& rw)) &&& ~~~ (v &&& w1c)
  let s' := s.wr a new
  let s' := if (locked &&& rwl) ≠ (old &&& rwl) ∧ s.get pg.base PG_OWNER.LOCKED = 0
            then s'.wr (pg.base + 0x2C) (BitVec.ofNat 32 (256 + m)) else s'
  let s' := if bad then s'.err pg.base 1 m o else s'
  if rws = 0 then s'
  else if !(s.banked pg.kind) then
    let put := fun (s : Io) (b : Nat) => s.bkSet a b ((s.bk a b &&& ~~~ rws) ||| (v &&& rws))
    put (put s' 0) 1
  else if s.get pg.base PG_SHADOW_CTL.SHADOW_BUSY = 1 then
    (s'.put pg.base PG_SHADOW_CTL.WR_DROPPED 1).err pg.base 2 m o
  else
    let b := 1 - s.active pg.base
    s'.bkSet a b ((s.bk a b &&& ~~~ rws) ||| (v &&& rws))

/-- Read a register word as software sees it: WO and unlisted bits 0, RWS bits from the bank RD_SEL names (R7, R61). -/
def Io.swRead (s : Io) (pg : Page) (h : Hit) (a : Nat) : W32 :=
  let rws := wordMask h.row.rws h.word
  if rws = 0 then s.rd a
  else
    let b := if s.banked pg.kind && s.get pg.base PG_SHADOW_CTL.RD_SEL = 0 then 1 - s.active pg.base else s.active pg.base
    (s.rd a &&& ~~~ rws) ||| (s.bk a b &&& rws)

/-! ### The same over the whole state -/

/-- Act on the register file only. -/
def State.upIo (s : State) (f : Io → Io) : State := { s with io := f s.io }

/-- A change of the board, of the PCIe port. -/
def State.upSys (s : State) (f : Sys → Sys) : State := { s with io := { s.io with sys := f s.io.sys } }
def State.upPcie (s : State) (f : Pcie → Pcie) : State := { s with io := { s.io with pcie := f s.io.pcie } }

def State.get (s : State) (base : Nat) (f : Fld) (i : Nat := 0) : Nat := s.io.get base f i
def State.put (s : State) (base : Nat) (f : Fld) (v : Nat) (i : Nat := 0) : State := s.upIo (·.put base f v i)
def State.bump (s : State) (base : Nat) (f : Fld) (n : Nat := 1) (i : Nat := 0) : State := s.upIo (·.bump base f n i)
def State.ctr (s : State) (base : Nat) (f : Fld) (n : Nat := 1) (i : Nat := 0) : State := s.upIo (·.ctr base f n i)
def State.raise (s : State) (base n : Nat) : State := s.upIo (·.raise base n)
def State.err (s : State) (base type m off : Nat) : State := s.upIo (·.err base type m off)
def State.emit (s : State) (o : Out) : State := s.upIo (·.emit o)
def State.report (s : State) (sev code base loc detail : Nat) : State := s.upIo (·.report sev code base loc detail)
def State.feature (s : State) (j : Nat) : Bool := s.io.feature j

/-- Raise a cause that is raised by its first occurrence and again only after software has cleared it. -/
def State.raiseOnce (s : State) (base n : Nat) : State := if s.io.cause base n then s else s.raise base n

/-- Draw a free value: the spec leaves it open. -/
def State.draw (s : State) : Nat × State := (s.io.draw.1, s.upIo fun io => io.draw.2)

/-- The device runs: not held in reset and not stopped (R473, R496). -/
def State.on (s : State) : Bool := s.io.sys.phase == .running

/-- A meaning's outcome: the state `f` gives.  No command changes the queue. -/
def State.always (s : State) (f : State → State) : Host.Outcome State Fault Refusal :=
  .next { f s with pending := s.pending }

/-- A meaning's outcome: while the device runs, the state `f` gives; otherwise nothing happens.  No command changes the queue. -/
def State.live (s : State) (f : State → State) : Host.Outcome State Fault Refusal :=
  .next (if s.on then { f s with pending := s.pending } else s)

end Sys2Proof.Machine
end

