-- ==== Sys2Proof/Machine/Parser.lean ====
section
/-!
DEFINITION. The parser (R115 to R130): the fixed parse graph, the header vector, the symmetric hash, the length checks and
the malformed classes.
-/
namespace Sys2Proof.Machine

/-- What the parser finds in one layer. -/
structure Layer where
  l3 : Nat := 0
  l4 : Nat := 0
  src : Nat := 0
  dst : Nat := 0
  proto : Nat := 0
  ttl : Nat := 0
  tos : Nat := 0
  tcpf : Nat := 0
  sport : Nat := 0
  dport : Nat := 0
  frag : Bool := false
  /-- End of the IP payload of the layer. -/
  pend : Nat := 0
  vlans : Nat := 0
  exts : Nat := 0
  l4ok : Bool := false
  echo : Bool := false
  /-- Where the packet quoted by an ICMP error starts. -/
  err : Option Nat := none
deriving DecidableEq, Repr

/-- The settings the parser reads, from the bank of the packet's tag (R122, R131). -/
structure ParseCfg where
  altTpid : Option Nat
  vxlan : Nat
  geneve : Nat
  gtpu : Option Nat
  quoted : Bool
deriving DecidableEq, Repr

/-- The parse in progress. -/
structure Parse where
  d : List Byte
  /-- The frame's end: its length without the FCS. -/
  n : Nat
  out : Layer := {}
  inn : Layer := {}
  inner : Bool := false
  tunnel : Bool := false
  tunType : Nat := 0
  tunId : Nat := 0
  dmac : Nat := 0
  smac : Nat := 0
  tci1 : Nat := 0
  tci2 : Nat := 0
  mplsTop : Nat := 0
  mplsCnt : Nat := 0
  etype : Nat := 0
  etypeIdx : Nat := 0
  gtpExts : Nat := 0
  /-- End of what the outer headers leave for an inner packet (R127). -/
  lim : Nat := 0
  trim : Option Nat := none
  oL3o : Nat := 0xFF
  oL4o : Nat := 0xFF
  oTun : Nat := 0xFF
  oL2i : Nat := 0xFF
  oL3i : Nat := 0xFF
  oL4i : Nat := 0xFF
  oMpls : Nat := 0xFF
  oPay : Nat := 0xFF
  depth : Bool := false
  mal : Nat := 0
deriving DecidableEq, Repr

/-- The header the parse graph expects next (R115). -/
inductive Hd where
  | eth | vlan | mpls | ip4 | ip6 | ext (nh : Nat) | tcp | udp | icmp | gre | vxlan | geneve | gtpu | gtpExt (ty : Nat)
  | nibble
deriving DecidableEq, Repr

/-- How a header's parse ends. -/
inductive Hop where
  | go (h : Hd) (o : Nat)
  | pay (o : Nat)
  | depth (o : Nat)
  | mal (c : Nat)
deriving DecidableEq, Repr

/-- The parser's window: bytes 0 to 255 (R117). -/
def window : Nat := 256

def Parse.be (p : Parse) (o n : Nat) : Nat := beAt p.d o n

/-- The current layer. -/
def Parse.cur (p : Parse) : Layer := if p.inner then p.inn else p.out

def Parse.setCur (p : Parse) (l : Layer) : Parse := if p.inner then { p with inn := l } else { p with out := l }

/-- A fixed part of `len` bytes at `o` can be read: inside the window, then inside the frame (R117, R128). -/
def Parse.need (p : Parse) (o len : Nat) (k : Parse × Hop) : Parse × Hop :=
  if window - 1 < o ∨ window < o + len then (p, .depth o)
  else if p.n < o + len then (p, .mal 1)
  else k

/-- EtherType dispatch of Ethernet and of a tag (R115); MPLS in the outer layer only (R116). -/
def Parse.byEtype (p : Parse) (alt : Option Nat) (et o : Nat) : Parse × Hop :=
  let p := if p.inner then p else { p with etype := et, etypeIdx := p.out.vlans }
  if et = 0x8100 ∨ et = 0x88A8 ∨ alt = some et then (p, .go .vlan o)
  else if (et = 0x8847 ∨ et = 0x8848) ∧ p.inner = false then (p, .go .mpls o)
  else if et = 0x0800 then (p, .go .ip4 o)
  else if et = 0x86DD then (p, .go .ip6 o)
  else (p, .pay o)

def Parse.eth (p : Parse) (alt : Option Nat) (o : Nat) : Parse × Hop :=
  p.need o 14 <|
    let p := if p.inner then { p with oL2i := o, tunnel := true }
             else { p with dmac := p.be o 6, smac := p.be (o + 6) 6 }
    p.byEtype alt (p.be (o + 12) 2) (o + 14)

def Parse.vlan (p : Parse) (alt : Option Nat) (o : Nat) : Parse × Hop :=
  p.need o 4 <|
    let l := p.cur
    if l.vlans = 2 then (p, .mal 4)
    else
      let tci := p.be o 2
      let p := p.setCur { l with vlans := l.vlans + 1 }
      let p := if p.inner then p else if l.vlans = 0 then { p with tci1 := tci } else { p with tci2 := tci }
      p.byEtype alt (p.be (o + 2) 2) (o + 4)

def Parse.mpls (p : Parse) (o : Nat) : Parse × Hop :=
  p.need o 4 <|
    if p.mplsCnt = 4 then (p, .mal 4)
    else
      let p := if p.mplsCnt = 0 then { p with mplsTop := p.be o 4, oMpls := o } else p
      let p := { p with mplsCnt := p.mplsCnt + 1 }
      if p.be (o + 2) 1 % 2 = 0 then (p, .go .mpls (o + 4))
      else if window ≤ o + 4 then (p, .depth (o + 4))
      else if p.n ≤ o + 4 then (p, .pay (o + 4))
      else
        let nib := p.be (o + 4) 1 / 16
        if nib = 4 then (p, .go .ip4 (o + 4)) else if nib = 6 then (p, .go .ip6 (o + 4)) else (p, .pay (o + 4))

/-- The outer or inner IP length against its region: class 3 when longer, outer padding trimmed (R126, R127). -/
def Parse.ipLen (p : Parse) (o len : Nat) : Option Parse :=
  if p.inner then (if p.lim - o < len then none else some { p with lim := o + len })
  else if p.n - o < len then none
  else some { p with trim := if len < p.n - o then some (o + len) else p.trim, lim := o + len }

/-- Transport dispatch (R115). -/
def Parse.byProto (p : Parse) (v6 : Bool) (proto o : Nat) : Parse × Hop :=
  if proto = 6 then (p, .go .tcp o) else if proto = 17 then (p, .go .udp o)
  else if proto = 47 then (p, .go .gre o)
  else if (v6 = false ∧ proto = 1) ∨ (v6 = true ∧ proto = 58) then (p, .go .icmp o)
  else (p, .pay o)

/-- An IPv4 address as its IPv4-mapped IPv6 address (R121). -/
def mapped (a : Nat) : Nat := 0xFFFF * 2 ^ 32 + a

def Parse.enterL3 (p : Parse) (o : Nat) (l : Layer) : Parse :=
  let p := p.setCur l
  if p.inner then { p with oL3i := o, tunnel := true } else { p with oL3o := o }

def Parse.ip4 (p : Parse) (o : Nat) : Parse × Hop :=
  p.need o 20 <|
    let b0 := p.be o 1
    let ihl := 4 * (b0 % 16)
    let tl := p.be (o + 2) 2
    if o + ihl ≤ window ∧ p.n < o + ihl then (p, .mal 1)
    else if b0 / 16 ≠ 4 then (p, .mal 5)
    else if ihl < 20 ∨ tl < ihl then (p, .mal 2)
    else if window < o + ihl then (p, .mal 6)
    else
      match p.ipLen o tl with
      | none => (p, .mal 3)
      | some p =>
        let ff := p.be (o + 6) 2
        let p := p.enterL3 o { p.cur with l3 := 1, src := mapped (p.be (o + 12) 4), dst := mapped (p.be (o + 16) 4),
                                          proto := p.be (o + 9) 1, tos := p.be (o + 1) 1, ttl := p.be (o + 8) 1,
                                          frag := decide (ff % 0x4000 ≠ 0), pend := o + tl }
        if ff % 0x2000 ≠ 0 then (p, .pay (o + ihl)) else p.byProto false (p.be (o + 9) 1) (o + ihl)

/-- Next Header dispatch (R115). -/
def Parse.byNext (p : Parse) (nh o : Nat) : Parse × Hop :=
  if nh = 0 ∨ nh = 43 ∨ nh = 44 ∨ nh = 60 then (p, .go (.ext nh) o) else p.byProto true nh o

def Parse.ip6 (p : Parse) (o : Nat) : Parse × Hop :=
  p.need o 40 <|
    let pl := p.be (o + 4) 2
    let nh := p.be (o + 6) 1
    if p.be o 1 / 16 ≠ 6 then (p, .mal 5)
    else if pl = 0 ∧ nh ≠ 59 then (p, .mal 2)
    else
      match p.ipLen o (pl + 40) with
      | none => (p, .mal 3)
      | some p =>
        let p := p.enterL3 o { p.cur with l3 := 2, src := p.be (o + 8) 16, dst := p.be (o + 24) 16, proto := nh,
                                          tos := p.be o 2 / 16 % 256, ttl := p.be (o + 7) 1, frag := false,
                                          pend := o + 40 + pl }
        p.byNext nh (o + 40)

def Parse.ext (p : Parse) (nh o : Nat) : Parse × Hop :=
  p.need o 8 <|
    let len := if nh = 44 then 8 else 8 * (p.be (o + 1) 1 + 1)
    p.need o len <|
      let l := p.cur
      if l.pend < o + len then (p, .mal 2)
      else if l.exts = 2 then (p, .mal 4)
      else
        let p := p.setCur { l with exts := l.exts + 1, proto := p.be o 1, frag := l.frag || nh == 44 }
        if nh = 44 ∧ p.be (o + 2) 2 / 8 ≠ 0 then (p, .pay (o + len)) else p.byNext (p.be o 1) (o + len)

def Parse.enterL4 (p : Parse) (o : Nat) (l : Layer) : Parse :=
  let p := p.setCur { l with l4ok := true }
  if p.inner then { p with oL4i := o } else { p with oL4o := o }

def Parse.tcp (p : Parse) (o : Nat) : Parse × Hop :=
  p.need o 20 <|
    let len := 4 * (p.be (o + 12) 1 / 16)
    p.need o (max 20 len) <|
      if len < 20 ∨ p.cur.pend < o + len then (p, .mal 2)
      else (p.enterL4 o { p.cur with l4 := 1, sport := p.be o 2, dport := p.be (o + 2) 2, tcpf := p.be (o + 13) 1 },
            .pay (o + len))

def Parse.udp (p : Parse) (c : ParseCfg) (o : Nat) : Parse × Hop :=
  p.need o 8 <|
    let ul := p.be (o + 4) 2
    let l := p.cur
    if ul < 8 ∨ (l.frag = false ∧ l.pend < o + ul) then (p, .mal 2)
    else
      let dp := p.be (o + 2) 2
      let p := p.enterL4 o { l with l4 := 2, sport := p.be o 2, dport := dp }
      let p := { p with lim := min (o + ul) l.pend }
      if p.inner then (p, .pay (o + 8))
      else if dp = c.vxlan then (p, .go .vxlan (o + 8))
      else if dp = c.geneve then (p, .go .geneve (o + 8))
      else if c.gtpu = some dp then (p, .go .gtpu (o + 8))
      else (p, .pay (o + 8))

def Parse.icmp (p : Parse) (o : Nat) : Parse × Hop :=
  p.need o 8 <|
    let l := p.cur
    let t := p.be o 1
    let v6 := l.l3 = 2
    let echo := if v6 then t = 128 ∨ t = 129 else t = 8 ∨ t = 0
    let err := if v6 then 1 ≤ t ∧ t ≤ 4 else t = 3 ∨ t = 4 ∨ t = 5 ∨ t = 11 ∨ t = 12
    (p.enterL4 o { l with l4 := if v6 then 4 else 3, sport := p.be o 2, dport := if echo then p.be (o + 4) 2 else 0,
                          echo := decide echo, err := if err then some (o + 8) else none }, .pay (o + 8))

/-- Enter the inner layer: the payload type of GRE, VXLAN or GENEVE (R115, R116). -/
def Parse.enterInner (p : Parse) (pt o : Nat) : Parse × Hop :=
  let q := { p with inner := true }
  if pt = 0x6558 then (q, .go .eth o) else if pt = 0x0800 then (q, .go .ip4 o)
  else if pt = 0x86DD then (q, .go .ip6 o) else (p, .pay o)

/-- GRE: the fields its flags announce are part of it whatever its version (R117), and the routing bit makes it malformed (R120).
DESIGN CHOICE (log entry 71): with a version other than 0 the payload begins after those fields. -/
def Parse.gre (p : Parse) (o : Nat) : Parse × Hop :=
  if p.inner then (p, .pay o)
  else p.need o 4 <|
    let f := p.be o 1
    let c := b2n (f.testBit 7)
    let k := b2n (f.testBit 5)
    let len := 4 + 4 * c + 4 * k + 4 * b2n (f.testBit 4)
    p.need o len <|
      if f.testBit 6 then (p, .mal 2)
      else
        let p := p.enterL4 o { p.cur with l4 := 5 }
        if p.be (o + 1) 1 % 8 ≠ 0 then (p, .pay (o + len))
        else
          let p := { p with oTun := o, tunType := 1, tunId := if k = 1 then p.be (o + 4 + 4 * c) 4 else 0 }
          p.enterInner (p.be (o + 2) 2) (o + len)

def Parse.vxlan (p : Parse) (o : Nat) : Parse × Hop :=
  p.need o 8 <|
    let p := { p with oTun := o, tunType := 2, tunId := p.be (o + 4) 3, inner := true }
    (p, .go .eth (o + 8))

def Parse.geneve (p : Parse) (o : Nat) : Parse × Hop :=
  p.need o 8 <|
    let e := o + 8 + 4 * (p.be o 1 % 64)
    if e ≤ window ∧ p.n < e then (p, .mal 1)
    else if window < e ∨ o - 8 + p.be (o - 4) 2 < e then (p, .mal 2)
    else ({ p with oTun := o, tunType := 3, tunId := p.be (o + 4) 3 }).enterInner (p.be (o + 2) 2) e

/-- GTP-U: 8 B and the optional 4 B that E, S or PN announces (R117).  DESIGN CHOICE (log entry 71): the payload of a message that
is no G-PDU begins at the GTP-U header, and TYPE_TUN stays 0. -/
def Parse.gtpu (p : Parse) (o : Nat) : Parse × Hop :=
  p.need o 8 <|
    let b0 := p.be o 1
    let len := if b0 % 8 ≠ 0 then 12 else 8
    p.need o len <|
      if p.be (o + 1) 1 ≠ 255 then (p, .pay o)
      else if b0 / 32 ≠ 1 then (p, .mal 5)
      else if b0.testBit 4 = false then (p, .pay o)
      else
        if p.be (o + 2) 2 + 16 ≠ p.be (o - 4) 2 then (p, .mal 2)
        else
          let p := { p with oTun := o, tunType := 4, tunId := p.be (o + 4) 4 }
          let nt := p.be (o + 11) 1
          if b0.testBit 2 ∧ nt ≠ 0 then (p, .go (.gtpExt nt) (o + len))
          else ({ p with inner := true }, .go .nibble (o + len))

def Parse.gtpExt (p : Parse) (o : Nat) : Parse × Hop :=
  p.need o 1 <|
    let len := 4 * p.be o 1
    if len = 0 then (p, .mal 2)
    else p.need o len <|
      if p.gtpExts = 2 then (p, .mal 4)
      else
        let p := { p with gtpExts := p.gtpExts + 1 }
        let nt := p.be (o + len - 1) 1
        if nt ≠ 0 then (p, .go (.gtpExt nt) (o + len)) else ({ p with inner := true }, .go .nibble (o + len))

/-- Inner IP by first nibble (R115); neither 4 nor 6 is BAD_VERSION (R128). -/
def Parse.nibble (p : Parse) (o : Nat) : Parse × Hop :=
  p.need o 1 <|
    let nib := p.be o 1 / 16
    if nib = 4 then (p, .go .ip4 o) else if nib = 6 then (p, .go .ip6 o) else (p, .mal 5)

def Parse.header (p : Parse) (c : ParseCfg) (h : Hd) (o : Nat) : Parse × Hop :=
  match h with
  | .eth => p.eth c.altTpid o
  | .vlan => p.vlan c.altTpid o
  | .mpls => p.mpls o
  | .ip4 => p.ip4 o
  | .ip6 => p.ip6 o
  | .ext nh => p.ext nh o
  | .tcp => p.tcp o
  | .udp => p.udp c o
  | .icmp => p.icmp o
  | .gre => p.gre o
  | .vxlan => p.vxlan o
  | .geneve => p.geneve o
  | .gtpu => p.gtpu o
  | .gtpExt _ => p.gtpExt o
  | .nibble => p.nibble o

/-- An offset as the header vector holds it (R121). -/
def offB (o : Nat) : Nat := if o < 255 then o else 0xFF

/-- The offset of the payload: 0xFF when no byte of the frame, trimmed, is left for it (R121). -/
def Parse.payB (p : Parse) (o : Nat) : Nat := if o < p.trim.getD p.n then offB o else 0xFF

/-- Walk the parse graph; the limits of R116 bound the headers, so the fuel never runs out. -/
def Parse.walk (p : Parse) (c : ParseCfg) (h : Hd) (o : Nat) : Nat → Parse
  | 0 => p
  | n + 1 =>
    match p.header c h o with
    | (q, .go h' o') => q.walk c h' o' n
    | (q, .pay o') => { q with oPay := q.payB o' }
    | (q, .depth o') => { q with depth := true, oPay := q.payB o' }
    | (q, .mal k) => { q with mal := k }

/-- The endpoints of the hashed layer: addresses, ports, protocol, kind, fragment. -/
structure Ends where
  src : Nat
  dst : Nat
  sport : Nat
  dport : Nat
  proto : Nat
  kind : Nat
  frag : Bool
deriving DecidableEq, Repr

/-- Follow the extension headers of a quoted IPv6 packet within the limit of R116: final Next Header, its offset, fragment,
and whether the packet is a later fragment. -/
def quotedExts (d : List Byte) (nh o lim : Nat) (frag : Bool) : Nat → Option (Nat × Nat × Bool)
  | 0 => if nh = 0 ∨ nh = 43 ∨ nh = 44 ∨ nh = 60 then none else some (nh, o, frag)
  | n + 1 =>
    if nh = 0 ∨ nh = 43 ∨ nh = 44 ∨ nh = 60 then
      if lim < o + 8 then none
      else
        let len := if nh = 44 then 8 else 8 * (beAt d (o + 1) 1 + 1)
        if lim < o + len then none
        else if nh = 44 ∧ beAt d (o + 2) 2 / 8 ≠ 0 then some (beAt d o 1, o + len, true)
        else quotedExts d (beAt d o 1) (o + len) lim (frag || nh == 44) n
    else some (nh, o, frag)

/-- Ports of a quoted packet: TCP and UDP ports, ICMP echo identifiers, else 0; the first 4 B after its headers must lie
within the window (R123).  DESIGN CHOICE (log entry 71): an echo whose identifier lies beyond the window is hashed as other ICMP. -/
def quotedPorts (d : List Byte) (v6 : Bool) (proto o lim : Nat) (frag : Bool) : Option (Nat × Nat) :=
  if lim < o + 4 then none
  else if frag then some (0, 0)
  else if proto = 6 ∨ proto = 17 then some (beAt d o 2, beAt d (o + 2) 2)
  else
    let t := beAt d o 1
    let echo := (v6 = false ∧ proto = 1 ∧ (t = 8 ∨ t = 0)) ∨ (v6 = true ∧ proto = 58 ∧ (t = 128 ∨ t = 129))
    if echo then (if lim < o + 6 then none else some (beAt d (o + 4) 2, beAt d (o + 4) 2)) else some (0, 0)

/-- The endpoints of the packet an ICMP error quotes, when its headers lie within the window (R123). -/
def quotedEnds (d : List Byte) (v6 : Bool) (o lim : Nat) : Option Ends :=
  if v6 then
    if lim < o + 40 ∨ beAt d o 1 / 16 ≠ 6 then none
    else
      match quotedExts d (beAt d (o + 6) 1) (o + 40) lim false 2 with
      | none => none
      | some (pr, q, fr) =>
        match quotedPorts d true pr q lim fr with
        | none => none
        | some (a, b) => some ⟨beAt d (o + 8) 16, beAt d (o + 24) 16, a, b, pr, 1, fr⟩
  else
    if lim < o + 20 ∨ beAt d o 1 / 16 ≠ 4 ∨ beAt d o 1 % 16 < 5 then none
    else
      let q := o + 4 * (beAt d o 1 % 16)
      let fr := decide (beAt d (o + 6) 2 % 0x4000 ≠ 0)
      let pr := beAt d (o + 9) 1
      match quotedPorts d false pr q lim fr with
      | none => none
      | some (a, b) => some ⟨mapped (beAt d (o + 12) 4), mapped (beAt d (o + 16) 4), a, b, pr, 0, fr⟩

/-- The L2 kind of R123. -/
def Parse.l2Ends (p : Parse) : Ends := ⟨p.smac, p.dmac, p.etype, p.etype, 0, 2, false⟩

/-- The endpoints of an IP layer, and whether a quoted packet gave them. -/
def Parse.ipEnds (p : Parse) (c : ParseCfg) (l : Layer) : Ends × Bool :=
  let base : Ends := ⟨l.src, l.dst, 0, 0, l.proto, l.l3 - 1, l.frag⟩
  if l.frag ∨ l.l4ok = false then (base, false)
  else if l.l4 = 1 ∨ l.l4 = 2 then ({ base with sport := l.sport, dport := l.dport }, false)
  else if l.echo then ({ base with sport := l.dport, dport := l.dport }, false)
  else
    match l.err with
    | none => (base, false)
    | some o =>
      if c.quoted then
        match quotedEnds p.d (l.l3 == 2) o (min window p.n) with
        | none => (base, false)
        | some e => (e, true)
      else (base, false)

/-- The hashed layer and its endpoints (R123 steps 1 and 2); `hl`: 0 OUTER, 1 INNER, 2 L2.  The last component: the inner
layer was hashed. -/
def Parse.ends (p : Parse) (c : ParseCfg) (hl : Nat) : Ends × Bool × Bool :=
  if p.mal ≠ 0 ∨ hl = 2 then (p.l2Ends, false, false)
  else if hl = 1 ∧ p.inn.l3 ≠ 0 then
    let (e, q) := p.ipEnds c p.inn
    (e, q, true)
  else if p.out.l3 ≠ 0 then
    let (e, q) := p.ipEnds c p.out
    (e, q, false)
  else (p.l2Ends, false, false)

/-- Source ≤ destination as 144-bit numbers: the source is LO (R123 step 3). -/
def Ends.srcLow (e : Ends) : Bool := e.src * 2 ^ 16 + e.sport ≤ e.dst * 2 ^ 16 + e.dport

/-- The 40 B hash block (R123 step 4). -/
def Ends.block (e : Ends) (zone : Nat) : List Byte :=
  let (la, ha, lp, hp) := if e.srcLow then (e.src, e.dst, e.sport, e.dport) else (e.dst, e.src, e.dport, e.sport)
  bytesBE 16 la ++ bytesBE 16 ha ++ bytesBE 2 lp ++ bytesBE 2 hp ++
    bytesBE 1 e.proto ++ bytesBE 1 (e.kind % 4 + 4 * b2n e.frag) ++ bytesBE 2 (zone % 4096)

/-- The flags octet of R121. -/
def HV.flags (h : HV) : Nat :=
  h.bank % 2 * 128 + h.pass % 4 * 32 + b2n h.depth * 16 + b2n h.trimmed * 8 + b2n h.frag * 4 + b2n h.tunnel * 2
    + b2n h.malformed

/-- The 128 B of the header vector (R121). -/
def HV.bytes (h : HV) : List Byte :=
  bytesLE 2 h.pktLen ++ bytesLE 1 h.inPort ++ bytesLE 1 h.flags ++ bytesLE 1 h.malClass ++
  bytesLE 1 (h.outVlans % 4 * 64 + h.mplsCnt % 8 * 8 + h.inVlans % 4 * 2 + b2n h.hashInner) ++
  bytesLE 2 (h.zone % 4096) ++ bytesLE 4 h.hash ++
  [h.oL3o, h.oL4o, h.oTun, h.oL2i, h.oL3i, h.oL4i, h.oMpls, h.oPay].map (BitVec.ofNat 8) ++
  bytesLE 1 (h.l3o * 16 + h.l4o) ++ bytesLE 1 h.tunType ++ bytesLE 1 (h.l3i * 16 + h.l4i) ++ bytesLE 1 h.etypeIdx ++
  bytesBE 6 h.dmac ++ bytesBE 6 h.smac ++ bytesBE 2 h.tci1 ++ bytesBE 2 h.tci2 ++ bytesBE 4 h.mplsTop ++
  bytesBE 16 h.outSrc ++ bytesBE 16 h.outDst ++ bytesBE 1 h.outProto ++ bytesBE 1 h.outTtl ++ bytesBE 1 h.outTos ++
  bytesBE 1 h.outTcpf ++ bytesBE 2 h.outSport ++ bytesBE 2 h.outDport ++ bytesBE 4 h.tunId ++
  bytesBE 16 h.inSrc ++ bytesBE 16 h.inDst ++ bytesBE 2 h.inSport ++ bytesBE 2 h.inDport ++ bytesBE 1 h.inProto ++
  bytesBE 1 h.inTcpf ++ bytesBE 1 h.inTos ++ bytesBE 1 h.inTtl

/-- What a pass carries into its parse: ingress port, bank tag, pass number, the zone kept from the first pass (R122, R124). -/
structure PassIn where
  inPort : Nat
  bank : Nat
  pass : Nat
  zone : Option Nat
  hashLayer : Option Nat
deriving DecidableEq, Repr

/-- The parser's results: header vector, hash block, whether the source is LO, the parse itself, the quoted-hash mark. -/
structure Parsed where
  hv : HV
  block : List Byte
  srcLow : Bool
  quoted : Bool
  trim : Option Nat
deriving DecidableEq, Repr

/-- Parse one pass of a frame (`d` without its FCS): R115 to R128.  `portZone`, `zoneSrc`, `hl` are the port's settings. -/
def parseFrame (d : List Byte) (c : ParseCfg) (i : PassIn) (portZone zoneSrc hl : Nat) : Parsed :=
  let n := d.length
  let p0 : Parse := { d := d.take (min window n), n := n }
  let p := p0.walk c .eth 0 24
  let zone := match i.zone with
    | some z => z
    | none => if zoneSrc = 1 ∧ 0 < p.out.vlans then p.tci1 % 4096 else portZone
  let (e, q, inn) := p.ends c (i.hashLayer.getD hl)
  let trim := p.trim
  let blk := e.block zone
  let o := p.out
  let n' := p.inn
  { hv := { pktLen := (trim.getD n) + 4, inPort := i.inPort, bank := i.bank, pass := i.pass, depth := p.depth,
            trimmed := trim.isSome, frag := e.frag, tunnel := p.tunnel, malformed := decide (p.mal ≠ 0), malClass := p.mal,
            outVlans := o.vlans, mplsCnt := p.mplsCnt, inVlans := n'.vlans, hashInner := inn, zone := zone,
            hash := crc32c blk, oL3o := offB p.oL3o, oL4o := offB p.oL4o, oTun := offB p.oTun, oL2i := offB p.oL2i,
            oL3i := offB p.oL3i, oL4i := offB p.oL4i, oMpls := offB p.oMpls, oPay := p.oPay,
            l3o := o.l3, l4o := o.l4, tunType := p.tunType, l3i := n'.l3, l4i := n'.l4, etypeIdx := p.etypeIdx,
            dmac := p.dmac, smac := p.smac, tci1 := p.tci1, tci2 := p.tci2, mplsTop := p.mplsTop,
            outSrc := o.src, outDst := o.dst, outProto := o.proto, outTtl := o.ttl, outTos := o.tos, outTcpf := o.tcpf,
            outSport := o.sport, outDport := o.dport, tunId := p.tunId, inSrc := n'.src, inDst := n'.dst,
            inSport := n'.sport, inDport := n'.dport, inProto := n'.proto, inTcpf := n'.tcpf, inTos := n'.tos,
            inTtl := n'.ttl },
    block := blk, srcLow := e.srcLow, quoted := q, trim := trim }

/-- A field of the PRS page in the copy that a bank tag names (R122). -/
def Io.prs (s : Io) (p bank : Nat) (f : Fld) (i : Nat := 0) : Nat :=
  gb (s.bk (pgPrs p + f.off + f.stride * i) bank) f.lo f.len

/-- The parser's settings of pipeline `p` under a bank tag (R131). -/
def Io.parseCfg (s : Io) (p bank : Nat) : ParseCfg :=
  { altTpid := if s.prs p bank PRS_CFG.ALT_TPID_EN = 1 then some (s.prs p bank PRS_CFG.ALT_TPID) else none
    vxlan := s.prs p bank PRS_UDP_TUN.VXLAN_PORT
    geneve := s.prs p bank PRS_UDP_TUN.GENEVE_PORT
    gtpu := if s.feature 4 then some (s.prs p bank PRS_GTPU.GTPU_PORT) else none
    quoted := s.prs p bank PRS_CFG.ICMP_ERR_QUOTED == 1 }

/-- Parse a pass in pipeline `p` (R122, R124). -/
def Io.parse (s : Io) (p : Nat) (d : List Byte) (i : PassIn) : Parsed :=
  let j := i.inPort % 16
  parseFrame d (s.parseCfg p i.bank) i (s.prs p i.bank PRS_PORT_CFGj.ZONE j) (s.prs p i.bank PRS_PORT_CFGj.ZONE_SRC j)
    (s.prs p i.bank PRS_PORT_CFGj.HASH_LAYER j)

/-- The parser's counters and causes for one pass; a malformed packet is counted once, on the pass on which it was found, and
`found` says that an earlier one was (R130, R131). -/
def Io.prsCount (s : Io) (p : Nat) (r : Parsed) (tc : Nat) (found : Bool) : Io :=
  let b := pgPrs p
  let h := r.hv
  let s := if h.depth then
      let s := s.ctr b PRS_DEPTH_CNT.COUNT
      if s.cause b 6 then s else s.raise b 6
    else s
  let s := if h.trimmed then s.ctr b PRS_TRIM_CNT.COUNT else s
  let s := if h.frag then s.ctr b PRS_FRAG_CNT.COUNT else s
  let s := if r.quoted then s.ctr b PRS_ICMP_QUOTED_CNT.COUNT else s
  if h.malClass = 0 ∨ found then s
  else
    let c := h.malClass - 1
    let s := (s.ctr b PRS_MAL_PKTc.COUNT 1 c).ctr b PRS_MAL_BYTESc.COUNT h.pktLen c
    let s := s.filtered p { code := 0x04, tc := tc }
    if s.cause b c then s else s.raise b c

end Sys2Proof.Machine
end

