-- ==== Sys2Proof/Machine/Clock.lean ====
section
/-!
DEFINITION. Clocks and droop (R31 to R39, R58), the time base and what its advance makes due (R40 to R45), over `Io`.
Real time passes in core ticks: one on an empty queue, and as many as an event needs that the time base brings about.
-/
namespace Sys2Proof.Machine

/-! ### Stretch regions (R34 to R39) -/

/-- The stretch region of a droop sensor (R34). -/
def regionOf (n : Nat) : Nat := if n < 24 then n / 3 else if n < 28 then 8 else if n < 30 then 9 else 10

/-- The sensors of a region (R34). -/
def sensorsOf (r : Nat) : List Nat := (List.range 32).filter fun n => regionOf n = r

/-- The divisor of a region. -/
def Io.div (s : Io) (r : Nat) : Nat := s.clk.div.get 8 r

/-- The level a sag of `mv` trips under TRIP1 and TRIP2 (2 mV steps; 0 disables a level; TRIP2 at or below TRIP1 goes
directly to ÷10 at TRIP1) (R35, R58). -/
def tripLevel (t1 t2 mv : Nat) : Nat :=
  let one := t1 ≠ 0 ∧ 2 * t1 ≤ mv
  let two := if t2 = 0 then False else if t1 ≠ 0 ∧ t2 ≤ t1 then one else 2 * t2 ≤ mv
  if two then 2 else if one then 1 else 0

/-- The level of sensor `n` at a sag, 0 when the sensor is disabled. -/
def Io.sensorLevel (s : Io) (n mv : Nat) : Nat :=
  if s.get pgClk CLK_DROOP_CFGn.EN n = 1
  then tripLevel (s.get pgClk CLK_DROOP_CFGn.TRIP1 n) (s.get pgClk CLK_DROOP_CFGn.TRIP2 n) mv else 0

/-- Set a region's divisor, its hold starting afresh (R36). -/
def Io.setDiv (s : Io) (r d : Nat) : Io :=
  let calm := if d = 8 then s.time.counted else s.clk.calm
  { s with clk := { s.clk with div := s.clk.div.set 8 r d, hold := s.clk.hold.set 0 r 0, calm := calm } }

/-- An episode starts in region `r` (R38). -/
def Io.episode (s : Io) (r : Nat) : Io :=
  let s := { s with clk := { s.clk with since := s.clk.since.set 0 r s.time.counted } }
  let s := s.bump pgClk CLK_STRETCH_EVTn.COUNT 1 r
  if s.feature 13 then s.raise pgClk 2 else s

/-- Sensor `n` reads a sag of `mv`: its ACTIVE bit says whether that is below TRIP1 (R58). -/
def Io.seeSag (s : Io) (n mv : Nat) : Io :=
  let t := s.get pgClk CLK_DROOP_CFGn.TRIP1 n
  let w := s.rd (pgClk + 0x04C)
  let bit := BitVec.ofNat 32 (2 ^ n)
  s.wr (pgClk + 0x04C) (if s.get pgClk CLK_DROOP_CFGn.EN n = 1 ∧ t ≠ 0 ∧ 2 * t ≤ mv then w ||| bit else w &&& ~~~ bit)

/-- A sensor crosses a level: ACTIVE, SEEN, and the divisor of its region (R35; region 10 only reports, R34). -/
def Io.droop (s : Io) (n mv : Nat) : Io :=
  let lvl := s.sensorLevel n mv
  let s := s.seeSag n mv
  if lvl = 0 then s
  else
    let r := regionOf n
    let was := (sensorsOf r).any fun k => s.clk.sensor.get 0 k ≠ 0
    let s := s.wr (pgClk + 0x050) (s.rd (pgClk + 0x050) ||| BitVec.ofNat 32 (2 ^ n))
    let s := { s with clk := { s.clk with sensor := s.clk.sensor.set 0 n (max lvl (s.clk.sensor.get 0 n)) } }
    if r = 10 then (if was then s else s.episode r)
    else
      let d := 8 + lvl
      let s' := if s.div r = 8 then s.episode r else s
      if s.div r < d then s'.setDiv r d else s'

/-! ### Time (R40, R365) -/

/-- The unit of `TimeBase.sub`: the fraction has 32 bits (R40). -/
def subUnit : Nat := 4294967296

/-- What one tick of the unstretched 1.35 GHz tap adds, 20/27 ns under EPC_RATE_ADJ and a cascade member's slew, to the nearest unit
of the fraction (R40, R41, R453). -/
def Io.tickInc (s : Io) : Nat :=
  let ppb := ((1000000000 : Int) + toSigned 32 (s.get pgEpc EPC_RATE_ADJ.PPB) + toSigned 32 s.time.slew).toNat
  (2 * 20 * subUnit * ppb + 27000000000) / (2 * 27000000000)

/-- The epoch length exponent K (R43). -/
def Io.epochK (s : Io) : Nat := s.get pgEpc EPC_EPOCH_CFG.K

/-- `a` to `b` moving forward crosses a multiple of `m`. -/
def crosses (m a b : Nat) : Bool := a / m < b / m

/-- The first multiple of `m` that a movement crosses: the count at that instant, and what remains of the movement.  Several
multiples crossed by one step are one crossing (R44). -/
def Span.cross (p : Span) (m : Nat) : Option (Nat × Option Span) :=
  if !(crosses m p.a p.b) then none
  else if p.step then some (p.stamp, none)
  else
    let x := (p.a / m + 1) * m
    some (p.stamp - (p.b - x), some { p with a := x })

/-- The first crossing among the movements, and the movements that follow it. -/
def crossing (m : Nat) (l : List Span) : Option (Nat × List Span) :=
  match l with
  | [] => none
  | p :: t =>
    match p.cross m with
    | some (c, some q) => some (c, q :: t)
    | some (c, none) => some (c, t)
    | none => crossing m t

/-- The crossing of a multiple of 2^K that waits to be taken as a boundary, and the movements after it. -/
def Io.crossed (s : Io) : Option (Nat × List Span) := crossing (2 ^ s.epochK) s.time.due.boundary

/-- Join a movement to those that wait; counting goes on where counting left off. -/
def joinSpan (l : List Span) (p : Span) : List Span :=
  match l with
  | [] => [p]
  | [q] => if !q.step && !p.step && q.b == p.a then [{ q with b := p.b, stamp := p.stamp }] else [q, p]
  | q :: t => q :: joinSpan t p

/-- The movements that wait after one more: none once no multiple of `m` lies in them. -/
def spansWith (m : Nat) (old : List Span) (p : Span) : List Span :=
  let l := joinSpan (if (crossing m old).isSome then old else []) p
  if (crossing m l).isSome then l else []

/-- Multiples of `m` that a movement crosses: by one step, several are one crossing (R44, R367). -/
def Span.crossings (p : Span) (m : Nat) : Nat := if p.step then b2n (crosses m p.a p.b) else p.b / m - p.a / m

/-- The length of a window (R367). -/
def Io.windowNs (s : Io) : Nat := 1000 * max 1 (s.get pgPmc PMC_WIN_CFG.US)

/-- The crossings that the time base makes moving from `a` to `b` nanoseconds, by counting or by a step, with the count then at
`stamp` (R44, R112, R345, R367, R397, R452). -/
def Io.markDue (s : Io) (a b stamp : Nat) (step : Bool) : Io :=
  let d := s.time.due
  let p : Span := ⟨a, b, stamp, step⟩
  let d' : Due :=
    { d with
      boundary := spansWith (2 ^ s.epochK) d.boundary p
      window := spansWith s.windowNs d.window p
      pps := d.pps + p.crossings 1000000000
      snapshot := d.snapshot + p.crossings (1000 * max 10 (s.get (pgTel 0) TEL_SNAP_CFG.PERIOD_US))
      alive := d.alive + p.crossings (2 ^ 20)
      timeSend := d.timeSend + p.crossings (2 ^ 14) }
  { s with time := { s.time with due := d' } }

/-- The slots of pipeline `p` in `n` more cycles of its region: those that passes took, then FRONT, or BACK when
something waits (R365, R368; see `State.waiting`). -/
def Io.slots (s : Io) (p n waiting : Nat) : Io :=
  let t := s.taken.get 0 p
  let free := n - t
  let s := { s with taken := s.taken.set 0 p (t - n) }
  let b := pgPmcL p
  if free = 0 then s
  else
    let s := s.ctr b PMC_SLOT_CYCLES.COUNT free
    let s := s.accAdd b PMC_WIN_CYCLES.SLOTS free
    if waiting = 0 then (s.ctr b PMC_SLOT_FRONT.COUNT free).accAdd b PMC_WIN_FRONT.SLOTS free
    else
      let s := (s.ctr b PMC_SLOT_BACK.COUNT free).accAdd b PMC_WIN_BACK.SLOTS free
      if waiting = 1 then s else s.accAdd b PORT_SLOTS_BACK.COUNT free (waiting - 2)

/-- Region `r` runs `n` ticks of 8 root edges: cycles at its divisor, swallowed edges counted (R35, R38). -/
def Io.regionRun (s : Io) (r n : Nat) (waiting : Nat → Nat) : Io :=
  let d := s.div r
  let e := s.clk.phase.get 0 r + 8 * n
  let cyc := e / d
  let s := { s with clk := { s.clk with phase := s.clk.phase.set 0 r (e % d),
                                        hold := s.clk.hold.set 0 r (if d = 8 then 0 else s.clk.hold.get 0 r + cyc) } }
  let s := if d = 8 then s else s.ctr pgClk CLK_SWALLOWn.COUNT (cyc * (d - 8)) r
  if r < 8 then s.slots r cyc (waiting r) else s

/-- `n` core ticks pass (R40): the time base, PMC_CYCLES, the regions and their slots, and what falls due. -/
def Io.ticks (s : Io) (n : Nat) (waiting : Nat → Nat) : Io :=
  let t := s.time
  let total := t.sub + s.tickInc * n
  let dn := total / subUnit
  let a := t.ns
  let b := a + dn
  let c := t.counted + dn
  let d := t.due
  let s := { s with time := { t with ns := b, sub := total % subUnit, counted := c,
                                     stepped := if n = 0 then t.stepped else none,
                                     due := { d with refill := d.refill + (b / 64 - a / 64) } } }
  let s := s.markDue a b c false
  let s := s.ctr pgPmc PMC_CYCLES.COUNT n
  (List.range 11).foldl (fun s r => s.regionRun r n waiting) s

/-- The ticks until the time base has counted `dns` more whole nanoseconds. -/
def Io.ticksFor (s : Io) (dns : Nat) : Nat := ceilDiv (subUnit * dns - s.time.sub) (max 1 s.tickInc)

/-- Let time pass until the time base has counted `dns` more nanoseconds. -/
def Io.waitNs (s : Io) (dns : Nat) (waiting : Nat → Nat) : Io :=
  if dns = 0 then s else s.ticks (s.ticksFor dns) waiting

/-- Nanoseconds until the next multiple of `m`. -/
def Io.toMultiple (s : Io) (m : Nat) : Nat := m - s.time.ns % m

/-! ### The reference (R33) -/

/-- Reference loss: holdover, REF_LOST (R33). -/
def Io.refLost (s : Io) : Io :=
  ((((s.put pgClk CLK_STAT.HOLDOVER 1).put pgClk CLK_STAT.REF_LOST 1).put pgClk CLK_STAT.REF_PRESENT 0).put
    pgClk CLK_STAT.LOCK 0).raise pgClk 0

/-- The last loop has relocked: LOCK is set again (R33). -/
def Io.relock (s : Io) : Io := s.put pgClk CLK_STAT.LOCK 1

/-- Out of lock while the reference is present: LOCK_LOST (R58). -/
def Io.lockLost (s : Io) : Io := (s.put pgClk CLK_STAT.LOCK 0).raise pgClk 1

/-- The sag at which a sensor sets divisor `d`, in mV (R35, R58). -/
def stepMv (t1 t2 d : Nat) : Option Nat :=
  if d = 10 then (if t2 = 0 then none else if t1 ≠ 0 ∧ t2 ≤ t1 then some (2 * t1) else some (2 * t2))
  else if t1 = 0 then none else some (2 * t1)

/-- Sensor `k` reads at least 8 mV above the level at which it sets divisor `d`, or sets none (R36). -/
def Io.above (s : Io) (k d mv : Nat) : Bool :=
  s.get pgClk CLK_DROOP_CFGn.EN k = 0 ||
    (match stepMv (s.get pgClk CLK_DROOP_CFGn.TRIP1 k) (s.get pgClk CLK_DROOP_CFGn.TRIP2 k) d with
     | none => true
     | some at' => mv + 8 ≤ at')

/-- Every enabled sensor of the region reads at least 8 mV above the level that sets its divisor (R36).  `sag` gives the
present sag of each sensor in mV. -/
def Io.recovered (s : Io) (r : Nat) (sag : Nat → Nat) : Bool := (sensorsOf r).all fun k => s.above k (s.div r) (sag k)

/-- The sensors of a region are read: their ACTIVE bits (R58). -/
def Io.seeSags (s : Io) (r : Nat) (sag : Nat → Nat) : Io := (sensorsOf r).foldl (fun s k => s.seeSag k (sag k)) s

/-- The sensors of region 10, which has no divisor to return, are no longer tripped once they read 8 mV above their level (R34). -/
def Io.calmReport (s : Io) (sag : Nat → Nat) : Io :=
  (sensorsOf 10).foldl (fun s k =>
    if s.above k (8 + s.clk.sensor.get 0 k) (sag k) then { s with clk := { s.clk with sensor := s.clk.sensor.set 0 k 0 } } else s) s

/-- The sensors' levels after a return to divisor `d`. -/
def Io.settle (s : Io) (r d : Nat) : Io :=
  { s with clk := { s.clk with sensor := (sensorsOf r).foldl (fun m k => m.set 0 k (min (m.get 0 k) (d - 8))) s.clk.sensor } }

end Sys2Proof.Machine
end

