-- ==== Sys2Proof/Machine/Epoch.lean ====
section
/-!
DEFINITION. Time steps (R41), time slots (R60), boundary events (R43 to R46), commits (R52 to R57, R61), over `Io`.  What a
commit adopts outside the register file is in `Commit`.
-/
namespace Sys2Proof.Machine

/-! ### Steps of the time base (R41, R44) -/

/-- The time base moves by a step to `b` ns with fraction `sub`; a forward step may cross boundaries, a backward one sets
STEP_BACK (R41, R44, R59). -/
def Io.stepTo (s : Io) (b sub : Nat) : Io :=
  let a := s.time.ns
  let back := decide (b < a ∨ (b = a ∧ sub < s.time.sub))
  let s := { s with time := { s.time with ns := b, sub := sub } }
  let s := s.markDue a b s.time.counted true
  if back then s.put pgEpc EPC_STAT.STEP_BACK 1 else s

/-- A step of R41: until the core cycle ends, the time before it can still be captured (R113). -/
def Io.stepBy (s : Io) (b sub : Nat) : Io :=
  let a := s.time.ns
  let s := s.stepTo b sub
  { s with time := { s.time with stepped := some a } }

/-- A relative step: the signed offset is added, the fraction kept; a result below 0 or at or above 2^48 s is refused. -/
def Io.stepRelative (s : Io) (m : Nat) : Io :=
  let off := 1000000000 * toSigned 32 (s.get pgEpc EPC_STEP_SEC.SEC) + toSigned 32 (s.get pgEpc EPC_STEP_NS.NS)
  let r := (s.time.ns : Int) + off
  if r < 0 ∨ (1000000000 : Int) * 281474976710656 ≤ r then s.err pgEpc 3 m 0x060
  else s.stepBy r.toNat s.time.sub

/-- An absolute step: EPC_STEP_SEC and EPC_STEP_NS unsigned, the fraction 0; nanoseconds of 10^9 or more are refused. -/
def Io.stepAbsolute (s : Io) (m : Nat) : Io :=
  let ns := s.get pgEpc EPC_STEP_NS.NS
  if 1000000000 ≤ ns then s.err pgEpc 3 m 0x060
  else
    let s := s.stepBy (1000000000 * s.get pgEpc EPC_STEP_SEC.SEC + ns) 0
    { s with time := { s.time with set := true } }

/-- A write of EPC_STEP_CTL; `follower`: a cascade device that is not the master (R41). -/
def Io.stepCtl (s : Io) (m v : Nat) (follower : Bool) : Io :=
  if follower then s.err pgEpc 1 m 0x060
  else if !(v.testBit 0) then s
  else if v.testBit 1 then s.stepAbsolute m else s.stepRelative m

/-- A write of EPC_RATE_ADJ, clamped to ±500,000 (R41). -/
def Io.rateAdj (s : Io) (m v : Nat) (follower : Bool) : Io :=
  if follower then s.err pgEpc 1 m 0x054
  else
    let x := toSigned 32 v
    let c := if x < -500000 then (-500000 : Int) else if 500000 < x then 500000 else x
    s.put pgEpc EPC_RATE_ADJ.PPB (ofSigned 32 c)

/-- A read of EPC_TIME_NS by a master loads its slot with the seconds (R60). -/
def Io.timeNsRead (s : Io) (m : Nat) : Nat × Io :=
  (s.nsec, { s with timeSlot := s.timeSlot.set 0 m (s.sec % 2 ^ 48) })

/-! ### Boundary events (R43 to R46) -/

/-- The minimum count between two boundary events (R45). -/
def minGap : Nat := 16384

/-- The count allows a boundary event at count `c`. -/
def Io.gapOver (s : Io) (c : Nat) : Bool :=
  match s.time.lastBoundary with
  | none => true
  | some l => l + minGap ≤ c

/-- `(E − C) mod 2^32` lies between 1 and 2^31 − 1 (R46). -/
def aheadOf (e c : Nat) : Bool :=
  let d := subMod 32 e c
  1 ≤ d && d < 2 ^ 31

/-- The count from which the next boundary event may occur (R45). -/
def Io.gapEnd (s : Io) : Nat :=
  match s.time.lastBoundary with
  | none => 0
  | some l => l + minGap

/-- Nanoseconds counted until the next boundary event: a crossing that comes too soon is measured at the end of its hold (R45). -/
def Io.nsToBoundary (s : Io) : Nat :=
  let t := s.time
  if t.held then s.gapEnd - t.counted
  else
    match s.crossed with
    | some (c, _) => max c s.gapEnd - t.counted
    | none => max (s.toMultiple (2 ^ s.epochK)) (s.gapEnd - t.counted)

/-- Ticks until the next boundary event (R54): against the held event when one is held, or will be. -/
def Io.ticksToBoundary (s : Io) : Nat := if s.nsToBoundary = 0 then 0 else s.ticksFor s.nsToBoundary

/-- A boundary crossing that comes too soon is held and BOUNDARY_DEFERRED set (R45); `rest`: the movements after it.  A further
crossing while one is held joins it (log entry 33). -/
def Io.holdBoundary (s : Io) (rest : List Span) : Io :=
  let s := { s with time := { s.time with held := true, due := { s.time.due with boundary := rest } } }
  (s.put pgEpc EPC_STAT.BOUNDARY_DEFERRED 1).raise pgEpc 3

/-- The boundary event itself: the epoch number rises by 1 (R46); `c`: the count it is measured at; `rest`: the movements after
the crossing.  A held event stands for every crossing that joined it (log entry 33). -/
def Io.boundary (s : Io) (c : Nat) (rest : List Span) : Io :=
  let s := { s with time := { s.time with held := false, lastBoundary := some c,
                                          due := { s.time.due with boundary := rest } } }
  s.bump pgEpc EPC_EPOCH_NUM.NUM

/-- Let time pass to the next crossing of a multiple of 2^K if none is waiting, and say whether an event now occurs, at which
count, and what movements follow it.  While an event is held, time passes no further than the end of its hold: a crossing after
that waits until HELD_BOUNDARY has taken the held event (R45). -/
def Io.toBoundary (s : Io) (waiting : Nat → Nat) : Io × Option (Nat × List Span) :=
  let d := s.toMultiple (2 ^ s.epochK)
  let s := if s.crossed.isSome ∨ (s.time.held ∧ s.gapEnd ≤ s.time.counted + d) then s else s.waitNs d waiting
  match s.crossed with
  | none => (s, none)
  | some (c, rest) =>
    if !(s.gapOver c) then (s.holdBoundary rest, none)
    else if s.time.held then (s, none)
    else (s, some (c, rest))

/-- Let time pass to the end of the hold of R45, if a boundary is held. -/
def Io.toHeldEnd (s : Io) (waiting : Nat → Nat) : Io × Option (Nat × List Span) :=
  if !s.time.held then (s, none)
  else
    let s := s.waitNs (s.gapEnd - s.time.counted) waiting
    (s, some (if s.time.lastBoundary.isNone then s.time.counted else s.gapEnd, s.time.due.boundary))

/-! ### Commits (R53 to R57) -/

/-- A page with ARM set, which joins the next armed commit (R53, R57). -/
def Io.armed (s : Io) (pg : Page) : Bool :=
  pg.kind.shadowed && s.banked pg.kind && s.get pg.base PG_SHADOW_CTL.ARM = 1

/-- The pages whose ARM bit is set: ARM resets to 0, so they are among the listed words. -/
def Io.armedPages (s : Io) : List Page :=
  s.regs.filterMap fun e =>
    match pageOf e.1 with
    | none => none
    | some pg => if e.1 = pg.base + 0x24 ∧ s.armed pg then some pg else none

/-- One armed page at the commit: the active bank flips, ARM clears, SHADOW_BUSY is set, PG_EPOCH_TAG loads (R48, R51, R53). -/
def Io.flipPage (s : Io) (target : Nat) (pg : Page) : Io :=
  let s := s.put pg.base PG_SHADOW_CTL.ACTIVE_BANK (1 - s.active pg.base)
  let s := s.put pg.base PG_SHADOW_CTL.ARM 0
  let s := s.put pg.base PG_SHADOW_CTL.SHADOW_BUSY 1
  s.put pg.base PG_EPOCH_TAG.EPOCH target

/-- STATE and causes of EPC_COMMIT_STAT: ARMED, COMMITTED, LATE, BUSY, ABORTED, CASCADE_ABORT (R59). -/
def Io.commitState (s : Io) (code : Nat) : Io := s.put pgEpc EPC_COMMIT_STAT.STATE code

/-- GO: armed for TARGET, or refused LATE or BUSY (R54). -/
def Io.commitGo (s : Io) : Io :=
  let tgt := s.get pgEpc EPC_COMMIT_TARGET.TARGET
  let num := s.get pgEpc EPC_EPOCH_NUM.NUM
  if !(aheadOf tgt num) || (subMod 32 tgt num == 1 && s.ticksToBoundary < 256) then (s.commitState 3).raise pgEpc 2
  else if s.time.armed.isSome then s.commitState 4
  else ({ s with time := { s.time with armed := some tgt } }).commitState 1

/-- ABORT cancels an armed commit; with none armed it changes nothing (R55). -/
def Io.commitAbort (s : Io) : Io :=
  if s.time.armed.isSome then (({ s with time := { s.time with armed := none } }).commitState 5).raise pgEpc 2 else s

/-- A write of EPC_COMMIT_CTL: ABORT with GO acts as ABORT alone (R55). -/
def Io.commitCtl (s : Io) (v : Nat) : Io :=
  if v.testBit 1 then s.commitAbort else if v.testBit 0 then s.commitGo else s

/-- A write of PG_SHADOW_CTL (R52, R57, R61). -/
def Io.shadowCtl (s : Io) (pg : Page) (v : Nat) : Io :=
  if !pg.kind.shadowed then s
  else
    let s := if v.testBit 5 then s.put pg.base PG_SHADOW_CTL.ARM_REFUSED 0 else s
    let s := if v.testBit 4 then s.put pg.base PG_SHADOW_CTL.WR_DROPPED 0 else s
    let s := s.put pg.base PG_SHADOW_CTL.RD_SEL (bitsOf v 1 1)
    if !(s.banked pg.kind) then s
    else if !(v.testBit 0) then s.put pg.base PG_SHADOW_CTL.ARM 0
    else if s.get pg.base PG_SHADOW_CTL.SHADOW_BUSY = 1 then s.put pg.base PG_SHADOW_CTL.ARM_REFUSED 1
    else s.put pg.base PG_SHADOW_CTL.ARM 1

/-- The bank copy of a page: each RWS field of the active bank into the other (R51). -/
def Io.copyRws (s : Io) (pg : Page) : Io :=
  pg.kind.rows.foldl (fun s r =>
    if r.rws = 0 then s
    else (List.range r.count).foldl (fun s i =>
      let a := pg.base + r.off + r.stride * i
      s.bkSet a (1 - s.active pg.base) (s.bk a (s.active pg.base))) s) s

/-- The drain of a page ends (R51): its bank copy starts, and EPC_DRAIN_MAX records the longest drain. -/
def Io.drainDone (s : Io) (pg : Page) : Io :=
  ({ s with drained := s.drained.set false pg.base true }).maxTo pgEpc EPC_DRAIN_MAX.NS (s.time.counted - s.time.commitAt)

/-- The bank copy completes and SHADOW_BUSY clears (R51). -/
def Io.copyDone (s : Io) (pg : Page) : Io :=
  ({ s with drained := s.drained.set false pg.base false }).copyRws pg |>.put pg.base PG_SHADOW_CTL.SHADOW_BUSY 0

end Sys2Proof.Machine
end

