-- ==== Sys2Proof/Machine/Host.lean ====
section
/-!
DEFINITION. The host interface over `Io`: semaphores (R77 to R79), ring registers (R81, R82), features (R92 to R96), the
header writes that move interrupts (R69, R73), block soft reset (R71), counter reads and presets (R359, R360), and what the
resets of R64 and R65 clear.
-/
namespace Sys2Proof.Machine

/-! ### Semaphores -/

/-- Holder of SYS_SEMn, 0 when free. -/
def Io.sem (s : Io) (n : Nat) : Nat := s.get pgSys SYS_SEMn.HOLDER n

/-- A read of SYS_SEMn by master `m`: the free lock is acquired, the holder or the present holder's identity is reported (R77). -/
def Io.semRead (s : Io) (n m : Nat) : Nat × Io :=
  let h := s.sem n
  if h = 0 then (2 ^ 31 + m, s.put pgSys SYS_SEMn.HOLDER m n)
  else if h = m then (2 ^ 31 + m, s)
  else (h, s)

/-- A write of SYS_SEMn: the holder frees it with 0; every other write is counted with TYPE 1 (R79). -/
def Io.semWrite (s : Io) (n m v : Nat) : Io :=
  if s.sem n = m ∧ v % 256 = 0 then s.put pgSys SYS_SEMn.HOLDER 0 n
  else s.err pgSys 1 m (0x100 + 4 * n)

/-- SYS_SEM_FORCE frees the selected locks (R79). -/
def Io.semForce (s : Io) (mask : Nat) : Io :=
  (onesOf 32 mask).foldl (fun s n => s.put pgSys SYS_SEMn.HOLDER 0 n) s

/-- Free every lock a master holds (R79). -/
def Io.semFree (s : Io) (m : Nat) : Io :=
  (List.range 32).foldl (fun s n => if s.sem n = m then s.put pgSys SYS_SEMn.HOLDER 0 n else s) s

/-! ### Ring registers -/

/-- A ring whose entries the device produces (R80); the reserved rings 39 to 43 are treated as such (DESIGN CHOICE, log entry 77). -/
def deviceRing (n : Nat) : Bool := 32 ≤ n && n ≤ 43

/-- An accepted write of RING_BASE or RING_SIZE restarts the write count and the device's own index (R82). -/
def Io.ringRestart (s : Io) (n : Nat) : Io :=
  let s := { s with wcount := s.wcount.set 0 n 0 }
  if deviceRing n then s.put (pgRing n) RING_PROD.IDX 0 else s.put (pgRing n) RING_CONS.IDX 0

/-- A write of RING_BASE (words 0 and 1) or RING_SIZE (word 2) (R81, R82). -/
def Io.ringConfig (s : Io) (n m word v : Nat) : Io :=
  let a := pgRing n + 0x040 + 4 * word
  let bad := (word = 0 ∧ v % 4096 ≠ 0) ∨ (word = 2 ∧ (v % 32 < 6 ∨ 16 < v % 32))
  let new := if word = 2 then BitVec.ofNat 32 (v % 32) else BitVec.ofNat 32 v
  if bad ∨ (s.get (pgRing n) RING_CTL.EN = 1 ∧ new ≠ s.rd a) then s.err (pgRing n) 3 m (0x040 + 4 * word)
  else if s.get (pgRing n) RING_CTL.EN = 1 then s
  else (s.wr a new).ringRestart n

/-- MOD_US after a completion with IRQ clear, the ring sets IRQ (R81). -/
def Io.ringTimer (s : Io) (n : Nat) : Io :=
  if s.get (pgRing n) RING_CTL.MOD_US ≠ 0 ∧ s.modCnt.get 0 n ≠ 0 ∧ s.cause (pgRing n) 0 = false
  then ({ s with modCnt := s.modCnt.set 0 n 0 }).ringFlag n 0 else s

/-- A ring index that software may write: PROD of a software-produced ring, CONS of a device-produced one (R81). -/
def ringIndexWritable (n off : Nat) : Bool := if off = 0x04C then !deviceRing n else deviceRing n

/-! ### Features -/

/-- The four words of a feature set as one number. -/
def Io.featSet (s : Io) (off : Nat) : Nat :=
  (List.range 4).foldl (fun a i => a + (s.rd (pgFtr + off + 4 * i)).toNat * 2 ^ (32 * i)) 0

/-- Feature dependencies of R94: (feature, the feature it requires). -/
def featNeeds : List (Nat × Nat) := [(5, 12), (6, 1), (14, 8)]

/-- The features that may change after the first commit (R94). -/
def featMayChange : List Nat := [9, 10, 13]

/-- The outcome of a commit of set `x` against the active set (R93): code and detail. -/
def featCheck (x active : Nat) (first : Bool) : Nat × Nat :=
  if !(x.testBit 0) then (2, 0)
  else
    match featNeeds.find? fun p => x.testBit p.1 && !(x.testBit p.2) with
    | some p => (3, p.1)
    | none =>
      if first then (1, 0)
      else
        match (List.range 128).find? fun j => !(featMayChange.contains j) && (x.testBit j != active.testBit j) with
        | some j => (4, j)
        | none => (1, 0)

/-- A write of FEAT_COMMIT.GO (R93, R95, R96). -/
def Io.featCommit (s : Io) : Io :=
  let x := s.featSet 0x050 &&& s.featSet 0x040
  let (code, detail) := featCheck x (s.featSet 0x060) (!s.featDone)
  let s := s.wr (pgFtr + 0x074) (BitVec.ofNat 32 (2 ^ 16 * detail + code))
  if code ≠ 1 then s
  else
    (List.range 4).foldl (fun s i => s.wr (pgFtr + 0x060 + 4 * i) (BitVec.ofNat 32 (x >>> (32 * i)))) { s with featDone := true }

/-! ### Header writes -/

/-- A write of PG_IRQ_EN: bits of a ring page above 3 are reserved in its causes, not in its enables (R69, R73, R81). -/
def Io.irqEnWrite (s : Io) (base v : Nat) : Io :=
  s.edge (s.sourceOf base) fun s => s.wr (base + 0x14) (BitVec.ofNat 32 v)

/-- RING_STAT.IRQ of ring `n` clears: completions are counted afresh (R81). -/
def Io.modRestart (s : Io) (n : Nat) : Io := { s with modCnt := s.modCnt.set 0 n 0 }

/-- A W1C write of PG_IRQ_STAT; in a ring page, IRQ cleared restarts the count of completions (R69, R81). -/
def Io.irqClear (s : Io) (pg : Page) (v : Nat) : Io :=
  let s := if pg.kind = .ring ∧ v.testBit 0 then s.modRestart pg.idx else s
  s.setIrqStat pg.base (s.rd (pg.base + 0x10) &&& ~~~ (BitVec.ofNat 32 v))

/-- A write of PG_IRQ_FORCE sets the same bits of PG_IRQ_STAT (R69); in a ring page bits 3:0 only (R81). -/
def Io.irqForce (s : Io) (pg : Page) (v : Nat) : Io :=
  s.raiseBits pg.base (if pg.kind = .ring then v % 16 else v)

/-- A write of SYS_IRQ_EN, word `w`: each level that rises sends its message (R73). -/
def Io.sysIrqEn (s : Io) (w v : Nat) : Io :=
  let a := pgSys + 0x050 + 4 * w
  let old := (s.rd a).toNat
  let s := s.wr a (BitVec.ofNat 32 v)
  (List.range 32).foldl (fun s i =>
    if v.testBit i && !(old.testBit i) && s.summary (32 * w + i) then s.msix (32 * w + i) else s) s

/-- A write of SYS_IRQ_REARM: the message of each named source whose level is still 1 is sent again (R73). -/
def Io.sysRearm (s : Io) (mask : Nat) : Io :=
  (onesOf 64 mask).foldl (fun s n => if s.level n then s.msix n else s) s

/-- A write of RING_CTL: a change of VEC moves the ring to another source (R72, R81). -/
def Io.ringCtl (s : Io) (n v : Nat) : Io :=
  s.edge (32 + bitsOf v 1 5) fun s => s.wr (pgRing n + 0x054) (BitVec.ofNat 32 v &&& 0xFFFFFF3F#32)

/-- SOFT_RST starts a block soft reset (R71). -/
def Io.softRst (s : Io) (base : Nat) : Io := s.put base PG_STAT.RST_BUSY 1

/-- What every block soft reset clears: PG_IRQ_STAT, PG_ERR_CAP, PG_ERR_CNT, and the two sticky bits of R61 (R71). -/
def Io.softClear (s : Io) (base : Nat) : Io :=
  let s := s.setIrqStat base 0
  let s := (s.wr (base + 0x1C) 0).wr (base + 0x20) 0
  let s := (s.put base PG_SHADOW_CTL.ARM_REFUSED 0).put base PG_SHADOW_CTL.WR_DROPPED 0
  s.put base PG_STAT.RST_BUSY 0

/-! ### Counter reads and presets (R359 to R361) -/

/-- A read of the low word of the counter at `a`. -/
def Io.ctrLow (s : Io) (m a : Nat) : Nat × Io :=
  ((s.rd a).toNat, { s with ctrSlot := s.ctrSlot.set none m (some (a, (s.rd (a + 4)).toNat)) })

/-- A read of the high word of the counter at `a` (the counter's low offset). -/
def Io.ctrHigh (s : Io) (m a : Nat) : Nat × Io :=
  match s.ctrSlot.get none m with
  | some (b, h) =>
    if b = a then (h, { s with ctrSlot := s.ctrSlot.set none m none })
    else ((s.rd (a + 4)).toNat, s.bump pgPmc PMC_SNAP_MISS_CNT.COUNT)
  | none => ((s.rd (a + 4)).toNat, s.bump pgPmc PMC_SNAP_MISS_CNT.COUNT)

/-- The counters that refuse a preset: those of the QNC and CPH pages (R360). -/
def presetProtected (a : Nat) : Bool :=
  match pageOf a with
  | some pg => pg.kind = .qnc || pg.kind = .cphc || pg.kind = .cphu
  | none => false

/-- A write of PMC_PRE_CTL.GO (R360); `held`: where the counter at PMC_PRE_ADDR is held. -/
def Io.preset (s : Io) (m held : Nat) : Io :=
  let a := s.get pgPmc PMC_PRE_ADDR.ADDR
  let code := fun (s : Io) c => s.put pgPmc PMC_PRE_STAT.CODE c
  if !(m = 0x01 ∨ m = 0x10 ∨ m = 0x11) then ((code s 4).err pgPmc 1 m 0x06C).raise pgPmc 2
  else if !(isCounter a) then (code s 2).raise pgPmc 2
  else if presetProtected a then (code s 3).raise pgPmc 2
  else code (s.wr64 held (s.rd64 (pgPmc + 0x070))) 1

/-- The counter PMC_OVF_ADDR names: bits 2:0 are ignored (R370). -/
def Io.ovfTarget (s : Io) : Nat := 8 * (s.get pgPmc PMC_OVF_ADDR.ADDR / 8)

/-- PMC_OVF_STAT as it reads (R358); `held`: where the counter at PMC_OVF_ADDR is held. -/
def Io.ovfStat (s : Io) (held : Nat) : Nat :=
  if isCounter s.ovfTarget then 2 ^ 31 + b2n (s.sticky.get false held) else 0

/-- A W1C write of PMC_OVF_STAT.STICKY. -/
def Io.ovfClear (s : Io) (held v : Nat) : Io :=
  if v.testBit 0 then { s with sticky := s.sticky.set false held false } else s

/-- The events a filtered counter may select and the qualifiers each allows (R362). -/
def eventQuals : List (Nat × List Nat) :=
  [(0x01, [0, 4]), (0x02, [0, 4]), (0x03, [0, 4]), (0x04, [0, 4]), (0x05, [0, 4]), (0x06, [0, 3, 4]), (0x07, [0, 3]),
   (0x08, [0, 3]), (0x09, [0, 3]), (0x0A, [0, 3, 4]), (0x0B, [0, 3, 4]), (0x0C, [0, 4]), (0x0D, [0, 3, 4]), (0x0E, [0, 4]),
   (0x40, [0, 1, 2, 3]), (0x41, [0, 1, 2, 3]), (0x42, [0, 1, 2, 3]), (0x43, [0, 1, 2]), (0x60, [0, 2, 3]), (0x61, [0, 2, 3])]

/-- A write of PMC_FLT_CFGf (R364). -/
def Io.fltCfg (s : Io) (p f m v : Nat) : Io :=
  let ok := eventQuals.any fun e => e.1 == bitsOf v 16 8 && e.2.contains (bitsOf v 28 3)
  let a := pgPmcL p + 0x200 + 0x10 * f
  if ok then s.wr a (BitVec.ofNat 32 v &&& 0xF0FFFFFF#32) else s.err (pgPmcL p) 3 m (0x200 + 0x10 * f)

/-! ### Resets of the host side (R64, R65) -/

/-- What PERST_N and a Function Level Reset clear in the register file: link and configuration state, ring enables, the
semaphores and slots of master 0x01 (R60, R64, R73, R359). -/
def Io.hostReset (s : Io) : Io :=
  let s := { s with pcie := { perstLow := s.pcie.perstLow } }
  let s := (List.range 60).foldl (fun s n => s.put (pgRing n) RING_CTL.EN 0) s
  let s := { s.semFree 0x01 with fetch := [] }
  { s with timeSlot := s.timeSlot.set 0 0x01 0, ctrSlot := s.ctrSlot.set none 0x01 none }

/-- The host interface's own pages: HIF and the rings. -/
def inHif (a : Nat) : Bool := pgHif ≤ a && a < pgHif + 0x40000

/-- What a management reset clears in the register file (R65, R79, R92, R60, R359). -/
def Io.mgmtReset (s : Io) : Io :=
  let s := { s with regs := s.regs.drop inHif, wcount := [], modCnt := [], fetch := [] }
  let s := (s.semFree 0x10).semFree 0x11
  let s := { s with timeSlot := (s.timeSlot.set 0 0x10 0).set 0 0x11 0,
                    ctrSlot := (s.ctrSlot.set none 0x10 none).set none 0x11 none }
  let s := (List.range 4).foldl (fun s i => s.wr (pgFtr + 0x050 + 4 * i) 0) s
  let s := s.wr (pgFtr + 0x074) 0
  s.bumpSat pgSys SYS_RST_CAUSE.MGMT_CNT

end Sys2Proof.Machine
end

