-- ==== Sys2Proof/Machine/Table.lean ====
section
/-!
DEFINITION. Table command queues (R87 to R91): taking a command from its ring, its checks, its parts, and its status.
-/
namespace Sys2Proof

/-! ### The command entry (R87) -/

/-- The ring of a command queue. -/
def Cmd.ring (c : Cmd) : Nat := 44 + c.queue.val

/-- `n` bytes of DATA from entry offset `o` (16 to 47), little-endian. -/
def Cmd.le (c : Cmd) (o n : Nat) : Nat := Machine.gb c.data (8 * (o - 16)) (8 * n)

/-- `n` bytes of DATA from entry offset `o`, network order. -/
def Cmd.be (c : Cmd) (o n : Nat) : Nat := Machine.ofBytesBE (Machine.bytesLE n (c.le o n))

/-- `n` bytes of INDEX from entry offset `o` (8 to 15), little-endian. -/
def Cmd.ix (c : Cmd) (o n : Nat) : Nat := Machine.gb c.index (8 * (o - 8)) (8 * n)

/-- INDEX as one number. -/
def Cmd.idx (c : Cmd) : Nat := c.index.toNat

/-- FLAGS[1], INDIRECT. -/
def Cmd.indirect (c : Cmd) : Bool := Machine.tb c.flags 1

/-- Length of the INDIRECT buffer, and its host address. -/
def Cmd.len (c : Cmd) : Nat := c.le 24 4
def Cmd.addr (c : Cmd) : Nat := c.le 16 8

/-- What the INDIRECT buffer holds, `n` bytes. -/
def Cmd.buffer (c : Cmd) (n : Nat) : List Byte := Machine.sliceB c.host 0 n

/-- The parts a mask names, ascending. -/
def Cmd.partList (c : Cmd) : List Nat := Machine.onesOf 8 c.parts.toNat

/-- The checks of R88 on flags and part mask: `valid` the table's parts, `one` for an operation that returns entry data. -/
def Cmd.badMask (c : Cmd) (valid : Nat) (one : Bool) : Bool :=
  !c.known || c.flags.toNat / 4 ≠ 0 || c.parts.toNat = 0 || c.partList.any (fun p => !(valid.testBit p)) || (one && c.partList.length ≠ 1)

end Sys2Proof

namespace Sys2Proof.Machine

/-- Codes of R89. -/
def ccOk : Nat := 0
def ccBadCommand : Nat := 2
def ccBadIndex : Nat := 3
def ccNotFound : Nat := 4
def ccFull : Nat := 5
def ccSealed : Nat := 6
def ccLocked : Nat := 7
def ccNoFeature : Nat := 8
def ccDegraded : Nat := 9
def ccMemError : Nat := 10
def ccDmaError : Nat := 11
def ccAborted : Nat := 12

/-- A part succeeded (R89). -/
def Res.ok (r : Res) : Bool := r.code = 0 || r.code = 9

/-- The overall CODE (R89); a command that names no part fails with BAD_COMMAND. -/
def overall (rs : List Res) : Nat :=
  match rs with
  | [] => ccBadCommand
  | r :: t =>
    if rs.all Res.ok then (if rs.any fun x => x.code = 9 then 9 else 0)
    else if !r.ok && t.all fun x => x.code = r.code then r.code else 1

/-! ### The status -/

/-- The 16 B status (R87): parts with their results in ascending order. -/
def statusBytes (c : Cmd) (phase : Nat) (rs : List (Nat × Res)) : List Byte :=
  let ok := (rs.filter fun e => e.2.ok).foldl (fun a e => a + 2 ^ e.1) 0
  let fail := (rs.filter fun e => !e.2.ok).foldl (fun a e => a + 2 ^ e.1) 0
  let codes := rs.foldl (fun a e => a + e.2.code * 16 ^ e.1) 0
  let result := (rs.findSome? fun e => e.2.result).getD 0
  bytesLE 1 (overall (rs.map (·.2))) ++ bytesLE 1 ok ++ bytesLE 1 fail ++ bytesLE 1 (128 * phase) ++ bytesLE 4 c.tag.toNat ++
    bytesLE 4 codes ++ bytesLE 4 result

/-- Returned data go to the INDIRECT buffer or to DATA; a returned key goes to INDEX (R87, R152). -/
def Io.cmdData (s : Io) (c : Cmd) (entry : Nat) (r : Res) : Io :=
  let s := if r.data.isEmpty then s
           else if c.indirect then s.emit (.dma (c.addr + r.off) (r.data.take (c.len - r.off)))
           else s.emit (.dma (entry + 16) (r.data.take 32))
  let s := if r.at32.isEmpty then s else s.emit (.dma (entry + 32) r.at32)
  if r.index.isEmpty then s else s.emit (.dma (entry + 8) r.index)

/-- Complete the command at the ring's consumer index: data before status, then CONS, then the interrupt (R82, R87). -/
def Io.cmdDone (s : Io) (c : Cmd) (rs : List (Nat × Res)) : Io :=
  let n := c.ring
  let w := s.wcount.get 0 n
  let entry := s.ringBase n + 64 * (w % s.ringSize n)
  let s := rs.foldl (fun s e => s.cmdData c entry e.2) s
  let s := s.emit (.dma (entry + 48) (statusBytes c (s.phase n w) rs))
  let s := { s with wcount := s.wcount.set 0 n (w + 1) }
  let s := s.put (pgRing n) RING_CONS.IDX ((w + 1) % s.ringSize n)
  s.complete n (tb c.flags 0)

/-! ### Running a command -/

/-- A command waits in the ring and its queue has started none (R81, R91); one that waits on SHADOW_BUSY is the queue's next. -/
def State.cmdWaiting (s : State) (c : Cmd) : Bool :=
  s.io.ringLive c.ring && s.io.ringUsed c.ring != 0 &&
    (match s.jobs.get none c.queue.val with
     | none => true
     | some j => j.waits && j.cmd == c)

/-- The queue is busy with no command. -/
def State.unhold (s : State) (q : Nat) : State := { s with jobs := s.jobs.set none q none }

/-- The command waits: no part has started (R52). -/
def State.holdWait (s : State) (c : Cmd) : State :=
  { s with jobs := s.jobs.set none c.queue.val (some { cmd := c, op := 0, waits := true }) }

/-- The whole command fails: every named part carries the code. -/
def State.cmdFail (s : State) (c : Cmd) (code : Nat) : State :=
  s.upIo fun io => io.cmdDone c (c.partList.map fun p => (p, { code := code }))

/-- A part executed for pipeline `p` is counted (event CMD_PART of R362); the sender is the host. -/
def State.countPart (s : State) (p : Option Nat) : State :=
  match p with
  | none => s
  | some p => s.upIo fun io => io.event p (pgPmcL p) PMC_EVT_CMD_PART.COUNT { code := 0x43, master := 0x01 }

/-- The parts of a command one after another, each on the state the one before left (R90); `pipe` gives the pipeline a part is
executed for. -/
def runParts (pipe : Nat → Option Nat) (f : State → Nat → State × Res) : List Nat → State → State × List (Nat × Res)
  | [], s => (s, [])
  | p :: t, s =>
    let r := f (s.countPart (pipe p)) p
    let rs := runParts pipe f t r.1
    (rs.1, (p, r.2) :: rs.2)

/-- The INDIRECT buffer of the command could not be reached (R89). -/
def dmaFails (c : Cmd) : Bool := c.indirect && !c.dmaOk

/-- Run a table command: checks, parts, status.  `wait p`: part p waits on SHADOW_BUSY (R52), and then the command waits. -/
def State.runCmd (s : State) (c : Cmd) (valid : Nat) (one : Bool) (pipe : Nat → Option Nat) (wait : Nat → Bool)
    (f : State → Nat → State × Res) : State :=
  if !(s.cmdWaiting c) then s
  else if c.badMask valid one then (s.unhold c.queue.val).cmdFail c ccBadCommand
  else if dmaFails c then (s.unhold c.queue.val).cmdFail c ccDmaError
  else if c.partList.any wait then s.holdWait c
  else
    let r := runParts pipe f c.partList (s.unhold c.queue.val)
    r.1.upIo fun io => io.cmdDone c r.2

/-- Writes to the pending bank of a page wait while it is SHADOW_BUSY (R52). -/
def State.shadowBusy (s : State) (base : Nat) : Bool := s.feature 1 && s.get base PG_SHADOW_CTL.SHADOW_BUSY = 1

/-- Keep the started command of a queue until another unit ends it. -/
def State.holdCmd (s : State) (c : Cmd) (op : Nat) : State :=
  { s with jobs := s.jobs.set none c.queue.val (some { cmd := c, op := op }) }

/-- A reset of the host interface: started parts go on and write no status, and no further part starts (R64, R65). -/
def State.killJobs (s : State) : State :=
  (List.range 16).foldl (fun s q =>
    match s.jobs.get none q with
    | none => s
    | some j => if j.waits ∨ j.result.isSome then s.unhold q else { s with jobs := s.jobs.set none q (some { j with dead := true }) }) s

/-- A status can be written to ring `n`: DMA is possible, and the ring has not stopped (R64, R81). -/
def Io.statusLive (s : Io) (n : Nat) : Bool := s.mayDma && s.cause (pgRing n) 2 == false

/-- A held command of one part ends with a result (R191, R192); its status waits while no DMA is possible (R64). -/
def State.endCmd (s : State) (q : Nat) (r : Res) : State :=
  match s.jobs.get none q with
  | none => s
  | some j =>
    if j.dead then s.unhold q
    else if s.io.statusLive j.cmd.ring then (s.unhold q).upIo fun io => io.cmdDone j.cmd [(0, r)]
    else { s with jobs := s.jobs.set none q (some { j with result := some r }) }

/-- Statuses that waited for DMA are written (R64). -/
def State.flushCmds (s : State) : State :=
  (List.range 16).foldl (fun s q =>
    match s.jobs.get none q with
    | none => s
    | some j =>
      match j.result with
      | none => s
      | some r => s.endCmd q r) s

/-- A command queue is disabled: a command no part of which has started is ABORTED (R89). -/
def State.abortCmd (s : State) (q : Nat) : State :=
  match s.jobs.get none q with
  | none => s
  | some j =>
    if !j.waits then s
    else if s.io.statusLive j.cmd.ring then (s.unhold q).cmdFail j.cmd ccAborted
    else s.unhold q

end Sys2Proof.Machine
end

