-- ==== Sys2Proof/Machine/Forward.lean ====
section
/-!
DEFINITION. Classifier, L2 learning and longest-prefix match (R132 to R156): searches, learning, aging, table commands, scan.
-/
namespace Sys2Proof.Machine

/-! ### Array words and their shadows (R154) -/

/-- The key of an array word: entry `i` of part `p` of an array. -/
def upsetKey (k : ArrayKind) (p i : Nat) : Nat :=
  match k with
  | .cls => 3 * (16384 * p + i)
  | .l2 => 3 * (65536 * p + i) + 1
  | .lpm => 3 * (131072 * p + i) + 2

/-- The bits in which an array word differs from its shadow. -/
def State.upsetAt (s : State) (k : ArrayKind) (p i : Nat) : Nat := s.fwd.upset.get 0 (upsetKey k p i)

def State.setUpset (s : State) (k : ArrayKind) (p i m : Nat) : State :=
  { s with fwd := { s.fwd with upset := s.fwd.upset.set 0 (upsetKey k p i) m } }

/-- The entries of one part of an array whose array word differs from the shadow: `n` the residue of its keys, `size` its entries. -/
def State.upsets (s : State) (n size p : Nat) : List Nat :=
  s.fwd.upset.filterMap fun e => if e.1 % 3 = n ∧ e.1 / 3 / size = p then some (e.1 / 3 % size) else none

/-- The parity of an array word is wrong: an odd number of its 512 bits differ. -/
def parityBad (m : Nat) : Bool := (onesOf 512 m).length % 2 = 1

/-! ### Classifier entries and profiles (R133 to R136) -/

/-- Key of classifier entry `i` of pipeline `p`, and of its valid bit in a bank. -/
def clsKey (p i : Nat) : Nat := 16384 * p + i
def clsBank (p i b : Nat) : Nat := 2 * clsKey p i + b

def State.clsImage (s : State) (p i : Nat) : BitVec 384 := s.fwd.cls.get 0 (clsKey p i)
def State.clsOn (s : State) (p i b : Nat) : Bool := s.fwd.clsValid.get false (clsBank p i b)

/-- The entry as its array word holds it, which searches compare (R154); the valid bit of bank b is bit 384 + b of its mask. -/
def State.clsArr (s : State) (p i : Nat) : BitVec 384 := s.clsImage p i ^^^ BitVec.ofNat 384 (s.upsetAt .cls p i)
def State.clsArrOn (s : State) (p i b : Nat) : Bool := s.clsOn p i b ^^ (s.upsetAt .cls p i).testBit (384 + b)

/-- A write of an entry writes the array and its shadow (R154). -/
def State.setCls (s : State) (p i : Nat) (v : BitVec 384) : State :=
  { s with fwd := { s.fwd with cls := s.fwd.cls.set 0 (clsKey p i) v, upset := s.fwd.upset.set 0 (upsetKey .cls p i) 0 } }

def State.setClsOn (s : State) (p i b : Nat) (v : Bool) : State :=
  { s with fwd := { s.fwd with clsValid := s.fwd.clsValid.set false (clsBank p i b) v,
                               upset := s.fwd.upset.set 0 (upsetKey .cls p i) 0 } }

/-- Fields of a classifier entry image (R136). -/
def entKey (e : BitVec 384) : Nat := gb e 0 320
def entPriority (e : BitVec 384) : Nat := gb e 320 16
def entAction (e : BitVec 384) : Nat := gb e 336 12
def entClass (e : BitVec 384) : Nat := gb e 348 4
def entCreate (e : BitVec 384) : Bool := tb e 353
def entGroup (e : BitVec 384) : Nat := gb e 356 4

/-- A stored image keeps KEY, PRIORITY, RESULT, CREATE and GROUP; the valid bits stand apart (R136). -/
def entStore (v : Nat) : BitVec 384 :=
  BitVec.ofNat 384 (v % 2 ^ 352 + bitsOf v 353 1 * 2 ^ 353 + bitsOf v 356 4 * 2 ^ 356)

/-- The bank a command or an aging write of a banked valid bit acts on: pending with EPOCH_BANKS (R137); otherwise both (R138). -/
def State.writeBanks (s : State) (base : Nat) : List Nat :=
  if s.feature 1 then [1 - s.io.active base] else [0, 1]

/-- The bank whose valid bit a READ shows as FLAGS[0]. -/
def State.pendBank (s : State) (base : Nat) : Nat :=
  if s.feature 1 then 1 - s.io.active base else s.io.active base

/-- Search profile `i` in bank `b` (R134). -/
def State.profile (s : State) (p i b : Nat) : BitVec 576 := s.fwd.prof.get 0 (2 * (64 * p + i) + b)

/-- The 320-bit key of a profile over the header vector (R134). -/
def profKey (pr : BitVec 576) (hv : List Byte) : Nat :=
  ofBytesLE ((List.range 20).flatMap fun k => sliceB hv (2 * gb pr (8 * k) 6) 2)

/-- The profile number of a packet (R133): `kind` 0 L2, 1 IPv4, 2 IPv6, 3 MALFORMED. -/
def State.pickProfile (s : State) (p bank pass kind slot : Nat) : Nat :=
  let i := (if pass = 0 then 0 else 64) + 16 * kind + slot % 16
  bitsOf (s.io.bk (pgCls p + CLS_PSELn.PROFILE.off + 4 * (i / 4)) bank).toNat (8 * (i % 4)) 6

/-- The better of two matches: lower PRIORITY, then lower index (R135). -/
def betterCls (a b : Option (Nat × Nat)) : Option (Nat × Nat) :=
  match a, b with
  | none, x => x
  | x, none => x
  | some (pa, ia), some (pb, ib) => if pb < pa ∨ (pb = pa ∧ ib < ia) then some (pb, ib) else some (pa, ia)

/-- The entries of a pipeline that an array word shows as valid in a bank. -/
def State.clsLive (s : State) (p b : Nat) : List Nat :=
  ((s.fwd.clsValid.filterMap fun (e : Nat × Bool) =>
      if e.2 ∧ e.1 % 2 = b ∧ e.1 / 2 / 16384 = p then some (e.1 / 2 % 16384) else none) ++ s.upsets 0 16384 p).filter
    fun i => s.clsArrOn p i b

/-- The winning entry of a search in bank `b` (R135). -/
def State.clsWinner (s : State) (p b : Nat) (pr : BitVec 576) (key : Nat) : Option Nat :=
  let mask := gb pr 160 320
  let grp := gb pr 480 4
  let hits := (s.clsLive p b).filterMap fun i =>
    let im := s.clsArr p i
    if entGroup im = grp ∧ ((key ^^^ entKey im) &&& mask) = 0 then some (some (entPriority im, i)) else none
  (hits.foldl betterCls none).map (·.2)

/-- The classifier's part of a lookup. -/
def State.classify (s : State) (p b : Nat) (pr : BitVec 576) (hv : List Byte) : Lookup :=
  match s.clsWinner p b pr (profKey pr hv) with
  | some i =>
    let e := s.clsArr p i
    { clsHit := true, clsIndex := i, action := entAction e, flowClass := entClass e, create := entCreate e }
  | none => { action := gb pr 488 12, flowClass := gb pr 500 4, create := tb pr 504 }

/-! ### Longest-prefix match (R141 to R144) -/

/-- The mask of the top `m` of 128 bits. -/
def topMask (m : Nat) : Nat := (2 ^ m - 1) * 2 ^ (128 - m)

/-- The entry matches a search key (R141). -/
def LpmEntry.hits (e : LpmEntry) (vrf fam addr : Nat) : Bool :=
  e.valid && e.fam == fam && (e.wild || e.vrf == vrf) && ((e.addr ^^^ addr) &&& topMask e.m) == 0

/-- Two entries have one identity (R141). -/
def LpmEntry.same (a b : LpmEntry) : Bool :=
  a.valid && b.valid && a.vrf == b.vrf && a.wild == b.wild && a.fam == b.fam && a.m == b.m && a.addr == b.addr

/-- The group of an entry, in address order (R142). -/
def LpmEntry.group (e : LpmEntry) : Nat := 2 * (128 - e.m) + b2n e.wild

def State.lpmBank (s : State) (b : Nat) : List LpmEntry := s.fwd.lpm.get [] b

/-- Store a bank: every entry that changes is written in the array and its shadow (R154). -/
def State.setLpm (s : State) (b : Nat) (l : List LpmEntry) : State :=
  let old := s.lpmBank b
  { s with fwd := { s.fwd with
                    lpm := s.fwd.lpm.set [] b l
                    upset := s.fwd.upset.drop fun k =>
                      k % 3 == 2 && k / 3 / 131072 == b && old[k / 3 % 131072]? != l[k / 3 % 131072]? } }

/-- An entry with some bits of its array word changed: address, result, VRF, length, family, VRF_WILD, VALID. -/
def LpmEntry.flip (e : LpmEntry) (m : Nat) : LpmEntry :=
  { e with addr := e.addr ^^^ bitsOf m 0 128, res := e.res ^^^ bitsOf m 128 32, vrf := e.vrf ^^^ bitsOf m 160 12,
           m := e.m ^^^ bitsOf m 172 8, fam := e.fam ^^^ bitsOf m 180 1, wild := e.wild ^^ m.testBit 181,
           valid := e.valid ^^ m.testBit 182 }

/-- A bank as its array words hold it, which searches compare (R154). -/
def State.lpmArr (s : State) (b : Nat) : List LpmEntry :=
  (s.upsets 2 131072 b).foldl (fun l i => l.modify i fun e => e.flip (s.upsetAt .lpm b i)) (s.lpmBank b)

/-- Address and entry of the lowest-addressed match (R142). -/
def lpmFind (l : List LpmEntry) (f : LpmEntry → Bool) : Option (Nat × LpmEntry) :=
  (l.zipIdx.find? fun x => f x.1).map fun x => (x.2, x.1)

/-- The groups of a bank in address order. -/
def lpmGroups (l : List LpmEntry) : List (List LpmEntry) :=
  (List.range 258).filterMap fun g =>
    let x := l.filter fun e => e.group == g
    if x.isEmpty then none else some x

/-- A group makes room: its first entry moves behind its last (R144). -/
def rotUp (l : List LpmEntry) : List LpmEntry := l.drop 1 ++ l.take 1

/-- A group closes a hole below it: its last entry moves before its first (R144). -/
def rotDown (l : List LpmEntry) : List LpmEntry := l.drop (l.length - 1) ++ l.take (l.length - 1)

/-- Insert an entry: its group grows at the end, every later group rotates; the moves made (R144). -/
def lpmInsert (l : List LpmEntry) (e : LpmEntry) : List LpmEntry × Nat :=
  let before := l.filter fun x => x.group ≤ e.group
  let later := lpmGroups (l.filter fun x => e.group < x.group)
  (before ++ [e] ++ (later.map rotUp).flatten, later.length)

/-- Remove the entry at position `i` of its group: the group's last entry fills the hole, later groups rotate (R144). -/
def lpmRemove (l : List LpmEntry) (e : LpmEntry) : List LpmEntry × Nat :=
  let before := l.filter fun x => x.group < e.group
  let own := l.filter fun x => x.group == e.group
  let later := lpmGroups (l.filter fun x => e.group < x.group)
  let i := own.findIdx fun x => x.same e
  let isLast := i + 1 = own.length
  let own' := if isLast then own.take i
              else own.take i ++ own.drop (own.length - 1) ++ (own.take (own.length - 1)).drop (i + 1)
  (before ++ own' ++ (later.map rotDown).flatten, later.length + b2n (!isLast))

/-- LPM_SRC names a layer with an IP header: a search is made (R142). -/
def lpmTries (src : Nat) (h : HV) : Bool := src ≠ 0 && (if src = 2 then h.l3i else h.l3o) ≠ 0

/-- The LPM search of a packet: address by LPM_SRC, family by its layer, VRF by VRF_SRC (R142). -/
def State.route (s : State) (p src vrf : Nat) (h : HV) : Option (Nat × Nat) :=
  let l3 := if src = 2 then h.l3i else h.l3o
  let addr := match src with | 1 => h.outDst | 2 => h.inDst | _ => h.outSrc
  if !(lpmTries src h) then none
  else (lpmFind (s.lpmArr (p / 2)) fun e => e.hits vrf (l3 - 1) addr).map fun x =>
    (if x.2.fam = 0 then x.2.m - 96 else x.2.m, x.2.res)

/-! ### L2 table (R145 to R150) -/

/-- Fields of an L2 entry (R145). -/
def l2Mac (e : BitVec 80) : Nat := gb e 32 48
def l2Fid (e : BitVec 80) : Nat := gb e 20 12
def l2Port (e : BitVec 80) : Nat := gb e 12 8
def l2Valid (e : BitVec 80) : Bool := tb e 11
def l2Static (e : BitVec 80) : Bool := tb e 10
def l2Frozen (e : BitVec 80) : Bool := tb e 9
def l2Hit (e : BitVec 80) : Bool := tb e 8
def l2Age (e : BitVec 80) : Nat := gb e 4 4
def l2Moves (e : BitVec 80) : Nat := gb e 0 4

/-- An entry from its fields. -/
def l2Make (mac fid port : Nat) (st fr hit : Bool) (age moves : Nat) : BitVec 80 :=
  BitVec.ofNat 80 (mac % 2 ^ 48 * 2 ^ 32 + fid % 2 ^ 12 * 2 ^ 20 + port % 2 ^ 8 * 2 ^ 12 + 2 ^ 11 + b2n st * 2 ^ 10
    + b2n fr * 2 ^ 9 + b2n hit * 2 ^ 8 + age % 16 * 16 + moves % 16)

def State.l2At (s : State) (p i : Nat) : BitVec 80 := s.fwd.l2.get 0 (65536 * p + i)

/-- A write of an entry writes the array and its shadow (R154). -/
def State.setL2 (s : State) (p i : Nat) (e : BitVec 80) : State :=
  { s with fwd := { s.fwd with l2 := s.fwd.l2.set 0 (65536 * p + i) e, upset := s.fwd.upset.set 0 (upsetKey .l2 p i) 0 } }

/-- The entry as its array word holds it, which searches compare (R154). -/
def State.l2Arr (s : State) (p i : Nat) : BitVec 80 := s.l2At p i ^^^ BitVec.ofNat 80 (s.upsetAt .l2 p i)

/-- The entries of pipeline `p` in use, by rising index. -/
def State.l2List (s : State) (p : Nat) : List (Nat × BitVec 80) :=
  s.fwd.l2.filterMap fun e => if e.1 / 65536 = p ∧ l2Valid e.2 then some (e.1 % 65536, e.2) else none

/-- The entries of pipeline `p` as the array words hold them: index and word. -/
def State.l2Words (s : State) (p : Nat) : List (Nat × BitVec 80) :=
  ((s.l2List p).map fun e => (e.1, s.l2Arr p e.1)) ++ (s.upsets 1 65536 p).map fun i => (i, s.l2Arr p i)

/-- The valid array word that holds a MAC and FID (R145). -/
def State.l2Find (s : State) (p mac fid : Nat) : Option (Nat × BitVec 80) :=
  (s.l2Words p).find? fun e => l2Valid e.2 && l2Mac e.2 == mac && l2Fid e.2 == fid

/-- The lowest free index (R145). -/
def State.l2Free (s : State) (p : Nat) : Option Nat :=
  SMap.freshBelow ((s.l2List p).map fun e => (e.1, ())) 65536

/-- PORT as a search reports it: 128 to 253 as 0xFF (R145). -/
def l2Report (port : Nat) : Nat := if 128 ≤ port ∧ port ≤ 253 then 0xFF else port

/-- The record of an L2 event on ring 37 (R153). -/
def l2Record (s : Io) (ev p fid mac new old moves idx : Nat) : Line :=
  BitVec.ofNat 512 (ofBytesLE (bytesLE 4 0 ++ bytesLE 1 ev ++ bytesLE 1 p ++ bytesLE 2 fid ++ bytesBE 6 mac ++ bytesLE 1 new
    ++ bytesLE 1 old ++ bytesLE 4 s.nsec ++ bytesLE 6 s.sec ++ bytesLE 1 moves ++ bytesLE 1 0 ++ bytesLE 4 idx))

def State.l2Event (s : State) (ev p fid mac new old moves idx : Nat) : State :=
  s.upIo fun io => io.ringPut 37 [l2Record io ev p fid mac new old moves idx]

def State.learnQ (s : State) (p : Nat) : List LearnEv := s.fwd.learn.get [] p

/-- Store the learn FIFO, with its depth and high watermark (R156). -/
def State.setLearnQ (s : State) (p : Nat) (l : List LearnEv) : State :=
  let s := { s with fwd := { s.fwd with learn := s.fwd.learn.set [] p l } }
  (s.put (pgL2t p) L2T_LEARN_Q.DEPTH l.length).upIo fun io => io.maxTo (pgL2t p) L2T_LEARN_Q.HIGH l.length

/-- A learn event enters its FIFO, or is counted as dropped (R146). -/
def State.learnPush (s : State) (p : Nat) (e : LearnEv) : State :=
  if 256 ≤ (s.learnQ p).length then (s.ctr (pgL2t p) L2T_LEARN_DROP_CNT.COUNT).raise (pgL2t p) 2
  else s.setLearnQ p (s.learnQ p ++ [e])

/-- The source search of a packet (R146): a hit on the same port sets HIT; a miss or another port raises a learn event. -/
def State.sourceSearch (s : State) (p : Nat) (h : HV) (lk : Lookup) (injected : Bool) : State :=
  match s.l2Find p h.smac lk.fid with
  | some (i, e) =>
    if l2Port e = h.inPort then
      s.setL2 p i (sb (s.l2At p i) 8 1 1)
    else if lk.learn && !injected && h.pass = 0 && !(h.smac.testBit 40) &&
        (s.get (pgL2t p) L2T_LEARN_EN.EN).testBit (h.inPort % 16)
      then s.learnPush p ⟨h.smac, lk.fid, h.inPort⟩ else s
  | none =>
    if lk.learn && !injected && h.pass = 0 && !(h.smac.testBit 40) &&
        (s.get (pgL2t p) L2T_LEARN_EN.EN).testBit (h.inPort % 16)
      then s.learnPush p ⟨h.smac, lk.fid, h.inPort⟩ else s

/-- MOVES_MAX as used: 15 is treated as 14 (R156). -/
def State.movesMax (s : State) (p : Nat) : Nat := min 14 (s.get (pgL2t p) L2T_FLAP_CFG.MOVES_MAX)

/-- HOLD as used: 0 is treated as 1 (R156). -/
def State.flapHold (s : State) (p : Nat) : Nat := max 1 (s.get (pgL2t p) L2T_FLAP_CFG.HOLD)

/-- The learn engine's action on a source that is absent (R147). -/
def State.learnNew (s : State) (p : Nat) (e : LearnEv) : State :=
  let b := pgL2t p
  match s.l2Free p with
  | none => ((s.ctr b L2T_FULL_CNT.COUNT).raise b 1).l2Event 6 p e.fid e.mac e.port 0xFF 0 0xFFFFFFFF
  | some i =>
    ((s.setL2 p i (l2Make e.mac e.fid e.port false false true 0 0)).ctr b L2T_LEARN_CNT.COUNT).l2Event
      1 p e.fid e.mac e.port 0xFF 0 i

/-- The learn engine's action on a source found on another port (R147). -/
def State.learnMove (s : State) (p : Nat) (ev : LearnEv) (i : Nat) (e : BitVec 80) : State :=
  let b := pgL2t p
  let mm := s.movesMax p
  if l2Static e then
    (s.ctr b L2T_STATIC_HIT_CNT.COUNT).l2Event 7 p ev.fid ev.mac ev.port (l2Port e) (l2Moves e) i
  else if l2Frozen e then s.ctr b L2T_FROZEN_CNT.COUNT
  else if mm = 0 ∨ l2Moves e < mm then
    let mv := min 15 (l2Moves e + 1)
    ((s.setL2 p i (l2Make ev.mac ev.fid ev.port false false true 0 mv)).ctr b L2T_MOVE_CNT.COUNT).l2Event
      2 p ev.fid ev.mac ev.port (l2Port e) mv i
  else
    let hold := s.flapHold p
    ((s.setL2 p i (l2Make ev.mac ev.fid (l2Port e) false true (l2Hit e) (l2Age e) hold)).raise b 0).l2Event
      4 p ev.fid ev.mac 0xFF (l2Port e) hold i

/-- LEARN_TAKE: the learn engine takes one event and searches afresh (R147). -/
def State.learnTake (s : State) (p : Nat) : State :=
  match s.learnQ p with
  | [] => s
  | ev :: t =>
    let s := s.setLearnQ p t
    match s.l2Find p ev.mac ev.fid with
    | none => s.learnNew p ev
    | some (i, e) =>
      if l2Port e = ev.port then s.setL2 p i (sb (sb (s.l2At p i) 8 1 1) 4 4 0)
      else s.learnMove p ev i e

/-- L2_AGE_VISIT: one entry of the aging sweep (R149). -/
def State.ageVisit (s : State) (p i : Nat) : State :=
  let b := pgL2t p
  let e := s.l2At p i
  let mx := s.get b L2T_AGE_CFG.AGE_MAX
  if !(l2Valid e) || l2Static e || l2Frozen e then s
  else if l2Hit e then s.setL2 p i (sb (sb e 8 1 0) 4 4 0)
  else if mx = 0 then s
  else if mx ≤ l2Age e + 1 then
    ((s.setL2 p i 0).ctr b L2T_AGED_CNT.COUNT).l2Event 3 p (l2Fid e) (l2Mac e) 0xFF (l2Port e) (l2Moves e) i
  else s.setL2 p i (sb e 4 4 (l2Age e + 1))

/-- One entry at a flap window end (R150). -/
def State.flapEntry (s : State) (p i : Nat) : State :=
  let e := s.l2At p i
  if !(l2Frozen e) then s.setL2 p i (sb e 0 4 0)
  else if l2Moves e ≤ 1 then
    (s.setL2 p i (sb (sb e 9 1 0) 0 4 0)).l2Event 5 p (l2Fid e) (l2Mac e) 0xFF (l2Port e) 0 i
  else s.setL2 p i (sb e 0 4 (l2Moves e - 1))

/-- FLAP_WINDOW_END: every entry of pipeline `p` (R150). -/
def State.flapWindow (s : State) (p : Nat) : State := ((s.l2List p).map (·.1)).foldl (fun s i => s.flapEntry p i) s

/-! ### The lookups of a packet (R132) -/

/-- The FID of a packet (R134). -/
def fidOf (pr : BitVec 576) (h : HV) : Nat :=
  if tb pr 507 then h.zone else if h.outVlans = 0 then h.zone else h.tci1 % 4096

/-- The search profile of a packet, or the CLS_PSELn word that names it, is lost (R475). -/
def State.searchGone (s : State) (p : Nat) (h : HV) : Bool :=
  let kind := if h.malformed then 3 else if h.l3o = 0 then 0 else h.l3o
  let i := (if h.pass = 0 then 0 else 64) + 16 * kind + h.inPort % 16
  s.fwd.gone.get false (1024 + 32 * p + i / 4) || s.fwd.gone.get false (64 * p + s.pickProfile p h.bank h.pass kind h.inPort)

/-- The searches of one pass in pipeline `p` (R132, R133): results only. -/
def State.lookup (s : State) (p : Nat) (h : HV) (injected : Bool) : Lookup :=
  let kind := if h.malformed then 3 else if h.l3o = 0 then 0 else h.l3o
  let pr := s.profile p (s.pickProfile p h.bank h.pass kind h.inPort) h.bank
  let lk := s.classify p h.bank pr h.bytes
  let fid := fidOf pr h
  let vrf := if tb pr 510 then h.zone else gb pr 512 12
  let d := if tb pr 505 then s.l2Find p h.dmac fid else none
  let r := s.route p (gb pr 508 2) vrf h
  { lk with fid := fid, learn := tb pr 506 && !injected, l2Hit := d.isSome,
            l2Port := (d.map fun e => l2Report (l2Port e.2)).getD 0, l2Static := (d.map fun e => l2Static e.2).getD false,
            lpmTried := lpmTries (gb pr 508 2) h, lpmHit := r.isSome, lpmLen := (r.map (·.1)).getD 0, lpmRes := (r.map (·.2)).getD 0 }

/-- The counters of a pass's searches; an LPM miss needs a search (R142, R156, R362). -/
def State.countLookup (s : State) (p tc : Nat) (lk : Lookup) : State :=
  let s := if lk.clsHit then s else s.upIo fun io => io.event p (pgCls p) CLS_MISS_CNT.COUNT { code := 0x05, tc := tc }
  if lk.lpmHit ∨ !lk.lpmTried then s
  else s.ctr (pgLpm (p / 2 * 2)) (if p % 2 = 0 then LPM_MISS_CNT0.COUNT else LPM_MISS_CNT1.COUNT)

/-! ### Classifier commands (R137 to R140) -/

/-- Pipelines as parts, each with its own page. -/
def pipePart (p : Nat) : Option Nat := some p

/-- CLS READ. -/
def State.clsRead (s : State) (c : Cmd) (p : Nat) : State × Res :=
  let i := c.idx
  if !c.indirect ∨ c.len ≠ 48 then (s, { code := ccBadCommand })
  else if 16384 ≤ i then (s, { code := ccBadIndex })
  else
    let f := b2n (s.clsOn p i (s.pendBank (pgCls p))) + 4 * b2n (s.clsOn p i (s.io.active (pgCls p)))
    if f = 0 then (s, { code := ccNotFound }) else (s, { data := bytesLE 48 ((s.clsImage p i).toNat + f * 2 ^ 352), result := some 48 })

/-- Set an entry's valid bit in the banks a command writes. -/
def State.clsSetValid (s : State) (p i : Nat) (v : Bool) : State :=
  (s.writeBanks (pgCls p)).foldl (fun s b => s.setClsOn p i b v) s

/-- CLS WRITE (R137, R138). -/
def State.clsWrite (s : State) (c : Cmd) (p : Nat) : State × Res :=
  let i := c.idx
  if !c.indirect ∨ c.len ≠ 48 then (s, { code := ccBadCommand })
  else if 16384 ≤ i then (s, { code := ccBadIndex })
  else
    let v := ofBytesLE (c.buffer 48)
    let im := entStore v
    if s.feature 1 ∧ s.clsOn p i (s.io.active (pgCls p)) then
      if im = s.clsImage p i then (s.clsSetValid p i (v.testBit 352), {})
      else (s, { code := ccBadIndex, result := some 1 })
    else ((s.setCls p i im).clsSetValid p i (v.testBit 352), {})

/-- CLS DELETE. -/
def State.clsDelete (s : State) (c : Cmd) (p : Nat) : State × Res :=
  if 16384 ≤ c.idx then (s, { code := ccBadIndex }) else (s.clsSetValid p c.idx false, {})

/-- CLS SEARCH (R139). -/
def State.clsSearch (s : State) (c : Cmd) (p : Nat) : State × Res :=
  if !c.indirect ∨ c.len ≠ 128 then (s, { code := ccBadCommand })
  else if 64 ≤ c.ix 8 1 then (s, { code := ccBadIndex })
  else
    let a := s.io.active (pgCls p)
    let b := if c.ix 9 1 % 2 = 1 then s.pendBank (pgCls p) else a
    let pr := s.profile p (c.ix 8 1) b
    match s.clsWinner p b pr (profKey pr (c.buffer 128)) with
    | some i => (s, { result := some i })
    | none => (s, { code := ccNotFound })

/-- The entry is free: valid in neither bank (R137). -/
def State.clsFree (s : State) (p i : Nat) : Bool := !(s.clsOn p i 0) && !(s.clsOn p i 1)

/-- The lowest entry strictly between two indices, valid in a bank, of the same GROUP and PRIORITY (R140). -/
def State.clsBetween (s : State) (p src dst : Nat) : Option Nat :=
  let e := s.clsImage p src
  let lo := min src dst
  let hi := max src dst
  (s.fwd.clsValid.filterMap fun x =>
    let i := x.1 / 2 % 16384
    if x.2 ∧ x.1 / 2 / 16384 = p ∧ lo < i ∧ i < hi ∧ entGroup (s.clsImage p i) = entGroup e
        ∧ entPriority (s.clsImage p i) = entPriority e then some i else none).head?

/-- CLS MOVE (R140). -/
def State.clsMove (s : State) (c : Cmd) (p : Nat) : State × Res :=
  let src := c.idx
  let dst := c.le 16 2
  if 16384 ≤ src ∨ 16384 ≤ dst then (s, { code := ccBadIndex })
  else if s.clsFree p src then (s, {})
  else if !(s.clsFree p dst) then (s, { code := ccBadIndex })
  else
    match s.clsBetween p src dst with
    | some i => (s, { code := ccBadIndex, result := some i })
    | none =>
      let s1 := s.setCls p dst (s.clsImage p src)
      let s2 := (s1.setClsOn p dst 0 (s.clsOn p src 0)).setClsOn p dst 1 (s.clsOn p src 1)
      (((s2.setClsOn p src 0 false).setClsOn p src 1 false).setCls p src 0, {})

/-- Search profile READ (R134): the bank RD_SEL names. -/
def State.profRead (s : State) (c : Cmd) (p : Nat) : State × Res :=
  if !c.indirect ∨ c.len ≠ 72 then (s, { code := ccBadCommand })
  else if 64 ≤ c.idx then (s, { code := ccBadIndex })
  else
    let b := if s.get (pgCls p) PG_SHADOW_CTL.RD_SEL = 0 then s.pendBank (pgCls p) else s.io.active (pgCls p)
    (s, { data := bytesLE 72 (s.profile p c.idx b).toNat, result := some 72 })

/-- The fields of a search profile image: SEL, MASK, GROUP, MISS, CTL and VRF without the bits that are 0 (R134). -/
def profFields : Nat := ofBytesLE (List.replicate 20 0x3F#8 ++ List.replicate 40 0xFF#8 ++ [0x0F#8, 0xFF#8, 0xFF#8, 0x7F#8, 0xFF#8, 0x0F#8])

/-- Search profile WRITE (R134): the bits that are 0 in the image are stored as 0 (R11). -/
def State.profWrite (s : State) (c : Cmd) (p : Nat) : State × Res :=
  if !c.indirect ∨ c.len ≠ 72 then (s, { code := ccBadCommand })
  else if 64 ≤ c.idx then (s, { code := ccBadIndex })
  else
    let v := BitVec.ofNat 576 (ofBytesLE (c.buffer 72) &&& profFields)
    ((s.writeBanks (pgCls p)).foldl (fun s b =>
      { s with fwd := { s.fwd with prof := s.fwd.prof.set 0 (2 * (64 * p + c.idx) + b) v,
                                   gone := s.fwd.gone.set false (64 * p + c.idx) false } }) s, {})

/-! ### L2 commands (R152) -/

/-- The MAC and FID of a command. -/
def l2CmdKey (c : Cmd) : Nat × Nat := (ofBytesBE (bytesLE 6 (c.ix 8 6)), c.ix 14 2 % 4096)

/-- DATA bytes 16 to 19 of an entry. -/
def l2Data (e : BitVec 80) : List Byte :=
  bytesLE 1 (l2Port e) ++ bytesLE 1 (b2n (l2Static e) + 2 * b2n (l2Frozen e) + 4 * b2n (l2Hit e)) ++
    bytesLE 1 (l2Age e) ++ bytesLE 1 (l2Moves e)

def State.l2Read (s : State) (c : Cmd) (p : Nat) : State × Res :=
  let (mac, fid) := l2CmdKey c
  match s.l2Find p mac fid with
  | some (i, _) => (s, { data := l2Data (s.l2At p i), result := some i })
  | none => (s, { code := ccNotFound })

def State.l2Write (s : State) (c : Cmd) (p : Nat) : State × Res :=
  let (mac, fid) := l2CmdKey c
  let e := l2Make mac fid (c.le 16 1) ((c.le 17 1).testBit 0) false false 0 0
  match s.l2Find p mac fid with
  | some (i, _) => (s.setL2 p i e, { result := some i })
  | none =>
    match s.l2Free p with
    | some i => (s.setL2 p i e, { result := some i })
    | none => (s, { code := ccFull })

def State.l2Delete (s : State) (c : Cmd) (p : Nat) : State × Res :=
  let (mac, fid) := l2CmdKey c
  match s.l2Find p mac fid with
  | some (i, _) => (s.setL2 p i 0, {})
  | none => (s, {})

def State.l2Flush (s : State) (c : Cmd) (p : Nat) : State × Res :=
  let port := c.le 16 1
  let fid := c.le 18 2
  let st := (c.le 17 1).testBit 0
  let hit := (s.l2List p).filter fun e =>
    (port == 0xFF || l2Port e.2 == port) && (fid == 0xFFFF || l2Fid e.2 == fid) && (st || !(l2Static e.2))
  (hit.foldl (fun s e => s.setL2 p e.1 0) s, { result := some hit.length })

def State.l2ReadAt (s : State) (c : Cmd) (p : Nat) : State × Res :=
  let i := c.ix 8 2
  let e := s.l2At p i
  if l2Valid e then
    (s, { data := l2Data e, index := bytesBE 6 (l2Mac e) ++ bytesLE 2 (l2Fid e), result := some i })
  else (s, { code := ccNotFound })

/-! ### LPM commands (R143, R144) -/

/-- The entry a command names, or none when its length is beyond the family's maximum. -/
def lpmOfCmd (c : Cmd) : Option LpmEntry :=
  let fam := c.le 35 1 % 2
  let len := c.le 34 1
  if (if fam = 0 then 32 else 128) < len then none
  else
    let m := if fam = 0 then 96 + len else len
    let a := c.be 16 16
    some { vrf := c.le 32 2 % 4096, wild := (c.le 35 1).testBit 1, fam := fam, m := m, addr := a &&& topMask m, res := c.le 36 4 }

/-- DATA bytes 16 to 39 of an entry. -/
def lpmData (e : LpmEntry) : List Byte :=
  bytesBE 16 e.addr ++ bytesLE 2 e.vrf ++ bytesLE 1 (if e.fam = 0 then e.m - 96 else e.m) ++
    bytesLE 1 (e.fam + 2 * b2n e.wild) ++ bytesLE 4 e.res ++ bytesLE 8 0

/-- Entries of a bank (R154). -/
def lpmSize : Nat := 131072

/-- LPM WRITE (R143, R144).  DESIGN CHOICE (log entry 72): a new entry takes the place of one of its group that was lost (R155). -/
def State.lpmWrite (s : State) (c : Cmd) (b : Nat) : State × Res :=
  match lpmOfCmd c with
  | none => (s, { code := ccBadIndex })
  | some e =>
    let l := s.lpmBank b
    match lpmFind l fun x => x.same e with
    | some (i, _) => (s.setLpm b (l.map fun x => if x.same e then e else x), { result := some i })
    | none =>
      match l.findIdx? fun x => !x.valid && x.group == e.group with
      | some i => (s.setLpm b (l.set i e), { result := some i })
      | none =>
      if lpmSize ≤ l.length then (s.raise (pgLpm (2 * b)) 2, { code := ccFull })
      else
        let (l', k) := lpmInsert l e
        let s := (s.setLpm b l').ctr (pgLpm (2 * b)) LPM_MOVE_CNT.COUNT k
        (s, { result := (lpmFind l' fun x => x.same e).map (·.1) })

def State.lpmDelete (s : State) (c : Cmd) (b : Nat) : State × Res :=
  match lpmOfCmd c with
  | none => (s, { code := ccBadIndex })
  | some e =>
    let l := s.lpmBank b
    match lpmFind l fun x => x.same e with
    | none => (s, {})
    | some (i, x) =>
      let (l', k) := lpmRemove l x
      ((s.setLpm b l').ctr (pgLpm (2 * b)) LPM_MOVE_CNT.COUNT k, { result := some i })

def State.lpmRead (s : State) (c : Cmd) (b : Nat) : State × Res :=
  match lpmOfCmd c with
  | none => (s, { code := ccBadIndex })
  | some e =>
    match lpmFind (s.lpmBank b) fun x => x.same e with
    | some (i, x) => (s, { data := lpmData x, result := some i })
    | none => (s, { code := ccNotFound })

def State.lpmSearch (s : State) (c : Cmd) (b : Nat) : State × Res :=
  match lpmFind (s.lpmArr b) fun x => x.hits (c.le 32 2 % 4096) (c.le 35 1 % 2) (c.be 16 16) with
  | some (i, x) => (s, { data := lpmData ((s.lpmBank b).getD i x), result := some i })
  | none => (s, { code := ccNotFound })

/-! ### Integrity scan (R155) -/

/-- A parity mismatch that the shadow repairs: the array word is rewritten, counted, its index recorded (R155). -/
def State.scanFix (s : State) (k : ArrayKind) (p i : Nat) : State :=
  let s := s.setUpset k p i 0
  match k with
  | .cls => (((s.ctr (pgCls p) CLS_PARITY_FIX.COUNT).put (pgCls p) CLS_PARITY_IDX.INDEX i).raise (pgCls p) 0).report 0 4 (pgCls p) i 0
  | .l2 => (((s.ctr (pgL2t p) L2T_PARITY_FIX.COUNT).put (pgL2t p) L2T_PARITY_IDX.INDEX i).raise (pgL2t p) 3).report 0 4 (pgL2t p) i 0
  | .lpm =>
    let b := pgLpm (2 * p)
    (((s.ctr b LPM_PARITY_FIX.COUNT).put b LPM_PARITY_IDX.INDEX i).raise b 0).report 0 4 b i 0

/-- A parity mismatch whose shadow is uncorrectable: the entry is invalidated in its place and reported (R155). -/
def State.scanLost (s : State) (k : ArrayKind) (p i : Nat) : State :=
  let s := s.setUpset k p i 0
  match k with
  | .cls =>
    let b := pgCls p
    let s := (s.setClsOn p i 0 false).setClsOn p i 1 false
    (((s.bump b CLS_PARITY_LOST.COUNT).put b CLS_PARITY_IDX.INDEX i).raise b 1).report 2 5 b i 0
  | .l2 =>
    let b := pgL2t p
    let s := s.setL2 p i (sb (s.l2At p i) 11 1 0)
    (((s.bump b L2T_PARITY_LOST.COUNT).put b L2T_PARITY_IDX.INDEX i).raise b 4).report 2 5 b i 0
  | .lpm =>
    let b := pgLpm (2 * p)
    let s := s.setLpm p ((s.lpmBank p).modify i fun e => { e with valid := false })
    (((s.bump b LPM_PARITY_LOST.COUNT).put b LPM_PARITY_IDX.INDEX i).raise b 1).report 2 5 b i 0

end Sys2Proof.Machine
end

