-- ==== Sys2Proof/Machine/Gates.lean ====
section
/-!
DEFINITION. Gate control lists (R325 to R329): their entries over one cycle, the gate states, the open windows and MAXWIN.
-/
namespace Sys2Proof.Machine

/-- A list cut at its cycle, the last entry held to the end (R326). -/
def cutEntries : Nat → List (Nat × Nat) → List (Nat × Nat)
  | _, [] => []
  | left, [(g, _)] => [(g, left)]
  | left, (g, n) :: t => if left ≤ n then [(g, left)] else (g, n) :: cutEntries (left - n) t

def GateList.cut (l : GateList) : List (Nat × Nat) := cutEntries l.cycle l.entries

/-- What remains of a list of entries from position `pos` on. -/
def dropTime : List (Nat × Nat) → Nat → List (Nat × Nat)
  | [], _ => []
  | (g, n) :: t, pos => if pos < n then (g, n - pos) :: t else dropTime t (pos - n)

/-- Position in the cycle at `now` ns (R326). -/
def GateList.pos (l : GateList) (now : Nat) : Nat := (((now : Int) - l.base) % (l.cycle : Int)).toNat

/-- Gate states at `now` (R326). -/
def GateList.gates (l : GateList) (now : Nat) : Nat :=
  if l.en then
    match dropTime l.cut (l.pos now) with
    | [] => 0xFF
    | (g, _) :: _ => g
  else 0xFF

/-- Length of the run of open entries at the head of a list. -/
def openRun (q : Nat) : List (Nat × Nat) → Nat
  | [] => 0
  | (g, n) :: t => if g.testBit q then n + openRun q t else 0

/-- What remains of queue q's open window at a position; `none`: it never closes (R327). -/
def GateList.windowAt (l : GateList) (q pos : Nat) : Option Nat :=
  if l.cut.all fun e => e.1.testBit q then none
  else some (openRun q (dropTime l.cut pos ++ l.cut))

/-- The starts of the entries of a list. -/
def entryStarts : Nat → List (Nat × Nat) → List Nat
  | _, [] => []
  | a, (_, n) :: t => a :: entryStarts (a + n) t

/-- MAXWIN of queue q: `none` unlimited (R329). -/
def GateList.maxWin (l : GateList) (q : Nat) : Option Nat :=
  if !l.en then none
  else if l.cut.all fun e => e.1.testBit q then none
  else some (((entryStarts 0 l.cut).map fun p => (l.windowAt q p).getD 0).foldl max 0)

/-- Wire length of a frame of stored length L (R308). -/
def wireLen (L : Nat) : Nat := max L 64 + 20

end Sys2Proof.Machine
end

