-- ==== Sys2Proof/Machine/Post.lean ====
section
/-!
DEFINITION. What many blocks do towards telemetry and the global Pip: posting an event (R235, R254, R346) and a tagged packet's
trace record (R343, R344).
-/
namespace Sys2Proof.Machine

/-- Context `c` of sequencer `q`. -/
def State.ctx (s : State) (q c : Nat) : Ctx := s.pip.ctx.get {} (32 * q + c)

def State.setCtx (s : State) (q c : Nat) (x : Ctx) : State :=
  { s with pip := { s.pip with ctx := s.pip.ctx.set {} (32 * q + c) x } }

/-- Contexts of a sequencer (R233). -/
def ctxCount (q : Nat) : Nat := if q < 8 then 32 else 8

/-- Free contexts of a sequencer below `n`. -/
def State.freeCtxs (s : State) (q n : Nat) : List Nat := (List.range n).filter fun c => (s.ctx q c).phase == .free

/-- The bit of TEL_POL_EN whose detector posts an event (R346); TICK is always posted. -/
def policyBit (evt : Nat) : Option Nat :=
  match evt with
  | 0x11 => some 0 | 0x12 => some 1 | 0x14 => some 2 | 0x13 => some 3 | 0x15 => some 4
  | _ => none

/-- A policy is enabled (R346). -/
def State.policyOn (s : State) (n : Nat) : Bool :=
  (s.get (pgTel 0) TEL_POL_EN.EN).testBit n && (n != 1 || s.feature 8)

/-- Of the events `l`, those that find no free context: urgent ones take context 7, the rest 0 to 6 (R233, R235). -/
def State.evWaiting (s : State) (l : List Event) : Nat :=
  let u := (l.filter fun e => e.evt == 0x15).length
  (u - (if (s.ctx 8 7).phase = .free then 1 else 0)) + (l.length - u - (s.freeCtxs 8 7).length)

/-- Post an event to the global Pip: discarded while it is stopped or when 64 events wait already (R235, R254). -/
def State.post (s : State) (evt : Nat) (data : List Nat) : State :=
  if !((policyBit evt).map s.policyOn).getD true then s
  else if s.get (pgPip 8) PIP_CTL.STOP = 1 ∨ 64 < s.evWaiting (s.pip.evq ++ [{ evt := evt, data := data }]) then
    s.ctr (pgPip 8) PIP_EVT_DROP_CNT.COUNT
  else { s with pip := { s.pip with evq := s.pip.evq ++ [{ evt := evt, data := data }] } }

/-! ### The trace ring (R343, R344) -/

def State.tagAt (s : State) (k : Option Nat) : Option Tag := k.bind fun k => s.tel.tags.get none k

/-- Change the entry of a tagged packet. -/
def State.retag (s : State) (k : Option Nat) (f : Tag → Tag) : State :=
  match k with
  | none => s
  | some k =>
    match s.tel.tags.get none k with
    | none => s
    | some t => { s with tel := { s.tel with tags := s.tel.tags.set none k (some (f t)) } }

/-- Tracker entries of a pipeline in use. -/
def State.tagsBusy (s : State) (p : Nat) : Nat :=
  ((List.range 32).filter fun i => (s.tel.tags.get none (32 * p + i)).isSome).length

/-- A stage time of R344: ns since the ingress timestamp, saturated; all ones for a stage not reached. -/
def stageNs (ts : Nat) (t : Option Nat) : Nat :=
  match t with
  | none => 0xFFFFFFFF
  | some t => min 0xFFFFFFFE ((t - ts) / 65536)

/-- The trace record of R344. -/
def Tag.traceLine (t : Tag) (fate reason : Nat) (done : Option Nat) : Line :=
  let b := bytesLE 4 0 ++ bytesLE 1 t.pipe ++ bytesLE 1 t.inPort ++ bytesLE 1 t.egress ++
    bytesLE 1 (64 * fate + 32 * t.bank + 8 * (t.passes - 1) + t.queue) ++
    bytesLE 4 (t.outcome * 2 ^ 26 + t.record) ++ bytesLE 4 t.seq ++
    bytesLE 4 (t.ts / 65536 % 1000000000) ++ bytesLE 6 (t.ts / 65536 / 1000000000) ++ bytesLE 2 t.len ++
    bytesLE 4 (stageNs t.ts t.parse) ++ bytesLE 4 (stageNs t.ts t.flow) ++ bytesLE 4 (stageNs t.ts t.act) ++
    bytesLE 4 (stageNs t.ts t.buf) ++ bytesLE 4 (stageNs t.ts done) ++ bytesLE 4 t.occ ++ bytesLE 1 reason
  lineOfBytes 512 b

/-- The destination copy of a tagged packet meets its fate: 0 transmitted, 1 delivered, 2 dropped before admission, 3 discarded
after it.  Its record goes to ring 34 and its entry is free. -/
def State.traceDone (s : State) (k : Option Nat) (fate reason : Nat) (done : Option Nat) : State :=
  match k, s.tagAt k with
  | some k, some t =>
    let s := s.upIo fun io => io.ringPut 34 [t.traceLine fate (if fate = 1 ∨ fate = 2 then reason else 0) done]
    let s := { s with tel := { s.tel with tags := s.tel.tags.set none k none } }
    s.put (pgTel (k / 32)) TEL_TAG_STAT.BUSY (s.tagsBusy (k / 32))
  | _, _ => s

end Sys2Proof.Machine
end

