-- ==== Sys2Proof/Machine/Buffer.lean ====
section
/-!
DEFINITION. The packet buffer and its queues (R294 to R305, R310): admission of one copy, release, discards, occupancies.
-/
namespace Sys2Proof.Machine

/-- Cells of the buffer. -/
def poolCells : Nat := 393216

/-! ### Ports (R97, R104) -/

/-- The adopted mode of a port group. -/
def State.mode (s : State) (g : Nat) : Nat := (s.buf.group.get {} g).mode

/-- Port pn exists in its group's adopted mode (R97). -/
def State.portExists (s : State) (n : Nat) : Bool :=
  n < 128 &&
    match s.mode (n / 4) with
    | 0 => n % 4 == 0
    | 1 => n % 2 == 0
    | 2 => true
    | _ => false

/-- LINK_UP of port pn: ETH_LINK_STAT bit 4j (R114). -/
def State.linkUp (s : State) (n : Nat) : Bool := (s.get (pgEth (n / 4) 0) ETH_LINK_STAT.PORT).testBit (4 * (n % 4))

/-- The Ethernet rate of a port in Gb/s (R97). -/
def State.rate (s : State) (n : Nat) : Nat :=
  match s.mode (n / 4) with
  | 0 => 400
  | 1 => 200
  | _ => 100

/-- MAX_FRAME of a port (R101). -/
def State.maxFrame (s : State) (n : Nat) : Nat := s.get (pgEth (n / 4) 1) ETH_MAC_CFG.MAX_FRAME (n % 4)

/-! ### Queues (R296) -/

/-- Host queue h. -/
def hostQ (h : Nat) : Nat := 1024 + h

/-- Stack queue of a link and class. -/
def stackQ (link cls : Nat) : Nat := 1040 + 2 * link + cls

def State.queue (s : State) (q : Nat) : List Copy := s.buf.queues.get [] q

def State.setQueue (s : State) (q : Nat) (l : List Copy) : State :=
  { s with buf := { s.buf with queues := s.buf.queues.set [] q l } }

/-- Cells a copy charges to its queue (R295). -/
def Copy.cells (c : Copy) : Nat := ceilDiv c.len 256

/-- Occupancy of a queue in cells (R295). -/
def State.occ (s : State) (q : Nat) : Nat :=
  if q < 1024 then s.get (pgTmbP (q / 8)) TMB_Q_OCC.CELLS (q % 8)
  else if q < 1040 then s.get pgTmb TMB_HOSTQ_OCCh.CELLS (q - 1024)
  else ((s.queue q).map Copy.cells).sum

/-- MIN of a queue: host queues have none (R299, R302). -/
def State.qMin (s : State) (q : Nat) : Nat :=
  if q < 1024 then s.get (pgTmbP (q / 8)) TMB_Q_CFG.MIN (q % 8)
  else if q < 1040 then 0
  else s.get pgCsc CSC_SQ_CFGc.MIN ((q - 1040) % 2)

/-- Cells of the queue beyond its MIN. -/
def State.sharedOf (s : State) (q : Nat) : Nat := s.occ q - s.qMin q

/-- The reserve of R302: MIN over the egress queues, and over the stack queues while CASCADE is active. -/
def State.reserve (s : State) : Nat :=
  s.get pgTmb TMB_RESERVED.SUM +
    (if s.feature 6 then 4 * (s.get pgCsc CSC_SQ_CFGc.MIN 0 + s.get pgCsc CSC_SQ_CFGc.MIN 1) else 0)

/-- FS, the free shared count (R299). -/
def State.freeShared (s : State) : Nat := poolCells - s.reserve - s.get pgTmb TMB_SHARED_STAT.USED

/-- Load a high watermark with the larger of itself and the occupancy (R310), and the port's sum. -/
def State.setOcc (s : State) (q o : Nat) : State :=
  if q < 1024 then
    let b := pgTmbP (q / 8)
    let old := s.occ q
    let s := s.put b TMB_Q_OCC.CELLS o (q % 8)
    let s := s.upIo (·.maxTo b TMB_Q_HIGH.HIGH o (q % 8))
    s.put b TMB_PORT_OCC.CELLS (s.get b TMB_PORT_OCC.CELLS + o - old)
  else if q < 1040 then s.put pgTmb TMB_HOSTQ_OCCh.CELLS o (q - 1024)
  else s

/-- Occupancy of a queue changes by a list of copies put in their place: the list, OCC, watermarks and the shared count. -/
def State.changeQueue (s : State) (q : Nat) (l : List Copy) : State :=
  let u := s.sharedOf q
  let s1 := s.setQueue q l
  let s2 := s1.setOcc q ((l.map Copy.cells).sum)
  s2.put pgTmb TMB_SHARED_STAT.USED (s2.get pgTmb TMB_SHARED_STAT.USED + s2.sharedOf q - u)

/-- POOL_LOW is raised while FREE is below the threshold (R310, R311). -/
def State.lowCheck (s : State) : State :=
  if s.get pgTmb TMB_POOL_STAT.FREE < s.get pgTmb TMB_LOW_THRESH.CELLS then s.raise pgTmb 0 else s

/-- FREE changes: the low watermark follows, and POOL_LOW is raised below the threshold (R310, R311). -/
def State.setFree (s : State) (n : Nat) : State :=
  let s := s.put pgTmb TMB_POOL_STAT.FREE n
  let s := if n < s.get pgTmb TMB_FREE_LOW.LOW then s.put pgTmb TMB_FREE_LOW.LOW n else s
  s.lowCheck

def State.stored (s : State) (id : Nat) : Stored := s.buf.store.get {} id

def State.setStored (s : State) (id : Nat) (p : Stored) : State :=
  { s with buf := { s.buf with store := s.buf.store.set {} id p } }

/-- A copy's reference is released; the last one frees the cells (R294). -/
def State.release (s : State) (id : Nat) : State :=
  let p := s.stored id
  if p.refs ≤ 1 then (s.setStored id {}).setFree (s.get pgTmb TMB_POOL_STAT.FREE + p.cells)
  else s.setStored id { p with refs := p.refs - 1 }

/-- A packet takes its place in the store with no cells yet. -/
def State.newStored (s : State) (bytes : List Byte) : Nat × State :=
  (s.buf.nextId, { s.setStored s.buf.nextId { bytes := bytes } with
    buf := { (s.setStored s.buf.nextId { bytes := bytes }).buf with nextId := s.buf.nextId + 1 } })

/-! ### Heads of egress queues (R327, R329) -/

/-- Wire time of a frame in whole ns (R327). -/
def State.wireTime (s : State) (n L : Nat) : Nat := ceilDiv (8 * wireLen L) (s.rate n)

def State.operList (s : State) (n : Nat) : GateList := s.buf.oper.get {} n

/-- A frame is oversize for the list in force (R329). -/
def State.oversize (s : State) (n q L : Nat) : Bool :=
  s.feature 7 &&
    match (s.operList n).maxWin q with
    | none => false
    | some w => w < s.wireTime n L

/-- The head of a queue. -/
def State.head (s : State) (q : Nat) : Option Copy := (s.queue q).head?

/-- Discard the head frames of a queue that exceed its MAXWIN (R329). -/
def State.dropOversize (s : State) (n q : Nat) : Nat → State
  | 0 => s
  | f + 1 =>
    match s.head (8 * n + q) with
    | none => s
    | some c =>
      if s.oversize n q c.len then
        let s := s.changeQueue (8 * n + q) ((s.queue (8 * n + q)).drop 1)
        let s := (s.ctr (pgTgtP n) TGT_OVERSIZE_CNTq.COUNT 1 q).ctr pgTgt TGT_OVERSIZE_TOTAL.COUNT
        (((s.raiseOnce (pgTgtP n) 3).release c.pkt).traceDone c.tag 3 0 none).dropOversize n q f
      else s

/-- A queue has a new head: judged against MAXWIN of the list in force now (R329). -/
def State.newHead (s : State) (n q : Nat) : State := s.dropOversize n q (s.queue (8 * n + q)).length

/-- Every copy of a packet has been judged: a store record that got no copy leaves nothing behind, and a queue that holds only its
copies has a new head. -/
def State.placed (s : State) (id : Nat) : State :=
  let s := if (s.stored id).refs = 0 then s.setStored id {} else s
  (s.buf.queues.keys.filter fun k => k < 1024 && (s.queue k).all (·.pkt == id)).foldl (fun s k => s.newHead (k / 8) (k % 8)) s

/-! ### Admission (R298, R299) -/

/-- Why a copy is refused (R299). -/
inductive Refuse where
  | absent | linkDown | disabled | queueLimit | shared | poolEmpty
deriving DecidableEq, Repr

/-- EN, MAX and ALPHA of a queue (R299, R311). -/
def State.qCfg (s : State) (q : Nat) : Bool × Nat × Nat :=
  if q < 1024 then
    (s.get (pgTmbP (q / 8)) TMB_Q_CFG.EN (q % 8) == 1, s.get (pgTmbP (q / 8)) TMB_Q_MAX.MAX (q % 8),
     min 9 (s.get (pgTmbP (q / 8)) TMB_Q_CFG.ALPHA (q % 8)))
  else if q < 1040 then
    (s.get pgTmb TMB_HOSTQ_CFGh.EN (q - 1024) == 1, s.get pgTmb TMB_HOSTQ_CFGh.MAX (q - 1024), 9)
  else
    (true, s.get pgCsc CSC_SQ_CFGc_W1.MAX ((q - 1040) % 2),
     min 9 (s.get pgCsc CSC_SQ_CFGc.ALPHA ((q - 1040) % 2)))

/-- The tests of R299 that concern the queue and the pool, in order. -/
def State.judgeQueue (s : State) (q c : Nat) (ele : Bool) : Option Refuse :=
  let (en, mx, alpha) := s.qCfg q
  let o := s.occ q
  let mn := s.qMin q
  let sh := max (o + c) mn - max o mn
  let u := max o mn - mn
  let a := if ele then min alpha (min 9 (s.get pgTmb TMB_ELE_CFG.ELE_ALPHA)) else alpha
  let fs := s.freeShared
  if !en then some .disabled
  else if mx < o + c then some .queueLimit
  else if 0 < sh ∧ (fs < sh ∨ (fs * 2 ^ a) / 64 < u + sh) then some .shared
  else if s.get pgTmb TMB_POOL_STAT.FREE < c then some .poolEmpty
  else none

/-- The tests of R299 for a port copy, existence and link first. -/
def State.judgePort (s : State) (n q c : Nat) (ele : Bool) : Option Refuse :=
  if !(s.portExists n) then some .absent
  else if !(s.linkUp n) then some .linkDown
  else s.judgeQueue (8 * n + q) c ele

/-- The egress queue after elephant redirection (R298). -/
def State.eleQueue (s : State) (n q : Nat) (ele : Bool) : Nat :=
  if ele && s.get (pgTmbP n) TMB_PORT_CFG.ELE_EN = 1 then s.get (pgTmbP n) TMB_Q_CFG.ELE_Q q else q

/-- A copy enters its queue: the packet is stored once, its cells are those of its largest copy (R294, R295). -/
def State.enqueue (s : State) (q : Nat) (c : Copy) : State :=
  let p := s.stored c.pkt
  let extra := c.cells - p.cells
  let s := s.setStored c.pkt { p with cells := p.cells + extra, refs := p.refs + 1 }
  let s := s.setFree (s.get pgTmb TMB_POOL_STAT.FREE - extra)
  let s := if (s.queue q).isEmpty then
      (if q < 1024 then s.put (pgSchP (q / 8)) SCH_Q_DEFICITq.BYTES 0 (q % 8)
       else { s with buf := { s.buf with hostDef := s.buf.hostDef.set 0 (q - 1024) 0 } })
    else s
  s.changeQueue q (s.queue q ++ [c])

/-- The counters of a refused port copy (R311). -/
def State.countRefusedPort (s : State) (n q len : Nat) (r : Refuse) : State :=
  match r with
  | .absent => s.ctr (pgTmbP n) TMB_ABSENT_CNT.COUNT
  | .linkDown => s.ctr (pgTmbP n) TMB_LINKDOWN_REFUSED_CNT.COUNT
  | r =>
    let s := (s.ctr (pgTmbP n) TMB_Q_DROP_PKTSq.COUNT 1 q).ctr (pgTmbP n) TMB_Q_DROP_BYTESq.COUNT len q
    let s := if r = .poolEmpty then s.ctr pgTmb TMB_POOL_EMPTY_CNT.COUNT else s
    s.raiseOnce (pgTmbP n) 0

/-- Admit a copy to queue `q` of port `n`, or refuse and count it; the verdict says whether it was admitted (R299). -/
def State.admitPort (s : State) (n q : Nat) (c : Copy) (ele : Bool) : State × Bool :=
  if 128 ≤ n then (s, false)
  else
    let q := s.eleQueue n q ele
    match s.judgePort n q c.cells ele with
    | some r => (s.countRefusedPort n q c.len r, false)
    | none =>
      let s := s.enqueue (8 * n + q) c
      ((s.ctr (pgTmbP n) TMB_Q_ADMIT_PKTSq.COUNT 1 q).ctr (pgTmbP n) TMB_Q_ADMIT_BYTESq.COUNT c.len q, true)

/-- Admit a copy to host queue `h`, or refuse and count it (R24, R299). -/
def State.admitHost (s : State) (h : Nat) (c : Copy) : State × Bool :=
  match s.judgeQueue (hostQ h) c.cells false with
  | some r =>
    let s := s.ctr pgTmb TMB_HOST_REFUSED_CNT.COUNT
    let s := if r = .poolEmpty then s.ctr pgTmb TMB_POOL_EMPTY_CNT.COUNT else s
    (s.raiseOnce pgTmb 2, false)
  | none => (s.enqueue (hostQ h) c, true)

/-! ### Discards after admission (R303) -/

/-- Discard the first `k` copies of a queue, each counted by `f` of page `b`. -/
def State.discardFirst (s : State) (q k b : Nat) (f : Fld) : State :=
  let l := s.queue q
  let s := s.changeQueue q (l.drop k)
  (l.take k).foldl (fun s c => ((s.ctr b f).release c.pkt).traceDone c.tag 3 0 none) s

/-- Discard every copy of a queue. -/
def State.discardAll (s : State) (q b : Nat) (f : Fld) : State := s.discardFirst q (s.queue q).length b f

/-- Discard every copy of a port's queues. -/
def State.discardPort (s : State) (n : Nat) (f : Fld) : State :=
  (List.range 8).foldl (fun s q => s.discardAll (8 * n + q) (pgTmbP n) f) s

/-- TMB_Q_FLUSH: every copy admitted before the write (R303). -/
def State.swFlush (s : State) (n mask : Nat) : State :=
  (onesOf 8 mask).foldl (fun s q => s.discardAll (8 * n + q) (pgTmbP n) TMB_SWFLUSH_CNT.COUNT) s

/-- HOLD_MS after the link went down, the port's copies are discarded (R104, R303). -/
def State.linkFlush (s : State) (n : Nat) : State :=
  if ((List.range 8).all fun q => (s.queue (8 * n + q)).isEmpty) then s
  else (s.discardPort n TMB_LINKDOWN_FLUSH_CNT.COUNT).raise (pgTmbP n) 1

/-- While the watchdog ignores pause, copies are discarded at the head (R107, R303). -/
def State.wdDrain (s : State) (n q : Nat) : State :=
  if (s.queue (8 * n + q)).isEmpty then s
  else (s.discardAll (8 * n + q) (pgTmbP n) TMB_WD_DISCARD_CNT.COUNT).raise (pgTmbP n) 2

/-! ### Writes of buffer settings (R301, R302, R310) -/

/-- A write of TMB_Q_CFG: MIN is ignored and counted when the reserve would pass 196,608 cells (R302). -/
def State.qCfgWrite (s : State) (n q m v : Nat) : State :=
  let a := pgTmbP n + 0x040 + 0x10 * q
  let old := s.get (pgTmbP n) TMB_Q_CFG.MIN q
  let new := v % 2 ^ 16
  let sum := s.get pgTmb TMB_RESERVED.SUM
  let stackMin := 4 * (s.get pgCsc CSC_SQ_CFGc.MIN 0 + s.get pgCsc CSC_SQ_CFGc.MIN 1)
  let keep : Bool := old < new && 196608 < sum + new - old + stackMin
  let mn := if keep then old else new
  let u := s.sharedOf (8 * n + q)
  let s := s.upIo fun io => io.wr a (BitVec.ofNat 32 (setBitsOf (v % 2 ^ 32) 0 24 mn))
  let s := s.put pgTmb TMB_RESERVED.SUM (sum + mn - old)
  let s := s.put pgTmb TMB_SHARED_STAT.USED (s.get pgTmb TMB_SHARED_STAT.USED + s.sharedOf (8 * n + q) - u)
  if keep then s.err (pgTmbP n) 3 m (0x040 + 0x10 * q) else s

/-- A write of a high watermark: the larger of the written value and the occupancy (R310). -/
def State.highWrite (s : State) (n q v : Nat) : State :=
  s.put (pgTmbP n) TMB_Q_HIGH.HIGH (max (v % 2 ^ 19) (s.occ (8 * n + q))) q

/-- A write of the low watermark: the smaller of the written value and FREE (R310). -/
def State.lowWrite (s : State) (v : Nat) : State :=
  s.put pgTmb TMB_FREE_LOW.LOW (min (v % 2 ^ 19) (s.get pgTmb TMB_POOL_STAT.FREE))

/-! ### Host transmit (R84) -/

/-- A frame of an accepted queue entry goes to its egress queue (R83, R84); the length counts 4 B in place of the FCS. -/
def State.hostTx (s : State) (n q : Nat) (bytes : List Byte) : State × Bool :=
  let len := bytes.length + 4
  if s.maxFrame n < len then (s.ctr pgTmb TMB_HOSTTX_REFUSED_CNT.COUNT, false)
  else
    let (id, s) := s.newStored bytes
    let (s, ok) := s.admitPort n q { pkt := id, len := len } false
    let s := s.placed id
    (if ok then s else s.ctr pgTmb TMB_HOSTTX_REFUSED_CNT.COUNT, ok)

end Sys2Proof.Machine
end

