-- ==== Sys2Proof/Machine/Ports.lean ====
section
/-!
DEFINITION. Ethernet ports (R97 to R114): group configuration, links, reception, flow control, timestamps, PPS.
-/
namespace Sys2Proof.Machine

/-! ### Timestamps (R108) -/

/-- The time base now in units of 2^-16 ns. -/
def Io.now16 (s : Io) : Nat := 65536 * s.time.ns + s.time.sub * 65536 / subUnit

/-- A timestamp with a signed adjustment in ps. -/
def adjPs (t : Int) (ps : Nat) : Nat := (t + (65536 * toSigned 32 ps) / 1000).toNat

/-- How long `len` bytes take on the wire of port n, in units of 2^-16 ns. -/
def State.onWire (s : State) (n len : Nat) : Nat := 65536 * 8 * len / s.rate n

/-- The receive timestamp of a frame of `len` bytes whose last byte arrives now: the time its first symbol after the SFD arrived,
with the port's adjustment (R108). -/
def State.rxStamp (s : State) (n len : Nat) : Nat :=
  adjPs ((s.io.now16 : Int) - s.onWire n len) (s.get (pgEth (n / 4) 3) ETH_TS_RX_ADJj.PS (n % 4))

/-- The transmit timestamp of port n at this instant (R108). -/
def State.txStamp (s : State) (n : Nat) : Nat := adjPs s.io.now16 (s.get (pgEth (n / 4) 3) ETH_TS_TX_ADJj.PS (n % 4))

/-- Seconds, nanoseconds and 16 fraction bits of a timestamp. -/
def stampSec (t : Nat) : Nat := t / 65536 / 1000000000
def stampNs (t : Nat) : Nat := t / 65536 % 1000000000
def stampFrac (t : Nat) : Nat := t % 65536

/-- The 16 B trailer of R111. -/
def trailerBytes (t port pipe : Nat) : List Byte :=
  bytesLE 4 (stampNs t) ++ bytesLE 6 (stampSec t) ++ bytesLE 1 port ++ bytesLE 1 pipe ++ bytesLE 2 (stampFrac t) ++
    bytesLE 2 0

/-! ### Links (R104, R114) -/

/-- Set the four status bits of a port slot in ETH_LINK_STAT. -/
def State.setLink (s : State) (n v : Nat) : State :=
  let b := pgEth (n / 4) 0
  s.put b ETH_LINK_STAT.PORT (setBitsOf (s.get b ETH_LINK_STAT.PORT) (4 * (n % 4)) 4 v)

/-- Set BLOCK_LOCK, AM_LOCK and HI_BER of a port slot (R114). -/
def State.setPcs (s : State) (n v : Nat) : State :=
  let b := pgEth (n / 4) 2
  ((s.put b ETH_PCS_STAT.BLOCK_LOCK (bitsOf v 0 1) (n % 4)).put b ETH_PCS_STAT.AM_LOCK (bitsOf v 1 1) (n % 4)).put b
    ETH_PCS_STAT.HI_BER (bitsOf v 2 1) (n % 4)

/-- A link state change is reported: ETH_LINK_CHG and LINK_CHANGE (R114). -/
def State.linkChange (s : State) (n : Nat) : State :=
  let b := pgEth (n / 4) 0
  (s.put b ETH_LINK_CHG.CHG (s.get b ETH_LINK_CHG.CHG ||| 2 ^ (n % 4))).raise b 0

/-- The frame in transmission on a port ends with an error: transmit-aborted, its reference released (R104, R304). -/
def State.abortTx (s : State) (n : Nat) : State :=
  let sc := s.buf.sched.get {} n
  match sc.tx with
  | none => s
  | some (c, _) =>
    let s := { s with buf := { s.buf with sched := s.buf.sched.set {} n { sc with tx := none } } }
    (s.ctr (pgTmbP n) TMB_TX_ABORT_CNT.COUNT).release c.pkt

/-- Auto-negotiation and link training belong to CR and KR, not to the AUI types (R98). -/
def Group.trains (g : Group) : Bool := decide (g.iface < 2)

/-- A port's link comes up; `an`: auto-negotiation, where the interface has it and AN_EN is 1, completed (R98, R114). -/
def State.portUp (s : State) (n : Nat) (an : Bool) : State :=
  if s.portExists n && !(s.linkUp n) then
    let an := an && (s.buf.group.get {} (n / 4)).trains && s.get (pgEth (n / 4) 0) ETH_AN_CFG.AN_EN == 1
    ((s.setLink n (1 + 8 * b2n an)).setPcs n 3).linkChange n
  else s

/-- A port's link goes down: the frame in transmission is aborted, the one in reception counted (R101, R104). -/
def State.portDown (s : State) (n : Nat) (receiving : Bool) : State :=
  if s.linkUp n then
    let s := s.linkChange n
    let s := if receiving then s.ctr (pgPmcL (n / 16)) PMC_RX_LINK_ABORT.COUNT 1 (n % 16) else s
    s.abortTx n
  else s

/-- What the receiver of a port whose link is down sees: the faults of ETH_LINK_STAT and BLOCK_LOCK, AM_LOCK and HI_BER in `pcs`;
a slot without a port shows none (R98, R114). -/
def State.portFaults (s : State) (n : Nat) (localFault remoteFault : Bool) (pcs : Nat) : State :=
  if s.portExists n then (s.setLink n (2 * b2n localFault + 4 * b2n remoteFault)).setPcs n pcs else s

/-! ### Group configuration (R97, R99) -/

/-- A lane map names four different physical lanes. -/
def laneMapOk (m : Nat) : Bool :=
  let l := (List.range 4).map fun j => bitsOf m (2 * j) 2
  l.all fun x => (l.filter (· == x)).length == 1

/-- APPLY: refused for a lane map with two lanes on one; else the new configuration is adopted, every port of the group goes
down, and the queues of ports that cease to exist are discarded (R99, R104).  Slots whose bit in `receiving` is 1 have a frame in
reception (R101). -/
def State.groupApply (s : State) (g m : Nat) (receiving : Nat := 0) : State :=
  let b := pgEth g 0
  let map := s.get b ETH_LANE_MAP.RX_MAP + 256 * s.get b ETH_LANE_MAP.TX_MAP
  if !(laneMapOk (map % 256)) || !(laneMapOk (map / 256)) then s.err b 3 m 0x044
  else
    let ports := (List.range 4).map (4 * g + ·)
    let had := ports.filter s.portExists
    let s := ports.foldl (fun s n => ((s.portDown n (receiving.testBit (n % 4))).setLink n 0).setPcs n 0) s
    let new : Group := { mode := s.get b ETH_GRP_CFG.MODE, iface := s.get b ETH_GRP_CFG.IFACE,
                         pol := s.get b ETH_LANE_POL.RX_INV + 16 * s.get b ETH_LANE_POL.TX_INV, map := map }
    let s := { s with buf := { s.buf with group := s.buf.group.set {} g new } }
    had.foldl (fun s n => if s.portExists n then s else s.discardPort n TMB_CEASED_CNT.COUNT) s

/-- A write of ETH_MAC_CFG: MAX_FRAME is clamped to 1518 to 9216 (R101). -/
def macCfgClamp (v : Nat) : Nat :=
  let f := bitsOf v 0 14
  setBitsOf v 0 14 (if f < 1518 then 1518 else if 9216 < f then 9216 else f)

/-! ### Staging and generated flow control (R101, R106) -/

def State.staged (s : State) (p : Nat) : List Pkt := s.buf.staging.get [] p

def State.setStaged (s : State) (p : Nat) (l : List Pkt) : State :=
  { s with buf := { s.buf with staging := s.buf.staging.set [] p l } }

/-- 64 B cells a frame takes in staging. -/
def Pkt.cells (k : Pkt) : Nat := ceilDiv (k.bytes.length + 4) 64

/-- Staging capacity of a pipeline in 64 B cells: 2 MiB (R29). -/
def stagingCells : Nat := 32768

/-- Occupancy of a port's frames in staging, of one priority or of all (R106). -/
def State.stgOcc (s : State) (n : Nat) (prio : Option Nat) : Nat :=
  (((s.staged (n / 16)).filter fun k => k.inPort == n && k.steered == false &&
      (match prio with | none => true | some i => k.prio == i)).map Pkt.cells).sum

/-- FC_MODE of a port; 3 is treated as 0 (R114). -/
def State.fcMode (s : State) (n : Nat) : Nat := s.get (pgEth (n / 4) 1) ETH_MAC_CFG.FC_MODE (n % 4) % 3

/-- XON as used: a value above XOFF is treated as XOFF (R114). -/
def State.xon (s : State) (n : Nat) : Nat :=
  min (s.get (pgEth (n / 4) 1) ETH_FC_XOFF.XON (n % 4)) (s.get (pgEth (n / 4) 1) ETH_FC_XOFF.XOFF (n % 4))

/-- The priorities of a port in XOFF towards its partner. -/
def State.txXoff (s : State) (n : Nat) : Nat := s.get (pgEth (n / 4) 1) ETH_FC_STAT.TX_XOFF (n % 4)

/-- The state of one priority after a change of occupancy: XOFF at the threshold, XON below XON (R106). -/
def xoffNext (was : Bool) (occ xoff xon : Nat) : Bool := if was then decide (xon ≤ occ) else decide (xoff ≤ occ)

/-- A MAC Control frame of port `n` goes out while the port's link is up and its transmitter enabled (R103, R114). -/
def State.macTx (s : State) (n : Nat) (pfc : Bool) (classes : Nat) (quanta : List Nat) : State :=
  if s.linkUp n ∧ s.get (pgEth (n / 4) 1) ETH_MAC_CFG.TX_EN (n % 4) = 1 then s.emit (.macCtl n pfc classes quanta) else s

/-- The priorities PFC signals on port `n`: ETH_PFC_MAP.TX_EN (R106). -/
def State.pfcTx (s : State) (n : Nat) : Nat := s.get (pgEth (n / 4) 1) ETH_PFC_MAP.TX_EN (n % 4)

/-- One PFC frame for the priorities `classes`: those in XOFF carry the quanta, the others 0 (R106). -/
def State.pfcSend (s : State) (n classes xoff : Nat) : State :=
  let q := s.get (pgEth (n / 4) 1) ETH_FC_QUANTA.QUANTA (n % 4)
  if classes = 0 then s
  else s.macTx n true classes ((List.range 8).map fun i => if classes.testBit i ∧ xoff.testBit i then q else 0)

/-- Generate XOFF and XON from the occupancy of a port's frames in staging (R106): one PFC frame carries every priority that
changed, up or down, and only priorities that are signalled; without flow control no priority is in XOFF. -/
def State.fcUpdate (s : State) (n : Nat) : State :=
  let b := pgEth (n / 4) 1
  let old := s.txXoff n
  let xoff := s.get b ETH_FC_XOFF.XOFF (n % 4)
  let q := s.get b ETH_FC_QUANTA.QUANTA (n % 4)
  match s.fcMode n with
  | 1 =>
    let nx := xoffNext (old ≠ 0) (s.stgOcc n none) xoff (s.xon n)
    let new := if nx then 0xFF else 0
    let s := s.put b ETH_FC_STAT.TX_XOFF new (n % 4)
    if new = old then s else s.macTx n false 0xFF [if nx then q else 0]
  | 2 =>
    let en := s.pfcTx n
    let new := (List.range 8).foldl (fun a i =>
      a + (if en.testBit i && xoffNext (old.testBit i) (s.stgOcc n (some i)) xoff (s.xon n) then 2 ^ i else 0)) 0
    let s := s.put b ETH_FC_STAT.TX_XOFF new (n % 4)
    s.pfcSend n ((new ^^^ old) &&& en) new
  | _ => s.put b ETH_FC_STAT.TX_XOFF 0 (n % 4)

/-- Half the quanta time has passed: XOFF is resent while the occupancy is at or above XON, under PFC for the signalled priorities
for which it is (R106). -/
def State.xoffResend (s : State) (n : Nat) : State :=
  match s.fcMode n with
  | 1 =>
    if s.txXoff n ≠ 0 ∧ s.xon n ≤ s.stgOcc n none then
      s.macTx n false 0xFF [s.get (pgEth (n / 4) 1) ETH_FC_QUANTA.QUANTA (n % 4)]
    else s
  | 2 =>
    let c := (List.range 8).foldl (fun a i =>
      a + (if (s.txXoff n &&& s.pfcTx n).testBit i && decide (s.xon n ≤ s.stgOcc n (some i)) then 2 ^ i else 0)) 0
    s.pfcSend n c c
  | _ => s

/-- A frame enters staging, or is discarded when staging is full (R101, R369). -/
def State.stage (s : State) (k : Pkt) : State :=
  let l := s.staged k.pipe
  let used := (l.map Pkt.cells).sum
  let b := pgPmcL k.pipe
  if stagingCells < used + k.cells then
    if k.steered then s
    else (s.ctr b PMC_RX_STG_DROP.COUNT 1 (k.inPort % 16)).upIo (·.accAdd b PORT_STG_DROP.COUNT 1 (k.inPort % 16))
  else
    let s := s.setStaged k.pipe (l ++ [k])
    if k.steered then s else s.fcUpdate k.inPort

/-! ### Reception (R101, R102, R108) -/

/-- The PCP of a frame's outer VLAN tag, 0 when untagged (R106). -/
def framePrio (d : List Byte) : Nat :=
  let et := beAt d 12 2
  if et = 0x8100 ∨ et = 0x88A8 then beAt d 14 1 / 32 else 0

/-- Pause a port's queues from a received PAUSE or PFC frame: `classes` and their quanta; a quanta of 0 resumes (R105). -/
def State.pauseRx (s : State) (n : Nat) (classes : Nat) (quanta : Nat → Nat) : State :=
  let b := pgEth (n / 4) 1
  let old := s.get b ETH_FC_STAT.RX_PAUSED (n % 4)
  let new := (List.range 8).foldl (fun a i =>
    a + (if classes.testBit i then (if quanta i = 0 then 0 else 2 ^ i) else b2n (old.testBit i) * 2 ^ i)) 0
  let s := s.put b ETH_FC_STAT.RX_PAUSED new (n % 4)
  let sc := s.buf.sched.get {} n
  let ends := (List.range 8).foldl (fun (e : SMap Nat) i =>
    if classes.testBit i then
      e.set 0 i (if quanta i = 0 then 0 else s.io.time.counted + ceilDiv (512 * quanta i) (max 1 (s.rate n)))
    else e) sc.pauseEnd
  { s with buf := { s.buf with sched := s.buf.sched.set {} n { sc with pauseEnd := ends } } }

/-- A received PAUSE frame (`pfc` false) or PFC frame under the port's FC_MODE (R105). -/
def State.pauseFrame (s : State) (n : Nat) (pfc : Bool) (classes : Nat) (quanta : Nat → Nat) : State :=
  if pfc then
    (if s.fcMode n = 2 then s.pauseRx n (classes &&& s.get (pgEth (n / 4) 1) ETH_PFC_MAP.RX_EN (n % 4)) quanta else s)
  else if s.fcMode n = 1 then s.pauseRx n 0xFF (fun _ => quanta 0) else s

/-- A received MAC Control frame (R102, R105): PAUSE acts on all eight queues, PFC on those whose ETH_PFC_MAP.RX_EN bit is set; each
under the port's own FC_MODE only.  DESIGN CHOICE (log entry 69): a PAUSE or PFC frame is valid by its EtherType and its opcode,
whatever its destination address. -/
def State.macControl (s : State) (n : Nat) (d : List Byte) : State :=
  let op := beAt d 14 2
  if op = 0x0001 then s.pauseFrame n false 0 (fun _ => beAt d 16 2)
  else if op = 0x0101 then s.pauseFrame n true (beAt d 16 2) (fun i => beAt d (18 + 2 * i) 2)
  else s.ctr (pgPmcL (n / 16)) PMC_RX_MACCTL_UNK.COUNT 1 (n % 16)

/-- LEDs in mode 3 that watch a port go off for 50 ms after each frame received (R513). -/
def Io.ledFrame (s : Io) (n : Nat) : Io :=
  (List.range 4).foldl (fun s i =>
    if s.get pgSys SYS_LED_CFGn.MODE i = 3 && s.get pgSys SYS_LED_CFGn.PORT i == n then
      { s with sys := { s.sys with ledOff := s.sys.ledOff ||| BitVec.ofNat 4 (2 ^ i) } } else s) s

/-- A port has received a whole frame, `d` with its FCS; `bad`: it carried an uncorrectable codeword (R101, R102, R108).
DESIGN CHOICE (log entry 69): a frame with two causes of discard is counted under the first of these: RX_EN 0, too short, too
long, bad FCS. -/
def State.frameRx (s : State) (n : Nat) (d : List Byte) (bad : Bool) : State :=
  let p := n / 16
  let j := n % 16
  let b := pgPmcL p
  let body := d.take (d.length - 4)
  if s.get (pgEth (n / 4) 1) ETH_MAC_CFG.RX_EN (n % 4) = 0 then s.ctr b PMC_RX_DISABLED.COUNT 1 j
  else if d.length < 64 then s.ctr b PMC_RX_RUNT.COUNT 1 j
  else if s.maxFrame n < d.length then s.ctr b PMC_RX_OVERSIZE.COUNT 1 j
  else if bad || d.drop (d.length - 4) != fcsOf body then s.ctr b PMC_RX_FCS_ERR.COUNT 1 j
  else if beAt d 12 2 = 0x8808 then (s.ctr b PMC_RX_MACCTL.COUNT 1 j).macControl n d
  else
    let s := (s.ctr b PMC_RX_FRAMES.COUNT 1 j).ctr b PMC_RX_BYTES.COUNT d.length j
    let s := s.upIo fun io => ((io.accAdd b PORT_RX_FRAMES.COUNT 1 j).accAdd b PORT_RX_BYTES.COUNT d.length j).ledFrame n
    s.stage { bytes := body, pipe := p, inPort := n, ts := s.rxStamp n d.length, prio := framePrio d }

/-! ### Watchdog (R107) -/

/-- The received-pause watchdog of a queue fires: reported, and with ACTION = 1 pause is ignored from then on. -/
def State.wdFire (s : State) (n q : Nat) : State :=
  let b := pgEth (n / 4) 1
  let j := n % 4
  if s.get b ETH_PFC_WD.LIMIT_MS j = 0 || !((s.get b ETH_FC_STAT.RX_PAUSED j).testBit q) then s
  else
    let s := (s.put b ETH_FC_STAT.WD_FIRED (s.get b ETH_FC_STAT.WD_FIRED j ||| 2 ^ q) j).raise b (4 * j)
    if s.get b ETH_PFC_WD.ACTION j = 1 then
      let sc := s.buf.sched.get {} n
      ({ s with buf := { s.buf with sched := s.buf.sched.set {} n { sc with ignore := sc.ignore ||| 2 ^ q } } }).wdDrain n q
    else s

/-- The queue has been empty for 1 ms: received pause is honoured again (R107). -/
def State.wdRecover (s : State) (n q : Nat) : State :=
  let sc := s.buf.sched.get {} n
  if sc.ignore.testBit q && (s.queue (8 * n + q)).isEmpty then
    { s with buf := { s.buf with sched := s.buf.sched.set {} n { sc with ignore := sc.ignore - 2 ^ q } } }
  else s

/-- The pause state of a queue in the scheduler: paused by the partner and not ignored (R105, R107).  DESIGN CHOICE (log entry 69):
a queue that is paused stays so until its timer ends, although its ETH_PFC_MAP.RX_EN bit or FC_MODE changes or the link goes down. -/
def State.paused (s : State) (n q : Nat) : Bool :=
  (s.get (pgEth (n / 4) 1) ETH_FC_STAT.RX_PAUSED (n % 4)).testBit q && !((s.buf.sched.get {} n).ignore.testBit q)

/-! ### FEC (R98, R114) -/

/-- Codewords of a port: corrected, symbols corrected, uncorrectable, counted at a 1 ms window end; DEGRADED when corrected
symbols exceed THRESH (R114). -/
def State.fecWindow (s : State) (n corr sym uncorr : Nat) : State :=
  if !(s.portExists n) then s else
  let b := pgEth (n / 4) 2
  let j := n % 4
  let s := ((s.ctr b ETH_FEC_CORR.COUNT corr j).ctr b ETH_FEC_SYMERR.COUNT sym j).ctr b ETH_FEC_UNCORR.COUNT uncorr j
  let t := s.get b ETH_FEC_DEGRADE_CFG.THRESH j
  let deg : Bool := t ≠ 0 && t < sym
  let s := s.put b ETH_PCS_STAT.DEGRADED (b2n deg) j
  let s := if deg then s.raise b (2 * j) else s
  if uncorr = 0 then s else s.raise b (2 * j + 1)

/-! ### Transmit timestamps (R110) -/

def State.txtsFifo (s : State) (n : Nat) : List (Nat × Nat × Nat × Nat) := s.buf.txts.get [] n

def State.setTxts (s : State) (n : Nat) (l : List (Nat × Nat × Nat × Nat)) : State :=
  { s with buf := { s.buf with txts := s.buf.txts.set [] n l } }

/-- A two-step timestamp: captured, or discarded with OVF when the FIFO holds 16 (R110). -/
def State.txtsCapture (s : State) (n t dom seq : Nat) : State :=
  let b := pgEth (n / 4) 3
  let l := s.txtsFifo n
  if 16 ≤ l.length then
    (s.put b ETH_TXTS_OVF.OVF (s.get b ETH_TXTS_OVF.OVF ||| 2 ^ (n % 4))).raise b 4
  else (s.setTxts n (l ++ [(stampNs t, stampSec t, dom, seq)])).raise b (n % 4)

/-- A write of ETH_TXTS_POP removes the head of each selected FIFO. -/
def State.txtsPop (s : State) (g mask : Nat) : State :=
  (onesOf 4 mask).foldl (fun s j => s.setTxts (4 * g + j) ((s.txtsFifo (4 * g + j)).drop 1)) s

/-- A word of the transmit timestamp registers as it reads (R114): count word or head word `w` of slot `j`. -/
def State.txtsCnt (s : State) (g : Nat) : Nat :=
  (List.range 4).foldl (fun a j => a + 2 ^ (8 * j) * (s.txtsFifo (4 * g + j)).length) 0

def State.txtsHead (s : State) (g j w : Nat) : Nat :=
  match s.txtsFifo (4 * g + j) with
  | [] => 0
  | (ns, sec, dom, seq) :: _ =>
    match w with
    | 0 => ns
    | 1 => sec % 2 ^ 32
    | 2 => sec / 2 ^ 32 % 2 ^ 16
    | _ => 2 ^ 31 + dom % 256 * 2 ^ 16 + seq % 2 ^ 16

/-! ### PPS (R112, R113) -/

/-- PPS_OUT rises as the nanoseconds return to 0, when OUT_EN is 1, to stay high for WIDTH_US µs, 0 treated as 1 (R112). -/
def State.ppsRise (s : State) : State :=
  let s := s.upIo fun io => { io with time := { io.time with due := { io.time.due with pps := io.time.due.pps - 1 } } }
  if s.get (pgEth 0 3) ETH_PPS_CFG.OUT_EN = 1 then
    s.upSys fun y => { y with ppsHigh := true, ppsEnd := s.io.time.counted + 1000 * max 1 (s.get (pgEth 0 3) ETH_PPS_CFG.WIDTH_US) }
  else s

/-- PPS_OUT falls. -/
def State.ppsFall (s : State) : State := s.upSys fun y => { y with ppsHigh := false, ppsEnd := 0 }

/-- The level of PPS_OUT: driven while OUT_EN is 1, high-impedance otherwise (R112). -/
def State.ppsPin (s : State) : Option Bool :=
  if s.get (pgEth 0 3) ETH_PPS_CFG.OUT_EN = 1 then some s.io.sys.ppsHigh else none

/-- A write of ETH_PPS_CFG has been made: with OUT_EN 0 the pin is no longer driven, and a pulse ends (R112). -/
def State.ppsCfg (s : State) : State := if s.get (pgEth 0 3) ETH_PPS_CFG.OUT_EN = 1 then s else s.ppsFall

/-- The selected edge of PPS_IN loads the capture; after a step that took effect in the capture cycle it holds the time before
the step (R113). -/
def State.ppsIn (s : State) (rising : Bool) : State :=
  let b := pgEth 0 3
  let step := s.io.time.stepped
  if s.get b ETH_PPS_CFG.IN_EN = 1 && (s.get b ETH_PPS_CFG.IN_EDGE == b2n (!rising)) then
    let t := step.getD s.io.time.ns
    let overrun := s.get b ETH_PPS_CAP_STAT.VALID = 1
    let s := s.put b ETH_PPS_CAP_NS.NS (t % 1000000000)
    let s := s.put b ETH_PPS_CAP_SEC_LO.SEC (t / 1000000000)
    let s := s.put b ETH_PPS_CAP_STAT.SEC_HI (t / 1000000000 / 2 ^ 32)
    let s := s.put b ETH_PPS_CAP_STAT.VALID 1
    let s := if overrun then s.put b ETH_PPS_CAP_STAT.OVERRUN 1 else s
    let s := if step.isSome then s.put b ETH_PPS_CAP_STAT.STEPPED 1 else s
    s.raise b 5
  else s

end Sys2Proof.Machine
end

