-- ==== Sys2Proof/Machine/Sched.lean ====
section
/-!
DEFINITION. Shapers and policers (R312 to R324), time gates (R325 to R331) and transmission (R294, R306 to R309).
-/
namespace Sys2Proof.Machine

/-! ### Buckets (R312 to R318) -/

/-- Bucket of queue q of port n: 0 committed, 1 peak. -/
def qBucket (n q c : Nat) : Nat := 4 * (8 * n + q) + c

/-- Bucket of port n. -/
def pBucket (n c : Nat) : Nat := 4096 + 2 * n + c

def State.bucket (s : State) (k : Nat) : Bucket := s.buf.bucket.get {} k

def State.setBucket (s : State) (k : Nat) (b : Bucket) : State :=
  { s with buf := { s.buf with bucket := s.buf.bucket.set {} k b } }

/-- A bucket lets a frame start: disabled, or its tokens are 0 or more (R314). -/
def Bucket.eligible (b : Bucket) : Bool := b.rate = 0 || decide (0 ≤ b.tokens)

/-- A wire length is charged to an enabled bucket (R315). -/
def Bucket.charge (b : Bucket) (w : Nat) : Bucket := if b.rate = 0 then b else { b with tokens := b.tokens - 1000 * (w : Int) }

/-- One refill under the settings in force at it (R312, R315, R316). -/
def Bucket.refill (b : Bucket) (rate burst : Nat) : Bucket :=
  if rate = 0 then {}
  else if b.rate = 0 then ⟨rate, burst, 1000 * (burst : Int)⟩
  else ⟨rate, burst, min (1000 * (burst : Int)) (b.tokens + 8 * (rate : Int))⟩

/-- The active RATE and BURST of a bucket (R332). -/
def Io.bucketCfg (s : Io) (k : Nat) : Nat × Nat :=
  if k < 4096 then
    let b := pgShpP (k / 32)
    let q := k / 4 % 8
    if k % 4 = 0 then (s.get b SHP_Q_CIR.RATE q, s.get b SHP_Q_CBS.BYTES q)
    else (s.get b SHP_Q_PIR.RATE q, s.get b SHP_Q_PBS.BYTES q)
  else
    let b := pgShpP ((k - 4096) / 2)
    if k % 2 = 0 then (s.get b SHP_PORT_CIR.RATE, s.get b SHP_PORT_CBS.BYTES)
    else (s.get b SHP_PORT_PIR.RATE, s.get b SHP_PORT_PBS.BYTES)

/-- The ports whose SHP page holds a setting: their RWS words reset to 0, so a set one is listed. -/
def Io.shpPorts (s : Io) : List Nat :=
  (List.range 128).filter fun n => s.bank.any fun e => 2 * pgShpP n ≤ e.1 && e.1 < 2 * pgShpP n + 0x2000

/-- The eighteen buckets of a port. -/
def portBuckets (n : Nat) : List Nat :=
  ((List.range 8).flatMap fun q => [qBucket n q 0, qBucket n q 1]) ++ [pBucket n 0, pBucket n 1]

/-- Refill one bucket. -/
def State.refillBucket (s : State) (k : Nat) : State :=
  s.setBucket k ((s.bucket k).refill (s.io.bucketCfg k).1 (s.io.bucketCfg k).2)

/-- The buckets that a refill touches: those of ports with settings, and those that hold tokens. -/
def State.bucketKeys (s : State) : List Nat :=
  let ks := s.io.shpPorts.flatMap portBuckets
  ks ++ s.buf.bucket.keys.filter fun k => !(ks.contains k)

/-! ### Policers (R319 to R324) -/

/-- Policer number: tenant 1 to 4095, account 4096 + i. -/
def State.policer (s : State) (k : Nat) : Policer := s.buf.policer.get {} k

def State.setPolicer (s : State) (k : Nat) (p : Policer) : State :=
  { s with buf := { s.buf with policer := s.buf.policer.set {} k p } }

/-- Settings of bank `b`: EN, RATE, BURST, ACCT_HI. -/
def Policer.en (p : Policer) (b : Nat) : Bool := tb p.cfg (32 * b + 31)
def Policer.rate (p : Policer) (b : Nat) : Nat := gb p.cfg (32 * b) 24
def Policer.burstB (p : Policer) (b : Nat) : Nat := gb p.burst (32 * b) 24
def Policer.acctHi (p : Policer) (b : Nat) : Nat := gb p.acct (32 * b) 10

/-- One refill: a policer that holds BURST or more gains nothing (R319). -/
def Policer.refill (p : Policer) (b : Nat) : Policer :=
  let cap := 1000 * p.burstB b
  if !(p.en b) ∨ cap ≤ p.tokens then p else { p with tokens := min cap (p.tokens + 8 * p.rate b) }

/-- EN passes from 0 to 1: the policer starts with its BURST (R319). -/
def Policer.started (p : Policer) (was : Bool) (b : Nat) : Policer :=
  if p.en b && !was then { p with tokens := 1000 * p.burstB b } else p

/-- One refill of everything (R312). -/
def State.refillAll (s : State) : State :=
  let s := s.bucketKeys.foldl (fun s k => s.refillBucket k) s
  let b := s.io.active pgShp
  s.buf.policer.keys.foldl (fun s k => s.setPolicer k ((s.policer k).refill b)) s

/-- The refills that counting has crossed are made, before anything that depends on tokens (R312, R318, R324). -/
def State.refillDue (s : State) : State :=
  let n := s.io.time.due.refill
  let s := s.upIo fun io => { io with time := { io.time with due := { io.time.due with refill := 0 } } }
  (List.range n).foldl (fun s _ => s.refillAll) s

/-- A counter of a policer. -/
def State.polCount (s : State) (k c n : Nat) : State := s.upIo fun io => io.ctrAt (polCtr k + 8 * c) n

/-- A copy is judged by the policers presented with it that are enabled; `charge` bytes each (R323).  True: conforming. -/
def State.police (s : State) (ks : List Nat) (charge : Nat) : State × Bool :=
  let b := s.io.active pgShp
  let on := ks.filter fun k => (s.policer k).en b
  let short := on.filter fun k => (s.policer k).tokens < 1000 * charge
  if short.isEmpty then
    (on.foldl (fun s k =>
      let p := s.policer k
      ((s.setPolicer k { p with tokens := p.tokens - 1000 * charge }).polCount k 0 1).polCount k 1 charge) s, true)
  else
    let s := short.foldl (fun s k => (s.polCount k 2 1).polCount k 3 charge) s
    ((s.ctr pgShp SHP_EXCESS_TOTAL.COUNT).raiseOnce pgShp 0, false)

/-- The policer the window of SHP page 0 names; `none` for tenant policer 0 (R321). -/
def State.polSel (s : State) : Option Nat :=
  let k := 4096 * s.get pgShp SHP_POL_SEL.KIND + s.get pgShp SHP_POL_SEL.INDEX
  if k = 0 then none else some k

/-- Write bank `b` of word `w` (0 CFG, 1 BURST, 2 ACCT) of a policer. -/
def Policer.write (p : Policer) (w b v : Nat) : Policer :=
  match w with
  | 0 => { p with cfg := sb p.cfg (32 * b) 32 (v &&& 0x80FFFFFF) }
  | 1 => { p with burst := sb p.burst (32 * b) 32 (v % 2 ^ 24) }
  | _ => { p with acct := sb p.acct (32 * b) 32 (v % 2 ^ 10) }

/-- Read bank `b` of word `w`. -/
def Policer.read (p : Policer) (w b : Nat) : Nat :=
  match w with
  | 0 => gb p.cfg (32 * b) 32
  | 1 => gb p.burst (32 * b) 32
  | _ => gb p.acct (32 * b) 32

/-- A window write: pending bank with EPOCH_BANKS, else both (R320, R332). -/
def State.polWrite (s : State) (w m v : Nat) : State :=
  match s.polSel with
  | none => s.err pgShp 3 m (0x044 + 4 * w)
  | some k =>
    if w = 2 ∧ k < 4096 then s
    else if !(s.feature 1) then
      let was := (s.policer k).en (s.io.active pgShp)
      s.setPolicer k ((((s.policer k).write w 0 v).write w 1 v).started was (s.io.active pgShp))
    else if s.get pgShp PG_SHADOW_CTL.SHADOW_BUSY = 1 then
      (s.put pgShp PG_SHADOW_CTL.WR_DROPPED 1).err pgShp 2 m (0x044 + 4 * w)
    else s.setPolicer k ((s.policer k).write w (1 - s.io.active pgShp) v)

/-- A window read of a setting, from the bank RD_SEL names. -/
def State.polRead (s : State) (w : Nat) : Nat :=
  match s.polSel with
  | none => 0
  | some k =>
    let a := s.io.active pgShp
    (s.policer k).read w (if s.feature 1 && s.get pgShp PG_SHADOW_CTL.RD_SEL = 0 then 1 - a else a)

/-- SHP page 0 after its bank has flipped: policers that become enabled start with their BURST (R319). -/
def State.polAdopt (s : State) : State :=
  let b := s.io.active pgShp
  s.buf.policer.keys.foldl (fun s k => s.setPolicer k ((s.policer k).started ((s.policer k).en (1 - b)) b)) s

/-- The bank copy of SHP page 0: every policer's active settings into the other bank (R51). -/
def State.polCopy (s : State) : State :=
  let b := s.io.active pgShp
  s.buf.policer.keys.foldl (fun s k =>
    let p := s.policer k
    s.setPolicer k ((((p.write 0 (1 - b) (p.read 0 b))).write 1 (1 - b) (p.read 1 b)).write 2 (1 - b) (p.read 2 b))) s

/-! ### Gates (R325 to R331) -/

def State.awaitList (s : State) (n : Nat) : Option GateList := s.buf.await.get none n

/-- What remains of the current window of a queue, the start of an awaited list included (R327). -/
def State.window (s : State) (n q : Nat) : Option Nat :=
  let now := s.io.time.ns
  let l := s.operList n
  let w := if l.en then (if (l.gates now).testBit q then l.windowAt q (l.pos now) else some 0) else none
  match s.awaitList n with
  | none => w
  | some a => some (min (w.getD (a.base - now)) (a.base - now))

/-- The gate of a queue admits a frame of length L (R327): open, and the frame ends inside the window. -/
def State.gateAdmits (s : State) (n q L : Nat) : Bool :=
  if !(s.feature 7) then true
  else
    match s.window n q with
    | none => true
    | some w => s.wireTime n L + b2n (s.io.time.sub ≠ 0) ≤ w

/-- A time in the three words of a TGT time register. -/
def State.putTime (s : State) (b : Nat) (fn fl fh : Fld) (t : Nat) : State :=
  ((s.put b fn (t % 1000000000)).put b fl (t / 1000000000)).put b fh (t / 1000000000 / 2 ^ 32)

/-- A list comes into force (R326, R329, R331). -/
def State.enforce (s : State) (n : Nat) (l : GateList) : State :=
  let b := pgTgtP n
  let s := { s with buf := { s.buf with oper := s.buf.oper.set {} n l } }
  let s := (s.put b TGT_OPER_CFG.EN (b2n l.en)).put b TGT_OPER_CFG.LEN l.entries.length
  let s := s.put b TGT_OPER_CYCLE.NS l.cycle
  let s := s.putTime b TGT_OPER_BASE_NS.NS TGT_OPER_BASE_SEC_LO.SEC TGT_OPER_BASE_SEC_HI.SEC l.base
  let s := (List.range 8).foldl (fun s q => s.put b TGT_MAXWINq.NS ((l.maxWin q).getD 0xFFFFFFFF) q) s
  s.put pgTgt TGT_ACTIVEi.PORTS (setBitsOf (s.get pgTgt TGT_ACTIVEi.PORTS (n / 32)) (n % 32) 1 (b2n l.en)) (n / 32)

/-- The pending list of a port, as its TGT page holds it in the active bank after the flip (R330). -/
def Io.adminList (s : Io) (n : Nat) : GateList :=
  let b := pgTgtP n
  { en := s.get b TGT_ADMIN_CFG.EN = 1
    cycle := s.get b TGT_ADMIN_CYCLE.NS
    base := s.get b TGT_ADMIN_BASE_NS.NS + 1000000000 * (s.get b TGT_ADMIN_BASE_SEC_LO.SEC
      + 2 ^ 32 * s.get b TGT_ADMIN_BASE_SEC_HI.SEC)
    entries := (List.range (min 256 (s.get b TGT_ADMIN_CFG.LEN))).map fun e =>
      (s.get b TGT_LIST_GATESe.GATES e, s.get b TGT_LIST_INTe.NS e) }

/-- The first test of R330 that a list fails, or 0. -/
def Io.listCode (s : Io) (n : Nat) : Nat :=
  let b := pgTgtP n
  let l := s.adminList n
  let len := s.get b TGT_ADMIN_CFG.LEN
  if l.cycle < 1000 ∨ 1000000000 < l.cycle then 1
  else if len = 0 ∨ 256 < len then 2
  else if l.entries.any fun e => decide (e.2 < 32) then 3
  else if 1000000000 ≤ s.get b TGT_ADMIN_BASE_NS.NS then 4
  else 0

/-- The least ADMIN_BASE + m × CYCLE at or after `t`, and whether m > 0 (R330). -/
def listStart (base cycle t : Nat) : Nat × Bool :=
  if t ≤ base then (base, false) else (base + ceilDiv (t - base) cycle * cycle, true)

/-- A list awaiting its start is dropped by a later accepted one (R330). -/
def State.supersede (s : State) (n : Nat) : State :=
  if (s.awaitList n).isSome then
    ({ s with buf := { s.buf with await := s.buf.await.set none n none } }).bump (pgTgtP n) TGT_SUPERSEDED_CNT.COUNT
  else s

/-- An armed commit that includes port n's TGT page: the pending list is checked and adopted or rejected (R330).  `at`: the
commit instant. -/
def State.listAdopt (s : State) (n at' : Nat) : State :=
  let b := pgTgtP n
  if !(s.feature 7) then s
  else
    let code := s.io.listCode n
    if code ≠ 0 then
      ((s.put b TGT_STAT.LIST_REJECTED 1).put b TGT_STAT.REJECT_CODE code).raise b 2
    else
      let l := s.io.adminList n
      let s := s.supersede n
      if !l.en then ((s.put b TGT_STAT.START_PENDING 0).enforce n l).raise b 0
      else
        let (st, adj) := listStart l.base l.cycle (at' + 2000)
        let s := { s with buf := { s.buf with await := s.buf.await.set none n (some { l with base := st }) } }
        let s := s.put b TGT_STAT.START_PENDING 1
        let s := s.putTime b TGT_START_NS.NS TGT_START_SEC_LO.SEC TGT_START_SEC_HI.SEC st
        if adj then (s.put b TGT_STAT.START_ADJUSTED 1).raise b 1 else s

/-- An awaited list whose start the time base has reached comes into force (R331). -/
def State.listBegin (s : State) (n : Nat) : State :=
  match s.awaitList n with
  | none => s
  | some l =>
    if l.base ≤ s.io.time.ns then
      let s := { s with buf := { s.buf with await := s.buf.await.set none n none } }
      ((s.put (pgTgtP n) TGT_STAT.START_PENDING 0).enforce n l).raise (pgTgtP n) 0
    else s

/-- Every awaited list whose start has been reached. -/
def State.listsDue (s : State) : State := s.buf.await.keys.foldl (fun s n => s.listBegin n) s

/-- A step of the time base: STEPPED where a list is in force (EN = 0 too) or awaited, and lists it reaches begin (R331). -/
def State.gatesStepped (s : State) : State :=
  let ns := (List.range 128).filter fun n => (s.operList n).cycle ≠ 0 || (s.awaitList n).isSome
  (ns.foldl (fun s n => s.put (pgTgtP n) TGT_STAT.STEPPED 1) s).listsDue

/-! ### Transmission (R306 to R309) -/

/-- The shaper of a queue or of a port is eligible (R314). -/
def State.qShaper (s : State) (n q : Nat) : Bool := (s.bucket (qBucket n q 0)).eligible && (s.bucket (qBucket n q 1)).eligible
def State.pShaper (s : State) (n : Nat) : Bool := (s.bucket (pBucket n 0)).eligible && (s.bucket (pBucket n 1)).eligible

/-- The queue is eligible under R307. -/
def State.qEligible (s : State) (n q : Nat) : Bool :=
  match s.head (8 * n + q) with
  | none => false
  | some c => !(s.paused n q) && s.qShaper n q && s.gateAdmits n q c.len

/-- A deficit round robin in progress (R308). -/
structure Drr where
  cur : Nat
  visited : Bool
  deficit : List Nat
deriving DecidableEq, Repr

/-- Deficit of queue q. -/
def Drr.d (r : Drr) (q : Nat) : Nat := r.deficit.getD q 0

/-- Pass to the next of `n` queues. -/
def Drr.next (r : Drr) (n : Nat) : Drr := { r with cur := (r.cur + 1) % n, visited := false }

/-- The frame the round robin sends next over `n` queues: `wire q` is the wire length of an eligible head (R308).  Every round
adds at least 64 B to each eligible queue, so the fuel covers the longest frame. -/
def Drr.pick (n : Nat) (wire : Nat → Option Nat) (quantum : Nat → Nat) : Nat → Drr → Option (Nat × Drr)
  | 0, _ => none
  | f + 1, r =>
    match wire r.cur with
    | none => Drr.pick n wire quantum f (r.next n)
    | some w =>
      let r := if r.visited then r
               else { r with visited := true, deficit := r.deficit.set r.cur (r.d r.cur + 64 * max 1 (quantum r.cur)) }
      if w ≤ r.d r.cur then some (r.cur, { r with deficit := r.deficit.set r.cur (r.d r.cur - w) })
      else Drr.pick n wire quantum f (r.next n)

/-- The round robin state of a port. -/
def State.drr (s : State) (n : Nat) : Drr :=
  let sc := s.buf.sched.get {} n
  ⟨sc.cur, sc.visited, (List.range 8).map fun q => s.get (pgSchP n) SCH_Q_DEFICITq.BYTES q⟩

/-- Store the round robin state of a port. -/
def State.setDrr (s : State) (n : Nat) (r : Drr) : State :=
  let sc := s.buf.sched.get {} n
  let s := { s with buf := { s.buf with sched := s.buf.sched.set {} n { sc with cur := r.cur, visited := r.visited } } }
  (List.range 8).foldl (fun s q => s.put (pgSchP n) SCH_Q_DEFICITq.BYTES (r.d q) q) s

/-- The queue a port serves next, with the round robin it leaves (R307, R308). -/
def State.choose (s : State) (n : Nat) : Option (Nat × Drr) :=
  let sp := fun q => s.get (pgSchP n) SCH_Q_CFGq.SP q == 1
  match ((List.range 8).reverse).find? fun q => sp q && s.qEligible n q with
  | some q => some (q, s.drr n)
  | none =>
    Drr.pick 8 (fun q => if !(sp q) && s.qEligible n q then (s.head (8 * n + q)).map fun c => wireLen c.len else none)
      (fun q => s.get (pgSchP n) SCH_Q_CFGq.QUANTUM q) 1400 (s.drr n)

/-- The copies of a port's queues whose pause the watchdog ignores are discarded at the head (R107). -/
def State.clearHeads (s : State) (n : Nat) : State :=
  (List.range 8).foldl (fun s q => if (s.buf.sched.get {} n).ignore.testBit q then s.wdDrain n q else s) s

/-- A frame's wire length is charged to its queue's and its port's buckets (R315). -/
def State.chargeShapers (s : State) (n q w : Nat) : State :=
  [qBucket n q 0, qBucket n q 1, pBucket n 0, pBucket n 1].foldl (fun s k => s.setBucket k ((s.bucket k).charge w)) s

/-- Take the head of queue q of port n into transmission; an emptied queue loses its deficit (R308). -/
def State.beginTx (s : State) (n q : Nat) (c : Copy) (r : Drr) : State :=
  let s := (s.changeQueue (8 * n + q) ((s.queue (8 * n + q)).drop 1)).newHead n q
  let empty := (s.queue (8 * n + q)).isEmpty
  let r := if empty then { r with deficit := r.deficit.set q 0 } else r
  let r := if empty ∧ r.cur = q then r.next 8 else r
  let s := (s.setDrr n r).chargeShapers n q (wireLen c.len)
  let s := s.traceDone c.tag 0 0 (some s.io.now16)
  let sc := s.buf.sched.get {} n
  { s with buf := { s.buf with sched := s.buf.sched.set {} n { sc with tx := some (c, q), txStamp := s.txStamp n } } }

/-- Port `n` may start a frame: none is in transmission, its link is up and its transmitter enabled, its shapers eligible. -/
def State.mayStart (s : State) (n : Nat) : Bool :=
  (s.buf.sched.get {} n).tx.isNone && s.linkUp n && s.get (pgEth (n / 4) 1) ETH_MAC_CFG.TX_EN (n % 4) = 1 && s.pShaper n

/-- TX_FRAME_START: port n requests and starts its next frame (R306, R307). -/
def State.txStart (s : State) (n : Nat) : State :=
  let s := s.refillDue.clearHeads n
  if !(s.mayStart n) then s
  else
    match s.choose n with
    | none => s
    | some (q, r) =>
      match s.head (8 * n + q) with
      | none => s
      | some c => s.beginTx n q c r

/-- Zero bytes to the 60 B that a frame without FCS has at least on the wire (R208). -/
def pad60 (d : List Byte) : List Byte := d ++ List.replicate (60 - d.length) 0

/-- Add to a one's complement checksum the change of a 16-bit word (R209). -/
def ckAdjust (ck old new : Nat) : Nat :=
  let x := (65535 - ck % 65536) + (65535 - old % 65536) + new % 65536
  let x := x / 65536 + x % 65536
  let x := x / 65536 + x % 65536
  65535 - x

/-- Replace bytes at an even offset of a checksummed region and adjust the checksum at `ckOff` (R209). -/
def ckBytes (d : List Byte) (ck : Nat) (o : Nat) (new : List Byte) : Nat :=
  (List.range (ceilDiv new.length 2)).foldl (fun c i => ckAdjust c (beAt d (o + 2 * i) 2) (beAt new (2 * i) 2)) ck

/-- A PTP operation at transmission (R109): the originTimestamp or correctionField is rewritten, and the UDP checksum cleared
over IPv4 or adjusted over IPv6. -/
def ptpRewrite (d : List Byte) (p : Ptp) (o : Nat) (new : List Byte) : List Byte :=
  let d' := patchB d (p.off + o) new
  match p.udp with
  | none => d'
  | some u =>
    if p.v6 then
      let c := ckBytes d (beAt d (u + 6) 2) (p.off + o) new
      patchB d' (u + 6) (bytesBE 2 (if c = 0 then 0xFFFF else c))
    else patchB d' (u + 6) (bytesBE 2 0)

/-- The correctionField with the frame's residence time added (R109). -/
def corrected (d : List Byte) (p : Ptp) (t rx : Nat) : Int := toSigned 64 (beAt d (p.off + 8) 8) + ((t : Int) - rx)

/-- The correction does not fit the signed 64-bit field: it saturates and is counted (R109).  DEDUCED (log entry 70): below the least
value it saturates at the least. -/
def corrOverflows (d : List Byte) (p : Ptp) (t rx : Nat) : Bool :=
  p.op == 2 && (decide (2 ^ 63 ≤ corrected d p t rx) || decide (corrected d p t rx < -2 ^ 63))

/-- The frame as it leaves with its PTP operation applied at transmit stamp `t` (units 2^-16 ns), received at `rx` (R109). -/
def ptpApply (d : List Byte) (p : Ptp) (t rx : Nat) : List Byte :=
  match p.op with
  | 1 => ptpRewrite d p 34 (bytesBE 6 (stampSec t) ++ bytesBE 4 (stampNs t))
  | 2 => ptpRewrite d p 8 (bytesBE 8 (ofSigned 64 (min (2 ^ 63 - 1) (max (-2 ^ 63) (corrected d p t rx)))))
  | _ => d

/-- A cell of a stored packet is found uncorrectable (R305). -/
def State.cellBad (s : State) (id cell : Nat) : State :=
  let p := s.stored id
  if p.refs = 0 ∨ p.bad.isSome then s else s.setStored id { p with bad := some cell }

/-- What is met as a packet's cells are read: a single-bit error is corrected and reported, an uncorrectable one marks the packet
(R305, R475, R479).  `cells`: the cells read with an error and whether it is uncorrectable. -/
def State.readCells (s : State) (id : Nat) (cells : List (Nat × Bool)) : State :=
  cells.foldl (fun s e => if e.2 then s.cellBad id e.1 else s.report 0 1 pgTmb e.1 0) s

/-- The frame of a copy: cut or whole, with its PTP operation, padded, with its FCS; stomped when a cell was bad (R305). -/
def State.txFrame (s : State) (n : Nat) (c : Copy) : List Byte :=
  let p := s.stored c.pkt
  let d := pad60 ((ptpApply p.bytes c.ptp (s.buf.sched.get {} n).txStamp c.ts).take (c.len - 4))
  let f := fcsOf d
  d ++ (if p.bad.isSome then f.map (~~~ ·) else f)

/-- A frame that ends with an uncorrectable cell is counted and reported (R305). -/
def State.stomp (s : State) (bad : Option Nat) : State :=
  match bad with
  | none => s
  | some cell => ((s.ctr pgTmb TMB_ECC_STOMP_CNT.COUNT).raise pgTmb 1).report 2 13 pgTmb cell 0

/-- TX_FRAME_DONE: the frame has left; its counters, its two-step timestamp, and the release of its reference (R294). -/
def State.txDone (s : State) (n : Nat) : State :=
  let sc := s.buf.sched.get {} n
  match sc.tx with
  | none => s
  | some (c, q) =>
    let f := s.txFrame n c
    let p := s.stored c.pkt
    let bad := p.bad
    let s := { s with buf := { s.buf with sched := s.buf.sched.set {} n { sc with tx := none } } }
    let s := (s.ctr (pgSchP n) SCH_Q_TX_PKTSq.COUNT 1 q).ctr (pgSchP n) SCH_Q_TX_BYTESq.COUNT c.len q
    let b := pgPmcL (n / 16)
    let s := (s.ctr b PMC_TX_FRAMES.COUNT 1 (n % 16)).ctr b PMC_TX_BYTES.COUNT c.len (n % 16)
    let s := s.upIo fun io => (io.accAdd b PORT_TX_FRAMES.COUNT 1 (n % 16)).accAdd b PORT_TX_BYTES.COUNT c.len (n % 16)
    let s := if corrOverflows p.bytes c.ptp sc.txStamp c.ts then
               { s with buf := { s.buf with corrSat := s.buf.corrSat.set 0 n (s.buf.corrSat.get 0 n + 1) } } else s
    let s := if c.ptp.op = 3 then s.txtsCapture n sc.txStamp (beAt f (c.ptp.off + 4) 1) (beAt f (c.ptp.off + 30) 2) else s
    ((s.emit (.frame n f bad.isSome)).stomp bad).release c.pkt

/-- SCH_PORT_STAT as it reads (R311). -/
def State.schStat (s : State) (n : Nat) : Nat :=
  (List.range 8).foldl (fun a q =>
    a + b2n (!(s.queue (8 * n + q)).isEmpty) * 2 ^ q + b2n (s.qEligible n q) * 2 ^ (8 + q)) 0

/-- SHP token registers as they read: bytes, rounded towards minus infinity (R332). -/
def State.tokens (s : State) (k : Nat) : Nat := ofSigned 32 ((s.bucket k).tokens / 1000)

/-- SHP_PORT_STAT as it reads. -/
def State.shpStat (s : State) (n : Nat) : Nat :=
  b2n (s.pShaper n) * 2 ^ 8 + (List.range 8).foldl (fun a q => a + b2n (s.qShaper n q) * 2 ^ q) 0

end Sys2Proof.Machine
end

