-- ==== Sys2Proof/Machine/Edit.lean ====
section
/-!
DEFINITION. Action profiles as data (R197) and the edits of a pass (R207 to R210, R220 to R222): functions of a frame's bytes,
its header vector and what the record and the tables hold.
-/
namespace Sys2Proof.Machine

/-! ### Profiles (R197) -/

/-- An action profile image. -/
abbrev Prof := BitVec 128

def prMode (p : Prof) : Nat := gb p 0 1
def prKind (p : Prof) : Nat := gb p 1 3
def prPrecede (p : Prof) : Bool := tb p 4
def prTcp (p : Prof) : Nat := gb p 5 2
def prMid (p : Prof) : Bool := tb p 7
def prDest (p : Prof) : Nat := gb p 8 3
def prQueue (p : Prof) : Nat := gb p 11 3
def prQueuePcp (p : Prof) : Bool := tb p 14
def prRecirc (p : Prof) : Bool := tb p 15
def prPort (p : Prof) : Nat := gb p 16 8
def prCopyHost (p : Prof) : Bool := tb p 24
def prMirror (p : Prof) : Bool := tb p 25
def prTrailer (p : Prof) : Bool := tb p 26
def prTeardown (p : Prof) : Bool := tb p 27
def prPtp (p : Prof) : Nat := gb p 28 2
def prHostQ (p : Prof) : Nat := gb p 32 4
def prReason (p : Prof) : Nat := gb p 40 6
def prMirrorPort (p : Prof) : Nat := gb p 48 8
def prTrunc (p : Prof) : Nat := gb p 56 8
def prPolicer (p : Prof) : Nat := gb p 64 12
def prDecap (p : Prof) : Bool := tb p 8
def prPopMpls (p : Prof) : Nat := gb p 9 3
def prPopVlan (p : Prof) : Nat := gb p 12 2
def prNat (p : Prof) : Bool := tb p 14
def prTtlDec (p : Prof) : Bool := tb p 15
def prPushVlan (p : Prof) : Nat := gb p 16 2
def prSTag (p : Prof) : Bool := tb p 18
def prEncap (p : Prof) : Bool := tb p 19
def prSetDscp (p : Prof) : Bool := tb p 20
def prSetPcp (p : Prof) : Bool := tb p 21
def prL2Rw (p : Prof) : Nat := gb p 22 2
def prTemplate (p : Prof) : Nat := gb p 24 6
def prTci1 (p : Prof) : Nat := gb p 32 16
def prTci2 (p : Prof) : Nat := gb p 48 16
def prDscp (p : Prof) : Nat := gb p 64 6
def prPcp (p : Prof) : Nat := gb p 72 3
def prNext (p : Prof) : Nat := gb p 80 12
/-- PARAMS of the record profile (R196). -/
def prPool (p : Prof) : Nat := gb p 96 10
def prPoolLpm (p : Prof) : Bool := tb p 106
def prNatPool (p : Prof) : Nat := gb p 96 6
def prPrefix (p : Prof) : Nat := gb p 102 4
def prReply (p : Prof) : Nat := gb p 108 12
def prRstTeardown (p : Prof) : Bool := tb p 127

/-- The PARAMS bits that a KIND names. -/
def paramMask (kind : Nat) : Nat :=
  match kind with
  | 0 => 0x80000000
  | 1 => 0x80FFF7FF
  | 2 => 0x80FFF03F
  | _ => 0x80FFF3FF

/-- The image holds a refused encoding or a non-zero reserved bit (R198). -/
def profRefused (p : Prof) : Bool :=
  4 ≤ prKind p || prTcp p = 3 || (gb p 96 32 &&& (0xFFFFFFFF - paramMask (prKind p))) != 0 ||
  (if prMode p = 0 then
    6 ≤ prDest p || gb p 30 2 != 0 || gb p 36 4 != 0 || gb p 46 2 != 0 || gb p 76 4 != 0 || gb p 80 16 != 0
  else
    5 ≤ prPopMpls p || prPopVlan p = 3 || prPushVlan p = 3 || prL2Rw p = 3 || gb p 30 2 != 0 || gb p 70 2 != 0 ||
    gb p 75 5 != 0 || gb p 92 4 != 0)

/-! ### The frame under edit -/

/-- A frame being edited: bytes, where its outermost headers and its payload now lie, edits skipped, and the reason that
drops it, if any. -/
structure Ed where
  d : List Byte := []
  /-- VLAN tags outside any tunnel. -/
  tags : Nat := 0
  labels : Nat := 0
  l3 : Option Nat := none
  v6 : Bool := false
  l4 : Option Nat := none
  /-- L4 kind of R121. -/
  l4t : Nat := 0
  pay : Option Nat := none
  /-- The UDP header right ahead of the payload, and whether it lies over IPv6. -/
  udp : Option Nat := none
  udpV6 : Bool := false
  skip : Nat := 0
  drop : Option Nat := none
deriving DecidableEq, Repr

/-- An offset of the header vector; 0xFF is absent (R121). -/
def hvOff (o : Nat) : Option Nat := if o = 0xFF then none else some o

/-- A frame as its pass was parsed. -/
def Ed.start (d : List Byte) (h : HV) : Ed :=
  let inn := h.l4i = 2 ∧ h.oL4i ≠ 0xFF
  let out := h.tunnel = false ∧ h.l4o = 2 ∧ h.oL4o ≠ 0xFF
  { d := d, tags := h.outVlans, labels := h.mplsCnt, l3 := hvOff h.oL3o, v6 := decide (h.l3o = 2), l4 := hvOff h.oL4o,
    l4t := h.l4o, pay := hvOff h.oPay,
    udp := if inn then some h.oL4i else if out then some h.oL4o else none,
    udpV6 := if inn then decide (h.l3i = 2) else decide (h.l3o = 2) }

def Ed.skipped (e : Ed) : Ed := { e with skip := e.skip + 1 }

/-- An offset after `n` bytes at `at'` are replaced by `m`. -/
def moved (a n m : Nat) (o : Option Nat) : Option Nat := o.map fun x => if a ≤ x then x - n + m else x

/-- Replace `n` bytes at `a` by `x`, the later offsets moving with it. -/
def Ed.splice (e : Ed) (a n : Nat) (x : List Byte) : Ed :=
  let mv := moved a n x.length
  { e with d := e.d.take a ++ x ++ e.d.drop (a + n), l3 := mv e.l3, l4 := mv e.l4, pay := mv e.pay, udp := mv e.udp }

/-- Offset of the EtherType behind the outermost tags. -/
def Ed.etype (e : Ed) : Nat := 12 + 4 * e.tags

/-- A checksum kept up to date: its offset and kind (0 plain, 1 UDP over IPv4, 2 UDP over IPv6). -/
abbrev Ck := Nat × Nat

/-- The new value of a checksum when old words become new ones (R209). -/
def ckWords (kind ck : Nat) (old new : List Byte) : Nat :=
  if kind = 1 ∧ ck = 0 then 0
  else
    let words := fun (l : List Byte) => (List.range (ceilDiv l.length 2)).map fun i => beAt l (2 * i) 2
    let c := (words old).foldl (fun c w => ckAdjust c w 0) ck
    let c := (words new).foldl (fun c w => ckAdjust c 0 w) c
    if kind ≠ 0 ∧ c = 0 then 0xFFFF else c

/-- Adjust a list of checksums of `d` for `old` becoming `new`. -/
def ckAll (d : List Byte) (cks : List Ck) (old new : List Byte) : List Byte :=
  cks.foldl (fun d c => patchB d c.1 (bytesBE 2 (ckWords c.2 (beAt d c.1 2) old new))) d

/-- Write words at `o` and keep the checksums up to date. -/
def Ed.put (e : Ed) (o : Nat) (new : List Byte) (cks : List Ck) : Ed :=
  { e with d := patchB (ckAll e.d cks (sliceB e.d o new.length) new) o new }

/-- The L4 checksum that covers the pseudo header, if the packet has one. -/
def Ed.pseudo (e : Ed) : List Ck :=
  match e.l4 with
  | none => []
  | some o =>
    match e.l4t with
    | 1 => [(o + 16, 0)]
    | 2 => [(o + 6, if e.v6 then 2 else 1)]
    | 4 => [(o + 2, 0)]
    | _ => []

/-- Checksums of an address: the IPv4 header's and the pseudo header's. -/
def Ed.addrCks (e : Ed) (l3 : Nat) : List Ck := (if e.v6 then [] else [(l3 + 10, 0)]) ++ e.pseudo

/-! ### Operations 1 to 3 (R207) -/

/-- DECAP: down to the inner frame, or to the inner IP behind the outer MAC addresses. -/
def Ed.decap (e : Ed) (h : HV) : Ed :=
  let sub := fun (b : Nat) (o : Option Nat) => o.map (· - b)
  let base := fun (b t : Nat) (d : List Byte) => { e with
    d := d, tags := t, labels := 0, l3 := sub b (hvOff h.oL3i), v6 := decide (h.l3i = 2), l4 := sub b (hvOff h.oL4i),
    l4t := h.l4i, pay := sub b e.pay, udp := sub b e.udp }
  match hvOff h.oL2i, hvOff h.oL3i with
  | some o, _ => base o h.inVlans (e.d.drop o)
  | none, some o => base (o - 14) 0 (e.d.take 12 ++ bytesBE 2 (if h.l3i = 1 then 0x0800 else 0x86DD) ++ e.d.drop o)
  | none, none => e.skipped

/-- Remove up to `n` top labels, one at a time; the bottom one sets the EtherType. -/
def Ed.popLabels (e : Ed) : Nat → Ed
  | 0 => e
  | n + 1 =>
    if e.labels = 0 then e
    else
      let a := e.etype + 2
      let bottom := (beAt e.d (a + 2) 1).testBit 0
      let e := { e.splice a 4 [] with labels := e.labels - 1 }
      if bottom then
        let nib := beAt e.d a 1 / 16
        let e := { e with labels := 0 }
        if nib = 4 then { e with d := patchB e.d e.etype (bytesBE 2 0x0800) }
        else if nib = 6 then { e with d := patchB e.d e.etype (bytesBE 2 0x86DD) } else e
      else e.popLabels n

/-- POP_MPLS. -/
def Ed.popMpls (e : Ed) (n : Nat) : Ed := if n = 0 then e else if e.labels = 0 then e.skipped else e.popLabels n

/-- POP_VLAN. -/
def Ed.popVlan (e : Ed) (n : Nat) : Ed :=
  if n = 0 then e else if e.tags = 0 then e.skipped
  else
    let k := min n e.tags
    { e.splice 12 (4 * k) [] with tags := e.tags - k }

/-! ### Translation (R220 to R222) -/

/-- What NAT takes from the record and the tables: KIND, REPLY, whether an LB record carries DNAT, ADDR, L4, and the NAT64
prefix with its length. -/
structure NatIn where
  kind : Nat := 0
  reply : Bool := false
  dnat : Bool := false
  addr : Nat := 0
  l4 : Nat := 0
  pfx : Option (Nat × Nat) := none
deriving DecidableEq, Repr

/-- Rewrite one IPv4 address and one port or echo identifier: `src` names the source side (R220). -/
def Ed.nat4 (e : Ed) (src : Bool) (addr port l3 : Nat) : Ed :=
  let e := e.put (l3 + (if src then 12 else 16)) (bytesBE 4 addr) (e.addrCks l3)
  match e.l4 with
  | none => e
  | some o =>
    if e.l4t = 1 ∨ e.l4t = 2 then e.put (o + (if src then 0 else 2)) (bytesBE 2 port) e.pseudo
    else if e.l4t = 3 then e.put (o + 4) (bytesBE 2 port) [(o + 2, 0)]
    else e

/-- ICMP error types of R123. -/
def icmpError (t : Nat) : Bool := [3, 4, 5, 11, 12].contains t

/-- An ICMPv4 error towards a NAPT44 subscriber: outer destination, quoted source and source port; three checksums (R222). -/
def Ed.natError (e : Ed) (addr port l3 o : Nat) : Ed :=
  let e := e.put (l3 + 16) (bytesBE 4 addr) [(l3 + 10, 0)]
  let q := o + 8
  let ihl := 4 * (beAt e.d q 1 % 16)
  let po := q + ihl + (if beAt e.d (q + 9) 1 = 1 then 4 else 0)
  let old := sliceB e.d (q + 10) 2
  let e := e.put (q + 12) (bytesBE 4 addr) [(q + 10, 0), (o + 2, 0)]
  let new := sliceB e.d (q + 10) 2
  let e := { e with d := ckAll e.d [(o + 2, 0)] old new }
  e.put po (bytesBE 2 port) [(o + 2, 0)]

/-- The byte positions of an IPv4 address embedded behind a prefix of `len` bits (RFC 6052, section 2.2). -/
def embedAt (len : Nat) : List Nat := (((List.range 16).filter fun i => len / 8 ≤ i && i != 8).take 4)

/-- The embedded IPv4 address. -/
def unembed (len v6 : Nat) : Nat := ofBytesBE ((embedAt len).map fun i => BitVec.ofNat 8 (beAt (bytesBE 16 v6) i 1))

/-- An IPv4 address embedded behind a prefix, bits 64 to 71 zero. -/
def embed (pfx len v4 : Nat) : Nat :=
  let p := (bytesBE 16 pfx).take (len / 8)
  let base := patchB (List.replicate 16 0#8) 0 p
  let base := if 8 < len / 8 then patchB base 8 [0#8] else base
  ofBytesBE (((embedAt len).zip (bytesBE 4 v4)).foldl (fun l x => patchB l x.1 [x.2]) base)

/-- One's complement sum of words, folded. -/
def sumWords (l : List Byte) : Nat :=
  let s := (List.range (ceilDiv l.length 2)).foldl (fun a i => a + beAt l (2 * i) 2) 0
  let s := s / 65536 + s % 65536
  s / 65536 + s % 65536

/-- The IPv4 header checksum of a 20 B header whose checksum field is 0. -/
def ip4Check (l : List Byte) : Nat := 65535 - sumWords l

/-- The L4 part of a NAT64 translation: pseudo-header words, the port or identifier at `po`, the ICMP type. -/
def nat64L4 (d : List Byte) (o l4t po port : Nat) (old new : List Byte) : List Byte :=
  match l4t with
  | 1 => patchB (ckAll d [(o + 16, 0)] (old ++ sliceB d po 2) (new ++ bytesBE 2 port)) po (bytesBE 2 port)
  | 2 => patchB (ckAll d [(o + 6, 2)] (old ++ sliceB d po 2) (new ++ bytesBE 2 port)) po (bytesBE 2 port)
  | _ => d

/-- Echo types across families. -/
def echoTo4 (t : Nat) : Option Nat := if t = 128 then some 8 else if t = 129 then some 0 else none
def echoTo6 (t : Nat) : Option Nat := if t = 8 then some 128 else if t = 0 then some 129 else none

/-- Reason NAT64_UNSUPPORTED. -/
def Ed.unsupported (e : Ed) : Ed := { e with drop := some 18 }

/-- IPv6 to IPv4 (R221, RFC 7915): source ADDR and L4, destination the embedded address. -/
def Ed.nat64to4 (e : Ed) (n : NatIn) (len l3 o : Nat) : Ed :=
  let d := e.d
  let tc := beAt d l3 2 / 16 % 256
  let plen := beAt d (l3 + 4) 2
  let dst := unembed len (beAt d (l3 + 24) 16)
  let proto := if e.l4t = 4 then 1 else beAt d (l3 + 6) 1
  let addrs := bytesBE 4 n.addr ++ bytesBE 4 dst
  let head := bytesBE 1 0x45 ++ bytesBE 1 tc ++ bytesBE 2 (plen + 20) ++ bytesBE 2 0 ++ bytesBE 2 0x4000 ++
    bytesBE 1 (beAt d (l3 + 7) 1) ++ bytesBE 1 proto ++ bytesBE 2 0 ++ addrs
  let head := patchB head 10 (bytesBE 2 (ip4Check head))
  let old := sliceB d (l3 + 8) 32
  let d := if e.l4t = 4 then
      let t := (echoTo4 (beAt d o 1)).getD 0
      let word := bytesBE 1 t ++ sliceB d (o + 1) 1
      let d' := ckAll d [(o + 2, 0)] (old ++ bytesBE 2 plen ++ bytesBE 2 58 ++ sliceB d o 2 ++ sliceB d (o + 4) 2)
        (word ++ bytesBE 2 n.l4)
      patchB (patchB d' o word) (o + 4) (bytesBE 2 n.l4)
    else nat64L4 d o e.l4t o n.l4 old addrs
  let e := { e with d := patchB d e.etype (if e.labels = 0 then bytesBE 2 0x0800 else sliceB d e.etype 2) }
  let e := e.splice (l3 + 20) 20 []
  { e with d := patchB e.d l3 head, v6 := false, l4t := if e.l4t = 4 then 3 else e.l4t, udpV6 := false }

/-- A UDP checksum computed afresh over IPv6, for a datagram that carried none over IPv4 (RFC 7915, section 4.5). -/
def udpCheck6 (addrs dgram : List Byte) : Nat :=
  let c := 65535 - sumWords (addrs ++ bytesBE 4 dgram.length ++ bytesBE 4 17 ++ dgram)
  if c = 0 then 0xFFFF else c

/-- IPv4 to IPv6 (R221): destination ADDR and L4, source the prefix with the IPv4 source embedded. -/
def Ed.nat64to6 (e : Ed) (n : NatIn) (pfx len l3 o : Nat) : Ed :=
  let d := e.d
  let ihl := 4 * (beAt d l3 1 % 16)
  let plen := beAt d (l3 + 2) 2 - ihl
  let nh := if e.l4t = 3 then 58 else beAt d (l3 + 9) 1
  let addrs := bytesBE 16 (embed pfx len (beAt d (l3 + 12) 4)) ++ bytesBE 16 n.addr
  let head := bytesBE 4 (6 * 2 ^ 28 + beAt d (l3 + 1) 1 * 2 ^ 20) ++ bytesBE 2 plen ++ bytesBE 1 nh ++
    bytesBE 1 (beAt d (l3 + 8) 1) ++ addrs
  let old := sliceB d (l3 + 12) 8
  let d := if e.l4t = 3 then
      let t := (echoTo6 (beAt d o 1)).getD 0
      let word := bytesBE 1 t ++ sliceB d (o + 1) 1
      let d' := ckAll d [(o + 2, 0)] (sliceB d o 2 ++ sliceB d (o + 4) 2)
        (addrs ++ bytesBE 2 plen ++ bytesBE 2 58 ++ word ++ bytesBE 2 n.l4)
      patchB (patchB d' o word) (o + 4) (bytesBE 2 n.l4)
    else if e.l4t = 2 ∧ beAt d (o + 6) 2 = 0 then
      let d := patchB d (o + 2) (bytesBE 2 n.l4)
      patchB d (o + 6) (bytesBE 2 (udpCheck6 addrs (sliceB d o plen)))
    else nat64L4 d o e.l4t (o + 2) n.l4 old addrs
  let e := { e with d := patchB d e.etype (if e.labels = 0 then bytesBE 2 0x86DD else sliceB d e.etype 2) }
  let e := e.splice (l3 + 1) (ihl - 1) (head.drop 1)
  { e with d := patchB e.d l3 (head.take 1), v6 := true, l4t := if e.l4t = 3 then 4 else e.l4t, udpV6 := true }

/-- NAT64 with the limits of R221. -/
def Ed.nat64 (e : Ed) (n : NatIn) (h : HV) (l3 : Nat) : Ed :=
  match e.l4, n.pfx with
  | some o, some (len, pfx) =>
    if h.frag then e.unsupported
    else if e.v6 then
      let ok := o = l3 + 40 ∧ (e.l4t = 1 ∨ e.l4t = 2 ∨ (e.l4t = 4 ∧ (echoTo4 (beAt e.d o 1)).isSome))
      if ok ∧ !n.reply then e.nat64to4 n len l3 o else e.unsupported
    else
      let ok := e.l4t = 1 ∨ e.l4t = 2 ∨ (e.l4t = 3 ∧ (echoTo6 (beAt e.d o 1)).isSome)
      if ok ∧ n.reply then e.nat64to6 n pfx len l3 o else e.unsupported
  | _, _ => e.unsupported

/-- The NAT operation (R220, R222); on any other record it is skipped. -/
def Ed.nat (e : Ed) (n : NatIn) (h : HV) : Ed :=
  match e.l3 with
  | none => e.skipped
  | some l3 =>
    match n.kind with
    | 1 => if n.dnat ∧ !e.v6 then e.nat4 n.reply n.addr n.l4 l3 else e.skipped
    | 2 =>
      if e.v6 then e.skipped
      else
        match e.l4 with
        | some o =>
          if e.l4t = 3 ∧ icmpError (beAt e.d o 1) then
            (if n.reply then e.natError n.addr n.l4 l3 o else e.skipped)
          else e.nat4 (!n.reply) n.addr n.l4 l3
        | none => e.nat4 (!n.reply) n.addr n.l4 l3
    | 3 => e.nat64 n h l3
    | _ => e.skipped

/-! ### Operations 5 to 10 (R207) -/

/-- TTL_DEC. -/
def Ed.ttlDec (e : Ed) : Ed :=
  match e.l3 with
  | none => e.skipped
  | some l3 =>
    let o := l3 + (if e.v6 then 7 else 8)
    let t := beAt e.d o 1
    if t ≤ 1 then { e with drop := some 9 }
    else if e.v6 then { e with d := patchB e.d o (bytesBE 1 (t - 1)) }
    else e.put o (bytesBE 1 (t - 1) ++ sliceB e.d (o + 1) 1) [(l3 + 10, 0)]

/-- SET_DSCP. -/
def Ed.setDscp (e : Ed) (v : Nat) : Ed :=
  match e.l3 with
  | none => e.skipped
  | some l3 =>
    let w := beAt e.d l3 2
    if e.v6 then { e with d := patchB e.d l3 (bytesBE 2 (setBitsOf w 6 6 v)) }
    else e.put l3 (bytesBE 2 (setBitsOf w 2 6 v)) [(l3 + 10, 0)]

/-- L2_RW: 1 DMAC from ACTION_DATA bytes 6 to 11, 2 both addresses from the template's first header bytes. -/
def Ed.l2Rw (e : Ed) (m : Nat) (data tmpl : List Byte) : Ed :=
  match m with
  | 1 => { e with d := patchB e.d 0 (sliceB data 6 6) }
  | 2 => { e with d := patchB e.d 0 (sliceB tmpl 8 12) }
  | _ => e

/-- PUSH_VLAN. -/
def Ed.pushVlan (e : Ed) (p : Prof) : Ed :=
  let outer := bytesBE 2 (if prSTag p then 0x88A8 else 0x8100) ++ bytesBE 2 (prTci1 p)
  match prPushVlan p with
  | 1 => { e.splice 12 0 outer with tags := e.tags + 1 }
  | 2 => { e.splice 12 0 (outer ++ bytesBE 2 0x8100 ++ bytesBE 2 (prTci2 p)) with tags := e.tags + 2 }
  | _ => e

/-- Tags that a template's header bytes start with. -/
def tagsOf (l : List Byte) : Nat :=
  let tag := fun o => beAt l o 2 = 0x8100 ∨ beAt l o 2 = 0x88A8
  if tag 12 then (if tag 16 then (if tag 20 then 3 else 2) else 1) else 0

/-- The fields the device fills in an encapsulation's headers, for a frame `d` that holds them at its start (R209, R210). -/
def encapFill (d tmpl : List Byte) (hash : Nat) : List Byte :=
  let ipo := beAt tmpl 2 1
  let uo := beAt tmpl 3 1
  let d := if uo = 0xFF then d
    else
      let d := if (beAt tmpl 4 1).testBit 1 then patchB d uo (bytesBE 2 (0xC000 + hash % 2 ^ 14)) else d
      let d := patchB (patchB d (uo + 4) (bytesBE 2 (d.length - uo))) (uo + 6) (bytesBE 2 0)
      if beAt tmpl 1 1 = 4 then patchB d (uo + 10) (bytesBE 2 (d.length - (uo + 16))) else d
  if ipo = 0xFF then d
  else if beAt d ipo 1 / 16 = 6 then patchB d (ipo + 4) (bytesBE 2 (d.length - (ipo + 40)))
  else
    let d := patchB (patchB d (ipo + 2) (bytesBE 2 (d.length - ipo))) (ipo + 10) (bytesBE 2 0)
    patchB d (ipo + 10) (bytesBE 2 (ip4Check (sliceB d ipo (4 * (beAt d ipo 1 % 16)))))

/-- ENCAP (R210). -/
def Ed.encap (e : Ed) (tmpl : List Byte) (hash : Nat) : Ed :=
  let len := beAt tmpl 0 1
  let typ := beAt tmpl 1 1
  let head := sliceB tmpl 8 len
  if 1 ≤ typ ∧ typ ≤ 4 then
    let cut := if (beAt tmpl 4 1).testBit 0 then 0 else 14 + 4 * e.tags
    let e := e.splice 0 cut head
    let ipo := beAt tmpl 2 1
    { e with d := encapFill e.d tmpl hash, tags := tagsOf head, labels := 0, l3 := if ipo = 0xFF then none else some ipo,
             v6 := beAt head ipo 1 / 16 = 6, l4 := none, l4t := 0 }
  else if typ = 5 then
    let a := e.etype
    let e := { e.splice (a + 2) 0 head with labels := e.labels + len / 4 }
    { e with d := patchB e.d a (bytesBE 2 0x8847) }
  else e.skipped

/-- SET_PCP. -/
def Ed.setPcp (e : Ed) (v : Nat) : Ed :=
  if e.tags = 0 then e.skipped else { e with d := patchB e.d 14 (bytesBE 2 (setBitsOf (beAt e.d 14 2) 13 3 v)) }

/-- Go on unless the packet is dropped. -/
def Ed.andThen (e : Ed) (on : Bool) (f : Ed → Ed) : Ed := if on && e.drop.isNone then f e else e

/-- Apply an edit profile in the order of R207, then the limits of R208 that need no destination. -/
def Ed.apply (e : Ed) (p : Prof) (h : HV) (n : NatIn) (data tmpl : List Byte) : Ed :=
  let len0 := e.d.length
  let e := e.andThen (prDecap p) (·.decap h)
  let e := (e.popMpls (prPopMpls p)).popVlan (prPopVlan p)
  let e := e.andThen (prNat p) (·.nat n h)
  let e := e.andThen (prTtlDec p) Ed.ttlDec
  let e := e.andThen (prSetDscp p) (·.setDscp (prDscp p))
  let e := e.andThen true (·.l2Rw (prL2Rw p) data tmpl)
  let e := e.andThen true (·.pushVlan p)
  let tooManyTags := 2 < e.tags
  let e := e.andThen (prEncap p) (·.encap tmpl h.hash)
  let e := e.andThen (prSetPcp p) (·.setPcp (prPcp p))
  if e.drop.isNone ∧ (len0 + 128 < e.d.length ∨ 2 < e.tags ∨ tooManyTags) then { e with drop := some 13 } else e

end Sys2Proof.Machine
end

