-- ==== Sys2Proof/Machine/Memory.lean ====
section
/-!
DEFINITION. The flow memory controllers (R264 to R293, R532): placement, queues, hazards, error handling, degraded lines,
freezes, retirement and rebuild.  Requesters whose reads are not queued read at the event of their read's return, after the queued
reads that R25 puts before theirs (log entry 13).
-/
namespace Sys2Proof.Machine

/-! ### Places (R264 to R268) -/

/-- Page and slot of pseudo-channel `pc` (R293). -/
def pcPage (pc : Nat) : Nat := pgFmc (pc / 32) (1 + pc % 32 / 4)

/-- Place of a table entry (R267). -/
def place (x size base : Nat) (mirrored : Bool) : Loc :=
  let j := (x % 64) ^^^ (x / 4096 % 64)
  let side := x / 64 % 2
  let q := (x / 128) * 2 + side
  { a := j + 64 * side, b := (j + 64 * side) ^^^ 64, la := (base + q * size) / 64, mirrored := mirrored }

/-- Flow memory's records and buckets have two copies (R189). -/
def State.mirror (s : State) : Bool := s.feature 2

/-- Hot and cold half of record `r`, bucket `b`, account `i`. -/
def State.hotLoc (s : State) (r : Nat) : Loc := place r 128 0 s.mirror
def State.coldLoc (s : State) (r : Nat) : Loc := let l := s.hotLoc r; { l with la := l.la + 1 }
def State.bucketLoc (s : State) (b : Nat) : Loc := place b 64 0x08000000 s.mirror
def accountLoc (i : Nat) : Loc := place i 64 0x0A000000 true

/-- Lines of the regions of R266 that have two copies: accounts and mirrored device data always, records and buckets with
FLOW_MIRROR. -/
def State.regionMirrored (s : State) (la : Nat) : Bool := la < 0x390000 && (s.mirror || 0x280000 ≤ la)

/-- Row, bank and line of a local line address (R268). -/
def rowOf (la : Nat) : Nat := la / 256
def bankOf (la : Nat) : Nat := la / 16 % 16

/-- The key of a row remap. -/
def remapKey (pc bank row : Nat) : Nat := (pc * 16 + bank) * 32768 + row

/-- A line address after the row remaps of its pseudo-channel (R268, R286). -/
def State.rowMap (s : State) (pc la : Nat) : Nat :=
  match s.io.nvm.remaps.get 0 (remapKey pc (bankOf la) (rowOf la)) with
  | 0 => la
  | k + 1 => (30720 + k) * 256 + la % 256

/-- First line of the spare rows, and of the rehome area (R266). -/
def homeLines : Nat := 0x780000
def rehomeBase : Nat := 0x7C0000

/-- Where a line of pseudo-channel `pc` lies: in its rehomed place once the pseudo-channel is retired (R268, R287). -/
def State.home (s : State) (pc la : Nat) : Nat × Nat :=
  if s.io.nvm.retired.get 0 pc = 1 ∧ la < homeLines then
    (pc / 32 * 32 + (pc % 32 + 1 + la % 31) % 32, rehomeBase + la / 31)
  else (pc, la)

/-- The retired pseudo-channel of a stack. -/
def State.retiredPc (s : State) (st : Nat) : Option Nat :=
  ((List.range 32).map (32 * st + ·)).find? fun pc => s.io.nvm.retired.get 0 pc = 1

/-- The pseudo-channel and line whose home a place is: the inverse of `home`. -/
def State.nominal (s : State) (pc la : Nat) : Nat × Nat :=
  match (if rehomeBase ≤ la then s.retiredPc (pc / 32) else none) with
  | some k => (k, 31 * (la - rehomeBase) + (pc % 32 + 31 - k % 32) % 32)
  | none => (pc, la)

/-- The array cell of a place: the row remaps decide its row (R268). -/
def State.cell (s : State) (pc la : Nat) : Nat := pc * 8388608 + s.rowMap pc la

/-- What the array holds at a place. -/
def State.array (s : State) (pc la : Nat) : Line := s.fmc.mem.get 0 (s.cell pc la)

/-- A write reaches the array: errors the line had gathered and a DIAG write's check bytes go with it. -/
def State.setArray (s : State) (pc la : Nat) (v : Line) : State :=
  { s with fmc := { s.fmc with mem := s.fmc.mem.set 0 (s.cell pc la) v, chk := s.fmc.chk.set none (s.cell pc la) none,
                               fault := s.fmc.fault.set .clean (s.cell pc la) .clean } }

/-- The other pseudo-channel of a pair (R265). -/
def partner (pc : Nat) : Nat := pc ^^^ 64

/-- The pseudo-channel that a copy belongs to by R267, and the place where it lies. -/
def Loc.pcOf (l : Loc) (side : Bool) : Nat := if side then l.b else l.a
def State.copyAt (s : State) (l : Loc) (side : Bool) : Nat × Nat := s.home (l.pcOf side) l.la

/-- The copies of a line. -/
def Loc.sides (l : Loc) : List Bool := if l.mirrored then [false, true] else [false]

/-- The line a place holds, as a line whose A copy lies there. -/
def State.locAt (s : State) (pc la : Nat) : Loc :=
  let n := s.nominal pc la
  { a := n.1, b := partner n.1, la := n.2, mirrored := s.regionMirrored n.2 }

/-! ### Pseudo-channel state (R277, R278, R293) -/

def State.pcState (s : State) (pc : Nat) : Nat := s.get (pcPage pc) FMC_PC_STAT.STATE (pc % 4)
def State.pcStale (s : State) (pc : Nat) : Bool := s.get (pcPage pc) FMC_PC_STAT.STALE (pc % 4) = 1

def State.degraded (s : State) (st : Nat) : List (Nat × Nat) := s.fmc.deg.get [] st

/-- The copy at a place is in the degraded-line table, or its pseudo-channel is STALE (R279). -/
def State.isDegraded (s : State) (pc la : Nat) : Bool :=
  s.pcStale pc || (s.degraded (pc / 32)).any fun e => e.1 == pc && e.2 == la

/-- A pseudo-channel is ACTIVE and not STALE. -/
def State.sound (s : State) (pc : Nat) : Bool := s.pcState pc == 0 && !(s.pcStale pc)

/-- A copy may serve a read (R277): its pseudo-channel, and the one it is rehomed to, are in service and it is not degraded; a
single-copy line is served whatever the state (R532). -/
def State.serves (s : State) (l : Loc) (side : Bool) : Bool :=
  !l.mirrored || (s.sound (l.pcOf side) && s.sound (s.copyAt l side).1 && !(s.isDegraded (s.copyAt l side).1 (s.copyAt l side).2))

/-- The copies of a line in the order a read tries them (R277). -/
def State.copies (s : State) (l : Loc) : List Bool := if !l.mirrored then [false] else l.sides.filter fun x => s.serves l x

/-- Record whether a pseudo-channel has degraded lines, and the table's occupancy (R293). -/
def State.setDegraded (s : State) (st : Nat) (l : List (Nat × Nat)) : State :=
  let old := (s.degraded st).length
  let s := { s with fmc := { s.fmc with deg := s.fmc.deg.set [] st l } }
  let b := pgFmc st 10
  let s := (s.put b FMC_DEG_STAT.USED l.length).upIo fun io => io.maxTo b FMC_DEG_STAT.HIGH l.length
  let s := if old < 3072 ∧ 3072 ≤ l.length then s.raise b 0 else s
  let bits := (List.range 32).foldl (fun a k =>
    a + (if s.pcStale (32 * st + k) || l.any (fun e => e.1 == 32 * st + k) then 2 ^ k else 0)) 0
  let s := s.put (pgFmc st 0) FMC_PC_DEGR.DEGR bits
  (List.range 32).foldl (fun s k =>
    s.put (pcPage (32 * st + k)) FMC_PC_STAT.DEG_LINES ((l.filter fun e => e.1 == 32 * st + k).length) (k % 4)) s

/-- STATE of a pseudo-channel, with the stack's FROZEN bits. -/
def State.setPcState (s : State) (pc v : Nat) : State :=
  let s := s.put (pcPage pc) FMC_PC_STAT.STATE v (pc % 4)
  let b := pgFmc (pc / 32) 0
  s.put b FMC_PC_FROZEN.FROZEN (setBitsOf (s.get b FMC_PC_FROZEN.FROZEN) (pc % 32) 1 (b2n (v = 2)))

/-- A pseudo-channel is marked STALE: every line counts as degraded, its entries leave the table (R279). -/
def State.markStale (s : State) (pc : Nat) : State :=
  let st := pc / 32
  let s := s.put (pcPage pc) FMC_PC_STAT.STALE 1 (pc % 4)
  let s := s.setDegraded st ((s.degraded st).filter fun e => e.1 != pc)
  (s.raise (pcPage pc) (4 * (pc % 4) + 2)).report 1 9 (pgFmc st 0) pc 0

/-- The table is full and the copy's pseudo-channel may not be marked STALE (R279). -/
def State.tableBlocked (s : State) (pc la : Nat) : Bool :=
  4096 ≤ (s.degraded (pc / 32)).length && !(s.isDegraded pc la) && s.pcState (partner pc) != 0

/-- Enter a copy in the degraded-line table; a full table marks its pseudo-channel STALE (R278, R279). -/
def State.degrade (s : State) (pc la : Nat) : State :=
  let st := pc / 32
  if s.isDegraded pc la then s
  else if 4096 ≤ (s.degraded st).length then
    ((s.ctr (pgFmc st 10) FMC_DEG_OVF_CNT.COUNT).raise (pgFmc st 10) 1).markStale pc
  else s.setDegraded st (s.degraded st ++ [(pc, la)])

/-! ### The background limiter (R26, R290) -/

/-- The limiter's fill rate in 1/10 B per ns: TEL_SUSPEND.BG lowers it (R290, R353). -/
def State.bgRate (s : State) : Nat :=
  let r := s.get (pgFmc 0 11) FMC_BG_RATE.RATE
  let rate := if r = 0 then 1 else min r 400
  if s.get (pgTel 0) TEL_SUSPEND.BG = 1 then min rate (s.get (pgTel 0) TEL_POWER_CFG.BG_RATE) else rate

/-- The limiter of R290: tokens used, after the refill since it was last looked at (units of 1/10 B). -/
def State.bgLevel (s : State) : Nat := s.fmc.bgUsed - s.bgRate * (s.io.time.counted - s.fmc.bgAt)

/-- The five requesters that share the limiter, by requester identity: 0 Quince, 1 the aging walker, 2 telemetry export, 3 the
scrubber, 4 repair and rebuild; a global Pip's reads are in the class beside them (R290, R352). -/
def bgIndex (who : Nat) : Nat :=
  match who with
  | 0x30 => 0
  | 0x20 => 1
  | 0 => 2
  | 0x31 => 3
  | 0x32 => 4
  | _ => 5

/-- How many requesters that wait come before `q` in the round robin (R290). -/
def State.bgAhead (s : State) (q : Nat) : Nat :=
  let order := (List.range 6).map fun i => (s.fmc.bgLast + 1 + i) % 6
  ((order.takeWhile (· != q)).filter fun j => s.fmc.bgWait.get false j).length

/-- The limiter holds tokens for `n` lines of requester `who`, beyond a line for each requester whose turn is before it. -/
def State.bgMay (s : State) (who n : Nat) : Bool := s.bgLevel + 640 * (n + s.bgAhead (bgIndex who)) ≤ 655360

/-- A requester is delayed by the limiter: counted once, and it waits for its turn (R290, R293). -/
def State.bgDelay (s : State) (who : Nat) : State :=
  if s.fmc.bgWait.get false (bgIndex who) then s
  else ({ s with fmc := { s.fmc with bgWait := s.fmc.bgWait.set false (bgIndex who) true } }).ctr (pgFmc 0 11) FMC_BG_THROTTLE_CNT.COUNT

/-- Take one line's tokens; the requester has had its turn. -/
def State.bgTake (s : State) (who : Nat) : State :=
  { s with fmc := { s.fmc with bgUsed := s.bgLevel + 640, bgAt := s.io.time.counted, bgLast := bgIndex who,
                               bgWait := s.fmc.bgWait.set false (bgIndex who) false } }

/-- A line moves in class `cls`: the background class pays for it. -/
def State.bgPay (s : State) (cls who : Nat) : State := if cls = 4 then s.bgTake who else s

/-- A background requester reads `n` lines in one event where the limiter has tokens for them, and is delayed otherwise (R26). -/
def State.bgRun (s : State) (who n : Nat) (f : State → State) : State := if s.bgMay who n then f s else s.bgDelay who

/-! ### Queues (R269 to R275) -/

def State.wq (s : State) (pc : Nat) : List WReq := s.fmc.wq.get [] pc
def State.setWq (s : State) (pc : Nat) (l : List WReq) : State := { s with fmc := { s.fmc with wq := s.fmc.wq.set [] pc l } }
def State.rq (s : State) (pc : Nat) : List Req := s.fmc.rq.get [] pc
def State.setRq (s : State) (pc : Nat) (l : List Req) : State := { s with fmc := { s.fmc with rq := s.fmc.rq.set [] pc l } }
def State.rqWaiting (s : State) (pc : Nat) : List Req := s.fmc.rqWait.get [] pc
def State.setRqWaiting (s : State) (pc : Nat) (l : List Req) : State :=
  { s with fmc := { s.fmc with rqWait := s.fmc.rqWait.set [] pc l } }
def State.tbuf (s : State) (st : Nat) : List WReq := s.fmc.tbuf.get [] st
def State.setTbuf (s : State) (st : Nat) (l : List WReq) : State := { s with fmc := { s.fmc with tbuf := s.fmc.tbuf.set [] st l } }

/-- The write that a read of a place matches: in the write queue or the retraining buffer (R273). -/
def State.hazard (s : State) (pc la : Nat) : Option WReq :=
  match ((s.tbuf (pc / 32)).filter fun w => w.pc == pc && w.la == la).getLast? with
  | some w => some w
  | none => (s.wq pc).find? fun w => w.la == la

/-- What the device intends a place to hold: the newest accepted write, else the array (R273). -/
def State.view (s : State) (pc la : Nat) : Line :=
  match s.hazard pc la with
  | some w => w.data
  | none => s.array pc la

/-- The class counters of a stack's bandwidth window (R292). -/
def State.countRead (s : State) (pc cls : Nat) : State :=
  (s.ctr (pcPage pc) FMC_RD_LINES.COUNT 1 (pc % 4)).upIo fun io => io.accAdd (pgFmc (pc / 32) 11) FMC_WIN_RDc.BYTES 64 (cls - 1)

def State.countWrite (s : State) (pc cls : Nat) : State :=
  (s.ctr (pcPage pc) FMC_WR_LINES.COUNT 1 (pc % 4)).upIo fun io => io.accAdd (pgFmc (pc / 32) 11) FMC_WIN_WRc.BYTES 64 (cls - 1)

/-- The key of the bank that a place decodes to, and whether its row is open there (R268). -/
def State.bankKey (s : State) (pc la : Nat) : Nat := pc * 16 + bankOf (s.rowMap pc la)
def State.rowHit (s : State) (pc la : Nat) : Bool :=
  s.fmc.openRow.get 0 (s.bankKey pc la) == rowOf (s.rowMap pc la) + 1

/-- An access opens its row; one that finds it open counts as a hit (R292). -/
def State.openRow (s : State) (pc la : Nat) : State :=
  let s := if s.rowHit pc la then s.ctr (pcPage pc) FMC_ROW_HIT.COUNT 1 (pc % 4) else s
  { s with fmc := { s.fmc with openRow := s.fmc.openRow.set 0 (s.bankKey pc la) (rowOf (s.rowMap pc la) + 1) } }

/-- A line is written to the array. -/
def State.arrayWrite (s : State) (pc la : Nat) (v : Line) (cls : Nat) : State :=
  ((s.openRow pc la).countWrite pc cls).setArray pc la v

/-- A write leaves the queue or the retraining buffer for the array. -/
def State.drainWrite (s : State) (pc : Nat) (w : WReq) : State :=
  let s := s.setWq pc ((s.wq pc).filter fun x => x.la != w.la)
  let s := s.setTbuf (pc / 32) ((s.tbuf (pc / 32)).filter fun x => !(x.pc == pc && x.la == w.la))
  s.arrayWrite pc w.la w.data w.cls

/-- A write enters the write queue, replacing an unissued one of its line in place (R272). -/
def State.enterWq (s : State) (w : WReq) : State :=
  let l := s.wq w.pc
  let w := { w with again := false, cond := false }
  if l.any fun x => x.la == w.la then s.setWq w.pc (l.map fun x => if x.la == w.la then w else x)
  else s.setWq w.pc (l ++ [w])

/-- A write of a place has been accepted: reads of it in flight are passed by it (R274), and conditional writes that rest on an earlier
read are discarded (R275). -/
def State.noteWrite (s : State) (pc la : Nat) : State :=
  { s with fmc := { s.fmc with
                    flight := s.fmc.flight.map fun x => if x.req.pc == pc && x.req.la == la then { x with passed := true } else x
                    wait := s.fmc.wait.filter fun w => !(w.cond && w.pc == pc && w.la == la) } }

/-- A repeated write that is not taken either, or a line that no copy gives: the line is abandoned (R277, R279). -/
def State.lineLost (s : State) (pc la : Nat) : State := s.report 2 10 (pgFmc (pc / 32) 0) (pc * 2 ^ 32 + 64 * la) 0

/-- The requester of a write learns that it failed (R279). -/
def State.writeFailed (s : State) (tag : Nat) : State := { s with fmc := { s.fmc with failed := s.fmc.failed.set false tag true } }

/-- A copy that cannot be written: degraded; but with the table full while the partner is not ACTIVE the write is issued once
more, and then fails (R278, R279).  `none`: issue it again. -/
def State.refuseCopy (s : State) (w : WReq) : Option State :=
  if s.tableBlocked w.pc w.la then
    if w.again then some ((s.writeFailed w.tag).lineLost w.pc w.la) else none
  else some (s.degrade w.pc w.la)

/-- How a copy takes a write now (R278): into the queue, into the retraining buffer, or not at all. -/
inductive Take where
  | queue | buffer | refuse | full
deriving DecidableEq, Repr

/-- A pseudo-channel whose copies are not written: FROZEN, or RETIRED without rehome (R278). -/
def State.outOfService (s : State) (pc : Nat) : Bool :=
  s.pcState pc == 2 || (s.pcState pc == 4 && s.io.nvm.retired.get 0 pc == 0)

/-- A single-copy line is never refused: it waits (R532). -/
def State.takes (s : State) (w : WReq) : Take :=
  if w.loc.mirrored && (s.outOfService (w.loc.pcOf w.side) || s.outOfService w.pc) then .refuse
  else if s.pcState w.pc = 1 then
    (if (s.tbuf (w.pc / 32)).length < 512 then .buffer else if w.loc.mirrored then .refuse else .full)
  else if (s.wq w.pc).length < 64 || (s.wq w.pc).any (fun x => x.la == w.la) then .queue
  else .full

/-- One write is accepted where its copy takes it; `none` while its queue is full.  A conditional write that its copy does not take is
discarded. -/
def State.accept (s : State) (w : WReq) : Option State :=
  match s.takes w with
  | .queue => some (((s.noteWrite w.pc w.la).bgPay w.cls w.who).enterWq w)
  | .buffer =>
    let s := (s.noteWrite w.pc w.la).bgPay w.cls w.who
    some (s.setTbuf (w.pc / 32) (s.tbuf (w.pc / 32) ++ [{ w with cond := false }]))
  | .refuse => if w.cond then some s else s.refuseCopy w
  | .full => none

/-- A fresh tag or request number. -/
def State.fresh (s : State) : Nat × State := (s.fmc.nextId, { s with fmc := { s.fmc with nextId := s.fmc.nextId + 1 } })

/-- The writes of a line, one per copy. -/
def State.copyWrites (s : State) (l : Loc) (v : Line) (cls who tag : Nat) (again : Bool) : List WReq :=
  l.sides.map fun x =>
    { loc := l, side := x, pc := (s.copyAt l x).1, la := (s.copyAt l x).2, data := v, cls := cls, who := who, tag := tag, again := again }

/-- Issue a write of a line to its copies; it is accepted by DRAM_WRITE_ACCEPT (R269). -/
def State.issueWrite (s : State) (l : Loc) (v : Line) (cls who tag : Nat) : State :=
  { s with fmc := { s.fmc with wait := s.fmc.wait ++ s.copyWrites l v cls who tag false } }

/-- Every write with the tag has been accepted. -/
def State.accepted (s : State) (tag : Nat) : Bool := s.fmc.wait.all fun w => w.tag != tag

/-- A drain-wait read waits for a queued write of the pseudo-channel (R271, R273). -/
def State.promoted (s : State) (pc : Nat) (w : WReq) : Bool := (s.rq pc).any fun r => r.drain && r.la == w.la

/-- The next write (R271): one that a drain-wait read waits for, then a row hit, then the oldest. -/
def State.nextWrite (s : State) (pc : Nat) : Option WReq :=
  let l := s.wq pc
  match l.find? fun w => s.promoted pc w with
  | some w => some w
  | none =>
    match l.find? fun w => s.rowHit pc w.la with
    | some w => some w
    | none => l.head?

/-- The write mode of the next cycle (R271): entered at 48 writes, with no read queued, or for a promoted write; left at 16 writes, or,
when it was entered with no more than 16, with the queue empty, or with the promoted write in the array. -/
def State.writeMode (s : State) (pc : Nat) (reading : Bool) : Nat :=
  let n := (s.wq pc).length
  let prom := (s.wq pc).any fun w => s.promoted pc w
  let m := s.fmc.wmode.get 0 pc
  if n = 0 then 0
  else if 16 < n ∧ (m ≠ 0 ∨ 48 ≤ n) then 1
  else if m = 2 then 2
  else if prom then 1
  else if m = 0 ∧ !reading ∧ (s.rq pc).isEmpty then (if 16 < n then 1 else 2)
  else 0

def State.setMode (s : State) (pc m : Nat) : State := { s with fmc := { s.fmc with wmode := s.fmc.wmode.set 0 pc m } }

/-- Make room in a write queue for a requester that waits for acceptance: its next write drains (R271). -/
def State.makeRoom (s : State) (pc : Nat) : State :=
  match s.nextWrite pc with
  | none => s
  | some w => s.drainWrite pc w

/-- A write in the order of R272: by class, then by lower master identity. -/
def byClass (w : WReq) : List WReq → List WReq
  | [] => [w]
  | x :: t => if w.cls < x.cls ∨ (w.cls = x.cls ∧ w.who < x.who) then w :: x :: t else x :: byClass w t

/-- Accept writes one after another; one that is refused for now is issued again at the end of the waiting list (R279). -/
def State.acceptAll (s : State) (l : List WReq) : State :=
  l.foldl (fun s w =>
    match s.accept w with
    | some s' => s'
    | none => { s with fmc := { s.fmc with wait := s.fmc.wait ++ [{ w with again := true }] } }) s

/-- The waiting writes of the line of `w` are accepted in one command cycle, in the order of R272. -/
def State.acceptLine (s : State) (w : WReq) : State :=
  let (grp, rest) := s.fmc.wait.partition fun x => x.pc == w.pc && x.la == w.la
  ({ s with fmc := { s.fmc with wait := rest } }).acceptAll (grp.foldl (fun l x => byClass x l) [])

/-- DRAM_WRITE_ACCEPT: the oldest waiting write of a pseudo-channel is accepted, with those of its line (R269, R272); a background
write needs tokens (R290). -/
def State.writeAccept (s : State) (pc : Nat) : State :=
  match s.fmc.wait.find? fun w => w.pc == pc && (w.cls != 4 || s.bgMay w.who 1) with
  | none => s
  | some w => if s.takes w = .full then s else s.acceptLine w

/-- A requester that acts in one event waits until the writes issued before its own have been accepted. -/
def State.settle (s : State) (pc : Nat) : Nat → State
  | 0 => s
  | n + 1 =>
    match s.fmc.wait.find? fun w => w.pc == pc with
    | none => s
    | some w => ((if s.takes w = .full then s.makeRoom pc else s).acceptLine w).settle pc n

/-- Write a line and have it accepted before going on: requesters that act in one event (log entry 13), after the writes that were
issued before theirs. -/
def State.writeNow (s : State) (l : Loc) (v : Line) (cls who : Nat) : State :=
  (s.copyWrites l v cls who 0 true).foldl (fun s w =>
    let s := s.settle w.pc s.fmc.wait.length
    ((if s.takes w = .full then s.makeRoom w.pc else s).accept w).getD s) s

/-- What a requester with a status learns of a write of a line now (R278, R279): 10 MEM_ERROR, 9 DEGRADED, 0. -/
def State.writeOutcome (s : State) (l : Loc) : Nat :=
  let ws := (s.copyWrites l 0 0 0 0 true).filter fun w => s.takes w = .refuse
  if ws.any fun w => s.tableBlocked w.pc w.la then 10 else if ws.isEmpty then 0 else 9

/-! ### Errors (R276 to R283) -/

/-- Capture an error in page 9 of its stack when the capture is empty (R282). -/
def State.capture (s : State) (kind pc la : Nat) (raw : Option (BitVec 576)) : State :=
  let b := pgFmc (pc / 32) 9
  if s.get b FMC_CAP_STAT.VALID = 1 then s
  else
    let (synd, s) := s.draw
    let (blank, s) := s.draw
    let r := match raw with | some r => r.toNat | none => blank
    let s := ((s.put b FMC_CAP_STAT.VALID 1).put b FMC_CAP_STAT.KIND kind).put b FMC_CAP_STAT.PC (pc % 32)
    let s := ((s.put b FMC_CAP_ADDR.ADDR (64 * la)).put b FMC_CAP_SYND.SYND synd).put b FMC_CAP_TIME.NS s.io.nsec
    ((List.range 18).foldl (fun s n => s.put b FMC_CAP_RAWn.RAW (r >>> (32 * n)) n) s).raise b 0

/-- Give a response to a request; the scrubber takes none. -/
def State.respond (s : State) (r : Req) (v : Option Line) : State :=
  if r.who = 0x31 then s else { s with fmc := { s.fmc with resp := s.fmc.resp.set none r.id (some v) } }

/-- The pipeline whose events FMC_RD and FMC_FWD count a requester's reads (R362): flow lookups and Pip loads. -/
def fmcPipe (who : Nat) : Option Nat := if 0x20 ≤ who ∧ who < 0x28 then some (who - 0x20) else none

/-- A performance event of a flow lookup's read. -/
def State.countFmc (s : State) (r : Req) (f : Fld) (code : Nat) : State :=
  match fmcPipe r.who with
  | none => s
  | some p => s.upIo fun io => io.event p (pgPmcL p) f { code := code, master := r.who, unit := r.unit }

/-- Send a request to its copy: it waits for an entry of the read queue, is forwarded at once on a match, or is queued (R269, R273). -/
def State.queueRead (s : State) (r : Req) : State :=
  if 64 ≤ (s.rq r.pc).length then s.setRqWaiting r.pc (s.rqWaiting r.pc ++ [r])
  else
    match s.hazard r.pc r.la, r.drain with
    | some w, false =>
      ((s.ctr (pcPage r.pc) FMC_FWD_HIT.COUNT 1 (r.pc % 4)).countFmc r PMC_EVT_FMC_FWD.COUNT 0x61).respond r (some w.data)
    | some _, true => (s.ctr (pcPage r.pc) FMC_DRAIN_WAIT.COUNT 1 (r.pc % 4)).setRq r.pc (s.rq r.pc ++ [r])
    | none, _ => s.setRq r.pc (s.rq r.pc ++ [r])

/-- Waiting reads take the entries that have become free; `n` bounds them. -/
def State.admitReads (s : State) (pc : Nat) : Nat → State
  | 0 => s
  | n + 1 =>
    match s.rqWaiting pc with
    | [] => s
    | r :: t => if 64 ≤ (s.rq pc).length then s else ((s.setRqWaiting pc t).queueRead r).admitReads pc n

/-- A read goes to the other copy of its line; with neither in service the requester receives MEM_ERROR (R277, R282). -/
def State.reissue (s : State) (r : Req) (first again : Bool) : State :=
  if r.loc.mirrored && s.serves r.loc (!r.side) then
    let p := s.copyAt r.loc (!r.side)
    s.queueRead { r with side := !r.side, pc := p.1, la := p.2, first := first, again := again }
  else (s.lineLost r.pc r.la).respond r none

/-- Queued reads of mirrored lines move to the partner copies, ahead of their class; queued and buffered writes of them are dropped and
their lines degraded; single-copy lines stay (R282, R532). -/
def State.moveQueues (s : State) (pc : Nat) : State :=
  let (mv, stay) := (s.rq pc ++ s.rqWaiting pc).partition fun r => r.loc.mirrored
  let (buf, others) := (s.tbuf (pc / 32)).partition fun w => w.pc == pc
  let (dr, keep) := (s.wq pc ++ buf).partition fun w => w.loc.mirrored
  let s := ((s.setRq pc (stay.take 64)).setRqWaiting pc (stay.drop 64)).setTbuf (pc / 32) others
  let s := keep.foldl State.enterWq (s.setWq pc [])
  let s := dr.foldl (fun s w => s.degrade pc w.la) s
  mv.foldl (fun s r => s.reissue r true r.again) s

/-- The rebuild of a pseudo-channel joins its stack's list (R288). -/
def State.rebuildJoin (s : State) (pc : Nat) : State :=
  let st := pc / 32
  let l := s.fmc.rebuild.get [] st
  let s := { s with fmc := { s.fmc with rebuild := s.fmc.rebuild.set [] st (l ++ [pc]),
                                        rebuildPos := if l.isEmpty then s.fmc.rebuildPos.set 0 st 0 else s.fmc.rebuildPos } }
  if l.isEmpty then
    let b := pgFmc st 10
    ((s.put b FMC_REBUILD_STAT.ACTIVE 1).put b FMC_REBUILD_STAT.PC (pc % 32)).put b FMC_REBUILD_STAT.LEFT (0x390000 / 64)
  else s

/-- The rebuild of `pc` leaves its stack's list, and the next one begins. -/
def State.rebuildLeave (s : State) (pc : Nat) : State :=
  let st := pc / 32
  let b := pgFmc st 10
  let l := s.fmc.rebuild.get [] st
  if l.head? = some pc then
    let s := { s with fmc := { s.fmc with rebuild := s.fmc.rebuild.set [] st [], rebuildPos := s.fmc.rebuildPos.set 0 st 0 } }
    let s := ((s.put b FMC_REBUILD_STAT.ACTIVE 0).put b FMC_REBUILD_STAT.PC 0).put b FMC_REBUILD_STAT.LEFT 0
    (l.drop 1).foldl (fun s pc => s.rebuildJoin pc) s
  else { s with fmc := { s.fmc with rebuild := s.fmc.rebuild.set [] st (l.filter (· != pc)) } }

/-- A rebuild that a freeze ends will be needed again: the pseudo-channel is STALE until one completes (log entry 73). -/
def State.rebuildCut (s : State) (pc : Nat) : State :=
  if s.pcState pc = 3 ∨ s.pcState pc = 4 then (s.put (pcPage pc) FMC_PC_STAT.STALE 1 (pc % 4)).rebuildLeave pc else s

/-- A pseudo-channel freezes (R282), unless its partner is not ACTIVE (R283). -/
def State.freezePc (s : State) (kind pc : Nat) : State :=
  if s.pcState pc = 2 ∨ s.pcState (partner pc) ≠ 0 then s
  else
    let s := ((s.rebuildCut pc).setPcState pc 2).raise (pcPage pc) (4 * (pc % 4))
    (s.moveQueues pc).report 1 8 (pgFmc (pc / 32) 0) pc kind

/-- An error freezes its pseudo-channel; it is captured either way (R282, R283). -/
def State.freeze (s : State) (kind pc la : Nat) (raw : Option (BitVec 576)) : State := (s.capture kind pc la raw).freezePc kind pc

/-- What an array read of a copy ends with: data to use, or none, with its counters, capture and freeze (R276). -/
def State.readEnds (s : State) (pc la who : Nat) (e : ReadEnd) : Bool × State :=
  let k := pc % 4
  let scrub := who = 0x31
  match e with
  | .clean => (true, s)
  | .corrected =>
    (true, ((s.bump (pcPage pc) FMC_CE_CNT.COUNT 1 k).raiseOnce (pcPage pc) (4 * k + 1)).report 0 6 (pgFmc (pc / 32) 0)
      (pc * 2 ^ 32 + 64 * la) 0)
  | .bad raw =>
    (false, (s.bump (pcPage pc) FMC_UE_CNT.COUNT 1 k).freeze (if scrub then 1 else 0) pc la (some raw))
  | .wrongLine raw => (false, (s.bump (pcPage pc) FMC_UE_CNT.COUNT 1 k).freeze 3 pc la (some raw))
  | .command raw => (false, (s.bump (pcPage pc) FMC_CMD_ERR_CNT.COUNT 1 k).freeze 2 pc la (some raw))

/-- A corrected line is written back by a conditional write of the background class (R275, R276). -/
def State.scrubBack (s : State) (l : Loc) (side : Bool) (pc la : Nat) (v : Line) : State :=
  { s with fmc := { s.fmc with wait := s.fmc.wait ++
      [({ loc := l, side := side, pc := pc, la := la, data := v, cls := 4, who := 0x31, tag := 0, again := true, cond := true } : WReq)] } }

/-- How the array read of a place ends: with what goes wrong in the read itself, else with the errors the line has gathered. -/
def State.cellEnd (s : State) (pc la : Nat) (e : ReadEnd) : ReadEnd := if e = .clean then s.fmc.fault.get .clean (s.cell pc la) else e

/-- A line served from the other copy after an error is reported as DRAM_UE, one that neither copy gives as DRAM_LINE_LOST
(R277, R479). -/
def State.readReport (s : State) (pc la : Nat) (lost : Bool) : State :=
  if lost then s.lineLost pc la else s.report 1 7 (pgFmc (pc / 32) 0) (pc * 2 ^ 32 + 64 * la) 0

/-! ### Queued reads (R270, R271, R276) -/

/-- Take a response. -/
def State.takeResp (s : State) (id : Nat) : Option (Option Line × State) :=
  match s.fmc.resp.get none id with
  | none => none
  | some v => some (v, { s with fmc := { s.fmc with resp := s.fmc.resp.set none id none } })

/-- Issue a read of a line; its number. -/
def State.issueRead (s : State) (l : Loc) (cls who unit : Nat) (drain : Bool) : Nat × State :=
  let (id, s) := s.fresh
  let r : Req := { id := id, loc := l, side := false, pc := l.a, la := l.la, cls := cls, who := who, drain := drain, unit := unit }
  match s.copies l with
  | [] => (id, (s.lineLost l.a l.la).respond r none)
  | x :: _ =>
    let r := { r with side := x, pc := (s.copyAt l x).1, la := (s.copyAt l x).2 }
    (id, (s.countFmc r PMC_EVT_FMC_RD.COUNT 0x60).queueRead r)

/-- A background read that the limiter holds back is counted once (R293). -/
def State.bgThrottle (s : State) (pc : Nat) : State :=
  (s.rq pc).foldl (fun s r =>
    if r.cls = 4 ∧ !(s.bgMay r.who 1) ∧ s.fmc.delayed.get false r.id = false then
      let s := ({ s with fmc := { s.fmc with delayed := s.fmc.delayed.set false r.id true,
                                             bgWait := s.fmc.bgWait.set false (bgIndex r.who) true } })
      s.ctr (pgFmc 0 11) FMC_BG_THROTTLE_CNT.COUNT
    else s) s

/-- A pseudo-channel issues commands for a line: RETRAINING ones do not, FROZEN ones only for single-copy lines (R281, R282, R532). -/
def State.issues (s : State) (pc : Nat) (l : Loc) : Bool := s.pcState pc ≠ 1 && (s.pcState pc ≠ 2 || !l.mirrored)

/-- A read may be issued: a drain-wait match must be in the array first, background reads need tokens. -/
def State.readable (s : State) (pc : Nat) (r : Req) : Bool :=
  s.issues pc r.loc && (!r.drain || (s.hazard pc r.la).isNone) && (r.cls ≠ 4 || s.bgMay r.who 1)

/-- The next read of class `most` or a higher one (R270): the highest class, in it reads moved or re-issued, then a row hit, then
the oldest; `aged` reads of 256 command cycles or more come before row hits. -/
def State.nextRead (s : State) (pc : Nat) (aged : Bool) (most : Nat) : Option Req :=
  let l := (s.rq pc).filter fun r => r.cls ≤ most && s.readable pc r
  let cls := (l.map Req.cls).foldl min 5
  let c := l.filter fun r => r.cls = cls
  let f := c.filter Req.first
  let c := if f.isEmpty then c else f
  if aged then c.head?
  else
    match c.find? fun r => s.rowHit pc r.la with
    | some r => some r
    | none => c.head?

/-- A read goes to the array: what it will return is fixed here (R274); its queue entry is free. -/
def State.fly (s : State) (pc : Nat) (r : Req) : State :=
  let s := s.setRq pc ((s.rq pc).erase r)
  let s := ((s.bgPay r.cls r.who).openRow pc r.la).countRead pc r.cls
  let s := { s with fmc := { s.fmc with flight := s.fmc.flight ++ [(⟨r, s.array pc r.la, false⟩ : Flight)] } }
  s.admitReads pc (s.rqWaiting pc).length

/-- The stack reports a command error on a write: counted and captured, the pseudo-channel freezes or the error is reported, and the copy
is not written (R276, R278, R282, R283); a write that must be accepted is issued once more (R279, R532). -/
def State.writeError (s : State) (pc : Nat) (w : WReq) : State :=
  let s := s.setWq pc ((s.wq pc).filter fun x => x.la != w.la)
  let s := (s.bump (pcPage pc) FMC_CMD_ERR_CNT.COUNT 1 (pc % 4)).freeze 2 pc w.la none
  let s := if s.pcState pc = 2 then s else s.readReport pc w.la false
  let repeated := s.setWq pc (s.wq pc ++ [{ w with again := true }])
  if !w.loc.mirrored then (if w.again then (s.writeFailed w.tag).lineLost w.pc w.la else repeated)
  else (s.refuseCopy w).getD repeated

/-- The next queued write may be issued in its pseudo-channel's state. -/
def State.readyWrite (s : State) (pc : Nat) : Option WReq := (s.nextWrite pc).filter fun w => s.issues pc w.loc

/-- DRAM_COMMAND_ISSUE (R270, R271); `err`: the stack reports a command error on the write issued. -/
def State.dramIssue (s : State) (pc : Nat) (aged err : Bool) : State :=
  if s.pcState pc = 1 then s
  else
    let m := s.writeMode pc false
    let s := s.setMode pc m
    if m ≠ 0 then
      match s.readyWrite pc with
      | some w => if err then s.writeError pc w else s.drainWrite pc w
      | none => s
    else
      let s := s.bgThrottle pc
      match s.nextRead pc aged 4 with
      | some r => s.fly pc r
      | none => s

/-- DRAM_READ_COMPLETE: the oldest read in flight in a pseudo-channel ends (R276, R277). -/
def State.readComplete (s : State) (pc : Nat) (e : ReadEnd) : State :=
  match s.fmc.flight.find? fun x => x.req.pc == pc with
  | none => s
  | some x =>
    let r := x.req
    let s := { s with fmc := { s.fmc with flight := s.fmc.flight.erase x } }
    let e := if x.passed then e else s.cellEnd pc r.la e
    let (ok, s) := s.readEnds pc r.la r.who e
    if ok then
      let s := if e = .corrected ∧ !x.passed then s.scrubBack r.loc r.side pc r.la x.data else s
      s.respond r (some x.data)
    else if r.again || !r.loc.mirrored || !(s.serves r.loc (!r.side)) then (s.readReport pc r.la true).respond r none
    else (s.readReport pc r.la false).reissue r true true

/-! ### Reads at one event -/

/-- The commands that a pseudo-channel issues before a read of class `cls` that has just come (R25, R270, R271): writes while it is in
write mode, then the queued reads of that class and of higher ones; `n` bounds them. -/
def State.ahead (s : State) (pc cls : Nat) : Nat → State
  | 0 => s
  | n + 1 =>
    if s.pcState pc = 1 then s
    else
      let m := s.writeMode pc true
      let s := s.setMode pc m
      match (if m = 0 then none else s.readyWrite pc) with
      | some w => (s.drainWrite pc w).ahead pc cls n
      | none =>
        match s.nextRead pc false cls with
        | some r => (s.fly pc r).ahead pc cls n
        | none => s

/-- Read the array at a place for a copy of a line; a corrected line is written back. -/
def State.arrayRead (s : State) (l : Loc) (side : Bool) (cls who : Nat) (e : ReadEnd) : Option Line × State :=
  let p := s.copyAt l side
  let s := s.ahead p.1 cls ((s.rq p.1).length + (s.rqWaiting p.1).length + (s.wq p.1).length)
  let s := ((s.bgPay cls who).openRow p.1 p.2).countRead p.1 cls
  let v := s.array p.1 p.2
  let e := s.cellEnd p.1 p.2 e
  let (ok, s) := s.readEnds p.1 p.2 who e
  if ok then (some v, if e = .corrected then s.scrubBack l side p.1 p.2 v else s) else (none, s)

/-- Read one copy now: forwarding or drain-wait on a match, else the array (R273). -/
def State.readCopy (s : State) (l : Loc) (side : Bool) (cls who : Nat) (drain : Bool) (e : ReadEnd) : Option Line × State :=
  let p := s.copyAt l side
  match s.hazard p.1 p.2, drain with
  | some w, false => (some w.data, s.ctr (pcPage p.1) FMC_FWD_HIT.COUNT 1 (p.1 % 4))
  | some w, true => ((s.ctr (pcPage p.1) FMC_DRAIN_WAIT.COUNT 1 (p.1 % 4)).drainWrite p.1 w).arrayRead l side cls who e
  | none, _ => s.arrayRead l side cls who e

/-- Read a line at one event: the copies in order, `es` how each array read ends where the read itself goes wrong (R277). -/
def State.readNow (s : State) (l : Loc) (cls who : Nat) (drain : Bool) (es : List ReadEnd) : Option Line × State :=
  match s.copies l with
  | [] => (none, s.lineLost l.a l.la)
  | x :: rest =>
    let p := s.copyAt l x
    match s.readCopy l x cls who drain (es.getD 0 .clean) with
    | (some v, s) => (some v, s)
    | (none, s) =>
      match rest with
      | [] => (none, s.readReport p.1 p.2 true)
      | y :: _ =>
        match s.readCopy l y cls who drain (es.getD 1 .clean) with
        | (some v, s) => (some v, s.readReport p.1 p.2 false)
        | (none, s) => (none, s.readReport (s.copyAt l y).1 (s.copyAt l y).2 true)

/-! ### Refresh and retraining (R280, R281) -/

/-- REFRESH_DUE: a bank is refreshed and its row closed; the stack's temperature as the controller reads it (R280); `faults` are the
errors that lines of the bank have gathered since, by line address (R276). -/
def State.refresh (s : State) (pc bank celsius : Nat) (faults : List (Nat × ReadEnd)) : State :=
  let b := pgFmc (pc / 32) 0
  let hot : Bool := 85 ≤ celsius
  let was := s.get b FMC_STK_STAT.HOT = 1
  let s := (s.put b FMC_STK_STAT.TEMP_C celsius).put b FMC_STK_STAT.HOT (b2n hot)
  let s := if hot ∧ !was then s.raise b 0 else s
  let f := (faults.filter fun e => bankOf e.1 == bank).foldl (fun m e => m.set .clean (pc * 8388608 + e.1) e.2) s.fmc.fault
  { s with fmc := { s.fmc with openRow := s.fmc.openRow.set 0 (pc * 16 + bank) 0, fault := f } }

/-- The two pseudo-channels of channel `c` of a stack. -/
def chanPcs (st c : Nat) : List Nat := [32 * st + 2 * c, 32 * st + 2 * c + 1]

/-- Reads of mirrored lines queued at a pseudo-channel go to the partner copies that serve. -/
def State.readsAway (s : State) (pc : Nat) : State :=
  let (mv, stay) := (s.rq pc ++ s.rqWaiting pc).partition fun r => r.loc.mirrored && s.serves r.loc (!r.side)
  mv.foldl (fun s r => s.reissue r r.first r.again) ((s.setRq pc (stay.take 64)).setRqWaiting pc (stay.drop 64))

/-- A pseudo-channel starts to retrain. -/
def State.retrainPc (s : State) (pc : Nat) : State := (s.setPcState pc 1).readsAway pc

/-- RETRAIN_START: the channel's two pseudo-channels retrain, unless the partner channel holds one that is not ACTIVE (R281). -/
def State.retrainStart (s : State) (st c : Nat) : State :=
  let pcs := chanPcs st c
  if s.get (pgFmc st 0) FMC_TRAIN_CFG.EN = 0 then s
  else if pcs.any fun pc => s.pcState (partner pc) ≠ 0 then s.bump (pgFmc st 0) FMC_TRAIN_SKIP_CNT.COUNT
  else pcs.foldl (fun s pc => if s.pcState pc = 0 then s.retrainPc pc else s) s

/-- The buffered writes of a pseudo-channel enter its write queue. -/
def State.flushTbuf (s : State) (pc : Nat) : State :=
  let st := pc / 32
  let (mine, rest) := (s.tbuf st).partition fun w => w.pc == pc
  mine.foldl (fun s w => ((if s.takes w = .full then s.makeRoom pc else s).accept w).getD s) (s.setTbuf st rest)

/-- A retraining ends: the pseudo-channel is ACTIVE again and its buffered writes are written. -/
def State.retrained (s : State) (pc : Nat) : State := if s.pcState pc = 1 then (s.setPcState pc 0).flushTbuf pc else s

/-- RETRAIN_END: the buffer is flushed; a retraining that fails to converge freezes the two pseudo-channels (R281). -/
def State.retrainEnd (s : State) (st c : Nat) (ok : Bool) : State :=
  let pcs := (chanPcs st c).filter fun pc => s.pcState pc = 1
  let s := pcs.foldl State.retrained s
  if ok ∨ pcs.isEmpty then s
  else pcs.foldl (fun s pc => s.freeze 4 pc 0 none) (s.raise (pgFmc st 0) 2)

/-! ### Freeze and release by software (R282, R285) -/

/-- PC_FREEZE: FMC_PC_CTL.FREEZE, subject to R283. -/
def State.swFreeze (s : State) (pc : Nat) : State :=
  if s.pcState pc = 2 ∨ s.pcState (partner pc) ≠ 0 then s else s.freeze 5 pc 0 none

/-- The unmirrored device data of a pseudo-channel are discarded, the loss reported (R288, code 16); the export staging restarts empty
where it is concerned, which a free value says (log entry 73). -/
def State.dataLost (s : State) (pc : Nat) : State :=
  let (v, s) := s.draw
  let s := if v.testBit 0 then { s with tel := { s.tel with msg := [] } } else s
  s.report 2 16 (pgFmc (pc / 32) 0) pc 0

/-- A STALE pseudo-channel becomes REBUILDING (R285). -/
def State.startRebuild (s : State) (pc : Nat) : State := ((s.setPcState pc 3).dataLost pc).rebuildJoin pc

/-- The other pseudo-channel of a channel. -/
def chanMate (pc : Nat) : Nat := pc ^^^ 1

/-- PC_RELEASE: FMC_PC_CTL.RELEASE (R285): the channel retrains, its other pseudo-channel with it where the partner copies serve. -/
def State.swRelease (s : State) (pc m : Nat) : State :=
  if s.pcStale pc ∧ s.pcState pc ≠ 3 ∧ s.pcState pc ≠ 4 then s.startRebuild pc
  else if s.pcState pc = 2 then
    let s := { s with fmc := { s.fmc with releasing := s.fmc.releasing.set false pc true } }
    let q := chanMate pc
    if s.pcState q = 0 ∧ s.pcState (partner q) = 0 then s.retrainPc q else s
  else s.err (pcPage pc) 3 m (0x040 + 0x40 * (pc % 4))

/-- RELEASE_RETRAIN_DONE: the pseudo-channel is ACTIVE, unless it has meanwhile been retired or marked STALE (R285). -/
def State.releaseDone (s : State) (pc : Nat) : State :=
  if s.fmc.releasing.get false pc then
    let s := ({ s with fmc := { s.fmc with releasing := s.fmc.releasing.set false pc false } }).retrained (chanMate pc)
    if s.pcState pc ≠ 2 then s else if s.pcStale pc then s.startRebuild pc else s.setPcState pc 0
  else s

/-- A conditional write that follows its read at once (R275): no write of the line can have been accepted in between, and it takes the
place of one that was queued before (R272). -/
def State.condWrite (s : State) (pc la : Nat) (v : Line) (who : Nat) : State :=
  let s := s.setWq pc ((s.wq pc).filter fun x => x.la != la)
  ((s.noteWrite pc la).bgTake who).arrayWrite pc la v 4

/-- The entries that the repair engine can work on: of ACTIVE pseudo-channels, with the other copy in service (R279). -/
def State.repairable (s : State) (e : Nat × Nat) : Bool :=
  s.pcState e.1 == 0 && (s.locAt e.1 e.2).mirrored && s.serves (s.locAt e.1 e.2) true

/-- REPAIR_ENTRY: the repair engine takes the oldest entry it can work on (R279). -/
def State.repair (s : State) (st : Nat) (es : List ReadEnd) : State :=
  match (s.degraded st).find? s.repairable with
  | none => s
  | some (pc, la) =>
    s.bgRun 0x32 2 fun s =>
      let l := s.locAt pc la
      match s.readCopy l true 4 0x32 true (es.getD 0 .clean) with
      | (none, s) => s.readReport (s.copyAt l true).1 (s.copyAt l true).2 true
      | (some v, s) =>
        let s := s.condWrite pc la v 0x32
        (s.setDegraded st ((s.degraded st).filter fun e => !(e == (pc, la)))).ctr (pgFmc st 10) FMC_REPAIR_CNT.COUNT

/-! ### Retirement and rebuild (R286 to R289) -/

/-- Outcome of FMC_RETIRE_CTL. -/
def State.retireCode (s : State) (st code : Nat) : State :=
  let s := s.put (pgFmc st 0) FMC_RETIRE_STAT.CODE code
  if code = 1 then s.raise (pgFmc st 0) 1 else s

/-- Spare rows of a bank in use. -/
def State.sparesUsed (s : State) (pc bank : Nat) : Nat :=
  (s.io.nvm.remaps.filter fun e => e.1 / 32768 = pc * 16 + bank ∧ e.2 ≠ 0).length

/-- A line moves to another cell with the errors it has gathered. -/
def State.moveCell (s : State) (src dst : Nat) : State :=
  { s with fmc := { s.fmc with mem := s.fmc.mem.set 0 dst (s.fmc.mem.get 0 src), chk := s.fmc.chk.set none dst none,
                               fault := s.fmc.fault.set .clean dst (s.fmc.fault.get .clean src) } }

/-- A line of a retired row: degraded and to be repaired; a line that has no other copy, or can take no entry, moves to the spare row
(R286, log entry 73). -/
def State.rowLine (s : State) (pc la old : Nat) : State :=
  if (s.locAt pc la).mirrored && !(s.tableBlocked pc la) then s.degrade pc la else s.moveCell old (s.cell pc la)

/-- ROW_RETIRE: the row maps to the next free spare row of its bank, and its 16 lines are degraded (R286). -/
def State.rowRetire (s : State) (pc bank row : Nat) : State :=
  let st := pc / 32
  let k := remapKey pc bank row
  if s.pcState pc ≠ 0 ∧ s.pcState pc ≠ 2 then s.retireCode st 4
  else if s.io.nvm.remaps.get 0 k ≠ 0 then s.retireCode st 1
  else if 1024 ≤ s.sparesUsed pc bank then s.retireCode st 3
  else
    let n := s.sparesUsed pc bank
    let lines := (List.range 16).map fun i => row * 256 + bank * 16 + i
    let old := s.cell pc
    let s := s.upIo fun io => { io with nvm := { io.nvm with remaps := io.nvm.remaps.set 0 k (n + 1) } }
    let s := (s.bump (pcPage pc) FMC_PC_ROWS.COUNT 1 (pc % 4)).bump (pgFmc st 0) FMC_RETIRE_STAT.ROWS
    (lines.foldl (fun s la => s.rowLine pc la (old la)) s).retireCode st 1

/-- The line of a pseudo-channel that an array cell of it holds: none for the cells of a row that has been remapped. -/
def State.lineOf (s : State) (pc c : Nat) : Option Nat :=
  if 30720 ≤ rowOf c ∧ rowOf c < 31744 then
    (s.io.nvm.remaps.find? fun e => e.1 / 32768 == pc * 16 + bankOf c && e.2 == rowOf c - 30720 + 1).map fun e =>
      e.1 % 32768 * 256 + c % 256
  else if s.rowMap pc c = c then some c else none

/-- Errors with which a line cannot be read. -/
def unreadable (e : ReadEnd) : Bool := e != .clean && e != .corrected

/-- The single-copy lines of a retired pseudo-channel that its array lists, each with its cell (R532). -/
def State.singles (s : State) (pc : Nat) : List (Nat × Nat) :=
  (s.fmc.mem.keys ++ s.fmc.fault.keys).eraseDups.filterMap fun k =>
    if k / 8388608 = pc then ((s.lineOf pc (k % 8388608)).filter (· < 0x280000)).map fun la => (la, k) else none

/-- The single-copy lines of a retired pseudo-channel are copied to their rehomed places; those that cannot be read are reported (R532). -/
def State.rehomeSingles (s : State) (pc : Nat) (l : List (Nat × Nat)) : State :=
  l.foldl (fun s e =>
    let p := s.home pc e.1
    if unreadable (s.fmc.fault.get .clean e.2) then s.lineLost pc e.1 else s.setArray p.1 p.2 (s.fmc.mem.get 0 e.2)) s

/-- What was queued at a pseudo-channel that retires goes where its lines now lie. -/
def State.requeue (s : State) (pc : Nat) (reads : List Req) : State :=
  let move := fun (w : WReq) => if w.pc = pc then { w with pc := (s.home pc w.la).1, la := (s.home pc w.la).2 } else w
  let s := { s with fmc := { s.fmc with wait := s.fmc.wait.map move } }
  reads.foldl (fun s r =>
    if r.loc.mirrored then s.reissue r true r.again
    else
      let p := s.home pc r.la
      s.queueRead { r with pc := p.1, la := p.2 }) s

/-- PC_RETIRE: a FROZEN or STALE pseudo-channel is rehomed and rebuilt (R287); and the lines that are lost with it (R532). -/
def State.pcRetire (s : State) (pc : Nat) : State × List Nat :=
  let st := pc / 32
  if !(s.pcState pc = 2 || (s.pcStale pc && s.pcState pc ≠ 3 && s.pcState pc ≠ 4)) then (s.retireCode st 4, [])
  else if s.get (pgFmc st 0) FMC_STK_STAT.RETIRED_PC ≠ 0xFF then (s.retireCode st 3, [])
  else
    let s := (s.wq pc).foldl (fun s w => s.drainWrite pc w) s
    let l := if s.mirror then [] else s.singles pc
    let lost := (l.filter fun e => unreadable (s.fmc.fault.get .clean e.2)).map (·.1)
    let reads := s.rq pc ++ s.rqWaiting pc
    let s := ((s.setRq pc []).setRqWaiting pc []).upIo fun io => { io with nvm := { io.nvm with retired := io.nvm.retired.set 0 pc 1 } }
    let s := (s.put (pcPage pc) FMC_PC_STAT.STALE 0 (pc % 4)).put (pgFmc st 0) FMC_STK_STAT.RETIRED_PC (pc % 32)
    let s := (s.setDegraded st ((s.degraded st).filter fun e => e.1 != pc)).rehomeSingles pc l
    (((((s.setPcState pc 4).requeue pc reads).dataLost pc).rebuildJoin pc).retireCode st 1, lost)

/-- At every boot the registers show the retirements that the persistent store holds (R289). -/
def State.reapplyRetired (s : State) : State :=
  let s := (List.range 4).foldl (fun s st =>
    let s := match s.retiredPc st with
      | some k => s.put (pgFmc st 0) FMC_STK_STAT.RETIRED_PC (k % 32)
      | none => s
    s.put (pgFmc st 0) FMC_RETIRE_STAT.ROWS ((s.io.nvm.remaps.filter fun e => e.1 / 32768 / 16 / 32 = st ∧ e.2 ≠ 0).length)) s
  (List.range 128).foldl (fun s pc =>
    s.put (pcPage pc) FMC_PC_ROWS.COUNT ((s.io.nvm.remaps.filter fun e => e.1 / 32768 / 16 = pc ∧ e.2 ≠ 0).length) (pc % 4)) s

/-- Mirrored lines of a pseudo-channel, 228 MiB of 64 B (R288); without FLOW_MIRROR those above the buckets only (R532). -/
def rebuildEnd : Nat := 0x390000

/-- Bytes of rebuild reads above what FMC_REBUILD_CFG.RATE_GBS, 0 treated as 1, has allowed so far (R288). -/
def State.rebuildLevel (s : State) : Nat :=
  s.fmc.rebuildUsed - max 1 (s.get (pgFmc 0 10) FMC_REBUILD_CFG.RATE_GBS) * (s.io.time.counted - s.fmc.rebuildAt)

/-- The rebuild reads its line of the partner and writes it. -/
def State.rebuildCopy (s : State) (pc la : Nat) (es : List ReadEnd) : State :=
  let l : Loc := { a := pc, b := partner pc, la := la, mirrored := true }
  if !(s.serves l true) then s.lineLost (s.copyAt l true).1 (s.copyAt l true).2
  else
    match s.readCopy l true 4 0x32 true (es.getD 0 .clean) with
    | (none, s) => s.readReport (s.copyAt l true).1 (s.copyAt l true).2 true
    | (some v, s) => s.condWrite (s.copyAt l false).1 (s.copyAt l false).2 v 0x32

/-- REBUILD_LINE: the next mirrored line is read from the partner with drain-wait and written conditionally, at no more than
RATE_GBS (R288). -/
def State.rebuildLine (s : State) (st : Nat) (es : List ReadEnd) : State :=
  match s.fmc.rebuild.get [] st with
  | [] => s
  | pc :: _ =>
    let pos := s.fmc.rebuildPos.get 0 st
    let la := if s.mirror then pos else max pos 0x280000
    if rebuildEnd ≤ la ∨ s.rebuildLevel ≠ 0 then s
    else
      s.bgRun 0x32 2 fun s =>
        let s := s.rebuildCopy pc la es
        let s := { s with fmc := { s.fmc with rebuildPos := s.fmc.rebuildPos.set 0 st (la + 1), rebuildUsed := 64,
                                              rebuildAt := s.io.time.counted } }
        s.put (pgFmc st 10) FMC_REBUILD_STAT.LEFT ((rebuildEnd - (la + 1)) / 64)

/-- REBUILD_DONE: the pseudo-channel whose rebuild has reached its end becomes ACTIVE, and the next begins (R288). -/
def State.rebuildDone (s : State) (st : Nat) : State :=
  match s.fmc.rebuild.get [] st with
  | [] => s
  | pc :: _ =>
    if s.fmc.rebuildPos.get 0 st < rebuildEnd then s
    else
      let b := pgFmc st 10
      let s := (s.setPcState pc 0).put (pcPage pc) FMC_PC_STAT.STALE 0 (pc % 4)
      let s := ((s.bump b FMC_REBUILD_CNT.COUNT).raise b 2).raise (pcPage pc) (4 * (pc % 4) + 3)
      (s.setDegraded st (s.degraded st)).rebuildLeave pc

/-! ### Diagnosis (R284) -/

/-- A spare row of `pc` that no remap uses. -/
def State.freeSpare (s : State) (pc la : Nat) : Bool :=
  30720 ≤ rowOf la && rowOf la < 31744 && s.sparesUsed pc (bankOf la) ≤ rowOf la - 30720

/-- DIAG_READ, DIAG_WRITE: a write of FMC_DIAG_CTL. -/
def State.diagCtl (s : State) (st v : Nat) : State :=
  let b := pgFmc st 9
  let pc := 32 * st + bitsOf v 25 5
  let la := s.get b FMC_DIAG_ADDR.ADDR / 64
  let wr := v.testBit 30
  if !(v.testBit 31) then s
  else if (s.fmc.diag.get none st).isSome then s.put b FMC_DIAG_STAT.CODE 4
  else if s.pcState pc ≠ 2 then s.put b FMC_DIAG_STAT.CODE 2
  else if wr ∧ !(s.freeSpare pc la) then s.put b FMC_DIAG_STAT.CODE 3
  else { s with fmc := { s.fmc with diag := s.fmc.diag.set none st (some ⟨wr, pc, la⟩) } }

/-- The check bytes of a physical line: those a DIAG write stored, else the code's. -/
def State.checkBytes (s : State) (pc la : Nat) : BitVec 64 :=
  let k := pc * 8388608 + la
  match s.fmc.chk.get none k with
  | some c => c
  | none => Config.checkBytes pc la (s.fmc.mem.get 0 k)

/-- The raw codeword that an error in a line gives. -/
def rawOf : ReadEnd → Option (BitVec 576)
  | .bad raw => some raw
  | .wrongLine raw => some raw
  | .command raw => some raw
  | _ => none

/-- DIAG_DONE: a read loads DATA with the 72 raw bytes (as read: `raw`, where the line has an error); a write stores them. -/
def State.diagDone (s : State) (st : Nat) (raw : Option (BitVec 576)) : State :=
  match s.fmc.diag.get none st with
  | none => s
  | some d =>
    let b := pgFmc st 9
    let k := d.pc * 8388608 + d.la
    let s := { s with fmc := { s.fmc with diag := s.fmc.diag.set none st none } }
    let s :=
      if d.write then
        let v := (List.range 18).foldl (fun a n => a + s.get b FMC_DIAG_DATAn.DATA n * 2 ^ (32 * n)) 0
        { s with fmc := { s.fmc with mem := s.fmc.mem.set 0 k (BitVec.ofNat 512 v), fault := s.fmc.fault.set .clean k .clean,
                                     chk := s.fmc.chk.set none k (some (BitVec.ofNat 64 (v >>> 512))) } }
      else
        let v := match raw.or (rawOf (s.fmc.fault.get .clean k)) with
          | some r => r.toNat
          | none => (s.fmc.mem.get 0 k).toNat + (s.checkBytes d.pc d.la).toNat * 2 ^ 512
        (List.range 18).foldl (fun s n => s.put b FMC_DIAG_DATAn.DATA (v >>> (32 * n)) n) s
    (s.put b FMC_DIAG_STAT.CODE 1).raise b 1

/-! ### Scrubber and windows (R291, R292) -/

/-- The scrubber's read of a line of a pseudo-channel (R291). -/
def State.scrubReq (s : State) (pc la : Nat) : State :=
  if s.pcState pc = 2 ∨ s.io.nvm.retired.get 0 pc = 1 then s
  else
    let (id, s) := s.fresh
    s.queueRead { id := id, loc := s.locAt pc la, side := false, pc := pc, la := la, cls := 4, who := 0x31, drain := true }

/-- SCRUB_READ: the next line of the next pseudo-channel joins its read queue with drain-wait (R291), unless POWER has
suspended it (R353). -/
def State.scrubRead (s : State) : State :=
  if s.get (pgFmc 0 11) FMC_SCRUB_CFG.EN = 0 ∨ s.get (pgTel 0) TEL_SUSPEND.SCRUB = 1 then s
  else
    let k := s.fmc.scrub
    let s := s.scrubReq (k / 8388608) (k % 8388608)
    if k + 1 = 128 * 8388608 then
      (({ s with fmc := { s.fmc with scrub := 0 } }).bump (pgFmc 0 11) FMC_SCRUB_PASS_CNT.COUNT).raise (pgFmc 0 11) 1
    else { s with fmc := { s.fmc with scrub := k + 1 } }

/-- Load a window value from its accumulator and empty it (R292, R367); `v` of the two words. -/
def Io.loadWindow (s : Io) (base : Nat) (f : Fld) (i : Nat := 0) : Io :=
  let a := base + f.off + f.stride * i
  let v := s.acc.get 0 a
  ({ s with acc := s.acc.set 0 a 0 }).put base f v i

/-- BW_WINDOW_END: the per-class byte values of a stack are loaded (R292). -/
def State.bwWindow (s : State) (st : Nat) : State :=
  let b := pgFmc st 11
  let s := (List.range 4).foldl (fun s c =>
    s.upIo fun io => (io.loadWindow b FMC_WIN_RDc.BYTES c).loadWindow b FMC_WIN_WRc.BYTES c) s
  s.raise b 0

end Sys2Proof.Machine
end

