-- ==== Sys2Proof/Machine/Flow.lean ====
section
/-!
DEFINITION. The flow table (R157 to R194): identity, records, flow cache, buckets, the insert unit's claims and relocations,
the stash, removals up to their final read.  The FLW fields marked T live in the page of pipeline 0 (R194).
-/
namespace Sys2Proof.Machine

/-! ### Identity (R157 to R159) -/

/-- KEY_CHECK of a hash block (R158). -/
def keyCheck (block : List Byte) : Nat := crc64 block

/-- Bucket choices (R159). -/
def choice1 (key : Nat) : Nat := bitsOf key 0 25
def choice2 (key : Nat) : Nat := if bitsOf key 25 25 = choice1 key then choice1 key ^^^ 1 else bitsOf key 25 25

/-- Flow-cache set (R159). -/
def cacheSet (key : Nat) : Nat := bitsOf key 46 18

/-- Page of the T fields. -/
def pgT : Nat := pgFlw 0

/-! ### Record fields (R163, R164) -/

/-- A field of a half: lowest bit and width. -/
structure HF where
  lo : Nat
  len : Nat
deriving DecidableEq, Repr

def HF.get (f : HF) (v : Line) : Nat := gb v f.lo f.len
def HF.set (f : HF) (v : Line) (x : Nat) : Line := sb v f.lo f.len x

def hKey : HF := ⟨0, 64⟩
def hHash : HF := ⟨64, 32⟩
def hAction : HF := ⟨96, 12⟩
def hClass : HF := ⟨108, 4⟩
def hLife : HF := ⟨112, 2⟩
def hOrigLo : HF := ⟨114, 1⟩
def hElephant : HF := ⟨115, 1⟩
def hLinked : HF := ⟨116, 1⟩
def hReply : HF := ⟨117, 1⟩
def hHostMade : HF := ⟨118, 1⟩
def hTcp : HF := ⟨120, 4⟩
def hSealPkts : HF := ⟨128, 40⟩
def hSealBytes : HF := ⟨168, 56⟩
def hAccount : HF := ⟨224, 22⟩
def hSealDirty : HF := ⟨246, 1⟩
def hSealEn : HF := ⟨247, 1⟩
def hMeter : HF := ⟨248, 3⟩
def hPkts : HF := ⟨256, 40⟩
def hBytes : HF := ⟨296, 48⟩
def hSeen : HF := ⟨344, 24⟩
def hData : HF := ⟨368, 144⟩

def cKey : HF := ⟨0, 320⟩
def cPartner : HF := ⟨320, 32⟩
def cRolledPkts : HF := ⟨352, 40⟩
def cRolledBytes : HF := ⟨392, 56⟩
def cStart : HF := ⟨448, 32⟩
def cTeardown : HF := ⟨480, 32⟩

/-- LIFE values (R163). -/
def lifeFree : Nat := 0
def lifeEmbryonic : Nat := 1
def lifeActive : Nat := 2
def lifeClosing : Nat := 3

/-- The 18 B of ACTION_DATA, and them from `n` bytes at offset `o`. -/
def dataBytes (h : Line) : List Byte := bytesLE 18 (hData.get h)
def setData (h : Line) (l : List Byte) : Line := hData.set h (ofBytesLE l)

/-- LAST_SEEN units of the time base (R166). -/
def seenNow (ns : Nat) : Nat := bitsOf ns 20 24

/-- The record is under removal: the insert unit tracks every removal it has started (R167, R177). -/
def State.closing (s : State) (r : Nat) : Bool :=
  s.flow.removals.any fun x => (x.r == r || x.partner == some r) && x.stage != .queued

/-! ### Flow cache (R168 to R172) -/

def State.cacheAt (s : State) (i : Nat) : CacheLine := s.flow.cache.get {} i

def State.setCache (s : State) (i : Nat) (l : CacheLine) : State :=
  { s with flow := { s.flow with cache := s.flow.cache.set {} i l } }

def lineValid (l : CacheLine) : Bool := tb l.st 26
def lineClean (l : CacheLine) : Bool := tb l.st 30
def lineRank (l : CacheLine) : Nat := gb l.st 28 2
def lineRec (l : CacheLine) : Nat := gb l.st 0 26

/-- The four ways of a set. -/
def ways (set : Nat) : List Nat := (List.range 4).map (4 * set + ·)

/-- The way that matches an identity with LIFE other than CLOSING (R168). -/
def State.probe (s : State) (hash key : Nat) : Option Nat :=
  (ways (cacheSet key)).find? fun i =>
    let l := s.cacheAt i
    lineValid l && hKey.get l.data == key && hHash.get l.data == hash && hLife.get l.data != lifeClosing

/-- The way that holds record `r` of identity key `key`. -/
def State.wayOf (s : State) (key r : Nat) : Option Nat :=
  (ways (cacheSet key)).find? fun i => lineValid (s.cacheAt i) && lineRec (s.cacheAt i) == r

/-- A way becomes the most recent of its set (R169). -/
def State.touch (s : State) (i : Nat) : State :=
  let r := lineRank (s.cacheAt i)
  (ways (i / 4)).foldl (fun s j =>
    let l := s.cacheAt j
    if j = i then s.setCache j { l with st := sb l.st 28 2 0 }
    else if lineValid l ∧ lineRank l < r then s.setCache j { l with st := sb l.st 28 2 (lineRank l + 1) } else s) s

/-- An update of a resident line clears CLEAN (R171). -/
def State.updateLine (s : State) (i : Nat) (f : Line → Line) : State :=
  let l := s.cacheAt i
  s.setCache i { st := sb l.st 30 1 0, data := f l.data }

/-- What the device intends a line to hold, at the copy a read of it sees first. -/
def State.lineView (s : State) (l : Loc) : Line :=
  let p := s.copyAt l ((s.copies l).headD false)
  s.view p.1 p.2

/-- The current copy of a hot half: the resident line, else DRAM (R185). -/
def State.curHot (s : State) (r : Nat) : Line :=
  let d := s.lineView (s.hotLoc r)
  match s.wayOf (hKey.get d) r with
  | some i => (s.cacheAt i).data
  | none => d

/-- The cold half of a record. -/
def State.curCold (s : State) (r : Nat) : Line := s.lineView (s.coldLoc r)

/-- A line is written back to both mirrors (R170, R171). -/
def State.writeBack (s : State) (i : Nat) : State :=
  let l := s.cacheAt i
  if lineClean l then s else s.writeNow (s.hotLoc (lineRec l)) l.data 2 0x20

/-- The victim of an install among the ways not held: a free way, the highest RANK without ELEPHANT, the highest RANK (R170). -/
def State.victim (s : State) (set held : Nat) : Option Nat :=
  let w := (ways set).filter fun i => !(held.testBit (i % 4))
  let best := fun (l : List Nat) => l.foldl (fun (a : Option Nat) i =>
    match a with
    | none => some i
    | some j => if lineRank (s.cacheAt j) < lineRank (s.cacheAt i) then some i else some j) none
  match w.find? fun i => !(lineValid (s.cacheAt i)) with
  | some i => some i
  | none =>
    match best (w.filter fun i => hElephant.get (s.cacheAt i).data = 0) with
    | some i => some i
    | none => best w

/-- A victim leaves its way, written back when dirty: EVICTING meanwhile, then the way is FILLING (R169, R170). -/
def State.clearWay (s : State) (p i : Nat) : State :=
  let l := s.cacheAt i
  let s := if lineValid l ∧ !(lineClean l) then
      ((s.setCache i { l with st := sb l.st 31 1 1 }).writeBack i).ctr (pgFlw p) FLW_WRITEBACK_CNT.COUNT else s
  s.setCache i { st := BitVec.ofNat 32 (2 ^ 27), data := 0 }

/-- Install a hot half in a way, its victim written back when dirty (R170); a new line is clean and most recent. -/
def State.install (s : State) (p i r : Nat) (data : Line) : State :=
  let s := s.clearWay p i
  let used := ((ways (i / 4)).filter fun j => j != i && lineValid (s.cacheAt j)).length
  let s := s.setCache i { st := BitVec.ofNat 32 (2 ^ 30 + min 3 used * 2 ^ 28 + 2 ^ 26 + r), data := data }
  s.touch i

/-- CACHE_CLEAN: every dirty resident line of a bank of the cache is written back and stays resident (R171). -/
def State.cleanBank (s : State) (bank : Nat) : State :=
  (s.flow.cache.keys.filter fun i => i / 4 % 64 = bank).foldl (fun s i =>
    let l := s.cacheAt i
    if lineValid l && !(lineClean l) then
      (s.writeBack i).setCache i { l with st := sb l.st 30 1 1 } else s) s

/-! ### Buckets and stash (R160 to R162) -/

/-- Header of slot `i` of a bucket. -/
def slotHdr (b : Line) (i : Nat) : BitVec 128 := BitVec.ofNat 128 (gb b (128 * i) 128)

def hdrKey (h : BitVec 128) : Nat := gb h 0 64
def hdrHash (h : BitVec 128) : Nat := gb h 64 32
def hdrRec (h : BitVec 128) : Nat := gb h 96 26
def hdrValid (h : BitVec 128) : Bool := tb h 122
def hdrWhich (h : BitVec 128) : Nat := gb h 123 1
def hdrGen (h : BitVec 128) : Nat := gb h 124 4

/-- A valid header. -/
def hdrMake (hash key r which gen : Nat) : BitVec 128 :=
  BitVec.ofNat 128 (key % 2 ^ 64 + hash % 2 ^ 32 * 2 ^ 64 + r % 2 ^ 26 * 2 ^ 96 + 2 ^ 122 + which % 2 * 2 ^ 123
    + gen % 16 * 2 ^ 124)

/-- Put a header into a slot, its MOVE_GEN one above the slot's (R161). -/
def putSlot (b : Line) (i hash key r which : Nat) : Line :=
  sb b (128 * i) 128 (hdrMake hash key r which (hdrGen (slotHdr b i) + 1)).toNat

/-- Clear a slot: only MOVE_GEN stays, one higher (R160, R161). -/
def clearSlot (b : Line) (i : Nat) : Line := sb b (128 * i) 128 ((hdrGen (slotHdr b i) + 1) % 16 * 2 ^ 124)

/-- The slot of a bucket that holds an identity. -/
def findSlot (b : Line) (hash key : Nat) : Option Nat :=
  (List.range 4).find? fun i => let h := slotHdr b i; hdrValid h && hdrKey h == key && hdrHash h == hash

/-- Lowest free slot, and the number in use. -/
def freeSlot (b : Line) : Option Nat := (List.range 4).find? fun i => !(hdrValid (slotHdr b i))
def usedSlots (b : Line) : Nat := ((List.range 4).filter fun i => hdrValid (slotHdr b i)).length

def State.bucketNow (s : State) (b : Nat) : Line := s.lineView (s.bucketLoc b)

/-- The stash entry of an identity (R181). -/
def State.stashFind (s : State) (hash key : Nat) : Option (Nat × BitVec 128) :=
  s.flow.stash.find? fun e => hdrValid e.2 && hdrKey e.2 == key && hdrHash e.2 == hash

/-- Occupied stash entries, their registers and STASH_HIGH (R181, R194). -/
def State.setStash (s : State) (i : Nat) (h : BitVec 128) : State :=
  let s := { s with flow := { s.flow with stash := s.flow.stash.set 0 i h } }
  let n : Nat := (s.flow.stash.filter fun e => hdrValid e.2).length
  let was : Nat := s.get pgT FLW_STASH_STAT.USED
  let s := (s.put pgT FLW_STASH_STAT.USED n).upIo fun io => io.maxTo pgT FLW_STASH_STAT.HIGH n
  if was < 768 ∧ 768 ≤ n then s.raise pgT 0 else s

/-- A claim in flight has chosen stash entry `e` for its header. -/
def Claim.holdsStash (c : Claim) (e : Nat) : Bool := c.stash && c.slot == e && c.stage != .queued && c.stage != .done

/-- The lowest stash entry that is free and that no claim in flight has chosen (R179). -/
def State.stashFree (s : State) : Option Nat :=
  (List.range 1024).find? fun i => !(hdrValid (s.flow.stash.get 0 i)) && !(s.flow.claims.any fun c => c.holdsStash i)

/-- The open fence of an identity (R180). -/
def State.fenceFind (s : State) (hash key : Nat) : Option Fence :=
  s.flow.fences.find? fun f => f.hash == hash && f.key == key

/-- Open fences and their registers. -/
def State.setFences (s : State) (l : List Fence) : State :=
  let s := { s with flow := { s.flow with fences := l } }
  (s.put pgT FLW_FENCE_STAT.OPEN l.length).upIo fun io => io.maxTo pgT FLW_FENCE_STAT.HIGH l.length

/-! ### Locks and indices (R177) -/

/-- No other holder has a bucket. -/
def State.lockFree (s : State) (b holder : Nat) : Bool := let h := s.flow.locks.get 0 b; h = 0 || h = holder

def State.lock (s : State) (b holder : Nat) : State := { s with flow := { s.flow with locks := s.flow.locks.set 0 b holder } }

def State.unlockAll (s : State) (holder : Nat) : State :=
  { s with flow := { s.flow with locks := s.flow.locks.filter fun e => e.2 != holder } }

/-- Records not FREE (R194). -/
def State.usedRecords (s : State) : Nat := s.flow.used.length

/-- PRESSURE by the number of free records (R186). -/
def State.pressure (s : State) : State × Bool :=
  let free := 67108864 - s.usedRecords
  if s.flow.pressed then
    (if 1024 * s.get pgT FLW_PRESSURE.HIGH_K < free then { s with flow := { s.flow with pressed := false } } else s, false)
  else if free < 1024 * s.get pgT FLW_PRESSURE.LOW_K then
    (({ s with flow := { s.flow with pressed := true } }).raise pgT 2, true)
  else (s, false)

/-- Occupancy has changed: PRESSURE and OCCUPANCY are posted to the global Pip (R186, R351). -/
def State.occupancy (s : State) : State :=
  let r := s.pressure
  let s := if r.2 then { r.1 with policy := { r.1.policy with evictFrom := r.1.get (pgTel 0) TEL_EVICT_CURSOR.INDEX } }.post 0x13 []
           else r.1
  let st := s.usedRecords * 16 / 67108864
  let e : Nat := s.get pgEpc EPC_EPOCH_NUM.NUM
  if st ≠ s.flow.occStep ∧ s.policy.occEpoch ≠ some e then
    { s with flow := { s.flow with occStep := st }, policy := { s.policy with occEpoch := some e } }.post 0x14 [st]
  else s

/-- A record index from the free cache: which one is open, so a free value names it (log entry 14). -/
def State.takeIndex (s : State) : Option (Nat × State) :=
  if 67108864 ≤ s.usedRecords then none
  else
    let (v, s) := s.draw
    let c := v % 67108864
    let r := if s.flow.used.get false c then (SMap.freshBelow s.flow.used 67108864).getD 0 else c
    some (r, { s with flow := { s.flow with used := s.flow.used.set false r true } }.occupancy)

/-- An index returns to the free ring. -/
def State.freeIndex (s : State) (r : Nat) : State :=
  { s with flow := { s.flow with used := s.flow.used.set false r false } }.occupancy

/-! ### Losses (R190, R277, R382) -/

/-- A claim whose record is lost before its routine has made it ACTIVE answers MEM_ERROR from then on (R256). -/
def Claim.lose (r : Nat) (c : Claim) : Claim :=
  if c.r = r ∧ c.stage = .done ∧ c.code = some 0 then { c with code := some 10 } else c

/-- A record is lost: counted, RECORD_LOST, reported, and handed to Quince. -/
def State.loseRecord (s : State) (r : Nat) : State :=
  if s.flow.lost.contains r || !(s.flow.used.get false r) then s
  else
    let s := { s with flow := { s.flow with lost := s.flow.lost ++ [r], claims := s.flow.claims.map (Claim.lose r) } }
    ((s.ctr pgT FLW_LOST_CNT.COUNT).raise pgT 3).report 2 11 pgT r 0

/-- The resident line of a record that is lost with its header goes back to DRAM, so that new packets of its flow miss (R190). -/
def State.dropLine (s : State) (key r : Nat) : State :=
  match s.wayOf key r with
  | some i => (s.writeBack i).setCache i {}
  | none => s

/-- A bucket that no copy can give: its headers are cleared and the records they named are lost. -/
def State.loseBucket (s : State) (b : Nat) : State :=
  let l := s.bucketLoc b
  let v := s.lineView l
  let held := (List.range 4).filter fun i => hdrValid (slotHdr v i)
  let s := held.foldl (fun s i => (s.dropLine (hdrKey (slotHdr v i)) (hdrRec (slotHdr v i))).loseRecord (hdrRec (slotHdr v i))) s
  s.writeNow l (held.foldl clearSlot v) 2 0x20

/-- Take record `r` of an identity out of a bucket: read, and written without the header where it holds it (R269). -/
def State.dropFrom (s : State) (hash key r cls who b : Nat) : State :=
  let l := s.bucketLoc b
  match s.readNow l cls who false [] with
  | (none, s) => s.loseBucket b
  | (some v, s) =>
    match findSlot v hash key with
    | some i => if hdrRec (slotHdr v i) = r then s.writeNow l (clearSlot v i) cls who else s
    | none => s

/-- Clear a record's header where it stands, in its buckets or the stash, in both mirrors (R182, R187). -/
def State.clearHeader (s : State) (hash key r cls who : Nat) : State :=
  let s := (s.dropFrom hash key r cls who (choice1 key)).dropFrom hash key r cls who (choice2 key)
  match s.stashFind hash key with
  | some (e, h) => if hdrRec h = r then s.setStash e (BitVec.ofNat 128 ((hdrGen h + 1) % 16 * 2 ^ 124)) else s
  | none => s

/-- A hot half that no copy can give is lost with its header, unless its line is resident. -/
def State.loseHot (s : State) (hash key r : Nat) : State :=
  if (s.wayOf key r).isSome then s else (s.clearHeader hash key r 2 0x20).loseRecord r

/-- Change the current copy of a record (R172): the resident line, else a read-modify-write of class `cls` (R269). -/
def State.updateHot (s : State) (r cls who : Nat) (f : Line → Line) : State :=
  let d := s.lineView (s.hotLoc r)
  match s.wayOf (hKey.get d) r with
  | some i => s.updateLine i f
  | none =>
    match s.readNow (s.hotLoc r) cls who false [] with
    | (some v, s) => s.writeNow (s.hotLoc r) (f v) cls who
    | (none, s) => s.loseHot (hHash.get d) (hKey.get d) r

/-- A line that the retirement of its pseudo-channel has lost: a bucket's or a hot half's records are lost with it (R190, R532). -/
def State.loseLine (s : State) (pc la : Nat) : State :=
  let q := if la < 0x200000 then la / 2 else la - 0x200000
  let n := q * 64 + ((pc % 64) ^^^ (q / 64 % 64))
  if q % 2 ≠ pc / 64 then s
  else if 0x200000 ≤ la then s.loseBucket n
  else if la % 2 = 0 then let d := s.array pc la; s.loseHot (hHash.get d) (hKey.get d) n
  else s

/-- A write of FMC_RETIRE_CTL: a row, or a pseudo-channel with the lines that are lost with it (R286, R287). -/
def State.retireCtl (s : State) (st v : Nat) : State :=
  let pc := 32 * st + bitsOf v 25 5
  if !(v.testBit 31) then s
  else if v.testBit 30 then (s.pcRetire pc).2.foldl (fun s la => s.loseLine pc la) (s.pcRetire pc).1
  else s.rowRetire pc (bitsOf v 15 4) (bitsOf v 0 15)

/-! ### Claims (R177 to R180) -/

def State.setClaims (s : State) (l : List Claim) : State := { s with flow := { s.flow with claims := l } }

def State.claim (s : State) (id : Nat) : Option Claim := s.flow.claims.find? fun c => c.id == id

/-- Store a claim's new form. -/
def State.putClaim (s : State) (c : Claim) : State := s.setClaims (s.flow.claims.map fun x => if x.id == c.id then c else x)

/-- A fresh number for a claim or removal. -/
def State.flowId (s : State) : Nat × State :=
  (s.flow.nextId, { s with flow := { s.flow with nextId := s.flow.nextId + 1 } })

/-- Submit a claim to its source's queue (R177); its number. -/
def State.submitClaim (s : State) (src hash key : Nat) (block : List Byte) (action cls : Nat) (origLow : Bool) (owner : Nat) :
    Nat × State :=
  let (id, s) := s.flowId
  (id, s.setClaims (s.flow.claims ++ [{ id := id, src := src, hash := hash, key := key, block := block, action := action,
                                        cls := cls, origLow := origLow, owner := owner }]))

/-- Claims being worked on. -/
def Claim.running (c : Claim) : Bool :=
  match c.stage with
  | .queued => false
  | .done => false
  | _ => true

/-- An earlier claim of the same identity is unresolved (R178). -/
def State.losing (s : State) (c : Claim) : Bool :=
  s.flow.claims.any fun x => x.id < c.id && x.stage != .done && x.hash == c.hash && x.key == c.key

/-- A removal or a withdrawal of the record whose header is not cleared yet (R177 step 2, R182). -/
def State.removing (s : State) (r : Nat) : Bool :=
  (s.flow.removals.any fun x => (x.r == r || x.partner == some r) && x.stage == .queued) || s.flow.undo.any fun c => c.r == r

/-- The page that counts a claim's outcome. -/
def Claim.page (c : Claim) : Nat := pgFlw (if c.src < 8 then c.src else 0)

/-- Count a claim's answer (R194, R362). -/
def State.countClaim (s : State) (c : Claim) (code : Nat) : State :=
  let b := c.page
  match code with
  | 0 => s.upIo fun io =>
      if c.src < 8 then io.event c.src b FLW_CLAIM_OK_CNT.COUNT { code := 0x09, unit := c.r / 4096, master := 0x20 + c.src }
      else io.ctr b FLW_CLAIM_OK_CNT.COUNT
  | 13 => s.ctr b FLW_CLAIM_EXISTS_CNT.COUNT
  | 5 => (s.ctr b FLW_CLAIM_FULL_CNT.COUNT).raise b 1
  | _ => s.ctr pgT FLW_CLAIM_ERR_CNT.COUNT

/-- A claim answers; the claims that lost to it answer with it (R178). -/
def State.answer (s : State) (c : Claim) (code : Nat) : State :=
  let s := (s.putClaim { c with stage := .done, code := some code }).countClaim c code
  let s := s.unlockAll c.id
  let loserCode := if code = 0 ∨ code = 13 then 13 else code
  (s.flow.claims.filter fun x => x.id != c.id && x.stage == .queued && x.hash == c.hash && x.key == c.key).foldl
    (fun s x => (s.putClaim { x with stage := .done, code := some loserCode, r := c.r }).countClaim x loserCode) s

/-- A running claim starts: both buckets locked and read (R177 step 1), in the class of a packet miss's bucket reads (DESIGN CHOICE:
R25 names no class for a claim's reads; log entry 13). -/
def State.startClaim (s : State) (c : Claim) : State :=
  let b1 := choice1 c.key
  let b2 := choice2 c.key
  if s.lockFree b1 c.id && s.lockFree b2 c.id then
    let s := (s.lock b1 c.id).lock b2 c.id
    let (r1, s) := s.issueRead (s.bucketLoc b1) 1 (0x20 + c.src) 0 false
    let (r2, s) := s.issueRead (s.bucketLoc b2) 1 (0x20 + c.src) 0 false
    s.putClaim { c with stage := .reading r1 r2 }
  else s

/-- The oldest claim a source may start: not held back by an earlier one of its identity. -/
def State.nextOf (s : State) (src : Nat) : Option Claim :=
  s.flow.claims.find? fun c => c.src == src && c.stage == .queued && !(s.losing c)

/-- CLAIM_START: a claim held by a removal restarts once its header is cleared; else the next source in round robin (R177). -/
def State.claimStart (s : State) : State :=
  match s.flow.claims.find? fun c => c.stage == .held && !(s.removing c.r) with
  | some c => s.startClaim c
  | none =>
    if 64 ≤ (s.flow.claims.filter Claim.running).length then s
    else
      match (List.range 9).findSome? fun i => s.nextOf ((s.flow.rr + 1 + i) % 9) with
      | none => s
      | some c => ({ s with flow := { s.flow with rr := c.src } }).startClaim c

/-- The record halves of a claim (R165, R177 step 5): EMBRYONIC, sealed fields 0, START_SEC now. -/
def claimHot (c : Claim) : Line :=
  BitVec.ofNat 512 (c.key % 2 ^ 64 + c.hash % 2 ^ 32 * 2 ^ 64 + c.action % 2 ^ 12 * 2 ^ 96 + c.cls % 16 * 2 ^ 108 + 2 ^ 112
    + b2n c.origLow * 2 ^ 114)

def claimCold (c : Claim) (sec : Nat) : Line :=
  BitVec.ofNat 512 (ofBytesLE (c.block.take 40) + sec % 2 ^ 32 * 2 ^ 448)

/-- Issue the two halves of a claim, cold first (R177 step 5). -/
def State.writeHalves (s : State) (c : Claim) : State :=
  let s := s.issueWrite (s.coldLoc c.r) (claimCold c s.io.sec) 2 (0x20 + c.src) c.id
  let s := s.issueWrite (s.hotLoc c.r) (claimHot c) 2 (0x20 + c.src) c.id
  s.putClaim { c with stage := .halves }

/-- The header goes to the stash, or the claim is FULL (R179). -/
def State.toStash (s : State) (c : Claim) : State :=
  if s.get pgT FLW_INSERT_CFG.STASH_EN = 1 then
    match s.stashFree with
    | some e => s.writeHalves { c with stash := true, slot := e }
    | none => (s.freeIndex c.r).answer c 5
  else (s.freeIndex c.r).answer c 5

/-- The slot for a new header when one is free: fewer valid slots, ties to the lower bucket (R179). -/
def chooseSlot (c1 c2 : Nat) (b1 b2 : Line) : Option (Nat × Nat) :=
  let n1 := usedSlots b1
  let n2 := usedSlots b2
  let first := n1 < n2 ∨ (n1 = n2 ∧ c1 < c2)
  let (c, b) := if first then (c1, b1) else (c2, b2)
  (freeSlot b).map fun i => (c, i)

/-- The record of a claim's identity, with its buckets read: in a slot, in the stash, or behind a fence and not under removal (R177
step 2, R180). -/
def State.claimFound (s : State) (c : Claim) (b1 b2 : Line) : Option Nat :=
  match findSlot b1 c.hash c.key, findSlot b2 c.hash c.key with
  | some i, _ => some (hdrRec (slotHdr b1 i))
  | none, some i => some (hdrRec (slotHdr b2 i))
  | none, none =>
    match s.stashFind c.hash c.key with
    | some e => some (hdrRec e.2)
    | none => ((s.fenceFind c.hash c.key).filter fun f => !(s.closing f.r)).map (·.r)

/-- A claim with its buckets read: search, index, slot (R177 steps 2 to 5, R179). -/
def State.resolveClaim (s : State) (c : Claim) (b1 b2 : Line) : State :=
  match s.claimFound c b1 b2 with
  | some r =>
    if s.removing r then (s.unlockAll c.id).putClaim { c with stage := .held, r := r }
    else s.answer { c with r := r } 13
  | none =>
    match s.takeIndex with
    | none => s.answer c 5
    | some (r, s) =>
      let c := { c with r := r }
      match chooseSlot (choice1 c.key) (choice2 c.key) b1 b2 with
      | some (b, i) => s.writeHalves { c with bkt := b, slot := i }
      | none =>
        if s.get pgT FLW_INSERT_CFG.RELOC_EN = 1 then
          s.putClaim { c with stage := .needMove,
                              tries := ((List.range 4).map fun i => (4 * choice1 c.key + i, hdrGen (slotHdr b1 i))) ++
                                       (List.range 4).map fun i => (4 * choice2 c.key + i, hdrGen (slotHdr b2 i)) }
        else s.toStash c

/-- A claim both of whose bucket reads have returned, with their numbers. -/
def State.claimBack (s : State) (c : Claim) : Option (Claim × Nat × Nat) :=
  match c.stage with
  | .reading a b => if (s.fmc.resp.get none a).isSome && (s.fmc.resp.get none b).isSome then some (c, a, b) else none
  | _ => none

/-- CLAIM_READ_RETURN: the oldest claim both of whose reads have returned goes on; an unreadable bucket gives MEM_ERROR. -/
def State.claimRead (s : State) : State :=
  match s.flow.claims.findSome? s.claimBack with
  | none => s
  | some (c, a, b) =>
    match s.takeResp a with
    | none => s
    | some (v1, s) =>
      match s.takeResp b with
      | none => s
      | some (v2, s) =>
        match v1, v2 with
        | some b1, some b2 => s.resolveClaim c b1 b2
        | none, some _ => (s.loseBucket (choice1 c.key)).answer c 10
        | some _, none => (s.loseBucket (choice2 c.key)).answer c 10
        | none, none => ((s.loseBucket (choice1 c.key)).loseBucket (choice2 c.key)).answer c 10

/-- Which choice of the key a bucket is (R160). -/
def whichOf (key b : Nat) : Nat := if choice1 key = b then 0 else 1

/-- Clear the header of record `r` of an identity in a slot where it stands. -/
def State.clearAt (s : State) (b slot key r : Nat) : State :=
  let l := s.bucketLoc b
  let h := slotHdr (s.lineView l) slot
  if hdrValid h && hdrKey h == key && hdrRec h == r then s.writeNow l (clearSlot (s.lineView l) slot) 2 0x20 else s

/-- A failed write ends a claim with MEM_ERROR: its header, if any, is cleared and its index returned (R177). -/
def State.claimFails (s : State) (c : Claim) : State :=
  let s := if c.stage == .header then s.clearAt c.bkt c.slot c.key c.r else s
  (s.freeIndex c.r).answer c 10

/-- Issue the write of the bucket that holds a claim's new header, or place it in the stash (R177 step 6, R179). -/
def State.writeHeader (s : State) (c : Claim) : State :=
  if c.stash then
    let s := (s.setStash c.slot (hdrMake c.hash c.key c.r 0 (hdrGen (s.flow.stash.get 0 c.slot) + 1))).ctr pgT
      FLW_STASH_IN_CNT.COUNT
    s.answer c 0
  else
    let l := s.bucketLoc c.bkt
    let v := putSlot (s.lineView l) c.slot c.hash c.key c.r (whichOf c.key c.bkt)
    (s.issueWrite l v 2 (0x20 + c.src) c.id).putClaim { c with stage := .header }

/-- CLAIM_HALVES_ACCEPTED: the oldest claim whose halves the mirrors have accepted writes its header (R177 step 6). -/
def State.claimHalves (s : State) : State :=
  match s.flow.claims.find? fun c => c.stage == .halves && s.accepted c.id with
  | none => s
  | some c => if s.fmc.failed.get false c.id then s.claimFails c else s.writeHeader c

/-- CLAIM_HEADER_ACCEPTED: the claim releases its locks and answers OK (R177 step 7). -/
def State.claimHeader (s : State) : State :=
  match s.flow.claims.find? fun c => c.stage == .header && s.accepted c.id with
  | none => s
  | some c => if s.fmc.failed.get false c.id then s.claimFails c else s.answer c 0

/-- The other bucket of a header. -/
def otherBucket (h : BitVec 128) (b : Nat) : Nat := if choice1 (hdrKey h) = b then choice2 (hdrKey h) else choice1 (hdrKey h)

/-- The header in a place, as bucket · 4 + slot. -/
def State.hdrAt (s : State) (t : Nat) : BitVec 128 := slotHdr (s.bucketNow (t / 4)) (t % 4)

/-- RELOC_ASSIST's search: the first resident whose other bucket, which it reads, has a free slot (R179, R255): its place, and that
bucket with its content. -/
def State.searchMove (s : State) (c : Claim) : List Nat → Option (Nat × Nat × Line) × State
  | [] => (none, s)
  | t :: ts =>
    let h := s.hdrAt t
    let o := otherBucket h (t / 4)
    if !(hdrValid h) || !(s.lockFree o c.id) then s.searchMove c ts
    else
      match s.readNow (s.bucketLoc o) 1 (0x20 + c.src) false [] with
      | (none, s) => (s.loseBucket o).searchMove c ts
      | (some v, s) => if (freeSlot v).isSome then (some (t, o, v), s) else s.searchMove c ts

/-- The claim moves the resident in place `t` to bucket `o`, which holds `v` (R180): the fence opens and the new bucket's write is
issued. -/
def State.relocate (s : State) (c : Claim) (t o : Nat) (v : Line) : State :=
  let h := s.hdrAt t
  let i := (freeSlot v).getD 0
  let f : Fence := { hash := hdrHash h, key := hdrKey h, r := hdrRec h, oldB := t / 4, oldSlot := t % 4, newB := o,
                     newSlot := i, claim := c.id }
  let s := (s.lock o c.id).setFences (s.flow.fences ++ [f])
  (s.issueWrite (s.bucketLoc o) (putSlot v i (hdrHash h) (hdrKey h) (hdrRec h) (whichOf (hdrKey h) o)) 2 (0x20 + c.src)
    c.id).putClaim { c with stage := .moving }

/-- A slot that the assist named has been written since: the request fails and the claim resolves its identity again (R161). -/
def State.claimAgain (s : State) (c : Claim) : State :=
  ((s.freeIndex c.r).unlockAll c.id).putClaim { c with stage := .queued, r := 0, tries := [] }

/-- A claim that needs a move gets RELOC_ASSIST's answer, or none (R179, R254); it waits while 64 fences are open (R180). -/
def State.relocAnswer (s : State) (id : Nat) (found : Bool) : State :=
  match (s.claim id).filter fun c => c.stage == .needMove with
  | none => s
  | some c =>
    if c.tries.any fun t => hdrGen (s.hdrAt t.1) != t.2 then s.claimAgain c
    else if !found then s.toStash c
    else if 64 ≤ s.flow.fences.length then s
    else
      match s.searchMove c (c.tries.map (·.1)) with
      | (some (t, o, v), s) => s.relocate c t o v
      | (none, s) => s.toStash c

/-- Neither mirror has taken the write of a relocation's new bucket: the resident stays where it is, the fence closes and the claim
answers MEM_ERROR (log entry 74). -/
def State.moveFails (s : State) (f : Fence) : State :=
  let s := (s.clearAt f.newB f.newSlot f.key f.r).setFences (s.flow.fences.erase f)
  match s.claim f.claim with
  | none => s
  | some c => s.claimFails c

/-- RELOC_NEW_ACCEPTED: the new bucket's write is accepted, the old slot's clear is issued, and the claim takes the vacated
slot (R180). -/
def State.relocAccepted (s : State) : State :=
  match s.flow.fences.find? fun f => f.stage == 0 && s.accepted f.claim with
  | none => s
  | some f =>
    if s.fmc.failed.get false f.claim then s.moveFails f
    else
      let l := s.bucketLoc f.oldB
      let s := s.issueWrite l (clearSlot (s.lineView l) f.oldSlot) 2 0x20 f.claim
      let s := s.setFences (s.flow.fences.map fun x => if x == f then { f with stage := 1 } else x)
      let s := s.ctr pgT FLW_RELOC_CNT.COUNT
      match s.claim f.claim with
      | none => s
      | some c => s.writeHalves { c with bkt := f.oldB, slot := f.oldSlot }

/-- FENCE_CLOSE: 486 core cycles after the clear is accepted, the oldest such fence closes (R180). -/
def State.fenceClose (s : State) : State :=
  match s.flow.fences.find? fun f => f.stage == 1 && s.accepted f.claim with
  | none => s
  | some f => s.setFences (s.flow.fences.erase f)

/-- Both buckets of a key are free to lock. -/
def State.keyFree (s : State) (key : Nat) : Bool := s.lockFree (choice1 key) 0 && s.lockFree (choice2 key) 0

/-- A withdrawn claim's header is cleared, LIFE FREE written and the index returned (R182). -/
def State.undoClaim (s : State) (c : Claim) : State :=
  let s := s.clearHeader c.hash c.key c.r 2 (0x20 + c.src)
  let d := s.lineView (s.hotLoc c.r)
  (s.writeNow (s.hotLoc c.r) (hLife.set d lifeFree) 2 (0x20 + c.src)).freeIndex c.r

/-- A claim that answered OK is withdrawn: once no one holds its buckets (R177, R182). -/
def State.withdraw (s : State) (c : Claim) : State :=
  if s.keyFree c.key then s.undoClaim c else { s with flow := { s.flow with undo := s.flow.undo ++ [c] } }

/-- Withdrawals that waited for their buckets. -/
def State.runUndo (s : State) : State :=
  s.flow.undo.foldl (fun s c =>
    if s.keyFree c.key then ({ s with flow := { s.flow with undo := s.flow.undo.erase c } }).undoClaim c else s) s

/-- The tag of the write that places stash entry `e`, and the holder of its locks. -/
def drainTag (e : Nat) : Nat := 2 ^ 64 + e

/-- Place stash entry `e` in slot `i` of bucket `b`, which holds `v`, under the bucket locks (R181). -/
def State.drainTo (s : State) (e b i : Nat) (v : Line) : State :=
  let h := s.flow.stash.get 0 e
  let v := putSlot v i (hdrHash h) (hdrKey h) (hdrRec h) (whichOf (hdrKey h) b)
  let s := s.issueWrite (s.bucketLoc b) v 2 0x20 (drainTag e)
  let s := (s.lock (choice1 (hdrKey h)) (drainTag e)).lock (choice2 (hdrKey h)) (drainTag e)
  { s with flow := { s.flow with drains := s.flow.drains ++ [⟨e, b, i, hdrGen (slotHdr v i)⟩] } }

/-- STASH_DRAIN: a stash entry is placed in one of its buckets where a slot is free and no one holds them (R181). -/
def State.stashDrain (s : State) (e : Nat) : State :=
  let h := s.flow.stash.get 0 e
  let b1 := choice1 (hdrKey h)
  let b2 := choice2 (hdrKey h)
  if !(hdrValid h) || s.flow.drains.any (fun d => d.entry == e) || !(s.keyFree (hdrKey h)) then s
  else
    let x := s.readNow (s.bucketLoc b1) 2 0x20 false []
    let y := x.2.readNow (s.bucketLoc b2) 2 0x20 false []
    match x.1, y.1 with
    | some v1, some v2 =>
      match chooseSlot b1 b2 v1 v2 with
      | none => y.2
      | some (b, i) => y.2.drainTo e b i (if b = b1 then v1 else v2)
    | none, some _ => y.2.loseBucket b1
    | some _, none => y.2.loseBucket b2
    | none, none => (y.2.loseBucket b1).loseBucket b2

/-- STASH_PLACE_ACCEPTED: once both mirrors have accepted a drained header, its stash entry is cleared; the entry stays where neither
took it, or where the slot has been written since (R161, R181). -/
def State.stashPlaced (s : State) : State :=
  match s.flow.drains.find? fun d => s.accepted (drainTag d.entry) with
  | none => s
  | some d =>
    let h := s.flow.stash.get 0 d.entry
    let failed := s.fmc.failed.get false (drainTag d.entry)
    let s := { s with flow := { s.flow with drains := s.flow.drains.erase d }
                      fmc := { s.fmc with failed := s.fmc.failed.set false (drainTag d.entry) false } }
    let s := s.unlockAll (drainTag d.entry)
    if failed then s.clearAt d.bkt d.slot (hdrKey h) (hdrRec h)
    else if hdrGen (s.hdrAt (4 * d.bkt + d.slot)) ≠ d.gen then s
    else s.setStash d.entry (BitVec.ofNat 128 ((hdrGen h + 1) % 16 * 2 ^ 124))

/-! ### Removals (R184 to R187) -/

/-- Idle time of a record (R184). -/
def idleTime (now seen : Nat) : Nat := let d := subMod 24 now seen; if 2 ^ 23 ≤ d then 0 else d

/-- The record is idle (R184). -/
def State.idle (s : State) (h : Line) : Bool :=
  let eff := s.get pgT FLW_AGE_EFFn.EFF (hClass.get h)
  eff ≠ 0 && eff < idleTime (seenNow s.io.time.ns) (hSeen.get h)

/-- Submit a record for removal: one that is FREE, EMBRYONIC or already being removed does nothing (R187). -/
def State.submitRemoval (s : State) (r cause pipe : Nat) : State :=
  let h := s.curHot r
  if hLife.get h ≠ lifeActive ∨ s.flow.removals.any (fun x => x.r == r || x.partner == some r) then s
  else
    let c := s.curCold r
    let part := if hLinked.get h = 1 ∧ (cPartner.get c).testBit 31 then some (bitsOf (cPartner.get c) 0 26) else none
    let (id, s) := s.flowId
    { s with flow := { s.flow with removals := s.flow.removals ++
        [{ id := id, r := r, cause := cause, partner := part, pipe := pipe }] } }

/-- Mark a record's line CLOSING and clear its header (R187 step 1). -/
def State.closeRecord (s : State) (r : Nat) : State :=
  let h := s.curHot r
  let s := match s.wayOf (hKey.get h) r with
    | some i => s.updateLine i fun d => hLife.set d lifeClosing
    | none => s
  s.clearHeader (hHash.get h) (hKey.get h) r 2 0x20

/-- The counter of a removal's cause. -/
def State.countRemoval (s : State) (cause : Nat) : State :=
  match cause with
  | 0 => s.ctr pgT FLW_AGED_CNT.COUNT
  | 1 => s.ctr pgT FLW_EVICT_CNT.COUNT
  | _ => s.ctr pgT FLW_TEARDOWN_CNT.COUNT

/-- The buckets of a record are free to lock. -/
def State.bucketsFree (s : State) (r : Nat) : Bool :=
  s.keyFree (hKey.get (s.curHot r))

/-- REMOVAL_START: the oldest queued removal whose buckets are free (R187 step 1). -/
def State.removalStart (s : State) : State :=
  match s.flow.removals.find? fun (x : Removal) => x.stage == .queued && s.bucketsFree x.r && (x.partner.map s.bucketsFree).getD true with
  | none => s
  | some x =>
    let s := s.closeRecord x.r
    let s := match x.partner with
      | some q => s.closeRecord q
      | none => s
    ({ s with flow := { s.flow with removals := s.flow.removals.map fun (y : Removal) =>
        if y.id == x.id then { x with stage := .cleared } else y } }).countRemoval x.cause

/-- REMOVAL_WAIT_END: 4 µs after the clear was accepted, the final hot half is taken (R187 steps 2, 3). -/
def State.removalWait (s : State) : State :=
  match s.flow.removals.find? fun (x : Removal) => x.stage == .cleared with
  | none => s
  | some x =>
    { s with flow := { s.flow with removals := s.flow.removals.map fun (y : Removal) =>
        if y.id == x.id then { x with stage := .reading } else y } }

/-- The final hot half: the line, then invalidated without write-back, or the DRAM copy with drain-wait (R187 step 3). -/
def State.finalHot (s : State) (r : Nat) (es : List ReadEnd) : Option Line × State :=
  match s.wayOf (hKey.get (s.lineView (s.hotLoc r))) r with
  | some i => (some (s.cacheAt i).data, s.setCache i {})
  | none => s.readNow (s.hotLoc r) 2 0x20 true es

/-- LIFE FREE in both mirrors, the index returned (R187 step 5). -/
def State.freeRecord (s : State) (r : Nat) (h : Line) : State :=
  (s.writeNow (s.hotLoc r) (hLife.set h lifeFree) 2 0x20).freeIndex r

/-- AGING_WALK_VISIT: the walker reads the next record's hot half and submits an idle one after a fresh look (R185). -/
def State.agingVisit (s : State) (es : List ReadEnd) : State :=
  s.bgRun 0x20 1 fun s =>
    let r := s.flow.walk
    let s := { s with flow := { s.flow with walk := (r + 1) % 67108864 } }
    if !(s.flow.used.get false r) then (s.readNow (s.hotLoc r) 4 0x20 false es).2
    else
      match s.readNow (s.hotLoc r) 4 0x20 false es with
      | (none, s) => let h := s.lineView (s.hotLoc r); s.loseHot (hHash.get h) (hKey.get h) r
      | (some h, s) =>
        if hLife.get h = lifeActive ∧ s.idle h ∧ s.idle (s.curHot r) then s.submitRemoval r 0 0 else s

/-! ### FLW registers (R186, R194) -/

/-- The floor of EFF for a class (R186). -/
def State.effFloor (s : State) (n : Nat) : Nat :=
  let pct := min 100 (s.get pgT FLW_AGE_CLASSn.FLOOR_PCT n)
  ceilDiv (s.get pgT FLW_AGE_CLASSn.TIMEOUT n * pct) 100

/-- A write of FLW_AGE_CLASSn (R194). -/
def State.ageClassWrite (s : State) (n v : Nat) : State :=
  let old := s.get pgT FLW_AGE_CLASSn.TIMEOUT n
  let s := (s.put pgT FLW_AGE_CLASSn.FLOOR_PCT (bitsOf v 24 8) n).put pgT FLW_AGE_CLASSn.TIMEOUT (bitsOf v 0 23) n
  if bitsOf v 0 23 ≠ old then s.put pgT FLW_AGE_EFFn.EFF (bitsOf v 0 23) n
  else s.put pgT FLW_AGE_EFFn.EFF (max (s.get pgT FLW_AGE_EFFn.EFF n) (s.effFloor n)) n

/-- A write of FLW_AGE_EFFn: master 0x28 only, clamped to the floor and TIMEOUT (R186, R194). -/
def State.effWrite (s : State) (n m v page : Nat) : State :=
  if m = 0x28 then
    s.put pgT FLW_AGE_EFFn.EFF (min (s.get pgT FLW_AGE_CLASSn.TIMEOUT n) (max (s.effFloor n) (v % 2 ^ 23))) n
  else s.err page 1 m (0x084 + 8 * n)

/-- FLW_CLEAN_CFG.LOG2_NS is clamped to 22 to 30 (R194). -/
def cleanCfg (v : Nat) : Nat := max 22 (min 30 (v % 32))

end Sys2Proof.Machine
end

