-- ==== Sys2Proof/Machine/Action.lean ====
section
/-!
DEFINITION. The action unit's tables (R195 to R198, R211 to R219, R223, R224, R228): profiles, templates, balancing,
translation and timeout state, their selection rules and their table commands.
-/
namespace Sys2Proof.Machine

/-! ### Profiles and templates (R196, R198) -/

/-- Key of profile `i` of pipeline `p`. -/
def actKey (p i : Nat) : Nat := 4096 * p + i

def State.prof (s : State) (p i : Nat) : Prof := s.fwd.act.get 0 (actKey p i)
def State.profOn (s : State) (p i b : Nat) : Bool := s.fwd.actValid.get false (2 * actKey p i + b)

def State.setProf (s : State) (p i : Nat) (v : Prof) : State :=
  { s with fwd := { s.fwd with act := s.fwd.act.set 0 (actKey p i) v } }

def State.setProfOn (s : State) (p i b : Nat) (v : Bool) : State :=
  { s with fwd := { s.fwd with actValid := s.fwd.actValid.set false (2 * actKey p i + b) v } }

/-- Template `t` of pipeline `p`. -/
def State.tmpl (s : State) (p t : Nat) : List Byte := bytesLE 128 (s.fwd.tmpl.get 0 (64 * p + t)).toNat

/-- Profiles of a pipeline that are valid in either bank, rising. -/
def State.profsOn (s : State) (p : Nat) : List Nat :=
  (s.fwd.actValid.filterMap fun e => if e.2 ∧ e.1 / 2 / 4096 = p then some (e.1 / 2 % 4096) else none).eraseDups

/-- The lowest profile valid in either bank that names a template. -/
def State.tmplUser (s : State) (p t : Nat) : Option Nat :=
  (s.profsOn p).find? fun i => prMode (s.prof p i) = 1 && prTemplate (s.prof p i) == t

/-- ACT_STAT as it reads (R232). -/
def State.actStat (s : State) (p : Nat) : Nat :=
  let used := s.profsOn p
  let named := ((List.range 64).filter fun t => (s.tmplUser p t).isSome).length
  (64 - named) * 2 ^ 16 + (4096 - used.length)

/-- Profile READ, or template READ at INDEX 0x1_0000 and above. -/
def State.actRead (s : State) (c : Cmd) (p : Nat) : State × Res :=
  let i := c.idx
  if i < 4096 then
    let f := b2n (s.profOn p i (s.pendBank (pgAct p))) + 4 * b2n (s.profOn p i (s.io.active (pgAct p)))
    if f = 0 then (s, { code := ccNotFound }) else (s, { data := bytesLE 16 (s.prof p i).toNat ++ [BitVec.ofNat 8 f] })
  else if i < 0x10000 ∨ 0x10040 ≤ i then (s, { code := ccBadIndex })
  else if !c.indirect ∨ c.len ≠ 128 then (s, { code := ccBadCommand })
  else (s, { data := s.tmpl p (i - 0x10000), result := some 128 })

/-- The mark of a lost template among `Act.gone` (R475). -/
def tmplKey (p t : Nat) : Nat := 16777216 + 64 * p + t

/-- Set a profile's valid bit in the banks a command writes. -/
def State.profSetValid (s : State) (p i : Nat) (v : Bool) : State :=
  (s.writeBanks (pgAct p)).foldl (fun s b => s.setProfOn p i b v) s

/-- Template WRITE: refused TYPE or LENGTH, GTP-U without its feature, or a template in use. -/
def State.tmplWrite (s : State) (c : Cmd) (p t : Nat) : State × Res :=
  if !c.indirect ∨ c.len ≠ 128 then (s, { code := ccBadCommand })
  else
    let d := c.buffer 128
    let typ := beAt d 1 1
    let len := beAt d 0 1
    let lenOk := if typ = 5 then 4 ≤ len && len ≤ 16 && len % 4 = 0 else 14 ≤ len && len ≤ 120
    if typ = 0 ∨ 6 < typ ∨ !lenOk then (s, { code := ccBadCommand })
    else if typ = 4 ∧ !(s.feature 4) then (s, { code := ccNoFeature })
    else
      match s.tmplUser p t with
      | some i => (s, { code := ccBadIndex, result := some i })
      | none =>
        ({ s with fwd := { s.fwd with tmpl := s.fwd.tmpl.set 0 (64 * p + t) (lineOfBytes 1024 d) }
                  act := { s.act with gone := s.act.gone.set false (tmplKey p t) false } }, {})

/-- Profile WRITE (R198, with R137 or R138). -/
def State.profStore (s : State) (c : Cmd) (p i : Nat) : State × Res :=
  let im : Prof := BitVec.ofNat 128 (c.le 16 16)
  let on := (c.le 32 1).testBit 0
  if profRefused im then (s, { code := ccBadCommand })
  else if prKind im = 3 ∧ !(s.feature 3) then (s, { code := ccNoFeature })
  else if s.feature 1 ∧ s.profOn p i (s.io.active (pgAct p)) then
    if im = s.prof p i then (s.profSetValid p i on, {}) else (s, { code := ccBadIndex, result := some 1 })
  else ((s.setProf p i im).profSetValid p i on, {})

/-- TABLE 0x03 WRITE: a profile, or a template at INDEX 0x1_0000 + t. -/
def State.actWrite (s : State) (c : Cmd) (p : Nat) : State × Res :=
  let i := c.idx
  if i < 4096 then s.profStore c p i
  else if i < 0x10000 ∨ 0x10040 ≤ i then (s, { code := ccBadIndex })
  else s.tmplWrite c p (i - 0x10000)

/-- Profile DELETE. -/
def State.actDelete (s : State) (c : Cmd) (p : Nat) : State × Res :=
  if 4096 ≤ c.idx then (s, { code := ccBadIndex }) else (s.profSetValid p c.idx false, {})

/-! ### Load balancing (R211, R212, R216) -/

def State.slot (s : State) (pool i : Nat) : Nat := (s.act.slot.get 0 (4096 * pool + i)).toNat

def State.setSlot (s : State) (pool i v : Nat) : State :=
  { s with act := { s.act with slot := s.act.slot.set 0 (4096 * pool + i) (BitVec.ofNat 16 v),
                               gone := s.act.gone.set false (4096 * pool + i) false } }

def State.member (s : State) (m : Nat) : W32 := s.act.member.get 0 m

/-- STATE of a member: 0 DOWN, 1 UP, 2 DRAIN; 3 is treated as DOWN. -/
def State.memberState (s : State) (m : Nat) : Nat :=
  if s.act.gone.get false (8388608 + m) then 0 else gb (s.member m) 30 2

def memPort (w : W32) : Nat := gb w 0 8
def memDmac (w : W32) : Bool := tb w 28
def memDnat (w : W32) : Bool := tb w 29

/-- The 16 B extension of a member: DMAC bytes 0 to 5, DPORT 6 and 7, address 8 to 11. -/
def State.memberExt (s : State) (m : Nat) : List Byte := bytesLE 16 (s.act.memberExt.get 0 m).toNat

/-- Slots that a choice scans: 8, or up to 32 in deepen (R212, R467). -/
def lbScan (deepen : Bool) : Nat := if deepen then 32 else 8

/-- The first member UP from slot FLOW_HASH[31:20] on that is not passed over (R212, R467). -/
def State.lbChoose (s : State) (pool hash n : Nat) (skip : Nat → Bool) : Option Nat :=
  ((List.range n).filterMap fun i =>
      let k := (bitsOf hash 20 12 + i) % 4096
      if s.act.gone.get false (4096 * pool + k) then none else some (s.slot pool k)).find? fun m =>
    s.memberState m = 1 && !(skip m)

def lbPool (c : Cmd) : Nat := bitsOf c.idx 0 10
def lbFirst (c : Cmd) : Nat := bitsOf c.idx 16 12
def lbCount (c : Cmd) : Nat := bitsOf c.idx 32 13

/-- The checks of a slot range. -/
def lbRangeBad (c : Cmd) : Bool :=
  !c.indirect || lbCount c = 0 || 4096 < lbCount c || 4096 < lbFirst c + lbCount c || c.len ≠ 2 * lbCount c

def State.lbRead (s : State) (c : Cmd) (_ : Nat) : State × Res :=
  if lbRangeBad c then (s, { code := ccBadCommand })
  else
    (s, { data := (List.range (lbCount c)).flatMap fun i => bytesLE 2 (s.slot (lbPool c) (lbFirst c + i)),
          result := some (2 * lbCount c) })

def State.lbWrite (s : State) (c : Cmd) (_ : Nat) : State × Res :=
  if lbRangeBad c then (s, { code := ccBadCommand })
  else
    let ws := (List.range (lbCount c)).map fun i => leAt c.host (2 * i) 2
    if ws.any fun w => 2 ^ 14 ≤ w then (s, { code := ccBadCommand })
    else (ws.zipIdx.foldl (fun s w => s.setSlot (lbPool c) (lbFirst c + w.2) w.1) s, {})

def lbMember (c : Cmd) : Nat := bitsOf c.idx 0 14

def State.setMember (s : State) (m v : Nat) : State :=
  { s with act := { s.act with member := s.act.member.set 0 m (BitVec.ofNat 32 v) } }

def State.lbWriteMember (s : State) (c : Cmd) (_ : Nat) : State × Res :=
  let w := c.le 16 4
  if bitsOf w 8 20 ≠ 0 then (s, { code := ccBadCommand })
  else
    let s := s.setMember (lbMember c) w
    ({ s with act := { s.act with
        gone := s.act.gone.set false (8388608 + lbMember c) false,
        memberExt := s.act.memberExt.set 0 (lbMember c) (BitVec.ofNat 128 (c.le 20 12)) } }, {})

def State.lbSetState (s : State) (c : Cmd) (_ : Nat) : State × Res :=
  (s.setMember (lbMember c) (setBitsOf (s.member (lbMember c)).toNat 30 2 (c.le 16 1)), {})

def State.lbWritePool (s : State) (c : Cmd) (_ : Nat) : State × Res :=
  ({ s with act := { s.act with gap := s.act.gap.set 0 (lbPool c) (BitVec.ofNat 16 (c.le 16 2)) } }, {})

def State.lbReadMember (s : State) (c : Cmd) (_ : Nat) : State × Res :=
  (s, { data := bytesLE 4 (s.member (lbMember c)).toNat ++ s.memberExt (lbMember c) })

/-! ### Translation pools (R218, R219, R223, R224) -/

/-- A NAT pool word: bytes 16 to 27 of WRITE_POOL. -/
abbrev NatPool := BitVec 96

def npLo (w : NatPool) : Nat := gb w 0 16
def npLog (w : NatPool) : Nat := gb w 16 8
def npMax (w : NatPool) : Nat := gb w 24 8
def npAddrs (w : NatPool) : Nat := gb w 32 16
def npBase (w : NatPool) : Nat := gb w 48 24
def npZone (w : NatPool) : Nat := gb w 72 16
def npOn (w : NatPool) : Bool := tb w 88
def npDrain (w : NatPool) : Bool := tb w 89
/-- Blocks per address, and blocks of the pool. -/
def npBpa (w : NatPool) : Nat := (65536 - npLo w) / 2 ^ npLog w
def npBlocks (w : NatPool) : Nat := npAddrs w * npBpa w

def State.natPool (s : State) (n : Nat) : NatPool := s.act.pool.get 0 n
def State.block (s : State) (g : Nat) : W32 := s.act.block.get 0 g

def State.setBlock (s : State) (g v : Nat) : State :=
  { s with act := { s.act with block := s.act.block.set 0 g (BitVec.ofNat 32 v) } }

def blkOn (w : W32) : Bool := tb w 31
def blkFlows (w : W32) : Nat := gb w 16 15
def blkNext (w : W32) : Nat := gb w 0 12

/-- Allocated blocks of a range of global indices, rising. -/
def State.blocksOn (s : State) (base n : Nat) : List Nat :=
  s.act.block.filterMap fun e => if base ≤ e.1 ∧ e.1 < base + n ∧ blkOn e.2 then some e.1 else none

/-- External address of a pool's block `k`, and its first port. -/
def State.natAddr (s : State) (pool k : Nat) : Nat :=
  (s.act.addr.get 0 (1024 * pool + k / npBpa (s.natPool pool))).toNat
def State.natPort (s : State) (pool k : Nat) : Nat :=
  npLo (s.natPool pool) + k % npBpa (s.natPool pool) * 2 ^ npLog (s.natPool pool)

/-- The key of a subscriber's binding: zone and address, the low half of an IPv6 address left out (R218). -/
def subscriber (zone addr : Nat) : Nat :=
  zone * 2 ^ 128 + (if addr / 2 ^ 32 = 0xFFFF then addr else addr / 2 ^ 64 * 2 ^ 64)

def State.binding (s : State) (k : Nat) : List Nat := s.act.bind.get [] k

def State.setBinding (s : State) (k : Nat) (l : List Nat) : State :=
  { s with act := { s.act with bind := s.act.bind.set [] k l } }

/-- The lowest free block of a pool (new_block of R219). -/
def State.newBlock (s : State) (pool : Nat) : Option Nat :=
  let w := s.natPool pool
  (List.range (npBlocks w)).find? fun k => !(blkOn (s.block (npBase w + k)))

/-- A flow leaves block `g`: FLOWS falls, and an empty block leaves its binding (R219, R223); a quarantined
block is never released (R477). -/
def State.blockLeave (s : State) (g : Nat) : State :=
  let w := s.block g
  if s.act.quar.get false g then s
  else if blkFlows w ≤ 1 then
    let s := s.setBlock g 0
    let b := s.act.bind.filterMap fun e =>
      let l := e.2.filter (· != g)
      if l.isEmpty then none else some (e.1, l)
    { s with act := { s.act with bind := b } }
  else s.setBlock g (setBitsOf w.toNat 16 15 (blkFlows w - 1))

/-- Step 5 of R187: a record that names a block leaves it (R223). -/
def State.teardownBlock (s : State) (td : Nat) : State := if td.testBit 31 then s.blockLeave (bitsOf td 0 19) else s

def natIdx (c : Cmd) : Nat := bitsOf c.idx 0 6

def State.natReadPool (s : State) (c : Cmd) (_ : Nat) : State × Res :=
  (s, { data := bytesLE 12 (s.natPool (natIdx c)).toNat })

/-- The fields of a WRITE_POOL outside the ranges of R218. -/
def natPoolBad (w : NatPool) : Bool :=
  npLo w < 1024 || 64512 < npLo w || npLog w < 6 || 12 < npLog w || npMax w < 1 || 4 < npMax w ||
  npAddrs w < 1 || 1024 < npAddrs w || 524287 < npBase w || 4095 < npZone w

/-- The lowest enabled pool other than `n` whose blocks a range overlaps. -/
def State.natOverlap (s : State) (n : Nat) (w : NatPool) : Option Nat :=
  (List.range 64).find? fun m =>
    let v := s.natPool m
    m != n && npOn v && decide (npBase v < npBase w + npBlocks w) && decide (npBase w < npBase v + npBlocks v)

/-- NAT WRITE_POOL. -/
def State.natWritePool (s : State) (c : Cmd) (_ : Nat) : State × Res :=
  let n := natIdx c
  let v := c.le 16 12
  let w : NatPool := BitVec.ofNat 96 (v % 2 ^ 90)
  let old := s.natPool n
  let held := (s.blocksOn (npBase old) (npBlocks old)).length
  let past := npBase w + npBlocks w
  if natPoolBad w then (s, { code := ccBadCommand })
  else if held ≠ 0 ∧ gb w 0 88 ≠ gb old 0 88 then (s, { code := ccBadIndex, result := some held })
  else if 524288 < past then (s, { code := ccBadIndex, result := some (past - 524288) })
  else
    match s.natOverlap n w with
    | some m => (s, { code := ccBadIndex, result := some m })
    | none => ({ s with act := { s.act with pool := s.act.pool.set 0 n w } }, {})

def State.natSearch (s : State) (c : Cmd) (_ : Nat) : State × Res :=
  if !c.indirect ∨ c.len ≠ 16 then (s, { code := ccBadCommand })
  else
    let l := s.binding (subscriber (c.ix 8 2 % 4096) (beAt c.host 0 16))
    (s, { result := some l.length, at32 := (l.flatMap (bytesLE 4)) ++ List.replicate (4 * (4 - l.length)) 0 })

def State.natReadBlock (s : State) (c : Cmd) (_ : Nat) : State × Res :=
  (s, { data := bytesLE 4 (s.block (bitsOf c.idx 0 19)).toNat })

/-- NAT WRITE_ADDR: refused while a block of the slot is allocated. -/
def State.natWriteAddr (s : State) (c : Cmd) (_ : Nat) : State × Res :=
  let n := natIdx c
  let j := bitsOf c.idx 16 10
  let w := s.natPool n
  let mine := if j < npAddrs w then s.blocksOn (npBase w + j * npBpa w) (npBpa w) else []
  if !mine.isEmpty then (s, { code := ccBadIndex })
  else
    ({ s with act := { s.act with addr := s.act.addr.set 0 (1024 * n + j) (BitVec.ofNat 32 (c.be 16 4)) } }, {})

/-- NAT64 prefix `n`: length and prefix, when set (R221). -/
def State.natPfx (s : State) (n : Nat) : Option (Nat × Nat) :=
  let v := (s.act.pfx.get 0 n).toNat
  if v / 2 ^ 128 = 0 then none else some (v / 2 ^ 128, v % 2 ^ 128)

def State.natWritePfx (s : State) (c : Cmd) (_ : Nat) : State × Res :=
  let len := c.le 32 1
  if !([32, 40, 48, 56, 64, 96].contains len) then (s, { code := ccBadCommand })
  else
    ({ s with act := { s.act with
        pfx := s.act.pfx.set 0 (bitsOf c.idx 0 4) (BitVec.ofNat 136 (len * 2 ^ 128 + c.be 16 16)) } }, {})

/-! ### Zone timeouts (R228) -/

/-- The class of a TCP state in a zone's timeout set. -/
def State.tcpClass (s : State) (p zone st : Nat) (linked : Bool) : Nat :=
  gb (s.act.classes.get 0 (16 * p + s.act.zoneSet.get 0 (4096 * p + zone))) (4 * (16 * b2n linked + st)) 4

def State.zoneRead (s : State) (c : Cmd) (p : Nat) : State × Res :=
  if c.idx < 4096 then (s, { data := bytesLE 1 (s.act.zoneSet.get 0 (4096 * p + c.idx)) })
  else if c.idx < 4112 then (s, { data := bytesLE 16 (s.act.classes.get 0 (16 * p + (c.idx - 4096))).toNat })
  else (s, { code := ccBadIndex })

def State.zoneWrite (s : State) (c : Cmd) (p : Nat) : State × Res :=
  if c.idx < 4096 then
    ({ s with act := { s.act with zoneSet := s.act.zoneSet.set 0 (4096 * p + c.idx) (c.le 16 1 % 16) } }, {})
  else if c.idx < 4112 then
    ({ s with act := { s.act with
        classes := s.act.classes.set 0 (16 * p + (c.idx - 4096)) (BitVec.ofNat 128 (c.le 16 16)) } }, {})
  else (s, { code := ccBadIndex })

/-! ### TCP state (R225 to R227) -/

/-- The next state of one half, and whether the packet is invalid; flags FIN bit 0, SYN 1, RST 2 (R226).  `none`: RST. -/
def tcpHalf (st flags : Nat) (mid : Bool) : Option (Nat × Bool) :=
  let syn := flags.testBit 1
  let fin := flags.testBit 0
  if flags.testBit 2 then none
  else if syn && fin then some (st, true)
  else if syn then (if st ≤ 1 then some (1, false) else some (st, true))
  else if fin then some (3, false)
  else
    match st with
    | 0 => if mid then some (2, false) else some (0, true)
    | 1 => some (2, false)
    | n => some (n, false)

/-- The next TCP_STATE when a packet acts on half `h` (0 originator, bits 3:2), and whether it is invalid (R225, R226). -/
def tcpNext (st h flags : Nat) (mid linked : Bool) : Nat × Bool :=
  let lo := if h = 0 then 2 else 0
  match tcpHalf (bitsOf st lo 2) flags mid with
  | none => (if linked then setBitsOf st lo 2 3 else 15, false)
  | some (x, bad) => (setBitsOf st lo 2 x, bad)

end Sys2Proof.Machine
end

