-- ==== Sys2Proof/Machine/Assign.lean ====
section
/-!
DEFINITION. Account assignment (R373, R374): ACCOUNT, METER_CLASS and SEAL_EN of a new record.
-/
namespace Sys2Proof.Machine

/-- What assignment takes from the creating packet: its endpoints, zone, tunnel identifier and outer tag. -/
structure AssignIn where
  src : Nat := 0
  sport : Nat := 0
  dst : Nat := 0
  dport : Nat := 0
  zone : Nat := 0
  tunId : Nat := 0
  tci : Nat := 0
deriving DecidableEq, Repr

/-- MAP[a] (R373). -/
def State.mapAt (s : State) (a : Nat) : BitVec 4 := s.qnc.map.get 0 a

/-- The field a class reads. -/
def State.classField (s : State) (c : Nat) (a : AssignIn) : Nat :=
  let src := s.get pgQnc QNC_CLASSn.SIDE c = 0
  match s.get pgQnc QNC_CLASSn.SRC c with
  | 1 => a.zone
  | 2 => if src then a.src else a.dst
  | 3 => if src then a.sport else a.dport
  | 4 => a.tunId
  | 5 => a.tci % 4096
  | _ => 0

/-- ACCOUNT under class `c`. -/
def State.classAccount (s : State) (c : Nat) (a : AssignIn) : Nat :=
  let f := s.classField c a >>> s.get pgQnc QNC_CLASSn.SHIFT c
  (s.get pgQnc QNC_CLASSn_W1.BASE c + f % 2 ^ min 22 (s.get pgQnc QNC_CLASSn.WIDTH c)) % 2 ^ 22

/-- SEAL_EN, ACCOUNT and METER_CLASS for a record of profile `action` (R373); all 0 without SEALED_METER. -/
def State.assign (s : State) (action : Nat) (a : AssignIn) : Nat × Nat × Nat :=
  let m := s.mapAt action
  if !(s.feature 5) ∨ !(tb m 3) then (0, 0, 0) else (1, s.classAccount (gb m 0 3) a, gb m 0 3)

end Sys2Proof.Machine
end

