-- ==== Sys2Proof/Machine/Crypto.lean ====
section
/-!
DEFINITION. The published algorithms the spec names: AES (FIPS 197), GCM and GMAC (SP 800-38D), CMAC (SP 800-38B), key wrap
(RFC 3394), the counter-mode KDF (SP 800-108), SHA-384 (FIPS 180-4) and ECDSA verification on P-384 (FIPS 186-4).  The spec
gives their names and parameters (R261, R389, R393, R411, R414, R486); their content is the standards' (log entry 50).
A block is a number below 2^128, its first byte the most significant.
-/
namespace Sys2Proof.Machine

/-! ### AES -/

/-- Multiplication by x in GF(2^8). -/
def xtime (a : Nat) : Nat := ((2 * a) ^^^ (if 128 ≤ a then 0x11B else 0)) % 256

/-- Multiplication in GF(2^8). -/
def gmul (a b : Nat) : Nat :=
  ((List.range 8).foldl (fun (r : Nat × Nat) i => (if b.testBit i then r.1 ^^^ r.2 else r.1, xtime r.2)) (0, a)).1

/-- The inverse in GF(2^8), 0 for 0: the 254th power. -/
def ginv (a : Nat) : Nat :=
  let a2 := gmul a a
  let a3 := gmul a2 a
  let a6 := gmul a3 a3
  let a12 := gmul a6 a6
  let a15 := gmul a12 a3
  let a30 := gmul a15 a15
  let a60 := gmul a30 a30
  let a120 := gmul a60 a60
  let a126 := gmul a120 a6
  let a127 := gmul a126 a
  gmul a127 a127

def rotl8 (x k : Nat) : Nat := (2 ^ k * x) % 256 + x / 2 ^ (8 - k)

def aesSub (a : Nat) : Nat :=
  let b := ginv a
  b ^^^ rotl8 b 1 ^^^ rotl8 b 2 ^^^ rotl8 b 3 ^^^ rotl8 b 4 ^^^ 0x63

def aesInvSub (a : Nat) : Nat := ginv (rotl8 a 1 ^^^ rotl8 a 3 ^^^ rotl8 a 6 ^^^ 0x05)

/-- The bytes of a word or block, first byte first. -/
def natBytes (n v : Nat) : List Nat := (List.range n).map fun i => v / 256 ^ (n - 1 - i) % 256

def bytesNat (l : List Nat) : Nat := l.foldl (fun a b => 256 * a + b) 0

/-- The next word of the key schedule. -/
def aesWord (nk i prev old : Nat) : Nat :=
  let sub : Nat → Nat := fun w => bytesNat ((natBytes 4 w).map aesSub)
  let t :=
    if i % nk = 0 then
      sub (prev % 2 ^ 24 * 256 + prev / 2 ^ 24) ^^^ (2 ^ 24 * ((List.range (i / nk - 1)).foldl (fun r _ => xtime r) 1))
    else if nk = 8 ∧ i % nk = 4 then sub prev else prev
  old ^^^ t

/-- The round keys of a 16 B or 32 B key. -/
def aesKeys (key : List Byte) : List Nat :=
  let nk := key.length / 4
  let w0 : List Nat := (List.range nk).map fun i => ofBytesBE (sliceB key (4 * i) 4)
  let ws := (List.range (4 * (nk + 7) - nk)).foldl
    (fun (w : List Nat) j => w ++ [aesWord nk (nk + j) (w.getD (nk + j - 1) 0) (w.getD j 0)]) w0
  (List.range (nk + 7)).map fun r => (List.range 4).foldl (fun a i => 2 ^ 32 * a + ws.getD (4 * r + i) 0) 0

/-- One column through a circulant matrix over GF(2^8). -/
def mixCol (m : List Nat) (c : List Nat) : List Nat :=
  (List.range 4).map fun i => (List.range 4).foldl (fun a j => a ^^^ gmul (m.getD ((4 + j - i) % 4) 0) (c.getD j 0)) 0

def mixCols (m : List Nat) (b : List Nat) : List Nat :=
  (List.range 4).flatMap fun c => mixCol m ((b.drop (4 * c)).take 4)

/-- Row r of the state moves left by r columns (`inv`: right). -/
def shiftRows (inv : Bool) (b : List Nat) : List Nat :=
  (List.range 16).map fun i => b.getD ((4 * (i / 4 + (if inv then 4 - i % 4 else i % 4)) + i % 4) % 16) 0

def aesRound (last : Bool) (b k : Nat) : Nat :=
  let t := shiftRows false ((natBytes 16 b).map aesSub)
  bytesNat (if last then t else mixCols [2, 3, 1, 1] t) ^^^ k

def aesRounds (b : Nat) : List Nat → Nat
  | [] => b
  | [k] => aesRound true b k
  | k :: t => aesRounds (aesRound false b k) t

/-- AES encryption of a block. -/
def aes (key : List Byte) (b : Nat) : Nat :=
  match aesKeys key with
  | [] => b
  | k :: t => aesRounds (b ^^^ k) t

def aesInvRound (first : Bool) (b k : Nat) : Nat :=
  let t := natBytes 16 (b ^^^ k)
  let t := if first then t else mixCols [14, 11, 13, 9] t
  bytesNat ((shiftRows true t).map aesInvSub)

def aesInvRounds (b : Nat) (first : Bool) : List Nat → Nat
  | [] => b
  | [k] => b ^^^ k
  | k :: t => aesInvRounds (aesInvRound first b k) false t

/-- AES decryption of a block. -/
def aesInv (key : List Byte) (b : Nat) : Nat := aesInvRounds b true (aesKeys key).reverse

/-! ### GHASH, GCM -/

/-- Multiplication in GF(2^128) of SP 800-38D. -/
def ghMul (x y : Nat) : Nat :=
  ((List.range 128).foldl (fun (r : Nat × Nat) i =>
    (if x.testBit (127 - i) then r.1 ^^^ r.2 else r.1,
     if r.2.testBit 0 then (r.2 / 2) ^^^ (0xE1 * 2 ^ 120) else r.2 / 2)) (0, y)).1

/-- Block `i` of a message, padded with zeros on the right. -/
def blockOf (l : List Byte) (i : Nat) : Nat := ofBytesBE (sliceB l (16 * i) 16)

/-- GHASH absorbs the blocks of `l`. -/
def ghash (h y : Nat) (l : List Byte) : Nat :=
  (List.range (ceilDiv l.length 16)).foldl (fun y i => ghMul (y ^^^ blockOf l i) h) y

/-- The counter block that follows. -/
def inc32 (c : Nat) : Nat := c / 2 ^ 32 * 2 ^ 32 + (c + 1) % 2 ^ 32

/-- The length block of GCM. -/
def ghLens (aad data : Nat) : Nat := 2 ^ 64 * (8 * aad) + 8 * data

/-- Exclusive or of a key stream block with up to 16 bytes. -/
def xorStream (ks : Nat) (l : List Byte) : List Byte := l.zipWith (· ^^^ ·) (bytesBE 16 ks)

/-- Counter mode over the bytes of `l`, from counter block `c`. -/
def ctrMode (key : List Byte) (c : Nat) (l : List Byte) : List Byte :=
  ((List.range (ceilDiv l.length 16)).foldl (fun (r : List Byte × Nat) i =>
    (r.1 ++ xorStream (aes key r.2) ((l.drop (16 * i)).take 16), inc32 r.2)) ([], c)).1

/-- The pre-counter block of a 96-bit IV. -/
def j0 (iv : Nat) : Nat := 2 ^ 32 * iv + 1

/-- GMAC of `aad` (R389): GCM with an empty plaintext. -/
def gmac (key : List Byte) (iv : Nat) (aad : List Byte) : Nat :=
  let h := aes key 0
  ghMul (ghash h 0 aad ^^^ ghLens aad.length 0) h ^^^ aes key (j0 iv)

/-! ### CMAC and the KDF -/

/-- Doubling in GF(2^128) of SP 800-38B. -/
def dbl128 (x : Nat) : Nat := (2 * x) % 2 ^ 128 ^^^ (if x.testBit 127 then 0x87 else 0)

/-- The last block of a CMAC message: complete under K1, padded under K2. -/
def cmacLast (key l : List Byte) : Nat :=
  let k1 := dbl128 (aes key 0)
  if l.length = 16 then ofBytesBE l ^^^ k1
  else ofBytesBE (sliceB (l ++ [0x80#8]) 0 16) ^^^ dbl128 k1

/-- The chaining value after the whole blocks of `l`. -/
def cmacChain (key : List Byte) (x : Nat) (l : List Byte) : Nat :=
  (List.range (l.length / 16)).foldl (fun x i => aes key (x ^^^ blockOf l i)) x

/-- CMAC of a message. -/
def cmac (key l : List Byte) : Nat :=
  let n := 16 * (ceilDiv l.length 16 - 1)
  aes key (cmacChain key 0 (l.take n) ^^^ cmacLast key (l.drop n))

/-- The counter-mode KDF of R411 with CMAC as its PRF: i ∥ label ∥ 0x00 ∥ context ∥ L, with i and L of 32 bits. -/
def kdf (key label context : List Byte) (bits : Nat) : List Byte :=
  ((List.range (ceilDiv bits 128)).flatMap fun i =>
    bytesBE 16 (cmac key (bytesBE 4 (i + 1) ++ label ++ [0#8] ++ context ++ bytesBE 4 bits))).take (bits / 8)

/-! ### Key wrap (RFC 3394) -/

def kwIv : Nat := 0xA6A6A6A6A6A6A6A6

/-- One step of a wrap: `t` counts from 1. -/
def kwStep (key : List Byte) (n : Nat) (r : Nat × List Nat) (t : Nat) : Nat × List Nat :=
  let i := (t - 1) % n
  let b := aes key (2 ^ 64 * r.1 + r.2.getD i 0)
  (b / 2 ^ 64 ^^^ t, r.2.set i (b % 2 ^ 64))

/-- One step of an unwrap. -/
def kwUnstep (key : List Byte) (n : Nat) (r : Nat × List Nat) (t : Nat) : Nat × List Nat :=
  let i := (t - 1) % n
  let b := aesInv key (2 ^ 64 * (r.1 ^^^ t) + r.2.getD i 0)
  (b / 2 ^ 64, r.2.set i (b % 2 ^ 64))

def kwRegs (l : List Byte) : List Nat := (List.range (l.length / 8)).map fun i => ofBytesBE (sliceB l (8 * i) 8)

def kwBytes (l : List Nat) : List Byte := l.flatMap fun v => bytesBE 8 v

/-- Unwrap: the key data, or nothing when the integrity check fails. -/
def kwUnwrap (key l : List Byte) : Option (List Byte) :=
  let n := l.length / 8 - 1
  let r := (List.range (6 * n)).foldl (fun r j => kwUnstep key n r (6 * n - j)) (ofBytesBE (l.take 8), kwRegs (l.drop 8))
  if r.1 = kwIv then some (kwBytes r.2) else none

/-! ### SHA-384 -/

/-- The integer `k`-th root of `v`, below 2^80. -/
def kRoot (k v : Nat) : Nat :=
  (List.range 80).foldl (fun r i => let x := r + 2 ^ (79 - i); if x ^ k ≤ v then x else r) 0

/-- The primes below 410: 80 of them. -/
def primes : List Nat := (List.range 410).filter fun n => 2 ≤ n && (List.range 21).all fun d => d < 2 || n ≤ d || n % d != 0

/-- Round constants: the first 64 fraction bits of the cube roots of the primes. -/
def shaK (i : Nat) : Nat := kRoot 3 (primes.getD i 2 * 2 ^ 192) % 2 ^ 64

/-- The initial hash: 64 fraction bits of the square roots of the 9th to 16th prime. -/
def sha384Init : List Nat := (List.range 8).map fun i => kRoot 2 (primes.getD (8 + i) 2 * 2 ^ 128) % 2 ^ 64

def rotr64 (x k : Nat) : Nat := x / 2 ^ k + x % 2 ^ k * 2 ^ (64 - k)

def shaSmall (a b c x : Nat) : Nat := rotr64 x a ^^^ rotr64 x b ^^^ (x / 2 ^ c)

def shaBig (a b c x : Nat) : Nat := rotr64 x a ^^^ rotr64 x b ^^^ rotr64 x c

/-- The 80 message words of a block. -/
def shaWords (blk : List Byte) : List Nat :=
  (List.range 64).foldl (fun (w : List Nat) j =>
    w ++ [(shaSmall 19 61 6 (w.getD (14 + j) 0) + w.getD (9 + j) 0 + shaSmall 1 8 7 (w.getD (1 + j) 0) + w.getD j 0) % 2 ^ 64])
    ((List.range 16).map fun i => ofBytesBE (sliceB blk (8 * i) 8))

def shaRound (v : List Nat) (kw : Nat) : List Nat :=
  match v with
  | [a, b, c, d, e, f, g, h] =>
    let ch := (e &&& f) ^^^ ((2 ^ 64 - 1 - e) &&& g)
    let t1 := h + shaBig 14 18 41 e + ch + kw
    let t2 := shaBig 28 34 39 a + ((a &&& b) ^^^ (a &&& c) ^^^ (b &&& c))
    [(t1 + t2) % 2 ^ 64, a, b, c, (d + t1) % 2 ^ 64, e, f, g]
  | v => v

def shaBlock (ks v : List Nat) (blk : List Byte) : List Nat :=
  v.zipWith (fun a b => (a + b) % 2 ^ 64) (((shaWords blk).zipWith (· + ·) ks).foldl shaRound v)

/-- SHA-384 as a number, first byte most significant. -/
def sha384 (l : List Byte) : Nat :=
  let z := (128 - (l.length + 17) % 128) % 128
  let m := l ++ [0x80#8] ++ List.replicate z 0#8 ++ bytesBE 16 (8 * l.length)
  let ks := (List.range 80).map shaK
  let v := (List.range (m.length / 128)).foldl (fun v i => shaBlock ks v (sliceB m (128 * i) 128)) sha384Init
  (v.take 6).foldl (fun a w => 2 ^ 64 * a + w) 0

/-! ### ECDSA on P-384 -/

def p384 : Nat := 2 ^ 384 - 2 ^ 128 - 2 ^ 96 + 2 ^ 32 - 1
def p384n : Nat :=
  0xFFFFFFFFFFFFFFFFFFFFFFFFFFFFFFFFFFFFFFFFFFFFFFFFC7634D81F4372DDF581A0DB248B0A77AECEC196ACCC52973
def p384b : Nat :=
  0xB3312FA7E23EE7E4988E056BE3F82D19181D9C6EFE8141120314088F5013875AC656398D8A2ED19D2A85C8EDD3EC2AEF
def p384g : Nat × Nat :=
  (0xAA87CA22BE8B05378EB1C71EF320AD746E1D3B628BA79B9859F741E082542A385502F25DBF55296C3A545E3872760AB7,
   0x3617DE4A96262C6F5D9E98BF9292DC29F8F41DBD289A147CE9DA3113B5F0B8C00A60B1CE1D7E819D7A431D7C90EA0E5F)

/-- a^e mod m, for e below 2^384. -/
def powMod (m a e : Nat) : Nat :=
  (List.range 384).foldl (fun r i => let r := r * r % m; if e.testBit (383 - i) then r * a % m else r) 1

def invMod (m a : Nat) : Nat := powMod m a (m - 2)

/-- A point of the curve; none is the point at infinity. -/
abbrev Point := Option (Nat × Nat)

/-- The third point of a chord or tangent of slope `k`, reflected. -/
def chord (k : Nat) (a b : Nat × Nat) : Point :=
  let x := (k * k + 2 * p384 - a.1 - b.1) % p384
  some (x, (k * (a.1 + p384 - x) + p384 - a.2) % p384)

def pointAdd (a b : Point) : Point :=
  match a, b with
  | none, b => b
  | a, none => a
  | some a, some b =>
    if a.1 = b.1 then
      if (a.2 + b.2) % p384 = 0 then none
      else chord ((3 * a.1 * a.1 + p384 - 3) * invMod p384 (2 * a.2 % p384) % p384) a b
    else chord ((b.2 + p384 - a.2) * invMod p384 ((b.1 + p384 - a.1) % p384) % p384) a b

def pointMul (k : Nat) (a : Point) : Point :=
  (List.range 384).foldl (fun r i => let r := pointAdd r r; if k.testBit (383 - i) then pointAdd r a else r) none

def onCurve (q : Nat × Nat) : Bool :=
  q.1 < p384 && q.2 < p384 && q.2 * q.2 % p384 == (q.1 * q.1 * q.1 + (p384 - 3) * q.1 + p384b) % p384

/-- ECDSA verification of signature (r, s) over hash `e` under the public key `q`. -/
def ecdsaOk (q : Nat × Nat) (e r s : Nat) : Bool :=
  if !(onCurve q) || r = 0 || p384n ≤ r || s = 0 || p384n ≤ s then false
  else
    let w := invMod p384n s
    match pointAdd (pointMul (e * w % p384n) (some p384g)) (pointMul (r * w % p384n) (some q)) with
    | none => false
    | some v => v.1 % p384n == r

end Sys2Proof.Machine
end

