-- ==== Sys2Proof/Machine/Cipher.lean ====
section
/-!
DEFINITION. Sloe, the cipher engine (R402 to R425): bindings, keys, jobs, engines, and its random source.
-/
namespace Sys2Proof.Machine

def State.cpage (s : State) (u : Nat) : CPage := s.cph.page.get {} u

def State.setCpage (s : State) (u : Nat) (p : CPage) : State :=
  { s with cph := { s.cph with page := s.cph.page.set {} u p } }

/-- The bound master of user page `u`, 0 when free (R406). -/
def State.bound (s : State) (u : Nat) : Nat := s.get pgCph CPH_BINDn.MASTER u

def State.keyState (s : State) (u : Nat) : Nat := s.get (pgCphU u) CPH_KEY_STAT.STATE

def State.setKeyState (s : State) (u v : Nat) : State := s.put (pgCphU u) CPH_KEY_STAT.STATE v

/-- The engines a context holds become free. -/
def State.freeEngines (s : State) (ctx : Nat) : State :=
  let s := (List.range 16).foldl (fun (s : State) e =>
    if s.cph.engine.get 0 e = ctx then { s with cph := { s.cph with engine := s.cph.engine.set 0 e 0 } } else s) s
  s.put pgCph CPH_STAT.BUSY ((List.range 16).foldl (fun a e => a + b2n (s.cph.engine.get 0 e != 0) * 2 ^ e) 0)

def State.takeEngine (s : State) (e ctx : Nat) : State :=
  let s := { s with cph := { s.cph with engine := s.cph.engine.set 0 e ctx } }
  s.put pgCph CPH_STAT.BUSY (s.get pgCph CPH_STAT.BUSY ||| 2 ^ e)

/-! ### Zeroization and binding (R406 to R409, R413) -/

/-- A running job ends: STATE and CODE, JOB_DONE, its engine free. -/
def State.jobEnd (s : State) (u st code : Nat) : State :=
  let s := s.setCpage u { s.cpage u with job := none }
  let s := (s.put (pgCphU u) CPH_JOB_STAT.STATE st).put (pgCphU u) CPH_JOB_STAT.CODE code
  (s.freeEngines (u + 1)).raise (pgCphU u) 0

/-- The open message ends. -/
def State.msgEnd (s : State) (u : Nat) : State :=
  (s.setCpage u { s.cpage u with msg := none }).put (pgCphU u) CPH_MSG_BLOCKS.BLOCKS 0

/-- Words of a user half read their value after zeroization from `lo` up to `hi`. -/
def State.clearHalf (s : State) (u lo hi : Nat) : State :=
  s.upIo fun io => { io with regs := io.regs.drop fun a => pgCphU u + lo ≤ a && a < pgCphU u + hi }

/-- The job of a page is stopped with ABORTED, the key, counter and state are cleared (R407, R413). -/
def State.keyClear (s : State) (u : Nat) : State :=
  let s := if (s.cpage u).job.isSome then s.jobEnd u 3 8 else s
  let s := s.msgEnd u
  let s := s.setCpage u { s.cpage u with key := none, mode := 0, load := none }
  ((s.put (pgCphU u) CPH_CTR.CTR 0).setKeyState u 0)

/-- Zeroization (R407): key, derived-key generation, counter, job registers, tag and window. -/
def State.zeroize (s : State) (u : Nat) : State :=
  let running := (s.cpage u).job.isSome
  let s := s.keyClear u
  let s := s.setCpage u { s.cpage u with data := [] }
  let s := s.put (pgCphU u) CPH_KEY_STAT.CODE 0
  let s := ((s.clearHalf u 0x040 0x060).clearHalf u 0x0C0 0x0FC).clearHalf u 0x100 0x118
  let s := s.clearHalf u 0x400 0x800
  if running then s else s.clearHalf u 0x0FC 0x100

/-- A reset of a master zeroizes the pages bound to it; bindings stay (R409). -/
def State.zeroizeOf (s : State) (ms : List Nat) : State :=
  (List.range 64).foldl (fun s u => if ms.contains (s.bound u) then s.zeroize u else s) s

/-- What a write of MASTER asks of a page (R406): a binding, a release, nothing new, or a refusal. -/
inductive BindAsk where
  | change | same | refuse
deriving DecidableEq, Repr

def bindAsk (m cur new : Nat) (locked : Bool) : BindAsk :=
  if new = cur then (if m = 0x11 then .same else .refuse)
  else if locked then .refuse
  else if cur = 0 then
    (if (m = 0x11 ∧ [0x01, 0x10, 0x11, 0x40].contains new) ∨ (m = new ∧ [0x01, 0x10, 0x40].contains m) then .change else .refuse)
  else if new = 0 ∧ (m = cur ∨ m = 0x11) then .change
  else .refuse

/-- A write of CPH_BINDn: MASTER under R406, LOCK under R9 and R10 by 0x11 only; one TYPE 1 for the access, and a write that R406
refuses changes neither. -/
def State.cphBind (s : State) (u m v : Nat) : State :=
  let a := pgCph + 0x100 + 4 * u
  let old := s.io.rd a
  let ask := bindAsk m (s.bound u) (v % 256) (tb old 31)
  let lk := rwlWrite old (BitVec.ofNat 32 v) 0x80000000#32 (m = 0x11)
  let s := if ask = .refuse ∨ lk.2 then s.err pgCph 1 m (0x100 + 4 * u) else s
  let s := if ask = .change then (s.put pgCph CPH_BINDn.MASTER v u).zeroize u else s
  if ask ≠ .refuse ∧ tb lk.1 31 ∧ !(tb old 31) then
    let s := s.put pgCph CPH_BINDn.LOCK 1 u
    if s.get pgCph PG_OWNER.LOCKED = 0 then s.upIo fun io => io.wr (pgCph + 0x2C) (BitVec.ofNat 32 (256 + m)) else s
  else s

/-- A master other than the bound one, or a free page (R408). -/
def State.cphStranger (s : State) (u m : Nat) : Bool := s.bound u = 0 || s.bound u != m

/-- An access of a stranger: counted, the first one captured (R408). -/
def State.cphViolate (s : State) (u m off : Nat) (write : Bool) : State :=
  let s := s.ctr pgCph CPH_VIOL_CNT.COUNT
  if s.get pgCph CPH_VIOL_CAP.VALID = 1 then s
  else
    (s.upIo fun io => io.wr (pgCph + 0x060)
      (BitVec.ofNat 32 (2 ^ 31 + b2n write * 2 ^ 30 + u * 2 ^ 24 + m * 2 ^ 16 + off % 2 ^ 11))).raise pgCph 0

/-! ### Keys (R410 to R413) -/

/-- The bytes of CPH_KEY_DATA0 to 9. -/
def State.keyData (s : State) (u : Nat) : List Byte :=
  (List.range 10).flatMap fun i => bytesLE 4 ((s.cpage u).data.get 0 i).toNat

/-- The page becomes EXHAUSTED (R416). -/
def State.exhaust (s : State) (u : Nat) : State :=
  ((((s.setKeyState u 4).raise (pgCphU u) 2).put pgCph CPH_STAT.LAST_EXH u).raise pgCph 2)

/-- A write of CPH_KEY_CTL.LOAD: the LOAD starts, or fails with BUSY while one runs. -/
def State.cphLoad (s : State) (u : Nat) : State :=
  let b := pgCphU u
  if (s.cpage u).load.isSome then s.put b CPH_KEY_STAT.CODE 5
  else
    let l : CLoad :=
      { src := s.get b CPH_KEY_CFG.SRC, mode := s.get b CPH_KEY_CFG.MODE, size := s.get b CPH_KEY_CFG.SIZE,
        label := s.get b CPH_KEY_LABEL.LABEL, gen := s.get b CPH_KEY_GEN.GEN, init := s.get b CPH_KEY_INIT.CTR,
        data := s.keyData u, old := s.keyState u }
    (s.setCpage u { s.cpage u with load := some l }).setKeyState u 1

/-- The key a LOAD gives: its bytes, its state and its counter, or the code it fails with. -/
def State.loadKey (s : State) (u : Nat) (l : CLoad) : Except Nat (List Byte × Nat × Nat) :=
  let n := 16 + 16 * l.size
  match l.src with
  | 0 => .ok (sliceB l.data 0 n, 2, l.init)
  | 1 =>
    let next := s.get (pgCphU u) CPH_KEY_NEXT_GEN.GEN
    if next < l.gen then .error 3
    else .ok (kdf s.cph.bootKey (bytesBE 4 l.label)
      ([BitVec.ofNat 8 u, BitVec.ofNat 8 (s.bound u)] ++ bytesBE 2 0 ++ bytesBE 4 l.gen) (8 * n), (if l.gen = next then 2 else 3), 0)
  | _ =>
    if s.bound u ≠ 0x11 then .error 4
    else
      match kwUnwrap (bytesBE 32 Config.identityKey.toNat) (sliceB l.data 0 (n + 8)) with
      | none => .error 2
      | some k => .ok (k, 2, l.init)

/-- The LOAD completes (R410, R412, R413). -/
def State.cphLoaded (s : State) (u : Nat) : State :=
  let p := s.cpage u
  let b := pgCphU u
  match p.load with
  | none => s
  | some l =>
    let s := s.setCpage u { p with load := none, data := [] }
    match s.loadKey u l with
    | .error code => ((s.setKeyState u l.old).put b CPH_KEY_STAT.CODE code).raise b 1
    | .ok (k, st, ctr) =>
      let s := s.setCpage u { s.cpage u with key := some k, mode := l.mode }
      let s := ((s.put b CPH_CTR.CTR ctr).put b CPH_KEY_STAT.CODE 1).setKeyState u st
      let s := if l.src = 1 ∧ st = 2 then s.bump b CPH_KEY_NEXT_GEN.GEN else s
      let s := if s.get b CPH_KEY_LIMIT.LIMIT ≤ ctr then s.exhaust u else s
      s.raise b 1

/-- CPH_KEY_CTL.ZEROIZE: as R407 for key, counter and state, keeping NEXT_GEN (R413). -/
def State.cphZero (s : State) (u : Nat) : State := s.keyClear u

/-! ### Jobs (R414 to R419) -/

/-- The settings of a job part, read from its page. -/
structure JobIn where
  op : Nat
  mode : Nat
  part : Nat
  dma : Bool
  tagLen : Nat
  aad : Nat
  len : Nat
  src : Nat
  dst : Nat
deriving DecidableEq, Repr

def State.jobIn (s : State) (u : Nat) : JobIn :=
  let b := pgCphU u
  { op := s.get b CPH_JOB_OP.OP, mode := (s.cpage u).mode, part := s.get b CPH_JOB_CFG.PART,
    dma := s.get b CPH_JOB_CFG.SRC = 1, tagLen := s.get b CPH_JOB_CFG.TAG_LEN,
    aad := s.get b CPH_JOB_AAD_LEN.BYTES, len := s.get b CPH_JOB_LEN.BYTES,
    src := s.get b CPH_JOB_SRC.ADDR, dst := s.get b CPH_JOB_DST.ADDR }

/-- FIRST or SINGLE. -/
def JobIn.opens (j : JobIn) : Bool := j.part = 0 || j.part = 1

/-- LAST or SINGLE. -/
def JobIn.closes (j : JobIn) : Bool := j.part = 0 || j.part = 3

/-- The operation makes output protected by a key that may do so: ENCRYPT, GENERATE, WRAP. -/
def JobIn.makes (j : JobIn) : Bool := j.op = 0 || j.op = 2 || j.op = 4

/-- The operation consumes a counter value (R414). -/
def JobIn.consumes (j : JobIn) : Bool := j.makes && j.mode ≤ 2

/-- Operations of a mode (R414). -/
def JobIn.opOk (j : JobIn) : Bool :=
  match j.mode with
  | 0 => j.op ≤ 1
  | 1 => j.op = 2 || j.op = 3
  | 2 => j.op ≤ 1
  | 3 => j.op = 2 || j.op = 3
  | 4 => j.op = 4 || j.op = 5
  | _ => false

/-- Output bytes of a part. -/
def JobIn.outLen (j : JobIn) : Nat :=
  match j.mode with
  | 1 => 0 | 3 => 0
  | 4 => if j.op = 4 then j.len + 8 else j.len - 8
  | _ => j.len

/-- Lengths and tag length of R414, R415 and R417. -/
def JobIn.lenBad (j : JobIn) : Bool :=
  (match j.mode with
   | 0 => j.tagLen < 12 || 16 < j.tagLen
   | 1 => j.tagLen < 12 || 16 < j.tagLen || j.len ≠ 0
   | 3 => j.tagLen < 8 || 16 < j.tagLen || j.aad ≠ 0
   | 4 => j.len % 8 ≠ 0 || (if j.op = 4 then j.len < 16 || 1016 < j.len else j.len < 24 || 1024 < j.len) || j.aad ≠ 0
   | _ => false)
  || (!j.opens && j.aad ≠ 0) || (!j.closes && j.len % 16 ≠ 0)
  || (if j.dma then
        j.src % 16 ≠ 0 || j.dst % 16 ≠ 0 ||
          !((j.src = j.dst && j.aad + j.len = j.outLen) || j.outLen = 0 || j.src + j.aad + j.len ≤ j.dst || j.dst + j.outLen ≤ j.src)
      else 1024 < j.aad + j.len)

/-- Why a part is refused, with no effect on key or message, in the order of log entry 51. -/
def State.jobRefuse (s : State) (u : Nat) (j : JobIn) : Option Nat :=
  let st := s.keyState u
  let msg := (s.cpage u).msg
  if st = 1 then some 9
  else if st = 0 then some 3
  else if st = 4 then some 2
  else if !j.opOk || (j.mode = 4 && j.part ≠ 0) then some 4
  else if st = 3 && j.makes then some 10
  else if !j.opens && (match msg with | none => true | some g => g.op ≠ j.op || g.mode ≠ j.mode) then some 6
  else if j.lenBad || (j.dma && !([0x01, 0x10, 0x11].contains (s.bound u))) then some 5
  else none

/-- The 96-bit IV of a counter value (R405, R414). -/
def ivOf (identity ctr : Nat) : Nat := 2 ^ 64 * identity + ctr

/-- The IV in CPH_JOB_IVi. -/
def State.jobIv (s : State) (u : Nat) : Nat :=
  ofBytesBE ((List.range 3).flatMap fun i => bytesLE 4 (s.get (pgCphU u) CPH_JOB_IVi.IV i))

def State.putIv (s : State) (u iv : Nat) : State :=
  (List.range 3).foldl (fun s i => s.put (pgCphU u) CPH_JOB_IVi.IV (leAt (bytesBE 12 iv) (4 * i) 4) i) s

/-- A counter value is taken: the IV is formed and reported, the counter advances, and a page that reaches LIMIT is EXHAUSTED
(R415, R416). -/
def State.takeCtr (s : State) (u : Nat) : State :=
  let b := pgCphU u
  let c := s.get b CPH_CTR.CTR
  let s := (s.putIv u (ivOf u c)).put b CPH_CTR.CTR (c + 1)
  if s.get b CPH_KEY_LIMIT.LIMIT ≤ c + 1 then s.exhaust u else s

/-- A message ends without a tag (R415, R416). -/
def State.abandon (s : State) (u : Nat) : State :=
  if (s.cpage u).msg.isSome then (s.msgEnd u).ctr (pgCphU u) CPH_PG_ABANDON_CNT.COUNT else s

def State.jobFail (s : State) (u code : Nat) : State :=
  (s.put (pgCphU u) CPH_JOB_STAT.STATE 3).put (pgCphU u) CPH_JOB_STAT.CODE code

/-- The part starts: a FIRST or SINGLE opens its message under the IV it fixes. -/
def State.jobStart (s : State) (u : Nat) (j : JobIn) : State :=
  let s := if j.opens then s.abandon u else s
  let s := if j.opens && j.consumes then s.takeCtr u else s
  let p := s.cpage u
  let iv := s.jobIv u
  let msg : Option CMsg :=
    if j.opens then some { op := j.op, mode := j.mode, key := p.key.getD [], iv := iv,
                           ctr := if j.mode = 0 then inc32 (j0 iv) else j0 iv }
    else p.msg
  let s := s.setCpage u { p with job := some {}, msg := msg }
  (s.put (pgCphU u) CPH_JOB_STAT.STATE 1).put (pgCphU u) CPH_JOB_STAT.CODE 0

/-- CPH_JOB_CTL.GO (R415, R416, R419). -/
def State.jobGo (s : State) (u : Nat) : State :=
  let j := s.jobIn u
  let blocks := s.get (pgCphU u) CPH_MSG_BLOCKS.BLOCKS
  if (s.cpage u).job.isSome then s.put (pgCphU u) CPH_JOB_STAT.CODE 9
  else
    match s.jobRefuse u j with
    | some c => s.jobFail u c
    | none =>
      if j.opens && j.consumes && s.get (pgCphU u) CPH_KEY_LIMIT.LIMIT ≤ s.get (pgCphU u) CPH_CTR.CTR then
        (s.exhaust u).jobFail u 2
      else if (j.mode = 0 ∨ j.mode = 2) ∧ 2 ^ 32 - 2 < (if j.opens then 0 else blocks) + ceilDiv j.len 16 then
        ((s.abandon u).exhaust u).jobFail u 2
      else s.jobStart u j

/-! ### Segments (R404) -/

/-- `n` bytes of the window from offset `o`. -/
def State.winBytes (s : State) (u o n : Nat) : List Byte :=
  sliceB ((List.range (ceilDiv n 4 + 1)).flatMap fun i => bytesLE 4 (s.get (pgCphU u) CPH_WIN.DATA (o / 4 + i))) (o % 4) n

/-- Write one byte of the window. -/
def State.winPut (s : State) (u o v : Nat) : State :=
  let w := s.get (pgCphU u) CPH_WIN.DATA (o / 4)
  s.put (pgCphU u) CPH_WIN.DATA (setBitsOf w (8 * (o % 4)) 8 v) (o / 4)

/-- The output of a part, from data offset `o`: to the window in place, or to the destination. -/
def State.jobOut (s : State) (u : Nat) (j : JobIn) (o : Nat) (l : List Byte) : State :=
  if l.isEmpty then s
  else if j.dma then s.emit (.dma (j.dst + o) l)
  else (l.zipIdx).foldl (fun s (b, i) => s.winPut u (j.aad + o + i) b.toNat) s

/-- AES blocks are counted for a context, with their dummy rounds: at most DUMMY_MAX for each, DUMMY_MAX while the random source has
failed (R421, R423). -/
def State.countBlocks (s : State) (n : Nat) (f : State → State) : State :=
  if n = 0 then s
  else
    let most := n * s.get pgCph CPH_CFG.DUMMY_MAX
    let d := s.draw
    let s := (f d.2).ctr pgCph CPH_BLOCK_CNT.COUNT n
    s.ctr pgCph CPH_DUMMY_CNT.COUNT (if s.get pgCph CPH_STAT.RNG_OK = 1 then d.1 % (most + 1) else most)

def State.countPage (s : State) (u n : Nat) : State :=
  s.countBlocks n fun s => s.ctr (pgCphU u) CPH_PG_BLOCK_CNT.COUNT n

/-- What one segment does to a message: the new chaining state, the output, the AES blocks it ran. -/
structure SegOut where
  msg : CMsg
  job : CJob
  out : List Byte := []
  blocks : Nat := 0
deriving DecidableEq, Repr

/-- AAD bytes of a segment, and whether data follow in it. -/
def CJob.aadStep (job : CJob) (j : JobIn) : Nat := min 4096 (j.aad - job.aad)

/-- Data bytes of a segment with `budget` AES blocks. -/
def CJob.dataStep (job : CJob) (j : JobIn) (budget : Nat) : Nat :=
  if job.aad + job.aadStep j < j.aad then 0 else min (16 * budget) (j.len - job.data)

/-- The tag mask is the first AES block of a GCM or GMAC message. -/
def CMsg.maskStep (g : CMsg) : CMsg × Nat :=
  if g.mode ≤ 1 ∧ g.mask = none then ({ g with mask := some (aes g.key (j0 g.iv)) }, 1) else (g, 0)

/-- GCM, GMAC and CTR: AAD is absorbed, data run through the counter, ciphertext is absorbed. -/
def CMsg.streamStep (g : CMsg) (aad data : List Byte) : CMsg × List Byte :=
  let h := aes g.key 0
  let out := ctrMode g.key g.ctr data
  let n := ceilDiv data.length 16
  let y := if g.mode = 2 then g.y else ghash h (ghash h g.y aad) (if g.op = 0 then out else data)
  ({ g with y := y, ctr := g.ctr / 2 ^ 32 * 2 ^ 32 + (g.ctr + n) % 2 ^ 32, aad := g.aad + aad.length, data := g.data + data.length },
   out)

/-- CMAC: the last 1 to 16 bytes wait. -/
def CMsg.cmacStep (g : CMsg) (data : List Byte) : CMsg × Nat :=
  let l := g.hold ++ data
  let n := ceilDiv l.length 16 - 1
  ({ g with y := cmacChain g.key g.y (l.take (16 * n)), hold := l.drop (16 * n), data := g.data + data.length }, n)

/-- Key wrap: up to `budget` of its 6n steps. -/
def CMsg.kwRun (g : CMsg) (job : CJob) (data : List Byte) (budget : Nat) : SegOut :=
  let wrap : Bool := g.op = 4
  let n := if wrap then data.length / 8 else data.length / 8 - 1
  let r0 : Nat × List Nat := job.kw.getD (if wrap then (kwIv, kwRegs data) else (ofBytesBE (data.take 8), kwRegs (data.drop 8)))
  let k := min budget (6 * n - job.step)
  let r := (List.range k).foldl (fun r i =>
    if wrap then kwStep g.key n r (job.step + i + 1) else kwUnstep g.key n r (6 * n - job.step - i)) r0
  { msg := g, job := { job with kw := some r, step := job.step + k, data := if job.step + k = 6 * n then data.length else job.data },
    blocks := k }

/-- One segment of at most `budget` AES blocks over the part's next AAD and data. -/
def CMsg.segment (g : CMsg) (job : CJob) (j : JobIn) (aad data whole : List Byte) (budget : Nat) : SegOut :=
  match j.mode with
  | 4 => g.kwRun job whole budget
  | 3 =>
    let r := g.cmacStep data
    { msg := r.1, job := { job with data := job.data + data.length }, blocks := r.2 }
  | _ =>
    let m := g.maskStep
    let r := m.1.streamStep aad data
    { msg := r.1, job := { job with aad := job.aad + aad.length, data := job.data + data.length }, out := r.2,
      blocks := m.2 + (if j.mode = 1 then 0 else ceilDiv data.length 16) }

/-- The input of a segment: AAD, data, and (key wrap) the whole data; a DMA job's bytes come from outside as `input`. -/
def State.segIn (s : State) (u : Nat) (j : JobIn) (job : CJob) (budget : Nat) (input : List Byte) :
    List Byte × List Byte × List Byte :=
  let a := job.aadStep j
  let d := job.dataStep j budget
  if j.dma then (sliceB input 0 a, sliceB input a d, sliceB input 0 j.len)
  else (s.winBytes u job.aad a, s.winBytes u (j.aad + job.data) d, s.winBytes u j.aad j.len)

/-- The tag of a finished message (R414). -/
def CMsg.tag (g : CMsg) : Nat :=
  if g.mode = 3 then aes g.key (g.y ^^^ cmacLast g.key g.hold)
  else ghMul (g.y ^^^ ghLens g.aad g.data) (aes g.key 0) ^^^ g.mask.getD 0

/-- The bytes of CPH_TAG0 to 3. -/
def State.tagBytes (s : State) (u : Nat) : List Byte := (List.range 4).flatMap fun i => bytesLE 4 (s.get (pgCphU u) CPH_TAGi.TAG i)

/-- The leftmost `n` bytes of a tag go to CPH_TAGi. -/
def State.putTag (s : State) (u n t : Nat) : State :=
  let l := (bytesBE 16 t).take n ++ (s.tagBytes u).drop n
  (List.range 4).foldl (fun s i => s.put (pgCphU u) CPH_TAGi.TAG (leAt l (4 * i) 4) i) s

/-- An authentication failure: no unauthenticated output of a window or SINGLE job stays (R418). -/
def State.authFail (s : State) (u : Nat) (j : JobIn) : State :=
  let s := if (j.op = 1 ∨ j.op = 5) ∧ (!j.dma ∨ j.part = 0) then s.jobOut u j 0 (List.replicate j.outLen 0#8) else s
  let s := (s.ctr (pgCphU u) CPH_PG_AUTH_FAIL_CNT.COUNT).ctr pgCph CPH_AUTH_FAIL_CNT.COUNT
  s.jobEnd u 3 1

/-- The last part ends: its tag is made or checked, its wrap delivered (R414, R415, R418). -/
def State.jobTag (s : State) (u : Nat) (j : JobIn) (g : CMsg) (job : CJob) : State :=
  let s := s.msgEnd u
  let ok : State → State := fun s => s.jobEnd u 2 0
  match j.mode with
  | 2 => ok s
  | 4 =>
    let r := job.kw.getD (0, [])
    if j.op = 4 then ok (s.jobOut u j 0 (bytesBE 8 r.1 ++ kwBytes r.2))
    else if r.1 = kwIv then ok (s.jobOut u j 0 (kwBytes r.2))
    else s.authFail u j
  | _ =>
    let s := if j.mode = 3 then s.countPage u 1 else s
    if j.makes then ok (s.putTag u j.tagLen g.tag)
    else if (bytesBE 16 g.tag).take j.tagLen = (s.tagBytes u).take j.tagLen then ok s
    else s.authFail u j

/-- The part has taken all its input. -/
def CJob.finished (job : CJob) (j : JobIn) : Bool := job.aad = j.aad && job.data = j.len

/-- Run up to `budget` AES blocks of a page's part. -/
def State.runSegment (s : State) (u budget : Nat) (input : List Byte) : State :=
  match (s.cpage u).job, (s.cpage u).msg with
  | some job, some g =>
    let j := s.jobIn u
    let mask := g.maskStep.2
    let i := s.segIn u j job (budget - (if j.mode ≤ 1 then mask else 0)) input
    let r := g.segment job j i.1 i.2.1 i.2.2 budget
    let s := s.setCpage u { s.cpage u with job := some r.job, msg := some r.msg }
    let s := s.put (pgCphU u) CPH_MSG_BLOCKS.BLOCKS (ceilDiv r.msg.data 16)
    (s.jobOut u j job.data r.out).countPage u r.blocks
  | _, _ => s

/-- A 0x01 DMA job waits while the device may issue no DMA (R64, R417). -/
def State.dmaWaits (s : State) (u : Nat) : Bool := (s.jobIn u).dma && s.bound u = 0x01 && !s.io.mayDma

/-- A user page's segment ends: the part ends, or returns to arbitration; one whose DMA waits goes on only when DMA may (R64, R417). -/
def State.userSegment (s : State) (u : Nat) (input : List Byte) (dmaOk : Bool) : State :=
  let j := s.jobIn u
  if s.dmaWaits u then s
  else if j.dma && !dmaOk then (s.msgEnd u).jobEnd u 3 7
  else
    let s := s.runSegment u 256 input
    match (s.cpage u).job, (s.cpage u).msg with
    | some job, some g =>
      if !(job.finished j) then s.freeEngines (u + 1)
      else if j.closes then s.jobTag u j g job
      else s.jobEnd u 2 0
    | _, _ => s

/-- CPH_JOB_CTL.ABORT: the job ends at the next block boundary, `done` blocks into its segment if an engine holds it (R419). -/
def State.jobAbort (s : State) (u done : Nat) (input : List Byte) : State :=
  if (s.cpage u).job.isNone then s
  else
    let held := (List.range 16).any fun e => s.cph.engine.get 0 e == u + 1
    let s := if held && !(s.dmaWaits u) then s.runSegment u (min done 256) input else s
    (s.msgEnd u).jobEnd u 3 8

/-! ### Engines (R404) -/

/-- GHASH blocks of a ledger block of `n` bytes, its length block included. -/
def ghBlocks (n : Nat) : Nat := ceilDiv n 16 + 1

/-- Quince's context has a block to tag: the first untagged one, with segments left. -/
def State.qncJob (s : State) : Option QBlock :=
  (s.qnc.blocks.find? fun b => b.tag.isNone).bind fun b => if 256 * b.segs < ghBlocks b.bytes.length then some b else none

def State.held (s : State) (ctx : Nat) : Bool := (List.range 16).any fun e => s.cph.engine.get 0 e == ctx

/-- A user page with a job ready: a 0x01 DMA job waits while Bus Master Enable is 0 (R417). -/
def State.jobReady (s : State) (u : Nat) : Bool :=
  (s.cpage u).job.isSome && !(s.held (u + 1)) &&
    !(s.dmaWaits u)

/-- A free engine is granted a segment: Quince first, then round robin (R404). -/
def State.engineGrant (s : State) (e : Nat) : State :=
  if s.cph.engine.get 0 e ≠ 0 then s
  else if s.qncJob.isSome && !(s.held 65) then s.takeEngine e 65
  else
    match (List.range 64).find? fun k => s.jobReady ((s.cph.rr + 1 + k) % 64) with
    | none => s
    | some k =>
      let u := (s.cph.rr + 1 + k) % 64
      ({ s with cph := { s.cph with rr := u } }).takeEngine e (u + 1)

/-- A segment of the Quince context ends; the first one runs the tag mask, its one AES block. -/
def State.qncSegment (s : State) : State :=
  match s.qncJob with
  | none => s.freeEngines 65
  | some b =>
    let s := { s with qnc := { s.qnc with blocks := s.qnc.blocks.map fun (x : QBlock) => if x.seq = b.seq then { x with segs := x.segs + 1 } else x } }
    let s := if b.segs = 0 then s.countBlocks 1 fun s => s.ctr pgCph CPH_QNC_BLOCK_CNT.COUNT else s
    s.freeEngines 65

/-- An engine finishes its segment. -/
def State.segmentDone (s : State) (e : Nat) (input : List Byte) (dmaOk : Bool) : State :=
  match s.cph.engine.get 0 e with
  | 0 => s
  | n + 1 => if n = 64 then s.qncSegment else s.userSegment n input dmaOk

/-! ### The random source (R411, R421, R423) -/

/-- A write of CPH_CFG: DUMMY_MAX by 0x11 only, each lowering counted (R421). -/
def State.cphCfg (s : State) (m v : Nat) : State :=
  if m ≠ 0x11 then s.err pgCph 1 m 0x040
  else
    let s := if v % 8 < s.get pgCph CPH_CFG.DUMMY_MAX then s.bump pgCph CPH_DUMMY_CFG_CNT.COUNT else s
    s.put pgCph CPH_CFG.DUMMY_MAX v

/-- A health test fails. -/
def State.rngFail (s : State) : State :=
  ((s.bump pgCph CPH_RNG_FAIL_CNT.COUNT).put pgCph CPH_STAT.RNG_OK 0).raise pgCph 1

def State.rngRecover (s : State) : State := s.put pgCph CPH_STAT.RNG_OK 1

/-- The boot nonce is drawn and the boot key derived (R411); the start-up tests have passed. -/
def State.bootNonce (s : State) : State :=
  let d := s.draw
  let s := (List.range 4).foldl (fun s i => s.put pgCph CPH_BOOT_NONCEi.NONCE (d.1 / 2 ^ (32 * i)) i) d.2
  let nonce := (List.range 4).flatMap fun i => bytesLE 4 (s.get pgCph CPH_BOOT_NONCEi.NONCE i)
  let label := [0x54#8, 0x58#8, 0x39#8, 0x36#8, 0x34#8, 0x30#8, 0x2D#8, 0x42#8, 0x4F#8, 0x4F#8, 0x54#8]
  let s := { s with cph := { s.cph with bootKey := kdf (bytesBE 32 Config.rootKey.toNat) label nonce 256 } }
  s.put pgCph CPH_STAT.RNG_OK 1

end Sys2Proof.Machine
end

