-- ==== Sys2Proof/Machine/Tel.lean ====
section
/-!
DEFINITION. Telemetry (R334 to R348, R355): IPFIX export, sampling, tagging, snapshots and the elephant tables.
-/
namespace Sys2Proof.Machine

/-- The page of the device-wide TEL fields (R355). -/
def pgE : Nat := pgTel 0

/-! ### IPFIX messages (R334 to R338) -/

/-- Elements of a template: IE number and length (R336). -/
def ipfixStart4 : List (Nat × Nat) := [(148, 8), (152, 8), (8, 4), (12, 4), (7, 2), (11, 2), (4, 1), (234, 4)]
def ipfixStart6 : List (Nat × Nat) := [(148, 8), (152, 8), (27, 16), (28, 16), (7, 2), (11, 2), (4, 1), (234, 4)]
def ipfixStart2 : List (Nat × Nat) := [(148, 8), (152, 8), (56, 6), (80, 6), (256, 2), (234, 4)]
def ipfixEnd : List (Nat × Nat) := [(153, 8), (86, 8), (85, 8), (136, 1)]
def ipfixSample : List (Nat × Nat) := [(323, 8), (10, 4), (305, 4), (312, 2), (315, 65535)]

/-- The seven templates of R336. -/
def ipfixTemplates : List (Nat × List (Nat × Nat)) :=
  [(256, ipfixStart4), (257, ipfixStart6), (258, ipfixStart4 ++ ipfixEnd), (259, ipfixStart6 ++ ipfixEnd),
   (260, ipfixStart2), (261, ipfixStart2 ++ ipfixEnd), (262, ipfixSample)]

/-- A set: ID, length, content. -/
def ipfixSet (id : Nat) (body : List Byte) : List Byte := bytesBE 2 id ++ bytesBE 2 (body.length + 4) ++ body

/-- The Data Sets of a message: the records of one template share one (R334). -/
def ipfixSets (rs : List (Nat × List Byte)) : List Byte :=
  ((rs.map (·.1)).eraseDups).flatMap fun t => ipfixSet t ((rs.filter fun r => r.1 = t).flatMap (·.2))

/-- A message with its header (R334). -/
def Io.ipfixMessage (s : Io) (seq : Nat) (body : List Byte) : List Byte :=
  bytesBE 2 0x000A ++ bytesBE 2 (body.length + 16) ++ bytesBE 4 s.sec ++ bytesBE 4 seq ++
    bytesBE 4 (s.get pgE TEL_EXPORT_DOMAIN.ID) ++ body

/-- The ring entries that carry `n` message bytes (R335). -/
def ipfixEntries (msg : List Byte) : List Line :=
  (List.range (ceilDiv msg.length 56)).map fun i =>
    lineOfBytes 512 (bytesLE 4 0 ++ (if i = 0 then bytesLE 2 msg.length else bytesLE 2 0) ++ bytesLE 2 0 ++
      sliceB msg (56 * i) 56)

/-- Emit a message on ring 35 and count it. -/
def Io.ipfixEmit (s : Io) (body : List Byte) : Io :=
  (s.ringPut 35 (ipfixEntries (s.ipfixMessage (s.get pgE TEL_EXPORT_SEQ.SEQ) body))).ctr pgE TEL_MSG_CNT.COUNT

/-- The message in assembly is emitted; its records advance the sequence number (R334). -/
def State.ipfixFlush (s : State) : State :=
  if s.tel.msg.isEmpty then s
  else
    let n := s.tel.msg.length
    let s := s.upIo fun io => io.ipfixEmit (ipfixSets s.tel.msg)
    { s.bump pgE TEL_EXPORT_SEQ.SEQ n with tel := { s.tel with msg := [] } }

/-- A record joins the message in assembly, which is emitted first when the record would take it past MAX_LEN (R334). -/
def State.ipfixAdd (s : State) (t : Nat) (r : List Byte) : State :=
  let s := if s.get pgE TEL_EXPORT_MSG.MAX_LEN < 16 + (ipfixSets (s.tel.msg ++ [(t, r)])).length then s.ipfixFlush else s
  let at' := if s.tel.msg.isEmpty then s.io.time.counted else s.tel.msgAt
  { s with tel := { s.tel with msg := s.tel.msg ++ [(t, r)], msgAt := at' } }

/-- The Template Set as a message of its own (R337). -/
def State.templateSend (s : State) : State :=
  if !(s.feature 9) then s
  else
    s.upIo fun io => io.ipfixEmit (ipfixSet 2 (ipfixTemplates.flatMap fun t =>
      bytesBE 2 t.1 ++ bytesBE 2 t.2.length ++ t.2.flatMap fun e => bytesBE 2 e.1 ++ bytesBE 2 e.2))

/-- START_SEC as a time of the present (R338). -/
def Io.startMs (s : Io) (startSec : Nat) : Nat :=
  let hi := s.sec / 2 ^ 32 * 2 ^ 32
  (if s.sec % 2 ^ 32 < startSec then hi - 2 ^ 32 + startSec else hi + startSec) * 1000

/-- The start elements of a record, and the template of its kind: 0 IPv4, 1 IPv6, 2 L2 (R336, R338). -/
def Io.startFields (s : Io) (r : Nat) (hot cold : Line) : Nat × List Byte :=
  let k := bytesLE 40 (cKey.get cold)
  let orig := hOrigLo.get hot = 1
  let src := sliceB k (if orig then 0 else 16) 16
  let dst := sliceB k (if orig then 16 else 0) 16
  let sp := sliceB k (if orig then 32 else 34) 2
  let dp := sliceB k (if orig then 34 else 32) 2
  let zone := beAt k 38 2 % 4096
  let kind := beAt k 37 1 % 4
  let head := bytesBE 8 r ++ bytesBE 8 (s.startMs (cStart.get cold))
  let ports := sp ++ dp ++ sliceB k 36 1 ++ bytesBE 4 zone
  match kind with
  | 0 => (256, head ++ src.drop 12 ++ dst.drop 12 ++ ports)
  | 1 => (257, head ++ src ++ dst ++ ports)
  | _ => (260, head ++ src.drop 10 ++ dst.drop 10 ++ sp ++ bytesBE 4 zone)

/-- flowEndReason of a removal cause (R338). -/
def endReason (cause : Nat) : Nat :=
  match cause with
  | 0 => 0x01
  | 1 => 0x05
  | 2 => 0x03
  | _ => 0x04

/-- The end elements of a record (R338). -/
def Io.endFields (s : Io) (hot : Line) (cause : Nat) : List Byte :=
  let e := s.time.ns - subMod 24 (seenNow s.time.ns) (hSeen.get hot) * 2 ^ 20
  bytesBE 8 (e / 1000000) ++ bytesBE 8 (hPkts.get hot) ++ bytesBE 8 (hBytes.get hot) ++ bytesBE 1 (endReason cause)

/-- The class of a record is exported. -/
def State.classOut (s : State) (hot : Line) : Bool := (s.get pgE TEL_EXPORT_CFG.CLASS_MASK).testBit (hClass.get hot)

/-- Set the start queue and its registers. -/
def State.setStartQ (s : State) (l : List (Nat × Nat × Nat)) : State :=
  let s := { s with tel := { s.tel with startQ := l } }
  (s.put pgE TEL_START_Q.DEPTH l.length).upIo fun io => io.maxTo pgE TEL_START_Q.HIGH l.length

/-- A setup COMMIT makes a record ACTIVE: it joins the start queue (R339). -/
def State.startPush (s : State) (r hash key : Nat) : State :=
  if !(s.feature 9) ∨ s.get pgE TEL_EXPORT_CFG.START_EN = 0 then s
  else if 4096 ≤ s.tel.startQ.length then (s.ctr pgE TEL_START_DROP_CNT.COUNT).raiseOnce pgE 0
  else s.setStartQ (s.tel.startQ ++ [(r, hash, key)])

/-- The two halves of a record as a background read finds them: the hot half of a resident line without a read (R273, R339). -/
def State.startHalves (s : State) (r key : Nat) (es : List ReadEnd) : Option Line × Option Line × State :=
  let (hot, es, s) := match s.wayOf key r with
    | some i => (some (s.cacheAt i).data, es, s)
    | none => let x := s.readNow (s.hotLoc r) 4 0 false es; (x.1, es.drop 2, x.2)
  let (cold, s) := s.readNow (s.coldLoc r) 4 0 false es
  (hot, cold, s)

/-- The record that a queued start entry names is the one it was made for, ACTIVE and of a class that is exported (R339). -/
def State.startFits (s : State) (hash key : Nat) (hot : Line) : Bool :=
  hKey.get hot == key && hHash.get hot == hash && hLife.get hot == lifeActive && s.classOut hot

/-- START_RECORD_READ: the read of the oldest queued entry's record returns (R339). -/
def State.startRead (s : State) (es : List ReadEnd) : State :=
  match s.tel.startQ with
  | [] => s
  | (r, hash, key) :: t => s.bgRun 0 2 fun s =>
    let s := s.setStartQ t
    match s.startHalves r key es with
    | (some h, some c, s) =>
      if s.startFits hash key h then
        let f := s.io.startFields r h c
        (s.ipfixAdd f.1 f.2).ctr pgE TEL_START_REC_CNT.COUNT
      else s.ctr pgE TEL_START_SKIP_CNT.COUNT
    | (_, _, s) => s.ctr pgE TEL_START_SKIP_CNT.COUNT

/-- Step 4 of R187 hands a removed record's halves to the exporter (R340). -/
def State.endRecord (s : State) (r : Nat) (hot cold : Line) (cause : Nat) : State :=
  if !(s.feature 9) ∨ s.get pgE TEL_EXPORT_CFG.END_EN = 0 ∨ !(s.classOut hot) then s
  else
    let f := s.io.startFields r hot cold
    let s := (s.ipfixAdd (if f.1 = 260 then 261 else f.1 + 2) (f.2 ++ s.io.endFields hot cause)).ctr pgE TEL_END_REC_CNT.COUNT
    let mine := fun (e : Nat × Nat × Nat) => e.2.1 = hHash.get hot && e.2.2 == hKey.get hot
    let gone := (s.tel.startQ.filter mine).length
    if gone = 0 then s
    else (s.setStartQ (s.tel.startQ.filter fun e => !(mine e))).ctr pgE TEL_START_SKIP_CNT.COUNT gone

/-- IPFIX_EXPORT becomes active: the Template Set; or is withdrawn: the queue is skipped and the message emitted (R337, R341). -/
def State.ipfixFeature (s : State) (was now : Bool) : State :=
  if !was ∧ now then { s with tel := { s.tel with tmplAt := s.io.time.counted } }.templateSend
  else if was ∧ !now then
    ((s.ctr pgE TEL_START_SKIP_CNT.COUNT s.tel.startQ.length).setStartQ []).ipfixFlush
  else s

/-! ### Sampling and tagging (R342, R343) -/

/-- Sampling, tagging and snapshots are not suspended (R353). -/
def State.telOn (s : State) : Bool := s.get pgE TEL_SUSPEND.TELEM = 0

/-- The PACKET_SAMPLE record of a frame as received. -/
def State.sampleRecord (s : State) (p : Nat) (k : Pkt) : State :=
  let d := k.bytes ++ fcsOf k.bytes
  let sec := d.take 128
  let r := bytesBE 8 (s.io.time.ns / 1000000) ++ bytesBE 4 k.inPort ++
    bytesBE 4 (max 1 (s.get (pgTel p) TEL_SAMPLE_CFG.N)) ++ bytesBE 2 d.length ++ bytesBE 1 sec.length ++ sec
  (s.ipfixAdd 262 r).ctr (pgTel p) TEL_SAMPLE_CNT.COUNT

/-- A first-pass packet is considered for sampling (R342). -/
def State.sample (s : State) (p : Nat) (k : Pkt) : State :=
  if !(s.feature 9) ∨ s.get (pgTel p) TEL_SAMPLE_CFG.EN = 0 ∨ !(s.telOn) ∨
      !((s.get (pgTel p) TEL_SAMPLE_LIM.PORTS).testBit (k.inPort % 16)) then s
  else
    let (v, s) := s.draw
    if 2 ^ 32 / max 1 (s.get (pgTel p) TEL_SAMPLE_CFG.N) ≤ v % 2 ^ 32 then s
    else
      let ms := s.io.time.ns / 1000000
      let was := s.tel.sampled.get (0, 0) p
      let n := if was.1 = ms then was.2 else 0
      let lim : Nat := s.get (pgTel p) TEL_SAMPLE_LIM.MAX_PER_MS
      if lim ≠ 0 ∧ lim ≤ n then s.ctr (pgTel p) TEL_SAMPLE_LIMITED_CNT.COUNT
      else { s with tel := { s.tel with sampled := s.tel.sampled.set (0, 0) p (ms, n + 1) } }.sampleRecord p k

/-- A packet takes tracker entry `i` of its pipeline. -/
def State.tagTake (s : State) (p i len : Nat) (k : Pkt) : State :=
  let n := s.tel.tagSeq.get 0 p
  let t : Tag := { pipe := p, inPort := k.inPort, bank := k.bank % 2, seq := n % 2 ^ 32, ts := k.ts, len := len,
                   parse := some s.io.now16 }
  let s := { s with tel := { s.tel with tags := s.tel.tags.set none (32 * p + i) (some t), tagSeq := s.tel.tagSeq.set 0 p (n + 1) } }
  (s.put (pgTel p) TEL_TAG_STAT.BUSY (s.tagsBusy p)).ctr (pgTel p) TEL_TAG_CNT.COUNT

/-- A first-pass packet is tagged with probability 2^−LOG2 (R343); its tracker entry. -/
def State.tagPacket (s : State) (p len : Nat) (k : Pkt) : State × Option Nat :=
  if !(s.feature 10) ∨ s.get (pgTel p) TEL_TAG_CFG.EN = 0 ∨ !(s.telOn) then (s, none)
  else
    let (v, s) := s.draw
    if v % 2 ^ s.get (pgTel p) TEL_TAG_CFG.LOG2 ≠ 0 then (s, none)
    else
      match (List.range 32).find? fun i => (s.tel.tags.get none (32 * p + i)).isNone with
      | none => (s.ctr (pgTel p) TEL_TAG_NOENTRY_CNT.COUNT, none)
      | some i => (s.tagTake p i len k, some (32 * p + i))

/-! ### Queue snapshots (R345) -/

/-- Ports selected for snapshots, ascending. -/
def State.snapPorts (s : State) : List Nat :=
  (List.range 128).filter fun n => (s.get pgE TEL_SNAP_PORTSi.PORTS (n / 32)).testBit (n % 32)

/-- The ring 36 entry of a port. -/
def State.snapEntry (s : State) (n : Nat) (last : Bool) : Line :=
  lineOfBytes 512 (bytesLE 4 0 ++ bytesLE 1 n ++ bytesLE 1 (b2n last) ++ bytesLE 2 0 ++ bytesLE 4 s.tel.snapSeq ++
    bytesLE 4 s.io.nsec ++ bytesLE 6 s.io.sec ++ bytesLE 2 0 ++
    ((List.range 8).flatMap fun q => bytesLE 4 (s.occ (8 * n + q))) ++
    bytesLE 4 (s.get (pgTmbP n) TMB_PORT_OCC.CELLS) ++ bytesLE 4 (s.get pgTmb TMB_POOL_STAT.FREE))

/-- A snapshot is taken, or skipped while the previous one is still being written. -/
def State.snapTake (s : State) (busy : Bool) : State :=
  if busy then (s.ctr pgE TEL_SNAP_SKIP_CNT.COUNT).raise pgE 1
  else
    let l := s.snapPorts
    let es := l.map fun n => s.snapEntry n (l.getLast? == some n)
    let s := { s with tel := { s.tel with snapSeq := (s.tel.snapSeq + 1) % 2 ^ 32 } }
    es.foldl (fun s e => s.upIo fun io => io.ringPut 36 [e]) s

/-- The periodic snapshot: only while EN = 1 and telemetry is not suspended. -/
def State.snapPeriodic (s : State) (busy : Bool) : State :=
  if s.get pgE TEL_SNAP_CFG.EN = 1 ∧ s.telOn then s.snapTake busy else s

/-- A snapshot by NOW, whether or not EN is set; telemetry that is suspended takes none (R345, R353). -/
def State.snapAsked (s : State) (busy : Bool) : State := if s.telOn then s.snapTake busy else s

/-! ### Elephants (R348) -/

def State.eleAt (s : State) (p i : Nat) : Option (Nat × Nat) := s.tel.ele.get none (512 * p + i)

/-- The entry with the fewest bytes, the lowest among equals. -/
def State.eleLeast (s : State) (p : Nat) : Nat :=
  ((List.range 512).foldl (fun (b : Nat × Nat) i =>
    let n := ((s.eleAt p i).map (·.2)).getD 0
    if n < b.2 then (i, n) else b) (0, 2 ^ 70)).1

/-- A first-pass packet adds its length to its record's entry. -/
def State.eleAdd (s : State) (p r len : Nat) : State :=
  let put := fun (i n : Nat) => { s with tel := { s.tel with ele := s.tel.ele.set none (512 * p + i) (some (r, n)) } }
  match (List.range 512).find? fun i => ((s.eleAt p i).map (·.1)) == some r with
  | some i => put i (((s.eleAt p i).map (·.2)).getD 0 + len)
  | none =>
    match (List.range 512).find? fun i => (s.eleAt p i).isNone with
    | some i => put i len
    | none => let i := s.eleLeast p; put i (((s.eleAt p i).map (·.2)).getD 0 + len)

/-- Insert by falling byte count, ties after. -/
def eleSort (e : Nat × Nat) : List (Nat × Nat) → List (Nat × Nat)
  | [] => [e]
  | x :: t => if x.2 < e.2 then e :: x :: t else x :: eleSort e t

/-- The window end of one block: at most 8 events, the largest first, and an empty table. -/
def State.eleEnd (s : State) (p : Nat) : State :=
  let big := ((List.range 512).filterMap fun i => s.eleAt p i).filter fun e => s.get pgE TEL_ELE_BYTES.BYTES ≤ e.2
  let top := (big.foldl (fun l e => eleSort e l) []).take 8
  let s := { s with tel := { s.tel with ele := s.tel.ele.drop fun k => k / 512 = p } }
  if !(s.policyOn 0) then s
  else top.foldl (fun s e =>
    let h := s.curHot e.1
    (s.post 0x11 [e.1, hHash.get h, hKey.get h, e.2]).ctr (pgTel p) TEL_ELE_EVT_CNT.COUNT) s

/-- ELEPHANT_WINDOW_END: after WIN_EPOCHS boundary events each block posts its candidates and clears its table. -/
def State.eleWindow (s : State) : State :=
  let e : Nat := s.get pgEpc EPC_EPOCH_NUM.NUM
  if subMod 32 e s.tel.eleAt < max 1 (s.get pgE TEL_ELE_CFG.WIN_EPOCHS) then s
  else
    let s := { s with tel := { s.tel with eleAt := e }, policy := { s.policy with window := s.policy.window + 1 } }
    (List.range 8).foldl (fun s p => s.eleEnd p) s

end Sys2Proof.Machine
end

