-- ==== Sys2Proof/Machine/Ledger.lean ====
section
/-!
DEFINITION. Quince and the sealed metering ledger (R372 to R401): rolls, losses, closes, blocks, keys, persistence.
-/
namespace Sys2Proof.Machine

def State.upQnc (s : State) (f : Qnc → Qnc) : State := { s with qnc := f s.qnc }

/-- Parity of the open period (R375). -/
def State.parity (s : State) : Nat := s.get pgQnc QNC_CLOSE_NUM.NUM % 2

/-! ### Accounts (R375, R377, R383) -/

def aTotPkts : HF := ⟨0, 64⟩
def aTotBytes : HF := ⟨64, 64⟩
def aPendPkts (p : Nat) : HF := ⟨128 + 128 * p, 64⟩
def aPendBytes (p : Nat) : HF := ⟨192 + 128 * p, 64⟩
def aEnded (p : Nat) : HF := ⟨384 + 32 * p, 32⟩
def aLastClose : HF := ⟨448, 32⟩
def aLoss (p : Nat) : HF := ⟨480 + p, 1⟩
def aReported : HF := ⟨482, 1⟩

/-- The account's bit in the touched bitmap of a parity. -/
def State.touch' (s : State) (par a : Nat) : State :=
  s.upQnc fun q => { q with touched := q.touched.set false (4194304 * par + a) true }

/-- An account whose two copies are uncorrectable starts afresh, with LOSS for the open parity (R383). -/
def State.accountLost (s : State) (a : Nat) : State :=
  let s := s.writeNow (accountLoc a) ((aLoss s.parity).set 0 1) 4 0x30
  let s := (s.ctr pgQnc QNC_LOST_ACCT_CNT.COUNT).upQnc fun q => { q with lostAcct := q.lostAcct + 1 }
  ((s.touch' s.parity a).raise pgQnc 3).report 2 12 pgQnc a 0

/-- An entry as Quince reads it with drain-wait; `none`: it was lost and has been written afresh. -/
def State.readAccount (s : State) (a : Nat) (es : List ReadEnd) : Option Line × State :=
  match s.readNow (accountLoc a) 4 0x30 true es with
  | (some v, s) => (some v, s)
  | (none, s) => (none, s.accountLost a)

/-- An accumulator account added to an entry. -/
def QAcc.into (x : QAcc) (v : Line) : Line :=
  let v := (aPendPkts x.par).set v ((aPendPkts x.par).get v + x.pkts)
  let v := (aPendBytes x.par).set v ((aPendBytes x.par).get v + x.bytes)
  let v := (aEnded x.par).set v ((aEnded x.par).get v + x.ended)
  if x.loss then (aLoss x.par).set v 1 else v

/-- The least recently added account is written to its entry (R377). -/
def State.accEvict (s : State) (es : List ReadEnd) : State :=
  match s.qnc.acc with
  | [] => s
  | x :: t =>
    let r := (s.upQnc fun q => { q with acc := t }).readAccount x.acct es
    let v := r.1.getD (r.2.lineView (accountLoc x.acct))
    r.2.writeNow (accountLoc x.acct) (x.into v) 4 0x30

/-- Add to the accumulator under the open period's parity; `es`: how the reads of an eviction end. -/
def State.accAdd' (s : State) (a pkts bytes ended : Nat) (loss : Bool) (es : List ReadEnd) : State :=
  let par := s.parity
  let mine := fun (x : QAcc) => x.acct == a && x.par == par
  let s := s.touch' par a
  match s.qnc.acc.find? mine with
  | some x =>
    let y : QAcc := { x with pkts := x.pkts + pkts, bytes := x.bytes + bytes, ended := x.ended + ended, loss := x.loss || loss }
    s.upQnc fun q => { q with acc := (q.acc.filter fun z => !(mine z)) ++ [y] }
  | none =>
    let s := if 4096 ≤ s.qnc.acc.length then s.accEvict es else s
    let y : QAcc := { acct := a, par := par, pkts := pkts, bytes := bytes, ended := ended, loss := loss }
    s.upQnc fun q => { q with acc := q.acc ++ [y] }

/-- The unrolled difference of a record: packets and bytes (R377). -/
def rollDelta (hot cold : Line) : Nat × Nat :=
  (subMod 40 (hSealPkts.get hot) (cRolledPkts.get cold), subMod 56 (hSealBytes.get hot) (cRolledBytes.get cold))

/-- Roll a record's difference into its account. -/
def State.roll (s : State) (hot cold : Line) (ended : Nat) (es : List ReadEnd) : State :=
  let d := rollDelta hot cold
  s.accAdd' (hAccount.get hot) d.1 d.2 ended false es

/-- A record is declared lost (R382, R476): `acct` its ACCOUNT when readable. -/
def State.declareLost (s : State) (acct : Option Nat) (es : List ReadEnd) : State :=
  let s := (s.ctr pgQnc QNC_LOST_REC_CNT.COUNT).upQnc fun q => { q with lostRec := q.lostRec + 1 }
  let s := s.raise pgQnc 2
  match acct with
  | some a => s.accAdd' a 0 0 0 true es
  | none => s

/-! ### The sweeper (R378, R380) -/

/-- Write tag of the sweeper's ROLLED write. -/
def sweepTag : Nat := 2 ^ 65

/-- A final roll of the record has started and its LIFE = FREE write has not been made (R380). -/
def State.finalStarted (s : State) (r : Nat) : Bool :=
  s.flow.removals.any fun (x : Removal) =>
    match x.stage with
    | .rolling _ _ => x.r == r || x.partner == some r
    | _ => false

/-- The sweeper moves to the next index; at the end of a pass its duration is kept. -/
def State.sweepNext (s : State) : State :=
  let s := s.ctr pgQnc QNC_SWEPT_CNT.COUNT
  if s.qnc.sweepPos + 1 < 67108864 then s.upQnc fun q => { q with sweepPos := q.sweepPos + 1 }
  else
    let d := s.io.time.counted - s.qnc.sweepStart
    let s := s.upQnc fun q => { q with sweepPos := 0, passNs := d, sweepStart := s.io.time.counted }
    (s.ctr pgQnc QNC_PASS_CNT.COUNT).put pgQnc QNC_SWEEP_PASS_US.US (min (2 ^ 32 - 1) (d / 1000))

/-- SWEEP_VISIT: steps 1 and 2 of R378. -/
def State.sweepVisit (s : State) (es : List ReadEnd) : State :=
  if !(s.feature 5) ∨ s.qnc.sweep.isSome then s
  else s.bgRun 0x30 1 fun s =>
    let r := s.qnc.sweepPos
    let s := s.sweepNext
    match s.readNow (s.hotLoc r) 4 0x30 true es with
    | (none, s) => let h := s.lineView (s.hotLoc r); s.loseHot (hHash.get h) (hKey.get h) r
    | (some h, s) =>
      if hLife.get h ≠ lifeActive ∨ hSealEn.get h = 0 ∨ hSealDirty.get h = 0 then s
      else if s.finalStarted r then s.ctr pgQnc QNC_DISCARD_CNT.COUNT
      else s.upQnc fun q => { q with sweep := some { r := r, hot := h } }

/-- SWEEP_COLD_READ: steps 3 to 5 of R378; a cold half no copy can give is declared and written afresh. -/
def State.sweepCold (s : State) (es : List ReadEnd) : State :=
  match s.qnc.sweep with
  | some x =>
    if x.stage ≠ .cold then s
    else s.bgRun 0x30 1 fun s =>
      let c := s.readNow (s.coldLoc x.r) 4 0x30 true es
      let s := match c.1 with
        | some cold => (c.2.roll x.hot cold 0 (es.drop 2)).ctr pgQnc QNC_ROLL_CNT.COUNT
        | none => c.2.declareLost (some (hAccount.get x.hot)) (es.drop 2)
      let v := c.1.getD (s.lineView (s.coldLoc x.r))
      let v := cRolledBytes.set (cRolledPkts.set v (hSealPkts.get x.hot)) (hSealBytes.get x.hot)
      (s.issueWrite (s.coldLoc x.r) v 4 0x30 sweepTag).upQnc fun q => { q with sweep := some { x with stage := .written } }
  | none => s

/-- The compare-and-clear of R188: the current copy's SEAL_PKTS must equal the rolled value. -/
def State.sealClear (s : State) (r pkts : Nat) : State :=
  if hSealPkts.get (s.curHot r) = pkts then s.updateHot r 4 0x30 fun h => hSealDirty.set h 0 else s

/-- SWEEP_ROLLED_ACCEPTED: step 6 of R378. -/
def State.sweepAccepted (s : State) : State :=
  match s.qnc.sweep with
  | some x =>
    if x.stage ≠ .written ∨ !(s.accepted sweepTag) then s
    else (s.upQnc fun q => { q with sweep := none }).sealClear x.r (hSealPkts.get x.hot)
  | none => s

/-! ### Removals end (R187 steps 3 to 5, R379, R380, R382) -/

/-- The final hot half of a removed record, handed to the exporter with its cold half. -/
def State.finalOne (s : State) (r cause : Nat) (es : List ReadEnd) : Option Line × State :=
  match s.finalHot r es with
  | (none, s) => (none, s.loseRecord r)
  | (some h, s) =>
    match s.readNow (s.coldLoc r) 2 0x20 true (es.drop 2) with
    | (some c, s) => (some h, s.endRecord r h c cause)
    | (none, s) => let d := s.draw; (some h, d.2.endRecord r h (BitVec.ofNat 512 d.1) cause)

/-- LIFE FREE, resources released, index returned (R187 step 5). -/
def State.finalFree (s : State) (r : Nat) (hot : Option Line) : State :=
  match hot with
  | none => s
  | some h => (s.teardownBlock (cTeardown.get (s.curCold r))).freeRecord r h

def State.dropRemoval (s : State) (id : Nat) : State :=
  { s with flow := { s.flow with removals := s.flow.removals.filter fun (x : Removal) => x.id != id } }

/-- Both records of a removal are freed and the removal is over. -/
def State.removalDone (s : State) (x : Removal) (h1 h2 : Option Line) : State :=
  let s := s.finalFree x.r h1
  let s := match x.partner with
    | some q => s.finalFree q h2
    | none => s
  s.dropRemoval x.id

/-- REMOVAL_FINAL_READ: step 4 of R187; a record that is sealed goes on to its final roll. -/
def State.removalFinal (s : State) (es : List ReadEnd) : State :=
  match s.flow.removals.find? fun (x : Removal) => x.stage == .reading with
  | none => s
  | some x =>
    let a := s.finalOne x.r x.cause es
    let b := match x.partner with
      | some q => a.2.finalOne q x.cause (es.drop 4)
      | none => (none, a.2)
    if b.2.feature 5 then
      { b.2 with flow := { b.2.flow with removals := b.2.flow.removals.map fun (y : Removal) =>
          if y.id == x.id then { x with stage := .rolling a.1 b.1 } else y } }
    else b.2.removalDone x a.1 b.1

/-- The final roll of one record (R379). -/
def State.finalRollOne (s : State) (r : Nat) (hot : Option Line) (es : List ReadEnd) : State :=
  match hot with
  | none => s
  | some h =>
    if hSealEn.get h = 0 then s
    else
      match s.readNow (s.coldLoc r) 4 0x30 true es with
      | (some c, s) => (s.roll h c 1 (es.drop 2)).ctr pgQnc QNC_FINAL_ROLL_CNT.COUNT
      | (none, s) => s.declareLost (some (hAccount.get h)) (es.drop 2)

/-- The sweeper rolls record `r`, and its ROLLED write is not accepted yet. -/
def State.sweepBusy (s : State) (r : Nat) : Bool :=
  match s.qnc.sweep with
  | some x => x.r == r && !(x.stage == .written && s.accepted sweepTag)
  | none => false

/-- A removal whose final roll may run, with the final hot halves: no sweep roll of its records is under way (R380). -/
def State.rollReady (s : State) (x : Removal) : Option (Removal × Option Line × Option Line) :=
  match x.stage with
  | .rolling h1 h2 => if s.sweepBusy x.r || (x.partner.map s.sweepBusy).getD false then none else some (x, h1, h2)
  | _ => none

/-- FINAL_ROLL: after any sweep roll of the same record has had its ROLLED write accepted (R380). -/
def State.finalRoll (s : State) (es : List ReadEnd) : State :=
  match s.flow.removals.findSome? s.rollReady with
  | none => s
  | some (x, h1, h2) => s.bgRun 0x30 1 fun s =>
    let s := s.finalRollOne x.r h1 es
    let s := match x.partner with
      | some q => s.finalRollOne q h2 (es.drop 4)
      | none => s
    s.removalDone x h1 h2

/-- LOST_RECORD_READ: a lost record whose halves are readable is rolled, else declared; then it is free (R382). -/
def State.lostRead (s : State) (es : List ReadEnd) : State :=
  match s.flow.lost with
  | [] => s
  | r :: t => s.bgRun 0x30 2 fun s =>
    let s := { s with flow := { s.flow with lost := t } }
    let a := s.readNow (s.hotLoc r) 4 0x30 true es
    let b := a.2.readNow (s.coldLoc r) 4 0x30 true (es.drop 2)
    let s :=
      if !(b.2.feature 5) then b.2
      else
        match a.1, b.1 with
        | some h, some c =>
          if hSealEn.get h = 1 then (b.2.roll h c 1 (es.drop 4)).ctr pgQnc QNC_FINAL_ROLL_CNT.COUNT else b.2
        | some h, none => b.2.declareLost (some (hAccount.get h)) (es.drop 4)
        | none, _ => b.2.declareLost none (es.drop 4)
    s.freeRecord r (a.1.getD 0)

/-! ### Blocks (R387 to R389) -/

def secNs (ns : Nat) : List Byte := bytesBE 6 (ns / 1000000000) ++ bytesBE 4 (ns % 1000000000)

/-- The header of block `index` of a close (R387). -/
def CloseHead.bytes (h : CloseHead) (seq prevTag blocks index entries : Nat) (last : Bool) : List Byte :=
  bytesBE 4 0x514C4231 ++ [1#8] ++ bytesBE 1 (if index = 0 then h.kind else 2) ++ bytesBE 2 (h.flags + b2n last) ++
    bytesBE 8 seq ++ bytesBE 16 prevTag ++ bytesBE 8 Config.uid.toNat ++ bytesBE 4 h.keyId ++ bytesBE 4 h.num ++
    bytesBE 4 h.firstEpoch ++ bytesBE 4 h.lastEpoch ++ secNs h.openNs ++ secNs h.closeNs ++ bytesBE 1 h.l ++ bytesBE 1 h.locks ++
    bytesBE 2 index ++ bytesBE 2 blocks ++ bytesBE 2 entries ++ bytesBE 4 h.deferred ++ bytesBE 4 h.lostRec ++
    bytesBE 4 h.lostAcct ++ secNs h.gapNs ++ secNs h.aliveNs ++ bytesBE 4 h.gen ++ bytesBE 8 0

/-- A block entry (R388) for an account whose parity `par` is reported, and the entry as written back (R386 step 3). -/
def closeEntry (a par num : Nat) (v : Line) : List Byte × Line :=
  let first : Bool := aReported.get v = 0
  let dp := (aPendPkts par).get v
  let db := (aPendBytes par).get v
  let tp := if first then dp else aTotPkts.get v + dp
  let tb := if first then db else aTotBytes.get v + db
  (bytesBE 4 a ++ bytesBE 1 ((aLoss par).get v + 2 * b2n first) ++ bytesBE 3 0 ++ bytesBE 8 dp ++ bytesBE 8 db ++ bytesBE 8 tp ++
     bytesBE 8 tb ++ bytesBE 4 ((aEnded par).get v) ++ bytesBE 4 0,
   aLastClose.set (aReported.set ((aLoss par).set ((aEnded par).set ((aPendBytes par).set ((aPendPkts par).set
     (aTotBytes.set (aTotPkts.set v tp) tb) 0) 0) 0) 0) 1) num)

/-- SEQ 2^64 − 1 has been given to a block (R399). -/
def State.seqSpent (s : State) : Bool :=
  s.get pgQnc QNC_STAT.EXHAUSTED = 1 || s.qnc.blocks.any fun b => b.seq == 2 ^ 64 - 1

/-- The block being filled is complete: it joins the blocks to be tagged with the next SEQ (R386 step 4). -/
def State.completeBlock (s : State) (c : Close) : State :=
  let last : Bool := c.index + 1 = c.blocks
  let s := s.upQnc fun q => { q with close := if last then none else some { c with index := c.index + 1, entries := [] } }
  if s.seqSpent then s
  else
    let seq := s.get pgQnc QNC_NEXT_SEQ.SEQ
    let bytes := c.head.bytes seq 0 c.blocks c.index c.entries.length last ++ c.entries.flatten
    let b : QBlock := { seq := seq, bytes := bytes, last := last, index := c.index, head := c.head }
    (s.upQnc fun q => { q with blocks := q.blocks ++ [b] }).put pgQnc QNC_NEXT_SEQ.SEQ (seq + 1)

/-- The account has pending packets or bytes of a parity, in its entry `v` or in the accumulator (R383). -/
def State.owed (s : State) (par a : Nat) (v : Line) : Bool :=
  (aPendPkts par).get v != 0 || (aPendBytes par).get v != 0 ||
    s.qnc.acc.any fun x => x.acct == a && x.par == par && (x.pkts != 0 || x.bytes != 0)

/-- A lost line of a touched bitmap is rebuilt from the 512 accounts it covers (R383); the accounts it then marks. -/
def State.rebuildTouched (s : State) (par line : Nat) : List Nat × State :=
  (List.range 512).foldl (fun r i =>
    let a := 512 * line + i
    let (v, s) := r.2.readAccount a []
    let on := s.owed par a (v.getD (s.lineView (accountLoc a)))
    (if on then r.1 ++ [a] else r.1, s.upQnc fun q => { q with touched := q.touched.set false (4194304 * par + a) on })) ([], s)

/-- The bitmap line of the account the close comes to is uncorrectable in both copies (R383). -/
def State.closeBitmapLost (s : State) : State :=
  match s.qnc.close with
  | none => s
  | some c =>
    match c.todo with
    | [] => s
    | a :: _ =>
      let (l, s) := s.rebuildTouched (c.head.num % 2) (a / 512)
      s.upQnc fun q => { q with close := some { c with todo := l ++ c.todo.filter fun x => x / 512 != a / 512 } }

/-- Where the walk has filled a block or has ended, blocks are completed; BLOCKS_IN_CLOSE of them in all. -/
def State.closeBlocks (s : State) : State :=
  match s.qnc.close with
  | none => s
  | some c =>
    let n := if c.todo.isEmpty then c.blocks - c.index else b2n (c.entries.length == 1024)
    (List.range n).foldl (fun s _ => match s.qnc.close with | some c => s.completeBlock c | none => s) s

/-- CLOSE_ENTRY_READ: the next touched account of the close; its accumulator account is written to the entry first (R386).
`lost`: the bitmap line that names the account could not be read. -/
def State.closeRead (s : State) (lost : Bool) (es : List ReadEnd) : State :=
  let s := if lost then s.closeBitmapLost else s
  match s.qnc.close with
  | none => s
  | some c =>
    match c.todo with
    | [] => s.closeBlocks
    | a :: t => s.bgRun 0x30 1 fun s =>
      let par := c.head.num % 2
      let mine := fun (x : QAcc) => x.acct == a && x.par == par
      let held := s.qnc.acc.find? mine
      let r := s.readAccount a es
      let s := r.2.upQnc fun q => { q with touched := q.touched.set false (4194304 * par + a) false,
                                           acc := q.acc.filter fun x => !(mine x) }
      let s := match r.1, held with
        | some v, _ =>
          let v := match held with
            | some x => x.into v
            | none => v
          let e := closeEntry a par c.head.num v
          let s := s.writeNow (accountLoc a) e.2 4 0x30
          s.upQnc fun q => { q with close := some { c with todo := t, entries := c.entries ++ [e.1] } }
        | none, some x =>
          let s := s.accAdd' a x.pkts x.bytes x.ended true (es.drop 2)
          s.upQnc fun q => { q with close := some { c with todo := t } }
        | none, none => s.upQnc fun q => { q with close := some { c with todo := t } }
      s.closeBlocks

/-! ### Closes (R384 to R386, R398) -/

/-- The kind of the first block of the close now due. -/
def State.closeKind (s : State) : Nat :=
  if !s.qnc.started then 1 else if s.qnc.first && s.qnc.boot.isSome then 3 else if s.qnc.pend.isSome then 4 else 2

/-- QNC_LOCKS[4:0]. -/
def State.qncLocks (s : State) : Nat := (s.io.rd (pgQnc + 0x068)).toNat % 32

/-- Everything the blocks of the close say: `num` its number, `at'` its instant, `l` its period exponent. -/
def State.closeHead (s : State) (num at' l keyId lastEpoch : Nat) : CloseHead :=
  let q := s.qnc
  let resume := if q.first then q.boot else none
  let partial' := (resume.map fun h => !h.last).getD false
  let untimed := q.first && resume.isSome && q.bootUntimed
  let flags := 2 * b2n (2 ^ l < q.passNs) + 4 * b2n q.timeStep + 8 * b2n partial' + 16 * b2n (q.lostRec != 0 || q.lostAcct != 0) +
    32 * b2n untimed + 64 * b2n q.directTx
  { kind := s.closeKind, flags := flags, keyId := keyId, num := num, firstEpoch := q.firstEpoch, lastEpoch := lastEpoch,
    openNs := q.openNs, closeNs := at', l := l, locks := s.qncLocks, deferred := q.deferred, lostRec := q.lostRec,
    lostAcct := q.lostAcct, gapNs := (resume.map fun h => if h.last then h.closeNs else h.openNs).getD 0,
    aliveNs := if resume.isSome then q.bootAlive else 0, gen := s.get pgQnc QNC_ASSIGN_GEN.GEN }

/-- The pending key comes into force. -/
def State.keyInForce (s : State) : State :=
  match s.qnc.pend with
  | none => s
  | some k => (s.upQnc fun q => { q with key := some k, pend := none }).put pgQnc QNC_KEY_ID.ID k.id

/-- The close (R386): the parity is frozen, the period that follows opens. -/
def State.closeNow (s : State) (at' lastEpoch l : Nat) : State :=
  let num := s.get pgQnc QNC_CLOSE_NUM.NUM
  let keyId := match s.qnc.pend, s.qnc.key with
    | some k, _ => k.id
    | none, some k => k.id
    | none, none => 0
  let h := s.closeHead num at' l keyId lastEpoch
  let par := num % 2
  let todo := (s.qnc.touched.keys.filter fun k => k / 4194304 = par).map fun k => k % 4194304
  let c : Close := { head := h, todo := todo, blocks := max 1 (ceilDiv todo.length 1024) }
  let s := if s.qnc.first then { s with io := { s.io with nvm := { s.io.nvm with untimed := false } } } else s
  let s := s.keyInForce.upQnc fun q =>
    { q with close := some c, first := false, started := true, openNs := at', firstEpoch := (lastEpoch + 1) % 2 ^ 32,
             lForce := s.get pgQnc QNC_CFG.L, deferred := 0, lostRec := 0, lostAcct := 0, timeStep := false, directTx := false }
  let s := ((s.put pgQnc QNC_CLOSE_NUM.NUM (num + 1)).put pgQnc QNC_STAT.EMITTING 1).put pgQnc QNC_STAT.DEFERRING 0
  if todo.isEmpty then s.completeBlock c else s

/-- Blocks staged and not yet on the ring. -/
def State.staged' (s : State) : Nat := (s.qnc.blocks.filter fun b => b.persisted).length

/-- A close is allowed at all (R384, R398, R399). -/
def State.mayClose (s : State) : Bool :=
  s.feature 5 && s.qnc.key.isSome && s.io.time.set && s.get pgQnc QNC_STAT.EXHAUSTED = 0 && s.get pgQnc QNC_STAT.HEAD_LOST = 0

/-- A boundary event at instant `at'`, ending epoch `lastEpoch`: a close when a multiple of 2^L has been crossed (R384, R385). -/
def State.qncBoundary (s : State) (at' lastEpoch : Nat) : State :=
  let l := if s.qnc.first then s.get pgQnc QNC_CFG.L else s.qnc.lForce
  let due := decide (s.qnc.lookNs / 2 ^ l < at' / 2 ^ l)
  let s := s.upQnc fun q => { q with lookNs := at' }
  if !due ∨ !s.mayClose then s
  else if s.get pgQnc QNC_STAT.EMITTING = 1 ∨ 4096 < s.staged' then
    (((s.ctr pgQnc QNC_DEFER_CNT.COUNT).upQnc fun q => { q with deferred := q.deferred + 1 }).put pgQnc QNC_STAT.DEFERRING 1).raise
      pgQnc 1
  else s.closeNow at' lastEpoch l

/-- The time base was stepped from `old`; `setting`: this step set it (R384, R398). -/
def State.qncStep (s : State) (old : Nat) (setting : Bool) : State :=
  let now := s.io.time.ns
  let s := if setting ∨ now < old then s.upQnc fun q => { q with lookNs := now } else s
  if s.qnc.first then s.upQnc fun q => { q with openNs := ((q.openNs : Int) + now - old).toNat }
  else s.upQnc fun q => { q with timeStep := true }

/-! ### Tagging, persistence, ring 32 (R389 to R391, R396, R397) -/

/-- The IV of a block: Quince's page identity, then SEQ (R389). -/
def blockIv (seq : Nat) : Nat := ivOf 0x00000100 seq

def State.upBlock (s : State) (seq : Nat) (f : QBlock → QBlock) : State :=
  s.upQnc fun q => { q with blocks := q.blocks.map fun (b : QBlock) => if b.seq = seq then f b else b }

/-- BLOCK_TAGGED: the engine has absorbed the first untagged block; its tag is taken with PREV_TAG in place. -/
def State.blockTagged (s : State) : State :=
  match s.qnc.blocks.find? fun (b : QBlock) => b.tag.isNone with
  | none => s
  | some b =>
    if 256 * b.segs < ghBlocks b.bytes.length then s
    else
      let bytes := patchB b.bytes 16 (bytesBE 16 s.qnc.prevTag)
      let key := match s.qnc.key with
        | some k => bytesBE 32 k.key.toNat
        | none => []
      let tag := gmac key (blockIv b.seq) bytes
      let s := (s.upBlock b.seq fun x => { x with bytes := bytes, tag := some tag }).upQnc fun q => { q with prevTag := tag }
      let s := (s.ctr pgQnc QNC_BLOCK_CNT.COUNT).ctr pgQnc QNC_ENTRY_CNT.COUNT (beAt bytes 82 2)
      if b.seq = 2 ^ 64 - 1 then (s.put pgQnc QNC_STAT.EXHAUSTED 1).raise pgQnc 5 else s

/-- A head is written to the slot that does not hold the newest valid head (R396). -/
def State.writeHead (s : State) (h : QHead) : State :=
  { s with io := { s.io with nvm := { s.io.nvm with heads := h :: s.io.nvm.heads.take 1 } } }

def QKey.stored (k : QKey) : Nat × List Byte := (k.id, k.wrapped)

/-- The newest head, with the keys now held. -/
def State.headNow (s : State) : QHead :=
  { (s.io.nvm.heads.headD {}) with key := s.qnc.key.map QKey.stored, pend := s.qnc.pend.map QKey.stored }

def State.backlog (s : State) : State :=
  let n := s.staged'
  (s.put pgQnc QNC_BACKLOG.BLOCKS n).put pgQnc QNC_BACKLOG.HIGH (max n (s.get pgQnc QNC_BACKLOG.HIGH))

/-- HEAD_PERSISTED: the head of the first tagged block is in the store and the block is staged (R386, R391, R396). -/
def State.headPersisted (s : State) : State :=
  match s.qnc.blocks.find? fun (b : QBlock) => !b.persisted with
  | none => s
  | some b =>
    match b.tag with
    | none => s
    | some tag =>
      let s := s.writeHead { s.headNow with hasBlock := true, seq := b.seq, tag := tag, num := b.head.num, openNs := b.head.openNs,
                                            closeNs := b.head.closeNs, index := b.index, last := b.last }
      let s := (s.upBlock b.seq fun x => { x with persisted := true }).backlog
      let s := if s.staged' = 4096 then s.raise pgQnc 7 else s
      if b.last ∨ b.seq = 2 ^ 64 - 1 then
        ((s.put pgQnc QNC_STAT.EMITTING 0).upQnc fun q => { q with close := none }).raise pgQnc 0
      else s

/-- BLOCK_TO_RING: the oldest staged block goes onto ring 32 once all its entries fit (R390).  `lost`: both its copies are
uncorrectable, so its SEQ never reaches the ring and the loss is reported (R391, code 16). -/
def State.blockToRing (s : State) (lost : Bool) : State :=
  match s.qnc.blocks with
  | [] => s
  | b :: t =>
    if !b.persisted then s
    else if lost then ((s.upQnc fun q => { q with blocks := t }).backlog).report 2 16 pgQnc b.seq 0
    else
      let es := ipfixEntries (b.bytes ++ bytesBE 16 (b.tag.getD 0))
      if s.io.ringSize 32 ≤ es.length then s.raise pgQnc 6
      else if s.io.ringRoom 32 es.length then
        ((s.upIo fun io => io.ringWrite 32 es).upQnc fun q => { q with blocks := t }).backlog
      else s

/-- The present time base is written as ALIVE while it is set (R397, R473). -/
def State.writeAlive (s : State) (ns : Nat) : State :=
  if s.feature 5 ∧ s.io.time.set then { s with io := { s.io with nvm := { s.io.nvm with alive := some ns } } } else s

/-- ALIVE_PERSIST: the time base has reached a multiple of 2^20 ns (R397). -/
def State.alivePersist (s : State) : State :=
  let s := { s with io := { s.io with time := { s.io.time with due := { s.io.time.due with alive := 0 } } } }
  s.writeAlive (s.io.time.ns / 2 ^ 20 * 2 ^ 20)

/-! ### Keys (R393) -/

/-- KEY_STAT.CODE, with KEY_EVENT when it changes. -/
def State.keyCode (s : State) (c : Nat) : State :=
  let s' := s.put pgQnc QNC_KEY_STAT.CODE c
  if s.get pgQnc QNC_KEY_STAT.CODE = c then s' else s'.raise pgQnc 4

def State.sameId (s : State) (id : Nat) : Bool :=
  (s.qnc.key.map fun k => k.id == id).getD false || (s.qnc.pend.map fun k => k.id == id).getD false

/-- A write of QNC_KEY_CTL.LOAD by 0x11. -/
def State.qncLoad (s : State) : State :=
  let id := s.qnc.newId
  if !(s.feature 5) then s.keyCode 6
  else if s.qnc.load.isSome then s.keyCode 7
  else if s.get pgQnc QNC_LOCKS.KEY = 1 then s.keyCode 4
  else if s.sameId id then s.keyCode 5
  else
    let w := (List.range 10).flatMap fun i => bytesLE 4 (s.qnc.wrap.get 0 i).toNat
    s.upQnc fun q => { q with load := some (id, w) }

/-- A stored or delivered key, unwrapped under the device identity key. -/
def unwrapKey (k : Nat × List Byte) : Option QKey :=
  (kwUnwrap (bytesBE 32 Config.identityKey.toNat) k.2).map fun b => { id := k.1, wrapped := k.2, key := BitVec.ofNat 256 (ofBytesBE b) }

/-- KEY_UNWRAP_DONE: the key is persisted and installed, or pending; or BAD_WRAP. -/
def State.qncUnwrapped (s : State) : State :=
  match s.qnc.load with
  | none => s
  | some l =>
    let s := s.upQnc fun q => { q with load := none }
    match unwrapKey l with
    | none => s.keyCode 3
    | some k =>
      if s.qnc.key.isSome then
        let s := s.upQnc fun q => { q with pend := some k }
        (s.writeHead s.headNow).keyCode 2
      else
        let s := (s.upQnc fun q => { q with key := some k }).put pgQnc QNC_KEY_ID.ID k.id
        (s.writeHead s.headNow).keyCode 1

/-! ### Boot (R392, R398) -/

/-- Step 7 of the boot: the newest valid head is taken; `bad` head slots, the newest first, fail their check. -/
def State.qncBoot (s : State) (bad : Nat) : State :=
  let s := s.upQnc fun q =>
    { q with openNs := s.io.time.ns, lookNs := s.io.time.ns, firstEpoch := s.get pgEpc EPC_EPOCH_NUM.NUM,
             bootAlive := s.io.nvm.alive.getD 0, bootUntimed := s.io.nvm.untimed, sweepStart := s.io.time.counted }
  match s.io.nvm.heads, s.io.nvm.heads.drop bad with
  | [], _ => s
  | _, [] => (s.put pgQnc QNC_STAT.HEAD_LOST 1).report 2 17 pgQnc 0 0
  | _, h :: _ =>
    let key := h.key.bind unwrapKey
    let s := s.upQnc fun q => { q with key := key, pend := h.pend.bind unwrapKey, started := h.hasBlock }
    let s := s.put pgQnc QNC_KEY_ID.ID ((key.map QKey.id).getD 0)
    if !h.hasBlock then s
    else
      let s := s.upQnc fun q => { q with boot := some h, prevTag := h.tag }
      let s := (s.put pgQnc QNC_NEXT_SEQ.SEQ (h.seq + 1)).put pgQnc QNC_CLOSE_NUM.NUM (h.num + 1)
      if h.seq = 2 ^ 64 - 1 then s.put pgQnc QNC_STAT.EXHAUSTED 1 else s

/-! ### Registers (R394, R395, R401) -/

/-- QNC_STAT as it reads. -/
def State.qncStat (s : State) : Nat :=
  (s.io.rd (pgQnc + 0x048)).toNat + 8 * b2n s.qnc.pend.isSome + 4 * b2n s.io.time.set + 2 * b2n s.qnc.key.isSome + b2n (s.feature 5)

/-- QNC_SWEEP_LAG_US as it reads. -/
def State.sweepLag (s : State) : Nat :=
  min (2 ^ 32 - 1) ((s.io.time.counted - s.qnc.sweepStart) / 1000 - 67108864 / max 1 (s.get pgQnc QNC_SWEEP_CFG.RATE))

/-- A write of QNC_CFG: L, unless locked, clamped to 26 to 34 (R394, R401). -/
def State.qncCfg (s : State) (m v : Nat) : State :=
  if s.get pgQnc QNC_LOCKS.PERIOD = 1 then s.err pgQnc 1 m 0x040
  else s.put pgQnc QNC_CFG.L (if v % 32 < 26 then 26 else v % 32)

def State.qncSweepCfg (s : State) (v : Nat) : State :=
  s.put pgQnc QNC_SWEEP_CFG.RATE (if v % 256 < 25 then 25 else min 200 (v % 256))

/-- A write of word `w` of QNC_CLASSn: locked, SRC 6 or 7 refused, else accepted and counted in ASSIGN_GEN (R374, R394). -/
def State.qncClass (s : State) (n w m v : Nat) : State :=
  let off := 0x100 + 8 * n + 4 * w
  if s.get pgQnc QNC_LOCKS.CLASS = 1 then s.err pgQnc 1 m off
  else if w = 0 ∧ 6 ≤ bitsOf v 29 3 then s.err pgQnc 3 m off
  else
    let v := if w = 0 then v / 65536 * 65536 else v % 4194304
    (s.upIo fun io => io.wr (pgQnc + off) (BitVec.ofNat 32 v)).bump pgQnc QNC_ASSIGN_GEN.GEN

/-- A frame the host sent straight to a port queue was admitted (R395); `l`: its length L. -/
def State.directTx (s : State) (l : Nat) : State :=
  if s.feature 5 then
    ((s.ctr pgQnc QNC_DIRECT_TX_CNT.COUNT).ctr pgQnc QNC_DIRECT_TX_BYTES.COUNT l).upQnc fun q => { q with directTx := true }
  else s

/-! ### TABLE 0x07 (R376) -/

def State.accountRead (s : State) (c : Cmd) (_ : Nat) (es : List ReadEnd) : State × Res :=
  if !(s.feature 5) then (s, { code := ccNoFeature })
  else if !c.indirect ∨ c.len ≠ 64 then (s, { code := ccBadCommand })
  else if 4194304 ≤ c.idx then (s, { code := ccBadIndex })
  else
    match s.readNow (accountLoc c.idx) 3 0x01 false es with
    | (some v, s) => (s, { data := bytesLE 64 v.toNat })
    | (none, s) => (s, { code := ccMemError })

def State.accountSealed (s : State) (_ : Cmd) (_ : Nat) : State × Res :=
  (s, { code := if s.feature 5 then ccSealed else ccNoFeature })

/-- The map entry INDEX names. -/
def mapIndex (c : Cmd) : Option Nat := if 0x10000 ≤ c.idx ∧ c.idx < 0x11000 then some (c.idx - 0x10000) else none

def State.mapRead (s : State) (c : Cmd) (_ : Nat) : State × Res :=
  if !(s.feature 5) then (s, { code := ccNoFeature })
  else
    match mapIndex c with
    | none => (s, { code := ccBadIndex })
    | some a => (s, { data := bytesLE 1 (s.mapAt a).toNat })

def State.mapWrite (s : State) (c : Cmd) (_ : Nat) : State × Res :=
  if !(s.feature 5) then (s, { code := ccNoFeature })
  else
    match mapIndex c with
    | none => (s, { code := ccBadIndex })
    | some a =>
      if 16 ≤ c.le 16 1 then (s, { code := ccBadCommand })
      else if s.get pgQnc QNC_LOCKS.MAP = 1 then (s, { code := ccLocked })
      else
        let s := s.upQnc fun q => { q with map := q.map.set 0 a (BitVec.ofNat 4 (c.le 16 1)) }
        (s.bump pgQnc QNC_ASSIGN_GEN.GEN, {})

end Sys2Proof.Machine
end

