-- ==== Sys2Proof/Machine/Dispose.lean ====
section
/-!
DEFINITION. What a packet becomes (R195 to R206, R213 to R217, R225 to R231): its chain, edits, destination and copies, the counts
it leaves in its record, and the end of its pass.
-/
namespace Sys2Proof.Machine

/-! ### Ports across a cascade (R448 to R450, R462) -/

/-- The cascade is active in a role that shares ports: widen or deepen. -/
def State.cascPorts (s : State) : Bool :=
  s.get pgCsc CSC_STAT.ACTIVE = 1 && (s.get pgCsc CSC_STAT.ROLE = 1 || s.get pgCsc CSC_STAT.ROLE = 2)

def State.deepen (s : State) : Bool := s.get pgCsc CSC_STAT.ACTIVE = 1 && s.get pgCsc CSC_STAT.ROLE = 2

/-- The links to a device that carry packets, ascending. -/
def State.linksTo (s : State) (d : Nat) : List Nat :=
  (List.range 4).filter fun k =>
    s.get pgCsc CSC_LINK_STATk.UP k = 1 && s.get pgCsc CSC_LINK_STATk.PEER_ID k = d && !(tb s.csc.mism k)

/-- The link a packet takes to a device (R448). -/
def State.linkFor (s : State) (d hash : Nat) : Option Nat :=
  let l := s.linksTo d
  l[bitsOf hash 16 2 % max 1 l.length]?

/-- A stack header (R449). -/
def stackHeader (typ src dst link inPort eport b3 ptpOff len hash ts w24 logical : Nat) : BitVec 256 :=
  lineOfBytes 256 (bytesLE 1 (typ * 64 + src * 16 + dst * 4 + link) ++ bytesLE 1 inPort ++ bytesLE 1 eport ++ bytesLE 1 b3 ++
    bytesLE 2 ptpOff ++ bytesLE 2 len ++ bytesLE 4 hash ++ bytesLE 4 (ts / 65536 % 1000000000) ++
    bytesLE 6 (ts / 65536 / 1000000000) ++ bytesLE 2 ts ++ bytesLE 2 w24 ++ bytesLE 1 logical)

/-- The logical source port of local port `n`: the lowest value whose map entry names it (R462). -/
def State.logicalPort (s : State) (n : Nat) : Nat :=
  ((List.range 128).find? fun v =>
    s.get pgCsc CSC_PORT_MAPv.EN v = 1 && s.get pgCsc CSC_PORT_MAPv.DEV v = s.get pgCsc CSC_STAT.ID &&
      s.get pgCsc CSC_PORT_MAPv.PORT v = n).getD 0xFF

/-- Admit a copy to a stack queue (R450): class 0 DATA, 1 STEER. -/
def State.admitStack (s : State) (link cls : Nat) (c : Copy) (ele : Bool) : State × Bool :=
  match s.judgeQueue (stackQ link cls) c.cells ele with
  | some r => (if r = .poolEmpty then s.ctr pgTmb TMB_POOL_EMPTY_CNT.COUNT else s, false)
  | none => (s.enqueue (stackQ link cls) c, true)

/-- A DATA copy to port `port` of device `dev` (R462, R463). -/
def State.admitData (s : State) (dev port q hash inPort : Nat) (mirror : Bool) (c : Copy) (ele : Bool) : State × Bool :=
  match s.linkFor dev hash with
  | none => (s.ctr pgCsc CSC_NOPATH_CNT.COUNT, false)
  | some k =>
    let h := stackHeader 2 (s.get pgCsc CSC_STAT.ID) dev k inPort port (q + 8 * b2n mirror + 16 * c.ptp.op) c.ptp.off c.len hash
      c.ts 0 0
    s.admitStack k 0 { c with stack := h } ele

/-- A copy for a port value below 128: a local port, a port of another device, or none (R299, R462). -/
def State.admitValue (s : State) (v q hash inPort : Nat) (mirror : Bool) (c : Copy) (ele : Bool) : State × Bool :=
  if s.cascPorts ∧ !(s.portExists v) ∧ s.get pgCsc CSC_PORT_MAPv.EN v = 1 ∧
      s.get pgCsc CSC_PORT_MAPv.DEV v ≠ s.get pgCsc CSC_STAT.ID then
    s.admitData (s.get pgCsc CSC_PORT_MAPv.DEV v) (s.get pgCsc CSC_PORT_MAPv.PORT v) q hash inPort mirror c ele
  else s.admitPort v q c ele

/-! ### Drops (R202, R231) -/

/-- The cause an ACT reason raises (R232). -/
def reasonIrq (r : Nat) : Option Nat :=
  match r with
  | 11 => some 0 | 12 => some 1 | 10 => some 2 | 14 => some 3 | 16 => some 4 | 19 => some 5 | 13 => some 6
  | _ => none

/-- Count a drop with a device reason (R231, R232). -/
def State.countDrop (s : State) (p reason tc unit : Nat) : State :=
  let s := s.upIo fun io => io.event p (pgAct p) { ACT_REASON_CNTr.COUNT with off := ACT_REASON_CNTr.COUNT.off + 8 * reason }
    { code := 0x0B, tc := tc, unit := unit }
  match reasonIrq reason with
  | some b => s.raiseOnce (pgAct p) b
  | none => s

/-- A host copy of a stored packet. -/
def State.copyHost (s : State) (p q : Nat) (c : Copy) : State × Bool :=
  let (s, ok) := s.admitHost q c
  (if ok then s.ctr (pgAct p) ACT_HOST_CNT.COUNT else s, ok)

/-- The exception copy of a dropped packet, when its bit asks for one (R231). -/
def State.exceptionCopy (s : State) (p reason : Nat) (c : Copy) : State × Bool :=
  if reason < 8 ∨ 22 < reason ∨ !((s.get (pgAct p) ACT_EXC_COPY.EN).testBit (reason - 8)) then (s, false)
  else
    let ts := s.get (pgAct p) ACT_CFG.EXC_TS = 1
    s.copyHost p (s.get (pgAct p) ACT_CFG.EXC_Q)
      { c with reason := reason, trailer := ts, len := c.len + (if ts then 16 else 0) }

/-! ### The end of a pass (R365) -/

/-- The packet's ingress port has a slot in pipeline `p`. -/
def inPipe (p port : Nat) : Option Nat := if port / 16 = p then some (port % 16) else none

/-- A pass ends: its slot is classed RETIRED or WASTED. -/
def State.passEnd (s : State) (p port : Nat) (retired : Bool) : State :=
  let b := pgPmcL p
  s.upIo fun io =>
    let io := io.put b PMC_SLOT_INFLIGHT.COUNT (io.get b PMC_SLOT_INFLIGHT.COUNT - 1)
    let io := if retired then (io.ctr b PMC_SLOT_RETIRED.COUNT).accAdd b PMC_WIN_RETIRED.SLOTS
              else (io.ctr b PMC_SLOT_WASTED.COUNT).accAdd b PMC_WIN_WASTED.SLOTS
    match inPipe p port with
    | none => io
    | some j =>
      let io := io.accAdd b PORT_SLOTS_USED.COUNT 1 j
      if retired then io else io.accAdd b PORT_SLOTS_WASTED.COUNT 1 j

/-- The copy that a packet's stored bytes make for the host or a port. -/
def Pass.copy (ps : Pass) (p id len r : Nat) : Copy :=
  { pkt := id, len := len, ts := ps.pkt.ts, pipe := p, srcPort := ps.hv.inPort, frec := r }

/-- A packet is dropped with a device reason: counted once, its exception copy made, its trace record written, its pass over.
`bytes` is the frame as it stands; `r` its record. -/
def State.dropPass (s : State) (p : Nat) (ps : Pass) (reason : Nat) (bytes : List Byte) (r tc : Nat) : State :=
  let s := s.countDrop p reason tc (r / 4096)
  let (id, s) := s.newStored bytes
  let (s, ok) := s.exceptionCopy p reason (ps.copy p id (bytes.length + 4) r)
  let s := (s.placed id).traceDone ps.pkt.tag 2 reason none
  s.passEnd p ps.hv.inPort ok

/-- A packet that obtained no record (R174, R175): NO_FLOW. -/
def State.dropNoFlow (s : State) (p : Nat) (ps : Pass) : State :=
  let (v, s) := s.draw
  let s := s.ctr (pgFlw p) FLW_NOCREATE_CNT.COUNT
  s.dropPass p ps 8 ps.pkt.bytes (v % 67108864) 0

/-! ### The record's part (R166, R196, R225 to R230) -/

/-- The action bank of a pass (R49). -/
def Pass.actBank (ps : Pass) : Nat := ps.pkt.bank / 2 % 2

/-- DIR: 0 when the packet comes from the side the record was created from (R166). -/
def Pass.dir (ps : Pass) (h : Line) : Nat := if ps.srcLow == (hOrigLo.get h == 1) then 0 else 1

/-- The record profile, or PLAIN without tracking when it is not valid in the bank (R196). -/
def State.recProf (s : State) (p : Nat) (ps : Pass) (h : Line) : Prof :=
  if s.profOn p (hAction.get h) ps.actBank then s.prof p (hAction.get h) else 0

/-- The TCP flags of the hashed layer of a packet whose TCP header has been parsed. -/
def Pass.tcpFlags (ps : Pass) : Option Nat :=
  if ps.hv.hashInner then (if ps.hv.l4i = 1 then some ps.hv.inTcpf else none)
  else if ps.hv.l4o = 1 then some ps.hv.outTcpf else none

/-- The zone of a pass's key. -/
def Pass.zone (ps : Pass) : Nat := beAt ps.block 38 2 % 4096

/-- TCP tracking of a first pass: the record after it, and whether the packet is invalid (R225 to R228). -/
def State.tcpTrack (s : State) (p : Nat) (ps : Pass) (rp : Prof) (h : Line) : Line × Bool :=
  match ps.tcpFlags with
  | none => (h, false)
  | some f =>
    if prTcp rp = 0 then (h, false)
    else
      let linked := hLinked.get h = 1
      let x := tcpNext (hTcp.get h) ((ps.dir h + hReply.get h) % 2) f (prMid rp) linked
      if x.1 = hTcp.get h then (h, x.2)
      else (hClass.set (hTcp.set h x.1) (s.tcpClass p ps.zone x.1 linked), x.2)

/-- FLOWLET_TS units of the time base. -/
def flowletNow (ns : Nat) : Nat := bitsOf ns 10 16

/-- The first pass of a packet in its record (R229): counts, LAST_SEEN, TCP state, FLOWLET_TS. -/
def State.firstPass (s : State) (p : Nat) (ps : Pass) (rp : Prof) (h : Line) : Line × Bool :=
  let (h, bad) := s.tcpTrack p ps rp h
  let h := hPkts.set h (hPkts.get h + 1)
  let h := hBytes.set h (hBytes.get h + ps.pkt.firstLen)
  let h := hSeen.set h ps.seen
  (if prKind rp = 1 ∧ ps.dir h = 0 then setData h (patchB (dataBytes h) 4 (bytesLE 2 (flowletNow s.io.time.ns))) else h, bad)

/-- The sealed update of R230. -/
def sealLine (h : Line) (len : Nat) : Line :=
  hSealDirty.set (hSealBytes.set (hSealPkts.set h (hSealPkts.get h + 1)) (hSealBytes.get h + len)) 1

/-- The run's first sealed update before its time base is set is recorded in the store, until the run's first close (R397). -/
def State.noteUntimed (s : State) : State :=
  if s.io.time.set ∨ !s.qnc.first then s else { s with io := { s.io with nvm := { s.io.nvm with untimed := true } } }

def State.sealUpdate (s : State) (p i tc : Nat) (ps : Pass) : State :=
  let h := (s.cacheAt i).data
  if s.feature 5 ∧ hSealEn.get h = 1 then
    (s.noteUntimed.updateLine i fun h => sealLine h ps.pkt.firstLen).upIo fun io =>
      io.event p (pgAct p) ACT_SEALED_CNT.COUNT { code := 0x0D, tc := tc, unit := lineRec (s.cacheAt i) / 4096 }
  else s

/-! ### Destinations (R199 to R201, R214, R215) -/

/-- Where the destination copy of a pass goes. -/
inductive Dest where
  | drop (reason : Nat)
  | port (v : Nat)
  | host (q reason : Nat)
deriving DecidableEq, Repr

/-- Resolve a port value (R199): `hostReason` for 0xFE, `dropReason` for a discard. -/
def resolvePort (v q hostReason dropReason : Nat) : Dest :=
  if v < 128 then .port v else if v = 0xFE then .host q hostReason else .drop dropReason

/-- The fallback: the profile's PORT, a discard taking `dropReason`. -/
def fallback (d : Prof) (dropReason : Nat) : Dest := resolvePort (prPort d) (prHostQ d) (64 + prReason d) dropReason

/-- The pool of a record of KIND LB for this packet (R212, R214). -/
def lbPoolOf (rp : Prof) (lk : Lookup) : Option Nat :=
  if prPoolLpm rp then (if lk.lpmHit ∧ bitsOf lk.lpmRes 28 4 = 1 then some (bitsOf lk.lpmRes 0 10) else none)
  else some (prPool rp)

/-- The selection of R212 for a packet, by the FLOW_HASH of this pass (R175). -/
def State.lbSelect (s : State) (ps : Pass) (rp : Prof) : Option Nat :=
  (lbPoolOf rp ps.lk).bind fun pool => s.lbChoose pool ps.hv.hash (lbScan s.deepen) fun _ => false

/-- Pin a record to a member: MEMBER, PORT and REPINNED are rewritten (R214, R215). -/
def State.repin (s : State) (p i m : Nat) : State :=
  let s := s.updateLine i fun h =>
    let d := dataBytes h
    setData h (patchB d 0 (bytesLE 2 m ++ bytesLE 1 (memPort (s.member m)) ++ bytesLE 1 (setBitsOf (leAt d 3 1) 2 1 1)))
  s.ctr (pgAct p) ACT_REPIN_CNT.COUNT

/-- Flowlet repinning of a DIR 0 packet on its first pass, whatever its destination (R215); `h0` is the record before this packet. -/
def State.flowlet (s : State) (p : Nat) (ps : Pass) (rp : Prof) (i : Nat) (h0 : Line) : State :=
  let gap := ((lbPoolOf rp ps.lk).map fun k => (s.act.gap.get 0 k).toNat).getD 0
  let d := dataBytes h0
  let now := s.io.time.ns
  let elapsed : Bool := gap ≤ subMod 16 (flowletNow now) (leAt d 4 2) || 64 ≤ subMod 24 (seenNow now) (hSeen.get h0)
  if prKind rp ≠ 1 ∨ ps.dir h0 ≠ 0 ∨ !(s.feature 14) ∨ gap = 0 ∨ !elapsed then s
  else
    match s.lbSelect ps rp with
    | none => s.ctr (pgAct p) ACT_REPIN_BLOCKED_CNT.COUNT
    | some m =>
      if m = leAt d 0 2 % 2 ^ 14 then s
      else if leAt d 3 1 % 4 = 0 ∧ !(memDnat (s.member m)) ∧ !(memDmac (s.member m)) then s.repin p i m
      else s.ctr (pgAct p) ACT_REPIN_BLOCKED_CNT.COUNT

/-- Where PORT of a pinned record sends a packet: 0xFF has no member (R214). -/
def pinnedPort (d : Prof) (v : Nat) : Dest := if v = 0xFF then .drop 14 else resolvePort v (prHostQ d) (64 + prReason d) 22

/-- A DIR 0 packet follows its pinned member, repinned when that is DOWN (R214). -/
def State.lbPinned (s : State) (p : Nat) (ps : Pass) (rp d : Prof) (i : Nat) : State × Dest :=
  let a := dataBytes (s.cacheAt i).data
  let st := s.memberState (leAt a 0 2 % 2 ^ 14)
  if st = 1 ∨ st = 2 then (s, pinnedPort d (leAt a 2 1))
  else if leAt a 3 1 % 4 = 0 then
    match s.lbSelect ps rp with
    | none => (s, .drop 14)
    | some m => (s.repin p i m, pinnedPort d (memPort (s.member m)))
  else (s.submitRemoval (lineRec (s.cacheAt i)) 2 p, .drop 15)

/-- DEST = LPM (R199, R200); `lb`: what TYPE 1 gives. -/
def lpmDest (ps : Pass) (d : Prof) (lb : Option Dest) : Dest :=
  let v := ps.lk.lpmRes
  if !ps.lk.lpmHit then fallback d 21
  else
    match bitsOf v 28 4 with
    | 0 => resolvePort (bitsOf v 0 8) (prHostQ d) 25 21
    | 1 => lb.getD (fallback d 21)
    | 2 => .host (prHostQ d) 25
    | _ => .drop 21

/-- DEST = LB, and TYPE 1 of R200 (R214). -/
def State.lbDest (s : State) (p : Nat) (ps : Pass) (rp d : Prof) (i : Nat) (h0 : Line) : State × Dest :=
  if prKind rp ≠ 1 then (s, .drop 14)
  else if ps.dir h0 = 1 then (s, lpmDest ps d none)
  else if leAt (dataBytes h0) 2 1 = 0xFF then (s, .drop 14)
  else s.lbPinned p ps rp d i

/-- The destination of a pass (R199). -/
def State.destOf (s : State) (p : Nat) (ps : Pass) (rp d : Prof) (i : Nat) (h0 : Line) : State × Dest :=
  match prDest d with
  | 0 => (s, .drop 22)
  | 1 => (s, resolvePort (prPort d) (prHostQ d) (64 + prReason d) 22)
  | 2 => (s, if ps.lk.l2Hit then resolvePort ps.lk.l2Port (prHostQ d) 24 20 else fallback d 20)
  | 3 =>
    if ps.lk.lpmHit ∧ bitsOf ps.lk.lpmRes 28 4 = 1 then s.lbDest p ps rp d i h0 else (s, lpmDest ps d none)
  | 4 => s.lbDest p ps rp d i h0
  | _ => (s, .host (prHostQ d) (64 + prReason d))

/-- The egress queue (R201): QUEUE, or the PCP of the outermost tag after the edits. -/
def egressQueue (d : Prof) (e : Ed) : Nat :=
  if prQueuePcp d ∧ 0 < e.tags then beAt e.d 14 2 / 2 ^ 13 else prQueue d

/-! ### The chain (R195) -/

/-- The chain from a start profile: an edit profile, then the disposition profile or the reason of a fault. -/
def State.chain (s : State) (p b start : Nat) : Option Prof × (Prof ⊕ Nat) :=
  if !(s.profOn p start b) then (none, .inr 11)
  else
    let a := s.prof p start
    if prMode a = 0 then (none, .inl a)
    else if !(s.profOn p (prNext a) b) then (none, .inr 11)
    else if prMode (s.prof p (prNext a)) = 1 then (none, .inr 12)
    else (some a, .inl (s.prof p (prNext a)))

/-- Where a pass's chain starts (R195). -/
def State.chainStart (s : State) (p : Nat) (ps : Pass) (h : Line) : Nat :=
  if s.profOn p ps.lk.action ps.actBank && prPrecede (s.prof p ps.lk.action) then ps.lk.action else hAction.get h

/-- What NAT takes from a record (R213, R220). -/
def State.natIn (s : State) (rp : Prof) (h : Line) : NatIn :=
  let d := dataBytes h
  let lb := prKind rp = 1
  { kind := prKind rp, reply := hReply.get h == 1, dnat := (leAt d 3 1).testBit 0,
    addr := if lb then beAt d 12 4 else beAt d 0 16, l4 := beAt d 16 2, pfx := s.natPfx (prPrefix rp) }

/-- An ICMPv4 error hashed on the packet it quotes that has found a NAPT44 reply record (R222). -/
def icmpReply (ps : Pass) (rp : Prof) (h : Line) : Bool :=
  prKind rp = 2 && hReply.get h = 1 && ps.hv.l4o = 3 && icmpError (ps.hv.outSport / 256)

/-- An ICMP or ICMPv6 error hashed on the packet it quotes that has found a NAT64 record (R221). -/
def icmpNat64 (ps : Pass) (rp : Prof) : Bool :=
  let t := ps.hv.outSport / 256
  prKind rp = 3 && ((ps.hv.l4o = 3 && icmpError t) || (ps.hv.l4o = 4 && decide (1 ≤ t ∧ t ≤ 4)))

/-- The packet runs against a translated record (R214, R217). -/
def wrongDir (ps : Pass) (rp : Prof) (h : Line) : Bool :=
  let linked := prKind rp = 2 || prKind rp = 3 || (prKind rp = 1 && (leAt (dataBytes h) 3 1).testBit 0)
  linked && ps.dir h = 1 && !(icmpReply ps rp h)

/-! ### Copies (R202 to R205) -/

/-- The PTP operation of a destination copy, or none with the skip counted (R205). -/
def State.ptpOf (s : State) (p : Nat) (d : Prof) (e : Ed) : State × Ptp :=
  if prPtp d = 0 then (s, {})
  else
    match e.pay with
    | some o => (s, { op := prPtp d, off := o, udp := e.udp, v6 := e.udpV6 })
    | none => (s.ctr (pgAct p) ACT_PTP_SKIP_CNT.COUNT, {})

/-- The policers a destination copy is presented to (R321, R322). -/
def State.policersOf (s : State) (d : Prof) (h : Line) (toPort : Bool) : List Nat :=
  let t := if prPolicer d = 0 then [] else [prPolicer d]
  let k := hAccount.get h
  if toPort ∧ s.feature 5 ∧ hSealEn.get h = 1 ∧ (s.policer (4096 + k % 4096)).acctHi (s.io.active pgShp) = k / 4096
  then t ++ [4096 + k % 4096] else t

/-- The destination copy to a port value: policed, admitted, counted, metered (R204, R230, R298). -/
def State.destPort (s : State) (p : Nat) (ps : Pass) (d : Prof) (e : Ed) (i id v : Nat) : State × Bool :=
  let h := (s.cacheAt i).data
  let q := egressQueue d e
  let r := lineRec (s.cacheAt i)
  let ev : Evt := { code := 0x0E, tc := q }
  let (s, conform) := s.refillDue.police (s.policersOf d h true) ps.pkt.firstLen
  if !conform then
    ((s.upIo fun io => io.event p (pgAct p) ACT_POLICED_CNT.COUNT ev).traceDone ps.pkt.tag 2 0 none, false)
  else
    let (s, ptp) := s.ptpOf p d e
    let c := { ps.copy p id (e.d.length + 4) r with ptp := ptp, tag := ps.pkt.tag }
    let now := s.io.now16
    let ele := hElephant.get h = 1
    let qe := if v < 128 then s.eleQueue v q ele else q
    let s := s.retag ps.pkt.tag fun t => { t with egress := v, queue := qe, occ := s.occ (8 * v + qe), buf := some now }
    let (s, ok) := s.admitValue v q ps.hv.hash ps.hv.inPort false c ele
    if ok then
      ((s.upIo fun io => io.event p (pgAct p) ACT_FWD_CNT.COUNT { code := 0x0A, tc := q, unit := r / 4096 }).sealUpdate p i q ps, true)
    else ((s.ctr (pgAct p) ACT_ADMIT_REFUSED_CNT.COUNT).traceDone ps.pkt.tag 2 0 none, false)

/-- The destination copy to a host queue. -/
def State.destHost (s : State) (p : Nat) (ps : Pass) (d : Prof) (e : Ed) (i id q reason : Nat) : State × Bool :=
  let h := (s.cacheAt i).data
  let ev : Evt := { code := 0x0E, tc := egressQueue d e }
  let (s, conform) := s.refillDue.police (s.policersOf d h false) ps.pkt.firstLen
  if !conform then
    ((s.upIo fun io => io.event p (pgAct p) ACT_POLICED_CNT.COUNT ev).traceDone ps.pkt.tag 2 reason none, false)
  else
    let ts := prTrailer d
    let c := { ps.copy p id (e.d.length + 4 + (if ts then 16 else 0)) (lineRec (s.cacheAt i)) with
      reason := reason, trailer := ts, tag := ps.pkt.tag }
    let now := s.io.now16
    let s := s.retag ps.pkt.tag fun t => { t with egress := 0xFE, occ := s.occ (hostQ q), buf := some now }
    let (s, ok) := s.copyHost p q c
    if ok then (s, true)
    else ((s.ctr (pgAct p) ACT_ADMIT_REFUSED_CNT.COUNT).traceDone ps.pkt.tag 2 reason none, false)

/-- The mirror copy (R202). -/
def State.mirrorCopy (s : State) (p : Nat) (ps : Pass) (d : Prof) (e : Ed) (i id : Nat) : State × Bool :=
  if !(prMirror d) then (s, false)
  else
    let full := e.d.length + 4
    let len := if prTrunc d = 0 then full else min full (64 * prTrunc d)
    let c := ps.copy p id len (lineRec (s.cacheAt i))
    if 128 ≤ prMirrorPort d then (s, false)
    else
      let (s, ok) := s.admitValue (prMirrorPort d) (s.get (pgAct p) ACT_CFG.MIRROR_Q) ps.hv.hash ps.hv.inPort true c false
      (if ok then s.ctr (pgAct p) ACT_MIRROR_CNT.COUNT else s, ok)

/-- The host copy of COPY_HOST (R202). -/
def State.hostCopyOf (s : State) (p : Nat) (ps : Pass) (d : Prof) (e : Ed) (i id : Nat) (toHost : Bool) : State × Bool :=
  if !(prCopyHost d) ∨ toHost then (s, false)
  else
    let ts := prTrailer d
    s.copyHost p (prHostQ d)
      { ps.copy p id (e.d.length + 4 + (if ts then 16 else 0)) (lineRec (s.cacheAt i)) with
        reason := 64 + prReason d, trailer := ts }

/-- The destination copy of a pass with its destination settled (R202, R231). -/
def State.destCopy (s : State) (p : Nat) (ps : Pass) (d : Prof) (e : Ed) (i id : Nat) (dst : Dest) : State × Bool :=
  match dst with
  | .port v => s.destPort p ps d e i id v
  | .host q r => s.destHost p ps d e i id q r
  | .drop r =>
    let s := s.countDrop p r (egressQueue d e) (lineRec (s.cacheAt i) / 4096)
    let (s, ok) := s.exceptionCopy p r (ps.copy p id (e.d.length + 4) (lineRec (s.cacheAt i)))
    (s.traceDone ps.pkt.tag 2 r none, ok)

/-- The copies of a packet in the order destination, mirror, host (R202, R300); whether any was admitted. -/
def State.copies' (s : State) (p : Nat) (ps : Pass) (d : Prof) (e : Ed) (i : Nat) (dst : Option Dest) : State × Bool :=
  let (id, s) := s.newStored e.d
  let (s, a) := match dst with
    | none => (s, false)
    | some x => s.destCopy p ps d e i id x
  let (s, b) := s.mirrorCopy p ps d e i id
  let (s, c) := s.hostCopyOf p ps d e i id (match dst with | some (.host _ _) => true | _ => false)
  (s.placed id, a || b || c)

/-- The packet goes back to the parser (R203). -/
def State.recirculate (s : State) (p : Nat) (ps : Pass) (e : Ed) (tc : Nat) : State :=
  let k := { ps.pkt with bytes := e.d, pass := ps.pkt.pass + 1, zone := some ps.hv.zone }
  let s := { s with buf := { s.buf with recirc := s.buf.recirc.set [] p (s.buf.recirc.get [] p ++ [k]) } }
  s.upIo fun io => io.event p (pgAct p) ACT_RECIRC_CNT.COUNT { code := 0x0C, tc := tc }

/-! ### The action unit (R195 to R231) -/

/-- The frame of a pass is longer than its destination port takes: judged after edits, and for injected frames (R84, R208). -/
def State.tooLong (s : State) (ps : Pass) (edited : Bool) (e : Ed) (dst : Dest) : Bool :=
  match dst with
  | .port v => (edited || ps.pkt.injected) && s.portExists v && decide (s.maxFrame v < e.d.length + 4)
  | _ => false

/-- A pass ends with its destination settled: copies, then the end of the slot. -/
def State.deliver (s : State) (p : Nat) (ps : Pass) (d : Prof) (e : Ed) (edited : Bool) (i : Nat) (dst : Dest) : State :=
  let r := lineRec (s.cacheAt i)
  if s.tooLong ps edited e dst then s.dropPass p ps 13 ps.pkt.bytes r (egressQueue d e)
  else
    match dst with
    | .drop x =>
      if x = 22 then
        let (s, ok) := s.copies' p ps d e i (some dst)
        s.passEnd p ps.hv.inPort ok
      else s.dropPass p ps x e.d r (egressQueue d e)
    | _ =>
      let (s, ok) := s.copies' p ps d e i (some dst)
      s.passEnd p ps.hv.inPort ok

/-- The disposition of a pass whose edits are done (R199, R203). -/
def State.dispose (s : State) (p : Nat) (ps : Pass) (rp d : Prof) (e : Ed) (edited : Bool) (i : Nat) (h0 : Line) : State :=
  if prRecirc d then
    if 3 ≤ ps.pkt.pass then s.dropPass p ps 10 e.d (lineRec (s.cacheAt i)) (egressQueue d e)
    else
      let (s, _) := s.copies' p ps d e i none
      (s.recirculate p ps e (egressQueue d e)).passEnd p ps.hv.inPort false
  else
    let (s, dst) := s.destOf p ps rp d i h0
    s.deliver p ps d e edited i dst

/-- The edits of a pass, skips counted (R207). -/
def State.edit (s : State) (p : Nat) (ps : Pass) (rp : Prof) (i : Nat) (a : Option Prof) : State × Ed :=
  let e := Ed.start ps.pkt.bytes ps.hv
  match a with
  | none => (s, e)
  | some a =>
    let h := (s.cacheAt i).data
    let lost := (prEncap a || prL2Rw a = 2) && s.act.gone.get false (tmplKey p (prTemplate a))
    let e := if lost then { e with drop := some 11 } else e.apply a ps.hv (s.natIn rp h) (dataBytes h) (s.tmpl p (prTemplate a))
    (if e.skip = 0 then s else s.ctr (pgAct p) ACT_EDIT_SKIP_CNT.COUNT e.skip, e)

/-- Removal with cause TEARDOWN after the packet (R206, R227). -/
def State.teardownAfter (s : State) (p : Nat) (ps : Pass) (rp : Prof) (d : Option Prof) (r : Nat) : State :=
  let rst := ps.pkt.pass = 0 && prRstTeardown rp && (ps.tcpFlags.map fun f => f.testBit 2).getD false
  if rst || (d.map prTeardown).getD false then s.submitRemoval r 2 p else s

/-- The chain of a pass on its record, after the first-pass counts. -/
def State.chainRun (s : State) (p : Nat) (ps : Pass) (rp : Prof) (i : Nat) (h0 : Line) (invalid : Bool) : State :=
  let h := (s.cacheAt i).data
  let r := lineRec (s.cacheAt i)
  let c := s.chain p ps.actBank (s.chainStart p ps h)
  match c.2 with
  | .inr x => (s.dropPass p ps x ps.pkt.bytes r 0).teardownAfter p ps rp none r
  | .inl d =>
    let s :=
      if icmpNat64 ps rp ∧ ps.dir h = 1 then s.dropPass p ps 18 ps.pkt.bytes r 0
      else if wrongDir ps rp h then s.dropPass p ps 17 ps.pkt.bytes r 0
      else if invalid ∧ prTcp rp = 2 then s.dropPass p ps 19 ps.pkt.bytes r 0
      else
        let s := if invalid then s.ctr (pgAct p) ACT_TCP_INVALID_CNT.COUNT else s
        let (s, e) := s.edit p ps rp i c.1
        match e.drop with
        | some x => s.dropPass p ps x ps.pkt.bytes r 0
        | none => s.dispose p ps rp d e c.1.isSome i h0
    s.teardownAfter p ps rp (some d) r

/-- The action unit on a packet that has obtained the record resident in way `i`. -/
def State.action (s : State) (p : Nat) (ps : Pass) (i : Nat) : State :=
  let h0 := (s.cacheAt i).data
  let r := lineRec (s.cacheAt i)
  let rp := s.recProf p ps h0
  let now := s.io.now16
  let s := s.retag ps.pkt.tag fun t => { t with record := r, outcome := ps.outcome, passes := ps.pkt.pass + 1, flow := some now, act := some now }
  if ps.pkt.pass = 0 then
    let x := s.firstPass p ps rp h0
    let s := ((s.updateLine i fun _ => x.1).eleAdd p r ps.pkt.firstLen).flowlet p ps rp i h0
    s.chainRun p ps rp i h0 x.2
  else s.chainRun p ps rp i h0 false

end Sys2Proof.Machine
end

