-- ==== Sys2Proof/Machine/Path.lean ====
section
/-!
DEFINITION. A pass from the parser to its record (R18 to R23, R49, R129, R173 to R178, R464 to R466): admission, steering, the
lookup and its reads, installation, and what becomes of packets that wait on a claim.
-/
namespace Sys2Proof.Machine

/-! ### The outstanding-miss tracker (R21, R22) -/

def State.missesOf (s : State) (p : Nat) : List Miss := s.flow.miss.get [] p

/-- Store a pipeline's tracker, with its registers and TRACKER_FULL (R194). -/
def State.setMisses (s : State) (p : Nat) (l : List Miss) : State :=
  let was := (s.missesOf p).length
  let s := { s with flow := { s.flow with miss := s.flow.miss.set [] p l } }
  let s := (s.put (pgFlw p) FLW_OUTSTANDING.NOW l.length).upIo fun io => io.maxTo (pgFlw p) FLW_OUTSTANDING.HIGH l.length
  if was < 1024 ∧ 1024 ≤ l.length then s.raise (pgFlw p) 4 else s

/-- Replace the entry of an identity. -/
def State.putMiss (s : State) (p : Nat) (m : Miss) : State :=
  s.setMisses p ((s.missesOf p).map fun x => if x.hash == m.hash && x.key == m.key then m else x)

/-- Remove the entry of an identity. -/
def State.dropMiss (s : State) (p : Nat) (m : Miss) : State :=
  s.setMisses p ((s.missesOf p).filter fun x => !(x.hash == m.hash && x.key == m.key))

/-! ### Records obtained -/

/-- The passes of an entry act in their order on the record resident in way `i`; the first has the outcome given, the rest
attached to it (R21, R344). -/
def State.actAll (s : State) (p i outcome : Nat) : List Pass → State
  | [] => s
  | ps :: t => (s.action p { ps with outcome := outcome } i).actAll p i 6 t

/-- The passes of an entry are dropped for the same reason (R182, R231). -/
def State.dropAll (s : State) (p reason r : Nat) : List Pass → State
  | [] => s
  | ps :: t => (s.dropPass p ps reason ps.pkt.bytes r 0).dropAll p reason r t

/-- The passes of an entry obtain no record (R174). -/
def State.noFlowAll (s : State) (p : Nat) : List Pass → State
  | [] => s
  | ps :: t => (s.dropNoFlow p ps).noFlowAll p t

/-- A hit in the flow cache on way `i` (R194, R362). -/
def State.cacheHit (s : State) (p i prio : Nat) : State :=
  s.upIo fun io => io.event p (pgFlw p) FLW_CACHE_HIT_CNT.COUNT { code := 0x06, tc := prio, unit := lineRec (s.cacheAt i) / 4096 }

/-- How a hot half found by source 0 to 4 counts, on a retry too (R194), and its lookup outcome (R344). -/
def State.countFound (s : State) (p src : Nat) (again : Bool) : State × Nat :=
  let s := if again ∨ 3 ≤ src then s.ctr (pgFlw p) FLW_RETRY_FOUND_CNT.COUNT else s
  let x := match src with
    | 1 => (s.ctr (pgFlw p) FLW_BUCKET1_HIT_CNT.COUNT, 2)
    | 2 => (s.ctr (pgFlw p) FLW_BUCKET2_HIT_CNT.COUNT, 3)
    | 3 => (s, 4)
    | _ => (s.ctr (pgFlw p) FLW_STASH_HIT_CNT.COUNT, 1)
  (x.1, if again ∨ 3 ≤ src then 4 else x.2)

/-- An entry's record is resident in way `i`: the entry ends and its passes act. -/
def State.obtain (s : State) (p i outcome : Nat) (m : Miss) : State :=
  ((s.dropMiss p m).touch i).actAll p i outcome m.passes

/-- Install a hot half for an entry, or wait for a way (R170); `held`: ways whose updates are still to come. -/
def State.installFor (s : State) (p held src r : Nat) (data : Line) (m : Miss) : State :=
  match s.probe m.hash m.key with
  | some i =>
    let (s, o) := s.countFound p src m.again
    s.obtain p i o m
  | none =>
    match s.victim (cacheSet m.key) held with
    | none => s.putMiss p { m with stage := .way r, req := src }
    | some i =>
      let (s, o) := s.countFound p src m.again
      (s.install p i r data).obtain p i o m

/-! ### Final misses (R21, R173 to R175, R254) -/

/-- A pass that a final miss lets create a record. -/
def Pass.creates (ps : Pass) : Bool := ps.lk.create && ps.pkt.pass == 0

/-- Every pass of an entry ends without a record. -/
def State.endNoFlow (s : State) (p : Nat) (m : Miss) : State := (s.dropMiss p m).noFlowAll p m.passes

/-- The create misses refused while the Pip is stopped (R254). -/
def State.stopDrops (s : State) (p : Nat) (m : Miss) : State :=
  s.ctr (pgPip p) PIP_STOP_DROP_CNT.COUNT (m.passes.filter Pass.creates).length

/-- A miss is final: each waiting pass is judged by its own CREATE; the first that may create waits for a
context, in the order of arrival (`req`; R235). -/
def State.finalMiss (s : State) (p : Nat) (m : Miss) : State :=
  let s := s.ctr (pgFlw p) FLW_MISS_CNT.COUNT
  if s.get (pgPip p) PIP_CTL.STOP = 1 then (s.stopDrops p m).endNoFlow p m
  else
    let yes := m.passes.filter Pass.creates
    let no := m.passes.filter fun x => !x.creates
    let s := s.noFlowAll p no
    if yes.isEmpty then s.dropMiss p m
    else
      let (n, s) := s.flowId
      s.putMiss p { m with stage := .wants, req := n, passes := yes.map fun x => { x with born := s.io.time.counted } }

/-! ### The lookup's reads (R173, R176, R180) -/

/-- The record of an identity is found: its hot half is read. -/
def State.readHot (s : State) (p src r : Nat) (m : Miss) : State :=
  let (id, s) := s.issueRead (s.hotLoc r) 1 (0x20 + p) (r / 4096) false
  s.putMiss p { m with stage := .hot r src, req := id }

/-- Read bucket choice `which` (1 or 2). -/
def State.readBucket (s : State) (p which : Nat) (m : Miss) : State :=
  let b := if which = 1 then choice1 m.key else choice2 m.key
  let (id, s) := s.issueRead (s.bucketLoc b) 1 (0x20 + p) 0 false
  s.putMiss p { m with stage := .bucket which, req := id }

/-- Steps 4 and 5 of R173. -/
def State.search (s : State) (p : Nat) (m : Miss) : State :=
  match s.stashFind m.hash m.key with
  | some e => s.readHot p 0 (hdrRec e.2) m
  | none => s.readBucket p 1 m

/-- The lookup goes back to step 2 once; the second such outcome is final (R176). -/
def State.goBack (s : State) (p r : Nat) (m : Miss) : State :=
  let s := s.upIo fun io => io.event p (pgFlw p) FLW_RETRY_CNT.COUNT { code := 0x08, unit := r / 4096 }
  if m.again then s.finalMiss p m
  else
    let m := { m with again := true }
    match s.probe m.hash m.key with
    | some i =>
      let s := (s.cacheHit p i ((m.passes.head?.map fun ps => ps.pkt.prio).getD 0)).ctr (pgFlw p) FLW_RETRY_FOUND_CNT.COUNT
      s.obtain p i 4 m
    | none => s.search p m

/-- Step 7 of R173: with a fence open over either bucket the identity is compared against the fences and the stash once. -/
def State.fenceRetry (s : State) (p : Nat) (m : Miss) : State :=
  let b1 := choice1 m.key
  let b2 := choice2 m.key
  let near := s.flow.fences.any fun f => f.oldB == b1 || f.newB == b1 || f.oldB == b2 || f.newB == b2
  if !near || m.retried then s.finalMiss p m
  else
    let s := s.upIo fun io => io.event p (pgFlw p) FLW_RETRY_CNT.COUNT { code := 0x08 }
    let m := { m with retried := true }
    match s.fenceFind m.hash m.key with
    | some f => s.readHot p 3 f.r m
    | none =>
      match s.stashFind m.hash m.key with
      | some e => s.readHot p 4 (hdrRec e.2) m
      | none => s.finalMiss p m

/-- The claim in flight for an identity: queued, running, or answered OK and not yet committed or withdrawn (R176, R178). -/
def State.claimFor (s : State) (hash key : Nat) : Option Claim :=
  s.flow.claims.find? fun c => c.hash == hash && c.key == key && (c.stage != .done || c.code == some 0)

/-- A hot half has returned (R176). -/
def State.hotReturn (s : State) (p held r src : Nat) (v : Option Line) (m : Miss) : State :=
  match v with
  | none => (s.loseHot m.hash m.key r).finalMiss p m
  | some h =>
    if hKey.get h ≠ m.key ∨ hHash.get h ≠ m.hash then s.goBack p r m
    else if hLife.get h = lifeEmbryonic then
      match s.claimFor m.hash m.key with
      | some c =>
        let s := s.ctr (pgFlw p) FLW_ATTACH_CNT.COUNT m.passes.length
        s.putMiss p { m with stage := .claim c.id }
      | none => s.goBack p r m
    else if hLife.get h = lifeActive ∧ !(s.closing r) then s.installFor p held src r h m
    else s.goBack p r m

/-- A bucket has returned (R173 steps 5 to 7). -/
def State.bucketReturn (s : State) (p which : Nat) (v : Option Line) (m : Miss) : State :=
  let b := if which = 1 then choice1 m.key else choice2 m.key
  let s := if v.isNone then s.loseBucket b else s
  match v.bind fun l => (findSlot l m.hash m.key).map fun i => hdrRec (slotHdr l i) with
  | some r => s.readHot p which r m
  | none => if which = 1 then s.readBucket p 2 m else s.fenceRetry p m

/-- CACHE_INSTALL: an entry of the tracker that waits for a way (R170).  The half is judged again as it now stands, so that no packet
obtains a record whose removal has begun meanwhile (R167, R187). -/
def State.cacheInstall (s : State) (p entry held : Nat) : State :=
  match (s.missesOf p)[entry]? with
  | some m =>
    match m.stage with
    | .way r => s.hotReturn p held r m.req (some (s.lineView (s.hotLoc r))) m
    | _ => s
  | none => s

/-- FLOW_READ_RETURN: the read of tracker entry `entry` of pipeline `p` has responded (R176). -/
def State.flowReturn (s : State) (p entry held : Nat) : State :=
  match (s.missesOf p)[entry]? with
  | none => s
  | some m =>
    match m.stage with
    | .bucket w =>
      match s.takeResp m.req with
      | none => s
      | some (v, s) => s.bucketReturn p w v m
    | .hot r src =>
      match s.takeResp m.req with
      | none => s
      | some (v, s) => s.hotReturn p held r src v m
    | _ => s

/-- A lookup that misses the cache takes a tracker entry (R173). -/
def State.missStart (s : State) (p : Nat) (ps : Pass) : State :=
  let m : Miss := { hash := ps.hash, key := ps.key, stage := .wants, passes := [ps] }
  let s := s.setMisses p (s.missesOf p ++ [m])
  let s := s.upIo fun io => io.event p (pgPmcL p) PMC_EVT_FLOW_DRAM.COUNT { code := 0x07 }
  s.search p m

/-- The flow engine on a pass (R173 steps 1 to 3, R18).  A packet whose flow has an operation outstanding in this pipeline attaches to it,
also where its line has become resident meanwhile, and so leaves behind the earlier packet (R20, R21). -/
def State.flowLookup (s : State) (p : Nat) (ps : Pass) : State :=
  let s := s.ctr (pgFlw p) FLW_LOOKUP_CNT.COUNT
  match (s.missesOf p).find? fun m => m.hash == ps.hash && m.key == ps.key with
  | some m => (s.ctr (pgFlw p) FLW_ATTACH_CNT.COUNT).putMiss p { m with passes := m.passes ++ [ps] }
  | none =>
    match s.probe ps.hash ps.key with
    | some i => ((s.cacheHit p i ps.pkt.prio).touch i).action p { ps with outcome := 0 } i
    | none => s.missStart p ps

/-! ### Packets that wait on a claim (R178, R182) -/

/-- The current copy of record `r` made resident in its set, the way it then stands in; a set always has a way (log entry 31). -/
def State.residentWay (s : State) (p hash key r : Nat) : Option Nat × State :=
  match s.probe hash key with
  | some i => (some i, s)
  | none =>
    match s.victim (cacheSet key) 0 with
    | none => (none, s)
    | some i => (some i, s.install p i r (s.lineView (s.hotLoc r)))

/-- Tracker entries of a pipeline that wait on claim `id`. -/
def State.waiters (s : State) (p id : Nat) : List Miss := (s.missesOf p).filter fun m => m.stage == .claim id

/-- An entry's packets are released on record `r`. -/
def State.releaseMiss (s : State) (p r outcome : Nat) (m : Miss) : State :=
  let x := s.residentWay p m.hash m.key r
  match x.1 with
  | some i => x.2.obtain p i outcome m
  | none => s.endNoFlow p m

/-- Every pipeline's entries that wait on claim `id`, in pipeline order. -/
def State.eachWaiter (s : State) (id : Nat) (f : State → Nat → Miss → State) : State :=
  (List.range 8).foldl (fun s p => (s.waiters p id).foldl (fun s m => f s p m) s) s

/-- A claim has committed LIFE = ACTIVE: packets attached to it are released (R178). -/
def State.claimActive (s : State) (id r : Nat) : State :=
  let s := s.eachWaiter id fun s p m => s.releaseMiss p r 6 m
  s.setClaims (s.flow.claims.filter fun c => c.id != id)

/-- A claim has ended without a record: its waiters are dropped with the reason of the withdrawal, or as R174 has it (`none`). -/
def State.claimGone (s : State) (id : Nat) (reason : Option Nat) (r : Nat) : State :=
  let s := s.eachWaiter id fun s p m =>
    match reason with
    | none => s.endNoFlow p m
    | some x => (s.dropMiss p m).dropAll p x r m.passes
  s.setClaims (s.flow.claims.filter fun c => c.id != id)

/-! ### Admission (R22, R23, R49, R83) -/

/-- The packet that takes the next slot of a pipeline, and the state without it: recirculation, then injection, then staging. -/
def State.nextPass (s : State) (p : Nat) : Option (Pkt × State) :=
  match s.buf.recirc.get [] p with
  | k :: t => some (k, { s with buf := { s.buf with recirc := s.buf.recirc.set [] p t } })
  | [] =>
    match s.buf.inject.get [] p with
    | k :: t => some (k, { s with buf := { s.buf with inject := s.buf.inject.set [] p t } })
    | [] =>
      match s.staged p with
      | k :: t =>
        let s := s.setStaged p t
        some (k, if k.steered then s else s.fcUpdate k.inPort)
      | [] => none

/-- The bank tag of a packet at its first admission (R49, R122): bit 0 classifier, bit 1 action, bit 2 parser page. -/
def State.bankTag (s : State) (p : Nat) : Nat :=
  s.io.active (pgCls p) + 2 * s.io.active (pgAct p) + 4 * s.io.active (pgPrs p)

/-- The counts and events of an admission (R362, R365). -/
def State.countAdmit (s : State) (p : Nat) (k : Pkt) (len : Nat) : State :=
  let b := pgPmcL p
  s.upIo fun io =>
    let io := { io with taken := io.taken.set 0 p (io.taken.get 0 p + 1) }
    let io := (io.ctr b PMC_SLOT_CYCLES.COUNT).accAdd b PMC_WIN_CYCLES.SLOTS
    let io := io.put b PMC_SLOT_INFLIGHT.COUNT (io.get b PMC_SLOT_INFLIGHT.COUNT + 1)
    let io := io.event p b PMC_EVT_PARSE_ALL.COUNT { code := 0x02, tc := k.prio }
    if k.pass = 0 then
      (io.event p b PMC_EVT_PARSE_FIRST.COUNT { code := 0x01, tc := k.prio }).event p b PMC_EVT_PARSE_BYTES.COUNT
        { code := 0x03, n := len, tc := k.prio }
    else io

/-- A malformed packet's host copy (R129, R231): to ACT_CFG.EXC_Q (log entry 20). -/
def State.malCopy (s : State) (p : Nat) (ps : Pass) : State × Bool :=
  let (v, s) := s.draw
  let (id, s) := s.newStored ps.pkt.bytes
  let ts := s.get (pgAct p) ACT_CFG.EXC_TS = 1
  let c := { ps.copy p id (ps.pkt.bytes.length + 4 + (if ts then 16 else 0)) (v % 67108864) with
    reason := ps.hv.malClass, trailer := ts }
  let (s, ok) := s.copyHost p (s.get (pgAct p) ACT_CFG.EXC_Q) c
  (s.placed id, ok)

/-- A malformed packet is dropped after the parser (R129). -/
def State.malDrop (s : State) (p : Nat) (ps : Pass) (copy : Bool) : State :=
  let s := s.countDrop p ps.hv.malClass 0 0
  let x := if copy then s.malCopy p ps else (s, false)
  (x.1.traceDone ps.pkt.tag 2 ps.hv.malClass none).passEnd p ps.hv.inPort x.2

/-- Lookups, learning and the flow engine on a pass (R132, R146, R157, R175); a packet whose search profile is lost is dropped with
NO_PROFILE (R475). -/
def State.passLookup (s : State) (p : Nat) (ps : Pass) : State :=
  let inj := ps.pkt.injected || ps.pkt.steered
  if s.searchGone p ps.hv then
    let (v, s) := s.draw
    s.dropPass p ps 11 ps.pkt.bytes (v % 67108864) 0
  else
    let lk := s.lookup p ps.hv inj
    let s := (s.sourceSearch p ps.hv lk inj).countLookup p ps.pkt.prio lk
    s.flowLookup p { ps with lk := lk }

/-- The stack copy of a steered packet (R449, R464, R465). -/
def State.steerCopy (s : State) (p owner link : Nat) (ps : Pass) (id : Nat) : Copy :=
  let n := ps.hv.inPort
  let hl := s.io.prs p (ps.pkt.bank / 4 % 2) PRS_PORT_CFGj.HASH_LAYER (n % 16)
  let h := stackHeader 1 (s.get pgCsc CSC_STAT.ID) owner link n 0xFF 0 0 (ps.pkt.bytes.length + 4) ps.hv.hash ps.pkt.ts
    (ps.hv.zone + 4096 * hl) (s.logicalPort n)
  { ps.copy p id (ps.pkt.bytes.length + 4) 0 with stack := h, tag := ps.pkt.tag }

/-- A packet leaves as a STEER frame to its owner (R464). -/
def State.steer (s : State) (p owner link : Nat) (ps : Pass) : State :=
  let (id, s) := s.newStored ps.pkt.bytes
  let (s, ok) := s.admitStack link 1 (s.steerCopy p owner link ps id) false
  let s := s.placed id
  let s := if ok then s.ctr pgCsc CSC_STEER_CNT.COUNT
           else (s.ctr pgCsc CSC_STEER_REFUSED_CNT.COUNT).traceDone ps.pkt.tag 2 0 none
  s.passEnd p ps.hv.inPort ok

/-- The first such packet since software cleared the cause raises it. -/
def State.fallback' (s : State) : State := (s.ctr pgCsc CSC_FALLBACK_CNT.COUNT).raiseOnce pgCsc 5

/-- Flow ownership at parser exit (R464 to R466). -/
def State.ownerStep (s : State) (p : Nat) (ps : Pass) : State :=
  let owner := ps.hv.hash % max 1 (s.get pgCsc CSC_CFG.DEVICES)
  if !(s.deepen) ∨ ps.pkt.pass ≠ 0 ∨ ps.pkt.injected ∨ ps.pkt.steered ∨ owner = s.get pgCsc CSC_STAT.ID then s.passLookup p ps
  else
    match s.linkFor owner ps.hv.hash with
    | some k => s.steer p owner k ps
    | none =>
      if s.get pgCsc CSC_CFG.FALLBACK = 1 then s.fallback'.passLookup p ps
      else
        let s := (s.ctr pgCsc CSC_STEER_REFUSED_CNT.COUNT).traceDone ps.pkt.tag 2 0 none
        s.passEnd p ps.hv.inPort false

/-- The parser's verdict on a malformed packet, then the rest of the pass (R129). -/
def State.malStep (s : State) (p : Nat) (ps : Pass) : State :=
  if ps.hv.malClass = 0 then s.ownerStep p ps
  else
    match bitsOf (s.io.prs p (ps.pkt.bank / 4 % 2) PRS_MAL_ACT.ACTc) (2 * (ps.hv.malClass - 1)) 2 with
    | 0 => s.malDrop p ps false
    | 1 => s.malDrop p ps true
    | 2 => s.ownerStep p ps
    | _ => (s.malCopy p ps).1.ownerStep p ps

/-- A packet with its identity and first-pass facts set (R175, R229). -/
def firstFacts (k : Pkt) (r : Parsed) : Pkt :=
  if k.pass = 0 then { k with firstLen := r.hv.pktLen, hash := r.hv.hash, key := keyCheck r.block, srcLow := r.srcLow } else k

/-- Parse an admitted packet and send it on its way. -/
def State.parsePass (s : State) (p : Nat) (k : Pkt) : State :=
  let r := s.io.parse p k.bytes ⟨k.inPort, k.bank / 4 % 2, k.pass, k.zone, k.hashLayer⟩
  let hv := { r.hv with bank := k.bank % 2 }
  let s := s.countAdmit p k hv.pktLen
  let s := if k.pass = 0 then s.sample p k else s
  let x := if k.pass = 0 then s.tagPacket p hv.pktLen k else (s, k.tag)
  let s := x.1.upIo fun io => io.prsCount p r k.prio k.malFound
  let k := { firstFacts k r with
             bytes := (match r.trim with | some t => k.bytes.take t | none => k.bytes)
             tag := x.2
             malFound := k.malFound || decide (hv.malClass ≠ 0) }
  s.malStep p { pkt := k, hv := hv, block := r.block, srcLow := k.srcLow, hash := k.hash, key := k.key,
                seen := seenNow s.io.time.ns, since := s.io.time.counted }

/-- PASS_ADMIT: the pipeline takes its next pass unless its tracker is full (R22). -/
def State.passAdmit (s : State) (p : Nat) : State :=
  if 1024 ≤ (s.missesOf p).length then s
  else
    match s.nextPass p with
    | none => s
    | some (k, s) => s.parsePass p (if k.pass = 0 then { k with bank := s.bankTag p } else k)

end Sys2Proof.Machine
end

