-- ==== Sys2Proof/Machine/Time.lean ====
section
/-!
DEFINITION. Real time over the whole state: core ticks pass, and slots of pipelines are classed by what waits (R40, R365).
-/
namespace Sys2Proof.Machine

/-- What waits for a slot of pipeline `p`: 0 nothing, 1 a packet of no port of it, 2 + j one of its port slot j (R368). -/
def State.waiting (s : State) (p : Nat) : Nat :=
  match s.buf.recirc.get [] p ++ s.buf.inject.get [] p ++ s.staged p with
  | [] => 0
  | k :: _ => match inPipe p k.inPort with
    | none => 1
    | some j => 2 + j

/-- `n` core ticks pass. -/
def State.tickN (s : State) (n : Nat) : State := s.upIo fun io => io.ticks n s.waiting

/-- Let the time base count `n` more nanoseconds. -/
def State.passNs (s : State) (n : Nat) : State := s.upIo fun io => io.waitNs n s.waiting

/-- Change the marks of what has fallen due. -/
def State.upDue (s : State) (f : Due → Due) : State :=
  s.upIo fun io => { io with time := { io.time with due := f io.time.due } }

/-- Let time pass to the next multiple of `m` ns, unless `waiting` crossings have already been made. -/
def State.reach (s : State) (waiting m : Nat) : State := if waiting = 0 then s.passNs (s.io.toMultiple m) else s

/-- Let time pass until `counted` has reached `t`. -/
def State.passTo (s : State) (t : Nat) : State := s.passNs (t - s.io.time.counted)

end Sys2Proof.Machine
end

