-- ==== Sys2Proof/Machine/Cascade.lean ====
section
/-!
DEFINITION. The cascade (R445 to R470): links and their peers, stack frames, time, commits over several devices, takeover, packets
that cross a link, remote access up to the fabric of the target.
-/
namespace Sys2Proof.Machine

def State.upCsc (s : State) (f : Csc → Csc) : State := { s with csc := f s.csc }

/-! ### Roles and wiring (R445 to R447) -/

/-- The device runs with others: CASCADE active in a role other than standalone (R445). -/
def State.cascOn (s : State) : Bool := s.get pgCsc CSC_STAT.ACTIVE = 1 && s.get pgCsc CSC_STAT.ROLE != 0
def State.isMaster (s : State) : Bool := s.get pgCsc CSC_STAT.IS_MASTER = 1
def State.myId (s : State) : Nat := s.get pgCsc CSC_STAT.ID
/-- A cascade device that is not the master: it takes no time, K or GO of its own (R41, R454, R457). -/
def State.follower (s : State) : Bool := s.cascOn && !s.isMaster

/-- The peer that link `k` of device `d` is wired to (R447). -/
def peerOf (n d k : Nat) : Nat :=
  match n with
  | 3 => if k < 2 then (d + 1) % 3 else (d + 2) % 3
  | 4 => d ^^^ (if k = 0 then 1 else if k = 2 then 3 else 2)
  | _ => d ^^^ 1

/-- The links of device `a` that name device `b`, ascending. -/
def linksNaming (n a b : Nat) : List Nat := (List.range 4).filter fun k => peerOf n a k == b

/-- The link of the peer that link `k` of device `d` meets. -/
def peerLink (n d k : Nat) : Nat :=
  let p := peerOf n d k
  (linksNaming n p d).getD ((linksNaming n d p).findIdx (· == k)) 0

/-- The peer that announces itself on link `k` is the one of the table. -/
def State.wired (s : State) (k peer link : Nat) : Bool :=
  let n := s.get pgCsc CSC_CFG.DEVICES
  peer == peerOf n s.myId k && link == peerLink n s.myId k && peer < n

/-- CASCADE becomes active (R445, R446). -/
def State.cascActivate (s : State) : State :=
  let first : Bool := s.get pgCsc CSC_STAT.ROLE = 0 || s.myId = 0
  let s := (s.put pgCsc CSC_STAT.ACTIVE 1).put pgCsc CSC_STAT.IS_MASTER (b2n first)
  let s := s.put pgCsc CSC_STAT.LIVE (2 ^ s.myId)
  s.upCsc fun c => { c with timeAt := s.io.time.counted + 1 }

/-! ### Frames (R449, R451) -/

def ccHello : Nat := 1
def ccTime : Nat := 2
def ccDelayReq : Nat := 3
def ccDelayResp : Nat := 4
def ccPrepare : Nat := 5
def ccPrepared : Nat := 6
def ccRefused : Nat := 7
def ccDecide : Nat := 8
def ccRmtReq : Nat := 9
def ccRmtRsp : Nat := 10

/-- Link `k` carries CONTROL frames. -/
def State.linkLive (s : State) (k : Nat) : Bool := s.cascOn && s.get pgCsc CSC_LINK_STATk.UP k = 1

/-- The UP links to a device, ascending. -/
def State.ctlLinks (s : State) (d : Nat) : List Nat :=
  (List.range 4).filter fun k => s.linkLive k && s.get pgCsc CSC_LINK_STATk.PEER_ID k == d

def State.upLinks (s : State) : List Nat := (List.range 4).filter s.linkLive

/-- The link is taken for the bytes of a frame with preamble and gap, after what it is sending (R449, R468). -/
def State.busyLink (s : State) (k bytes : Nat) : State :=
  s.upCsc fun c => { c with free := c.free.set 0 k (max (c.free.get 0 k) (50 * s.io.time.counted) + bytes + 20) }

/-- A frame with its header leaves on a link; header and CRC count among its bytes (R470). -/
def State.sendStack (s : State) (k : Nat) (hdr : BitVec 256) (body : List Byte) : State :=
  let b := bytesLE 32 hdr.toNat ++ body
  let f := b ++ fcsOf b
  (((s.busyLink k f.length).emit (.stack k f)).ctr pgCsc CSC_TX_FRAMESk.COUNT 1 k).ctr pgCsc CSC_TX_BYTESk.COUNT f.length k

/-- A CONTROL frame of device `src` to device `dst` on link `k`. -/
def State.sendCtl (s : State) (k src dst code : Nat) (pay : List Byte) : State :=
  s.sendStack k (stackHeader 0 src dst k 0 0xFF 0 0 pay.length 0 0 code 0) pay

/-- A CONTROL frame of this device to the peer of link `k`. -/
def State.sendPeer (s : State) (code : Nat) (pay : List Byte) (k : Nat) : State :=
  s.sendCtl k s.myId (s.get pgCsc CSC_LINK_STATk.PEER_ID k) code pay

/-- One CONTROL frame to each of the devices, on its lowest UP link. -/
def State.sendEach (s : State) (src code : Nat) (pay : List Byte) (ds : List Nat) : State :=
  ds.foldl (fun s d =>
    match s.ctlLinks d with
    | [] => s
    | k :: _ => s.sendCtl k src d code pay) s

/-- The other devices of the cascade. -/
def State.others (s : State) : List Nat := (List.range (s.get pgCsc CSC_CFG.DEVICES)).filter (· != s.myId)

/-- Seconds and nanoseconds of a time of R451. -/
def timeBytes (ns : Nat) : List Byte := bytesLE 6 (ns / 1000000000) ++ bytesLE 4 (ns % 1000000000)
def timeAt' (l : List Byte) (o : Nat) : Nat := 1000000000 * leAt l o 6 + leAt l (o + 6) 4

/-- Fields of a received frame. -/
def sfType (f : List Byte) : Nat := bitsOf (leAt f 0 1) 6 2
def sfSrc (f : List Byte) : Nat := bitsOf (leAt f 0 1) 4 2
def sfDst (f : List Byte) : Nat := bitsOf (leAt f 0 1) 2 2
def sfCode (f : List Byte) : Nat := leAt f 24 1
def sfBody (f : List Byte) : List Byte := (f.drop 32).take (f.length - 36)

/-- STACK_FRAME_RX: counted, discarded on a bad CRC, with TYPE 3, or as R446 has it; else it waits to be acted on (R449). -/
def State.stackRx (s : State) (k : Nat) (f : List Byte) : State :=
  if !(s.linkLive k) then s
  else
    let s := s.ctr pgCsc CSC_RX_FRAMESk.COUNT 1 k
    let n := f.length - 4
    if f.length < 36 ∨ f.drop n ≠ fcsOf (f.take n) then s.ctr pgCsc CSC_RX_CRC_ERRk.COUNT 1 k
    else if sfType f = 3 ∨ (tb s.csc.mism k ∧ sfType f ≠ 0) then s
    else s.upCsc fun c => { c with rx := c.rx.set [] k (c.rx.get [] k ++ [(s.io.time.ns, f)]) }

/-- The oldest waiting frame of a link, if it is of this type (and, for CONTROL, this code), and the state without it. -/
def State.takeRx (s : State) (k typ code : Nat) : Option (Nat × List Byte × State) :=
  match s.csc.rx.get [] k with
  | [] => none
  | (t, f) :: rest =>
    if sfType f = typ ∧ (typ ≠ 0 ∨ sfCode f = code) then some (t, f, s.upCsc fun c => { c with rx := c.rx.set [] k rest }) else none

/-! ### Links (R446, R447, R451) -/

/-- MISMATCH follows the links. -/
def State.setMism (s : State) (k : Nat) (bad : Bool) : State :=
  let was := s.csc.mism != 0
  let s := s.upCsc fun c => { c with mism := sb c.mism k 1 (b2n bad) }
  let s := s.put pgCsc CSC_STAT.MISMATCH (b2n (s.csc.mism != 0))
  if bad ∧ !was then s.raise pgCsc 1 else s

/-- A link's peer is not the one of R447: it carries nothing. -/
def State.miswire (s : State) (k : Nat) : State :=
  let was := s.get pgCsc CSC_LINK_STATk.MISWIRED k
  let s := (s.put pgCsc CSC_LINK_STATk.UP 0 k).put pgCsc CSC_LINK_STATk.MISWIRED 1 k
  if was = 0 then s.raise pgCsc 1 else s

/-- What a HELLO of this device says: ROLE, ID, DEVICES and the link number, one byte each. -/
def State.helloBytes (s : State) (k : Nat) : List Byte :=
  bytesLE 1 (s.get pgCsc CSC_STAT.ROLE) ++ bytesLE 1 s.myId ++ bytesLE 1 (s.get pgCsc CSC_CFG.DEVICES) ++ bytesLE 1 k

def State.sendHello (s : State) (k : Nat) : State := s.sendPeer ccHello (s.helloBytes k) k

/-- The identity announced on link `k` is one that no peer of this device can have, or that another peer announces (R446). -/
def State.badId (s : State) (k id : Nat) : Bool :=
  let n := s.get pgCsc CSC_CFG.DEVICES
  n ≤ id || id == s.myId || (List.range 4).any fun j =>
    peerOf n s.myId j != peerOf n s.myId k && s.linkLive j && s.get pgCsc CSC_LINK_STATk.PEER_ID j == id

/-- STACK_LINK_UP: the link carries CONTROL frames where R446 has it so; else its peer is the expected one, or it is MISWIRED. -/
def State.stackUp (s : State) (k peer link : Nat) : State :=
  if !s.cascOn ∨ s.get pgCsc CSC_LINK_CFGk.EN k = 0 then s
  else
    let bad := s.badId k peer
    let s := (s.put pgCsc CSC_LINK_STATk.PEER_ID peer k).put pgCsc CSC_LINK_STATk.PEER_LINK link k
    if !bad ∧ !(s.wired k peer link) then s.miswire k
    else
      let s := (s.put pgCsc CSC_LINK_STATk.MISWIRED 0 k).put pgCsc CSC_LINK_STATk.UP 1 k
      let s := s.upCsc fun c => if c.firstUp = 0 then { c with firstUp := s.io.time.counted + 1 } else c
      ((s.setMism k bad).raise pgCsc 0).sendHello k

/-- STACK_LINK_DOWN. -/
def State.stackDown (s : State) (k : Nat) : State :=
  if s.get pgCsc CSC_LINK_STATk.UP k = 0 ∧ s.get pgCsc CSC_LINK_STATk.MISWIRED k = 0 then s
  else
    let s := (s.put pgCsc CSC_LINK_STATk.UP 0 k).put pgCsc CSC_LINK_STATk.MISWIRED 0 k
    let s := s.upCsc fun c => { c with rx := c.rx.set [] k [] }
    (s.setMism k false).raise pgCsc 0

/-- HELLO_SEND: HELLO on every link that is up. -/
def State.helloSend (s : State) : State := s.upLinks.foldl (fun s k => s.sendHello k) s

/-- A device is live from the HELLO that arrived (R458). -/
def State.setLive (s : State) (d : Nat) : State :=
  let s := s.upCsc fun c => { c with hello := c.hello.set 0 d (s.io.time.counted + 1) }
  s.put pgCsc CSC_STAT.LIVE (s.get pgCsc CSC_STAT.LIVE ||| 2 ^ d)

/-- What a peer announces on its own link is checked (R446, R447). -/
def State.checkPeer (s : State) (k role id devs link : Nat) : State :=
  let bad := role != s.get pgCsc CSC_STAT.ROLE || devs != s.get pgCsc CSC_CFG.DEVICES || s.badId k id
  let s := (s.put pgCsc CSC_LINK_STATk.PEER_ID id k).put pgCsc CSC_LINK_STATk.PEER_LINK link k
  if bad then s.setMism k true
  else if !(s.wired k id link) then s.miswire k
  else s.setMism k false

/-- HELLO: liveness, and the peer's announcement. -/
def State.helloRx (s : State) (k : Nat) : State :=
  match s.takeRx k 0 ccHello with
  | none => s
  | some (_, f, s) =>
    let p := sfBody f
    let relayed : Bool := sfSrc f != s.get pgCsc CSC_LINK_STATk.PEER_ID k
    let s := s.setLive (sfSrc f)
    if relayed then s else s.checkPeer k (leAt p 0 1) (leAt p 1 1) (leAt p 2 1) (leAt p 3 1)

/-- PEER_LIVE_EXPIRE: no HELLO of device `d` for 4 ms (R458). -/
def State.liveExpire (s : State) (d : Nat) : State :=
  let h := s.csc.hello.get 0 d
  if h = 0 ∨ !s.cascOn ∨ d = s.myId then s
  else
    let s := s.passTo (4000000 + (h - 1))
    let s := s.upCsc fun c => { c with hello := c.hello.set 0 d 0 }
    s.put pgCsc CSC_STAT.LIVE (setBitsOf (s.get pgCsc CSC_STAT.LIVE) d 1 0)

/-! ### Time (R452 to R456) -/

/-- The TIME this device sends as, or for, master `mid`. -/
def State.timePay (s : State) (mid : Nat) : List Byte :=
  timeBytes s.io.time.ns ++ bytesLE 4 (s.get pgEpc EPC_EPOCH_NUM.NUM) ++ bytesLE 1 s.io.epochK ++ bytesLE 1 mid ++
    bytesLE 4 s.csc.lastCommit

def State.sendTime (s : State) (mid : Nat) : State := s.upLinks.foldl (fun s k => s.sendPeer ccTime (s.timePay mid) k) s

/-- TIME_SEND: the master sends TIME at a multiple of 2^14 ns. -/
def State.timeSend (s : State) : State :=
  let s := (s.reach s.io.time.due.timeSend (2 ^ 14)).upDue fun d => { d with timeSend := d.timeSend - 1 }
  if s.cascOn ∧ s.isMaster then s.sendTime s.myId else s

/-- The first copy of a TIME, PREPARE or DECIDE: it is remembered and relayed to every other peer (R451). -/
def State.firstCopy (s : State) (k : Nat) (f : List Byte) : Option State :=
  let key := bytesLE 1 (sfSrc f) ++ bytesLE 1 (sfCode f) ++ sfBody f
  if s.csc.seen.contains key then none
  else
    let s := s.upCsc fun c => { c with seen := key :: c.seen }
    let from' := s.get pgCsc CSC_LINK_STATk.PEER_ID k
    some (s.sendEach (sfSrc f) (sfCode f) (sfBody f) (s.others.filter fun d => d != sfSrc f && d != from'))

/-- The epoch number and K of the master are loaded; a boundary event that the step has made due will raise the number by 1 (R453). -/
def State.loadEpoch (s : State) (num k : Nat) : State :=
  let due := s.io.time.held || s.io.crossed.isSome
  let s := s.put pgEpc EPC_EPOCH_NUM.NUM (if due then subMod 32 num 1 else num)
  let s := s.upIo fun io => (io.putBank pgEpc EPC_EPOCH_CFG.K 0 k).putBank pgEpc EPC_EPOCH_CFG.K 1 k
  s.upCsc fun c => { c with adopted := true }

/-- After a write of EPC_STEP_CTL that moved the time base: Quince notes the step, gate lists are cut by the new time (R41,
R329, R384). -/
def State.stepped (s : State) (old : State) : State :=
  if s.io.time.ns = old.io.time.ns ∧ s.io.time.sub = old.io.time.sub ∧ s.io.time.set = old.io.time.set then s
  else (s.qncStep old.io.time.ns (s.io.time.set && !old.io.time.set)).gatesStepped

/-- Set the time base to `ns` as an absolute step (R41, R453). -/
def State.stepAs (s : State) (ns : Nat) : State :=
  let old := s.refillDue
  (old.upIo fun io => let io := io.stepTo ns 0; { io with time := { io.time with set := true } }).stepped old

/-- The offset exceeds 1 µs: the member steps, and loads the epoch at its first step. -/
def State.stepOffset (s : State) (off : Int) (num k : Nat) : State :=
  let s := s.stepAs ((s.io.time.ns : Int) - off).toNat
  let s := s.upCsc fun c => { c with near := 0 }
  if s.csc.adopted then s else s.loadEpoch num k

/-- The member slews towards its master, at a rate the spec bounds and leaves open. -/
def State.slew (s : State) (off : Int) : State :=
  let (v, s) := s.draw
  let r : Int := (v % 500001 : Nat)
  let r := if off = 0 then 0 else if 0 < off then -r else r
  s.upIo fun io => { io with time := { io.time with slew := ofSigned 32 r } }

/-- The 16th consecutive TIME within 8 ns locks the member (R453). -/
def State.nearStep (s : State) (off : Int) (num k : Nat) : State :=
  let near := if off ≤ 8 ∧ -8 ≤ off then s.csc.near + 1 else 0
  let s := s.upCsc fun c => { c with near := near }
  if near < 16 then s
  else
    let s := s.put pgCsc CSC_STAT.TIME_LOCKED 1
    if s.csc.adopted then s
    else
      let old := s.io.time.ns
      let first := !s.io.time.set
      let s := (s.loadEpoch num k).upIo fun io => { io with time := { io.time with set := true } }
      if first then s.qncStep old true else s

/-- A member acts on its offset (R453). -/
def State.actOffset (s : State) (off : Int) (num k : Nat) : State :=
  let s := s.put pgCsc CSC_TIME_OFFSET.NS (ofSigned 32 off)
  if 1000 < off ∨ off < -1000 then s.stepOffset off num k else (s.slew off).nearStep off num k

/-- A TIME that came directly from the master on link `k`: its times, and on the lowest such link the offset (R452). -/
def State.directTime (s : State) (k t t1 num kk : Nat) : State :=
  let s := s.upCsc fun c => { c with t1 := c.t1.set 0 k t1, t2 := c.t2.set 0 k t }
  if (s.ctlLinks (s.get pgCsc CSC_LINK_STATk.PEER_ID k)).head? = some k then
    s.actOffset ((t : Int) - t1 - s.get pgCsc CSC_LINK_STATk.DELAY_NS k) num kk
  else s

/-- A commit is not made: CASCADE_ABORT, ARM bits kept (R55, R458). -/
def State.cascAbort (s : State) : State :=
  let s := s.upIo fun io => { io with time := { io.time with armed := none } }
  let s := s.upCsc fun c => { c with target := none, decided := none, prepared := none, verdict := none }
  ((s.upIo fun io => io.commitState 6).raise pgEpc 2).put pgCsc CSC_COMMIT_STAT.OUTCOME 2

/-- At a change of master a cascade commit that is armed and not yet decided is abandoned (R460). -/
def State.abandonCommit (s : State) : State :=
  if (s.csc.target.isSome ∨ s.io.time.armed.isSome) ∧ s.csc.verdict.isNone then s.cascAbort else s

/-- This device becomes master: it takes over, and sends TIME from now on (R460). -/
def State.becomeMaster (s : State) : State :=
  let s := s.abandonCommit
  let s := (s.put pgCsc CSC_STAT.IS_MASTER 1).put pgCsc CSC_STAT.MASTER_ID s.myId
  let s := s.upCsc fun c => { c with lost := false }
  let s := s.upIo fun io => { io with time := { io.time with slew := 0 } }
  (s.bump pgCsc CSC_TAKEOVER_CNT.COUNT).raise pgCsc 2

/-- TIME names a master other than the one this member follows: a takeover it sees (R460). -/
def State.followMaster (s : State) (mid : Nat) : State :=
  if mid = s.get pgCsc CSC_STAT.MASTER_ID then s.upCsc fun c => { c with lost := false }
  else if mid = s.myId then s.becomeMaster.sendTime s.myId
  else
    let s := s.abandonCommit
    let s := (s.put pgCsc CSC_STAT.MASTER_ID mid).upCsc fun c => { c with lost := false, near := 0 }
    (s.bump pgCsc CSC_TAKEOVER_CNT.COUNT).raise pgCsc 2

/-- A commit this member answered PREPARED for was made by the others (R459). -/
def State.checkDiverged (s : State) (last : Nat) : State :=
  if s.csc.passed = some last then
    let s := s.upCsc fun c => { c with passed := none, late := true, lastCommit := last }
    (s.put pgCsc CSC_STAT.DIVERGED 1).raise pgCsc 3
  else s

/-- The first copy of a TIME at a member. -/
def State.timeFirst (s : State) (mid k last : Nat) : State :=
  let s := s.upCsc fun c => { c with timeAt := s.io.time.counted + 1 }
  let s := (s.followMaster mid).checkDiverged last
  if s.csc.adopted ∧ !s.isMaster then
    s.upIo fun io => (io.putBank pgEpc EPC_EPOCH_CFG.K 0 k).putBank pgEpc EPC_EPOCH_CFG.K 1 k
  else s

/-- A device of identity 0 that boots into a cascade with a master joins as a member (R461). -/
def State.demote' (s : State) (mid : Nat) : State :=
  if s.isMaster ∧ s.myId = 0 ∧ mid ≠ 0 ∧ s.csc.firstUp ≠ 0 ∧ s.io.time.counted + 1 ≤ s.csc.firstUp + 100000000 then
    ((s.put pgCsc CSC_STAT.IS_MASTER 0).put pgCsc CSC_STAT.MASTER_ID mid).put pgCsc CSC_STAT.DEMOTED 1
  else s

/-- A TIME naming master `mid` at a member: its first copy is acted on, and a direct one gives the offset. -/
def State.timeMember (s : State) (k t mid : Nat) (f : List Byte) : State :=
  let p := sfBody f
  let s := match s.firstCopy k f with
    | none => s
    | some s' => s'.timeFirst mid (leAt p 14 1) (leAt p 16 4)
  if s.isMaster ∨ sfSrc f ≠ mid ∨ s.get pgCsc CSC_LINK_STATk.PEER_ID k ≠ mid then s
  else s.directTime k t (timeAt' p 0) (leAt p 10 4) (leAt p 14 1)

/-- TIME: a member's offset, step, slew, lock and adoption (R451 to R453, R459 to R461). -/
def State.timeRx (s : State) (k : Nat) : State :=
  match s.takeRx k 0 ccTime with
  | none => s
  | some (t, f, s') =>
    let mid := leAt (sfBody f) 15 1
    let s2 := s'.demote' mid
    if s2.isMaster then s2 else s2.timeMember k t mid f

/-- DELAY_REQ_SEND: a member sends its transmit time on each link (R452). -/
def State.delayReqSend (s : State) : State :=
  if !s.follower then s
  else
    s.upLinks.foldl (fun s k =>
      (s.sendPeer ccDelayReq (timeBytes s.io.time.ns) k).upCsc fun c => { c with t3 := c.t3.set 0 k s.io.time.ns }) s

/-- DELAY_REQ is answered with its receipt time. -/
def State.delayReqRx (s : State) (k : Nat) : State :=
  match s.takeRx k 0 ccDelayReq with
  | none => s
  | some (t, _, s) => s.sendPeer ccDelayResp (timeBytes t) k

/-- DELAY_RESP: the one-way delay of the latest exchange on the link (R452). -/
def State.delayRespRx (s : State) (k : Nat) : State :=
  match s.takeRx k 0 ccDelayResp with
  | none => s
  | some (_, f, s) =>
    let c := s.csc
    if c.t1.get 0 k = 0 then s
    else
      let d : Int := ((c.t2.get 0 k : Int) - c.t1.get 0 k + ((timeAt' (sfBody f) 0 : Int) - c.t3.get 0 k)) / 2
      s.put pgCsc CSC_LINK_STATk.DELAY_NS (min 0xFFFF d.toNat) k

/-- TIME_LOST: no TIME for four intervals (R456). -/
def State.timeLost (s : State) : State :=
  if !s.follower ∨ s.csc.lost then s
  else
    let s := s.passTo (65536 + (s.csc.timeAt - 1))
    ((s.put pgCsc CSC_STAT.TIME_LOCKED 0).upCsc fun c => { c with lost := true, near := 0 }).raise pgCsc 6

/-- CASC_EPOCH_EDGE: a member's skew at the edge (R455). -/
def State.epochEdge (s : State) (skew : Int) : State :=
  if !s.follower then s
  else
    let s := s.put pgCsc CSC_SKEW.SKEW_NS (ofSigned 16 skew)
    if s.get pgCsc CSC_SKEW.LIMIT_NS < skew.natAbs then s.raise pgCsc 4 else s

/-- The master pulls CASC_EPOCH low at its boundary event, and releases it 100 ns later (R455). -/
def State.epochPull (s : State) : State :=
  if s.cascOn ∧ s.isMaster then s.upIo fun io => { io with sys := { io.sys with cascLow := true } } else s

def State.epochRelease (s : State) : State :=
  if !s.io.sys.cascLow then s
  else
    let s := s.passTo ((s.io.time.lastBoundary.getD 0) + 100)
    s.upIo fun io => { io with sys := { io.sys with cascLow := false } }

/-! ### Cascade commits (R457 to R459) -/

/-- Nanoseconds of the time base until the boundary that begins epoch `e`; a boundary that is held or waits comes first (R45). -/
def State.untilEpoch (s : State) (e : Nat) : Nat :=
  let d := subMod 32 e (s.get pgEpc EPC_EPOCH_NUM.NUM)
  let waits := if s.io.time.held ∨ s.io.crossed.isSome then 1 else 0
  if d ≤ 1 then s.io.nsToBoundary else s.io.toMultiple (2 ^ s.io.epochK) + (d - 1 - waits) * 2 ^ s.io.epochK

/-- GO on a cascade: on the master only, and LATE when fewer than PREP_US + 1 µs remain (R457). -/
def State.cascGo (s : State) (m : Nat) : State :=
  if !s.cascOn then s.upIo (·.commitGo)
  else if !s.isMaster then s.err pgEpc 1 m EPC_COMMIT_CTL.GO.off
  else
    let e := s.get pgEpc EPC_COMMIT_TARGET.TARGET
    if aheadOf e (s.get pgEpc EPC_EPOCH_NUM.NUM) ∧ s.untilEpoch e < 1000 * (s.get pgCsc CSC_COMMIT_CFG.PREP_US + 1) then
      (s.upIo fun io => io.commitState 3).raise pgEpc 2
    else s.upIo (·.commitGo)

/-- Let time pass to `us` before the boundary of `e`, if no other boundary comes first: whether it is then due. -/
def State.toBefore (s : State) (e us : Nat) : State × Bool :=
  let r := s.untilEpoch e
  let w := r - 1000 * us
  if !(aheadOf e (s.get pgEpc EPC_EPOCH_NUM.NUM)) ∨ s.io.crossed.isSome then (s, false)
  else if w = 0 then (s, true)
  else if w < s.io.nsToBoundary then (s.passNs w, true)
  else (s, false)

/-- A device refuses, or does not reply: REASON is that of the lowest (R470). -/
def State.refuse (s : State) (d reason : Nat) : State :=
  let m := s.get pgCsc CSC_COMMIT_STAT.REFUSED
  let s := if m % 2 ^ d = 0 then s.put pgCsc CSC_COMMIT_STAT.REASON reason else s
  s.put pgCsc CSC_COMMIT_STAT.REFUSED (m ||| 2 ^ d)

def State.agree (s : State) (d : Nat) : State :=
  s.put pgCsc CSC_COMMIT_STAT.PREPARED (s.get pgCsc CSC_COMMIT_STAT.PREPARED ||| 2 ^ d)

/-- A new cascade commit for `e` is recorded. -/
def State.openTarget (s : State) (e : Nat) : State :=
  let s := s.upCsc fun c => { c with target := some e, decided := none, prepared := none, verdict := none }
  let s := ((s.put pgCsc CSC_COMMIT_STAT.PREPARED 0).put pgCsc CSC_COMMIT_STAT.REFUSED 0).put pgCsc CSC_COMMIT_STAT.REASON 0
  (s.put pgCsc CSC_COMMIT_STAT.OUTCOME 0).put pgCsc CSC_COMMIT_TGT.EPOCH e

/-- One of the device's armed pages is SHADOW_BUSY. -/
def State.armedBusy (s : State) : Bool := s.io.armedPages.any fun pg => s.get pg.base PG_SHADOW_CTL.SHADOW_BUSY = 1

/-- PREPARE_SEND: at B − PREP_US (R458). -/
def State.prepareSend (s : State) : State :=
  match s.io.time.armed with
  | none => s
  | some e =>
    if !s.cascOn ∨ !s.isMaster ∨ s.csc.target = some e then s
    else
      match s.toBefore e (s.get pgCsc CSC_COMMIT_CFG.PREP_US) with
      | (_, false) => s
      | (s, true) =>
        let s := s.openTarget e
        let s := if s.armedBusy then s.refuse s.myId 3 else s.agree s.myId
        s.sendEach s.myId ccPrepare (bytesLE 4 e) s.others

/-- A member's answer to PREPARE(e): the reason it refuses, if any (R458). -/
def State.prepareAnswer (s : State) (e : Nat) : Option Nat :=
  if s.get pgCsc CSC_STAT.TIME_LOCKED = 0 then some 1
  else if !(aheadOf e (s.get pgEpc EPC_EPOCH_NUM.NUM)) then some 2
  else if s.armedBusy then some 3 else none

/-- The answer goes to the master, on its lowest UP link or the link PREPARE came on. -/
def State.answerMaster (s : State) (k master code : Nat) (pay : List Byte) : State :=
  s.sendCtl ((s.ctlLinks master).headD k) s.myId master code pay

/-- PREPARE: checked and answered at once (R458). -/
def State.prepareRx (s : State) (k : Nat) : State :=
  match s.takeRx k 0 ccPrepare with
  | none => s
  | some (_, f, s) =>
    if s.isMaster then s
    else
      match s.firstCopy k f with
      | none => s
      | some s =>
        let e := leAt (sfBody f) 0 4
        let s := s.openTarget e
        match s.prepareAnswer e with
        | some r => (s.refuse s.myId r).answerMaster k (sfSrc f) ccRefused (bytesLE 4 e ++ bytesLE 1 r)
        | none =>
          let s := (s.agree s.myId).upCsc fun c => { c with prepared := some e }
          s.answerMaster k (sfSrc f) ccPrepared (bytesLE 4 e)

/-- PREPARED: the master records the answer. -/
def State.preparedRx (s : State) (k : Nat) : State :=
  match s.takeRx k 0 ccPrepared with
  | none => s
  | some (_, f, s) => if s.isMaster ∧ s.csc.target = some (leAt (sfBody f) 0 4) then s.agree (sfSrc f) else s

/-- REFUSED: the master records the answer and its reason. -/
def State.refusedRx (s : State) (k : Nat) : State :=
  match s.takeRx k 0 ccRefused with
  | none => s
  | some (_, f, s) =>
    if s.isMaster ∧ s.csc.target = some (leAt (sfBody f) 0 4) then s.refuse (sfSrc f) (leAt (sfBody f) 4 1) else s

/-- Live devices that have not answered count as refusing, with reason 4. -/
def State.noReplies (s : State) : State :=
  let live := s.get pgCsc CSC_STAT.LIVE
  let got := s.get pgCsc CSC_COMMIT_STAT.PREPARED ||| s.get pgCsc CSC_COMMIT_STAT.REFUSED
  (onesOf 4 live).foldl (fun s d => if got.testBit d then s else s.refuse d 4) s

/-- DECIDE_SEND: at B − MARGIN_US, COMMIT when every live device is prepared and the commit is still armed (R458). -/
def State.decideSend (s : State) : State :=
  match s.csc.target, s.csc.decided with
  | some e, none =>
    if !s.cascOn ∨ !s.isMaster then s
    else
      match s.toBefore e (s.get pgCsc CSC_COMMIT_CFG.MARGIN_US) with
      | (_, false) => s
      | (s, true) =>
        let s := s.noReplies
        let ok := s.io.time.armed == some e && s.get pgCsc CSC_COMMIT_STAT.REFUSED == 0
        let s := s.upCsc fun c => { c with decided := some ok, verdict := some (e, ok) }
        s.sendEach s.myId ccDecide (bytesLE 4 e ++ bytesLE 1 (b2n ok)) s.others
  | _, _ => s

/-- DECIDE: relayed, and kept for the boundary event (R458). -/
def State.decideRx (s : State) (k : Nat) : State :=
  match s.takeRx k 0 ccDecide with
  | none => s
  | some (_, f, s) =>
    if s.isMaster then s
    else
      match s.firstCopy k f with
      | none => s
      | some s => s.upCsc fun c => { c with verdict := some (leAt (sfBody f) 0 4, leAt (sfBody f) 4 1 % 2 == 1) }

/-- A commit is made; `last`: the epoch it belongs to. A member that had missed one catches up with it (R459). -/
def State.cascCommitted (s : State) (last outcome : Nat) : State :=
  let s := s.upCsc fun c =>
    { c with target := none, decided := none, prepared := none, verdict := none, late := false, lastCommit := last }
  (s.put pgCsc CSC_STAT.DIVERGED 0).put pgCsc CSC_COMMIT_STAT.OUTCOME outcome

/-- The boundary event of epoch `num` on a device of a cascade: whether its armed pages commit (R458, R459). -/
def State.commitBoundary (s : State) (num : Nat) : State × Bool :=
  let c := s.csc
  if c.verdict = some (num, true) ∧ (c.decided.isNone ∨ s.io.time.armed = some num) then (s.cascCommitted num 1, true)
  else if c.late then (s.cascCommitted c.lastCommit 3, true)
  else if c.target = some num ∨ (s.isMaster ∧ s.io.time.armed = some num) then
    let missed := if c.prepared = some num ∧ c.verdict.isNone then some num else none
    (s.cascAbort.upCsc fun c => { c with passed := missed }, false)
  else (s, false)

/-! ### Takeover (R460, R461) -/

/-- The live device of lowest identity, the named one aside. -/
def State.lowestLive (s : State) (but : Nat) : Nat :=
  (((onesOf 4 (s.get pgCsc CSC_STAT.LIVE)).filter (· != but)).head?).getD s.myId

/-- A lost master is replaced at the boundary event; an undecided commit is abandoned (R460). -/
def State.takeover (s : State) : State :=
  if !s.csc.lost ∨ s.isMaster then s
  else
    let s := s.abandonCommit
    if s.lowestLive (s.get pgCsc CSC_STAT.MASTER_ID) = s.myId then s.becomeMaster.sendTime s.myId else s

/-- Mastership is handed back at the boundary event (R461); the new master learns it from a last TIME that names it. -/
def State.handBack (s : State) : State :=
  if !s.csc.handback then s
  else
    let s := s.upCsc fun c => { c with handback := false }
    let d := s.lowestLive 4
    if d = s.myId then s
    else
      let s := s.abandonCommit.sendTime d
      let s := s.upCsc fun c => { c with timeAt := s.io.time.counted + 1, near := 0 }
      (s.put pgCsc CSC_STAT.IS_MASTER 0).put pgCsc CSC_STAT.MASTER_ID d

/-- HANDBACK: on the present master only (R461, R470). -/
def State.handbackWrite (s : State) (m v : Nat) : State :=
  if !(v.testBit 0) then s
  else if s.isMaster ∧ s.cascOn then s.upCsc fun c => { c with handback := true }
  else s.err pgCsc 1 m 0x090

/-- The cascade's part of a boundary event: whether armed pages commit. -/
def State.cascBoundary (s : State) (num : Nat) : State × Bool :=
  let s := s.epochPull
  let s := s.upCsc fun c => { c with seen := c.seen.filter fun x => leAt x 1 1 == ccTime }
  let r := s.commitBoundary num
  (r.1.takeover.handBack, r.2)

/-! ### Packets across links (R450, R463, R465) -/

/-- The offset of the outer EtherType, past VLAN tags. -/
def outerType (d : List Byte) : Nat → Nat → Nat
  | 0, o => o
  | n + 1, o => if beAt d o 2 = 0x8100 ∨ beAt d o 2 = 0x88A8 then outerType d n (o + 4) else o

/-- The PTP operation of a DATA frame as the receiving port applies it (R109, R463): over UDP, the UDP header stands 8 B before. -/
def dataPtp (d : List Byte) (op off : Nat) : Ptp :=
  let t := beAt d (outerType d 2 12) 2
  if op = 0 then {} else { op := op, off := off, udp := if t = 0x88F7 then none else some (off - 8), v6 := t == 0x86DD }

/-- The carried ingress timestamp in units of 2^-16 ns. -/
def sfStamp (f : List Byte) : Nat := 65536 * (1000000000 * leAt f 16 6 + leAt f 12 4) + leAt f 22 2

/-- DATA_RX: a copy for a port of this device is judged for its egress queue (R463). -/
def State.dataRx (s : State) (k : Nat) : State :=
  match s.takeRx k 2 0 with
  | none => s
  | some (_, f, s) =>
    let b := sfBody f
    let d := b.take (b.length - 4)
    let n := leAt f 2 1
    let b3 := leAt f 3 1
    let (id, s) := s.newStored d
    let c : Copy := { pkt := id, len := b.length, ptp := dataPtp d (bitsOf b3 4 2) (leAt f 4 2), ts := sfStamp f,
                      pipe := n / 16 % 8, srcPort := leAt f 1 1 }
    let s := (s.admitPort n (b3 % 8) c false).1
    s.placed id

/-- STEER_RX: the packet enters the staging of the pipeline its hash names (R465). -/
def State.steerRx (s : State) (k : Nat) : State :=
  match s.takeRx k 1 0 with
  | none => s
  | some (_, f, s) =>
    let b := sfBody f
    let d := b.take (b.length - 4)
    let w := leAt f 24 2
    s.stage { bytes := d, pipe := bitsOf (leAt f 8 4) 8 3, inPort := leAt f 26 1, ts := sfStamp f, zone := some (w % 4096),
              hashLayer := some (bitsOf w 12 2), prio := framePrio d, steered := true }

/-- The frame a stack copy puts on its link: its packet with FCS, stomped when a cell was bad (R305, R449). -/
def State.stackFrame (s : State) (c : Copy) : List Byte :=
  let p := s.stored c.pkt
  let d := p.bytes.take (c.len - 4)
  let f := fcsOf d
  d ++ (if p.bad.isSome then f.map (~~~ ·) else f)

/-- STACK_FRAME_TX: when the link is free, its next DATA frame, else its next STEER frame (R450, R468). -/
def State.stackTx (s : State) (k : Nat) (cells : List (Nat × Bool)) : State :=
  if !(s.linkLive k) ∨ tb s.csc.mism k then s
  else
    let q := if (s.queue (stackQ k 0)).isEmpty then stackQ k 1 else stackQ k 0
    match s.queue q with
    | [] => s
    | c :: rest =>
      let s := (s.passTo ((s.csc.free.get 0 k + 49) / 50)).readCells c.pkt cells
      let bad := (s.stored c.pkt).bad
      let s := s.sendStack k c.stack (s.stackFrame c)
      let s := s.changeQueue q rest
      ((s.stomp bad).release c.pkt).traceDone c.tag 0 0 (some s.io.now16)

/-! ### Remote access (R469) -/

/-- The link an RMT frame takes to a device: a direct one, else one to a peer that relays it. -/
def State.rmtLink (s : State) (d : Nat) : Option Nat :=
  match s.ctlLinks d with
  | k :: _ => some k
  | [] => s.upLinks.head?

/-- RMT_GO (R469). -/
def State.rmtGo (s : State) (m v : Nat) : State :=
  if !(v.testBit 0) then s
  else if !(m = 0x01 ∨ m = 0x10 ∨ m = 0x11) then s.err pgCsc 1 m 0x0A8
  else if s.get pgCsc CSC_RMT_STAT.CODE = 1 then s.err pgCsc 4 m 0x0A8
  else
    let d := s.get pgCsc CSC_RMT_ADDR.DEV
    match (if d = s.myId then none else s.rmtLink d) with
    | none => s.put pgCsc CSC_RMT_STAT.CODE 3
    | some k =>
      let tag := (s.csc.rmtTag + 1) % 256
      let now := s.io.time.counted
      let s := s.upCsc fun c => { c with rmtTag := tag, rmtWrite := v.testBit 1, rmtWait := true, rmtAt := now }
      let s := s.sendCtl k s.myId d ccRmtReq
        (bytesLE 1 tag ++ bytesLE 1 (b2n (v.testBit 1)) ++ bytesLE 4 (s.get pgCsc CSC_RMT_ADDR.OFFSET) ++
          bytesLE 4 (s.get pgCsc CSC_RMT_DATA.DATA))
      s.put pgCsc CSC_RMT_STAT.CODE 1

/-- An RMT frame for another device goes on to it. -/
def State.rmtRelay (s : State) (f : List Byte) : State :=
  match s.ctlLinks (sfDst f) with
  | [] => s
  | k :: _ => s.sendCtl k (sfSrc f) (sfDst f) (sfCode f) (sfBody f)

/-- The answer to an RMT_REQ that came on link `k` from device `d`. -/
def State.rmtAnswer (s : State) (k d tag code data : Nat) : State :=
  s.sendCtl ((s.ctlLinks d).headD k) s.myId d ccRmtRsp (bytesLE 1 tag ++ bytesLE 1 code ++ bytesLE 4 data)

/-- RMT_RSP: the outcome and the data read. -/
def State.rmtRspRx (s : State) (k : Nat) : State :=
  match s.takeRx k 0 ccRmtRsp with
  | none => s
  | some (_, f, s) =>
    if sfDst f ≠ s.myId then s.rmtRelay f
    else
      let p := sfBody f
      if !s.csc.rmtWait ∨ leAt p 0 1 ≠ s.csc.rmtTag then s
      else
        let late : Bool := s.csc.rmtAt + 2000 < s.io.time.counted
        let s := s.upCsc fun c => { c with rmtWait := false }
        if late then s.put pgCsc CSC_RMT_STAT.CODE 4 else
        let s := if s.csc.rmtWrite then s else s.put pgCsc CSC_RMT_DATA.DATA (leAt p 2 4)
        s.put pgCsc CSC_RMT_STAT.CODE (leAt p 1 1)

/-- RMT_TIMEOUT: 2 µs without a response. -/
def State.rmtTimeout (s : State) : State :=
  if !s.csc.rmtWait then s
  else
    let s := s.passTo (s.csc.rmtAt + 2000)
    (s.upCsc fun c => { c with rmtWait := false }).put pgCsc CSC_RMT_STAT.CODE 4

/-! ### Register writes (R446, R470) -/

/-- A write of CSC_CFG: fixed once CASCADE is active. -/
def State.cscCfg (s : State) (m v : Nat) : State :=
  if s.get pgCsc CSC_STAT.ACTIVE = 1 then s
  else if v % 8 < 2 ∨ 4 < v % 8 then s.err pgCsc 3 m 0x040
  else (s.put pgCsc CSC_CFG.DEVICES v).put pgCsc CSC_CFG.FALLBACK (bitsOf v 31 1)

/-- A write of CSC_COMMIT_CFG, clamped. -/
def State.cscCommitCfg (s : State) (v : Nat) : State :=
  let mg := max 1 (min 20 (bitsOf v 8 8))
  (s.put pgCsc CSC_COMMIT_CFG.MARGIN_US mg).put pgCsc CSC_COMMIT_CFG.PREP_US (max (mg + 2) (min 200 (v % 256)))

/-- A write of CSC_LINK_CFGk: a link switched off goes to electrical idle. -/
def State.cscLinkCfg (s : State) (k v : Nat) : State :=
  let s := s.upIo fun io => io.wr (pgCsc + 0x070 + 4 * k) (BitVec.ofNat 32 (v &&& 0x800000FF))
  if v.testBit 31 then s else s.stackDown k

end Sys2Proof.Machine
end

