-- ==== Sys2Proof/Machine/Spaces.lean ====
section
/-!
DEFINITION. The memory spaces of Pip microcode (R245, R347): what a byte of a space reads as, and what storing to it does.  The
byte layouts are the model's where the spec gives none (log entry 41).
-/
namespace Sys2Proof.Machine

/-- The binding of the routine's own subscriber: the source side of its creating packet. -/
def Ctx.subscriberKey (x : Ctx) : Nat :=
  match x.pass with
  | none => 0
  | some ps => subscriber ps.zone (if ps.srcLow then beAt ps.block 0 16 else beAt ps.block 16 16)

/-! ### The register window (R347) -/

/-- A register word of the window; `none` faults with ACCESS. -/
def State.windowAt (s : State) (a : Nat) : Option Nat :=
  if a % 4 ≠ 0 then none
  else if a < 0x40 then some (s.get pgT FLW_AGE_EFFn.EFF (a / 4))
  else if a < 0x80 then some (s.io.rd (pgT + 0x080 + 8 * ((a - 0x40) / 4))).toNat
  else if a = 0x80 then some s.usedRecords
  else if a = 0x84 then some (67108864 - s.usedRecords)
  else if a = 0x88 then some (s.io.rd (pgE + 0x080)).toNat
  else if a = 0x8C then some ((List.range 11).foldl (fun v r => v + b2n (s.io.div r != 8) * 2 ^ r) 0)
  else if 0x100 ≤ a ∧ a < 0x300 then some (s.get (pgTmbP ((a - 0x100) / 4)) TMB_PORT_OCC.CELLS)
  else if 0x300 ≤ a ∧ a ≤ 0x32C then some (s.io.rd (pgE + 0x0A0 + (a - 0x300))).toNat
  else none

/-- TEL_SUSPEND written whole. -/
def State.setSuspend (s : State) (v : Nat) : State :=
  ((s.put pgE TEL_SUSPEND.BG (v % 2)).put pgE TEL_SUSPEND.SCRUB (v / 2 % 2)).put pgE TEL_SUSPEND.TELEM (v / 4 % 2)

/-- A write of the window by the global Pip: FLW_AGE_EFFn or TEL_SUSPEND, while its policy is enabled (R346). -/
def State.storeWindow (s : State) (a v : Nat) : State :=
  if a < 0x40 then (if s.policyOn 2 then s.effWrite (a / 4) 0x28 v pgT else s)
  else if s.policyOn 4 then s.setSuspend v else s

/-! ### Areas -/

/-- An area of a space: its first byte, its items and their size in bytes. -/
structure Area where
  base : Nat
  count : Nat
  size : Nat
deriving DecidableEq, Repr

/-- The areas of the spaces other than the window and the buckets. -/
def areasOf (q sp : Nat) : List Area :=
  match sp with
  | 0 => [⟨0, 128, 1⟩]
  | 1 => [⟨0, if q < 8 then 4096 else 32768, 16⟩]
  | 2 => [⟨0, 4194304, 2⟩]
  | 3 => [⟨0, 16384, 32⟩]
  | 4 => [⟨0, 524288, 4⟩, ⟨2 ^ 21, 64, 16⟩]
  | 5 => [⟨0, 4, 4⟩]
  | 6 => [⟨0, 4096, 1⟩, ⟨4096, 16, 16⟩]
  | 7 => [⟨0, 4096, 1⟩, ⟨4096, 16, 4⟩]
  | _ => []

/-- The area that `n` bytes at `a` of a space lie in. -/
def areaAt (q sp a n : Nat) : Option Area :=
  (areasOf q sp).find? fun r => decide (r.base ≤ a) && decide (a + n ≤ r.base + r.count * r.size)

/-- A profile as a routine sees it: zeros where it is not valid in the packet's bank, or in the active bank for the global Pip. -/
def State.profBanked (s : State) (q : Nat) (x : Ctx) (i : Nat) : Nat :=
  let p := if q < 8 then q else i / 4096 % 8
  let b := if q < 8 then (x.pass.map Pass.actBank).getD (s.io.active (pgAct p)) else s.io.active (pgAct p)
  if s.profOn p (i % 4096) b then (s.prof p (i % 4096)).toNat else 0

/-- Item `i` of the area of a space that begins at `base`, as a little-endian number. -/
def State.itemAt (s : State) (q : Nat) (x : Ctx) (sp base i : Nat) : Nat :=
  match sp with
  | 0 => (x.pass.map fun ps => leAt ps.hv.bytes i 1).getD 0
  | 1 => s.profBanked q x i
  | 2 => s.slot (i / 4096) (i % 4096)
  | 3 => (s.member i).toNat + ofBytesLE (s.memberExt i) * 2 ^ 128
  | 4 => if base = 0 then (s.block i).toNat else (s.natPool i).toNat
  | 5 => (s.binding x.subscriberKey).getD i 0xFFFFFFFF
  | 6 => if base = 0 then s.act.zoneSet.get 0 (4096 * q + i) else (s.act.classes.get 0 (16 * q + i)).toNat
  | _ => if base = 0 then (s.mapAt i).toNat else (s.io.rd (pgQnc + 0x100 + 4 * i)).toNat

/-- A member word and its extension; reserved bits stay 0. -/
def State.putMember (s : State) (m v : Nat) : State :=
  let s := s.setMember m (setBitsOf (v % 2 ^ 32) 8 20 0)
  { s with act := { s.act with memberExt := s.act.memberExt.set 0 m (BitVec.ofNat 128 (bitsOf v 128 96))
                               gone := s.act.gone.set false (8388608 + m) false } }

/-- MAP[a] by a routine: ignored under the lock (R374, R394). -/
def State.putMap (s : State) (a v : Nat) : State :=
  if s.get pgQnc QNC_LOCKS.MAP = 1 then s
  else (s.upQnc fun q => { q with map := q.map.set 0 a (BitVec.ofNat 4 v) }).bump pgQnc QNC_ASSIGN_GEN.GEN

/-- Store item `i`: what a write of it by the host would leave, an encoding that the host's write refuses aside. -/
def State.putItem (s : State) (q : Nat) (x : Ctx) (sp base i v : Nat) : State :=
  match sp with
  | 1 => if profRefused (BitVec.ofNat 128 v) then s else s.setProf q (i % 4096) (BitVec.ofNat 128 v)
  | 2 => s.setSlot (i / 4096) (i % 4096) (v % 2 ^ 14)
  | 3 => s.putMember i v
  | 4 => if base = 0 then s.setBlock i v else { s with act := { s.act with pool := s.act.pool.set 0 i (BitVec.ofNat 96 v) } }
  | 5 =>
    let l := s.binding x.subscriberKey
    s.setBinding x.subscriberKey (((List.range 4).map fun j => if j = i then v else l.getD j 0xFFFFFFFF).filter (· < 524288))
  | 6 =>
    if base = 0 then { s with act := { s.act with zoneSet := s.act.zoneSet.set 0 (4096 * q + i) (v % 16) } }
    else { s with act := { s.act with classes := s.act.classes.set 0 (16 * q + i) (BitVec.ofNat 128 v) } }
  | 7 => if base = 0 then s.putMap i v else s.qncClass (i / 2) (i % 2) (0x20 + q) v
  | _ => s

/-- The byte image of a window of a table. -/
def imageOf (item : Nat → List Byte) (size a n : Nat) : List Byte :=
  sliceB ((List.range ((a % size + n + size - 1) / size)).flatMap fun i => item (a / size + i)) (a % size) n

/-- `n` bytes at `a` of a space other than the buckets; `none` faults with ACCESS. -/
def State.spaceBytes (s : State) (q : Nat) (x : Ctx) (sp a n : Nat) : Option (List Byte) :=
  if sp = 8 then (s.windowAt a).map fun v => sliceB (bytesLE 4 v) 0 n
  else if sp = 0 ∧ x.pass.isNone then none
  else (areaAt q sp a n).map fun r => imageOf (fun i => bytesLE r.size (s.itemAt q x sp r.base i)) r.size (a - r.base) n

/-- The numbers of the items that bytes from `o` on of an area touch. -/
def itemsOf (size o n : Nat) : List Nat := (List.range ((o % size + n + size - 1) / size)).map (o / size + ·)

/-- An item's value with the stored bytes `l`, at offset `o` of its area, put over it. -/
def mixItem (size i old o : Nat) (l : List Byte) : Nat :=
  ofBytesLE ((List.range size).map fun j =>
    let p := i * size + j
    if o ≤ p ∧ p < o + l.length then l.getD (p - o) 0 else BitVec.ofNat 8 (old / 256 ^ j))

/-- Bytes stored to a space take effect, item by item. -/
def State.spaceStore (s : State) (q : Nat) (x : Ctx) (sp a : Nat) (l : List Byte) : State :=
  if sp = 8 then s.storeWindow a (leAt l 0 4)
  else
    match areaAt q sp a l.length with
    | none => s
    | some r =>
      (itemsOf r.size (a - r.base) l.length).foldl (fun s i =>
        s.putItem q x sp r.base i (mixItem r.size i (s.itemAt q x sp r.base i) (a - r.base) l)) s

/-- A space a sequencer may read (R245): 8 the global Pip only, 9 pipelines only; `none` is ILLEGAL. -/
def spaceReadable (q sp : Nat) : Option Bool :=
  if 10 ≤ sp then none else some (if sp = 8 then q == 8 else if sp = 9 then q != 8 else true)

/-- `n` bytes at `a` of a space that a sequencer may store to: a pipeline every space that is not read-only or the global Pip's; the
global Pip its slots and window (R245, R346, R347). -/
def spaceWritable (q sp a n : Nat) : Bool :=
  if sp = 8 then q == 8 && a % 4 == 0 && (decide (a < 0x40) || a == 0x88)
  else (if q = 8 then sp == 2 else sp != 0) && (areaAt q sp a n).isSome

/-! ### NAT state changed at once (R219, R247) -/

/-- A block word changes only as R219 changes it at once: allocated, NEXT moved, FLOWS raised. -/
def blockGrows (o n : W32) : Bool := (!(blkOn o) || blkOn n) && decide (blkFlows o ≤ blkFlows n) && gb o 12 4 == gb n 12 4

/-- A store to NAT state that takes effect at once; the blocks whose FLOWS it raises, once for each flow. -/
def State.natStore (s : State) (q : Nat) (x : Ctx) (sp a : Nat) (l : List Byte) : Option (State × List Nat) :=
  let t := s.spaceStore q x sp a l
  if sp = 5 then
    let b := s.binding x.subscriberKey
    if (t.binding x.subscriberKey).take b.length = b then some (t, []) else none
  else if sp = 4 ∧ a < 2 ^ 21 then
    let g := itemsOf 4 a l.length
    if g.all fun i => blockGrows (s.block i) (t.block i) then
      some (t, g.flatMap fun i => List.replicate (blkFlows (t.block i) - blkFlows (s.block i)) i)
    else none
  else none

end Sys2Proof.Machine
end

