-- ==== Sys2Proof/Machine/Pip.lean ====
section
/-!
DEFINITION. The Pip sequencers, what their routines share (R233 to R235, R245 to R258): contexts, events, locks, claims, staging,
COMMIT, ends, faults, stop, urgent events and commits.
-/
namespace Sys2Proof.Machine

/-! ### Fault codes (R258) -/

def pfIllegal : Nat := 1
def pfStackOvf : Nat := 2
def pfStackUnf : Nat := 3
def pfAccess : Nat := 4
def pfStageFull : Nat := 5
def pfStepLimit : Nat := 6
def pfSlice : Nat := 7
def pfDeadline : Nat := 8
def pfLockOrder : Nat := 9
def pfNanoLost : Nat := 10
def pfMemError : Nat := 11
def pfRomParity : Nat := 12

/-! ### Contexts and the page -/

/-- Change context `c` of sequencer `q`. -/
def State.upCtx (s : State) (q c : Nat) (f : Ctx → Ctx) : State := s.setCtx q c (f (s.ctx q c))

/-- Contexts of `q` that run or hold a routine. -/
def State.busyCtxs (s : State) (q : Nat) : Nat := ctxCount q - (s.freeCtxs q (ctxCount q)).length

/-- Every context is free or suspended. -/
def State.allStill (s : State) (q : Nat) : Bool :=
  (List.range (ctxCount q)).all fun c => (s.ctx q c).phase == .free || (s.ctx q c).phase == .suspended

/-- PIP_STAT after a change of contexts (R254, R263). -/
def State.pipStat (s : State) (q : Nat) : State :=
  let b := pgPip q
  let s := (s.put b PIP_STAT.BUSY (s.busyCtxs q)).upIo fun io => io.maxTo b PIP_STAT.HIGH (s.busyCtxs q)
  let was := s.get b PIP_STAT.STOPPED
  let st := s.get b PIP_CTL.STOP = 1 && s.allStill q
  let s := s.put b PIP_STAT.STOPPED (b2n st)
  if was = 0 ∧ st then s.raise b 3 else s

/-- No context that is ready and may issue stands before context `c` in the round robin; those that issued one of the last three
microwords may not issue yet (R234; log entry 75). -/
def State.hasTurn (s : State) (q c : Nat) : Bool :=
  let l := s.pip.recent.get [] q
  let n := ctxCount q
  match l with
  | [] => true
  | k :: _ =>
    (List.range ((c + n - k % n - 1) % n)).all fun i =>
      let j := (k + 1 + i) % n
      (s.ctx q j).phase != .ready || l.contains j

/-- Context `c` issues. -/
def State.tookTurn (s : State) (q c : Nat) : State :=
  { s with pip := { s.pip with recent := s.pip.recent.set [] q (c :: (s.pip.recent.get [] q).take 2) } }

/-- The present image bank of a sequencer. -/
def State.pipBank (s : State) (q : Nat) : Nat := s.io.active (pgPip q)

/-! ### Locks (R246) -/

/-- The holder of device lock `n`: 32 · sequencer + context + 1, or 0. -/
def State.devLock (s : State) (n : Nat) : Nat := s.pip.lock.get 0 n

def State.setLock (s : State) (n h : Nat) : State := { s with pip := { s.pip with lock := s.pip.lock.set 0 n h } }

/-- A context whose number lies below `k` (32 · sequencer + context) has a LOCK of lock `n` waiting. -/
def State.lockWanted (s : State) (n k : Nat) : Bool :=
  s.pip.ctx.any fun e => decide (e.1 < k) && e.2.ops.any fun o => o.op == 5 && o.addr == n

/-- Release every lock a context holds. -/
def State.unlockCtx (s : State) (q c : Nat) : State :=
  let s := (s.ctx q c).locks.foldl (fun s n => s.setLock n 0) s
  s.upCtx q c fun x => { x with locks := [] }

/-- A context takes a free lock. -/
def State.takeLock (s : State) (q c n : Nat) : State :=
  (s.setLock n (32 * q + c + 1)).upCtx q c fun x => { x with locks := x.locks ++ [n], status := 0 }

/-- The locks a context holds and those its LOCKs wait for, in the order asked. -/
def Ctx.lockNums (x : Ctx) : List Nat := x.locks ++ (x.ops.filter fun o => o.op == 5).map (·.addr)

/-- A LOCK out of order: a third, or a second not above the first, one that still waits counted. -/
def Ctx.lockBad (x : Ctx) (n : Nat) : Bool :=
  match x.lockNums with
  | [] => false
  | [a] => n ≤ a
  | _ => true

/-! ### Visible state (R249) -/

/-- A routine has made state visible. -/
def Ctx.seen (x : Ctx) (now : Nat) : Ctx :=
  { x with visible := true, visAt := (match x.visAt with | none => some now | some t => some t) }

/-- A CKPT or END after a visible effect: PIP_CKPT_MAX (R263). -/
def State.ckptMax (s : State) (q : Nat) (x : Ctx) : State :=
  match x.visAt with
  | none => s
  | some t => s.upIo fun io => io.maxTo (pgPip q) PIP_CKPT_MAX.NS (io.time.counted - t)

/-! ### Claims of routines (R177, R178, R182) -/

/-- A routine's claim gave this record, and no COMMIT has made it ACTIVE. -/
def State.withdrawHeld (s : State) (h : Held) (reason : Option Nat) : State :=
  match s.claim h.id with
  | none => s
  | some c =>
    if c.stage = .done then
      let s := if c.code = some 0 then s.withdraw c else s
      s.claimGone c.id reason c.r
    else s.putClaim { c with owner := 1024 }

/-- Claims whose routine has gone: withdrawn when they answer OK, and forgotten (R250). -/
def State.reapClaims (s : State) : State :=
  (s.flow.claims.filter fun c => c.owner == 1024 && c.stage == .done).foldl (fun s c => s.withdrawHeld { id := c.id } none) s

/-- Undo the NAT state of a routine that ends without committing its pair (R219). -/
def State.natUndo (s : State) (l : List Nat) : State := l.foldl (fun s g => s.blockLeave g) s

/-- A claim that no COMMIT has made ACTIVE is withdrawn. -/
def State.withdrawOpt (s : State) (h : Option Held) (reason : Option Nat) : State :=
  match h with
  | some h => if h.live then s else s.withdrawHeld h reason
  | none => s

/-- A COMMIT has made the record in W ACTIVE. -/
def Ctx.committed (x : Ctx) : Bool := x.wClaim.any fun h => h.live

/-- Withdraw every claim of a routine that has not been committed ACTIVE (R250), and undo its NAT state unless its pair has been
committed (R219).  A routine that ends by END with such a claim abandons it too (log entry 75). -/
def State.withdrawAll (s : State) (q c : Nat) (reason : Option Nat) : State :=
  let x := s.ctx q c
  let s := (s.withdrawOpt x.xClaim reason).withdrawOpt x.wClaim reason
  let s := if x.committed then s else s.natUndo x.natBlocks
  s.upCtx q c fun x => { x with wClaim := none, xClaim := none, natBlocks := [] }

/-! ### The packets of a setup -/

/-- The tracker entry whose setup runs in context `c` of pipeline `p`. -/
def State.setupMiss (s : State) (p c : Nat) : Option Miss := (s.missesOf p).find? fun m => m.stage == .setup c

/-- The setup's packets end: without a record (`none`), or dropped with a reason (R174, R182). -/
def State.setupDrop (s : State) (p c : Nat) (reason : Option Nat) (r : Nat) : State :=
  match s.setupMiss p c with
  | none => s
  | some m =>
    match reason with
    | none => s.endNoFlow p m
    | some x => (s.dropMiss p m).dropAll p x r m.passes

/-- EXISTS: the packets attach to the claim that won, or look the record up afresh once that claim has ended (R178, R256). -/
def State.setupAttach (s : State) (p c : Nat) : State :=
  match s.setupMiss p c with
  | none => s
  | some m =>
    let s := s.ctr (pgFlw p) FLW_ATTACH_CNT.COUNT m.passes.length
    match s.claimFor m.hash m.key with
    | some k => s.putMiss p { m with stage := .claim k.id }
    | none => s.search p m

/-! ### Ends of routines (R250, R257, R258) -/

/-- The context is free again. -/
def State.freeCtx (s : State) (q c : Nat) : State := (s.setCtx q c {}).pipStat q

/-- The claim that a RELOC routine of a pipeline serves gets its answer when the routine ends: END offers a candidate, ABORT and a
fault none (R179, R255). -/
def State.relocEnd (s : State) (q c : Nat) (found : Bool) : State :=
  let x := s.ctx q c
  if q < 8 ∧ x.evt = 2 then s.relocAnswer (x.data.headD 0) found else s

/-- Step END: staging discarded, locks released, context freed; a claim not committed is withdrawn. -/
def State.endRoutine (s : State) (q c : Nat) : State :=
  let s := (s.ckptMax q (s.ctx q c)).relocEnd q c true
  let s := (s.withdrawAll q c none).unlockCtx q c
  let s := if (s.ctx q c).wCode = some 13 then s.setupAttach q c else s.setupDrop q c none 0
  s.freeCtx q c

/-- ABORT: claims withdrawn; a setup's packets take the reason (R182, R256). -/
def State.abortRoutine (s : State) (q c reason : Nat) : State :=
  let r := ((s.ctx q c).wClaim.bind (·.r)).getD 0
  let s := (s.ckptMax q (s.ctx q c)).relocEnd q c false
  let s := (s.withdrawAll q c (some reason)).unlockCtx q c
  (s.setupDrop q c (some reason) r).freeCtx q c

/-- The first fault is captured, with the micro-address `u` of its microword (R258). -/
def State.faultCap (s : State) (q c code u : Nat) : State :=
  let b := pgPip q
  if s.get b PIP_FAULT_CAP.VALID = 1 then s
  else
    let x := s.ctx q c
    s.upIo fun io => io.wr (b + 0x060) (BitVec.ofNat 32 (2 ^ 31 + code % 16 * 2 ^ 27 + x.evt % 64 * 2 ^ 21 + c % 32 * 2 ^ 15 + u % 2 ^ 15))

/-- Count a fault and raise its causes. -/
def State.countFault (s : State) (q code : Nat) : State :=
  let b := pgPip q
  let s := (s.ctr b PIP_FAULT_CNT.COUNT).raiseOnce b 0
  if code = pfDeadline then (s.ctr b PIP_DEADLINE_CNT.COUNT).raiseOnce b 1 else s

/-- One journal record of two entries on ring 33 (R354). -/
def State.journal (s : State) (code ctx : Nat) (g : List Nat) : State :=
  let n := s.policy.journal
  let e : Nat := s.get pgEpc EPC_EPOCH_NUM.NUM
  let e1 := bytesLE 4 0 ++ bytesLE 1 code ++ bytesLE 1 ctx ++ bytesLE 2 0 ++ bytesLE 8 n ++ bytesLE 4 e ++ bytesLE 4 s.io.nsec ++
    bytesLE 6 s.io.sec ++ bytesLE 2 0 ++ ((List.range 4).flatMap fun i => bytesLE 8 (g.getD i 0))
  let e2 := bytesLE 8 0 ++ ((List.range 4).flatMap fun i => bytesLE 8 (g.getD (4 + i) 0))
  let s := { s with policy := { s.policy with journal := n + 1 } }
  (s.ctr pgE TEL_JOURNAL_CNT.COUNT).upIo fun io => io.ringPut 33 [lineOfBytes 512 e1, lineOfBytes 512 e2]

/-- A fault of the microword at `u` ends the routine (R258); a setup's packets are treated as R174 has it. -/
def State.pipFaultAt (s : State) (q c code u : Nat) : State :=
  let x := s.ctx q c
  let s := (s.countFault q code).faultCap q c code u
  let s := if q = 8 then s.journal 11 c [code, x.evt, u, c] else s
  let s := (s.ckptMax q x).relocEnd q c false
  let s := (s.withdrawAll q c none).unlockCtx q c
  (s.setupDrop q c none 0).freeCtx q c

/-- A fault of the microword that the context last issued. -/
def State.pipFault (s : State) (q c code : Nat) : State := s.pipFaultAt q c code (s.ctx q c).last

/-! ### Starting a routine (R235, R254) -/

/-- A context begins a routine for an event. -/
def State.beginRoutine (s : State) (q c evt : Nat) (f : Ctx → Ctx) : State :=
  let s := s.setCtx q c (f { phase := .ready, evt := evt, uaddr := evt, last := evt, image := s.pipBank q })
  (s.ctr (pgPip q) PIP_ROUTINE_CNT.COUNT).pipStat q

/-- The working copy a setup starts with: the record as it will be claimed (R247). -/
def setupW (ps : Pass) (sec : Nat) : BitVec 1024 :=
  let k : Claim := { id := 0, src := 0, hash := ps.hash, key := ps.key, block := ps.block, action := ps.lk.action,
                     cls := ps.lk.flowClass, origLow := ps.srcLow }
  BitVec.ofNat 1024 ((claimHot k).toNat + (claimCold k sec).toNat * 2 ^ 512)

/-- A claim of pipeline `q` that needs a move and has no routine yet; the host's claims are served by pipeline 0. -/
def State.relocWaiting (s : State) (q : Nat) : Option Claim :=
  s.flow.claims.find? fun c => c.stage == .needMove && c.src % 8 == q &&
    (List.range 32).all fun k => let x := s.ctx q k; !(x.phase != .free && x.evt == 2 && x.data == [c.id])

/-- A RELOC event of a pipeline Pip, answered with no candidate while it is stopped (R254). -/
def State.startReloc (s : State) (q : Nat) (cl : Claim) : State :=
  if s.get (pgPip q) PIP_CTL.STOP = 1 then s.relocAnswer cl.id false
  else
    match s.freeCtxs q 32 with
    | [] => s
    | c :: _ => s.beginRoutine q c 2 fun x => { x with data := [cl.id] }

/-- The create miss of a pipeline that has waited longest for a context. -/
def State.oldestWant (s : State) (q : Nat) : Option Miss :=
  (s.missesOf q).foldl (fun a m =>
    if m.stage ≠ .wants then a
    else match a with
      | some k => if k.req ≤ m.req then a else some m
      | none => some m) none

/-- The claim queue of a pipeline is full (R177). -/
def State.claimsFull (s : State) (q : Nat) : Bool :=
  64 ≤ (s.flow.claims.filter fun c => c.src == q && c.stage == .queued).length

/-- A SETUP event of a pipeline Pip: the oldest create miss that waits, while the claim queue has room. -/
def State.startSetup (s : State) (q : Nat) : State :=
  match s.oldestWant q with
  | none => s
  | some m =>
    match s.freeCtxs q 32, m.passes with
    | c :: _, ps :: _ =>
      if s.get (pgPip q) PIP_CTL.STOP = 1 ∨ s.claimsFull q then s
      else
        (s.putMiss q { m with stage := .setup c }).beginRoutine q c 1 fun x =>
          { x with pass := some ps, w := setupW ps s.io.sec }
    | _, _ => s

/-- Wait condition of a routine that waits for the urgent handler (R251); not one of R241. -/
def condHandler : Nat := 16

/-- A routine of the global Pip waits for the urgent handler, or will at its next CKPT (R251, R252). -/
def State.handlerOwed (s : State) : Bool :=
  (List.range 7).any fun c => let x := s.ctx 8 c; x.phase != .free && (x.dUrgent || (x.phase == .waiting && x.cond == condHandler))

/-- An event of the global Pip is an urgent one. -/
def Event.urgent (e : Event) : Bool := e.evt == 0x15

/-- General registers as an event leaves them: its data from G0 on. -/
def dataRegs (d : List Nat) : SMap Nat := d.zipIdx.foldl (fun m v => SMap.set m 0 v.2 v.1) []

/-- The free context of the global Pip for an event: urgent ones take context 7, the rest 0 to 6 (R233). -/
def State.ctxFor (s : State) (e : Event) : Option Nat :=
  if e.urgent then (if (s.ctx 8 7).phase = .free then some 7 else none) else (s.freeCtxs 8 7).head?

/-- The next waiting event of the global Pip that has a context.  Under a stop only an urgent event that came before it, for the
routines that wait for its handler (R252). -/
def State.nextEvent (s : State) : Option (Event × Nat) :=
  (if s.get (pgPip 8) PIP_CTL.STOP = 1 then s.pip.evq.filter fun e => e.urgent && s.handlerOwed else s.pip.evq).findSome? fun e =>
    (s.ctxFor e).map fun c => (e, c)

/-- An event of the global Pip begins its routine. -/
def State.startGlobal (s : State) : State :=
  match s.nextEvent with
  | none => s
  | some (e, c) =>
    let s := { s with pip := { s.pip with evq := s.pip.evq.erase e } }
    s.beginRoutine 8 c e.evt fun x => { x with data := e.data, g := dataRegs e.data }

/-- ROUTINE_START. -/
def State.routineStart (s : State) (q : Nat) : State :=
  if q = 8 then s.startGlobal
  else
    match s.relocWaiting q with
    | some cl => s.startReloc q cl
    | none => s.startSetup q

/-! ### Events inside a routine (R251, R252) -/

/-- An abandoned routine restarts from its entry under the image in force; its EVT and packets stay. -/
def State.restart (s : State) (q c : Nat) : State :=
  let x := s.ctx q c
  let s := (s.natUndo x.natBlocks).unlockCtx q c
  let s := s.setCtx q c { phase := .ready, evt := x.evt, uaddr := x.evt, last := x.evt, image := s.pipBank q, pass := x.pass,
                          data := x.data, w := (match x.pass with | some ps => setupW ps s.io.sec | none => 0),
                          g := dataRegs x.data }
  s.ctr (pgPip q) PIP_RESTART_CNT.COUNT

/-- A stop request reaches a context: abandoned when nothing is visible, else deferred (R251, R254). -/
def State.stopCtx (s : State) (q c : Nat) : State :=
  let x := s.ctx q c
  if x.phase = .free ∨ x.phase = .suspended then s
  else if x.visible then (s.upCtx q c fun x => { x with dStop := true }).ctr (pgPip q) PIP_DEFER_CNT.COUNT
  else
    let s := s.natUndo x.natBlocks
    match (if q < 8 then s.setupMiss q c else none) with
    | some m => ((s.unlockCtx q c).freeCtx q c).putMiss q { m with stage := .wants }
    | none =>
      let s := (s.unlockCtx q c).freeCtx q c
      if x.evt = 2 then s.relocAnswer (x.data.headD 0) false else s

/-- The create misses that wait while the Pip is stopped are refused (R254). -/
def State.stopWaiting (s : State) (q : Nat) : State :=
  ((s.missesOf q).filter fun m => m.stage == .wants).foldl (fun s m => (s.stopDrops q m).endNoFlow q m) s

/-- PIP_STOP; an urgent event that a routine was to wait for keeps its place before the stop (R252). -/
def State.pipStop (s : State) (q : Nat) : State :=
  if s.get (pgPip q) PIP_CTL.STOP = 1 then s
  else
    let s := s.put (pgPip q) PIP_CTL.STOP 1
    let s := (List.range (ctxCount q)).foldl (fun s c => s.stopCtx q c) s
    let s := if q < 8 then
        let s := s.stopWaiting q
        (s.flow.claims.filter fun c => c.stage == .needMove && c.src % 8 == q).foldl (fun s c =>
          if (s.relocWaiting q).any fun k => k.id == c.id then s.relocAnswer c.id false else s) s
      else
        let keep := s.pip.evq.filter fun e => e.urgent && s.handlerOwed
        { s with pip := { s.pip with evq := keep } }.ctr (pgPip 8) PIP_EVT_DROP_CNT.COUNT (s.pip.evq.length - keep.length)
    s.pipStat q

/-- A routine goes on after a deferred event; the limits of R249 run from then on. -/
def Ctx.goesOn (x : Ctx) (now image : Nat) : Ctx :=
  { x with phase := .ready, visSteps := 0, visAt := (if x.visible then some now else none), image := image }

/-- PIP_RESUME: suspended routines go on from their resumption points under the image in force, and a stop still deferred is lifted
(R254, R252). -/
def State.pipResume (s : State) (q : Nat) : State :=
  let s := s.put (pgPip q) PIP_CTL.STOP 0
  let s := (List.range (ctxCount q)).foldl (fun s c =>
    s.upCtx q c fun x =>
      let x := { x with dStop := false }
      if x.phase = .suspended then x.goesOn s.io.time.counted (s.pipBank q) else x) s
  s.pipStat q

/-- A commit that includes the PIP page reaches its routines (R251). -/
def State.commitAll (s : State) (q : Nat) : State :=
  (List.range (ctxCount q)).foldl (fun s c =>
    let x := s.ctx q c
    if x.phase = .free ∨ x.phase = .suspended then s
    else if x.visible then (s.upCtx q c fun x => { x with dCommit := true }).ctr (pgPip q) PIP_DEFER_CNT.COUNT
    else s.restart q c) s

/-- No routine of the sequencer runs on an image other than the active one (R253). -/
def State.pipDrained (s : State) (q : Nat) : Bool :=
  (List.range (ctxCount q)).all fun c =>
    let x := s.ctx q c
    x.phase == .free || x.phase == .suspended || x.image == s.pipBank q

/-! ### Staging and COMMIT (R247, R248) -/

/-- The tag of a context's commit writes. -/
def commitTag (q c : Nat) : Nat := 2 ^ 65 + 32 * q + c

/-- The global Pip's slot writes take effect while LB_STEER is enabled, each only where the slot still holds the member that the
routine read; another is journalled as refused (R346). -/
def State.storeSlots (s : State) (c : Nat) (read : SMap Nat) (a : Nat) (l : List Byte) : State :=
  if !(s.policyOn 1) then s
  else
    (List.range (l.length / 2)).foldl (fun s i =>
      let k := a / 2 + i
      if read.get 0 k = s.slot (k / 4096) (k % 4096) + 1 then s.setSlot (k / 4096) (k % 4096) (leAt l (2 * i) 2 % 2 ^ 14)
      else s.journal 5 c [k / 4096, k % 4096, read.get 0 k - 1, 1]) s

/-- A staged effect of a COMMIT takes place (R248 steps 1 and 3); the global Pip's removals while EVICT is enabled (R346). -/
def State.applyStaged (s : State) (q c : Nat) (e : Staged) : State :=
  match e with
  | .write sp a l => if q = 8 ∧ sp = 2 then s.storeSlots c (s.ctx q c).slots a l else s.spaceStore q (s.ctx q c) sp a l
  | .emit code g => s.journal code c g
  | .remove r => if s.policyOn 3 && s.get pgE TEL_EVICT_CFG.MAX != 0 then s.submitRemoval r 1 0 else s

/-- The fields of a record's hot half that a routine's COMMIT writes (R165, R248): ACTION, FLOW_CLASS, LINKED and REPLY; before the
record is ACTIVE also TCP_STATE, ACTION_DATA, LIFE, the account's fields, and LAST_SEEN with LIFE. -/
def mergeHot (cur w : Line) (seen : Nat) : Line :=
  let copy := fun (fs : List HF) (h : Line) => fs.foldl (fun h f => f.set h (f.get w)) h
  let h := copy [hAction, hClass, hLinked, hReply] cur
  if hLife.get cur ≠ lifeEmbryonic then h
  else
    let h := copy [hLife, hTcp, hAccount, hSealEn, hMeter, hData] h
    if hLife.get w = lifeActive then hSeen.set h seen else h

/-- The same for the cold half: PARTNER and TEARDOWN_DATA. -/
def mergeCold (cur w : Line) : Line := cTeardown.set (cPartner.set cur (cPartner.get w)) (cTeardown.get w)

/-- The halves of a working copy. -/
def wHot (w : BitVec 1024) : Line := BitVec.ofNat 512 w.toNat
def wCold (w : BitVec 1024) : Line := BitVec.ofNat 512 (w.toNat / 2 ^ 512)

/-- A COMMIT changes part of a line in DRAM: read, and the write issued with the context's tag; it fails where no copy can be read. -/
def State.commitLine (s : State) (q c : Nat) (l : Loc) (f : Line → Line) : State :=
  match s.readNow l 2 (0x20 + q) false [] with
  | (some v, s) => s.issueWrite l (f v) 2 (0x20 + q) (commitTag q c)
  | (none, s) => s.writeFailed (commitTag q c)

/-- Write a claimed record's working copy as a host command's write would be: the resident line, else DRAM (R172, R248 step 2). -/
def State.commitRecord (s : State) (q c r : Nat) (w : BitVec 1024) : State :=
  let s := s.commitLine q c (s.coldLoc r) fun k => mergeCold k (wCold w)
  let f := fun (h : Line) => mergeHot h (wHot w) (seenNow s.io.time.ns)
  let d := s.lineView (s.hotLoc r)
  match s.wayOf (hKey.get d) r with
  | some i => s.updateLine i f
  | none =>
    let s := s.commitLine q c (s.hotLoc r) f
    if s.fmc.failed.get false (commitTag q c) then s.loseHot (hHash.get d) (hKey.get d) r else s

/-- The record that a claim gave the routine; one lost since fails the COMMIT (R256). -/
def State.commitHeld (s : State) (q c : Nat) (h : Option Held) (w : BitVec 1024) : State :=
  match h with
  | some ⟨id, some r, live⟩ =>
    if live || (s.claim id).any fun k => k.code == some 0 then s.commitRecord q c r w else s.writeFailed (commitTag q c)
  | _ => s

/-- A record of the global Pip's X: ELEPHANT alone, when the identity is still the one fetched (R346). -/
def State.commitElephant (s : State) (r : Nat) (x : BitVec 1024) : State :=
  let h := s.curHot r
  if s.policyOn 0 ∧ hKey.get h = hKey.get (wHot x) ∧ hHash.get h = hHash.get (wHot x) then
    s.updateHot r 2 0x28 fun h => hElephant.set h (hElephant.get (wHot x))
  else s

/-- The records of W and X that the routine has claimed or fetched. -/
def State.commitRecords (s : State) (q c : Nat) : State :=
  let x := s.ctx q c
  let s := (s.commitHeld q c x.wClaim x.w).commitHeld q c x.xClaim x.x
  match x.fetched with
  | some r => if q = 8 then s.commitElephant r x.x else s
  | none => s

/-- A COMMIT (R248): staged writes, records, then removals and journal records; the context waits for its writes. -/
def State.commit (s : State) (q c : Nat) (ckpt : Bool) : State :=
  let x := s.ctx q c
  let isWrite := fun (e : Staged) => match e with | .write _ _ _ => true | _ => false
  let s := (x.stage.filter isWrite).foldl (fun s e => s.applyStaged q c e) s
  let s := s.commitRecords q c
  let s := (x.stage.filter fun e => !(isWrite e)).foldl (fun s e => s.applyStaged q c e) s
  let s := s.upCtx q c fun x => { x.seen s.io.time.counted with phase := .committing, ckpt := ckpt, stage := [] }
  s.ctr (pgPip q) PIP_COMMIT_CNT.COUNT

/-! ### After a COMMIT -/

/-- A linked pair's or single record's setup has committed: the start queue, the congestion detector, the packets (R178, R339,
R350). -/
def State.lbDetect (s : State) (q : Nat) (x : Ctx) : State :=
  match x.pass with
  | none => s
  | some ps =>
    let rp := s.prof q ps.lk.action
    let d := dataBytes (wHot x.w)
    let port := leAt d 2 1
    let e : Nat := s.get pgEpc EPC_EPOCH_NUM.NUM
    let posted := if s.policy.lbPosted.1 = e then s.policy.lbPosted.2 else []
    match lbPoolOf rp ps.lk with
    | none => s
    | some pool =>
      if prKind rp ≠ 1 ∨ 128 ≤ port ∨ s.get (pgTmbP port) TMB_PORT_OCC.CELLS < s.get pgE TEL_LB_CONG.CELLS ∨ posted.contains pool ∨
          !(s.policyOn 1) then s
      else
        let m := leAt d 0 2 % 2 ^ 14
        let slot := ((List.range (lbScan s.deepen)).map fun i => (bitsOf ps.hash 20 12 + i) % 4096).find? fun k => s.slot pool k = m
        let s := { s with policy := { s.policy with lbPosted := (e, pool :: posted) } }
        (s.post 0x12 [pool, m, slot.getD (bitsOf ps.hash 20 12)]).ctr (pgTel q) TEL_LB_EVT_CNT.COUNT

/-- A claim that this COMMIT makes ACTIVE. -/
def goesLive (h : Option Held) (w : BitVec 1024) : Bool :=
  hLife.get (wHot w) == lifeActive && h.any fun h => h.r.isSome && !h.live

/-- The packets of a record that a COMMIT has made ACTIVE are released (R178): the creating one first. -/
def State.releaseW (s : State) (q c : Nat) (x : Ctx) : State :=
  match x.wClaim with
  | some ⟨id, some r, false⟩ =>
    if goesLive x.wClaim x.w then
      let s := s.lbDetect q x
      let s := match s.setupMiss q c with
        | some m => s.releaseMiss q r 5 m
        | none => s
      (s.claimActive id r).startPush r (hHash.get (wHot x.w)) (hKey.get (wHot x.w))
    else s
  | _ => s

/-- The packets that wait on the reply record. -/
def State.releaseX (s : State) (x : Ctx) : State :=
  match x.xClaim with
  | some ⟨id, some r, false⟩ =>
    if goesLive x.xClaim x.x then (s.claimActive id r).startPush r (hHash.get (wHot x.x)) (hKey.get (wHot x.x)) else s
  | _ => s

/-- The claims of a context after a COMMIT that set LIFE = ACTIVE in its working copies. -/
def Ctx.settleLive (x : Ctx) : Ctx :=
  { x with wClaim := x.wClaim.map fun h => { h with live := h.live || goesLive x.wClaim x.w }
           xClaim := x.xClaim.map fun h => { h with live := h.live || goesLive x.xClaim x.x } }

/-- The urgent handler still has to run or is running in context 7. -/
def State.urgentBusy (s : State) : Bool := (s.ctx 8 7).phase != .free || s.pip.evq.any Event.urgent

/-- An urgent event reaches the routines of the global Pip (R251). -/
def State.urgentAll (s : State) : State :=
  (List.range 7).foldl (fun s c =>
    let x := s.ctx 8 c
    if x.phase = .free ∨ x.phase = .suspended then s
    else if x.visible then (s.upCtx 8 c fun x => { x with dUrgent := true }).ctr (pgPip 8) PIP_DEFER_CNT.COUNT
    else (s.restart 8 c).upCtx 8 c fun x => { x with phase := .waiting, cond := condHandler }) s

/-- What happens to a context at a CKPT: a commit of the page, an urgent event, a stop, in that order (R251, R252); the limits of R249
run afresh from it. -/
def State.atCkpt (s : State) (q c : Nat) : State :=
  let x := s.ctx q c
  let s := s.ckptMax q x
  let y := { x.goesOn s.io.time.counted (s.pipBank q) with steps := 0, dCommit := false, dUrgent := false }
  s.setCtx q c
    (if x.dUrgent && s.urgentBusy then { y with phase := .waiting, cond := condHandler }
     else if x.dStop then { y with phase := .suspended }
     else y)

/-- COMMIT_ACCEPTED: every write of a context's COMMIT has been accepted (R248). -/
def State.commitAccepted (s : State) (q c : Nat) : State :=
  let x := s.ctx q c
  if x.phase ≠ .committing ∨ !(s.accepted (commitTag q c)) then s
  else if s.fmc.failed.get false (commitTag q c) then
    let s := { s with fmc := { s.fmc with failed := s.fmc.failed.set false (commitTag q c) false } }
    s.pipFault q c pfMemError
  else
    let s := s.upCtx q c fun x => { x.settleLive with phase := .ready }
    let s := (s.releaseW q c x).releaseX x
    if x.fin = 1 then s.endRoutine q c
    else if 2 ≤ x.fin then s.abortRoutine q c (x.fin - 2)
    else if x.ckpt then (s.atCkpt q c).pipStat q else s

/-! ### Deadlines (R249, R257) -/

/-- The first deadline of a setup whose creating packet is `ps` and on whose claims `l` wait too (R257). -/
def firstDeadline (ps : Pass) (l : List Pass) : Nat := l.foldl (fun t k => min t (k.since + 3900)) (min (ps.born + 3200) (ps.since + 3900))

/-- The passes of any pipeline that wait on a claim. -/
def State.waitingPasses (s : State) (h : Option Held) : List Pass :=
  match h with
  | none => []
  | some h => (List.range 8).flatMap fun p => (s.waiters p h.id).flatMap (·.passes)

/-- The final COMMIT of a SETUP has been reached: it is made, or in progress (log entry 75). -/
def Ctx.finalReached (x : Ctx) : Bool := x.committed || (x.phase == .committing && goesLive x.wClaim x.w)

/-- DEADLINE of a running SETUP: time reaches its first deadline. -/
def State.deadline (s : State) (q c : Nat) : State :=
  let x := s.ctx q c
  match x.pass with
  | none => s
  | some ps =>
    if x.phase = .free ∨ x.evt ≠ 1 ∨ x.finalReached then s
    else
      let own := ((s.setupMiss q c).map (·.passes)).getD []
      (s.passTo (firstDeadline ps (own ++ s.waitingPasses x.wClaim ++ s.waitingPasses x.xClaim))).pipFault q c pfDeadline

/-- DEADLINE of a setup that has not obtained a context: counted, never captured (R258). -/
def State.deadlineWaiting (s : State) (q entry : Nat) : State :=
  match (s.missesOf q)[entry]? with
  | some m =>
    match m.passes with
    | [] => s
    | ps :: t =>
      if m.stage = .wants then ((s.passTo (firstDeadline ps t)).countFault q pfDeadline).endNoFlow q m else s
  | none => s

/-- The routine is held at a resumption point by an event, so that no slice runs. -/
def Ctx.heldBack (x : Ctx) : Bool := x.phase == .suspended || (x.phase == .waiting && x.cond == condHandler)

/-- SLICE: time reaches 8 µs after a visible effect without a CKPT or END (R249). -/
def State.slice (s : State) (q c : Nat) : State :=
  let x := s.ctx q c
  match x.visAt with
  | none => s
  | some t => if x.phase = .free ∨ x.heldBack then s else (s.passTo (t + 8000)).pipFault q c pfSlice

/-! ### Waits (R241) -/

/-- Context `c` of the global Pip takes a posted event `e`: the urgent one goes to context 7, another to the lowest of the contexts 0
to 6 that wait for one (log entry 75). -/
def State.eventFor (s : State) (c : Nat) (e : Event) : Bool :=
  if e.urgent then c == 7
  else decide (c < 7) && (List.range c).all fun k => !((s.ctx 8 k).phase == .waiting && (s.ctx 8 k).cond == 4)

/-- The event posted to a context that waits for one. -/
def State.postedTo (s : State) (c : Nat) : Option Event := s.pip.evq.find? fun e => s.eventFor c e

/-- The wait condition of a context holds; the packets of a pipeline's release path always find room (log entry 75). -/
def State.waitHolds (s : State) (q c : Nat) (x : Ctx) : Bool :=
  match x.cond with
  | 0 => x.ops.isEmpty
  | 1 => x.unread != 0
  | 2 => q != 8 || s.io.ringRoom 33 2
  | 3 => s.get pgEpc EPC_EPOCH_NUM.NUM != x.waitEp
  | 4 => (s.postedTo c).isSome
  | 5 => x.fired
  | 16 => !s.urgentBusy
  | _ => false

/-- The urgent handler has ended: the routine goes on, or suspends for a stop that was deferred behind it (R252). -/
def State.handlerDone (s : State) (q c : Nat) : State :=
  let x := s.ctx q c
  (s.setCtx q c (if x.dStop then { x with phase := .suspended } else x.goesOn s.io.time.counted (s.pipBank q))).pipStat q

/-- An event posted to a waiting context is taken from the queue; its code and data are the context's. -/
def State.takeEvent (s : State) (c : Nat) : State :=
  match s.postedTo c with
  | none => s
  | some e =>
    { s with pip := { s.pip with evq := s.pip.evq.erase e } }.upCtx 8 c fun x =>
      { x with evt := e.evt, data := e.data, g := dataRegs e.data }

/-- WAIT_SATISFIED. -/
def State.waitSatisfied (s : State) (q c : Nat) : State :=
  let x := s.ctx q c
  if x.phase ≠ .waiting ∨ !(s.waitHolds q c x) then s
  else if x.cond = condHandler then s.handlerDone q c
  else (if x.cond = 4 then s.takeEvent c else s).upCtx q c fun x => { x with phase := .ready, satisfied := true }

/-- CONTEXT_TIMER_EXPIRE: the time base reaches the timer. -/
def State.timerExpire (s : State) (q c : Nat) : State :=
  match (s.ctx q c).timer with
  | none => s
  | some t => (s.passTo t).upCtx q c fun x => { x with timer := none, fired := true }

/-- LOCK_GRANT: a context's first waiting LOCK takes its free lock; lowest sequencer, then lowest context (R246). -/
def State.lockGrant (s : State) (q c : Nat) : State :=
  let x := s.ctx q c
  match x.ops.find? fun o => o.op == 5 with
  | none => s
  | some o =>
    if s.devLock o.addr = 0 && !(s.lockWanted o.addr (32 * q + c)) then
      (s.takeLock q c o.addr).upCtx q c fun x => { x with ops := x.ops.erase o, unread := x.unread + 1 }
    else s

end Sys2Proof.Machine
end

