-- ==== Sys2Proof/Machine/Ucode.lean ====
section
/-!
DEFINITION. Microwords and nano-words (R236 to R246): fetch, operands, arithmetic, memory operations, sequencing.  ROM microwords
and boot nano-words are constants of `Config`: the spec does not give the ROM.  The layouts of the spaces of R245 are the
model's (log entry 41).
-/
namespace Sys2Proof.Machine

/-! ### Fetch (R236 to R238) -/

/-- Kind of a sequencer: 0 pipeline, 1 global. -/
def pipKind (q : Nat) : Nat := if q = 8 then 1 else 0

def State.patchWord (s : State) (q b i : Nat) : BitVec 24 := s.pip.patch.get 0 ((2 * q + b) * 512 + i)
def State.patchNano (s : State) (q b i : Nat) : BitVec 192 := s.pip.nano.get 0 ((2 * q + b) * 512 + i)
def State.matchReg (s : State) (q b i : Nat) : BitVec 32 := s.pip.mtch.get 0 ((2 * q + b) * 32 + i)

/-- The micro-address a fetch of `a` reads: redirected by the lowest match register that names it (R237). -/
def State.redirect (s : State) (q b a : Nat) : Nat :=
  if 0x4000 ≤ a then a
  else
    match (List.range 32).find? fun i => let m := s.matchReg q b i; tb m 31 && gb m 0 14 == a with
    | some i => 0x4000 + gb (s.matchReg q b i) 15 9
    | none => a

/-- The microword at an address, if any (R236). -/
def State.microAt (s : State) (q b a : Nat) : Option (BitVec 24) :=
  if a < 0x4000 then some (Config.rom (pipKind q) a)
  else if a < 0x4200 then some (s.patchWord q b (a - 0x4000)) else none

/-- The nano-word of an index (R238). -/
def State.nanoAt (s : State) (q b i : Nat) : BitVec 192 :=
  if i < 3584 then (s.pip.bootNano.get none (4096 * pipKind q + i)).getD (Config.nano (pipKind q) i)
  else s.patchNano q b (i - 3584)

/-- A nano-word that both copies have lost faults on every fetch (R259). -/
def State.nanoGone (s : State) (q i : Nat) : Bool := s.pip.lost.get false (4096 * q + i)

/-! Fields of a microword (R239) and a nano-word (R242). -/

def uNano (m : BitVec 24) : Nat := gb m 12 12
def uSeq (m : BitVec 24) : Nat := gb m 8 4
def uCond (m : BitVec 24) : Nat := gb m 4 4
def uArg (m : BitVec 24) : Nat := gb m 0 4

abbrev Nano := BitVec 192

def nTarget (n : Nano) : Nat := gb n 177 15
def nAlu (n : Nano) : Nat := gb n 172 5
def nSubst (n : Nano) : Nat := gb n 152 2
def nBImm (n : Nano) : Bool := tb n 151
def nPos (n : Nano) : Nat := gb n 145 6
def nLen (n : Nano) : Nat := gb n 139 6
def nMem (n : Nano) : Nat := gb n 135 4
def nSpace (n : Nano) : Nat := gb n 131 4
def nAddr (n : Nano) : Nat := gb n 125 6
def nSize (n : Nano) : Nat := gb n 122 3
def nCommit (n : Nano) : Bool := tb n 121
def nCkpt (n : Nano) : Bool := tb n 120
def nFlags (n : Nano) : Bool := tb n 119
def nEmit (n : Nano) : Nat := gb n 113 6
def nOff (n : Nano) : Int := toSigned 16 (gb n 97 16)
def nRsv (n : Nano) : Nat := gb n 64 33
def nImm (n : Nano) : Nat := gb n 0 64

/-- A field whose low 4 bits ARG may replace (R242). -/
def substOf (n : Nano) (arg lo k : Nat) : Nat :=
  let f := gb n lo 6
  if nSubst n = k then f / 16 * 16 + arg else f

def nSrcA (n : Nano) (arg : Nat) : Nat := substOf n arg 166 1
def nSrcB (n : Nano) (arg : Nat) : Nat := substOf n arg 160 2
def nDst (n : Nano) (arg : Nat) : Nat := substOf n arg 154 3

/-- Bytes of a SIZE code. -/
def sizeOf' (k : Nat) : Nat := [1, 2, 4, 8, 16, 64].getD k 0

/-! ### Operands (R243) -/

def reg64 (w : BitVec 1024) (i : Nat) : Nat := gb w (64 * i) 64
def setReg64 (w : BitVec 1024) (i v : Nat) : BitVec 1024 := sb w (64 * i) 64 v

/-- CLSRES of the creating packet: DIR is 1 when its source is the HI endpoint. -/
def clsRes (ps : Pass) : Nat := ps.lk.action + ps.lk.flowClass * 2 ^ 12 + b2n ps.lk.create * 2 ^ 16 + b2n (!ps.srcLow) * 2 ^ 17

/-- The value of an operand; `none` is ILLEGAL. -/
def State.operand (s : State) (q c : Nat) (x : Ctx) (arg k : Nat) : Option Nat :=
  if k < 16 then some (reg64 x.w k)
  else if k < 32 then some (reg64 x.x (k - 16))
  else if k < 48 then some (x.g.get 0 (k - 32))
  else
    match k with
    | 48 => some 0
    | 49 => some ((x.pass.map (·.hash)).getD 0)
    | 50 => some ((x.pass.map (·.key)).getD 0)
    | 51 => some ((x.pass.map clsRes).getD 0)
    | 52 => some (s.io.time.ns % 2 ^ 64)
    | 53 => some (s.get pgEpc EPC_EPOCH_NUM.NUM)
    | 54 => some x.evt
    | 55 => some x.status
    | 56 => some x.result
    | 57 => some arg
    | 58 => some (c + 256 * q)
    | 59 => some ((x.pass.map Pass.actBank).getD 0)
    | 60 => some x.steps
    | _ => none

/-- Write an operand register. -/
def Ctx.setOp (x : Ctx) (k v : Nat) : Ctx :=
  if k < 16 then { x with w := setReg64 x.w k v }
  else if k < 32 then { x with x := setReg64 x.x (k - 16) v }
  else if k < 48 then { x with g := x.g.set 0 (k - 32) (v % 2 ^ 64) } else x

/-- Write bytes to a register and those after it, 8 B each. -/
def Ctx.setBytes (x : Ctx) (k : Nat) (l : List Byte) : Ctx :=
  (List.range ((l.length + 7) / 8)).foldl (fun x i => x.setOp (k + i) (leAt l (8 * i) 8)) x

/-- The bytes of a register and those after it. -/
def State.opBytes (s : State) (q c : Nat) (x : Ctx) (arg k n : Nat) : List Byte :=
  sliceB ((List.range ((n + 7) / 8)).flatMap fun i => bytesLE 8 ((s.operand q c x arg (k + i)).getD 0)) 0 n

/-! ### Arithmetic (R244) -/

/-- Result of an operation; `old` is DST.  `none` is ILLEGAL.  The second component is the carry and the third the overflow
where the spec gives them by the operation's name (ADD); elsewhere they are open. -/
def aluOp (op a b old pos len : Nat) : Option (Nat × Option (Bool × Bool)) :=
  let m := 2 ^ 64
  let sgn := fun (v : Nat) => v.testBit 63
  match op with
  | 0 => some (a, none)
  | 1 => let r := (a + b) % m; some (r, some (decide (m ≤ a + b), sgn a == sgn b && sgn r != sgn a))
  | 2 => some ((a + m - b) % m, none)
  | 3 => some (a &&& b, none)
  | 4 => some (a ||| b, none)
  | 5 => some (a ^^^ b, none)
  | 6 => some ((a <<< (b % 64)) % m, none)
  | 7 => some (a >>> (b % 64), none)
  | 8 => if 63 < pos + len then none else some (bitsOf a pos (len + 1), none)
  | 9 => if 63 < pos + len then none else some (setBitsOf old pos (len + 1) a, none)
  | 10 => some ((a + m - b) % m, none)
  | 11 => some (min a b, none)
  | 12 => some (max a b, none)
  | 13 => some (crcByte 0x82F63B78 (a % 2 ^ 32) (BitVec.ofNat 8 b), none)
  | _ => none

/-- V of a subtraction. -/
def subV (a b : Nat) : Bool :=
  let r := (a + 2 ^ 64 - b) % 2 ^ 64
  a.testBit 63 != b.testBit 63 && r.testBit 63 != a.testBit 63

/-- Z and N of a result; C and V of ADD, V of SUB and CMP; the rest free values (log entry 42). -/
def State.flagsOf (s : State) (x : Ctx) (op a b r : Nat) (cv : Option (Bool × Bool)) : State × Ctx :=
  let x := { x with z := r == 0, n := r.testBit 63 }
  match cv with
  | some (c, v) => (s, { x with c := c, v := v })
  | none =>
    let (d, s) := s.draw
    let v := if op = 2 ∨ op = 10 then subV a b else d.testBit 1
    (s, { x with c := d.testBit 0, v := v })

/-! ### Memory (R245, R247) -/

/-- Staged bytes over memory (R247). -/
def overlay (stage : List Staged) (sp a : Nat) (l : List Byte) : List Byte :=
  stage.foldl (fun l e =>
    match e with
    | .write sp' b w =>
      if sp' = sp then
        l.zipIdx.map fun (v, i) => if b ≤ a + i ∧ a + i < b + w.length then w.getD (a + i - b) v else v
      else l
    | _ => l) l

/-- A claim built from a working copy (R245). -/
def State.claimOf (s : State) (q c : Nat) (w : BitVec 1024) : Nat × State :=
  let h := wHot w
  s.submitClaim q (hHash.get h) (hKey.get h) (bytesLE 40 (cKey.get (wCold w))) (hAction.get h) (hClass.get h) (hOrigLo.get h == 1)
    (32 * q + c)

/-- CLAIM of W or X. -/
def State.opClaim (s : State) (q c sp : Nat) : Except Nat State :=
  let x := s.ctx q c
  if q = 8 ∨ 1 < sp ∨ (sp = 0 ∧ x.wClaim.isSome) ∨ (sp = 1 ∧ x.xClaim.isSome) then .error pfAccess
  else
    let (id, s) := s.claimOf q c (if sp = 0 then x.w else x.x)
    let x := x.seen s.io.time.counted
    let x := if sp = 0 then { x with wClaim := some { id := id } } else { x with xClaim := some { id := id } }
    .ok (s.setCtx q c { x with ops := x.ops ++ [⟨3, sp, 0, 0, id, x.last⟩] })

/-- WITHDRAW the context's claim on W or X. -/
def State.opWithdraw (s : State) (q c sp : Nat) : Except Nat State :=
  let x := s.ctx q c
  if q = 8 ∨ 1 < sp then .error pfAccess
  else
    match (if sp = 0 then x.wClaim else x.xClaim) with
    | none => .ok s
    | some h =>
      .ok ((s.withdrawHeld h none).upCtx q c fun x => if sp = 0 then { x with wClaim := none } else { x with xClaim := none })

/-- LOCK (R246): it takes a free lock at once unless the context's first LOCK or another context waits before it. -/
def State.opLock (s : State) (q c key : Nat) : Except Nat State :=
  let n := key % 256
  let x := s.ctx q c
  if x.lockBad n then .error pfLockOrder
  else if s.devLock n = 0 && !(x.ops.any fun o => o.op == 5) && !(s.lockWanted n 288) then .ok ((s.takeLock q c n).upCtx q c fun x => { x with unread := x.unread + 1 })
  else .ok (s.upCtx q c fun x => { x with ops := x.ops ++ [⟨5, 0, 0, 0, n, x.last⟩] })

/-- UNLOCK. -/
def State.opUnlock (s : State) (q c key : Nat) : State :=
  let n := key % 256
  if (s.ctx q c).locks.contains n then (s.setLock n 0).upCtx q c fun x => { x with locks := x.locks.erase n } else s

/-- Stage one more effect (R247). -/
def State.stageOp (s : State) (q c : Nat) (e : Staged) : Except Nat State :=
  if 16 ≤ (s.ctx q c).stage.length then .error pfStageFull
  else .ok (s.upCtx q c fun x => { x with stage := x.stage ++ [e] })

/-- STORE: staged, but for the NAT state that a pipeline changes at once (R219, R247). -/
def State.opStore (s : State) (q c sp a : Nat) (l : List Byte) : Except Nat State :=
  if 10 ≤ sp then .error pfIllegal
  else if !(spaceWritable q sp a l.length) then .error pfAccess
  else
    match s.natStore q (s.ctx q c) sp a l with
    | some (s, g) => .ok (s.upCtx q c fun x => { x with natBlocks := x.natBlocks ++ g })
    | none => s.stageOp q c (.write sp a l)

/-- LOAD: responds by MEM_RESPONSE. -/
def State.opLoad (s : State) (q c sp a n dst : Nat) : Except Nat State :=
  match spaceReadable q sp with
  | none => .error pfIllegal
  | some false => .error pfAccess
  | some true =>
    if sp ≠ 9 ∧ (s.spaceBytes q (s.ctx q c) sp a n).isNone then .error pfAccess
    else .ok (s.upCtx q c fun x => { x with ops := x.ops ++ [⟨1, sp, n, dst, a, x.last⟩] })

/-- The memory operation of a nano-word. -/
def State.memOp (s : State) (q c arg : Nat) (n : Nano) : Except Nat State :=
  let x := s.ctx q c
  let a := ((((s.operand q c x arg (nAddr n)).getD 0 : Nat) : Int) + nOff n) % (2 ^ 64 : Nat) |>.toNat
  let src := nSrcA n arg
  let v := (s.operand q c x arg src).getD 0
  match nMem n with
  | 0 => .ok s
  | 1 => s.opLoad q c (nSpace n) a (sizeOf' (nSize n)) (nDst n arg)
  | 2 => s.opStore q c (nSpace n) a (s.opBytes q c x arg src (sizeOf' (nSize n)))
  | 3 => s.opClaim q c (nSpace n)
  | 4 => s.opWithdraw q c (nSpace n)
  | 5 => s.opLock q c v
  | 6 => .ok (s.opUnlock q c v)
  | 7 =>
    if q ≠ 8 then .error pfAccess
    else if nEmit n = 0 then .ok s
    else s.stageOp q c (.emit (nEmit n) ((List.range 8).map fun i => x.g.get 0 i))
  | 8 => if q = 8 then s.stageOp q c (.remove (v % 67108864)) else .error pfAccess
  | 9 => if q = 8 then .ok (s.upCtx q c fun x => { x with ops := x.ops ++ [⟨9, 0, 128, 16, v % 67108864, x.last⟩] }) else .error pfAccess
  | _ => .error pfIllegal

/-! ### Sequencing (R240, R241) -/

/-- A branch condition; `none` is ILLEGAL. -/
def State.branch (s : State) (x : Ctx) (cond imm : Nat) : Option Bool :=
  match cond with
  | 0 => some x.z
  | 1 => some !x.z
  | 2 => some x.c
  | 3 => some !x.c
  | 4 => some x.n
  | 5 => some !x.n
  | 6 => some x.v
  | 7 => some !x.v
  | 8 => some (x.status == 0)
  | 9 => some (x.status == 13)
  | 10 => some (x.status == 5)
  | 11 => some (x.status != 0 && x.status != 13 && x.status != 5)
  | 12 => some (s.feature (imm % 128))
  | 13 => some (x.dStop || x.dUrgent || x.dCommit)
  | _ => none

/-- What follows a microword: the next address and stack, END, or ABORT. -/
inductive Seq' where
  | go (a : Nat) (stack : List Nat)
  | fin
  | abort
deriving DecidableEq, Repr

/-- The address space a micro-address lies in. -/
def storeOf (a : Nat) : Nat := if a < 0x4000 then 0 else if a < 0x4200 then 1 else 2

/-- The next-address operation at address `a`; a fault code otherwise. -/
def State.sequence (s : State) (x : Ctx) (m : BitVec 24) (n : Nano) (a : Nat) : Except Nat Seq' :=
  let t := nTarget n
  let nx := (a + 1) % 2 ^ 15
  match uSeq m with
  | 0 => .ok (.go nx x.stack)
  | 1 => .ok (.go t x.stack)
  | 2 => match s.branch x (uCond m) (nImm n) with
         | none => .error pfIllegal
         | some b => .ok (.go (if b then t else nx) x.stack)
  | 3 => match s.branch x (uCond m) (nImm n) with
         | none => .error pfIllegal
         | some b => .ok (.go (if b then nx else t) x.stack)
  | 4 => if 4 ≤ x.stack.length then .error pfStackOvf else .ok (.go t (nx :: x.stack))
  | 5 => match x.stack with
         | [] => .error pfStackUnf
         | r :: st => .ok (.go r st)
  | 6 => let d := (t + x.evt % 64) % 2 ^ 15
         if storeOf d = storeOf t ∧ storeOf t ≠ 2 then .ok (.go d x.stack) else .error pfIllegal
  | 7 => .ok (.go nx x.stack)
  | 8 => .ok (.go t x.stack)
  | 9 => .ok .fin
  | 10 => .ok .abort
  | _ => .error pfIllegal

/-! ### One microword (R234, R239 to R249) -/

/-- Encodings and operands that fault before anything is done (R242 to R244). -/
def nanoBad (s : State) (q c arg : Nat) (n : Nano) : Option Nat :=
  let x := s.ctx q c
  let d := nDst n arg
  if nRsv n ≠ 0 ∨ 6 ≤ nSize n ∨ 14 ≤ nAlu n ∨ 61 ≤ d then some pfIllegal
  else if (nAlu n = 8 ∨ nAlu n = 9) ∧ 63 < nPos n + nLen n then some pfIllegal
  else if (s.operand q c x arg (nSrcA n arg)).isNone ∨ (!(nBImm n) ∧ (s.operand q c x arg (nSrcB n arg)).isNone) ∨
      (s.operand q c x arg (nAddr n)).isNone then some pfIllegal
  else if 48 ≤ d then some pfAccess else none

/-- Two working copies differ in a field that a routine may not store to: the sealed fields, and those of the account once the record
is ACTIVE (R165, R245). -/
def sealedDiffer (live : Bool) (a b : BitVec 1024) : Bool :=
  let hot := [hSealPkts, hSealBytes, hSealDirty] ++ (if live then [hAccount, hSealEn, hMeter] else [])
  hot.any (fun f => f.get (wHot a) != f.get (wHot b)) ||
    [cRolledPkts, cRolledBytes].any fun f => f.get (wCold a) != f.get (wCold b)

/-- A store to an operand has changed a sealed field of the record in W or X. -/
def Ctx.sealBroken (q : Nat) (x y : Ctx) : Bool :=
  (q != 8 && sealedDiffer (x.wClaim.any (·.live)) x.w y.w) ||
    ((x.xClaim.isSome || x.fetched.isSome) && sealedDiffer (x.fetched.isSome || x.xClaim.any (·.live)) x.x y.x)

/-- The ALU part: result and flags; a LOAD leaves DST to its response (R244). -/
def State.aluPart (s : State) (q c arg : Nat) (n : Nano) : Except Nat State :=
  let x := s.ctx q c
  let a := (s.operand q c x arg (nSrcA n arg)).getD 0
  let b := if nBImm n then nImm n else (s.operand q c x arg (nSrcB n arg)).getD 0
  let d := nDst n arg
  match aluOp (nAlu n) a b ((s.operand q c x arg d).getD 0) (nPos n) (nLen n) with
  | none => .error pfIllegal
  | some (r, cv) =>
    let y := if nAlu n = 10 ∨ nMem n = 1 then x else x.setOp d r
    let z := if nFlags n then s.flagsOf y (nAlu n) a b r cv else (s, y)
    if x.sealBroken q y then .error pfAccess else .ok (z.1.setCtx q c z.2)

/-- COMMIT and CKPT bits, then the end or the next microword. -/
def State.commitPart (s : State) (q c : Nat) (n : Nano) (nx : Seq') : State :=
  let s := s.upCtx q c fun x =>
    match nx with
    | .go a st => { x with uaddr := a, stack := st, fin := 0 }
    | .fin => { x with fin := 1 }
    | .abort => { x with fin := 2 + nImm n % 128 }
  if nCommit n || nCkpt n then s.commit q c (nCkpt n)
  else
    match nx with
    | .go _ _ => s
    | .fin => s.endRoutine q c
    | .abort => s.abortRoutine q c (nImm n % 128)

/-- Count a step; beyond 256 steps with visible state the routine faults (R249). -/
def State.countStep (s : State) (q c : Nat) : State :=
  (s.upCtx q c fun x => { x with steps := x.steps + 1, visSteps := (if x.visAt.isSome then x.visSteps + 1 else 0),
                                 satisfied := false, cond := 0 }).ctr (pgPip q) PIP_STEP_CNT.COUNT

/-- STEP_LIMIT. -/
def Ctx.overSteps (x : Ctx) : Bool := x.visAt.isSome && decide (256 < x.visSteps)

/-- Execute a nano-word: a step, whatever comes of it. -/
def State.nanoRun (s : State) (q c : Nat) (m : BitVec 24) (n : Nano) (a : Nat) : State :=
  let s := s.countStep q c
  let arg := uArg m
  match nanoBad s q c arg n with
  | some e => s.pipFault q c e
  | none =>
    match s.sequence (s.ctx q c) m n a with
    | .error e => s.pipFault q c e
    | .ok nx =>
      match s.memOp q c arg n with
      | .error e => s.pipFault q c e
      | .ok s' =>
        match s'.aluPart q c arg n with
        | .error e => s'.pipFault q c e
        | .ok s'' =>
          if (s''.ctx q c).overSteps then s''.pipFault q c pfStepLimit else s''.commitPart q c n nx

/-- A WAIT whose condition does not hold yet: the context waits (R241). -/
def State.startWait (s : State) (q c cond imm : Nat) : State :=
  let e : Nat := s.get pgEpc EPC_EPOCH_NUM.NUM
  s.upCtx q c fun x => { x with phase := .waiting, cond := cond, waitEp := e, fired := false,
                                timer := if cond = 5 then some (s.io.time.counted + imm) else none }

/-- A microword is issued at address `a`. -/
def State.microRun (s : State) (q c : Nat) (m : BitVec 24) (n : Nano) (a : Nat) : State :=
  let x := s.ctx q c
  if uSeq m = 7 ∨ uSeq m = 8 then
    if 6 ≤ uCond m ∨ (uCond m = 4 ∧ q ≠ 8) then (s.countStep q c).pipFault q c pfIllegal
    else if x.satisfied ∨ (uCond m < 3 ∧ s.waitHolds q c { x with cond := uCond m }) then
      (s.upCtx q c fun x => if uCond m = 1 then { x with unread := x.unread - 1 } else x).nanoRun q c m n a
    else s.startWait q c (uCond m) (nImm n)
  else s.nanoRun q c m n a

/-- A fetched microword of a ready context. -/
def State.microIssue (s : State) (q c : Nat) : State :=
  let x := s.ctx q c
  let a := s.redirect q x.image x.uaddr
  let s := s.setCtx q c { x with micro := true, uaddr := a, last := a }
  match s.microAt q x.image a with
  | none => s.pipFault q c pfIllegal
  | some m =>
    if s.nanoGone q (uNano m) then (s.countStep q c).pipFault q c pfNanoLost
    else s.microRun q c m (s.nanoAt q x.image (uNano m)) a

/-! ### Responses (R245) -/

/-- A claim of a routine has been answered: STATUS and RESULT; only the claim that gave a record stays with the routine. -/
def State.claimResponse (s : State) (q c sp : Nat) (k : Claim) (code : Nat) : State :=
  let s := if code = 0 then s else s.setClaims (s.flow.claims.filter fun y => y.id != k.id)
  s.upCtx q c fun x =>
    let h : Option Held := if code = 0 then some { id := k.id, r := some k.r } else none
    let x := { x with status := code, result := k.r, unread := x.unread + 1 }
    if sp = 0 then { x with wClaim := h, wCode := some code } else { x with xClaim := h }

/-- The current copy of a record, both halves (FETCH); an unreadable hot half loses the record (R190). -/
def State.fetchRecord (s : State) (r : Nat) (es : List ReadEnd) : Option (Line × Line) × State :=
  let d := s.lineView (s.hotLoc r)
  let h := match s.wayOf (hKey.get d) r with
    | some i => (some (s.cacheAt i).data, s)
    | none =>
      match s.readNow (s.hotLoc r) 4 0x28 false es with
      | (some v, s) => (some v, s)
      | (none, s) => (none, s.loseHot (hHash.get d) (hKey.get d) r)
  let k := h.2.readNow (s.coldLoc r) 4 0x28 false (es.drop 2)
  (match h.1, k.1 with | some a, some b => some (a, b) | _, _ => none, k.2)

/-- The data of a LOAD; an unreadable bucket loses its records (R190). -/
def State.loadData (s : State) (q : Nat) (x : Ctx) (o : MemOp) (es : List ReadEnd) : Option (List Byte) × State :=
  if o.space = 9 then
    let b := o.addr / 64 % 2 ^ 25
    match s.readNow (s.bucketLoc b) 1 (0x20 + q) false es with
    | (some l, s) => (some (sliceB (bytesLE 64 l.toNat) (o.addr % 64) o.size), s)
    | (none, s) => (none, s.loseBucket b)
  else ((s.spaceBytes q x o.space o.addr o.size).map fun l => overlay x.stage o.space o.addr l, s)

/-- The balancer slots that a LOAD has read (R346). -/
def Ctx.sawSlots (x : Ctx) (a : Nat) (l : List Byte) : Ctx :=
  { x with slots := (List.range (l.length / 2)).foldl (fun m i => SMap.set m 0 (a / 2 + i) (leAt l (2 * i) 2 + 1)) x.slots }

/-- A LOAD's data reach DST; a sealed field faults with ACCESS (R245). -/
def State.loadDone (s : State) (q c : Nat) (y : Ctx) (o : MemOp) (l : List Byte) : State :=
  let z := y.setBytes o.dst l
  if y.sealBroken q z then (s.setCtx q c y).pipFaultAt q c pfAccess o.src
  else
    let z := if o.space = 2 then z.sawSlots o.addr l else z
    s.setCtx q c { z with status := 0, result := leAt l 0 8, unread := z.unread + 1 }

/-- A FETCH reads both halves of a record, in the background class: it waits for tokens (R25, R26). -/
def State.fetchDone (s : State) (q c : Nat) (y : Ctx) (o : MemOp) (es : List ReadEnd) : State :=
  s.bgRun 0x28 2 fun s =>
    match s.fetchRecord o.addr es with
    | (none, s) => (s.setCtx q c y).pipFaultAt q c pfMemError o.src
    | (some (h, k), s) =>
      s.setCtx q c { y with x := BitVec.ofNat 1024 (h.toNat + k.toNat * 2 ^ 512), fetched := some o.addr, status := 0,
                            result := o.addr, unread := y.unread + 1 }

/-- MEM_RESPONSE: operation `i` of a context responds; a response of code 10 faults (R258), a claim's aside (R256). -/
def State.memResponse (s : State) (q c i : Nat) (es : List ReadEnd) : State :=
  let x := s.ctx q c
  match x.ops[i]? with
  | none => s
  | some o =>
    let y := { x with ops := x.ops.erase o }
    match o.op with
    | 3 =>
      match s.claim o.addr with
      | none => s
      | some k =>
        match k.code with
        | none => s
        | some code => if k.stage = .done then (s.setCtx q c y).claimResponse q c o.space k code else s
    | 1 =>
      let r := s.loadData q x o es
      match r.1 with
      | none => (r.2.setCtx q c y).pipFaultAt q c pfMemError o.src
      | some l => r.2.loadDone q c y o l
    | 9 => s.fetchDone q c y o es
    | _ => s

/-! ### Nano-store errors (R259) -/

/-- A double-bit error in a fetch: the context waits for the reread. -/
def State.nanoError (s : State) (q c : Nat) : State := s.upCtx q c fun x => { x with phase := .refetch, last := x.uaddr }

/-- NANO_REFETCH_DONE: the word is rewritten and the context goes on, or both copies are lost. -/
def State.nanoDone (s : State) (q c idx : Nat) (ok : Bool) : State :=
  if (s.ctx q c).phase ≠ .refetch then s
  else if ok then
    ((s.upCtx q c fun x => { x with phase := .ready }).ctr (pgPip q) PIP_NANO_FIX_CNT.COUNT).raiseOnce (pgPip q) 4
  else
    let s := { s with pip := { s.pip with lost := s.pip.lost.set false (4096 * q + idx % 4096) true } }
    (s.report 2 15 (pgPip q) (q * 4096 + idx % 4096) 0).pipFault q c pfNanoLost

end Sys2Proof.Machine
end

