-- ==== Sys2Proof/Machine/Setup.lean ====
section
/-!
DEFINITION. The standard routines of the pipeline Pips (R255, R256): SETUP with its balancing and translation paths (R212, R217 to
R221, R225, R228, R373, R467), and RELOC_ASSIST.  Each issue of a microword takes the routine one of the steps of R256 further
(log entry 40).
-/
namespace Sys2Proof.Machine

/-! ### The creating packet -/

/-- The key's endpoints in the creating packet's direction. -/
def Pass.src (ps : Pass) : Nat := if ps.srcLow then beAt ps.block 0 16 else beAt ps.block 16 16
def Pass.dst (ps : Pass) : Nat := if ps.srcLow then beAt ps.block 16 16 else beAt ps.block 0 16
def Pass.sport (ps : Pass) : Nat := if ps.srcLow then beAt ps.block 32 2 else beAt ps.block 34 2
def Pass.dport (ps : Pass) : Nat := if ps.srcLow then beAt ps.block 34 2 else beAt ps.block 32 2
def Pass.proto (ps : Pass) : Nat := beAt ps.block 36 1
/-- Kind of the key: 0 IPv4, 1 IPv6, 2 L2. -/
def Pass.kind (ps : Pass) : Nat := beAt ps.block 37 1 % 4
/-- FRAG of the key. -/
def Pass.keyFrag (ps : Pass) : Bool := (beAt ps.block 37 1).testBit 2

/-- L4 type of the hashed layer, and the ICMP type when it is ICMP. -/
def Pass.hashL4 (ps : Pass) : Nat × Nat :=
  if ps.hv.hashInner then (ps.hv.l4i, ps.hv.inSport / 256) else (ps.hv.l4o, ps.hv.outSport / 256)

/-- An ICMP or ICMPv6 echo. -/
def Pass.echo (ps : Pass) : Bool :=
  let (l, t) := ps.hashL4
  (l == 3 && (t == 8 || t == 0)) || (l == 4 && (t == 128 || t == 129))

/-- TCP, UDP or ICMP echo, hashed with its ports (R217). -/
def Pass.portable (ps : Pass) : Bool := !ps.keyFrag && (ps.hashL4.1 == 1 || ps.hashL4.1 == 2 || ps.echo)

/-- The creating packet carries IPv6 extension headers, or is an ICMPv6 error (R221). -/
def Pass.noNat64 (ps : Pass) : Bool :=
  let o := if ps.hv.hashInner then ps.hv.oL3i else ps.hv.oL3o
  ps.keyFrag || [0, 43, 44, 60].contains (beAt ps.pkt.bytes (o + 6) 1) || (ps.hashL4.1 == 4 && !ps.echo)

/-! ### Reply keys (R183, R212, R219) -/

/-- The identity of a reply key: FLOW_HASH and KEY_CHECK. -/
def Reply.hash (r : Reply) : Nat := crc32c r.block
def Reply.key (r : Reply) : Nat := keyCheck r.block

/-- The reply key from a remote endpoint to a local one. -/
def replyOf (remote rport loc lport proto zone addr l4 : Nat) : Reply :=
  let e : Ends := ⟨remote, loc, rport, lport, proto, 0, false⟩
  { block := e.block zone, srcLow := e.srcLow, zone := zone, addr := addr, l4 := l4 }

/-- A member's IPv4 address and DPORT. -/
def State.memAddr (s : State) (m : Nat) : Nat := mapped (beAt (s.memberExt m) 8 4)
def State.memDport (s : State) (m : Nat) : Nat := beAt (s.memberExt m) 6 2

/-- The reply key of a DNAT member for a creating packet (R212 step 6); an echo keeps its identifier (log entry 44). -/
def State.lbReply (s : State) (ps : Pass) (m : Nat) : Reply :=
  let p := if ps.echo then ps.sport else s.memDport m
  replyOf (s.memAddr m) p ps.src ps.sport ps.proto ps.zone (s.memAddr m) p

/-- The reply key of an external address and port (R219). -/
def State.natReply (s : State) (ps : Pass) (rp : Prof) (zone addr port : Nat) : Reply :=
  let remote := if prKind rp = 3 then mapped (((s.natPfx (prPrefix rp)).map fun p => unembed p.1 ps.dst).getD 0) else ps.dst
  let proto := if ps.proto = 58 then 1 else ps.proto
  let rport := if ps.echo then port else ps.dport
  replyOf remote rport (mapped addr) port proto zone (mapped addr) port

/-- In deepen the reply key must be owned here (R467). -/
def State.replyElsewhere (s : State) (r : Reply) : Bool :=
  s.deepen && r.hash % max 1 (s.get pgCsc CSC_CFG.DEVICES) != s.get pgCsc CSC_STAT.ID

/-! ### Steps of SETUP (R256) -/

/-- Where a standard setup goes on, ready or waiting for its memory operations. -/
def State.goTo (s : State) (q c rt : Nat) : State := s.upCtx q c fun x => { x with rt := rt, phase := .ready }

def State.waitAt (s : State) (q c rt : Nat) : State :=
  s.upCtx q c fun x => { x with rt := rt, phase := .waiting, cond := 0, satisfied := false }

/-- Claim the reply record into X. -/
def State.claimReply (s : State) (q c rt : Nat) (ps : Pass) (r : Reply) (action : Nat) : State :=
  let k : Claim := { id := 0, src := q, hash := r.hash, key := r.key, block := r.block, action := action,
                     cls := ps.lk.flowClass, origLow := r.srcLow }
  let w := BitVec.ofNat 1024 ((claimHot k).toNat + (claimCold k s.io.sec).toNat * 2 ^ 512)
  let s := s.upCtx q c fun x => { x with x := w, reply := r }
  match s.opClaim q c 1 with
  | .ok s => s.waitAt q c rt
  | .error e => s.pipFault q c e

/-- REPLY_ACTION must be valid and of the same KIND (R195, R231). -/
def State.replyBad (s : State) (q : Nat) (ps : Pass) (rp : Prof) : Option Nat :=
  if !(s.profOn q (prReply rp) ps.actBank) then some 11
  else if prKind (s.prof q (prReply rp)) ≠ prKind rp then some 12 else none

/-- Step 3 for KIND LB (R212, R467). -/
def State.setupLb (s : State) (q c : Nat) (ps : Pass) (rp : Prof) : State :=
  match lbPoolOf rp ps.lk with
  | none => s.abortRoutine q c 14
  | some pool =>
    let skip := fun (m : Nat) => memDnat (s.member m) && s.replyElsewhere (s.lbReply ps m)
    match s.lbChoose pool ps.hash (lbScan s.deepen) skip with
    | none => s.abortRoutine q c 14
    | some m =>
      let s := s.upCtx q c fun x => { x with member := m }
      if !(memDnat (s.member m)) then s.goTo q c 6
      else if ps.kind ≠ 0 ∨ !ps.portable then s.abortRoutine q c 16
      else
        match s.replyBad q ps rp with
        | some e => s.abortRoutine q c e
        | none => s.claimReply q c 5 ps (s.lbReply ps m) (prReply rp)

/-- Why a translation is refused before a port is taken (R217, R219, R221). -/
def State.natRefused (s : State) (ps : Pass) (rp : Prof) : Option Nat :=
  if prKind rp = 3 then
    if !(s.feature 3) ∨ (s.natPfx (prPrefix rp)).isNone then some 18
    else if ps.kind = 0 then some 18
    else if ps.kind = 1 ∧ ps.noNat64 then some 18
    else if ps.kind ≠ 1 ∨ !ps.portable ∨ !(npOn (s.natPool (prNatPool rp))) then some 16 else none
  else if ps.kind ≠ 0 ∨ !ps.portable ∨ !(npOn (s.natPool (prNatPool rp))) then some 16 else none

/-- Step 3 for NAPT44 and NAT64: the subscriber binding is locked (R219). -/
def State.setupNat (s : State) (q c : Nat) (ps : Pass) (rp : Prof) : State :=
  match s.natRefused ps rp with
  | some e => s.abortRoutine q c e
  | none =>
    match s.replyBad q ps rp with
    | some e => s.abortRoutine q c e
    | none =>
      match s.opLock q c (subscriber ps.zone ps.src) with
      | .ok s => if (s.ctx q c).ops.isEmpty then s.goTo q c 4 else s.waitAt q c 4
      | .error e => s.pipFault q c e

/-- Step 2: the profile the record will carry, and the path of its KIND. -/
def State.setupPath (s : State) (q c : Nat) (ps : Pass) : State :=
  if !(s.profOn q ps.lk.action ps.actBank) then s.abortRoutine q c 11
  else
    let rp := s.prof q ps.lk.action
    match prKind rp with
    | 1 => s.setupLb q c ps rp
    | 2 => s.setupNat q c ps rp
    | 3 => s.setupNat q c ps rp
    | _ => s.goTo q c 6

/-- After the claim of W (R256 step 1). -/
def State.setupClaimed (s : State) (q c : Nat) (ps : Pass) : State :=
  if (s.ctx q c).wCode = some 0 then s.setupPath q c ps else s.endRoutine q c

/-- The block the routine stands at: one of the binding's, or a new block taken at once (R219). -/
def State.natBlock (s : State) (x : Ctx) (ps : Pass) (pool : Nat) : Option (Nat × State) :=
  let w := s.natPool pool
  let k := subscriber ps.zone ps.src
  let l := s.binding k
  match l[x.blockAt]? with
  | some g => some (g, s)
  | none =>
    if npMax w ≤ l.length ∨ npDrain w then none
    else
      match s.newBlock pool with
      | none => none
      | some b => some (npBase w + b, (s.setBlock (npBase w + b) (2 ^ 31)).setBinding k (l ++ [npBase w + b]))

/-- The pool that block `g` of a binding belongs to: pool `n` where it is one of its blocks, else the pool that holds it (R218). -/
def State.poolOf (s : State) (n g : Nat) : Nat :=
  let mine := fun (m : Nat) => let w := s.natPool m; decide (npBase w ≤ g ∧ g < npBase w + npBlocks w)
  if mine n then n else ((List.range 64).find? mine).getD n

/-- One try of R219: the next port of the present block, or the next block. -/
def State.natTry (s : State) (q c : Nat) (ps : Pass) (rp : Prof) : State :=
  let x := s.ctx q c
  let pool := prNatPool rp
  match s.natBlock x ps pool with
  | none => s.abortRoutine q c 16
  | some (g, s) =>
    let own := s.poolOf pool g
    let w := s.natPool own
    let blk := s.block g
    if blkFlows blk = 32767 ∨ 8 ≤ x.tries ∨ 64 ≤ x.skips then
      (s.upCtx q c fun x => { x with blockAt := x.blockAt + 1, tries := 0, skips := 0 }).goTo q c 4
    else
      let k := g - npBase w
      let port := s.natPort own k + blkNext blk
      let s := s.setBlock g (setBitsOf blk.toNat 0 12 ((blkNext blk + 1) % 2 ^ npLog w))
      let r := s.natReply ps rp (npZone w) (s.natAddr own k) port
      if s.replyElsewhere r then (s.upCtx q c fun x => { x with skips := x.skips + 1 }).goTo q c 4
      else (s.upCtx q c fun x => { x with tries := x.tries + 1, natPort := g }).claimReply q c 5 ps r (prReply rp)

/-- The claim of the reply record has been answered. -/
def State.replyClaimed (s : State) (q c : Nat) (rp : Prof) : State :=
  let x := s.ctx q c
  let nat := prKind rp ≠ 1
  match x.status with
  | 0 =>
    if nat then
      let b := s.block x.natPort
      let s := s.setBlock x.natPort (setBitsOf b.toNat 16 15 (blkFlows b + 1))
      (s.upCtx q c fun x => { x with natBlocks := x.natBlocks ++ [x.natPort] }).goTo q c 6
    else s.goTo q c 6
  | 13 => if nat then s.goTo q c 4 else s.abortRoutine q c 16
  | 5 => s.abortRoutine q c 16
  | _ => s.pipFault q c pfMemError

/-! ### The records of a setup (R213, R220, R225, R228, R373) -/

/-- ACTION_DATA of a balanced record (R213); the extension of a port-only member is not read (R212). -/
def State.lbData (s : State) (m ts : Nat) : List Byte :=
  let w := s.member m
  let e := s.memberExt m
  bytesLE 2 m ++ bytesLE 1 (memPort w) ++ bytesLE 1 (b2n (memDnat w) + 2 * b2n (memDmac w)) ++ bytesLE 2 ts ++
    (if memDnat w || memDmac w then e.take 6 else List.replicate 6 0#8)

/-- ACTION_DATA of the original record by KIND. -/
def State.origData (s : State) (x : Ctx) (rp : Prof) : List Byte :=
  match prKind rp with
  | 1 =>
    let d := memDnat (s.member x.member)
    s.lbData x.member (flowletNow s.io.time.ns) ++ bytesBE 4 (if d then x.reply.addr else 0) ++ bytesBE 2 (if d then x.reply.l4 else 0)
  | 2 => bytesBE 16 x.reply.addr ++ bytesBE 2 x.reply.l4
  | 3 => bytesBE 16 x.reply.addr ++ bytesBE 2 x.reply.l4
  | _ => List.replicate 18 0#8

/-- ACTION_DATA of the reply record by KIND. -/
def replyData (x : Ctx) (ps : Pass) (rp : Prof) : List Byte :=
  if prKind rp = 1 then
    bytesLE 2 x.member ++ [0xFF#8, 1#8] ++ bytesLE 2 0 ++ bytesLE 6 0 ++ bytesBE 4 ps.dst ++ bytesBE 2 ps.dport
  else bytesBE 16 ps.src ++ bytesBE 2 ps.sport

/-- The TCP state after the creating packet and whether it is invalid (R225, R226). -/
def setupTcp (ps : Pass) (rp : Prof) (linked : Bool) : Nat × Bool :=
  match ps.tcpFlags with
  | none => (0, false)
  | some f => if prTcp rp = 0 then (0, false) else tcpNext 0 0 f (prMid rp) linked

/-- Account assignment's view of the creating packet. -/
def Pass.assignIn (ps : Pass) : AssignIn :=
  { src := ps.src, sport := ps.sport, dst := ps.dst, dport := ps.dport, zone := ps.zone, tunId := ps.hv.tunId, tci := ps.hv.tci1 }

/-- The fields both records of a setup share, set in a hot half. -/
def setMeter (h : Line) (m : Nat × Nat × Nat) : Line := hMeter.set (hAccount.set (hSealEn.set h m.1) m.2.1) m.2.2

/-- A working copy from its halves. -/
def wOf (h c : Line) : BitVec 1024 := BitVec.ofNat 1024 (h.toNat + c.toNat * 2 ^ 512)

/-- W at the final COMMIT. -/
def State.finalW (s : State) (q : Nat) (x : Ctx) (ps : Pass) (rp : Prof) : BitVec 1024 :=
  let partner := x.xClaim.bind (·.r)
  let linked := partner.isSome
  let t := setupTcp ps rp linked
  let h := wHot x.w
  let h := hTcp.set h t.1
  let h := if t.1 = 0 then h else hClass.set h (s.tcpClass q ps.zone t.1 linked)
  let h := setMeter h (s.assign ps.lk.action ps.assignIn)
  let h := setData h (s.origData x rp)
  let h := hLife.set (hLinked.set h (b2n linked)) lifeActive
  let td := match x.natBlocks.getLast? with | some g => 2 ^ 31 + g | none => 0
  let k := cTeardown.set (wCold x.w) td
  wOf h (match partner with | some r => cPartner.set k (2 ^ 31 + r) | none => k)

/-- X at the final COMMIT. -/
def State.finalX (s : State) (q : Nat) (x : Ctx) (ps : Pass) (rp : Prof) : BitVec 1024 :=
  let own := (x.wClaim.bind (·.r)).getD 0
  let t := (setupTcp ps rp true).1
  let tracked := prTcp (s.prof q (prReply rp)) ≠ 0
  let h := hTcp.set (wHot x.x) t
  let h := if tracked then hClass.set h (s.tcpClass q x.reply.zone t true) else h
  let h := setMeter h (s.assign ps.lk.action ps.assignIn)
  let h := setData h (replyData x ps rp)
  let h := hLife.set (hReply.set (hLinked.set h 1) 1) lifeActive
  wOf h (cPartner.set (wCold x.x) (2 ^ 31 + own))

/-- Steps 4 to 6: the records' fields and the COMMIT, or TCP_INVALID (R227). -/
def State.setupFinish (s : State) (q c : Nat) (ps : Pass) (rp : Prof) : State :=
  let x := s.ctx q c
  if (setupTcp ps rp x.xClaim.isSome).2 ∧ prTcp rp = 2 then s.abortRoutine q c 19
  else
    let w := s.finalW q x ps rp
    let y := if x.xClaim.isSome then s.finalX q x ps rp else x.x
    (s.upCtx q c fun x => { x with w := w, x := y, rt := 7 }).commit q c false

/-- One issue of SETUP. -/
def State.setupStep (s : State) (q c : Nat) : State :=
  let x := s.ctx q c
  match x.pass with
  | none => s.endRoutine q c
  | some ps =>
    let rp := s.prof q ps.lk.action
    match x.rt with
    | 0 => match s.opClaim q c 0 with
           | .ok s => s.waitAt q c 1
           | .error e => s.pipFault q c e
    | 1 => s.setupClaimed q c ps
    | 4 => s.natTry q c ps rp
    | 5 => s.replyClaimed q c rp
    | 6 => s.setupFinish q c ps rp
    | _ => s.endRoutine q c

/-- RELOC_ASSIST: it ends with the first resident whose other bucket has a free slot as its answer (R179, R255). -/
def State.relocStep (s : State) (q c : Nat) : State :=
  s.endRoutine q c

end Sys2Proof.Machine
end

