-- ==== Sys2Proof/Machine/HostFlow.lean ====
section
/-!
DEFINITION. Host flow commands, TABLE 0x06 (R191, R192).
-/
namespace Sys2Proof.Machine

/-! ### Keys and lookups -/

/-- A host key: kind in range, reserved bits 0 (R191). -/
def hostKeyBad (k : List Byte) : Bool := let f := leAt k 37 1; f % 4 = 3 || f / 8 ≠ 0 || leAt k 38 1 / 16 ≠ 0

/-- The key with its endpoints in LO, HI order (R123 step 3, R191). -/
def hostKey (k : List Byte) : List Byte :=
  let a := beAt k 0 16 * 2 ^ 16 + beAt k 32 2
  let b := beAt k 16 16 * 2 ^ 16 + beAt k 34 2
  if a ≤ b then k else sliceB k 16 16 ++ sliceB k 0 16 ++ sliceB k 34 2 ++ sliceB k 32 2 ++ k.drop 36

/-- What a lookup of the host finds (R173 steps 2, 4 to 7): a record, none, or an unreadable line. -/
inductive Found where
  | at' (r : Nat)
  | none
  | error
deriving DecidableEq, Repr

/-- A bucket read of the host's lookup, class 3. -/
def State.hostBucket (s : State) (b hash key : Nat) (es : List ReadEnd) : Found × State :=
  match s.readNow (s.bucketLoc b) 3 0x01 false es with
  | (Option.none, s) => (.error, s.loseBucket b)
  | (some v, s) =>
    match findSlot v hash key with
    | some i => (.at' (hdrRec (slotHdr v i)), s)
    | Option.none => (.none, s)

/-- The host's lookup of an identity: cache, stash, open fences, first bucket, second bucket. -/
def State.hostFind (s : State) (hash key : Nat) (es : List ReadEnd) : Found × State :=
  match s.probe hash key with
  | some i => (.at' (lineRec (s.cacheAt i)), s)
  | Option.none =>
    match s.stashFind hash key, s.fenceFind hash key with
    | some e, _ => (.at' (hdrRec e.2), s)
    | Option.none, some f => (.at' f.r, s)
    | Option.none, Option.none =>
      match s.hostBucket (choice1 key) hash key es with
      | (.none, s) => s.hostBucket (choice2 key) hash key (es.drop 2)
      | r => r

/-- A record as the host sees it: both halves, the resident line first. -/
def State.hostRecord (s : State) (r : Nat) (es : List ReadEnd) : Option (Line × Line) × State :=
  let h := match s.wayOf (hKey.get (s.lineView (s.hotLoc r))) r with
    | some i => (some (s.cacheAt i).data, s)
    | none => s.readNow (s.hotLoc r) 3 0x01 false es
  let c := h.2.readNow (s.coldLoc r) 3 0x01 false (es.drop 2)
  match h.1, c.1 with
  | some a, some b => (some (a, b), c.2)
  | none, _ => (none, let v := c.2.lineView (s.hotLoc r); c.2.loseHot (hHash.get v) (hKey.get v) r)
  | some _, none => (none, c.2)

/-- The buffer is INDIRECT and holds `n` bytes. -/
def bufferBad (c : Cmd) (n : Nat) : Bool := !c.indirect || c.len < n

/-! ### READ, DELETE, SEARCH, WALK, READ_BUCKET -/

def State.flowRead (s : State) (c : Cmd) (es : List ReadEnd) : State × Res :=
  if bufferBad c 128 then (s, { code := ccBadCommand })
  else if 67108864 ≤ c.idx then (s, { code := ccBadIndex })
  else
    match s.hostRecord c.idx es with
    | (none, s) => (s, { code := ccMemError })
    | (some (h, d), s) =>
      if hLife.get h = lifeFree then (s, { code := ccNotFound })
      else (s, { data := bytesLE 64 h.toNat ++ bytesLE 64 d.toNat, result := some c.idx })

/-- The identity a key-addressed command names, or BAD_COMMAND. -/
def keyOf (c : Cmd) (n : Nat) : Option (Nat × Nat) :=
  let k := c.buffer 40
  if bufferBad c n || hostKeyBad k then none else some (crc32c (hostKey k), keyCheck (hostKey k))

def State.flowDelete (s : State) (c : Cmd) (es : List ReadEnd) : State × Res :=
  match keyOf c 40 with
  | none => (s, { code := ccBadCommand })
  | some (hash, key) =>
    match s.hostFind hash key es with
    | (.error, s) => (s, { code := ccMemError })
    | (.none, s) => (s, { result := some 0xFFFFFFFF })
    | (.at' r, s) => (s.submitRemoval r 3 0, { result := some r })

def State.flowSearch (s : State) (c : Cmd) (es : List ReadEnd) : State × Res :=
  match keyOf c 168 with
  | none => (s, { code := ccBadCommand })
  | some (hash, key) =>
    match s.hostFind hash key es with
    | (.error, s) => (s, { code := ccMemError })
    | (.none, s) => (s, { code := ccNotFound })
    | (.at' r, s) =>
      match s.hostRecord r (es.drop 4) with
      | (none, s) => (s, { code := ccMemError })
      | (some (h, d), s) =>
        if hLife.get h = lifeFree then (s, { code := ccNotFound })
        else (s, { data := bytesLE 64 h.toNat ++ bytesLE 64 d.toNat, off := 40, result := some r })

/-- WALK: the non-FREE indices from the start upwards, then where to go on; places without an index hold no stated value. -/
def State.flowWalk (s : State) (c : Cmd) : State × Res :=
  let n := c.ix 12 2
  let start := bitsOf c.idx 0 32
  if n < 1 ∨ 512 < n ∨ bufferBad c (4 * (n + 1)) then (s, { code := ccBadCommand })
  else if 67108864 ≤ start then (s, { code := ccBadIndex })
  else
    let l := s.flow.used.keys.filter fun r => start ≤ r
    let d := s.draw
    let out := l.take n ++ List.replicate (n - l.length) d.1 ++ [(l.drop n).headD 0xFFFFFFFF]
    (d.2, { data := out.flatMap fun r => bytesLE 4 r, result := some (min n l.length) })

def State.flowBucket (s : State) (c : Cmd) (es : List ReadEnd) : State × Res :=
  if c.idx.testBit 63 then
    let e := bitsOf c.idx 0 63
    if 1024 ≤ e then (s, { code := ccBadIndex })
    else if bufferBad c 16 then (s, { code := ccBadCommand })
    else (s, { data := bytesLE 16 (s.flow.stash.get 0 e).toNat, result := some e })
  else if 33554432 ≤ c.idx then (s, { code := ccBadIndex })
  else if bufferBad c 64 then (s, { code := ccBadCommand })
  else
    match s.readNow (s.bucketLoc c.idx) 3 0x01 false es with
    | (some v, s) => (s, { data := bytesLE 64 v.toNat, result := some c.idx })
    | (none, s) => (s.loseBucket c.idx, { code := ccMemError })

/-! ### WRITE (R192) -/

def wMask (c : Cmd) : Nat := c.le 28 2
def wCreate (c : Cmd) : Bool := c.le 30 1 % 2 = 1

/-- The images of a WRITE. -/
def wHotImage (c : Cmd) : Line := lineOfBytes 512 (sliceB c.host 40 64)
def wColdImage (c : Cmd) : Line := lineOfBytes 512 (sliceB c.host 104 64)

/-- The masked fields of the hot half. -/
def maskHot (m : Nat) (im h : Line) : Line :=
  let f := fun (i : Nat) (x : HF) (h : Line) => if m.testBit i then x.set h (x.get im) else h
  f 5 hData (f 4 hSeen (f 3 hBytes (f 3 hPkts (f 2 hTcp (f 1 hElephant (f 0 hClass (f 0 hAction h)))))))

/-- TEARDOWN_DATA of the cold half. -/
def maskCold (m : Nat) (im d : Line) : Line := if m.testBit 6 then cTeardown.set d (cTeardown.get im) else d

/-- No copy gives a line to the host now. -/
def State.unreadableNow (s : State) (l : Loc) : Bool := (s.readNow l 3 0x01 false []).1.isNone

/-- What a WRITE reports of the lines it is about to write: MEM_ERROR, DEGRADED or OK (R278, R279). -/
def State.writeCode (s : State) (ls : List Loc) : Nat :=
  let codes := ls.map s.writeOutcome
  if codes.contains ccMemError then ccMemError else if codes.contains ccDegraded then ccDegraded else ccOk

/-- ACTION_DATA of a kind whose feature is not accepted. -/
def State.wNoFeature (s : State) (c : Cmd) (h : Line) : Bool :=
  (wMask c).testBit 5 && prKind (s.prof 0 (hAction.get (maskHot (wMask c) (wHotImage c) h))) = 3 && !(s.feature 3)

/-- TEARDOWN_DATA of a record's cold half: a read-modify-write (R269); a half that cannot be read is not written. -/
def State.writeCold (s : State) (r : Nat) (c : Cmd) : State :=
  match s.readNow (s.coldLoc r) 3 0x01 false [] with
  | (some d, s) => s.writeNow (s.coldLoc r) (maskCold (wMask c) (wColdImage c) d) 3 0x01
  | (none, s) => s

/-- The key is present: its record takes the masked fields in the current copy (R172). -/
def State.writePresent (s : State) (q : Nat) (c : Cmd) (r : Nat) : State :=
  if s.wNoFeature c (s.curHot r) then s.endCmd q { code := ccNoFeature }
  else
    let resident := (s.wayOf (hKey.get (s.curHot r)) r).isSome
    let written := (if resident then [] else [s.hotLoc r]) ++ (if (wMask c).testBit 6 then [s.coldLoc r] else [])
    let code := if written.any s.unreadableNow then ccMemError else s.writeCode written
    let s := s.updateHot r 3 0x01 (maskHot (wMask c) (wHotImage c))
    let s := if (wMask c).testBit 6 then s.writeCold r c else s
    s.endCmd q { code := code, result := some r }

/-- The owner of a host create's claim. -/
def hostOwner (q : Nat) : Nat := 512 + q

/-- The key is absent: NOT_FOUND, or a claim in the host queue. -/
def State.writeAbsent (s : State) (q : Nat) (c : Cmd) (hash key : Nat) : State :=
  if !(wCreate c) then s.endCmd q { code := ccNotFound }
  else if s.wNoFeature c 0 then s.endCmd q { code := ccNoFeature }
  else
    let im := if (wMask c).testBit 0 then wHotImage c else 0
    (s.submitClaim 8 hash key (hostKey (c.buffer 40)) (hAction.get im) (hClass.get im) true (hostOwner q)).2

/-- Account assignment of a host create: LO is the source, tunnel and tag 0 (R373). -/
def State.hostAssign (s : State) (action : Nat) (k : List Byte) : Nat × Nat × Nat :=
  s.assign action { src := beAt k 0 16, sport := beAt k 32 2, dst := beAt k 16 16, dport := beAt k 34 2, zone := beAt k 38 2 }

/-- The claim of a host create answered OK: the record becomes ACTIVE with the masked fields, and its packets are released. -/
def State.writeCreated (s : State) (q : Nat) (c : Cmd) (cl : Claim) : State :=
  let h := s.lineView (s.hotLoc cl.r)
  let a := s.hostAssign (hAction.get (maskHot (wMask c) (wHotImage c) h)) cl.block
  let h := maskHot (wMask c) (wHotImage c) (hSeen.set h (seenNow s.io.time.ns))
  let h := hMeter.set (hAccount.set (hSealEn.set h a.1) a.2.1) a.2.2
  let h := hLife.set (hOrigLo.set (hHostMade.set h 1) 1) lifeActive
  let code := s.writeCode (s.hotLoc cl.r :: (if cl.stash then [] else [s.bucketLoc cl.bkt]))
  let s := s.writeNow (s.coldLoc cl.r) (maskCold (wMask c) (wColdImage c) (s.lineView (s.coldLoc cl.r))) 3 0x01
  let s := s.writeNow (s.hotLoc cl.r) h 3 0x01
  let s := (s.claimActive cl.id cl.r).startPush cl.r cl.hash cl.key
  s.endCmd q { code := code, result := some cl.r }

/-- A held WRITE without a claim of its own: it waits for a claim in flight of its key, or goes on (R192). -/
def State.writeGo (s : State) (q : Nat) (c : Cmd) (hash key : Nat) (es : List ReadEnd) : State :=
  if (s.claimFor hash key).isSome then s
  else
    match s.hostFind hash key es with
    | (.error, s) => s.endCmd q { code := ccMemError }
    | (.at' r, s) => if hLife.get (s.curHot r) = lifeActive then s.writePresent q c r else s.writeAbsent q c hash key
    | (.none, s) => s.writeAbsent q c hash key

/-- The held WRITE of queue `q` goes on as far as it can. -/
def State.writeStep (s : State) (q : Nat) (es : List ReadEnd) : State :=
  match s.jobs.get none q with
  | none => s
  | some j =>
    let c := j.cmd
    match keyOf c 168 with
    | none => s
    | some (hash, key) =>
      match s.flow.claims.find? fun x => x.owner == hostOwner q with
      | none => s.writeGo q c hash key es
      | some cl =>
        if cl.stage ≠ .done then s
        else
          match cl.code with
          | some 0 => s.writeCreated q c cl
          | some 13 => (s.setClaims (s.flow.claims.filter fun x => x.id != cl.id)).writeGo q c hash key es
          | some 5 => (s.claimGone cl.id none cl.r).endCmd q { code := ccFull }
          | _ => (s.claimGone cl.id none cl.r).endCmd q { code := ccMemError }

/-- Held WRITEs look again after an event that moves claims. -/
def State.pollWrites (s : State) : State := (List.range 16).foldl (fun s q => s.writeStep q []) s

/-- After any event that may end a claim: claims of ended routines are withdrawn, withdrawals that waited for their buckets
run, held WRITEs go on (R182, R192, R250). -/
def State.afterClaims (s : State) : State := s.reapClaims.runUndo.pollWrites

/-- FLOW_WRITE: the checks of R192; then the command is held until its key and its claim are settled. -/
def State.flowWrite (s : State) (c : Cmd) (es : List ReadEnd) : State :=
  if !(s.cmdWaiting c) then s
  else if c.badMask 1 false then (s.unhold c.queue.val).cmdFail c ccBadCommand
  else if dmaFails c then (s.unhold c.queue.val).cmdFail c ccDmaError
  else if (wMask c).testBit 15 then (s.unhold c.queue.val).cmdFail c ccSealed
  else if bitsOf (wMask c) 7 8 ≠ 0 ∨ (keyOf c 168).isNone then (s.unhold c.queue.val).cmdFail c ccBadCommand
  else ((s.countPart none).holdCmd c 2).writeStep c.queue.val es

end Sys2Proof.Machine
end

