-- ==== Sys2Proof/Machine/Mailbox.lean ====
section
/-!
DEFINITION. Mailboxes and doorbells (R426 to R444).
-/
namespace Sys2Proof.Machine

/-! ### Bindings (R427 to R430) -/

/-- The masters that may be an end of a channel beside the secure core (R428). -/
def mbxOpen (m : Nat) : Bool := m = 0x01 || m = 0x10 || m = 0x40 || (0x80 ≤ m && m ≤ 0x83)

/-- The pairs that may be bound to channel `c` (R428). -/
def mbxPair (c snd rcv : Nat) : Bool :=
  if c < 8 then mbxOpen snd && mbxOpen rcv && snd != rcv
  else (snd = 0x11 && mbxOpen rcv) || (rcv = 0x11 && mbxOpen snd)

def Io.mbxSender (s : Io) (c : Nat) : Nat := s.get pgMbx MBX_BINDc.SENDER c
def Io.mbxReceiver (s : Io) (c : Nat) : Nat := s.get pgMbx MBX_BINDc.RECEIVER c
def Io.mbxBound (s : Io) (c : Nat) : Bool := s.get pgMbx MBX_BINDc.EN c = 1

/-- STATE of a channel (R433): 0 FREE, 1 POSTED, 2 TAKEN, 3 DONE. -/
def Io.mbxState (s : Io) (c : Nat) : Nat := s.get (pgMbxCh c) MBX_STAT.STATE

/-- Words `from` to 15 of a channel set to 0. -/
def Io.mbxZero (s : Io) (c start : Nat) : Io :=
  (List.range 16).foldl (fun s w => if start ≤ w then s.put (pgMbxCh c) MBX_MSGw.DATA 0 w else s) s

/-- A binding that changes clears its channel (R429). -/
def Io.mbxClear (s : Io) (c : Nat) : Io :=
  let b := pgMbxCh c
  let s := s.mbxZero c 0
  let s := ((((s.put b MBX_STAT.LEN 0).put b MBX_ACK.CODE 0).put b MBX_DB.BITS 0).put b MBX_DB_MASK.MASK 0xFFFFFFFF)
  let s := ((s.put b MBX_STAT.STATE 0).put b MBX_STAT.ORPHAN 0).put b MBX_STAT.WAS_TAKEN 0
  s.setIrqStat b 0

/-- A write of MBX_BINDc (R427 to R429). -/
def Io.mbxBind (s : Io) (c m v : Nat) : Io :=
  let o := 0x100 + 4 * c
  let old := (s.rd (pgMbx + o)).toNat
  let new := v &&& 0x8000FFFF
  if !(m = 0x11 ∨ (m = 0x10 ∧ c < 8)) ∨ s.get pgMbx MBX_BIND_LOCK.LOCK = 1 then s.err pgMbx 1 m o
  else if v.testBit 31 ∧ !(mbxPair c (bitsOf v 8 8) (bitsOf v 0 8)) then s.err pgMbx 3 m o
  else if s.mbxState c = 1 ∨ s.mbxState c = 2 then s.err pgMbx 3 m o
  else
    let s := s.wr (pgMbx + o) (BitVec.ofNat 32 new)
    if old = new then s else s.mbxClear c

/-- An access to a channel page by a stranger, or to a page whose EN is 0 (R430). -/
def Io.mbxStranger (s : Io) (c m : Nat) : Bool := !(s.mbxBound c) || (m != s.mbxSender c && m != s.mbxReceiver c)

/-- It is counted, and the first is captured (R430). -/
def Io.mbxViolate (s : Io) (c m off : Nat) (write : Bool) : Io :=
  let s := s.ctr pgMbx MBX_VIOL_CNT.COUNT
  if s.get pgMbx MBX_VIOL_CAP.VALID = 1 then s
  else
    (s.wr (pgMbx + 0x050) (BitVec.ofNat 32 (2 ^ 31 + b2n write * 2 ^ 30 + m % 256 * 2 ^ 16 + c % 16 * 2 ^ 12 + off % 2 ^ 12))).raise
      pgMbx 0

/-! ### Messages (R431 to R435) -/

/-- The generation of a master (R438). -/
def Io.mbxGen (s : Io) (m : Nat) : Nat :=
  if m = 0x01 then s.get pgMbx MBX_GEN0.GEN_01 else if m = 0x10 then s.get pgMbx MBX_GEN0.GEN_10
  else if m = 0x11 then s.get pgMbx MBX_GEN0.GEN_11 else if m = 0x40 then s.get pgMbx MBX_GEN0.GEN_40
  else if 0x80 ≤ m ∧ m ≤ 0x83 then bitsOf (s.get pgMbx MBX_GEN1.GEN_PEER) (8 * (m - 0x80)) 8 else 0

def Io.mbxGenUp (s : Io) (m : Nat) : Io :=
  if m = 0x01 then s.bump pgMbx MBX_GEN0.GEN_01 else if m = 0x10 then s.bump pgMbx MBX_GEN0.GEN_10
  else if m = 0x11 then s.bump pgMbx MBX_GEN0.GEN_11 else if m = 0x40 then s.bump pgMbx MBX_GEN0.GEN_40
  else if 0x80 ≤ m ∧ m ≤ 0x83 then
    let w := s.get pgMbx MBX_GEN1.GEN_PEER
    s.put pgMbx MBX_GEN1.GEN_PEER (setBitsOf w (8 * (m - 0x80)) 8 (bitsOf w (8 * (m - 0x80)) 8 + 1))
  else s

/-- Pending doorbell bits (R437). -/
def Io.mbxPending (s : Io) (c : Nat) : Nat :=
  s.get (pgMbxCh c) MBX_DB.BITS &&& (2 ^ 32 - 1 - s.get (pgMbxCh c) MBX_DB_MASK.MASK)

/-- Do `f`, and raise DOORBELL if it made a bit pending (R437). -/
def Io.mbxRing (s : Io) (c : Nat) (f : Io → Io) : Io :=
  let t := f s
  if (t.mbxPending c ^^^ s.mbxPending c) &&& t.mbxPending c ≠ 0 then t.raise (pgMbxCh c) 0 else t

/-- STATE becomes DONE with a code, and ACK is raised (R435, R439, R444). -/
def Io.mbxDone (s : Io) (c code : Nat) : Io :=
  let b := pgMbxCh c
  ((s.put b MBX_STAT.STATE 3).put b MBX_ACK.CODE code).raise b 1

/-- An accepted POST (R434). -/
def Io.mbxPosted (s : Io) (c len : Nat) : Io :=
  let b := pgMbxCh c
  let s := s.mbxZero c len
  let s := (s.put b MBX_STAT.LEN len).put b MBX_STAT.SENDER_GEN (s.mbxGen (s.mbxSender c))
  let s := ((s.put b MBX_ACK.CODE 0).put b MBX_STAT.ORPHAN 0).put b MBX_STAT.WAS_TAKEN 0
  let s := (s.put b MBX_STAT.STATE 1).bump b MBX_POST_CNT.COUNT
  s.mbxRing c fun s => s.put b MBX_DB.BITS (s.get b MBX_DB.BITS ||| 2 ^ 31)

/-- A write of MBX_POST by the sender (R431, R433 to R435). -/
def Io.mbxPost (s : Io) (c m v : Nat) : Io :=
  let len := v % 32
  if s.mbxState c = 1 ∨ s.mbxState c = 2 then s.err (pgMbxCh c) 4 m 0x080
  else if 8 ≤ c ∧ !(s.feature 12) then s.mbxDone c 0xFF03
  else if 16 < len then s.mbxDone c 0xFF02
  else s.mbxPosted c len

/-- A write of MBX_RX_CTL by the receiver (R433). -/
def Io.mbxTake (s : Io) (c m v : Nat) : Io :=
  if !(v.testBit 0) then s
  else if s.mbxState c = 1 then s.put (pgMbxCh c) MBX_STAT.STATE 2
  else s.err (pgMbxCh c) 4 m 0x084

/-- A write of MBX_ACK by the receiver (R433, R435). -/
def Io.mbxAck (s : Io) (c m v : Nat) : Io :=
  if s.mbxState c ≠ 2 then s.err (pgMbxCh c) 4 m 0x088
  else if 0xFF00 ≤ v % 2 ^ 16 then s.err (pgMbxCh c) 3 m 0x088
  else s.mbxDone c (v % 2 ^ 16)

/-- A write of a message word by the sender (R433). -/
def Io.mbxWord (s : Io) (c m w v : Nat) : Io :=
  if s.mbxState c = 1 ∨ s.mbxState c = 2 then s.err (pgMbxCh c) 4 m (0x040 + 4 * w)
  else s.put (pgMbxCh c) MBX_MSGw.DATA v w

/-! ### Doorbells (R436, R437) -/

/-- A write of MBX_DB_SET by the sender (R431, R436). -/
def Io.mbxDbSet (s : Io) (c v : Nat) : Io :=
  if 8 ≤ c ∧ !(s.feature 12) then s
  else s.mbxRing c fun s => s.put (pgMbxCh c) MBX_DB.BITS (s.get (pgMbxCh c) MBX_DB.BITS ||| v % 2 ^ 32)

/-- A W1C write of MBX_DB by the receiver (R436). -/
def Io.mbxDbClear (s : Io) (c v : Nat) : Io :=
  s.wr (pgMbxCh c + 0x090) (s.rd (pgMbxCh c + 0x090) &&& ~~~ (BitVec.ofNat 32 v))

/-- A write of MBX_DB_MASK by the receiver (R437). -/
def Io.mbxMask (s : Io) (c v : Nat) : Io := s.mbxRing c fun s => s.put (pgMbxCh c) MBX_DB_MASK.MASK v

/-! ### Rights (R432) -/

/-- Whether an end may write the register at `off`: 0 neither, 1 the sender, 2 the receiver, 3 both. -/
def mbxRight (off : Nat) : Nat :=
  if off = 0x008 ∨ off = 0x010 ∨ off = 0x014 then 3
  else if 0x040 ≤ off ∧ off ≤ 0x080 then 1
  else if off = 0x084 ∨ off = 0x088 ∨ off = 0x090 ∨ off = 0x098 then 2
  else if off = 0x094 then 1 else 0

/-- Master `m` has the write right (R432). -/
def Io.mbxMay (s : Io) (c m off : Nat) : Bool :=
  (m = s.mbxSender c && (mbxRight off).testBit 0) || (m = s.mbxReceiver c && (mbxRight off).testBit 1)

/-- A write to a channel page at or above 0x040 (R430, R432, R433). -/
def Io.mbxWrite (s : Io) (c m off v : Nat) : Io :=
  if off ≤ 0x07C then s.mbxWord c m ((off - 0x040) / 4) v
  else if off = 0x080 then s.mbxPost c m v
  else if off = 0x084 then s.mbxTake c m v
  else if off = 0x088 then s.mbxAck c m v
  else if off = 0x090 then s.mbxDbClear c v
  else if off = 0x094 then s.mbxDbSet c v
  else if off = 0x098 then s.mbxMask c v
  else s

/-! ### Resets of the ends (R438 to R441) -/

/-- The receiver of a channel is reset (R439). -/
def Io.mbxRcvReset (s : Io) (c : Nat) : Io :=
  let b := pgMbxCh c
  let s := if s.mbxState c = 1 then ((s.mbxZero c 0).put b MBX_STAT.LEN 0).mbxDone c 0xFF01
           else if s.mbxState c = 2 then (s.put b MBX_STAT.WAS_TAKEN 1).mbxDone c 0xFF01
           else s
  (s.put b MBX_DB.BITS 0).put b MBX_DB_MASK.MASK 0xFFFFFFFF

/-- The sender of a channel is reset (R440). -/
def Io.mbxSndReset (s : Io) (c : Nat) : Io :=
  if s.mbxState c = 0 then s else (s.put (pgMbxCh c) MBX_STAT.ORPHAN 1).raise (pgMbxCh c) 2

/-- A channel in the reset of `ms`: its receiver's first, then its sender's (R441). -/
def Io.mbxChReset (s : Io) (ms : List Nat) (c : Nat) : Io :=
  if !(s.mbxBound c) then s
  else
    let s := if ms.contains (s.mbxReceiver c) then s.mbxRcvReset c else s
    if ms.contains (s.mbxSender c) then s.mbxSndReset c else s

/-- Masters are reset together (R438). -/
def Io.mbxReset (s : Io) (ms : List Nat) : Io :=
  let s := ms.foldl (fun s m => s.mbxGenUp m) s
  (List.range 16).foldl (fun s c => s.mbxChReset ms c) s

/-- A write of MBX_DECLARE (R438); a master that has no generation is counted with TYPE 1. -/
def Io.mbxDeclare (s : Io) (m v : Nat) : Io :=
  if !(v.testBit 0) then s
  else if m = 0x11 ∨ mbxOpen m then s.mbxReset [m]
  else s.err pgMbx 1 m 0x044

end Sys2Proof.Machine
end

