-- ==== Sys2Proof/Machine/Policies.lean ====
section
/-!
DEFINITION. The self-adjustment policies of the global Pip (R346 to R354): elephants, balancer steering, aging by occupancy,
pressure eviction, power.  A policy's routine does its whole work in the issue of its first microword (log entry 40).
-/
namespace Sys2Proof.Machine

/-- Free records. -/
def State.freeRecords (s : State) : Nat := 67108864 - s.usedRecords

/-- The value of a per-epoch counter in the present epoch. -/
def State.inEpoch (s : State) (x : Nat × Nat) : Nat := if x.1 = s.get pgEpc EPC_EPOCH_NUM.NUM then x.2 else 0

/-! ### Elephants (R348, R349) -/

/-- Set the promotion list and TEL_ELE_COUNT. -/
def State.setPromo (s : State) (l : List Promo) : State :=
  { s with policy := { s.policy with promo := l } }.put pgE TEL_ELE_COUNT.COUNT l.length

/-- The record still has the identity. -/
def State.sameFlow (s : State) (r hash key : Nat) : Bool :=
  let h := s.curHot r
  hKey.get h == key && hHash.get h == hash && hLife.get h == lifeActive

/-- Write ELEPHANT of a record whose identity is unchanged (R346). -/
def State.setElephant (s : State) (r hash key v : Nat) : State :=
  if s.sameFlow r hash key then s.updateHot r 3 0x28 fun h => hElephant.set h v else s

/-- The ELEPHANT routine on a candidate. -/
def State.elephant (s : State) (c r hash key bytes : Nat) : State :=
  if !(s.policyOn 0) then s
  else
    let l := s.policy.promo
    let w := s.policy.window
    if l.any fun e => e.r == r && e.hash == hash && e.key == key then
      s.setPromo (l.map fun e => if e.r = r ∧ e.hash = hash ∧ e.key = key then { e with stamp := w } else e)
    else if !(s.sameFlow r hash key) ∨ hElephant.get (s.curHot r) = 1 then s
    else if l.length < min 1024 (s.get pgE TEL_ELE_CFG.MAX) then
      ((s.setElephant r hash key 1).setPromo (l ++ [⟨r, hash, key, w⟩])).journal 1 c [r, bytes, l.length + 1]
    else s.journal 3 c [r, bytes, l.length]

/-- One entry of the list at a TICK: demoted when its record is gone or it has not been refreshed for HOLD windows. -/
def State.demote (s : State) (c : Nat) (e : Promo) : State :=
  let since := s.policy.window - e.stamp
  let gone := !(s.sameFlow e.r e.hash e.key)
  if gone ∨ max 1 (s.get pgE TEL_ELE_CFG.HOLD) ≤ since then
    let s := (s.setElephant e.r e.hash e.key 0).setPromo (s.policy.promo.erase e)
    s.journal 2 c [e.r, since, b2n gone, s.policy.promo.length]
  else s

def State.elephantTick (s : State) (c : Nat) : State :=
  if s.policyOn 0 then s.policy.promo.foldl (fun s e => s.demote c e) s else s

/-! ### Balancer steering (R350) -/

/-- Occupancy of the port a member sends to. -/
def State.memOcc (s : State) (m : Nat) : Nat :=
  let p := memPort (s.member m)
  if p < 128 then s.get (pgTmbP p) TMB_PORT_OCC.CELLS else 0

/-- The member of the nearest following slot that may replace the congested one. -/
def State.lbOther (s : State) (pool slot m : Nat) : Option Nat :=
  ((List.range 4095).map fun i => s.slot pool ((slot + 1 + i) % 4096)).find? fun k =>
    k != m && s.memberState k == 1 && decide (s.memOcc k < s.get pgE TEL_LB_CONG.CELLS)

/-- Slots of a pool that hold a member. -/
def State.slotsOf (s : State) (pool m : Nat) : Nat := ((List.range 4096).filter fun i => s.slot pool i == m).length

/-- The walk over a pool's slots: `left` slots to look at, `n` rewritten for this event. -/
def State.lbWalk (s : State) (c pool m from' n : Nat) : Nat → State
  | 0 => s
  | left + 1 =>
    let slot := (from' + (4095 - left)) % 4096
    if s.slot pool slot ≠ m then s.lbWalk c pool m from' n left
    else if s.get pgE TEL_LB_CFG.STEP ≤ n then s
    else
      let used := s.inEpoch s.policy.lbCount
      if s.get pgE TEL_LB_EPOCH_MAX.SLOTS ≤ used then s.journal 5 c [pool, slot, m, 3]
      else if s.slotsOf pool m ≤ s.get pgE TEL_LB_CFG.KEEP then s.journal 5 c [pool, slot, m, 2]
      else
        match s.lbOther pool slot m with
        | none => s.journal 5 c [pool, slot, m, 0]
        | some k =>
          let e : Nat := s.get pgEpc EPC_EPOCH_NUM.NUM
          let s := { s.setSlot pool slot k with policy := { s.policy with lbCount := (e, used + 1) } }
          (s.journal 4 c [pool, slot, m, k, s.memOcc m]).lbWalk c pool m from' (n + 1) left

def State.lbSteer (s : State) (c pool m slot : Nat) : State :=
  if s.policyOn 1 then s.lbWalk c pool m slot 0 4096 else s

/-! ### Aging tuned by occupancy (R351) -/

/-- EFF of a class with floor `f` and TIMEOUT `t` at step `st`. -/
def tunedEff (t f st lo hi : Nat) : Nat :=
  if st ≤ lo then t else if hi ≤ st then f else f + ceilDiv ((t - f) * (hi - st)) (hi - lo)

def State.ageTuneClass (s : State) (c n : Nat) : State :=
  let t := s.get pgT FLW_AGE_CLASSn.TIMEOUT n
  let old := s.get pgT FLW_AGE_EFFn.EFF n
  let st := s.usedRecords * 16 / 67108864
  let v := tunedEff t (s.effFloor n) st (s.get pgE TEL_AGE_TUNE.LO) (s.get pgE TEL_AGE_TUNE.HI)
  if t = 0 ∨ v = old then s
  else
    let s := s.effWrite n 0x28 v pgT
    s.journal 6 c [n, old, s.get pgT FLW_AGE_EFFn.EFF n, st]

def State.ageTune (s : State) (c : Nat) : State :=
  if !(s.policyOn 2) ∨ s.get pgE TEL_AGE_TUNE.HI ≤ s.get pgE TEL_AGE_TUNE.LO then s
  else (List.range 16).foldl (fun s n => s.ageTuneClass c n) s

/-! ### Pressure eviction (R352) -/

/-- A record may be evicted. -/
def State.evictable (s : State) (h : Line) : Bool :=
  hLife.get h == lifeActive && hElephant.get h == 0 && hHostMade.get h == 0 &&
    (s.get pgE TEL_EVICT_CFG.CLASS_MASK).testBit (hClass.get h) &&
    decide (s.get pgE TEL_EVICT_IDLE.MIN_IDLE ≤ idleTime (seenNow s.io.time.ns) (hSeen.get h))

/-- The walk ends: EVICT_DONE with its cause. -/
def State.evictDone (s : State) (c why : Nat) : State :=
  let s := s.journal 8 c [s.inEpoch s.policy.evicted, s.freeRecords, s.get pgE TEL_EVICT_CURSOR.INDEX, why]
  if why = 2 then s.raise pgE 4 else s

/-- The walk over the listed records in index order from the cursor; each FETCH waits for background tokens, and true says that the
walk waits (R26, R352). -/
def State.evictWalk (s : State) (c : Nat) : List Nat → State × Bool
  | [] => ((s.put pgE TEL_EVICT_CURSOR.INDEX s.policy.evictFrom).evictDone c 2, false)
  | r :: t =>
    let n := s.inEpoch s.policy.evicted
    if s.get pgE TEL_EVICT_CFG.MAX ≤ n then (s.evictDone c 0, false)
    else if 1024 * s.get pgT FLW_PRESSURE.HIGH_K < s.freeRecords then (s.evictDone c 1, false)
    else if !(s.bgMay 0x28 2) then (s.bgDelay 0x28, true)
    else
      let x := s.fetchRecord r []
      let h := (x.1.map (·.1)).getD 0
      let s := x.2.put pgE TEL_EVICT_CURSOR.INDEX ((r + 1) % 67108864)
      if s.evictable h then
        let e : Nat := s.get pgEpc EPC_EPOCH_NUM.NUM
        let s := (s.submitRemoval r 1 0).journal 7 c [r, idleTime (seenNow s.io.time.ns) (hSeen.get h), hClass.get h, s.freeRecords]
        ({ s with policy := { s.policy with evicted := (e, n + 1), evictFrom := (r + 1) % 67108864 } }).evictWalk c t
      else s.evictWalk c t

/-- The EVICT routine: the walk goes on from the cursor for what is left of its turn (R352). -/
def State.evict (s : State) (c : Nat) : State × Bool :=
  if !(s.policyOn 3) ∨ s.get pgE TEL_EVICT_CFG.MAX = 0 then (s, false)
  else
    let at' := s.get pgE TEL_EVICT_CURSOR.INDEX
    let gone := fun r => subMod 26 r s.policy.evictFrom
    let k := s.flow.used.keys.filter fun r => gone at' ≤ gone r
    s.evictWalk c ((k.filter fun r => at' ≤ r) ++ k.filter fun r => r < at')

/-! ### Power (R353) -/

/-- The regions now stretched, as a mask. -/
def State.stretched (s : State) : Nat := (List.range 11).foldl (fun v r => v + b2n (s.io.div r != 8) * 2 ^ r) 0

def State.powerEngage (s : State) (c : Nat) : State :=
  if !(s.policyOn 4) then s
  else
    let v := s.get pgE TEL_POWER_CFG.SUSP_BG + 2 * s.get pgE TEL_POWER_CFG.SUSP_SCRUB + 4 * s.get pgE TEL_POWER_CFG.SUSP_TELEM |||
      (s.io.rd (pgE + 0x080)).toNat % 8
    let s := (s.setSuspend v).journal 9 c [s.stretched, v]
    { s with policy := { s.policy with engaged := some s.io.time.counted } }.raise pgE 2

/-- The first TICK after RESTORE_US µs without a stretched region. -/
def State.powerTick (s : State) (c : Nat) : State :=
  match s.policy.engaged with
  | none => s
  | some t =>
    if !(s.policyOn 4) ∨ s.stretched ≠ 0 ∨ s.io.time.counted - s.io.clk.calm < 1000 * s.get pgE TEL_POWER_CFG.RESTORE_US then s
    else
      let s := (s.setSuspend 0).journal 10 c [(s.io.time.counted - t) / 1000]
      { s with policy := { s.policy with engaged := none } }.raise pgE 3

/-! ### The routines -/

/-- What a global routine does; true: it waits for background tokens. -/
def State.policyRun (s : State) (c evt : Nat) (d : List Nat) : State × Bool :=
  match evt with
  | 0x10 =>
    let s := (s.elephantTick c).ageTune c
    let x := if s.flow.pressed then s.evict c else (s, false)
    (x.1.powerTick c, x.2)
  | 0x11 => (s.elephant c (d.getD 0 0) (d.getD 1 0) (d.getD 2 0) (d.getD 3 0), false)
  | 0x12 => (s.lbSteer c (d.getD 0 0) (d.getD 1 0) (d.getD 2 0), false)
  | 0x13 => s.evict c
  | 0x14 => (s.ageTune c, false)
  | 0x15 => (s.powerEngage c, false)
  | _ => (s, false)

/-- A global routine: its policy, its COMMIT, its END; one that waits issues again. -/
def State.policyStep (s : State) (c : Nat) : State :=
  let x := s.ctx 8 c
  let (s, waits) := s.policyRun c x.evt x.data
  if waits then s else (s.ctr (pgPip 8) PIP_COMMIT_CNT.COUNT).endRoutine 8 c

/-- MICROWORD_ISSUE: a ready context whose turn it is issues (R234). -/
def State.issue (s : State) (q c : Nat) (how : Sys2Proof.Issue) : State :=
  let x := s.ctx q c
  if x.phase ≠ .ready ∨ ctxCount q ≤ c ∨ !(s.hasTurn q c) then s
  else
    match how with
    | .fetched => (s.tookTurn q c).microIssue q c
    | .nanoError _ => (s.tookTurn q c).nanoError q c
    | .romParity => (((s.tookTurn q c).upCtx q c fun x => { x with last := x.uaddr }).countStep q c).pipFault q c pfRomParity
    | .routine =>
      if x.micro then s
      else
        let s := (s.tookTurn q c).countStep q c
        if q = 8 then s.policyStep c else if x.evt = 2 then s.relocStep q c else s.setupStep q c

end Sys2Proof.Machine
end

