-- ==== Sys2Proof/Machine/Patch.lean ====
section
/-!
DEFINITION. Patch images of the Pip (R260 to R262): the load, its checks in order, the install into the pending bank.
-/
namespace Sys2Proof.Machine

/-! ### PIP_LOAD_STAT.CODE (R263) -/

def plChecking : Nat := 1
def plInstalled : Nat := 2
def plBadFormat : Nat := 3
def plRomMismatch : Nat := 4
def plBadKey : Nat := 5
def plBadSignature : Nat := 6
def plNoFeature : Nat := 7
def plDmaError : Nat := 8
def plWrongTarget : Nat := 9
def plBusy : Nat := 10

/-- ROM_ID of a sequencer in silicon revision B0 (R263). -/
def romId (q : Nat) : Nat := if q = 8 then 0xB020 else 0xB010

/-- Round up to a multiple of 8 (R260). -/
def pad8 (n : Nat) : Nat := (n + 7) / 8 * 8

/-- N_UW and N_NW of an image. -/
def imgUw (l : List Byte) : Nat := leAt l 4 2
def imgNw (l : List Byte) : Nat := leAt l 6 2

/-- Layout and length (R260). -/
def imgFormat (l : List Byte) : Bool :=
  leAt l 0 2 == 1 && imgUw l ≤ 512 && imgNw l ≤ 512 && leAt l 9 1 == 0 && leAt l 12 4 == 0 &&
    l.length == 240 + pad8 (3 * imgUw l) + 24 * imgNw l + 96

/-- The public key at an offset, as one string and as a point. -/
def keyAt (l : List Byte) (o : Nat) : List Byte := sliceB l o 96
def pointAt (l : List Byte) (o : Nat) : Nat × Nat := (beAt l o 48, beAt l (o + 48) 48)

/-- The signature in the last 96 B, over every byte before it, under the key at `o` (R261, R486). -/
def signedOk (l : List Byte) (o : Nat) : Bool :=
  let n := l.length - 96
  ecdsaOk (pointAt l o) (sha384 (l.take n)) (beAt l n 48) (beAt l (n + 48) 48)

/-- The checks of R261 in order: a failure code, or none. -/
def imgCheck (q : Nat) (feature : Bool) (l : List Byte) : Option Nat :=
  if !feature then some plNoFeature
  else if !(imgFormat l) then some plBadFormat
  else if leAt l 2 2 ≠ romId q then some plRomMismatch
  else if leAt l 8 1 ≠ (if q = 8 then 1 else 0) then some plWrongTarget
  else if sha384 (keyAt l 144) ≠ Config.patchKeyDigest.toNat then some plBadKey
  else if !(signedOk l 144) then some plBadSignature
  else none

/-- What an image supplies (R260). -/
def imageOfBytes (l : List Byte) : Image :=
  { version := leAt l 10 2
    regs := (List.range 32).map fun i => BitVec.ofNat 32 (leAt l (16 + 4 * i) 4)
    words := (List.range (imgUw l)).map fun i => BitVec.ofNat 24 (leAt l (240 + 3 * i) 3)
    nano := (List.range (imgNw l)).map fun i => BitVec.ofNat 192 (leAt l (240 + pad8 (3 * imgUw l) + 24 * i) 24) }

/-- A load of sequencer `q` is running: being checked, or passed and waiting for its install (R261, R262). -/
def State.loadRunning (s : State) (q : Nat) : Bool := s.pip.loading.get 0 q ≠ 0 || (s.pip.image.get none q).isSome

/-- The masters that may start a load, among others (R261). -/
def ctlMaster (m : Nat) : Bool := m = 0x01 || m = 0x10 || m = 0x11

/-- PIP_LOAD_GO: the load starts, or is refused with BUSY. -/
def State.pipLoadGo (s : State) (m q : Nat) : State :=
  if !(ctlMaster m) then s.err (pgPip q) 1 m 0x058
  else if s.loadRunning q then s.put (pgPip q) PIP_LOAD_STAT.CODE plBusy
  else
    let s := { s with pip := { s.pip with loading := s.pip.loading.set 0 q (s.get (pgPip q) PIP_LOAD_LEN.LEN + 1) } }
    let s := if s.io.mayDma then s.emit (.request "patch image" (s.io.rd64 (pgPip q + 0x050)) (s.get (pgPip q) PIP_LOAD_LEN.LEN)) else s
    s.put (pgPip q) PIP_LOAD_STAT.CODE plChecking

/-- The load ends with a code (LOAD_DONE). -/
def State.pipLoadEnd (s : State) (q code : Nat) : State :=
  let s := { s with pip := { s.pip with loading := s.pip.loading.set 0 q 0, image := s.pip.image.set none q none } }
  (s.put (pgPip q) PIP_LOAD_STAT.CODE code).raise (pgPip q) 2

/-- PIP_LOAD_CHECKED: what host memory gave has been read and checked; a passed image waits for its install. -/
def State.pipLoadChecked (s : State) (q : Nat) (l : List Byte) (dmaOk : Bool) : State :=
  if s.pip.loading.get 0 q = 0 then s
  else
    let l := l.take (s.pip.loading.get 0 q - 1)
    if !(s.feature 11) then s.pipLoadEnd q plNoFeature
    else if !dmaOk || !s.io.mayDma then s.pipLoadEnd q plDmaError
    else
      let s := s.put (pgPip q) PIP_LOAD_STAT.VERSION (leAt l 10 2)
      match imgCheck q true l with
      | some code => s.pipLoadEnd q code
      | none =>
        { s with pip := { s.pip with loading := s.pip.loading.set 0 q 0,
                                     image := s.pip.image.set none q (some (imageOfBytes l)) } }

/-- An armed commit that includes the page is less than 256 core cycles from its boundary. -/
def State.commitNear (s : State) (base : Nat) : Bool :=
  match s.io.time.armed with
  | none => false
  | some t =>
    s.get base PG_SHADOW_CTL.ARM = 1 && subMod 32 t (s.get pgEpc EPC_EPOCH_NUM.NUM) == 1 && s.io.ticksToBoundary < 256

/-- Words of a bank from key `k`, the entries beyond the image zero (R260). -/
def fillBank {n : Nat} (m : SMap (BitVec n)) (k count : Nat) (l : List (BitVec n)) : SMap (BitVec n) :=
  (List.range count).foldl (fun m i => m.set 0 (k + i) (l.getD i 0)) m

/-- Store an image in bank `b` of a sequencer. -/
def State.storeImage (s : State) (q b : Nat) (x : Image) : State :=
  let k := 2 * q + b
  { s with pip := { s.pip with patch := fillBank s.pip.patch (512 * k) 512 x.words,
                               nano := fillBank s.pip.nano (512 * k) 512 x.nano,
                               mtch := fillBank s.pip.mtch (32 * k) 32 x.regs,
                               version := s.pip.version.set 0 k x.version } }

/-- PIP_INSTALL: a passed image goes to the pending bank; near its commit and during the bank copy it waits (R262). -/
def State.pipInstall (s : State) (q : Nat) : State :=
  match s.pip.image.get none q with
  | none => s
  | some x =>
    if s.commitNear (pgPip q) || s.get (pgPip q) PG_SHADOW_CTL.SHADOW_BUSY = 1 then s
    else (s.storeImage q (1 - s.pipBank q) x).pipLoadEnd q plInstalled

/-- The bank copy of a PIP page (R51): the active bank's image into the other. -/
def State.pipCopy (s : State) (q : Nat) : State :=
  let a := 2 * q + s.pipBank q
  let b := 2 * q + (1 - s.pipBank q)
  let words := (List.range 512).map fun i => s.pip.patch.get 0 (512 * a + i)
  let nano := (List.range 512).map fun i => s.pip.nano.get 0 (512 * a + i)
  let regs := (List.range 32).map fun i => s.pip.mtch.get 0 (32 * a + i)
  s.storeImage q (b % 2) ⟨s.pip.version.get 0 a, regs, words, nano⟩

/-- An adopted image supplies its nano region again (R259). -/
def State.nanoSupplied (s : State) (q : Nat) : State :=
  { s with pip := { s.pip with lost := s.pip.lost.drop fun k => 4096 * q + 3584 ≤ k && k < 4096 * q + 4096 } }

/-- PIP_IMAGE as it reads. -/
def State.pipImage (s : State) (q : Nat) : Nat :=
  s.pip.version.get 0 (2 * q + s.pipBank q) + s.pip.version.get 0 (2 * q + (1 - s.pipBank q)) * 2 ^ 16

end Sys2Proof.Machine
end

