-- ==== Sys2Proof/Machine/Ras.lean ====
section
/-!
DEFINITION. Errors and continuous service (R471 to R495): the error log, temperature warnings, the SRAM scrubber, management
firmware and its handover.
-/
namespace Sys2Proof.Machine

def State.upNvm (s : State) (f : Nvm → Nvm) : State := { s with io := { s.io with nvm := f s.io.nvm } }
def State.upFw (s : State) (f : Fw → Fw) : State := { s with fw := f s.fw }

/-! ### The persistent log (R482, R483) -/

/-- Store offset ÷ 64 of log entry 0. -/
def logBase : Nat := 0x400

/-- A record as the log holds it: a CRC-32C over bytes 4 to 63 in bytes 0 to 3. -/
def logLine (r : Line) : Line := BitVec.ofNat 512 (setBitsOf r.toNat 0 32 (crc32c ((bytesLE 64 r.toNat).drop 4)))

/-- Write a record to the log: the oldest entry gives way when it is full. -/
def State.logWrite (s : State) (r : Line) : State :=
  s.upNvm fun n =>
    { n with lines := n.lines.set 0 (logBase + n.logHead) (logLine r), logHead := (n.logHead + 1) % 16384,
             logCount := min 16384 (n.logCount + 1), logWrapped := n.logWrapped || n.logCount == 16384 }

/-- A log write more is allowed in this second (R482). -/
def State.logAllowed (s : State) : Bool :=
  s.io.ras.logRate.1 != s.io.time.counted / 1000000000 || s.io.ras.logRate.2 < 4096

def State.logCountUp (s : State) : State :=
  let sec := s.io.time.counted / 1000000000
  let n := if s.io.ras.logRate.1 = sec then s.io.ras.logRate.2 + 1 else 1
  s.upIo fun io => { io with ras := { io.ras with logRate := (sec, n) } }

/-- ERROR_LOG_WRITTEN: the oldest record that waits is logged, unless the rate forbids it, and then placed on ring 38. -/
def State.logOne (s : State) : State :=
  match s.io.ras.toLog with
  | [] => s
  | r :: t =>
    let s := s.upIo fun io => { io with ras := { io.ras with toLog := t } }
    let s := if s.logAllowed then (s.logWrite r).logCountUp
             else (s.ctr pgRas RAS_LOG_SKIP_CNT.COUNT).raiseOnce pgRas 7
    s.upIo fun io => io.ringPut 38 [r]

/-- RAS_LOG_STAT as it reads. -/
def State.logStat (s : State) : Nat := s.io.nvm.logCount * 2 ^ 16 + s.io.nvm.logHead

/-- RAS_LOG_DATAn as it reads. -/
def State.logData (s : State) (n : Nat) : Nat :=
  bitsOf (s.io.nvm.lines.get 0 (logBase + s.get pgRas RAS_LOG_SEL.INDEX)).toNat (32 * n) 32

/-! ### Temperature (R474, R495) -/

/-- The present reading of a die sensor. -/
def State.temp (s : State) (n : Nat) : Nat := (s.io.sys.temp.get none n).getD (Config.dieTemp n)

def State.setTemp (s : State) (n c : Nat) : State :=
  s.upIo fun io => { io with sys := { io.sys with temp := io.sys.temp.set none n (some c) } }

/-- RAS_STAT as it reads. -/
def State.rasStat (s : State) : Nat :=
  let hot := (List.range 16).foldl (fun b n => if s.temp b < s.temp n then n else b) 0
  min 255 (s.temp hot) * 2 ^ 24 + hot * 2 ^ 20 + b2n s.io.nvm.logWrapped * 4 + (s.io.rd (pgRas + 0x040)).toNat % 4

/-- Sensors above their threshold, as RAS_STAT.THERM_WARN shows them. -/
def State.setWarned (s : State) (n : Nat) (b : Bool) : State :=
  let m := s.io.ras.warned.set false n b
  (s.upIo fun io => { io with ras := { io.ras with warned := m } }).put pgRas RAS_STAT.THERM_WARN (b2n !m.isEmpty)

/-- THERM_WARN: sensor `n` reads `c` °C. Reaching WARN is reported once, until the sensor has fallen to WARN − HYST (R495). -/
def State.thermWarn (s : State) (n c : Nat) : State :=
  let w := s.get pgRas RAS_THERM_CFG.WARN
  let s := s.setTemp n c
  if w ≤ c then
    if s.io.ras.warned.get false n then s
    else
      let old := s.get pgRas RAS_STAT.THERM_WARN
      let s := (s.setWarned n true).report 1 18 pgRas n c
      if old = 1 then s else s.raise pgRas 0
  else if c + s.get pgRas RAS_THERM_CFG.HYST ≤ w then s.setWarned n false
  else s

/-! ### Core restarts (R491) -/

/-- What a restart of the management core does to 0x10 and 0x11 (R79, R409, R438). -/
def State.coreMasters (s : State) : State :=
  let s := s.upIo fun io => ((io.semFree 0x10).semFree 0x11).mbxReset [0x10, 0x11]
  s.zeroizeOf [0x10, 0x11]

/-- MC_RESTART is recorded with a cause. -/
def State.mcRecord (s : State) (cause : Nat) : State :=
  ((s.report 1 21 pgRas cause 0).bump pgRas RAS_MC_RESTART_CNT.COUNT).raise pgRas 6

/-- The core restarts cold on its running slot; `cause`: 1 watchdog, 2 memory. -/
def State.mcRestart (s : State) (cause : Nat) : State :=
  (s.coreMasters.mcRecord cause).upFw fun f => { f with kick := s.io.time.counted }

/-- The management core runs: started in step 3 and not halted for a handover. -/
def State.coreOn (s : State) : Bool := 4 ≤ s.io.step && s.fw.stage != .halted

/-- MC_WDOG_EXPIRE: no KICK within LIMIT_MS. -/
def State.mcWdog (s : State) : State :=
  let l := s.get pgRas RAS_MC_WDOG.LIMIT_MS
  if !s.coreOn ∨ l = 0 then s else (s.passTo (s.fw.kick + 1000000 * l)).mcRestart 1

/-! ### The SRAM scrubber (R475 to R477) -/

/-- A corrected word or a rewritten copy is reported (codes 1 and 2). -/
def State.scrubFixed (s : State) (copy : Bool) (base idx : Nat) : State :=
  if copy then s.report 1 2 base idx 0 else s.report 0 1 base idx 0

/-- SRAM_LOST of a page. -/
def State.scrubLost (s : State) (base idx detail : Nat) : State := s.report 2 3 base idx detail

/-- A frame in staging is lost before the parser. -/
def State.stagingLost (s : State) (p place : Nat) : State :=
  match (s.staged p)[place]? with
  | none => s
  | some k =>
    let s := s.setStaged p ((s.staged p).eraseIdx place)
    (s.ctr pgRas RAS_STG_UE_CNT.COUNT).report 2 14 pgRas (p * 256 + k.inPort) 0

/-- A flow-cache line is lost: invalidated without write-back, its unwritten counts declared lost (R476). -/
def State.cacheLost (s : State) (i idx : Nat) (es : List ReadEnd) : State :=
  let l := s.cacheAt i
  if !(lineValid l) then s
  else
    let r := lineRec l
    let s := (s.setCache i {}).scrubLost (pgFlw 0) idx r
    if !(s.feature 5) then s
    else
      match s.readNow (s.hotLoc r) 4 0x30 true es with
      | (some h, s) => s.declareLost (some (hAccount.get h)) (es.drop 2)
      | (none, s) => s.declareLost none (es.drop 2)

/-- An account's pending counts in the accumulator are lost (R475): LOSS of the parity is set in its entry. -/
def State.quinceLost (s : State) (k idx : Nat) (es : List ReadEnd) : State :=
  match s.qnc.acc[k]? with
  | none => s
  | some x =>
    let s := s.upQnc fun q => { q with acc := q.acc.eraseIdx k, lostAcct := q.lostAcct + 1 }
    let s := (s.ctr pgQnc QNC_LOST_ACCT_CNT.COUNT).raise pgQnc 3
    let r := s.readAccount x.acct es
    let v := r.1.getD (r.2.lineView (accountLoc x.acct))
    (r.2.writeNow (accountLoc x.acct) ((aLoss x.par).set v 1) 4 0x30).scrubLost pgQnc idx x.acct

/-- A NAT block whose state is lost is quarantined (R477). -/
def State.quarantine (s : State) (g idx : Nat) : State :=
  ({ s with act := { s.act with block := s.act.block.set 0 g (BitVec.ofNat 32 (2 ^ 31)),
                                quar := s.act.quar.set false g true } }).scrubLost (pgAct 0) idx g

/-- A Pip store word is rewritten from the DRAM copy (R259, R475). -/
def State.nanoRefetched (s : State) (q idx : Nat) : State :=
  ((s.ctr (pgPip q) PIP_NANO_FIX_CNT.COUNT).raiseOnce (pgPip q) 4).report 1 2 (pgPip q) idx 0

def State.actGone (s : State) (k : Nat) : State := { s with act := { s.act with gone := s.act.gone.set false k true } }
def State.fwdGone (s : State) (k : Nat) : State := { s with fwd := { s.fwd with gone := s.fwd.gone.set false k true } }

/-- A word is uncorrectable in every copy (R475). -/
def State.sramLost (s : State) (w : Sram) (idx : Nat) (es : List ReadEnd) : State :=
  match w with
  | .cell id => s.cellBad id idx
  | .staging p k => s.stagingLost p k
  | .cache i => s.cacheLost i idx es
  | .copied b => s.scrubLost b.toNat idx 0
  | .action p i => ((s.setProfOn p i 0 false).setProfOn p i 1 false).scrubLost (pgAct p) idx i
  | .template p t =>
    (({ s with fwd := { s.fwd with tmpl := s.fwd.tmpl.set 0 (64 * p + t) 0 } }).actGone (tmplKey p t)).scrubLost (pgAct p) idx (0x10000 + t)
  | .search p i => (s.fwdGone (64 * p + i)).scrubLost (pgCls p) idx i
  | .select p i => (s.fwdGone (1024 + 32 * p + i)).scrubLost (pgCls p) idx i
  | .slot pool i => (s.actGone (4096 * pool + i)).scrubLost (pgAct 0) idx (4096 * pool + i)
  | .member m => (s.actGone (8388608 + m)).scrubLost (pgAct 0) idx m
  | .block g => s.quarantine g idx
  | .counter a => (s.upIo fun io => io.wr64 a.toNat 0).scrubLost a.toNat idx a.toNat
  | .quince k => s.quinceLost k idx es
  | .nano q => s.nanoRefetched q.val idx
  | .patch q => s.nanoRefetched q.val idx
  | .mcMemory => s.mcRestart 2
  | .log i =>
    (s.upNvm fun n => { n with lines := n.lines.set 0 (logBase + i.val) 0 }).report 1 23 pgRas (64 * (logBase + i.val)) 0

/-- The page a memory belongs to. -/
def sramPage : Sram → Nat
  | .cell _ => pgTmb | .staging _ _ => pgRas | .cache _ => pgFlw 0 | .copied b => b.toNat
  | .action p _ => pgAct p | .template p _ => pgAct p | .search p _ => pgCls p | .select p _ => pgCls p
  | .slot _ _ => pgAct 0 | .member _ => pgAct 0 | .block _ => pgAct 0 | .counter a => a.toNat | .quince _ => pgQnc
  | .nano q => pgPip q.val | .patch q => pgPip q.val | .mcMemory => pgRas | .log _ => pgRas

/-- SRAM_SCRUB: the scrubber, while it is on, or the unit that uses the word reads it, and the table of R475 is applied. -/
def State.sramScrub (s : State) (w : Sram) (idx : Nat) (e : ScrubEnd) (inUse : Bool) (es : List ReadEnd) : State :=
  if !inUse ∧ s.get pgRas RAS_SCRUB_CFG.EN = 0 then s
  else
    match e with
    | .clean => s
    | .corrected => s.scrubFixed false (sramPage w) idx
    | .copyFixed => s.scrubFixed true (sramPage w) idx
    | .lost => s.sramLost w idx es

/-! ### Firmware images (R486, R508) -/

def fcRunning : Nat := 1
def fcWritten : Nat := 2
def fcBadFormat : Nat := 3
def fcBadKey : Nat := 4
def fcBadSignature : Nat := 5
def fcRollback : Nat := 6
def fcFlashError : Nat := 7
def fcDmaError : Nat := 8
def fcBusy : Nat := 9
def fcNoImage : Nat := 10
def fcHandedOver : Nat := 11

/-- A section of an image: type, offset, size. -/
structure Sect where
  typ : Nat
  off : Nat
  size : Nat
deriving DecidableEq, Repr

def fwSects (l : List Byte) : List Sect :=
  (List.range (leAt l 6 2)).map fun i => ⟨leAt l (128 + 16 * i) 1, leAt l (132 + 16 * i) 4, leAt l (136 + 16 * i) 4⟩

def Sect.bytes (x : Sect) (l : List Byte) : List Byte := sliceB l x.off x.size

def fwVersion (l : List Byte) : Nat := leAt l 12 2
def fwSvn (l : List Byte) : Nat := leAt l 14 2

/-- The rule of a section's type: size of the nano sections, ROM_ID and TARGET of a patch. -/
def sectOk (l : List Byte) (x : Sect) : Bool :=
  let p := x.bytes l
  match x.typ with
  | 1 => true
  | 2 => x.size = 86016
  | 3 => x.size = 86016
  | 4 => imgFormat p && leAt p 2 2 == romId 0 && leAt p 8 1 == 0
  | 5 => imgFormat p && leAt p 2 2 == romId 8 && leAt p 8 1 == 1
  | _ => false

/-- Sections are aligned, inside the image, and do not overlap. -/
def sectsPlaced (l : List Byte) (xs : List Sect) : Bool :=
  let first := 128 + 16 * xs.length
  (xs.all fun x => x.off % 16 == 0 && first ≤ x.off && x.off + x.size ≤ l.length - 96) &&
    xs.zipIdx.all fun a => xs.zipIdx.all fun b =>
      a.2 == b.2 || decide (a.1.off + a.1.size ≤ b.1.off) || decide (b.1.off + b.1.size ≤ a.1.off)

/-- The reserved bytes of the header and of the section table are 0. -/
def fwReserved (l : List Byte) : Bool :=
  leAt l 16 16 == 0 && (List.range (leAt l 6 2)).all fun i => leAt l (129 + 16 * i) 3 == 0 && leAt l (140 + 16 * i) 4 == 0

/-- Layout of an image (R508). -/
def fwLayout (l : List Byte) : Bool :=
  let n := leAt l 6 2
  let xs := fwSects l
  leAt l 0 4 == 0x4F554631 && leAt l 4 2 == 1 && 1 ≤ n && n ≤ 8 && leAt l 8 4 == l.length && l.length ≤ 4194304 &&
    128 + 16 * n + 96 ≤ l.length && fwReserved l && xs.all (sectOk l) && sectsPlaced l xs &&
    (xs.filter fun x => x.typ == 1).length == 1 && (xs.filter fun x => x.typ == 4).length ≤ 1 &&
    (xs.filter fun x => x.typ == 5).length ≤ 1

/-- The checks in order: a failure code, or none; `svn`: the lowest security version allowed. -/
def fwCheck (l : List Byte) (svn : Nat) : Option Nat :=
  if !(fwLayout l) then some fcBadFormat
  else if sha384 (keyAt l 32) ≠ Config.fwKeyDigest.toNat then some fcBadKey
  else if !(signedOk l 32) then some fcBadSignature
  else if fwSvn l < svn then some fcRollback
  else none

/-! ### Loads (R486, R487) -/

def State.running (s : State) : Nat := s.get pgRas RAS_FW_STAT.RUNNING
def State.fwCode (s : State) (c : Nat) : State := s.put pgRas RAS_FW_STAT.CODE c

/-- The device waits in step 3 for an image from the host (R505). -/
def State.recovering (s : State) : Bool := s.io.step = 3 && s.get pgSys SYS_BOOT_STAT.CODE = 2

/-- A commit is armed that would change the slot (R486). -/
def State.handoverArmed (s : State) : Bool :=
  s.io.time.armed.isSome && s.get pgRas PG_SHADOW_CTL.ARM = 1 && s.io.getPending pgRas RAS_FW_SEL.SLOT != s.get pgRas RAS_FW_SEL.SLOT

/-- A LOAD ends with a code: FW_DONE. -/
def State.fwEnd (s : State) (c : Nat) : State := ((s.upFw fun f => { f with load := none }).fwCode c).raise pgRas 3

/-- FW_LOAD. A BUSY over RUNNING leaves RUNNING (R495). -/
def State.fwLoad (s : State) : State :=
  if s.fw.load.isSome ∨ s.handoverArmed then
    let s := if s.get pgRas RAS_FW_STAT.CODE = fcRunning then s.raise pgRas 3 else s
    s.fwCode fcBusy
  else
    let slot := if s.recovering then 0 else 1 - s.running
    let s := s.upFw fun f => { f with load := some { slot := slot, len := s.get pgRas RAS_FW_LEN.BYTES } }
    let s := if s.io.mayDma then s.emit (.request "firmware image" (s.io.rd64 (pgRas + 0x068)) (s.get pgRas RAS_FW_LEN.BYTES)) else s
    s.fwCode fcRunning

/-- A reset of the host side or Bus Master Enable cleared in the first phase ends a load (R487). -/
def State.fwHostGone (s : State) : State :=
  match s.fw.load with
  | some l => if l.second then s else s.fwEnd fcDmaError
  | none => s

def State.markSlot (s : State) (n : Nat) (v : Bool) : State := s.upNvm fun x => { x with slotValid := sb x.slotValid n 1 (b2n v) }

/-- FW_CHECK_DONE: what host memory gave has been read and checked (R486). -/
def State.fwChecked (s : State) (img : List Byte) (dmaOk : Bool) : State :=
  match s.fw.load with
  | none => s
  | some l =>
    if l.second then s
    else if 4194304 < l.len then s.fwEnd fcBadFormat
    else if !dmaOk || !s.io.mayDma then s.fwEnd fcDmaError
    else
      match fwCheck (img.take l.len) (if s.recovering then s.io.nvm.minSvn else s.fw.svn) with
      | some c => s.fwEnd c
      | none => (s.markSlot l.slot false).upFw fun f => { f with load := some { l with second := true, image := img.take l.len } }

/-! ### Slots that run (R488 to R490, R505) -/

/-- The VERSION and security version of a slot's image; of one the device has not read, open. -/
def State.slotVersion (s : State) (n : Nat) : (Nat × Nat) × State :=
  match s.io.nvm.slotVer.get none n with
  | some v => (v, s)
  | none =>
    let (v, s) := s.draw
    ((v % 65536, v / 65536 % 65536), s)

/-- The core starts on slot `n`. -/
def State.startSlot (s : State) (n : Nat) (stage : FwStage) : State :=
  let (v, s) := s.slotVersion n
  let s := (s.put pgRas RAS_FW_STAT.RUNNING n).put pgRas RAS_FW_STAT.VERSION v.1
  s.upFw fun f => { f with stage := stage, since := s.io.time.counted, kick := s.io.time.counted, svn := v.2 }

/-- RAS_FW_SEL.SLOT in both banks. -/
def State.setSel (s : State) (n : Nat) : State :=
  s.upIo fun io => (io.putBank pgRas RAS_FW_SEL.SLOT 0 n).putBank pgRas RAS_FW_SEL.SLOT 1 n

def State.recordVersion (s : State) (n : Nat) (img : List Byte) : State :=
  s.upNvm fun x => { x with slotVer := x.slotVer.set none n (some (fwVersion img, fwSvn img)) }

/-- Step 3 of the boot ends with slot `n` (R502, R505); CODE: 0 NORMAL, 1 FALLBACK, 2 RECOVERY. -/
def State.bootSlot (s : State) (n code : Nat) (img : List Byte) : State :=
  let s := ((s.put pgSys SYS_BOOT_STAT.SLOT n).put pgSys SYS_BOOT_STAT.CODE code).put pgSys SYS_BOOT_STAT.STEP 4
  let s := ((s.recordVersion n img).setSel n).startSlot n .boot
  s.upFw fun f => { f with image := img, next := n, prev := 1 - n }

/-- FW_PROGRAM_DONE: the slot is programmed and read back, equal or not (R486, R487). -/
def State.fwProgrammed (s : State) (ok : Bool) : State :=
  match s.fw.load with
  | none => s
  | some l =>
    if !l.second then s
    else if !ok then s.fwEnd fcFlashError
    else
      let s := (s.markSlot l.slot true).recordVersion l.slot l.image
      let rec' := s.recovering
      let s := s.fwEnd fcWritten
      if rec' then s.bootSlot 0 2 l.image else s

/-- The RAS page has committed a SLOT: a handover starts, or is refused, or the core is reset (R488, R492). -/
def State.slotCommitted (s : State) : State × Bool :=
  let n := s.get pgRas RAS_FW_SEL.SLOT
  if n = s.running then (s, false)
  else if !(tb s.io.nvm.slotValid n) then ((s.put pgRas RAS_FW_SEL.SLOT s.running).fwCode fcNoImage, false)
  else
    let s := s.upFw fun f => { f with next := n, prev := 1 - n, since := s.io.time.counted }
    if s.feature 15 then ((s.upFw fun f => { f with stage := .yield }).raise pgRas 4, false)
    else (s, true)

/-- YIELD: the core halts at its handoff point (R488). -/
def State.fwYield (s : State) : State :=
  if s.fw.stage ≠ .yield then s else s.upFw fun f => { f with stage := .halted, since := s.io.time.counted }

/-- YIELD_TIMEOUT: 1 ms after the commit the core is halted anyway. -/
def State.yieldTimeout (s : State) : State :=
  if s.fw.stage ≠ .yield then s
  else
    let s := (s.passTo (s.fw.since + 1000000)).mcRecord 3
    s.upFw fun f => { f with stage := .halted, since := s.io.time.counted }

/-- FW_WARM_START: 10 µs after the halt the new slot starts warm. -/
def State.warmStart (s : State) : State :=
  if s.fw.stage ≠ .halted then s
  else
    let s := s.passTo (s.fw.since + 10000)
    s.startSlot s.fw.next .warm

/-- ALIVE: the slot that runs is recorded; at the first one of a boot its security version is the least from now on; a handover is
complete (R489, R490, R505). -/
def State.fwAlive (s : State) : State :=
  let n := s.running
  let least := if s.fw.alive then s.io.nvm.minSvn else s.fw.svn
  let s := (s.upNvm fun x => { x with slot := n, minSvn := least }).upFw fun f => { f with alive := true }
  match s.fw.stage with
  | .boot => s.upFw fun f => { f with stage := .idle }
  | .warm => ((s.upFw fun f => { f with stage := .idle }).bump pgRas RAS_HANDOVER_CNT.COUNT).fwCode fcHandedOver
  | _ => s

/-- The core goes back to the slot before (R489). -/
def State.fallBack (s : State) : State :=
  let old := s.fw.next
  let back := s.fw.prev
  let s := (s.setSel back).startSlot back .idle
  ((s.put pgRas RAS_STAT.FW_FALLBACK 1).report 1 22 pgRas old 0).raise pgRas 5

/-- FW_WDOG_EXPIRE: no ALIVE within LIMIT_MS of the start; after boot, `other` is what the flash holds in the other slot. -/
def State.fwWdog (s : State) (other : List Byte) : State :=
  let t := s.fw.since + 1000000 * max 1 (s.get pgRas RAS_FW_WDOG.LIMIT_MS)
  match s.fw.stage with
  | .warm => (s.passTo t).fallBack
  | .boot =>
    let img := other.take (leAt other 8 4)
    let s := s.passTo t
    if tb s.io.nvm.slotValid s.fw.prev ∧ fwCheck img s.io.nvm.minSvn = none then (s.recordVersion s.fw.prev img).fallBack
    else s.upFw fun f => { f with stage := .idle }
  | _ => s

/-- A write of RAS_FW_CTL: LOAD, and YIELD from the management core only (R495). -/
def State.fwCtl (s : State) (m v : Nat) : State :=
  let s := if v.testBit 1 then (if m = 0x10 ∨ m = 0x11 then s.fwYield else s.err pgRas 1 m 0x074) else s
  if v.testBit 0 then s.fwLoad else s

/-- A write of RAS_FW_WDOG: LIMIT_MS, and ALIVE from the management core only. -/
def State.fwWdogWrite (s : State) (m v : Nat) : State :=
  let s := s.put pgRas RAS_FW_WDOG.LIMIT_MS v
  if !(v.testBit 31) then s else if m = 0x10 ∨ m = 0x11 then s.fwAlive else s.err pgRas 1 m 0x078

/-- A write of RAS_MC_WDOG: LIMIT_MS, and KICK from the management core only. -/
def State.mcWdogWrite (s : State) (m v : Nat) : State :=
  let s := s.put pgRas RAS_MC_WDOG.LIMIT_MS v
  if !(v.testBit 31) then s
  else if m = 0x10 ∨ m = 0x11 then s.upFw fun f => { f with kick := s.io.time.counted }
  else s.err pgRas 1 m 0x07C

/-- A write of RAS_THERM_CFG, WARN clamped to 60 to 115. -/
def State.thermCfg (s : State) (v : Nat) : State :=
  (s.put pgRas RAS_THERM_CFG.HYST (bitsOf v 8 8)).put pgRas RAS_THERM_CFG.WARN (max 60 (min 115 (v % 256)))

end Sys2Proof.Machine
end

