-- ==== Sys2Proof/Machine/Boot.lean ====
section
/-!
DEFINITION. Stops, resets, boot and sideband (R64, R65, R471 to R474, R493, R496 to R513, R523), the PCIe side (R73, R500), and the
window end of the performance counters (R367).
-/
namespace Sys2Proof.Machine


/-! ### The stop sequence (R471 to R473) -/

/-- A FATAL event: nothing is admitted and transmitters go idle from now on; its record waits for STOP_PERSIST. -/
def State.stopNow (s : State) (code loc cause : Nat) : State :=
  let s := (s.report 3 code pgRas loc 0)
  s.upSys fun y => { y with phase := .stopping, faultLow := true, ppsHigh := false, cascLow := false, stopCause := cause }

/-- THERMAL_TRIP: die sensor `n` at 120 °C, or a stack's catastrophic-temperature signal. -/
def State.thermalTrip (s : State) (stack : Bool) (n : Nat) : State :=
  if !s.on then s
  else
    let s := if stack then s else s.setTemp n (max 120 (s.temp n))
    s.stopNow 19 (if stack then 256 + n else n) 2

/-- SUPPLY_FAULT: a rail below its minimum for 2 µs. -/
def State.supplyFault (s : State) (rail : Nat) : State := if s.on then s.stopNow 20 rail 3 else s

/-- STOP_PERSIST: ALIVE, then the FATAL log entry: the newest record that waits. -/
def State.stopPersist (s : State) : State :=
  if s.io.sys.phase ≠ .stopping then s
  else
    let s := s.writeAlive s.io.time.ns
    let l := s.io.ras.toLog
    let s := s.upIo fun io => { io with ras := { io.ras with toLog := [] } }
    l.foldl (fun s r => s.logWrite r) s

/-- STOP_HALT: persistent writes end and the clocks stop. -/
def State.stopHalt (s : State) : State :=
  if s.io.sys.phase = .stopping then s.upSys fun y => { y with phase := .halted } else s

/-! ### Cold reset (R496 to R498) -/

/-- The cause the next release will report: a stop that the reset ends, else the reset's own. -/
def State.coldCause (s : State) (own : Nat) : Nat :=
  if s.io.sys.stopCause ≠ 0 then s.io.sys.stopCause else own

/-- POWER_ON_RESET: the detector holds the device in reset. -/
def State.powerOnReset (s : State) : State :=
  let c := s.coldCause 0
  s.upSys fun y => { y with phase := .held, porHeld := true, coldCause := c, faultLow := false, ppsHigh := false, cascLow := false }

/-- CHIP_RST_N low for 1 µs or more: ALIVE is written while the device still runs (R497). -/
def State.chipReset (s : State) : State :=
  let c := s.coldCause 1
  let s := if s.on then s.writeAlive s.io.time.ns else s
  let held := s.io.sys.phase == .held
  s.upSys fun y => { y with phase := .held, chipRstLow := true, coldCause := if held then y.coldCause else c,
                            faultLow := false, ppsHigh := false, cascLow := false }

/-- COLD_RESET_RELEASE: everything returns to its reset value; the persistent store, the die temperatures and the pins stay, and so do
the model's own record of outputs and its count of free values (R498).  While TEST_EN is high the device stays in reset (R520). -/
def State.coldRelease (s : State) (testEn : Bool) : State :=
  if s.io.sys.phase ≠ .held then s
  else if testEn then s.upSys fun y => { y with testEn := true }
  else
    let y := s.io.sys
    let t : State := { pending := s.pending }
    let t := t.upIo fun io => { io with nvm := s.io.nvm, out := s.io.out, free := s.io.free, pcie := { io.pcie with perstLow := s.io.pcie.perstLow } }
    let t := t.upSys fun z => { z with temp := y.temp, coldCause := y.coldCause }
    t.put pgSys SYS_RST_CAUSE.COLD y.coldCause

/-! ### Boot (R501 to R506, R508) -/

/-- The majority of three samples. -/
def majority (l : List (BitVec 6)) : Nat :=
  (List.range 6).foldl (fun a i => a + (if 2 ≤ (l.filter fun w => tb w i).length then 2 ^ i else 0)) 0

/-- STRAP_SAMPLE: the third sample latches the majority (R501). -/
def State.strapSample (s : State) (w : BitVec 6) : State :=
  if s.io.step ≠ 1 ∨ 3 ≤ s.io.sys.straps.length then s
  else
    let l := s.io.sys.straps ++ [w]
    let s := s.upSys fun y => { y with straps := l }
    if l.length < 3 then s
    else
      let v := majority l
      let s := s.upIo fun io => io.wr (pgSys + 0x044) (BitVec.ofNat 32 v)
      (s.put pgCsc CSC_STAT.ROLE (v % 4)).put pgCsc CSC_STAT.ID (bitsOf v 2 2)

/-- Step 1 is held by a die sensor after a thermal trip (R474). -/
def State.thermalHeld (s : State) : Bool :=
  s.io.step = 1 && s.io.sys.coldCause = 2 && (List.range 16).any fun n => 110 ≤ s.temp n

/-- What step 1 waits for: the straps, the reference, the temperature (R502, R506). -/
def State.step1Done (s : State) : Bool :=
  3 ≤ s.io.sys.straps.length && s.get pgClk CLK_STAT.REF_PRESENT = 1 && !s.thermalHeld

/-- The bytes of a slot that its header names. -/
def slotImage (flash : List Byte) : List Byte := flash.take (leAt flash 8 4)

/-- A slot authenticates: it is marked valid and its image passes every check (R487, R505). -/
def State.slotBoots (s : State) (n : Nat) (flash : List Byte) : Bool :=
  tb s.io.nvm.slotValid n && fwCheck (slotImage flash) s.io.nvm.minSvn == none

/-- Step 3: the recorded slot, else the other, else recovery (R505). -/
def State.step3 (s : State) (flash0 flash1 : List Byte) : State :=
  let n := s.io.nvm.slot % 2
  let f := fun (k : Nat) => if k = 0 then flash0 else flash1
  if tb (s.io.rd (pgSys + 0x044)) 4 then s.put pgSys SYS_BOOT_STAT.CODE 2
  else if s.slotBoots n (f n) then s.bootSlot n 0 (slotImage (f n))
  else
    let s := s.report 1 22 pgRas n 0
    if s.slotBoots (1 - n) (f (1 - n)) then s.bootSlot (1 - n) 1 (slotImage (f (1 - n)))
    else s.put pgSys SYS_BOOT_STAT.CODE 2

/-- The nano-words of a boot image's section. -/
def State.loadNano (s : State) (kind : Nat) (b : List Byte) : State :=
  let m := (List.range 3584).foldl (fun m i => m.set none (4096 * kind + i) (some (BitVec.ofNat 192 (leAt b (24 * i) 24))))
    s.pip.bootNano
  { s with pip := { s.pip with bootNano := m } }

/-- A boot patch is installed and adopted: both banks hold it. -/
def State.bootPatch (s : State) (q : Nat) (b : List Byte) : State :=
  let x := imageOfBytes b
  (s.storeImage q 0 x).storeImage q 1 x

/-- The work of a section of the boot image in step 7. -/
def State.bootSect (s : State) (l : List Byte) (x : Sect) : State :=
  let b := x.bytes l
  match x.typ with
  | 2 => s.loadNano 0 b
  | 3 => s.loadNano 1 b
  | 4 => (List.range 8).foldl (fun s q => s.bootPatch q b) s
  | 5 => s.bootPatch 8 b
  | _ => s

/-- Step 7: nano-stores, boot patches, the ledger head and keys; then SYS READY is set (R502, R503). -/
def State.step7 (s : State) (ms headsBad : Nat) : State :=
  let l := s.fw.image
  let s := (fwSects l).foldl (fun s x => s.bootSect l x) s
  let s := (s.upFw fun f => { f with image := [] }).qncBoot headsBad
  (s.put pgSys SYS_BOOT_STAT.STEP 8).put pgSys SYS_BOOT_MS.MS ms

/-- Step 5: the stacks are trained, and the retirements that the persistent store holds are reapplied before the memory self-test
(R289, R293, R502). -/
def State.step5 (s : State) : State :=
  ((List.range 4).foldl (fun s st => s.put (pgFmc st 0) FMC_STK_STAT.TRAINED 1) s).reapplyRetired.put pgSys SYS_BOOT_STAT.STEP 6

/-- BOOT_STEP_COMPLETE: the step that runs has done its work. -/
def State.bootStep (s : State) (ms : Nat) (flash0 flash1 : List Byte) (headsBad : Nat) : State :=
  let k := s.io.step
  if k = 1 then (if s.step1Done then s.put pgSys SYS_BOOT_STAT.STEP 2 else s)
  else if k = 2 then s.bootNonce.put pgSys SYS_BOOT_STAT.STEP 3
  else if k = 3 then (if s.recovering then s else s.step3 flash0 flash1)
  else if k = 5 then s.step5
  else if k = 7 then s.step7 ms headsBad
  else if k = 8 then s
  else s.put pgSys SYS_BOOT_STAT.STEP (k + 1)

/-- SYS_BOOT_STAT as it reads: CODE is THERMAL_HOLD while step 1 is held (R506). -/
def State.bootStat (s : State) : Nat :=
  let v := (s.io.rd (pgSys + 0x0C8)).toNat
  if s.thermalHeld then setBitsOf v 6 2 3 else v

/-! ### PCIe (R24, R64, R73, R500) -/

/-- The effect of PERST_N and of a Function Level Reset on the host interface (R64, R409, R487). -/
def State.hostReset (s : State) : State :=
  let s := (s.upIo fun io => io.hostReset).killJobs
  (s.zeroizeOf [0x01]).fwHostGone

/-- PERST_N_ASSERT. -/
def State.perstAssert (s : State) : State :=
  let s := (s.hostReset).upPcie fun p => { p with perstLow := true }
  s.upIo fun io => io.bumpSat pgSys SYS_RST_CAUSE.PERST_CNT

/-- PERST_N_DEASSERT: link training starts; the link comes up with PCIE_LINK_UP. -/
def State.perstDeassert (s : State) : State := s.upPcie fun p => { p with perstLow := false }

/-- Lanes of a link that has trained 2^`w` wide: at most 16, or 8 when the HOST_WIDTH strap selects x8 (R62). -/
def State.lanes (s : State) (w : Nat) : Nat := min (2 ^ w) (if tb (s.io.rd (pgSys + 0x044)) 5 then 8 else 16)

/-- PCIE_LINK_UP: held messages may be sent again (R62, R73). -/
def State.linkUpPcie (s : State) (speed w : Nat) : State :=
  if s.io.pcie.perstLow ∨ s.io.step < 3 then s
  else (s.upPcie fun p => { p with linkUp := true, speed := speed, width := s.lanes w }).flushCmds.upIo fun io => io.flushPend

/-- PCIE_LINK_DOWN (R24). -/
def State.linkDownPcie (s : State) : State := s.upPcie fun p => { p with linkUp := false, speed := 0, width := 0 }

/-- The Configuration Space after a write: sizes the device does not support leave the field as it was (R62). -/
def Pcie.cfgWrite (p : Pcie) (w : CfgWrite) : Pcie :=
  match w with
  | .command memEn bme => { p with memEn := memEn, bme := bme }
  | .bar0 base => { p with bar0 := (base >>> 26) <<< 26 }
  | .deviceControl mps mrrs => { p with mps := if mps.val ≤ 2 then mps.val else p.mps, mrrs := if mrrs.val ≤ 5 then mrrs.val else p.mrrs }
  | .power d3hot => { p with d3hot := d3hot }
  | .errors gen check unc cor => { p with ecrcGen := gen, ecrcCheck := check, uncMask := unc, corMask := cor }
  | .msixControl enable mask => { p with msixEn := enable, funcMask := mask }
  | .msixEntry vec addr data => { p with vecAddr := p.vecAddr.set 0 vec.val addr, vecData := p.vecData.set 0 vec.val data }

/-- CONFIG_WRITE: with Bus Master Enable or the power state DMA stops or resumes, and held messages may be sent (R64, R73, R487). -/
def State.configWrite (s : State) (w : CfgWrite) : State :=
  if !s.io.pcie.linkUp then s
  else
    let s := s.upPcie fun p => p.cfgWrite w
    let s := if s.io.mayDma then s.flushCmds else s.fwHostGone
    s.upIo fun io => io.flushPend

/-! ### Management reset (R65, R493, R499) -/

/-- A management reset is requested by the pin or by a write. -/
def State.mgmtRequest (s : State) : State := s.upSys fun y => { y with mgmtPending := true }

/-- A write of SYS_RST_CTL.MGMT: 0x01, 0x11 and 0x40 only. -/
def State.sysRstCtl (s : State) (m v : Nat) : State :=
  if !(v.testBit 0) then s
  else if m = 0x01 ∨ m = 0x11 ∨ m = 0x40 then s.mgmtRequest
  else s.err pgSys 1 m 0x0C0

/-- The domains a management reset resets: the management core and the host interface. -/
def State.mgmtEffects (s : State) : State :=
  let s := (s.upIo fun io => (io.mgmtReset).mbxReset [0x10, 0x11]).killJobs
  (s.zeroizeOf [0x10, 0x11]).fwHostGone

/-- MANAGEMENT_RESET: a request is applied once SYS READY is set. -/
def State.mgmtApply (s : State) : State :=
  if !s.io.sys.mgmtPending ∨ s.io.sys.mgmtActive ∨ !s.io.sysReady then s
  else (s.upSys fun y => { y with mgmtPending := false, mgmtActive := true }).mgmtEffects

/-- The slot the core starts on after a management reset: a handover in progress ends with its new slot (R499). -/
def State.coldStart (s : State) : State :=
  match s.fw.stage with
  | .idle => s.startSlot s.running .idle
  | .boot => s.startSlot s.running .boot
  | _ => s.startSlot s.fw.next .warm

/-- MANAGEMENT_RESET_END: 1 µs later the core starts cold. -/
def State.mgmtEnd (s : State) : State :=
  if !s.io.sys.mgmtActive then s
  else ((s.passNs 1000).upSys fun y => { y with mgmtActive := false }).coldStart

/-- Without HITLESS_FW a changed SLOT is adopted by a management reset at the commit instant, and R489 applies (R492). -/
def State.slotByReset (s : State) : State :=
  let s := (s.upSys fun y => { y with mgmtActive := true }).mgmtEffects
  s.upFw fun f => { f with stage := .warm }

/-! ### Sideband (R74, R509 to R513) -/

/-- BYPASS_CTL is driven low (R510). -/
def State.bypassLow (s : State) : Bool := s.on && s.io.sysReady && s.get pgSys SYS_BYPASS.INLINE = 1

/-- INT_N is driven low (R74). -/
def State.intLow (s : State) : Bool := s.on && (s.io.summaryWord &&& s.io.rd64 (pgSys + 0x058)) != 0

/-- The management core is interrupted (R74). -/
def State.mcInt (s : State) : Bool := s.on && (s.io.summaryWord &&& s.io.rd64 (pgSys + 0x070)) != 0

/-- LEDn is driven low, that is, on (R509, R513). -/
def State.ledOn (s : State) (n : Nat) : Bool :=
  s.on &&
  match s.get pgSys SYS_LED_CFGn.MODE n with
  | 1 => true
  | 2 => tb s.io.sys.ledPhase n
  | 3 => s.portExists (s.get pgSys SYS_LED_CFGn.PORT n) && s.linkUp (s.get pgSys SYS_LED_CFGn.PORT n) && !(tb s.io.sys.ledOff n)
  | _ => false

/-- LED_TIMER_EXPIRE: the blink period toggles, or the off interval ends. -/
def State.ledTimer (s : State) (n : Nat) : State :=
  match s.get pgSys SYS_LED_CFGn.MODE n with
  | 2 => s.upSys fun y => { y with ledPhase := y.ledPhase ^^^ BitVec.ofNat 4 (2 ^ n) }
  | 3 => s.upSys fun y => { y with ledOff := y.ledOff &&& ~~~ (BitVec.ofNat 4 (2 ^ n)) }
  | _ => s

/-- INLINE_WRITE: a change moves BYPASS_CTL and is counted (R510). -/
def State.inlineWrite (s : State) (v : Nat) : State :=
  if v % 2 = s.get pgSys SYS_BYPASS.INLINE then s
  else (s.put pgSys SYS_BYPASS.INLINE v).upIo fun io => io.bumpSat pgSys SYS_BYPASS.CHANGES

/-- AVS_WRITE: the set-point the board holds now (R523). -/
def State.avsWrite (s : State) (m v : Nat) : State :=
  let old := s.get pgSys SYS_AVS.APPLIED_MV
  let new := v % 1024
  if new < 700 ∨ 800 < new ∨ old + 10 < new ∨ new + 10 < old then s.err pgSys 3 m 0x1C0
  else s.put pgSys SYS_AVS.APPLIED_MV new

/-- SYS_GPIO_IN as it reads: driven outputs, none in the stop, and the level of every ball that the device does not drive (R509,
R511). -/
def State.gpioIn (s : State) : Nat × State :=
  let (v, s) := s.draw
  let dir := if s.on then s.get pgSys SYS_GPIO_DIR.DIR else 0
  let out := s.get pgSys SYS_GPIO_OUT.OUT
  let driven := dir &&& (255 - (s.get pgSys SYS_GPIO_OD.OD &&& out))
  ((out &&& driven) ||| (v % 256 &&& (255 - driven)), s)

/-! ### Windows of the performance counters (R367) -/

/-- The window values of a local page. -/
def Io.loadLocal (s : Io) (p : Nat) : Io :=
  let b := pgPmcL p
  let s := [PMC_WIN_RETIRED.SLOTS, PMC_WIN_WASTED.SLOTS, PMC_WIN_FRONT.SLOTS, PMC_WIN_BACK.SLOTS, PMC_WIN_CYCLES.SLOTS].foldl
    (fun s f => s.loadWindow b f) s
  let s := s.put b PMC_WIN_INFLIGHT.COUNT (s.get b PMC_SLOT_INFLIGHT.COUNT)
  (List.range 16).foldl (fun s j =>
    [PORT_RX_BYTES.COUNT, PORT_TX_BYTES.COUNT, PORT_RX_FRAMES.COUNT, PORT_TX_FRAMES.COUNT, PORT_SLOTS_USED.COUNT,
     PORT_SLOTS_WASTED.COUNT, PORT_SLOTS_BACK.COUNT, PORT_STG_DROP.COUNT].foldl (fun s f => s.loadWindow b f j) s) s

/-- PMC_WINDOW_END: the time base crosses a multiple of US µs, or the oldest window end not yet taken is. -/
def State.pmcWindow (s : State) : State :=
  let s := if (crossing s.io.windowNs s.io.time.due.window).isSome then s else s.passNs (s.io.toMultiple s.io.windowNs)
  let (at', rest) := (crossing s.io.windowNs s.io.time.due.window).getD (s.io.time.counted, [])
  let len := at' - s.io.time.windowAt
  let s := s.upIo fun io => { io with time := { io.time with windowAt := at', due := { io.time.due with window := rest } } }
  let s := s.upIo fun io => (List.range 8).foldl (fun io p => io.loadLocal p) io
  let s := (s.bump pgPmc PMC_WIN_SEQ.SEQ).put pgPmc PMC_WIN_LEN_NS.NS len
  s.raise pgPmc 1

end Sys2Proof.Machine
end

