-- ==== Sys2Proof/Machine/Commit.lean ====
section
/-!
DEFINITION. Boundary events and commits over the whole state (R43 to R57), the drain and bank copy that follow, and steps of
the time base with what they bring about.
-/
namespace Sys2Proof.Machine

/-- What the flip of a page's active bank brings about outside its registers, at the commit instant `at'`; true: the RAS page
changes slot by a management reset (R492). -/
def State.adopt (s : State) (at' : Nat) (pg : Page) : State × Bool :=
  match pg.kind with
  | .shp0 => (s.polAdopt, false)
  | .tgtp => (s.listAdopt pg.idx at', false)
  | .pip => ((s.commitAll pg.idx).nanoSupplied pg.idx, false)
  | .ras => s.slotCommitted
  | _ => (s, false)

/-- Every armed page flips at once; then each adopts (R48, R53). -/
def State.commitPages (s : State) (num at' : Nat) : State × Bool :=
  let pgs := s.io.armedPages
  let s := s.upIo fun io => pgs.foldl (fun io pg => io.flipPage num pg) io
  pgs.foldl (fun r pg => let x := r.1.adopt at' pg; (x.1, r.2 || x.2)) (s, false)

/-- The commit at the boundary event that set EPC_EPOCH_NUM to `num` (R53): STATE and its cause, then the armed pages. -/
def State.commitNow (s : State) (num at' : Nat) : State :=
  let s := s.upIo fun io =>
    ({ io with time := { io.time with armed := none, commitAt := io.time.counted } }.commitState 2).raise pgEpc 1
  let (s, reset) := s.commitPages num at'
  if reset then s.slotByReset else s

/-- Whether the boundary event of epoch `num` commits: in a cascade by its protocol (R458), else when it is the target. -/
def State.commitDue (s : State) (num : Nat) : State × Bool :=
  if s.cascOn then s.cascBoundary num else (s, s.io.time.armed == some num)

/-- The boundary event at count `c`, with the movements `rest` after it (R46): Quince looks for a close of the epoch that ends, the
number rises, BOUNDARY is raised, TICK is posted (R235), and the armed commit is made if it is due. -/
def State.boundaryAt (s : State) (c : Nat) (rest : List Span) : State :=
  let at' := s.io.time.ns - (s.io.time.counted - c)
  let s := s.refillDue.qncBoundary at' (s.get pgEpc EPC_EPOCH_NUM.NUM)
  let s := ((s.upIo fun io => io.boundary c rest).raise pgEpc 0).post 0x10 []
  let num := s.get pgEpc EPC_EPOCH_NUM.NUM
  let (s, go) := s.commitDue num
  if go then s.commitNow num at' else s

/-- BOUNDARY_EVENT: time passes to the next crossing of a multiple of 2^K if none waits; it is the event, or is held. -/
def State.boundaryEvent (s : State) : State :=
  let (io, c) := s.io.toBoundary s.waiting
  let s := { s with io := io }
  match c with
  | none => s
  | some (c, rest) => s.boundaryAt c rest

/-- HELD_BOUNDARY: time passes to the end of the hold of R45. -/
def State.heldBoundary (s : State) : State :=
  let (io, c) := s.io.toHeldEnd s.waiting
  let s := { s with io := io }
  match c with
  | none => s
  | some (c, rest) => s.boundaryAt c rest

/-- No packet of pipeline `p` carries the bank before `active` in tag bit `b` (R51). -/
def State.tagsDrained (s : State) (p b active : Nat) : Bool :=
  let ok := fun (k : Pkt) => bitsOf k.bank b 1 == active
  (s.buf.recirc.get [] p).all ok && (s.flow.miss.get [] p).all fun m => m.passes.all fun ps => ok ps.pkt

/-- What the drain of a page waits for has happened (R51, R253). -/
def State.drained (s : State) (pg : Page) : Bool :=
  match pg.kind with
  | .cls => s.tagsDrained pg.idx 0 (s.io.active pg.base)
  | .act => s.tagsDrained pg.idx 1 (s.io.active pg.base)
  | .prs => s.tagsDrained pg.idx 2 (s.io.active pg.base)
  | .pip => s.pipDrained pg.idx
  | _ => true

/-- A page whose commit is still to be drained or copied. -/
def State.shadowPage (s : State) (base : Nat) (copying : Bool) : Option Page :=
  match pageOf base with
  | none => none
  | some pg =>
    if pg.base = base ∧ pg.kind.shadowed ∧ s.get base PG_SHADOW_CTL.SHADOW_BUSY = 1 ∧ s.io.drained.get false base = copying
    then some pg else none

/-- DRAIN_COMPLETE of the page at `base`. -/
def State.drainComplete (s : State) (base : Nat) : State :=
  match s.shadowPage base false with
  | none => s
  | some pg => if s.drained pg then s.upIo fun io => io.drainDone pg else s

/-- The valid bits of the active bank into the other, for the entries `ks` of a banked table (R51). -/
def copyValid (m : SMap Bool) (active lo hi : Nat) : SMap Bool :=
  let es := (m.keys.map (· / 2)).filter fun k => lo ≤ k && k < hi
  es.foldl (fun m k => m.set false (2 * k + (1 - active)) (m.get false (2 * k + active))) m

/-- The bank copy of a classifier page: valid bits and search profiles. -/
def State.clsCopy (s : State) (p : Nat) : State :=
  let a := s.io.active (pgCls p)
  let prof := (List.range 64).foldl (fun (m : SMap (BitVec 576)) i =>
    m.set 0 (2 * (64 * p + i) + (1 - a)) (m.get 0 (2 * (64 * p + i) + a))) s.fwd.prof
  { s with fwd := { s.fwd with clsValid := copyValid s.fwd.clsValid a (clsKey p 0) (clsKey (p + 1) 0), prof := prof } }

/-- The bank copy of what a page holds beside its registers. -/
def State.copyTables (s : State) (pg : Page) : State :=
  match pg.kind with
  | .cls => s.clsCopy pg.idx
  | .act =>
    { s with fwd := { s.fwd with actValid := copyValid s.fwd.actValid (s.io.active pg.base) (4096 * pg.idx) (4096 * (pg.idx + 1)) } }
  | .shp0 => s.polCopy
  | .pip => s.pipCopy pg.idx
  | _ => s

/-- A table command that waited for SHADOW_BUSY of a page runs once it is clear: it is the next command of its queue (R52). -/
def State.shadowCopyDone (s : State) (base : Nat) : State :=
  match s.shadowPage base true with
  | none => s
  | some pg => (s.copyTables pg).upIo fun io => io.copyDone pg

/-- A write of EPC_STEP_CTL (R41). -/
def State.stepCtl (s : State) (m v : Nat) : State :=
  (s.refillDue.upIo fun io => io.stepCtl m v s.follower).stepped s.refillDue

/-- A write of EPC_COMMIT_CTL (R54, R55); in a cascade GO follows R457. -/
def State.commitCtl (s : State) (m v : Nat) : State :=
  if v.testBit 1 then s.upIo (·.commitAbort)
  else if !(v.testBit 0) then s
  else if s.cascOn then s.cascGo m
  else s.upIo (·.commitGo)

end Sys2Proof.Machine
end

