-- ==== Sys2Proof/Machine/HostIo.lean ====
section
/-!
DEFINITION. Host transmit and receive (R83, R84, R309, R395).
-/
namespace Sys2Proof.Machine

/-! ### Transmit -/

def txLen (e : BitVec 128) : Nat := gb e 64 16
def txInject (e : BitVec 128) : Bool := tb e 82

/-- The entry is refused (R84). -/
def State.txRefused (s : State) (e : BitVec 128) : Bool :=
  txLen e < 64 || 9216 < txLen e || gb e 80 16 &&& 0xFFFB ≠ 0 ||
    (if txInject e then 7 < gb e 120 8 else 127 < gb e 104 8 || s.get pgQnc QNC_LOCKS.DIRECT_TX = 1)

/-- The device's index of a software-produced ring advances. -/
def State.takeEntry (s : State) (n : Nat) : State :=
  s.upIo fun io =>
    let w := io.wcount.get 0 n
    ({ io with wcount := io.wcount.set 0 n (w + 1) }).put (pgRing n) RING_CONS.IDX ((w + 1) % io.ringSize n)

/-- HOST_TX_ENTRY: the next entry of transmit ring `t` is taken, checked, and refused or accepted (R84). -/
def State.txEntry (s : State) (t : Nat) (e : BitVec 128) : State :=
  let n := 16 + t
  if !(s.io.ringLive n) ∨ s.io.ringUsed n = 0 then s
  else
    let s := s.takeEntry n
    if s.txRefused e then
      ((s.upIo fun io => io.ringFlag n 3).bump (pgRing n) RING_DROP_CNT.COUNT).err (pgRing n) 3 0x01 0x04C
    else
      let f : TxFetch := { ring := t, addr := gb e 0 64, len := txLen e, inject := txInject e, dst := gb e 96 32 }
      let s := s.upIo fun io => { io with fetch := io.fetch.set [] t (io.fetch.get [] t ++ [f]) }
      s.emit (.request "host" f.addr f.len)

/-- An injected frame joins its pipeline's injection queue (R83). -/
def State.injectFrame (s : State) (dst : Nat) (d : List Byte) : State :=
  let p := bitsOf dst 24 8
  let k : Pkt := { bytes := d, pipe := p, inPort := bitsOf dst 16 8, injected := true, ts := s.io.now16, prio := framePrio d }
  { s with buf := { s.buf with inject := s.buf.inject.set [] p (s.buf.inject.get [] p ++ [k]) } }

/-- HOST_TX_FRAME_FETCHED: the frame of the oldest accepted entry of ring `t` arrives; its last 4 B are not used (R83, R395). -/
def State.txFetched (s : State) (t : Nat) (frame : List Byte) : State :=
  match s.io.fetch.get [] t with
  | [] => s
  | f :: rest =>
    if !(s.io.ringLive (16 + t)) then s
    else
      let s := s.upIo fun io => { io with fetch := io.fetch.set [] t rest }
      let d := sliceB frame 0 (f.len - 4)
      if f.inject then s.injectFrame f.dst d
      else
        let r := s.hostTx (bitsOf f.dst 8 8) (bitsOf f.dst 0 3) d
        if r.2 then r.1.directTx f.len else r.1

/-! ### Receive -/

/-- The posted buffers a frame of `len` bytes fills, and whether it is cut: whole when they suffice, at most `most` (R83). -/
def buffersFor (len most : Nat) : List (Nat × Nat) → Option (List (Nat × Nat) × Bool)
  | [] => if most = 0 then some ([], true) else none
  | b :: t =>
    if most = 0 then some ([], true)
    else if len ≤ b.2 then some ([b], false)
    else (buffersFor (len - b.2) (most - 1) t).map fun r => (b :: r.1, r.2)

/-- The frame a host copy delivers: bytes, FCS, and the trailer of R111. -/
def State.hostFrame (s : State) (c : Copy) : List Byte :=
  let d := (s.stored c.pkt).bytes
  d ++ fcsOf d ++ (if c.trailer then trailerBytes c.ts c.srcPort c.pipe else [])

/-- Bytes 12 to 15 of a completion. -/
def Copy.meta' (c : Copy) : Nat := c.frec % 2 ^ 16 + 2 ^ 16 * (c.srcPort % 256) + 2 ^ 24 * (c.pipe % 256)

/-- One buffer is filled and completed. -/
def Io.rxBuffer (s : Io) (n : Nat) (c : Copy) (b : Nat × Nat) (data : List Byte) (cut last : Bool) : Io :=
  let w := s.wcount.get 0 n
  let s' := s.emit (.dma b.1 data)
  let flags := 32768 * s.phase n w + 256 * (c.reason % 128) + 2 * b2n cut + b2n last
  let s' := s'.emit (.dma (s.ringBase n + 16 * (w % s.ringSize n))
    (bytesLE 8 b.1 ++ bytesLE 2 data.length ++ bytesLE 2 flags ++ bytesLE 4 c.meta'))
  let s' := { s' with wcount := s'.wcount.set 0 n (w + 1) }
  (s'.put (pgRing n) RING_CONS.IDX ((w + 1) % s.ringSize n)).complete n

/-- The buffers of a frame in turn, each but the last filled. -/
def Io.rxFill (s : Io) (n : Nat) (c : Copy) (cut : Bool) : List (Nat × Nat) → List Byte → Io
  | [], _ => s
  | b :: t, d => (s.rxBuffer n c b (d.take b.2) (cut && t.isEmpty) t.isEmpty).rxFill n c cut t (d.drop b.2)

/-- The posted buffers of host ring `h` that the device sees. -/
def State.postedOf (s : State) (posted : List (List (Nat × Nat))) (h : Nat) : List (Nat × Nat) :=
  (posted.getD h []).take (s.io.ringUsed h)

/-- Host queue `h` may deliver its head frame now (R24, R83, R309). -/
def State.rxReady (s : State) (posted : List (List (Nat × Nat))) (h : Nat) : Option Copy :=
  if !(s.io.ringLive h) then none
  else
    match s.head (hostQ h) with
    | none => none
    | some c => if (buffersFor (s.hostFrame c).length (s.io.ringSize h - 1) (s.postedOf posted h)).isSome then some c else none

/-- The round robin over the host queues, kept beside the ports' (R309). -/
def State.hostDrr (s : State) : Drr :=
  let sc := s.buf.sched.get {} 128
  ⟨sc.cur, sc.visited, (List.range 16).map fun h => s.buf.hostDef.get 0 h⟩

def State.setHostDrr (s : State) (r : Drr) : State :=
  let sc := s.buf.sched.get {} 128
  { s with buf := { s.buf with sched := s.buf.sched.set {} 128 { sc with cur := r.cur, visited := r.visited },
                               hostDef := (List.range 16).foldl (fun m h => m.set 0 h (r.d h)) s.buf.hostDef } }

/-- The head of host queue `h` leaves it: delivered, or discarded when a cell is uncorrectable (R305). -/
def State.rxDeliver (s : State) (posted : List (List (Nat × Nat))) (h : Nat) (c : Copy) : State :=
  let bad := (s.stored c.pkt).bad
  let s := s.changeQueue (hostQ h) ((s.queue (hostQ h)).drop 1)
  let s := if (s.queue (hostQ h)).isEmpty then { s with buf := { s.buf with hostDef := s.buf.hostDef.set 0 h 0 } } else s
  if bad.isSome then ((s.stomp bad).release c.pkt).traceDone c.tag 3 0 none
  else
    let f := s.hostFrame c
    match buffersFor f.length (s.io.ringSize h - 1) (s.postedOf posted h) with
    | none => s
    | some (bs, cut) =>
      let s := s.upIo fun io => io.rxFill h c cut bs f
      (s.release c.pkt).traceDone c.tag 1 c.reason (some s.io.now16)

/-- HOST_RX_DELIVER: the next frame of the host queues; `posted`: the posted buffers of each ring as host memory
holds them; `cells`: the errors met in its cells (R305). -/
def State.hostRx (s : State) (posted : List (List (Nat × Nat))) (cells : List (Nat × Bool)) : State :=
  match Drr.pick 16 (fun h => (s.rxReady posted h).map fun c => wireLen c.len)
    (fun h => s.get pgSch SCH_HOSTQ_QUANTUMh.QUANTUM h) 2400 s.hostDrr with
  | none => s
  | some (h, r) =>
    match s.rxReady posted h with
    | none => s
    | some c => ((s.setHostDrr r).readCells c.pkt cells).rxDeliver posted h c

end Sys2Proof.Machine
end

