-- ==== Sys2Proof/Machine/Fabric.lean ====
section
/-!
DEFINITION. A register access on the internal fabric (R7 to R16, R52, R66 to R71, R408, R430, R504, R531): which page it
reaches, which masters may write, what each register does when written, and what it reads as.
-/
namespace Sys2Proof.Machine

/-- The access types of R7, nothing more. -/
def State.plain (s : State) (pg : Page) (h : Hit) (o m v : Nat) : State :=
  s.upIo fun io => io.swWord pg h (pg.base + o) m (BitVec.ofNat 32 v)

/-- As `plain`, with RWL fields that only 0x11 may set. -/
def State.plainSecure (s : State) (pg : Page) (h : Hit) (o m v : Nat) : State :=
  s.upIo fun io => io.swWord pg h (pg.base + o) m (BitVec.ofNat 32 v) (m = 0x11)

/-- An error of a page: type, master, offset (R69, R70). -/
def State.pageErr (s : State) (pg : Page) (type m o : Nat) : State := s.err pg.base type m o

/-! ### The common header (R61, R69, R71) -/

/-- Pages of the blocks that R17 marks as flow path, whose EN reads 1 (R69); of the sequencers, the pipelines' alone. -/
def Page.flowPath (pg : Page) : Bool :=
  match pg.kind with
  | .prs | .cls | .l2t | .lpm | .flw | .act => true
  | .pip => pg.idx < 8
  | .tmb0 | .tmbp | .sch0 | .schp | .shp0 | .shpp | .tgt0 | .tgtp => true
  | .eth0 | .eth1 | .eth2 | .eth3 | .csc => true
  | _ => false

/-- A W1C write of PG_IRQ_STAT: a ring that DMA_ERR had stopped goes on, and so do the statuses that waited for it (R64, R81). -/
def State.irqClear (s : State) (pg : Page) (v : Nat) : State :=
  let s := s.upIo fun io => io.irqClear pg v
  if pg.kind = .ring then s.flushCmds else s

/-- A write of RING_CTL; a command queue that it disables aborts the command that waits (R81, R89). -/
def State.ringCtl (s : State) (n v : Nat) : State :=
  let s := s.upIo fun io => io.ringCtl n v
  if 44 ≤ n ∧ !(v.testBit 0) then s.abortCmd (n - 44) else s

/-- A write of PG_CTL. -/
def State.pgCtl (s : State) (pg : Page) (v : Nat) : State :=
  let s := if pg.flowPath then s else s.put pg.base PG_CTL.EN v
  if v.testBit 1 then s.upIo fun io => io.softRst pg.base else s

/-- The end of a block soft reset: the state of R71, and what the page's own chapter names (R156, R263).  The state of R71 is cleared at
the end, so errors counted during the reset go with it (DESIGN CHOICE, log entry 77). -/
def State.softDone (s : State) (pg : Page) : State :=
  let s := s.upIo fun io => (if pg.kind = .ring then io.modRestart pg.idx else io).softClear pg.base
  match pg.kind with
  | .l2t => (s.ctr pg.base L2T_LEARN_DROP_CNT.COUNT (s.learnQ pg.idx).length).setLearnQ pg.idx []
  | .pip => s.upIo fun io => io.wr (pg.base + 0x060) 0
  | .eth3 => { s with buf := { s.buf with txts := s.buf.txts.drop fun n => n / 4 == pg.idx } }
  | _ => s

/-- A write below 0x040. -/
def State.wHead (s : State) (pg : Page) (o v : Nat) : State :=
  if o = 0x008 then s.pgCtl pg v
  else if o = 0x010 then s.irqClear pg v
  else if o = 0x014 then s.upIo fun io => io.irqEnWrite pg.base v
  else if o = 0x018 then s.upIo fun io => io.irqForce pg v
  else if o = 0x01C then (if v.testBit 31 then s.put pg.base PG_ERR_CAP.VALID 0 else s)
  else if o = 0x020 then s.put pg.base PG_ERR_CNT.COUNT v
  else if o = 0x024 then s.upIo fun io => io.shadowCtl pg v
  else s

/-! ### Writes of 0x040 and above, page by page -/

/-- SYS (R73, R76 to R79, R510 to R513, R523). -/
def State.wSys (s : State) (pg : Page) (h : Hit) (o m v : Nat) : State :=
  if o = 0x050 ∨ o = 0x054 then s.upIo fun io => io.sysIrqEn ((o - 0x050) / 4) v
  else if o = 0x060 then s.upIo fun io => io.sysRearm v
  else if o = 0x064 then s.upIo fun io => io.sysRearm (2 ^ 32 * v)
  else if 0x100 ≤ o ∧ o < 0x180 then s.upIo fun io => io.semWrite ((o - 0x100) / 4) m v
  else if o = 0x180 then
    if m = 0x11 then s.upIo fun io => io.semForce v else if v = 0 then s else s.pageErr pg 1 m o
  else if o < 0x0C0 then s.plain pg h o m v
  else if !(m = 0x01 ∨ m = 0x10 ∨ m = 0x11 ∨ m = 0x40) then s.pageErr pg 1 m o
  else if o = 0x0C0 then s.sysRstCtl m v
  else if o = 0x0D0 then s.inlineWrite v
  else if o = 0x1C0 then s.avsWrite m v
  else s.plain pg h o m v

/-- A write of EPC_EPOCH_CFG: K outside 14 to 24 is ignored and counted; on a cascade member every write is (R43, R454). -/
def State.epochCfg (s : State) (pg : Page) (h : Hit) (m v : Nat) : State :=
  if s.follower then s.pageErr pg 1 m 0x040
  else if v % 32 < 14 ∨ 24 < v % 32 then s.pageErr pg 3 m 0x040
  else s.plain pg h 0x040 m v

/-- EPC: from 0x01, 0x10 and 0x11 (R59). -/
def State.wEpc (s : State) (pg : Page) (h : Hit) (o m v : Nat) : State :=
  if !(ctlMaster m) then s.pageErr pg 1 m o
  else if o = 0x040 then s.epochCfg pg h m v
  else if o = 0x054 then s.upIo fun io => io.rateAdj m v s.follower
  else if o = 0x060 then s.stepCtl m v
  else if o = 0x068 then s.commitCtl m v
  else s.plain pg h o m v

/-- A feature commit and what a newly active feature brings about (R93, R341, R447). -/
def State.featCommit (s : State) : State :=
  let old := s
  let s := s.upIo fun io => io.featCommit
  let s := s.ipfixFeature (old.feature 9) (s.feature 9)
  let s := if s.feature 5 && !(old.feature 5) then s.upQnc fun q => { q with sweepStart := s.io.time.counted } else s
  if s.feature 6 && !(old.feature 6) then s.cascActivate else s

/-- FTR: from 0x01, 0x10 and 0x11 (R92). -/
def State.wFtr (s : State) (pg : Page) (h : Hit) (o m v : Nat) : State :=
  if !(ctlMaster m) then s.pageErr pg 1 m o
  else if o = 0x070 then (if v.testBit 0 then s.featCommit else s)
  else s.plain pg h o m v

/-- Ring pages (R81, R82). -/
def State.wRing (s : State) (pg : Page) (o m v : Nat) : State :=
  if o = 0x040 ∨ o = 0x044 ∨ o = 0x048 then s.upIo fun io => io.ringConfig pg.idx m ((o - 0x040) / 4) v
  else if o = 0x04C ∨ o = 0x050 then
    if ringIndexWritable pg.idx o then s.upIo fun io => io.wr (pg.base + o) (BitVec.ofNat 32 (v % 65536)) else s
  else if o = 0x054 then s.ringCtl pg.idx v
  else if o = 0x058 then s.irqClear pg (v % 16)
  else s

/-- Port group pages (R99, R110, R114). -/
def State.wEth (s : State) (pg : Page) (h : Hit) (o m v : Nat) : State :=
  match pg.kind with
  | .eth0 => if o = 0x044 then (if v.testBit 0 then s.groupApply pg.idx m else s) else s.plain pg h o m v
  | .eth1 => if o % 0x20 = 0 then s.plain pg h o m (macCfgClamp v) else s.plain pg h o m v
  | .eth3 =>
    if o = 0x064 then s.txtsPop pg.idx v
    else if 0x0B0 ≤ o ∧ pg.idx ≠ 0 then s
    else if o = 0x0B0 then (s.plain pg h o m v).ppsCfg
    else s.plain pg h o m v
  | _ => s.plain pg h o m v

/-- The tunnel ports of a PRS page after a write: VXLAN, GENEVE, GTP-U. -/
def Io.tunPorts (s : Io) (b : Nat) : List Nat :=
  [s.getPending b PRS_UDP_TUN.VXLAN_PORT, s.getPending b PRS_UDP_TUN.GENEVE_PORT, s.getPending b PRS_GTPU.GTPU_PORT]

/-- `new` where it clashes with no other port of the page, else `old` (R131). -/
def keepPort (old new : Nat) (others : List Nat) : Nat := if others.contains new then old else new

/-- A write of PRS_UDP_TUN or PRS_GTPU: a port equal to another tunnel port of the page is ignored in its field (R131). -/
def State.tunWrite (s : State) (pg : Page) (h : Hit) (o m v : Nat) : State :=
  match s.io.tunPorts pg.base with
  | [vx, ge, gt] =>
    let w :=
      if o = 0x044 then
        let vx' := keepPort vx (bitsOf v 16 16) [bitsOf v 0 16, gt]
        let ge' := keepPort ge (bitsOf v 0 16) [bitsOf v 16 16, vx', gt]
        2 ^ 16 * keepPort vx vx' [ge', gt] + ge'
      else keepPort gt (bitsOf v 0 16) [vx, ge]
    let s := s.plain pg h o m w
    if w = (if o = 0x044 then v % 2 ^ 32 else v % 2 ^ 16) then s else s.pageErr pg 3 m o
  | _ => s

/-- PRS (R131). -/
def State.wPrs (s : State) (pg : Page) (h : Hit) (o m v : Nat) : State :=
  if o = 0x044 ∨ o = 0x048 then s.tunWrite pg h o m v
  else if 0x080 ≤ o ∧ o < 0x0C0 ∧ bitsOf v 28 2 = 3 then
    (s.plain pg h o m (setBitsOf v 28 2 (s.io.getPending pg.base PRS_PORT_CFGj.HASH_LAYER h.i))).pageErr pg 3 m o
  else s.plain pg h o m v

/-- CLS: a CLS_PSELn word that is written is no longer lost (R475). -/
def State.wCls (s : State) (pg : Page) (h : Hit) (o m v : Nat) : State :=
  let s := s.plain pg h o m v
  if 0x100 ≤ o then { s with fwd := { s.fwd with gone := s.fwd.gone.set false (1024 + 32 * pg.idx + (o - 0x100) / 4) false } } else s

/-- FLW: the configuration is table-wide and held in pipeline 0's page (R186, R194). -/
def State.wFlw (s : State) (pg : Page) (h : Hit) (o m v : Nat) : State :=
  if o = 0x050 then s.put pgT FLW_CLEAN_CFG.LOG2_NS (cleanCfg v)
  else if 0x080 ≤ o ∧ o % 8 = 0 then s.ageClassWrite ((o - 0x080) / 8) v
  else if 0x080 ≤ o then s.effWrite ((o - 0x084) / 8) m v pg.base
  else s.plain ⟨.flw, 0, pgT⟩ h o m v

/-- PIP (R251, R254, R261). -/
def State.wPip (s : State) (pg : Page) (h : Hit) (o m v : Nat) : State :=
  if o = 0x040 then (if v.testBit 0 then s.pipStop pg.idx else s.pipResume pg.idx)
  else if o = 0x058 then (if v.testBit 0 then s.pipLoadGo m pg.idx else s)
  else s.plain pg h o m v

/-- The registers of a TEL page that are device-wide (R355). -/
def telWide (o : Nat) : Bool := !(o = 0x058 ∨ o = 0x05C ∨ o = 0x060 ∨ o = 0x064) && o < 0x100

/-- TEL_EXPORT_MSG with MAX_LEN clamped to 256 to 4096. -/
def msgCfg (v : Nat) : Nat := setBitsOf v 0 13 (max 256 (min 4096 (v % 8192)))

/-- A write of TEL_SNAP_CTL.NOW; whether the last snapshot is still being written the spec leaves to its timing. -/
def State.snapNow (s : State) : State :=
  let (b, s) := s.draw
  s.snapAsked (b % 2 = 1)

/-- TEL (R334 to R355). -/
def State.wTel (s : State) (pg : Page) (h : Hit) (o m v : Nat) : State :=
  let e : Page := if telWide o then ⟨.tel, 0, pgE⟩ else pg
  if o = 0x048 then s.plain e h o m (msgCfg v)
  else if o = 0x04C then (let s := s.plain e h o m v; if v.testBit 31 then s.templateSend else s)
  else if o = 0x060 then s.plain e h o m (setBitsOf v 0 5 (max 4 (min 30 (v % 32))))
  else if o = 0x06C then (if v.testBit 0 then s.snapNow else s)
  else if o = 0x080 then (if m = 0x28 then s.setSuspend (v % 8) else s.pageErr pg 1 m o)
  else s.plain e h o m v

/-- The pages of a pipeline (R66). -/
def State.wPipe (s : State) (pg : Page) (h : Hit) (o m v : Nat) : State :=
  match pg.kind with
  | .prs => s.wPrs pg h o m v
  | .cls => s.wCls pg h o m v
  | .flw => s.wFlw pg h o m v
  | .pip => s.wPip pg h o m v
  | .tel => s.wTel pg h o m v
  | .pmcl => if 0x200 ≤ o ∧ o < 0x300 ∧ o % 16 = 0 then s.upIo fun io => io.fltCfg pg.idx h.i m v else s.plain pg h o m v
  | _ => s.plain pg h o m v

/-- FMC_PC_CTL of a slot: FREEZE, then RELEASE (R282, R285). -/
def State.pcCtl (s : State) (pc m v : Nat) : State :=
  let s := if v.testBit 1 then s.swFreeze pc else s
  if v.testBit 0 then s.swRelease pc m else s

/-- FMC (R282 to R293): rebuild rate, background limit and scrub settings are device-wide and held in HBM0's pages. -/
def State.wFmc (s : State) (pg : Page) (h : Hit) (o m v : Nat) : State :=
  match pg.kind with
  | .fmc0 => if o = 0x050 then s.retireCtl pg.idx v else s.plain pg h o m v
  | .fmcpc => if o % 0x40 = 0 then s.pcCtl (4 * pg.idx + h.i) m v else s.plain pg h o m v
  | .fmc9 => if o = 0x100 then s.diagCtl pg.idx v else s.plain pg h o m v
  | .fmc10 => s.plain ⟨.fmc10, 0, pgFmc 0 10⟩ h o m v
  | .fmc11 => if o = 0x044 then s.plain pg h o m v else s.plain ⟨.fmc11, 0, pgFmc 0 11⟩ h o m v
  | _ => s

/-- TMB, SCH, SHP and TGT (R302, R303, R310, R320, R332, R333). -/
def State.wBuf (s : State) (pg : Page) (h : Hit) (o m v : Nat) : State :=
  match pg.kind with
  | .tmb0 =>
    if o = 0x04C then s.lowWrite v
    else if o = 0x054 then (s.plain pg h o m v).lowCheck
    else s.plain pg h o m v
  | .tmbp =>
    if o = 0x0C4 then s.swFlush pg.idx v
    else if 0x0C0 ≤ o then s.plain pg h o m v
    else if o % 16 = 0 then s.qCfgWrite pg.idx h.i m v
    else if o % 16 = 12 then s.highWrite pg.idx h.i v
    else s.plain pg h o m v
  | .shp0 => if o = 0x040 then s.plain pg h o m v else s.refillDue.polWrite ((o - 0x044) / 4) m v
  | .shpp => s.refillDue.plain pg h o m v
  | _ => s.plain pg h o m v

/-- Where a device-wide register or counter is held: pipeline 0's FLW and TEL pages, HBM0's FMC pages (R194, R293, R355). -/
def Page.home (pg : Page) (o : Nat) : Page :=
  match pg.kind with
  | .flw => if (0x040 ≤ o ∧ o < 0x060) ∨ (0x080 ≤ o ∧ o < 0x100) ∨ 0x170 ≤ o then ⟨.flw, 0, pgT⟩ else pg
  | .tel => if (0x040 ≤ o ∧ telWide o = true) ∨ 0x130 ≤ o then ⟨.tel, 0, pgE⟩ else pg
  | .fmc10 => if o = 0x044 then ⟨.fmc10, 0, pgFmc 0 10⟩ else pg
  | .fmc11 => if o = 0x040 ∨ o = 0x048 ∨ 0x0C0 ≤ o then ⟨.fmc11, 0, pgFmc 0 11⟩ else pg
  | _ => pg

/-- The counter whose word lies at offset `o`: a policer's through the window, else the page's own. -/
def State.ctrHome (s : State) (pg : Page) (o : Nat) : Nat :=
  if pg.kind = .shp0 ∧ 0x058 ≤ o ∧ o < 0x078 then
    match s.polSel with
    | none => pg.base + o
    | some k => polCtr k + (o - 0x058)
  else pg.base + o

/-- Where the counter that software reaches at BAR0 offset `a` is held (R332, R355, R358, R360). -/
def State.ctrHeld (s : State) (a : Nat) : Nat :=
  match pageOf a with
  | none => a
  | some pg => s.ctrHome (pg.home (a - pg.base)) (a - pg.base)

/-- PMC global (R358, R360). -/
def State.wPmc (s : State) (pg : Page) (h : Hit) (o m v : Nat) : State :=
  if o = 0x05C then s.upIo fun io => io.ovfClear (s.ctrHeld io.ovfTarget) v
  else if o = 0x06C then (if v.testBit 0 then s.upIo fun io => io.preset m (s.ctrHeld (io.get pgPmc PMC_PRE_ADDR.ADDR)) else s)
  else s.plain pg h o m v

/-- The key registers of QNC, which 0x11 alone may write (R393, R401). -/
def State.qncKey (s : State) (o v : Nat) : State :=
  if o < 0x0A8 then s.upQnc fun q => { q with wrap := q.wrap.set 0 ((o - 0x080) / 4) (BitVec.ofNat 32 v) }
  else if o = 0x0A8 then s.upQnc fun q => { q with newId := v % 2 ^ 32 }
  else if v.testBit 0 then s.qncLoad else s

/-- QNC (R374, R384, R393, R394, R401). -/
def State.wQnc (s : State) (pg : Page) (h : Hit) (o m v : Nat) : State :=
  if o = 0x068 then s.plainSecure pg h o m v
  else if 0x080 ≤ o ∧ o ≤ 0x0AC then
    if m = 0x11 then s.qncKey o v else s.pageErr pg 1 m o
  else if o = 0x040 ∨ o = 0x044 ∨ (0x100 ≤ o ∧ o < 0x140) then
    if !(ctlMaster m) then s.pageErr pg 1 m o
    else if o = 0x040 then s.qncCfg m v
    else if o = 0x044 then s.qncSweepCfg v
    else s.qncClass ((o - 0x100) / 8) ((o - 0x100) / 4 % 2) m v
  else s

/-- CPH control page: from 0x01, 0x10 and 0x11; the bindings from 0x40 too (R406, R424). -/
def State.wCphc (s : State) (pg : Page) (h : Hit) (o m v : Nat) : State :=
  if 0x100 ≤ o ∧ o < 0x200 then (if ctlMaster m ∨ m = 0x40 then s.cphBind h.i m v else s.pageErr pg 1 m o)
  else if !(ctlMaster m) then s.pageErr pg 1 m o
  else if o = 0x040 then s.cphCfg m v
  else s.plain pg h o m v

/-- Bytes of host memory that a register write does not carry: open. -/
def State.freeBytes (s : State) (n : Nat) : List Byte × State :=
  let (v, s) := s.draw
  (bytesLE n v, s)

/-- CPH_JOB_CTL.ABORT: how far an engine is in its segment, and data it has read, are open (R419). -/
def State.abortWrite (s : State) (u : Nat) : State :=
  let (d, s) := s.draw
  let done := d % 257
  let (l, s) := s.freeBytes (16 * done)
  s.jobAbort u done l

/-- CPH_JOB_CTL: ABORT, alone when both bits are set, or GO (R415, R419). -/
def State.jobCtl (s : State) (u v : Nat) : State :=
  if v.testBit 1 then s.abortWrite u else if v.testBit 0 then s.jobGo u else s

/-- CPH_KEY_CTL: ZEROIZE, then LOAD (R410, R413). -/
def State.keyCtl (s : State) (u v : Nat) : State :=
  let s := if v.testBit 1 then s.cphZero u else s
  if v.testBit 0 then s.cphLoad u else s

/-- The job registers of a user half: they keep their values while a part runs (R415, R417). -/
def jobReg (o : Nat) : Bool := (0x0C8 ≤ o && o < 0x0F8) || (0x100 ≤ o && o < 0x110) || 0x400 ≤ o

/-- A user half, written by its bound master (R410 to R419, R425). -/
def State.wCphu (s : State) (pg : Page) (h : Hit) (o m v : Nat) : State :=
  let u := pg.idx
  if o = 0x040 ∧ (bitsOf v 4 2 = 3 ∨ 5 ≤ bitsOf v 1 3) then s.pageErr pg 3 m o
  else if o = 0x060 then s.keyCtl u v
  else if 0x080 ≤ o ∧ o < 0x0A8 then
    let p := s.cpage u
    s.setCpage u { p with data := p.data.set 0 ((o - 0x080) / 4) (BitVec.ofNat 32 v) }
  else if o = 0x0F8 then s.jobCtl u v
  else if jobReg o && (s.cpage u).job.isSome then s.pageErr pg 4 m o
  else s.plain pg h o m v

/-- MBX control page (R427 to R429, R438). -/
def State.wMbxc (s : State) (pg : Page) (h : Hit) (o m v : Nat) : State :=
  if o = 0x040 then s.plainSecure pg h o m v
  else if o = 0x044 then s.upIo fun io => io.mbxDeclare m v
  else if 0x100 ≤ o then s.upIo fun io => io.mbxBind h.i m v
  else s.plain pg h o m v

/-- A stack-queue class: MIN is ignored and counted when the reserve would pass 196,608 cells (R302). -/
def State.sqWrite (s : State) (c m v : Nat) : State :=
  let old := s.get pgCsc CSC_SQ_CFGc.MIN c
  let oth := s.get pgCsc CSC_SQ_CFGc.MIN (1 - c)
  let new := v % 2 ^ 16
  let keep : Bool := old < new && 196608 < s.get pgTmb TMB_RESERVED.SUM + 4 * (new + oth)
  let shared := fun (s : State) => ((List.range 4).map fun k => s.sharedOf (stackQ k c)).sum
  let u := shared s
  let s := s.put pgCsc CSC_SQ_CFGc.ALPHA (bitsOf v 24 4) c
  let s := if keep then s else s.put pgCsc CSC_SQ_CFGc.MIN new c
  let s := s.put pgTmb TMB_SHARED_STAT.USED (s.get pgTmb TMB_SHARED_STAT.USED + shared s - u)
  if keep then s.err pgCsc 3 m (0x080 + 8 * c) else s

/-- CSC (R447, R457, R461, R469, R470). -/
def State.wCsc (s : State) (pg : Page) (h : Hit) (o m v : Nat) : State :=
  if o = 0x040 then s.cscCfg m v
  else if o = 0x048 then s.cscCommitCfg v
  else if 0x070 ≤ o ∧ o < 0x080 then s.cscLinkCfg ((o - 0x070) / 4) v
  else if o = 0x080 ∨ o = 0x088 then s.sqWrite ((o - 0x080) / 8) m v
  else if o = 0x090 then s.handbackWrite m v
  else if o = 0x0A8 then s.rmtGo m v
  else s.plain pg h o m v

/-- RAS: from 0x01, 0x10 and 0x11; RAS_LOG_SEL from 0x40 too (R486 to R495). -/
def State.wRas (s : State) (pg : Page) (h : Hit) (o m v : Nat) : State :=
  if !(ctlMaster m ∨ (m = 0x40 ∧ o = 0x054)) then s.pageErr pg 1 m o
  else if o = 0x044 then s.thermCfg v
  else if o = 0x074 then s.fwCtl m v
  else if o = 0x078 then s.fwWdogWrite m v
  else if o = 0x07C then s.mcWdogWrite m v
  else s.plain pg h o m v

/-- A write of a listed register at 0x040 or above. -/
def State.wBody (s : State) (pg : Page) (h : Hit) (o m v : Nat) : State :=
  match pg.kind with
  | .sys => s.wSys pg h o m v
  | .epc => s.wEpc pg h o m v
  | .ftr => s.wFtr pg h o m v
  | .ring => s.wRing pg o m v
  | .mbxc => s.wMbxc pg h o m v
  | .cphc => s.wCphc pg h o m v
  | .cphu => s.wCphu pg h o m v
  | .qnc => s.wQnc pg h o m v
  | .pmcg => s.wPmc pg h o m v
  | .ras => s.wRas pg h o m v
  | .csc => s.wCsc pg h o m v
  | .clk | .hif | .rsv | .mbxch => s.plain pg h o m v
  | .eth0 | .eth1 | .eth2 | .eth3 => s.wEth pg h o m v
  | .fmc0 | .fmcpc | .fmc9 | .fmc10 | .fmc11 => s.wFmc pg h o m v
  | .tmb0 | .tmbp | .sch0 | .schp | .shp0 | .shpp | .tgt0 | .tgtp => s.wBuf pg h o m v
  | .prs | .cls | .l2t | .lpm | .flw | .act | .pip | .tel | .pmcl => s.wPipe pg h o m v

/-! ### The access itself -/

/-- A page bound to masters, reached by one that is not its own: counted in the control page alone (R408, R430). -/
def State.stranger (s : State) (pg : Page) (m : Nat) : Bool :=
  match pg.kind with
  | .cphu => s.cphStranger pg.idx m
  | .mbxch => s.io.mbxStranger pg.idx m
  | _ => false

/-- The violation of R408 or R430. -/
def State.violate (s : State) (pg : Page) (m o : Nat) (write : Bool) : State :=
  match pg.kind with
  | .cphu => s.cphViolate pg.idx m o write
  | .mbxch => s.upIo fun io => io.mbxViolate pg.idx m o write
  | _ => s

/-- A write that no stranger makes: refused while the page is not READY or in soft reset (R71, R504), else taken. -/
def State.wPage (s : State) (pg : Page) (o m v : Nat) : State :=
  if !(s.io.ready pg.kind) then s.pageErr pg 4 m o
  else if 0x040 ≤ o ∧ s.get pg.base PG_STAT.RST_BUSY = 1 then s.pageErr pg 4 m o
  else
    match pg.kind.regAt o with
    | none => s
    | some h =>
      if pg.kind = .mbxch ∧ !(s.io.mbxMay pg.idx m o) then s.pageErr pg 1 m o
      else if o < 0x040 then s.wHead pg o v
      else if pg.kind = .mbxch then s.upIo fun io => io.mbxWrite pg.idx m o v
      else s.wBody pg h o m v

/-- The pipeline whose page an address lies in (R362). -/
def pipeOfAddr (a : Nat) : Option Nat := if 0x1000000 ≤ a ∧ a < 0x1800000 then some ((a - 0x1000000) / 0x100000) else none

/-- An access of a pipeline's page is counted, without filter and with (R362, R363). -/
def State.fabCount (s : State) (m a : Nat) (write : Bool) : State :=
  match pipeOfAddr a with
  | none => s
  | some p =>
    s.upIo fun io =>
      if write then io.event p (pgPmcL p) PMC_EVT_FAB_WR.COUNT { code := 0x41, master := m, unit := a / 4096 }
      else io.event p (pgPmcL p) PMC_EVT_FAB_RD.COUNT { code := 0x40, master := m, unit := a / 4096 }

/-- FAB_ERR: the access `f` was counted in PG_ERR_CNT of a pipeline's page (R362). -/
def State.fabErr (s : State) (m a base : Nat) (f : State → State) : State :=
  let s' := f s
  match pipeOfAddr a with
  | none => s'
  | some p =>
    if s'.get base PG_ERR_CNT.COUNT = s.get base PG_ERR_CNT.COUNT then s'
    else s'.upIo fun io => io.filtered p { code := 0x42, master := m, unit := a / 4096 }

/-- An address in no page: counted (R68). -/
def State.unmapped (s : State) : State := s.bump pgSys HIF_UNMAPPED_CNT.COUNT

/-- A 32-bit register write of `v` at BAR0 offset `a` by master `m`. -/
def State.fabricWrite (s : State) (m a v : Nat) : State :=
  match pageOf a with
  | none => s.unmapped
  | some pg =>
    let o := a - pg.base
    if s.stranger pg m then s.violate pg m o true
    else if o = 0x020 then (s.fabCount m a true).wPage pg o m v
    else (s.fabCount m a true).fabErr m a pg.base fun s => s.wPage pg o m v

/-- An access of another size or not aligned to 4 B (R13). -/
def State.badSize (s : State) (m a : Nat) (write : Bool) : State :=
  match pageOf a with
  | none => s.unmapped
  | some pg =>
    if s.stranger pg m then s.violate pg m (a - pg.base) write
    else (s.fabCount m a write).fabErr m a pg.base fun s => s.pageErr pg 0 m (a - pg.base)

/-! ### Reads -/

/-- The members of a summary source, as SYS_IRQ_DETn shows them (R75). -/
def Io.detail (s : Io) (src n : Nat) : Nat :=
  let bits := if src < 32 then (sourcePages src).map s.pageIrq
    else (List.range 60).map fun r => s.pageIrq (pgRing r) && s.get (pgRing r) RING_CTL.VEC + 32 == src
  (List.range 32).foldl (fun a i => a + b2n (bits.getD (32 * n + i) false) * 2 ^ i) 0

/-- PG_CAPS: ROM_ID, contexts and kind of a PIP page; otherwise the block's own (R69, R263). -/
def capsWord (pg : Page) : Nat :=
  if pg.kind = .pip then 2 ^ 16 * romId pg.idx + 2 ^ 8 * ctxCount pg.idx + b2n (pg.idx == 8) else (Config.caps pg.code).toNat

/-- PG_STAT. -/
def State.statWord (s : State) (pg : Page) : Nat :=
  2 ^ 16 * (Config.blkStat pg.code).toNat + 2 * s.get pg.base PG_STAT.RST_BUSY + b2n (s.io.ready pg.kind)

/-- SYS registers that do not read as stored. -/
def State.rSys (s : State) (o m : Nat) (dflt : Nat) : Nat × State :=
  if o = 0x048 then (s.io.summaryWord % 2 ^ 32, s)
  else if o = 0x04C then (s.io.summaryWord / 2 ^ 32, s)
  else if 0x080 ≤ o ∧ o < 0x0A0 then (s.io.detail (s.get pgSys SYS_IRQ_DET_SEL.SOURCE) ((o - 0x080) / 4), s)
  else if 0x100 ≤ o ∧ o < 0x180 then
    let r := s.io.semRead ((o - 0x100) / 4) m
    (r.1, s.upIo fun _ => r.2)
  else if o = 0x0C8 then (s.bootStat, s)
  else if o = 0x0E0 then s.gpioIn
  else if o = 0x1C0 then (setBitsOf dflt 16 10 Config.fusedTargetMv.toNat, s)
  else (dflt, s)

/-- The time base and its slots (R60). -/
def State.rEpc (s : State) (o m : Nat) (dflt : Nat) : Nat × State :=
  if o = 0x048 then
    let r := s.io.timeNsRead m
    (r.1, s.upIo fun _ => r.2)
  else if o = 0x04C then (s.io.timeSlot.get 0 m % 2 ^ 32, s)
  else if o = 0x050 then (s.io.timeSlot.get 0 m / 2 ^ 32, s)
  else (dflt, s)

/-- Port group pages. -/
def State.rEth (s : State) (pg : Page) (o : Nat) (dflt : Nat) : Nat × State :=
  match pg.kind with
  | .eth0 =>
    if 0x060 ≤ o then
      let (v, s) := s.draw
      (v % 1024, s)
    else (dflt, s)
  | .eth3 =>
    if o = 0x060 then (s.txtsCnt pg.idx, s)
    else if 0x070 ≤ o ∧ o < 0x0B0 then (s.txtsHead pg.idx ((o - 0x070) / 16) ((o - 0x070) / 4 % 4), s)
    else if 0x0B0 ≤ o ∧ pg.idx ≠ 0 then (0, s)
    else (dflt, s)
  | _ => (dflt, s)

/-- Free classifier entries of a pipeline: valid in neither bank. -/
def State.clsFreeCount (s : State) (p : Nat) : Nat :=
  let ks := (s.fwd.clsValid.filterMap fun e => if e.2 ∧ e.1 / 2 / 16384 = p then some (e.1 / 2) else none).eraseDups
  16384 - ks.length

/-- Pages of a pipeline. -/
def State.rPipe (s : State) (pg : Page) (o : Nat) (dflt : Nat) : Nat :=
  match pg.kind with
  | .cls => if o = 0x040 then s.clsFreeCount pg.idx else dflt
  | .l2t => if o = 0x04C then (s.l2List pg.idx).length else dflt
  | .lpm => if o = 0x040 then ((s.lpmBank (pg.idx / 2)).filter (·.valid)).length else dflt
  | .flw => if o = 0x040 then s.usedRecords else if o = 0x044 then s.freeRecords else dflt
  | .act => if o = 0x048 then s.actStat pg.idx else dflt
  | .pip =>
    if o = 0x048 then s.pipImage pg.idx
    else if 0x100 ≤ o then
      let a := s.pipBank pg.idx
      (s.matchReg pg.idx (if s.get pg.base PG_SHADOW_CTL.RD_SEL = 0 then 1 - a else a) ((o - 0x100) / 4)).toNat &&& 0x80FFBFFF
    else dflt
  | _ => dflt

/-- Scheduling, shaping and gates, as they stand now. -/
def State.rBuf (s : State) (pg : Page) (o : Nat) (dflt : Nat) : Nat :=
  match pg.kind with
  | .tmb0 => if o = 0x048 then s.reserve else dflt
  | .schp => if o = 0x080 then s.schStat pg.idx else dflt
  | .shp0 =>
    if o = 0x040 then dflt else if o = 0x050 then (match s.polSel with | none => 0 | some k => (s.policer k).tokens / 1000)
    else if 0x044 ≤ o ∧ o < 0x050 then s.polRead ((o - 0x044) / 4) else dflt
  | .shpp =>
    if 0x100 ≤ o ∧ o < 0x140 then s.tokens (qBucket pg.idx ((o - 0x100) / 8) ((o - 0x100) / 4 % 2))
    else if o = 0x140 ∨ o = 0x144 then s.tokens (pBucket pg.idx ((o - 0x140) / 4))
    else if o = 0x148 then s.shpStat pg.idx else dflt
  | .tgtp =>
    if o = 0x0A0 then setBitsOf dflt 0 8 ((s.operList pg.idx).gates s.io.time.ns) else dflt
  | _ => dflt

/-- RAS, QNC and CSC: what the store and the engines show; reset values while the feature is not active (R447, R495). -/
def State.rRas (s : State) (o : Nat) (dflt : Nat) : Nat :=
  if o = 0x040 then s.rasStat
  else if o = 0x050 then s.logStat
  else if o = 0x058 then s.io.nvm.seq % 2 ^ 32
  else if o = 0x05C then s.io.nvm.seq / 2 ^ 32 % 2 ^ 32
  else if 0x080 ≤ o ∧ o < 0x0C0 then s.logData ((o - 0x080) / 4)
  else dflt

/-- QNC registers; without SEALED_METER the page reads its reset values, but for KEY_STAT, where R393 reports NO_FEATURE. -/
def State.rQnc (s : State) (o : Nat) (dflt : Nat) : Nat :=
  if !(s.feature 5) ∧ o ≠ 0x0B0 then (resetWord (pgQnc + o)).toNat
  else if o = 0x048 then s.qncStat
  else if o = 0x064 then s.sweepLag
  else dflt

def State.rCsc (s : State) (o : Nat) (dflt : Nat) : Nat :=
  if !(s.feature 6) ∧ o ≠ 0x044 then (resetWord (pgCsc + o)).toNat else dflt

/-- The registers at 0x040 and above that are no 64-bit counter. -/
def State.rBody (s : State) (pg : Page) (o m dflt : Nat) : Nat × State :=
  match pg.kind with
  | .sys => s.rSys o m dflt
  | .epc => s.rEpc o m dflt
  | .ring => (if o = 0x058 then (s.io.rd (pg.base + 0x010)).toNat % 16 else dflt, s)
  | .pmcg => (if o = 0x05C then s.io.ovfStat (s.ctrHeld s.io.ovfTarget) else dflt, s)
  | .ras => (s.rRas o dflt, s)
  | .qnc => (s.rQnc o dflt, s)
  | .csc => (s.rCsc o dflt, s)
  | .eth0 | .eth3 => s.rEth pg o dflt
  | .tmb0 | .schp | .shp0 | .shpp | .tgtp => (s.refillDue.rBuf pg o dflt, s.refillDue)
  | .cls | .l2t | .lpm | .flw | .act | .pip => (s.rPipe pg o dflt, s)
  | _ => (dflt, s)

/-- A read that no stranger makes (R7, R12, R71, R504). -/
def State.rPage (s : State) (pg : Page) (o m : Nat) : Nat × State :=
  if o = 0x00C then (s.statWord pg, s)
  else if !(s.io.ready pg.kind) ∧ o ≠ 0 then (0, s)
  else if 0x040 ≤ o ∧ s.get pg.base PG_STAT.RST_BUSY = 1 then (0, s)
  else
    match pg.kind.regAt o with
    | none => (0, s)
    | some h =>
      let hm := pg.home o
      if o = 0x004 then (capsWord pg, s)
      else if h.row.ctr then
        let r := if h.word = 0 then s.io.ctrLow m (s.ctrHome hm o) else s.io.ctrHigh m (s.ctrHome hm (o - 4))
        (r.1, s.upIo fun _ => r.2)
      else
        let w := (s.io.swRead hm h (hm.base + o)).toNat
        if o < 0x040 then (w, s) else s.rBody pg o m w

/-- A 32-bit register read at BAR0 offset `a` by master `m`. -/
def State.fabricRead (s : State) (m a : Nat) : Nat × State :=
  match pageOf a with
  | none => (0, s.unmapped)
  | some pg =>
    let o := a - pg.base
    if s.stranger pg m then (0, s.violate pg m o false) else (s.fabCount m a false).rPage pg o m

/-- A read whose completion goes to the master. -/
def State.readOut (s : State) (m a : Nat) : State :=
  let r := s.fabricRead m a
  r.2.emit (.read m r.1)

/-! ### Remote access and I2C (R469, R512) -/

/-- RMT_REQ at its target: a read of any page; a write of an MBX channel page only, else DENIED. -/
def State.rmtServe (s : State) (k : Nat) (f : List Byte) : State :=
  let p := sfBody f
  let m := 0x80 + sfSrc f
  let a := leAt p 2 4
  let tag := leAt p 0 1
  if leAt p 1 1 % 2 = 0 then
    let r := s.fabricRead m a
    r.2.rmtAnswer k (sfSrc f) tag 2 r.1
  else
    match pageOf a with
    | some ⟨.mbxch, _, _⟩ => (s.fabricWrite m a (leAt p 6 4)).rmtAnswer k (sfSrc f) tag 2 0
    | _ => (s.bump pgCsc CSC_RMT_DENIED_CNT.COUNT).rmtAnswer k (sfSrc f) tag 5 0

/-- RMT_REQ: for another device it is relayed, here it is served. -/
def State.rmtReqRx (s : State) (k : Nat) : State :=
  match s.takeRx k 0 ccRmtReq with
  | none => s
  | some (_, f, s) => if sfDst f ≠ s.myId then s.rmtRelay f else s.rmtServe k f

/-- The I2C target answers: from the end of step 1, and through a stop while VDD_IO holds. -/
def State.i2cOn (s : State) : Bool := 2 ≤ s.io.step && (s.on || s.io.sys.phase == .stopping)

/-- I2C_TRANSACTION: a read or a write of BAR0 as master 0x40. -/
def State.i2c (s : State) (a : Nat) (data : Option Nat) : State :=
  if !s.i2cOn then s
  else if a % 4 ≠ 0 then (let s := s.badSize 0x40 a data.isSome; if data.isSome then s else s.emit (.read 0x40 0))
  else
    match data with
    | some v => s.fabricWrite 0x40 a v
    | none => s.readOut 0x40 a

end Sys2Proof.Machine
end

