-- ==== Sys2Proof/Machine/Events.lean ====
section
/-!
DEFINITION. Events that the units' files give no operation of their own: what time brings about (it passes until the event is
due, R40), loopback at a port (R114), the timers of received pause (R105), stretch return and limit (R36, R39), and what DMA
of a reset ring does.
-/
namespace Sys2Proof.Machine

/-! ### What the time base brings about -/

/-- TOKEN_REFILL: a multiple of 64 ns is crossed and every bucket refilled (R312). -/
def State.tokenRefill (s : State) : State := (s.reach s.io.time.due.refill 64).refillDue

/-- SNAPSHOT_PERIODIC: a multiple of PERIOD_US, below 10 treated as 10 (R345). -/
def State.snapDue (s : State) (busy : Bool) : State :=
  let m := 1000 * max 10 (s.get pgE TEL_SNAP_CFG.PERIOD_US)
  ((s.reach s.io.time.due.snapshot m).upDue fun d => { d with snapshot := d.snapshot - 1 }).snapPeriodic busy

/-- MESSAGE_FLUSH: FLUSH_US, 0 as 1, has passed since the first record of the message in assembly (R334). -/
def State.flushDue (s : State) : State :=
  if s.tel.msg.isEmpty then s
  else (s.passTo (s.tel.msgAt + 1000 * max 1 (s.get pgE TEL_EXPORT_MSG.FLUSH_US))).ipfixFlush

/-- TEMPLATE_REFRESH: REFRESH_S seconds have passed since IPFIX_EXPORT became active or the last periodic Template Set (R337). -/
def State.templateRefresh (s : State) : State :=
  if !(s.feature 9) ∨ s.get pgE TEL_EXPORT_TMPL.REFRESH_S = 0 then s
  else
    let due := s.tel.tmplAt + 1000000000 * s.get pgE TEL_EXPORT_TMPL.REFRESH_S
    let s := s.passTo due
    { s with tel := { s.tel with tmplAt := due } }.templateSend

/-- ALIVE_PERSIST: a multiple of 2^20 ns (R397). -/
def State.aliveDue (s : State) : State := (s.reach s.io.time.due.alive (2 ^ 20)).alivePersist

/-- PPS_OUT_END: the width of a pulse has passed (R112). -/
def State.ppsEndDue (s : State) : State := if s.io.sys.ppsHigh then (s.passTo s.io.sys.ppsEnd).ppsFall else s

/-- LINK_DOWN: the link goes down, or the receiver of a port whose link is down sees other faults (R98, R104). -/
def State.linkLoss (s : State) (n : Nat) (receiving localFault remoteFault : Bool) (pcs : Nat) : State :=
  (s.portDown n receiving).portFaults n localFault remoteFault pcs

/-- PPS_OUT_PULSE: the nanoseconds return to 0 (R112). -/
def State.ppsDue (s : State) : State := (s.reach s.io.time.due.pps 1000000000).ppsRise

/-! ### Ports -/

/-- FRAME_RECEIVE on a port with its link up: under near-end loopback the receiver hears its own transmitter only; under
far-end loopback what is received is also transmitted (R101, R114). -/
def State.frameIn (s : State) (n : Nat) (d : List Byte) (bad : Bool) : State :=
  let mode : Nat := s.get (pgEth (n / 4) 0) ETH_LOOPBACK.MODE
  if !(s.portExists n && s.linkUp n) ∨ mode = 1 then s
  else (if mode = 2 then s.emit (.frame n d bad) else s).frameRx n d bad

/-- TX_FRAME_DONE: near-end loopback receives what was transmitted (R294, R114). -/
def State.frameOut (s : State) (n : Nat) (cells : List (Nat × Bool)) : State :=
  match (s.buf.sched.get {} n).tx with
  | none => s
  | some (c, _) =>
    let s := s.readCells c.pkt cells
    let f := s.txFrame n c
    let bad := (s.stored c.pkt).bad
    let t := s.txDone n
    if t.get (pgEth (n / 4) 0) ETH_LOOPBACK.MODE = 1 then t.frameRx n f bad.isSome else t

/-- PAUSE_RECEIVE: a valid PAUSE or PFC frame; with the receiver off it is discarded and counted (R101, R105). -/
def State.pauseIn (s : State) (n : Nat) (pfc : Bool) (classes : Nat) (quanta : Nat → Nat) : State :=
  if !(s.portExists n && s.linkUp n) then s
  else if s.get (pgEth (n / 4) 1) ETH_MAC_CFG.RX_EN (n % 4) = 0 then s.ctr (pgPmcL (n / 16)) PMC_RX_DISABLED.COUNT 1 (n % 16)
  else (s.ctr (pgPmcL (n / 16)) PMC_RX_MACCTL.COUNT 1 (n % 16)).pauseFrame n pfc classes quanta

/-- PAUSE_TIMER_EXPIRE: the timer of a paused queue runs out (R105). -/
def State.pauseExpire (s : State) (n q : Nat) : State :=
  let old := s.get (pgEth (n / 4) 1) ETH_FC_STAT.RX_PAUSED (n % 4)
  if !(old.testBit q) then s
  else
    let sc := s.buf.sched.get {} n
    let s := s.passTo (sc.pauseEnd.get 0 q)
    let s := s.put (pgEth (n / 4) 1) ETH_FC_STAT.RX_PAUSED (old - 2 ^ q) (n % 4)
    { s with buf := { s.buf with sched := s.buf.sched.set {} n { sc with pauseEnd := sc.pauseEnd.set 0 q 0 } } }

/-- LT_FAIL: link training has timed out on a lane of the group, its interface training and LT_EN being 1 (R98, R114). -/
def State.ltFail (s : State) (g : Nat) : State :=
  if (s.buf.group.get {} g).trains ∧ s.get (pgEth g 0) ETH_AN_CFG.LT_EN = 1 then s.raise (pgEth g 0) 1 else s

/-! ### Stretching -/

/-- DIVISOR_RETURN: the 64-cycle hold ends, the sensors are read, and with every one 8 mV above the level that set the divisor the
region returns one step (R36).  Region 10 only ends its report (R34). -/
def State.divisorReturn (s : State) (r : Nat) (sag : Nat → Nat) : State :=
  let d := s.io.div r
  if r = 10 then s.upIo fun io => (io.seeSags 10 sag).calmReport sag
  else if d = 8 then s.upIo fun io => io.seeSags r sag
  else
    let s := (s.tickN (ceilDiv ((64 - s.io.clk.hold.get 0 r) * d) 8)).upIo fun io => io.seeSags r sag
    if s.io.recovered r sag then s.upIo fun io => (io.setDiv r (d - 1)).settle r (d - 1) else s

/-- STRETCH_LIMIT: the region has been stretched longer than LIMIT_US since its episode started (R39); the urgent event reaches
the running routines of the global Pip (R251). -/
def State.stretchLimit (s : State) (r : Nat) : State :=
  if s.io.div r = 8 then s
  else
    let s := s.passTo (s.io.clk.since.get 0 r + 1000 * max 1 (s.get pgClk CLK_STRETCH_LIMIT.LIMIT_US) + 1)
    let t := (s.raise pgClk 3).post 0x15 []
    if s.pip.evq.length < t.pip.evq.length then t.urgentAll else t

/-! ### Reference -/

/-- REFERENCE_RETURN: edges are seen again and every loop starts to relock (R33). -/
def State.refReturn (s : State) : State := s.put pgClk CLK_STAT.REF_PRESENT 1

/-- LOOP_RELOCK: the last loop has relocked to the reference that is present (R33). -/
def State.loopRelock (s : State) : State :=
  if s.get pgClk CLK_STAT.REF_PRESENT = 1 then s.upIo fun io => io.relock else s

/-- HOLDOVER_END: 1 ms after the last loop relocked (R33). -/
def State.holdoverEnd (s : State) : State :=
  if s.get pgClk CLK_STAT.LOCK = 1 then s.put pgClk CLK_STAT.HOLDOVER 0 else s

/-- LOCK_LOST: a root synthesizer that was locked is out of lock with the reference present; while one has yet to relock after a
loss of the reference, LOCK is 0 already and nothing is raised (R33, R58). -/
def State.lockLost (s : State) : State :=
  if s.get pgClk CLK_STAT.REF_PRESENT = 1 ∧ s.get pgClk CLK_STAT.LOCK = 1 then s.upIo fun io => io.lockLost else s

/-! ### Host -/

/-- RING_DMA_FAIL: DMA_ERR is set and the ring stops (R81). -/
def State.ringDmaFail (s : State) (n : Nat) : State :=
  if s.get (pgRing n) RING_CTL.EN = 1 then s.upIo fun io => io.ringFlag n 2 else s

/-- MSIX_RESUME: software masks or unmasks a vector, or the function may send again; pending messages are settled (R73). -/
def State.msixResume (s : State) (vec : Nat) (masked : Bool) : State :=
  let s := s.upPcie fun p =>
    { p with vecMask := if masked then p.vecMask ||| BitVec.ofNat 64 (2 ^ vec) else p.vecMask &&& ~~~ (BitVec.ofNat 64 (2 ^ vec)) }
  s.upIo fun io => io.flushPend

/-- SOFT_RESET_DONE: within 1 µs the block's named state is cleared (R71). -/
def State.softEnd (s : State) (a : Nat) : State :=
  match pageOf a with
  | none => s
  | some pg => if s.get pg.base PG_STAT.RST_BUSY = 1 then s.softDone pg else s

/-- A write of one register of the page that `a` lies in, the BAR0 offset being the page's own. -/
def State.pageWrite (s : State) (m a o v : Nat) : State :=
  match pageOf a with
  | none => s.unmapped
  | some pg => s.fabricWrite m (pg.base + o) v

/-- A stored field of the page that `a` lies in, 0 where there is none. -/
def State.pageGet (s : State) (a : Nat) (f : Fld) : Nat :=
  match pageOf a with
  | none => 0
  | some pg => s.get pg.base f

/-- A register write of 32 or, with `wide`, 64 bits, aligned to 4 B (R7, R13). -/
def State.regWrite (s : State) (m a : Nat) (v : Nat) (wide : Bool) : State :=
  if a % 4 ≠ 0 then s.badSize m a true
  else
    let s := s.fabricWrite m a (v % 2 ^ 32)
    if wide then s.fabricWrite m (a + 4) (v / 2 ^ 32) else s

/-- An access of another size or alignment (R13); a read completes with 0. -/
def State.badAccess (s : State) (m a size : Nat) (write : Bool) : State :=
  if (size = 4 ∨ size = 8) ∧ a % 4 = 0 then s
  else
    let s := s.badSize m a write
    if write then s else s.emit (.read m 0)

/-- An access to an address in no page (R68). -/
def State.holeAccess (s : State) (m a : Nat) (write : Bool) : State :=
  match pageOf a with
  | some _ => s
  | none => if write then s.unmapped else s.unmapped.emit (.read m 0)

/-! ### Array scan (R155) -/

/-- Soft errors strike array words: an entry and the bits that change in each (R154, R155). -/
def State.strike (s : State) (k : ArrayKind) (p : Nat) (l : List (Nat × BitVec 512)) : State :=
  l.foldl (fun s e => s.setUpset k p e.1 (s.upsetAt k p e.1 ^^^ e.2.toNat)) s

/-- ARRAY_SCAN_VISIT: with its parity bad an entry is refreshed from its shadow, or lost with an uncorrectable one; `strikes` are the
soft errors in the array up to its next visit (R155). -/
def State.scanVisit (s : State) (k : ArrayKind) (p i : Nat) (shadowBad : Bool) (strikes : List (Nat × BitVec 512)) : State :=
  (if !(parityBad (s.upsetAt k p i)) then s else if shadowBad then s.scanLost k p i else s.scanFix k p i).strike k p strikes

/-! ### Gates, snapshots, refused pages -/

/-- GATE_CHANGE: time reaches the end of the present entry of the list of port `n`, and its gate states are those of the next
(R326); a port without a list in force has none. -/
def State.gateStep (s : State) (n : Nat) : State :=
  let l := s.operList n
  if !l.en then s
  else
    match dropTime l.cut (l.pos s.io.time.ns) with
    | [] => s
    | (_, left) :: _ => s.passNs left

/-- LIST_START: the time base reaches the start of the list that waits (R331). -/
def State.listStart (s : State) (n : Nat) : State :=
  match s.awaitList n with
  | none => s
  | some l => (s.passNs (l.base - s.io.time.ns)).listBegin n

/-- The page at `a` takes a write of master `m` at an offset of 0x040 or above (R71, R408, R504). -/
def State.takesWrite (s : State) (m a : Nat) : Bool :=
  match pageOf a with
  | none => false
  | some pg => !(s.stranger pg m) && s.io.ready pg.kind && s.get pg.base PG_STAT.RST_BUSY == 0

/-- SNAP_NOW (R345), `busy` when the previous snapshot is still being written. -/
def State.snapBy (s : State) (m : Nat) (busy : Bool) : State :=
  let a := pgTel 0 + TEL_SNAP_CTL.NOW.off
  if s.takesWrite m a then (s.fabCount m a true).snapAsked busy else s.fabricWrite m a 1

/-- GROUP_APPLY (R99): `receiving` marks the slots with a frame in reception (R101). -/
def State.groupApplyBy (s : State) (m g receiving : Nat) : State :=
  let a := pgEth g 0 + ETH_GRP_CTL.APPLY.off
  if s.takesWrite m a then (s.fabCount m a true).groupApply g m receiving else s.fabricWrite m a 1

/-- CPH_JOB_ABORT (R419): `done` blocks of the segment in an engine had been processed, with their input. -/
def State.jobAbortBy (s : State) (m u done : Nat) (input : List Byte) : State :=
  let a := pgCphU u + CPH_JOB_CTL.ABORT.off
  if s.takesWrite m a then s.jobAbort u done input else s.fabricWrite m a 2

/-- An access that the binding of a page refuses (R408, R430); another access is not this command. -/
def State.strangerAccess (s : State) (m a : Nat) (write : Bool) : State :=
  match pageOf a with
  | none => s
  | some pg => if s.stranger pg m then (if write then s.fabricWrite m a 0 else s.readOut m a) else s

end Sys2Proof.Machine
end

