-- ==== Sys2Proof/Machine/BoardCommands.lean ====
section
/-!
DEFINITION. The meanings of the commands of sideband signals and the PCIe link: one definition per row of the opcode table, over the
operations of the unit.
-/
namespace Sys2Proof.Machine

/-- INLINE_WRITE (R510): a write of SYS_BYPASS.INLINE. -/
def execInlineWrite (m : Master) (on : Bool) (s : State) : Host.Outcome State Fault Refusal :=
  s.live fun s => s.fabricWrite m.id (pgSys + SYS_BYPASS.INLINE.off) (b2n on)

/-- AVS_WRITE (R523): a write of SYS_AVS. -/
def execAvsWrite (m : Master) (value : W32) (s : State) : Host.Outcome State Fault Refusal :=
  s.live fun s => s.fabricWrite m.id (pgSys + SYS_AVS.APPLIED_MV.off) value.toNat

/-- I2C_TRANSACTION (R512): a read, or a write with its data, of a BAR0 offset. -/
def execI2cTransaction (addr : W32) (data : Option W32) (s : State) : Host.Outcome State Fault Refusal :=
  s.always fun s => s.i2c addr.toNat (data.map BitVec.toNat)

/-- PCIE_LINK_DOWN (R24): the link is lost. -/
def execPcieLinkDown (s : State) : Host.Outcome State Fault Refusal :=
  s.live fun s => s.linkDownPcie

/-- PCIE_LINK_UP (R73): the link has trained. -/
def execPcieLinkUp (speed width : Fin 5) (s : State) : Host.Outcome State Fault Refusal :=
  s.live fun s => s.linkUpPcie (speed.val + 1) width.val

/-- PERST_N_DEASSERT (R500): PERST_N rises. -/
def execPerstNDeassert (s : State) : Host.Outcome State Fault Refusal :=
  s.always fun s => s.perstDeassert

/-- CONFIG_WRITE (R64): Bus Master Enable, MSI-X Enable and Function Mask as written. -/
def execConfigWrite (w : CfgWrite) (s : State) : Host.Outcome State Fault Refusal :=
  s.live fun s => s.configWrite w

/-- LED_TIMER_EXPIRE (R513): the half period of a blinking LED, or the off interval of one in mode 3. -/
def execLedTimerExpire (led : Fin 4) (s : State) : Host.Outcome State Fault Refusal :=
  s.live fun s => s.ledTimer led.val

end Sys2Proof.Machine
end

