-- ==== Sys2Proof/Machine/CascadeCommands.lean ====
section
/-!
DEFINITION. The meanings of the commands of cascade operation: one definition per row of the opcode table, over the
operations of the unit.
-/
namespace Sys2Proof.Machine

/-- STACK_LINK_UP (R447): the link trains with that device and link number. -/
def execStackLinkUp (link : Fin 4) (peer : Fin 4) (peerLink : Fin 4) (s : State) : Host.Outcome State Fault Refusal :=
  s.live fun s => s.stackUp link.val peer.val peerLink.val

/-- STACK_LINK_DOWN (R447): the link goes down. -/
def execStackLinkDown (link : Fin 4) (s : State) : Host.Outcome State Fault Refusal :=
  s.live fun s => s.stackDown link.val

/-- STACK_FRAME_RX (R449): a frame is received whole. -/
def execStackFrameRx (link : Fin 4) (frame : List Byte) (s : State) : Host.Outcome State Fault Refusal :=
  s.live fun s => s.stackRx link.val frame

/-- STEER_RX (R465): the oldest received frame of the link, a STEER frame, is acted on. -/
def execSteerRx (link : Fin 4) (s : State) : Host.Outcome State Fault Refusal :=
  s.live fun s => s.steerRx link.val

/-- DATA_RX (R463): the oldest received frame of the link, a DATA frame, is acted on. -/
def execDataRx (link : Fin 4) (s : State) : Host.Outcome State Fault Refusal :=
  s.live fun s => s.dataRx link.val

/-- HELLO (R446): the oldest received frame of the link, a HELLO frame, is acted on. -/
def execHelloRx (link : Fin 4) (s : State) : Host.Outcome State Fault Refusal :=
  s.live fun s => s.helloRx link.val

/-- HELLO_SEND (R451): every 1 ms. -/
def execHelloSend (s : State) : Host.Outcome State Fault Refusal :=
  s.live fun s => s.helloSend

/-- TIME (R453): the oldest received frame of the link, a TIME frame, is acted on. -/
def execTimeRx (link : Fin 4) (s : State) : Host.Outcome State Fault Refusal :=
  s.live fun s => s.timeRx link.val

/-- TIME_SEND (R452): a multiple of 2^14 ns. -/
def execTimeSend (s : State) : Host.Outcome State Fault Refusal :=
  s.live fun s => s.timeSend

/-- DELAY_REQ (R452): the oldest received frame of the link, a DELAY_REQ frame, is acted on. -/
def execDelayReqRx (link : Fin 4) (s : State) : Host.Outcome State Fault Refusal :=
  s.live fun s => s.delayReqRx link.val

/-- DELAY_REQ_SEND (R452): every 1 ms. -/
def execDelayReqSend (s : State) : Host.Outcome State Fault Refusal :=
  s.live fun s => s.delayReqSend

/-- DELAY_RESP (R452): the oldest received frame of the link, a DELAY_RESP frame, is acted on. -/
def execDelayRespRx (link : Fin 4) (s : State) : Host.Outcome State Fault Refusal :=
  s.live fun s => s.delayRespRx link.val

/-- PREPARE_SEND (R458): B − PREP_US is reached. -/
def execPrepareSend (s : State) : Host.Outcome State Fault Refusal :=
  s.live fun s => s.prepareSend

/-- PREPARE (R458): the oldest received frame of the link, a PREPARE frame, is acted on. -/
def execPrepareRx (link : Fin 4) (s : State) : Host.Outcome State Fault Refusal :=
  s.live fun s => s.prepareRx link.val

/-- PREPARED (R458): the oldest received frame of the link, a PREPARED frame, is acted on. -/
def execPreparedRx (link : Fin 4) (s : State) : Host.Outcome State Fault Refusal :=
  s.live fun s => s.preparedRx link.val

/-- REFUSED (R458): the oldest received frame of the link, a REFUSED frame, is acted on. -/
def execRefusedRx (link : Fin 4) (s : State) : Host.Outcome State Fault Refusal :=
  s.live fun s => s.refusedRx link.val

/-- DECIDE_SEND (R458): B − MARGIN_US is reached. -/
def execDecideSend (s : State) : Host.Outcome State Fault Refusal :=
  s.live fun s => s.decideSend

/-- DECIDE (R458): the oldest received frame of the link, a DECIDE frame, is acted on. -/
def execDecideRx (link : Fin 4) (s : State) : Host.Outcome State Fault Refusal :=
  s.live fun s => s.decideRx link.val

/-- TIME_LOST (R456): no TIME for four intervals of 2^14 ns. -/
def execTimeLost (s : State) : Host.Outcome State Fault Refusal :=
  s.live fun s => s.timeLost

/-- PEER_LIVE_EXPIRE (R458): no HELLO of a device for 4 ms. -/
def execPeerLiveExpire (device : Fin 4) (s : State) : Host.Outcome State Fault Refusal :=
  s.live fun s => s.liveExpire device.val

/-- HANDBACK (R461): a write of CSC_MASTER_CTL.HANDBACK. -/
def execHandback (m : Master) (s : State) : Host.Outcome State Fault Refusal :=
  s.live fun s => s.fabricWrite m.id (pgCsc + CSC_MASTER_CTL.HANDBACK.off) 1

/-- CASC_EPOCH_EDGE (R455): the falling edge, and its distance in ns from the own boundary. -/
def execCascEpochEdge (skewNs : Int) (s : State) : Host.Outcome State Fault Refusal :=
  s.live fun s => s.epochEdge skewNs

/-- CASC_EPOCH_RELEASE (R455): 100 ns after the boundary of the master. -/
def execCascEpochRelease (s : State) : Host.Outcome State Fault Refusal :=
  s.live fun s => s.epochRelease

/-- RMT_GO (R469): a write of CSC_RMT_CTL.GO. -/
def execRmtGo (m : Master) (write : Bool) (s : State) : Host.Outcome State Fault Refusal :=
  s.live fun s => s.fabricWrite m.id (pgCsc + CSC_RMT_CTL.GO.off) (1 + 2 * b2n write)

/-- RMT_REQ (R469): the oldest received frame of the link, an RMT_REQ frame, is acted on. -/
def execRmtReqRx (link : Fin 4) (s : State) : Host.Outcome State Fault Refusal :=
  s.live fun s => s.rmtReqRx link.val

/-- RMT_RSP (R469): the oldest received frame of the link, an RMT_RSP frame, is acted on. -/
def execRmtRspRx (link : Fin 4) (s : State) : Host.Outcome State Fault Refusal :=
  s.live fun s => s.rmtRspRx link.val

/-- RMT_TIMEOUT (R469): no response for 2 µs. -/
def execRmtTimeout (s : State) : Host.Outcome State Fault Refusal :=
  s.live fun s => s.rmtTimeout

/-- STACK_FRAME_TX (R450): the link takes its next frame. -/
def execStackFrameTx (link : Fin 4) (cells : List (Nat × Bool)) (s : State) : Host.Outcome State Fault Refusal :=
  s.live fun s => s.stackTx link.val cells

end Sys2Proof.Machine
end

