-- ==== Sys2Proof/Machine/CipherCommands.lean ====
section
/-!
DEFINITION. The meanings of the commands of the cipher engine: one definition per row of the opcode table, over the
operations of the unit.
-/
namespace Sys2Proof.Machine

/-- CPH_BIND (R406): a write of CPH_BINDn. -/
def execCphBind (m : Master) (page : Fin 64) (value : W32) (s : State) : Host.Outcome State Fault Refusal :=
  s.live fun s => s.fabricWrite m.id (pgCph + CPH_BINDn.MASTER.off + 4 * page.val) value.toNat

/-- CPH_VIOLATION (R408): an access to a user half by a master that it is not bound to. -/
def execCphViolation (m : Master) (page : Fin 64) (offset : BitVec 11) (write : Bool) (s : State) : Host.Outcome State Fault Refusal :=
  s.live fun s => s.strangerAccess m.id (pgCphU page.val + offset.toNat) write

/-- CPH_KEY_LOAD (R410): a write of CPH_KEY_CTL.LOAD. -/
def execCphKeyLoad (m : Master) (page : Fin 64) (s : State) : Host.Outcome State Fault Refusal :=
  s.live fun s => s.fabricWrite m.id (pgCphU page.val + CPH_KEY_CTL.LOAD.off) 1

/-- CPH_KEY_LOAD_DONE (R413): the load of a key ends. -/
def execCphKeyLoadDone (page : Fin 64) (s : State) : Host.Outcome State Fault Refusal :=
  s.live fun s => s.cphLoaded page.val

/-- ZEROIZE (R413): a write of CPH_KEY_CTL.ZEROIZE. -/
def execZeroize (m : Master) (page : Fin 64) (s : State) : Host.Outcome State Fault Refusal :=
  s.live fun s => s.fabricWrite m.id (pgCphU page.val + CPH_KEY_CTL.ZEROIZE.off) 2

/-- CPH_JOB_GO (R415): a write of CPH_JOB_CTL.GO. -/
def execCphJobGo (m : Master) (page : Fin 64) (s : State) : Host.Outcome State Fault Refusal :=
  s.live fun s => s.fabricWrite m.id (pgCphU page.val + CPH_JOB_CTL.GO.off) 1

/-- CPH_JOB_ABORT (R419): a write of CPH_JOB_CTL.ABORT; the blocks of the segment already done, and the input they read from host memory. -/
def execCphJobAbort (m : Master) (page : Fin 64) (done : Nat) (input : List Byte) (s : State) : Host.Outcome State Fault Refusal :=
  s.live fun s => s.jobAbortBy m.id page.val done input

/-- ENGINE_GRANT (R404): a free engine takes a segment. -/
def execEngineGrant (engine : Fin 16) (s : State) : Host.Outcome State Fault Refusal :=
  s.live fun s => s.engineGrant engine.val

/-- SEGMENT_DONE (R404): an engine finishes; what host memory holds of the segment, and whether DMA worked. -/
def execSegmentDone (engine : Fin 16) (input : List Byte) (dmaOk : Bool) (s : State) : Host.Outcome State Fault Refusal :=
  s.live fun s => s.segmentDone engine.val input dmaOk

/-- RNG_FAIL (R423): a health test fails. -/
def execRngFail (s : State) : Host.Outcome State Fault Refusal :=
  s.live fun s => s.rngFail

/-- RNG_RECOVER (R423): the tests have passed for 1 ms. -/
def execRngRecover (s : State) : Host.Outcome State Fault Refusal :=
  s.live fun s => s.rngRecover

end Sys2Proof.Machine
end

