-- ==== Sys2Proof/Machine/FlowCommands.lean ====
section
/-!
DEFINITION. The meanings of the commands of claims, relocation, removal and aging: one definition per row of the opcode table, over the
operations of the unit.
-/
namespace Sys2Proof.Machine

/-- CLAIM_START (R177): the insert unit takes the next claim. -/
def execClaimStart (s : State) : Host.Outcome State Fault Refusal :=
  s.live fun s => s.claimStart.afterClaims

/-- CLAIM_READ_RETURN (R177): the bucket reads of a claim return. -/
def execClaimReadReturn (s : State) : Host.Outcome State Fault Refusal :=
  s.live fun s => s.claimRead.afterClaims

/-- CLAIM_HALVES_ACCEPTED (R177): the mirrors have accepted the halves of a record. -/
def execClaimHalvesAccepted (s : State) : Host.Outcome State Fault Refusal :=
  s.live fun s => s.claimHalves.afterClaims

/-- CLAIM_HEADER_ACCEPTED (R177): the header write is accepted. -/
def execClaimHeaderAccepted (s : State) : Host.Outcome State Fault Refusal :=
  s.live fun s => s.claimHeader.afterClaims

/-- RELOC_NEW_ACCEPTED (R180): the new-bucket write of a relocation is accepted. -/
def execRelocNewAccepted (s : State) : Host.Outcome State Fault Refusal :=
  s.live fun s => s.relocAccepted.afterClaims

/-- FENCE_CLOSE (R180): 486 core cycles after a clear was accepted. -/
def execFenceClose (s : State) : Host.Outcome State Fault Refusal :=
  s.live fun s => s.fenceClose

/-- STASH_DRAIN (R181): the drain tries a stash entry. -/
def execStashDrain (entry : Fin 1024) (s : State) : Host.Outcome State Fault Refusal :=
  s.live fun s => s.stashDrain entry.val

/-- STASH_PLACE_ACCEPTED (R181): both mirrors have accepted a drained header. -/
def execStashPlaceAccepted (s : State) : Host.Outcome State Fault Refusal :=
  s.live fun s => s.stashPlaced.afterClaims

/-- REMOVAL_START (R187): the next removal starts. -/
def execRemovalStart (s : State) : Host.Outcome State Fault Refusal :=
  s.live fun s => s.removalStart.afterClaims

/-- REMOVAL_WAIT_END (R187): 4 µs after the clear was accepted. -/
def execRemovalWaitEnd (s : State) : Host.Outcome State Fault Refusal :=
  s.live fun s => s.removalWait

/-- REMOVAL_FINAL_READ (R187): the final hot half arrives; how its reads end. -/
def execRemovalFinalRead (ends : List ReadEnd) (s : State) : Host.Outcome State Fault Refusal :=
  s.live fun s => (s.removalFinal ends).afterClaims

/-- AGING_WALK_VISIT (R185): the walker reads the next hot half; how the read ends. -/
def execAgingWalkVisit (ends : List ReadEnd) (s : State) : Host.Outcome State Fault Refusal :=
  s.live fun s => s.agingVisit ends

end Sys2Proof.Machine
end

