-- ==== Sys2Proof/Machine/HostCommands.lean ====
section
/-!
DEFINITION. The meanings of the commands of the register fabric and the host interface: one definition per row of the opcode table, over the
operations of the unit.
-/
namespace Sys2Proof.Machine

/-- REGISTER_WRITE (R7): a write of 32 bits, or with `wide` of 64, at a BAR0 offset. -/
def execRegisterWrite (m : Master) (addr : BitVec 26) (data : BitVec 64) (wide : Bool) (s : State) : Host.Outcome State Fault Refusal :=
  s.live fun s => s.regWrite m.id addr.toNat data.toNat wide

/-- BAD_SIZE_ACCESS (R13): an access of `size` bytes that is not 4 or 8, or not aligned to 4. -/
def execBadSizeAccess (m : Master) (addr : BitVec 26) (size : Nat) (write : Bool) (s : State) : Host.Outcome State Fault Refusal :=
  s.live fun s => s.badAccess m.id addr.toNat size write

/-- UNMAPPED_ACCESS (R68): an access to an offset in no page. -/
def execUnmappedAccess (m : Master) (addr : BitVec 26) (write : Bool) (s : State) : Host.Outcome State Fault Refusal :=
  s.live fun s => s.holeAccess m.id addr.toNat write

/-- SOFT_RST (R71): PG_CTL.SOFT_RST of the page at that offset, EN kept. -/
def execSoftRst (m : Master) (page : BitVec 26) (s : State) : Host.Outcome State Fault Refusal :=
  s.live fun s => s.pageWrite m.id page.toNat PG_CTL.SOFT_RST.off (2 + s.pageGet page.toNat PG_CTL.EN)

/-- SOFT_RESET_DONE (R71): the end of the soft reset of a page. -/
def execSoftResetDone (page : BitVec 26) (s : State) : Host.Outcome State Fault Refusal :=
  s.live fun s => s.softEnd page.toNat

/-- IRQ_FORCE (R69): a write of PG_IRQ_FORCE. -/
def execIrqForce (m : Master) (page : BitVec 26) (bits : W32) (s : State) : Host.Outcome State Fault Refusal :=
  s.live fun s => s.pageWrite m.id page.toNat PG_IRQ_FORCE.FORCE.off bits.toNat

/-- IRQ_REARM (R73): a write of both words of SYS_IRQ_REARM. -/
def execIrqRearm (m : Master) (mask : BitVec 64) (s : State) : Host.Outcome State Fault Refusal :=
  s.live fun s => s.regWrite m.id (pgSys + SYS_IRQ_REARM.REARM.off) mask.toNat true

/-- MSIX_RESUME (R73): software sets or clears the mask bit of a vector, or the function may send again. -/
def execMsixResume (vec : Fin 64) (masked : Bool) (s : State) : Host.Outcome State Fault Refusal :=
  s.live fun s => s.msixResume vec.val masked

/-- SEM_READ (R77): a read of SYS_SEMn. -/
def execSemRead (m : Master) (n : Fin 32) (s : State) : Host.Outcome State Fault Refusal :=
  s.live fun s => s.readOut m.id (pgSys + SYS_SEMn.HOLDER.off + 4 * n.val)

/-- SEM_RELEASE (R79): a write of SYS_SEMn. -/
def execSemRelease (m : Master) (n : Fin 32) (value : W32) (s : State) : Host.Outcome State Fault Refusal :=
  s.live fun s => s.fabricWrite m.id (pgSys + SYS_SEMn.HOLDER.off + 4 * n.val) value.toNat

/-- SEM_FORCE (R79): a write of SYS_SEM_FORCE. -/
def execSemForce (m : Master) (mask : W32) (s : State) : Host.Outcome State Fault Refusal :=
  s.live fun s => s.fabricWrite m.id (pgSys + SYS_SEM_FORCE.RELEASE.off) mask.toNat

/-- RING_CONFIG_WRITE (R82): a write of the low or high word of RING_BASE (0, 1) or of RING_SIZE (2). -/
def execRingConfigWrite (m : Master) (ring : Fin 60) (word : Fin 3) (value : W32) (s : State) : Host.Outcome State Fault Refusal :=
  s.live fun s => s.fabricWrite m.id (pgRing ring.val + 0x040 + 4 * word.val) value.toNat

/-- RING_MOD_TIMER (R81): MOD_US has passed since a completion of the ring. -/
def execRingModTimer (ring : Fin 60) (s : State) : Host.Outcome State Fault Refusal :=
  s.live fun s => s.upIo fun io => io.ringTimer ring.val

/-- RING_DMA_FAIL (R81): DMA to or from the ring fails. -/
def execRingDmaFail (ring : Fin 60) (s : State) : Host.Outcome State Fault Refusal :=
  s.live fun s => s.ringDmaFail ring.val

/-- HOST_TX_ENTRY (R84): the entry that host memory holds at the consumer index. -/
def execHostTxEntry (ring : Fin 16) (entry : BitVec 128) (s : State) : Host.Outcome State Fault Refusal :=
  s.live fun s => s.txEntry ring.val entry

/-- HOST_TX_FRAME_FETCHED (R83): the bytes that host memory holds at the accepted entry. -/
def execHostTxFrameFetched (ring : Fin 16) (frame : List Byte) (s : State) : Host.Outcome State Fault Refusal :=
  s.live fun s => s.txFetched ring.val frame

/-- HOST_RX_DELIVER (R83): per host ring, the address and length of the posted buffers. -/
def execHostRxDeliver (posted : List (List (Nat × Nat))) (cells : List (Nat × Bool)) (s : State) : Host.Outcome State Fault Refusal :=
  s.live fun s => s.hostRx posted cells

/-- FEAT_COMMIT (R93): a write of FEAT_COMMIT.GO. -/
def execFeatCommit (m : Master) (s : State) : Host.Outcome State Fault Refusal :=
  s.live fun s => s.fabricWrite m.id (pgFtr + FEAT_COMMIT.GO.off) 1

end Sys2Proof.Machine
end

