-- ==== Sys2Proof/Machine/LedgerCommands.lean ====
section
/-!
DEFINITION. The meanings of the commands of the sealed ledger: one definition per row of the opcode table, over the
operations of the unit.
-/
namespace Sys2Proof.Machine

/-- SWEEP_VISIT (R378): the hot half of the next record is read; how the read ends. -/
def execSweepVisit (ends : List ReadEnd) (s : State) : Host.Outcome State Fault Refusal :=
  s.live fun s => s.sweepVisit ends

/-- SWEEP_COLD_READ (R378): the cold half is read. -/
def execSweepColdRead (ends : List ReadEnd) (s : State) : Host.Outcome State Fault Refusal :=
  s.live fun s => s.sweepCold ends

/-- SWEEP_ROLLED_ACCEPTED (R378): the ROLLED write is accepted. -/
def execSweepRolledAccepted (s : State) : Host.Outcome State Fault Refusal :=
  s.live fun s => s.sweepAccepted

/-- FINAL_ROLL (R379): the cold half of a removed record is read. -/
def execFinalRoll (ends : List ReadEnd) (s : State) : Host.Outcome State Fault Refusal :=
  s.live fun s => (s.finalRoll ends).afterClaims

/-- LOST_RECORD_READ (R382): the halves of a lost record are read. -/
def execLostRecordRead (ends : List ReadEnd) (s : State) : Host.Outcome State Fault Refusal :=
  s.live fun s => s.lostRead ends

/-- CLOSE_ENTRY_READ (R386): the entry of the next touched account is read. -/
def execCloseEntryRead (bitmapLost : Bool) (ends : List ReadEnd) (s : State) : Host.Outcome State Fault Refusal :=
  s.live fun s => s.closeRead bitmapLost ends

/-- BLOCK_TAGGED (R389): the tag of a ledger block is complete. -/
def execBlockTagged (s : State) : Host.Outcome State Fault Refusal :=
  s.live fun s => s.blockTagged

/-- HEAD_PERSISTED (R396): the head write is complete. -/
def execHeadPersisted (s : State) : Host.Outcome State Fault Refusal :=
  s.live fun s => s.headPersisted

/-- BLOCK_TO_RING (R390): a staged block goes onto ring 32. -/
def execBlockToRing (lost : Bool) (s : State) : Host.Outcome State Fault Refusal :=
  s.live fun s => s.blockToRing lost

/-- ALIVE_PERSIST (R397): a multiple of 2^20 ns. -/
def execAlivePersist (s : State) : Host.Outcome State Fault Refusal :=
  s.live fun s => s.aliveDue

/-- KEY_LOAD (R393): a write of QNC_KEY_CTL.LOAD. -/
def execKeyLoad (m : Master) (s : State) : Host.Outcome State Fault Refusal :=
  s.live fun s => s.fabricWrite m.id (pgQnc + QNC_KEY_CTL.LOAD.off) 1

/-- KEY_UNWRAP_DONE (R393): the unwrap of the ledger key is complete. -/
def execKeyUnwrapDone (s : State) : Host.Outcome State Fault Refusal :=
  s.live fun s => s.qncUnwrapped

end Sys2Proof.Machine
end

