-- ==== Sys2Proof/Machine/MailboxCommands.lean ====
section
/-!
DEFINITION. The meanings of the commands of mailboxes and doorbells: one definition per row of the opcode table, over the
operations of the unit.
-/
namespace Sys2Proof.Machine

/-- MBX_BIND_WRITE (R429): a write of MBX_BINDc. -/
def execMbxBindWrite (m : Master) (ch : Fin 16) (value : W32) (s : State) : Host.Outcome State Fault Refusal :=
  s.live fun s => s.fabricWrite m.id (pgMbx + MBX_BINDc.EN.off + 4 * ch.val) value.toNat

/-- MBX_VIOLATION (R430): an access to a channel page by a stranger or with EN 0. -/
def execMbxViolation (m : Master) (ch : Fin 16) (offset : BitVec 12) (write : Bool) (s : State) : Host.Outcome State Fault Refusal :=
  s.live fun s => s.strangerAccess m.id (pgMbxCh ch.val + offset.toNat) write

/-- MBX_POST (R434): a write of MBX_POST. -/
def execMbxPost (m : Master) (ch : Fin 16) (value : W32) (s : State) : Host.Outcome State Fault Refusal :=
  s.live fun s => s.fabricWrite m.id (pgMbxCh ch.val + MBX_POST.LEN.off) value.toNat

/-- TAKE (R433): a write of MBX_RX_CTL.TAKE. -/
def execMbxTake (m : Master) (ch : Fin 16) (s : State) : Host.Outcome State Fault Refusal :=
  s.live fun s => s.fabricWrite m.id (pgMbxCh ch.val + MBX_RX_CTL.TAKE.off) 1

/-- MBX_ACK_WRITE (R433): a write of MBX_ACK. -/
def execMbxAckWrite (m : Master) (ch : Fin 16) (value : W32) (s : State) : Host.Outcome State Fault Refusal :=
  s.live fun s => s.fabricWrite m.id (pgMbxCh ch.val + MBX_ACK.CODE.off) value.toNat

/-- DOORBELL_SET (R436): a write of MBX_DB_SET. -/
def execDoorbellSet (m : Master) (ch : Fin 16) (bits : W32) (s : State) : Host.Outcome State Fault Refusal :=
  s.live fun s => s.fabricWrite m.id (pgMbxCh ch.val + MBX_DB_SET.SET.off) bits.toNat

/-- DOORBELL_CLEAR (R436): a W1C write of MBX_DB. -/
def execDoorbellClear (m : Master) (ch : Fin 16) (bits : W32) (s : State) : Host.Outcome State Fault Refusal :=
  s.live fun s => s.fabricWrite m.id (pgMbxCh ch.val + MBX_DB.BITS.off) bits.toNat

/-- DOORBELL_MASK_WRITE (R437): a write of MBX_DB_MASK. -/
def execDoorbellMaskWrite (m : Master) (ch : Fin 16) (mask : W32) (s : State) : Host.Outcome State Fault Refusal :=
  s.live fun s => s.fabricWrite m.id (pgMbxCh ch.val + MBX_DB_MASK.MASK.off) mask.toNat

/-- MBX_DECLARE_RESET (R438): a write of MBX_DECLARE.RESET. -/
def execMbxDeclareReset (m : Master) (s : State) : Host.Outcome State Fault Refusal :=
  s.live fun s => s.fabricWrite m.id (pgMbx + MBX_DECLARE.RESET.off) 1

end Sys2Proof.Machine
end

