-- ==== Sys2Proof/Machine/MemoryCommands.lean ====
section
/-!
DEFINITION. The meanings of the commands of the flow memory controller: one definition per row of the opcode table, over the
operations of the unit.
-/
namespace Sys2Proof.Machine

/-- DRAM_COMMAND_ISSUE (R270): a command cycle of a pseudo-channel; whether its oldest read has waited past its bound, and whether the stack reports a command error on a write it issues. -/
def execDramCommandIssue (pc : Fin 128) (aged err : Bool) (s : State) : Host.Outcome State Fault Refusal :=
  s.live fun s => s.dramIssue pc.val aged err

/-- DRAM_WRITE_ACCEPT (R269): the write queue has room for the next write. -/
def execDramWriteAccept (pc : Fin 128) (s : State) : Host.Outcome State Fault Refusal :=
  s.live fun s => s.writeAccept pc.val

/-- DRAM_READ_COMPLETE (R276): the oldest read in flight ends. -/
def execDramReadComplete (pc : Fin 128) (how : ReadEnd) (s : State) : Host.Outcome State Fault Refusal :=
  s.live fun s => s.readComplete pc.val how

/-- REFRESH_DUE (R280): a bank falls due, its stack at that temperature, with the errors that lines of it have gathered (R276). -/
def execRefreshDue (pc : Fin 128) (bank : Fin 16) (celsius : Nat) (faults : List (Nat × ReadEnd)) (s : State) : Host.Outcome State Fault Refusal :=
  s.live fun s => s.refresh pc.val bank.val celsius faults

/-- RETRAIN_START (R281): the retraining period of a channel elapses. -/
def execRetrainStart (stack : Fin 4) (ch : Fin 16) (s : State) : Host.Outcome State Fault Refusal :=
  s.live fun s => s.retrainStart stack.val ch.val

/-- RETRAIN_END (R281): the retraining of a channel ends. -/
def execRetrainEnd (stack : Fin 4) (ch : Fin 16) (ok : Bool) (s : State) : Host.Outcome State Fault Refusal :=
  s.live fun s => s.retrainEnd stack.val ch.val ok

/-- PC_FREEZE (R282): a write of FMC_PC_CTL.FREEZE. -/
def execPcFreeze (m : Master) (pc : Fin 128) (s : State) : Host.Outcome State Fault Refusal :=
  s.live fun s => s.fabricWrite m.id (pgFmc (pc.val / 32) (1 + pc.val % 32 / 4) + FMC_PC_CTL.FREEZE.off + 64 * (pc.val % 4)) 2

/-- PC_RELEASE (R285): a write of FMC_PC_CTL.RELEASE. -/
def execPcRelease (m : Master) (pc : Fin 128) (s : State) : Host.Outcome State Fault Refusal :=
  s.live fun s => s.fabricWrite m.id (pgFmc (pc.val / 32) (1 + pc.val % 32 / 4) + FMC_PC_CTL.FREEZE.off + 64 * (pc.val % 4)) 1

/-- RELEASE_RETRAIN_DONE (R285): the retraining of a release ends. -/
def execReleaseRetrainDone (pc : Fin 128) (s : State) : Host.Outcome State Fault Refusal :=
  s.live fun s => s.releaseDone pc.val

/-- REPAIR_ENTRY (R279): the engine takes the next degraded line; how its read ends. -/
def execRepairEntry (stack : Fin 4) (ends : List ReadEnd) (s : State) : Host.Outcome State Fault Refusal :=
  s.live fun s => s.repair stack.val ends

/-- ROW_RETIRE (R286): a write of FMC_RETIRE_CTL.GO with KIND 0: pseudo-channel of the stack, bank and row. -/
def execRowRetire (m : Master) (stack : Fin 4) (pc : Fin 32) (bank : Fin 16) (row : Fin 32768) (s : State) : Host.Outcome State Fault Refusal :=
  s.live fun s => s.fabricWrite m.id (pgFmc stack.val 0 + FMC_RETIRE_CTL.GO.off) (2 ^ 31 + 2 ^ 25 * pc.val + 2 ^ 15 * bank.val + row.val)

/-- PC_RETIRE (R287): a write of FMC_RETIRE_CTL.GO with KIND 1. -/
def execPcRetire (m : Master) (stack : Fin 4) (pc : Fin 32) (s : State) : Host.Outcome State Fault Refusal :=
  s.live fun s => s.fabricWrite m.id (pgFmc stack.val 0 + FMC_RETIRE_CTL.GO.off) (2 ^ 31 + 2 ^ 30 + 2 ^ 25 * pc.val)

/-- REBUILD_LINE (R288): the rebuild takes its next line; how its read ends. -/
def execRebuildLine (stack : Fin 4) (ends : List ReadEnd) (s : State) : Host.Outcome State Fault Refusal :=
  s.live fun s => s.rebuildLine stack.val ends

/-- REBUILD_DONE (R288): the rebuild reaches its end. -/
def execRebuildDone (stack : Fin 4) (s : State) : Host.Outcome State Fault Refusal :=
  s.live fun s => s.rebuildDone stack.val

/-- DIAG_READ (R284): a write of FMC_DIAG_CTL.GO with WRITE 0. -/
def execDiagRead (m : Master) (stack : Fin 4) (pc : Fin 32) (s : State) : Host.Outcome State Fault Refusal :=
  s.live fun s => s.fabricWrite m.id (pgFmc stack.val 9 + FMC_DIAG_CTL.GO.off) (2 ^ 31 + 2 ^ 25 * pc.val)

/-- DIAG_WRITE (R284): a write of FMC_DIAG_CTL.GO with WRITE 1. -/
def execDiagWrite (m : Master) (stack : Fin 4) (pc : Fin 32) (s : State) : Host.Outcome State Fault Refusal :=
  s.live fun s => s.fabricWrite m.id (pgFmc stack.val 9 + FMC_DIAG_CTL.GO.off) (2 ^ 31 + 2 ^ 30 + 2 ^ 25 * pc.val)

/-- DIAG_DONE (R284): the DIAG access ends; the codeword the array gives, where it is not the one last written. -/
def execDiagDone (stack : Fin 4) (raw : Option (BitVec 576)) (s : State) : Host.Outcome State Fault Refusal :=
  s.live fun s => s.diagDone stack.val raw

/-- SCRUB_READ (R291): the scrubber reads its next line. -/
def execScrubRead (s : State) : Host.Outcome State Fault Refusal :=
  s.live fun s => s.scrubRead

/-- BW_WINDOW_END (R292): the bandwidth window of the stack ends. -/
def execBwWindowEnd (stack : Fin 4) (s : State) : Host.Outcome State Fault Refusal :=
  s.live fun s => s.bwWindow stack.val

end Sys2Proof.Machine
end

