-- ==== Sys2Proof/Machine/PathCommands.lean ====
section
/-!
DEFINITION. The meanings of the commands of the packet path, learning and the scan: one definition per row of the opcode table, over the
operations of the unit.
-/
namespace Sys2Proof.Machine

/-- PASS_ADMIT (R22): a slot of the pipeline takes the next pass. -/
def execPassAdmit (pipe : Fin 8) (s : State) : Host.Outcome State Fault Refusal :=
  s.live fun s => s.passAdmit pipe.val

/-- FLOW_READ_RETURN (R176): the tracker entry whose read returns, and the cache lines held by others. -/
def execFlowReadReturn (pipe : Fin 8) (entry : Nat) (held : BitVec 4) (s : State) : Host.Outcome State Fault Refusal :=
  s.live fun s => s.flowReturn pipe.val entry held.toNat

/-- CACHE_INSTALL (R170): the tracker entry that waits for a way, and the cache lines held by others. -/
def execCacheInstall (pipe : Fin 8) (entry : Nat) (held : BitVec 4) (s : State) : Host.Outcome State Fault Refusal :=
  s.live fun s => s.cacheInstall pipe.val entry held.toNat

/-- CACHE_CLEAN (R171): the cleaning interval of a bank of the cache. -/
def execCacheClean (bank : Fin 64) (s : State) : Host.Outcome State Fault Refusal :=
  s.live fun s => s.cleanBank bank.val

/-- LEARN_TAKE (R147): the learn engine takes its next event. -/
def execLearnTake (pipe : Fin 8) (s : State) : Host.Outcome State Fault Refusal :=
  s.live fun s => s.learnTake pipe.val

/-- L2_AGE_VISIT (R149): the sweep reaches an entry. -/
def execL2AgeVisit (pipe : Fin 8) (index : Fin 65536) (s : State) : Host.Outcome State Fault Refusal :=
  s.live fun s => s.ageVisit pipe.val index.val

/-- FLAP_WINDOW_END (R150): the flap window ends. -/
def execFlapWindowEnd (pipe : Fin 8) (s : State) : Host.Outcome State Fault Refusal :=
  s.live fun s => s.flapWindow pipe.val

/-- ARRAY_SCAN_VISIT (R155): an entry of an array, its shadow word correctable or not, and the soft errors that strike the array up to
the next visit. -/
def execArrayScanVisit (kind : ArrayKind) (part index : Nat) (shadowBad : Bool)
    (strikes : List (Nat × BitVec 512)) (s : State) : Host.Outcome State Fault Refusal :=
  s.live fun s => s.scanVisit kind part index shadowBad strikes

end Sys2Proof.Machine
end

