-- ==== Sys2Proof/Machine/PipCommands.lean ====
section
/-!
DEFINITION. The meanings of the commands of the Pip sequencers: one definition per row of the opcode table, over the
operations of the unit.
-/
namespace Sys2Proof.Machine

/-- ROUTINE_START (R235): an event of the sequencer finds a context. -/
def execRoutineStart (seq : Seq) (s : State) : Host.Outcome State Fault Refusal :=
  s.live fun s => (s.routineStart seq.val).afterClaims

/-- MICROWORD_ISSUE (R234): a ready context issues. -/
def execMicrowordIssue (seq : Seq) (ctx : Fin 32) (how : Issue) (s : State) : Host.Outcome State Fault Refusal :=
  s.live fun s => (s.issue seq.val ctx.val how).afterClaims

/-- MEM_RESPONSE (R245): operation `op` of the context responds; how its DRAM reads end. -/
def execMemResponse (seq : Seq) (ctx : Fin 32) (op : Nat) (ends : List ReadEnd) (s : State) : Host.Outcome State Fault Refusal :=
  s.live fun s => (s.memResponse seq.val ctx.val op ends).afterClaims

/-- WAIT_SATISFIED (R241): the wait condition of a context is found to hold. -/
def execWaitSatisfied (seq : Seq) (ctx : Fin 32) (s : State) : Host.Outcome State Fault Refusal :=
  s.live fun s => s.waitSatisfied seq.val ctx.val

/-- CONTEXT_TIMER_EXPIRE (R241): the timer of a context runs out. -/
def execContextTimerExpire (seq : Seq) (ctx : Fin 32) (s : State) : Host.Outcome State Fault Refusal :=
  s.live fun s => s.timerExpire seq.val ctx.val

/-- LOCK_GRANT (R246): a waiting LOCK finds its lock free. -/
def execLockGrant (seq : Seq) (ctx : Fin 32) (s : State) : Host.Outcome State Fault Refusal :=
  s.live fun s => s.lockGrant seq.val ctx.val

/-- COMMIT_ACCEPTED (R248): every write of the COMMIT of a context has been accepted. -/
def execCommitAccepted (seq : Seq) (ctx : Fin 32) (s : State) : Host.Outcome State Fault Refusal :=
  s.live fun s => (s.commitAccepted seq.val ctx.val).afterClaims

/-- DEADLINE (R257): the first deadline of the SETUP in a context, or of the tracker entry that waits for one. -/
def execDeadlineFault (pipe : Fin 8) (ctx : Option (Fin 32)) (entry : Nat) (s : State) : Host.Outcome State Fault Refusal :=
  s.live fun s => (match ctx with | some c => s.deadline pipe.val c.val | none => s.deadlineWaiting pipe.val entry).afterClaims

/-- SLICE (R249): 8 µs with visible state. -/
def execSliceFault (seq : Seq) (ctx : Fin 32) (s : State) : Host.Outcome State Fault Refusal :=
  s.live fun s => (s.slice seq.val ctx.val).afterClaims

/-- PIP_STOP (R254): a write of PIP_CTL.STOP = 1. -/
def execPipStop (m : Master) (seq : Seq) (s : State) : Host.Outcome State Fault Refusal :=
  s.live fun s => s.fabricWrite m.id (pgPip seq.val + PIP_CTL.STOP.off) 1

/-- PIP_RESUME (R254): a write of PIP_CTL.STOP = 0. -/
def execPipResume (m : Master) (seq : Seq) (s : State) : Host.Outcome State Fault Refusal :=
  s.live fun s => s.fabricWrite m.id (pgPip seq.val + PIP_CTL.STOP.off) 0

/-- PIP_LOAD_GO (R261): a write of PIP_LOAD_CTL.GO. -/
def execPipLoadGo (m : Master) (seq : Seq) (s : State) : Host.Outcome State Fault Refusal :=
  s.live fun s => s.fabricWrite m.id (pgPip seq.val + PIP_LOAD_CTL.GO.off) 1

/-- PIP_LOAD_CHECKED (R261): the image that memory holds at the load address, and whether it could be read. -/
def execPipLoadChecked (seq : Seq) (image : List Byte) (dmaOk : Bool) (s : State) : Host.Outcome State Fault Refusal :=
  s.live fun s => s.pipLoadChecked seq.val image dmaOk

/-- PIP_INSTALL (R262): a passed image is installed. -/
def execPipInstall (seq : Seq) (s : State) : Host.Outcome State Fault Refusal :=
  s.live fun s => s.pipInstall seq.val

/-- NANO_REFETCH_DONE (R259): the reread of a nano-word from its DRAM copy ends. -/
def execNanoRefetchDone (seq : Seq) (ctx : Fin 32) (index : Nat) (ok : Bool) (s : State) : Host.Outcome State Fault Refusal :=
  s.live fun s => (s.nanoDone seq.val ctx.val index ok).afterClaims

end Sys2Proof.Machine
end

