-- ==== Sys2Proof/Machine/PortCommands.lean ====
section
/-!
DEFINITION. The meanings of the commands of Ethernet ports: one definition per row of the opcode table, over the
operations of the unit.
-/
namespace Sys2Proof.Machine

/-- GROUP_APPLY (R99): a write of ETH_GRP_CTL.APPLY, with the slots that have a frame in reception. -/
def execGroupApply (m : Master) (group : Fin 32) (receiving : BitVec 4) (s : State) : Host.Outcome State Fault Refusal :=
  s.live fun s => s.groupApplyBy m.id group.val receiving.toNat

/-- LINK_UP (R114): the link comes up, with or without auto-negotiation. -/
def execLinkUp (port : Fin 128) (anDone : Bool) (s : State) : Host.Outcome State Fault Refusal :=
  s.live fun s => s.portUp port.val anDone

/-- LINK_DOWN (R104): the link goes down, a frame being received or not, with the faults seen and BLOCK_LOCK,
AM_LOCK and HI_BER. -/
def execLinkDown (port : Fin 128) (receiving localFault remoteFault : Bool) (pcs : BitVec 3) (s : State) : Host.Outcome State Fault Refusal :=
  s.live fun s => s.linkLoss port.val receiving localFault remoteFault pcs.toNat

/-- LT_FAIL (R114): link training has timed out on a lane of the group. -/
def execLtFail (group : Fin 32) (s : State) : Host.Outcome State Fault Refusal :=
  s.live fun s => s.ltFail group.val

/-- LINK_HOLD_EXPIRE (R104): HOLD_MS after the link went down. -/
def execLinkHoldExpire (port : Fin 128) (s : State) : Host.Outcome State Fault Refusal :=
  s.live fun s => if s.linkUp port.val then s else s.linkFlush port.val

/-- FRAME_RECEIVE (R101): a frame with its FCS, and whether it carried an uncorrectable codeword. -/
def execFrameReceive (port : Fin 128) (frame : List Byte) (badFec : Bool) (s : State) : Host.Outcome State Fault Refusal :=
  s.live fun s => s.frameIn port.val frame badFec

/-- PAUSE_RECEIVE (R105): the class-enable vector and the quanta of the frame; PAUSE has its quanta first. -/
def execPauseReceive (port : Fin 128) (pfc : Bool) (classes : BitVec 8) (quanta : List (BitVec 16)) (s : State) : Host.Outcome State Fault Refusal :=
  s.live fun s => s.pauseIn port.val pfc classes.toNat fun i => (quanta.getD i 0).toNat

/-- PAUSE_TIMER_EXPIRE (R105): the timer of a paused queue runs out. -/
def execPauseTimerExpire (port : Fin 128) (queue : Fin 8) (s : State) : Host.Outcome State Fault Refusal :=
  s.live fun s => s.pauseExpire port.val queue.val

/-- XOFF_RESEND (R106): half the quanta time has passed since the last XOFF. -/
def execXoffResend (port : Fin 128) (s : State) : Host.Outcome State Fault Refusal :=
  s.live fun s => s.xoffResend port.val

/-- PFC_WATCHDOG (R107): the queue has been paused longer than LIMIT_MS. -/
def execPfcWatchdog (port : Fin 128) (queue : Fin 8) (s : State) : Host.Outcome State Fault Refusal :=
  s.live fun s => s.wdFire port.val queue.val

/-- PFC_WD_RECOVER (R107): the watched queue has been empty for 1 ms. -/
def execPfcWdRecover (port : Fin 128) (queue : Fin 8) (s : State) : Host.Outcome State Fault Refusal :=
  s.live fun s => s.wdRecover port.val queue.val

/-- FEC_DEGRADE_WINDOW (R114): what the decoder counted in the window that ends. -/
def execFecDegradeWindow (port : Fin 128) (corrected symbols uncorrectable : Nat) (s : State) : Host.Outcome State Fault Refusal :=
  s.live fun s => s.fecWindow port.val corrected symbols uncorrectable

/-- TXTS_POP (R110): a write of ETH_TXTS_POP. -/
def execTxtsPop (m : Master) (group : Fin 32) (mask : BitVec 4) (s : State) : Host.Outcome State Fault Refusal :=
  s.live fun s => s.fabricWrite m.id (pgEth group.val 3 + ETH_TXTS_POP.POP.off) mask.toNat

/-- PPS_OUT_PULSE (R112): the nanoseconds return to 0. -/
def execPpsOutPulse (s : State) : Host.Outcome State Fault Refusal :=
  s.live fun s => s.ppsDue

/-- PPS_OUT_END (R112): WIDTH_US after the rise. -/
def execPpsOutEnd (s : State) : Host.Outcome State Fault Refusal :=
  s.live fun s => s.ppsEndDue

/-- PPS_IN_EDGE (R113): an edge of PPS_IN. -/
def execPpsInEdge (rising : Bool) (s : State) : Host.Outcome State Fault Refusal :=
  s.live fun s => s.ppsIn rising

end Sys2Proof.Machine
end

