-- ==== Sys2Proof/Machine/RasCommands.lean ====
section
/-!
DEFINITION. The meanings of the commands of availability and firmware: one definition per row of the opcode table, over the
operations of the unit.
-/
namespace Sys2Proof.Machine

/-- THERM_WARN (R495): what a die sensor reads, in °C. -/
def execThermWarn (sensor : Fin 16) (celsius : Nat) (s : State) : Host.Outcome State Fault Refusal :=
  s.live fun s => s.thermWarn sensor.val celsius

/-- SRAM_SCRUB (R475): the word that is read, by the scrubber or in use, what is found, and how the DRAM reads that follow end. -/
def execSramScrub (word : Sram) (index : Nat) (found : ScrubEnd) (inUse : Bool) (ends : List ReadEnd) (s : State) :
    Host.Outcome State Fault Refusal :=
  s.live fun s => s.sramScrub word index found inUse ends

/-- ERROR_LOG_WRITTEN (R482): the oldest record waiting for the persistent log is written. -/
def execErrorLogWritten (s : State) : Host.Outcome State Fault Refusal :=
  s.live fun s => s.logOne

/-- FW_LOAD (R486): a write of RAS_FW_CTL.LOAD. -/
def execFwLoad (m : Master) (s : State) : Host.Outcome State Fault Refusal :=
  s.live fun s => s.fabricWrite m.id (pgRas + RAS_FW_CTL.LOAD.off) 1

/-- FW_CHECK_DONE (R487): the image that host memory holds, and whether DMA worked. -/
def execFwCheckDone (image : List Byte) (dmaOk : Bool) (s : State) : Host.Outcome State Fault Refusal :=
  s.live fun s => s.fwChecked image dmaOk

/-- FW_PROGRAM_DONE (R487): programming and read-back end. -/
def execFwProgramDone (ok : Bool) (s : State) : Host.Outcome State Fault Refusal :=
  s.live fun s => s.fwProgrammed ok

/-- YIELD (R488): a write of RAS_FW_CTL.YIELD. -/
def execFwYield (m : Master) (s : State) : Host.Outcome State Fault Refusal :=
  s.live fun s => s.fabricWrite m.id (pgRas + RAS_FW_CTL.YIELD.off) 2

/-- YIELD_TIMEOUT (R488): 1 ms without YIELD. -/
def execYieldTimeout (s : State) : Host.Outcome State Fault Refusal :=
  s.live fun s => s.yieldTimeout

/-- FW_WARM_START (R488): 10 µs after the halt. -/
def execFwWarmStart (s : State) : Host.Outcome State Fault Refusal :=
  s.live fun s => s.warmStart

/-- ALIVE (R489): a write of RAS_FW_WDOG with ALIVE, and its LIMIT_MS. -/
def execFwAlive (m : Master) (limitMs : BitVec 16) (s : State) : Host.Outcome State Fault Refusal :=
  s.live fun s => s.fabricWrite m.id (pgRas + RAS_FW_WDOG.ALIVE.off) (2 ^ 31 + limitMs.toNat)

/-- FW_WDOG_EXPIRE (R489): no ALIVE within LIMIT_MS; what the flash slot to fall back to holds. -/
def execFwWdogExpire (other : List Byte) (s : State) : Host.Outcome State Fault Refusal :=
  s.live fun s => s.fwWdog other

/-- KICK (R491): a write of RAS_MC_WDOG with KICK, and its LIMIT_MS. -/
def execMcKick (m : Master) (limitMs : BitVec 16) (s : State) : Host.Outcome State Fault Refusal :=
  s.live fun s => s.fabricWrite m.id (pgRas + RAS_MC_WDOG.KICK.off) (2 ^ 31 + limitMs.toNat)

/-- MC_WDOG_EXPIRE (R491): the watchdog of the management core expires. -/
def execMcWdogExpire (s : State) : Host.Outcome State Fault Refusal :=
  s.live fun s => s.mcWdog

end Sys2Proof.Machine
end

