-- ==== Sys2Proof/Machine/ResetCommands.lean ====
section
/-!
DEFINITION. The meanings of the commands of resets, boot and the stop sequence: one definition per row of the opcode table, over the
operations of the unit.
-/
namespace Sys2Proof.Machine

/-- PERST_N_ASSERT (R64): PERST_N falls. -/
def execPerstNAssert (s : State) : Host.Outcome State Fault Refusal :=
  s.always fun s => s.perstAssert

/-- FUNCTION_LEVEL_RESET (R64): a Function Level Reset. -/
def execFunctionLevelReset (s : State) : Host.Outcome State Fault Refusal :=
  s.live fun s => s.hostReset

/-- MGMT_RST_N_ASSERT (R499): MGMT_RST_N has been low for 1 µs. -/
def execMgmtRstNAssert (s : State) : Host.Outcome State Fault Refusal :=
  s.live fun s => s.mgmtRequest

/-- SYS_RST_MGMT (R499): a write of SYS_RST_CTL.MGMT. -/
def execSysRstMgmt (m : Master) (s : State) : Host.Outcome State Fault Refusal :=
  s.live fun s => s.fabricWrite m.id (pgSys + SYS_RST_CTL.MGMT.off) 1

/-- MANAGEMENT_RESET (R65): the requested management reset takes place. -/
def execManagementReset (s : State) : Host.Outcome State Fault Refusal :=
  s.live fun s => s.mgmtApply

/-- MANAGEMENT_RESET_END (R499): 1 µs after it began. -/
def execManagementResetEnd (s : State) : Host.Outcome State Fault Refusal :=
  s.live fun s => s.mgmtEnd

/-- POWER_ON_RESET (R496): a rail is below its minimum. -/
def execPowerOnReset (s : State) : Host.Outcome State Fault Refusal :=
  s.always fun s => s.powerOnReset

/-- CHIP_RST_N_ASSERT (R497): CHIP_RST_N has been low for 1 µs. -/
def execChipRstNAssert (s : State) : Host.Outcome State Fault Refusal :=
  s.always fun s => s.chipReset

/-- COLD_RESET_RELEASE (R496): power-on reset is released. -/
def execColdResetRelease (testEn : Bool) (s : State) : Host.Outcome State Fault Refusal :=
  s.always fun s => s.coldRelease testEn

/-- STRAP_SAMPLE (R501): the levels of the strap balls at a sampling instant. -/
def execStrapSample (levels : BitVec 6) (s : State) : Host.Outcome State Fault Refusal :=
  s.live fun s => s.strapSample levels

/-- BOOT_STEP_COMPLETE (R502): the running step ends `ms` after release; the contents of the two flash slots; how many of the two head slots of the persistent store fail their check. -/
def execBootStepComplete (ms : Nat) (flash0 flash1 : List Byte) (headsBad : Nat) (s : State) : Host.Outcome State Fault Refusal :=
  s.live fun s => s.bootStep ms flash0 flash1 headsBad

/-- THERMAL_TRIP (R471): die sensor n at 120 °C, or the signal of stack n. -/
def execThermalTrip (stack : Bool) (n : Fin 16) (s : State) : Host.Outcome State Fault Refusal :=
  s.live fun s => s.thermalTrip stack n.val

/-- SUPPLY_FAULT (R472): a rail has been below its minimum for 2 µs. -/
def execSupplyFault (rail : Fin 8) (s : State) : Host.Outcome State Fault Refusal :=
  s.live fun s => s.supplyFault rail.val

/-- STOP_PERSIST (R473): 1 µs after the detection. -/
def execStopPersist (s : State) : Host.Outcome State Fault Refusal :=
  s.always fun s => s.stopPersist

/-- STOP_HALT (R473): 20 µs after the detection. -/
def execStopHalt (s : State) : Host.Outcome State Fault Refusal :=
  s.always fun s => s.stopHalt

end Sys2Proof.Machine
end

