-- ==== Sys2Proof/Machine/SchedCommands.lean ====
section
/-!
DEFINITION. The meanings of the commands of transmission, shaping and gates: one definition per row of the opcode table, over the
operations of the unit.
-/
namespace Sys2Proof.Machine

/-- TX_FRAME_START (R306): the port asks for its next frame. -/
def execTxFrameStart (port : Fin 128) (s : State) : Host.Outcome State Fault Refusal :=
  s.live fun s => s.txStart port.val

/-- TX_FRAME_DONE (R294): the last byte of the frame in transmission. -/
def execTxFrameDone (port : Fin 128) (cells : List (Nat × Bool)) (s : State) : Host.Outcome State Fault Refusal :=
  s.live fun s => s.frameOut port.val cells

/-- Q_FLUSH (R303): a write of TMB_Q_FLUSH. -/
def execQFlush (m : Master) (port : Fin 128) (mask : BitVec 8) (s : State) : Host.Outcome State Fault Refusal :=
  s.live fun s => s.fabricWrite m.id (pgTmbP port.val + TMB_Q_FLUSH.FLUSH.off) mask.toNat

/-- WATERMARK_WRITE (R310): a write of the high watermark of a queue, or of the low watermark of the pool. -/
def execWatermarkWrite (m : Master) (queue : Option (Fin 128 × Fin 8)) (value : W32) (s : State) : Host.Outcome State Fault Refusal :=
  s.live fun s => match queue with | some (n, q) => s.fabricWrite m.id (pgTmbP n.val + TMB_Q_HIGH.HIGH.off + 16 * q.val) value.toNat | none => s.fabricWrite m.id (pgTmb + TMB_FREE_LOW.LOW.off) value.toNat

/-- TOKEN_REFILL (R312): 64 ns of counted time have passed. -/
def execTokenRefill (s : State) : Host.Outcome State Fault Refusal :=
  s.live fun s => s.tokenRefill

/-- GATE_CHANGE (R326): the present entry of the list of a port ends. -/
def execGateChange (port : Fin 128) (s : State) : Host.Outcome State Fault Refusal :=
  s.live fun s => s.gateStep port.val

/-- LIST_START (R331): the start time of an adopted list is reached. -/
def execListStart (port : Fin 128) (s : State) : Host.Outcome State Fault Refusal :=
  s.live fun s => s.listStart port.val

end Sys2Proof.Machine
end

