-- ==== Sys2Proof/Machine/TableCommands.lean ====
section
/-!
DEFINITION. The meanings of the commands of the table command queues: one definition per row of the opcode table, over the
operations of the unit.
-/
namespace Sys2Proof.Machine

/-- CLS_READ (R137): TABLE 0x01 READ. -/
def execClsRead (c : Cmd) (s : State) : Host.Outcome State Fault Refusal :=
  s.live fun s => s.runCmd c 0xFF true some (fun _ => false) (fun t p => t.clsRead c p)

/-- CLS_WRITE (R137): TABLE 0x01 WRITE. -/
def execClsWrite (c : Cmd) (s : State) : Host.Outcome State Fault Refusal :=
  s.live fun s => s.runCmd c 0xFF false some (fun p => s.shadowBusy (pgCls p)) (fun t p => t.clsWrite c p)

/-- CLS_DELETE (R137): TABLE 0x01 DELETE. -/
def execClsDelete (c : Cmd) (s : State) : Host.Outcome State Fault Refusal :=
  s.live fun s => s.runCmd c 0xFF false some (fun p => s.shadowBusy (pgCls p)) (fun t p => t.clsDelete c p)

/-- CLS_SEARCH (R139): TABLE 0x01 SEARCH. -/
def execClsSearch (c : Cmd) (s : State) : Host.Outcome State Fault Refusal :=
  s.live fun s => s.runCmd c 0xFF true some (fun _ => false) (fun t p => t.clsSearch c p)

/-- CLS_MOVE (R140): TABLE 0x01 MOVE. -/
def execClsMove (c : Cmd) (s : State) : Host.Outcome State Fault Refusal :=
  s.live fun s => s.runCmd c 0xFF false some (fun p => s.shadowBusy (pgCls p)) (fun t p => t.clsMove c p)

/-- SEARCH_PROFILE_READ (R134): TABLE 0x02 READ. -/
def execSearchProfileRead (c : Cmd) (s : State) : Host.Outcome State Fault Refusal :=
  s.live fun s => s.runCmd c 0xFF true some (fun _ => false) (fun t p => t.profRead c p)

/-- SEARCH_PROFILE_WRITE (R134): TABLE 0x02 WRITE. -/
def execSearchProfileWrite (c : Cmd) (s : State) : Host.Outcome State Fault Refusal :=
  s.live fun s => s.runCmd c 0xFF false some (fun p => s.shadowBusy (pgCls p)) (fun t p => t.profWrite c p)

/-- ACTION_PROFILE_READ (R198): TABLE 0x03 READ. -/
def execActionProfileRead (c : Cmd) (s : State) : Host.Outcome State Fault Refusal :=
  s.live fun s => s.runCmd c 0xFF true some (fun _ => false) (fun t p => t.actRead c p)

/-- ACTION_PROFILE_WRITE (R198): TABLE 0x03 WRITE of a profile. -/
def execActionProfileWrite (c : Cmd) (s : State) : Host.Outcome State Fault Refusal :=
  s.live fun s => s.runCmd c 0xFF false some (fun p => s.shadowBusy (pgAct p)) (fun t p => t.actWrite c p)

/-- ACTION_PROFILE_DELETE (R198): TABLE 0x03 DELETE. -/
def execActionProfileDelete (c : Cmd) (s : State) : Host.Outcome State Fault Refusal :=
  s.live fun s => s.runCmd c 0xFF false some (fun p => s.shadowBusy (pgAct p)) (fun t p => t.actDelete c p)

/-- TEMPLATE_WRITE (R198): TABLE 0x03 WRITE of a template. -/
def execTemplateWrite (c : Cmd) (s : State) : Host.Outcome State Fault Refusal :=
  s.live fun s => s.runCmd c 0xFF false some (fun _ => false) (fun t p => t.actWrite c p)

/-- L2_READ (R152): TABLE 0x04 READ. -/
def execL2Read (c : Cmd) (s : State) : Host.Outcome State Fault Refusal :=
  s.live fun s => s.runCmd c 0xFF true some (fun _ => false) (fun t p => t.l2Read c p)

/-- L2_WRITE (R152): TABLE 0x04 WRITE. -/
def execL2Write (c : Cmd) (s : State) : Host.Outcome State Fault Refusal :=
  s.live fun s => s.runCmd c 0xFF false some (fun _ => false) (fun t p => t.l2Write c p)

/-- L2_DELETE (R152): TABLE 0x04 DELETE. -/
def execL2Delete (c : Cmd) (s : State) : Host.Outcome State Fault Refusal :=
  s.live fun s => s.runCmd c 0xFF false some (fun _ => false) (fun t p => t.l2Delete c p)

/-- L2_FLUSH (R152): TABLE 0x04 FLUSH. -/
def execL2Flush (c : Cmd) (s : State) : Host.Outcome State Fault Refusal :=
  s.live fun s => s.runCmd c 0xFF false some (fun _ => false) (fun t p => t.l2Flush c p)

/-- L2_READ_AT (R152): TABLE 0x04 READ_AT. -/
def execL2ReadAt (c : Cmd) (s : State) : Host.Outcome State Fault Refusal :=
  s.live fun s => s.runCmd c 0xFF true some (fun _ => false) (fun t p => t.l2ReadAt c p)

/-- LPM_WRITE (R144): TABLE 0x05 WRITE. -/
def execLpmWrite (c : Cmd) (s : State) : Host.Outcome State Fault Refusal :=
  s.live fun s => s.runCmd c 0x0F false (fun b => some (2 * b)) (fun _ => false) (fun t p => t.lpmWrite c p)

/-- LPM_DELETE (R144): TABLE 0x05 DELETE. -/
def execLpmDelete (c : Cmd) (s : State) : Host.Outcome State Fault Refusal :=
  s.live fun s => s.runCmd c 0x0F false (fun b => some (2 * b)) (fun _ => false) (fun t p => t.lpmDelete c p)

/-- LPM_READ (R143): TABLE 0x05 READ. -/
def execLpmRead (c : Cmd) (s : State) : Host.Outcome State Fault Refusal :=
  s.live fun s => s.runCmd c 0x0F true (fun b => some (2 * b)) (fun _ => false) (fun t p => t.lpmRead c p)

/-- LPM_SEARCH (R143): TABLE 0x05 SEARCH. -/
def execLpmSearch (c : Cmd) (s : State) : Host.Outcome State Fault Refusal :=
  s.live fun s => s.runCmd c 0x0F true (fun b => some (2 * b)) (fun _ => false) (fun t p => t.lpmSearch c p)

/-- FLOW_READ (R191): TABLE 0x06 READ; how its DRAM reads end. -/
def execFlowRead (c : Cmd) (ends : List ReadEnd) (s : State) : Host.Outcome State Fault Refusal :=
  s.live fun s => s.runCmd c 0x01 true (fun _ => none) (fun _ => false) (fun t _ => t.flowRead c ends)

/-- FLOW_WRITE (R192): TABLE 0x06 WRITE; how its DRAM reads end. -/
def execFlowWrite (c : Cmd) (ends : List ReadEnd) (s : State) : Host.Outcome State Fault Refusal :=
  s.live fun s => s.flowWrite c ends

/-- FLOW_DELETE (R191): TABLE 0x06 DELETE; how its DRAM reads end. -/
def execFlowDelete (c : Cmd) (ends : List ReadEnd) (s : State) : Host.Outcome State Fault Refusal :=
  s.live fun s => s.runCmd c 0x01 false (fun _ => none) (fun _ => false) (fun t _ => t.flowDelete c ends)

/-- FLOW_SEARCH (R191): TABLE 0x06 SEARCH; how its DRAM reads end. -/
def execFlowSearch (c : Cmd) (ends : List ReadEnd) (s : State) : Host.Outcome State Fault Refusal :=
  s.live fun s => s.runCmd c 0x01 true (fun _ => none) (fun _ => false) (fun t _ => t.flowSearch c ends)

/-- FLOW_WALK (R191): TABLE 0x06 WALK. -/
def execFlowWalk (c : Cmd) (s : State) : Host.Outcome State Fault Refusal :=
  s.live fun s => s.runCmd c 0x01 true (fun _ => none) (fun _ => false) (fun t _ => t.flowWalk c)

/-- FLOW_READ_BUCKET (R191): TABLE 0x06 READ_BUCKET; how its DRAM reads end. -/
def execFlowReadBucket (c : Cmd) (ends : List ReadEnd) (s : State) : Host.Outcome State Fault Refusal :=
  s.live fun s => s.runCmd c 0x01 true (fun _ => none) (fun _ => false) (fun t _ => t.flowBucket c ends)

/-- ACCOUNT_READ (R376): TABLE 0x07 READ; how its DRAM read ends. -/
def execAccountRead (c : Cmd) (ends : List ReadEnd) (s : State) : Host.Outcome State Fault Refusal :=
  s.live fun s => s.runCmd c 0x01 true (fun _ => none) (fun _ => false) (fun t p => t.accountRead c p ends)

/-- ACCOUNT_WRITE (R376): TABLE 0x07 WRITE. -/
def execAccountWrite (c : Cmd) (s : State) : Host.Outcome State Fault Refusal :=
  s.live fun s => s.runCmd c 0x01 false (fun _ => none) (fun _ => false) (fun t p => t.accountSealed c p)

/-- ACCOUNT_DELETE (R376): TABLE 0x07 DELETE. -/
def execAccountDelete (c : Cmd) (s : State) : Host.Outcome State Fault Refusal :=
  s.live fun s => s.runCmd c 0x01 false (fun _ => none) (fun _ => false) (fun t p => t.accountSealed c p)

/-- READ_MAP (R376): TABLE 0x07 READ_MAP. -/
def execReadMap (c : Cmd) (s : State) : Host.Outcome State Fault Refusal :=
  s.live fun s => s.runCmd c 0x01 true (fun _ => none) (fun _ => false) (fun t p => t.mapRead c p)

/-- WRITE_MAP (R376): TABLE 0x07 WRITE_MAP. -/
def execWriteMap (c : Cmd) (s : State) : Host.Outcome State Fault Refusal :=
  s.live fun s => s.runCmd c 0x01 false (fun _ => none) (fun _ => false) (fun t p => t.mapWrite c p)

/-- LB_SLOTS_READ (R216): TABLE 0x08 READ. -/
def execLbSlotsRead (c : Cmd) (s : State) : Host.Outcome State Fault Refusal :=
  s.live fun s => s.runCmd c 0x01 true (fun _ => none) (fun _ => false) (fun t p => t.lbRead c p)

/-- LB_SLOTS_WRITE (R216): TABLE 0x08 WRITE. -/
def execLbSlotsWrite (c : Cmd) (s : State) : Host.Outcome State Fault Refusal :=
  s.live fun s => s.runCmd c 0x01 false (fun _ => none) (fun _ => false) (fun t p => t.lbWrite c p)

/-- WRITE_MEMBER (R216): TABLE 0x08 WRITE_MEMBER. -/
def execWriteMember (c : Cmd) (s : State) : Host.Outcome State Fault Refusal :=
  s.live fun s => s.runCmd c 0x01 false (fun _ => none) (fun _ => false) (fun t p => t.lbWriteMember c p)

/-- SET_STATE (R216): TABLE 0x08 SET_STATE. -/
def execSetState (c : Cmd) (s : State) : Host.Outcome State Fault Refusal :=
  s.live fun s => s.runCmd c 0x01 false (fun _ => none) (fun _ => false) (fun t p => t.lbSetState c p)

/-- LB_WRITE_POOL (R216): TABLE 0x08 WRITE_POOL. -/
def execLbWritePool (c : Cmd) (s : State) : Host.Outcome State Fault Refusal :=
  s.live fun s => s.runCmd c 0x01 false (fun _ => none) (fun _ => false) (fun t p => t.lbWritePool c p)

/-- READ_MEMBER (R216): TABLE 0x08 READ_MEMBER. -/
def execReadMember (c : Cmd) (s : State) : Host.Outcome State Fault Refusal :=
  s.live fun s => s.runCmd c 0x01 true (fun _ => none) (fun _ => false) (fun t p => t.lbReadMember c p)

/-- READ_POOL (R224): TABLE 0x09 READ_POOL. -/
def execReadPool (c : Cmd) (s : State) : Host.Outcome State Fault Refusal :=
  s.live fun s => s.runCmd c 0x01 true (fun _ => none) (fun _ => false) (fun t p => t.natReadPool c p)

/-- NAT_WRITE_POOL (R224): TABLE 0x09 WRITE_POOL. -/
def execNatWritePool (c : Cmd) (s : State) : Host.Outcome State Fault Refusal :=
  s.live fun s => s.runCmd c 0x01 false (fun _ => none) (fun _ => false) (fun t p => t.natWritePool c p)

/-- NAT_SEARCH (R224): TABLE 0x09 SEARCH. -/
def execNatSearch (c : Cmd) (s : State) : Host.Outcome State Fault Refusal :=
  s.live fun s => s.runCmd c 0x01 true (fun _ => none) (fun _ => false) (fun t p => t.natSearch c p)

/-- READ_BLOCK (R224): TABLE 0x09 READ_BLOCK. -/
def execReadBlock (c : Cmd) (s : State) : Host.Outcome State Fault Refusal :=
  s.live fun s => s.runCmd c 0x01 true (fun _ => none) (fun _ => false) (fun t p => t.natReadBlock c p)

/-- WRITE_ADDR (R224): TABLE 0x09 WRITE_ADDR. -/
def execWriteAddr (c : Cmd) (s : State) : Host.Outcome State Fault Refusal :=
  s.live fun s => s.runCmd c 0x01 false (fun _ => none) (fun _ => false) (fun t p => t.natWriteAddr c p)

/-- WRITE_PREFIX (R224): TABLE 0x09 WRITE_PREFIX. -/
def execWritePrefix (c : Cmd) (s : State) : Host.Outcome State Fault Refusal :=
  s.live fun s => s.runCmd c 0x01 false (fun _ => none) (fun _ => false) (fun t p => t.natWritePfx c p)

/-- ZONE_TIMEOUT_READ (R228): TABLE 0x0A READ. -/
def execZoneTimeoutRead (c : Cmd) (s : State) : Host.Outcome State Fault Refusal :=
  s.live fun s => s.runCmd c 0xFF true some (fun _ => false) (fun t p => t.zoneRead c p)

/-- ZONE_TIMEOUT_WRITE (R228): TABLE 0x0A WRITE. -/
def execZoneTimeoutWrite (c : Cmd) (s : State) : Host.Outcome State Fault Refusal :=
  s.live fun s => s.runCmd c 0xFF false some (fun _ => false) (fun t p => t.zoneWrite c p)

end Sys2Proof.Machine
end

