-- ==== Sys2Proof/Machine/TelemetryCommands.lean ====
section
/-!
DEFINITION. The meanings of the commands of telemetry and performance counters: one definition per row of the opcode table, over the
operations of the unit.
-/
namespace Sys2Proof.Machine

/-- MESSAGE_FLUSH (R334): FLUSH_US after the first record of the message. -/
def execMessageFlush (s : State) : Host.Outcome State Fault Refusal :=
  s.live fun s => s.flushDue

/-- TEMPLATE_SEND (R337): a write of TEL_EXPORT_TMPL with SEND, and its REFRESH_S. -/
def execTemplateSend (m : Master) (refresh : BitVec 16) (s : State) : Host.Outcome State Fault Refusal :=
  s.live fun s => s.fabricWrite m.id (pgTel 0 + TEL_EXPORT_TMPL.SEND.off) (2 ^ 31 + refresh.toNat)

/-- TEMPLATE_REFRESH (R337): REFRESH_S seconds have passed. -/
def execTemplateRefresh (s : State) : Host.Outcome State Fault Refusal :=
  s.live fun s => s.templateRefresh

/-- START_RECORD_READ (R339): the reads of the oldest start entry end. -/
def execStartRecordRead (ends : List ReadEnd) (s : State) : Host.Outcome State Fault Refusal :=
  s.live fun s => s.startRead ends

/-- SNAPSHOT_PERIODIC (R345): a multiple of PERIOD_US; whether the previous snapshot is still being written. -/
def execSnapshotPeriodic (busy : Bool) (s : State) : Host.Outcome State Fault Refusal :=
  s.live fun s => s.snapDue busy

/-- SNAP_NOW (R345): a write of TEL_SNAP_CTL.NOW; whether the previous snapshot is still being written. -/
def execSnapNow (m : Master) (busy : Bool) (s : State) : Host.Outcome State Fault Refusal :=
  s.live fun s => s.snapBy m.id busy

/-- ELEPHANT_WINDOW_END (R348): WIN_EPOCHS boundary events have passed. -/
def execElephantWindowEnd (s : State) : Host.Outcome State Fault Refusal :=
  s.live fun s => s.eleWindow

/-- COUNTER_LOW_READ (R359): a read of the low word of a 64-bit counter. -/
def execCounterLowRead (m : Master) (addr : BitVec 26) (s : State) : Host.Outcome State Fault Refusal :=
  s.live fun s => s.readOut m.id addr.toNat

/-- COUNTER_HIGH_READ (R359): a read of the high word of a 64-bit counter. -/
def execCounterHighRead (m : Master) (addr : BitVec 26) (s : State) : Host.Outcome State Fault Refusal :=
  s.live fun s => s.readOut m.id addr.toNat

/-- COUNTER_PRESET (R360): a write of PMC_PRE_CTL.GO. -/
def execCounterPreset (m : Master) (s : State) : Host.Outcome State Fault Refusal :=
  s.live fun s => s.fabricWrite m.id (pgPmc + PMC_PRE_CTL.GO.off) 1

/-- FILTER_CFG_WRITE (R364): a write of PMC_FLT_CFGf. -/
def execFilterCfgWrite (m : Master) (pipe : Fin 8) (filter : Fin 16) (value : W32) (s : State) : Host.Outcome State Fault Refusal :=
  s.live fun s => s.fabricWrite m.id (pgPmcL pipe.val + PMC_FLT_CFGf.EN.off + 16 * filter.val) value.toNat

/-- PMC_WINDOW_END (R367): a multiple of the window length is crossed. -/
def execPmcWindowEnd (s : State) : Host.Outcome State Fault Refusal :=
  s.live fun s => s.pmcWindow

end Sys2Proof.Machine
end

