-- ==== Sys2Proof/Machine/TimeCommands.lean ====
section
/-!
DEFINITION. The meanings of the commands of clocks, the time base, boundaries and commits: one definition per row of the opcode table, over the
operations of the unit.
-/
namespace Sys2Proof.Machine

/-- REFERENCE_LOSS (R33): 64 phase-detector periods without an edge. -/
def execReferenceLoss (s : State) : Host.Outcome State Fault Refusal :=
  s.live fun s => s.upIo fun io => io.refLost

/-- REFERENCE_RETURN (R33): edges are seen again. -/
def execReferenceReturn (s : State) : Host.Outcome State Fault Refusal :=
  s.live fun s => s.refReturn

/-- LOOP_RELOCK (R33): the last loop has relocked. -/
def execLoopRelock (s : State) : Host.Outcome State Fault Refusal :=
  s.live fun s => s.loopRelock

/-- HOLDOVER_END (R33): 1 ms after the last loop relocked. -/
def execHoldoverEnd (s : State) : Host.Outcome State Fault Refusal :=
  s.live fun s => s.holdoverEnd

/-- LOCK_LOST (R58): the root synthesizer is out of lock. -/
def execLockLost (s : State) : Host.Outcome State Fault Refusal :=
  s.live fun s => s.lockLost

/-- DROOP_TRIP (R35): the sag a sensor sees, in mV. -/
def execDroopTrip (sensor : Fin 32) (sagMv : Nat) (s : State) : Host.Outcome State Fault Refusal :=
  s.live fun s => s.upIo fun io => io.droop sensor.val sagMv

/-- DIVISOR_RETURN (R36): the present sag of each of the 32 sensors, in mV. -/
def execDivisorReturn (region : Fin 11) (sagsMv : List Nat) (s : State) : Host.Outcome State Fault Refusal :=
  s.live fun s => s.divisorReturn region.val fun k => sagsMv.getD k 0

/-- STRETCH_LIMIT (R39): a region stays stretched past LIMIT_US. -/
def execStretchLimit (region : Fin 10) (s : State) : Host.Outcome State Fault Refusal :=
  s.live fun s => s.stretchLimit region.val

/-- TIME_STEP_RELATIVE (R41): EPC_STEP_CTL.GO with MODE 0. -/
def execTimeStepRelative (m : Master) (s : State) : Host.Outcome State Fault Refusal :=
  s.live fun s => s.fabricWrite m.id (pgEpc + EPC_STEP_CTL.GO.off) 1

/-- TIME_STEP_ABSOLUTE (R41): EPC_STEP_CTL.GO with MODE 1. -/
def execTimeStepAbsolute (m : Master) (s : State) : Host.Outcome State Fault Refusal :=
  s.live fun s => s.fabricWrite m.id (pgEpc + EPC_STEP_CTL.GO.off) 3

/-- TIME_NS_READ (R60): a read of EPC_TIME_NS. -/
def execTimeNsRead (m : Master) (s : State) : Host.Outcome State Fault Refusal :=
  s.live fun s => s.readOut m.id (pgEpc + EPC_TIME_NS.NS.off)

/-- BOUNDARY_EVENT (R44): the next multiple of 2^K is crossed. -/
def execBoundaryEvent (s : State) : Host.Outcome State Fault Refusal :=
  s.live fun s => s.boundaryEvent

/-- HELD_BOUNDARY (R45): a held boundary event occurs. -/
def execHeldBoundary (s : State) : Host.Outcome State Fault Refusal :=
  s.live fun s => s.heldBoundary

/-- DRAIN_COMPLETE (R51): nothing in flight uses the previous bank of the page any more. -/
def execDrainComplete (page : BitVec 26) (s : State) : Host.Outcome State Fault Refusal :=
  s.live fun s => s.drainComplete page.toNat

/-- SHADOW_COPY_DONE (R51): the bank copy of the page is complete. -/
def execShadowCopyDone (page : BitVec 26) (s : State) : Host.Outcome State Fault Refusal :=
  s.live fun s => s.shadowCopyDone page.toNat

/-- COMMIT_GO (R54): a write of EPC_COMMIT_CTL.GO. -/
def execCommitGo (m : Master) (s : State) : Host.Outcome State Fault Refusal :=
  s.live fun s => s.fabricWrite m.id (pgEpc + EPC_COMMIT_CTL.GO.off) 1

/-- COMMIT_ABORT (R55): a write of EPC_COMMIT_CTL.ABORT. -/
def execCommitAbort (m : Master) (s : State) : Host.Outcome State Fault Refusal :=
  s.live fun s => s.fabricWrite m.id (pgEpc + EPC_COMMIT_CTL.ABORT.off) 2

/-- SHADOW_ARM (R52): a write of PG_SHADOW_CTL.ARM, RD_SEL kept. -/
def execShadowArm (m : Master) (page : BitVec 26) (arm : Bool) (s : State) : Host.Outcome State Fault Refusal :=
  s.live fun s => s.pageWrite m.id page.toNat PG_SHADOW_CTL.ARM.off (b2n arm + 2 * s.pageGet page.toNat PG_SHADOW_CTL.RD_SEL)

end Sys2Proof.Machine
end

