-- ==== Sys2Proof/Machine/Dispatch.lean ====
section
/-!
DEFINITION. Which meaning a command has: one arm per constructor of `Instr`.
-/
namespace Sys2Proof.Machine

def exec (i : Instr) (s : State) : Host.Outcome State Fault Refusal :=
  match i with
  | .registerWrite m addr data wide => Sys2Proof.Machine.execRegisterWrite m addr data wide s
  | .badSizeAccess m addr size write => Sys2Proof.Machine.execBadSizeAccess m addr size write s
  | .unmappedAccess m addr write => Sys2Proof.Machine.execUnmappedAccess m addr write s
  | .softRst m page => Sys2Proof.Machine.execSoftRst m page s
  | .softResetDone page => Sys2Proof.Machine.execSoftResetDone page s
  | .irqForce m page bits => Sys2Proof.Machine.execIrqForce m page bits s
  | .irqRearm m mask => Sys2Proof.Machine.execIrqRearm m mask s
  | .msixResume vec masked => Sys2Proof.Machine.execMsixResume vec masked s
  | .semRead m n => Sys2Proof.Machine.execSemRead m n s
  | .semRelease m n value => Sys2Proof.Machine.execSemRelease m n value s
  | .semForce m mask => Sys2Proof.Machine.execSemForce m mask s
  | .ringConfigWrite m ring word value => Sys2Proof.Machine.execRingConfigWrite m ring word value s
  | .ringModTimer ring => Sys2Proof.Machine.execRingModTimer ring s
  | .ringDmaFail ring => Sys2Proof.Machine.execRingDmaFail ring s
  | .hostTxEntry ring entry => Sys2Proof.Machine.execHostTxEntry ring entry s
  | .hostTxFrameFetched ring frame => Sys2Proof.Machine.execHostTxFrameFetched ring frame s
  | .hostRxDeliver posted cells => Sys2Proof.Machine.execHostRxDeliver posted cells s
  | .featCommit m => Sys2Proof.Machine.execFeatCommit m s
  | .perstNAssert => Sys2Proof.Machine.execPerstNAssert s
  | .functionLevelReset => Sys2Proof.Machine.execFunctionLevelReset s
  | .mgmtRstNAssert => Sys2Proof.Machine.execMgmtRstNAssert s
  | .sysRstMgmt m => Sys2Proof.Machine.execSysRstMgmt m s
  | .managementReset => Sys2Proof.Machine.execManagementReset s
  | .managementResetEnd => Sys2Proof.Machine.execManagementResetEnd s
  | .powerOnReset => Sys2Proof.Machine.execPowerOnReset s
  | .chipRstNAssert => Sys2Proof.Machine.execChipRstNAssert s
  | .coldResetRelease testEn => Sys2Proof.Machine.execColdResetRelease testEn s
  | .strapSample levels => Sys2Proof.Machine.execStrapSample levels s
  | .bootStepComplete ms flash0 flash1 headsBad => Sys2Proof.Machine.execBootStepComplete ms flash0 flash1 headsBad s
  | .thermalTrip stack n => Sys2Proof.Machine.execThermalTrip stack n s
  | .supplyFault rail => Sys2Proof.Machine.execSupplyFault rail s
  | .stopPersist => Sys2Proof.Machine.execStopPersist s
  | .stopHalt => Sys2Proof.Machine.execStopHalt s
  | .thermWarn sensor celsius => Sys2Proof.Machine.execThermWarn sensor celsius s
  | .referenceLoss => Sys2Proof.Machine.execReferenceLoss s
  | .referenceReturn => Sys2Proof.Machine.execReferenceReturn s
  | .loopRelock => Sys2Proof.Machine.execLoopRelock s
  | .holdoverEnd => Sys2Proof.Machine.execHoldoverEnd s
  | .lockLost => Sys2Proof.Machine.execLockLost s
  | .droopTrip sensor sagMv => Sys2Proof.Machine.execDroopTrip sensor sagMv s
  | .divisorReturn region sagsMv => Sys2Proof.Machine.execDivisorReturn region sagsMv s
  | .stretchLimit region => Sys2Proof.Machine.execStretchLimit region s
  | .timeStepRelative m => Sys2Proof.Machine.execTimeStepRelative m s
  | .timeStepAbsolute m => Sys2Proof.Machine.execTimeStepAbsolute m s
  | .timeNsRead m => Sys2Proof.Machine.execTimeNsRead m s
  | .boundaryEvent => Sys2Proof.Machine.execBoundaryEvent s
  | .heldBoundary => Sys2Proof.Machine.execHeldBoundary s
  | .drainComplete page => Sys2Proof.Machine.execDrainComplete page s
  | .shadowCopyDone page => Sys2Proof.Machine.execShadowCopyDone page s
  | .commitGo m => Sys2Proof.Machine.execCommitGo m s
  | .commitAbort m => Sys2Proof.Machine.execCommitAbort m s
  | .shadowArm m page arm => Sys2Proof.Machine.execShadowArm m page arm s
  | .groupApply m group receiving => Sys2Proof.Machine.execGroupApply m group receiving s
  | .linkUp port anDone => Sys2Proof.Machine.execLinkUp port anDone s
  | .linkDown port receiving localFault remoteFault pcs => Sys2Proof.Machine.execLinkDown port receiving localFault remoteFault pcs s
  | .ltFail group => Sys2Proof.Machine.execLtFail group s
  | .linkHoldExpire port => Sys2Proof.Machine.execLinkHoldExpire port s
  | .frameReceive port frame badFec => Sys2Proof.Machine.execFrameReceive port frame badFec s
  | .pauseReceive port pfc classes quanta => Sys2Proof.Machine.execPauseReceive port pfc classes quanta s
  | .pauseTimerExpire port queue => Sys2Proof.Machine.execPauseTimerExpire port queue s
  | .xoffResend port => Sys2Proof.Machine.execXoffResend port s
  | .pfcWatchdog port queue => Sys2Proof.Machine.execPfcWatchdog port queue s
  | .pfcWdRecover port queue => Sys2Proof.Machine.execPfcWdRecover port queue s
  | .fecDegradeWindow port corrected symbols uncorrectable => Sys2Proof.Machine.execFecDegradeWindow port corrected symbols uncorrectable s
  | .txtsPop m group mask => Sys2Proof.Machine.execTxtsPop m group mask s
  | .ppsOutPulse => Sys2Proof.Machine.execPpsOutPulse s
  | .ppsOutEnd => Sys2Proof.Machine.execPpsOutEnd s
  | .ppsInEdge rising => Sys2Proof.Machine.execPpsInEdge rising s
  | .passAdmit pipe => Sys2Proof.Machine.execPassAdmit pipe s
  | .flowReadReturn pipe entry held => Sys2Proof.Machine.execFlowReadReturn pipe entry held s
  | .cacheInstall pipe entry held => Sys2Proof.Machine.execCacheInstall pipe entry held s
  | .cacheClean bank => Sys2Proof.Machine.execCacheClean bank s
  | .learnTake pipe => Sys2Proof.Machine.execLearnTake pipe s
  | .l2AgeVisit pipe index => Sys2Proof.Machine.execL2AgeVisit pipe index s
  | .flapWindowEnd pipe => Sys2Proof.Machine.execFlapWindowEnd pipe s
  | .arrayScanVisit kind part index shadowBad strikes => Sys2Proof.Machine.execArrayScanVisit kind part index shadowBad strikes s
  | .clsRead c => Sys2Proof.Machine.execClsRead c s
  | .clsWrite c => Sys2Proof.Machine.execClsWrite c s
  | .clsDelete c => Sys2Proof.Machine.execClsDelete c s
  | .clsSearch c => Sys2Proof.Machine.execClsSearch c s
  | .clsMove c => Sys2Proof.Machine.execClsMove c s
  | .searchProfileRead c => Sys2Proof.Machine.execSearchProfileRead c s
  | .searchProfileWrite c => Sys2Proof.Machine.execSearchProfileWrite c s
  | .actionProfileRead c => Sys2Proof.Machine.execActionProfileRead c s
  | .actionProfileWrite c => Sys2Proof.Machine.execActionProfileWrite c s
  | .actionProfileDelete c => Sys2Proof.Machine.execActionProfileDelete c s
  | .templateWrite c => Sys2Proof.Machine.execTemplateWrite c s
  | .l2Read c => Sys2Proof.Machine.execL2Read c s
  | .l2Write c => Sys2Proof.Machine.execL2Write c s
  | .l2Delete c => Sys2Proof.Machine.execL2Delete c s
  | .l2Flush c => Sys2Proof.Machine.execL2Flush c s
  | .l2ReadAt c => Sys2Proof.Machine.execL2ReadAt c s
  | .lpmWrite c => Sys2Proof.Machine.execLpmWrite c s
  | .lpmDelete c => Sys2Proof.Machine.execLpmDelete c s
  | .lpmRead c => Sys2Proof.Machine.execLpmRead c s
  | .lpmSearch c => Sys2Proof.Machine.execLpmSearch c s
  | .flowRead c ends => Sys2Proof.Machine.execFlowRead c ends s
  | .flowWrite c ends => Sys2Proof.Machine.execFlowWrite c ends s
  | .flowDelete c ends => Sys2Proof.Machine.execFlowDelete c ends s
  | .flowSearch c ends => Sys2Proof.Machine.execFlowSearch c ends s
  | .flowWalk c => Sys2Proof.Machine.execFlowWalk c s
  | .flowReadBucket c ends => Sys2Proof.Machine.execFlowReadBucket c ends s
  | .accountRead c ends => Sys2Proof.Machine.execAccountRead c ends s
  | .accountWrite c => Sys2Proof.Machine.execAccountWrite c s
  | .accountDelete c => Sys2Proof.Machine.execAccountDelete c s
  | .readMap c => Sys2Proof.Machine.execReadMap c s
  | .writeMap c => Sys2Proof.Machine.execWriteMap c s
  | .lbSlotsRead c => Sys2Proof.Machine.execLbSlotsRead c s
  | .lbSlotsWrite c => Sys2Proof.Machine.execLbSlotsWrite c s
  | .writeMember c => Sys2Proof.Machine.execWriteMember c s
  | .setState c => Sys2Proof.Machine.execSetState c s
  | .lbWritePool c => Sys2Proof.Machine.execLbWritePool c s
  | .readMember c => Sys2Proof.Machine.execReadMember c s
  | .readPool c => Sys2Proof.Machine.execReadPool c s
  | .natWritePool c => Sys2Proof.Machine.execNatWritePool c s
  | .natSearch c => Sys2Proof.Machine.execNatSearch c s
  | .readBlock c => Sys2Proof.Machine.execReadBlock c s
  | .writeAddr c => Sys2Proof.Machine.execWriteAddr c s
  | .writePrefix c => Sys2Proof.Machine.execWritePrefix c s
  | .zoneTimeoutRead c => Sys2Proof.Machine.execZoneTimeoutRead c s
  | .zoneTimeoutWrite c => Sys2Proof.Machine.execZoneTimeoutWrite c s
  | .claimStart => Sys2Proof.Machine.execClaimStart s
  | .claimReadReturn => Sys2Proof.Machine.execClaimReadReturn s
  | .claimHalvesAccepted => Sys2Proof.Machine.execClaimHalvesAccepted s
  | .claimHeaderAccepted => Sys2Proof.Machine.execClaimHeaderAccepted s
  | .relocNewAccepted => Sys2Proof.Machine.execRelocNewAccepted s
  | .fenceClose => Sys2Proof.Machine.execFenceClose s
  | .stashDrain entry => Sys2Proof.Machine.execStashDrain entry s
  | .stashPlaceAccepted => Sys2Proof.Machine.execStashPlaceAccepted s
  | .removalStart => Sys2Proof.Machine.execRemovalStart s
  | .removalWaitEnd => Sys2Proof.Machine.execRemovalWaitEnd s
  | .removalFinalRead ends => Sys2Proof.Machine.execRemovalFinalRead ends s
  | .agingWalkVisit ends => Sys2Proof.Machine.execAgingWalkVisit ends s
  | .routineStart seq => Sys2Proof.Machine.execRoutineStart seq s
  | .microwordIssue seq ctx how => Sys2Proof.Machine.execMicrowordIssue seq ctx how s
  | .memResponse seq ctx op ends => Sys2Proof.Machine.execMemResponse seq ctx op ends s
  | .waitSatisfied seq ctx => Sys2Proof.Machine.execWaitSatisfied seq ctx s
  | .contextTimerExpire seq ctx => Sys2Proof.Machine.execContextTimerExpire seq ctx s
  | .lockGrant seq ctx => Sys2Proof.Machine.execLockGrant seq ctx s
  | .commitAccepted seq ctx => Sys2Proof.Machine.execCommitAccepted seq ctx s
  | .deadlineFault pipe ctx entry => Sys2Proof.Machine.execDeadlineFault pipe ctx entry s
  | .sliceFault seq ctx => Sys2Proof.Machine.execSliceFault seq ctx s
  | .pipStop m seq => Sys2Proof.Machine.execPipStop m seq s
  | .pipResume m seq => Sys2Proof.Machine.execPipResume m seq s
  | .pipLoadGo m seq => Sys2Proof.Machine.execPipLoadGo m seq s
  | .pipLoadChecked seq image dmaOk => Sys2Proof.Machine.execPipLoadChecked seq image dmaOk s
  | .pipInstall seq => Sys2Proof.Machine.execPipInstall seq s
  | .nanoRefetchDone seq ctx index ok => Sys2Proof.Machine.execNanoRefetchDone seq ctx index ok s
  | .dramCommandIssue pc aged err => Sys2Proof.Machine.execDramCommandIssue pc aged err s
  | .dramWriteAccept pc => Sys2Proof.Machine.execDramWriteAccept pc s
  | .dramReadComplete pc how => Sys2Proof.Machine.execDramReadComplete pc how s
  | .refreshDue pc bank celsius faults => Sys2Proof.Machine.execRefreshDue pc bank celsius faults s
  | .retrainStart stack ch => Sys2Proof.Machine.execRetrainStart stack ch s
  | .retrainEnd stack ch ok => Sys2Proof.Machine.execRetrainEnd stack ch ok s
  | .pcFreeze m pc => Sys2Proof.Machine.execPcFreeze m pc s
  | .pcRelease m pc => Sys2Proof.Machine.execPcRelease m pc s
  | .releaseRetrainDone pc => Sys2Proof.Machine.execReleaseRetrainDone pc s
  | .repairEntry stack ends => Sys2Proof.Machine.execRepairEntry stack ends s
  | .rowRetire m stack pc bank row => Sys2Proof.Machine.execRowRetire m stack pc bank row s
  | .pcRetire m stack pc => Sys2Proof.Machine.execPcRetire m stack pc s
  | .rebuildLine stack ends => Sys2Proof.Machine.execRebuildLine stack ends s
  | .rebuildDone stack => Sys2Proof.Machine.execRebuildDone stack s
  | .diagRead m stack pc => Sys2Proof.Machine.execDiagRead m stack pc s
  | .diagWrite m stack pc => Sys2Proof.Machine.execDiagWrite m stack pc s
  | .diagDone stack raw => Sys2Proof.Machine.execDiagDone stack raw s
  | .scrubRead => Sys2Proof.Machine.execScrubRead s
  | .bwWindowEnd stack => Sys2Proof.Machine.execBwWindowEnd stack s
  | .txFrameStart port => Sys2Proof.Machine.execTxFrameStart port s
  | .txFrameDone port cells => Sys2Proof.Machine.execTxFrameDone port cells s
  | .qFlush m port mask => Sys2Proof.Machine.execQFlush m port mask s
  | .watermarkWrite m queue value => Sys2Proof.Machine.execWatermarkWrite m queue value s
  | .tokenRefill => Sys2Proof.Machine.execTokenRefill s
  | .gateChange port => Sys2Proof.Machine.execGateChange port s
  | .listStart port => Sys2Proof.Machine.execListStart port s
  | .messageFlush => Sys2Proof.Machine.execMessageFlush s
  | .templateSend m refresh => Sys2Proof.Machine.execTemplateSend m refresh s
  | .templateRefresh => Sys2Proof.Machine.execTemplateRefresh s
  | .startRecordRead ends => Sys2Proof.Machine.execStartRecordRead ends s
  | .snapshotPeriodic busy => Sys2Proof.Machine.execSnapshotPeriodic busy s
  | .snapNow m busy => Sys2Proof.Machine.execSnapNow m busy s
  | .elephantWindowEnd => Sys2Proof.Machine.execElephantWindowEnd s
  | .counterLowRead m addr => Sys2Proof.Machine.execCounterLowRead m addr s
  | .counterHighRead m addr => Sys2Proof.Machine.execCounterHighRead m addr s
  | .counterPreset m => Sys2Proof.Machine.execCounterPreset m s
  | .filterCfgWrite m pipe filter value => Sys2Proof.Machine.execFilterCfgWrite m pipe filter value s
  | .pmcWindowEnd => Sys2Proof.Machine.execPmcWindowEnd s
  | .sweepVisit ends => Sys2Proof.Machine.execSweepVisit ends s
  | .sweepColdRead ends => Sys2Proof.Machine.execSweepColdRead ends s
  | .sweepRolledAccepted => Sys2Proof.Machine.execSweepRolledAccepted s
  | .finalRoll ends => Sys2Proof.Machine.execFinalRoll ends s
  | .lostRecordRead ends => Sys2Proof.Machine.execLostRecordRead ends s
  | .closeEntryRead bitmapLost ends => Sys2Proof.Machine.execCloseEntryRead bitmapLost ends s
  | .blockTagged => Sys2Proof.Machine.execBlockTagged s
  | .headPersisted => Sys2Proof.Machine.execHeadPersisted s
  | .blockToRing lost => Sys2Proof.Machine.execBlockToRing lost s
  | .alivePersist => Sys2Proof.Machine.execAlivePersist s
  | .keyLoad m => Sys2Proof.Machine.execKeyLoad m s
  | .keyUnwrapDone => Sys2Proof.Machine.execKeyUnwrapDone s
  | .cphBind m page value => Sys2Proof.Machine.execCphBind m page value s
  | .cphViolation m page offset write => Sys2Proof.Machine.execCphViolation m page offset write s
  | .cphKeyLoad m page => Sys2Proof.Machine.execCphKeyLoad m page s
  | .cphKeyLoadDone page => Sys2Proof.Machine.execCphKeyLoadDone page s
  | .zeroize m page => Sys2Proof.Machine.execZeroize m page s
  | .cphJobGo m page => Sys2Proof.Machine.execCphJobGo m page s
  | .cphJobAbort m page done input => Sys2Proof.Machine.execCphJobAbort m page done input s
  | .engineGrant engine => Sys2Proof.Machine.execEngineGrant engine s
  | .segmentDone engine input dmaOk => Sys2Proof.Machine.execSegmentDone engine input dmaOk s
  | .rngFail => Sys2Proof.Machine.execRngFail s
  | .rngRecover => Sys2Proof.Machine.execRngRecover s
  | .mbxBindWrite m ch value => Sys2Proof.Machine.execMbxBindWrite m ch value s
  | .mbxViolation m ch offset write => Sys2Proof.Machine.execMbxViolation m ch offset write s
  | .mbxPost m ch value => Sys2Proof.Machine.execMbxPost m ch value s
  | .mbxTake m ch => Sys2Proof.Machine.execMbxTake m ch s
  | .mbxAckWrite m ch value => Sys2Proof.Machine.execMbxAckWrite m ch value s
  | .doorbellSet m ch bits => Sys2Proof.Machine.execDoorbellSet m ch bits s
  | .doorbellClear m ch bits => Sys2Proof.Machine.execDoorbellClear m ch bits s
  | .doorbellMaskWrite m ch mask => Sys2Proof.Machine.execDoorbellMaskWrite m ch mask s
  | .mbxDeclareReset m => Sys2Proof.Machine.execMbxDeclareReset m s
  | .stackLinkUp link peer peerLink => Sys2Proof.Machine.execStackLinkUp link peer peerLink s
  | .stackLinkDown link => Sys2Proof.Machine.execStackLinkDown link s
  | .stackFrameRx link frame => Sys2Proof.Machine.execStackFrameRx link frame s
  | .steerRx link => Sys2Proof.Machine.execSteerRx link s
  | .dataRx link => Sys2Proof.Machine.execDataRx link s
  | .helloRx link => Sys2Proof.Machine.execHelloRx link s
  | .helloSend => Sys2Proof.Machine.execHelloSend s
  | .timeRx link => Sys2Proof.Machine.execTimeRx link s
  | .timeSend => Sys2Proof.Machine.execTimeSend s
  | .delayReqRx link => Sys2Proof.Machine.execDelayReqRx link s
  | .delayReqSend => Sys2Proof.Machine.execDelayReqSend s
  | .delayRespRx link => Sys2Proof.Machine.execDelayRespRx link s
  | .prepareSend => Sys2Proof.Machine.execPrepareSend s
  | .prepareRx link => Sys2Proof.Machine.execPrepareRx link s
  | .preparedRx link => Sys2Proof.Machine.execPreparedRx link s
  | .refusedRx link => Sys2Proof.Machine.execRefusedRx link s
  | .decideSend => Sys2Proof.Machine.execDecideSend s
  | .decideRx link => Sys2Proof.Machine.execDecideRx link s
  | .timeLost => Sys2Proof.Machine.execTimeLost s
  | .peerLiveExpire device => Sys2Proof.Machine.execPeerLiveExpire device s
  | .handback m => Sys2Proof.Machine.execHandback m s
  | .cascEpochEdge skewNs => Sys2Proof.Machine.execCascEpochEdge skewNs s
  | .cascEpochRelease => Sys2Proof.Machine.execCascEpochRelease s
  | .rmtGo m write => Sys2Proof.Machine.execRmtGo m write s
  | .rmtReqRx link => Sys2Proof.Machine.execRmtReqRx link s
  | .rmtRspRx link => Sys2Proof.Machine.execRmtRspRx link s
  | .rmtTimeout => Sys2Proof.Machine.execRmtTimeout s
  | .sramScrub word index found inUse ends => Sys2Proof.Machine.execSramScrub word index found inUse ends s
  | .errorLogWritten => Sys2Proof.Machine.execErrorLogWritten s
  | .fwLoad m => Sys2Proof.Machine.execFwLoad m s
  | .fwCheckDone image dmaOk => Sys2Proof.Machine.execFwCheckDone image dmaOk s
  | .fwProgramDone ok => Sys2Proof.Machine.execFwProgramDone ok s
  | .fwYield m => Sys2Proof.Machine.execFwYield m s
  | .yieldTimeout => Sys2Proof.Machine.execYieldTimeout s
  | .fwWarmStart => Sys2Proof.Machine.execFwWarmStart s
  | .fwAlive m limitMs => Sys2Proof.Machine.execFwAlive m limitMs s
  | .fwWdogExpire other => Sys2Proof.Machine.execFwWdogExpire other s
  | .mcKick m limitMs => Sys2Proof.Machine.execMcKick m limitMs s
  | .mcWdogExpire => Sys2Proof.Machine.execMcWdogExpire s
  | .inlineWrite m on => Sys2Proof.Machine.execInlineWrite m on s
  | .avsWrite m value => Sys2Proof.Machine.execAvsWrite m value s
  | .i2cTransaction addr data => Sys2Proof.Machine.execI2cTransaction addr data s
  | .pcieLinkDown => Sys2Proof.Machine.execPcieLinkDown s
  | .pcieLinkUp speed width => Sys2Proof.Machine.execPcieLinkUp speed width s
  | .perstNDeassert => Sys2Proof.Machine.execPerstNDeassert s
  | .configWrite w => Sys2Proof.Machine.execConfigWrite w s
  | .stackFrameTx link cells => Sys2Proof.Machine.execStackFrameTx link cells s
  | .ledTimerExpire led => Sys2Proof.Machine.execLedTimerExpire led s

end Sys2Proof.Machine
end

