-- ==== Sys2Proof/Machine/Step.lean ====
section
/-!
DEFINITION. A step takes the command at the front of the queue; on an empty queue one core tick passes.
-/
namespace Sys2Proof.Machine

/-- The device idles: one core tick passes while its clocks run, which is until the end of the stop sequence (R40, R473). -/
def State.tickIdle (s : State) : State :=
  if s.io.sys.phase = .running ∨ s.io.sys.phase = .stopping then s.tickN 1 else s

/-- One step of the device. -/
def step (s : State) : Host.Outcome State Fault Refusal :=
  match s.pending with
  | [] => .next s.tickIdle
  | c :: rest => exec c { s with pending := rest }

/-- The command a word spells, put at the front of the queue. -/
def State.withFetchWord (s : State) (nbits w : Nat) : State :=
  match decodeTableWord nbits w with
  | none => s
  | some c => { s with pending := c :: s.pending }

end Sys2Proof.Machine
end

