-- ==== Sys2Proof/Safety.lean ====
section
/-!
DEFINITION. The terms statements are made in: when a command completes, what a next state leaves as it was, when the device and
one of its pages take a register write, and when a device is stopped for good.
-/
namespace Sys2Proof.Machine

/-- The command answers a next state, and `P` holds of it. -/
def Completes (c : Instr) (s : State) (P : State → Prop) : Prop := ∃ t, exec c s = .next t ∧ P t

/-- The command answers the state it found. -/
def NoEffect (c : Instr) (s : State) : Prop := exec c s = .next s

/-- Nothing but register words changed: every other field of the state, the RWS copies among them, is as it was. -/
def OnlyRegs (s t : State) : Prop := t = { s with io := { s.io with regs := t.io.regs } }

/-- Beside register words only MSI-X messages left and Pending Bits changed. -/
def OnlyIrq (s t : State) : Prop :=
  t = { s with io := { s.io with regs := t.io.regs, pcie := { s.io.pcie with pend := t.io.pcie.pend }, out := t.io.out } } ∧
  ∃ l, t.io.out = l ++ s.io.out ∧ ∀ o ∈ l, ∃ v a d, o = .msix v a d

/-- Nothing changed outside the registers, the pins and what every page shares. -/
def OnlyIo (s t : State) : Prop := t = { s with io := t.io }

/-- Every register word whose address `p` does not name reads as before. -/
def KeepsWords (p : Nat → Prop) (s t : State) : Prop := ∀ a, ¬ p a → t.io.rd a = s.io.rd a

/-- The addresses of the page at `base`. -/
def inPage (base a : Nat) : Prop := base ≤ a ∧ a < base + 0x1000

/-- A write of master `m` at address `a` reaches its register: the device runs, the page is READY, not in soft reset, and the
master is not a stranger to it (R71, R408, R430, R504). -/
def State.reaches (s : State) (m : Master) (a : Nat) : Bool := s.on && s.takesWrite m.id a

/-- The canonical form of the DRAM's contents: line addresses strictly rising, no listed line equal to 0. -/
def Memory.wf (m : SMap Line) : Bool := m.wf fun _ => 0

/-- The registers, the layer 2 tables and the DRAM are in canonical form. -/
def State.canonical (s : State) : Bool := s.io.regs.wf resetWord && s.fwd.l2.wf (fun _ => 0) && Memory.wf s.fmc.mem

/-- The device is stopped, and nothing it awaits would start it again (R473). -/
def State.stopped (s : State) : Bool := s.io.sys.phase == .halted

/-! ### Passes -/

/-- A first pass of pipeline `p` is admitted, with the parser's verdict `r`: `k` waits next in `s`, and `u` is what is left without it. -/
def State.admitsFirst (s u : State) (p : Nat) (k : Pkt) (r : Parsed) : Prop :=
  (s.missesOf p).length < 1024 ∧ s.nextPass p = some (k, u) ∧ k.pass = 0 ∧
  r = u.io.parse p k.bytes ⟨k.inPort, u.bankTag p / 4 % 2, 0, k.zone, k.hashLayer⟩

/-- The pass is sound, its search profile stands, and this device owns its flow (R129, R464, R475). -/
def State.looksUp (s u : State) (p : Nat) (k : Pkt) (r : Parsed) : Prop :=
  r.hv.malClass = 0 ∧ u.searchGone p { r.hv with bank := u.bankTag p % 2 } = false ∧
  (s.deepen = false ∨ k.injected = true ∨ k.steered = true ∨
    r.hv.hash % max 1 (s.get pgCsc CSC_CFG.DEVICES) = s.get pgCsc CSC_STAT.ID)

/-! ### Boundary events -/

/-- The boundary event measured at count `c` takes place: the epoch number rises by 1 and BOUNDARY is raised; outside a cascade the
commit armed for the new number is made, and with none due nothing but tokens, the registers, Quince and the queue of events changes. -/
def BoundaryTaken (s t : State) (c : Nat) : Prop :=
  t.get pgEpc EPC_EPOCH_NUM.NUM = (s.get pgEpc EPC_EPOCH_NUM.NUM + 1) % 2 ^ 32 ∧ t.io.cause pgEpc 0 = true ∧
  t.io.time.lastBoundary = some c ∧ t.io.time.held = false ∧
  (s.cascOn = false → s.io.time.armed = some ((s.get pgEpc EPC_EPOCH_NUM.NUM + 1) % 2 ^ 32) →
    t.io.time.armed = none ∧ t.get pgEpc EPC_COMMIT_STAT.STATE = 2 ∧ t.io.cause pgEpc 1 = true) ∧
  (s.cascOn = false → s.io.time.armed ≠ some ((s.get pgEpc EPC_EPOCH_NUM.NUM + 1) % 2 ^ 32) →
    t.io.time.armed = s.io.time.armed ∧ t = { s with io := t.io, buf := t.buf, qnc := t.qnc, pip := t.pip })

/-! ### Insertion -/

/-- The command answers a next state: first one of which `P` holds, from which claims of routines that have ended are withdrawn,
withdrawals that waited for their buckets run, and held WRITEs go on (R182, R192, R250). -/
def Settles (c : Instr) (s : State) (P : State → Prop) : Prop :=
  ∃ u, P u ∧ exec c s = .next { u.afterClaims with pending := s.pending }

/-- No host command is held, no claim's routine has ended, and no withdrawal waits. -/
def State.quiet (s : State) : Prop :=
  (∀ q, s.jobs.get none q = none) ∧ (∀ c ∈ s.flow.claims, c.owner ≠ 1024) ∧ s.flow.undo = []

/-- Claim `c` has answered with `code`: its locks are free, the waiting claims of its identity have answered with it, as EXISTS where it
has a record, and every other claim stands as it was (R177, R178). -/
def Answered (s u : State) (c : Claim) (code : Nat) : Prop :=
  u.flow.claims.map Claim.id = s.flow.claims.map Claim.id ∧
  (∀ x ∈ u.flow.claims, x.id = c.id → x = { c with stage := .done, code := some code }) ∧
  (∀ y ∈ s.flow.claims, y.id ≠ c.id → y.stage = .queued → y.hash = c.hash → y.key = c.key →
    ∀ x ∈ u.flow.claims, x.id = y.id → x.stage = .done ∧ x.r = c.r ∧ x.code = some (if code = 0 then 13 else code)) ∧
  (∀ i, i ≠ c.id → (∀ y ∈ s.flow.claims, y.id = i → ¬ (y.stage = .queued ∧ y.hash = c.hash ∧ y.key = c.key)) →
    u.claim i = s.claim i) ∧
  u.flow.locks = s.flow.locks.filter fun e => e.2 != c.id

/-- Claim `c` stands in its new form `d`, and every other claim as it was. -/
def Advanced (s u : State) (c d : Claim) : Prop := u.flow.claims = s.flow.claims.map fun x => if x.id == c.id then d else x

/-! ### Received stack frames -/

/-- The oldest waiting frame of link `k` is `f`, received at `at'`, of this type and, for CONTROL, this code; `rest` follow it (R449). -/
def State.heads (s : State) (k typ code at' : Nat) (f : List Byte) (rest : List (Nat × List Byte)) : Prop :=
  s.csc.rx.get [] k = (at', f) :: rest ∧ sfType f = typ ∧ (typ = 0 → sfCode f = code)

/-- The frames of link `k` that wait are `rest`. -/
def State.rxDone (s : State) (k : Nat) (rest : List (Nat × List Byte)) : State :=
  { s with csc := { s.csc with rx := s.csc.rx.set [] k rest } }

/-! ### Table commands -/

/-- The next command of a queue is `c`, it passes the checks of R88 on flags and mask, its INDIRECT buffer, if it has one, can be
reached (R89), and it names the one part `p`. -/
def State.takesPart (s : State) (c : Cmd) (valid p : Nat) : Prop :=
  s.on = true ∧ s.cmdWaiting c = true ∧ c.known = true ∧ c.flags.toNat / 4 = 0 ∧ dmaFails c = false ∧ c.partList = [p] ∧ valid.testBit p = true

/-- Host address of the entry a command queue's device index stands at. -/
def State.entryOf (s : State) (c : Cmd) : Nat :=
  s.io.ringBase c.ring + 64 * (s.io.wcount.get 0 c.ring % s.io.ringSize c.ring)

/-- The command of queue `c.queue` is over, and nothing else changed outside the registers, the pins and what every page shares. -/
def OnlyStatus (c : Cmd) (s t : State) : Prop := t = { s.unhold c.queue.val with io := t.io }

/-- The entry is consumed, and its 16 B status gives `rs`, the results of its parts (R82, R87). -/
def StatusIs (c : Cmd) (rs : List (Nat × Res)) (s t : State) : Prop :=
  t.io.wcount.get 0 c.ring = s.io.wcount.get 0 c.ring + 1 ∧
  t.get (pgRing c.ring) RING_CONS.IDX = (s.io.wcount.get 0 c.ring + 1) % s.io.ringSize c.ring % 2 ^ 16 ∧
  .dma (s.entryOf c + 48) (statusBytes c (s.io.phase c.ring (s.io.wcount.get 0 c.ring)) rs) ∈ t.io.out

/-- A command of the one part `p` ends with result `r`: its status, and its data in the INDIRECT buffer or in DATA (R87). -/
def Answers (c : Cmd) (p : Nat) (r : Res) (s t : State) : Prop :=
  StatusIs c [(p, r)] s t ∧
  (r.data ≠ [] → (if c.indirect = true then Out.dma (c.addr + r.off) (r.data.take (c.len - r.off))
    else Out.dma (s.entryOf c + 16) (r.data.take 32)) ∈ t.io.out)

/-- The commands of the table queues (R87). -/
def tableRows (c : Cmd) (es : List ReadEnd) : List Instr :=
  [.clsRead c, .clsWrite c, .clsDelete c, .clsSearch c, .clsMove c, .searchProfileRead c, .searchProfileWrite c,
   .actionProfileRead c, .actionProfileWrite c, .actionProfileDelete c, .templateWrite c, .l2Read c, .l2Write c, .l2Delete c,
   .l2Flush c, .l2ReadAt c, .lpmWrite c, .lpmDelete c, .lpmRead c, .lpmSearch c, .flowRead c es, .flowWrite c es,
   .flowDelete c es, .flowSearch c es, .flowWalk c, .flowReadBucket c es, .accountRead c es, .accountWrite c, .accountDelete c,
   .readMap c, .writeMap c, .lbSlotsRead c, .lbSlotsWrite c, .writeMember c, .setState c, .lbWritePool c, .readMember c,
   .readPool c, .natWritePool c, .natSearch c, .readBlock c, .writeAddr c, .writePrefix c, .zoneTimeoutRead c,
   .zoneTimeoutWrite c]

end Sys2Proof.Machine
end

