-- ==== Sys2Proof/Certificates/Slice0/Obligations.lean ====
section
/-!
DEFINITION. The statements about the device for the provers, family by family of the command table.
-/
open Sys2Proof Sys2Proof.Machine

/-! ### The block as a whole -/

/-- The step of the block: the command at the front of the queue is executed on the state with the rest of the queue. With an empty
queue one core tick passes while the clocks run (R40; the tick on an empty queue is the model's choice, log entry 3) and nothing
happens while the device is held or stopped. -/
def Obligations.StepTakesTheFront : Prop :=
  (∀ (s : State) (c : Instr) (l : List Instr), s.pending = c :: l → step s = exec c { s with pending := l }) ∧
  (∀ s : State, s.pending = [] → s.io.sys.phase = .held ∨ s.io.sys.phase = .halted → step s = .next s) ∧
  (∀ s : State, s.pending = [] → s.io.sys.phase = .running ∨ s.io.sys.phase = .stopping →
    ∃ t, step s = .next t ∧ t.io.time.ns = s.io.time.ns + (s.io.time.sub + s.io.tickInc) / subUnit ∧
      t.io.time.sub = (s.io.time.sub + s.io.tickInc) % subUnit ∧ OnlyIo s t)

/-- Every command answers a next state on every state, the queue behind it as it was; a device in cold reset or stopped acts on nothing
but its resets and the host link's reset pin (R473, R496 to R498; that a command whose condition is not met leaves the state is the
model's form, log entry 2). -/
def Obligations.EveryStepAnswers : Prop :=
  ∀ (s : State) (c : Instr),
    (∃ t, exec c s = .next t ∧ t.pending = s.pending) ∧
    (s.io.sys.phase = .held ∨ s.io.sys.phase = .halted →
      c ≠ .perstNAssert → c ≠ .perstNDeassert → c ≠ .powerOnReset → c ≠ .chipRstNAssert → (∀ b, c ≠ .coldResetRelease b) →
      NoEffect c s)

/-- The state reset leaves: no command waits, the device runs at boot step 1, every register of every page reads its reset value, the
table memories read zero and every store is in its canonical form (R498, R501). -/
def Obligations.ResetState : Prop :=
  State.reset.pending = [] ∧ State.reset.io.sys.phase = .running ∧ State.reset.io.step = 1 ∧ State.reset.io.sysReady = false ∧
  (∀ a : Nat, State.reset.io.rd a = resetWord a) ∧ (∀ a : Nat, State.reset.io.rd64 a = (resetWord (a + 4) ++ resetWord a).toNat) ∧
  State.reset.io.time.counted = 0 ∧ State.reset.io.out = [] ∧ State.reset.flow.claims = [] ∧
  (∀ p i : Nat, State.reset.l2At p i = 0) ∧ State.reset.canonical = true

/-- The register file, the layer-2 table and the DRAM keep their canonical form on every step: addresses strictly rising and no entry
equal to what an unlisted address reads as (R66, R498), so that equal contents are equal data. -/
def Obligations.StoresStayCanonical : Prop :=
  ∀ s t : State, s.canonical = true → step s = .next t → t.canonical = true

/-- R473: a device whose stop sequence has ended stays stopped on every step until a reset of the whole device is commanded: its time
base stands, its buffer, flow unit and DRAM are as they were, and nothing but the host link's reset pin changes any state. -/
def Obligations.StoppedStays : Prop :=
  ∀ s t : State, s.stopped = true → .powerOnReset ∉ s.pending → .chipRstNAssert ∉ s.pending → step s = .next t →
    t.stopped = true ∧ .powerOnReset ∉ t.pending ∧ .chipRstNAssert ∉ t.pending ∧ t.io.time = s.io.time ∧ t.buf = s.buf ∧
    t.flow = s.flow ∧ t.fmc = s.fmc ∧
    (s.pending.head? ≠ some .perstNAssert → s.pending.head? ≠ some .perstNDeassert → t = { s with pending := s.pending.tail })

/-! ### The register fabric and the host interface -/

/-- R7, R13, R68: a register of a page whose registers have the plain access types takes RW bits, clears W1C bits written as 1 and keeps
the rest; an address in no page is counted and changes nothing else; an access of a wrong size is counted with TYPE 0 and has no
other effect. -/
def Obligations.RegisterAccess : Prop :=
  ∀ (s : State) (m : Master) (a : BitVec 26), s.on = true →
    (∀ (v : W32) (pg : Page) (h : Hit), s.takesWrite m.id a.toNat = true → pageOf a.toNat = some pg →
      pg.kind = .clk ∨ pg.kind = .sch0 ∨ pg.kind = .schp → a.toNat % 4 = 0 → 0x040 ≤ a.toNat - pg.base →
      pg.kind.regAt (a.toNat - pg.base) = some h →
      Completes (.registerWrite m a (v.setWidth 64) false) s (fun t =>
        t.io.rd a.toNat = ((s.io.rd a.toNat &&& ~~~ wordMask h.row.rw h.word) ||| (v &&& wordMask h.row.rw h.word)) &&&
          ~~~ (v &&& wordMask h.row.w1c h.word) ∧
        OnlyRegs s t ∧ KeepsWords (· = a.toNat) s t)) ∧
    (∀ w, pageOf a.toNat = none → Completes (.unmappedAccess m a w) s (fun t =>
      t.get pgSys HIF_UNMAPPED_CNT.COUNT = (s.get pgSys HIF_UNMAPPED_CNT.COUNT + 1) % 2 ^ 32 ∧
      t = { s with io := { s.io with regs := t.io.regs, out := (if w then [] else [.read m.id 0]) ++ s.io.out } } ∧
      KeepsWords (· = pgSys + HIF_UNMAPPED_CNT.COUNT.off) s t)) ∧
    (∀ pg, pageOf a.toNat = some pg → ∀ w, NoEffect (.unmappedAccess m a w) s) ∧
    (∀ (pg : Page) (size : Nat) (w : Bool), pageOf a.toNat = some pg → s.stranger pg m.id = false →
      ¬ ((size = 4 ∨ size = 8) ∧ a.toNat % 4 = 0) → pipeOfAddr a.toNat = none →
      Completes (.badSizeAccess m a size w) s (fun t =>
        t.get pg.base PG_ERR_CNT.COUNT = min (2 ^ 32 - 1) (s.get pg.base PG_ERR_CNT.COUNT + 1) ∧
        (s.get pg.base PG_ERR_CAP.VALID = 0 → t.get pg.base PG_ERR_CAP.VALID = 1 ∧ t.get pg.base PG_ERR_CAP.TYPE = 0 ∧
          t.get pg.base PG_ERR_CAP.MASTER = m.id) ∧
        (s.get pg.base PG_ERR_CAP.VALID = 1 → t.io.rd (pg.base + 0x1C) = s.io.rd (pg.base + 0x1C)) ∧
        t = { s with io := { s.io with regs := t.io.regs, out := (if w then [] else [.read m.id 0]) ++ s.io.out } } ∧
        KeepsWords (fun b => b = pg.base + 0x1C ∨ b = pg.base + 0x20) s t))

/-- R69, R71: SOFT_RST sets RST_BUSY and keeps EN; the end of a soft reset clears the causes, the error registers, the two sticky bits
of PG_SHADOW_CTL, and what the page's own chapter names: learn events, transmit timestamps, the completions a ring has counted. A
write of PG_IRQ_FORCE sets the causes it names; in a page outside the pipelines it and SOFT_RST change nothing else. R73:
SYS_IRQ_REARM sends the message of each named source whose level is still 1; masking or unmasking a vector sets its mask bit, and
once the function may send and the vector is unmasked no Pending Bit stays set. -/
def Obligations.PageHeaderAndMessages : Prop :=
  (∀ (s : State) (m : Master) (a : BitVec 26) (pg : Page), s.on = true → pageOf a.toNat = some pg →
     (s.stranger pg m.id = false → s.io.ready pg.kind = true → pg.kind ≠ .mbxch →
       Completes (.softRst m a) s (fun t =>
         t.get pg.base PG_STAT.RST_BUSY = 1 ∧ t.get pg.base PG_CTL.EN = s.get pg.base PG_CTL.EN ∧ OnlyIo s t ∧
         (pipeOfAddr pg.base = none → OnlyRegs s t ∧
           KeepsWords (fun b => b = pg.base + PG_CTL.EN.off ∨ b = pg.base + PG_STAT.RST_BUSY.off) s t)) ∧
       ∀ bits : W32, Completes (.irqForce m a bits) s (fun t =>
         t.io.rd (pg.base + 0x10)
           = s.io.rd (pg.base + 0x10) ||| (if pg.kind = .ring then bits &&& 0xF#32 else bits) ∧ OnlyIo s t ∧
         (pipeOfAddr pg.base = none → OnlyIrq s t ∧ KeepsWords (· = pg.base + 0x10) s t))) ∧
     (s.get pg.base PG_STAT.RST_BUSY = 1 → Completes (.softResetDone a) s (fun t =>
       t.io.rd (pg.base + 0x10) = 0 ∧ t.io.rd (pg.base + 0x1C) = 0 ∧ t.io.rd (pg.base + 0x20) = 0 ∧
       t.get pg.base PG_STAT.RST_BUSY = 0 ∧ t.get pg.base PG_SHADOW_CTL.ARM_REFUSED = 0 ∧
       t.get pg.base PG_SHADOW_CTL.WR_DROPPED = 0 ∧
       t.get pg.base PG_SHADOW_CTL.ARM = s.get pg.base PG_SHADOW_CTL.ARM ∧ t = { s with io := t.io, fwd := { s.fwd with learn := t.fwd.learn }, buf := { s.buf with txts := t.buf.txts } } ∧
       (pg.kind = .l2t → t.fwd.learn.get [] pg.idx = []) ∧
       (pg.kind = .eth3 → ∀ j : Fin 4, t.txtsFifo (4 * pg.idx + j.val) = []) ∧
       (pg.kind = .ring → t.io.modCnt.get 0 pg.idx = 0) ∧
       (pg.kind ≠ .l2t → pg.kind ≠ .pip → pg.kind ≠ .eth3 → pg.kind ≠ .ring → OnlyIrq s t ∧
         KeepsWords (fun b => b = pg.base + 0x10 ∨ b = pg.base + 0x1C ∨ b = pg.base + 0x20 ∨ b = pg.base + 0x24 ∨
           b = pg.base + PG_STAT.RST_BUSY.off) s t))) ∧
     (s.get pg.base PG_STAT.RST_BUSY = 0 → NoEffect (.softResetDone a) s)) ∧
  (∀ (s : State) (m : Master), s.on = true →
     (∀ mask : BitVec 64, s.takesWrite m.id (pgSys + SYS_IRQ_REARM.REARM.off) = true →
       Completes (.irqRearm m mask) s (fun t =>
         OnlyIrq s t ∧ t.io.regs = s.io.regs ∧
         ∀ n : Fin 64, mask.toNat.testBit n.val = true → s.io.level n.val = true →
           (s.io.mayMsix = true → tb s.io.pcie.vecMask n.val = false →
             .msix n.val (s.io.pcie.vecAddr.get 0 n.val) (s.io.pcie.vecData.get 0 n.val) ∈ t.io.out) ∧
           (s.io.mayMsix = false ∨ tb s.io.pcie.vecMask n.val = true → tb t.io.pcie.pend n.val = true))) ∧
     (∀ (v : Fin 64) (masked : Bool), Completes (.msixResume v masked) s (fun t =>
       tb t.io.pcie.vecMask v.val = masked ∧ (∀ n : Fin 64, n ≠ v → tb t.io.pcie.vecMask n.val = tb s.io.pcie.vecMask n.val) ∧
       (s.io.mayMsix = true → masked = false → tb t.io.pcie.pend v.val = false ∧
         (tb s.io.pcie.pend v.val = true → s.io.level v.val = true →
           .msix v.val (s.io.pcie.vecAddr.get 0 v.val) (s.io.pcie.vecData.get 0 v.val) ∈ t.io.out)) ∧
       t = { s with io := { s.io with pcie := { s.io.pcie with vecMask := t.io.pcie.vecMask, pend := t.io.pcie.pend },
                                      out := t.io.out } })))

/-- R77: what a read of SYS_SEMn answers and which master then holds the lock, for a free lock, the reader's own, and another master's.
-/
def Obligations.SemaphoreRead : Prop :=
  ∀ (s : State) (m : Master) (n : Fin 32), s.on = true → s.io.ready .sys = true → s.get pgSys PG_STAT.RST_BUSY = 0 →
    (s.get pgSys SYS_SEMn.HOLDER n.val = 0 → Completes (.semRead m n) s (fun t =>
      t.io.out = .read m.id (2 ^ 31 + m.id) :: s.io.out ∧ t.get pgSys SYS_SEMn.HOLDER n.val = m.id ∧
      t = { s with io := { s.io with regs := t.io.regs, out := t.io.out } } ∧
      KeepsWords (· = pgSys + SYS_SEMn.HOLDER.off + 4 * n.val) s t)) ∧
    (s.get pgSys SYS_SEMn.HOLDER n.val = m.id → Completes (.semRead m n) s (fun t =>
      t = { s with io := { s.io with out := .read m.id (2 ^ 31 + m.id) :: s.io.out } })) ∧
    (s.get pgSys SYS_SEMn.HOLDER n.val ≠ 0 → s.get pgSys SYS_SEMn.HOLDER n.val ≠ m.id → Completes (.semRead m n) s (fun t =>
      t = { s with io := { s.io with out := .read m.id (s.get pgSys SYS_SEMn.HOLDER n.val) :: s.io.out } }))

/-- R79: the holder's write of 0 frees the lock; any other write is counted with TYPE 1 and frees nothing; SYS_SEM_FORCE of master 0x11
frees exactly the selected locks; cold reset frees every lock, a management reset those held by 0x10 and 0x11, and a reset of the
host side those held by 0x01. -/
def Obligations.SemaphoreRelease : Prop :=
  ∀ (s : State) (m : Master) (n : Fin 32) (v : W32),
    (s.on = true → s.takesWrite m.id pgSys = true →
    (s.get pgSys SYS_SEMn.HOLDER n.val = m.id → v.toNat % 256 = 0 → Completes (.semRelease m n v) s (fun t =>
      t.get pgSys SYS_SEMn.HOLDER n.val = 0 ∧ OnlyRegs s t ∧
      KeepsWords (· = pgSys + SYS_SEMn.HOLDER.off + 4 * n.val) s t)) ∧
    (s.get pgSys SYS_SEMn.HOLDER n.val ≠ m.id ∨ v.toNat % 256 ≠ 0 → Completes (.semRelease m n v) s (fun t =>
      t.get pgSys PG_ERR_CNT.COUNT = min (2 ^ 32 - 1) (s.get pgSys PG_ERR_CNT.COUNT + 1) ∧
      (s.get pgSys PG_ERR_CAP.VALID = 0 → t.get pgSys PG_ERR_CAP.TYPE = 1) ∧
      OnlyRegs s t ∧ KeepsWords (fun a => a = pgSys + 0x1C ∨ a = pgSys + 0x20) s t)) ∧
    (∀ mask : W32, s.takesWrite 0x11 pgSys = true → Completes (.semForce .mcSec mask) s (fun t =>
      (∀ k : Fin 32, t.get pgSys SYS_SEMn.HOLDER k.val
        = if mask.toNat.testBit k.val then 0 else s.get pgSys SYS_SEMn.HOLDER k.val) ∧ OnlyRegs s t ∧
      KeepsWords (fun a => ∃ k : Fin 32, a = pgSys + SYS_SEMn.HOLDER.off + 4 * k.val) s t)) ∧
    (m ≠ .mcSec → v ≠ 0 → Completes (.semForce m v) s (fun t =>
      t.get pgSys PG_ERR_CNT.COUNT = min (2 ^ 32 - 1) (s.get pgSys PG_ERR_CNT.COUNT + 1) ∧
      OnlyRegs s t ∧ KeepsWords (fun a => a = pgSys + 0x1C ∨ a = pgSys + 0x20) s t))) ∧
    (s.io.sys.phase = .held → Completes (.coldResetRelease false) s (fun t => t.get pgSys SYS_SEMn.HOLDER n.val = 0)) ∧
    (s.on = true → s.io.sys.mgmtPending = true → s.io.sys.mgmtActive = false → s.io.sysReady = true →
      Completes .managementReset s (fun t =>
        t.get pgSys SYS_SEMn.HOLDER n.val = if s.get pgSys SYS_SEMn.HOLDER n.val = 0x10 ∨ s.get pgSys SYS_SEMn.HOLDER n.val = 0x11
          then 0 else s.get pgSys SYS_SEMn.HOLDER n.val)) ∧
    Completes .perstNAssert s (fun t =>
      t.get pgSys SYS_SEMn.HOLDER n.val
        = if s.get pgSys SYS_SEMn.HOLDER n.val = 0x01 then 0 else s.get pgSys SYS_SEMn.HOLDER n.val) ∧
    (s.on = true → Completes .functionLevelReset s (fun t =>
      t.get pgSys SYS_SEMn.HOLDER n.val
        = if s.get pgSys SYS_SEMn.HOLDER n.val = 0x01 then 0 else s.get pgSys SYS_SEMn.HOLDER n.val))

/-- R81, R82: an accepted write of RING_BASE or RING_SIZE stores the word and restarts the write count and the device's own index; a
write of another value while EN = 1 is counted and ignored; the moderation timer sets IRQ; a DMA failure sets DMA_ERR. -/
def Obligations.RingControl : Prop :=
  ∀ (s : State) (m : Master) (r : Fin 60) (v : W32), s.on = true → s.takesWrite m.id (pgRing r.val) = true →
    (s.get (pgRing r.val) RING_CTL.EN = 0 → v.toNat % 4096 = 0 → Completes (.ringConfigWrite m r 0 v) s (fun t =>
      t.io.rd (pgRing r.val + 0x040) = v ∧ t.io.wcount.get 0 r.val = 0 ∧
      (if deviceRing r.val then t.get (pgRing r.val) RING_PROD.IDX else t.get (pgRing r.val) RING_CONS.IDX) = 0 ∧
      t = { s with io := { s.io with regs := t.io.regs, wcount := t.io.wcount } } ∧
      KeepsWords (fun a => a = pgRing r.val + 0x040 ∨
        a = pgRing r.val + (if deviceRing r.val then RING_PROD.IDX.off else RING_CONS.IDX.off)) s t)) ∧
    (s.get (pgRing r.val) RING_CTL.EN = 0 → 6 ≤ v.toNat % 32 → v.toNat % 32 ≤ 16 → Completes (.ringConfigWrite m r 2 v) s (fun t =>
      t.get (pgRing r.val) RING_SIZE.LOG2 = v.toNat % 32 ∧ t.io.wcount.get 0 r.val = 0 ∧
      (if deviceRing r.val then t.get (pgRing r.val) RING_PROD.IDX else t.get (pgRing r.val) RING_CONS.IDX) = 0 ∧
      t = { s with io := { s.io with regs := t.io.regs, wcount := t.io.wcount } } ∧
      KeepsWords (fun a => a = pgRing r.val + RING_SIZE.LOG2.off ∨
        a = pgRing r.val + (if deviceRing r.val then RING_PROD.IDX.off else RING_CONS.IDX.off)) s t)) ∧
    (s.get (pgRing r.val) RING_CTL.EN = 1 → v ≠ s.io.rd (pgRing r.val + 0x044) → Completes (.ringConfigWrite m r 1 v) s (fun t =>
      t.get (pgRing r.val) PG_ERR_CNT.COUNT = min (2 ^ 32 - 1) (s.get (pgRing r.val) PG_ERR_CNT.COUNT + 1) ∧ OnlyRegs s t ∧
      KeepsWords (fun a => a = pgRing r.val + 0x1C ∨ a = pgRing r.val + 0x20) s t)) ∧
    (s.get (pgRing r.val) RING_CTL.MOD_US ≠ 0 → s.io.modCnt.get 0 r.val ≠ 0 → s.io.cause (pgRing r.val) 0 = false →
      Completes (.ringModTimer r) s (fun t =>
        t.io.cause (pgRing r.val) 0 = true ∧ t.io.modCnt.get 0 r.val = 0 ∧ OnlyIo s t ∧
        KeepsWords (· = pgRing r.val + 0x10) s t)) ∧
    (s.get (pgRing r.val) RING_CTL.EN = 1 → Completes (.ringDmaFail r) s (fun t =>
      t.io.cause (pgRing r.val) 2 = true ∧ OnlyIrq s t ∧ KeepsWords (· = pgRing r.val + 0x10) s t)) ∧
    (s.get (pgRing r.val) RING_CTL.EN = 0 → NoEffect (.ringDmaFail r) s)

/-- R83, R84: a refused transmit entry is consumed, flagged, counted and never read; an accepted one waits for its frame and asks for
it; the frame of an inject entry joins its pipeline without its last 4 B, and that of a queue entry leaves the fetch queue; the
frame that the round robin picks leaves its host queue, one completion per buffer it fills, or none and counted where a cell of it
is uncorrectable (R305). -/
def Obligations.HostTraffic : Prop :=
  ∀ (s : State) (r : Fin 16) (e : BitVec 128), s.on = true →
    (s.io.ringLive (16 + r.val) = true → s.io.ringUsed (16 + r.val) ≠ 0 →
      (gb e 64 16 < 64 ∨ 9216 < gb e 64 16 ∨ gb e 80 16 &&& 0xFFFB ≠ 0 ∨
        (tb e 82 = true ∧ 7 < gb e 120 8) ∨ (tb e 82 = false ∧ (127 < gb e 104 8 ∨ s.get pgQnc QNC_LOCKS.DIRECT_TX = 1)) →
        Completes (.hostTxEntry r e) s (fun t =>
          t.io.cause (pgRing (16 + r.val)) 3 = true ∧
          t.get (pgRing (16 + r.val)) RING_DROP_CNT.COUNT = (s.get (pgRing (16 + r.val)) RING_DROP_CNT.COUNT + 1) % 2 ^ 32 ∧
          t.get (pgRing (16 + r.val)) PG_ERR_CNT.COUNT = min (2 ^ 32 - 1) (s.get (pgRing (16 + r.val)) PG_ERR_CNT.COUNT + 1) ∧
          t.io.wcount.get 0 (16 + r.val) = s.io.wcount.get 0 (16 + r.val) + 1 ∧
          t.io.fetch = s.io.fetch ∧ OnlyIo s t ∧ KeepsWords (inPage (pgRing (16 + r.val))) s t)) ∧
      (64 ≤ gb e 64 16 → gb e 64 16 ≤ 9216 → gb e 80 16 &&& 0xFFFB = 0 → (tb e 82 = true → gb e 120 8 ≤ 7) →
        (tb e 82 = false → gb e 104 8 ≤ 127 ∧ s.get pgQnc QNC_LOCKS.DIRECT_TX = 0) →
        Completes (.hostTxEntry r e) s (fun t =>
          t.io.fetch.get [] r.val = s.io.fetch.get [] r.val ++
            [{ ring := r.val, addr := gb e 0 64, len := gb e 64 16, inject := tb e 82, dst := gb e 96 32 }] ∧
          t.io.out = .request "host" (gb e 0 64) (gb e 64 16) :: s.io.out ∧
          t.get (pgRing (16 + r.val)) RING_CONS.IDX
            = (s.io.wcount.get 0 (16 + r.val) + 1) % s.io.ringSize (16 + r.val) % 2 ^ 16 ∧
          OnlyIo s t ∧ KeepsWords (· = pgRing (16 + r.val) + RING_CONS.IDX.off) s t))) ∧
    (∀ (f : TxFetch) (rest : List TxFetch) (frame : List Byte), s.io.fetch.get [] r.val = f :: rest →
      s.io.ringLive (16 + r.val) = true →
      Completes (.hostTxFrameFetched r frame) s (fun t =>
        t.io.fetch.get [] r.val = rest ∧
        (f.inject = true → ∃ k : Pkt, t.buf.inject.get [] (bitsOf f.dst 24 8)
            = s.buf.inject.get [] (bitsOf f.dst 24 8) ++ [k] ∧
          k.bytes = sliceB frame 0 (f.len - 4) ∧ k.inPort = bitsOf f.dst 16 8 ∧ k.injected = true ∧
          t = { s with io := { s.io with fetch := t.io.fetch }, buf := { s.buf with inject := t.buf.inject } }) ∧
        t = { s with io := t.io, buf := t.buf, qnc := t.qnc })) ∧
    (∀ (posted : List (List (Nat × Nat))) (cells : List (Nat × Bool)) (h : Nat) (d : Drr) (c : Copy) (bs : List (Nat × Nat))
        (cut : Bool), h < 16 →
      Drr.pick 16 (fun h => (s.rxReady posted h).map fun c => wireLen c.len)
        (fun h => s.get pgSch SCH_HOSTQ_QUANTUMh.QUANTUM h) 2400 s.hostDrr = some (h, d) →
      s.rxReady posted h = some c →
      buffersFor (s.hostFrame c).length (s.io.ringSize h - 1) (s.postedOf posted h) = some (bs, cut) →
      Completes (.hostRxDeliver posted cells) s (fun t =>
        t.queue (hostQ h) = (s.queue (hostQ h)).drop 1 ∧ (∀ q, q ≠ hostQ h → t.queue q = s.queue q) ∧
        ((s.stored c.pkt).bad = none → (∀ e ∈ cells, e.2 = false) →
          t.io.wcount.get 0 h = s.io.wcount.get 0 h + bs.length) ∧
        ((s.stored c.pkt).bad.isSome = true → t.io.wcount.get 0 h = s.io.wcount.get 0 h ∧
          t.get pgTmb TMB_ECC_STOMP_CNT.COUNT = (s.get pgTmb TMB_ECC_STOMP_CNT.COUNT + 1) % 2 ^ 64) ∧
        t = { s with io := t.io, buf := t.buf, tel := t.tel })) ∧
    (∀ posted cells, (∀ h, s.rxReady posted h = none) → NoEffect (.hostRxDeliver posted cells) s)

/-- R93, with the assigned bits of R94: the set a commit checks, the order of its checks, and the active set after it. -/
def Obligations.FeatureCommit : Prop :=
  ∀ (s : State) (m : Master) (x : Nat), s.on = true → s.takesWrite m.id pgFtr = true → ctlMaster m.id = true →
    x = s.io.featSet 0x050 &&& s.io.featSet 0x040 →
    (x.testBit 0 = false → Completes (.featCommit m) s (fun t =>
      t.get pgFtr FEAT_STATUS.CODE = 2 ∧ t.io.featSet 0x060 = s.io.featSet 0x060 ∧ OnlyRegs s t ∧
      KeepsWords (· = pgFtr + FEAT_STATUS.CODE.off) s t)) ∧
    (x.testBit 0 = true →
      (x.testBit 5 = true ∧ x.testBit 12 = false) ∨ (x.testBit 6 = true ∧ x.testBit 1 = false) ∨
        (x.testBit 14 = true ∧ x.testBit 8 = false) →
      Completes (.featCommit m) s (fun t =>
        t.get pgFtr FEAT_STATUS.CODE = 3 ∧ t.io.featSet 0x060 = s.io.featSet 0x060 ∧ OnlyRegs s t ∧
        KeepsWords (· = pgFtr + FEAT_STATUS.CODE.off) s t)) ∧
    (x.testBit 0 = true → (x.testBit 5 = true → x.testBit 12 = true) → (x.testBit 6 = true → x.testBit 1 = true) →
      (x.testBit 14 = true → x.testBit 8 = true) →
      (s.io.featDone = true → ∀ j, j < 128 → j ≠ 9 → j ≠ 10 → j ≠ 13 → x.testBit j = (s.io.featSet 0x060).testBit j) →
      Completes (.featCommit m) s (fun t =>
        t.get pgFtr FEAT_STATUS.CODE = 1 ∧ t.io.featSet 0x060 = x ∧ t.io.featDone = true ∧
        ∀ j, j < 128 → t.feature j = x.testBit j)) ∧
    (x.testBit 0 = true → (x.testBit 5 = true → x.testBit 12 = true) → (x.testBit 6 = true → x.testBit 1 = true) →
      (x.testBit 14 = true → x.testBit 8 = true) → s.io.featDone = true →
      (∃ j, j < 128 ∧ j ≠ 9 ∧ j ≠ 10 ∧ j ≠ 13 ∧ x.testBit j ≠ (s.io.featSet 0x060).testBit j) →
      Completes (.featCommit m) s (fun t =>
        t.get pgFtr FEAT_STATUS.CODE = 4 ∧ t.io.featSet 0x060 = s.io.featSet 0x060 ∧ OnlyRegs s t ∧
        KeepsWords (· = pgFtr + FEAT_STATUS.CODE.off) s t))

/-! ### Resets, boot and the stop sequence -/

/-- R471 to R473: a thermal trip or a supply fault stops the device and records a FATAL event, 1 µs later the records that wait are in
the persistent log, and 20 µs later the clocks stop; nothing outside the registers, the pins and the store changes. R501, R502,
R505: the third strap sample latches the majority of the three; each boot step that has done its work is followed by the next, step
1 only with the straps latched and the reference present; BOOT_SRC = 1 asks for recovery; step 8 is the last. -/
def Obligations.BootAndStop : Prop :=
  (∀ s : State,
     (s.on = true → ∀ (stack : Bool) (n : Fin 16), Completes (.thermalTrip stack n) s (fun t =>
       t.io.sys.phase = .stopping ∧ t.io.sys.faultLow = true ∧ t.io.sys.ppsHigh = false ∧ t.io.sys.cascLow = false ∧
       t.io.sys.stopCause = 2 ∧ (∃ r, t.io.ras.toLog = s.io.ras.toLog ++ [r] ∧ gb r 32 8 = 3 ∧ gb r 40 8 = 19) ∧
       (stack = false → 120 ≤ t.temp n.val) ∧ t.io.nvm.seq = s.io.nvm.seq + 1 ∧ OnlyIo s t ∧ t.io.regs = s.io.regs)) ∧
     (s.on = true → ∀ rail : Fin 8, Completes (.supplyFault rail) s (fun t =>
       t.io.sys.phase = .stopping ∧ t.io.sys.faultLow = true ∧ t.io.sys.stopCause = 3 ∧
       (∃ r, t.io.ras.toLog = s.io.ras.toLog ++ [r] ∧ gb r 32 8 = 3 ∧ gb r 40 8 = 20) ∧
       t.io.nvm.seq = s.io.nvm.seq + 1 ∧ OnlyIo s t ∧ t.io.regs = s.io.regs)) ∧
     (s.io.sys.phase = .stopping → Completes .stopPersist s (fun t =>
       (s.feature 5 = true → s.io.time.set = true → t.io.nvm.alive = some s.io.time.ns) ∧ t.io.ras.toLog = [] ∧
       t.io.nvm.logHead = (if s.io.ras.toLog = [] then s.io.nvm.logHead else (s.io.nvm.logHead + s.io.ras.toLog.length) % 16384) ∧
       t.io.sys = s.io.sys ∧ OnlyIo s t ∧ t.io.regs = s.io.regs)) ∧
     (s.io.sys.phase = .stopping → Completes .stopHalt s (fun t =>
       t = { s with io := { s.io with sys := { s.io.sys with phase := .halted } } })) ∧
     (s.io.sys.phase ≠ .stopping → NoEffect .stopPersist s ∧ NoEffect .stopHalt s)) ∧
  (∀ (s : State) (ms bad : Nat) (f0 f1 : List Byte), s.on = true →
     (∀ w : BitVec 6, s.io.step = 1 → s.io.sys.straps.length < 2 → Completes (.strapSample w) s (fun t =>
       t.io.sys.straps = s.io.sys.straps ++ [w] ∧ OnlyIo s t ∧ t.io.regs = s.io.regs)) ∧
     (∀ a b c : BitVec 6, s.io.step = 1 → s.io.sys.straps = [a, b] → Completes (.strapSample c) s (fun t =>
       (∀ i : Fin 6, (t.io.rd (pgSys + SYS_STRAP.STRAPS.off)).toNat.testBit i.val
         = ((tb a i.val && tb b i.val) || (tb a i.val && tb c i.val) || (tb b i.val && tb c i.val))) ∧
       t.get pgCsc CSC_STAT.ROLE = (t.io.rd (pgSys + SYS_STRAP.STRAPS.off)).toNat % 4 ∧ OnlyIo s t ∧
       KeepsWords (fun x => x = pgSys + SYS_STRAP.STRAPS.off ∨ x = pgCsc + CSC_STAT.ROLE.off) s t)) ∧
     (s.io.step = 1 → 3 ≤ s.io.sys.straps.length → s.get pgClk CLK_STAT.REF_PRESENT = 1 → s.io.sys.coldCause ≠ 2 →
       Completes (.bootStepComplete ms f0 f1 bad) s (fun t =>
         t.io.step = 2 ∧ OnlyRegs s t ∧ KeepsWords (· = pgSys + SYS_BOOT_STAT.STEP.off) s t)) ∧
     (s.io.step = 1 → s.get pgClk CLK_STAT.REF_PRESENT = 0 ∨ s.io.sys.straps.length < 3 →
       NoEffect (.bootStepComplete ms f0 f1 bad) s) ∧
     (s.io.step = 2 → Completes (.bootStepComplete ms f0 f1 bad) s (fun t =>
       t.io.step = 3 ∧ t.get pgCph CPH_STAT.RNG_OK = 1 ∧ t = { s with io := t.io, cph := t.cph })) ∧
     (s.io.step = 3 → s.recovering = false → tb (s.io.rd (pgSys + SYS_STRAP.STRAPS.off)) 4 = true →
       Completes (.bootStepComplete ms f0 f1 bad) s (fun t =>
         t.io.step = 3 ∧ t.recovering = true ∧ OnlyRegs s t ∧ KeepsWords (· = pgSys + SYS_BOOT_STAT.STEP.off) s t)) ∧
     (s.io.step = 3 → s.recovering = false → tb (s.io.rd (pgSys + SYS_STRAP.STRAPS.off)) 4 = false →
       Completes (.bootStepComplete ms f0 f1 bad) s (fun t =>
         s.slotBoots (s.io.nvm.slot % 2) (if s.io.nvm.slot % 2 = 0 then f0 else f1) = true →
         t.io.step = 4 ∧ t.get pgSys SYS_BOOT_STAT.SLOT = s.io.nvm.slot % 2 ∧ t.get pgSys SYS_BOOT_STAT.CODE = 0 ∧
         t.running = s.io.nvm.slot % 2 ∧ t = { s with io := t.io, fw := t.fw })) ∧
     (s.io.step = 4 ∨ s.io.step = 6 → Completes (.bootStepComplete ms f0 f1 bad) s (fun t =>
       t.io.step = s.io.step + 1 ∧ OnlyRegs s t ∧ KeepsWords (· = pgSys + SYS_BOOT_STAT.STEP.off) s t)) ∧
     (s.io.step = 5 → Completes (.bootStepComplete ms f0 f1 bad) s (fun t =>
       t.io.step = 6 ∧ (∀ st : Fin 4, t.get (pgFmc st.val 0) FMC_STK_STAT.TRAINED = 1) ∧ OnlyRegs s t)) ∧
     (s.io.step = 7 → Completes (.bootStepComplete ms f0 f1 bad) s (fun t =>
       t.io.step = 8 ∧ t.io.sysReady = true ∧ t.get pgSys SYS_BOOT_MS.MS = ms % 2 ^ 16 ∧
       t = { s with io := t.io, pip := t.pip, qnc := t.qnc, fw := t.fw })) ∧
     (s.io.step = 8 → NoEffect (.bootStepComplete ms f0 f1 bad) s))

/-- R496 to R498: what puts the device into cold reset, and what its release leaves: every register at its reset value but for
SYS_RST_CAUSE, every table, queue and engine empty, the persistent store kept; while TEST_EN is high it is not released (R520). -/
def Obligations.ColdReset : Prop :=
  ∀ s : State,
    Completes .powerOnReset s (fun t =>
      t.io.sys.phase = .held ∧ t.io.sys.porHeld = true ∧ t.io.sys.faultLow = false ∧ OnlyIo s t ∧ t.io.regs = s.io.regs ∧
      t.io.nvm = s.io.nvm) ∧
    Completes .chipRstNAssert s (fun t =>
      t.io.sys.phase = .held ∧ t.io.sys.chipRstLow = true ∧
      (s.on = true → s.feature 5 = true → s.io.time.set = true → t.io.nvm.alive = some s.io.time.ns) ∧
      OnlyIo s t ∧ t.io.regs = s.io.regs) ∧
    (s.io.sys.phase = .held → Completes (.coldResetRelease false) s (fun t =>
      t.io.sys.phase = .running ∧ t.io.nvm = s.io.nvm ∧ t.io.bank = [] ∧ t.io.time = {} ∧
      (∀ a, a ≠ pgSys + SYS_RST_CAUSE.COLD.off → t.io.rd a = resetWord a) ∧
      t.get pgSys SYS_RST_CAUSE.COLD = s.io.sys.coldCause % 8 ∧
      t = { pending := s.pending, io := t.io })) ∧
    (s.io.sys.phase = .held → Completes (.coldResetRelease true) s (fun t =>
      t = { s with io := { s.io with sys := { s.io.sys with testEn := true } } })) ∧
    (s.io.sys.phase ≠ .held → ∀ testEn, NoEffect (.coldResetRelease testEn) s)

/-- R64, R65, R79, R499: a host-side reset drops the link and configuration state, disables every ring and frees the locks of 0x01; a
management reset is requested, then applied to every word of the host interface and to the locks of 0x10 and 0x11, with the active
features kept, and ends with the core started. -/
def Obligations.HostAndManagementReset : Prop :=
  ∀ (s : State) (m : Master),
    Completes .perstNAssert s (fun t =>
      t.io.pcie.linkUp = false ∧ t.io.pcie.bme = false ∧ t.io.pcie.msixEn = false ∧ t.io.pcie.perstLow = true ∧
      (∀ r : Fin 60, t.get (pgRing r.val) RING_CTL.EN = 0 ∧
        t.io.rd64 (pgRing r.val + 0x040) = s.io.rd64 (pgRing r.val + 0x040)) ∧
      (∀ n : Fin 32, t.get pgSys SYS_SEMn.HOLDER n.val
        = if s.get pgSys SYS_SEMn.HOLDER n.val = 0x01 then 0 else s.get pgSys SYS_SEMn.HOLDER n.val) ∧
      t.get pgSys SYS_RST_CAUSE.PERST_CNT = min 255 (s.get pgSys SYS_RST_CAUSE.PERST_CNT + 1) ∧
      t.buf = s.buf ∧ t.flow = s.flow ∧ t.fmc = s.fmc ∧ t.io.time = s.io.time) ∧
    (s.on = true → Completes .functionLevelReset s (fun t =>
      t.io.pcie.linkUp = false ∧ t.io.pcie.bme = false ∧ t.io.pcie.msixEn = false ∧
      (∀ r : Fin 60, t.get (pgRing r.val) RING_CTL.EN = 0) ∧
      (∀ n : Fin 32, t.get pgSys SYS_SEMn.HOLDER n.val
        = if s.get pgSys SYS_SEMn.HOLDER n.val = 0x01 then 0 else s.get pgSys SYS_SEMn.HOLDER n.val) ∧
      t.buf = s.buf ∧ t.flow = s.flow ∧ t.fmc = s.fmc ∧ t.io.time = s.io.time)) ∧
    (s.on = true → Completes .mgmtRstNAssert s (fun t =>
      t = { s with io := { s.io with sys := { s.io.sys with mgmtPending := true } } })) ∧
    (s.on = true → s.takesWrite m.id pgSys = true → m = .host ∨ m = .mcSec ∨ m = .board →
      Completes (.sysRstMgmt m) s (fun t =>
        t = { s with io := { s.io with sys := { s.io.sys with mgmtPending := true } } })) ∧
    (s.on = true → s.takesWrite m.id pgSys = true → m ≠ .host → m ≠ .mcSec → m ≠ .board →
      Completes (.sysRstMgmt m) s (fun t =>
        t.get pgSys PG_ERR_CNT.COUNT = min (2 ^ 32 - 1) (s.get pgSys PG_ERR_CNT.COUNT + 1) ∧ OnlyRegs s t ∧
        KeepsWords (fun a => a = pgSys + 0x1C ∨ a = pgSys + 0x20) s t)) ∧
    (s.on = true → s.io.sys.mgmtPending = true → s.io.sys.mgmtActive = false → s.io.sysReady = true →
      Completes .managementReset s (fun t =>
        t.io.sys.mgmtActive = true ∧ t.io.sys.mgmtPending = false ∧ (∀ a, inHif a = true → t.io.rd a = resetWord a) ∧
        t.io.featSet 0x050 = 0 ∧ t.io.featSet 0x060 = s.io.featSet 0x060 ∧
        (∀ n : Fin 32, s.get pgSys SYS_SEMn.HOLDER n.val = 0x10 ∨ s.get pgSys SYS_SEMn.HOLDER n.val = 0x11 →
          t.get pgSys SYS_SEMn.HOLDER n.val = 0) ∧
        t.get pgSys SYS_RST_CAUSE.MGMT_CNT = min 255 (s.get pgSys SYS_RST_CAUSE.MGMT_CNT + 1) ∧
        t.io.pcie.linkUp = s.io.pcie.linkUp ∧ t.buf = s.buf ∧ t.flow = s.flow ∧ t.fmc = s.fmc ∧ t.io.time = s.io.time)) ∧
    (s.on = true → s.io.sys.mgmtPending = false → NoEffect .managementReset s) ∧
    (s.on = true → s.io.sys.mgmtActive = true → Completes .managementResetEnd s (fun t =>
      t.io.sys.mgmtActive = false ∧ t.fw.kick = t.io.time.counted ∧ t = { s with io := t.io, fw := t.fw }))

/-! ### Errors and continuous service -/

/-- R474, R475, R482, R495: a sensor that reaches WARN is reported once until it has fallen by HYST; the oldest waiting record is
written to the persistent log, or counted as skipped above the rate; what the scrubber, or the unit that uses a word, finds in it is
reported, and a lost cell, cache line or NAT block is marked as R475 and R476 say. -/
def Obligations.ErrorReporting : Prop :=
  ∀ (s : State), s.on = true →
    (∀ (n : Fin 16) (c : Nat), s.get pgRas RAS_THERM_CFG.WARN ≤ c → s.io.ras.warned.get false n.val = false →
      Completes (.thermWarn n c) s (fun t =>
        t.temp n.val = c ∧ t.get pgRas RAS_STAT.THERM_WARN = 1 ∧ t.io.ras.warned.get false n.val = true ∧
        (s.get pgRas RAS_STAT.THERM_WARN = 0 → t.io.cause pgRas 0 = true) ∧
        (∃ r, t.io.ras.toLog = s.io.ras.toLog ++ [r] ∧ gb r 32 8 = 1 ∧ gb r 40 8 = 18) ∧ t.io.nvm.seq = s.io.nvm.seq + 1 ∧
        OnlyIo s t)) ∧
    (∀ (n : Fin 16) (c : Nat), s.get pgRas RAS_THERM_CFG.WARN ≤ c → s.io.ras.warned.get false n.val = true →
      Completes (.thermWarn n c) s (fun t => t.temp n.val = c ∧ t = { s with io := { s.io with sys := t.io.sys } })) ∧
    (∀ (n : Fin 16) (c : Nat), c < s.get pgRas RAS_THERM_CFG.WARN →
      Completes (.thermWarn n c) s (fun t =>
        t.temp n.val = c ∧ t.io.ras.toLog = s.io.ras.toLog ∧
        (c + s.get pgRas RAS_THERM_CFG.HYST ≤ s.get pgRas RAS_THERM_CFG.WARN → t.io.ras.warned.get false n.val = false) ∧
        OnlyIo s t ∧ KeepsWords (· = pgRas + RAS_STAT.THERM_WARN.off) s t)) ∧
    (s.io.ras.toLog = [] → NoEffect .errorLogWritten s) ∧
    (∀ r rest, s.io.ras.toLog = r :: rest → s.logAllowed = true → Completes .errorLogWritten s (fun t =>
      t.io.ras.toLog = rest ∧ t.io.nvm.lines.get 0 (logBase + s.io.nvm.logHead) = logLine r ∧
      t.io.nvm.logHead = (s.io.nvm.logHead + 1) % 16384 ∧ t.io.nvm.logCount = min 16384 (s.io.nvm.logCount + 1) ∧
      (∀ k, k ≠ logBase + s.io.nvm.logHead → t.io.nvm.lines.get 0 k = s.io.nvm.lines.get 0 k) ∧ OnlyIo s t)) ∧
    (∀ r rest, s.io.ras.toLog = r :: rest → s.logAllowed = false → Completes .errorLogWritten s (fun t =>
      t.io.ras.toLog = rest ∧ t.io.nvm = s.io.nvm ∧
      t.get pgRas RAS_LOG_SKIP_CNT.COUNT = (s.get pgRas RAS_LOG_SKIP_CNT.COUNT + 1) % 2 ^ 64 ∧ OnlyIo s t)) ∧
    (∀ w index found inUse es, (inUse = false ∧ s.get pgRas RAS_SCRUB_CFG.EN = 0) ∨ found = .clean →
      NoEffect (.sramScrub w index found inUse es) s) ∧
    (∀ inUse : Bool, inUse = true ∨ s.get pgRas RAS_SCRUB_CFG.EN = 1 →
      (∀ g index es, Completes (.sramScrub (.block g) index .copyFixed inUse es) s (fun t =>
        (∃ r, t.io.ras.toLog = s.io.ras.toLog ++ [r] ∧ gb r 32 8 = 1 ∧ gb r 40 8 = 2) ∧ OnlyIo s t)) ∧
      (∀ g index es, Completes (.sramScrub (.block g) index .lost inUse es) s (fun t =>
        t.act.block.get 0 g = BitVec.ofNat 32 (2 ^ 31) ∧ t.act.quar.get false g = true ∧
        (∃ r, t.io.ras.toLog = s.io.ras.toLog ++ [r] ∧ gb r 32 8 = 2 ∧ gb r 40 8 = 3) ∧
        t = { s with io := t.io, act := { s.act with block := t.act.block, quar := t.act.quar } })) ∧
      (∀ id index es, (s.stored id).refs ≠ 0 → (s.stored id).bad = none →
        Completes (.sramScrub (.cell id) index .lost inUse es) s (fun t =>
        t.stored id = { s.stored id with bad := some index } ∧ t = { s with buf := { s.buf with store := t.buf.store } })) ∧
      (∀ i index es, lineValid (s.cacheAt i) = true → s.feature 5 = false →
        Completes (.sramScrub (.cache i) index .lost inUse es) s (fun t =>
          t.cacheAt i = {} ∧ (∀ k, k ≠ i → t.cacheAt k = s.cacheAt k) ∧
          t = { s with io := t.io, flow := { s.flow with cache := t.flow.cache } })))

/-- R486, R487: LOAD starts a load for the slot that does not run, or answers BUSY; the checked image is accepted for programming or the
load ends with the code of the first failure; the end of programming marks the slot valid and WRITTEN, or ends with FLASH_ERROR.
R488 to R491: the core halts at YIELD or 1 ms later with MC_RESTART, the new slot starts warm, its ALIVE completes the handover and
records the slot, the first one of a boot its security version, its silence goes back to the old slot; KICK restarts the core's
watchdog, whose expiry restarts the core and frees its locks. -/
def Obligations.FirmwareLoadAndHandover : Prop :=
  (∀ (s : State), s.on = true →
     (∀ m : Master, s.takesWrite m.id (pgRas + RAS_FW_CTL.LOAD.off) = true → ctlMaster m.id = true →
       (s.fw.load = none → s.handoverArmed = false → Completes (.fwLoad m) s (fun t =>
         t.fw.load = some { slot := if s.recovering then 0 else 1 - s.running, len := s.get pgRas RAS_FW_LEN.BYTES } ∧ t.get pgRas RAS_FW_STAT.CODE = 1 ∧
         t.io.out = (if s.io.mayDma then [.request "firmware image" (s.io.rd64 (pgRas + 0x068)) (s.get pgRas RAS_FW_LEN.BYTES)]
           else []) ++ s.io.out ∧
         t = { s with io := { s.io with regs := t.io.regs, out := t.io.out }, fw := { s.fw with load := t.fw.load } } ∧
         KeepsWords (· = pgRas + RAS_FW_STAT.CODE.off) s t)) ∧
       (s.fw.load.isSome = true ∨ s.handoverArmed = true → Completes (.fwLoad m) s (fun t =>
         t.get pgRas RAS_FW_STAT.CODE = 9 ∧ (s.get pgRas RAS_FW_STAT.CODE = 1 → t.io.cause pgRas 3 = true) ∧ OnlyIrq s t ∧
         KeepsWords (fun a => a = pgRas + 0x10 ∨ a = pgRas + RAS_FW_STAT.CODE.off) s t))) ∧
     (∀ img ok, s.fw.load = none → NoEffect (.fwCheckDone img ok) s ∧ NoEffect (.fwProgramDone ok) s) ∧
     (∀ (l : FwLoad) (img : List Byte) (ok : Bool) (c : Nat), s.fw.load = some l → l.second = false →
       (c = 3 ∧ 4194304 < l.len) ∨
         (c = 8 ∧ l.len ≤ 4194304 ∧ (ok = false ∨ s.io.mayDma = false)) ∨
         (l.len ≤ 4194304 ∧ ok = true ∧ s.io.mayDma = true ∧
           fwCheck (img.take l.len) (if s.recovering then s.io.nvm.minSvn else s.fw.svn) = some c) →
       Completes (.fwCheckDone img ok) s (fun t =>
         t.fw.load = none ∧ t.get pgRas RAS_FW_STAT.CODE = c % 16 ∧ t.io.cause pgRas 3 = true ∧ t.io.nvm = s.io.nvm ∧
         t = { s with io := t.io, fw := { s.fw with load := none } } ∧
         KeepsWords (fun a => a = pgRas + 0x10 ∨ a = pgRas + RAS_FW_STAT.CODE.off) s t)) ∧
     (∀ (l : FwLoad) (img : List Byte), s.fw.load = some l → l.second = false → l.len ≤ 4194304 →
       s.io.mayDma = true →
       Completes (.fwCheckDone img true) s (fun t =>
         fwCheck (img.take l.len) (if s.recovering then s.io.nvm.minSvn else s.fw.svn) = none →
         t.fw.load = some { l with second := true, image := img.take l.len } ∧
         (l.slot < 2 → tb t.io.nvm.slotValid l.slot = false) ∧ t.io.regs = s.io.regs ∧
         t = { s with io := { s.io with nvm := t.io.nvm }, fw := { s.fw with load := t.fw.load } })) ∧
     (∀ (l : FwLoad), s.fw.load = some l → l.second = true →
       Completes (.fwProgramDone false) s (fun t =>
         t.fw.load = none ∧ t.get pgRas RAS_FW_STAT.CODE = 7 ∧ t.io.cause pgRas 3 = true ∧ t.io.nvm = s.io.nvm ∧
         t = { s with io := t.io, fw := { s.fw with load := none } }) ∧
       (s.recovering = false → Completes (.fwProgramDone true) s (fun t =>
         t.fw.load = none ∧ t.get pgRas RAS_FW_STAT.CODE = 2 ∧ t.io.cause pgRas 3 = true ∧
         (l.slot < 2 → tb t.io.nvm.slotValid l.slot = true) ∧
         t.io.nvm.slotVer.get none l.slot = some (fwVersion l.image, fwSvn l.image) ∧
         t = { s with io := t.io, fw := { s.fw with load := none } })) ∧
       (s.recovering = true → Completes (.fwProgramDone true) s (fun t =>
         t.fw.load = none ∧ t.io.step = 4 ∧ t.running = 0 ∧ t.get pgSys SYS_BOOT_STAT.CODE = 2 ∧
         t = { s with io := t.io, fw := t.fw })))) ∧
  (∀ (s : State) (m : Master), s.on = true →
     (s.takesWrite m.id (pgRas + RAS_FW_CTL.YIELD.off) = true → m = .mcNs ∨ m = .mcSec →
       (s.fw.stage = .yield → Completes (.fwYield m) s (fun t =>
         t = { s with fw := { s.fw with stage := .halted, since := s.io.time.counted } })) ∧
       (s.fw.stage ≠ .yield → NoEffect (.fwYield m) s)) ∧
     (s.takesWrite m.id (pgRas + RAS_FW_CTL.YIELD.off) = true → m ≠ .mcNs → m ≠ .mcSec → Completes (.fwYield m) s (fun t =>
       t.get pgRas PG_ERR_CNT.COUNT = min (2 ^ 32 - 1) (s.get pgRas PG_ERR_CNT.COUNT + 1) ∧
       OnlyRegs s t ∧ KeepsWords (fun a => a = pgRas + 0x1C ∨ a = pgRas + 0x20) s t)) ∧
     (s.fw.stage = .yield → Completes .yieldTimeout s (fun t =>
       t.fw = { s.fw with stage := .halted, since := t.io.time.counted } ∧ t.io.cause pgRas 6 = true ∧
       t.get pgRas RAS_MC_RESTART_CNT.COUNT = (s.get pgRas RAS_MC_RESTART_CNT.COUNT + 1) % 2 ^ 32 ∧
       t = { s with io := t.io, fw := t.fw })) ∧
     (s.fw.stage ≠ .yield → NoEffect .yieldTimeout s) ∧
     (s.fw.stage = .halted → Completes .fwWarmStart s (fun t =>
       t.fw.stage = .warm ∧ t.running = s.fw.next % 2 ∧ t.fw.since = t.io.time.counted ∧ t.fw.kick = t.io.time.counted ∧
       t = { s with io := t.io, fw := t.fw })) ∧
     (s.fw.stage ≠ .halted → NoEffect .fwWarmStart s) ∧
     (∀ ms : BitVec 16, s.takesWrite m.id (pgRas + RAS_FW_WDOG.ALIVE.off) = true → m = .mcNs ∨ m = .mcSec →
       Completes (.fwAlive m ms) s (fun t =>
         t.get pgRas RAS_FW_WDOG.LIMIT_MS = ms.toNat ∧ t.io.nvm.slot = s.running ∧ t.fw.alive = true ∧
         t.io.nvm.minSvn = (if s.fw.alive then s.io.nvm.minSvn else s.fw.svn) ∧
         (s.fw.stage = .warm → t.fw.stage = .idle ∧ t.get pgRas RAS_FW_STAT.CODE = 11 ∧
           t.get pgRas RAS_HANDOVER_CNT.COUNT = (s.get pgRas RAS_HANDOVER_CNT.COUNT + 1) % 2 ^ 32) ∧
         (s.fw.stage = .boot → t.fw.stage = .idle) ∧
         (s.fw.stage ≠ .warm → s.fw.stage ≠ .boot → t.fw = { s.fw with alive := true }) ∧ t = { s with io := t.io, fw := t.fw })) ∧
     (∀ other : List Byte, s.fw.stage = .warm → Completes (.fwWdogExpire other) s (fun t =>
       t.running = s.fw.prev % 2 ∧ t.fw.stage = .idle ∧ t.get pgRas RAS_STAT.FW_FALLBACK = 1 ∧ t.io.cause pgRas 5 = true ∧
       (∃ r, t.io.ras.toLog = s.io.ras.toLog ++ [r] ∧ gb r 32 8 = 1 ∧ gb r 40 8 = 22) ∧ t = { s with io := t.io, fw := t.fw })) ∧
     (∀ other : List Byte, s.fw.stage = .idle ∨ s.fw.stage = .yield ∨ s.fw.stage = .halted → NoEffect (.fwWdogExpire other) s) ∧
     (∀ ms : BitVec 16, s.takesWrite m.id (pgRas + RAS_MC_WDOG.KICK.off) = true → m = .mcNs ∨ m = .mcSec →
       Completes (.mcKick m ms) s (fun t =>
         t.get pgRas RAS_MC_WDOG.LIMIT_MS = ms.toNat ∧
         t = { s with io := { s.io with regs := t.io.regs }, fw := { s.fw with kick := s.io.time.counted } } ∧
         KeepsWords (· = pgRas + RAS_MC_WDOG.LIMIT_MS.off) s t)) ∧
     (s.coreOn = true → s.get pgRas RAS_MC_WDOG.LIMIT_MS ≠ 0 → Completes .mcWdogExpire s (fun t =>
       (∀ n : Fin 32, t.get pgSys SYS_SEMn.HOLDER n.val
         = if s.get pgSys SYS_SEMn.HOLDER n.val = 0x10 ∨ s.get pgSys SYS_SEMn.HOLDER n.val = 0x11 then 0
           else s.get pgSys SYS_SEMn.HOLDER n.val) ∧
       t.get pgRas RAS_MC_RESTART_CNT.COUNT = (s.get pgRas RAS_MC_RESTART_CNT.COUNT + 1) % 2 ^ 32 ∧ t.io.cause pgRas 6 = true ∧
       t.fw = { s.fw with kick := t.io.time.counted } ∧ t = { s with io := t.io, cph := t.cph, fw := t.fw })) ∧
     (s.coreOn = false ∨ s.get pgRas RAS_MC_WDOG.LIMIT_MS = 0 → NoEffect .mcWdogExpire s))

/-! ### Clocks, the time base, boundaries, commits -/

/-- R33, R58: what loss of the reference, its return, relock and the end of holdover do to CLK_STAT, and what raises the causes. -/
def Obligations.ReferenceAndHoldover : Prop :=
  ∀ s : State, s.on = true →
    Completes .referenceLoss s (fun t =>
      t.get pgClk CLK_STAT.HOLDOVER = 1 ∧ t.get pgClk CLK_STAT.REF_LOST = 1 ∧ t.get pgClk CLK_STAT.REF_PRESENT = 0 ∧
      t.get pgClk CLK_STAT.LOCK = 0 ∧ t.io.cause pgClk 0 = true ∧ OnlyIrq s t ∧
      KeepsWords (fun a => a = pgClk + 0x10 ∨ a = pgClk + CLK_STAT.LOCK.off) s t) ∧
    Completes .referenceReturn s (fun t =>
      t.get pgClk CLK_STAT.REF_PRESENT = 1 ∧ t.get pgClk CLK_STAT.HOLDOVER = s.get pgClk CLK_STAT.HOLDOVER ∧
      t.get pgClk CLK_STAT.LOCK = s.get pgClk CLK_STAT.LOCK ∧ t.get pgClk CLK_STAT.REF_LOST = s.get pgClk CLK_STAT.REF_LOST ∧
      OnlyRegs s t ∧ KeepsWords (fun a => a = pgClk + CLK_STAT.LOCK.off) s t) ∧
    (s.get pgClk CLK_STAT.REF_PRESENT = 1 → Completes .loopRelock s (fun t =>
      t.get pgClk CLK_STAT.LOCK = 1 ∧ t.get pgClk CLK_STAT.HOLDOVER = s.get pgClk CLK_STAT.HOLDOVER ∧
      t.get pgClk CLK_STAT.REF_LOST = s.get pgClk CLK_STAT.REF_LOST ∧
      OnlyRegs s t ∧ KeepsWords (fun a => a = pgClk + CLK_STAT.LOCK.off) s t)) ∧
    (s.get pgClk CLK_STAT.REF_PRESENT = 0 → NoEffect .loopRelock s) ∧
    (s.get pgClk CLK_STAT.LOCK = 1 → Completes .holdoverEnd s (fun t =>
      t.get pgClk CLK_STAT.HOLDOVER = 0 ∧ t.get pgClk CLK_STAT.LOCK = 1 ∧
      t.get pgClk CLK_STAT.REF_LOST = s.get pgClk CLK_STAT.REF_LOST ∧
      OnlyRegs s t ∧ KeepsWords (fun a => a = pgClk + CLK_STAT.LOCK.off) s t)) ∧
    (s.get pgClk CLK_STAT.LOCK = 0 → NoEffect .holdoverEnd s) ∧
    (s.get pgClk CLK_STAT.REF_PRESENT = 1 → s.get pgClk CLK_STAT.LOCK = 1 → Completes .lockLost s (fun t =>
      t.get pgClk CLK_STAT.LOCK = 0 ∧ t.get pgClk CLK_STAT.REF_PRESENT = 1 ∧ t.io.cause pgClk 1 = true ∧ OnlyIrq s t ∧
      KeepsWords (fun a => a = pgClk + 0x10 ∨ a = pgClk + CLK_STAT.LOCK.off) s t)) ∧
    (s.get pgClk CLK_STAT.REF_PRESENT = 0 ∨ s.get pgClk CLK_STAT.LOCK = 0 → NoEffect .lockLost s)

/-- R35 to R38: the divisor a sag sets in its region (one level or the other tripped), the sensor's bits, and that no other region
stretches; a sag above both levels, and a disabled sensor, leave every divisor and only clear the sensor's ACTIVE bit.  R36, R39: a
region with every sensor disabled or recovered, its hold over, returns one step and no other region changes; a region at ÷8, and one
whose sensors have not recovered, stays. Past LIMIT_US the cause of R39 is raised, and no divisor changes. -/
def Obligations.DroopStretchAndReturn : Prop :=
  (∀ (s : State) (n : Fin 32) (mv : Nat), s.on = true →
     (s.get pgClk CLK_DROOP_CFGn.EN n.val = 1 → s.get pgClk CLK_DROOP_CFGn.TRIP1 n.val ≠ 0 →
       s.get pgClk CLK_DROOP_CFGn.TRIP1 n.val < s.get pgClk CLK_DROOP_CFGn.TRIP2 n.val →
       2 * s.get pgClk CLK_DROOP_CFGn.TRIP1 n.val ≤ mv →
       Completes (.droopTrip n mv) s (fun t =>
         (t.io.rd (pgClk + CLK_DROOP_ACTIVE.ACTIVE.off)).toNat.testBit n.val = true ∧
         (t.io.rd (pgClk + CLK_DROOP_STICKY.SEEN.off)).toNat.testBit n.val = true ∧
         (regionOf n.val ≠ 10 → t.io.div (regionOf n.val)
           = max (s.io.div (regionOf n.val)) (if 2 * s.get pgClk CLK_DROOP_CFGn.TRIP2 n.val ≤ mv then 10 else 9)) ∧
         (∀ r, r ≠ regionOf n.val ∨ r = 10 → t.io.div r = s.io.div r) ∧ OnlyIo s t ∧ t.io.bank = s.io.bank ∧
         KeepsWords (fun a => a = pgClk + 0x10 ∨ a = pgClk + CLK_DROOP_ACTIVE.ACTIVE.off ∨ a = pgClk + CLK_DROOP_STICKY.SEEN.off ∨
           a = pgClk + CLK_STRETCH_EVTn.COUNT.off + 4 * regionOf n.val) s t)) ∧
     (s.get pgClk CLK_DROOP_CFGn.EN n.val = 0 ∨
         (mv < 2 * s.get pgClk CLK_DROOP_CFGn.TRIP1 n.val ∧ mv < 2 * s.get pgClk CLK_DROOP_CFGn.TRIP2 n.val) →
       Completes (.droopTrip n mv) s (fun t =>
         (t.io.rd (pgClk + CLK_DROOP_ACTIVE.ACTIVE.off)).toNat.testBit n.val = false ∧ OnlyRegs s t ∧
         KeepsWords (· = pgClk + CLK_DROOP_ACTIVE.ACTIVE.off) s t))) ∧
  (∀ (s : State) (r : Fin 11) (sags : List Nat), s.on = true →
     (s.io.div r.val = 8 → r.val ≠ 10 → Completes (.divisorReturn r sags) s (fun t =>
       OnlyRegs s t ∧ KeepsWords (· = pgClk + CLK_DROOP_ACTIVE.ACTIVE.off) s t)) ∧
     (r.val = 10 ∨ s.io.recovered r.val (fun k => sags.getD k 0) = false → Completes (.divisorReturn r sags) s (fun t =>
       (∀ q, t.io.div q = s.io.div q) ∧ OnlyIo s t)) ∧
     (s.io.div r.val = 9 ∨ s.io.div r.val = 10 → r.val ≠ 10 → s.io.recovered r.val (fun k => sags.getD k 0) = true →
       Completes (.divisorReturn r sags) s (fun t =>
         t.io.div r.val = s.io.div r.val - 1 ∧ (∀ q, q ≠ r.val → t.io.div q = s.io.div q) ∧ OnlyIo s t)) ∧
     (∀ q : Fin 10, s.io.div q.val ≠ 8 → Completes (.stretchLimit q) s (fun t =>
       t.io.cause pgClk 3 = true ∧ (∀ k, t.io.div k = s.io.div k) ∧ t = { s with io := t.io, act := t.act, pip := t.pip })) ∧
     (∀ q : Fin 10, s.io.div q.val = 8 → NoEffect (.stretchLimit q) s))

/-- R41: a step of the time base by EPC_STEP_CTL. A relative one adds the signed offset and keeps the fraction, an absolute one loads
seconds and nanoseconds with the fraction 0 and marks the time base set; both leave the nanoseconds counted for R45 as they were,
and one that goes back sets STEP_BACK; a result out of range, and any step on a cascade member, is refused and counted. R60: a read
of EPC_TIME_NS answers the nanoseconds of the second and loads the reader's slot, and no other master's, with the seconds. -/
def Obligations.TimeStepAndRead : Prop :=
  (∀ (s : State) (m : Master), s.on = true → s.takesWrite m.id (pgEpc + EPC_STEP_CTL.GO.off) = true → ctlMaster m.id = true →
     (∀ r : Int, r = (s.io.time.ns : Int) + (1000000000 * toSigned 32 (s.get pgEpc EPC_STEP_SEC.SEC)
         + toSigned 32 (s.get pgEpc EPC_STEP_NS.NS)) → s.follower = false →
       (0 ≤ r → r < 1000000000 * 2 ^ 48 → Completes (.timeStepRelative m) s (fun t =>
         t.io.time.ns = r.toNat ∧ t.io.time.sub = s.io.time.sub ∧ t.io.time.set = s.io.time.set ∧
         t.io.time.counted = s.io.time.counted ∧ t.io.time.stepped = some s.io.time.ns ∧ (r < s.io.time.ns → t.get pgEpc EPC_STAT.STEP_BACK = 1) ∧
         t.get pgEpc EPC_EPOCH_NUM.NUM = s.get pgEpc EPC_EPOCH_NUM.NUM ∧ t = { s with io := t.io, buf := t.buf, qnc := t.qnc })) ∧
       (r < 0 ∨ 1000000000 * 2 ^ 48 ≤ r → Completes (.timeStepRelative m) s (fun t =>
         t.io.time.ns = s.io.time.ns ∧ t.io.time.sub = s.io.time.sub ∧ t.io.time.set = s.io.time.set ∧
         t.get pgEpc PG_ERR_CNT.COUNT = min (2 ^ 32 - 1) (s.get pgEpc PG_ERR_CNT.COUNT + 1) ∧
         t = { s with io := t.io, buf := t.buf }))) ∧
     (s.follower = false → s.get pgEpc EPC_STEP_NS.NS < 1000000000 → Completes (.timeStepAbsolute m) s (fun t =>
       t.io.time.ns = 1000000000 * s.get pgEpc EPC_STEP_SEC.SEC + s.get pgEpc EPC_STEP_NS.NS ∧ t.io.time.sub = 0 ∧
       t.io.time.set = true ∧ t.io.time.counted = s.io.time.counted ∧ t.io.time.stepped = some s.io.time.ns ∧
       (t.io.time.ns < s.io.time.ns → t.get pgEpc EPC_STAT.STEP_BACK = 1) ∧
       t.get pgEpc EPC_EPOCH_NUM.NUM = s.get pgEpc EPC_EPOCH_NUM.NUM ∧ t = { s with io := t.io, buf := t.buf, qnc := t.qnc })) ∧
     (s.follower = false → 1000000000 ≤ s.get pgEpc EPC_STEP_NS.NS → Completes (.timeStepAbsolute m) s (fun t =>
       t.io.time.ns = s.io.time.ns ∧ t.io.time.sub = s.io.time.sub ∧ t.io.time.set = s.io.time.set ∧
       t.get pgEpc PG_ERR_CNT.COUNT = min (2 ^ 32 - 1) (s.get pgEpc PG_ERR_CNT.COUNT + 1) ∧
       t = { s with io := t.io, buf := t.buf })) ∧
     (s.follower = true → ∀ c, c = Instr.timeStepRelative m ∨ c = Instr.timeStepAbsolute m → Completes c s (fun t =>
       t.io.time.ns = s.io.time.ns ∧ t.io.time.sub = s.io.time.sub ∧ t.io.time.set = s.io.time.set ∧
       t.get pgEpc PG_ERR_CNT.COUNT = min (2 ^ 32 - 1) (s.get pgEpc PG_ERR_CNT.COUNT + 1) ∧
       t = { s with io := t.io, buf := t.buf }))) ∧
  (∀ (s : State) (m : Master), s.on = true → s.io.ready .epc = true → s.get pgEpc PG_STAT.RST_BUSY = 0 →
     Completes (.timeNsRead m) s (fun t =>
       t.io.out = .read m.id (s.io.time.ns % 1000000000) :: s.io.out ∧
       t.io.timeSlot.get 0 m.id = s.io.time.ns / 1000000000 % 2 ^ 48 ∧
       (∀ k, k ≠ m.id → t.io.timeSlot.get 0 k = s.io.timeSlot.get 0 k) ∧
       t = { s with io := { s.io with timeSlot := t.io.timeSlot, out := t.io.out } }))

/-- R44 to R46, R53: a crossing of a multiple of 2^K that waits is the boundary event, and with none waiting time runs to the next
multiple, which is; the epoch number rises by 1, BOUNDARY is raised and the commit armed for it is made. A crossing less than 16,384
counted nanoseconds after the last event is held and sets BOUNDARY_DEFERRED, and the held event takes place when they have passed.
-/
def Obligations.BoundaryEvents : Prop :=
  ∀ (s : State), s.on = true →
    (∀ c rest, s.io.crossed = some (c, rest) → s.io.gapOver c = true → s.io.time.held = false →
      Completes .boundaryEvent s (fun t =>
        BoundaryTaken s t c ∧ t.io.time.due.boundary = rest ∧ t.io.time.ns = s.io.time.ns ∧
        t.io.time.counted = s.io.time.counted)) ∧
    (s.io.crossed = none → s.io.time.held = false → s.io.tickInc ≠ 0 →
      s.io.gapEnd ≤ s.io.time.counted + s.io.toMultiple (2 ^ s.io.epochK) → Completes .boundaryEvent s (fun t =>
        BoundaryTaken s t (s.io.time.counted + s.io.toMultiple (2 ^ s.io.epochK)) ∧
        s.io.time.ns + s.io.toMultiple (2 ^ s.io.epochK) ≤ t.io.time.ns)) ∧
    (∀ c rest, s.io.crossed = some (c, rest) → s.io.gapOver c = false →
      Completes .boundaryEvent s (fun t =>
        t.get pgEpc EPC_EPOCH_NUM.NUM = s.get pgEpc EPC_EPOCH_NUM.NUM ∧ t.io.time.held = true ∧
        t.io.time.due.boundary = rest ∧ t.get pgEpc EPC_STAT.BOUNDARY_DEFERRED = 1 ∧ t.io.cause pgEpc 3 = true ∧ OnlyIo s t ∧
        KeepsWords (fun a => a = pgEpc + 0x10 ∨ a = pgEpc + EPC_STAT.BOUNDARY_DEFERRED.off) s t)) ∧
    (∀ l, s.io.time.held = true → s.io.time.lastBoundary = some l →
      Completes .heldBoundary s (fun t =>
        BoundaryTaken s t (l + 16384) ∧ (s.io.tickInc ≠ 0 → l + 16384 ≤ t.io.time.counted))) ∧
    (s.io.time.held = false → NoEffect .heldBoundary s)

/-- R51: when nothing uses the old bank of a page any more its drain ends and EPC_DRAIN_MAX follows; when the copy ends, both banks of
every RWS register of the page are equal and SHADOW_BUSY is clear; out of that order nothing happens. -/
def Obligations.DrainAndCopy : Prop :=
  ∀ (s : State) (a : BitVec 26) (pg : Page), s.on = true → pageOf a.toNat = some pg → pg.base = a.toNat →
    pg.kind.shadowed = true →
    (s.get pg.base PG_SHADOW_CTL.SHADOW_BUSY = 1 → s.io.drained.get false pg.base = false → s.drained pg = true →
      Completes (.drainComplete a) s (fun t =>
        t.io.drained.get false pg.base = true ∧ (∀ b, b ≠ pg.base → t.io.drained.get false b = s.io.drained.get false b) ∧
        t.get pgEpc EPC_DRAIN_MAX.NS
          = max (s.get pgEpc EPC_DRAIN_MAX.NS) (min (2 ^ 32 - 1) (s.io.time.counted - s.io.time.commitAt)) ∧
        t = { s with io := { s.io with regs := t.io.regs, drained := t.io.drained } } ∧
        KeepsWords (· = pgEpc + EPC_DRAIN_MAX.NS.off) s t)) ∧
    (s.drained pg = false → NoEffect (.drainComplete a) s) ∧
    (s.get pg.base PG_SHADOW_CTL.SHADOW_BUSY = 1 → s.io.drained.get false pg.base = true →
      Completes (.shadowCopyDone a) s (fun t =>
        t.get pg.base PG_SHADOW_CTL.SHADOW_BUSY = 0 ∧ t.io.drained.get false pg.base = false ∧
        t.io.active pg.base = s.io.active pg.base ∧
        (∀ r ∈ pg.kind.rows, r.rws ≠ 0 → ∀ i, i < r.count →
          t.io.bk (pg.base + r.off + r.stride * i) (1 - s.io.active pg.base)
            = t.io.bk (pg.base + r.off + r.stride * i) (s.io.active pg.base) ∧
          t.io.bk (pg.base + r.off + r.stride * i) (s.io.active pg.base)
            = s.io.bk (pg.base + r.off + r.stride * i) (s.io.active pg.base)) ∧
        t = { s with io := { s.io with regs := t.io.regs, bank := t.io.bank, drained := t.io.drained },
                     fwd := t.fwd, buf := t.buf, pip := t.pip } ∧
        KeepsWords (· = pg.base + PG_SHADOW_CTL.SHADOW_BUSY.off) s t)) ∧
    (s.get pg.base PG_SHADOW_CTL.SHADOW_BUSY = 0 → NoEffect (.drainComplete a) s ∧ NoEffect (.shadowCopyDone a) s)

/-- R54, R55: GO arms a commit for a target that lies ahead, answers LATE for one that does not and BUSY while one is armed; ABORT
cancels the armed one and changes nothing with none. R52, R57: ARM is set and cleared by software on a page that has banks; while
SHADOW_BUSY is 1 setting it is refused with ARM_REFUSED. -/
def Obligations.CommitControlAndArming : Prop :=
  (∀ (s : State) (m : Master), s.on = true → s.takesWrite m.id (pgEpc + EPC_COMMIT_CTL.GO.off) = true → ctlMaster m.id = true →
     s.cascOn = false →
     (2 ≤ subMod 32 (s.get pgEpc EPC_COMMIT_TARGET.TARGET) (s.get pgEpc EPC_EPOCH_NUM.NUM) →
       subMod 32 (s.get pgEpc EPC_COMMIT_TARGET.TARGET) (s.get pgEpc EPC_EPOCH_NUM.NUM) < 2 ^ 31 →
       (s.io.time.armed = none → Completes (.commitGo m) s (fun t =>
         t.io.time.armed = some (s.get pgEpc EPC_COMMIT_TARGET.TARGET) ∧ t.get pgEpc EPC_COMMIT_STAT.STATE = 1 ∧
         t = { s with io := { s.io with regs := t.io.regs, time := { s.io.time with armed := t.io.time.armed } } } ∧
         KeepsWords (· = pgEpc + EPC_COMMIT_STAT.STATE.off) s t)) ∧
       (s.io.time.armed.isSome = true → Completes (.commitGo m) s (fun t =>
         t.get pgEpc EPC_COMMIT_STAT.STATE = 4 ∧ OnlyRegs s t ∧ KeepsWords (· = pgEpc + EPC_COMMIT_STAT.STATE.off) s t))) ∧
     (subMod 32 (s.get pgEpc EPC_COMMIT_TARGET.TARGET) (s.get pgEpc EPC_EPOCH_NUM.NUM) = 0 ∨
         2 ^ 31 ≤ subMod 32 (s.get pgEpc EPC_COMMIT_TARGET.TARGET) (s.get pgEpc EPC_EPOCH_NUM.NUM) →
       Completes (.commitGo m) s (fun t =>
         t.get pgEpc EPC_COMMIT_STAT.STATE = 3 ∧ t.io.cause pgEpc 2 = true ∧ OnlyIrq s t ∧
         KeepsWords (fun a => a = pgEpc + 0x10 ∨ a = pgEpc + EPC_COMMIT_STAT.STATE.off) s t)) ∧
     (s.io.time.armed.isSome = true → Completes (.commitAbort m) s (fun t =>
       t.io.time.armed = none ∧ t.get pgEpc EPC_COMMIT_STAT.STATE = 5 ∧ t.io.cause pgEpc 2 = true ∧ OnlyIo s t ∧
       KeepsWords (fun a => a = pgEpc + 0x10 ∨ a = pgEpc + EPC_COMMIT_STAT.STATE.off) s t)) ∧
     (s.io.time.armed = none → NoEffect (.commitAbort m) s)) ∧
  (∀ (s : State) (m : Master) (a : BitVec 26) (pg : Page) (arm : Bool), s.on = true → pageOf a.toNat = some pg →
     s.stranger pg m.id = false → s.io.ready pg.kind = true → pg.kind.shadowed = true → s.io.banked pg.kind = true →
     (arm = false ∨ s.get pg.base PG_SHADOW_CTL.SHADOW_BUSY = 0 → Completes (.shadowArm m a arm) s (fun t =>
       t.get pg.base PG_SHADOW_CTL.ARM = b2n arm ∧ t.get pg.base PG_SHADOW_CTL.RD_SEL = s.get pg.base PG_SHADOW_CTL.RD_SEL ∧
       t.io.bank = s.io.bank ∧ OnlyIo s t ∧
       (pipeOfAddr pg.base = none → OnlyRegs s t ∧ KeepsWords (· = pg.base + PG_SHADOW_CTL.ARM.off) s t))) ∧
     (arm = true → s.get pg.base PG_SHADOW_CTL.SHADOW_BUSY = 1 → Completes (.shadowArm m a arm) s (fun t =>
       t.get pg.base PG_SHADOW_CTL.ARM = s.get pg.base PG_SHADOW_CTL.ARM ∧ t.get pg.base PG_SHADOW_CTL.ARM_REFUSED = 1 ∧
       t.io.bank = s.io.bank ∧ OnlyIo s t ∧
       (pipeOfAddr pg.base = none → OnlyRegs s t ∧ KeepsWords (· = pg.base + PG_SHADOW_CTL.ARM.off) s t))))

/-! ### Ethernet ports -/

/-- R98, R104, R114: a link of a port that exists comes up and goes down: its status bits and those of its PCS, the change bit and
LINK_CHANGE; going down aborts the frame in transmission and counts one in reception; while it is down its faults are shown as they
are seen. A training failure sets its cause where the interface trains and LT_EN is 1. -/
def Obligations.LinkChanges : Prop :=
  ∀ (s : State) (n : Fin 128), s.on = true →
    (∀ an : Bool, s.portExists n.val = true → s.linkUp n.val = false → Completes (.linkUp n an) s (fun t =>
      bitsOf (t.get (pgEth (n.val / 4) 0) ETH_LINK_STAT.PORT) (4 * (n.val % 4)) 4
        = 1 + 8 * b2n (an && (s.buf.group.get {} (n.val / 4)).trains && s.get (pgEth (n.val / 4) 0) ETH_AN_CFG.AN_EN == 1) ∧
      (∀ k : Fin 128, k ≠ n → t.linkUp k.val = s.linkUp k.val) ∧
      (t.get (pgEth (n.val / 4) 0) ETH_LINK_CHG.CHG).testBit (n.val % 4) = true ∧ t.io.cause (pgEth (n.val / 4) 0) 0 = true ∧
      OnlyIrq s t ∧ KeepsWords (fun a => a = pgEth (n.val / 4) 0 + 0x10 ∨ a = pgEth (n.val / 4) 0 + ETH_LINK_STAT.PORT.off ∨
        a = pgEth (n.val / 4) 0 + ETH_LINK_CHG.CHG.off ∨
        a = pgEth (n.val / 4) 2 + ETH_PCS_STAT.BLOCK_LOCK.off + 32 * (n.val % 4)) s t)) ∧
    (∀ an : Bool, s.portExists n.val = false ∨ s.linkUp n.val = true → NoEffect (.linkUp n an) s) ∧
    (∀ (rx lf rf : Bool) (pcs : BitVec 3), s.portExists n.val = true → s.linkUp n.val = true →
      Completes (.linkDown n rx lf rf pcs) s (fun t =>
      bitsOf (t.get (pgEth (n.val / 4) 0) ETH_LINK_STAT.PORT) (4 * (n.val % 4)) 4 = 2 * b2n lf + 4 * b2n rf ∧
      t.linkUp n.val = false ∧ (∀ k : Fin 128, k ≠ n → t.linkUp k.val = s.linkUp k.val) ∧
      (t.get (pgEth (n.val / 4) 0) ETH_LINK_CHG.CHG).testBit (n.val % 4) = true ∧ t.io.cause (pgEth (n.val / 4) 0) 0 = true ∧
      t.get (pgPmcL (n.val / 16)) PMC_RX_LINK_ABORT.COUNT (n.val % 16)
        = (s.get (pgPmcL (n.val / 16)) PMC_RX_LINK_ABORT.COUNT (n.val % 16) + b2n rx) % 2 ^ 64 ∧
      (t.buf.sched.get {} n.val).tx = none ∧
      t.get (pgTmbP n.val) TMB_TX_ABORT_CNT.COUNT
        = (s.get (pgTmbP n.val) TMB_TX_ABORT_CNT.COUNT + b2n (s.buf.sched.get {} n.val).tx.isSome) % 2 ^ 64 ∧
      t.buf.queues = s.buf.queues ∧ t = { s with io := t.io, buf := t.buf })) ∧
    (∀ (rx lf rf : Bool) (pcs : BitVec 3), s.portExists n.val = true → s.linkUp n.val = false →
      Completes (.linkDown n rx lf rf pcs) s (fun t =>
        bitsOf (t.get (pgEth (n.val / 4) 0) ETH_LINK_STAT.PORT) (4 * (n.val % 4)) 4 = 2 * b2n lf + 4 * b2n rf ∧
        t.get (pgEth (n.val / 4) 2) ETH_PCS_STAT.BLOCK_LOCK (n.val % 4) = b2n (tb pcs 0) ∧
        t.get (pgEth (n.val / 4) 2) ETH_PCS_STAT.AM_LOCK (n.val % 4) = b2n (tb pcs 1) ∧
        t.get (pgEth (n.val / 4) 2) ETH_PCS_STAT.HI_BER (n.val % 4) = b2n (tb pcs 2) ∧ OnlyRegs s t ∧
        KeepsWords (fun a => a = pgEth (n.val / 4) 0 + ETH_LINK_STAT.PORT.off ∨
          a = pgEth (n.val / 4) 2 + ETH_PCS_STAT.BLOCK_LOCK.off + 32 * (n.val % 4)) s t)) ∧
    (∀ (rx lf rf : Bool) (pcs : BitVec 3), s.portExists n.val = false → s.linkUp n.val = false →
      NoEffect (.linkDown n rx lf rf pcs) s) ∧
    (∀ g : Fin 32, (s.buf.group.get {} g.val).trains = true → s.get (pgEth g.val 0) ETH_AN_CFG.LT_EN = 1 → Completes (.ltFail g) s (fun t =>
      t.io.cause (pgEth g.val 0) 1 = true ∧ OnlyIrq s t ∧ KeepsWords (· = pgEth g.val 0 + 0x10) s t)) ∧
    (∀ g : Fin 32, (s.buf.group.get {} g.val).trains = false ∨ s.get (pgEth g.val 0) ETH_AN_CFG.LT_EN = 0 → NoEffect (.ltFail g) s)

/-- R99, R101, R104, R303: APPLY with two lanes on one is refused and counted; else the group takes its new mode, each of its ports goes
down, a frame in reception is counted as aborted, and the queues of those that cease to exist are emptied. HOLD_MS after a link went
down its port's copies are discarded and counted, and no other queue is touched. -/
def Obligations.GroupAndHold : Prop :=
  ∀ (s : State), s.on = true →
    (∀ (m : Master) (g : Fin 32) (rx : BitVec 4), s.takesWrite m.id (pgEth g.val 0 + ETH_GRP_CTL.APPLY.off) = true →
      (laneMapOk (s.get (pgEth g.val 0) ETH_LANE_MAP.RX_MAP) = true → laneMapOk (s.get (pgEth g.val 0) ETH_LANE_MAP.TX_MAP) = true →
        Completes (.groupApply m g rx) s (fun t =>
          t.mode g.val = s.get (pgEth g.val 0) ETH_GRP_CFG.MODE ∧
          (∀ k, k ≠ g.val → t.buf.group.get {} k = s.buf.group.get {} k) ∧
          (∀ j : Fin 4, t.linkUp (4 * g.val + j.val) = false ∧
            t.get (pgPmcL (g.val / 4)) PMC_RX_LINK_ABORT.COUNT ((4 * g.val + j.val) % 16)
              = (s.get (pgPmcL (g.val / 4)) PMC_RX_LINK_ABORT.COUNT ((4 * g.val + j.val) % 16) +
                  b2n (s.linkUp (4 * g.val + j.val) && tb rx j.val)) % 2 ^ 64 ∧
            (s.portExists (4 * g.val + j.val) = true → t.portExists (4 * g.val + j.val) = false →
              ∀ q : Fin 8, t.queue (8 * (4 * g.val + j.val) + q.val) = [])) ∧
          t = { s with io := t.io, buf := t.buf, tel := t.tel })) ∧
      (laneMapOk (s.get (pgEth g.val 0) ETH_LANE_MAP.RX_MAP) = false ∨ laneMapOk (s.get (pgEth g.val 0) ETH_LANE_MAP.TX_MAP) = false →
        Completes (.groupApply m g rx) s (fun t =>
          t.get (pgEth g.val 0) PG_ERR_CNT.COUNT = min (2 ^ 32 - 1) (s.get (pgEth g.val 0) PG_ERR_CNT.COUNT + 1) ∧
          OnlyRegs s t ∧ KeepsWords (fun a => a = pgEth g.val 0 + 0x1C ∨ a = pgEth g.val 0 + 0x20) s t))) ∧
    (∀ n : Fin 128, s.linkUp n.val = false → (∃ q : Fin 8, s.queue (8 * n.val + q.val) ≠ []) →
      Completes (.linkHoldExpire n) s (fun t =>
        (∀ q : Fin 8, t.queue (8 * n.val + q.val) = []) ∧ (∀ k, k / 8 ≠ n.val → t.queue k = s.queue k) ∧
        t.io.cause (pgTmbP n.val) 1 = true ∧
        t.get (pgTmbP n.val) TMB_LINKDOWN_FLUSH_CNT.COUNT = (s.get (pgTmbP n.val) TMB_LINKDOWN_FLUSH_CNT.COUNT +
          ((List.range 8).map fun q => (s.queue (8 * n.val + q)).length).sum) % 2 ^ 64 ∧
        t = { s with io := t.io, buf := t.buf, tel := t.tel })) ∧
    (∀ n : Fin 128, s.linkUp n.val = true ∨ (∀ q : Fin 8, s.queue (8 * n.val + q.val) = []) → NoEffect (.linkHoldExpire n) s)

/-- R101, R102, R108: what becomes of a frame received on a port whose link is up: discarded and counted for a receiver that is off, a
runt, an oversize frame, a bad FCS or codeword; a MAC Control frame is counted and not staged; a data frame is counted and staged
without its FCS, with its receive timestamp, or counted as dropped when staging is full. -/
def Obligations.FrameReception : Prop :=
  ∀ (s : State) (n : Fin 128) (d : List Byte) (bad : Bool), s.on = true →
    (s.portExists n.val = false ∨ s.linkUp n.val = false ∨ s.get (pgEth (n.val / 4) 0) ETH_LOOPBACK.MODE = 1 →
      NoEffect (.frameReceive n d bad) s) ∧
    (s.portExists n.val = true → s.linkUp n.val = true → s.get (pgEth (n.val / 4) 0) ETH_LOOPBACK.MODE ≠ 1 →
      (s.get (pgEth (n.val / 4) 1) ETH_MAC_CFG.RX_EN (n.val % 4) = 0 → Completes (.frameReceive n d bad) s (fun t =>
        t.get (pgPmcL (n.val / 16)) PMC_RX_DISABLED.COUNT (n.val % 16)
          = (s.get (pgPmcL (n.val / 16)) PMC_RX_DISABLED.COUNT (n.val % 16) + 1) % 2 ^ 64 ∧ OnlyIo s t)) ∧
      (s.get (pgEth (n.val / 4) 1) ETH_MAC_CFG.RX_EN (n.val % 4) = 1 → d.length < 64 →
        Completes (.frameReceive n d bad) s (fun t =>
          t.get (pgPmcL (n.val / 16)) PMC_RX_RUNT.COUNT (n.val % 16)
            = (s.get (pgPmcL (n.val / 16)) PMC_RX_RUNT.COUNT (n.val % 16) + 1) % 2 ^ 64 ∧ OnlyIo s t)) ∧
      (s.get (pgEth (n.val / 4) 1) ETH_MAC_CFG.RX_EN (n.val % 4) = 1 → 64 ≤ d.length → s.maxFrame n.val < d.length →
        Completes (.frameReceive n d bad) s (fun t =>
          t.get (pgPmcL (n.val / 16)) PMC_RX_OVERSIZE.COUNT (n.val % 16)
            = (s.get (pgPmcL (n.val / 16)) PMC_RX_OVERSIZE.COUNT (n.val % 16) + 1) % 2 ^ 64 ∧ OnlyIo s t)) ∧
      (s.get (pgEth (n.val / 4) 1) ETH_MAC_CFG.RX_EN (n.val % 4) = 1 → 64 ≤ d.length → d.length ≤ s.maxFrame n.val →
        (bad = true ∨ d.drop (d.length - 4) ≠ fcsOf (d.take (d.length - 4)) → Completes (.frameReceive n d bad) s (fun t =>
          t.get (pgPmcL (n.val / 16)) PMC_RX_FCS_ERR.COUNT (n.val % 16)
            = (s.get (pgPmcL (n.val / 16)) PMC_RX_FCS_ERR.COUNT (n.val % 16) + 1) % 2 ^ 64 ∧ OnlyIo s t)) ∧
        (bad = false → d.drop (d.length - 4) = fcsOf (d.take (d.length - 4)) →
          (beAt d 12 2 = 0x8808 → Completes (.frameReceive n d bad) s (fun t =>
            t.get (pgPmcL (n.val / 16)) PMC_RX_MACCTL.COUNT (n.val % 16)
              = (s.get (pgPmcL (n.val / 16)) PMC_RX_MACCTL.COUNT (n.val % 16) + 1) % 2 ^ 64 ∧
            t = { s with io := t.io, buf := { s.buf with sched := t.buf.sched } })) ∧
          (beAt d 12 2 ≠ 0x8808 → ((s.staged (n.val / 16)).map Pkt.cells).sum + ceilDiv d.length 64 ≤ stagingCells →
            Completes (.frameReceive n d bad) s (fun t =>
              t.staged (n.val / 16) = s.staged (n.val / 16) ++
                [{ bytes := d.take (d.length - 4), pipe := n.val / 16, inPort := n.val, ts := s.rxStamp n.val d.length,
                   prio := framePrio d }] ∧
              (∀ p, p ≠ n.val / 16 → t.staged p = s.staged p) ∧
              t.get (pgPmcL (n.val / 16)) PMC_RX_FRAMES.COUNT (n.val % 16)
                = (s.get (pgPmcL (n.val / 16)) PMC_RX_FRAMES.COUNT (n.val % 16) + 1) % 2 ^ 64 ∧
              t.get (pgPmcL (n.val / 16)) PMC_RX_BYTES.COUNT (n.val % 16)
                = (s.get (pgPmcL (n.val / 16)) PMC_RX_BYTES.COUNT (n.val % 16) + d.length) % 2 ^ 64 ∧
              t = { s with io := t.io, buf := { s.buf with staging := t.buf.staging } })) ∧
          (beAt d 12 2 ≠ 0x8808 → stagingCells < ((s.staged (n.val / 16)).map Pkt.cells).sum + ceilDiv d.length 64 →
            Completes (.frameReceive n d bad) s (fun t =>
              t.get (pgPmcL (n.val / 16)) PMC_RX_STG_DROP.COUNT (n.val % 16)
                = (s.get (pgPmcL (n.val / 16)) PMC_RX_STG_DROP.COUNT (n.val % 16) + 1) % 2 ^ 64 ∧ OnlyIo s t)))))

/-- R105, R106: which queues a received PAUSE or PFC frame pauses and releases under FC_MODE and until when, that a queue's timer
releases it when it runs out, and that while XOFF stands and the occupancy is at or above XON the passing of half the quanta time
sends XOFF again, in one frame. -/
def Obligations.PauseFrames : Prop :=
  ∀ (s : State) (n : Fin 128), s.on = true →
    (∀ (classes : BitVec 8) (quanta : List (BitVec 16)), s.portExists n.val = true → s.linkUp n.val = true →
      s.get (pgEth (n.val / 4) 1) ETH_MAC_CFG.RX_EN (n.val % 4) = 1 →
      (s.fcMode n.val = 2 → Completes (.pauseReceive n true classes quanta) s (fun t =>
        (∀ i : Fin 8, (t.get (pgEth (n.val / 4) 1) ETH_FC_STAT.RX_PAUSED (n.val % 4)).testBit i.val
          = if classes.toNat.testBit i.val && (s.get (pgEth (n.val / 4) 1) ETH_PFC_MAP.RX_EN (n.val % 4)).testBit i.val
            then decide (quanta.getD i.val 0 ≠ 0)
            else (s.get (pgEth (n.val / 4) 1) ETH_FC_STAT.RX_PAUSED (n.val % 4)).testBit i.val) ∧
        (∀ i : Fin 8, classes.toNat.testBit i.val = true →
          (s.get (pgEth (n.val / 4) 1) ETH_PFC_MAP.RX_EN (n.val % 4)).testBit i.val = true → quanta.getD i.val 0 ≠ 0 →
          (t.buf.sched.get {} n.val).pauseEnd.get 0 i.val
            = s.io.time.counted + ceilDiv (512 * (quanta.getD i.val 0).toNat) (max 1 (s.rate n.val))) ∧
        t.get (pgPmcL (n.val / 16)) PMC_RX_MACCTL.COUNT (n.val % 16)
          = (s.get (pgPmcL (n.val / 16)) PMC_RX_MACCTL.COUNT (n.val % 16) + 1) % 2 ^ 64 ∧
        t = { s with io := t.io, buf := { s.buf with sched := t.buf.sched } })) ∧
      (s.fcMode n.val = 1 → Completes (.pauseReceive n false classes quanta) s (fun t =>
        t.get (pgEth (n.val / 4) 1) ETH_FC_STAT.RX_PAUSED (n.val % 4) = (if quanta.getD 0 0 = 0 then 0 else 255) ∧
        (quanta.getD 0 0 ≠ 0 → ∀ i : Fin 8, (t.buf.sched.get {} n.val).pauseEnd.get 0 i.val
          = s.io.time.counted + ceilDiv (512 * (quanta.getD 0 0).toNat) (max 1 (s.rate n.val))) ∧
        t.get (pgPmcL (n.val / 16)) PMC_RX_MACCTL.COUNT (n.val % 16)
          = (s.get (pgPmcL (n.val / 16)) PMC_RX_MACCTL.COUNT (n.val % 16) + 1) % 2 ^ 64 ∧
        t = { s with io := t.io, buf := { s.buf with sched := t.buf.sched } })) ∧
      (∀ pfc : Bool, (pfc = true → s.fcMode n.val ≠ 2) → (pfc = false → s.fcMode n.val ≠ 1) →
        Completes (.pauseReceive n pfc classes quanta) s (fun t =>
          t.get (pgPmcL (n.val / 16)) PMC_RX_MACCTL.COUNT (n.val % 16)
            = (s.get (pgPmcL (n.val / 16)) PMC_RX_MACCTL.COUNT (n.val % 16) + 1) % 2 ^ 64 ∧
          t.get (pgEth (n.val / 4) 1) ETH_FC_STAT.RX_PAUSED (n.val % 4)
            = s.get (pgEth (n.val / 4) 1) ETH_FC_STAT.RX_PAUSED (n.val % 4) ∧ OnlyIo s t))) ∧
    (∀ (pfc : Bool) (classes : BitVec 8) (quanta : List (BitVec 16)), s.portExists n.val = false ∨ s.linkUp n.val = false →
      NoEffect (.pauseReceive n pfc classes quanta) s) ∧
    (∀ q : Fin 8, (s.get (pgEth (n.val / 4) 1) ETH_FC_STAT.RX_PAUSED (n.val % 4)).testBit q.val = true →
      Completes (.pauseTimerExpire n q) s (fun t =>
        (t.get (pgEth (n.val / 4) 1) ETH_FC_STAT.RX_PAUSED (n.val % 4)).testBit q.val = false ∧
        (∀ k : Fin 8, k ≠ q → (t.get (pgEth (n.val / 4) 1) ETH_FC_STAT.RX_PAUSED (n.val % 4)).testBit k.val
          = (s.get (pgEth (n.val / 4) 1) ETH_FC_STAT.RX_PAUSED (n.val % 4)).testBit k.val) ∧
        (s.io.tickInc ≠ 0 → (s.buf.sched.get {} n.val).pauseEnd.get 0 q.val ≤ t.io.time.counted) ∧
        t = { s with io := t.io, buf := { s.buf with sched := t.buf.sched } })) ∧
    (∀ q : Fin 8, (s.get (pgEth (n.val / 4) 1) ETH_FC_STAT.RX_PAUSED (n.val % 4)).testBit q.val = false →
      NoEffect (.pauseTimerExpire n q) s) ∧
    (s.linkUp n.val = true → s.get (pgEth (n.val / 4) 1) ETH_MAC_CFG.TX_EN (n.val % 4) = 1 →
      (s.fcMode n.val = 1 → s.txXoff n.val ≠ 0 → s.xon n.val ≤ s.stgOcc n.val none → Completes (.xoffResend n) s (fun t =>
        t = s.emit (.macCtl n.val false 0xFF [s.get (pgEth (n.val / 4) 1) ETH_FC_QUANTA.QUANTA (n.val % 4)]))) ∧
      (∀ c : Nat, s.fcMode n.val = 2 → c ≠ 0 → c < 256 →
        (∀ i : Fin 8, c.testBit i.val = ((s.txXoff n.val).testBit i.val && (s.pfcTx n.val).testBit i.val &&
          decide (s.xon n.val ≤ s.stgOcc n.val (some i.val)))) →
        Completes (.xoffResend n) s (fun t =>
          t = s.emit (.macCtl n.val true c ((List.range 8).map fun i =>
            if c.testBit i then s.get (pgEth (n.val / 4) 1) ETH_FC_QUANTA.QUANTA (n.val % 4) else 0))))) ∧
    (s.txXoff n.val = 0 ∨ s.fcMode n.val = 0 ∨ s.linkUp n.val = false ∨
      s.get (pgEth (n.val / 4) 1) ETH_MAC_CFG.TX_EN (n.val % 4) = 0 → NoEffect (.xoffResend n) s)

/-- R107, R114: the watchdog of a queue paused too long reports it and, with ACTION = 1, ignores the pause and discards the queue, until
the queue has been empty; the codewords a decoder counted in a window, and DEGRADED when the corrected symbols exceed THRESH. -/
def Obligations.WatchdogAndFec : Prop :=
  ∀ (s : State) (n : Fin 128) (q : Fin 8), s.on = true →
    (s.get (pgEth (n.val / 4) 1) ETH_PFC_WD.LIMIT_MS (n.val % 4) ≠ 0 →
      (s.get (pgEth (n.val / 4) 1) ETH_FC_STAT.RX_PAUSED (n.val % 4)).testBit q.val = true →
      Completes (.pfcWatchdog n q) s (fun t =>
        (t.get (pgEth (n.val / 4) 1) ETH_FC_STAT.WD_FIRED (n.val % 4)).testBit q.val = true ∧
        t.io.cause (pgEth (n.val / 4) 1) (4 * (n.val % 4)) = true ∧
        (s.get (pgEth (n.val / 4) 1) ETH_PFC_WD.ACTION (n.val % 4) = 1 →
          (t.buf.sched.get {} n.val).ignore.testBit q.val = true ∧ t.queue (8 * n.val + q.val) = [] ∧
          t.get (pgTmbP n.val) TMB_WD_DISCARD_CNT.COUNT
            = (s.get (pgTmbP n.val) TMB_WD_DISCARD_CNT.COUNT + (s.queue (8 * n.val + q.val)).length) % 2 ^ 64) ∧
        (s.get (pgEth (n.val / 4) 1) ETH_PFC_WD.ACTION (n.val % 4) = 0 → OnlyIrq s t) ∧
        (∀ k, k ≠ 8 * n.val + q.val → t.queue k = s.queue k) ∧ t = { s with io := t.io, buf := t.buf, tel := t.tel })) ∧
    (s.get (pgEth (n.val / 4) 1) ETH_PFC_WD.LIMIT_MS (n.val % 4) = 0 ∨
        (s.get (pgEth (n.val / 4) 1) ETH_FC_STAT.RX_PAUSED (n.val % 4)).testBit q.val = false → NoEffect (.pfcWatchdog n q) s) ∧
    ((s.buf.sched.get {} n.val).ignore.testBit q.val = true → s.queue (8 * n.val + q.val) = [] →
      Completes (.pfcWdRecover n q) s (fun t =>
        (t.buf.sched.get {} n.val).ignore.testBit q.val = false ∧
        (∀ k : Fin 8, k ≠ q → (t.buf.sched.get {} n.val).ignore.testBit k.val = (s.buf.sched.get {} n.val).ignore.testBit k.val) ∧
        (∀ k, k ≠ n.val → t.buf.sched.get {} k = s.buf.sched.get {} k) ∧ t = { s with buf := { s.buf with sched := t.buf.sched } })) ∧
    ((s.buf.sched.get {} n.val).ignore.testBit q.val = false ∨ s.queue (8 * n.val + q.val) ≠ [] → NoEffect (.pfcWdRecover n q) s) ∧
    (∀ corr sym uncorr : Nat, s.portExists n.val = false → NoEffect (.fecDegradeWindow n corr sym uncorr) s) ∧
    (∀ corr sym uncorr : Nat, s.portExists n.val = true → Completes (.fecDegradeWindow n corr sym uncorr) s (fun t =>
      t.get (pgEth (n.val / 4) 2) ETH_FEC_CORR.COUNT (n.val % 4)
        = (s.get (pgEth (n.val / 4) 2) ETH_FEC_CORR.COUNT (n.val % 4) + corr) % 2 ^ 64 ∧
      t.get (pgEth (n.val / 4) 2) ETH_FEC_SYMERR.COUNT (n.val % 4)
        = (s.get (pgEth (n.val / 4) 2) ETH_FEC_SYMERR.COUNT (n.val % 4) + sym) % 2 ^ 64 ∧
      t.get (pgEth (n.val / 4) 2) ETH_FEC_UNCORR.COUNT (n.val % 4)
        = (s.get (pgEth (n.val / 4) 2) ETH_FEC_UNCORR.COUNT (n.val % 4) + uncorr) % 2 ^ 64 ∧
      (t.get (pgEth (n.val / 4) 2) ETH_PCS_STAT.DEGRADED (n.val % 4) = 1 ↔
        s.get (pgEth (n.val / 4) 2) ETH_FEC_DEGRADE_CFG.THRESH (n.val % 4) ≠ 0 ∧
        s.get (pgEth (n.val / 4) 2) ETH_FEC_DEGRADE_CFG.THRESH (n.val % 4) < sym) ∧
      (uncorr ≠ 0 → t.io.cause (pgEth (n.val / 4) 2) (2 * (n.val % 4) + 1) = true) ∧ OnlyIo s t))

/-- R110, R112, R113: ETH_TXTS_POP removes the head of each selected timestamp FIFO; PPS_OUT rises as the nanoseconds return to 0 and
falls WIDTH_US later; the selected edge of PPS_IN loads the capture, of the time before a step of the same cycle, marks one that was
not yet taken as overrun, and the other edge does nothing. -/
def Obligations.TimestampsAndPps : Prop :=
  ∀ (s : State), s.on = true →
    (∀ (m : Master) (g : Fin 32) (mask : BitVec 4), s.takesWrite m.id (pgEth g.val 3 + ETH_TXTS_POP.POP.off) = true →
      Completes (.txtsPop m g mask) s (fun t =>
        (∀ j : Fin 4, t.txtsFifo (4 * g.val + j.val)
          = if mask.toNat.testBit j.val then (s.txtsFifo (4 * g.val + j.val)).drop 1 else s.txtsFifo (4 * g.val + j.val)) ∧
        (∀ k, k / 4 ≠ g.val → t.txtsFifo k = s.txtsFifo k) ∧ t = { s with buf := { s.buf with txts := t.buf.txts } })) ∧
    Completes .ppsOutPulse s (fun t =>
      (s.io.time.due.pps ≠ 0 → t.io.time.due.pps = s.io.time.due.pps - 1 ∧ t.io.time.ns = s.io.time.ns ∧ t.io.regs = s.io.regs) ∧
      (s.io.time.due.pps = 0 → s.io.tickInc ≠ 0 → s.io.time.ns + s.io.toMultiple 1000000000 ≤ t.io.time.ns) ∧
      (s.get (pgEth 0 3) ETH_PPS_CFG.OUT_EN = 1 → t.io.sys.ppsHigh = true ∧
        t.io.sys.ppsEnd = t.io.time.counted + 1000 * max 1 (s.get (pgEth 0 3) ETH_PPS_CFG.WIDTH_US)) ∧
      (s.get (pgEth 0 3) ETH_PPS_CFG.OUT_EN = 0 → t.io.sys = s.io.sys) ∧ OnlyIo s t) ∧
    (s.io.sys.ppsHigh = true → Completes .ppsOutEnd s (fun t =>
      t.io.sys.ppsHigh = false ∧ (s.io.tickInc ≠ 0 → s.io.sys.ppsEnd ≤ t.io.time.counted) ∧ OnlyIo s t)) ∧
    (s.io.sys.ppsHigh = false → NoEffect .ppsOutEnd s) ∧
    (∀ rising : Bool, s.get (pgEth 0 3) ETH_PPS_CFG.IN_EN = 1 →
      s.get (pgEth 0 3) ETH_PPS_CFG.IN_EDGE = b2n (!rising) → Completes (.ppsInEdge rising) s (fun t =>
        t.get (pgEth 0 3) ETH_PPS_CAP_NS.NS = s.io.time.stepped.getD s.io.time.ns % 1000000000 ∧
        t.get (pgEth 0 3) ETH_PPS_CAP_SEC_LO.SEC = s.io.time.stepped.getD s.io.time.ns / 1000000000 % 2 ^ 32 ∧
        t.get (pgEth 0 3) ETH_PPS_CAP_STAT.SEC_HI = s.io.time.stepped.getD s.io.time.ns / 1000000000 / 2 ^ 32 % 2 ^ 16 ∧
        t.get (pgEth 0 3) ETH_PPS_CAP_STAT.VALID = 1 ∧
        (s.get (pgEth 0 3) ETH_PPS_CAP_STAT.VALID = 1 → t.get (pgEth 0 3) ETH_PPS_CAP_STAT.OVERRUN = 1) ∧
        (s.io.time.stepped.isSome = true → t.get (pgEth 0 3) ETH_PPS_CAP_STAT.STEPPED = 1) ∧ t.io.cause (pgEth 0 3) 5 = true ∧
        OnlyIrq s t ∧ KeepsWords (fun a => a = pgEth 0 3 + 0x10 ∨ a = pgEth 0 3 + ETH_PPS_CAP_NS.NS.off ∨
          a = pgEth 0 3 + ETH_PPS_CAP_SEC_LO.SEC.off ∨ a = pgEth 0 3 + ETH_PPS_CAP_STAT.VALID.off) s t)) ∧
    (∀ rising : Bool, s.get (pgEth 0 3) ETH_PPS_CFG.IN_EN = 0 ∨
      s.get (pgEth 0 3) ETH_PPS_CFG.IN_EDGE ≠ b2n (!rising) → NoEffect (.ppsInEdge rising) s)

/-! ### Passes, the flow lookup, the layer 2 table -/

/-- R20 to R23, R129, R173: a pipeline whose tracker is full, or for which nothing waits, admits nothing; a first pass whose parser
verdict is a malformed packet to be dropped leaves its queue, is counted, and touches no table, no egress queue and no flow state. A
sound first pass attaches to the operation its flow has outstanding, acts on the line its flow has resident, or takes a tracker
entry and reads the hot half its stash entry names or its first bucket. -/
def Obligations.PassAdmission : Prop :=
  ∀ (s : State) (p : Fin 8), s.on = true →
    (1024 ≤ (s.missesOf p.val).length → NoEffect (.passAdmit p) s) ∧
    (s.buf.recirc.get [] p.val = [] → s.buf.inject.get [] p.val = [] → s.staged p.val = [] → NoEffect (.passAdmit p) s) ∧
    (∀ (k : Pkt) (s' : State) (r : Parsed), s.admitsFirst s' p.val k r → r.hv.malClass ≠ 0 →
      bitsOf (s'.io.prs p.val (s'.bankTag p.val / 4 % 2) PRS_MAL_ACT.ACTc) (2 * (r.hv.malClass - 1)) 2 = 0 →
      Completes (.passAdmit p) s (fun t =>
        t = { s' with io := t.io, tel := t.tel } ∧ t.flow = s.flow ∧ t.fwd = s.fwd ∧ t.buf.queues = s.buf.queues ∧
        (s.buf.recirc.get [] p.val ≠ [] → t.buf.recirc.get [] p.val = (s.buf.recirc.get [] p.val).drop 1 ∧
          t.buf.staging = s.buf.staging ∧ t.buf.inject = s.buf.inject) ∧
        (s.buf.recirc.get [] p.val = [] → s.buf.inject.get [] p.val = [] →
          t.staged p.val = (s.staged p.val).drop 1 ∧ ∀ q, q ≠ p.val → t.staged q = s.staged q))) ∧
    (∀ (k : Pkt) (u : State) (r : Parsed), s.admitsFirst u p.val k r → s.looksUp u p.val k r →
      (∀ m, (s.missesOf p.val).find? (fun x => x.hash == r.hv.hash && x.key == keyCheck r.block) = some m →
        Completes (.passAdmit p) s (fun t =>
          ∃ ps : Pass, ps.hash = m.hash ∧ ps.key = m.key ∧ ps.hv = { r.hv with bank := u.bankTag p.val % 2 } ∧
            t.missesOf p.val = ((s.missesOf p.val).map fun x =>
              if x.hash == m.hash && x.key == m.key then { m with passes := m.passes ++ [ps] } else x) ∧
            t.flow.cache = s.flow.cache ∧ t.fmc = s.fmc)) ∧
      ((∀ x ∈ s.missesOf p.val, ¬ (x.hash = r.hv.hash ∧ x.key = keyCheck r.block)) →
        (∀ i, s.probe r.hv.hash (keyCheck r.block) = some i → Completes (.passAdmit p) s (fun t =>
          ∃ (v : State) (ps : Pass), v.flow = s.flow ∧ v.fmc = s.fmc ∧ v.act = s.act ∧ ps.outcome = 0 ∧
            ps.hash = r.hv.hash ∧ ps.key = keyCheck r.block ∧ ps.hv = { r.hv with bank := u.bankTag p.val % 2 } ∧
            t = { ((v.touch i).action p.val ps i) with pending := s.pending })) ∧
        (s.probe r.hv.hash (keyCheck r.block) = none → Completes (.passAdmit p) s (fun t =>
          ∃ m : Miss, m.hash = r.hv.hash ∧ m.key = keyCheck r.block ∧ m.passes.length = 1 ∧ m.req = s.fmc.nextId ∧
            m.stage = (match s.stashFind r.hv.hash (keyCheck r.block) with
              | some e => .hot (hdrRec e.2) 0
              | none => .bucket 1) ∧
            t.missesOf p.val = s.missesOf p.val ++ [m] ∧ t.fmc.nextId = s.fmc.nextId + 1 ∧ t.flow.cache = s.flow.cache))))

/-- R173, R176: a bucket that holds a header of the identity is followed by a read of the hot half it names; a first bucket that holds
none, by a read of the second; a hot half of the identity that is ACTIVE and not under removal waits for a way when its set has
none, and ends the entry when the record is resident or a way is found; an answer that has not come, or an entry that is not there,
changes nothing. -/
def Obligations.LookupReads : Prop :=
  ∀ (s : State) (p : Fin 8) (entry : Nat) (held : BitVec 4), s.on = true →
    ((s.missesOf p.val)[entry]? = none → NoEffect (.flowReadReturn p entry held) s ∧ NoEffect (.cacheInstall p entry held) s) ∧
    (∀ m, (s.missesOf p.val)[entry]? = some m → s.fmc.resp.get none m.req = none → NoEffect (.flowReadReturn p entry held) s) ∧
    (∀ (m : Miss) (l : Line), (s.missesOf p.val)[entry]? = some m → m.stage = .bucket 1 →
      s.fmc.resp.get none m.req = some (some l) → findSlot l m.hash m.key = none →
      Completes (.flowReadReturn p entry held) s (fun t =>
        t.missesOf p.val = ((s.missesOf p.val).map fun x =>
          if x.hash == m.hash && x.key == m.key then { m with stage := .bucket 2, req := s.fmc.nextId } else x) ∧
        (∀ q, q ≠ p.val → t.missesOf q = s.missesOf q) ∧ t.fmc.nextId = s.fmc.nextId + 1 ∧
        t = { s with io := t.io, fmc := t.fmc, flow := { s.flow with miss := t.flow.miss } })) ∧
    (∀ (m : Miss) (l : Line) (w i : Nat), (s.missesOf p.val)[entry]? = some m → m.stage = .bucket w →
      s.fmc.resp.get none m.req = some (some l) → findSlot l m.hash m.key = some i →
      Completes (.flowReadReturn p entry held) s (fun t =>
        t.missesOf p.val = ((s.missesOf p.val).map fun x =>
          if x.hash == m.hash && x.key == m.key then { m with stage := .hot (hdrRec (slotHdr l i)) w, req := s.fmc.nextId } else x) ∧
        (∀ q, q ≠ p.val → t.missesOf q = s.missesOf q) ∧ t.fmc.nextId = s.fmc.nextId + 1 ∧
        t = { s with io := t.io, fmc := t.fmc, flow := { s.flow with miss := t.flow.miss } })) ∧
    (∀ (m : Miss) (r src : Nat) (h : Line), (s.missesOf p.val)[entry]? = some m → m.stage = .hot r src →
      s.fmc.resp.get none m.req = some (some h) → hKey.get h = m.key → hHash.get h = m.hash → hLife.get h = lifeActive →
      s.closing r = false →
      (s.probe m.hash m.key = none → s.victim (cacheSet m.key) held.toNat = none →
        Completes (.flowReadReturn p entry held) s (fun t =>
          t.missesOf p.val = ((s.missesOf p.val).map fun x =>
            if x.hash == m.hash && x.key == m.key then { m with stage := .way r, req := src } else x) ∧
          t.flow.cache = s.flow.cache ∧
          t = { s with io := t.io, fmc := { s.fmc with resp := t.fmc.resp }, flow := { s.flow with miss := t.flow.miss } })) ∧
      ((s.probe m.hash m.key).isSome = true ∨ (s.victim (cacheSet m.key) held.toNat).isSome = true →
        Completes (.flowReadReturn p entry held) s (fun t =>
          (∀ x ∈ t.missesOf p.val, ¬ (x.hash = m.hash ∧ x.key = m.key)) ∧
          t = { s with io := t.io, buf := t.buf, fmc := t.fmc, flow := t.flow, tel := t.tel })))

/-- R167, R169 to R171: an entry that waits for a way and finds one, or the record already resident, leaves the tracker, its half still
ACTIVE, of its identity and not under removal, and nothing but packets, memory traffic and flow state changes; cleaning a bank
leaves each of its valid lines clean, no line's contents changed and no line of another bank touched. -/
def Obligations.CacheInstallAndClean : Prop :=
  ∀ (s : State), s.on = true →
    (∀ (p : Fin 8) (entry : Nat) (held : BitVec 4) (m : Miss) (r : Nat) (h : Line), (s.missesOf p.val)[entry]? = some m →
      m.stage = .way r → h = s.lineView (s.hotLoc r) → hKey.get h = m.key → hHash.get h = m.hash → hLife.get h = lifeActive →
      s.closing r = false → (s.probe m.hash m.key).isSome = true ∨ (s.victim (cacheSet m.key) held.toNat).isSome = true →
      Completes (.cacheInstall p entry held) s (fun t =>
        (∀ x ∈ t.missesOf p.val, ¬ (x.hash = m.hash ∧ x.key = m.key)) ∧
        t = { s with io := t.io, buf := t.buf, fmc := t.fmc, flow := t.flow, tel := t.tel })) ∧
    (∀ (p : Fin 8) (entry : Nat) (held : BitVec 4) (m : Miss), (s.missesOf p.val)[entry]? = some m →
      (∀ r, m.stage ≠ .way r) → NoEffect (.cacheInstall p entry held) s) ∧
    (∀ bank : Fin 64, Completes (.cacheClean bank) s (fun t =>
      (∀ i, i / 4 % 64 = bank.val → lineValid (t.cacheAt i) = true → lineClean (t.cacheAt i) = true) ∧
      (∀ i, (t.cacheAt i).data = (s.cacheAt i).data ∧ lineValid (t.cacheAt i) = lineValid (s.cacheAt i)) ∧
      (∀ i, i / 4 % 64 ≠ bank.val → t.cacheAt i = s.cacheAt i) ∧
      t = { s with io := t.io, fmc := t.fmc, flow := { s.flow with cache := t.flow.cache } }))

/-- R147, R149: the learn engine takes the oldest event, and one that finds its address on its port only refreshes the entry; a visit of
the age sweep clears a set HIT with the age, ages an entry, or removes one that reaches AGE_MAX, and leaves a static, frozen or
invalid one. -/
def Obligations.LearningAndAgeing : Prop :=
  ∀ (s : State) (p : Fin 8), s.on = true →
    (s.learnQ p.val = [] → NoEffect (.learnTake p) s) ∧
    (∀ ev rest, s.learnQ p.val = ev :: rest → Completes (.learnTake p) s (fun t =>
      t.learnQ p.val = rest ∧ (∀ q, q ≠ p.val → t.learnQ q = s.learnQ q) ∧
      (∀ i e, s.l2Find p.val ev.mac ev.fid = some (i, e) → l2Port e = ev.port →
        t.l2At p.val i = sb (sb (s.l2At p.val i) 8 1 1) 4 4 0 ∧ ∀ q j, 65536 * q + j ≠ 65536 * p.val + i → t.l2At q j = s.l2At q j) ∧
      t = { s with io := t.io, fwd := { s.fwd with l2 := t.fwd.l2, learn := t.fwd.learn, upset := t.fwd.upset } })) ∧
    (∀ i : Fin 65536,
      (l2Valid (s.l2At p.val i.val) = false ∨ l2Static (s.l2At p.val i.val) = true ∨ l2Frozen (s.l2At p.val i.val) = true →
        NoEffect (.l2AgeVisit p i) s) ∧
      (l2Valid (s.l2At p.val i.val) = true → l2Static (s.l2At p.val i.val) = false → l2Frozen (s.l2At p.val i.val) = false →
        (l2Hit (s.l2At p.val i.val) = true → Completes (.l2AgeVisit p i) s (fun t =>
          t.l2At p.val i.val = sb (sb (s.l2At p.val i.val) 8 1 0) 4 4 0 ∧
          t = { s with fwd := { s.fwd with l2 := t.fwd.l2, upset := t.fwd.upset } })) ∧
        (l2Hit (s.l2At p.val i.val) = false → s.get (pgL2t p.val) L2T_AGE_CFG.AGE_MAX = 0 → NoEffect (.l2AgeVisit p i) s) ∧
        (l2Hit (s.l2At p.val i.val) = false → l2Age (s.l2At p.val i.val) + 1 < s.get (pgL2t p.val) L2T_AGE_CFG.AGE_MAX →
          Completes (.l2AgeVisit p i) s (fun t =>
            t.l2At p.val i.val = sb (s.l2At p.val i.val) 4 4 (l2Age (s.l2At p.val i.val) + 1) ∧
            t = { s with fwd := { s.fwd with l2 := t.fwd.l2, upset := t.fwd.upset } })) ∧
        (l2Hit (s.l2At p.val i.val) = false → s.get (pgL2t p.val) L2T_AGE_CFG.AGE_MAX ≠ 0 →
          s.get (pgL2t p.val) L2T_AGE_CFG.AGE_MAX ≤ l2Age (s.l2At p.val i.val) + 1 →
          Completes (.l2AgeVisit p i) s (fun t =>
            t.l2At p.val i.val = 0 ∧
            t.get (pgL2t p.val) L2T_AGED_CNT.COUNT = (s.get (pgL2t p.val) L2T_AGED_CNT.COUNT + 1) % 2 ^ 64 ∧
            t = { s with io := t.io, fwd := { s.fwd with l2 := t.fwd.l2, upset := t.fwd.upset } }))))

/-- R150, R155: at the end of the flap window every valid entry that is not frozen has its moves cleared, and a frozen one comes one
window nearer its release. An array scan that meets a word of right parity changes nothing; one that meets bad parity rewrites the
word from its shadow, counts that and keeps every entry, or, its shadow uncorrectable, makes the entry invalid, counts it and raises
its cause; a soft error changes an array word and not its shadow. -/
def Obligations.FlapWindowAndArrayScan : Prop :=
  ∀ (s : State) (p : Fin 8), s.on = true →
    (s.fwd.l2.wf (fun _ => 0) = true → Completes (.flapWindowEnd p) s (fun t =>
      (∀ i, i < 65536 → t.l2At p.val i =
        if l2Valid (s.l2At p.val i) = false then s.l2At p.val i
        else if l2Frozen (s.l2At p.val i) = false then sb (s.l2At p.val i) 0 4 0
        else if l2Moves (s.l2At p.val i) ≤ 1 then sb (sb (s.l2At p.val i) 9 1 0) 0 4 0
        else sb (s.l2At p.val i) 0 4 (l2Moves (s.l2At p.val i) - 1)) ∧
      (∀ q i, i < 65536 → q ≠ p.val → t.l2At q i = s.l2At q i) ∧
      t = { s with io := t.io, fwd := { s.fwd with l2 := t.fwd.l2, upset := t.fwd.upset } })) ∧
    (∀ kind index bad, parityBad (s.upsetAt kind p.val index) = false →
      NoEffect (.arrayScanVisit kind p.val index bad []) s) ∧
    (∀ kind index bad e, parityBad (s.upsetAt kind p.val index) = false →
      Completes (.arrayScanVisit kind p.val index bad [e]) s (fun t =>
        t.upsetAt kind p.val e.1 = s.upsetAt kind p.val e.1 ^^^ e.2.toNat ∧
        t = { s with fwd := { s.fwd with upset := t.fwd.upset } })) ∧
    (∀ index, index < 65536 → parityBad (s.upsetAt .l2 p.val index) = true →
      Completes (.arrayScanVisit .l2 p.val index false []) s (fun t =>
        t.l2Arr p.val index = s.l2At p.val index ∧
        t.get (pgL2t p.val) L2T_PARITY_FIX.COUNT = (s.get (pgL2t p.val) L2T_PARITY_FIX.COUNT + 1) % 2 ^ 64 ∧
        t.get (pgL2t p.val) L2T_PARITY_IDX.INDEX = index ∧ t.io.cause (pgL2t p.val) 3 = true ∧
        t = { s with io := t.io, fwd := { s.fwd with upset := t.fwd.upset } })) ∧
    (∀ index, index < 65536 → parityBad (s.upsetAt .l2 p.val index) = true →
      Completes (.arrayScanVisit .l2 p.val index true []) s (fun t =>
      l2Valid (t.l2Arr p.val index) = false ∧ l2Valid (t.l2At p.val index) = false ∧
      t.get (pgL2t p.val) L2T_PARITY_LOST.COUNT = (s.get (pgL2t p.val) L2T_PARITY_LOST.COUNT + 1) % 2 ^ 32 ∧
      t.io.cause (pgL2t p.val) 4 = true ∧ t.io.nvm.seq = s.io.nvm.seq + 1 ∧
      t = { s with io := t.io, fwd := { s.fwd with l2 := t.fwd.l2, upset := t.fwd.upset } })) ∧
    (∀ index, index < 16384 → parityBad (s.upsetAt .cls p.val index) = true →
      Completes (.arrayScanVisit .cls p.val index true []) s (fun t =>
      t.fwd.clsValid.get false (clsBank p.val index 0) = false ∧ t.fwd.clsValid.get false (clsBank p.val index 1) = false ∧
      t.io.cause (pgCls p.val) 1 = true ∧ 
      t = { s with io := t.io, fwd := { s.fwd with clsValid := t.fwd.clsValid, upset := t.fwd.upset } }))

/-! ### Table commands -/

/-- R81, R88, R89: a table command changes nothing when its queue has none waiting; one with reserved flags, or of no row, ends with
BAD_COMMAND in each part it names, one whose INDIRECT buffer cannot be reached with DMA_ERROR, and neither touches a table. -/
def Obligations.TableCommandChecks : Prop :=
  ∀ (s : State) (c : Cmd) (es : List ReadEnd), s.on = true →
    (s.cmdWaiting c = false → ∀ x ∈ tableRows c es, NoEffect x s) ∧
    (s.cmdWaiting c = true → c.known = false ∨ c.flags.toNat / 4 ≠ 0 → ∀ x ∈ tableRows c es, Completes x s (fun t =>
      StatusIs c (c.partList.map fun p => (p, { code := ccBadCommand })) s t ∧ OnlyStatus c s t)) ∧
    (s.cmdWaiting c = true → c.known = true → c.flags.toNat / 4 = 0 → c.partList = [0] → c.indirect = true → c.dmaOk = false →
      ∀ x ∈ tableRows c es, Completes x s (fun t => StatusIs c [(0, { code := ccDmaError })] s t ∧ OnlyStatus c s t))

/-- R52, R134, R137, R138: a read of a classifier entry or search profile gives its image and changes no table; a write enters the image
and its valid bit, and is refused for an entry valid in the active bank that would change; a delete clears the pending valid bit in
each pipeline it names; a write of a page whose pending bank is being copied waits in its queue. -/
def Obligations.ClassifierAccess : Prop :=
  ∀ (s : State) (c : Cmd) (p : Nat), s.on = true →
    (s.takesPart c 0xFF p → c.indirect = true → c.len = 48 → c.idx < 16384 →
      (s.clsOn p c.idx 0 = true ∧ s.clsOn p c.idx 1 = true → Completes (.clsRead c) s (fun t =>
        Answers c p { data := bytesLE 48 ((s.clsImage p c.idx).toNat + 5 * 2 ^ 352), result := some 48 } s t ∧ OnlyStatus c s t)) ∧
      (s.clsFree p c.idx = true → Completes (.clsRead c) s (fun t => Answers c p { code := ccNotFound } s t ∧ OnlyStatus c s t))) ∧
    (s.takesPart c 0xFF p → 16384 ≤ c.idx → c.indirect = true → c.len = 48 → s.shadowBusy (pgCls p) = false →
      ∀ x, x = Instr.clsRead c ∨ x = Instr.clsWrite c ∨ x = Instr.clsDelete c →
        Completes x s (fun t => Answers c p { code := ccBadIndex } s t ∧ OnlyStatus c s t)) ∧
    (s.takesPart c 0xFF p → c.indirect = true → c.len = 48 → c.idx < 16384 → s.shadowBusy (pgCls p) = false →
      (s.feature 1 = false ∨ s.clsOn p c.idx (s.io.active (pgCls p)) = false → Completes (.clsWrite c) s (fun t =>
        Answers c p {} s t ∧
        (∀ k, t.fwd.cls.get 0 k = if k = clsKey p c.idx then entStore (ofBytesLE (c.buffer 48)) else s.fwd.cls.get 0 k) ∧
        (∀ b ∈ s.writeBanks (pgCls p), t.clsOn p c.idx b = (ofBytesLE (c.buffer 48)).testBit 352) ∧
        (∀ k, k / 2 ≠ clsKey p c.idx → t.fwd.clsValid.get false k = s.fwd.clsValid.get false k) ∧
        t = { s.unhold c.queue.val with io := t.io, fwd := { s.fwd with cls := t.fwd.cls, clsValid := t.fwd.clsValid, upset := t.fwd.upset } })) ∧
      (s.feature 1 = true → s.clsOn p c.idx (s.io.active (pgCls p)) = true →
        entStore (ofBytesLE (c.buffer 48)) ≠ s.clsImage p c.idx → Completes (.clsWrite c) s (fun t =>
          Answers c p { code := ccBadIndex, result := some 1 } s t ∧ OnlyStatus c s t))) ∧
    (s.takesPart c 0xFF p → s.shadowBusy (pgCls p) = true → ∀ x, x = Instr.clsWrite c ∨ x = Instr.clsDelete c ∨
        x = Instr.clsMove c ∨ x = Instr.searchProfileWrite c →
      Completes x s (fun t => t = { s with jobs := s.jobs.set none c.queue.val (some { cmd := c, op := 0, waits := true }) })) ∧
    (s.cmdWaiting c = true → c.badMask 0xFF false = false → dmaFails c = false → c.idx < 16384 → (∀ q ∈ c.partList, s.shadowBusy (pgCls q) = false) →
      Completes (.clsDelete c) s (fun t =>
        (∀ q ∈ c.partList, ∀ b ∈ s.writeBanks (pgCls q), t.clsOn q c.idx b = false) ∧
        (∀ k, (∀ q ∈ c.partList, k / 2 ≠ clsKey q c.idx) → t.fwd.clsValid.get false k = s.fwd.clsValid.get false k) ∧
        StatusIs c (c.partList.map fun q => (q, {})) s t ∧
        t = { s.unhold c.queue.val with io := t.io, fwd := { s.fwd with clsValid := t.fwd.clsValid, upset := t.fwd.upset } })) ∧
    (s.takesPart c 0xFF p → c.indirect = true → c.len = 72 → c.idx < 64 →
      Completes (.searchProfileRead c) s (fun t =>
        Answers c p { data := bytesLE 72 (s.profile p c.idx (if s.get (pgCls p) PG_SHADOW_CTL.RD_SEL = 0
          then s.pendBank (pgCls p) else s.io.active (pgCls p))).toNat, result := some 72 } s t ∧ OnlyStatus c s t) ∧
      (s.shadowBusy (pgCls p) = false → Completes (.searchProfileWrite c) s (fun t =>
        Answers c p {} s t ∧
        (∀ b ∈ s.writeBanks (pgCls p), t.profile p c.idx b = BitVec.ofNat 576 (ofBytesLE (c.buffer 72) &&& profFields)) ∧
        (∀ k, k / 2 ≠ 64 * p + c.idx → t.fwd.prof.get 0 k = s.fwd.prof.get 0 k) ∧ t.fwd.gone.get false (64 * p + c.idx) = false ∧
        t = { s.unhold c.queue.val with io := t.io, fwd := { s.fwd with prof := t.fwd.prof, gone := t.fwd.gone } })))

/-- R139, R140: a classifier search answers the winner of the bank it names, or NOT_FOUND, and changes nothing; a move of a valid entry
to a free place puts its image and both valid bits there and frees the source, and is refused when the place is taken or an entry of
its group and priority lies between. -/
def Obligations.ClassifierSearchAndMove : Prop :=
  ∀ (s : State) (c : Cmd) (p : Nat), s.takesPart c 0xFF p →
    (c.indirect = true → c.len = 128 → c.ix 8 1 < 64 →
      (∀ b i, b = (if c.ix 9 1 % 2 = 1 then s.pendBank (pgCls p) else s.io.active (pgCls p)) →
        s.clsWinner p b (s.profile p (c.ix 8 1) b) (profKey (s.profile p (c.ix 8 1) b) (c.buffer 128)) = some i →
        Completes (.clsSearch c) s (fun t => Answers c p { result := some i } s t ∧ OnlyStatus c s t)) ∧
      (∀ b, b = (if c.ix 9 1 % 2 = 1 then s.pendBank (pgCls p) else s.io.active (pgCls p)) →
        s.clsWinner p b (s.profile p (c.ix 8 1) b) (profKey (s.profile p (c.ix 8 1) b) (c.buffer 128)) = none →
        Completes (.clsSearch c) s (fun t => Answers c p { code := ccNotFound } s t ∧ OnlyStatus c s t))) ∧
    (c.idx < 16384 → c.le 16 2 < 16384 → s.shadowBusy (pgCls p) = false →
      (s.clsFree p c.idx = true → Completes (.clsMove c) s (fun t => Answers c p {} s t ∧ OnlyStatus c s t)) ∧
      (s.clsFree p c.idx = false → s.clsFree p (c.le 16 2) = false → Completes (.clsMove c) s (fun t =>
        Answers c p { code := ccBadIndex } s t ∧ OnlyStatus c s t)) ∧
      (∀ i, s.clsFree p c.idx = false → s.clsFree p (c.le 16 2) = true → s.clsBetween p c.idx (c.le 16 2) = some i →
        Completes (.clsMove c) s (fun t => Answers c p { code := ccBadIndex, result := some i } s t ∧ OnlyStatus c s t)) ∧
      (s.clsFree p c.idx = false → s.clsFree p (c.le 16 2) = true → s.clsBetween p c.idx (c.le 16 2) = none →
        Completes (.clsMove c) s (fun t =>
          Answers c p {} s t ∧ t.clsImage p (c.le 16 2) = s.clsImage p c.idx ∧ t.clsFree p c.idx = true ∧
          t.clsOn p (c.le 16 2) 0 = s.clsOn p c.idx 0 ∧ t.clsOn p (c.le 16 2) 1 = s.clsOn p c.idx 1 ∧
          (∀ k, k / 2 ≠ clsKey p c.idx → k / 2 ≠ clsKey p (c.le 16 2) → t.fwd.clsValid.get false k = s.fwd.clsValid.get false k) ∧
          t = { s.unhold c.queue.val with io := t.io, fwd := { s.fwd with cls := t.fwd.cls, clsValid := t.fwd.clsValid, upset := t.fwd.upset } })))

/-- R152, R198: the layer 2 commands find, enter, remove and flush entries by their key, and read one by its index; the action commands
read a profile or template, store a profile with its valid bit unless it is refused or in force, clear one, and store a template
that is well formed and not in use. -/
def Obligations.ActionAndLayer2Access : Prop :=
  ∀ (s : State) (c : Cmd) (p : Nat), s.takesPart c 0xFF p →
    (∀ i e, s.l2Find p (l2CmdKey c).1 (l2CmdKey c).2 = some (i, e) →
      Completes (.l2Read c) s (fun t => Answers c p { data := l2Data (s.l2At p i), result := some i } s t ∧ OnlyStatus c s t) ∧
      Completes (.l2Delete c) s (fun t =>
        Answers c p {} s t ∧ (∀ k, t.fwd.l2.get 0 k = if k = 65536 * p + i then 0 else s.fwd.l2.get 0 k) ∧
        t = { s.unhold c.queue.val with io := t.io, fwd := { s.fwd with l2 := t.fwd.l2, upset := t.fwd.upset } })) ∧
    (s.l2Find p (l2CmdKey c).1 (l2CmdKey c).2 = none →
      Completes (.l2Read c) s (fun t => Answers c p { code := ccNotFound } s t ∧ OnlyStatus c s t) ∧
      Completes (.l2Delete c) s (fun t => Answers c p {} s t ∧ OnlyStatus c s t) ∧
      (s.l2Free p = none → Completes (.l2Write c) s (fun t => Answers c p { code := ccFull } s t ∧ OnlyStatus c s t))) ∧
    (∀ i, (∃ e, s.l2Find p (l2CmdKey c).1 (l2CmdKey c).2 = some (i, e)) ∨
        (s.l2Find p (l2CmdKey c).1 (l2CmdKey c).2 = none ∧ s.l2Free p = some i) →
      Completes (.l2Write c) s (fun t =>
        Answers c p { result := some i } s t ∧
        (∀ k, t.fwd.l2.get 0 k = if k = 65536 * p + i then
          l2Make (l2CmdKey c).1 (l2CmdKey c).2 (c.le 16 1) ((c.le 17 1).testBit 0) false false 0 0 else s.fwd.l2.get 0 k) ∧
        t = { s.unhold c.queue.val with io := t.io, fwd := { s.fwd with l2 := t.fwd.l2, upset := t.fwd.upset } })) ∧
    Completes (.l2Flush c) s (fun t =>
      (∀ i e, (i, e) ∈ s.l2List p → (c.le 16 1 = 0xFF ∨ l2Port e = c.le 16 1) → (c.le 18 2 = 0xFFFF ∨ l2Fid e = c.le 18 2) →
        ((c.le 17 1).testBit 0 = true ∨ l2Static e = false) → t.l2At p i = 0) ∧
      (∀ q i, i < 65536 → q ≠ p → t.l2At q i = s.l2At q i) ∧ t = { s.unhold c.queue.val with io := t.io, fwd := { s.fwd with l2 := t.fwd.l2, upset := t.fwd.upset } }) ∧
    (l2Valid (s.l2At p (c.ix 8 2)) = true → Completes (.l2ReadAt c) s (fun t =>
      StatusIs c [(p, { result := some (c.ix 8 2) })] s t ∧
      .dma (s.entryOf c + 8) (bytesBE 6 (l2Mac (s.l2At p (c.ix 8 2))) ++ bytesLE 2 (l2Fid (s.l2At p (c.ix 8 2)))) ∈ t.io.out ∧
      OnlyStatus c s t)) ∧
    (l2Valid (s.l2At p (c.ix 8 2)) = false → Completes (.l2ReadAt c) s (fun t =>
      Answers c p { code := ccNotFound } s t ∧ OnlyStatus c s t)) ∧
    (c.idx < 4096 → s.profOn p c.idx 0 = true → s.profOn p c.idx 1 = true → Completes (.actionProfileRead c) s (fun t =>
      Answers c p { data := bytesLE 16 (s.prof p c.idx).toNat ++ [5] } s t ∧ OnlyStatus c s t)) ∧
    (c.idx < 4096 → s.shadowBusy (pgAct p) = false →
      profRefused (BitVec.ofNat 128 (c.le 16 16)) = false → (prKind (BitVec.ofNat 128 (c.le 16 16)) = 3 → s.feature 3 = true) →
      (s.feature 1 = false ∨ s.profOn p c.idx (s.io.active (pgAct p)) = false) → Completes (.actionProfileWrite c) s (fun t =>
        Answers c p {} s t ∧ t.prof p c.idx = BitVec.ofNat 128 (c.le 16 16) ∧
        (∀ b ∈ s.writeBanks (pgAct p), t.profOn p c.idx b = (c.le 32 1).testBit 0) ∧
        (∀ k, k ≠ actKey p c.idx → t.fwd.act.get 0 k = s.fwd.act.get 0 k) ∧
        t = { s.unhold c.queue.val with io := t.io, fwd := { s.fwd with act := t.fwd.act, actValid := t.fwd.actValid } })) ∧
    (c.idx < 4096 → s.shadowBusy (pgAct p) = false → Completes (.actionProfileDelete c) s (fun t =>
      Answers c p {} s t ∧ (∀ b ∈ s.writeBanks (pgAct p), t.profOn p c.idx b = false) ∧
      (∀ k, k / 2 ≠ actKey p c.idx → t.fwd.actValid.get false k = s.fwd.actValid.get false k) ∧
      t = { s.unhold c.queue.val with io := t.io, fwd := { s.fwd with actValid := t.fwd.actValid } })) ∧
    (∀ n, c.idx = 0x10000 + n → n < 64 → c.indirect = true → c.len = 128 → beAt (c.buffer 128) 1 1 ∈ [1, 2, 3, 6] →
      14 ≤ beAt (c.buffer 128) 0 1 → beAt (c.buffer 128) 0 1 ≤ 120 → s.tmplUser p n = none →
      Completes (.templateWrite c) s (fun t =>
        Answers c p {} s t ∧
        (∀ k, t.fwd.tmpl.get 0 k = if k = 64 * p + n then lineOfBytes 1024 (c.buffer 128) else s.fwd.tmpl.get 0 k) ∧
        t = { s.unhold c.queue.val with
          io := t.io, fwd := { s.fwd with tmpl := t.fwd.tmpl }, act := { s.act with gone := t.act.gone } }))

/-- R143, R144, R228: the LPM commands of a bank find an entry by its own fields or by longest match, enter it (the model's choice, log
entry 72: in the place of a lost one of its group), replace its result, and remove it; the zone commands read and write a zone's set
and a set's classes, and nothing beyond them. -/
def Obligations.LpmAndZoneAccess : Prop :=
  ∀ (s : State) (c : Cmd) (p : Nat),
    (∀ e, s.takesPart c 0x0F p → lpmOfCmd c = some e →
      (∀ i x, lpmFind (s.lpmBank p) (fun x => x.same e) = some (i, x) →
        Completes (.lpmRead c) s (fun t => Answers c p { data := lpmData x, result := some i } s t ∧ OnlyStatus c s t) ∧
        Completes (.lpmWrite c) s (fun t =>
          Answers c p { result := some i } s t ∧ t.lpmBank p = ((s.lpmBank p).map fun y => if y.same e then e else y) ∧
          (∀ q, q ≠ p → t.lpmBank q = s.lpmBank q) ∧ t = { s.unhold c.queue.val with io := t.io, fwd := { s.fwd with lpm := t.fwd.lpm, upset := t.fwd.upset } }) ∧
        Completes (.lpmDelete c) s (fun t =>
          Answers c p { result := some i } s t ∧ t.lpmBank p = (lpmRemove (s.lpmBank p) x).1 ∧
          (∀ q, q ≠ p → t.lpmBank q = s.lpmBank q) ∧ t = { s.unhold c.queue.val with io := t.io, fwd := { s.fwd with lpm := t.fwd.lpm, upset := t.fwd.upset } })) ∧
      (lpmFind (s.lpmBank p) (fun x => x.same e) = none →
        Completes (.lpmRead c) s (fun t => Answers c p { code := ccNotFound } s t ∧ OnlyStatus c s t) ∧
        Completes (.lpmDelete c) s (fun t => Answers c p {} s t ∧ OnlyStatus c s t) ∧
        (∀ i, (s.lpmBank p).findIdx? (fun x => !x.valid && x.group == e.group) = some i → Completes (.lpmWrite c) s (fun t =>
          Answers c p { result := some i } s t ∧ t.lpmBank p = (s.lpmBank p).set i e ∧ (∀ q, q ≠ p → t.lpmBank q = s.lpmBank q) ∧
          t = { s.unhold c.queue.val with io := t.io, fwd := { s.fwd with lpm := t.fwd.lpm, upset := t.fwd.upset } })) ∧
        ((s.lpmBank p).findIdx? (fun x => !x.valid && x.group == e.group) = none → (s.lpmBank p).length < lpmSize →
            Completes (.lpmWrite c) s (fun t =>
          Answers c p { result := (lpmFind (lpmInsert (s.lpmBank p) e).1 fun x => x.same e).map (·.1) } s t ∧
          t.lpmBank p = (lpmInsert (s.lpmBank p) e).1 ∧ (∀ q, q ≠ p → t.lpmBank q = s.lpmBank q) ∧
          t = { s.unhold c.queue.val with io := t.io, fwd := { s.fwd with lpm := t.fwd.lpm, upset := t.fwd.upset } })) ∧
        ((s.lpmBank p).findIdx? (fun x => !x.valid && x.group == e.group) = none → lpmSize ≤ (s.lpmBank p).length → Completes (.lpmWrite c) s (fun t =>
          Answers c p { code := ccFull } s t ∧ t.io.cause (pgLpm (2 * p)) 2 = true ∧ OnlyStatus c s t)))) ∧
    (∀ i x, s.takesPart c 0x0F p →
      lpmFind (s.lpmArr p) (fun y => y.hits (c.le 32 2 % 4096) (c.le 35 1 % 2) (c.be 16 16)) = some (i, x) →
      Completes (.lpmSearch c) s (fun t => Answers c p { data := lpmData ((s.lpmBank p).getD i x), result := some i } s t ∧ OnlyStatus c s t)) ∧
    (s.takesPart c 0xFF p → c.idx < 4096 →
      Completes (.zoneTimeoutRead c) s (fun t =>
        Answers c p { data := bytesLE 1 (s.act.zoneSet.get 0 (4096 * p + c.idx)) } s t ∧ OnlyStatus c s t) ∧
      Completes (.zoneTimeoutWrite c) s (fun t =>
        Answers c p {} s t ∧
        (∀ k, t.act.zoneSet.get 0 k = if k = 4096 * p + c.idx then c.le 16 1 % 16 else s.act.zoneSet.get 0 k) ∧
        t = { s.unhold c.queue.val with io := t.io, act := { s.act with zoneSet := t.act.zoneSet } })) ∧
    (∀ n, s.takesPart c 0xFF p → c.idx = 4096 + n → n < 16 → Completes (.zoneTimeoutWrite c) s (fun t =>
      Answers c p {} s t ∧
      (∀ k, t.act.classes.get 0 k = if k = 16 * p + n then BitVec.ofNat 128 (c.le 16 16) else s.act.classes.get 0 k) ∧
      t = { s.unhold c.queue.val with io := t.io, act := { s.act with classes := t.act.classes } })) ∧
    (s.takesPart c 0xFF p → 4112 ≤ c.idx → ∀ x, x = Instr.zoneTimeoutRead c ∨ x = Instr.zoneTimeoutWrite c →
      Completes x s (fun t => Answers c p { code := ccBadIndex } s t ∧ OnlyStatus c s t))

/-- R191, R192: the host's flow commands. READ and SEARCH give both halves of the record, DELETE of a record asks for its removal and of
an absent key answers 0xFFFFFFFF, WALK counts the indices it gives, READ_BUCKET gives a stash entry, and WRITE is refused when it
names sealed fields, answers NOT_FOUND for an absent key it may not create, and gives a resident record's current copy the masked
fields. -/
def Obligations.FlowTableAccess : Prop :=
  ∀ (s : State) (c : Cmd) (es : List ReadEnd), s.takesPart c 1 0 →
    (∀ h d s', c.indirect = true → 128 ≤ c.len → c.idx < 67108864 → (s.unhold c.queue.val).hostRecord c.idx es = (some (h, d), s') →
      (hLife.get h ≠ lifeFree → Completes (.flowRead c es) s (fun t =>
        Answers c 0 { data := bytesLE 64 h.toNat ++ bytesLE 64 d.toNat, result := some c.idx } s t ∧ t = { s' with io := t.io })) ∧
      (hLife.get h = lifeFree → Completes (.flowRead c es) s (fun t =>
        Answers c 0 { code := ccNotFound } s t ∧ t = { s' with io := t.io }))) ∧
    (∀ hash key s', keyOf c 40 = some (hash, key) → (s.unhold c.queue.val).hostFind hash key es = (.none, s') → Completes (.flowDelete c es) s (fun t =>
      Answers c 0 { result := some 0xFFFFFFFF } s t ∧ t = { s' with io := t.io })) ∧
    (∀ hash key r s', keyOf c 40 = some (hash, key) → (s.unhold c.queue.val).hostFind hash key es = (.at' r, s') → Completes (.flowDelete c es) s (fun t =>
      Answers c 0 { result := some r } s t ∧ t = { s'.submitRemoval r 3 0 with io := t.io })) ∧
    (∀ hash key s', keyOf c 168 = some (hash, key) → (s.unhold c.queue.val).hostFind hash key es = (.none, s') → Completes (.flowSearch c es) s (fun t =>
      Answers c 0 { code := ccNotFound } s t ∧ t = { s' with io := t.io })) ∧
    (∀ hash key r h d s' s'', keyOf c 168 = some (hash, key) → (s.unhold c.queue.val).hostFind hash key es = (.at' r, s') →
      s'.hostRecord r (es.drop 4) = (some (h, d), s'') → hLife.get h ≠ lifeFree → Completes (.flowSearch c es) s (fun t =>
        Answers c 0 { data := bytesLE 64 h.toNat ++ bytesLE 64 d.toNat, off := 40, result := some r } s t ∧ t = { s'' with io := t.io })) ∧
    (1 ≤ c.ix 12 2 → c.ix 12 2 ≤ 512 → c.indirect = true → 4 * (c.ix 12 2 + 1) ≤ c.len → bitsOf c.idx 0 32 < 67108864 →
      Completes (.flowWalk c) s (fun t =>
        StatusIs c [(0, { result := some (min (c.ix 12 2) (s.flow.used.keys.filter fun r => bitsOf c.idx 0 32 ≤ r).length) })] s t ∧
        OnlyStatus c s t)) ∧
    (c.idx.testBit 63 = true → bitsOf c.idx 0 63 < 1024 → c.indirect = true → 16 ≤ c.len → Completes (.flowReadBucket c es) s (fun t =>
      Answers c 0 { data := bytesLE 16 (s.flow.stash.get 0 (bitsOf c.idx 0 63)).toNat, result := some (bitsOf c.idx 0 63) } s t ∧
      OnlyStatus c s t)) ∧
    ((wMask c).testBit 15 = true → Completes (.flowWrite c es) s (fun t =>
      StatusIs c [(0, { code := ccSealed })] s t ∧ OnlyStatus c s t)) ∧
    (∀ hash key s', (wMask c).testBit 15 = false → bitsOf (wMask c) 7 8 = 0 → keyOf c 168 = some (hash, key) → wCreate c = false →
      s.claimFor hash key = none → (∀ x ∈ s.flow.claims, x.owner ≠ 512 + c.queue.val) →
      ({ s with jobs := s.jobs.set none c.queue.val (some { cmd := c, op := 2 }) } : State).hostFind hash key es
        = (.none, s') →
      Completes (.flowWrite c es) s (fun t => StatusIs c [(0, { code := ccNotFound })] s t ∧ t.jobs.get none c.queue.val = none)) ∧
    (∀ hash key i r, (wMask c).testBit 15 = false → bitsOf (wMask c) 5 10 = 0 → keyOf c 168 = some (hash, key) → s.claimFor hash key = none →
      (∀ x ∈ s.flow.claims, x.owner ≠ 512 + c.queue.val) → s.probe hash key = some i → lineRec (s.cacheAt i) = r → hLife.get (s.cacheAt i).data = lifeActive →
      s.wayOf (hKey.get (s.lineView (s.hotLoc r))) r = some i → s.wayOf (hKey.get (s.cacheAt i).data) r = some i →
      Completes (.flowWrite c es) s (fun t =>
        StatusIs c [(0, { result := some r })] s t ∧ (t.cacheAt i).data = maskHot (wMask c) (wHotImage c) (s.cacheAt i).data ∧
        lineClean (t.cacheAt i) = false ∧ (∀ k, k ≠ i → t.cacheAt k = s.cacheAt k) ∧
        t.jobs.get none c.queue.val = none ∧ (∀ k, k ≠ c.queue.val → t.jobs.get none k = s.jobs.get none k) ∧
        t = { s.unhold c.queue.val with io := t.io, flow := { s.flow with cache := t.flow.cache }, jobs := t.jobs }))

/-- R376: TABLE 0x07 answers NO_FEATURE without SEALED_METER; with it an account is read whole and never written, a map entry is read,
and written with the assignment generation counted, but not while the map is locked. -/
def Obligations.AccountAccess : Prop :=
  ∀ (s : State) (c : Cmd) (es : List ReadEnd), s.takesPart c 1 0 →
    (s.feature 5 = false → ∀ x ∈ [Instr.accountRead c es, .accountWrite c, .accountDelete c, .readMap c, .writeMap c],
      Completes x s (fun t => Answers c 0 { code := ccNoFeature } s t ∧ OnlyStatus c s t)) ∧
    (s.feature 5 = true →
      (∀ v s', c.indirect = true → c.len = 64 → c.idx < 4194304 → (s.unhold c.queue.val).readNow (accountLoc c.idx) 3 0x01 false es = (some v, s') →
        Completes (.accountRead c es) s (fun t =>
          Answers c 0 { data := bytesLE 64 v.toNat } s t ∧ t = { s' with io := t.io })) ∧
      (∀ x, x = Instr.accountWrite c ∨ x = Instr.accountDelete c → Completes x s (fun t =>
        Answers c 0 { code := ccSealed } s t ∧ OnlyStatus c s t)) ∧
      (∀ a, mapIndex c = some a →
        Completes (.readMap c) s (fun t => Answers c 0 { data := bytesLE 1 (s.mapAt a).toNat } s t ∧ OnlyStatus c s t) ∧
        (c.le 16 1 < 16 → s.get pgQnc QNC_LOCKS.MAP = 0 → Completes (.writeMap c) s (fun t =>
          Answers c 0 {} s t ∧ (∀ k, t.mapAt k = if k = a then BitVec.ofNat 4 (c.le 16 1) else s.mapAt k) ∧
          t.get pgQnc QNC_ASSIGN_GEN.GEN = (s.get pgQnc QNC_ASSIGN_GEN.GEN + 1) % 2 ^ QNC_ASSIGN_GEN.GEN.len ∧
          t = { s.unhold c.queue.val with io := t.io, qnc := { s.qnc with map := t.qnc.map } })) ∧
        (c.le 16 1 < 16 → s.get pgQnc QNC_LOCKS.MAP = 1 → Completes (.writeMap c) s (fun t =>
          Answers c 0 { code := ccLocked } s t ∧ OnlyStatus c s t))))

/-- R216, R224: the load balancer commands read and write slots, members, states and the gap of a pool, and the NAT commands pools,
bindings, blocks, addresses and prefixes, each only what it names. -/
def Obligations.BalancerAndNatAccess : Prop :=
  ∀ (s : State) (c : Cmd), s.takesPart c 1 0 →
    (lbRangeBad c = false →
      Completes (.lbSlotsRead c) s (fun t =>
        Answers c 0 { data := (List.range (lbCount c)).flatMap fun i => bytesLE 2 (s.slot (lbPool c) (lbFirst c + i)),
                      result := some (2 * lbCount c) } s t ∧ OnlyStatus c s t) ∧
      ((∀ i, i < lbCount c → leAt c.host (2 * i) 2 < 2 ^ 14) → Completes (.lbSlotsWrite c) s (fun t =>
        Answers c 0 {} s t ∧
        (∀ k, t.act.slot.get 0 k =
          if 4096 * lbPool c + lbFirst c ≤ k ∧ k < 4096 * lbPool c + lbFirst c + lbCount c
          then BitVec.ofNat 16 (leAt c.host (2 * (k - (4096 * lbPool c + lbFirst c))) 2) else s.act.slot.get 0 k) ∧
        t = { s.unhold c.queue.val with io := t.io, act := { s.act with slot := t.act.slot, gone := t.act.gone } }))) ∧
    (bitsOf (c.le 16 4) 8 20 = 0 → Completes (.writeMember c) s (fun t =>
      Answers c 0 {} s t ∧ (∀ k, t.member k = if k = lbMember c then BitVec.ofNat 32 (c.le 16 4) else s.member k) ∧
      (∀ k, t.act.memberExt.get 0 k
        = if k = lbMember c then BitVec.ofNat 128 (c.le 20 12) else s.act.memberExt.get 0 k) ∧
      t = { s.unhold c.queue.val with io := t.io, act := { s.act with member := t.act.member, memberExt := t.act.memberExt, gone := t.act.gone } })) ∧
    Completes (.setState c) s (fun t =>
      Answers c 0 {} s t ∧ gb (t.member (lbMember c)) 30 2 = c.le 16 1 % 4 ∧ gb (t.member (lbMember c)) 0 30 = gb (s.member (lbMember c)) 0 30 ∧
      (∀ k, k ≠ lbMember c → t.member k = s.member k) ∧ t = { s.unhold c.queue.val with io := t.io, act := { s.act with member := t.act.member } }) ∧
    Completes (.lbWritePool c) s (fun t =>
      Answers c 0 {} s t ∧ (∀ k, t.act.gap.get 0 k = if k = lbPool c then BitVec.ofNat 16 (c.le 16 2) else s.act.gap.get 0 k) ∧
      t = { s.unhold c.queue.val with io := t.io, act := { s.act with gap := t.act.gap } }) ∧
    Completes (.readMember c) s (fun t =>
      Answers c 0 { data := bytesLE 4 (s.member (lbMember c)).toNat ++ s.memberExt (lbMember c) } s t ∧ OnlyStatus c s t) ∧
    Completes (.readPool c) s (fun t => Answers c 0 { data := bytesLE 12 (s.natPool (natIdx c)).toNat } s t ∧ OnlyStatus c s t) ∧
    (natPoolBad (BitVec.ofNat 96 (c.le 16 12 % 2 ^ 90)) = false →
      s.blocksOn (npBase (s.natPool (natIdx c))) (npBlocks (s.natPool (natIdx c))) = [] →
      npBase (BitVec.ofNat 96 (c.le 16 12 % 2 ^ 90)) + npBlocks (BitVec.ofNat 96 (c.le 16 12 % 2 ^ 90)) ≤ 524288 →
      s.natOverlap (natIdx c) (BitVec.ofNat 96 (c.le 16 12 % 2 ^ 90)) = none → Completes (.natWritePool c) s (fun t =>
        Answers c 0 {} s t ∧
        (∀ k, t.natPool k = if k = natIdx c then BitVec.ofNat 96 (c.le 16 12 % 2 ^ 90) else s.natPool k) ∧
        t = { s.unhold c.queue.val with io := t.io, act := { s.act with pool := t.act.pool } })) ∧
    (c.indirect = true → c.len = 16 → Completes (.natSearch c) s (fun t =>
      StatusIs c [(0, { result := some (s.binding (subscriber (c.ix 8 2 % 4096) (beAt c.host 0 16))).length })] s t ∧ OnlyStatus c s t)) ∧
    Completes (.readBlock c) s (fun t => Answers c 0 { data := bytesLE 4 (s.block (bitsOf c.idx 0 19)).toNat } s t ∧ OnlyStatus c s t) ∧
    ((bitsOf c.idx 16 10 < npAddrs (s.natPool (natIdx c)) →
        s.blocksOn (npBase (s.natPool (natIdx c)) + bitsOf c.idx 16 10 * npBpa (s.natPool (natIdx c))) (npBpa (s.natPool (natIdx c))) = []) →
      Completes (.writeAddr c) s (fun t =>
        Answers c 0 {} s t ∧
        (∀ k, t.act.addr.get 0 k
          = if k = 1024 * natIdx c + bitsOf c.idx 16 10 then BitVec.ofNat 32 (c.be 16 4) else s.act.addr.get 0 k) ∧
        t = { s.unhold c.queue.val with io := t.io, act := { s.act with addr := t.act.addr } })) ∧
    (c.le 32 1 ∈ [32, 40, 48, 56, 64, 96] → Completes (.writePrefix c) s (fun t =>
      Answers c 0 {} s t ∧
      (∀ k, t.act.pfx.get 0 k
        = if k = bitsOf c.idx 0 4 then BitVec.ofNat 136 (c.le 32 1 * 2 ^ 128 + c.be 16 16) else s.act.pfx.get 0 k) ∧
      t = { s.unhold c.queue.val with io := t.io, act := { s.act with pfx := t.act.pfx } }))

/-! ### Flow table -/

/-- R177 to R180: the insert unit takes the claim a cleared removal lets go on, or the next of its round, locks its buckets and reads
both; the reads decide it, EXISTS with the record found, FULL with no index left, or a free record and a slot, a stash entry or a
relocation to come; halves, then header, then OK, MEM_ERROR where a write was not taken; a relocation clears the old slot once the
new one is written, and its fence closes once the clear is. With nothing to go on, nothing happens. -/
def Obligations.InsertUnit : Prop :=
  ∀ (s : State), s.on = true →
    (∀ c : Claim, s.flow.claims.find? (fun x => x.stage == .held && !(s.removing x.r)) = some c ∨
        (s.flow.claims.find? (fun x => x.stage == .held && !(s.removing x.r)) = none ∧
          (s.flow.claims.filter Claim.running).length < 64 ∧
          (List.range 9).findSome? (fun i => s.nextOf ((s.flow.rr + 1 + i) % 9)) = some c) →
      s.lockFree (choice1 c.key) c.id = true → s.lockFree (choice2 c.key) c.id = true → Settles .claimStart s (fun u =>
        Advanced s u c { c with stage := .reading s.fmc.nextId (s.fmc.nextId + 1) } ∧
        (∀ b, u.flow.locks.get 0 b = if b = choice1 c.key ∨ b = choice2 c.key then c.id else s.flow.locks.get 0 b) ∧
        u.fmc.nextId = s.fmc.nextId + 2 ∧ u.fmc.mem = s.fmc.mem ∧
        u = { s with io := u.io, fmc := u.fmc,
                     flow := { s.flow with rr := u.flow.rr, locks := u.flow.locks, claims := u.flow.claims } })) ∧
    (∀ c a b b1 b2, s.flow.claims.findSome? s.claimBack = some (c, a, b) → a ≠ b → s.fmc.resp.get none a = some (some b1) →
      s.fmc.resp.get none b = some (some b2) →
      (∀ r, s.claimFound c b1 b2 = some r → s.removing r = false → Settles .claimReadReturn s (fun u =>
        Answered s u { c with r := r } 13 ∧
        u = { s with io := u.io, fmc := { s.fmc with resp := u.fmc.resp },
                     flow := { s.flow with claims := u.flow.claims, locks := u.flow.locks } })) ∧
      (∀ r, s.claimFound c b1 b2 = some r → s.removing r = true → Settles .claimReadReturn s (fun u =>
        Advanced s u c { c with r := r, stage := .held } ∧ u.flow.locks = s.flow.locks.filter (fun e => e.2 != c.id) ∧
        u = { s with fmc := { s.fmc with resp := u.fmc.resp },
                     flow := { s.flow with claims := u.flow.claims, locks := u.flow.locks } })) ∧
      (s.claimFound c b1 b2 = none → 67108864 ≤ s.usedRecords → Settles .claimReadReturn s (fun u =>
        Answered s u c 5 ∧
        u = { s with io := u.io, fmc := { s.fmc with resp := u.fmc.resp },
                     flow := { s.flow with claims := u.flow.claims, locks := u.flow.locks } })) ∧
      (s.claimFound c b1 b2 = none → s.usedRecords < 67108864 →
        (∀ bkt slot, chooseSlot (choice1 c.key) (choice2 c.key) b1 b2 = some (bkt, slot) → Settles .claimReadReturn s (fun u =>
          ∃ r, r < 67108864 ∧ s.flow.used.get false r = false ∧ u.flow.used.get false r = true ∧
            Advanced s u c { c with r := r, bkt := bkt, slot := slot, stage := .halves } ∧
            u.fmc.wait = s.fmc.wait ++ s.copyWrites (s.coldLoc r) (claimCold c s.io.sec) 2 (0x20 + c.src) c.id false ++
              s.copyWrites (s.hotLoc r) (claimHot c) 2 (0x20 + c.src) c.id false ∧ u.fmc.mem = s.fmc.mem)) ∧
        (chooseSlot (choice1 c.key) (choice2 c.key) b1 b2 = none → s.get pgT FLW_INSERT_CFG.RELOC_EN = 1 →
          Settles .claimReadReturn s (fun u => ∃ r d, r < 67108864 ∧ s.flow.used.get false r = false ∧ u.flow.used.get false r = true ∧
            Advanced s u c { c with r := r, stage := .needMove, tries := d } ∧ u.fmc.mem = s.fmc.mem)) ∧
        (∀ e, chooseSlot (choice1 c.key) (choice2 c.key) b1 b2 = none → s.get pgT FLW_INSERT_CFG.RELOC_EN = 0 →
          s.get pgT FLW_INSERT_CFG.STASH_EN = 1 → s.stashFree = some e → Settles .claimReadReturn s (fun u =>
            ∃ r, r < 67108864 ∧ s.flow.used.get false r = false ∧ u.flow.used.get false r = true ∧
              Advanced s u c { c with r := r, stash := true, slot := e, stage := .halves } ∧ u.fmc.mem = s.fmc.mem)))) ∧
    (∀ c, s.flow.claims.find? (fun x => x.stage == .halves && s.accepted x.id) = some c → s.fmc.failed.get false c.id = false →
      (c.stash = false → Settles .claimHalvesAccepted s (fun u =>
        Advanced s u c { c with stage := .header } ∧
        u.fmc.wait = s.fmc.wait ++ s.copyWrites (s.bucketLoc c.bkt)
          (putSlot (s.lineView (s.bucketLoc c.bkt)) c.slot c.hash c.key c.r (whichOf c.key c.bkt)) 2 (0x20 + c.src) c.id false ∧
        u = { s with fmc := { s.fmc with wait := u.fmc.wait }, flow := { s.flow with claims := u.flow.claims } })) ∧
      (c.stash = true → Settles .claimHalvesAccepted s (fun u =>
        Answered s u c 0 ∧
        u.flow.stash.get 0 c.slot = hdrMake c.hash c.key c.r 0 (hdrGen (s.flow.stash.get 0 c.slot) + 1) ∧
        (∀ k, k ≠ c.slot → u.flow.stash.get 0 k = s.flow.stash.get 0 k) ∧
        u = { s with io := u.io, flow := { s.flow with claims := u.flow.claims, stash := u.flow.stash, locks := u.flow.locks } }))) ∧
    (∀ c, s.flow.claims.find? (fun x => x.stage == .halves && s.accepted x.id) = some c → s.fmc.failed.get false c.id = true →
      Settles .claimHalvesAccepted s (fun u => Answered s u c 10 ∧ u.flow.used.get false c.r = false)) ∧
    (∀ c, s.flow.claims.find? (fun x => x.stage == .header && s.accepted x.id) = some c →
      (s.fmc.failed.get false c.id = false → Settles .claimHeaderAccepted s (fun u =>
        Answered s u c 0 ∧
        (c.src < 8 → u.get c.page FLW_CLAIM_OK_CNT.COUNT = (s.get c.page FLW_CLAIM_OK_CNT.COUNT + 1) % 2 ^ 64) ∧
        u = { s with io := u.io, flow := { s.flow with claims := u.flow.claims, locks := u.flow.locks } })) ∧
      (s.fmc.failed.get false c.id = true → Settles .claimHeaderAccepted s (fun u =>
        Answered s u c 10 ∧ u.flow.used.get false c.r = false))) ∧
    (∀ f, s.flow.fences.find? (fun f => f.stage == 0 && s.accepted f.claim) = some f →
      (∀ c, s.fmc.failed.get false f.claim = false → s.claim f.claim = some c → Settles .relocNewAccepted s (fun u =>
        u.flow.fences = (s.flow.fences.map fun x => if x == f then { f with stage := 1 } else x) ∧
        Advanced s u c { c with bkt := f.oldB, slot := f.oldSlot, stage := .halves } ∧
        (∀ w ∈ s.copyWrites (s.bucketLoc f.oldB) (clearSlot (s.lineView (s.bucketLoc f.oldB)) f.oldSlot) 2 0x20 f.claim false,
          w ∈ u.fmc.wait) ∧
        u.get pgT FLW_RELOC_CNT.COUNT = (s.get pgT FLW_RELOC_CNT.COUNT + 1) % 2 ^ 64 ∧
        u = { s with io := u.io, fmc := { s.fmc with wait := u.fmc.wait },
                     flow := { s.flow with claims := u.flow.claims, fences := u.flow.fences } })) ∧
      (∀ c, s.fmc.failed.get false f.claim = true → s.claim f.claim = some c → Settles .relocNewAccepted s (fun u =>
        Answered s u c 10 ∧ u.flow.fences = s.flow.fences.erase f))) ∧
    (∀ f, s.flow.fences.find? (fun f => f.stage == 1 && s.accepted f.claim) = some f → Completes .fenceClose s (fun t =>
      t.flow.fences = s.flow.fences.erase f ∧
      t.get pgT FLW_FENCE_STAT.OPEN = (s.flow.fences.erase f).length % 2 ^ FLW_FENCE_STAT.OPEN.len ∧
      t = { s with io := t.io, flow := { s.flow with fences := t.flow.fences } })) ∧
    (s.flow.claims.findSome? s.claimBack = none → Settles .claimReadReturn s (· = s)) ∧
    ((∀ c ∈ s.flow.claims, s.accepted c.id = false) →
      Settles .claimHalvesAccepted s (· = s) ∧ Settles .claimHeaderAccepted s (· = s)) ∧
    ((∀ f ∈ s.flow.fences, s.accepted f.claim = false) → Settles .relocNewAccepted s (· = s) ∧ NoEffect .fenceClose s) ∧
    (s.flow.claims = [] → Settles .claimStart s (· = s)) ∧ (s.quiet → s.afterClaims = s)

/-- R161, R181, R185, R187: the drain of a stash entry reads its buckets and takes a slot of theirs, and once that is written, and the
slot is as it left it, the entry is invalid in its next generation, or stays where neither mirror took the write; the oldest removal
whose buckets are free clears its header, waits, and takes the final half, which Quince rolls where meters are sealed and which
otherwise ends with the record free; the walker, when it has tokens, visits the records in turn and submits one that is ACTIVE and
idle past its class's timeout. -/
def Obligations.RemovalAndAgeing : Prop :=
  ∀ (s : State), s.on = true →
    (∀ (e : Fin 1024) h b1 b2 v1 v2 s1 s2, h = s.flow.stash.get 0 e.val → b1 = choice1 (hdrKey h) → b2 = choice2 (hdrKey h) →
      hdrValid h = true → (s.flow.drains.any fun d => d.entry == e.val) = false → s.keyFree (hdrKey h) = true →
      s.readNow (s.bucketLoc b1) 2 0x20 false [] = (some v1, s1) → s1.readNow (s.bucketLoc b2) 2 0x20 false [] = (some v2, s2) →
      (∀ b i v, chooseSlot b1 b2 v1 v2 = some (b, i) →
        v = putSlot (if b = b1 then v1 else v2) i (hdrHash h) (hdrKey h) (hdrRec h) (whichOf (hdrKey h) b) →
        Completes (.stashDrain e) s (fun t =>
          t.flow.drains = s.flow.drains ++ [⟨e.val, b, i, hdrGen (slotHdr v i)⟩] ∧
          (∀ w ∈ s2.copyWrites (s2.bucketLoc b) v 2 0x20 (drainTag e.val) false, w ∈ t.fmc.wait) ∧
          (∀ k, t.flow.locks.get 0 k = if k = b1 ∨ k = b2 then drainTag e.val else s.flow.locks.get 0 k) ∧
          t = { s2 with fmc := { s2.fmc with wait := t.fmc.wait },
                        flow := { s2.flow with drains := t.flow.drains, locks := t.flow.locks }, pending := s.pending })) ∧
      (chooseSlot b1 b2 v1 v2 = none → Completes (.stashDrain e) s (fun t => t = { s2 with pending := s.pending }))) ∧
    (∀ e : Fin 1024, hdrValid (s.flow.stash.get 0 e.val) = false ∨ (s.flow.drains.any fun d => d.entry == e.val) = true ∨
        s.keyFree (hdrKey (s.flow.stash.get 0 e.val)) = false →
      NoEffect (.stashDrain e) s) ∧
    (∀ d, s.flow.drains.find? (fun d => s.accepted (drainTag d.entry)) = some d → s.fmc.failed.get false (drainTag d.entry) = false →
      (hdrGen (s.hdrAt (4 * d.bkt + d.slot)) = d.gen → Settles .stashPlaceAccepted s (fun u =>
        u.flow.drains = s.flow.drains.erase d ∧ hdrValid (u.flow.stash.get 0 d.entry) = false ∧
        hdrGen (u.flow.stash.get 0 d.entry) = (hdrGen (s.flow.stash.get 0 d.entry) + 1) % 16 ∧
        (∀ k, k ≠ d.entry → u.flow.stash.get 0 k = s.flow.stash.get 0 k) ∧
        u.flow.locks = s.flow.locks.filter (fun e => e.2 != drainTag d.entry) ∧
        u = { s with io := u.io, fmc := { s.fmc with failed := u.fmc.failed },
                     flow := { s.flow with drains := u.flow.drains, stash := u.flow.stash, locks := u.flow.locks } })) ∧
      (hdrGen (s.hdrAt (4 * d.bkt + d.slot)) ≠ d.gen → Settles .stashPlaceAccepted s (fun u =>
        u.flow.drains = s.flow.drains.erase d ∧ u.flow.stash = s.flow.stash))) ∧
    (∀ d, s.flow.drains.find? (fun d => s.accepted (drainTag d.entry)) = some d → s.fmc.failed.get false (drainTag d.entry) = true →
      Settles .stashPlaceAccepted s (fun u => u.flow.drains = s.flow.drains.erase d ∧ u.flow.stash = s.flow.stash)) ∧
    (∀ x : Removal, s.flow.removals.find? (fun (x : Removal) => x.stage == .queued && s.bucketsFree x.r &&
        (x.partner.map s.bucketsFree).getD true) = some x → Settles .removalStart s (fun u =>
      u.flow.removals = (s.flow.removals.map fun (y : Removal) => if y.id == x.id then { x with stage := .cleared } else y) ∧
      (∀ e, s.stashFind (hHash.get (s.curHot x.r)) (hKey.get (s.curHot x.r)) = some e → hdrRec e.2 = x.r →
        hdrValid (u.flow.stash.get 0 e.1) = false))) ∧
    (∀ x : Removal, s.flow.removals.find? (fun (x : Removal) => x.stage == .cleared) = some x → Completes .removalWaitEnd s (fun t =>
      t = { s with flow := { s.flow with removals := s.flow.removals.map fun (y : Removal) =>
        if y.id == x.id then { x with stage := .reading } else y } })) ∧
    (∀ (x : Removal) es, s.flow.removals.find? (fun (x : Removal) => x.stage == .reading) = some x →
      (s.feature 5 = true → Settles (.removalFinalRead es) s (fun u => ∃ h1 h2,
        u.flow.removals = (s.flow.removals.map fun (y : Removal) => if y.id == x.id then { x with stage := .rolling h1 h2 } else y) ∧
        h1 = (s.finalHot x.r es).1 ∧ (x.partner = none → h2 = none))) ∧
      (s.feature 5 = false → x.partner = none → (s.finalHot x.r es).1 ≠ none → Settles (.removalFinalRead es) s (fun u =>
        u.flow.removals = s.flow.removals.filter (fun (y : Removal) => y.id != x.id) ∧ u.flow.used.get false x.r = false))) ∧
    (s.flow.removals = [] → Settles .removalStart s (· = s) ∧ NoEffect .removalWaitEnd s ∧ ∀ es, Settles (.removalFinalRead es) s (· = s)) ∧
    (s.flow.drains = [] → Settles .stashPlaceAccepted s (· = s)) ∧
    (∀ es, s.bgMay 0x20 1 = true →
      Completes (.agingWalkVisit es) s (fun t => t.flow.walk = (s.flow.walk + 1) % 67108864) ∧
      (s.flow.used.get false s.flow.walk = true →
        ∀ h s', s.readNow (s.hotLoc s.flow.walk) 4 0x20 false es = (some h, s') →
          (hLife.get h = lifeActive → s'.idle h = true → s'.idle (s'.curHot s.flow.walk) = true →
            hLife.get (s'.curHot s.flow.walk) = lifeActive →
            (s.flow.removals.any fun x => x.r == s.flow.walk || x.partner == some s.flow.walk) = false →
            Completes (.agingWalkVisit es) s (fun t => ∃ x, t.flow.removals = s.flow.removals ++ [x] ∧ x.r = s.flow.walk ∧ x.cause = 0 ∧
              x.stage = .queued ∧ t.fmc = s'.fmc ∧ t.io = s'.io)) ∧
          (hLife.get h ≠ lifeActive ∨ s'.idle h = false → Completes (.agingWalkVisit es) s (fun t =>
            t.flow = { s.flow with walk := (s.flow.walk + 1) % 67108864 } ∧ t.fmc = s'.fmc ∧ t.io = s'.io)))) ∧
    (∀ es, s.bgMay 0x20 1 = false → Completes (.agingWalkVisit es) s (fun t =>
      t.fmc.bgWait.get false 1 = true ∧ t = { s with io := t.io, fmc := { s.fmc with bgWait := t.fmc.bgWait } }))

/-! ### Programmable sequencers -/

/-- R233, R235, R241, R245, R246, R248, R249, R257, R259: the oldest create miss, a claim that needs a move, or the next event of the
global Pip finds a free context and begins its routine there; a wait, a timer, a lock, a claim, a load and a COMMIT let the context
go on when what they await is there; a deadline, a slice, a lost nano-word and a failed write end the routine and free its context.
-/
def Obligations.RoutineLife : Prop :=
  ∀ (s : State), s.on = true →
    (∀ (q : Seq) m ps rest c, q.val < 8 → s.relocWaiting q.val = none → s.oldestWant q.val = some m → m.passes = ps :: rest →
      (s.freeCtxs q.val 32).head? = some c →
      (s.get (pgPip q.val) PIP_CTL.STOP = 0 → s.claimsFull q.val = false → Settles (.routineStart q) s (fun u =>
        u.ctx q.val c = { phase := .ready, evt := 1, uaddr := 1, last := 1, image := s.pipBank q.val, pass := some ps,
                          w := setupW ps s.io.sec } ∧
        (∀ k, k ≠ 32 * q.val + c → u.pip.ctx.get {} k = s.pip.ctx.get {} k) ∧
        u.missesOf q.val = ((s.missesOf q.val).map fun x =>
          if x.hash == m.hash && x.key == m.key then { m with stage := .setup c } else x) ∧
        u.get (pgPip q.val) PIP_ROUTINE_CNT.COUNT = (s.get (pgPip q.val) PIP_ROUTINE_CNT.COUNT + 1) % 2 ^ 64 ∧
        u = { s with io := u.io, flow := { s.flow with miss := u.flow.miss }, pip := { s.pip with ctx := u.pip.ctx } })) ∧
      (s.get (pgPip q.val) PIP_CTL.STOP = 1 ∨ s.claimsFull q.val = true → Settles (.routineStart q) s (· = s))) ∧
    (∀ (q : Seq) cl c, q.val < 8 → s.relocWaiting q.val = some cl → (s.freeCtxs q.val 32).head? = some c →
      s.get (pgPip q.val) PIP_CTL.STOP = 0 → Settles (.routineStart q) s (fun u =>
        u.ctx q.val c = { phase := .ready, evt := 2, uaddr := 2, last := 2, image := s.pipBank q.val, data := [cl.id] } ∧
        (∀ k, k ≠ 32 * q.val + c → u.pip.ctx.get {} k = s.pip.ctx.get {} k) ∧
        u = { s with io := u.io, pip := { s.pip with ctx := u.pip.ctx } })) ∧
    (∀ e c, s.nextEvent = some (e, c) → Settles (.routineStart 8) s (fun u =>
      u.pip.evq = s.pip.evq.erase e ∧
      u.ctx 8 c = { phase := .ready, evt := e.evt, uaddr := e.evt, last := e.evt, image := s.pipBank 8, data := e.data,
                    g := dataRegs e.data } ∧
      (∀ k, k ≠ 256 + c → u.pip.ctx.get {} k = s.pip.ctx.get {} k) ∧
      u = { s with io := u.io, pip := { s.pip with ctx := u.pip.ctx, evq := u.pip.evq } })) ∧
    (s.nextEvent = none → Settles (.routineStart 8) s (· = s)) ∧
    (∀ (q : Seq) (c : Fin 32) (x : Ctx), x = s.ctx q.val c.val →
      (x.phase = .waiting → s.waitHolds q.val c.val x = true →
        (x.cond ≠ 4 → x.cond ≠ 16 → Completes (.waitSatisfied q c) s (fun t =>
          t.ctx q.val c.val = { x with phase := .ready, satisfied := true } ∧
          (∀ k, k ≠ 32 * q.val + c.val → t.pip.ctx.get {} k = s.pip.ctx.get {} k) ∧
          t = { s with pip := { s.pip with ctx := t.pip.ctx } })) ∧
        (x.cond = 4 → q.val = 8 → Completes (.waitSatisfied q c) s (fun t => ∃ e, s.postedTo c.val = some e ∧
          t.ctx 8 c.val = { x with evt := e.evt, data := e.data, g := dataRegs e.data, phase := .ready, satisfied := true } ∧
          t.pip.evq = s.pip.evq.erase e ∧ t = { s with pip := { s.pip with ctx := t.pip.ctx, evq := t.pip.evq } })) ∧
        (x.cond = 16 → Completes (.waitSatisfied q c) s (fun t =>
          (t.ctx q.val c.val).phase = (if x.dStop = true then .suspended else .ready) ∧
          t = { s with io := t.io, pip := { s.pip with ctx := t.pip.ctx } }))) ∧
      (x.phase ≠ .waiting ∨ s.waitHolds q.val c.val x = false → NoEffect (.waitSatisfied q c) s) ∧
      (∀ d, x.timer = some d → Completes (.contextTimerExpire q c) s (fun t =>
        t.ctx q.val c.val = { x with timer := none, fired := true } ∧ (s.io.tickInc ≠ 0 → d ≤ t.io.time.counted) ∧
        (∀ k, k ≠ 32 * q.val + c.val → t.pip.ctx.get {} k = s.pip.ctx.get {} k) ∧
        t = { s with io := t.io, pip := { s.pip with ctx := t.pip.ctx } })) ∧
      (x.timer = none → NoEffect (.contextTimerExpire q c) s) ∧
      (∀ o, (x.ops.find? fun o => o.op == 5) = some o →
        (s.devLock o.addr = 0 → s.lockWanted o.addr (32 * q.val + c.val) = false → Completes (.lockGrant q c) s (fun t =>
          t.devLock o.addr = 32 * q.val + c.val + 1 ∧ (∀ k, k ≠ o.addr → t.devLock k = s.devLock k) ∧
          t.ctx q.val c.val = { x with locks := x.locks ++ [o.addr], status := 0, ops := x.ops.erase o, unread := x.unread + 1 } ∧
          t = { s with pip := { s.pip with ctx := t.pip.ctx, lock := t.pip.lock } })) ∧
        (s.devLock o.addr ≠ 0 ∨ s.lockWanted o.addr (32 * q.val + c.val) = true → NoEffect (.lockGrant q c) s)) ∧
      (∀ o k code es i, x.ops[i]? = some o → o.op = 3 → s.claim o.addr = some k → k.stage = .done → k.code = some code →
        Settles (.memResponse q c i es) s (fun u =>
          (u.ctx q.val c.val).status = code ∧ (u.ctx q.val c.val).result = k.r ∧
          (u.ctx q.val c.val).ops = x.ops.erase o ∧ (u.ctx q.val c.val).unread = x.unread + 1 ∧
          (o.space = 0 → (u.ctx q.val c.val).wClaim = if code = 0 then some ⟨k.id, some k.r, false⟩ else none) ∧
          (o.space ≠ 0 → (u.ctx q.val c.val).xClaim = if code = 0 then some ⟨k.id, some k.r, false⟩ else none) ∧
          u.flow.claims = (if code = 0 then s.flow.claims else s.flow.claims.filter fun y => y.id != k.id) ∧
          u = { s with flow := { s.flow with claims := u.flow.claims }, pip := { s.pip with ctx := u.pip.ctx } })) ∧
      (∀ o l l' y es i, x.ops[i]? = some o → o.op = 1 → o.space ≠ 9 → s.spaceBytes q.val x o.space o.addr o.size = some l →
        l' = overlay x.stage o.space o.addr l → y = { x with ops := x.ops.erase o } → y.sealBroken q.val (y.setBytes o.dst l') = false →
        Settles (.memResponse q c i es) s (fun u =>
          (u.ctx q.val c.val).status = 0 ∧ (u.ctx q.val c.val).result = leAt l' 0 8 ∧
          (u.ctx q.val c.val).ops = x.ops.erase o ∧ (u.ctx q.val c.val).unread = x.unread + 1 ∧
          (o.size = 8 → o.dst < 16 → l'.length = 8 → reg64 (u.ctx q.val c.val).w o.dst = leAt l' 0 8) ∧
          u = { s with pip := { s.pip with ctx := u.pip.ctx } })) ∧
      (x.phase = .committing → s.accepted (commitTag q.val c.val) = true →
        (s.fmc.failed.get false (commitTag q.val c.val) = false → goesLive x.wClaim x.w = false → goesLive x.xClaim x.x = false →
          x.fin = 0 → x.ckpt = false → Settles (.commitAccepted q c) s (fun u =>
            u.ctx q.val c.val = { x with phase := .ready } ∧ u = { s with pip := { s.pip with ctx := u.pip.ctx } })) ∧
        (s.fmc.failed.get false (commitTag q.val c.val) = true → Settles (.commitAccepted q c) s (fun u => u.ctx q.val c.val = {}))) ∧
      (x.phase ≠ .committing ∨ s.accepted (commitTag q.val c.val) = false → Settles (.commitAccepted q c) s (· = s)) ∧
      (∀ d, x.phase ≠ .free → x.heldBack = false → x.visAt = some d → Settles (.sliceFault q c) s (fun u =>
        u.ctx q.val c.val = {} ∧ (s.io.tickInc ≠ 0 → d + 8000 ≤ u.io.time.counted))) ∧
      (x.visAt = none → Settles (.sliceFault q c) s (· = s)) ∧
      (∀ i, x.phase = .refetch →
        Settles (.nanoRefetchDone q c i true) s (fun u =>
          u.ctx q.val c.val = { x with phase := .ready } ∧ u.io.cause (pgPip q.val) 4 = true ∧
          u.get (pgPip q.val) PIP_NANO_FIX_CNT.COUNT = (s.get (pgPip q.val) PIP_NANO_FIX_CNT.COUNT + 1) % 2 ^ 64 ∧
          u = { s with io := u.io, pip := { s.pip with ctx := u.pip.ctx } }) ∧
        Settles (.nanoRefetchDone q c i false) s (fun u =>
          u.ctx q.val c.val = {} ∧ u.pip.lost.get false (4096 * q.val + i % 4096) = true)) ∧
      (∀ i ok, x.phase ≠ .refetch → Settles (.nanoRefetchDone q c i ok) s (· = s))) ∧
    (∀ (p : Fin 8) (c : Fin 32) k,
      (∀ ps, (s.ctx p.val c.val).pass = some ps → (s.ctx p.val c.val).phase ≠ .free → (s.ctx p.val c.val).evt = 1 →
        (s.ctx p.val c.val).finalReached = false → Settles (.deadlineFault p (some c) k) s (fun u => u.ctx p.val c.val = {})) ∧
      ((s.ctx p.val c.val).phase = .free ∨ (s.ctx p.val c.val).finalReached = true →
        Settles (.deadlineFault p (some c) k) s (· = s)) ∧
      (∀ m, (s.missesOf p.val)[k]? = some m → m.stage = .wants → m.passes ≠ [] → Settles (.deadlineFault p none k) s (fun u =>
        u.missesOf p.val = (s.missesOf p.val).filter fun x => !(x.hash == m.hash && x.key == m.key))))

/-- R234, R238, R239, R242 to R244, R258: a context whose turn it is issues its microword. One whose sequencing is NEXT and whose
nano-word does arithmetic on W, X and G writes the result to its destination, sets Z and N and, for ADD, C and V when it asks for
flags, and goes on at the next address; nothing else changes but the step count. A microword that is not there, or whose parity is
wrong, ends the routine; a nano-word in error is read again; a standard routine takes its step, and one of the global Pip other than
TICK and PRESSURE, and RELOC, end with it. A context without the turn does nothing. -/
def Obligations.MicrowordIssue : Prop :=
  ∀ (s : State) (q : Seq) (c : Fin 32) (x : Ctx), s.on = true → s.ctx q.val c.val = x →
    (x.phase ≠ .ready ∨ ctxCount q.val ≤ c.val ∨ s.hasTurn q.val c.val = false → ∀ how, Settles (.microwordIssue q c how) s (· = s)) ∧
    (x.phase = .ready → c.val < ctxCount q.val → s.hasTurn q.val c.val = true →
      (∀ (m : BitVec 24) (n : Nano) (r : Nat) (cv : Option (Bool × Bool)),
        s.microAt q.val x.image (s.redirect q.val x.image x.uaddr) = some m → s.nanoGone q.val (uNano m) = false → uSeq m = 0 →
        s.nanoAt q.val x.image (uNano m) = n → nRsv n = 0 → nSize n < 6 → nAlu n < 14 → nAlu n ≠ 10 → nMem n = 0 →
        nSrcA n (uArg m) < 48 → nBImm n = true → nAddr n < 48 → nDst n (uArg m) < 48 → nCommit n = false → nCkpt n = false →
        x.visAt = none →
        aluOp (nAlu n) ((s.operand q.val c.val x 0 (nSrcA n (uArg m))).getD 0) (nImm n)
          ((s.operand q.val c.val x 0 (nDst n (uArg m))).getD 0) (nPos n) (nLen n) = some (r, cv) →
        x.sealBroken q.val (x.setOp (nDst n (uArg m)) r) = false →
        Settles (.microwordIssue q c .fetched) s (fun u =>
          s.operand q.val c.val (u.ctx q.val c.val) 0 (nDst n (uArg m)) = some (r % 2 ^ 64) ∧
          (∀ k, k < 48 → k ≠ nDst n (uArg m) →
            s.operand q.val c.val (u.ctx q.val c.val) 0 k = s.operand q.val c.val x 0 k) ∧
          (u.ctx q.val c.val).uaddr = (s.redirect q.val x.image x.uaddr + 1) % 2 ^ 15 ∧ (u.ctx q.val c.val).steps = x.steps + 1 ∧
          (u.ctx q.val c.val).phase = .ready ∧
          (nFlags n = true → (u.ctx q.val c.val).z = (r == 0) ∧ (u.ctx q.val c.val).n = r.testBit 63 ∧
            ∀ f, cv = some f → (u.ctx q.val c.val).c = f.1 ∧ (u.ctx q.val c.val).v = f.2) ∧
          (nFlags n = false → (u.ctx q.val c.val).z = x.z ∧ (u.ctx q.val c.val).n = x.n ∧ (u.ctx q.val c.val).c = x.c ∧
            (u.ctx q.val c.val).v = x.v) ∧
          (∀ k, k ≠ 32 * q.val + c.val → u.pip.ctx.get {} k = s.pip.ctx.get {} k) ∧
          u.get (pgPip q.val) PIP_STEP_CNT.COUNT = (s.get (pgPip q.val) PIP_STEP_CNT.COUNT + 1) % 2 ^ 64 ∧
          u = { s with io := u.io, pip := { s.pip with ctx := u.pip.ctx, recent := u.pip.recent } })) ∧
      (s.microAt q.val x.image (s.redirect q.val x.image x.uaddr) = none →
        Settles (.microwordIssue q c .fetched) s (fun u => u.ctx q.val c.val = {})) ∧
      Settles (.microwordIssue q c .romParity) s (fun u => u.ctx q.val c.val = {}) ∧
      (∀ k, Settles (.microwordIssue q c (.nanoError k)) s (fun u =>
        u.ctx q.val c.val = { x with phase := .refetch, last := x.uaddr } ∧
        u = { s with pip := { s.pip with ctx := u.pip.ctx, recent := u.pip.recent } })) ∧
      (x.micro = false →
        (q.val = 8 → x.evt ≠ 0x10 → x.evt ≠ 0x13 → Settles (.microwordIssue q c .routine) s (fun u => u.ctx 8 c.val = {})) ∧
        (q.val < 8 → x.evt = 2 → Settles (.microwordIssue q c .routine) s (fun u => u.ctx q.val c.val = {})) ∧
        (∀ ps, q.val < 8 → x.evt ≠ 2 → x.pass = some ps → x.rt = 0 → x.wClaim = none → Settles (.microwordIssue q c .routine) s (fun u =>
          ∃ k : Claim, u.flow.claims = s.flow.claims ++ [k] ∧ k.src = q.val ∧ k.stage = .queued ∧ k.hash = hHash.get (wHot x.w) ∧
            k.key = hKey.get (wHot x.w) ∧ (u.ctx q.val c.val).phase = .waiting ∧ (u.ctx q.val c.val).rt = 1))))

/-- R254, R261, R262: STOP drops the global events and stops an idle sequencer at once, RESUME lets suspended routines go on under the
image in force and lifts a stop that is deferred; a load asks host memory, where DMA is possible, for the image, ends with DMA_ERROR
or the code of the first failed check, and a checked image is installed in the inactive bank. -/
def Obligations.StopResumeAndLoad : Prop :=
  ∀ (s : State) (q : Seq), s.on = true →
    (∀ m : Master, s.takesWrite m.id (pgPip q.val + PIP_CTL.STOP.off) = true →
      ((∀ c, c < ctxCount q.val → (s.ctx q.val c).phase = .free) → (∀ x ∈ s.missesOf q.val, x.stage ≠ .wants) →
        (∀ x ∈ s.flow.claims, x.stage ≠ .needMove) → s.get (pgPip q.val) PIP_CTL.STOP = 0 → s.get (pgPip q.val) PIP_STAT.STOPPED = 0 →
        Completes (.pipStop m q) s (fun t =>
          t.get (pgPip q.val) PIP_CTL.STOP = 1 ∧ t.get (pgPip q.val) PIP_STAT.STOPPED = 1 ∧ t.io.cause (pgPip q.val) 3 = true ∧
          t.pip.evq = (if q.val = 8 then [] else s.pip.evq) ∧ t = { s with io := t.io, pip := { s.pip with evq := t.pip.evq } })) ∧
      Completes (.pipResume m q) s (fun t =>
        t.get (pgPip q.val) PIP_CTL.STOP = 0 ∧
        (∀ c, c < ctxCount q.val → (s.ctx q.val c).phase = .suspended →
          t.ctx q.val c = ({ s.ctx q.val c with dStop := false }).goesOn s.io.time.counted (s.pipBank q.val)) ∧
        (∀ c, c < ctxCount q.val → (s.ctx q.val c).phase ≠ .suspended → t.ctx q.val c = { s.ctx q.val c with dStop := false }) ∧
        t = { s with io := t.io, pip := { s.pip with ctx := t.pip.ctx } })) ∧
    (∀ m : Master, s.takesWrite m.id (pgPip q.val + PIP_LOAD_CTL.GO.off) = true →
      (ctlMaster m.id = true → s.loadRunning q.val = false → Completes (.pipLoadGo m q) s (fun t =>
        t.pip.loading.get 0 q.val = s.get (pgPip q.val) PIP_LOAD_LEN.LEN + 1 ∧ t.get (pgPip q.val) PIP_LOAD_STAT.CODE = plChecking ∧
        (s.io.mayDma = true → .request "patch image" (s.io.rd64 (pgPip q.val + 0x050)) (s.get (pgPip q.val) PIP_LOAD_LEN.LEN) ∈ t.io.out) ∧
        t = { s with io := t.io, pip := { s.pip with loading := t.pip.loading } })) ∧
      (ctlMaster m.id = true → s.loadRunning q.val = true → Completes (.pipLoadGo m q) s (fun t =>
        t.get (pgPip q.val) PIP_LOAD_STAT.CODE = plBusy ∧ OnlyIo s t)) ∧
      (ctlMaster m.id = false → Completes (.pipLoadGo m q) s (fun t =>
        t.get (pgPip q.val) PG_ERR_CNT.COUNT = min (2 ^ 32 - 1) (s.get (pgPip q.val) PG_ERR_CNT.COUNT + 1) ∧ OnlyIo s t))) ∧
    (∀ l dma, s.pip.loading.get 0 q.val = 0 → NoEffect (.pipLoadChecked q l dma) s) ∧
    (∀ l dma, s.pip.loading.get 0 q.val ≠ 0 →
      (s.feature 11 = false → Completes (.pipLoadChecked q l dma) s (fun t =>
        t.pip.loading.get 0 q.val = 0 ∧ t.get (pgPip q.val) PIP_LOAD_STAT.CODE = plNoFeature ∧
        t.io.cause (pgPip q.val) 2 = true ∧ t = { s with io := t.io, pip := { s.pip with loading := t.pip.loading, image := t.pip.image } })) ∧
      (s.feature 11 = true → dma = false ∨ s.io.mayDma = false → Completes (.pipLoadChecked q l dma) s (fun t =>
        t.pip.loading.get 0 q.val = 0 ∧ t.get (pgPip q.val) PIP_LOAD_STAT.CODE = plDmaError ∧
        t.io.cause (pgPip q.val) 2 = true ∧ t = { s with io := t.io, pip := { s.pip with loading := t.pip.loading, image := t.pip.image } })) ∧
      (∀ code, s.feature 11 = true → dma = true → s.io.mayDma = true →
        imgCheck q.val true (l.take (s.pip.loading.get 0 q.val - 1)) = some code → Completes (.pipLoadChecked q l dma) s (fun t =>
          t.pip.loading.get 0 q.val = 0 ∧ t.get (pgPip q.val) PIP_LOAD_STAT.CODE = code % 2 ^ PIP_LOAD_STAT.CODE.len ∧
          t.pip.image.get none q.val = none)) ∧
      (s.feature 11 = true → dma = true → s.io.mayDma = true →
        Completes (.pipLoadChecked q l dma) s (fun t => imgCheck q.val true (l.take (s.pip.loading.get 0 q.val - 1)) = none →
          t.pip.loading.get 0 q.val = 0 ∧
          t.pip.image.get none q.val = some (imageOfBytes (l.take (s.pip.loading.get 0 q.val - 1))) ∧
          t.get (pgPip q.val) PIP_LOAD_STAT.VERSION = leAt (l.take (s.pip.loading.get 0 q.val - 1)) 10 2))) ∧
    (∀ x, s.pip.image.get none q.val = some x →
      (s.commitNear (pgPip q.val) = false → s.get (pgPip q.val) PG_SHADOW_CTL.SHADOW_BUSY = 0 → Completes (.pipInstall q) s (fun t =>
        t.get (pgPip q.val) PIP_LOAD_STAT.CODE = plInstalled ∧ t.io.cause (pgPip q.val) 2 = true ∧ t.pip.image.get none q.val = none ∧
        t.pip.version.get 0 (2 * q.val + (1 - s.pipBank q.val)) = x.version ∧
        (∀ i, i < 512 → t.patchWord q.val (1 - s.pipBank q.val) i = x.words.getD i 0 ∧
          t.patchNano q.val (1 - s.pipBank q.val) i = x.nano.getD i 0) ∧
        (∀ i, i < 32 → t.matchReg q.val (1 - s.pipBank q.val) i = x.regs.getD i 0) ∧
        (∀ i, s.pipBank q.val < 2 → i < 512 → t.patchWord q.val (s.pipBank q.val) i = s.patchWord q.val (s.pipBank q.val) i) ∧
        t.pip.ctx = s.pip.ctx)) ∧
      (s.commitNear (pgPip q.val) = true ∨ s.get (pgPip q.val) PG_SHADOW_CTL.SHADOW_BUSY = 1 → NoEffect (.pipInstall q) s)) ∧
    (s.pip.image.get none q.val = none → NoEffect (.pipInstall q) s)

/-! ### Flow memory -/

/-- R269 to R271, R273 to R276, R280, R281, R291, R292: a command cycle drains a write or issues a read, unless its pseudo-channel
retrains; a write is accepted where the queue has room, buffered while its copy retrains, and leaves a copy that is not written
degraded; a read answers with what the array held, a corrected one is written back, one that fails again gives nothing; refresh
closes a row, retraining takes a channel away and returns it, the scrubber steps through the lines and a window's bytes are loaded.
-/
def Obligations.MemoryCommands : Prop :=
  ∀ (s : State) (pc : Fin 128), s.on = true →
    (∀ aged err, s.pcState pc.val = 1 → NoEffect (.dramCommandIssue pc aged err) s) ∧
    (∀ aged w, s.pcState pc.val ≠ 1 → s.writeMode pc.val false ≠ 0 → s.readyWrite pc.val = some w →
      Completes (.dramCommandIssue pc aged false) s (fun t =>
        t.array pc.val w.la = w.data ∧ (∀ k, k ≠ s.cell pc.val w.la → t.fmc.mem.get 0 k = s.fmc.mem.get 0 k) ∧
        t.wq pc.val = (s.wq pc.val).filter (fun x => x.la != w.la) ∧ (∀ k, k ≠ pc.val → t.wq k = s.wq k) ∧
        t.get (pcPage pc.val) FMC_WR_LINES.COUNT (pc.val % 4) = (s.get (pcPage pc.val) FMC_WR_LINES.COUNT (pc.val % 4) + 1) % 2 ^ 64 ∧
        t.fmc.flight = s.fmc.flight ∧ t.fmc.rq = s.fmc.rq ∧ t = { s with io := t.io, fmc := t.fmc })) ∧
    (∀ aged err r, s.pcState pc.val ≠ 1 → s.writeMode pc.val false = 0 →
      ((s.setMode pc.val 0).bgThrottle pc.val).nextRead pc.val aged 4 = some r →
      Completes (.dramCommandIssue pc aged err) s (fun t =>
        t.fmc.flight = s.fmc.flight ++ [⟨r, s.array pc.val r.la, false⟩] ∧
        (s.rqWaiting pc.val = [] → t.rq pc.val = (s.rq pc.val).erase r ∧ ∀ k, k ≠ pc.val → t.rq k = s.rq k) ∧
        t.fmc.mem = s.fmc.mem ∧ t.fmc.wq = s.fmc.wq ∧
        t.get (pcPage pc.val) FMC_RD_LINES.COUNT (pc.val % 4) = (s.get (pcPage pc.val) FMC_RD_LINES.COUNT (pc.val % 4) + 1) % 2 ^ 64 ∧
        t = { s with io := t.io, fmc := t.fmc })) ∧
    (∀ w, (s.fmc.wait.find? fun w => w.pc == pc.val && (w.cls != 4 || s.bgMay w.who 1)) = some w →
      (s.takes w = .full → NoEffect (.dramWriteAccept pc) s) ∧
      (s.fmc.wait.filter (fun x => x.pc == w.pc && x.la == w.la) = [w] →
        (s.takes w = .queue → Completes (.dramWriteAccept pc) s (fun t =>
          t.fmc.wait = s.fmc.wait.filter (fun x => !(x.pc == w.pc && x.la == w.la)) ∧
          { w with again := false, cond := false } ∈ t.wq pc.val ∧
          (∀ x ∈ s.wq pc.val, x.la ≠ w.la → x ∈ t.wq pc.val) ∧ (∀ k, k ≠ pc.val → t.wq k = s.wq k) ∧
          t.fmc.mem = s.fmc.mem ∧ t = { s with fmc := t.fmc })) ∧
        (s.takes w = .buffer → Completes (.dramWriteAccept pc) s (fun t =>
          t.fmc.wait = s.fmc.wait.filter (fun x => !(x.pc == w.pc && x.la == w.la)) ∧
          t.tbuf (pc.val / 32) = s.tbuf (pc.val / 32) ++ [{ w with cond := false }] ∧
          t.fmc.mem = s.fmc.mem ∧ t = { s with fmc := t.fmc })) ∧
        (s.takes w = .refuse → w.cond = false → s.tableBlocked w.pc w.la = false → Completes (.dramWriteAccept pc) s (fun t =>
          t.fmc.wait = s.fmc.wait.filter (fun x => !(x.pc == w.pc && x.la == w.la)) ∧
          t.isDegraded w.pc w.la = true ∧ t.fmc.mem = s.fmc.mem ∧ t = { s with io := t.io, fmc := t.fmc })))) ∧
    ((s.fmc.wait.find? fun w => w.pc == pc.val && (w.cls != 4 || s.bgMay w.who 1)) = none → NoEffect (.dramWriteAccept pc) s) ∧
    (∀ x, (s.fmc.flight.find? fun x => x.req.pc == pc.val) = some x → x.req.who ≠ 0x31 →
      (x.passed = true ∨ s.fmc.fault.get .clean (s.cell pc.val x.req.la) = .clean → Completes (.dramReadComplete pc .clean) s (fun t =>
        t.fmc.resp.get none x.req.id = some (some x.data) ∧
        t = { s with fmc := { s.fmc with flight := s.fmc.flight.erase x, resp := t.fmc.resp } })) ∧
      Completes (.dramReadComplete pc .corrected) s (fun t =>
        t.fmc.resp.get none x.req.id = some (some x.data) ∧ t.io.cause (pcPage pc.val) (4 * (pc.val % 4) + 1) = true ∧
        (x.passed = false → ∃ w ∈ t.fmc.wait, w.cond = true ∧ w.cls = 4 ∧ w.pc = pc.val ∧ w.la = x.req.la ∧ w.data = x.data) ∧
        t = { s with io := t.io, fmc := { s.fmc with flight := s.fmc.flight.erase x, resp := t.fmc.resp, wait := t.fmc.wait } }) ∧
      (∀ raw, x.req.again = true → ∀ e ∈ [ReadEnd.bad raw, .wrongLine raw, .command raw], Completes (.dramReadComplete pc e) s (fun t =>
        t.fmc.resp.get none x.req.id = some none ∧ t.fmc.flight = s.fmc.flight.erase x ∧ t.fmc.mem = s.fmc.mem))) ∧
    (∀ e, (s.fmc.flight.find? fun x => x.req.pc == pc.val) = none → NoEffect (.dramReadComplete pc e) s) ∧
    (∀ (b : Fin 16) celsius faults, Completes (.refreshDue pc b celsius faults) s (fun t =>
      t.get (pgFmc (pc.val / 32) 0) FMC_STK_STAT.TEMP_C = celsius % 2 ^ FMC_STK_STAT.TEMP_C.len ∧
      t.get (pgFmc (pc.val / 32) 0) FMC_STK_STAT.HOT = b2n (85 ≤ celsius) ∧
      (85 ≤ celsius → s.get (pgFmc (pc.val / 32) 0) FMC_STK_STAT.HOT = 0 → t.io.cause (pgFmc (pc.val / 32) 0) 0 = true) ∧
      (∀ k, t.fmc.openRow.get 0 k = if k = 16 * pc.val + b.val then 0 else s.fmc.openRow.get 0 k) ∧
      (faults = [] → t.fmc.fault = s.fmc.fault) ∧
      (∀ la e, faults = [(la, e)] → bankOf la = b.val → t.fmc.fault.get .clean (8388608 * pc.val + la) = e) ∧
      t = { s with io := t.io, fmc := { s.fmc with openRow := t.fmc.openRow, fault := t.fmc.fault } })) ∧
    (∀ (st : Fin 4) (ch : Fin 16),
      (s.get (pgFmc st.val 0) FMC_TRAIN_CFG.EN = 0 → NoEffect (.retrainStart st ch) s) ∧
      (s.get (pgFmc st.val 0) FMC_TRAIN_CFG.EN = 1 →
        ((∀ p ∈ chanPcs st.val ch.val, s.pcState (partner p) = 0) → Completes (.retrainStart st ch) s (fun t =>
          (∀ p ∈ chanPcs st.val ch.val, t.pcState p = if s.pcState p = 0 then 1 else s.pcState p) ∧ t.fmc.mem = s.fmc.mem ∧
          t.fmc.wq = s.fmc.wq ∧ t = { s with io := t.io, fmc := t.fmc })) ∧
        ((∃ p ∈ chanPcs st.val ch.val, s.pcState (partner p) ≠ 0) → Completes (.retrainStart st ch) s (fun t =>
          t.get (pgFmc st.val 0) FMC_TRAIN_SKIP_CNT.COUNT
            = (s.get (pgFmc st.val 0) FMC_TRAIN_SKIP_CNT.COUNT + 1) % 2 ^ FMC_TRAIN_SKIP_CNT.COUNT.len ∧ OnlyRegs s t))) ∧
      ((∀ p ∈ chanPcs st.val ch.val, s.pcState p ≠ 1) → ∀ ok, NoEffect (.retrainEnd st ch ok) s) ∧
      Completes (.retrainEnd st ch true) s (fun t => ∀ p ∈ chanPcs st.val ch.val, s.pcState p = 1 → t.pcState p = 0) ∧
      ((∃ p ∈ chanPcs st.val ch.val, s.pcState p = 1) → Completes (.retrainEnd st ch false) s (fun t =>
        t.io.cause (pgFmc st.val 0) 2 = true))) ∧
    (s.get (pgFmc 0 11) FMC_SCRUB_CFG.EN = 0 ∨ s.get (pgTel 0) TEL_SUSPEND.SCRUB = 1 → NoEffect .scrubRead s) ∧
    (∀ la, s.get (pgFmc 0 11) FMC_SCRUB_CFG.EN = 1 → s.get (pgTel 0) TEL_SUSPEND.SCRUB = 0 → la < 8388608 →
      s.fmc.scrub = 8388608 * pc.val + la →
      (s.pcState pc.val ≠ 2 → s.io.nvm.retired.get 0 pc.val ≠ 1 → (s.rq pc.val).length < 64 → Completes .scrubRead s (fun t =>
        t.rq pc.val = s.rq pc.val ++ [{ id := s.fmc.nextId, loc := s.locAt pc.val la, side := false, pc := pc.val, la := la, cls := 4,
                                        who := 0x31, drain := true }] ∧
        t.fmc.scrub = (s.fmc.scrub + 1) % (128 * 8388608) ∧
        (pc.val = 127 → la = 8388607 → t.io.cause (pgFmc 0 11) 1 = true) ∧
        t = { s with io := t.io, fmc := { s.fmc with scrub := t.fmc.scrub, rq := t.fmc.rq, nextId := s.fmc.nextId + 1 } })) ∧
      (s.pcState pc.val = 2 ∨ s.io.nvm.retired.get 0 pc.val = 1 → Completes .scrubRead s (fun t =>
        t.fmc.scrub = (s.fmc.scrub + 1) % (128 * 8388608) ∧ t = { s with io := t.io, fmc := { s.fmc with scrub := t.fmc.scrub } }))) ∧
    (∀ st : Fin 4, Completes (.bwWindowEnd st) s (fun t =>
      (∀ c : Fin 4, t.get (pgFmc st.val 11) FMC_WIN_RDc.BYTES c.val
        = s.io.acc.get 0 (pgFmc st.val 11 + FMC_WIN_RDc.BYTES.off + FMC_WIN_RDc.BYTES.stride * c.val) % 2 ^ FMC_WIN_RDc.BYTES.len ∧
        t.get (pgFmc st.val 11) FMC_WIN_WRc.BYTES c.val
        = s.io.acc.get 0 (pgFmc st.val 11 + FMC_WIN_WRc.BYTES.off + FMC_WIN_WRc.BYTES.stride * c.val) % 2 ^ FMC_WIN_WRc.BYTES.len) ∧
      t.io.cause (pgFmc st.val 11) 0 = true ∧ OnlyIo s t))

/-- R279, R282 to R288, R290: FREEZE stops a pseudo-channel whose partner serves and leaves no read of a mirrored line there; RELEASE
retrains a clean one, its channel with it, and rebuilds a stale one; a degraded line is repaired from the other copy; a row is
retired to a spare and a pseudo-channel out of service, or refused by code; a rebuild copies line by line, at its rate, and returns
the pseudo-channel; repair and rebuild wait for tokens; DIAG reads and writes a frozen array. -/
def Obligations.MemoryRepair : Prop :=
  ∀ (s : State), s.on = true →
    (∀ (m : Master) (pc : Fin 128),
      s.takesWrite m.id (pgFmc (pc.val / 32) (1 + pc.val % 32 / 4) + FMC_PC_CTL.FREEZE.off + 64 * (pc.val % 4)) = true →
      (s.pcState pc.val = 0 → s.pcState (partner pc.val) = 0 → Completes (.pcFreeze m pc) s (fun t =>
        t.pcState pc.val = 2 ∧ t.pcState (partner pc.val) = 0 ∧ t.io.cause (pcPage pc.val) (4 * (pc.val % 4)) = true ∧
        ((∀ r ∈ s.rq pc.val ++ s.rqWaiting pc.val, r.loc.mirrored = true → (s.copyAt r.loc (!r.side)).1 = partner pc.val) →
          t.rq pc.val = ((s.rq pc.val ++ s.rqWaiting pc.val).filter fun r => !r.loc.mirrored).take 64) ∧
        (s.get (pgFmc (pc.val / 32) 9) FMC_CAP_STAT.VALID = 0 → t.get (pgFmc (pc.val / 32) 9) FMC_CAP_STAT.KIND = 5 ∧
          t.get (pgFmc (pc.val / 32) 9) FMC_CAP_STAT.PC = pc.val % 32) ∧ t.fmc.mem = s.fmc.mem)) ∧
      (s.pcState pc.val = 2 ∨ s.pcState (partner pc.val) ≠ 0 → NoEffect (.pcFreeze m pc) s) ∧
      (s.pcStale pc.val = false → s.pcState pc.val = 2 → Completes (.pcRelease m pc) s (fun t =>
        t.fmc.releasing.get false pc.val = true ∧ t.pcState pc.val = 2 ∧ t.fmc.mem = s.fmc.mem ∧
        (s.pcState (chanMate pc.val) = 0 → s.pcState (partner (chanMate pc.val)) = 0 → t.pcState (chanMate pc.val) = 1) ∧
        (s.pcState (chanMate pc.val) ≠ 0 ∨ s.pcState (partner (chanMate pc.val)) ≠ 0 →
          t = { s with fmc := { s.fmc with releasing := t.fmc.releasing } }) ∧
        t = { s with io := t.io, fmc := t.fmc })) ∧
      (s.pcStale pc.val = true → s.pcState pc.val ≠ 3 → s.pcState pc.val ≠ 4 → Completes (.pcRelease m pc) s (fun t =>
        t.pcState pc.val = 3 ∧ t.fmc.rebuild.get [] (pc.val / 32) = s.fmc.rebuild.get [] (pc.val / 32) ++ [pc.val] ∧
        t.fmc.mem = s.fmc.mem)) ∧
      (s.pcStale pc.val = false → s.pcState pc.val ≠ 2 → Completes (.pcRelease m pc) s (fun t =>
        t.get (pcPage pc.val) PG_ERR_CNT.COUNT = min (2 ^ 32 - 1) (s.get (pcPage pc.val) PG_ERR_CNT.COUNT + 1) ∧ OnlyRegs s t))) ∧
    (∀ pc : Fin 128,
      (s.fmc.releasing.get false pc.val = true →
        (s.pcState pc.val = 2 → s.pcStale pc.val = false → Completes (.releaseRetrainDone pc) s (fun t =>
          t.fmc.releasing.get false pc.val = false ∧ t.pcState pc.val = 0 ∧
          (s.pcState (chanMate pc.val) = 1 → t.pcState (chanMate pc.val) = 0) ∧ t = { s with io := t.io, fmc := t.fmc })) ∧
        (s.pcState pc.val = 2 → s.pcStale pc.val = true → Completes (.releaseRetrainDone pc) s (fun t =>
          t.fmc.releasing.get false pc.val = false ∧ t.pcState pc.val = 3))) ∧
      (s.fmc.releasing.get false pc.val = false → NoEffect (.releaseRetrainDone pc) s)) ∧
    (∀ (st : Fin 4) es, (s.degraded st.val).find? s.repairable = none → NoEffect (.repairEntry st es) s) ∧
    (∀ (st : Fin 4) e es, (s.degraded st.val).find? s.repairable = some e →
      (s.bgMay 0x32 2 = false → Completes (.repairEntry st es) s (fun t =>
        t.fmc.bgWait.get false 4 = true ∧ t = { s with io := t.io, fmc := { s.fmc with bgWait := t.fmc.bgWait } })) ∧
      (∀ v s', s.bgMay 0x32 2 = true → s.readCopy (s.locAt e.1 e.2) true 4 0x32 true (es.getD 0 .clean) = (some v, s') →
        Completes (.repairEntry st es) s (fun t =>
          t.array e.1 e.2 = v ∧ t.degraded st.val = ((s'.degraded st.val).filter fun x => !(x == e)) ∧
          (∀ k, k ≠ s'.cell e.1 e.2 → t.fmc.mem.get 0 k = s'.fmc.mem.get 0 k) ∧
          t.get (pgFmc st.val 10) FMC_REPAIR_CNT.COUNT = (s'.get (pgFmc st.val 10) FMC_REPAIR_CNT.COUNT + 1) % 2 ^ 64 ∧
          t = { s' with io := t.io, fmc := t.fmc, pending := s.pending })) ∧
      (∀ s', s.bgMay 0x32 2 = true → s.readCopy (s.locAt e.1 e.2) true 4 0x32 true (es.getD 0 .clean) = (none, s') →
        Completes (.repairEntry st es) s (fun t =>
          t.degraded st.val = s'.degraded st.val ∧ t.fmc.mem = s'.fmc.mem ∧ t = { s' with io := t.io, pending := s.pending }))) ∧
    (∀ (m : Master) (st : Fin 4) (p : Fin 32) (pc : Nat), pc = 32 * st.val + p.val →
      s.takesWrite m.id (pgFmc st.val 0 + FMC_RETIRE_CTL.GO.off) = true →
      (∀ (b : Fin 16) (row : Fin 32768) (la : Nat → Nat), la = (fun i => 256 * row.val + 16 * b.val + i) →
        (s.pcState pc = 0 ∨ s.pcState pc = 2 →
          (s.io.nvm.remaps.get 0 (remapKey pc b.val row.val) ≠ 0 → Completes (.rowRetire m st p b row) s (fun t =>
            t.get (pgFmc st.val 0) FMC_RETIRE_STAT.CODE = 1 ∧ t.io.cause (pgFmc st.val 0) 1 = true ∧ OnlyIo s t)) ∧
          (s.io.nvm.remaps.get 0 (remapKey pc b.val row.val) = 0 → s.sparesUsed pc b.val < 1024 →
            Completes (.rowRetire m st p b row) s (fun t =>
              (∀ k, t.io.nvm.remaps.get 0 k = if k = remapKey pc b.val row.val then s.sparesUsed pc b.val + 1
                else s.io.nvm.remaps.get 0 k) ∧
              t.get (pgFmc st.val 0) FMC_RETIRE_STAT.CODE = 1 ∧ t.io.cause (pgFmc st.val 0) 1 = true ∧
              ((∀ i, i < 16 → (s.locAt pc (la i)).mirrored = true) → s.pcState (partner pc) = 0 →
                t.fmc.mem = s.fmc.mem ∧ ∀ i, i < 16 → t.isDegraded pc (la i) = true) ∧
              ((∀ i, i < 16 → (s.locAt pc (la i)).mirrored = false) → ∀ i, i < 16 → t.array pc (la i) = s.array pc (la i)) ∧
              t = { s with io := t.io, fmc := t.fmc })) ∧
          (s.io.nvm.remaps.get 0 (remapKey pc b.val row.val) = 0 → 1024 ≤ s.sparesUsed pc b.val →
            Completes (.rowRetire m st p b row) s (fun t => t.get (pgFmc st.val 0) FMC_RETIRE_STAT.CODE = 3 ∧ OnlyRegs s t))) ∧
        (s.pcState pc ≠ 0 → s.pcState pc ≠ 2 → Completes (.rowRetire m st p b row) s (fun t =>
          t.get (pgFmc st.val 0) FMC_RETIRE_STAT.CODE = 4 ∧ OnlyRegs s t))) ∧
      (s.pcState pc = 2 ∨ (s.pcStale pc = true ∧ s.pcState pc ≠ 3 ∧ s.pcState pc ≠ 4) →
        (s.get (pgFmc st.val 0) FMC_STK_STAT.RETIRED_PC = 0xFF → s.mirror = true → Completes (.pcRetire m st p) s (fun t =>
          t.io.nvm.retired.get 0 pc = 1 ∧ t.pcState pc = 4 ∧
          t.get (pgFmc st.val 0) FMC_STK_STAT.RETIRED_PC = p.val ∧ t.get (pgFmc st.val 0) FMC_RETIRE_STAT.CODE = 1 ∧
          t.fmc.rebuild.get [] st.val = s.fmc.rebuild.get [] st.val ++ [pc] ∧ t = { s with io := t.io, fmc := t.fmc, tel := t.tel })) ∧
        (s.get (pgFmc st.val 0) FMC_STK_STAT.RETIRED_PC ≠ 0xFF → Completes (.pcRetire m st p) s (fun t =>
          t.get (pgFmc st.val 0) FMC_RETIRE_STAT.CODE = 3 ∧ OnlyRegs s t))) ∧
      (s.pcState pc ≠ 2 → s.pcStale pc = false ∨ s.pcState pc = 3 ∨ s.pcState pc = 4 → Completes (.pcRetire m st p) s (fun t =>
        t.get (pgFmc st.val 0) FMC_RETIRE_STAT.CODE = 4 ∧ OnlyRegs s t))) ∧
    (∀ (st : Fin 4) es, s.fmc.rebuild.get [] st.val = [] → NoEffect (.rebuildLine st es) s ∧ NoEffect (.rebuildDone st) s) ∧
    (∀ (st : Fin 4) (pc : Nat) rest es la l, s.fmc.rebuild.get [] st.val = pc :: rest →
      la = (if s.mirror then s.fmc.rebuildPos.get 0 st.val else max (s.fmc.rebuildPos.get 0 st.val) 0x280000) →
      l = (⟨pc, partner pc, la, true⟩ : Loc) →
      (rebuildEnd ≤ la ∨ s.rebuildLevel ≠ 0 → NoEffect (.rebuildLine st es) s) ∧
      (la < rebuildEnd → s.rebuildLevel = 0 →
        (s.bgMay 0x32 2 = false → Completes (.rebuildLine st es) s (fun t =>
          t.fmc.bgWait.get false 4 = true ∧ t = { s with io := t.io, fmc := { s.fmc with bgWait := t.fmc.bgWait } })) ∧
        (∀ v s', s.bgMay 0x32 2 = true → s.serves l true = true → s.readCopy l true 4 0x32 true (es.getD 0 .clean) = (some v, s') →
          Completes (.rebuildLine st es) s (fun t =>
            t.array (s'.copyAt l false).1 (s'.copyAt l false).2 = v ∧ t.fmc.rebuildPos.get 0 st.val = la + 1 ∧
            (∀ k, k ≠ s'.cell (s'.copyAt l false).1 (s'.copyAt l false).2 → t.fmc.mem.get 0 k = s'.fmc.mem.get 0 k) ∧
            t = { s' with io := t.io, fmc := t.fmc, pending := s.pending }))) ∧
      (rebuildEnd ≤ s.fmc.rebuildPos.get 0 st.val → (∀ p ∈ pc :: rest, p / 32 = st.val) → Completes (.rebuildDone st) s (fun t =>
        t.pcState pc = 0 ∧ t.pcStale pc = false ∧ t.fmc.rebuild.get [] st.val = rest ∧
        t.io.cause (pcPage pc) (4 * (pc % 4) + 3) = true ∧ t.fmc.mem = s.fmc.mem ∧ t = { s with io := t.io, fmc := t.fmc })) ∧
      (s.fmc.rebuildPos.get 0 st.val < rebuildEnd → NoEffect (.rebuildDone st) s)) ∧
    (∀ (m : Master) (st : Fin 4) (p : Fin 32), s.takesWrite m.id (pgFmc st.val 9 + FMC_DIAG_CTL.GO.off) = true →
      (s.fmc.diag.get none st.val = none → s.pcState (32 * st.val + p.val) = 2 →
        Completes (.diagRead m st p) s (fun t =>
          t.fmc.diag.get none st.val = some ⟨false, 32 * st.val + p.val, s.get (pgFmc st.val 9) FMC_DIAG_ADDR.ADDR / 64⟩ ∧
          t = { s with fmc := { s.fmc with diag := t.fmc.diag } }) ∧
        (s.freeSpare (32 * st.val + p.val) (s.get (pgFmc st.val 9) FMC_DIAG_ADDR.ADDR / 64) = true → Completes (.diagWrite m st p) s (fun t =>
          t.fmc.diag.get none st.val = some ⟨true, 32 * st.val + p.val, s.get (pgFmc st.val 9) FMC_DIAG_ADDR.ADDR / 64⟩ ∧
          t = { s with fmc := { s.fmc with diag := t.fmc.diag } })) ∧
        (s.freeSpare (32 * st.val + p.val) (s.get (pgFmc st.val 9) FMC_DIAG_ADDR.ADDR / 64) = false → Completes (.diagWrite m st p) s (fun t =>
          t.get (pgFmc st.val 9) FMC_DIAG_STAT.CODE = 3 ∧ OnlyRegs s t))) ∧
      (∀ x, x = Instr.diagRead m st p ∨ x = Instr.diagWrite m st p →
        (s.fmc.diag.get none st.val ≠ none → Completes x s (fun t => t.get (pgFmc st.val 9) FMC_DIAG_STAT.CODE = 4 ∧ OnlyRegs s t)) ∧
        (s.fmc.diag.get none st.val = none → s.pcState (32 * st.val + p.val) ≠ 2 → Completes x s (fun t =>
          t.get (pgFmc st.val 9) FMC_DIAG_STAT.CODE = 2 ∧ OnlyRegs s t)))) ∧
    (∀ st : Fin 4, (∀ raw, s.fmc.diag.get none st.val = none → NoEffect (.diagDone st raw) s) ∧
      (∀ d raw, s.fmc.diag.get none st.val = some d → d.write = false → Completes (.diagDone st (some raw)) s (fun t =>
        (∀ n : Fin 18, t.get (pgFmc st.val 9) FMC_DIAG_DATAn.DATA n.val = (raw.toNat >>> (32 * n.val)) % 2 ^ 32) ∧
        t.get (pgFmc st.val 9) FMC_DIAG_STAT.CODE = 1 ∧ t.io.cause (pgFmc st.val 9) 1 = true ∧ t.fmc.diag.get none st.val = none ∧
        t = { s with io := t.io, fmc := { s.fmc with diag := t.fmc.diag } })) ∧
      (∀ d raw, s.fmc.diag.get none st.val = some d → d.write = true → Completes (.diagDone st raw) s (fun t =>
        (∀ n : Fin 16, bitsOf (t.fmc.mem.get 0 (8388608 * d.pc + d.la)).toNat (32 * n.val) 32 = s.get (pgFmc st.val 9) FMC_DIAG_DATAn.DATA n.val) ∧
        (∀ k, k ≠ 8388608 * d.pc + d.la → t.fmc.mem.get 0 k = s.fmc.mem.get 0 k) ∧
        t.get (pgFmc st.val 9) FMC_DIAG_STAT.CODE = 1 ∧ t.io.cause (pgFmc st.val 9) 1 = true ∧ t.fmc.diag.get none st.val = none)))

/-! ### Transmission, shaping, gates -/

/-- R294, R306, R307: after the refills due and the discards at its heads, a port that may start and has an eligible queue takes that
queue's head into transmission with its stamp, and otherwise starts nothing; what stands behind it stays, but for heads too long for
the gate list in force (R329). When the frame has left, with what the reading of its cells met, it is an output, is counted for its
queue and port, and the port is free; a port in near-end loopback then receives it. -/
def Obligations.Transmission : Prop :=
  ∀ (s : State) (n : Fin 128), s.on = true →
    ((s.refillDue.clearHeads n.val).mayStart n.val = false ∨ (s.refillDue.clearHeads n.val).choose n.val = none →
      Completes (.txFrameStart n) s (fun t => t = s.refillDue.clearHeads n.val ∧ t = { s with io := t.io, buf := t.buf, tel := t.tel })) ∧
    (∀ q r c, (s.refillDue.clearHeads n.val).mayStart n.val = true → (s.refillDue.clearHeads n.val).choose n.val = some (q, r) →
      (s.refillDue.clearHeads n.val).head (8 * n.val + q) = some c →
      Completes (.txFrameStart n) s (fun t =>
        (t.buf.sched.get {} n.val).tx = some (c, q) ∧ (t.buf.sched.get {} n.val).txStamp = s.txStamp n.val ∧
        t.queue (8 * n.val + q) = (((s.refillDue.clearHeads n.val).queue (8 * n.val + q)).drop 1).dropWhile
          (fun h => (s.refillDue.clearHeads n.val).oversize n.val q h.len) ∧
        (∀ k, k ≠ 8 * n.val + q → t.queue k = (s.refillDue.clearHeads n.val).queue k) ∧
        t = { s with io := t.io, buf := t.buf, tel := t.tel })) ∧
    (∀ cells, (s.buf.sched.get {} n.val).tx = none → NoEffect (.txFrameDone n cells) s) ∧
    (∀ (c : Copy) (q : Fin 8) cells, (s.buf.sched.get {} n.val).tx = some (c, q.val) → Completes (.txFrameDone n cells) s (fun t =>
      ∃ v : State,
        t = { (if s.get (pgEth (n.val / 4) 0) ETH_LOOPBACK.MODE = 1 then
                v.frameRx n.val ((s.readCells c.pkt cells).txFrame n.val c) ((s.readCells c.pkt cells).stored c.pkt).bad.isSome
              else v) with pending := s.pending } ∧
        (v.buf.sched.get {} n.val).tx = none ∧
        .frame n.val ((s.readCells c.pkt cells).txFrame n.val c) ((s.readCells c.pkt cells).stored c.pkt).bad.isSome ∈ v.io.out ∧
        v.get (pgSchP n.val) SCH_Q_TX_PKTSq.COUNT q.val = (s.get (pgSchP n.val) SCH_Q_TX_PKTSq.COUNT q.val + 1) % 2 ^ 64 ∧
        v.get (pgSchP n.val) SCH_Q_TX_BYTESq.COUNT q.val = (s.get (pgSchP n.val) SCH_Q_TX_BYTESq.COUNT q.val + c.len) % 2 ^ 64 ∧
        v.get (pgPmcL (n.val / 16)) PMC_TX_FRAMES.COUNT (n.val % 16)
          = (s.get (pgPmcL (n.val / 16)) PMC_TX_FRAMES.COUNT (n.val % 16) + 1) % 2 ^ 64 ∧
        v.buf.queues = s.buf.queues ∧ v = { s with io := v.io, buf := v.buf }))

/-- R303, R310: a write of TMB_Q_FLUSH discards and counts every copy of the queues it names and of no other; a write of a high
watermark leaves the larger of the value and the occupancy, one of the low watermark the smaller of the value and FREE.  R312, R326,
R331: a refill that is due refills each bucket of a port with settings once; the end of a gate entry is reached by time alone, and a
port without a list in force has none; a list that waits comes into force when its start is reached, and its port's registers say
so. -/
def Obligations.BufferAndShaping : Prop :=
  (∀ (s : State) (m : Master), s.on = true →
     (∀ (n : Fin 128) (mask : BitVec 8), s.takesWrite m.id (pgTmbP n.val + TMB_Q_FLUSH.FLUSH.off) = true →
       Completes (.qFlush m n mask) s (fun t =>
         (∀ q : Fin 8, t.queue (8 * n.val + q.val) = if mask.toNat.testBit q.val then [] else s.queue (8 * n.val + q.val)) ∧
         (∀ k, k / 8 ≠ n.val → t.queue k = s.queue k) ∧
         t.get (pgTmbP n.val) TMB_SWFLUSH_CNT.COUNT = (s.get (pgTmbP n.val) TMB_SWFLUSH_CNT.COUNT +
           ((List.range 8).map fun q => if mask.toNat.testBit q then (s.queue (8 * n.val + q)).length else 0).sum) % 2 ^ 64 ∧
         t = { s with io := t.io, buf := t.buf, tel := t.tel })) ∧
     (∀ (n : Fin 128) (q : Fin 8) (v : W32), s.takesWrite m.id (pgTmbP n.val + TMB_Q_HIGH.HIGH.off + 16 * q.val) = true →
       Completes (.watermarkWrite m (some (n, q)) v) s (fun t =>
         t.get (pgTmbP n.val) TMB_Q_HIGH.HIGH q.val = max (v.toNat % 2 ^ 19) (s.get (pgTmbP n.val) TMB_Q_OCC.CELLS q.val) ∧
         OnlyRegs s t ∧ KeepsWords (· = pgTmbP n.val + TMB_Q_HIGH.HIGH.off + 16 * q.val) s t)) ∧
     (∀ v : W32, s.takesWrite m.id (pgTmb + TMB_FREE_LOW.LOW.off) = true → Completes (.watermarkWrite m none v) s (fun t =>
       t.get pgTmb TMB_FREE_LOW.LOW = min (v.toNat % 2 ^ 19) (s.get pgTmb TMB_POOL_STAT.FREE) ∧
       OnlyRegs s t ∧ KeepsWords (· = pgTmb + TMB_FREE_LOW.LOW.off) s t))) ∧
  (∀ (s : State), s.on = true →
     (s.io.time.due.refill = 1 → Completes .tokenRefill s (fun t =>
       (∀ n ∈ s.io.shpPorts, ∀ k ∈ portBuckets n, t.bucket k = (s.bucket k).refill (s.io.bucketCfg k).1 (s.io.bucketCfg k).2) ∧
       t.io.time.due.refill = 0 ∧ t.io.regs = s.io.regs ∧
       t = { s with io := { s.io with time := t.io.time }, buf := { s.buf with bucket := t.buf.bucket, policer := t.buf.policer } })) ∧
     (∀ n : Fin 128, (s.operList n.val).en = false → NoEffect (.gateChange n) s) ∧
     (∀ (n : Fin 128) (g left : Nat) (l : List (Nat × Nat)), (s.operList n.val).en = true →
       dropTime (s.operList n.val).cut ((s.operList n.val).pos s.io.time.ns) = (g, left) :: l → s.io.tickInc ≠ 0 →
       Completes (.gateChange n) s (fun t =>
         s.io.time.counted + left ≤ t.io.time.counted ∧ t.io.time.ns - s.io.time.ns = t.io.time.counted - s.io.time.counted ∧
         OnlyIo s t)) ∧
     (∀ n : Fin 128, s.awaitList n.val = none → NoEffect (.listStart n) s) ∧
     (∀ (n : Fin 128) (l : GateList), s.awaitList n.val = some l → s.io.tickInc ≠ 0 ∨ l.base ≤ s.io.time.ns →
       Completes (.listStart n) s (fun t =>
         l.base ≤ t.io.time.ns ∧ t.operList n.val = l ∧ t.awaitList n.val = none ∧
         t.get (pgTgtP n.val) TGT_STAT.START_PENDING = 0 ∧ t.get (pgTgtP n.val) TGT_OPER_CYCLE.NS = l.cycle % 2 ^ 30 ∧
         t.io.cause (pgTgtP n.val) 0 = true ∧
         t = { s with io := t.io, buf := { s.buf with oper := t.buf.oper, await := t.buf.await } })))

/-! ### Telemetry and counters -/

/-- R334, R337, R339, R345, R348: a flush sends the message and advances the sequence number by its records, template messages go out on
SEND and every REFRESH_S without advancing it, a start entry is read, once the background limiter allows, and makes a record or is
skipped, a snapshot is taken or, while the last one is still being written, skipped and counted, and the end of an elephant window
empties the tables. -/
def Obligations.ExportAndSnapshot : Prop :=
  ∀ (s : State), s.on = true →
    (s.tel.msg = [] → NoEffect .messageFlush s) ∧
    (s.tel.msg ≠ [] → Completes .messageFlush s (fun t =>
      t.tel.msg = [] ∧
      t.get pgE TEL_EXPORT_SEQ.SEQ = (s.get pgE TEL_EXPORT_SEQ.SEQ + s.tel.msg.length) % 2 ^ TEL_EXPORT_SEQ.SEQ.len ∧
      t.get pgE TEL_MSG_CNT.COUNT = (s.get pgE TEL_MSG_CNT.COUNT + 1) % 2 ^ 64 ∧
      (s.io.tickInc ≠ 0 → s.tel.msgAt + 1000 * max 1 (s.get pgE TEL_EXPORT_MSG.FLUSH_US) ≤ t.io.time.counted) ∧
      t = { s with io := t.io, tel := { s.tel with msg := [] } })) ∧
    (∀ (m : Master) (r : BitVec 16), s.takesWrite m.id (pgTel 0 + TEL_EXPORT_TMPL.SEND.off) = true →
      Completes (.templateSend m r) s (fun t =>
        t.get pgE TEL_EXPORT_TMPL.REFRESH_S = r.toNat ∧ t.get pgE TEL_EXPORT_SEQ.SEQ = s.get pgE TEL_EXPORT_SEQ.SEQ ∧
        t.get pgE TEL_MSG_CNT.COUNT = (s.get pgE TEL_MSG_CNT.COUNT + b2n (s.feature 9)) % 2 ^ 64 ∧ OnlyIo s t)) ∧
    (s.get pgE TEL_EXPORT_TMPL.REFRESH_S = 0 ∨ s.feature 9 = false → NoEffect .templateRefresh s) ∧
    (s.get pgE TEL_EXPORT_TMPL.REFRESH_S ≠ 0 → s.feature 9 = true → Completes .templateRefresh s (fun t =>
      t.get pgE TEL_EXPORT_SEQ.SEQ = s.get pgE TEL_EXPORT_SEQ.SEQ ∧
      t.get pgE TEL_MSG_CNT.COUNT = (s.get pgE TEL_MSG_CNT.COUNT + 1) % 2 ^ 64 ∧
      t.tel.tmplAt = s.tel.tmplAt + 1000000000 * s.get pgE TEL_EXPORT_TMPL.REFRESH_S ∧
      (s.io.tickInc ≠ 0 → t.tel.tmplAt ≤ t.io.time.counted) ∧
      t = { s with io := t.io, tel := { s.tel with tmplAt := t.tel.tmplAt } })) ∧
    (∀ es, s.tel.startQ = [] → NoEffect (.startRecordRead es) s) ∧
    (∀ es r hash key rest, s.tel.startQ = (r, hash, key) :: rest →
      (s.bgMay 0 2 = false → Completes (.startRecordRead es) s (fun t =>
        t.tel.startQ = s.tel.startQ ∧ t = { s with io := t.io, fmc := t.fmc })) ∧
      (s.bgMay 0 2 = true → ∀ h c v, (s.setStartQ rest).startHalves r key es = (h, c, v) → Completes (.startRecordRead es) s (fun t =>
        t.tel.startQ = rest ∧ t.get pgE TEL_START_Q.DEPTH = rest.length % 2 ^ TEL_START_Q.DEPTH.len ∧
        (h.any (s.startFits hash key) = true → c.isSome = true → t.tel.msg ≠ [] ∧
          t.get pgE TEL_START_REC_CNT.COUNT = (s.get pgE TEL_START_REC_CNT.COUNT + 1) % 2 ^ 64 ∧
          t.get pgE TEL_START_SKIP_CNT.COUNT = s.get pgE TEL_START_SKIP_CNT.COUNT) ∧
        (h.any (s.startFits hash key) = false ∨ c.isSome = false → t.tel.msg = s.tel.msg ∧
          t.get pgE TEL_START_REC_CNT.COUNT = s.get pgE TEL_START_REC_CNT.COUNT ∧
          t.get pgE TEL_START_SKIP_CNT.COUNT = (s.get pgE TEL_START_SKIP_CNT.COUNT + 1) % 2 ^ 64) ∧
        t = { s with io := t.io, fmc := t.fmc, tel := t.tel }))) ∧
    (∀ m : Master, s.takesWrite m.id (pgTel 0 + TEL_SNAP_CTL.NOW.off) = true →
      (s.telOn = true → Completes (.snapNow m true) s (fun t =>
        t.get pgE TEL_SNAP_SKIP_CNT.COUNT = (s.get pgE TEL_SNAP_SKIP_CNT.COUNT + 1) % 2 ^ 64 ∧ t.io.cause pgE 1 = true ∧ OnlyIo s t)) ∧
      (s.telOn = true → Completes (.snapNow m false) s (fun t =>
        t.tel.snapSeq = (s.tel.snapSeq + 1) % 2 ^ 32 ∧
        (s.io.ringRoom 36 s.snapPorts.length = true → t.io.wcount.get 0 36 = s.io.wcount.get 0 36 + s.snapPorts.length) ∧
        t = { s with io := t.io, tel := { s.tel with snapSeq := t.tel.snapSeq } })) ∧
      (s.telOn = false → ∀ busy, Completes (.snapNow m busy) s (fun t =>
        t.io.wcount = s.io.wcount ∧ t.get pgE TEL_SNAP_SKIP_CNT.COUNT = s.get pgE TEL_SNAP_SKIP_CNT.COUNT ∧ OnlyIo s t))) ∧
    (∀ busy, s.io.time.due.snapshot ≠ 0 →
      (s.get pgE TEL_SNAP_CFG.EN = 0 ∨ s.telOn = false → Completes (.snapshotPeriodic busy) s (fun t =>
        t.io.time.due.snapshot = s.io.time.due.snapshot - 1 ∧ OnlyIo s t ∧ KeepsWords (fun _ => False) s t)) ∧
      (s.get pgE TEL_SNAP_CFG.EN = 1 → s.telOn = true → busy = true → Completes (.snapshotPeriodic busy) s (fun t =>
        t.io.time.due.snapshot = s.io.time.due.snapshot - 1 ∧
        t.get pgE TEL_SNAP_SKIP_CNT.COUNT = (s.get pgE TEL_SNAP_SKIP_CNT.COUNT + 1) % 2 ^ 64 ∧ OnlyIo s t)) ∧
      (s.get pgE TEL_SNAP_CFG.EN = 1 → s.telOn = true → busy = false → Completes (.snapshotPeriodic busy) s (fun t =>
        t.io.time.due.snapshot = s.io.time.due.snapshot - 1 ∧
        t.tel.snapSeq = (s.tel.snapSeq + 1) % 2 ^ 32 ∧ t = { s with io := t.io, tel := { s.tel with snapSeq := t.tel.snapSeq } }))) ∧
    (∀ busy, s.io.time.due.snapshot = 0 → s.io.tickInc ≠ 0 → Completes (.snapshotPeriodic busy) s (fun t =>
      s.io.time.ns + s.io.toMultiple (1000 * max 10 (s.get pgE TEL_SNAP_CFG.PERIOD_US)) ≤ t.io.time.ns ∧
      t.tel.snapSeq = (if s.get pgE TEL_SNAP_CFG.EN = 1 ∧ s.telOn = true ∧ busy = false then (s.tel.snapSeq + 1) % 2 ^ 32
        else s.tel.snapSeq) ∧ t = { s with io := t.io, tel := { s.tel with snapSeq := t.tel.snapSeq } })) ∧
    (subMod 32 (s.get pgEpc EPC_EPOCH_NUM.NUM) s.tel.eleAt < max 1 (s.get pgE TEL_ELE_CFG.WIN_EPOCHS) → NoEffect .elephantWindowEnd s) ∧
    (max 1 (s.get pgE TEL_ELE_CFG.WIN_EPOCHS) ≤ subMod 32 (s.get pgEpc EPC_EPOCH_NUM.NUM) s.tel.eleAt →
      Completes .elephantWindowEnd s (fun t =>
        t.tel.eleAt = s.get pgEpc EPC_EPOCH_NUM.NUM ∧ t.policy = { s.policy with window := s.policy.window + 1 } ∧
        (∀ k, k < 4096 → t.tel.ele.get none k = none) ∧ (s.policyOn 0 = false → t.pip = s.pip ∧ t.io = s.io) ∧
        t = { s with io := t.io, policy := t.policy, pip := { s.pip with evq := t.pip.evq },
                     tel := { s.tel with ele := t.tel.ele, eleAt := t.tel.eleAt } }))

/-- R359, R360, R364, R367: a read of a counter's low word keeps its high word for the next read of it by the same master, an unpaired
high read is counted; a preset writes the counter its address names unless it is none, protected, or the master may not; a filter
takes a pair of event and qualifier the table allows; the end of a window publishes what it accumulated. -/
def Obligations.Counters : Prop :=
  ∀ (s : State), s.on = true →
    (∀ (m : Master) (a : BitVec 26) pg h, pageOf a.toNat = some pg → s.stranger pg m.id = false → s.io.ready pg.kind = true →
      s.get pg.base PG_STAT.RST_BUSY = 0 → pg.kind.regAt (a.toNat - pg.base) = some h → h.row.ctr = true → 0x040 ≤ a.toNat - pg.base →
      (h.word = 0 → Completes (.counterLowRead m a) s (fun t =>
        ∃ v k, v = s.fabCount m.id a.toNat false ∧ k = s.ctrHome (pg.home (a.toNat - pg.base)) (a.toNat - pg.base) ∧
          t = { v with io := { v.io with out := .read m.id (v.io.rd k).toNat :: v.io.out,
                                         ctrSlot := v.io.ctrSlot.set none m.id (some (k, (v.io.rd (k + 4)).toNat)) } })) ∧
      (h.word = 1 → Completes (.counterHighRead m a) s (fun t =>
        ∃ v k, v = s.fabCount m.id a.toNat false ∧ k = s.ctrHome (pg.home (a.toNat - pg.base)) (a.toNat - pg.base - 4) ∧
          (∀ x, s.io.ctrSlot.get none m.id = some (k, x) →
            t = { v with io := { v.io with out := .read m.id x :: v.io.out, ctrSlot := v.io.ctrSlot.set none m.id none } }) ∧
          ((∀ x, s.io.ctrSlot.get none m.id ≠ some (k, x)) →
            t.io.out = .read m.id (v.io.rd (k + 4)).toNat :: v.io.out ∧ t.io.ctrSlot = s.io.ctrSlot ∧
            t.get pgPmc PMC_SNAP_MISS_CNT.COUNT = (v.get pgPmc PMC_SNAP_MISS_CNT.COUNT + 1) % 2 ^ PMC_SNAP_MISS_CNT.COUNT.len ∧
            OnlyRegs { v with io := { v.io with out := t.io.out } } t)))) ∧
    (∀ m : Master, s.takesWrite m.id (pgPmc + PMC_PRE_CTL.GO.off) = true →
      (ctlMaster m.id = false → Completes (.counterPreset m) s (fun t =>
        t.get pgPmc PMC_PRE_STAT.CODE = 4 ∧ t.io.cause pgPmc 2 = true ∧ OnlyIo s t)) ∧
      (ctlMaster m.id = true → isCounter (s.get pgPmc PMC_PRE_ADDR.ADDR) = false → Completes (.counterPreset m) s (fun t =>
        t.get pgPmc PMC_PRE_STAT.CODE = 2 ∧ t.io.cause pgPmc 2 = true ∧ OnlyIo s t)) ∧
      (ctlMaster m.id = true → isCounter (s.get pgPmc PMC_PRE_ADDR.ADDR) = true → presetProtected (s.get pgPmc PMC_PRE_ADDR.ADDR) = true →
        Completes (.counterPreset m) s (fun t => t.get pgPmc PMC_PRE_STAT.CODE = 3 ∧ t.io.cause pgPmc 2 = true ∧ OnlyIo s t)) ∧
      (ctlMaster m.id = true → isCounter (s.get pgPmc PMC_PRE_ADDR.ADDR) = true → presetProtected (s.get pgPmc PMC_PRE_ADDR.ADDR) = false →
        Completes (.counterPreset m) s (fun t =>
          t.get pgPmc PMC_PRE_STAT.CODE = 1 ∧
          t.io.rd64 (s.ctrHeld (s.get pgPmc PMC_PRE_ADDR.ADDR)) = s.io.rd64 (pgPmc + PMC_PRE_DATA.DATA.off) ∧
          OnlyRegs s t))) ∧
    (∀ (m : Master) (p : Fin 8) (f : Fin 16) (v : W32), s.takesWrite m.id (pgPmcL p.val + PMC_FLT_CFGf.EN.off + 16 * f.val) = true →
      ((eventQuals.any fun e => e.1 == gb v 16 8 && e.2.contains (gb v 28 3)) = true → Completes (.filterCfgWrite m p f v) s (fun t =>
        t.io.rd (pgPmcL p.val + PMC_FLT_CFGf.EN.off + 16 * f.val) = v &&& 0xF0FFFFFF#32 ∧ OnlyIo s t)) ∧
      ((eventQuals.any fun e => e.1 == gb v 16 8 && e.2.contains (gb v 28 3)) = false → Completes (.filterCfgWrite m p f v) s (fun t =>
        t.io.rd (pgPmcL p.val + PMC_FLT_CFGf.EN.off + 16 * f.val) = s.io.rd (pgPmcL p.val + PMC_FLT_CFGf.EN.off + 16 * f.val) ∧
        t.get (pgPmcL p.val) PG_ERR_CNT.COUNT = min (2 ^ 32 - 1) (s.get (pgPmcL p.val) PG_ERR_CNT.COUNT + 1) ∧ OnlyIo s t))) ∧
    (∀ c rest, crossing s.io.windowNs s.io.time.due.window = some (c, rest) → Completes .pmcWindowEnd s (fun t =>
      t.get pgPmc PMC_WIN_SEQ.SEQ = (s.get pgPmc PMC_WIN_SEQ.SEQ + 1) % 2 ^ PMC_WIN_SEQ.SEQ.len ∧
      t.get pgPmc PMC_WIN_LEN_NS.NS = (c - s.io.time.windowAt) % 2 ^ PMC_WIN_LEN_NS.NS.len ∧
      t.io.cause pgPmc 1 = true ∧ t.io.time = { s.io.time with windowAt := c, due := { s.io.time.due with window := rest } } ∧
      (∀ (p : Fin 8) (j : Fin 16), t.get (pgPmcL p.val) PORT_RX_FRAMES.COUNT j.val
        = s.io.acc.get 0 (pgPmcL p.val + PORT_RX_FRAMES.COUNT.off + PORT_RX_FRAMES.COUNT.stride * j.val) % 2 ^ PORT_RX_FRAMES.COUNT.len) ∧
      OnlyIo s t)) ∧
    (crossing s.io.windowNs s.io.time.due.window = none → s.io.tickInc ≠ 0 → Completes .pmcWindowEnd s (fun t =>
      s.io.time.ns + s.io.toMultiple s.io.windowNs ≤ t.io.time.ns ∧ t.io.cause pgPmc 1 = true ∧
      t.get pgPmc PMC_WIN_SEQ.SEQ = (s.get pgPmc PMC_WIN_SEQ.SEQ + 1) % 2 ^ PMC_WIN_SEQ.SEQ.len ∧ OnlyIo s t))

/-! ### The ledger -/

/-- R378, R379, R382, R383, R386, R389, R390, R393, R396, R397: the sweep reads record after record, as the background limiter allows,
and rolls a dirty sealed one into its account; a removed or lost record is rolled or declared lost and freed; a close reads each
touched account into its block; a block is tagged, its head persisted, and it goes onto ring 32; a loaded key is unwrapped and used
at once or at the next close. -/
def Obligations.LedgerEvents : Prop :=
  ∀ (s : State), s.on = true →
    (∀ es, s.feature 5 = false ∨ s.qnc.sweep.isSome = true → NoEffect (.sweepVisit es) s) ∧
    (∀ es, s.bgMay 0x30 1 = false → ∀ k, k = .sweepVisit es ∨ k = .sweepColdRead es ∨
      (k = .closeEntryRead false es ∧ ∃ c a rest, s.qnc.close = some c ∧ c.todo = a :: rest) →
      Completes k s (fun t => t = { s with io := t.io, fmc := { s.fmc with bgWait := t.fmc.bgWait } })) ∧
    (∀ es s', s.feature 5 = true → s.qnc.sweep = none → s.bgMay 0x30 1 = true →
      s.sweepNext.readNow (s.hotLoc s.qnc.sweepPos) 4 0x30 true es = (none, s') → Completes (.sweepVisit es) s (fun t =>
        t = s'.loseHot (hHash.get (s'.lineView (s'.hotLoc s.qnc.sweepPos))) (hKey.get (s'.lineView (s'.hotLoc s.qnc.sweepPos)))
          s.qnc.sweepPos)) ∧
    (∀ es h s', s.feature 5 = true → s.qnc.sweep = none → s.bgMay 0x30 1 = true →
      s.sweepNext.readNow (s.hotLoc s.qnc.sweepPos) 4 0x30 true es = (some h, s') →
      (hLife.get h ≠ lifeActive ∨ hSealEn.get h = 0 ∨ hSealDirty.get h = 0 → Completes (.sweepVisit es) s (fun t => t = s')) ∧
      (hLife.get h = lifeActive → hSealEn.get h = 1 → hSealDirty.get h = 1 →
        (s.finalStarted s.qnc.sweepPos = false → Completes (.sweepVisit es) s (fun t =>
          t = { s' with qnc := { s'.qnc with sweep := some { r := s.qnc.sweepPos, hot := h } } })) ∧
        (s.finalStarted s.qnc.sweepPos = true → Completes (.sweepVisit es) s (fun t =>
          t.qnc = s'.qnc ∧ t.get pgQnc QNC_DISCARD_CNT.COUNT = (s'.get pgQnc QNC_DISCARD_CNT.COUNT + 1) % 2 ^ 64)))) ∧
    (∀ es x c s', s.qnc.sweep = some x → x.stage = .cold → s.bgMay 0x30 1 = true →
      s.readNow (s.coldLoc x.r) 4 0x30 true es = (some c, s') →
      s.qnc.acc.length < 4096 → s.qnc.acc.find? (fun y => y.acct == hAccount.get x.hot && y.par == s.parity) = none →
      Completes (.sweepColdRead es) s (fun t =>
        t.qnc.acc = s.qnc.acc ++ [{ acct := hAccount.get x.hot, par := s.parity, pkts := (rollDelta x.hot c).1,
                                    bytes := (rollDelta x.hot c).2 }] ∧
        t.qnc.touched.get false (4194304 * s.parity + hAccount.get x.hot) = true ∧
        t.get pgQnc QNC_ROLL_CNT.COUNT = (s'.get pgQnc QNC_ROLL_CNT.COUNT + 1) % 2 ^ 64 ∧ t.qnc.sweep = some { x with stage := .written } ∧
        t.fmc.wait = s'.fmc.wait ++ s'.copyWrites (s.coldLoc x.r)
          (cRolledBytes.set (cRolledPkts.set c (hSealPkts.get x.hot)) (hSealBytes.get x.hot)) 4 0x30 sweepTag false ∧
        t = { s' with io := t.io, qnc := t.qnc, fmc := { s'.fmc with wait := t.fmc.wait } })) ∧
    (∀ es, s.qnc.sweep = none → NoEffect (.sweepColdRead es) s ∧ NoEffect .sweepRolledAccepted s) ∧
    (∀ x, s.qnc.sweep = some x → x.stage = .written → s.accepted sweepTag = true → Completes .sweepRolledAccepted s (fun t =>
      t.qnc = { s.qnc with sweep := none } ∧
      (hSealPkts.get (s.curHot x.r) ≠ hSealPkts.get x.hot → t = { s with qnc := t.qnc }) ∧
      (∀ i, hSealPkts.get (s.curHot x.r) = hSealPkts.get x.hot → s.wayOf (hKey.get (s.lineView (s.hotLoc x.r))) x.r = some i →
        hSealDirty.get (t.cacheAt i).data = 0))) ∧
    (∀ es, s.flow.removals.findSome? s.rollReady = none → Settles (.finalRoll es) s (· = s)) ∧
    (∀ es (x : Removal) h1 h2, s.flow.removals.findSome? s.rollReady = some (x, h1, h2) →
      (s.bgMay 0x30 1 = false → Settles (.finalRoll es) s (fun u => u = { s with io := u.io, fmc := u.fmc })) ∧
      (s.bgMay 0x30 1 = true → Settles (.finalRoll es) s (fun u =>
        u.flow.removals = (s.flow.removals.filter fun y => y.id != x.id) ∧
        (h1.isSome = true → u.flow.used.get false x.r = false) ∧
        (∀ q, x.partner = some q → h2.isSome = true → u.flow.used.get false q = false) ∧
        (∀ h, h1 = some h → hSealEn.get h = 1 → u.qnc.touched.get false (4194304 * s.parity + hAccount.get h) = true) ∧
        (∀ h q, x.partner = some q → h2 = some h → hSealEn.get h = 1 →
          u.qnc.touched.get false (4194304 * s.parity + hAccount.get h) = true))) ∧
      (∀ h c s', s.bgMay 0x30 1 = true → h1 = some h → x.partner = none → hSealEn.get h = 1 →
        s.readNow (s.coldLoc x.r) 4 0x30 true es = (some c, s') →
        s.qnc.acc.length < 4096 → s.qnc.acc.find? (fun y => y.acct == hAccount.get h && y.par == s.parity) = none →
        Settles (.finalRoll es) s (fun u =>
          u.qnc.acc = s.qnc.acc ++ [{ acct := hAccount.get h, par := s.parity, pkts := (rollDelta h c).1,
                                      bytes := (rollDelta h c).2, ended := 1 }]))) ∧
    (∀ es, s.flow.lost = [] → NoEffect (.lostRecordRead es) s) ∧
    (∀ es r rest, s.flow.lost = r :: rest →
      (s.bgMay 0x30 2 = false → Completes (.lostRecordRead es) s (fun t =>
        t = { s with io := t.io, fmc := { s.fmc with bgWait := t.fmc.bgWait } })) ∧
      (s.bgMay 0x30 2 = true →
        Completes (.lostRecordRead es) s (fun t => t.flow.lost = rest ∧ t.flow.used.get false r = false ∧
          (s.feature 5 = false → t.qnc = s.qnc)) ∧
        (s.feature 5 = true → (s.readNow (s.hotLoc r) 4 0x30 true es).1 = none → Completes (.lostRecordRead es) s (fun t =>
          t.qnc = { s.qnc with lostRec := s.qnc.lostRec + 1 } ∧ t.io.cause pgQnc 2 = true)) ∧
        (∀ h v, s.feature 5 = true → s.readNow (s.hotLoc r) 4 0x30 true es = (some h, v) →
          hSealEn.get h = 1 ∨ (v.readNow (s.coldLoc r) 4 0x30 true (es.drop 2)).1 = none → Completes (.lostRecordRead es) s (fun t =>
            t.qnc.touched.get false (4194304 * s.parity + hAccount.get h) = true)))) ∧
    (∀ lost es, s.qnc.close = none → NoEffect (.closeEntryRead lost es) s) ∧
    (∀ es c a rest v s', s.qnc.close = some c → c.todo = a :: rest → rest ≠ [] → c.entries.length < 1023 → s.bgMay 0x30 1 = true →
      s.readNow (accountLoc a) 4 0x30 true es = (some v, s') →
      Completes (.closeEntryRead false es) s (fun t =>
        t.qnc.close = some { c with todo := rest, entries := c.entries ++ [(closeEntry a (c.head.num % 2) c.head.num
          (match s.qnc.acc.find? (fun x => x.acct == a && x.par == c.head.num % 2) with
            | some x => x.into v
            | none => v)).1] } ∧
        t.qnc.acc = (s.qnc.acc.filter fun x => !(x.acct == a && x.par == c.head.num % 2)) ∧
        t.qnc.touched.get false (4194304 * (c.head.num % 2) + a) = false ∧
        t = { s with io := t.io, fmc := t.fmc, qnc := t.qnc })) ∧
    (∀ es, exec (.closeEntryRead true es) s = exec (.closeEntryRead false es) s.closeBitmapLost) ∧
    (∀ c a rest, s.qnc.close = some c → c.todo = a :: rest → ∃ d, s.closeBitmapLost.qnc.close = some { c with todo := d } ∧
      (∀ x, x / 512 ≠ a / 512 → (x ∈ d ↔ x ∈ c.todo)) ∧
      (∀ x ∈ d, x / 512 = a / 512 → s.closeBitmapLost.qnc.touched.get false (4194304 * (c.head.num % 2) + x) = true)) ∧
    (s.qnc.blocks = [] → NoEffect .blockTagged s ∧ NoEffect .headPersisted s ∧ ∀ lost, NoEffect (.blockToRing lost) s) ∧
    (∀ b k, s.qnc.blocks = [b] → s.qnc.key = some k → b.tag = none → (ghBlocks b.bytes.length) ≤ 256 * b.segs → b.seq < 2 ^ 64 - 1 →
      Completes .blockTagged s (fun t =>
        t.qnc = { s.qnc with
          prevTag := gmac (bytesBE 32 k.key.toNat) (blockIv b.seq) (patchB b.bytes 16 (bytesBE 16 s.qnc.prevTag)),
          blocks := [{ b with bytes := patchB b.bytes 16 (bytesBE 16 s.qnc.prevTag),
                              tag := some (gmac (bytesBE 32 k.key.toNat) (blockIv b.seq) (patchB b.bytes 16 (bytesBE 16 s.qnc.prevTag))) }] } ∧
        t.get pgQnc QNC_BLOCK_CNT.COUNT = (s.get pgQnc QNC_BLOCK_CNT.COUNT + 1) % 2 ^ 64 ∧ t = { s with io := t.io, qnc := t.qnc })) ∧
    (∀ b tag, s.qnc.blocks = [b] → b.persisted = false → b.tag = some tag → b.seq < 2 ^ 64 - 1 → Completes .headPersisted s (fun t =>
      (∃ q, t.io.nvm.heads.head? = some q ∧ q.hasBlock = true ∧ q.seq = b.seq ∧ q.tag = tag) ∧
      t.qnc.blocks = [{ b with persisted := true }] ∧ t.get pgQnc QNC_BACKLOG.BLOCKS = 1 ∧
      (b.last = true → t.qnc.close = none ∧ t.get pgQnc QNC_STAT.EMITTING = 0 ∧ t.io.cause pgQnc 0 = true) ∧
      (b.last = false → t.qnc.close = s.qnc.close) ∧ t = { s with io := t.io, qnc := t.qnc })) ∧
    (∀ b rest, s.qnc.blocks = b :: rest → b.persisted = true →
      Completes (.blockToRing true) s (fun t =>
        t.qnc = { s.qnc with blocks := rest } ∧ t.io.wcount.get 0 32 = s.io.wcount.get 0 32 ∧ t = { s with io := t.io, qnc := t.qnc }) ∧
      (s.io.ringSize 32 ≤ (ipfixEntries (b.bytes ++ bytesBE 16 (b.tag.getD 0))).length → Completes (.blockToRing false) s (fun t =>
        t.io.cause pgQnc 6 = true ∧ OnlyIrq s t)) ∧
      ((ipfixEntries (b.bytes ++ bytesBE 16 (b.tag.getD 0))).length < s.io.ringSize 32 →
        (s.io.ringRoom 32 (ipfixEntries (b.bytes ++ bytesBE 16 (b.tag.getD 0))).length = true → Completes (.blockToRing false) s (fun t =>
          t.qnc = { s.qnc with blocks := rest } ∧
          t.io.wcount.get 0 32 = s.io.wcount.get 0 32 + (ipfixEntries (b.bytes ++ bytesBE 16 (b.tag.getD 0))).length ∧
          t = { s with io := t.io, qnc := t.qnc })) ∧
        (s.io.ringRoom 32 (ipfixEntries (b.bytes ++ bytesBE 16 (b.tag.getD 0))).length = false → NoEffect (.blockToRing false) s))) ∧
    (s.io.time.due.alive ≠ 0 → Completes .alivePersist s (fun t =>
      t.io.nvm.alive = (if s.feature 5 = true ∧ s.io.time.set = true then some (s.io.time.ns / 2 ^ 20 * 2 ^ 20) else s.io.nvm.alive) ∧
      t.io.time.due.alive = 0 ∧ OnlyIo s t ∧ KeepsWords (fun _ => False) s t)) ∧
    (s.io.time.due.alive = 0 → s.io.tickInc ≠ 0 → Completes .alivePersist s (fun t =>
      t.io.nvm.alive = (if s.feature 5 = true ∧ s.io.time.set = true then some (t.io.time.ns / 2 ^ 20 * 2 ^ 20) else s.io.nvm.alive) ∧
      s.io.time.ns + s.io.toMultiple (2 ^ 20) ≤ t.io.time.ns ∧ t.io.time.due.alive = 0 ∧ OnlyIo s t)) ∧
    (∀ m : Master, s.takesWrite m.id (pgQnc + QNC_KEY_CTL.LOAD.off) = true →
      (m ≠ .mcSec → Completes (.keyLoad m) s (fun t =>
        t.get pgQnc PG_ERR_CNT.COUNT = min (2 ^ 32 - 1) (s.get pgQnc PG_ERR_CNT.COUNT + 1) ∧ t.qnc = s.qnc ∧ OnlyRegs s t)) ∧
      (m = .mcSec → s.feature 5 = true → s.qnc.load = none →
        (s.get pgQnc QNC_LOCKS.KEY = 0 → s.sameId s.qnc.newId = false → Completes (.keyLoad m) s (fun t =>
          t = { s with qnc := { s.qnc with
            load := some (s.qnc.newId, (List.range 10).flatMap fun i => bytesLE 4 (s.qnc.wrap.get 0 i).toNat) } })) ∧
        (s.get pgQnc QNC_LOCKS.KEY = 1 → Completes (.keyLoad m) s (fun t =>
          t.get pgQnc QNC_KEY_STAT.CODE = 4 ∧ t.qnc = s.qnc ∧ OnlyIrq s t)) ∧
        (s.get pgQnc QNC_LOCKS.KEY = 0 → s.sameId s.qnc.newId = true → Completes (.keyLoad m) s (fun t =>
          t.get pgQnc QNC_KEY_STAT.CODE = 5 ∧ t.qnc = s.qnc ∧ OnlyIrq s t))) ∧
      (m = .mcSec → s.feature 5 = false ∨ s.qnc.load.isSome = true → Completes (.keyLoad m) s (fun t =>
        t.get pgQnc QNC_KEY_STAT.CODE = (if s.feature 5 = true then 7 else 6) ∧ t.qnc = s.qnc ∧ OnlyIrq s t))) ∧
    (s.qnc.load = none → NoEffect .keyUnwrapDone s) ∧
    (∀ l, s.qnc.load = some l →
      Completes .keyUnwrapDone s (fun t =>
        (unwrapKey l = none →
          t.get pgQnc QNC_KEY_STAT.CODE = 3 ∧ t.qnc = { s.qnc with load := none } ∧ t = { s with io := t.io, qnc := t.qnc }) ∧
        (∀ k, unwrapKey l = some k →
          (s.qnc.key = none → t.qnc = { s.qnc with load := none, key := some k } ∧ t.get pgQnc QNC_KEY_STAT.CODE = 1 ∧
            t.get pgQnc QNC_KEY_ID.ID = k.id % 2 ^ QNC_KEY_ID.ID.len) ∧
          (s.qnc.key ≠ none → t.qnc = { s.qnc with load := none, pend := some k } ∧ t.get pgQnc QNC_KEY_STAT.CODE = 2))))

/-! ### Cipher engine -/

/-- R406, R408, R410, R413, R415, R419, R423: a binding changes hands only as its rule allows, and then the page is zeroized; an access
of a master the page is not bound to is counted and captured; LOAD captures the key and ends with it loaded or with a code; ZEROIZE
clears key and message; GO starts a part or says why not; ABORT ends it; an engine takes a segment, Quince's before all, and lets go
of it, but for a part whose DMA waits (R64, R417). -/
def Obligations.CipherCommands : Prop :=
  ∀ (s : State) (u : Fin 64), s.on = true →
    (∀ (m : Master) (v : W32), s.takesWrite m.id (pgCph + CPH_BINDn.MASTER.off + 4 * u.val) = true → ctlMaster m.id = false → m ≠ .board →
      Completes (.cphBind m u v) s (fun t =>
        t.bound u.val = s.bound u.val ∧ t.get pgCph PG_ERR_CNT.COUNT = min (2 ^ 32 - 1) (s.get pgCph PG_ERR_CNT.COUNT + 1) ∧ OnlyRegs s t)) ∧
    (∀ (m : Master) (v : W32), s.takesWrite m.id (pgCph + CPH_BINDn.MASTER.off + 4 * u.val) = true → (ctlMaster m.id = true ∨ m = .board) →
      tb v 31 = tb (s.io.rd (pgCph + CPH_BINDn.MASTER.off + 4 * u.val)) 31 →
      (bindAsk m.id (s.bound u.val) (v.toNat % 256) (tb v 31) = .change → Completes (.cphBind m u v) s (fun t =>
        t.bound u.val = v.toNat % 256 ∧ t.cpage u.val = {} ∧ t.get (pgCphU u.val) CPH_KEY_STAT.STATE = 0 ∧
        (∀ k, k ≠ u.val → t.cpage k = s.cpage k) ∧ t = { s with io := t.io, cph := { s.cph with page := t.cph.page, engine := t.cph.engine } })) ∧
      (bindAsk m.id (s.bound u.val) (v.toNat % 256) (tb v 31) = .refuse → Completes (.cphBind m u v) s (fun t =>
        t.bound u.val = s.bound u.val ∧ t.get pgCph PG_ERR_CNT.COUNT = min (2 ^ 32 - 1) (s.get pgCph PG_ERR_CNT.COUNT + 1) ∧ OnlyRegs s t))) ∧
    (∀ (m : Master) (o : BitVec 11) (w : Bool),
      (s.cphStranger u.val m.id = false → NoEffect (.cphViolation m u o w) s) ∧
      (s.cphStranger u.val m.id = true → Completes (.cphViolation m u o w) s (fun t =>
        t.get pgCph CPH_VIOL_CNT.COUNT = (s.get pgCph CPH_VIOL_CNT.COUNT + 1) % 2 ^ 64 ∧
        (w = false → .read m.id 0 ∈ t.io.out) ∧
        (s.get pgCph CPH_VIOL_CAP.VALID = 0 → t.get pgCph CPH_VIOL_CAP.VALID = 1 ∧ t.get pgCph CPH_VIOL_CAP.MASTER = m.id ∧
          t.get pgCph CPH_VIOL_CAP.PAGE = u.val ∧ t.get pgCph CPH_VIOL_CAP.OFFSET = o.toNat ∧ t.io.cause pgCph 0 = true) ∧ OnlyIo s t))) ∧
    (∀ m : Master, s.takesWrite m.id (pgCphU u.val + CPH_KEY_CTL.LOAD.off) = true →
      ((s.cpage u.val).load ≠ none → Completes (.cphKeyLoad m u) s (fun t => t.get (pgCphU u.val) CPH_KEY_STAT.CODE = 5 ∧ OnlyRegs s t)) ∧
      ((s.cpage u.val).load = none → Completes (.cphKeyLoad m u) s (fun t =>
        (∃ l, (t.cpage u.val).load = some l ∧ l.data = s.keyData u.val ∧ l.src = s.get (pgCphU u.val) CPH_KEY_CFG.SRC ∧
          l.mode = s.get (pgCphU u.val) CPH_KEY_CFG.MODE ∧ l.size = s.get (pgCphU u.val) CPH_KEY_CFG.SIZE ∧
          l.old = s.keyState u.val) ∧
        t.get (pgCphU u.val) CPH_KEY_STAT.STATE = 1 ∧ (t.cpage u.val).key = (s.cpage u.val).key ∧
        (∀ k, k ≠ u.val → t.cpage k = s.cpage k) ∧ t = { s with io := t.io, cph := { s.cph with page := t.cph.page } }))) ∧
    ((s.cpage u.val).load = none → NoEffect (.cphKeyLoadDone u) s) ∧
    (∀ l, (s.cpage u.val).load = some l →
      (∀ code, s.loadKey u.val l = .error code → Completes (.cphKeyLoadDone u) s (fun t =>
        (t.cpage u.val).load = none ∧ (t.cpage u.val).data = [] ∧ (t.cpage u.val).key = (s.cpage u.val).key ∧
        t.get (pgCphU u.val) CPH_KEY_STAT.STATE = l.old % 8 ∧ t.get (pgCphU u.val) CPH_KEY_STAT.CODE = code % 2 ^ CPH_KEY_STAT.CODE.len ∧
        t.io.cause (pgCphU u.val) 1 = true ∧ t = { s with io := t.io, cph := { s.cph with page := t.cph.page } })) ∧
      (∀ k st ctr, s.loadKey u.val l = .ok (k, st, ctr) → ctr < s.get (pgCphU u.val) CPH_KEY_LIMIT.LIMIT →
        Completes (.cphKeyLoadDone u) s (fun t =>
          (t.cpage u.val).load = none ∧ (t.cpage u.val).data = [] ∧ (t.cpage u.val).key = some k ∧ (t.cpage u.val).mode = l.mode ∧
          t.get (pgCphU u.val) CPH_KEY_STAT.STATE = st % 8 ∧ t.get (pgCphU u.val) CPH_KEY_STAT.CODE = 1 ∧
          t.get (pgCphU u.val) CPH_CTR.CTR = ctr % 2 ^ CPH_CTR.CTR.len ∧ t.io.cause (pgCphU u.val) 1 = true ∧
          t = { s with io := t.io, cph := { s.cph with page := t.cph.page } })) ∧
      (∀ k st ctr, s.loadKey u.val l = .ok (k, st, ctr) → s.get (pgCphU u.val) CPH_KEY_LIMIT.LIMIT ≤ ctr →
        Completes (.cphKeyLoadDone u) s (fun t =>
          (t.cpage u.val).load = none ∧ (t.cpage u.val).key = some k ∧ t.get (pgCphU u.val) CPH_KEY_STAT.STATE = 4 ∧
          t.get (pgCphU u.val) CPH_KEY_STAT.CODE = 1 ∧ t.io.cause (pgCphU u.val) 2 = true ∧
          t = { s with io := t.io, cph := { s.cph with page := t.cph.page } }))) ∧
    (∀ m : Master, s.takesWrite m.id (pgCphU u.val + CPH_KEY_CTL.ZEROIZE.off) = true → Completes (.zeroize m u) s (fun t =>
      t.cpage u.val = { data := (s.cpage u.val).data } ∧ t.get (pgCphU u.val) CPH_KEY_STAT.STATE = 0 ∧
      t.get (pgCphU u.val) CPH_CTR.CTR = 0 ∧
      ((s.cpage u.val).job ≠ none → t.get (pgCphU u.val) CPH_JOB_STAT.STATE = 3 ∧ t.get (pgCphU u.val) CPH_JOB_STAT.CODE = 8) ∧
      (∀ k, k ≠ u.val → t.cpage k = s.cpage k) ∧
      t = { s with io := t.io, cph := { s.cph with page := t.cph.page, engine := t.cph.engine } })) ∧
    (∀ m : Master, s.takesWrite m.id (pgCphU u.val + CPH_JOB_CTL.GO.off) = true →
      ((s.cpage u.val).job ≠ none → Completes (.cphJobGo m u) s (fun t => t.get (pgCphU u.val) CPH_JOB_STAT.CODE = 9 ∧ OnlyRegs s t)) ∧
      (∀ c, (s.cpage u.val).job = none → s.jobRefuse u.val (s.jobIn u.val) = some c → Completes (.cphJobGo m u) s (fun t =>
        t.get (pgCphU u.val) CPH_JOB_STAT.STATE = 3 ∧ t.get (pgCphU u.val) CPH_JOB_STAT.CODE = c % 2 ^ CPH_JOB_STAT.CODE.len ∧ OnlyRegs s t)) ∧
      ((s.cpage u.val).job = none → s.jobRefuse u.val (s.jobIn u.val) = none →
        ((s.jobIn u.val).opens = true → (s.jobIn u.val).consumes = true →
          s.get (pgCphU u.val) CPH_CTR.CTR < s.get (pgCphU u.val) CPH_KEY_LIMIT.LIMIT) →
        ((s.jobIn u.val).mode = 0 ∨ (s.jobIn u.val).mode = 2 → (if (s.jobIn u.val).opens then 0 else
          s.get (pgCphU u.val) CPH_MSG_BLOCKS.BLOCKS) + ceilDiv (s.jobIn u.val).len 16 ≤ 2 ^ 32 - 2) → Completes (.cphJobGo m u) s (fun t =>
          t.get (pgCphU u.val) CPH_JOB_STAT.STATE = 1 ∧ t.get (pgCphU u.val) CPH_JOB_STAT.CODE = 0 ∧ (t.cpage u.val).job = some {} ∧
          (t.cpage u.val).key = (s.cpage u.val).key ∧
          t.get (pgCphU u.val) CPH_CTR.CTR = (if (s.jobIn u.val).opens && (s.jobIn u.val).consumes then
            (s.get (pgCphU u.val) CPH_CTR.CTR + 1) % 2 ^ CPH_CTR.CTR.len else s.get (pgCphU u.val) CPH_CTR.CTR) ∧
          (∀ k, k ≠ u.val → t.cpage k = s.cpage k) ∧ t = { s with io := t.io, cph := { s.cph with page := t.cph.page } }))) ∧
    (∀ (m : Master) n l, s.takesWrite m.id (pgCphU u.val + CPH_JOB_CTL.ABORT.off) = true →
      ((s.cpage u.val).job = none → NoEffect (.cphJobAbort m u n l) s) ∧
      ((s.cpage u.val).job ≠ none → Completes (.cphJobAbort m u n l) s (fun t =>
        (t.cpage u.val).job = none ∧ (t.cpage u.val).msg = none ∧ t.get (pgCphU u.val) CPH_JOB_STAT.STATE = 3 ∧
        t.get (pgCphU u.val) CPH_JOB_STAT.CODE = 8 ∧ t.io.cause (pgCphU u.val) 0 = true ∧ (∀ e : Fin 16, t.cph.engine.get 0 e.val ≠ u.val + 1)))) ∧
    (∀ e : Fin 16, (s.cph.engine.get 0 e.val ≠ 0 → NoEffect (.engineGrant e) s) ∧
      (s.cph.engine.get 0 e.val = 0 → s.qncJob.isSome = true → s.held 65 = false → Completes (.engineGrant e) s (fun t =>
        (∀ k, t.cph.engine.get 0 k = if k = e.val then 65 else s.cph.engine.get 0 k) ∧
        t = { s with io := t.io, cph := { s.cph with engine := t.cph.engine } })) ∧
      (s.cph.engine.get 0 e.val = 0 → s.qncJob = none → (∀ k : Fin 64, s.jobReady k.val = false) → NoEffect (.engineGrant e) s) ∧
      (s.cph.engine.get 0 e.val = 0 → s.qncJob = none → s.jobReady u.val = true → (∀ k : Fin 64, k ≠ u → s.jobReady k.val = false) →
        Completes (.engineGrant e) s (fun t =>
          (∀ k, t.cph.engine.get 0 k = if k = e.val then u.val + 1 else s.cph.engine.get 0 k) ∧ t.cph.rr = u.val ∧
          t = { s with io := t.io, cph := { s.cph with engine := t.cph.engine, rr := t.cph.rr } })) ∧
      (∀ l d, s.cph.engine.get 0 e.val = 0 → NoEffect (.segmentDone e l d) s) ∧
      (∀ l d, s.cph.engine.get 0 e.val = u.val + 1 → s.dmaWaits u.val = true → NoEffect (.segmentDone e l d) s) ∧
      (∀ l d v job g, s.cph.engine.get 0 e.val = u.val + 1 → s.dmaWaits u.val = false → ((s.jobIn u.val).dma = true → d = true) →
        v = s.runSegment u.val 256 l → (v.cpage u.val).job = some job → (v.cpage u.val).msg = some g →
        (job.finished (s.jobIn u.val) = false → Completes (.segmentDone e l d) s (fun t => t = v.freeEngines (u.val + 1))) ∧
        (job.finished (s.jobIn u.val) = true → (s.jobIn u.val).closes = false → Completes (.segmentDone e l d) s (fun t =>
          (t.cpage u.val).job = none ∧ (t.cpage u.val).msg = some g ∧ t.get (pgCphU u.val) CPH_JOB_STAT.STATE = 2 ∧
          t.get (pgCphU u.val) CPH_JOB_STAT.CODE = 0 ∧ t.io.cause (pgCphU u.val) 0 = true ∧ t.cph.engine.get 0 e.val = 0)) ∧
        (job.finished (s.jobIn u.val) = true → (s.jobIn u.val).closes = true →
          Completes (.segmentDone e l d) s (fun t => t = v.jobTag u.val (s.jobIn u.val) g job))) ∧
      (∀ l, s.cph.engine.get 0 e.val = u.val + 1 → (s.jobIn u.val).dma = true → s.dmaWaits u.val = false → Completes (.segmentDone e l false) s (fun t =>
        (t.cpage u.val).job = none ∧ (t.cpage u.val).msg = none ∧ t.get (pgCphU u.val) CPH_JOB_STAT.STATE = 3 ∧
        t.get (pgCphU u.val) CPH_JOB_STAT.CODE = 7 ∧ t.cph.engine.get 0 e.val = 0)) ∧
      (∀ l d b, s.cph.engine.get 0 e.val = 65 → s.qncJob = some b → Completes (.segmentDone e l d) s (fun t =>
        (∀ x ∈ s.qnc.blocks, x.seq = b.seq → { x with segs := x.segs + 1 } ∈ t.qnc.blocks) ∧ t.cph.engine.get 0 e.val = 0))) ∧
    Completes .rngFail s (fun t =>
      t.get pgCph CPH_STAT.RNG_OK = 0 ∧ t.io.cause pgCph 1 = true ∧
      t.get pgCph CPH_RNG_FAIL_CNT.COUNT = (s.get pgCph CPH_RNG_FAIL_CNT.COUNT + 1) % 2 ^ CPH_RNG_FAIL_CNT.COUNT.len ∧ OnlyIrq s t) ∧
    Completes .rngRecover s (fun t =>
      t.get pgCph CPH_STAT.RNG_OK = 1 ∧ OnlyRegs s t ∧ KeepsWords (· = pgCph + CPH_STAT.RNG_OK.off) s t)

/-! ### Mailboxes -/

/-- R427 to R441: a binding is written by its master unless locked, ill-paired or in use, and clears its channel; a stranger's access is
counted and captured; POST, TAKE and ACK move the channel on and raise what the other end waits for; doorbells are set, cleared and
masked; a declared reset ends a receiver's message, marks a sender's and advances the master's generation. -/
def Obligations.MailboxCommands : Prop :=
  ∀ (s : State) (m : Master) (c : Fin 16), s.on = true →
    (∀ v : W32, s.takesWrite m.id (pgMbx + MBX_BINDc.EN.off + 4 * c.val) = true →
      (m = .mcSec ∨ (m = .mcNs ∧ c.val < 8) → s.get pgMbx MBX_BIND_LOCK.LOCK = 0 →
        (tb v 31 = true → mbxPair c.val (gb v 8 8) (gb v 0 8) = true) →
        (s.io.mbxState c.val ≠ 1 → s.io.mbxState c.val ≠ 2 → Completes (.mbxBindWrite m c v) s (fun t =>
          t.io.rd (pgMbx + MBX_BINDc.EN.off + 4 * c.val) = v &&& 0x8000FFFF#32 ∧
          (s.io.rd (pgMbx + MBX_BINDc.EN.off + 4 * c.val) ≠ v &&& 0x8000FFFF#32 →
            t.io.mbxState c.val = 0 ∧ t.get (pgMbxCh c.val) MBX_DB.BITS = 0 ∧ t.get (pgMbxCh c.val) MBX_DB_MASK.MASK = 0xFFFFFFFF ∧
            ∀ w : Fin 16, t.get (pgMbxCh c.val) MBX_MSGw.DATA w.val = 0) ∧ OnlyRegs s t)) ∧
        (s.io.mbxState c.val = 1 ∨ s.io.mbxState c.val = 2 → Completes (.mbxBindWrite m c v) s (fun t =>
          t.get pgMbx PG_ERR_CNT.COUNT = min (2 ^ 32 - 1) (s.get pgMbx PG_ERR_CNT.COUNT + 1) ∧ OnlyRegs s t ∧
          KeepsWords (fun a => a = pgMbx + 0x1C ∨ a = pgMbx + 0x20) s t))) ∧
      ((m ≠ .mcSec ∧ (m = .mcNs → 8 ≤ c.val)) ∨ s.get pgMbx MBX_BIND_LOCK.LOCK = 1 ∨
          (tb v 31 = true ∧ mbxPair c.val (gb v 8 8) (gb v 0 8) = false) → Completes (.mbxBindWrite m c v) s (fun t =>
        t.get pgMbx PG_ERR_CNT.COUNT = min (2 ^ 32 - 1) (s.get pgMbx PG_ERR_CNT.COUNT + 1) ∧ OnlyRegs s t ∧
        KeepsWords (fun a => a = pgMbx + 0x1C ∨ a = pgMbx + 0x20) s t))) ∧
    (∀ (o : BitVec 12) (w : Bool),
      (s.io.mbxStranger c.val m.id = false → NoEffect (.mbxViolation m c o w) s) ∧
      (s.io.mbxStranger c.val m.id = true → Completes (.mbxViolation m c o w) s (fun t =>
        t.get pgMbx MBX_VIOL_CNT.COUNT = (s.get pgMbx MBX_VIOL_CNT.COUNT + 1) % 2 ^ 64 ∧ (w = false → .read m.id 0 ∈ t.io.out) ∧
        (s.get pgMbx MBX_VIOL_CAP.VALID = 0 → t.get pgMbx MBX_VIOL_CAP.VALID = 1 ∧ t.get pgMbx MBX_VIOL_CAP.MASTER = m.id ∧
          t.get pgMbx MBX_VIOL_CAP.CHANNEL = c.val ∧ t.get pgMbx MBX_VIOL_CAP.OFFSET = o.toNat ∧ t.io.cause pgMbx 0 = true) ∧ OnlyIo s t))) ∧
    (∀ v : W32, s.takesWrite m.id (pgMbxCh c.val + MBX_POST.LEN.off) = true → m.id = s.io.mbxSender c.val →
      (s.io.mbxState c.val = 1 ∨ s.io.mbxState c.val = 2 → Completes (.mbxPost m c v) s (fun t =>
        t.get (pgMbxCh c.val) PG_ERR_CNT.COUNT = min (2 ^ 32 - 1) (s.get (pgMbxCh c.val) PG_ERR_CNT.COUNT + 1) ∧ OnlyRegs s t)) ∧
      (s.io.mbxState c.val ≠ 1 → s.io.mbxState c.val ≠ 2 →
        (8 ≤ c.val → s.feature 12 = false → Completes (.mbxPost m c v) s (fun t =>
          t.io.mbxState c.val = 3 ∧ t.get (pgMbxCh c.val) MBX_ACK.CODE = 0xFF03 ∧ t.io.cause (pgMbxCh c.val) 1 = true ∧ OnlyIrq s t)) ∧
        (c.val < 8 ∨ s.feature 12 = true → 16 < gb v 0 5 → Completes (.mbxPost m c v) s (fun t =>
          t.io.mbxState c.val = 3 ∧ t.get (pgMbxCh c.val) MBX_ACK.CODE = 0xFF02 ∧ t.io.cause (pgMbxCh c.val) 1 = true ∧ OnlyIrq s t)) ∧
        (c.val < 8 ∨ s.feature 12 = true → gb v 0 5 ≤ 16 → Completes (.mbxPost m c v) s (fun t =>
          t.io.mbxState c.val = 1 ∧ t.get (pgMbxCh c.val) MBX_STAT.LEN = gb v 0 5 ∧
          t.get (pgMbxCh c.val) MBX_STAT.SENDER_GEN = s.io.mbxGen m.id ∧ t.get (pgMbxCh c.val) MBX_ACK.CODE = 0 ∧
          (∀ w : Fin 16, t.get (pgMbxCh c.val) MBX_MSGw.DATA w.val = if w.val < gb v 0 5 then s.get (pgMbxCh c.val) MBX_MSGw.DATA w.val else 0) ∧
          t.get (pgMbxCh c.val) MBX_DB.BITS = s.get (pgMbxCh c.val) MBX_DB.BITS ||| 2 ^ 31 ∧
          ((s.get (pgMbxCh c.val) MBX_DB_MASK.MASK).testBit 31 = false → (s.get (pgMbxCh c.val) MBX_DB.BITS).testBit 31 = false →
            t.io.cause (pgMbxCh c.val) 0 = true) ∧ OnlyIrq s t)))) ∧
    (s.takesWrite m.id (pgMbxCh c.val + MBX_RX_CTL.TAKE.off) = true → m.id = s.io.mbxReceiver c.val →
      (s.io.mbxState c.val = 1 → Completes (.mbxTake m c) s (fun t =>
        t.io.mbxState c.val = 2 ∧ OnlyRegs s t ∧ KeepsWords (· = pgMbxCh c.val + MBX_STAT.STATE.off) s t)) ∧
      (s.io.mbxState c.val ≠ 1 → Completes (.mbxTake m c) s (fun t =>
        t.get (pgMbxCh c.val) PG_ERR_CNT.COUNT = min (2 ^ 32 - 1) (s.get (pgMbxCh c.val) PG_ERR_CNT.COUNT + 1) ∧ OnlyRegs s t))) ∧
    (∀ v : W32, s.takesWrite m.id (pgMbxCh c.val + MBX_ACK.CODE.off) = true → m.id = s.io.mbxReceiver c.val →
      (s.io.mbxState c.val = 2 → gb v 0 16 < 0xFF00 → Completes (.mbxAckWrite m c v) s (fun t =>
        t.io.mbxState c.val = 3 ∧ t.get (pgMbxCh c.val) MBX_ACK.CODE = gb v 0 16 ∧ t.io.cause (pgMbxCh c.val) 1 = true ∧ OnlyIrq s t)) ∧
      (s.io.mbxState c.val ≠ 2 ∨ 0xFF00 ≤ gb v 0 16 → Completes (.mbxAckWrite m c v) s (fun t =>
        t.get (pgMbxCh c.val) PG_ERR_CNT.COUNT = min (2 ^ 32 - 1) (s.get (pgMbxCh c.val) PG_ERR_CNT.COUNT + 1) ∧
        t.io.mbxState c.val = s.io.mbxState c.val ∧ OnlyRegs s t))) ∧
    (∀ b : W32, s.takesWrite m.id (pgMbxCh c.val + MBX_DB_SET.SET.off) = true → m.id = s.io.mbxSender c.val →
      (8 ≤ c.val → s.feature 12 = false → NoEffect (.doorbellSet m c b) s) ∧
      (c.val < 8 ∨ s.feature 12 = true → Completes (.doorbellSet m c b) s (fun t =>
        t.get (pgMbxCh c.val) MBX_DB.BITS = s.get (pgMbxCh c.val) MBX_DB.BITS ||| b.toNat ∧
        ((∃ i : Fin 32, tb b i.val = true ∧ (s.get (pgMbxCh c.val) MBX_DB_MASK.MASK).testBit i.val = false ∧
          (s.get (pgMbxCh c.val) MBX_DB.BITS).testBit i.val = false) → t.io.cause (pgMbxCh c.val) 0 = true) ∧
        OnlyIrq s t ∧ KeepsWords (fun a => a = pgMbxCh c.val + MBX_DB.BITS.off ∨ a = pgMbxCh c.val + 0x10) s t))) ∧
    (∀ b : W32, m.id = s.io.mbxReceiver c.val →
      (s.takesWrite m.id (pgMbxCh c.val + MBX_DB.BITS.off) = true → Completes (.doorbellClear m c b) s (fun t =>
        t.io.rd (pgMbxCh c.val + MBX_DB.BITS.off) = s.io.rd (pgMbxCh c.val + MBX_DB.BITS.off) &&& ~~~ b ∧ OnlyRegs s t ∧
        KeepsWords (· = pgMbxCh c.val + MBX_DB.BITS.off) s t)) ∧
      (s.takesWrite m.id (pgMbxCh c.val + MBX_DB_MASK.MASK.off) = true → Completes (.doorbellMaskWrite m c b) s (fun t =>
        t.get (pgMbxCh c.val) MBX_DB_MASK.MASK = b.toNat ∧
        ((∃ i : Fin 32, tb b i.val = false ∧ (s.get (pgMbxCh c.val) MBX_DB_MASK.MASK).testBit i.val = true ∧
          (s.get (pgMbxCh c.val) MBX_DB.BITS).testBit i.val = true) → t.io.cause (pgMbxCh c.val) 0 = true) ∧
        OnlyIrq s t ∧ KeepsWords (fun a => a = pgMbxCh c.val + MBX_DB_MASK.MASK.off ∨ a = pgMbxCh c.val + 0x10) s t))) ∧
    (s.takesWrite m.id (pgMbx + MBX_DECLARE.RESET.off) = true →
      (m = .mcSec ∨ mbxOpen m.id = true → Completes (.mbxDeclareReset m) s (fun t =>
        t.io.mbxGen m.id = (s.io.mbxGen m.id + 1) % 256 ∧
        (s.io.mbxBound c.val = true → s.io.mbxReceiver c.val = m.id →
          t.get (pgMbxCh c.val) MBX_DB.BITS = 0 ∧ t.get (pgMbxCh c.val) MBX_DB_MASK.MASK = 0xFFFFFFFF ∧
          (s.io.mbxState c.val = 1 ∨ s.io.mbxState c.val = 2 → t.io.mbxState c.val = 3 ∧ t.get (pgMbxCh c.val) MBX_ACK.CODE = 0xFF01 ∧
            t.io.cause (pgMbxCh c.val) 1 = true)) ∧
        (s.io.mbxBound c.val = true → s.io.mbxSender c.val = m.id → s.io.mbxReceiver c.val ≠ m.id → s.io.mbxState c.val ≠ 0 →
          t.get (pgMbxCh c.val) MBX_STAT.ORPHAN = 1 ∧ t.io.cause (pgMbxCh c.val) 2 = true ∧ t.io.mbxState c.val = s.io.mbxState c.val) ∧
        (s.io.mbxBound c.val = false → t.io.mbxState c.val = s.io.mbxState c.val) ∧ OnlyIrq s t)) ∧
      (m ≠ .mcSec → mbxOpen m.id = false → Completes (.mbxDeclareReset m) s (fun t =>
        t.get pgMbx PG_ERR_CNT.COUNT = min (2 ^ 32 - 1) (s.get pgMbx PG_ERR_CNT.COUNT + 1) ∧ OnlyRegs s t)))

/-! ### Cascade -/

/-- R446, R447, R449 to R451, R458, R463, R465: a link comes up to the peer the table names or is MISWIRED, carries CONTROL frames alone
with MISMATCH where R446 has it so (log entry 78 for the identities), and goes down with its waiting frames; a good frame waits to
be acted on and a bad one is counted; HELLO makes its sender live and silence ends that; a DATA frame is queued on its port, a STEER
frame staged in the pipeline its hash names, and a link sends its next frame once it is free. -/
def Obligations.StackLinks : Prop :=
  ∀ (s : State) (k : Fin 4), s.on = true →
    (∀ p l : Fin 4, s.cascOn = false ∨ s.get pgCsc CSC_LINK_CFGk.EN k.val = 0 → NoEffect (.stackLinkUp k p l) s) ∧
    (∀ p l : Fin 4, s.cascOn = true → s.get pgCsc CSC_LINK_CFGk.EN k.val = 1 →
      (s.wired k.val p.val l.val = true ∨ s.badId k.val p.val = true → Completes (.stackLinkUp k p l) s (fun t =>
        t.get pgCsc CSC_LINK_STATk.UP k.val = 1 ∧ t.get pgCsc CSC_LINK_STATk.MISWIRED k.val = 0 ∧
        tb t.csc.mism k.val = s.badId k.val p.val ∧ (s.badId k.val p.val = true → t.get pgCsc CSC_STAT.MISMATCH = 1) ∧
        (s.badId k.val p.val = true → s.csc.mism = 0 → t.io.cause pgCsc 1 = true) ∧
        t.get pgCsc CSC_LINK_STATk.PEER_ID k.val = p.val ∧ t.get pgCsc CSC_LINK_STATk.PEER_LINK k.val = l.val ∧ t.io.cause pgCsc 0 = true ∧
        t.get pgCsc CSC_TX_FRAMESk.COUNT k.val = (s.get pgCsc CSC_TX_FRAMESk.COUNT k.val + 1) % 2 ^ 64 ∧
        t = { s with io := t.io, csc := { s.csc with firstUp := t.csc.firstUp, mism := t.csc.mism, free := t.csc.free } })) ∧
      (s.wired k.val p.val l.val = false → s.badId k.val p.val = false → Completes (.stackLinkUp k p l) s (fun t =>
        t.get pgCsc CSC_LINK_STATk.UP k.val = 0 ∧ t.get pgCsc CSC_LINK_STATk.MISWIRED k.val = 1 ∧
        (s.get pgCsc CSC_LINK_STATk.MISWIRED k.val = 0 → t.io.cause pgCsc 1 = true) ∧ OnlyIrq s t))) ∧
    (s.get pgCsc CSC_LINK_STATk.UP k.val = 0 → s.get pgCsc CSC_LINK_STATk.MISWIRED k.val = 0 → NoEffect (.stackLinkDown k) s) ∧
    (s.get pgCsc CSC_LINK_STATk.UP k.val = 1 ∨ s.get pgCsc CSC_LINK_STATk.MISWIRED k.val = 1 → Completes (.stackLinkDown k) s (fun t =>
      t.get pgCsc CSC_LINK_STATk.UP k.val = 0 ∧ t.get pgCsc CSC_LINK_STATk.MISWIRED k.val = 0 ∧ t.csc.rx.get [] k.val = [] ∧
      tb t.csc.mism k.val = false ∧ t.io.cause pgCsc 0 = true ∧
      (∀ j : Fin 4, j ≠ k → t.get pgCsc CSC_LINK_STATk.UP j.val = s.get pgCsc CSC_LINK_STATk.UP j.val) ∧
      t = { s with io := t.io, csc := { s.csc with rx := t.csc.rx, mism := t.csc.mism } })) ∧
    (∀ f, s.linkLive k.val = false → NoEffect (.stackFrameRx k f) s) ∧
    (∀ f, s.linkLive k.val = true →
      (f.length < 36 ∨ f.drop (f.length - 4) ≠ fcsOf (f.take (f.length - 4)) → Completes (.stackFrameRx k f) s (fun t =>
        t.get pgCsc CSC_RX_FRAMESk.COUNT k.val = (s.get pgCsc CSC_RX_FRAMESk.COUNT k.val + 1) % 2 ^ 64 ∧
        t.get pgCsc CSC_RX_CRC_ERRk.COUNT k.val = (s.get pgCsc CSC_RX_CRC_ERRk.COUNT k.val + 1) % 2 ^ 64 ∧ OnlyIo s t)) ∧
      (36 ≤ f.length → f.drop (f.length - 4) = fcsOf (f.take (f.length - 4)) →
        (sfType f = 3 ∨ (tb s.csc.mism k.val = true ∧ sfType f ≠ 0) → Completes (.stackFrameRx k f) s (fun t =>
          t.get pgCsc CSC_RX_FRAMESk.COUNT k.val = (s.get pgCsc CSC_RX_FRAMESk.COUNT k.val + 1) % 2 ^ 64 ∧ OnlyIo s t)) ∧
        (sfType f ≠ 3 → tb s.csc.mism k.val = false ∨ sfType f = 0 → Completes (.stackFrameRx k f) s (fun t =>
          t.csc.rx.get [] k.val = s.csc.rx.get [] k.val ++ [(s.io.time.ns, f)] ∧
          t.get pgCsc CSC_RX_FRAMESk.COUNT k.val = (s.get pgCsc CSC_RX_FRAMESk.COUNT k.val + 1) % 2 ^ 64 ∧
          t = { s with io := t.io, csc := { s.csc with rx := t.csc.rx } })))) ∧
    (s.csc.rx.get [] k.val = [] → ∀ x ∈ [Instr.steerRx k, .dataRx k, .helloRx k, .timeRx k, .delayReqRx k, .delayRespRx k, .prepareRx k,
      .preparedRx k, .refusedRx k, .decideRx k, .rmtReqRx k, .rmtRspRx k], NoEffect x s) ∧
    Completes .helloSend s (fun t =>
      (∀ j : Fin 4, t.get pgCsc CSC_TX_FRAMESk.COUNT j.val = (s.get pgCsc CSC_TX_FRAMESk.COUNT j.val + b2n (s.linkLive j.val)) % 2 ^ 64) ∧
      t = { s with io := t.io, csc := { s.csc with free := t.csc.free } }) ∧
    (∀ a f rest, s.heads k.val 0 ccHello a f rest →
      Completes (.helloRx k) s (fun t =>
        (t.get pgCsc CSC_STAT.LIVE).testBit (sfSrc f) = true ∧ t.csc.hello.get 0 (sfSrc f) = s.io.time.counted + 1 ∧
        t.csc.rx.get [] k.val = rest) ∧
      (sfSrc f ≠ s.get pgCsc CSC_LINK_STATk.PEER_ID k.val → Completes (.helloRx k) s (fun t =>
        t.csc.mism = s.csc.mism ∧ t.get pgCsc CSC_LINK_STATk.UP k.val = s.get pgCsc CSC_LINK_STATk.UP k.val ∧ OnlyRegs { s with csc := t.csc } t)) ∧
      (sfSrc f = s.get pgCsc CSC_LINK_STATk.PEER_ID k.val → leAt (sfBody f) 0 1 ≠ s.get pgCsc CSC_STAT.ROLE →
        Completes (.helloRx k) s (fun t =>
          tb t.csc.mism k.val = true ∧ t.get pgCsc CSC_STAT.MISMATCH = 1 ∧ (s.csc.mism = 0 → t.io.cause pgCsc 1 = true))) ∧
      (sfSrc f = s.get pgCsc CSC_LINK_STATk.PEER_ID k.val → leAt (sfBody f) 0 1 = s.get pgCsc CSC_STAT.ROLE →
        leAt (sfBody f) 2 1 = s.get pgCsc CSC_CFG.DEVICES → s.badId k.val (leAt (sfBody f) 1 1) = false → Completes (.helloRx k) s (fun t =>
          t.get pgCsc CSC_LINK_STATk.PEER_ID k.val = leAt (sfBody f) 1 1 % 4 ∧
          (s.wired k.val (leAt (sfBody f) 1 1) (leAt (sfBody f) 3 1) = true → tb t.csc.mism k.val = false) ∧
          (s.wired k.val (leAt (sfBody f) 1 1) (leAt (sfBody f) 3 1) = false →
            t.get pgCsc CSC_LINK_STATk.UP k.val = 0 ∧ t.get pgCsc CSC_LINK_STATk.MISWIRED k.val = 1)))) ∧
    (∀ d : Fin 4, s.csc.hello.get 0 d.val = 0 ∨ s.cascOn = false ∨ d.val = s.myId → NoEffect (.peerLiveExpire d) s) ∧
    (∀ d : Fin 4, s.csc.hello.get 0 d.val ≠ 0 → s.cascOn = true → d.val ≠ s.myId → Completes (.peerLiveExpire d) s (fun t =>
      t.csc = { s.csc with hello := t.csc.hello } ∧ t.csc.hello.get 0 d.val = 0 ∧
      (∀ e : Fin 4, (t.get pgCsc CSC_STAT.LIVE).testBit e.val = (decide (e ≠ d) && (s.get pgCsc CSC_STAT.LIVE).testBit e.val)) ∧
      (s.io.tickInc ≠ 0 → 4000000 + (s.csc.hello.get 0 d.val - 1) ≤ t.io.time.counted) ∧
      t = { s with io := t.io, csc := t.csc })) ∧
    (∀ a f rest, s.heads k.val 2 0 a f rest → leAt f 2 1 < 128 →
      s.judgePort (leAt f 2 1) (leAt f 3 1 % 8) (ceilDiv (sfBody f).length 256) false = none → Completes (.dataRx k) s (fun t =>
        t.csc = { s.csc with rx := s.csc.rx.set [] k.val rest } ∧
        (∃ c : Copy, c.len = (sfBody f).length ∧ c.srcPort = leAt f 1 1 ∧ c.ts = sfStamp f ∧ c.pkt = s.buf.nextId ∧
          (∀ j l, l = (if j = 8 * leAt f 2 1 + leAt f 3 1 % 8 then s.queue j ++ [c] else s.queue j) →
            t.queue j = if j < 1024 ∧ l.all (·.pkt == c.pkt) = true then l.dropWhile (fun h => s.oversize (j / 8) (j % 8) h.len) else l) ∧
          (s.feature 7 = false → (t.stored c.pkt).bytes = (sfBody f).take ((sfBody f).length - 4))) ∧
        t = { s with io := t.io, buf := t.buf, csc := t.csc, tel := t.tel })) ∧
    (∀ a f rest p, s.heads k.val 1 0 a f rest → p = bitsOf (leAt f 8 4) 8 3 → 4 ≤ (sfBody f).length →
      (((s.staged p).map Pkt.cells).sum + ceilDiv (sfBody f).length 64 ≤ stagingCells → Completes (.steerRx k) s (fun t =>
        (∃ x, t.staged p = s.staged p ++ [x] ∧ x.steered = true ∧ x.pipe = p ∧ x.inPort = leAt f 26 1 ∧ x.ts = sfStamp f ∧
          x.bytes = (sfBody f).take ((sfBody f).length - 4) ∧ x.zone = some (leAt f 24 2 % 4096)) ∧
        (∀ q, q ≠ p → t.staged q = s.staged q) ∧ t.csc = { s.csc with rx := s.csc.rx.set [] k.val rest })) ∧
      (stagingCells < ((s.staged p).map Pkt.cells).sum + ceilDiv (sfBody f).length 64 →
        Completes (.steerRx k) s (fun t => t = s.rxDone k.val rest))) ∧
    (∀ cells, s.linkLive k.val = false ∨ tb s.csc.mism k.val = true → NoEffect (.stackFrameTx k cells) s) ∧
    (∀ cells, s.queue (stackQ k.val 0) = [] → s.queue (stackQ k.val 1) = [] → NoEffect (.stackFrameTx k cells) s) ∧
    (∀ c rest q cells, s.linkLive k.val = true → tb s.csc.mism k.val = false →
      (q = if (s.queue (stackQ k.val 0)).isEmpty then stackQ k.val 1 else stackQ k.val 0) → s.queue q = c :: rest →
      Completes (.stackFrameTx k cells) s (fun t =>
        t.queue q = rest ∧ (∀ j, j ≠ q → t.queue j = s.queue j) ∧
        (∃ b, .stack k.val b ∈ t.io.out ∧ b.take 32 = bytesLE 32 c.stack.toNat ∧
          b.drop 32 = (s.readCells c.pkt cells).stackFrame c ++ fcsOf (bytesLE 32 c.stack.toNat ++ (s.readCells c.pkt cells).stackFrame c)) ∧
        (s.io.tickInc ≠ 0 → s.csc.free.get 0 k.val ≤ 50 * t.io.time.counted) ∧
        t.get pgCsc CSC_TX_FRAMESk.COUNT k.val = (s.get pgCsc CSC_TX_FRAMESk.COUNT k.val + 1) % 2 ^ 64 ∧
        t = { s with io := t.io, buf := t.buf, csc := { s.csc with free := t.csc.free }, tel := t.tel }))

/-- R452, R453, R455, R456: the master sends TIME on every link; device 0 that boots into a cascade with a master joins it (R461); a
member takes its offset from TIME directly from the master, slews or steps by it, measures each link's delay by DELAY_REQ and
DELAY_RESP, and reports the loss of TIME and the skew of the epoch edge. -/
def Obligations.StackTime : Prop :=
  ∀ (s : State) (k : Fin 4), s.on = true →
    (s.io.time.due.timeSend ≠ 0 ∨ s.io.tickInc ≠ 0 → Completes .timeSend s (fun t =>
      (s.io.time.due.timeSend ≠ 0 →
        t.io.time = { s.io.time with due := { s.io.time.due with timeSend := s.io.time.due.timeSend - 1 } }) ∧
      (s.io.time.due.timeSend = 0 → s.io.time.ns + s.io.toMultiple (2 ^ 14) ≤ t.io.time.ns) ∧
      (∀ j : Fin 4, t.get pgCsc CSC_TX_FRAMESk.COUNT j.val
        = (s.get pgCsc CSC_TX_FRAMESk.COUNT j.val + b2n (s.isMaster && s.linkLive j.val)) % 2 ^ 64) ∧
      t = { s with io := t.io, csc := { s.csc with free := t.csc.free } })) ∧
    (∀ a f rest, s.heads k.val 0 ccTime a f rest →
      (s.isMaster = true → s.myId ≠ 0 ∨ leAt (sfBody f) 15 1 = 0 ∨ s.csc.firstUp = 0 ∨ s.csc.firstUp + 100000000 ≤ s.io.time.counted →
        Completes (.timeRx k) s (fun t => t = s.rxDone k.val rest)) ∧
      (s.isMaster = true → s.myId = 0 → leAt (sfBody f) 15 1 ≠ 0 → s.csc.firstUp ≠ 0 →
        s.io.time.counted < s.csc.firstUp + 100000000 → Completes (.timeRx k) s (fun t =>
          t.get pgCsc CSC_STAT.DEMOTED = 1 ∧ t.get pgCsc CSC_STAT.IS_MASTER = 0 ∧
          t.get pgCsc CSC_STAT.MASTER_ID = leAt (sfBody f) 15 1 % 4)) ∧
      (s.isMaster = false → sfSrc f ≠ leAt (sfBody f) 15 1 → s.csc.seen.contains (bytesLE 1 (sfSrc f) ++ bytesLE 1 (sfCode f) ++ sfBody f) = true →
        Completes (.timeRx k) s (fun t => t = s.rxDone k.val rest)) ∧
      (∀ off : Int, s.isMaster = false → s.cascOn = true → s.csc.seen.contains (bytesLE 1 (sfSrc f) ++ bytesLE 1 (sfCode f) ++ sfBody f) = true →
        sfSrc f = leAt (sfBody f) 15 1 → s.get pgCsc CSC_LINK_STATk.PEER_ID k.val = leAt (sfBody f) 15 1 →
        (s.ctlLinks (s.get pgCsc CSC_LINK_STATk.PEER_ID k.val)).head? = some k.val →
        off = (a : Int) - timeAt' (sfBody f) 0 - s.get pgCsc CSC_LINK_STATk.DELAY_NS k.val → Completes (.timeRx k) s (fun t =>
          t.get pgCsc CSC_TIME_OFFSET.NS = ofSigned 32 off ∧ t.csc.rx.get [] k.val = rest ∧
          t.csc.t1.get 0 k.val = timeAt' (sfBody f) 0 ∧ t.csc.t2.get 0 k.val = a ∧
          (-1000 ≤ off → off ≤ 1000 → t.io.time.ns = s.io.time.ns) ∧
          (off < -1000 ∨ 1000 < off → t.io.time.ns = ((s.io.time.ns : Int) - off).toNat ∧ t.io.time.set = true)))) ∧
    (s.follower = false → NoEffect .delayReqSend s) ∧
    (s.follower = true → Completes .delayReqSend s (fun t =>
      (∀ j : Fin 4, t.get pgCsc CSC_TX_FRAMESk.COUNT j.val = (s.get pgCsc CSC_TX_FRAMESk.COUNT j.val + b2n (s.linkLive j.val)) % 2 ^ 64 ∧
        (s.linkLive j.val = true → t.csc.t3.get 0 j.val = s.io.time.ns)) ∧
      t = { s with io := t.io, csc := { s.csc with t3 := t.csc.t3, free := t.csc.free } })) ∧
    (∀ a f rest, s.heads k.val 0 ccDelayReq a f rest → Completes (.delayReqRx k) s (fun t =>
      t.get pgCsc CSC_TX_FRAMESk.COUNT k.val = (s.get pgCsc CSC_TX_FRAMESk.COUNT k.val + 1) % 2 ^ 64 ∧
      (∃ b, .stack k.val b ∈ t.io.out ∧ sfCode b = ccDelayResp ∧ sfBody b = timeBytes a) ∧
      t = { s with io := t.io, csc := { s.csc with rx := s.csc.rx.set [] k.val rest, free := t.csc.free } })) ∧
    (∀ a f rest, s.heads k.val 0 ccDelayResp a f rest →
      (s.csc.t1.get 0 k.val = 0 → Completes (.delayRespRx k) s (fun t => t = s.rxDone k.val rest)) ∧
      (s.csc.t1.get 0 k.val ≠ 0 → Completes (.delayRespRx k) s (fun t =>
        t.get pgCsc CSC_LINK_STATk.DELAY_NS k.val = min 0xFFFF (((s.csc.t2.get 0 k.val : Int) - s.csc.t1.get 0 k.val +
          ((timeAt' (sfBody f) 0 : Int) - s.csc.t3.get 0 k.val)) / 2).toNat ∧ OnlyRegs (s.rxDone k.val rest) t))) ∧
    (s.follower = false ∨ s.csc.lost = true → NoEffect .timeLost s) ∧
    (s.follower = true → s.csc.lost = false → Completes .timeLost s (fun t =>
      t.get pgCsc CSC_STAT.TIME_LOCKED = 0 ∧ t.io.cause pgCsc 6 = true ∧ t.csc = { s.csc with lost := true, near := 0 } ∧
      (s.io.tickInc ≠ 0 → 65536 + (s.csc.timeAt - 1) ≤ t.io.time.counted) ∧ t = { s with io := t.io, csc := t.csc })) ∧
    (∀ d : Int, s.follower = false → NoEffect (.cascEpochEdge d) s) ∧
    (∀ d : Int, s.follower = true → Completes (.cascEpochEdge d) s (fun t =>
      t.get pgCsc CSC_SKEW.SKEW_NS = ofSigned 16 d ∧ (s.get pgCsc CSC_SKEW.LIMIT_NS < d.natAbs → t.io.cause pgCsc 4 = true) ∧
      (d.natAbs ≤ s.get pgCsc CSC_SKEW.LIMIT_NS → OnlyRegs s t) ∧ OnlyIrq s t)) ∧
    (s.io.sys.cascLow = false → NoEffect .cascEpochRelease s) ∧
    (s.io.sys.cascLow = true → Completes .cascEpochRelease s (fun t => t.io.sys.cascLow = false ∧
      (s.io.tickInc ≠ 0 → s.io.time.lastBoundary.getD 0 + 100 ≤ t.io.time.counted) ∧ OnlyIo s t))

/-- R457 to R459, R461, R469: PREP_US before its boundary the master opens the commit and asks every device; a member answers PREPARED
or REFUSED with its reason; MARGIN_US before it the master decides and tells every device, and the verdict is kept for the boundary
event; mastership is handed back on command, and one remote access at a time is sent, relayed, served, answered or timed out. -/
def Obligations.StackCommitAndRemote : Prop :=
  ∀ (s : State) (k : Fin 4), s.on = true →
    (s.io.time.armed = none ∨ s.cascOn = false ∨ s.isMaster = false → NoEffect .prepareSend s) ∧
    (∀ e, s.io.time.armed = some e → s.csc.target = some e ∨ (s.toBefore e (s.get pgCsc CSC_COMMIT_CFG.PREP_US)).2 = false →
      NoEffect .prepareSend s) ∧
    (∀ e u, s.io.time.armed = some e → s.cascOn = true → s.isMaster = true → s.csc.target ≠ some e →
      s.toBefore e (s.get pgCsc CSC_COMMIT_CFG.PREP_US) = (u, true) → Completes .prepareSend s (fun t =>
        t.io.time = u.io.time ∧
        t.csc = { s.csc with target := some e, decided := none, prepared := none, verdict := none, free := t.csc.free } ∧
        (∀ d j, d ∈ s.others → (s.ctlLinks d).head? = some j →
          ∃ b, .stack j b ∈ t.io.out ∧ sfDst b = d % 4 ∧ sfCode b = ccPrepare ∧ sfBody b = bytesLE 4 e) ∧
        t.get pgCsc CSC_COMMIT_STAT.PREPARED = (if s.armedBusy then 0 else 2 ^ s.myId) ∧
        t.get pgCsc CSC_COMMIT_STAT.REFUSED = (if s.armedBusy then 2 ^ s.myId else 0) ∧
        (s.armedBusy = true → t.get pgCsc CSC_COMMIT_STAT.REASON = 3) ∧ t.get pgCsc CSC_COMMIT_TGT.EPOCH = e % 2 ^ 32 ∧
        t = { s with io := t.io, csc := t.csc })) ∧
    (∀ a f rest e, s.heads k.val 0 ccPrepare a f rest → e = leAt (sfBody f) 0 4 →
      (s.isMaster = true ∨ s.csc.seen.contains (bytesLE 1 (sfSrc f) ++ bytesLE 1 (sfCode f) ++ sfBody f) = true →
        Completes (.prepareRx k) s (fun t => t = s.rxDone k.val rest)) ∧
      (∀ r, s.isMaster = false → s.csc.seen.contains (bytesLE 1 (sfSrc f) ++ bytesLE 1 (sfCode f) ++ sfBody f) = false →
        s.prepareAnswer e = some r → Completes (.prepareRx k) s (fun t =>
          t.csc.target = some e ∧ t.csc.prepared = none ∧ t.csc.rx.get [] k.val = rest ∧ t.get pgCsc CSC_COMMIT_STAT.REFUSED = 2 ^ s.myId ∧
          t.get pgCsc CSC_COMMIT_STAT.REASON = r % 16 ∧ t.get pgCsc CSC_COMMIT_STAT.PREPARED = 0 ∧
          (∃ j b, .stack j b ∈ t.io.out ∧ sfCode b = ccRefused ∧ sfBody b = bytesLE 4 e ++ bytesLE 1 r))) ∧
      (s.isMaster = false → s.csc.seen.contains (bytesLE 1 (sfSrc f) ++ bytesLE 1 (sfCode f) ++ sfBody f) = false →
        s.prepareAnswer e = none → Completes (.prepareRx k) s (fun t =>
          t.csc.target = some e ∧ t.csc.prepared = some e ∧ t.csc.rx.get [] k.val = rest ∧ t.get pgCsc CSC_COMMIT_STAT.PREPARED = 2 ^ s.myId ∧
          t.get pgCsc CSC_COMMIT_STAT.REFUSED = 0 ∧ (∃ j b, .stack j b ∈ t.io.out ∧ sfCode b = ccPrepared ∧ sfBody b = bytesLE 4 e)))) ∧
    (∀ a f rest, s.heads k.val 0 ccPrepared a f rest →
      (s.isMaster = true → s.csc.target = some (leAt (sfBody f) 0 4) → Completes (.preparedRx k) s (fun t =>
        t.get pgCsc CSC_COMMIT_STAT.PREPARED = s.get pgCsc CSC_COMMIT_STAT.PREPARED ||| 2 ^ sfSrc f ∧ OnlyRegs (s.rxDone k.val rest) t)) ∧
      (s.isMaster = false ∨ s.csc.target ≠ some (leAt (sfBody f) 0 4) → Completes (.preparedRx k) s (fun t => t = s.rxDone k.val rest))) ∧
    (∀ a f rest, s.heads k.val 0 ccRefused a f rest →
      (s.isMaster = true → s.csc.target = some (leAt (sfBody f) 0 4) → Completes (.refusedRx k) s (fun t =>
        t.get pgCsc CSC_COMMIT_STAT.REFUSED = s.get pgCsc CSC_COMMIT_STAT.REFUSED ||| 2 ^ sfSrc f ∧
        (s.get pgCsc CSC_COMMIT_STAT.REFUSED % 2 ^ sfSrc f = 0 → t.get pgCsc CSC_COMMIT_STAT.REASON = leAt (sfBody f) 4 1 % 16) ∧
        OnlyRegs (s.rxDone k.val rest) t)) ∧
      (s.isMaster = false ∨ s.csc.target ≠ some (leAt (sfBody f) 0 4) → Completes (.refusedRx k) s (fun t => t = s.rxDone k.val rest))) ∧
    (s.csc.target = none ∨ s.csc.decided ≠ none ∨ s.cascOn = false ∨ s.isMaster = false → NoEffect .decideSend s) ∧
    (∀ e, s.csc.target = some e → (s.toBefore e (s.get pgCsc CSC_COMMIT_CFG.MARGIN_US)).2 = false → NoEffect .decideSend s) ∧
    (∀ e u ok, s.csc.target = some e → s.csc.decided = none → s.cascOn = true → s.isMaster = true →
      s.toBefore e (s.get pgCsc CSC_COMMIT_CFG.MARGIN_US) = (u, true) →
      (ok = true ↔ s.io.time.armed = some e ∧ s.get pgCsc CSC_COMMIT_STAT.REFUSED = 0 ∧
        ∀ d : Fin 4, (s.get pgCsc CSC_STAT.LIVE).testBit d.val = true → (s.get pgCsc CSC_COMMIT_STAT.PREPARED).testBit d.val = true) →
      Completes .decideSend s (fun t =>
        t.io.time = u.io.time ∧ t.csc = { s.csc with decided := some ok, verdict := some (e, ok), free := t.csc.free } ∧
        (∀ d j, d ∈ s.others → (s.ctlLinks d).head? = some j →
          ∃ b, .stack j b ∈ t.io.out ∧ sfDst b = d % 4 ∧ sfCode b = ccDecide ∧ sfBody b = bytesLE 4 e ++ bytesLE 1 (b2n ok)) ∧
        t = { s with io := t.io, csc := t.csc })) ∧
    (∀ a f rest, s.heads k.val 0 ccDecide a f rest →
      (s.isMaster = true ∨ s.csc.seen.contains (bytesLE 1 (sfSrc f) ++ bytesLE 1 (sfCode f) ++ sfBody f) = true →
        Completes (.decideRx k) s (fun t => t = s.rxDone k.val rest)) ∧
      (s.isMaster = false → s.csc.seen.contains (bytesLE 1 (sfSrc f) ++ bytesLE 1 (sfCode f) ++ sfBody f) = false →
        Completes (.decideRx k) s (fun t =>
          t.csc.verdict = some (leAt (sfBody f) 0 4, leAt (sfBody f) 4 1 % 2 == 1) ∧ t.csc.rx.get [] k.val = rest ∧
          t = { s with io := t.io, csc := t.csc }))) ∧
    (∀ m : Master, s.takesWrite m.id (pgCsc + CSC_MASTER_CTL.HANDBACK.off) = true →
      (s.isMaster = true → s.cascOn = true → Completes (.handback m) s (fun t => t = { s with csc := { s.csc with handback := true } })) ∧
      (s.isMaster = false ∨ s.cascOn = false → Completes (.handback m) s (fun t =>
        t.get pgCsc PG_ERR_CNT.COUNT = min (2 ^ 32 - 1) (s.get pgCsc PG_ERR_CNT.COUNT + 1) ∧ OnlyRegs s t))) ∧
    (∀ (m : Master) (w : Bool), s.takesWrite m.id (pgCsc + CSC_RMT_CTL.GO.off) = true →
      (ctlMaster m.id = false ∨ s.get pgCsc CSC_RMT_STAT.CODE = 1 → Completes (.rmtGo m w) s (fun t =>
        t.get pgCsc PG_ERR_CNT.COUNT = min (2 ^ 32 - 1) (s.get pgCsc PG_ERR_CNT.COUNT + 1) ∧ OnlyRegs s t)) ∧
      (ctlMaster m.id = true → s.get pgCsc CSC_RMT_STAT.CODE ≠ 1 →
        (s.get pgCsc CSC_RMT_ADDR.DEV = s.myId ∨ s.rmtLink (s.get pgCsc CSC_RMT_ADDR.DEV) = none → Completes (.rmtGo m w) s (fun t =>
          t.get pgCsc CSC_RMT_STAT.CODE = 3 ∧ OnlyRegs s t)) ∧
        (∀ j, s.get pgCsc CSC_RMT_ADDR.DEV ≠ s.myId → s.rmtLink (s.get pgCsc CSC_RMT_ADDR.DEV) = some j → Completes (.rmtGo m w) s (fun t =>
          t.get pgCsc CSC_RMT_STAT.CODE = 1 ∧ (∃ b, .stack j b ∈ t.io.out ∧ sfCode b = ccRmtReq ∧ sfDst b = s.get pgCsc CSC_RMT_ADDR.DEV) ∧
          t.csc = { s.csc with rmtTag := (s.csc.rmtTag + 1) % 256, rmtWrite := w, rmtWait := true, rmtAt := s.io.time.counted,
                                free := t.csc.free } ∧
          t = { s with io := t.io, csc := t.csc })))) ∧
    (∀ a f rest, s.heads k.val 0 ccRmtReq a f rest → sfDst f = s.myId →
      (leAt (sfBody f) 1 1 % 2 = 0 → Completes (.rmtReqRx k) s (fun t =>
        t = ((s.rxDone k.val rest).fabricRead (0x80 + sfSrc f) (leAt (sfBody f) 2 4)).2.rmtAnswer k.val (sfSrc f) (leAt (sfBody f) 0 1) 2
          ((s.rxDone k.val rest).fabricRead (0x80 + sfSrc f) (leAt (sfBody f) 2 4)).1)) ∧
      (leAt (sfBody f) 1 1 % 2 = 1 → (∀ c o, c < 16 → o < 0x1000 → leAt (sfBody f) 2 4 ≠ pgMbxCh c + o) → Completes (.rmtReqRx k) s (fun t =>
        t.get pgCsc CSC_RMT_DENIED_CNT.COUNT = (s.get pgCsc CSC_RMT_DENIED_CNT.COUNT + 1) % 2 ^ CSC_RMT_DENIED_CNT.COUNT.len ∧
        t = { s with io := t.io, csc := { s.csc with rx := s.csc.rx.set [] k.val rest, free := t.csc.free } }))) ∧
    (∀ a f rest, sfDst f ≠ s.myId →
      (s.heads k.val 0 ccRmtReq a f rest → Completes (.rmtReqRx k) s (fun t => t = (s.rxDone k.val rest).rmtRelay f)) ∧
      (s.heads k.val 0 ccRmtRsp a f rest → Completes (.rmtRspRx k) s (fun t => t = (s.rxDone k.val rest).rmtRelay f))) ∧
    (∀ a f rest, s.heads k.val 0 ccRmtRsp a f rest → sfDst f = s.myId →
      (s.csc.rmtWait = true → leAt (sfBody f) 0 1 = s.csc.rmtTag → s.csc.rmtAt + 2000 < s.io.time.counted →
        Completes (.rmtRspRx k) s (fun t => t.get pgCsc CSC_RMT_STAT.CODE = 4 ∧
          t.csc = { s.csc with rmtWait := false, rx := s.csc.rx.set [] k.val rest } ∧
          t.get pgCsc CSC_RMT_DATA.DATA = s.get pgCsc CSC_RMT_DATA.DATA ∧ OnlyRegs { s with csc := t.csc } t)) ∧
      (s.csc.rmtWait = true → leAt (sfBody f) 0 1 = s.csc.rmtTag → s.io.time.counted ≤ s.csc.rmtAt + 2000 → Completes (.rmtRspRx k) s (fun t =>
        t.get pgCsc CSC_RMT_STAT.CODE = leAt (sfBody f) 1 1 % 16 ∧ t.csc = { s.csc with rmtWait := false, rx := s.csc.rx.set [] k.val rest } ∧
        t.get pgCsc CSC_RMT_DATA.DATA = (if s.csc.rmtWrite then s.get pgCsc CSC_RMT_DATA.DATA else leAt (sfBody f) 2 4) ∧
        OnlyRegs { s with csc := t.csc } t)) ∧
      (s.csc.rmtWait = false ∨ leAt (sfBody f) 0 1 ≠ s.csc.rmtTag → Completes (.rmtRspRx k) s (fun t => t = s.rxDone k.val rest))) ∧
    (s.csc.rmtWait = false → NoEffect .rmtTimeout s) ∧
    (s.csc.rmtWait = true → Completes .rmtTimeout s (fun t =>
      t.get pgCsc CSC_RMT_STAT.CODE = 4 ∧ t.csc = { s.csc with rmtWait := false } ∧
      (s.io.tickInc ≠ 0 → s.csc.rmtAt + 2000 ≤ t.io.time.counted) ∧ t = { s with io := t.io, csc := t.csc }))

/-! ### Board -/

/-- R24, R64, R73, R500, R510, R512, R513, R523: INLINE and the applied core voltage are written within their bounds; I2C reads and
writes registers as master 0x40 once the device answers it; the PCI Express link goes and comes, with its speed and width (R62),
Configuration writes take effect while it is up, PERST_N rises, and an LED's timer moves its phase. -/
def Obligations.BoardCommands : Prop :=
  ∀ (s : State),
    (∀ m : Master, s.on = true → s.takesWrite m.id (pgSys + SYS_BYPASS.INLINE.off) = true →
      (∀ b : Bool, ctlMaster m.id = true ∨ m = .board →
        (s.get pgSys SYS_BYPASS.INLINE = b2n b → NoEffect (.inlineWrite m b) s) ∧
        (s.get pgSys SYS_BYPASS.INLINE ≠ b2n b → Completes (.inlineWrite m b) s (fun t =>
          t.get pgSys SYS_BYPASS.INLINE = b2n b ∧
          t.get pgSys SYS_BYPASS.CHANGES = min (2 ^ SYS_BYPASS.CHANGES.len - 1) (s.get pgSys SYS_BYPASS.CHANGES + 1) ∧ OnlyRegs s t))) ∧
      (∀ b : Bool, ctlMaster m.id = false → m ≠ .board → Completes (.inlineWrite m b) s (fun t =>
        t.get pgSys PG_ERR_CNT.COUNT = min (2 ^ 32 - 1) (s.get pgSys PG_ERR_CNT.COUNT + 1) ∧
        t.get pgSys SYS_BYPASS.INLINE = s.get pgSys SYS_BYPASS.INLINE ∧ OnlyRegs s t))) ∧
    (∀ (m : Master) (v : W32), s.on = true → s.takesWrite m.id (pgSys + SYS_AVS.APPLIED_MV.off) = true → ctlMaster m.id = true ∨ m = .board →
      (700 ≤ gb v 0 10 → gb v 0 10 ≤ 800 → gb v 0 10 ≤ s.get pgSys SYS_AVS.APPLIED_MV + 10 → s.get pgSys SYS_AVS.APPLIED_MV ≤ gb v 0 10 + 10 →
        Completes (.avsWrite m v) s (fun t =>
          t.get pgSys SYS_AVS.APPLIED_MV = gb v 0 10 ∧ OnlyRegs s t ∧ KeepsWords (· = pgSys + SYS_AVS.APPLIED_MV.off) s t)) ∧
      (gb v 0 10 < 700 ∨ 800 < gb v 0 10 ∨ s.get pgSys SYS_AVS.APPLIED_MV + 10 < gb v 0 10 ∨
        gb v 0 10 + 10 < s.get pgSys SYS_AVS.APPLIED_MV → Completes (.avsWrite m v) s (fun t =>
          t.get pgSys SYS_AVS.APPLIED_MV = s.get pgSys SYS_AVS.APPLIED_MV ∧
          t.get pgSys PG_ERR_CNT.COUNT = min (2 ^ 32 - 1) (s.get pgSys PG_ERR_CNT.COUNT + 1) ∧ OnlyRegs s t))) ∧
    (∀ (a : W32) (d : Option W32), s.i2cOn = false → NoEffect (.i2cTransaction a d) s) ∧
    (∀ a : W32, s.i2cOn = true → a.toNat % 4 = 0 →
      (∀ v : W32, Completes (.i2cTransaction a (some v)) s (fun t => t = s.fabricWrite 0x40 a.toNat v.toNat)) ∧
      Completes (.i2cTransaction a none) s (fun t =>
        t.io.out.head? = some (.read 0x40 (s.fabricRead 0x40 a.toNat).1) ∧ t = { (s.fabricRead 0x40 a.toNat).2 with io := t.io })) ∧
    (∀ (a : W32) (d : Option W32), s.i2cOn = true → a.toNat % 4 ≠ 0 →
      (pageOf a.toNat = none → Completes (.i2cTransaction a d) s (fun t =>
        t.io.out = (if d.isSome then s.io.out else .read 0x40 0 :: s.io.out) ∧
        t.get pgSys HIF_UNMAPPED_CNT.COUNT = (s.get pgSys HIF_UNMAPPED_CNT.COUNT + 1) % 2 ^ HIF_UNMAPPED_CNT.COUNT.len ∧ OnlyIo s t)) ∧
      (∀ pg, pageOf a.toNat = some pg → s.stranger pg 0x40 = false → Completes (.i2cTransaction a d) s (fun t =>
        (d = none → t.io.out.head? = some (.read 0x40 0)) ∧
        t.get pg.base PG_ERR_CNT.COUNT = min (2 ^ 32 - 1) (s.get pg.base PG_ERR_CNT.COUNT + 1) ∧ OnlyIo s t))) ∧
    (s.on = true → Completes .pcieLinkDown s (fun t =>
      t = { s with io := { s.io with pcie := { s.io.pcie with linkUp := false, speed := 0, width := 0 } } })) ∧
    (∀ sp w : Fin 5, s.on = true → s.io.pcie.perstLow = true ∨ s.io.step < 3 → NoEffect (.pcieLinkUp sp w) s) ∧
    (∀ sp w : Fin 5, s.on = true → s.io.pcie.perstLow = false → 3 ≤ s.io.step → Completes (.pcieLinkUp sp w) s (fun t =>
      t.io.pcie = { s.io.pcie with linkUp := true, speed := sp.val + 1, width := s.lanes w.val, pend := t.io.pcie.pend } ∧
      ((∀ q, s.jobs.get none q = none) → t.io.regs = s.io.regs ∧ OnlyIo s t))) ∧
    Completes .perstNDeassert s (fun t => t = { s with io := { s.io with pcie := { s.io.pcie with perstLow := false } } }) ∧
    (∀ w : CfgWrite, s.on = true → s.io.pcie.linkUp = false → NoEffect (.configWrite w) s) ∧
    (∀ w : CfgWrite, s.on = true → s.io.pcie.linkUp = true → Completes (.configWrite w) s (fun t =>
      (∃ p : Pcie, t.io.pcie = { p with pend := t.io.pcie.pend } ∧
        (∀ e b, w = .command e b → p = { s.io.pcie with memEn := e, bme := b }) ∧
        (∀ a, w = .bar0 a → p = { s.io.pcie with bar0 := a &&& ~~~ 0x3FFFFFF#64 }) ∧
        (∀ a b : Fin 8, w = .deviceControl a b → p = { s.io.pcie with
          mps := if a.val ≤ 2 then a.val else s.io.pcie.mps, mrrs := if b.val ≤ 5 then b.val else s.io.pcie.mrrs }) ∧
        (∀ d, w = .power d → p = { s.io.pcie with d3hot := d }) ∧
        (∀ g k u c, w = .errors g k u c → p = { s.io.pcie with ecrcGen := g, ecrcCheck := k, uncMask := u, corMask := c }) ∧
        (∀ e f, w = .msixControl e f → p = { s.io.pcie with msixEn := e, funcMask := f }) ∧
        (∀ (v : Fin 64) a d, w = .msixEntry v a d → p.vecAddr.get 0 v.val = a ∧ p.vecData.get 0 v.val = d ∧
          (∀ k, k ≠ v.val → p.vecAddr.get 0 k = s.io.pcie.vecAddr.get 0 k ∧ p.vecData.get 0 k = s.io.pcie.vecData.get 0 k) ∧
          p = { s.io.pcie with vecAddr := p.vecAddr, vecData := p.vecData })) ∧
      ((∀ q, s.jobs.get none q = none) → s.fw.load = none → t.io.regs = s.io.regs ∧ OnlyIo s t))) ∧
    (∀ n : Fin 4, s.on = true →
      (s.get pgSys SYS_LED_CFGn.MODE n.val = 2 → Completes (.ledTimerExpire n) s (fun t =>
        (∀ i : Fin 4, t.io.sys.ledPhase.getLsbD i.val = (s.io.sys.ledPhase.getLsbD i.val ^^ decide (i = n))) ∧
        t = { s with io := { s.io with sys := { s.io.sys with ledPhase := t.io.sys.ledPhase } } })) ∧
      (s.get pgSys SYS_LED_CFGn.MODE n.val = 3 → Completes (.ledTimerExpire n) s (fun t =>
        (∀ i : Fin 4, t.io.sys.ledOff.getLsbD i.val = (s.io.sys.ledOff.getLsbD i.val && decide (i ≠ n))) ∧
        t = { s with io := { s.io with sys := { s.io.sys with ledOff := t.io.sys.ledOff } } })) ∧
      (s.get pgSys SYS_LED_CFGn.MODE n.val < 2 → NoEffect (.ledTimerExpire n) s))
end

