-- ==== Sys2Proof/Laws/Bits.lean ====
section
/-!
SUPPORT. Laws of bit fields: reading a field that was just written, and reading beside it.
-/
namespace Sys2Proof.Machine

theorem bitsOf_lt (v lo len : Nat) : bitsOf v lo len < 2 ^ len := Nat.mod_lt _ (Nat.two_pow_pos _)

/-- A value is what lies below a field, the field, and what lies above it. -/
theorem bits_split (v lo len : Nat) :
    v = v % 2 ^ lo + bitsOf v lo len * 2 ^ lo + v / 2 ^ (lo + len) * 2 ^ (lo + len) := by
  have h1 := Nat.div_add_mod v (2 ^ lo)
  have h2 := Nat.div_add_mod (v / 2 ^ lo) (2 ^ len)
  rw [Nat.div_div_eq_div_mul, ← pow_add] at h2
  unfold bitsOf
  rw [Nat.shiftRight_eq_div_pow]
  nth_rewrite 1 [← h1, ← h2]
  rw [pow_add]
  ring

theorem setBitsOf_eq (v lo len x : Nat) :
    setBitsOf v lo len x = v % 2 ^ lo + x % 2 ^ len * 2 ^ lo + v / 2 ^ (lo + len) * 2 ^ (lo + len) := by
  unfold setBitsOf
  have h := bits_split v lo len
  omega

/-- The field written reads as the value written, cut to its width. -/
@[simp] theorem bitsOf_setBitsOf (v lo len x : Nat) : bitsOf (setBitsOf v lo len x) lo len = x % 2 ^ len := by
  rw [setBitsOf_eq, bitsOf, Nat.shiftRight_eq_div_pow]
  have hp := Nat.two_pow_pos lo
  have h : v % 2 ^ lo + x % 2 ^ len * 2 ^ lo + v / 2 ^ (lo + len) * 2 ^ (lo + len)
      = v % 2 ^ lo + 2 ^ lo * (x % 2 ^ len + 2 ^ len * (v / 2 ^ (lo + len))) := by rw [pow_add]; ring
  rw [h, Nat.add_mul_div_left _ _ hp, Nat.div_eq_of_lt (Nat.mod_lt _ hp), zero_add, Nat.add_mul_mod_self_left, Nat.mod_mod]

/-- A field is its bits. -/
theorem bitsOf_testBit (v lo len i : Nat) : (bitsOf v lo len).testBit i = (decide (i < len) && v.testBit (lo + i)) := by
  simp [bitsOf, Nat.testBit_mod_two_pow, Nat.testBit_shiftRight]

/-- The bits of a value with a field replaced. -/
theorem setBitsOf_testBit (v lo len x i : Nat) :
    (setBitsOf v lo len x).testBit i
      = if lo ≤ i ∧ i < lo + len then x.testBit (i - lo) else v.testBit i := by
  have e : setBitsOf v lo len x = 2 ^ lo * (2 ^ len * (v / 2 ^ (lo + len)) + x % 2 ^ len) + v % 2 ^ lo := by
    rw [setBitsOf_eq, pow_add]; ring
  rw [e, Nat.testBit_two_pow_mul_add _ (Nat.mod_lt _ (Nat.two_pow_pos _)),
    Nat.testBit_two_pow_mul_add _ (Nat.mod_lt _ (Nat.two_pow_pos _))]
  by_cases h1 : i < lo
  · simp [h1, Nat.testBit_mod_two_pow, Nat.not_le.mpr h1]
  · have h1' : lo ≤ i := Nat.le_of_not_lt h1
    by_cases h2 : i < lo + len
    · have : i - lo < len := by omega
      simp [h1, h1', h2, this, Nat.testBit_mod_two_pow]
    · have : ¬ (i - lo < len) := by omega
      simp only [h1, h1', h2, this, if_false, and_false]
      rw [Nat.testBit_div_two_pow]
      congr 1
      omega

/-- A field beside the one written reads as before. -/
theorem bitsOf_setBitsOf_ne (v lo len x lo' len' : Nat) (h : lo' + len' ≤ lo ∨ lo + len ≤ lo') :
    bitsOf (setBitsOf v lo len x) lo' len' = bitsOf v lo' len' := by
  apply Nat.eq_of_testBit_eq
  intro i
  rw [bitsOf_testBit, bitsOf_testBit, setBitsOf_testBit]
  by_cases hi : i < len'
  · have : ¬ (lo ≤ lo' + i ∧ lo' + i < lo + len) := by omega
    simp [hi, this]
  · simp [hi]

theorem setBitsOf_lt {v lo len n : Nat} (x : Nat) (hv : v < 2 ^ n) (hf : lo + len ≤ n) : setBitsOf v lo len x < 2 ^ n := by
  apply Nat.lt_pow_two_of_testBit
  intro i hi
  rw [setBitsOf_testBit]
  have h1 : ¬ (lo ≤ i ∧ i < lo + len) := by omega
  rw [if_neg h1]
  exact Nat.testBit_lt_two_pow (lt_of_lt_of_le hv (Nat.pow_le_pow_right (by norm_num) hi))

theorem sb_toNat {n : Nat} (w : BitVec n) {lo len : Nat} (x : Nat) (hf : lo + len ≤ n) :
    (sb w lo len x).toNat = setBitsOf w.toNat lo len x := by
  rw [sb, BitVec.toNat_ofNat, Nat.mod_eq_of_lt (setBitsOf_lt x w.isLt hf)]

/-- A field of a word, just written. -/
theorem gb_sb {n : Nat} (w : BitVec n) {lo len : Nat} (x : Nat) (hf : lo + len ≤ n) :
    gb (sb w lo len x) lo len = x % 2 ^ len := by
  rw [gb, sb_toNat w x hf, bitsOf_setBitsOf]

/-- A field of a word beside the one written. -/
theorem gb_sb_ne {n : Nat} (w : BitVec n) {lo len lo' len' : Nat} (x : Nat) (hf : lo + len ≤ n)
    (h : lo' + len' ≤ lo ∨ lo + len ≤ lo') : gb (sb w lo len x) lo' len' = gb w lo' len' := by
  rw [gb, gb, sb_toNat w x hf, bitsOf_setBitsOf_ne _ _ _ _ _ _ h]

theorem gb_lt {n : Nat} (w : BitVec n) (lo len : Nat) : gb w lo len < 2 ^ len := bitsOf_lt ..

end Sys2Proof.Machine
end

