-- ==== Sys2Proof/Laws/Store.lean ====
section
/-!
SUPPORT. Laws of sparse stores: a read after a write, what a write leaves alone, and that every operation keeps the
canonical form.
-/
namespace Sys2Proof.Machine

variable {α : Type}

theorem SMap.get_nil (d : α) (k : Nat) : SMap.get [] d k = d := rfl

theorem SMap.get_enter_same (m : SMap α) (d v : α) (k : Nat) : (m.enter k v).get d k = v := by
  induction m with
  | nil => simp [SMap.enter, SMap.get]
  | cons e t ih =>
    obtain ⟨j, w⟩ := e
    simp only [SMap.enter]
    split
    · simp [SMap.get]
    · split
      · simp [SMap.get]
      · rename_i h
        simp [SMap.get, ih, Ne.symm h]

theorem SMap.get_enter_ne (m : SMap α) (d v : α) {k j : Nat} (h : j ≠ k) : (m.enter k v).get d j = m.get d j := by
  induction m with
  | nil => simp [SMap.enter, SMap.get, Ne.symm h]
  | cons e t ih =>
    obtain ⟨i, w⟩ := e
    simp only [SMap.enter]
    split
    · simp [SMap.get, Ne.symm h]
    · split
      · rename_i hk
        subst hk
        simp [SMap.get, Ne.symm h]
      · simp [SMap.get, ih]

theorem SMap.get_drop_of (m : SMap α) (d : α) {p : Nat → Bool} {k : Nat} (h : p k = true) : (m.drop p).get d k = d := by
  induction m with
  | nil => rfl
  | cons e t ih =>
    obtain ⟨j, w⟩ := e
    simp only [SMap.drop, List.filter_cons] at ih ⊢
    split
    · rename_i hj
      have : j ≠ k := by rintro rfl; simp [h] at hj
      simpa [SMap.get, this] using ih
    · exact ih

theorem SMap.get_drop_not (m : SMap α) (d : α) {p : Nat → Bool} {k : Nat} (h : p k = false) :
    (m.drop p).get d k = m.get d k := by
  induction m with
  | nil => rfl
  | cons e t ih =>
    obtain ⟨j, w⟩ := e
    simp only [SMap.drop, List.filter_cons] at ih ⊢
    split
    · simp [SMap.get, ih]
    · rename_i hj
      have : j ≠ k := by rintro rfl; simp [h] at hj
      simpa [SMap.get, this] using ih

/-- A read after a write of the same key gives the value written. -/
@[simp] theorem SMap.get_set_same [DecidableEq α] (m : SMap α) (d v : α) (k : Nat) : (m.set d k v).get d k = v := by
  unfold SMap.set
  split
  · rename_i h
    rw [SMap.get_drop_of _ _ (by simp), h]
  · exact SMap.get_enter_same ..

/-- A write leaves every other key alone, whatever its default. -/
theorem SMap.get_set_ne [DecidableEq α] (m : SMap α) (d d' v : α) {k j : Nat} (h : j ≠ k) :
    (m.set d k v).get d' j = m.get d' j := by
  unfold SMap.set
  split
  · exact SMap.get_drop_not _ _ (by simpa using h)
  · exact SMap.get_enter_ne _ _ _ h

/-- Both cases of a read after a write. -/
theorem SMap.get_set [DecidableEq α] (m : SMap α) (d : Nat → α) (v : α) (k j : Nat) :
    (m.set (d k) k v).get (d j) j = if j = k then v else m.get (d j) j := by
  split
  · rename_i h; subst h; simp
  · rename_i h; exact SMap.get_set_ne _ _ _ _ h

/-! ### The canonical form -/

theorem SMap.above_enter {m : SMap α} {k j : Nat} {v : α} (h : SMap.above k m = true) (hj : k < j) :
    SMap.above k (m.enter j v) = true := by
  induction m with
  | nil => simpa [SMap.enter, SMap.above] using hj
  | cons e t ih =>
    obtain ⟨i, w⟩ := e
    simp only [SMap.above, List.all_cons, Bool.and_eq_true, decide_eq_true_eq] at h ih
    simp only [SMap.enter]
    split
    · simp [SMap.above, hj, h.1]
      simpa [SMap.above] using h.2
    · split
      · simp [SMap.above, hj]
        simpa [SMap.above] using h.2
      · simp only [SMap.above, List.all_cons, Bool.and_eq_true, decide_eq_true_eq]
        exact ⟨h.1, ih h.2⟩

theorem SMap.above_drop {m : SMap α} {k : Nat} (p : Nat → Bool) (h : SMap.above k m = true) :
    SMap.above k (m.drop p) = true := by
  simp only [SMap.above, SMap.drop, List.all_eq_true, List.mem_filter] at *
  exact fun e he => h e he.1

theorem SMap.wf_enter [DecidableEq α] {d : Nat → α} {m : SMap α} {k : Nat} {v : α} (h : SMap.wf d m = true)
    (hv : v ≠ d k) : SMap.wf d (m.enter k v) = true := by
  induction m with
  | nil => simpa [SMap.enter, SMap.wf, SMap.above] using hv
  | cons e t ih =>
    obtain ⟨i, w⟩ := e
    simp only [SMap.wf, Bool.and_eq_true, decide_eq_true_eq] at h
    obtain ⟨⟨hw, ha⟩, ht⟩ := h
    simp only [SMap.enter]
    split
    · rename_i hk
      simp only [SMap.wf, Bool.and_eq_true, decide_eq_true_eq]
      refine ⟨⟨hv, ?_⟩, ⟨hw, ha⟩, ht⟩
      simp only [SMap.above, List.all_cons, List.all_eq_true, Bool.and_eq_true, decide_eq_true_eq] at *
      exact ⟨hk, fun e he => lt_trans hk (ha e he)⟩
    · split
      · rename_i hk
        subst hk
        simp only [SMap.wf, Bool.and_eq_true, decide_eq_true_eq]
        exact ⟨⟨hv, ha⟩, ht⟩
      · rename_i h1 h2
        simp only [SMap.wf, Bool.and_eq_true, decide_eq_true_eq]
        exact ⟨⟨hw, SMap.above_enter ha (by omega)⟩, ih ht⟩

/-- Dropping entries keeps the canonical form. -/
theorem SMap.wf_drop [DecidableEq α] {d : Nat → α} {m : SMap α} (p : Nat → Bool) (h : SMap.wf d m = true) :
    SMap.wf d (m.drop p) = true := by
  induction m with
  | nil => rfl
  | cons e t ih =>
    obtain ⟨i, w⟩ := e
    simp only [SMap.wf, Bool.and_eq_true, decide_eq_true_eq] at h
    simp only [SMap.drop, List.filter_cons]
    split
    · simp only [SMap.wf, Bool.and_eq_true, decide_eq_true_eq]
      exact ⟨⟨h.1.1, SMap.above_drop p h.1.2⟩, ih h.2⟩
    · exact ih h.2

/-- A write keeps the canonical form. -/
theorem SMap.wf_set [DecidableEq α] {d : Nat → α} {m : SMap α} {k : Nat} {v : α} (h : SMap.wf d m = true) :
    SMap.wf d (m.set (d k) k v) = true := by
  unfold SMap.set
  split
  · exact SMap.wf_drop _ h
  · rename_i hv; exact SMap.wf_enter h hv

end Sys2Proof.Machine
end

