-- ==== Sys2Proof/Laws/Regs.lean ====
section
/-!
SUPPORT. Laws of the register file: what reading a word or a field gives after each shared operation of `Ops`, and what each
operation leaves alone.
-/
namespace Sys2Proof.Machine

/-! ### Words -/

@[simp] theorem Io.rd_wr_same (s : Io) (a : Nat) (v : W32) : (s.wr a v).rd a = v := by simp [Io.rd, Io.wr]

theorem Io.rd_wr_ne (s : Io) {a b : Nat} (v : W32) (h : b ≠ a) : (s.wr a v).rd b = s.rd b := by
  simp [Io.rd, Io.wr, SMap.get_set_ne _ _ _ _ h]

theorem Io.rd_wr (s : Io) (a b : Nat) (v : W32) : (s.wr a v).rd b = if b = a then v else s.rd b := by
  split
  · rename_i h; subst h; simp
  · rename_i h; exact s.rd_wr_ne v h

@[simp] theorem Io.bk_wr (s : Io) (a c b : Nat) (v : W32) : (s.wr a v).bk c b = s.bk c b := rfl

@[simp] theorem Io.rd_bkSet (s : Io) (a b c : Nat) (v : W32) : (s.bkSet a b v).rd c = s.rd c := rfl

@[simp] theorem Io.bk_bkSet_same (s : Io) (a b : Nat) (v : W32) : (s.bkSet a b v).bk a b = v := by simp [Io.bk, Io.bkSet]

theorem Io.bk_bkSet_ne (s : Io) {a b c d : Nat} (v : W32) (h : 2 * c + d ≠ 2 * a + b) :
    (s.bkSet a b v).bk c d = s.bk c d := by
  simp [Io.bk, Io.bkSet, SMap.get_set_ne _ _ _ _ h]

/-- The words depend on the register file alone. -/
theorem Io.rd_congr {s t : Io} (h : t.regs = s.regs) (a : Nat) : t.rd a = s.rd a := by simp [Io.rd, h]

theorem Io.bk_congr {s t : Io} (h : t.bank = s.bank) (a b : Nat) : t.bk a b = s.bk a b := by simp [Io.bk, h]

/-! ### Fields -/

/-- The address of a field. -/
theorem Io.get_narrow (s : Io) (b : Nat) (f : Fld) (i : Nat) (hr : f.rws = false) (hl : f.lo + f.len ≤ 32) :
    s.get b f i = gb (s.rd (b + f.off + f.stride * i)) f.lo f.len := by
  simp [Io.get, hr, hl]

theorem Io.get_rws (s : Io) (b : Nat) (f : Fld) (i : Nat) (hr : f.rws = true) :
    s.get b f i = gb (s.bk (b + f.off + f.stride * i) (s.active b)) f.lo f.len := by
  simp [Io.get, hr]

theorem Io.put_narrow (s : Io) (b : Nat) (f : Fld) (v i : Nat) (hr : f.rws = false) (hl : f.lo + f.len ≤ 32) :
    s.put b f v i
      = s.wr (b + f.off + f.stride * i) (sb (s.rd (b + f.off + f.stride * i)) f.lo f.len v) := by
  simp [Io.put, hr, hl]

/-- A field reads as it was last written. -/
theorem Io.get_put (s : Io) (b : Nat) (f : Fld) (v i : Nat) (hr : f.rws = false) (hl : f.lo + f.len ≤ 32) :
    (s.put b f v i).get b f i = v % 2 ^ f.len := by
  rw [Io.get_narrow _ _ _ _ hr hl, Io.put_narrow _ _ _ _ _ hr hl, Io.rd_wr_same, gb_sb _ _ hl]

/-- Two fields of one word do not disturb each other. -/
theorem Io.get_put_field (s : Io) (b : Nat) (f g : Fld) (v i j : Nat) (hr : f.rws = false) (hl : f.lo + f.len ≤ 32)
    (gr : g.rws = false) (gl : g.lo + g.len ≤ 32) (ha : b + g.off + g.stride * j = b + f.off + f.stride * i)
    (h : g.lo + g.len ≤ f.lo ∨ f.lo + f.len ≤ g.lo) : (s.put b f v i).get b g j = s.get b g j := by
  rw [Io.get_narrow _ _ _ _ gr gl, Io.get_narrow _ _ _ _ gr gl, Io.put_narrow _ _ _ _ _ hr hl, ha, Io.rd_wr_same,
    gb_sb_ne _ _ hl h]

/-- A word other than the field's own. -/
theorem Io.rd_put (s : Io) (b : Nat) (f : Fld) (v i a : Nat) (hr : f.rws = false) (hl : f.lo + f.len ≤ 32) :
    (s.put b f v i).rd a
      = if a = b + f.off + f.stride * i then sb (s.rd a) f.lo f.len v else s.rd a := by
  rw [Io.put_narrow _ _ _ _ _ hr hl, Io.rd_wr]
  split
  · rename_i h; rw [h]
  · rfl

/-- A field at another word. -/
theorem Io.get_put_ne (s : Io) (b c : Nat) (f g : Fld) (v i j : Nat) (hr : f.rws = false) (hl : f.lo + f.len ≤ 32)
    (gr : g.rws = false) (gl : g.lo + g.len ≤ 32) (h : c + g.off + g.stride * j ≠ b + f.off + f.stride * i) :
    (s.put b f v i).get c g j = s.get c g j := by
  rw [Io.get_narrow _ _ _ _ gr gl, Io.get_narrow _ _ _ _ gr gl, Io.rd_put _ _ _ _ _ _ hr hl, if_neg h]

/-- A write of a field that is not RWS changes nothing but the register words. -/
theorem Io.put_frame (s : Io) (b : Nat) (f : Fld) (v i : Nat) (hr : f.rws = false) :
    s.put b f v i = { s with regs := (s.put b f v i).regs } := by
  unfold Io.put Io.wr64 Io.wr
  simp only [hr]
  simp only [Bool.false_eq_true, if_false]
  split <;> rfl

theorem Io.bk_put (s : Io) (b : Nat) (f : Fld) (v i a c : Nat) (hr : f.rws = false) : (s.put b f v i).bk a c = s.bk a c :=
  Io.bk_congr ((congrArg Io.bank (Io.put_frame s b f v i hr)).trans rfl) a c

/-- A write of an RWS field changes nothing but the copies. -/
theorem Io.put_frame_rws (s : Io) (b : Nat) (f : Fld) (v i : Nat) (hr : f.rws = true) :
    s.put b f v i = { s with bank := (s.put b f v i).bank } := by
  unfold Io.put Io.bkSet
  simp only [hr, if_true]

theorem Io.rd_wr64_ne (s : Io) {a c : Nat} (v : Nat) (h : c ≠ a) (h' : c ≠ a + 4) : (s.wr64 a v).rd c = s.rd c := by
  rw [Io.wr64, Io.rd_wr_ne _ _ h', Io.rd_wr_ne _ _ h]

/-- A two-word register reads as it was last written. -/
theorem Io.rd64_wr64 (s : Io) (a v : Nat) : (s.wr64 a v).rd64 a = v % 2 ^ 64 := by
  unfold Io.rd64 Io.wr64
  rw [Io.rd_wr_same, Io.rd_wr_ne _ _ (by omega), Io.rd_wr_same, BitVec.toNat_ofNat, BitVec.toNat_ofNat,
    Nat.shiftRight_eq_div_pow]
  omega

theorem Io.rd64_congr {s t : Io} {a : Nat} (h : t.rd a = s.rd a) (h' : t.rd (a + 4) = s.rd (a + 4)) :
    t.rd64 a = s.rd64 a := by simp [Io.rd64, h, h']

/-! ### Causes and MSI-X (R69, R73) -/

theorem Io.msix_frame (s : Io) (n : Nat) : s.msix n = { s with pcie := (s.msix n).pcie, out := (s.msix n).out } := by
  unfold Io.msix Io.emit
  split <;> rfl

theorem Io.edge_frame (s : Io) (n : Nat) (f : Io → Io) :
    s.edge n f = { f s with pcie := (s.edge n f).pcie, out := (s.edge n f).out } := by
  unfold Io.edge
  dsimp only
  split
  · exact Io.msix_frame ..
  · rfl

/-- A cause raised changes PG_IRQ_STAT of its page, and beside it only what a message does. -/
theorem Io.raiseBits_frame (s : Io) (b n : Nat) :
    s.raiseBits b n = { s.wr (b + 0x10) (s.rd (b + 0x10) ||| BitVec.ofNat 32 n) with
      pcie := (s.raiseBits b n).pcie, out := (s.raiseBits b n).out } := by
  unfold Io.raiseBits Io.setIrqStat
  exact Io.edge_frame ..

theorem Io.raise_frame (s : Io) (b n : Nat) :
    s.raise b n = { s.wr (b + 0x10) (s.rd (b + 0x10) ||| BitVec.ofNat 32 (2 ^ n)) with
      pcie := (s.raise b n).pcie, out := (s.raise b n).out } := Io.raiseBits_frame ..

theorem Io.rd_raise (s : Io) (b n a : Nat) :
    (s.raise b n).rd a = if a = b + 0x10 then s.rd a ||| BitVec.ofNat 32 (2 ^ n) else s.rd a := by
  have h := congrArg (fun x => Io.rd x a) (s.raise_frame b n)
  dsimp only at h
  rw [h]
  show ((s.wr (b + 0x10) _).rd a) = _
  rw [Io.rd_wr]
  split
  · rename_i h; rw [h]
  · rfl

theorem Io.rd_raise_ne (s : Io) (b n : Nat) {a : Nat} (h : a ≠ b + 0x10) : (s.raise b n).rd a = s.rd a := by
  rw [Io.rd_raise, if_neg h]

theorem Io.rd_raiseBits (s : Io) (b n a : Nat) :
    (s.raiseBits b n).rd a = if a = b + 0x10 then s.rd a ||| BitVec.ofNat 32 n else s.rd a := by
  have h := congrArg (fun x => Io.rd x a) (s.raiseBits_frame b n)
  dsimp only at h
  rw [h]
  show ((s.wr (b + 0x10) _).rd a) = _
  rw [Io.rd_wr]
  split
  · rename_i h; rw [h]
  · rfl

@[simp] theorem Io.raiseBits_bank (s : Io) (b n : Nat) : (s.raiseBits b n).bank = s.bank :=
  (congrArg Io.bank (s.raiseBits_frame b n)).trans rfl
@[simp] theorem Io.raise_bank (s : Io) (b n : Nat) : (s.raise b n).bank = s.bank := (congrArg Io.bank (s.raise_frame b n)).trans rfl
@[simp] theorem Io.raise_sticky (s : Io) (b n : Nat) : (s.raise b n).sticky = s.sticky :=
  (congrArg Io.sticky (s.raise_frame b n)).trans rfl
@[simp] theorem Io.raise_acc (s : Io) (b n : Nat) : (s.raise b n).acc = s.acc := (congrArg Io.acc (s.raise_frame b n)).trans rfl
@[simp] theorem Io.raise_time (s : Io) (b n : Nat) : (s.raise b n).time = s.time := (congrArg Io.time (s.raise_frame b n)).trans rfl
@[simp] theorem Io.raise_clk (s : Io) (b n : Nat) : (s.raise b n).clk = s.clk := (congrArg Io.clk (s.raise_frame b n)).trans rfl
@[simp] theorem Io.raise_sys (s : Io) (b n : Nat) : (s.raise b n).sys = s.sys := (congrArg Io.sys (s.raise_frame b n)).trans rfl
@[simp] theorem Io.raise_nvm (s : Io) (b n : Nat) : (s.raise b n).nvm = s.nvm := (congrArg Io.nvm (s.raise_frame b n)).trans rfl
@[simp] theorem Io.raise_ras (s : Io) (b n : Nat) : (s.raise b n).ras = s.ras := (congrArg Io.ras (s.raise_frame b n)).trans rfl
@[simp] theorem Io.raise_wcount (s : Io) (b n : Nat) : (s.raise b n).wcount = s.wcount :=
  (congrArg Io.wcount (s.raise_frame b n)).trans rfl
@[simp] theorem Io.raise_modCnt (s : Io) (b n : Nat) : (s.raise b n).modCnt = s.modCnt :=
  (congrArg Io.modCnt (s.raise_frame b n)).trans rfl
@[simp] theorem Io.raise_fetch (s : Io) (b n : Nat) : (s.raise b n).fetch = s.fetch :=
  (congrArg Io.fetch (s.raise_frame b n)).trans rfl
@[simp] theorem Io.raise_free (s : Io) (b n : Nat) : (s.raise b n).free = s.free := (congrArg Io.free (s.raise_frame b n)).trans rfl
@[simp] theorem Io.raise_featDone (s : Io) (b n : Nat) : (s.raise b n).featDone = s.featDone :=
  (congrArg Io.featDone (s.raise_frame b n)).trans rfl
@[simp] theorem Io.raise_bk (s : Io) (b n a c : Nat) : (s.raise b n).bk a c = s.bk a c := by simp [Io.bk]
@[simp] theorem Io.raiseBits_bk (s : Io) (b n a c : Nat) : (s.raiseBits b n).bk a c = s.bk a c := by simp [Io.bk]

/-- A cause that is raised is set. -/
theorem Io.cause_raise (s : Io) (b : Nat) {n : Nat} (hn : n < 32) : (s.raise b n).cause b n = true := by
  unfold Io.cause tb
  rw [Io.rd_raise, if_pos rfl, BitVec.toNat_or, Nat.testBit_or, BitVec.toNat_ofNat,
    Nat.mod_eq_of_lt (Nat.pow_lt_pow_right (by norm_num) hn)]
  simp

/-- A field outside PG_IRQ_STAT does not see a cause raised. -/
theorem Io.get_raise (s : Io) (b n c : Nat) (f : Fld) (i : Nat) (hr : f.rws = false) (hl : f.lo + f.len ≤ 32)
    (h : c + f.off + f.stride * i ≠ b + 0x10) : (s.raise b n).get c f i = s.get c f i := by
  rw [Io.get_narrow _ _ _ _ hr hl, Io.get_narrow _ _ _ _ hr hl, Io.rd_raise_ne _ _ _ h]

/-! ### Errors (R69, R70) -/

theorem Io.err_frame (s : Io) (b ty m o : Nat) : s.err b ty m o = { s with regs := (s.err b ty m o).regs } := by
  have hp := Io.put_frame s b PG_ERR_CNT.COUNT (min (2 ^ PG_ERR_CNT.COUNT.len - 1) (s.get b PG_ERR_CNT.COUNT + 1)) 0 rfl
  unfold Io.err Io.bumpSat
  dsimp only
  split
  · exact hp
  · unfold Io.wr
    dsimp only
    rw [hp]

/-- A counted error touches PG_ERR_CAP and PG_ERR_CNT of its page alone. -/
theorem Io.rd_err_ne (s : Io) (b ty m o : Nat) {a : Nat} (h1 : a ≠ b + 0x1C) (h2 : a ≠ b + 0x20) :
    (s.err b ty m o).rd a = s.rd a := by
  have e : (s.bumpSat b PG_ERR_CNT.COUNT).rd a = s.rd a := by
    unfold Io.bumpSat
    rw [Io.rd_put _ _ _ _ _ _ rfl (by decide), if_neg]
    simpa [PG_ERR_CNT.COUNT] using h2
  unfold Io.err
  dsimp only
  split
  · exact e
  · rw [Io.rd_wr_ne _ _ h1, e]

/-! ### Counters (R356, R358) -/

theorem Io.accAdd_rd (s : Io) (b : Nat) (f : Fld) (n i a : Nat) : (s.accAdd b f n i).rd a = s.rd a := rfl

/-- A counter that wraps touches the PMC page alone. -/
theorem Io.rd_wrapped_ne (s : Io) (a : Nat) {c : Nat} (h : c < pgPmc ∨ pgPmc + 0x1000 ≤ c) : (s.wrapped a).rd c = s.rd c := by
  unfold Io.wrapped Io.bump
  dsimp only
  have e : ∀ v, (Io.put { s with sticky := s.sticky.set false a true } pgPmc PMC_OVF_CNT.COUNT v 0).rd c = s.rd c := by
    intro v
    rw [Io.rd_put _ _ _ _ _ _ rfl (by decide), if_neg (by simp [PMC_OVF_CNT.COUNT, pgPmc] at *; omega)]
    rfl
  split
  · exact e _
  · rw [Io.rd_raise_ne _ _ _ (by simp [pgPmc] at *; omega), Io.rd_wr_ne _ _ (by simp [pgPmc] at *; omega)]
    exact e _

/-- A counter touches its own two words, and the PMC page when it wraps. -/
theorem Io.rd_ctrAt_ne (s : Io) (a n : Nat) {c : Nat} (h : c ≠ a) (h' : c ≠ a + 4)
    (hp : c < pgPmc ∨ pgPmc + 0x1000 ≤ c) : (s.ctrAt a n).rd c = s.rd c := by
  unfold Io.ctrAt
  dsimp only
  split
  · exact Io.rd_wr64_ne _ _ h h'
  · rw [Io.rd_wrapped_ne _ _ hp]
    exact Io.rd_wr64_ne _ _ h h'

/-- A counter below its limit counts and touches nothing but its own two words. -/
theorem Io.ctrAt_eq (s : Io) (a n : Nat) (h : s.rd64 a + n < 2 ^ 64) : s.ctrAt a n = s.wr64 a (s.rd64 a + n) := by
  unfold Io.ctrAt
  exact if_pos h

end Sys2Proof.Machine
end

