-- ==== Sys2Proof/Laws/State.lean ====
section
/-!
SUPPORT. What the shared updates of the state leave alone: one lemma per field and update, so that no later proof unfolds a
record update.
-/
namespace Sys2Proof.Machine

variable (s : State)

/-! ### `upIo` changes `io` alone -/

@[simp] theorem State.upIo_pending (f : Io → Io) : (s.upIo f).pending = s.pending := rfl
@[simp] theorem State.upIo_buf (f : Io → Io) : (s.upIo f).buf = s.buf := rfl
@[simp] theorem State.upIo_fwd (f : Io → Io) : (s.upIo f).fwd = s.fwd := rfl
@[simp] theorem State.upIo_fmc (f : Io → Io) : (s.upIo f).fmc = s.fmc := rfl
@[simp] theorem State.upIo_flow (f : Io → Io) : (s.upIo f).flow = s.flow := rfl
@[simp] theorem State.upIo_act (f : Io → Io) : (s.upIo f).act = s.act := rfl
@[simp] theorem State.upIo_tel (f : Io → Io) : (s.upIo f).tel = s.tel := rfl
@[simp] theorem State.upIo_policy (f : Io → Io) : (s.upIo f).policy = s.policy := rfl
@[simp] theorem State.upIo_pip (f : Io → Io) : (s.upIo f).pip = s.pip := rfl
@[simp] theorem State.upIo_csc (f : Io → Io) : (s.upIo f).csc = s.csc := rfl
@[simp] theorem State.upIo_qnc (f : Io → Io) : (s.upIo f).qnc = s.qnc := rfl
@[simp] theorem State.upIo_cph (f : Io → Io) : (s.upIo f).cph = s.cph := rfl
@[simp] theorem State.upIo_fw (f : Io → Io) : (s.upIo f).fw = s.fw := rfl
@[simp] theorem State.upIo_jobs (f : Io → Io) : (s.upIo f).jobs = s.jobs := rfl

/-! ### `put` changes `io` alone -/

@[simp] theorem State.put_pending (b : Nat) (f : Fld) (v i : Nat) : (s.put b f v i).pending = s.pending := State.upIo_pending s _
@[simp] theorem State.put_buf (b : Nat) (f : Fld) (v i : Nat) : (s.put b f v i).buf = s.buf := State.upIo_buf s _
@[simp] theorem State.put_fwd (b : Nat) (f : Fld) (v i : Nat) : (s.put b f v i).fwd = s.fwd := State.upIo_fwd s _
@[simp] theorem State.put_fmc (b : Nat) (f : Fld) (v i : Nat) : (s.put b f v i).fmc = s.fmc := State.upIo_fmc s _
@[simp] theorem State.put_flow (b : Nat) (f : Fld) (v i : Nat) : (s.put b f v i).flow = s.flow := State.upIo_flow s _
@[simp] theorem State.put_act (b : Nat) (f : Fld) (v i : Nat) : (s.put b f v i).act = s.act := State.upIo_act s _
@[simp] theorem State.put_tel (b : Nat) (f : Fld) (v i : Nat) : (s.put b f v i).tel = s.tel := State.upIo_tel s _
@[simp] theorem State.put_policy (b : Nat) (f : Fld) (v i : Nat) : (s.put b f v i).policy = s.policy := State.upIo_policy s _
@[simp] theorem State.put_pip (b : Nat) (f : Fld) (v i : Nat) : (s.put b f v i).pip = s.pip := State.upIo_pip s _
@[simp] theorem State.put_csc (b : Nat) (f : Fld) (v i : Nat) : (s.put b f v i).csc = s.csc := State.upIo_csc s _
@[simp] theorem State.put_qnc (b : Nat) (f : Fld) (v i : Nat) : (s.put b f v i).qnc = s.qnc := State.upIo_qnc s _
@[simp] theorem State.put_cph (b : Nat) (f : Fld) (v i : Nat) : (s.put b f v i).cph = s.cph := State.upIo_cph s _
@[simp] theorem State.put_fw (b : Nat) (f : Fld) (v i : Nat) : (s.put b f v i).fw = s.fw := State.upIo_fw s _
@[simp] theorem State.put_jobs (b : Nat) (f : Fld) (v i : Nat) : (s.put b f v i).jobs = s.jobs := State.upIo_jobs s _

/-! ### `bump` changes `io` alone -/

@[simp] theorem State.bump_pending (b : Nat) (f : Fld) (n i : Nat) : (s.bump b f n i).pending = s.pending := State.upIo_pending s _
@[simp] theorem State.bump_buf (b : Nat) (f : Fld) (n i : Nat) : (s.bump b f n i).buf = s.buf := State.upIo_buf s _
@[simp] theorem State.bump_fwd (b : Nat) (f : Fld) (n i : Nat) : (s.bump b f n i).fwd = s.fwd := State.upIo_fwd s _
@[simp] theorem State.bump_fmc (b : Nat) (f : Fld) (n i : Nat) : (s.bump b f n i).fmc = s.fmc := State.upIo_fmc s _
@[simp] theorem State.bump_flow (b : Nat) (f : Fld) (n i : Nat) : (s.bump b f n i).flow = s.flow := State.upIo_flow s _
@[simp] theorem State.bump_act (b : Nat) (f : Fld) (n i : Nat) : (s.bump b f n i).act = s.act := State.upIo_act s _
@[simp] theorem State.bump_tel (b : Nat) (f : Fld) (n i : Nat) : (s.bump b f n i).tel = s.tel := State.upIo_tel s _
@[simp] theorem State.bump_policy (b : Nat) (f : Fld) (n i : Nat) : (s.bump b f n i).policy = s.policy := State.upIo_policy s _
@[simp] theorem State.bump_pip (b : Nat) (f : Fld) (n i : Nat) : (s.bump b f n i).pip = s.pip := State.upIo_pip s _
@[simp] theorem State.bump_csc (b : Nat) (f : Fld) (n i : Nat) : (s.bump b f n i).csc = s.csc := State.upIo_csc s _
@[simp] theorem State.bump_qnc (b : Nat) (f : Fld) (n i : Nat) : (s.bump b f n i).qnc = s.qnc := State.upIo_qnc s _
@[simp] theorem State.bump_cph (b : Nat) (f : Fld) (n i : Nat) : (s.bump b f n i).cph = s.cph := State.upIo_cph s _
@[simp] theorem State.bump_fw (b : Nat) (f : Fld) (n i : Nat) : (s.bump b f n i).fw = s.fw := State.upIo_fw s _
@[simp] theorem State.bump_jobs (b : Nat) (f : Fld) (n i : Nat) : (s.bump b f n i).jobs = s.jobs := State.upIo_jobs s _

/-! ### `ctr` changes `io` alone -/

@[simp] theorem State.ctr_pending (b : Nat) (f : Fld) (n i : Nat) : (s.ctr b f n i).pending = s.pending := State.upIo_pending s _
@[simp] theorem State.ctr_buf (b : Nat) (f : Fld) (n i : Nat) : (s.ctr b f n i).buf = s.buf := State.upIo_buf s _
@[simp] theorem State.ctr_fwd (b : Nat) (f : Fld) (n i : Nat) : (s.ctr b f n i).fwd = s.fwd := State.upIo_fwd s _
@[simp] theorem State.ctr_fmc (b : Nat) (f : Fld) (n i : Nat) : (s.ctr b f n i).fmc = s.fmc := State.upIo_fmc s _
@[simp] theorem State.ctr_flow (b : Nat) (f : Fld) (n i : Nat) : (s.ctr b f n i).flow = s.flow := State.upIo_flow s _
@[simp] theorem State.ctr_act (b : Nat) (f : Fld) (n i : Nat) : (s.ctr b f n i).act = s.act := State.upIo_act s _
@[simp] theorem State.ctr_tel (b : Nat) (f : Fld) (n i : Nat) : (s.ctr b f n i).tel = s.tel := State.upIo_tel s _
@[simp] theorem State.ctr_policy (b : Nat) (f : Fld) (n i : Nat) : (s.ctr b f n i).policy = s.policy := State.upIo_policy s _
@[simp] theorem State.ctr_pip (b : Nat) (f : Fld) (n i : Nat) : (s.ctr b f n i).pip = s.pip := State.upIo_pip s _
@[simp] theorem State.ctr_csc (b : Nat) (f : Fld) (n i : Nat) : (s.ctr b f n i).csc = s.csc := State.upIo_csc s _
@[simp] theorem State.ctr_qnc (b : Nat) (f : Fld) (n i : Nat) : (s.ctr b f n i).qnc = s.qnc := State.upIo_qnc s _
@[simp] theorem State.ctr_cph (b : Nat) (f : Fld) (n i : Nat) : (s.ctr b f n i).cph = s.cph := State.upIo_cph s _
@[simp] theorem State.ctr_fw (b : Nat) (f : Fld) (n i : Nat) : (s.ctr b f n i).fw = s.fw := State.upIo_fw s _
@[simp] theorem State.ctr_jobs (b : Nat) (f : Fld) (n i : Nat) : (s.ctr b f n i).jobs = s.jobs := State.upIo_jobs s _

/-! ### `raise` changes `io` alone -/

@[simp] theorem State.raise_pending (b n : Nat) : (s.raise b n).pending = s.pending := State.upIo_pending s _
@[simp] theorem State.raise_buf (b n : Nat) : (s.raise b n).buf = s.buf := State.upIo_buf s _
@[simp] theorem State.raise_fwd (b n : Nat) : (s.raise b n).fwd = s.fwd := State.upIo_fwd s _
@[simp] theorem State.raise_fmc (b n : Nat) : (s.raise b n).fmc = s.fmc := State.upIo_fmc s _
@[simp] theorem State.raise_flow (b n : Nat) : (s.raise b n).flow = s.flow := State.upIo_flow s _
@[simp] theorem State.raise_act (b n : Nat) : (s.raise b n).act = s.act := State.upIo_act s _
@[simp] theorem State.raise_tel (b n : Nat) : (s.raise b n).tel = s.tel := State.upIo_tel s _
@[simp] theorem State.raise_policy (b n : Nat) : (s.raise b n).policy = s.policy := State.upIo_policy s _
@[simp] theorem State.raise_pip (b n : Nat) : (s.raise b n).pip = s.pip := State.upIo_pip s _
@[simp] theorem State.raise_csc (b n : Nat) : (s.raise b n).csc = s.csc := State.upIo_csc s _
@[simp] theorem State.raise_qnc (b n : Nat) : (s.raise b n).qnc = s.qnc := State.upIo_qnc s _
@[simp] theorem State.raise_cph (b n : Nat) : (s.raise b n).cph = s.cph := State.upIo_cph s _
@[simp] theorem State.raise_fw (b n : Nat) : (s.raise b n).fw = s.fw := State.upIo_fw s _
@[simp] theorem State.raise_jobs (b n : Nat) : (s.raise b n).jobs = s.jobs := State.upIo_jobs s _

/-! ### `err` changes `io` alone -/

@[simp] theorem State.err_pending (b ty m o : Nat) : (s.err b ty m o).pending = s.pending := State.upIo_pending s _
@[simp] theorem State.err_buf (b ty m o : Nat) : (s.err b ty m o).buf = s.buf := State.upIo_buf s _
@[simp] theorem State.err_fwd (b ty m o : Nat) : (s.err b ty m o).fwd = s.fwd := State.upIo_fwd s _
@[simp] theorem State.err_fmc (b ty m o : Nat) : (s.err b ty m o).fmc = s.fmc := State.upIo_fmc s _
@[simp] theorem State.err_flow (b ty m o : Nat) : (s.err b ty m o).flow = s.flow := State.upIo_flow s _
@[simp] theorem State.err_act (b ty m o : Nat) : (s.err b ty m o).act = s.act := State.upIo_act s _
@[simp] theorem State.err_tel (b ty m o : Nat) : (s.err b ty m o).tel = s.tel := State.upIo_tel s _
@[simp] theorem State.err_policy (b ty m o : Nat) : (s.err b ty m o).policy = s.policy := State.upIo_policy s _
@[simp] theorem State.err_pip (b ty m o : Nat) : (s.err b ty m o).pip = s.pip := State.upIo_pip s _
@[simp] theorem State.err_csc (b ty m o : Nat) : (s.err b ty m o).csc = s.csc := State.upIo_csc s _
@[simp] theorem State.err_qnc (b ty m o : Nat) : (s.err b ty m o).qnc = s.qnc := State.upIo_qnc s _
@[simp] theorem State.err_cph (b ty m o : Nat) : (s.err b ty m o).cph = s.cph := State.upIo_cph s _
@[simp] theorem State.err_fw (b ty m o : Nat) : (s.err b ty m o).fw = s.fw := State.upIo_fw s _
@[simp] theorem State.err_jobs (b ty m o : Nat) : (s.err b ty m o).jobs = s.jobs := State.upIo_jobs s _

/-! ### `emit` changes `io` alone -/

@[simp] theorem State.emit_pending (o : Out) : (s.emit o).pending = s.pending := State.upIo_pending s _
@[simp] theorem State.emit_buf (o : Out) : (s.emit o).buf = s.buf := State.upIo_buf s _
@[simp] theorem State.emit_fwd (o : Out) : (s.emit o).fwd = s.fwd := State.upIo_fwd s _
@[simp] theorem State.emit_fmc (o : Out) : (s.emit o).fmc = s.fmc := State.upIo_fmc s _
@[simp] theorem State.emit_flow (o : Out) : (s.emit o).flow = s.flow := State.upIo_flow s _
@[simp] theorem State.emit_act (o : Out) : (s.emit o).act = s.act := State.upIo_act s _
@[simp] theorem State.emit_tel (o : Out) : (s.emit o).tel = s.tel := State.upIo_tel s _
@[simp] theorem State.emit_policy (o : Out) : (s.emit o).policy = s.policy := State.upIo_policy s _
@[simp] theorem State.emit_pip (o : Out) : (s.emit o).pip = s.pip := State.upIo_pip s _
@[simp] theorem State.emit_csc (o : Out) : (s.emit o).csc = s.csc := State.upIo_csc s _
@[simp] theorem State.emit_qnc (o : Out) : (s.emit o).qnc = s.qnc := State.upIo_qnc s _
@[simp] theorem State.emit_cph (o : Out) : (s.emit o).cph = s.cph := State.upIo_cph s _
@[simp] theorem State.emit_fw (o : Out) : (s.emit o).fw = s.fw := State.upIo_fw s _
@[simp] theorem State.emit_jobs (o : Out) : (s.emit o).jobs = s.jobs := State.upIo_jobs s _

/-! ### `report` changes `io` alone -/

@[simp] theorem State.report_pending (v c b l d : Nat) : (s.report v c b l d).pending = s.pending := State.upIo_pending s _
@[simp] theorem State.report_buf (v c b l d : Nat) : (s.report v c b l d).buf = s.buf := State.upIo_buf s _
@[simp] theorem State.report_fwd (v c b l d : Nat) : (s.report v c b l d).fwd = s.fwd := State.upIo_fwd s _
@[simp] theorem State.report_fmc (v c b l d : Nat) : (s.report v c b l d).fmc = s.fmc := State.upIo_fmc s _
@[simp] theorem State.report_flow (v c b l d : Nat) : (s.report v c b l d).flow = s.flow := State.upIo_flow s _
@[simp] theorem State.report_act (v c b l d : Nat) : (s.report v c b l d).act = s.act := State.upIo_act s _
@[simp] theorem State.report_tel (v c b l d : Nat) : (s.report v c b l d).tel = s.tel := State.upIo_tel s _
@[simp] theorem State.report_policy (v c b l d : Nat) : (s.report v c b l d).policy = s.policy := State.upIo_policy s _
@[simp] theorem State.report_pip (v c b l d : Nat) : (s.report v c b l d).pip = s.pip := State.upIo_pip s _
@[simp] theorem State.report_csc (v c b l d : Nat) : (s.report v c b l d).csc = s.csc := State.upIo_csc s _
@[simp] theorem State.report_qnc (v c b l d : Nat) : (s.report v c b l d).qnc = s.qnc := State.upIo_qnc s _
@[simp] theorem State.report_cph (v c b l d : Nat) : (s.report v c b l d).cph = s.cph := State.upIo_cph s _
@[simp] theorem State.report_fw (v c b l d : Nat) : (s.report v c b l d).fw = s.fw := State.upIo_fw s _
@[simp] theorem State.report_jobs (v c b l d : Nat) : (s.report v c b l d).jobs = s.jobs := State.upIo_jobs s _

/-! ### `upSys` changes `io` alone -/

@[simp] theorem State.upSys_pending (f : Sys → Sys) : (s.upSys f).pending = s.pending := rfl
@[simp] theorem State.upSys_buf (f : Sys → Sys) : (s.upSys f).buf = s.buf := rfl
@[simp] theorem State.upSys_fwd (f : Sys → Sys) : (s.upSys f).fwd = s.fwd := rfl
@[simp] theorem State.upSys_fmc (f : Sys → Sys) : (s.upSys f).fmc = s.fmc := rfl
@[simp] theorem State.upSys_flow (f : Sys → Sys) : (s.upSys f).flow = s.flow := rfl
@[simp] theorem State.upSys_act (f : Sys → Sys) : (s.upSys f).act = s.act := rfl
@[simp] theorem State.upSys_tel (f : Sys → Sys) : (s.upSys f).tel = s.tel := rfl
@[simp] theorem State.upSys_policy (f : Sys → Sys) : (s.upSys f).policy = s.policy := rfl
@[simp] theorem State.upSys_pip (f : Sys → Sys) : (s.upSys f).pip = s.pip := rfl
@[simp] theorem State.upSys_csc (f : Sys → Sys) : (s.upSys f).csc = s.csc := rfl
@[simp] theorem State.upSys_qnc (f : Sys → Sys) : (s.upSys f).qnc = s.qnc := rfl
@[simp] theorem State.upSys_cph (f : Sys → Sys) : (s.upSys f).cph = s.cph := rfl
@[simp] theorem State.upSys_fw (f : Sys → Sys) : (s.upSys f).fw = s.fw := rfl
@[simp] theorem State.upSys_jobs (f : Sys → Sys) : (s.upSys f).jobs = s.jobs := rfl

/-! ### `upPcie` changes `io` alone -/

@[simp] theorem State.upPcie_pending (f : Pcie → Pcie) : (s.upPcie f).pending = s.pending := rfl
@[simp] theorem State.upPcie_buf (f : Pcie → Pcie) : (s.upPcie f).buf = s.buf := rfl
@[simp] theorem State.upPcie_fwd (f : Pcie → Pcie) : (s.upPcie f).fwd = s.fwd := rfl
@[simp] theorem State.upPcie_fmc (f : Pcie → Pcie) : (s.upPcie f).fmc = s.fmc := rfl
@[simp] theorem State.upPcie_flow (f : Pcie → Pcie) : (s.upPcie f).flow = s.flow := rfl
@[simp] theorem State.upPcie_act (f : Pcie → Pcie) : (s.upPcie f).act = s.act := rfl
@[simp] theorem State.upPcie_tel (f : Pcie → Pcie) : (s.upPcie f).tel = s.tel := rfl
@[simp] theorem State.upPcie_policy (f : Pcie → Pcie) : (s.upPcie f).policy = s.policy := rfl
@[simp] theorem State.upPcie_pip (f : Pcie → Pcie) : (s.upPcie f).pip = s.pip := rfl
@[simp] theorem State.upPcie_csc (f : Pcie → Pcie) : (s.upPcie f).csc = s.csc := rfl
@[simp] theorem State.upPcie_qnc (f : Pcie → Pcie) : (s.upPcie f).qnc = s.qnc := rfl
@[simp] theorem State.upPcie_cph (f : Pcie → Pcie) : (s.upPcie f).cph = s.cph := rfl
@[simp] theorem State.upPcie_fw (f : Pcie → Pcie) : (s.upPcie f).fw = s.fw := rfl
@[simp] theorem State.upPcie_jobs (f : Pcie → Pcie) : (s.upPcie f).jobs = s.jobs := rfl

/-! ### `upNvm` changes `io` alone -/

@[simp] theorem State.upNvm_pending (f : Nvm → Nvm) : (s.upNvm f).pending = s.pending := rfl
@[simp] theorem State.upNvm_buf (f : Nvm → Nvm) : (s.upNvm f).buf = s.buf := rfl
@[simp] theorem State.upNvm_fwd (f : Nvm → Nvm) : (s.upNvm f).fwd = s.fwd := rfl
@[simp] theorem State.upNvm_fmc (f : Nvm → Nvm) : (s.upNvm f).fmc = s.fmc := rfl
@[simp] theorem State.upNvm_flow (f : Nvm → Nvm) : (s.upNvm f).flow = s.flow := rfl
@[simp] theorem State.upNvm_act (f : Nvm → Nvm) : (s.upNvm f).act = s.act := rfl
@[simp] theorem State.upNvm_tel (f : Nvm → Nvm) : (s.upNvm f).tel = s.tel := rfl
@[simp] theorem State.upNvm_policy (f : Nvm → Nvm) : (s.upNvm f).policy = s.policy := rfl
@[simp] theorem State.upNvm_pip (f : Nvm → Nvm) : (s.upNvm f).pip = s.pip := rfl
@[simp] theorem State.upNvm_csc (f : Nvm → Nvm) : (s.upNvm f).csc = s.csc := rfl
@[simp] theorem State.upNvm_qnc (f : Nvm → Nvm) : (s.upNvm f).qnc = s.qnc := rfl
@[simp] theorem State.upNvm_cph (f : Nvm → Nvm) : (s.upNvm f).cph = s.cph := rfl
@[simp] theorem State.upNvm_fw (f : Nvm → Nvm) : (s.upNvm f).fw = s.fw := rfl
@[simp] theorem State.upNvm_jobs (f : Nvm → Nvm) : (s.upNvm f).jobs = s.jobs := rfl

/-! ### `upCsc` changes `csc` alone -/

@[simp] theorem State.upCsc_pending (f : Csc → Csc) : (s.upCsc f).pending = s.pending := rfl
@[simp] theorem State.upCsc_io (f : Csc → Csc) : (s.upCsc f).io = s.io := rfl
@[simp] theorem State.upCsc_buf (f : Csc → Csc) : (s.upCsc f).buf = s.buf := rfl
@[simp] theorem State.upCsc_fwd (f : Csc → Csc) : (s.upCsc f).fwd = s.fwd := rfl
@[simp] theorem State.upCsc_fmc (f : Csc → Csc) : (s.upCsc f).fmc = s.fmc := rfl
@[simp] theorem State.upCsc_flow (f : Csc → Csc) : (s.upCsc f).flow = s.flow := rfl
@[simp] theorem State.upCsc_act (f : Csc → Csc) : (s.upCsc f).act = s.act := rfl
@[simp] theorem State.upCsc_tel (f : Csc → Csc) : (s.upCsc f).tel = s.tel := rfl
@[simp] theorem State.upCsc_policy (f : Csc → Csc) : (s.upCsc f).policy = s.policy := rfl
@[simp] theorem State.upCsc_pip (f : Csc → Csc) : (s.upCsc f).pip = s.pip := rfl
@[simp] theorem State.upCsc_qnc (f : Csc → Csc) : (s.upCsc f).qnc = s.qnc := rfl
@[simp] theorem State.upCsc_cph (f : Csc → Csc) : (s.upCsc f).cph = s.cph := rfl
@[simp] theorem State.upCsc_fw (f : Csc → Csc) : (s.upCsc f).fw = s.fw := rfl
@[simp] theorem State.upCsc_jobs (f : Csc → Csc) : (s.upCsc f).jobs = s.jobs := rfl

/-! ### `upQnc` changes `qnc` alone -/

@[simp] theorem State.upQnc_pending (f : Qnc → Qnc) : (s.upQnc f).pending = s.pending := rfl
@[simp] theorem State.upQnc_io (f : Qnc → Qnc) : (s.upQnc f).io = s.io := rfl
@[simp] theorem State.upQnc_buf (f : Qnc → Qnc) : (s.upQnc f).buf = s.buf := rfl
@[simp] theorem State.upQnc_fwd (f : Qnc → Qnc) : (s.upQnc f).fwd = s.fwd := rfl
@[simp] theorem State.upQnc_fmc (f : Qnc → Qnc) : (s.upQnc f).fmc = s.fmc := rfl
@[simp] theorem State.upQnc_flow (f : Qnc → Qnc) : (s.upQnc f).flow = s.flow := rfl
@[simp] theorem State.upQnc_act (f : Qnc → Qnc) : (s.upQnc f).act = s.act := rfl
@[simp] theorem State.upQnc_tel (f : Qnc → Qnc) : (s.upQnc f).tel = s.tel := rfl
@[simp] theorem State.upQnc_policy (f : Qnc → Qnc) : (s.upQnc f).policy = s.policy := rfl
@[simp] theorem State.upQnc_pip (f : Qnc → Qnc) : (s.upQnc f).pip = s.pip := rfl
@[simp] theorem State.upQnc_csc (f : Qnc → Qnc) : (s.upQnc f).csc = s.csc := rfl
@[simp] theorem State.upQnc_cph (f : Qnc → Qnc) : (s.upQnc f).cph = s.cph := rfl
@[simp] theorem State.upQnc_fw (f : Qnc → Qnc) : (s.upQnc f).fw = s.fw := rfl
@[simp] theorem State.upQnc_jobs (f : Qnc → Qnc) : (s.upQnc f).jobs = s.jobs := rfl

/-! ### `upFw` changes `fw` alone -/

@[simp] theorem State.upFw_pending (f : Fw → Fw) : (s.upFw f).pending = s.pending := rfl
@[simp] theorem State.upFw_io (f : Fw → Fw) : (s.upFw f).io = s.io := rfl
@[simp] theorem State.upFw_buf (f : Fw → Fw) : (s.upFw f).buf = s.buf := rfl
@[simp] theorem State.upFw_fwd (f : Fw → Fw) : (s.upFw f).fwd = s.fwd := rfl
@[simp] theorem State.upFw_fmc (f : Fw → Fw) : (s.upFw f).fmc = s.fmc := rfl
@[simp] theorem State.upFw_flow (f : Fw → Fw) : (s.upFw f).flow = s.flow := rfl
@[simp] theorem State.upFw_act (f : Fw → Fw) : (s.upFw f).act = s.act := rfl
@[simp] theorem State.upFw_tel (f : Fw → Fw) : (s.upFw f).tel = s.tel := rfl
@[simp] theorem State.upFw_policy (f : Fw → Fw) : (s.upFw f).policy = s.policy := rfl
@[simp] theorem State.upFw_pip (f : Fw → Fw) : (s.upFw f).pip = s.pip := rfl
@[simp] theorem State.upFw_csc (f : Fw → Fw) : (s.upFw f).csc = s.csc := rfl
@[simp] theorem State.upFw_qnc (f : Fw → Fw) : (s.upFw f).qnc = s.qnc := rfl
@[simp] theorem State.upFw_cph (f : Fw → Fw) : (s.upFw f).cph = s.cph := rfl
@[simp] theorem State.upFw_jobs (f : Fw → Fw) : (s.upFw f).jobs = s.jobs := rfl

/-! ### `setQueue` changes `buf` alone -/

@[simp] theorem State.setQueue_pending (q : Nat) (l : List Copy) : (s.setQueue q l).pending = s.pending := rfl
@[simp] theorem State.setQueue_io (q : Nat) (l : List Copy) : (s.setQueue q l).io = s.io := rfl
@[simp] theorem State.setQueue_fwd (q : Nat) (l : List Copy) : (s.setQueue q l).fwd = s.fwd := rfl
@[simp] theorem State.setQueue_fmc (q : Nat) (l : List Copy) : (s.setQueue q l).fmc = s.fmc := rfl
@[simp] theorem State.setQueue_flow (q : Nat) (l : List Copy) : (s.setQueue q l).flow = s.flow := rfl
@[simp] theorem State.setQueue_act (q : Nat) (l : List Copy) : (s.setQueue q l).act = s.act := rfl
@[simp] theorem State.setQueue_tel (q : Nat) (l : List Copy) : (s.setQueue q l).tel = s.tel := rfl
@[simp] theorem State.setQueue_policy (q : Nat) (l : List Copy) : (s.setQueue q l).policy = s.policy := rfl
@[simp] theorem State.setQueue_pip (q : Nat) (l : List Copy) : (s.setQueue q l).pip = s.pip := rfl
@[simp] theorem State.setQueue_csc (q : Nat) (l : List Copy) : (s.setQueue q l).csc = s.csc := rfl
@[simp] theorem State.setQueue_qnc (q : Nat) (l : List Copy) : (s.setQueue q l).qnc = s.qnc := rfl
@[simp] theorem State.setQueue_cph (q : Nat) (l : List Copy) : (s.setQueue q l).cph = s.cph := rfl
@[simp] theorem State.setQueue_fw (q : Nat) (l : List Copy) : (s.setQueue q l).fw = s.fw := rfl
@[simp] theorem State.setQueue_jobs (q : Nat) (l : List Copy) : (s.setQueue q l).jobs = s.jobs := rfl

/-! ### `setStored` changes `buf` alone -/

@[simp] theorem State.setStored_pending (i : Nat) (p : Stored) : (s.setStored i p).pending = s.pending := rfl
@[simp] theorem State.setStored_io (i : Nat) (p : Stored) : (s.setStored i p).io = s.io := rfl
@[simp] theorem State.setStored_fwd (i : Nat) (p : Stored) : (s.setStored i p).fwd = s.fwd := rfl
@[simp] theorem State.setStored_fmc (i : Nat) (p : Stored) : (s.setStored i p).fmc = s.fmc := rfl
@[simp] theorem State.setStored_flow (i : Nat) (p : Stored) : (s.setStored i p).flow = s.flow := rfl
@[simp] theorem State.setStored_act (i : Nat) (p : Stored) : (s.setStored i p).act = s.act := rfl
@[simp] theorem State.setStored_tel (i : Nat) (p : Stored) : (s.setStored i p).tel = s.tel := rfl
@[simp] theorem State.setStored_policy (i : Nat) (p : Stored) : (s.setStored i p).policy = s.policy := rfl
@[simp] theorem State.setStored_pip (i : Nat) (p : Stored) : (s.setStored i p).pip = s.pip := rfl
@[simp] theorem State.setStored_csc (i : Nat) (p : Stored) : (s.setStored i p).csc = s.csc := rfl
@[simp] theorem State.setStored_qnc (i : Nat) (p : Stored) : (s.setStored i p).qnc = s.qnc := rfl
@[simp] theorem State.setStored_cph (i : Nat) (p : Stored) : (s.setStored i p).cph = s.cph := rfl
@[simp] theorem State.setStored_fw (i : Nat) (p : Stored) : (s.setStored i p).fw = s.fw := rfl
@[simp] theorem State.setStored_jobs (i : Nat) (p : Stored) : (s.setStored i p).jobs = s.jobs := rfl

/-! ### `setCache` changes `flow` alone -/

@[simp] theorem State.setCache_pending (i : Nat) (l : CacheLine) : (s.setCache i l).pending = s.pending := rfl
@[simp] theorem State.setCache_io (i : Nat) (l : CacheLine) : (s.setCache i l).io = s.io := rfl
@[simp] theorem State.setCache_buf (i : Nat) (l : CacheLine) : (s.setCache i l).buf = s.buf := rfl
@[simp] theorem State.setCache_fwd (i : Nat) (l : CacheLine) : (s.setCache i l).fwd = s.fwd := rfl
@[simp] theorem State.setCache_fmc (i : Nat) (l : CacheLine) : (s.setCache i l).fmc = s.fmc := rfl
@[simp] theorem State.setCache_act (i : Nat) (l : CacheLine) : (s.setCache i l).act = s.act := rfl
@[simp] theorem State.setCache_tel (i : Nat) (l : CacheLine) : (s.setCache i l).tel = s.tel := rfl
@[simp] theorem State.setCache_policy (i : Nat) (l : CacheLine) : (s.setCache i l).policy = s.policy := rfl
@[simp] theorem State.setCache_pip (i : Nat) (l : CacheLine) : (s.setCache i l).pip = s.pip := rfl
@[simp] theorem State.setCache_csc (i : Nat) (l : CacheLine) : (s.setCache i l).csc = s.csc := rfl
@[simp] theorem State.setCache_qnc (i : Nat) (l : CacheLine) : (s.setCache i l).qnc = s.qnc := rfl
@[simp] theorem State.setCache_cph (i : Nat) (l : CacheLine) : (s.setCache i l).cph = s.cph := rfl
@[simp] theorem State.setCache_fw (i : Nat) (l : CacheLine) : (s.setCache i l).fw = s.fw := rfl
@[simp] theorem State.setCache_jobs (i : Nat) (l : CacheLine) : (s.setCache i l).jobs = s.jobs := rfl

/-! ### `setClaims` changes `flow` alone -/

@[simp] theorem State.setClaims_pending (l : List Claim) : (s.setClaims l).pending = s.pending := rfl
@[simp] theorem State.setClaims_io (l : List Claim) : (s.setClaims l).io = s.io := rfl
@[simp] theorem State.setClaims_buf (l : List Claim) : (s.setClaims l).buf = s.buf := rfl
@[simp] theorem State.setClaims_fwd (l : List Claim) : (s.setClaims l).fwd = s.fwd := rfl
@[simp] theorem State.setClaims_fmc (l : List Claim) : (s.setClaims l).fmc = s.fmc := rfl
@[simp] theorem State.setClaims_act (l : List Claim) : (s.setClaims l).act = s.act := rfl
@[simp] theorem State.setClaims_tel (l : List Claim) : (s.setClaims l).tel = s.tel := rfl
@[simp] theorem State.setClaims_policy (l : List Claim) : (s.setClaims l).policy = s.policy := rfl
@[simp] theorem State.setClaims_pip (l : List Claim) : (s.setClaims l).pip = s.pip := rfl
@[simp] theorem State.setClaims_csc (l : List Claim) : (s.setClaims l).csc = s.csc := rfl
@[simp] theorem State.setClaims_qnc (l : List Claim) : (s.setClaims l).qnc = s.qnc := rfl
@[simp] theorem State.setClaims_cph (l : List Claim) : (s.setClaims l).cph = s.cph := rfl
@[simp] theorem State.setClaims_fw (l : List Claim) : (s.setClaims l).fw = s.fw := rfl
@[simp] theorem State.setClaims_jobs (l : List Claim) : (s.setClaims l).jobs = s.jobs := rfl

/-! ### `setArray` changes `fmc` alone -/

@[simp] theorem State.setArray_pending (pc la : Nat) (v : Line) : (s.setArray pc la v).pending = s.pending := rfl
@[simp] theorem State.setArray_io (pc la : Nat) (v : Line) : (s.setArray pc la v).io = s.io := rfl
@[simp] theorem State.setArray_buf (pc la : Nat) (v : Line) : (s.setArray pc la v).buf = s.buf := rfl
@[simp] theorem State.setArray_fwd (pc la : Nat) (v : Line) : (s.setArray pc la v).fwd = s.fwd := rfl
@[simp] theorem State.setArray_flow (pc la : Nat) (v : Line) : (s.setArray pc la v).flow = s.flow := rfl
@[simp] theorem State.setArray_act (pc la : Nat) (v : Line) : (s.setArray pc la v).act = s.act := rfl
@[simp] theorem State.setArray_tel (pc la : Nat) (v : Line) : (s.setArray pc la v).tel = s.tel := rfl
@[simp] theorem State.setArray_policy (pc la : Nat) (v : Line) : (s.setArray pc la v).policy = s.policy := rfl
@[simp] theorem State.setArray_pip (pc la : Nat) (v : Line) : (s.setArray pc la v).pip = s.pip := rfl
@[simp] theorem State.setArray_csc (pc la : Nat) (v : Line) : (s.setArray pc la v).csc = s.csc := rfl
@[simp] theorem State.setArray_qnc (pc la : Nat) (v : Line) : (s.setArray pc la v).qnc = s.qnc := rfl
@[simp] theorem State.setArray_cph (pc la : Nat) (v : Line) : (s.setArray pc la v).cph = s.cph := rfl
@[simp] theorem State.setArray_fw (pc la : Nat) (v : Line) : (s.setArray pc la v).fw = s.fw := rfl
@[simp] theorem State.setArray_jobs (pc la : Nat) (v : Line) : (s.setArray pc la v).jobs = s.jobs := rfl

/-! ### `setWq` changes `fmc` alone -/

@[simp] theorem State.setWq_pending (pc : Nat) (l : List WReq) : (s.setWq pc l).pending = s.pending := rfl
@[simp] theorem State.setWq_io (pc : Nat) (l : List WReq) : (s.setWq pc l).io = s.io := rfl
@[simp] theorem State.setWq_buf (pc : Nat) (l : List WReq) : (s.setWq pc l).buf = s.buf := rfl
@[simp] theorem State.setWq_fwd (pc : Nat) (l : List WReq) : (s.setWq pc l).fwd = s.fwd := rfl
@[simp] theorem State.setWq_flow (pc : Nat) (l : List WReq) : (s.setWq pc l).flow = s.flow := rfl
@[simp] theorem State.setWq_act (pc : Nat) (l : List WReq) : (s.setWq pc l).act = s.act := rfl
@[simp] theorem State.setWq_tel (pc : Nat) (l : List WReq) : (s.setWq pc l).tel = s.tel := rfl
@[simp] theorem State.setWq_policy (pc : Nat) (l : List WReq) : (s.setWq pc l).policy = s.policy := rfl
@[simp] theorem State.setWq_pip (pc : Nat) (l : List WReq) : (s.setWq pc l).pip = s.pip := rfl
@[simp] theorem State.setWq_csc (pc : Nat) (l : List WReq) : (s.setWq pc l).csc = s.csc := rfl
@[simp] theorem State.setWq_qnc (pc : Nat) (l : List WReq) : (s.setWq pc l).qnc = s.qnc := rfl
@[simp] theorem State.setWq_cph (pc : Nat) (l : List WReq) : (s.setWq pc l).cph = s.cph := rfl
@[simp] theorem State.setWq_fw (pc : Nat) (l : List WReq) : (s.setWq pc l).fw = s.fw := rfl
@[simp] theorem State.setWq_jobs (pc : Nat) (l : List WReq) : (s.setWq pc l).jobs = s.jobs := rfl

/-! ### `setRq` changes `fmc` alone -/

@[simp] theorem State.setRq_pending (pc : Nat) (l : List Req) : (s.setRq pc l).pending = s.pending := rfl
@[simp] theorem State.setRq_io (pc : Nat) (l : List Req) : (s.setRq pc l).io = s.io := rfl
@[simp] theorem State.setRq_buf (pc : Nat) (l : List Req) : (s.setRq pc l).buf = s.buf := rfl
@[simp] theorem State.setRq_fwd (pc : Nat) (l : List Req) : (s.setRq pc l).fwd = s.fwd := rfl
@[simp] theorem State.setRq_flow (pc : Nat) (l : List Req) : (s.setRq pc l).flow = s.flow := rfl
@[simp] theorem State.setRq_act (pc : Nat) (l : List Req) : (s.setRq pc l).act = s.act := rfl
@[simp] theorem State.setRq_tel (pc : Nat) (l : List Req) : (s.setRq pc l).tel = s.tel := rfl
@[simp] theorem State.setRq_policy (pc : Nat) (l : List Req) : (s.setRq pc l).policy = s.policy := rfl
@[simp] theorem State.setRq_pip (pc : Nat) (l : List Req) : (s.setRq pc l).pip = s.pip := rfl
@[simp] theorem State.setRq_csc (pc : Nat) (l : List Req) : (s.setRq pc l).csc = s.csc := rfl
@[simp] theorem State.setRq_qnc (pc : Nat) (l : List Req) : (s.setRq pc l).qnc = s.qnc := rfl
@[simp] theorem State.setRq_cph (pc : Nat) (l : List Req) : (s.setRq pc l).cph = s.cph := rfl
@[simp] theorem State.setRq_fw (pc : Nat) (l : List Req) : (s.setRq pc l).fw = s.fw := rfl
@[simp] theorem State.setRq_jobs (pc : Nat) (l : List Req) : (s.setRq pc l).jobs = s.jobs := rfl

/-! ### `setCtx` changes `pip` alone -/

@[simp] theorem State.setCtx_pending (q c : Nat) (x : Ctx) : (s.setCtx q c x).pending = s.pending := rfl
@[simp] theorem State.setCtx_io (q c : Nat) (x : Ctx) : (s.setCtx q c x).io = s.io := rfl
@[simp] theorem State.setCtx_buf (q c : Nat) (x : Ctx) : (s.setCtx q c x).buf = s.buf := rfl
@[simp] theorem State.setCtx_fwd (q c : Nat) (x : Ctx) : (s.setCtx q c x).fwd = s.fwd := rfl
@[simp] theorem State.setCtx_fmc (q c : Nat) (x : Ctx) : (s.setCtx q c x).fmc = s.fmc := rfl
@[simp] theorem State.setCtx_flow (q c : Nat) (x : Ctx) : (s.setCtx q c x).flow = s.flow := rfl
@[simp] theorem State.setCtx_act (q c : Nat) (x : Ctx) : (s.setCtx q c x).act = s.act := rfl
@[simp] theorem State.setCtx_tel (q c : Nat) (x : Ctx) : (s.setCtx q c x).tel = s.tel := rfl
@[simp] theorem State.setCtx_policy (q c : Nat) (x : Ctx) : (s.setCtx q c x).policy = s.policy := rfl
@[simp] theorem State.setCtx_csc (q c : Nat) (x : Ctx) : (s.setCtx q c x).csc = s.csc := rfl
@[simp] theorem State.setCtx_qnc (q c : Nat) (x : Ctx) : (s.setCtx q c x).qnc = s.qnc := rfl
@[simp] theorem State.setCtx_cph (q c : Nat) (x : Ctx) : (s.setCtx q c x).cph = s.cph := rfl
@[simp] theorem State.setCtx_fw (q c : Nat) (x : Ctx) : (s.setCtx q c x).fw = s.fw := rfl
@[simp] theorem State.setCtx_jobs (q c : Nat) (x : Ctx) : (s.setCtx q c x).jobs = s.jobs := rfl

/-! ### `setLock` changes `pip` alone -/

@[simp] theorem State.setLock_pending (n h : Nat) : (s.setLock n h).pending = s.pending := rfl
@[simp] theorem State.setLock_io (n h : Nat) : (s.setLock n h).io = s.io := rfl
@[simp] theorem State.setLock_buf (n h : Nat) : (s.setLock n h).buf = s.buf := rfl
@[simp] theorem State.setLock_fwd (n h : Nat) : (s.setLock n h).fwd = s.fwd := rfl
@[simp] theorem State.setLock_fmc (n h : Nat) : (s.setLock n h).fmc = s.fmc := rfl
@[simp] theorem State.setLock_flow (n h : Nat) : (s.setLock n h).flow = s.flow := rfl
@[simp] theorem State.setLock_act (n h : Nat) : (s.setLock n h).act = s.act := rfl
@[simp] theorem State.setLock_tel (n h : Nat) : (s.setLock n h).tel = s.tel := rfl
@[simp] theorem State.setLock_policy (n h : Nat) : (s.setLock n h).policy = s.policy := rfl
@[simp] theorem State.setLock_csc (n h : Nat) : (s.setLock n h).csc = s.csc := rfl
@[simp] theorem State.setLock_qnc (n h : Nat) : (s.setLock n h).qnc = s.qnc := rfl
@[simp] theorem State.setLock_cph (n h : Nat) : (s.setLock n h).cph = s.cph := rfl
@[simp] theorem State.setLock_fw (n h : Nat) : (s.setLock n h).fw = s.fw := rfl
@[simp] theorem State.setLock_jobs (n h : Nat) : (s.setLock n h).jobs = s.jobs := rfl

/-! ### `setCpage` changes `cph` alone -/

@[simp] theorem State.setCpage_pending (u : Nat) (p : CPage) : (s.setCpage u p).pending = s.pending := rfl
@[simp] theorem State.setCpage_io (u : Nat) (p : CPage) : (s.setCpage u p).io = s.io := rfl
@[simp] theorem State.setCpage_buf (u : Nat) (p : CPage) : (s.setCpage u p).buf = s.buf := rfl
@[simp] theorem State.setCpage_fwd (u : Nat) (p : CPage) : (s.setCpage u p).fwd = s.fwd := rfl
@[simp] theorem State.setCpage_fmc (u : Nat) (p : CPage) : (s.setCpage u p).fmc = s.fmc := rfl
@[simp] theorem State.setCpage_flow (u : Nat) (p : CPage) : (s.setCpage u p).flow = s.flow := rfl
@[simp] theorem State.setCpage_act (u : Nat) (p : CPage) : (s.setCpage u p).act = s.act := rfl
@[simp] theorem State.setCpage_tel (u : Nat) (p : CPage) : (s.setCpage u p).tel = s.tel := rfl
@[simp] theorem State.setCpage_policy (u : Nat) (p : CPage) : (s.setCpage u p).policy = s.policy := rfl
@[simp] theorem State.setCpage_pip (u : Nat) (p : CPage) : (s.setCpage u p).pip = s.pip := rfl
@[simp] theorem State.setCpage_csc (u : Nat) (p : CPage) : (s.setCpage u p).csc = s.csc := rfl
@[simp] theorem State.setCpage_qnc (u : Nat) (p : CPage) : (s.setCpage u p).qnc = s.qnc := rfl
@[simp] theorem State.setCpage_fw (u : Nat) (p : CPage) : (s.setCpage u p).fw = s.fw := rfl
@[simp] theorem State.setCpage_jobs (u : Nat) (p : CPage) : (s.setCpage u p).jobs = s.jobs := rfl

/-! ### What they do to their own field -/

@[simp] theorem State.upIo_io (f : Io → Io) : (s.upIo f).io = f s.io := rfl
@[simp] theorem State.put_io (b : Nat) (f : Fld) (v i : Nat) : (s.put b f v i).io = s.io.put b f v i := State.upIo_io s _
@[simp] theorem State.bump_io (b : Nat) (f : Fld) (n i : Nat) : (s.bump b f n i).io = s.io.bump b f n i := State.upIo_io s _
@[simp] theorem State.ctr_io (b : Nat) (f : Fld) (n i : Nat) : (s.ctr b f n i).io = s.io.ctr b f n i := State.upIo_io s _
@[simp] theorem State.raise_io (b n : Nat) : (s.raise b n).io = s.io.raise b n := State.upIo_io s _
@[simp] theorem State.err_io (b ty m o : Nat) : (s.err b ty m o).io = s.io.err b ty m o := State.upIo_io s _
@[simp] theorem State.emit_io (o : Out) : (s.emit o).io = s.io.emit o := State.upIo_io s _
@[simp] theorem State.report_io (v c b l d : Nat) : (s.report v c b l d).io = s.io.report v c b l d := State.upIo_io s _
@[simp] theorem State.upCsc_csc (f : Csc → Csc) : (s.upCsc f).csc = f s.csc := rfl
@[simp] theorem State.upQnc_qnc (f : Qnc → Qnc) : (s.upQnc f).qnc = f s.qnc := rfl
@[simp] theorem State.upFw_fw (f : Fw → Fw) : (s.upFw f).fw = f s.fw := rfl
@[simp] theorem State.upNvm_nvm (f : Nvm → Nvm) : (s.upNvm f).io.nvm = f s.io.nvm := rfl
@[simp] theorem State.upSys_sys (f : Sys → Sys) : (s.upSys f).io.sys = f s.io.sys := rfl
@[simp] theorem State.upPcie_pcie (f : Pcie → Pcie) : (s.upPcie f).io.pcie = f s.io.pcie := rfl
theorem State.get_eq (b : Nat) (f : Fld) (i : Nat) : s.get b f i = s.io.get b f i := rfl

end Sys2Proof.Machine
end

