-- ==== Sys2Proof/Laws/Frames.lean ====
section
/-!
SUPPORT. What the shared operations leave alone, in the terms of `Safety`, and how such frames compose; what `live`, `always`
and `step` answer.
-/
namespace Sys2Proof.Machine

/-! ### Outcomes -/

theorem State.live_on {s : State} (h : s.on = true) (f : State → State) :
    s.live f = .next { f s with pending := s.pending } := by simp [State.live, h]

theorem State.live_off {s : State} (h : s.on = false) (f : State → State) : s.live f = .next s := by simp [State.live, h]

/-- Completion of a command that acts while the device runs. -/
theorem Completes.live {c : Instr} {s : State} {P : State → Prop} {f : State → State} (hx : exec c s = s.live f)
    (h : s.on = true) (hP : P { f s with pending := s.pending }) : Completes c s P :=
  ⟨_, hx.trans (State.live_on h f), hP⟩

/-- The same where the effect leaves the queue alone by itself. -/
theorem Completes.live' {c : Instr} {s : State} {P : State → Prop} {f : State → State} (hx : exec c s = s.live f)
    (h : s.on = true) (hq : (f s).pending = s.pending) (hP : P (f s)) : Completes c s P := by
  refine Completes.live hx h ?_
  have e : ({ f s with pending := s.pending } : State) = f s := by rw [← hq]
  rw [e]
  exact hP

/-- A command whose effect is none leaves the state. -/
theorem NoEffect.live {c : Instr} {s : State} {f : State → State} (hx : exec c s = s.live f) (hf : f s = s) :
    NoEffect c s := by
  unfold NoEffect
  rw [hx]
  unfold State.live
  rw [hf]
  split <;> rfl

/-! ### OnlyRegs and OnlyIrq -/

theorem OnlyRegs.refl (s : State) : OnlyRegs s s := rfl

theorem OnlyRegs.trans {s t u : State} (h : OnlyRegs s t) (h' : OnlyRegs t u) : OnlyRegs s u := by
  unfold OnlyRegs at *
  rw [h'] ; rw [h]

theorem OnlyRegs.irq {s t : State} (h : OnlyRegs s t) : OnlyIrq s t := by
  unfold OnlyRegs at h
  refine ⟨?_, [], ?_, by simp⟩
  · rw [h]
  · rw [h]; rfl

theorem OnlyIrq.refl (s : State) : OnlyIrq s s := (OnlyRegs.refl s).irq

theorem OnlyIrq.trans {s t u : State} (h : OnlyIrq s t) (h' : OnlyIrq t u) : OnlyIrq s u := by
  obtain ⟨e, l, hl, hm⟩ := h
  obtain ⟨e', l', hl', hm'⟩ := h'
  refine ⟨?_, l' ++ l, ?_, ?_⟩
  · rw [e', e]
  · rw [hl', hl, List.append_assoc]
  · intro o ho
    rcases List.mem_append.mp ho with ho | ho
    · exact hm' o ho
    · exact hm o ho

theorem OnlyIrq.io {s t : State} (h : OnlyIrq s t) : OnlyIo s t := by
  unfold OnlyIo
  rw [h.1]

theorem OnlyIrq.bank {s t : State} (h : OnlyIrq s t) : t.io.bank = s.io.bank := by rw [h.1]
theorem OnlyIrq.pending {s t : State} (h : OnlyIrq s t) : t.pending = s.pending := by rw [h.1]
theorem OnlyIrq.time {s t : State} (h : OnlyIrq s t) : t.io.time = s.io.time := by rw [h.1]

theorem OnlyRegs.put (s : State) (b : Nat) (f : Fld) (v i : Nat) (hr : f.rws = false) : OnlyRegs s (s.put b f v i) := by
  unfold OnlyRegs
  show s.upIo _ = _
  unfold State.upIo
  simp only [State.put_io]
  congr 1
  exact Io.put_frame s.io b f v i hr

/-- The words an update of `io` writes: only the register file changed. -/
theorem OnlyRegs.upIo {s : State} {f : Io → Io} (h : f s.io = { s.io with regs := (f s.io).regs }) :
    OnlyRegs s (s.upIo f) := by
  unfold OnlyRegs State.upIo
  simp only
  congr 1

theorem OnlyRegs.wr (s : State) (a : Nat) (v : W32) : OnlyRegs s (s.upIo fun io => io.wr a v) := rfl

theorem OnlyRegs.err (s : State) (b ty m o : Nat) : OnlyRegs s (s.err b ty m o) := OnlyRegs.upIo (Io.err_frame ..)

/-- A message that falls due goes out or sets its Pending Bit. -/
theorem Io.msix_irq (s : Io) (n : Nat) :
    s.msix n = { s with pcie := { s.pcie with pend := (s.msix n).pcie.pend }, out := (s.msix n).out } ∧
      ∃ l, (s.msix n).out = l ++ s.out ∧ ∀ o ∈ l, ∃ v a d, o = .msix v a d := by
  unfold Io.msix Io.emit
  split
  · exact ⟨rfl, [s.msixOut n], rfl, by simp [Io.msixOut]⟩
  · exact ⟨rfl, [], rfl, by simp⟩

theorem Io.edge_irq (s : Io) (n : Nat) (f : Io → Io) (hf : f s = { s with regs := (f s).regs }) :
    s.edge n f = { s with regs := (s.edge n f).regs, pcie := { s.pcie with pend := (s.edge n f).pcie.pend }, out := (s.edge n f).out } ∧
      ∃ l, (s.edge n f).out = l ++ s.out ∧ ∀ o ∈ l, ∃ v a d, o = .msix v a d := by
  have ho : (f s).out = s.out := by rw [hf]
  unfold Io.edge
  dsimp only
  split
  · obtain ⟨e, l, hl, hm⟩ := Io.msix_irq (f s) n
    refine ⟨?_, l, ?_, hm⟩
    · rw [e, hf]
    · rw [hl, ho]
  · refine ⟨?_, [], ?_, by simp⟩
    · rw [hf]
    · rw [ho]; rfl

theorem OnlyIrq.upIo {s : State} {f : Io → Io}
    (h : f s.io = { s.io with regs := (f s.io).regs, pcie := { s.io.pcie with pend := (f s.io).pcie.pend }, out := (f s.io).out })
    (hl : ∃ l, (f s.io).out = l ++ s.io.out ∧ ∀ o ∈ l, ∃ v a d, o = .msix v a d) : OnlyIrq s (s.upIo f) := by
  refine ⟨?_, hl⟩
  unfold State.upIo
  simp only
  congr 1

/-- A cause raised changes PG_IRQ_STAT, and may send a message. -/
theorem OnlyIrq.raise (s : State) (b n : Nat) : OnlyIrq s (s.raise b n) := by
  have h := Io.edge_irq s.io (s.io.sourceOf b) (fun io => io.wr (b + 0x10) (s.io.rd (b + 0x10) ||| BitVec.ofNat 32 (2 ^ n))) rfl
  exact OnlyIrq.upIo h.1 h.2

theorem OnlyIrq.raiseBits (s : State) (b n : Nat) : OnlyIrq s (s.upIo fun io => io.raiseBits b n) := by
  have h := Io.edge_irq s.io (s.io.sourceOf b) (fun io => io.wr (b + 0x10) (s.io.rd (b + 0x10) ||| BitVec.ofNat 32 n)) rfl
  exact OnlyIrq.upIo h.1 h.2

/-! ### KeepsWords -/

theorem KeepsWords.refl (p : Nat → Prop) (s : State) : KeepsWords p s s := fun _ _ => rfl

theorem KeepsWords.trans {p : Nat → Prop} {s t u : State} (h : KeepsWords p s t) (h' : KeepsWords p t u) : KeepsWords p s u :=
  fun a ha => (h' a ha).trans (h a ha)

theorem KeepsWords.mono {p q : Nat → Prop} {s t : State} (h : KeepsWords p s t) (hpq : ∀ a, p a → q a) : KeepsWords q s t :=
  fun a ha => h a fun hp => ha (hpq a hp)

theorem KeepsWords.of_regs {s t : State} (h : t.io.regs = s.io.regs) (p : Nat → Prop) : KeepsWords p s t :=
  fun a _ => Io.rd_congr h a

theorem KeepsWords.put {p : Nat → Prop} (s : State) (b : Nat) (f : Fld) (v i : Nat) (hr : f.rws = false)
    (hl : f.lo + f.len ≤ 32) (hp : p (b + f.off + f.stride * i)) : KeepsWords p s (s.put b f v i) := by
  intro a ha
  rw [State.put_io, Io.rd_put _ _ _ _ _ _ hr hl, if_neg]
  rintro rfl
  exact ha hp

theorem KeepsWords.raise {p : Nat → Prop} (s : State) (b n : Nat) (hp : p (b + 0x10)) : KeepsWords p s (s.raise b n) := by
  intro a ha
  rw [State.raise_io, Io.rd_raise_ne]
  rintro rfl
  exact ha hp

theorem KeepsWords.err {p : Nat → Prop} (s : State) (b ty m o : Nat) (h1 : p (b + 0x1C)) (h2 : p (b + 0x20)) :
    KeepsWords p s (s.err b ty m o) := by
  intro a ha
  rw [State.err_io, Io.rd_err_ne]
  · rintro rfl; exact ha h1
  · rintro rfl; exact ha h2

end Sys2Proof.Machine
end

