-- ==== Sys2Proof/Laws/Fabric.lean ====
section
/-!
SUPPORT. Register accesses on the fabric: where a page of each kind lies, and what a write or read that reaches its page does.
-/
namespace Sys2Proof.Machine

/-! ### Where pages lie (R66) -/

/-- The bases `pageOf` compares with. -/
theorem pageBases : pgClk = 0x10000 ∧ pgEpc = 0x20000 ∧ pgFtr = 0x30000 ∧ pgHif = 0x40000 ∧ pgMbx = 0x80000 ∧ pgCph = 0xC0000 ∧
    pgQnc = 0x100000 ∧ pgPmc = 0x140000 ∧ pgRas = 0x180000 ∧ pgCsc = 0x1C0000 ∧ pgTmb = 0x800000 := by decide

theorem pageOf_ring {r o : Nat} (hr : r < 60) (ho : o < 0x1000) : pageOf (pgRing r + o) = some ⟨.ring, r, pgRing r⟩ := by
  unfold pageOf
  have hb := pageBases
  have h0 : pgRing r = 0x0044000 + r * 0x1000 := rfl
  repeat rw [if_neg (by omega)]
  rw [if_pos (by omega)]
  have e : (pgRing r + o - pgHif) / 0x1000 = r + 4 := by omega
  rw [e, if_neg (by omega)]
  simp only [Nat.add_sub_cancel, Option.some.injEq, Page.mk.injEq, true_and]
  omega

theorem pageOf_mbxCh {c o : Nat} (hc : c < 16) (ho : o < 0x1000) : pageOf (pgMbxCh c + o) = some ⟨.mbxch, c, pgMbxCh c⟩ := by
  unfold pageOf
  have hb := pageBases
  have h0 : pgMbxCh c = 0x0081000 + c * 0x1000 := rfl
  repeat rw [if_neg (by omega)]
  rw [if_pos (by omega)]
  have e : (pgMbxCh c + o - pgMbx) / 0x1000 = c + 1 := by omega
  rw [e, if_neg (by omega)]
  simp only [Nat.add_sub_cancel, Option.some.injEq, Page.mk.injEq, true_and]
  omega

theorem pageOf_cphU {u o : Nat} (hu : u < 64) (ho : o < 0x800) : pageOf (pgCphU u + o) = some ⟨.cphu, u, pgCphU u⟩ := by
  unfold pageOf
  have hb := pageBases
  have h0 : pgCphU u = 0x00C1000 + u * 0x800 := rfl
  repeat rw [if_neg (by omega)]
  rw [if_pos (by omega), if_neg (by omega)]
  have e : (pgCphU u + o - (pgCph + 0x1000)) / 0x800 = u := by omega
  simp only [e]

theorem pageOf_eth {g i o : Nat} (hg : g < 32) (hi : i < 4) (ho : o < 0x1000) :
    pageOf (pgEth g i + o) = some ⟨ethKind i, g, pgEth g i⟩ := by
  unfold pageOf
  have hb := pageBases
  have h0 : pgEth g i = 0x0200000 + (4 * g + i) * 0x1000 := rfl
  repeat rw [if_neg (by omega)]
  rw [if_pos (by omega)]
  have e : (pgEth g i + o - 0x0200000) / 0x1000 = 4 * g + i := by omega
  have e1 : (4 * g + i) % 4 = i := by omega
  have e2 : (4 * g + i) / 4 = g := by omega
  simp only [e, e1, e2]
  rw [h0]

theorem pageOf_fmc {st i o : Nat} (hs : st < 4) (hi : i < 16) (ho : o < 0x1000) :
    pageOf (pgFmc st i + o) = some ⟨fmcKind i, if fmcKind i = .fmcpc then 8 * st + (i - 1) else st, pgFmc st i⟩ := by
  unfold pageOf
  have hb := pageBases
  have h0 : pgFmc st i = 0x0400000 + (16 * st + i) * 0x1000 := rfl
  repeat rw [if_neg (by omega)]
  rw [if_pos (by omega)]
  have e : (pgFmc st i + o - 0x0400000) / 0x1000 = 16 * st + i := by omega
  have e1 : (16 * st + i) % 16 = i := by omega
  have e2 : (16 * st + i) / 16 = st := by omega
  simp only [e, e1, e2]
  rw [h0]

theorem pageOf_tmbP {n o : Nat} (hn : n < 128) (ho : o < 0x1000) : pageOf (pgTmbP n + o) = some ⟨.tmbp, n, pgTmbP n⟩ := by
  unfold pageOf portPage
  have hb := pageBases
  have h0 : pgTmbP n = 0x0800000 + (1 + n) * 0x1000 := rfl
  repeat rw [if_neg (by omega)]
  rw [if_pos (by omega)]
  have e : (pgTmbP n + o - pgTmb) / 0x1000 = n + 1 := by omega
  simp only [e]
  repeat rw [if_neg (by omega)]
  rw [if_pos (by omega)]
  simp only [Nat.add_sub_cancel, Option.some.injEq, Page.mk.injEq, true_and]
  omega

/-! ### Writes -/

/-- A page outside the pipelines is not counted as pipeline fabric traffic (R362). -/
theorem State.fabCount_none (s : State) {a : Nat} (m : Nat) (w : Bool) (h : pipeOfAddr a = none) : s.fabCount m a w = s := by
  simp [State.fabCount, h]

theorem State.fabErr_none (s : State) {a : Nat} (m b : Nat) (f : State → State) (h : pipeOfAddr a = none) :
    s.fabErr m a b f = f s := by simp [State.fabErr, h]

/-- A write whose page takes it, at a register above the header outside the pipelines and mailboxes, is the page's own. -/
theorem State.fabricWrite_body {s : State} {m a v : Nat} {pg : Page} {h : Hit} (ht : s.takesWrite m a = true)
    (hp : pageOf a = some pg) (hk : pg.kind ≠ .mbxch) (hh : pg.kind.regAt (a - pg.base) = some h) (ho : 0x040 ≤ a - pg.base)
    (hn : pipeOfAddr a = none) : s.fabricWrite m a v = s.wBody pg h (a - pg.base) m v := by
  simp only [State.takesWrite, hp, Bool.and_eq_true, Bool.not_eq_true', beq_iff_eq] at ht
  obtain ⟨⟨h1, h2⟩, h3⟩ := ht
  have ho' : ¬ (a - pg.base < 0x040) := by omega
  unfold State.fabricWrite
  simp only [hp, h1, Bool.false_eq_true, if_false]
  rw [if_neg (by omega), State.fabCount_none _ _ _ hn, State.fabErr_none _ _ _ _ hn]
  unfold State.wPage
  simp only [h2, Bool.not_true, Bool.false_eq_true, if_false, h3, hh, hk, false_and, ho']
  simp

/-- The same for a register of a mailbox channel that the master may write. -/
theorem State.fabricWrite_mbx {s : State} {m a v : Nat} {pg : Page} {h : Hit} (ht : s.takesWrite m a = true)
    (hp : pageOf a = some pg) (hk : pg.kind = .mbxch) (hh : pg.kind.regAt (a - pg.base) = some h) (ho : 0x040 ≤ a - pg.base)
    (hn : pipeOfAddr a = none) (hm : s.io.mbxMay pg.idx m (a - pg.base) = true) :
    s.fabricWrite m a v = s.upIo fun io => io.mbxWrite pg.idx m (a - pg.base) v := by
  simp only [State.takesWrite, hp, Bool.and_eq_true, Bool.not_eq_true', beq_iff_eq] at ht
  obtain ⟨⟨h1, h2⟩, h3⟩ := ht
  have ho' : ¬ (a - pg.base < 0x040) := by omega
  unfold State.fabricWrite
  simp only [hp, h1, Bool.false_eq_true, if_false]
  rw [if_neg (by omega), State.fabCount_none _ _ _ hn, State.fabErr_none _ _ _ _ hn]
  rw [hk] at h2 hh
  unfold State.wPage
  simp only [hk, h2, Bool.not_true, Bool.false_eq_true, if_false, h3, hh, true_and, hm, ho', if_true]
  simp

/-- A write below 0x040 of a page that is READY goes to the common header. -/
theorem State.fabricWrite_head {s : State} {m a v : Nat} {pg : Page} {h : Hit} (hp : pageOf a = some pg)
    (hs : s.stranger pg m = false) (hr : s.io.ready pg.kind = true) (hk : pg.kind ≠ .mbxch)
    (hh : pg.kind.regAt (a - pg.base) = some h) (ho : a - pg.base < 0x040) (hn : pipeOfAddr a = none) :
    s.fabricWrite m a v = s.wHead pg (a - pg.base) v := by
  unfold State.fabricWrite
  simp only [hp, hs, Bool.false_eq_true, if_false]
  have ho' : ¬ (0x040 ≤ a - pg.base) := by omega
  have e : ∀ t : State, t.io.ready pg.kind = true → t.wPage pg (a - pg.base) m v = t.wHead pg (a - pg.base) v := by
    intro t ht
    unfold State.wPage
    simp only [ht, Bool.not_true, Bool.false_eq_true, if_false, ho', false_and, hh, hk, ho, if_true]
  split
  · rw [State.fabCount_none _ _ _ hn, e s hr]
  · rw [State.fabCount_none _ _ _ hn, State.fabErr_none _ _ _ _ hn, e s hr]

/-- An access to an address in no page is counted and nothing else (R68). -/
theorem State.fabricWrite_hole {s : State} {m a v : Nat} (hp : pageOf a = none) : s.fabricWrite m a v = s.unmapped := by
  simp [State.fabricWrite, hp]

theorem State.fabricRead_hole {s : State} {m a : Nat} (hp : pageOf a = none) : s.fabricRead m a = (0, s.unmapped) := by
  simp [State.fabricRead, hp]

end Sys2Proof.Machine
end

