-- ==== Sys2Proof/Laws/Memory.lean ====
section
/-!
SUPPORT. The operations that write the registers, the layer 2 tables and the DRAM: a read after a write, what a write leaves
alone, and that each keeps the canonical form.
-/
namespace Sys2Proof.Machine

/-! ### DRAM -/

@[simp] theorem State.mem_setArray (s : State) (pc la : Nat) (v : Line) :
    (s.setArray pc la v).fmc.mem = s.fmc.mem.set 0 (s.cell pc la) v := rfl

theorem State.cell_congr {s t : State} (h : t.io = s.io) (pc la : Nat) : t.cell pc la = s.cell pc la := by
  unfold State.cell State.rowMap
  rw [h]

/-- A line read after a write to the cell it lies in is what was written. -/
theorem State.array_setArray (s : State) (pc la : Nat) (v : Line) : (s.setArray pc la v).array pc la = v := by
  unfold State.array
  rw [State.cell_congr (s := s) (t := s.setArray pc la v) rfl, State.mem_setArray, SMap.get_set s.fmc.mem (fun _ => 0)]
  simp

/-- A write to one cell leaves the lines of other cells. -/
theorem State.array_setArray_ne (s : State) {pc la p a : Nat} (v : Line) (h : s.cell p a ≠ s.cell pc la) :
    (s.setArray pc la v).array p a = s.array p a := by
  unfold State.array
  rw [State.cell_congr (s := s) (t := s.setArray pc la v) rfl, State.mem_setArray, SMap.get_set_ne _ _ _ _ h]

theorem Memory.wf_set {m : SMap Line} (k : Nat) (v : Line) (h : Memory.wf m = true) : Memory.wf (m.set 0 k v) = true :=
  SMap.wf_set (d := fun _ => 0) h

theorem State.wf_setArray (s : State) (pc la : Nat) (v : Line) (h : Memory.wf s.fmc.mem = true) :
    Memory.wf (s.setArray pc la v).fmc.mem = true := Memory.wf_set _ _ h

/-! ### The layer 2 tables -/

theorem State.l2_setL2 (s : State) (p i : Nat) (e : BitVec 80) : (s.setL2 p i e).fwd.l2 = s.fwd.l2.set 0 (65536 * p + i) e := rfl

theorem State.l2At_setL2 (s : State) (p i : Nat) (e : BitVec 80) : (s.setL2 p i e).l2At p i = e := by
  unfold State.l2At
  rw [State.l2_setL2, SMap.get_set s.fwd.l2 (fun _ => 0)]
  simp

theorem State.l2At_setL2_ne (s : State) {p i q j : Nat} (e : BitVec 80) (h : 65536 * q + j ≠ 65536 * p + i) :
    (s.setL2 p i e).l2At q j = s.l2At q j := by
  unfold State.l2At
  rw [State.l2_setL2, SMap.get_set_ne _ _ _ _ h]

theorem State.wf_setL2 (s : State) (p i : Nat) (e : BitVec 80) (h : s.fwd.l2.wf (fun _ => 0) = true) :
    (s.setL2 p i e).fwd.l2.wf (fun _ => 0) = true := SMap.wf_set (d := fun _ => 0) h

/-! ### Registers -/

theorem Io.wf_wr (s : Io) (a : Nat) (v : W32) (h : s.regs.wf resetWord = true) : (s.wr a v).regs.wf resetWord = true :=
  SMap.wf_set h

/-- Each of the three stays canonical where it is as before. -/
theorem State.canonical_congr {s t : State} (h1 : t.io.regs = s.io.regs) (h2 : t.fwd.l2 = s.fwd.l2) (h3 : t.fmc.mem = s.fmc.mem)
    (h : s.canonical = true) : t.canonical = true := by
  unfold State.canonical at *
  rw [h1, h2, h3]
  exact h

end Sys2Proof.Machine
end

