-- ==== Sys2Proof/WellFormed.lean ====
section
/-!
DEFINITION. Which commands are well formed: the conditions on operands that their types do not carry.
-/
namespace Sys2Proof

/-- A register address is aligned to 4 B (R13). -/
def aligned (a : Nat) : Bool := a % 4 == 0

/-- The base of a page of R66. -/
def isPage (a : Nat) : Bool :=
  match Machine.pageOf a with
  | none => false
  | some pg => pg.base == a

/-- The base of a page that has banks (R47). -/
def isShadowed (a : Nat) : Bool :=
  match Machine.pageOf a with
  | none => false
  | some pg => pg.base == a && pg.kind.shadowed

/-- A word of a 64-bit counter (R356). -/
def isCounter (a : Nat) : Bool :=
  match Machine.pageOf a with
  | none => false
  | some pg => ((pg.kind.regAt (a - pg.base)).map fun h => h.row.ctr).getD false

/-- An entry of the arrays that the scan walks (R132, R145, R141): parts of eight pipelines, or four LPM banks. -/
def inArray (k : ArrayKind) (part index : Nat) : Bool :=
  match k with
  | .cls => part < 8 && index < 16384
  | .l2 => part < 8 && index < 65536
  | .lpm => part < 4 && index < 131072

/-- A context that the sequencer has (R233). -/
def hasCtx (q : Seq) (c : Nat) : Bool := if q.val = 8 then c < 8 else c < 32

/-- The operands of a command are ones that the command can have. -/
def wellFormed (i : Instr) : Bool :=
  match i with
  | .registerWrite _ addr _ _ => aligned addr.toNat
  | .badSizeAccess _ addr size _ => !(aligned addr.toNat && (size == 4 || size == 8))
  | .unmappedAccess _ addr _ => (Machine.pageOf addr.toNat).isNone
  | .softRst _ page => isPage page.toNat
  | .softResetDone page => isPage page.toNat
  | .irqForce _ page _ => isPage page.toNat
  | .irqRearm _ _ => true
  | .msixResume _ _ => true
  | .semRead _ _ => true
  | .semRelease _ _ _ => true
  | .semForce _ _ => true
  | .ringConfigWrite _ _ _ _ => true
  | .ringModTimer _ => true
  | .ringDmaFail _ => true
  | .hostTxEntry _ _ => true
  | .hostTxFrameFetched _ _ => true
  | .hostRxDeliver posted cells => decide (posted.length ≤ 16) && cells.all (·.1 < 393216)
  | .featCommit _ => true
  | .perstNAssert => true
  | .functionLevelReset => true
  | .mgmtRstNAssert => true
  | .sysRstMgmt _ => true
  | .managementReset => true
  | .managementResetEnd => true
  | .powerOnReset => true
  | .chipRstNAssert => true
  | .coldResetRelease _ => true
  | .strapSample _ => true
  | .bootStepComplete _ _ _ headsBad => decide (headsBad ≤ 2)
  | .thermalTrip _ _ => true
  | .supplyFault _ => true
  | .stopPersist => true
  | .stopHalt => true
  | .thermWarn _ _ => true
  | .referenceLoss => true
  | .referenceReturn => true
  | .loopRelock => true
  | .holdoverEnd => true
  | .lockLost => true
  | .droopTrip _ _ => true
  | .divisorReturn _ sagsMv => sagsMv.length == 32
  | .stretchLimit _ => true
  | .timeStepRelative _ => true
  | .timeStepAbsolute _ => true
  | .timeNsRead _ => true
  | .boundaryEvent => true
  | .heldBoundary => true
  | .drainComplete page => isShadowed page.toNat
  | .shadowCopyDone page => isShadowed page.toNat
  | .commitGo _ => true
  | .commitAbort _ => true
  | .shadowArm _ page _ => isShadowed page.toNat
  | .groupApply _ _ _ => true
  | .linkUp _ _ => true
  | .linkDown _ _ _ _ _ => true
  | .ltFail _ => true
  | .linkHoldExpire _ => true
  | .frameReceive _ frame _ => decide (4 ≤ frame.length)
  | .pauseReceive _ pfc _ quanta => quanta.length == (if pfc then 8 else 1)
  | .pauseTimerExpire _ _ => true
  | .xoffResend _ => true
  | .pfcWatchdog _ _ => true
  | .pfcWdRecover _ _ => true
  | .fecDegradeWindow _ _ _ _ => true
  | .txtsPop _ _ _ => true
  | .ppsOutPulse => true
  | .ppsOutEnd => true
  | .ppsInEdge _ => true
  | .passAdmit _ => true
  | .flowReadReturn _ _ _ => true
  | .cacheInstall _ _ _ => true
  | .cacheClean _ => true
  | .learnTake _ => true
  | .l2AgeVisit _ _ => true
  | .flapWindowEnd _ => true
  | .arrayScanVisit kind part index _ strikes => inArray kind part index && strikes.all fun e => inArray kind part e.1
  | .clsRead _ => true
  | .clsWrite _ => true
  | .clsDelete _ => true
  | .clsSearch _ => true
  | .clsMove _ => true
  | .searchProfileRead _ => true
  | .searchProfileWrite _ => true
  | .actionProfileRead _ => true
  | .actionProfileWrite _ => true
  | .actionProfileDelete _ => true
  | .templateWrite _ => true
  | .l2Read _ => true
  | .l2Write _ => true
  | .l2Delete _ => true
  | .l2Flush _ => true
  | .l2ReadAt _ => true
  | .lpmWrite _ => true
  | .lpmDelete _ => true
  | .lpmRead _ => true
  | .lpmSearch _ => true
  | .flowRead _ _ => true
  | .flowWrite _ _ => true
  | .flowDelete _ _ => true
  | .flowSearch _ _ => true
  | .flowWalk _ => true
  | .flowReadBucket _ _ => true
  | .accountRead _ _ => true
  | .accountWrite _ => true
  | .accountDelete _ => true
  | .readMap _ => true
  | .writeMap _ => true
  | .lbSlotsRead _ => true
  | .lbSlotsWrite _ => true
  | .writeMember _ => true
  | .setState _ => true
  | .lbWritePool _ => true
  | .readMember _ => true
  | .readPool _ => true
  | .natWritePool _ => true
  | .natSearch _ => true
  | .readBlock _ => true
  | .writeAddr _ => true
  | .writePrefix _ => true
  | .zoneTimeoutRead _ => true
  | .zoneTimeoutWrite _ => true
  | .claimStart => true
  | .claimReadReturn => true
  | .claimHalvesAccepted => true
  | .claimHeaderAccepted => true
  | .relocNewAccepted => true
  | .fenceClose => true
  | .stashDrain _ => true
  | .stashPlaceAccepted => true
  | .removalStart => true
  | .removalWaitEnd => true
  | .removalFinalRead _ => true
  | .agingWalkVisit _ => true
  | .routineStart _ => true
  | .microwordIssue seq ctx _ => hasCtx seq ctx.val
  | .memResponse seq ctx _ _ => hasCtx seq ctx.val
  | .waitSatisfied seq ctx => hasCtx seq ctx.val
  | .contextTimerExpire seq ctx => hasCtx seq ctx.val
  | .lockGrant seq ctx => hasCtx seq ctx.val
  | .commitAccepted seq ctx => hasCtx seq ctx.val
  | .deadlineFault _ _ _ => true
  | .sliceFault seq ctx => hasCtx seq ctx.val
  | .pipStop _ _ => true
  | .pipResume _ _ => true
  | .pipLoadGo _ _ => true
  | .pipLoadChecked _ _ _ => true
  | .pipInstall _ => true
  | .nanoRefetchDone seq ctx _ _ => hasCtx seq ctx.val
  | .dramCommandIssue _ _ _ => true
  | .dramWriteAccept _ => true
  | .dramReadComplete _ _ => true
  | .refreshDue _ _ _ faults => faults.all fun e => e.1 < 8388608
  | .retrainStart _ _ => true
  | .retrainEnd _ _ _ => true
  | .pcFreeze _ _ => true
  | .pcRelease _ _ => true
  | .releaseRetrainDone _ => true
  | .repairEntry _ _ => true
  | .rowRetire _ _ _ _ _ => true
  | .pcRetire _ _ _ => true
  | .rebuildLine _ _ => true
  | .rebuildDone _ => true
  | .diagRead _ _ _ => true
  | .diagWrite _ _ _ => true
  | .diagDone _ _ => true
  | .scrubRead => true
  | .bwWindowEnd _ => true
  | .txFrameStart _ => true
  | .txFrameDone _ cells => cells.all (·.1 < 393216)
  | .qFlush _ _ _ => true
  | .watermarkWrite _ _ _ => true
  | .tokenRefill => true
  | .gateChange _ => true
  | .listStart _ => true
  | .messageFlush => true
  | .templateSend _ _ => true
  | .templateRefresh => true
  | .startRecordRead _ => true
  | .snapshotPeriodic _ => true
  | .snapNow _ _ => true
  | .elephantWindowEnd => true
  | .counterLowRead _ addr => isCounter addr.toNat && addr.toNat % 8 == 0
  | .counterHighRead _ addr => isCounter addr.toNat && addr.toNat % 8 == 4
  | .counterPreset _ => true
  | .filterCfgWrite _ _ _ _ => true
  | .pmcWindowEnd => true
  | .sweepVisit _ => true
  | .sweepColdRead _ => true
  | .sweepRolledAccepted => true
  | .finalRoll _ => true
  | .lostRecordRead _ => true
  | .closeEntryRead _ _ => true
  | .blockTagged => true
  | .headPersisted => true
  | .blockToRing _ => true
  | .alivePersist => true
  | .keyLoad _ => true
  | .keyUnwrapDone => true
  | .cphBind _ _ _ => true
  | .cphViolation _ _ _ _ => true
  | .cphKeyLoad _ _ => true
  | .cphKeyLoadDone _ => true
  | .zeroize _ _ => true
  | .cphJobGo _ _ => true
  | .cphJobAbort _ _ _ _ => true
  | .engineGrant _ => true
  | .segmentDone _ _ _ => true
  | .rngFail => true
  | .rngRecover => true
  | .mbxBindWrite _ _ _ => true
  | .mbxViolation _ _ _ _ => true
  | .mbxPost _ _ _ => true
  | .mbxTake _ _ => true
  | .mbxAckWrite _ _ _ => true
  | .doorbellSet _ _ _ => true
  | .doorbellClear _ _ _ => true
  | .doorbellMaskWrite _ _ _ => true
  | .mbxDeclareReset _ => true
  | .stackLinkUp _ _ _ => true
  | .stackLinkDown _ => true
  | .stackFrameRx _ _ => true
  | .steerRx _ => true
  | .dataRx _ => true
  | .helloRx _ => true
  | .helloSend => true
  | .timeRx _ => true
  | .timeSend => true
  | .delayReqRx _ => true
  | .delayReqSend => true
  | .delayRespRx _ => true
  | .prepareSend => true
  | .prepareRx _ => true
  | .preparedRx _ => true
  | .refusedRx _ => true
  | .decideSend => true
  | .decideRx _ => true
  | .timeLost => true
  | .peerLiveExpire _ => true
  | .handback _ => true
  | .cascEpochEdge _ => true
  | .cascEpochRelease => true
  | .rmtGo _ _ => true
  | .rmtReqRx _ => true
  | .rmtRspRx _ => true
  | .rmtTimeout => true
  | .sramScrub _ _ _ _ _ => true
  | .errorLogWritten => true
  | .fwLoad _ => true
  | .fwCheckDone image _ => decide (image.length ≤ 4194304)
  | .fwProgramDone _ => true
  | .fwYield _ => true
  | .yieldTimeout => true
  | .fwWarmStart => true
  | .fwAlive _ _ => true
  | .fwWdogExpire _ => true
  | .mcKick _ _ => true
  | .mcWdogExpire => true
  | .inlineWrite _ _ => true
  | .avsWrite _ _ => true
  | .i2cTransaction _ _ => true
  | .pcieLinkDown => true
  | .pcieLinkUp _ _ => true
  | .perstNDeassert => true
  | .configWrite _ => true
  | .stackFrameTx _ cells => cells.all (·.1 < 393216)
  | .ledTimerExpire _ => true

end Sys2Proof
end

