-- ==== Sys2Proof/Tests/Slice0.lean ====
section
/-!
SUPPORT. The model's own tests: what WellFormed refuses; states that meet the hypotheses of the statements, clause by clause at
the ends of their ranges; and single steps with results worked out from the spec.
-/
namespace Sys2Proof.Tests
open Sys2Proof.Machine

-- One theorem after the other: elaborated side by side, the evaluations hold more memory than the check allows.
set_option Elab.async false

/-! ### WellFormed -/

theorem test_wf_aligned : wellFormed (.registerWrite .host 2#26 0 false) = false := by decide
theorem test_wf_bad_size : wellFormed (.badSizeAccess .host 4#26 8 true) = false ∧ wellFormed (.badSizeAccess .host 2#26 4 true) = true := by decide
theorem test_wf_unmapped : wellFormed (.unmappedAccess .host 0#26 true) = false ∧ wellFormed (.unmappedAccess .host 0x2000#26 true) = true := by
  decide
theorem test_wf_page : wellFormed (.softRst .host 0x40#26) = false ∧ wellFormed (.softResetDone 0x40#26) = false ∧
    wellFormed (.irqForce .host 0x40#26 1) = false ∧ wellFormed (.softRst .host 0#26) = true := by decide
theorem test_wf_shadowed : wellFormed (.shadowArm .host 0#26 true) = false ∧ wellFormed (.drainComplete 0#26) = false ∧
    wellFormed (.shadowCopyDone 0#26) = false ∧ wellFormed (.shadowArm .host (BitVec.ofNat 26 (pgCls 7)) true) = true := by decide
theorem test_wf_posted : wellFormed (.hostRxDeliver (List.replicate 17 []) []) = false ∧
    wellFormed (.hostRxDeliver [] [(393216, true)]) = false ∧ wellFormed (.hostRxDeliver (List.replicate 16 []) [(393215, true)]) = true := by decide
theorem test_wf_heads : wellFormed (.bootStepComplete 0 [] [] 3) = false := by decide
theorem test_wf_sags : wellFormed (.divisorReturn 0 (List.replicate 31 0)) = false := by decide
theorem test_wf_frame : wellFormed (.frameReceive 0 [0, 0, 0] false) = false := by decide
theorem test_wf_quanta : wellFormed (.pauseReceive 0 true 1 [0]) = false ∧ wellFormed (.pauseReceive 0 false 1 [0]) = true := by decide
theorem test_wf_array : wellFormed (.arrayScanVisit .cls 7 16384 true []) = false ∧ wellFormed (.arrayScanVisit .lpm 4 0 true []) = false ∧
    wellFormed (.arrayScanVisit .l2 7 65535 true []) = true ∧ wellFormed (.arrayScanVisit .l2 7 0 false [(65536, 1)]) = false := by decide
theorem test_wf_cells : wellFormed (.txFrameDone 0 [(393216, true)]) = false ∧ wellFormed (.stackFrameTx 0 [(393216, true)]) = false ∧
    wellFormed (.txFrameDone 0 [(393215, true)]) = true := by decide
theorem test_wf_faults : wellFormed (.refreshDue 0 0 0 [(8388608, .bad 0)]) = false ∧ wellFormed (.refreshDue 0 0 0 []) = true := by decide
theorem test_wf_image : ∀ l : List Byte, l.length = 4194305 → wellFormed (.fwCheckDone l true) = false := by
  intro l h; simp [wellFormed, h]
theorem test_wf_context : wellFormed (.microwordIssue 8 8 .fetched) = false ∧ wellFormed (.microwordIssue 7 31 .fetched) = true ∧
    wellFormed (.memResponse 8 8 0 []) = false ∧ wellFormed (.waitSatisfied 8 8) = false ∧ wellFormed (.contextTimerExpire 8 8) = false ∧
    wellFormed (.lockGrant 8 8) = false ∧ wellFormed (.commitAccepted 8 8) = false ∧ wellFormed (.sliceFault 8 8) = false ∧
    wellFormed (.nanoRefetchDone 8 8 0 true) = false := by decide
theorem test_wf_counter : wellFormed (.counterLowRead .host 0#26) = false ∧
    wellFormed (.counterLowRead .host (BitVec.ofNat 26 (pgPmc + PMC_CYCLES.COUNT.off))) = true ∧
    wellFormed (.counterHighRead .host (BitVec.ofNat 26 (pgPmc + PMC_CYCLES.COUNT.off))) = false ∧
    wellFormed (.counterHighRead .host (BitVec.ofNat 26 (pgPmc + PMC_CYCLES.COUNT.off + 4))) = true := by decide

/-! ### States -/

/-- A device that has booted. -/
def up : State := State.reset.put pgSys SYS_BOOT_STAT.STEP 8

/-- A booted device with these features active. -/
def feat (v : Nat) : State := up.upIo fun io => io.wr (pgFtr + 0x060) (BitVec.ofNat 32 v)

/-- A booted device with these register fields set. -/
def regs (l : List (Nat × Fld × Nat × Nat)) : State := l.foldl (fun s e => s.put e.1 e.2.1 e.2.2.1 e.2.2.2) up

/-- The device in another phase. -/
def inPhase (p : Phase) : State := { up with io := { up.io with sys := { up.io.sys with phase := p } } }

/-! ### The block as a whole -/

theorem witness_step_takes_the_front :
    ({ up with pending := [.rngFail] } : State).pending = [.rngFail] ∧ up.pending = [] ∧ up.io.sys.phase = .running ∧
    (inPhase .held).io.sys.phase = .held ∧ (inPhase .halted).io.sys.phase = .halted ∧ (inPhase .stopping).pending = [] := by decide
theorem witness_every_step_answers : (inPhase .halted).io.sys.phase = .halted ∧ Instr.rngFail ≠ .perstNAssert := by decide
theorem witness_stopped_stays :
    (inPhase .halted).stopped = true ∧ Instr.powerOnReset ∉ (inPhase .halted).pending ∧ step (inPhase .halted) = .next (inPhase .halted) :=
  ⟨by decide, by decide, rfl⟩
theorem witness_stores_canonical : up.canonical = true ∧ step (inPhase .halted) = .next (inPhase .halted) := ⟨by decide, rfl⟩

/-! ### The register fabric and the host interface -/

theorem witness_register_access :
    up.takesWrite Master.host.id (pgClk + CLK_DROOP_CFGn.EN.off) = true ∧
    pageOf (pgClk + CLK_DROOP_CFGn.EN.off) = some ⟨.clk, 0, pgClk⟩ ∧
    (Kind.clk.regAt CLK_DROOP_CFGn.EN.off).isSome = true ∧ 0x040 ≤ CLK_DROOP_CFGn.EN.off ∧ pageOf 0x2000 = none ∧
    up.stranger ⟨.clk, 0, pgClk⟩ Master.host.id = false ∧ pipeOfAddr pgClk = none := by decide
theorem witness_page_header :
    pageOf pgEpc = some ⟨.epc, 0, pgEpc⟩ ∧ up.stranger ⟨.epc, 0, pgEpc⟩ 1 = false ∧ up.io.ready .epc = true ∧
    up.get pgEpc PG_STAT.RST_BUSY = 0 ∧ (regs [(pgEpc, PG_STAT.RST_BUSY, 1, 0)]).get pgEpc PG_STAT.RST_BUSY = 1 ∧
    (∀ pg ∈ ([⟨.l2t, 7, pgL2t 7⟩, ⟨.eth3, 31, pgEth 31 3⟩, ⟨.ring, 59, pgRing 59⟩] : List Page), pageOf pg.base = some pg ∧
      (regs [(pg.base, PG_STAT.RST_BUSY, 1, 0)]).on = true ∧ (regs [(pg.base, PG_STAT.RST_BUSY, 1, 0)]).get pg.base PG_STAT.RST_BUSY = 1) := by decide
/-- Ring 0 has a cause raised and enabled, and vector 32 carries it; the function may send messages when `b`, and the vector is unmasked. -/
def irqState (b : Bool) : State :=
  let io := ((up.io.wr (pgRing 0 + 0x10) 1#32).wr (pgRing 0 + 0x14) 1#32).wr (pgSys + 0x054) 1#32
  { up with io := { io with pcie := { io.pcie with linkUp := true, bme := true, msixEn := b, vecMask := 0, pend := BitVec.allOnes 64 } } }
theorem witness_messages :
    (irqState true).on = true ∧ (irqState true).takesWrite 1 (pgSys + SYS_IRQ_REARM.REARM.off) = true ∧ (irqState true).io.mayMsix = true ∧
    (irqState false).io.mayMsix = false ∧ (∃ n : Fin 64, (irqState true).io.level n.val = true ∧ (irqState false).io.level n.val = true ∧
      tb (irqState true).io.pcie.vecMask n.val = false ∧ tb (irqState true).io.pcie.pend n.val = true) ∧
    (BitVec.allOnes 64).toNat.testBit 63 = true ∧ tb up.io.pcie.vecMask 63 = true := by decide +kernel
theorem witness_semaphore :
    up.io.ready .sys = true ∧ up.get pgSys PG_STAT.RST_BUSY = 0 ∧ up.get pgSys SYS_SEMn.HOLDER 31 = 0 ∧
    (regs [(pgSys, SYS_SEMn.HOLDER, 1, 31)]).get pgSys SYS_SEMn.HOLDER 31 = Master.host.id ∧
    (regs [(pgSys, SYS_SEMn.HOLDER, 0x11, 0)]).get pgSys SYS_SEMn.HOLDER 0 = 0x11 ∧ Master.host.id ≠ 0x11 ∧
    up.takesWrite 1 pgSys = true ∧ up.takesWrite 0x11 pgSys = true := by decide
/-- A management reset is asked for, or in progress. -/
def mgmt (p a : Bool) : State := { up with io := { up.io with sys := { up.io.sys with mgmtPending := p, mgmtActive := a } } }
/-- The phases in which each reset frees locks. -/
theorem witness_semaphore_resets :
    (inPhase .held).io.sys.phase = .held ∧ (mgmt true false).on = true ∧ (mgmt true false).io.sys.mgmtPending = true ∧
    (mgmt true false).io.sys.mgmtActive = false ∧ (mgmt true false).io.sysReady = true ∧ up.on = true := by decide
theorem witness_ring_control :
    up.on = true ∧ up.takesWrite 1 (pgRing 59) = true ∧ up.get (pgRing 59) RING_CTL.EN = 0 ∧ (0x1000#32).toNat % 4096 = 0 ∧
    6 ≤ (16#32).toNat % 32 ∧ (regs [(pgRing 0, RING_CTL.EN, 1, 0)]).get (pgRing 0) RING_CTL.EN = 1 ∧
    (1#32) ≠ (regs [(pgRing 0, RING_CTL.EN, 1, 0)]).io.rd (pgRing 0 + 0x044) := by decide
def modState : State := { regs [(pgRing 0, RING_CTL.MOD_US, 1, 0)] with io := { (regs [(pgRing 0, RING_CTL.MOD_US, 1, 0)]).io with modCnt := [(0, 1)] } }
theorem witness_ring_moderation :
    modState.get (pgRing 0) RING_CTL.MOD_US ≠ 0 ∧ modState.io.modCnt.get 0 0 ≠ 0 ∧ modState.io.cause (pgRing 0) 0 = false := by decide
/-- Host transmit ring 16 with one entry waiting. -/
def txState : State :=
  let s := regs [(pgRing 16, RING_CTL.EN, 1, 0), (pgRing 16, RING_SIZE.LOG2, 6, 0), (pgRing 16, RING_PROD.IDX, 1, 0)]
  { s with io := { s.io with pcie := { s.io.pcie with linkUp := true, bme := true } } }
theorem witness_host_tx :
    txState.on = true ∧ txState.io.ringLive 16 = true ∧ txState.io.ringUsed 16 ≠ 0 ∧ gb (63#128 <<< 64) 64 16 < 64 ∧
    64 ≤ gb (9216#128 <<< 64) 64 16 ∧ gb (9216#128 <<< 64) 64 16 ≤ 9216 ∧ gb (9216#128 <<< 64) 80 16 &&& 0xFFFB = 0 ∧
    tb (9216#128 <<< 64) 82 = false ∧ gb (9216#128 <<< 64) 104 8 ≤ 127 ∧ txState.get pgQnc QNC_LOCKS.DIRECT_TX = 0 := by decide
def fetchState : State := { txState with io := { txState.io with fetch := [(0, [{ ring := 0, addr := 0, len := 64, inject := true, dst := 0 }])] } }
theorem witness_host_fetch : fetchState.io.fetch.get [] 0 = [{ ring := 0, addr := 0, len := 64, inject := true, dst := 0 }] ∧
    fetchState.io.ringLive 16 = true := by decide
/-- Host ring 0 with one posted buffer and a 60 B packet queued for the host. -/
def rxState : State :=
  let s := regs [(pgRing 0, RING_CTL.EN, 1, 0), (pgRing 0, RING_SIZE.LOG2, 6, 0), (pgRing 0, RING_PROD.IDX, 1, 0)]
  { s with io := { s.io with pcie := { s.io.pcie with linkUp := true, bme := true } },
           buf := { s.buf with store := [(1, { bytes := List.replicate 60 0, cells := 1, refs := 1 })], queues := [(1024, [{ pkt := 1, len := 64 }])] } }
theorem witness_host_rx :
    (Drr.pick 16 (fun h => (rxState.rxReady [[(0, 64)]] h).map fun c => wireLen c.len)
      (fun h => rxState.get pgSch SCH_HOSTQ_QUANTUMh.QUANTUM h) 2400 rxState.hostDrr).map Prod.fst = some 0 ∧
    rxState.rxReady [[(0, 64)]] 0 = some { pkt := 1, len := 64 } ∧ (rxState.stored 1).bad = none ∧
    (rxState.head (hostQ 0)).isSome = true ∧
    (({ rxState with buf := { rxState.buf with store := [(1, { bytes := List.replicate 60 0, cells := 1, refs := 1, bad := some 0 })] } } : State).stored 1).bad.isSome = true ∧
    buffersFor (rxState.hostFrame { pkt := 1, len := 64 }).length (rxState.io.ringSize 0 - 1) (rxState.postedOf [[(0, 64)]] 0)
      = some ([(0, 64)], false) := by decide
theorem witness_host_rx_none : ∀ h < 16, up.rxReady [] h = none := by decide
theorem witness_feature_commit :
    up.takesWrite 1 pgFtr = true ∧ ctlMaster Master.host.id = true ∧ ((up.io.featSet 0x050 &&& up.io.featSet 0x040).testBit 0) = false := by
  decide
/-- These features accepted. -/
def accept (v : Nat) : State := up.upIo fun io => io.wr (pgFtr + 0x050) (BitVec.ofNat 32 v)
/-- These features accepted, BASE active and committed. -/
def featActive (v : Nat) : State :=
  (accept v).upIo fun io => { (io.wr (pgFtr + 0x060) 1#32) with featDone := true }
theorem witness_feature_commit_2 :
    (accept 1).io.featSet 0x050 &&& (accept 1).io.featSet 0x040 = 1 ∧ (accept 33).io.featSet 0x050 &&& (accept 33).io.featSet 0x040 = 33 ∧
    (33).testBit 5 = true ∧ (33).testBit 12 = false ∧ (33).testBit 0 = true ∧ (1).testBit 0 = true ∧ (accept 1).io.featDone = false ∧
    (featActive 1).io.featSet 0x050 &&& (featActive 1).io.featSet 0x040 = 1 ∧ (featActive 1).io.featDone = true ∧
    (∀ j : Fin 128, (1).testBit j.val = ((featActive 1).io.featSet 0x060).testBit j.val) ∧
    (featActive 3).io.featSet 0x050 &&& (featActive 3).io.featSet 0x040 = 3 ∧ (3).testBit 1 ≠ ((featActive 3).io.featSet 0x060).testBit 1 ∧
    (featActive 3).takesWrite 1 pgFtr = true := by decide +kernel

/-! ### Resets, boot and the stop sequence -/

theorem witness_boot_and_stop :
    up.on = true ∧ (inPhase .stopping).io.sys.phase = .stopping ∧ State.reset.io.step = 1 ∧ State.reset.io.sys.straps.length < 2 ∧
    State.reset.get pgClk CLK_STAT.REF_PRESENT = 0 ∧ up.io.step = 8 := by decide
/-- A device at boot step `n` with three strap samples and the reference. -/
def boot (n : Nat) : State :=
  let s := (State.reset.put pgSys SYS_BOOT_STAT.STEP n).put pgClk CLK_STAT.REF_PRESENT 1
  { s with io := { s.io with sys := { s.io.sys with straps := [0, 0, 0] } } }
theorem witness_boot_steps :
    (boot 1).io.step = 1 ∧ 3 ≤ (boot 1).io.sys.straps.length ∧ (boot 1).get pgClk CLK_STAT.REF_PRESENT = 1 ∧ (boot 1).io.sys.coldCause ≠ 2 ∧
    (boot 2).io.step = 2 ∧ (boot 3).io.step = 3 ∧ (boot 3).recovering = false ∧
    tb ((boot 3).io.rd (pgSys + SYS_STRAP.STRAPS.off)) 4 = false ∧
    tb (((boot 3).put pgSys SYS_STRAP.STRAPS 16).io.rd (pgSys + SYS_STRAP.STRAPS.off)) 4 = true ∧
    (boot 4).io.step = 4 ∧ (boot 5).io.step = 5 ∧ (boot 7).io.step = 7 := by decide
theorem witness_strap_majority :
    ({ boot 1 with io := { (boot 1).io with sys := { (boot 1).io.sys with straps := [1, 2] } } } : State).io.sys.straps = [1, 2] := by decide
theorem witness_cold_reset : (inPhase .held).io.sys.phase = .held ∧ up.io.sys.phase ≠ .held ∧ up.on = true := by decide
theorem witness_management_reset :
    (inPhase .running).on = true ∧ (mgmt false true).on = true ∧ up.takesWrite 1 pgSys = true ∧
    (mgmt true false).on = true ∧ (mgmt true false).io.sys.mgmtPending = true ∧ (mgmt true false).io.sys.mgmtActive = false ∧
    (mgmt true false).io.sysReady = true ∧ up.io.sys.mgmtPending = false ∧ (mgmt false true).io.sys.mgmtActive = true ∧
    up.takesWrite 0x10 pgSys = true ∧ Master.mcNs ≠ .mcSec := by decide

/-! ### Errors and continuous service -/

/-- The device with these words set aside for reports. -/
def logged (r : List Line) : State := { up with io := { up.io with ras := { up.io.ras with toLog := r } } }
theorem witness_error_reporting :
    up.get pgRas RAS_THERM_CFG.WARN ≤ 105 ∧ up.io.ras.warned.get false 15 = false ∧ 0 < up.get pgRas RAS_THERM_CFG.WARN ∧
    ({ up with io := { up.io with ras := { up.io.ras with warned := [(15, true)] } } } : State).io.ras.warned.get false 15 = true ∧
    (logged [0]).logAllowed = true := by decide
theorem witness_error_log : up.io.ras.toLog = [] ∧ (logged [0]).io.ras.toLog = 0 :: [] := ⟨rfl, rfl⟩
theorem witness_log_full :
    ({ logged [0] with io := { (logged [0]).io with ras := { (logged [0]).io.ras with logRate := (0, 4096) } } } : State).logAllowed = false := by
  decide
theorem witness_scrub :
    up.get pgRas RAS_SCRUB_CFG.EN = 1 ∨ (regs [(pgRas, RAS_SCRUB_CFG.EN, 1, 0)]).get pgRas RAS_SCRUB_CFG.EN = 1 := by decide
theorem witness_scrub_cell :
    ((regs [(pgRas, RAS_SCRUB_CFG.EN, 1, 0)]).get pgRas RAS_SCRUB_CFG.EN = 1 ∧ (rxState.stored 1).refs ≠ 0 ∧ up.feature 5 = false) ∧
    lineValid { st := BitVec.ofNat 32 (2 ^ 26), data := 0 } = true ∧ (regs [(pgRas, RAS_SCRUB_CFG.EN, 0, 0)]).get pgRas RAS_SCRUB_CFG.EN = 0 := by
  decide
/-- A firmware load in progress; its second part when `b`. -/
def loading (b : Bool) : State :=
  { up with io := { up.io with pcie := { up.io.pcie with linkUp := true, bme := true } }, fw := { up.fw with load := some { slot := 1, second := b } } }
/-- A commit is armed that would change the slot. -/
def handover : State :=
  let s := (regs [(pgRas, PG_SHADOW_CTL.ARM, 1, 0)]).upIo fun io => io.bkSet (pgRas + RAS_FW_SEL.SLOT.off) (1 - io.active pgRas) 1#32
  { s with io := { s.io with time := { s.io.time with armed := some 5 } } }
theorem witness_fw_load :
    up.takesWrite 1 (pgRas + RAS_FW_CTL.LOAD.off) = true ∧ up.fw.load = none ∧ up.handoverArmed = false ∧
    handover.handoverArmed = true ∧ handover.takesWrite 1 (pgRas + RAS_FW_CTL.LOAD.off) = true ∧ (loading false).io.mayDma = true ∧
    ({ up with fw := { up.fw with load := some { slot := 1 } } } : State).io.mayDma = false ∧
    (loading false).fw.load.isSome = true ∧ (loading false).io.pcie.linkUp = true ∧ (loading false).fw.load = some { slot := 1 } ∧
    (loading false).recovering = false ∧ (loading true).fw.load = some { slot := 1, second := true } ∧ (loading true).recovering = false ∧
    ((loading true).put pgSys SYS_BOOT_STAT.CODE 2 |>.put pgSys SYS_BOOT_STAT.STEP 3).recovering = true ∧
    ({ loading false with fw := { (loading false).fw with load := some { slot := 1, len := 4194305 } } } : State).fw.load =
      some { slot := 1, len := 4194305 } := by decide
theorem witness_fw_check : fwCheck [] 0 = some 3 := by decide
/-- The management core at a stage of its life. -/
def core (x : FwStage) : State := { up with fw := { up.fw with stage := x } }
theorem witness_fw_handover :
    up.takesWrite 0x10 (pgRas + RAS_FW_CTL.YIELD.off) = true ∧ (core .yield).fw.stage = .yield ∧ (core .halted).fw.stage = .halted ∧
    (core .warm).fw.stage = .warm ∧ (core .boot).fw.stage = .boot ∧ (core .idle).fw.stage = .idle ∧
    up.takesWrite 1 (pgRas + RAS_FW_CTL.YIELD.off) = true ∧ up.fw.alive = false ∧ up.takesWrite 0x11 (pgRas + RAS_FW_WDOG.ALIVE.off) = true ∧
    up.takesWrite 0x11 (pgRas + RAS_MC_WDOG.KICK.off) = true ∧ up.coreOn = true ∧ (core .halted).coreOn = false ∧
    (regs [(pgRas, RAS_MC_WDOG.LIMIT_MS, 1, 0)]).get pgRas RAS_MC_WDOG.LIMIT_MS ≠ 0 := by decide

/-! ### Clocks, the time base, boundaries, commits -/

theorem witness_reference :
    (boot 8).get pgClk CLK_STAT.REF_PRESENT = 1 ∧ State.reset.get pgClk CLK_STAT.REF_PRESENT = 0 ∧
    (regs [(pgClk, CLK_STAT.LOCK, 1, 0)]).get pgClk CLK_STAT.LOCK = 1 ∧ up.get pgClk CLK_STAT.LOCK = 0 ∧
    (boot 8).get pgClk CLK_STAT.HOLDOVER = 0 ∧ (regs [(pgClk, CLK_STAT.HOLDOVER, 1, 0)]).get pgClk CLK_STAT.HOLDOVER = 1 ∧
    (regs [(pgClk, CLK_STAT.REF_PRESENT, 1, 0), (pgClk, CLK_STAT.LOCK, 1, 0)]).get pgClk CLK_STAT.REF_PRESENT = 1 ∧
    (regs [(pgClk, CLK_STAT.REF_PRESENT, 1, 0), (pgClk, CLK_STAT.LOCK, 1, 0)]).get pgClk CLK_STAT.LOCK = 1 := by decide
/-- Droop sensor 31 enabled, levels 10 and 20. -/
def droop : State := regs [(pgClk, CLK_DROOP_CFGn.EN, 1, 31), (pgClk, CLK_DROOP_CFGn.TRIP1, 10, 31), (pgClk, CLK_DROOP_CFGn.TRIP2, 20, 31)]
theorem witness_droop :
    droop.get pgClk CLK_DROOP_CFGn.EN 31 = 1 ∧ droop.get pgClk CLK_DROOP_CFGn.TRIP1 31 = 10 ∧
    droop.get pgClk CLK_DROOP_CFGn.TRIP1 31 < droop.get pgClk CLK_DROOP_CFGn.TRIP2 31 ∧ 2 * droop.get pgClk CLK_DROOP_CFGn.TRIP1 31 ≤ 20 ∧
    19 < 2 * droop.get pgClk CLK_DROOP_CFGn.TRIP1 31 ∧ 19 < 2 * droop.get pgClk CLK_DROOP_CFGn.TRIP2 31 ∧ regionOf 31 = 10 ∧ regionOf 0 ≠ 10 ∧
    (regs [(pgClk, CLK_DROOP_CFGn.EN, 0, 0)]).get pgClk CLK_DROOP_CFGn.EN 0 = 0 := by decide
/-- Region 9 stretched. -/
def stretched : State := { up with io := { up.io with clk := { up.io.clk with div := [(9, 10)] } } }
theorem witness_stretch :
    up.io.div 10 = 8 ∧ up.io.div 9 = 8 ∧ stretched.io.div 9 = 10 ∧ stretched.io.recovered 9 (fun k => [].getD k 0) = true ∧
    (sensorsOf 9).all (fun n => (((stretched.put pgClk CLK_DROOP_CFGn.EN 1 n).put pgClk CLK_DROOP_CFGn.TRIP1 10 n).put pgClk CLK_DROOP_CFGn.TRIP2 20 n).io.recovered
      9 (fun k => (List.replicate 32 40).getD k 0) == false) = true := by decide
/-- The last nanosecond the time base can show, and a step of 1 ns. -/
def late : State :=
  let s := regs [(pgEpc, EPC_STEP_NS.NS, 1, 0)]
  { s with io := { s.io with time := { ns := 1000000000 * 2 ^ 48 - 1 } } }
theorem witness_time_step :
    up.takesWrite 0x11 (pgEpc + EPC_STEP_CTL.GO.off) = true ∧ up.follower = false ∧ up.get pgEpc EPC_STEP_NS.NS < 1000000000 ∧
    (0 : Int) ≤ (up.io.time.ns : Int) + (1000000000 * toSigned 32 (up.get pgEpc EPC_STEP_SEC.SEC) + toSigned 32 (up.get pgEpc EPC_STEP_NS.NS)) ∧
    1000000000 ≤ (regs [(pgEpc, EPC_STEP_NS.NS, 1000000000, 0)]).get pgEpc EPC_STEP_NS.NS ∧
    ((regs [(pgEpc, EPC_STEP_NS.NS, 2 ^ 32 - 1, 0)]).io.time.ns : Int) +
      (1000000000 * toSigned 32 ((regs [(pgEpc, EPC_STEP_NS.NS, 2 ^ 32 - 1, 0)]).get pgEpc EPC_STEP_SEC.SEC) +
        toSigned 32 ((regs [(pgEpc, EPC_STEP_NS.NS, 2 ^ 32 - 1, 0)]).get pgEpc EPC_STEP_NS.NS)) < 0 ∧
    up.io.ready .epc = true ∧ up.get pgEpc PG_STAT.RST_BUSY = 0 ∧
    (0 : Int) ≤ ((late.io.time.ns : Int) + (1000000000 * toSigned 32 (late.get pgEpc EPC_STEP_SEC.SEC) + toSigned 32 (late.get pgEpc EPC_STEP_NS.NS))) ∧
    (1000000000 * 2 ^ 48 : Int) ≤ ((late.io.time.ns : Int) + (1000000000 * toSigned 32 (late.get pgEpc EPC_STEP_SEC.SEC) + toSigned 32 (late.get pgEpc EPC_STEP_NS.NS))) ∧
    late.takesWrite 0x11 (pgEpc + EPC_STEP_CTL.GO.off) = true ∧ late.follower = false := by decide
/-- A member of a stack. -/
def member : State := regs [(pgCsc, CSC_STAT.ACTIVE, 1, 0), (pgCsc, CSC_STAT.ROLE, 1, 0)]
theorem witness_time_step_member : member.follower = true ∧ member.takesWrite 0x11 (pgEpc + EPC_STEP_CTL.GO.off) = true := by decide
/-- A commit is armed. -/
def armed (e : Nat) : State := { up with io := { up.io with time := { up.io.time with armed := some e } } }
/-- A multiple of 2^K was crossed by counting, 10 ns before count 20,000, or a crossing is held; the last event stood at count `l`. -/
def due (l : Nat) (h : Bool) : State :=
  let k := 2 ^ up.io.epochK
  let d : Due := { boundary := [⟨k - 5, k + 10, 20000, false⟩] }
  { up with io := { up.io with time := { ns := k + 10, counted := 20000, lastBoundary := some l, held := h, due := d } } }
/-- The last event stood exactly 16,384 counted nanoseconds before the next multiple. -/
def near : State :=
  { up with io := { up.io with time := { up.io.time with ns := 2 ^ up.io.epochK - 1, counted := 16383, lastBoundary := some 0 } } }
theorem witness_boundary :
    up.cascOn = false ∧ ((due 3606 false).io.crossed.map Prod.fst) = some 19990 ∧ (due 3606 false).io.gapOver 19990 = true ∧
    (due 3606 false).io.time.held = false ∧ ((due 3607 false).io.crossed.map Prod.fst) = some 19990 ∧ (due 3607 false).io.gapOver 19990 = false ∧
    near.io.crossed = none ∧ near.io.time.held = false ∧ near.io.tickInc ≠ 0 ∧
    near.io.gapEnd = near.io.time.counted + near.io.toMultiple (2 ^ near.io.epochK) ∧ (due 0 false).io.time.armed = none ∧
    (armed 1).io.time.armed = some (((armed 1).get pgEpc EPC_EPOCH_NUM.NUM + 1) % 2 ^ 32) ∧
    (due 0 true).io.time.held = true ∧ (due 0 true).io.time.lastBoundary = some 0 ∧ up.io.time.held = false := by decide +kernel
/-- The drain of a classifier page is over and its copy in progress. -/
def copying : State :=
  let s := regs [(pgCls 7, PG_SHADOW_CTL.SHADOW_BUSY, 1, 0)]
  { s with io := { s.io with drained := [(pgCls 7, true)] } }
theorem witness_drain :
    pageOf (pgCls 7) = some ⟨.cls, 7, pgCls 7⟩ ∧ Kind.cls.shadowed = true ∧
    (regs [(pgCls 7, PG_SHADOW_CTL.SHADOW_BUSY, 1, 0)]).get (pgCls 7) PG_SHADOW_CTL.SHADOW_BUSY = 1 ∧
    (regs [(pgCls 7, PG_SHADOW_CTL.SHADOW_BUSY, 1, 0)]).drained ⟨.cls, 7, pgCls 7⟩ = true ∧
    ({ up with buf := { up.buf with staging := [(7, [{ pipe := 7 }])] } } : State).io.drained.get false (pgCls 7) = false ∧
    ({ up with io := { up.io with drained := [(pgCls 7, true)] } } : State).io.drained.get false (pgCls 7) = true ∧
    up.get (pgCls 7) PG_SHADOW_CTL.SHADOW_BUSY = 0 ∧ copying.get (pgCls 7) PG_SHADOW_CTL.SHADOW_BUSY = 1 ∧
    copying.io.drained.get false (pgCls 7) = true := by decide
theorem witness_drain_waits :
    ({ up with buf := { up.buf with recirc := [(7, [{ pipe := 7, bank := 1 }])] } } : State).drained ⟨.cls, 7, pgCls 7⟩ = false := by decide
theorem witness_commit :
    up.takesWrite 0x11 (pgEpc + EPC_COMMIT_CTL.GO.off) = true ∧ ctlMaster 0x11 = true ∧ up.io.time.armed = none ∧
    subMod 32 ((regs [(pgEpc, EPC_COMMIT_TARGET.TARGET, 2, 0)]).get pgEpc EPC_COMMIT_TARGET.TARGET)
      ((regs [(pgEpc, EPC_COMMIT_TARGET.TARGET, 2, 0)]).get pgEpc EPC_EPOCH_NUM.NUM) = 2 ∧
    subMod 32 (up.get pgEpc EPC_COMMIT_TARGET.TARGET) (up.get pgEpc EPC_EPOCH_NUM.NUM) = 0 ∧ (armed 5).io.time.armed.isSome = true ∧ up.cascOn = false ∧
    subMod 32 ((regs [(pgEpc, EPC_COMMIT_TARGET.TARGET, 2 ^ 31 - 1, 0)]).get pgEpc EPC_COMMIT_TARGET.TARGET) 0 < 2 ^ 31 ∧
    2 ^ 31 ≤ subMod 32 ((regs [(pgEpc, EPC_COMMIT_TARGET.TARGET, 2 ^ 31, 0)]).get pgEpc EPC_COMMIT_TARGET.TARGET) 0 ∧
    subMod 32 (((armed 5).put pgEpc EPC_COMMIT_TARGET.TARGET 2).get pgEpc EPC_COMMIT_TARGET.TARGET) ((armed 5).get pgEpc EPC_EPOCH_NUM.NUM) = 2 := by decide
theorem witness_shadow_arm :
    (feat 2).stranger ⟨.cls, 7, pgCls 7⟩ 1 = false ∧ (feat 2).io.ready .cls = true ∧ (feat 2).io.banked .cls = true ∧
    ((feat 2).put (pgCls 7) PG_SHADOW_CTL.SHADOW_BUSY 1).get (pgCls 7) PG_SHADOW_CTL.SHADOW_BUSY = 1 := by decide

/-! ### Ethernet ports -/

/-- Port 127 of a group in MODE 2, its link up, its receiver and transmitter on. -/
def port : State :=
  let s := regs [(pgEth 31 0, ETH_LINK_STAT.PORT, 0x1000, 0), (pgEth 31 1, ETH_MAC_CFG.RX_EN, 1, 3), (pgEth 31 1, ETH_MAC_CFG.TX_EN, 1, 3)]
  { s with buf := { s.buf with group := [(31, { mode := 2 })] } }
/-- Group 31 has adopted interface type `i`; LT_EN is `e`. -/
def training (i e : Nat) : State :=
  let s := regs [(pgEth 31 0, ETH_AN_CFG.LT_EN, e, 0)]
  { s with buf := { s.buf with group := [(31, { mode := 2, iface := i })] } }
theorem witness_link :
    port.portExists 127 = true ∧ port.linkUp 127 = true ∧ port.linkUp 0 = false ∧ up.portExists 127 = false ∧
    (training 1 1).get (pgEth 31 0) ETH_AN_CFG.LT_EN = 1 ∧ ((training 1 1).buf.group.get {} 31).trains = true ∧
    (training 1 0).get (pgEth 31 0) ETH_AN_CFG.LT_EN = 0 ∧ ((training 2 1).buf.group.get {} 31).trains = false ∧
    (port.put (pgEth 31 0) ETH_LINK_STAT.PORT 0).portExists 127 = true ∧ (port.put (pgEth 31 0) ETH_LINK_STAT.PORT 0).linkUp 127 = false ∧
    (port.buf.sched.get {} 127).tx = none ∧ up.linkUp 127 = false := by decide
theorem witness_group :
    up.takesWrite 1 (pgEth 31 0 + ETH_GRP_CTL.APPLY.off) = true ∧ laneMapOk (up.get (pgEth 31 0) ETH_LANE_MAP.RX_MAP) = true ∧
    laneMapOk (up.get (pgEth 31 0) ETH_LANE_MAP.TX_MAP) = true ∧
    laneMapOk ((regs [(pgEth 31 0, ETH_LANE_MAP.RX_MAP, 0, 0)]).get (pgEth 31 0) ETH_LANE_MAP.RX_MAP) = false ∧
    (port.linkUp 127 && tb (8#4) 3) = true := by decide
/-- A copy waits in queue `q`. -/
def queued (q : Nat) : State := { up with buf := { up.buf with queues := [(q, [{ pkt := 1, len := 64 }])], store := [(1, { cells := 1, refs := 1 })] } }
theorem witness_hold : (queued 1023).linkUp 127 = false ∧ (queued 1023).queue (8 * 127 + 7) ≠ [] := by decide
/-- A frame of 60 zero bytes with its FCS. -/
def zeros : List Byte := List.replicate 60 0 ++ fcsOf (List.replicate 60 0)
/-- A MAC Control frame with its FCS. -/
def macControl : List Byte :=
  let d : List Byte := List.replicate 12 0 ++ [0x88, 0x08] ++ List.replicate 46 0
  d ++ fcsOf d
theorem witness_frame :
    (port.portExists 127 = true ∧ port.linkUp 127 = true) ∧ (port.put (pgEth 31 0) ETH_LOOPBACK.MODE 1).get (pgEth 31 0) ETH_LOOPBACK.MODE = 1 ∧
    (zeros.take 63).length < 64 ∧ (port.put (pgEth 31 1) ETH_MAC_CFG.MAX_FRAME 64 3).maxFrame 127 = 64 ∧
    (zeros.drop 1 ++ [0]).drop 60 ≠ fcsOf ((zeros.drop 1 ++ [0]).take 60) ∧
    port.get (pgEth 31 0) ETH_LOOPBACK.MODE ≠ 1 ∧ port.get (pgEth 31 1) ETH_MAC_CFG.RX_EN 3 = 1 ∧ 64 ≤ zeros.length ∧
    zeros.length ≤ port.maxFrame 127 ∧ port.maxFrame 127 < 9217 ∧ zeros.drop 60 = fcsOf (zeros.take 60) ∧ beAt zeros 12 2 ≠ 0x8808 ∧
    beAt macControl 12 2 = 0x8808 ∧ macControl.drop 60 = fcsOf (macControl.take 60) ∧
    ((port.staged 7).map Pkt.cells).sum + ceilDiv zeros.length 64 ≤ stagingCells ∧ (regs [(pgEth 31 1, ETH_MAC_CFG.RX_EN, 0, 3)]).get (pgEth 31 1) ETH_MAC_CFG.RX_EN 3 = 0 := by decide +kernel
theorem witness_frame_full :
    stagingCells < (([{ bytes := [] }] : List Pkt).map Pkt.cells).sum + stagingCells := by decide
/-- The port under flow control mode `m`, with the pause state `p`. -/
def paused (m p : Nat) : State := (port.put (pgEth 31 1) ETH_MAC_CFG.FC_MODE m 3).put (pgEth 31 1) ETH_FC_STAT.RX_PAUSED p 3
/-- Under flow control mode `m` these priorities stand in XOFF, all are enabled, and XON is 0. -/
def xoff (m p : Nat) : State :=
  (((paused m 0).put (pgEth 31 1) ETH_FC_STAT.TX_XOFF p 3).put (pgEth 31 1) ETH_PFC_MAP.TX_EN 255 3).put (pgEth 31 1) ETH_FC_XOFF.XON 0 3
theorem witness_pause :
    (paused 2 0).fcMode 127 = 2 ∧ (paused 1 0).fcMode 127 = 1 ∧ (paused 0 0).fcMode 127 = 0 ∧
    ((paused 2 128).get (pgEth 31 1) ETH_FC_STAT.RX_PAUSED 3).testBit 7 = true ∧
    ((paused 2 128).get (pgEth 31 1) ETH_FC_STAT.RX_PAUSED 3).testBit 0 = false ∧ (paused 2 0).txXoff 127 = 0 ∧
    (paused 2 0).portExists 127 = true ∧ (paused 2 0).linkUp 127 = true ∧ (paused 2 0).get (pgEth 31 1) ETH_MAC_CFG.RX_EN 3 = 1 ∧
    (paused 2 0).get (pgEth 31 1) ETH_MAC_CFG.TX_EN 3 = 1 ∧ (paused 2 0).io.tickInc ≠ 0 ∧ (xoff 1 255).linkUp 127 = true ∧
    (xoff 1 255).fcMode 127 = 1 ∧ (xoff 1 255).txXoff 127 ≠ 0 ∧ (xoff 1 255).xon 127 ≤ (xoff 1 255).stgOcc 127 none ∧
    (xoff 2 128).fcMode 127 = 2 ∧
    (∀ i : Fin 8, (128).testBit i.val = (((xoff 2 128).txXoff 127).testBit i.val && ((xoff 2 128).pfcTx 127).testBit i.val &&
      decide ((xoff 2 128).xon 127 ≤ (xoff 2 128).stgOcc 127 (some i.val)))) ∧
    (xoff 2 128).get (pgEth 31 1) ETH_MAC_CFG.TX_EN 3 = 1 := by decide +kernel
theorem witness_watchdog :
    ((paused 2 128).put (pgEth 31 1) ETH_PFC_WD.LIMIT_MS 1 3).get (pgEth 31 1) ETH_PFC_WD.LIMIT_MS 3 ≠ 0 ∧
    (regs [(pgEth 31 1, ETH_PFC_WD.LIMIT_MS, 0, 3)]).get (pgEth 31 1) ETH_PFC_WD.LIMIT_MS 3 = 0 ∧
    (({ up with buf := { up.buf with sched := [(127, { ignore := 128 })] } } : State).buf.sched.get {} 127).ignore.testBit 7 = true ∧
    up.queue 1023 = [] ∧ up.portExists 0 = false ∧ port.portExists 127 = true ∧ (queued 1023).queue 1023 ≠ [] ∧
    ((paused 2 128).put (pgEth 31 1) ETH_PFC_WD.ACTION 1 3).get (pgEth 31 1) ETH_PFC_WD.ACTION 3 = 1 := by decide
theorem witness_pps :
    (({ up with io := { up.io with time := { up.io.time with due := { up.io.time.due with pps := 1 } } } } : State).io.time.due.pps ≠ 0 ∧
      up.io.time.due.pps = 0 ∧ up.io.tickInc ≠ 0 ∧ (regs [(pgEth 0 3, ETH_PPS_CFG.OUT_EN, 1, 0)]).get (pgEth 0 3) ETH_PPS_CFG.OUT_EN = 1 ∧
      up.get (pgEth 0 3) ETH_PPS_CFG.OUT_EN = 0 ∧
      ({ up with io := { up.io with sys := { up.io.sys with ppsHigh := true } } } : State).io.sys.ppsHigh = true ∧ up.io.sys.ppsHigh = false ∧
      (regs [(pgEth 0 3, ETH_PPS_CFG.IN_EN, 1, 0)]).get (pgEth 0 3) ETH_PPS_CFG.IN_EDGE ≠ b2n (!false) ∧
      (regs [(pgEth 0 3, ETH_PPS_CAP_STAT.VALID, 1, 0)]).get (pgEth 0 3) ETH_PPS_CAP_STAT.VALID = 1) ∧
    up.takesWrite 1 (pgEth 31 3 + ETH_TXTS_POP.POP.off) = true ∧
    (regs [(pgEth 0 3, ETH_PPS_CFG.IN_EN, 1, 0)]).get (pgEth 0 3) ETH_PPS_CFG.IN_EN = 1 ∧
    (regs [(pgEth 0 3, ETH_PPS_CFG.IN_EN, 1, 0)]).get (pgEth 0 3) ETH_PPS_CFG.IN_EDGE = b2n (!true) ∧
    up.get (pgEth 0 3) ETH_PPS_CFG.IN_EN = 0 := by decide

/-! ### Passes, the flow lookup, the layer 2 table -/

/-- Both copies of a line hold `v`. -/
def inDram (l : Loc) (v : Line) (s : State) : State :=
  [false, true].foldl (fun s b => s.setArray (s.copyAt l b).1 (s.copyAt l b).2 v) s
/-- A packet too short for any header waits in pipeline 7. -/
def short : State := { up with buf := { up.buf with staging := [(7, [{ bytes := [0], pipe := 7, inPort := 112 }])] } }
theorem witness_pass :
    1024 ≤ (({ up with flow := { up.flow with miss := [(7, List.replicate 1024 { hash := 0, key := 0, stage := .wants })] } } : State).missesOf 7).length ∧
    up.staged 7 = [] ∧ up.buf.recirc.get [] 7 = [] ∧ up.buf.inject.get [] 7 = [] := by decide +kernel
theorem witness_pass_malformed :
    (short.missesOf 7).length < 1024 ∧
    (short.nextPass 7).map Prod.fst = some { bytes := [0], pipe := 7, inPort := 112 } ∧ (short.nextPass 7).map (fun x => x.2.bankTag 7) = some (short.bankTag 7) ∧
    (short.io.parse 7 [0] ⟨112, short.bankTag 7 / 4 % 2, 0, none, none⟩).hv.malClass ≠ 0 ∧
    bitsOf (short.io.prs 7 (short.bankTag 7 / 4 % 2) PRS_MAL_ACT.ACTc)
      (2 * ((short.io.parse 7 [0] ⟨112, short.bankTag 7 / 4 % 2, 0, none, none⟩).hv.malClass - 1)) 2 = 0 := by decide +kernel
/-- A frame of 60 zero bytes waits in pipeline 7; its parser verdict. -/
def sound : State := { up with buf := { up.buf with staging := [(7, [{ bytes := List.replicate 60 0, pipe := 7, inPort := 112 }])] } }
def verdict : Parsed := up.io.parse 7 (List.replicate 60 0) ⟨112, up.bankTag 7 / 4 % 2, 0, none, none⟩
/-- The same pipeline with its flow resident in way 0, with a lookup of it outstanding, or with its header in the stash. -/
def resident : State :=
  let h := hLife.set (hHash.set (hKey.set 0 (keyCheck verdict.block)) verdict.hv.hash) lifeActive
  { sound with flow := { sound.flow with cache := [(4 * cacheSet (keyCheck verdict.block), { st := BitVec.ofNat 32 (2 ^ 26), data := h })] } }
def tracked : State :=
  { sound with flow := { sound.flow with miss := [(7, [{ hash := verdict.hv.hash, key := keyCheck verdict.block, stage := .bucket 1, req := 5 }])] } }
def inStash : State := { sound with flow := { sound.flow with stash := [(9, hdrMake verdict.hv.hash (keyCheck verdict.block) 77 0 1)] } }
theorem witness_pass_sound :
    (sound.missesOf 7).length < 1024 ∧ (sound.nextPass 7).map (fun x => x.1.pass) = some 0 ∧
    (sound.nextPass 7).map (fun x => (x.2.io.parse 7 x.1.bytes ⟨x.1.inPort, x.2.bankTag 7 / 4 % 2, 0, x.1.zone, x.1.hashLayer⟩ == verdict,
      x.2.searchGone 7 { verdict.hv with bank := x.2.bankTag 7 % 2 })) = some (true, false) ∧
    verdict.hv.malClass = 0 ∧ sound.deepen = false ∧ sound.missesOf 7 = [] ∧ sound.probe verdict.hv.hash (keyCheck verdict.block) = none ∧
    sound.stashFind verdict.hv.hash (keyCheck verdict.block) = none := by decide +kernel
theorem witness_pass_hit :
    resident.missesOf 7 = [] ∧ resident.probe verdict.hv.hash (keyCheck verdict.block) = some (4 * cacheSet (keyCheck verdict.block)) ∧
    (resident.nextPass 7).isSome = true ∧ (tracked.nextPass 7).isSome = true ∧ (tracked.missesOf 7).length < 1024 ∧
    ((tracked.missesOf 7).find? fun x => x.hash == verdict.hv.hash && x.key == keyCheck verdict.block).isSome = true ∧
    (inStash.stashFind verdict.hv.hash (keyCheck verdict.block)).map Prod.fst = some 9 := by decide +kernel
/-- Pipeline 7 tracks one lookup, whose read 5 has answered `l`. -/
def miss (st : Stage) (l : Line) : State :=
  { up with flow := { up.flow with miss := [(7, [{ hash := 3, key := 4, stage := st, req := 5 }])] }, fmc := { up.fmc with resp := [(5, some (some l))] } }
/-- A hot half of the tracked identity, ACTIVE. -/
def hot : Line := hLife.set (hHash.set (hKey.set 0 4) 3) lifeActive
theorem witness_lookup :
    up.fmc.resp.get none 5 = none ∧ (up.missesOf 7)[0]? = none ∧ ((miss (.bucket 1) 0).missesOf 7).length = 1 ∧ findSlot 0 3 4 = none ∧
    (miss (.bucket 1) 0).fmc.resp.get none 5 = some (some 0) ∧ ((miss (.bucket 1) 0).missesOf 7)[0]? = some { hash := 3, key := 4, stage := .bucket 1, req := 5 } ∧
    ({ miss (.bucket 2) 0 with fmc := { up.fmc with resp := [] } } : State).fmc.resp.get none 5 = none ∧
    findSlot (putSlot 0 3 3 4 77 0) 3 4 = some 3 := by decide +kernel
theorem witness_lookup_hot :
    hKey.get hot = 4 ∧ hHash.get hot = 3 ∧ hLife.get hot = lifeActive ∧ (miss (.hot 9 2) hot).closing 9 = false ∧
    (miss (.hot 9 2) hot).probe 3 4 = none ∧ (miss (.hot 9 2) hot).victim (cacheSet 4) 15 = none ∧
    (miss (.hot 9 2) hot).victim (cacheSet 4) 14 = some 0 ∧ ((miss (.way 9) hot).missesOf 7)[0]?.map (·.stage) = some (.way 9) ∧
    (let s := inDram ((miss (.way 9) 0).hotLoc 9) hot (miss (.way 9) 0)
     s.lineView (s.hotLoc 9) = hot ∧ s.closing 9 = false ∧ s.probe 3 4 = none ∧ s.victim (cacheSet 4) 14 = some 0) := by decide +kernel
/-- One learn event waits in pipeline 7, and entry 65,535 there holds its address. -/
def learned (e : BitVec 80) : State :=
  { up with fwd := { up.fwd with l2 := [(65536 * 7 + 65535, e)], learn := [(7, [{ mac := 1, fid := 2, port := 3 }])] } }
theorem witness_learning :
    up.learnQ 7 = [] ∧ (learned (l2Make 1 2 3 false false false 0 0)).learnQ 7 = [{ mac := 1, fid := 2, port := 3 }] ∧
    (learned (l2Make 1 2 3 false false false 0 0)).l2Find 7 1 2 = some (65535, l2Make 1 2 3 false false false 0 0) ∧
    l2Port (l2Make 1 2 3 false false false 0 0) = 3 := by decide +kernel
theorem witness_ageing :
    l2Valid 0 = false ∧ l2Static (l2Make 1 2 3 true false false 0 0) = true ∧ l2Frozen (l2Make 1 2 3 false true false 0 0) = true ∧
    l2Hit (l2Make 1 2 3 false false true 0 0) = true ∧ l2Valid (l2Make 1 2 3 false false false 0 0) = true ∧
    l2Hit (l2Make 1 2 3 false false false 0 0) = false ∧
    (regs [(pgL2t 7, L2T_AGE_CFG.AGE_MAX, 0, 0)]).get (pgL2t 7) L2T_AGE_CFG.AGE_MAX = 0 ∧
    l2Age (l2Make 1 2 3 false false false 0 0) + 1 < (regs [(pgL2t 7, L2T_AGE_CFG.AGE_MAX, 2, 0)]).get (pgL2t 7) L2T_AGE_CFG.AGE_MAX ∧
    (regs [(pgL2t 7, L2T_AGE_CFG.AGE_MAX, 2, 0)]).get (pgL2t 7) L2T_AGE_CFG.AGE_MAX ≤ l2Age (l2Make 1 2 3 false false false 1 0) + 1 := by
  decide +kernel
/-- Array word `i` of an array of pipeline 7 differs from its shadow in bit 3. -/
def upset (k : ArrayKind) (i : Nat) : State := { up with fwd := { up.fwd with upset := [(upsetKey k 7 i, 8)] } }
theorem witness_flap :
    (learned (l2Make 1 2 3 false true false 0 1)).fwd.l2.wf (fun _ => 0) = true ∧ parityBad (up.upsetAt .lpm 7 0) = false ∧
    parityBad ((upset .l2 65535).upsetAt .l2 7 65535) = true ∧ parityBad ((upset .cls 16383).upsetAt .cls 7 16383) = true ∧
    parityBad ((upset .l2 65535).upsetAt .l2 7 65534) = false := by decide +kernel

/-! ### Table commands -/

/-- A booted device whose command queue 15 (ring 15 + 44 or as R80 numbers it) has one entry, with the features `v`. -/
def cmdState (v : Nat) : State :=
  let s := feat v
  let r := ({ queue := 15, known := true, parts := 1, flags := 0, tag := 0, index := 0, data := 0, host := [] } : Cmd).ring
  let s := ((s.put (pgRing r) RING_CTL.EN 1).put (pgRing r) RING_SIZE.LOG2 6).put (pgRing r) RING_PROD.IDX 1
  { s with io := { s.io with pcie := { s.io.pcie with linkUp := true, bme := true } } }
/-- A command of queue 15. -/
def cmd (parts flags : Nat) (index data : Nat) (host : List Byte) : Cmd :=
  { queue := 15, known := true, parts := BitVec.ofNat 8 parts, flags := BitVec.ofNat 8 flags, tag := 7, index := BitVec.ofNat 64 index,
    data := BitVec.ofNat 256 data, host := host }
theorem witness_takes_part :
    (cmdState 0).on = true ∧ (cmdState 0).cmdWaiting (cmd 1 0 0 0 []) = true ∧ (cmd 1 0 0 0 []).known = true ∧
    (cmd 1 0 0 0 []).flags.toNat / 4 = 0 ∧ (cmd 1 0 0 0 []).partList = [0] ∧ (0xFF).testBit 0 = true ∧ (cmd 128 0 0 0 []).partList = [7] ∧
    (cmd 8 0 0 0 []).partList = [3] ∧ (0x0F).testBit 3 = true := by decide +kernel
theorem witness_table_checks :
    up.cmdWaiting (cmd 1 0 0 0 []) = false ∧ (cmd 1 4 0 0 []).flags.toNat / 4 ≠ 0 ∧ ({ cmd 1 0 0 0 [] with known := false } : Cmd).known = false ∧
    (cmdState 0).on = true ∧ (cmdState 0).cmdWaiting (cmd 1 4 0 0 []) = true ∧
    (cmdState 0).cmdWaiting { cmd 1 2 0 0 [] with dmaOk := false } = true ∧ ({ cmd 1 2 0 0 [] with dmaOk := false } : Cmd).indirect = true ∧
    ({ cmd 1 2 0 0 [] with dmaOk := false } : Cmd).partList = [0] ∧ dmaFails (cmd 1 2 0 0 []) = false := by
  decide +kernel
/-- An INDIRECT command of part 7 with this index, data and host buffer. -/
def icmd (index len : Nat) (host : List Byte) : Cmd := cmd 128 2 index (len * 2 ^ 64) host
/-- Classifier entry `i` of pipeline 7 valid in both banks. -/
def clsState (l : List Nat) : State :=
  { cmdState 0 with fwd := { up.fwd with clsValid := l.flatMap fun i => [(clsBank 7 i 0, true), (clsBank 7 i 1, true)] } }
theorem witness_cls :
    (clsState []).takesPart (icmd 16383 48 []) 0xFF 7 ∧ (icmd 16383 48 []).indirect = true ∧ (icmd 16383 48 []).len = 48 ∧
    (icmd 16383 48 []).idx = 16383 ∧ (clsState [16383]).clsOn 7 16383 0 = true ∧ (clsState [16383]).clsOn 7 16383 1 = true ∧
    (clsState []).clsFree 7 16383 = true ∧ (icmd 16384 48 []).idx = 16384 ∧ (clsState []).shadowBusy (pgCls 7) = false ∧
    (clsState []).feature 1 = false ∧ (cmdState 2).feature 1 = true := by
  unfold State.takesPart; decide +kernel
/-- The pending bank of the classifier page is being copied, with SHADOWED_TABLES active. -/
def clsCopying : State := (cmdState 2).put (pgCls 7) PG_SHADOW_CTL.SHADOW_BUSY 1
theorem witness_cls_waits : clsCopying.takesPart (icmd 0 48 []) 0xFF 7 ∧ clsCopying.shadowBusy (pgCls 7) = true := by
  unfold State.takesPart; decide +kernel
theorem witness_cls_write_refused :
    (cmdState 2).takesPart (icmd 0 48 [1]) 0xFF 7 ∧
    ({ cmdState 2 with fwd := { up.fwd with clsValid := [(clsBank 7 0 0, true)] } } : State).clsOn 7 0
      (({ cmdState 2 with fwd := { up.fwd with clsValid := [(clsBank 7 0 0, true)] } } : State).io.active (pgCls 7)) = true ∧
    entStore (ofBytesLE ((icmd 0 48 [1]).buffer 48)) ≠ (cmdState 2).clsImage 7 0 := by unfold State.takesPart; decide +kernel
theorem witness_cls_delete :
    (cmdState 0).cmdWaiting (cmd 255 0 16383 0 []) = true ∧ (cmd 255 0 16383 0 []).badMask 0xFF false = false ∧
    (cmd 255 0 16383 0 []).idx < 16384 ∧
    ∀ q ∈ (cmd 255 0 16383 0 []).partList, (cmdState 0).shadowBusy (pgCls q) = false := by decide +kernel
theorem witness_search_profile : (cmdState 0).takesPart (icmd 63 72 []) 0xFF 7 ∧ (icmd 63 72 []).indirect = true ∧ (icmd 63 72 []).len = 72 ∧ (icmd 63 72 []).idx < 64 := by
  unfold State.takesPart; decide +kernel
theorem witness_cls_search :
    (icmd 63 128 []).len = 128 ∧ (icmd 63 128 []).ix 8 1 = 63 ∧ (icmd 63 128 []).ix 9 1 % 2 = 0 ∧
    (clsState [5]).clsWinner 7 0 ((clsState [5]).profile 7 63 0) (profKey ((clsState [5]).profile 7 63 0) []) = some 5 ∧
    (clsState []).clsWinner 7 0 ((clsState []).profile 7 63 0) (profKey ((clsState []).profile 7 63 0) []) = none := by decide +kernel
theorem witness_cls_move :
    (cmd 128 0 0 16383 []).idx = 0 ∧ (cmd 128 0 0 16383 []).le 16 2 = 16383 ∧ (clsState [0]).clsFree 7 0 = false ∧
    (clsState [0]).clsFree 7 16383 = true ∧ (clsState [0]).clsBetween 7 0 16383 = none ∧ (clsState [0, 9]).clsBetween 7 0 16383 = some 9 ∧
    (clsState [0, 16383]).clsFree 7 16383 = false := by decide +kernel
/-- Layer 2 entry 65,535 of pipeline 7 with MAC 0 and FID 0. -/
def l2State : State := { cmdState 0 with fwd := { up.fwd with l2 := [(65536 * 7 + 65535, l2Make 0 0 3 false false false 0 0)] } }
theorem witness_l2 :
    l2State.takesPart (cmd 128 0 0 0 []) 0xFF 7 ∧ l2State.l2Find 7 (l2CmdKey (cmd 128 0 0 0 [])).1 (l2CmdKey (cmd 128 0 0 0 [])).2
      = some (65535, l2Make 0 0 3 false false false 0 0) ∧
    (cmdState 0).l2Find 7 0 0 = none ∧ (cmdState 0).l2Free 7 = some 0 ∧ l2Valid (l2State.l2At 7 ((cmd 128 0 65535 0 []).ix 8 2)) = true ∧
    l2Valid (l2State.l2At 7 ((cmd 128 0 0 0 []).ix 8 2)) = false := by
  unfold State.takesPart; decide +kernel
/-- Profile 4,095 of pipeline 7 valid in both banks. -/
def actState : State :=
  { cmdState 0 with fwd := { up.fwd with actValid := [(2 * actKey 7 4095, true), (2 * actKey 7 4095 + 1, true)] } }
theorem witness_action :
    actState.profOn 7 4095 0 = true ∧ actState.profOn 7 4095 1 = true ∧ (cmd 128 0 4095 0 []).idx < 4096 ∧
    profRefused (BitVec.ofNat 128 ((cmd 128 0 4095 0 []).le 16 16)) = false ∧ prKind (BitVec.ofNat 128 ((cmd 128 0 4095 0 []).le 16 16)) ≠ 3 ∧
    (cmdState 0).shadowBusy (pgAct 7) = false ∧ (cmdState 0).feature 1 = false := by decide +kernel
theorem witness_template :
    (icmd (0x10000 + 63) 128 [120, 1]).idx = 0x10000 + 63 ∧ beAt ((icmd (0x10000 + 63) 128 [120, 1]).buffer 128) 1 1 = 1 ∧
    beAt ((icmd (0x10000 + 63) 128 [14, 6]).buffer 128) 0 1 = 14 ∧ beAt ((icmd (0x10000 + 63) 128 [120, 1]).buffer 128) 0 1 = 120 ∧
    (cmdState 0).tmplUser 7 63 = none := by decide +kernel
/-- A default route of VRF 0 in bank 3. -/
def route : LpmEntry := { vrf := 0, wild := false, fam := 0, m := 96, addr := 0, res := 0 }
def lpmState (l : List LpmEntry) : State := { cmdState 0 with fwd := { up.fwd with lpm := [(3, l)] } }
theorem witness_lpm :
    (lpmState []).takesPart (cmd 8 0 0 0 []) 0x0F 3 ∧ lpmOfCmd (cmd 8 0 0 0 []) = some route ∧
    lpmFind ((lpmState [route]).lpmBank 3) (fun x => x.same route) = some (0, route) ∧
    lpmFind ((lpmState []).lpmBank 3) (fun x => x.same route) = none ∧ ((lpmState []).lpmBank 3).length < lpmSize ∧
    lpmFind ((lpmState [route]).lpmArr 3) (fun y => y.hits 0 0 0) = some (0, route) := by
  unfold State.takesPart; decide +kernel
theorem witness_lpm_lost :
    lpmFind ((lpmState [{ route with valid := false }]).lpmBank 3) (fun x => x.same route) = none ∧
    ((lpmState [{ route with valid := false }]).lpmBank 3).findIdx? (fun x => !x.valid && x.group == route.group) = some 0 ∧
    ((lpmState []).lpmBank 3).findIdx? (fun x => !x.valid && x.group == route.group) = none := by decide +kernel
theorem witness_lpm_full :
    lpmSize ≤ ((lpmState (List.replicate lpmSize { route with vrf := 1 })).lpmBank 3).length ∧
    ((lpmState (List.replicate lpmSize { route with vrf := 1 })).lpmBank 3).findIdx? (fun x => !x.valid && x.group == route.group) = none := by
  simp [lpmState, State.lpmBank, SMap.get, route]
theorem witness_zone :
    (cmd 128 0 4095 0 []).idx = 4095 ∧ (cmd 128 0 (4096 + 15) 0 []).idx = 4096 + 15 ∧ 4112 ≤ (cmd 128 0 4112 0 []).idx ∧
    (cmdState 0).takesPart (cmd 128 0 4095 0 []) 0xFF 7 := by unfold State.takesPart; decide +kernel
/-- The first `n` layer 2 entries of pipeline 7 taken, each with MAC 1. -/
def l2Fill (n : Nat) : State :=
  { cmdState 0 with fwd := { up.fwd with l2 := (List.range n).map fun i => (65536 * 7 + i, l2Make 1 0 0 false false false 0 0) } }
theorem l2Fill_mem (n k : Nat) (hn : k < n) (hk : k < 65536) : k ∈ ((l2Fill n).l2List 7).map (fun e => e.1) := by
  have hv : l2Valid (l2Make 1 0 0 false false false 0 0) = true := by decide +kernel
  have e1 : (65536 * 7 + k) / 65536 = 7 := by omega
  have e2 : (65536 * 7 + k) % 65536 = k := by omega
  refine List.mem_map.mpr ⟨(k, l2Make 1 0 0 false false false 0 0), ?_, rfl⟩
  unfold State.l2List
  refine List.mem_filterMap.mpr ⟨(65536 * 7 + k, l2Make 1 0 0 false false false 0 0), ?_, ?_⟩
  · show _ ∈ (List.range n).map _
    exact List.mem_map.mpr ⟨k, List.mem_range.mpr hn, rfl⟩
  · simp [e1, e2, hv]
/-- A read of a store gives the default or a listed value. -/
theorem get_listed {α : Type} (m : SMap α) (d : α) (k : Nat) : m.get d k = d ∨ ∃ e ∈ m, m.get d k = e.2 := by
  induction m with
  | nil => exact .inl rfl
  | cons e t ih =>
    by_cases h : e.1 = k
    · exact .inr ⟨e, List.mem_cons_self .., by simp [SMap.get, h]⟩
    · have : SMap.get (e :: t) d k = SMap.get t d k := by simp [SMap.get, h]
      rw [this]
      exact ih.imp id fun ⟨x, hx, hg⟩ => ⟨x, List.mem_cons_of_mem _ hx, hg⟩
theorem l2Fill_find (n : Nat) : (l2Fill n).l2Find 7 0 0 = none := by
  have hm : l2Mac (l2Make 1 0 0 false false false 0 0) = 1 := by decide +kernel
  have h0 : l2Valid (0 : BitVec 80) = false := by decide +kernel
  have hw (i : Nat) : (l2Fill n).l2Arr 7 i = (l2Fill n).l2At 7 i := by
    show (l2Fill n).l2At 7 i ^^^ BitVec.ofNat 80 0 = _
    simp
  have hg (i : Nat) : (l2Valid ((l2Fill n).l2Arr 7 i) && l2Mac ((l2Fill n).l2Arr 7 i) == 0) = false := by
    rw [hw]
    rcases get_listed (l2Fill n).fwd.l2 0 (65536 * 7 + i) with h | ⟨e, he, h⟩
    · rw [State.l2At, h, h0, Bool.false_and]
    · obtain ⟨j, -, rfl⟩ := List.mem_map.mp (show e ∈ (List.range n).map _ from he)
      rw [State.l2At, h, hm]
      simp
  unfold State.l2Find
  rw [List.find?_eq_none]
  intro e he
  unfold State.l2Words at he
  rcases List.mem_append.mp he with h | h
  · obtain ⟨x, -, rfl⟩ := List.mem_map.mp h
    simp [hg]
  · cases h
theorem witness_l2_full : ∃ n, (l2Fill n).l2Free 7 = none ∧ (l2Fill n).l2Find 7 0 0 = none := by
  refine ⟨65536, ?_, l2Fill_find _⟩
  unfold State.l2Free SMap.freshBelow
  rw [List.find?_eq_none]
  intro k hk
  have hk' : k < 65536 := Nat.lt_of_lt_of_le (List.mem_range.mp hk) (Nat.min_le_left _ _)
  have hm := l2Fill_mem 65536 k hk' hk'
  simp only [SMap.keys, List.map_map, Function.comp_def]
  simp [hm]
/-- An INDIRECT command of part 0. -/
def fcmd (index len : Nat) (host : List Byte) : Cmd := cmd 1 2 index (len * 2 ^ 64) host
/-- The identity of the key whose bytes are all zero. -/
def zHash : Nat := crc32c (hostKey (sliceB [] 0 40))
def zKey : Nat := keyCheck (hostKey (sliceB [] 0 40))
/-- A hot half of that identity, ACTIVE. -/
def zHot : Line := hLife.set (hHash.set (hKey.set 0 zKey) zHash) lifeActive
/-- Record 0 holds that hot half, in DRAM and in way 0 of its set. -/
def flowState : State :=
  let s := cmdState 0
  let s := inDram (s.hotLoc 0) zHot s
  { s with flow := { s.flow with cache := [(4 * cacheSet zKey, { st := BitVec.ofNat 32 (2 ^ 26), data := zHot })], used := [(0, true)] } }
theorem witness_flow_read :
    (cmdState 0).takesPart (fcmd 0 128 []) 1 0 ∧ (fcmd 0 128 []).indirect = true ∧ 128 ≤ (fcmd 0 128 []).len ∧
    (((flowState.unhold 15).hostRecord 0 []).1.map fun x => hLife.get x.1) = some 2 ∧ (((cmdState 0).hostRecord 67108863 []).1.map fun x => hLife.get x.1) = some 0 := by
  unfold State.takesPart; decide +kernel
theorem witness_flow_key :
    keyOf (fcmd 0 168 []) 40 = some (zHash, zKey) ∧ keyOf (fcmd 0 168 []) 168 = some (zHash, zKey) ∧
    ((cmdState 0).hostFind zHash zKey []).1 = .none ∧ (flowState.hostFind zHash zKey []).1 = .at' 0 ∧
    (((flowState.hostFind zHash zKey []).2.hostRecord 0 ([].drop 4)).1.map fun x => hLife.get x.1) = some 2 := by decide +kernel
theorem witness_flow_walk :
    1 ≤ (fcmd (512 * 2 ^ 32) 2052 []).ix 12 2 ∧ (fcmd (512 * 2 ^ 32) 2052 []).ix 12 2 ≤ 512 ∧ (fcmd (512 * 2 ^ 32) 2052 []).len = 4 * (512 + 1) ∧
    bitsOf (fcmd (512 * 2 ^ 32) 2052 []).idx 0 32 < 67108864 := by decide +kernel
theorem witness_flow_bucket :
    (fcmd (2 ^ 63 + 1023) 16 []).idx.testBit 63 = true ∧ bitsOf (fcmd (2 ^ 63 + 1023) 16 []).idx 0 63 = 1023 ∧ 16 ≤ (fcmd (2 ^ 63 + 1023) 16 []).len := by
  decide +kernel
/-- A flow WRITE with mask `m`. -/
def wcmd (m : Nat) : Cmd := cmd 1 2 0 (168 * 2 ^ 64 + m * 2 ^ 96) []
theorem witness_flow_write :
    (wMask (wcmd 0x8000)).testBit 15 = true ∧ (wMask (wcmd 0x1F)).testBit 15 = false ∧ bitsOf (wMask (wcmd 0x1F)) 5 10 = 0 ∧
    wCreate (wcmd 0x1F) = false ∧ keyOf (wcmd 0x1F) 168 = some (zHash, zKey) ∧ flowState.flow.claims = [] ∧
    flowState.claimFor zHash zKey = none ∧ bitsOf (wMask (wcmd 0x1F)) 7 8 = 0 ∧
    flowState.probe zHash zKey = some (4 * cacheSet zKey) ∧ lineRec (flowState.cacheAt (4 * cacheSet zKey)) = 0 ∧
    hLife.get (flowState.cacheAt (4 * cacheSet zKey)).data = lifeActive ∧
    flowState.wayOf (hKey.get (flowState.lineView (flowState.hotLoc 0))) 0 = some (4 * cacheSet zKey) ∧
    flowState.wayOf (hKey.get (flowState.cacheAt (4 * cacheSet zKey)).data) 0 = some (4 * cacheSet zKey) := by decide +kernel
theorem witness_flow_write_absent :
    (({ cmdState 0 with jobs := (cmdState 0).jobs.set none 15 (some { cmd := wcmd 0, op := 2 }) } : State).hostFind zHash zKey []).1 = .none := by
  decide +kernel
theorem witness_account :
    (cmdState 0).feature 5 = false ∧ (cmdState 32).feature 5 = true ∧ ((cmdState 32).readNow (accountLoc 4194303) 3 0x01 false []).1.isSome = true ∧ (cmdState 32).takesPart (cmd 1 0 0 0 []) 1 0 ∧
    mapIndex (cmd 1 0 0x10FFF 15 []) = some 4095 ∧ (cmd 1 0 0x10FFF 15 []).le 16 1 = 15 ∧ (cmdState 32).get pgQnc QNC_LOCKS.MAP = 0 ∧
    ((cmdState 32).put pgQnc QNC_LOCKS.MAP 1).get pgQnc QNC_LOCKS.MAP = 1 := by unfold State.takesPart; decide +kernel
theorem witness_balancer :
    lbRangeBad (cmd 1 2 (4095 * 2 ^ 16 + 2 ^ 32) (2 * 2 ^ 64) [0, 0]) = false ∧ bitsOf ((cmd 1 0 0 (2 ^ 8 - 1) []).le 16 4) 8 20 = 0 ∧
    leAt (cmd 1 2 (4095 * 2 ^ 16 + 2 ^ 32) (2 * 2 ^ 64) [0, 0]).host 0 2 < 2 ^ 14 := by decide +kernel
/-- A NAT pool: ports from 1024, blocks of 64 ports, one address. -/
def natWord : Nat := 1024 + 6 * 2 ^ 16 + 2 ^ 24 + 2 ^ 32
theorem witness_nat :
    natPoolBad (BitVec.ofNat 96 ((cmd 1 0 63 natWord []).le 16 12 % 2 ^ 90)) = false ∧
    (cmdState 0).blocksOn (npBase ((cmdState 0).natPool 63)) (npBlocks ((cmdState 0).natPool 63)) = [] ∧
    npBase (BitVec.ofNat 96 natWord) + npBlocks (BitVec.ofNat 96 natWord) ≤ 524288 ∧
    (cmdState 0).natOverlap 63 (BitVec.ofNat 96 natWord) = none ∧ (fcmd 0 16 []).len = 16 ∧ (cmd 1 0 0 (96 * 2 ^ 128) []).le 32 1 = 96 ∧
    npAddrs ((cmdState 0).natPool 63) = 0 := by decide +kernel

/-! ### Flow table -/

/-- A claim of source 0 for the zero identity with key 4. -/
def clm (st : ClaimStage) : Claim := { id := 9, src := 0, hash := 3, key := 4, block := [], action := 0, cls := 0, origLow := false, stage := st }
/-- That claim alone in flight, its bucket reads 1 and 2 answered by `b1` and `b2`. -/
def claiming (c : Claim) (b1 b2 : Line) : State :=
  { up with flow := { up.flow with claims := [c] }, fmc := { up.fmc with resp := [(1, some (some b1)), (2, some (some b2))] } }
theorem quiet_claiming : (claiming (clm .queued) 0 0).quiet ∧ up.quiet :=
  ⟨⟨fun _ => rfl, fun c hc => by simp [claiming, clm] at hc; simp [hc], rfl⟩, ⟨fun _ => rfl, fun c hc => (by cases hc), rfl⟩⟩
/-- The record of claim 9 was being removed; its header is cleared. -/
def heldClaim : State := { up with flow := { up.flow with claims := [{ clm .held with r := 77 }] } }
theorem witness_claim_start :
    (claiming (clm .queued) 0 0).flow.claims.find? (fun x => x.stage == .held && !((claiming (clm .queued) 0 0).removing x.r)) = none ∧
    ((claiming (clm .queued) 0 0).flow.claims.filter Claim.running).length < 64 ∧
    (List.range 9).findSome? (fun i => (claiming (clm .queued) 0 0).nextOf (((claiming (clm .queued) 0 0).flow.rr + 1 + i) % 9)) = some (clm .queued) ∧
    (claiming (clm .queued) 0 0).lockFree (choice1 4) 9 = true ∧ (claiming (clm .queued) 0 0).lockFree (choice2 4) 9 = true ∧
    (heldClaim.flow.claims.find? (fun x => x.stage == .held && !(heldClaim.removing x.r))).isSome = true ∧ heldClaim.lockFree (choice1 4) 9 = true := by
  decide +kernel
/-- A claim whose bucket reads 1 and 2 have returned `b1` and `b2`, under the insert policy `p` (bit 0 relocation, bit 1 stash). -/
def reading (b1 b2 : Line) (p : Nat) : State :=
  ((claiming (clm (.reading 1 2)) b1 b2).put pgT FLW_INSERT_CFG.RELOC_EN (p % 2)).put pgT FLW_INSERT_CFG.STASH_EN (p / 2)
/-- A bucket whose four slots hold records 10 to 13 of other identities. -/
def fullBucket : Line := [0, 1, 2, 3].foldl (fun l i => putSlot l i (100 + i) (200 + i) (10 + i) 0) 0
theorem witness_claim_read :
    (reading (putSlot 0 3 3 4 77 0) 0 3).flow.claims.findSome? (reading (putSlot 0 3 3 4 77 0) 0 3).claimBack = some (clm (.reading 1 2), 1, 2) ∧
    (reading (putSlot 0 3 3 4 77 0) 0 3).claimFound (clm (.reading 1 2)) (putSlot 0 3 3 4 77 0) 0 = some 77 ∧
    (reading (putSlot 0 3 3 4 77 0) 0 3).removing 77 = false ∧
    ({ up with flow := { up.flow with removals := [{ id := 1, r := 77, cause := 0 }] } } : State).removing 77 = true ∧
    (reading 0 0 3).claimFound (clm (.reading 1 2)) 0 0 = none ∧ (reading 0 0 3).usedRecords < 67108864 ∧
    chooseSlot (choice1 4) (choice2 4) 0 0 = some (choice2 4, 0) ∧ chooseSlot (choice1 4) (choice2 4) fullBucket fullBucket = none ∧
    (reading fullBucket fullBucket 1).claimFound (clm (.reading 1 2)) fullBucket fullBucket = none ∧
    (reading fullBucket fullBucket 1).get pgT FLW_INSERT_CFG.RELOC_EN = 1 ∧ (reading fullBucket fullBucket 2).get pgT FLW_INSERT_CFG.RELOC_EN = 0 ∧
    (reading fullBucket fullBucket 2).get pgT FLW_INSERT_CFG.STASH_EN = 1 ∧ (reading fullBucket fullBucket 2).stashFree = some 0 := by decide +kernel
theorem witness_claim_answers (b1 b2 : Line) :
    (claiming (clm (.reading 1 2)) b1 b2).fmc.resp.get none 1 = some (some b1) ∧ (claiming (clm (.reading 1 2)) b1 b2).fmc.resp.get none 2 = some (some b2) :=
  ⟨rfl, rfl⟩
/-- `n` records in use. -/
def usedState (n : Nat) : State := { up with flow := { up.flow with used := List.replicate n (0, true) } }
theorem usedState_len (n : Nat) : (usedState n).usedRecords = n := by simp [State.usedRecords, usedState]
theorem witness_claim_full : ∃ s : State, 67108864 ≤ s.usedRecords := ⟨usedState 67108864, Nat.le_of_eq (usedState_len 67108864).symm⟩
/-- A write of claim 9 failed; a write of claim `c` is not yet accepted. -/
def failing (s : State) : State := { s with fmc := { s.fmc with failed := [(9, true)] } }
def waiting (c : Claim) : State :=
  { claiming c 0 0 with fmc := { up.fmc with wait := up.copyWrites (up.hotLoc 0) 0 2 0x20 c.id false } }
theorem witness_claim_writes :
    (claiming (clm .halves) 0 0).flow.claims.find? (fun x => x.stage == .halves && (claiming (clm .halves) 0 0).accepted x.id) = some (clm .halves) ∧
    (claiming (clm .halves) 0 0).fmc.failed.get false 9 = false ∧ (failing (claiming (clm .halves) 0 0)).fmc.failed.get false 9 = true ∧
    (clm .halves).stash = false ∧ ({ clm .halves with stash := true } : Claim).stash = true ∧ (clm .header).src < 8 ∧
    (claiming (clm .header) 0 0).flow.claims.find? (fun x => x.stage == .header && (claiming (clm .header) 0 0).accepted x.id) = some (clm .header) ∧
    (claiming (clm .queued) 0 0).flow.claims.findSome? (claiming (clm .queued) 0 0).claimBack = none ∧
    (∀ c ∈ (waiting (clm .halves)).flow.claims, (waiting (clm .halves)).accepted c.id = false) := by decide +kernel
/-- An open fence of claim 9. -/
def fence (n : Nat) : State :=
  { claiming (clm .moving) 0 0 with flow := { up.flow with claims := [clm .moving], fences := [{ hash := 1, key := 2, r := 0, oldB := 0, oldSlot := 0, newB := 1, newSlot := 0, stage := n, claim := 9 }] } }
theorem witness_fence :
    ((fence 0).flow.fences.find? (fun f => f.stage == 0 && (fence 0).accepted f.claim)).isSome = true ∧ (fence 0).claim 9 = some (clm .moving) ∧
    (fence 0).fmc.failed.get false 9 = false ∧ (failing (fence 0)).fmc.failed.get false 9 = true ∧
    ((fence 1).flow.fences.find? (fun f => f.stage == 1 && (fence 1).accepted f.claim)).isSome = true ∧ up.flow.claims = [] ∧ up.flow.fences = [] := by
  decide +kernel
/-- Stash entry 1,023 holds a header; a drain of it into a slot whose MOVE_GEN is to be `g`. -/
def stashed : State := { up with flow := { up.flow with stash := [(1023, hdrMake 3 4 77 0 1)] } }
def draining (g : Nat) : State := { stashed with flow := { stashed.flow with drains := [⟨1023, 0, 0, g⟩] } }
theorem witness_stash :
    hdrValid (stashed.flow.stash.get 0 1023) = true ∧ (stashed.flow.drains.any fun d => d.entry == 1023) = false ∧ stashed.keyFree 4 = true ∧
    (stashed.readNow (stashed.bucketLoc (choice1 4)) 2 0x20 false []).1 = some 0 ∧
    ((stashed.readNow (stashed.bucketLoc (choice1 4)) 2 0x20 false []).2.readNow (stashed.bucketLoc (choice2 4)) 2 0x20 false []).1 = some 0 ∧
    hdrKey (stashed.flow.stash.get 0 1023) = 4 ∧ hdrValid (up.flow.stash.get 0 0) = false ∧
    ((draining 0).flow.drains.find? fun d => (draining 0).accepted (drainTag d.entry)) = some ⟨1023, 0, 0, 0⟩ ∧
    (draining 0).fmc.failed.get false (drainTag 1023) = false ∧ hdrGen ((draining 0).hdrAt 0) = 0 ∧ hdrGen ((draining 1).hdrAt 0) ≠ 1 ∧
    ({ draining 0 with fmc := { up.fmc with failed := [(drainTag 1023, true)] } } : State).fmc.failed.get false (drainTag 1023) = true ∧
    ({ stashed with flow := { stashed.flow with locks := [(choice1 4, 9)] } } : State).keyFree 4 = false := by decide +kernel
/-- One removal of record `r` at a stage. -/
def removing (st : RemStage) (s : State) : State := { s with flow := { s.flow with removals := [{ id := 1, r := 0, cause := 0, stage := st }] } }
theorem witness_removal :
    ((removing .queued up).flow.removals.find? fun (x : Removal) => x.stage == .queued && (removing .queued up).bucketsFree x.r &&
      (x.partner.map (removing .queued up).bucketsFree).getD true).isSome = true ∧
    ((removing .cleared up).flow.removals.find? fun (x : Removal) => x.stage == .cleared).isSome = true ∧
    ((removing .reading up).flow.removals.find? fun (x : Removal) => x.stage == .reading).isSome = true ∧
    (removing .reading up).flow.removals.map (·.partner) = [none] ∧
    (removing .reading up).feature 5 = false ∧ (removing .reading (feat 32)).feature 5 = true ∧
    ((removing .reading up).finalHot 0 []).1 ≠ none ∧ up.flow.removals = [] ∧ up.flow.drains = [] := by decide +kernel
/-- Record 0 is in use and stands in DRAM as ACTIVE; `eff` is its class's timeout, the time base at 2^32 ns. -/
def idleState (eff : Nat) : State :=
  let s := inDram (up.hotLoc 0) (hLife.set 0 lifeActive) (up.put pgT FLW_AGE_EFFn.EFF eff 0)
  { s with flow := { s.flow with used := [(0, true)] }, io := { s.io with time := { s.io.time with ns := 2 ^ 32 } } }
/-- The background limiter has no tokens left. -/
def spent : State := { up with fmc := { up.fmc with bgUsed := 655360 } }
theorem witness_walk :
    (idleState 1).flow.used.get false (idleState 1).flow.walk = true ∧ (idleState 1).bgMay 0x20 1 = true ∧ spent.bgMay 0x20 1 = false ∧
    (((idleState 1).readNow ((idleState 1).hotLoc 0) 4 0x20 false []).1.map fun h => hLife.get h) = some lifeActive ∧
    ((idleState 1).readNow ((idleState 1).hotLoc 0) 4 0x20 false []).2.idle (hLife.set 0 lifeActive) = true ∧
    hLife.get (((idleState 1).readNow ((idleState 1).hotLoc 0) 4 0x20 false []).2.curHot 0) = lifeActive ∧
    ((idleState 1).flow.removals.any fun x => x.r == 0 || x.partner == some 0) = false ∧
    ((idleState 0).readNow ((idleState 0).hotLoc 0) 4 0x20 false []).2.idle (hLife.set 0 lifeActive) = false := by decide +kernel

/-! ### Programmable sequencers -/

/-- Context `c` of sequencer `q` is `x`. -/
def ctxState (q c : Nat) (x : Ctx) : State := { up with pip := { up.pip with ctx := [(32 * q + c, x)] } }
/-- Pipeline 7 has a create miss that wants a routine; a claim of its that needs a move; the global Pip has an event. -/
def wanting : State := { up with flow := { up.flow with miss := [(7, [{ hash := 3, key := 4, stage := .wants, passes := [{}] }])] } }
def moving (n : Nat) : State := { up with flow := { up.flow with claims := List.replicate n { clm .needMove with src := 7 } } }
def posted (l : List Event) : State := { up with pip := { up.pip with evq := l } }
theorem witness_routine_start :
    wanting.relocWaiting 7 = none ∧ (wanting.oldestWant 7).map Miss.passes = some [{}] ∧ (wanting.freeCtxs 7 32).head? = some 0 ∧
    wanting.get (pgPip 7) PIP_CTL.STOP = 0 ∧ wanting.claimsFull 7 = false ∧
    (wanting.put (pgPip 7) PIP_CTL.STOP 1).get (pgPip 7) PIP_CTL.STOP = 1 ∧ (wanting.put (pgPip 7) PIP_CTL.STOP 1).oldestWant 7 = wanting.oldestWant 7 ∧
    ((moving 1).relocWaiting 7).map Claim.id = some 9 ∧ ((moving 1).freeCtxs 7 32).head? = some 0 ∧ (moving 1).get (pgPip 7) PIP_CTL.STOP = 0 ∧
    (posted [{ evt := 0x14 }]).nextEvent = some ({ evt := 0x14 }, 0) ∧ up.nextEvent = none := by decide +kernel
theorem witness_claims_full :
    ({ wanting with flow := { wanting.flow with claims := List.replicate 64 { clm .queued with src := 7 } } } : State).claimsFull 7 = true := by
  decide +kernel
/-- The wait of context 7 of the global Pip for condition `n`. -/
def await (n : Nat) (f : Bool) : Ctx := { phase := .waiting, cond := n, fired := f }
/-- Context `c` of the global Pip waits for an event, and event `e` is posted. -/
def eventWait (c e : Nat) : State := { up with pip := { up.pip with ctx := [(32 * 8 + c, await 4 false)], evq := [{ evt := e }] } }
theorem witness_wait :
    ((ctxState 8 7 (await 5 true)).ctx 8 7).phase = .waiting ∧ (ctxState 8 7 (await 5 true)).waitHolds 8 7 (await 5 true) = true ∧
    (ctxState 8 7 (await 5 false)).waitHolds 8 7 (await 5 false) = false ∧
    (eventWait 6 0x12).waitHolds 8 6 (await 4 false) = true ∧ (eventWait 6 0x12).postedTo 6 = some { evt := 0x12 } ∧
    (eventWait 7 0x15).postedTo 7 = some { evt := 0x15 } ∧
    (ctxState 7 31 (await 16 false)).waitHolds 7 31 (await 16 false) = true ∧
    ((ctxState 7 31 { timer := some 9 }).ctx 7 31).timer = some 9 ∧ (up.ctx 7 31).timer = none ∧ up.io.tickInc ≠ 0 := by decide +kernel
/-- Context 31 of pipeline 7 with one memory operation. -/
def opState (o : MemOp) : State := ctxState 7 31 { phase := .ready, ops := [o] }
theorem witness_lock :
    (((opState ⟨5, 0, 0, 0, 255, 0⟩).ctx 7 31).ops.find? fun x => x.op == 5) = some ⟨5, 0, 0, 0, 255, 0⟩ ∧
    (opState ⟨5, 0, 0, 0, 255, 0⟩).devLock 255 = 0 ∧ (opState ⟨5, 0, 0, 0, 255, 0⟩).lockWanted 255 (32 * 7 + 31) = false ∧
    ({ up with pip := { up.pip with lock := [(255, 1)] } } : State).devLock 255 ≠ 0 := by decide +kernel
theorem witness_response :
    ((opState ⟨3, 0, 0, 0, 9, 0⟩).ctx 7 31).ops[0]? = some ⟨3, 0, 0, 0, 9, 0⟩ ∧
    (claiming { clm .done with code := some 0 } 0 0).claim 9 = some { clm .done with code := some 0 } ∧
    (claiming { clm .done with code := some 13 } 0 0).claim 9 = some { clm .done with code := some 13 } ∧
    ((opState ⟨1, 6, 8, 15, 0, 0⟩).ctx 7 31).ops[0]? = some ⟨1, 6, 8, 15, 0, 0⟩ ∧
    (match (opState ⟨1, 6, 8, 15, 0, 0⟩).spaceBytes 7 {} 6 0 8 with
     | some l => l.length == 8 && !(({} : Ctx).sealBroken 7 (({} : Ctx).setBytes 15 (overlay [] 6 0 l)))
     | none => false) = true := by decide +kernel
/-- A COMMIT of context 31 of pipeline 7 is in progress; a write of it has failed when `b`. -/
def committing (b : Bool) : State :=
  { ctxState 7 31 { phase := .committing } with fmc := { up.fmc with failed := if b then [(commitTag 7 31, true)] else [] } }
theorem witness_commit_accepted :
    ((committing false).ctx 7 31).phase = .committing ∧ (committing false).accepted (commitTag 7 31) = true ∧
    (committing false).fmc.failed.get false (commitTag 7 31) = false ∧ goesLive none 0 = false ∧
    (committing true).fmc.failed.get false (commitTag 7 31) = true ∧
    ((ctxState 7 31 { phase := .ready, visAt := some 0 }).ctx 7 31).visAt = some 0 ∧
    ((ctxState 7 31 { phase := .ready, visAt := some 0 }).ctx 7 31).heldBack = false ∧ (up.ctx 7 31).visAt = none ∧
    ((ctxState 7 31 { phase := .refetch }).ctx 7 31).phase = .refetch := by decide +kernel
theorem witness_deadline :
    ((ctxState 7 31 { phase := .ready, evt := 1, pass := some {} }).ctx 7 31).evt = 1 ∧
    ((ctxState 7 31 { phase := .ready, evt := 1, pass := some {} }).ctx 7 31).pass.isSome = true ∧
    ((ctxState 7 31 { phase := .ready, evt := 1, pass := some {} }).ctx 7 31).finalReached = false ∧
    (up.ctx 7 31).phase = .free ∧ ((wanting.missesOf 7)[0]?).map (fun m => (m.stage, m.passes)) = some (.wants, [({} : Pass)]) := by decide +kernel
/-- Context 31 of pipeline 7 at the first patch microword, which names nano-word 3,584: MOV of W[0] to W[0]; or the nano-word `n`. -/
def micro (n : BitVec 192) (a : Nat) : State :=
  { ctxState 7 31 { phase := .ready, uaddr := a } with pip := { up.pip with ctx := [(32 * 7 + 31, { phase := .ready, uaddr := a })], patch := [(14 * 512, 0xE00000#24)], nano := [(14 * 512, n)] } }
/-- B from IMM, ADD, flags, IMM = 1, to G[15]. -/
def nanoAdd : BitVec 192 := BitVec.ofNat 192 (2 ^ 172 + 2 ^ 151 + 2 ^ 119 + 47 * 2 ^ 154 + 1)
/-- Context 31 of pipeline 7 issued last, and contexts 0 and 1 are ready. -/
def twoReady : State :=
  { up with pip := { up.pip with ctx := [(32 * 7, { phase := .ready }), (32 * 7 + 1, { phase := .ready })], recent := [(7, [31])] } }
theorem witness_microword :
    (31 : Nat) < ctxCount 7 ∧ (micro nanoAdd 0x4000).hasTurn 7 31 = true ∧ twoReady.hasTurn 7 1 = false ∧ twoReady.hasTurn 7 0 = true ∧
    (((micro nanoAdd 0x4000).ctx 7 31).visAt = none ∧ (match (micro nanoAdd 0x4000).nanoAt 7 0 (uNano 0xE00000#24) with
      | n => decide (nAlu n < 14 ∧ nAlu n ≠ 10 ∧ nSrcA n 0 < 48 ∧ nDst n (uArg 0xE00000#24) = 47)) = true ∧
      ((micro nanoAdd 0x4000).ctx 7 31).sealBroken 7 (((micro nanoAdd 0x4000).ctx 7 31).setOp 47 1) = false) ∧ ((micro nanoAdd 0x4000).ctx 7 31).phase = .ready ∧
    (micro nanoAdd 0x4000).microAt 7 0 ((micro nanoAdd 0x4000).redirect 7 0 0x4000) = some 0xE00000#24 ∧
    (micro nanoAdd 0x4000).nanoGone 7 (uNano 0xE00000#24) = false ∧ uSeq 0xE00000#24 = 0 ∧
    (micro nanoAdd 0x4000).nanoAt 7 0 (uNano 0xE00000#24) = nanoAdd ∧ nRsv nanoAdd = 0 ∧ nSize nanoAdd < 6 ∧ nAlu nanoAdd = 1 ∧
    nMem nanoAdd = 0 ∧ nSrcA nanoAdd 0 < 48 ∧ nBImm nanoAdd = true ∧ nAddr nanoAdd < 48 ∧ nDst nanoAdd 0 = 47 ∧ nCommit nanoAdd = false ∧
    nCkpt nanoAdd = false ∧ nFlags nanoAdd = true ∧ aluOp 1 0 (nImm nanoAdd) 0 (nPos nanoAdd) (nLen nanoAdd) = some (1, some (false, false)) ∧
    (micro 0 0x4200).microAt 7 0 ((micro 0 0x4200).redirect 7 0 0x4200) = none := by decide +kernel
theorem witness_standard_routine :
    ((ctxState 8 7 { phase := .ready, evt := 0x14 }).ctx 8 7).micro = false ∧ 7 < ctxCount 8 ∧ (ctxState 8 7 { phase := .ready, evt := 0x14 }).hasTurn 8 7 = true ∧
    ((ctxState 7 31 { phase := .ready, evt := 2 }).ctx 7 31).evt = 2 ∧
    ((ctxState 7 31 { phase := .ready, evt := 1, pass := some {} }).ctx 7 31).rt = 0 ∧
    ((ctxState 7 31 { phase := .ready, evt := 1, pass := some {} }).ctx 7 31).wClaim = none := by decide +kernel
/-- A patch image of 16 B is being loaded for the global Pip, with these features. -/
def loadingPip (v : Nat) : State :=
  let s := feat v
  { s with io := { s.io with pcie := { s.io.pcie with linkUp := true, bme := true } }, pip := { s.pip with loading := [(8, 17)] } }
theorem witness_pip_stop :
    up.takesWrite 1 (pgPip 8 + PIP_CTL.STOP.off) = true ∧ (∀ c, c < ctxCount 8 → (up.ctx 8 c).phase = .free) ∧ up.missesOf 8 = [] ∧
    up.flow.claims = [] ∧ up.get (pgPip 8) PIP_CTL.STOP = 0 ∧ up.get (pgPip 8) PIP_STAT.STOPPED = 0 ∧
    up.takesWrite 1 (pgPip 8 + PIP_LOAD_CTL.GO.off) = true ∧ up.takesWrite 0x28 (pgPip 8 + PIP_LOAD_CTL.GO.off) = true ∧ ctlMaster 0x28 = false ∧
    up.loadRunning 8 = false ∧ (loadingPip 0).loadRunning 8 = true ∧ (loadingPip 0).takesWrite 1 (pgPip 8 + PIP_LOAD_CTL.GO.off) = true ∧
    up.pip.loading.get 0 8 = 0 ∧ (loadingPip 0).pip.loading.get 0 8 ≠ 0 ∧ (loadingPip 0).feature 11 = false ∧ (loadingPip 2048).feature 11 = true ∧
    (loadingPip 2048).io.mayDma = true ∧ up.io.mayDma = false ∧ imgCheck 8 true ([].take ((loadingPip 2048).pip.loading.get 0 8 - 1)) = some plBadFormat := by
  decide +kernel
theorem witness_pip_install :
    (({ up with pip := { up.pip with image := [(8, some { version := 1, regs := [], words := [], nano := [] })] } } : State).pip.image.get none 8).isSome = true ∧
    up.commitNear (pgPip 8) = false ∧ up.get (pgPip 8) PG_SHADOW_CTL.SHADOW_BUSY = 0 ∧
    (regs [(pgPip 8, PG_SHADOW_CTL.SHADOW_BUSY, 1, 0)]).get (pgPip 8) PG_SHADOW_CTL.SHADOW_BUSY = 1 ∧ up.pip.image.get none 8 = none := by decide +kernel

/-! ### Flow memory -/

/-- A place in pseudo-channel 127, mirrored or not; a write of it and a read. -/
def loc (m : Bool) : Loc := { a := 127, b := 63, la := 0x290000, mirrored := m }
def wr (m : Bool) : WReq := { loc := loc m, side := false, pc := 127, la := 0x290000, data := 1, cls := 2, who := 1, tag := 9 }
def rq : Req := { id := 6, loc := loc false, side := false, pc := 127, la := 0x290000, cls := 2, who := 1, drain := false, again := true }
/-- Pseudo-channel 127 in a state, stale or not. -/
def pcIn (n st : Nat) : State := (up.put (pcPage 127) FMC_PC_STAT.STATE n 3).put (pcPage 127) FMC_PC_STAT.STALE st 3
def memState (l : List WReq) (r : List Req) (w : List WReq) (n : Nat) : State :=
  { pcIn n 0 with fmc := { up.fmc with wq := [(127, l)], rq := [(127, r)], wait := w, flight := r.map fun x => { req := x, data := 3 } } }
theorem witness_memory_issue :
    (pcIn 1 0).pcState 127 = 1 ∧ up.pcState 127 ≠ 1 ∧ (memState [wr true] [] [] 0).writeMode 127 false ≠ 0 ∧
    (memState [wr true] [] [] 0).readyWrite 127 = some (wr true) ∧ (memState [] [rq] [] 0).writeMode 127 false = 0 ∧
    (((memState [] [rq] [] 0).setMode 127 0).bgThrottle 127).nextRead 127 true 4 = some rq ∧ (memState [] [rq] [] 0).rqWaiting 127 = [] ∧
    (memState [] [rq] [] 2).pcState 127 = 2 ∧ (((memState [] [rq] [] 2).setMode 127 0).bgThrottle 127).nextRead 127 false 4 = some rq := by decide +kernel
theorem witness_memory_accept :
    ((memState [] [] [wr true] 0).fmc.wait.find? fun w => w.pc == 127 && (w.cls != 4 || (memState [] [] [wr true] 0).bgMay w.who 1)) = some (wr true) ∧
    (memState [] [] [wr true] 0).fmc.wait.filter (fun x => x.pc == 127 && x.la == 0x290000) = [wr true] ∧
    (memState [] [] [wr true] 0).takes (wr true) = .queue ∧ (memState [] [] [wr true] 1).takes (wr true) = .buffer ∧
    (memState (List.replicate 64 { wr true with la := 6 }) [] [wr true] 0).takes (wr true) = .full ∧
    (memState [] [] [wr true] 2).takes (wr true) = .refuse ∧ (wr true).cond = false ∧ (memState [] [] [wr true] 2).tableBlocked 127 0x290000 = false ∧
    up.fmc.wait = [] := by decide +kernel
theorem witness_memory_complete :
    ((memState [] [rq] [] 0).fmc.flight.find? fun x => x.req.pc == 127) = some { req := rq, data := 3 } ∧ rq.who ≠ 0x31 ∧ rq.again = true ∧
    (memState [] [rq] [] 0).fmc.fault.get .clean ((memState [] [rq] [] 0).cell 127 rq.la) = .clean ∧ up.fmc.flight = [] ∧
    bankOf (16 * 15) = 15 := by decide +kernel
/-- The scrubber is enabled and at the last line, of pseudo-channel 127, in state `n`. -/
def scrubbing (n : Nat) : State :=
  let s := (regs [(pgFmc 0 11, FMC_SCRUB_CFG.EN, 1, 0)]).put (pcPage 127) FMC_PC_STAT.STATE n 3
  { s with fmc := { s.fmc with scrub := 8388608 * 127 + 8388607 } }
theorem witness_memory_scrub :
    (regs [(pgFmc 3 0, FMC_TRAIN_CFG.EN, 0, 0)]).get (pgFmc 3 0) FMC_TRAIN_CFG.EN = 0 ∧
    (regs [(pgFmc 3 0, FMC_TRAIN_CFG.EN, 1, 0)]).get (pgFmc 3 0) FMC_TRAIN_CFG.EN = 1 ∧
    (∀ p ∈ chanPcs 3 15, (regs [(pgFmc 3 0, FMC_TRAIN_CFG.EN, 1, 0)]).pcState (partner p) = 0) ∧
    (∃ p ∈ chanPcs 3 15, (up.put (pcPage 63) FMC_PC_STAT.STATE 1 3).pcState (partner p) ≠ 0) ∧
    (∀ p ∈ chanPcs 3 15, up.pcState p ≠ 1) ∧ (∃ p ∈ chanPcs 3 15, (pcIn 1 0).pcState p = 1) ∧
    (regs [(pgFmc 0 11, FMC_SCRUB_CFG.EN, 0, 0)]).get (pgFmc 0 11) FMC_SCRUB_CFG.EN = 0 ∧
    (scrubbing 0).get (pgFmc 0 11) FMC_SCRUB_CFG.EN = 1 ∧ (scrubbing 0).get (pgTel 0) TEL_SUSPEND.SCRUB = 0 ∧
    (regs [(pgTel 0, TEL_SUSPEND.SCRUB, 1, 0)]).get (pgTel 0) TEL_SUSPEND.SCRUB = 1 ∧ (scrubbing 0).fmc.scrub = 8388608 * 127 + 8388607 ∧
    (scrubbing 0).pcState 127 ≠ 2 ∧ (scrubbing 0).io.nvm.retired.get 0 127 ≠ 1 ∧ ((scrubbing 0).rq 127).length < 64 ∧ (scrubbing 2).pcState 127 = 2 := by
  decide +kernel
theorem witness_freeze :
    up.takesWrite 1 (pgFmc 3 8 + FMC_PC_CTL.FREEZE.off + 64 * 3) = true ∧ (pcIn 0 0).pcState 127 = 0 ∧ (pcIn 0 0).pcState (partner 127) = 0 ∧
    (pcIn 2 0).pcState 127 = 2 ∧ (pcIn 2 0).pcStale 127 = false ∧ (pcIn 2 1).pcStale 127 = true ∧ (pcIn 2 1).pcState 127 ≠ 3 ∧
    (pcIn 2 1).pcState 127 ≠ 4 ∧ (pcIn 0 0).pcStale 127 = false ∧ up.get (pgFmc 3 9) FMC_CAP_STAT.VALID = 0 ∧
    (up.put (pcPage 63) FMC_PC_STAT.STATE 2 3).pcState (partner 127) ≠ 0 ∧ (pcIn 2 0).takesWrite 1 (pgFmc 3 8 + FMC_PC_CTL.FREEZE.off + 64 * 3) = true ∧
    (pcIn 2 0).pcState (chanMate 127) = 0 ∧ (pcIn 2 0).pcState (partner (chanMate 127)) = 0 := by decide +kernel
/-- Pseudo-channel 127 is frozen and in its release retraining, stale or not. -/
def releasing (st : Nat) : State := { pcIn 2 st with fmc := { up.fmc with releasing := [(127, true)] } }
theorem witness_release :
    (releasing 0).fmc.releasing.get false 127 = true ∧ (releasing 0).pcState 127 = 2 ∧ (releasing 0).pcStale 127 = false ∧ (releasing 1).pcStale 127 = true ∧
    (releasing 1).pcState 127 = 2 ∧ up.fmc.releasing.get false 127 = false := by decide +kernel
/-- One degraded line of pseudo-channel 127, with the copy in its partner sound. -/
def degraded : State := { up with fmc := { up.fmc with deg := [(3, [(127, 0x290000)])] } }
theorem witness_repair :
    (up.degraded 3).find? up.repairable = none ∧ (degraded.degraded 3).find? degraded.repairable = some (127, 0x290000) ∧
    degraded.bgMay 0x32 2 = true ∧ (degraded.readCopy (degraded.locAt 127 0x290000) true 4 0x32 true .clean).1 = some 0 ∧
    (degraded.readCopy (degraded.locAt 127 0x290000) true 4 0x32 true (.bad 0)).1 = none ∧
    (let s := { degraded with fmc := { degraded.fmc with bgUsed := 655360 } }
     s.bgMay 0x32 2 = false ∧ (s.degraded 3).find? s.repairable = some (127, 0x290000)) := by decide +kernel
theorem witness_retire :
    up.takesWrite 1 (pgFmc 3 0 + FMC_RETIRE_CTL.GO.off) = true ∧ up.pcState 127 = 0 ∧ up.io.nvm.remaps.get 0 (remapKey 127 15 32767) = 0 ∧
    (∀ i < 16, (up.locAt 127 (256 * 0x3000 + 16 * 15 + i)).mirrored = true) ∧ up.pcState (partner 127) = 0 ∧
    (∀ i < 16, (up.locAt 127 (16 * 15 + i)).mirrored = false) ∧
    up.sparesUsed 127 15 < 1024 ∧ (pcIn 3 0).pcState 127 ≠ 0 ∧ (pcIn 3 0).pcState 127 ≠ 2 ∧ (pcIn 2 0).pcState 127 = 2 ∧
    ({ up with io := { up.io with nvm := { up.io.nvm with remaps := [(remapKey 127 15 5, 1)] } } } : State).io.nvm.remaps.get 0 (remapKey 127 15 5) ≠ 0 ∧
    1024 ≤ ({ up with io := { up.io with nvm := { up.io.nvm with remaps := (List.range 1024).map fun i => (remapKey 127 15 i, i + 1) } } } : State).sparesUsed 127 15 := by
  decide +kernel
/-- The same with FLOW_MIRROR. -/
def frozen : State := ((feat 4).put (pcPage 127) FMC_PC_STAT.STATE 2 3)
theorem witness_pc_retire :
    frozen.pcState 127 = 2 ∧ frozen.mirror = true ∧ frozen.get (pgFmc 3 0) FMC_STK_STAT.RETIRED_PC = 0xFF ∧
    (frozen.put (pgFmc 3 0) FMC_STK_STAT.RETIRED_PC 1).get (pgFmc 3 0) FMC_STK_STAT.RETIRED_PC ≠ 0xFF ∧
    frozen.takesWrite 1 (pgFmc 3 0 + FMC_RETIRE_CTL.GO.off) = true ∧ (pcIn 0 1).pcStale 127 = true ∧ (pcIn 0 1).pcState 127 ≠ 3 ∧
    (pcIn 3 1).pcState 127 = 3 ∧ (pcIn 4 1).pcState 127 = 4 ∧ (pcIn 0 0).pcState 127 ≠ 2 ∧ (pcIn 0 0).pcStale 127 = false := by decide +kernel
/-- A rebuild of pseudo-channel 127 at line `n`, with `u` bytes above the rate. -/
def rebuilding (n u : Nat) : State := { up with fmc := { up.fmc with rebuild := [(3, [127])], rebuildPos := [(3, n)], rebuildUsed := u } }
theorem witness_rebuild :
    up.fmc.rebuild.get [] 3 = [] ∧ (rebuilding 0 0).fmc.rebuild.get [] 3 = [127] ∧ (∀ p ∈ [127], p / 32 = 3) ∧ (rebuilding 0 0).mirror = false ∧
    max ((rebuilding (rebuildEnd - 1) 0).fmc.rebuildPos.get 0 3) 0x280000 < rebuildEnd ∧ (rebuilding 0 0).rebuildLevel = 0 ∧
    (rebuilding 0 64).rebuildLevel ≠ 0 ∧ (rebuilding 0 0).bgMay 0x32 2 = true ∧ (rebuilding 0 0).serves ⟨127, 63, 0x280000, true⟩ true = true ∧
    ((rebuilding 0 0).readCopy ⟨127, 63, 0x280000, true⟩ true 4 0x32 true .clean).1 = some 0 ∧
    ({ rebuilding 0 0 with fmc := { (rebuilding 0 0).fmc with bgUsed := 655360 } } : State).bgMay 0x32 2 = false ∧
    rebuildEnd ≤ (rebuilding rebuildEnd 0).fmc.rebuildPos.get 0 3 ∧ (rebuilding 0 0).fmc.rebuildPos.get 0 3 < rebuildEnd := by decide +kernel
/-- The diagnostic address names a spare row no remap uses. -/
def spareAddr : State := (pcIn 2 0).put (pgFmc 3 9) FMC_DIAG_ADDR.ADDR (64 * 256 * 30720)
theorem witness_diag :
    (pcIn 2 0).takesWrite 1 (pgFmc 3 9 + FMC_DIAG_CTL.GO.off) = true ∧ (pcIn 2 0).fmc.diag.get none 3 = none ∧ (pcIn 2 0).pcState 127 = 2 ∧
    (pcIn 2 0).freeSpare 127 ((pcIn 2 0).get (pgFmc 3 9) FMC_DIAG_ADDR.ADDR / 64) = false ∧ spareAddr.pcState 127 = 2 ∧
    spareAddr.freeSpare 127 (spareAddr.get (pgFmc 3 9) FMC_DIAG_ADDR.ADDR / 64) = true ∧ up.pcState 127 ≠ 2 ∧ up.fmc.diag.get none 3 = none ∧
    (∀ b : Bool, ({ up with fmc := { up.fmc with diag := [(3, some ⟨b, 127, 5⟩)] } } : State).fmc.diag.get none 3 = some ⟨b, 127, 5⟩) := by decide +kernel

/-! ### Transmission, shaping, gates -/

/-- Port 127 with a copy in queue 7, its link up. -/
def sending : State := { port with buf := { port.buf with queues := [(1023, [{ pkt := 1, len := 64 }])], store := [(1, { bytes := List.replicate 60 0, cells := 1, refs := 1 })] } }
theorem witness_transmission :
    (up.refillDue.clearHeads 127).mayStart 127 = false ∧ (sending.refillDue.clearHeads 127).mayStart 127 = true ∧
    ((sending.refillDue.clearHeads 127).choose 127).map (·.1) = some 7 ∧
    ((sending.refillDue.clearHeads 127).head 1023).map (·.len) = some 64 ∧ (up.buf.sched.get {} 127).tx = none ∧
    (({ up with buf := { up.buf with sched := [(127, { tx := some ({ pkt := 1, len := 64 }, 7) })] } } : State).buf.sched.get {} 127).tx
      = some ({ pkt := 1, len := 64 }, 7) ∧
    (sending.put (pgEth 31 0) ETH_LOOPBACK.MODE 1).get (pgEth 31 0) ETH_LOOPBACK.MODE = 1 ∧ sending.get (pgEth 31 0) ETH_LOOPBACK.MODE ≠ 1 := by
  decide +kernel
theorem witness_flush :
    up.takesWrite 1 (pgTmbP 127 + TMB_Q_FLUSH.FLUSH.off) = true ∧ up.takesWrite 1 (pgTmbP 127 + TMB_Q_HIGH.HIGH.off + 16 * 7) = true ∧
    up.takesWrite 1 (pgTmb + TMB_FREE_LOW.LOW.off) = true := by decide +kernel
/-- Port 127 with a gate list of one entry in force, or waiting. -/
def gates : GateList := { en := true, cycle := 1000, base := 5, entries := [(255, 1000)] }
theorem witness_gates :
    ({ up with io := { up.io with time := { up.io.time with due := { up.io.time.due with refill := 1 } } } } : State).io.time.due.refill = 1 ∧
    (up.operList 127).en = false ∧ (({ up with buf := { up.buf with oper := [(127, gates)] } } : State).operList 127).en = true ∧
    dropTime gates.cut (gates.pos 0) = [(255, 5)] ∧ gates.base ≤ 5 ∧ up.io.tickInc ≠ 0 ∧ up.awaitList 127 = none ∧
    (({ up with buf := { up.buf with await := [(127, some gates)] } } : State).awaitList 127) = some gates := by decide +kernel

/-! ### Telemetry and counters -/

/-- The telemetry of the device. -/
def telState (x : Tel) (s : State) : State := { s with tel := x }
theorem witness_export :
    up.tel.msg = [] ∧ (telState { msg := [(256, [])] } up).tel.msg ≠ [] ∧ up.takesWrite 1 (pgTel 0 + TEL_EXPORT_TMPL.SEND.off) = true ∧
    (regs [(pgE, TEL_EXPORT_TMPL.REFRESH_S, 0, 0)]).get pgE TEL_EXPORT_TMPL.REFRESH_S = 0 ∧
    ((feat 512).put pgE TEL_EXPORT_TMPL.REFRESH_S 1).get pgE TEL_EXPORT_TMPL.REFRESH_S ≠ 0 ∧ (feat 512).feature 9 = true ∧
    up.takesWrite 1 (pgTel 0 + TEL_SNAP_CTL.NOW.off) = true ∧ up.io.tickInc ≠ 0 := by decide +kernel
/-- The background limiter has no tokens left. -/
def noTokens (s : State) : State := { s with fmc := { s.fmc with bgUsed := 655360 } }
/-- The start queue names record 0, resident and ACTIVE; its class, 0, is exported when `b`. -/
def starting (b : Nat) : State := telState { startQ := [(0, zHash, zKey)] } (flowState.put pgE TEL_EXPORT_CFG.CLASS_MASK b)
theorem witness_start_record :
    up.tel.startQ = [] ∧ (starting 1).tel.startQ = [(0, zHash, zKey)] ∧ (starting 1).wayOf zKey 0 = some (4 * cacheSet zKey) ∧
    (starting 1).bgMay 0 2 = true ∧ (starting 0).bgMay 0 2 = true ∧ (noTokens (starting 1)).bgMay 0 2 = false ∧
    (match ((starting 1).setStartQ []).startHalves 0 zKey [] with | (h, c, _) => h.any ((starting 1).startFits zHash zKey) && c.isSome) = true ∧
    (match ((starting 0).setStartQ []).startHalves 0 zKey [] with | (h, _, _) => h.any ((starting 0).startFits zHash zKey)) = false ∧
    (match ((starting 1).setStartQ []).startHalves 0 zKey [.bad 0, .bad 0] with | (_, c, _) => c.isSome) = false := by decide +kernel
/-- A snapshot period has passed, snapshots enabled when `e`. -/
def snapDue (e : Nat) : State :=
  let s := regs [(pgE, TEL_SNAP_CFG.EN, e, 0)]
  { s with io := { s.io with time := { s.io.time with due := { s.io.time.due with snapshot := 1 } } } }
theorem witness_snapshot :
    (snapDue 1).io.time.due.snapshot ≠ 0 ∧ (snapDue 0).get pgE TEL_SNAP_CFG.EN = 0 ∧ (snapDue 1).get pgE TEL_SNAP_CFG.EN = 1 ∧
    (snapDue 1).telOn = true ∧ up.io.time.due.snapshot = 0 ∧ up.io.tickInc ≠ 0 ∧ (regs [(pgE, TEL_SUSPEND.TELEM, 1, 0)]).telOn = false ∧
    (regs [(pgE, TEL_SUSPEND.TELEM, 1, 0)]).takesWrite 1 (pgTel 0 + TEL_SNAP_CTL.NOW.off) = true ∧ up.policyOn 0 = false ∧
    subMod 32 (up.get pgEpc EPC_EPOCH_NUM.NUM) 0 < max 1 (up.get pgE TEL_ELE_CFG.WIN_EPOCHS) ∧
    max 1 ((regs [(pgE, TEL_ELE_CFG.WIN_EPOCHS, 1, 0), (pgEpc, EPC_EPOCH_NUM.NUM, 1, 0)]).get pgE TEL_ELE_CFG.WIN_EPOCHS) ≤
      subMod 32 ((regs [(pgE, TEL_ELE_CFG.WIN_EPOCHS, 1, 0), (pgEpc, EPC_EPOCH_NUM.NUM, 1, 0)]).get pgEpc EPC_EPOCH_NUM.NUM) 0 := by decide +kernel
theorem witness_counter_read :
    pageOf (pgPmc + PMC_CYCLES.COUNT.off) = some ⟨.pmcg, 0, pgPmc⟩ ∧ up.stranger ⟨.pmcg, 0, pgPmc⟩ 1 = false ∧ up.io.ready .pmcg = true ∧
    ((Kind.pmcg.regAt PMC_CYCLES.COUNT.off).map fun h => (h.row.ctr, h.word)) = some (true, 0) ∧
    ((Kind.pmcg.regAt (PMC_CYCLES.COUNT.off + 4)).map fun h => (h.row.ctr, h.word)) = some (true, 1) ∧ 0x040 ≤ PMC_CYCLES.COUNT.off ∧
    pipeOfAddr (pgPmc + PMC_CYCLES.COUNT.off) = none ∧ up.io.ctrSlot.get none 1 = none ∧
    (({ up with io := { up.io with ctrSlot := [(1, some (pgPmc + PMC_CYCLES.COUNT.off, 5))] } } : State).io.ctrSlot.get none 1)
      = some (up.ctrHome ⟨.pmcg, 0, pgPmc⟩ (PMC_CYCLES.COUNT.off + 4 - 4), 5) := by decide +kernel
theorem witness_preset :
    up.takesWrite 0x20 (pgPmc + PMC_PRE_CTL.GO.off) = true ∧ ctlMaster 0x20 = false ∧ isCounter (up.get pgPmc PMC_PRE_ADDR.ADDR) = false ∧
    isCounter ((regs [(pgPmc, PMC_PRE_ADDR.ADDR, pgPmc + PMC_CYCLES.COUNT.off, 0)]).get pgPmc PMC_PRE_ADDR.ADDR) = true ∧
    presetProtected (pgPmc + PMC_CYCLES.COUNT.off) = false ∧ isCounter (pgQnc + QNC_ROLL_CNT.COUNT.off) = true ∧
    presetProtected (pgQnc + QNC_ROLL_CNT.COUNT.off) = true ∧ up.takesWrite 1 (pgPmc + PMC_PRE_CTL.GO.off) = true ∧ ctlMaster 1 = true := by
  decide +kernel
/-- A window ended by counting, at count 100. -/
def windowDue : State :=
  { up with io := { up.io with time := { up.io.time with due := { window := [⟨up.io.windowNs - 1, up.io.windowNs + 1, 101, false⟩] } } } }
theorem witness_filter :
    up.takesWrite 1 (pgPmcL 7 + PMC_FLT_CFGf.EN.off + 16 * 15) = true ∧
    (eventQuals.any fun e => e.1 == gb (0x40610000#32) 16 8 && e.2.contains (gb (0x40610000#32) 28 3)) = false ∧
    (eventQuals.any fun e => e.1 == gb (0x30610000#32) 16 8 && e.2.contains (gb (0x30610000#32) 28 3)) = true ∧
    (crossing windowDue.io.windowNs windowDue.io.time.due.window).map Prod.fst = some 100 ∧ crossing up.io.windowNs up.io.time.due.window = none ∧
    up.io.tickInc ≠ 0 := by decide +kernel

/-! ### The ledger -/

/-- A booted device with SEALED_METER and this Quince state. -/
def led (q : Qnc) : State := { feat 32 with qnc := q }
/-- A hot half, ACTIVE, sealed and not yet rolled. -/
def sealedHot : Line := hSealDirty.set (hSealEn.set (hLife.set 0 lifeActive) 1) 1
/-- Record 0 stands so in DRAM. -/
def sealedState : State := inDram ((led {}).hotLoc 0) sealedHot (led {})
theorem witness_sweep :
    up.feature 5 = false ∧ (led {}).feature 5 = true ∧ (led {}).qnc.sweep = none ∧ (led {}).bgMay 0x30 1 = true ∧ (noTokens (led {})).bgMay 0x30 1 = false ∧
    ((sealedState.sweepNext.readNow (sealedState.hotLoc 0) 4 0x30 true []).1.map fun h => (hLife.get h, hSealEn.get h, hSealDirty.get h)) = some (2, 1, 1) ∧
    ((led {}).sweepNext.readNow ((led {}).hotLoc 0) 4 0x30 true []).1 = some 0 ∧ hLife.get 0 ≠ lifeActive ∧ sealedState.finalStarted 0 = false ∧
    (removing (.rolling none none) sealedState).finalStarted 0 = true ∧
    ((led {}).sweepNext.readNow ((led {}).hotLoc 0) 4 0x30 true [.bad 0, .bad 0]).1 = none := by decide +kernel
/-- The sweeper rolls record 0, from the stage `st`. -/
def rollingSweep (st : SweepStage) : State := { sealedState with qnc := { sweep := some { r := 0, hot := sealedHot, stage := st } } }
theorem witness_sweep_rolled :
    (rollingSweep .cold).qnc.sweep.map (·.stage) = some .cold ∧ (rollingSweep .cold).bgMay 0x30 1 = true ∧
    ((rollingSweep .cold).readNow ((rollingSweep .cold).coldLoc 0) 4 0x30 true []).1.isSome = true ∧ (rollingSweep .cold).qnc.acc = [] ∧
    (led {}).qnc.sweep = none ∧ (rollingSweep .written).accepted sweepTag = true ∧ (rollingSweep .written).qnc.sweep.map (·.stage) = some .written ∧
    hSealPkts.get ((led {}).curHot 0) ≠ hSealPkts.get (hSealPkts.set 0 1) ∧
    (let s := { flowState with qnc := { sweep := some { r := 0, hot := zHot, stage := .written } } }
     hSealPkts.get (s.curHot 0) = hSealPkts.get zHot ∧ (s.wayOf (hKey.get (s.lineView (s.hotLoc 0))) 0).isSome = true) := by decide +kernel
/-- A removal of record 0 whose final half is `h`, with SEALED_METER. -/
def finalState (h : Option Line) : State := removing (.rolling h none) sealedState
theorem witness_final_roll :
    up.flow.removals.findSome? up.rollReady = none ∧
    ((finalState (some sealedHot)).flow.removals.findSome? (finalState (some sealedHot)).rollReady).map (fun x => (x.1.r, x.2)) = some (0, some sealedHot, none) ∧
    (finalState none).flow.removals.findSome? (finalState none).rollReady ≠ none ∧ (finalState (some sealedHot)).bgMay 0x30 1 = true ∧
    (noTokens (finalState (some sealedHot))).bgMay 0x30 1 = false ∧ hSealEn.get sealedHot = 1 ∧ (finalState (some sealedHot)).qnc.acc = [] ∧
    ((finalState (some sealedHot)).readNow ((finalState (some sealedHot)).coldLoc 0) 4 0x30 true []).1.isSome = true := by decide +kernel
/-- Record 0 is lost, and Quince has not read it. -/
def lostState (s : State) : State := { s with flow := { s.flow with lost := [0] } }
theorem witness_lost_record :
    up.flow.lost = [] ∧ (lostState sealedState).flow.lost = [0] ∧ (lostState sealedState).bgMay 0x30 2 = true ∧
    (noTokens (lostState sealedState)).bgMay 0x30 2 = false ∧ (lostState sealedState).feature 5 = true ∧ (lostState up).feature 5 = false ∧
    ((lostState sealedState).readNow ((lostState sealedState).hotLoc 0) 4 0x30 true [.bad 0, .bad 0]).1 = none ∧
    ((lostState sealedState).readNow ((lostState sealedState).hotLoc 0) 4 0x30 true []).1 = some sealedHot := by decide +kernel
/-- A close with accounts 0 and 512 still to be read. -/
def closing : State := led { close := some { head := {}, todo := [0, 512], blocks := 1 } }
theorem witness_close :
    (led {}).qnc.close = none ∧ closing.qnc.close.map (·.todo) = some [0, 512] ∧ closing.qnc.close.map (·.entries) = some [] ∧
    closing.bgMay 0x30 1 = true ∧ (noTokens closing).bgMay 0x30 1 = false ∧ (closing.readNow (accountLoc 0) 4 0x30 true []).1.isSome = true := by
  decide +kernel
/-- One block with no tag, or a tag. -/
def blk (t : Option Nat) (p : Bool) : QBlock := { seq := 0, bytes := List.replicate 128 0, last := true, index := 0, head := {}, tag := t, persisted := p, segs := 1 }
theorem witness_block :
    (led {}).qnc.blocks = [] ∧ (led { blocks := [blk none false], key := some { id := 1, wrapped := [], key := 0 } }).qnc.key.isSome = true ∧
    (led { blocks := [blk none false], key := some { id := 1, wrapped := [], key := 0 } }).qnc.blocks = [blk none false] ∧ (blk none false).tag = none ∧
    (blk none false).seq < 2 ^ 64 - 1 ∧ (blk (some 5) false).persisted = false ∧ (blk (some 5) false).last = true ∧
    ((led {}).put (pgRing 32) RING_SIZE.LOG2 1).io.ringSize 32 ≤ 3 ∧ ghBlocks 128 ≤ 256 * 1 ∧
    (blk (some 5) false).tag = some 5 ∧ (blk (some 5) true).persisted = true ∧
    (ipfixEntries ((blk (some 5) true).bytes ++ bytesBE 16 ((blk (some 5) true).tag.getD 0))).length = 3 ∧ (led {}).io.ringRoom 32 3 = false := by
  decide +kernel
/-- Ring 32 live with room. -/
def ring32 : State :=
  let s := ((led {}).put (pgRing 32) RING_CTL.EN 1).put (pgRing 32) RING_SIZE.LOG2 6
  { s with io := { s.io with pcie := { s.io.pcie with linkUp := true, bme := true } } }
theorem witness_block_ring : ring32.io.ringSize 32 = 64 ∧ ring32.io.ringRoom 32 3 = true := by decide +kernel
theorem witness_key :
    (led {}).takesWrite 0x11 (pgQnc + QNC_KEY_CTL.LOAD.off) = true ∧ (led {}).takesWrite 1 (pgQnc + QNC_KEY_CTL.LOAD.off) = true ∧
    (led {}).qnc.load = none ∧ (led {}).get pgQnc QNC_LOCKS.KEY = 0 ∧ (led {}).sameId 0 = false ∧
    ((led {}).put pgQnc QNC_LOCKS.KEY 1).get pgQnc QNC_LOCKS.KEY = 1 ∧ (led { load := some (1, []) }).qnc.load = some (1, []) ∧
    (led { key := some { id := 0, wrapped := [], key := 0 } }).sameId 0 = true ∧ up.qnc.load = none ∧
    ({ led {} with io := { (led {}).io with time := { (led {}).io.time with due := { alive := 1 } } } } : State).io.time.due.alive ≠ 0 ∧
    (led {}).io.time.due.alive = 0 ∧ (led {}).io.tickInc ≠ 0 ∧ up.takesWrite 0x11 (pgQnc + QNC_KEY_CTL.LOAD.off) = true := by decide +kernel

/-! ### Cipher engine -/

/-- A booted device whose cipher page 63 holds `x`. -/
def cph (x : CPage) : State := { up with cph := { up.cph with page := [(63, x)] } }
theorem witness_bind :
    up.takesWrite 1 (pgCph + CPH_BINDn.MASTER.off + 4 * 63) = true ∧ up.takesWrite 0x20 (pgCph + CPH_BINDn.MASTER.off + 4 * 63) = true ∧
    ctlMaster 0x20 = false ∧ ctlMaster 1 = true ∧ tb (1#32) 31 = tb (up.io.rd (pgCph + CPH_BINDn.MASTER.off + 4 * 63)) 31 ∧
    bindAsk 1 (up.bound 63) ((1#32).toNat % 256) false = .change ∧ bindAsk 1 (up.bound 63) ((0x10#32).toNat % 256) false = .refuse ∧
    up.cphStranger 63 1 = true ∧ (regs [(pgCph, CPH_BINDn.MASTER, 1, 63)]).cphStranger 63 1 = false ∧ up.get pgCph CPH_VIOL_CAP.VALID = 0 := by
  decide +kernel
/-- Page 63 bound to the host. -/
def bound63 (x : CPage) : State := (cph x).put pgCph CPH_BINDn.MASTER 1 63
def kload (src gen : Nat) : CLoad := { src := src, mode := 1, size := 0, label := 0, gen := gen, init := 0, data := List.replicate 16 0, old := 0 }
theorem witness_key_load :
    (bound63 {}).takesWrite 1 (pgCphU 63 + CPH_KEY_CTL.LOAD.off) = true ∧ ((bound63 {}).cpage 63).load = none ∧
    ((bound63 { load := some (kload 0 0) }).cpage 63).load = some (kload 0 0) ∧
    (match (bound63 {}).loadKey 63 (kload 1 5) with | .error c => c | .ok _ => 0) = 3 ∧
    (match (bound63 {}).loadKey 63 (kload 0 0) with | .ok k => k.2.2 | .error _ => 1) = 0 ∧
    0 < ((bound63 {}).put (pgCphU 63) CPH_KEY_LIMIT.LIMIT 1).get (pgCphU 63) CPH_KEY_LIMIT.LIMIT ∧
    (bound63 {}).takesWrite 1 (pgCphU 63 + CPH_KEY_CTL.ZEROIZE.off) = true := by decide +kernel
/-- Page 63 with a key, and registers that ask for a part of a message. -/
def jobState (x : CPage) (op : Nat) : State := (((bound63 x).put (pgCphU 63) CPH_KEY_STAT.STATE 2).put (pgCphU 63) CPH_JOB_OP.OP op)
theorem witness_job :
    (jobState {} 0).takesWrite 1 (pgCphU 63 + CPH_JOB_CTL.GO.off) = true ∧ ((jobState { job := some {} } 0).cpage 63).job ≠ none ∧
    (bound63 {}).jobRefuse 63 ((bound63 {}).jobIn 63) = some 3 ∧
    (jobState {} 0).takesWrite 1 (pgCphU 63 + CPH_JOB_CTL.ABORT.off) = true ∧ ((jobState {} 0).cpage 63).job = none := by decide +kernel
/-- Page 63 runs its part on engine 15, in mode 2 when AAD is asked for: `a` bytes of AAD, part `p`, through DMA when `d` = 1. -/
def segState (d a p : Nat) : State :=
  let s := jobState { mode := if a = 0 then 3 else 2, key := some (List.replicate 16 0), msg := some { op := 2, mode := 3, key := List.replicate 16 0, iv := 0 },
                      job := some {} } 2
  let s := ((s.put (pgCphU 63) CPH_JOB_CFG.SRC d).put (pgCphU 63) CPH_JOB_CFG.PART p).put (pgCphU 63) CPH_JOB_AAD_LEN.BYTES a
  { s with cph := { s.cph with engine := [(15, 64)] } }
/-- What the segment leaves of the part and its message. -/
def segLeft (s : State) : Option (Bool × Bool × Bool) :=
  let v := s.runSegment 63 256 []
  ((v.cpage 63).job).bind fun j => ((v.cpage 63).msg).map fun g => (j.finished (s.jobIn 63), (s.jobIn 63).closes, g.mode == 3)
theorem witness_segment :
    (segState 0 0 0).cph.engine.get 0 15 = 63 + 1 ∧ (segState 0 0 0).dmaWaits 63 = false ∧ (segState 1 0 0).dmaWaits 63 = true ∧
    (segState 1 0 0 |>.put pgCph CPH_BINDn.MASTER 0x10 63).dmaWaits 63 = false ∧
    ((segState 0 0 0).jobIn 63).dma = false ∧ ((segState 1 0 0).jobIn 63).dma = true ∧
    segLeft (segState 0 4097 0) = some (false, true, true) ∧ segLeft (segState 0 0 1) = some (true, false, true) ∧
    segLeft (segState 0 0 0) = some (true, true, true) := by decide +kernel
theorem witness_ctr_limit : ((bound63 {}).put (pgCphU 63) CPH_KEY_LIMIT.LIMIT 0).get (pgCphU 63) CPH_KEY_LIMIT.LIMIT ≤ (bound63 {}).get (pgCphU 63) CPH_CTR.CTR := by
  decide +kernel
theorem witness_engine :
    up.held 65 = false ∧ (led { blocks := [{ blk none false with segs := 0 }] }).qncJob.isSome = true ∧ (led { blocks := [blk none false] }).held 65 = false ∧
    up.cph.engine.get 0 15 = 0 ∧ up.qncJob = none ∧ (∀ k : Fin 64, up.jobReady k.val = false) ∧
    (bound63 { job := some {} }).jobReady 63 = true ∧ (∀ k : Fin 64, k ≠ 63 → (bound63 { job := some {} }).jobReady k.val = false) ∧
    ({ up with cph := { up.cph with engine := [(15, 64)] } } : State).cph.engine.get 0 15 = 63 + 1 ∧
    ((bound63 {}).put (pgCphU 63) CPH_JOB_CFG.SRC 1 |>.jobIn 63).dma = true ∧
    (led { blocks := [{ seq := 7, bytes := [], last := true, index := 0, head := {} }] }).qncJob.map (·.seq) = some 7 := by decide +kernel

/-! ### Mailboxes -/

/-- Channel `c` bound, 0x01 to 0x10, in state `st`. -/
def mbx (c st : Nat) : State :=
  regs [(pgMbx, MBX_BINDc.EN, 1, c), (pgMbx, MBX_BINDc.SENDER, 1, c), (pgMbx, MBX_BINDc.RECEIVER, 0x10, c), (pgMbxCh c, MBX_STAT.STATE, st, 0)]
theorem witness_mbx_bind :
    up.takesWrite 0x11 (pgMbx + MBX_BINDc.EN.off + 4 * 15) = true ∧ up.get pgMbx MBX_BIND_LOCK.LOCK = 0 ∧
    tb (0x80000111#32) 31 = true ∧ mbxPair 15 (gb (0x80000111#32) 8 8) (gb (0x80000111#32) 0 8) = true ∧ mbxPair 7 1 0x10 = true ∧
    (up.put pgMbx MBX_BIND_LOCK.LOCK 1).get pgMbx MBX_BIND_LOCK.LOCK = 1 ∧ mbxPair 15 1 1 = false ∧ tb (0x80000101#32) 31 = true ∧
    up.io.rd (pgMbx + MBX_BINDc.EN.off + 4 * 15) ≠ 0x80000111#32 &&& 0x8000FFFF#32 ∧ up.takesWrite 0x10 (pgMbx + MBX_BINDc.EN.off + 4 * 15) = true ∧
    up.io.mbxState 15 ≠ 1 ∧ up.io.mbxState 15 ≠ 2 ∧ (mbx 15 1).io.mbxState 15 = 1 ∧ up.takesWrite 1 (pgMbx + MBX_BINDc.EN.off + 4 * 15) = true := by
  decide +kernel
theorem witness_mbx_stranger :
    (mbx 0 0).io.mbxStranger 0 1 = false ∧ (mbx 0 0).io.mbxStranger 0 0x40 = true ∧ up.io.mbxStranger 0 1 = true ∧ up.get pgMbx MBX_VIOL_CAP.VALID = 0 := by
  decide +kernel
theorem witness_mbx_post :
    (mbx 15 0).takesWrite 1 (pgMbxCh 15 + MBX_POST.LEN.off) = true ∧ Master.host.id = (mbx 15 0).io.mbxSender 15 ∧ (mbx 15 0).feature 12 = false ∧
    (feat 4096).feature 12 = true ∧ 16 < gb (17#32) 0 5 ∧ gb (16#32) 0 5 ≤ 16 ∧ (mbx 7 2).io.mbxState 7 = 2 ∧
    (mbx 7 1).takesWrite 0x10 (pgMbxCh 7 + MBX_RX_CTL.TAKE.off) = true ∧ Master.mcNs.id = (mbx 7 1).io.mbxReceiver 7 ∧
    (mbx 7 2).takesWrite 0x10 (pgMbxCh 7 + MBX_ACK.CODE.off) = true ∧ gb (0xFEFF#32) 0 16 < 0xFF00 ∧ 0xFF00 ≤ gb (0xFF00#32) 0 16 ∧
    (mbx 7 0).takesWrite 1 (pgMbxCh 7 + MBX_DB_SET.SET.off) = true ∧ (mbx 7 0).takesWrite 0x10 (pgMbxCh 7 + MBX_DB.BITS.off) = true ∧
    (mbx 7 0).takesWrite 0x10 (pgMbxCh 7 + MBX_DB_MASK.MASK.off) = true := by decide +kernel
theorem witness_mbx_declare :
    up.takesWrite 0x11 (pgMbx + MBX_DECLARE.RESET.off) = true ∧ mbxOpen 1 = true ∧ mbxOpen 0x30 = false ∧
    up.takesWrite 0x30 (pgMbx + MBX_DECLARE.RESET.off) = true ∧ (mbx 7 1).io.mbxBound 7 = true ∧ up.io.mbxBound 7 = false := by decide +kernel

/-! ### Cascade -/

/-- Device 0 of a stack of two, links 0 and 3 up; the master when `m`; frames wait on link 3. -/
def stack (m : Nat) (l : List (List Byte)) : State :=
  let s := regs [(pgCsc, CSC_STAT.ACTIVE, 1, 0), (pgCsc, CSC_STAT.ROLE, 1, 0), (pgCsc, CSC_STAT.IS_MASTER, m, 0), (pgCsc, CSC_CFG.DEVICES, 2, 0),
    (pgCsc, CSC_LINK_CFGk.EN, 1, 3), (pgCsc, CSC_LINK_STATk.UP, 1, 3), (pgCsc, CSC_LINK_STATk.PEER_ID, 1, 3)]
  { s with csc := { s.csc with rx := [(3, l.map fun f => (77, f))] } }
/-- Links marked for MISMATCH. -/
def mismatched (m : Nat) : State := { stack 0 [] with csc := { mism := m } }
/-- A frame of type `t` from device 1 to device 0, CONTROL code `c`. -/
def sframe (t c : Nat) (body : List Byte) : List Byte :=
  let h := BitVec.ofNat 8 (t * 64 + 16) :: List.replicate 23 0 ++ [BitVec.ofNat 8 c] ++ List.replicate 7 0 ++ body
  h ++ fcsOf h
theorem heads_stack (m t c : Nat) (b : List Byte) (h1 : sfType (sframe t c b) = t) (h2 : t = 0 → sfCode (sframe t c b) = c) :
    (stack m [sframe t c b]).heads 3 t c 77 (sframe t c b) [] := ⟨rfl, h1, h2⟩
theorem witness_heads :
    (∀ c ∈ [ccHello, ccTime, ccDelayReq, ccDelayResp, ccPrepare, ccPrepared, ccRefused, ccDecide, ccRmtReq, ccRmtRsp],
      sfType (sframe 0 c []) = 0 ∧ sfCode (sframe 0 c []) = c) ∧ sfType (sframe 2 0 []) = 2 ∧ sfType (sframe 1 0 []) = 1 ∧
    sfSrc (sframe 0 1 []) = 1 ∧ sfDst (sframe 0 1 []) = 0 := by decide +kernel
theorem witness_stack_link :
    up.cascOn = false ∧ (stack 0 []).cascOn = true ∧ (stack 0 []).get pgCsc CSC_LINK_CFGk.EN 3 = 1 ∧
    (List.range 4).any (fun l => (stack 0 []).wired 3 1 l) = true ∧ (stack 0 []).wired 3 2 0 = false ∧ up.get pgCsc CSC_LINK_STATk.UP 3 = 0 ∧
    up.get pgCsc CSC_LINK_STATk.MISWIRED 3 = 0 ∧ (stack 0 []).get pgCsc CSC_LINK_STATk.UP 3 = 1 ∧ up.linkLive 3 = false ∧ (stack 0 []).linkLive 3 = true ∧
    36 ≤ (sframe 0 1 []).length ∧ (sframe 0 1 []).drop 32 = fcsOf ((sframe 0 1 []).take 32) ∧ sfType (sframe 3 0 []) = 3 ∧
    up.csc.rx.get [] 3 = [] ∧ tb (stack 0 []).csc.mism 3 = false := by decide +kernel
theorem witness_identity :
    (stack 0 []).badId 3 2 = true ∧ (stack 0 []).badId 3 0 = true ∧ (stack 0 []).badId 3 1 = false ∧ (stack 0 []).wired 3 1 3 = true ∧
    (stack 0 []).wired 3 1 0 = false ∧ (stack 0 []).csc.mism = 0 ∧ tb (mismatched 8).csc.mism 3 = true ∧ sfType (sframe 2 0 []) ≠ 0 ∧
    sfType (sframe 2 0 []) ≠ 3 ∧ (sframe 0 1 []).drop 32 ≠ fcsOf ((sframe 0 1 []).take 31) ∧ (mismatched 8).linkLive 3 = true := by decide +kernel
theorem witness_hello :
    sfSrc (sframe 0 1 [2]) = (stack 0 []).get pgCsc CSC_LINK_STATk.PEER_ID 3 ∧ leAt (sfBody (sframe 0 1 [2])) 0 1 ≠ (stack 0 []).get pgCsc CSC_STAT.ROLE ∧
    sfSrc (sframe 0 1 [2]) ≠ up.get pgCsc CSC_LINK_STATk.PEER_ID 3 ∧ up.csc.hello.get 0 3 = 0 ∧
    ({ stack 0 [] with csc := { hello := [(3, 1)] } } : State).csc.hello.get 0 3 ≠ 0 ∧ (stack 0 []).myId ≠ 3 ∧ (stack 0 []).cascOn = true ∧
    (stack 0 []).io.tickInc ≠ 0 ∧ (stack 0 []).myId = 0 := by decide +kernel
theorem witness_hello_same :
    leAt (sfBody (sframe 0 1 [1, 1, 2, 3])) 0 1 = (stack 0 []).get pgCsc CSC_STAT.ROLE ∧
    leAt (sfBody (sframe 0 1 [1, 1, 2, 3])) 2 1 = (stack 0 []).get pgCsc CSC_CFG.DEVICES ∧
    (stack 0 []).badId 3 (leAt (sfBody (sframe 0 1 [1, 1, 2, 3])) 1 1) = false ∧
    (stack 0 []).wired 3 (leAt (sfBody (sframe 0 1 [1, 1, 2, 3])) 1 1) (leAt (sfBody (sframe 0 1 [1, 1, 2, 3])) 3 1) = true ∧
    (stack 0 []).badId 3 (leAt (sfBody (sframe 0 1 [1, 1, 2, 0])) 1 1) = false ∧
    (stack 0 []).wired 3 (leAt (sfBody (sframe 0 1 [1, 1, 2, 0])) 1 1) (leAt (sfBody (sframe 0 1 [1, 1, 2, 0])) 3 1) = false := by decide +kernel
theorem witness_stack_data :
    leAt (sframe 2 0 (List.replicate 64 0)) 2 1 < 128 ∧
    ({ stack 0 [] with buf := { up.buf with group := [(0, { mode := 2 })] } } : State).judgePort 0 0 1 false = some .linkDown ∧
    (({ stack 0 [] with buf := { up.buf with group := [(0, { mode := 2 })] } } : State).put (pgEth 0 0) ETH_LINK_STAT.PORT 1).judgePort 0 0 1 false = none ∧
    4 ≤ (sfBody (sframe 1 0 (List.replicate 64 0))).length ∧ bitsOf (leAt (sframe 1 0 (List.replicate 64 0)) 8 4) 8 3 = 0 ∧
    (((stack 0 []).staged 0).map Pkt.cells).sum + ceilDiv (sfBody (sframe 1 0 (List.replicate 64 0))).length 64 ≤ stagingCells ∧
    (∀ l ∈ [0, 1], ({ stack 0 [] with buf := { up.buf with queues := [(stackQ 3 l, [{ len := 64 }])] } } : State).queue (stackQ 3 l)
      = [{ len := 64 }]) ∧
    (stack 0 []).queue (stackQ 3 0) = [] ∧ (stack 0 []).queue (stackQ 3 1) = [] ∧ (stack 0 []).feature 7 = false ∧
    stagingCells < (({ stack 0 [] with buf := { up.buf with staging := [(0, List.replicate 300 ({ bytes := List.replicate 9216 0 } : Pkt))] } } : State).staged 0
      |>.map Pkt.cells).sum + ceilDiv (sfBody (sframe 1 0 (List.replicate 64 0))).length 64 := by decide +kernel
/-- A TIME body from originator 1 at time `ns`. -/
def timeBody (ns : Nat) : List Byte := timeBytes ns ++ List.replicate (15 - (timeBytes ns).length) 0 ++ [1]
theorem witness_time_rx :
    (stack 1 []).isMaster = true ∧ (stack 0 []).isMaster = false ∧ (stack 0 []).follower = true ∧ (stack 1 []).follower = false ∧
    sfSrc (sframe 0 ccTime (timeBody 7)) = leAt (sfBody (sframe 0 ccTime (timeBody 7))) 15 1 ∧
    ((stack 0 []).ctlLinks ((stack 0 []).get pgCsc CSC_LINK_STATk.PEER_ID 3)).head? = some 3 ∧
    ({ stack 0 [] with csc := { seen := [bytesLE 1 1 ++ bytesLE 1 ccTime ++ timeBody 7] } } : State).csc.seen.contains
      (bytesLE 1 (sfSrc (sframe 0 ccTime (timeBody 7))) ++ bytesLE 1 (sfCode (sframe 0 ccTime (timeBody 7))) ++ sfBody (sframe 0 ccTime (timeBody 7))) = true ∧
    (stack 1 [] |>.put pgCsc CSC_STAT.ID 1).myId ≠ 0 ∧ (stack 0 []).csc.lost = false ∧ (stack 0 []).csc.t1.get 0 3 = 0 ∧ up.io.sys.cascLow = false ∧
    (stack 0 []).io.time.due.timeSend = 0 ∧ (stack 0 []).io.tickInc ≠ 0 ∧ (stack 0 []).get pgCsc CSC_LINK_STATk.PEER_ID 3 = 1 := by
  decide +kernel
/-- The stack with this of its time kept. -/
def timed (m : Nat) (c : Csc) : State := { stack m [] with csc := c }
theorem witness_time_master :
    (timed 1 { firstUp := 1 }).myId = 0 ∧ leAt (sfBody (sframe 0 ccTime (timeBody 7))) 15 1 ≠ 0 ∧ (timed 1 { firstUp := 1 }).csc.firstUp ≠ 0 ∧
    (timed 1 { firstUp := 1 }).io.time.counted < (timed 1 { firstUp := 1 }).csc.firstUp + 100000000 ∧ (timed 1 {}).csc.firstUp = 0 ∧
    (timed 0 { seen := [bytesLE 1 1 ++ bytesLE 1 ccTime ++ List.replicate 15 0 ++ [2]] }).csc.seen.contains
      (bytesLE 1 (sfSrc (sframe 0 ccTime (List.replicate 15 0 ++ [2]))) ++ bytesLE 1 ccTime ++ List.replicate 15 0 ++ [2]) = true ∧
    sfSrc (sframe 0 ccTime (List.replicate 15 0 ++ [2])) ≠ leAt (sfBody (sframe 0 ccTime (List.replicate 15 0 ++ [2]))) 15 1 ∧
    ({ up with io := { up.io with time := { up.io.time with due := { up.io.time.due with timeSend := 1 } } } } : State).io.time.due.timeSend ≠ 0 ∧
    (timed 0 { t1 := [(3, 5)] }).csc.t1.get 0 3 ≠ 0 ∧ (timed 0 { lost := true }).csc.lost = true ∧
    ({ up with io := { up.io with sys := { up.io.sys with cascLow := true } } } : State).io.sys.cascLow = true := by decide +kernel
theorem witness_prepare :
    up.io.time.armed = none ∧ (stack 0 []).prepareAnswer 5 = some 1 ∧ ((stack 0 []).put pgCsc CSC_STAT.TIME_LOCKED 1).prepareAnswer 5 = none ∧
    ((stack 0 []).put pgCsc CSC_STAT.TIME_LOCKED 1).prepareAnswer 0 = some 2 ∧ (stack 0 []).csc.target = none ∧
    ({ stack 1 [] with csc := { target := some 5 } } : State).csc.target = some 5 := by decide +kernel
/-- The master exactly PREP_US, or MARGIN_US, before the boundary of epoch 1, the commit armed for it. -/
def before (us : Nat) : State :=
  let s := stack 1 []
  let ns := 2 ^ s.io.epochK - 1000 * us
  { s with io := { s.io with time := { s.io.time with ns := ns, armed := some 1 } }, csc := { s.csc with target := some 1 } }
/-- The RAS page is armed and still copies. -/
def busyArmed : State :=
  (stack 1 []).put pgRas PG_SHADOW_CTL.SHADOW_BUSY 1 |>.put pgRas PG_SHADOW_CTL.ARM 1
theorem witness_prepare_time :
    ((before ((stack 1 []).get pgCsc CSC_COMMIT_CFG.PREP_US)).untilEpoch 1) = 1000 * (stack 1 []).get pgCsc CSC_COMMIT_CFG.PREP_US ∧
    ((before ((stack 1 []).get pgCsc CSC_COMMIT_CFG.PREP_US)).toBefore 1 ((stack 1 []).get pgCsc CSC_COMMIT_CFG.PREP_US)).2 = true ∧
    ((before ((stack 1 []).get pgCsc CSC_COMMIT_CFG.MARGIN_US)).toBefore 1 ((stack 1 []).get pgCsc CSC_COMMIT_CFG.MARGIN_US)).2 = true ∧
    ((stack 1 []).toBefore 0 0).2 = false ∧ (before 200).io.time.armed = some 1 ∧ (before 200).csc.target = some 1 ∧ (before 200).cascOn = true ∧
    (before 200).isMaster = true ∧ (before 200).csc.decided = none ∧ (stack 1 []).csc.target ≠ some 1 ∧
    (timed 1 { decided := some true }).csc.decided ≠ none ∧ (stack 1 []).armedBusy = false ∧ busyArmed.armedBusy = true := by decide +kernel
theorem witness_decide :
    (stack 1 []).get pgCsc CSC_COMMIT_STAT.REFUSED = 0 ∧ (∀ d : Fin 4, ((stack 1 []).get pgCsc CSC_STAT.LIVE).testBit d.val = true →
      ((stack 1 []).get pgCsc CSC_COMMIT_STAT.PREPARED).testBit d.val = true) ∧
    ((stack 1 []).put pgCsc CSC_COMMIT_STAT.REFUSED 8).get pgCsc CSC_COMMIT_STAT.REFUSED ≠ 0 := by decide +kernel
theorem witness_remote :
    up.takesWrite 1 (pgCsc + CSC_MASTER_CTL.HANDBACK.off) = true ∧ up.takesWrite 1 (pgCsc + CSC_RMT_CTL.GO.off) = true ∧
    (stack 0 []).get pgCsc CSC_RMT_STAT.CODE ≠ 1 ∧ (stack 0 []).get pgCsc CSC_RMT_ADDR.DEV = (stack 0 []).myId ∧
    ((stack 0 []).put pgCsc CSC_RMT_ADDR.DEV 1).rmtLink (((stack 0 []).put pgCsc CSC_RMT_ADDR.DEV 1).get pgCsc CSC_RMT_ADDR.DEV) = some 3 ∧
    sfDst (sframe 0 ccRmtReq [1, 0]) = (stack 0 []).myId ∧ leAt (sfBody (sframe 0 ccRmtReq [1, 0])) 1 1 % 2 = 0 ∧
    leAt (sfBody (sframe 0 ccRmtReq [1, 1])) 1 1 % 2 = 1 ∧ (stack 0 []).csc.rmtWait = false ∧
    ({ stack 0 [] with csc := { rmtWait := true, rmtTag := 1 } } : State).csc.rmtTag = leAt (sfBody (sframe 0 ccRmtRsp [1])) 0 1 ∧
    ctlMaster 0x20 = false ∧ up.takesWrite 0x20 (pgCsc + CSC_RMT_CTL.GO.off) = true ∧ ctlMaster 1 = true ∧
    ((stack 0 []).put pgCsc CSC_RMT_STAT.CODE 1).get pgCsc CSC_RMT_STAT.CODE = 1 ∧
    ((stack 0 []).put pgCsc CSC_RMT_ADDR.DEV 1).get pgCsc CSC_RMT_ADDR.DEV ≠ (stack 0 []).myId ∧
    (up.put pgCsc CSC_RMT_ADDR.DEV 1).rmtLink 1 = none ∧ sfDst (sframe 0 ccRmtReq [1, 0]) ≠ ((stack 0 []).put pgCsc CSC_STAT.ID 2).myId := by decide +kernel
/-- A response of tag 1 to the access begun at 0, `n` nanoseconds of the time base on. -/
def asked (n : Nat) : State :=
  { timed 0 { rmtWait := true, rmtTag := 1 } with io := { (stack 0 []).io with time := { (stack 0 []).io.time with counted := n } } }
theorem witness_rmt_response :
    (asked 2001).csc.rmtAt + 2000 < (asked 2001).io.time.counted ∧ (asked 2000).io.time.counted ≤ (asked 2000).csc.rmtAt + 2000 ∧
    (asked 0).csc.rmtWait = true ∧ (asked 0).csc.rmtTag ≠ leAt (sfBody (sframe 0 ccRmtRsp [2])) 0 1 ∧ (asked 0).io.tickInc ≠ 0 := by decide +kernel
/-- The address 0 of the request `sframe 0 ccRmtReq [1, 1]` lies in no channel. -/
theorem witness_no_channel (c o : Nat) (h : c < 16) (h' : o < 0x1000) : leAt (sfBody (sframe 0 ccRmtReq [1, 1])) 2 4 ≠ pgMbxCh c + o := by
  have e : leAt (sfBody (sframe 0 ccRmtReq [1, 1])) 2 4 = 0 := by decide +kernel
  rw [e]; simp only [pgMbxCh]; omega

/-! ### Board -/

theorem witness_board :
    up.takesWrite 0x40 (pgSys + SYS_BYPASS.INLINE.off) = true ∧ up.get pgSys SYS_BYPASS.INLINE = b2n false ∧ up.get pgSys SYS_BYPASS.INLINE ≠ b2n true ∧
    up.takesWrite 0x10 (pgSys + SYS_BYPASS.INLINE.off) = true ∧ up.takesWrite 0x40 (pgSys + SYS_AVS.APPLIED_MV.off) = true ∧
    (regs [(pgSys, SYS_AVS.APPLIED_MV, 790, 0)]).get pgSys SYS_AVS.APPLIED_MV + 10 = gb (800#32) 0 10 ∧ gb (699#32) 0 10 < 700 ∧ 800 < gb (801#32) 0 10 ∧
    up.i2cOn = true ∧ State.reset.i2cOn = false ∧ pageOf 0x2001 = none ∧ up.io.pcie.perstLow = false ∧ 3 ≤ up.io.step ∧ up.io.pcie.linkUp = false ∧
    txState.io.pcie.linkUp = true ∧ (regs [(pgSys, SYS_LED_CFGn.MODE, 2, 3)]).get pgSys SYS_LED_CFGn.MODE 3 = 2 ∧
    (regs [(pgSys, SYS_LED_CFGn.MODE, 3, 3)]).get pgSys SYS_LED_CFGn.MODE 3 = 3 ∧ (regs [(pgSys, SYS_LED_CFGn.MODE, 1, 3)]).get pgSys SYS_LED_CFGn.MODE 3 < 2 := by
  decide +kernel
theorem witness_board_masters :
    ctlMaster 0x20 = false ∧ up.takesWrite 0x20 (pgSys + SYS_BYPASS.INLINE.off) = true ∧ ctlMaster 1 = true ∧ 700 ≤ gb (700#32) 0 10 ∧
    gb (800#32) 0 10 ≤ 800 ∧ (regs [(pgSys, SYS_AVS.APPLIED_MV, 710, 0)]).get pgSys SYS_AVS.APPLIED_MV ≤ gb (700#32) 0 10 + 10 ∧
    gb (700#32) 0 10 + 10 < (regs [(pgSys, SYS_AVS.APPLIED_MV, 711, 0)]).get pgSys SYS_AVS.APPLIED_MV ∧
    (4 : Nat) % 4 = 0 ∧ (pageOf 0x001).isSome = true ∧ (pageOf 0x001).any (fun pg => !(up.stranger pg 0x40)) = true ∧
    up.jobs = [] ∧ txState.jobs = [] ∧ txState.fw.load = none ∧
    ({ up with io := { up.io with pcie := { up.io.pcie with perstLow := true } } } : State).io.pcie.perstLow = true ∧
    State.reset.io.step < 3 := by decide +kernel
theorem witness_job_accepted :
    (((jobState { mode := 3 } 2).put (pgCphU 63) CPH_JOB_CFG.TAG_LEN 16).jobRefuse 63 (((jobState { mode := 3 } 2).put (pgCphU 63) CPH_JOB_CFG.TAG_LEN 16).jobIn 63)) = none ∧
    (((jobState { mode := 3 } 2).jobIn 63).opens && ((jobState { mode := 3 } 2).jobIn 63).consumes) = false := by decide +kernel

/-! ### Single steps, their results worked out from the rules -/

/-- The state a command leads to. -/
def after (c : Instr) (s : State) : State :=
  match exec c s with
  | .next t => t
  | _ => s
/-- The check value of CRC-32 over "123456789", as the FCS carries it. -/
theorem test_fcs : fcsOf [0x31, 0x32, 0x33, 0x34, 0x35, 0x36, 0x37, 0x38, 0x39] = [0x26, 0x39, 0xF4, 0xCB] := by decide +kernel
/-- The check value of CRC-32C over the same. -/
theorem test_crc32c : crc32c [0x31, 0x32, 0x33, 0x34, 0x35, 0x36, 0x37, 0x38, 0x39] = 0xE3069283 := by decide +kernel
/-- R77: the reader of a free lock acquires it. -/
theorem test_sem_read : (after (.semRead .mcSec 3) up).io.out = [.read 0x11 0x80000011] ∧
    (after (.semRead .mcSec 3) up).get pgSys SYS_SEMn.HOLDER 3 = 0x11 := by decide +kernel
/-- R41: −1 s and +999,999,999 ns from 1 s is 999,999,999 ns. -/
theorem test_time_step :
    (after (.timeStepRelative .host)
      ({ regs [(pgEpc, EPC_STEP_SEC.SEC, 2 ^ 32 - 1, 0), (pgEpc, EPC_STEP_NS.NS, 999999999, 0)] with
         io := { (regs [(pgEpc, EPC_STEP_SEC.SEC, 2 ^ 32 - 1, 0), (pgEpc, EPC_STEP_NS.NS, 999999999, 0)]).io with
                 time := { ns := 1000000000 } } } : State)).io.time.ns = 999999999 := by decide +kernel
/-- R147: an age visit with HIT clear raises AGE, one with HIT set clears both. -/
theorem test_l2_age :
    (after (.l2AgeVisit 7 65535) ((learned (l2Make 1 2 3 false false false 4 0)).put (pgL2t 7) L2T_AGE_CFG.AGE_MAX 15)).l2At 7 65535
      = l2Make 1 2 3 false false false 5 0 ∧
    (after (.l2AgeVisit 7 65535) (learned (l2Make 1 2 3 false false true 4 0))).l2At 7 65535 = l2Make 1 2 3 false false false 0 0 := by decide +kernel
/-- R239, R242: ADD of 1 to W[0], 0, goes to G[15]; the next microword follows. -/
theorem test_microword :
    ((after (.microwordIssue 7 31 .fetched) (micro nanoAdd 0x4000)).ctx 7 31).g.get 0 15 = 1 ∧
    ((after (.microwordIssue 7 31 .fetched) (micro nanoAdd 0x4000)).ctx 7 31).uaddr = 0x4001 ∧
    ((after (.microwordIssue 7 31 .fetched) (micro nanoAdd 0x4000)).ctx 7 31).z = false := by decide +kernel
/-- R102: a frame of 64 B with a good FCS is staged without its FCS. -/
theorem test_frame_receive : ((after (.frameReceive 127 zeros false) port).staged 7).map (fun k => (k.bytes.length, k.inPort)) = [(60, 127)] := by
  decide +kernel
/-- R82: the write of RING_BASE while EN = 1 is counted. -/
theorem test_ring_base :
    (after (.ringConfigWrite .host 0 0 0x1000) (regs [(pgRing 0, RING_CTL.EN, 1, 0)])).get (pgRing 0) PG_ERR_CNT.COUNT = 1 := by decide +kernel

end Sys2Proof.Tests
end

section
/-!
SUPPORT. Words below the host interface (SYS, CLK, EPC, FTR) through the operations of the pages above: rings, counters, mailboxes,
cipher pages, error and cascade pages.
-/
namespace Sys2Proof.Machine

/-- The words below the host interface, and whether a feature commit has been made, are in `t` as in `s`. -/
structure Io.KeepsLow (s t : Io) : Prop where
  rd : ∀ a, a < pgHif → t.rd a = s.rd a
  featDone : t.featDone = s.featDone

namespace Io.KeepsLow

variable {s t u : Io}

theorem refl (s : Io) : s.KeepsLow s := ⟨fun _ _ => rfl, rfl⟩

theorem trans (h : s.KeepsLow t) (h' : t.KeepsLow u) : s.KeepsLow u :=
  ⟨fun a ha => (h'.rd a ha).trans (h.rd a ha), h'.featDone.trans h.featDone⟩

/-- A change beside the register file. -/
theorem beside (h : s.KeepsLow t) (hr : u.regs = t.regs) (hf : u.featDone = t.featDone) : s.KeepsLow u :=
  h.trans ⟨fun a _ => Io.rd_congr hr a, hf⟩

theorem emit (h : s.KeepsLow t) (o : Out) : s.KeepsLow (t.emit o) := h.beside rfl rfl

theorem ite {c : Prop} [Decidable c] (ht : s.KeepsLow t) (hu : s.KeepsLow u) : s.KeepsLow (if c then t else u) := by
  split
  · exact ht
  · exact hu

/-- A loop keeps them when every round does. -/
theorem foldl {β : Type} {f : Io → β → Io} (hf : ∀ (x : Io) (b : β), x.KeepsLow (f x b)) (l : List β) (h : s.KeepsLow t) :
    s.KeepsLow (l.foldl f t) := by
  induction l generalizing t with
  | nil => exact h
  | cons b l ih => exact ih (h.trans (hf t b))

theorem wr (h : s.KeepsLow t) {a : Nat} (v : W32) (ha : pgHif ≤ a) : s.KeepsLow (t.wr a v) :=
  h.trans ⟨fun _ hc => Io.rd_wr_ne _ _ (by omega), rfl⟩

theorem wr64 (h : s.KeepsLow t) {a : Nat} (v : Nat) (ha : pgHif ≤ a) : s.KeepsLow (t.wr64 a v) :=
  (h.wr _ ha).wr _ (by omega)

/-- A field of a page above: one word, two words, or a copy of an RWS word. -/
theorem put (h : s.KeepsLow t) {b : Nat} (f : Fld) (v i : Nat) (hb : pgHif ≤ b) : s.KeepsLow (t.put b f v i) :=
  .ite (h.beside rfl rfl) (.ite (h.wr _ (by omega)) (h.wr64 _ (by omega)))

theorem bump (h : s.KeepsLow t) {b : Nat} (f : Fld) (n i : Nat) (hb : pgHif ≤ b) : s.KeepsLow (t.bump b f n i) :=
  h.put f _ i hb

theorem maxTo (h : s.KeepsLow t) {b : Nat} (f : Fld) (v i : Nat) (hb : pgHif ≤ b) : s.KeepsLow (t.maxTo b f v i) :=
  .ite (h.put _ _ _ hb) h

theorem raise (h : s.KeepsLow t) {b : Nat} (n : Nat) (hb : pgHif ≤ b) : s.KeepsLow (t.raise b n) :=
  h.trans ⟨fun _ ha => Io.rd_raise_ne _ _ _ (by omega), Io.raise_featDone _ _ _⟩

theorem wrapped (h : s.KeepsLow t) (a : Nat) : s.KeepsLow (t.wrapped a) := by
  have hp : pgHif ≤ pgPmc := by decide
  have hc := (h.beside (u := { t with sticky := t.sticky.set false a true }) rfl rfl).put PMC_OVF_CNT.COUNT
    (Io.get { t with sticky := t.sticky.set false a true } pgPmc PMC_OVF_CNT.COUNT + 1) 0 hp
  exact .ite hc ((hc.wr _ (by omega)).raise 0 hp)

theorem ctr (h : s.KeepsLow t) {b : Nat} (f : Fld) (n i : Nat) (hb : pgHif ≤ b) : s.KeepsLow (t.ctr b f n i) :=
  .ite (h.wr64 _ (by omega)) ((h.wr64 _ (by omega)).wrapped _)

end Io.KeepsLow

/-! ### Pages above the host interface -/

theorem pgHif_le_pgRing (n : Nat) : pgHif ≤ pgRing n := by unfold pgHif pgRing; omega
theorem pgHif_le_pgMbxCh (c : Nat) : pgHif ≤ pgMbxCh c := by unfold pgHif pgMbxCh; omega
theorem pgHif_le_pgCphU (u : Nat) : pgHif ≤ pgCphU u := by unfold pgHif pgCphU; omega
theorem pgHif_le_pgMbx : pgHif ≤ pgMbx := by decide
theorem pgHif_le_pgCph : pgHif ≤ pgCph := by decide
theorem pgHif_le_pgCsc : pgHif ≤ pgCsc := by decide
theorem pgHif_le_pgRas : pgHif ≤ pgRas := by decide
theorem pgHif_le_pgE : pgHif ≤ pgE := by decide

namespace Io.KeepsLow

variable {s t : Io}

/-! ### Rings and telemetry -/

theorem complete (h : s.KeepsLow t) (n : Nat) (irq : Bool) : s.KeepsLow (t.complete n irq) := by
  have hc (k : Nat) : s.KeepsLow { t with modCnt := t.modCnt.set 0 n k } := h.beside rfl rfl
  have hf : s.KeepsLow (({ t with modCnt := t.modCnt.set 0 n 0 } : Io).ringFlag n 0) := (hc 0).raise 0 (pgHif_le_pgRing n)
  exact .ite hf (.ite h (.ite hf (hc _)))

theorem ringWrite (h : s.KeepsLow t) (n : Nat) (es : List Line) : s.KeepsLow (t.ringWrite n es) := by
  unfold Io.ringWrite
  dsimp only
  apply complete
  apply put _ _ _ _ (pgHif_le_pgRing n)
  refine beside (foldl (fun x _ => ?_) es.zipIdx h) rfl rfl
  exact (refl x).emit _

theorem ringPut (h : s.KeepsLow t) (n : Nat) (es : List Line) : s.KeepsLow (t.ringPut n es) :=
  .ite (h.ringWrite n es) ((h.raise 1 (pgHif_le_pgRing n)).put _ _ _ (pgHif_le_pgRing n))

theorem ipfixEmit (h : s.KeepsLow t) (body : List Byte) : s.KeepsLow (t.ipfixEmit body) :=
  (h.ringPut _ _).ctr _ _ _ pgHif_le_pgE

/-! ### Mailboxes -/

theorem mbxGenUp (h : s.KeepsLow t) (m : Nat) : s.KeepsLow (t.mbxGenUp m) := by
  have hb (f : Fld) : s.KeepsLow (t.bump pgMbx f) := h.bump f 1 0 pgHif_le_pgMbx
  unfold Io.mbxGenUp
  refine .ite (hb _) (.ite (hb _) (.ite (hb _) (.ite (hb _) (.ite ?_ h))))
  exact h.put _ _ _ pgHif_le_pgMbx

theorem mbxZero (h : s.KeepsLow t) (c start : Nat) : s.KeepsLow (t.mbxZero c start) :=
  h.foldl (fun x _ => .ite ((refl x).put _ _ _ (pgHif_le_pgMbxCh c)) (refl x)) _

theorem mbxDone (h : s.KeepsLow t) (c code : Nat) : s.KeepsLow (t.mbxDone c code) :=
  ((h.put _ _ _ (pgHif_le_pgMbxCh c)).put _ _ _ (pgHif_le_pgMbxCh c)).raise _ (pgHif_le_pgMbxCh c)

theorem mbxRcvReset (h : s.KeepsLow t) (c : Nat) : s.KeepsLow (t.mbxRcvReset c) := by
  have hc := pgHif_le_pgMbxCh c
  have h1 : s.KeepsLow (((t.mbxZero c 0).put (pgMbxCh c) MBX_STAT.LEN 0).mbxDone c 0xFF01) :=
    ((h.mbxZero c 0).put _ _ _ hc).mbxDone c _
  have h2 : s.KeepsLow ((t.put (pgMbxCh c) MBX_STAT.WAS_TAKEN 1).mbxDone c 0xFF01) := (h.put _ _ _ hc).mbxDone c _
  unfold Io.mbxRcvReset
  exact put (put (ite h1 (ite h2 h)) _ _ _ hc) _ _ _ hc

theorem mbxSndReset (h : s.KeepsLow t) (c : Nat) : s.KeepsLow (t.mbxSndReset c) := by
  unfold Io.mbxSndReset
  split
  · exact h
  · exact (h.put _ _ _ (pgHif_le_pgMbxCh c)).raise _ (pgHif_le_pgMbxCh c)

theorem mbxChReset (h : s.KeepsLow t) (ms : List Nat) (c : Nat) : s.KeepsLow (t.mbxChReset ms c) := by
  have hr : s.KeepsLow (if ms.contains (t.mbxReceiver c) then t.mbxRcvReset c else t) := .ite (h.mbxRcvReset c) h
  exact .ite h (.ite (hr.mbxSndReset c) hr)

theorem mbxReset (h : s.KeepsLow t) (ms : List Nat) : s.KeepsLow (t.mbxReset ms) :=
  (h.foldl (fun x m => (refl x).mbxGenUp m) ms).foldl (fun x c => (refl x).mbxChReset ms c) _

end Io.KeepsLow

/-! ### The same over the whole state -/

/-- The words below the host interface are in `t` as in `s`. -/
def State.KeepsLow (s t : State) : Prop := s.io.KeepsLow t.io

namespace State.KeepsLow

variable {s t u : State}

theorem refl (s : State) : s.KeepsLow s := Io.KeepsLow.refl s.io

theorem trans (h : s.KeepsLow t) (h' : t.KeepsLow u) : s.KeepsLow u := Io.KeepsLow.trans h h'

/-- A change outside the registers, the pins and what every page shares. -/
theorem beside (h : s.KeepsLow t) (hi : u.io = t.io) : s.KeepsLow u := by
  unfold State.KeepsLow
  rw [hi]
  exact h

theorem upFw (h : s.KeepsLow t) (f : Fw → Fw) : s.KeepsLow (t.upFw f) := h.beside rfl

theorem upCsc (h : s.KeepsLow t) (f : Csc → Csc) : s.KeepsLow (t.upCsc f) := h.beside rfl

theorem upQnc (h : s.KeepsLow t) (f : Qnc → Qnc) : s.KeepsLow (t.upQnc f) := h.beside rfl

theorem setCpage (h : s.KeepsLow t) (n : Nat) (p : CPage) : s.KeepsLow (t.setCpage n p) := h.beside rfl

theorem upIo (h : s.KeepsLow t) {f : Io → Io} (hf : t.io.KeepsLow (f t.io)) : s.KeepsLow (t.upIo f) := Io.KeepsLow.trans h hf

theorem put (h : s.KeepsLow t) {b : Nat} (f : Fld) (v i : Nat) (hb : pgHif ≤ b) : s.KeepsLow (t.put b f v i) :=
  Io.KeepsLow.put h f v i hb

theorem bump (h : s.KeepsLow t) {b : Nat} (f : Fld) (n i : Nat) (hb : pgHif ≤ b) : s.KeepsLow (t.bump b f n i) :=
  Io.KeepsLow.put h f _ i hb

theorem ctr (h : s.KeepsLow t) {b : Nat} (f : Fld) (n i : Nat) (hb : pgHif ≤ b) : s.KeepsLow (t.ctr b f n i) :=
  Io.KeepsLow.ctr h f n i hb

theorem raise (h : s.KeepsLow t) {b : Nat} (n : Nat) (hb : pgHif ≤ b) : s.KeepsLow (t.raise b n) := Io.KeepsLow.raise h n hb

theorem ite {c : Prop} [Decidable c] (ht : s.KeepsLow t) (hu : s.KeepsLow u) : s.KeepsLow (if c then t else u) := by
  split
  · exact ht
  · exact hu

theorem foldl {β : Type} {f : State → β → State} (hf : ∀ (x : State) (b : β), x.KeepsLow (f x b)) (l : List β)
    (h : s.KeepsLow t) : s.KeepsLow (l.foldl f t) := by
  induction l generalizing t with
  | nil => exact h
  | cons b l ih => exact ih (h.trans (hf t b))

/-! ### Held commands -/

/-- A reset of the host interface ends held commands, which are outside the registers. -/
theorem killJobs (h : s.KeepsLow t) : s.KeepsLow t.killJobs := by
  refine foldl (fun x q => ?_) _ h
  split
  · exact refl x
  · exact ite ((refl x).beside rfl) ((refl x).beside rfl)

/-! ### Cipher pages (R407, R409, R413) -/

theorem freeEngines (h : s.KeepsLow t) (ctx : Nat) : s.KeepsLow (t.freeEngines ctx) := by
  refine put (foldl (fun x e => ?_) (List.range 16) h) _ _ _ pgHif_le_pgCph
  exact ite ((refl x).beside rfl) (refl x)

theorem jobEnd (h : s.KeepsLow t) (u st code : Nat) : s.KeepsLow (t.jobEnd u st code) := by
  have hu := pgHif_le_pgCphU u
  exact ((((h.setCpage u _).put _ _ _ hu).put _ _ _ hu).freeEngines _).raise _ hu

theorem msgEnd (h : s.KeepsLow t) (u : Nat) : s.KeepsLow (t.msgEnd u) :=
  (h.setCpage u _).put _ _ _ (pgHif_le_pgCphU u)

theorem keyClear (h : s.KeepsLow t) (u : Nat) : s.KeepsLow (t.keyClear u) := by
  have hu := pgHif_le_pgCphU u
  have hj : s.KeepsLow (if (t.cpage u).job.isSome then t.jobEnd u 3 8 else t) := ite (h.jobEnd u 3 8) h
  exact (((hj.msgEnd u).setCpage u _).put _ _ _ hu).put _ _ _ hu

theorem clearHalf (h : s.KeepsLow t) (u lo hi : Nat) : s.KeepsLow (t.clearHalf u lo hi) := by
  have hu := pgHif_le_pgCphU u
  refine h.upIo ⟨fun a ha => SMap.get_drop_not _ _ (p := fun c => pgCphU u + lo ≤ c && c < pgCphU u + hi) ?_, rfl⟩
  have hlo : ¬ pgCphU u + lo ≤ a := by omega
  simp [hlo]

theorem zeroize (h : s.KeepsLow t) (u : Nat) : s.KeepsLow (t.zeroize u) := by
  have hk := ((h.keyClear u).setCpage u { (t.keyClear u).cpage u with data := [] }).put CPH_KEY_STAT.CODE 0 0 (pgHif_le_pgCphU u)
  have hc := (((hk.clearHalf u 0x040 0x060).clearHalf u 0x0C0 0x0FC).clearHalf u 0x100 0x118).clearHalf u 0x400 0x800
  unfold State.zeroize
  exact ite hc (hc.clearHalf u 0x0FC 0x100)

theorem zeroizeOf (h : s.KeepsLow t) (ms : List Nat) : s.KeepsLow (t.zeroizeOf ms) :=
  foldl (fun x u => ite ((refl x).zeroize u) (refl x)) _ h

/-! ### Firmware loads (R487) -/

theorem fwEnd (h : s.KeepsLow t) (c : Nat) : s.KeepsLow (t.fwEnd c) :=
  ((h.upFw _).put RAS_FW_STAT.CODE c 0 pgHif_le_pgRas).raise 3 pgHif_le_pgRas

theorem fwHostGone (h : s.KeepsLow t) : s.KeepsLow t.fwHostGone := by
  unfold State.fwHostGone
  split
  · exact ite h (h.fwEnd _)
  · exact h

/-! ### What a commit brings about that activates or withdraws a feature (R337, R341, R445) -/

theorem templateSend (h : s.KeepsLow t) : s.KeepsLow t.templateSend := by
  unfold State.templateSend
  split
  · exact h
  · exact h.upIo (Io.KeepsLow.ipfixEmit (.refl _) _)

theorem ipfixFlush (h : s.KeepsLow t) : s.KeepsLow t.ipfixFlush := by
  have he : s.KeepsLow (t.upIo fun io => io.ipfixEmit (ipfixSets t.tel.msg)) := h.upIo (.ipfixEmit (.refl _) _)
  exact ite h ((he.bump TEL_EXPORT_SEQ.SEQ t.tel.msg.length 0 pgHif_le_pgE).beside rfl)

theorem setStartQ (h : s.KeepsLow t) (l : List (Nat × Nat × Nat)) : s.KeepsLow (t.setStartQ l) := by
  have hl : s.KeepsLow { t with tel := { t.tel with startQ := l } } := h.beside rfl
  unfold State.setStartQ
  exact upIo (put hl _ _ _ pgHif_le_pgE) (.maxTo (.refl _) _ _ _ pgHif_le_pgE)

theorem ipfixFeature (h : s.KeepsLow t) (was now : Bool) : s.KeepsLow (t.ipfixFeature was now) := by
  have ht : s.KeepsLow { t with tel := { t.tel with tmplAt := t.io.time.counted } } := h.beside rfl
  have hq := (h.ctr TEL_START_SKIP_CNT.COUNT t.tel.startQ.length 0 pgHif_le_pgE).setStartQ []
  unfold State.ipfixFeature
  exact ite ht.templateSend (ite hq.ipfixFlush h)

theorem cascActivate (h : s.KeepsLow t) : s.KeepsLow t.cascActivate := by
  unfold State.cascActivate
  exact upCsc (put (put (put h _ _ _ pgHif_le_pgCsc) _ _ _ pgHif_le_pgCsc) _ _ _ pgHif_le_pgCsc) _

end State.KeepsLow

end Sys2Proof.Machine
end

section
/-!
SUPPORT. The semaphores of R76 to R79: what a read and a write of SYS_SEMn and a write of SYS_SEM_FORCE do, and what the resets do to
the locks.
-/
namespace Sys2Proof.Machine

/-- Completion of a command whose effect is known to be the state `t`. -/
theorem Completes.live_eq {c : Instr} {s t : State} {P : State → Prop} {f : State → State} (hx : exec c s = s.live f)
    (hon : s.on = true) (hf : f s = t) (hq : t.pending = s.pending) (hP : P t) : Completes c s P := by
  subst hf
  exact Completes.live' hx hon hq hP

/-! ### Errors of a page (R69, R70) -/

/-- An error is counted, saturating. -/
theorem Io.get_err_count (s : Io) (b ty m o : Nat) :
    (s.err b ty m o).get b PG_ERR_CNT.COUNT = min (2 ^ 32 - 1) (s.get b PG_ERR_CNT.COUNT + 1) := by
  have hc : (s.bumpSat b PG_ERR_CNT.COUNT).get b PG_ERR_CNT.COUNT = min (2 ^ 32 - 1) (s.get b PG_ERR_CNT.COUNT + 1) := by
    unfold Io.bumpSat
    rw [Io.get_put _ _ _ _ _ rfl (by decide)]
    exact Nat.mod_eq_of_lt (by simp only [PG_ERR_CNT.COUNT]; omega)
  unfold Io.err
  dsimp only
  split
  · exact hc
  · rw [← hc, Io.get_narrow _ _ _ _ rfl (by decide), Io.get_narrow _ _ _ _ rfl (by decide), Io.rd_wr_ne]
    simp [PG_ERR_CNT.COUNT]

/-- The first error is captured with its type. -/
theorem Io.get_err_type (s : Io) (b : Nat) {ty m : Nat} (o : Nat) (hv : s.get b PG_ERR_CAP.VALID = 0) (ht : ty < 16) (hm : m < 256) :
    (s.err b ty m o).get b PG_ERR_CAP.TYPE = ty := by
  have hv' : (s.bumpSat b PG_ERR_CNT.COUNT).get b PG_ERR_CAP.VALID = 0 := by
    unfold Io.bumpSat
    rw [Io.get_put_ne _ _ _ _ _ _ _ _ rfl (by decide) rfl (by decide), hv]
    simp [PG_ERR_CNT.COUNT, PG_ERR_CAP.VALID]
  unfold Io.err
  dsimp only
  rw [if_neg (by omega), Io.get_narrow _ _ _ _ rfl (by decide)]
  show gb (Io.rd _ (b + 0x1C)) 24 4 = ty
  rw [Io.rd_wr_same, gb, bitsOf, BitVec.toNat_ofNat, Nat.shiftRight_eq_div_pow]
  omega

theorem master_id_lt (m : Master) : m.id < 256 := by
  cases m <;> simp only [Master.id] <;> omega

theorem master_id_ne_zero (m : Master) : m.id ≠ 0 := by
  cases m <;> simp only [Master.id] <;> omega

theorem master_id_eq_mcSec {m : Master} : m.id = 0x11 ↔ m = .mcSec := by
  cases m <;> simp [Master.id] <;> omega

/-! ### One lock -/

/-- The word of SYS_SEMn. -/
def semAddr (n : Nat) : Nat := pgSys + SYS_SEMn.HOLDER.off + 4 * n

theorem semAddr_eq (n : Nat) : semAddr n = 0x100 + 4 * n := by simp [semAddr, pgSys, SYS_SEMn.HOLDER]

theorem Io.sem_eq (s : Io) (n : Nat) : s.sem n = gb (s.rd (semAddr n)) 0 8 := Io.get_narrow _ _ _ _ rfl (by decide)

theorem Io.sem_congr {s t : Io} {n : Nat} (h : t.rd (semAddr n) = s.rd (semAddr n)) : t.sem n = s.sem n := by
  rw [Io.sem_eq, Io.sem_eq, h]

theorem Io.sem_of_regs {s t : Io} (h : t.regs = s.regs) (n : Nat) : t.sem n = s.sem n := Io.sem_congr (Io.rd_congr h _)

/-- The holder of a lock after the holder of another or the same is set. -/
theorem Io.sem_put (s : Io) (v k n : Nat) :
    (s.put pgSys SYS_SEMn.HOLDER v k).sem n = if n = k then v % 2 ^ 8 else s.sem n := by
  split
  · rename_i h
    subst h
    exact Io.get_put _ _ _ _ _ rfl (by decide)
  · rename_i h
    exact Io.get_put_ne _ _ _ _ _ _ _ _ rfl (by decide) rfl (by decide) (by simp only [SYS_SEMn.HOLDER]; omega)

theorem Io.rd_put_sem_ne (s : Io) (v k : Nat) {a : Nat} (h : a ≠ semAddr k) : (s.put pgSys SYS_SEMn.HOLDER v k).rd a = s.rd a := by
  rw [Io.rd_put _ _ _ _ _ _ rfl (by decide)]
  exact if_neg h

/-- The fields of SYS_RST_CAUSE are in no lock's word. -/
theorem Io.sem_put_rstCause (s : Io) (v lo len : Nat) {n : Nat} (hl : lo + len ≤ 32) :
    (s.put pgSys ⟨0xC4, 4, lo, len, false⟩ v).sem n = s.sem n := by
  refine Io.sem_congr ((Io.rd_put _ _ _ _ _ _ rfl hl).trans (if_neg ?_))
  simp only [semAddr_eq, pgSys]
  omega

/-- A write of a word of another page does not reach a lock. -/
theorem Io.sem_wr (s : Io) {a n : Nat} (v : W32) (hn : n < 32) (ha : 0x1000 ≤ a) : (s.wr a v).sem n = s.sem n :=
  Io.sem_congr (Io.rd_wr_ne _ _ (by rw [semAddr_eq]; omega))

theorem Io.KeepsLow.sem {s t : Io} (h : s.KeepsLow t) {n : Nat} (hn : n < 32) : t.sem n = s.sem n :=
  Io.sem_congr (h.rd _ (by rw [semAddr_eq, pgHif]; omega))

theorem State.KeepsLow.sem {s t : State} (h : s.KeepsLow t) {n : Nat} (hn : n < 32) : t.io.sem n = s.io.sem n :=
  Io.KeepsLow.sem h hn

/-! ### Many locks -/

/-- Locks freed one after the other. -/
theorem Io.sem_foldl_free (l : List Nat) (s : Io) (n : Nat) :
    (l.foldl (fun s n => s.put pgSys SYS_SEMn.HOLDER 0 n) s).sem n = if n ∈ l then 0 else s.sem n := by
  induction l generalizing s with
  | nil => simp
  | cons k l ih =>
    rw [List.foldl_cons, ih, Io.sem_put]
    by_cases hk : n = k <;> simp [hk]

/-- SYS_SEM_FORCE frees the locks it selects and no other. -/
theorem Io.sem_semForce (s : Io) (mask : Nat) {n : Nat} (hn : n < 32) :
    (s.semForce mask).sem n = if mask.testBit n then 0 else s.sem n := by
  unfold Io.semForce onesOf
  rw [Io.sem_foldl_free]
  simp [hn]

theorem Io.semForce_frame (s : Io) (mask : Nat) : s.semForce mask = { s with regs := (s.semForce mask).regs } := by
  unfold Io.semForce
  generalize onesOf 32 mask = l
  induction l generalizing s with
  | nil => rfl
  | cons k l ih =>
    rw [List.foldl_cons, ih, Io.put_frame s pgSys SYS_SEMn.HOLDER 0 k rfl]

theorem Io.rd_semForce_ne (s : Io) (mask : Nat) {a : Nat} (h : ¬ ∃ k : Fin 32, a = semAddr k.val) :
    (s.semForce mask).rd a = s.rd a := by
  have hl : ∀ k ∈ onesOf 32 mask, a ≠ semAddr k := by
    intro k hk e
    exact h ⟨⟨k, by simpa [onesOf] using (List.mem_filter.mp hk).1⟩, e⟩
  unfold Io.semForce
  generalize onesOf 32 mask = l at hl
  induction l generalizing s with
  | nil => rfl
  | cons k l ih =>
    rw [List.foldl_cons, ih _ fun j hj => hl j (List.mem_cons_of_mem _ hj), Io.rd_put_sem_ne _ _ _ (hl k List.mem_cons_self)]

/-- One round of `semFree`: lock `k` is freed if the master holds it. -/
theorem Io.sem_freeOne (s : Io) (m k n : Nat) :
    (if s.sem k = m then s.put pgSys SYS_SEMn.HOLDER 0 k else s).sem n = if n = k ∧ s.sem n = m then 0 else s.sem n := by
  by_cases hm : s.sem k = m
  · rw [if_pos hm, Io.sem_put]
    by_cases hnk : n = k <;> simp [hnk, hm]
  · rw [if_neg hm, if_neg]
    rintro ⟨rfl, h⟩
    exact hm h

theorem Io.sem_foldl_freeOne (m : Nat) (l : List Nat) (s : Io) (n : Nat) :
    (l.foldl (fun s n => if s.sem n = m then s.put pgSys SYS_SEMn.HOLDER 0 n else s) s).sem n
      = if n ∈ l ∧ s.sem n = m then 0 else s.sem n := by
  induction l generalizing s with
  | nil => simp
  | cons k l ih =>
    rw [List.foldl_cons, ih, Io.sem_freeOne]
    by_cases h : n = k ∧ s.sem n = m
    · rw [if_pos h, ite_self, if_pos ⟨h.1 ▸ List.mem_cons_self, h.2⟩]
    · rw [if_neg h]
      refine if_congr ?_ rfl rfl
      rw [List.mem_cons, or_and_right]
      exact (or_iff_right h).symm

/-- A reset of a master frees the locks it holds and no other (R79). -/
theorem Io.sem_semFree (s : Io) (m : Nat) {n : Nat} (hn : n < 32) : (s.semFree m).sem n = if s.sem n = m then 0 else s.sem n := by
  unfold Io.semFree
  rw [Io.sem_foldl_freeOne]
  simp [hn]

end Sys2Proof.Machine
end

section
/-!
PROOFS. SYS_SEMn and SYS_SEM_FORCE on the fabric, and the statement of R77.
-/
namespace Sys2Proof.Machine

/-! ### The SYS page on the fabric -/

theorem pageOf_sys {a : Nat} (ha : a < 0x1000) : pageOf a = some ⟨.sys, 0, pgSys⟩ := if_pos ha

theorem pipeOfAddr_low {a : Nat} (ha : a < 0x1000000) : pipeOfAddr a = none := if_neg (by omega)

theorem pageOf_semAddr {n : Nat} (hn : n < 32) : pageOf (semAddr n) = some ⟨.sys, 0, pgSys⟩ :=
  pageOf_sys (by rw [semAddr_eq]; omega)

/-- SYS_SEMn is a listed register and no counter. -/
theorem regAt_semAddr {n : Nat} (hn : n < 32) : ∃ h, Kind.sys.regAt (semAddr n) = some h ∧ h.row.ctr = false := by
  have hall : ∀ k : Fin 32, (Kind.sys.regAt (semAddr k.val)).map (·.row.ctr) = some false := by decide
  simpa using hall ⟨n, hn⟩

theorem regAt_semForce : ∃ h, Kind.sys.regAt SYS_SEM_FORCE.RELEASE.off = some h := Option.isSome_iff_exists.mp (by decide)

theorem State.takesWrite_sys (s : State) (m : Nat) {a : Nat} (ha : a < 0x1000) : s.takesWrite m a = s.takesWrite m pgSys := by
  unfold State.takesWrite
  rw [pageOf_sys ha, pageOf_sys (by decide)]

/-- A read of SYS_SEMn is the semaphore's own read. -/
theorem State.readOut_sem {s : State} {m n : Nat} (hn : n < 32) (hr : s.io.ready .sys = true) (hb : s.get pgSys PG_STAT.RST_BUSY = 0) :
    s.readOut m (semAddr n) = (s.upIo fun _ => (s.io.semRead n m).2).emit (.read m (s.io.semRead n m).1) := by
  have ha := semAddr_eq n
  have hsub : semAddr n - pgSys = semAddr n := rfl
  obtain ⟨h, hh, hc⟩ := regAt_semAddr hn
  have hbody (d : Nat) : s.rSys (semAddr n) m d = ((s.io.semRead n m).1, s.upIo fun _ => (s.io.semRead n m).2) := by
    unfold State.rSys
    rw [if_neg (by omega), if_neg (by omega), if_neg (by omega), if_pos (by omega)]
    have hi : (semAddr n - 0x100) / 4 = n := by omega
    rw [hi]
  have hpage : s.rPage ⟨.sys, 0, pgSys⟩ (semAddr n) m = ((s.io.semRead n m).1, s.upIo fun _ => (s.io.semRead n m).2) := by
    unfold State.rPage
    simp only [hr, hb, hh, hc]
    rw [if_neg (by omega), if_neg (by simp), if_neg (by simp)]
    rw [if_neg (by omega), if_neg (by simp), if_neg (by omega)]
    exact hbody _
  unfold State.readOut State.fabricRead
  simp only [pageOf_semAddr hn, State.stranger, State.fabCount_none s m false (pipeOfAddr_low (a := semAddr n) (by omega)), hsub, hpage,
    Bool.false_eq_true, if_false]

/-- A write of SYS_SEMn is the semaphore's own write. -/
theorem State.fabricWrite_sem {s : State} {m n v : Nat} (hn : n < 32) (ht : s.takesWrite m pgSys = true) :
    s.fabricWrite m (semAddr n) v = s.upIo fun io => io.semWrite n m v := by
  have ha := semAddr_eq n
  obtain ⟨h, hh, -⟩ := regAt_semAddr hn
  rw [State.fabricWrite_body (by rw [s.takesWrite_sys m (by omega)]; exact ht) (pageOf_semAddr hn) (by simp) hh (by simp [pgSys]; omega)
    (pipeOfAddr_low (by omega))]
  show s.wSys _ _ (semAddr n) m v = _
  unfold State.wSys
  rw [if_neg (by omega), if_neg (by omega), if_neg (by omega), if_pos (by omega)]
  have hi : (semAddr n - 0x100) / 4 = n := by omega
  rw [hi]

/-- A write of SYS_SEM_FORCE by 0x11 frees what it selects; of another master, anything but 0 is an error. -/
theorem State.fabricWrite_semForce {s : State} {m v : Nat} (ht : s.takesWrite m pgSys = true) :
    s.fabricWrite m (pgSys + SYS_SEM_FORCE.RELEASE.off) v
      = if m = 0x11 then s.upIo fun io => io.semForce v else if v = 0 then s else s.err pgSys 1 m SYS_SEM_FORCE.RELEASE.off := by
  obtain ⟨h, hh⟩ := regAt_semForce
  exact State.fabricWrite_body (a := pgSys + SYS_SEM_FORCE.RELEASE.off) (by rw [s.takesWrite_sys m (by decide)]; exact ht)
    (pageOf_sys (by decide)) (by decide) hh (by decide) (pipeOfAddr_low (by decide))

/-! ### R77 -/

theorem Io.semRead_free {s : Io} {n m : Nat} (h : s.sem n = 0) :
    s.semRead n m = (2 ^ 31 + m, s.put pgSys SYS_SEMn.HOLDER m n) := if_pos h

theorem Io.semRead_own {s : Io} {n m : Nat} (hm : m ≠ 0) (h : s.sem n = m) : s.semRead n m = (2 ^ 31 + m, s) := by
  unfold Io.semRead
  rw [if_neg (by omega), if_pos h]

theorem Io.semRead_held {s : Io} {n m : Nat} (h0 : s.sem n ≠ 0) (h : s.sem n ≠ m) : s.semRead n m = (s.sem n, s) := by
  unfold Io.semRead
  rw [if_neg h0, if_neg h]

/-- What holds of the state that the semaphore's own read leaves, with its answer sent, holds after the command. -/
theorem completes_semRead {s : State} {m : Master} {n : Fin 32} {v : Nat} {io : Io} {P : State → Prop} (hon : s.on = true)
    (hr : s.io.ready .sys = true) (hb : s.get pgSys PG_STAT.RST_BUSY = 0) (h : s.io.semRead n.val m.id = (v, io))
    (hP : P ((s.upIo fun _ => io).emit (.read m.id v))) : Completes (.semRead m n) s P := by
  have hx : s.readOut m.id (semAddr n.val) = (s.upIo fun _ => io).emit (.read m.id v) := by rw [State.readOut_sem n.isLt hr hb, h]
  exact Completes.live_eq (f := fun s => s.readOut m.id (semAddr n.val)) rfl hon hx rfl hP

/-- Settles O8: the fabric gives a read of SYS_SEMn to the semaphore, whose three answers are those of R77. -/
theorem semaphoreRead : Obligations.SemaphoreRead := by
  intro s m n hon hr hb
  refine ⟨fun h0 => completes_semRead hon hr hb (Io.semRead_free h0) ?_,
    fun hm => completes_semRead hon hr hb (Io.semRead_own (master_id_ne_zero m) hm) rfl,
    fun h0 hm => completes_semRead hon hr hb (Io.semRead_held h0 hm) rfl⟩
  have hf := Io.put_frame s.io pgSys SYS_SEMn.HOLDER m.id n.val rfl
  refine ⟨?_, ?_, ?_, fun a ha => Io.rd_put_sem_ne _ _ _ ha⟩
  · exact congrArg (fun io => Out.read m.id (2 ^ 31 + m.id) :: io.out) hf
  · refine (Io.sem_put s.io m.id n.val n.val).trans ?_
    rw [if_pos rfl]
    exact Nat.mod_eq_of_lt (master_id_lt m)
  · exact congrArg (fun io : Io => { s with io := io.emit (.read m.id (2 ^ 31 + m.id)) }) hf

end Sys2Proof.Machine
end

section
/-!
PROOFS. What the resets do to the locks of the semaphores (R64, R65, R496), and the statement of R79.
-/
namespace Sys2Proof.Machine

/-! ### Writes -/

theorem Io.semWrite_release {s : Io} {n m v : Nat} (h : s.sem n = m) (hv : v % 256 = 0) :
    s.semWrite n m v = s.put pgSys SYS_SEMn.HOLDER 0 n := if_pos ⟨h, hv⟩

theorem Io.semWrite_refused {s : Io} {n m v : Nat} (h : s.sem n ≠ m ∨ v % 256 ≠ 0) :
    s.semWrite n m v = s.err pgSys 1 m (0x100 + 4 * n) := if_neg (by omega)

theorem State.upIo_congr {s : State} {f g : Io → Io} (h : f s.io = g s.io) : s.upIo f = s.upIo g := by
  unfold State.upIo
  rw [h]

/-- The page's error registers after a refused write, and nothing else. -/
theorem State.err_counted (s : State) (b ty m o : Nat) :
    (s.err b ty m o).get b PG_ERR_CNT.COUNT = min (2 ^ 32 - 1) (s.get b PG_ERR_CNT.COUNT + 1) ∧
      OnlyRegs s (s.err b ty m o) ∧ KeepsWords (fun a => a = b + 0x1C ∨ a = b + 0x20) s (s.err b ty m o) :=
  ⟨Io.get_err_count s.io b ty m o, OnlyRegs.err s b ty m o, KeepsWords.err s b ty m o (.inl rfl) (.inr rfl)⟩

theorem semRelease_frees {s : State} {m : Master} {n : Fin 32} {v : W32} (hon : s.on = true) (ht : s.takesWrite m.id pgSys = true)
    (h : s.get pgSys SYS_SEMn.HOLDER n.val = m.id) (hv : v.toNat % 256 = 0) : Completes (.semRelease m n v) s (fun t =>
      t.get pgSys SYS_SEMn.HOLDER n.val = 0 ∧ OnlyRegs s t ∧
      KeepsWords (· = pgSys + SYS_SEMn.HOLDER.off + 4 * n.val) s t) := by
  have hw : s.fabricWrite m.id (semAddr n.val) v.toNat = s.put pgSys SYS_SEMn.HOLDER 0 n.val :=
    (State.fabricWrite_sem n.isLt ht).trans (State.upIo_congr (Io.semWrite_release h hv))
  refine Completes.live_eq (f := fun s => s.fabricWrite m.id (semAddr n.val) v.toNat) rfl hon hw rfl
    ⟨?_, OnlyRegs.put _ _ _ _ _ rfl, KeepsWords.put _ _ _ _ _ rfl (by decide) rfl⟩
  exact (Io.sem_put s.io 0 n.val n.val).trans (if_pos rfl)

theorem semRelease_refused {s : State} {m : Master} {n : Fin 32} {v : W32} (hon : s.on = true) (ht : s.takesWrite m.id pgSys = true)
    (h : s.get pgSys SYS_SEMn.HOLDER n.val ≠ m.id ∨ v.toNat % 256 ≠ 0) : Completes (.semRelease m n v) s (fun t =>
      t.get pgSys PG_ERR_CNT.COUNT = min (2 ^ 32 - 1) (s.get pgSys PG_ERR_CNT.COUNT + 1) ∧
      (s.get pgSys PG_ERR_CAP.VALID = 0 → t.get pgSys PG_ERR_CAP.TYPE = 1) ∧
      OnlyRegs s t ∧ KeepsWords (fun a => a = pgSys + 0x1C ∨ a = pgSys + 0x20) s t) := by
  have hw : s.fabricWrite m.id (semAddr n.val) v.toNat = s.err pgSys 1 m.id (0x100 + 4 * n.val) :=
    (State.fabricWrite_sem n.isLt ht).trans (State.upIo_congr (Io.semWrite_refused h))
  obtain ⟨hc, hr, hk⟩ := s.err_counted pgSys 1 m.id (0x100 + 4 * n.val)
  exact Completes.live_eq (f := fun s => s.fabricWrite m.id (semAddr n.val) v.toNat) rfl hon hw rfl
    ⟨hc, fun hv => Io.get_err_type s.io pgSys _ hv (by decide) (master_id_lt m), hr, hk⟩

theorem semForce_frees {s : State} (hon : s.on = true) (mask : W32) (ht : s.takesWrite 0x11 pgSys = true) :
    Completes (.semForce .mcSec mask) s (fun t =>
      (∀ k : Fin 32, t.get pgSys SYS_SEMn.HOLDER k.val
        = if mask.toNat.testBit k.val then 0 else s.get pgSys SYS_SEMn.HOLDER k.val) ∧ OnlyRegs s t ∧
      KeepsWords (fun a => ∃ k : Fin 32, a = pgSys + SYS_SEMn.HOLDER.off + 4 * k.val) s t) := by
  have hw : s.fabricWrite 0x11 (pgSys + SYS_SEM_FORCE.RELEASE.off) mask.toNat = s.upIo fun io => io.semForce mask.toNat :=
    (State.fabricWrite_semForce ht).trans (if_pos rfl)
  exact Completes.live_eq (f := fun s => s.fabricWrite 0x11 (pgSys + SYS_SEM_FORCE.RELEASE.off) mask.toNat) rfl hon hw rfl
    ⟨fun k => Io.sem_semForce s.io _ k.isLt, OnlyRegs.upIo (Io.semForce_frame ..), fun _ ha => Io.rd_semForce_ne _ _ ha⟩

theorem semForce_refused {s : State} {m : Master} {v : W32} (hon : s.on = true) (ht : s.takesWrite m.id pgSys = true)
    (hm : m ≠ .mcSec) (hv : v ≠ 0) : Completes (.semForce m v) s (fun t =>
      t.get pgSys PG_ERR_CNT.COUNT = min (2 ^ 32 - 1) (s.get pgSys PG_ERR_CNT.COUNT + 1) ∧
      OnlyRegs s t ∧ KeepsWords (fun a => a = pgSys + 0x1C ∨ a = pgSys + 0x20) s t) := by
  have hid : m.id ≠ 0x11 := mt master_id_eq_mcSec.mp hm
  have hv' : v.toNat ≠ 0 := fun e => hv (BitVec.eq_of_toNat_eq e)
  have hw := State.fabricWrite_semForce (v := v.toNat) ht
  rw [if_neg hid, if_neg hv'] at hw
  exact Completes.live_eq (f := fun s => s.fabricWrite m.id (pgSys + SYS_SEM_FORCE.RELEASE.off) v.toNat) rfl hon hw rfl
    (s.err_counted pgSys 1 m.id _)

/-! ### Resets -/

/-- The host interface's rings are disabled by a reset of the host side. -/
theorem Io.KeepsLow.ringsOff (s : Io) : s.KeepsLow ((List.range 60).foldl (fun s n => s.put (pgRing n) RING_CTL.EN 0) s) :=
  Io.KeepsLow.foldl (fun x n => (Io.KeepsLow.refl x).put _ _ _ (pgHif_le_pgRing n)) _ (.refl s)

/-- A reset of the host side frees the locks of 0x01 (R64, R79). -/
theorem Io.sem_hostReset (s : Io) {n : Nat} (hn : n < 32) : s.hostReset.sem n = if s.sem n = 0x01 then 0 else s.sem n := by
  have hl := (Io.KeepsLow.ringsOff { s with pcie := { perstLow := s.pcie.perstLow } }).sem hn
  unfold Io.hostReset
  dsimp only
  generalize (List.range 60).foldl _ _ = x at hl ⊢
  refine (Io.sem_of_regs (s := x.semFree 0x01) (by dsimp only) n).trans ?_
  rw [Io.sem_semFree _ _ hn, hl]
  rfl

theorem Io.KeepsLow.dropHif (s : Io) : s.KeepsLow { s with regs := s.regs.drop inHif, wcount := [], modCnt := [], fetch := [] } := by
  refine ⟨fun a ha => SMap.get_drop_not _ _ ?_, rfl⟩
  have hlo : ¬ pgHif ≤ a := by omega
  simp [inHif, hlo]

/-- The words of FEAT_ACCEPT are no locks. -/
theorem Io.sem_foldl_accept (l : List Nat) (s : Io) {n : Nat} (hn : n < 32) :
    (l.foldl (fun s i => s.wr (pgFtr + 0x050 + 4 * i) 0) s).sem n = s.sem n := by
  induction l generalizing s with
  | nil => rfl
  | cons k l ih => rw [List.foldl_cons, ih, Io.sem_wr _ _ hn (by simp only [pgFtr]; omega)]

/-- A management reset frees the locks of 0x10 and 0x11 (R65, R79). -/
theorem Io.sem_mgmtReset (s : Io) {n : Nat} (hn : n < 32) :
    s.mgmtReset.sem n = if s.sem n = 0x10 ∨ s.sem n = 0x11 then 0 else s.sem n := by
  have hd := (Io.KeepsLow.dropHif s).sem hn
  unfold Io.mgmtReset Io.bumpSat
  dsimp only
  generalize ({ s with regs := s.regs.drop inHif, wcount := [], modCnt := [], fetch := [] } : Io) = x at hd ⊢
  rw [SYS_RST_CAUSE.MGMT_CNT, Io.sem_put_rstCause _ _ _ _ (by decide), Io.sem_wr _ _ hn (by decide), Io.sem_foldl_accept _ _ hn]
  refine (Io.sem_of_regs (s := (x.semFree 0x10).semFree 0x11) (by dsimp only) n).trans ?_
  rw [Io.sem_semFree _ 0x11 hn, Io.sem_semFree _ 0x10 hn, hd]
  by_cases h : s.sem n = 0x10 <;> simp [h]

theorem State.get_sem (s : State) (n : Nat) : s.get pgSys SYS_SEMn.HOLDER n = s.io.sem n := rfl

theorem State.sem_hostReset (s : State) {n : Nat} (hn : n < 32) : s.hostReset.io.sem n = if s.io.sem n = 0x01 then 0 else s.io.sem n := by
  have hk : (s.upIo fun io => io.hostReset).KeepsLow s.hostReset := by
    unfold State.hostReset
    exact ((State.KeepsLow.refl _).killJobs.zeroizeOf _).fwHostGone
  rw [hk.sem hn, State.upIo_io, Io.sem_hostReset _ hn]

theorem State.sem_perstAssert (s : State) {n : Nat} (hn : n < 32) :
    s.perstAssert.io.sem n = if s.io.sem n = 0x01 then 0 else s.io.sem n := by
  rw [← s.sem_hostReset hn]
  unfold State.perstAssert Io.bumpSat
  rw [State.upIo_io, SYS_RST_CAUSE.PERST_CNT, Io.sem_put_rstCause _ _ _ _ (by decide)]
  exact Io.sem_of_regs (s := s.hostReset.io) (by rw [State.upPcie]) n

theorem State.sem_mgmtEffects (s : State) {n : Nat} (hn : n < 32) :
    s.mgmtEffects.io.sem n = if s.io.sem n = 0x10 ∨ s.io.sem n = 0x11 then 0 else s.io.sem n := by
  have hk : (s.upIo fun io => io.mgmtReset).KeepsLow s.mgmtEffects := by
    have hm : (s.upIo fun io => io.mgmtReset).KeepsLow (s.upIo fun io => io.mgmtReset.mbxReset [0x10, 0x11]) :=
      Io.KeepsLow.mbxReset (.refl _) _
    unfold State.mgmtEffects
    exact (hm.killJobs.zeroizeOf _).fwHostGone
  rw [hk.sem hn, State.upIo_io, Io.sem_mgmtReset _ hn]

theorem State.sem_mgmtApply {s : State} (hp : s.io.sys.mgmtPending = true) (ha : s.io.sys.mgmtActive = false)
    (hr : s.io.sysReady = true) {n : Nat} (hn : n < 32) :
    s.mgmtApply.io.sem n = if s.io.sem n = 0x10 ∨ s.io.sem n = 0x11 then 0 else s.io.sem n := by
  unfold State.mgmtApply
  rw [if_neg (by simp [hp, ha, hr]), State.sem_mgmtEffects _ hn]
  have hs : (s.upSys fun y => { y with mgmtPending := false, mgmtActive := true }).io.sem n = s.io.sem n := Io.sem_of_regs rfl n
  rw [hs]

/-- A cold reset frees every lock (R79, R498). -/
theorem State.sem_coldRelease {s : State} (h : s.io.sys.phase = .held) {n : Nat} (hn : n < 32) :
    (s.coldRelease false).io.sem n = 0 := by
  have hreset : ∀ k : Fin 32, gb (resetWord (semAddr k.val)) 0 8 = 0 := by decide
  unfold State.coldRelease
  rw [if_neg (not_not.mpr h), if_neg (by decide)]
  dsimp only
  rw [State.put_io, SYS_RST_CAUSE.COLD, Io.sem_put_rstCause _ _ _ _ (by decide), Io.sem_eq]
  exact hreset ⟨n, hn⟩

/-- Settles O9: the writes by what the fabric makes of them, the resets by the locks each frees, which nothing after it touches. -/
theorem semaphoreRelease : Obligations.SemaphoreRelease := by
  intro s m n v
  refine ⟨fun hon ht => ⟨semRelease_frees hon ht, semRelease_refused hon ht, semForce_frees hon, semForce_refused hon ht⟩,
    fun hh => ⟨_, rfl, ?_⟩, fun hon hp ha hr => Completes.live rfl hon ?_, ⟨_, rfl, ?_⟩, fun hon => Completes.live rfl hon ?_⟩
  all_goals simp only [State.get_sem]
  · exact State.sem_coldRelease hh n.isLt
  · exact State.sem_mgmtApply hp ha hr n.isLt
  · exact s.sem_perstAssert n.isLt
  · exact s.sem_hostReset n.isLt

end Sys2Proof.Machine
end

section
/-!
PROOFS. The feature commit of R93 and R94: what its check finds, what it writes, and what of it the effects of an activation leave.
-/
namespace Sys2Proof.Machine

/-! ### The check -/

/-- Every feature of `x` has the feature it requires (R94). -/
theorem featNeeds_met {x : Nat} (h1 : x.testBit 5 = true → x.testBit 12 = true) (h2 : x.testBit 6 = true → x.testBit 1 = true)
    (h3 : x.testBit 14 = true → x.testBit 8 = true) : featNeeds.find? (fun p => x.testBit p.1 && !(x.testBit p.2)) = none := by
  rw [List.find?_eq_none]
  simpa [featNeeds] using ⟨h1, h2, h3⟩

/-- Some feature of `x` lacks the feature it requires. -/
theorem featNeeds_unmet {x : Nat} (h : (x.testBit 5 = true ∧ x.testBit 12 = false) ∨ (x.testBit 6 = true ∧ x.testBit 1 = false) ∨
    (x.testBit 14 = true ∧ x.testBit 8 = false)) :
    ∃ p, featNeeds.find? (fun p => x.testBit p.1 && !(x.testBit p.2)) = some p := by
  rw [← Option.isSome_iff_exists, List.find?_isSome]
  simpa [featNeeds] using h

theorem featCheck_noBase {x active : Nat} {first : Bool} (h0 : x.testBit 0 = false) : featCheck x active first = (2, 0) := by
  simp [featCheck, h0]

theorem featCheck_unmet {x active : Nat} {first : Bool} (h0 : x.testBit 0 = true)
    (h : (x.testBit 5 = true ∧ x.testBit 12 = false) ∨ (x.testBit 6 = true ∧ x.testBit 1 = false) ∨
      (x.testBit 14 = true ∧ x.testBit 8 = false)) : (featCheck x active first).1 = 3 := by
  obtain ⟨p, hp⟩ := featNeeds_unmet h
  simp [featCheck, h0, hp]

section
variable {x active : Nat} (h0 : x.testBit 0 = true) (h1 : x.testBit 5 = true → x.testBit 12 = true)
  (h2 : x.testBit 6 = true → x.testBit 1 = true) (h3 : x.testBit 14 = true → x.testBit 8 = true)
include h0 h1 h2 h3

/-- After the first commit a set is accepted that differs in no feature that is fixed. -/
theorem featCheck_accepted {first : Bool}
    (h : first = false → ∀ j, j < 128 → j ≠ 9 → j ≠ 10 → j ≠ 13 → x.testBit j = active.testBit j) :
    featCheck x active first = (1, 0) := by
  have hn := featNeeds_met h1 h2 h3
  cases first with
  | true => simp [featCheck, h0, hn]
  | false =>
    have hf : (List.range 128).find? (fun j => !(featMayChange.contains j) && (x.testBit j != active.testBit j)) = none := by
      rw [List.find?_eq_none]
      intro j hj
      by_cases hm : j ∈ featMayChange
      · simp [hm]
      · obtain ⟨h9, h10, h13⟩ : j ≠ 9 ∧ j ≠ 10 ∧ j ≠ 13 := by simpa [featMayChange] using hm
        simp [h rfl j (List.mem_range.mp hj) h9 h10 h13]
    unfold featCheck
    rw [hn, hf]
    simp [h0]

theorem featCheck_fixed (h : ∃ j, j < 128 ∧ j ≠ 9 ∧ j ≠ 10 ∧ j ≠ 13 ∧ x.testBit j ≠ active.testBit j) :
    (featCheck x active false).1 = 4 := by
  have hf : ∃ j, (List.range 128).find? (fun j => !(featMayChange.contains j) && (x.testBit j != active.testBit j)) = some j := by
    rw [← Option.isSome_iff_exists, List.find?_isSome]
    obtain ⟨j, hj, h9, h10, h13, hx⟩ := h
    exact ⟨j, List.mem_range.mpr hj, by simp [featMayChange, h9, h10, h13, hx]⟩
  obtain ⟨j, hj⟩ := hf
  unfold featCheck
  rw [featNeeds_met h1 h2 h3, hj]
  simp [h0]

end

/-! ### The four words of a set -/

/-- Words put together, the first lowest, stay below the width of all of them. -/
theorem foldWords_lt (w : Nat → W32) (n : Nat) :
    (List.range n).foldl (fun a i => a + (w i).toNat * 2 ^ (32 * i)) 0 < 2 ^ (32 * n) := by
  induction n with
  | zero => simp
  | succ n ih =>
    have hw := (w n).isLt
    rw [List.range_succ, List.foldl_append, Nat.mul_succ, Nat.pow_add]
    simp only [List.foldl_cons, List.foldl_nil]
    nlinarith

/-- Bit `j` of words put together is bit `j % 32` of word `j / 32`. -/
theorem foldWords_testBit (w : Nat → W32) (n j : Nat) :
    ((List.range n).foldl (fun a i => a + (w i).toNat * 2 ^ (32 * i)) 0).testBit j
      = (decide (j < 32 * n) && tb (w (j / 32)) (j % 32)) := by
  induction n with
  | zero => simp
  | succ n ih =>
    rw [List.range_succ, List.foldl_append]
    simp only [List.foldl_cons, List.foldl_nil]
    rw [Nat.add_comm, Nat.mul_comm (w n).toNat, Nat.testBit_two_pow_mul_add _ (foldWords_lt w n), ih]
    by_cases h1 : j < 32 * n
    · have h2 : j < 32 * (n + 1) := by omega
      simp [h1, h2]
    · by_cases h2 : j < 32 * (n + 1)
      · have hd : j / 32 = n := by omega
        have hm : j % 32 = j - 32 * n := by omega
        simp [h1, h2, hd, hm, tb]
      · have hlt : (w n).toNat < 2 ^ (j - 32 * n) :=
          lt_of_lt_of_le (w n).isLt (Nat.pow_le_pow_right (by decide) (by omega))
        simp [h1, h2, Nat.testBit_lt_two_pow hlt]

theorem Io.featSet_testBit (s : Io) (off j : Nat) :
    (s.featSet off).testBit j = (decide (j < 128) && tb (s.rd (pgFtr + off + 4 * (j / 32))) (j % 32)) :=
  foldWords_testBit (fun i => s.rd (pgFtr + off + 4 * i)) 4 j

/-- A set depends on its four words. -/
theorem Io.featSet_congr {s t : Io} {off : Nat} (h : ∀ k, k < 4 → t.rd (pgFtr + off + 4 * k) = s.rd (pgFtr + off + 4 * k)) :
    t.featSet off = s.featSet off := by
  refine Nat.eq_of_testBit_eq fun j => ?_
  rw [Io.featSet_testBit, Io.featSet_testBit]
  by_cases hj : j < 128
  · rw [h _ (by omega)]
  · simp [hj]

/-- Feature bit `j` is bit `j` of the active set. -/
theorem Io.feature_eq (s : Io) {j : Nat} (hj : j < 128) : s.feature j = (s.featSet 0x060).testBit j := by
  rw [Io.featSet_testBit, decide_eq_true hj, Bool.true_and]
  rfl

/-! ### What the commit writes -/

/-- FEAT_STATUS.CODE as a commit leaves it. -/
theorem gb_status (d : Nat) {c : Nat} (hc : c < 16) : gb (BitVec.ofNat 32 (2 ^ 16 * d + c)) 0 4 = c := by
  rw [gb, bitsOf, BitVec.toNat_ofNat, Nat.shiftRight_eq_div_pow]
  omega

/-- What a commit writes, given what its check finds. -/
theorem Io.featCommit_eq {s : Io} {x c d : Nat} (hx : s.featSet 0x050 &&& s.featSet 0x040 = x)
    (h : featCheck x (s.featSet 0x060) (!s.featDone) = (c, d)) :
    s.featCommit = if c ≠ 1 then s.wr (pgFtr + 0x074) (BitVec.ofNat 32 (2 ^ 16 * d + c)) else
      (List.range 4).foldl (fun s i => s.wr (pgFtr + 0x060 + 4 * i) (BitVec.ofNat 32 (x >>> (32 * i))))
        { s.wr (pgFtr + 0x074) (BitVec.ofNat 32 (2 ^ 16 * d + c)) with featDone := true } := by
  -- Unfolded as a function, and the set named, before the match is reduced: with the set spelled out, the kernel evaluates the check.
  obtain ⟨f, hf⟩ : ∃ f, f = Io.featCommit := ⟨_, rfl⟩
  rw [← hf]
  delta Io.featCommit at hf
  subst hf
  beta_reduce
  rw [hx]
  simp only [h]

/-- The active set is written word by word. -/
theorem Io.rd_foldl_words (x : Nat) (s : Io) {n k : Nat} (hk : k < n) :
    ((List.range n).foldl (fun s i => s.wr (pgFtr + 0x060 + 4 * i) (BitVec.ofNat 32 (x >>> (32 * i)))) s).rd (pgFtr + 0x060 + 4 * k)
      = BitVec.ofNat 32 (x >>> (32 * k)) := by
  induction n with
  | zero => omega
  | succ n ih =>
    rw [List.range_succ, List.foldl_append]
    by_cases h : k = n
    · subst h
      exact Io.rd_wr_same _ _ _
    · exact (Io.rd_wr_ne _ _ (by omega)).trans (ih (by omega))

theorem Io.rd_foldl_words_ne (x : Nat) (l : List Nat) (s : Io) {a : Nat} (h : ∀ i ∈ l, a ≠ pgFtr + 0x060 + 4 * i) :
    (l.foldl (fun s i => s.wr (pgFtr + 0x060 + 4 * i) (BitVec.ofNat 32 (x >>> (32 * i)))) s).rd a = s.rd a := by
  induction l generalizing s with
  | nil => rfl
  | cons k l ih =>
    rw [List.foldl_cons, ih _ fun i hi => h i (List.mem_cons_of_mem _ hi), Io.rd_wr_ne _ _ (h k List.mem_cons_self)]

theorem Io.featDone_foldl_words (x : Nat) (l : List Nat) (s : Io) :
    (l.foldl (fun s i => s.wr (pgFtr + 0x060 + 4 * i) (BitVec.ofNat 32 (x >>> (32 * i)))) s).featDone = s.featDone := by
  induction l generalizing s with
  | nil => rfl
  | cons k l ih => rw [List.foldl_cons, ih]; rfl

/-- A commit that is accepted: it has been made, its code, and the active set (R93). -/
theorem Io.featCommit_accepted {s : Io} {x : Nat} (hx : s.featSet 0x050 &&& s.featSet 0x040 = x)
    (h : featCheck x (s.featSet 0x060) (!s.featDone) = (1, 0)) :
    s.featCommit.featDone = true ∧ s.featCommit.rd (pgFtr + 0x074) = 1 ∧ s.featCommit.featSet 0x060 = x := by
  have hlt : x < 2 ^ 128 := hx ▸ lt_of_le_of_lt Nat.and_le_left (foldWords_lt (fun i => s.rd (pgFtr + 0x050 + 4 * i)) 4)
  rw [Io.featCommit_eq hx h, if_neg (by decide)]
  refine ⟨Io.featDone_foldl_words _ _ _, ?_, Nat.eq_of_testBit_eq fun j => ?_⟩
  · rw [Io.rd_foldl_words_ne _ _ _ fun i hi => by have := List.mem_range.mp hi; omega]
    exact (Io.rd_congr (s := s.wr (pgFtr + 0x074) 1) rfl _).trans (Io.rd_wr_same _ _ _)
  · rw [Io.featSet_testBit]
    by_cases hj : j < 128
    · have h32 : j % 32 < 32 := by omega
      have hsum : 32 * (j / 32) + j % 32 = j := by omega
      rw [Io.rd_foldl_words _ _ (by omega), tb, BitVec.toNat_ofNat, Nat.testBit_mod_two_pow, Nat.testBit_shiftRight]
      simp [hj, h32, hsum]
    · have hxj : x < 2 ^ j := lt_of_lt_of_le hlt (Nat.pow_le_pow_right (by decide) (by omega))
      simp [hj, Nat.testBit_lt_two_pow hxj]

/-! ### The command -/

theorem regAt_featCommit : ∃ h, Kind.ftr.regAt FEAT_COMMIT.GO.off = some h := Option.isSome_iff_exists.mp (by decide)

theorem pageOf_ftr {o : Nat} (ho : o < 0x1000) : pageOf (pgFtr + o) = some ⟨.ftr, 0, pgFtr⟩ := by
  unfold pageOf
  have hb := pageBases
  repeat rw [if_neg (by omega)]
  rw [if_pos (by omega)]

/-- A write of GO by a master that may is the commit. -/
theorem State.fabricWrite_featCommit {s : State} {m : Nat} (ht : s.takesWrite m pgFtr = true) (hm : ctlMaster m = true) :
    s.fabricWrite m (pgFtr + FEAT_COMMIT.GO.off) 1 = s.featCommit := by
  obtain ⟨h, hh⟩ := regAt_featCommit
  have hp : pageOf (pgFtr + FEAT_COMMIT.GO.off) = some ⟨.ftr, 0, pgFtr⟩ := pageOf_ftr (by decide)
  have ht' : s.takesWrite m (pgFtr + FEAT_COMMIT.GO.off) = true := by
    unfold State.takesWrite at ht ⊢
    rw [hp]
    rw [show pageOf pgFtr = some ⟨.ftr, 0, pgFtr⟩ from pageOf_ftr (o := 0) (by decide)] at ht
    exact ht
  refine (State.fabricWrite_body (a := pgFtr + FEAT_COMMIT.GO.off) ht' hp (by decide) hh (by decide) (pipeOfAddr_low (by decide))).trans ?_
  show s.wFtr _ h FEAT_COMMIT.GO.off m 1 = s.featCommit
  unfold State.wFtr
  rw [hm]
  rfl

theorem State.ipfixFeature_same (s : State) (b : Bool) : s.ipfixFeature b b = s := by
  cases b <;> rfl

/-- A commit that leaves the active set as it was brings nothing else about. -/
theorem State.featCommit_unchanged {s : State} (h : ∀ j, j < 128 → s.io.featCommit.feature j = s.io.feature j) :
    s.featCommit = s.upIo fun io => io.featCommit := by
  have h5 : (s.upIo fun io => io.featCommit).feature 5 = s.feature 5 := h 5 (by decide)
  have h6 : (s.upIo fun io => io.featCommit).feature 6 = s.feature 6 := h 6 (by decide)
  have h9 : (s.upIo fun io => io.featCommit).feature 9 = s.feature 9 := h 9 (by decide)
  unfold State.featCommit
  dsimp only
  rw [h9, State.ipfixFeature_same]
  simp [h5, h6]

/-- What an activation brings about leaves the pages below the host interface alone. -/
theorem State.featCommit_keepsLow (s : State) : (s.upIo fun io => io.featCommit).KeepsLow s.featCommit := by
  have hi := (State.KeepsLow.refl (s.upIo fun io => io.featCommit)).ipfixFeature (s.feature 9)
    ((s.upIo fun io => io.featCommit).feature 9)
  unfold State.featCommit
  exact .ite (State.KeepsLow.cascActivate (.ite (hi.upQnc _) hi)) (.ite (hi.upQnc _) hi)

/-- A write of FEAT_STATUS alone leaves every set. -/
theorem Io.featSet_wr_status (s : Io) (v : W32) {off : Nat} (ho : off ≤ 0x060) :
    (s.wr (pgFtr + 0x074) v).featSet off = s.featSet off :=
  Io.featSet_congr fun k hk => Io.rd_wr_ne _ _ (by omega)

theorem featCommit_refused {s : State} {m : Master} {x c : Nat} (hon : s.on = true) (ht : s.takesWrite m.id pgFtr = true)
    (hm : ctlMaster m.id = true) (hx : x = s.io.featSet 0x050 &&& s.io.featSet 0x040)
    (h : (featCheck x (s.io.featSet 0x060) (!s.io.featDone)).1 = c) (hc : c ≠ 1) (hc' : c < 16) :
    Completes (.featCommit m) s (fun t =>
      t.get pgFtr FEAT_STATUS.CODE = c ∧ t.io.featSet 0x060 = s.io.featSet 0x060 ∧ OnlyRegs s t ∧
      KeepsWords (· = pgFtr + FEAT_STATUS.CODE.off) s t) := by
  obtain ⟨d, hd⟩ : ∃ d, featCheck x (s.io.featSet 0x060) (!s.io.featDone) = (c, d) := ⟨_, Prod.ext h rfl⟩
  have hw : s.io.featCommit = s.io.wr (pgFtr + 0x074) (BitVec.ofNat 32 (2 ^ 16 * d + c)) := by
    rw [Io.featCommit_eq hx.symm hd, if_pos hc]
  have hfeat (j : Nat) (hj : j < 128) : s.io.featCommit.feature j = s.io.feature j := by
    rw [Io.feature_eq _ hj, Io.feature_eq _ hj, hw, Io.featSet_wr_status _ _ (by decide)]
  have hs : s.fabricWrite m.id (pgFtr + FEAT_COMMIT.GO.off) 1
      = s.upIo fun io => io.wr (pgFtr + 0x074) (BitVec.ofNat 32 (2 ^ 16 * d + c)) :=
    (State.fabricWrite_featCommit ht hm).trans ((State.featCommit_unchanged hfeat).trans (State.upIo_congr hw))
  refine Completes.live_eq (f := fun s => s.fabricWrite m.id (pgFtr + FEAT_COMMIT.GO.off) 1) rfl hon hs rfl
    ⟨?_, Io.featSet_wr_status s.io _ (by decide), OnlyRegs.wr s _ _, fun a ha => Io.rd_wr_ne s.io _ ha⟩
  rw [State.get_eq, Io.get_narrow _ _ _ _ rfl (by decide)]
  exact (congrArg (gb · 0 4) (Io.rd_wr_same s.io _ _)).trans (gb_status d hc')

theorem featCommit_accepted {s : State} {m : Master} {x : Nat} (hon : s.on = true) (ht : s.takesWrite m.id pgFtr = true)
    (hm : ctlMaster m.id = true) (hx : x = s.io.featSet 0x050 &&& s.io.featSet 0x040)
    (h : featCheck x (s.io.featSet 0x060) (!s.io.featDone) = (1, 0)) :
    Completes (.featCommit m) s (fun t =>
      t.get pgFtr FEAT_STATUS.CODE = 1 ∧ t.io.featSet 0x060 = x ∧ t.io.featDone = true ∧
      ∀ j, j < 128 → t.feature j = x.testBit j) := by
  obtain ⟨hd, hc, hset⟩ := Io.featCommit_accepted hx.symm h
  have hk := s.featCommit_keepsLow
  have hset' : s.featCommit.io.featSet 0x060 = x :=
    (Io.featSet_congr fun k hk' => hk.rd _ (by simp only [pgFtr, pgHif]; omega)).trans hset
  refine Completes.live (f := fun s => s.fabricWrite m.id (pgFtr + FEAT_COMMIT.GO.off) 1) rfl hon ?_
  dsimp only
  rw [State.fabricWrite_featCommit ht hm]
  refine ⟨?_, hset', hk.featDone.trans hd, fun j hj => (Io.feature_eq _ hj).trans (congrArg (Nat.testBit · j) hset')⟩
  rw [State.get_eq, Io.get_narrow _ _ _ _ rfl (by decide)]
  have hr : s.featCommit.io.rd (pgFtr + 0x074) = 1 := (hk.rd _ (by decide)).trans hc
  exact (congrArg (gb · 0 4) hr).trans rfl

/-- Settles O12: the check goes through its cases in the order of R93; a refusal writes FEAT_STATUS alone, and what an activation brings
about afterwards leaves the FTR page alone. -/
theorem featureCommit : Obligations.FeatureCommit := by
  intro s m x hon ht hm hx
  refine ⟨fun h0 => ?_, fun h0 hn => ?_, fun h0 h1 h2 h3 hf => ?_, fun h0 h1 h2 h3 hd hf => ?_⟩
  · exact featCommit_refused hon ht hm hx (by rw [featCheck_noBase h0]) (by decide) (by decide)
  · exact featCommit_refused hon ht hm hx (featCheck_unmet h0 hn) (by decide) (by decide)
  · exact featCommit_accepted hon ht hm hx (featCheck_accepted h0 h1 h2 h3 fun hd => hf (by simpa using hd))
  · exact featCommit_refused hon ht hm hx (by rw [hd]; exact featCheck_fixed h0 h1 h2 h3 hf) (by decide) (by decide)

end Sys2Proof.Machine
end

section
/-!
SUPPORT. Footprints: which parts of the state an operation may change. One lemma per operation gives its footprint, and footprints
compose, so that a frame of a statement is read off the operations a command is made of.
-/
namespace Sys2Proof.Machine

/-- The parts of the state that frames distinguish: the fields of `io`, and the other fields of the state. -/
inductive Part where
  | regs | bank | sticky | acc | ctrSlot | timeSlot | wcount | modCnt | fetch | taken | drained | time | clk | pcie | sys | nvm | ras
  | featDone | out | free
  | pending | buf | fwd | fmc | flow | act | tel | policy | pip | csc | qnc | cph | fw | jobs
deriving DecidableEq

/-- The part is in `t` as in `s`. -/
def Part.Same (s t : State) : Part → Prop
  | .regs => t.io.regs = s.io.regs
  | .bank => t.io.bank = s.io.bank
  | .sticky => t.io.sticky = s.io.sticky
  | .acc => t.io.acc = s.io.acc
  | .ctrSlot => t.io.ctrSlot = s.io.ctrSlot
  | .timeSlot => t.io.timeSlot = s.io.timeSlot
  | .wcount => t.io.wcount = s.io.wcount
  | .modCnt => t.io.modCnt = s.io.modCnt
  | .fetch => t.io.fetch = s.io.fetch
  | .taken => t.io.taken = s.io.taken
  | .drained => t.io.drained = s.io.drained
  | .time => t.io.time = s.io.time
  | .clk => t.io.clk = s.io.clk
  | .pcie => t.io.pcie = s.io.pcie
  | .sys => t.io.sys = s.io.sys
  | .nvm => t.io.nvm = s.io.nvm
  | .ras => t.io.ras = s.io.ras
  | .featDone => t.io.featDone = s.io.featDone
  | .out => t.io.out = s.io.out
  | .free => t.io.free = s.io.free
  | .pending => t.pending = s.pending
  | .buf => t.buf = s.buf
  | .fwd => t.fwd = s.fwd
  | .fmc => t.fmc = s.fmc
  | .flow => t.flow = s.flow
  | .act => t.act = s.act
  | .tel => t.tel = s.tel
  | .policy => t.policy = s.policy
  | .pip => t.pip = s.pip
  | .csc => t.csc = s.csc
  | .qnc => t.qnc = s.qnc
  | .cph => t.cph = s.cph
  | .fw => t.fw = s.fw
  | .jobs => t.jobs = s.jobs

/-- The fields of `io`. -/
def ioParts : List Part :=
  [.regs, .bank, .sticky, .acc, .ctrSlot, .timeSlot, .wcount, .modCnt, .fetch, .taken, .drained, .time, .clk, .pcie, .sys, .nvm, .ras,
   .featDone, .out, .free]

/-- Nothing but the parts in `F` changed, and the registers, the layer 2 tables and the DRAM stay in canonical form. -/
structure State.Within (F : List Part) (s t : State) : Prop where
  same : ∀ p, p ∉ F → p.Same s t
  canon : s.canonical = true → t.canonical = true

namespace State.Within

variable {F G : List Part} {s t u : State}

theorem refl (s : State) : s.Within [] s := ⟨fun p _ => by cases p <;> rfl, id⟩

/-- A change beside the registers, the tables and the DRAM keeps their form. -/
theorem beside (h : ∀ p, p ∉ F → p.Same s t) (hF : Part.regs ∉ F ∧ Part.fwd ∉ F ∧ Part.fmc ∉ F) : s.Within F t :=
  ⟨h, State.canonical_congr (h .regs hF.1) (congrArg Fwd.l2 (h .fwd hF.2.1)) (congrArg Fmc.mem (h .fmc hF.2.2))⟩

theorem mono (h : s.Within F t) (hF : F ⊆ G) : s.Within G t := ⟨fun p hp => h.same p fun hm => hp (hF hm), h.canon⟩

theorem trans (h : s.Within F t) (h' : t.Within F u) : s.Within F u := by
  refine ⟨fun p hp => ?_, fun hs => h'.canon (h.canon hs)⟩
  have h1 := h.same p hp
  have h2 := h'.same p hp
  cases p <;> exact h2.trans h1

/-- One operation after the other: their footprints together. -/
theorem seq (h : s.Within F t) (h' : t.Within G u) : s.Within (F ++ G) u :=
  (h.mono (List.subset_append_left F G)).trans (h'.mono (List.subset_append_right F G))

/-- The same, the last operation first: read from a term's outside in. -/
theorem after (h' : t.Within G u) (h : s.Within F t) : s.Within (F ++ G) u := h.seq h'

/-- One more operation, whose footprint lies in `F`. -/
theorem step (h : s.Within F t) (h' : t.Within G u) (hG : G ⊆ F) : s.Within F u := h.trans (h'.mono hG)

theorem cond {c : Prop} [Decidable c] (ht : s.Within F t) (hu : s.Within G u) : s.Within (F ++ G) (if c then t else u) := by
  split
  · exact ht.mono (List.subset_append_left F G)
  · exact hu.mono (List.subset_append_right F G)

theorem foldl {β : Type} {f : State → β → State} (hf : ∀ (x : State) (b : β), x.Within F (f x b)) {l : List β}
    (h : s.Within F t) : s.Within F (l.foldl f t) := by
  induction l generalizing t with
  | nil => exact h
  | cons b l ih => exact ih (h.trans (hf t b))

/-- An operation over a list, after what came before. -/
theorem each {β : Type} {f : State → β → State} (hf : ∀ (x : State) (b : β), x.Within F (f x b)) {l : List β}
    (h : s.Within G t) : s.Within (G ++ F) (l.foldl f t) :=
  h.seq (foldl hf ((refl t).mono (List.nil_subset F)))

/-- An operation over a list whose state travels in a pair. -/
theorem foldlFst {α β : Type} {f : State × α → β → State × α} (hf : ∀ (x : State × α) (b : β), x.1.Within F (f x b).1) {l : List β}
    {p : State × α} (h : s.Within F p.1) : s.Within F (l.foldl f p).1 := by
  induction l generalizing p with
  | nil => exact h
  | cons b l ih => exact ih (h.trans (hf p b))

theorem foldlSnd {α β : Type} {f : α × State → β → α × State} (hf : ∀ (x : α × State) (b : β), x.2.Within F (f x b).2) {l : List β}
    {p : α × State} (h : s.Within F p.2) : s.Within F (l.foldl f p).2 := by
  induction l generalizing p with
  | nil => exact h
  | cons b l ih => exact ih (h.trans (hf p b))

/-- The state in a pair. -/
theorem sndMk {α : Type} {v : α} (h : s.Within F t) : s.Within F (v, t).2 := h
theorem fstMk {α : Type} {v : α} (h : s.Within F t) : s.Within F (t, v).1 := h

theorem ofSnd {α : Type} {p : α × State} {v : α} (h : s.Within F p.2) (e : p = (v, u)) : s.Within F u := by
  subst e
  exact h

theorem ofFst {α : Type} {p : State × α} {v : α} (h : s.Within F p.1) (e : p = (u, v)) : s.Within F u := by
  subst e
  exact h

theorem ofSnd2 {α β : Type} {p : α × β × State} {v : α} {w : β} (h : s.Within F p.2.2) (e : p = (v, w, u)) : s.Within F u := by
  subst e
  exact h

/-- The state in an option, or the one kept in its place. -/
theorem getD {o : Option State} (h : ∀ u, o = some u → s.Within F u) (h' : s.Within G t) : s.Within (F ++ G) (o.getD t) := by
  cases o with
  | none => exact h'.mono (List.subset_append_right F G)
  | some u => exact (h u rfl).mono (List.subset_append_left F G)

/-- A part outside the footprint is as it was, read as a choice. -/
theorem part {α : Type} (π : State → α) (p : Part) (hπ : p.Same s t → π t = π s) (h : s.Within F t) :
    π t = if p ∈ F then π t else π s := by
  split
  · rfl
  · exact hπ (h.same p ‹_›)

/-- The state with the parts outside the footprint taken from `s`. -/
theorem eq (h : s.Within F t) : t =
    { pending := if .pending ∈ F then t.pending else s.pending
      io :=
        { regs := if .regs ∈ F then t.io.regs else s.io.regs
          bank := if .bank ∈ F then t.io.bank else s.io.bank
          sticky := if .sticky ∈ F then t.io.sticky else s.io.sticky
          acc := if .acc ∈ F then t.io.acc else s.io.acc
          ctrSlot := if .ctrSlot ∈ F then t.io.ctrSlot else s.io.ctrSlot
          timeSlot := if .timeSlot ∈ F then t.io.timeSlot else s.io.timeSlot
          wcount := if .wcount ∈ F then t.io.wcount else s.io.wcount
          modCnt := if .modCnt ∈ F then t.io.modCnt else s.io.modCnt
          fetch := if .fetch ∈ F then t.io.fetch else s.io.fetch
          taken := if .taken ∈ F then t.io.taken else s.io.taken
          drained := if .drained ∈ F then t.io.drained else s.io.drained
          time := if .time ∈ F then t.io.time else s.io.time
          clk := if .clk ∈ F then t.io.clk else s.io.clk
          pcie := if .pcie ∈ F then t.io.pcie else s.io.pcie
          sys := if .sys ∈ F then t.io.sys else s.io.sys
          nvm := if .nvm ∈ F then t.io.nvm else s.io.nvm
          ras := if .ras ∈ F then t.io.ras else s.io.ras
          featDone := if .featDone ∈ F then t.io.featDone else s.io.featDone
          out := if .out ∈ F then t.io.out else s.io.out
          free := if .free ∈ F then t.io.free else s.io.free }
      buf := if .buf ∈ F then t.buf else s.buf
      fwd := if .fwd ∈ F then t.fwd else s.fwd
      fmc := if .fmc ∈ F then t.fmc else s.fmc
      flow := if .flow ∈ F then t.flow else s.flow
      act := if .act ∈ F then t.act else s.act
      tel := if .tel ∈ F then t.tel else s.tel
      policy := if .policy ∈ F then t.policy else s.policy
      pip := if .pip ∈ F then t.pip else s.pip
      csc := if .csc ∈ F then t.csc else s.csc
      qnc := if .qnc ∈ F then t.qnc else s.qnc
      cph := if .cph ∈ F then t.cph else s.cph
      fw := if .fw ∈ F then t.fw else s.fw
      jobs := if .jobs ∈ F then t.jobs else s.jobs } := by
  rw [← h.part (·.pending) .pending id, ← h.part (·.io.regs) .regs id, ← h.part (·.io.bank) .bank id, ← h.part (·.io.sticky) .sticky id,
    ← h.part (·.io.acc) .acc id, ← h.part (·.io.ctrSlot) .ctrSlot id, ← h.part (·.io.timeSlot) .timeSlot id,
    ← h.part (·.io.wcount) .wcount id, ← h.part (·.io.modCnt) .modCnt id, ← h.part (·.io.fetch) .fetch id,
    ← h.part (·.io.taken) .taken id, ← h.part (·.io.drained) .drained id, ← h.part (·.io.time) .time id,
    ← h.part (·.io.clk) .clk id, ← h.part (·.io.pcie) .pcie id, ← h.part (·.io.sys) .sys id, ← h.part (·.io.nvm) .nvm id,
    ← h.part (·.io.ras) .ras id, ← h.part (·.io.featDone) .featDone id, ← h.part (·.io.out) .out id, ← h.part (·.io.free) .free id,
    ← h.part (·.buf) .buf id, ← h.part (·.fwd) .fwd id, ← h.part (·.fmc) .fmc id, ← h.part (·.flow) .flow id, ← h.part (·.act) .act id,
    ← h.part (·.tel) .tel id, ← h.part (·.policy) .policy id, ← h.part (·.pip) .pip id, ← h.part (·.csc) .csc id,
    ← h.part (·.qnc) .qnc id, ← h.part (·.cph) .cph id, ← h.part (·.fw) .fw id, ← h.part (·.jobs) .jobs id]

end State.Within

theorem OnlyRegs.of_within {s t : State} (h : s.Within [.regs] t) : OnlyRegs s t := h.eq
theorem OnlyIo.of_within {s t : State} (h : s.Within ioParts t) : OnlyIo s t := h.eq

/-- The same over `io` alone. -/
def Io.Within (F : List Part) (s t : Io) : Prop := State.Within F { io := s } { io := t }

namespace Io.Within

variable {F G : List Part} {s t u : Io}

theorem refl (s : Io) : s.Within [] s := State.Within.refl _
theorem trans (h : s.Within F t) (h' : t.Within F u) : s.Within F u := State.Within.trans h h'
theorem seq (h : s.Within F t) (h' : t.Within G u) : s.Within (F ++ G) u := State.Within.seq h h'
theorem after (h' : t.Within G u) (h : s.Within F t) : s.Within (F ++ G) u := h.seq h'
theorem step (h : s.Within F t) (h' : t.Within G u) (hG : G ⊆ F) : s.Within F u := State.Within.step h h' hG
theorem mono (h : s.Within F t) (hF : F ⊆ G) : s.Within G t := State.Within.mono h hF

theorem cond {c : Prop} [Decidable c] (ht : s.Within F t) (hu : s.Within G u) : s.Within (F ++ G) (if c then t else u) := by
  split
  · exact ht.mono (List.subset_append_left F G)
  · exact hu.mono (List.subset_append_right F G)

theorem foldl {β : Type} {f : Io → β → Io} (hf : ∀ (x : Io) (b : β), x.Within F (f x b)) {l : List β} (h : s.Within F t) :
    s.Within F (l.foldl f t) := by
  induction l generalizing t with
  | nil => exact h
  | cons b l ih => exact ih (h.trans (hf t b))

theorem each {β : Type} {f : Io → β → Io} (hf : ∀ (x : Io) (b : β), x.Within F (f x b)) {l : List β} (h : s.Within G t) :
    s.Within (G ++ F) (l.foldl f t) := h.seq (foldl hf ((refl t).mono (List.nil_subset F)))

theorem sndMk {α : Type} {v : α} (h : s.Within F t) : s.Within F (v, t).2 := h
theorem fstMk {α : Type} {v : α} (h : s.Within F t) : s.Within F (t, v).1 := h

theorem ofSnd {α : Type} {p : α × Io} {v : α} (h : s.Within F p.2) (e : p = (v, u)) : s.Within F u := by
  subst e
  exact h

theorem ofFst {α : Type} {p : Io × α} {v : α} (h : s.Within F p.1) (e : p = (u, v)) : s.Within F u := by
  subst e
  exact h

theorem ofSnd2 {α β : Type} {p : α × β × Io} {v : α} {w : β} (h : s.Within F p.2.2) (e : p = (v, w, u)) : s.Within F u := by
  subst e
  exact h

/-- The state in an option, or the one kept in its place. -/
theorem getD {o : Option Io} (h : ∀ u, o = some u → s.Within F u) (h' : s.Within G t) : s.Within (F ++ G) (o.getD t) := by
  cases o with
  | none => exact h'.mono (List.subset_append_right F G)
  | some u => exact (h u rfl).mono (List.subset_append_left F G)

end Io.Within

/-- The state of `io` alone is canonical where its registers are. -/
theorem Io.canonical_iff (s : Io) : State.canonical { io := s } = s.regs.wf resetWord := by
  have h2 : SMap.wf (fun _ => 0) ({ io := s } : State).fwd.l2 = true := rfl
  have h3 : Memory.wf ({ io := s } : State).fmc.mem = true := rfl
  rw [State.canonical, h2, h3, Bool.and_true, Bool.and_true]

/-- A change of `io` that may write registers. -/
theorem Io.Within.of_regs {F : List Part} {s t : Io} (h : ∀ p, p ∉ F → p.Same { io := s } { io := t })
    (hr : s.regs.wf resetWord = true → t.regs.wf resetWord = true) : s.Within F t :=
  ⟨h, fun hs => (t.canonical_iff).trans (hr (s.canonical_iff.symm.trans hs))⟩

theorem Io.Within.beside {F : List Part} {s t : Io} (h : ∀ p, p ∉ F → p.Same { io := s } { io := t }) (hr : Part.regs ∉ F) : s.Within F t :=
  .of_regs h fun hs => by rw [show t.regs = s.regs from h .regs hr]; exact hs

/-- An operation on `io` has its footprint over the whole state. -/
theorem State.Within.upIo {F : List Part} {s : State} {f : Io → Io} (h : s.io.Within F (f s.io)) : s.Within F (s.upIo f) := by
  refine ⟨fun p hp => ?_, fun hs => ?_⟩
  · have hq := h.same p hp
    cases p <;> simp_all [Part.Same, State.upIo]
  · have hc := h.canon
    rw [Io.canonical_iff, Io.canonical_iff] at hc
    unfold State.canonical at hs ⊢
    simp only [Bool.and_eq_true] at hs ⊢
    exact ⟨⟨hc hs.1.1, hs.1.2⟩, hs.2⟩

/-- The register file set. -/
theorem State.Within.setIo {F : List Part} {s : State} {x : Io} (h : s.io.Within F x) : s.Within F { s with io := x } :=
  .upIo (f := fun _ => x) h

/-! ### The shared operations -/

/-- Where a field is held. -/
abbrev Fld.parts (f : Fld) : List Part := if f.rws then [.bank] else [.regs]

/-- What a counter may change: its words, and what an overflow does. -/
abbrev ctrParts : List Part := [.regs, .sticky, .pcie, .out]

/-- What a report may change: sequence number, counters and causes, and its record. -/
abbrev reportParts : List Part := [.regs, .sticky, .modCnt, .wcount, .pcie, .nvm, .ras, .out]

namespace Io

variable (s : Io)

theorem within_wr (a : Nat) (v : W32) : s.Within [.regs] (s.wr a v) :=
  .of_regs (fun p hp => by cases p <;> simp_all [Part.Same, Io.wr]) (Io.wf_wr s a v)

theorem within_wr64 (a v : Nat) : s.Within [.regs] (s.wr64 a v) := .trans (within_wr ..) (within_wr ..)

theorem within_setBank (x : SMap W32) : s.Within [.bank] { s with bank := x } := by
  refine .beside (fun p hp => ?_) (by decide)
  cases p
  case bank => exact (hp (.head _)).elim
  all_goals rfl

theorem within_setSticky (x : SMap Bool) : s.Within [.sticky] { s with sticky := x } := by
  refine .beside (fun p hp => ?_) (by decide)
  cases p
  case sticky => exact (hp (.head _)).elim
  all_goals rfl

theorem within_setAcc (x : SMap Nat) : s.Within [.acc] { s with acc := x } := by
  refine .beside (fun p hp => ?_) (by decide)
  cases p
  case acc => exact (hp (.head _)).elim
  all_goals rfl

theorem within_setCtrSlot (x : SMap (Option (Nat × Nat))) : s.Within [.ctrSlot] { s with ctrSlot := x } := by
  refine .beside (fun p hp => ?_) (by decide)
  cases p
  case ctrSlot => exact (hp (.head _)).elim
  all_goals rfl

theorem within_setTimeSlot (x : SMap Nat) : s.Within [.timeSlot] { s with timeSlot := x } := by
  refine .beside (fun p hp => ?_) (by decide)
  cases p
  case timeSlot => exact (hp (.head _)).elim
  all_goals rfl

theorem within_setWcount (x : SMap Nat) : s.Within [.wcount] { s with wcount := x } := by
  refine .beside (fun p hp => ?_) (by decide)
  cases p
  case wcount => exact (hp (.head _)).elim
  all_goals rfl

theorem within_setModCnt (x : SMap Nat) : s.Within [.modCnt] { s with modCnt := x } := by
  refine .beside (fun p hp => ?_) (by decide)
  cases p
  case modCnt => exact (hp (.head _)).elim
  all_goals rfl

theorem within_setFetch (x : SMap (List TxFetch)) : s.Within [.fetch] { s with fetch := x } := by
  refine .beside (fun p hp => ?_) (by decide)
  cases p
  case fetch => exact (hp (.head _)).elim
  all_goals rfl

theorem within_setTaken (x : SMap Nat) : s.Within [.taken] { s with taken := x } := by
  refine .beside (fun p hp => ?_) (by decide)
  cases p
  case taken => exact (hp (.head _)).elim
  all_goals rfl

theorem within_setDrained (x : SMap Bool) : s.Within [.drained] { s with drained := x } := by
  refine .beside (fun p hp => ?_) (by decide)
  cases p
  case drained => exact (hp (.head _)).elim
  all_goals rfl

theorem within_setTime (x : TimeBase) : s.Within [.time] { s with time := x } := by
  refine .beside (fun p hp => ?_) (by decide)
  cases p
  case time => exact (hp (.head _)).elim
  all_goals rfl

theorem within_setClk (x : Clk) : s.Within [.clk] { s with clk := x } := by
  refine .beside (fun p hp => ?_) (by decide)
  cases p
  case clk => exact (hp (.head _)).elim
  all_goals rfl

theorem within_setPcie (x : Pcie) : s.Within [.pcie] { s with pcie := x } := by
  refine .beside (fun p hp => ?_) (by decide)
  cases p
  case pcie => exact (hp (.head _)).elim
  all_goals rfl

theorem within_setSys (x : Sys) : s.Within [.sys] { s with sys := x } := by
  refine .beside (fun p hp => ?_) (by decide)
  cases p
  case sys => exact (hp (.head _)).elim
  all_goals rfl

theorem within_setNvm (x : Nvm) : s.Within [.nvm] { s with nvm := x } := by
  refine .beside (fun p hp => ?_) (by decide)
  cases p
  case nvm => exact (hp (.head _)).elim
  all_goals rfl

theorem within_setRas (x : Ras) : s.Within [.ras] { s with ras := x } := by
  refine .beside (fun p hp => ?_) (by decide)
  cases p
  case ras => exact (hp (.head _)).elim
  all_goals rfl

theorem within_setFeatDone (x : Bool) : s.Within [.featDone] { s with featDone := x } := by
  refine .beside (fun p hp => ?_) (by decide)
  cases p
  case featDone => exact (hp (.head _)).elim
  all_goals rfl

theorem within_setOut (x : List Out) : s.Within [.out] { s with out := x } := by
  refine .beside (fun p hp => ?_) (by decide)
  cases p
  case out => exact (hp (.head _)).elim
  all_goals rfl

theorem within_setFree (x : Nat) : s.Within [.free] { s with free := x } := by
  refine .beside (fun p hp => ?_) (by decide)
  cases p
  case free => exact (hp (.head _)).elim
  all_goals rfl

theorem within_setCtrSlotTimeSlot (x : SMap (Option (Nat × Nat))) (y : SMap Nat) : s.Within [.ctrSlot, .timeSlot] { s with ctrSlot := x, timeSlot := y } := by
  refine .beside (fun p hp => ?_) (by decide)
  cases p
  case ctrSlot | timeSlot => exact (hp (by decide)).elim
  all_goals rfl

theorem within_bkSet (a b : Nat) (v : W32) : s.Within [.bank] (s.bkSet a b v) := within_setBank ..

theorem within_put (b : Nat) (f : Fld) (v i : Nat) : s.Within f.parts (s.put b f v i) := by
  unfold Io.put Fld.parts
  split
  · exact within_bkSet ..
  · split
    · exact within_wr ..
    · exact within_wr64 ..

theorem within_bump (b : Nat) (f : Fld) (n i : Nat) : s.Within f.parts (s.bump b f n i) := within_put ..
theorem within_bumpSat (b : Nat) (f : Fld) (n i : Nat) : s.Within f.parts (s.bumpSat b f n i) := within_put ..
theorem within_maxTo (b : Nat) (f : Fld) (v i : Nat) : s.Within f.parts (s.maxTo b f v i) := by
  unfold Io.maxTo
  split
  · exact within_put ..
  · exact .mono (.refl _) (List.nil_subset _)

/-- A field of either kind. -/
theorem Fld.parts_subset (f : Fld) : f.parts ⊆ [.regs, .bank] := by
  unfold Fld.parts
  split <;> decide

theorem within_putAny (b : Nat) (f : Fld) (v i : Nat) : s.Within [.regs, .bank] (s.put b f v i) :=
  (within_put ..).mono (Fld.parts_subset f)

theorem within_emit (o : Out) : s.Within [.out] (s.emit o) := within_setOut ..

theorem within_msix (n : Nat) : s.Within [.pcie, .out] (s.msix n) := .mono (.cond (within_emit ..) (within_setPcie ..)) (by decide)

theorem within_raiseBits (b n : Nat) : s.Within [.regs, .pcie, .out] (s.raiseBits b n) :=
  .mono (.cond (.seq (within_wr ..) (within_msix ..)) (within_wr ..)) (by decide)

theorem within_raise (b n : Nat) : s.Within [.regs, .pcie, .out] (s.raise b n) := within_raiseBits ..

theorem within_err (b ty m o : Nat) : s.Within [.regs] (s.err b ty m o) :=
  .mono (.cond (within_bumpSat ..) (.seq (within_bumpSat ..) (within_wr ..))) (by decide)

theorem within_accAdd (b : Nat) (f : Fld) (n i : Nat) : s.Within [.acc] (s.accAdd b f n i) := within_setAcc ..

theorem within_wrapped (a : Nat) : s.Within ctrParts (s.wrapped a) := by
  have hb : s.Within ctrParts (({ s with sticky := s.sticky.set false a true } : Io).bump pgPmc PMC_OVF_CNT.COUNT) :=
    .mono (.seq (within_setSticky ..) (within_bump ..)) (by decide)
  exact .mono (.cond hb (.seq (.seq hb (within_wr ..)) (within_raise ..))) (by decide)

theorem within_ctrAt (a n : Nat) : s.Within ctrParts (s.ctrAt a n) :=
  .mono (.cond (within_wr64 ..) (.seq (within_wr64 ..) (within_wrapped ..))) (by decide)

theorem within_ctr (b : Nat) (f : Fld) (n i : Nat) : s.Within ctrParts (s.ctr b f n i) := within_ctrAt ..

/-! ### Rings and records -/

theorem within_ringFlag (n i : Nat) : s.Within [.regs, .pcie, .out] (s.ringFlag n i) := within_raise ..

theorem within_complete (n : Nat) (irq : Bool) : s.Within [.regs, .modCnt, .pcie, .out] (s.complete n irq) := by
  have hf : s.Within [.modCnt, .regs, .pcie, .out] (({ s with modCnt := s.modCnt.set 0 n 0 } : Io).ringFlag n 0) :=
    .seq (within_setModCnt ..) (within_ringFlag ..)
  exact .mono (.cond hf (.cond (.refl _) (.cond hf (within_setModCnt ..)))) (by decide)

theorem within_ringWrite (n : Nat) (es : List Line) : s.Within [.regs, .modCnt, .wcount, .pcie, .out] (s.ringWrite n es) := by
  unfold Io.ringWrite
  exact .mono (.seq (.seq (.seq (.each (fun _ _ => within_emit ..) (.refl _)) (within_setWcount ..)) (within_put ..))
    (within_complete ..)) (by decide)

theorem within_ringPut (n : Nat) (es : List Line) : s.Within [.regs, .modCnt, .wcount, .pcie, .out] (s.ringPut n es) :=
  .mono (.cond (within_ringWrite ..) (.seq (within_raise ..) (within_bump ..))) (by decide)

theorem within_countSeverity (sev : Nat) : s.Within ctrParts (s.countSeverity sev) := by
  unfold Io.countSeverity
  split
  · exact within_ctr ..
  · exact .mono (.seq (within_ctr ..) (within_raise ..)) (by decide)
  · exact .mono (.seq (within_ctr ..) (within_raise ..)) (by decide)
  · exact .mono (.refl _) (by decide)

theorem within_report (sev code b l d : Nat) : s.Within reportParts (s.report sev code b l d) := by
  unfold Io.report
  split
  · exact .mono (.refl _) (by decide)
  · have hs := (within_setNvm s { s.nvm with seq := s.nvm.seq + 1 }).seq (within_countSeverity _ sev)
    exact .mono (.cond (.seq hs (.cond (.seq (within_setRas ..) (within_ctr ..)) (.seq (within_setRas ..) (within_ringPut ..))))
      (.seq hs (within_setRas ..))) (by decide)

end Io

/-! ### The same over the whole state -/

namespace State

variable (s : State)

theorem within_put (b : Nat) (f : Fld) (v i : Nat) : s.Within f.parts (s.put b f v i) := .upIo (Io.within_put ..)
theorem within_putAny (b : Nat) (f : Fld) (v i : Nat) : s.Within [.regs, .bank] (s.put b f v i) := .upIo (Io.within_putAny ..)
theorem within_bump (b : Nat) (f : Fld) (n i : Nat) : s.Within f.parts (s.bump b f n i) := .upIo (Io.within_bump ..)
theorem within_ctr (b : Nat) (f : Fld) (n i : Nat) : s.Within ctrParts (s.ctr b f n i) := .upIo (Io.within_ctr ..)
theorem within_raise (b n : Nat) : s.Within [.regs, .pcie, .out] (s.raise b n) := .upIo (Io.within_raise ..)
theorem within_raiseOnce (b n : Nat) : s.Within [.regs, .pcie, .out] (s.raiseOnce b n) := .mono (.cond (.refl _) (within_raise ..)) (by decide)
theorem within_err (b ty m o : Nat) : s.Within [.regs] (s.err b ty m o) := .upIo (Io.within_err ..)
theorem within_emit (o : Out) : s.Within [.out] (s.emit o) := .upIo (Io.within_emit ..)
theorem within_report (sev code b l d : Nat) : s.Within reportParts (s.report sev code b l d) := .upIo (Io.within_report ..)
theorem within_upSys (f : Sys → Sys) : s.Within [.sys] (s.upSys f) := .upIo (f := fun io => { io with sys := f io.sys }) (Io.within_setSys ..)
theorem within_upPcie (f : Pcie → Pcie) : s.Within [.pcie] (s.upPcie f) :=
  .upIo (f := fun io => { io with pcie := f io.pcie }) (Io.within_setPcie ..)
theorem within_upNvm (f : Nvm → Nvm) : s.Within [.nvm] (s.upNvm f) := .upIo (f := fun io => { io with nvm := f io.nvm }) (Io.within_setNvm ..)

/-- A change of the tables or the DRAM beside the layer 2 table and the array. -/
theorem within_setFwd {s : State} {x : Fwd} (h : x.l2 = s.fwd.l2) : s.Within [.fwd] { s with fwd := x } := by
  refine ⟨fun p hp => ?_, State.canonical_congr rfl h rfl⟩
  cases p
  case fwd => exact (hp (.head _)).elim
  all_goals rfl

theorem within_setFmc {s : State} {x : Fmc} (h : x.mem = s.fmc.mem) : s.Within [.fmc] { s with fmc := x } := by
  refine ⟨fun p hp => ?_, State.canonical_congr rfl rfl h⟩
  cases p
  case fmc => exact (hp (.head _)).elim
  all_goals rfl

theorem within_setBuf (x : Buf) : s.Within [.buf] { s with buf := x } := by
  refine .beside (fun p hp => ?_) (by decide)
  cases p
  case buf => exact (hp (.head _)).elim
  all_goals rfl

theorem within_setFlow (x : Flow) : s.Within [.flow] { s with flow := x } := by
  refine .beside (fun p hp => ?_) (by decide)
  cases p
  case flow => exact (hp (.head _)).elim
  all_goals rfl

theorem within_setAct (x : Act) : s.Within [.act] { s with act := x } := by
  refine .beside (fun p hp => ?_) (by decide)
  cases p
  case act => exact (hp (.head _)).elim
  all_goals rfl

theorem within_setTel (x : Tel) : s.Within [.tel] { s with tel := x } := by
  refine .beside (fun p hp => ?_) (by decide)
  cases p
  case tel => exact (hp (.head _)).elim
  all_goals rfl

theorem within_setPolicy (x : Policy) : s.Within [.policy] { s with policy := x } := by
  refine .beside (fun p hp => ?_) (by decide)
  cases p
  case policy => exact (hp (.head _)).elim
  all_goals rfl

theorem within_setPip (x : Pip) : s.Within [.pip] { s with pip := x } := by
  refine .beside (fun p hp => ?_) (by decide)
  cases p
  case pip => exact (hp (.head _)).elim
  all_goals rfl

theorem within_setCsc (x : Csc) : s.Within [.csc] { s with csc := x } := by
  refine .beside (fun p hp => ?_) (by decide)
  cases p
  case csc => exact (hp (.head _)).elim
  all_goals rfl

theorem within_setQnc (x : Qnc) : s.Within [.qnc] { s with qnc := x } := by
  refine .beside (fun p hp => ?_) (by decide)
  cases p
  case qnc => exact (hp (.head _)).elim
  all_goals rfl

theorem within_setCph (x : Cph) : s.Within [.cph] { s with cph := x } := by
  refine .beside (fun p hp => ?_) (by decide)
  cases p
  case cph => exact (hp (.head _)).elim
  all_goals rfl

theorem within_setFw (x : Fw) : s.Within [.fw] { s with fw := x } := by
  refine .beside (fun p hp => ?_) (by decide)
  cases p
  case fw => exact (hp (.head _)).elim
  all_goals rfl

theorem within_setJobs (x : SMap (Option CmdJob)) : s.Within [.jobs] { s with jobs := x } := by
  refine .beside (fun p hp => ?_) (by decide)
  cases p
  case jobs => exact (hp (.head _)).elim
  all_goals rfl

theorem within_setFlowPolicy (x : Flow) (y : Policy) : s.Within [.flow, .policy] { s with flow := x, policy := y } := by
  refine .beside (fun p hp => ?_) (by decide)
  cases p
  case flow | policy => exact (hp (by decide)).elim
  all_goals rfl

theorem within_setTelPolicy (x : Tel) (y : Policy) : s.Within [.tel, .policy] { s with tel := x, policy := y } := by
  refine .beside (fun p hp => ?_) (by decide)
  cases p
  case tel | policy => exact (hp (by decide)).elim
  all_goals rfl

theorem within_setFwdAct {s : State} {x : Fwd} {y : Act} (h : x.l2 = s.fwd.l2) : s.Within [.fwd, .act] { s with fwd := x, act := y } := by
  refine ⟨fun p hp => ?_, State.canonical_congr rfl h rfl⟩
  cases p
  case fwd | act => exact (hp (by decide)).elim
  all_goals rfl

theorem within_setFmcFlow {s : State} {x : Fmc} {y : Flow} (h : x.mem = s.fmc.mem) : s.Within [.fmc, .flow] { s with fmc := x, flow := y } := by
  refine ⟨fun p hp => ?_, State.canonical_congr rfl rfl h⟩
  cases p
  case fmc | flow => exact (hp (by decide)).elim
  all_goals rfl

end State
end Sys2Proof.Machine
end

section
/-!
SUPPORT. The block as a whole: which commands act only while the device runs, what a device that is held or stopped acts on, and what
passes with a tick.
-/
namespace Sys2Proof.Machine

/-- The commands that act while the device does not run: the resets, the host link's reset pin, the end of a stop, and I2C. -/
def actsStopped : Instr → Bool
  | .perstNAssert | .perstNDeassert | .powerOnReset | .chipRstNAssert | .coldResetRelease _ | .stopPersist | .stopHalt
  | .i2cTransaction _ _ => true
  | _ => false

/-- Every other command acts only while the device runs. -/
theorem exec_live {c : Instr} (h : actsStopped c = false) : ∃ f, ∀ s, exec c s = s.live f := by
  cases c
  case perstNAssert | perstNDeassert | powerOnReset | chipRstNAssert | coldResetRelease | stopPersist | stopHalt | i2cTransaction =>
    exact absurd h (by simp [actsStopped])
  all_goals exact ⟨_, fun _ => rfl⟩

theorem exec_always {c : Instr} (h : actsStopped c = true) : ∃ f, ∀ s, exec c s = s.always f := by
  cases c
  case perstNAssert | perstNDeassert | powerOnReset | chipRstNAssert | coldResetRelease | stopPersist | stopHalt | i2cTransaction =>
    exact ⟨_, fun _ => rfl⟩
  all_goals exact absurd h (by simp [actsStopped])

/-- Every command answers a next state, the queue behind it as it was. -/
theorem exec_answers (c : Instr) (s : State) : ∃ t, exec c s = .next t ∧ t.pending = s.pending := by
  cases ha : actsStopped c with
  | false =>
    obtain ⟨f, hf⟩ := exec_live ha
    rw [hf]
    refine ⟨_, rfl, ?_⟩
    split <;> rfl
  | true =>
    obtain ⟨f, hf⟩ := exec_always ha
    exact ⟨_, hf s, rfl⟩

/-- Held in cold reset, or stopped for good. -/
def State.inert (s : State) : Prop := s.io.sys.phase = .held ∨ s.io.sys.phase = .halted

theorem State.inert.off {s : State} (h : s.inert) : s.on = false := by
  unfold State.on
  rcases h with h | h <;> rw [h] <;> rfl

theorem State.inert.ne_stopping {s : State} (h : s.inert) : s.io.sys.phase ≠ .stopping := by
  rcases h with h | h <;> rw [h] <;> decide

/-- A command that acts always, and whose effect here is none. -/
theorem NoEffect.always {c : Instr} {s : State} {f : State → State} (hx : exec c s = s.always f) (hf : f s = s) : NoEffect c s := by
  unfold NoEffect
  rw [hx, State.always, hf]

theorem stopPersist_unless {s : State} (h : s.io.sys.phase ≠ .stopping) : NoEffect .stopPersist s :=
  .always (f := State.stopPersist) rfl (if_pos h)

theorem stopHalt_unless {s : State} (h : s.io.sys.phase ≠ .stopping) : NoEffect .stopHalt s :=
  .always (f := State.stopHalt) rfl (if_neg h)

theorem coldRelease_unless {s : State} (h : s.io.sys.phase ≠ .held) (b : Bool) : NoEffect (.coldResetRelease b) s :=
  .always (f := fun s => s.coldRelease b) rfl (if_pos h)

theorem i2c_inert {s : State} (h : s.inert) (a : W32) (d : Option W32) : NoEffect (.i2cTransaction a d) s := by
  have hi : s.i2cOn = false := by simp [State.i2cOn, h.off, h.ne_stopping]
  exact .always (f := fun s => s.i2c a.toNat (d.map BitVec.toNat)) rfl (by simp [State.i2c, hi])

/-- A device that is held or stopped acts on nothing but its resets and the host link's reset pin (R473, R496). -/
theorem exec_inert {s : State} {c : Instr} (h : s.inert) (h1 : c ≠ .perstNAssert) (h2 : c ≠ .perstNDeassert) (h3 : c ≠ .powerOnReset)
    (h4 : c ≠ .chipRstNAssert) (h5 : ∀ b, c ≠ .coldResetRelease b) : NoEffect c s := by
  cases ha : actsStopped c with
  | false =>
    obtain ⟨f, hf⟩ := exec_live ha
    exact (hf s).trans (State.live_off h.off f)
  | true =>
    cases c
    case perstNAssert | perstNDeassert | powerOnReset | chipRstNAssert | coldResetRelease => simp_all
    case stopPersist => exact stopPersist_unless h.ne_stopping
    case stopHalt => exact stopHalt_unless h.ne_stopping
    case i2cTransaction a d => exact i2c_inert h a d
    all_goals exact absurd ha (by simp [actsStopped])

/-- Settles O2: a command acts while the device runs, or always; those of the second kind that a held or stopped device takes are named. -/
theorem everyStepAnswers : Obligations.EveryStepAnswers :=
  fun s c => ⟨exec_answers c s, fun h => exec_inert h⟩

/-! ### A stopped device -/

/-- Reaches no further than the registers, the ends of messages and loads, and what PERST_N drops. -/
abbrev hostResetParts : List Part := [.regs, .pcie, .out, .fetch, .timeSlot, .ctrSlot, .jobs, .cph, .fw]

theorem Io.within_semFree (s : Io) (m : Nat) : s.Within [.regs] (s.semFree m) :=
  .mono (.each (fun _ _ => .cond (within_put ..) (.refl _)) (.refl _)) (by decide)

theorem Io.within_setSlots (s : Io) (f : SMap (List TxFetch)) (t : SMap Nat) (c : SMap (Option (Nat × Nat))) :
    s.Within [.fetch, .timeSlot, .ctrSlot] { s with fetch := f, timeSlot := t, ctrSlot := c } := by
  refine .beside (fun p hp => ?_) (by decide)
  cases p
  case fetch | timeSlot | ctrSlot => exact (hp (by decide)).elim
  all_goals rfl

theorem Io.within_hostReset (s : Io) : s.Within hostResetParts s.hostReset := by
  have h1 := (s.within_setPcie { perstLow := s.pcie.perstLow }).each (fun x n => x.within_put (pgRing n) RING_CTL.EN 0 0) (l := List.range 60)
  unfold Io.hostReset
  dsimp only
  generalize List.foldl _ _ _ = x at h1 ⊢
  exact .mono (.seq (h1.seq (within_semFree ..)) (within_setSlots ..)) (by decide)

namespace State

variable (s : State)

theorem within_unhold (q : Nat) : s.Within [.jobs] (s.unhold q) := within_setJobs ..

theorem within_killJobs : s.Within [.jobs] s.killJobs := by
  refine .foldl (fun x q => ?_) (.mono (.refl _) (by decide))
  split
  · exact .mono (.refl _) (by decide)
  · exact .mono (.cond (within_unhold ..) (within_setJobs ..)) (by decide)

theorem within_setCpage (u : Nat) (p : CPage) : s.Within [.cph] (s.setCpage u p) := within_setCph ..

theorem within_clearHalf (u lo hi : Nat) : s.Within [.regs] (s.clearHalf u lo hi) :=
  .upIo (.of_regs (fun p hp => by cases p <;> simp_all [Part.Same]) fun h =>
    SMap.wf_drop (fun a => decide (pgCphU u + lo ≤ a) && decide (a < pgCphU u + hi)) h)

theorem within_freeEngines (c : Nat) : s.Within [.regs, .cph] (s.freeEngines c) :=
  .mono (.seq (.each (fun _ _ => .cond (within_setCph ..) (.refl _)) (.refl _)) (within_put ..)) (by decide)

theorem within_jobEnd (u st code : Nat) : s.Within [.regs, .pcie, .out, .cph] (s.jobEnd u st code) :=
  .mono (.seq (.seq (.seq (.seq (within_setCpage ..) (within_put ..)) (within_put ..)) (within_freeEngines ..)) (within_raise ..)) (by decide)

theorem within_msgEnd (u : Nat) : s.Within [.regs, .cph] (s.msgEnd u) := .mono (.seq (within_setCpage ..) (within_put ..)) (by decide)

theorem within_keyClear (u : Nat) : s.Within [.regs, .pcie, .out, .cph] (s.keyClear u) := by
  have hj := State.Within.cond (c := (s.cpage u).job.isSome) (within_jobEnd s u 3 8) (.refl s)
  exact .mono (.seq (.seq (.seq (.seq hj (within_msgEnd ..)) (within_setCpage ..)) (within_put ..)) (within_put ..)) (by decide)

theorem within_zeroize (u : Nat) : s.Within [.regs, .pcie, .out, .cph] (s.zeroize u) := by
  have hk := ((within_keyClear s u).seq (within_setCpage _ u { (s.keyClear u).cpage u with data := [] })).seq
    (within_put _ (pgCphU u) CPH_KEY_STAT.CODE 0 0)
  have hc := (((hk.seq (within_clearHalf _ u 0x040 0x060)).seq (within_clearHalf _ u 0x0C0 0x0FC)).seq
    (within_clearHalf _ u 0x100 0x118)).seq (within_clearHalf _ u 0x400 0x800)
  unfold State.zeroize
  exact .mono (.cond hc (hc.seq (within_clearHalf ..))) (by decide)

theorem within_zeroizeOf (ms : List Nat) : s.Within [.regs, .pcie, .out, .cph] (s.zeroizeOf ms) :=
  .mono (.each (fun _ _ => .cond (within_zeroize ..) (.refl _)) (.refl _)) (by decide)

theorem within_upFw (f : Fw → Fw) : s.Within [.fw] (s.upFw f) := within_setFw ..

theorem within_fwEnd (c : Nat) : s.Within [.regs, .pcie, .out, .fw] (s.fwEnd c) :=
  .mono (.seq (.seq (within_upFw ..) (within_put ..)) (within_raise ..)) (by decide)

theorem within_fwHostGone : s.Within [.regs, .pcie, .out, .fw] s.fwHostGone := by
  unfold State.fwHostGone
  split
  · exact .mono (.cond (.refl _) (within_fwEnd ..)) (by decide)
  · exact .mono (.refl _) (by decide)

/-- What a reset of the host side may change (R64). -/
theorem within_hostReset : s.Within hostResetParts s.hostReset := by
  unfold State.hostReset
  exact .mono (.seq (.seq (.seq (.upIo (Io.within_hostReset _)) (within_killJobs ..)) (within_zeroizeOf ..)) (within_fwHostGone ..)) (by decide)

theorem within_perstAssert : s.Within hostResetParts s.perstAssert := by
  unfold State.perstAssert
  exact .mono (.seq (.seq (within_hostReset s) (within_upPcie ..)) (.upIo (Io.within_bumpSat ..))) (by decide)

theorem within_perstDeassert : s.Within hostResetParts s.perstDeassert := .mono (within_upPcie ..) (by decide)

end State

/-- The queue is put back after a command's effect. -/
theorem State.Within.always {F : List Part} {s t : State} (h : s.Within F t) : s.Within F { t with pending := s.pending } := by
  refine ⟨fun p hp => ?_, h.canon⟩
  have hq := h.same p hp
  cases p <;> simp_all [Part.Same]

/-- What a stopped device keeps over the host link's reset pin. -/
theorem State.Within.stopped {s t : State} (h : s.Within hostResetParts t) (hs : s.stopped = true) :
    t.stopped = true ∧ t.io.time = s.io.time ∧ t.buf = s.buf ∧ t.flow = s.flow ∧ t.fmc = s.fmc := by
  refine ⟨?_, h.same .time (by decide), h.same .buf (by decide), h.same .flow (by decide), h.same .fmc (by decide)⟩
  have hsys : t.io.sys = s.io.sys := h.same .sys (by decide)
  rw [State.stopped, hsys]
  exact hs

/-- Settles O5: of the commands that act on a stopped device, those left change nothing of what it keeps. -/
theorem stoppedStays : Obligations.StoppedStays := by
  intro s t hs hpor hchip ht
  have hph : s.io.sys.phase = .halted := by simpa [State.stopped] using hs
  cases hq : s.pending with
  | nil =>
    have htick : s.tickIdle = s := if_neg (by simp [hph])
    rw [step, hq] at ht
    obtain rfl : s.tickIdle = t := Host.Outcome.next.inj ht
    rw [htick, hq]
    have hs0 : s = { s with pending := [].tail } := by rw [List.tail_nil, ← hq]
    exact ⟨hs, by simp, by simp, rfl, rfl, rfl, rfl, fun _ _ => hs0⟩
  | cons c rest =>
    rw [step, hq] at ht
    have hs' : State.stopped { s with pending := rest } = true := hs
    simp only [hq, List.mem_cons, not_or] at hpor hchip
    have hkeep (hw : State.Within hostResetParts { s with pending := rest } t) (hc : c = .perstNAssert ∨ c = .perstNDeassert) :
        t.stopped = true ∧ .powerOnReset ∉ t.pending ∧ .chipRstNAssert ∉ t.pending ∧ t.io.time = s.io.time ∧ t.buf = s.buf ∧
        t.flow = s.flow ∧ t.fmc = s.fmc ∧ ((c :: rest).head? ≠ some .perstNAssert → (c :: rest).head? ≠ some .perstNDeassert →
          t = { s with pending := (c :: rest).tail }) := by
      obtain ⟨h1, h2, h3, h4, h5⟩ := hw.stopped hs'
      have hp : t.pending = rest := hw.same .pending (by decide)
      exact ⟨h1, hp ▸ hpor.2, hp ▸ hchip.2, h2, h3, h4, h5, fun ha hd => by simp_all⟩
    by_cases h1 : c = .perstNAssert
    · subst h1
      obtain rfl := Host.Outcome.next.inj ht
      exact hkeep (State.Within.always (State.within_perstAssert _)) (.inl rfl)
    by_cases h2 : c = .perstNDeassert
    · subst h2
      obtain rfl := Host.Outcome.next.inj ht
      exact hkeep (State.Within.always (State.within_perstDeassert _)) (.inr rfl)
    have hn : NoEffect c { s with pending := rest } := by
      by_cases h5 : ∃ b, c = .coldResetRelease b
      · obtain ⟨b, rfl⟩ := h5
        exact coldRelease_unless (by simp [hph]) b
      · exact exec_inert (.inr hph) h1 h2 (Ne.symm hpor.1) (Ne.symm hchip.1) (not_exists.mp h5)
    obtain rfl := Host.Outcome.next.inj (hn.symm.trans ht)
    exact ⟨hs, hpor.2, hchip.2, rfl, rfl, rfl, rfl, fun _ _ => rfl⟩

/-! ### Ticks -/

namespace Io

variable (s : Io)

theorem within_markDue (a b c : Nat) (step : Bool) : s.Within [.time] (s.markDue a b c step) := within_setTime ..

/-- What the slots of a region and its run may change: neither the time base nor a page's settings. -/
abbrev slotParts : List Part := [.clk, .taken, .regs, .sticky, .pcie, .out, .acc]

theorem within_slots (p n w : Nat) : s.Within slotParts (s.slots p n w) := by
  have hc (x : Io) (f g : Fld) (k : Nat) : x.Within (ctrParts ++ [.acc]) ((x.ctr (pgPmcL p) f k).accAdd (pgPmcL p) g k) :=
    .seq (within_ctr ..) (within_accAdd ..)
  unfold Io.slots
  have h0 := within_setTaken s (s.taken.set 0 p (s.taken.get 0 p - n))
  have h1 (k : Nat) := h0.seq (hc _ PMC_SLOT_CYCLES.COUNT PMC_WIN_CYCLES.SLOTS k)
  exact .mono (.cond h0 (.cond ((h1 _).seq (hc ..)) (.cond ((h1 _).seq (hc ..)) (((h1 _).seq (hc ..)).seq (within_accAdd ..))))) (by decide)

theorem within_regionRun (r n : Nat) (w : Nat → Nat) : s.Within slotParts (s.regionRun r n w) := by
  unfold Io.regionRun
  have h1 (x : Clk) (c : Nat) : s.Within slotParts
      (if s.div r = 8 then { s with clk := x } else Io.ctr { s with clk := x } pgClk CLK_SWALLOWn.COUNT c r) :=
    .mono (.cond (within_setClk ..) (.seq (within_setClk ..) (within_ctr ..))) (by decide)
  exact .mono (.cond (.seq (h1 ..) (within_slots ..)) (h1 ..)) (by decide)

/-- What `n` ticks do to the time base and what they make due, before the regions run (R40). -/
def advance (n : Nat) : Io :=
  let dn := (s.time.sub + s.tickInc * n) / subUnit
  ({ s with time := { s.time with
      ns := s.time.ns + dn
      sub := (s.time.sub + s.tickInc * n) % subUnit
      counted := s.time.counted + dn
      stepped := if n = 0 then s.time.stepped else none
      due := { s.time.due with refill := s.time.due.refill + ((s.time.ns + dn) / 64 - s.time.ns / 64) } } } : Io).markDue
    s.time.ns (s.time.ns + dn) (s.time.counted + dn) false

theorem ticks_eq (n : Nat) (w : Nat → Nat) :
    s.ticks n w = (List.range 11).foldl (fun s r => s.regionRun r n w) ((s.advance n).ctr pgPmc PMC_CYCLES.COUNT n) := rfl

/-- The regions' run leaves the time base as the ticks advanced it. -/
theorem ticks_time (n : Nat) (w : Nat → Nat) : (s.ticks n w).time = (s.advance n).time := by
  rw [ticks_eq]
  have hr := Io.Within.foldl (fun x r => x.within_regionRun r n w) (l := List.range 11)
    ((within_ctr (s.advance n) pgPmc PMC_CYCLES.COUNT n 0).mono (by decide))
  exact hr.same .time (by decide)

theorem advance_ns (n : Nat) : (s.advance n).time.ns = s.time.ns + (s.time.sub + s.tickInc * n) / subUnit := rfl
theorem advance_sub (n : Nat) : (s.advance n).time.sub = (s.time.sub + s.tickInc * n) % subUnit := rfl

end Io

theorem OnlyIo.upIo (s : State) (f : Io → Io) : OnlyIo s (s.upIo f) := rfl

/-- Settles O1: the tick of an idle step moves the time base by one increment, and the regions' run leaves it there. -/
theorem stepTakesTheFront : Obligations.StepTakesTheFront := by
  refine ⟨fun s c l h => ?_, fun s h hp => ?_, fun s h hp => ?_⟩
  · rw [step, h]
  · have hn : ¬ (s.io.sys.phase = .running ∨ s.io.sys.phase = .stopping) := by rcases hp with hp | hp <;> simp [hp]
    simp only [step, h, State.tickIdle, if_neg hn]
  · have hs : step s = .next (s.tickN 1) := by
      rw [step, h]
      exact congrArg Host.Outcome.next (if_pos hp)
    have ht : (s.tickN 1).io.time = (s.io.advance 1).time := s.io.ticks_time 1 s.waiting
    refine ⟨s.tickN 1, hs, ?_, ?_, ?_⟩
    · rw [ht, Io.advance_ns, Nat.mul_one]
    · rw [ht, Io.advance_sub, Nat.mul_one]
    · exact OnlyIo.upIo s _

/-- A two-word register of two words. -/
theorem Io.rd64_append (s : Io) (a : Nat) : s.rd64 a = (s.rd (a + 4) ++ s.rd a).toNat := by
  rw [BitVec.toNat_append, ← Nat.shiftLeft_add_eq_or_of_lt (s.rd a).isLt, Nat.shiftLeft_eq, Io.rd64]
  omega

/-- Settles O3: the reset state holds no register word, no table entry and no queue, so each read gives its default. -/
theorem resetState : Obligations.ResetState := by
  have hrd (a : Nat) : State.reset.io.rd a = resetWord a := SMap.get_nil _ _
  have hstep : State.reset.io.step = 1 := by decide
  refine ⟨rfl, rfl, hstep, ?_, hrd, fun a => ?_, rfl, rfl, rfl, fun _ _ => SMap.get_nil _ _, rfl⟩
  · rw [Io.sysReady, hstep]
    rfl
  · rw [Io.rd64_append, hrd, hrd]

end Sys2Proof.Machine
end

section
/-!
SUPPORT. Where pages lie (R66): the page of an address in each of the single pages and regions, and that a page found at an address is
found at every offset of it.
-/
namespace Sys2Proof.Machine

variable {o : Nat}

/-! ### Single pages -/

theorem pageOf_clk (ho : o < 0x1000) : pageOf (pgClk + o) = some ⟨.clk, 0, pgClk⟩ := by
  unfold pageOf
  have hb := pageBases
  repeat rw [if_neg (by omega)]
  rw [if_pos (by omega)]

theorem pageOf_epc (ho : o < 0x1000) : pageOf (pgEpc + o) = some ⟨.epc, 0, pgEpc⟩ := by
  unfold pageOf
  have hb := pageBases
  repeat rw [if_neg (by omega)]
  rw [if_pos (by omega)]

theorem pageOf_hif {i : Nat} (hi : i < 4) (ho : o < 0x1000) :
    pageOf (pgHif + i * 0x1000 + o) = some ⟨if i = 0 then .hif else .rsv, i, pgHif + i * 0x1000⟩ := by
  unfold pageOf
  have hb := pageBases
  repeat rw [if_neg (by omega)]
  rw [if_pos (by omega)]
  have e : (pgHif + i * 0x1000 + o - pgHif) / 0x1000 = i := by omega
  simp only [e, if_pos hi]

theorem pageOf_mbx (ho : o < 0x1000) : pageOf (pgMbx + o) = some ⟨.mbxc, 0, pgMbx⟩ := by
  unfold pageOf
  have hb := pageBases
  repeat rw [if_neg (by omega)]
  rw [if_pos (by omega)]
  exact if_pos (by omega)

theorem pageOf_cph (ho : o < 0x1000) : pageOf (pgCph + o) = some ⟨.cphc, 0, pgCph⟩ := by
  unfold pageOf
  have hb := pageBases
  repeat rw [if_neg (by omega)]
  rw [if_pos (by omega), if_pos (by omega)]

theorem pageOf_qnc (ho : o < 0x1000) : pageOf (pgQnc + o) = some ⟨.qnc, 0, pgQnc⟩ := by
  unfold pageOf
  have hb := pageBases
  repeat rw [if_neg (by omega)]
  rw [if_pos (by omega)]

theorem pageOf_pmc (ho : o < 0x1000) : pageOf (pgPmc + o) = some ⟨.pmcg, 0, pgPmc⟩ := by
  unfold pageOf
  have hb := pageBases
  repeat rw [if_neg (by omega)]
  rw [if_pos (by omega)]

theorem pageOf_ras (ho : o < 0x1000) : pageOf (pgRas + o) = some ⟨.ras, 0, pgRas⟩ := by
  unfold pageOf
  have hb := pageBases
  repeat rw [if_neg (by omega)]
  rw [if_pos (by omega)]

theorem pageOf_csc (ho : o < 0x1000) : pageOf (pgCsc + o) = some ⟨.csc, 0, pgCsc⟩ := by
  unfold pageOf
  have hb := pageBases
  repeat rw [if_neg (by omega)]
  rw [if_pos (by omega)]

/-! ### Regions of one global page and one page per port -/

/-- Page `i` of a region at `region`, its kind and index. -/
def portPageAt (g n : Kind) (region i : Nat) : Page := if i = 0 then ⟨g, 0, region⟩ else ⟨n, i - 1, region + i * 0x1000⟩

theorem portPageAt_base (g n : Kind) (region i : Nat) : (portPageAt g n region i).base = region + i * 0x1000 := by
  unfold portPageAt
  split
  · rename_i h
    simp only [h, Nat.zero_mul, Nat.add_zero]
  · rfl

theorem portPage_at (g n : Kind) (region : Nat) {i : Nat} (hi : i ≤ 128) (ho : o < 0x1000) :
    portPage g n region (region + i * 0x1000 + o) = some (portPageAt g n region i) := by
  have e : (region + i * 0x1000 + o - region) / 0x1000 = i := by omega
  unfold portPage portPageAt
  simp only [e]
  split <;> rfl

theorem pgTmb_lt : pgTmb = 0x800000 ∧ pgSch = 0xA00000 ∧ pgShp = 0xC00000 ∧ pgTgt = 0xE00000 ∧ pgPip 8 = 0x1800000 := by decide

theorem pageOf_tmbRegion {i : Nat} (hi : i ≤ 128) (ho : o < 0x1000) :
    pageOf (pgTmb + i * 0x1000 + o) = some (portPageAt .tmb0 .tmbp pgTmb i) := by
  rw [← portPage_at .tmb0 .tmbp pgTmb hi ho]
  unfold pageOf
  have hb := pageBases
  have hp := pgTmb_lt
  repeat rw [if_neg (by omega)]
  rw [if_pos (by omega)]

theorem pageOf_schRegion {i : Nat} (hi : i ≤ 128) (ho : o < 0x1000) :
    pageOf (pgSch + i * 0x1000 + o) = some (portPageAt .sch0 .schp pgSch i) := by
  rw [← portPage_at .sch0 .schp pgSch hi ho]
  unfold pageOf
  have hb := pageBases
  have hp := pgTmb_lt
  repeat rw [if_neg (by omega)]
  rw [if_pos (by omega)]

theorem pageOf_shpRegion {i : Nat} (hi : i ≤ 128) (ho : o < 0x1000) :
    pageOf (pgShp + i * 0x1000 + o) = some (portPageAt .shp0 .shpp pgShp i) := by
  rw [← portPage_at .shp0 .shpp pgShp hi ho]
  unfold pageOf
  have hb := pageBases
  have hp := pgTmb_lt
  repeat rw [if_neg (by omega)]
  rw [if_pos (by omega)]

theorem pageOf_tgtRegion {i : Nat} (hi : i ≤ 128) (ho : o < 0x1000) :
    pageOf (pgTgt + i * 0x1000 + o) = some (portPageAt .tgt0 .tgtp pgTgt i) := by
  rw [← portPage_at .tgt0 .tgtp pgTgt hi ho]
  unfold pageOf
  have hb := pageBases
  have hp := pgTmb_lt
  repeat rw [if_neg (by omega)]
  rw [if_pos (by omega)]

/-! ### Pipelines -/

/-- An address of pipeline `p` at offset `o` of its region. -/
theorem pageOf_pipe {p : Nat} (hp : p < 8) (ho : o < 0x100000) : pageOf (pipeBase p + o) = pipePage p o := by
  unfold pageOf
  have hb := pageBases
  have hq := pgTmb_lt
  have h0 : pipeBase p = 0x1000000 + p * 0x100000 := rfl
  repeat rw [if_neg (by omega)]
  rw [if_pos (by omega)]
  congr 1 <;> omega

theorem pipePage_eq {p a b : Nat} (h : a / 0x1000 = b / 0x1000) : pipePage p a = pipePage p b := by
  unfold pipePage
  rw [h]

theorem pipePage_some {p a : Nat} {pg : Page} (h : pipePage p a = some pg) : pg.base = pipeBase p + a / 0x1000 * 0x1000 ∧ pg.idx = p := by
  unfold pipePage at h
  dsimp only at h
  split at h <;> simp only [Option.ite_none_right_eq_some, Option.some.injEq, reduceCtorEq] at h
  case h_4 => obtain ⟨_, rfl⟩ := h; exact ⟨rfl, rfl⟩
  all_goals subst h; exact ⟨rfl, rfl⟩

theorem pageOf_pip8 (ho : o < 0x1000) : pageOf (pgPip 8 + o) = some ⟨.pip, 8, pgPip 8⟩ := by
  unfold pageOf
  have hb := pageBases
  have hp := pgTmb_lt
  repeat rw [if_neg (by omega)]
  rw [if_pos (by omega)]

/-! ### A page found is found again -/

/-- The kinds of page in a pipeline. -/
def Kind.inPipe : Kind → Bool
  | .prs | .cls | .l2t | .lpm | .flw | .act | .pip | .tel | .pmcl => true
  | _ => false

theorem pipePage_kind {p a : Nat} {pg : Page} (h : pipePage p a = some pg) : pg.kind.inPipe = true := by
  unfold pipePage at h
  dsimp only at h
  split at h <;> simp only [Option.ite_none_right_eq_some, Option.some.injEq, reduceCtorEq] at h
  case h_4 => obtain ⟨_, rfl⟩ := h; rfl
  all_goals subst h; rfl

/-- The page `pg` spans the block of 0x800 B that `a` lies in, and is found at every offset of its first. -/
structure Page.Holds (pg : Page) (a : Nat) : Prop where
  le : pg.base ≤ a
  lt : a < pg.base + 0x1000
  aligned : pg.base % 0x800 = 0
  again : ∀ o < 0x800, pageOf (pg.base + o) = some pg
  inPipe : pg.kind.inPipe = true → 0x1000000 ≤ pg.base ∧ pg.base % 0x1000 = 0

/-- A page `q` found at every offset of its base is the page of each address there. -/
theorem Page.Holds.of_at {pg q : Page} {a : Nat} (h : pageOf a = some pg) {w : Nat} (hw : w = 0x800 ∨ w = 0x1000)
    (ha : q.base ≤ a ∧ a < q.base + w) (hb : q.base % 0x800 = 0) (hq : ∀ o < w, pageOf (q.base + o) = some q)
    (hk : q.kind.inPipe = true → 0x1000000 ≤ q.base ∧ q.base % 0x1000 = 0 := by intro hk; exact absurd hk Bool.false_ne_true) : pg.Holds a := by
  have e : a = q.base + (a - q.base) := by omega
  rw [e, hq _ (by omega)] at h
  obtain rfl := Option.some.inj h
  exact ⟨ha.1, by omega, hb, fun o ho => hq o (by omega), hk⟩

/-- The same for page `i` of a region of port pages. -/
theorem Page.Holds.of_region {pg : Page} {a : Nat} (h : pageOf a = some pg) {g n : Kind} {region : Nat}
    (ha : region ≤ a ∧ a < region + 0x81000) (hr : region % 0x800 = 0)
    (hq : ∀ i ≤ 128, ∀ o < 0x1000, pageOf (region + i * 0x1000 + o) = some (portPageAt g n region i))
    (hg : g.inPipe = false := by rfl) (hn : n.inPipe = false := by rfl) : pg.Holds a := by
  have hk : (portPageAt g n region ((a - region) / 0x1000)).kind.inPipe = false := by
    unfold portPageAt
    split
    · exact hg
    · exact hn
  have hi : (a - region) / 0x1000 ≤ 128 := by omega
  have hbase := portPageAt_base g n region ((a - region) / 0x1000)
  exact .of_at h (q := portPageAt g n region ((a - region) / 0x1000)) (.inr rfl) (by omega) (by omega)
    (fun o ho => by rw [hbase]; exact hq _ hi o ho) fun h => absurd (hk.symm.trans h) (by decide)

/-- An address in none of the regions of R66 lies in no page. -/
theorem pageOf_none {a : Nat} (h : 0x1000 ≤ a ∧ ¬ (pgClk ≤ a ∧ a < pgClk + 0x1000) ∧ ¬ (pgEpc ≤ a ∧ a < pgEpc + 0x1000) ∧
    ¬ (pgFtr ≤ a ∧ a < pgFtr + 0x1000) ∧ ¬ (pgHif ≤ a ∧ a < pgHif + 0x40000) ∧ ¬ (pgMbx ≤ a ∧ a < pgMbx + 0x11000) ∧
    ¬ (pgCph ≤ a ∧ a < pgCph + 0x21000) ∧ ¬ (pgQnc ≤ a ∧ a < pgQnc + 0x1000) ∧ ¬ (pgPmc ≤ a ∧ a < pgPmc + 0x1000) ∧
    ¬ (pgRas ≤ a ∧ a < pgRas + 0x1000) ∧ ¬ (pgCsc ≤ a ∧ a < pgCsc + 0x1000) ∧ ¬ (0x200000 ≤ a ∧ a < 0x280000) ∧
    ¬ (0x400000 ≤ a ∧ a < 0x440000) ∧ ¬ (pgTmb ≤ a ∧ a < pgTmb + 0x81000) ∧ ¬ (pgSch ≤ a ∧ a < pgSch + 0x81000) ∧
    ¬ (pgShp ≤ a ∧ a < pgShp + 0x81000) ∧ ¬ (pgTgt ≤ a ∧ a < pgTgt + 0x81000) ∧ ¬ (0x1000000 ≤ a ∧ a < 0x1800000) ∧
    ¬ (pgPip 8 ≤ a ∧ a < pgPip 8 + 0x1000)) : pageOf a = none := by
  unfold pageOf
  obtain ⟨h1, h2, h3, h4, h5, h6, h7, h8, h9, h10, h11, h12, h13, h14, h15, h16, h17, h18, h19⟩ := h
  rw [if_neg (Nat.not_lt.mpr h1), if_neg h2, if_neg h3, if_neg h4, if_neg h5, if_neg h6, if_neg h7, if_neg h8, if_neg h9, if_neg h10,
    if_neg h11, if_neg h12, if_neg h13, if_neg h14, if_neg h15, if_neg h16, if_neg h17, if_neg h18, if_neg h19]

theorem Page.Holds.of_pipe {pg : Page} {a : Nat} (h : pageOf a = some pg) (ha : 0x1000000 ≤ a ∧ a < 0x1800000) : pg.Holds a := by
  have hp : (a - 0x1000000) / 0x100000 < 8 := by omega
  have e : a = pipeBase ((a - 0x1000000) / 0x100000) + a % 0x100000 := by unfold pipeBase; omega
  have h' := h
  rw [e, pageOf_pipe hp (by omega)] at h'
  have hbase := (pipePage_some h').1
  have h0 : pipeBase ((a - 0x1000000) / 0x100000) = 0x1000000 + (a - 0x1000000) / 0x100000 * 0x100000 := rfl
  refine .of_at h (q := pg) (.inr rfl) (by omega) (by omega) (fun o ho => ?_) fun _ => by omega
  rw [hbase, Nat.add_assoc, pageOf_pipe hp (by omega), ← h']
  exact pipePage_eq (by omega)

/-- The page of an address spans it and is found again at its base (R66). -/
theorem pageOf_some {a : Nat} {pg : Page} (h : pageOf a = some pg) : pg.Holds a := by
  have hb := pageBases
  have hq := pgTmb_lt
  have hs : pgSys = 0 := rfl
  by_cases c1 : a < 0x1000
  · exact .of_at h (q := ⟨.sys, 0, pgSys⟩) (.inr rfl) (show pgSys ≤ a ∧ a < pgSys + 0x1000 by omega) rfl fun o ho =>
      pageOf_sys (show pgSys + o < 0x1000 by omega)
  by_cases c2 : pgClk ≤ a ∧ a < pgClk + 0x1000
  · exact .of_at h (q := ⟨.clk, 0, pgClk⟩) (.inr rfl) c2 rfl fun o ho => pageOf_clk ho
  by_cases c3 : pgEpc ≤ a ∧ a < pgEpc + 0x1000
  · exact .of_at h (q := ⟨.epc, 0, pgEpc⟩) (.inr rfl) c3 rfl fun o ho => pageOf_epc ho
  by_cases c4 : pgFtr ≤ a ∧ a < pgFtr + 0x1000
  · exact .of_at h (q := ⟨.ftr, 0, pgFtr⟩) (.inr rfl) c4 rfl fun o ho => pageOf_ftr ho
  by_cases c5 : pgHif ≤ a ∧ a < pgHif + 0x40000
  · by_cases hi : (a - pgHif) / 0x1000 < 4
    · exact .of_at h (q := ⟨_, _, pgHif + (a - pgHif) / 0x1000 * 0x1000⟩) (.inr rfl) (by dsimp only; omega) (by dsimp only; omega)
        (fun o ho => pageOf_hif hi ho) fun hk => by dsimp only at hk; split at hk <;> exact absurd hk Bool.false_ne_true
    · exact .of_at h (q := ⟨_, _, pgRing ((a - pgHif) / 0x1000 - 4)⟩) (.inr rfl) (by unfold pgRing; dsimp only; omega)
        (by unfold pgRing; dsimp only; omega) fun o ho => pageOf_ring (by omega) ho
  by_cases c6 : pgMbx ≤ a ∧ a < pgMbx + 0x11000
  · by_cases hi : a < pgMbx + 0x1000
    · exact .of_at h (q := ⟨.mbxc, 0, pgMbx⟩) (.inr rfl) ⟨c6.1, hi⟩ rfl fun o ho => pageOf_mbx ho
    · exact .of_at h (q := ⟨_, _, pgMbxCh ((a - pgMbx) / 0x1000 - 1)⟩) (.inr rfl) (by unfold pgMbxCh; dsimp only; omega)
        (by unfold pgMbxCh; dsimp only; omega) fun o ho => pageOf_mbxCh (by omega) ho
  by_cases c7 : pgCph ≤ a ∧ a < pgCph + 0x21000
  · by_cases hi : a < pgCph + 0x1000
    · exact .of_at h (q := ⟨.cphc, 0, pgCph⟩) (.inr rfl) ⟨c7.1, hi⟩ rfl fun o ho => pageOf_cph ho
    · exact .of_at h (q := ⟨_, _, pgCphU ((a - (pgCph + 0x1000)) / 0x800)⟩) (.inl rfl) (by unfold pgCphU; dsimp only; omega)
        (by unfold pgCphU; dsimp only; omega) fun o ho => pageOf_cphU (by omega) ho
  by_cases c8 : pgQnc ≤ a ∧ a < pgQnc + 0x1000
  · exact .of_at h (q := ⟨.qnc, 0, pgQnc⟩) (.inr rfl) c8 rfl fun o ho => pageOf_qnc ho
  by_cases c9 : pgPmc ≤ a ∧ a < pgPmc + 0x1000
  · exact .of_at h (q := ⟨.pmcg, 0, pgPmc⟩) (.inr rfl) c9 rfl fun o ho => pageOf_pmc ho
  by_cases c10 : pgRas ≤ a ∧ a < pgRas + 0x1000
  · exact .of_at h (q := ⟨.ras, 0, pgRas⟩) (.inr rfl) c10 rfl fun o ho => pageOf_ras ho
  by_cases c11 : pgCsc ≤ a ∧ a < pgCsc + 0x1000
  · exact .of_at h (q := ⟨.csc, 0, pgCsc⟩) (.inr rfl) c11 rfl fun o ho => pageOf_csc ho
  by_cases c12 : 0x200000 ≤ a ∧ a < 0x280000
  · exact .of_at h (q := ⟨_, _, pgEth ((a - 0x200000) / 0x1000 / 4) ((a - 0x200000) / 0x1000 % 4)⟩) (.inr rfl)
      (by unfold pgEth; dsimp only; omega) (by unfold pgEth; dsimp only; omega) (fun o ho => pageOf_eth (by omega) (by omega) ho)
      fun hk => by unfold ethKind at hk; split_ifs at hk <;> exact absurd hk Bool.false_ne_true
  by_cases c13 : 0x400000 ≤ a ∧ a < 0x440000
  · exact .of_at h (q := ⟨_, _, pgFmc ((a - 0x400000) / 0x1000 / 16) ((a - 0x400000) / 0x1000 % 16)⟩) (.inr rfl)
      (by unfold pgFmc; dsimp only; omega) (by unfold pgFmc; dsimp only; omega) (fun o ho => pageOf_fmc (by omega) (by omega) ho)
      fun hk => by unfold fmcKind at hk; split_ifs at hk <;> exact absurd hk Bool.false_ne_true
  by_cases c14 : pgTmb ≤ a ∧ a < pgTmb + 0x81000
  · exact .of_region h c14 rfl fun i hi o ho => pageOf_tmbRegion hi ho
  by_cases c15 : pgSch ≤ a ∧ a < pgSch + 0x81000
  · exact .of_region h c15 rfl fun i hi o ho => pageOf_schRegion hi ho
  by_cases c16 : pgShp ≤ a ∧ a < pgShp + 0x81000
  · exact .of_region h c16 rfl fun i hi o ho => pageOf_shpRegion hi ho
  by_cases c17 : pgTgt ≤ a ∧ a < pgTgt + 0x81000
  · exact .of_region h c17 rfl fun i hi o ho => pageOf_tgtRegion hi ho
  by_cases c18 : 0x1000000 ≤ a ∧ a < 0x1800000
  · exact .of_pipe h c18
  by_cases c19 : pgPip 8 ≤ a ∧ a < pgPip 8 + 0x1000
  · exact .of_at h (q := ⟨.pip, 8, pgPip 8⟩) (.inr rfl) c19 rfl (fun o ho => pageOf_pip8 ho) fun _ => by dsimp only; omega
  have hn := pageOf_none ⟨Nat.le_of_not_lt c1, c2, c3, c4, c5, c6, c7, c8, c9, c10, c11, c12, c13, c14, c15, c16, c17, c18, c19⟩
  rw [hn] at h
  exact absurd h (by simp)

end Sys2Proof.Machine
end

section
/-!
SUPPORT. Register accesses (R7, R13, R68): a write of a register with the plain access types, accesses to no page, and accesses of a
wrong size.
-/
namespace Sys2Proof.Machine

/-! ### Registers with the plain access types -/

theorem findRow_mem {l : List RegRow} {o : Nat} {h : Hit} (hf : findRow l o = some h) : h.row ∈ l := by
  induction l with
  | nil => exact absurd hf (by simp [findRow])
  | cons r t ih =>
    unfold findRow at hf
    split at hf
    · obtain rfl := Option.some.inj hf
      exact List.mem_cons_self
    · exact List.mem_cons_of_mem _ (ih hf)

theorem regAt_mem {k : Kind} {o : Nat} {h : Hit} (hf : k.regAt o = some h) (ho : 0x040 ≤ o) : h.row ∈ k.rows := by
  unfold Kind.regAt at hf
  rw [if_neg (by omega)] at hf
  exact findRow_mem hf

theorem wordMask_zero (w : Nat) : wordMask 0 w = 0#32 := by simp [wordMask]

/-- A register without RWS and RWL fields takes RW bits and clears the W1C bits written as 1 (R7). -/
theorem Io.swWord_plain (s : Io) (pg : Page) {h : Hit} (a m : Nat) (v : W32) (may : Bool) (hs : h.row.rws = 0) (hl : h.row.rwl = 0) :
    s.swWord pg h a m v may
      = s.wr a (((s.rd a &&& ~~~ wordMask h.row.rw h.word) ||| (v &&& wordMask h.row.rw h.word)) &&& ~~~ (v &&& wordMask h.row.w1c h.word)) := by
  unfold Io.swWord
  simp [hs, hl, wordMask_zero, rwlWrite]

/-- A page of another kind lies outside the pipelines (R66). -/
theorem pipeOfAddr_kind {a : Nat} {pg : Page} (h : pageOf a = some pg) (hk : pg.kind.inPipe = false) : pipeOfAddr a = none := by
  refine if_neg fun ha => ?_
  have e : a = pipeBase ((a - 0x1000000) / 0x100000) + a % 0x100000 := by unfold pipeBase; omega
  rw [e, pageOf_pipe (by omega) (by omega)] at h
  exact absurd (pipePage_kind h) (by simp [hk])

/-- The kinds of page of `Obligations.RegisterAccess`, whose registers have the plain access types. -/
def Kind.plainTypes : Kind → Bool
  | .clk | .sch0 | .schp => true
  | _ => false

theorem plainTypes_rows {k : Kind} (hk : k.plainTypes = true) : ∀ r ∈ k.rows, r.rws = 0 ∧ r.rwl = 0 := by
  cases k <;> simp only [Kind.plainTypes, reduceCtorEq] at hk <;> decide

theorem State.wBody_plain (s : State) {pg : Page} (h : Hit) (o m v : Nat) (hk : pg.kind.plainTypes = true) :
    s.wBody pg h o m v = s.plain pg h o m v := by
  obtain ⟨k, i, b⟩ := pg
  cases k <;> simp only [Kind.plainTypes, reduceCtorEq] at hk <;> rfl

theorem State.fabricWrite_plain {s : State} {m a : Nat} {v : W32} {pg : Page} {h : Hit} (ht : s.takesWrite m a = true)
    (hp : pageOf a = some pg) (hk : pg.kind.plainTypes = true) (ho : 0x040 ≤ a - pg.base) (hh : pg.kind.regAt (a - pg.base) = some h) :
    s.fabricWrite m a v.toNat = s.upIo fun io => io.wr a (((io.rd a &&& ~~~ wordMask h.row.rw h.word) |||
      (v &&& wordMask h.row.rw h.word)) &&& ~~~ (v &&& wordMask h.row.w1c h.word)) := by
  obtain ⟨hs, hl⟩ := plainTypes_rows hk _ (regAt_mem hh ho)
  have hmbx : pg.kind ≠ .mbxch := by rintro e; rw [e] at hk; exact absurd hk (by decide)
  have hpipe : pg.kind.inPipe = false := by
    revert hk
    cases pg.kind <;> simp [Kind.plainTypes, Kind.inPipe]
  have ha : pg.base + (a - pg.base) = a := by have := (pageOf_some hp).le; omega
  rw [fabricWrite_body ht hp hmbx hh ho (pipeOfAddr_kind hp hpipe), wBody_plain _ _ _ _ _ hk, plain, ha, BitVec.ofNat_toNat, BitVec.setWidth_eq]
  exact State.upIo_congr (Io.swWord_plain _ _ _ _ _ _ hs hl)

/-! ### Accesses to no page (R68) -/

/-- A field depends on the register words and their copies alone. -/
theorem Io.get_congr {s t : Io} (h : t.regs = s.regs) (hb : t.bank = s.bank) (b : Nat) (f : Fld) (i : Nat) : t.get b f i = s.get b f i := by
  simp only [Io.get, Io.rd64, Io.active, Io.rd_congr h, Io.bk_congr hb]

/-- A counting field of at most 32 bits counts, in its width. -/
theorem Io.get_bump (s : Io) (b : Nat) (f : Fld) (n i : Nat) {k : Nat} (hk : f.len = k) (hr : f.rws = false) (hl : f.lo + f.len ≤ 32) :
    (s.bump b f n i).get b f i = (s.get b f i + n) % 2 ^ k := by
  rw [Io.bump, Io.get_put _ _ _ _ _ hr hl, hk]

theorem State.get_congr {s t : State} (h : t.io.regs = s.io.regs) (hb : t.io.bank = s.io.bank) (b : Nat) (f : Fld) (i : Nat) :
    t.get b f i = s.get b f i := Io.get_congr h hb b f i

theorem State.get_put (s : State) (b : Nat) (f : Fld) (v i : Nat) {k : Nat} (hk : f.len = k) (hr : f.rws = false) (hl : f.lo + f.len ≤ 32) :
    (s.put b f v i).get b f i = v % 2 ^ k := by
  rw [State.get_eq, State.put_io, Io.get_put _ _ _ _ _ hr hl, hk]

theorem State.get_bump (s : State) (b : Nat) (f : Fld) (n i : Nat) {k : Nat} (hk : f.len = k) (hr : f.rws = false)
    (hl : f.lo + f.len ≤ 32) : (s.bump b f n i).get b f i = (s.get b f i + n) % 2 ^ k := by
  rw [State.get_eq, State.bump_io, Io.get_bump _ _ _ _ _ hk hr hl, State.get_eq]

theorem OnlyRegs.bump (s : State) (b : Nat) (f : Fld) (n i : Nat) (hr : f.rws = false) : OnlyRegs s (s.bump b f n i) :=
  OnlyRegs.upIo (Io.put_frame s.io b f _ i hr)

theorem KeepsWords.bump {p : Nat → Prop} (s : State) (b : Nat) (f : Fld) (n i : Nat) (hr : f.rws = false)
    (hl : f.lo + f.len ≤ 32) (hp : p (b + f.off + f.stride * i)) : KeepsWords p s (s.bump b f n i) := by
  intro a ha
  rw [State.bump_io, Io.bump, Io.rd_put _ _ _ _ _ _ hr hl, if_neg]
  rintro rfl
  exact ha hp

/-- What a read with nothing behind it answers. -/
def readZero (m : Nat) (w : Bool) : List Out := if w then [] else [.read m 0]

/-- The access ends: a write says nothing, a read reads 0. -/
def State.answerZero (s : State) (m : Nat) (w : Bool) : State := { s with io := { s.io with out := readZero m w ++ s.io.out } }

theorem State.answerZero_eq (s : State) (m : Nat) (w : Bool) : (if w then s else s.emit (.read m 0)) = s.answerZero m w := by
  cases w <;> rfl

theorem State.get_answerZero (s : State) (m : Nat) (w : Bool) (b : Nat) (f : Fld) (i : Nat) : (s.answerZero m w).get b f i = s.get b f i :=
  State.get_congr rfl rfl ..

theorem State.rd_answerZero (s : State) (m : Nat) (w : Bool) (a : Nat) : (s.answerZero m w).io.rd a = s.io.rd a := Io.rd_congr rfl a

/-- Only register words changed, and then the access ended. -/
theorem OnlyRegs.answerZero {s t : State} (h : OnlyRegs s t) (m : Nat) (w : Bool) : t.answerZero m w
    = { s with io := { s.io with regs := (t.answerZero m w).io.regs, out := (if w then [] else [.read m 0]) ++ s.io.out } } := by
  unfold OnlyRegs at h
  rw [h]
  rfl

theorem KeepsWords.answerZero {p : Nat → Prop} {s t : State} (h : KeepsWords p s t) (m : Nat) (w : Bool) :
    KeepsWords p s (t.answerZero m w) := fun a ha => (t.rd_answerZero m w a).trans (h a ha)

theorem State.holeAccess_eq {s : State} {m a : Nat} (w : Bool) (hp : pageOf a = none) :
    s.holeAccess m a w = s.unmapped.answerZero m w := by
  unfold State.holeAccess
  rw [hp]
  exact s.unmapped.answerZero_eq m w

theorem unmappedAccess_counts {s : State} (hon : s.on = true) (m : Master) {a : BitVec 26} (w : Bool) (hp : pageOf a.toNat = none) :
    Completes (.unmappedAccess m a w) s (fun t =>
      t.get pgSys HIF_UNMAPPED_CNT.COUNT = (s.get pgSys HIF_UNMAPPED_CNT.COUNT + 1) % 2 ^ 32 ∧
      t = { s with io := { s.io with regs := t.io.regs, out := (if w then [] else [.read m.id 0]) ++ s.io.out } } ∧
      KeepsWords (· = pgSys + HIF_UNMAPPED_CNT.COUNT.off) s t) := by
  refine Completes.live_eq (f := fun s => s.holeAccess m.id a.toNat w) rfl hon (State.holeAccess_eq w hp) rfl
    ⟨?_, OnlyRegs.answerZero (OnlyRegs.bump s _ HIF_UNMAPPED_CNT.COUNT _ _ rfl) m.id w, .answerZero ?_ m.id w⟩
  · rw [State.get_answerZero]
    exact State.get_bump s _ _ 1 0 rfl rfl (by decide)
  · exact KeepsWords.bump s _ _ _ _ rfl (by decide) rfl

theorem unmappedAccess_page {s : State} (m : Master) {a : BitVec 26} {pg : Page} (w : Bool) (hp : pageOf a.toNat = some pg) :
    NoEffect (.unmappedAccess m a w) s :=
  NoEffect.live (f := fun s => s.holeAccess m.id a.toNat w) rfl (by simp only [State.holeAccess, hp])

/-! ### Accesses of a wrong size (R13) -/

/-- The error register after an error that is the first (R70). -/
theorem Io.rd_err_cap (s : Io) (b ty m o : Nat) (hv : s.get b PG_ERR_CAP.VALID = 0) :
    (s.err b ty m o).rd (b + 0x1C) = BitVec.ofNat 32 (2 ^ 31 + ty * 2 ^ 24 + m * 2 ^ 16 + o % 2 ^ 12) := by
  have hv' : (s.bumpSat b PG_ERR_CNT.COUNT).get b PG_ERR_CAP.VALID = 0 := by
    unfold Io.bumpSat
    rw [Io.get_put_ne _ _ _ _ _ _ _ _ rfl (by decide) rfl (by decide) (by simp [PG_ERR_CNT.COUNT, PG_ERR_CAP.VALID]), hv]
  unfold Io.err
  dsimp only
  rw [if_neg (by omega), Io.rd_wr_same]

/-- One that is not the first leaves it (R70). -/
theorem Io.rd_err_cap_valid (s : Io) (b ty m o : Nat) (hv : s.get b PG_ERR_CAP.VALID = 1) :
    (s.err b ty m o).rd (b + 0x1C) = s.rd (b + 0x1C) := by
  have hb (a : Nat) (ha : a ≠ b + 0x20) : (s.bumpSat b PG_ERR_CNT.COUNT).rd a = s.rd a := by
    unfold Io.bumpSat
    rw [Io.rd_put _ _ _ _ _ _ rfl (by decide), if_neg (by simpa [PG_ERR_CNT.COUNT] using ha)]
  have hv' : (s.bumpSat b PG_ERR_CNT.COUNT).get b PG_ERR_CAP.VALID = 1 := by
    rw [Io.get_narrow _ _ _ _ rfl (by decide), hb _ (by simp [PG_ERR_CAP.VALID]), ← Io.get_narrow _ _ _ _ rfl (by decide), hv]
  unfold Io.err
  dsimp only
  rw [if_pos hv', hb _ (by omega)]

/-- The fields captured with the first error. -/
theorem Io.get_err_cap (s : Io) (b ty m o : Nat) (hv : s.get b PG_ERR_CAP.VALID = 0) (ht : ty < 16) (hm : m < 256) :
    (s.err b ty m o).get b PG_ERR_CAP.VALID = 1 ∧ (s.err b ty m o).get b PG_ERR_CAP.TYPE = ty ∧
      (s.err b ty m o).get b PG_ERR_CAP.MASTER = m := by
  have hr (f : Fld) (hf : f.rws = false) (hl : f.lo + f.len ≤ 32) (ho : f.off = 0x1C) :
      (s.err b ty m o).get b f 0 = gb (BitVec.ofNat 32 (2 ^ 31 + ty * 2 ^ 24 + m * 2 ^ 16 + o % 2 ^ 12)) f.lo f.len := by
    rw [Io.get_narrow _ _ _ _ hf hl, ho, Nat.mul_zero, Nat.add_zero, Io.rd_err_cap _ _ _ _ _ hv]
  rw [hr PG_ERR_CAP.VALID rfl (by decide) rfl, hr PG_ERR_CAP.TYPE rfl (by decide) rfl, hr PG_ERR_CAP.MASTER rfl (by decide) rfl]
  simp only [PG_ERR_CAP.VALID, PG_ERR_CAP.TYPE, PG_ERR_CAP.MASTER, gb, bitsOf, BitVec.toNat_ofNat, Nat.shiftRight_eq_div_pow]
  refine ⟨?_, ?_, ?_⟩ <;> omega

theorem State.badAccess_eq {s : State} {m a size : Nat} {pg : Page} (w : Bool) (hp : pageOf a = some pg) (hs : s.stranger pg m = false)
    (hsz : ¬ ((size = 4 ∨ size = 8) ∧ a % 4 = 0)) (hn : pipeOfAddr a = none) :
    s.badAccess m a size w = (s.err pg.base 0 m (a - pg.base)).answerZero m w := by
  unfold State.badAccess State.badSize
  rw [if_neg hsz, hp]
  simp only [hs, Bool.false_eq_true, if_false, State.fabCount_none _ _ _ hn, State.fabErr_none _ _ _ _ hn]
  exact State.answerZero_eq _ m w

/-- Settles O6: the write by what the fabric makes of it and the masks of its register, the others by the one counter or error they leave. -/
theorem registerAccess : Obligations.RegisterAccess := by
  intro s m a hon
  refine ⟨fun v pg h ht hp hk ha ho hh => ?_, fun w hp => unmappedAccess_counts hon m w hp,
    fun pg hp w => unmappedAccess_page m w hp, fun pg size w hp hs hsz hn => ?_⟩
  · have hk' : pg.kind.plainTypes = true := by rcases hk with hk | hk | hk <;> rw [hk] <;> rfl
    have hv : (v.setWidth 64).toNat % 2 ^ 32 = v.toNat := by
      rw [BitVec.toNat_setWidth, Nat.mod_eq_of_lt (by omega : v.toNat < 2 ^ 64), Nat.mod_eq_of_lt v.isLt]
    have hw : s.regWrite m.id a.toNat (v.setWidth 64).toNat false = s.fabricWrite m.id a.toNat v.toNat := by
      unfold State.regWrite
      rw [if_neg (not_not.mpr ha), hv]
      rfl
    exact Completes.live_eq (f := fun s => s.regWrite m.id a.toNat (v.setWidth 64).toNat false) rfl hon
      (hw.trans (State.fabricWrite_plain ht hp hk' ho hh)) rfl
      ⟨Io.rd_wr_same .., OnlyRegs.wr s _ _, fun b hb => Io.rd_wr_ne _ _ hb⟩
  · obtain ⟨hc, hr, hk⟩ := s.err_counted pg.base 0 m.id (a.toNat - pg.base)
    refine Completes.live_eq (f := fun s => s.badAccess m.id a.toNat size w) rfl hon (State.badAccess_eq w hp hs hsz hn) rfl
      ⟨?_, fun hv => ?_, fun hv => ?_, hr.answerZero m.id w, hk.answerZero m.id w⟩
    · rw [State.get_answerZero, hc]
    · simp only [State.get_answerZero]
      exact Io.get_err_cap s.io pg.base 0 m.id _ hv (by decide) (master_id_lt m)
    · rw [State.rd_answerZero]
      exact Io.rd_err_cap_valid s.io _ _ _ _ hv

end Sys2Proof.Machine
end

section
/-!
SUPPORT. Registers over the whole state: what a field, a word and a cause read after the shared operations, and what a run of
operations on `io` is over the whole state.
-/
namespace Sys2Proof.Machine

namespace State

variable (s : State)

/-! ### An operation on `io` after others -/

theorem upIo_id : (s.upIo fun io => io) = s := rfl

theorem upIo_comp (g f : Io → Io) : (s.upIo fun io => f (g io)) = (s.upIo g).upIo f := rfl

theorem upIo_put (g : Io → Io) (b : Nat) (f : Fld) (v i : Nat) : (s.upIo fun io => (g io).put b f v i) = (s.upIo g).put b f v i := by
  unfold State.put
  exact s.upIo_comp g fun io => io.put b f v i

theorem upIo_bump (g : Io → Io) (b : Nat) (f : Fld) (n i : Nat) : (s.upIo fun io => (g io).bump b f n i) = (s.upIo g).bump b f n i := by
  unfold State.bump
  exact s.upIo_comp g fun io => io.bump b f n i

theorem upIo_raise (g : Io → Io) (b n : Nat) : (s.upIo fun io => (g io).raise b n) = (s.upIo g).raise b n := by
  unfold State.raise
  exact s.upIo_comp g fun io => io.raise b n

theorem upIo_err (g : Io → Io) (b ty m o : Nat) : (s.upIo fun io => (g io).err b ty m o) = (s.upIo g).err b ty m o := by
  unfold State.err
  exact s.upIo_comp g fun io => io.err b ty m o

theorem upIo_ctr (g : Io → Io) (b : Nat) (f : Fld) (n i : Nat) : (s.upIo fun io => (g io).ctr b f n i) = (s.upIo g).ctr b f n i := by
  unfold State.ctr
  exact s.upIo_comp g fun io => io.ctr b f n i

/-! ### Fields -/

/-- The field just written reads what was written, in its width. -/
theorem get_put_same (b : Nat) (f : Fld) (v i : Nat) (hr : f.rws = false) (hl : f.lo + f.len ≤ 32) :
    (s.put b f v i).get b f i = v % 2 ^ f.len := by
  rw [State.get_eq, State.put_io, Io.get_put _ _ _ _ _ hr hl]

/-- A field of another word. -/
theorem get_put_ne (b c : Nat) (f g : Fld) (v i j : Nat) (hr : f.rws = false) (hl : f.lo + f.len ≤ 32) (gr : g.rws = false)
    (gl : g.lo + g.len ≤ 32) (h : c + g.off + g.stride * j ≠ b + f.off + f.stride * i) :
    (s.put b f v i).get c g j = s.get c g j := by
  rw [State.get_eq, State.put_io, Io.get_put_ne _ _ _ _ _ _ _ _ hr hl gr gl h, State.get_eq]

/-- A field beside it in the same word. -/
theorem get_put_field (b : Nat) (f g : Fld) (v i j : Nat) (hr : f.rws = false) (hl : f.lo + f.len ≤ 32) (gr : g.rws = false)
    (gl : g.lo + g.len ≤ 32) (ha : b + g.off + g.stride * j = b + f.off + f.stride * i)
    (h : g.lo + g.len ≤ f.lo ∨ f.lo + f.len ≤ g.lo) : (s.put b f v i).get b g j = s.get b g j := by
  rw [State.get_eq, State.put_io, Io.get_put_field _ _ _ _ _ _ _ hr hl gr gl ha h, State.get_eq]

theorem get_raise (b n c : Nat) (f : Fld) (i : Nat) (hr : f.rws = false) (hl : f.lo + f.len ≤ 32)
    (h : c + f.off + f.stride * i ≠ b + 0x10) : (s.raise b n).get c f i = s.get c f i := by
  rw [State.get_eq, State.raise_io, Io.get_raise _ _ _ _ _ _ hr hl h, State.get_eq]

theorem cause_raise (b : Nat) {n : Nat} (hn : n < 32) : (s.raise b n).io.cause b n = true := by
  rw [State.raise_io, Io.cause_raise _ _ hn]

/-- A field of at most 32 bits reads the same where its word does. -/
theorem get_of_rd {s t : State} (b : Nat) (f : Fld) (i : Nat) (hr : f.rws = false) (hl : f.lo + f.len ≤ 32)
    (h : t.io.rd (b + f.off + f.stride * i) = s.io.rd (b + f.off + f.stride * i)) : t.get b f i = s.get b f i := by
  rw [State.get_eq, State.get_eq, Io.get_narrow _ _ _ _ hr hl, Io.get_narrow _ _ _ _ hr hl, h]

end State

/-! ### Words, one operation more -/

namespace KeepsWords

variable {p : Nat → Prop} {s t : State}

theorem thenPut (h : KeepsWords p s t) (b : Nat) (f : Fld) (v i : Nat) (hp : p (b + f.off + f.stride * i)) (hr : f.rws = false := by rfl)
    (hl : f.lo + f.len ≤ 32 := by decide) : KeepsWords p s (t.put b f v i) := h.trans (.put t b f v i hr hl hp)

theorem thenRaise (h : KeepsWords p s t) (b n : Nat) (hp : p (b + 0x10)) : KeepsWords p s (t.raise b n) := h.trans (.raise t b n hp)

theorem get (h : KeepsWords p s t) (b : Nat) (f : Fld) (i : Nat) (hp : ¬ p (b + f.off + f.stride * i)) (hr : f.rws = false := by rfl)
    (hl : f.lo + f.len ≤ 32 := by decide) : t.get b f i = s.get b f i := State.get_of_rd b f i hr hl (h _ hp)

end KeepsWords

end Sys2Proof.Machine
end

section
/-!
SUPPORT. The reference, its loss and return (R33, R58).
-/
namespace Sys2Proof.Machine

theorem State.refLost_eq (s : State) : (s.upIo fun io => io.refLost) = ((((s.put pgClk CLK_STAT.HOLDOVER 1).put pgClk CLK_STAT.REF_LOST 1).put
    pgClk CLK_STAT.REF_PRESENT 0).put pgClk CLK_STAT.LOCK 0).raise pgClk 0 := by
  unfold Io.refLost
  simp only [upIo_raise, upIo_put, upIo_id]

theorem State.relock_eq (s : State) : (s.upIo fun io => io.relock) = s.put pgClk CLK_STAT.LOCK 1 := rfl

theorem State.lockLost_eq (s : State) : (s.upIo fun io => io.lockLost) = (s.put pgClk CLK_STAT.LOCK 0).raise pgClk 1 := by
  unfold Io.lockLost
  simp only [upIo_raise, upIo_put, upIo_id]

theorem referenceLoss_completes {s : State} (hon : s.on = true) : Completes .referenceLoss s (fun t =>
    t.get pgClk CLK_STAT.HOLDOVER = 1 ∧ t.get pgClk CLK_STAT.REF_LOST = 1 ∧ t.get pgClk CLK_STAT.REF_PRESENT = 0 ∧
    t.get pgClk CLK_STAT.LOCK = 0 ∧ t.io.cause pgClk 0 = true ∧ OnlyIrq s t ∧
    KeepsWords (fun a => a = pgClk + 0x10 ∨ a = pgClk + CLK_STAT.LOCK.off) s t) := by
  refine .live_eq (f := fun s => s.upIo fun io => io.refLost) rfl hon s.refLost_eq (by simp)
    ⟨?_, ?_, ?_, ?_, State.cause_raise _ _ (by decide), ?_, ?_⟩
  case refine_5 =>
    exact .trans (OnlyRegs.trans (.trans (.trans (.put s _ _ _ _ rfl) (.put _ _ _ _ _ rfl)) (.put _ _ _ _ _ rfl)) (.put _ _ _ _ _ rfl)).irq
      (.raise _ _ _)
  case refine_6 =>
    exact ((((KeepsWords.refl _ s).thenPut _ _ _ _ (.inr rfl)).thenPut _ _ _ _ (.inr rfl)).thenPut _ _ _ _ (.inr rfl)).thenPut _ _ _ _
      (.inr rfl) |>.thenRaise _ _ (.inl rfl)
  all_goals simp (disch := decide) only [State.get_raise, State.get_put_field, State.get_put_same]; rfl

theorem lockLost_completes {s : State} (hon : s.on = true) (hp : s.get pgClk CLK_STAT.REF_PRESENT = 1) (hl : s.get pgClk CLK_STAT.LOCK = 1) :
    Completes .lockLost s (fun t =>
      t.get pgClk CLK_STAT.LOCK = 0 ∧ t.get pgClk CLK_STAT.REF_PRESENT = 1 ∧ t.io.cause pgClk 1 = true ∧ OnlyIrq s t ∧
      KeepsWords (fun a => a = pgClk + 0x10 ∨ a = pgClk + CLK_STAT.LOCK.off) s t) := by
  refine .live_eq (f := State.lockLost) rfl hon ((if_pos ⟨hp, hl⟩).trans s.lockLost_eq) (by simp)
    ⟨?_, ?_, State.cause_raise _ _ (by decide), (OnlyRegs.put s _ _ _ _ rfl).irq.trans (.raise _ _ _),
      ((KeepsWords.refl _ s).thenPut _ _ _ _ (.inr rfl)).thenRaise _ _ (.inl rfl)⟩
  · simp (disch := decide) only [State.get_raise, State.get_put_same]
    rfl
  · simp (disch := decide) only [State.get_raise, State.get_put_field, hp]

/-- Settles O18: each event writes fields of CLK_STAT, and a field keeps its neighbours in the word. -/
theorem referenceAndHoldover : Obligations.ReferenceAndHoldover := by
  intro s hon
  have hw (v : Nat) {f : Fld} (hr : f.rws = false) (hl : f.lo + f.len ≤ 32) (ho : pgClk + f.off + f.stride * 0 = pgClk + CLK_STAT.LOCK.off) :
      OnlyRegs s (s.put pgClk f v) ∧ KeepsWords (fun a => a = pgClk + CLK_STAT.LOCK.off) s (s.put pgClk f v) :=
    ⟨.put s _ _ _ _ hr, .put s _ _ _ _ hr hl ho⟩
  refine ⟨referenceLoss_completes hon, ?_, fun hp => ?_, fun hp => ?_, fun hl => ?_, fun hl => ?_, lockLost_completes hon, fun h => ?_⟩
  · refine .live_eq (f := State.refReturn) (t := s.put pgClk CLK_STAT.REF_PRESENT 1) rfl hon rfl (by simp) ⟨?_, ?_, ?_, ?_, hw 1 rfl (by decide) rfl⟩ <;>
      simp (disch := decide) only [State.get_put_field, State.get_put_same] <;> rfl
  · refine .live_eq (f := State.loopRelock) rfl hon ((if_pos hp).trans s.relock_eq) (by simp) ⟨?_, ?_, ?_, hw 1 rfl (by decide) rfl⟩ <;>
      simp (disch := decide) only [State.get_put_field, State.get_put_same] <;> rfl
  · exact .live (f := State.loopRelock) rfl (if_neg (by omega))
  · refine .live_eq (f := State.holdoverEnd) rfl hon (if_pos hl) (by simp) ⟨?_, ?_, ?_, hw 0 rfl (by decide) rfl⟩
    · simp (disch := decide) only [State.get_put_same]
      rfl
    · simp (disch := decide) only [State.get_put_field, hl]
    · simp (disch := decide) only [State.get_put_field]
  · exact .live (f := State.holdoverEnd) rfl (if_neg (by omega))
  · exact .live (f := State.lockLost) rfl (if_neg (by omega))

end Sys2Proof.Machine
end

section
/-!
SUPPORT. The footprints that no other operation's footprint gives: where an operation takes another one as its argument, writes the
layer 2 table or the array, drops registers, or hands a state on inside an option.
-/
namespace Sys2Proof.Machine

theorem Io.within_edge (s : Io) (n : Nat) (f : Io → Io) {F : List Part} (hf : ∀ x, Io.Within F x (f x)) :
    s.Within (F ++ [.pcie, .out]) (s.edge n f) := by
  unfold Io.edge
  extract_lets t
  have ht : s.Within F t := hf s
  clear_value t
  split
  · exact ht.seq (within_msix ..)
  · exact ht.mono (List.subset_append_left _ _)

theorem Io.within_mbxRing (s : Io) (c : Nat) (f : Io → Io) {F : List Part} (hf : ∀ x, Io.Within F x (f x)) :
    s.Within (F ++ [.regs, .pcie, .out]) (s.mbxRing c f) := by
  unfold Io.mbxRing
  extract_lets t
  have ht : s.Within F t := hf s
  clear_value t
  split
  · exact ht.seq (within_raise ..)
  · exact ht.mono (List.subset_append_left _ _)

theorem Io.within_featCommit (s : Io) : s.Within [.regs, .featDone] s.featCommit := by
  rcases h : featCheck _ (s.featSet 0x060) (!s.featDone) with ⟨c, d⟩
  rw [Io.featCommit_eq rfl h]
  exact .mono (.cond (within_wr ..) (.each (fun _ _ => within_wr ..) (.after (within_setFeatDone ..) (within_wr ..)))) (by decide)

namespace State

variable (s : State)

theorem within_eachWaiter (id : Nat) (f : State → Nat → Miss → State) {F : List Part}
    (hf : ∀ (x : State) (p : Nat) (m : Miss), x.Within F (f x p m)) : s.Within F (s.eachWaiter id f) :=
  .foldl (fun _ p => .foldl (fun x m => hf x p m) ((Within.refl _).mono (List.nil_subset F))) ((Within.refl _).mono (List.nil_subset F))

theorem within_bgDelay (who : Nat) : s.Within (.fmc :: ctrParts) (s.bgDelay who) :=
  .mono (.cond (.refl _) (.after (within_ctr ..) (within_setFmc rfl))) (by decide)

theorem within_bgRun (who n : Nat) (f : State → State) {F : List Part} (hf : ∀ x, State.Within F x (f x)) :
    s.Within (F ++ .fmc :: ctrParts) (s.bgRun who n f) := .cond (hf s) (within_bgDelay ..)

/-- A write of the array keeps it in canonical form. -/
theorem within_setMem {s : State} {x : Fmc} {k : Nat} {v : Line} (h : x.mem = s.fmc.mem.set 0 k v) : s.Within [.fmc] { s with fmc := x } := by
  refine ⟨fun p hp => ?_, fun hs => ?_⟩
  · cases p
    case fmc => exact (hp (.head _)).elim
    all_goals rfl
  · unfold State.canonical at hs ⊢
    simp only [Bool.and_eq_true] at hs ⊢
    exact ⟨hs.1, h ▸ Memory.wf_set _ _ hs.2⟩

/-- A write of the layer 2 table keeps it in canonical form. -/
theorem within_setL2Table {s : State} {x : Fwd} {k : Nat} {v : BitVec 80} (h : x.l2 = s.fwd.l2.set 0 k v) : s.Within [.fwd] { s with fwd := x } := by
  refine ⟨fun p hp => ?_, fun hs => ?_⟩
  · cases p
    case fwd => exact (hp (.head _)).elim
    all_goals rfl
  · unfold State.canonical at hs ⊢
    simp only [Bool.and_eq_true] at hs ⊢
    exact ⟨⟨hs.1.1, h ▸ SMap.wf_set (d := fun _ => 0) hs.1.2⟩, hs.2⟩

theorem within_setArray (pc la : Nat) (v : Line) : s.Within [.fmc] (s.setArray pc la v) := within_setMem rfl
theorem within_moveCell (src dst : Nat) : s.Within [.fmc] (s.moveCell src dst) := within_setMem rfl
theorem within_setL2 (p i : Nat) (e : BitVec 80) : s.Within [.fwd] (s.setL2 p i e) := within_setL2Table rfl

variable {s}

theorem within_takeRx {k typ code n : Nat} {l : List Byte} {t : State} (he : s.takeRx k typ code = some (n, l, t)) :
    s.Within [.csc] t := by
  unfold State.takeRx at he
  split at he
  · exact absurd he (by simp)
  · split at he
    · obtain ⟨-, -, rfl⟩ : _ ∧ _ ∧ _ := by simpa using he
      exact within_setCsc ..
    · exact absurd he (by simp)

theorem within_takeResp {id : Nat} {v : Option Line} {t : State} (he : s.takeResp id = some (v, t)) : s.Within [.fmc] t := by
  unfold State.takeResp at he
  split at he
  · exact absurd he (by simp)
  · obtain ⟨-, rfl⟩ : _ ∧ _ := by simpa using he
    exact within_setFmc rfl

end State

end Sys2Proof.Machine
end

section
/-!
SUPPORT. What each operation of the model may change, one lemma per operation, in the order of the definitions: its footprint is that of
the operations it is made of.
-/
namespace Sys2Proof.Machine

theorem State.within_unmapped (s : State) :
    s.Within [.regs] s.unmapped := by
  unfold State.unmapped
  exact .mono (State.within_bump ..) (by decide)

theorem Io.within_setIrqStat (s : Io) (base : ℕ) (v : W32) :
    s.Within [.regs, .pcie, .out] (s.setIrqStat base v) := by
  unfold Io.setIrqStat
  exact .mono (Io.within_edge (hf := (fun _ => (Io.within_wr ..))) ..) (by decide)

theorem State.within_cphViolate (s : State) (u m off : ℕ) (write : Bool) :
    s.Within ctrParts (s.cphViolate u m off write) := by
  unfold State.cphViolate
  extract_lets +onlyGivenNames s0
  have hs0 : s.Within _ s0 := State.within_ctr ..
  clear_value s0
  exact .mono (.cond hs0 (.after (State.within_raise ..) (.after (.upIo (Io.within_wr ..)) hs0))) (by decide)

theorem Io.within_mbxViolate (s : Io) (c m off : ℕ) (write : Bool) :
    s.Within ctrParts (s.mbxViolate c m off write) := by
  unfold Io.mbxViolate
  extract_lets +onlyGivenNames s0
  have hs0 : s.Within _ s0 := Io.within_ctr ..
  clear_value s0
  exact .mono (.cond hs0 (.after (Io.within_raise ..) (.after (Io.within_wr ..) hs0))) (by decide)

theorem State.within_violate (s : State) (pg : Page) (m o : ℕ) (write : Bool) :
    s.Within ctrParts (s.violate pg m o write) := by
  unfold State.violate
  split
  · exact State.within_cphViolate ..
  · exact .mono (.upIo (Io.within_mbxViolate ..)) (by decide)
  · exact .mono (.refl _) (by decide)

theorem Io.within_filtered (s : Io) (p : ℕ) (e : Evt) :
    s.Within ctrParts (s.filtered p e) := by
  unfold Io.filtered
  exact .mono (.each (fun _ _ => (.cond (Io.within_ctr ..) (.refl _))) (.refl _)) (by decide)

theorem Io.within_event (s : Io) (p base : ℕ) (f : Fld) (e : Evt) :
    s.Within ctrParts (s.event p base f e) := by
  unfold Io.event
  exact .mono (.after (Io.within_filtered ..) (Io.within_ctr ..)) (by decide)

theorem State.within_fabCount (s : State) (m a : ℕ) (write : Bool) :
    s.Within ctrParts (s.fabCount m a write) := by
  unfold State.fabCount
  split
  · exact .mono (.refl _) (by decide)
  · exact .mono (.upIo (.cond (Io.within_event ..) (Io.within_event ..))) (by decide)

theorem State.within_pageErr (s : State) (pg : Page) (type m o : ℕ) :
    s.Within [.regs] (s.pageErr pg type m o) := by
  unfold State.pageErr
  exact State.within_err ..

theorem Io.within_softRst (s : Io) (base : ℕ) :
    s.Within [.regs] (s.softRst base) := by
  unfold Io.softRst
  exact .mono (Io.within_put ..) (by decide)

theorem State.within_pgCtl (s : State) (pg : Page) (v : ℕ) :
    s.Within [.regs] (s.pgCtl pg v) := by
  unfold State.pgCtl
  extract_lets +onlyGivenNames s0
  have hs0 : s.Within _ s0 := .cond (.refl _) (State.within_put ..)
  clear_value s0
  exact .mono (.cond (.after (.upIo (Io.within_softRst ..)) hs0) hs0) (by decide)

theorem Io.within_modRestart (s : Io) (n : ℕ) :
    s.Within [.modCnt] (s.modRestart n) := by
  unfold Io.modRestart
  exact Io.within_setModCnt ..

theorem Io.within_irqClear (s : Io) (pg : Page) (v : ℕ) :
    s.Within [.regs, .modCnt, .pcie, .out] (s.irqClear pg v) := by
  unfold Io.irqClear
  extract_lets +onlyGivenNames s0
  have hs0 : s.Within _ s0 := .cond (Io.within_modRestart ..) (.refl _)
  clear_value s0
  exact .mono (.after (Io.within_setIrqStat ..) hs0) (by decide)

theorem Io.within_cmdData (s : Io) (c : Cmd) (entry : ℕ) (r : Res) :
    s.Within [.out] (s.cmdData c entry r) := by
  unfold Io.cmdData
  extract_lets +onlyGivenNames s0
  have hs0 : s.Within _ s0 := .cond (.refl _) (.cond (Io.within_emit ..) (Io.within_emit ..))
  clear_value s0
  extract_lets +onlyGivenNames s1
  have hs1 : s.Within [.out] s1 := .mono (.cond hs0 (.after (Io.within_emit ..) hs0)) (by decide)
  clear_value s1
  exact .mono (.cond hs1 (.after (Io.within_emit ..) hs1)) (by decide)

theorem Io.within_cmdDone (s : Io) (c : Cmd) (rs : List (ℕ × Res)) :
    s.Within [.regs, .wcount, .modCnt, .pcie, .out] (s.cmdDone c rs) := by
  unfold Io.cmdDone
  extract_lets +onlyGivenNames n w entry s0
  have hs0 : s.Within _ s0 := .each (fun _ _ => (Io.within_cmdData ..)) (.refl _)
  clear_value s0
  extract_lets +onlyGivenNames s1
  have hs1 : s.Within _ s1 := .after (Io.within_emit ..) hs0
  clear_value s1
  extract_lets +onlyGivenNames s2
  have hs2 : s.Within _ s2 := .after (Io.within_setWcount ..) hs1
  clear_value s2
  extract_lets +onlyGivenNames s3
  have hs3 : s.Within _ s3 := .after (Io.within_put ..) hs2
  clear_value s3
  exact .mono (.after (Io.within_complete ..) hs3) (by decide)

theorem State.within_endCmd (s : State) (q : ℕ) (r : Res) :
    s.Within [.regs, .wcount, .modCnt, .pcie, .out, .jobs] (s.endCmd q r) := by
  unfold State.endCmd
  split
  · exact .mono (.refl _) (by decide)
  · exact .mono (.cond (State.within_unhold ..) (.cond (.after (.upIo (Io.within_cmdDone ..)) (State.within_unhold ..)) (State.within_setJobs ..))) (by decide)

theorem State.within_flushCmds (s : State) :
    s.Within [.regs, .wcount, .modCnt, .pcie, .out, .jobs] s.flushCmds := by
  unfold State.flushCmds
  refine .foldl (fun x0 b1 => ?_) (.mono (.refl _) (by decide))
  split
  · exact .mono (.refl _) (by decide)
  · split
    · exact .mono (.refl _) (by decide)
    · exact State.within_endCmd ..

theorem State.within_irqClear (s : State) (pg : Page) (v : ℕ) :
    s.Within [.regs, .wcount, .modCnt, .pcie, .out, .jobs] (s.irqClear pg v) := by
  unfold State.irqClear
  extract_lets +onlyGivenNames s0
  have hs0 : s.Within _ s0 := .upIo (Io.within_irqClear ..)
  clear_value s0
  exact .mono (.cond (.after (State.within_flushCmds ..) hs0) hs0) (by decide)

theorem Io.within_irqEnWrite (s : Io) (base v : ℕ) :
    s.Within [.regs, .pcie, .out] (s.irqEnWrite base v) := by
  unfold Io.irqEnWrite
  exact .mono (Io.within_edge (hf := (fun _ => (Io.within_wr ..))) ..) (by decide)

theorem Io.within_irqForce (s : Io) (pg : Page) (v : ℕ) :
    s.Within [.regs, .pcie, .out] (s.irqForce pg v) := by
  unfold Io.irqForce
  exact Io.within_raiseBits ..

theorem Io.within_shadowCtl (s : Io) (pg : Page) (v : ℕ) :
    s.Within [.regs] (s.shadowCtl pg v) := by
  unfold Io.shadowCtl
  split
  · exact .mono (.refl _) (by decide)
  · extract_lets +onlyGivenNames s2
    have hs2 : s.Within _ s2 := .cond (Io.within_put ..) (.refl _)
    clear_value s2
    extract_lets +onlyGivenNames s3
    have hs3 : s.Within _ s3 := .cond (.after (Io.within_put ..) hs2) hs2
    clear_value s3
    extract_lets +onlyGivenNames s4
    have hs4 : s.Within _ s4 := .after (Io.within_put ..) hs3
    clear_value s4
    exact .mono (.cond hs4 (.cond (.after (Io.within_put ..) hs4) (.cond (.after (Io.within_put ..) hs4) (.after (Io.within_put ..) hs4)))) (by decide)

theorem State.within_wHead (s : State) (pg : Page) (o v : ℕ) :
    s.Within [.regs, .wcount, .modCnt, .pcie, .out, .jobs] (s.wHead pg o v) := by
  unfold State.wHead
  exact .mono (.cond (State.within_pgCtl ..) (.cond (State.within_irqClear ..) (.cond (.upIo (Io.within_irqEnWrite ..)) (.cond (.upIo (Io.within_irqForce ..)) (.cond (.cond (State.within_put ..) (.refl _)) (.cond (State.within_put ..) (.cond (.upIo (Io.within_shadowCtl ..)) (.refl _)))))))) (by decide)

theorem Io.within_mbxWord (s : Io) (c m w v : ℕ) :
    s.Within [.regs] (s.mbxWord c m w v) := by
  unfold Io.mbxWord
  exact .mono (.cond (Io.within_err ..) (Io.within_put ..)) (by decide)

theorem Io.within_mbxDone (s : Io) (c code : ℕ) :
    s.Within [.regs, .pcie, .out] (s.mbxDone c code) := by
  unfold Io.mbxDone
  extract_lets +onlyGivenNames b
  exact .mono (.after (Io.within_raise ..) (.after (Io.within_put ..) (Io.within_put ..))) (by decide)

theorem Io.within_mbxZero (s : Io) (c start : ℕ) :
    s.Within [.regs] (s.mbxZero c start) := by
  unfold Io.mbxZero
  exact .mono (.each (fun _ _ => (.cond (Io.within_put ..) (.refl _))) (.refl _)) (by decide)

theorem Io.within_mbxPosted (s : Io) (c len : ℕ) :
    s.Within [.regs, .pcie, .out] (s.mbxPosted c len) := by
  unfold Io.mbxPosted
  extract_lets +onlyGivenNames b s0
  have hs0 : s.Within _ s0 := Io.within_mbxZero ..
  clear_value s0
  extract_lets +onlyGivenNames s1
  have hs1 : s.Within _ s1 := .after (Io.within_put ..) (.after (Io.within_put ..) hs0)
  clear_value s1
  extract_lets +onlyGivenNames s2
  have hs2 : s.Within _ s2 := .after (Io.within_put ..) (.after (Io.within_put ..) (.after (Io.within_put ..) hs1))
  clear_value s2
  extract_lets +onlyGivenNames s3
  have hs3 : s.Within [.regs, .pcie, .out] s3 := .mono (.after (Io.within_bump ..) (.after (Io.within_put ..) hs2)) (by decide)
  clear_value s3
  exact .mono (.after (Io.within_mbxRing (hf := (fun _ => (Io.within_put ..))) ..) hs3) (by decide)

theorem Io.within_mbxPost (s : Io) (c m v : ℕ) :
    s.Within [.regs, .pcie, .out] (s.mbxPost c m v) := by
  unfold Io.mbxPost
  extract_lets +onlyGivenNames len
  exact .mono (.cond (Io.within_err ..) (.cond (Io.within_mbxDone ..) (.cond (Io.within_mbxDone ..) (Io.within_mbxPosted ..)))) (by decide)

theorem Io.within_mbxTake (s : Io) (c m v : ℕ) :
    s.Within [.regs] (s.mbxTake c m v) := by
  unfold Io.mbxTake
  exact .mono (.cond (.refl _) (.cond (Io.within_put ..) (Io.within_err ..))) (by decide)

theorem Io.within_mbxAck (s : Io) (c m v : ℕ) :
    s.Within [.regs, .pcie, .out] (s.mbxAck c m v) := by
  unfold Io.mbxAck
  exact .mono (.cond (Io.within_err ..) (.cond (Io.within_err ..) (Io.within_mbxDone ..))) (by decide)

theorem Io.within_mbxDbClear (s : Io) (c v : ℕ) :
    s.Within [.regs] (s.mbxDbClear c v) := by
  unfold Io.mbxDbClear
  exact Io.within_wr ..

theorem Io.within_mbxDbSet (s : Io) (c v : ℕ) :
    s.Within [.regs, .pcie, .out] (s.mbxDbSet c v) := by
  unfold Io.mbxDbSet
  exact .mono (.cond (.refl _) (Io.within_mbxRing (hf := (fun _ => (Io.within_put ..))) ..)) (by decide)

theorem Io.within_mbxMask (s : Io) (c v : ℕ) :
    s.Within [.regs, .pcie, .out] (s.mbxMask c v) := by
  unfold Io.mbxMask
  exact .mono (Io.within_mbxRing (hf := (fun _ => (Io.within_put ..))) ..) (by decide)

theorem Io.within_mbxWrite (s : Io) (c m off v : ℕ) :
    s.Within [.regs, .pcie, .out] (s.mbxWrite c m off v) := by
  unfold Io.mbxWrite
  exact .mono (.cond (Io.within_mbxWord ..) (.cond (Io.within_mbxPost ..) (.cond (Io.within_mbxTake ..) (.cond (Io.within_mbxAck ..) (.cond (Io.within_mbxDbClear ..) (.cond (Io.within_mbxDbSet ..) (.cond (Io.within_mbxMask ..) (.refl _)))))))) (by decide)

theorem Io.within_sysIrqEn (s : Io) (w v : ℕ) :
    s.Within [.regs, .pcie, .out] (s.sysIrqEn w v) := by
  unfold Io.sysIrqEn
  extract_lets +onlyGivenNames a old s0
  have hs0 : s.Within _ s0 := Io.within_wr ..
  clear_value s0
  exact .mono (.each (fun _ _ => (.cond (Io.within_msix ..) (.refl _))) hs0) (by decide)

theorem Io.within_sysRearm (s : Io) (mask : ℕ) :
    s.Within [.pcie, .out] (s.sysRearm mask) := by
  unfold Io.sysRearm
  exact .mono (.each (fun _ _ => (.cond (Io.within_msix ..) (.refl _))) (.refl _)) (by decide)

theorem Io.within_semWrite (s : Io) (n m v : ℕ) :
    s.Within [.regs] (s.semWrite n m v) := by
  unfold Io.semWrite
  exact .mono (.cond (Io.within_put ..) (Io.within_err ..)) (by decide)

theorem Io.within_semForce (s : Io) (mask : ℕ) :
    s.Within [.regs] (s.semForce mask) := by
  unfold Io.semForce
  exact .mono (.each (fun _ _ => (Io.within_put ..)) (.refl _)) (by decide)

theorem Io.within_swWord (s : Io) (pg : Page) (h : Hit) (a m : ℕ) (v : W32) (may : Bool) :
    s.Within [.regs, .bank] (s.swWord pg h a m v may) := by
  unfold Io.swWord
  extract_lets +onlyGivenNames rw rws w1c rwl o old
  split
  · extract_lets +onlyGivenNames new s'
    have hs' : s.Within _ s' := Io.within_wr ..
    clear_value s'
    extract_lets +onlyGivenNames s'4
    have hs'4 : s.Within _ s'4 := .cond (.after (Io.within_wr ..) hs') hs'
    clear_value s'4
    extract_lets +onlyGivenNames s'5
    have hs'5 : s.Within [.regs, .bank] s'5 := .mono (.cond (.after (Io.within_err ..) hs'4) hs'4) (by decide)
    clear_value s'5
    split
    · exact .mono hs'5 (by decide)
    · split
      · extract_lets +onlyGivenNames put
        exact .mono (.after (Io.within_bkSet ..) (.after (Io.within_bkSet ..) hs'5)) (by decide)
      · split
        · exact .mono (.after (Io.within_err ..) (.after (Io.within_put ..) hs'5)) (by decide)
        · extract_lets +onlyGivenNames b
          exact .mono (.after (Io.within_bkSet ..) hs'5) (by decide)

theorem State.within_plain (s : State) (pg : Page) (h : Hit) (o m v : ℕ) :
    s.Within [.regs, .bank] (s.plain pg h o m v) := by
  unfold State.plain
  exact .mono (.upIo (Io.within_swWord ..)) (by decide)

theorem State.within_mgmtRequest (s : State) :
    s.Within [.sys] s.mgmtRequest := by
  unfold State.mgmtRequest
  exact State.within_upSys ..

theorem State.within_sysRstCtl (s : State) (m v : ℕ) :
    s.Within [.regs, .sys] (s.sysRstCtl m v) := by
  unfold State.sysRstCtl
  exact .mono (.cond (.refl _) (.cond (State.within_mgmtRequest ..) (State.within_err ..))) (by decide)

theorem State.within_inlineWrite (s : State) (v : ℕ) :
    s.Within [.regs] (s.inlineWrite v) := by
  unfold State.inlineWrite
  exact .mono (.cond (.refl _) (.after (.upIo (Io.within_bumpSat ..)) (State.within_put ..))) (by decide)

theorem State.within_avsWrite (s : State) (m v : ℕ) :
    s.Within [.regs] (s.avsWrite m v) := by
  unfold State.avsWrite
  extract_lets +onlyGivenNames old new
  exact .mono (.cond (State.within_err ..) (State.within_put ..)) (by decide)

theorem State.within_wSys (s : State) (pg : Page) (h : Hit) (o m v : ℕ) :
    s.Within [.regs, .bank, .pcie, .sys, .out] (s.wSys pg h o m v) := by
  unfold State.wSys
  exact .mono (.cond (.upIo (Io.within_sysIrqEn ..)) (.cond (.upIo (Io.within_sysRearm ..)) (.cond (.upIo (Io.within_sysRearm ..)) (.cond (.upIo (Io.within_semWrite ..)) (.cond (.cond (.upIo (Io.within_semForce ..)) (.cond (.refl _) (State.within_pageErr ..))) (.cond (State.within_plain ..) (.cond (State.within_pageErr ..) (.cond (State.within_sysRstCtl ..) (.cond (State.within_inlineWrite ..) (.cond (State.within_avsWrite ..) (State.within_plain ..))))))))))) (by decide)

theorem State.within_epochCfg (s : State) (pg : Page) (h : Hit) (m v : ℕ) :
    s.Within [.regs, .bank] (s.epochCfg pg h m v) := by
  unfold State.epochCfg
  exact .mono (.cond (State.within_pageErr ..) (.cond (State.within_pageErr ..) (State.within_plain ..))) (by decide)

theorem Io.within_rateAdj (s : Io) (m v : ℕ) (follower : Bool) :
    s.Within [.regs] (s.rateAdj m v follower) := by
  unfold Io.rateAdj
  split
  · exact Io.within_err ..
  · extract_lets +onlyGivenNames x c
    exact .mono (Io.within_put ..) (by decide)

theorem State.within_putTime (s : State) (b : ℕ) (fn fl fh : Fld) (t : ℕ) :
    s.Within [.regs, .bank] (s.putTime b fn fl fh t) := by
  unfold State.putTime
  exact .mono (.after (State.within_putAny ..) (.after (State.within_putAny ..) (State.within_putAny ..))) (by decide)

theorem State.within_enforce (s : State) (n : ℕ) (l : GateList) :
    s.Within [.regs, .bank, .buf] (s.enforce n l) := by
  unfold State.enforce
  extract_lets +onlyGivenNames b s0
  extract_lets +onlyGivenNames s1
  have hs1 : s.Within _ s1 := State.within_setBuf ..
  clear_value s1
  extract_lets +onlyGivenNames s2
  have hs2 : s.Within _ s2 := .after (State.within_put ..) (.after (State.within_put ..) hs1)
  clear_value s2
  extract_lets +onlyGivenNames s3
  have hs3 : s.Within _ s3 := .after (State.within_put ..) hs2
  clear_value s3
  extract_lets +onlyGivenNames s4
  have hs4 : s.Within _ s4 := .after (State.within_putTime ..) hs3
  clear_value s4
  extract_lets +onlyGivenNames s5
  have hs5 : s.Within [.regs, .bank, .buf] s5 := .mono (.each (fun _ _ => (State.within_put ..)) hs4) (by decide)
  clear_value s5
  exact .mono (.after (State.within_put ..) hs5) (by decide)

theorem State.within_listBegin (s : State) (n : ℕ) :
    s.Within [.regs, .bank, .pcie, .out, .buf] (s.listBegin n) := by
  unfold State.listBegin
  split
  · exact .mono (.refl _) (by decide)
  · split
    · extract_lets +onlyGivenNames s6
      extract_lets +onlyGivenNames s7
      have hs7 : s.Within _ s7 := State.within_setBuf ..
      clear_value s7
      exact .mono (.after (State.within_raise ..) (.after (State.within_enforce ..) (.after (State.within_put ..) hs7))) (by decide)
    · exact .mono (.refl _) (by decide)

theorem State.within_listsDue (s : State) :
    s.Within [.regs, .bank, .pcie, .out, .buf] s.listsDue := by
  unfold State.listsDue
  exact .mono (.each (fun _ _ => (State.within_listBegin ..)) (.refl _)) (by decide)

theorem State.within_gatesStepped (s : State) :
    s.Within [.regs, .bank, .pcie, .out, .buf] s.gatesStepped := by
  unfold State.gatesStepped
  extract_lets +onlyGivenNames ns
  exact .mono (.after (State.within_listsDue ..) (.each (fun _ _ => (State.within_put ..)) (.refl _))) (by decide)

theorem State.within_upQnc (s : State) (f : Qnc → Qnc) :
    s.Within [.qnc] (s.upQnc f) := by
  unfold State.upQnc
  exact State.within_setQnc ..

theorem State.within_qncStep (s : State) (old : ℕ) (setting : Bool) :
    s.Within [.qnc] (s.qncStep old setting) := by
  unfold State.qncStep
  extract_lets +onlyGivenNames now s0
  have hs0 : s.Within _ s0 := .cond (State.within_upQnc ..) (.refl _)
  clear_value s0
  exact .mono (.cond (.after (State.within_upQnc ..) hs0) (.after (State.within_upQnc ..) hs0)) (by decide)

theorem State.within_stepped (s old : State) :
    s.Within [.regs, .bank, .pcie, .out, .buf, .qnc] (s.stepped old) := by
  unfold State.stepped
  exact .mono (.cond (.refl _) (.after (State.within_gatesStepped ..) (State.within_qncStep ..))) (by decide)

theorem State.within_setBucket (s : State) (k : ℕ) (b : Bucket) :
    s.Within [.buf] (s.setBucket k b) := by
  unfold State.setBucket
  exact State.within_setBuf ..

theorem State.within_refillBucket (s : State) (k : ℕ) :
    s.Within [.buf] (s.refillBucket k) := by
  unfold State.refillBucket
  exact State.within_setBucket ..

theorem State.within_setPolicer (s : State) (k : ℕ) (p : Policer) :
    s.Within [.buf] (s.setPolicer k p) := by
  unfold State.setPolicer
  exact State.within_setBuf ..

theorem State.within_refillAll (s : State) :
    s.Within [.buf] s.refillAll := by
  unfold State.refillAll
  extract_lets +onlyGivenNames s0
  have hs0 : s.Within _ s0 := .each (fun _ _ => (State.within_refillBucket ..)) (.refl _)
  clear_value s0
  extract_lets +onlyGivenNames b
  exact .mono (.each (fun _ _ => (State.within_setPolicer ..)) hs0) (by decide)

theorem State.within_refillDue (s : State) :
    s.Within [.time, .buf] s.refillDue := by
  unfold State.refillDue
  extract_lets +onlyGivenNames n s0
  have hs0 : s.Within _ s0 := .upIo (Io.within_setTime ..)
  clear_value s0
  exact .mono (.each (fun _ _ => (State.within_refillAll ..)) hs0) (by decide)

theorem Io.within_stepTo (s : Io) (b sub : ℕ) :
    s.Within [.regs, .time] (s.stepTo b sub) := by
  unfold Io.stepTo
  extract_lets +onlyGivenNames a back s0
  extract_lets +onlyGivenNames s1
  have hs1 : s.Within _ s1 := Io.within_setTime ..
  clear_value s1
  extract_lets +onlyGivenNames s2
  have hs2 : s.Within _ s2 := .after (Io.within_markDue ..) hs1
  clear_value s2
  exact .mono (.cond (.after (Io.within_put ..) hs2) hs2) (by decide)

theorem Io.within_stepBy (s : Io) (b sub : ℕ) :
    s.Within [.regs, .time] (s.stepBy b sub) := by
  unfold Io.stepBy
  extract_lets +onlyGivenNames a s0
  have hs0 : s.Within _ s0 := Io.within_stepTo ..
  clear_value s0
  exact .mono (.after (Io.within_setTime ..) hs0) (by decide)

theorem Io.within_stepAbsolute (s : Io) (m : ℕ) :
    s.Within [.regs, .time] (s.stepAbsolute m) := by
  unfold Io.stepAbsolute
  extract_lets +onlyGivenNames ns
  split
  · exact .mono (Io.within_err ..) (by decide)
  · extract_lets +onlyGivenNames s2
    have hs2 : s.Within _ s2 := Io.within_stepBy ..
    clear_value s2
    exact .mono (.after (Io.within_setTime ..) hs2) (by decide)

theorem Io.within_stepRelative (s : Io) (m : ℕ) :
    s.Within [.regs, .time] (s.stepRelative m) := by
  unfold Io.stepRelative
  extract_lets +onlyGivenNames off r
  exact .mono (.cond (Io.within_err ..) (Io.within_stepBy ..)) (by decide)

theorem Io.within_stepCtl (s : Io) (m v : ℕ) (follower : Bool) :
    s.Within [.regs, .time] (s.stepCtl m v follower) := by
  unfold Io.stepCtl
  exact .mono (.cond (Io.within_err ..) (.cond (.refl _) (.cond (Io.within_stepAbsolute ..) (Io.within_stepRelative ..)))) (by decide)

theorem State.within_stepCtl (s : State) (m v : ℕ) :
    s.Within [.regs, .bank, .time, .pcie, .out, .buf, .qnc] (s.stepCtl m v) := by
  unfold State.stepCtl
  exact .mono (.after (State.within_stepped ..) (.after (.upIo (Io.within_stepCtl ..)) (State.within_refillDue ..))) (by decide)

theorem Io.within_commitState (s : Io) (code : ℕ) :
    s.Within [.regs] (s.commitState code) := by
  unfold Io.commitState
  exact .mono (Io.within_put ..) (by decide)

theorem Io.within_commitAbort (s : Io) :
    s.Within [.regs, .time, .pcie, .out] s.commitAbort := by
  unfold Io.commitAbort
  exact .mono (.cond (.after (Io.within_raise ..) (.after (Io.within_commitState ..) (Io.within_setTime ..))) (.refl _)) (by decide)

theorem Io.within_commitGo (s : Io) :
    s.Within [.regs, .time, .pcie, .out] s.commitGo := by
  unfold Io.commitGo
  extract_lets +onlyGivenNames tgt num
  exact .mono (.cond (.after (Io.within_raise ..) (Io.within_commitState ..)) (.cond (Io.within_commitState ..) (.after (Io.within_commitState ..) (Io.within_setTime ..)))) (by decide)

theorem State.within_cascGo (s : State) (m : ℕ) :
    s.Within [.regs, .time, .pcie, .out] (s.cascGo m) := by
  unfold State.cascGo
  split
  · exact .mono (.upIo (Io.within_commitGo ..)) (by decide)
  · split
    · exact .mono (State.within_err ..) (by decide)
    · extract_lets +onlyGivenNames e
      exact .mono (.cond (.after (State.within_raise ..) (.upIo (Io.within_commitState ..))) (.upIo (Io.within_commitGo ..))) (by decide)

theorem State.within_commitCtl (s : State) (m v : ℕ) :
    s.Within [.regs, .time, .pcie, .out] (s.commitCtl m v) := by
  unfold State.commitCtl
  exact .mono (.cond (.upIo (Io.within_commitAbort ..)) (.cond (.refl _) (.cond (State.within_cascGo ..) (.upIo (Io.within_commitGo ..))))) (by decide)

theorem State.within_wEpc (s : State) (pg : Page) (h : Hit) (o m v : ℕ) :
    s.Within [.regs, .bank, .time, .pcie, .out, .buf, .qnc] (s.wEpc pg h o m v) := by
  unfold State.wEpc
  exact .mono (.cond (State.within_pageErr ..) (.cond (State.within_epochCfg ..) (.cond (.upIo (Io.within_rateAdj ..)) (.cond (State.within_stepCtl ..) (.cond (State.within_commitCtl ..) (State.within_plain ..)))))) (by decide)

theorem Io.within_ipfixEmit (s : Io) (body : List Byte) :
    s.Within (.wcount :: .modCnt :: ctrParts) (s.ipfixEmit body) := by
  unfold Io.ipfixEmit
  exact .mono (.after (Io.within_ctr ..) (Io.within_ringPut ..)) (by decide)

theorem State.within_templateSend (s : State) :
    s.Within (.wcount :: .modCnt :: ctrParts) s.templateSend := by
  unfold State.templateSend
  exact .mono (.cond (.refl _) (.upIo (Io.within_ipfixEmit ..))) (by decide)

theorem State.within_ipfixFlush (s : State) :
    s.Within (.wcount :: .modCnt :: .tel :: ctrParts) s.ipfixFlush := by
  unfold State.ipfixFlush
  split
  · exact .mono (.refl _) (by decide)
  · extract_lets +onlyGivenNames n s2
    have hs2 : s.Within _ s2 := .upIo (Io.within_ipfixEmit ..)
    clear_value s2
    extract_lets +onlyGivenNames x
    have hx : s.Within _ x := .after (State.within_bump ..) hs2
    clear_value x
    exact .mono (.after (State.within_setTel ..) hx) (by decide)

theorem State.within_setStartQ (s : State) (l : List (ℕ × ℕ × ℕ)) :
    s.Within [.regs, .tel] (s.setStartQ l) := by
  unfold State.setStartQ
  extract_lets +onlyGivenNames s0
  extract_lets +onlyGivenNames s1
  have hs1 : s.Within _ s1 := State.within_setTel ..
  clear_value s1
  exact .mono (.after (.upIo (Io.within_maxTo ..)) (.after (State.within_put ..) hs1)) (by decide)

theorem State.within_ipfixFeature (s : State) (was now : Bool) :
    s.Within (.wcount :: .modCnt :: .tel :: ctrParts) (s.ipfixFeature was now) := by
  unfold State.ipfixFeature
  exact .mono (.cond (.after (State.within_templateSend ..) (State.within_setTel ..)) (.cond (.after (State.within_ipfixFlush ..) (.after (State.within_setStartQ ..) (State.within_ctr ..))) (.refl _))) (by decide)

theorem State.within_upCsc (s : State) (f : Csc → Csc) :
    s.Within [.csc] (s.upCsc f) := by
  unfold State.upCsc
  exact State.within_setCsc ..

theorem State.within_cascActivate (s : State) :
    s.Within [.regs, .csc] s.cascActivate := by
  unfold State.cascActivate
  extract_lets +onlyGivenNames first s0
  have hs0 : s.Within _ s0 := .after (State.within_put ..) (State.within_put ..)
  clear_value s0
  extract_lets +onlyGivenNames s1
  have hs1 : s.Within _ s1 := .after (State.within_put ..) hs0
  clear_value s1
  exact .mono (.after (State.within_upCsc ..) hs1) (by decide)

theorem State.within_featCommit (s : State) :
    s.Within (.wcount :: .modCnt :: .featDone :: .tel :: .csc :: .qnc :: ctrParts) s.featCommit := by
  unfold State.featCommit
  extract_lets +onlyGivenNames old
  have hold : s.Within _ old := .refl _
  clear_value old
  extract_lets +onlyGivenNames s0
  have hs0 : s.Within _ s0 := .upIo (Io.within_featCommit ..)
  clear_value s0
  extract_lets +onlyGivenNames s1
  have hs1 : s.Within _ s1 := .after (State.within_ipfixFeature ..) hs0
  clear_value s1
  extract_lets +onlyGivenNames s2
  have hs2 : s.Within (.wcount :: .modCnt :: .featDone :: .tel :: .csc :: .qnc :: ctrParts) s2 := .mono (.cond (.after (State.within_upQnc ..) hs1) hs1) (by decide)
  clear_value s2
  exact .mono (.cond (.after (State.within_cascActivate ..) hs2) hs2) (by decide)

theorem State.within_wFtr (s : State) (pg : Page) (h : Hit) (o m v : ℕ) :
    s.Within (.bank :: .wcount :: .modCnt :: .featDone :: .tel :: .csc :: .qnc :: ctrParts) (s.wFtr pg h o m v) := by
  unfold State.wFtr
  exact .mono (.cond (State.within_pageErr ..) (.cond (.cond (State.within_featCommit ..) (.refl _)) (State.within_plain ..))) (by decide)

theorem Io.within_ringRestart (s : Io) (n : ℕ) :
    s.Within [.regs, .wcount] (s.ringRestart n) := by
  unfold Io.ringRestart
  extract_lets +onlyGivenNames s0
  have hs0 : s.Within _ s0 := Io.within_setWcount ..
  clear_value s0
  exact .mono (.cond (.after (Io.within_put ..) hs0) (.after (Io.within_put ..) hs0)) (by decide)

theorem Io.within_ringConfig (s : Io) (n m word v : ℕ) :
    s.Within [.regs, .wcount] (s.ringConfig n m word v) := by
  unfold Io.ringConfig
  extract_lets +onlyGivenNames a bad new
  exact .mono (.cond (Io.within_err ..) (.cond (.refl _) (.after (Io.within_ringRestart ..) (Io.within_wr ..)))) (by decide)

theorem Io.within_ringCtl (s : Io) (n v : ℕ) :
    s.Within [.regs, .pcie, .out] (s.ringCtl n v) := by
  unfold Io.ringCtl
  exact .mono (Io.within_edge (hf := (fun _ => (Io.within_wr ..))) ..) (by decide)

theorem State.within_cmdFail (s : State) (c : Cmd) (code : ℕ) :
    s.Within [.regs, .wcount, .modCnt, .pcie, .out] (s.cmdFail c code) := by
  unfold State.cmdFail
  exact .mono (.upIo (Io.within_cmdDone ..)) (by decide)

theorem State.within_abortCmd (s : State) (q : ℕ) :
    s.Within [.regs, .wcount, .modCnt, .pcie, .out, .jobs] (s.abortCmd q) := by
  unfold State.abortCmd
  split
  · exact .mono (.refl _) (by decide)
  · exact .mono (.cond (.refl _) (.cond (.after (State.within_cmdFail ..) (State.within_unhold ..)) (State.within_unhold ..))) (by decide)

theorem State.within_ringCtl (s : State) (n v : ℕ) :
    s.Within [.regs, .wcount, .modCnt, .pcie, .out, .jobs] (s.ringCtl n v) := by
  unfold State.ringCtl
  extract_lets +onlyGivenNames s0
  have hs0 : s.Within _ s0 := .upIo (Io.within_ringCtl ..)
  clear_value s0
  exact .mono (.cond (.after (State.within_abortCmd ..) hs0) hs0) (by decide)

theorem State.within_wRing (s : State) (pg : Page) (o m v : ℕ) :
    s.Within [.regs, .wcount, .modCnt, .pcie, .out, .jobs] (s.wRing pg o m v) := by
  unfold State.wRing
  exact .mono (.cond (.upIo (Io.within_ringConfig ..)) (.cond (.cond (.upIo (Io.within_wr ..)) (.refl _)) (.cond (State.within_ringCtl ..) (.cond (State.within_irqClear ..) (.refl _))))) (by decide)

theorem State.within_plainSecure (s : State) (pg : Page) (h : Hit) (o m v : ℕ) :
    s.Within [.regs, .bank] (s.plainSecure pg h o m v) := by
  unfold State.plainSecure
  exact .mono (.upIo (Io.within_swWord ..)) (by decide)

theorem Io.within_mbxGenUp (s : Io) (m : ℕ) :
    s.Within [.regs] (s.mbxGenUp m) := by
  unfold Io.mbxGenUp
  split
  · exact .mono (Io.within_bump ..) (by decide)
  · split
    · exact .mono (Io.within_bump ..) (by decide)
    · split
      · exact .mono (Io.within_bump ..) (by decide)
      · split
        · exact .mono (Io.within_bump ..) (by decide)
        · split
          · extract_lets +onlyGivenNames w
            exact .mono (Io.within_put ..) (by decide)
          · exact .mono (.refl _) (by decide)

theorem Io.within_mbxRcvReset (s : Io) (c : ℕ) :
    s.Within [.regs, .pcie, .out] (s.mbxRcvReset c) := by
  unfold Io.mbxRcvReset
  extract_lets +onlyGivenNames b s0
  have hs0 : s.Within _ s0 := .cond (.after (Io.within_mbxDone ..) (.after (Io.within_put ..) (Io.within_mbxZero ..))) (.cond (.after (Io.within_mbxDone ..) (Io.within_put ..)) (.refl _))
  clear_value s0
  exact .mono (.after (Io.within_put ..) (.after (Io.within_put ..) hs0)) (by decide)

theorem Io.within_mbxSndReset (s : Io) (c : ℕ) :
    s.Within [.regs, .pcie, .out] (s.mbxSndReset c) := by
  unfold Io.mbxSndReset
  exact .mono (.cond (.refl _) (.after (Io.within_raise ..) (Io.within_put ..))) (by decide)

theorem Io.within_mbxChReset (s : Io) (ms : List ℕ) (c : ℕ) :
    s.Within [.regs, .pcie, .out] (s.mbxChReset ms c) := by
  unfold Io.mbxChReset
  split
  · exact .mono (.refl _) (by decide)
  · extract_lets +onlyGivenNames s2
    have hs2 : s.Within _ s2 := .cond (Io.within_mbxRcvReset ..) (.refl _)
    clear_value s2
    exact .mono (.cond (.after (Io.within_mbxSndReset ..) hs2) hs2) (by decide)

theorem Io.within_mbxReset (s : Io) (ms : List ℕ) :
    s.Within [.regs, .pcie, .out] (s.mbxReset ms) := by
  unfold Io.mbxReset
  extract_lets +onlyGivenNames s0
  have hs0 : s.Within _ s0 := .each (fun _ _ => (Io.within_mbxGenUp ..)) (.refl _)
  clear_value s0
  exact .mono (.each (fun _ _ => (Io.within_mbxChReset ..)) hs0) (by decide)

theorem Io.within_mbxDeclare (s : Io) (m v : ℕ) :
    s.Within [.regs, .pcie, .out] (s.mbxDeclare m v) := by
  unfold Io.mbxDeclare
  exact .mono (.cond (.refl _) (.cond (Io.within_mbxReset ..) (Io.within_err ..))) (by decide)

theorem Io.within_mbxClear (s : Io) (c : ℕ) :
    s.Within [.regs, .pcie, .out] (s.mbxClear c) := by
  unfold Io.mbxClear
  extract_lets +onlyGivenNames b s0
  have hs0 : s.Within _ s0 := Io.within_mbxZero ..
  clear_value s0
  extract_lets +onlyGivenNames s1
  have hs1 : s.Within _ s1 := .after (Io.within_put ..) (.after (Io.within_put ..) (.after (Io.within_put ..) (.after (Io.within_put ..) hs0)))
  clear_value s1
  extract_lets +onlyGivenNames s2
  have hs2 : s.Within [.regs, .pcie, .out] s2 := .mono (.after (Io.within_put ..) (.after (Io.within_put ..) (.after (Io.within_put ..) hs1))) (by decide)
  clear_value s2
  exact .mono (.after (Io.within_setIrqStat ..) hs2) (by decide)

theorem Io.within_mbxBind (s : Io) (c m v : ℕ) :
    s.Within [.regs, .pcie, .out] (s.mbxBind c m v) := by
  unfold Io.mbxBind
  extract_lets +onlyGivenNames o old new
  split
  · exact .mono (Io.within_err ..) (by decide)
  · split
    · exact .mono (Io.within_err ..) (by decide)
    · split
      · exact .mono (Io.within_err ..) (by decide)
      · extract_lets +onlyGivenNames s6
        have hs6 : s.Within _ s6 := Io.within_wr ..
        clear_value s6
        exact .mono (.cond hs6 (.after (Io.within_mbxClear ..) hs6)) (by decide)

theorem State.within_wMbxc (s : State) (pg : Page) (h : Hit) (o m v : ℕ) :
    s.Within [.regs, .bank, .pcie, .out] (s.wMbxc pg h o m v) := by
  unfold State.wMbxc
  exact .mono (.cond (State.within_plainSecure ..) (.cond (.upIo (Io.within_mbxDeclare ..)) (.cond (.upIo (Io.within_mbxBind ..)) (State.within_plain ..)))) (by decide)

theorem State.within_setKeyState (s : State) (u v : ℕ) :
    s.Within [.regs] (s.setKeyState u v) := by
  unfold State.setKeyState
  exact .mono (State.within_put ..) (by decide)

theorem State.within_cphBind (s : State) (u m v : ℕ) :
    s.Within [.regs, .pcie, .out, .cph] (s.cphBind u m v) := by
  unfold State.cphBind
  extract_lets +onlyGivenNames a old ask lk s0
  have hs0 : s.Within _ s0 := .cond (State.within_err ..) (.refl _)
  clear_value s0
  extract_lets +onlyGivenNames s1
  have hs1 : s.Within _ s1 := .cond (.after (State.within_zeroize ..) (.after (State.within_put ..) hs0)) hs0
  clear_value s1
  split
  · extract_lets +onlyGivenNames s3
    have hs3 : s.Within [.regs, .pcie, .out, .cph] s3 := .mono (.after (State.within_put ..) hs1) (by decide)
    clear_value s3
    exact .mono (.cond (.after (.upIo (Io.within_wr ..)) hs3) hs3) (by decide)
  · exact .mono hs1 (by decide)

theorem State.within_cphCfg (s : State) (m v : ℕ) :
    s.Within [.regs] (s.cphCfg m v) := by
  unfold State.cphCfg
  split
  · exact State.within_err ..
  · extract_lets +onlyGivenNames s2
    have hs2 : s.Within _ s2 := .cond (State.within_bump ..) (.refl _)
    clear_value s2
    exact .mono (.after (State.within_put ..) hs2) (by decide)

theorem State.within_wCphc (s : State) (pg : Page) (h : Hit) (o m v : ℕ) :
    s.Within [.regs, .bank, .pcie, .out, .cph] (s.wCphc pg h o m v) := by
  unfold State.wCphc
  exact .mono (.cond (.cond (State.within_cphBind ..) (State.within_pageErr ..)) (.cond (State.within_pageErr ..) (.cond (State.within_cphCfg ..) (State.within_plain ..)))) (by decide)

theorem State.within_cphZero (s : State) (u : ℕ) :
    s.Within [.regs, .pcie, .out, .cph] (s.cphZero u) := by
  unfold State.cphZero
  exact State.within_keyClear ..

theorem State.within_cphLoad (s : State) (u : ℕ) :
    s.Within [.regs, .cph] (s.cphLoad u) := by
  unfold State.cphLoad
  extract_lets +onlyGivenNames b
  split
  · exact .mono (State.within_put ..) (by decide)
  · extract_lets +onlyGivenNames l
    exact .mono (.after (State.within_setKeyState ..) (State.within_setCpage ..)) (by decide)

theorem State.within_keyCtl (s : State) (u v : ℕ) :
    s.Within [.regs, .pcie, .out, .cph] (s.keyCtl u v) := by
  unfold State.keyCtl
  extract_lets +onlyGivenNames s0
  have hs0 : s.Within _ s0 := .cond (State.within_cphZero ..) (.refl _)
  clear_value s0
  exact .mono (.cond (.after (State.within_cphLoad ..) hs0) hs0) (by decide)

theorem Io.within_draw (s : Io) :
    s.Within [.free] s.draw.2 := by
  unfold Io.draw
  exact .sndMk (.mono (Io.within_setFree ..) (by decide))

theorem State.within_draw (s : State) :
    s.Within [.free] s.draw.2 := by
  unfold State.draw
  exact .sndMk (.mono (.upIo (Io.within_draw ..)) (by decide))

theorem State.within_freeBytes (s : State) (n : ℕ) :
    s.Within [.free] ((s.freeBytes n).2) := by
  unfold State.freeBytes
  split
  · rename_i a0 a1 t2 h3
    have ht2 : s.Within _ t2 := .ofSnd (State.within_draw ..) h3
    exact .sndMk (.mono ht2 (by decide))

theorem State.within_winPut (s : State) (u o v : ℕ) :
    s.Within [.regs] (s.winPut u o v) := by
  unfold State.winPut
  extract_lets +onlyGivenNames w
  exact .mono (State.within_put ..) (by decide)

theorem State.within_jobOut (s : State) (u : ℕ) (j : JobIn) (o : ℕ) (l : List Byte) :
    s.Within [.regs, .out] (s.jobOut u j o l) := by
  unfold State.jobOut
  split
  · exact .mono (.refl _) (by decide)
  · split
    · exact .mono (State.within_emit ..) (by decide)
    · refine .foldl (fun x4 b5 => ?_) (.mono (.refl _) (by decide))
      split
      · exact .mono (State.within_winPut ..) (by decide)

theorem State.within_jobFail (s : State) (u code : ℕ) :
    s.Within [.regs] (s.jobFail u code) := by
  unfold State.jobFail
  exact .mono (.after (State.within_put ..) (State.within_put ..)) (by decide)

theorem State.within_exhaust (s : State) (u : ℕ) :
    s.Within [.regs, .pcie, .out] (s.exhaust u) := by
  unfold State.exhaust
  exact .mono (.after (State.within_raise ..) (.after (State.within_put ..) (.after (State.within_raise ..) (State.within_setKeyState ..)))) (by decide)

theorem State.within_abandon (s : State) (u : ℕ) :
    s.Within (.cph :: ctrParts) (s.abandon u) := by
  unfold State.abandon
  exact .mono (.cond (.after (State.within_ctr ..) (State.within_msgEnd ..)) (.refl _)) (by decide)

theorem State.within_putIv (s : State) (u iv : ℕ) :
    s.Within [.regs] (s.putIv u iv) := by
  unfold State.putIv
  exact .mono (.each (fun _ _ => (State.within_put ..)) (.refl _)) (by decide)

theorem State.within_takeCtr (s : State) (u : ℕ) :
    s.Within [.regs, .pcie, .out] (s.takeCtr u) := by
  unfold State.takeCtr
  extract_lets +onlyGivenNames b c s0
  have hs0 : s.Within _ s0 := .after (State.within_put ..) (State.within_putIv ..)
  clear_value s0
  exact .mono (.cond (.after (State.within_exhaust ..) hs0) hs0) (by decide)

theorem State.within_jobStart (s : State) (u : ℕ) (j : JobIn) :
    s.Within (.cph :: ctrParts) (s.jobStart u j) := by
  unfold State.jobStart
  extract_lets +onlyGivenNames s0
  have hs0 : s.Within _ s0 := .cond (State.within_abandon ..) (.refl _)
  clear_value s0
  extract_lets +onlyGivenNames s1
  have hs1 : s.Within _ s1 := .cond (.after (State.within_takeCtr ..) hs0) hs0
  clear_value s1
  extract_lets +onlyGivenNames p iv msg s2
  have hs2 : s.Within _ s2 := .after (State.within_setCpage ..) hs1
  clear_value s2
  exact .mono (.after (State.within_put ..) (.after (State.within_put ..) hs2)) (by decide)

theorem State.within_jobGo (s : State) (u : ℕ) :
    s.Within (.cph :: ctrParts) (s.jobGo u) := by
  unfold State.jobGo
  extract_lets +onlyGivenNames j blocks
  split
  · exact .mono (State.within_put ..) (by decide)
  · split
    · exact .mono (State.within_jobFail ..) (by decide)
    · exact .mono (.cond (.after (State.within_jobFail ..) (State.within_exhaust ..)) (.cond (.after (State.within_jobFail ..) (.after (State.within_exhaust ..) (State.within_abandon ..))) (State.within_jobStart ..))) (by decide)

theorem State.within_keyCode (s : State) (c : ℕ) :
    s.Within [.regs, .pcie, .out] (s.keyCode c) := by
  unfold State.keyCode
  extract_lets +onlyGivenNames s'
  have hs' : s.Within _ s' := State.within_put ..
  clear_value s'
  exact .mono (.cond hs' (.after (State.within_raise ..) hs')) (by decide)

theorem State.within_qncLoad (s : State) :
    s.Within [.regs, .pcie, .out, .qnc] s.qncLoad := by
  unfold State.qncLoad
  extract_lets +onlyGivenNames id
  split
  · exact .mono (State.within_keyCode ..) (by decide)
  · split
    · exact .mono (State.within_keyCode ..) (by decide)
    · split
      · exact .mono (State.within_keyCode ..) (by decide)
      · split
        · exact .mono (State.within_keyCode ..) (by decide)
        · extract_lets +onlyGivenNames w
          exact .mono (State.within_upQnc ..) (by decide)

theorem State.within_qncKey (s : State) (o v : ℕ) :
    s.Within [.regs, .pcie, .out, .qnc] (s.qncKey o v) := by
  unfold State.qncKey
  exact .mono (.cond (State.within_upQnc ..) (.cond (State.within_upQnc ..) (.cond (State.within_qncLoad ..) (.refl _)))) (by decide)

theorem State.within_qncCfg (s : State) (m v : ℕ) :
    s.Within [.regs] (s.qncCfg m v) := by
  unfold State.qncCfg
  exact .mono (.cond (State.within_err ..) (State.within_put ..)) (by decide)

theorem State.within_qncSweepCfg (s : State) (v : ℕ) :
    s.Within [.regs] (s.qncSweepCfg v) := by
  unfold State.qncSweepCfg
  exact .mono (State.within_put ..) (by decide)

theorem State.within_qncClass (s : State) (n w m v : ℕ) :
    s.Within [.regs] (s.qncClass n w m v) := by
  unfold State.qncClass
  extract_lets +onlyGivenNames off
  split
  · exact State.within_err ..
  · split
    · exact State.within_err ..
    · extract_lets +onlyGivenNames v4
      exact .mono (.after (State.within_bump ..) (.upIo (Io.within_wr ..))) (by decide)

theorem State.within_wQnc (s : State) (pg : Page) (h : Hit) (o m v : ℕ) :
    s.Within [.regs, .bank, .pcie, .out, .qnc] (s.wQnc pg h o m v) := by
  unfold State.wQnc
  exact .mono (.cond (State.within_plainSecure ..) (.cond (.cond (State.within_qncKey ..) (State.within_pageErr ..)) (.cond (.cond (State.within_pageErr ..) (.cond (State.within_qncCfg ..) (.cond (State.within_qncSweepCfg ..) (State.within_qncClass ..)))) (.refl _)))) (by decide)

theorem Io.within_ovfClear (s : Io) (held v : ℕ) :
    s.Within [.sticky] (s.ovfClear held v) := by
  unfold Io.ovfClear
  exact .mono (.cond (Io.within_setSticky ..) (.refl _)) (by decide)

theorem Io.within_preset (s : Io) (m held : ℕ) :
    s.Within [.regs, .pcie, .out] (s.preset m held) := by
  unfold Io.preset
  extract_lets +onlyGivenNames a code
  exact .mono (.cond (.after (Io.within_raise ..) (.after (Io.within_err ..) (Io.within_put ..))) (.cond (.after (Io.within_raise ..) (Io.within_put ..)) (.cond (.after (Io.within_raise ..) (Io.within_put ..)) (.after (Io.within_put ..) (Io.within_wr64 ..))))) (by decide)

theorem State.within_wPmc (s : State) (pg : Page) (h : Hit) (o m v : ℕ) :
    s.Within (.bank :: ctrParts) (s.wPmc pg h o m v) := by
  unfold State.wPmc
  exact .mono (.cond (.upIo (Io.within_ovfClear ..)) (.cond (.cond (.upIo (Io.within_preset ..)) (.refl _)) (State.within_plain ..))) (by decide)

theorem State.within_thermCfg (s : State) (v : ℕ) :
    s.Within [.regs] (s.thermCfg v) := by
  unfold State.thermCfg
  exact .mono (.after (State.within_put ..) (State.within_put ..)) (by decide)

theorem State.within_fwYield (s : State) :
    s.Within [.fw] s.fwYield := by
  unfold State.fwYield
  exact .mono (.cond (.refl _) (State.within_upFw ..)) (by decide)

theorem State.within_fwCode (s : State) (c : ℕ) :
    s.Within [.regs] (s.fwCode c) := by
  unfold State.fwCode
  exact .mono (State.within_put ..) (by decide)

theorem State.within_fwLoad (s : State) :
    s.Within [.regs, .pcie, .out, .fw] s.fwLoad := by
  unfold State.fwLoad
  split
  · extract_lets +onlyGivenNames s1
    have hs1 : s.Within _ s1 := .cond (State.within_raise ..) (.refl _)
    clear_value s1
    exact .mono (.after (State.within_fwCode ..) hs1) (by decide)
  · extract_lets +onlyGivenNames slot s3
    have hs3 : s.Within _ s3 := State.within_upFw ..
    clear_value s3
    extract_lets +onlyGivenNames s4
    have hs4 : s.Within _ s4 := .cond (.after (State.within_emit ..) hs3) hs3
    clear_value s4
    exact .mono (.after (State.within_fwCode ..) hs4) (by decide)

theorem State.within_fwCtl (s : State) (m v : ℕ) :
    s.Within [.regs, .pcie, .out, .fw] (s.fwCtl m v) := by
  unfold State.fwCtl
  extract_lets +onlyGivenNames s0
  have hs0 : s.Within _ s0 := .cond (.cond (State.within_fwYield ..) (State.within_err ..)) (.refl _)
  clear_value s0
  exact .mono (.cond (.after (State.within_fwLoad ..) hs0) hs0) (by decide)

theorem State.within_fwAlive (s : State) :
    s.Within [.regs, .nvm, .fw] s.fwAlive := by
  unfold State.fwAlive
  extract_lets +onlyGivenNames n least s0
  have hs0 : s.Within _ s0 := .after (State.within_upFw ..) (State.within_upNvm ..)
  clear_value s0
  split
  · exact .mono (.after (State.within_upFw ..) hs0) (by decide)
  · exact .mono (.after (State.within_fwCode ..) (.after (State.within_bump ..) (.after (State.within_upFw ..) hs0))) (by decide)
  · exact .mono hs0 (by decide)

theorem State.within_fwWdogWrite (s : State) (m v : ℕ) :
    s.Within [.regs, .nvm, .fw] (s.fwWdogWrite m v) := by
  unfold State.fwWdogWrite
  extract_lets +onlyGivenNames s0
  have hs0 : s.Within _ s0 := State.within_put ..
  clear_value s0
  exact .mono (.cond hs0 (.cond (.after (State.within_fwAlive ..) hs0) (.after (State.within_err ..) hs0))) (by decide)

theorem State.within_mcWdogWrite (s : State) (m v : ℕ) :
    s.Within [.regs, .fw] (s.mcWdogWrite m v) := by
  unfold State.mcWdogWrite
  extract_lets +onlyGivenNames s0
  have hs0 : s.Within _ s0 := State.within_put ..
  clear_value s0
  exact .mono (.cond hs0 (.cond (.after (State.within_upFw ..) hs0) (.after (State.within_err ..) hs0))) (by decide)

theorem State.within_wRas (s : State) (pg : Page) (h : Hit) (o m v : ℕ) :
    s.Within [.regs, .bank, .pcie, .nvm, .out, .fw] (s.wRas pg h o m v) := by
  unfold State.wRas
  exact .mono (.cond (State.within_pageErr ..) (.cond (State.within_thermCfg ..) (.cond (State.within_fwCtl ..) (.cond (State.within_fwWdogWrite ..) (.cond (State.within_mcWdogWrite ..) (State.within_plain ..)))))) (by decide)

theorem State.within_cscCfg (s : State) (m v : ℕ) :
    s.Within [.regs] (s.cscCfg m v) := by
  unfold State.cscCfg
  exact .mono (.cond (.refl _) (.cond (State.within_err ..) (.after (State.within_put ..) (State.within_put ..)))) (by decide)

theorem State.within_cscCommitCfg (s : State) (v : ℕ) :
    s.Within [.regs] (s.cscCommitCfg v) := by
  unfold State.cscCommitCfg
  extract_lets +onlyGivenNames mg
  exact .mono (.after (State.within_put ..) (State.within_put ..)) (by decide)

theorem State.within_setMism (s : State) (k : ℕ) (bad : Bool) :
    s.Within [.regs, .pcie, .out, .csc] (s.setMism k bad) := by
  unfold State.setMism
  extract_lets +onlyGivenNames was s0
  have hs0 : s.Within _ s0 := State.within_upCsc ..
  clear_value s0
  extract_lets +onlyGivenNames s1
  have hs1 : s.Within _ s1 := .after (State.within_put ..) hs0
  clear_value s1
  exact .mono (.cond (.after (State.within_raise ..) hs1) hs1) (by decide)

theorem State.within_stackDown (s : State) (k : ℕ) :
    s.Within [.regs, .pcie, .out, .csc] (s.stackDown k) := by
  unfold State.stackDown
  split
  · exact .mono (.refl _) (by decide)
  · extract_lets +onlyGivenNames s2
    have hs2 : s.Within _ s2 := .after (State.within_put ..) (State.within_put ..)
    clear_value s2
    extract_lets +onlyGivenNames s3
    have hs3 : s.Within _ s3 := .after (State.within_upCsc ..) hs2
    clear_value s3
    exact .mono (.after (State.within_raise ..) (.after (State.within_setMism ..) hs3)) (by decide)

theorem State.within_cscLinkCfg (s : State) (k v : ℕ) :
    s.Within [.regs, .pcie, .out, .csc] (s.cscLinkCfg k v) := by
  unfold State.cscLinkCfg
  extract_lets +onlyGivenNames s0
  have hs0 : s.Within _ s0 := .upIo (Io.within_wr ..)
  clear_value s0
  exact .mono (.cond hs0 (.after (State.within_stackDown ..) hs0)) (by decide)

theorem State.within_sqWrite (s : State) (c m v : ℕ) :
    s.Within [.regs] (s.sqWrite c m v) := by
  unfold State.sqWrite
  extract_lets +onlyGivenNames old oth new keep shared u s0
  have hs0 : s.Within _ s0 := State.within_put ..
  clear_value s0
  extract_lets +onlyGivenNames s1
  have hs1 : s.Within _ s1 := .cond hs0 (.after (State.within_put ..) hs0)
  clear_value s1
  extract_lets +onlyGivenNames s2
  have hs2 : s.Within _ s2 := .after (State.within_put ..) hs1
  clear_value s2
  exact .mono (.cond (.after (State.within_err ..) hs2) hs2) (by decide)

theorem State.within_handbackWrite (s : State) (m v : ℕ) :
    s.Within [.regs, .csc] (s.handbackWrite m v) := by
  unfold State.handbackWrite
  exact .mono (.cond (.refl _) (.cond (State.within_upCsc ..) (State.within_err ..))) (by decide)

theorem State.within_busyLink (s : State) (k bytes : ℕ) :
    s.Within [.csc] (s.busyLink k bytes) := by
  unfold State.busyLink
  exact State.within_upCsc ..

theorem State.within_sendStack (s : State) (k : ℕ) (hdr : BitVec 256) (body : List Byte) :
    s.Within (.csc :: ctrParts) (s.sendStack k hdr body) := by
  unfold State.sendStack
  extract_lets +onlyGivenNames b f
  exact .mono (.after (State.within_ctr ..) (.after (State.within_ctr ..) (.after (State.within_emit ..) (State.within_busyLink ..)))) (by decide)

theorem State.within_sendCtl (s : State) (k src dst code : ℕ) (pay : List Byte) :
    s.Within (.csc :: ctrParts) (s.sendCtl k src dst code pay) := by
  unfold State.sendCtl
  exact State.within_sendStack ..

theorem State.within_rmtGo (s : State) (m v : ℕ) :
    s.Within (.csc :: ctrParts) (s.rmtGo m v) := by
  unfold State.rmtGo
  split
  · exact .mono (.refl _) (by decide)
  · split
    · exact .mono (State.within_err ..) (by decide)
    · split
      · exact .mono (State.within_err ..) (by decide)
      · extract_lets +onlyGivenNames d
        split
        · exact .mono (State.within_put ..) (by decide)
        · extract_lets +onlyGivenNames tag now s11
          have hs11 : s.Within _ s11 := State.within_upCsc ..
          clear_value s11
          extract_lets +onlyGivenNames s12
          have hs12 : s.Within _ s12 := .after (State.within_sendCtl ..) hs11
          clear_value s12
          exact .mono (.after (State.within_put ..) hs12) (by decide)

theorem State.within_wCsc (s : State) (pg : Page) (h : Hit) (o m v : ℕ) :
    s.Within (.bank :: .csc :: ctrParts) (s.wCsc pg h o m v) := by
  unfold State.wCsc
  exact .mono (.cond (State.within_cscCfg ..) (.cond (State.within_cscCommitCfg ..) (.cond (State.within_cscLinkCfg ..) (.cond (State.within_sqWrite ..) (.cond (State.within_handbackWrite ..) (.cond (State.within_rmtGo ..) (State.within_plain ..))))))) (by decide)

theorem State.within_setPcs (s : State) (n v : ℕ) :
    s.Within [.regs] (s.setPcs n v) := by
  unfold State.setPcs
  extract_lets +onlyGivenNames b
  exact .mono (.after (State.within_put ..) (.after (State.within_put ..) (State.within_put ..))) (by decide)

theorem State.within_setLink (s : State) (n v : ℕ) :
    s.Within [.regs] (s.setLink n v) := by
  unfold State.setLink
  extract_lets +onlyGivenNames b
  exact .mono (State.within_put ..) (by decide)

theorem State.within_linkChange (s : State) (n : ℕ) :
    s.Within [.regs, .pcie, .out] (s.linkChange n) := by
  unfold State.linkChange
  extract_lets +onlyGivenNames b
  exact .mono (.after (State.within_raise ..) (State.within_put ..)) (by decide)

theorem State.within_lowCheck (s : State) :
    s.Within [.regs, .pcie, .out] s.lowCheck := by
  unfold State.lowCheck
  exact .mono (.cond (State.within_raise ..) (.refl _)) (by decide)

theorem State.within_setFree (s : State) (n : ℕ) :
    s.Within [.regs, .pcie, .out] (s.setFree n) := by
  unfold State.setFree
  extract_lets +onlyGivenNames s0
  have hs0 : s.Within _ s0 := State.within_put ..
  clear_value s0
  extract_lets +onlyGivenNames s1
  have hs1 : s.Within _ s1 := .cond (.after (State.within_put ..) hs0) hs0
  clear_value s1
  exact .mono (.after (State.within_lowCheck ..) hs1) (by decide)

theorem State.within_setStored (s : State) (id : ℕ) (p : Stored) :
    s.Within [.buf] (s.setStored id p) := by
  unfold State.setStored
  exact State.within_setBuf ..

theorem State.within_release (s : State) (id : ℕ) :
    s.Within [.regs, .pcie, .out, .buf] (s.release id) := by
  unfold State.release
  extract_lets +onlyGivenNames p
  exact .mono (.cond (.after (State.within_setFree ..) (State.within_setStored ..)) (State.within_setStored ..)) (by decide)

theorem State.within_abortTx (s : State) (n : ℕ) :
    s.Within (.buf :: ctrParts) (s.abortTx n) := by
  unfold State.abortTx
  extract_lets +onlyGivenNames sc
  split
  · exact .mono (.refl _) (by decide)
  · extract_lets +onlyGivenNames s6
    extract_lets +onlyGivenNames s7
    have hs7 : s.Within _ s7 := State.within_setBuf ..
    clear_value s7
    exact .mono (.after (State.within_release ..) (.after (State.within_ctr ..) hs7)) (by decide)

theorem State.within_portDown (s : State) (n : ℕ) (receiving : Bool) :
    s.Within (.buf :: ctrParts) (s.portDown n receiving) := by
  unfold State.portDown
  split
  · extract_lets +onlyGivenNames s1
    have hs1 : s.Within _ s1 := State.within_linkChange ..
    clear_value s1
    extract_lets +onlyGivenNames s2
    have hs2 : s.Within _ s2 := .cond (.after (State.within_ctr ..) hs1) hs1
    clear_value s2
    exact .mono (.after (State.within_abortTx ..) hs2) (by decide)
  · exact .mono (.refl _) (by decide)

theorem State.within_setQueue (s : State) (q : ℕ) (l : List Copy) :
    s.Within [.buf] (s.setQueue q l) := by
  unfold State.setQueue
  exact State.within_setBuf ..

theorem State.within_setOcc (s : State) (q o : ℕ) :
    s.Within [.regs] (s.setOcc q o) := by
  unfold State.setOcc
  split
  · extract_lets +onlyGivenNames b old s1
    have hs1 : s.Within _ s1 := State.within_put ..
    clear_value s1
    extract_lets +onlyGivenNames s2
    have hs2 : s.Within _ s2 := .after (.upIo (Io.within_maxTo ..)) hs1
    clear_value s2
    exact .mono (.after (State.within_put ..) hs2) (by decide)
  · exact .mono (.cond (State.within_put ..) (.refl _)) (by decide)

theorem State.within_changeQueue (s : State) (q : ℕ) (l : List Copy) :
    s.Within [.regs, .buf] (s.changeQueue q l) := by
  unfold State.changeQueue
  extract_lets +onlyGivenNames u s1
  have hs1 : s.Within _ s1 := State.within_setQueue ..
  clear_value s1
  extract_lets +onlyGivenNames s2
  have hs2 : s.Within _ s2 := .after (State.within_setOcc ..) hs1
  clear_value s2
  exact .mono (.after (State.within_put ..) hs2) (by decide)

theorem State.within_traceDone (s : State) (k : Option ℕ) (fate reason : ℕ) (done : Option ℕ) :
    s.Within [.regs, .wcount, .modCnt, .pcie, .out, .tel] (s.traceDone k fate reason done) := by
  unfold State.traceDone
  split
  · extract_lets +onlyGivenNames s5
    have hs5 : s.Within _ s5 := .upIo (Io.within_ringPut ..)
    clear_value s5
    extract_lets +onlyGivenNames s6
    extract_lets +onlyGivenNames s7
    have hs7 : s.Within _ s7 := .after (State.within_setTel ..) hs5
    clear_value s7
    exact .mono (.after (State.within_put ..) hs7) (by decide)
  · exact .mono (.refl _) (by decide)

theorem State.within_discardFirst (s : State) (q k b : ℕ) (f : Fld) :
    s.Within (.wcount :: .modCnt :: .buf :: .tel :: ctrParts) (s.discardFirst q k b f) := by
  unfold State.discardFirst
  extract_lets +onlyGivenNames l s0
  have hs0 : s.Within _ s0 := State.within_changeQueue ..
  clear_value s0
  exact .mono (.each (fun _ _ => (.after (State.within_traceDone ..) (.after (State.within_release ..) (State.within_ctr ..)))) hs0) (by decide)

theorem State.within_discardAll (s : State) (q b : ℕ) (f : Fld) :
    s.Within (.wcount :: .modCnt :: .buf :: .tel :: ctrParts) (s.discardAll q b f) := by
  unfold State.discardAll
  exact State.within_discardFirst ..

theorem State.within_discardPort (s : State) (n : ℕ) (f : Fld) :
    s.Within (.wcount :: .modCnt :: .buf :: .tel :: ctrParts) (s.discardPort n f) := by
  unfold State.discardPort
  exact .mono (.each (fun _ _ => (State.within_discardAll ..)) (.refl _)) (by decide)

theorem State.within_groupApply (s : State) (g m receiving : ℕ) :
    s.Within (.wcount :: .modCnt :: .buf :: .tel :: ctrParts) (s.groupApply g m receiving) := by
  unfold State.groupApply
  extract_lets +onlyGivenNames b map
  split
  · exact .mono (State.within_err ..) (by decide)
  · extract_lets +onlyGivenNames ports had s2
    have hs2 : s.Within _ s2 := .each (fun _ _ => (.after (State.within_setPcs ..) (.after (State.within_setLink ..) (State.within_portDown ..)))) (.refl _)
    clear_value s2
    extract_lets +onlyGivenNames new s3
    extract_lets +onlyGivenNames s4
    have hs4 : s.Within _ s4 := .after (State.within_setBuf ..) hs2
    clear_value s4
    exact .mono (.each (fun _ _ => (.cond (.refl _) (State.within_discardPort ..))) hs4) (by decide)

theorem State.within_setTxts (s : State) (n : ℕ) (l : List (ℕ × ℕ × ℕ × ℕ)) :
    s.Within [.buf] (s.setTxts n l) := by
  unfold State.setTxts
  exact State.within_setBuf ..

theorem State.within_txtsPop (s : State) (g mask : ℕ) :
    s.Within [.buf] (s.txtsPop g mask) := by
  unfold State.txtsPop
  exact .mono (.each (fun _ _ => (State.within_setTxts ..)) (.refl _)) (by decide)

theorem State.within_ppsFall (s : State) :
    s.Within [.sys] s.ppsFall := by
  unfold State.ppsFall
  exact State.within_upSys ..

theorem State.within_ppsCfg (s : State) :
    s.Within [.sys] s.ppsCfg := by
  unfold State.ppsCfg
  exact .mono (.cond (.refl _) (State.within_ppsFall ..)) (by decide)

theorem State.within_wEth (s : State) (pg : Page) (h : Hit) (o m v : ℕ) :
    s.Within (.bank :: .wcount :: .modCnt :: .sys :: .buf :: .tel :: ctrParts) (s.wEth pg h o m v) := by
  unfold State.wEth
  split
  · exact .mono (.cond (.cond (State.within_groupApply ..) (.refl _)) (State.within_plain ..)) (by decide)
  · exact .mono (.cond (State.within_plain ..) (State.within_plain ..)) (by decide)
  · exact .mono (.cond (State.within_txtsPop ..) (.cond (.refl _) (.cond (.after (State.within_ppsCfg ..) (State.within_plain ..)) (State.within_plain ..)))) (by decide)
  · exact .mono (State.within_plain ..) (by decide)

theorem Io.within_nextSeq (s : Io) :
    s.Within [.nvm] s.nextSeq := by
  unfold Io.nextSeq
  exact Io.within_setNvm ..

theorem Io.within_reportCorrected (s : Io) (key : ℕ) (r : Line) :
    s.Within (.wcount :: .modCnt :: .ras :: ctrParts) (s.reportCorrected key r) := by
  unfold Io.reportCorrected
  extract_lets +onlyGivenNames gap last
  exact .mono (.cond (.after (Io.within_ctr ..) (Io.within_setRas ..)) (.after (Io.within_ringPut ..) (Io.within_setRas ..))) (by decide)

theorem Io.within_reportLogged (s : Io) (r : Line) :
    s.Within [.ras] (s.reportLogged r) := by
  unfold Io.reportLogged
  exact Io.within_setRas ..

theorem State.within_loseRecord (s : State) (r : ℕ) :
    s.Within (.flow :: reportParts) (s.loseRecord r) := by
  unfold State.loseRecord
  split
  · exact .mono (.refl _) (by decide)
  · extract_lets +onlyGivenNames s2
    extract_lets +onlyGivenNames s3
    have hs3 : s.Within _ s3 := State.within_setFlow ..
    clear_value s3
    exact .mono (.after (State.within_report ..) (.after (State.within_raise ..) (.after (State.within_ctr ..) hs3))) (by decide)

theorem State.within_setCache (s : State) (i : ℕ) (l : CacheLine) :
    s.Within [.flow] (s.setCache i l) := by
  unfold State.setCache
  exact State.within_setFlow ..

theorem State.within_setWq (s : State) (pc : ℕ) (l : List WReq) :
    s.Within [.fmc] (s.setWq pc l) := by
  unfold State.setWq
  exact State.within_setFmc rfl

theorem State.within_enterWq (s : State) (w : WReq) :
    s.Within [.fmc] (s.enterWq w) := by
  unfold State.enterWq
  extract_lets +onlyGivenNames l w0
  exact .mono (.cond (State.within_setWq ..) (State.within_setWq ..)) (by decide)

theorem State.within_bgTake (s : State) (who : ℕ) :
    s.Within [.fmc] (s.bgTake who) := by
  unfold State.bgTake
  exact State.within_setFmc rfl

theorem State.within_bgPay (s : State) (cls who : ℕ) :
    s.Within [.fmc] (s.bgPay cls who) := by
  unfold State.bgPay
  exact .mono (.cond (State.within_bgTake ..) (.refl _)) (by decide)

theorem State.within_noteWrite (s : State) (pc la : ℕ) :
    s.Within [.fmc] (s.noteWrite pc la) := by
  unfold State.noteWrite
  exact State.within_setFmc rfl

theorem State.within_setTbuf (s : State) (st : ℕ) (l : List WReq) :
    s.Within [.fmc] (s.setTbuf st l) := by
  unfold State.setTbuf
  exact State.within_setFmc rfl

theorem State.within_lineLost (s : State) (pc la : ℕ) :
    s.Within reportParts (s.lineLost pc la) := by
  unfold State.lineLost
  exact State.within_report ..

theorem State.within_writeFailed (s : State) (tag : ℕ) :
    s.Within [.fmc] (s.writeFailed tag) := by
  unfold State.writeFailed
  exact State.within_setFmc rfl

theorem State.within_setDegraded (s : State) (st : ℕ) (l : List (ℕ × ℕ)) :
    s.Within [.regs, .pcie, .out, .fmc] (s.setDegraded st l) := by
  unfold State.setDegraded
  extract_lets +onlyGivenNames old s0
  extract_lets +onlyGivenNames s1
  have hs1 : s.Within _ s1 := State.within_setFmc rfl
  clear_value s1
  extract_lets +onlyGivenNames b s2
  have hs2 : s.Within _ s2 := .after (.upIo (Io.within_maxTo ..)) (.after (State.within_put ..) hs1)
  clear_value s2
  extract_lets +onlyGivenNames s3
  have hs3 : s.Within [.regs, .pcie, .out, .fmc] s3 := .mono (.cond (.after (State.within_raise ..) hs2) hs2) (by decide)
  clear_value s3
  extract_lets +onlyGivenNames bits s4
  have hs4 : s.Within _ s4 := .after (State.within_put ..) hs3
  clear_value s4
  exact .mono (.each (fun _ _ => (State.within_put ..)) hs4) (by decide)

theorem State.within_markStale (s : State) (pc : ℕ) :
    s.Within (.fmc :: reportParts) (s.markStale pc) := by
  unfold State.markStale
  extract_lets +onlyGivenNames st s0
  have hs0 : s.Within _ s0 := State.within_put ..
  clear_value s0
  extract_lets +onlyGivenNames s1
  have hs1 : s.Within _ s1 := .after (State.within_setDegraded ..) hs0
  clear_value s1
  exact .mono (.after (State.within_report ..) (.after (State.within_raise ..) hs1)) (by decide)

theorem State.within_degrade (s : State) (pc la : ℕ) :
    s.Within (.fmc :: reportParts) (s.degrade pc la) := by
  unfold State.degrade
  extract_lets +onlyGivenNames st
  exact .mono (.cond (.refl _) (.cond (.after (State.within_markStale ..) (.after (State.within_raise ..) (State.within_ctr ..))) (State.within_setDegraded ..))) (by decide)

theorem State.within_countWrite (s : State) (pc cls : ℕ) :
    s.Within (.acc :: ctrParts) (s.countWrite pc cls) := by
  unfold State.countWrite
  exact .mono (.after (.upIo (Io.within_accAdd ..)) (State.within_ctr ..)) (by decide)

theorem State.within_openRow (s : State) (pc la : ℕ) :
    s.Within (.fmc :: ctrParts) (s.openRow pc la) := by
  unfold State.openRow
  extract_lets +onlyGivenNames s0
  have hs0 : s.Within _ s0 := .cond (State.within_ctr ..) (.refl _)
  clear_value s0
  exact .mono (.after (State.within_setFmc rfl) hs0) (by decide)

theorem State.within_arrayWrite (s : State) (pc la : ℕ) (v : Line) (cls : ℕ) :
    s.Within (.acc :: .fmc :: ctrParts) (s.arrayWrite pc la v cls) := by
  unfold State.arrayWrite
  exact .mono (.after (State.within_setArray ..) (.after (State.within_countWrite ..) (State.within_openRow ..))) (by decide)

theorem State.within_drainWrite (s : State) (pc : ℕ) (w : WReq) :
    s.Within (.acc :: .fmc :: ctrParts) (s.drainWrite pc w) := by
  unfold State.drainWrite
  extract_lets +onlyGivenNames s0
  have hs0 : s.Within _ s0 := State.within_setWq ..
  clear_value s0
  extract_lets +onlyGivenNames s1
  have hs1 : s.Within _ s1 := .after (State.within_setTbuf ..) hs0
  clear_value s1
  exact .mono (.after (State.within_arrayWrite ..) hs1) (by decide)

theorem State.within_makeRoom (s : State) (pc : ℕ) :
    s.Within (.acc :: .fmc :: ctrParts) (s.makeRoom pc) := by
  unfold State.makeRoom
  split
  · exact .mono (.refl _) (by decide)
  · exact State.within_drainWrite ..

theorem State.within_setMode (s : State) (pc m : ℕ) :
    s.Within [.fmc] (s.setMode pc m) := by
  unfold State.setMode
  exact State.within_setFmc rfl

theorem State.within_setRq (s : State) (pc : ℕ) (l : List Req) :
    s.Within [.fmc] (s.setRq pc l) := by
  unfold State.setRq
  exact State.within_setFmc rfl

theorem State.within_countRead (s : State) (pc cls : ℕ) :
    s.Within (.acc :: ctrParts) (s.countRead pc cls) := by
  unfold State.countRead
  exact .mono (.after (.upIo (Io.within_accAdd ..)) (State.within_ctr ..)) (by decide)

theorem State.within_setRqWaiting (s : State) (pc : ℕ) (l : List Req) :
    s.Within [.fmc] (s.setRqWaiting pc l) := by
  unfold State.setRqWaiting
  exact State.within_setFmc rfl

theorem State.within_respond (s : State) (r : Req) (v : Option Line) :
    s.Within [.fmc] (s.respond r v) := by
  unfold State.respond
  exact .mono (.cond (.refl _) (State.within_setFmc rfl)) (by decide)

theorem State.within_countFmc (s : State) (r : Req) (f : Fld) (code : ℕ) :
    s.Within ctrParts (s.countFmc r f code) := by
  unfold State.countFmc
  split
  · exact .mono (.refl _) (by decide)
  · exact .mono (.upIo (Io.within_event ..)) (by decide)

theorem State.within_queueRead (s : State) (r : Req) :
    s.Within (.fmc :: ctrParts) (s.queueRead r) := by
  unfold State.queueRead
  split
  · exact .mono (State.within_setRqWaiting ..) (by decide)
  · split
    · exact .mono (.after (State.within_respond ..) (.after (State.within_countFmc ..) (State.within_ctr ..))) (by decide)
    · exact .mono (.after (State.within_setRq ..) (State.within_ctr ..)) (by decide)
    · exact .mono (State.within_setRq ..) (by decide)

theorem State.within_setPcState (s : State) (pc v : ℕ) :
    s.Within [.regs] (s.setPcState pc v) := by
  unfold State.setPcState
  extract_lets +onlyGivenNames s0
  have hs0 : s.Within _ s0 := State.within_put ..
  clear_value s0
  extract_lets +onlyGivenNames b
  exact .mono (.after (State.within_put ..) hs0) (by decide)

theorem State.within_rebuildJoin (s : State) (pc : ℕ) :
    s.Within [.regs, .fmc] (s.rebuildJoin pc) := by
  unfold State.rebuildJoin
  extract_lets +onlyGivenNames st l s0
  extract_lets +onlyGivenNames s1
  have hs1 : s.Within _ s1 := State.within_setFmc rfl
  clear_value s1
  split
  · extract_lets +onlyGivenNames b
    exact .mono (.after (State.within_put ..) (.after (State.within_put ..) (.after (State.within_put ..) hs1))) (by decide)
  · exact .mono hs1 (by decide)

theorem State.within_rebuildLeave (s : State) (pc : ℕ) :
    s.Within [.regs, .fmc] (s.rebuildLeave pc) := by
  unfold State.rebuildLeave
  extract_lets +onlyGivenNames st b l
  split
  · extract_lets +onlyGivenNames s1
    extract_lets +onlyGivenNames s2
    have hs2 : s.Within _ s2 := State.within_setFmc rfl
    clear_value s2
    extract_lets +onlyGivenNames s3
    have hs3 : s.Within _ s3 := .after (State.within_put ..) (.after (State.within_put ..) (.after (State.within_put ..) hs2))
    clear_value s3
    exact .mono (.each (fun _ _ => (State.within_rebuildJoin ..)) hs3) (by decide)
  · exact .mono (State.within_setFmc rfl) (by decide)

theorem State.within_rebuildCut (s : State) (pc : ℕ) :
    s.Within [.regs, .fmc] (s.rebuildCut pc) := by
  unfold State.rebuildCut
  exact .mono (.cond (.after (State.within_rebuildLeave ..) (State.within_put ..)) (.refl _)) (by decide)

theorem State.within_reissue (s : State) (r : Req) (first again : Bool) :
    s.Within (.fmc :: reportParts) (s.reissue r first again) := by
  unfold State.reissue
  split
  · extract_lets +onlyGivenNames p
    exact .mono (State.within_queueRead ..) (by decide)
  · exact .mono (.after (State.within_respond ..) (State.within_lineLost ..)) (by decide)

theorem State.within_moveQueues (s : State) (pc : ℕ) :
    s.Within (.fmc :: reportParts) (s.moveQueues pc) := by
  unfold State.moveQueues
  split
  · split
    · split
      · extract_lets +onlyGivenNames s12
        have hs12 : s.Within _ s12 := .after (State.within_setTbuf ..) (.after (State.within_setRqWaiting ..) (State.within_setRq ..))
        clear_value s12
        extract_lets +onlyGivenNames s13
        have hs13 : s.Within (.fmc :: reportParts) s13 := by
          unfold s13
          refine .foldl (fun x14 b15 => ?_) (.mono (.after (State.within_setWq ..) hs12) (by decide))
          exact .mono (State.within_enterWq ..) (by decide)
        clear_value s13
        extract_lets +onlyGivenNames s16
        have hs16 : s.Within _ s16 := .each (fun _ _ => (State.within_degrade ..)) hs13
        clear_value s16
        exact .mono (.each (fun _ _ => (State.within_reissue ..)) hs16) (by decide)

theorem State.within_freezePc (s : State) (kind pc : ℕ) :
    s.Within (.fmc :: reportParts) (s.freezePc kind pc) := by
  unfold State.freezePc
  split
  · exact .mono (.refl _) (by decide)
  · extract_lets +onlyGivenNames s2
    have hs2 : s.Within _ s2 := .after (State.within_raise ..) (.after (State.within_setPcState ..) (State.within_rebuildCut ..))
    clear_value s2
    exact .mono (.after (State.within_report ..) (.after (State.within_moveQueues ..) hs2)) (by decide)

theorem State.within_capture (s : State) (kind pc la : ℕ) (raw : Option (BitVec 576)) :
    s.Within [.regs, .pcie, .out, .free] (s.capture kind pc la raw) := by
  unfold State.capture
  extract_lets +onlyGivenNames b
  split
  · exact .mono (.refl _) (by decide)
  · split
    · rename_i a2 a3 t4 h5
      have ht4 : s.Within _ t4 := .ofSnd (State.within_draw ..) h5
      split
      · rename_i a6 a7 t8 h9
        have ht8 : s.Within _ t8 := .ofSnd (.after (State.within_draw ..) ht4) h9
        extract_lets +onlyGivenNames r s10
        have hs10 : s.Within _ s10 := .after (State.within_put ..) (.after (State.within_put ..) (.after (State.within_put ..) ht8))
        clear_value s10
        extract_lets +onlyGivenNames s11
        have hs11 : s.Within _ s11 := .after (State.within_put ..) (.after (State.within_put ..) (.after (State.within_put ..) hs10))
        clear_value s11
        exact .mono (.after (State.within_raise ..) (.each (fun _ _ => (State.within_put ..)) hs11)) (by decide)

theorem State.within_freeze (s : State) (kind pc la : ℕ) (raw : Option (BitVec 576)) :
    s.Within (.free :: .fmc :: reportParts) (s.freeze kind pc la raw) := by
  unfold State.freeze
  exact .mono (.after (State.within_freezePc ..) (State.within_capture ..)) (by decide)

theorem State.within_readEnds (s : State) (pc la who : ℕ) (e : ReadEnd) :
    s.Within (.free :: .fmc :: reportParts) ((s.readEnds pc la who e).2) := by
  unfold State.readEnds
  extract_lets +onlyGivenNames k scrub
  split
  · exact .sndMk (.mono (.refl _) (by decide))
  · exact .sndMk (.mono (.after (State.within_report ..) (.after (State.within_raiseOnce ..) (State.within_bump ..))) (by decide))
  · exact .sndMk (.mono (.after (State.within_freeze ..) (State.within_bump ..)) (by decide))
  · exact .sndMk (.mono (.after (State.within_freeze ..) (State.within_bump ..)) (by decide))
  · exact .sndMk (.mono (.after (State.within_freeze ..) (State.within_bump ..)) (by decide))

theorem State.within_scrubBack (s : State) (l : Loc) (side : Bool) (pc la : ℕ) (v : Line) :
    s.Within [.fmc] (s.scrubBack l side pc la v) := by
  unfold State.scrubBack
  exact State.within_setFmc rfl

theorem State.within_readReport (s : State) (pc la : ℕ) (lost : Bool) :
    s.Within reportParts (s.readReport pc la lost) := by
  unfold State.readReport
  exact .mono (.cond (State.within_lineLost ..) (State.within_report ..)) (by decide)

theorem State.within_setStash (s : State) (i : ℕ) (h : BitVec 128) :
    s.Within [.regs, .pcie, .out, .flow] (s.setStash i h) := by
  unfold State.setStash
  extract_lets +onlyGivenNames s0
  extract_lets +onlyGivenNames s1
  have hs1 : s.Within _ s1 := State.within_setFlow ..
  clear_value s1
  extract_lets +onlyGivenNames n was s2
  have hs2 : s.Within _ s2 := .after (.upIo (Io.within_maxTo ..)) (.after (State.within_put ..) hs1)
  clear_value s2
  exact .mono (.cond (.after (State.within_raise ..) hs2) hs2) (by decide)

theorem State.within_retireCode (s : State) (st code : ℕ) :
    s.Within [.regs, .pcie, .out] (s.retireCode st code) := by
  unfold State.retireCode
  extract_lets +onlyGivenNames s0
  have hs0 : s.Within _ s0 := State.within_put ..
  clear_value s0
  exact .mono (.cond (.after (State.within_raise ..) hs0) hs0) (by decide)

theorem State.within_rehomeSingles (s : State) (pc : ℕ) (l : List (ℕ × ℕ)) :
    s.Within (.fmc :: reportParts) (s.rehomeSingles pc l) := by
  unfold State.rehomeSingles
  refine .foldl (fun x0 b1 => ?_) (.mono (.refl _) (by decide))
  extract_lets +onlyGivenNames p
  exact .mono (.cond (State.within_lineLost ..) (State.within_setArray ..)) (by decide)

theorem State.within_dataLost (s : State) (pc : ℕ) :
    s.Within (.free :: .tel :: reportParts) (s.dataLost pc) := by
  unfold State.dataLost
  split
  · rename_i a0 a1 t2 h3
    have ht2 : s.Within _ t2 := .ofSnd (State.within_draw ..) h3
    extract_lets +onlyGivenNames s4
    extract_lets +onlyGivenNames s5
    have hs5 : s.Within _ s5 := .cond (.after (State.within_setTel ..) ht2) ht2
    clear_value s5
    exact .mono (.after (State.within_report ..) hs5) (by decide)

theorem State.within_requeue (s : State) (pc : ℕ) (reads : List Req) :
    s.Within (.fmc :: reportParts) (s.requeue pc reads) := by
  unfold State.requeue
  extract_lets +onlyGivenNames move s0
  extract_lets +onlyGivenNames s1
  have hs1 : s.Within _ s1 := State.within_setFmc rfl
  clear_value s1
  refine .foldl (fun x2 b3 => ?_) (.mono hs1 (by decide))
  split
  · exact State.within_reissue ..
  · extract_lets +onlyGivenNames p
    exact .mono (State.within_queueRead ..) (by decide)

theorem State.within_pcRetire (s : State) (pc : ℕ) :
    s.Within (.acc :: .free :: .fmc :: .tel :: reportParts) ((s.pcRetire pc).1) := by
  unfold State.pcRetire
  extract_lets +onlyGivenNames st
  split
  · exact .fstMk (.mono (State.within_retireCode ..) (by decide))
  · split
    · exact .fstMk (.mono (State.within_retireCode ..) (by decide))
    · extract_lets +onlyGivenNames s4
      have hs4 : s.Within _ s4 := .each (fun _ _ => (State.within_drainWrite ..)) (.refl _)
      clear_value s4
      extract_lets +onlyGivenNames l lost reads s5
      have hs5 : s.Within _ s5 := .after (.upIo (Io.within_setNvm ..)) (.after (State.within_setRqWaiting ..) (.after (State.within_setRq ..) hs4))
      clear_value s5
      extract_lets +onlyGivenNames s6
      have hs6 : s.Within (.acc :: .free :: .fmc :: .tel :: reportParts) s6 := .mono (.after (State.within_put ..) (.after (State.within_put ..) hs5)) (by decide)
      clear_value s6
      extract_lets +onlyGivenNames s7
      have hs7 : s.Within _ s7 := .after (State.within_rehomeSingles ..) (.after (State.within_setDegraded ..) hs6)
      clear_value s7
      exact .fstMk (.mono (.after (State.within_retireCode ..) (.after (State.within_rebuildJoin ..) (.after (State.within_dataLost ..) (.after (State.within_requeue ..) (.after (State.within_setPcState ..) hs7))))) (by decide))

theorem State.within_rowLine (s : State) (pc la old : ℕ) :
    s.Within (.fmc :: reportParts) (s.rowLine pc la old) := by
  unfold State.rowLine
  exact .mono (.cond (State.within_degrade ..) (State.within_moveCell ..)) (by decide)

theorem State.within_rowRetire (s : State) (pc bank row : ℕ) :
    s.Within (.fmc :: reportParts) (s.rowRetire pc bank row) := by
  unfold State.rowRetire
  extract_lets +onlyGivenNames st k
  split
  · exact .mono (State.within_retireCode ..) (by decide)
  · split
    · exact .mono (State.within_retireCode ..) (by decide)
    · split
      · exact .mono (State.within_retireCode ..) (by decide)
      · extract_lets +onlyGivenNames n lines old s6
        have hs6 : s.Within _ s6 := .upIo (Io.within_setNvm ..)
        clear_value s6
        extract_lets +onlyGivenNames s7
        have hs7 : s.Within _ s7 := .after (State.within_bump ..) (.after (State.within_bump ..) hs6)
        clear_value s7
        exact .mono (.after (State.within_retireCode ..) (.each (fun _ _ => (State.within_rowLine ..)) hs7)) (by decide)

theorem State.within_swFreeze (s : State) (pc : ℕ) :
    s.Within (.free :: .fmc :: reportParts) (s.swFreeze pc) := by
  unfold State.swFreeze
  exact .mono (.cond (.refl _) (State.within_freeze ..)) (by decide)

theorem State.within_startRebuild (s : State) (pc : ℕ) :
    s.Within (.free :: .fmc :: .tel :: reportParts) (s.startRebuild pc) := by
  unfold State.startRebuild
  exact .mono (.after (State.within_rebuildJoin ..) (.after (State.within_dataLost ..) (State.within_setPcState ..))) (by decide)

theorem State.within_readsAway (s : State) (pc : ℕ) :
    s.Within (.fmc :: reportParts) (s.readsAway pc) := by
  unfold State.readsAway
  split
  · exact .mono (.each (fun _ _ => (State.within_reissue ..)) (.after (State.within_setRqWaiting ..) (State.within_setRq ..))) (by decide)

theorem State.within_retrainPc (s : State) (pc : ℕ) :
    s.Within (.fmc :: reportParts) (s.retrainPc pc) := by
  unfold State.retrainPc
  exact .mono (.after (State.within_readsAway ..) (State.within_setPcState ..)) (by decide)

theorem State.within_swRelease (s : State) (pc m : ℕ) :
    s.Within (.free :: .fmc :: .tel :: reportParts) (s.swRelease pc m) := by
  unfold State.swRelease
  split
  · exact State.within_startRebuild ..
  · split
    · extract_lets +onlyGivenNames s3
      extract_lets +onlyGivenNames s4
      have hs4 : s.Within _ s4 := State.within_setFmc rfl
      extract_lets +onlyGivenNames q
      exact .mono (.cond (.after (State.within_retrainPc ..) hs4) hs4) (by decide)
    · exact .mono (State.within_err ..) (by decide)

theorem State.within_pcCtl (s : State) (pc m v : ℕ) :
    s.Within (.free :: .fmc :: .tel :: reportParts) (s.pcCtl pc m v) := by
  unfold State.pcCtl
  extract_lets +onlyGivenNames s0
  have hs0 : s.Within _ s0 := .cond (State.within_swFreeze ..) (.refl _)
  clear_value s0
  exact .mono (.cond (.after (State.within_swRelease ..) hs0) hs0) (by decide)

theorem State.within_diagCtl (s : State) (st v : ℕ) :
    s.Within [.regs, .fmc] (s.diagCtl st v) := by
  unfold State.diagCtl
  extract_lets +onlyGivenNames b pc la wr
  exact .mono (.cond (.refl _) (.cond (State.within_put ..) (.cond (State.within_put ..) (.cond (State.within_put ..) (State.within_setFmc rfl))))) (by decide)

theorem State.within_lowWrite (s : State) (v : ℕ) :
    s.Within [.regs] (s.lowWrite v) := by
  unfold State.lowWrite
  exact .mono (State.within_put ..) (by decide)

theorem State.within_swFlush (s : State) (n mask : ℕ) :
    s.Within (.wcount :: .modCnt :: .buf :: .tel :: ctrParts) (s.swFlush n mask) := by
  unfold State.swFlush
  exact .mono (.each (fun _ _ => (State.within_discardAll ..)) (.refl _)) (by decide)

theorem State.within_qCfgWrite (s : State) (n q m v : ℕ) :
    s.Within [.regs] (s.qCfgWrite n q m v) := by
  unfold State.qCfgWrite
  extract_lets +onlyGivenNames a old new sum stackMin keep mn u s0
  have hs0 : s.Within _ s0 := .upIo (Io.within_wr ..)
  clear_value s0
  extract_lets +onlyGivenNames s1
  have hs1 : s.Within _ s1 := .after (State.within_put ..) hs0
  clear_value s1
  extract_lets +onlyGivenNames s2
  have hs2 : s.Within _ s2 := .after (State.within_put ..) hs1
  clear_value s2
  exact .mono (.cond (.after (State.within_err ..) hs2) hs2) (by decide)

theorem State.within_highWrite (s : State) (n q v : ℕ) :
    s.Within [.regs] (s.highWrite n q v) := by
  unfold State.highWrite
  exact .mono (State.within_put ..) (by decide)

theorem State.within_polWrite (s : State) (w m v : ℕ) :
    s.Within [.regs, .buf] (s.polWrite w m v) := by
  unfold State.polWrite
  split
  · exact .mono (State.within_err ..) (by decide)
  · split
    · exact .mono (.refl _) (by decide)
    · split
      · extract_lets +onlyGivenNames was
        exact .mono (State.within_setPolicer ..) (by decide)
      · exact .mono (.cond (.after (State.within_err ..) (State.within_put ..)) (State.within_setPolicer ..)) (by decide)

theorem State.within_wBuf (s : State) (pg : Page) (h : Hit) (o m v : ℕ) :
    s.Within (.bank :: .wcount :: .modCnt :: .time :: .buf :: .tel :: ctrParts) (s.wBuf pg h o m v) := by
  unfold State.wBuf
  split
  · exact .mono (.cond (State.within_lowWrite ..) (.cond (.after (State.within_lowCheck ..) (State.within_plain ..)) (State.within_plain ..))) (by decide)
  · exact .mono (.cond (State.within_swFlush ..) (.cond (State.within_plain ..) (.cond (State.within_qCfgWrite ..) (.cond (State.within_highWrite ..) (State.within_plain ..))))) (by decide)
  · exact .mono (.cond (State.within_plain ..) (.after (State.within_polWrite ..) (State.within_refillDue ..))) (by decide)
  · exact .mono (.after (State.within_plain ..) (State.within_refillDue ..)) (by decide)
  · exact .mono (State.within_plain ..) (by decide)

theorem State.within_tunWrite (s : State) (pg : Page) (h : Hit) (o m v : ℕ) :
    s.Within [.regs, .bank] (s.tunWrite pg h o m v) := by
  unfold State.tunWrite
  split
  · extract_lets +onlyGivenNames w s5
    extract_lets +onlyGivenNames w6 s7
    have hs7 : s.Within _ s7 := State.within_plain ..
    clear_value s7
    exact .mono (.cond hs7 (.after (State.within_pageErr ..) hs7)) (by decide)
  · exact .mono (.refl _) (by decide)

theorem State.within_wPrs (s : State) (pg : Page) (h : Hit) (o m v : ℕ) :
    s.Within [.regs, .bank] (s.wPrs pg h o m v) := by
  unfold State.wPrs
  exact .mono (.cond (State.within_tunWrite ..) (.cond (.after (State.within_pageErr ..) (State.within_plain ..)) (State.within_plain ..))) (by decide)

theorem State.within_wCls (s : State) (pg : Page) (h : Hit) (o m v : ℕ) :
    s.Within [.regs, .bank, .fwd] (s.wCls pg h o m v) := by
  unfold State.wCls
  extract_lets +onlyGivenNames s0
  have hs0 : s.Within _ s0 := State.within_plain ..
  clear_value s0
  exact .mono (.cond (.after (State.within_setFwd rfl) hs0) hs0) (by decide)

theorem State.within_ageClassWrite (s : State) (n v : ℕ) :
    s.Within [.regs] (s.ageClassWrite n v) := by
  unfold State.ageClassWrite
  extract_lets +onlyGivenNames old s0
  have hs0 : s.Within _ s0 := .after (State.within_put ..) (State.within_put ..)
  clear_value s0
  exact .mono (.cond (.after (State.within_put ..) hs0) (.after (State.within_put ..) hs0)) (by decide)

theorem State.within_effWrite (s : State) (n m v page : ℕ) :
    s.Within [.regs] (s.effWrite n m v page) := by
  unfold State.effWrite
  exact .mono (.cond (State.within_put ..) (State.within_err ..)) (by decide)

theorem State.within_wFlw (s : State) (pg : Page) (h : Hit) (o m v : ℕ) :
    s.Within [.regs, .bank] (s.wFlw pg h o m v) := by
  unfold State.wFlw
  exact .mono (.cond (State.within_put ..) (.cond (State.within_ageClassWrite ..) (.cond (State.within_effWrite ..) (State.within_plain ..)))) (by decide)

theorem State.within_setCtx (s : State) (q c : ℕ) (a0 : Ctx) :
    s.Within [.pip] (s.setCtx q c a0) := by
  unfold State.setCtx
  exact State.within_setPip ..

theorem State.within_upCtx (s : State) (q c : ℕ) (f : Ctx → Ctx) :
    s.Within [.pip] (s.upCtx q c f) := by
  unfold State.upCtx
  exact State.within_setCtx ..

theorem State.within_setBlock (s : State) (g v : ℕ) :
    s.Within [.act] (s.setBlock g v) := by
  unfold State.setBlock
  exact State.within_setAct ..

theorem State.within_blockLeave (s : State) (g : ℕ) :
    s.Within [.act] (s.blockLeave g) := by
  unfold State.blockLeave
  extract_lets +onlyGivenNames w
  split
  · exact .mono (.refl _) (by decide)
  · split
    · extract_lets +onlyGivenNames s3
      have hs3 : s.Within _ s3 := State.within_setBlock ..
      clear_value s3
      extract_lets +onlyGivenNames b
      exact .mono (.after (State.within_setAct ..) hs3) (by decide)
    · exact State.within_setBlock ..

theorem State.within_natUndo (s : State) (l : List ℕ) :
    s.Within [.act] (s.natUndo l) := by
  unfold State.natUndo
  exact .mono (.each (fun _ _ => (State.within_blockLeave ..)) (.refl _)) (by decide)

theorem State.within_setMisses (s : State) (p : ℕ) (l : List Miss) :
    s.Within [.regs, .pcie, .out, .flow] (s.setMisses p l) := by
  unfold State.setMisses
  extract_lets +onlyGivenNames was s0
  extract_lets +onlyGivenNames s1
  have hs1 : s.Within _ s1 := State.within_setFlow ..
  clear_value s1
  extract_lets +onlyGivenNames s2
  have hs2 : s.Within _ s2 := .after (.upIo (Io.within_maxTo ..)) (.after (State.within_put ..) hs1)
  clear_value s2
  exact .mono (.cond (.after (State.within_raise ..) hs2) hs2) (by decide)

theorem State.within_putMiss (s : State) (p : ℕ) (m : Miss) :
    s.Within [.regs, .pcie, .out, .flow] (s.putMiss p m) := by
  unfold State.putMiss
  exact State.within_setMisses ..

theorem State.within_pipStat (s : State) (q : ℕ) :
    s.Within [.regs, .pcie, .out] (s.pipStat q) := by
  unfold State.pipStat
  extract_lets +onlyGivenNames b s0
  have hs0 : s.Within _ s0 := .after (.upIo (Io.within_maxTo ..)) (State.within_put ..)
  clear_value s0
  extract_lets +onlyGivenNames was st s1
  have hs1 : s.Within _ s1 := .after (State.within_put ..) hs0
  clear_value s1
  exact .mono (.cond (.after (State.within_raise ..) hs1) hs1) (by decide)

theorem State.within_freeCtx (s : State) (q c : ℕ) :
    s.Within [.regs, .pcie, .out, .pip] (s.freeCtx q c) := by
  unfold State.freeCtx
  exact .mono (.after (State.within_pipStat ..) (State.within_setCtx ..)) (by decide)

theorem State.within_setLock (s : State) (n h : ℕ) :
    s.Within [.pip] (s.setLock n h) := by
  unfold State.setLock
  exact State.within_setPip ..

theorem State.within_unlockCtx (s : State) (q c : ℕ) :
    s.Within [.pip] (s.unlockCtx q c) := by
  unfold State.unlockCtx
  extract_lets +onlyGivenNames s0
  have hs0 : s.Within _ s0 := .each (fun _ _ => (State.within_setLock ..)) (.refl _)
  clear_value s0
  exact .mono (.after (State.within_upCtx ..) hs0) (by decide)

theorem State.within_setClaims (s : State) (l : List Claim) :
    s.Within [.flow] (s.setClaims l) := by
  unfold State.setClaims
  exact State.within_setFlow ..

theorem State.within_putClaim (s : State) (c : Claim) :
    s.Within [.flow] (s.putClaim c) := by
  unfold State.putClaim
  exact State.within_setClaims ..

theorem State.within_unlockAll (s : State) (holder : ℕ) :
    s.Within [.flow] (s.unlockAll holder) := by
  unfold State.unlockAll
  exact State.within_setFlow ..

theorem State.within_pressure (s : State) :
    s.Within [.regs, .pcie, .out, .flow] s.pressure.1 := by
  unfold State.pressure
  extract_lets +onlyGivenNames free
  split
  · exact .fstMk (.mono (.cond (State.within_setFlow ..) (.refl _)) (by decide))
  · split
    · exact .fstMk (.mono (.after (State.within_raise ..) (State.within_setFlow ..)) (by decide))
    · exact .fstMk (.mono (.refl _) (by decide))

theorem State.within_post (s : State) (evt : ℕ) (data : List ℕ) :
    s.Within (.pip :: ctrParts) (s.post evt data) := by
  unfold State.post
  exact .mono (.cond (.refl _) (.cond (State.within_ctr ..) (State.within_setPip ..))) (by decide)

theorem State.within_occupancy (s : State) :
    s.Within (.flow :: .policy :: .pip :: ctrParts) s.occupancy := by
  unfold State.occupancy
  extract_lets +onlyGivenNames r
  have hr : s.Within _ r.1 := State.within_pressure ..
  clear_value r
  extract_lets +onlyGivenNames s0
  have hs0 : s.Within _ s0 := hr
  clear_value s0
  extract_lets +onlyGivenNames s1
  extract_lets +onlyGivenNames s2
  have hs2 : s.Within _ s2 := .cond (.after (State.within_post ..) (.after (State.within_setPolicy ..) hs0)) hr
  clear_value s2
  extract_lets +onlyGivenNames st e
  exact .mono (.cond (.after (State.within_post ..) (.after (State.within_setFlowPolicy ..) hs2)) hs2) (by decide)

theorem State.within_freeIndex (s : State) (r : ℕ) :
    s.Within (.flow :: .policy :: .pip :: ctrParts) (s.freeIndex r) := by
  unfold State.freeIndex
  exact .mono (.after (State.within_occupancy ..) (State.within_setFlow ..)) (by decide)

theorem State.within_claimAgain (s : State) (c : Claim) :
    s.Within (.flow :: .policy :: .pip :: ctrParts) (s.claimAgain c) := by
  unfold State.claimAgain
  exact .mono (.after (State.within_putClaim ..) (.after (State.within_unlockAll ..) (State.within_freeIndex ..))) (by decide)

theorem State.within_issueWrite (s : State) (l : Loc) (v : Line) (cls who tag : ℕ) :
    s.Within [.fmc] (s.issueWrite l v cls who tag) := by
  unfold State.issueWrite
  exact State.within_setFmc rfl

theorem State.within_writeHalves (s : State) (c : Claim) :
    s.Within [.fmc, .flow] (s.writeHalves c) := by
  unfold State.writeHalves
  extract_lets +onlyGivenNames s0
  have hs0 : s.Within _ s0 := State.within_issueWrite ..
  clear_value s0
  extract_lets +onlyGivenNames s1
  have hs1 : s.Within _ s1 := .after (State.within_issueWrite ..) hs0
  clear_value s1
  exact .mono (.after (State.within_putClaim ..) hs1) (by decide)

theorem State.within_countClaim (s : State) (c : Claim) (code : ℕ) :
    s.Within ctrParts (s.countClaim c code) := by
  unfold State.countClaim
  extract_lets +onlyGivenNames b
  split
  · exact .mono (.upIo (.cond (Io.within_event ..) (Io.within_ctr ..))) (by decide)
  · exact State.within_ctr ..
  · exact .mono (.after (State.within_raise ..) (State.within_ctr ..)) (by decide)
  · exact State.within_ctr ..

theorem State.within_answer (s : State) (c : Claim) (code : ℕ) :
    s.Within (.flow :: ctrParts) (s.answer c code) := by
  unfold State.answer
  extract_lets +onlyGivenNames s0
  have hs0 : s.Within _ s0 := .after (State.within_countClaim ..) (State.within_putClaim ..)
  clear_value s0
  extract_lets +onlyGivenNames s1
  have hs1 : s.Within _ s1 := .after (State.within_unlockAll ..) hs0
  clear_value s1
  extract_lets +onlyGivenNames loserCode
  exact .mono (.each (fun _ _ => (.after (State.within_countClaim ..) (State.within_putClaim ..))) hs1) (by decide)

theorem State.within_toStash (s : State) (c : Claim) :
    s.Within (.fmc :: .flow :: .policy :: .pip :: ctrParts) (s.toStash c) := by
  unfold State.toStash
  split
  · split
    · exact .mono (State.within_writeHalves ..) (by decide)
    · exact .mono (.after (State.within_answer ..) (State.within_freeIndex ..)) (by decide)
  · exact .mono (.after (State.within_answer ..) (State.within_freeIndex ..)) (by decide)

theorem State.within_setFences (s : State) (l : List Fence) :
    s.Within [.regs, .flow] (s.setFences l) := by
  unfold State.setFences
  extract_lets +onlyGivenNames s0
  extract_lets +onlyGivenNames s1
  have hs1 : s.Within _ s1 := State.within_setFlow ..
  clear_value s1
  exact .mono (.after (.upIo (Io.within_maxTo ..)) (.after (State.within_put ..) hs1)) (by decide)

theorem State.within_lock (s : State) (b holder : ℕ) :
    s.Within [.flow] (s.lock b holder) := by
  unfold State.lock
  exact State.within_setFlow ..

theorem State.within_relocate (s : State) (c : Claim) (t o : ℕ) (v : Line) :
    s.Within [.regs, .fmc, .flow] (s.relocate c t o v) := by
  unfold State.relocate
  extract_lets +onlyGivenNames h i f s0
  have hs0 : s.Within _ s0 := .after (State.within_setFences ..) (State.within_lock ..)
  clear_value s0
  exact .mono (.after (State.within_putClaim ..) (.after (State.within_issueWrite ..) hs0)) (by decide)

theorem State.within_countDrop (s : State) (p reason tc unit : ℕ) :
    s.Within ctrParts (s.countDrop p reason tc unit) := by
  unfold State.countDrop
  extract_lets +onlyGivenNames s0
  extract_lets +onlyGivenNames s1
  have hs1 : s.Within _ s1 := .upIo (Io.within_event ..)
  clear_value s1
  split
  · exact .mono (.after (State.within_raiseOnce ..) hs1) (by decide)
  · exact .mono hs1 (by decide)

theorem State.within_newStored (s : State) (bytes : List Byte) :
    s.Within [.buf] ((s.newStored bytes).2) := by
  unfold State.newStored
  refine .sndMk ?_
  extract_lets +onlyGivenNames x
  have hx : s.Within _ x := State.within_setStored ..
  clear_value x
  exact .mono (.after (State.within_setBuf ..) hx) (by decide)

theorem State.within_enqueue (s : State) (q : ℕ) (c : Copy) :
    s.Within [.regs, .pcie, .out, .buf] (s.enqueue q c) := by
  unfold State.enqueue
  extract_lets +onlyGivenNames p extra s0
  have hs0 : s.Within _ s0 := State.within_setStored ..
  clear_value s0
  extract_lets +onlyGivenNames s1
  have hs1 : s.Within _ s1 := .after (State.within_setFree ..) hs0
  clear_value s1
  extract_lets +onlyGivenNames s2
  extract_lets +onlyGivenNames s3
  have hs3 : s.Within [.regs, .pcie, .out, .buf] s3 := .mono (.cond (.cond (.after (State.within_put ..) hs1) (.after (State.within_setBuf ..) hs1)) hs1) (by decide)
  clear_value s3
  exact .mono (.after (State.within_changeQueue ..) hs3) (by decide)

theorem State.within_admitHost (s : State) (h : ℕ) (c : Copy) :
    s.Within (.buf :: ctrParts) ((s.admitHost h c).1) := by
  unfold State.admitHost
  split
  · extract_lets +onlyGivenNames s3
    have hs3 : s.Within _ s3 := State.within_ctr ..
    clear_value s3
    extract_lets +onlyGivenNames s4
    have hs4 : s.Within _ s4 := .cond (.after (State.within_ctr ..) hs3) hs3
    clear_value s4
    exact .fstMk (.mono (.after (State.within_raiseOnce ..) hs4) (by decide))
  · exact .fstMk (.mono (State.within_enqueue ..) (by decide))

theorem State.within_copyHost (s : State) (p q : ℕ) (c : Copy) :
    s.Within (.buf :: ctrParts) ((s.copyHost p q c).1) := by
  unfold State.copyHost
  split
  · rename_i a0 t1 a2 h3
    have ht1 : s.Within _ t1 := .ofFst (State.within_admitHost ..) h3
    exact .fstMk (.mono (.cond (.after (State.within_ctr ..) ht1) ht1) (by decide))

theorem State.within_exceptionCopy (s : State) (p reason : ℕ) (c : Copy) :
    s.Within (.buf :: ctrParts) ((s.exceptionCopy p reason c).1) := by
  unfold State.exceptionCopy
  split
  · exact .fstMk (.mono (.refl _) (by decide))
  · extract_lets +onlyGivenNames ts
    exact State.within_copyHost ..

theorem State.within_passEnd (s : State) (p port : ℕ) (retired : Bool) :
    s.Within (.acc :: ctrParts) (s.passEnd p port retired) := by
  unfold State.passEnd
  extract_lets +onlyGivenNames b
  refine .upIo ?_
  extract_lets +onlyGivenNames io
  have hio : s.io.Within _ io := Io.within_put ..
  clear_value io
  extract_lets +onlyGivenNames io0
  have hio0 : s.io.Within _ io0 := .cond (.after (Io.within_accAdd ..) (.after (Io.within_ctr ..) hio)) (.after (Io.within_accAdd ..) (.after (Io.within_ctr ..) hio))
  clear_value io0
  split
  · exact .mono hio0 (by decide)
  · extract_lets +onlyGivenNames io6
    have hio6 : s.io.Within (.acc :: ctrParts) io6 := .mono (.after (Io.within_accAdd ..) hio0) (by decide)
    clear_value io6
    exact .mono (.cond hio6 (.after (Io.within_accAdd ..) hio6)) (by decide)

theorem State.within_dropMiss (s : State) (p : ℕ) (m : Miss) :
    s.Within [.regs, .pcie, .out, .flow] (s.dropMiss p m) := by
  unfold State.dropMiss
  exact State.within_setMisses ..

theorem State.within_stopDrops (s : State) (p : ℕ) (m : Miss) :
    s.Within ctrParts (s.stopDrops p m) := by
  unfold State.stopDrops
  exact State.within_ctr ..

theorem State.within_pipResume (s : State) (q : ℕ) :
    s.Within [.regs, .pcie, .out, .pip] (s.pipResume q) := by
  unfold State.pipResume
  extract_lets +onlyGivenNames s0
  have hs0 : s.Within _ s0 := State.within_put ..
  clear_value s0
  extract_lets +onlyGivenNames s1
  have hs1 : s.Within _ s1 := .each (fun _ _ => (State.within_upCtx ..)) hs0
  clear_value s1
  exact .mono (.after (State.within_pipStat ..) hs1) (by decide)

theorem State.within_pipLoadGo (s : State) (m q : ℕ) :
    s.Within [.regs, .out, .pip] (s.pipLoadGo m q) := by
  unfold State.pipLoadGo
  split
  · exact .mono (State.within_err ..) (by decide)
  · split
    · exact .mono (State.within_put ..) (by decide)
    · extract_lets +onlyGivenNames s4
      extract_lets +onlyGivenNames s5
      have hs5 : s.Within _ s5 := State.within_setPip ..
      clear_value s5
      extract_lets +onlyGivenNames s6
      have hs6 : s.Within _ s6 := .cond (.after (State.within_emit ..) hs5) hs5
      clear_value s6
      exact .mono (.after (State.within_put ..) hs6) (by decide)

theorem State.within_snapTake (s : State) (busy : Bool) :
    s.Within (.wcount :: .modCnt :: .tel :: ctrParts) (s.snapTake busy) := by
  unfold State.snapTake
  split
  · exact .mono (.after (State.within_raise ..) (State.within_ctr ..)) (by decide)
  · extract_lets +onlyGivenNames l es s2
    extract_lets +onlyGivenNames s3
    have hs3 : s.Within _ s3 := State.within_setTel ..
    clear_value s3
    exact .mono (.each (fun _ _ => (.upIo (Io.within_ringPut ..))) hs3) (by decide)

theorem State.within_snapAsked (s : State) (busy : Bool) :
    s.Within (.wcount :: .modCnt :: .tel :: ctrParts) (s.snapAsked busy) := by
  unfold State.snapAsked
  exact .mono (.cond (State.within_snapTake ..) (.refl _)) (by decide)

theorem State.within_snapNow (s : State) :
    s.Within (.wcount :: .modCnt :: .free :: .tel :: ctrParts) s.snapNow := by
  unfold State.snapNow
  split
  · rename_i a0 a1 t2 h3
    have ht2 : s.Within _ t2 := .ofSnd (State.within_draw ..) h3
    exact .mono (.after (State.within_snapAsked ..) ht2) (by decide)

theorem State.within_setSuspend (s : State) (v : ℕ) :
    s.Within [.regs] (s.setSuspend v) := by
  unfold State.setSuspend
  exact .mono (.after (State.within_put ..) (.after (State.within_put ..) (State.within_put ..))) (by decide)

theorem State.within_wTel (s : State) (pg : Page) (h : Hit) (o m v : ℕ) :
    s.Within (.bank :: .wcount :: .modCnt :: .free :: .tel :: ctrParts) (s.wTel pg h o m v) := by
  unfold State.wTel
  extract_lets +onlyGivenNames e
  split
  · exact .mono (State.within_plain ..) (by decide)
  · split
    · extract_lets +onlyGivenNames s3
      have hs3 : s.Within _ s3 := State.within_plain ..
      clear_value s3
      exact .mono (.cond (.after (State.within_templateSend ..) hs3) hs3) (by decide)
    · exact .mono (.cond (State.within_plain ..) (.cond (.cond (State.within_snapNow ..) (.refl _)) (.cond (.cond (State.within_setSuspend ..) (State.within_pageErr ..)) (State.within_plain ..)))) (by decide)

theorem Io.within_fltCfg (s : Io) (p f m v : ℕ) :
    s.Within [.regs] (s.fltCfg p f m v) := by
  unfold Io.fltCfg
  extract_lets +onlyGivenNames ok a
  exact .mono (.cond (Io.within_wr ..) (Io.within_err ..)) (by decide)

theorem State.within_holeAccess (s : State) (m a : ℕ) (write : Bool) :
    s.Within [.regs, .out] (s.holeAccess m a write) := by
  unfold State.holeAccess
  split
  · exact .mono (.refl _) (by decide)
  · exact .mono (.cond (State.within_unmapped ..) (.after (State.within_emit ..) (State.within_unmapped ..))) (by decide)

theorem Io.within_softClear (s : Io) (base : ℕ) :
    s.Within [.regs, .pcie, .out] (s.softClear base) := by
  unfold Io.softClear
  extract_lets +onlyGivenNames s0
  have hs0 : s.Within _ s0 := Io.within_setIrqStat ..
  clear_value s0
  extract_lets +onlyGivenNames s1
  have hs1 : s.Within _ s1 := .after (Io.within_wr ..) (.after (Io.within_wr ..) hs0)
  clear_value s1
  extract_lets +onlyGivenNames s2
  have hs2 : s.Within _ s2 := .after (Io.within_put ..) (.after (Io.within_put ..) hs1)
  clear_value s2
  exact .mono (.after (Io.within_put ..) hs2) (by decide)

theorem State.within_setLearnQ (s : State) (p : ℕ) (l : List LearnEv) :
    s.Within [.regs, .fwd] (s.setLearnQ p l) := by
  unfold State.setLearnQ
  extract_lets +onlyGivenNames s0
  extract_lets +onlyGivenNames s1
  have hs1 : s.Within _ s1 := State.within_setFwd rfl
  clear_value s1
  exact .mono (.after (.upIo (Io.within_maxTo ..)) (.after (State.within_put ..) hs1)) (by decide)

theorem State.within_softDone (s : State) (pg : Page) :
    s.Within (.modCnt :: .buf :: .fwd :: ctrParts) (s.softDone pg) := by
  unfold State.softDone
  extract_lets +onlyGivenNames s0
  have hs0 : s.Within _ s0 := .upIo (.after (Io.within_softClear ..) (.cond (Io.within_modRestart ..) (.refl _)))
  clear_value s0
  split
  · exact .mono (.after (State.within_setLearnQ ..) (.after (State.within_ctr ..) hs0)) (by decide)
  · exact .mono (.after (.upIo (Io.within_wr ..)) hs0) (by decide)
  · exact .mono (.after (State.within_setBuf ..) hs0) (by decide)
  · exact .mono hs0 (by decide)

theorem State.within_softEnd (s : State) (a : ℕ) :
    s.Within (.modCnt :: .buf :: .fwd :: ctrParts) (s.softEnd a) := by
  unfold State.softEnd
  split
  · exact .mono (.refl _) (by decide)
  · exact .mono (.cond (State.within_softDone ..) (.refl _)) (by decide)

theorem Io.within_flushPend (s : Io) :
    s.Within [.pcie, .out] s.flushPend := by
  unfold Io.flushPend
  refine .foldl (fun x0 b1 => ?_) (.mono (.refl _) (by decide))
  split
  · extract_lets +onlyGivenNames s'
    extract_lets +onlyGivenNames s'3
    split
    · refine .step ?_ (Io.within_emit ..) (by decide)
      unfold s'3
      exact .mono (Io.within_setPcie ..) (by decide)
    · unfold s'3
      exact .mono (Io.within_setPcie ..) (by decide)
  · exact .mono (.refl _) (by decide)

theorem State.within_msixResume (s : State) (vec : ℕ) (masked : Bool) :
    s.Within [.pcie, .out] (s.msixResume vec masked) := by
  unfold State.msixResume
  extract_lets +onlyGivenNames s0
  have hs0 : s.Within _ s0 := State.within_upPcie ..
  clear_value s0
  exact .mono (.after (.upIo (Io.within_flushPend ..)) hs0) (by decide)

theorem Io.within_ctrLow (s : Io) (m a : ℕ) :
    s.Within [.ctrSlot] ((s.ctrLow m a).2) := by
  unfold Io.ctrLow
  exact .sndMk (.mono (Io.within_setCtrSlot ..) (by decide))

theorem Io.within_ctrHigh (s : Io) (m a : ℕ) :
    s.Within [.regs, .ctrSlot] ((s.ctrHigh m a).2) := by
  unfold Io.ctrHigh
  split
  · split
    · exact .sndMk (.mono (Io.within_setCtrSlot ..) (by decide))
    · exact .sndMk (.mono (Io.within_bump ..) (by decide))
  · exact .sndMk (.mono (Io.within_bump ..) (by decide))

theorem Io.within_semRead (s : Io) (n m : ℕ) :
    s.Within [.regs] ((s.semRead n m).2) := by
  unfold Io.semRead
  extract_lets +onlyGivenNames h
  split
  · exact .sndMk (.mono (Io.within_put ..) (by decide))
  · split
    · exact .sndMk (.mono (.refl _) (by decide))
    · exact .sndMk (.mono (.refl _) (by decide))

theorem State.within_gpioIn (s : State) :
    s.Within [.free] s.gpioIn.2 := by
  unfold State.gpioIn
  split
  · rename_i a0 a1 t2 h3
    have ht2 : s.Within _ t2 := .ofSnd (State.within_draw ..) h3
    extract_lets +onlyGivenNames dir out driven
    exact .sndMk (.mono ht2 (by decide))

theorem State.within_rSys (s : State) (o m dflt : ℕ) :
    s.Within [.regs, .free] ((s.rSys o m dflt).2) := by
  unfold State.rSys
  split
  · exact .sndMk (.mono (.refl _) (by decide))
  · split
    · exact .sndMk (.mono (.refl _) (by decide))
    · split
      · exact .sndMk (.mono (.refl _) (by decide))
      · split
        · extract_lets +onlyGivenNames r
          refine .sndMk ?_
          refine .upIo ?_
          unfold r
          exact .mono (Io.within_semRead ..) (by decide)
        · split
          · exact .sndMk (.mono (.refl _) (by decide))
          · split
            · exact .mono (State.within_gpioIn ..) (by decide)
            · split
              · exact .sndMk (.mono (.refl _) (by decide))
              · exact .sndMk (.mono (.refl _) (by decide))

theorem Io.within_timeNsRead (s : Io) (m : ℕ) :
    s.Within [.timeSlot] ((s.timeNsRead m).2) := by
  unfold Io.timeNsRead
  exact .sndMk (.mono (Io.within_setTimeSlot ..) (by decide))

theorem State.within_rEpc (s : State) (o m dflt : ℕ) :
    s.Within [.timeSlot] ((s.rEpc o m dflt).2) := by
  unfold State.rEpc
  split
  · extract_lets +onlyGivenNames r
    refine .sndMk ?_
    refine .upIo ?_
    unfold r
    exact Io.within_timeNsRead ..
  · split
    · exact .sndMk (.mono (.refl _) (by decide))
    · split
      · exact .sndMk (.mono (.refl _) (by decide))
      · exact .sndMk (.mono (.refl _) (by decide))

theorem State.within_rEth (s : State) (pg : Page) (o dflt : ℕ) :
    s.Within [.free] ((s.rEth pg o dflt).2) := by
  unfold State.rEth
  split
  · split
    · split
      · rename_i a3 a4 t5 h6
        have ht5 : s.Within _ t5 := .ofSnd (State.within_draw ..) h6
        exact .sndMk (.mono ht5 (by decide))
    · exact .sndMk (.mono (.refl _) (by decide))
  · split
    · exact .sndMk (.mono (.refl _) (by decide))
    · split
      · exact .sndMk (.mono (.refl _) (by decide))
      · split
        · exact .sndMk (.mono (.refl _) (by decide))
        · exact .sndMk (.mono (.refl _) (by decide))
  · exact .sndMk (.mono (.refl _) (by decide))

theorem State.within_rBody (s : State) (pg : Page) (o m dflt : ℕ) :
    s.Within [.regs, .timeSlot, .time, .free, .buf] ((s.rBody pg o m dflt).2) := by
  unfold State.rBody
  split
  · exact .mono (State.within_rSys ..) (by decide)
  · exact .mono (State.within_rEpc ..) (by decide)
  · exact .sndMk (.mono (.refl _) (by decide))
  · exact .sndMk (.mono (.refl _) (by decide))
  · exact .sndMk (.mono (.refl _) (by decide))
  · exact .sndMk (.mono (.refl _) (by decide))
  · exact .sndMk (.mono (.refl _) (by decide))
  · exact .mono (State.within_rEth ..) (by decide)
  · exact .mono (State.within_rEth ..) (by decide)
  · exact .sndMk (.mono (State.within_refillDue ..) (by decide))
  · exact .sndMk (.mono (State.within_refillDue ..) (by decide))
  · exact .sndMk (.mono (State.within_refillDue ..) (by decide))
  · exact .sndMk (.mono (State.within_refillDue ..) (by decide))
  · exact .sndMk (.mono (State.within_refillDue ..) (by decide))
  · exact .sndMk (.mono (.refl _) (by decide))
  · exact .sndMk (.mono (.refl _) (by decide))
  · exact .sndMk (.mono (.refl _) (by decide))
  · exact .sndMk (.mono (.refl _) (by decide))
  · exact .sndMk (.mono (.refl _) (by decide))
  · exact .sndMk (.mono (.refl _) (by decide))
  · exact .sndMk (.mono (.refl _) (by decide))

theorem State.within_rPage (s : State) (pg : Page) (o m : ℕ) :
    s.Within [.regs, .ctrSlot, .timeSlot, .time, .free, .buf] ((s.rPage pg o m).2) := by
  unfold State.rPage
  split
  · exact .sndMk (.mono (.refl _) (by decide))
  · split
    · exact .sndMk (.mono (.refl _) (by decide))
    · split
      · exact .sndMk (.mono (.refl _) (by decide))
      · split
        · exact .sndMk (.mono (.refl _) (by decide))
        · extract_lets +onlyGivenNames hm
          split
          · exact .sndMk (.mono (.refl _) (by decide))
          · split
            · extract_lets +onlyGivenNames r
              refine .sndMk ?_
              refine .upIo ?_
              unfold r
              split
              · exact .mono (Io.within_ctrLow ..) (by decide)
              · exact .mono (Io.within_ctrHigh ..) (by decide)
            · extract_lets +onlyGivenNames w
              split
              · exact .sndMk (.mono (.refl _) (by decide))
              · exact .mono (State.within_rBody ..) (by decide)

theorem State.within_fabricRead (s : State) (m a : ℕ) :
    s.Within (.ctrSlot :: .timeSlot :: .time :: .free :: .buf :: ctrParts) ((s.fabricRead m a).2) := by
  unfold State.fabricRead
  split
  · exact .sndMk (.mono (State.within_unmapped ..) (by decide))
  · extract_lets +onlyGivenNames o
    split
    · exact .sndMk (.mono (State.within_violate ..) (by decide))
    · exact .mono (.after (State.within_rPage ..) (State.within_fabCount ..)) (by decide)

theorem State.within_readOut (s : State) (m a : ℕ) :
    s.Within (.ctrSlot :: .timeSlot :: .time :: .free :: .buf :: ctrParts) (s.readOut m a) := by
  unfold State.readOut
  extract_lets +onlyGivenNames r
  have hr : s.Within _ r.2 := State.within_fabricRead ..
  clear_value r
  exact .mono (.after (State.within_emit ..) hr) (by decide)

theorem Io.within_ringTimer (s : Io) (n : ℕ) :
    s.Within [.regs, .modCnt, .pcie, .out] (s.ringTimer n) := by
  unfold Io.ringTimer
  exact .mono (.cond (.after (Io.within_ringFlag ..) (Io.within_setModCnt ..)) (.refl _)) (by decide)

theorem State.within_ringDmaFail (s : State) (n : ℕ) :
    s.Within [.regs, .pcie, .out] (s.ringDmaFail n) := by
  unfold State.ringDmaFail
  exact .mono (.cond (.upIo (Io.within_ringFlag ..)) (.refl _)) (by decide)

theorem State.within_takeEntry (s : State) (n : ℕ) :
    s.Within [.regs, .wcount] (s.takeEntry n) := by
  unfold State.takeEntry
  refine .upIo ?_
  extract_lets +onlyGivenNames w
  exact .mono (.after (Io.within_put ..) (Io.within_setWcount ..)) (by decide)

theorem State.within_txEntry (s : State) (t : ℕ) (e : BitVec 128) :
    s.Within [.regs, .wcount, .fetch, .pcie, .out] (s.txEntry t e) := by
  unfold State.txEntry
  extract_lets +onlyGivenNames n
  split
  · exact .mono (.refl _) (by decide)
  · extract_lets +onlyGivenNames s2
    have hs2 : s.Within _ s2 := State.within_takeEntry ..
    clear_value s2
    split
    · exact .mono (.after (State.within_err ..) (.after (State.within_bump ..) (.after (.upIo (Io.within_ringFlag ..)) hs2))) (by decide)
    · extract_lets +onlyGivenNames f s5
      have hs5 : s.Within _ s5 := .after (.upIo (Io.within_setFetch ..)) hs2
      clear_value s5
      exact .mono (.after (State.within_emit ..) hs5) (by decide)

theorem State.within_injectFrame (s : State) (dst : ℕ) (d : List Byte) :
    s.Within [.buf] (s.injectFrame dst d) := by
  unfold State.injectFrame
  extract_lets +onlyGivenNames p k
  exact State.within_setBuf ..

theorem State.within_countRefusedPort (s : State) (n q len : ℕ) (r : Refuse) :
    s.Within ctrParts (s.countRefusedPort n q len r) := by
  unfold State.countRefusedPort
  split
  · exact State.within_ctr ..
  · exact State.within_ctr ..
  · extract_lets +onlyGivenNames s5
    have hs5 : s.Within _ s5 := .after (State.within_ctr ..) (State.within_ctr ..)
    clear_value s5
    extract_lets +onlyGivenNames s6
    have hs6 : s.Within _ s6 := .cond (.after (State.within_ctr ..) hs5) hs5
    clear_value s6
    exact .mono (.after (State.within_raiseOnce ..) hs6) (by decide)

theorem State.within_admitPort (s : State) (n q : ℕ) (c : Copy) (ele : Bool) :
    s.Within (.buf :: ctrParts) ((s.admitPort n q c ele).1) := by
  unfold State.admitPort
  split
  · exact .fstMk (.mono (.refl _) (by decide))
  · extract_lets +onlyGivenNames q2
    split
    · exact .fstMk (.mono (State.within_countRefusedPort ..) (by decide))
    · extract_lets +onlyGivenNames s8
      have hs8 : s.Within _ s8 := State.within_enqueue ..
      clear_value s8
      exact .fstMk (.mono (.after (State.within_ctr ..) (.after (State.within_ctr ..) hs8)) (by decide))

theorem State.within_directTx (s : State) (l : ℕ) :
    s.Within (.qnc :: ctrParts) (s.directTx l) := by
  unfold State.directTx
  exact .mono (.cond (.after (State.within_upQnc ..) (.after (State.within_ctr ..) (State.within_ctr ..))) (.refl _)) (by decide)

theorem State.within_stomp (s : State) (bad : Option ℕ) :
    s.Within reportParts (s.stomp bad) := by
  unfold State.stomp
  split
  · exact .mono (.refl _) (by decide)
  · exact .mono (.after (State.within_report ..) (.after (State.within_raise ..) (State.within_ctr ..))) (by decide)

theorem Io.within_rxBuffer (s : Io) (n : ℕ) (c : Copy) (b : ℕ × ℕ) (data : List Byte) (cut last : Bool) :
    s.Within [.regs, .wcount, .modCnt, .pcie, .out] (s.rxBuffer n c b data cut last) := by
  unfold Io.rxBuffer
  extract_lets +onlyGivenNames w s'
  have hs' : s.Within _ s' := Io.within_emit ..
  clear_value s'
  extract_lets +onlyGivenNames flags s'0
  have hs'0 : s.Within _ s'0 := .after (Io.within_emit ..) hs'
  clear_value s'0
  extract_lets +onlyGivenNames s'1
  have hs'1 : s.Within _ s'1 := .after (Io.within_setWcount ..) hs'0
  clear_value s'1
  exact .mono (.after (Io.within_complete ..) (.after (Io.within_put ..) hs'1)) (by decide)

theorem State.within_cellBad (s : State) (id cell : ℕ) :
    s.Within [.buf] (s.cellBad id cell) := by
  unfold State.cellBad
  extract_lets +onlyGivenNames p
  exact .mono (.cond (.refl _) (State.within_setStored ..)) (by decide)

theorem State.within_readCells (s : State) (id : ℕ) (cells : List (ℕ × Bool)) :
    s.Within (.buf :: reportParts) (s.readCells id cells) := by
  unfold State.readCells
  exact .mono (.each (fun _ _ => (.cond (State.within_cellBad ..) (State.within_report ..))) (.refl _)) (by decide)

theorem State.within_setHostDrr (s : State) (r : Drr) :
    s.Within [.buf] (s.setHostDrr r) := by
  unfold State.setHostDrr
  extract_lets +onlyGivenNames sc
  exact State.within_setBuf ..

theorem State.within_slotVersion (s : State) (n : ℕ) :
    s.Within [.free] ((s.slotVersion n).2) := by
  unfold State.slotVersion
  split
  · exact .sndMk (.mono (.refl _) (by decide))
  · split
    · rename_i a5 a6 t7 h8
      have ht7 : s.Within _ t7 := .ofSnd (State.within_draw ..) h8
      exact .sndMk (.mono ht7 (by decide))

theorem State.within_startSlot (s : State) (n : ℕ) (stage : FwStage) :
    s.Within [.regs, .free, .fw] (s.startSlot n stage) := by
  unfold State.startSlot
  split
  · rename_i a0 a1 t2 h3
    have ht2 : s.Within _ t2 := .ofSnd (State.within_slotVersion ..) h3
    extract_lets +onlyGivenNames s4
    have hs4 : s.Within _ s4 := .after (State.within_put ..) (.after (State.within_put ..) ht2)
    clear_value s4
    exact .mono (.after (State.within_upFw ..) hs4) (by decide)

theorem State.within_coldStart (s : State) :
    s.Within [.regs, .free, .fw] s.coldStart := by
  unfold State.coldStart
  split
  · exact State.within_startSlot ..
  · exact State.within_startSlot ..
  · exact State.within_startSlot ..

theorem Io.within_ticks (s : Io) (n : ℕ) (waiting : ℕ → ℕ) :
    s.Within (.acc :: .taken :: .time :: .clk :: ctrParts) (s.ticks n waiting) := by
  unfold Io.ticks
  extract_lets +onlyGivenNames t total dn a b c d s0
  have hs0 : s.Within _ s0 := Io.within_setTime ..
  clear_value s0
  extract_lets +onlyGivenNames s1
  have hs1 : s.Within _ s1 := .after (Io.within_markDue ..) hs0
  clear_value s1
  extract_lets +onlyGivenNames s2
  have hs2 : s.Within _ s2 := .after (Io.within_ctr ..) hs1
  clear_value s2
  exact .mono (.each (fun _ _ => (Io.within_regionRun ..)) hs2) (by decide)

theorem Io.within_waitNs (s : Io) (dns : ℕ) (waiting : ℕ → ℕ) :
    s.Within (.acc :: .taken :: .time :: .clk :: ctrParts) (s.waitNs dns waiting) := by
  unfold Io.waitNs
  exact .mono (.cond (.refl _) (Io.within_ticks ..)) (by decide)

theorem State.within_passNs (s : State) (n : ℕ) :
    s.Within (.acc :: .taken :: .time :: .clk :: ctrParts) (s.passNs n) := by
  unfold State.passNs
  exact .mono (.upIo (Io.within_waitNs ..)) (by decide)

theorem State.within_mgmtEnd (s : State) :
    s.Within (.acc :: .taken :: .time :: .clk :: .sys :: .free :: .fw :: ctrParts) s.mgmtEnd := by
  unfold State.mgmtEnd
  exact .mono (.cond (.refl _) (.after (State.within_coldStart ..) (.after (State.within_upSys ..) (State.within_passNs ..)))) (by decide)

theorem State.within_powerOnReset (s : State) :
    s.Within [.sys] s.powerOnReset := by
  unfold State.powerOnReset
  extract_lets +onlyGivenNames c
  exact State.within_upSys ..

theorem State.within_writeAlive (s : State) (ns : ℕ) :
    s.Within [.nvm] (s.writeAlive ns) := by
  unfold State.writeAlive
  exact .mono (.cond (.setIo (Io.within_setNvm ..)) (.refl _)) (by decide)

theorem State.within_chipReset (s : State) :
    s.Within [.sys, .nvm] s.chipReset := by
  unfold State.chipReset
  extract_lets +onlyGivenNames c s0
  have hs0 : s.Within _ s0 := .cond (State.within_writeAlive ..) (.refl _)
  clear_value s0
  extract_lets +onlyGivenNames held
  exact .mono (.after (State.within_upSys ..) hs0) (by decide)

theorem State.within_strapSample (s : State) (w : BitVec 6) :
    s.Within [.regs, .sys] (s.strapSample w) := by
  unfold State.strapSample
  split
  · exact .mono (.refl _) (by decide)
  · extract_lets +onlyGivenNames l s2
    have hs2 : s.Within _ s2 := State.within_upSys ..
    clear_value s2
    split
    · exact .mono hs2 (by decide)
    · extract_lets +onlyGivenNames v s5
      have hs5 : s.Within _ s5 := .after (.upIo (Io.within_wr ..)) hs2
      clear_value s5
      exact .mono (.after (State.within_put ..) (.after (State.within_put ..) hs5)) (by decide)

theorem State.within_bootNonce (s : State) :
    s.Within [.regs, .free, .cph] s.bootNonce := by
  unfold State.bootNonce
  extract_lets +onlyGivenNames d
  have hd : s.Within _ d.2 := State.within_draw ..
  clear_value d
  extract_lets +onlyGivenNames s0
  have hs0 : s.Within _ s0 := .each (fun _ _ => (State.within_put ..)) hd
  clear_value s0
  extract_lets +onlyGivenNames nonce label s1
  extract_lets +onlyGivenNames s2
  have hs2 : s.Within _ s2 := .after (State.within_setCph ..) hs0
  clear_value s2
  exact .mono (.after (State.within_put ..) hs2) (by decide)

theorem Io.within_putBank (s : Io) (base : ℕ) (f : Fld) (b v i : ℕ) :
    s.Within [.bank] (s.putBank base f b v i) := by
  unfold Io.putBank
  extract_lets +onlyGivenNames a
  exact Io.within_bkSet ..

theorem State.within_setSel (s : State) (n : ℕ) :
    s.Within [.bank] (s.setSel n) := by
  unfold State.setSel
  exact .mono (.upIo (.after (Io.within_putBank ..) (Io.within_putBank ..))) (by decide)

theorem State.within_recordVersion (s : State) (n : ℕ) (img : List Byte) :
    s.Within [.nvm] (s.recordVersion n img) := by
  unfold State.recordVersion
  exact State.within_upNvm ..

theorem State.within_bootSlot (s : State) (n code : ℕ) (img : List Byte) :
    s.Within [.regs, .bank, .nvm, .free, .fw] (s.bootSlot n code img) := by
  unfold State.bootSlot
  extract_lets +onlyGivenNames s0
  have hs0 : s.Within _ s0 := .after (State.within_put ..) (.after (State.within_put ..) (State.within_put ..))
  clear_value s0
  extract_lets +onlyGivenNames s1
  have hs1 : s.Within _ s1 := .after (State.within_startSlot ..) (.after (State.within_setSel ..) (.after (State.within_recordVersion ..) hs0))
  clear_value s1
  exact .mono (.after (State.within_upFw ..) hs1) (by decide)

theorem State.within_step3 (s : State) (flash0 flash1 : List Byte) :
    s.Within (.bank :: .free :: .fw :: reportParts) (s.step3 flash0 flash1) := by
  unfold State.step3
  extract_lets +onlyGivenNames n f
  split
  · exact .mono (State.within_put ..) (by decide)
  · split
    · exact .mono (State.within_bootSlot ..) (by decide)
    · extract_lets +onlyGivenNames s4
      have hs4 : s.Within _ s4 := State.within_report ..
      clear_value s4
      exact .mono (.cond (.after (State.within_bootSlot ..) hs4) (.after (State.within_put ..) hs4)) (by decide)

theorem State.within_reapplyRetired (s : State) :
    s.Within [.regs] s.reapplyRetired := by
  unfold State.reapplyRetired
  extract_lets +onlyGivenNames s0
  have hs0 : s.Within [.regs] s0 := by
    unfold s0
    refine .foldl (fun x1 b2 => ?_) (.mono (.refl _) (by decide))
    extract_lets +onlyGivenNames s3
    refine .step ?_ (State.within_put ..) (by decide)
    unfold s3
    split
    · exact .mono (State.within_put ..) (by decide)
    · exact .mono (.refl _) (by decide)
  clear_value s0
  exact .mono (.each (fun _ _ => (State.within_put ..)) hs0) (by decide)

theorem State.within_step5 (s : State) :
    s.Within [.regs] s.step5 := by
  unfold State.step5
  exact .mono (.after (State.within_put ..) (.after (State.within_reapplyRetired ..) (.each (fun _ _ => (State.within_put ..)) (.refl _)))) (by decide)

theorem State.within_loadNano (s : State) (kind : ℕ) (b : List Byte) :
    s.Within [.pip] (s.loadNano kind b) := by
  unfold State.loadNano
  extract_lets +onlyGivenNames m
  exact State.within_setPip ..

theorem State.within_storeImage (s : State) (q b : ℕ) (a0 : Image) :
    s.Within [.pip] (s.storeImage q b a0) := by
  unfold State.storeImage
  extract_lets +onlyGivenNames k
  exact State.within_setPip ..

theorem State.within_bootPatch (s : State) (q : ℕ) (b : List Byte) :
    s.Within [.pip] (s.bootPatch q b) := by
  unfold State.bootPatch
  extract_lets +onlyGivenNames x
  exact .mono (.after (State.within_storeImage ..) (State.within_storeImage ..)) (by decide)

theorem State.within_bootSect (s : State) (l : List Byte) (a0 : Sect) :
    s.Within [.pip] (s.bootSect l a0) := by
  unfold State.bootSect
  extract_lets +onlyGivenNames b
  split
  · exact State.within_loadNano ..
  · exact State.within_loadNano ..
  · exact .mono (.each (fun _ _ => (State.within_bootPatch ..)) (.refl _)) (by decide)
  · exact State.within_bootPatch ..
  · exact .mono (.refl _) (by decide)

theorem State.within_qncBoot (s : State) (bad : ℕ) :
    s.Within (.qnc :: reportParts) (s.qncBoot bad) := by
  unfold State.qncBoot
  extract_lets +onlyGivenNames s0
  have hs0 : s.Within _ s0 := State.within_upQnc ..
  clear_value s0
  split
  · exact .mono hs0 (by decide)
  · exact .mono (.after (State.within_report ..) (.after (State.within_put ..) hs0)) (by decide)
  · extract_lets +onlyGivenNames key s14
    have hs14 : s.Within _ s14 := .after (State.within_upQnc ..) hs0
    clear_value s14
    extract_lets +onlyGivenNames s15
    have hs15 : s.Within _ s15 := .after (State.within_put ..) hs14
    clear_value s15
    split
    · exact .mono hs15 (by decide)
    · extract_lets +onlyGivenNames s18
      have hs18 : s.Within _ s18 := .after (State.within_upQnc ..) hs15
      clear_value s18
      extract_lets +onlyGivenNames s19
      have hs19 : s.Within (.qnc :: reportParts) s19 := .mono (.after (State.within_put ..) (.after (State.within_put ..) hs18)) (by decide)
      clear_value s19
      exact .mono (.cond (.after (State.within_put ..) hs19) hs19) (by decide)

theorem State.within_step7 (s : State) (ms headsBad : ℕ) :
    s.Within (.pip :: .qnc :: .fw :: reportParts) (s.step7 ms headsBad) := by
  unfold State.step7
  extract_lets +onlyGivenNames l s0
  have hs0 : s.Within _ s0 := .each (fun _ _ => (State.within_bootSect ..)) (.refl _)
  clear_value s0
  extract_lets +onlyGivenNames s1
  have hs1 : s.Within _ s1 := .after (State.within_qncBoot ..) (.after (State.within_upFw ..) hs0)
  clear_value s1
  exact .mono (.after (State.within_put ..) (.after (State.within_put ..) hs1)) (by decide)

theorem State.within_bootStep (s : State) (ms : ℕ) (flash0 flash1 : List Byte) (headsBad : ℕ) :
    s.Within (.bank :: .free :: .pip :: .qnc :: .cph :: .fw :: reportParts) (s.bootStep ms flash0 flash1 headsBad) := by
  unfold State.bootStep
  extract_lets +onlyGivenNames k
  exact .mono (.cond (.cond (State.within_put ..) (.refl _)) (.cond (.after (State.within_put ..) (State.within_bootNonce ..)) (.cond (.cond (.refl _) (State.within_step3 ..)) (.cond (State.within_step5 ..) (.cond (State.within_step7 ..) (.cond (.refl _) (State.within_put ..))))))) (by decide)

theorem State.within_setTemp (s : State) (n c : ℕ) :
    s.Within [.sys] (s.setTemp n c) := by
  unfold State.setTemp
  exact .mono (.upIo (Io.within_setSys ..)) (by decide)

theorem State.within_stopNow (s : State) (code loc cause : ℕ) :
    s.Within (.sys :: reportParts) (s.stopNow code loc cause) := by
  unfold State.stopNow
  extract_lets +onlyGivenNames s0
  have hs0 : s.Within _ s0 := State.within_report ..
  clear_value s0
  exact .mono (.after (State.within_upSys ..) hs0) (by decide)

theorem State.within_thermalTrip (s : State) (stack : Bool) (n : ℕ) :
    s.Within (.sys :: reportParts) (s.thermalTrip stack n) := by
  unfold State.thermalTrip
  split
  · exact .mono (.refl _) (by decide)
  · extract_lets +onlyGivenNames s2
    have hs2 : s.Within _ s2 := .cond (.refl _) (State.within_setTemp ..)
    clear_value s2
    exact .mono (.after (State.within_stopNow ..) hs2) (by decide)

theorem State.within_supplyFault (s : State) (rail : ℕ) :
    s.Within (.sys :: reportParts) (s.supplyFault rail) := by
  unfold State.supplyFault
  exact .mono (.cond (State.within_stopNow ..) (.refl _)) (by decide)

theorem State.within_logWrite (s : State) (r : Line) :
    s.Within [.nvm] (s.logWrite r) := by
  unfold State.logWrite
  exact State.within_upNvm ..

theorem State.within_stopPersist (s : State) :
    s.Within [.nvm, .ras] s.stopPersist := by
  unfold State.stopPersist
  split
  · exact .mono (.refl _) (by decide)
  · extract_lets +onlyGivenNames s2
    have hs2 : s.Within _ s2 := State.within_writeAlive ..
    clear_value s2
    extract_lets +onlyGivenNames l s3
    have hs3 : s.Within _ s3 := .after (.upIo (Io.within_setRas ..)) hs2
    clear_value s3
    exact .mono (.each (fun _ _ => (State.within_logWrite ..)) hs3) (by decide)

theorem State.within_stopHalt (s : State) :
    s.Within [.sys] s.stopHalt := by
  unfold State.stopHalt
  exact .mono (.cond (State.within_upSys ..) (.refl _)) (by decide)

theorem State.within_setWarned (s : State) (n : ℕ) (b : Bool) :
    s.Within [.regs, .ras] (s.setWarned n b) := by
  unfold State.setWarned
  extract_lets +onlyGivenNames m
  exact .mono (.after (State.within_put ..) (.upIo (Io.within_setRas ..))) (by decide)

theorem State.within_thermWarn (s : State) (n c : ℕ) :
    s.Within (.sys :: reportParts) (s.thermWarn n c) := by
  unfold State.thermWarn
  extract_lets +onlyGivenNames w s0
  have hs0 : s.Within _ s0 := State.within_setTemp ..
  clear_value s0
  split
  · split
    · exact .mono hs0 (by decide)
    · extract_lets +onlyGivenNames old s4
      have hs4 : s.Within _ s4 := .after (State.within_report ..) (.after (State.within_setWarned ..) hs0)
      clear_value s4
      exact .mono (.cond hs4 (.after (State.within_raise ..) hs4)) (by decide)
  · exact .mono (.cond (.after (State.within_setWarned ..) hs0) hs0) (by decide)

theorem Io.within_refLost (s : Io) :
    s.Within [.regs, .pcie, .out] s.refLost := by
  unfold Io.refLost
  exact .mono (.after (Io.within_raise ..) (.after (Io.within_put ..) (.after (Io.within_put ..) (.after (Io.within_put ..) (Io.within_put ..))))) (by decide)

theorem State.within_refReturn (s : State) :
    s.Within [.regs] s.refReturn := by
  unfold State.refReturn
  exact .mono (State.within_put ..) (by decide)

theorem Io.within_relock (s : Io) :
    s.Within [.regs] s.relock := by
  unfold Io.relock
  exact .mono (Io.within_put ..) (by decide)

theorem State.within_loopRelock (s : State) :
    s.Within [.regs] s.loopRelock := by
  unfold State.loopRelock
  exact .mono (.cond (.upIo (Io.within_relock ..)) (.refl _)) (by decide)

theorem State.within_holdoverEnd (s : State) :
    s.Within [.regs] s.holdoverEnd := by
  unfold State.holdoverEnd
  exact .mono (.cond (State.within_put ..) (.refl _)) (by decide)

theorem Io.within_lockLost (s : Io) :
    s.Within [.regs, .pcie, .out] s.lockLost := by
  unfold Io.lockLost
  exact .mono (.after (Io.within_raise ..) (Io.within_put ..)) (by decide)

theorem State.within_lockLost (s : State) :
    s.Within [.regs, .pcie, .out] s.lockLost := by
  unfold State.lockLost
  exact .mono (.cond (.upIo (Io.within_lockLost ..)) (.refl _)) (by decide)

theorem Io.within_seeSag (s : Io) (n mv : ℕ) :
    s.Within [.regs] (s.seeSag n mv) := by
  unfold Io.seeSag
  extract_lets +onlyGivenNames t w bit
  exact Io.within_wr ..

theorem Io.within_episode (s : Io) (r : ℕ) :
    s.Within [.regs, .clk, .pcie, .out] (s.episode r) := by
  unfold Io.episode
  extract_lets +onlyGivenNames s0
  extract_lets +onlyGivenNames s1
  have hs1 : s.Within _ s1 := Io.within_setClk ..
  clear_value s1
  extract_lets +onlyGivenNames s2
  have hs2 : s.Within _ s2 := .after (Io.within_bump ..) hs1
  clear_value s2
  exact .mono (.cond (.after (Io.within_raise ..) hs2) hs2) (by decide)

theorem Io.within_setDiv (s : Io) (r d : ℕ) :
    s.Within [.clk] (s.setDiv r d) := by
  unfold Io.setDiv
  extract_lets +onlyGivenNames calm
  exact Io.within_setClk ..

theorem Io.within_droop (s : Io) (n mv : ℕ) :
    s.Within [.regs, .clk, .pcie, .out] (s.droop n mv) := by
  unfold Io.droop
  extract_lets +onlyGivenNames lvl s0
  have hs0 : s.Within _ s0 := Io.within_seeSag ..
  clear_value s0
  split
  · exact .mono hs0 (by decide)
  · extract_lets +onlyGivenNames r was s3
    have hs3 : s.Within _ s3 := .after (Io.within_wr ..) hs0
    clear_value s3
    extract_lets +onlyGivenNames s4
    extract_lets +onlyGivenNames s5
    have hs5 : s.Within _ s5 := .after (Io.within_setClk ..) hs3
    clear_value s5
    split
    · exact .mono (.cond hs5 (.after (Io.within_episode ..) hs5)) (by decide)
    · extract_lets +onlyGivenNames d s'
      have hs' : s.Within [.regs, .clk, .pcie, .out] s' := .mono (.cond (.after (Io.within_episode ..) hs5) hs5) (by decide)
      clear_value s'
      exact .mono (.cond (.after (Io.within_setDiv ..) hs') hs') (by decide)

theorem Io.within_calmReport (s : Io) (sag : ℕ → ℕ) :
    s.Within [.clk] (s.calmReport sag) := by
  unfold Io.calmReport
  exact .mono (.each (fun _ _ => (.cond (Io.within_setClk ..) (.refl _))) (.refl _)) (by decide)

theorem Io.within_seeSags (s : Io) (r : ℕ) (sag : ℕ → ℕ) :
    s.Within [.regs] (s.seeSags r sag) := by
  unfold Io.seeSags
  exact .mono (.each (fun _ _ => (Io.within_seeSag ..)) (.refl _)) (by decide)

theorem State.within_tickN (s : State) (n : ℕ) :
    s.Within (.acc :: .taken :: .time :: .clk :: ctrParts) (s.tickN n) := by
  unfold State.tickN
  exact .mono (.upIo (Io.within_ticks ..)) (by decide)

theorem Io.within_settle (s : Io) (r d : ℕ) :
    s.Within [.clk] (s.settle r d) := by
  unfold Io.settle
  exact Io.within_setClk ..

theorem State.within_divisorReturn (s : State) (r : ℕ) (sag : ℕ → ℕ) :
    s.Within (.acc :: .taken :: .time :: .clk :: ctrParts) (s.divisorReturn r sag) := by
  unfold State.divisorReturn
  extract_lets +onlyGivenNames d
  split
  · exact .mono (.upIo (.after (Io.within_calmReport ..) (Io.within_seeSags ..))) (by decide)
  · split
    · exact .mono (.upIo (Io.within_seeSags ..)) (by decide)
    · extract_lets +onlyGivenNames s4
      have hs4 : s.Within _ s4 := .after (.upIo (Io.within_seeSags ..)) (State.within_tickN ..)
      clear_value s4
      exact .mono (.cond (.after (.upIo (.after (Io.within_settle ..) (Io.within_setDiv ..))) hs4) hs4) (by decide)

theorem State.within_passTo (s : State) (t : ℕ) :
    s.Within (.acc :: .taken :: .time :: .clk :: ctrParts) (s.passTo t) := by
  unfold State.passTo
  exact State.within_passNs ..

theorem State.within_restart (s : State) (q c : ℕ) :
    s.Within (.act :: .pip :: ctrParts) (s.restart q c) := by
  unfold State.restart
  extract_lets +onlyGivenNames x s0
  have hs0 : s.Within _ s0 := .after (State.within_unlockCtx ..) (State.within_natUndo ..)
  clear_value s0
  extract_lets +onlyGivenNames s1
  have hs1 : s.Within _ s1 := .after (State.within_setCtx ..) hs0
  clear_value s1
  exact .mono (.after (State.within_ctr ..) hs1) (by decide)

theorem State.within_urgentAll (s : State) :
    s.Within (.act :: .pip :: ctrParts) s.urgentAll := by
  unfold State.urgentAll
  refine .foldl (fun x0 b1 => ?_) (.mono (.refl _) (by decide))
  extract_lets +onlyGivenNames x
  exact .mono (.cond (.refl _) (.cond (.after (State.within_ctr ..) (State.within_upCtx ..)) (.after (State.within_upCtx ..) (State.within_restart ..)))) (by decide)

theorem State.within_stretchLimit (s : State) (r : ℕ) :
    s.Within (.acc :: .taken :: .time :: .clk :: .act :: .pip :: ctrParts) (s.stretchLimit r) := by
  unfold State.stretchLimit
  split
  · exact .mono (.refl _) (by decide)
  · extract_lets +onlyGivenNames s2
    have hs2 : s.Within _ s2 := State.within_passTo ..
    clear_value s2
    extract_lets +onlyGivenNames t
    have ht : s.Within _ t := .after (State.within_post ..) (.after (State.within_raise ..) hs2)
    clear_value t
    exact .mono (.cond (.after (State.within_urgentAll ..) ht) ht) (by decide)

theorem Io.within_holdBoundary (s : Io) (rest : List Span) :
    s.Within [.regs, .time, .pcie, .out] (s.holdBoundary rest) := by
  unfold Io.holdBoundary
  extract_lets +onlyGivenNames s0
  extract_lets +onlyGivenNames s1
  extract_lets +onlyGivenNames s2
  have hs2 : s.Within _ s2 := Io.within_setTime ..
  clear_value s2
  exact .mono (.after (Io.within_raise ..) (.after (Io.within_put ..) hs2)) (by decide)

theorem Io.within_toBoundary (s : Io) (waiting : ℕ → ℕ) :
    s.Within (.acc :: .taken :: .time :: .clk :: ctrParts) ((s.toBoundary waiting).1) := by
  unfold Io.toBoundary
  extract_lets +onlyGivenNames d s0
  have hs0 : s.Within _ s0 := .cond (.refl _) (Io.within_waitNs ..)
  clear_value s0
  split
  · exact .fstMk (.mono hs0 (by decide))
  · split
    · exact .fstMk (.mono (.after (Io.within_holdBoundary ..) hs0) (by decide))
    · split
      · exact .fstMk (.mono hs0 (by decide))
      · exact .fstMk (.mono hs0 (by decide))

theorem State.within_keyInForce (s : State) :
    s.Within [.regs, .qnc] s.keyInForce := by
  unfold State.keyInForce
  split
  · exact .mono (.refl _) (by decide)
  · exact .mono (.after (State.within_put ..) (State.within_upQnc ..)) (by decide)

theorem State.within_completeBlock (s : State) (c : Close) :
    s.Within [.regs, .qnc] (s.completeBlock c) := by
  unfold State.completeBlock
  extract_lets +onlyGivenNames last s0
  have hs0 : s.Within _ s0 := State.within_upQnc ..
  clear_value s0
  split
  · exact .mono hs0 (by decide)
  · extract_lets +onlyGivenNames seq bytes b
    exact .mono (.after (State.within_put ..) (.after (State.within_upQnc ..) hs0)) (by decide)

theorem Io.within_boundary (s : Io) (c : ℕ) (rest : List Span) :
    s.Within [.regs, .time] (s.boundary c rest) := by
  unfold Io.boundary
  extract_lets +onlyGivenNames s0
  extract_lets +onlyGivenNames s1
  extract_lets +onlyGivenNames s2
  have hs2 : s.Within _ s2 := Io.within_setTime ..
  clear_value s2
  exact .mono (.after (Io.within_bump ..) hs2) (by decide)

theorem State.within_epochPull (s : State) :
    s.Within [.sys] s.epochPull := by
  unfold State.epochPull
  exact .mono (.cond (.upIo (Io.within_setSys ..)) (.refl _)) (by decide)

theorem State.within_cascCommitted (s : State) (last outcome : ℕ) :
    s.Within [.regs, .csc] (s.cascCommitted last outcome) := by
  unfold State.cascCommitted
  extract_lets +onlyGivenNames s0
  have hs0 : s.Within _ s0 := State.within_upCsc ..
  clear_value s0
  exact .mono (.after (State.within_put ..) (.after (State.within_put ..) hs0)) (by decide)

theorem State.within_cascAbort (s : State) :
    s.Within [.regs, .time, .pcie, .out, .csc] s.cascAbort := by
  unfold State.cascAbort
  extract_lets +onlyGivenNames s0
  have hs0 : s.Within _ s0 := .upIo (Io.within_setTime ..)
  clear_value s0
  extract_lets +onlyGivenNames s1
  have hs1 : s.Within _ s1 := .after (State.within_upCsc ..) hs0
  clear_value s1
  exact .mono (.after (State.within_put ..) (.after (State.within_raise ..) (.after (.upIo (Io.within_commitState ..)) hs1))) (by decide)

theorem State.within_commitBoundary (s : State) (num : ℕ) :
    s.Within [.regs, .time, .pcie, .out, .csc] ((s.commitBoundary num).1) := by
  unfold State.commitBoundary
  extract_lets +onlyGivenNames c
  split
  · exact .fstMk (.mono (State.within_cascCommitted ..) (by decide))
  · split
    · exact .fstMk (.mono (State.within_cascCommitted ..) (by decide))
    · split
      · extract_lets +onlyGivenNames missed
        exact .fstMk (.mono (.after (State.within_upCsc ..) (State.within_cascAbort ..)) (by decide))
      · exact .fstMk (.mono (.refl _) (by decide))

theorem State.within_sendPeer (s : State) (code : ℕ) (pay : List Byte) (k : ℕ) :
    s.Within (.csc :: ctrParts) (s.sendPeer code pay k) := by
  unfold State.sendPeer
  exact State.within_sendCtl ..

theorem State.within_sendTime (s : State) (mid : ℕ) :
    s.Within (.csc :: ctrParts) (s.sendTime mid) := by
  unfold State.sendTime
  exact .mono (.each (fun _ _ => (State.within_sendPeer ..)) (.refl _)) (by decide)

theorem State.within_abandonCommit (s : State) :
    s.Within [.regs, .time, .pcie, .out, .csc] s.abandonCommit := by
  unfold State.abandonCommit
  exact .mono (.cond (State.within_cascAbort ..) (.refl _)) (by decide)

theorem State.within_handBack (s : State) :
    s.Within (.time :: .csc :: ctrParts) s.handBack := by
  unfold State.handBack
  split
  · exact .mono (.refl _) (by decide)
  · extract_lets +onlyGivenNames s2
    have hs2 : s.Within _ s2 := State.within_upCsc ..
    clear_value s2
    extract_lets +onlyGivenNames d
    split
    · exact .mono hs2 (by decide)
    · extract_lets +onlyGivenNames s5
      have hs5 : s.Within _ s5 := .after (State.within_sendTime ..) (.after (State.within_abandonCommit ..) hs2)
      clear_value s5
      extract_lets +onlyGivenNames s6
      have hs6 : s.Within _ s6 := .after (State.within_upCsc ..) hs5
      clear_value s6
      exact .mono (.after (State.within_put ..) (.after (State.within_put ..) hs6)) (by decide)

theorem State.within_becomeMaster (s : State) :
    s.Within [.regs, .time, .pcie, .out, .csc] s.becomeMaster := by
  unfold State.becomeMaster
  extract_lets +onlyGivenNames s0
  have hs0 : s.Within _ s0 := State.within_abandonCommit ..
  clear_value s0
  extract_lets +onlyGivenNames s1
  have hs1 : s.Within _ s1 := .after (State.within_put ..) (.after (State.within_put ..) hs0)
  clear_value s1
  extract_lets +onlyGivenNames s2
  have hs2 : s.Within _ s2 := .after (State.within_upCsc ..) hs1
  clear_value s2
  extract_lets +onlyGivenNames s3
  have hs3 : s.Within _ s3 := .after (.upIo (Io.within_setTime ..)) hs2
  clear_value s3
  exact .mono (.after (State.within_raise ..) (.after (State.within_bump ..) hs3)) (by decide)

theorem State.within_takeover (s : State) :
    s.Within (.time :: .csc :: ctrParts) s.takeover := by
  unfold State.takeover
  split
  · exact .mono (.refl _) (by decide)
  · extract_lets +onlyGivenNames s2
    have hs2 : s.Within _ s2 := State.within_abandonCommit ..
    clear_value s2
    exact .mono (.cond (.after (State.within_sendTime ..) (.after (State.within_becomeMaster ..) hs2)) hs2) (by decide)

theorem State.within_cascBoundary (s : State) (num : ℕ) :
    s.Within (.time :: .sys :: .csc :: ctrParts) ((s.cascBoundary num).1) := by
  unfold State.cascBoundary
  extract_lets +onlyGivenNames s0
  have hs0 : s.Within _ s0 := State.within_epochPull ..
  clear_value s0
  extract_lets +onlyGivenNames s1
  have hs1 : s.Within _ s1 := .after (State.within_upCsc ..) hs0
  clear_value s1
  extract_lets +onlyGivenNames r
  have hr : s.Within _ r.1 := .after (State.within_commitBoundary ..) hs1
  clear_value r
  exact .fstMk (.mono (.after (State.within_handBack ..) (.after (State.within_takeover ..) hr)) (by decide))

theorem State.within_commitDue (s : State) (num : ℕ) :
    s.Within (.time :: .sys :: .csc :: ctrParts) ((s.commitDue num).1) := by
  unfold State.commitDue
  split
  · exact State.within_cascBoundary ..
  · exact .fstMk (.mono (.refl _) (by decide))

theorem Io.within_flipPage (s : Io) (target : ℕ) (pg : Page) :
    s.Within [.regs] (s.flipPage target pg) := by
  unfold Io.flipPage
  extract_lets +onlyGivenNames s0
  have hs0 : s.Within _ s0 := Io.within_put ..
  clear_value s0
  extract_lets +onlyGivenNames s1
  have hs1 : s.Within _ s1 := .after (Io.within_put ..) hs0
  clear_value s1
  extract_lets +onlyGivenNames s2
  have hs2 : s.Within _ s2 := .after (Io.within_put ..) hs1
  clear_value s2
  exact .mono (.after (Io.within_put ..) hs2) (by decide)

theorem State.within_polAdopt (s : State) :
    s.Within [.buf] s.polAdopt := by
  unfold State.polAdopt
  extract_lets +onlyGivenNames b
  exact .mono (.each (fun _ _ => (State.within_setPolicer ..)) (.refl _)) (by decide)

theorem State.within_supersede (s : State) (n : ℕ) :
    s.Within [.regs, .buf] (s.supersede n) := by
  unfold State.supersede
  exact .mono (.cond (.after (State.within_bump ..) (State.within_setBuf ..)) (.refl _)) (by decide)

theorem State.within_listAdopt (s : State) (n at' : ℕ) :
    s.Within [.regs, .bank, .pcie, .out, .buf] (s.listAdopt n at') := by
  unfold State.listAdopt
  extract_lets +onlyGivenNames b
  split
  · exact .mono (.refl _) (by decide)
  · extract_lets +onlyGivenNames code
    split
    · exact .mono (.after (State.within_raise ..) (.after (State.within_put ..) (State.within_put ..))) (by decide)
    · extract_lets +onlyGivenNames l s4
      have hs4 : s.Within _ s4 := State.within_supersede ..
      clear_value s4
      split
      · exact .mono (.after (State.within_raise ..) (.after (State.within_enforce ..) (.after (State.within_put ..) hs4))) (by decide)
      · split
        · extract_lets +onlyGivenNames s11
          extract_lets +onlyGivenNames s12
          have hs12 : s.Within _ s12 := .after (State.within_setBuf ..) hs4
          clear_value s12
          extract_lets +onlyGivenNames s13
          have hs13 : s.Within _ s13 := .after (State.within_put ..) hs12
          clear_value s13
          extract_lets +onlyGivenNames s14
          have hs14 : s.Within _ s14 := .after (State.within_putTime ..) hs13
          clear_value s14
          exact .mono (.cond (.after (State.within_raise ..) (.after (State.within_put ..) hs14)) hs14) (by decide)

theorem State.within_nanoSupplied (s : State) (q : ℕ) :
    s.Within [.pip] (s.nanoSupplied q) := by
  unfold State.nanoSupplied
  exact State.within_setPip ..

theorem State.within_commitAll (s : State) (q : ℕ) :
    s.Within (.act :: .pip :: ctrParts) (s.commitAll q) := by
  unfold State.commitAll
  refine .foldl (fun x0 b1 => ?_) (.mono (.refl _) (by decide))
  extract_lets +onlyGivenNames x
  exact .mono (.cond (.refl _) (.cond (.after (State.within_ctr ..) (State.within_upCtx ..)) (State.within_restart ..))) (by decide)

theorem State.within_slotCommitted (s : State) :
    s.Within [.regs, .bank, .pcie, .out, .fw] s.slotCommitted.1 := by
  unfold State.slotCommitted
  extract_lets +onlyGivenNames n
  split
  · exact .fstMk (.mono (.refl _) (by decide))
  · split
    · exact .fstMk (.mono (.after (State.within_fwCode ..) (State.within_put ..)) (by decide))
    · extract_lets +onlyGivenNames s4
      have hs4 : s.Within _ s4 := State.within_upFw ..
      clear_value s4
      split
      · exact .fstMk (.mono (.after (State.within_raise ..) (.after (State.within_upFw ..) hs4)) (by decide))
      · exact .fstMk (.mono hs4 (by decide))

theorem State.within_adopt (s : State) (at' : ℕ) (pg : Page) :
    s.Within (.bank :: .buf :: .act :: .pip :: .fw :: ctrParts) ((s.adopt at' pg).1) := by
  unfold State.adopt
  split
  · exact .fstMk (.mono (State.within_polAdopt ..) (by decide))
  · exact .fstMk (.mono (State.within_listAdopt ..) (by decide))
  · exact .fstMk (.mono (.after (State.within_nanoSupplied ..) (State.within_commitAll ..)) (by decide))
  · exact .mono (State.within_slotCommitted ..) (by decide)
  · exact .fstMk (.mono (.refl _) (by decide))

theorem Io.within_toHeldEnd (s : Io) (waiting : ℕ → ℕ) :
    s.Within (.acc :: .taken :: .time :: .clk :: ctrParts) ((s.toHeldEnd waiting).1) := by
  unfold Io.toHeldEnd
  split
  · exact .fstMk (.mono (.refl _) (by decide))
  · extract_lets +onlyGivenNames s2
    have hs2 : s.Within _ s2 := Io.within_waitNs ..
    clear_value s2
    exact .fstMk (.mono hs2 (by decide))

theorem Io.within_drainDone (s : Io) (pg : Page) :
    s.Within [.regs, .drained] (s.drainDone pg) := by
  unfold Io.drainDone
  exact .mono (.after (Io.within_maxTo ..) (Io.within_setDrained ..)) (by decide)

theorem State.within_drainComplete (s : State) (base : ℕ) :
    s.Within [.regs, .drained] (s.drainComplete base) := by
  unfold State.drainComplete
  split
  · exact .mono (.refl _) (by decide)
  · exact .mono (.cond (.upIo (Io.within_drainDone ..)) (.refl _)) (by decide)

theorem State.within_clsCopy (s : State) (p : ℕ) :
    s.Within [.fwd] (s.clsCopy p) := by
  unfold State.clsCopy
  extract_lets +onlyGivenNames a prof
  exact State.within_setFwd rfl

theorem State.within_polCopy (s : State) :
    s.Within [.buf] s.polCopy := by
  unfold State.polCopy
  extract_lets +onlyGivenNames b
  refine .foldl (fun x0 b1 => ?_) (.mono (.refl _) (by decide))
  extract_lets +onlyGivenNames p
  exact State.within_setPolicer ..

theorem State.within_pipCopy (s : State) (q : ℕ) :
    s.Within [.pip] (s.pipCopy q) := by
  unfold State.pipCopy
  extract_lets +onlyGivenNames a b words nano regs
  exact State.within_storeImage ..

theorem State.within_copyTables (s : State) (pg : Page) :
    s.Within [.buf, .fwd, .pip] (s.copyTables pg) := by
  unfold State.copyTables
  split
  · exact .mono (State.within_clsCopy ..) (by decide)
  · exact .mono (State.within_setFwd rfl) (by decide)
  · exact .mono (State.within_polCopy ..) (by decide)
  · exact .mono (State.within_pipCopy ..) (by decide)
  · exact .mono (.refl _) (by decide)

theorem Io.within_copyRws (s : Io) (pg : Page) :
    s.Within [.bank] (s.copyRws pg) := by
  unfold Io.copyRws
  refine .foldl (fun x0 b1 => ?_) (.mono (.refl _) (by decide))
  split
  · exact .mono (.refl _) (by decide)
  · refine .foldl (fun x4 b5 => ?_) (.mono (.refl _) (by decide))
    extract_lets +onlyGivenNames a
    refine .step ?_ (Io.within_bkSet ..) (by decide)
    exact .mono (.refl _) (by decide)

theorem Io.within_copyDone (s : Io) (pg : Page) :
    s.Within [.regs, .bank, .drained] (s.copyDone pg) := by
  unfold Io.copyDone
  exact .mono (.after (Io.within_put ..) (.after (Io.within_copyRws ..) (Io.within_setDrained ..))) (by decide)

theorem State.within_shadowCopyDone (s : State) (base : ℕ) :
    s.Within [.regs, .bank, .drained, .buf, .fwd, .pip] (s.shadowCopyDone base) := by
  unfold State.shadowCopyDone
  split
  · exact .mono (.refl _) (by decide)
  · exact .mono (.after (.upIo (Io.within_copyDone ..)) (State.within_copyTables ..)) (by decide)

theorem State.within_portUp (s : State) (n : ℕ) (an : Bool) :
    s.Within [.regs, .pcie, .out] (s.portUp n an) := by
  unfold State.portUp
  split
  · extract_lets +onlyGivenNames an1
    exact .mono (.after (State.within_linkChange ..) (.after (State.within_setPcs ..) (State.within_setLink ..))) (by decide)
  · exact .mono (.refl _) (by decide)

theorem State.within_portFaults (s : State) (n : ℕ) (localFault remoteFault : Bool) (pcs : ℕ) :
    s.Within [.regs] (s.portFaults n localFault remoteFault pcs) := by
  unfold State.portFaults
  exact .mono (.cond (.after (State.within_setPcs ..) (State.within_setLink ..)) (.refl _)) (by decide)

theorem State.within_linkLoss (s : State) (n : ℕ) (receiving localFault remoteFault : Bool) (pcs : ℕ) :
    s.Within (.buf :: ctrParts) (s.linkLoss n receiving localFault remoteFault pcs) := by
  unfold State.linkLoss
  exact .mono (.after (State.within_portFaults ..) (State.within_portDown ..)) (by decide)

theorem State.within_ltFail (s : State) (g : ℕ) :
    s.Within [.regs, .pcie, .out] (s.ltFail g) := by
  unfold State.ltFail
  exact .mono (.cond (State.within_raise ..) (.refl _)) (by decide)

theorem State.within_linkFlush (s : State) (n : ℕ) :
    s.Within (.wcount :: .modCnt :: .buf :: .tel :: ctrParts) (s.linkFlush n) := by
  unfold State.linkFlush
  exact .mono (.cond (.refl _) (.after (State.within_raise ..) (State.within_discardPort ..))) (by decide)

theorem State.within_pauseRx (s : State) (n classes : ℕ) (quanta : ℕ → ℕ) :
    s.Within [.regs, .buf] (s.pauseRx n classes quanta) := by
  unfold State.pauseRx
  extract_lets +onlyGivenNames b old new s0
  have hs0 : s.Within _ s0 := State.within_put ..
  clear_value s0
  extract_lets +onlyGivenNames sc ends
  exact .mono (.after (State.within_setBuf ..) hs0) (by decide)

theorem State.within_pauseFrame (s : State) (n : ℕ) (pfc : Bool) (classes : ℕ) (quanta : ℕ → ℕ) :
    s.Within [.regs, .buf] (s.pauseFrame n pfc classes quanta) := by
  unfold State.pauseFrame
  exact .mono (.cond (.cond (State.within_pauseRx ..) (.refl _)) (.cond (State.within_pauseRx ..) (.refl _))) (by decide)

theorem State.within_macControl (s : State) (n : ℕ) (d : List Byte) :
    s.Within (.buf :: ctrParts) (s.macControl n d) := by
  unfold State.macControl
  extract_lets +onlyGivenNames op
  exact .mono (.cond (State.within_pauseFrame ..) (.cond (State.within_pauseFrame ..) (State.within_ctr ..))) (by decide)

theorem Io.within_ledFrame (s : Io) (n : ℕ) :
    s.Within [.sys] (s.ledFrame n) := by
  unfold Io.ledFrame
  exact .mono (.each (fun _ _ => (.cond (Io.within_setSys ..) (.refl _))) (.refl _)) (by decide)

theorem State.within_setStaged (s : State) (p : ℕ) (l : List Pkt) :
    s.Within [.buf] (s.setStaged p l) := by
  unfold State.setStaged
  exact State.within_setBuf ..

theorem State.within_macTx (s : State) (n : ℕ) (pfc : Bool) (classes : ℕ) (quanta : List ℕ) :
    s.Within [.out] (s.macTx n pfc classes quanta) := by
  unfold State.macTx
  exact .mono (.cond (State.within_emit ..) (.refl _)) (by decide)

theorem State.within_pfcSend (s : State) (n classes xoff : ℕ) :
    s.Within [.out] (s.pfcSend n classes xoff) := by
  unfold State.pfcSend
  extract_lets +onlyGivenNames q
  exact .mono (.cond (.refl _) (State.within_macTx ..)) (by decide)

theorem State.within_fcUpdate (s : State) (n : ℕ) :
    s.Within [.regs, .out] (s.fcUpdate n) := by
  unfold State.fcUpdate
  extract_lets +onlyGivenNames b old xoff q
  split
  · extract_lets +onlyGivenNames nx new s2
    have hs2 : s.Within _ s2 := State.within_put ..
    clear_value s2
    exact .mono (.cond hs2 (.after (State.within_macTx ..) hs2)) (by decide)
  · extract_lets +onlyGivenNames en new s5
    have hs5 : s.Within _ s5 := State.within_put ..
    clear_value s5
    exact .mono (.after (State.within_pfcSend ..) hs5) (by decide)
  · exact .mono (State.within_put ..) (by decide)

theorem State.within_stage (s : State) (k : Pkt) :
    s.Within (.acc :: .buf :: ctrParts) (s.stage k) := by
  unfold State.stage
  extract_lets +onlyGivenNames l used b
  split
  · exact .mono (.cond (.refl _) (.after (.upIo (Io.within_accAdd ..)) (State.within_ctr ..))) (by decide)
  · extract_lets +onlyGivenNames s2
    have hs2 : s.Within _ s2 := State.within_setStaged ..
    clear_value s2
    exact .mono (.cond hs2 (.after (State.within_fcUpdate ..) hs2)) (by decide)

theorem State.within_frameRx (s : State) (n : ℕ) (d : List Byte) (bad : Bool) :
    s.Within (.acc :: .sys :: .buf :: ctrParts) (s.frameRx n d bad) := by
  unfold State.frameRx
  extract_lets +onlyGivenNames p j b body
  split
  · exact .mono (State.within_ctr ..) (by decide)
  · split
    · exact .mono (State.within_ctr ..) (by decide)
    · split
      · exact .mono (State.within_ctr ..) (by decide)
      · split
        · exact .mono (State.within_ctr ..) (by decide)
        · split
          · exact .mono (.after (State.within_macControl ..) (State.within_ctr ..)) (by decide)
          · extract_lets +onlyGivenNames s10
            have hs10 : s.Within _ s10 := .after (State.within_ctr ..) (State.within_ctr ..)
            clear_value s10
            extract_lets +onlyGivenNames s11
            have hs11 : s.Within _ s11 := .after (.upIo (.after (Io.within_ledFrame ..) (.after (Io.within_accAdd ..) (Io.within_accAdd ..)))) hs10
            clear_value s11
            exact .mono (.after (State.within_stage ..) hs11) (by decide)

theorem State.within_frameIn (s : State) (n : ℕ) (d : List Byte) (bad : Bool) :
    s.Within (.acc :: .sys :: .buf :: ctrParts) (s.frameIn n d bad) := by
  unfold State.frameIn
  extract_lets +onlyGivenNames mode
  exact .mono (.cond (.refl _) (.after (State.within_frameRx ..) (.cond (State.within_emit ..) (.refl _)))) (by decide)

theorem State.within_pauseIn (s : State) (n : ℕ) (pfc : Bool) (classes : ℕ) (quanta : ℕ → ℕ) :
    s.Within (.buf :: ctrParts) (s.pauseIn n pfc classes quanta) := by
  unfold State.pauseIn
  exact .mono (.cond (.refl _) (.cond (State.within_ctr ..) (.after (State.within_pauseFrame ..) (State.within_ctr ..)))) (by decide)

theorem State.within_pauseExpire (s : State) (n q : ℕ) :
    s.Within (.acc :: .taken :: .time :: .clk :: .buf :: ctrParts) (s.pauseExpire n q) := by
  unfold State.pauseExpire
  extract_lets +onlyGivenNames old
  split
  · exact .mono (.refl _) (by decide)
  · extract_lets +onlyGivenNames sc s2
    have hs2 : s.Within _ s2 := State.within_passTo ..
    clear_value s2
    extract_lets +onlyGivenNames s3
    have hs3 : s.Within _ s3 := .after (State.within_put ..) hs2
    clear_value s3
    exact .mono (.after (State.within_setBuf ..) hs3) (by decide)

theorem State.within_xoffResend (s : State) (n : ℕ) :
    s.Within [.out] (s.xoffResend n) := by
  unfold State.xoffResend
  split
  · exact .mono (.cond (State.within_macTx ..) (.refl _)) (by decide)
  · extract_lets +onlyGivenNames c
    exact State.within_pfcSend ..
  · exact .mono (.refl _) (by decide)

theorem State.within_wdDrain (s : State) (n q : ℕ) :
    s.Within (.wcount :: .modCnt :: .buf :: .tel :: ctrParts) (s.wdDrain n q) := by
  unfold State.wdDrain
  exact .mono (.cond (.refl _) (.after (State.within_raise ..) (State.within_discardAll ..))) (by decide)

theorem State.within_wdFire (s : State) (n q : ℕ) :
    s.Within (.wcount :: .modCnt :: .buf :: .tel :: ctrParts) (s.wdFire n q) := by
  unfold State.wdFire
  extract_lets +onlyGivenNames b j
  split
  · exact .mono (.refl _) (by decide)
  · extract_lets +onlyGivenNames s2
    have hs2 : s.Within _ s2 := .after (State.within_raise ..) (State.within_put ..)
    clear_value s2
    split
    · extract_lets +onlyGivenNames sc
      exact .mono (.after (State.within_wdDrain ..) (.after (State.within_setBuf ..) hs2)) (by decide)
    · exact .mono hs2 (by decide)

theorem State.within_wdRecover (s : State) (n q : ℕ) :
    s.Within [.buf] (s.wdRecover n q) := by
  unfold State.wdRecover
  extract_lets +onlyGivenNames sc
  exact .mono (.cond (State.within_setBuf ..) (.refl _)) (by decide)

theorem State.within_fecWindow (s : State) (n corr sym uncorr : ℕ) :
    s.Within ctrParts (s.fecWindow n corr sym uncorr) := by
  unfold State.fecWindow
  split
  · exact .mono (.refl _) (by decide)
  · extract_lets +onlyGivenNames b j s2
    have hs2 : s.Within _ s2 := .after (State.within_ctr ..) (.after (State.within_ctr ..) (State.within_ctr ..))
    clear_value s2
    extract_lets +onlyGivenNames t deg s3
    have hs3 : s.Within _ s3 := .after (State.within_put ..) hs2
    clear_value s3
    extract_lets +onlyGivenNames s4
    have hs4 : s.Within ctrParts s4 := .mono (.cond (.after (State.within_raise ..) hs3) hs3) (by decide)
    clear_value s4
    exact .mono (.cond hs4 (.after (State.within_raise ..) hs4)) (by decide)

theorem State.within_ppsRise (s : State) :
    s.Within [.time, .sys] s.ppsRise := by
  unfold State.ppsRise
  extract_lets +onlyGivenNames s0
  have hs0 : s.Within _ s0 := .upIo (Io.within_setTime ..)
  clear_value s0
  exact .mono (.cond (.after (State.within_upSys ..) hs0) hs0) (by decide)

theorem State.within_reach (s : State) (waiting m : ℕ) :
    s.Within (.acc :: .taken :: .time :: .clk :: ctrParts) (s.reach waiting m) := by
  unfold State.reach
  exact .mono (.cond (State.within_passNs ..) (.refl _)) (by decide)

theorem State.within_ppsDue (s : State) :
    s.Within (.acc :: .taken :: .time :: .clk :: .sys :: ctrParts) s.ppsDue := by
  unfold State.ppsDue
  exact .mono (.after (State.within_ppsRise ..) (State.within_reach ..)) (by decide)

theorem State.within_ppsEndDue (s : State) :
    s.Within (.acc :: .taken :: .time :: .clk :: .sys :: ctrParts) s.ppsEndDue := by
  unfold State.ppsEndDue
  exact .mono (.cond (.after (State.within_ppsFall ..) (State.within_passTo ..)) (.refl _)) (by decide)

theorem State.within_ppsIn (s : State) (rising : Bool) :
    s.Within [.regs, .pcie, .out] (s.ppsIn rising) := by
  unfold State.ppsIn
  extract_lets +onlyGivenNames b step
  split
  · extract_lets +onlyGivenNames t overrun s1
    have hs1 : s.Within _ s1 := State.within_put ..
    clear_value s1
    extract_lets +onlyGivenNames s2
    have hs2 : s.Within _ s2 := .after (State.within_put ..) hs1
    clear_value s2
    extract_lets +onlyGivenNames s3
    have hs3 : s.Within _ s3 := .after (State.within_put ..) hs2
    clear_value s3
    extract_lets +onlyGivenNames s4
    have hs4 : s.Within _ s4 := .after (State.within_put ..) hs3
    clear_value s4
    extract_lets +onlyGivenNames s5
    have hs5 : s.Within [.regs, .pcie, .out] s5 := .mono (.cond (.after (State.within_put ..) hs4) hs4) (by decide)
    clear_value s5
    extract_lets +onlyGivenNames s6
    have hs6 : s.Within _ s6 := .cond (.after (State.within_put ..) hs5) hs5
    clear_value s6
    exact .mono (.after (State.within_raise ..) hs6) (by decide)
  · exact .mono (.refl _) (by decide)

theorem State.within_countAdmit (s : State) (p : ℕ) (k : Pkt) (len : ℕ) :
    s.Within (.acc :: .taken :: ctrParts) (s.countAdmit p k len) := by
  unfold State.countAdmit
  extract_lets +onlyGivenNames b
  refine .upIo ?_
  extract_lets +onlyGivenNames io
  have hio : s.io.Within _ io := Io.within_setTaken ..
  clear_value io
  extract_lets +onlyGivenNames io0
  have hio0 : s.io.Within _ io0 := .after (Io.within_accAdd ..) (.after (Io.within_ctr ..) hio)
  clear_value io0
  extract_lets +onlyGivenNames io1
  have hio1 : s.io.Within _ io1 := .after (Io.within_put ..) hio0
  clear_value io1
  extract_lets +onlyGivenNames io2
  have hio2 : s.io.Within _ io2 := .after (Io.within_event ..) hio1
  clear_value io2
  exact .mono (.cond (.after (Io.within_event ..) (.after (Io.within_event ..) hio2)) hio2) (by decide)

theorem State.within_ipfixAdd (s : State) (t : ℕ) (r : List Byte) :
    s.Within (.wcount :: .modCnt :: .tel :: ctrParts) (s.ipfixAdd t r) := by
  unfold State.ipfixAdd
  extract_lets +onlyGivenNames s0
  have hs0 : s.Within _ s0 := .cond (State.within_ipfixFlush ..) (.refl _)
  clear_value s0
  extract_lets +onlyGivenNames at'
  exact .mono (.after (State.within_setTel ..) hs0) (by decide)

theorem State.within_sampleRecord (s : State) (p : ℕ) (k : Pkt) :
    s.Within (.wcount :: .modCnt :: .tel :: ctrParts) (s.sampleRecord p k) := by
  unfold State.sampleRecord
  extract_lets +onlyGivenNames d sec r
  exact .mono (.after (State.within_ctr ..) (State.within_ipfixAdd ..)) (by decide)

theorem State.within_sample (s : State) (p : ℕ) (k : Pkt) :
    s.Within (.wcount :: .modCnt :: .free :: .tel :: ctrParts) (s.sample p k) := by
  unfold State.sample
  split
  · exact .mono (.refl _) (by decide)
  · split
    · rename_i a2 a3 t4 h5
      have ht4 : s.Within _ t4 := .ofSnd (State.within_draw ..) h5
      split
      · exact .mono ht4 (by decide)
      · extract_lets +onlyGivenNames ms was n lim
        exact .mono (.cond (.after (State.within_ctr ..) ht4) (.after (State.within_sampleRecord ..) (.after (State.within_setTel ..) ht4))) (by decide)

theorem State.within_tagTake (s : State) (p i len : ℕ) (k : Pkt) :
    s.Within (.tel :: ctrParts) (s.tagTake p i len k) := by
  unfold State.tagTake
  extract_lets +onlyGivenNames n t s0
  extract_lets +onlyGivenNames s1
  have hs1 : s.Within _ s1 := State.within_setTel ..
  clear_value s1
  exact .mono (.after (State.within_ctr ..) (.after (State.within_put ..) hs1)) (by decide)

theorem State.within_tagPacket (s : State) (p len : ℕ) (k : Pkt) :
    s.Within (.free :: .tel :: ctrParts) ((s.tagPacket p len k).1) := by
  unfold State.tagPacket
  split
  · exact .fstMk (.mono (.refl _) (by decide))
  · split
    · rename_i a2 a3 t4 h5
      have ht4 : s.Within _ t4 := .ofSnd (State.within_draw ..) h5
      split
      · exact .fstMk (.mono ht4 (by decide))
      · split
        · exact .fstMk (.mono (.after (State.within_ctr ..) ht4) (by decide))
        · exact .fstMk (.mono (.after (State.within_tagTake ..) ht4) (by decide))

theorem Io.within_prsCount (s : Io) (p : ℕ) (r : Parsed) (tc : ℕ) (found : Bool) :
    s.Within ctrParts (s.prsCount p r tc found) := by
  unfold Io.prsCount
  extract_lets +onlyGivenNames b h s0
  have hs0 : s.Within _ s0 := Io.within_ctr ..
  clear_value s0
  extract_lets +onlyGivenNames s1
  have hs1 : s.Within _ s1 := .cond (.cond hs0 (.after (Io.within_raise ..) hs0)) (.refl _)
  clear_value s1
  extract_lets +onlyGivenNames s2
  have hs2 : s.Within ctrParts s2 := .mono (.cond (.after (Io.within_ctr ..) hs1) hs1) (by decide)
  clear_value s2
  extract_lets +onlyGivenNames s3
  have hs3 : s.Within _ s3 := .cond (.after (Io.within_ctr ..) hs2) hs2
  clear_value s3
  extract_lets +onlyGivenNames s4
  have hs4 : s.Within ctrParts s4 := .mono (.cond (.after (Io.within_ctr ..) hs3) hs3) (by decide)
  clear_value s4
  split
  · exact .mono hs4 (by decide)
  · extract_lets +onlyGivenNames c s7
    have hs7 : s.Within _ s7 := .after (Io.within_ctr ..) (.after (Io.within_ctr ..) hs4)
    clear_value s7
    extract_lets +onlyGivenNames s8
    have hs8 : s.Within _ s8 := .after (Io.within_filtered ..) hs7
    clear_value s8
    exact .mono (.cond hs8 (.after (Io.within_raise ..) hs8)) (by decide)

theorem State.within_countLookup (s : State) (p tc : ℕ) (lk : Lookup) :
    s.Within ctrParts (s.countLookup p tc lk) := by
  unfold State.countLookup
  extract_lets +onlyGivenNames s0
  have hs0 : s.Within _ s0 := .cond (.refl _) (.upIo (Io.within_event ..))
  clear_value s0
  exact .mono (.cond hs0 (.after (State.within_ctr ..) hs0)) (by decide)

theorem State.within_learnPush (s : State) (p : ℕ) (e : LearnEv) :
    s.Within (.fwd :: ctrParts) (s.learnPush p e) := by
  unfold State.learnPush
  exact .mono (.cond (.after (State.within_raise ..) (State.within_ctr ..)) (State.within_setLearnQ ..)) (by decide)

theorem State.within_sourceSearch (s : State) (p : ℕ) (h : HV) (lk : Lookup) (injected : Bool) :
    s.Within (.fwd :: ctrParts) (s.sourceSearch p h lk injected) := by
  unfold State.sourceSearch
  split
  · exact .mono (.cond (State.within_setL2 ..) (.cond (State.within_learnPush ..) (.refl _))) (by decide)
  · exact .mono (.cond (State.within_learnPush ..) (.refl _)) (by decide)

theorem State.within_retag (s : State) (k : Option ℕ) (f : Tag → Tag) :
    s.Within [.tel] (s.retag k f) := by
  unfold State.retag
  split
  · exact .mono (.refl _) (by decide)
  · split
    · exact .mono (.refl _) (by decide)
    · exact State.within_setTel ..

theorem State.within_updateLine (s : State) (i : ℕ) (f : Line → Line) :
    s.Within [.flow] (s.updateLine i f) := by
  unfold State.updateLine
  extract_lets +onlyGivenNames l
  exact State.within_setCache ..

theorem State.within_repin (s : State) (p i m : ℕ) :
    s.Within (.flow :: ctrParts) (s.repin p i m) := by
  unfold State.repin
  extract_lets +onlyGivenNames s0
  have hs0 : s.Within _ s0 := State.within_updateLine ..
  clear_value s0
  exact .mono (.after (State.within_ctr ..) hs0) (by decide)

theorem State.within_flowlet (s : State) (p : ℕ) (ps : Pass) (rp : Prof) (i : ℕ) (h0 : Line) :
    s.Within (.flow :: ctrParts) (s.flowlet p ps rp i h0) := by
  unfold State.flowlet
  extract_lets +onlyGivenNames gap d now elapsed
  split
  · exact .mono (.refl _) (by decide)
  · split
    · exact .mono (State.within_ctr ..) (by decide)
    · exact .mono (.cond (.refl _) (.cond (State.within_repin ..) (State.within_ctr ..))) (by decide)

theorem State.within_eleAdd (s : State) (p r len : ℕ) :
    s.Within [.tel] (s.eleAdd p r len) := by
  unfold State.eleAdd
  extract_lets +onlyGivenNames put
  extract_lets +onlyGivenNames put0
  split
  · exact State.within_setTel ..
  · split
    · exact State.within_setTel ..
    · extract_lets +onlyGivenNames i
      exact State.within_setTel ..

theorem State.within_flowId (s : State) :
    s.Within [.flow] s.flowId.2 := by
  unfold State.flowId
  exact .sndMk (.mono (State.within_setFlow ..) (by decide))

theorem State.within_submitRemoval (s : State) (r cause pipe : ℕ) :
    s.Within [.flow] (s.submitRemoval r cause pipe) := by
  unfold State.submitRemoval
  extract_lets +onlyGivenNames h
  split
  · exact .mono (.refl _) (by decide)
  · extract_lets +onlyGivenNames c part
    split
    · rename_i a2 a3 t4 h5
      have ht4 : s.Within _ t4 := .ofSnd (State.within_flowId ..) h5
      exact .mono (.after (State.within_setFlow ..) ht4) (by decide)

theorem State.within_teardownAfter (s : State) (p : ℕ) (ps : Pass) (rp : Prof) (d : Option Prof) (r : ℕ) :
    s.Within [.flow] (s.teardownAfter p ps rp d r) := by
  unfold State.teardownAfter
  extract_lets +onlyGivenNames rst
  exact .mono (.cond (State.within_submitRemoval ..) (.refl _)) (by decide)

theorem State.within_edit (s : State) (p : ℕ) (ps : Pass) (rp : Prof) (i : ℕ) (a : Option Prof) :
    s.Within ctrParts ((s.edit p ps rp i a).1) := by
  unfold State.edit
  extract_lets +onlyGivenNames e
  split
  · exact .fstMk (.mono (.refl _) (by decide))
  · extract_lets +onlyGivenNames h lost e3
    exact .fstMk (.mono (.cond (.refl _) (State.within_ctr ..)) (by decide))

theorem State.within_polCount (s : State) (k c n : ℕ) :
    s.Within ctrParts (s.polCount k c n) := by
  unfold State.polCount
  exact .mono (.upIo (Io.within_ctrAt ..)) (by decide)

theorem State.within_police (s : State) (ks : List ℕ) (charge : ℕ) :
    s.Within (.buf :: ctrParts) ((s.police ks charge).1) := by
  unfold State.police
  extract_lets +onlyGivenNames b on short
  split
  · refine .fstMk ?_
    refine .foldl (fun x1 b2 => ?_) (.mono (.refl _) (by decide))
    extract_lets +onlyGivenNames p
    exact .mono (.after (State.within_polCount ..) (.after (State.within_polCount ..) (State.within_setPolicer ..))) (by decide)
  · extract_lets +onlyGivenNames s4
    have hs4 : s.Within _ s4 := .each (fun _ _ => (.after (State.within_polCount ..) (State.within_polCount ..))) (.refl _)
    clear_value s4
    exact .fstMk (.mono (.after (State.within_raiseOnce ..) (.after (State.within_ctr ..) hs4)) (by decide))

theorem State.within_ptpOf (s : State) (p : ℕ) (d : Prof) (e : Ed) :
    s.Within ctrParts ((s.ptpOf p d e).1) := by
  unfold State.ptpOf
  split
  · exact .fstMk (.mono (.refl _) (by decide))
  · split
    · exact .fstMk (.mono (.refl _) (by decide))
    · exact .fstMk (.mono (State.within_ctr ..) (by decide))

theorem State.within_admitStack (s : State) (link cls : ℕ) (c : Copy) (ele : Bool) :
    s.Within (.buf :: ctrParts) ((s.admitStack link cls c ele).1) := by
  unfold State.admitStack
  split
  · exact .fstMk (.mono (.cond (State.within_ctr ..) (.refl _)) (by decide))
  · exact .fstMk (.mono (State.within_enqueue ..) (by decide))

theorem State.within_admitData (s : State) (dev port q hash inPort : ℕ) (mirror : Bool) (c : Copy) (ele : Bool) :
    s.Within (.buf :: ctrParts) ((s.admitData dev port q hash inPort mirror c ele).1) := by
  unfold State.admitData
  split
  · exact .fstMk (.mono (State.within_ctr ..) (by decide))
  · extract_lets +onlyGivenNames h
    exact State.within_admitStack ..

theorem State.within_admitValue (s : State) (v q hash inPort : ℕ) (mirror : Bool) (c : Copy) (ele : Bool) :
    s.Within (.buf :: ctrParts) ((s.admitValue v q hash inPort mirror c ele).1) := by
  unfold State.admitValue
  split
  · exact State.within_admitData ..
  · exact State.within_admitPort ..

theorem State.within_noteUntimed (s : State) :
    s.Within [.nvm] s.noteUntimed := by
  unfold State.noteUntimed
  exact .mono (.cond (.refl _) (.setIo (Io.within_setNvm ..))) (by decide)

theorem State.within_sealUpdate (s : State) (p i tc : ℕ) (ps : Pass) :
    s.Within (.nvm :: .flow :: ctrParts) (s.sealUpdate p i tc ps) := by
  unfold State.sealUpdate
  extract_lets +onlyGivenNames h
  exact .mono (.cond (.after (.upIo (Io.within_event ..)) (.after (State.within_updateLine ..) (State.within_noteUntimed ..))) (.refl _)) (by decide)

theorem State.within_destPort (s : State) (p : ℕ) (ps : Pass) (d : Prof) (e : Ed) (i id v : ℕ) :
    s.Within (.wcount :: .modCnt :: .time :: .nvm :: .buf :: .flow :: .tel :: ctrParts) ((s.destPort p ps d e i id v).1) := by
  unfold State.destPort
  extract_lets +onlyGivenNames h q r ev
  split
  · rename_i a0 t1 a2 h3
    have ht1 : s.Within _ t1 := .ofFst (.after (State.within_police ..) (State.within_refillDue ..)) h3
    split
    · exact .fstMk (.mono (.after (State.within_traceDone ..) (.after (.upIo (Io.within_event ..)) ht1)) (by decide))
    · split
      · rename_i a6 t7 a8 h9
        have ht7 : s.Within _ t7 := .ofFst (.after (State.within_ptpOf ..) ht1) h9
        extract_lets +onlyGivenNames c now ele qe s10
        extract_lets +onlyGivenNames s11
        have hs11 : s.Within _ s11 := .after (State.within_retag ..) ht7
        clear_value s11
        split
        · rename_i a12 t13 a14 h15
          have ht13 : s.Within _ t13 := .ofFst (.after (State.within_admitValue ..) hs11) h15
          split
          · exact .fstMk (.mono (.after (State.within_sealUpdate ..) (.after (.upIo (Io.within_event ..)) ht13)) (by decide))
          · exact .fstMk (.mono (.after (State.within_traceDone ..) (.after (State.within_ctr ..) ht13)) (by decide))

theorem State.within_destHost (s : State) (p : ℕ) (ps : Pass) (d : Prof) (e : Ed) (i id q reason : ℕ) :
    s.Within (.wcount :: .modCnt :: .time :: .buf :: .tel :: ctrParts) ((s.destHost p ps d e i id q reason).1) := by
  unfold State.destHost
  extract_lets +onlyGivenNames h ev
  split
  · rename_i a0 t1 a2 h3
    have ht1 : s.Within _ t1 := .ofFst (.after (State.within_police ..) (State.within_refillDue ..)) h3
    split
    · exact .fstMk (.mono (.after (State.within_traceDone ..) (.after (.upIo (Io.within_event ..)) ht1)) (by decide))
    · extract_lets +onlyGivenNames ts c now s6
      extract_lets +onlyGivenNames s7
      have hs7 : s.Within _ s7 := .after (State.within_retag ..) ht1
      clear_value s7
      split
      · rename_i a8 t9 a10 h11
        have ht9 : s.Within _ t9 := .ofFst (.after (State.within_copyHost ..) hs7) h11
        split
        · exact .fstMk (.mono ht9 (by decide))
        · exact .fstMk (.mono (.after (State.within_traceDone ..) (.after (State.within_ctr ..) ht9)) (by decide))

theorem State.within_destCopy (s : State) (p : ℕ) (ps : Pass) (d : Prof) (e : Ed) (i id : ℕ) (dst : Dest) :
    s.Within (.wcount :: .modCnt :: .time :: .nvm :: .buf :: .flow :: .tel :: ctrParts) ((s.destCopy p ps d e i id dst).1) := by
  unfold State.destCopy
  split
  · exact State.within_destPort ..
  · exact .mono (State.within_destHost ..) (by decide)
  · extract_lets +onlyGivenNames s7
    have hs7 : s.Within _ s7 := State.within_countDrop ..
    clear_value s7
    split
    · rename_i a8 t9 a10 h11
      have ht9 : s.Within _ t9 := .ofFst (.after (State.within_exceptionCopy ..) hs7) h11
      exact .fstMk (.mono (.after (State.within_traceDone ..) ht9) (by decide))

theorem State.within_mirrorCopy (s : State) (p : ℕ) (ps : Pass) (d : Prof) (e : Ed) (i id : ℕ) :
    s.Within (.buf :: ctrParts) ((s.mirrorCopy p ps d e i id).1) := by
  unfold State.mirrorCopy
  split
  · exact .fstMk (.mono (.refl _) (by decide))
  · extract_lets +onlyGivenNames full len c
    split
    · exact .fstMk (.mono (.refl _) (by decide))
    · split
      · rename_i a4 t5 a6 h7
        have ht5 : s.Within _ t5 := .ofFst (State.within_admitValue ..) h7
        exact .fstMk (.mono (.cond (.after (State.within_ctr ..) ht5) ht5) (by decide))

theorem State.within_hostCopyOf (s : State) (p : ℕ) (ps : Pass) (d : Prof) (e : Ed) (i id : ℕ) (toHost : Bool) :
    s.Within (.buf :: ctrParts) ((s.hostCopyOf p ps d e i id toHost).1) := by
  unfold State.hostCopyOf
  split
  · exact .fstMk (.mono (.refl _) (by decide))
  · extract_lets +onlyGivenNames ts
    exact State.within_copyHost ..

theorem State.within_recirculate (s : State) (p : ℕ) (ps : Pass) (e : Ed) (tc : ℕ) :
    s.Within (.buf :: ctrParts) (s.recirculate p ps e tc) := by
  unfold State.recirculate
  extract_lets +onlyGivenNames k s0
  extract_lets +onlyGivenNames s1
  extract_lets +onlyGivenNames s2
  have hs2 : s.Within _ s2 := State.within_setBuf ..
  clear_value s2
  exact .mono (.after (.upIo (Io.within_event ..)) hs2) (by decide)

theorem State.within_lbPinned (s : State) (p : ℕ) (ps : Pass) (rp d : Prof) (i : ℕ) :
    s.Within (.flow :: ctrParts) ((s.lbPinned p ps rp d i).1) := by
  unfold State.lbPinned
  extract_lets +onlyGivenNames a st
  split
  · exact .fstMk (.mono (.refl _) (by decide))
  · split
    · split
      · exact .fstMk (.mono (.refl _) (by decide))
      · exact .fstMk (.mono (State.within_repin ..) (by decide))
    · exact .fstMk (.mono (State.within_submitRemoval ..) (by decide))

theorem State.within_lbDest (s : State) (p : ℕ) (ps : Pass) (rp d : Prof) (i : ℕ) (h0 : Line) :
    s.Within (.flow :: ctrParts) ((s.lbDest p ps rp d i h0).1) := by
  unfold State.lbDest
  split
  · exact .fstMk (.mono (.refl _) (by decide))
  · split
    · exact .fstMk (.mono (.refl _) (by decide))
    · split
      · exact .fstMk (.mono (.refl _) (by decide))
      · exact State.within_lbPinned ..

theorem State.within_destOf (s : State) (p : ℕ) (ps : Pass) (rp d : Prof) (i : ℕ) (h0 : Line) :
    s.Within (.flow :: ctrParts) ((s.destOf p ps rp d i h0).1) := by
  unfold State.destOf
  split
  · exact .fstMk (.mono (.refl _) (by decide))
  · exact .fstMk (.mono (.refl _) (by decide))
  · exact .fstMk (.mono (.refl _) (by decide))
  · split
    · exact State.within_lbDest ..
    · exact .fstMk (.mono (.refl _) (by decide))
  · exact State.within_lbDest ..
  · exact .fstMk (.mono (.refl _) (by decide))

theorem State.within_touch (s : State) (i : ℕ) :
    s.Within [.flow] (s.touch i) := by
  unfold State.touch
  extract_lets +onlyGivenNames r
  refine .foldl (fun x0 b1 => ?_) (.mono (.refl _) (by decide))
  extract_lets +onlyGivenNames l
  exact .mono (.cond (State.within_setCache ..) (.cond (State.within_setCache ..) (.refl _))) (by decide)

theorem State.within_cacheHit (s : State) (p i prio : ℕ) :
    s.Within ctrParts (s.cacheHit p i prio) := by
  unfold State.cacheHit
  exact .mono (.upIo (Io.within_event ..)) (by decide)

theorem State.within_fresh (s : State) :
    s.Within [.fmc] s.fresh.2 := by
  unfold State.fresh
  exact .sndMk (.mono (State.within_setFmc rfl) (by decide))

theorem State.within_issueRead (s : State) (l : Loc) (cls who unit : ℕ) (drain : Bool) :
    s.Within (.fmc :: reportParts) ((s.issueRead l cls who unit drain).2) := by
  unfold State.issueRead
  split
  · rename_i a0 a1 t2 h3
    have ht2 : s.Within _ t2 := .ofSnd (State.within_fresh ..) h3
    extract_lets +onlyGivenNames r
    split
    · exact .sndMk (.mono (.after (State.within_respond ..) (.after (State.within_lineLost ..) ht2)) (by decide))
    · extract_lets +onlyGivenNames r10
      exact .sndMk (.mono (.after (State.within_queueRead ..) (.after (State.within_countFmc ..) ht2)) (by decide))

theorem State.within_readHot (s : State) (p src r : ℕ) (m : Miss) :
    s.Within (.fmc :: .flow :: reportParts) (s.readHot p src r m) := by
  unfold State.readHot
  split
  · rename_i a0 a1 t2 h3
    have ht2 : s.Within _ t2 := .ofSnd (State.within_issueRead ..) h3
    exact .mono (.after (State.within_putMiss ..) ht2) (by decide)

theorem State.within_readBucket (s : State) (p which : ℕ) (m : Miss) :
    s.Within (.fmc :: .flow :: reportParts) (s.readBucket p which m) := by
  unfold State.readBucket
  extract_lets +onlyGivenNames b
  split
  · rename_i a0 a1 t2 h3
    have ht2 : s.Within _ t2 := .ofSnd (State.within_issueRead ..) h3
    exact .mono (.after (State.within_putMiss ..) ht2) (by decide)

theorem State.within_search (s : State) (p : ℕ) (m : Miss) :
    s.Within (.fmc :: .flow :: reportParts) (s.search p m) := by
  unfold State.search
  split
  · exact State.within_readHot ..
  · exact State.within_readBucket ..

theorem State.within_missStart (s : State) (p : ℕ) (ps : Pass) :
    s.Within (.fmc :: .flow :: reportParts) (s.missStart p ps) := by
  unfold State.missStart
  extract_lets +onlyGivenNames m s0
  have hs0 : s.Within _ s0 := State.within_setMisses ..
  clear_value s0
  extract_lets +onlyGivenNames s1
  have hs1 : s.Within _ s1 := .after (.upIo (Io.within_event ..)) hs0
  clear_value s1
  exact .mono (.after (State.within_search ..) hs1) (by decide)

theorem State.within_fallback' (s : State) :
    s.Within ctrParts s.fallback' := by
  unfold State.fallback'
  exact .mono (.after (State.within_raiseOnce ..) (State.within_ctr ..)) (by decide)

theorem State.within_countFound (s : State) (p src : ℕ) (again : Bool) :
    s.Within ctrParts ((s.countFound p src again).1) := by
  unfold State.countFound
  extract_lets +onlyGivenNames s0
  have hs0 : s.Within _ s0 := .cond (State.within_ctr ..) (.refl _)
  clear_value s0
  extract_lets +onlyGivenNames x
  have hx : s.Within ctrParts x.1 := by
    unfold x
    split
    · exact .fstMk (.mono (.after (State.within_ctr ..) hs0) (by decide))
    · exact .fstMk (.mono (.after (State.within_ctr ..) hs0) (by decide))
    · exact .fstMk (.mono hs0 (by decide))
    · exact .fstMk (.mono (.after (State.within_ctr ..) hs0) (by decide))
  clear_value x
  exact .fstMk (.mono hx (by decide))

theorem State.within_l2Event (s : State) (ev p fid mac new old moves idx : ℕ) :
    s.Within [.regs, .wcount, .modCnt, .pcie, .out] (s.l2Event ev p fid mac new old moves idx) := by
  unfold State.l2Event
  exact .mono (.upIo (Io.within_ringPut ..)) (by decide)

theorem State.within_learnNew (s : State) (p : ℕ) (e : LearnEv) :
    s.Within (.wcount :: .modCnt :: .fwd :: ctrParts) (s.learnNew p e) := by
  unfold State.learnNew
  extract_lets +onlyGivenNames b
  split
  · exact .mono (.after (State.within_l2Event ..) (.after (State.within_raise ..) (State.within_ctr ..))) (by decide)
  · exact .mono (.after (State.within_l2Event ..) (.after (State.within_ctr ..) (State.within_setL2 ..))) (by decide)

theorem State.within_learnMove (s : State) (p : ℕ) (ev : LearnEv) (i : ℕ) (e : BitVec 80) :
    s.Within (.wcount :: .modCnt :: .fwd :: ctrParts) (s.learnMove p ev i e) := by
  unfold State.learnMove
  extract_lets +onlyGivenNames b mm
  split
  · exact .mono (.after (State.within_l2Event ..) (State.within_ctr ..)) (by decide)
  · split
    · exact .mono (State.within_ctr ..) (by decide)
    · split
      · extract_lets +onlyGivenNames mv
        exact .mono (.after (State.within_l2Event ..) (.after (State.within_ctr ..) (State.within_setL2 ..))) (by decide)
      · extract_lets +onlyGivenNames hold
        exact .mono (.after (State.within_l2Event ..) (.after (State.within_raise ..) (State.within_setL2 ..))) (by decide)

theorem State.within_learnTake (s : State) (p : ℕ) :
    s.Within (.wcount :: .modCnt :: .fwd :: ctrParts) (s.learnTake p) := by
  unfold State.learnTake
  split
  · exact .mono (.refl _) (by decide)
  · extract_lets +onlyGivenNames s6
    have hs6 : s.Within _ s6 := State.within_setLearnQ ..
    clear_value s6
    split
    · exact .mono (.after (State.within_learnNew ..) hs6) (by decide)
    · exact .mono (.cond (.after (State.within_setL2 ..) hs6) (.after (State.within_learnMove ..) hs6)) (by decide)

theorem State.within_ageVisit (s : State) (p i : ℕ) :
    s.Within (.wcount :: .modCnt :: .fwd :: ctrParts) (s.ageVisit p i) := by
  unfold State.ageVisit
  extract_lets +onlyGivenNames b e mx
  exact .mono (.cond (.refl _) (.cond (State.within_setL2 ..) (.cond (.refl _) (.cond (.after (State.within_l2Event ..) (.after (State.within_ctr ..) (State.within_setL2 ..))) (State.within_setL2 ..))))) (by decide)

theorem State.within_flapEntry (s : State) (p i : ℕ) :
    s.Within [.regs, .wcount, .modCnt, .pcie, .out, .fwd] (s.flapEntry p i) := by
  unfold State.flapEntry
  extract_lets +onlyGivenNames e
  exact .mono (.cond (State.within_setL2 ..) (.cond (.after (State.within_l2Event ..) (State.within_setL2 ..)) (State.within_setL2 ..))) (by decide)

theorem State.within_flapWindow (s : State) (p : ℕ) :
    s.Within [.regs, .wcount, .modCnt, .pcie, .out, .fwd] (s.flapWindow p) := by
  unfold State.flapWindow
  exact .mono (.each (fun _ _ => (State.within_flapEntry ..)) (.refl _)) (by decide)

theorem State.within_setUpset (s : State) (k : ArrayKind) (p i m : ℕ) :
    s.Within [.fwd] (s.setUpset k p i m) := by
  unfold State.setUpset
  exact State.within_setFwd rfl

theorem State.within_strike (s : State) (k : ArrayKind) (p : ℕ) (l : List (ℕ × BitVec 512)) :
    s.Within [.fwd] (s.strike k p l) := by
  unfold State.strike
  exact .mono (.each (fun _ _ => (State.within_setUpset ..)) (.refl _)) (by decide)

theorem State.within_setClsOn (s : State) (p i b : ℕ) (v : Bool) :
    s.Within [.fwd] (s.setClsOn p i b v) := by
  unfold State.setClsOn
  exact State.within_setFwd rfl

theorem State.within_setLpm (s : State) (b : ℕ) (l : List LpmEntry) :
    s.Within [.fwd] (s.setLpm b l) := by
  unfold State.setLpm
  extract_lets +onlyGivenNames old
  exact State.within_setFwd rfl

theorem State.within_scanLost (s : State) (k : ArrayKind) (p i : ℕ) :
    s.Within (.fwd :: reportParts) (s.scanLost k p i) := by
  unfold State.scanLost
  extract_lets +onlyGivenNames s0
  have hs0 : s.Within _ s0 := State.within_setUpset ..
  clear_value s0
  split
  · extract_lets +onlyGivenNames b s2
    have hs2 : s.Within _ s2 := .after (State.within_setClsOn ..) (.after (State.within_setClsOn ..) hs0)
    clear_value s2
    exact .mono (.after (State.within_report ..) (.after (State.within_raise ..) (.after (State.within_put ..) (.after (State.within_bump ..) hs2)))) (by decide)
  · extract_lets +onlyGivenNames b s4
    have hs4 : s.Within _ s4 := .after (State.within_setL2 ..) hs0
    clear_value s4
    exact .mono (.after (State.within_report ..) (.after (State.within_raise ..) (.after (State.within_put ..) (.after (State.within_bump ..) hs4)))) (by decide)
  · extract_lets +onlyGivenNames b s6
    have hs6 : s.Within _ s6 := .after (State.within_setLpm ..) hs0
    clear_value s6
    exact .mono (.after (State.within_report ..) (.after (State.within_raise ..) (.after (State.within_put ..) (.after (State.within_bump ..) hs6)))) (by decide)

theorem State.within_scanFix (s : State) (k : ArrayKind) (p i : ℕ) :
    s.Within (.fwd :: reportParts) (s.scanFix k p i) := by
  unfold State.scanFix
  extract_lets +onlyGivenNames s0
  have hs0 : s.Within _ s0 := State.within_setUpset ..
  clear_value s0
  split
  · exact .mono (.after (State.within_report ..) (.after (State.within_raise ..) (.after (State.within_put ..) (.after (State.within_ctr ..) hs0)))) (by decide)
  · exact .mono (.after (State.within_report ..) (.after (State.within_raise ..) (.after (State.within_put ..) (.after (State.within_ctr ..) hs0)))) (by decide)
  · extract_lets +onlyGivenNames b
    exact .mono (.after (State.within_report ..) (.after (State.within_raise ..) (.after (State.within_put ..) (.after (State.within_ctr ..) hs0)))) (by decide)

theorem State.within_scanVisit (s : State) (k : ArrayKind) (p i : ℕ) (shadowBad : Bool) (strikes : List (ℕ × BitVec 512)) :
    s.Within (.fwd :: reportParts) (s.scanVisit k p i shadowBad strikes) := by
  unfold State.scanVisit
  exact .mono (.after (State.within_strike ..) (.cond (.refl _) (.cond (State.within_scanLost ..) (State.within_scanFix ..)))) (by decide)

theorem State.within_holdWait (s : State) (c : Cmd) :
    s.Within [.jobs] (s.holdWait c) := by
  unfold State.holdWait
  exact State.within_setJobs ..

theorem State.within_countPart (s : State) (p : Option ℕ) :
    s.Within ctrParts (s.countPart p) := by
  unfold State.countPart
  split
  · exact .mono (.refl _) (by decide)
  · exact .mono (.upIo (Io.within_event ..)) (by decide)

theorem State.within_clsRead (s : State) (c : Cmd) (p : ℕ) :
    s.Within [] ((s.clsRead c p).1) := by
  unfold State.clsRead
  extract_lets +onlyGivenNames i
  split
  · exact .fstMk (.mono (.refl _) (by decide))
  · split
    · exact .fstMk (.mono (.refl _) (by decide))
    · extract_lets +onlyGivenNames f
      split
      · exact .fstMk (.mono (.refl _) (by decide))
      · exact .fstMk (.mono (.refl _) (by decide))

theorem State.within_clsSetValid (s : State) (p i : ℕ) (v : Bool) :
    s.Within [.fwd] (s.clsSetValid p i v) := by
  unfold State.clsSetValid
  exact .mono (.each (fun _ _ => (State.within_setClsOn ..)) (.refl _)) (by decide)

theorem State.within_setCls (s : State) (p i : ℕ) (v : BitVec 384) :
    s.Within [.fwd] (s.setCls p i v) := by
  unfold State.setCls
  exact State.within_setFwd rfl

theorem State.within_clsWrite (s : State) (c : Cmd) (p : ℕ) :
    s.Within [.fwd] ((s.clsWrite c p).1) := by
  unfold State.clsWrite
  extract_lets +onlyGivenNames i
  split
  · exact .fstMk (.mono (.refl _) (by decide))
  · split
    · exact .fstMk (.mono (.refl _) (by decide))
    · extract_lets +onlyGivenNames v im
      split
      · split
        · exact .fstMk (.mono (State.within_clsSetValid ..) (by decide))
        · exact .fstMk (.mono (.refl _) (by decide))
      · exact .fstMk (.mono (.after (State.within_clsSetValid ..) (State.within_setCls ..)) (by decide))

theorem State.within_clsDelete (s : State) (c : Cmd) (p : ℕ) :
    s.Within [.fwd] ((s.clsDelete c p).1) := by
  unfold State.clsDelete
  split
  · exact .fstMk (.mono (.refl _) (by decide))
  · exact .fstMk (.mono (State.within_clsSetValid ..) (by decide))

theorem State.within_clsSearch (s : State) (c : Cmd) (p : ℕ) :
    s.Within [] ((s.clsSearch c p).1) := by
  unfold State.clsSearch
  split
  · exact .fstMk (.mono (.refl _) (by decide))
  · split
    · exact .fstMk (.mono (.refl _) (by decide))
    · extract_lets +onlyGivenNames a b pr
      split
      · exact .fstMk (.mono (.refl _) (by decide))
      · exact .fstMk (.mono (.refl _) (by decide))

theorem State.within_clsMove (s : State) (c : Cmd) (p : ℕ) :
    s.Within [.fwd] ((s.clsMove c p).1) := by
  unfold State.clsMove
  extract_lets +onlyGivenNames src dst
  split
  · exact .fstMk (.mono (.refl _) (by decide))
  · split
    · exact .fstMk (.mono (.refl _) (by decide))
    · split
      · exact .fstMk (.mono (.refl _) (by decide))
      · split
        · exact .fstMk (.mono (.refl _) (by decide))
        · extract_lets +onlyGivenNames s1
          have hs1 : s.Within _ s1 := State.within_setCls ..
          clear_value s1
          extract_lets +onlyGivenNames s2
          have hs2 : s.Within _ s2 := .after (State.within_setClsOn ..) (.after (State.within_setClsOn ..) hs1)
          clear_value s2
          exact .fstMk (.mono (.after (State.within_setCls ..) (.after (State.within_setClsOn ..) (.after (State.within_setClsOn ..) hs2))) (by decide))

theorem State.within_profRead (s : State) (c : Cmd) (p : ℕ) :
    s.Within [] ((s.profRead c p).1) := by
  unfold State.profRead
  split
  · exact .fstMk (.mono (.refl _) (by decide))
  · split
    · exact .fstMk (.mono (.refl _) (by decide))
    · extract_lets +onlyGivenNames b
      exact .fstMk (.mono (.refl _) (by decide))

theorem State.within_actRead (s : State) (c : Cmd) (p : ℕ) :
    s.Within [] ((s.actRead c p).1) := by
  unfold State.actRead
  extract_lets +onlyGivenNames i
  split
  · extract_lets +onlyGivenNames f
    split
    · exact .fstMk (.mono (.refl _) (by decide))
    · exact .fstMk (.mono (.refl _) (by decide))
  · split
    · exact .fstMk (.mono (.refl _) (by decide))
    · split
      · exact .fstMk (.mono (.refl _) (by decide))
      · exact .fstMk (.mono (.refl _) (by decide))

theorem State.within_setProfOn (s : State) (p i b : ℕ) (v : Bool) :
    s.Within [.fwd] (s.setProfOn p i b v) := by
  unfold State.setProfOn
  exact State.within_setFwd rfl

theorem State.within_profSetValid (s : State) (p i : ℕ) (v : Bool) :
    s.Within [.fwd] (s.profSetValid p i v) := by
  unfold State.profSetValid
  exact .mono (.each (fun _ _ => (State.within_setProfOn ..)) (.refl _)) (by decide)

theorem State.within_setProf (s : State) (p i : ℕ) (v : Prof) :
    s.Within [.fwd] (s.setProf p i v) := by
  unfold State.setProf
  exact State.within_setFwd rfl

theorem State.within_profStore (s : State) (c : Cmd) (p i : ℕ) :
    s.Within [.fwd] ((s.profStore c p i).1) := by
  unfold State.profStore
  extract_lets +onlyGivenNames im on
  split
  · exact .fstMk (.mono (.refl _) (by decide))
  · split
    · exact .fstMk (.mono (.refl _) (by decide))
    · split
      · split
        · exact .fstMk (.mono (State.within_profSetValid ..) (by decide))
        · exact .fstMk (.mono (.refl _) (by decide))
      · exact .fstMk (.mono (.after (State.within_profSetValid ..) (State.within_setProf ..)) (by decide))

theorem State.within_tmplWrite (s : State) (c : Cmd) (p t : ℕ) :
    s.Within [.fwd, .act] ((s.tmplWrite c p t).1) := by
  unfold State.tmplWrite
  split
  · exact .fstMk (.mono (.refl _) (by decide))
  · extract_lets +onlyGivenNames d typ len lenOk
    split
    · exact .fstMk (.mono (.refl _) (by decide))
    · split
      · exact .fstMk (.mono (.refl _) (by decide))
      · split
        · exact .fstMk (.mono (.refl _) (by decide))
        · exact .fstMk (.mono (State.within_setFwdAct rfl) (by decide))

theorem State.within_actWrite (s : State) (c : Cmd) (p : ℕ) :
    s.Within [.fwd, .act] ((s.actWrite c p).1) := by
  unfold State.actWrite
  extract_lets +onlyGivenNames i
  split
  · exact .mono (State.within_profStore ..) (by decide)
  · split
    · exact .fstMk (.mono (.refl _) (by decide))
    · exact State.within_tmplWrite ..

theorem State.within_actDelete (s : State) (c : Cmd) (p : ℕ) :
    s.Within [.fwd] ((s.actDelete c p).1) := by
  unfold State.actDelete
  split
  · exact .fstMk (.mono (.refl _) (by decide))
  · exact .fstMk (.mono (State.within_profSetValid ..) (by decide))

theorem State.within_l2Read (s : State) (c : Cmd) (p : ℕ) :
    s.Within [] ((s.l2Read c p).1) := by
  unfold State.l2Read
  split
  · split
    · exact .fstMk (.mono (.refl _) (by decide))
    · exact .fstMk (.mono (.refl _) (by decide))

theorem State.within_l2Write (s : State) (c : Cmd) (p : ℕ) :
    s.Within [.fwd] ((s.l2Write c p).1) := by
  unfold State.l2Write
  split
  · extract_lets +onlyGivenNames e
    split
    · exact .fstMk (.mono (State.within_setL2 ..) (by decide))
    · split
      · exact .fstMk (.mono (State.within_setL2 ..) (by decide))
      · exact .fstMk (.mono (.refl _) (by decide))

theorem State.within_l2Delete (s : State) (c : Cmd) (p : ℕ) :
    s.Within [.fwd] ((s.l2Delete c p).1) := by
  unfold State.l2Delete
  split
  · split
    · exact .fstMk (.mono (State.within_setL2 ..) (by decide))
    · exact .fstMk (.mono (.refl _) (by decide))

theorem State.within_l2Flush (s : State) (c : Cmd) (p : ℕ) :
    s.Within [.fwd] ((s.l2Flush c p).1) := by
  unfold State.l2Flush
  extract_lets +onlyGivenNames port fid st hit
  exact .fstMk (.mono (.each (fun _ _ => (State.within_setL2 ..)) (.refl _)) (by decide))

theorem State.within_l2ReadAt (s : State) (c : Cmd) (p : ℕ) :
    s.Within [] ((s.l2ReadAt c p).1) := by
  unfold State.l2ReadAt
  extract_lets +onlyGivenNames i e
  split
  · exact .fstMk (.mono (.refl _) (by decide))
  · exact .fstMk (.mono (.refl _) (by decide))

theorem State.within_lpmWrite (s : State) (c : Cmd) (b : ℕ) :
    s.Within (.fwd :: ctrParts) ((s.lpmWrite c b).1) := by
  unfold State.lpmWrite
  split
  · exact .fstMk (.mono (.refl _) (by decide))
  · extract_lets +onlyGivenNames l
    split
    · exact .fstMk (.mono (State.within_setLpm ..) (by decide))
    · split
      · exact .fstMk (.mono (State.within_setLpm ..) (by decide))
      · split
        · exact .fstMk (.mono (State.within_raise ..) (by decide))
        · split
          · extract_lets +onlyGivenNames s22
            have hs22 : s.Within _ s22 := .after (State.within_ctr ..) (State.within_setLpm ..)
            clear_value s22
            exact .fstMk (.mono hs22 (by decide))

theorem State.within_lpmDelete (s : State) (c : Cmd) (b : ℕ) :
    s.Within (.fwd :: ctrParts) ((s.lpmDelete c b).1) := by
  unfold State.lpmDelete
  split
  · exact .fstMk (.mono (.refl _) (by decide))
  · extract_lets +onlyGivenNames l
    split
    · exact .fstMk (.mono (.refl _) (by decide))
    · split
      · exact .fstMk (.mono (.after (State.within_ctr ..) (State.within_setLpm ..)) (by decide))

theorem State.within_lpmRead (s : State) (c : Cmd) (b : ℕ) :
    s.Within [] ((s.lpmRead c b).1) := by
  unfold State.lpmRead
  split
  · exact .fstMk (.mono (.refl _) (by decide))
  · split
    · exact .fstMk (.mono (.refl _) (by decide))
    · exact .fstMk (.mono (.refl _) (by decide))

theorem State.within_lpmSearch (s : State) (c : Cmd) (b : ℕ) :
    s.Within [] ((s.lpmSearch c b).1) := by
  unfold State.lpmSearch
  split
  · exact .fstMk (.mono (.refl _) (by decide))
  · exact .fstMk (.mono (.refl _) (by decide))

theorem State.within_submitClaim (s : State) (src hash key : ℕ) (block : List Byte) (action cls : ℕ) (origLow : Bool) (owner : ℕ) :
    s.Within [.flow] ((s.submitClaim src hash key block action cls origLow owner).2) := by
  unfold State.submitClaim
  split
  · rename_i a0 a1 t2 h3
    have ht2 : s.Within _ t2 := .ofSnd (State.within_flowId ..) h3
    exact .sndMk (.mono (.after (State.within_setClaims ..) ht2) (by decide))

theorem State.within_writeAbsent (s : State) (q : ℕ) (c : Cmd) (hash key : ℕ) :
    s.Within [.regs, .wcount, .modCnt, .pcie, .out, .flow, .jobs] (s.writeAbsent q c hash key) := by
  unfold State.writeAbsent
  split
  · exact .mono (State.within_endCmd ..) (by decide)
  · split
    · exact .mono (State.within_endCmd ..) (by decide)
    · extract_lets +onlyGivenNames im
      exact .mono (State.within_submitClaim ..) (by decide)

theorem State.within_startPush (s : State) (r hash key : ℕ) :
    s.Within (.tel :: ctrParts) (s.startPush r hash key) := by
  unfold State.startPush
  exact .mono (.cond (.refl _) (.cond (.after (State.within_raiseOnce ..) (State.within_ctr ..)) (State.within_setStartQ ..))) (by decide)

theorem State.within_holdCmd (s : State) (c : Cmd) (op : ℕ) :
    s.Within [.jobs] (s.holdCmd c op) := by
  unfold State.holdCmd
  exact State.within_setJobs ..

theorem State.within_flowWalk (s : State) (c : Cmd) :
    s.Within [.free] ((s.flowWalk c).1) := by
  unfold State.flowWalk
  extract_lets +onlyGivenNames n start
  split
  · exact .fstMk (.mono (.refl _) (by decide))
  · split
    · exact .fstMk (.mono (.refl _) (by decide))
    · extract_lets +onlyGivenNames l d
      have hd : s.Within _ d.2 := State.within_draw ..
      clear_value d
      extract_lets +onlyGivenNames out
      exact .fstMk (.mono hd (by decide))

theorem State.within_accountSealed (s : State) (a0 : Cmd) (a1 : ℕ) :
    s.Within [] ((s.accountSealed a0 a1).1) := by
  unfold State.accountSealed
  exact .fstMk (.mono (.refl _) (by decide))

theorem State.within_mapRead (s : State) (c : Cmd) (a0 : ℕ) :
    s.Within [] ((s.mapRead c a0).1) := by
  unfold State.mapRead
  split
  · exact .fstMk (.mono (.refl _) (by decide))
  · split
    · exact .fstMk (.mono (.refl _) (by decide))
    · exact .fstMk (.mono (.refl _) (by decide))

theorem State.within_mapWrite (s : State) (c : Cmd) (a0 : ℕ) :
    s.Within [.regs, .qnc] ((s.mapWrite c a0).1) := by
  unfold State.mapWrite
  split
  · exact .fstMk (.mono (.refl _) (by decide))
  · split
    · exact .fstMk (.mono (.refl _) (by decide))
    · split
      · exact .fstMk (.mono (.refl _) (by decide))
      · split
        · exact .fstMk (.mono (.refl _) (by decide))
        · extract_lets +onlyGivenNames s11
          have hs11 : s.Within _ s11 := State.within_upQnc ..
          clear_value s11
          exact .fstMk (.mono (.after (State.within_bump ..) hs11) (by decide))

theorem State.within_lbRead (s : State) (c : Cmd) (a0 : ℕ) :
    s.Within [] ((s.lbRead c a0).1) := by
  unfold State.lbRead
  split
  · exact .fstMk (.mono (.refl _) (by decide))
  · exact .fstMk (.mono (.refl _) (by decide))

theorem State.within_setSlot (s : State) (pool i v : ℕ) :
    s.Within [.act] (s.setSlot pool i v) := by
  unfold State.setSlot
  exact State.within_setAct ..

theorem State.within_lbWrite (s : State) (c : Cmd) (a0 : ℕ) :
    s.Within [.act] ((s.lbWrite c a0).1) := by
  unfold State.lbWrite
  split
  · exact .fstMk (.mono (.refl _) (by decide))
  · extract_lets +onlyGivenNames ws
    split
    · exact .fstMk (.mono (.refl _) (by decide))
    · exact .fstMk (.mono (.each (fun _ _ => (State.within_setSlot ..)) (.refl _)) (by decide))

theorem State.within_setMember (s : State) (m v : ℕ) :
    s.Within [.act] (s.setMember m v) := by
  unfold State.setMember
  exact State.within_setAct ..

theorem State.within_lbWriteMember (s : State) (c : Cmd) (a0 : ℕ) :
    s.Within [.act] ((s.lbWriteMember c a0).1) := by
  unfold State.lbWriteMember
  extract_lets +onlyGivenNames w
  split
  · exact .fstMk (.mono (.refl _) (by decide))
  · extract_lets +onlyGivenNames s2
    have hs2 : s.Within _ s2 := State.within_setMember ..
    clear_value s2
    exact .fstMk (.mono (.after (State.within_setAct ..) hs2) (by decide))

theorem State.within_lbSetState (s : State) (c : Cmd) (a0 : ℕ) :
    s.Within [.act] ((s.lbSetState c a0).1) := by
  unfold State.lbSetState
  exact .fstMk (.mono (State.within_setMember ..) (by decide))

theorem State.within_lbWritePool (s : State) (c : Cmd) (a0 : ℕ) :
    s.Within [.act] ((s.lbWritePool c a0).1) := by
  unfold State.lbWritePool
  exact .fstMk (.mono (State.within_setAct ..) (by decide))

theorem State.within_lbReadMember (s : State) (c : Cmd) (a0 : ℕ) :
    s.Within [] ((s.lbReadMember c a0).1) := by
  unfold State.lbReadMember
  exact .fstMk (.mono (.refl _) (by decide))

theorem State.within_natReadPool (s : State) (c : Cmd) (a0 : ℕ) :
    s.Within [] ((s.natReadPool c a0).1) := by
  unfold State.natReadPool
  exact .fstMk (.mono (.refl _) (by decide))

theorem State.within_natWritePool (s : State) (c : Cmd) (a0 : ℕ) :
    s.Within [.act] ((s.natWritePool c a0).1) := by
  unfold State.natWritePool
  extract_lets +onlyGivenNames n v w old held past
  split
  · exact .fstMk (.mono (.refl _) (by decide))
  · split
    · exact .fstMk (.mono (.refl _) (by decide))
    · split
      · exact .fstMk (.mono (.refl _) (by decide))
      · split
        · exact .fstMk (.mono (.refl _) (by decide))
        · exact .fstMk (.mono (State.within_setAct ..) (by decide))

theorem State.within_natSearch (s : State) (c : Cmd) (a0 : ℕ) :
    s.Within [] ((s.natSearch c a0).1) := by
  unfold State.natSearch
  split
  · exact .fstMk (.mono (.refl _) (by decide))
  · extract_lets +onlyGivenNames l
    exact .fstMk (.mono (.refl _) (by decide))

theorem State.within_natReadBlock (s : State) (c : Cmd) (a0 : ℕ) :
    s.Within [] ((s.natReadBlock c a0).1) := by
  unfold State.natReadBlock
  exact .fstMk (.mono (.refl _) (by decide))

theorem State.within_natWriteAddr (s : State) (c : Cmd) (a0 : ℕ) :
    s.Within [.act] ((s.natWriteAddr c a0).1) := by
  unfold State.natWriteAddr
  extract_lets +onlyGivenNames n j w mine
  split
  · exact .fstMk (.mono (.refl _) (by decide))
  · exact .fstMk (.mono (State.within_setAct ..) (by decide))

theorem State.within_natWritePfx (s : State) (c : Cmd) (a0 : ℕ) :
    s.Within [.act] ((s.natWritePfx c a0).1) := by
  unfold State.natWritePfx
  extract_lets +onlyGivenNames len
  split
  · exact .fstMk (.mono (.refl _) (by decide))
  · exact .fstMk (.mono (State.within_setAct ..) (by decide))

theorem State.within_zoneRead (s : State) (c : Cmd) (p : ℕ) :
    s.Within [] ((s.zoneRead c p).1) := by
  unfold State.zoneRead
  split
  · exact .fstMk (.mono (.refl _) (by decide))
  · split
    · exact .fstMk (.mono (.refl _) (by decide))
    · exact .fstMk (.mono (.refl _) (by decide))

theorem State.within_zoneWrite (s : State) (c : Cmd) (p : ℕ) :
    s.Within [.act] ((s.zoneWrite c p).1) := by
  unfold State.zoneWrite
  split
  · exact .fstMk (.mono (State.within_setAct ..) (by decide))
  · split
    · exact .fstMk (.mono (State.within_setAct ..) (by decide))
    · exact .fstMk (.mono (.refl _) (by decide))

theorem State.within_startClaim (s : State) (c : Claim) :
    s.Within (.fmc :: .flow :: reportParts) (s.startClaim c) := by
  unfold State.startClaim
  extract_lets +onlyGivenNames b1 b2
  split
  · extract_lets +onlyGivenNames s1
    have hs1 : s.Within _ s1 := .after (State.within_lock ..) (State.within_lock ..)
    clear_value s1
    split
    · rename_i a2 a3 t4 h5
      have ht4 : s.Within _ t4 := .ofSnd (.after (State.within_issueRead ..) hs1) h5
      split
      · rename_i a6 a7 t8 h9
        have ht8 : s.Within _ t8 := .ofSnd (.after (State.within_issueRead ..) ht4) h9
        exact .mono (.after (State.within_putClaim ..) ht8) (by decide)
  · exact .mono (.refl _) (by decide)

theorem State.within_claimStart (s : State) :
    s.Within (.fmc :: .flow :: reportParts) s.claimStart := by
  unfold State.claimStart
  split
  · exact State.within_startClaim ..
  · split
    · exact .mono (.refl _) (by decide)
    · split
      · exact .mono (.refl _) (by decide)
      · exact .mono (.after (State.within_startClaim ..) (State.within_setFlow ..)) (by decide)

theorem State.within_writeHeader (s : State) (c : Claim) :
    s.Within (.fmc :: .flow :: ctrParts) (s.writeHeader c) := by
  unfold State.writeHeader
  split
  · extract_lets +onlyGivenNames s1
    have hs1 : s.Within _ s1 := .after (State.within_ctr ..) (State.within_setStash ..)
    clear_value s1
    exact .mono (.after (State.within_answer ..) hs1) (by decide)
  · extract_lets +onlyGivenNames l v
    exact .mono (.after (State.within_putClaim ..) (State.within_issueWrite ..)) (by decide)

theorem State.within_fenceClose (s : State) :
    s.Within [.regs, .flow] s.fenceClose := by
  unfold State.fenceClose
  split
  · exact .mono (.refl _) (by decide)
  · exact State.within_setFences ..

theorem State.within_drainTo (s : State) (e b i : ℕ) (v : Line) :
    s.Within [.fmc, .flow] (s.drainTo e b i v) := by
  unfold State.drainTo
  extract_lets +onlyGivenNames h v0 s1
  have hs1 : s.Within _ s1 := State.within_issueWrite ..
  clear_value s1
  extract_lets +onlyGivenNames s2
  have hs2 : s.Within _ s2 := .after (State.within_lock ..) (.after (State.within_lock ..) hs1)
  clear_value s2
  exact .mono (.after (State.within_setFlow ..) hs2) (by decide)

theorem State.within_countRemoval (s : State) (cause : ℕ) :
    s.Within ctrParts (s.countRemoval cause) := by
  unfold State.countRemoval
  split
  · exact State.within_ctr ..
  · exact State.within_ctr ..
  · exact State.within_ctr ..

theorem State.within_removalWait (s : State) :
    s.Within [.flow] s.removalWait := by
  unfold State.removalWait
  split
  · exact .mono (.refl _) (by decide)
  · exact State.within_setFlow ..

theorem State.within_endRecord (s : State) (r : ℕ) (hot cold : Line) (cause : ℕ) :
    s.Within (.wcount :: .modCnt :: .tel :: ctrParts) (s.endRecord r hot cold cause) := by
  unfold State.endRecord
  split
  · exact .mono (.refl _) (by decide)
  · extract_lets +onlyGivenNames f s2
    have hs2 : s.Within _ s2 := .after (State.within_ctr ..) (State.within_ipfixAdd ..)
    clear_value s2
    extract_lets +onlyGivenNames mine gone
    exact .mono (.cond hs2 (.after (State.within_ctr ..) (.after (State.within_setStartQ ..) hs2))) (by decide)

theorem State.within_teardownBlock (s : State) (td : ℕ) :
    s.Within [.act] (s.teardownBlock td) := by
  unfold State.teardownBlock
  exact .mono (.cond (State.within_blockLeave ..) (.refl _)) (by decide)

theorem State.within_dropRemoval (s : State) (id : ℕ) :
    s.Within [.flow] (s.dropRemoval id) := by
  unfold State.dropRemoval
  exact State.within_setFlow ..

theorem State.within_beginRoutine (s : State) (q c evt : ℕ) (f : Ctx → Ctx) :
    s.Within (.pip :: ctrParts) (s.beginRoutine q c evt f) := by
  unfold State.beginRoutine
  extract_lets +onlyGivenNames s0
  have hs0 : s.Within _ s0 := State.within_setCtx ..
  clear_value s0
  exact .mono (.after (State.within_pipStat ..) (.after (State.within_ctr ..) hs0)) (by decide)

theorem State.within_startGlobal (s : State) :
    s.Within (.pip :: ctrParts) s.startGlobal := by
  unfold State.startGlobal
  split
  · exact .mono (.refl _) (by decide)
  · extract_lets +onlyGivenNames s6
    extract_lets +onlyGivenNames s7
    have hs7 : s.Within _ s7 := State.within_setPip ..
    clear_value s7
    exact .mono (.after (State.within_beginRoutine ..) hs7) (by decide)

theorem State.within_startSetup (s : State) (q : ℕ) :
    s.Within (.flow :: .pip :: ctrParts) (s.startSetup q) := by
  unfold State.startSetup
  split
  · exact .mono (.refl _) (by decide)
  · split
    · exact .mono (.cond (.refl _) (.after (State.within_beginRoutine ..) (State.within_putMiss ..))) (by decide)
    · exact .mono (.refl _) (by decide)

theorem State.within_faultCap (s : State) (q c code u : ℕ) :
    s.Within [.regs] (s.faultCap q c code u) := by
  unfold State.faultCap
  extract_lets +onlyGivenNames b
  split
  · exact .mono (.refl _) (by decide)
  · extract_lets +onlyGivenNames x
    exact .mono (.upIo (Io.within_wr ..)) (by decide)

theorem State.within_countFault (s : State) (q code : ℕ) :
    s.Within ctrParts (s.countFault q code) := by
  unfold State.countFault
  extract_lets +onlyGivenNames b s0
  have hs0 : s.Within _ s0 := .after (State.within_raiseOnce ..) (State.within_ctr ..)
  clear_value s0
  exact .mono (.cond (.after (State.within_raiseOnce ..) (.after (State.within_ctr ..) hs0)) hs0) (by decide)

theorem State.within_journal (s : State) (code ctx : ℕ) (g : List ℕ) :
    s.Within (.wcount :: .modCnt :: .policy :: ctrParts) (s.journal code ctx g) := by
  unfold State.journal
  extract_lets +onlyGivenNames n e e1 e2 s0
  extract_lets +onlyGivenNames s1
  have hs1 : s.Within _ s1 := State.within_setPolicy ..
  clear_value s1
  exact .mono (.after (.upIo (Io.within_ringPut ..)) (.after (State.within_ctr ..) hs1)) (by decide)

theorem State.within_ckptMax (s : State) (q : ℕ) (a0 : Ctx) :
    s.Within [.regs] (s.ckptMax q a0) := by
  unfold State.ckptMax
  split
  · exact .mono (.refl _) (by decide)
  · exact .mono (.upIo (Io.within_maxTo ..)) (by decide)

theorem State.within_countStep (s : State) (q c : ℕ) :
    s.Within (.pip :: ctrParts) (s.countStep q c) := by
  unfold State.countStep
  exact .mono (.after (State.within_ctr ..) (State.within_upCtx ..)) (by decide)

theorem State.within_storeWindow (s : State) (a v : ℕ) :
    s.Within [.regs] (s.storeWindow a v) := by
  unfold State.storeWindow
  exact .mono (.cond (.cond (State.within_effWrite ..) (.refl _)) (.cond (State.within_setSuspend ..) (.refl _))) (by decide)

theorem State.within_putMember (s : State) (m v : ℕ) :
    s.Within [.act] (s.putMember m v) := by
  unfold State.putMember
  extract_lets +onlyGivenNames s0
  have hs0 : s.Within _ s0 := State.within_setMember ..
  clear_value s0
  exact .mono (.after (State.within_setAct ..) hs0) (by decide)

theorem State.within_setBinding (s : State) (k : ℕ) (l : List ℕ) :
    s.Within [.act] (s.setBinding k l) := by
  unfold State.setBinding
  exact State.within_setAct ..

theorem State.within_putMap (s : State) (a v : ℕ) :
    s.Within [.regs, .qnc] (s.putMap a v) := by
  unfold State.putMap
  exact .mono (.cond (.refl _) (.after (State.within_bump ..) (State.within_upQnc ..))) (by decide)

theorem State.within_putItem (s : State) (q : ℕ) (a0 : Ctx) (sp base i v : ℕ) :
    s.Within [.regs, .fwd, .act, .qnc] (s.putItem q a0 sp base i v) := by
  unfold State.putItem
  split
  · exact .mono (.cond (.refl _) (State.within_setProf ..)) (by decide)
  · exact .mono (State.within_setSlot ..) (by decide)
  · exact .mono (State.within_putMember ..) (by decide)
  · exact .mono (.cond (State.within_setBlock ..) (State.within_setAct ..)) (by decide)
  · extract_lets +onlyGivenNames l
    exact .mono (State.within_setBinding ..) (by decide)
  · exact .mono (.cond (State.within_setAct ..) (State.within_setAct ..)) (by decide)
  · exact .mono (.cond (State.within_putMap ..) (State.within_qncClass ..)) (by decide)
  · exact .mono (.refl _) (by decide)

theorem State.within_spaceStore (s : State) (q : ℕ) (a0 : Ctx) (sp a : ℕ) (l : List Byte) :
    s.Within [.regs, .fwd, .act, .qnc] (s.spaceStore q a0 sp a l) := by
  unfold State.spaceStore
  split
  · exact .mono (State.within_storeWindow ..) (by decide)
  · split
    · exact .mono (.refl _) (by decide)
    · exact .mono (.each (fun _ _ => (State.within_putItem ..)) (.refl _)) (by decide)

theorem State.within_claimOf (s : State) (q c : ℕ) (w : BitVec 1024) :
    s.Within [.flow] ((s.claimOf q c w).2) := by
  unfold State.claimOf
  extract_lets +onlyGivenNames h
  exact State.within_submitClaim ..

theorem State.within_takeLock (s : State) (q c n : ℕ) :
    s.Within [.pip] (s.takeLock q c n) := by
  unfold State.takeLock
  exact .mono (.after (State.within_upCtx ..) (State.within_setLock ..)) (by decide)

theorem State.within_opUnlock (s : State) (q c key : ℕ) :
    s.Within [.pip] (s.opUnlock q c key) := by
  unfold State.opUnlock
  extract_lets +onlyGivenNames n
  exact .mono (.cond (.after (State.within_upCtx ..) (State.within_setLock ..)) (.refl _)) (by decide)

theorem State.within_flagsOf (s : State) (a0 : Ctx) (op a b r : ℕ) (cv : Option (Bool × Bool)) :
    s.Within [.free] ((s.flagsOf a0 op a b r cv).1) := by
  unfold State.flagsOf
  extract_lets +onlyGivenNames x
  split
  · exact .fstMk (.mono (.refl _) (by decide))
  · split
    · rename_i a4 a5 t6 h7
      have ht6 : s.Within _ t6 := .ofSnd (State.within_draw ..) h7
      extract_lets +onlyGivenNames v
      exact .fstMk (.mono ht6 (by decide))

theorem State.within_storeSlots (s : State) (c : ℕ) (read : SMap ℕ) (a : ℕ) (l : List Byte) :
    s.Within (.wcount :: .modCnt :: .act :: .policy :: ctrParts) (s.storeSlots c read a l) := by
  unfold State.storeSlots
  split
  · exact .mono (.refl _) (by decide)
  · refine .foldl (fun x2 b3 => ?_) (.mono (.refl _) (by decide))
    extract_lets +onlyGivenNames k
    exact .mono (.cond (State.within_setSlot ..) (State.within_journal ..)) (by decide)

theorem State.within_applyStaged (s : State) (q c : ℕ) (e : Staged) :
    s.Within (.wcount :: .modCnt :: .fwd :: .flow :: .act :: .policy :: .qnc :: ctrParts) (s.applyStaged q c e) := by
  unfold State.applyStaged
  split
  · exact .mono (.cond (State.within_storeSlots ..) (State.within_spaceStore ..)) (by decide)
  · exact .mono (State.within_journal ..) (by decide)
  · exact .mono (.cond (State.within_submitRemoval ..) (.refl _)) (by decide)

theorem State.within_setupAttach (s : State) (p c : ℕ) :
    s.Within (.fmc :: .flow :: reportParts) (s.setupAttach p c) := by
  unfold State.setupAttach
  split
  · exact .mono (.refl _) (by decide)
  · extract_lets +onlyGivenNames s5
    have hs5 : s.Within _ s5 := State.within_ctr ..
    clear_value s5
    split
    · exact .mono (.after (State.within_putMiss ..) hs5) (by decide)
    · exact .mono (.after (State.within_search ..) hs5) (by decide)

theorem State.within_startWait (s : State) (q c cond imm : ℕ) :
    s.Within [.pip] (s.startWait q c cond imm) := by
  unfold State.startWait
  extract_lets +onlyGivenNames e
  exact State.within_upCtx ..

theorem State.within_tookTurn (s : State) (q c : ℕ) :
    s.Within [.pip] (s.tookTurn q c) := by
  unfold State.tookTurn
  exact State.within_setPip ..

theorem State.within_nanoError (s : State) (q c : ℕ) :
    s.Within [.pip] (s.nanoError q c) := by
  unfold State.nanoError
  exact State.within_upCtx ..

theorem State.within_ageTuneClass (s : State) (c n : ℕ) :
    s.Within (.wcount :: .modCnt :: .policy :: ctrParts) (s.ageTuneClass c n) := by
  unfold State.ageTuneClass
  extract_lets +onlyGivenNames t old st v
  split
  · exact .mono (.refl _) (by decide)
  · extract_lets +onlyGivenNames s2
    have hs2 : s.Within _ s2 := State.within_effWrite ..
    clear_value s2
    exact .mono (.after (State.within_journal ..) hs2) (by decide)

theorem State.within_ageTune (s : State) (c : ℕ) :
    s.Within (.wcount :: .modCnt :: .policy :: ctrParts) (s.ageTune c) := by
  unfold State.ageTune
  exact .mono (.cond (.refl _) (.each (fun _ _ => (State.within_ageTuneClass ..)) (.refl _))) (by decide)

theorem State.within_setPromo (s : State) (l : List Promo) :
    s.Within [.regs, .policy] (s.setPromo l) := by
  unfold State.setPromo
  exact .mono (.after (State.within_put ..) (State.within_setPolicy ..)) (by decide)

theorem State.within_evictDone (s : State) (c why : ℕ) :
    s.Within (.wcount :: .modCnt :: .policy :: ctrParts) (s.evictDone c why) := by
  unfold State.evictDone
  extract_lets +onlyGivenNames s0
  have hs0 : s.Within _ s0 := State.within_journal ..
  clear_value s0
  exact .mono (.cond (.after (State.within_raise ..) hs0) hs0) (by decide)

theorem State.within_powerTick (s : State) (c : ℕ) :
    s.Within (.wcount :: .modCnt :: .policy :: ctrParts) (s.powerTick c) := by
  unfold State.powerTick
  split
  · exact .mono (.refl _) (by decide)
  · split
    · exact .mono (.refl _) (by decide)
    · extract_lets +onlyGivenNames s7
      have hs7 : s.Within _ s7 := .after (State.within_journal ..) (State.within_setSuspend ..)
      clear_value s7
      exact .mono (.after (State.within_raise ..) (.after (State.within_setPolicy ..) hs7)) (by decide)

theorem State.within_powerEngage (s : State) (c : ℕ) :
    s.Within (.wcount :: .modCnt :: .policy :: ctrParts) (s.powerEngage c) := by
  unfold State.powerEngage
  split
  · exact .mono (.refl _) (by decide)
  · extract_lets +onlyGivenNames v s2
    have hs2 : s.Within _ s2 := .after (State.within_journal ..) (State.within_setSuspend ..)
    clear_value s2
    exact .mono (.after (State.within_raise ..) (.after (State.within_setPolicy ..) hs2)) (by decide)

theorem State.within_waitAt (s : State) (q c rt : ℕ) :
    s.Within [.pip] (s.waitAt q c rt) := by
  unfold State.waitAt
  exact State.within_upCtx ..

theorem State.within_goTo (s : State) (q c rt : ℕ) :
    s.Within [.pip] (s.goTo q c rt) := by
  unfold State.goTo
  exact State.within_upCtx ..

theorem State.within_claimResponse (s : State) (q c sp : ℕ) (k : Claim) (code : ℕ) :
    s.Within [.flow, .pip] (s.claimResponse q c sp k code) := by
  unfold State.claimResponse
  extract_lets +onlyGivenNames s0
  have hs0 : s.Within _ s0 := .cond (.refl _) (State.within_setClaims ..)
  clear_value s0
  exact .mono (.after (State.within_upCtx ..) hs0) (by decide)

theorem State.within_handlerDone (s : State) (q c : ℕ) :
    s.Within [.regs, .pcie, .out, .pip] (s.handlerDone q c) := by
  unfold State.handlerDone
  extract_lets +onlyGivenNames x
  exact .mono (.after (State.within_pipStat ..) (State.within_setCtx ..)) (by decide)

theorem State.within_takeEvent (s : State) (c : ℕ) :
    s.Within [.pip] (s.takeEvent c) := by
  unfold State.takeEvent
  split
  · exact .mono (.refl _) (by decide)
  · exact .mono (.after (State.within_upCtx ..) (State.within_setPip ..)) (by decide)

theorem State.within_waitSatisfied (s : State) (q c : ℕ) :
    s.Within [.regs, .pcie, .out, .pip] (s.waitSatisfied q c) := by
  unfold State.waitSatisfied
  extract_lets +onlyGivenNames x
  exact .mono (.cond (.refl _) (.cond (State.within_handlerDone ..) (.after (State.within_upCtx ..) (.cond (State.within_takeEvent ..) (.refl _))))) (by decide)

theorem State.within_timerExpire (s : State) (q c : ℕ) :
    s.Within (.acc :: .taken :: .time :: .clk :: .pip :: ctrParts) (s.timerExpire q c) := by
  unfold State.timerExpire
  split
  · exact .mono (.refl _) (by decide)
  · exact .mono (.after (State.within_upCtx ..) (State.within_passTo ..)) (by decide)

theorem State.within_lockGrant (s : State) (q c : ℕ) :
    s.Within [.pip] (s.lockGrant q c) := by
  unfold State.lockGrant
  extract_lets +onlyGivenNames x
  split
  · exact .mono (.refl _) (by decide)
  · exact .mono (.cond (.after (State.within_upCtx ..) (State.within_takeLock ..)) (.refl _)) (by decide)

theorem State.within_lbDetect (s : State) (q : ℕ) (a0 : Ctx) :
    s.Within (.policy :: .pip :: ctrParts) (s.lbDetect q a0) := by
  unfold State.lbDetect
  split
  · exact .mono (.refl _) (by decide)
  · extract_lets +onlyGivenNames rp d port e posted
    split
    · exact .mono (.refl _) (by decide)
    · split
      · exact .mono (.refl _) (by decide)
      · extract_lets +onlyGivenNames m slot s12
        extract_lets +onlyGivenNames s13
        have hs13 : s.Within _ s13 := State.within_setPolicy ..
        clear_value s13
        exact .mono (.after (State.within_ctr ..) (.after (State.within_post ..) hs13)) (by decide)

theorem State.within_atCkpt (s : State) (q c : ℕ) :
    s.Within [.regs, .pip] (s.atCkpt q c) := by
  unfold State.atCkpt
  extract_lets +onlyGivenNames x s0
  have hs0 : s.Within _ s0 := State.within_ckptMax ..
  clear_value s0
  extract_lets +onlyGivenNames y
  extract_lets +onlyGivenNames y1
  exact .mono (.after (State.within_setCtx ..) hs0) (by decide)

theorem State.within_pipLoadEnd (s : State) (q code : ℕ) :
    s.Within [.regs, .pcie, .out, .pip] (s.pipLoadEnd q code) := by
  unfold State.pipLoadEnd
  extract_lets +onlyGivenNames s0
  extract_lets +onlyGivenNames s1
  have hs1 : s.Within _ s1 := State.within_setPip ..
  clear_value s1
  exact .mono (.after (State.within_raise ..) (.after (State.within_put ..) hs1)) (by decide)

theorem State.within_pipLoadChecked (s : State) (q : ℕ) (l : List Byte) (dmaOk : Bool) :
    s.Within [.regs, .pcie, .out, .pip] (s.pipLoadChecked q l dmaOk) := by
  unfold State.pipLoadChecked
  split
  · exact .mono (.refl _) (by decide)
  · extract_lets +onlyGivenNames l2
    split
    · exact State.within_pipLoadEnd ..
    · split
      · exact State.within_pipLoadEnd ..
      · extract_lets +onlyGivenNames s7
        have hs7 : s.Within _ s7 := State.within_put ..
        clear_value s7
        split
        · exact .mono (.after (State.within_pipLoadEnd ..) hs7) (by decide)
        · exact .mono (.after (State.within_setPip ..) hs7) (by decide)

theorem State.within_pipInstall (s : State) (q : ℕ) :
    s.Within [.regs, .pcie, .out, .pip] (s.pipInstall q) := by
  unfold State.pipInstall
  split
  · exact .mono (.refl _) (by decide)
  · exact .mono (.cond (.refl _) (.after (State.within_pipLoadEnd ..) (State.within_storeImage ..))) (by decide)

theorem State.within_bgThrottle (s : State) (pc : ℕ) :
    s.Within (.fmc :: ctrParts) (s.bgThrottle pc) := by
  unfold State.bgThrottle
  refine .foldl (fun x0 b1 => ?_) (.mono (.refl _) (by decide))
  split
  · extract_lets +onlyGivenNames s3
    extract_lets +onlyGivenNames s4
    refine .step ?_ (State.within_ctr ..) (by decide)
    unfold s4
    exact .mono (State.within_setFmc rfl) (by decide)
  · exact .mono (.refl _) (by decide)

theorem State.within_readComplete (s : State) (pc : ℕ) (e : ReadEnd) :
    s.Within (.free :: .fmc :: reportParts) (s.readComplete pc e) := by
  unfold State.readComplete
  split
  · exact .mono (.refl _) (by decide)
  · extract_lets +onlyGivenNames r s5
    extract_lets +onlyGivenNames s6
    have hs6 : s.Within _ s6 := State.within_setFmc rfl
    clear_value s6
    extract_lets +onlyGivenNames e7
    split
    · rename_i a8 a9 t10 h11
      have ht10 : s.Within _ t10 := .ofSnd (.after (State.within_readEnds ..) hs6) h11
      split
      · extract_lets +onlyGivenNames s13
        have hs13 : s.Within _ s13 := .cond (.after (State.within_scrubBack ..) ht10) ht10
        clear_value s13
        exact .mono (.after (State.within_respond ..) hs13) (by decide)
      · exact .mono (.cond (.after (State.within_respond ..) (.after (State.within_readReport ..) ht10)) (.after (State.within_reissue ..) (.after (State.within_readReport ..) ht10))) (by decide)

theorem State.within_refresh (s : State) (pc bank celsius : ℕ) (faults : List (ℕ × ReadEnd)) :
    s.Within [.regs, .pcie, .out, .fmc] (s.refresh pc bank celsius faults) := by
  unfold State.refresh
  extract_lets +onlyGivenNames b hot was s0
  have hs0 : s.Within _ s0 := .after (State.within_put ..) (State.within_put ..)
  clear_value s0
  extract_lets +onlyGivenNames s1
  have hs1 : s.Within _ s1 := .cond (.after (State.within_raise ..) hs0) hs0
  clear_value s1
  extract_lets +onlyGivenNames f
  exact .mono (.after (State.within_setFmc rfl) hs1) (by decide)

theorem State.within_retrainStart (s : State) (st c : ℕ) :
    s.Within (.fmc :: reportParts) (s.retrainStart st c) := by
  unfold State.retrainStart
  extract_lets +onlyGivenNames pcs
  exact .mono (.cond (.refl _) (.cond (State.within_bump ..) (.each (fun _ _ => (.cond (State.within_retrainPc ..) (.refl _))) (.refl _)))) (by decide)

theorem State.within_condWrite (s : State) (pc la : ℕ) (v : Line) (who : ℕ) :
    s.Within (.acc :: .fmc :: ctrParts) (s.condWrite pc la v who) := by
  unfold State.condWrite
  extract_lets +onlyGivenNames s0
  have hs0 : s.Within _ s0 := State.within_setWq ..
  clear_value s0
  exact .mono (.after (State.within_arrayWrite ..) (.after (State.within_bgTake ..) (.after (State.within_noteWrite ..) hs0))) (by decide)

theorem State.within_rebuildDone (s : State) (st : ℕ) :
    s.Within [.regs, .pcie, .out, .fmc] (s.rebuildDone st) := by
  unfold State.rebuildDone
  split
  · exact .mono (.refl _) (by decide)
  · split
    · exact .mono (.refl _) (by decide)
    · extract_lets +onlyGivenNames b s8
      have hs8 : s.Within _ s8 := .after (State.within_put ..) (State.within_setPcState ..)
      clear_value s8
      extract_lets +onlyGivenNames s9
      have hs9 : s.Within _ s9 := .after (State.within_raise ..) (.after (State.within_raise ..) (.after (State.within_bump ..) hs8))
      clear_value s9
      exact .mono (.after (State.within_rebuildLeave ..) (.after (State.within_setDegraded ..) hs9)) (by decide)

theorem State.within_scrubReq (s : State) (pc la : ℕ) :
    s.Within (.fmc :: ctrParts) (s.scrubReq pc la) := by
  unfold State.scrubReq
  split
  · exact .mono (.refl _) (by decide)
  · split
    · rename_i a2 a3 t4 h5
      have ht4 : s.Within _ t4 := .ofSnd (State.within_fresh ..) h5
      exact .mono (.after (State.within_queueRead ..) ht4) (by decide)

theorem State.within_scrubRead (s : State) :
    s.Within (.fmc :: ctrParts) s.scrubRead := by
  unfold State.scrubRead
  split
  · exact .mono (.refl _) (by decide)
  · extract_lets +onlyGivenNames k s2
    have hs2 : s.Within _ s2 := State.within_scrubReq ..
    clear_value s2
    exact .mono (.cond (.after (State.within_raise ..) (.after (State.within_bump ..) (.after (State.within_setFmc rfl) hs2))) (.after (State.within_setFmc rfl) hs2)) (by decide)

theorem Io.within_loadWindow (s : Io) (base : ℕ) (f : Fld) (i : ℕ) :
    s.Within [.regs, .bank, .acc] (s.loadWindow base f i) := by
  unfold Io.loadWindow
  extract_lets +onlyGivenNames a v
  exact .mono (.after (Io.within_putAny ..) (Io.within_setAcc ..)) (by decide)

theorem State.within_bwWindow (s : State) (st : ℕ) :
    s.Within [.regs, .bank, .acc, .pcie, .out] (s.bwWindow st) := by
  unfold State.bwWindow
  extract_lets +onlyGivenNames b s0
  have hs0 : s.Within _ s0 := .each (fun _ _ => (.upIo (.after (Io.within_loadWindow ..) (Io.within_loadWindow ..)))) (.refl _)
  clear_value s0
  exact .mono (.after (State.within_raise ..) hs0) (by decide)

theorem State.within_clearHeads (s : State) (n : ℕ) :
    s.Within (.wcount :: .modCnt :: .buf :: .tel :: ctrParts) (s.clearHeads n) := by
  unfold State.clearHeads
  exact .mono (.each (fun _ _ => (.cond (State.within_wdDrain ..) (.refl _))) (.refl _)) (by decide)

theorem State.within_chargeShapers (s : State) (n q w : ℕ) :
    s.Within [.buf] (s.chargeShapers n q w) := by
  unfold State.chargeShapers
  exact .mono (.each (fun _ _ => (State.within_setBucket ..)) (.refl _)) (by decide)

theorem State.within_setDrr (s : State) (n : ℕ) (r : Drr) :
    s.Within [.regs, .buf] (s.setDrr n r) := by
  unfold State.setDrr
  extract_lets +onlyGivenNames sc s0
  extract_lets +onlyGivenNames s1
  have hs1 : s.Within _ s1 := State.within_setBuf ..
  clear_value s1
  exact .mono (.each (fun _ _ => (State.within_put ..)) hs1) (by decide)

theorem State.within_txtsCapture (s : State) (n t dom seq : ℕ) :
    s.Within [.regs, .pcie, .out, .buf] (s.txtsCapture n t dom seq) := by
  unfold State.txtsCapture
  extract_lets +onlyGivenNames b l
  exact .mono (.cond (.after (State.within_raise ..) (State.within_put ..)) (.after (State.within_raise ..) (State.within_setTxts ..))) (by decide)

theorem State.within_txDone (s : State) (n : ℕ) :
    s.Within (.acc :: .buf :: reportParts) (s.txDone n) := by
  unfold State.txDone
  extract_lets +onlyGivenNames sc
  split
  · exact .mono (.refl _) (by decide)
  · extract_lets +onlyGivenNames f p bad s6
    extract_lets +onlyGivenNames s7
    have hs7 : s.Within _ s7 := State.within_setBuf ..
    clear_value s7
    extract_lets +onlyGivenNames s8
    have hs8 : s.Within _ s8 := .after (State.within_ctr ..) (.after (State.within_ctr ..) hs7)
    clear_value s8
    extract_lets +onlyGivenNames b s9
    have hs9 : s.Within _ s9 := .after (State.within_ctr ..) (.after (State.within_ctr ..) hs8)
    clear_value s9
    extract_lets +onlyGivenNames s10
    have hs10 : s.Within (.acc :: .buf :: reportParts) s10 := .mono (.after (.upIo (.after (Io.within_accAdd ..) (Io.within_accAdd ..))) hs9) (by decide)
    clear_value s10
    extract_lets +onlyGivenNames s11
    extract_lets +onlyGivenNames s12
    have hs12 : s.Within _ s12 := .cond (.after (State.within_setBuf ..) hs10) hs10
    clear_value s12
    extract_lets +onlyGivenNames s13
    have hs13 : s.Within (.acc :: .buf :: reportParts) s13 := .mono (.cond (.after (State.within_txtsCapture ..) hs12) hs12) (by decide)
    clear_value s13
    exact .mono (.after (State.within_release ..) (.after (State.within_stomp ..) (.after (State.within_emit ..) hs13))) (by decide)

theorem State.within_frameOut (s : State) (n : ℕ) (cells : List (ℕ × Bool)) :
    s.Within (.acc :: .sys :: .buf :: reportParts) (s.frameOut n cells) := by
  unfold State.frameOut
  split
  · exact .mono (.refl _) (by decide)
  · extract_lets +onlyGivenNames s6
    have hs6 : s.Within _ s6 := State.within_readCells ..
    clear_value s6
    extract_lets +onlyGivenNames f bad t
    have ht : s.Within _ t := .after (State.within_txDone ..) hs6
    clear_value t
    exact .mono (.cond (.after (State.within_frameRx ..) ht) ht) (by decide)

theorem State.within_tokenRefill (s : State) :
    s.Within (.acc :: .taken :: .time :: .clk :: .buf :: ctrParts) s.tokenRefill := by
  unfold State.tokenRefill
  exact .mono (.after (State.within_refillDue ..) (State.within_reach ..)) (by decide)

theorem State.within_gateStep (s : State) (n : ℕ) :
    s.Within (.acc :: .taken :: .time :: .clk :: ctrParts) (s.gateStep n) := by
  unfold State.gateStep
  extract_lets +onlyGivenNames l
  split
  · exact .mono (.refl _) (by decide)
  · split
    · exact .mono (.refl _) (by decide)
    · exact State.within_passNs ..

theorem State.within_listStart (s : State) (n : ℕ) :
    s.Within (.bank :: .acc :: .taken :: .time :: .clk :: .buf :: ctrParts) (s.listStart n) := by
  unfold State.listStart
  split
  · exact .mono (.refl _) (by decide)
  · exact .mono (.after (State.within_listBegin ..) (State.within_passNs ..)) (by decide)

theorem State.within_flushDue (s : State) :
    s.Within (.acc :: .wcount :: .modCnt :: .taken :: .time :: .clk :: .tel :: ctrParts) s.flushDue := by
  unfold State.flushDue
  exact .mono (.cond (.refl _) (.after (State.within_ipfixFlush ..) (State.within_passTo ..))) (by decide)

theorem State.within_templateRefresh (s : State) :
    s.Within (.acc :: .wcount :: .modCnt :: .taken :: .time :: .clk :: .tel :: ctrParts) s.templateRefresh := by
  unfold State.templateRefresh
  split
  · exact .mono (.refl _) (by decide)
  · extract_lets +onlyGivenNames due s2
    have hs2 : s.Within _ s2 := State.within_passTo ..
    clear_value s2
    exact .mono (.after (State.within_templateSend ..) (.after (State.within_setTel ..) hs2)) (by decide)

theorem State.within_snapPeriodic (s : State) (busy : Bool) :
    s.Within (.wcount :: .modCnt :: .tel :: ctrParts) (s.snapPeriodic busy) := by
  unfold State.snapPeriodic
  exact .mono (.cond (State.within_snapTake ..) (.refl _)) (by decide)

theorem State.within_upDue (s : State) (f : Due → Due) :
    s.Within [.time] (s.upDue f) := by
  unfold State.upDue
  exact .mono (.upIo (Io.within_setTime ..)) (by decide)

theorem State.within_snapDue (s : State) (busy : Bool) :
    s.Within (.acc :: .wcount :: .modCnt :: .taken :: .time :: .clk :: .tel :: ctrParts) (s.snapDue busy) := by
  unfold State.snapDue
  extract_lets +onlyGivenNames m
  exact .mono (.after (State.within_snapPeriodic ..) (.after (State.within_upDue ..) (State.within_reach ..))) (by decide)

theorem State.within_eleEnd (s : State) (p : ℕ) :
    s.Within (.tel :: .pip :: ctrParts) (s.eleEnd p) := by
  unfold State.eleEnd
  extract_lets +onlyGivenNames big top s0
  extract_lets +onlyGivenNames s1
  have hs1 : s.Within _ s1 := State.within_setTel ..
  clear_value s1
  split
  · exact .mono hs1 (by decide)
  · refine .foldl (fun x4 b5 => ?_) (.mono hs1 (by decide))
    extract_lets +onlyGivenNames h
    exact .mono (.after (State.within_ctr ..) (State.within_post ..)) (by decide)

theorem State.within_eleWindow (s : State) :
    s.Within (.tel :: .policy :: .pip :: ctrParts) s.eleWindow := by
  unfold State.eleWindow
  extract_lets +onlyGivenNames e
  split
  · exact .mono (.refl _) (by decide)
  · extract_lets +onlyGivenNames s2
    extract_lets +onlyGivenNames s3
    extract_lets +onlyGivenNames s4
    have hs4 : s.Within _ s4 := State.within_setTelPolicy ..
    clear_value s4
    exact .mono (.each (fun _ _ => (State.within_eleEnd ..)) hs4) (by decide)

theorem Io.within_loadLocal (s : Io) (p : ℕ) :
    s.Within [.regs, .bank, .acc] (s.loadLocal p) := by
  unfold Io.loadLocal
  extract_lets +onlyGivenNames b s0
  have hs0 : s.Within _ s0 := .each (fun _ _ => (Io.within_loadWindow ..)) (.refl _)
  clear_value s0
  extract_lets +onlyGivenNames s1
  have hs1 : s.Within _ s1 := .after (Io.within_put ..) hs0
  clear_value s1
  exact .mono (.each (fun _ _ => (.each (fun _ _ => (Io.within_loadWindow ..)) (.refl _))) hs1) (by decide)

theorem State.within_pmcWindow (s : State) :
    s.Within (.bank :: .acc :: .taken :: .time :: .clk :: ctrParts) s.pmcWindow := by
  unfold State.pmcWindow
  extract_lets +onlyGivenNames s0
  have hs0 : s.Within _ s0 := .cond (.refl _) (State.within_passNs ..)
  clear_value s0
  split
  · extract_lets +onlyGivenNames len s5
    have hs5 : s.Within _ s5 := .after (.upIo (Io.within_setTime ..)) hs0
    clear_value s5
    extract_lets +onlyGivenNames s6
    have hs6 : s.Within _ s6 := .after (.upIo (.each (fun _ _ => (Io.within_loadLocal ..)) (.refl _))) hs5
    clear_value s6
    extract_lets +onlyGivenNames s7
    have hs7 : s.Within (.bank :: .acc :: .taken :: .time :: .clk :: ctrParts) s7 := .mono (.after (State.within_put ..) (.after (State.within_bump ..) hs6)) (by decide)
    clear_value s7
    exact .mono (.after (State.within_raise ..) hs7) (by decide)

theorem State.within_sweepNext (s : State) :
    s.Within (.qnc :: ctrParts) s.sweepNext := by
  unfold State.sweepNext
  extract_lets +onlyGivenNames s0
  have hs0 : s.Within _ s0 := State.within_ctr ..
  clear_value s0
  split
  · exact .mono (.after (State.within_upQnc ..) hs0) (by decide)
  · extract_lets +onlyGivenNames d s3
    have hs3 : s.Within _ s3 := .after (State.within_upQnc ..) hs0
    clear_value s3
    exact .mono (.after (State.within_put ..) (.after (State.within_ctr ..) hs3)) (by decide)

theorem State.within_touch' (s : State) (par a : ℕ) :
    s.Within [.qnc] (s.touch' par a) := by
  unfold State.touch'
  exact State.within_upQnc ..

theorem State.within_closeBlocks (s : State) :
    s.Within [.regs, .qnc] s.closeBlocks := by
  unfold State.closeBlocks
  split
  · exact .mono (.refl _) (by decide)
  · extract_lets +onlyGivenNames n
    refine .foldl (fun x5 b6 => ?_) (.mono (.refl _) (by decide))
    split
    · exact State.within_completeBlock ..
    · exact .mono (.refl _) (by decide)

theorem State.within_upBlock (s : State) (seq : ℕ) (f : QBlock → QBlock) :
    s.Within [.qnc] (s.upBlock seq f) := by
  unfold State.upBlock
  exact State.within_upQnc ..

theorem State.within_blockTagged (s : State) :
    s.Within (.qnc :: ctrParts) s.blockTagged := by
  unfold State.blockTagged
  split
  · exact .mono (.refl _) (by decide)
  · split
    · exact .mono (.refl _) (by decide)
    · extract_lets +onlyGivenNames bytes key tag s7
      have hs7 : s.Within _ s7 := .after (State.within_upQnc ..) (State.within_upBlock ..)
      clear_value s7
      extract_lets +onlyGivenNames s8
      have hs8 : s.Within _ s8 := .after (State.within_ctr ..) (.after (State.within_ctr ..) hs7)
      clear_value s8
      exact .mono (.cond (.after (State.within_raise ..) (.after (State.within_put ..) hs8)) hs8) (by decide)

theorem State.within_writeHead (s : State) (h : QHead) :
    s.Within [.nvm] (s.writeHead h) := by
  unfold State.writeHead
  exact .mono (.setIo (Io.within_setNvm ..)) (by decide)

theorem State.within_backlog (s : State) :
    s.Within [.regs] s.backlog := by
  unfold State.backlog
  extract_lets +onlyGivenNames n
  exact .mono (.after (State.within_put ..) (State.within_put ..)) (by decide)

theorem State.within_headPersisted (s : State) :
    s.Within [.regs, .pcie, .nvm, .out, .qnc] s.headPersisted := by
  unfold State.headPersisted
  split
  · exact .mono (.refl _) (by decide)
  · split
    · exact .mono (.refl _) (by decide)
    · extract_lets +onlyGivenNames s10
      extract_lets +onlyGivenNames s11
      have hs11 : s.Within _ s11 := State.within_writeHead ..
      clear_value s11
      extract_lets +onlyGivenNames s12
      have hs12 : s.Within _ s12 := .after (State.within_backlog ..) (.after (State.within_upBlock ..) hs11)
      clear_value s12
      extract_lets +onlyGivenNames s13
      have hs13 : s.Within [.regs, .pcie, .nvm, .out, .qnc] s13 := .mono (.cond (.after (State.within_raise ..) hs12) hs12) (by decide)
      clear_value s13
      exact .mono (.cond (.after (State.within_raise ..) (.after (State.within_upQnc ..) (.after (State.within_put ..) hs13))) hs13) (by decide)

theorem State.within_blockToRing (s : State) (lost : Bool) :
    s.Within (.qnc :: reportParts) (s.blockToRing lost) := by
  unfold State.blockToRing
  split
  · exact .mono (.refl _) (by decide)
  · split
    · exact .mono (.refl _) (by decide)
    · split
      · exact .mono (.after (State.within_report ..) (.after (State.within_backlog ..) (State.within_upQnc ..))) (by decide)
      · extract_lets +onlyGivenNames es
        exact .mono (.cond (State.within_raise ..) (.cond (.after (State.within_backlog ..) (.after (State.within_upQnc ..) (.upIo (Io.within_ringWrite ..)))) (.refl _))) (by decide)

theorem State.within_qncUnwrapped (s : State) :
    s.Within [.regs, .pcie, .nvm, .out, .qnc] s.qncUnwrapped := by
  unfold State.qncUnwrapped
  split
  · exact .mono (.refl _) (by decide)
  · extract_lets +onlyGivenNames s5
    have hs5 : s.Within _ s5 := State.within_upQnc ..
    clear_value s5
    split
    · exact .mono (.after (State.within_keyCode ..) hs5) (by decide)
    · split
      · extract_lets +onlyGivenNames s12
        have hs12 : s.Within _ s12 := .after (State.within_upQnc ..) hs5
        clear_value s12
        exact .mono (.after (State.within_keyCode ..) (.after (State.within_writeHead ..) hs12)) (by decide)
      · extract_lets +onlyGivenNames s14
        have hs14 : s.Within _ s14 := .after (State.within_put ..) (.after (State.within_upQnc ..) hs5)
        clear_value s14
        exact .mono (.after (State.within_keyCode ..) (.after (State.within_writeHead ..) hs14)) (by decide)

theorem State.within_cphLoaded (s : State) (u : ℕ) :
    s.Within [.regs, .pcie, .out, .cph] (s.cphLoaded u) := by
  unfold State.cphLoaded
  extract_lets +onlyGivenNames p b
  split
  · exact .mono (.refl _) (by decide)
  · extract_lets +onlyGivenNames s5
    have hs5 : s.Within _ s5 := State.within_setCpage ..
    clear_value s5
    split
    · exact .mono (.after (State.within_raise ..) (.after (State.within_put ..) (.after (State.within_setKeyState ..) hs5))) (by decide)
    · extract_lets +onlyGivenNames s14
      extract_lets +onlyGivenNames s15
      have hs15 : s.Within _ s15 := .after (State.within_setCpage ..) hs5
      clear_value s15
      extract_lets +onlyGivenNames s16
      have hs16 : s.Within _ s16 := .after (State.within_setKeyState ..) (.after (State.within_put ..) (.after (State.within_put ..) hs15))
      clear_value s16
      extract_lets +onlyGivenNames s17
      have hs17 : s.Within [.regs, .pcie, .out, .cph] s17 := .mono (.cond (.after (State.within_bump ..) hs16) hs16) (by decide)
      clear_value s17
      extract_lets +onlyGivenNames s18
      have hs18 : s.Within _ s18 := .cond (.after (State.within_exhaust ..) hs17) hs17
      clear_value s18
      exact .mono (.after (State.within_raise ..) hs18) (by decide)

theorem State.within_takeEngine (s : State) (e ctx : ℕ) :
    s.Within [.regs, .cph] (s.takeEngine e ctx) := by
  unfold State.takeEngine
  extract_lets +onlyGivenNames s0
  extract_lets +onlyGivenNames s1
  have hs1 : s.Within _ s1 := State.within_setCph ..
  clear_value s1
  exact .mono (.after (State.within_put ..) hs1) (by decide)

theorem State.within_engineGrant (s : State) (e : ℕ) :
    s.Within [.regs, .cph] (s.engineGrant e) := by
  unfold State.engineGrant
  split
  · exact .mono (.refl _) (by decide)
  · split
    · exact State.within_takeEngine ..
    · split
      · exact .mono (.refl _) (by decide)
      · extract_lets +onlyGivenNames u
        exact .mono (.after (State.within_takeEngine ..) (State.within_setCph ..)) (by decide)

theorem State.within_authFail (s : State) (u : ℕ) (j : JobIn) :
    s.Within (.cph :: ctrParts) (s.authFail u j) := by
  unfold State.authFail
  extract_lets +onlyGivenNames s0
  have hs0 : s.Within _ s0 := .cond (State.within_jobOut ..) (.refl _)
  clear_value s0
  extract_lets +onlyGivenNames s1
  have hs1 : s.Within _ s1 := .after (State.within_ctr ..) (.after (State.within_ctr ..) hs0)
  clear_value s1
  exact .mono (.after (State.within_jobEnd ..) hs1) (by decide)

theorem State.within_putTag (s : State) (u n t : ℕ) :
    s.Within [.regs] (s.putTag u n t) := by
  unfold State.putTag
  extract_lets +onlyGivenNames l
  exact .mono (.each (fun _ _ => (State.within_put ..)) (.refl _)) (by decide)

theorem State.within_rngFail (s : State) :
    s.Within [.regs, .pcie, .out] s.rngFail := by
  unfold State.rngFail
  exact .mono (.after (State.within_raise ..) (.after (State.within_put ..) (State.within_bump ..))) (by decide)

theorem State.within_rngRecover (s : State) :
    s.Within [.regs] s.rngRecover := by
  unfold State.rngRecover
  exact .mono (State.within_put ..) (by decide)

theorem State.within_miswire (s : State) (k : ℕ) :
    s.Within [.regs, .pcie, .out] (s.miswire k) := by
  unfold State.miswire
  extract_lets +onlyGivenNames was s0
  have hs0 : s.Within _ s0 := .after (State.within_put ..) (State.within_put ..)
  clear_value s0
  exact .mono (.cond (.after (State.within_raise ..) hs0) hs0) (by decide)

theorem State.within_sendHello (s : State) (k : ℕ) :
    s.Within (.csc :: ctrParts) (s.sendHello k) := by
  unfold State.sendHello
  exact State.within_sendPeer ..

theorem State.within_stackUp (s : State) (k peer link : ℕ) :
    s.Within (.csc :: ctrParts) (s.stackUp k peer link) := by
  unfold State.stackUp
  split
  · exact .mono (.refl _) (by decide)
  · extract_lets +onlyGivenNames bad s2
    have hs2 : s.Within _ s2 := .after (State.within_put ..) (State.within_put ..)
    clear_value s2
    split
    · exact .mono (.after (State.within_miswire ..) hs2) (by decide)
    · extract_lets +onlyGivenNames s5
      have hs5 : s.Within _ s5 := .after (State.within_put ..) (.after (State.within_put ..) hs2)
      clear_value s5
      extract_lets +onlyGivenNames s6
      have hs6 : s.Within _ s6 := .after (State.within_upCsc ..) hs5
      clear_value s6
      exact .mono (.after (State.within_sendHello ..) (.after (State.within_raise ..) (.after (State.within_setMism ..) hs6))) (by decide)

theorem State.within_stackRx (s : State) (k : ℕ) (f : List Byte) :
    s.Within (.csc :: ctrParts) (s.stackRx k f) := by
  unfold State.stackRx
  split
  · exact .mono (.refl _) (by decide)
  · extract_lets +onlyGivenNames s2
    have hs2 : s.Within _ s2 := State.within_ctr ..
    clear_value s2
    extract_lets +onlyGivenNames n
    exact .mono (.cond (.after (State.within_ctr ..) hs2) (.cond hs2 (.after (State.within_upCsc ..) hs2))) (by decide)

theorem State.within_steerRx (s : State) (k : ℕ) :
    s.Within (.acc :: .buf :: .csc :: ctrParts) (s.steerRx k) := by
  unfold State.steerRx
  split
  · exact .mono (.refl _) (by decide)
  · rename_i a2 a3 a4 t5 h6
    have ht5 : s.Within _ t5 := State.within_takeRx h6
    extract_lets +onlyGivenNames b d w
    exact .mono (.after (State.within_stage ..) ht5) (by decide)

theorem State.within_setLive (s : State) (d : ℕ) :
    s.Within [.regs, .csc] (s.setLive d) := by
  unfold State.setLive
  extract_lets +onlyGivenNames s0
  have hs0 : s.Within _ s0 := State.within_upCsc ..
  clear_value s0
  exact .mono (.after (State.within_put ..) hs0) (by decide)

theorem State.within_checkPeer (s : State) (k role id devs link : ℕ) :
    s.Within [.regs, .pcie, .out, .csc] (s.checkPeer k role id devs link) := by
  unfold State.checkPeer
  extract_lets +onlyGivenNames bad s0
  have hs0 : s.Within _ s0 := .after (State.within_put ..) (State.within_put ..)
  clear_value s0
  exact .mono (.cond (.after (State.within_setMism ..) hs0) (.cond (.after (State.within_miswire ..) hs0) (.after (State.within_setMism ..) hs0))) (by decide)

theorem State.within_helloRx (s : State) (k : ℕ) :
    s.Within [.regs, .pcie, .out, .csc] (s.helloRx k) := by
  unfold State.helloRx
  split
  · exact .mono (.refl _) (by decide)
  · rename_i a2 a3 a4 t5 h6
    have ht5 : s.Within _ t5 := State.within_takeRx h6
    extract_lets +onlyGivenNames p relayed s7
    have hs7 : s.Within _ s7 := .after (State.within_setLive ..) ht5
    clear_value s7
    exact .mono (.cond hs7 (.after (State.within_checkPeer ..) hs7)) (by decide)

theorem State.within_helloSend (s : State) :
    s.Within (.csc :: ctrParts) s.helloSend := by
  unfold State.helloSend
  exact .mono (.each (fun _ _ => (State.within_sendHello ..)) (.refl _)) (by decide)

theorem State.within_demote' (s : State) (mid : ℕ) :
    s.Within [.regs] (s.demote' mid) := by
  unfold State.demote'
  exact .mono (.cond (.after (State.within_put ..) (.after (State.within_put ..) (State.within_put ..))) (.refl _)) (by decide)

theorem State.within_sendEach (s : State) (src code : ℕ) (pay : List Byte) (ds : List ℕ) :
    s.Within (.csc :: ctrParts) (s.sendEach src code pay ds) := by
  unfold State.sendEach
  refine .foldl (fun x0 b1 => ?_) (.mono (.refl _) (by decide))
  split
  · exact .mono (.refl _) (by decide)
  · exact State.within_sendCtl ..

theorem State.within_checkDiverged (s : State) (last : ℕ) :
    s.Within [.regs, .pcie, .out, .csc] (s.checkDiverged last) := by
  unfold State.checkDiverged
  split
  · extract_lets +onlyGivenNames s1
    have hs1 : s.Within _ s1 := State.within_upCsc ..
    clear_value s1
    exact .mono (.after (State.within_raise ..) (.after (State.within_put ..) hs1)) (by decide)
  · exact .mono (.refl _) (by decide)

theorem State.within_followMaster (s : State) (mid : ℕ) :
    s.Within (.time :: .csc :: ctrParts) (s.followMaster mid) := by
  unfold State.followMaster
  split
  · exact .mono (State.within_upCsc ..) (by decide)
  · split
    · exact .mono (.after (State.within_sendTime ..) (State.within_becomeMaster ..)) (by decide)
    · extract_lets +onlyGivenNames s4
      have hs4 : s.Within _ s4 := State.within_abandonCommit ..
      clear_value s4
      extract_lets +onlyGivenNames s5
      have hs5 : s.Within _ s5 := .after (State.within_upCsc ..) (.after (State.within_put ..) hs4)
      clear_value s5
      exact .mono (.after (State.within_raise ..) (.after (State.within_bump ..) hs5)) (by decide)

theorem State.within_timeFirst (s : State) (mid k last : ℕ) :
    s.Within (.bank :: .time :: .csc :: ctrParts) (s.timeFirst mid k last) := by
  unfold State.timeFirst
  extract_lets +onlyGivenNames s0
  have hs0 : s.Within _ s0 := State.within_upCsc ..
  clear_value s0
  extract_lets +onlyGivenNames s1
  have hs1 : s.Within _ s1 := .after (State.within_checkDiverged ..) (.after (State.within_followMaster ..) hs0)
  clear_value s1
  exact .mono (.cond (.after (.upIo (.after (Io.within_putBank ..) (Io.within_putBank ..))) hs1) hs1) (by decide)

theorem State.within_stepAs (s : State) (ns : ℕ) :
    s.Within [.regs, .bank, .time, .pcie, .out, .buf, .qnc] (s.stepAs ns) := by
  unfold State.stepAs
  extract_lets +onlyGivenNames old
  have hold : s.Within _ old := State.within_refillDue ..
  clear_value old
  refine .step ?_ (State.within_stepped ..) (by decide)
  refine .trans (.mono hold (by decide)) (.upIo ?_)
  extract_lets +onlyGivenNames io
  have hio : old.io.Within _ io := Io.within_stepTo ..
  clear_value io
  exact .mono (.after (Io.within_setTime ..) hio) (by decide)

theorem State.within_loadEpoch (s : State) (num k : ℕ) :
    s.Within [.regs, .bank, .csc] (s.loadEpoch num k) := by
  unfold State.loadEpoch
  extract_lets +onlyGivenNames due s0
  have hs0 : s.Within _ s0 := State.within_put ..
  clear_value s0
  extract_lets +onlyGivenNames s1
  have hs1 : s.Within _ s1 := .after (.upIo (.after (Io.within_putBank ..) (Io.within_putBank ..))) hs0
  clear_value s1
  exact .mono (.after (State.within_upCsc ..) hs1) (by decide)

theorem State.within_stepOffset (s : State) (off : ℤ) (num k : ℕ) :
    s.Within [.regs, .bank, .time, .pcie, .out, .buf, .csc, .qnc] (s.stepOffset off num k) := by
  unfold State.stepOffset
  extract_lets +onlyGivenNames s0
  have hs0 : s.Within _ s0 := State.within_stepAs ..
  clear_value s0
  extract_lets +onlyGivenNames s1
  have hs1 : s.Within _ s1 := .after (State.within_upCsc ..) hs0
  clear_value s1
  exact .mono (.cond hs1 (.after (State.within_loadEpoch ..) hs1)) (by decide)

theorem State.within_nearStep (s : State) (off : ℤ) (num k : ℕ) :
    s.Within [.regs, .bank, .time, .csc, .qnc] (s.nearStep off num k) := by
  unfold State.nearStep
  extract_lets +onlyGivenNames near s0
  have hs0 : s.Within _ s0 := State.within_upCsc ..
  clear_value s0
  split
  · exact .mono hs0 (by decide)
  · extract_lets +onlyGivenNames s3
    have hs3 : s.Within _ s3 := .after (State.within_put ..) hs0
    clear_value s3
    split
    · exact .mono hs3 (by decide)
    · extract_lets +onlyGivenNames old first s6
      have hs6 : s.Within _ s6 := .after (.upIo (Io.within_setTime ..)) (.after (State.within_loadEpoch ..) hs3)
      clear_value s6
      exact .mono (.cond (.after (State.within_qncStep ..) hs6) hs6) (by decide)

theorem State.within_slew (s : State) (off : ℤ) :
    s.Within [.time, .free] (s.slew off) := by
  unfold State.slew
  split
  · rename_i a0 a1 t2 h3
    have ht2 : s.Within _ t2 := .ofSnd (State.within_draw ..) h3
    extract_lets +onlyGivenNames r r4
    exact .mono (.after (.upIo (Io.within_setTime ..)) ht2) (by decide)

theorem State.within_actOffset (s : State) (off : ℤ) (num k : ℕ) :
    s.Within [.regs, .bank, .time, .pcie, .out, .free, .buf, .csc, .qnc] (s.actOffset off num k) := by
  unfold State.actOffset
  extract_lets +onlyGivenNames s0
  have hs0 : s.Within _ s0 := State.within_put ..
  clear_value s0
  exact .mono (.cond (.after (State.within_stepOffset ..) hs0) (.after (State.within_nearStep ..) (.after (State.within_slew ..) hs0))) (by decide)

theorem State.within_directTime (s : State) (k t t1 num kk : ℕ) :
    s.Within [.regs, .bank, .time, .pcie, .out, .free, .buf, .csc, .qnc] (s.directTime k t t1 num kk) := by
  unfold State.directTime
  extract_lets +onlyGivenNames s0
  have hs0 : s.Within _ s0 := State.within_upCsc ..
  clear_value s0
  exact .mono (.cond (.after (State.within_actOffset ..) hs0) hs0) (by decide)

theorem State.within_timeSend (s : State) :
    s.Within (.acc :: .taken :: .time :: .clk :: .csc :: ctrParts) s.timeSend := by
  unfold State.timeSend
  extract_lets +onlyGivenNames s0
  have hs0 : s.Within _ s0 := .after (State.within_upDue ..) (State.within_reach ..)
  clear_value s0
  exact .mono (.cond (.after (State.within_sendTime ..) hs0) hs0) (by decide)

theorem State.within_delayReqRx (s : State) (k : ℕ) :
    s.Within (.csc :: ctrParts) (s.delayReqRx k) := by
  unfold State.delayReqRx
  split
  · exact .mono (.refl _) (by decide)
  · rename_i a2 a3 a4 t5 h6
    have ht5 : s.Within _ t5 := State.within_takeRx h6
    exact .mono (.after (State.within_sendPeer ..) ht5) (by decide)

theorem State.within_delayReqSend (s : State) :
    s.Within (.csc :: ctrParts) s.delayReqSend := by
  unfold State.delayReqSend
  exact .mono (.cond (.refl _) (.each (fun _ _ => (.after (State.within_upCsc ..) (State.within_sendPeer ..))) (.refl _))) (by decide)

theorem State.within_delayRespRx (s : State) (k : ℕ) :
    s.Within [.regs, .csc] (s.delayRespRx k) := by
  unfold State.delayRespRx
  split
  · exact .mono (.refl _) (by decide)
  · rename_i a2 a3 a4 t5 h6
    have ht5 : s.Within _ t5 := State.within_takeRx h6
    extract_lets +onlyGivenNames c
    split
    · exact .mono ht5 (by decide)
    · extract_lets +onlyGivenNames d
      exact .mono (.after (State.within_put ..) ht5) (by decide)

theorem State.within_toBefore (s : State) (e us : ℕ) :
    s.Within (.acc :: .taken :: .time :: .clk :: ctrParts) ((s.toBefore e us).1) := by
  unfold State.toBefore
  extract_lets +onlyGivenNames r w
  split
  · exact .fstMk (.mono (.refl _) (by decide))
  · split
    · exact .fstMk (.mono (.refl _) (by decide))
    · split
      · exact .fstMk (.mono (State.within_passNs ..) (by decide))
      · exact .fstMk (.mono (.refl _) (by decide))

theorem State.within_openTarget (s : State) (e : ℕ) :
    s.Within [.regs, .csc] (s.openTarget e) := by
  unfold State.openTarget
  extract_lets +onlyGivenNames s0
  have hs0 : s.Within _ s0 := State.within_upCsc ..
  clear_value s0
  extract_lets +onlyGivenNames s1
  have hs1 : s.Within _ s1 := .after (State.within_put ..) (.after (State.within_put ..) (.after (State.within_put ..) hs0))
  clear_value s1
  exact .mono (.after (State.within_put ..) (.after (State.within_put ..) hs1)) (by decide)

theorem State.within_refuse (s : State) (d reason : ℕ) :
    s.Within [.regs] (s.refuse d reason) := by
  unfold State.refuse
  extract_lets +onlyGivenNames m s0
  have hs0 : s.Within _ s0 := .cond (State.within_put ..) (.refl _)
  clear_value s0
  exact .mono (.after (State.within_put ..) hs0) (by decide)

theorem State.within_agree (s : State) (d : ℕ) :
    s.Within [.regs] (s.agree d) := by
  unfold State.agree
  exact .mono (State.within_put ..) (by decide)

theorem State.within_prepareSend (s : State) :
    s.Within (.acc :: .taken :: .time :: .clk :: .csc :: ctrParts) s.prepareSend := by
  unfold State.prepareSend
  split
  · exact .mono (.refl _) (by decide)
  · split
    · exact .mono (.refl _) (by decide)
    · split
      · rename_i a7 t8 h9
        have ht8 : s.Within _ t8 := .ofFst (State.within_toBefore ..) h9
        exact .mono (.refl _) (by decide)
      · rename_i a10 t11 h12
        have ht11 : s.Within _ t11 := .ofFst (State.within_toBefore ..) h12
        extract_lets +onlyGivenNames s13
        have hs13 : s.Within _ s13 := .after (State.within_openTarget ..) ht11
        clear_value s13
        extract_lets +onlyGivenNames s14
        have hs14 : s.Within _ s14 := .cond (.after (State.within_refuse ..) hs13) (.after (State.within_agree ..) hs13)
        clear_value s14
        exact .mono (.after (State.within_sendEach ..) hs14) (by decide)

theorem State.within_answerMaster (s : State) (k master code : ℕ) (pay : List Byte) :
    s.Within (.csc :: ctrParts) (s.answerMaster k master code pay) := by
  unfold State.answerMaster
  exact State.within_sendCtl ..

theorem State.within_preparedRx (s : State) (k : ℕ) :
    s.Within [.regs, .csc] (s.preparedRx k) := by
  unfold State.preparedRx
  split
  · exact .mono (.refl _) (by decide)
  · rename_i a2 a3 a4 t5 h6
    have ht5 : s.Within _ t5 := State.within_takeRx h6
    exact .mono (.cond (.after (State.within_agree ..) ht5) ht5) (by decide)

theorem State.within_refusedRx (s : State) (k : ℕ) :
    s.Within [.regs, .csc] (s.refusedRx k) := by
  unfold State.refusedRx
  split
  · exact .mono (.refl _) (by decide)
  · rename_i a2 a3 a4 t5 h6
    have ht5 : s.Within _ t5 := State.within_takeRx h6
    exact .mono (.cond (.after (State.within_refuse ..) ht5) ht5) (by decide)

theorem State.within_noReplies (s : State) :
    s.Within [.regs] s.noReplies := by
  unfold State.noReplies
  extract_lets +onlyGivenNames live got
  exact .mono (.each (fun _ _ => (.cond (.refl _) (State.within_refuse ..))) (.refl _)) (by decide)

theorem State.within_decideSend (s : State) :
    s.Within (.acc :: .taken :: .time :: .clk :: .csc :: ctrParts) s.decideSend := by
  unfold State.decideSend
  split
  · split
    · exact .mono (.refl _) (by decide)
    · split
      · rename_i a7 t8 h9
        have ht8 : s.Within _ t8 := .ofFst (State.within_toBefore ..) h9
        exact .mono (.refl _) (by decide)
      · rename_i a10 t11 h12
        have ht11 : s.Within _ t11 := .ofFst (State.within_toBefore ..) h12
        extract_lets +onlyGivenNames s13
        have hs13 : s.Within _ s13 := .after (State.within_noReplies ..) ht11
        clear_value s13
        extract_lets +onlyGivenNames ok s14
        have hs14 : s.Within _ s14 := .after (State.within_upCsc ..) hs13
        clear_value s14
        exact .mono (.after (State.within_sendEach ..) hs14) (by decide)
  · exact .mono (.refl _) (by decide)

theorem State.within_timeLost (s : State) :
    s.Within (.acc :: .taken :: .time :: .clk :: .csc :: ctrParts) s.timeLost := by
  unfold State.timeLost
  split
  · exact .mono (.refl _) (by decide)
  · extract_lets +onlyGivenNames s2
    have hs2 : s.Within _ s2 := State.within_passTo ..
    clear_value s2
    exact .mono (.after (State.within_raise ..) (.after (State.within_upCsc ..) (.after (State.within_put ..) hs2))) (by decide)

theorem State.within_liveExpire (s : State) (d : ℕ) :
    s.Within (.acc :: .taken :: .time :: .clk :: .csc :: ctrParts) (s.liveExpire d) := by
  unfold State.liveExpire
  extract_lets +onlyGivenNames h
  split
  · exact .mono (.refl _) (by decide)
  · extract_lets +onlyGivenNames s2
    have hs2 : s.Within _ s2 := State.within_passTo ..
    clear_value s2
    extract_lets +onlyGivenNames s3
    have hs3 : s.Within _ s3 := .after (State.within_upCsc ..) hs2
    clear_value s3
    exact .mono (.after (State.within_put ..) hs3) (by decide)

theorem State.within_epochEdge (s : State) (skew : ℤ) :
    s.Within [.regs, .pcie, .out] (s.epochEdge skew) := by
  unfold State.epochEdge
  split
  · exact .mono (.refl _) (by decide)
  · extract_lets +onlyGivenNames s2
    have hs2 : s.Within _ s2 := State.within_put ..
    clear_value s2
    exact .mono (.cond (.after (State.within_raise ..) hs2) hs2) (by decide)

theorem State.within_epochRelease (s : State) :
    s.Within (.acc :: .taken :: .time :: .clk :: .sys :: ctrParts) s.epochRelease := by
  unfold State.epochRelease
  split
  · exact .mono (.refl _) (by decide)
  · extract_lets +onlyGivenNames s2
    have hs2 : s.Within _ s2 := State.within_passTo ..
    clear_value s2
    exact .mono (.after (.upIo (Io.within_setSys ..)) hs2) (by decide)

theorem State.within_rmtRelay (s : State) (f : List Byte) :
    s.Within (.csc :: ctrParts) (s.rmtRelay f) := by
  unfold State.rmtRelay
  split
  · exact .mono (.refl _) (by decide)
  · exact State.within_sendCtl ..

theorem State.within_rmtAnswer (s : State) (k d tag code data : ℕ) :
    s.Within (.csc :: ctrParts) (s.rmtAnswer k d tag code data) := by
  unfold State.rmtAnswer
  exact State.within_sendCtl ..

theorem State.within_rmtRspRx (s : State) (k : ℕ) :
    s.Within (.csc :: ctrParts) (s.rmtRspRx k) := by
  unfold State.rmtRspRx
  split
  · exact .mono (.refl _) (by decide)
  · rename_i a2 a3 a4 t5 h6
    have ht5 : s.Within _ t5 := State.within_takeRx h6
    split
    · exact .mono (.after (State.within_rmtRelay ..) ht5) (by decide)
    · extract_lets +onlyGivenNames p
      split
      · exact .mono ht5 (by decide)
      · extract_lets +onlyGivenNames late s11
        have hs11 : s.Within _ s11 := .after (State.within_upCsc ..) ht5
        clear_value s11
        split
        · exact .mono (.after (State.within_put ..) hs11) (by decide)
        · extract_lets +onlyGivenNames s14
          have hs14 : s.Within _ s14 := .cond hs11 (.after (State.within_put ..) hs11)
          clear_value s14
          exact .mono (.after (State.within_put ..) hs14) (by decide)

theorem State.within_rmtTimeout (s : State) :
    s.Within (.acc :: .taken :: .time :: .clk :: .csc :: ctrParts) s.rmtTimeout := by
  unfold State.rmtTimeout
  split
  · exact .mono (.refl _) (by decide)
  · extract_lets +onlyGivenNames s2
    have hs2 : s.Within _ s2 := State.within_passTo ..
    clear_value s2
    exact .mono (.after (State.within_put ..) (.after (State.within_upCsc ..) hs2)) (by decide)

theorem State.within_scrubFixed (s : State) (copy : Bool) (base idx : ℕ) :
    s.Within reportParts (s.scrubFixed copy base idx) := by
  unfold State.scrubFixed
  exact .mono (.cond (State.within_report ..) (State.within_report ..)) (by decide)

theorem State.within_stagingLost (s : State) (p place : ℕ) :
    s.Within (.buf :: reportParts) (s.stagingLost p place) := by
  unfold State.stagingLost
  split
  · exact .mono (.refl _) (by decide)
  · extract_lets +onlyGivenNames s5
    have hs5 : s.Within _ s5 := State.within_setStaged ..
    clear_value s5
    exact .mono (.after (State.within_report ..) (.after (State.within_ctr ..) hs5)) (by decide)

theorem State.within_scrubLost (s : State) (base idx detail : ℕ) :
    s.Within reportParts (s.scrubLost base idx detail) := by
  unfold State.scrubLost
  exact State.within_report ..

theorem State.within_actGone (s : State) (k : ℕ) :
    s.Within [.act] (s.actGone k) := by
  unfold State.actGone
  exact State.within_setAct ..

theorem State.within_fwdGone (s : State) (k : ℕ) :
    s.Within [.fwd] (s.fwdGone k) := by
  unfold State.fwdGone
  exact State.within_setFwd rfl

theorem State.within_quarantine (s : State) (g idx : ℕ) :
    s.Within (.act :: reportParts) (s.quarantine g idx) := by
  unfold State.quarantine
  exact .mono (.after (State.within_scrubLost ..) (State.within_setAct ..)) (by decide)

theorem State.within_nanoRefetched (s : State) (q idx : ℕ) :
    s.Within reportParts (s.nanoRefetched q idx) := by
  unfold State.nanoRefetched
  exact .mono (.after (State.within_report ..) (.after (State.within_raiseOnce ..) (State.within_ctr ..))) (by decide)

theorem State.within_mcRecord (s : State) (cause : ℕ) :
    s.Within reportParts (s.mcRecord cause) := by
  unfold State.mcRecord
  exact .mono (.after (State.within_raise ..) (.after (State.within_bump ..) (State.within_report ..))) (by decide)

theorem State.within_coreMasters (s : State) :
    s.Within [.regs, .pcie, .out, .cph] s.coreMasters := by
  unfold State.coreMasters
  extract_lets +onlyGivenNames s0
  have hs0 : s.Within _ s0 := .upIo (.after (Io.within_mbxReset ..) (.after (Io.within_semFree ..) (Io.within_semFree ..)))
  clear_value s0
  exact .mono (.after (State.within_zeroizeOf ..) hs0) (by decide)

theorem State.within_mcRestart (s : State) (cause : ℕ) :
    s.Within (.cph :: .fw :: reportParts) (s.mcRestart cause) := by
  unfold State.mcRestart
  exact .mono (.after (State.within_upFw ..) (.after (State.within_mcRecord ..) (State.within_coreMasters ..))) (by decide)

theorem State.within_logCountUp (s : State) :
    s.Within [.ras] s.logCountUp := by
  unfold State.logCountUp
  extract_lets +onlyGivenNames sec n
  exact .mono (.upIo (Io.within_setRas ..)) (by decide)

theorem State.within_logOne (s : State) :
    s.Within reportParts s.logOne := by
  unfold State.logOne
  split
  · exact .mono (.refl _) (by decide)
  · extract_lets +onlyGivenNames s6
    have hs6 : s.Within _ s6 := .upIo (Io.within_setRas ..)
    clear_value s6
    extract_lets +onlyGivenNames s7
    have hs7 : s.Within reportParts s7 := .mono (.cond (.after (State.within_logCountUp ..) (.after (State.within_logWrite ..) hs6)) (.after (State.within_raiseOnce ..) (.after (State.within_ctr ..) hs6))) (by decide)
    clear_value s7
    exact .mono (.after (.upIo (Io.within_ringPut ..)) hs7) (by decide)

theorem State.within_markSlot (s : State) (n : ℕ) (v : Bool) :
    s.Within [.nvm] (s.markSlot n v) := by
  unfold State.markSlot
  exact State.within_upNvm ..

theorem State.within_fwChecked (s : State) (img : List Byte) (dmaOk : Bool) :
    s.Within [.regs, .pcie, .nvm, .out, .fw] (s.fwChecked img dmaOk) := by
  unfold State.fwChecked
  split
  · exact .mono (.refl _) (by decide)
  · split
    · exact .mono (.refl _) (by decide)
    · split
      · exact .mono (State.within_fwEnd ..) (by decide)
      · split
        · exact .mono (State.within_fwEnd ..) (by decide)
        · split
          · exact .mono (State.within_fwEnd ..) (by decide)
          · exact .mono (.after (State.within_upFw ..) (State.within_markSlot ..)) (by decide)

theorem State.within_fwProgrammed (s : State) (ok : Bool) :
    s.Within [.regs, .bank, .pcie, .nvm, .out, .free, .fw] (s.fwProgrammed ok) := by
  unfold State.fwProgrammed
  split
  · exact .mono (.refl _) (by decide)
  · split
    · exact .mono (.refl _) (by decide)
    · split
      · exact .mono (State.within_fwEnd ..) (by decide)
      · extract_lets +onlyGivenNames s9
        have hs9 : s.Within _ s9 := .after (State.within_recordVersion ..) (State.within_markSlot ..)
        clear_value s9
        extract_lets +onlyGivenNames rec' s10
        have hs10 : s.Within _ s10 := .after (State.within_fwEnd ..) hs9
        clear_value s10
        exact .mono (.cond (.after (State.within_bootSlot ..) hs10) hs10) (by decide)

theorem State.within_yieldTimeout (s : State) :
    s.Within (.acc :: .taken :: .time :: .clk :: .fw :: reportParts) s.yieldTimeout := by
  unfold State.yieldTimeout
  split
  · exact .mono (.refl _) (by decide)
  · extract_lets +onlyGivenNames s2
    have hs2 : s.Within _ s2 := .after (State.within_mcRecord ..) (State.within_passTo ..)
    clear_value s2
    exact .mono (.after (State.within_upFw ..) hs2) (by decide)

theorem State.within_warmStart (s : State) :
    s.Within (.acc :: .taken :: .time :: .clk :: .free :: .fw :: ctrParts) s.warmStart := by
  unfold State.warmStart
  split
  · exact .mono (.refl _) (by decide)
  · extract_lets +onlyGivenNames s2
    have hs2 : s.Within _ s2 := State.within_passTo ..
    clear_value s2
    exact .mono (.after (State.within_startSlot ..) hs2) (by decide)

theorem State.within_fallBack (s : State) :
    s.Within (.bank :: .free :: .fw :: reportParts) s.fallBack := by
  unfold State.fallBack
  extract_lets +onlyGivenNames old back s0
  have hs0 : s.Within _ s0 := .after (State.within_startSlot ..) (State.within_setSel ..)
  clear_value s0
  exact .mono (.after (State.within_raise ..) (.after (State.within_report ..) (.after (State.within_put ..) hs0))) (by decide)

theorem State.within_fwWdog (s : State) (other : List Byte) :
    s.Within (.bank :: .acc :: .taken :: .time :: .clk :: .free :: .fw :: reportParts) (s.fwWdog other) := by
  unfold State.fwWdog
  extract_lets +onlyGivenNames t
  split
  · exact .mono (.after (State.within_fallBack ..) (State.within_passTo ..)) (by decide)
  · extract_lets +onlyGivenNames img s4
    have hs4 : s.Within _ s4 := State.within_passTo ..
    clear_value s4
    exact .mono (.cond (.after (State.within_fallBack ..) (.after (State.within_recordVersion ..) hs4)) (.after (State.within_upFw ..) hs4)) (by decide)
  · exact .mono (.refl _) (by decide)

theorem State.within_mcWdog (s : State) :
    s.Within (.acc :: .taken :: .time :: .clk :: .cph :: .fw :: reportParts) s.mcWdog := by
  unfold State.mcWdog
  extract_lets +onlyGivenNames l
  exact .mono (.cond (.refl _) (.after (State.within_mcRestart ..) (State.within_passTo ..))) (by decide)

theorem State.within_linkDownPcie (s : State) :
    s.Within [.pcie] s.linkDownPcie := by
  unfold State.linkDownPcie
  exact State.within_upPcie ..

theorem State.within_linkUpPcie (s : State) (speed w : ℕ) :
    s.Within [.regs, .wcount, .modCnt, .pcie, .out, .jobs] (s.linkUpPcie speed w) := by
  unfold State.linkUpPcie
  exact .mono (.cond (.refl _) (.after (.upIo (Io.within_flushPend ..)) (.after (State.within_flushCmds ..) (State.within_upPcie ..)))) (by decide)

theorem State.within_configWrite (s : State) (w : CfgWrite) :
    s.Within [.regs, .wcount, .modCnt, .pcie, .out, .fw, .jobs] (s.configWrite w) := by
  unfold State.configWrite
  split
  · exact .mono (.refl _) (by decide)
  · extract_lets +onlyGivenNames s2
    have hs2 : s.Within _ s2 := State.within_upPcie ..
    clear_value s2
    extract_lets +onlyGivenNames s3
    have hs3 : s.Within _ s3 := .cond (.after (State.within_flushCmds ..) hs2) (.after (State.within_fwHostGone ..) hs2)
    clear_value s3
    exact .mono (.after (.upIo (Io.within_flushPend ..)) hs3) (by decide)

theorem State.within_stackTx (s : State) (k : ℕ) (cells : List (ℕ × Bool)) :
    s.Within (.acc :: .taken :: .time :: .clk :: .buf :: .tel :: .csc :: reportParts) (s.stackTx k cells) := by
  unfold State.stackTx
  split
  · exact .mono (.refl _) (by decide)
  · extract_lets +onlyGivenNames q
    split
    · exact .mono (.refl _) (by decide)
    · extract_lets +onlyGivenNames s8
      have hs8 : s.Within _ s8 := .after (State.within_readCells ..) (State.within_passTo ..)
      clear_value s8
      extract_lets +onlyGivenNames bad s9
      have hs9 : s.Within _ s9 := .after (State.within_sendStack ..) hs8
      clear_value s9
      extract_lets +onlyGivenNames s10
      have hs10 : s.Within _ s10 := .after (State.within_changeQueue ..) hs9
      clear_value s10
      exact .mono (.after (State.within_traceDone ..) (.after (State.within_release ..) (.after (State.within_stomp ..) hs10))) (by decide)

theorem State.within_ledTimer (s : State) (n : ℕ) :
    s.Within [.sys] (s.ledTimer n) := by
  unfold State.ledTimer
  split
  · exact State.within_upSys ..
  · exact State.within_upSys ..
  · exact .mono (.refl _) (by decide)

end Sys2Proof.Machine
end

section
/-!
SUPPORT. Footprints that need more than those of the operations: a word dropped, a device made anew, a state inside an option.
-/
namespace Sys2Proof.Machine

/-- What a cold release keeps of `io`. -/
theorem Io.within_setKept (s : Io) (n : Nvm) (o : List Out) (f : Nat) (p : Pcie) :
    s.Within [.nvm, .out, .free, .pcie] { s with nvm := n, out := o, free := f, pcie := p } := by
  refine .beside (fun p hp => ?_) (by decide)
  cases p
  case nvm | out | free | pcie => exact (hp (by decide)).elim
  all_goals rfl

theorem Io.within_mgmtReset (s : Io) :
    s.Within [.regs, .ctrSlot, .timeSlot, .wcount, .modCnt, .fetch] s.mgmtReset := by
  have hd : s.Within [.regs, .wcount, .modCnt, .fetch]
      { s with regs := s.regs.drop inHif, wcount := [], modCnt := [], fetch := [] } := by
    refine .of_regs (fun p hp => ?_) (fun h => SMap.wf_drop inHif h)
    cases p
    case regs | wcount | modCnt | fetch => exact (hp (by decide)).elim
    all_goals rfl
  unfold Io.mgmtReset
  exact .mono (.after (within_bumpSat ..) (.after (within_wr ..) (.each (fun _ _ => within_wr ..)
    (.after (within_setCtrSlotTimeSlot ..) (.after (within_semFree ..) (.after (within_semFree ..) hd)))))) (by decide)

namespace State

variable (s : State)

theorem within_fabErr (m a base : Nat) (f : State → State) {F : List Part} (hf : ∀ x, State.Within F x (f x)) :
    s.Within (F ++ ctrParts) (s.fabErr m a base f) := by
  unfold State.fabErr
  extract_lets t
  have ht : s.Within F t := hf s
  clear_value t
  split
  · exact ht.mono (List.subset_append_left _ _)
  · split
    · exact ht.mono (List.subset_append_left _ _)
    · exact ht.seq (.upIo (Io.within_filtered ..))

theorem within_countBlocks (n : Nat) (f : State → State) {F : List Part} (hf : ∀ x, State.Within F x (f x)) :
    s.Within (F ++ .free :: ctrParts) (s.countBlocks n f) := by
  unfold State.countBlocks
  split
  · exact .mono (.refl _) (List.nil_subset _)
  · extract_lets most d t
    have ht : s.Within ([.free] ++ F ++ ctrParts) t := .after (within_ctr ..) (.after (hf _) (within_draw s))
    clear_value t
    refine .mono (.after (within_ctr ..) ht) fun p hp => ?_
    simp only [List.mem_append, List.mem_cons] at hp ⊢
    tauto

/-- Everything but the queue of commands. -/
abbrev allParts : List Part :=
  .buf :: .fwd :: .fmc :: .flow :: .act :: .tel :: .policy :: .pip :: .csc :: .qnc :: .cph :: .fw :: .jobs :: ioParts

/-- A cold release leaves a state made anew, in which the operations that follow keep the stores in canonical form. -/
theorem within_coldRelease (testEn : Bool) : s.Within allParts (s.coldRelease testEn) := by
  unfold State.coldRelease
  split
  · exact .mono (.refl _) (by decide)
  · split
    · exact .mono (within_upSys ..) (by decide)
    · extract_lets y t t1 t2
      have h1 : t.Within ioParts t1 := .upIo (.mono (Io.within_setKept ..) (by decide))
      have h : t.Within ioParts (t2.put pgSys SYS_RST_CAUSE.COLD y.coldCause) := .step (.step h1 (within_upSys ..) (by decide)) (within_put ..) (by decide)
      refine ⟨fun p hp => ?_, fun _ => h.canon rfl⟩
      cases p
      case pending => exact h.same .pending (by decide)
      all_goals exact (hp (by decide)).elim

theorem within_closeNow (at' lastEpoch l : Nat) : s.Within (.bank :: .nvm :: .qnc :: ctrParts) (s.closeNow at' lastEpoch l) := by
  unfold State.closeNow
  extract_lets +onlyGivenNames num keyId h par todo c
  extract_lets +onlyGivenNames io nvm t0
  have h0 : s.Within _ t0 := .cond (.setIo (Io.within_setNvm ..)) (.refl _)
  clear_value t0
  extract_lets +onlyGivenNames t1 t2
  have h2 : s.Within _ t2 := .after (within_put ..) (.after (within_put ..) (.after (within_put ..) (.after (within_upQnc ..)
    (.after (within_keyInForce ..) h0))))
  clear_value t2
  exact .mono (.cond (.after (within_completeBlock ..) h2) h2) (by decide)

theorem within_alivePersist : s.Within [.time, .nvm] s.alivePersist :=
  .mono (.after (within_writeAlive ..) (.setIo (Io.within_setTime ..))) (by decide)

theorem within_profWrite (c : Cmd) (p : Nat) : s.Within [.fwd] (s.profWrite c p).1 := by
  unfold State.profWrite
  split
  · exact .fstMk (.mono (.refl _) (by decide))
  · split
    · exact .fstMk (.mono (.refl _) (by decide))
    · extract_lets v
      refine .fstMk (.foldl (fun x b => ?_) (.mono (.refl _) (by decide)))
      exact within_setFwd rfl

theorem within_commitPages (num at' : Nat) :
    s.Within (.bank :: .buf :: .act :: .pip :: .fw :: ctrParts) (s.commitPages num at').1 := by
  unfold State.commitPages
  extract_lets pgs t
  have ht : s.Within _ t := .upIo (.each (fun _ _ => Io.within_flipPage ..) (.refl _))
  clear_value t
  refine .foldlFst (p := (t, false)) (fun x pg => ?_) (.mono ht (by decide))
  exact within_adopt x.1 at' pg

theorem within_diagDone (st : Nat) (raw : Option (BitVec 576)) : s.Within [.regs, .pcie, .out, .fmc] (s.diagDone st raw) := by
  unfold State.diagDone
  split
  · exact .mono (.refl _) (by decide)
  next d hd =>
    extract_lets +onlyGivenNames b k
    extract_lets +onlyGivenNames fmc t
    have ht : s.Within _ t := within_setFmc rfl
    clear_value t
    extract_lets v fmc' v' u
    clear_value v v'
    have hu : s.Within _ u := .cond (.after (within_setMem rfl) ht) (.each (fun _ _ => within_put ..) ht)
    exact .mono (.after (within_raise ..) (.after (within_put ..) hu)) (by decide)

variable {s}

theorem within_nextPass {p : Nat} {k : Pkt} {t : State} (he : s.nextPass p = some (k, t)) : s.Within [.regs, .out, .buf] t := by
  unfold State.nextPass at he
  split at he
  · obtain ⟨-, rfl⟩ : _ ∧ _ := by simpa using he
    exact .mono (within_setBuf ..) (by decide)
  · split at he
    · obtain ⟨-, rfl⟩ : _ ∧ _ := by simpa using he
      exact .mono (within_setBuf ..) (by decide)
    · split at he
      · obtain ⟨-, rfl⟩ : _ ∧ _ := by simpa using he
        exact .mono (.cond (within_setStaged ..) (.after (within_fcUpdate ..) (within_setStaged ..))) (by decide)
      · exact absurd he (by simp)

theorem within_takeIndex {r : Nat} {t : State} (he : s.takeIndex = some (r, t)) :
    s.Within (.free :: .flow :: .policy :: .pip :: ctrParts) t := by
  unfold State.takeIndex at he
  split at he
  · exact absurd he (by simp)
  · split at he
    rename_i v u hv
    have hu : s.Within _ u := .ofSnd (within_draw s) hv
    obtain ⟨-, rfl⟩ : _ ∧ _ := by simpa using he
    exact .mono (.after (within_occupancy ..) (.after (within_setFlow ..) hu)) (by decide)

theorem within_opLoad {q c sp a n dst : Nat} {t : State} (he : s.opLoad q c sp a n dst = .ok t) : s.Within [.pip] t := by
  unfold State.opLoad at he
  split at he
  · exact absurd he (by simp)
  · exact absurd he (by simp)
  · split at he
    · exact absurd he (by simp)
    · obtain rfl := Except.ok.inj he
      exact within_upCtx ..

theorem within_natStore {q : Nat} {x : Ctx} {sp a : Nat} {l : List Byte} {t : State} {g : List Nat}
    (he : s.natStore q x sp a l = some (t, g)) : s.Within [.regs, .fwd, .act, .qnc] t := by
  have hs := within_spaceStore s q x sp a l
  unfold State.natStore at he
  dsimp only at he
  split at he
  · split at he
    · obtain ⟨rfl, -⟩ : _ ∧ _ := by simpa using he
      exact hs
    · exact absurd he (by simp)
  · split at he
    · split at he
      · obtain ⟨rfl, -⟩ : _ ∧ _ := by simpa using he
        exact hs
      · exact absurd he (by simp)
    · exact absurd he (by simp)

theorem within_stageOp {q c : Nat} {e : Staged} {t : State} (he : s.stageOp q c e = .ok t) : s.Within [.pip] t := by
  unfold State.stageOp at he
  split at he
  · exact absurd he (by simp)
  · obtain rfl := Except.ok.inj he
    exact within_upCtx ..

theorem within_opStore {q c sp a : Nat} {l : List Byte} {t : State} (he : s.opStore q c sp a l = .ok t) :
    s.Within [.regs, .fwd, .act, .qnc, .pip] t := by
  unfold State.opStore at he
  split at he
  · exact absurd he (by simp)
  · split at he
    · exact absurd he (by simp)
    · split at he
      · rename_i u g hg
        obtain rfl := Except.ok.inj he
        exact .mono (.after (within_upCtx ..) (within_natStore hg)) (by decide)
      · exact .mono (within_stageOp he) (by decide)

theorem within_opClaim {q c sp : Nat} {t : State} (he : s.opClaim q c sp = .ok t) : s.Within [.flow, .pip] t := by
  unfold State.opClaim at he
  dsimp only at he
  split at he
  · exact absurd he (by simp)
  · obtain rfl := Except.ok.inj he
    exact .mono (.after (within_setCtx ..) (within_claimOf ..)) (by decide)

theorem within_opLock {q c key : Nat} {t : State} (he : s.opLock q c key = .ok t) : s.Within [.pip] t := by
  unfold State.opLock at he
  dsimp only at he
  split at he
  · exact absurd he (by simp)
  · split at he
    · obtain rfl := Except.ok.inj he
      exact .mono (.after (within_upCtx ..) (within_takeLock ..)) (by decide)
    · obtain rfl := Except.ok.inj he
      exact within_upCtx ..

theorem within_aluPart {q c arg : Nat} {n : Nano} {t : State} (he : s.aluPart q c arg n = .ok t) : s.Within [.free, .pip] t := by
  unfold State.aluPart at he
  extract_lets x a b d at he
  split at he
  · exact absurd he (by simp)
  · extract_lets y z at he
    have hz : s.Within [.free] z.1 := by
      unfold z
      split
      · exact within_flagsOf ..
      · exact .fstMk (.mono (.refl _) (by decide))
    clear_value z
    split at he
    · exact absurd he (by simp)
    · obtain rfl := Except.ok.inj he
      exact .mono (.after (within_setCtx ..) hz) (by decide)

theorem within_natBlock {x : Ctx} {ps : Pass} {pool g : Nat} {t : State} (he : s.natBlock x ps pool = some (g, t)) : s.Within [.act] t := by
  unfold State.natBlock at he
  extract_lets w k l at he
  split at he
  · obtain ⟨-, rfl⟩ : _ ∧ _ := by simpa using he
    exact .mono (.refl _) (by decide)
  · split at he
    · exact absurd he (by simp)
    · split at he
      · exact absurd he (by simp)
      · obtain ⟨-, rfl⟩ : _ ∧ _ := by simpa using he
        exact .mono (.after (within_setBinding ..) (within_setBlock ..)) (by decide)

theorem within_firstCopy {k : Nat} {f : List Byte} {t : State} (he : s.firstCopy k f = some t) : s.Within (.csc :: ctrParts) t := by
  unfold State.firstCopy at he
  extract_lets key u frm at he
  split at he
  · exact absurd he (by simp)
  · obtain rfl := Option.some.inj he
    exact .mono (.after (within_sendEach ..) (within_upCsc ..)) (by decide)

theorem within_refuseCopy {w : WReq} {t : State} (he : s.refuseCopy w = some t) : s.Within (.fmc :: reportParts) t := by
  unfold State.refuseCopy at he
  split at he
  · split at he
    · obtain rfl := Option.some.inj he
      exact .mono (.after (within_lineLost ..) (within_writeFailed ..)) (by decide)
    · exact absurd he (by simp)
  · obtain rfl := Option.some.inj he
    exact .mono (within_degrade ..) (by decide)

theorem within_accept {w : WReq} {t : State} (he : s.accept w = some t) : s.Within (.fmc :: reportParts) t := by
  have hp : s.Within _ ((s.noteWrite w.pc w.la).bgPay w.cls w.who) := .after (within_bgPay ..) (within_noteWrite ..)
  unfold State.accept at he
  split at he
  · obtain rfl := Option.some.inj he
    exact .mono (.after (within_enterWq ..) hp) (by decide)
  · dsimp only at he
    obtain rfl := Option.some.inj he
    exact .mono (.after (within_setTbuf ..) hp) (by decide)
  · split at he
    · obtain rfl := Option.some.inj he
      exact .mono (.refl _) (by decide)
    · exact within_refuseCopy he
  · exact absurd he (by simp)

end State

/-- The parts of a command one after the other. -/
theorem within_runParts (pipe : Nat → Option Nat) (f : State → Nat → State × Res) (ps : List Nat) (s : State) {F : List Part}
    (hf : ∀ x p, State.Within F x (f x p).1) : s.Within (F ++ ctrParts) (runParts pipe f ps s).1 := by
  induction ps generalizing s with
  | nil => exact .mono (.refl _) (List.nil_subset _)
  | cons p ps ih =>
    have hp : s.Within (F ++ ctrParts) (f (s.countPart (pipe p)) p).1 :=
      (State.within_countPart s (pipe p)).mono (List.subset_append_right _ _) |>.trans ((hf _ _).mono (List.subset_append_left _ _))
    exact hp.trans (ih _)

theorem State.within_runCmd (s : State) (c : Cmd) (valid : Nat) (one : Bool) (pipe : Nat → Option Nat) (wait : Nat → Bool)
    (f : State → Nat → State × Res) {F : List Part} (hf : ∀ x p, State.Within F x (f x p).1) :
    s.Within (F ++ .wcount :: .modCnt :: .jobs :: ctrParts) (s.runCmd c valid one pipe wait f) := by
  have hsub : (.wcount :: .modCnt :: .jobs :: ctrParts : List Part) ⊆ F ++ .wcount :: .modCnt :: .jobs :: ctrParts :=
    List.subset_append_right _ _
  have hfail (code : Nat) : s.Within (F ++ .wcount :: .modCnt :: .jobs :: ctrParts) ((s.unhold c.queue.val).cmdFail c code) :=
    .mono (.mono (G := .wcount :: .modCnt :: .jobs :: ctrParts) (.after (within_cmdFail ..) (within_unhold ..)) (by decide)) hsub
  unfold State.runCmd
  split
  · exact .mono (.refl _) (List.nil_subset _)
  · split
    · exact hfail _
    · split
      · exact hfail _
      · split
        · exact .mono (.mono (within_holdWait ..) (by decide)) hsub
        · have hr := within_runParts pipe f c.partList (s.unhold c.queue.val) hf
          have hs : s.Within (F ++ .wcount :: .modCnt :: .jobs :: ctrParts) (runParts pipe f c.partList (s.unhold c.queue.val)).1 := by
            refine ((within_unhold s _).mono ?_).trans (hr.mono ?_)
            · exact fun p hp => hsub (by simp_all)
            · exact fun p hp => by simp only [List.mem_append, List.mem_cons] at hp ⊢; tauto
          exact hs.trans (.mono (.mono (G := .wcount :: .modCnt :: .jobs :: ctrParts) (.upIo (Io.within_cmdDone ..)) (by decide)) hsub)

end Sys2Proof.Machine
end

section
/-!
SUPPORT. The footprints of the operations above those.
-/
namespace Sys2Proof.Machine

theorem State.within_badSize (s : State) (m a : ℕ) (write : Bool) :
    s.Within ctrParts (s.badSize m a write) := by
  unfold State.badSize
  split
  · exact .mono (State.within_unmapped ..) (by decide)
  · exact .mono (.cond (State.within_violate ..) (.after (State.within_fabErr (hf := (fun _ => (State.within_pageErr ..))) ..) (State.within_fabCount ..))) (by decide)

theorem State.within_countPage (s : State) (u n : ℕ) :
    s.Within (.free :: ctrParts) (s.countPage u n) := by
  unfold State.countPage
  exact .mono (State.within_countBlocks (hf := (fun _ => (State.within_ctr ..))) ..) (by decide)

theorem State.within_runSegment (s : State) (u budget : ℕ) (input : List Byte) :
    s.Within (.free :: .cph :: ctrParts) (s.runSegment u budget input) := by
  unfold State.runSegment
  split
  · extract_lets +onlyGivenNames j mask i r s6
    extract_lets +onlyGivenNames s7
    have hs7 : s.Within _ s7 := State.within_setCpage ..
    clear_value s7
    extract_lets +onlyGivenNames s8
    have hs8 : s.Within _ s8 := .after (State.within_put ..) hs7
    clear_value s8
    exact .mono (.after (State.within_countPage ..) (.after (State.within_jobOut ..) hs8)) (by decide)
  · exact .mono (.refl _) (by decide)

theorem State.within_jobAbort (s : State) (u done : ℕ) (input : List Byte) :
    s.Within (.free :: .cph :: ctrParts) (s.jobAbort u done input) := by
  unfold State.jobAbort
  split
  · exact .mono (.refl _) (by decide)
  · extract_lets +onlyGivenNames held s2
    have hs2 : s.Within _ s2 := .cond (State.within_runSegment ..) (.refl _)
    clear_value s2
    exact .mono (.after (State.within_jobEnd ..) (.after (State.within_msgEnd ..) hs2)) (by decide)

theorem State.within_abortWrite (s : State) (u : ℕ) :
    s.Within (.free :: .cph :: ctrParts) (s.abortWrite u) := by
  unfold State.abortWrite
  split
  · rename_i a0 a1 t2 h3
    have ht2 : s.Within _ t2 := .ofSnd (State.within_draw ..) h3
    extract_lets +onlyGivenNames done
    split
    · rename_i a4 a5 t6 h7
      have ht6 : s.Within _ t6 := .ofSnd (.after (State.within_freeBytes ..) ht2) h7
      exact .mono (.after (State.within_jobAbort ..) ht6) (by decide)

theorem State.within_jobCtl (s : State) (u v : ℕ) :
    s.Within (.free :: .cph :: ctrParts) (s.jobCtl u v) := by
  unfold State.jobCtl
  exact .mono (.cond (State.within_abortWrite ..) (.cond (State.within_jobGo ..) (.refl _))) (by decide)

theorem State.within_wCphu (s : State) (pg : Page) (h : Hit) (o m v : ℕ) :
    s.Within (.bank :: .free :: .cph :: ctrParts) (s.wCphu pg h o m v) := by
  unfold State.wCphu
  extract_lets +onlyGivenNames u
  split
  · exact .mono (State.within_pageErr ..) (by decide)
  · split
    · exact .mono (State.within_keyCtl ..) (by decide)
    · split
      · extract_lets +onlyGivenNames p
        exact .mono (State.within_setCpage ..) (by decide)
      · exact .mono (.cond (State.within_jobCtl ..) (.cond (State.within_pageErr ..) (State.within_plain ..))) (by decide)

theorem State.within_acceptAll (s : State) (l : List WReq) :
    s.Within (.fmc :: reportParts) (s.acceptAll l) := by
  unfold State.acceptAll
  refine .foldl (fun x0 b1 => ?_) (.mono (.refl _) (by decide))
  split
  · rename_i a2 t3 h4
    have ht3 : x0.Within _ t3 := State.within_accept h4
    exact .mono ht3 (by decide)
  · exact .mono (State.within_setFmc rfl) (by decide)

theorem State.within_acceptLine (s : State) (w : WReq) :
    s.Within (.fmc :: reportParts) (s.acceptLine w) := by
  unfold State.acceptLine
  split
  · exact .mono (.after (State.within_acceptAll ..) (State.within_setFmc rfl)) (by decide)

theorem State.within_settle (s : State) (pc a0 : ℕ) :
    s.Within (.acc :: .fmc :: reportParts) (s.settle pc a0) := by
  induction a0 generalizing s pc with
  | zero =>
    rw [State.settle]
    exact .mono (.refl _) (by decide)
  | succ r ih =>
    rw [State.settle]
    split
    · exact .mono (.refl _) (by decide)
    · exact .mono (.after (ih ..) (.after (State.within_acceptLine ..) (.cond (State.within_makeRoom ..) (.refl _)))) (by decide)

theorem State.within_writeNow (s : State) (l : Loc) (v : Line) (cls who : ℕ) :
    s.Within (.acc :: .fmc :: reportParts) (s.writeNow l v cls who) := by
  unfold State.writeNow
  refine .foldl (fun x0 b1 => ?_) (.mono (.refl _) (by decide))
  extract_lets +onlyGivenNames s2
  have hs2 : x0.Within _ s2 := State.within_settle ..
  clear_value s2
  exact .mono (.getD (fun _ he => (.after (State.within_accept he) (.cond (.after (State.within_makeRoom ..) hs2) hs2))) hs2) (by decide)

theorem State.within_writeBack (s : State) (i : ℕ) :
    s.Within (.acc :: .fmc :: reportParts) (s.writeBack i) := by
  unfold State.writeBack
  extract_lets +onlyGivenNames l
  exact .mono (.cond (.refl _) (State.within_writeNow ..)) (by decide)

theorem State.within_dropLine (s : State) (key r : ℕ) :
    s.Within (.acc :: .fmc :: .flow :: reportParts) (s.dropLine key r) := by
  unfold State.dropLine
  split
  · exact .mono (.after (State.within_setCache ..) (State.within_writeBack ..)) (by decide)
  · exact .mono (.refl _) (by decide)

theorem State.within_loseBucket (s : State) (b : ℕ) :
    s.Within (.acc :: .fmc :: .flow :: reportParts) (s.loseBucket b) := by
  unfold State.loseBucket
  extract_lets +onlyGivenNames l v held s0
  have hs0 : s.Within _ s0 := .each (fun _ _ => (.after (State.within_loseRecord ..) (State.within_dropLine ..))) (.refl _)
  clear_value s0
  exact .mono (.after (State.within_writeNow ..) hs0) (by decide)

theorem State.within_admitReads (s : State) (pc a0 : ℕ) :
    s.Within (.fmc :: ctrParts) (s.admitReads pc a0) := by
  induction a0 generalizing s pc with
  | zero =>
    rw [State.admitReads]
    exact .mono (.refl _) (by decide)
  | succ r ih =>
    rw [State.admitReads]
    split
    · exact .mono (.refl _) (by decide)
    · exact .mono (.cond (.refl _) (.after (ih ..) (.after (State.within_queueRead ..) (State.within_setRqWaiting ..)))) (by decide)

theorem State.within_fly (s : State) (pc : ℕ) (r : Req) :
    s.Within (.acc :: .fmc :: ctrParts) (s.fly pc r) := by
  unfold State.fly
  extract_lets +onlyGivenNames s0
  have hs0 : s.Within _ s0 := State.within_setRq ..
  clear_value s0
  extract_lets +onlyGivenNames s1
  have hs1 : s.Within _ s1 := .after (State.within_countRead ..) (.after (State.within_openRow ..) (.after (State.within_bgPay ..) hs0))
  clear_value s1
  extract_lets +onlyGivenNames s2
  extract_lets +onlyGivenNames s3
  have hs3 : s.Within _ s3 := .after (State.within_setFmc rfl) hs1
  clear_value s3
  exact .mono (.after (State.within_admitReads ..) hs3) (by decide)

theorem State.within_ahead (s : State) (pc cls a0 : ℕ) :
    s.Within (.acc :: .fmc :: ctrParts) (s.ahead pc cls a0) := by
  induction a0 generalizing s pc cls with
  | zero =>
    rw [State.ahead]
    exact .mono (.refl _) (by decide)
  | succ r ih =>
    rw [State.ahead]
    split
    · exact .mono (.refl _) (by decide)
    · extract_lets +onlyGivenNames m s2
      have hs2 : s.Within _ s2 := State.within_setMode ..
      clear_value s2
      split
      · exact .mono (.after (ih ..) (.after (State.within_drainWrite ..) hs2)) (by decide)
      · split
        · exact .mono (.after (ih ..) (.after (State.within_fly ..) hs2)) (by decide)
        · exact .mono hs2 (by decide)

theorem State.within_arrayRead (s : State) (l : Loc) (side : Bool) (cls who : ℕ) (e : ReadEnd) :
    s.Within (.acc :: .free :: .fmc :: reportParts) ((s.arrayRead l side cls who e).2) := by
  unfold State.arrayRead
  extract_lets +onlyGivenNames p s0
  have hs0 : s.Within _ s0 := State.within_ahead ..
  clear_value s0
  extract_lets +onlyGivenNames s1
  have hs1 : s.Within _ s1 := .after (State.within_countRead ..) (.after (State.within_openRow ..) (.after (State.within_bgPay ..) hs0))
  clear_value s1
  extract_lets +onlyGivenNames v e2
  split
  · rename_i a3 a4 t5 h6
    have ht5 : s.Within _ t5 := .ofSnd (.after (State.within_readEnds ..) hs1) h6
    split
    · exact .sndMk (.mono (.cond (.after (State.within_scrubBack ..) ht5) ht5) (by decide))
    · exact .sndMk (.mono ht5 (by decide))

theorem State.within_readCopy (s : State) (l : Loc) (side : Bool) (cls who : ℕ) (drain : Bool) (e : ReadEnd) :
    s.Within (.acc :: .free :: .fmc :: reportParts) ((s.readCopy l side cls who drain e).2) := by
  unfold State.readCopy
  extract_lets +onlyGivenNames p
  split
  · exact .sndMk (.mono (State.within_ctr ..) (by decide))
  · exact .mono (.after (State.within_arrayRead ..) (.after (State.within_drainWrite ..) (State.within_ctr ..))) (by decide)
  · exact State.within_arrayRead ..

theorem State.within_readNow (s : State) (l : Loc) (cls who : ℕ) (drain : Bool) (es : List ReadEnd) :
    s.Within (.acc :: .free :: .fmc :: reportParts) ((s.readNow l cls who drain es).2) := by
  unfold State.readNow
  split
  · exact .sndMk (.mono (State.within_lineLost ..) (by decide))
  · extract_lets +onlyGivenNames p
    split
    · rename_i a6 a7 t8 h9
      have ht8 : s.Within _ t8 := .ofSnd (State.within_readCopy ..) h9
      exact .sndMk (.mono ht8 (by decide))
    · rename_i a10 t11 h12
      have ht11 : s.Within _ t11 := .ofSnd (State.within_readCopy ..) h12
      split
      · exact .sndMk (.mono (.after (State.within_readReport ..) ht11) (by decide))
      · split
        · rename_i a19 a20 t21 h22
          have ht21 : s.Within _ t21 := .ofSnd (.after (State.within_readCopy ..) ht11) h22
          exact .sndMk (.mono (.after (State.within_readReport ..) ht21) (by decide))
        · rename_i a23 t24 h25
          have ht24 : s.Within _ t24 := .ofSnd (.after (State.within_readCopy ..) ht11) h25
          exact .sndMk (.mono (.after (State.within_readReport ..) ht24) (by decide))

theorem State.within_dropFrom (s : State) (hash key r cls who b : ℕ) :
    s.Within (.acc :: .free :: .fmc :: .flow :: reportParts) (s.dropFrom hash key r cls who b) := by
  unfold State.dropFrom
  extract_lets +onlyGivenNames l
  split
  · rename_i a0 t1 h2
    have ht1 : s.Within _ t1 := .ofSnd (State.within_readNow ..) h2
    exact .mono (.after (State.within_loseBucket ..) ht1) (by decide)
  · rename_i a3 a4 t5 h6
    have ht5 : s.Within _ t5 := .ofSnd (State.within_readNow ..) h6
    split
    · exact .mono (.cond (.after (State.within_writeNow ..) ht5) ht5) (by decide)
    · exact .mono ht5 (by decide)

theorem State.within_clearHeader (s : State) (hash key r cls who : ℕ) :
    s.Within (.acc :: .free :: .fmc :: .flow :: reportParts) (s.clearHeader hash key r cls who) := by
  unfold State.clearHeader
  extract_lets +onlyGivenNames s0
  have hs0 : s.Within _ s0 := .after (State.within_dropFrom ..) (State.within_dropFrom ..)
  clear_value s0
  split
  · exact .mono (.cond (.after (State.within_setStash ..) hs0) hs0) (by decide)
  · exact .mono hs0 (by decide)

theorem State.within_loseHot (s : State) (hash key r : ℕ) :
    s.Within (.acc :: .free :: .fmc :: .flow :: reportParts) (s.loseHot hash key r) := by
  unfold State.loseHot
  exact .mono (.cond (.refl _) (.after (State.within_loseRecord ..) (State.within_clearHeader ..))) (by decide)

theorem State.within_loseLine (s : State) (pc la : ℕ) :
    s.Within (.acc :: .free :: .fmc :: .flow :: reportParts) (s.loseLine pc la) := by
  unfold State.loseLine
  extract_lets +onlyGivenNames q n
  split
  · exact .mono (.refl _) (by decide)
  · split
    · exact .mono (State.within_loseBucket ..) (by decide)
    · split
      · extract_lets +onlyGivenNames d
        exact State.within_loseHot ..
      · exact .mono (.refl _) (by decide)

theorem State.within_retireCtl (s : State) (st v : ℕ) :
    s.Within (.acc :: .free :: .fmc :: .flow :: .tel :: reportParts) (s.retireCtl st v) := by
  unfold State.retireCtl
  extract_lets +onlyGivenNames pc
  exact .mono (.cond (.refl _) (.cond (.each (fun _ _ => (State.within_loseLine ..)) (State.within_pcRetire ..)) (State.within_rowRetire ..))) (by decide)

theorem State.within_wFmc (s : State) (pg : Page) (h : Hit) (o m v : ℕ) :
    s.Within (.bank :: .acc :: .free :: .fmc :: .flow :: .tel :: reportParts) (s.wFmc pg h o m v) := by
  unfold State.wFmc
  split
  · exact .mono (.cond (State.within_retireCtl ..) (State.within_plain ..)) (by decide)
  · exact .mono (.cond (State.within_pcCtl ..) (State.within_plain ..)) (by decide)
  · exact .mono (.cond (State.within_diagCtl ..) (State.within_plain ..)) (by decide)
  · exact .mono (State.within_plain ..) (by decide)
  · exact .mono (.cond (State.within_plain ..) (State.within_plain ..)) (by decide)
  · exact .mono (.refl _) (by decide)

theorem State.within_searchMove (s : State) (c : Claim) (a0 : List ℕ) :
    s.Within (.acc :: .free :: .fmc :: .flow :: reportParts) ((s.searchMove c a0).2) := by
  induction a0 generalizing s c with
  | nil =>
    rw [State.searchMove]
    exact .sndMk (.mono (.refl _) (by decide))
  | cons r l ih =>
    rw [State.searchMove]
    split
    · exact ih ..
    · split
      · rename_i a2 t3 h4
        have ht3 : s.Within _ t3 := .ofSnd (State.within_readNow ..) h4
        exact .mono (.after (ih ..) (.after (State.within_loseBucket ..) ht3)) (by decide)
      · rename_i a5 a6 t7 h8
        have ht7 : s.Within _ t7 := .ofSnd (State.within_readNow ..) h8
        split
        · exact .sndMk (.mono ht7 (by decide))
        · exact .mono (.after (ih ..) ht7) (by decide)

theorem State.within_relocAnswer (s : State) (id : ℕ) (found : Bool) :
    s.Within (.acc :: .free :: .fmc :: .flow :: .policy :: .pip :: reportParts) (s.relocAnswer id found) := by
  unfold State.relocAnswer
  split
  · exact .mono (.refl _) (by decide)
  · split
    · exact .mono (State.within_claimAgain ..) (by decide)
    · split
      · exact .mono (State.within_toStash ..) (by decide)
      · split
        · exact .mono (.refl _) (by decide)
        · split
          · rename_i a11 a12 a13 a14 t15 h16
            have ht15 : s.Within _ t15 := .ofSnd (State.within_searchMove ..) h16
            exact .mono (.after (State.within_relocate ..) ht15) (by decide)
          · rename_i a17 t18 h19
            have ht18 : s.Within _ t18 := .ofSnd (State.within_searchMove ..) h19
            exact .mono (.after (State.within_toStash ..) ht18) (by decide)

theorem State.within_stopCtx (s : State) (q c : ℕ) :
    s.Within (.acc :: .free :: .fmc :: .flow :: .act :: .policy :: .pip :: reportParts) (s.stopCtx q c) := by
  unfold State.stopCtx
  extract_lets +onlyGivenNames x
  split
  · exact .mono (.refl _) (by decide)
  · split
    · exact .mono (.after (State.within_ctr ..) (State.within_upCtx ..)) (by decide)
    · extract_lets +onlyGivenNames s4
      have hs4 : s.Within _ s4 := State.within_natUndo ..
      clear_value s4
      split
      · exact .mono (.after (State.within_putMiss ..) (.after (State.within_freeCtx ..) (.after (State.within_unlockCtx ..) hs4))) (by decide)
      · extract_lets +onlyGivenNames s10
        have hs10 : s.Within _ s10 := .after (State.within_freeCtx ..) (.after (State.within_unlockCtx ..) hs4)
        clear_value s10
        exact .mono (.cond (.after (State.within_relocAnswer ..) hs10) hs10) (by decide)

theorem State.within_dropOversize (s : State) (n q a0 : ℕ) :
    s.Within (.wcount :: .modCnt :: .buf :: .tel :: ctrParts) (s.dropOversize n q a0) := by
  induction a0 generalizing s n q with
  | zero =>
    rw [State.dropOversize]
    exact .mono (.refl _) (by decide)
  | succ r ih =>
    rw [State.dropOversize]
    split
    · exact .mono (.refl _) (by decide)
    · split
      · extract_lets +onlyGivenNames s6
        have hs6 : s.Within _ s6 := State.within_changeQueue ..
        clear_value s6
        extract_lets +onlyGivenNames s7
        have hs7 : s.Within _ s7 := .after (State.within_ctr ..) (.after (State.within_ctr ..) hs6)
        clear_value s7
        exact .mono (.after (ih ..) (.after (State.within_traceDone ..) (.after (State.within_release ..) (.after (State.within_raiseOnce ..) hs7)))) (by decide)
      · exact .mono (.refl _) (by decide)

theorem State.within_newHead (s : State) (n q : ℕ) :
    s.Within (.wcount :: .modCnt :: .buf :: .tel :: ctrParts) (s.newHead n q) := by
  unfold State.newHead
  exact State.within_dropOversize ..

theorem State.within_placed (s : State) (id : ℕ) :
    s.Within (.wcount :: .modCnt :: .buf :: .tel :: ctrParts) (s.placed id) := by
  unfold State.placed
  extract_lets +onlyGivenNames s0
  have hs0 : s.Within _ s0 := .cond (State.within_setStored ..) (.refl _)
  clear_value s0
  exact .mono (.each (fun _ _ => (State.within_newHead ..)) hs0) (by decide)

theorem State.within_dropPass (s : State) (p : ℕ) (ps : Pass) (reason : ℕ) (bytes : List Byte) (r tc : ℕ) :
    s.Within (.acc :: .wcount :: .modCnt :: .buf :: .tel :: ctrParts) (s.dropPass p ps reason bytes r tc) := by
  unfold State.dropPass
  extract_lets +onlyGivenNames s0
  have hs0 : s.Within _ s0 := State.within_countDrop ..
  clear_value s0
  split
  · rename_i a1 a2 t3 h4
    have ht3 : s.Within _ t3 := .ofSnd (.after (State.within_newStored ..) hs0) h4
    split
    · rename_i a5 t6 a7 h8
      have ht6 : s.Within _ t6 := .ofFst (.after (State.within_exceptionCopy ..) ht3) h8
      extract_lets +onlyGivenNames s9
      have hs9 : s.Within _ s9 := .after (State.within_traceDone ..) (.after (State.within_placed ..) ht6)
      clear_value s9
      exact .mono (.after (State.within_passEnd ..) hs9) (by decide)

theorem State.within_dropNoFlow (s : State) (p : ℕ) (ps : Pass) :
    s.Within (.acc :: .wcount :: .modCnt :: .free :: .buf :: .tel :: ctrParts) (s.dropNoFlow p ps) := by
  unfold State.dropNoFlow
  split
  · rename_i a0 a1 t2 h3
    have ht2 : s.Within _ t2 := .ofSnd (State.within_draw ..) h3
    extract_lets +onlyGivenNames s4
    have hs4 : s.Within _ s4 := .after (State.within_ctr ..) ht2
    clear_value s4
    exact .mono (.after (State.within_dropPass ..) hs4) (by decide)

theorem State.within_noFlowAll (s : State) (p : ℕ) (a0 : List Pass) :
    s.Within (.acc :: .wcount :: .modCnt :: .free :: .buf :: .tel :: ctrParts) (s.noFlowAll p a0) := by
  induction a0 generalizing s p with
  | nil =>
    rw [State.noFlowAll]
    exact .mono (.refl _) (by decide)
  | cons r l ih =>
    rw [State.noFlowAll]
    exact .mono (.after (ih ..) (State.within_dropNoFlow ..)) (by decide)

theorem State.within_endNoFlow (s : State) (p : ℕ) (m : Miss) :
    s.Within (.acc :: .wcount :: .modCnt :: .free :: .buf :: .flow :: .tel :: ctrParts) (s.endNoFlow p m) := by
  unfold State.endNoFlow
  exact .mono (.after (State.within_noFlowAll ..) (State.within_dropMiss ..)) (by decide)

theorem State.within_stopWaiting (s : State) (q : ℕ) :
    s.Within (.acc :: .wcount :: .modCnt :: .free :: .buf :: .flow :: .tel :: ctrParts) (s.stopWaiting q) := by
  unfold State.stopWaiting
  exact .mono (.each (fun _ _ => (.after (State.within_endNoFlow ..) (State.within_stopDrops ..))) (.refl _)) (by decide)

theorem State.within_pipStop (s : State) (q : ℕ) :
    s.Within (.acc :: .free :: .buf :: .fmc :: .flow :: .act :: .tel :: .policy :: .pip :: reportParts) (s.pipStop q) := by
  unfold State.pipStop
  split
  · exact .mono (.refl _) (by decide)
  · extract_lets +onlyGivenNames s2
    have hs2 : s.Within _ s2 := State.within_put ..
    clear_value s2
    extract_lets +onlyGivenNames s3
    have hs3 : s.Within _ s3 := .each (fun _ _ => (State.within_stopCtx ..)) hs2
    clear_value s3
    extract_lets +onlyGivenNames s4
    have hs4 : s.Within _ s4 := .after (State.within_stopWaiting ..) hs3
    clear_value s4
    extract_lets +onlyGivenNames s5
    extract_lets +onlyGivenNames s6
    extract_lets +onlyGivenNames s7
    have hs7 : s.Within (.acc :: .free :: .buf :: .fmc :: .flow :: .act :: .tel :: .policy :: .pip :: reportParts) s7 := .mono (.cond (.each (fun _ _ => (.cond (State.within_relocAnswer ..) (.refl _))) hs4) (.after (State.within_ctr ..) (.after (State.within_setPip ..) hs3))) (by decide)
    clear_value s7
    exact .mono (.after (State.within_pipStat ..) hs7) (by decide)

theorem State.within_wPip (s : State) (pg : Page) (h : Hit) (o m v : ℕ) :
    s.Within (.bank :: .acc :: .free :: .buf :: .fmc :: .flow :: .act :: .tel :: .policy :: .pip :: reportParts) (s.wPip pg h o m v) := by
  unfold State.wPip
  exact .mono (.cond (.cond (State.within_pipStop ..) (State.within_pipResume ..)) (.cond (.cond (State.within_pipLoadGo ..) (.refl _)) (State.within_plain ..))) (by decide)

theorem State.within_wPipe (s : State) (pg : Page) (h : Hit) (o m v : ℕ) :
    s.Within (.bank :: .acc :: .free :: .buf :: .fwd :: .fmc :: .flow :: .act :: .tel :: .policy :: .pip :: reportParts) (s.wPipe pg h o m v) := by
  unfold State.wPipe
  split
  · exact .mono (State.within_wPrs ..) (by decide)
  · exact .mono (State.within_wCls ..) (by decide)
  · exact .mono (State.within_wFlw ..) (by decide)
  · exact .mono (State.within_wPip ..) (by decide)
  · exact .mono (State.within_wTel ..) (by decide)
  · exact .mono (.cond (.upIo (Io.within_fltCfg ..)) (State.within_plain ..)) (by decide)
  · exact .mono (State.within_plain ..) (by decide)

theorem State.within_wBody (s : State) (pg : Page) (h : Hit) (o m v : ℕ) :
    s.Within (.bank :: .acc :: .time :: .sys :: .featDone :: .free :: .buf :: .fwd :: .fmc :: .flow :: .act :: .tel :: .policy :: .pip :: .csc :: .qnc :: .cph :: .fw :: .jobs :: reportParts) (s.wBody pg h o m v) := by
  unfold State.wBody
  split
  · exact .mono (State.within_wSys ..) (by decide)
  · exact .mono (State.within_wEpc ..) (by decide)
  · exact .mono (State.within_wFtr ..) (by decide)
  · exact .mono (State.within_wRing ..) (by decide)
  · exact .mono (State.within_wMbxc ..) (by decide)
  · exact .mono (State.within_wCphc ..) (by decide)
  · exact .mono (State.within_wCphu ..) (by decide)
  · exact .mono (State.within_wQnc ..) (by decide)
  · exact .mono (State.within_wPmc ..) (by decide)
  · exact .mono (State.within_wRas ..) (by decide)
  · exact .mono (State.within_wCsc ..) (by decide)
  · exact .mono (State.within_plain ..) (by decide)
  · exact .mono (State.within_plain ..) (by decide)
  · exact .mono (State.within_plain ..) (by decide)
  · exact .mono (State.within_plain ..) (by decide)
  · exact .mono (State.within_wEth ..) (by decide)
  · exact .mono (State.within_wEth ..) (by decide)
  · exact .mono (State.within_wEth ..) (by decide)
  · exact .mono (State.within_wEth ..) (by decide)
  · exact .mono (State.within_wFmc ..) (by decide)
  · exact .mono (State.within_wFmc ..) (by decide)
  · exact .mono (State.within_wFmc ..) (by decide)
  · exact .mono (State.within_wFmc ..) (by decide)
  · exact .mono (State.within_wFmc ..) (by decide)
  · exact .mono (State.within_wBuf ..) (by decide)
  · exact .mono (State.within_wBuf ..) (by decide)
  · exact .mono (State.within_wBuf ..) (by decide)
  · exact .mono (State.within_wBuf ..) (by decide)
  · exact .mono (State.within_wBuf ..) (by decide)
  · exact .mono (State.within_wBuf ..) (by decide)
  · exact .mono (State.within_wBuf ..) (by decide)
  · exact .mono (State.within_wBuf ..) (by decide)
  · exact .mono (State.within_wPipe ..) (by decide)
  · exact .mono (State.within_wPipe ..) (by decide)
  · exact .mono (State.within_wPipe ..) (by decide)
  · exact .mono (State.within_wPipe ..) (by decide)
  · exact .mono (State.within_wPipe ..) (by decide)
  · exact .mono (State.within_wPipe ..) (by decide)
  · exact .mono (State.within_wPipe ..) (by decide)
  · exact .mono (State.within_wPipe ..) (by decide)
  · exact .mono (State.within_wPipe ..) (by decide)

theorem State.within_wPage (s : State) (pg : Page) (o m v : ℕ) :
    s.Within (.bank :: .acc :: .time :: .sys :: .featDone :: .free :: .buf :: .fwd :: .fmc :: .flow :: .act :: .tel :: .policy :: .pip :: .csc :: .qnc :: .cph :: .fw :: .jobs :: reportParts) (s.wPage pg o m v) := by
  unfold State.wPage
  split
  · exact .mono (State.within_pageErr ..) (by decide)
  · split
    · exact .mono (State.within_pageErr ..) (by decide)
    · split
      · exact .mono (.refl _) (by decide)
      · exact .mono (.cond (State.within_pageErr ..) (.cond (State.within_wHead ..) (.cond (.upIo (Io.within_mbxWrite ..)) (State.within_wBody ..)))) (by decide)

theorem State.within_fabricWrite (s : State) (m a v : ℕ) :
    s.Within (.bank :: .acc :: .time :: .sys :: .featDone :: .free :: .buf :: .fwd :: .fmc :: .flow :: .act :: .tel :: .policy :: .pip :: .csc :: .qnc :: .cph :: .fw :: .jobs :: reportParts) (s.fabricWrite m a v) := by
  unfold State.fabricWrite
  split
  · exact .mono (State.within_unmapped ..) (by decide)
  · extract_lets +onlyGivenNames o
    exact .mono (.cond (State.within_violate ..) (.cond (.after (State.within_wPage ..) (State.within_fabCount ..)) (.after (State.within_fabErr (hf := (fun _ => (State.within_wPage ..))) ..) (State.within_fabCount ..)))) (by decide)

theorem State.within_regWrite (s : State) (m a v : ℕ) (wide : Bool) :
    s.Within (.bank :: .acc :: .time :: .sys :: .featDone :: .free :: .buf :: .fwd :: .fmc :: .flow :: .act :: .tel :: .policy :: .pip :: .csc :: .qnc :: .cph :: .fw :: .jobs :: reportParts) (s.regWrite m a v wide) := by
  unfold State.regWrite
  split
  · exact .mono (State.within_badSize ..) (by decide)
  · extract_lets +onlyGivenNames s2
    have hs2 : s.Within _ s2 := State.within_fabricWrite ..
    clear_value s2
    exact .mono (.cond (.after (State.within_fabricWrite ..) hs2) hs2) (by decide)

theorem State.within_badAccess (s : State) (m a size : ℕ) (write : Bool) :
    s.Within ctrParts (s.badAccess m a size write) := by
  unfold State.badAccess
  split
  · exact .mono (.refl _) (by decide)
  · extract_lets +onlyGivenNames s2
    have hs2 : s.Within _ s2 := State.within_badSize ..
    clear_value s2
    exact .mono (.cond hs2 (.after (State.within_emit ..) hs2)) (by decide)

theorem State.within_pageWrite (s : State) (m a o v : ℕ) :
    s.Within (.bank :: .acc :: .time :: .sys :: .featDone :: .free :: .buf :: .fwd :: .fmc :: .flow :: .act :: .tel :: .policy :: .pip :: .csc :: .qnc :: .cph :: .fw :: .jobs :: reportParts) (s.pageWrite m a o v) := by
  unfold State.pageWrite
  split
  · exact .mono (State.within_unmapped ..) (by decide)
  · exact State.within_fabricWrite ..

theorem State.within_hostTx (s : State) (n q : ℕ) (bytes : List Byte) :
    s.Within (.wcount :: .modCnt :: .buf :: .tel :: ctrParts) ((s.hostTx n q bytes).1) := by
  unfold State.hostTx
  extract_lets +onlyGivenNames len
  split
  · exact .fstMk (.mono (State.within_ctr ..) (by decide))
  · split
    · rename_i a2 a3 t4 h5
      have ht4 : s.Within _ t4 := .ofSnd (State.within_newStored ..) h5
      split
      · rename_i a6 t7 a8 h9
        have ht7 : s.Within _ t7 := .ofFst (.after (State.within_admitPort ..) ht4) h9
        extract_lets +onlyGivenNames s10
        have hs10 : s.Within _ s10 := .after (State.within_placed ..) ht7
        clear_value s10
        exact .fstMk (.mono (.cond hs10 (.after (State.within_ctr ..) hs10)) (by decide))

theorem State.within_txFetched (s : State) (t : ℕ) (frame : List Byte) :
    s.Within (.wcount :: .modCnt :: .fetch :: .buf :: .tel :: .qnc :: ctrParts) (s.txFetched t frame) := by
  unfold State.txFetched
  split
  · exact .mono (.refl _) (by decide)
  · split
    · exact .mono (.refl _) (by decide)
    · extract_lets +onlyGivenNames s8
      have hs8 : s.Within _ s8 := .upIo (Io.within_setFetch ..)
      clear_value s8
      extract_lets +onlyGivenNames d
      split
      · exact .mono (.after (State.within_injectFrame ..) hs8) (by decide)
      · extract_lets +onlyGivenNames r
        have hr : s.Within _ r.1 := .after (State.within_hostTx ..) hs8
        clear_value r
        exact .mono (.cond (.after (State.within_directTx ..) hr) hr) (by decide)

theorem Io.within_rxFill (s : Io) (n : ℕ) (c : Copy) (cut : Bool) (a0 : List (ℕ × ℕ)) (a1 : List Byte) :
    s.Within [.regs, .wcount, .modCnt, .pcie, .out] (s.rxFill n c cut a0 a1) := by
  induction a0 generalizing s n c cut a1 with
  | nil =>
    rw [Io.rxFill]
    exact .mono (.refl _) (by decide)
  | cons r l ih =>
    rw [Io.rxFill]
    exact .mono (.after (ih ..) (Io.within_rxBuffer ..)) (by decide)

theorem State.within_rxDeliver (s : State) (posted : List (List (ℕ × ℕ))) (h : ℕ) (c : Copy) :
    s.Within (.buf :: .tel :: reportParts) (s.rxDeliver posted h c) := by
  unfold State.rxDeliver
  extract_lets +onlyGivenNames bad s0
  have hs0 : s.Within _ s0 := State.within_changeQueue ..
  clear_value s0
  extract_lets +onlyGivenNames s1
  extract_lets +onlyGivenNames s2
  have hs2 : s.Within _ s2 := .cond (.after (State.within_setBuf ..) hs0) hs0
  clear_value s2
  split
  · exact .mono (.after (State.within_traceDone ..) (.after (State.within_release ..) (.after (State.within_stomp ..) hs2))) (by decide)
  · extract_lets +onlyGivenNames f
    split
    · exact .mono hs2 (by decide)
    · extract_lets +onlyGivenNames s11
      have hs11 : s.Within _ s11 := .after (.upIo (Io.within_rxFill ..)) hs2
      clear_value s11
      exact .mono (.after (State.within_traceDone ..) (.after (State.within_release ..) hs11)) (by decide)

theorem State.within_hostRx (s : State) (posted : List (List (ℕ × ℕ))) (cells : List (ℕ × Bool)) :
    s.Within (.buf :: .tel :: reportParts) (s.hostRx posted cells) := by
  unfold State.hostRx
  split
  · exact .mono (.refl _) (by decide)
  · split
    · exact .mono (.refl _) (by decide)
    · exact .mono (.after (State.within_rxDeliver ..) (.after (State.within_readCells ..) (State.within_setHostDrr ..))) (by decide)

theorem State.within_mgmtEffects (s : State) :
    s.Within [.regs, .ctrSlot, .timeSlot, .wcount, .modCnt, .fetch, .pcie, .out, .cph, .fw, .jobs] s.mgmtEffects := by
  unfold State.mgmtEffects
  extract_lets +onlyGivenNames s0
  have hs0 : s.Within _ s0 := .after (State.within_killJobs ..) (.upIo (.after (Io.within_mbxReset ..) (Io.within_mgmtReset ..)))
  clear_value s0
  exact .mono (.after (State.within_fwHostGone ..) (.after (State.within_zeroizeOf ..) hs0)) (by decide)

theorem State.within_mgmtApply (s : State) :
    s.Within [.regs, .ctrSlot, .timeSlot, .wcount, .modCnt, .fetch, .pcie, .sys, .out, .cph, .fw, .jobs] s.mgmtApply := by
  unfold State.mgmtApply
  exact .mono (.cond (.refl _) (.after (State.within_mgmtEffects ..) (State.within_upSys ..))) (by decide)

theorem State.within_qncBoundary (s : State) (at' lastEpoch : ℕ) :
    s.Within (.bank :: .nvm :: .qnc :: ctrParts) (s.qncBoundary at' lastEpoch) := by
  unfold State.qncBoundary
  extract_lets +onlyGivenNames l due s0
  have hs0 : s.Within _ s0 := State.within_upQnc ..
  clear_value s0
  exact .mono (.cond hs0 (.cond (.after (State.within_raise ..) (.after (State.within_put ..) (.after (State.within_upQnc ..) (.after (State.within_ctr ..) hs0)))) (.after (State.within_closeNow ..) hs0))) (by decide)

theorem State.within_slotByReset (s : State) :
    s.Within [.regs, .ctrSlot, .timeSlot, .wcount, .modCnt, .fetch, .pcie, .sys, .out, .cph, .fw, .jobs] s.slotByReset := by
  unfold State.slotByReset
  extract_lets +onlyGivenNames s0
  have hs0 : s.Within _ s0 := .after (State.within_mgmtEffects ..) (State.within_upSys ..)
  clear_value s0
  exact .mono (.after (State.within_upFw ..) hs0) (by decide)

theorem State.within_commitNow (s : State) (num at' : ℕ) :
    s.Within (.bank :: .ctrSlot :: .timeSlot :: .wcount :: .modCnt :: .fetch :: .time :: .sys :: .buf :: .act :: .pip :: .cph :: .fw :: .jobs :: ctrParts) (s.commitNow num at') := by
  obtain ⟨f, hf⟩ : ∃ f, f = State.commitNow := ⟨_, rfl⟩
  rw [← hf]
  delta State.commitNow at hf
  subst hf
  beta_reduce
  extract_lets +onlyGivenNames s0
  have hs0 : s.Within _ s0 := .upIo (.after (Io.within_raise ..) (.after (Io.within_commitState ..) (Io.within_setTime ..)))
  clear_value s0
  split
  · rename_i a1 t2 a3 h4
    have ht2 : s.Within _ t2 := .ofFst (.after (State.within_commitPages ..) hs0) h4
    exact .mono (.cond (.after (State.within_slotByReset ..) ht2) ht2) (by decide)

theorem State.within_boundaryAt (s : State) (c : ℕ) (rest : List Span) :
    s.Within (.bank :: .ctrSlot :: .timeSlot :: .wcount :: .modCnt :: .fetch :: .time :: .sys :: .nvm :: .buf :: .act :: .pip :: .csc :: .qnc :: .cph :: .fw :: .jobs :: ctrParts) (s.boundaryAt c rest) := by
  obtain ⟨f, hf⟩ : ∃ f, f = State.boundaryAt := ⟨_, rfl⟩
  rw [← hf]
  delta State.boundaryAt at hf
  subst hf
  beta_reduce
  extract_lets +onlyGivenNames at' s0
  have hs0 : s.Within _ s0 := .after (State.within_qncBoundary ..) (State.within_refillDue ..)
  clear_value s0
  extract_lets +onlyGivenNames s1
  have hs1 : s.Within _ s1 := .after (State.within_post ..) (.after (State.within_raise ..) (.after (.upIo (Io.within_boundary ..)) hs0))
  clear_value s1
  extract_lets +onlyGivenNames num
  split
  · rename_i a2 t3 a4 h5
    have ht3 : s.Within _ t3 := .ofFst (.after (State.within_commitDue ..) hs1) h5
    exact .mono (.cond (.after (State.within_commitNow ..) ht3) ht3) (by decide)

theorem State.within_boundaryEvent (s : State) :
    s.Within (.bank :: .acc :: .ctrSlot :: .timeSlot :: .wcount :: .modCnt :: .fetch :: .taken :: .time :: .clk :: .sys :: .nvm :: .buf :: .act :: .pip :: .csc :: .qnc :: .cph :: .fw :: .jobs :: ctrParts) s.boundaryEvent := by
  unfold State.boundaryEvent
  split
  · rename_i a0 t1 a2 h3
    have ht1 : s.io.Within _ t1 := .ofFst (Io.within_toBoundary ..) h3
    extract_lets +onlyGivenNames s4
    have hs4 : s.Within _ s4 := .setIo ht1
    clear_value s4
    split
    · exact .mono hs4 (by decide)
    · exact .mono (.after (State.within_boundaryAt ..) hs4) (by decide)

theorem State.within_heldBoundary (s : State) :
    s.Within (.bank :: .acc :: .ctrSlot :: .timeSlot :: .wcount :: .modCnt :: .fetch :: .taken :: .time :: .clk :: .sys :: .nvm :: .buf :: .act :: .pip :: .csc :: .qnc :: .cph :: .fw :: .jobs :: ctrParts) s.heldBoundary := by
  unfold State.heldBoundary
  split
  · rename_i a0 t1 a2 h3
    have ht1 : s.io.Within _ t1 := .ofFst (Io.within_toHeldEnd ..) h3
    extract_lets +onlyGivenNames s4
    have hs4 : s.Within _ s4 := .setIo ht1
    clear_value s4
    split
    · exact .mono hs4 (by decide)
    · exact .mono (.after (State.within_boundaryAt ..) hs4) (by decide)

theorem State.within_groupApplyBy (s : State) (m g receiving : ℕ) :
    s.Within (.bank :: .acc :: .time :: .sys :: .featDone :: .free :: .buf :: .fwd :: .fmc :: .flow :: .act :: .tel :: .policy :: .pip :: .csc :: .qnc :: .cph :: .fw :: .jobs :: reportParts) (s.groupApplyBy m g receiving) := by
  unfold State.groupApplyBy
  extract_lets +onlyGivenNames a
  exact .mono (.cond (.after (State.within_groupApply ..) (State.within_fabCount ..)) (State.within_fabricWrite ..)) (by decide)

theorem State.within_copies' (s : State) (p : ℕ) (ps : Pass) (d : Prof) (e : Ed) (i : ℕ) (dst : Option Dest) :
    s.Within (.wcount :: .modCnt :: .time :: .nvm :: .buf :: .flow :: .tel :: ctrParts) ((s.copies' p ps d e i dst).1) := by
  unfold State.copies'
  split
  · rename_i a0 a1 t2 h3
    have ht2 : s.Within _ t2 := .ofSnd (State.within_newStored ..) h3
    split
    · rename_i a4 t5 a6 h7
      have ht5 : s.Within (.wcount :: .modCnt :: .time :: .nvm :: .buf :: .flow :: .tel :: ctrParts) t5 := by
        refine .ofFst ?_ h7
        split
        · exact .fstMk (.mono ht2 (by decide))
        · exact .mono (.after (State.within_destCopy ..) ht2) (by decide)
      split
      · rename_i a11 t12 a13 h14
        have ht12 : s.Within _ t12 := .ofFst (.after (State.within_mirrorCopy ..) ht5) h14
        split
        · rename_i a15 t16 a17 h18
          have ht16 : s.Within _ t16 := .ofFst (.after (State.within_hostCopyOf ..) ht12) h18
          exact .mono (.after (State.within_placed ..) ht16) (by decide)

theorem State.within_deliver (s : State) (p : ℕ) (ps : Pass) (d : Prof) (e : Ed) (edited : Bool) (i : ℕ) (dst : Dest) :
    s.Within (.acc :: .wcount :: .modCnt :: .time :: .nvm :: .buf :: .flow :: .tel :: ctrParts) (s.deliver p ps d e edited i dst) := by
  unfold State.deliver
  extract_lets +onlyGivenNames r
  split
  · exact .mono (State.within_dropPass ..) (by decide)
  · split
    · split
      · split
        · rename_i a6 t7 a8 h9
          have ht7 : s.Within _ t7 := .ofFst (State.within_copies' ..) h9
          exact .mono (.after (State.within_passEnd ..) ht7) (by decide)
      · exact .mono (State.within_dropPass ..) (by decide)
    · split
      · rename_i a13 t14 a15 h16
        have ht14 : s.Within _ t14 := .ofFst (State.within_copies' ..) h16
        exact .mono (.after (State.within_passEnd ..) ht14) (by decide)

theorem State.within_dispose (s : State) (p : ℕ) (ps : Pass) (rp d : Prof) (e : Ed) (edited : Bool) (i : ℕ) (h0 : Line) :
    s.Within (.acc :: .wcount :: .modCnt :: .time :: .nvm :: .buf :: .flow :: .tel :: ctrParts) (s.dispose p ps rp d e edited i h0) := by
  unfold State.dispose
  split
  · split
    · exact .mono (State.within_dropPass ..) (by decide)
    · split
      · rename_i a3 t4 a5 h6
        have ht4 : s.Within _ t4 := .ofFst (State.within_copies' ..) h6
        exact .mono (.after (State.within_passEnd ..) (.after (State.within_recirculate ..) ht4)) (by decide)
  · split
    · rename_i a8 t9 a10 h11
      have ht9 : s.Within _ t9 := .ofFst (State.within_destOf ..) h11
      exact .mono (.after (State.within_deliver ..) ht9) (by decide)

theorem State.within_chainRun (s : State) (p : ℕ) (ps : Pass) (rp : Prof) (i : ℕ) (h0 : Line) (invalid : Bool) :
    s.Within (.acc :: .wcount :: .modCnt :: .time :: .nvm :: .buf :: .flow :: .tel :: ctrParts) (s.chainRun p ps rp i h0 invalid) := by
  unfold State.chainRun
  extract_lets +onlyGivenNames h r c
  split
  · exact .mono (.after (State.within_teardownAfter ..) (State.within_dropPass ..)) (by decide)
  · extract_lets +onlyGivenNames s6
    have hs6 : s.Within _ s6 := .cond (State.within_ctr ..) (.refl _)
    clear_value s6
    extract_lets +onlyGivenNames s7
    have hs7 : s.Within (.acc :: .wcount :: .modCnt :: .time :: .nvm :: .buf :: .flow :: .tel :: ctrParts) s7 := by
      unfold s7
      split
      · exact .mono (State.within_dropPass ..) (by decide)
      · split
        · exact .mono (State.within_dropPass ..) (by decide)
        · split
          · exact .mono (State.within_dropPass ..) (by decide)
          · split
            · rename_i a14 t15 a16 h17
              have ht15 : s.Within _ t15 := .ofFst (.after (State.within_edit ..) hs6) h17
              split
              · exact .mono (.after (State.within_dropPass ..) ht15) (by decide)
              · exact .mono (.after (State.within_dispose ..) ht15) (by decide)
    clear_value s7
    exact .mono (.after (State.within_teardownAfter ..) hs7) (by decide)

theorem State.within_action (s : State) (p : ℕ) (ps : Pass) (i : ℕ) :
    s.Within (.acc :: .wcount :: .modCnt :: .time :: .nvm :: .buf :: .flow :: .tel :: ctrParts) (s.action p ps i) := by
  unfold State.action
  extract_lets +onlyGivenNames h0 r rp now s0
  have hs0 : s.Within _ s0 := State.within_retag ..
  clear_value s0
  split
  · extract_lets +onlyGivenNames x s2
    have hs2 : s.Within _ s2 := .after (State.within_flowlet ..) (.after (State.within_eleAdd ..) (.after (State.within_updateLine ..) hs0))
    clear_value s2
    exact .mono (.after (State.within_chainRun ..) hs2) (by decide)
  · exact .mono (.after (State.within_chainRun ..) hs0) (by decide)

theorem State.within_flowLookup (s : State) (p : ℕ) (ps : Pass) :
    s.Within (.acc :: .time :: .buf :: .fmc :: .flow :: .tel :: reportParts) (s.flowLookup p ps) := by
  unfold State.flowLookup
  extract_lets +onlyGivenNames s0
  have hs0 : s.Within _ s0 := State.within_ctr ..
  clear_value s0
  split
  · exact .mono (.after (State.within_putMiss ..) (.after (State.within_ctr ..) hs0)) (by decide)
  · split
    · exact .mono (.after (State.within_action ..) (.after (State.within_touch ..) (.after (State.within_cacheHit ..) hs0))) (by decide)
    · exact .mono (.after (State.within_missStart ..) hs0) (by decide)

theorem State.within_passLookup (s : State) (p : ℕ) (ps : Pass) :
    s.Within (.acc :: .time :: .free :: .buf :: .fwd :: .fmc :: .flow :: .tel :: reportParts) (s.passLookup p ps) := by
  unfold State.passLookup
  extract_lets +onlyGivenNames inj
  split
  · split
    · rename_i a1 a2 t3 h4
      have ht3 : s.Within _ t3 := .ofSnd (State.within_draw ..) h4
      exact .mono (.after (State.within_dropPass ..) ht3) (by decide)
  · extract_lets +onlyGivenNames lk s6
    have hs6 : s.Within _ s6 := .after (State.within_countLookup ..) (State.within_sourceSearch ..)
    clear_value s6
    exact .mono (.after (State.within_flowLookup ..) hs6) (by decide)

theorem State.within_steer (s : State) (p owner link : ℕ) (ps : Pass) :
    s.Within (.acc :: .wcount :: .modCnt :: .buf :: .tel :: ctrParts) (s.steer p owner link ps) := by
  unfold State.steer
  split
  · rename_i a0 a1 t2 h3
    have ht2 : s.Within _ t2 := .ofSnd (State.within_newStored ..) h3
    split
    · rename_i a4 t5 a6 h7
      have ht5 : s.Within _ t5 := .ofFst (.after (State.within_admitStack ..) ht2) h7
      extract_lets +onlyGivenNames s8
      have hs8 : s.Within _ s8 := .after (State.within_placed ..) ht5
      clear_value s8
      extract_lets +onlyGivenNames s9
      have hs9 : s.Within _ s9 := .cond (.after (State.within_ctr ..) hs8) (.after (State.within_traceDone ..) (.after (State.within_ctr ..) hs8))
      clear_value s9
      exact .mono (.after (State.within_passEnd ..) hs9) (by decide)

theorem State.within_ownerStep (s : State) (p : ℕ) (ps : Pass) :
    s.Within (.acc :: .time :: .free :: .buf :: .fwd :: .fmc :: .flow :: .tel :: reportParts) (s.ownerStep p ps) := by
  unfold State.ownerStep
  extract_lets +onlyGivenNames owner
  split
  · exact State.within_passLookup ..
  · split
    · exact .mono (State.within_steer ..) (by decide)
    · split
      · exact .mono (.after (State.within_passLookup ..) (State.within_fallback' ..)) (by decide)
      · extract_lets +onlyGivenNames s9
        have hs9 : s.Within _ s9 := .after (State.within_traceDone ..) (State.within_ctr ..)
        clear_value s9
        exact .mono (.after (State.within_passEnd ..) hs9) (by decide)

theorem State.within_malCopy (s : State) (p : ℕ) (ps : Pass) :
    s.Within (.wcount :: .modCnt :: .free :: .buf :: .tel :: ctrParts) ((s.malCopy p ps).1) := by
  unfold State.malCopy
  split
  · rename_i a0 a1 t2 h3
    have ht2 : s.Within _ t2 := .ofSnd (State.within_draw ..) h3
    split
    · rename_i a4 a5 t6 h7
      have ht6 : s.Within _ t6 := .ofSnd (.after (State.within_newStored ..) ht2) h7
      extract_lets +onlyGivenNames ts c
      extract_lets +onlyGivenNames c8
      split
      · rename_i a9 t10 a11 h12
        have ht10 : s.Within _ t10 := .ofFst (.after (State.within_copyHost ..) ht6) h12
        exact .fstMk (.mono (.after (State.within_placed ..) ht10) (by decide))

theorem State.within_malDrop (s : State) (p : ℕ) (ps : Pass) (copy : Bool) :
    s.Within (.acc :: .wcount :: .modCnt :: .free :: .buf :: .tel :: ctrParts) (s.malDrop p ps copy) := by
  unfold State.malDrop
  extract_lets +onlyGivenNames s0
  have hs0 : s.Within _ s0 := State.within_countDrop ..
  clear_value s0
  extract_lets +onlyGivenNames x
  have hx : s.Within (.acc :: .wcount :: .modCnt :: .free :: .buf :: .tel :: ctrParts) x.1 := by
    unfold x
    split
    · exact .mono (.after (State.within_malCopy ..) hs0) (by decide)
    · exact .fstMk (.mono hs0 (by decide))
  clear_value x
  exact .mono (.after (State.within_passEnd ..) (.after (State.within_traceDone ..) hx)) (by decide)

theorem State.within_malStep (s : State) (p : ℕ) (ps : Pass) :
    s.Within (.acc :: .time :: .free :: .buf :: .fwd :: .fmc :: .flow :: .tel :: reportParts) (s.malStep p ps) := by
  unfold State.malStep
  split
  · exact State.within_ownerStep ..
  · split
    · exact .mono (State.within_malDrop ..) (by decide)
    · exact .mono (State.within_malDrop ..) (by decide)
    · exact State.within_ownerStep ..
    · exact .mono (.after (State.within_ownerStep ..) (State.within_malCopy ..)) (by decide)

theorem State.within_parsePass (s : State) (p : ℕ) (k : Pkt) :
    s.Within (.acc :: .taken :: .time :: .free :: .buf :: .fwd :: .fmc :: .flow :: .tel :: reportParts) (s.parsePass p k) := by
  unfold State.parsePass
  extract_lets +onlyGivenNames r hv s0
  extract_lets +onlyGivenNames s1
  have hs1 : s.Within _ s1 := State.within_countAdmit ..
  clear_value s1
  extract_lets +onlyGivenNames s2
  have hs2 : s.Within _ s2 := .cond (.after (State.within_sample ..) hs1) hs1
  clear_value s2
  extract_lets +onlyGivenNames x
  have hx : s.Within (.acc :: .taken :: .time :: .free :: .buf :: .fwd :: .fmc :: .flow :: .tel :: reportParts) x.1 := by
    unfold x
    split
    · exact .mono (.after (State.within_tagPacket ..) hs2) (by decide)
    · exact .fstMk (.mono hs2 (by decide))
  clear_value x
  extract_lets +onlyGivenNames s5
  have hs5 : s.Within _ s5 := .after (.upIo (Io.within_prsCount ..)) hx
  clear_value s5
  extract_lets +onlyGivenNames k6
  extract_lets +onlyGivenNames k7
  exact .mono (.after (State.within_malStep ..) hs5) (by decide)

theorem State.within_passAdmit (s : State) (p : ℕ) :
    s.Within (.acc :: .taken :: .time :: .free :: .buf :: .fwd :: .fmc :: .flow :: .tel :: reportParts) (s.passAdmit p) := by
  unfold State.passAdmit
  split
  · exact .mono (.refl _) (by decide)
  · split
    · exact .mono (.refl _) (by decide)
    · rename_i a4 a5 t6 h7
      have ht6 : s.Within _ t6 := State.within_nextPass h7
      exact .mono (.after (State.within_parsePass ..) ht6) (by decide)

theorem State.within_finalMiss (s : State) (p : ℕ) (m : Miss) :
    s.Within (.acc :: .wcount :: .modCnt :: .free :: .buf :: .flow :: .tel :: ctrParts) (s.finalMiss p m) := by
  unfold State.finalMiss
  extract_lets +onlyGivenNames s0
  have hs0 : s.Within _ s0 := State.within_ctr ..
  clear_value s0
  split
  · exact .mono (.after (State.within_endNoFlow ..) (.after (State.within_stopDrops ..) hs0)) (by decide)
  · extract_lets +onlyGivenNames yes no s3
    have hs3 : s.Within _ s3 := .after (State.within_noFlowAll ..) hs0
    clear_value s3
    split
    · exact .mono (.after (State.within_dropMiss ..) hs3) (by decide)
    · split
      · rename_i a6 a7 t8 h9
        have ht8 : s.Within _ t8 := .ofSnd (.after (State.within_flowId ..) hs3) h9
        exact .mono (.after (State.within_putMiss ..) ht8) (by decide)

theorem State.within_fenceRetry (s : State) (p : ℕ) (m : Miss) :
    s.Within (.acc :: .free :: .buf :: .fmc :: .flow :: .tel :: reportParts) (s.fenceRetry p m) := by
  unfold State.fenceRetry
  extract_lets +onlyGivenNames b1 b2 near
  split
  · exact .mono (State.within_finalMiss ..) (by decide)
  · extract_lets +onlyGivenNames s2
    have hs2 : s.Within _ s2 := .upIo (Io.within_event ..)
    clear_value s2
    extract_lets +onlyGivenNames m3
    split
    · exact .mono (.after (State.within_readHot ..) hs2) (by decide)
    · split
      · exact .mono (.after (State.within_readHot ..) hs2) (by decide)
      · exact .mono (.after (State.within_finalMiss ..) hs2) (by decide)

theorem State.within_bucketReturn (s : State) (p which : ℕ) (v : Option Line) (m : Miss) :
    s.Within (.acc :: .free :: .buf :: .fmc :: .flow :: .tel :: reportParts) (s.bucketReturn p which v m) := by
  unfold State.bucketReturn
  extract_lets +onlyGivenNames b s0
  have hs0 : s.Within _ s0 := .cond (State.within_loseBucket ..) (.refl _)
  clear_value s0
  split
  · exact .mono (.after (State.within_readHot ..) hs0) (by decide)
  · exact .mono (.cond (.after (State.within_readBucket ..) hs0) (.after (State.within_fenceRetry ..) hs0)) (by decide)

theorem State.within_actAll (s : State) (p i outcome : ℕ) (a0 : List Pass) :
    s.Within (.acc :: .wcount :: .modCnt :: .time :: .nvm :: .buf :: .flow :: .tel :: ctrParts) (s.actAll p i outcome a0) := by
  induction a0 generalizing s p i outcome with
  | nil =>
    rw [State.actAll]
    exact .mono (.refl _) (by decide)
  | cons r l ih =>
    rw [State.actAll]
    exact .mono (.after (ih ..) (State.within_action ..)) (by decide)

theorem State.within_obtain (s : State) (p i outcome : ℕ) (m : Miss) :
    s.Within (.acc :: .wcount :: .modCnt :: .time :: .nvm :: .buf :: .flow :: .tel :: ctrParts) (s.obtain p i outcome m) := by
  unfold State.obtain
  exact .mono (.after (State.within_actAll ..) (.after (State.within_touch ..) (State.within_dropMiss ..))) (by decide)

theorem State.within_goBack (s : State) (p r : ℕ) (m : Miss) :
    s.Within (.acc :: .time :: .free :: .buf :: .fmc :: .flow :: .tel :: reportParts) (s.goBack p r m) := by
  unfold State.goBack
  extract_lets +onlyGivenNames s0
  have hs0 : s.Within _ s0 := .upIo (Io.within_event ..)
  clear_value s0
  split
  · exact .mono (.after (State.within_finalMiss ..) hs0) (by decide)
  · extract_lets +onlyGivenNames m3
    split
    · extract_lets +onlyGivenNames s7
      have hs7 : s.Within _ s7 := .after (State.within_ctr ..) (.after (State.within_cacheHit ..) hs0)
      clear_value s7
      exact .mono (.after (State.within_obtain ..) hs7) (by decide)
    · exact .mono (.after (State.within_search ..) hs0) (by decide)

theorem State.within_clearWay (s : State) (p i : ℕ) :
    s.Within (.acc :: .fmc :: .flow :: reportParts) (s.clearWay p i) := by
  unfold State.clearWay
  extract_lets +onlyGivenNames l s0
  have hs0 : s.Within _ s0 := .cond (.after (State.within_ctr ..) (.after (State.within_writeBack ..) (State.within_setCache ..))) (.refl _)
  clear_value s0
  exact .mono (.after (State.within_setCache ..) hs0) (by decide)

theorem State.within_install (s : State) (p i r : ℕ) (data : Line) :
    s.Within (.acc :: .fmc :: .flow :: reportParts) (s.install p i r data) := by
  unfold State.install
  extract_lets +onlyGivenNames s0
  have hs0 : s.Within _ s0 := State.within_clearWay ..
  clear_value s0
  extract_lets +onlyGivenNames used s1
  have hs1 : s.Within _ s1 := .after (State.within_setCache ..) hs0
  clear_value s1
  exact .mono (.after (State.within_touch ..) hs1) (by decide)

theorem State.within_installFor (s : State) (p held src r : ℕ) (data : Line) (m : Miss) :
    s.Within (.acc :: .time :: .buf :: .fmc :: .flow :: .tel :: reportParts) (s.installFor p held src r data m) := by
  unfold State.installFor
  split
  · split
    · rename_i a3 t4 a5 h6
      have ht4 : s.Within _ t4 := .ofFst (State.within_countFound ..) h6
      exact .mono (.after (State.within_obtain ..) ht4) (by decide)
  · split
    · exact .mono (State.within_putMiss ..) (by decide)
    · split
      · rename_i a14 t15 a16 h17
        have ht15 : s.Within _ t15 := .ofFst (State.within_countFound ..) h17
        exact .mono (.after (State.within_obtain ..) (.after (State.within_install ..) ht15)) (by decide)

theorem State.within_hotReturn (s : State) (p held r src : ℕ) (v : Option Line) (m : Miss) :
    s.Within (.acc :: .time :: .free :: .buf :: .fmc :: .flow :: .tel :: reportParts) (s.hotReturn p held r src v m) := by
  unfold State.hotReturn
  split
  · exact .mono (.after (State.within_finalMiss ..) (State.within_loseHot ..)) (by decide)
  · split
    · exact State.within_goBack ..
    · split
      · split
        · extract_lets +onlyGivenNames s9
          have hs9 : s.Within _ s9 := State.within_ctr ..
          clear_value s9
          exact .mono (.after (State.within_putMiss ..) hs9) (by decide)
        · exact State.within_goBack ..
      · exact .mono (.cond (State.within_installFor ..) (State.within_goBack ..)) (by decide)

theorem State.within_flowReturn (s : State) (p entry held : ℕ) :
    s.Within (.acc :: .time :: .free :: .buf :: .fmc :: .flow :: .tel :: reportParts) (s.flowReturn p entry held) := by
  unfold State.flowReturn
  split
  · exact .mono (.refl _) (by decide)
  · split
    · split
      · exact .mono (.refl _) (by decide)
      · rename_i a10 a11 t12 h13
        have ht12 : s.Within _ t12 := State.within_takeResp h13
        exact .mono (.after (State.within_bucketReturn ..) ht12) (by decide)
    · split
      · exact .mono (.refl _) (by decide)
      · rename_i a20 a21 t22 h23
        have ht22 : s.Within _ t22 := State.within_takeResp h23
        exact .mono (.after (State.within_hotReturn ..) ht22) (by decide)
    · exact .mono (.refl _) (by decide)

theorem State.within_cacheInstall (s : State) (p entry held : ℕ) :
    s.Within (.acc :: .time :: .free :: .buf :: .fmc :: .flow :: .tel :: reportParts) (s.cacheInstall p entry held) := by
  unfold State.cacheInstall
  split
  · split
    · exact State.within_hotReturn ..
    · exact .mono (.refl _) (by decide)
  · exact .mono (.refl _) (by decide)

theorem State.within_cleanBank (s : State) (bank : ℕ) :
    s.Within (.acc :: .fmc :: .flow :: reportParts) (s.cleanBank bank) := by
  unfold State.cleanBank
  refine .foldl (fun x0 b1 => ?_) (.mono (.refl _) (by decide))
  extract_lets +onlyGivenNames l
  exact .mono (.cond (.after (State.within_setCache ..) (State.within_writeBack ..)) (.refl _)) (by decide)

theorem State.within_hostRecord (s : State) (r : ℕ) (es : List ReadEnd) :
    s.Within (.acc :: .free :: .fmc :: .flow :: reportParts) ((s.hostRecord r es).2) := by
  unfold State.hostRecord
  extract_lets +onlyGivenNames h
  have hh : s.Within (.acc :: .free :: .fmc :: .flow :: reportParts) h.2 := by
    unfold h
    split
    · exact .mono (.refl _) (by decide)
    · exact .mono (State.within_readNow ..) (by decide)
  clear_value h
  extract_lets +onlyGivenNames c
  have hc : s.Within _ c.2 := .after (State.within_readNow ..) hh
  clear_value c
  split
  · exact .mono hc (by decide)
  · extract_lets +onlyGivenNames v
    exact .mono (.after (State.within_loseHot ..) hc) (by decide)
  · exact .mono hc (by decide)

theorem State.within_flowRead (s : State) (c : Cmd) (es : List ReadEnd) :
    s.Within (.acc :: .free :: .fmc :: .flow :: reportParts) ((s.flowRead c es).1) := by
  unfold State.flowRead
  split
  · exact .fstMk (.mono (.refl _) (by decide))
  · split
    · exact .fstMk (.mono (.refl _) (by decide))
    · split
      · rename_i a4 t5 h6
        have ht5 : s.Within _ t5 := .ofSnd (State.within_hostRecord ..) h6
        exact .fstMk (.mono ht5 (by decide))
      · rename_i a7 a8 a9 t10 h11
        have ht10 : s.Within _ t10 := .ofSnd (State.within_hostRecord ..) h11
        split
        · exact .fstMk (.mono ht10 (by decide))
        · exact .fstMk (.mono ht10 (by decide))

theorem State.within_hostBucket (s : State) (b hash key : ℕ) (es : List ReadEnd) :
    s.Within (.acc :: .free :: .fmc :: .flow :: reportParts) ((s.hostBucket b hash key es).2) := by
  unfold State.hostBucket
  split
  · rename_i a0 t1 h2
    have ht1 : s.Within _ t1 := .ofSnd (State.within_readNow ..) h2
    exact .sndMk (.mono (.after (State.within_loseBucket ..) ht1) (by decide))
  · rename_i a3 a4 t5 h6
    have ht5 : s.Within _ t5 := .ofSnd (State.within_readNow ..) h6
    split
    · exact .sndMk (.mono ht5 (by decide))
    · exact .sndMk (.mono ht5 (by decide))

theorem State.within_hostFind (s : State) (hash key : ℕ) (es : List ReadEnd) :
    s.Within (.acc :: .free :: .fmc :: .flow :: reportParts) ((s.hostFind hash key es).2) := by
  unfold State.hostFind
  split
  · exact .sndMk (.mono (.refl _) (by decide))
  · split
    · exact .sndMk (.mono (.refl _) (by decide))
    · exact .sndMk (.mono (.refl _) (by decide))
    · split
      · rename_i a18 t19 h20
        have ht19 : s.Within _ t19 := .ofSnd (State.within_hostBucket ..) h20
        exact .mono (.after (State.within_hostBucket ..) ht19) (by decide)
      · exact State.within_hostBucket ..

theorem State.within_updateHot (s : State) (r cls who : ℕ) (f : Line → Line) :
    s.Within (.acc :: .free :: .fmc :: .flow :: reportParts) (s.updateHot r cls who f) := by
  unfold State.updateHot
  extract_lets +onlyGivenNames d
  split
  · exact .mono (State.within_updateLine ..) (by decide)
  · split
    · rename_i a5 a6 t7 h8
      have ht7 : s.Within _ t7 := .ofSnd (State.within_readNow ..) h8
      exact .mono (.after (State.within_writeNow ..) ht7) (by decide)
    · rename_i a9 t10 h11
      have ht10 : s.Within _ t10 := .ofSnd (State.within_readNow ..) h11
      exact .mono (.after (State.within_loseHot ..) ht10) (by decide)

theorem State.within_writeCold (s : State) (r : ℕ) (c : Cmd) :
    s.Within (.acc :: .free :: .fmc :: reportParts) (s.writeCold r c) := by
  unfold State.writeCold
  split
  · rename_i a0 a1 t2 h3
    have ht2 : s.Within _ t2 := .ofSnd (State.within_readNow ..) h3
    exact .mono (.after (State.within_writeNow ..) ht2) (by decide)
  · rename_i a4 t5 h6
    have ht5 : s.Within _ t5 := .ofSnd (State.within_readNow ..) h6
    exact .mono ht5 (by decide)

theorem State.within_writePresent (s : State) (q : ℕ) (c : Cmd) (r : ℕ) :
    s.Within (.acc :: .free :: .fmc :: .flow :: .jobs :: reportParts) (s.writePresent q c r) := by
  unfold State.writePresent
  split
  · exact .mono (State.within_endCmd ..) (by decide)
  · extract_lets +onlyGivenNames resident written code s2
    have hs2 : s.Within _ s2 := State.within_updateHot ..
    clear_value s2
    extract_lets +onlyGivenNames s3
    have hs3 : s.Within _ s3 := .cond (.after (State.within_writeCold ..) hs2) hs2
    clear_value s3
    exact .mono (.after (State.within_endCmd ..) hs3) (by decide)

theorem State.within_writeGo (s : State) (q : ℕ) (c : Cmd) (hash key : ℕ) (es : List ReadEnd) :
    s.Within (.acc :: .free :: .fmc :: .flow :: .jobs :: reportParts) (s.writeGo q c hash key es) := by
  unfold State.writeGo
  split
  · exact .mono (.refl _) (by decide)
  · split
    · rename_i a2 t3 h4
      have ht3 : s.Within _ t3 := .ofSnd (State.within_hostFind ..) h4
      exact .mono (.after (State.within_endCmd ..) ht3) (by decide)
    · rename_i a5 a6 t7 h8
      have ht7 : s.Within _ t7 := .ofSnd (State.within_hostFind ..) h8
      exact .mono (.cond (.after (State.within_writePresent ..) ht7) (.after (State.within_writeAbsent ..) ht7)) (by decide)
    · rename_i a9 t10 h11
      have ht10 : s.Within _ t10 := .ofSnd (State.within_hostFind ..) h11
      exact .mono (.after (State.within_writeAbsent ..) ht10) (by decide)

theorem State.within_residentWay (s : State) (p hash key r : ℕ) :
    s.Within (.acc :: .fmc :: .flow :: reportParts) ((s.residentWay p hash key r).2) := by
  unfold State.residentWay
  split
  · exact .sndMk (.mono (.refl _) (by decide))
  · split
    · exact .sndMk (.mono (.refl _) (by decide))
    · exact .sndMk (.mono (State.within_install ..) (by decide))

theorem State.within_releaseMiss (s : State) (p r outcome : ℕ) (m : Miss) :
    s.Within (.acc :: .time :: .free :: .buf :: .fmc :: .flow :: .tel :: reportParts) (s.releaseMiss p r outcome m) := by
  unfold State.releaseMiss
  extract_lets +onlyGivenNames x
  have hx : s.Within _ x.2 := State.within_residentWay ..
  clear_value x
  split
  · exact .mono (.after (State.within_obtain ..) hx) (by decide)
  · exact .mono (State.within_endNoFlow ..) (by decide)

theorem State.within_claimActive (s : State) (id r : ℕ) :
    s.Within (.acc :: .time :: .free :: .buf :: .fmc :: .flow :: .tel :: reportParts) (s.claimActive id r) := by
  unfold State.claimActive
  extract_lets +onlyGivenNames s0
  have hs0 : s.Within _ s0 := State.within_eachWaiter (hf := (fun _ _ _ => (State.within_releaseMiss ..))) ..
  clear_value s0
  exact .mono (.after (State.within_setClaims ..) hs0) (by decide)

theorem State.within_writeCreated (s : State) (q : ℕ) (c : Cmd) (cl : Claim) :
    s.Within (.acc :: .time :: .free :: .buf :: .fmc :: .flow :: .tel :: .jobs :: reportParts) (s.writeCreated q c cl) := by
  unfold State.writeCreated
  extract_lets +onlyGivenNames h a h0 h1 h2 code s3
  have hs3 : s.Within _ s3 := State.within_writeNow ..
  clear_value s3
  extract_lets +onlyGivenNames s4
  have hs4 : s.Within _ s4 := .after (State.within_writeNow ..) hs3
  clear_value s4
  extract_lets +onlyGivenNames s5
  have hs5 : s.Within _ s5 := .after (State.within_startPush ..) (.after (State.within_claimActive ..) hs4)
  clear_value s5
  exact .mono (.after (State.within_endCmd ..) hs5) (by decide)

theorem State.within_dropAll (s : State) (p reason r : ℕ) (a0 : List Pass) :
    s.Within (.acc :: .wcount :: .modCnt :: .buf :: .tel :: ctrParts) (s.dropAll p reason r a0) := by
  induction a0 generalizing s p reason r with
  | nil =>
    rw [State.dropAll]
    exact .mono (.refl _) (by decide)
  | cons r l ih =>
    rw [State.dropAll]
    exact .mono (.after (ih ..) (State.within_dropPass ..)) (by decide)

theorem State.within_claimGone (s : State) (id : ℕ) (reason : Option ℕ) (r : ℕ) :
    s.Within (.acc :: .wcount :: .modCnt :: .free :: .buf :: .flow :: .tel :: ctrParts) (s.claimGone id reason r) := by
  unfold State.claimGone
  extract_lets +onlyGivenNames s0
  have hs0 : s.Within (.acc :: .wcount :: .modCnt :: .free :: .buf :: .flow :: .tel :: ctrParts) s0 := by
    unfold s0
    refine .mono (State.within_eachWaiter (F := (.acc :: .wcount :: .modCnt :: .free :: .buf :: .flow :: .tel :: ctrParts)) (hf := fun x1 x2 x3 => ?_) ..) (by decide)
    split
    · exact State.within_endNoFlow ..
    · exact .mono (.after (State.within_dropAll ..) (State.within_dropMiss ..)) (by decide)
  clear_value s0
  exact .mono (.after (State.within_setClaims ..) hs0) (by decide)

theorem State.within_writeStep (s : State) (q : ℕ) (es : List ReadEnd) :
    s.Within (.acc :: .time :: .free :: .buf :: .fmc :: .flow :: .tel :: .jobs :: reportParts) (s.writeStep q es) := by
  unfold State.writeStep
  split
  · exact .mono (.refl _) (by decide)
  · extract_lets +onlyGivenNames c
    split
    · exact .mono (.refl _) (by decide)
    · split
      · exact .mono (State.within_writeGo ..) (by decide)
      · split
        · exact .mono (.refl _) (by decide)
        · split
          · exact State.within_writeCreated ..
          · exact .mono (.after (State.within_writeGo ..) (State.within_setClaims ..)) (by decide)
          · exact .mono (.after (State.within_endCmd ..) (State.within_claimGone ..)) (by decide)
          · exact .mono (.after (State.within_endCmd ..) (State.within_claimGone ..)) (by decide)

theorem State.within_flowWrite (s : State) (c : Cmd) (es : List ReadEnd) :
    s.Within (.acc :: .time :: .free :: .buf :: .fmc :: .flow :: .tel :: .jobs :: reportParts) (s.flowWrite c es) := by
  unfold State.flowWrite
  exact .mono (.cond (.refl _) (.cond (.after (State.within_cmdFail ..) (State.within_unhold ..)) (.cond (.after (State.within_cmdFail ..) (State.within_unhold ..)) (.cond (.after (State.within_cmdFail ..) (State.within_unhold ..)) (.cond (.after (State.within_cmdFail ..) (State.within_unhold ..)) (.after (State.within_writeStep ..) (.after (State.within_holdCmd ..) (State.within_countPart ..)))))))) (by decide)

theorem State.within_flowDelete (s : State) (c : Cmd) (es : List ReadEnd) :
    s.Within (.acc :: .free :: .fmc :: .flow :: reportParts) ((s.flowDelete c es).1) := by
  unfold State.flowDelete
  split
  · exact .fstMk (.mono (.refl _) (by decide))
  · split
    · rename_i a6 t7 h8
      have ht7 : s.Within _ t7 := .ofSnd (State.within_hostFind ..) h8
      exact .fstMk (.mono ht7 (by decide))
    · rename_i a9 t10 h11
      have ht10 : s.Within _ t10 := .ofSnd (State.within_hostFind ..) h11
      exact .fstMk (.mono ht10 (by decide))
    · rename_i a12 a13 t14 h15
      have ht14 : s.Within _ t14 := .ofSnd (State.within_hostFind ..) h15
      exact .fstMk (.mono (.after (State.within_submitRemoval ..) ht14) (by decide))

theorem State.within_flowSearch (s : State) (c : Cmd) (es : List ReadEnd) :
    s.Within (.acc :: .free :: .fmc :: .flow :: reportParts) ((s.flowSearch c es).1) := by
  unfold State.flowSearch
  split
  · exact .fstMk (.mono (.refl _) (by decide))
  · split
    · rename_i a6 t7 h8
      have ht7 : s.Within _ t7 := .ofSnd (State.within_hostFind ..) h8
      exact .fstMk (.mono ht7 (by decide))
    · rename_i a9 t10 h11
      have ht10 : s.Within _ t10 := .ofSnd (State.within_hostFind ..) h11
      exact .fstMk (.mono ht10 (by decide))
    · rename_i a12 a13 t14 h15
      have ht14 : s.Within _ t14 := .ofSnd (State.within_hostFind ..) h15
      split
      · rename_i a16 t17 h18
        have ht17 : s.Within _ t17 := .ofSnd (.after (State.within_hostRecord ..) ht14) h18
        exact .fstMk (.mono ht17 (by decide))
      · rename_i a19 a20 a21 t22 h23
        have ht22 : s.Within _ t22 := .ofSnd (.after (State.within_hostRecord ..) ht14) h23
        split
        · exact .fstMk (.mono ht22 (by decide))
        · exact .fstMk (.mono ht22 (by decide))

theorem State.within_flowBucket (s : State) (c : Cmd) (es : List ReadEnd) :
    s.Within (.acc :: .free :: .fmc :: .flow :: reportParts) ((s.flowBucket c es).1) := by
  unfold State.flowBucket
  split
  · extract_lets +onlyGivenNames e
    split
    · exact .fstMk (.mono (.refl _) (by decide))
    · split
      · exact .fstMk (.mono (.refl _) (by decide))
      · exact .fstMk (.mono (.refl _) (by decide))
  · split
    · exact .fstMk (.mono (.refl _) (by decide))
    · split
      · exact .fstMk (.mono (.refl _) (by decide))
      · split
        · rename_i a10 a11 t12 h13
          have ht12 : s.Within _ t12 := .ofSnd (State.within_readNow ..) h13
          exact .fstMk (.mono ht12 (by decide))
        · rename_i a14 t15 h16
          have ht15 : s.Within _ t15 := .ofSnd (State.within_readNow ..) h16
          exact .fstMk (.mono (.after (State.within_loseBucket ..) ht15) (by decide))

theorem State.within_accountRead (s : State) (c : Cmd) (a0 : ℕ) (es : List ReadEnd) :
    s.Within (.acc :: .free :: .fmc :: reportParts) ((s.accountRead c a0 es).1) := by
  unfold State.accountRead
  split
  · exact .fstMk (.mono (.refl _) (by decide))
  · split
    · exact .fstMk (.mono (.refl _) (by decide))
    · split
      · exact .fstMk (.mono (.refl _) (by decide))
      · split
        · rename_i a6 a7 t8 h9
          have ht8 : s.Within _ t8 := .ofSnd (State.within_readNow ..) h9
          exact .fstMk (.mono ht8 (by decide))
        · rename_i a10 t11 h12
          have ht11 : s.Within _ t11 := .ofSnd (State.within_readNow ..) h12
          exact .fstMk (.mono ht11 (by decide))

theorem State.within_pollWrites (s : State) :
    s.Within (.acc :: .time :: .free :: .buf :: .fmc :: .flow :: .tel :: .jobs :: reportParts) s.pollWrites := by
  unfold State.pollWrites
  exact .mono (.each (fun _ _ => (State.within_writeStep ..)) (.refl _)) (by decide)

theorem State.within_undoClaim (s : State) (c : Claim) :
    s.Within (.acc :: .free :: .fmc :: .flow :: .policy :: .pip :: reportParts) (s.undoClaim c) := by
  unfold State.undoClaim
  extract_lets +onlyGivenNames s0
  have hs0 : s.Within _ s0 := State.within_clearHeader ..
  clear_value s0
  extract_lets +onlyGivenNames d
  exact .mono (.after (State.within_freeIndex ..) (.after (State.within_writeNow ..) hs0)) (by decide)

theorem State.within_runUndo (s : State) :
    s.Within (.acc :: .free :: .fmc :: .flow :: .policy :: .pip :: reportParts) s.runUndo := by
  unfold State.runUndo
  exact .mono (.each (fun _ _ => (.cond (.after (State.within_undoClaim ..) (State.within_setFlow ..)) (.refl _))) (.refl _)) (by decide)

theorem State.within_withdraw (s : State) (c : Claim) :
    s.Within (.acc :: .free :: .fmc :: .flow :: .policy :: .pip :: reportParts) (s.withdraw c) := by
  unfold State.withdraw
  exact .mono (.cond (State.within_undoClaim ..) (State.within_setFlow ..)) (by decide)

theorem State.within_withdrawHeld (s : State) (h : Held) (reason : Option ℕ) :
    s.Within (.acc :: .free :: .buf :: .fmc :: .flow :: .tel :: .policy :: .pip :: reportParts) (s.withdrawHeld h reason) := by
  unfold State.withdrawHeld
  split
  · exact .mono (.refl _) (by decide)
  · split
    · extract_lets +onlyGivenNames s6
      have hs6 : s.Within _ s6 := .cond (State.within_withdraw ..) (.refl _)
      clear_value s6
      exact .mono (.after (State.within_claimGone ..) hs6) (by decide)
    · exact .mono (State.within_putClaim ..) (by decide)

theorem State.within_reapClaims (s : State) :
    s.Within (.acc :: .free :: .buf :: .fmc :: .flow :: .tel :: .policy :: .pip :: reportParts) s.reapClaims := by
  unfold State.reapClaims
  exact .mono (.each (fun _ _ => (State.within_withdrawHeld ..)) (.refl _)) (by decide)

theorem State.within_afterClaims (s : State) :
    s.Within (.acc :: .time :: .free :: .buf :: .fmc :: .flow :: .tel :: .policy :: .pip :: .jobs :: reportParts) s.afterClaims := by
  unfold State.afterClaims
  exact .mono (.after (State.within_pollWrites ..) (.after (State.within_runUndo ..) (State.within_reapClaims ..))) (by decide)

theorem State.within_resolveClaim (s : State) (c : Claim) (b1 b2 : Line) :
    s.Within (.free :: .fmc :: .flow :: .policy :: .pip :: ctrParts) (s.resolveClaim c b1 b2) := by
  unfold State.resolveClaim
  split
  · exact .mono (.cond (.after (State.within_putClaim ..) (State.within_unlockAll ..)) (State.within_answer ..)) (by decide)
  · split
    · exact .mono (State.within_answer ..) (by decide)
    · rename_i a7 a8 t9 h10
      have ht9 : s.Within _ t9 := State.within_takeIndex h10
      extract_lets +onlyGivenNames c11
      split
      · exact .mono (.after (State.within_writeHalves ..) ht9) (by decide)
      · exact .mono (.cond (.after (State.within_putClaim ..) ht9) (.after (State.within_toStash ..) ht9)) (by decide)

theorem State.within_claimRead (s : State) :
    s.Within (.acc :: .free :: .fmc :: .flow :: .policy :: .pip :: reportParts) s.claimRead := by
  unfold State.claimRead
  split
  · exact .mono (.refl _) (by decide)
  · split
    · exact .mono (.refl _) (by decide)
    · rename_i a9 a10 t11 h12
      have ht11 : s.Within _ t11 := State.within_takeResp h12
      split
      · exact .mono ht11 (by decide)
      · rename_i a15 a16 t17 h18
        have ht17 : s.Within _ t17 := .after (State.within_takeResp h18) ht11
        split
        · exact .mono (.after (State.within_resolveClaim ..) ht17) (by decide)
        · exact .mono (.after (State.within_answer ..) (.after (State.within_loseBucket ..) ht17)) (by decide)
        · exact .mono (.after (State.within_answer ..) (.after (State.within_loseBucket ..) ht17)) (by decide)
        · exact .mono (.after (State.within_answer ..) (.after (State.within_loseBucket ..) (.after (State.within_loseBucket ..) ht17))) (by decide)

theorem State.within_clearAt (s : State) (b slot key r : ℕ) :
    s.Within (.acc :: .fmc :: reportParts) (s.clearAt b slot key r) := by
  unfold State.clearAt
  extract_lets +onlyGivenNames l h
  exact .mono (.cond (State.within_writeNow ..) (.refl _)) (by decide)

theorem State.within_claimFails (s : State) (c : Claim) :
    s.Within (.acc :: .fmc :: .flow :: .policy :: .pip :: reportParts) (s.claimFails c) := by
  unfold State.claimFails
  extract_lets +onlyGivenNames s0
  have hs0 : s.Within _ s0 := .cond (State.within_clearAt ..) (.refl _)
  clear_value s0
  exact .mono (.after (State.within_answer ..) (.after (State.within_freeIndex ..) hs0)) (by decide)

theorem State.within_claimHalves (s : State) :
    s.Within (.acc :: .fmc :: .flow :: .policy :: .pip :: reportParts) s.claimHalves := by
  unfold State.claimHalves
  split
  · exact .mono (.refl _) (by decide)
  · exact .mono (.cond (State.within_claimFails ..) (State.within_writeHeader ..)) (by decide)

theorem State.within_claimHeader (s : State) :
    s.Within (.acc :: .fmc :: .flow :: .policy :: .pip :: reportParts) s.claimHeader := by
  unfold State.claimHeader
  split
  · exact .mono (.refl _) (by decide)
  · exact .mono (.cond (State.within_claimFails ..) (State.within_answer ..)) (by decide)

theorem State.within_moveFails (s : State) (f : Fence) :
    s.Within (.acc :: .fmc :: .flow :: .policy :: .pip :: reportParts) (s.moveFails f) := by
  unfold State.moveFails
  extract_lets +onlyGivenNames s0
  have hs0 : s.Within _ s0 := .after (State.within_setFences ..) (State.within_clearAt ..)
  clear_value s0
  split
  · exact .mono hs0 (by decide)
  · exact .mono (.after (State.within_claimFails ..) hs0) (by decide)

theorem State.within_relocAccepted (s : State) :
    s.Within (.acc :: .fmc :: .flow :: .policy :: .pip :: reportParts) s.relocAccepted := by
  unfold State.relocAccepted
  split
  · exact .mono (.refl _) (by decide)
  · split
    · exact State.within_moveFails ..
    · extract_lets +onlyGivenNames l s7
      have hs7 : s.Within _ s7 := State.within_issueWrite ..
      clear_value s7
      extract_lets +onlyGivenNames s8
      have hs8 : s.Within _ s8 := .after (State.within_setFences ..) hs7
      clear_value s8
      extract_lets +onlyGivenNames s9
      have hs9 : s.Within _ s9 := .after (State.within_ctr ..) hs8
      clear_value s9
      split
      · exact .mono hs9 (by decide)
      · exact .mono (.after (State.within_writeHalves ..) hs9) (by decide)

theorem State.within_stashDrain (s : State) (e : ℕ) :
    s.Within (.acc :: .free :: .fmc :: .flow :: reportParts) (s.stashDrain e) := by
  unfold State.stashDrain
  extract_lets +onlyGivenNames h b1 b2
  split
  · exact .mono (.refl _) (by decide)
  · extract_lets +onlyGivenNames x
    have hx : s.Within _ x.2 := State.within_readNow ..
    clear_value x
    extract_lets +onlyGivenNames y
    have hy : s.Within _ y.2 := .after (State.within_readNow ..) hx
    clear_value y
    split
    · split
      · exact .mono hy (by decide)
      · exact .mono (.after (State.within_drainTo ..) hy) (by decide)
    · exact .mono (.after (State.within_loseBucket ..) hy) (by decide)
    · exact .mono (.after (State.within_loseBucket ..) hy) (by decide)
    · exact .mono (.after (State.within_loseBucket ..) (.after (State.within_loseBucket ..) hy)) (by decide)

theorem State.within_stashPlaced (s : State) :
    s.Within (.acc :: .fmc :: .flow :: reportParts) s.stashPlaced := by
  unfold State.stashPlaced
  split
  · exact .mono (.refl _) (by decide)
  · extract_lets +onlyGivenNames h failed s5
    extract_lets +onlyGivenNames s6
    extract_lets +onlyGivenNames s7
    have hs7 : s.Within _ s7 := State.within_setFmcFlow rfl
    clear_value s7
    extract_lets +onlyGivenNames s8
    have hs8 : s.Within _ s8 := .after (State.within_unlockAll ..) hs7
    clear_value s8
    exact .mono (.cond (.after (State.within_clearAt ..) hs8) (.cond hs8 (.after (State.within_setStash ..) hs8))) (by decide)

theorem State.within_closeRecord (s : State) (r : ℕ) :
    s.Within (.acc :: .free :: .fmc :: .flow :: reportParts) (s.closeRecord r) := by
  unfold State.closeRecord
  extract_lets +onlyGivenNames h s0
  have hs0 : s.Within (.acc :: .free :: .fmc :: .flow :: reportParts) s0 := by
    unfold s0
    split
    · exact .mono (State.within_updateLine ..) (by decide)
    · exact .mono (.refl _) (by decide)
  clear_value s0
  exact .mono (.after (State.within_clearHeader ..) hs0) (by decide)

theorem State.within_removalStart (s : State) :
    s.Within (.acc :: .free :: .fmc :: .flow :: reportParts) s.removalStart := by
  unfold State.removalStart
  split
  · exact .mono (.refl _) (by decide)
  · extract_lets +onlyGivenNames s5
    have hs5 : s.Within _ s5 := State.within_closeRecord ..
    clear_value s5
    extract_lets +onlyGivenNames s6
    have hs6 : s.Within (.acc :: .free :: .fmc :: .flow :: reportParts) s6 := by
      unfold s6
      split
      · exact .mono (.after (State.within_closeRecord ..) hs5) (by decide)
      · exact .mono hs5 (by decide)
    clear_value s6
    exact .mono (.after (State.within_countRemoval ..) (.after (State.within_setFlow ..) hs6)) (by decide)

theorem State.within_finalHot (s : State) (r : ℕ) (es : List ReadEnd) :
    s.Within (.acc :: .free :: .fmc :: .flow :: reportParts) ((s.finalHot r es).2) := by
  unfold State.finalHot
  split
  · exact .sndMk (.mono (State.within_setCache ..) (by decide))
  · exact .mono (State.within_readNow ..) (by decide)

theorem State.within_finalOne (s : State) (r cause : ℕ) (es : List ReadEnd) :
    s.Within (.acc :: .free :: .fmc :: .flow :: .tel :: reportParts) ((s.finalOne r cause es).2) := by
  unfold State.finalOne
  split
  · rename_i a0 t1 h2
    have ht1 : s.Within _ t1 := .ofSnd (State.within_finalHot ..) h2
    exact .sndMk (.mono (.after (State.within_loseRecord ..) ht1) (by decide))
  · rename_i a3 a4 t5 h6
    have ht5 : s.Within _ t5 := .ofSnd (State.within_finalHot ..) h6
    split
    · rename_i a7 a8 t9 h10
      have ht9 : s.Within _ t9 := .ofSnd (.after (State.within_readNow ..) ht5) h10
      exact .sndMk (.mono (.after (State.within_endRecord ..) ht9) (by decide))
    · rename_i a11 t12 h13
      have ht12 : s.Within _ t12 := .ofSnd (.after (State.within_readNow ..) ht5) h13
      extract_lets +onlyGivenNames d
      have hd : s.Within _ d.2 := .after (State.within_draw ..) ht12
      clear_value d
      exact .sndMk (.mono (.after (State.within_endRecord ..) hd) (by decide))

theorem State.within_freeRecord (s : State) (r : ℕ) (h : Line) :
    s.Within (.acc :: .fmc :: .flow :: .policy :: .pip :: reportParts) (s.freeRecord r h) := by
  unfold State.freeRecord
  exact .mono (.after (State.within_freeIndex ..) (State.within_writeNow ..)) (by decide)

theorem State.within_finalFree (s : State) (r : ℕ) (hot : Option Line) :
    s.Within (.acc :: .fmc :: .flow :: .act :: .policy :: .pip :: reportParts) (s.finalFree r hot) := by
  unfold State.finalFree
  split
  · exact .mono (.refl _) (by decide)
  · exact .mono (.after (State.within_freeRecord ..) (State.within_teardownBlock ..)) (by decide)

theorem State.within_removalDone (s : State) (a0 : Removal) (h1 h2 : Option Line) :
    s.Within (.acc :: .fmc :: .flow :: .act :: .policy :: .pip :: reportParts) (s.removalDone a0 h1 h2) := by
  unfold State.removalDone
  extract_lets +onlyGivenNames s0
  have hs0 : s.Within _ s0 := State.within_finalFree ..
  clear_value s0
  extract_lets +onlyGivenNames s1
  have hs1 : s.Within (.acc :: .fmc :: .flow :: .act :: .policy :: .pip :: reportParts) s1 := by
    unfold s1
    split
    · exact .mono (.after (State.within_finalFree ..) hs0) (by decide)
    · exact .mono hs0 (by decide)
  clear_value s1
  exact .mono (.after (State.within_dropRemoval ..) hs1) (by decide)

theorem State.within_removalFinal (s : State) (es : List ReadEnd) :
    s.Within (.acc :: .free :: .fmc :: .flow :: .act :: .tel :: .policy :: .pip :: reportParts) (s.removalFinal es) := by
  unfold State.removalFinal
  split
  · exact .mono (.refl _) (by decide)
  · extract_lets +onlyGivenNames a
    have ha : s.Within _ a.2 := State.within_finalOne ..
    clear_value a
    extract_lets +onlyGivenNames b
    have hb : s.Within (.acc :: .free :: .fmc :: .flow :: .act :: .tel :: .policy :: .pip :: reportParts) b.2 := by
      unfold b
      split
      · exact .mono (.after (State.within_finalOne ..) ha) (by decide)
      · exact .sndMk (.mono ha (by decide))
    clear_value b
    split
    · extract_lets +onlyGivenNames x
      have hx : s.Within _ x := hb
      clear_value x
      exact .mono (.after (State.within_setFlow ..) hx) (by decide)
    · exact .mono (.after (State.within_removalDone ..) hb) (by decide)

theorem State.within_agingVisit (s : State) (es : List ReadEnd) :
    s.Within (.acc :: .free :: .fmc :: .flow :: reportParts) (s.agingVisit es) := by
  unfold State.agingVisit
  refine .mono (State.within_bgRun (F := (.acc :: .free :: .fmc :: .flow :: reportParts)) (hf := fun x0 => ?_) ..) (by decide)
  extract_lets +onlyGivenNames r s1
  extract_lets +onlyGivenNames s2
  have hs2 : x0.Within _ s2 := State.within_setFlow ..
  clear_value s2
  split
  · exact .mono (.after (State.within_readNow ..) hs2) (by decide)
  · split
    · rename_i a5 t6 h7
      have ht6 : x0.Within _ t6 := .ofSnd (.after (State.within_readNow ..) hs2) h7
      extract_lets +onlyGivenNames h
      exact .mono (.after (State.within_loseHot ..) ht6) (by decide)
    · rename_i a8 a9 t10 h11
      have ht10 : x0.Within _ t10 := .ofSnd (.after (State.within_readNow ..) hs2) h11
      exact .mono (.cond (.after (State.within_submitRemoval ..) ht10) ht10) (by decide)

theorem State.within_startReloc (s : State) (q : ℕ) (cl : Claim) :
    s.Within (.acc :: .free :: .fmc :: .flow :: .policy :: .pip :: reportParts) (s.startReloc q cl) := by
  unfold State.startReloc
  split
  · exact State.within_relocAnswer ..
  · split
    · exact .mono (.refl _) (by decide)
    · exact .mono (State.within_beginRoutine ..) (by decide)

theorem State.within_routineStart (s : State) (q : ℕ) :
    s.Within (.acc :: .free :: .fmc :: .flow :: .policy :: .pip :: reportParts) (s.routineStart q) := by
  unfold State.routineStart
  split
  · exact .mono (State.within_startGlobal ..) (by decide)
  · split
    · exact State.within_startReloc ..
    · exact .mono (State.within_startSetup ..) (by decide)

theorem State.within_relocEnd (s : State) (q c : ℕ) (found : Bool) :
    s.Within (.acc :: .free :: .fmc :: .flow :: .policy :: .pip :: reportParts) (s.relocEnd q c found) := by
  unfold State.relocEnd
  extract_lets +onlyGivenNames x
  exact .mono (.cond (State.within_relocAnswer ..) (.refl _)) (by decide)

theorem State.within_withdrawOpt (s : State) (h : Option Held) (reason : Option ℕ) :
    s.Within (.acc :: .free :: .buf :: .fmc :: .flow :: .tel :: .policy :: .pip :: reportParts) (s.withdrawOpt h reason) := by
  unfold State.withdrawOpt
  split
  · exact .mono (.cond (.refl _) (State.within_withdrawHeld ..)) (by decide)
  · exact .mono (.refl _) (by decide)

theorem State.within_withdrawAll (s : State) (q c : ℕ) (reason : Option ℕ) :
    s.Within (.acc :: .free :: .buf :: .fmc :: .flow :: .act :: .tel :: .policy :: .pip :: reportParts) (s.withdrawAll q c reason) := by
  unfold State.withdrawAll
  extract_lets +onlyGivenNames x s0
  have hs0 : s.Within _ s0 := .after (State.within_withdrawOpt ..) (State.within_withdrawOpt ..)
  clear_value s0
  extract_lets +onlyGivenNames s1
  have hs1 : s.Within _ s1 := .cond hs0 (.after (State.within_natUndo ..) hs0)
  clear_value s1
  exact .mono (.after (State.within_upCtx ..) hs1) (by decide)

theorem State.within_setupDrop (s : State) (p c : ℕ) (reason : Option ℕ) (r : ℕ) :
    s.Within (.acc :: .wcount :: .modCnt :: .free :: .buf :: .flow :: .tel :: ctrParts) (s.setupDrop p c reason r) := by
  unfold State.setupDrop
  split
  · exact .mono (.refl _) (by decide)
  · split
    · exact State.within_endNoFlow ..
    · exact .mono (.after (State.within_dropAll ..) (State.within_dropMiss ..)) (by decide)

theorem State.within_pipFaultAt (s : State) (q c code u : ℕ) :
    s.Within (.acc :: .free :: .buf :: .fmc :: .flow :: .act :: .tel :: .policy :: .pip :: reportParts) (s.pipFaultAt q c code u) := by
  unfold State.pipFaultAt
  extract_lets +onlyGivenNames x s0
  have hs0 : s.Within _ s0 := .after (State.within_faultCap ..) (State.within_countFault ..)
  clear_value s0
  extract_lets +onlyGivenNames s1
  have hs1 : s.Within _ s1 := .cond (.after (State.within_journal ..) hs0) hs0
  clear_value s1
  extract_lets +onlyGivenNames s2
  have hs2 : s.Within (.acc :: .free :: .buf :: .fmc :: .flow :: .act :: .tel :: .policy :: .pip :: reportParts) s2 := .mono (.after (State.within_relocEnd ..) (.after (State.within_ckptMax ..) hs1)) (by decide)
  clear_value s2
  extract_lets +onlyGivenNames s3
  have hs3 : s.Within _ s3 := .after (State.within_unlockCtx ..) (.after (State.within_withdrawAll ..) hs2)
  clear_value s3
  exact .mono (.after (State.within_freeCtx ..) (.after (State.within_setupDrop ..) hs3)) (by decide)

theorem State.within_pipFault (s : State) (q c code : ℕ) :
    s.Within (.acc :: .free :: .buf :: .fmc :: .flow :: .act :: .tel :: .policy :: .pip :: reportParts) (s.pipFault q c code) := by
  unfold State.pipFault
  exact State.within_pipFaultAt ..

theorem State.within_commitLine (s : State) (q c : ℕ) (l : Loc) (f : Line → Line) :
    s.Within (.acc :: .free :: .fmc :: reportParts) (s.commitLine q c l f) := by
  unfold State.commitLine
  split
  · rename_i a0 a1 t2 h3
    have ht2 : s.Within _ t2 := .ofSnd (State.within_readNow ..) h3
    exact .mono (.after (State.within_issueWrite ..) ht2) (by decide)
  · rename_i a4 t5 h6
    have ht5 : s.Within _ t5 := .ofSnd (State.within_readNow ..) h6
    exact .mono (.after (State.within_writeFailed ..) ht5) (by decide)

theorem State.within_commitRecord (s : State) (q c r : ℕ) (w : BitVec 1024) :
    s.Within (.acc :: .free :: .fmc :: .flow :: reportParts) (s.commitRecord q c r w) := by
  unfold State.commitRecord
  extract_lets +onlyGivenNames s0
  have hs0 : s.Within _ s0 := State.within_commitLine ..
  clear_value s0
  extract_lets +onlyGivenNames f d
  split
  · exact .mono (.after (State.within_updateLine ..) hs0) (by decide)
  · extract_lets +onlyGivenNames s6
    have hs6 : s.Within _ s6 := .after (State.within_commitLine ..) hs0
    clear_value s6
    exact .mono (.cond (.after (State.within_loseHot ..) hs6) hs6) (by decide)

theorem State.within_commitHeld (s : State) (q c : ℕ) (h : Option Held) (w : BitVec 1024) :
    s.Within (.acc :: .free :: .fmc :: .flow :: reportParts) (s.commitHeld q c h w) := by
  unfold State.commitHeld
  split
  · exact .mono (.cond (State.within_commitRecord ..) (State.within_writeFailed ..)) (by decide)
  · exact .mono (.refl _) (by decide)

theorem State.within_commitElephant (s : State) (r : ℕ) (a0 : BitVec 1024) :
    s.Within (.acc :: .free :: .fmc :: .flow :: reportParts) (s.commitElephant r a0) := by
  unfold State.commitElephant
  extract_lets +onlyGivenNames h
  exact .mono (.cond (State.within_updateHot ..) (.refl _)) (by decide)

theorem State.within_commitRecords (s : State) (q c : ℕ) :
    s.Within (.acc :: .free :: .fmc :: .flow :: reportParts) (s.commitRecords q c) := by
  unfold State.commitRecords
  extract_lets +onlyGivenNames x s0
  have hs0 : s.Within _ s0 := .after (State.within_commitHeld ..) (State.within_commitHeld ..)
  clear_value s0
  split
  · exact .mono (.cond (.after (State.within_commitElephant ..) hs0) hs0) (by decide)
  · exact .mono hs0 (by decide)

theorem State.within_commit (s : State) (q c : ℕ) (ckpt : Bool) :
    s.Within (.acc :: .free :: .fwd :: .fmc :: .flow :: .act :: .policy :: .pip :: .qnc :: reportParts) (s.commit q c ckpt) := by
  unfold State.commit
  extract_lets +onlyGivenNames x isWrite s0
  have hs0 : s.Within _ s0 := .each (fun _ _ => (State.within_applyStaged ..)) (.refl _)
  clear_value s0
  extract_lets +onlyGivenNames s1
  have hs1 : s.Within _ s1 := .after (State.within_commitRecords ..) hs0
  clear_value s1
  extract_lets +onlyGivenNames s2
  have hs2 : s.Within _ s2 := .each (fun _ _ => (State.within_applyStaged ..)) hs1
  clear_value s2
  extract_lets +onlyGivenNames s3
  have hs3 : s.Within _ s3 := .after (State.within_upCtx ..) hs2
  clear_value s3
  exact .mono (.after (State.within_ctr ..) hs3) (by decide)

theorem State.within_endRoutine (s : State) (q c : ℕ) :
    s.Within (.acc :: .free :: .buf :: .fmc :: .flow :: .act :: .tel :: .policy :: .pip :: reportParts) (s.endRoutine q c) := by
  unfold State.endRoutine
  extract_lets +onlyGivenNames s0
  have hs0 : s.Within _ s0 := .after (State.within_relocEnd ..) (State.within_ckptMax ..)
  clear_value s0
  extract_lets +onlyGivenNames s1
  have hs1 : s.Within _ s1 := .after (State.within_unlockCtx ..) (.after (State.within_withdrawAll ..) hs0)
  clear_value s1
  extract_lets +onlyGivenNames s2
  have hs2 : s.Within (.acc :: .free :: .buf :: .fmc :: .flow :: .act :: .tel :: .policy :: .pip :: reportParts) s2 := .mono (.cond (.after (State.within_setupAttach ..) hs1) (.after (State.within_setupDrop ..) hs1)) (by decide)
  clear_value s2
  exact .mono (.after (State.within_freeCtx ..) hs2) (by decide)

theorem State.within_abortRoutine (s : State) (q c reason : ℕ) :
    s.Within (.acc :: .free :: .buf :: .fmc :: .flow :: .act :: .tel :: .policy :: .pip :: reportParts) (s.abortRoutine q c reason) := by
  unfold State.abortRoutine
  extract_lets +onlyGivenNames r s0
  have hs0 : s.Within _ s0 := .after (State.within_relocEnd ..) (State.within_ckptMax ..)
  clear_value s0
  extract_lets +onlyGivenNames s1
  have hs1 : s.Within _ s1 := .after (State.within_unlockCtx ..) (.after (State.within_withdrawAll ..) hs0)
  clear_value s1
  exact .mono (.after (State.within_freeCtx ..) (.after (State.within_setupDrop ..) hs1)) (by decide)

theorem State.within_commitPart (s : State) (q c : ℕ) (n : Nano) (nx : Seq') :
    s.Within (.acc :: .free :: .buf :: .fwd :: .fmc :: .flow :: .act :: .tel :: .policy :: .pip :: .qnc :: reportParts) (s.commitPart q c n nx) := by
  unfold State.commitPart
  extract_lets +onlyGivenNames s0
  have hs0 : s.Within _ s0 := State.within_upCtx ..
  clear_value s0
  split
  · exact .mono (.after (State.within_commit ..) hs0) (by decide)
  · split
    · exact .mono hs0 (by decide)
    · exact .mono (.after (State.within_endRoutine ..) hs0) (by decide)
    · exact .mono (.after (State.within_abortRoutine ..) hs0) (by decide)

theorem State.within_setElephant (s : State) (r hash key v : ℕ) :
    s.Within (.acc :: .free :: .fmc :: .flow :: reportParts) (s.setElephant r hash key v) := by
  unfold State.setElephant
  exact .mono (.cond (State.within_updateHot ..) (.refl _)) (by decide)

theorem State.within_demote (s : State) (c : ℕ) (e : Promo) :
    s.Within (.acc :: .free :: .fmc :: .flow :: .policy :: reportParts) (s.demote c e) := by
  unfold State.demote
  extract_lets +onlyGivenNames since gone
  split
  · extract_lets +onlyGivenNames s1
    have hs1 : s.Within _ s1 := .after (State.within_setPromo ..) (State.within_setElephant ..)
    clear_value s1
    exact .mono (.after (State.within_journal ..) hs1) (by decide)
  · exact .mono (.refl _) (by decide)

theorem State.within_elephantTick (s : State) (c : ℕ) :
    s.Within (.acc :: .free :: .fmc :: .flow :: .policy :: reportParts) (s.elephantTick c) := by
  unfold State.elephantTick
  exact .mono (.cond (.each (fun _ _ => (State.within_demote ..)) (.refl _)) (.refl _)) (by decide)

theorem State.within_fetchRecord (s : State) (r : ℕ) (es : List ReadEnd) :
    s.Within (.acc :: .free :: .fmc :: .flow :: reportParts) ((s.fetchRecord r es).2) := by
  unfold State.fetchRecord
  extract_lets +onlyGivenNames d h
  have hh : s.Within (.acc :: .free :: .fmc :: .flow :: reportParts) h.2 := by
    unfold h
    split
    · exact .mono (.refl _) (by decide)
    · split
      · rename_i a5 a6 t7 h8
        have ht7 : s.Within _ t7 := .ofSnd (State.within_readNow ..) h8
        exact .mono ht7 (by decide)
      · rename_i a9 t10 h11
        have ht10 : s.Within _ t10 := .ofSnd (State.within_readNow ..) h11
        exact .mono (.after (State.within_loseHot ..) ht10) (by decide)
  clear_value h
  extract_lets +onlyGivenNames k
  have hk : s.Within _ k.2 := .after (State.within_readNow ..) hh
  clear_value k
  exact .sndMk (.mono hk (by decide))

theorem State.within_evictWalk (s : State) (c : ℕ) (a0 : List ℕ) :
    s.Within (.acc :: .free :: .fmc :: .flow :: .policy :: reportParts) ((s.evictWalk c a0).1) := by
  induction a0 generalizing s c with
  | nil =>
    rw [State.evictWalk]
    exact .fstMk (.mono (.after (State.within_evictDone ..) (State.within_put ..)) (by decide))
  | cons r l ih =>
    rw [State.evictWalk]
    split
    · exact .fstMk (.mono (State.within_evictDone ..) (by decide))
    · split
      · exact .fstMk (.mono (State.within_evictDone ..) (by decide))
      · split
        · exact .fstMk (.mono (State.within_bgDelay ..) (by decide))
        · extract_lets +onlyGivenNames x
          have hx : s.Within _ x.2 := State.within_fetchRecord ..
          clear_value x
          extract_lets +onlyGivenNames h s6
          have hs6 : s.Within _ s6 := .after (State.within_put ..) hx
          clear_value s6
          split
          · extract_lets +onlyGivenNames e s8
            have hs8 : s.Within _ s8 := .after (State.within_journal ..) (.after (State.within_submitRemoval ..) hs6)
            clear_value s8
            exact .mono (.after (ih ..) (.after (State.within_setPolicy ..) hs8)) (by decide)
          · exact .mono (.after (ih ..) hs6) (by decide)

theorem State.within_evict (s : State) (c : ℕ) :
    s.Within (.acc :: .free :: .fmc :: .flow :: .policy :: reportParts) ((s.evict c).1) := by
  unfold State.evict
  split
  · exact .fstMk (.mono (.refl _) (by decide))
  · extract_lets +onlyGivenNames at' gone k
    exact State.within_evictWalk ..

theorem State.within_elephant (s : State) (c r hash key bytes : ℕ) :
    s.Within (.acc :: .free :: .fmc :: .flow :: .policy :: reportParts) (s.elephant c r hash key bytes) := by
  unfold State.elephant
  split
  · exact .mono (.refl _) (by decide)
  · extract_lets +onlyGivenNames l w
    exact .mono (.cond (State.within_setPromo ..) (.cond (.refl _) (.cond (.after (State.within_journal ..) (.after (State.within_setPromo ..) (State.within_setElephant ..))) (State.within_journal ..)))) (by decide)

theorem State.within_relocStep (s : State) (q c : ℕ) :
    s.Within (.acc :: .free :: .buf :: .fmc :: .flow :: .act :: .tel :: .policy :: .pip :: reportParts) (s.relocStep q c) := by
  unfold State.relocStep
  exact State.within_endRoutine ..

theorem State.within_claimReply (s : State) (q c rt : ℕ) (ps : Pass) (r : Reply) (action : ℕ) :
    s.Within (.acc :: .free :: .buf :: .fmc :: .flow :: .act :: .tel :: .policy :: .pip :: reportParts) (s.claimReply q c rt ps r action) := by
  unfold State.claimReply
  extract_lets +onlyGivenNames k w s0
  have hs0 : s.Within _ s0 := State.within_upCtx ..
  clear_value s0
  split
  · rename_i a1 t2 h3
    have ht2 : s.Within _ t2 := .after (State.within_opClaim h3) hs0
    exact .mono (.after (State.within_waitAt ..) ht2) (by decide)
  · exact .mono (.after (State.within_pipFault ..) hs0) (by decide)

theorem State.within_setupLb (s : State) (q c : ℕ) (ps : Pass) (rp : Prof) :
    s.Within (.acc :: .free :: .buf :: .fmc :: .flow :: .act :: .tel :: .policy :: .pip :: reportParts) (s.setupLb q c ps rp) := by
  unfold State.setupLb
  split
  · exact State.within_abortRoutine ..
  · extract_lets +onlyGivenNames skip
    split
    · exact State.within_abortRoutine ..
    · extract_lets +onlyGivenNames s10
      have hs10 : s.Within _ s10 := State.within_upCtx ..
      clear_value s10
      split
      · exact .mono (.after (State.within_goTo ..) hs10) (by decide)
      · split
        · exact .mono (.after (State.within_abortRoutine ..) hs10) (by decide)
        · split
          · exact .mono (.after (State.within_abortRoutine ..) hs10) (by decide)
          · exact .mono (.after (State.within_claimReply ..) hs10) (by decide)

theorem State.within_setupNat (s : State) (q c : ℕ) (ps : Pass) (rp : Prof) :
    s.Within (.acc :: .free :: .buf :: .fmc :: .flow :: .act :: .tel :: .policy :: .pip :: reportParts) (s.setupNat q c ps rp) := by
  unfold State.setupNat
  split
  · exact State.within_abortRoutine ..
  · split
    · exact State.within_abortRoutine ..
    · split
      · rename_i a10 t11 h12
        have ht11 : s.Within _ t11 := State.within_opLock h12
        exact .mono (.cond (.after (State.within_goTo ..) ht11) (.after (State.within_waitAt ..) ht11)) (by decide)
      · exact State.within_pipFault ..

theorem State.within_setupPath (s : State) (q c : ℕ) (ps : Pass) :
    s.Within (.acc :: .free :: .buf :: .fmc :: .flow :: .act :: .tel :: .policy :: .pip :: reportParts) (s.setupPath q c ps) := by
  unfold State.setupPath
  split
  · exact State.within_abortRoutine ..
  · extract_lets +onlyGivenNames rp
    split
    · exact State.within_setupLb ..
    · exact State.within_setupNat ..
    · exact State.within_setupNat ..
    · exact .mono (State.within_goTo ..) (by decide)

theorem State.within_setupClaimed (s : State) (q c : ℕ) (ps : Pass) :
    s.Within (.acc :: .free :: .buf :: .fmc :: .flow :: .act :: .tel :: .policy :: .pip :: reportParts) (s.setupClaimed q c ps) := by
  unfold State.setupClaimed
  exact .mono (.cond (State.within_setupPath ..) (State.within_endRoutine ..)) (by decide)

theorem State.within_natTry (s : State) (q c : ℕ) (ps : Pass) (rp : Prof) :
    s.Within (.acc :: .free :: .buf :: .fmc :: .flow :: .act :: .tel :: .policy :: .pip :: reportParts) (s.natTry q c ps rp) := by
  unfold State.natTry
  extract_lets +onlyGivenNames x pool
  split
  · exact State.within_abortRoutine ..
  · rename_i a2 a3 t4 h5
    have ht4 : s.Within _ t4 := State.within_natBlock h5
    extract_lets +onlyGivenNames own w blk
    split
    · exact .mono (.after (State.within_goTo ..) (.after (State.within_upCtx ..) ht4)) (by decide)
    · extract_lets +onlyGivenNames k port s8
      have hs8 : s.Within _ s8 := .after (State.within_setBlock ..) ht4
      clear_value s8
      extract_lets +onlyGivenNames r
      exact .mono (.cond (.after (State.within_goTo ..) (.after (State.within_upCtx ..) hs8)) (.after (State.within_claimReply ..) (.after (State.within_upCtx ..) hs8))) (by decide)

theorem State.within_replyClaimed (s : State) (q c : ℕ) (rp : Prof) :
    s.Within (.acc :: .free :: .buf :: .fmc :: .flow :: .act :: .tel :: .policy :: .pip :: reportParts) (s.replyClaimed q c rp) := by
  unfold State.replyClaimed
  extract_lets +onlyGivenNames x nat
  split
  · split
    · extract_lets +onlyGivenNames b s3
      have hs3 : s.Within _ s3 := State.within_setBlock ..
      clear_value s3
      exact .mono (.after (State.within_goTo ..) (.after (State.within_upCtx ..) hs3)) (by decide)
    · exact .mono (State.within_goTo ..) (by decide)
  · exact .mono (.cond (State.within_goTo ..) (State.within_abortRoutine ..)) (by decide)
  · exact State.within_abortRoutine ..
  · exact State.within_pipFault ..

theorem State.within_setupFinish (s : State) (q c : ℕ) (ps : Pass) (rp : Prof) :
    s.Within (.acc :: .free :: .buf :: .fwd :: .fmc :: .flow :: .act :: .tel :: .policy :: .pip :: .qnc :: reportParts) (s.setupFinish q c ps rp) := by
  unfold State.setupFinish
  extract_lets +onlyGivenNames x
  split
  · exact .mono (State.within_abortRoutine ..) (by decide)
  · extract_lets +onlyGivenNames w y
    exact .mono (.after (State.within_commit ..) (State.within_upCtx ..)) (by decide)

theorem State.within_setupStep (s : State) (q c : ℕ) :
    s.Within (.acc :: .free :: .buf :: .fwd :: .fmc :: .flow :: .act :: .tel :: .policy :: .pip :: .qnc :: reportParts) (s.setupStep q c) := by
  unfold State.setupStep
  extract_lets +onlyGivenNames x
  split
  · exact .mono (State.within_endRoutine ..) (by decide)
  · extract_lets +onlyGivenNames rp
    split
    · split
      · rename_i a7 t8 h9
        have ht8 : s.Within _ t8 := State.within_opClaim h9
        exact .mono (.after (State.within_waitAt ..) ht8) (by decide)
      · exact .mono (State.within_pipFault ..) (by decide)
    · exact .mono (State.within_setupClaimed ..) (by decide)
    · exact .mono (State.within_natTry ..) (by decide)
    · exact .mono (State.within_replyClaimed ..) (by decide)
    · exact State.within_setupFinish ..
    · exact .mono (State.within_endRoutine ..) (by decide)

theorem State.within_loadData (s : State) (q : ℕ) (a0 : Ctx) (o : MemOp) (es : List ReadEnd) :
    s.Within (.acc :: .free :: .fmc :: .flow :: reportParts) ((s.loadData q a0 o es).2) := by
  unfold State.loadData
  split
  · extract_lets +onlyGivenNames b
    split
    · rename_i a1 a2 t3 h4
      have ht3 : s.Within _ t3 := .ofSnd (State.within_readNow ..) h4
      exact .sndMk (.mono ht3 (by decide))
    · rename_i a5 t6 h7
      have ht6 : s.Within _ t6 := .ofSnd (State.within_readNow ..) h7
      exact .sndMk (.mono (.after (State.within_loseBucket ..) ht6) (by decide))
  · exact .sndMk (.mono (.refl _) (by decide))

theorem State.within_loadDone (s : State) (q c : ℕ) (y : Ctx) (o : MemOp) (l : List Byte) :
    s.Within (.acc :: .free :: .buf :: .fmc :: .flow :: .act :: .tel :: .policy :: .pip :: reportParts) (s.loadDone q c y o l) := by
  unfold State.loadDone
  extract_lets +onlyGivenNames z
  split
  · exact .mono (.after (State.within_pipFaultAt ..) (State.within_setCtx ..)) (by decide)
  · extract_lets +onlyGivenNames z2
    exact .mono (State.within_setCtx ..) (by decide)

theorem State.within_fetchDone (s : State) (q c : ℕ) (y : Ctx) (o : MemOp) (es : List ReadEnd) :
    s.Within (.acc :: .free :: .buf :: .fmc :: .flow :: .act :: .tel :: .policy :: .pip :: reportParts) (s.fetchDone q c y o es) := by
  unfold State.fetchDone
  refine .mono (State.within_bgRun (F := (.acc :: .free :: .buf :: .fmc :: .flow :: .act :: .tel :: .policy :: .pip :: reportParts)) (hf := fun x0 => ?_) ..) (by decide)
  split
  · rename_i a1 t2 h3
    have ht2 : x0.Within _ t2 := .ofSnd (State.within_fetchRecord ..) h3
    exact .mono (.after (State.within_pipFaultAt ..) (.after (State.within_setCtx ..) ht2)) (by decide)
  · rename_i a4 a5 a6 t7 h8
    have ht7 : x0.Within _ t7 := .ofSnd (State.within_fetchRecord ..) h8
    exact .mono (.after (State.within_setCtx ..) ht7) (by decide)

theorem State.within_memResponse (s : State) (q c i : ℕ) (es : List ReadEnd) :
    s.Within (.acc :: .free :: .buf :: .fmc :: .flow :: .act :: .tel :: .policy :: .pip :: reportParts) (s.memResponse q c i es) := by
  unfold State.memResponse
  extract_lets +onlyGivenNames x
  split
  · exact .mono (.refl _) (by decide)
  · extract_lets +onlyGivenNames y
    split
    · split
      · exact .mono (.refl _) (by decide)
      · split
        · exact .mono (.refl _) (by decide)
        · exact .mono (.cond (.after (State.within_claimResponse ..) (State.within_setCtx ..)) (.refl _)) (by decide)
    · extract_lets +onlyGivenNames r
      have hr : s.Within _ r.2 := State.within_loadData ..
      clear_value r
      split
      · exact .mono (.after (State.within_pipFaultAt ..) (.after (State.within_setCtx ..) hr)) (by decide)
      · exact .mono (.after (State.within_loadDone ..) hr) (by decide)
    · exact State.within_fetchDone ..
    · exact .mono (.refl _) (by decide)

theorem State.within_releaseX (s : State) (a0 : Ctx) :
    s.Within (.acc :: .time :: .free :: .buf :: .fmc :: .flow :: .tel :: reportParts) (s.releaseX a0) := by
  unfold State.releaseX
  split
  · exact .mono (.cond (.after (State.within_startPush ..) (State.within_claimActive ..)) (.refl _)) (by decide)
  · exact .mono (.refl _) (by decide)

theorem State.within_releaseW (s : State) (q c : ℕ) (a0 : Ctx) :
    s.Within (.acc :: .time :: .free :: .buf :: .fmc :: .flow :: .tel :: .policy :: .pip :: reportParts) (s.releaseW q c a0) := by
  unfold State.releaseW
  split
  · split
    · extract_lets +onlyGivenNames s5
      have hs5 : s.Within _ s5 := State.within_lbDetect ..
      clear_value s5
      extract_lets +onlyGivenNames s6
      have hs6 : s.Within (.acc :: .time :: .free :: .buf :: .fmc :: .flow :: .tel :: .policy :: .pip :: reportParts) s6 := by
        unfold s6
        split
        · exact .mono (.after (State.within_releaseMiss ..) hs5) (by decide)
        · exact .mono hs5 (by decide)
      clear_value s6
      exact .mono (.after (State.within_startPush ..) (.after (State.within_claimActive ..) hs6)) (by decide)
    · exact .mono (.refl _) (by decide)
  · exact .mono (.refl _) (by decide)

theorem State.within_deadline (s : State) (q c : ℕ) :
    s.Within (.acc :: .taken :: .time :: .clk :: .free :: .buf :: .fmc :: .flow :: .act :: .tel :: .policy :: .pip :: reportParts) (s.deadline q c) := by
  unfold State.deadline
  extract_lets +onlyGivenNames x
  split
  · exact .mono (.refl _) (by decide)
  · split
    · exact .mono (.refl _) (by decide)
    · extract_lets +onlyGivenNames own
      exact .mono (.after (State.within_pipFault ..) (State.within_passTo ..)) (by decide)

theorem State.within_deadlineWaiting (s : State) (q entry : ℕ) :
    s.Within (.acc :: .wcount :: .modCnt :: .taken :: .time :: .clk :: .free :: .buf :: .flow :: .tel :: ctrParts) (s.deadlineWaiting q entry) := by
  unfold State.deadlineWaiting
  split
  · split
    · exact .mono (.refl _) (by decide)
    · exact .mono (.cond (.after (State.within_endNoFlow ..) (.after (State.within_countFault ..) (State.within_passTo ..))) (.refl _)) (by decide)
  · exact .mono (.refl _) (by decide)

theorem State.within_slice (s : State) (q c : ℕ) :
    s.Within (.acc :: .taken :: .time :: .clk :: .free :: .buf :: .fmc :: .flow :: .act :: .tel :: .policy :: .pip :: reportParts) (s.slice q c) := by
  unfold State.slice
  extract_lets +onlyGivenNames x
  split
  · exact .mono (.refl _) (by decide)
  · exact .mono (.cond (.refl _) (.after (State.within_pipFault ..) (State.within_passTo ..))) (by decide)

theorem State.within_nanoDone (s : State) (q c idx : ℕ) (ok : Bool) :
    s.Within (.acc :: .free :: .buf :: .fmc :: .flow :: .act :: .tel :: .policy :: .pip :: reportParts) (s.nanoDone q c idx ok) := by
  unfold State.nanoDone
  split
  · exact .mono (.refl _) (by decide)
  · split
    · exact .mono (.after (State.within_raiseOnce ..) (.after (State.within_ctr ..) (State.within_upCtx ..))) (by decide)
    · extract_lets +onlyGivenNames s4
      extract_lets +onlyGivenNames s5
      have hs5 : s.Within _ s5 := State.within_setPip ..
      clear_value s5
      exact .mono (.after (State.within_pipFault ..) (.after (State.within_report ..) hs5)) (by decide)

theorem State.within_writeError (s : State) (pc : ℕ) (w : WReq) :
    s.Within (.free :: .fmc :: reportParts) (s.writeError pc w) := by
  unfold State.writeError
  extract_lets +onlyGivenNames s0
  have hs0 : s.Within _ s0 := State.within_setWq ..
  clear_value s0
  extract_lets +onlyGivenNames s1
  have hs1 : s.Within _ s1 := .after (State.within_freeze ..) (.after (State.within_bump ..) hs0)
  clear_value s1
  extract_lets +onlyGivenNames s2
  have hs2 : s.Within (.free :: .fmc :: reportParts) s2 := .mono (.cond hs1 (.after (State.within_readReport ..) hs1)) (by decide)
  clear_value s2
  extract_lets +onlyGivenNames repeated
  have hrepeated : s.Within _ repeated := .after (State.within_setWq ..) hs2
  clear_value repeated
  exact .mono (.cond (.cond (.after (State.within_lineLost ..) (.after (State.within_writeFailed ..) hs2)) hrepeated) (.getD (fun _ he => (.after (State.within_refuseCopy he) hs2)) hrepeated)) (by decide)

theorem State.within_dramIssue (s : State) (pc : ℕ) (aged err : Bool) :
    s.Within (.acc :: .free :: .fmc :: reportParts) (s.dramIssue pc aged err) := by
  unfold State.dramIssue
  split
  · exact .mono (.refl _) (by decide)
  · extract_lets +onlyGivenNames m s2
    have hs2 : s.Within _ s2 := State.within_setMode ..
    clear_value s2
    split
    · split
      · exact .mono (.cond (.after (State.within_writeError ..) hs2) (.after (State.within_drainWrite ..) hs2)) (by decide)
      · exact .mono hs2 (by decide)
    · extract_lets +onlyGivenNames s10
      have hs10 : s.Within _ s10 := .after (State.within_bgThrottle ..) hs2
      clear_value s10
      split
      · exact .mono (.after (State.within_fly ..) hs10) (by decide)
      · exact .mono hs10 (by decide)

theorem State.within_writeAccept (s : State) (pc : ℕ) :
    s.Within (.fmc :: reportParts) (s.writeAccept pc) := by
  unfold State.writeAccept
  split
  · exact .mono (.refl _) (by decide)
  · exact .mono (.cond (.refl _) (State.within_acceptLine ..)) (by decide)

theorem State.within_flushTbuf (s : State) (pc : ℕ) :
    s.Within (.acc :: .fmc :: reportParts) (s.flushTbuf pc) := by
  unfold State.flushTbuf
  extract_lets +onlyGivenNames st
  split
  · exact .mono (.each (fun _ _ => (.getD (fun _ he => (.after (State.within_accept he) (.cond (State.within_makeRoom ..) (.refl _)))) (.refl _))) (State.within_setTbuf ..)) (by decide)

theorem State.within_retrained (s : State) (pc : ℕ) :
    s.Within (.acc :: .fmc :: reportParts) (s.retrained pc) := by
  unfold State.retrained
  exact .mono (.cond (.after (State.within_flushTbuf ..) (State.within_setPcState ..)) (.refl _)) (by decide)

theorem State.within_retrainEnd (s : State) (st c : ℕ) (ok : Bool) :
    s.Within (.acc :: .free :: .fmc :: reportParts) (s.retrainEnd st c ok) := by
  unfold State.retrainEnd
  extract_lets +onlyGivenNames pcs s0
  have hs0 : s.Within (.acc :: .free :: .fmc :: reportParts) s0 := by
    unfold s0
    refine .foldl (fun x1 b2 => ?_) (.mono (.refl _) (by decide))
    exact .mono (State.within_retrained ..) (by decide)
  clear_value s0
  exact .mono (.cond hs0 (.each (fun _ _ => (State.within_freeze ..)) (.after (State.within_raise ..) hs0))) (by decide)

theorem State.within_releaseDone (s : State) (pc : ℕ) :
    s.Within (.acc :: .free :: .fmc :: .tel :: reportParts) (s.releaseDone pc) := by
  unfold State.releaseDone
  split
  · extract_lets +onlyGivenNames s1
    extract_lets +onlyGivenNames s2
    have hs2 : s.Within _ s2 := .after (State.within_retrained ..) (State.within_setFmc rfl)
    exact .mono (.cond hs2 (.cond (.after (State.within_startRebuild ..) hs2) (.after (State.within_setPcState ..) hs2))) (by decide)
  · exact .mono (.refl _) (by decide)

theorem State.within_repair (s : State) (st : ℕ) (es : List ReadEnd) :
    s.Within (.acc :: .free :: .fmc :: reportParts) (s.repair st es) := by
  unfold State.repair
  split
  · exact .mono (.refl _) (by decide)
  · refine .mono (State.within_bgRun (F := (.acc :: .free :: .fmc :: reportParts)) (hf := fun x6 => ?_) ..) (by decide)
    extract_lets +onlyGivenNames l
    split
    · rename_i a7 t8 h9
      have ht8 : x6.Within _ t8 := .ofSnd (State.within_readCopy ..) h9
      exact .mono (.after (State.within_readReport ..) ht8) (by decide)
    · rename_i a10 a11 t12 h13
      have ht12 : x6.Within _ t12 := .ofSnd (State.within_readCopy ..) h13
      extract_lets +onlyGivenNames s14
      have hs14 : x6.Within _ s14 := .after (State.within_condWrite ..) ht12
      clear_value s14
      exact .mono (.after (State.within_ctr ..) (.after (State.within_setDegraded ..) hs14)) (by decide)

theorem State.within_rebuildCopy (s : State) (pc la : ℕ) (es : List ReadEnd) :
    s.Within (.acc :: .free :: .fmc :: reportParts) (s.rebuildCopy pc la es) := by
  unfold State.rebuildCopy
  extract_lets +onlyGivenNames l
  split
  · exact .mono (State.within_lineLost ..) (by decide)
  · split
    · rename_i a2 t3 h4
      have ht3 : s.Within _ t3 := .ofSnd (State.within_readCopy ..) h4
      exact .mono (.after (State.within_readReport ..) ht3) (by decide)
    · rename_i a5 a6 t7 h8
      have ht7 : s.Within _ t7 := .ofSnd (State.within_readCopy ..) h8
      exact .mono (.after (State.within_condWrite ..) ht7) (by decide)

theorem State.within_rebuildLine (s : State) (st : ℕ) (es : List ReadEnd) :
    s.Within (.acc :: .free :: .fmc :: reportParts) (s.rebuildLine st es) := by
  unfold State.rebuildLine
  split
  · exact .mono (.refl _) (by decide)
  · extract_lets +onlyGivenNames pos la
    split
    · exact .mono (.refl _) (by decide)
    · refine .mono (State.within_bgRun (F := (.acc :: .free :: .fmc :: reportParts)) (hf := fun x8 => ?_) ..) (by decide)
      extract_lets +onlyGivenNames s9
      have hs9 : x8.Within _ s9 := State.within_rebuildCopy ..
      clear_value s9
      extract_lets +onlyGivenNames s10
      extract_lets +onlyGivenNames s11
      have hs11 : x8.Within _ s11 := .after (State.within_setFmc rfl) hs9
      clear_value s11
      exact .mono (.after (State.within_put ..) hs11) (by decide)

theorem State.within_beginTx (s : State) (n q : ℕ) (c : Copy) (r : Drr) :
    s.Within (.wcount :: .modCnt :: .buf :: .tel :: ctrParts) (s.beginTx n q c r) := by
  unfold State.beginTx
  extract_lets +onlyGivenNames s0
  have hs0 : s.Within _ s0 := .after (State.within_newHead ..) (State.within_changeQueue ..)
  clear_value s0
  extract_lets +onlyGivenNames empty r1 r2 s3
  have hs3 : s.Within _ s3 := .after (State.within_chargeShapers ..) (.after (State.within_setDrr ..) hs0)
  clear_value s3
  extract_lets +onlyGivenNames s4
  have hs4 : s.Within _ s4 := .after (State.within_traceDone ..) hs3
  clear_value s4
  extract_lets +onlyGivenNames sc
  exact .mono (.after (State.within_setBuf ..) hs4) (by decide)

theorem State.within_txStart (s : State) (n : ℕ) :
    s.Within (.wcount :: .modCnt :: .time :: .buf :: .tel :: ctrParts) (s.txStart n) := by
  unfold State.txStart
  extract_lets +onlyGivenNames s0
  have hs0 : s.Within _ s0 := .after (State.within_clearHeads ..) (State.within_refillDue ..)
  clear_value s0
  split
  · exact .mono hs0 (by decide)
  · split
    · exact .mono hs0 (by decide)
    · split
      · exact .mono hs0 (by decide)
      · exact .mono (.after (State.within_beginTx ..) hs0) (by decide)

theorem State.within_startHalves (s : State) (r key : ℕ) (es : List ReadEnd) :
    s.Within (.acc :: .free :: .fmc :: reportParts) ((s.startHalves r key es).2.2) := by
  unfold State.startHalves
  split
  · rename_i a0 a1 a2 t3 h4
    have ht3 : s.Within (.acc :: .free :: .fmc :: reportParts) t3 := by
      refine .ofSnd2 ?_ h4
      split
      · exact .mono (.refl _) (by decide)
      · extract_lets +onlyGivenNames x
        have hx : s.Within _ x.2 := State.within_readNow ..
        clear_value x
        exact .mono hx (by decide)
    split
    · rename_i a10 a11 t12 h13
      have ht12 : s.Within _ t12 := .ofSnd (.after (State.within_readNow ..) ht3) h13
      exact .mono ht12 (by decide)

theorem State.within_startRead (s : State) (es : List ReadEnd) :
    s.Within (.acc :: .free :: .fmc :: .tel :: reportParts) (s.startRead es) := by
  unfold State.startRead
  split
  · exact .mono (.refl _) (by decide)
  · refine .mono (State.within_bgRun (F := (.acc :: .free :: .fmc :: .tel :: reportParts)) (hf := fun x8 => ?_) ..) (by decide)
    extract_lets +onlyGivenNames s9
    have hs9 : x8.Within _ s9 := State.within_setStartQ ..
    clear_value s9
    split
    · rename_i a10 a11 a12 t13 h14
      have ht13 : x8.Within _ t13 := .ofSnd2 (.after (State.within_startHalves ..) hs9) h14
      split
      · extract_lets +onlyGivenNames f
        exact .mono (.after (State.within_ctr ..) (.after (State.within_ipfixAdd ..) ht13)) (by decide)
      · exact .mono (.after (State.within_ctr ..) ht13) (by decide)
    · rename_i a17 a18 a19 t20 h21 h22
      have ht20 : x8.Within _ t20 := .ofSnd2 (.after (State.within_startHalves ..) hs9) h22
      exact .mono (.after (State.within_ctr ..) ht20) (by decide)

theorem State.within_snapBy (s : State) (m : ℕ) (busy : Bool) :
    s.Within (.bank :: .acc :: .time :: .sys :: .featDone :: .free :: .buf :: .fwd :: .fmc :: .flow :: .act :: .tel :: .policy :: .pip :: .csc :: .qnc :: .cph :: .fw :: .jobs :: reportParts) (s.snapBy m busy) := by
  unfold State.snapBy
  extract_lets +onlyGivenNames a
  exact .mono (.cond (.after (State.within_snapAsked ..) (State.within_fabCount ..)) (State.within_fabricWrite ..)) (by decide)

theorem State.within_sweepVisit (s : State) (es : List ReadEnd) :
    s.Within (.acc :: .free :: .fmc :: .flow :: .qnc :: reportParts) (s.sweepVisit es) := by
  unfold State.sweepVisit
  split
  · exact .mono (.refl _) (by decide)
  · refine .mono (State.within_bgRun (F := (.acc :: .free :: .fmc :: .flow :: .qnc :: reportParts)) (hf := fun x2 => ?_) ..) (by decide)
    extract_lets +onlyGivenNames r s3
    have hs3 : x2.Within _ s3 := State.within_sweepNext ..
    clear_value s3
    split
    · rename_i a4 t5 h6
      have ht5 : x2.Within _ t5 := .ofSnd (.after (State.within_readNow ..) hs3) h6
      extract_lets +onlyGivenNames h
      exact .mono (.after (State.within_loseHot ..) ht5) (by decide)
    · rename_i a7 a8 t9 h10
      have ht9 : x2.Within _ t9 := .ofSnd (.after (State.within_readNow ..) hs3) h10
      exact .mono (.cond ht9 (.cond (.after (State.within_ctr ..) ht9) (.after (State.within_upQnc ..) ht9))) (by decide)

theorem State.within_accountLost (s : State) (a : ℕ) :
    s.Within (.acc :: .fmc :: .qnc :: reportParts) (s.accountLost a) := by
  unfold State.accountLost
  extract_lets +onlyGivenNames s0
  have hs0 : s.Within _ s0 := State.within_writeNow ..
  clear_value s0
  extract_lets +onlyGivenNames s1
  have hs1 : s.Within _ s1 := .after (State.within_upQnc ..) (.after (State.within_ctr ..) hs0)
  clear_value s1
  exact .mono (.after (State.within_report ..) (.after (State.within_raise ..) (.after (State.within_touch' ..) hs1))) (by decide)

theorem State.within_readAccount (s : State) (a : ℕ) (es : List ReadEnd) :
    s.Within (.acc :: .free :: .fmc :: .qnc :: reportParts) ((s.readAccount a es).2) := by
  unfold State.readAccount
  split
  · rename_i a0 a1 t2 h3
    have ht2 : s.Within _ t2 := .ofSnd (State.within_readNow ..) h3
    exact .sndMk (.mono ht2 (by decide))
  · rename_i a4 t5 h6
    have ht5 : s.Within _ t5 := .ofSnd (State.within_readNow ..) h6
    exact .sndMk (.mono (.after (State.within_accountLost ..) ht5) (by decide))

theorem State.within_accEvict (s : State) (es : List ReadEnd) :
    s.Within (.acc :: .free :: .fmc :: .qnc :: reportParts) (s.accEvict es) := by
  unfold State.accEvict
  split
  · exact .mono (.refl _) (by decide)
  · extract_lets +onlyGivenNames r
    have hr : s.Within _ r.2 := .after (State.within_readAccount ..) (State.within_upQnc ..)
    clear_value r
    extract_lets +onlyGivenNames v
    exact .mono (.after (State.within_writeNow ..) hr) (by decide)

theorem State.within_accAdd' (s : State) (a pkts bytes ended : ℕ) (loss : Bool) (es : List ReadEnd) :
    s.Within (.acc :: .free :: .fmc :: .qnc :: reportParts) (s.accAdd' a pkts bytes ended loss es) := by
  unfold State.accAdd'
  extract_lets +onlyGivenNames par mine s0
  have hs0 : s.Within _ s0 := State.within_touch' ..
  clear_value s0
  split
  · extract_lets +onlyGivenNames y
    exact .mono (.after (State.within_upQnc ..) hs0) (by decide)
  · extract_lets +onlyGivenNames s6
    have hs6 : s.Within _ s6 := .cond (.after (State.within_accEvict ..) hs0) hs0
    clear_value s6
    extract_lets +onlyGivenNames y
    exact .mono (.after (State.within_upQnc ..) hs6) (by decide)

theorem State.within_roll (s : State) (hot cold : Line) (ended : ℕ) (es : List ReadEnd) :
    s.Within (.acc :: .free :: .fmc :: .qnc :: reportParts) (s.roll hot cold ended es) := by
  unfold State.roll
  extract_lets +onlyGivenNames d
  exact State.within_accAdd' ..

theorem State.within_declareLost (s : State) (acct : Option ℕ) (es : List ReadEnd) :
    s.Within (.acc :: .free :: .fmc :: .qnc :: reportParts) (s.declareLost acct es) := by
  unfold State.declareLost
  extract_lets +onlyGivenNames s0
  have hs0 : s.Within _ s0 := .after (State.within_upQnc ..) (State.within_ctr ..)
  clear_value s0
  extract_lets +onlyGivenNames s1
  have hs1 : s.Within _ s1 := .after (State.within_raise ..) hs0
  clear_value s1
  split
  · exact .mono (.after (State.within_accAdd' ..) hs1) (by decide)
  · exact .mono hs1 (by decide)

theorem State.within_sweepCold (s : State) (es : List ReadEnd) :
    s.Within (.acc :: .free :: .fmc :: .qnc :: reportParts) (s.sweepCold es) := by
  unfold State.sweepCold
  split
  · split
    · exact .mono (.refl _) (by decide)
    · refine .mono (State.within_bgRun (F := (.acc :: .free :: .fmc :: .qnc :: reportParts)) (hf := fun x5 => ?_) ..) (by decide)
      extract_lets +onlyGivenNames c
      have hc : x5.Within _ c.2 := State.within_readNow ..
      clear_value c
      extract_lets +onlyGivenNames s6
      have hs6 : x5.Within (.acc :: .free :: .fmc :: .qnc :: reportParts) s6 := by
        unfold s6
        split
        · exact .mono (.after (State.within_ctr ..) (.after (State.within_roll ..) hc)) (by decide)
        · exact .mono (.after (State.within_declareLost ..) hc) (by decide)
      clear_value s6
      extract_lets +onlyGivenNames v v12
      exact .mono (.after (State.within_upQnc ..) (.after (State.within_issueWrite ..) hs6)) (by decide)
  · exact .mono (.refl _) (by decide)

theorem State.within_sealClear (s : State) (r pkts : ℕ) :
    s.Within (.acc :: .free :: .fmc :: .flow :: reportParts) (s.sealClear r pkts) := by
  unfold State.sealClear
  exact .mono (.cond (State.within_updateHot ..) (.refl _)) (by decide)

theorem State.within_sweepAccepted (s : State) :
    s.Within (.acc :: .free :: .fmc :: .flow :: .qnc :: reportParts) s.sweepAccepted := by
  unfold State.sweepAccepted
  split
  · exact .mono (.cond (.refl _) (.after (State.within_sealClear ..) (State.within_upQnc ..))) (by decide)
  · exact .mono (.refl _) (by decide)

theorem State.within_finalRollOne (s : State) (r : ℕ) (hot : Option Line) (es : List ReadEnd) :
    s.Within (.acc :: .free :: .fmc :: .qnc :: reportParts) (s.finalRollOne r hot es) := by
  unfold State.finalRollOne
  split
  · exact .mono (.refl _) (by decide)
  · split
    · exact .mono (.refl _) (by decide)
    · split
      · rename_i a5 a6 t7 h8
        have ht7 : s.Within _ t7 := .ofSnd (State.within_readNow ..) h8
        exact .mono (.after (State.within_ctr ..) (.after (State.within_roll ..) ht7)) (by decide)
      · rename_i a9 t10 h11
        have ht10 : s.Within _ t10 := .ofSnd (State.within_readNow ..) h11
        exact .mono (.after (State.within_declareLost ..) ht10) (by decide)

theorem State.within_finalRoll (s : State) (es : List ReadEnd) :
    s.Within (.acc :: .free :: .fmc :: .flow :: .act :: .policy :: .pip :: .qnc :: reportParts) (s.finalRoll es) := by
  unfold State.finalRoll
  split
  · exact .mono (.refl _) (by decide)
  · refine .mono (State.within_bgRun (F := (.acc :: .free :: .fmc :: .flow :: .act :: .policy :: .pip :: .qnc :: reportParts)) (hf := fun x7 => ?_) ..) (by decide)
    extract_lets +onlyGivenNames s8
    have hs8 : x7.Within _ s8 := State.within_finalRollOne ..
    clear_value s8
    extract_lets +onlyGivenNames s9
    have hs9 : x7.Within (.acc :: .free :: .fmc :: .flow :: .act :: .policy :: .pip :: .qnc :: reportParts) s9 := by
      unfold s9
      split
      · exact .mono (.after (State.within_finalRollOne ..) hs8) (by decide)
      · exact .mono hs8 (by decide)
    clear_value s9
    exact .mono (.after (State.within_removalDone ..) hs9) (by decide)

theorem State.within_lostRead (s : State) (es : List ReadEnd) :
    s.Within (.acc :: .free :: .fmc :: .flow :: .policy :: .pip :: .qnc :: reportParts) (s.lostRead es) := by
  unfold State.lostRead
  split
  · exact .mono (.refl _) (by decide)
  · refine .mono (State.within_bgRun (F := (.acc :: .free :: .fmc :: .flow :: .policy :: .pip :: .qnc :: reportParts)) (hf := fun x6 => ?_) ..) (by decide)
    extract_lets +onlyGivenNames s7
    extract_lets +onlyGivenNames s8
    have hs8 : x6.Within _ s8 := State.within_setFlow ..
    clear_value s8
    extract_lets +onlyGivenNames a
    have ha : x6.Within _ a.2 := .after (State.within_readNow ..) hs8
    clear_value a
    extract_lets +onlyGivenNames b
    have hb : x6.Within _ b.2 := .after (State.within_readNow ..) ha
    clear_value b
    extract_lets +onlyGivenNames s9
    have hs9 : x6.Within (.acc :: .free :: .fmc :: .flow :: .policy :: .pip :: .qnc :: reportParts) s9 := by
      unfold s9
      split
      · exact .mono hb (by decide)
      · split
        · exact .mono (.cond (.after (State.within_ctr ..) (.after (State.within_roll ..) hb)) hb) (by decide)
        · exact .mono (.after (State.within_declareLost ..) hb) (by decide)
        · exact .mono (.after (State.within_declareLost ..) hb) (by decide)
    clear_value s9
    exact .mono (.after (State.within_freeRecord ..) hs9) (by decide)

theorem State.within_aliveDue (s : State) :
    s.Within (.acc :: .taken :: .time :: .clk :: .nvm :: ctrParts) s.aliveDue := by
  unfold State.aliveDue
  exact .mono (.after (State.within_alivePersist ..) (State.within_reach ..)) (by decide)

theorem State.within_strangerAccess (s : State) (m a : ℕ) (write : Bool) :
    s.Within (.bank :: .acc :: .ctrSlot :: .timeSlot :: .time :: .sys :: .featDone :: .free :: .buf :: .fwd :: .fmc :: .flow :: .act :: .tel :: .policy :: .pip :: .csc :: .qnc :: .cph :: .fw :: .jobs :: reportParts) (s.strangerAccess m a write) := by
  unfold State.strangerAccess
  split
  · exact .mono (.refl _) (by decide)
  · exact .mono (.cond (.cond (State.within_fabricWrite ..) (State.within_readOut ..)) (.refl _)) (by decide)

theorem State.within_jobAbortBy (s : State) (m u done : ℕ) (input : List Byte) :
    s.Within (.bank :: .acc :: .time :: .sys :: .featDone :: .free :: .buf :: .fwd :: .fmc :: .flow :: .act :: .tel :: .policy :: .pip :: .csc :: .qnc :: .cph :: .fw :: .jobs :: reportParts) (s.jobAbortBy m u done input) := by
  unfold State.jobAbortBy
  extract_lets +onlyGivenNames a
  exact .mono (.cond (State.within_jobAbort ..) (State.within_fabricWrite ..)) (by decide)

theorem State.within_qncSegment (s : State) :
    s.Within (.free :: .qnc :: .cph :: ctrParts) s.qncSegment := by
  unfold State.qncSegment
  split
  · exact .mono (State.within_freeEngines ..) (by decide)
  · extract_lets +onlyGivenNames s5
    extract_lets +onlyGivenNames s6
    have hs6 : s.Within _ s6 := State.within_setQnc ..
    clear_value s6
    extract_lets +onlyGivenNames s7
    have hs7 : s.Within _ s7 := .cond (.after (State.within_countBlocks (hf := (fun _ => (State.within_ctr ..))) ..) hs6) hs6
    clear_value s7
    exact .mono (.after (State.within_freeEngines ..) hs7) (by decide)

theorem State.within_jobTag (s : State) (u : ℕ) (j : JobIn) (g : CMsg) (job : CJob) :
    s.Within (.free :: .cph :: ctrParts) (s.jobTag u j g job) := by
  unfold State.jobTag
  extract_lets +onlyGivenNames s0
  have hs0 : s.Within _ s0 := State.within_msgEnd ..
  clear_value s0
  extract_lets +onlyGivenNames ok
  split
  · exact .mono (.after (State.within_jobEnd ..) hs0) (by decide)
  · extract_lets +onlyGivenNames r
    exact .mono (.cond (.after (State.within_jobEnd ..) (.after (State.within_jobOut ..) hs0)) (.cond (.after (State.within_jobEnd ..) (.after (State.within_jobOut ..) hs0)) (.after (State.within_authFail ..) hs0))) (by decide)
  · extract_lets +onlyGivenNames s8
    have hs8 : s.Within _ s8 := .cond (.after (State.within_countPage ..) hs0) hs0
    clear_value s8
    exact .mono (.cond (.after (State.within_jobEnd ..) (.after (State.within_putTag ..) hs8)) (.cond (.after (State.within_jobEnd ..) hs8) (.after (State.within_authFail ..) hs8))) (by decide)

theorem State.within_userSegment (s : State) (u : ℕ) (input : List Byte) (dmaOk : Bool) :
    s.Within (.free :: .cph :: ctrParts) (s.userSegment u input dmaOk) := by
  unfold State.userSegment
  extract_lets +onlyGivenNames j
  split
  · exact .mono (.refl _) (by decide)
  · split
    · exact .mono (.after (State.within_jobEnd ..) (State.within_msgEnd ..)) (by decide)
    · extract_lets +onlyGivenNames s4
      have hs4 : s.Within _ s4 := State.within_runSegment ..
      clear_value s4
      split
      · exact .mono (.cond (.after (State.within_freeEngines ..) hs4) (.cond (.after (State.within_jobTag ..) hs4) (.after (State.within_jobEnd ..) hs4))) (by decide)
      · exact .mono hs4 (by decide)

theorem State.within_segmentDone (s : State) (e : ℕ) (input : List Byte) (dmaOk : Bool) :
    s.Within (.free :: .qnc :: .cph :: ctrParts) (s.segmentDone e input dmaOk) := by
  unfold State.segmentDone
  split
  · exact .mono (.refl _) (by decide)
  · exact .mono (.cond (State.within_qncSegment ..) (State.within_userSegment ..)) (by decide)

theorem State.within_dataRx (s : State) (k : ℕ) :
    s.Within (.wcount :: .modCnt :: .buf :: .tel :: .csc :: ctrParts) (s.dataRx k) := by
  unfold State.dataRx
  split
  · exact .mono (.refl _) (by decide)
  · rename_i a2 a3 a4 t5 h6
    have ht5 : s.Within _ t5 := State.within_takeRx h6
    extract_lets +onlyGivenNames b d n b3
    split
    · rename_i a7 a8 t9 h10
      have ht9 : s.Within _ t9 := .ofSnd (.after (State.within_newStored ..) ht5) h10
      extract_lets +onlyGivenNames c s11
      have hs11 : s.Within _ s11 := .after (State.within_admitPort ..) ht9
      clear_value s11
      exact .mono (.after (State.within_placed ..) hs11) (by decide)

theorem State.within_prepareRx (s : State) (k : ℕ) :
    s.Within (.csc :: ctrParts) (s.prepareRx k) := by
  unfold State.prepareRx
  split
  · exact .mono (.refl _) (by decide)
  · rename_i a2 a3 a4 t5 h6
    have ht5 : s.Within _ t5 := State.within_takeRx h6
    split
    · exact .mono ht5 (by decide)
    · split
      · exact .mono ht5 (by decide)
      · rename_i a11 t12 h13
        have ht12 : s.Within _ t12 := .after (State.within_firstCopy h13) ht5
        extract_lets +onlyGivenNames e s14
        have hs14 : s.Within _ s14 := .after (State.within_openTarget ..) ht12
        clear_value s14
        split
        · exact .mono (.after (State.within_answerMaster ..) (.after (State.within_refuse ..) hs14)) (by decide)
        · extract_lets +onlyGivenNames s20
          have hs20 : s.Within _ s20 := .after (State.within_upCsc ..) (.after (State.within_agree ..) hs14)
          clear_value s20
          exact .mono (.after (State.within_answerMaster ..) hs20) (by decide)

theorem State.within_decideRx (s : State) (k : ℕ) :
    s.Within (.csc :: ctrParts) (s.decideRx k) := by
  unfold State.decideRx
  split
  · exact .mono (.refl _) (by decide)
  · rename_i a2 a3 a4 t5 h6
    have ht5 : s.Within _ t5 := State.within_takeRx h6
    split
    · exact .mono ht5 (by decide)
    · split
      · exact .mono ht5 (by decide)
      · rename_i a11 t12 h13
        have ht12 : s.Within _ t12 := .after (State.within_firstCopy h13) ht5
        exact .mono (.after (State.within_upCsc ..) ht12) (by decide)

theorem State.within_rmtServe (s : State) (k : ℕ) (f : List Byte) :
    s.Within (.bank :: .acc :: .ctrSlot :: .timeSlot :: .time :: .sys :: .featDone :: .free :: .buf :: .fwd :: .fmc :: .flow :: .act :: .tel :: .policy :: .pip :: .csc :: .qnc :: .cph :: .fw :: .jobs :: reportParts) (s.rmtServe k f) := by
  unfold State.rmtServe
  extract_lets +onlyGivenNames p m a tag
  split
  · extract_lets +onlyGivenNames r
    have hr : s.Within _ r.2 := State.within_fabricRead ..
    clear_value r
    exact .mono (.after (State.within_rmtAnswer ..) hr) (by decide)
  · split
    · exact .mono (.after (State.within_rmtAnswer ..) (State.within_fabricWrite ..)) (by decide)
    · exact .mono (.after (State.within_rmtAnswer ..) (State.within_bump ..)) (by decide)

theorem State.within_rmtReqRx (s : State) (k : ℕ) :
    s.Within (.bank :: .acc :: .ctrSlot :: .timeSlot :: .time :: .sys :: .featDone :: .free :: .buf :: .fwd :: .fmc :: .flow :: .act :: .tel :: .policy :: .pip :: .csc :: .qnc :: .cph :: .fw :: .jobs :: reportParts) (s.rmtReqRx k) := by
  unfold State.rmtReqRx
  split
  · exact .mono (.refl _) (by decide)
  · rename_i a2 a3 a4 t5 h6
    have ht5 : s.Within _ t5 := State.within_takeRx h6
    exact .mono (.cond (.after (State.within_rmtRelay ..) ht5) (.after (State.within_rmtServe ..) ht5)) (by decide)

theorem State.within_cacheLost (s : State) (i idx : ℕ) (es : List ReadEnd) :
    s.Within (.acc :: .free :: .fmc :: .flow :: .qnc :: reportParts) (s.cacheLost i idx es) := by
  unfold State.cacheLost
  extract_lets +onlyGivenNames l
  split
  · exact .mono (.refl _) (by decide)
  · extract_lets +onlyGivenNames r s2
    have hs2 : s.Within _ s2 := .after (State.within_scrubLost ..) (State.within_setCache ..)
    clear_value s2
    split
    · exact .mono hs2 (by decide)
    · split
      · rename_i a5 a6 t7 h8
        have ht7 : s.Within _ t7 := .ofSnd (.after (State.within_readNow ..) hs2) h8
        exact .mono (.after (State.within_declareLost ..) ht7) (by decide)
      · rename_i a9 t10 h11
        have ht10 : s.Within _ t10 := .ofSnd (.after (State.within_readNow ..) hs2) h11
        exact .mono (.after (State.within_declareLost ..) ht10) (by decide)

theorem State.within_quinceLost (s : State) (k idx : ℕ) (es : List ReadEnd) :
    s.Within (.acc :: .free :: .fmc :: .qnc :: reportParts) (s.quinceLost k idx es) := by
  have hlast (a n : ℕ) (t : State) (l : Loc) (v : Line) (ht : s.Within (.acc :: .free :: .fmc :: .qnc :: reportParts) t) :
      s.Within (.acc :: .free :: .fmc :: .qnc :: reportParts) ((t.writeNow l v 4 0x30).scrubLost pgQnc n a) :=
    .mono (.after (State.within_scrubLost ..) (.after (State.within_writeNow ..) ht)) (by decide)
  have hread (t : State) (a : ℕ) (ht : s.Within (.qnc :: ctrParts) t) :
      s.Within (.acc :: .free :: .fmc :: .qnc :: reportParts) (t.readAccount a es).2 :=
    .mono (.after (State.within_readAccount ..) ht) (by decide)
  unfold State.quinceLost
  split
  · exact .mono (.refl _) (by decide)
  · exact hlast _ _ _ _ _ (hread _ _ (.mono (.after (State.within_raise ..) (.after (State.within_ctr ..) (State.within_upQnc ..))) (by decide)))

theorem State.within_sramLost (s : State) (w : Sram) (idx : ℕ) (es : List ReadEnd) :
    s.Within (.acc :: .free :: .buf :: .fwd :: .fmc :: .flow :: .act :: .qnc :: .cph :: .fw :: reportParts) (s.sramLost w idx es) := by
  unfold State.sramLost
  split
  · exact .mono (State.within_cellBad ..) (by decide)
  · exact .mono (State.within_stagingLost ..) (by decide)
  · exact .mono (State.within_cacheLost ..) (by decide)
  · exact .mono (State.within_scrubLost ..) (by decide)
  · exact .mono (.after (State.within_scrubLost ..) (.after (State.within_setProfOn ..) (State.within_setProfOn ..))) (by decide)
  · exact .mono (.after (State.within_scrubLost ..) (.after (State.within_actGone ..) (State.within_setFwd rfl))) (by decide)
  · exact .mono (.after (State.within_scrubLost ..) (State.within_fwdGone ..)) (by decide)
  · exact .mono (.after (State.within_scrubLost ..) (State.within_fwdGone ..)) (by decide)
  · exact .mono (.after (State.within_scrubLost ..) (State.within_actGone ..)) (by decide)
  · exact .mono (.after (State.within_scrubLost ..) (State.within_actGone ..)) (by decide)
  · exact .mono (State.within_quarantine ..) (by decide)
  · exact .mono (.after (State.within_scrubLost ..) (.upIo (Io.within_wr64 ..))) (by decide)
  · exact .mono (State.within_quinceLost ..) (by decide)
  · exact .mono (State.within_nanoRefetched ..) (by decide)
  · exact .mono (State.within_nanoRefetched ..) (by decide)
  · exact .mono (State.within_mcRestart ..) (by decide)
  · exact .mono (.after (State.within_report ..) (State.within_upNvm ..)) (by decide)

theorem State.within_sramScrub (s : State) (w : Sram) (idx : ℕ) (e : ScrubEnd) (inUse : Bool) (es : List ReadEnd) :
    s.Within (.acc :: .free :: .buf :: .fwd :: .fmc :: .flow :: .act :: .qnc :: .cph :: .fw :: reportParts) (s.sramScrub w idx e inUse es) := by
  unfold State.sramScrub
  split
  · exact .mono (.refl _) (by decide)
  · split
    · exact .mono (.refl _) (by decide)
    · exact .mono (State.within_scrubFixed ..) (by decide)
    · exact .mono (State.within_scrubFixed ..) (by decide)
    · exact State.within_sramLost ..

theorem State.within_i2c (s : State) (a : ℕ) (data : Option ℕ) :
    s.Within (.bank :: .acc :: .ctrSlot :: .timeSlot :: .time :: .sys :: .featDone :: .free :: .buf :: .fwd :: .fmc :: .flow :: .act :: .tel :: .policy :: .pip :: .csc :: .qnc :: .cph :: .fw :: .jobs :: reportParts) (s.i2c a data) := by
  unfold State.i2c
  split
  · exact .mono (.refl _) (by decide)
  · split
    · extract_lets +onlyGivenNames s3
      have hs3 : s.Within _ s3 := State.within_badSize ..
      clear_value s3
      exact .mono (.cond hs3 (.after (State.within_emit ..) hs3)) (by decide)
    · split
      · exact .mono (State.within_fabricWrite ..) (by decide)
      · exact .mono (State.within_readOut ..) (by decide)

end Sys2Proof.Machine
end

section
/-!
SUPPORT. The footprints of the operations that hand a state on inside a result, and of a walk that ends early.
-/
namespace Sys2Proof.Machine
namespace State

variable (s : State)

theorem within_rebuildTouched (par line : Nat) : s.Within (.acc :: .free :: .fmc :: .qnc :: reportParts) (s.rebuildTouched par line).2 := by
  unfold State.rebuildTouched
  refine .foldlSnd (p := ([], s)) (fun x i => ?_) (.mono (.refl _) (by decide))
  extract_lets +onlyGivenNames a
  split
  rename_i v t h
  have ht : x.2.Within _ t := .ofSnd (within_readAccount ..) h
  exact .sndMk (.mono (.after (within_upQnc ..) ht) (by decide))

theorem within_timeMember (k t mid : Nat) (f : List Byte) :
    s.Within (.bank :: .time :: .free :: .buf :: .csc :: .qnc :: ctrParts) (s.timeMember k t mid f) := by
  have ht : s.Within (.bank :: .time :: .csc :: ctrParts) (match s.firstCopy k f with
      | none => s
      | some s' => s'.timeFirst mid (leAt (sfBody f) 14 1) (leAt (sfBody f) 16 4)) := by
    split
    · exact .mono (.refl _) (by decide)
    · rename_i u hu
      exact .mono (.after (within_timeFirst ..) (within_firstCopy hu)) (by decide)
  unfold State.timeMember
  extract_lets +onlyGivenNames p
  exact .mono (.cond ht (.after (within_directTime ..) ht)) (by decide)

theorem within_commitAccepted (q c : Nat) :
    s.Within (.acc :: .time :: .free :: .buf :: .fmc :: .flow :: .act :: .tel :: .policy :: .pip :: reportParts) (s.commitAccepted q c) := by
  unfold State.commitAccepted
  extract_lets +onlyGivenNames x
  split
  · exact .mono (.refl _) (by decide)
  · split
    · exact .mono (.after (within_pipFault ..) (within_setFmc rfl)) (by decide)
    · extract_lets +onlyGivenNames t u
      have hu : s.Within _ u := .after (within_releaseX ..) (.after (within_releaseW ..) (within_upCtx ..))
      clear_value u
      split
      · exact .mono (.after (within_endRoutine ..) hu) (by decide)
      · split
        · exact .mono (.after (within_abortRoutine ..) hu) (by decide)
        · exact .mono (.cond (.after (within_pipStat ..) (.after (within_atCkpt ..) hu)) hu) (by decide)

set_option maxRecDepth 10000 in
/-- One slot of the walk. The slots' count, 4095, is a literal the unifier counts down, hence the depth. -/
theorem lbWalk_succ (c pool m from' n left : Nat) : s.lbWalk c pool m from' n (left + 1) =
    if s.slot pool ((from' + (4095 - left)) % 4096) ≠ m then s.lbWalk c pool m from' n left
    else if s.get pgE TEL_LB_CFG.STEP ≤ n then s
    else if s.get pgE TEL_LB_EPOCH_MAX.SLOTS ≤ s.inEpoch s.policy.lbCount then
      s.journal 5 c [pool, (from' + (4095 - left)) % 4096, m, 3]
    else if s.slotsOf pool m ≤ s.get pgE TEL_LB_CFG.KEEP then s.journal 5 c [pool, (from' + (4095 - left)) % 4096, m, 2]
    else
      match s.lbOther pool ((from' + (4095 - left)) % 4096) m with
      | none => s.journal 5 c [pool, (from' + (4095 - left)) % 4096, m, 0]
      | some k =>
        (({ s.setSlot pool ((from' + (4095 - left)) % 4096) k with
              policy := { s.policy with lbCount := (s.get pgEpc EPC_EPOCH_NUM.NUM, s.inEpoch s.policy.lbCount + 1) } } : State).journal 4 c
            [pool, (from' + (4095 - left)) % 4096, m, k, s.memOcc m]).lbWalk c pool m from' (n + 1) left := by
  delta State.lbWalk
  rfl

/-- The slots of a member walked, moved one by one until a bound is met. -/
theorem within_lbWalk (c pool m from' n left : Nat) :
    s.Within (.act :: .wcount :: .modCnt :: .policy :: ctrParts) (s.lbWalk c pool m from' n left) := by
  induction left generalizing s n with
  | zero => exact .mono (.refl _) (by decide)
  | succ left ih =>
    have hj (g : List Nat) : s.Within (.act :: .wcount :: .modCnt :: .policy :: ctrParts) (s.journal 5 c g) :=
      .mono (within_journal ..) (by decide)
    rw [lbWalk_succ]
    split
    · exact ih ..
    · split
      · exact .mono (.refl _) (by decide)
      · split
        · exact hj _
        · split
          · exact hj _
          · split
            · exact hj _
            · exact .mono (.after (ih ..) (.after (within_journal ..) (.after (within_setPolicy ..) (within_setSlot ..)))) (by decide)

variable {s}

theorem within_opWithdraw {q c sp : Nat} {t : State} (he : s.opWithdraw q c sp = .ok t) :
    s.Within (.acc :: .free :: .buf :: .fmc :: .flow :: .tel :: .policy :: .pip :: reportParts) t := by
  unfold State.opWithdraw at he
  extract_lets x at he
  split at he
  · exact absurd he (by simp)
  · split at he
    · obtain rfl := Except.ok.inj he
      exact .mono (.refl _) (by decide)
    · obtain rfl := Except.ok.inj he
      exact .mono (.after (within_upCtx ..) (within_withdrawHeld ..)) (by decide)

/-- What the memory part of a nano-word may change. -/
abbrev memParts : List Part :=
  .acc :: .free :: .buf :: .fwd :: .fmc :: .flow :: .act :: .tel :: .policy :: .pip :: .qnc :: reportParts

theorem within_memOp {q c arg : Nat} {n : Nano} {t : State} (he : s.memOp q c arg n = .ok t) : s.Within memParts t := by
  unfold State.memOp at he
  extract_lets x a src v at he
  split at he
  · obtain rfl := Except.ok.inj he
    exact .mono (.refl _) (by decide)
  · exact .mono (within_opLoad he) (by decide)
  · exact .mono (within_opStore he) (by decide)
  · exact .mono (within_opClaim he) (by decide)
  · exact .mono (within_opWithdraw he) (by decide)
  · exact .mono (within_opLock he) (by decide)
  · obtain rfl := Except.ok.inj he
    exact .mono (within_opUnlock ..) (by decide)
  · split at he
    · exact absurd he (by simp)
    · split at he
      · obtain rfl := Except.ok.inj he
        exact .mono (.refl _) (by decide)
      · exact .mono (within_stageOp he) (by decide)
  · split at he
    · exact .mono (within_stageOp he) (by decide)
    · exact absurd he (by simp)
  · split at he
    · obtain rfl := Except.ok.inj he
      exact .mono (within_upCtx ..) (by decide)
    · exact absurd he (by simp)
  · exact absurd he (by simp)

end State
end Sys2Proof.Machine
end

section
/-!
SUPPORT. The footprints of a microword's issue, a policy routine and the ledger's last reads.
-/
namespace Sys2Proof.Machine

theorem State.within_nanoRun (s : State) (q c : ℕ) (m : BitVec 24) (n : Nano) (a : ℕ) :
    s.Within (.acc :: .free :: .buf :: .fwd :: .fmc :: .flow :: .act :: .tel :: .policy :: .pip :: .qnc :: reportParts) (s.nanoRun q c m n a) := by
  unfold State.nanoRun
  extract_lets +onlyGivenNames s0
  have hs0 : s.Within _ s0 := State.within_countStep ..
  clear_value s0
  extract_lets +onlyGivenNames arg
  split
  · exact .mono (.after (State.within_pipFault ..) hs0) (by decide)
  · split
    · exact .mono (.after (State.within_pipFault ..) hs0) (by decide)
    · split
      · exact .mono (.after (State.within_pipFault ..) hs0) (by decide)
      · rename_i a15 t16 h17
        have ht16 : s.Within _ t16 := .after (State.within_memOp h17) hs0
        split
        · exact .mono (.after (State.within_pipFault ..) ht16) (by decide)
        · rename_i a21 t22 h23
          have ht22 : s.Within _ t22 := .after (State.within_aluPart h23) ht16
          exact .mono (.cond (.after (State.within_pipFault ..) ht22) (.after (State.within_commitPart ..) ht22)) (by decide)

theorem State.within_microRun (s : State) (q c : ℕ) (m : BitVec 24) (n : Nano) (a : ℕ) :
    s.Within (.acc :: .free :: .buf :: .fwd :: .fmc :: .flow :: .act :: .tel :: .policy :: .pip :: .qnc :: reportParts) (s.microRun q c m n a) := by
  unfold State.microRun
  extract_lets +onlyGivenNames x
  exact .mono (.cond (.cond (.after (State.within_pipFault ..) (State.within_countStep ..)) (.cond (.after (State.within_nanoRun ..) (State.within_upCtx ..)) (State.within_startWait ..))) (State.within_nanoRun ..)) (by decide)

theorem State.within_microIssue (s : State) (q c : ℕ) :
    s.Within (.acc :: .free :: .buf :: .fwd :: .fmc :: .flow :: .act :: .tel :: .policy :: .pip :: .qnc :: reportParts) (s.microIssue q c) := by
  unfold State.microIssue
  extract_lets +onlyGivenNames x a s0
  have hs0 : s.Within _ s0 := State.within_setCtx ..
  clear_value s0
  split
  · exact .mono (.after (State.within_pipFault ..) hs0) (by decide)
  · exact .mono (.cond (.after (State.within_pipFault ..) (.after (State.within_countStep ..) hs0)) (.after (State.within_microRun ..) hs0)) (by decide)

theorem State.within_lbSteer (s : State) (c pool m slot : ℕ) :
    s.Within (.wcount :: .modCnt :: .act :: .policy :: ctrParts) (s.lbSteer c pool m slot) := by
  unfold State.lbSteer
  exact .mono (.cond (State.within_lbWalk ..) (.refl _)) (by decide)

theorem State.within_policyRun (s : State) (c evt : ℕ) (d : List ℕ) :
    s.Within (.acc :: .free :: .fmc :: .flow :: .act :: .policy :: reportParts) ((s.policyRun c evt d).1) := by
  unfold State.policyRun
  split
  · extract_lets +onlyGivenNames s1
    have hs1 : s.Within _ s1 := .after (State.within_ageTune ..) (State.within_elephantTick ..)
    clear_value s1
    extract_lets +onlyGivenNames x
    have hx : s.Within (.acc :: .free :: .fmc :: .flow :: .act :: .policy :: reportParts) x.1 := by
      unfold x
      split
      · exact .mono (.after (State.within_evict ..) hs1) (by decide)
      · exact .fstMk (.mono hs1 (by decide))
    clear_value x
    exact .fstMk (.mono (.after (State.within_powerTick ..) hx) (by decide))
  · exact .fstMk (.mono (State.within_elephant ..) (by decide))
  · exact .fstMk (.mono (State.within_lbSteer ..) (by decide))
  · exact .mono (State.within_evict ..) (by decide)
  · exact .fstMk (.mono (State.within_ageTune ..) (by decide))
  · exact .fstMk (.mono (State.within_powerEngage ..) (by decide))
  · exact .fstMk (.mono (.refl _) (by decide))

theorem State.within_policyStep (s : State) (c : ℕ) :
    s.Within (.acc :: .free :: .buf :: .fmc :: .flow :: .act :: .tel :: .policy :: .pip :: reportParts) (s.policyStep c) := by
  unfold State.policyStep
  extract_lets +onlyGivenNames x
  split
  · rename_i a0 t1 a2 h3
    have ht1 : s.Within _ t1 := .ofFst (State.within_policyRun ..) h3
    exact .mono (.cond ht1 (.after (State.within_endRoutine ..) (.after (State.within_ctr ..) ht1))) (by decide)

theorem State.within_issue (s : State) (q c : ℕ) (how : Issue) :
    s.Within (.acc :: .free :: .buf :: .fwd :: .fmc :: .flow :: .act :: .tel :: .policy :: .pip :: .qnc :: reportParts) (s.issue q c how) := by
  unfold State.issue
  extract_lets +onlyGivenNames x
  split
  · exact .mono (.refl _) (by decide)
  · split
    · exact .mono (.after (State.within_microIssue ..) (State.within_tookTurn ..)) (by decide)
    · exact .mono (.after (State.within_nanoError ..) (State.within_tookTurn ..)) (by decide)
    · exact .mono (.after (State.within_pipFault ..) (.after (State.within_countStep ..) (.after (State.within_upCtx ..) (State.within_tookTurn ..)))) (by decide)
    · split
      · exact .mono (.refl _) (by decide)
      · extract_lets +onlyGivenNames s9
        have hs9 : s.Within _ s9 := .after (State.within_countStep ..) (State.within_tookTurn ..)
        clear_value s9
        exact .mono (.cond (.after (State.within_policyStep ..) hs9) (.cond (.after (State.within_relocStep ..) hs9) (.after (State.within_setupStep ..) hs9))) (by decide)

theorem State.within_closeBitmapLost (s : State) :
    s.Within (.acc :: .free :: .fmc :: .qnc :: reportParts) s.closeBitmapLost := by
  have hr := State.within_rebuildTouched
  unfold State.closeBitmapLost
  -- The read of the accounts is made a variable: spelled out, the kernel runs it.
  generalize State.rebuildTouched = r at hr ⊢
  as_aux_lemma =>
    split
    · exact .mono (.refl _) (by decide)
    · split
      · exact .mono (.refl _) (by decide)
      · split
        rename_i k t h
        have ht : s.Within _ t := .ofSnd (hr ..) h
        exact .mono (.after (State.within_upQnc ..) ht) (by decide)

theorem State.within_closeRead (s : State) (lost : Bool) (es : List ReadEnd) :
    s.Within (.acc :: .free :: .fmc :: .qnc :: reportParts) (s.closeRead lost es) := by
  unfold State.closeRead
  extract_lets +onlyGivenNames s0
  have hs0 : s.Within _ s0 := .cond (State.within_closeBitmapLost ..) (.refl _)
  clear_value s0
  split
  · exact .mono hs0 (by decide)
  · split
    · exact .mono (.after (State.within_closeBlocks ..) hs0) (by decide)
    · refine .step ?_ (State.within_bgRun (F := (.acc :: .free :: .fmc :: .qnc :: reportParts)) (hf := fun x12 => ?_) ..) (by decide)
      · exact .mono hs0 (by decide)
      · extract_lets +onlyGivenNames par mine held r
        have hr : x12.Within _ r.2 := State.within_readAccount ..
        clear_value r
        extract_lets +onlyGivenNames s13
        have hs13 : x12.Within _ s13 := .after (State.within_upQnc ..) hr
        clear_value s13
        extract_lets +onlyGivenNames s14
        have hs14 : x12.Within (.acc :: .free :: .fmc :: .qnc :: reportParts) s14 := by
          unfold s14
          split
          · extract_lets +onlyGivenNames v e s19
            have hs19 : x12.Within _ s19 := .after (State.within_writeNow ..) hs13
            clear_value s19
            exact .mono (.after (State.within_upQnc ..) hs19) (by decide)
          · extract_lets +onlyGivenNames s25
            have hs25 : x12.Within _ s25 := .after (State.within_accAdd' ..) hs13
            clear_value s25
            exact .mono (.after (State.within_upQnc ..) hs25) (by decide)
          · exact .mono (.after (State.within_upQnc ..) hs13) (by decide)
        clear_value s14
        exact .mono (.after (State.within_closeBlocks ..) hs14) (by decide)

theorem State.within_timeRx (s : State) (k : ℕ) :
    s.Within (.bank :: .time :: .free :: .buf :: .csc :: .qnc :: ctrParts) (s.timeRx k) := by
  unfold State.timeRx
  split
  · exact .mono (.refl _) (by decide)
  · rename_i a2 a3 a4 t5 h6
    have ht5 : s.Within _ t5 := State.within_takeRx h6
    extract_lets +onlyGivenNames mid s2
    have hs2 : s.Within _ s2 := .after (State.within_demote' ..) ht5
    clear_value s2
    exact .mono (.cond hs2 (.after (State.within_timeMember ..) hs2)) (by decide)

end Sys2Proof.Machine
end

section
/-!
SUPPORT. Every command keeps the stores in canonical form: its meaning is made of operations whose footprints say so.
-/
namespace Sys2Proof.Machine

theorem live_canonical {s t : State} {f : State → State} {F : List Part} (hs : s.canonical = true)
    (hf : ∀ x, State.Within F x (f x)) (h : s.live f = .next t) : t.canonical = true := by
  unfold State.live at h
  obtain rfl := Host.Outcome.next.inj h
  split
  · exact ((hf s).canon hs :)
  · exact hs

theorem always_canonical {s t : State} {f : State → State} {F : List Part} (hs : s.canonical = true)
    (hf : ∀ x, State.Within F x (f x)) (h : s.always f = .next t) : t.canonical = true := by
  unfold State.always at h
  obtain rfl := Host.Outcome.next.inj h
  exact ((hf s).canon hs :)

/-- Every command keeps the form of the stores. -/
theorem exec_canonical (c : Instr) {s t : State} (hs : s.canonical = true) (h : exec c s = .next t) : t.canonical = true := by
  cases c
  case registerWrite => exact live_canonical hs (fun _ => State.within_regWrite ..) h
  case badSizeAccess => exact live_canonical hs (fun _ => State.within_badAccess ..) h
  case unmappedAccess => exact live_canonical hs (fun _ => State.within_holeAccess ..) h
  case softRst m page =>
    exact live_canonical hs (f := fun s => s.pageWrite m.id page.toNat PG_CTL.SOFT_RST.off (2 + s.pageGet page.toNat PG_CTL.EN))
      (fun _ => State.within_pageWrite ..) h
  case softResetDone => exact live_canonical hs (fun _ => State.within_softEnd ..) h
  case irqForce => exact live_canonical hs (fun _ => State.within_pageWrite ..) h
  case irqRearm => exact live_canonical hs (fun _ => State.within_regWrite ..) h
  case msixResume => exact live_canonical hs (fun _ => State.within_msixResume ..) h
  case semRead => exact live_canonical hs (fun _ => State.within_readOut ..) h
  case semRelease => exact live_canonical hs (fun _ => State.within_fabricWrite ..) h
  case semForce => exact live_canonical hs (fun _ => State.within_fabricWrite ..) h
  case ringConfigWrite => exact live_canonical hs (fun _ => State.within_fabricWrite ..) h
  case ringModTimer ring => exact live_canonical hs (f := (·.upIo (·.ringTimer ring.val))) (fun _ => .upIo (Io.within_ringTimer ..)) h
  case ringDmaFail => exact live_canonical hs (fun _ => State.within_ringDmaFail ..) h
  case hostTxEntry => exact live_canonical hs (fun _ => State.within_txEntry ..) h
  case hostTxFrameFetched => exact live_canonical hs (fun _ => State.within_txFetched ..) h
  case hostRxDeliver => exact live_canonical hs (fun _ => State.within_hostRx ..) h
  case featCommit => exact live_canonical hs (fun _ => State.within_fabricWrite ..) h
  case perstNAssert => exact always_canonical hs (fun _ => State.within_perstAssert ..) h
  case functionLevelReset => exact live_canonical hs (fun _ => State.within_hostReset ..) h
  case mgmtRstNAssert => exact live_canonical hs (fun _ => State.within_mgmtRequest ..) h
  case sysRstMgmt => exact live_canonical hs (fun _ => State.within_fabricWrite ..) h
  case managementReset => exact live_canonical hs (fun _ => State.within_mgmtApply ..) h
  case managementResetEnd => exact live_canonical hs (fun _ => State.within_mgmtEnd ..) h
  case powerOnReset => exact always_canonical hs (fun _ => State.within_powerOnReset ..) h
  case chipRstNAssert => exact always_canonical hs (fun _ => State.within_chipReset ..) h
  case coldResetRelease => exact always_canonical hs (fun _ => State.within_coldRelease ..) h
  case strapSample => exact live_canonical hs (fun _ => State.within_strapSample ..) h
  case bootStepComplete => exact live_canonical hs (fun _ => State.within_bootStep ..) h
  case thermalTrip => exact live_canonical hs (fun _ => State.within_thermalTrip ..) h
  case supplyFault => exact live_canonical hs (fun _ => State.within_supplyFault ..) h
  case stopPersist => exact always_canonical hs (fun _ => State.within_stopPersist ..) h
  case stopHalt => exact always_canonical hs (fun _ => State.within_stopHalt ..) h
  case thermWarn => exact live_canonical hs (fun _ => State.within_thermWarn ..) h
  case referenceLoss => exact live_canonical hs (f := (·.upIo (·.refLost))) (fun _ => .upIo (Io.within_refLost ..)) h
  case referenceReturn => exact live_canonical hs (fun _ => State.within_refReturn ..) h
  case loopRelock => exact live_canonical hs (fun _ => State.within_loopRelock ..) h
  case holdoverEnd => exact live_canonical hs (fun _ => State.within_holdoverEnd ..) h
  case lockLost => exact live_canonical hs (fun _ => State.within_lockLost ..) h
  case droopTrip sensor sagMv => exact live_canonical hs (f := (·.upIo (·.droop sensor.val sagMv))) (fun _ => .upIo (Io.within_droop ..)) h
  case divisorReturn => exact live_canonical hs (fun _ => State.within_divisorReturn ..) h
  case stretchLimit => exact live_canonical hs (fun _ => State.within_stretchLimit ..) h
  case timeStepRelative => exact live_canonical hs (fun _ => State.within_fabricWrite ..) h
  case timeStepAbsolute => exact live_canonical hs (fun _ => State.within_fabricWrite ..) h
  case timeNsRead => exact live_canonical hs (fun _ => State.within_readOut ..) h
  case boundaryEvent => exact live_canonical hs (fun _ => State.within_boundaryEvent ..) h
  case heldBoundary => exact live_canonical hs (fun _ => State.within_heldBoundary ..) h
  case drainComplete => exact live_canonical hs (fun _ => State.within_drainComplete ..) h
  case shadowCopyDone => exact live_canonical hs (fun _ => State.within_shadowCopyDone ..) h
  case commitGo => exact live_canonical hs (fun _ => State.within_fabricWrite ..) h
  case commitAbort => exact live_canonical hs (fun _ => State.within_fabricWrite ..) h
  case shadowArm m page arm =>
    exact live_canonical hs
      (f := fun s => s.pageWrite m.id page.toNat PG_SHADOW_CTL.ARM.off (b2n arm + 2 * s.pageGet page.toNat PG_SHADOW_CTL.RD_SEL))
      (fun _ => State.within_pageWrite ..) h
  case groupApply => exact live_canonical hs (fun _ => State.within_groupApplyBy ..) h
  case linkUp => exact live_canonical hs (fun _ => State.within_portUp ..) h
  case linkDown => exact live_canonical hs (fun _ => State.within_linkLoss ..) h
  case ltFail => exact live_canonical hs (fun _ => State.within_ltFail ..) h
  case linkHoldExpire port =>
    exact live_canonical hs (f := fun s => if s.linkUp port.val then s else s.linkFlush port.val) (fun _ => .cond (.refl _) (State.within_linkFlush ..)) h
  case frameReceive => exact live_canonical hs (fun _ => State.within_frameIn ..) h
  case pauseReceive => exact live_canonical hs (fun _ => State.within_pauseIn ..) h
  case pauseTimerExpire => exact live_canonical hs (fun _ => State.within_pauseExpire ..) h
  case xoffResend => exact live_canonical hs (fun _ => State.within_xoffResend ..) h
  case pfcWatchdog => exact live_canonical hs (fun _ => State.within_wdFire ..) h
  case pfcWdRecover => exact live_canonical hs (fun _ => State.within_wdRecover ..) h
  case fecDegradeWindow => exact live_canonical hs (fun _ => State.within_fecWindow ..) h
  case txtsPop => exact live_canonical hs (fun _ => State.within_fabricWrite ..) h
  case ppsOutPulse => exact live_canonical hs (fun _ => State.within_ppsDue ..) h
  case ppsOutEnd => exact live_canonical hs (fun _ => State.within_ppsEndDue ..) h
  case ppsInEdge => exact live_canonical hs (fun _ => State.within_ppsIn ..) h
  case passAdmit => exact live_canonical hs (fun _ => State.within_passAdmit ..) h
  case flowReadReturn => exact live_canonical hs (fun _ => State.within_flowReturn ..) h
  case cacheInstall => exact live_canonical hs (fun _ => State.within_cacheInstall ..) h
  case cacheClean => exact live_canonical hs (fun _ => State.within_cleanBank ..) h
  case learnTake => exact live_canonical hs (fun _ => State.within_learnTake ..) h
  case l2AgeVisit => exact live_canonical hs (fun _ => State.within_ageVisit ..) h
  case flapWindowEnd => exact live_canonical hs (fun _ => State.within_flapWindow ..) h
  case arrayScanVisit => exact live_canonical hs (fun _ => State.within_scanVisit ..) h
  case clsRead c =>
    exact live_canonical hs (f := fun s => s.runCmd c 0xFF true some (fun _ => false) (fun t p => t.clsRead c p))
      (fun _ => State.within_runCmd (hf := fun _ _ => State.within_clsRead ..) ..) h
  case clsWrite c =>
    exact live_canonical hs (f := fun s => s.runCmd c 0xFF false some (fun p => s.shadowBusy (pgCls p)) (fun t p => t.clsWrite c p))
      (fun _ => State.within_runCmd (hf := fun _ _ => State.within_clsWrite ..) ..) h
  case clsDelete c =>
    exact live_canonical hs (f := fun s => s.runCmd c 0xFF false some (fun p => s.shadowBusy (pgCls p)) (fun t p => t.clsDelete c p))
      (fun _ => State.within_runCmd (hf := fun _ _ => State.within_clsDelete ..) ..) h
  case clsSearch c =>
    exact live_canonical hs (f := fun s => s.runCmd c 0xFF true some (fun _ => false) (fun t p => t.clsSearch c p))
      (fun _ => State.within_runCmd (hf := fun _ _ => State.within_clsSearch ..) ..) h
  case clsMove c =>
    exact live_canonical hs (f := fun s => s.runCmd c 0xFF false some (fun p => s.shadowBusy (pgCls p)) (fun t p => t.clsMove c p))
      (fun _ => State.within_runCmd (hf := fun _ _ => State.within_clsMove ..) ..) h
  case searchProfileRead c =>
    exact live_canonical hs (f := fun s => s.runCmd c 0xFF true some (fun _ => false) (fun t p => t.profRead c p))
      (fun _ => State.within_runCmd (hf := fun _ _ => State.within_profRead ..) ..) h
  case searchProfileWrite c =>
    exact live_canonical hs (f := fun s => s.runCmd c 0xFF false some (fun p => s.shadowBusy (pgCls p)) (fun t p => t.profWrite c p))
      (fun _ => State.within_runCmd (hf := fun _ _ => State.within_profWrite ..) ..) h
  case actionProfileRead c =>
    exact live_canonical hs (f := fun s => s.runCmd c 0xFF true some (fun _ => false) (fun t p => t.actRead c p))
      (fun _ => State.within_runCmd (hf := fun _ _ => State.within_actRead ..) ..) h
  case actionProfileWrite c =>
    exact live_canonical hs (f := fun s => s.runCmd c 0xFF false some (fun p => s.shadowBusy (pgAct p)) (fun t p => t.actWrite c p))
      (fun _ => State.within_runCmd (hf := fun _ _ => State.within_actWrite ..) ..) h
  case actionProfileDelete c =>
    exact live_canonical hs (f := fun s => s.runCmd c 0xFF false some (fun p => s.shadowBusy (pgAct p)) (fun t p => t.actDelete c p))
      (fun _ => State.within_runCmd (hf := fun _ _ => State.within_actDelete ..) ..) h
  case templateWrite c =>
    exact live_canonical hs (f := fun s => s.runCmd c 0xFF false some (fun _ => false) (fun t p => t.actWrite c p))
      (fun _ => State.within_runCmd (hf := fun _ _ => State.within_actWrite ..) ..) h
  case l2Read c =>
    exact live_canonical hs (f := fun s => s.runCmd c 0xFF true some (fun _ => false) (fun t p => t.l2Read c p))
      (fun _ => State.within_runCmd (hf := fun _ _ => State.within_l2Read ..) ..) h
  case l2Write c =>
    exact live_canonical hs (f := fun s => s.runCmd c 0xFF false some (fun _ => false) (fun t p => t.l2Write c p))
      (fun _ => State.within_runCmd (hf := fun _ _ => State.within_l2Write ..) ..) h
  case l2Delete c =>
    exact live_canonical hs (f := fun s => s.runCmd c 0xFF false some (fun _ => false) (fun t p => t.l2Delete c p))
      (fun _ => State.within_runCmd (hf := fun _ _ => State.within_l2Delete ..) ..) h
  case l2Flush c =>
    exact live_canonical hs (f := fun s => s.runCmd c 0xFF false some (fun _ => false) (fun t p => t.l2Flush c p))
      (fun _ => State.within_runCmd (hf := fun _ _ => State.within_l2Flush ..) ..) h
  case l2ReadAt c =>
    exact live_canonical hs (f := fun s => s.runCmd c 0xFF true some (fun _ => false) (fun t p => t.l2ReadAt c p))
      (fun _ => State.within_runCmd (hf := fun _ _ => State.within_l2ReadAt ..) ..) h
  case lpmWrite c =>
    exact live_canonical hs (f := fun s => s.runCmd c 0x0F false (fun b => some (2 * b)) (fun _ => false) (fun t p => t.lpmWrite c p))
      (fun _ => State.within_runCmd (hf := fun _ _ => State.within_lpmWrite ..) ..) h
  case lpmDelete c =>
    exact live_canonical hs (f := fun s => s.runCmd c 0x0F false (fun b => some (2 * b)) (fun _ => false) (fun t p => t.lpmDelete c p))
      (fun _ => State.within_runCmd (hf := fun _ _ => State.within_lpmDelete ..) ..) h
  case lpmRead c =>
    exact live_canonical hs (f := fun s => s.runCmd c 0x0F true (fun b => some (2 * b)) (fun _ => false) (fun t p => t.lpmRead c p))
      (fun _ => State.within_runCmd (hf := fun _ _ => State.within_lpmRead ..) ..) h
  case lpmSearch c =>
    exact live_canonical hs (f := fun s => s.runCmd c 0x0F true (fun b => some (2 * b)) (fun _ => false) (fun t p => t.lpmSearch c p))
      (fun _ => State.within_runCmd (hf := fun _ _ => State.within_lpmSearch ..) ..) h
  case flowRead c ends =>
    exact live_canonical hs (f := fun s => s.runCmd c 0x01 true (fun _ => none) (fun _ => false) (fun t _ => t.flowRead c ends))
      (fun _ => State.within_runCmd (hf := fun _ _ => State.within_flowRead ..) ..) h
  case flowWrite => exact live_canonical hs (fun _ => State.within_flowWrite ..) h
  case flowDelete c ends =>
    exact live_canonical hs (f := fun s => s.runCmd c 0x01 false (fun _ => none) (fun _ => false) (fun t _ => t.flowDelete c ends))
      (fun _ => State.within_runCmd (hf := fun _ _ => State.within_flowDelete ..) ..) h
  case flowSearch c ends =>
    exact live_canonical hs (f := fun s => s.runCmd c 0x01 true (fun _ => none) (fun _ => false) (fun t _ => t.flowSearch c ends))
      (fun _ => State.within_runCmd (hf := fun _ _ => State.within_flowSearch ..) ..) h
  case flowWalk c =>
    exact live_canonical hs (f := fun s => s.runCmd c 0x01 true (fun _ => none) (fun _ => false) (fun t _ => t.flowWalk c))
      (fun _ => State.within_runCmd (hf := fun _ _ => State.within_flowWalk ..) ..) h
  case flowReadBucket c ends =>
    exact live_canonical hs (f := fun s => s.runCmd c 0x01 true (fun _ => none) (fun _ => false) (fun t _ => t.flowBucket c ends))
      (fun _ => State.within_runCmd (hf := fun _ _ => State.within_flowBucket ..) ..) h
  case accountRead c ends =>
    exact live_canonical hs (f := fun s => s.runCmd c 0x01 true (fun _ => none) (fun _ => false) (fun t p => t.accountRead c p ends))
      (fun _ => State.within_runCmd (hf := fun _ _ => State.within_accountRead ..) ..) h
  case accountWrite c =>
    exact live_canonical hs (f := fun s => s.runCmd c 0x01 false (fun _ => none) (fun _ => false) (fun t p => t.accountSealed c p))
      (fun _ => State.within_runCmd (hf := fun _ _ => State.within_accountSealed ..) ..) h
  case accountDelete c =>
    exact live_canonical hs (f := fun s => s.runCmd c 0x01 false (fun _ => none) (fun _ => false) (fun t p => t.accountSealed c p))
      (fun _ => State.within_runCmd (hf := fun _ _ => State.within_accountSealed ..) ..) h
  case readMap c =>
    exact live_canonical hs (f := fun s => s.runCmd c 0x01 true (fun _ => none) (fun _ => false) (fun t p => t.mapRead c p))
      (fun _ => State.within_runCmd (hf := fun _ _ => State.within_mapRead ..) ..) h
  case writeMap c =>
    exact live_canonical hs (f := fun s => s.runCmd c 0x01 false (fun _ => none) (fun _ => false) (fun t p => t.mapWrite c p))
      (fun _ => State.within_runCmd (hf := fun _ _ => State.within_mapWrite ..) ..) h
  case lbSlotsRead c =>
    exact live_canonical hs (f := fun s => s.runCmd c 0x01 true (fun _ => none) (fun _ => false) (fun t p => t.lbRead c p))
      (fun _ => State.within_runCmd (hf := fun _ _ => State.within_lbRead ..) ..) h
  case lbSlotsWrite c =>
    exact live_canonical hs (f := fun s => s.runCmd c 0x01 false (fun _ => none) (fun _ => false) (fun t p => t.lbWrite c p))
      (fun _ => State.within_runCmd (hf := fun _ _ => State.within_lbWrite ..) ..) h
  case writeMember c =>
    exact live_canonical hs (f := fun s => s.runCmd c 0x01 false (fun _ => none) (fun _ => false) (fun t p => t.lbWriteMember c p))
      (fun _ => State.within_runCmd (hf := fun _ _ => State.within_lbWriteMember ..) ..) h
  case setState c =>
    exact live_canonical hs (f := fun s => s.runCmd c 0x01 false (fun _ => none) (fun _ => false) (fun t p => t.lbSetState c p))
      (fun _ => State.within_runCmd (hf := fun _ _ => State.within_lbSetState ..) ..) h
  case lbWritePool c =>
    exact live_canonical hs (f := fun s => s.runCmd c 0x01 false (fun _ => none) (fun _ => false) (fun t p => t.lbWritePool c p))
      (fun _ => State.within_runCmd (hf := fun _ _ => State.within_lbWritePool ..) ..) h
  case readMember c =>
    exact live_canonical hs (f := fun s => s.runCmd c 0x01 true (fun _ => none) (fun _ => false) (fun t p => t.lbReadMember c p))
      (fun _ => State.within_runCmd (hf := fun _ _ => State.within_lbReadMember ..) ..) h
  case readPool c =>
    exact live_canonical hs (f := fun s => s.runCmd c 0x01 true (fun _ => none) (fun _ => false) (fun t p => t.natReadPool c p))
      (fun _ => State.within_runCmd (hf := fun _ _ => State.within_natReadPool ..) ..) h
  case natWritePool c =>
    exact live_canonical hs (f := fun s => s.runCmd c 0x01 false (fun _ => none) (fun _ => false) (fun t p => t.natWritePool c p))
      (fun _ => State.within_runCmd (hf := fun _ _ => State.within_natWritePool ..) ..) h
  case natSearch c =>
    exact live_canonical hs (f := fun s => s.runCmd c 0x01 true (fun _ => none) (fun _ => false) (fun t p => t.natSearch c p))
      (fun _ => State.within_runCmd (hf := fun _ _ => State.within_natSearch ..) ..) h
  case readBlock c =>
    exact live_canonical hs (f := fun s => s.runCmd c 0x01 true (fun _ => none) (fun _ => false) (fun t p => t.natReadBlock c p))
      (fun _ => State.within_runCmd (hf := fun _ _ => State.within_natReadBlock ..) ..) h
  case writeAddr c =>
    exact live_canonical hs (f := fun s => s.runCmd c 0x01 false (fun _ => none) (fun _ => false) (fun t p => t.natWriteAddr c p))
      (fun _ => State.within_runCmd (hf := fun _ _ => State.within_natWriteAddr ..) ..) h
  case writePrefix c =>
    exact live_canonical hs (f := fun s => s.runCmd c 0x01 false (fun _ => none) (fun _ => false) (fun t p => t.natWritePfx c p))
      (fun _ => State.within_runCmd (hf := fun _ _ => State.within_natWritePfx ..) ..) h
  case zoneTimeoutRead c =>
    exact live_canonical hs (f := fun s => s.runCmd c 0xFF true some (fun _ => false) (fun t p => t.zoneRead c p))
      (fun _ => State.within_runCmd (hf := fun _ _ => State.within_zoneRead ..) ..) h
  case zoneTimeoutWrite c =>
    exact live_canonical hs (f := fun s => s.runCmd c 0xFF false some (fun _ => false) (fun t p => t.zoneWrite c p))
      (fun _ => State.within_runCmd (hf := fun _ _ => State.within_zoneWrite ..) ..) h
  case claimStart => exact live_canonical hs (fun _ => .after (State.within_afterClaims ..) (State.within_claimStart ..)) h
  case claimReadReturn => exact live_canonical hs (fun _ => .after (State.within_afterClaims ..) (State.within_claimRead ..)) h
  case claimHalvesAccepted => exact live_canonical hs (fun _ => .after (State.within_afterClaims ..) (State.within_claimHalves ..)) h
  case claimHeaderAccepted => exact live_canonical hs (fun _ => .after (State.within_afterClaims ..) (State.within_claimHeader ..)) h
  case relocNewAccepted => exact live_canonical hs (fun _ => .after (State.within_afterClaims ..) (State.within_relocAccepted ..)) h
  case fenceClose => exact live_canonical hs (fun _ => State.within_fenceClose ..) h
  case stashDrain => exact live_canonical hs (fun _ => State.within_stashDrain ..) h
  case stashPlaceAccepted => exact live_canonical hs (fun _ => .after (State.within_afterClaims ..) (State.within_stashPlaced ..)) h
  case removalStart => exact live_canonical hs (fun _ => .after (State.within_afterClaims ..) (State.within_removalStart ..)) h
  case removalWaitEnd => exact live_canonical hs (fun _ => State.within_removalWait ..) h
  case removalFinalRead => exact live_canonical hs (fun _ => .after (State.within_afterClaims ..) (State.within_removalFinal ..)) h
  case agingWalkVisit => exact live_canonical hs (fun _ => State.within_agingVisit ..) h
  case routineStart => exact live_canonical hs (fun _ => .after (State.within_afterClaims ..) (State.within_routineStart ..)) h
  case microwordIssue => exact live_canonical hs (fun _ => .after (State.within_afterClaims ..) (State.within_issue ..)) h
  case memResponse => exact live_canonical hs (fun _ => .after (State.within_afterClaims ..) (State.within_memResponse ..)) h
  case waitSatisfied => exact live_canonical hs (fun _ => State.within_waitSatisfied ..) h
  case contextTimerExpire => exact live_canonical hs (fun _ => State.within_timerExpire ..) h
  case lockGrant => exact live_canonical hs (fun _ => State.within_lockGrant ..) h
  case commitAccepted => exact live_canonical hs (fun _ => .after (State.within_afterClaims ..) (State.within_commitAccepted ..)) h
  case deadlineFault _ ctx _ =>
    cases ctx with
    | none => exact live_canonical hs (fun _ => .after (State.within_afterClaims ..) (State.within_deadlineWaiting ..)) h
    | some _ => exact live_canonical hs (fun _ => .after (State.within_afterClaims ..) (State.within_deadline ..)) h
  case sliceFault => exact live_canonical hs (fun _ => .after (State.within_afterClaims ..) (State.within_slice ..)) h
  case pipStop => exact live_canonical hs (fun _ => State.within_fabricWrite ..) h
  case pipResume => exact live_canonical hs (fun _ => State.within_fabricWrite ..) h
  case pipLoadGo => exact live_canonical hs (fun _ => State.within_fabricWrite ..) h
  case pipLoadChecked => exact live_canonical hs (fun _ => State.within_pipLoadChecked ..) h
  case pipInstall => exact live_canonical hs (fun _ => State.within_pipInstall ..) h
  case nanoRefetchDone => exact live_canonical hs (fun _ => .after (State.within_afterClaims ..) (State.within_nanoDone ..)) h
  case dramCommandIssue => exact live_canonical hs (fun _ => State.within_dramIssue ..) h
  case dramWriteAccept => exact live_canonical hs (fun _ => State.within_writeAccept ..) h
  case dramReadComplete => exact live_canonical hs (fun _ => State.within_readComplete ..) h
  case refreshDue => exact live_canonical hs (fun _ => State.within_refresh ..) h
  case retrainStart => exact live_canonical hs (fun _ => State.within_retrainStart ..) h
  case retrainEnd => exact live_canonical hs (fun _ => State.within_retrainEnd ..) h
  case pcFreeze => exact live_canonical hs (fun _ => State.within_fabricWrite ..) h
  case pcRelease => exact live_canonical hs (fun _ => State.within_fabricWrite ..) h
  case releaseRetrainDone => exact live_canonical hs (fun _ => State.within_releaseDone ..) h
  case repairEntry => exact live_canonical hs (fun _ => State.within_repair ..) h
  case rowRetire => exact live_canonical hs (fun _ => State.within_fabricWrite ..) h
  case pcRetire => exact live_canonical hs (fun _ => State.within_fabricWrite ..) h
  case rebuildLine => exact live_canonical hs (fun _ => State.within_rebuildLine ..) h
  case rebuildDone => exact live_canonical hs (fun _ => State.within_rebuildDone ..) h
  case diagRead => exact live_canonical hs (fun _ => State.within_fabricWrite ..) h
  case diagWrite => exact live_canonical hs (fun _ => State.within_fabricWrite ..) h
  case diagDone => exact live_canonical hs (fun _ => State.within_diagDone ..) h
  case scrubRead => exact live_canonical hs (fun _ => State.within_scrubRead ..) h
  case bwWindowEnd => exact live_canonical hs (fun _ => State.within_bwWindow ..) h
  case txFrameStart => exact live_canonical hs (fun _ => State.within_txStart ..) h
  case txFrameDone => exact live_canonical hs (fun _ => State.within_frameOut ..) h
  case qFlush => exact live_canonical hs (fun _ => State.within_fabricWrite ..) h
  case watermarkWrite _ queue _ =>
    cases queue with
    | none => exact live_canonical hs (fun _ => State.within_fabricWrite ..) h
    | some _ => exact live_canonical hs (fun _ => State.within_fabricWrite ..) h
  case tokenRefill => exact live_canonical hs (fun _ => State.within_tokenRefill ..) h
  case gateChange => exact live_canonical hs (fun _ => State.within_gateStep ..) h
  case listStart => exact live_canonical hs (fun _ => State.within_listStart ..) h
  case messageFlush => exact live_canonical hs (fun _ => State.within_flushDue ..) h
  case templateSend => exact live_canonical hs (fun _ => State.within_fabricWrite ..) h
  case templateRefresh => exact live_canonical hs (fun _ => State.within_templateRefresh ..) h
  case startRecordRead => exact live_canonical hs (fun _ => State.within_startRead ..) h
  case snapshotPeriodic => exact live_canonical hs (fun _ => State.within_snapDue ..) h
  case snapNow => exact live_canonical hs (fun _ => State.within_snapBy ..) h
  case elephantWindowEnd => exact live_canonical hs (fun _ => State.within_eleWindow ..) h
  case counterLowRead => exact live_canonical hs (fun _ => State.within_readOut ..) h
  case counterHighRead => exact live_canonical hs (fun _ => State.within_readOut ..) h
  case counterPreset => exact live_canonical hs (fun _ => State.within_fabricWrite ..) h
  case filterCfgWrite => exact live_canonical hs (fun _ => State.within_fabricWrite ..) h
  case pmcWindowEnd => exact live_canonical hs (fun _ => State.within_pmcWindow ..) h
  case sweepVisit => exact live_canonical hs (fun _ => State.within_sweepVisit ..) h
  case sweepColdRead => exact live_canonical hs (fun _ => State.within_sweepCold ..) h
  case sweepRolledAccepted => exact live_canonical hs (fun _ => State.within_sweepAccepted ..) h
  case finalRoll => exact live_canonical hs (fun _ => .after (State.within_afterClaims ..) (State.within_finalRoll ..)) h
  case lostRecordRead => exact live_canonical hs (fun _ => State.within_lostRead ..) h
  case closeEntryRead => exact live_canonical hs (fun _ => State.within_closeRead ..) h
  case blockTagged => exact live_canonical hs (fun _ => State.within_blockTagged ..) h
  case headPersisted => exact live_canonical hs (fun _ => State.within_headPersisted ..) h
  case blockToRing => exact live_canonical hs (fun _ => State.within_blockToRing ..) h
  case alivePersist => exact live_canonical hs (fun _ => State.within_aliveDue ..) h
  case keyLoad => exact live_canonical hs (fun _ => State.within_fabricWrite ..) h
  case keyUnwrapDone => exact live_canonical hs (fun _ => State.within_qncUnwrapped ..) h
  case cphBind => exact live_canonical hs (fun _ => State.within_fabricWrite ..) h
  case cphViolation => exact live_canonical hs (fun _ => State.within_strangerAccess ..) h
  case cphKeyLoad => exact live_canonical hs (fun _ => State.within_fabricWrite ..) h
  case cphKeyLoadDone => exact live_canonical hs (fun _ => State.within_cphLoaded ..) h
  case zeroize => exact live_canonical hs (fun _ => State.within_fabricWrite ..) h
  case cphJobGo => exact live_canonical hs (fun _ => State.within_fabricWrite ..) h
  case cphJobAbort => exact live_canonical hs (fun _ => State.within_jobAbortBy ..) h
  case engineGrant => exact live_canonical hs (fun _ => State.within_engineGrant ..) h
  case segmentDone => exact live_canonical hs (fun _ => State.within_segmentDone ..) h
  case rngFail => exact live_canonical hs (fun _ => State.within_rngFail ..) h
  case rngRecover => exact live_canonical hs (fun _ => State.within_rngRecover ..) h
  case mbxBindWrite => exact live_canonical hs (fun _ => State.within_fabricWrite ..) h
  case mbxViolation => exact live_canonical hs (fun _ => State.within_strangerAccess ..) h
  case mbxPost => exact live_canonical hs (fun _ => State.within_fabricWrite ..) h
  case mbxTake => exact live_canonical hs (fun _ => State.within_fabricWrite ..) h
  case mbxAckWrite => exact live_canonical hs (fun _ => State.within_fabricWrite ..) h
  case doorbellSet => exact live_canonical hs (fun _ => State.within_fabricWrite ..) h
  case doorbellClear => exact live_canonical hs (fun _ => State.within_fabricWrite ..) h
  case doorbellMaskWrite => exact live_canonical hs (fun _ => State.within_fabricWrite ..) h
  case mbxDeclareReset => exact live_canonical hs (fun _ => State.within_fabricWrite ..) h
  case stackLinkUp => exact live_canonical hs (fun _ => State.within_stackUp ..) h
  case stackLinkDown => exact live_canonical hs (fun _ => State.within_stackDown ..) h
  case stackFrameRx => exact live_canonical hs (fun _ => State.within_stackRx ..) h
  case steerRx => exact live_canonical hs (fun _ => State.within_steerRx ..) h
  case dataRx => exact live_canonical hs (fun _ => State.within_dataRx ..) h
  case helloRx => exact live_canonical hs (fun _ => State.within_helloRx ..) h
  case helloSend => exact live_canonical hs (fun _ => State.within_helloSend ..) h
  case timeRx => exact live_canonical hs (fun _ => State.within_timeRx ..) h
  case timeSend => exact live_canonical hs (fun _ => State.within_timeSend ..) h
  case delayReqRx => exact live_canonical hs (fun _ => State.within_delayReqRx ..) h
  case delayReqSend => exact live_canonical hs (fun _ => State.within_delayReqSend ..) h
  case delayRespRx => exact live_canonical hs (fun _ => State.within_delayRespRx ..) h
  case prepareSend => exact live_canonical hs (fun _ => State.within_prepareSend ..) h
  case prepareRx => exact live_canonical hs (fun _ => State.within_prepareRx ..) h
  case preparedRx => exact live_canonical hs (fun _ => State.within_preparedRx ..) h
  case refusedRx => exact live_canonical hs (fun _ => State.within_refusedRx ..) h
  case decideSend => exact live_canonical hs (fun _ => State.within_decideSend ..) h
  case decideRx => exact live_canonical hs (fun _ => State.within_decideRx ..) h
  case timeLost => exact live_canonical hs (fun _ => State.within_timeLost ..) h
  case peerLiveExpire => exact live_canonical hs (fun _ => State.within_liveExpire ..) h
  case handback => exact live_canonical hs (fun _ => State.within_fabricWrite ..) h
  case cascEpochEdge => exact live_canonical hs (fun _ => State.within_epochEdge ..) h
  case cascEpochRelease => exact live_canonical hs (fun _ => State.within_epochRelease ..) h
  case rmtGo => exact live_canonical hs (fun _ => State.within_fabricWrite ..) h
  case rmtReqRx => exact live_canonical hs (fun _ => State.within_rmtReqRx ..) h
  case rmtRspRx => exact live_canonical hs (fun _ => State.within_rmtRspRx ..) h
  case rmtTimeout => exact live_canonical hs (fun _ => State.within_rmtTimeout ..) h
  case sramScrub => exact live_canonical hs (fun _ => State.within_sramScrub ..) h
  case errorLogWritten => exact live_canonical hs (fun _ => State.within_logOne ..) h
  case fwLoad => exact live_canonical hs (fun _ => State.within_fabricWrite ..) h
  case fwCheckDone => exact live_canonical hs (fun _ => State.within_fwChecked ..) h
  case fwProgramDone => exact live_canonical hs (fun _ => State.within_fwProgrammed ..) h
  case fwYield => exact live_canonical hs (fun _ => State.within_fabricWrite ..) h
  case yieldTimeout => exact live_canonical hs (fun _ => State.within_yieldTimeout ..) h
  case fwWarmStart => exact live_canonical hs (fun _ => State.within_warmStart ..) h
  case fwAlive => exact live_canonical hs (fun _ => State.within_fabricWrite ..) h
  case fwWdogExpire => exact live_canonical hs (fun _ => State.within_fwWdog ..) h
  case mcKick => exact live_canonical hs (fun _ => State.within_fabricWrite ..) h
  case mcWdogExpire => exact live_canonical hs (fun _ => State.within_mcWdog ..) h
  case inlineWrite => exact live_canonical hs (fun _ => State.within_fabricWrite ..) h
  case avsWrite => exact live_canonical hs (fun _ => State.within_fabricWrite ..) h
  case i2cTransaction => exact always_canonical hs (fun _ => State.within_i2c ..) h
  case pcieLinkDown => exact live_canonical hs (fun _ => State.within_linkDownPcie ..) h
  case pcieLinkUp => exact live_canonical hs (fun _ => State.within_linkUpPcie ..) h
  case perstNDeassert => exact always_canonical hs (fun _ => State.within_perstDeassert ..) h
  case configWrite => exact live_canonical hs (fun _ => State.within_configWrite ..) h
  case stackFrameTx => exact live_canonical hs (fun _ => State.within_stackTx ..) h
  case ledTimerExpire => exact live_canonical hs (fun _ => State.within_ledTimer ..) h

/-- Settles O4: a command keeps the stores in canonical form, and so does the tick of an idle step. -/
theorem storesStayCanonical : Obligations.StoresStayCanonical := by
  intro s t hs h
  unfold step at h
  split at h
  · obtain rfl := Host.Outcome.next.inj h
    unfold State.tickIdle
    split
    · exact (State.within_tickN s 1).canon hs
    · exact hs
  next c rest hp => · exact exec_canonical c (s := { s with pending := rest }) hs h

end Sys2Proof.Machine
end

section
/-!
SUPPORT. Words: which register words an operation may change, composed as footprints are; and what passing time changes.
-/
namespace Sys2Proof.Machine

/-- Every word that `p` does not name reads as before. -/
structure Io.Keeps (p : Nat → Prop) (s t : Io) : Prop where
  rd : ∀ a, ¬ p a → t.rd a = s.rd a

namespace Io.Keeps

variable {p q : Nat → Prop} {s t u : Io}

theorem refl (p : Nat → Prop) (s : Io) : s.Keeps p s := ⟨fun _ _ => rfl⟩
theorem trans (h : s.Keeps p t) (h' : t.Keeps p u) : s.Keeps p u := ⟨fun a ha => (h'.rd a ha).trans (h.rd a ha)⟩
theorem after (h' : t.Keeps p u) (h : s.Keeps p t) : s.Keeps p u := h.trans h'
theorem mono (h : s.Keeps p t) (hp : ∀ a, p a → q a) : s.Keeps q t := ⟨fun a ha => h.rd a fun hq => ha (hp a hq)⟩
theorem of_regs (h : t.regs = s.regs) : s.Keeps p t := ⟨fun a _ => Io.rd_congr h a⟩
theorem of_within {F : List Part} (h : s.Within F t) (hF : Part.regs ∉ F) : s.Keeps p t := .of_regs (h.same .regs hF)

theorem cond {c : Prop} [Decidable c] (ht : s.Keeps p t) (hu : s.Keeps p u) : s.Keeps p (if c then t else u) := by
  split
  · exact ht
  · exact hu

theorem foldl {β : Type} {f : Io → β → Io} {l : List β} (hf : ∀ b ∈ l, ∀ x : Io, x.Keeps p (f x b)) (h : s.Keeps p t) :
    s.Keeps p (l.foldl f t) := by
  induction l generalizing t with
  | nil => exact h
  | cons b l ih => exact ih (fun c hc => hf c (List.mem_cons_of_mem _ hc)) (h.trans (hf b List.mem_cons_self t))

variable (s)

theorem wr (a : Nat) (v : W32) (ha : p a) : s.Keeps p (s.wr a v) := ⟨fun _ hb => Io.rd_wr_ne _ _ fun e => hb (e ▸ ha)⟩

theorem put (b : Nat) (f : Fld) (v i : Nat) (hr : f.rws = false) (hl : f.lo + f.len ≤ 32) (hp : p (b + f.off + f.stride * i)) :
    s.Keeps p (s.put b f v i) := by
  rw [Io.put_narrow _ _ _ _ _ hr hl]
  exact .wr s _ _ hp

theorem bump (b : Nat) (f : Fld) (n i : Nat) (hr : f.rws = false) (hl : f.lo + f.len ≤ 32) (hp : p (b + f.off + f.stride * i)) :
    s.Keeps p (s.bump b f n i) := .put s b f _ i hr hl hp

theorem raise (b n : Nat) (hp : p (b + 0x10)) : s.Keeps p (s.raise b n) := ⟨fun _ ha => Io.rd_raise_ne _ _ _ fun e => ha (e ▸ hp)⟩

theorem err (b ty m o : Nat) (h1 : p (b + 0x1C)) (h2 : p (b + 0x20)) : s.Keeps p (s.err b ty m o) :=
  ⟨fun _ ha => Io.rd_err_ne _ _ _ _ _ (fun e => ha (e ▸ h1)) fun e => ha (e ▸ h2)⟩

/-- A counter changes its own words, and those that note an overflow. -/
theorem ctr (b : Nat) (f : Fld) (n i : Nat) (h1 : p (b + f.off + f.stride * i)) (h2 : p (b + f.off + f.stride * i + 4))
    (h3 : ∀ a, inPage pgPmc a → p a) : s.Keeps p (s.ctr b f n i) := ⟨fun a ha =>
  Io.rd_ctrAt_ne _ _ _ (fun e => ha (e ▸ h1)) (fun e => ha (e ▸ h2)) (by
    by_contra hc
    exact ha (h3 a ⟨by omega, by omega⟩))⟩

end Io.Keeps

namespace KeepsWords

variable {p : Nat → Prop} {s t u : State}

theorem upIo {f : Io → Io} (h : s.io.Keeps p (f s.io)) : KeepsWords p s (s.upIo f) := h.rd
theorem after (h' : KeepsWords p t u) (h : KeepsWords p s t) : KeepsWords p s u := h.trans h'
theorem of_within {F : List Part} (h : s.Within F t) (hF : Part.regs ∉ F) : KeepsWords p s t := .of_regs (h.same .regs hF) _

theorem cond {c : Prop} [Decidable c] (ht : KeepsWords p s t) (hu : KeepsWords p s u) : KeepsWords p s (if c then t else u) := by
  split
  · exact ht
  · exact hu

theorem foldl {β : Type} {f : State → β → State} {l : List β} (hf : ∀ b ∈ l, ∀ x : State, KeepsWords p x (f x b)) (h : KeepsWords p s t) :
    KeepsWords p s (l.foldl f t) := by
  induction l generalizing t with
  | nil => exact h
  | cons b l ih => exact ih (fun c hc => hf c (List.mem_cons_of_mem _ hc)) (h.trans (hf b List.mem_cons_self t))

theorem ctr (s : State) (b : Nat) (f : Fld) (n i : Nat) (h1 : p (b + f.off + f.stride * i)) (h2 : p (b + f.off + f.stride * i + 4))
    (h3 : ∀ a, inPage pgPmc a → p a) : KeepsWords p s (s.ctr b f n i) := .upIo (.ctr s.io b f n i h1 h2 h3)

/-- A cause that stood stands where its word is kept. -/
theorem cause (h : KeepsWords p s t) (b n : Nat) (hp : ¬ p (b + 0x10)) : t.io.cause b n = s.io.cause b n := by
  unfold Io.cause
  rw [h _ hp]

end KeepsWords

/-! ### Time that passes -/

/-- The words that time alone changes: the swallowed edges of a region, the counters of the pages of the pipelines and the page that
notes overflows (R35, R38, R358, R365). -/
def tickWord (a : Nat) : Prop :=
  inPage pgPmc a ∨ (∃ p < 8, inPage (pgPmcL p) a) ∨ (pgClk + CLK_SWALLOWn.COUNT.off ≤ a ∧ a < pgClk + CLK_SWALLOWn.COUNT.off + 88)

namespace Io

variable (s : Io)

theorem keeps_ctr_pmcL {p : Nat} (hp : p < 8) (f : Fld) (n : Nat) (hf : f.off + 8 ≤ 0x1000) :
    s.Keeps tickWord (s.ctr (pgPmcL p) f n) :=
  .ctr s _ f n 0 (.inr (.inl ⟨p, hp, by unfold inPage; omega⟩)) (.inr (.inl ⟨p, hp, by unfold inPage; omega⟩)) fun _ => .inl

theorem keeps_slots {p : Nat} (hp : p < 8) (n w : Nat) : s.Keeps tickWord (s.slots p n w) := by
  have ha (x : Io) (f : Fld) (k i : Nat) : x.Keeps tickWord (x.accAdd (pgPmcL p) f k i) := .of_within (within_accAdd ..) (by decide)
  have h0 : s.Keeps tickWord { s with taken := s.taken.set 0 p (s.taken.get 0 p - n) } := .of_regs rfl
  have h1 (k : Nat) := ((h0.trans (keeps_ctr_pmcL _ hp PMC_SLOT_CYCLES.COUNT k (by decide))).trans (ha _ PMC_WIN_CYCLES.SLOTS k 0))
  have h2 (x : Io) (f : Fld) (hf : f.off + 8 ≤ 0x1000) (g : Fld) (k : Nat) : x.Keeps tickWord ((x.ctr (pgPmcL p) f k).accAdd (pgPmcL p) g k) :=
    (keeps_ctr_pmcL _ hp f k hf).trans (ha ..)
  unfold Io.slots
  exact .cond h0 (.cond ((h1 _).trans (h2 _ _ (by decide) ..)) (.cond ((h1 _).trans (h2 _ _ (by decide) ..))
    (((h1 _).trans (h2 _ _ (by decide) ..)).trans (ha ..))))

theorem keeps_regionRun {r : Nat} (hr : r < 11) (n : Nat) (w : Nat → Nat) : s.Keeps tickWord (s.regionRun r n w) := by
  have hs (x : Io) (k : Nat) : x.Keeps tickWord (x.ctr pgClk CLK_SWALLOWn.COUNT k r) := by
    have e : CLK_SWALLOWn.COUNT.stride * r = 8 * r := rfl
    exact .ctr x _ _ k r (.inr (.inr ⟨by omega, by omega⟩)) (.inr (.inr ⟨by omega, by omega⟩)) fun _ => .inl
  unfold Io.regionRun
  have h1 (x : Clk) (c : Nat) : s.Keeps tickWord
      (if s.div r = 8 then { s with clk := x } else Io.ctr { s with clk := x } pgClk CLK_SWALLOWn.COUNT c r) :=
    .cond (.of_regs rfl) (.after (hs ..) (.of_regs rfl))
  dsimp only
  split
  · exact (h1 ..).trans (keeps_slots _ ‹_› _ _)
  · exact h1 ..

theorem within_advance (n : Nat) : s.Within [.time] (s.advance n) := by
  unfold advance
  exact .mono (.after (within_markDue ..) (within_setTime ..)) (by decide)

theorem keeps_ticks (n : Nat) (w : Nat → Nat) : s.Keeps tickWord (s.ticks n w) := by
  rw [ticks_eq]
  refine .foldl (fun r hr x => x.keeps_regionRun (List.mem_range.mp hr) n w) ?_
  exact .after (.ctr _ pgPmc PMC_CYCLES.COUNT n 0 (.inl (by unfold inPage; decide)) (.inl (by unfold inPage; decide)) fun _ => .inl)
    (.of_within (s.within_advance n) (by decide))

theorem keeps_waitNs (n : Nat) (w : Nat → Nat) : s.Keeps tickWord (s.waitNs n w) := .cond (.refl _ _) (keeps_ticks ..)

/-! ### The divisors -/

theorem clkDiv_congr {s t : Io} (h : t.clk = s.clk) (r : Nat) : t.div r = s.div r := by
  unfold Io.div
  rw [h]

theorem div_regionRun (r n : Nat) (w : Nat → Nat) (q : Nat) : (s.regionRun r n w).div q = s.div q := by
  have hslots (x : Io) (c k : Nat) : (x.slots r c k).div q = x.div q := by
    have h (x : Io) (f g : Fld) (k : Nat) : x.Within (.acc :: ctrParts) ((x.ctr (pgPmcL r) f k).accAdd (pgPmcL r) g k) :=
      .mono (.seq (within_ctr ..) (within_accAdd ..)) (by decide)
    have h0 := within_setTaken x (x.taken.set 0 r (x.taken.get 0 r - c))
    have h1 (k : Nat) := h0.seq (h _ PMC_SLOT_CYCLES.COUNT PMC_WIN_CYCLES.SLOTS k)
    have hx : x.Within (.taken :: .acc :: ctrParts) (x.slots r c k) := by
      unfold Io.slots
      exact .mono (.cond h0 (.cond ((h1 _).seq (h ..)) (.cond ((h1 _).seq (h ..)) (((h1 _).seq (h ..)).seq (within_accAdd ..))))) (by decide)
    exact clkDiv_congr (hx.same .clk (by decide)) q
  have hctr (x : Io) (c : Nat) : (x.ctr pgClk CLK_SWALLOWn.COUNT c r).div q = x.div q :=
    clkDiv_congr ((within_ctr ..).same .clk (by decide)) q
  unfold Io.regionRun
  dsimp only
  split
  · rw [hslots]
    split
    · rfl
    · exact hctr ..
  · split
    · rfl
    · exact hctr ..

theorem div_ticks (n : Nat) (w : Nat → Nat) (q : Nat) : (s.ticks n w).div q = s.div q := by
  have h (l : List Nat) (x : Io) : (l.foldl (fun s r => s.regionRun r n w) x).div q = x.div q := by
    induction l generalizing x with
    | nil => rfl
    | cons r l ih => rw [List.foldl_cons, ih, div_regionRun]
  rw [ticks_eq, h, clkDiv_congr ((within_ctr ..).same .clk (by decide)), clkDiv_congr ((s.within_advance n).same .clk (by decide))]

theorem div_waitNs (n : Nat) (w : Nat → Nat) (q : Nat) : (s.waitNs n w).div q = s.div q := by
  unfold Io.waitNs
  split
  · rfl
  · exact div_ticks ..

end Io

namespace State

variable (s : State)

theorem keeps_tickN (n : Nat) : KeepsWords tickWord s (s.tickN n) := by
  unfold tickN
  exact .upIo (Io.keeps_ticks ..)

theorem keeps_passNs (n : Nat) : KeepsWords tickWord s (s.passNs n) := by
  unfold passNs
  exact .upIo (Io.keeps_waitNs ..)

theorem keeps_passTo (t : Nat) : KeepsWords tickWord s (s.passTo t) := s.keeps_passNs _

theorem keeps_reach (w m : Nat) : KeepsWords tickWord s (s.reach w m) := by
  unfold reach
  exact .cond (s.keeps_passNs _) (.refl _ _)

theorem div_tickN (n q : Nat) : (s.tickN n).io.div q = s.io.div q := by
  unfold tickN
  rw [upIo_io, Io.div_ticks]

theorem div_passTo (t q : Nat) : (s.passTo t).io.div q = s.io.div q := by
  unfold passTo passNs
  rw [upIo_io, Io.div_waitNs]

end State

end Sys2Proof.Machine
end

section
/-!
SUPPORT. Droop and stretching (R35 to R39): what a sag does to the sensors' words and to the divisors, and a region's return.
-/
namespace Sys2Proof.Machine

/-! ### One bit of a word -/

theorem testBit_or_ofNat (w : W32) {n : Nat} (hn : n < 32) : (w ||| BitVec.ofNat 32 (2 ^ n)).toNat.testBit n = true := by
  rw [BitVec.testBit_toNat, BitVec.getLsbD_or, BitVec.getLsbD_ofNat, Nat.testBit_two_pow_self, decide_eq_true hn, Bool.and_self, Bool.or_true]

theorem testBit_andNot_ofNat (w : W32) {n : Nat} (hn : n < 32) : (w &&& ~~~ BitVec.ofNat 32 (2 ^ n)).toNat.testBit n = false := by
  rw [BitVec.testBit_toNat, BitVec.getLsbD_and, BitVec.getLsbD_not, BitVec.getLsbD_ofNat, Nat.testBit_two_pow_self, decide_eq_true hn]
  simp

namespace Io

variable (s : Io)

/-! ### Sensors -/

/-- The word of the sensors' ACTIVE bits. -/
def activeWord (a : Nat) : Prop := a = pgClk + CLK_DROOP_ACTIVE.ACTIVE.off

theorem seeSag_eq (n mv : Nat) : ∃ v, s.seeSag n mv = s.wr (pgClk + 0x4C) v ∧
    v = if s.get pgClk CLK_DROOP_CFGn.EN n = 1 ∧ s.get pgClk CLK_DROOP_CFGn.TRIP1 n ≠ 0 ∧ 2 * s.get pgClk CLK_DROOP_CFGn.TRIP1 n ≤ mv
        then s.rd (pgClk + 0x4C) ||| BitVec.ofNat 32 (2 ^ n) else s.rd (pgClk + 0x4C) &&& ~~~ BitVec.ofNat 32 (2 ^ n) := ⟨_, rfl, rfl⟩

theorem keeps_seeSag (n mv : Nat) : s.Keeps activeWord (s.seeSag n mv) := by
  obtain ⟨v, e, -⟩ := s.seeSag_eq n mv
  rw [e]
  exact .wr s _ _ rfl

theorem keeps_seeSags (r : Nat) (sag : Nat → Nat) : s.Keeps activeWord (s.seeSags r sag) :=
  .foldl (fun n _ x => x.keeps_seeSag n _) (.refl _ _)

theorem active_sag {n mv : Nat} (hn : n < 32) (hen : s.get pgClk CLK_DROOP_CFGn.EN n = 1) (ht : s.get pgClk CLK_DROOP_CFGn.TRIP1 n ≠ 0)
    (hmv : 2 * s.get pgClk CLK_DROOP_CFGn.TRIP1 n ≤ mv) : ((s.seeSag n mv).rd (pgClk + 0x4C)).toNat.testBit n = true := by
  obtain ⟨v, e, hv⟩ := s.seeSag_eq n mv
  rw [e, rd_wr_same, hv, if_pos ⟨hen, ht, hmv⟩]
  exact testBit_or_ofNat _ hn

theorem calm_sag {n mv : Nat} (hn : n < 32) (h : s.get pgClk CLK_DROOP_CFGn.EN n = 0 ∨ mv < 2 * s.get pgClk CLK_DROOP_CFGn.TRIP1 n) :
    ((s.seeSag n mv).rd (pgClk + 0x4C)).toNat.testBit n = false := by
  obtain ⟨v, e, hv⟩ := s.seeSag_eq n mv
  rw [e, rd_wr_same, hv, if_neg (by omega)]
  exact testBit_andNot_ofNat _ hn

/-! ### Levels -/

theorem sensorLevel_two {n mv : Nat} (hen : s.get pgClk CLK_DROOP_CFGn.EN n = 1) (ht : s.get pgClk CLK_DROOP_CFGn.TRIP1 n ≠ 0)
    (h12 : s.get pgClk CLK_DROOP_CFGn.TRIP1 n < s.get pgClk CLK_DROOP_CFGn.TRIP2 n) (hmv : 2 * s.get pgClk CLK_DROOP_CFGn.TRIP1 n ≤ mv) :
    s.sensorLevel n mv = if 2 * s.get pgClk CLK_DROOP_CFGn.TRIP2 n ≤ mv then 2 else 1 := by
  unfold sensorLevel tripLevel
  rw [if_pos hen]
  have h2 : s.get pgClk CLK_DROOP_CFGn.TRIP2 n ≠ 0 := by omega
  simp only [h2, if_false, Nat.not_le.mpr h12, and_false, ht, hmv, ne_eq, not_false_eq_true, and_self, if_true]

theorem sensorLevel_zero {n mv : Nat} (h : s.get pgClk CLK_DROOP_CFGn.EN n = 0 ∨
    (mv < 2 * s.get pgClk CLK_DROOP_CFGn.TRIP1 n ∧ mv < 2 * s.get pgClk CLK_DROOP_CFGn.TRIP2 n)) : s.sensorLevel n mv = 0 := by
  unfold sensorLevel tripLevel
  rcases h with h | ⟨h1, h2⟩
  · rw [if_neg (by omega)]
  · have h1' : ¬ (2 * s.get pgClk CLK_DROOP_CFGn.TRIP1 n ≤ mv) := by omega
    have h2' : ¬ (2 * s.get pgClk CLK_DROOP_CFGn.TRIP2 n ≤ mv) := by omega
    simp [h1', h2']

/-! ### Divisors -/

theorem div_setDiv (r d q : Nat) : (s.setDiv r d).div q = if q = r then d else s.div q :=
  SMap.get_set s.clk.div (fun _ => 8) d r q

theorem div_episode (r q : Nat) : (s.episode r).div q = s.div q := by
  have h : ({ s with clk := { s.clk with since := s.clk.since.set 0 r s.time.counted } } : Io).div q = s.div q := rfl
  have hb := clkDiv_congr (State.Within.same (within_bump { s with clk := { s.clk with since := s.clk.since.set 0 r s.time.counted } } pgClk
    CLK_STRETCH_EVTn.COUNT 1 r) .clk (by decide)) q
  unfold episode
  dsimp only
  split
  · rw [clkDiv_congr (State.Within.same (within_raise ..) .clk (by decide)), hb, h]
  · rw [hb, h]

/-- The words an episode's start changes: its region's count, and the page's causes (R38, R58). -/
def episodeWord (r a : Nat) : Prop := a = pgClk + 0x10 ∨ a = pgClk + CLK_STRETCH_EVTn.COUNT.off + 4 * r

theorem keeps_episode (r : Nat) : s.Keeps (episodeWord r) (s.episode r) := by
  have hb := Keeps.after (.bump _ pgClk CLK_STRETCH_EVTn.COUNT 1 r rfl (by decide) (.inr rfl)) (Keeps.of_regs (p := episodeWord r) (s := s)
    (t := { s with clk := { s.clk with since := s.clk.since.set 0 r s.time.counted } }) rfl)
  exact .cond (.after (.raise _ pgClk 2 (.inl rfl)) hb) hb

/-- A sag beyond a level, its ACTIVE bit and SEEN bit set: the region's divisor, or only its report. -/
def stretchTo (s : Io) (r d : Nat) (was : Bool) : Io :=
  if r = 10 then (if was then s else s.episode r)
  else if s.div r < d then (if s.div r = 8 then s.episode r else s).setDiv r d else if s.div r = 8 then s.episode r else s

theorem droop_eq {n mv : Nat} (h : s.sensorLevel n mv ≠ 0) : ∃ m was,
    s.droop n mv = stretchTo { ((s.seeSag n mv).wr (pgClk + 0x50) ((s.seeSag n mv).rd (pgClk + 0x50) ||| BitVec.ofNat 32 (2 ^ n))) with
      clk := { (s.seeSag n mv).clk with sensor := m } } (regionOf n) (8 + s.sensorLevel n mv) was := by
  unfold droop
  rw [if_neg h]
  exact ⟨_, _, rfl⟩

theorem keeps_stretchTo (r d : Nat) (was : Bool) : s.Keeps (episodeWord r) (s.stretchTo r d was) := by
  have he : s.Keeps (episodeWord r) (if s.div r = 8 then s.episode r else s) := .cond (s.keeps_episode r) (.refl _ _)
  have hd : s.Keeps (episodeWord r) ((if s.div r = 8 then s.episode r else s).setDiv r d) := he.trans (.of_regs rfl)
  exact .cond (.cond (.refl _ _) (s.keeps_episode r)) (.cond hd he)

theorem div_stretchTo_same {r d : Nat} (hr : r ≠ 10) (was : Bool) : (s.stretchTo r d was).div r = max (s.div r) d := by
  unfold stretchTo
  rw [if_neg hr]
  split
  · rw [div_setDiv, if_pos rfl]
    omega
  · have e : (if s.div r = 8 then s.episode r else s).div r = s.div r := by
      split
      · exact s.div_episode r r
      · rfl
    rw [e]
    omega

theorem div_stretchTo_ne {r q : Nat} (d : Nat) (was : Bool) (h : q ≠ r ∨ q = 10) : (s.stretchTo r d was).div q = s.div q := by
  have e : (if s.div r = 8 then s.episode r else s).div q = s.div q := by
    split
    · exact s.div_episode r q
    · rfl
  unfold stretchTo
  split
  · split
    · rfl
    · exact s.div_episode r q
  · split
    · rw [div_setDiv, if_neg (by omega), e]
    · exact e

/-! ### The return of a region -/

theorem recovered_congr {s t : Io} {r : Nat} (sag : Nat → Nat) (hd : t.div r = s.div r)
    (hw : ∀ k < 32, t.rd (pgClk + 0x80 + 4 * k) = s.rd (pgClk + 0x80 + 4 * k)) : t.recovered r sag = s.recovered r sag := by
  have hg (k : Nat) (hk : k < 32) (f : Fld) (hf : f.off = 0x80 ∧ f.stride = 4 ∧ f.rws = false ∧ f.lo + f.len ≤ 32) :
      t.get pgClk f k = s.get pgClk f k := by
    obtain ⟨ho, hs, hr, hl⟩ := hf
    rw [Io.get_narrow _ _ _ _ hr hl, Io.get_narrow _ _ _ _ hr hl, ho, hs, hw k hk]
  have ha : ∀ k ∈ sensorsOf r, t.above k (t.div r) (sag k) = s.above k (s.div r) (sag k) := by
    intro k hk
    have hk : k < 32 := List.mem_range.mp (List.mem_filter.mp hk).1
    unfold Io.above
    rw [hd, hg k hk CLK_DROOP_CFGn.EN ⟨rfl, rfl, rfl, by decide⟩, hg k hk CLK_DROOP_CFGn.TRIP1 ⟨rfl, rfl, rfl, by decide⟩,
      hg k hk CLK_DROOP_CFGn.TRIP2 ⟨rfl, rfl, rfl, by decide⟩]
  unfold Io.recovered
  rw [Bool.eq_iff_iff, List.all_eq_true, List.all_eq_true]
  exact forall₂_congr fun k hk => by rw [ha k hk]

theorem clk_seeSag (n mv : Nat) : (s.seeSag n mv).clk = s.clk := (within_seeSag ..).same .clk (by decide)
theorem clk_seeSags (r : Nat) (sag : Nat → Nat) : (s.seeSags r sag).clk = s.clk := (within_seeSags ..).same .clk (by decide)
theorem div_seeSags (r : Nat) (sag : Nat → Nat) (q : Nat) : (s.seeSags r sag).div q = s.div q := clkDiv_congr (clk_seeSags ..) q

theorem div_calmReport (sag : Nat → Nat) (q : Nat) : (s.calmReport sag).div q = s.div q := by
  unfold calmReport
  induction sensorsOf 10 generalizing s with
  | nil => rfl
  | cons k l ih =>
    rw [List.foldl_cons, ih]
    split <;> rfl

end Io

/-- A device's divisors after the hold's time and the reading of the sensors; what the region's sensors say is as before. -/
theorem State.recovered_after (s : State) (r n : Nat) (sag : Nat → Nat) :
    ((s.tickN n).upIo fun io => io.seeSags r sag).io.recovered r sag = s.io.recovered r sag ∧
    ∀ q, ((s.tickN n).upIo fun io => io.seeSags r sag).io.div q = s.io.div q := by
  have hd (q : Nat) : ((s.tickN n).upIo fun io => io.seeSags r sag).io.div q = s.io.div q := by
    rw [State.upIo_io, Io.div_seeSags, State.div_tickN]
  refine ⟨Io.recovered_congr sag (hd r) fun k hk => ?_, hd⟩
  have h1 : ¬ Io.activeWord (pgClk + 0x80 + 4 * k) := by
    have e : pgClk + CLK_DROOP_ACTIVE.ACTIVE.off = pgClk + 0x4C := rfl
    unfold Io.activeWord
    omega
  have h2 : ¬ tickWord (pgClk + 0x80 + 4 * k) := by
    have e : pgClk + CLK_SWALLOWn.COUNT.off = pgClk + 0x100 := rfl
    have e1 : pgClk = 0x10000 := rfl
    have e2 : pgPmc = 0x140000 := rfl
    have e3 (p : Nat) : pgPmcL p = 0x1000000 + p * 0x100000 + 0x80000 := rfl
    rintro (h | ⟨p, hp, h⟩ | h)
    · unfold inPage at h
      omega
    · unfold inPage at h
      rw [e3] at h
      omega
    · omega
  exact (((s.tickN n).io.keeps_seeSags r sag).rd _ h1).trans (s.keeps_tickN n _ h2)

/-! ### The events -/

/-- A sag beyond the first level: ACTIVE and SEEN are set, and the region's divisor is at least the level's (R35). -/
theorem droopTrip_stretches {s : State} {n : Fin 32} {mv : Nat} (hon : s.on = true) (hen : s.get pgClk CLK_DROOP_CFGn.EN n.val = 1)
    (ht : s.get pgClk CLK_DROOP_CFGn.TRIP1 n.val ≠ 0)
    (h12 : s.get pgClk CLK_DROOP_CFGn.TRIP1 n.val < s.get pgClk CLK_DROOP_CFGn.TRIP2 n.val)
    (hmv : 2 * s.get pgClk CLK_DROOP_CFGn.TRIP1 n.val ≤ mv) :
    Completes (.droopTrip n mv) s (fun t =>
      (t.io.rd (pgClk + CLK_DROOP_ACTIVE.ACTIVE.off)).toNat.testBit n.val = true ∧
      (t.io.rd (pgClk + CLK_DROOP_STICKY.SEEN.off)).toNat.testBit n.val = true ∧
      (regionOf n.val ≠ 10 → t.io.div (regionOf n.val)
        = max (s.io.div (regionOf n.val)) (if 2 * s.get pgClk CLK_DROOP_CFGn.TRIP2 n.val ≤ mv then 10 else 9)) ∧
      (∀ r, r ≠ regionOf n.val ∨ r = 10 → t.io.div r = s.io.div r) ∧ OnlyIo s t ∧ t.io.bank = s.io.bank ∧
      KeepsWords (fun a => a = pgClk + 0x10 ∨ a = pgClk + CLK_DROOP_ACTIVE.ACTIVE.off ∨ a = pgClk + CLK_DROOP_STICKY.SEEN.off ∨
        a = pgClk + CLK_STRETCH_EVTn.COUNT.off + 4 * regionOf n.val) s t) := by
  have hl := s.io.sensorLevel_two hen ht h12 hmv
  obtain ⟨m, was, hd⟩ := s.io.droop_eq (n := n.val) (mv := mv) (by rw [hl]; split <;> decide)
  refine .live_eq (f := fun s => s.upIo fun io => io.droop n.val mv) rfl hon rfl (by simp) ?_
  rw [State.upIo_io]
  have hsee := s.io.keeps_seeSag n.val mv
  have hact := s.io.active_sag n.isLt hen ht hmv
  have hclk := s.io.clk_seeSag n.val mv
  have hbank : (s.io.droop n.val mv).bank = s.io.bank := (Io.within_droop ..).same .bank (by decide)
  have hio : OnlyIo s (s.upIo fun io => io.droop n.val mv) := OnlyIo.upIo s _
  have hev : CLK_STRETCH_EVTn.COUNT.off = 0x180 := rfl
  generalize s.io.seeSag n.val mv = x at hd hsee hact hclk
  set y : Io := { x.wr (pgClk + 0x50) (x.rd (pgClk + 0x50) ||| BitVec.ofNat 32 (2 ^ n.val)) with clk := { x.clk with sensor := m } } with hy
  have hyd (q : Nat) : y.div q = s.io.div q := (show y.div q = x.div q from rfl).trans (Io.clkDiv_congr hclk q)
  have hrd (a : Nat) : y.rd a = (x.wr (pgClk + 0x50) (x.rd (pgClk + 0x50) ||| BitVec.ofNat 32 (2 ^ n.val))).rd a := rfl
  have hk := y.keeps_stretchTo (regionOf n.val) (8 + s.io.sensorLevel n.val mv) was
  refine ⟨?_, ?_, fun hr => ?_, fun r hr => ?_, hio, hbank, fun a ha => ?_⟩
  · rw [hd, hk.rd _ (by unfold Io.episodeWord; rw [hev]; change ¬ (pgClk + 0x4C = _ ∨ pgClk + 0x4C = _); omega), hrd,
      Io.rd_wr_ne _ _ (by decide)]
    exact hact
  · rw [hd, hk.rd _ (by unfold Io.episodeWord; rw [hev]; change ¬ (pgClk + 0x50 = _ ∨ pgClk + 0x50 = _); omega), hrd]
    exact (congrArg (fun w : W32 => w.toNat.testBit n.val) (Io.rd_wr_same ..)).trans (testBit_or_ofNat _ n.isLt)
  · rw [hd, Io.div_stretchTo_same _ hr, hyd, hl, apply_ite (8 + ·)]
    rfl
  · rw [hd, Io.div_stretchTo_ne _ _ _ hr, hyd]
  · simp only [not_or] at ha
    obtain ⟨h1, h2, h3, h4⟩ := ha
    rw [State.upIo_io, hd, hk.rd a (by unfold Io.episodeWord; omega), hrd]
    exact (Io.rd_wr_ne x _ h3).trans (hsee.rd a h2)

theorem droopTrip_passes {s : State} {n : Fin 32} {mv : Nat} (hon : s.on = true) (h : s.get pgClk CLK_DROOP_CFGn.EN n.val = 0 ∨
    (mv < 2 * s.get pgClk CLK_DROOP_CFGn.TRIP1 n.val ∧ mv < 2 * s.get pgClk CLK_DROOP_CFGn.TRIP2 n.val)) :
    Completes (.droopTrip n mv) s (fun t =>
      (t.io.rd (pgClk + CLK_DROOP_ACTIVE.ACTIVE.off)).toNat.testBit n.val = false ∧ OnlyRegs s t ∧
      KeepsWords (· = pgClk + CLK_DROOP_ACTIVE.ACTIVE.off) s t) := by
  have e : s.io.droop n.val mv = s.io.seeSag n.val mv := if_pos (s.io.sensorLevel_zero h)
  have hs : (s.upIo fun io => io.droop n.val mv) = s.upIo fun io => io.seeSag n.val mv  :=
    State.upIo_congr e
  exact .live_eq (f := fun s => s.upIo fun io => io.droop n.val mv) rfl hon hs (by simp)
    ⟨s.io.calm_sag n.isLt (h.imp_right And.left), .of_within (.upIo (Io.within_seeSag ..)), (s.io.keeps_seeSag n.val mv).rd⟩

/-- A region at ÷8 only has its sensors read (R36). -/
theorem divisorReturn_unstretched {s : State} {r : Fin 11} (sags : List Nat) (hon : s.on = true) (hd : s.io.div r.val = 8) (hr : r.val ≠ 10) :
    Completes (.divisorReturn r sags) s (fun t => OnlyRegs s t ∧ KeepsWords (· = pgClk + CLK_DROOP_ACTIVE.ACTIVE.off) s t) :=
  .live_eq (f := fun s => s.divisorReturn r.val fun k => sags.getD k 0) rfl hon ((if_neg hr).trans (if_pos hd)) (by simp)
    ⟨.of_within (.upIo (Io.within_seeSags ..)), (s.io.keeps_seeSags r.val _).rd⟩

theorem State.divisorReturn_stretched {s : State} {r : Nat} (sag : Nat → Nat) (hd : s.io.div r ≠ 8) (hr : r ≠ 10) : ∃ n, s.divisorReturn r sag =
    if s.io.recovered r sag = true then ((s.tickN n).upIo fun io => io.seeSags r sag).upIo fun io => (io.setDiv r (s.io.div r - 1)).settle r (s.io.div r - 1)
    else (s.tickN n).upIo fun io => io.seeSags r sag := by
  refine ⟨ceilDiv ((64 - s.io.clk.hold.get 0 r) * s.io.div r) 8, ?_⟩
  unfold State.divisorReturn
  rw [if_neg hr, if_neg hd]
  dsimp only
  rw [(s.recovered_after r _ sag).1]

theorem OnlyIo.divisorReturn (s : State) (r : Nat) (sag : Nat → Nat) : OnlyIo s (s.divisorReturn r sag) :=
  .of_within ((State.within_divisorReturn ..).mono (by decide))

/-- A region that has not recovered, and the one that only reports, keep every divisor (R34, R36). -/
theorem divisorReturn_waits {s : State} {r : Fin 11} (sags : List Nat) (hon : s.on = true)
    (h : r.val = 10 ∨ s.io.recovered r.val (fun k => sags.getD k 0) = false) :
    Completes (.divisorReturn r sags) s (fun t => (∀ q, t.io.div q = s.io.div q) ∧ OnlyIo s t) := by
  refine .live_eq (f := fun s => s.divisorReturn r.val fun k => sags.getD k 0) rfl hon rfl
    ((State.within_divisorReturn ..).same .pending (by decide)) ⟨fun q => ?_, .divisorReturn ..⟩
  by_cases hr : r.val = 10
  · rw [State.divisorReturn, if_pos hr, State.upIo_io, Io.div_calmReport, Io.div_seeSags]
  · have h := h.resolve_left hr
    by_cases hd : s.io.div r.val = 8
    · rw [State.divisorReturn, if_neg hr, if_pos hd, State.upIo_io, Io.div_seeSags]
    · obtain ⟨n, e⟩ := State.divisorReturn_stretched (fun k => sags.getD k 0) hd hr
      rw [e, if_neg (by rw [h]; decide)]
      exact (s.recovered_after r.val n _).2 q

/-- A recovered region returns one step, and no other does (R36). -/
theorem divisorReturn_returns {s : State} {r : Fin 11} (sags : List Nat) (hon : s.on = true) (hd : s.io.div r.val ≠ 8)
    (hr : r.val ≠ 10) (h : s.io.recovered r.val (fun k => sags.getD k 0) = true) :
    Completes (.divisorReturn r sags) s (fun t =>
      t.io.div r.val = s.io.div r.val - 1 ∧ (∀ q, q ≠ r.val → t.io.div q = s.io.div q) ∧ OnlyIo s t) := by
  obtain ⟨n, e⟩ := State.divisorReturn_stretched (fun k => sags.getD k 0) hd hr
  rw [if_pos h] at e
  have hdiv (q : Nat) : (s.divisorReturn r.val fun k => sags.getD k 0).io.div q = if q = r.val then s.io.div r.val - 1 else s.io.div q := by
    rw [e, State.upIo_io, ← (s.recovered_after r.val n (fun k => sags.getD k 0)).2 q]
    exact Io.div_setDiv ..
  refine .live_eq (f := fun s => s.divisorReturn r.val fun k => sags.getD k 0) rfl hon rfl
    ((State.within_divisorReturn ..).same .pending (by decide)) ⟨?_, fun q hq => ?_, .divisorReturn ..⟩
  · rw [hdiv, if_pos rfl]
  · rw [hdiv, if_neg hq]

/-! ### LIMIT_US -/

/-- The words of the global Pip's counters, and of the page that notes overflows. -/
def pipWord (a : Nat) : Prop := inPage (pgPip 8) a ∨ inPage pgPmc a

theorem State.keeps_ctr_pip (s : State) (f : Fld) (hf : f.off + 8 ≤ 0x1000) : KeepsWords pipWord s (s.ctr (pgPip 8) f) :=
  .ctr s _ f 1 0 (.inl (by unfold inPage; omega)) (.inl (by unfold inPage; omega)) fun _ => .inr

theorem State.keeps_post (s : State) (evt : Nat) (data : List Nat) : KeepsWords pipWord s (s.post evt data) := by
  unfold State.post
  exact .cond (.refl _ _) (.cond (s.keeps_ctr_pip _ (by decide)) (.of_regs rfl _))

theorem State.keeps_restart (s : State) (c : Nat) : KeepsWords pipWord s (s.restart 8 c) := by
  unfold State.restart
  extract_lets x s0 s1
  have h1 : s.Within [.act, .pip, .pip] s1 := .after (within_setCtx ..) (.after (within_unlockCtx ..) (within_natUndo ..))
  exact .after (keeps_ctr_pip _ _ (by decide)) (.of_within h1 (by decide))

theorem State.keeps_urgentAll (s : State) : KeepsWords pipWord s s.urgentAll := by
  have hu (x : State) (c : Nat) (f : Ctx → Ctx) : KeepsWords pipWord x (x.upCtx 8 c f) := .of_within (within_upCtx ..) (by decide)
  refine .foldl (fun c _ x => ?_) (.refl _ _)
  exact .cond (.refl _ _) (.cond (.after (keeps_ctr_pip _ _ (by decide)) (hu _ _ _)) (.after (hu _ _ _) (x.keeps_restart c)))

theorem State.Within.eq_ioActPip {s t : State} (h : s.Within (ioParts ++ [.act, .pip]) t) : t = { s with io := t.io, act := t.act, pip := t.pip } := h.eq

/-- Past LIMIT_US time has passed, the cause is raised and its event posted, and the running routines may have been told (R39, R251). -/
theorem State.stretchLimit_cases {s : State} {q : Nat} (hq : s.io.div q ≠ 8) : ∃ n, s.stretchLimit q = (((s.passTo n).raise pgClk 3).post 0x15 []) ∨
    s.stretchLimit q = (((s.passTo n).raise pgClk 3).post 0x15 []).urgentAll := by
  unfold State.stretchLimit
  rw [if_neg hq]
  exact ⟨s.io.clk.since.get 0 q + 1000 * max 1 (s.get pgClk CLK_STRETCH_LIMIT.LIMIT_US) + 1, (ite_eq_or_eq ..).symm⟩

theorem State.cause_stretchLimit {s : State} {q : Nat} (hq : s.io.div q ≠ 8) : (s.stretchLimit q).io.cause pgClk 3 = true := by
  obtain ⟨n, h⟩ := stretchLimit_cases hq
  have hn : ¬ pipWord (pgClk + 0x10) := by unfold pipWord inPage; decide
  have hc : ((s.passTo n).raise pgClk 3).io.cause pgClk 3 = true := State.cause_raise _ _ (by decide)
  have ht := (KeepsWords.cause (((s.passTo n).raise pgClk 3).keeps_post 0x15 []) pgClk 3 hn).trans hc
  rcases h with h | h <;> rw [h]
  · exact ht
  · exact (KeepsWords.cause (keeps_urgentAll _) pgClk 3 hn).trans ht

theorem State.div_stretchLimit {s : State} {q : Nat} (hq : s.io.div q ≠ 8) (k : Nat) : (s.stretchLimit q).io.div k = s.io.div k := by
  obtain ⟨n, h⟩ := stretchLimit_cases hq
  have h1 := Io.clkDiv_congr ((within_raise (s.passTo n) pgClk 3).same .clk (by decide)) k
  have h2 := Io.clkDiv_congr ((within_post ((s.passTo n).raise pgClk 3) 0x15 []).same .clk (by decide)) k
  have ht := (h2.trans h1).trans (s.div_passTo n k)
  rcases h with h | h <;> rw [h]
  · exact ht
  · exact (Io.clkDiv_congr ((within_urgentAll _).same .clk (by decide)) k).trans ht

theorem State.stretchLimit_frame (s : State) (q : Nat) :
    s.stretchLimit q = { s with io := (s.stretchLimit q).io, act := (s.stretchLimit q).act, pip := (s.stretchLimit q).pip } :=
  ((State.within_stretchLimit ..).mono (by decide)).eq_ioActPip

/-- Settles O19: a sag and a return of a region are operations on `io` that set one region's divisor; at the limit nothing but time, a
cause and the routines of the global Pip is touched. -/
theorem droopStretchAndReturn : Obligations.DroopStretchAndReturn := by
  refine ⟨fun s n mv hon => ⟨droopTrip_stretches hon, droopTrip_passes hon⟩, fun s r sags hon =>
    ⟨divisorReturn_unstretched sags hon, divisorReturn_waits sags hon, fun hd => divisorReturn_returns sags hon (by omega),
      fun q hq => ?_, fun q hq => .live (f := fun s => s.stretchLimit q.val) rfl (if_pos hq)⟩⟩
  exact .live_eq (f := fun s => s.stretchLimit q.val) rfl hon rfl ((State.within_stretchLimit ..).same .pending (by decide))
    ⟨State.cause_stretchLimit hq, State.div_stretchLimit hq, s.stretchLimit_frame q.val⟩

end Sys2Proof.Machine
end

section
/-!
SUPPORT. Writes of a page's common header (R69, R71): what the count of a pipeline's fabric traffic adds to them, and what each leaves.
-/
namespace Sys2Proof.Machine

/-- The words the counts of a pipeline's fabric traffic may change: its counter page beyond the header, and the page that notes
overflows (R358, R362). -/
def fabWord (a : Nat) : Prop := inPage pgPmc a ∨ ∃ p < 8, pgPmcL p + 0x40 ≤ a ∧ a < pgPmcL p + 0x1000

/-- Fabric traffic was counted, and nothing else happened. -/
structure FabCounted (s t : State) : Prop where
  within : s.Within ctrParts t
  keeps : KeepsWords fabWord s t

theorem FabCounted.refl (s : State) : FabCounted s s := ⟨.mono (.refl _) (by decide), .refl _ s⟩

namespace Io

variable (s : Io)

theorem keeps_ctr_fab {p : Nat} (hp : p < 8) (f : Fld) (n i : Nat) (hf : 0x40 ≤ f.off ∧ f.off + f.stride * i + 8 ≤ 0x1000) :
    s.Keeps fabWord (s.ctr (pgPmcL p) f n i) :=
  .ctr s _ f n i (.inr ⟨p, hp, by omega, by omega⟩) (.inr ⟨p, hp, by omega, by omega⟩) fun _ => .inl

theorem keeps_filtered {p : Nat} (hp : p < 8) (e : Evt) : s.Keeps fabWord (s.filtered p e) := by
  refine .foldl (fun f hf x => .cond (x.keeps_ctr_fab hp _ _ _ ?_) (.refl _ _)) (.refl _ _)
  have hf := List.mem_range.mp hf
  have e1 : PMC_FLT_COUNTf.COUNT.stride = 16 := rfl
  rw [e1]
  have e2 : PMC_FLT_COUNTf.COUNT.off + 16 * 16 ≤ 0x1000 ∧ 0x40 ≤ PMC_FLT_COUNTf.COUNT.off := by decide
  omega

theorem keeps_event {p : Nat} (hp : p < 8) (f : Fld) (e : Evt) (hf : 0x40 ≤ f.off ∧ f.off + 8 ≤ 0x1000) :
    s.Keeps fabWord (s.event p (pgPmcL p) f e) :=
  .after (keeps_filtered _ hp e) (s.keeps_ctr_fab hp f _ 0 ⟨hf.1, by omega⟩)

end Io

theorem pipeOfAddr_lt {a p : Nat} (h : pipeOfAddr a = some p) : p < 8 := by
  unfold pipeOfAddr at h
  split at h
  · have := Option.some.inj h
    omega
  · exact absurd h (by simp)

theorem State.fabCounted_fabCount (s : State) (m a : Nat) (w : Bool) : FabCounted s (s.fabCount m a w) := by
  refine ⟨.mono (within_fabCount ..) (by decide), ?_⟩
  unfold State.fabCount
  split
  · exact .refl _ s
  next p hp =>
    have hp := pipeOfAddr_lt hp
    exact .upIo (.cond (s.io.keeps_event hp _ _ (by decide)) (s.io.keeps_event hp _ _ (by decide)))

theorem State.fabCounted_fabErr (s : State) (m a b : Nat) (f : State → State) : FabCounted (f s) (s.fabErr m a b f) := by
  unfold State.fabErr
  dsimp only
  split
  · exact .refl _
  next p hp =>
    have hp := pipeOfAddr_lt hp
    split
    · exact .refl _
    · exact ⟨.mono (.upIo (Io.within_filtered ..)) (by decide), .upIo (Io.keeps_filtered _ hp _)⟩

/-- A page of a pipeline begins at a multiple of 0x1000. -/
theorem pipe_aligned {pg : Page} {a : Nat} (h : pageOf a = some pg) (hl : 0x1000000 ≤ pg.base) (hu : pg.base < 0x1800000) :
    pg.base % 0x1000 = 0 := by
  have hq := (pageOf_some h).again 0 (by decide)
  have e : pg.base + 0 = pipeBase ((pg.base - 0x1000000) / 0x100000) + pg.base % 0x100000 := by unfold pipeBase; omega
  rw [e, pageOf_pipe (by omega) (by omega)] at hq
  have hb := (pipePage_some hq).1
  have h0 : pipeBase ((pg.base - 0x1000000) / 0x100000) = 0x1000000 + (pg.base - 0x1000000) / 0x100000 * 0x100000 := rfl
  omega

theorem pipeOfAddr_isSome {a : Nat} (h : pipeOfAddr a ≠ none) : 0x1000000 ≤ a ∧ a < 0x1800000 := by
  unfold pipeOfAddr at h
  by_contra hc
  exact h (if_neg hc)

/-- Header registers of a pipeline's page are no words of these counts. -/
theorem header_not_fab {pg : Page} {a o : Nat} (h : pageOf a = some pg) (hp : pipeOfAddr pg.base ≠ none) (ho : o < 0x40) :
    ¬ fabWord (pg.base + o) := by
  obtain ⟨h1, h2⟩ := pipeOfAddr_isSome hp
  have ha := pipe_aligned h h1 h2
  have hpmc : pgPmc = 0x140000 := rfl
  have hl (p : Nat) : pgPmcL p = 0x1000000 + p * 0x100000 + 0x80000 := rfl
  rintro (⟨h3, h4⟩ | ⟨p, hp, h3, h4⟩)
  · omega
  · rw [hl] at h3 h4
    omega

theorem below_not_fab {a : Nat} (ha : a < pgPmc) : ¬ fabWord a := by
  have hpmc : pgPmc = 0x140000 := rfl
  have hl (p : Nat) : pgPmcL p = 0x1000000 + p * 0x100000 + 0x80000 := rfl
  rintro (⟨h3, _⟩ | ⟨p, _, h3, _⟩)
  · omega
  · rw [hl] at h3
    omega

theorem pipeOfAddr_header {pg : Page} {a o : Nat} (h : pageOf a = some pg) (ho : o < 0x40) : pipeOfAddr (pg.base + o) = pipeOfAddr pg.base := by
  have h2 := (pageOf_some h).aligned
  have e : (pg.base + o - 0x1000000) / 0x100000 = (pg.base - 0x1000000) / 0x100000 := by omega
  unfold pipeOfAddr
  rw [e]
  by_cases hc : 0x1000000 ≤ pg.base ∧ pg.base < 0x1800000
  · rw [if_pos hc, if_pos (by omega)]
  · rw [if_neg hc, if_neg (by omega)]

/-- A page's state of boot stands while fabric traffic is counted. -/
theorem FabCounted.ready {s x : State} (h : FabCounted s x) (k : Kind) : x.io.ready k = s.io.ready k := by
  have e : x.io.step = s.io.step := State.get_of_rd pgSys SYS_BOOT_STAT.STEP 0 rfl (by decide) (h.keeps _ (below_not_fab (by decide)))
  unfold Io.ready
  rw [e]

/-- Nothing but counters changed, and no word of the page's header. -/
structure HeaderKept (pg : Page) (s t : State) : Prop where
  within : s.Within ctrParts t
  word : ∀ o < 0x40, t.io.rd (pg.base + o) = s.io.rd (pg.base + o)
  below : ∀ a < pgPmc, t.io.rd a = s.io.rd a

theorem FabCounted.header {s t : State} (h : FabCounted s t) {pg : Page} {a : Nat} (hp : pageOf a = some pg)
    (hn : pipeOfAddr pg.base ≠ none) : HeaderKept pg s t := 
  ⟨h.within, fun _ ho => h.keeps _ (header_not_fab hp hn ho), fun _ ha => h.keeps _ (below_not_fab ha)⟩

theorem HeaderKept.get {pg : Page} {s t : State} (h : HeaderKept pg s t) (f : Fld) (hf : f.off < 0x40 ∧ f.rws = false ∧ f.lo + f.len ≤ 32) :
    t.get pg.base f = s.get pg.base f :=
  State.get_of_rd pg.base f 0 hf.2.1 hf.2.2 (h.word _ hf.1)

/-- A write of a header register of a page that takes it: fabric traffic of a pipeline is counted before and after. -/
theorem State.pageWrite_head {s : State} {m a o v : Nat} {pg : Page} {h : Hit} (hp : pageOf a = some pg) (hs : s.stranger pg m = false)
    (hr : s.io.ready pg.kind = true) (hk : pg.kind ≠ .mbxch) (hh : pg.kind.regAt o = some h) (ho : o < 0x40) :
    ∃ x, HeaderKept pg s x ∧ HeaderKept pg (x.wHead pg o v) (s.pageWrite m a o v) ∧
      (pipeOfAddr pg.base = none → s.pageWrite m a o v = s.wHead pg o v) := by
  have hq := (pageOf_some hp).again o (by omega)
  have ho' : pg.base + o - pg.base = o := by omega
  have hw (x : State) (hx : FabCounted s x) : x.wPage pg o m v = x.wHead pg o v := by
    unfold State.wPage
    rw [hx.ready, hr, hh]
    simp only [Bool.not_true, Bool.false_eq_true, if_false, hk, false_and, ho, if_true]
    rw [if_neg (by omega)]
  have he : s.pageWrite m a o v = if o = 0x020 then (s.fabCount m (pg.base + o) true).wPage pg o m v
      else (s.fabCount m (pg.base + o) true).fabErr m (pg.base + o) pg.base fun s => s.wPage pg o m v := by
    unfold State.pageWrite
    rw [hp]
    dsimp only
    unfold State.fabricWrite
    rw [hq]
    dsimp only
    rw [ho', if_neg (by rw [hs]; decide)]
  by_cases hn : pipeOfAddr pg.base = none
  · have hn' : pipeOfAddr (pg.base + o) = none := (pipeOfAddr_header hp ho).trans hn
    have e : s.pageWrite m a o v = s.wHead pg o v := by
      rw [he, State.fabCount_none _ _ _ hn', State.fabErr_none _ _ _ _ hn', hw s (.refl s), ite_self]
    have hrefl (x : State) : HeaderKept pg x x := ⟨(FabCounted.refl x).within, fun _ _ => rfl, fun _ _ => rfl⟩
    exact ⟨s, hrefl s, e ▸ hrefl _, fun _ => e⟩
  · refine ⟨s.fabCount m (pg.base + o) true, (s.fabCounted_fabCount ..).header hp hn, ?_, fun h => absurd h hn⟩
    have hx := s.fabCounted_fabCount m (pg.base + o) true
    have hf := State.fabCounted_fabErr (s.fabCount m (pg.base + o) true) m (pg.base + o) pg.base fun s => s.wPage pg o m v
    rw [hw _ hx] at hf
    rw [he, hw _ hx]
    split
    · exact (FabCounted.refl _).header hp hn
    · exact hf.header hp hn

/-- The registers of the common header are the same for every page. -/
theorem regAt_header (k : Kind) {o : Nat} (ho : o < 0x40) : k.regAt o = findRow rowsHDR o := if_pos ho

theorem HeaderKept.refl (pg : Page) (s : State) : HeaderKept pg s s := ⟨(FabCounted.refl s).within, fun _ _ => rfl, fun _ _ => rfl⟩

/-- A command that writes a header register of a page that takes it. -/
theorem headerWrite_completes {c : Instr} {s : State} {m a o : Nat} {v : State → Nat} {pg : Page} {h : Hit} {P : State → Prop}
    (hx : exec c s = s.live fun s => s.pageWrite m a o (v s)) (hon : s.on = true) (hp : pageOf a = some pg)
    (hs : s.stranger pg m = false) (hr : s.io.ready pg.kind = true) (hk : pg.kind ≠ .mbxch) (hh : findRow rowsHDR o = some h) (ho : o < 0x40)
    (hP : ∀ x t, HeaderKept pg s x → HeaderKept pg (x.wHead pg o (v s)) t → (pipeOfAddr pg.base = none → t = s.wHead pg o (v s)) → P t) :
    Completes c s P := by
  obtain ⟨x, hxs, ht, he⟩ := State.pageWrite_head (m := m) (v := v s) hp hs hr hk ((regAt_header _ ho).trans hh) ho
  refine .live_eq hx hon rfl ?_ (hP x _ hxs ht he)
  have h1 : (s.pageWrite m a o (v s)).pending = (x.wHead pg o (v s)).pending := ht.within.same .pending (by decide)
  have h2 : (x.wHead pg o (v s)).pending = x.pending := (State.within_wHead ..).same .pending (by decide)
  exact h1.trans (h2.trans (hxs.within.same .pending (by decide)))

end Sys2Proof.Machine
end

section
/-!
SUPPORT. GO, ABORT and the arming of pages (R52 to R57).
-/
namespace Sys2Proof.Machine

theorem pgEpc_eq : pgEpc = 0x20000 := rfl

theorem pipeOfAddr_epc {o : Nat} (ho : o < 0x1000) : pipeOfAddr (pgEpc + o) = none := if_neg (by have := pgEpc_eq; omega)

/-- A write of a register of EPC that its page takes. -/
theorem State.fabricWrite_epc {s : State} {m o v : Nat} {h : Hit} (ht : s.takesWrite m (pgEpc + o) = true) (hm : ctlMaster m = true)
    (ho : 0x40 ≤ o ∧ o < 0x1000) (hh : Kind.epc.regAt o = some h) :
    s.fabricWrite m (pgEpc + o) v = if o = 0x040 then s.epochCfg ⟨.epc, 0, pgEpc⟩ h m v
      else if o = 0x054 then s.upIo fun io => io.rateAdj m v s.follower
      else if o = 0x060 then s.stepCtl m v else if o = 0x068 then s.commitCtl m v else s.plain ⟨.epc, 0, pgEpc⟩ h o m v := by
  have e : pgEpc + o - pgEpc = o := by omega
  rw [State.fabricWrite_body ht (pageOf_epc ho.2) (by decide) (by rw [e]; exact hh) (by rw [e]; exact ho.1) (pipeOfAddr_epc ho.2), e]
  unfold State.wBody State.wEpc
  rw [hm]
  rfl

theorem State.fabricWrite_commitCtl {s : State} {m : Nat} (v : Nat) (ht : s.takesWrite m (pgEpc + EPC_COMMIT_CTL.GO.off) = true)
    (hm : ctlMaster m = true) : s.fabricWrite m (pgEpc + EPC_COMMIT_CTL.GO.off) v = s.commitCtl m v :=
  fabricWrite_epc ht hm (by decide) (h := _) rfl

/-! ### GO and ABORT -/

/-- The commit armed for `e`, or none. -/
def Io.setArmed (s : Io) (e : Option Nat) : Io := { s with time := { s.time with armed := e } }

theorem Io.within_setArmed (s : Io) (e : Option Nat) : s.Within [.time] (s.setArmed e) := Io.within_setTime ..

theorem State.Within.eq_regsTime {s t : State} (h : s.Within [.regs, .time] t) :
    t = { s with io := { s.io with regs := t.io.regs, time := t.io.time } } := h.eq

theorem State.Within.eq_armed {s t : State} {e : Option Nat} (h : s.Within [.regs, .time] t) (ht : t.io.time = { s.io.time with armed := e }) :
    t = { s with io := { s.io with regs := t.io.regs, time := { s.io.time with armed := t.io.time.armed } } } := by
  have ha : t.io.time.armed = e := congrArg TimeBase.armed ht
  rw [ha]
  exact h.eq_regsTime.trans (congrArg (fun x => ({ s with io := { s.io with regs := t.io.regs, time := x } } : State)) ht)

theorem Io.commitGo_late {s : Io} (h : aheadOf (s.get pgEpc EPC_COMMIT_TARGET.TARGET) (s.get pgEpc EPC_EPOCH_NUM.NUM) = false) :
    s.commitGo = (s.put pgEpc EPC_COMMIT_STAT.STATE 3).raise pgEpc 2 := by
  unfold Io.commitGo
  dsimp only
  rw [h]
  exact if_pos rfl

section
variable {s : Io} (h : 2 ≤ subMod 32 (s.get pgEpc EPC_COMMIT_TARGET.TARGET) (s.get pgEpc EPC_EPOCH_NUM.NUM))
  (h' : subMod 32 (s.get pgEpc EPC_COMMIT_TARGET.TARGET) (s.get pgEpc EPC_EPOCH_NUM.NUM) < 2 ^ 31)
include h h'

theorem Io.commitGo_ahead : s.commitGo = if s.time.armed.isSome = true then s.put pgEpc EPC_COMMIT_STAT.STATE 4
    else (s.setArmed (some (s.get pgEpc EPC_COMMIT_TARGET.TARGET))).put pgEpc EPC_COMMIT_STAT.STATE 1 := by
  have ha : aheadOf (s.get pgEpc EPC_COMMIT_TARGET.TARGET) (s.get pgEpc EPC_EPOCH_NUM.NUM) = true := by
    unfold aheadOf
    simp only [Bool.and_eq_true, decide_eq_true_eq]
    omega
  have hn : (subMod 32 (s.get pgEpc EPC_COMMIT_TARGET.TARGET) (s.get pgEpc EPC_EPOCH_NUM.NUM) == 1) = false :=
    beq_false_of_ne (by omega)
  unfold Io.commitGo
  dsimp only
  rw [ha, hn]
  exact if_neg (by simp)

end

theorem Io.commitAbort_armed {s : Io} (h : s.time.armed.isSome = true) :
    s.commitAbort = ((s.setArmed none).put pgEpc EPC_COMMIT_STAT.STATE 5).raise pgEpc 2 := if_pos h

theorem State.commitCtl_go {s : State} (m : Nat) (h : s.cascOn = false) : s.commitCtl m 1 = s.upIo fun io => io.commitGo := by
  unfold State.commitCtl
  rw [h]
  rfl

section
variable {s : State} {m : Master} (hon : s.on = true) (ht : s.takesWrite m.id (pgEpc + EPC_COMMIT_CTL.GO.off) = true)
  (hm : ctlMaster m.id = true)
include hon ht hm

theorem commitGo_runs (hc : s.cascOn = false) {P : State → Prop} (h : P (s.upIo fun io => io.commitGo)) : Completes (.commitGo m) s P :=
  .live_eq (f := fun s => s.fabricWrite m.id (pgEpc + EPC_COMMIT_CTL.GO.off) 1) rfl hon
    ((s.fabricWrite_commitCtl 1 ht hm).trans (s.commitCtl_go m.id hc)) (by simp) h

theorem commitAbort_runs {P : State → Prop} (h : P (s.upIo fun io => io.commitAbort)) : Completes (.commitAbort m) s P :=
  .live_eq (f := fun s => s.fabricWrite m.id (pgEpc + EPC_COMMIT_CTL.ABORT.off) 2) (t := s.upIo fun io => io.commitAbort) rfl hon
    ((s.fabricWrite_commitCtl 2 ht hm).trans (if_pos rfl)) (by simp) h

/-- GO for a target ahead, with none armed, arms it (R54). -/
theorem commitGo_arms (hc : s.cascOn = false) (h : 2 ≤ subMod 32 (s.get pgEpc EPC_COMMIT_TARGET.TARGET) (s.get pgEpc EPC_EPOCH_NUM.NUM))
    (h' : subMod 32 (s.get pgEpc EPC_COMMIT_TARGET.TARGET) (s.get pgEpc EPC_EPOCH_NUM.NUM) < 2 ^ 31) (hn : s.io.time.armed = none) :
    Completes (.commitGo m) s (fun t =>
      t.io.time.armed = some (s.get pgEpc EPC_COMMIT_TARGET.TARGET) ∧ t.get pgEpc EPC_COMMIT_STAT.STATE = 1 ∧
      t = { s with io := { s.io with regs := t.io.regs, time := { s.io.time with armed := t.io.time.armed } } } ∧
      KeepsWords (· = pgEpc + EPC_COMMIT_STAT.STATE.off) s t) := by
  have e := (s.io.commitGo_ahead h h').trans (if_neg (by simp [hn]))
  refine commitGo_runs hon ht hm hc ?_
  rw [State.upIo_congr (g := fun _ => (s.io.setArmed (some (s.get pgEpc EPC_COMMIT_TARGET.TARGET))).put pgEpc EPC_COMMIT_STAT.STATE 1) e]
  have htime : ((s.io.setArmed (some (s.get pgEpc EPC_COMMIT_TARGET.TARGET))).put pgEpc EPC_COMMIT_STAT.STATE 1).time
      = (s.io.setArmed (some (s.get pgEpc EPC_COMMIT_TARGET.TARGET))).time := (Io.within_put ..).same .time (by decide)
  have hw := State.Within.upIo (s := s) (f := fun _ => (s.io.setArmed (some (s.get pgEpc EPC_COMMIT_TARGET.TARGET))).put pgEpc EPC_COMMIT_STAT.STATE 1)
    (.mono (G := [.regs, .time]) (.after (Io.within_put ..) (s.io.within_setArmed _)) (by decide))
  have hk := KeepsWords.upIo (p := (· = pgEpc + EPC_COMMIT_STAT.STATE.off)) (s := s)
    (f := fun _ => (s.io.setArmed (some (s.get pgEpc EPC_COMMIT_TARGET.TARGET))).put pgEpc EPC_COMMIT_STAT.STATE 1)
    (.after (.put _ _ _ _ _ rfl (by decide) rfl) (.of_regs rfl))
  refine ⟨congrArg TimeBase.armed htime, Io.get_put _ _ _ _ _ rfl (by decide), hw.eq_armed htime, hk⟩

/-- GO for a target ahead is BUSY while a commit is armed. -/
theorem commitGo_busy (hc : s.cascOn = false) (h : 2 ≤ subMod 32 (s.get pgEpc EPC_COMMIT_TARGET.TARGET) (s.get pgEpc EPC_EPOCH_NUM.NUM))
    (h' : subMod 32 (s.get pgEpc EPC_COMMIT_TARGET.TARGET) (s.get pgEpc EPC_EPOCH_NUM.NUM) < 2 ^ 31)
    (hn : s.io.time.armed.isSome = true) : Completes (.commitGo m) s (fun t =>
      t.get pgEpc EPC_COMMIT_STAT.STATE = 4 ∧ OnlyRegs s t ∧ KeepsWords (· = pgEpc + EPC_COMMIT_STAT.STATE.off) s t) := by
  have e := (s.io.commitGo_ahead h h').trans (if_pos hn)
  refine commitGo_runs hon ht hm hc ?_
  rw [State.upIo_congr (g := fun io => io.put pgEpc EPC_COMMIT_STAT.STATE 4) e]
  exact ⟨Io.get_put _ _ _ _ _ rfl (by decide), .put s _ _ _ _ rfl, .put s _ _ _ _ rfl (by decide) rfl⟩

/-- GO for a target that does not lie ahead is LATE. -/
theorem commitGo_late (hc : s.cascOn = false) (h : subMod 32 (s.get pgEpc EPC_COMMIT_TARGET.TARGET) (s.get pgEpc EPC_EPOCH_NUM.NUM) = 0 ∨
      2 ^ 31 ≤ subMod 32 (s.get pgEpc EPC_COMMIT_TARGET.TARGET) (s.get pgEpc EPC_EPOCH_NUM.NUM)) :
    Completes (.commitGo m) s (fun t =>
      t.get pgEpc EPC_COMMIT_STAT.STATE = 3 ∧ t.io.cause pgEpc 2 = true ∧ OnlyIrq s t ∧
      KeepsWords (fun a => a = pgEpc + 0x10 ∨ a = pgEpc + EPC_COMMIT_STAT.STATE.off) s t) := by
  have ha : aheadOf (s.io.get pgEpc EPC_COMMIT_TARGET.TARGET) (s.io.get pgEpc EPC_EPOCH_NUM.NUM) = false := by
    rw [State.get_eq, State.get_eq] at h
    unfold aheadOf
    simp only [Bool.and_eq_false_iff, decide_eq_false_iff_not]
    omega
  have e : (s.upIo fun io => io.commitGo) = (s.put pgEpc EPC_COMMIT_STAT.STATE 3).raise pgEpc 2 := by
    rw [State.upIo_congr (g := fun io => (io.put pgEpc EPC_COMMIT_STAT.STATE 3).raise pgEpc 2) (Io.commitGo_late ha)]
    simp only [State.upIo_raise, State.upIo_put, State.upIo_id]
  refine commitGo_runs hon ht hm hc ?_
  rw [e]
  refine ⟨?_, State.cause_raise _ _ (by decide), (OnlyRegs.put s _ _ _ _ rfl).irq.trans (.raise _ _ _),
    ((KeepsWords.refl _ s).thenPut _ _ _ _ (.inr rfl)).thenRaise _ _ (.inl rfl)⟩
  simp (disch := decide) only [State.get_raise, State.get_put_same]
  rfl

/-- ABORT cancels the armed commit (R55). -/
theorem commitAbort_cancels (hn : s.io.time.armed.isSome = true) : Completes (.commitAbort m) s (fun t =>
    t.io.time.armed = none ∧ t.get pgEpc EPC_COMMIT_STAT.STATE = 5 ∧ t.io.cause pgEpc 2 = true ∧ OnlyIo s t ∧
    KeepsWords (fun a => a = pgEpc + 0x10 ∨ a = pgEpc + EPC_COMMIT_STAT.STATE.off) s t) := by
  have e : s.io.commitAbort = ((s.io.setArmed none).put pgEpc EPC_COMMIT_STAT.STATE 5).raise pgEpc 2 := if_pos hn
  refine commitAbort_runs hon ht hm ?_
  refine ⟨?_, ?_, ?_, OnlyIo.upIo s _, KeepsWords.upIo ?_⟩
  · rw [State.upIo_io, e]
    exact congrArg TimeBase.armed (State.Within.same (.after (Io.within_raise ..) (Io.within_put (s.io.setArmed none) ..)) .time (by decide))
  · rw [State.get_eq, State.upIo_io, e, Io.get_raise _ _ _ _ _ _ rfl (by decide) (by decide), Io.get_put _ _ _ _ _ rfl (by decide)]
    rfl
  · rw [State.upIo_io, e, Io.cause_raise _ _ (by decide)]
  · rw [e]
    exact .after (.raise _ _ _ (.inl rfl)) (.after (.put _ _ _ _ _ rfl (by decide) (.inr rfl)) (.of_regs rfl))

omit hon in
theorem commitAbort_idle (hn : s.io.time.armed = none) : NoEffect (.commitAbort m) s := by
  have e : s.io.commitAbort = s.io := if_neg (by simp [hn])
  refine .live (f := fun s => s.fabricWrite m.id (pgEpc + EPC_COMMIT_CTL.ABORT.off) 2) rfl ?_
  refine (s.fabricWrite_commitCtl 2 ht hm).trans ((if_pos rfl).trans ?_)
  exact State.upIo_congr (g := fun io => io) e

end

theorem subMod_lt (n a b : Nat) : subMod n a b < 2 ^ n := Nat.mod_lt _ (Nat.two_pow_pos n)

/-! ### ARM -/

theorem shadowed_ne_mbxch {k : Kind} (h : k.shadowed = true) : k ≠ .mbxch := by
  rintro rfl
  exact absurd h (by decide)

theorem Io.get_lt (s : Io) (b : Nat) (f : Fld) (i : Nat) (hr : f.rws = false) (hl : f.lo + f.len ≤ 32) : s.get b f i < 2 ^ f.len := by
  rw [Io.get_narrow _ _ _ _ hr hl]
  exact gb_lt ..

theorem Io.banked_congr {s t : Io} (h : t.rd (pgFtr + 0x060) = s.rd (pgFtr + 0x060)) (k : Kind) : t.banked k = s.banked k := by
  unfold Io.banked Io.feature
  rw [show pgFtr + 0x060 + 4 * (1 / 32) = pgFtr + 0x060 from rfl, h]

theorem shadow_write_bits (arm : Bool) {r : Nat} (hr : r < 2) : (b2n arm + 2 * r).testBit 5 = false ∧ (b2n arm + 2 * r).testBit 4 = false ∧
    bitsOf (b2n arm + 2 * r) 1 1 = r ∧ (b2n arm + 2 * r).testBit 0 = arm := by
  have h : ∀ (arm : Bool) (r : Fin 2), (b2n arm + 2 * r.val).testBit 5 = false ∧ (b2n arm + 2 * r.val).testBit 4 = false ∧
    bitsOf (b2n arm + 2 * r.val) 1 1 = r.val ∧ (b2n arm + 2 * r.val).testBit 0 = arm := by decide
  exact h arm ⟨r, hr⟩

/-- The word PG_SHADOW_CTL of a page is none of the feature words. -/
theorem shadow_ne_feature {pg : Page} {a : Nat} (hp : pageOf a = some pg) : pgFtr + 0x060 ≠ pg.base + 0x24 := by
  have h := (pageOf_some hp).aligned
  have e : pgFtr = 0x30000 := rfl
  omega

theorem Io.within_putRegs (s : Io) (b v i : Nat) {f : Fld} (hr : f.rws = false) : s.Within [.regs] (s.put b f v i) :=
  .mono (Io.within_put ..) (by rw [Fld.parts, hr]; decide)

/-- A write of ARM and RD_SEL, the sticky bits not named: RD_SEL is stored, then ARM, or the refusal (R52, R57, R61). -/
theorem Io.shadowCtl_arm {s : Io} {pg : Page} {a : Nat} (hp : pageOf a = some pg) (arm : Bool) {r : Nat} (hr : r < 2)
    (hk : pg.kind.shadowed = true) (hb : s.banked pg.kind = true) :
    s.shadowCtl pg (b2n arm + 2 * r) = if arm = false then (s.put pg.base PG_SHADOW_CTL.RD_SEL r).put pg.base PG_SHADOW_CTL.ARM 0
      else if s.get pg.base PG_SHADOW_CTL.SHADOW_BUSY = 1 then (s.put pg.base PG_SHADOW_CTL.RD_SEL r).put pg.base PG_SHADOW_CTL.ARM_REFUSED 1
      else (s.put pg.base PG_SHADOW_CTL.RD_SEL r).put pg.base PG_SHADOW_CTL.ARM 1 := by
  obtain ⟨h5, h4, h1, h0⟩ := shadow_write_bits arm hr
  have hg : (s.put pg.base PG_SHADOW_CTL.RD_SEL r).banked pg.kind = true := by
    exact (Io.banked_congr ((Io.rd_put _ _ _ _ _ _ rfl (by decide)).trans (if_neg (shadow_ne_feature hp))) _).trans hb
  have hs : (s.put pg.base PG_SHADOW_CTL.RD_SEL r).get pg.base PG_SHADOW_CTL.SHADOW_BUSY = s.get pg.base PG_SHADOW_CTL.SHADOW_BUSY :=
    Io.get_put_field _ _ _ _ _ _ _ rfl (by decide) rfl (by decide) rfl (by decide)
  unfold Io.shadowCtl
  simp only [hk, h5, h4, h1, h0, hg, hs, Bool.not_true, Bool.false_eq_true, if_false]
  cases arm <;> rfl

/-- A write of PG_SHADOW_CTL of a page. -/
theorem shadowArm_runs {s : State} {m : Master} {a : BitVec 26} {pg : Page} (arm : Bool) (hon : s.on = true) (hp : pageOf a.toNat = some pg)
    (hs : s.stranger pg m.id = false) (hr : s.io.ready pg.kind = true) (hk : pg.kind.shadowed = true) {P : State → Prop}
    (h : ∀ x t, HeaderKept pg s x → HeaderKept pg (x.upIo fun io => io.shadowCtl pg (b2n arm + 2 * s.get pg.base PG_SHADOW_CTL.RD_SEL)) t →
      (pipeOfAddr pg.base = none → t = s.upIo fun io => io.shadowCtl pg (b2n arm + 2 * s.get pg.base PG_SHADOW_CTL.RD_SEL)) → P t) :
    Completes (.shadowArm m a arm) s P := by
  have hg : s.pageGet a.toNat PG_SHADOW_CTL.RD_SEL = s.get pg.base PG_SHADOW_CTL.RD_SEL := by
    unfold State.pageGet
    rw [hp]
  refine headerWrite_completes (o := PG_SHADOW_CTL.ARM.off)
    (v := fun s => b2n arm + 2 * s.pageGet a.toNat PG_SHADOW_CTL.RD_SEL) (m := m.id) rfl hon hp hs hr (shadowed_ne_mbxch hk) rfl (by decide) ?_
  rw [hg]
  exact h

/-- RD_SEL is stored as it was, and then `f`, which shares its word. -/
structure ShadowWritten (pg : Page) (f : Fld) (v : Nat) (s t : State) : Prop where
  written : t.get pg.base f = v
  rdSel : t.get pg.base PG_SHADOW_CTL.RD_SEL = s.get pg.base PG_SHADOW_CTL.RD_SEL
  other : ∀ g : Fld, g.off = 0x24 ∧ g.rws = false ∧ g.lo + g.len ≤ 32 → (g.lo + g.len ≤ f.lo ∨ f.lo + f.len ≤ g.lo) →
    (g.lo + g.len ≤ 1 ∨ 2 ≤ g.lo) → t.get pg.base g = s.get pg.base g
  bank : t.io.bank = s.io.bank
  io : OnlyIo s t
  alone : pipeOfAddr pg.base = none → OnlyRegs s t ∧ KeepsWords (· = pg.base + PG_SHADOW_CTL.ARM.off) s t

/-- The write of PG_SHADOW_CTL stores `v` in `f`, RD_SEL as it was. -/
theorem shadowArm_writes {s : State} {m : Master} {a : BitVec 26} {pg : Page} (arm : Bool) (hon : s.on = true) (hp : pageOf a.toNat = some pg)
    (hs : s.stranger pg m.id = false) (hr : s.io.ready pg.kind = true) (hk : pg.kind.shadowed = true)
    {f : Fld} {v : Nat} (hf : f.off = 0x24 ∧ f.rws = false ∧ f.lo + f.len ≤ 32 ∧ f.len = 1 ∧ f.lo ≠ 1) (hv : v < 2)
    (hf' : ∀ x : State, HeaderKept pg s x → x.io.shadowCtl pg (b2n arm + 2 * s.get pg.base PG_SHADOW_CTL.RD_SEL)
      = (x.io.put pg.base PG_SHADOW_CTL.RD_SEL (s.get pg.base PG_SHADOW_CTL.RD_SEL)).put pg.base f v) :
    Completes (.shadowArm m a arm) s (ShadowWritten pg f v s) := by
  obtain ⟨ho, hr', hl, h1, hne⟩ := hf
  have hlt : s.get pg.base PG_SHADOW_CTL.RD_SEL < 2 := Io.get_lt _ _ _ _ rfl (by decide)
  refine shadowArm_runs arm hon hp hs hr hk fun x t hx ht he => ?_
  rw [State.upIo_congr (g := fun _ => (x.io.put pg.base PG_SHADOW_CTL.RD_SEL (s.get pg.base PG_SHADOW_CTL.RD_SEL)).put pg.base f v) (hf' x hx)] at ht
  have ha (g : Fld) (hg : g.off = 0x24) : pg.base + g.off + g.stride * 0 = pg.base + 0x24 := by rw [hg]; rfl
  have hget (g : Fld) (hg : g.off = 0x24 ∧ g.rws = false ∧ g.lo + g.len ≤ 32) : t.get pg.base g
      = ((x.io.put pg.base PG_SHADOW_CTL.RD_SEL (s.get pg.base PG_SHADOW_CTL.RD_SEL)).put pg.base f v).get pg.base g :=
    ht.get g ⟨by rw [hg.1]; decide, hg.2⟩
  have hwp (y : Io) : y.Within [.regs] ((y.put pg.base PG_SHADOW_CTL.RD_SEL (s.get pg.base PG_SHADOW_CTL.RD_SEL)).put pg.base f v) :=
    .mono (.after (Io.within_putRegs _ _ _ _ hr') (Io.within_putRegs _ _ _ _ rfl)) (by decide)
  have hw : s.Within ctrParts t := .mono (.after ht.within (.after (.upIo (hwp x.io)) hx.within)) (by decide)
  refine ⟨?_, ?_, fun g hg h2 h3 => ?_, ?_, .of_within ?_, fun hn => ?_⟩
  · rw [hget f ⟨ho, hr', hl⟩, Io.get_put _ _ _ _ _ hr' hl, h1]
    exact Nat.mod_eq_of_lt hv
  · rw [hget _ (by decide), Io.get_put_field _ _ _ _ _ _ _ hr' hl rfl (by decide) ((ha _ rfl).trans (ha f ho).symm) (by
      change 1 + 1 ≤ f.lo ∨ f.lo + f.len ≤ 1; omega), Io.get_put _ _ _ _ _ rfl (by decide)]
    exact Nat.mod_eq_of_lt hlt
  · rw [hget g hg, Io.get_put_field _ _ _ _ _ _ _ hr' hl hg.2.1 hg.2.2 ((ha g hg.1).trans (ha f ho).symm) h2,
      Io.get_put_field _ _ _ _ _ _ _ rfl (by decide) hg.2.1 hg.2.2 (ha g hg.1) h3]
    exact hx.get g ⟨by rw [hg.1]; decide, hg.2⟩
  · exact (hw.same .bank (by decide))
  · exact hw.mono (by decide)
  · rw [he hn, State.upIo_congr (g := fun io => (io.put pg.base PG_SHADOW_CTL.RD_SEL (s.get pg.base PG_SHADOW_CTL.RD_SEL)).put pg.base f v)
      (hf' s (.refl pg s))]
    exact ⟨.of_within (.upIo (hwp s.io)), .upIo (.after (.put _ _ _ _ _ hr' hl (ha f ho)) (.put _ _ _ _ _ rfl (by decide) (ha _ rfl)))⟩

/-- Settles O23: GO and ABORT set the armed commit and its status; a write of ARM keeps RD_SEL and stores ARM, or ARM_REFUSED. -/
theorem commitControlAndArming : Obligations.CommitControlAndArming := by
  refine ⟨fun s m hon ht hm hc => ⟨fun h h' => ⟨commitGo_arms hon ht hm hc h h', commitGo_busy hon ht hm hc h h'⟩,
    commitGo_late hon ht hm hc, commitAbort_cancels hon ht hm, commitAbort_idle ht hm⟩, fun s m a pg arm hon hp hs hr hk hb => ?_⟩
  have hlt : s.get pg.base PG_SHADOW_CTL.RD_SEL < 2 := Io.get_lt _ _ _ _ rfl (by decide)
  have hctl (x : State) (hx : HeaderKept pg s x) := Io.shadowCtl_arm (s := x.io) hp arm hlt hk ((Io.banked_congr (hx.below _ (by decide)) _).trans hb)
  have hbusy (x : State) (hx : HeaderKept pg s x) : x.io.get pg.base PG_SHADOW_CTL.SHADOW_BUSY = s.get pg.base PG_SHADOW_CTL.SHADOW_BUSY :=
    hx.get PG_SHADOW_CTL.SHADOW_BUSY (by decide)
  refine ⟨fun h => ?_, fun h h' => ?_⟩
  · obtain ⟨t, ht, hw⟩ := shadowArm_writes arm hon hp hs hr hk (f := PG_SHADOW_CTL.ARM) (v := b2n arm) (by decide) (by cases arm <;> decide)
      fun x hx => by
        rw [hctl x hx, hbusy x hx]
        rcases h with rfl | h
        · exact if_pos rfl
        · cases arm
          · exact if_pos rfl
          · exact (if_neg (by decide)).trans (if_neg (by omega))
    exact ⟨t, ht, hw.written, hw.rdSel, hw.bank, hw.io, hw.alone⟩
  · obtain ⟨t, ht, hw⟩ := shadowArm_writes arm hon hp hs hr hk (f := PG_SHADOW_CTL.ARM_REFUSED) (v := 1) (by decide) (by decide)
      fun x hx => by
        rw [hctl x hx, hbusy x hx, if_neg (by rw [h]; decide), if_pos h']
    exact ⟨t, ht, hw.other _ (by decide) (by decide) (by decide), hw.written, hw.bank, hw.io, hw.alone⟩

end Sys2Proof.Machine
end

section
/-!
SUPPORT. Soft resets, forced causes and MSI-X messages (R69, R71, R73).
-/
namespace Sys2Proof.Machine

/-! ### SOFT_RST and PG_IRQ_FORCE -/

theorem soft_write_bits {e : Nat} (h : e < 2) : (2 + e).testBit 1 = true ∧ (2 + e) % 2 ^ 1 = e := by
  have h' : ∀ e : Fin 2, (2 + e.val).testBit 1 = true ∧ (2 + e.val) % 2 ^ 1 = e.val := by decide
  exact h' ⟨e, h⟩

/-- PG_CTL written with SOFT_RST set and EN as it was (R71). -/
theorem State.pgCtl_soft {x : State} (pg : Page) {e : Nat} (h : e < 2) :
    x.pgCtl pg (2 + e) = ((if pg.flowPath = true then x else x.put pg.base PG_CTL.EN (2 + e)).put pg.base PG_STAT.RST_BUSY 1) := by
  unfold State.pgCtl
  dsimp only
  rw [if_pos (soft_write_bits h).1]
  rfl

theorem softRst_completes {s : State} {m : Master} {a : BitVec 26} {pg : Page} (hon : s.on = true) (hp : pageOf a.toNat = some pg)
    (hs : s.stranger pg m.id = false) (hr : s.io.ready pg.kind = true) (hk : pg.kind ≠ .mbxch) :
    Completes (.softRst m a) s (fun t =>
      t.get pg.base PG_STAT.RST_BUSY = 1 ∧ t.get pg.base PG_CTL.EN = s.get pg.base PG_CTL.EN ∧ OnlyIo s t ∧
      (pipeOfAddr pg.base = none → OnlyRegs s t ∧
        KeepsWords (fun b => b = pg.base + PG_CTL.EN.off ∨ b = pg.base + PG_STAT.RST_BUSY.off) s t)) := by
  have hlt : s.get pg.base PG_CTL.EN < 2 := Io.get_lt _ _ _ _ rfl (by decide)
  refine headerWrite_completes (o := PG_CTL.SOFT_RST.off) (v := fun s => 2 + s.pageGet a.toNat PG_CTL.EN) (m := m.id) rfl hon hp hs hr hk rfl
    (by decide) fun x t hx ht he => ?_
  have hg : s.pageGet a.toNat PG_CTL.EN = s.get pg.base PG_CTL.EN := by
    unfold State.pageGet
    rw [hp]
  have hw (x : State) : x.wHead pg PG_CTL.SOFT_RST.off (2 + s.get pg.base PG_CTL.EN) = _ := x.pgCtl_soft pg hlt
  rw [hg, hw] at ht he
  have hen : (if pg.flowPath = true then x else x.put pg.base PG_CTL.EN (2 + s.get pg.base PG_CTL.EN)).get pg.base PG_CTL.EN
      = s.get pg.base PG_CTL.EN := by
    split
    · exact hx.get PG_CTL.EN (by decide)
    · rw [State.get_put_same _ _ _ _ _ rfl (by decide)]
      exact (soft_write_bits hlt).2
  have hwith (x : State) : x.Within [.regs] ((if pg.flowPath = true then x else x.put pg.base PG_CTL.EN (2 + s.get pg.base PG_CTL.EN)).put
      pg.base PG_STAT.RST_BUSY 1) := .mono (.after (State.within_put ..) (.cond (.refl _) (State.within_put ..))) (by decide)
  refine ⟨?_, ?_, .of_within (.mono (.after ht.within (.after (hwith x) hx.within)) (by decide)), fun hn => ?_⟩
  · rw [ht.get PG_STAT.RST_BUSY (by decide), State.get_put_same _ _ _ _ _ rfl (by decide)]
    rfl
  · rw [ht.get PG_CTL.EN (by decide), State.get_put_ne _ _ _ _ _ _ _ _ rfl (by decide) rfl (by decide), hen]
    exact fun h => absurd (Nat.add_left_cancel (Nat.add_right_cancel h)) (by decide)
  · rw [he hn]
    exact ⟨.of_within (hwith s), .after (.put _ _ _ _ _ rfl (by decide) (.inr rfl))
      (.cond (.refl _ _) (.put _ _ _ _ _ rfl (by decide) (.inl rfl)))⟩

theorem ofNat_mod_ring (bits : W32) (k : Kind) : BitVec.ofNat 32 (if k = .ring then bits.toNat % 16 else bits.toNat)
    = if k = .ring then bits &&& 0xF#32 else bits := by
  split
  · apply BitVec.eq_of_toNat_eq
    have h := Nat.and_two_pow_sub_one_eq_mod bits.toNat 4
    rw [BitVec.toNat_ofNat, BitVec.toNat_and]
    exact (Nat.mod_eq_of_lt (by omega)).trans h.symm
  · simp

theorem irqForce_completes {s : State} {m : Master} {a : BitVec 26} {pg : Page} (hon : s.on = true) (hp : pageOf a.toNat = some pg)
    (hs : s.stranger pg m.id = false) (hr : s.io.ready pg.kind = true) (hk : pg.kind ≠ .mbxch) (bits : W32) :
    Completes (.irqForce m a bits) s (fun t =>
      t.io.rd (pg.base + 0x10) = s.io.rd (pg.base + 0x10) ||| (if pg.kind = .ring then bits &&& 0xF#32 else bits) ∧ OnlyIo s t ∧
      (pipeOfAddr pg.base = none → OnlyIrq s t ∧ KeepsWords (· = pg.base + 0x10) s t)) := by
  refine headerWrite_completes (o := PG_IRQ_FORCE.FORCE.off) (v := fun _ => bits.toNat) (m := m.id) rfl hon hp hs hr hk rfl (by decide)
    fun x t hx ht he => ?_
  have hw (x : State) : x.wHead pg PG_IRQ_FORCE.FORCE.off bits.toNat
      = x.upIo fun io => io.raiseBits pg.base (if pg.kind = .ring then bits.toNat % 16 else bits.toNat) := rfl
  rw [hw] at ht he
  refine ⟨?_, .of_within (.mono (.after ht.within (.after (.upIo (Io.within_raiseBits ..)) hx.within)) (by decide)), fun hn => ?_⟩
  · rw [ht.word 0x10 (by decide), State.upIo_io, Io.rd_raiseBits, if_pos rfl, hx.word 0x10 (by decide), ofNat_mod_ring]
  · rw [he hn]
    exact ⟨.raiseBits .., fun b hb => (Io.rd_raiseBits ..).trans (if_neg hb)⟩

/-! ### Messages -/

/-- Messages left, or were left pending; the registers may have changed. -/
structure Io.Sends (s t : Io) : Prop where
  frame : t = { s with regs := t.regs, pcie := { s.pcie with pend := t.pcie.pend }, out := t.out }
  out : ∃ l, t.out = l ++ s.out ∧ ∀ o ∈ l, ∃ v a d, o = .msix v a d

namespace Io.Sends

variable {s t u : Io}

theorem state {s : State} {f : Io → Io} (h : s.io.Sends (f s.io)) : OnlyIrq s (s.upIo f) := .upIo h.frame h.out

theorem of_regs (h : t = { s with regs := t.regs }) : s.Sends t := ⟨by rw [h], [], by rw [h]; exact ⟨rfl, by simp⟩⟩

theorem refl (s : Io) : s.Sends s := .of_regs rfl

theorem trans (h : s.Sends t) (h' : t.Sends u) : s.Sends u := by
  obtain ⟨l, hl, hm⟩ := h.out
  obtain ⟨l', hl', hm'⟩ := h'.out
  refine ⟨?_, l' ++ l, by rw [hl', hl, List.append_assoc], fun o ho => (List.mem_append.mp ho).elim (hm' o) (hm o)⟩
  rw [h'.frame, h.frame]

end Io.Sends

namespace Io

variable (s : Io)

theorem sends_msix (n : Nat) : s.Sends (s.msix n) := ⟨by rw [(s.msix_irq n).1], (s.msix_irq n).2⟩

theorem msix_sent {n : Nat} (h : s.mayMsix = true) (hm : tb s.pcie.vecMask n = false) : (s.msix n).out = s.msixOut n :: s.out := by
  unfold Io.msix
  rw [h, hm]
  rfl

/-! #### Re-arming -/

/-- Message `n` falls due if its level is 1. -/
def fireOne (s : Io) (n : Nat) : Io := if s.level n then s.msix n else s

/-- The messages of `l` whose level is 1 fall due. -/
def fire (l : List Nat) (s : Io) : Io := l.foldl fireOne s

theorem fire_cons (n : Nat) (l : List Nat) (s : Io) : fire (n :: l) s = fire l (fireOne s n) := by
  unfold fire
  rw [List.foldl_cons]

theorem sends_fireOne (n : Nat) : s.Sends (s.fireOne n) := by
  unfold fireOne
  split
  · exact s.sends_msix n
  · exact .refl s

theorem sends_fire (l : List Nat) (s : Io) : s.Sends (fire l s) := by
  induction l generalizing s with
  | nil => exact .refl s
  | cons n l ih =>
    rw [fire_cons]
    exact (s.sends_fireOne n).trans (ih _)

/-- What a message looks at is as before: every part but Pending Bits and what has left. -/
structure SameMsix (s t : Io) : Prop where
  frame : t = { s with pcie := { s.pcie with pend := t.pcie.pend }, out := t.out }
  out : ∀ o ∈ s.out, o ∈ t.out
  pend : ∀ n, tb s.pcie.pend n = true → tb t.pcie.pend n = true

theorem SameMsix.trans {s t u : Io} (h : s.SameMsix t) (h' : t.SameMsix u) : s.SameMsix u :=
  ⟨by rw [h'.frame, h.frame], fun o ho => h'.out o (h.out o ho), fun n hn => h'.pend n (h.pend n hn)⟩

theorem level_congr {s t : Io} (h : t.regs = s.regs) (n : Nat) : t.level n = s.level n := by
  have hr (a : Nat) : t.rd a = s.rd a := Io.rd_congr h a
  have hp (b : Nat) : t.pageIrq b = s.pageIrq b := by unfold Io.pageIrq; rw [hr, hr]
  have hs : t.summary n = s.summary n := by
    have hf : (fun r => t.pageIrq (pgRing r) && (t.get (pgRing r) RING_CTL.VEC + 32 == n))
        = fun r => s.pageIrq (pgRing r) && (s.get (pgRing r) RING_CTL.VEC + 32 == n) := by
      funext r
      rw [hp, Io.get_narrow _ _ _ _ rfl (by decide), Io.get_narrow _ _ _ _ rfl (by decide), hr]
    unfold Io.summary
    rw [hf, show t.pageIrq = s.pageIrq from funext hp]
  unfold Io.level
  rw [hs, Io.rd64_congr (hr _) (hr _)]

theorem SameMsix.level {s t : Io} (h : s.SameMsix t) (n : Nat) : t.level n = s.level n := level_congr (by rw [h.frame]) n

theorem tb_or_self (w : BitVec 64) {n : Nat} (hn : n < 64) : tb (w ||| BitVec.ofNat 64 (2 ^ n)) n = true := by
  unfold tb
  rw [BitVec.testBit_toNat, BitVec.getLsbD_or, BitVec.getLsbD_ofNat, Nat.testBit_two_pow_self, decide_eq_true hn, Bool.and_self, Bool.or_true]

theorem tb_or_of (w v : BitVec 64) {n : Nat} (h : tb w n = true) : tb (w ||| v) n = true := by
  unfold tb at *
  rw [BitVec.testBit_toNat] at *
  rw [BitVec.getLsbD_or, h, Bool.true_or]

theorem sameMsix_msix (n : Nat) : s.SameMsix (s.msix n) := by
  unfold Io.msix
  split
  · exact ⟨rfl, fun o ho => List.mem_cons_of_mem _ ho, fun _ h => h⟩
  · exact ⟨rfl, fun o ho => ho, fun k hk => tb_or_of _ _ hk⟩

theorem msix_pended {n : Nat} (hn : n < 64) (h : s.mayMsix = false ∨ tb s.pcie.vecMask n = true) : tb (s.msix n).pcie.pend n = true := by
  unfold Io.msix
  rw [if_neg (by rcases h with h | h <;> simp [h])]
  exact tb_or_self _ hn

theorem SameMsix.refl : s.SameMsix s := ⟨rfl, fun _ h => h, fun _ h => h⟩

theorem sameMsix_fireOne (n : Nat) : s.SameMsix (s.fireOne n) := by
  unfold fireOne
  split
  · exact s.sameMsix_msix n
  · exact .refl s

theorem sameMsix_fire (l : List Nat) (s : Io) : s.SameMsix (fire l s) := by
  induction l generalizing s with
  | nil => exact .refl s
  | cons n l ih =>
    rw [fire_cons]
    exact (s.sameMsix_fireOne n).trans (ih _)

/-- What a message that fell due leaves: it left, or its Pending Bit is set (R73). -/
def Fired (s t : Io) (n : Nat) : Prop :=
  (s.mayMsix = true → tb s.pcie.vecMask n = false → s.msixOut n ∈ t.out) ∧
  (s.mayMsix = false ∨ tb s.pcie.vecMask n = true → tb t.pcie.pend n = true)

theorem mayMsix_pend (p : BitVec 64) (o : List Out) : ({ s with pcie := { s.pcie with pend := p }, out := o } : Io).mayMsix = s.mayMsix := rfl

theorem fired_congr {s t u : Io} {n : Nat} (h : s.SameMsix t) (hf : Fired t u n) : Fired s u n := by
  have h1 : t.mayMsix = s.mayMsix := (congrArg Io.mayMsix h.frame).trans (s.mayMsix_pend _ _)
  have h2 : t.pcie.vecMask = s.pcie.vecMask := by rw [h.frame]
  have h3 : t.msixOut n = s.msixOut n := by
    unfold Io.msixOut
    rw [show t.pcie.vecAddr = s.pcie.vecAddr by rw [h.frame], show t.pcie.vecData = s.pcie.vecData by rw [h.frame]]
  unfold Fired at *
  rw [h1, h2, h3] at hf
  exact hf

theorem Fired.mono {s t u : Io} {n : Nat} (hf : Fired s t n) (h : t.SameMsix u) : Fired s u n :=
  ⟨fun h1 h2 => h.out _ (hf.1 h1 h2), fun h1 => h.pend n (hf.2 h1)⟩

theorem fired_fire {l : List Nat} {n : Nat} (hn : n ∈ l) (h64 : n < 64) (s : Io) (hl : s.level n = true) : Fired s (fire l s) n := by
  induction l generalizing s with
  | nil => exact absurd hn (by simp)
  | cons k l ih =>
    have hk := s.sameMsix_fireOne k
    rw [fire_cons]
    rcases List.mem_cons.mp hn with rfl | hn
    · have hf : Fired s (s.fireOne n) n := by
        unfold fireOne
        rw [if_pos hl]
        exact ⟨fun h1 h2 => by rw [s.msix_sent h1 h2]; exact List.mem_cons_self, s.msix_pended h64⟩
      exact hf.mono (sameMsix_fire l _)
    · exact fired_congr hk (ih hn _ ((hk.level n).trans hl))

/-! #### Pending Bits -/

/-- One message that is pending is looked at again. -/
def flushOne (s : Io) (n : Nat) : Io :=
  if tb s.pcie.pend n && s.mayMsix && !(tb s.pcie.vecMask n) then
    let s' := { s with pcie := { s.pcie with pend := s.pcie.pend &&& ~~~ (BitVec.ofNat 64 (2 ^ n)) } }
    if s.level n then s'.emit (s.msixOut n) else s'
  else s

theorem flushPend_eq : s.flushPend = (List.range 64).foldl flushOne s := rfl

/-- Pending Bits have cleared, and messages have left. -/
structure Flushed (s t : Io) : Prop where
  frame : t = { s with pcie := { s.pcie with pend := t.pcie.pend }, out := t.out }
  out : ∀ o ∈ s.out, o ∈ t.out
  pend : ∀ n, tb s.pcie.pend n = false → tb t.pcie.pend n = false

theorem Flushed.refl : s.Flushed s := ⟨rfl, fun _ h => h, fun _ h => h⟩

theorem Flushed.trans {s t u : Io} (h : s.Flushed t) (h' : t.Flushed u) : s.Flushed u :=
  ⟨by rw [h'.frame, h.frame], fun o ho => h'.out o (h.out o ho), fun n hn => h'.pend n (h.pend n hn)⟩

theorem tb_and_of (w v : BitVec 64) {n : Nat} (h : tb w n = false) : tb (w &&& v) n = false := by
  unfold tb at *
  rw [BitVec.testBit_toNat] at *
  rw [BitVec.getLsbD_and, h, Bool.false_and]

theorem tb_andNot_self (w : BitVec 64) (n : Nat) : tb (w &&& ~~~ BitVec.ofNat 64 (2 ^ n)) n = false := by
  unfold tb
  rw [BitVec.testBit_toNat, BitVec.getLsbD_and, BitVec.getLsbD_not, BitVec.getLsbD_ofNat, Nat.testBit_two_pow_self]
  by_cases h : n < 64 <;> simp [h]

theorem flushed_flushOne (n : Nat) : s.Flushed (s.flushOne n) := by
  unfold flushOne
  dsimp only
  split
  · split
    · exact ⟨rfl, fun o ho => List.mem_cons_of_mem _ ho, fun k hk => tb_and_of _ _ hk⟩
    · exact ⟨rfl, fun o ho => ho, fun k hk => tb_and_of _ _ hk⟩
  · exact .refl s

theorem flushed_foldl (l : List Nat) (s : Io) : s.Flushed (l.foldl flushOne s) := by
  induction l generalizing s with
  | nil => exact .refl s
  | cons n l ih => exact (s.flushed_flushOne n).trans (ih _)

theorem flushOne_clears {n : Nat} (h : s.mayMsix = true) (hm : tb s.pcie.vecMask n = false) : tb (s.flushOne n).pcie.pend n = false ∧
    (tb s.pcie.pend n = true → s.level n = true → s.msixOut n ∈ (s.flushOne n).out) := by
  unfold flushOne
  cases hp : tb s.pcie.pend n with
  | false => exact ⟨hp, fun h => absurd h (by decide)⟩
  | true =>
    rw [h, hm]
    cases hl : s.level n with
    | false => exact ⟨tb_andNot_self _ n, fun _ h => absurd h (by decide)⟩
    | true => exact ⟨tb_andNot_self _ n, fun _ _ => List.mem_cons_self⟩

theorem tb_andNot_ne (w : BitVec 64) {n k : Nat} (h : n ≠ k) : tb (w &&& ~~~ BitVec.ofNat 64 (2 ^ k)) n = tb w n := by
  unfold tb
  rw [BitVec.testBit_toNat, BitVec.testBit_toNat, BitVec.getLsbD_and, BitVec.getLsbD_not, BitVec.getLsbD_ofNat,
    Nat.testBit_two_pow_of_ne (Ne.symm h)]
  by_cases hn : n < 64
  · simp [hn]
  · simp [BitVec.getLsbD_of_ge w n (by omega)]

theorem flushOne_pend_ne {n k : Nat} (h : n ≠ k) : tb (s.flushOne k).pcie.pend n = tb s.pcie.pend n := by
  unfold flushOne
  dsimp only
  split
  · split
    · exact tb_andNot_ne _ h
    · exact tb_andNot_ne _ h
  · rfl

/-- What the vector's turn leaves: no Pending Bit, and the message sent if it was pending and its level is 1 (R73). -/
def Settled (s t : Io) (n : Nat) : Prop :=
  tb t.pcie.pend n = false ∧ (tb s.pcie.pend n = true → s.level n = true → s.msixOut n ∈ t.out)

theorem Settled.mono {s t u : Io} {n : Nat} (h : Settled s t n) (hu : t.Flushed u) : Settled s u n :=
  ⟨hu.pend n h.1, fun h1 h2 => hu.out _ (h.2 h1 h2)⟩

theorem settled_congr {s t u : Io} {n : Nat} (h : s.Flushed t) (hp : tb t.pcie.pend n = tb s.pcie.pend n) (hf : Settled t u n) : Settled s u n := by
  have h1 : t.level n = s.level n := level_congr (by rw [h.frame]) n
  have h3 : t.msixOut n = s.msixOut n := by
    unfold Io.msixOut
    rw [show t.pcie.vecAddr = s.pcie.vecAddr by rw [h.frame], show t.pcie.vecData = s.pcie.vecData by rw [h.frame]]
  unfold Settled at *
  rw [h1, hp, h3] at hf
  exact hf

theorem settled_foldl {n : Nat} (l : List Nat) (hl : n ∈ l) (s : Io) (h : s.mayMsix = true) (hm : tb s.pcie.vecMask n = false) :
    Settled s (l.foldl flushOne s) n := by
  induction l generalizing s with
  | nil => exact absurd hl (by simp)
  | cons k l ih =>
    have hk := s.flushed_flushOne k
    by_cases e : n = k
    · subst e
      exact Settled.mono (s.flushOne_clears h hm) (flushed_foldl l _)
    · have h1 : (s.flushOne k).mayMsix = true := ((congrArg Io.mayMsix hk.frame).trans (s.mayMsix_pend _ _)).trans h
      have h2 : (s.flushOne k).pcie.vecMask = s.pcie.vecMask := by rw [hk.frame]
      exact settled_congr hk (s.flushOne_pend_ne e) (ih ((List.mem_cons.mp hl).resolve_left e) _ h1 (by rw [h2]; exact hm))

theorem settled_flushPend {n : Nat} (hn : n < 64) (h : s.mayMsix = true) (hm : tb s.pcie.vecMask n = false) : Settled s s.flushPend n :=
  settled_foldl _ (List.mem_range.mpr hn) s h hm

end Io

/-! ### SYS_IRQ_REARM and the vectors' masks -/

/-- A write of one half of SYS_IRQ_REARM. -/
theorem State.fabricWrite_rearm {s : State} {m : Nat} (v : Nat) (ht : s.takesWrite m (pgSys + SYS_IRQ_REARM.REARM.off) = true) :
    s.fabricWrite m (pgSys + SYS_IRQ_REARM.REARM.off) v = s.upIo fun io => io.sysRearm v := by
  obtain ⟨h, hh⟩ : ∃ h, Kind.sys.regAt SYS_IRQ_REARM.REARM.off = some h := Option.isSome_iff_exists.mp (by decide)
  exact State.fabricWrite_body (a := pgSys + SYS_IRQ_REARM.REARM.off) ht (pageOf_sys (by decide)) (by decide) hh (by decide)
    (pipeOfAddr_low (by decide))

theorem State.fabricWrite_rearmHigh {s : State} {m : Nat} (v : Nat) (ht : s.takesWrite m (pgSys + SYS_IRQ_REARM.REARM.off) = true) :
    s.fabricWrite m (pgSys + SYS_IRQ_REARM.REARM.off + 4) v = s.upIo fun io => io.sysRearm (2 ^ 32 * v) := by
  obtain ⟨h, hh⟩ : ∃ h, Kind.sys.regAt (SYS_IRQ_REARM.REARM.off + 4) = some h := Option.isSome_iff_exists.mp (by decide)
  have ht' : s.takesWrite m (pgSys + SYS_IRQ_REARM.REARM.off + 4) = true := by
    rw [s.takesWrite_sys m (by decide), ← s.takesWrite_sys m (a := pgSys + SYS_IRQ_REARM.REARM.off) (by decide)]
    exact ht
  exact State.fabricWrite_body (a := pgSys + SYS_IRQ_REARM.REARM.off + 4) ht' (pageOf_sys (by decide)) (by decide) hh (by decide)
    (pipeOfAddr_low (by decide))

theorem Io.ready_congr {s t : Io} (h : t.rd (pgSys + SYS_BOOT_STAT.STEP.off) = s.rd (pgSys + SYS_BOOT_STAT.STEP.off)) (k : Kind) :
    t.ready k = s.ready k := by
  have e : t.step = s.step := by
    unfold Io.step
    rw [Io.get_narrow _ _ _ _ rfl (by decide), Io.get_narrow _ _ _ _ rfl (by decide)]
    exact congrArg (fun w => gb w _ _) h
  unfold Io.ready
  rw [e]

/-- A page that takes a write takes it after words beside those of its header and of the boot step have changed. -/
theorem State.takesWrite_sys_congr {s t : State} {m a : Nat} (ha : a < 0x1000)
    (h1 : t.io.rd (pgSys + SYS_BOOT_STAT.STEP.off) = s.io.rd (pgSys + SYS_BOOT_STAT.STEP.off))
    (h2 : t.io.rd (pgSys + PG_STAT.RST_BUSY.off) = s.io.rd (pgSys + PG_STAT.RST_BUSY.off)) : t.takesWrite m a = s.takesWrite m a := by
  unfold State.takesWrite
  rw [pageOf_sys ha]
  dsimp only
  rw [Io.ready_congr h1, State.get_of_rd pgSys PG_STAT.RST_BUSY 0 rfl (by decide) h2]
  rfl

theorem mem_onesOf {n k v : Nat} : k ∈ onesOf n v ↔ k < n ∧ v.testBit k = true := by
  unfold onesOf
  rw [List.mem_filter, List.mem_range]

/-- A write of both halves of SYS_IRQ_REARM. -/
theorem State.regWrite_rearm {s : State} {m : Nat} (v : Nat) (ht : s.takesWrite m (pgSys + SYS_IRQ_REARM.REARM.off) = true) :
    s.regWrite m (pgSys + SYS_IRQ_REARM.REARM.off) v true
      = s.upIo fun io => Io.fire (onesOf 64 (2 ^ 32 * (v / 2 ^ 32))) (Io.fire (onesOf 64 (v % 2 ^ 32)) io) := by
  have hr : (s.upIo fun io => io.sysRearm (v % 2 ^ 32)).io.regs = s.io.regs := (by
    rw [upIo_io]
    exact (Io.within_sysRearm ..).same .regs (by decide))
  unfold State.regWrite
  rw [if_neg (by decide), s.fabricWrite_rearm _ ht]
  dsimp only
  rw [if_pos rfl, State.fabricWrite_rearmHigh]
  · rfl
  · rw [State.takesWrite_sys_congr (by decide) (Io.rd_congr hr _) (Io.rd_congr hr _)]
    exact ht

theorem testBit_halves {v n : Nat} (h : v.testBit n = true) (hn : n < 64) : n ∈ onesOf 64 (v % 2 ^ 32) ∨ n ∈ onesOf 64 (2 ^ 32 * (v / 2 ^ 32)) := by
  rw [mem_onesOf, mem_onesOf]
  by_cases h32 : n < 32
  · exact .inl ⟨hn, by rw [Nat.testBit_mod_two_pow, decide_eq_true h32, h]; rfl⟩
  · refine .inr ⟨hn, ?_⟩
    rw [Nat.testBit_two_pow_mul, Nat.testBit_div_two_pow, Nat.sub_add_cancel (by omega), h]
    simp only [ge_iff_le, Bool.and_true, decide_eq_true_eq]
    omega

theorem irqRearm_completes {s : State} {m : Master} (hon : s.on = true) (mask : BitVec 64)
    (ht : s.takesWrite m.id (pgSys + SYS_IRQ_REARM.REARM.off) = true) :
    Completes (.irqRearm m mask) s (fun t =>
      OnlyIrq s t ∧ t.io.regs = s.io.regs ∧
      ∀ n : Fin 64, mask.toNat.testBit n.val = true → s.io.level n.val = true →
        (s.io.mayMsix = true → tb s.io.pcie.vecMask n.val = false →
          .msix n.val (s.io.pcie.vecAddr.get 0 n.val) (s.io.pcie.vecData.get 0 n.val) ∈ t.io.out) ∧
        (s.io.mayMsix = false ∨ tb s.io.pcie.vecMask n.val = true → tb t.io.pcie.pend n.val = true)) := by
  refine .live_eq (f := fun s => s.regWrite m.id (pgSys + SYS_IRQ_REARM.REARM.off) mask.toNat true) rfl hon (State.regWrite_rearm _ ht)
    (by simp) ⟨Io.Sends.state ((Io.sends_fire _ _).trans (Io.sends_fire _ _)), ?_, fun n hn hl => ?_⟩
  · rw [State.upIo_io, ((Io.sameMsix_fire _ _).trans (Io.sameMsix_fire _ _)).frame]
  · rw [State.upIo_io]
    rcases testBit_halves hn n.isLt with h | h
    · exact (Io.fired_fire h n.isLt s.io hl).mono (Io.sameMsix_fire _ _)
    · have h0 := Io.sameMsix_fire (onesOf 64 (mask.toNat % 2 ^ 32)) s.io
      exact Io.fired_congr h0 (Io.fired_fire h n.isLt _ ((h0.level n.val).trans hl))

theorem tb_mask (w : BitVec 64) (v : Fin 64) (masked : Bool) :
    tb (if masked then w ||| BitVec.ofNat 64 (2 ^ v.val) else w &&& ~~~ (BitVec.ofNat 64 (2 ^ v.val))) v.val = masked := by
  cases masked
  · exact Io.tb_andNot_self w v.val
  · exact Io.tb_or_self w v.isLt

theorem tb_mask_ne (w : BitVec 64) {v n : Fin 64} (masked : Bool) (h : n ≠ v) :
    tb (if masked then w ||| BitVec.ofNat 64 (2 ^ v.val) else w &&& ~~~ (BitVec.ofNat 64 (2 ^ v.val))) n.val = tb w n.val := by
  have hne : n.val ≠ v.val := fun e => h (Fin.ext e)
  cases masked
  · exact Io.tb_andNot_ne w hne
  · unfold tb
    rw [if_pos rfl, BitVec.testBit_toNat, BitVec.testBit_toNat, BitVec.getLsbD_or, BitVec.getLsbD_ofNat, Nat.testBit_two_pow_of_ne (Ne.symm hne),
      Bool.and_false, Bool.or_false]

/-- The mask bits of the MSI-X table. -/
def Io.setVecMask (s : Io) (w : BitVec 64) : Io := { s with pcie := { s.pcie with vecMask := w } }

theorem msixResume_completes {s : State} (hon : s.on = true) (v : Fin 64) (masked : Bool) : Completes (.msixResume v masked) s (fun t =>
    tb t.io.pcie.vecMask v.val = masked ∧ (∀ n : Fin 64, n ≠ v → tb t.io.pcie.vecMask n.val = tb s.io.pcie.vecMask n.val) ∧
    (s.io.mayMsix = true → masked = false → tb t.io.pcie.pend v.val = false ∧
      (tb s.io.pcie.pend v.val = true → s.io.level v.val = true →
        .msix v.val (s.io.pcie.vecAddr.get 0 v.val) (s.io.pcie.vecData.get 0 v.val) ∈ t.io.out)) ∧
    t = { s with io := { s.io with pcie := { s.io.pcie with vecMask := t.io.pcie.vecMask, pend := t.io.pcie.pend },
                                   out := t.io.out } }) := by
  obtain ⟨w, hw⟩ : ∃ w, w = if masked then s.io.pcie.vecMask ||| BitVec.ofNat 64 (2 ^ v.val)
    else s.io.pcie.vecMask &&& ~~~ (BitVec.ofNat 64 (2 ^ v.val)) := ⟨_, rfl⟩
  have e : s.msixResume v.val masked = (s.upIo fun io => io.setVecMask w).upIo fun io => io.flushPend := by
    unfold State.msixResume
    dsimp only
    congr 1
    rw [hw]
    rfl
  have hf : (s.io.setVecMask w).Flushed (s.io.setVecMask w).flushPend := Io.flushed_foldl _ _
  have hmask : (s.io.setVecMask w).flushPend.pcie.vecMask = w := by
    rw [hf.frame]
    rfl
  have hpw : (s.io.setVecMask w).pcie.vecMask = w := rfl
  have hr : (s.io.setVecMask w).regs = s.io.regs := rfl
  refine .live_eq (f := fun s => s.msixResume v.val masked) rfl hon e (by simp) ⟨?_, fun n hn => ?_, fun hm hu => ?_, ?_⟩
  · rw [State.upIo_io, State.upIo_io, hmask, hw, tb_mask]
  · rw [State.upIo_io, State.upIo_io, hmask, hw, tb_mask_ne _ _ hn]
  · have hm' : (s.io.setVecMask w).mayMsix = true := hm
    have hs := Io.settled_flushPend (s.io.setVecMask w) v.isLt hm' (by rw [hpw, hw, tb_mask, hu])
    unfold Io.Settled at hs
    rw [Io.level_congr (s := s.io) hr] at hs
    exact hs
  · unfold State.upIo
    dsimp only
    rw [hmask]
    exact congrArg (fun x => ({ s with io := x } : State)) hf.frame

/-! ### The end of a soft reset -/

/-- The header words the end of a soft reset writes (R71). -/
def softWord (b a : Nat) : Prop := a = b + 0x10 ∨ a = b + 0x1C ∨ a = b + 0x20 ∨ a = b + 0x24 ∨ a = b + PG_STAT.RST_BUSY.off

theorem Io.rd_setIrqStat (s : Io) (b : Nat) (v : W32) (a : Nat) : (s.setIrqStat b v).rd a = (s.wr (b + 0x10) v).rd a := by
  refine Io.rd_congr ?_ a
  unfold Io.setIrqStat
  rw [Io.edge_frame]

theorem Io.sends_setIrqStat (s : Io) (b : Nat) (v : W32) : s.Sends (s.setIrqStat b v) :=
  ⟨(Io.edge_irq s _ _ rfl).1, (Io.edge_irq s _ _ rfl).2⟩

theorem Io.Sends.put {s t : Io} (h : s.Sends t) (b : Nat) (f : Fld) (v i : Nat) (hr : f.rws = false) : s.Sends (t.put b f v i) :=
  h.trans (.of_regs (Io.put_frame _ _ _ _ _ hr))

theorem Io.sends_softClear (s : Io) (b : Nat) : s.Sends (s.softClear b) := by
  unfold Io.softClear
  exact (((((s.sends_setIrqStat b 0).trans (.of_regs rfl)).trans (.of_regs rfl)).put _ _ _ _ rfl).put _ _ _ _ rfl).put _ _ _ _ rfl

theorem Io.keeps_softClear (s : Io) (b : Nat) : s.Keeps (softWord b) (s.softClear b) := by
  unfold Io.softClear
  have h : s.Keeps (softWord b) (s.setIrqStat b 0) := ⟨fun a ha => (s.rd_setIrqStat b 0 a).trans (Io.rd_wr_ne _ _ fun e => ha (.inl e))⟩
  exact .after (.put _ _ _ _ _ rfl (by decide) (.inr (.inr (.inr (.inr rfl))))) (.after (.put _ _ _ _ _ rfl (by decide) (.inr (.inr (.inr (.inl rfl)))))
    (.after (.put _ _ _ _ _ rfl (by decide) (.inr (.inr (.inr (.inl rfl))))) (.after (.wr _ _ _ (.inr (.inr (.inl rfl)))) (.after (.wr _ _ _ (.inr (.inl rfl))) h))))

/-- What the end of a soft reset leaves in the header (R71). -/
structure SoftCleared (b : Nat) (s t : Io) : Prop where
  stat : t.rd (b + 0x10) = 0
  cap : t.rd (b + 0x1C) = 0
  cnt : t.rd (b + 0x20) = 0
  busy : t.get b PG_STAT.RST_BUSY = 0
  refused : t.get b PG_SHADOW_CTL.ARM_REFUSED = 0
  dropped : t.get b PG_SHADOW_CTL.WR_DROPPED = 0
  arm : t.get b PG_SHADOW_CTL.ARM = s.get b PG_SHADOW_CTL.ARM

theorem Io.softCleared (s : Io) (b : Nat) : SoftCleared b s (s.softClear b) := by
  have hrd (x : Io) (f : Fld) (a : Nat) (hf : f.off = 0xC ∨ f.off = 0x24) (hr : f.rws = false ∧ f.lo + f.len ≤ 32) (ha : a ≠ 0xC ∧ a ≠ 0x24) :
      (x.put b f 0).rd (b + a) = x.rd (b + a) := by
    rw [Io.rd_put _ _ _ _ _ _ hr.1 hr.2, if_neg (by omega)]
  have hne (k l : Nat) (h : k ≠ l) : b + k ≠ b + l := by omega
  have hfld (x : Io) (f g : Fld) (hf : f.off = 0x24 ∧ f.stride = 4 ∧ f.rws = false ∧ f.lo + f.len ≤ 32)
      (hg : g.off = 0x24 ∧ g.stride = 4 ∧ g.rws = false ∧ g.lo + g.len ≤ 32) (h : g.lo + g.len ≤ f.lo ∨ f.lo + f.len ≤ g.lo) :
      (x.put b f 0).get b g = x.get b g :=
    Io.get_put_field _ _ _ _ _ _ _ hf.2.2.1 hf.2.2.2 hg.2.2.1 hg.2.2.2 (by rw [hf.1, hg.1, hf.2.1, hg.2.1]) h
  unfold Io.softClear
  dsimp only
  refine ⟨?_, ?_, ?_, ?_, ?_, ?_, ?_⟩
  · rw [hrd _ _ _ (by decide) (by decide) (by decide), hrd _ _ _ (by decide) (by decide) (by decide), hrd _ _ _ (by decide) (by decide) (by decide),
      Io.rd_wr_ne _ _ (hne _ _ (by decide)), Io.rd_wr_ne _ _ (hne _ _ (by decide)), Io.rd_setIrqStat, Io.rd_wr_same]
  · rw [hrd _ _ _ (by decide) (by decide) (by decide), hrd _ _ _ (by decide) (by decide) (by decide), hrd _ _ _ (by decide) (by decide) (by decide),
      Io.rd_wr_ne _ _ (hne _ _ (by decide)), Io.rd_wr_same]
  · rw [hrd _ _ _ (by decide) (by decide) (by decide), hrd _ _ _ (by decide) (by decide) (by decide), hrd _ _ _ (by decide) (by decide) (by decide),
      Io.rd_wr_same]
  · rw [Io.get_put _ _ _ _ _ rfl (by decide)]
    rfl
  all_goals rw [Io.get_put_ne _ _ _ _ _ _ _ _ rfl (by decide) rfl (by decide) (hne _ _ (by decide))]
  · rw [hfld _ PG_SHADOW_CTL.WR_DROPPED PG_SHADOW_CTL.ARM_REFUSED (by decide) (by decide) (by decide), Io.get_put _ _ _ _ _ rfl (by decide)]
    rfl
  · rw [Io.get_put _ _ _ _ _ rfl (by decide)]
    rfl
  · rw [hfld _ PG_SHADOW_CTL.WR_DROPPED PG_SHADOW_CTL.ARM (by decide) (by decide) (by decide),
      hfld _ PG_SHADOW_CTL.ARM_REFUSED PG_SHADOW_CTL.ARM (by decide) (by decide) (by decide), Io.get_narrow _ _ _ _ rfl (by decide),
      Io.get_narrow _ _ _ _ rfl (by decide)]
    refine congrArg (fun w => gb w _ _) ?_
    exact (Io.rd_wr_ne _ _ (hne _ _ (by decide))).trans ((Io.rd_wr_ne _ _ (hne _ _ (by decide))).trans
      ((Io.rd_setIrqStat ..).trans (Io.rd_wr_ne _ _ (hne _ _ (by decide)))))

/-- The header reads the same where its words do. -/
theorem SoftCleared.later {b : Nat} {s t u : Io} (h : SoftCleared b s t) (hw : ∀ o < 0x40, u.rd (b + o) = t.rd (b + o)) : SoftCleared b s u := by
  have hg (f : Fld) (hf : f.off < 0x40 ∧ f.rws = false ∧ f.lo + f.len ≤ 32) : u.get b f = t.get b f := by
    rw [Io.get_narrow _ _ _ _ hf.2.1 hf.2.2, Io.get_narrow _ _ _ _ hf.2.1 hf.2.2]
    exact congrArg (fun w => gb w f.lo f.len) (hw f.off hf.1)
  exact ⟨(hw _ (by decide)).trans h.stat, (hw _ (by decide)).trans h.cap, (hw _ (by decide)).trans h.cnt,
    (hg _ (by decide)).trans h.busy, (hg _ (by decide)).trans h.refused, (hg _ (by decide)).trans h.dropped, (hg _ (by decide)).trans h.arm⟩

theorem Io.Keeps.maxTo {p : Nat → Prop} (s : Io) (b : Nat) (f : Fld) (v i : Nat) (hr : f.rws = false) (hl : f.lo + f.len ≤ 32)
    (hp : p (b + f.off + f.stride * i)) : s.Keeps p (s.maxTo b f v i) := by
  unfold Io.maxTo
  exact .cond (.put s b f _ i hr hl hp) (.refl _ _)

/-- Setting the queue of learn events changes one word of the page. -/
theorem State.keeps_setLearnQ (s : State) (p : Nat) (l : List LearnEv) :
    KeepsWords (· = pgL2t p + L2T_LEARN_Q.DEPTH.off) s (s.setLearnQ p l) := by
  unfold State.setLearnQ
  exact .after (.upIo (.maxTo _ _ _ _ _ rfl (by decide) rfl)) (.after (.put _ _ _ _ _ rfl (by decide) rfl) (.of_regs rfl _))

/-- The state a soft reset's end leaves before what the page's own chapter names. -/
def State.softFirst (s : State) (pg : Page) : State :=
  s.upIo fun io => (if pg.kind = .ring then io.modRestart pg.idx else io).softClear pg.base

theorem State.softFirst_cleared (s : State) (pg : Page) : SoftCleared pg.base s.io (s.softFirst pg).io := by
  have h := Io.softCleared (if pg.kind = .ring then s.io.modRestart pg.idx else s.io) pg.base
  refine ⟨h.stat, h.cap, h.cnt, h.busy, h.refused, h.dropped, h.arm.trans ?_⟩
  split <;> rfl

theorem State.keeps_softFirst (s : State) (pg : Page) : KeepsWords (softWord pg.base) s (s.softFirst pg) :=
  .upIo (.after (Io.keeps_softClear ..) (.cond (.of_regs rfl) (.refl _ _)))

theorem State.softDone_eq (s : State) (pg : Page) : s.softDone pg =
    match pg.kind with
    | .l2t => ((s.softFirst pg).ctr pg.base L2T_LEARN_DROP_CNT.COUNT ((s.softFirst pg).learnQ pg.idx).length).setLearnQ pg.idx []
    | .pip => (s.softFirst pg).upIo fun io => io.wr (pg.base + 0x060) 0
    | .eth3 => { s.softFirst pg with buf := { (s.softFirst pg).buf with txts := (s.softFirst pg).buf.txts.drop fun n => n / 4 == pg.idx } }
    | _ => s.softFirst pg := by
  unfold State.softDone
  rfl

theorem State.softDone_plain {s : State} {pg : Page} (h1 : pg.kind ≠ .l2t) (h2 : pg.kind ≠ .pip) (h3 : pg.kind ≠ .eth3) :
    s.softDone pg = s.softFirst pg := by
  rw [softDone_eq]
  split
  next h => exact absurd h h1
  next h => exact absurd h h2
  next h => exact absurd h h3
  next => rfl

/-- What a page's own chapter names beside its header. -/
theorem State.softDone_word {s : State} {pg : Page} {a : Nat} (hp : pageOf a = some pg) {o : Nat} (ho : o < 0x40) :
    (s.softDone pg).io.rd (pg.base + o) = (s.softFirst pg).io.rd (pg.base + o) := by
  have hpipe := (pageOf_some hp).inPipe
  have hpmc : pgPmc = 0x140000 := rfl
  rw [softDone_eq]
  split
  next hk =>
    obtain ⟨h1, h2⟩ := hpipe (by rw [hk]; rfl)
    have hl : pgL2t pg.idx = 0x1000000 + pg.idx * 0x100000 + 0x20000 := rfl
    have hq : L2T_LEARN_Q.DEPTH.off = 0x50 := rfl
    have hd : L2T_LEARN_DROP_CNT.COUNT.off + L2T_LEARN_DROP_CNT.COUNT.stride * 0 = 0x98 := rfl
    have hc := KeepsWords.ctr (p := fun a => inPage pgPmc a ∨ pg.base + 0x40 ≤ a) (s.softFirst pg) pg.base L2T_LEARN_DROP_CNT.COUNT
      ((s.softFirst pg).learnQ pg.idx).length 0 (.inr (by omega)) (.inr (by omega)) fun _ => .inl
    exact (keeps_setLearnQ _ _ _ _ (by omega)).trans (hc _ (by unfold inPage; omega))
  next hk => exact Io.rd_wr_ne _ _ (by omega)
  next hk => rfl
  next => rfl

theorem State.fwd_setLearnQ (s : State) (p : Nat) (l : List LearnEv) :
    (s.setLearnQ p l).fwd = { s.fwd with learn := s.fwd.learn.set [] p l } := by
  unfold State.setLearnQ
  rw [upIo_fwd, put_fwd]

theorem State.Within.eq_ioFwdBuf {s t : State} (h : s.Within (ioParts ++ [.fwd, .buf]) t) : t = { s with io := t.io, fwd := t.fwd, buf := t.buf } := h.eq

theorem State.softDone_fwd (s : State) (pg : Page) : (s.softDone pg).fwd = { s.fwd with learn := (s.softDone pg).fwd.learn } := by
  have h0 : (s.softFirst pg).fwd = s.fwd := by
    unfold softFirst
    rw [upIo_fwd]
  rw [softDone_eq]
  split
  next => rw [fwd_setLearnQ, ctr_fwd, h0]
  next => rw [upIo_fwd, h0]
  next => exact h0
  next => rw [h0]

theorem State.softDone_buf (s : State) (pg : Page) : (s.softDone pg).buf = { s.buf with txts := (s.softDone pg).buf.txts } := by
  have h0 : (s.softFirst pg).buf = s.buf := by
    unfold softFirst
    rw [upIo_buf]
  rw [softDone_eq]
  split
  next =>
    have hq (x : State) (p : Nat) (l : List LearnEv) : (x.setLearnQ p l).buf = x.buf := by
      unfold State.setLearnQ
      rw [upIo_buf, put_buf]
    rw [hq, ctr_buf, h0]
  next => rw [upIo_buf, h0]
  next => rw [h0]
  next => rw [h0]

theorem State.softDone_frame (s : State) (pg : Page) : s.softDone pg =
    { s with io := (s.softDone pg).io, fwd := { s.fwd with learn := (s.softDone pg).fwd.learn },
             buf := { s.buf with txts := (s.softDone pg).buf.txts } } := by
  rw [← softDone_fwd, ← softDone_buf]
  exact (s.within_softDone pg |>.mono (by decide)).eq_ioFwdBuf

theorem State.softDone_own (s : State) (pg : Page) : (pg.kind = .l2t → (s.softDone pg).fwd.learn.get [] pg.idx = []) ∧
    (pg.kind = .eth3 → ∀ j : Fin 4, (s.softDone pg).txtsFifo (4 * pg.idx + j.val) = []) ∧
    (pg.kind = .ring → (s.softDone pg).io.modCnt.get 0 pg.idx = 0) := by
  refine ⟨fun hk => ?_, fun hk j => ?_, fun hk => ?_⟩
  · rw [softDone_eq, hk]
    dsimp only
    rw [fwd_setLearnQ, SMap.get_set_same]
  · have hj : ((4 * pg.idx + j.val) / 4 == pg.idx) = true := beq_iff_eq.mpr (by omega)
    rw [softDone_eq, hk]
    exact SMap.get_drop_of _ _ (p := fun n => n / 4 == pg.idx) (k := 4 * pg.idx + j.val) hj
  · rw [softDone_plain (by rw [hk]; decide) (by rw [hk]; decide) (by rw [hk]; decide)]
    have h : (s.softFirst pg).io.modCnt = (s.io.modRestart pg.idx).modCnt := by
      unfold State.softFirst
      rw [upIo_io, if_pos hk]
      exact (Io.within_softClear ..).same .modCnt (by decide)
    rw [h]
    unfold Io.modRestart
    exact SMap.get_set_same s.io.modCnt 0 0 pg.idx

theorem softReset_completes {s : State} {a : BitVec 26} {pg : Page} (hon : s.on = true) (hp : pageOf a.toNat = some pg)
    (hb : s.get pg.base PG_STAT.RST_BUSY = 1) : Completes (.softResetDone a) s (fun t =>
      t.io.rd (pg.base + 0x10) = 0 ∧ t.io.rd (pg.base + 0x1C) = 0 ∧ t.io.rd (pg.base + 0x20) = 0 ∧
      t.get pg.base PG_STAT.RST_BUSY = 0 ∧ t.get pg.base PG_SHADOW_CTL.ARM_REFUSED = 0 ∧
      t.get pg.base PG_SHADOW_CTL.WR_DROPPED = 0 ∧
      t.get pg.base PG_SHADOW_CTL.ARM = s.get pg.base PG_SHADOW_CTL.ARM ∧ t = { s with io := t.io, fwd := { s.fwd with learn := t.fwd.learn }, buf := { s.buf with txts := t.buf.txts } } ∧
      (pg.kind = .l2t → t.fwd.learn.get [] pg.idx = []) ∧
      (pg.kind = .eth3 → ∀ j : Fin 4, t.txtsFifo (4 * pg.idx + j.val) = []) ∧
      (pg.kind = .ring → t.io.modCnt.get 0 pg.idx = 0) ∧
      (pg.kind ≠ .l2t → pg.kind ≠ .pip → pg.kind ≠ .eth3 → pg.kind ≠ .ring → OnlyIrq s t ∧
        KeepsWords (fun b => b = pg.base + 0x10 ∨ b = pg.base + 0x1C ∨ b = pg.base + 0x20 ∨ b = pg.base + 0x24 ∨
          b = pg.base + PG_STAT.RST_BUSY.off) s t)) := by
  have e : s.softEnd a.toNat = s.softDone pg := by
    unfold State.softEnd
    rw [hp]
    exact if_pos hb
  have hc := (s.softFirst_cleared pg).later fun o ho => s.softDone_word hp ho
  obtain ⟨h1, h2, h3⟩ := s.softDone_own pg
  refine .live_eq (f := fun s => s.softEnd a.toNat) rfl hon e ((State.within_softDone ..).same .pending (by decide))
    ⟨hc.stat, hc.cap, hc.cnt, hc.busy, hc.refused, hc.dropped, hc.arm, s.softDone_frame pg, h1, h2, h3, fun k1 k2 k3 k4 => ?_⟩
  rw [State.softDone_plain k1 k2 k3]
  refine ⟨?_, s.keeps_softFirst pg⟩
  refine Io.Sends.state (f := fun io => (if pg.kind = .ring then io.modRestart pg.idx else io).softClear pg.base) ?_
  rw [if_neg k4]
  exact s.io.sends_softClear pg.base

/-- Settles O7: the header's writes, the end of a soft reset, and the messages, each by the words it writes and the messages it sends. -/
theorem pageHeaderAndMessages : Obligations.PageHeaderAndMessages := by
  refine ⟨fun s m a pg hon hp => ⟨fun hs hr hk => ⟨softRst_completes hon hp hs hr hk, irqForce_completes hon hp hs hr hk⟩,
    softReset_completes hon hp, fun hb => ?_⟩, fun s m hon => ⟨irqRearm_completes hon, msixResume_completes hon⟩⟩
  refine .live (f := fun s => s.softEnd a.toNat) rfl ?_
  unfold State.softEnd
  rw [hp]
  exact if_neg (by omega)

end Sys2Proof.Machine
end

section
/-!
SUPPORT. Steps of the time base and the paired read of the time (R41, R60).
-/
namespace Sys2Proof.Machine

/-! ### Words, for any field -/

theorem Io.Keeps.putAny {p : Nat → Prop} (s : Io) (b : Nat) (f : Fld) (v i : Nat) (h1 : p (b + f.off + f.stride * i))
    (h2 : p (b + f.off + f.stride * i + 4)) : s.Keeps p (s.put b f v i) := by
  unfold Io.put
  split
  · exact .of_regs rfl
  · split
    · exact .wr _ _ _ h1
    · exact .after (.wr _ _ _ h2) (.wr _ _ _ h1)

theorem KeepsWords.putAny {p : Nat → Prop} (s : State) (b : Nat) (f : Fld) (v i : Nat) (h1 : p (b + f.off + f.stride * i))
    (h2 : p (b + f.off + f.stride * i + 4)) : KeepsWords p s (s.put b f v i) := .upIo (.putAny s.io b f v i h1 h2)

/-- Every part of `io` outside the footprint is as it was. -/
theorem State.Within.io_eq {F : List Part} {s t : State} (h : s.Within F t) (hF : ∀ p ∈ ioParts, p ∉ F) : t.io = s.io := by
  have e (p : Part) (hp : p ∈ ioParts) : p.Same s t := h.same p (hF p hp)
  have h1 := e .regs (by decide); have h2 := e .bank (by decide); have h3 := e .sticky (by decide); have h4 := e .acc (by decide)
  have h5 := e .ctrSlot (by decide); have h6 := e .timeSlot (by decide); have h7 := e .wcount (by decide); have h8 := e .modCnt (by decide)
  have h9 := e .fetch (by decide); have h10 := e .taken (by decide); have h11 := e .drained (by decide); have h12 := e .time (by decide)
  have h13 := e .clk (by decide); have h14 := e .pcie (by decide); have h15 := e .sys (by decide); have h16 := e .nvm (by decide)
  have h17 := e .ras (by decide); have h18 := e .featDone (by decide); have h19 := e .out (by decide); have h20 := e .free (by decide)
  cases hs : s.io
  cases ht : t.io
  simp only [Part.Same, hs, ht] at *
  subst_vars
  rfl

/-! ### Gates and tokens at a step -/

/-- A word of the gate pages, or above them. -/
def tgtWord (a : Nat) : Prop := pgTgt ≤ a

theorem tgtWord_page (n o : Nat) : tgtWord (pgTgtP n + o) := by
  have h : pgTgtP n = 0xE00000 + (1 + n) * 0x1000 := rfl
  have h' : pgTgt = 0xE00000 := rfl
  unfold tgtWord
  omega

theorem tgtWord_add {a : Nat} (h : tgtWord a) (n : Nat) : tgtWord (a + n) := Nat.le_trans h (Nat.le_add_right a n)

namespace State

theorem keeps_putTgt (s : State) {b : Nat} (hb : tgtWord b) (f : Fld) (v i : Nat) : KeepsWords tgtWord s (s.put b f v i) :=
  .putAny s b f v i (tgtWord_add (tgtWord_add hb _) _) (tgtWord_add (tgtWord_add (tgtWord_add hb _) _) _)

theorem keeps_enforce (s : State) (n : Nat) (l : GateList) : KeepsWords tgtWord s (s.enforce n l) := by
  have hb : tgtWord (pgTgtP n) := tgtWord_page n 0
  have hg : tgtWord pgTgt := Nat.le_refl _
  have ht (x : State) (f g k : Fld) (t : Nat) : KeepsWords tgtWord x (x.putTime (pgTgtP n) f g k t) :=
    .after (keeps_putTgt _ hb _ _ _) (.after (keeps_putTgt _ hb _ _ _) (keeps_putTgt _ hb _ _ _))
  unfold enforce
  exact .after (keeps_putTgt _ hg _ _ _) (.foldl (fun q _ x => x.keeps_putTgt hb _ _ q) (.after (ht _ _ _ _ _)
    (.after (keeps_putTgt _ hb _ _ _) (.after (keeps_putTgt _ hb _ _ _) (.after (keeps_putTgt _ hb _ _ _) (.of_regs rfl _))))))

theorem keeps_listBegin (s : State) (n : Nat) : KeepsWords tgtWord s (s.listBegin n) := by
  have hb : tgtWord (pgTgtP n) := tgtWord_page n 0
  unfold listBegin
  split
  · exact .refl _ _
  · split
    · exact .after (.raise _ _ _ (tgtWord_add hb _)) (.after (keeps_enforce _ _ _) (.after (keeps_putTgt _ hb _ _ _) (.of_regs rfl _)))
    · exact .refl _ _

theorem keeps_listsDue (s : State) : KeepsWords tgtWord s s.listsDue := .foldl (fun n _ x => x.keeps_listBegin n) (.refl _ _)

theorem keeps_gatesStepped (s : State) : KeepsWords tgtWord s s.gatesStepped :=
  .after (keeps_listsDue _) (.foldl (fun n _ x => x.keeps_putTgt (tgtWord_page n 0) _ _ 0) (.refl _ _))

theorem keeps_stepped (s old : State) : KeepsWords tgtWord s (s.stepped old) := by
  unfold stepped
  exact .cond (.refl _ _) (.after (keeps_gatesStepped _) (.of_within (within_qncStep _ _ _) (by decide)))

/-- Refills that were due have taken place, and are due no more. -/
theorem refillDue_io (s : State) : s.refillDue.io = { s.io with time := { s.io.time with due := { s.io.time.due with refill := 0 } } } := by
  have h := State.Within.foldl (fun x _ => within_refillAll x) (l := List.range s.io.time.due.refill)
    ((State.Within.refl (s.upIo fun io => { io with time := { io.time with due := { io.time.due with refill := 0 } } })).mono (List.nil_subset _))
  exact h.io_eq (by decide)

end State

/-! ### The step on the time base -/

namespace Io

variable (s : Io)

/-- The word of STEP_BACK. -/
def statWord (a : Nat) : Prop := a = pgEpc + EPC_STAT.STEP_BACK.off

/-- The time base has been stepped: its time is `b` ns and `sub`; what was counted stands (R41, R44). -/
structure Stepped (s t : Io) (b sub : Nat) (set : Bool) : Prop where
  ns : t.time.ns = b
  sub : t.time.sub = sub
  set : t.time.set = set
  counted : t.time.counted = s.time.counted
  stepped : t.time.stepped = some s.time.ns
  back : b < s.time.ns → t.get pgEpc EPC_STAT.STEP_BACK = 1
  keeps : s.Keeps statWord t

theorem time_stepTo (b sub : Nat) : ∃ d, (s.stepTo b sub).time = { s.time with ns := b, sub := sub, due := d } := by
  have h (x : Io) (a k : Nat) (e : Bool) : ∃ d, (x.markDue a b k e).time = { x.time with due := d } := ⟨_, rfl⟩
  obtain ⟨d, hd⟩ := h { s with time := { s.time with ns := b, sub := sub } } s.time.ns s.time.counted true
  refine ⟨d, ?_⟩
  unfold stepTo
  dsimp only
  split
  · exact ((within_put ..).same .time (by decide)).trans hd
  · exact hd

theorem regs_markDue (a b c : Nat) (e : Bool) : (s.markDue a b c e).regs = s.regs := (within_markDue ..).same .regs (by decide)

theorem keeps_stepTo (b sub : Nat) : s.Keeps statWord (s.stepTo b sub) := by
  have h : s.Keeps statWord (({ s with time := { s.time with ns := b, sub := sub } } : Io).markDue s.time.ns b s.time.counted true) :=
    .of_regs (regs_markDue ..)
  unfold stepTo
  exact .cond (.after (.put _ _ _ _ _ rfl (by decide) rfl) h) h

theorem back_stepTo {b : Nat} (sub : Nat) (h : b < s.time.ns) : (s.stepTo b sub).get pgEpc EPC_STAT.STEP_BACK = 1 := by
  unfold stepTo
  dsimp only
  rw [if_pos (by exact decide_eq_true (.inl h)), get_put _ _ _ _ _ rfl (by decide)]
  rfl

theorem stepped_stepBy (b sub : Nat) : Stepped s (s.stepBy b sub) b sub s.time.set := by
  obtain ⟨d, hd⟩ := s.time_stepTo b sub
  have hk := s.keeps_stepTo b sub
  have hb := s.back_stepTo (b := b) sub
  unfold stepBy
  dsimp only
  generalize s.stepTo b sub = x at hd hk hb
  exact ⟨(congrArg TimeBase.ns hd :), (congrArg TimeBase.sub hd :), (congrArg TimeBase.set hd :), (congrArg TimeBase.counted hd :), rfl,
    fun h => (get_congr rfl rfl ..).trans (hb h), hk.trans (.of_regs rfl)⟩

theorem stepped_stepAbsolute {m : Nat} (h : s.get pgEpc EPC_STEP_NS.NS < 1000000000) : Stepped s (s.stepAbsolute m)
    (1000000000 * s.get pgEpc EPC_STEP_SEC.SEC + s.get pgEpc EPC_STEP_NS.NS) 0 true := by
  have hs := s.stepped_stepBy (1000000000 * s.get pgEpc EPC_STEP_SEC.SEC + s.get pgEpc EPC_STEP_NS.NS) 0
  unfold stepAbsolute
  dsimp only
  rw [if_neg (by omega)]
  generalize s.stepBy _ 0 = x at hs ⊢
  exact ⟨hs.ns, hs.sub, rfl, hs.counted, hs.stepped, fun h => (get_congr rfl rfl ..).trans (hs.back h), hs.keeps.trans (.of_regs rfl)⟩

theorem stepAbsolute_refused {m : Nat} (h : 1000000000 ≤ s.get pgEpc EPC_STEP_NS.NS) : s.stepAbsolute m = s.err pgEpc 3 m 0x060 := if_pos h

/-- Where a relative step leads. -/
def relTarget (s : Io) : Int :=
  (s.time.ns : Int) + (1000000000 * toSigned 32 (s.get pgEpc EPC_STEP_SEC.SEC) + toSigned 32 (s.get pgEpc EPC_STEP_NS.NS))

theorem stepRelative_taken {m : Nat} (h : 0 ≤ s.relTarget) (h' : s.relTarget < 1000000000 * 2 ^ 48) :
    s.stepRelative m = s.stepBy s.relTarget.toNat s.time.sub := by
  refine if_neg ?_
  change ¬ (s.relTarget < 0 ∨ (1000000000 : Int) * 281474976710656 ≤ s.relTarget)
  omega

theorem stepRelative_refused {m : Nat} (h : s.relTarget < 0 ∨ 1000000000 * 2 ^ 48 ≤ s.relTarget) :
    s.stepRelative m = s.err pgEpc 3 m 0x060 := by
  refine if_pos ?_
  change s.relTarget < 0 ∨ (1000000000 : Int) * 281474976710656 ≤ s.relTarget
  omega

end Io

/-- The register words and the time base that a step starts from. -/
theorem State.get_refillDue (s : State) (b : Nat) (f : Fld) (i : Nat) : s.refillDue.io.get b f i = s.get b f i := by
  rw [s.refillDue_io]
  exact Io.get_congr rfl rfl ..

theorem State.relTarget_refillDue (s : State) : s.refillDue.io.relTarget = s.io.relTarget := by
  unfold Io.relTarget
  rw [s.get_refillDue, s.get_refillDue, s.refillDue_io]
  rfl

theorem State.fabricWrite_stepCtl {s : State} {m : Nat} (v : Nat) (ht : s.takesWrite m (pgEpc + EPC_STEP_CTL.GO.off) = true)
    (hm : ctlMaster m = true) : s.fabricWrite m (pgEpc + EPC_STEP_CTL.GO.off) v = s.stepCtl m v :=
  fabricWrite_epc ht hm (by decide) (h := _) rfl

theorem State.Within.eq_ioBufQnc {s t : State} (h : s.Within (ioParts ++ [.buf, .qnc]) t) : t = { s with io := t.io, buf := t.buf, qnc := t.qnc } := h.eq
theorem State.Within.eq_ioBuf {s t : State} (h : s.Within (ioParts ++ [.buf]) t) : t = { s with io := t.io, buf := t.buf } := h.eq

/-- What a step taken leaves. -/
def StepTaken (s : State) (ns sub : Nat) (set : Bool) (t : State) : Prop :=
  t.io.time.ns = ns ∧ t.io.time.sub = sub ∧ t.io.time.set = set ∧ t.io.time.counted = s.io.time.counted ∧
  t.io.time.stepped = some s.io.time.ns ∧ (ns < s.io.time.ns → t.get pgEpc EPC_STAT.STEP_BACK = 1) ∧
  t.get pgEpc EPC_EPOCH_NUM.NUM = s.get pgEpc EPC_EPOCH_NUM.NUM ∧ t = { s with io := t.io, buf := t.buf, qnc := t.qnc }

/-- What a step refused leaves. -/
def StepRefused (s : State) (t : State) : Prop :=
  t.io.time.ns = s.io.time.ns ∧ t.io.time.sub = s.io.time.sub ∧ t.io.time.set = s.io.time.set ∧
  t.get pgEpc PG_ERR_CNT.COUNT = min (2 ^ 32 - 1) (s.get pgEpc PG_ERR_CNT.COUNT + 1) ∧ t = { s with io := t.io, buf := t.buf }

theorem State.stepCtl_taken {s : State} {m v : Nat} {ns sub : Nat} {set : Bool}
    (h : Io.Stepped s.refillDue.io (s.refillDue.io.stepCtl m v s.follower) ns sub set) : StepTaken s ns sub set (s.stepCtl m v) := by
  have hx : (s.stepCtl m v).io.time = (s.refillDue.io.stepCtl m v s.follower).time := (within_stepped ..).same .time (by decide)
  have hk := keeps_stepped (s.refillDue.upIo fun io => io.stepCtl m v s.follower) s.refillDue
  have hn : s.refillDue.io.time.ns = s.io.time.ns := by rw [s.refillDue_io]
  have hc : s.refillDue.io.time.counted = s.io.time.counted := by rw [s.refillDue_io]
  have hlow (o : Nat) (ho : o < 0x1000) : ¬ tgtWord (pgEpc + o) := by
    have e : pgTgt = 0xE00000 := rfl
    have e' := pgEpc_eq
    unfold tgtWord
    omega
  refine ⟨by rw [hx, h.ns], by rw [hx, h.sub], by rw [hx, h.set], by rw [hx, h.counted, hc], by rw [hx, h.stepped, hn], fun hb => ?_, ?_,
    ((State.within_stepCtl s m v).mono (by decide)).eq_ioBufQnc⟩
  · exact (KeepsWords.get hk pgEpc EPC_STAT.STEP_BACK 0 (hlow _ (by decide))).trans (h.back (by rw [hn]; exact hb))
  · refine (KeepsWords.get hk pgEpc EPC_EPOCH_NUM.NUM 0 (hlow _ (by decide))).trans ?_
    rw [← s.get_refillDue]
    refine State.get_of_rd (s := s.refillDue) (t := s.refillDue.upIo fun io => io.stepCtl m v s.follower) pgEpc EPC_EPOCH_NUM.NUM 0 rfl (by decide) ?_
    exact h.keeps.rd _ (by unfold Io.statWord; decide)

theorem State.stepCtl_refused {s : State} {m v ty : Nat}
    (h : s.refillDue.io.stepCtl m v s.follower = s.refillDue.io.err pgEpc ty m 0x060) : StepRefused s (s.stepCtl m v) := by
  have ht : (s.refillDue.io.stepCtl m v s.follower).time = s.refillDue.io.time := by
    rw [h]
    exact (Io.within_err ..).same .time (by decide)
  have e : s.stepCtl m v = s.refillDue.upIo fun io => io.stepCtl m v s.follower := by
    unfold State.stepCtl State.stepped
    refine if_pos ?_
    rw [upIo_io, ht]
    exact ⟨rfl, rfl, rfl⟩
  rw [e]
  have hw : s.Within (ioParts ++ [.buf]) (s.refillDue.upIo fun io => io.stepCtl m v s.follower) :=
    .mono (.after (.upIo (Io.within_stepCtl ..)) (within_refillDue s)) (by decide)
  refine ⟨?_, ?_, ?_, ?_, hw.eq_ioBuf⟩
  · rw [upIo_io, ht, s.refillDue_io]
  · rw [upIo_io, ht, s.refillDue_io]
  · rw [upIo_io, ht, s.refillDue_io]
  · rw [get_eq, upIo_io, h, Io.get_err_count, s.get_refillDue]

section
variable {s : State} {m : Master} (hon : s.on = true) (ht : s.takesWrite m.id (pgEpc + EPC_STEP_CTL.GO.off) = true)
  (hm : ctlMaster m.id = true)
include hon ht hm

theorem timeStepRelative_runs {P : State → Prop} (h : P (s.stepCtl m.id 1)) : Completes (.timeStepRelative m) s P :=
  .live_eq (f := fun s => s.fabricWrite m.id (pgEpc + EPC_STEP_CTL.GO.off) 1) rfl hon (s.fabricWrite_stepCtl 1 ht hm)
    ((State.within_stepCtl ..).same .pending (by decide)) h

theorem timeStepAbsolute_runs {P : State → Prop} (h : P (s.stepCtl m.id 3)) : Completes (.timeStepAbsolute m) s P :=
  .live_eq (f := fun s => s.fabricWrite m.id (pgEpc + EPC_STEP_CTL.GO.off) 3) rfl hon (s.fabricWrite_stepCtl 3 ht hm)
    ((State.within_stepCtl ..).same .pending (by decide)) h

end

theorem Io.stepCtl_relative (s : Io) (m : Nat) : s.stepCtl m 1 false = s.stepRelative m := rfl
theorem Io.stepCtl_absolute (s : Io) (m : Nat) : s.stepCtl m 3 false = s.stepAbsolute m := rfl
theorem Io.stepCtl_follower (s : Io) (m v : Nat) : s.stepCtl m v true = s.err pgEpc 1 m 0x060 := rfl

theorem State.follower_refused {s : State} (hf : s.follower = true) (m v : Nat) : StepRefused s (s.stepCtl m v) :=
  stepCtl_refused (by rw [hf, Io.stepCtl_follower])

/-! ### The paired read (R60) -/

/-- A read of EPC_TIME_NS is the time slot's own read. -/
theorem State.readOut_timeNs {s : State} {m : Nat} (hr : s.io.ready .epc = true) (hb : s.get pgEpc PG_STAT.RST_BUSY = 0) :
    s.readOut m (pgEpc + EPC_TIME_NS.NS.off) = (s.upIo fun io => (io.timeNsRead m).2).emit (.read m s.io.nsec) := by
  obtain ⟨h, hh, hc⟩ : ∃ h, Kind.epc.regAt EPC_TIME_NS.NS.off = some h ∧ h.row.ctr = false := by
    have hall : (Kind.epc.regAt EPC_TIME_NS.NS.off).map (·.row.ctr) = some false := by decide
    simpa using hall
  have ho : pgEpc + EPC_TIME_NS.NS.off - pgEpc = EPC_TIME_NS.NS.off := by omega
  have hpage : s.rPage ⟨.epc, 0, pgEpc⟩ EPC_TIME_NS.NS.off m = (s.io.nsec, s.upIo fun io => (io.timeNsRead m).2) := by
    unfold State.rPage
    simp only [hr, hb, hh, hc]
    rw [if_neg (by decide), if_neg (by simp), if_neg (by simp)]
    rw [if_neg (by decide), if_neg (by simp), if_neg (by decide)]
    rfl
  unfold State.readOut State.fabricRead
  simp only [pageOf_epc (o := EPC_TIME_NS.NS.off) (by decide), State.stranger, State.fabCount_none s m false (pipeOfAddr_epc (o := EPC_TIME_NS.NS.off) (by decide)),
    ho, hpage, Bool.false_eq_true, if_false]

theorem timeNsRead_completes {s : State} {m : Master} (hon : s.on = true) (hr : s.io.ready .epc = true)
    (hb : s.get pgEpc PG_STAT.RST_BUSY = 0) : Completes (.timeNsRead m) s (fun t =>
      t.io.out = .read m.id (s.io.time.ns % 1000000000) :: s.io.out ∧
      t.io.timeSlot.get 0 m.id = s.io.time.ns / 1000000000 % 2 ^ 48 ∧
      (∀ k, k ≠ m.id → t.io.timeSlot.get 0 k = s.io.timeSlot.get 0 k) ∧
      t = { s with io := { s.io with timeSlot := t.io.timeSlot, out := t.io.out } }) := by
  refine .live_eq (f := fun s => s.readOut m.id (pgEpc + EPC_TIME_NS.NS.off)) rfl hon (State.readOut_timeNs hr hb) (by simp)
    ⟨rfl, ?_, fun k hk => ?_, rfl⟩
  · exact SMap.get_set_same ..
  · exact SMap.get_set_ne _ _ _ _ hk

/-- Settles O20: what a step leaves is the time base it moved to, seen through the refills before it and the gates after it. -/
theorem timeStepAndRead : Obligations.TimeStepAndRead := by
  refine ⟨fun s m hon ht hm => ⟨fun r hr hf => ⟨fun h h' => ?_, fun h => ?_⟩, fun hf h => ?_, fun hf h => ?_, fun hf c hc => ?_⟩,
    fun s m hon hr hb => timeNsRead_completes hon hr hb⟩
  · have hr' : s.refillDue.io.relTarget = r := s.relTarget_refillDue.trans hr.symm
    have hsub : s.refillDue.io.time.sub = s.io.time.sub := by rw [s.refillDue_io]
    have e : s.refillDue.io.stepCtl m.id 1 s.follower = s.refillDue.io.stepBy r.toNat s.io.time.sub := by
      rw [hf, Io.stepCtl_relative, Io.stepRelative_taken _ (by rw [hr']; exact h) (by rw [hr']; exact h'), hr', hsub]
    have hset : s.refillDue.io.time.set = s.io.time.set := by rw [s.refillDue_io]
    have hst := Io.stepped_stepBy s.refillDue.io r.toNat s.io.time.sub
    rw [← e, hset] at hst
    obtain ⟨h1, h2, h3, h4, h5, h6, h7⟩ := State.stepCtl_taken hst
    exact timeStepRelative_runs hon ht hm ⟨h1, h2, h3, h4, h5, fun hb => h6 (by omega), h7⟩
  · exact timeStepRelative_runs hon ht hm (State.stepCtl_refused (by
      rw [hf, Io.stepCtl_relative, Io.stepRelative_refused _ (by rw [s.relTarget_refillDue.trans hr.symm]; exact h)]) (ty := 3))
  · have hst := Io.stepped_stepAbsolute s.refillDue.io (m := m.id) (by rw [s.get_refillDue]; exact h)
    rw [← Io.stepCtl_absolute, ← hf, s.get_refillDue, s.get_refillDue] at hst
    obtain ⟨h1, h2, h3, h4, h5, h6, h7⟩ := State.stepCtl_taken hst
    exact timeStepAbsolute_runs hon ht hm ⟨h1, h2, h3, h4, h5, fun hb => h6 (by rw [h1] at hb; exact hb), h7⟩
  · exact timeStepAbsolute_runs hon ht hm (State.stepCtl_refused (by
      rw [hf, Io.stepCtl_absolute, Io.stepAbsolute_refused _ (by rw [s.get_refillDue]; exact h)]))
  · rcases hc with rfl | rfl
    · exact timeStepRelative_runs hon ht hm (State.follower_refused hf _ _)
    · exact timeStepAbsolute_runs hon ht hm (State.follower_refused hf _ _)

end Sys2Proof.Machine
end

section
/-!
SUPPORT. The drain and the bank copy after a commit (R51).
-/
namespace Sys2Proof.Machine

namespace Io

variable (s : Io)

/-- A register that records the largest value seen. -/
theorem get_maxTo {b : Nat} {f : Fld} {v i : Nat} (hr : f.rws = false) (hl : f.lo + f.len ≤ 32) :
    (s.maxTo b f v i).get b f i = max (s.get b f i) (min (2 ^ f.len - 1) v) := by
  have hlt := s.get_lt b f i hr hl
  have hp := Nat.two_pow_pos f.len
  unfold maxTo
  split
  · rw [get_put _ _ _ _ _ hr hl, Nat.mod_eq_of_lt (by omega)]
    omega
  · omega

/-- The copy of one word into the pending bank of the page at `b` (R51). -/
def copyWord (b a : Nat) : Io := s.bkSet a (1 - s.active b) (s.bk a (s.active b))

theorem active_lt (b : Nat) : s.active b < 2 := gb_lt _ _ _

theorem active_congr {s t : Io} {b : Nat} (h : t.rd (b + 0x24) = s.rd (b + 0x24)) : t.active b = s.active b :=
  congrArg (fun w => gb w 2 1) h

/-- The words of the active bank stand, and those of `l` are in both banks. -/
structure Copied (b : Nat) (l : List Nat) (s t : Io) : Prop where
  regs : t.regs = s.regs
  kept : ∀ a, t.bk a (s.active b) = s.bk a (s.active b)
  both : ∀ a ∈ l, t.bk a (1 - s.active b) = s.bk a (s.active b)

theorem Copied.refl (b : Nat) : Copied b [] s s := ⟨rfl, fun _ => rfl, by simp⟩

theorem Copied.word {b : Nat} {l : List Nat} {s t : Io} (h : Copied b l s t) (a : Nat) : Copied b (l ++ [a]) s (t.copyWord b a) := by
  have ha : t.active b = s.active b := active_congr (rd_congr h.regs _)
  have hlt := s.active_lt b
  unfold copyWord
  rw [ha, h.kept]
  refine ⟨h.regs, fun c => ?_, fun c hc => ?_⟩
  · rw [bk_bkSet_ne _ _ (by omega), h.kept]
  · by_cases e : c = a
    · rw [e, bk_bkSet_same]
    · rw [bk_bkSet_ne _ _ (by omega)]
      exact h.both c (by simpa [e] using hc)

/-- The words of a row that the bank copy visits. -/
def rwsWords (b : Nat) (r : RegRow) : List Nat := if r.rws = 0 then [] else (List.range r.count).map fun i => b + r.off + r.stride * i

theorem Copied.words {b : Nat} (l : List Nat) : ∀ {k : List Nat} {s t : Io}, Copied b k s t → Copied b (k ++ l) s (l.foldl (fun x a => x.copyWord b a) t) := by
  induction l with
  | nil => intro k s t h; simpa using h
  | cons a l ih => intro k s t h; simpa using ih (h.word a)

theorem copyRws_eq (pg : Page) : s.copyRws pg = (pg.kind.rows.flatMap (rwsWords pg.base)).foldl (fun x a => x.copyWord pg.base a) s := by
  rw [List.foldl_flatMap]
  unfold copyRws
  congr 1
  funext x r
  unfold rwsWords
  split
  · rfl
  · rw [List.foldl_map]
    rfl

theorem copied_copyRws (pg : Page) : Copied pg.base (pg.kind.rows.flatMap (rwsWords pg.base)) s (s.copyRws pg) := by
  rw [copyRws_eq]
  exact (Copied.refl s pg.base).words _

theorem mem_rwsWords {b : Nat} {rs : List RegRow} {r : RegRow} (hr : r ∈ rs) (h : r.rws ≠ 0) {i : Nat} (hi : i < r.count) :
    b + r.off + r.stride * i ∈ rs.flatMap (rwsWords b) := by
  refine List.mem_flatMap.2 ⟨r, hr, ?_⟩
  unfold rwsWords
  rw [if_neg h]
  exact List.mem_map.2 ⟨i, List.mem_range.2 hi, rfl⟩

/-- What the copy's end does to the shared state. -/
structure CopyDone (pg : Page) (s t : Io) : Prop where
  busy : t.get pg.base PG_SHADOW_CTL.SHADOW_BUSY = 0
  drained : t.drained = s.drained.set false pg.base false
  active : t.active pg.base = s.active pg.base
  kept : ∀ a, t.bk a (s.active pg.base) = s.bk a (s.active pg.base)
  both : ∀ a ∈ pg.kind.rows.flatMap (rwsWords pg.base), t.bk a (1 - s.active pg.base) = s.bk a (s.active pg.base)
  keeps : s.Keeps (· = pg.base + PG_SHADOW_CTL.SHADOW_BUSY.off) t

theorem copyDone_does (pg : Page) : CopyDone pg s (s.copyDone pg) := by
  have h := copied_copyRws { s with drained := s.drained.set false pg.base false } pg
  have hd := (within_copyRws { s with drained := s.drained.set false pg.base false } pg).same .drained (by decide)
  unfold copyDone
  generalize Io.copyRws _ pg = x at h hd
  have e : x.active pg.base = s.active pg.base := active_congr (rd_congr h.regs _)
  have ha (y : Io) : (y.put pg.base PG_SHADOW_CTL.SHADOW_BUSY 0).active pg.base = y.active pg.base := by
    unfold active
    rw [rd_put _ _ _ _ _ _ rfl (by decide), if_pos (by rfl), gb_sb_ne _ _ (by decide) (by decide)]
  refine ⟨?_, ?_, (ha x).trans e, fun a => ?_, fun a hl => ?_, .after (.put _ _ _ _ _ rfl (by decide) rfl) (.of_regs h.regs)⟩
  · rw [get_put _ _ _ _ _ rfl (by decide)]
    rfl
  · exact ((within_putRegs _ _ _ _ rfl).same .drained (by decide)).trans hd
  · rw [bk_put _ _ _ _ _ _ _ rfl]
    exact h.kept a
  · rw [bk_put _ _ _ _ _ _ _ rfl]
    exact h.both a hl

end Io

/-! ### The events -/

theorem State.Within.eq_regsDrained {s t : State} (h : s.Within [.regs, .drained] t) :
    t = { s with io := { s.io with regs := t.io.regs, drained := t.io.drained } } := h.eq

theorem State.Within.eq_copied {s t : State} (h : s.Within [.regs, .bank, .drained, .buf, .fwd, .pip] t) :
    t = { s with io := { s.io with regs := t.io.regs, bank := t.io.bank, drained := t.io.drained }, fwd := t.fwd, buf := t.buf, pip := t.pip } := h.eq

section
variable {s : State} {a : BitVec 26} {pg : Page} (hp : pageOf a.toNat = some pg) (hb : pg.base = a.toNat)
include hp hb

theorem shadowPage_some (hs : pg.kind.shadowed = true) {c : Bool} (h : s.get pg.base PG_SHADOW_CTL.SHADOW_BUSY = 1)
    (hd : s.io.drained.get false pg.base = c) : s.shadowPage a.toNat c = some pg := by
  unfold State.shadowPage
  rw [hp]
  exact if_pos ⟨hb, hs, hb ▸ h, hb ▸ hd⟩

theorem shadowPage_idle (c : Bool) (h : s.get pg.base PG_SHADOW_CTL.SHADOW_BUSY = 0) : s.shadowPage a.toNat c = none := by
  unfold State.shadowPage
  rw [hp]
  refine if_neg fun ⟨_, _, h', _⟩ => ?_
  rw [← hb, h] at h'
  omega

omit hb in
theorem shadowPage_eq {c : Bool} {q : Page} (h : s.shadowPage a.toNat c = some q) : q = pg := by
  unfold State.shadowPage at h
  rw [hp] at h
  dsimp only at h
  split at h
  · exact (Option.some.inj h).symm
  · cases h

omit hb in
theorem drainComplete_waits (h : s.drained pg = false) : NoEffect (.drainComplete a) s := by
  refine .live (f := fun s => s.drainComplete a.toNat) rfl ?_
  unfold State.drainComplete
  split
  · rfl
  next q hq =>
    rw [shadowPage_eq hp hq]
    exact if_neg (by rw [h]; decide)

theorem shadow_idle (h : s.get pg.base PG_SHADOW_CTL.SHADOW_BUSY = 0) : NoEffect (.drainComplete a) s ∧ NoEffect (.shadowCopyDone a) s := by
  constructor
  · refine .live (f := fun s => s.drainComplete a.toNat) rfl ?_
    unfold State.drainComplete
    rw [shadowPage_idle hp hb _ h]
  · refine .live (f := fun s => s.shadowCopyDone a.toNat) rfl ?_
    unfold State.shadowCopyDone
    rw [shadowPage_idle hp hb _ h]

theorem drainComplete_ends (hon : s.on = true) (hs : pg.kind.shadowed = true) (hbusy : s.get pg.base PG_SHADOW_CTL.SHADOW_BUSY = 1)
    (hd : s.io.drained.get false pg.base = false) (hw : s.drained pg = true) : Completes (.drainComplete a) s (fun t =>
      t.io.drained.get false pg.base = true ∧ (∀ b, b ≠ pg.base → t.io.drained.get false b = s.io.drained.get false b) ∧
      t.get pgEpc EPC_DRAIN_MAX.NS = max (s.get pgEpc EPC_DRAIN_MAX.NS) (min (2 ^ 32 - 1) (s.io.time.counted - s.io.time.commitAt)) ∧
      t = { s with io := { s.io with regs := t.io.regs, drained := t.io.drained } } ∧
      KeepsWords (· = pgEpc + EPC_DRAIN_MAX.NS.off) s t) := by
  have e : s.drainComplete a.toNat = s.upIo fun io => io.drainDone pg := by
    unfold State.drainComplete
    rw [shadowPage_some hp hb hs hbusy hd]
    exact if_pos hw
  have hwi := State.within_drainComplete s a.toNat
  rw [e] at hwi
  have hdr : (s.io.drainDone pg).drained = s.io.drained.set false pg.base true := (Io.within_maxTo ..).same .drained (by decide)
  refine .live_eq (f := fun s => s.drainComplete a.toNat) rfl hon e (hwi.same .pending (by decide)) ⟨?_, fun b h => ?_, ?_, hwi.eq_regsDrained, ?_⟩
  · rw [State.upIo_io, hdr, SMap.get_set_same]
  · rw [State.upIo_io, hdr, SMap.get_set_ne _ _ _ _ h]
  · rw [State.get_eq, State.upIo_io]
    exact Io.get_maxTo _ rfl (by decide)
  · exact .upIo (.after (.maxTo _ _ _ _ _ rfl (by decide) rfl) (.of_regs rfl))

theorem shadowCopyDone_ends (hon : s.on = true) (hs : pg.kind.shadowed = true) (hbusy : s.get pg.base PG_SHADOW_CTL.SHADOW_BUSY = 1)
    (hd : s.io.drained.get false pg.base = true) : Completes (.shadowCopyDone a) s (fun t =>
      t.get pg.base PG_SHADOW_CTL.SHADOW_BUSY = 0 ∧ t.io.drained.get false pg.base = false ∧ t.io.active pg.base = s.io.active pg.base ∧
      (∀ r ∈ pg.kind.rows, r.rws ≠ 0 → ∀ i, i < r.count →
        t.io.bk (pg.base + r.off + r.stride * i) (1 - s.io.active pg.base) = t.io.bk (pg.base + r.off + r.stride * i) (s.io.active pg.base) ∧
        t.io.bk (pg.base + r.off + r.stride * i) (s.io.active pg.base) = s.io.bk (pg.base + r.off + r.stride * i) (s.io.active pg.base)) ∧
      t = { s with io := { s.io with regs := t.io.regs, bank := t.io.bank, drained := t.io.drained }, fwd := t.fwd, buf := t.buf, pip := t.pip } ∧
      KeepsWords (· = pg.base + PG_SHADOW_CTL.SHADOW_BUSY.off) s t) := by
  have e : s.shadowCopyDone a.toNat = (s.copyTables pg).upIo fun io => io.copyDone pg := by
    unfold State.shadowCopyDone
    rw [shadowPage_some hp hb hs hbusy hd]
  have hwi := State.within_shadowCopyDone s a.toNat
  rw [e] at hwi
  have hio : (s.copyTables pg).io = s.io := (State.within_copyTables s pg).io_eq (by decide)
  have h := (s.copyTables pg).io.copyDone_does pg
  rw [hio] at h
  have ht : ((s.copyTables pg).upIo fun io => io.copyDone pg).io = s.io.copyDone pg := by rw [State.upIo_io, hio]
  refine .live_eq (f := fun s => s.shadowCopyDone a.toNat) rfl hon e (hwi.same .pending (by decide)) ?_
  rw [State.get_eq, ht]
  refine ⟨h.busy, ?_, h.active, fun r hr hne i hi => ⟨?_, h.kept _⟩, ?_, ?_⟩
  · rw [h.drained, SMap.get_set_same]
  · rw [h.both _ (Io.mem_rwsWords hr hne hi), h.kept]
  · rw [← ht]
    exact hwi.eq_copied
  · intro x hx
    rw [ht]
    exact h.keeps.rd x hx

end

/-- Settles O22: the end of the drain and the end of the copy, each from the condition the other left. -/
theorem drainAndCopy : Obligations.DrainAndCopy := by
  refine fun s a pg hon hp hb hs => ⟨drainComplete_ends hp hb hon hs, drainComplete_waits hp, shadowCopyDone_ends hp hb hon hs, shadow_idle hp hb⟩

end Sys2Proof.Machine
end

section
/-!
SUPPORT. Ring base, size, moderation timer and DMA failure (R81, R82).
-/
namespace Sys2Proof.Machine

/-- A page takes a write at one of its addresses as at any other. -/
theorem State.takesWrite_same {a b : Nat} (s : State) (m : Nat) (h : pageOf a = pageOf b) : s.takesWrite m a = s.takesWrite m b := by
  unfold State.takesWrite
  rw [h]

theorem pgRing_eq (n : Nat) : pgRing n = 0x44000 + n * 0x1000 := rfl

namespace Io

variable (s : Io)

/-- The field of the device's own index. -/
def ownIdx (n : Nat) : Fld := if deviceRing n then RING_PROD.IDX else RING_CONS.IDX

theorem ownIdx_plain (n : Nat) : (ownIdx n).rws = false ∧ (ownIdx n).lo + (ownIdx n).len ≤ 32 := by
  unfold ownIdx
  cases deviceRing n
  · exact (by decide : RING_CONS.IDX.rws = false ∧ RING_CONS.IDX.lo + RING_CONS.IDX.len ≤ 32)
  · exact (by decide : RING_PROD.IDX.rws = false ∧ RING_PROD.IDX.lo + RING_PROD.IDX.len ≤ 32)

theorem ownIdx_off (n : Nat) : (ownIdx n).off = if deviceRing n then RING_PROD.IDX.off else RING_CONS.IDX.off := apply_ite ..

theorem ownIdx_range (n : Nat) : 0x4C ≤ (ownIdx n).off := by
  unfold ownIdx
  cases deviceRing n <;> decide

theorem put_ite (c : Bool) (b : Nat) (f g : Fld) (v : Nat) : (if c = true then s.put b f v else s.put b g v) = s.put b (if c = true then f else g) v :=
  (apply_ite (fun f => s.put b f v) ..).symm

theorem ringRestart_eq (n : Nat) : s.ringRestart n = ({ s with wcount := s.wcount.set 0 n 0 } : Io).put (pgRing n) (ownIdx n) 0 := by
  unfold ringRestart ownIdx
  exact put_ite ..

/-- What an accepted write of a configuration word of a ring leaves. -/
structure RingSet (n o : Nat) (w : W32) (s t : Io) : Prop where
  word : t.rd (pgRing n + o) = w
  wcount : t.wcount.get 0 n = 0
  idx : t.get (pgRing n) (ownIdx n) = 0
  frame : s.Within [.regs, .wcount] t
  keeps : s.Keeps (fun a => a = pgRing n + o ∨ a = pgRing n + (ownIdx n).off) t

theorem ringSet {n o : Nat} (w : W32) (ho : o < 0x4C) : RingSet n o w s ((s.wr (pgRing n + o) w).ringRestart n) := by
  have hi := ownIdx_plain n
  have hoff := ownIdx_range n
  have hw : s.Within [.regs, .wcount] ((s.wr (pgRing n + o) w).ringRestart n) := .mono (.after (within_ringRestart ..) (within_wr ..)) (by decide)
  have hwc : ((s.wr (pgRing n + o) w).ringRestart n).wcount = s.wcount.set 0 n 0 := by
    rw [ringRestart_eq]
    exact (within_putRegs _ _ _ _ hi.1).same .wcount (by decide)
  refine ⟨?_, by rw [hwc, SMap.get_set_same], ?_, hw, ?_⟩
  · rw [ringRestart_eq, rd_put _ _ _ _ _ _ hi.1 hi.2, if_neg (by omega)]
    exact rd_wr_same ..
  · rw [ringRestart_eq, get_put _ _ _ _ _ hi.1 hi.2, Nat.zero_mod]
  · rw [ringRestart_eq]
    exact .after (.put _ _ _ _ _ hi.1 hi.2 (.inr rfl)) (.trans (.wr _ _ _ (.inl rfl)) (.of_regs rfl))

theorem ringConfig_taken {n m word v : Nat} (he : s.get (pgRing n) RING_CTL.EN = 0) (h0 : word = 0 → v % 4096 = 0)
    (h2 : word = 2 → 6 ≤ v % 32 ∧ v % 32 ≤ 16) : s.ringConfig n m word v
      = (s.wr (pgRing n + 0x040 + 4 * word) (if word = 2 then BitVec.ofNat 32 (v % 32) else BitVec.ofNat 32 v)).ringRestart n := by
  have hne : ¬ s.get (pgRing n) RING_CTL.EN = 1 := by omega
  unfold ringConfig
  dsimp only
  rw [if_neg fun h => ?_, if_neg hne]
  rcases h with (⟨e, h⟩ | ⟨e, h⟩) | ⟨h, _⟩
  · exact h (h0 e)
  · have := h2 e
    omega
  · exact hne h

theorem ringConfig_live {n m v : Nat} (he : s.get (pgRing n) RING_CTL.EN = 1) (h : BitVec.ofNat 32 v ≠ s.rd (pgRing n + 0x044)) :
    s.ringConfig n m 1 v = s.err (pgRing n) 3 m 0x044 := if_pos (.inr ⟨he, h⟩)

end Io

theorem State.Within.eq_regsWcount {s t : State} (h : s.Within [.regs, .wcount] t) :
    t = { s with io := { s.io with regs := t.io.regs, wcount := t.io.wcount } } := h.eq

section
variable {s : State} {m : Master} {r : Fin 60}

theorem State.fabricWrite_ringConfig {m : Nat} (ht : s.takesWrite m (pgRing r.val) = true) (w : Fin 3) (v : Nat) :
    s.fabricWrite m (pgRing r.val + 0x040 + 4 * w.val) v = s.upIo fun io => io.ringConfig r.val m w.val v := by
  have hp : pageOf (pgRing r.val + 0x040 + 4 * w.val) = some ⟨.ring, r.val, pgRing r.val⟩ := by
    rw [Nat.add_assoc]
    exact pageOf_ring r.isLt (by omega)
  have hw : pgRing r.val + 0x040 + 4 * w.val - pgRing r.val = 0x040 + 4 * w.val := by omega
  obtain ⟨h, hh⟩ : ∃ h, Kind.ring.regAt (0x040 + 4 * w.val) = some h :=
    Option.isSome_iff_exists.1 ((show ∀ w : Fin 3, (Kind.ring.regAt (0x040 + 4 * w.val)).isSome = true by decide) w)
  rw [State.fabricWrite_body (pg := ⟨.ring, r.val, pgRing r.val⟩) (h := h)
    (by rw [s.takesWrite_same m (hp.trans (pageOf_ring (o := 0) r.isLt (by omega)).symm)]; exact ht) hp (fun h => nomatch h) (by rw [← hh, hw])
    (by rw [hw]; omega) (if_neg (by have := pgRing_eq r.val; omega)), hw]
  unfold State.wBody State.wRing
  refine (if_pos (by omega)).trans ?_
  rw [show (0x040 + 4 * w.val - 0x040) / 4 = w.val by omega]

variable (hon : s.on = true) (ht : s.takesWrite m.id (pgRing r.val) = true)
include hon ht

theorem ringConfig_runs (w : Fin 3) (v : W32) {P : State → Prop} (h : P (s.upIo fun io => io.ringConfig r.val m.id w.val v.toNat)) :
    Completes (.ringConfigWrite m r w v) s P :=
  .live_eq (f := fun s => s.fabricWrite m.id (pgRing r.val + 0x040 + 4 * w.val) v.toNat) rfl hon (State.fabricWrite_ringConfig ht w v.toNat) rfl h

/-- A configuration word of a ring that is off, written with a legal value. -/
theorem ringConfig_writes (he : s.get (pgRing r.val) RING_CTL.EN = 0) {w : Fin 3} {v n : W32} (h0 : w = 0 → v.toNat % 4096 = 0)
    (h2 : w = 2 → 6 ≤ v.toNat % 32 ∧ v.toNat % 32 ≤ 16)
    (hn : (if w.val = 2 then BitVec.ofNat 32 (v.toNat % 32) else BitVec.ofNat 32 v.toNat) = n) : Completes (.ringConfigWrite m r w v) s (fun t =>
      t.io.rd (pgRing r.val + (0x040 + 4 * w.val)) = n ∧ t.io.wcount.get 0 r.val = 0 ∧
      (if deviceRing r.val then t.get (pgRing r.val) RING_PROD.IDX else t.get (pgRing r.val) RING_CONS.IDX) = 0 ∧
      t = { s with io := { s.io with regs := t.io.regs, wcount := t.io.wcount } } ∧
      KeepsWords (fun a => a = pgRing r.val + (0x040 + 4 * w.val) ∨
        a = pgRing r.val + (if deviceRing r.val then RING_PROD.IDX.off else RING_CONS.IDX.off)) s t) := by
  have e : s.io.ringConfig r.val m.id w.val v.toNat = (s.io.wr (pgRing r.val + (0x040 + 4 * w.val)) n).ringRestart r.val := by
    rw [Io.ringConfig_taken _ he (fun h => h0 (Fin.ext h)) (fun h => h2 (Fin.ext h)), hn, Nat.add_assoc]
  have h := s.io.ringSet (n := r.val) (o := 0x040 + 4 * w.val) n (by omega)
  rw [← e] at h
  refine ringConfig_runs hon ht w v ⟨h.word, h.wcount, ?_, State.Within.eq_regsWcount (.upIo h.frame), ?_⟩
  · exact (apply_ite (fun f => (s.upIo fun io => io.ringConfig r.val m.id w.val v.toNat).get (pgRing r.val) f) _ _ _).symm.trans h.idx
  · rw [← Io.ownIdx_off]
    exact .upIo h.keeps

theorem ringConfig_counts {v : W32} (he : s.get (pgRing r.val) RING_CTL.EN = 1) (hv : v ≠ s.io.rd (pgRing r.val + 0x044)) :
    Completes (.ringConfigWrite m r 1 v) s (fun t =>
      t.get (pgRing r.val) PG_ERR_CNT.COUNT = min (2 ^ 32 - 1) (s.get (pgRing r.val) PG_ERR_CNT.COUNT + 1) ∧ OnlyRegs s t ∧
      KeepsWords (fun a => a = pgRing r.val + 0x1C ∨ a = pgRing r.val + 0x20) s t) := by
  have e : s.io.ringConfig r.val m.id 1 v.toNat = s.io.err (pgRing r.val) 3 m.id 0x044 :=
    Io.ringConfig_live _ he (by rw [BitVec.ofNat_toNat, BitVec.setWidth_eq]; exact hv)
  refine ringConfig_runs hon ht 1 v ⟨?_, ?_, ?_⟩
  · rw [State.get_eq, State.upIo_io]
    exact (congrArg (fun io : Io => io.get (pgRing r.val) PG_ERR_CNT.COUNT) e).trans (Io.get_err_count ..)
  · exact OnlyRegs.of_within (.upIo (by rw [show s.io.ringConfig r.val m.id (1 : Fin 3).val v.toNat = _ from e]; exact Io.within_err ..))
  · refine KeepsWords.upIo ?_
    rw [show s.io.ringConfig r.val m.id (1 : Fin 3).val v.toNat = _ from e]
    exact .err _ _ _ _ _ (.inl rfl) (.inr rfl)

omit ht in
theorem ringTimer_fires (h1 : s.get (pgRing r.val) RING_CTL.MOD_US ≠ 0) (h2 : s.io.modCnt.get 0 r.val ≠ 0)
    (h3 : s.io.cause (pgRing r.val) 0 = false) : Completes (.ringModTimer r) s (fun t =>
      t.io.cause (pgRing r.val) 0 = true ∧ t.io.modCnt.get 0 r.val = 0 ∧ OnlyIo s t ∧ KeepsWords (· = pgRing r.val + 0x10) s t) := by
  have e : s.io.ringTimer r.val = ({ s.io with modCnt := s.io.modCnt.set 0 r.val 0 } : Io).raise (pgRing r.val) 0 := if_pos ⟨h1, h2, h3⟩
  refine .live_eq (f := fun s => s.upIo fun io => io.ringTimer r.val) rfl hon rfl rfl ⟨?_, ?_, rfl, .upIo ?_⟩
  · rw [State.upIo_io, e, Io.cause_raise _ _ (by decide)]
  · rw [State.upIo_io, e, (Io.within_raise ..).same .modCnt (by decide), SMap.get_set_same]
  · rw [e]
    exact .after (.raise _ _ _ rfl) (.of_regs rfl)

omit ht in
theorem ringDmaFail_flags (he : s.get (pgRing r.val) RING_CTL.EN = 1) : Completes (.ringDmaFail r) s (fun t =>
    t.io.cause (pgRing r.val) 2 = true ∧ OnlyIrq s t ∧ KeepsWords (· = pgRing r.val + 0x10) s t) := by
  have e : s.ringDmaFail r.val = s.raise (pgRing r.val) 2 := if_pos he
  exact .live_eq (f := fun s => s.ringDmaFail r.val) rfl hon e (by simp)
    ⟨State.cause_raise _ _ (by decide), .raise _ _ _, .raise _ _ _ rfl⟩

end

/-- Settles O10: what an accepted configuration write leaves, with the refusal and the two flags. -/
theorem ringControl : Obligations.RingControl := by
  refine fun s m r v hon ht => ⟨fun he hv => ?_, fun he h6 h16 => ?_, fun he hv => ringConfig_counts hon ht he hv,
    ringTimer_fires hon, ringDmaFail_flags hon, fun he => .live (f := fun s => s.ringDmaFail r.val) rfl (if_neg (by omega))⟩
  · exact ringConfig_writes hon ht he (w := 0) (fun _ => hv) (fun h => absurd h (by decide)) (by simp)
  · obtain ⟨t, hx, hw, hc, hi, hf, hk⟩ := ringConfig_writes hon ht he (w := 2) (v := v) (fun h => absurd h (by decide)) (fun _ => ⟨h6, h16⟩) (n := BitVec.ofNat 32 (v.toNat % 32)) rfl
    refine ⟨t, hx, ?_, hc, hi, hf, hk⟩
    rw [State.get_eq, Io.get_narrow _ _ _ _ rfl (by decide), show pgRing r.val + RING_SIZE.LOG2.off + RING_SIZE.LOG2.stride * 0 = pgRing r.val + (0x040 + 4 * (2 : Fin 3).val) from rfl, hw]
    have : v.toNat % 32 < 32 := Nat.mod_lt _ (by decide)
    simp only [gb, bitsOf, RING_SIZE.LOG2, BitVec.toNat_ofNat]
    omega

end Sys2Proof.Machine
end

section
/-!
SUPPORT. Time that passes, and transmit timestamps, PPS_OUT and PPS_IN (R40, R44, R110, R112, R113).
-/
namespace Sys2Proof.Machine

namespace Io

variable (s : Io)

/-- Time has passed: `d` nanoseconds were counted (R40). -/
structure Passed (d : Nat) (s t : Io) : Prop where
  ns : t.time.ns = s.time.ns + d
  counted : t.time.counted = s.time.counted + d
  held : t.time.held = s.time.held
  last : t.time.lastBoundary = s.time.lastBoundary
  armed : t.time.armed = s.time.armed
  keeps : s.Keeps tickWord t

theorem Passed.refl : Passed 0 s s := ⟨rfl, rfl, rfl, rfl, rfl, .refl _ _⟩

/-- The nanoseconds that `n` ticks count. -/
def tickedNs (n : Nat) : Nat := (s.time.sub + s.tickInc * n) / subUnit

/-- Marking what falls due leaves the rest of the time base, for any values it was given. -/
theorem time_markDue_set (x : Io) (n r k : Nat) (st : Option Nat) (d : Due) (a b c : Nat) (e : Bool) :
    ∃ d', (({ x with time := { x.time with ns := n, sub := r, counted := k, stepped := st, due := d } } : Io).markDue a b c e).time
      = { x.time with ns := n, sub := r, counted := k, stepped := st, due := d' } := ⟨_, rfl⟩

theorem time_advance (n : Nat) : ∃ d, (s.advance n).time =
    { s.time with ns := s.time.ns + s.tickedNs n, sub := (s.time.sub + s.tickInc * n) % subUnit, counted := s.time.counted + s.tickedNs n,
                  stepped := if n = 0 then s.time.stepped else none, due := d } := by
  unfold advance tickedNs
  exact time_markDue_set ..

theorem passed_of_time {s t : Io} {k r : Nat} {st : Option Nat} {d : Due} (h : t.time =
    { s.time with ns := s.time.ns + k, sub := r, counted := s.time.counted + k, stepped := st, due := d }) (hk : s.Keeps tickWord t) :
    Passed k s t :=
  ⟨(congrArg TimeBase.ns h :), (congrArg TimeBase.counted h :), (congrArg TimeBase.held h :), (congrArg TimeBase.lastBoundary h :),
    (congrArg TimeBase.armed h :), hk⟩

theorem ticks_passed (n : Nat) (w : Nat → Nat) : Passed (s.tickedNs n) s (s.ticks n w) := by
  have h := s.ticks_time n w
  have hk := s.keeps_ticks n w
  generalize s.ticks n w = x at h hk
  obtain ⟨d, hd⟩ := s.time_advance n
  exact passed_of_time (h.trans hd) hk

theorem tickedNs_ticksFor (d : Nat) (h : s.tickInc ≠ 0) : d ≤ s.tickedNs (s.ticksFor d) := by
  have hu : subUnit = 4294967296 := rfl
  unfold tickedNs ticksFor ceilDiv
  rw [Nat.max_eq_right (by omega : 1 ≤ s.tickInc), Nat.le_div_iff_mul_le (by omega), hu]
  have := Nat.div_add_mod (4294967296 * d - s.time.sub + s.tickInc - 1) s.tickInc
  have := Nat.mod_lt (4294967296 * d - s.time.sub + s.tickInc - 1) (Nat.pos_of_ne_zero h)
  omega

theorem waitNs_passed (n : Nat) (w : Nat → Nat) : ∃ d, Passed d s (s.waitNs n w) ∧ (s.tickInc ≠ 0 → n ≤ d) := by
  unfold waitNs
  split
  next h => exact ⟨0, .refl s, fun _ => by omega⟩
  · exact ⟨_, s.ticks_passed _ w, s.tickedNs_ticksFor n⟩

end Io

/-! ### Transmit timestamps -/

theorem pgEth_eq (g i : Nat) : pgEth g i = 0x200000 + (4 * g + i) * 0x1000 := rfl

theorem pipeOfAddr_eth {g i o : Nat} (hg : g < 32) (hi : i < 4) (ho : o < 0x1000) : pipeOfAddr (pgEth g i + o) = none :=
  if_neg (by have := pgEth_eq g i; omega)

theorem nodup_onesOf (n v : Nat) : (onesOf n v).Nodup := List.nodup_range.filter _

/-- The pops of the FIFOs `l` of a group. -/
def popAll (g : Nat) (l : List Nat) (s : State) : State := l.foldl (fun s j => s.setTxts (4 * g + j) ((s.txtsFifo (4 * g + j)).drop 1)) s

theorem popAll_frame (g : Nat) (l : List Nat) : ∀ s : State, ∃ m, popAll g l s = { s with buf := { s.buf with txts := m } } := by
  induction l with
  | nil => exact fun s => ⟨s.buf.txts, rfl⟩
  | cons j l ih =>
    intro s
    obtain ⟨m, hm⟩ := ih (s.setTxts (4 * g + j) ((s.txtsFifo (4 * g + j)).drop 1))
    exact ⟨m, hm⟩

theorem txtsFifo_setTxts (s : State) (n k : Nat) (l : List (Nat × Nat × Nat × Nat)) :
    (s.setTxts n l).txtsFifo k = if k = n then l else s.txtsFifo k := by
  unfold State.txtsFifo State.setTxts
  split
  next h => rw [h, SMap.get_set_same]
  next h => exact SMap.get_set_ne _ _ _ _ h

/-- Each FIFO named loses its head, and no other does. -/
theorem txtsFifo_popAll (g k : Nat) (l : List Nat) : l.Nodup → ∀ s : State, (popAll g l s).txtsFifo k
    = if ∃ j ∈ l, k = 4 * g + j then (s.txtsFifo k).drop 1 else s.txtsFifo k := by
  induction l with
  | nil => exact fun _ s => (if_neg (by simp)).symm
  | cons j l ih =>
    intro h s
    obtain ⟨hj, hl⟩ := List.nodup_cons.1 h
    refine (ih hl _).trans ?_
    rw [txtsFifo_setTxts]
    by_cases e : k = 4 * g + j
    · rw [if_pos e, if_neg, if_pos ⟨j, by simp, e⟩, e]
      rintro ⟨i, hi, hk⟩
      exact hj (by rwa [show j = i by omega])
    · simp [e]

theorem State.fabricWrite_txtsPop {s : State} {m g v : Nat} (hg : g < 32) (ht : s.takesWrite m (pgEth g 3 + ETH_TXTS_POP.POP.off) = true) :
    s.fabricWrite m (pgEth g 3 + ETH_TXTS_POP.POP.off) v = s.txtsPop g v := by
  have hp : pageOf (pgEth g 3 + ETH_TXTS_POP.POP.off) = some ⟨.eth3, g, pgEth g 3⟩ := pageOf_eth hg (by omega) (by decide)
  have hw : pgEth g 3 + ETH_TXTS_POP.POP.off - pgEth g 3 = ETH_TXTS_POP.POP.off := by omega
  obtain ⟨h, hh⟩ : ∃ h, Kind.eth3.regAt ETH_TXTS_POP.POP.off = some h := Option.isSome_iff_exists.1 (by decide)
  rw [State.fabricWrite_body (h := h) ht hp (fun h => nomatch h) (by rw [hw, hh]) (by rw [hw]; decide) (pipeOfAddr_eth hg (by omega) (by decide)), hw]
  rfl

theorem txtsPop_completes {s : State} {m : Master} {g : Fin 32} (mask : BitVec 4) (hon : s.on = true)
    (ht : s.takesWrite m.id (pgEth g.val 3 + ETH_TXTS_POP.POP.off) = true) : Completes (.txtsPop m g mask) s (fun t =>
      (∀ j : Fin 4, t.txtsFifo (4 * g.val + j.val)
        = if mask.toNat.testBit j.val then (s.txtsFifo (4 * g.val + j.val)).drop 1 else s.txtsFifo (4 * g.val + j.val)) ∧
      (∀ k, k / 4 ≠ g.val → t.txtsFifo k = s.txtsFifo k) ∧ t = { s with buf := { s.buf with txts := t.buf.txts } }) := by
  obtain ⟨x, hx⟩ := popAll_frame g.val (onesOf 4 mask.toNat) s
  have hpop (k : Nat) := txtsFifo_popAll g.val k _ (nodup_onesOf 4 mask.toNat) s
  refine .live_eq (f := fun s => s.fabricWrite m.id (pgEth g.val 3 + ETH_TXTS_POP.POP.off) mask.toNat) (t := popAll g.val (onesOf 4 mask.toNat) s)
    rfl hon (State.fabricWrite_txtsPop g.isLt ht) (by rw [hx]) ⟨fun j => ?_, fun k hk => ?_, by rw [hx]⟩
  · rw [hpop]
    refine if_congr ⟨fun ⟨i, hi, e⟩ => ?_, fun h => ⟨j.val, mem_onesOf.2 ⟨j.isLt, h⟩, rfl⟩⟩ rfl rfl
    rw [show j.val = i by omega]
    exact (mem_onesOf.1 hi).2
  · rw [hpop, if_neg]
    rintro ⟨i, hi, e⟩
    have := (mem_onesOf.1 hi).1
    omega

/-! ### PPS_OUT -/

theorem not_tickWord_pps : ¬ tickWord (pgEth 0 3 + 0x0B0) := by
  unfold tickWord inPage
  rintro (h | ⟨p, hp, h⟩ | h)
  · exact absurd h (by decide)
  · have e : pgPmcL p = 0x1000000 + p * 0x100000 + 0x80000 := rfl
    have e' : pgEth 0 3 + 0x0B0 = 0x2030B0 := rfl
    omega
  · exact absurd h (by decide)

theorem State.reach_passed (s : State) (w m : Nat) : ∃ d, Io.Passed d s.io (s.reach w m).io ∧ (w = 0 → s.io.tickInc ≠ 0 → s.io.toMultiple m ≤ d) ∧
    (w ≠ 0 → s.reach w m = s) := by
  unfold State.reach
  split
  next h =>
    obtain ⟨d, h1, h2⟩ := s.io.waitNs_passed (s.io.toMultiple m) s.waiting
    exact ⟨d, h1, fun _ => h2, fun e => absurd h e⟩
  next h => exact ⟨0, .refl _, fun e => absurd e h, fun _ => rfl⟩

/-- What the rise of PPS_OUT does (R112). -/
theorem State.ppsRise_cases (s : State) :
    (s.get (pgEth 0 3) ETH_PPS_CFG.OUT_EN = 1 ∧ s.ppsRise = { s with io := { s.io with
        time := { s.io.time with due := { s.io.time.due with pps := s.io.time.due.pps - 1 } }
        sys := { s.io.sys with ppsHigh := true, ppsEnd := s.io.time.counted + 1000 * max 1 (s.get (pgEth 0 3) ETH_PPS_CFG.WIDTH_US) } } }) ∨
    (s.get (pgEth 0 3) ETH_PPS_CFG.OUT_EN ≠ 1 ∧ s.ppsRise = { s with io := { s.io with
        time := { s.io.time with due := { s.io.time.due with pps := s.io.time.due.pps - 1 } } } }) := by
  by_cases h : s.get (pgEth 0 3) ETH_PPS_CFG.OUT_EN = 1
  · exact .inl ⟨h, if_pos h⟩
  · exact .inr ⟨h, if_neg h⟩

theorem ppsOutPulse_completes {s : State} (hon : s.on = true) : Completes .ppsOutPulse s (fun t =>
      (s.io.time.due.pps ≠ 0 → t.io.time.due.pps = s.io.time.due.pps - 1 ∧ t.io.time.ns = s.io.time.ns ∧ t.io.regs = s.io.regs) ∧
      (s.io.time.due.pps = 0 → s.io.tickInc ≠ 0 → s.io.time.ns + s.io.toMultiple 1000000000 ≤ t.io.time.ns) ∧
      (s.get (pgEth 0 3) ETH_PPS_CFG.OUT_EN = 1 → t.io.sys.ppsHigh = true ∧
        t.io.sys.ppsEnd = t.io.time.counted + 1000 * max 1 (s.get (pgEth 0 3) ETH_PPS_CFG.WIDTH_US)) ∧
      (s.get (pgEth 0 3) ETH_PPS_CFG.OUT_EN = 0 → t.io.sys = s.io.sys) ∧ OnlyIo s t) := by
  have hw : s.Within (.acc :: .taken :: .time :: .clk :: .sys :: ctrParts) s.ppsDue := (State.within_ppsDue s).mono (by decide)
  obtain ⟨d, hp, hd, hs⟩ := s.reach_passed s.io.time.due.pps 1000000000
  have hsys : (s.reach s.io.time.due.pps 1000000000).io.sys = s.io.sys := (State.within_reach ..).same .sys (by decide)
  refine .live_eq (f := fun s => s.ppsDue) rfl hon rfl (hw.same .pending (by decide)) ?_
  have hf : OnlyIo s s.ppsDue := .of_within (hw.mono (by decide))
  unfold State.ppsDue at hf ⊢
  have hg (f : Fld) (h : pgEth 0 3 + f.off = pgEth 0 3 + 0x0B0) (hr : f.rws = false) (hl : f.lo + f.len ≤ 32) :
      (s.reach s.io.time.due.pps 1000000000).get (pgEth 0 3) f = s.get (pgEth 0 3) f :=
    State.get_of_rd _ _ _ hr hl (hp.keeps.rd _ (h ▸ not_tickWord_pps))
  have h1 := hg ETH_PPS_CFG.OUT_EN rfl rfl (by decide)
  have h2 := hg ETH_PPS_CFG.WIDTH_US rfl rfl (by decide)
  generalize s.reach s.io.time.due.pps 1000000000 = x at *
  have hns : (s.io.time.due.pps ≠ 0 → x.io.time.due.pps - 1 = s.io.time.due.pps - 1 ∧ x.io.time.ns = s.io.time.ns ∧ x.io.regs = s.io.regs) :=
    fun h => by rw [hs h]; exact ⟨rfl, rfl, rfl⟩
  have hle : s.io.time.due.pps = 0 → s.io.tickInc ≠ 0 → s.io.time.ns + s.io.toMultiple 1000000000 ≤ x.io.time.ns :=
    fun h h' => by have := hd h h'; rw [hp.ns]; omega
  rcases x.ppsRise_cases with ⟨h, e⟩ | ⟨h, e⟩
  · refine ⟨?_, ?_, fun _ => ?_, fun h' => ?_, hf⟩
    · rw [e]; exact hns
    · rw [e]; exact hle
    · rw [e, ← h2]
      exact ⟨rfl, rfl⟩
    · rw [h1, h'] at h
      omega
  · refine ⟨?_, ?_, fun h' => ?_, fun _ => ?_, hf⟩
    · rw [e]; exact hns
    · rw [e]; exact hle
    · exact absurd (h1.trans h') h
    · rw [e, ← hsys]

theorem ppsOutEnd_completes {s : State} (hon : s.on = true) (h : s.io.sys.ppsHigh = true) : Completes .ppsOutEnd s (fun t =>
    t.io.sys.ppsHigh = false ∧ (s.io.tickInc ≠ 0 → s.io.sys.ppsEnd ≤ t.io.time.counted) ∧ OnlyIo s t) := by
  have e : s.ppsEndDue = (s.passTo s.io.sys.ppsEnd).ppsFall := if_pos h
  have hw : s.Within (.acc :: .taken :: .time :: .clk :: .sys :: ctrParts) ((s.passTo s.io.sys.ppsEnd).ppsFall) :=
    .mono (.after (State.within_ppsFall ..) (State.within_passTo ..)) (by decide)
  obtain ⟨d, hp, hd⟩ := s.io.waitNs_passed (s.io.sys.ppsEnd - s.io.time.counted) s.waiting
  refine .live_eq (f := fun s => s.ppsEndDue) rfl hon e (hw.same .pending (by decide)) ⟨rfl, fun hi => ?_, .of_within (hw.mono (by decide))⟩
  have hc : (s.passTo s.io.sys.ppsEnd).ppsFall.io.time.counted = s.io.time.counted + d := hp.counted
  have := hd hi
  omega

/-! ### PPS_IN -/

section
variable {s : State} {rising : Bool}

/-- The words of the capture. -/
def capWord (a : Nat) : Prop := a = pgEth 0 3 + 0x10 ∨ a = pgEth 0 3 + ETH_PPS_CAP_NS.NS.off ∨
  a = pgEth 0 3 + ETH_PPS_CAP_SEC_LO.SEC.off ∨ a = pgEth 0 3 + ETH_PPS_CAP_STAT.VALID.off

/-- A flag of the capture, set or left. -/
def State.flagIf (s : State) (c : Prop) [Decidable c] (f : Fld) : State := if c then s.put (pgEth 0 3) f 1 else s

/-- The capture of time `n` (R113). -/
def State.captured (s : State) (n : Nat) : State :=
  (((s.put (pgEth 0 3) ETH_PPS_CAP_NS.NS (n % 1000000000)).put (pgEth 0 3) ETH_PPS_CAP_SEC_LO.SEC (n / 1000000000)).put
    (pgEth 0 3) ETH_PPS_CAP_STAT.SEC_HI (n / 1000000000 / 2 ^ 32)).put (pgEth 0 3) ETH_PPS_CAP_STAT.VALID 1

theorem State.ppsIn_eq (h1 : s.get (pgEth 0 3) ETH_PPS_CFG.IN_EN = 1) (h2 : s.get (pgEth 0 3) ETH_PPS_CFG.IN_EDGE = b2n (!rising)) :
    s.ppsIn rising = (((s.captured (s.io.time.stepped.getD s.io.time.ns)).flagIf (s.get (pgEth 0 3) ETH_PPS_CAP_STAT.VALID = 1)
      ETH_PPS_CAP_STAT.OVERRUN).flagIf (s.io.time.stepped.isSome = true) ETH_PPS_CAP_STAT.STEPPED).raise (pgEth 0 3) 5 := by
  unfold State.ppsIn
  rw [if_pos (by rw [h1, h2]; simp)]
  rfl

theorem State.get_flagIf_ne (s : State) (c : Prop) [Decidable c] {f g : Fld} (hf : f.rws = false) (hl : f.lo + f.len ≤ 32) (gr : g.rws = false)
    (gl : g.lo + g.len ≤ 32) (h : g.off = f.off → g.lo + g.len ≤ f.lo ∨ f.lo + f.len ≤ g.lo) :
    (s.flagIf c f).get (pgEth 0 3) g = s.get (pgEth 0 3) g := by
  unfold flagIf
  split
  · by_cases e : g.off = f.off
    · exact Io.get_put_field _ _ _ _ _ _ _ hf hl gr gl (by simp [e]) (h e)
    · exact Io.get_put_ne _ _ _ _ _ _ _ _ hf hl gr gl (by simpa using e)
  · rfl

theorem State.onlyRegs_flagIf (s : State) (c : Prop) [Decidable c] {f : Fld} (hf : f.rws = false) : OnlyRegs s (s.flagIf c f) := by
  unfold flagIf
  split
  · exact .put _ _ _ _ _ hf
  · exact .refl s

theorem State.keeps_flagIf (s : State) (c : Prop) [Decidable c] {f : Fld} (hf : f.rws = false) (hl : f.lo + f.len ≤ 32)
    (h : f.off = ETH_PPS_CAP_STAT.VALID.off) : KeepsWords capWord s (s.flagIf c f) :=
  .cond (.put _ _ _ _ _ hf hl (.inr (.inr (.inr (by rw [h]; simp))))) (.refl _ s)

theorem State.onlyRegs_captured (s : State) (n : Nat) : OnlyRegs s (s.captured n) :=
  ((OnlyRegs.put _ _ _ _ _ rfl).trans (.put _ _ _ _ _ rfl)).trans ((OnlyRegs.put _ _ _ _ _ rfl).trans (.put _ _ _ _ _ rfl))

theorem State.keeps_captured (s : State) (n : Nat) : KeepsWords capWord s (s.captured n) :=
  .after (.put _ _ _ _ _ rfl (by decide) (.inr (.inr (.inr rfl)))) (.after (.put _ _ _ _ _ rfl (by decide) (.inr (.inr (.inr rfl))))
    (.after (.put _ _ _ _ _ rfl (by decide) (.inr (.inr (.inl rfl)))) (.put _ _ _ _ _ rfl (by decide) (.inr (.inl rfl)))))

theorem ppsIn_captures (hon : s.on = true) (h1 : s.get (pgEth 0 3) ETH_PPS_CFG.IN_EN = 1)
    (h2 : s.get (pgEth 0 3) ETH_PPS_CFG.IN_EDGE = b2n (!rising)) : Completes (.ppsInEdge rising) s (fun t =>
        t.get (pgEth 0 3) ETH_PPS_CAP_NS.NS = s.io.time.stepped.getD s.io.time.ns % 1000000000 ∧
        t.get (pgEth 0 3) ETH_PPS_CAP_SEC_LO.SEC = s.io.time.stepped.getD s.io.time.ns / 1000000000 % 2 ^ 32 ∧
        t.get (pgEth 0 3) ETH_PPS_CAP_STAT.SEC_HI = s.io.time.stepped.getD s.io.time.ns / 1000000000 / 2 ^ 32 % 2 ^ 16 ∧
        t.get (pgEth 0 3) ETH_PPS_CAP_STAT.VALID = 1 ∧
        (s.get (pgEth 0 3) ETH_PPS_CAP_STAT.VALID = 1 → t.get (pgEth 0 3) ETH_PPS_CAP_STAT.OVERRUN = 1) ∧
        (s.io.time.stepped.isSome = true → t.get (pgEth 0 3) ETH_PPS_CAP_STAT.STEPPED = 1) ∧ t.io.cause (pgEth 0 3) 5 = true ∧
        OnlyIrq s t ∧ KeepsWords (fun a => a = pgEth 0 3 + 0x10 ∨ a = pgEth 0 3 + ETH_PPS_CAP_NS.NS.off ∨
          a = pgEth 0 3 + ETH_PPS_CAP_SEC_LO.SEC.off ∨ a = pgEth 0 3 + ETH_PPS_CAP_STAT.VALID.off) s t) := by
  have he := State.ppsIn_eq (s := s) (rising := rising) h1 h2
  have hirq := (((s.onlyRegs_captured (s.io.time.stepped.getD s.io.time.ns)).trans
    (State.onlyRegs_flagIf _ (s.get (pgEth 0 3) ETH_PPS_CAP_STAT.VALID = 1) (f := ETH_PPS_CAP_STAT.OVERRUN) rfl)).trans
    (State.onlyRegs_flagIf _ (s.io.time.stepped.isSome = true) (f := ETH_PPS_CAP_STAT.STEPPED) rfl)).irq.trans (.raise _ (pgEth 0 3) 5)
  have hg (f : Fld) (hr : f.rws = false) (hl : f.lo + f.len ≤ 32) (hn : f.off ≠ 0x10) (h29 : f.off = 0xbc → f.lo + f.len ≤ 29 ∨ 31 ≤ f.lo) :=
    ((State.get_raise (((s.captured (s.io.time.stepped.getD s.io.time.ns)).flagIf (s.get (pgEth 0 3) ETH_PPS_CAP_STAT.VALID = 1)
        ETH_PPS_CAP_STAT.OVERRUN).flagIf (s.io.time.stepped.isSome = true) ETH_PPS_CAP_STAT.STEPPED) (pgEth 0 3) 5 (pgEth 0 3) f 0 hr hl
        (by simpa using hn)).trans (State.get_flagIf_ne _ _ (f := ETH_PPS_CAP_STAT.STEPPED) rfl (by decide) hr hl
          fun h => (h29 h).imp id fun h => (by decide : 29 + 1 ≤ 31).trans h)).trans
      (State.get_flagIf_ne _ _ (f := ETH_PPS_CAP_STAT.OVERRUN) rfl (by decide) hr hl
          fun h => (h29 h).imp (fun h => h.trans (by decide : 29 ≤ 30)) id)
  refine .live_eq (f := fun s => s.ppsIn rising) rfl hon he hirq.pending ⟨?_, ?_, ?_, ?_, fun h => ?_, fun h => ?_, ?_, hirq, ?_⟩
  · rw [hg _ rfl (by decide) (by decide) (by decide)]
    simp (disch := decide) only [State.captured, State.get_put_ne, State.get_put_same]
    generalize s.io.time.stepped.getD s.io.time.ns = n
    change n % 1000000000 % 2 ^ 32 = n % 1000000000
    omega
  · rw [hg _ rfl (by decide) (by decide) (by decide)]
    simp (disch := decide) only [State.captured, State.get_put_ne, State.get_put_same]
    rfl
  · rw [hg _ rfl (by decide) (by decide) (by decide)]
    simp (disch := decide) only [State.captured, State.get_put_field, State.get_put_same]
    rfl
  · rw [hg _ rfl (by decide) (by decide) (by decide)]
    simp (disch := decide) only [State.captured, State.get_put_same]
    rfl
  · rw [State.get_raise _ _ _ _ _ _ rfl (by decide) (by decide),
      State.get_flagIf_ne _ _ (f := ETH_PPS_CAP_STAT.STEPPED) rfl (by decide) rfl (by decide) (by decide), State.flagIf, if_pos h,
      State.get_put_same _ _ _ _ _ rfl (by decide)]
    rfl
  · rw [State.get_raise _ _ _ _ _ _ rfl (by decide) (by decide), State.flagIf, if_pos h, State.get_put_same _ _ _ _ _ rfl (by decide)]
    rfl
  · exact State.cause_raise _ _ (by decide)
  · exact .after (.raise _ _ _ (.inl rfl)) (.after (State.keeps_flagIf _ _ rfl (by decide) rfl) (.after (State.keeps_flagIf _ _ rfl (by decide) rfl)
      (State.keeps_captured _ _)))

theorem ppsIn_idle (h : s.get (pgEth 0 3) ETH_PPS_CFG.IN_EN = 0 ∨ s.get (pgEth 0 3) ETH_PPS_CFG.IN_EDGE ≠ b2n (!rising)) :
    NoEffect (.ppsInEdge rising) s := by
  refine .live (f := fun s => s.ppsIn rising) rfl (if_neg ?_)
  rw [Bool.and_eq_true, decide_eq_true_eq, beq_iff_eq]
  rintro ⟨h1, h2⟩
  rcases h with h | h
  · omega
  · exact h h2

end

/-- Settles O29: the pops of the FIFOs named, the rise and fall of PPS_OUT, and the capture. -/
theorem timestampsAndPps : Obligations.TimestampsAndPps := by
  refine fun s hon => ⟨fun m g mask ht => txtsPop_completes mask hon ht, ppsOutPulse_completes hon, ppsOutEnd_completes hon, fun h => ?_,
    fun rising h1 h2 => ppsIn_captures hon h1 h2, fun rising h => ppsIn_idle h⟩
  exact .live (f := fun s => s.ppsEndDue) rfl (if_neg (by rw [h]; decide))

end Sys2Proof.Machine
end

section
/-!
SUPPORT. What changes no word below the mailbox pages: mailboxes, the cipher unit, Quince, the cascade, the pipelines.
-/
namespace Sys2Proof.Machine

/-- A word of the mailbox pages, or above them. -/
def highWord (a : Nat) : Prop := 0x80000 ≤ a

theorem highWord_add {a : Nat} (h : highWord a) (n : Nat) : highWord (a + n) := Nat.le_trans h (Nat.le_add_right a n)

theorem highWord_pmc (a : Nat) (h : inPage pgPmc a) : highWord a := by
  have e : pgPmc = 0x140000 := rfl
  unfold inPage at h
  unfold highWord
  omega

theorem highWord_mbx : highWord pgMbx := by unfold highWord; decide
theorem highWord_mbxCh (c : Nat) : highWord (pgMbxCh c) := highWord_add (a := 0x81000) (by unfold highWord; decide) _
theorem highWord_cphU (u : Nat) : highWord (pgCphU u) := highWord_add (a := 0xC1000) (by unfold highWord; decide) _
theorem highWord_cph : highWord pgCph := by unfold highWord; decide
theorem highWord_qnc : highWord pgQnc := by unfold highWord; decide
theorem highWord_ras : highWord pgRas := by unfold highWord; decide
theorem highWord_csc : highWord pgCsc := by unfold highWord; decide
theorem highWord_tgtP (n : Nat) : highWord (pgTgtP n) := highWord_add (a := 0xE00000) (by unfold highWord; decide) _
theorem highWord_pip (q : Nat) : highWord (pgPip q) := by
  have e : pipeBase q = 0x1000000 + q * 0x100000 := rfl
  unfold pgPip highWord
  split <;> omega

theorem highWord_of_tgt (a : Nat) (h : tgtWord a) : highWord a := Nat.le_trans (by decide : 0x80000 ≤ pgTgt) h

/-- The words of Quince's page, and of the page that notes overflows. -/
def qncWord (a : Nat) : Prop := inPage pgQnc a ∨ inPage pgPmc a

theorem highWord_of_qnc (a : Nat) (h : qncWord a) : highWord a := by
  rcases h with h | h
  · exact (by decide : 0x80000 ≤ pgQnc).trans h.1
  · exact highWord_pmc a h

namespace Io

/-- An operation of the shared state on words above the mailbox pages. -/
abbrev High (s t : Io) : Prop := s.Keeps highWord t

variable (s : Io) {b : Nat} (hb : highWord b)
include hb

theorem high_put (f : Fld) (v i : Nat) : s.High (s.put b f v i) :=
  .putAny s b f v i (highWord_add (highWord_add hb _) _) (highWord_add (highWord_add (highWord_add hb _) _) _)

theorem high_bump (f : Fld) (n i : Nat) : s.High (s.bump b f n i) := s.high_put hb f _ i
theorem high_raise (n : Nat) : s.High (s.raise b n) := .raise s b n (highWord_add hb _)
theorem high_ctr (f : Fld) (n i : Nat) : s.High (s.ctr b f n i) :=
  .ctr s b f n i (highWord_add (highWord_add hb _) _) (highWord_add (highWord_add (highWord_add hb _) _) _) highWord_pmc

end Io

namespace State

/-- An operation of the device on words above the mailbox pages. -/
abbrev High (s t : State) : Prop := KeepsWords highWord s t

section
variable (s : State) {b : Nat} (hb : highWord b)
include hb

theorem high_put (f : Fld) (v i : Nat) : s.High (s.put b f v i) := .upIo (s.io.high_put hb f v i)
theorem high_bump (f : Fld) (n i : Nat) : s.High (s.bump b f n i) := .upIo (s.io.high_bump hb f n i)
theorem high_raise (n : Nat) : s.High (s.raise b n) := .upIo (s.io.high_raise hb n)
theorem high_ctr (f : Fld) (n i : Nat) : s.High (s.ctr b f n i) := .upIo (s.io.high_ctr hb f n i)

end

end State

/-! ### Mailboxes -/

namespace Io

variable (s : Io)

theorem high_mbxGenUp (m : Nat) : s.High (s.mbxGenUp m) := by
  have h (f : Fld) := s.high_bump highWord_mbx f 1 0
  unfold mbxGenUp
  exact .cond (h _) (.cond (h _) (.cond (h _) (.cond (h _) (.cond (s.high_put highWord_mbx _ _ _) (.refl _ _)))))

theorem high_mbxDone (c code : Nat) : s.High (s.mbxDone c code) :=
  .after (high_raise _ (highWord_mbxCh c) _) (.after (high_put _ (highWord_mbxCh c) _ _ _) (high_put _ (highWord_mbxCh c) _ _ _))

theorem high_mbxRcvReset (c : Nat) : s.High (s.mbxRcvReset c) := by
  have hp (x : Io) (f : Fld) (v i : Nat) : x.High (x.put (pgMbxCh c) f v i) := x.high_put (highWord_mbxCh c) f v i
  have hz : s.High (s.mbxZero c 0) := .foldl (fun w _ x => .cond (hp _ _ _ _) (.refl _ _)) (.refl _ _)
  unfold mbxRcvReset
  exact .after (hp _ _ _ _) (.after (hp _ _ _ _) (.cond (.after (high_mbxDone _ _ _) (.after (hp _ _ _ _) hz))
    (.cond (.after (high_mbxDone _ _ _) (hp _ _ _ _)) (.refl _ _))))

theorem high_mbxSndReset (c : Nat) : s.High (s.mbxSndReset c) := by
  unfold mbxSndReset
  exact .cond (.refl _ _) (.after (high_raise _ (highWord_mbxCh c) _) (high_put _ (highWord_mbxCh c) _ _ _))

theorem high_mbxChReset (ms : List Nat) (c : Nat) : s.High (s.mbxChReset ms c) := by
  have h : s.High (if ms.contains (s.mbxReceiver c) then s.mbxRcvReset c else s) := .cond (s.high_mbxRcvReset c) (.refl _ _)
  unfold mbxChReset
  exact .cond (.refl _ _) (.cond (.after (high_mbxSndReset _ c) h) h)

theorem high_mbxReset (ms : List Nat) : s.High (s.mbxReset ms) :=
  .foldl (fun c _ x => x.high_mbxChReset ms c) (.foldl (fun m _ x => x.high_mbxGenUp m) (.refl _ _))

end Io

namespace State

variable (s : State)

/-! ### Cipher unit -/

theorem high_clearHalf (u lo hi : Nat) : s.High (s.clearHalf u lo hi) := by
  intro a ha
  have h := highWord_cphU u
  unfold clearHalf Io.rd
  rw [upIo_io]
  dsimp only
  rw [SMap.get_drop_not]
  unfold highWord at h ha
  rw [Bool.and_eq_false_iff, decide_eq_false_iff_not]
  exact .inl (by omega)

theorem high_setCpage (u : Nat) (p : CPage) : s.High (s.setCpage u p) := .of_regs rfl _
theorem high_putCphU (u : Nat) (f : Fld) (v i : Nat) : s.High (s.put (pgCphU u) f v i) := s.high_put (highWord_cphU u) f v i

theorem high_freeEngines (ctx : Nat) : s.High (s.freeEngines ctx) :=
  .after (high_put _ highWord_cph _ _ _) (.foldl (fun _ _ x => .cond (.of_regs rfl _) (.refl _ x)) (.refl _ s))

theorem high_jobEnd (u st code : Nat) : s.High (s.jobEnd u st code) :=
  .after (high_raise _ (highWord_cphU u) _) (.after (high_freeEngines _ _)
    (.after (high_putCphU _ _ _ _ _) (.after (high_putCphU _ _ _ _ _) (high_setCpage _ _ _))))

theorem high_msgEnd (u : Nat) : s.High (s.msgEnd u) := .after (high_putCphU _ _ _ _ _) (high_setCpage _ _ _)

theorem high_keyClear (u : Nat) : s.High (s.keyClear u) := by
  unfold keyClear
  exact .after (high_putCphU _ _ _ _ _) (.after (high_putCphU _ _ _ _ _) (.after (high_setCpage _ _ _) (.after (high_msgEnd _ _)
    (.cond (s.high_jobEnd _ _ _) (.refl _ _)))))

theorem high_zeroize (u : Nat) : s.High (s.zeroize u) := by
  have h := (high_clearHalf _ u 0x400 0x800).after ((high_clearHalf _ u 0x100 0x118).after ((high_clearHalf _ u 0x0C0 0x0FC).after
    ((high_clearHalf _ u 0x040 0x060).after ((high_putCphU _ u CPH_KEY_STAT.CODE 0 0).after ((high_setCpage _ u { (s.keyClear u).cpage u with data := [] }).after (s.high_keyClear u))))))
  unfold zeroize
  exact .cond h (.after (high_clearHalf _ _ _ _) h)

theorem high_zeroizeOf (ms : List Nat) : s.High (s.zeroizeOf ms) :=
  .foldl (fun u _ x => .cond (x.high_zeroize u) (.refl _ x)) (.refl _ s)

/-! ### Firmware -/

theorem high_fwCode (c : Nat) : s.High (s.fwCode c) := s.high_put highWord_ras _ _ _

theorem high_fwEnd (c : Nat) : s.High (s.fwEnd c) := .after (high_raise _ highWord_ras _) (.after (high_fwCode _ _) (.of_regs rfl _))

theorem high_fwHostGone : s.High s.fwHostGone := by
  unfold fwHostGone
  split
  · exact .cond (.refl _ _) (s.high_fwEnd _)
  · exact .refl _ _

theorem high_slotCommitted : s.High s.slotCommitted.1 := by
  unfold slotCommitted
  dsimp only
  split
  · exact .refl _ _
  · split
    · exact .after (high_fwCode _ _) (high_put _ highWord_ras _ _ _)
    · split
      · exact .after (high_raise _ highWord_ras _) (.of_regs rfl _)
      · exact .of_regs rfl _

/-! ### Quince -/

theorem keeps_putQnc (f : Fld) (v : Nat) (hf : f.off + 8 ≤ 0x1000) : KeepsWords qncWord s (s.put pgQnc f v) :=
  .putAny s _ f v 0 (.inl (by unfold inPage; omega)) (.inl (by unfold inPage; omega))

theorem keeps_raiseQnc (n : Nat) : KeepsWords qncWord s (s.raise pgQnc n) := .raise _ _ _ (.inl (by unfold inPage; decide))
theorem keeps_upQnc (f : Qnc → Qnc) : KeepsWords qncWord s (s.upQnc f) := .of_regs rfl _

theorem keeps_completeBlock (c : Close) : KeepsWords qncWord s (s.completeBlock c) := by
  unfold completeBlock
  exact .cond (keeps_upQnc _ _) (.after (keeps_putQnc _ _ _ (by decide)) (.after (keeps_upQnc _ _) (keeps_upQnc _ _)))

theorem keeps_keyInForce : KeepsWords qncWord s s.keyInForce := by
  unfold keyInForce
  split
  · exact .refl _ _
  · exact .after (keeps_putQnc _ _ _ (by decide)) (keeps_upQnc _ _)

theorem keeps_closeNow (at' e l : Nat) : KeepsWords qncWord s (s.closeNow at' e l) := by
  have h0 (n : Nvm) : KeepsWords qncWord s (if s.qnc.first = true then { s with io := { s.io with nvm := n } } else s) :=
    .cond (.of_regs rfl _) (.refl _ _)
  have h (x : State) (q : Qnc → Qnc) (n : Nat) : KeepsWords qncWord x ((((x.keyInForce.upQnc q).put pgQnc QNC_CLOSE_NUM.NUM n).put pgQnc
      QNC_STAT.EMITTING 1).put pgQnc QNC_STAT.DEFERRING 0) :=
    .after (keeps_putQnc _ _ _ (by decide)) (.after (keeps_putQnc _ _ _ (by decide)) (.after (keeps_putQnc _ _ _ (by decide))
      (.after (keeps_upQnc _ _) (keeps_keyInForce _))))
  unfold closeNow
  exact .cond (.after (keeps_completeBlock _ _) (.after (h _ _ _) (h0 _))) (.after (h _ _ _) (h0 _))

theorem keeps_qncBoundary (at' e : Nat) : KeepsWords qncWord s (s.qncBoundary at' e) := by
  have hc (x : State) : KeepsWords qncWord x (x.ctr pgQnc QNC_DEFER_CNT.COUNT) :=
    .ctr x _ _ 1 0 (.inl (by unfold inPage; decide)) (.inl (by unfold inPage; decide)) fun _ => .inr
  unfold qncBoundary
  extract_lets l due x
  have h : KeepsWords qncWord s x := keeps_upQnc _ _
  clear_value x
  exact .cond h (.cond (.after (keeps_raiseQnc _ _) (.after (keeps_putQnc _ _ _ (by decide)) (.after (keeps_upQnc _ _) (.after (hc _) h))))
    (.after (keeps_closeNow _ _ _ _) h))

/-! ### Pips -/

theorem high_post (evt : Nat) (data : List Nat) : s.High (s.post evt data) := by
  unfold post
  exact .cond (.refl _ _) (.cond (s.high_ctr (highWord_pip _) _ _ _) (.of_regs rfl _))

theorem high_restart (q c : Nat) : s.High (s.restart q c) := by
  unfold restart
  extract_lets x s0 s1
  have h1 : s.Within [.act, .pip, .pip] s1 := .after (within_setCtx ..) (.after (within_unlockCtx ..) (within_natUndo ..))
  exact .after (high_ctr _ (highWord_pip _) _ _ _) (.of_within h1 (by decide))

theorem high_commitAll (q : Nat) : s.High (s.commitAll q) := by
  have hu (x : State) (c : Nat) (f : Ctx → Ctx) : x.High (x.upCtx q c f) := .of_within (within_upCtx ..) (by decide)
  refine .foldl (fun c _ x => ?_) (.refl _ _)
  exact .cond (.refl _ _) (.cond (.after (high_ctr _ (highWord_pip _) _ _ _) (hu _ _ _)) (x.high_restart q c))

/-! ### Gates -/

theorem high_listAdopt (n at' : Nat) : s.High (s.listAdopt n at') := by
  have hp (x : State) (f : Fld) (v i : Nat) : x.High (x.put (pgTgtP n) f v i) := x.high_put (highWord_tgtP n) f v i
  have hr (x : State) (k : Nat) : x.High (x.raise (pgTgtP n) k) := x.high_raise (highWord_tgtP n) k
  have hs (x : State) : x.High (x.supersede n) := by
    unfold supersede
    exact .cond (.after (high_bump _ (highWord_tgtP n) _ _ _) (.of_regs rfl _)) (.refl _ _)
  have ht (x : State) (f g k : Fld) (t : Nat) : x.High (x.putTime (pgTgtP n) f g k t) := .after (hp _ _ _ _) (.after (hp _ _ _ _) (hp _ _ _ _))
  have hh (x : State) (st : Nat) (l : Option GateList) : x.High (({ x with buf := { x.buf with await := x.buf.await.set none n l } } : State).put
      (pgTgtP n) TGT_STAT.START_PENDING 1 |>.putTime (pgTgtP n) TGT_START_NS.NS TGT_START_SEC_LO.SEC TGT_START_SEC_HI.SEC st) :=
    .after (ht _ _ _ _ _) (.after (hp _ _ _ _) (.of_regs rfl _))
  unfold listAdopt
  refine .cond (.refl _ _) (.cond (.after (hr _ _) (.after (hp _ _ _ _) (hp _ _ _ _))) (.cond ?_ (.cond ?_ ?_)))
  · exact .after (hr _ _) (.after ((keeps_enforce _ _ _).mono highWord_of_tgt) (.after (hp _ _ _ _) (hs _)))
  · exact .after (hr _ _) (.after (hp _ _ _ _) (.after (hh _ _ _) (hs _)))
  · exact .after (hh _ _ _) (hs _)

end State

end Sys2Proof.Machine
end

section
/-!
SUPPORT. Boundary events and held crossings (R44 to R46, R53).
-/
namespace Sys2Proof.Machine

/-! ### Words outside the epoch page -/

/-- Any word but the three of the epoch page that tell of boundaries: its causes, the epoch number and the state of the commit. -/
def offEpc (a : Nat) : Prop := a ≠ pgEpc + 0x10 ∧ a ≠ pgEpc + EPC_EPOCH_NUM.NUM.off ∧ a ≠ pgEpc + EPC_COMMIT_STAT.STATE.off

theorem offEpc_of {a : Nat} (h : a < pgEpc ∨ pgEpc + 0x1000 ≤ a) : offEpc a := by
  have e := pgEpc_eq
  have e1 : EPC_EPOCH_NUM.NUM.off = 0x44 := rfl
  have e2 : EPC_COMMIT_STAT.STATE.off = 0x6c := rfl
  unfold offEpc
  omega

theorem offEpc_of_high {a : Nat} (h : highWord a) : offEpc a := offEpc_of (.inr ((by decide : pgEpc + 0x1000 ≤ 0x80000).trans h))
theorem offEpc_sys {a : Nat} (h : a < 0x2000) : offEpc a := offEpc_of (.inl (h.trans (by decide)))

theorem State.High.offEpc {s t : State} (h : s.High t) : KeepsWords offEpc s t := h.mono fun _ => offEpc_of_high

theorem Io.keeps_flipPage (s : Io) {pg : Page} {a : Nat} (hp : pageOf a = some pg) (n : Nat) : s.Keeps offEpc (s.flipPage n pg) := by
  have h := (pageOf_some hp).aligned
  have e := pgEpc_eq
  have hput (x : Io) (f : Fld) (v : Nat) (hf : f.rws = false ∧ f.lo + f.len ≤ 32 ∧ (f.off = 0x24 ∨ f.off = 0x28)) :
      x.Keeps offEpc (x.put pg.base f v) := by
    obtain ⟨hr, hl, ho⟩ := hf
    refine .put _ _ _ _ _ hr hl ?_
    have e1 : EPC_EPOCH_NUM.NUM.off = 0x44 := rfl
    have e2 : EPC_COMMIT_STAT.STATE.off = 0x6c := rfl
    unfold offEpc
    rw [Nat.mul_zero]
    omega
  exact .after (hput _ PG_EPOCH_TAG.EPOCH _ (by decide)) (.after (hput _ PG_SHADOW_CTL.SHADOW_BUSY _ (by decide))
    (.after (hput _ PG_SHADOW_CTL.ARM _ (by decide)) (hput _ PG_SHADOW_CTL.ACTIVE_BANK _ (by decide))))

theorem Io.armedPages_page {s : Io} {pg : Page} (h : pg ∈ s.armedPages) : ∃ a, pageOf a = some pg := by
  unfold Io.armedPages at h
  obtain ⟨e, _, he⟩ := List.mem_filterMap.1 h
  split at he
  · cases he
  next q hq =>
    split at he
    · exact ⟨e.1, (Option.some.inj he) ▸ hq⟩
    · cases he

theorem Io.keeps_semFree (s : Io) (m : Nat) : s.Keeps (· < 0x1000) (s.semFree m) := by
  refine .foldl (fun n hn x => .cond (.put _ _ _ _ _ rfl (by decide) ?_) (.refl _ x)) (.refl _ s)
  have := List.mem_range.1 hn
  have e : pgSys = 0 := rfl
  simp only [SYS_SEMn.HOLDER]
  omega

theorem Io.keeps_mgmtReset (s : Io) : s.Keeps offEpc s.mgmtReset := by
  have hsem (x : Io) (m : Nat) : x.Keeps offEpc (x.semFree m) := (x.keeps_semFree m).mono fun a ha => offEpc_sys (by omega)
  have hwr (x : Io) (o : Nat) (v : W32) : x.Keeps offEpc (x.wr (pgFtr + o) v) :=
    .wr _ _ _ (offEpc_of (.inr ((by decide : pgEpc + 0x1000 ≤ pgFtr).trans (Nat.le_add_right _ _))))
  have hdrop : s.Keeps offEpc { s with regs := s.regs.drop inHif, wcount := [], modCnt := [], fetch := [] } := by
    refine ⟨fun a ha => ?_⟩
    unfold Io.rd
    rw [SMap.get_drop_not]
    have hlt : ¬ pgHif ≤ a := fun h => ha (offEpc_of (.inr ((by decide : pgEpc + 0x1000 ≤ pgHif).trans h)))
    unfold inHif
    rw [Bool.and_eq_false_iff, decide_eq_false_iff_not]
    exact .inl hlt
  have hs (x : Io) (a : SMap Nat) (b : SMap (Option (Nat × Nat))) : x.Keeps offEpc { x with timeSlot := a, ctrSlot := b } := .of_regs rfl
  unfold Io.mgmtReset
  exact .after (.putAny _ _ _ _ _ (offEpc_sys (by decide)) (offEpc_sys (by decide)))
    (.after (hwr _ _ _) (.foldl (fun i _ x => Nat.add_assoc pgFtr _ _ ▸ hwr x (0x050 + 4 * i) _) (.after (hs _ _ _) (.after (hsem _ _) (.after (hsem _ _) hdrop)))))

theorem State.keeps_mgmtEffects (s : State) : KeepsWords offEpc s s.mgmtEffects := by
  unfold mgmtEffects
  exact .after (high_fwHostGone _).offEpc (.after (high_zeroizeOf _ _).offEpc (.after (.of_within (within_killJobs _) (by decide))
    (.upIo (.after ((Io.high_mbxReset _ _).mono fun _ => offEpc_of_high) (Io.keeps_mgmtReset _)))))

theorem State.keeps_upSys {p : Nat → Prop} (s : State) (f : Sys → Sys) : KeepsWords p s (s.upSys f) := .of_regs rfl _
theorem State.keeps_upFw {p : Nat → Prop} (s : State) (f : Fw → Fw) : KeepsWords p s (s.upFw f) := .of_regs rfl _
theorem State.keeps_upCsc {p : Nat → Prop} (s : State) (f : Csc → Csc) : KeepsWords p s (s.upCsc f) := .of_regs rfl _

theorem State.keeps_slotByReset (s : State) : KeepsWords offEpc s s.slotByReset := by
  unfold slotByReset
  exact .after (keeps_upFw _ _) (.after (keeps_mgmtEffects _) (keeps_upSys _ _))

theorem State.keeps_adopt (s : State) (at' : Nat) (pg : Page) : KeepsWords offEpc s (s.adopt at' pg).1 := by
  unfold adopt
  split
  · exact .of_within (within_polAdopt _) (by decide)
  · exact (high_listAdopt _ _ _).offEpc
  · exact .after (.of_within (within_nanoSupplied ..) (by decide)) (high_commitAll _ _).offEpc
  · exact (high_slotCommitted _).offEpc
  · exact .refl _ _

theorem State.keeps_commitPages (s : State) (n at' : Nat) : KeepsWords offEpc s (s.commitPages n at').1 := by
  have hf : KeepsWords offEpc s (s.upIo fun io => s.io.armedPages.foldl (fun io pg => io.flipPage n pg) io) :=
    .upIo (.foldl (fun pg hp x => by
      obtain ⟨a, ha⟩ := Io.armedPages_page hp
      exact x.keeps_flipPage ha n) (.refl _ _))
  have h (l : List Page) : ∀ r : State × Bool, KeepsWords offEpc r.1
      (l.foldl (fun r pg => let x := r.1.adopt at' pg; (x.1, r.2 || x.2)) r).1 := by
    induction l with
    | nil => exact fun r => .refl _ _
    | cons pg l ih => exact fun r => .after (ih _) (r.1.keeps_adopt at' pg)
  exact .after (h _ _) hf

/-! ### What a boundary event has set stands -/

/-- The time base with what a commit and a change of mastership set left out. -/
def beat (t : TimeBase) : TimeBase := { t with armed := none, commitAt := 0, slew := 0 }

/-- The epoch number, the causes of the epoch page that stand, and the time base but for the commit armed and the slew are as they were. -/
structure EventKept (s t : State) : Prop where
  num : t.get pgEpc EPC_EPOCH_NUM.NUM = s.get pgEpc EPC_EPOCH_NUM.NUM
  cause : ∀ n, s.io.cause pgEpc n = true → t.io.cause pgEpc n = true
  time : beat t.io.time = beat s.io.time

namespace EventKept

variable {s t u : State}

theorem refl (s : State) : EventKept s s := ⟨rfl, fun _ h => h, rfl⟩
theorem trans (h : EventKept s t) (h' : EventKept t u) : EventKept s u :=
  ⟨h'.num.trans h.num, fun n hn => h'.cause n (h.cause n hn), h'.time.trans h.time⟩
theorem after (h' : EventKept t u) (h : EventKept s t) : EventKept s u := h.trans h'

theorem of_words (h : KeepsWords offEpc s t) (ht : beat t.io.time = beat s.io.time) : EventKept s t :=
  ⟨State.get_of_rd _ _ _ rfl (by decide) (h _ fun hc => hc.2.1 rfl), fun n hn => (h.cause pgEpc n fun hc => hc.1 rfl).trans hn, ht⟩

theorem of_time (h : KeepsWords offEpc s t) (ht : t.io.time = s.io.time) : EventKept s t := of_words h (by rw [ht])

theorem of_within {F : List Part} (h : KeepsWords offEpc s t) (hw : s.Within F t) (hF : Part.time ∉ F) : EventKept s t :=
  of_time h (hw.same .time hF)

theorem cond {c : Prop} [Decidable c] (h1 : EventKept s t) (h2 : EventKept s u) : EventKept s (if c then t else u) := by
  split
  · exact h1
  · exact h2

theorem fstMk {b : Bool} (h : EventKept s t) : EventKept s (t, b).1 := h

end EventKept

theorem Io.cause_mono (s : Io) (b n k : Nat) (h : s.cause b k = true) : (s.raise b n).cause b k = true := by
  unfold Io.cause tb at *
  rw [Io.rd_raise, if_pos rfl, BitVec.toNat_or, Nat.testBit_or, h, Bool.true_or]

namespace State

variable (s : State)

theorem kept_raise (n : Nat) : EventKept s (s.raise pgEpc n) :=
  ⟨State.get_raise _ _ _ _ _ _ rfl (by decide) (by decide), fun k hk => s.io.cause_mono pgEpc n k hk,
    congrArg beat ((within_raise ..).same .time (by decide))⟩

theorem kept_commitState (c : Nat) : EventKept s (s.put pgEpc EPC_COMMIT_STAT.STATE c) :=
  ⟨State.get_put_ne _ _ _ _ _ _ _ _ rfl (by decide) rfl (by decide) (by decide),
    fun n hn => (KeepsWords.cause (p := (· = pgEpc + EPC_COMMIT_STAT.STATE.off)) (.put s pgEpc EPC_COMMIT_STAT.STATE c 0 rfl (by decide) rfl)
      pgEpc n (by decide)).trans hn,
    congrArg beat ((within_put ..).same .time (by decide))⟩

theorem kept_putCsc (f : Fld) (v i : Nat) : EventKept s (s.put pgCsc f v i) :=
  .of_within (high_put _ highWord_csc _ _ _).offEpc (within_putAny ..) (by decide)

theorem kept_bumpCsc (f : Fld) (v i : Nat) : EventKept s (s.bump pgCsc f v i) :=
  .of_within (high_bump _ highWord_csc _ _ _).offEpc ((within_bump s pgCsc f v i).mono (Io.Fld.parts_subset f)) (by decide)

theorem kept_upCsc (f : Csc → Csc) : EventKept s (s.upCsc f) := .of_time (keeps_upCsc _ _) rfl

theorem kept_cascAbort : EventKept s s.cascAbort :=
  .after (kept_putCsc _ _ _ _) (.after (kept_raise _ _) (.after (kept_commitState _ _) (.after (kept_upCsc _ _) (.of_words (.of_regs rfl _) rfl))))

theorem kept_abandonCommit : EventKept s s.abandonCommit := .cond s.kept_cascAbort (.refl s)

theorem high_sendTime (m : Nat) : s.High (s.sendTime m) := by
  refine .foldl (fun k _ x => ?_) (.refl _ s)
  exact .after (high_ctr _ highWord_csc _ _ _) (.after (high_ctr _ highWord_csc _ _ _) (.of_within (.after (within_emit ..) (within_busyLink ..)) (by decide)))

theorem kept_sendTime (m : Nat) : EventKept s (s.sendTime m) := .of_within (s.high_sendTime m).offEpc (within_sendTime ..) (by decide)

theorem kept_setTime (t : TimeBase) (h : beat t = beat s.io.time) :
    EventKept s { s with io := { s.io with time := t } } := .of_words (.of_regs rfl _) h

theorem kept_setSlew (n : Nat) : EventKept s (s.upIo fun io => { io with time := { io.time with slew := n } }) :=
  s.kept_setTime { s.io.time with slew := n } rfl

theorem kept_becomeMaster : EventKept s s.becomeMaster := by
  unfold becomeMaster
  extract_lets +onlyGivenNames s0
  have h0 : EventKept s s0 := s.kept_abandonCommit
  clear_value s0
  extract_lets +onlyGivenNames s1
  have h1 : EventKept s s1 := .after (kept_putCsc _ _ _ _) (.after (kept_putCsc _ _ _ _) h0)
  clear_value s1
  extract_lets +onlyGivenNames s2
  have h2 : EventKept s s2 := .after (kept_upCsc _ _) h1
  clear_value s2
  extract_lets +onlyGivenNames s3
  have h3 : EventKept s s3 := .after (kept_setSlew _ 0) h2
  clear_value s3
  exact .after (.of_within (high_raise _ highWord_csc _).offEpc (within_raise ..) (by decide)) (.after (kept_bumpCsc _ _ _ _) h3)

theorem kept_takeover : EventKept s s.takeover := by
  unfold takeover
  exact .cond (.refl s) (.cond (.after (kept_sendTime _ _) (.after (kept_becomeMaster _) s.kept_abandonCommit)) s.kept_abandonCommit)

theorem kept_handBack : EventKept s s.handBack := by
  unfold handBack
  exact .cond (.refl s) (.cond (kept_upCsc _ _) (.after (kept_putCsc _ _ _ _) (.after (kept_putCsc _ _ _ _) (.after (kept_upCsc _ _)
    (.after (kept_sendTime _ _) (.after (kept_abandonCommit _) (kept_upCsc _ _)))))))

theorem kept_cascCommitted (n o : Nat) : EventKept s (s.cascCommitted n o) :=
  .after (kept_putCsc _ _ _ _) (.after (kept_putCsc _ _ _ _) (kept_upCsc _ _))

theorem kept_commitBoundary (n : Nat) : EventKept s (s.commitBoundary n).1 := by
  unfold commitBoundary
  extract_lets c missed
  split
  · exact kept_cascCommitted _ _ _
  · split
    · exact kept_cascCommitted _ _ _
    · split
      · exact .fstMk (.after (kept_upCsc _ _) s.kept_cascAbort)
      · exact .refl s

theorem kept_epochPull : EventKept s s.epochPull := .cond (.of_words (.of_regs rfl _) rfl) (.refl s)

theorem kept_cascBoundary (n : Nat) : EventKept s (s.cascBoundary n).1 :=
  .after (kept_handBack _) (.after (kept_takeover _) (.after (kept_commitBoundary _ _) (.after (kept_upCsc _ _) s.kept_epochPull)))

theorem kept_commitDue (n : Nat) : EventKept s (s.commitDue n).1 := by
  unfold commitDue
  split
  · exact kept_cascBoundary _ _
  · exact .refl s

/-! ### The commit -/

/-- The commit begun: STATE and its cause (R53). -/
def commitBegun : State :=
  (({ s with io := { s.io with time := { s.io.time with armed := none, commitAt := s.io.time.counted } } } : State).put pgEpc
    EPC_COMMIT_STAT.STATE 2).raise pgEpc 1

theorem commitNow_cases (n at' : Nat) : ∃ r : Bool, s.commitNow n at' =
    if r = true then (s.commitBegun.commitPages n at').1.slotByReset else (s.commitBegun.commitPages n at').1 := by
  obtain ⟨f, hf⟩ : ∃ f, f = State.commitNow := ⟨_, rfl⟩
  rw [← hf]
  delta State.commitNow at hf
  subst hf
  beta_reduce
  extract_lets x
  have hx : x = s.commitBegun := (s.upIo_raise _ pgEpc 1).trans (congrArg (fun y => raise y pgEpc 1) (s.upIo_put _ pgEpc EPC_COMMIT_STAT.STATE 2 0))
  clear_value x
  subst hx
  split
  next y r h =>
    rw [h]
    exact ⟨r, rfl⟩

theorem keeps_commitNow (n at' : Nat) : KeepsWords offEpc s.commitBegun (s.commitNow n at') := by
  obtain ⟨r, h⟩ := s.commitNow_cases n at'
  rw [h]
  exact .cond (.after (keeps_slotByReset _) (keeps_commitPages _ _ _)) (keeps_commitPages _ _ _)

theorem time_commitNow (n at' : Nat) : (s.commitNow n at').io.time = s.commitBegun.io.time := by
  have hp : (s.commitBegun.commitPages n at').1.io.time = s.commitBegun.io.time := (within_commitPages ..).same .time (by decide)
  obtain ⟨r, h⟩ := s.commitNow_cases n at'
  rw [h]
  split
  · exact ((within_slotByReset _).same .time (by decide)).trans hp
  · exact hp

theorem time_commitBegun : s.commitBegun.io.time = { s.io.time with armed := none, commitAt := s.io.time.counted } :=
  ((within_raise ..).same .time (by decide)).trans ((within_putAny ..).same .time (by decide))

theorem kept_commitNow (n at' : Nat) : EventKept s (s.commitNow n at') := by
  refine .after (t := s.commitBegun) (.of_time (s.keeps_commitNow n at') (s.time_commitNow n at')) ?_
  exact .after (kept_raise _ _) (.after (kept_commitState _ _)
    (s.kept_setTime { s.io.time with armed := none, commitAt := s.io.time.counted } rfl))

/-- What the commit leaves in the epoch page. -/
theorem commitNow_state (n at' : Nat) : (s.commitNow n at').get pgEpc EPC_COMMIT_STAT.STATE = 2 ∧ (s.commitNow n at').io.cause pgEpc 1 = true ∧
    (s.commitNow n at').io.time.armed = none := by
  have hk := s.keeps_commitNow n at'
  refine ⟨?_, ?_, ?_⟩
  · refine (State.get_of_rd _ _ _ rfl (by decide) (hk _ fun hc => hc.2.2 rfl)).trans ?_
    exact (State.get_raise _ _ _ _ _ _ rfl (by decide) (by decide)).trans (State.get_put_same _ _ _ _ _ rfl (by decide))
  · exact (hk.cause pgEpc 1 fun hc => hc.1 rfl).trans (State.cause_raise _ _ (by decide))
  · rw [s.time_commitNow, s.time_commitBegun]

/-! ### The boundary event -/

/-- Quince has looked for a close of the epoch that ends. -/
def boundaryLooked (c : Nat) : State := s.refillDue.qncBoundary (s.io.time.ns - (s.io.time.counted - c)) (s.get pgEpc EPC_EPOCH_NUM.NUM)

/-- The boundary event, before the commit. -/
def boundaryRisen (c : Nat) (rest : List Span) : State :=
  (((s.boundaryLooked c).upIo fun io => io.boundary c rest).raise pgEpc 0).post 0x10 []

theorem boundaryAt_cases (c : Nat) (rest : List Span) : ∃ x go, (s.boundaryRisen c rest).commitDue
      ((s.boundaryRisen c rest).get pgEpc EPC_EPOCH_NUM.NUM) = (x, go) ∧ s.boundaryAt c rest =
    if go = true then x.commitNow ((s.boundaryRisen c rest).get pgEpc EPC_EPOCH_NUM.NUM) (s.io.time.ns - (s.io.time.counted - c)) else x := by
  obtain ⟨f, hf⟩ : ∃ f, f = State.boundaryAt := ⟨_, rfl⟩
  rw [← hf]
  delta State.boundaryAt at hf
  subst hf
  beta_reduce
  extract_lets +onlyGivenNames a x
  have hx : x = s.boundaryLooked c := rfl
  clear_value x
  subst hx
  extract_lets +onlyGivenNames x
  have hx : x = s.boundaryRisen c rest := rfl
  clear_value x
  subst hx
  extract_lets +onlyGivenNames n
  split
  next y r h => exact ⟨y, r, h, rfl⟩

theorem not_qncWord_epc {o : Nat} (ho : o < 0x1000) : ¬ qncWord (pgEpc + o) := by
  have e := pgEpc_eq
  have e1 : pgQnc = 0x100000 := rfl
  have e2 : pgPmc = 0x140000 := rfl
  unfold qncWord inPage
  omega

theorem not_pipWord_low {a : Nat} (ha : a < 0x140000) : ¬ pipWord a := by
  have e1 : pgPip 8 = 0x1800000 := rfl
  have e2 : pgPmc = 0x140000 := rfl
  unfold pipWord inPage
  omega

theorem get_boundaryLooked (c : Nat) : (s.boundaryLooked c).get pgEpc EPC_EPOCH_NUM.NUM = s.get pgEpc EPC_EPOCH_NUM.NUM :=
  (KeepsWords.get (keeps_qncBoundary _ _ _) pgEpc EPC_EPOCH_NUM.NUM 0 (not_qncWord_epc (by decide))).trans (s.get_refillDue _ _ _)

theorem time_boundaryLooked (c : Nat) : (s.boundaryLooked c).io.time = { s.io.time with due := { s.io.time.due with refill := 0 } } :=
  ((within_qncBoundary ..).same .time (by decide)).trans (by rw [s.refillDue_io])

/-- What the boundary event sets before the commit. -/
theorem boundaryRisen_epoch (c : Nat) (rest : List Span) :
    (s.boundaryRisen c rest).get pgEpc EPC_EPOCH_NUM.NUM = (s.get pgEpc EPC_EPOCH_NUM.NUM + 1) % 2 ^ 32 ∧
    (s.boundaryRisen c rest).io.cause pgEpc 0 = true := by
  refine ⟨?_, ?_⟩
  · refine (KeepsWords.get (keeps_post _ _ _) pgEpc EPC_EPOCH_NUM.NUM 0 (not_pipWord_low (by decide))).trans ?_
    refine (State.get_raise _ _ _ _ _ _ rfl (by decide) (by decide)).trans ?_
    refine (Io.get_put _ _ _ _ _ rfl (by decide)).trans ?_
    refine congrArg (fun n => (n + 1) % 2 ^ 32) ((Io.get_congr ?_ ?_ ..).trans (s.get_boundaryLooked c))
    · rfl
    · rfl
  · exact ((keeps_post _ _ _).cause pgEpc 0 (not_pipWord_low (by decide))).trans (State.cause_raise _ _ (by decide))

theorem time_boundaryRisen (c : Nat) (rest : List Span) : (s.boundaryRisen c rest).io.time =
    { (s.boundaryLooked c).io.time with held := false, lastBoundary := some c, due := { (s.boundaryLooked c).io.time.due with boundary := rest } } :=
  ((within_post ..).same .time (by decide)).trans (((within_raise ..).same .time (by decide)).trans ((Io.within_put ..).same .time (by decide)))

theorem cascOn_boundaryRisen (c : Nat) (rest : List Span) : (s.boundaryRisen c rest).cascOn = s.cascOn := by
  have hq : ¬ qncWord (pgCsc + CSC_STAT.ACTIVE.off) := by unfold qncWord inPage; decide
  have hp : ¬ pipWord (pgCsc + CSC_STAT.ACTIVE.off) := by unfold pipWord inPage; decide
  have hw : (s.boundaryRisen c rest).io.rd (pgCsc + CSC_STAT.ACTIVE.off) = s.io.rd (pgCsc + CSC_STAT.ACTIVE.off) := by
    refine ((keeps_post _ _ _) _ hp).trans ((Io.rd_raise_ne _ _ _ (by decide)).trans ?_)
    refine (Io.rd_put _ _ _ _ _ _ rfl (by decide)).trans ((if_neg (by decide)).trans ?_)
    refine (keeps_qncBoundary _ _ _ _ hq).trans ?_
    rw [s.refillDue_io]
    rfl
  unfold cascOn
  rw [State.get_of_rd pgCsc CSC_STAT.ACTIVE 0 rfl (by decide) hw, State.get_of_rd pgCsc CSC_STAT.ROLE 0 rfl (by decide) hw]

theorem within_boundaryRisen (c : Nat) (rest : List Span) : s.Within (ioParts ++ [.buf, .qnc, .pip]) (s.boundaryRisen c rest) := by
  unfold boundaryRisen boundaryLooked
  exact .mono (.after (within_post ..) (.after (within_raise ..) (.after (.upIo (Io.within_boundary ..))
    (.after (within_qncBoundary ..) (within_refillDue _))))) (by decide)

end State

theorem State.Within.eq_boundary {s t : State} (h : s.Within (ioParts ++ [.buf, .qnc, .pip]) t) :
    t = { s with io := t.io, buf := t.buf, qnc := t.qnc, pip := t.pip } := h.eq

theorem State.boundaryAt_taken (s : State) (c : Nat) (rest : List Span) : BoundaryTaken s (s.boundaryAt c rest) c ∧
    (s.boundaryAt c rest).io.time.due.boundary = rest ∧ (s.boundaryAt c rest).io.time.ns = s.io.time.ns ∧
    (s.boundaryAt c rest).io.time.counted = s.io.time.counted := by
  obtain ⟨x, go, hd, he⟩ := s.boundaryAt_cases c rest
  obtain ⟨hn, hc⟩ := s.boundaryRisen_epoch c rest
  have ht := s.time_boundaryRisen c rest
  rw [s.time_boundaryLooked c] at ht
  have hcasc := s.cascOn_boundaryRisen c rest
  have hw := s.within_boundaryRisen c rest
  rw [he, hn]
  rw [hn] at hd
  generalize s.boundaryRisen c rest = y at hd hn hc ht hcasc hw
  have hk : EventKept y x := by
    have h := y.kept_commitDue ((s.get pgEpc EPC_EPOCH_NUM.NUM + 1) % 2 ^ 32)
    rwa [hd] at h
  generalize hg : (if go = true then x.commitNow _ _ else x) = t
  have hk' : EventKept y t := by
    rw [← hg]
    exact .cond (.after (State.kept_commitNow _ _ _) hk) hk
  have hb := hk'.time
  rw [ht] at hb
  have hdue (h : s.cascOn = false) : (x, go) = (y, y.io.time.armed == some ((s.get pgEpc EPC_EPOCH_NUM.NUM + 1) % 2 ^ 32)) := by
    rw [← hd]
    unfold State.commitDue
    rw [hcasc, h]
    rfl
  have harm : y.io.time.armed = s.io.time.armed := by rw [ht]
  refine ⟨⟨hk'.num.trans hn, hk'.cause 0 hc, (congrArg TimeBase.lastBoundary hb :), (congrArg TimeBase.held hb :), fun h ha => ?_, fun h ha => ?_⟩,
    (congrArg (fun t => t.due.boundary) hb :), (congrArg TimeBase.ns hb :), (congrArg TimeBase.counted hb :)⟩
  · obtain ⟨hx, hgo⟩ := Prod.mk.inj (hdue h)
    rw [harm, ha, beq_self_eq_true] at hgo
    rw [if_pos hgo] at hg
    obtain ⟨h1, h2, h3⟩ := x.commitNow_state ((s.get pgEpc EPC_EPOCH_NUM.NUM + 1) % 2 ^ 32) (s.io.time.ns - (s.io.time.counted - c))
    rw [← hg]
    exact ⟨h3, h1, h2⟩
  · obtain ⟨hx, hgo⟩ := Prod.mk.inj (hdue h)
    rw [harm, beq_eq_false_iff_ne.2 ha] at hgo
    rw [hgo, if_neg (by decide)] at hg
    rw [← hg, hx]
    exact ⟨harm, hw.eq_boundary⟩

/-! ### Time up to the event -/

theorem not_tickWord_low {a : Nat} (h1 : a < 0x140000) (h2 : a < pgClk ∨ pgClk + 0x1000 ≤ a) : ¬ tickWord a := by
  have e1 : pgPmc = 0x140000 := rfl
  have e2 : CLK_SWALLOWn.COUNT.off + 88 ≤ 0x1000 := by decide
  have e3 (p : Nat) : pgPmcL p = 0x1000000 + p * 0x100000 + 0x80000 := rfl
  unfold tickWord inPage
  rintro (h | ⟨p, _, h⟩ | h)
  · omega
  · rw [e3] at h
    omega
  · omega

/-- The boundary measured from a state that time has led to. -/
theorem BoundaryTaken.of_passed {s t : State} {x : Io} {d c : Nat} (hp : Io.Passed d s.io x) (h : BoundaryTaken { s with io := x } t c) :
    BoundaryTaken s t c := by
  have hnum : ({ s with io := x } : State).get pgEpc EPC_EPOCH_NUM.NUM = s.get pgEpc EPC_EPOCH_NUM.NUM :=
    State.get_of_rd _ _ _ rfl (by decide) (hp.keeps.rd _ (not_tickWord_low (by decide) (by decide)))
  have hw : x.rd (pgCsc + CSC_STAT.ACTIVE.off) = s.io.rd (pgCsc + CSC_STAT.ACTIVE.off) := hp.keeps.rd _ (by
    unfold tickWord inPage
    have e1 : pgCsc + CSC_STAT.ACTIVE.off = 0x1C0000 + CSC_STAT.ACTIVE.off := rfl
    have e3 (p : Nat) : pgPmcL p = 0x1000000 + p * 0x100000 + 0x80000 := rfl
    rintro (h | ⟨p, _, h⟩ | h)
    · revert h
      decide
    · rw [e3, e1] at h
      have : CSC_STAT.ACTIVE.off < 0x1000 := by decide
      omega
    · revert h
      decide)
  have hcasc : ({ s with io := x } : State).cascOn = s.cascOn := by
    unfold State.cascOn
    rw [State.get_of_rd (s := s) (t := { s with io := x }) pgCsc CSC_STAT.ACTIVE 0 rfl (by decide) hw,
      State.get_of_rd (s := s) (t := { s with io := x }) pgCsc CSC_STAT.ROLE 0 rfl (by decide) hw]
  obtain ⟨h1, h2, h3, h4, h5, h6⟩ := h
  rw [hnum] at h1
  rw [hnum, hcasc, hp.armed] at h5 h6
  exact ⟨h1, h2, h3, h4, h5, h6⟩

namespace Io

variable (s : Io)

/-- The movements that wait once `markDue` has added one, for any values the time base was given. -/
theorem boundary_markDue_set (n r k f : Nat) (st : Option Nat) (a b c : Nat) (e : Bool) :
    (({ s with time := { s.time with ns := n, sub := r, counted := k, stepped := st, due := { s.time.due with refill := f } } } : Io).markDue
      a b c e).time.due.boundary = spansWith (2 ^ s.epochK) s.time.due.boundary ⟨a, b, c, e⟩ := rfl

theorem boundary_advance (n : Nat) : (s.advance n).time.due.boundary = spansWith (2 ^ s.epochK) s.time.due.boundary
    ⟨s.time.ns, s.time.ns + s.tickedNs n, s.time.counted + s.tickedNs n, false⟩ := by
  unfold advance tickedNs
  exact s.boundary_markDue_set ..

end Io

theorem crossing_counted {m a k c : Nat} (hm : 0 < m) (h : m - a % m ≤ k) : ∃ r, crossing m [⟨a, a + k, c + k, false⟩] = some (c + (m - a % m), r) := by
  have hdm := Nat.div_add_mod a m
  have hlt := Nat.mod_lt a hm
  have hx : (a / m + 1) * m = a + (m - a % m) := by
    rw [Nat.add_mul, Nat.one_mul, Nat.mul_comm]
    omega
  have hc : crosses m a (a + k) = true := by
    refine decide_eq_true ?_
    refine (Nat.le_div_iff_mul_le hm).2 ?_
    rw [hx]
    omega
  unfold crossing Span.cross
  rw [hc]
  simp only [Bool.not_true, Bool.false_eq_true, if_false]
  exact ⟨_, by rw [hx, show c + k - (a + k - (a + (m - a % m))) = c + (m - a % m) by omega]⟩

theorem crossing_spansWith {m a k c : Nat} {old : List Span} (hm : 0 < m) (ho : crossing m old = none) (h : m - a % m ≤ k) :
    ∃ r, crossing m (spansWith m old ⟨a, a + k, c + k, false⟩) = some (c + (m - a % m), r) := by
  obtain ⟨r, hr⟩ := crossing_counted (c := c) hm h
  refine ⟨r, ?_⟩
  unfold spansWith
  rw [ho]
  simp only [Option.isSome_none, Bool.false_eq_true, if_false, joinSpan, hr, Option.isSome_some, if_true]

/-- K stands where the two banks and the choice between them do (R50). -/
theorem Io.epochK_congr (s : Io) {t : Io} (hb : t.bank = s.bank) (ha : t.rd (pgEpc + 0x24) = s.rd (pgEpc + 0x24)) : t.epochK = s.epochK := by
  have e (x : Io) : x.epochK = gb (x.bk (pgEpc + EPC_EPOCH_CFG.K.off) (x.active pgEpc)) EPC_EPOCH_CFG.K.lo EPC_EPOCH_CFG.K.len := rfl
  rw [e, e, active_congr ha, bk_congr hb]

/-- The movement that a wait adds to those in which boundaries lie. -/
theorem Io.waitNs_spans (s : Io) {n : Nat} (w : Nat → Nat) (h0 : n ≠ 0) (hi : s.tickInc ≠ 0) :
    ∃ d, Passed d s (s.waitNs n w) ∧ n ≤ d ∧ (s.waitNs n w).epochK = s.epochK ∧ (s.waitNs n w).time.due.boundary =
      spansWith (2 ^ s.epochK) s.time.due.boundary ⟨s.time.ns, s.time.ns + d, s.time.counted + d, false⟩ := by
  have e : s.waitNs n w = s.ticks (s.ticksFor n) w := if_neg h0
  have hd := s.tickedNs_ticksFor n hi
  rw [e]
  generalize s.ticksFor n = k at hd
  have hp := s.ticks_passed k w
  exact ⟨_, hp, hd, s.epochK_congr ((s.within_ticks k w).same .bank (by decide))
    (hp.keeps.rd (pgEpc + 0x24) (not_tickWord_low (by decide) (by decide))), by rw [s.ticks_time, s.boundary_advance]⟩

theorem Io.toMultiple_pos (s : Io) {m : Nat} (hm : 0 < m) : s.toMultiple m ≠ 0 := by
  have := Nat.mod_lt s.time.ns hm
  unfold toMultiple
  omega

/-- Time led to the next multiple of 2^K. -/
theorem Io.waitNs_crosses (s : Io) (w : Nat → Nat) (h : s.crossed = none) (hi : s.tickInc ≠ 0) :
    ∃ d r, Passed d s (s.waitNs (s.toMultiple (2 ^ s.epochK)) w) ∧ s.toMultiple (2 ^ s.epochK) ≤ d ∧
      (s.waitNs (s.toMultiple (2 ^ s.epochK)) w).crossed = some (s.time.counted + s.toMultiple (2 ^ s.epochK), r) := by
  obtain ⟨d, hp, hd, hk, hb⟩ := s.waitNs_spans w (s.toMultiple_pos (Nat.two_pow_pos s.epochK)) hi
  obtain ⟨r, hr⟩ := crossing_spansWith (c := s.time.counted) (Nat.two_pow_pos s.epochK) h hd
  refine ⟨d, r, hp, hd, ?_⟩
  unfold Io.crossed
  rw [hk, hb]
  exact hr

theorem Io.gapEnd_some {s : Io} {l : Nat} (h : s.time.lastBoundary = some l) : s.gapEnd = l + 16384 := by
  unfold gapEnd
  rw [h]
  rfl

/-! ### The events -/

section
variable {s : State} (hon : s.on = true)

theorem State.boundaryEvent_eq {x : Io} {c : Nat} {rest : List Span} (h : s.io.toBoundary s.waiting = (x, some (c, rest))) :
    s.boundaryEvent = State.boundaryAt { s with io := x } c rest := by
  unfold State.boundaryEvent
  rw [h]

theorem State.heldBoundary_eq {x : Io} {c : Nat} {rest : List Span} (h : s.io.toHeldEnd s.waiting = (x, some (c, rest))) :
    s.heldBoundary = State.boundaryAt { s with io := x } c rest := by
  unfold State.heldBoundary
  rw [h]

include hon

theorem boundaryEvent_runs {P : State → Prop} (h : P s.boundaryEvent) : Completes .boundaryEvent s P :=
  .live' (f := fun s => s.boundaryEvent) rfl hon ((State.within_boundaryEvent s).same .pending (by decide)) h

theorem heldBoundary_runs {P : State → Prop} (h : P s.heldBoundary) : Completes .heldBoundary s P :=
  .live' (f := fun s => s.heldBoundary) rfl hon ((State.within_heldBoundary s).same .pending (by decide)) h

theorem boundaryEvent_waiting {c : Nat} {rest : List Span} (hc : s.io.crossed = some (c, rest)) (hg : s.io.gapOver c = true)
    (hh : s.io.time.held = false) : Completes .boundaryEvent s (fun t =>
      BoundaryTaken s t c ∧ t.io.time.due.boundary = rest ∧ t.io.time.ns = s.io.time.ns ∧ t.io.time.counted = s.io.time.counted) := by
  have e : s.io.toBoundary s.waiting = (s.io, some (c, rest)) := by
    unfold Io.toBoundary
    rw [hc]
    simp [hc, hg, hh]
  refine boundaryEvent_runs hon ?_
  rw [s.boundaryEvent_eq e]
  exact s.boundaryAt_taken c rest

theorem boundaryEvent_ahead (hc : s.io.crossed = none) (hh : s.io.time.held = false) (hi : s.io.tickInc ≠ 0)
    (hg : s.io.gapEnd ≤ s.io.time.counted + s.io.toMultiple (2 ^ s.io.epochK)) : Completes .boundaryEvent s (fun t =>
      BoundaryTaken s t (s.io.time.counted + s.io.toMultiple (2 ^ s.io.epochK)) ∧
      s.io.time.ns + s.io.toMultiple (2 ^ s.io.epochK) ≤ t.io.time.ns) := by
  obtain ⟨d, r, hp, hd, hx⟩ := s.io.waitNs_crosses s.waiting hc hi
  have e : s.io.toBoundary s.waiting = (s.io.waitNs (s.io.toMultiple (2 ^ s.io.epochK)) s.waiting,
      some (s.io.time.counted + s.io.toMultiple (2 ^ s.io.epochK), r)) := by
    unfold Io.toBoundary
    rw [hc, hh]
    simp only [Option.isSome_none, Bool.false_eq_true, false_and, or_false, if_false]
    rw [hx]
    have hover : (s.io.waitNs (s.io.toMultiple (2 ^ s.io.epochK)) s.waiting).gapOver
        (s.io.time.counted + s.io.toMultiple (2 ^ s.io.epochK)) = true := by
      unfold Io.gapOver
      rw [hp.last]
      unfold Io.gapEnd at hg
      split
      · rfl
      next l hl =>
        rw [hl] at hg
        exact decide_eq_true hg
    simp [hover, hp.held, hh]
  refine boundaryEvent_runs hon ?_
  rw [s.boundaryEvent_eq e]
  obtain ⟨ht, _, hns, _⟩ := State.boundaryAt_taken { s with io := s.io.waitNs (s.io.toMultiple (2 ^ s.io.epochK)) s.waiting }
    (s.io.time.counted + s.io.toMultiple (2 ^ s.io.epochK)) r
  refine ⟨ht.of_passed hp, ?_⟩
  rw [hns]
  exact (Nat.add_le_add_left hd _).trans (Nat.le_of_eq hp.ns.symm)

theorem boundaryEvent_held {c : Nat} {rest : List Span} (hc : s.io.crossed = some (c, rest)) (hg : s.io.gapOver c = false) :
    Completes .boundaryEvent s (fun t =>
        t.get pgEpc EPC_EPOCH_NUM.NUM = s.get pgEpc EPC_EPOCH_NUM.NUM ∧ t.io.time.held = true ∧
        t.io.time.due.boundary = rest ∧ t.get pgEpc EPC_STAT.BOUNDARY_DEFERRED = 1 ∧ t.io.cause pgEpc 3 = true ∧ OnlyIo s t ∧
        KeepsWords (fun a => a = pgEpc + 0x10 ∨ a = pgEpc + EPC_STAT.BOUNDARY_DEFERRED.off) s t) := by
  have e : s.boundaryEvent = { s with io := s.io.holdBoundary rest } := by
    have h : s.io.toBoundary s.waiting = (s.io.holdBoundary rest, none) := by
      unfold Io.toBoundary
      rw [hc]
      simp [hc, hg]
    unfold State.boundaryEvent
    rw [h]
  have hk : s.io.Keeps (fun a => a = pgEpc + 0x10 ∨ a = pgEpc + EPC_STAT.BOUNDARY_DEFERRED.off) (s.io.holdBoundary rest) :=
    .after (.raise _ _ _ (.inl rfl)) (.after (.put _ _ _ _ _ rfl (by decide) (.inr rfl)) (.of_regs rfl))
  have ht : (s.io.holdBoundary rest).time = { s.io.time with held := true, due := { s.io.time.due with boundary := rest } } :=
    ((Io.within_raise ..).same .time (by decide)).trans ((Io.within_put ..).same .time (by decide))
  refine boundaryEvent_runs hon ?_
  rw [e]
  refine ⟨State.get_of_rd _ _ _ rfl (by decide) (hk.rd _ (by decide)), by rw [ht], by rw [ht], ?_, Io.cause_raise _ _ (by decide), rfl, hk.rd⟩
  exact (Io.get_raise _ _ _ _ _ _ rfl (by decide) (by decide)).trans (Io.get_put _ _ _ _ _ rfl (by decide))

theorem heldBoundary_taken {l : Nat} (hh : s.io.time.held = true) (hl : s.io.time.lastBoundary = some l) : Completes .heldBoundary s (fun t =>
    BoundaryTaken s t (l + 16384) ∧ (s.io.tickInc ≠ 0 → l + 16384 ≤ t.io.time.counted)) := by
  obtain ⟨d, hp, hd⟩ := s.io.waitNs_passed (s.io.gapEnd - s.io.time.counted) s.waiting
  have e : s.io.toHeldEnd s.waiting = (s.io.waitNs (s.io.gapEnd - s.io.time.counted) s.waiting,
      some (l + 16384, (s.io.waitNs (s.io.gapEnd - s.io.time.counted) s.waiting).time.due.boundary)) := by
    have hge : (s.io.waitNs (s.io.gapEnd - s.io.time.counted) s.waiting).gapEnd = l + 16384 :=
      Io.gapEnd_some (hp.last.trans hl)
    unfold Io.toHeldEnd
    rw [hh]
    simp only [Bool.not_true, Bool.false_eq_true, if_false]
    rw [hge, hp.last, hl]
    rfl
  have hge : s.io.gapEnd = l + 16384 := Io.gapEnd_some hl
  refine heldBoundary_runs hon ?_
  rw [s.heldBoundary_eq e]
  generalize s.io.waitNs _ _ = x at hp
  obtain ⟨ht, _, _, hcn⟩ := State.boundaryAt_taken { s with io := x } (l + 16384) x.time.due.boundary
  refine ⟨ht.of_passed hp, fun hi => ?_⟩
  have h1 := hd hi
  have h2 := hp.counted
  rw [hcn]
  change l + 16384 ≤ x.time.counted
  omega

end

/-- Settles O21: the event taken at the crossing that waits, at the one time leads to, and at the end of the hold. -/
theorem boundaryEvents : Obligations.BoundaryEvents := by
  refine fun s hon => ⟨fun c rest => boundaryEvent_waiting hon, boundaryEvent_ahead hon, fun c rest => boundaryEvent_held hon,
    fun l => heldBoundary_taken hon, fun hh => .live (f := fun s => s.heldBoundary) rfl ?_⟩
  unfold State.heldBoundary Io.toHeldEnd
  rw [hh]
  rfl

end Sys2Proof.Machine
end

section
/-!
SUPPORT. Cold reset, the stop sequence and the boot steps (R471 to R473, R496 to R506, R520).
-/
namespace Sys2Proof.Machine

/-- A command that acts always. -/
theorem Completes.always {c : Instr} {s t : State} {f : State → State} {P : State → Prop} (hx : exec c s = s.always f) (hf : f s = t)
    (hp : t.pending = s.pending) (h : P t) : Completes c s P := by
  refine ⟨t, hx.trans ?_, h⟩
  unfold State.always
  rw [hf, ← hp]

/-! ### Cold reset -/

theorem State.writeAlive_cases (s : State) (n : Nat) : (s.writeAlive n = s ∧ ¬ (s.feature 5 = true ∧ s.io.time.set = true)) ∨
    s.writeAlive n = { s with io := { s.io with nvm := { s.io.nvm with alive := some n } } } := by
  by_cases h : s.feature 5 = true ∧ s.io.time.set = true
  · exact .inr (if_pos h)
  · exact .inl ⟨if_neg h, h⟩

theorem powerOnReset_holds (s : State) : Completes .powerOnReset s (fun t =>
    t.io.sys.phase = .held ∧ t.io.sys.porHeld = true ∧ t.io.sys.faultLow = false ∧ OnlyIo s t ∧ t.io.regs = s.io.regs ∧ t.io.nvm = s.io.nvm) :=
  .always (f := fun s => s.powerOnReset) rfl rfl rfl ⟨rfl, rfl, rfl, rfl, rfl, rfl⟩

/-- The device held by CHIP_RST_N (R496). -/
def State.chipHeld (s : State) (c : Nat) : State := s.upSys fun y =>
  { y with phase := .held, chipRstLow := true, coldCause := c, faultLow := false, ppsHigh := false, cascLow := false }

theorem State.chipReset_cases (s : State) : ∃ x c, s.chipReset = x.chipHeld c ∧ (x = s ∨ x = s.writeAlive s.io.time.ns) ∧
    (s.on = true → x = s.writeAlive s.io.time.ns) := by
  refine ⟨if s.on = true then s.writeAlive s.io.time.ns else s, _, rfl, ?_, fun h => if_pos h⟩
  split
  · exact .inr rfl
  · exact .inl rfl

theorem State.onlyIo_writeAlive (s : State) (n : Nat) : OnlyIo s (s.writeAlive n) ∧ (s.writeAlive n).io.regs = s.io.regs := by
  rcases s.writeAlive_cases n with ⟨h, _⟩ | h <;> rw [h] <;> exact ⟨rfl, rfl⟩

theorem chipReset_holds (s : State) : Completes .chipRstNAssert s (fun t =>
    t.io.sys.phase = .held ∧ t.io.sys.chipRstLow = true ∧
    (s.on = true → s.feature 5 = true → s.io.time.set = true → t.io.nvm.alive = some s.io.time.ns) ∧ OnlyIo s t ∧ t.io.regs = s.io.regs) := by
  obtain ⟨x, c, he, hx, hon⟩ := s.chipReset_cases
  have hxo : OnlyIo s x ∧ x.io.regs = s.io.regs := by
    rcases hx with rfl | rfl
    · exact ⟨rfl, rfl⟩
    · exact s.onlyIo_writeAlive _
  obtain ⟨ho, hr⟩ := hxo
  refine .always (f := fun s => s.chipReset) rfl he (by rw [ho]; rfl) ⟨rfl, rfl, fun h h5 ht => ?_, by rw [ho]; rfl, hr⟩
  have h1 := hon h
  rcases s.writeAlive_cases s.io.time.ns with ⟨_, h⟩ | h
  · exact absurd ⟨h5, ht⟩ h
  · rw [h1, h]
    rfl

/-- The state that a release of cold reset leaves, but for the cause it reports (R498). -/
def State.released (s : State) : State :=
  { pending := s.pending
    io := { nvm := s.io.nvm, out := s.io.out, free := s.io.free, pcie := { perstLow := s.io.pcie.perstLow }
            sys := { temp := s.io.sys.temp, coldCause := s.io.sys.coldCause } } }

theorem State.coldRelease_held {s : State} (h : s.io.sys.phase = .held) :
    s.coldRelease false = s.released.put pgSys SYS_RST_CAUSE.COLD s.io.sys.coldCause := by
  unfold coldRelease
  rw [if_neg (not_not.2 h)]
  rfl

theorem coldRelease_leaves {s : State} (h : s.io.sys.phase = .held) : Completes (.coldResetRelease false) s (fun t =>
    t.io.sys.phase = .running ∧ t.io.nvm = s.io.nvm ∧ t.io.bank = [] ∧ t.io.time = {} ∧
    (∀ a, a ≠ pgSys + SYS_RST_CAUSE.COLD.off → t.io.rd a = resetWord a) ∧
    t.get pgSys SYS_RST_CAUSE.COLD = s.io.sys.coldCause % 8 ∧ t = { pending := s.pending, io := t.io }) := by
  have hw : s.released.Within [.regs] (s.released.put pgSys SYS_RST_CAUSE.COLD s.io.sys.coldCause) :=
    .upIo (Io.within_putRegs _ _ _ _ rfl)
  refine .always (f := fun s => s.coldRelease false) rfl (State.coldRelease_held h) (hw.same .pending (by decide)) ⟨?_, ?_, ?_, ?_, fun a ha => ?_, ?_, ?_⟩
  · exact congrArg Sys.phase (hw.same .sys (by decide))
  · exact hw.same .nvm (by decide)
  · exact hw.same .bank (by decide)
  · exact hw.same .time (by decide)
  · refine (Io.rd_put _ _ _ _ _ _ rfl (by decide)).trans ((if_neg (by simpa using ha)).trans ?_)
    exact SMap.get_nil _ _
  · exact State.get_put_same _ _ _ _ _ rfl (by decide)
  · exact (OnlyRegs.put s.released pgSys SYS_RST_CAUSE.COLD s.io.sys.coldCause 0 rfl).irq.io

/-- Settles O14: what holds the device, and the state that its release leaves. -/
theorem coldReset : Obligations.ColdReset := by
  refine fun s => ⟨powerOnReset_holds s, chipReset_holds s, coldRelease_leaves, fun h => ?_, fun h b => ?_⟩
  · refine .always (f := fun s => s.coldRelease true) rfl rfl ?_ ?_
    · unfold State.coldRelease
      rw [if_neg (not_not.2 h)]
      rfl
    · unfold State.coldRelease
      rw [if_neg (not_not.2 h)]
      rfl
  · exact .always (f := fun s => s.coldRelease b) rfl (if_pos h)

end Sys2Proof.Machine
end

section
/-!
SUPPORT. The stop sequence, the straps and the boot steps (R471 to R473, R501 to R506).
-/
namespace Sys2Proof.Machine

/-! ### The stop sequence -/

/-- A FATAL record (R479). -/
theorem rasRecord_fatal (code block unit sup seq ns sec loc det ep : Nat) (hc : code < 256) :
    gb (rasRecord 3 code block unit sup seq ns sec loc det ep) 32 8 = 3 ∧ gb (rasRecord 3 code block unit sup seq ns sec loc det ep) 40 8 = code := by
  unfold gb bitsOf rasRecord
  rw [BitVec.toNat_ofNat, Nat.shiftRight_eq_div_pow, Nat.shiftRight_eq_div_pow]
  generalize block % 2 ^ 16 = b
  generalize unit % 256 = u
  generalize sup % 2 ^ 16 = c
  generalize seq % 2 ^ 64 = d
  generalize ns % 2 ^ 32 = e
  generalize sec % 2 ^ 48 = f
  generalize loc % 2 ^ 64 = g
  generalize det % 2 ^ 128 = h
  generalize ep % 2 ^ 32 = i
  omega

/-- A FATAL event takes a sequence number, and its record waits (R479, R482). -/
theorem Io.report_fatal (s : Io) (code loc : Nat) (hc : code < 256) : ∃ r, s.report 3 code pgRas loc 0 =
    { s with nvm := { s.nvm with seq := s.nvm.seq + 1 }, ras := { s.ras with toLog := s.ras.toLog ++ [r] } } ∧
    gb r 32 8 = 3 ∧ gb r 40 8 = code := by
  have hp : pageOf pgRas = some ⟨.ras, 0, pgRas⟩ := pageOf_ras (o := 0) (by decide)
  unfold report
  rw [hp]
  exact ⟨_, rfl, rasRecord_fatal _ _ _ _ _ _ _ _ _ _ hc⟩

/-- What a FATAL event that stops the device leaves. -/
structure Stopped (s t : State) (code cause : Nat) : Prop where
  phase : t.io.sys.phase = .stopping
  fault : t.io.sys.faultLow = true
  pps : t.io.sys.ppsHigh = false
  casc : t.io.sys.cascLow = false
  cause : t.io.sys.stopCause = cause
  record : ∃ r, t.io.ras.toLog = s.io.ras.toLog ++ [r] ∧ gb r 32 8 = 3 ∧ gb r 40 8 = code
  seq : t.io.nvm.seq = s.io.nvm.seq + 1
  temp : t.io.sys.temp = s.io.sys.temp
  only : OnlyIo s t
  regs : t.io.regs = s.io.regs

theorem State.stopNow_stops (s : State) (code loc cause : Nat) (hc : code < 256) : Stopped s (s.stopNow code loc cause) code cause := by
  obtain ⟨r, he, hr⟩ := s.io.report_fatal code loc hc
  have h : s.report 3 code pgRas loc 0 = _ := congrArg (fun io => ({ s with io := io } : State)) he
  unfold State.stopNow
  rw [h]
  exact ⟨rfl, rfl, rfl, rfl, rfl, ⟨r, rfl, hr⟩, rfl, rfl, rfl, rfl⟩

theorem Stopped.pending {s t : State} {code cause : Nat} (h : Stopped s t code cause) : t.pending = s.pending := by rw [h.only]

theorem temp_setTemp (s : State) (n c : Nat) : (s.setTemp n c).temp n = c := by
  unfold State.temp State.setTemp
  rw [State.upIo_io]
  dsimp only
  rw [SMap.get_set_same]
  rfl

theorem thermalTrip_stops {s : State} (hon : s.on = true) (stack : Bool) (n : Fin 16) : Completes (.thermalTrip stack n) s (fun t =>
    t.io.sys.phase = .stopping ∧ t.io.sys.faultLow = true ∧ t.io.sys.ppsHigh = false ∧ t.io.sys.cascLow = false ∧
    t.io.sys.stopCause = 2 ∧ (∃ r, t.io.ras.toLog = s.io.ras.toLog ++ [r] ∧ gb r 32 8 = 3 ∧ gb r 40 8 = 19) ∧
    (stack = false → 120 ≤ t.temp n.val) ∧ t.io.nvm.seq = s.io.nvm.seq + 1 ∧ OnlyIo s t ∧ t.io.regs = s.io.regs) := by
  have e : s.thermalTrip stack n.val = (if stack = true then s else s.setTemp n.val (max 120 (s.temp n.val))).stopNow 19
      (if stack = true then 256 + n.val else n.val) 2 := by
    unfold State.thermalTrip
    rw [hon]
    rfl
  have h := State.stopNow_stops (if stack = true then s else s.setTemp n.val (max 120 (s.temp n.val))) 19
    (if stack = true then 256 + n.val else n.val) 2 (by decide)
  rw [← e] at h
  cases stack
  · refine .live' (f := fun s => s.thermalTrip false n.val) rfl hon h.pending
      ⟨h.phase, h.fault, h.pps, h.casc, h.cause, h.record, fun _ => ?_, h.seq, h.only, h.regs⟩
    have ht : (s.thermalTrip false n.val).temp n.val = (s.setTemp n.val (max 120 (s.temp n.val))).temp n.val := by
      unfold State.temp
      rw [h.temp]
      rfl
    rw [ht, temp_setTemp]
    exact le_max_left ..
  · exact .live' (f := fun s => s.thermalTrip true n.val) rfl hon h.pending
      ⟨h.phase, h.fault, h.pps, h.casc, h.cause, h.record, (fun h => nomatch h), h.seq, h.only, h.regs⟩

theorem supplyFault_stops {s : State} (hon : s.on = true) (rail : Fin 8) : Completes (.supplyFault rail) s (fun t =>
    t.io.sys.phase = .stopping ∧ t.io.sys.faultLow = true ∧ t.io.sys.stopCause = 3 ∧
    (∃ r, t.io.ras.toLog = s.io.ras.toLog ++ [r] ∧ gb r 32 8 = 3 ∧ gb r 40 8 = 20) ∧
    t.io.nvm.seq = s.io.nvm.seq + 1 ∧ OnlyIo s t ∧ t.io.regs = s.io.regs) := by
  have e : s.supplyFault rail.val = s.stopNow 20 rail.val 3 := if_pos hon
  have h := s.stopNow_stops 20 rail.val 3 (by decide)
  exact .live_eq (f := fun s => s.supplyFault rail.val) rfl hon e h.pending ⟨h.phase, h.fault, h.cause, h.record, h.seq, h.only, h.regs⟩

/-- The log's head after `l` is written. -/
theorem State.logWrites (l : List Line) : ∀ s : State, ∃ n : Nvm, l.foldl (fun s r => s.logWrite r) s = { s with io := { s.io with nvm := n } } ∧
    n.alive = s.io.nvm.alive ∧ n.logHead = if l = [] then s.io.nvm.logHead else (s.io.nvm.logHead + l.length) % 16384 := by
  induction l with
  | nil => exact fun s => ⟨s.io.nvm, rfl, rfl, rfl⟩
  | cons r l ih =>
    intro s
    obtain ⟨n, he, ha, hh⟩ := ih (s.logWrite r)
    refine ⟨n, he, ha, hh.trans ?_⟩
    have h1 : (s.logWrite r).io.nvm.logHead = (s.io.nvm.logHead + 1) % 16384 := rfl
    rw [h1, if_neg (List.cons_ne_nil _ _), List.length_cons]
    split
    next h => rw [h]; rfl
    · omega

theorem State.stopPersist_eq {s : State} (h : s.io.sys.phase = .stopping) : s.stopPersist =
    s.io.ras.toLog.foldl (fun s r => s.logWrite r) ((s.writeAlive s.io.time.ns).upIo fun io => { io with ras := { io.ras with toLog := [] } }) := by
  have hl : (s.writeAlive s.io.time.ns).io.ras = s.io.ras := by
    rcases s.writeAlive_cases s.io.time.ns with ⟨h, _⟩ | h <;> rw [h]
  unfold State.stopPersist
  rw [if_neg (not_not.2 h)]
  dsimp only
  rw [hl]

theorem stopPersist_logs {s : State} (h : s.io.sys.phase = .stopping) : Completes .stopPersist s (fun t =>
    (s.feature 5 = true → s.io.time.set = true → t.io.nvm.alive = some s.io.time.ns) ∧ t.io.ras.toLog = [] ∧
    t.io.nvm.logHead = (if s.io.ras.toLog = [] then s.io.nvm.logHead else (s.io.nvm.logHead + s.io.ras.toLog.length) % 16384) ∧
    t.io.sys = s.io.sys ∧ OnlyIo s t ∧ t.io.regs = s.io.regs) := by
  obtain ⟨n, he, ha, hh⟩ := State.logWrites s.io.ras.toLog ((s.writeAlive s.io.time.ns).upIo fun io => { io with ras := { io.ras with toLog := [] } })
  rw [← State.stopPersist_eq h] at he
  rcases s.writeAlive_cases s.io.time.ns with ⟨hw, hn⟩ | hw
  · rw [hw] at he hh
    exact .always (f := fun s => s.stopPersist) rfl he rfl ⟨fun h5 ht => absurd ⟨h5, ht⟩ hn, rfl, hh, rfl, rfl, rfl⟩
  · rw [hw] at he hh ha
    exact .always (f := fun s => s.stopPersist) rfl he rfl ⟨fun _ _ => ha, rfl, hh, rfl, rfl, rfl⟩

theorem stopHalt_halts {s : State} (h : s.io.sys.phase = .stopping) : Completes .stopHalt s (fun t =>
    t = { s with io := { s.io with sys := { s.io.sys with phase := .halted } } }) :=
  .always (f := fun s => s.stopHalt) rfl (if_pos h) rfl rfl

/-! ### The straps -/

theorem majority_bits : ∀ m : Fin 6 → Bool, ∀ i : Fin 6,
    ((List.finRange 6).foldl (fun a i => a + (if m i = true then 2 ^ i.val else 0)) 0).testBit i.val = m i ∧
    (List.finRange 6).foldl (fun a i => a + (if m i = true then 2 ^ i.val else 0)) 0 < 64 := by decide

/-- The majority of three levels. -/
def maj (a b c : Bool) : Bool := (a && b) || (a && c) || (b && c)

theorem majority_three (a b c : BitVec 6) : majority [a, b, c]
    = (List.finRange 6).foldl (fun n (i : Fin 6) => n + (if maj (tb a i.val) (tb b i.val) (tb c i.val) = true then 2 ^ i.val else 0)) 0 := by
  have h (i : Nat) : 2 ≤ ([a, b, c].filter fun w => tb w i).length ↔ maj (tb a i) (tb b i) (tb c i) = true := by
    cases ha : tb a i <;> cases hb : tb b i <;> cases hc : tb c i <;> simp [ha, hb, hc, maj]
  have e : List.range 6 = (List.finRange 6).map Fin.val := by decide
  unfold majority
  rw [e, List.foldl_map]
  simp only [h]

theorem majority_testBit (a b c : BitVec 6) (i : Fin 6) : (majority [a, b, c]).testBit i.val = maj (tb a i.val) (tb b i.val) (tb c i.val) := by
  rw [majority_three]
  exact (majority_bits (fun i => maj (tb a i.val) (tb b i.val) (tb c i.val)) i).1

theorem majority_lt (a b c : BitVec 6) : majority [a, b, c] < 64 := by
  rw [majority_three]
  exact (majority_bits (fun i => maj (tb a i.val) (tb b i.val) (tb c i.val)) 0).2

section
variable {s : State} (hon : s.on = true)
include hon

theorem strapSample_early {w : BitVec 6} (h1 : s.io.step = 1) (h : s.io.sys.straps.length < 2) : Completes (.strapSample w) s (fun t =>
    t.io.sys.straps = s.io.sys.straps ++ [w] ∧ OnlyIo s t ∧ t.io.regs = s.io.regs) := by
  have e : s.strapSample w = s.upSys fun y => { y with straps := s.io.sys.straps ++ [w] } := by
    unfold State.strapSample
    rw [if_neg (by omega)]
    exact if_pos (by rw [List.length_append, List.length_singleton]; omega)
  exact .live_eq (f := fun s => s.strapSample w) rfl hon e rfl ⟨rfl, rfl, rfl⟩

theorem strapSample_third {a b c : BitVec 6} (h1 : s.io.step = 1) (h : s.io.sys.straps = [a, b]) : Completes (.strapSample c) s (fun t =>
    (∀ i : Fin 6, (t.io.rd (pgSys + SYS_STRAP.STRAPS.off)).toNat.testBit i.val
      = ((tb a i.val && tb b i.val) || (tb a i.val && tb c i.val) || (tb b i.val && tb c i.val))) ∧
    t.get pgCsc CSC_STAT.ROLE = (t.io.rd (pgSys + SYS_STRAP.STRAPS.off)).toNat % 4 ∧ OnlyIo s t ∧
    KeepsWords (fun x => x = pgSys + SYS_STRAP.STRAPS.off ∨ x = pgCsc + CSC_STAT.ROLE.off) s t) := by
  have hlt := majority_lt a b c
  have e : s.strapSample c = (((s.upSys fun y => { y with straps := [a, b, c] }).upIo fun io => io.wr (pgSys + SYS_STRAP.STRAPS.off)
      (BitVec.ofNat 32 (majority [a, b, c]))).put pgCsc CSC_STAT.ROLE (majority [a, b, c] % 4)).put pgCsc CSC_STAT.ID
      (bitsOf (majority [a, b, c]) 2 2) := by
    unfold State.strapSample
    rw [if_neg (by rw [h, h1]; simp), h]
    exact if_neg (by simp)
  have hk : KeepsWords (fun x => x = pgSys + SYS_STRAP.STRAPS.off ∨ x = pgCsc + CSC_STAT.ROLE.off) s (s.strapSample c) := by
    rw [e]
    exact .after (.put _ _ _ _ _ rfl (by decide) (.inr rfl)) (.after (.put _ _ _ _ _ rfl (by decide) (.inr rfl))
      (.after (.upIo (.wr _ _ _ (.inl rfl))) (State.keeps_upSys _ _)))
  have hw : (s.strapSample c).io.rd (pgSys + SYS_STRAP.STRAPS.off) = BitVec.ofNat 32 (majority [a, b, c]) := by
    rw [e, State.put_io, Io.rd_put _ _ _ _ _ _ rfl (by decide), if_neg (by decide), State.put_io, Io.rd_put _ _ _ _ _ _ rfl (by decide),
      if_neg (by decide)]
    exact Io.rd_wr_same ..
  have hv : (BitVec.ofNat 32 (majority [a, b, c])).toNat = majority [a, b, c] := by
    rw [BitVec.toNat_ofNat, Nat.mod_eq_of_lt (by omega)]
  refine .live' (f := fun s => s.strapSample c) rfl hon ((State.within_strapSample ..).same .pending (by decide))
    ⟨fun i => ?_, ?_, .of_within ((State.within_strapSample ..).mono (by decide)), hk⟩
  · rw [hw, hv]
    exact majority_testBit a b c i
  · rw [hw, hv, e]
    simp (disch := decide) only [State.get_put_field, State.get_put_same]
    exact Nat.mod_eq_of_lt (Nat.mod_lt _ (by decide))

end

end Sys2Proof.Machine
end

section
/-!
SUPPORT. The boot steps (R502 to R506).
-/
namespace Sys2Proof.Machine

theorem step_putStep (s : State) (k : Nat) (hk : k < 16) : (s.put pgSys SYS_BOOT_STAT.STEP k).io.step = k :=
  (State.get_put_same s _ _ _ _ rfl (by decide)).trans (Nat.mod_eq_of_lt hk)

section
variable {s : State} {ms bad : Nat} {f0 f1 : List Byte} (hon : s.on = true)

include hon in
theorem bootStep_runs {t : State} {P : State → Prop} (he : s.bootStep ms f0 f1 bad = t) (h : P t) : Completes (.bootStepComplete ms f0 f1 bad) s P :=
  .live_eq (f := fun s => s.bootStep ms f0 f1 bad) rfl hon he
    (by rw [← he]; exact (State.within_bootStep ..).same .pending (by decide)) h

/-- A boot step whose work needs nothing of the model: the next one runs. -/
theorem bootStep_next {k : Nat} (hk : k < 16) (he : s.bootStep ms f0 f1 bad = s.put pgSys SYS_BOOT_STAT.STEP k) (hon : s.on = true) :
    Completes (.bootStepComplete ms f0 f1 bad) s (fun t =>
      t.io.step = k ∧ OnlyRegs s t ∧ KeepsWords (· = pgSys + SYS_BOOT_STAT.STEP.off) s t) :=
  bootStep_runs hon he ⟨step_putStep s k hk, .put _ _ _ _ _ rfl, .put _ _ _ _ _ rfl (by decide) rfl⟩

theorem bootStep_one (h : s.io.step = 1) (hs : 3 ≤ s.io.sys.straps.length) (hr : s.get pgClk CLK_STAT.REF_PRESENT = 1)
    (hc : s.io.sys.coldCause ≠ 2) : s.bootStep ms f0 f1 bad = s.put pgSys SYS_BOOT_STAT.STEP 2 := by
  have hd : s.step1Done = true := by
    unfold State.step1Done State.thermalHeld
    rw [hr, decide_eq_true hs, decide_eq_false hc]
    simp
  unfold State.bootStep
  rw [h, hd]
  rfl

theorem bootStep_waits (h : s.io.step = 1) (hw : s.get pgClk CLK_STAT.REF_PRESENT = 0 ∨ s.io.sys.straps.length < 3) :
    s.bootStep ms f0 f1 bad = s := by
  have hd : s.step1Done = false := by
    unfold State.step1Done
    rcases hw with hw | hw
    · rw [hw]
      simp
    · rw [decide_eq_false (by omega)]
      rfl
  unfold State.bootStep
  rw [h, hd]
  rfl

theorem bootStep_two (h : s.io.step = 2) : s.bootStep ms f0 f1 bad = s.bootNonce.put pgSys SYS_BOOT_STAT.STEP 3 := by
  unfold State.bootStep
  rw [h]
  rfl

theorem rngOk_bootNonce (s : State) : s.bootNonce.get pgCph CPH_STAT.RNG_OK = 1 :=
  State.get_put_same _ _ _ _ _ rfl (by decide)

theorem State.Within.eq_ioCph {s t : State} (h : s.Within (ioParts ++ [.cph]) t) : t = { s with io := t.io, cph := t.cph } := h.eq
theorem State.Within.eq_ioFw {s t : State} (h : s.Within (ioParts ++ [.fw]) t) : t = { s with io := t.io, fw := t.fw } := h.eq
theorem State.Within.eq_ioPipQncFw {s t : State} (h : s.Within (ioParts ++ [.pip, .qnc, .fw]) t) :
    t = { s with io := t.io, pip := t.pip, qnc := t.qnc, fw := t.fw } := h.eq

include hon in
theorem bootStep_nonce (h : s.io.step = 2) : Completes (.bootStepComplete ms f0 f1 bad) s (fun t =>
    t.io.step = 3 ∧ t.get pgCph CPH_STAT.RNG_OK = 1 ∧ t = { s with io := t.io, cph := t.cph }) :=
  bootStep_runs hon (bootStep_two h) ⟨step_putStep _ 3 (by decide),
    (State.get_put_ne _ _ _ _ _ _ _ _ rfl (by decide) rfl (by decide) (by decide)).trans (rngOk_bootNonce s),
    State.Within.eq_ioCph (.mono (.after (State.within_put ..) (State.within_bootNonce s)) (by decide))⟩

theorem bootStep_three (h : s.io.step = 3) (hr : s.recovering = false) : s.bootStep ms f0 f1 bad = s.step3 f0 f1 := by
  unfold State.bootStep
  dsimp only
  rw [h, hr, if_neg (by decide), if_neg (by decide), if_pos rfl, if_neg (by decide)]

include hon in
theorem bootStep_recovers (h : s.io.step = 3) (hr : s.recovering = false) (hs : tb (s.io.rd (pgSys + SYS_STRAP.STRAPS.off)) 4 = true) :
    Completes (.bootStepComplete ms f0 f1 bad) s (fun t =>
      t.io.step = 3 ∧ t.recovering = true ∧ OnlyRegs s t ∧ KeepsWords (· = pgSys + SYS_BOOT_STAT.STEP.off) s t) := by
  have e : s.step3 f0 f1 = s.put pgSys SYS_BOOT_STAT.CODE 2 := if_pos hs
  have hstep : (s.put pgSys SYS_BOOT_STAT.CODE 2).io.step = 3 :=
    (Io.get_put_field s.io pgSys SYS_BOOT_STAT.CODE SYS_BOOT_STAT.STEP 2 0 0 rfl (by decide) rfl (by decide) rfl (by decide)).trans h
  refine bootStep_runs hon ((bootStep_three h hr).trans e) ⟨hstep, ?_, .put _ _ _ _ _ rfl, .put _ _ _ _ _ rfl (by decide) rfl⟩
  unfold State.recovering
  rw [hstep, State.get_put_same _ _ _ _ _ rfl (by decide)]
  rfl

/-! ### The slot that boots -/

/-- The words a slot's start writes lie in the RAS page. -/
theorem State.high_startSlot (s : State) (n : Nat) (stage : FwStage) : s.High (s.startSlot n stage) := by
  have hv : s.High (s.slotVersion n).2 := by
    unfold slotVersion
    split
    · exact .refl _ _
    · exact .of_regs rfl _
  unfold startSlot
  split
  next v x hx =>
    rw [hx] at hv
    exact .after (keeps_upFw _ _) (.after (high_put _ highWord_ras _ _ _) (.after (high_put _ highWord_ras _ _ _) hv))

theorem running_upFw (s : State) (f : Fw → Fw) : (s.upFw f).running = s.running := rfl

theorem running_startSlot (s : State) (n : Nat) (stage : FwStage) : (s.startSlot n stage).running = n % 2 := by
  unfold State.startSlot
  split
  next v x hx =>
    have h (y : State) (k : Nat) : ((y.put pgRas RAS_FW_STAT.RUNNING n).put pgRas RAS_FW_STAT.VERSION k).get pgRas RAS_FW_STAT.RUNNING = n % 2 := by
      simp (disch := decide) only [State.get_put_field, State.get_put_same]
      rfl
    exact (running_upFw _ _).trans (h x v.1)

theorem running_bootSlot (s : State) (n code : Nat) (img : List Byte) : (s.bootSlot n code img).running = n % 2 := by
  unfold State.bootSlot
  exact (running_upFw _ _).trans (running_startSlot _ _ _)

/-- The status words of a boot from slot `n`. -/
def State.slotNamed (s : State) (n code : Nat) : State :=
  ((s.put pgSys SYS_BOOT_STAT.SLOT n).put pgSys SYS_BOOT_STAT.CODE code).put pgSys SYS_BOOT_STAT.STEP 4

theorem State.high_bootSlot (s : State) (n code : Nat) (img : List Byte) : (s.slotNamed n code).High (s.bootSlot n code img) :=
  .after (keeps_upFw _ _) (.after (high_startSlot _ _ _) (.after (.of_within (within_setSel ..) (by decide))
    (.of_within (within_recordVersion ..) (by decide))))

theorem bootStat_slotNamed (s : State) {n code : Nat} (hn : n < 2) (hc : code < 4) : (s.slotNamed n code).get pgSys SYS_BOOT_STAT.STEP = 4 ∧
    (s.slotNamed n code).get pgSys SYS_BOOT_STAT.SLOT = n ∧ (s.slotNamed n code).get pgSys SYS_BOOT_STAT.CODE = code := by
  unfold State.slotNamed
  refine ⟨?_, ?_, ?_⟩
  · simp (disch := decide) only [State.get_put_same]
    rfl
  · simp (disch := decide) only [State.get_put_field, State.get_put_same]
    exact Nat.mod_eq_of_lt hn
  · simp (disch := decide) only [State.get_put_field, State.get_put_same]
    exact Nat.mod_eq_of_lt hc

theorem step3_boots (hs : tb (s.io.rd (pgSys + SYS_STRAP.STRAPS.off)) 4 = false)
    (hb : s.slotBoots (s.io.nvm.slot % 2) (if s.io.nvm.slot % 2 = 0 then f0 else f1) = true) :
    s.step3 f0 f1 = s.bootSlot (s.io.nvm.slot % 2) 0 (slotImage (if s.io.nvm.slot % 2 = 0 then f0 else f1)) := by
  have hs' : ¬ tb (s.io.rd (pgSys + 0x044)) 4 = true := by
    rw [show pgSys + 0x044 = pgSys + SYS_STRAP.STRAPS.off from rfl, hs]
    decide
  unfold State.step3
  dsimp only
  rw [if_neg hs', if_pos hb]

include hon in
theorem bootStep_slot (h : s.io.step = 3) (hr : s.recovering = false) (hs : tb (s.io.rd (pgSys + SYS_STRAP.STRAPS.off)) 4 = false) :
    Completes (.bootStepComplete ms f0 f1 bad) s (fun t =>
      s.slotBoots (s.io.nvm.slot % 2) (if s.io.nvm.slot % 2 = 0 then f0 else f1) = true →
      t.io.step = 4 ∧ t.get pgSys SYS_BOOT_STAT.SLOT = s.io.nvm.slot % 2 ∧ t.get pgSys SYS_BOOT_STAT.CODE = 0 ∧
      t.running = s.io.nvm.slot % 2 ∧ t = { s with io := t.io, fw := t.fw }) := by
  refine bootStep_runs hon (bootStep_three h hr) fun hb => ?_
  have e := step3_boots hs hb
  generalize slotImage _ = img at e
  have hlt : s.io.nvm.slot % 2 < 2 := Nat.mod_lt _ (by decide)
  rw [e]
  generalize s.io.nvm.slot % 2 = n at hlt
  obtain ⟨h1, h2, h3⟩ := bootStat_slotNamed s hlt (code := 0) (by decide)
  have hk := s.high_bootSlot n 0 img
  have hg (f : Fld) (hf : f.rws = false ∧ f.lo + f.len ≤ 32 ∧ f.off < 0x1000) : (s.bootSlot n 0 img).get pgSys f = (s.slotNamed n 0).get pgSys f := by
    obtain ⟨hr, hl, ho⟩ := hf
    refine State.get_of_rd _ _ _ hr hl (hk _ ?_)
    unfold highWord pgSys
    rw [Nat.mul_zero]
    omega
  refine ⟨(hg SYS_BOOT_STAT.STEP (by decide)).trans h1, (hg _ (by decide)).trans h2, (hg _ (by decide)).trans h3, ?_,
    State.Within.eq_ioFw ((State.within_bootSlot ..).mono (by decide))⟩
  exact (running_bootSlot s n 0 img).trans (Nat.mod_eq_of_lt hlt)

/-! ### The memory stacks -/

/-- The TRAINED bit of a stack. -/
def State.trained (s : State) (k : Nat) : Nat := s.get (pgFmc k 0) FMC_STK_STAT.TRAINED

/-- A write of a field that is no part of a stack's status word, or another field of that word, leaves TRAINED. -/
theorem trained_put (s : State) (b : Nat) (f : Fld) (v i k : Nat) (hr : f.rws = false) (hl : f.lo + f.len ≤ 32)
    (h : pgFmc k 0 + FMC_STK_STAT.TRAINED.off ≠ b + f.off + f.stride * i) : (s.put b f v i).trained k = s.trained k :=
  State.get_put_ne _ _ _ _ _ _ _ _ hr hl rfl (by decide) (by simpa using h)

theorem pgFmc_eq (st i : Nat) : pgFmc st i = 0x400000 + (16 * st + i) * 0x1000 := rfl

theorem trained_reapplyRetired (s : State) (k : Nat) : s.reapplyRetired.trained k = s.trained k := by
  have h1 (x : State) (st v : Nat) : (x.put (pgFmc st 0) FMC_STK_STAT.RETIRED_PC v).trained k = x.trained k := by
    by_cases e : st = k
    · rw [e]
      exact Io.get_put_field x.io (pgFmc k 0) FMC_STK_STAT.RETIRED_PC FMC_STK_STAT.TRAINED v 0 0 rfl (by decide) rfl (by decide) rfl (by decide)
    · refine trained_put _ _ _ _ _ _ rfl (by decide) ?_
      have h1 := pgFmc_eq k 0
      have h2 := pgFmc_eq st 0
      simp only [FMC_STK_STAT.RETIRED_PC, FMC_STK_STAT.TRAINED]
      omega
  have h2 (x : State) (st v : Nat) : (x.put (pgFmc st 0) FMC_RETIRE_STAT.ROWS v).trained k = x.trained k := by
    refine trained_put _ _ _ _ _ _ rfl (by decide) ?_
    have h1 := pgFmc_eq k 0
    have h2 := pgFmc_eq st 0
    simp only [FMC_RETIRE_STAT.ROWS, FMC_STK_STAT.TRAINED]
    omega
  have h3 (x : State) (pc v : Nat) : (x.put (pcPage pc) FMC_PC_ROWS.COUNT v (pc % 4)).trained k = x.trained k := by
    refine trained_put _ _ _ _ _ _ rfl (by decide) ?_
    have h1 := pgFmc_eq k 0
    have h2 := pgFmc_eq (pc / 32) (1 + pc % 32 / 4)
    simp only [FMC_PC_ROWS.COUNT, FMC_STK_STAT.TRAINED, pcPage]
    omega
  have hfold {β : Type} (f : State → β → State) (hf : ∀ x b, (f x b).trained k = x.trained k) (l : List β) : ∀ x, (l.foldl f x).trained k = x.trained k := by
    induction l with
    | nil => exact fun _ => rfl
    | cons b l ih => exact fun x => (ih _).trans (hf x b)
  unfold State.reapplyRetired
  refine (hfold _ (fun x pc => h3 x pc _) _ _).trans (hfold _ (fun x st => ?_) _ _)
  refine (h2 _ _ _).trans ?_
  split
  · exact h1 _ _ _
  · rfl

theorem trained_all (l : List Nat) (k : Nat) : ∀ s : State, (k ∈ l ∨ s.trained k = 1) →
    (l.foldl (fun s st => s.put (pgFmc st 0) FMC_STK_STAT.TRAINED 1) s).trained k = 1 := by
  induction l with
  | nil => exact fun s h => h.resolve_left (by simp)
  | cons a l ih =>
    intro s h
    refine ih _ ?_
    by_cases e : k = a
    · right
      rw [e]
      exact State.get_put_same _ _ _ _ _ rfl (by decide)
    · refine h.imp (fun h => (List.mem_cons.1 h).resolve_left e) fun h => (trained_put _ _ _ _ _ _ rfl (by decide) ?_).trans h
      have h1 := pgFmc_eq k 0
      have h2 := pgFmc_eq a 0
      simp only [FMC_STK_STAT.TRAINED]
      omega

include hon in
theorem bootStep_train (h : s.io.step = 5) : Completes (.bootStepComplete ms f0 f1 bad) s (fun t =>
    t.io.step = 6 ∧ (∀ st : Fin 4, t.get (pgFmc st.val 0) FMC_STK_STAT.TRAINED = 1) ∧ OnlyRegs s t) := by
  have e : s.bootStep ms f0 f1 bad = s.step5 := by
    unfold State.bootStep
    rw [h]
    rfl
  refine bootStep_runs hon e ⟨step_putStep _ 6 (by decide), fun st => ?_, .of_within (State.within_step5 s)⟩
  refine (trained_put _ _ _ _ _ _ rfl (by decide) ?_).trans ((trained_reapplyRetired _ _).trans (trained_all _ _ _ (.inl (List.mem_range.2 st.isLt))))
  have h1 := pgFmc_eq st.val 0
  simp only [FMC_STK_STAT.TRAINED, SYS_BOOT_STAT.STEP, pgSys]
  omega

include hon in
theorem bootStep_ready (h : s.io.step = 7) : Completes (.bootStepComplete ms f0 f1 bad) s (fun t =>
    t.io.step = 8 ∧ t.io.sysReady = true ∧ t.get pgSys SYS_BOOT_MS.MS = ms % 2 ^ 16 ∧
    t = { s with io := t.io, pip := t.pip, qnc := t.qnc, fw := t.fw }) := by
  have e : s.bootStep ms f0 f1 bad = s.step7 ms bad := by
    unfold State.bootStep
    rw [h]
    rfl
  have hput (x : State) : ((x.put pgSys SYS_BOOT_STAT.STEP 8).put pgSys SYS_BOOT_MS.MS ms).io.step = 8 :=
    (State.get_put_ne _ _ _ _ SYS_BOOT_STAT.STEP _ _ 0 rfl (by decide) rfl (by decide) (by decide)).trans (step_putStep x 8 (by decide))
  have hstep : (s.step7 ms bad).io.step = 8 := hput _
  refine bootStep_runs hon e ⟨hstep, ?_, State.get_put_same _ _ _ _ _ rfl (by decide), State.Within.eq_ioPipQncFw ((State.within_step7 ..).mono (by decide))⟩
  unfold Io.sysReady
  rw [hstep]
  rfl

end

/-- Settles O13: the stop sequence, the latch of the straps, and each boot step by the step that runs. -/
theorem bootAndStop : Obligations.BootAndStop := by
  refine ⟨fun s => ⟨fun hon stack n => thermalTrip_stops hon stack n, fun hon rail => supplyFault_stops hon rail, stopPersist_logs, stopHalt_halts,
    fun h => ⟨stopPersist_unless h, stopHalt_unless h⟩⟩, fun s ms bad f0 f1 hon => ⟨fun w h1 h => strapSample_early hon h1 h,
    fun a b c h1 h => strapSample_third hon h1 h, fun h hs hr hc => bootStep_next (by decide) (bootStep_one h hs hr hc) hon, fun h hw => ?_,
    bootStep_nonce hon, bootStep_recovers hon, bootStep_slot hon, fun h => ?_, bootStep_train hon, bootStep_ready hon, fun h => ?_⟩⟩
  · exact .live (f := fun s => s.bootStep ms f0 f1 bad) rfl (bootStep_waits h hw)
  · have e : s.bootStep ms f0 f1 bad = s.put pgSys SYS_BOOT_STAT.STEP (s.io.step + 1) := by
      unfold State.bootStep
      rcases h with h | h <;> rw [h] <;> rfl
    exact bootStep_next (by omega) e hon
  · refine .live (f := fun s => s.bootStep ms f0 f1 bad) rfl ?_
    unfold State.bootStep
    rw [h]
    rfl

end Sys2Proof.Machine
end

section
/-!
SUPPORT. Resets of the host side and of the management side (R64, R65, R499).
-/
namespace Sys2Proof.Machine

/-! ### A part of the state that an operation keeps -/

/-- The two states agree in what `g` reads. -/
structure Agree {σ α : Type} (g : σ → α) (s t : σ) : Prop where
  eq : g t = g s

namespace Agree

variable {σ α : Type} {g : σ → α} {s t u : σ}

theorem refl (s : σ) : Agree g s s := ⟨rfl⟩
theorem after (h' : Agree g t u) (h : Agree g s t) : Agree g s u := ⟨h'.eq.trans h.eq⟩
theorem cond {c : Prop} [Decidable c] (h1 : Agree g s t) (h2 : Agree g s u) : Agree g s (if c then t else u) := by
  split
  · exact h1
  · exact h2

theorem foldl {β : Type} {f : σ → β → σ} {l : List β} (hf : ∀ b ∈ l, ∀ x : σ, Agree g x (f x b)) (h : Agree g s t) :
    Agree g s (l.foldl f t) := by
  induction l generalizing t with
  | nil => exact h
  | cons b l ih => exact ih (fun c hc => hf c (List.mem_cons_of_mem _ hc)) (.after (hf b List.mem_cons_self t) h)

end Agree

/-! ### The PCI Express side but for its Pending Bits -/

/-- The PCI Express state with the Pending Bits left out. -/
def Io.link (s : Io) : Pcie := { s.pcie with pend := 0 }

/-- The PCI Express state of the device with the Pending Bits left out. -/
def State.link (s : State) : Pcie := s.io.link

/-- The PCI Express state stands, but for Pending Bits. -/
abbrev LinkKept (s t : State) : Prop := Agree State.link s t

theorem Agree.link_within {F : List Part} {s t : State} (h : s.Within F t) (hF : Part.pcie ∉ F) : LinkKept s t :=
  ⟨congrArg (fun p : Pcie => { p with pend := 0 }) (h.same .pcie hF)⟩

theorem Agree.link_io {s : State} {f : Io → Io} (h : Agree Io.link s.io (f s.io)) : LinkKept s (s.upIo f) := ⟨h.eq⟩

theorem OnlyIrq.link {s t : State} (h : OnlyIrq s t) : LinkKept s t := by
  refine ⟨?_⟩
  unfold State.link Io.link
  rw [h.1]

theorem Agree.linkUp {s t : State} (h : LinkKept s t) : t.io.pcie.linkUp = s.io.pcie.linkUp := (congrArg Pcie.linkUp h.eq :)

namespace Io

variable (s : Io)

theorem link_put (b : Nat) (f : Fld) (v i : Nat) : Agree link s (s.put b f v i) :=
  ⟨congrArg (fun p : Pcie => { p with pend := 0 }) ((within_putAny s b f v i).same .pcie (by decide))⟩

theorem link_raise (b n : Nat) : Agree link s (s.raise b n) :=
  ⟨(OnlyIrq.raise ({ io := s } : State) b n).link.eq⟩

/-! ### Mailboxes -/

theorem link_mbxGenUp (m : Nat) : Agree link s (s.mbxGenUp m) := by
  have h (f : Fld) : Agree link s (s.bump pgMbx f 1 0) := s.link_put _ _ _ _
  unfold mbxGenUp
  exact .cond (h _) (.cond (h _) (.cond (h _) (.cond (h _) (.cond (s.link_put _ _ _ _) (.refl s)))))

theorem link_mbxDone (c code : Nat) : Agree link s (s.mbxDone c code) :=
  .after (link_raise _ _ _) (.after (link_put _ _ _ _ _) (link_put _ _ _ _ _))

theorem link_mbxRcvReset (c : Nat) : Agree link s (s.mbxRcvReset c) := by
  have hz : Agree link s (s.mbxZero c 0) := .foldl (fun _ _ x => .cond (x.link_put _ _ _ _) (.refl x)) (.refl s)
  unfold mbxRcvReset
  exact .after (link_put _ _ _ _ _) (.after (link_put _ _ _ _ _) (.cond (.after (link_mbxDone _ _ _) (.after (link_put _ _ _ _ _) hz))
    (.cond (.after (link_mbxDone _ _ _) (link_put _ _ _ _ _)) (.refl s))))

theorem link_mbxSndReset (c : Nat) : Agree link s (s.mbxSndReset c) := by
  unfold mbxSndReset
  exact .cond (.refl s) (.after (link_raise _ _ _) (link_put _ _ _ _ _))

theorem link_mbxChReset (ms : List Nat) (c : Nat) : Agree link s (s.mbxChReset ms c) := by
  have h : Agree link s (if ms.contains (s.mbxReceiver c) then s.mbxRcvReset c else s) := .cond (s.link_mbxRcvReset c) (.refl s)
  unfold mbxChReset
  exact .cond (.refl s) (.cond (.after (link_mbxSndReset _ c) h) h)

theorem link_mbxReset (ms : List Nat) : Agree link s (s.mbxReset ms) :=
  .foldl (fun c _ x => x.link_mbxChReset ms c) (.foldl (fun m _ x => x.link_mbxGenUp m) (.refl s))

end Io

namespace State

variable (s : State)

theorem link_jobEnd (u st code : Nat) : LinkKept s (s.jobEnd u st code) :=
  .after (OnlyIrq.raise _ _ _).link (.link_within (.after (within_freeEngines ..) (.after (within_putAny ..) (.after (within_putAny ..) (within_setCpage ..)))) (by decide))

theorem link_keyClear (u : Nat) : LinkKept s (s.keyClear u) := by
  unfold keyClear
  exact .after (.link_within (.after (within_putAny ..) (.after (within_putAny ..) (.after (within_setCpage ..) (within_msgEnd ..)))) (by decide))
    (.cond (s.link_jobEnd u 3 8) (.refl s))

theorem link_zeroize (u : Nat) : LinkKept s (s.zeroize u) := by
  have h := s.link_keyClear u
  have hc := ((((within_setCpage (s.keyClear u) u { (s.keyClear u).cpage u with data := [] }).seq
    (within_put _ (pgCphU u) CPH_KEY_STAT.CODE 0 0)).seq (within_clearHalf _ u 0x040 0x060)).seq (within_clearHalf _ u 0x0C0 0x0FC)).seq
    ((within_clearHalf _ u 0x100 0x118).seq (within_clearHalf _ u 0x400 0x800))
  unfold zeroize
  exact .cond (.after (.link_within hc (by decide)) h) (.after (.link_within (hc.seq (within_clearHalf ..)) (by decide)) h)

theorem link_zeroizeOf (ms : List Nat) : LinkKept s (s.zeroizeOf ms) :=
  .foldl (fun u _ x => .cond (x.link_zeroize u) (.refl x)) (.refl s)

theorem link_fwHostGone : LinkKept s s.fwHostGone := by
  unfold fwHostGone
  split
  · exact .cond (.refl s) (.after (OnlyIrq.raise _ _ _).link (.link_within (.after (within_putAny ..) (within_upFw ..)) (by decide)))
  · exact .refl s

end State

/-! ### A reset of the host side -/

/-- The words of the semaphores. -/
def lockWord (a : Nat) : Prop := 0x100 ≤ a ∧ a < 0x180

theorem Io.keeps_locks (s : Io) (m : Nat) : s.Keeps lockWord (s.semFree m) := by
  refine .foldl (fun n hn x => .cond (.put _ _ _ _ _ rfl (by decide) ?_) (.refl _ x)) (.refl _ s)
  have := List.mem_range.1 hn
  have e : pgSys = 0 := rfl
  simp only [SYS_SEMn.HOLDER, lockWord]
  omega

theorem pgHif_le_ring (n : Nat) : pgHif + 0x4000 ≤ pgRing n := Nat.le_add_right _ _

theorem ring_not_high {r o : Nat} (hr : r < 60) (ho : o < 0x1000) : ¬ highWord (pgRing r + o) := by
  have e : pgRing r = 0x44000 + r * 0x1000 := rfl
  unfold highWord
  omega

/-- The word of RING_CTL of some ring. -/
def ringCtlWord (a : Nat) : Prop := ∃ r < 60, a = pgRing r + RING_CTL.EN.off

/-- The rings of `l` are disabled. -/
def Io.ringsOff (l : List Nat) (s : Io) : Io := l.foldl (fun s n => s.put (pgRing n) RING_CTL.EN 0) s

theorem Io.within_ringsOff (l : List Nat) (s : Io) : s.Within [.regs] (ringsOff l s) :=
  .foldl (fun _ _ => within_putRegs _ _ _ _ rfl) (.mono (.refl _) (by decide))

theorem Io.keeps_ringsOff (s : Io) : s.Keeps ringCtlWord (ringsOff (List.range 60) s) :=
  .foldl (fun n hn _ => .put _ _ _ _ _ rfl (by decide) ⟨n, List.mem_range.1 hn, rfl⟩) (.refl _ s)

theorem Io.get_ringsOff (l : List Nat) (s : Io) (r : Nat) (h : s.get (pgRing r) RING_CTL.EN = 0 ∨ r ∈ l) :
    (ringsOff l s).get (pgRing r) RING_CTL.EN = 0 := by
  induction l generalizing s with
  | nil => exact h.resolve_right (by simp)
  | cons n l ih =>
    refine ih _ ?_
    by_cases hn : r = n
    · subst hn
      exact .inl (Io.get_put _ _ _ _ _ rfl (by decide))
    · have hne : pgRing r + RING_CTL.EN.off + RING_CTL.EN.stride * 0 ≠ pgRing n + RING_CTL.EN.off + RING_CTL.EN.stride * 0 := by
        have e (k : Nat) : pgRing k = 0x44000 + k * 0x1000 := rfl
        rw [e, e]
        omega
      rw [Io.get_put_ne _ _ _ _ _ _ _ _ rfl (by decide) rfl (by decide) hne]
      exact h.imp id fun hm => (List.mem_cons.1 hm).resolve_left hn

theorem Io.ringsOff_leaves (s : Io) : (ringsOff (List.range 60) s).pcie = s.pcie ∧ s.Keeps ringCtlWord (ringsOff (List.range 60) s) ∧
    ∀ r < 60, (ringsOff (List.range 60) s).get (pgRing r) RING_CTL.EN = 0 :=
  ⟨(Io.within_ringsOff (List.range 60) s).same .pcie (by decide), s.keeps_ringsOff, fun r hr => Io.get_ringsOff _ s r (.inr (List.mem_range.2 hr))⟩

namespace State

variable (s : State)

/-- The interface's words after a reset of the host side, and its PCI Express side. -/
theorem hostReset_regs : ∃ x : Io, s.io.hostReset.regs = x.regs ∧ s.io.hostReset.pcie = { perstLow := s.io.pcie.perstLow } ∧
    s.io.Keeps (fun a => lockWord a ∨ ringCtlWord a) x ∧ ∀ r < 60, x.get (pgRing r) RING_CTL.EN = 0 := by
  unfold Io.hostReset
  extract_lets +onlyGivenNames p x y
  have hp : p.pcie = { perstLow := s.io.pcie.perstLow } := rfl
  have hs : s.io.Keeps (fun a => lockWord a ∨ ringCtlWord a) p := .of_regs rfl
  clear_value p
  have he : x = Io.ringsOff (List.range 60) p := rfl
  clear_value x
  obtain ⟨hw, hk, hr⟩ := he ▸ p.ringsOff_leaves
  have hf : (x.semFree 0x01).pcie = x.pcie := (Io.within_semFree x 0x01).same .pcie (by decide)
  have hy : y.regs = (x.semFree 0x01).regs ∧ y.pcie = (x.semFree 0x01).pcie := ⟨by dsimp only [y], by dsimp only [y]⟩
  clear_value y
  refine ⟨x.semFree 0x01, hy.1, hy.2.trans (hf.trans (hw.trans hp)), ?_, fun r h => ?_⟩
  · exact .after ((Io.keeps_locks _ _).mono fun _ => .inl) (.after (hk.mono fun _ => .inr) hs)
  · have hlow : ¬ lockWord (pgRing r + RING_CTL.EN.off) := by
      unfold lockWord
      have := pgHif_le_ring r
      have e : pgHif = 0x40000 := rfl
      omega
    have e : (x.semFree 0x01).rd (pgRing r + RING_CTL.EN.off) = x.rd (pgRing r + RING_CTL.EN.off) := (Io.keeps_locks _ _).rd _ hlow
    exact (congrArg (fun w => gb w 0 1) e).trans (hr r h)

theorem high_hostReset : (s.upIo fun io => io.hostReset).High s.hostReset := by
  unfold hostReset
  exact .after (high_fwHostGone _) (.after (high_zeroizeOf _ _) (.of_within (within_killJobs _) (by decide)))

theorem link_hostReset : s.hostReset.link = { perstLow := s.io.pcie.perstLow } := by
  obtain ⟨x, _, hp, _, _⟩ := s.hostReset_regs
  have h : LinkKept (s.upIo fun io => io.hostReset) s.hostReset := by
    unfold hostReset
    exact .after (link_fwHostGone _) (.after (link_zeroizeOf _ _) (.link_within (within_killJobs _) (by decide)))
  refine h.eq.trans ?_
  unfold link Io.link
  rw [upIo_io, hp]

/-- What a reset of the host side leaves of the interface (R64). -/
theorem hostReset_leaves : (∀ r < 60, s.hostReset.get (pgRing r) RING_CTL.EN = 0) ∧
    KeepsWords (fun a => lockWord a ∨ ringCtlWord a ∨ highWord a) s s.hostReset := by
  obtain ⟨x, hx, _, hk, hr⟩ := s.hostReset_regs
  have hio : (s.upIo fun io => io.hostReset).io.rd = x.rd := funext fun a => by
    rw [upIo_io]
    exact Io.rd_congr hx a
  refine ⟨fun r h => ?_, .after (s.high_hostReset.mono fun _ h => .inr (.inr h)) fun a ha => ?_⟩
  · refine (State.get_of_rd _ _ _ rfl (by decide) (s.high_hostReset _ (ring_not_high h (by decide)))).trans (Eq.trans ?_ (hr r h))
    exact congrArg (fun w => gb w 0 1) (congrFun hio _)
  · rw [hio]
    exact hk.rd a fun h => ha (h.imp id .inl)

theorem ringBase_kept {r : Nat} (hr : r < 60) {t : State} (h : KeepsWords (fun a => lockWord a ∨ ringCtlWord a ∨ highWord a) s t) :
    t.io.rd64 (pgRing r + 0x040) = s.io.rd64 (pgRing r + 0x040) := by
  have e (k : Nat) : pgRing k = 0x44000 + k * 0x1000 := rfl
  have hn (o : Nat) (ho : o = 0x40 ∨ o = 0x44) : ¬ (lockWord (pgRing r + o) ∨ ringCtlWord (pgRing r + o) ∨ highWord (pgRing r + o)) := by
    have ec : RING_CTL.EN.off = 0x54 := rfl
    rintro (h | ⟨k, _, h⟩ | h)
    · unfold lockWord at h
      rw [e] at h
      omega
    · rw [e, e, ec] at h
      omega
    · exact ring_not_high hr (by omega) h
  exact Io.rd64_congr (h _ (hn _ (.inl rfl))) (h (pgRing r + 0x44) (hn _ (.inr rfl)))

/-! ### PERST_N and the function level reset -/

theorem perst_counted (x : State) : (x.upIo fun io => io.bumpSat pgSys SYS_RST_CAUSE.PERST_CNT).get pgSys SYS_RST_CAUSE.PERST_CNT
    = min 255 (x.get pgSys SYS_RST_CAUSE.PERST_CNT + 1) := by
  refine (Io.get_put x.io _ _ _ _ rfl (by decide)).trans (Nat.mod_eq_of_lt ?_)
  exact Nat.lt_of_le_of_lt (Nat.min_le_left _ _) (by decide)

theorem get_upPcie (x : State) (f : Pcie → Pcie) (b : Nat) (g : Fld) (i : Nat) : (x.upPcie f).get b g i = x.get b g i := rfl

theorem keeps_upPcie {p : Nat → Prop} (x : State) (f : Pcie → Pcie) : KeepsWords p x (x.upPcie f) := .of_regs rfl _

theorem keeps_perstAssert : KeepsWords (· = pgSys + SYS_RST_CAUSE.PERST_CNT.off) s.hostReset s.perstAssert := by
  unfold perstAssert
  exact .after (.upIo (.put _ _ _ _ _ rfl (by decide) rfl)) (keeps_upPcie _ _)

/-- SYS_RST_CAUSE is no word that a reset of the host side writes. -/
theorem hostReset_perstCnt : s.hostReset.get pgSys SYS_RST_CAUSE.PERST_CNT = s.get pgSys SYS_RST_CAUSE.PERST_CNT := by
  refine State.get_of_rd _ _ _ rfl (by decide) (s.hostReset_leaves.2 _ ?_)
  rintro (h | ⟨r, _, h⟩ | h)
  · exact absurd h (by unfold lockWord; decide)
  · have e : pgRing r = 0x44000 + r * 0x1000 := rfl
    have e1 : pgSys + SYS_RST_CAUSE.PERST_CNT.off + SYS_RST_CAUSE.PERST_CNT.stride * 0 = 0xC4 := rfl
    rw [e, e1] at h
    omega
  · exact absurd h (by unfold highWord; decide)

theorem link_perst (x : State) (f : Pcie → Pcie) (n : Nat) :
    ((x.upPcie f).upIo fun io => io.bumpSat pgSys SYS_RST_CAUSE.PERST_CNT n).link = (x.upPcie f).link :=
  (Agree.link_within (State.Within.upIo (Io.within_bumpSat ..)) (by decide)).eq

end State

/-- What a reset of the host side leaves of the PCI Express side (R64). -/
theorem link_down {x : State} {p : Bool} (h : x.link = { perstLow := p }) : x.io.pcie.linkUp = false ∧ x.io.pcie.bme = false ∧
    x.io.pcie.msixEn = false ∧ x.io.pcie.perstLow = p :=
  ⟨(congrArg Pcie.linkUp h :), (congrArg Pcie.bme h :), (congrArg Pcie.msixEn h :), (congrArg Pcie.perstLow h :)⟩

theorem causeWord_not_hif {b o : Nat} (h : pgHif + 0x4000 ≤ b) : ¬ b + o = pgSys + SYS_RST_CAUSE.PERST_CNT.off := by
  have e : pgHif = 0x40000 := rfl
  have e1 : pgSys + SYS_RST_CAUSE.PERST_CNT.off = 0xC4 := rfl
  omega

theorem perstAssert_resets (s : State) : Completes .perstNAssert s (fun t =>
    t.io.pcie.linkUp = false ∧ t.io.pcie.bme = false ∧ t.io.pcie.msixEn = false ∧ t.io.pcie.perstLow = true ∧
    (∀ r : Fin 60, t.get (pgRing r.val) RING_CTL.EN = 0 ∧
      t.io.rd64 (pgRing r.val + 0x040) = s.io.rd64 (pgRing r.val + 0x040)) ∧
    (∀ n : Fin 32, t.get pgSys SYS_SEMn.HOLDER n.val
      = if s.get pgSys SYS_SEMn.HOLDER n.val = 0x01 then 0 else s.get pgSys SYS_SEMn.HOLDER n.val) ∧
    t.get pgSys SYS_RST_CAUSE.PERST_CNT = min 255 (s.get pgSys SYS_RST_CAUSE.PERST_CNT + 1) ∧
    t.buf = s.buf ∧ t.flow = s.flow ∧ t.fmc = s.fmc ∧ t.io.time = s.io.time) := by
  have hw := s.within_perstAssert
  obtain ⟨hr, hk⟩ := s.hostReset_leaves
  have hl : s.perstAssert.link = { s.hostReset.link with perstLow := true } := State.link_perst ..
  rw [s.link_hostReset] at hl
  obtain ⟨h1, h2, h3, h4⟩ := link_down hl
  have hq : s.perstAssert.pending = s.pending := hw.same .pending (by decide)
  have hb : s.perstAssert.buf = s.buf := hw.same .buf (by decide)
  have hf : s.perstAssert.flow = s.flow := hw.same .flow (by decide)
  have hm : s.perstAssert.fmc = s.fmc := hw.same .fmc (by decide)
  have ht : s.perstAssert.io.time = s.io.time := hw.same .time (by decide)
  refine .always (f := fun s => s.perstAssert) (t := s.perstAssert) rfl rfl hq ⟨h1, h2, h3, h4, fun r => ⟨?_, ?_⟩, fun n => s.sem_perstAssert n.isLt, ?_, hb, hf, hm, ht⟩
  · exact (State.get_of_rd _ _ _ rfl (by decide) (s.keeps_perstAssert _ (causeWord_not_hif (o := RING_CTL.EN.off) (pgHif_le_ring r)))).trans (hr r r.isLt)
  · refine (Io.rd64_congr (s.keeps_perstAssert _ (causeWord_not_hif (pgHif_le_ring r)))
      (s.keeps_perstAssert (pgRing r.val + 0x44) (causeWord_not_hif (pgHif_le_ring r)))).trans (State.ringBase_kept s r.isLt hk)
  · unfold State.perstAssert
    rw [State.perst_counted, State.get_upPcie, s.hostReset_perstCnt]

theorem functionLevelReset_resets {s : State} (hon : s.on = true) : Completes .functionLevelReset s (fun t =>
    t.io.pcie.linkUp = false ∧ t.io.pcie.bme = false ∧ t.io.pcie.msixEn = false ∧
    (∀ r : Fin 60, t.get (pgRing r.val) RING_CTL.EN = 0) ∧
    (∀ n : Fin 32, t.get pgSys SYS_SEMn.HOLDER n.val
      = if s.get pgSys SYS_SEMn.HOLDER n.val = 0x01 then 0 else s.get pgSys SYS_SEMn.HOLDER n.val) ∧
    t.buf = s.buf ∧ t.flow = s.flow ∧ t.fmc = s.fmc ∧ t.io.time = s.io.time) := by
  have hw := s.within_hostReset
  obtain ⟨h1, h2, h3, _⟩ := link_down s.link_hostReset
  have hq : s.hostReset.pending = s.pending := hw.same .pending (by decide)
  have hb : s.hostReset.buf = s.buf := hw.same .buf (by decide)
  have hf : s.hostReset.flow = s.flow := hw.same .flow (by decide)
  have hm : s.hostReset.fmc = s.fmc := hw.same .fmc (by decide)
  have ht : s.hostReset.io.time = s.io.time := hw.same .time (by decide)
  exact .live_eq (f := fun s => s.hostReset) (t := s.hostReset) rfl hon rfl hq ⟨h1, h2, h3, fun r => s.hostReset_leaves.1 r r.isLt, fun n => s.sem_hostReset n.isLt, hb, hf, hm, ht⟩

/-! ### A management reset -/

section
variable {s : State} {m : Master}

theorem sysRstMgmt_write (ht : s.takesWrite m.id pgSys = true) : s.fabricWrite m.id (pgSys + SYS_RST_CTL.MGMT.off) 1 =
    if m = .host ∨ m = .mcSec ∨ m = .board then s.mgmtRequest else s.err pgSys 1 m.id 0x0C0 := by
  obtain ⟨h, hh⟩ : ∃ h, Kind.sys.regAt (pgSys + SYS_RST_CTL.MGMT.off - pgSys) = some h := ⟨_, rfl⟩
  refine (State.fabricWrite_body (a := pgSys + SYS_RST_CTL.MGMT.off) (pg := ⟨.sys, 0, pgSys⟩) (by rw [s.takesWrite_sys m.id (by decide)]; exact ht)
    (pageOf_sys (by decide)) (by decide) hh (by decide) (pipeOfAddr_low (by decide))).trans ?_
  have hw : s.wBody ⟨.sys, 0, pgSys⟩ h (pgSys + SYS_RST_CTL.MGMT.off - pgSys) m.id 1
      = if !(m.id = 0x01 ∨ m.id = 0x10 ∨ m.id = 0x11 ∨ m.id = 0x40) then s.err pgSys 1 m.id 0x0C0 else s.sysRstCtl m.id 1 := rfl
  rw [hw]
  unfold State.sysRstCtl
  cases m
  case pip p => simp [Master.id, show 32 + p.val ≠ 1 ∧ 32 + p.val ≠ 16 ∧ 32 + p.val ≠ 17 ∧ 32 + p.val ≠ 64 by omega]
  case peer d => simp [Master.id, show 128 + d.val ≠ 1 ∧ 128 + d.val ≠ 16 ∧ 128 + d.val ≠ 17 ∧ 128 + d.val ≠ 64 by omega]
  all_goals rfl

/-- A request stands until the reset is applied (R65). -/
theorem mgmtRequest_holds {c : Instr} {f : State → State} (hx : exec c s = s.live f) (hon : s.on = true) (hf : f s = s.mgmtRequest) :
    Completes c s (fun t => t = { s with io := { s.io with sys := { s.io.sys with mgmtPending := true } } }) :=
  .live_eq hx hon hf rfl rfl

theorem sysRstMgmt_refused (hon : s.on = true) (ht : s.takesWrite m.id pgSys = true) (h1 : m ≠ .host) (h2 : m ≠ .mcSec) (h3 : m ≠ .board) :
    Completes (.sysRstMgmt m) s (fun t =>
      t.get pgSys PG_ERR_CNT.COUNT = min (2 ^ 32 - 1) (s.get pgSys PG_ERR_CNT.COUNT + 1) ∧ OnlyRegs s t ∧
      KeepsWords (fun a => a = pgSys + 0x1C ∨ a = pgSys + 0x20) s t) :=
  .live_eq (f := fun s => s.fabricWrite m.id (pgSys + SYS_RST_CTL.MGMT.off) 1) rfl hon
    ((sysRstMgmt_write ht).trans (if_neg (by simp [h1, h2, h3]))) rfl (s.err_counted pgSys 1 m.id 0x0C0)

/-! #### What the reset leaves -/

/-- The words that a management reset may write outside the host interface, but for its count: the locks, FEAT_ACCEPT and the status of
the commit. -/
def mgmtWord (a : Nat) : Prop := lockWord a ∨ (pgFtr + 0x050 ≤ a ∧ a < pgFtr + 0x060) ∨ a = pgFtr + 0x074

/-- The interface with its words dropped (R65). -/
def Io.hifDropped (s : Io) : Io := { s with regs := s.regs.drop inHif, wcount := [], modCnt := [], fetch := [] }

theorem Io.rd_hifDropped (s : Io) (a : Nat) : s.hifDropped.rd a = if inHif a = true then resetWord a else s.rd a := by
  unfold Io.rd Io.hifDropped
  split
  next h => exact SMap.get_drop_of _ _ h
  next h => exact SMap.get_drop_not _ _ (by simpa using h)

/-- The features asked for are 0 again. -/
def Io.acceptCleared (s : Io) (l : List Nat) : Io := l.foldl (fun s i => s.wr (pgFtr + 0x050 + 4 * i) 0) s

theorem Io.rd_acceptCleared (s : Io) (l : List Nat) (k : Nat) (h : s.rd (pgFtr + 0x050 + 4 * k) = 0 ∨ k ∈ l) :
    (s.acceptCleared l).rd (pgFtr + 0x050 + 4 * k) = 0 := by
  induction l generalizing s with
  | nil => exact h.resolve_right (by simp)
  | cons n l ih =>
    refine ih _ ?_
    by_cases hn : k = n
    · subst hn
      exact .inl (Io.rd_wr_same _ _ _)
    · rw [Io.rd_wr_ne _ _ (by omega)]
      exact h.imp id fun hm => (List.mem_cons.1 hm).resolve_left hn

theorem Io.keeps_acceptCleared (s : Io) : s.Keeps mgmtWord (s.acceptCleared (List.range 4)) :=
  .foldl (fun i hi _ => .wr _ _ _ (.inr (.inl (by have := List.mem_range.1 hi; omega)))) (.refl _ s)

theorem Io.featSet_zero {s : Io} {off : Nat} (h : ∀ k < 4, s.rd (pgFtr + off + 4 * k) = 0) : s.featSet off = 0 := by
  refine Nat.eq_of_testBit_eq fun j => ?_
  rw [Io.featSet_testBit, Nat.zero_testBit]
  by_cases hj : j < 128
  · rw [h _ (by omega)]
    simp [tb]
  · simp [hj]

/-- FEAT_ACCEPT and the status of the commit read 0 again. -/
def Io.featCleared (s : Io) : Io := (s.acceptCleared (List.range 4)).wr (pgFtr + 0x074) 0

theorem Io.mgmtReset_cases (s : Io) : ∃ x : Io, s.hifDropped.Keeps lockWord x ∧
    s.mgmtReset = x.featCleared.bumpSat pgSys SYS_RST_CAUSE.MGMT_CNT := by
  unfold Io.mgmtReset
  extract_lets +onlyGivenNames d x y
  have hd : d = s.hifDropped := rfl
  clear_value d
  subst hd
  have hx : s.hifDropped.Keeps lockWord x := .after (Io.keeps_locks (s.hifDropped.semFree 0x10) 0x11) (Io.keeps_locks s.hifDropped 0x10)
  clear_value x
  have hy : s.hifDropped.Keeps lockWord y := .after (t := x) (.of_regs rfl) hx
  clear_value y
  exact ⟨y, hy, rfl⟩

theorem Io.keeps_featCleared (s : Io) : s.Keeps mgmtWord s.featCleared := .after (.wr _ _ _ (.inr (.inr rfl))) s.keeps_acceptCleared

theorem Io.get_of_rd {s t : Io} (b : Nat) (f : Fld) (i : Nat) (hr : f.rws = false) (hl : f.lo + f.len ≤ 32)
    (h : t.rd (b + f.off + f.stride * i) = s.rd (b + f.off + f.stride * i)) : t.get b f i = s.get b f i := by
  rw [Io.get_narrow _ _ _ _ hr hl, Io.get_narrow _ _ _ _ hr hl, h]

theorem Io.keeps_mgmtCount (x : Io) : x.Keeps (· = pgSys + SYS_RST_CAUSE.MGMT_CNT.off) (x.bumpSat pgSys SYS_RST_CAUSE.MGMT_CNT) :=
  .put _ _ _ _ _ rfl (by decide) rfl

theorem mgmtWord_not_hif {a : Nat} (h : mgmtWord a ∨ a = pgSys + SYS_RST_CAUSE.MGMT_CNT.off) : inHif a = false := by
  have e1 : pgHif = 0x40000 := rfl
  have e2 : pgFtr = 0x30000 := rfl
  have e3 : pgSys + SYS_RST_CAUSE.MGMT_CNT.off = 0xC4 := rfl
  unfold mgmtWord lockWord at h
  unfold inHif
  rw [decide_eq_false (by omega)]
  rfl

/-- What the interface reads after a management reset. -/
theorem Io.mgmtReset_reads (s : Io) : (∀ a, inHif a = true → s.mgmtReset.rd a = resetWord a) ∧ s.mgmtReset.featSet 0x050 = 0 ∧
    s.mgmtReset.featSet 0x060 = s.featSet 0x060 ∧
    s.mgmtReset.get pgSys SYS_RST_CAUSE.MGMT_CNT = min 255 (s.get pgSys SYS_RST_CAUSE.MGMT_CNT + 1) := by
  have e2 : pgFtr = 0x30000 := rfl
  have e3 : pgSys + SYS_RST_CAUSE.MGMT_CNT.off = 0xC4 := rfl
  obtain ⟨x, hx, he⟩ := s.mgmtReset_cases
  rw [he]
  have hd (a : Nat) (ha : ¬ mgmtWord a) : x.featCleared.rd a = if inHif a = true then resetWord a else s.rd a :=
    ((x.keeps_featCleared.rd a ha).trans (hx.rd a fun h => ha (.inl h))).trans (s.rd_hifDropped a)
  have hc := x.featCleared.keeps_mgmtCount
  have hm (a : Nat) (ha : ¬ (mgmtWord a ∨ a = pgSys + SYS_RST_CAUSE.MGMT_CNT.off)) :
      (x.featCleared.bumpSat pgSys SYS_RST_CAUSE.MGMT_CNT).rd a = if inHif a = true then resetWord a else s.rd a := by
    rw [hc.rd a fun h => ha (.inr h), hd a fun h => ha (.inl h)]
  refine ⟨fun a ha => ?_, Io.featSet_zero fun k hk => ?_, Io.featSet_congr fun k hlt => ?_, ?_⟩
  · rw [hm a fun h => by simp [mgmtWord_not_hif h] at ha, if_pos ha]
  · rw [hc.rd _ (by omega)]
    exact (Io.rd_wr_ne _ _ (by omega)).trans (Io.rd_acceptCleared _ _ k (.inr (List.mem_range.2 hk)))
  · rw [hm _ ?_, if_neg ?_]
    · unfold inHif
      rw [decide_eq_false (by simp only [pgHif]; omega)]
      simp
    · unfold mgmtWord lockWord
      omega
  · rw [← Io.get_of_rd (s := s) (t := x.featCleared) pgSys SYS_RST_CAUSE.MGMT_CNT 0 rfl (by decide)
      ((hd _ (by unfold mgmtWord lockWord; decide)).trans (if_neg (by decide)))]
    exact (Io.get_put _ _ _ _ _ rfl (by decide)).trans (Nat.mod_eq_of_lt (Nat.lt_of_le_of_lt (Nat.min_le_left _ _) (by decide)))

theorem State.high_mgmtEffects (s : State) : (s.upIo fun io => io.mgmtReset).High s.mgmtEffects := by
  have h : (s.upIo fun io => io.mgmtReset).High (s.upIo fun io => io.mgmtReset.mbxReset [0x10, 0x11]) := (Io.high_mbxReset s.io.mgmtReset _).rd
  unfold State.mgmtEffects
  exact .after (State.high_fwHostGone _) (.after (State.high_zeroizeOf _ _) (.after (.of_within (State.within_killJobs _) (by decide)) h))

theorem State.link_mgmtEffects (s : State) : LinkKept s s.mgmtEffects := by
  have hm : s.io.mgmtReset.pcie = s.io.pcie := (Io.within_mgmtReset _).same .pcie (by decide)
  have h : LinkKept s (s.upIo fun io => io.mgmtReset.mbxReset [0x10, 0x11]) :=
    .link_io (.after (Io.link_mbxReset _ _) ⟨congrArg (fun p : Pcie => { p with pend := 0 }) hm⟩)
  unfold State.mgmtEffects
  exact .after (State.link_fwHostGone _) (.after (State.link_zeroizeOf _ _) (.after (.link_within (State.within_killJobs _) (by decide)) h))

/-- What a management reset leaves. -/
theorem State.mgmtEffects_leaves (s : State) : s.mgmtEffects.io.sys = s.io.sys ∧ (∀ a, inHif a = true → s.mgmtEffects.io.rd a = resetWord a) ∧
    s.mgmtEffects.io.featSet 0x050 = 0 ∧ s.mgmtEffects.io.featSet 0x060 = s.io.featSet 0x060 ∧
    s.mgmtEffects.get pgSys SYS_RST_CAUSE.MGMT_CNT = min 255 (s.get pgSys SYS_RST_CAUSE.MGMT_CNT + 1) ∧
    s.mgmtEffects.io.pcie.linkUp = s.io.pcie.linkUp := by
  have hk := s.high_mgmtEffects
  obtain ⟨h1, h2, h3, h4⟩ := s.io.mgmtReset_reads
  have e2 : pgFtr = 0x30000 := rfl
  have hf (off k : Nat) (ho : off ≤ 0x60) (hk4 : k < 4) : ¬ highWord (pgFtr + off + 4 * k) := by
    unfold highWord
    omega
  refine ⟨(s.within_mgmtEffects).same .sys (by decide), fun a ha => ?_, ?_, ?_, ?_, s.link_mgmtEffects.linkUp⟩
  · refine (hk a ?_).trans (h1 a ha)
    unfold inHif at ha
    simp only [Bool.and_eq_true, decide_eq_true_eq] at ha
    have e1 : pgHif = 0x40000 := rfl
    unfold highWord
    omega
  · exact (Io.featSet_congr fun k h => hk _ (hf _ k (by decide) h)).trans h2
  · exact (Io.featSet_congr fun k h => hk _ (hf _ k (by decide) h)).trans h3
  · exact (State.get_of_rd _ _ _ rfl (by decide) (hk _ (by unfold highWord; decide))).trans h4

theorem State.kick_startSlot (s : State) (n : Nat) (stage : FwStage) : (s.startSlot n stage).fw.kick = (s.startSlot n stage).io.time.counted := by
  unfold State.startSlot
  split
  rfl

theorem State.kick_coldStart (s : State) : s.coldStart.fw.kick = s.coldStart.io.time.counted := by
  unfold State.coldStart
  split
  · exact State.kick_startSlot ..
  · exact State.kick_startSlot ..
  · exact State.kick_startSlot ..

theorem managementReset_applies (hon : s.on = true) (hp : s.io.sys.mgmtPending = true) (ha : s.io.sys.mgmtActive = false)
    (hr : s.io.sysReady = true) : Completes .managementReset s (fun t =>
      t.io.sys.mgmtActive = true ∧ t.io.sys.mgmtPending = false ∧ (∀ a, inHif a = true → t.io.rd a = resetWord a) ∧
      t.io.featSet 0x050 = 0 ∧ t.io.featSet 0x060 = s.io.featSet 0x060 ∧
      (∀ n : Fin 32, s.get pgSys SYS_SEMn.HOLDER n.val = 0x10 ∨ s.get pgSys SYS_SEMn.HOLDER n.val = 0x11 →
        t.get pgSys SYS_SEMn.HOLDER n.val = 0) ∧
      t.get pgSys SYS_RST_CAUSE.MGMT_CNT = min 255 (s.get pgSys SYS_RST_CAUSE.MGMT_CNT + 1) ∧
      t.io.pcie.linkUp = s.io.pcie.linkUp ∧ t.buf = s.buf ∧ t.flow = s.flow ∧ t.fmc = s.fmc ∧ t.io.time = s.io.time) := by
  have he : s.mgmtApply = (s.upSys fun y => { y with mgmtPending := false, mgmtActive := true }).mgmtEffects := by
    unfold State.mgmtApply
    rw [if_neg (by simp [hp, ha, hr])]
  have hw := s.within_mgmtApply
  have hq : s.mgmtApply.pending = s.pending := hw.same .pending (by decide)
  have hb : s.mgmtApply.buf = s.buf := hw.same .buf (by decide)
  have hf : s.mgmtApply.flow = s.flow := hw.same .flow (by decide)
  have hm : s.mgmtApply.fmc = s.fmc := hw.same .fmc (by decide)
  have ht : s.mgmtApply.io.time = s.io.time := hw.same .time (by decide)
  obtain ⟨h1, h2, h3, h4, h5, h6⟩ := State.mgmtEffects_leaves (s.upSys fun y => { y with mgmtPending := false, mgmtActive := true })
  rw [← he] at h1 h2 h3 h4 h5 h6
  exact .live_eq (f := fun s => s.mgmtApply) (t := s.mgmtApply) rfl hon rfl hq ⟨congrArg Sys.mgmtActive h1, congrArg Sys.mgmtPending h1, h2, h3, h4,
    fun n hn => (State.sem_mgmtApply hp ha hr n.isLt).trans (if_pos hn), h5, h6, hb, hf, hm, ht⟩

theorem managementReset_ends (hon : s.on = true) (ha : s.io.sys.mgmtActive = true) : Completes .managementResetEnd s (fun t =>
    t.io.sys.mgmtActive = false ∧ t.fw.kick = t.io.time.counted ∧ t = { s with io := t.io, fw := t.fw }) := by
  have he : s.mgmtEnd = ((s.passNs 1000).upSys fun y => { y with mgmtActive := false }).coldStart := if_neg (by simp [ha])
  have hw := s.within_mgmtEnd
  refine .live_eq (f := fun s => s.mgmtEnd) (t := s.mgmtEnd) rfl hon rfl (hw.same .pending (by decide)) ⟨?_, ?_, (hw.mono (by decide)).eq_ioFw⟩
  · rw [he]
    exact congrArg Sys.mgmtActive ((State.within_coldStart _).same .sys (by decide))
  · rw [he]
    exact State.kick_coldStart _

/-- Settles O15. -/
theorem hostAndManagementReset : Obligations.HostAndManagementReset := by
  refine fun s m => ⟨perstAssert_resets s, functionLevelReset_resets, fun hon => mgmtRequest_holds (f := fun s => s.mgmtRequest) rfl hon rfl,
    fun hon ht hm => mgmtRequest_holds (f := fun s => s.fabricWrite m.id (pgSys + SYS_RST_CTL.MGMT.off) 1) rfl hon ((sysRstMgmt_write ht).trans (if_pos hm)),
    sysRstMgmt_refused, managementReset_applies, fun _ hp => ?_, fun hon ha => ?_⟩
  · exact .live (f := fun s => s.mgmtApply) rfl (if_pos (by simp [hp]))
  · exact managementReset_ends hon ha

end

end Sys2Proof.Machine
end

section
/-!
SUPPORT. Words by page, and 64-bit counters (R358).
-/
namespace Sys2Proof.Machine

/-! ### Words of some pages -/

/-- A word of one of the pages at `ps`. -/
def inPages (ps : List Nat) (a : Nat) : Prop := ∃ b ∈ ps, inPage b a

theorem inPages_of {ps : List Nat} {b o : Nat} (hb : b ∈ ps) (ho : o < 0x1000) : inPages ps (b + o) := ⟨b, hb, by unfold inPage; omega⟩

theorem inPages_mono {ps qs : List Nat} (h : ps ⊆ qs) (a : Nat) (ha : inPages ps a) : inPages qs a :=
  let ⟨b, hb, h2⟩ := ha
  ⟨b, h hb, h2⟩

theorem not_inPages {ps : List Nat} {b o : Nat} (hb : b % 0x1000 = 0) (ho : o < 0x1000) (hp : ∀ q ∈ ps, q % 0x1000 = 0 ∧ q ≠ b) :
    ¬ inPages ps (b + o) := by
  rintro ⟨q, hq, h1, h2⟩
  have := hp q hq
  omega

namespace Io

/-- Nothing but words of the pages at `ps` changed. -/
abbrev Pages (ps : List Nat) (s t : Io) : Prop := s.Keeps (inPages ps) t

variable (s : Io) {ps : List Nat} {b : Nat} (hb : b ∈ ps)
include hb

theorem pages_put (f : Fld) (v i : Nat) (hf : f.off + f.stride * i + 4 < 0x1000) : s.Pages ps (s.put b f v i) :=
  .putAny s b f v i (by rw [Nat.add_assoc]; exact inPages_of hb (by omega)) (by rw [Nat.add_assoc, Nat.add_assoc]; exact inPages_of hb (by omega))

theorem pages_bump (f : Fld) (n i : Nat) (hf : f.off + f.stride * i + 4 < 0x1000) : s.Pages ps (s.bump b f n i) := s.pages_put hb f _ i hf

theorem pages_raise (n : Nat) : s.Pages ps (s.raise b n) := .raise s b n (inPages_of hb (by decide))

theorem pages_ctr (f : Fld) (n i : Nat) (hf : f.off + f.stride * i + 4 < 0x1000) (hp : pgPmc ∈ ps) : s.Pages ps (s.ctr b f n i) :=
  .ctr s b f n i (by rw [Nat.add_assoc]; exact inPages_of hb (by omega)) (by rw [Nat.add_assoc, Nat.add_assoc]; exact inPages_of hb (by omega))
    fun _ ha => ⟨pgPmc, hp, ha⟩

end Io

namespace State

/-- Nothing but words of the pages at `ps` changed, of the register words. -/
abbrev Pages (ps : List Nat) (s t : State) : Prop := KeepsWords (inPages ps) s t

section
variable (s : State) {ps : List Nat} {b : Nat} (hb : b ∈ ps)
include hb

theorem pages_put (f : Fld) (v i : Nat) (hf : f.off + f.stride * i + 4 < 0x1000) : s.Pages ps (s.put b f v i) := .upIo (s.io.pages_put hb f v i hf)
theorem pages_bump (f : Fld) (n i : Nat) (hf : f.off + f.stride * i + 4 < 0x1000) : s.Pages ps (s.bump b f n i) := .upIo (s.io.pages_bump hb f n i hf)
theorem pages_raise (n : Nat) : s.Pages ps (s.raise b n) := .upIo (s.io.pages_raise hb n)
theorem pages_ctr (f : Fld) (n i : Nat) (hf : f.off + f.stride * i + 4 < 0x1000) (hp : pgPmc ∈ ps) : s.Pages ps (s.ctr b f n i) :=
  .upIo (s.io.pages_ctr hb f n i hf hp)
end

variable {s t : State}

theorem Pages.mono {ps qs : List Nat} (h : s.Pages ps t) (hs : ps ⊆ qs) : s.Pages qs t := KeepsWords.mono h (inPages_mono hs)

end State

/-! ### Fields of 64 bits -/

/-- A counter of 64 bits: its low word, then its high word. -/
structure Fld.Wide (f : Fld) : Prop where
  rws : f.rws = false
  lo : f.lo = 0
  len : f.len = 64

theorem Io.get_wide (s : Io) (b : Nat) (f : Fld) (i : Nat) (hf : f.Wide) : s.get b f i = s.rd64 (b + f.off + f.stride * i) := by
  unfold Io.get
  have h (a : Nat) : bitsOf (s.rd64 a) 0 64 = s.rd64 a := by
    unfold bitsOf
    rw [Nat.shiftRight_zero, Nat.mod_eq_of_lt]
    rw [Io.rd64_append]
    exact BitVec.isLt _
  rw [hf.rws, hf.lo, hf.len, if_neg (by decide), if_neg (by decide), h]

/-- A counter that is not in the page which notes overflows. -/
def offPmc (a : Nat) : Prop := a + 8 ≤ pgPmc ∨ pgPmc + 0x1000 ≤ a

theorem Io.rd64_ctrAt (s : Io) (a n : Nat) (ha : offPmc a) : (s.ctrAt a n).rd64 a = (s.rd64 a + n) % 2 ^ 64 := by
  unfold offPmc at ha
  unfold Io.ctrAt
  dsimp only
  split
  · exact Io.rd64_wr64 _ _ _
  · refine (Io.rd64_congr (Io.rd_wrapped_ne _ _ ?_) (Io.rd_wrapped_ne _ _ ?_)).trans (Io.rd64_wr64 _ _ _)
    · omega
    · omega

namespace State

variable {s t : State}

theorem get_ctr_same (s : State) (b : Nat) (f : Fld) (n i : Nat) (hf : f.Wide) (ha : offPmc (b + f.off + f.stride * i)) :
    (s.ctr b f n i).get b f i = (s.get b f i + n) % 2 ^ 64 := by
  rw [State.get_eq, State.get_eq, Io.get_wide _ _ _ _ hf, Io.get_wide _ _ _ _ hf]
  exact Io.rd64_ctrAt s.io _ n ha

theorem get_wide_of_keeps {p : Nat → Prop} (h : KeepsWords p s t) (b : Nat) (f : Fld) (i : Nat) (hf : f.Wide)
    (h1 : ¬ p (b + f.off + f.stride * i)) (h2 : ¬ p (b + f.off + f.stride * i + 4)) : t.get b f i = s.get b f i := by
  rw [State.get_eq, State.get_eq, Io.get_wide _ _ _ _ hf, Io.get_wide _ _ _ _ hf]
  exact Io.rd64_congr (h _ h1) (h _ h2)

theorem get_of_keeps {p : Nat → Prop} (h : KeepsWords p s t) (b : Nat) (f : Fld) (i : Nat) (hf : f.rws = false ∧ f.lo + f.len ≤ 32)
    (h1 : ¬ p (b + f.off + f.stride * i)) : t.get b f i = s.get b f i := State.get_of_rd b f i hf.1 hf.2 (h _ h1)

end State

end Sys2Proof.Machine
end

section
/-!
SUPPORT. Links of ports (R98, R104, R114).
-/
namespace Sys2Proof.Machine

namespace State

variable (s : State) (n v : Nat)

/-! ### The status of a link -/

theorem get_setLink : (s.setLink n v).get (pgEth (n / 4) 0) ETH_LINK_STAT.PORT
    = setBitsOf (s.get (pgEth (n / 4) 0) ETH_LINK_STAT.PORT) (4 * (n % 4)) 4 v := by
  refine (State.get_put_same _ _ _ _ _ rfl (by decide)).trans (Nat.mod_eq_of_lt ?_)
  exact setBitsOf_lt _ (Io.get_lt _ _ _ _ rfl (by decide)) (by simp only [ETH_LINK_STAT.PORT]; omega)

theorem linkBits_setLink : bitsOf ((s.setLink n v).get (pgEth (n / 4) 0) ETH_LINK_STAT.PORT) (4 * (n % 4)) 4 = v % 2 ^ 4 := by
  rw [get_setLink, bitsOf_setBitsOf]

theorem eth_ne {g h i o o' : Nat} (hgh : h ≠ g) (ho : o < 0x1000) (ho' : o' < 0x1000) :
    pgEth h i + o ≠ pgEth g i + o' := by
  have e (g i : Nat) : pgEth g i = 0x200000 + (4 * g + i) * 0x1000 := rfl
  rw [e, e]
  omega

theorem linkUp_setLink (k : Nat) : (s.setLink n v).linkUp k = if k = n then v.testBit 0 else s.linkUp k := by
  unfold linkUp
  by_cases hg : k / 4 = n / 4
  · rw [hg, get_setLink, setBitsOf_testBit]
    by_cases hk : k = n
    · subst hk
      rw [if_pos (by omega), if_pos rfl, Nat.sub_self]
    · rw [if_neg (by omega), if_neg hk]
  · have hk : k ≠ n := fun h => hg (by rw [h])
    rw [if_neg hk]
    unfold setLink
    dsimp only
    rw [State.get_put_ne _ _ _ _ _ _ _ _ rfl (by decide) rfl (by decide) (eth_ne hg (by decide) (by decide))]

theorem linkUp_congr {s t : State} {k : Nat} (h : t.io.rd (pgEth (k / 4) 0 + ETH_LINK_STAT.PORT.off) = s.io.rd (pgEth (k / 4) 0 + ETH_LINK_STAT.PORT.off)) :
    t.linkUp k = s.linkUp k := by
  unfold linkUp
  rw [State.get_of_rd (s := s) (t := t) (pgEth (k / 4) 0) ETH_LINK_STAT.PORT 0 rfl (by decide) h]

/-- The words of a port slot's link and PCS status. -/
def linkWord (n a : Nat) : Prop :=
  a = pgEth (n / 4) 0 + ETH_LINK_STAT.PORT.off ∨ a = pgEth (n / 4) 2 + ETH_PCS_STAT.BLOCK_LOCK.off + 32 * (n % 4)

theorem keeps_setLink : KeepsWords (linkWord n) s (s.setLink n v) := .put _ _ _ _ _ rfl (by decide) (.inl rfl)

theorem keeps_setPcs : KeepsWords (linkWord n) s (s.setPcs n v) := by
  unfold setPcs
  exact .after (.put _ _ _ _ _ rfl (by decide) (.inr rfl)) (.after (.put _ _ _ _ _ rfl (by decide) (.inr rfl)) (.put _ _ _ _ _ rfl (by decide) (.inr rfl)))

theorem onlyRegs_setLink : OnlyRegs s (s.setLink n v) := .put _ _ _ _ _ rfl

theorem onlyRegs_setPcs : OnlyRegs s (s.setPcs n v) := by
  unfold setPcs
  exact ((OnlyRegs.put _ _ _ _ _ rfl).trans (.put _ _ _ _ _ rfl)).trans (.put _ _ _ _ _ rfl)

theorem keeps_setPcs' : KeepsWords (· = pgEth (n / 4) 2 + ETH_PCS_STAT.BLOCK_LOCK.off + 32 * (n % 4)) s (s.setPcs n v) := by
  unfold setPcs
  exact .after (.put _ _ _ _ _ rfl (by decide) rfl) (.after (.put _ _ _ _ _ rfl (by decide) rfl) (.put _ _ _ _ _ rfl (by decide) rfl))

theorem pcs_ne (g k j o : Nat) (ho : o < 0x1000) (hj : j < 4) : ¬ pgEth k 0 + o = pgEth g 2 + ETH_PCS_STAT.BLOCK_LOCK.off + 32 * j := by
  have e (g i : Nat) : pgEth g i = 0x200000 + (4 * g + i) * 0x1000 := rfl
  have e1 : ETH_PCS_STAT.BLOCK_LOCK.off = 0x5c := rfl
  rw [e, e, e1]
  omega

theorem rd_setPcs (k o : Nat) (ho : o < 0x1000) : (s.setPcs n v).io.rd (pgEth k 0 + o) = s.io.rd (pgEth k 0 + o) :=
  keeps_setPcs' s n v _ (pcs_ne _ _ _ _ ho (Nat.mod_lt _ (by decide)))

theorem linkUp_setPcs (k : Nat) : (s.setPcs n v).linkUp k = s.linkUp k := linkUp_congr (rd_setPcs s n v _ _ (by decide))

/-- What a port slot's PCS shows. -/
theorem get_setPcs : (s.setPcs n v).get (pgEth (n / 4) 2) ETH_PCS_STAT.BLOCK_LOCK (n % 4) = bitsOf v 0 1 ∧
    (s.setPcs n v).get (pgEth (n / 4) 2) ETH_PCS_STAT.AM_LOCK (n % 4) = bitsOf v 1 1 ∧
    (s.setPcs n v).get (pgEth (n / 4) 2) ETH_PCS_STAT.HI_BER (n % 4) = bitsOf v 2 1 := by
  have hlt (k : Nat) : bitsOf v k 1 % 2 ^ 1 = bitsOf v k 1 := Nat.mod_eq_of_lt (bitsOf_lt v k 1)
  unfold setPcs
  dsimp only
  refine ⟨?_, ?_, ?_⟩
  · rw [State.get_put_field _ _ ETH_PCS_STAT.HI_BER ETH_PCS_STAT.BLOCK_LOCK _ (n % 4) (n % 4) rfl (by decide) rfl (by decide) rfl (by decide),
      State.get_put_field _ _ ETH_PCS_STAT.AM_LOCK ETH_PCS_STAT.BLOCK_LOCK _ (n % 4) (n % 4) rfl (by decide) rfl (by decide) rfl (by decide),
      State.get_put_same _ _ _ _ _ rfl (by decide)]
    exact hlt 0
  · rw [State.get_put_field _ _ ETH_PCS_STAT.HI_BER ETH_PCS_STAT.AM_LOCK _ (n % 4) (n % 4) rfl (by decide) rfl (by decide) rfl (by decide),
      State.get_put_same _ _ _ _ _ rfl (by decide)]
    exact hlt 1
  · rw [State.get_put_same _ _ _ _ _ rfl (by decide)]
    exact hlt 2

/-! ### A change of a link is reported -/

theorem keeps_linkChange : KeepsWords (fun a => a = pgEth (n / 4) 0 + 0x10 ∨ a = pgEth (n / 4) 0 + ETH_LINK_CHG.CHG.off) s (s.linkChange n) :=
  .after (.raise _ _ _ (.inl rfl)) (.put _ _ _ _ _ rfl (by decide) (.inr rfl))

theorem onlyIrq_linkChange : OnlyIrq s (s.linkChange n) := (OnlyRegs.put _ _ _ _ _ rfl).irq.trans (.raise _ _ _)

theorem linkChange_reports : ((s.linkChange n).get (pgEth (n / 4) 0) ETH_LINK_CHG.CHG).testBit (n % 4) = true ∧
    (s.linkChange n).io.cause (pgEth (n / 4) 0) 0 = true := by
  refine ⟨?_, State.cause_raise _ _ (by decide)⟩
  unfold linkChange
  dsimp only
  rw [State.get_raise _ _ _ _ _ _ rfl (by decide) (by simp only [ETH_LINK_CHG.CHG]; omega), State.get_put_same _ _ _ _ _ rfl (by decide)]
  have h : n % 4 < 4 := Nat.mod_lt _ (by decide)
  rw [show ETH_LINK_CHG.CHG.len = 4 from rfl, Nat.testBit_mod_two_pow, Nat.testBit_or, Nat.testBit_two_pow_self, decide_eq_true h]
  simp

theorem linkUp_linkChange (k : Nat) : (s.linkChange n).linkUp k = s.linkUp k := by
  refine linkUp_congr (keeps_linkChange s n _ ?_)
  have e (g i : Nat) : pgEth g i = 0x200000 + (4 * g + i) * 0x1000 := rfl
  have e1 : ETH_LINK_STAT.PORT.off = 0x58 := rfl
  have e2 : ETH_LINK_CHG.CHG.off = 0x5c := rfl
  rw [e, e, e1, e2]
  omega

end State

/-! ### A link that comes up -/

section
variable {s : State} {n : Fin 128}

theorem linkUp_reports (hon : s.on = true) (an : Bool) (he : s.portExists n.val = true) (hd : s.linkUp n.val = false) :
    Completes (.linkUp n an) s (fun t =>
      bitsOf (t.get (pgEth (n.val / 4) 0) ETH_LINK_STAT.PORT) (4 * (n.val % 4)) 4
        = 1 + 8 * b2n (an && (s.buf.group.get {} (n.val / 4)).trains && s.get (pgEth (n.val / 4) 0) ETH_AN_CFG.AN_EN == 1) ∧
      (∀ k : Fin 128, k ≠ n → t.linkUp k.val = s.linkUp k.val) ∧
      (t.get (pgEth (n.val / 4) 0) ETH_LINK_CHG.CHG).testBit (n.val % 4) = true ∧ t.io.cause (pgEth (n.val / 4) 0) 0 = true ∧
      OnlyIrq s t ∧ KeepsWords (fun a => a = pgEth (n.val / 4) 0 + 0x10 ∨ a = pgEth (n.val / 4) 0 + ETH_LINK_STAT.PORT.off ∨
        a = pgEth (n.val / 4) 0 + ETH_LINK_CHG.CHG.off ∨
        a = pgEth (n.val / 4) 2 + ETH_PCS_STAT.BLOCK_LOCK.off + 32 * (n.val % 4)) s t) := by
  generalize hv : (an && (s.buf.group.get {} (n.val / 4)).trains && s.get (pgEth (n.val / 4) 0) ETH_AN_CFG.AN_EN == 1) = b
  have hx : s.portUp n.val an = ((s.setLink n.val (1 + 8 * b2n b)).setPcs n.val 3).linkChange n.val := by
    unfold State.portUp
    rw [he, hd, ← hv]
    rfl
  have hi := ((s.onlyRegs_setLink n.val (1 + 8 * b2n b)).irq.trans (State.onlyRegs_setPcs _ n.val 3).irq).trans (State.onlyIrq_linkChange _ n.val)
  obtain ⟨h1, h2⟩ := State.linkChange_reports ((s.setLink n.val (1 + 8 * b2n b)).setPcs n.val 3) n.val
  refine .live_eq (f := fun s => s.portUp n.val an) rfl hon hx hi.pending ⟨?_, fun k hk => ?_, h1, h2, hi, ?_⟩
  · have hg : (((s.setLink n.val (1 + 8 * b2n b)).setPcs n.val 3).linkChange n.val).get (pgEth (n.val / 4) 0) ETH_LINK_STAT.PORT
        = (s.setLink n.val (1 + 8 * b2n b)).get (pgEth (n.val / 4) 0) ETH_LINK_STAT.PORT := by
      refine State.get_of_rd _ _ _ rfl (by decide) ((State.keeps_linkChange _ n.val _ ?_).trans (State.rd_setPcs _ n.val 3 _ _ (by decide)))
      simp [ETH_LINK_STAT.PORT, ETH_LINK_CHG.CHG]
    rw [hg, State.linkBits_setLink]
    cases b <;> rfl
  · rw [State.linkUp_linkChange, State.linkUp_setPcs, State.linkUp_setLink, if_neg fun h => hk (Fin.ext h)]
  · refine .after ((State.keeps_linkChange _ _).mono fun a h => h.elim .inl fun h => .inr (.inr (.inl h)))
      ((KeepsWords.after (State.keeps_setPcs _ _ _) (State.keeps_setLink _ _ _)).mono fun a h => h.elim (fun h => .inr (.inl h)) fun h => .inr (.inr (.inr h)))

theorem linkUp_idle (an : Bool) (h : s.portExists n.val = false ∨ s.linkUp n.val = true) : NoEffect (.linkUp n an) s := by
  refine .live (f := fun s => s.portUp n.val an) rfl (if_neg ?_)
  rcases h with h | h <;> simp [h]

end

/-! ### A link that goes down -/

namespace State

variable (s : State) (n : Nat)

theorem pages_lowCheck : s.Pages [pgTmb] s.lowCheck := .cond (s.pages_raise (by decide) 0) (.refl _ s)

theorem pages_setFree (k : Nat) : s.Pages [pgTmb] (s.setFree k) := by
  have h (x : State) (f : Fld) (v : Nat) (hf : f.off + f.stride * 0 + 4 < 0x1000) : x.Pages [pgTmb] (x.put pgTmb f v) := x.pages_put (by decide) f v 0 hf
  unfold setFree
  exact .after (pages_lowCheck _) (.cond (.after (h _ _ _ (by decide)) (h _ _ _ (by decide))) (h _ _ _ (by decide)))

theorem pages_release (id : Nat) : s.Pages [pgTmb] (s.release id) := by
  unfold release
  exact .cond (.after (pages_setFree _ _) (.of_regs rfl _)) (.of_regs rfl _)

theorem store_release (id : Nat) : (s.release id).buf = { s.buf with store := (s.release id).buf.store } := by
  have hf (x : State) (k : Nat) : (x.setFree k).buf = x.buf := (within_setFree x k).same .buf (by decide)
  unfold release
  dsimp only
  split
  · rw [hf]
    rfl
  · rfl

theorem b2n_false : b2n false = 0 := rfl
theorem b2n_true : b2n true = 1 := rfl

theorem get_wide_lt (b : Nat) (f : Fld) (i : Nat) (hf : f.Wide) : s.get b f i < 2 ^ 64 := by
  rw [State.get_eq, Io.get_wide _ _ _ _ hf, Io.rd64_append]
  exact BitVec.isLt _

theorem pages_abortTx : s.Pages [pgTmb, pgPmc, pgTmbP n] (s.abortTx n) := by
  unfold abortTx
  dsimp only
  split
  · exact .refl _ s
  · exact .after ((pages_release _ _).mono (by simp)) (.after (pages_ctr _ (by simp) _ _ _ (by decide) (by simp)) (.of_regs rfl _))

theorem tmbP_aligned : pgTmbP n % 0x1000 = 0 ∧ pgTmb % 0x1000 = 0 ∧ pgTmb < pgTmbP n := by
  have e : pgTmbP n = 0x800000 + (1 + n) * 0x1000 := rfl
  have e1 : pgTmb = 0x800000 := rfl
  omega

/-- What is left of the frame in transmission on a port whose link goes down (R104, R304). -/
theorem abortTx_ends : ((s.abortTx n).buf.sched.get {} n).tx = none ∧ (s.abortTx n).buf.queues = s.buf.queues ∧
    (s.abortTx n).get (pgTmbP n) TMB_TX_ABORT_CNT.COUNT
      = (s.get (pgTmbP n) TMB_TX_ABORT_CNT.COUNT + b2n (s.buf.sched.get {} n).tx.isSome) % 2 ^ 64 := by
  have hw : TMB_TX_ABORT_CNT.COUNT.Wide := ⟨rfl, rfl, rfl⟩
  unfold abortTx
  dsimp only
  split
  next h =>
    refine ⟨h, rfl, ?_⟩
    rw [h, Option.isSome_none, b2n_false, Nat.add_zero, Nat.mod_eq_of_lt (get_wide_lt s _ _ _ hw)]
  next c q h =>
    rw [h, Option.isSome_some, b2n_true]
    generalize hx : ({ s with buf := { s.buf with sched := s.buf.sched.set {} n { s.buf.sched.get {} n with tx := none } } } : State) = x
    have hb : x.buf.sched = s.buf.sched.set {} n { s.buf.sched.get {} n with tx := none } ∧ x.buf.queues = s.buf.queues := by
      rw [← hx]
      exact ⟨rfl, rfl⟩
    have hg : x.get (pgTmbP n) TMB_TX_ABORT_CNT.COUNT = s.get (pgTmbP n) TMB_TX_ABORT_CNT.COUNT := by
      rw [← hx]
      rfl
    have hr := store_release (x.ctr (pgTmbP n) TMB_TX_ABORT_CNT.COUNT) c.pkt
    rw [State.ctr_buf] at hr
    obtain ⟨h1, h2, h3⟩ := tmbP_aligned n
    have e1 : pgPmc = 0x140000 := rfl
    have hn (o : Nat) (ho : o < 0x1000) : ¬ inPages [pgTmb] (pgTmbP n + o) :=
      not_inPages h1 ho fun q hq => by
        rw [List.mem_singleton.1 hq]
        omega
    refine ⟨?_, ?_, ?_⟩
    · rw [hr, hb.1, SMap.get_set_same]
    · rw [hr, hb.2]
    · rw [get_wide_of_keeps (pages_release _ _) _ _ _ hw (hn 0x230 (by decide)) (hn 0x234 (by decide)), get_ctr_same _ _ _ _ _ hw, hg]
      have e2 : pgTmb = 0x800000 := rfl
      exact .inr (by omega)

theorem group_abortTx : (s.abortTx n).buf.group = s.buf.group := by
  unfold abortTx
  dsimp only
  split
  · rfl
  · rw [store_release, State.ctr_buf]

/-! #### The link of a port that is up goes down -/

/-- The frame in reception when a link goes down is counted (R101). -/
def rxLost (rx : Bool) : State := if rx = true then s.ctr (pgPmcL (n / 16)) PMC_RX_LINK_ABORT.COUNT 1 (n % 16) else s

theorem portDown_eq (rx : Bool) (h : s.linkUp n = true) : s.portDown n rx = ((s.linkChange n).rxLost n rx).abortTx n := if_pos h

theorem pages_rxLost (rx : Bool) : s.Pages [pgPmc, pgPmcL (n / 16)] (s.rxLost n rx) := by
  have h : PMC_RX_LINK_ABORT.COUNT.off + PMC_RX_LINK_ABORT.COUNT.stride * (n % 16) + 4 < 0x1000 := by
    simp only [PMC_RX_LINK_ABORT.COUNT]
    omega
  exact .cond (s.pages_ctr (by simp) _ _ _ h (by simp)) (.refl _ s)

theorem get_rxLost (rx : Bool) : (s.rxLost n rx).get (pgPmcL (n / 16)) PMC_RX_LINK_ABORT.COUNT (n % 16)
    = (s.get (pgPmcL (n / 16)) PMC_RX_LINK_ABORT.COUNT (n % 16) + b2n rx) % 2 ^ 64 := by
  have hw : PMC_RX_LINK_ABORT.COUNT.Wide := ⟨rfl, rfl, rfl⟩
  unfold rxLost
  cases rx
  · rw [if_neg (by decide), b2n_false, Nat.add_zero, Nat.mod_eq_of_lt (get_wide_lt s _ _ _ hw)]
  · rw [if_pos rfl, b2n_true]
    refine get_ctr_same _ _ _ _ _ hw (.inr ?_)
    have e1 : pgPmc = 0x140000 := rfl
    have e2 : pgPmcL (n / 16) = 0x1000000 + n / 16 * 0x100000 + 0x80000 := rfl
    omega

theorem buf_rxLost (rx : Bool) : (s.rxLost n rx).buf = s.buf := by
  unfold rxLost
  split
  · rw [State.ctr_buf]
  · rfl

theorem buf_linkChange : (s.linkChange n).buf = s.buf := rfl

theorem group_portDown (rx : Bool) : (s.portDown n rx).buf.group = s.buf.group := by
  unfold portDown
  dsimp only
  split
  · exact (group_abortTx _ n).trans (congrArg Buf.group ((buf_rxLost _ n rx).trans (s.buf_linkChange n)))
  · rfl

theorem portExists_congr {s t : State} (h : t.buf.group = s.buf.group) (k : Nat) : t.portExists k = s.portExists k := by
  unfold portExists mode
  rw [h]

/-- The pages that a link which goes down may write. -/
def downPages : List Nat := [pgEth (n / 4) 0, pgPmc, pgPmcL (n / 16), pgTmb, pgTmbP n]

theorem pages_portDown (rx : Bool) : s.Pages (downPages n) (s.portDown n rx) := by
  have hc : (s.Pages [pgEth (n / 4) 0] (s.linkChange n)) := .after (pages_raise _ (by simp) _) (s.pages_put (by simp) _ _ _ (by decide))
  unfold portDown
  exact .cond (.after ((pages_abortTx _ n).mono (by simp [downPages])) (.after ((pages_rxLost _ n rx).mono (by simp [downPages]))
    (hc.mono (by simp [downPages])))) (.refl _ s)

theorem eth_not_port {g o : Nat} (hg : g < 32) (ho : o < 0x1000) (m k : Nat) : ¬ inPages [pgTmb, pgPmc, pgTmbP m] (pgEth g 0 + o) ∧
    ¬ inPages [pgPmc, pgPmcL k] (pgEth g 0 + o) := by
  have e (g i : Nat) : pgEth g i = 0x200000 + (4 * g + i) * 0x1000 := rfl
  have e1 : pgTmb = 0x800000 := rfl
  have e2 : pgPmc = 0x140000 := rfl
  have e3 : pgTmbP m = 0x800000 + (1 + m) * 0x1000 := rfl
  have e4 : pgPmcL k = 0x1000000 + k * 0x100000 + 0x80000 := rfl
  rw [e]
  refine ⟨not_inPages (by omega) ho fun q hq => ?_, not_inPages (by omega) ho fun q hq => ?_⟩
  · simp only [List.mem_cons, List.not_mem_nil, or_false] at hq
    omega
  · simp only [List.mem_cons, List.not_mem_nil, or_false] at hq
    omega

/-- The words of the port's Ethernet page as the report of the change leaves them. -/
theorem rd_portDown (rx : Bool) (h : s.linkUp n = true) {g o : Nat} (hg : g < 32) (ho : o < 0x1000) :
    (s.portDown n rx).io.rd (pgEth g 0 + o) = (s.linkChange n).io.rd (pgEth g 0 + o) := by
  rw [portDown_eq s n rx h, pages_abortTx _ n _ (eth_not_port hg ho n 0).1, pages_rxLost _ n rx _ (eth_not_port hg ho 0 (n / 16)).2]

theorem pmcL_off {m o : Nat} (hm : m < 8) (ho : o < 0x1000) (g k i : Nat) (hg : g < 32) (hi : i < 4) :
    ¬ inPages [pgTmb, pgPmc, pgTmbP (k % 128)] (pgPmcL m + o) ∧ ¬ inPages [pgEth g i] (pgPmcL m + o) := by
  have e (g i : Nat) : pgEth g i = 0x200000 + (4 * g + i) * 0x1000 := rfl
  have e1 : pgTmb = 0x800000 := rfl
  have e2 : pgPmc = 0x140000 := rfl
  have e3 : pgTmbP (k % 128) = 0x800000 + (1 + k % 128) * 0x1000 := rfl
  have e4 : pgPmcL m = 0x1000000 + m * 0x100000 + 0x80000 := rfl
  refine ⟨not_inPages (by omega) ho fun q hq => ?_, not_inPages (by omega) ho fun q hq => ?_⟩
  · simp only [List.mem_cons, List.not_mem_nil, or_false] at hq
    omega
  · simp only [List.mem_cons, List.not_mem_nil, or_false] at hq
    have := e g i
    omega

theorem tmbP_off {o : Nat} (hn : n < 128) (ho : o < 0x1000) (g m i : Nat) (hg : g < 32) (hi : i < 4) :
    ¬ inPages [pgPmc, pgPmcL m] (pgTmbP n + o) ∧ ¬ inPages [pgEth g i] (pgTmbP n + o) := by
  have e (g i : Nat) : pgEth g i = 0x200000 + (4 * g + i) * 0x1000 := rfl
  have e2 : pgPmc = 0x140000 := rfl
  have e3 : pgTmbP n = 0x800000 + (1 + n) * 0x1000 := rfl
  have e4 : pgPmcL m = 0x1000000 + m * 0x100000 + 0x80000 := rfl
  refine ⟨not_inPages (by omega) ho fun q hq => ?_, not_inPages (by omega) ho fun q hq => ?_⟩
  · simp only [List.mem_cons, List.not_mem_nil, or_false] at hq
    omega
  · simp only [List.mem_cons, List.not_mem_nil, or_false] at hq
    have := e g i
    omega

theorem pages_linkChange : s.Pages [pgEth (n / 4) 0] (s.linkChange n) :=
  .after (pages_raise _ (by simp) _) (s.pages_put (by simp) _ _ _ (by decide))

theorem pages_linkShown (v w : Nat) : s.Pages [pgEth (n / 4) 0, pgEth (n / 4) 2] ((s.setLink n v).setPcs n w) := by
  have hp (x : State) (f : Fld) (k : Nat) (hf : f.off + f.stride * (n % 4) + 4 < 0x1000) :
      x.Pages [pgEth (n / 4) 0, pgEth (n / 4) 2] (x.put (pgEth (n / 4) 2) f k (n % 4)) := x.pages_put (by simp) f k (n % 4) hf
  have h : ETH_PCS_STAT.BLOCK_LOCK.off + 32 * (n % 4) + 4 < 0x1000 := by
    simp only [ETH_PCS_STAT.BLOCK_LOCK]
    omega
  exact .after (.after (hp _ _ _ h) (.after (hp _ _ _ h) (hp _ _ _ h))) (pages_put s (by simp) _ _ _ (by decide))

/-- What a port's link that goes down leaves behind (R101, R104). -/
structure WentDown (n : Nat) (rx : Bool) (s t : State) : Prop where
  link : ∀ k < 128, t.linkUp k = s.linkUp k
  change : (t.get (pgEth (n / 4) 0) ETH_LINK_CHG.CHG).testBit (n % 4) = true
  cause : t.io.cause (pgEth (n / 4) 0) 0 = true
  received : t.get (pgPmcL (n / 16)) PMC_RX_LINK_ABORT.COUNT (n % 16)
    = (s.get (pgPmcL (n / 16)) PMC_RX_LINK_ABORT.COUNT (n % 16) + b2n rx) % 2 ^ 64
  tx : (t.buf.sched.get {} n).tx = none
  aborted : t.get (pgTmbP n) TMB_TX_ABORT_CNT.COUNT
    = (s.get (pgTmbP n) TMB_TX_ABORT_CNT.COUNT + b2n (s.buf.sched.get {} n).tx.isSome) % 2 ^ 64
  queues : t.buf.queues = s.buf.queues

theorem wideRx : PMC_RX_LINK_ABORT.COUNT.Wide := ⟨rfl, rfl, rfl⟩
theorem wideTx : TMB_TX_ABORT_CNT.COUNT.Wide := ⟨rfl, rfl, rfl⟩

theorem rxOff_lt : PMC_RX_LINK_ABORT.COUNT.off + PMC_RX_LINK_ABORT.COUNT.stride * (n % 16) + 4 < 0x1000 := by
  simp only [PMC_RX_LINK_ABORT.COUNT]
  omega

theorem get_rxCount_of {t : State} {p : Nat → Prop} (h : KeepsWords p s t) (hp : ∀ o < 0x1000, ¬ p (pgPmcL (n / 16) + o)) :
    t.get (pgPmcL (n / 16)) PMC_RX_LINK_ABORT.COUNT (n % 16) = s.get (pgPmcL (n / 16)) PMC_RX_LINK_ABORT.COUNT (n % 16) := by
  have hl := rxOff_lt n
  refine get_wide_of_keeps h _ _ _ wideRx ?_ ?_
  · rw [Nat.add_assoc]
    exact hp _ (by omega)
  · rw [Nat.add_assoc, Nat.add_assoc]
    exact hp _ (by omega)

theorem get_txCount_of {t : State} {p : Nat → Prop} (h : KeepsWords p s t) (hp : ∀ o < 0x1000, ¬ p (pgTmbP n + o)) :
    t.get (pgTmbP n) TMB_TX_ABORT_CNT.COUNT = s.get (pgTmbP n) TMB_TX_ABORT_CNT.COUNT :=
  get_wide_of_keeps h _ _ _ wideTx (hp 0x230 (by decide)) (hp 0x234 (by decide))

theorem portDown_ends {n : Nat} (hn : n < 128) (rx : Bool) (h : s.linkUp n = true) : WentDown n rx s (s.portDown n rx) := by
  have hr {g o : Nat} (hg : g < 32) (ho : o < 0x1000) := s.rd_portDown n rx h hg ho
  obtain ⟨h1, h2⟩ := s.linkChange_reports n
  have he := portDown_eq s n rx h
  have hb : ((s.linkChange n).rxLost n rx).buf = s.buf := (buf_rxLost _ n rx).trans (s.buf_linkChange n)
  obtain ⟨h3, h4, h5⟩ := abortTx_ends ((s.linkChange n).rxLost n rx) n
  rw [← he, hb] at h4 h5
  rw [← he] at h3
  refine ⟨fun k hk => ?_, ?_, ?_, ?_, h3, ?_, h4⟩
  · rw [linkUp_congr (hr (by omega) (by decide)), linkUp_linkChange]
  · rw [State.get_of_rd (s := s.linkChange n) _ ETH_LINK_CHG.CHG 0 rfl (by decide) (hr (by omega) (by decide))]
    exact h1
  · unfold Io.cause at h2 ⊢
    rw [hr (by omega) (by decide)]
    exact h2
  · rw [he, get_rxCount_of _ n (pages_abortTx _ n) (fun o ho => by
      have := (pmcL_off (m := n / 16) (by omega) ho 0 n 0 (by decide) (by decide)).1
      rwa [Nat.mod_eq_of_lt hn] at this), get_rxLost,
      get_rxCount_of _ n (pages_linkChange s n) fun o ho => (pmcL_off (by omega) ho _ n 0 (by omega) (by decide)).2]
  · rw [h5, get_txCount_of _ n (pages_rxLost _ n rx) (fun o ho => (tmbP_off n hn ho 0 _ 0 (by decide) (by decide)).1),
      get_txCount_of _ n (pages_linkChange s n) fun o ho => (tmbP_off n hn ho _ 0 0 (by omega) (by decide)).2]

end State

section
variable {s : State} {n : Fin 128} (hon : s.on = true) (rx lf rf : Bool) (pcs : BitVec 3)

theorem faultBits (lf rf : Bool) : (2 * b2n lf + 4 * b2n rf) % 2 ^ 4 = 2 * b2n lf + 4 * b2n rf ∧ (2 * b2n lf + 4 * b2n rf).testBit 0 = false := by
  cases lf <;> cases rf <;> decide

theorem State.linkLoss_eq (s : State) {n : Nat} (v : Nat) (he : s.portExists n = true) :
    s.linkLoss n rx lf rf v = ((s.portDown n rx).setLink n (2 * b2n lf + 4 * b2n rf)).setPcs n v :=
  if_pos ((State.portExists_congr (State.group_portDown s n rx) n).trans he)

theorem State.buf_linkShown (s : State) (n v w : Nat) : ((s.setLink n v).setPcs n w).buf = s.buf := by
  rw [(State.onlyRegs_setPcs _ n w), State.onlyRegs_setLink]

include hon

theorem linkDown_reports (he : s.portExists n.val = true) (hu : s.linkUp n.val = true) : Completes (.linkDown n rx lf rf pcs) s (fun t =>
      bitsOf (t.get (pgEth (n.val / 4) 0) ETH_LINK_STAT.PORT) (4 * (n.val % 4)) 4 = 2 * b2n lf + 4 * b2n rf ∧
      t.linkUp n.val = false ∧ (∀ k : Fin 128, k ≠ n → t.linkUp k.val = s.linkUp k.val) ∧
      (t.get (pgEth (n.val / 4) 0) ETH_LINK_CHG.CHG).testBit (n.val % 4) = true ∧ t.io.cause (pgEth (n.val / 4) 0) 0 = true ∧
      t.get (pgPmcL (n.val / 16)) PMC_RX_LINK_ABORT.COUNT (n.val % 16)
        = (s.get (pgPmcL (n.val / 16)) PMC_RX_LINK_ABORT.COUNT (n.val % 16) + b2n rx) % 2 ^ 64 ∧
      (t.buf.sched.get {} n.val).tx = none ∧
      t.get (pgTmbP n.val) TMB_TX_ABORT_CNT.COUNT
        = (s.get (pgTmbP n.val) TMB_TX_ABORT_CNT.COUNT + b2n (s.buf.sched.get {} n.val).tx.isSome) % 2 ^ 64 ∧
      t.buf.queues = s.buf.queues ∧ t = { s with io := t.io, buf := t.buf }) := by
  have hd := State.portDown_ends s n.isLt rx hu
  have hw := State.within_linkLoss s n.val rx lf rf pcs.toNat
  have hx := State.linkLoss_eq rx lf rf s pcs.toNat he
  generalize s.portDown n.val rx = x at hd hx
  obtain ⟨hl, hl0⟩ := faultBits lf rf
  have hp := State.pages_linkShown x n.val (2 * b2n lf + 4 * b2n rf) pcs.toNat
  have hn : n.val / 4 < 32 := by omega
  have hlw {o : Nat} (ho : o < 0x1000) (hne : o ≠ ETH_LINK_STAT.PORT.off) :
      (((x.setLink n.val (2 * b2n lf + 4 * b2n rf)).setPcs n.val pcs.toNat)).io.rd (pgEth (n.val / 4) 0 + o) = x.io.rd (pgEth (n.val / 4) 0 + o) := by
    rw [State.rd_setPcs _ _ _ _ _ ho]
    exact KeepsWords.put (p := (· = pgEth (n.val / 4) 0 + ETH_LINK_STAT.PORT.off)) x _ _ _ _ rfl (by decide) rfl _ fun h => hne (Nat.add_left_cancel h)
  have hfar {b : Nat} (hb : ∀ i < 4, ∀ o < 0x1000, ¬ inPages [pgEth (n.val / 4) i] (b + o)) (o : Nat) (ho : o < 0x1000) :
      ¬ inPages [pgEth (n.val / 4) 0, pgEth (n.val / 4) 2] (b + o) := by
    rintro ⟨q, hq, h⟩
    rcases List.mem_cons.1 hq with rfl | hq
    · exact hb 0 (by decide) o ho ⟨_, List.mem_singleton.2 rfl, h⟩
    · rw [List.mem_singleton.1 hq] at h
      exact hb 2 (by decide) o ho ⟨_, List.mem_singleton.2 rfl, h⟩
  refine .live_eq (f := fun s => s.linkLoss n.val rx lf rf pcs.toNat) rfl hon hx (hx ▸ hw.same .pending (by decide))
    ⟨?_, ?_, fun k hk => ?_, ?_, ?_, ?_, ?_, ?_, ?_, ?_⟩
  · rw [State.get_of_rd (s := x.setLink n.val _) (pgEth (n.val / 4) 0) ETH_LINK_STAT.PORT 0 rfl (by decide) (State.rd_setPcs _ _ _ _ _ (by decide)),
      State.linkBits_setLink, hl]
  · rw [State.linkUp_setPcs, State.linkUp_setLink, if_pos rfl, hl0]
  · rw [State.linkUp_setPcs, State.linkUp_setLink, if_neg fun h => hk (Fin.ext h), hd.link k k.isLt]
  · rw [State.get_of_rd (s := x) (pgEth (n.val / 4) 0) ETH_LINK_CHG.CHG 0 rfl (by decide) (hlw (by decide) (by decide))]
    exact hd.change
  · have h := hd.cause
    unfold Io.cause at h ⊢
    rw [hlw (by decide) (by decide)]
    exact h
  · rw [State.get_rxCount_of x n.val hp (hfar fun i hi o ho => (State.pmcL_off (by omega) ho _ n.val i hn hi).2)]
    exact hd.received
  · rw [State.buf_linkShown]
    exact hd.tx
  · rw [State.get_txCount_of x n.val hp (hfar fun i hi o ho => (State.tmbP_off n.val n.isLt ho _ 0 i hn hi).2)]
    exact hd.aborted
  · rw [State.buf_linkShown]
    exact hd.queues
  · rw [← hx]
    exact State.Within.eq_ioBuf (hw.mono (by decide))

theorem linkDown_shows (he : s.portExists n.val = true) (hu : s.linkUp n.val = false) : Completes (.linkDown n rx lf rf pcs) s (fun t =>
        bitsOf (t.get (pgEth (n.val / 4) 0) ETH_LINK_STAT.PORT) (4 * (n.val % 4)) 4 = 2 * b2n lf + 4 * b2n rf ∧
        t.get (pgEth (n.val / 4) 2) ETH_PCS_STAT.BLOCK_LOCK (n.val % 4) = b2n (tb pcs 0) ∧
        t.get (pgEth (n.val / 4) 2) ETH_PCS_STAT.AM_LOCK (n.val % 4) = b2n (tb pcs 1) ∧
        t.get (pgEth (n.val / 4) 2) ETH_PCS_STAT.HI_BER (n.val % 4) = b2n (tb pcs 2) ∧ OnlyRegs s t ∧
        KeepsWords (fun a => a = pgEth (n.val / 4) 0 + ETH_LINK_STAT.PORT.off ∨
          a = pgEth (n.val / 4) 2 + ETH_PCS_STAT.BLOCK_LOCK.off + 32 * (n.val % 4)) s t) := by
  have hd : s.portDown n.val rx = s := if_neg (by simp [hu])
  have hx := State.linkLoss_eq rx lf rf s pcs.toNat he
  rw [hd] at hx
  obtain ⟨h1, h2, h3⟩ := State.get_setPcs (s.setLink n.val (2 * b2n lf + 4 * b2n rf)) n.val pcs.toNat
  have hb (k : Nat) : bitsOf pcs.toNat k 1 = b2n (tb pcs k) := by
    unfold bitsOf tb b2n
    rw [Nat.testBit_eq_decide_div_mod_eq, Nat.shiftRight_eq_div_pow]
    have := Nat.mod_lt (pcs.toNat / 2 ^ k) (by decide : 0 < 2 ^ 1)
    by_cases hc : pcs.toNat / 2 ^ k % 2 = 1
    · simp [hc]
    · simp [hc]
      omega
  have ho := (s.onlyRegs_setLink n.val (2 * b2n lf + 4 * b2n rf)).trans (State.onlyRegs_setPcs _ n.val pcs.toNat)
  refine .live_eq (f := fun s => s.linkLoss n.val rx lf rf pcs.toNat) rfl hon hx ho.irq.pending
    ⟨?_, h1.trans (hb 0), h2.trans (hb 1), h3.trans (hb 2), ho, .after (State.keeps_setPcs _ _ _) (State.keeps_setLink _ _ _)⟩
  rw [State.get_of_rd (s := s.setLink n.val _) (pgEth (n.val / 4) 0) ETH_LINK_STAT.PORT 0 rfl (by decide) (State.rd_setPcs _ _ _ _ _ (by decide)),
    State.linkBits_setLink, (faultBits lf rf).1]

omit hon

theorem linkDown_idle (he : s.portExists n.val = false) (hu : s.linkUp n.val = false) : NoEffect (.linkDown n rx lf rf pcs) s := by
  have hd : s.portDown n.val rx = s := if_neg (by simp [hu])
  refine .live (f := fun s => s.linkLoss n.val rx lf rf pcs.toNat) rfl ?_
  unfold State.linkLoss
  rw [hd]
  exact if_neg (by simp [he])

end

/-- Settles O24. -/
theorem linkChanges : Obligations.LinkChanges := by
  refine fun s n hon => ⟨linkUp_reports hon, linkUp_idle, linkDown_reports hon, linkDown_shows hon, fun rx lf rf pcs => linkDown_idle rx lf rf pcs,
    fun g ht hl => ?_, fun g h => ?_⟩
  · exact .live_eq (f := fun s => s.ltFail g.val) rfl hon (if_pos ⟨ht, hl⟩) rfl
      ⟨State.cause_raise _ _ (by decide), .raise _ _ _, .raise _ _ _ rfl⟩
  · refine .live (f := fun s => s.ltFail g.val) rfl (if_neg ?_)
    rintro ⟨h1, h2⟩
    rcases h with h | h
    · rw [h1] at h
      cases h
    · rw [h2] at h
      cases h

end Sys2Proof.Machine
end

section
/-!
SUPPORT. Rings, queues and discards after admission (R81, R294, R303, R310).
-/
namespace Sys2Proof.Machine

/-! ### What is offered to a ring -/

theorem Io.pages_complete (s : Io) (n : Nat) (irq : Bool) : s.Pages [pgRing n] (s.complete n irq) := by
  have hf (x : Io) (k : Nat) : x.Pages [pgRing n] (x.ringFlag n k) := x.pages_raise (by simp) k
  have hm (x : Io) (m : SMap Nat) : x.Pages [pgRing n] { x with modCnt := m } := .of_regs rfl
  unfold complete
  exact .cond (.after (hf _ _) (hm _ _)) (.cond (.refl _ s) (.cond (.after (hf _ _) (hm _ _)) (hm _ _)))

theorem Io.pages_ringWrite (s : Io) (n : Nat) (es : List Line) : s.Pages [pgRing n] (s.ringWrite n es) := by
  unfold ringWrite
  extract_lets +onlyGivenNames k c x y z
  have hx : s.Pages [pgRing n] x := .foldl (fun _ _ _ => .of_regs rfl) (.refl _ s)
  clear_value x
  have hy : s.Pages [pgRing n] y := .after (t := x) (.of_regs rfl) hx
  clear_value y
  exact .after (pages_complete _ _ _) (.after (y.pages_put (by simp) _ _ _ (by decide)) hy)

theorem Io.pages_ringPut (s : Io) (n : Nat) (es : List Line) : s.Pages [pgRing n] (s.ringPut n es) :=
  .cond (s.pages_ringWrite n es) (.after (pages_bump _ (by simp) _ _ _ (by decide)) (s.pages_raise (by simp) 1))

/-! ### Queues -/

/-- The words that a change of a queue, a release and the end of a trace may write: the pool, the page that notes overflows, the trace ring,
the trace registers, and the queue registers of the ports. -/
def copyWord (a : Nat) : Prop :=
  inPages [pgTmb, pgPmc, pgRing 34] a ∨ (∃ p, inPage (pgTel p) a) ∨ ∃ n < 128, pgTmbP n + 0x40 ≤ a ∧ a < pgTmbP n + 0x100

theorem not_copyWord_port {n o : Nat} (hn : n < 128) (ho : o < 0x1000) (h : o < 0x40 ∨ 0x100 ≤ o) : ¬ copyWord (pgTmbP n + o) := by
  have e (n : Nat) : pgTmbP n = 0x800000 + (1 + n) * 0x1000 := rfl
  have e1 : pgTmb = 0x800000 := rfl
  have e2 : pgPmc = 0x140000 := rfl
  have e3 : pgRing 34 = 0x66000 := rfl
  have e4 (p : Nat) : pgTel p = 0x1000000 + p * 0x100000 + 0x70000 := rfl
  rintro (⟨q, hq, h1, h2⟩ | ⟨p, h1, h2⟩ | ⟨m, hm, h1, h2⟩)
  · simp only [List.mem_cons, List.not_mem_nil, or_false] at hq
    rw [e] at h1 h2
    omega
  · rw [e4] at h1 h2
    rw [e] at h1 h2
    omega
  · rw [e, e] at h1 h2
    omega

namespace State

variable (s : State)

theorem Pages.copy {s t : State} {ps : List Nat} (h : s.Pages ps t) (hp : ps ⊆ [pgTmb, pgPmc, pgRing 34]) : KeepsWords copyWord s t :=
  KeepsWords.mono (h.mono hp) fun _ => .inl

theorem busy_inPage (p : Nat) : inPage (pgTel p) (pgTel p + TEL_TAG_STAT.BUSY.off + TEL_TAG_STAT.BUSY.stride * 0) := by
  have e : TEL_TAG_STAT.BUSY.off + TEL_TAG_STAT.BUSY.stride * 0 < 0x1000 := by decide
  unfold inPage
  omega

theorem keeps_busy (p v : Nat) : KeepsWords copyWord s (s.put (pgTel p) TEL_TAG_STAT.BUSY v) :=
  .put _ _ _ _ _ rfl (by decide) (.inr (.inl ⟨p, busy_inPage p⟩))

theorem keeps_ringPut34 (es : List Line) : KeepsWords copyWord s (s.upIo fun io => io.ringPut 34 es) :=
  (KeepsWords.upIo (f := fun io => io.ringPut 34 es) (s.io.pages_ringPut 34 es)).mono fun _ ha => .inl (inPages_mono (by simp) _ ha)

theorem keeps_traceDone (k : Option Nat) (fate reason : Nat) (done : Option Nat) : KeepsWords copyWord s (s.traceDone k fate reason done) := by
  unfold traceDone
  split
  · exact .after (keeps_busy _ _ _) (.after (.of_regs rfl _) (keeps_ringPut34 _ _))
  · exact .refl _ s

theorem keeps_portWord {n : Nat} (hn : n < 128) (f : Fld) (v i : Nat) (hf : 0x40 ≤ f.off ∧ f.off + f.stride * i + 8 ≤ 0x100) :
    KeepsWords copyWord s (s.put (pgTmbP n) f v i) :=
  .putAny s _ f v i (.inr (.inr ⟨n, hn, by omega, by omega⟩)) (.inr (.inr ⟨n, hn, by omega, by omega⟩))

theorem keeps_putTmb (f : Fld) (v i : Nat) (hf : f.off + f.stride * i + 4 < 0x1000) : KeepsWords copyWord s (s.put pgTmb f v i) :=
  (s.pages_put (ps := [pgTmb]) (by simp) f v i hf).copy (by simp)

theorem keeps_setOcc (q o : Nat) : KeepsWords copyWord s (s.setOcc q o) := by
  unfold setOcc
  split
  · have hn : q / 8 < 128 := by omega
    have h1 : TMB_Q_OCC.CELLS.off + TMB_Q_OCC.CELLS.stride * (q % 8) + 8 ≤ 0x100 := by
      simp only [TMB_Q_OCC.CELLS]
      omega
    have h2 : TMB_Q_HIGH.HIGH.off + TMB_Q_HIGH.HIGH.stride * (q % 8) + 8 ≤ 0x100 := by
      simp only [TMB_Q_HIGH.HIGH]
      omega
    have hm (x : State) : KeepsWords copyWord x (x.upIo (·.maxTo (pgTmbP (q / 8)) TMB_Q_HIGH.HIGH o (q % 8))) :=
      .upIo (.cond (keeps_portWord x hn TMB_Q_HIGH.HIGH (min (2 ^ 19 - 1) o) (q % 8) ⟨by decide, h2⟩ |> fun h => ⟨h⟩) (.refl _ _))
    exact .after (keeps_portWord _ hn TMB_PORT_OCC.CELLS _ 0 (by decide)) (.after (hm _) (keeps_portWord _ hn TMB_Q_OCC.CELLS _ _ ⟨by decide, h1⟩))
  · split
    · exact s.keeps_putTmb _ _ _ (by simp only [TMB_HOSTQ_OCCh.CELLS]; omega)
    · exact .refl _ s

theorem keeps_changeQueue (q : Nat) (l : List Copy) : KeepsWords copyWord s (s.changeQueue q l) := by
  unfold changeQueue
  exact .after (keeps_putTmb _ _ _ _ (by decide)) (.after (keeps_setOcc _ _ _) (.of_regs rfl _))

theorem keeps_release (id : Nat) : KeepsWords copyWord s (s.release id) := (s.pages_release id).copy (by simp)

/-! ### What discards leave of the queues -/

theorem buf_setOcc (q o : Nat) : (s.setOcc q o).buf = s.buf := by
  have h : s.Within ioParts (s.setOcc q o) := (within_setOcc s q o).mono (by decide)
  exact h.same .buf (by decide)

theorem buf_changeQueue (q : Nat) (l : List Copy) : (s.changeQueue q l).buf = { s.buf with queues := s.buf.queues.set [] q l } := by
  unfold changeQueue
  rw [State.put_buf, buf_setOcc]
  rfl

theorem buf_traceDone (k : Option Nat) (fate reason : Nat) (done : Option Nat) : (s.traceDone k fate reason done).buf = s.buf :=
  (within_traceDone s k fate reason done).same .buf (by decide)

/-- The packet buffer but for its queues and its store. -/
def bufRest (s : State) : Buf := { s.buf with queues := [], store := [] }

/-- Only the store changed, of the buffer. -/
abbrev StoreOnly (s t : State) : Prop := Agree (fun s : State => { s.buf with store := [] }) s t

theorem storeOnly_release (id : Nat) : StoreOnly s (s.release id) := by
  refine ⟨?_⟩
  rw [s.store_release id]

theorem storeOnly_traceDone (k : Option Nat) (fate reason : Nat) (done : Option Nat) : StoreOnly s (s.traceDone k fate reason done) := by
  refine ⟨?_⟩
  rw [s.buf_traceDone]

/-- A copy that was discarded is counted, and its reference released. -/
def discardOne (b : Nat) (f : Fld) (s : State) (c : Copy) : State := ((s.ctr b f).release c.pkt).traceDone c.tag 3 0 none

theorem storeOnly_discards (b : Nat) (f : Fld) (l : List Copy) : StoreOnly s (l.foldl (discardOne b f) s) := by
  refine .foldl (fun c _ x => ?_) (.refl s)
  exact .after (storeOnly_traceDone _ _ _ _ _) (.after (storeOnly_release _ _) ⟨by rw [State.ctr_buf]⟩)

theorem queue_of_storeOnly {s t : State} (h : StoreOnly s t) (k : Nat) : t.queue k = s.queue k := by
  have e : t.buf.queues = s.buf.queues := (congrArg Buf.queues h.eq :)
  unfold queue
  rw [e]

theorem discardFirst_eq (q k b : Nat) (f : Fld) :
    s.discardFirst q k b f = ((s.queue q).take k).foldl (discardOne b f) (s.changeQueue q ((s.queue q).drop k)) := rfl

theorem queue_changeQueue (q : Nat) (l : List Copy) (k : Nat) : (s.changeQueue q l).queue k = if k = q then l else s.queue k := by
  unfold queue
  rw [buf_changeQueue]
  split
  next h => rw [h, SMap.get_set_same]
  next h => exact SMap.get_set_ne _ _ _ _ h

theorem queue_discardFirst (q j b : Nat) (f : Fld) (k : Nat) :
    (s.discardFirst q j b f).queue k = if k = q then (s.queue q).drop j else s.queue k := by
  rw [discardFirst_eq, queue_of_storeOnly (storeOnly_discards _ _ _ _), queue_changeQueue]

theorem queue_discardAll (q b : Nat) (f : Fld) (k : Nat) : (s.discardAll q b f).queue k = if k = q then [] else s.queue k := by
  unfold discardAll
  rw [queue_discardFirst, List.drop_length]

theorem rest_discardFirst (q j b : Nat) (f : Fld) : Agree bufRest s (s.discardFirst q j b f) := by
  rw [discardFirst_eq]
  refine .after ⟨congrArg (fun x : Buf => { x with queues := [] }) (storeOnly_discards _ b f _).eq⟩ ⟨?_⟩
  unfold bufRest
  rw [buf_changeQueue]

/-- The words that a discard counted by `f` of page `b` may write. -/
def discardWord (b : Nat) (f : Fld) (a : Nat) : Prop := copyWord a ∨ a = b + f.off ∨ a = b + f.off + 4

theorem keeps_discardOne (b : Nat) (f : Fld) (c : Copy) : KeepsWords (discardWord b f) s (discardOne b f s c) :=
  .after ((keeps_traceDone _ _ _ _ _).mono fun _ => .inl) (.after ((keeps_release _ _).mono fun _ => .inl)
    (.ctr s b f 1 0 (.inr (.inl rfl)) (.inr (.inr rfl)) fun _ ha => .inl (.inl ⟨pgPmc, by simp, ha⟩)))

theorem keeps_discardFirst (q j b : Nat) (f : Fld) : KeepsWords (discardWord b f) s (s.discardFirst q j b f) := by
  rw [discardFirst_eq]
  exact .foldl (fun c _ x => x.keeps_discardOne b f c) ((keeps_changeQueue _ _ _).mono fun _ => .inl)

/-- A counter of discards: its words are written by nothing else that a discard does. -/
structure Counts (b : Nat) (f : Fld) : Prop where
  wide : f.Wide
  off : offPmc (b + f.off)
  low : ¬ copyWord (b + f.off)
  high : ¬ copyWord (b + f.off + 4)

theorem Counts.get {b : Nat} {f : Fld} (h : Counts b f) {s t : State} (hk : KeepsWords copyWord s t) : t.get b f = s.get b f :=
  get_wide_of_keeps hk b f 0 h.wide h.low h.high

theorem counts_port {n : Nat} (hn : n < 128) {f : Fld} (hw : f.Wide) (hf : 0x100 ≤ f.off ∧ f.off + 8 ≤ 0x1000) : Counts (pgTmbP n) f := by
  refine ⟨hw, .inr ?_, not_copyWord_port hn (by omega) (.inr hf.1), ?_⟩
  · have e : pgTmbP n = 0x800000 + (1 + n) * 0x1000 := rfl
    have e2 : pgPmc = 0x140000 := rfl
    omega
  · rw [Nat.add_assoc]
    exact not_copyWord_port hn (by omega) (.inr (by omega))

theorem get_discards {b : Nat} {f : Fld} (h : Counts b f) (l : List Copy) :
    (l.foldl (discardOne b f) s).get b f = (s.get b f + l.length) % 2 ^ 64 := by
  induction l generalizing s with
  | nil => exact (Nat.mod_eq_of_lt (get_wide_lt s b f 0 h.wide)).symm
  | cons c l ih =>
    have h1 : (discardOne b f s c).get b f = (s.get b f + 1) % 2 ^ 64 := by
      unfold discardOne
      rw [h.get (keeps_traceDone _ _ _ _ _), h.get (keeps_release _ _), get_ctr_same _ _ _ _ _ h.wide h.off]
    rw [List.foldl_cons, ih, h1, List.length_cons, Nat.mod_add_mod, Nat.add_assoc, Nat.add_comm 1]

theorem get_discardFirst {b : Nat} {f : Fld} (h : Counts b f) (q j : Nat) :
    (s.discardFirst q j b f).get b f = (s.get b f + ((s.queue q).take j).length) % 2 ^ 64 := by
  rw [discardFirst_eq, get_discards _ h, h.get (keeps_changeQueue _ _ _)]

theorem get_discardAll {b : Nat} {f : Fld} (h : Counts b f) (q : Nat) :
    (s.discardAll q b f).get b f = (s.get b f + (s.queue q).length) % 2 ^ 64 := by
  unfold discardAll
  rw [get_discardFirst _ h, List.take_length]

/-! #### Several queues of a port -/

/-- The queues `l` of port `n` are discarded, each copy counted by `f`. -/
def discardEach (n : Nat) (f : Fld) (l : List Nat) (s : State) : State := l.foldl (fun s q => s.discardAll (8 * n + q) (pgTmbP n) f) s

theorem queue_discardEach (n : Nat) (f : Fld) (l : List Nat) (k : Nat) :
    (discardEach n f l s).queue k = if ∃ q ∈ l, k = 8 * n + q then [] else s.queue k := by
  unfold discardEach
  induction l generalizing s with
  | nil => simp
  | cons q l ih =>
    rw [List.foldl_cons, ih, queue_discardAll]
    by_cases h1 : k = 8 * n + q
    · simp [h1]
    · simp [h1]

theorem get_discardEach {n : Nat} {f : Fld} (h : Counts (pgTmbP n) f) (l : List Nat) (hl : l.Nodup) :
    (discardEach n f l s).get (pgTmbP n) f = (s.get (pgTmbP n) f + (l.map fun q => (s.queue (8 * n + q)).length).sum) % 2 ^ 64 := by
  unfold discardEach
  induction l generalizing s with
  | nil => exact (Nat.mod_eq_of_lt (get_wide_lt s _ f 0 h.wide)).symm
  | cons q l ih =>
    obtain ⟨hq, hl⟩ := List.nodup_cons.1 hl
    have hm : (l.map fun k => ((s.discardAll (8 * n + q) (pgTmbP n) f).queue (8 * n + k)).length) = l.map fun k => (s.queue (8 * n + k)).length := by
      refine List.map_congr_left fun k hk => ?_
      rw [queue_discardAll, if_neg fun h => hq (by rwa [← Nat.add_left_cancel h])]
    rw [List.foldl_cons, ih _ hl, get_discardAll _ h, hm, List.map_cons, List.sum_cons, Nat.mod_add_mod, Nat.add_assoc]

theorem rest_discardEach (n : Nat) (f : Fld) (l : List Nat) : Agree bufRest s (discardEach n f l s) :=
  .foldl (fun _ _ x => x.rest_discardFirst _ _ _ _) (.refl s)

theorem keeps_discardEach (n : Nat) (f : Fld) (l : List Nat) : KeepsWords (discardWord (pgTmbP n) f) s (discardEach n f l s) :=
  .foldl (fun _ _ x => x.keeps_discardFirst _ _ _ _) (.refl _ s)

theorem discardPort_eq (n : Nat) (f : Fld) : s.discardPort n f = discardEach n f (List.range 8) s := rfl

end State

end Sys2Proof.Machine
end

section
/-!
SUPPORT. APPLY of a port group, and the flush after HOLD_MS (R99, R101, R104, R303).
-/
namespace Sys2Proof.Machine

namespace State

variable (s : State) (n : Nat) (rx : Bool)

/-! ### A port slot whose link an APPLY takes down -/

/-- The low word of the count of frames cut off in reception on port `n`. -/
def rxAddr (n : Nat) : Nat := pgPmcL (n / 16) + PMC_RX_LINK_ABORT.COUNT.off + PMC_RX_LINK_ABORT.COUNT.stride * (n % 16)

theorem rxAddr_eq : rxAddr n = 0x1000000 + n / 16 * 0x100000 + 0x80828 + 96 * (n % 16) := by
  have e : pgPmcL (n / 16) = 0x1000000 + n / 16 * 0x100000 + 0x80000 := rfl
  have e1 : PMC_RX_LINK_ABORT.COUNT.off = 0x828 := rfl
  have e2 : PMC_RX_LINK_ABORT.COUNT.stride = 96 := rfl
  unfold rxAddr
  rw [e, e1, e2]

/-- The words that a port slot whose link goes down may write. -/
def goneWord (n a : Nat) : Prop :=
  inPages [pgTmb, pgPmc, pgTmbP n, pgEth (n / 4) 2] a ∨
  (a = pgEth (n / 4) 0 + 0x10 ∨ a = pgEth (n / 4) 0 + ETH_LINK_STAT.PORT.off ∨ a = pgEth (n / 4) 0 + ETH_LINK_CHG.CHG.off) ∨
  a = rxAddr n ∨ a = rxAddr n + 4

/-- A port slot whose group takes a new configuration. -/
def slotDown : State := ((s.portDown n rx).setLink n 0).setPcs n 0

theorem keeps_rxLost : KeepsWords (goneWord n) s (s.rxLost n rx) :=
  .cond (.ctr _ _ _ _ _ (.inr (.inr (.inl rfl))) (.inr (.inr (.inr rfl))) fun _ ha => .inl ⟨pgPmc, by simp, ha⟩) (.refl _ s)

theorem keeps_portDown : KeepsWords (goneWord n) s (s.portDown n rx) := by
  have hc : KeepsWords (goneWord n) s (s.linkChange n) :=
    (s.keeps_linkChange n).mono fun _ h => .inr (.inl (h.imp id .inr))
  unfold portDown
  exact .cond (.after (KeepsWords.mono (pages_abortTx _ n) fun _ h => .inl (inPages_mono (by simp) _ h)) (.after (keeps_rxLost _ n rx) hc)) (.refl _ s)

theorem keeps_slotDown : KeepsWords (goneWord n) s (s.slotDown n rx) := by
  have hl (x : State) : KeepsWords (goneWord n) x (x.setLink n 0) := .put _ _ _ _ _ rfl (by decide) (.inr (.inl (.inr (.inl rfl))))
  have hp (x : State) : KeepsWords (goneWord n) x (x.setPcs n 0) := (x.keeps_setPcs' n 0).mono fun a h => by
    rw [h, Nat.add_assoc]
    refine .inl (inPages_of (by simp) ?_)
    simp only [ETH_PCS_STAT.BLOCK_LOCK]
    omega
  exact .after (hp _) (.after (hl _) (s.keeps_portDown n rx))

theorem group_slotDown : (s.slotDown n rx).buf.group = s.buf.group := by
  unfold slotDown
  rw [buf_linkShown, group_portDown]

theorem linkUp_slotDown {n : Nat} (hn : n < 128) {k : Nat} (hk : k < 128) : (s.slotDown n rx).linkUp k = if k = n then false else s.linkUp k := by
  have h : (s.portDown n rx).linkUp k = s.linkUp k := by
    by_cases hu : s.linkUp n = true
    · exact (s.portDown_ends hn rx hu).link k hk
    · exact congrArg (linkUp · k) (if_neg hu)
  unfold slotDown
  rw [linkUp_setPcs, linkUp_setLink, h]
  rfl

theorem goneWord_low {a : Nat} (hn : n < 128) (ha : 0x1000000 ≤ a) (h : goneWord n a) : a = rxAddr n ∨ a = rxAddr n + 4 := by
  have e (g i : Nat) : pgEth g i = 0x200000 + (4 * g + i) * 0x1000 := rfl
  rcases h with ⟨q, hq, h1, h2⟩ | h | h
  · have e1 : pgTmb = 0x800000 := rfl
    have e2 : pgPmc = 0x140000 := rfl
    have e3 : pgTmbP n = 0x800000 + (1 + n) * 0x1000 := rfl
    have e4 := e (n / 4) 2
    simp only [List.mem_cons, List.not_mem_nil, or_false] at hq
    omega
  · have e4 : ETH_LINK_STAT.PORT.off = 0x58 := rfl
    have e5 : ETH_LINK_CHG.CHG.off = 0x5c := rfl
    rw [e, e4, e5] at h
    omega
  · exact h

theorem strides_apart {q r p t d : Nat} (hr : r < 16) (ht : t < 16) (h : ¬ (q = p ∧ r = t)) (hd : d < 96) :
    q * 0x100000 + 96 * r ≠ p * 0x100000 + 96 * t + d := by
  rcases Nat.lt_trichotomy q p with hq | hq | hq
  · omega
  · subst hq
    omega
  · omega

theorem rxAddr_apart {k n d : Nat} (hne : k ≠ n) (hd : d < 96) : rxAddr k ≠ rxAddr n + d := by
  have h (k : Nat) : rxAddr k = k / 16 * 0x100000 + 96 * (k % 16) + 0x1080828 := by
    rw [rxAddr_eq]
    omega
  have hs := strides_apart (Nat.mod_lt k (by decide)) (Nat.mod_lt n (by decide))
    (fun h => hne (by omega) : ¬ (k / 16 = n / 16 ∧ k % 16 = n % 16)) hd
  intro hc
  rw [h k, h n, Nat.add_right_comm (n / 16 * 0x100000 + 96 * (n % 16))] at hc
  exact hs (Nat.add_right_cancel hc)

theorem rxAddr_le : 0x1000000 ≤ rxAddr n := by
  rw [rxAddr_eq]
  omega

theorem goneWord_rx {k : Nat} (hn : n < 128) (hne : k ≠ n) : ¬ goneWord n (rxAddr k) ∧ ¬ goneWord n (rxAddr k + 4) := by
  refine ⟨fun h => ?_, fun h => ?_⟩
  · exact (goneWord_low n hn (rxAddr_le k) h).elim (rxAddr_apart (d := 0) hne (by decide)) (rxAddr_apart hne (by decide))
  · exact (goneWord_low n hn (Nat.le_add_right_of_le (rxAddr_le k)) h).elim
      (fun h => rxAddr_apart (fun h => hne h.symm) (by decide : 4 < 96) h.symm)
      fun h => rxAddr_apart (d := 0) hne (by decide) (Nat.add_right_cancel h)

/-- The count of frames cut off in reception on a port. -/
def rxCount (k : Nat) : Nat := s.get (pgPmcL (k / 16)) PMC_RX_LINK_ABORT.COUNT (k % 16)

theorem rxCount_slotDown {n : Nat} (hn : n < 128) {k : Nat} (hk : k < 128) :
    (s.slotDown n rx).rxCount k = if k = n then (s.rxCount n + b2n (s.linkUp n && rx)) % 2 ^ 64 else s.rxCount k := by
  split
  next h =>
    subst h
    have hp := pages_linkShown (s.portDown k rx) k 0 0
    have hs : (s.slotDown k rx).rxCount k = (s.portDown k rx).rxCount k := by
      refine get_rxCount_of _ k hp fun o ho => ?_
      rintro ⟨q, hq, h⟩
      rcases List.mem_cons.1 hq with rfl | hq
      · exact (pmcL_off (by omega) ho (k / 4) k 0 (by omega) (by decide)).2 ⟨_, List.mem_singleton.2 rfl, h⟩
      · rw [List.mem_singleton.1 hq] at h
        exact (pmcL_off (by omega) ho (k / 4) k 2 (by omega) (by decide)).2 ⟨_, List.mem_singleton.2 rfl, h⟩
    rw [hs]
    by_cases hu : s.linkUp k = true
    · rw [hu, Bool.true_and]
      exact (s.portDown_ends hn rx hu).received
    · have hd : s.portDown k rx = s := if_neg hu
      rw [hd, Bool.eq_false_iff.2 hu, Bool.false_and, b2n_false, Nat.add_zero]
      exact (Nat.mod_eq_of_lt (get_wide_lt s _ _ _ wideRx)).symm
  next h =>
    obtain ⟨h1, h2⟩ := goneWord_rx n hn h
    exact get_wide_of_keeps (s.keeps_slotDown n rx) _ _ _ wideRx h1 h2

/-! ### The slots of a group -/

/-- The port slots `l` go down; those whose bit in `rx` is 1 have a frame in reception. -/
def slotsDown (rx : Nat) (l : List Nat) (s : State) : State := l.foldl (fun s n => s.slotDown n (rx.testBit (n % 4))) s

theorem group_slotsDown (rx : Nat) (l : List Nat) : (slotsDown rx l s).buf.group = s.buf.group :=
  (Agree.foldl (g := fun s : State => s.buf.group) (fun _ _ x => ⟨x.group_slotDown _ _⟩) (.refl s)).eq

theorem linkUp_slotsDown (rx : Nat) (l : List Nat) (hl : ∀ n ∈ l, n < 128) {k : Nat} (hk : k < 128) :
    (slotsDown rx l s).linkUp k = if k ∈ l then false else s.linkUp k := by
  unfold slotsDown
  induction l generalizing s with
  | nil => simp
  | cons n l ih =>
    rw [List.foldl_cons, ih _ fun m hm => hl m (List.mem_cons_of_mem _ hm), linkUp_slotDown _ _ (hl n List.mem_cons_self) hk]
    by_cases h : k = n
    · simp [h]
    · simp [h]

theorem rxCount_slotsDown (rx : Nat) (l : List Nat) (hl : ∀ n ∈ l, n < 128) (hd : l.Nodup) {k : Nat} (hk : k < 128) :
    (slotsDown rx l s).rxCount k = if k ∈ l then (s.rxCount k + b2n (s.linkUp k && rx.testBit (k % 4))) % 2 ^ 64 else s.rxCount k := by
  unfold slotsDown
  induction l generalizing s with
  | nil => simp
  | cons n l ih =>
    obtain ⟨hn, hd⟩ := List.nodup_cons.1 hd
    have hlt := hl n List.mem_cons_self
    rw [List.foldl_cons, ih _ (fun m hm => hl m (List.mem_cons_of_mem _ hm)) hd, linkUp_slotDown _ _ hlt hk, rxCount_slotDown _ _ hlt hk]
    by_cases h : k = n
    · subst h
      rw [if_neg hn, if_pos rfl, if_pos List.mem_cons_self]
    · simp [h]

theorem keeps_slotsDown (rx : Nat) (l : List Nat) : KeepsWords (fun a => ∃ n ∈ l, goneWord n a) s (slotsDown rx l s) :=
  .foldl (fun n hn x => (x.keeps_slotDown n _).mono fun _ h => ⟨n, hn, h⟩) (.refl _ s)

/-! ### Queues of ports that cease to exist -/

/-- Where the words lie that a discard may write. -/
theorem discardWord_range {a : Nat} {f : Fld} (hn : n < 128) (hf : f.off + 8 ≤ 0x1000) (h : discardWord (pgTmbP n) f a) :
    (0x800000 ≤ a ∧ a < 0x900000) ∨ a < 0x141000 ∨ (0x1000000 ≤ a ∧ 0x70000 ≤ a % 0x100000 ∧ a % 0x100000 < 0x71000) := by
  have e (n : Nat) : pgTmbP n = 0x800000 + (1 + n) * 0x1000 := rfl
  rcases h with (⟨q, hq, h1, h2⟩ | ⟨p, h1, h2⟩ | ⟨m, hm, h1, h2⟩) | h | h
  · have e1 : pgTmb = 0x800000 := rfl
    have e2 : pgPmc = 0x140000 := rfl
    have e3 : pgRing 34 = 0x66000 := rfl
    simp only [List.mem_cons, List.not_mem_nil, or_false] at hq
    omega
  · have e4 : pgTel p = 0x1000000 + p * 0x100000 + 0x70000 := rfl
    omega
  · rw [e] at h1 h2
    omega
  · rw [e] at h
    omega
  · rw [e] at h
    omega

theorem discardWord_eth {f : Fld} {g o : Nat} (hg : g < 32) (ho : o < 0x1000) (hn : n < 128) (hf : f.off + 8 ≤ 0x1000) :
    ¬ discardWord (pgTmbP n) f (pgEth g 0 + o) := by
  have e (g i : Nat) : pgEth g i = 0x200000 + (4 * g + i) * 0x1000 := rfl
  intro h
  have := discardWord_range n hn hf h
  rw [e] at this
  omega

theorem discardWord_rx {f : Fld} {k d : Nat} (hk : k < 128) (hn : n < 128) (hf : f.off + 8 ≤ 0x1000) (hd : d = 0 ∨ d = 4) :
    ¬ discardWord (pgTmbP n) f (rxAddr k + d) := by
  intro h
  have h := discardWord_range n hn hf h
  have e := rxAddr_eq k
  have hm : (rxAddr k + d) % 0x100000 = 0x80828 + 96 * (k % 16) + d := by
    rw [e]
    omega
  rw [hm, e] at h
  omega

/-- The queues of those of `l` that do not exist any more are discarded. -/
def ceased (l : List Nat) (s : State) : State :=
  l.foldl (fun s n => if s.portExists n then s else s.discardPort n TMB_CEASED_CNT.COUNT) s

theorem queue_raise (b k q : Nat) : (s.raise b k).queue q = s.queue q := rfl

theorem group_of_rest {s t : State} (h : Agree bufRest s t) : t.buf.group = s.buf.group := (congrArg Buf.group h.eq :)

theorem group_discardPort (f : Fld) : (s.discardPort n f).buf.group = s.buf.group := by
  rw [discardPort_eq]
  exact group_of_rest (s.rest_discardEach n f _)

theorem queue_discardPort (f : Fld) (k : Nat) : (s.discardPort n f).queue k = if k / 8 = n then [] else s.queue k := by
  rw [discardPort_eq, queue_discardEach]
  refine if_congr ⟨?_, fun h => ⟨k % 8, List.mem_range.2 (Nat.mod_lt _ (by decide)), by omega⟩⟩ rfl rfl
  rintro ⟨q, hq, rfl⟩
  have := List.mem_range.1 hq
  omega

theorem group_ceased (l : List Nat) : (ceased l s).buf.group = s.buf.group :=
  (Agree.foldl (g := fun s : State => s.buf.group) (fun n _ x => .cond (.refl x) ⟨x.group_discardPort n _⟩) (.refl s)).eq

theorem queue_ceased (l : List Nat) (k : Nat) :
    (ceased l s).queue k = if k / 8 ∈ l ∧ s.portExists (k / 8) = false then [] else s.queue k := by
  unfold ceased
  induction l generalizing s with
  | nil => simp
  | cons n l ih =>
    have hg : (if s.portExists n = true then s else s.discardPort n TMB_CEASED_CNT.COUNT).portExists (k / 8) = s.portExists (k / 8) := by
      split
      · rfl
      · exact portExists_congr (s.group_discardPort n _) _
    rw [List.foldl_cons, ih, hg]
    by_cases he : s.portExists n = true
    · rw [if_pos he]
      refine if_congr (and_congr_left fun h => ?_) rfl rfl
      rw [List.mem_cons]
      refine ⟨.inr, fun hm => hm.resolve_left fun e => ?_⟩
      rw [e, he] at h
      cases h
    · rw [if_neg he, queue_discardPort]
      by_cases hk : k / 8 = n
      · rw [if_pos hk, hk]
        simp [Bool.eq_false_iff.2 he]
      · simp [hk]

theorem keeps_ceased (l : List Nat) : KeepsWords (fun a => ∃ n ∈ l, discardWord (pgTmbP n) TMB_CEASED_CNT.COUNT a) s (ceased l s) :=
  .foldl (fun n hn x => .cond (.refl _ x) ((x.keeps_discardEach n _ (List.range 8)).mono fun _ h => ⟨n, hn, h⟩)) (.refl _ s)

theorem Within.eq_ioBufTel {s t : State} (h : s.Within (ioParts ++ [.buf, .tel]) t) : t = { s with io := t.io, buf := t.buf, tel := t.tel } := h.eq

/-! ### APPLY -/

/-- The configuration that a group adopts. -/
def newGroup (g map : Nat) : Group :=
  { mode := s.get (pgEth g 0) ETH_GRP_CFG.MODE, iface := s.get (pgEth g 0) ETH_GRP_CFG.IFACE,
    pol := s.get (pgEth g 0) ETH_LANE_POL.RX_INV + 16 * s.get (pgEth g 0) ETH_LANE_POL.TX_INV, map := map }

def adoptGroup (g map : Nat) : State := { s with buf := { s.buf with group := s.buf.group.set {} g (s.newGroup g map) } }

/-- The port slots of a group. -/
def slots (g : Nat) : List Nat := (List.range 4).map (4 * g + ·)

theorem mem_slots {g k : Nat} : k ∈ slots g ↔ k / 4 = g := by
  unfold slots
  rw [List.mem_map]
  refine ⟨?_, fun h => ⟨k % 4, List.mem_range.2 (Nat.mod_lt _ (by decide)), by omega⟩⟩
  rintro ⟨j, hj, rfl⟩
  have := List.mem_range.1 hj
  omega

theorem nodup_slots (g : Nat) : (slots g).Nodup :=
  List.Nodup.map (fun _ _ h => Nat.add_left_cancel h) List.nodup_range

theorem laneMap_parts (g : Nat) : (s.get (pgEth g 0) ETH_LANE_MAP.RX_MAP + 256 * s.get (pgEth g 0) ETH_LANE_MAP.TX_MAP) % 256
      = s.get (pgEth g 0) ETH_LANE_MAP.RX_MAP ∧
    (s.get (pgEth g 0) ETH_LANE_MAP.RX_MAP + 256 * s.get (pgEth g 0) ETH_LANE_MAP.TX_MAP) / 256 = s.get (pgEth g 0) ETH_LANE_MAP.TX_MAP := by
  have h : s.get (pgEth g 0) ETH_LANE_MAP.RX_MAP < 256 := Io.get_lt _ _ _ _ rfl (by decide)
  omega

theorem groupApply_adopts {g m rx : Nat} (h1 : laneMapOk (s.get (pgEth g 0) ETH_LANE_MAP.RX_MAP) = true)
    (h2 : laneMapOk (s.get (pgEth g 0) ETH_LANE_MAP.TX_MAP) = true) :
    ∃ map, s.groupApply g m rx = ceased ((slots g).filter s.portExists) ((slotsDown rx (slots g) s).adoptGroup g map) := by
  obtain ⟨e1, e2⟩ := s.laneMap_parts g
  refine ⟨s.get (pgEth g 0) ETH_LANE_MAP.RX_MAP + 256 * s.get (pgEth g 0) ETH_LANE_MAP.TX_MAP, if_neg ?_⟩
  rw [e1, e2, h1, h2]
  decide

theorem groupApply_refuses {g m rx : Nat} (h : laneMapOk (s.get (pgEth g 0) ETH_LANE_MAP.RX_MAP) = false ∨
    laneMapOk (s.get (pgEth g 0) ETH_LANE_MAP.TX_MAP) = false) : s.groupApply g m rx = s.err (pgEth g 0) 3 m 0x044 := by
  obtain ⟨e1, e2⟩ := s.laneMap_parts g
  refine if_pos ?_
  rw [e1, e2]
  rcases h with h | h <;> rw [h] <;> simp

theorem adopt_keeps (g map : Nat) : (s.adoptGroup g map).io = s.io ∧ (s.adoptGroup g map).buf.queues = s.buf.queues ∧
    (s.adoptGroup g map).buf.group.get {} g = s.newGroup g map ∧ ∀ k, k ≠ g → (s.adoptGroup g map).buf.group.get {} k = s.buf.group.get {} k :=
  ⟨rfl, rfl, SMap.get_set_same _ _ _ _, fun _ hk => SMap.get_set_ne _ _ _ _ hk⟩

theorem rxCount_adopt (g map k : Nat) : (s.adoptGroup g map).rxCount k = s.rxCount k := by
  unfold rxCount
  rw [State.get_eq, State.get_eq, (s.adopt_keeps g map).1]

theorem mode_newGroup (g map : Nat) : (s.newGroup g map).mode = s.get (pgEth g 0) ETH_GRP_CFG.MODE := rfl

/-- The mode of the group that its registers ask for stands while its slots go down. -/
theorem mode_slotsDown {g rx : Nat} (hg : g < 32) :
    (slotsDown rx (slots g) s).get (pgEth g 0) ETH_GRP_CFG.MODE = s.get (pgEth g 0) ETH_GRP_CFG.MODE := by
  refine State.get_of_rd _ _ _ rfl (by decide) (keeps_slotsDown s rx (slots g) _ ?_)
  rintro ⟨n, hn, h⟩
  rw [mem_slots] at hn
  have e (g i : Nat) : pgEth g i = 0x200000 + (4 * g + i) * 0x1000 := rfl
  have e0 : ETH_GRP_CFG.MODE.off = 0x40 := rfl
  have e1 : ETH_GRP_CFG.MODE.stride * 0 = 0 := rfl
  rw [e0, e1, Nat.add_zero] at h
  rcases h with ⟨q, hq, h1, h2⟩ | h | h
  · have e1 : pgTmb = 0x800000 := rfl
    have e2 : pgPmc = 0x140000 := rfl
    have e3 : pgTmbP n = 0x800000 + (1 + n) * 0x1000 := rfl
    have e4 := e (n / 4) 2
    rw [e] at h1 h2
    simp only [List.mem_cons, List.not_mem_nil, or_false] at hq
    omega
  · have e4 : ETH_LINK_STAT.PORT.off = 0x58 := rfl
    have e5 : ETH_LINK_CHG.CHG.off = 0x5c := rfl
    rw [hn, e4, e5] at h
    omega
  · have := rxAddr_le n
    rw [e] at h
    omega

end State

section
variable {s : State} {m : Master} {g : Fin 32} {rx : BitVec 4} (hon : s.on = true)
  (ht : s.takesWrite m.id (pgEth g.val 0 + ETH_GRP_CTL.APPLY.off) = true)
include ht

theorem groupApplyBy_eq : s.groupApplyBy m.id g.val rx.toNat = s.groupApply g.val m.id rx.toNat := by
  unfold State.groupApplyBy
  dsimp only
  rw [if_pos ht, State.fabCount_none _ _ _ (pipeOfAddr_eth g.isLt (by decide) (by decide))]

include hon

theorem groupApply_refused (h : laneMapOk (s.get (pgEth g.val 0) ETH_LANE_MAP.RX_MAP) = false ∨
    laneMapOk (s.get (pgEth g.val 0) ETH_LANE_MAP.TX_MAP) = false) : Completes (.groupApply m g rx) s (fun t =>
      t.get (pgEth g.val 0) PG_ERR_CNT.COUNT = min (2 ^ 32 - 1) (s.get (pgEth g.val 0) PG_ERR_CNT.COUNT + 1) ∧
      OnlyRegs s t ∧ KeepsWords (fun a => a = pgEth g.val 0 + 0x1C ∨ a = pgEth g.val 0 + 0x20) s t) :=
  .live_eq (f := fun s => s.groupApplyBy m.id g.val rx.toNat) rfl hon ((groupApplyBy_eq ht).trans (s.groupApply_refuses h)) rfl
    (s.err_counted _ 3 m.id 0x044)

theorem groupApply_applies (h1 : laneMapOk (s.get (pgEth g.val 0) ETH_LANE_MAP.RX_MAP) = true)
    (h2 : laneMapOk (s.get (pgEth g.val 0) ETH_LANE_MAP.TX_MAP) = true) : Completes (.groupApply m g rx) s (fun t =>
      t.mode g.val = s.get (pgEth g.val 0) ETH_GRP_CFG.MODE ∧
      (∀ k, k ≠ g.val → t.buf.group.get {} k = s.buf.group.get {} k) ∧
      (∀ j : Fin 4, t.linkUp (4 * g.val + j.val) = false ∧
        t.get (pgPmcL (g.val / 4)) PMC_RX_LINK_ABORT.COUNT ((4 * g.val + j.val) % 16)
          = (s.get (pgPmcL (g.val / 4)) PMC_RX_LINK_ABORT.COUNT ((4 * g.val + j.val) % 16) +
              b2n (s.linkUp (4 * g.val + j.val) && tb rx j.val)) % 2 ^ 64 ∧
        (s.portExists (4 * g.val + j.val) = true → t.portExists (4 * g.val + j.val) = false →
          ∀ q : Fin 8, t.queue (8 * (4 * g.val + j.val) + q.val) = [])) ∧
      t = { s with io := t.io, buf := t.buf, tel := t.tel }) := by
  obtain ⟨map, he⟩ := s.groupApply_adopts (m := m.id) (rx := rx.toNat) h1 h2
  have hw := State.within_groupApply s g.val m.id rx.toNat
  generalize hx : State.slotsDown rx.toNat (State.slots g.val) s = x at he
  have hsl : ∀ n ∈ State.slots g.val, n < 128 := fun n hn => by
    have := State.mem_slots.1 hn
    have := g.isLt
    omega
  obtain ⟨ha, hq, hgg, hgk⟩ := x.adopt_keeps g.val map
  have hgrp : x.buf.group = s.buf.group := by rw [← hx, State.group_slotsDown]
  have hk := State.keeps_ceased (x.adoptGroup g.val map) ((State.slots g.val).filter s.portExists)
  have hcg := State.group_ceased (x.adoptGroup g.val map) ((State.slots g.val).filter s.portExists)
  have hcq := State.queue_ceased (x.adoptGroup g.val map) ((State.slots g.val).filter s.portExists)
  have hlt : ∀ n ∈ (State.slots g.val).filter s.portExists, n < 128 := fun n hn => hsl n (List.mem_of_mem_filter hn)
  rw [← he] at hk hcg hcq
  refine .live_eq (f := fun s => s.groupApplyBy m.id g.val rx.toNat) rfl hon (groupApplyBy_eq ht) (hw.same .pending (by decide))
    ⟨?_, fun k hne => ?_, fun j => ⟨?_, ?_, fun hex hnx q => ?_⟩, State.Within.eq_ioBufTel (hw.mono (by decide))⟩
  · unfold State.mode
    rw [hcg, hgg, State.mode_newGroup, ← hx, s.mode_slotsDown g.isLt]
  · rw [hcg, hgk k hne, hgrp]
  · have hj : 4 * g.val + j.val < 128 := by omega
    have h : (s.groupApply g.val m.id rx.toNat).linkUp (4 * g.val + j.val) = x.linkUp (4 * g.val + j.val) := by
      refine State.linkUp_congr ((hk _ ?_).trans (by rw [ha]))
      rintro ⟨n, hn, h⟩
      exact State.discardWord_eth n (by omega) (by decide) (hlt n hn) (by decide) h
    rw [h, ← hx, State.linkUp_slotsDown s _ _ hsl hj, if_pos (State.mem_slots.2 (by omega))]
  · have hj : 4 * g.val + j.val < 128 := by omega
    have h : (s.groupApply g.val m.id rx.toNat).rxCount (4 * g.val + j.val) = x.rxCount (4 * g.val + j.val) := by
      rw [← x.rxCount_adopt g.val map]
      refine State.get_wide_of_keeps hk _ _ _ State.wideRx ?_ ?_
      · rintro ⟨n, hn, h⟩
        exact State.discardWord_rx n (d := 0) hj (hlt n hn) (by decide) (.inl rfl) h
      · rintro ⟨n, hn, h⟩
        exact State.discardWord_rx n (d := 4) hj (hlt n hn) (by decide) (.inr rfl) h
    rw [← hx, State.rxCount_slotsDown s _ _ hsl (State.nodup_slots _) hj, if_pos (State.mem_slots.2 (by omega))] at h
    have e1 : (4 * g.val + j.val) / 16 = g.val / 4 := by omega
    have e2 : (4 * g.val + j.val) % 4 = j.val := by omega
    unfold State.rxCount at h
    rw [e1, e2] at h
    exact h
  · rw [hcq, if_pos]
    have e : (8 * (4 * g.val + j.val) + q.val) / 8 = 4 * g.val + j.val := by omega
    rw [e]
    refine ⟨List.mem_filter.2 ⟨State.mem_slots.2 (by omega), hex⟩, ?_⟩
    rw [← hnx]
    exact (State.portExists_congr hcg _).symm

end

/-! ### HOLD_MS after a link went down -/

section
variable {s : State} {n : Fin 128}

theorem offFlush (b : Nat) : b + TMB_LINKDOWN_FLUSH_CNT.COUNT.off + TMB_LINKDOWN_FLUSH_CNT.COUNT.stride * 0 = b + 0x210 := rfl

theorem linkHold_flushes (hon : s.on = true) (hd : s.linkUp n.val = false) (hq : ∃ q : Fin 8, s.queue (8 * n.val + q.val) ≠ []) :
    Completes (.linkHoldExpire n) s (fun t =>
        (∀ q : Fin 8, t.queue (8 * n.val + q.val) = []) ∧ (∀ k, k / 8 ≠ n.val → t.queue k = s.queue k) ∧
        t.io.cause (pgTmbP n.val) 1 = true ∧
        t.get (pgTmbP n.val) TMB_LINKDOWN_FLUSH_CNT.COUNT = (s.get (pgTmbP n.val) TMB_LINKDOWN_FLUSH_CNT.COUNT +
          ((List.range 8).map fun q => (s.queue (8 * n.val + q)).length).sum) % 2 ^ 64 ∧
        t = { s with io := t.io, buf := t.buf, tel := t.tel }) := by
  have hne : ¬ ((List.range 8).all fun q => (s.queue (8 * n.val + q)).isEmpty) = true := by
    rw [List.all_eq_true]
    obtain ⟨q, hq⟩ := hq
    exact fun h => hq (List.isEmpty_iff.1 (h q (List.mem_range.2 q.isLt)))
  have hc := State.counts_port n.isLt (f := TMB_LINKDOWN_FLUSH_CNT.COUNT) ⟨rfl, rfl, rfl⟩ (by decide)
  have he : (if s.linkUp n.val = true then s else s.linkFlush n.val)
      = (s.discardPort n.val TMB_LINKDOWN_FLUSH_CNT.COUNT).raise (pgTmbP n.val) 1 :=
    (if_neg (by simp [hd])).trans (if_neg hne)
  have hw := State.within_linkFlush s n.val
  have hl : s.linkFlush n.val = (s.discardPort n.val TMB_LINKDOWN_FLUSH_CNT.COUNT).raise (pgTmbP n.val) 1 := if_neg hne
  rw [hl] at hw
  refine .live_eq (f := fun s => if s.linkUp n.val = true then s else s.linkFlush n.val) rfl hon he (hw.same .pending (by decide))
    ⟨fun q => ?_, fun k hk => ?_, State.cause_raise _ _ (by decide), ?_, State.Within.eq_ioBufTel (hw.mono (by decide))⟩
  · rw [State.queue_raise, s.queue_discardPort, if_pos (by omega)]
  · rw [State.queue_raise, s.queue_discardPort, if_neg hk]
  · rw [State.discardPort_eq, ← s.get_discardEach hc (List.range 8) List.nodup_range]
    refine State.get_wide_of_keeps (p := (· = pgTmbP n.val + 0x10)) (.raise _ _ _ rfl) _ _ _ hc.wide ?_ ?_
    · rw [offFlush]
      omega
    · rw [offFlush]
      omega

theorem linkHold_idle (h : s.linkUp n.val = true ∨ ∀ q : Fin 8, s.queue (8 * n.val + q.val) = []) : NoEffect (.linkHoldExpire n) s := by
  refine .live (f := fun s => if s.linkUp n.val = true then s else s.linkFlush n.val) rfl ?_
  by_cases hu : s.linkUp n.val = true
  · exact if_pos hu
  · refine (if_neg hu).trans (if_pos (List.all_eq_true.2 fun q hq => List.isEmpty_iff.2 ?_))
    exact h.resolve_left hu ⟨q, List.mem_range.1 hq⟩

end

/-- Settles O25. -/
theorem groupAndHold : Obligations.GroupAndHold :=
  fun _ hon => ⟨fun _ _ _ ht => ⟨groupApply_applies hon ht, groupApply_refused hon ht⟩, fun _ => linkHold_flushes hon, fun _ => linkHold_idle⟩

end Sys2Proof.Machine
end

section
/-!
SUPPORT. Flush and watermark writes, token refills, gate lists (R303, R310, R312, R326, R331).
-/
namespace Sys2Proof.Machine

/-! ### Writes of a port's buffer page -/

theorem regAt_flush : ∃ h, Kind.tmbp.regAt TMB_Q_FLUSH.FLUSH.off = some h := ⟨_, rfl⟩
theorem regAt_high (q : Fin 8) : ∃ h, Kind.tmbp.regAt (TMB_Q_HIGH.HIGH.off + 16 * q.val) = some h ∧ h.i = q.val := by
  have hall : ∀ q : Fin 8, (Kind.tmbp.regAt (TMB_Q_HIGH.HIGH.off + 16 * q.val)).map (·.i) = some q.val := by decide
  simpa using hall q
theorem regAt_low : ∃ h, Kind.tmb0.regAt TMB_FREE_LOW.LOW.off = some h := ⟨_, rfl⟩

theorem pgTmbP_eq (n : Nat) : pgTmbP n = 0x800000 + (1 + n) * 0x1000 := rfl

theorem pipeOfAddr_tmbP {n o : Nat} (hn : n < 128) (ho : o < 0x1000) : pipeOfAddr (pgTmbP n + o) = none :=
  pipeOfAddr_low (by have := pgTmbP_eq n; omega)

theorem fabricWrite_flush {s : State} {m n v : Nat} (hn : n < 128) (ht : s.takesWrite m (pgTmbP n + TMB_Q_FLUSH.FLUSH.off) = true) :
    s.fabricWrite m (pgTmbP n + TMB_Q_FLUSH.FLUSH.off) v = s.swFlush n v := by
  obtain ⟨h, hh⟩ := regAt_flush
  have ho : pgTmbP n + TMB_Q_FLUSH.FLUSH.off - pgTmbP n = TMB_Q_FLUSH.FLUSH.off := Nat.add_sub_cancel_left _ _
  refine (State.fabricWrite_body ht (pageOf_tmbP hn (by decide)) (by simp) (by rw [ho]; exact hh) (by rw [ho]; decide)
    (pipeOfAddr_tmbP hn (by decide))).trans ?_
  dsimp only
  rw [ho]
  rfl

theorem fabricWrite_high {s : State} {m n v : Nat} (hn : n < 128) (q : Fin 8) (ht : s.takesWrite m (pgTmbP n + TMB_Q_HIGH.HIGH.off + 16 * q.val) = true) :
    s.fabricWrite m (pgTmbP n + TMB_Q_HIGH.HIGH.off + 16 * q.val) v = s.highWrite n q.val v := by
  obtain ⟨h, hh, hi⟩ := regAt_high q
  have hlt : TMB_Q_HIGH.HIGH.off + 16 * q.val < 0xC0 := by
    simp only [TMB_Q_HIGH.HIGH]
    omega
  have hle : 0x40 ≤ TMB_Q_HIGH.HIGH.off + 16 * q.val := Nat.le_add_right_of_le (by decide)
  have h12 : (TMB_Q_HIGH.HIGH.off + 16 * q.val) % 16 = 12 := by
    simp only [TMB_Q_HIGH.HIGH]
    omega
  rw [Nat.add_assoc] at ht ⊢
  generalize TMB_Q_HIGH.HIGH.off + 16 * q.val = o at ht hh hlt hle h12
  have ho : pgTmbP n + o - pgTmbP n = o := Nat.add_sub_cancel_left _ _
  refine (State.fabricWrite_body ht (pageOf_tmbP hn (by omega)) (by simp) (by rw [ho]; exact hh) (by rw [ho]; exact hle)
    (pipeOfAddr_tmbP hn (by omega))).trans ?_
  dsimp only
  rw [ho]
  have hw : s.wBody ⟨.tmbp, n, pgTmbP n⟩ h o m v = s.wBuf ⟨.tmbp, n, pgTmbP n⟩ h o m v := rfl
  rw [hw]
  unfold State.wBuf
  dsimp only
  rw [if_neg (by omega), if_neg (by omega), if_neg (by omega), if_pos h12, hi]

theorem fabricWrite_low {s : State} {m v : Nat} (ht : s.takesWrite m (pgTmb + TMB_FREE_LOW.LOW.off) = true) :
    s.fabricWrite m (pgTmb + TMB_FREE_LOW.LOW.off) v = s.lowWrite v := by
  obtain ⟨h, hh⟩ := regAt_low
  have ho : pgTmb + TMB_FREE_LOW.LOW.off - pgTmb = TMB_FREE_LOW.LOW.off := Nat.add_sub_cancel_left _ _
  have hp : pageOf (pgTmb + TMB_FREE_LOW.LOW.off) = some ⟨.tmb0, 0, pgTmb⟩ := pageOf_tmbRegion (i := 0) (by decide) (by decide)
  refine (State.fabricWrite_body ht hp (by simp) (by rw [ho]; exact hh) (by rw [ho]; decide) (pipeOfAddr_low (by decide))).trans ?_
  dsimp only
  rw [ho]
  rfl

/-! ### The flush -/

theorem swFlush_eq (s : State) (n mask : Nat) : s.swFlush n mask = State.discardEach n TMB_SWFLUSH_CNT.COUNT (onesOf 8 mask) s := rfl

theorem sum_onesOf (f : Nat → Nat) (n v : Nat) : ((onesOf n v).map f).sum = ((List.range n).map fun i => if v.testBit i then f i else 0).sum := by
  unfold onesOf
  induction List.range n with
  | nil => rfl
  | cons i l ih =>
    rw [List.filter_cons]
    split
    next h => rw [List.map_cons, List.sum_cons, ih, List.map_cons, List.sum_cons, if_pos h]
    next h => rw [ih, List.map_cons, List.sum_cons, if_neg h, Nat.zero_add]

section
variable {s : State} {m : Master} (hon : s.on = true)
include hon

theorem qFlush_discards (n : Fin 128) (mask : BitVec 8) (ht : s.takesWrite m.id (pgTmbP n.val + TMB_Q_FLUSH.FLUSH.off) = true) :
    Completes (.qFlush m n mask) s (fun t =>
      (∀ q : Fin 8, t.queue (8 * n.val + q.val) = if mask.toNat.testBit q.val then [] else s.queue (8 * n.val + q.val)) ∧
      (∀ k, k / 8 ≠ n.val → t.queue k = s.queue k) ∧
      t.get (pgTmbP n.val) TMB_SWFLUSH_CNT.COUNT = (s.get (pgTmbP n.val) TMB_SWFLUSH_CNT.COUNT +
        ((List.range 8).map fun q => if mask.toNat.testBit q then (s.queue (8 * n.val + q)).length else 0).sum) % 2 ^ 64 ∧
      t = { s with io := t.io, buf := t.buf, tel := t.tel }) := by
  have hw := State.within_swFlush s n.val mask.toNat
  have hc := State.counts_port n.isLt (f := TMB_SWFLUSH_CNT.COUNT) ⟨rfl, rfl, rfl⟩ (by decide)
  have hq (k : Nat) := s.queue_discardEach n.val TMB_SWFLUSH_CNT.COUNT (onesOf 8 mask.toNat) k
  have hg := s.get_discardEach hc (onesOf 8 mask.toNat) (nodup_onesOf 8 mask.toNat)
  rw [sum_onesOf] at hg
  rw [← swFlush_eq] at hq hg
  refine .live_eq (f := fun s => s.fabricWrite m.id (pgTmbP n.val + TMB_Q_FLUSH.FLUSH.off) mask.toNat) rfl hon (fabricWrite_flush n.isLt ht)
    (hw.same .pending (by decide)) ⟨fun q => ?_, fun k hk => ?_, hg, State.Within.eq_ioBufTel (hw.mono (by decide))⟩
  · rw [hq]
    refine if_congr ⟨?_, fun h => ⟨q.val, mem_onesOf.2 ⟨q.isLt, h⟩, rfl⟩⟩ rfl rfl
    rintro ⟨j, hj, h⟩
    rw [Nat.add_left_cancel h]
    exact (mem_onesOf.1 hj).2
  · rw [hq, if_neg]
    rintro ⟨j, hj, rfl⟩
    have := (mem_onesOf.1 hj).1
    omega

theorem highWatermark_takes (n : Fin 128) (q : Fin 8) (v : W32) (ht : s.takesWrite m.id (pgTmbP n.val + TMB_Q_HIGH.HIGH.off + 16 * q.val) = true) :
    Completes (.watermarkWrite m (some (n, q)) v) s (fun t =>
      t.get (pgTmbP n.val) TMB_Q_HIGH.HIGH q.val = max (v.toNat % 2 ^ 19) (s.get (pgTmbP n.val) TMB_Q_OCC.CELLS q.val) ∧
      OnlyRegs s t ∧ KeepsWords (· = pgTmbP n.val + TMB_Q_HIGH.HIGH.off + 16 * q.val) s t) := by
  have ho : s.occ (8 * n.val + q.val) = s.get (pgTmbP n.val) TMB_Q_OCC.CELLS q.val := by
    unfold State.occ
    rw [if_pos (by omega), show (8 * n.val + q.val) / 8 = n.val by omega, show (8 * n.val + q.val) % 8 = q.val by omega]
  have he : s.highWrite n.val q.val v.toNat
      = s.put (pgTmbP n.val) TMB_Q_HIGH.HIGH (max (v.toNat % 2 ^ 19) (s.get (pgTmbP n.val) TMB_Q_OCC.CELLS q.val)) q.val := by
    unfold State.highWrite
    rw [ho]
  refine .live_eq (f := fun s => s.fabricWrite m.id (pgTmbP n.val + TMB_Q_HIGH.HIGH.off + 16 * q.val) v.toNat) rfl hon
    ((fabricWrite_high n.isLt q ht).trans he) rfl ⟨?_, .put _ _ _ _ _ rfl, .put _ _ _ _ _ rfl (by decide) rfl⟩
  refine (State.get_put_same _ _ _ _ _ rfl (by decide)).trans (Nat.mod_eq_of_lt (Nat.max_lt.2 ⟨Nat.mod_lt _ (by decide), ?_⟩))
  exact Io.get_lt _ _ _ _ rfl (by decide)

theorem lowWatermark_takes (v : W32) (ht : s.takesWrite m.id (pgTmb + TMB_FREE_LOW.LOW.off) = true) :
    Completes (.watermarkWrite m none v) s (fun t =>
      t.get pgTmb TMB_FREE_LOW.LOW = min (v.toNat % 2 ^ 19) (s.get pgTmb TMB_POOL_STAT.FREE) ∧
      OnlyRegs s t ∧ KeepsWords (· = pgTmb + TMB_FREE_LOW.LOW.off) s t) := by
  refine .live_eq (f := fun s => s.fabricWrite m.id (pgTmb + TMB_FREE_LOW.LOW.off) v.toNat) rfl hon (fabricWrite_low ht) rfl
    ⟨?_, .put _ _ _ _ _ rfl, .put _ _ _ _ _ rfl (by decide) rfl⟩
  refine (State.get_put_same _ _ _ _ _ rfl (by decide)).trans (Nat.mod_eq_of_lt ?_)
  exact Nat.lt_of_le_of_lt (Nat.min_le_left _ _) (Nat.mod_lt _ (by decide))

end

/-! ### Refills -/

namespace State

variable (s : State)

/-- The buckets `l` are refilled. -/
def refillBuckets (l : List Nat) (s : State) : State := l.foldl (fun s k => s.refillBucket k) s

theorem bucket_setBucket (k : Nat) (b : Bucket) (j : Nat) : (s.setBucket k b).bucket j = if j = k then b else s.bucket j := by
  unfold bucket setBucket
  split
  next h => rw [h]; exact SMap.get_set_same _ _ _ _
  next h => exact SMap.get_set_ne _ _ _ _ h

/-- A bucket is refilled once by a list that names it once, under the settings that stand all the while. -/
theorem bucket_refillBuckets (l : List Nat) (k : Nat) (h : k ∉ l ∨ l.Nodup) : (refillBuckets l s).bucket k
    = if k ∈ l then (s.bucket k).refill (s.io.bucketCfg k).1 (s.io.bucketCfg k).2 else s.bucket k := by
  unfold refillBuckets
  induction l generalizing s with
  | nil => simp
  | cons j l ih =>
    have hio : (s.refillBucket j).io = s.io := rfl
    have hl : k ∉ l ∨ l.Nodup := h.imp (fun h hm => h (List.mem_cons_of_mem _ hm)) fun h => (List.nodup_cons.1 h).2
    rw [List.foldl_cons, ih _ hl, hio]
    unfold refillBucket
    rw [bucket_setBucket]
    by_cases hk : k = j
    · subst hk
      have hn : k ∉ l := h.elim (fun h => absurd List.mem_cons_self h) fun h => (List.nodup_cons.1 h).1
      rw [if_neg hn, if_pos rfl, if_pos List.mem_cons_self]
    · simp [hk]

theorem refillBuckets_append (l l' : List Nat) : refillBuckets (l ++ l') s = refillBuckets l' (refillBuckets l s) := List.foldl_append

/-- The buckets alone changed. -/
theorem refillBuckets_frame (l : List Nat) : ∃ b, refillBuckets l s = { s with buf := { s.buf with bucket := b } } := by
  unfold refillBuckets
  induction l generalizing s with
  | nil => exact ⟨_, rfl⟩
  | cons j l ih =>
    obtain ⟨b, hb⟩ := ih (s.refillBucket j)
    exact ⟨b, hb⟩

theorem policers_frame (b : Nat) (l : List Nat) :
    ∃ p, l.foldl (fun s k => s.setPolicer k ((s.policer k).refill b)) s = { s with buf := { s.buf with policer := p } } := by
  induction l generalizing s with
  | nil => exact ⟨_, rfl⟩
  | cons j l ih =>
    obtain ⟨p, hp⟩ := ih (s.setPolicer j ((s.policer j).refill b))
    exact ⟨p, hp⟩

theorem refillAll_frame : ∃ p, s.refillAll = { refillBuckets s.bucketKeys s with buf := { (refillBuckets s.bucketKeys s).buf with policer := p } } :=
  policers_frame _ _ _

end State

theorem nodup_portBuckets (n : Nat) (hn : n < 128) : (portBuckets n).Nodup := by
  have h : portBuckets n = [32 * n, 32 * n + 1, 32 * n + 4, 32 * n + 5, 32 * n + 8, 32 * n + 9, 32 * n + 12, 32 * n + 13, 32 * n + 16,
      32 * n + 17, 32 * n + 20, 32 * n + 21, 32 * n + 24, 32 * n + 25, 32 * n + 28, 32 * n + 29, 4096 + 2 * n, 4096 + 2 * n + 1] := by
    unfold portBuckets qBucket pBucket
    simp [List.range_succ]
    omega
  rw [h]
  simp
  omega

theorem mem_portBuckets {n k : Nat} (h : k ∈ portBuckets n) : (k < 32 * n + 32 ∧ 32 * n ≤ k) ∨ (4096 + 2 * n ≤ k ∧ k < 4096 + 2 * n + 2) := by
  unfold portBuckets qBucket pBucket at h
  simp [List.range_succ] at h
  omega

theorem mem_shpPorts {s : Io} {n : Nat} (h : n ∈ s.shpPorts) : n < 128 := List.mem_range.1 (List.mem_of_mem_filter h)

theorem nodup_settings (s : Io) : (s.shpPorts.flatMap portBuckets).Nodup := by
  refine List.nodup_flatMap.2 ⟨fun n hn => nodup_portBuckets n (mem_shpPorts hn), ?_⟩
  have hd : s.shpPorts.Nodup := List.nodup_range.filter _
  refine hd.imp_of_mem fun {a b} ha hb hab => ?_
  intro k hk1 hk2
  have h1 := mem_portBuckets hk1
  have h2 := mem_portBuckets hk2
  have := mem_shpPorts ha
  have := mem_shpPorts hb
  omega

/-- A bucket of a port with settings is refilled once (R312). -/
theorem State.bucket_bucketKeys (s : State) {n k : Nat} (hn : n ∈ s.io.shpPorts) (hk : k ∈ portBuckets n) :
    (refillBuckets s.bucketKeys s).bucket k = (s.bucket k).refill (s.io.bucketCfg k).1 (s.io.bucketCfg k).2 := by
  have hm : k ∈ s.io.shpPorts.flatMap portBuckets := List.mem_flatMap.2 ⟨n, hn, hk⟩
  have hr : k ∉ s.buf.bucket.keys.filter fun j => !((s.io.shpPorts.flatMap portBuckets).contains j) := by
    rw [List.mem_filter]
    rintro ⟨_, h⟩
    simp [hm] at h
  unfold bucketKeys
  dsimp only
  rw [refillBuckets_append, bucket_refillBuckets _ _ _ (.inl hr), if_neg hr, bucket_refillBuckets _ _ _ (.inr (nodup_settings s.io)), if_pos hm]

section
variable {s : State} (hon : s.on = true)

/-- The state with no refill due any more. -/
def State.noRefill (s : State) : State := s.upIo fun io => { io with time := { io.time with due := { io.time.due with refill := 0 } } }

theorem State.bucketCfg_noRefill (s : State) (k : Nat) : s.noRefill.io.bucketCfg k = s.io.bucketCfg k := rfl

include hon in
theorem tokenRefill_refills (hd : s.io.time.due.refill = 1) : Completes .tokenRefill s (fun t =>
    (∀ n ∈ s.io.shpPorts, ∀ k ∈ portBuckets n, t.bucket k = (s.bucket k).refill (s.io.bucketCfg k).1 (s.io.bucketCfg k).2) ∧
    t.io.time.due.refill = 0 ∧ t.io.regs = s.io.regs ∧
    t = { s with io := { s.io with time := t.io.time }, buf := { s.buf with bucket := t.buf.bucket, policer := t.buf.policer } }) := by
  have he : s.tokenRefill = s.noRefill.refillAll := by
    have hr : s.reach s.io.time.due.refill 64 = s := if_neg (by rw [hd]; decide)
    unfold State.tokenRefill
    rw [hr]
    unfold State.refillDue
    dsimp only
    rw [hd]
    rfl
  obtain ⟨p, hp⟩ := s.noRefill.refillAll_frame
  obtain ⟨b, hb⟩ := s.noRefill.refillBuckets_frame s.noRefill.bucketKeys
  have hk (n k : Nat) (hn : n ∈ s.io.shpPorts) (hk : k ∈ portBuckets n) := s.noRefill.bucket_bucketKeys (n := n) (k := k) hn hk
  generalize State.refillBuckets s.noRefill.bucketKeys s.noRefill = x at hp hb hk
  subst hb
  refine .live_eq (f := fun s => s.tokenRefill) rfl hon (he.trans hp) rfl ⟨fun n hn k hk' => ?_, rfl, rfl, rfl⟩
  exact (hk n k hn hk').trans (by rw [State.bucketCfg_noRefill]; rfl)

/-! ### Gate lists -/

theorem gateChange_none {n : Fin 128} (h : (s.operList n.val).en = false) : NoEffect (.gateChange n) s := by
  refine .live (f := fun s => s.gateStep n.val) rfl ?_
  unfold State.gateStep
  dsimp only
  rw [h]
  rfl

theorem State.passNs_passed (s : State) (n : Nat) : ∃ d, Io.Passed d s.io (s.passNs n).io ∧ (s.io.tickInc ≠ 0 → n ≤ d) := s.io.waitNs_passed n _

theorem State.onlyIo_passNs (s : State) (n : Nat) : OnlyIo s (s.passNs n) := .of_within ((within_passNs s n).mono (by decide))

include hon

theorem gateChange_waits {n : Fin 128} {g left : Nat} {l : List (Nat × Nat)} (he : (s.operList n.val).en = true)
    (hd : dropTime (s.operList n.val).cut ((s.operList n.val).pos s.io.time.ns) = (g, left) :: l) (hi : s.io.tickInc ≠ 0) :
    Completes (.gateChange n) s (fun t =>
      s.io.time.counted + left ≤ t.io.time.counted ∧ t.io.time.ns - s.io.time.ns = t.io.time.counted - s.io.time.counted ∧ OnlyIo s t) := by
  have h : s.gateStep n.val = s.passNs left := by
    unfold State.gateStep
    dsimp only
    rw [he, hd]
    rfl
  obtain ⟨d, hp, hle⟩ := s.passNs_passed left
  have hn := hp.ns
  have hc := hp.counted
  have := hle hi
  have ho := s.onlyIo_passNs left
  exact .live_eq (f := fun s => s.gateStep n.val) rfl hon h (by rw [ho]) ⟨by omega, by omega, ho⟩

end

/-! ### A list comes into force -/

theorem pgTgtP_eq (n : Nat) : pgTgtP n = 0xE00000 + (1 + n) * 0x1000 := rfl

/-- The words that a list in force writes behind the length of its cycle: its base, its windows, and the ports whose gates run. -/
def operWord (n a : Nat) : Prop := (pgTgtP n + 0x68 ≤ a ∧ a < pgTgtP n + 0xA0) ∨ inPage pgTgt a

namespace State

variable (s : State) (n : Nat) (l : GateList)

/-- A list in force, but for what follows its cycle in the registers. -/
def enforced : State :=
  ((({ s with buf := { s.buf with oper := s.buf.oper.set {} n l } } : State).put (pgTgtP n) TGT_OPER_CFG.EN (b2n l.en)).put (pgTgtP n)
    TGT_OPER_CFG.LEN l.entries.length).put (pgTgtP n) TGT_OPER_CYCLE.NS l.cycle

theorem keeps_operPut (f : Fld) (v i : Nat) (hf : f.rws = false ∧ f.lo + f.len ≤ 32) (h : 0x68 ≤ f.off + f.stride * i ∧ f.off + f.stride * i < 0xA0) :
    KeepsWords (operWord n) s (s.put (pgTgtP n) f v i) :=
  .put _ _ _ _ _ hf.1 hf.2 (.inl (by rw [Nat.add_assoc]; omega))

theorem keeps_enforced (hn : n < 128) : KeepsWords (operWord n) (s.enforced n l) (s.enforce n l) := by
  have hq (x : State) (v q : Nat) (hq : q < 8) : KeepsWords (operWord n) x (x.put (pgTgtP n) TGT_MAXWINq.NS v q) :=
    x.keeps_operPut n TGT_MAXWINq.NS v q (by decide) (by simp only [TGT_MAXWINq.NS]; omega)
  have hg (x : State) (v : Nat) : KeepsWords (operWord n) x (x.put pgTgt TGT_ACTIVEi.PORTS v (n / 32)) := by
    refine .put _ _ _ _ _ rfl (by decide) (.inr ?_)
    unfold inPage
    simp only [TGT_ACTIVEi.PORTS]
    omega
  unfold enforce
  exact .after (hg _ _) (.foldl (fun q h x => hq x _ q (List.mem_range.1 h)) (.after (keeps_operPut _ n _ _ 0 (by decide) (by decide))
    (.after (keeps_operPut _ n _ _ 0 (by decide) (by decide)) (keeps_operPut (s.enforced n l) n _ _ 0 (by decide) (by decide)))))

theorem buf_enforce : (s.enforce n l).buf = { s.buf with oper := s.buf.oper.set {} n l } := by
  have hp (x : State) (b : Nat) (f : Fld) (v i : Nat) : Agree State.buf x (x.put b f v i) := ⟨State.put_buf ..⟩
  have h : Agree State.buf (s.enforced n l) (s.enforce n l) := by
    unfold enforce
    exact .after (hp _ _ _ _ _) (.foldl (fun q _ x => hp x _ _ _ _) (.after (hp _ _ _ _ _) (.after (hp _ _ _ _ _) (hp (s.enforced n l) _ _ _ _))))
  exact h.eq

theorem get_enforce_cycle (hn : n < 128) : (s.enforce n l).get (pgTgtP n) TGT_OPER_CYCLE.NS = l.cycle % 2 ^ 30 := by
  refine (get_of_keeps (s.keeps_enforced n l hn) _ _ _ (by decide) ?_).trans (State.get_put_same _ _ _ _ _ rfl (by decide))
  have e := pgTgtP_eq n
  have e1 : pgTgt = 0xE00000 := rfl
  have e2 : TGT_OPER_CYCLE.NS.off = 0x64 := rfl
  unfold operWord inPage
  rw [e, e1, e2]
  omega

theorem get_enforce_pending (hn : n < 128) : (s.enforce n l).get (pgTgtP n) TGT_STAT.START_PENDING = s.get (pgTgtP n) TGT_STAT.START_PENDING := by
  have hk : KeepsWords (fun a => a = pgTgtP n + TGT_OPER_CFG.EN.off ∨ a = pgTgtP n + TGT_OPER_CYCLE.NS.off) s (s.enforced n l) := by
    unfold enforced
    exact .after (.put _ _ _ _ _ rfl (by decide) (.inr rfl)) (.after (.put _ _ _ _ _ rfl (by decide) (.inl rfl))
      (.after (.put _ _ _ _ _ rfl (by decide) (.inl rfl)) (.of_regs rfl _)))
  have e := pgTgtP_eq n
  have e1 : pgTgt = 0xE00000 := rfl
  have e2 : TGT_STAT.START_PENDING.off = 0xA0 := rfl
  refine (get_of_keeps (s.keeps_enforced n l hn) _ _ _ (by decide) ?_).trans (get_of_keeps hk _ _ _ (by decide) ?_)
  · unfold operWord inPage
    rw [e, e1, e2]
    omega
  · have e3 : TGT_OPER_CFG.EN.off = 0x60 := rfl
    have e4 : TGT_OPER_CYCLE.NS.off = 0x64 := rfl
    rw [e2, e3, e4]
    omega

/-- A list begins: it waits no longer, it is in force, and LIST_STARTED is raised (R331). -/
def listStarted : State :=
  (((({ s with buf := { s.buf with await := s.buf.await.set none n none } } : State).put (pgTgtP n) TGT_STAT.START_PENDING 0).enforce n l).raise
    (pgTgtP n) 0)

theorem listBegin_eq {s : State} {n : Nat} {l : GateList} (h : s.awaitList n = some l) (hb : l.base ≤ s.io.time.ns) : s.listBegin n = s.listStarted n l := by
  unfold listBegin
  rw [h]
  exact if_pos hb

theorem listStarted_leaves (hn : n < 128) : (s.listStarted n l).operList n = l ∧ (s.listStarted n l).awaitList n = none ∧
    (s.listStarted n l).get (pgTgtP n) TGT_STAT.START_PENDING = 0 ∧ (s.listStarted n l).get (pgTgtP n) TGT_OPER_CYCLE.NS = l.cycle % 2 ^ 30 ∧
    (s.listStarted n l).io.cause (pgTgtP n) 0 = true ∧
    (s.listStarted n l).buf = { s.buf with oper := (s.listStarted n l).buf.oper, await := (s.listStarted n l).buf.await } := by
  unfold listStarted
  generalize hx : (({ s with buf := { s.buf with await := s.buf.await.set none n none } } : State).put (pgTgtP n) TGT_STAT.START_PENDING 0) = x
  have hb : x.buf = { s.buf with await := s.buf.await.set none n none } := by
    rw [← hx]
    rfl
  have hp : x.get (pgTgtP n) TGT_STAT.START_PENDING = 0 := by
    rw [← hx]
    exact State.get_put_same _ _ _ _ _ rfl (by decide)
  clear hx
  have he : ((x.enforce n l).raise (pgTgtP n) 0).buf = { x.buf with oper := x.buf.oper.set {} n l } := (State.raise_buf ..).trans (x.buf_enforce n l)
  have hg (f : Fld) (hf : f.rws = false ∧ f.lo + f.len ≤ 32) (ho : f.off ≠ 0x10) : ((x.enforce n l).raise (pgTgtP n) 0).get (pgTgtP n) f
      = (x.enforce n l).get (pgTgtP n) f :=
    State.get_raise _ _ _ _ _ _ hf.1 hf.2 (by
      rw [Nat.mul_zero, Nat.add_zero]
      exact fun h => ho (Nat.add_left_cancel h))
  refine ⟨?_, ?_, ?_, ?_, State.cause_raise _ _ (by decide), ?_⟩
  · unfold operList
    rw [he, SMap.get_set_same]
  · unfold awaitList
    rw [he, hb]
    exact SMap.get_set_same s.buf.await none none n
  · rw [hg _ (by decide) (by decide), get_enforce_pending _ _ _ hn, hp]
  · rw [hg _ (by decide) (by decide), get_enforce_cycle _ _ _ hn]
  · rw [he, hb]

end State

section
variable {s : State} {n : Fin 128}

theorem listStart_none (h : s.awaitList n.val = none) : NoEffect (.listStart n) s := by
  refine .live (f := fun s => s.listStart n.val) rfl ?_
  unfold State.listStart
  rw [h]

theorem State.Within.eq_ioBufOf {s t : State} {b : Buf} (h : s.Within (ioParts ++ [.buf]) t) (hb : t.buf = b) : t = { s with io := t.io, buf := b } :=
  hb ▸ h.eq_ioBuf

theorem listStart_begins (hon : s.on = true) {l : GateList} (h : s.awaitList n.val = some l) (hi : s.io.tickInc ≠ 0 ∨ l.base ≤ s.io.time.ns) :
    Completes (.listStart n) s (fun t =>
      l.base ≤ t.io.time.ns ∧ t.operList n.val = l ∧ t.awaitList n.val = none ∧
      t.get (pgTgtP n.val) TGT_STAT.START_PENDING = 0 ∧ t.get (pgTgtP n.val) TGT_OPER_CYCLE.NS = l.cycle % 2 ^ 30 ∧
      t.io.cause (pgTgtP n.val) 0 = true ∧
      t = { s with io := t.io, buf := { s.buf with oper := t.buf.oper, await := t.buf.await } }) := by
  have he : s.listStart n.val = (s.passNs (l.base - s.io.time.ns)).listBegin n.val := by
    unfold State.listStart
    rw [h]
  obtain ⟨d, hp, hle⟩ := s.passNs_passed (l.base - s.io.time.ns)
  have ho := s.onlyIo_passNs (l.base - s.io.time.ns)
  have hn := hp.ns
  have hw := State.within_listStart s n.val
  generalize s.passNs (l.base - s.io.time.ns) = x at he hn ho
  have hb : l.base ≤ x.io.time.ns := by
    rcases hi with hi | hi
    · have := hle hi
      omega
    · omega
  have hxb : x.buf = s.buf := by rw [ho]
  have ha : x.awaitList n.val = some l := by
    unfold State.awaitList at h ⊢
    rw [hxb, h]
  have he' := he.trans (State.listBegin_eq ha hb)
  rw [he'] at hw
  obtain ⟨h1, h2, h3, h4, h5, h6⟩ := x.listStarted_leaves n.val l n.isLt
  have ht : (x.listStarted n.val l).io.time = x.io.time := by
    have hb := State.listBegin_eq ha hb
    rw [← hb]
    exact (State.within_listBegin x n.val).same .time (by decide)
  rw [hxb] at h6
  exact .live_eq (f := fun s => s.listStart n.val) rfl hon he' (hw.same .pending (by decide))
    ⟨by rw [ht]; exact hb, h1, h2, h3, h4, h5, (hw.mono (by decide)).eq_ioBufOf h6⟩

end

/-- Settles O51. -/
theorem bufferAndShaping : Obligations.BufferAndShaping :=
  ⟨fun _ _ hon => ⟨qFlush_discards hon, highWatermark_takes hon, lowWatermark_takes hon⟩,
    fun _ hon => ⟨tokenRefill_refills hon, fun _ => gateChange_none, fun _ _ _ _ => gateChange_waits hon, fun _ => listStart_none,
      fun _ _ => listStart_begins hon⟩⟩

end Sys2Proof.Machine
end

section
/-!
SUPPORT. The PFC watchdog and the FEC degrade window (R107, R114).
-/
namespace Sys2Proof.Machine

namespace State

variable (s : State)

/-! ### A counter and the other registers -/

/-- The words that a counter of address `a` may write. -/
def ctrWord (a c : Nat) : Prop := c = a ∨ c = a + 4 ∨ inPage pgPmc c

theorem keeps_ctr (b : Nat) (f : Fld) (n i : Nat) : KeepsWords (ctrWord (b + f.off + f.stride * i)) s (s.ctr b f n i) :=
  .ctr _ _ _ _ _ (.inl rfl) (.inr (.inl rfl)) fun _ h => .inr (.inr h)

theorem get_ctr_wide {b c : Nat} {f g : Fld} {i j : Nat} (n : Nat) (hg : g.Wide) (hc : offPmc (c + g.off + g.stride * j))
    (h : c + g.off + g.stride * j + 8 ≤ b + f.off + f.stride * i ∨ b + f.off + f.stride * i + 8 ≤ c + g.off + g.stride * j) :
    (s.ctr b f n i).get c g j = s.get c g j := by
  unfold offPmc at hc
  refine get_wide_of_keeps (s.keeps_ctr b f n i) _ _ _ hg ?_ ?_
  · unfold ctrWord inPage
    omega
  · unfold ctrWord inPage
    omega

theorem get_ctr_narrow {b c : Nat} {f g : Fld} {i j : Nat} (n : Nat) (hg : g.rws = false ∧ g.lo + g.len ≤ 32) (hc : offPmc (c + g.off + g.stride * j))
    (h : c + g.off + g.stride * j + 4 ≤ b + f.off + f.stride * i ∨ b + f.off + f.stride * i + 8 ≤ c + g.off + g.stride * j) :
    (s.ctr b f n i).get c g j = s.get c g j := by
  unfold offPmc at hc
  refine get_of_keeps (s.keeps_ctr b f n i) _ _ _ hg ?_
  unfold ctrWord inPage
  omega

/-- A counter and a register of the same page and row apart. -/
theorem get_ctr_row {b : Nat} {f g : Fld} (n i : Nat) (hg : g.Wide) (hc : offPmc (b + g.off + g.stride * i))
    (h : f.stride = g.stride ∧ (g.off + 8 ≤ f.off ∨ f.off + 8 ≤ g.off)) : (s.ctr b f n i).get b g i = s.get b g i :=
  s.get_ctr_wide n hg hc (by rw [h.1]; omega)

theorem get_ctr_rowNarrow {b : Nat} {f g : Fld} (n i : Nat) (hg : g.rws = false ∧ g.lo + g.len ≤ 32) (hc : offPmc (b + g.off + g.stride * i))
    (h : f.stride = g.stride ∧ (g.off + 4 ≤ f.off ∨ f.off + 8 ≤ g.off)) : (s.ctr b f n i).get b g i = s.get b g i :=
  s.get_ctr_narrow n hg hc (by rw [h.1]; omega)

theorem offPmc_eth {g i o : Nat} (ho : o + 8 ≤ 0x1000) : offPmc (pgEth g i + o) := by
  have e := pgEth_eq g i
  have e2 : pgPmc = 0x140000 := rfl
  exact .inr (by omega)

end State

/-! ### The watchdog -/

section
variable {s : State} {n : Fin 128} {q : Fin 8}

/-- The watchdog of a queue has been reported (R107). -/
def State.wdReported (s : State) (n q : Nat) : State :=
  (s.put (pgEth (n / 4) 1) ETH_FC_STAT.WD_FIRED (s.get (pgEth (n / 4) 1) ETH_FC_STAT.WD_FIRED (n % 4) ||| 2 ^ q) (n % 4)).raise
    (pgEth (n / 4) 1) (4 * (n % 4))

/-- Received pause of a queue is ignored from now on. -/
def State.ignoring (s : State) (n q : Nat) : State :=
  { s with buf := { s.buf with sched := s.buf.sched.set {} n { s.buf.sched.get {} n with ignore := (s.buf.sched.get {} n).ignore ||| 2 ^ q } } }

theorem State.wdFire_eq {n q : Nat} (hl : s.get (pgEth (n / 4) 1) ETH_PFC_WD.LIMIT_MS (n % 4) ≠ 0)
    (hp : (s.get (pgEth (n / 4) 1) ETH_FC_STAT.RX_PAUSED (n % 4)).testBit q = true) : s.wdFire n q =
    if (s.wdReported n q).get (pgEth (n / 4) 1) ETH_PFC_WD.ACTION (n % 4) = 1 then ((s.wdReported n q).ignoring n q).wdDrain n q
    else s.wdReported n q :=
  if_neg (by simp [hl, hp])

theorem State.onlyIrq_wdReported (s : State) (n q : Nat) : OnlyIrq s (s.wdReported n q) := (OnlyRegs.put _ _ _ _ _ rfl).irq.trans (.raise _ _ _)

theorem fcOff_ne (n : Nat) : pgEth (n / 4) 1 + ETH_FC_STAT.WD_FIRED.off + ETH_FC_STAT.WD_FIRED.stride * (n % 4) ≠ pgEth (n / 4) 1 + 0x10 := by
  have e : ETH_FC_STAT.WD_FIRED.off = 0x54 := rfl
  rw [e]
  omega

theorem State.wdReported_shows (s : State) (n : Nat) {q : Nat} (hq : q < 8) :
    ((s.wdReported n q).get (pgEth (n / 4) 1) ETH_FC_STAT.WD_FIRED (n % 4)).testBit q = true ∧
    (s.wdReported n q).io.cause (pgEth (n / 4) 1) (4 * (n % 4)) = true ∧
    (s.wdReported n q).get (pgEth (n / 4) 1) ETH_PFC_WD.ACTION (n % 4) = s.get (pgEth (n / 4) 1) ETH_PFC_WD.ACTION (n % 4) := by
  have e1 : ETH_PFC_WD.ACTION.off = 0x50 := rfl
  have e2 : ETH_PFC_WD.ACTION.stride = 32 := rfl
  have e3 : ETH_FC_STAT.WD_FIRED.off = 0x54 := rfl
  have e4 : ETH_FC_STAT.WD_FIRED.stride = 32 := rfl
  refine ⟨?_, State.cause_raise _ _ (by omega), ?_⟩
  · unfold wdReported
    rw [State.get_raise _ _ _ _ _ _ rfl (by decide) (fcOff_ne n), State.get_put_same _ _ _ _ _ rfl (by decide),
      show ETH_FC_STAT.WD_FIRED.len = 8 from rfl, Nat.testBit_mod_two_pow, Nat.testBit_or, Nat.testBit_two_pow_self, decide_eq_true hq]
    simp
  · unfold wdReported
    rw [State.get_raise _ _ _ _ _ _ rfl (by decide) (by rw [e1, e2]; omega),
      State.get_put_ne _ _ _ _ _ _ _ _ rfl (by decide) rfl (by decide) (by rw [e1, e2, e3, e4]; omega)]

/-- The words of the port's flow control are no words of a drain of its queue. -/
theorem State.keeps_wdDrain (s : State) {n : Nat} (hn : n < 128) (q : Nat) :
    KeepsWords (fun a => (0x800000 ≤ a ∧ a < 0x900000) ∨ a < 0x141000 ∨ 0x1000000 ≤ a) s (s.wdDrain n q) := by
  have h : KeepsWords (fun a => (0x800000 ≤ a ∧ a < 0x900000) ∨ a < 0x141000 ∨ 0x1000000 ≤ a) s
      (s.discardAll (8 * n + q) (pgTmbP n) TMB_WD_DISCARD_CNT.COUNT) :=
    (s.keeps_discardFirst _ _ _ _).mono fun _ h => (discardWord_range n hn (by decide) h).imp id (.imp id And.left)
  unfold wdDrain
  refine .cond (.refl _ s) (.after (.raise _ _ _ (.inl ?_)) h)
  have := pgTmbP_eq n
  omega

theorem eth_not_drained {g i o : Nat} (hg : g < 32) (hi : i < 4) (ho : o < 0x1000) :
    ¬ ((0x800000 ≤ pgEth g i + o ∧ pgEth g i + o < 0x900000) ∨ pgEth g i + o < 0x141000 ∨ 0x1000000 ≤ pgEth g i + o) := by
  have := pgEth_eq g i
  omega

theorem sched_of_rest {s t : State} (h : Agree State.bufRest s t) : t.buf.sched = s.buf.sched := (congrArg Buf.sched h.eq :)

theorem State.wdDrain_drains (s : State) {n : Nat} (hn : n < 128) (q : Nat) :
    (∀ k, (s.wdDrain n q).queue k = if k = 8 * n + q then [] else s.queue k) ∧
    (s.wdDrain n q).get (pgTmbP n) TMB_WD_DISCARD_CNT.COUNT = (s.get (pgTmbP n) TMB_WD_DISCARD_CNT.COUNT + (s.queue (8 * n + q)).length) % 2 ^ 64 ∧
    (s.wdDrain n q).buf.sched = s.buf.sched := by
  have hc := counts_port hn (f := TMB_WD_DISCARD_CNT.COUNT) ⟨rfl, rfl, rfl⟩ (by decide)
  unfold wdDrain
  split
  next h =>
    have h0 : s.queue (8 * n + q) = [] := List.isEmpty_iff.1 h
    refine ⟨fun k => ?_, ?_, rfl⟩
    · split
      next hk => rw [hk, h0]
      next => rfl
    · rw [h0, List.length_nil, Nat.add_zero, Nat.mod_eq_of_lt (get_wide_lt s _ _ _ hc.wide)]
  next h =>
    refine ⟨fun k => ?_, ?_, ?_⟩
    · rw [queue_raise, queue_discardAll]
    · rw [← get_discardAll s hc]
      refine get_wide_of_keeps (p := (· = pgTmbP n + 0x10)) (.raise _ _ _ rfl) _ _ _ hc.wide ?_ ?_
      · rw [show TMB_WD_DISCARD_CNT.COUNT.off = 0x220 from rfl]
        omega
      · rw [show TMB_WD_DISCARD_CNT.COUNT.off = 0x220 from rfl]
        omega
    · rw [State.raise_buf]
      exact sched_of_rest (s.rest_discardFirst (8 * n + q) _ _ _)

theorem State.ignoring_keeps (s : State) (n q : Nat) : (s.ignoring n q).io = s.io ∧ (s.ignoring n q).buf.queues = s.buf.queues ∧
    ((s.ignoring n q).buf.sched.get {} n).ignore.testBit q = true := by
  refine ⟨rfl, rfl, ?_⟩
  unfold ignoring
  rw [SMap.get_set_same, Nat.testBit_or, Nat.testBit_two_pow_self, Bool.or_true]

theorem pfcWatchdog_fires (hon : s.on = true) (hl : s.get (pgEth (n.val / 4) 1) ETH_PFC_WD.LIMIT_MS (n.val % 4) ≠ 0)
    (hp : (s.get (pgEth (n.val / 4) 1) ETH_FC_STAT.RX_PAUSED (n.val % 4)).testBit q.val = true) :
    Completes (.pfcWatchdog n q) s (fun t =>
      (t.get (pgEth (n.val / 4) 1) ETH_FC_STAT.WD_FIRED (n.val % 4)).testBit q.val = true ∧
      t.io.cause (pgEth (n.val / 4) 1) (4 * (n.val % 4)) = true ∧
      (s.get (pgEth (n.val / 4) 1) ETH_PFC_WD.ACTION (n.val % 4) = 1 →
        (t.buf.sched.get {} n.val).ignore.testBit q.val = true ∧ t.queue (8 * n.val + q.val) = [] ∧
        t.get (pgTmbP n.val) TMB_WD_DISCARD_CNT.COUNT
          = (s.get (pgTmbP n.val) TMB_WD_DISCARD_CNT.COUNT + (s.queue (8 * n.val + q.val)).length) % 2 ^ 64) ∧
      (s.get (pgEth (n.val / 4) 1) ETH_PFC_WD.ACTION (n.val % 4) = 0 → OnlyIrq s t) ∧
      (∀ k, k ≠ 8 * n.val + q.val → t.queue k = s.queue k) ∧ t = { s with io := t.io, buf := t.buf, tel := t.tel }) := by
  have he := State.wdFire_eq hl hp
  obtain ⟨h1, h2, h3⟩ := s.wdReported_shows n.val q.isLt
  have hi := s.onlyIrq_wdReported n.val q.val
  have hw := State.within_wdFire s n.val q.val
  have hf : ∀ t, s.wdFire n.val q.val = t → t = { s with io := t.io, buf := t.buf, tel := t.tel } := fun t h =>
    State.Within.eq_ioBufTel (h ▸ hw.mono (by decide))
  have hc : (s.wdReported n.val q.val).get (pgTmbP n.val) TMB_WD_DISCARD_CNT.COUNT = s.get (pgTmbP n.val) TMB_WD_DISCARD_CNT.COUNT := by
    have hk : KeepsWords (fun a => a < 0x800000) s (s.wdReported n.val q.val) := by
      have e := pgEth_eq (n.val / 4) 1
      refine .after (.raise _ _ _ (by omega)) (.put _ _ _ _ _ rfl (by decide) ?_)
      simp only [ETH_FC_STAT.WD_FIRED]
      omega
    have := pgTmbP_eq n.val
    exact State.get_wide_of_keeps hk _ _ _ ⟨rfl, rfl, rfl⟩ (by omega) (by omega)
  have hxb : (s.wdReported n.val q.val).buf = s.buf := by rw [hi.1]
  rw [h3] at he
  generalize s.wdReported n.val q.val = x at he h1 h2 hi hc hxb
  have hxq (k : Nat) : x.queue k = s.queue k := by
    unfold State.queue
    rw [hxb]
  by_cases ha : s.get (pgEth (n.val / 4) 1) ETH_PFC_WD.ACTION (n.val % 4) = 1
  · rw [if_pos ha] at he
    obtain ⟨g1, g2, g3⟩ := x.ignoring_keeps n.val q.val
    have hiq (k : Nat) : (x.ignoring n.val q.val).queue k = s.queue k := by
      rw [← hxq]
      unfold State.queue
      rw [g2]
    have hig (b : Nat) (f : Fld) (i : Nat) : (x.ignoring n.val q.val).get b f i = x.get b f i := by rw [State.get_eq, State.get_eq, g1]
    generalize x.ignoring n.val q.val = y at he g1 g3 hiq hig
    obtain ⟨d1, d2, d3⟩ := y.wdDrain_drains n.isLt q.val
    have hk := y.keeps_wdDrain n.isLt q.val
    have hq : n.val / 4 < 32 := by omega
    refine .live_eq (f := fun s => s.wdFire n.val q.val) rfl hon he (he ▸ hw.same .pending (by decide)) ⟨?_, ?_, fun _ => ⟨?_, ?_, ?_⟩, fun h => ?_,
      fun k hne => ?_, hf _ he⟩
    · rw [State.get_of_keeps hk _ ETH_FC_STAT.WD_FIRED _ (by decide), hig, h1]
      rw [Nat.add_assoc]
      exact eth_not_drained hq (by decide) (by simp only [ETH_FC_STAT.WD_FIRED]; omega)
    · unfold Io.cause at h2 ⊢
      rw [hk _ (eth_not_drained hq (by decide) (by decide)), g1, h2]
    · rw [d3]
      exact g3
    · rw [d1, if_pos rfl]
    · rw [d2, hig, hc, hiq]
    · omega
    · rw [d1, if_neg hne, hiq]
  · rw [if_neg ha] at he
    exact .live_eq (f := fun s => s.wdFire n.val q.val) rfl hon he hi.pending ⟨h1, h2, fun h => absurd h ha, fun _ => hi, fun k _ => hxq k, hf _ he⟩

theorem pfcWatchdog_idle (h : s.get (pgEth (n.val / 4) 1) ETH_PFC_WD.LIMIT_MS (n.val % 4) = 0 ∨
    (s.get (pgEth (n.val / 4) 1) ETH_FC_STAT.RX_PAUSED (n.val % 4)).testBit q.val = false) : NoEffect (.pfcWatchdog n q) s := by
  refine .live (f := fun s => s.wdFire n.val q.val) rfl (if_pos ?_)
  rcases h with h | h <;> simp [h]

/-- Taking a bit that is set away leaves the others. -/
theorem testBit_sub_pow {v q : Nat} (h : v.testBit q = true) (k : Nat) : (v - 2 ^ q).testBit k = if k = q then false else v.testBit k := by
  have hb : bitsOf v q 1 = 1 := by
    unfold bitsOf
    rw [Nat.testBit_eq_decide_div_mod_eq] at h
    rw [Nat.shiftRight_eq_div_pow]
    simpa using h
  have he : v - 2 ^ q = setBitsOf v q 1 0 := by
    unfold setBitsOf
    rw [hb, Nat.one_mul]
    simp
  rw [he, setBitsOf_testBit]
  by_cases hk : k = q
  · subst hk
    simp
  · rw [if_neg (by omega), if_neg hk]

/-- Received pause of a queue is honoured again. -/
def State.honouring (s : State) (n q : Nat) : State :=
  { s with buf := { s.buf with sched := s.buf.sched.set {} n { s.buf.sched.get {} n with ignore := (s.buf.sched.get {} n).ignore - 2 ^ q } } }

theorem State.sched_honouring (s : State) (n q : Nat) : (s.honouring n q).buf.sched
    = s.buf.sched.set {} n { s.buf.sched.get {} n with ignore := (s.buf.sched.get {} n).ignore - 2 ^ q } := rfl

theorem pfcWd_recovers (hon : s.on = true) (hi : (s.buf.sched.get {} n.val).ignore.testBit q.val = true) (hq : s.queue (8 * n.val + q.val) = []) :
    Completes (.pfcWdRecover n q) s (fun t =>
      (t.buf.sched.get {} n.val).ignore.testBit q.val = false ∧
      (∀ k : Fin 8, k ≠ q → (t.buf.sched.get {} n.val).ignore.testBit k.val = (s.buf.sched.get {} n.val).ignore.testBit k.val) ∧
      (∀ k, k ≠ n.val → t.buf.sched.get {} k = s.buf.sched.get {} k) ∧ t = { s with buf := { s.buf with sched := t.buf.sched } }) := by
  have he : s.wdRecover n.val q.val = s.honouring n.val q.val :=
    if_pos (by rw [hi, hq]; rfl)
  refine .live_eq (f := fun s => s.wdRecover n.val q.val) rfl hon he rfl ⟨?_, fun k hk => ?_, fun k hk => ?_, rfl⟩
  · rw [State.sched_honouring, SMap.get_set_same, testBit_sub_pow hi, if_pos rfl]
  · rw [State.sched_honouring, SMap.get_set_same, testBit_sub_pow hi, if_neg fun h => hk (Fin.ext h)]
  · exact SMap.get_set_ne _ _ _ _ hk

theorem pfcWd_idle (h : (s.buf.sched.get {} n.val).ignore.testBit q.val = false ∨ s.queue (8 * n.val + q.val) ≠ []) :
    NoEffect (.pfcWdRecover n q) s := by
  refine .live (f := fun s => s.wdRecover n.val q.val) rfl (if_neg ?_)
  rw [Bool.and_eq_true, List.isEmpty_iff]
  rcases h with h | h
  · simp [h]
  · exact fun hc => h hc.2

/-! ### The window of corrected codewords -/

theorem fecWindow_none (corr sym uncorr : Nat) (h : s.portExists n.val = false) : NoEffect (.fecDegradeWindow n corr sym uncorr) s := by
  refine .live (f := fun s => s.fecWindow n.val corr sym uncorr) rfl ?_
  unfold State.fecWindow
  rw [h]
  rfl

/-- The codewords of a window are counted. -/
def State.fecCounted (s : State) (n corr sym uncorr : Nat) : State :=
  ((s.ctr (pgEth (n / 4) 2) ETH_FEC_CORR.COUNT corr (n % 4)).ctr (pgEth (n / 4) 2) ETH_FEC_SYMERR.COUNT sym (n % 4)).ctr (pgEth (n / 4) 2)
    ETH_FEC_UNCORR.COUNT uncorr (n % 4)

theorem State.fecCounted_counts (s : State) (n corr sym uncorr : Nat) :
    (s.fecCounted n corr sym uncorr).get (pgEth (n / 4) 2) ETH_FEC_CORR.COUNT (n % 4) = (s.get (pgEth (n / 4) 2) ETH_FEC_CORR.COUNT (n % 4) + corr) % 2 ^ 64 ∧
    (s.fecCounted n corr sym uncorr).get (pgEth (n / 4) 2) ETH_FEC_SYMERR.COUNT (n % 4) = (s.get (pgEth (n / 4) 2) ETH_FEC_SYMERR.COUNT (n % 4) + sym) % 2 ^ 64 ∧
    (s.fecCounted n corr sym uncorr).get (pgEth (n / 4) 2) ETH_FEC_UNCORR.COUNT (n % 4) = (s.get (pgEth (n / 4) 2) ETH_FEC_UNCORR.COUNT (n % 4) + uncorr) % 2 ^ 64 ∧
    (s.fecCounted n corr sym uncorr).get (pgEth (n / 4) 2) ETH_FEC_DEGRADE_CFG.THRESH (n % 4) = s.get (pgEth (n / 4) 2) ETH_FEC_DEGRADE_CFG.THRESH (n % 4) := by
  have hj : n % 4 < 4 := Nat.mod_lt _ (by decide)
  have w1 : ETH_FEC_CORR.COUNT.Wide := ⟨rfl, rfl, rfl⟩
  have w2 : ETH_FEC_SYMERR.COUNT.Wide := ⟨rfl, rfl, rfl⟩
  have w3 : ETH_FEC_UNCORR.COUNT.Wide := ⟨rfl, rfl, rfl⟩
  have hp (o : Nat) (ho : o < 0x60) : offPmc (pgEth (n / 4) 2 + o + 32 * (n % 4)) := by
    rw [Nat.add_assoc]
    exact offPmc_eth (by omega)
  unfold fecCounted
  refine ⟨?_, ?_, ?_, ?_⟩
  · rw [get_ctr_row _ _ _ w1 (hp 0x40 (by decide)) (by decide), get_ctr_row _ _ _ w1 (hp 0x40 (by decide)) (by decide),
      get_ctr_same _ _ _ _ _ w1 (hp 0x40 (by decide))]
  · rw [get_ctr_row _ _ _ w2 (hp 0x50 (by decide)) (by decide), get_ctr_same _ _ _ _ _ w2 (hp 0x50 (by decide)),
      get_ctr_row _ _ _ w2 (hp 0x50 (by decide)) (by decide)]
  · rw [get_ctr_same _ _ _ _ _ w3 (hp 0x48 (by decide)), get_ctr_row _ _ _ w3 (hp 0x48 (by decide)) (by decide),
      get_ctr_row _ _ _ w3 (hp 0x48 (by decide)) (by decide)]
  · rw [get_ctr_rowNarrow _ _ _ (by decide) (hp 0x58 (by decide)) (by decide), get_ctr_rowNarrow _ _ _ (by decide) (hp 0x58 (by decide)) (by decide),
      get_ctr_rowNarrow _ _ _ (by decide) (hp 0x58 (by decide)) (by decide)]

end

section
variable {s : State} {n : Fin 128}

/-- Nothing but the shared state changed. -/
theorem State.onlyIo_fecWindow (s : State) (n corr sym uncorr : Nat) : OnlyIo s (s.fecWindow n corr sym uncorr) :=
  .of_within ((within_fecWindow s n corr sym uncorr).mono (by decide))

/-- A cause is raised where `c` holds. -/
def State.raiseIf (s : State) (c : Prop) [Decidable c] (b k : Nat) : State := if c then s.raise b k else s

theorem State.get_raiseIf (s : State) (c : Prop) [Decidable c] (b k : Nat) (f : Fld) (i : Nat) (hf : f.rws = false ∧ f.lo + f.len ≤ 32)
    (h : 0x10 < f.off) : (s.raiseIf c b k).get b f i = s.get b f i := by
  unfold raiseIf
  split
  · exact State.get_raise _ _ _ _ _ _ hf.1 hf.2 (by omega)
  · rfl

theorem State.keeps_raiseIf (s : State) (c : Prop) [Decidable c] (b k : Nat) : KeepsWords (· = b + 0x10) s (s.raiseIf c b k) :=
  .cond (.raise _ _ _ rfl) (.refl _ s)

theorem State.fecWindow_eq (s : State) {n : Nat} (corr sym uncorr : Nat) (he : s.portExists n = true) : ∃ x deg,
    x = s.fecCounted n corr sym uncorr ∧
    deg = (decide (x.get (pgEth (n / 4) 2) ETH_FEC_DEGRADE_CFG.THRESH (n % 4) ≠ 0) && decide (x.get (pgEth (n / 4) 2) ETH_FEC_DEGRADE_CFG.THRESH (n % 4) < sym)) ∧
    s.fecWindow n corr sym uncorr = if uncorr = 0 then
        (x.put (pgEth (n / 4) 2) ETH_PCS_STAT.DEGRADED (b2n deg) (n % 4)).raiseIf (deg = true) (pgEth (n / 4) 2) (2 * (n % 4))
      else ((x.put (pgEth (n / 4) 2) ETH_PCS_STAT.DEGRADED (b2n deg) (n % 4)).raiseIf (deg = true) (pgEth (n / 4) 2) (2 * (n % 4))).raise
        (pgEth (n / 4) 2) (2 * (n % 4) + 1) :=
  ⟨_, _, rfl, rfl, if_neg (by simp [he])⟩

theorem fecWindow_counts (hon : s.on = true) (corr sym uncorr : Nat) (he : s.portExists n.val = true) :
    Completes (.fecDegradeWindow n corr sym uncorr) s (fun t =>
      t.get (pgEth (n.val / 4) 2) ETH_FEC_CORR.COUNT (n.val % 4)
        = (s.get (pgEth (n.val / 4) 2) ETH_FEC_CORR.COUNT (n.val % 4) + corr) % 2 ^ 64 ∧
      t.get (pgEth (n.val / 4) 2) ETH_FEC_SYMERR.COUNT (n.val % 4)
        = (s.get (pgEth (n.val / 4) 2) ETH_FEC_SYMERR.COUNT (n.val % 4) + sym) % 2 ^ 64 ∧
      t.get (pgEth (n.val / 4) 2) ETH_FEC_UNCORR.COUNT (n.val % 4)
        = (s.get (pgEth (n.val / 4) 2) ETH_FEC_UNCORR.COUNT (n.val % 4) + uncorr) % 2 ^ 64 ∧
      (t.get (pgEth (n.val / 4) 2) ETH_PCS_STAT.DEGRADED (n.val % 4) = 1 ↔
        s.get (pgEth (n.val / 4) 2) ETH_FEC_DEGRADE_CFG.THRESH (n.val % 4) ≠ 0 ∧
        s.get (pgEth (n.val / 4) 2) ETH_FEC_DEGRADE_CFG.THRESH (n.val % 4) < sym) ∧
      (uncorr ≠ 0 → t.io.cause (pgEth (n.val / 4) 2) (2 * (n.val % 4) + 1) = true) ∧ OnlyIo s t) := by
  obtain ⟨h1, h2, h3, h4⟩ := s.fecCounted_counts n.val corr sym uncorr
  have ho := s.onlyIo_fecWindow n.val corr sym uncorr
  obtain ⟨x, deg, hx, hd, hr⟩ := s.fecWindow_eq corr sym uncorr he
  rw [← hx] at h1 h2 h3 h4
  rw [h4] at hd
  clear hx
  generalize pgEth (n.val / 4) 2 = b at *
  have hj : 2 * (n.val % 4) + 1 < 32 := by omega
  generalize n.val % 4 = j at *
  have hk : KeepsWords (fun a => a = b + 0x10 ∨ a = b + 0x5c + 32 * j) x (s.fecWindow n.val corr sym uncorr) := by
    have hp : KeepsWords (fun a => a = b + 0x10 ∨ a = b + 0x5c + 32 * j) x
        ((x.put b ETH_PCS_STAT.DEGRADED (b2n deg) j).raiseIf (deg = true) b (2 * j)) :=
      .after ((State.keeps_raiseIf _ _ _ _).mono fun _ => .inl) (.put _ _ _ _ _ rfl (by decide) (.inr rfl))
    rw [hr]
    exact .cond hp (.after (.raise _ _ _ (.inl rfl)) hp)
  have hkeep (f : Fld) (hf : f.Wide) (ho : f.stride = 32 ∧ 0x40 ≤ f.off ∧ f.off + 8 ≤ 0x5c) : (s.fecWindow n.val corr sym uncorr).get b f j = x.get b f j :=
    State.get_wide_of_keeps hk _ _ _ hf (by rw [ho.1]; omega) (by rw [ho.1]; omega)
  have hg : (s.fecWindow n.val corr sym uncorr).get b ETH_PCS_STAT.DEGRADED j = b2n deg := by
    have hv : ((x.put b ETH_PCS_STAT.DEGRADED (b2n deg) j).raiseIf (deg = true) b (2 * j)).get b ETH_PCS_STAT.DEGRADED j = b2n deg := by
      rw [State.get_raiseIf _ _ _ _ _ _ (by decide) (by decide), State.get_put_same _ _ _ _ _ rfl (by decide)]
      cases deg <;> rfl
    rw [hr]
    split
    · exact hv
    · exact (State.get_raise _ _ _ _ _ _ rfl (by decide) (by rw [show ETH_PCS_STAT.DEGRADED.off = 0x5c from rfl]; omega)).trans hv
  refine .live_eq (f := fun s => s.fecWindow n.val corr sym uncorr) (t := s.fecWindow n.val corr sym uncorr) rfl hon rfl (by rw [ho])
    ⟨?_, ?_, ?_, ?_, fun hu => ?_, ho⟩
  · rw [hkeep _ ⟨rfl, rfl, rfl⟩ (by decide), h1]
  · rw [hkeep _ ⟨rfl, rfl, rfl⟩ (by decide), h2]
  · rw [hkeep _ ⟨rfl, rfl, rfl⟩ (by decide), h3]
  · rw [hg, hd]
    generalize s.get b ETH_FEC_DEGRADE_CFG.THRESH j = t
    by_cases ht : t ≠ 0 ∧ t < sym
    · rw [decide_eq_true ht.1, decide_eq_true ht.2]
      exact ⟨fun _ => ht, fun _ => rfl⟩
    · have hf : (decide (t ≠ 0) && decide (t < sym)) = false := by
        rw [Bool.and_eq_false_iff, decide_eq_false_iff_not, decide_eq_false_iff_not]
        exact not_and_or.1 ht
      rw [hf]
      exact ⟨fun h => absurd h (by decide), fun h => absurd h ht⟩
  · rw [hr, if_neg hu]
    exact State.cause_raise _ _ hj

end

/-- Settles O28. -/
theorem watchdogAndFec : Obligations.WatchdogAndFec :=
  fun _ _ _ hon => ⟨pfcWatchdog_fires hon, pfcWatchdog_idle, pfcWd_recovers hon, pfcWd_idle, fecWindow_none, fecWindow_counts hon⟩

end Sys2Proof.Machine
end

section
/-!
SUPPORT. What becomes of a received frame (R101, R102, R108).
-/
namespace Sys2Proof.Machine

namespace State

variable (s : State)

/-- The outputs are `o`; every register and every unit is as before. -/
def sent (o : List Out) : State := { s with io := { s.io with out := o } }

/-- A counter of received frames in the page of a pipeline's ports. -/
structure RxCount (f : Fld) : Prop where
  wide : f.Wide
  stride : f.stride = 96
  low : 0x800 ≤ f.off
  high : f.off + 8 ≤ 0x860

theorem rxCount_addr {f : Fld} (_ : RxCount f) (n : Nat) :
    0x1000000 ≤ pgPmcL (n / 16) + f.off + f.stride * (n % 16) ∧ offPmc (pgPmcL (n / 16) + f.off + f.stride * (n % 16)) := by
  have e : pgPmcL (n / 16) = 0x1000000 + n / 16 * 0x100000 + 0x80000 := rfl
  have e2 : pgPmc = 0x140000 := rfl
  refine ⟨by omega, .inr (by omega)⟩

/-- A counter of received frames stays where only low addresses are written. -/
theorem get_rxCount_of_low {s t : State} {p : Nat → Prop} (h : KeepsWords p s t) (hp : ∀ a, p a → a < 0x1000000) {f : Fld}
    (hf : RxCount f) (n : Nat) : t.get (pgPmcL (n / 16)) f (n % 16) = s.get (pgPmcL (n / 16)) f (n % 16) := by
  have ha := (rxCount_addr hf n).1
  refine get_wide_of_keeps h _ _ _ hf.wide (fun h => ?_) (fun h => ?_)
  · have := hp _ h
    omega
  · have := hp _ h
    omega

theorem rxFrames : RxCount PMC_RX_FRAMES.COUNT := ⟨⟨rfl, rfl, rfl⟩, rfl, by decide, by decide⟩
theorem rxBytes : RxCount PMC_RX_BYTES.COUNT := ⟨⟨rfl, rfl, rfl⟩, rfl, by decide, by decide⟩
theorem rxStgDrop : RxCount PMC_RX_STG_DROP.COUNT := ⟨⟨rfl, rfl, rfl⟩, rfl, by decide, by decide⟩
theorem rxMacctl : RxCount PMC_RX_MACCTL.COUNT := ⟨⟨rfl, rfl, rfl⟩, rfl, by decide, by decide⟩

theorem get_sent (o : List Out) (b : Nat) (f : Fld) (i : Nat) : (s.sent o).get b f i = s.get b f i := rfl

theorem maxFrame_sent (o : List Out) (n : Nat) : (s.sent o).maxFrame n = s.maxFrame n := s.get_sent o _ _ _

theorem rxStamp_sent (o : List Out) (n len : Nat) : (s.sent o).rxStamp n len = s.rxStamp n len := rfl

theorem within_sent (o : List Out) : s.Within [.out] (s.sent o) := .upIo (f := fun io => { io with out := o }) (Io.within_setOut ..)

/-! ### Flow control (R105, R106) -/

theorem regs_macTx (n : Nat) (pfc : Bool) (classes : Nat) (quanta : List Nat) : (s.macTx n pfc classes quanta).io.regs = s.io.regs := by
  unfold macTx
  split <;> rfl

theorem regs_pfcSend (n classes xoff : Nat) : (s.pfcSend n classes xoff).io.regs = s.io.regs := by
  unfold pfcSend
  split
  · rfl
  · exact s.regs_macTx _ _ _ _

/-- The flow control status word of a port. -/
def fcWord (n a : Nat) : Prop := a = pgEth (n / 4) 1 + 0x54 + 32 * (n % 4)

theorem keeps_txXoff (n v : Nat) : KeepsWords (fcWord n) s (s.put (pgEth (n / 4) 1) ETH_FC_STAT.TX_XOFF v (n % 4)) :=
  .put _ _ _ _ _ rfl (by decide) rfl

theorem keeps_fcUpdate (n : Nat) : KeepsWords (fcWord n) s (s.fcUpdate n) := by
  unfold fcUpdate
  dsimp only
  split
  · exact .after (.cond (.refl _ _) (.of_regs (s.put _ _ _ _ |>.regs_macTx _ _ _ _) _)) (s.keeps_txXoff n _)
  · exact .after (.of_regs (s.put _ _ _ _ |>.regs_pfcSend _ _ _) _) (s.keeps_txXoff n _)
  · exact s.keeps_txXoff n _

theorem fcWord_low {n a : Nat} (hn : n < 128) (h : fcWord n a) : a < 0x1000000 := by
  have e := pgEth_eq (n / 4) 1
  unfold fcWord at h
  omega

theorem buf_pauseRx (n classes : Nat) (quanta : Nat → Nat) :
    (s.pauseRx n classes quanta).buf = { s.buf with sched := (s.pauseRx n classes quanta).buf.sched } := rfl

theorem buf_pauseFrame (n : Nat) (pfc : Bool) (classes : Nat) (quanta : Nat → Nat) :
    (s.pauseFrame n pfc classes quanta).buf = { s.buf with sched := (s.pauseFrame n pfc classes quanta).buf.sched } := by
  unfold pauseFrame
  split
  · split
    · exact s.buf_pauseRx _ _ _
    · rfl
  · split
    · exact s.buf_pauseRx _ _ _
    · rfl

theorem keeps_pauseRx (n classes : Nat) (quanta : Nat → Nat) : KeepsWords (fcWord n) s (s.pauseRx n classes quanta) := by
  unfold pauseRx
  exact .after (.of_regs rfl _) (.put _ _ _ _ _ rfl (by decide) rfl)

theorem keeps_pauseFrame (n : Nat) (pfc : Bool) (classes : Nat) (quanta : Nat → Nat) :
    KeepsWords (fcWord n) s (s.pauseFrame n pfc classes quanta) := by
  unfold pauseFrame
  exact .cond (.cond (s.keeps_pauseRx _ _ _) (.refl _ s)) (.cond (s.keeps_pauseRx _ _ _) (.refl _ s))

theorem buf_macControl (n : Nat) (d : List Byte) :
    (s.macControl n d).buf = { s.buf with sched := (s.macControl n d).buf.sched } := by
  unfold macControl
  dsimp only
  split
  · exact s.buf_pauseFrame _ _ _ _
  · split
    · exact s.buf_pauseFrame _ _ _ _
    · rfl

theorem get_macControl {n : Nat} (hn : n < 128) (d : List Byte) :
    (s.macControl n d).get (pgPmcL (n / 16)) PMC_RX_MACCTL.COUNT (n % 16) = s.get (pgPmcL (n / 16)) PMC_RX_MACCTL.COUNT (n % 16) := by
  have hw (pfc : Bool) (c : Nat) (q : Nat → Nat) := get_rxCount_of_low (s.keeps_pauseFrame n pfc c q) (fun _ => fcWord_low hn) rxMacctl n
  unfold macControl
  dsimp only
  split
  · exact hw _ _ _
  · split
    · exact hw _ _ _
    · exact s.get_ctr_row _ _ rxMacctl.wide (rxCount_addr rxMacctl n).2 (by decide)

/-! ### A frame enters staging (R101) -/

theorem buf_fcUpdate (n : Nat) : (s.fcUpdate n).buf = s.buf := (s.within_fcUpdate n).same .buf (by decide)

/-- A received frame and its bytes have been counted. -/
def rxCounted (n len : Nat) : State :=
  ((s.ctr (pgPmcL (n / 16)) PMC_RX_FRAMES.COUNT 1 (n % 16)).ctr (pgPmcL (n / 16)) PMC_RX_BYTES.COUNT len (n % 16)).upIo fun io =>
    ((io.accAdd (pgPmcL (n / 16)) PORT_RX_FRAMES.COUNT 1 (n % 16)).accAdd (pgPmcL (n / 16)) PORT_RX_BYTES.COUNT len (n % 16)).ledFrame n

theorem within_rxCounted (n len : Nat) : s.Within (.acc :: .sys :: ctrParts) (s.rxCounted n len) :=
  .mono (.after (.upIo (.after (Io.within_ledFrame _ _) (.after (Io.within_accAdd ..) (Io.within_accAdd ..))))
    (.after (within_ctr ..) (within_ctr ..))) (by decide)

theorem regs_rxCounted (n len : Nat) : (s.rxCounted n len).io.regs =
    ((s.ctr (pgPmcL (n / 16)) PMC_RX_FRAMES.COUNT 1 (n % 16)).ctr (pgPmcL (n / 16)) PMC_RX_BYTES.COUNT len (n % 16)).io.regs :=
  (State.Within.upIo (f := fun io => ((io.accAdd (pgPmcL (n / 16)) PORT_RX_FRAMES.COUNT 1 (n % 16)).accAdd (pgPmcL (n / 16)) PORT_RX_BYTES.COUNT len (n % 16)).ledFrame n)
    (.after (Io.within_ledFrame _ _) (.after (Io.within_accAdd ..) (Io.within_accAdd ..)))).same .regs (by decide)

theorem keeps_rxCounted {n : Nat} (len : Nat) :
    KeepsWords (fun a => 0x1000000 ≤ a ∨ inPage pgPmc a) s (s.rxCounted n len) := by
  have hb := (rxCount_addr rxBytes n).1
  have hf := (rxCount_addr rxFrames n).1
  refine .after (.of_regs (s.regs_rxCounted n len) _) (.after (.ctr _ _ _ _ _ ?_ ?_ ?_) (.ctr _ _ _ _ _ ?_ ?_ ?_))
  · exact .inl hb
  · exact .inl (by omega)
  · exact fun _ h => .inr h
  · exact .inl hf
  · exact .inl (by omega)
  · exact fun _ h => .inr h

theorem get_rxCounted (n len : Nat) :
    (s.rxCounted n len).get (pgPmcL (n / 16)) PMC_RX_FRAMES.COUNT (n % 16)
      = (s.get (pgPmcL (n / 16)) PMC_RX_FRAMES.COUNT (n % 16) + 1) % 2 ^ 64 ∧
    (s.rxCounted n len).get (pgPmcL (n / 16)) PMC_RX_BYTES.COUNT (n % 16)
      = (s.get (pgPmcL (n / 16)) PMC_RX_BYTES.COUNT (n % 16) + len) % 2 ^ 64 := by
  have hk := KeepsWords.of_regs (s.regs_rxCounted n len) fun _ => False
  have hb := (rxCount_addr rxBytes n).2
  have hf := (rxCount_addr rxFrames n).2
  refine ⟨?_, ?_⟩
  · rw [get_rxCount_of_low hk (fun _ => False.elim) rxFrames, get_ctr_row _ _ _ rxFrames.wide hf (by decide), get_ctr_same _ _ _ _ _ rxFrames.wide hf]
  · rw [get_rxCount_of_low hk (fun _ => False.elim) rxBytes, get_ctr_same _ _ _ _ _ rxBytes.wide hb, get_ctr_row _ _ _ rxBytes.wide hb (by decide)]

theorem get_rxCounted_drop (n len : Nat) : (s.rxCounted n len).get (pgPmcL (n / 16)) PMC_RX_STG_DROP.COUNT (n % 16)
    = s.get (pgPmcL (n / 16)) PMC_RX_STG_DROP.COUNT (n % 16) := by
  have hk := KeepsWords.of_regs (s.regs_rxCounted n len) fun _ => False
  have hd := (rxCount_addr rxStgDrop n).2
  rw [get_rxCount_of_low hk (fun _ => False.elim) rxStgDrop, get_ctr_row _ _ _ rxStgDrop.wide hd (by decide),
    get_ctr_row _ _ _ rxStgDrop.wide hd (by decide)]

theorem rxStamp_congr {s t : State} {n : Nat} (ht : t.io.time = s.io.time) (hb : t.buf = s.buf)
    (ha : t.get (pgEth (n / 4) 3) ETH_TS_RX_ADJj.PS (n % 4) = s.get (pgEth (n / 4) 3) ETH_TS_RX_ADJj.PS (n % 4)) (len : Nat) :
    t.rxStamp n len = s.rxStamp n len := by
  have hn : t.io.now16 = s.io.now16 := by
    unfold Io.now16
    rw [ht]
  have hw : t.onWire n len = s.onWire n len := by
    unfold onWire rate mode
    rw [hb]
  unfold rxStamp
  rw [hn, hw, ha]

theorem rxStamp_rxCounted {n : Nat} (hn : n < 128) (k len : Nat) : (s.rxCounted n k).rxStamp n len = s.rxStamp n len := by
  have hw := s.within_rxCounted n k
  refine rxStamp_congr ?_ ?_ ?_ len
  · exact hw.same .time (by decide)
  · exact hw.same .buf (by decide)
  · refine get_of_keeps (s.keeps_rxCounted k) _ _ _ (by decide) ?_
    have e : pgEth (n / 4) 3 + ETH_TS_RX_ADJj.PS.off + ETH_TS_RX_ADJj.PS.stride * (n % 4) = 0x200000 + (4 * (n / 4) + 3) * 0x1000 + 0x40 + 4 * (n % 4) := rfl
    have e2 : pgPmc = 0x140000 := rfl
    unfold inPage
    rw [e, e2]
    omega

/-! ### A frame is received -/

/-- The packet of a frame received on a port. -/
def rxPkt (n : Nat) (d : List Byte) : Pkt :=
  { bytes := d.take (d.length - 4), pipe := n / 16, inPort := n, ts := s.rxStamp n d.length, prio := framePrio d }

theorem frameIn_hears (n : Nat) (d : List Byte) (bad : Bool) (hp : s.portExists n = true) (hl : s.linkUp n = true)
    (hm : s.get (pgEth (n / 4) 0) ETH_LOOPBACK.MODE ≠ 1) : ∃ o, s.frameIn n d bad = (s.sent o).frameRx n d bad := by
  unfold frameIn
  dsimp only
  rw [if_neg (by simp [hp, hl, hm])]
  split
  · exact ⟨_, rfl⟩
  · exact ⟨s.io.out, rfl⟩

theorem frameRx_disabled {n : Nat} {d : List Byte} {bad : Bool} (h : s.get (pgEth (n / 4) 1) ETH_MAC_CFG.RX_EN (n % 4) = 0) :
    s.frameRx n d bad = s.ctr (pgPmcL (n / 16)) PMC_RX_DISABLED.COUNT 1 (n % 16) := if_pos h

section
variable {s} {n : Nat} {d : List Byte} {bad : Bool} (hr : s.get (pgEth (n / 4) 1) ETH_MAC_CFG.RX_EN (n % 4) = 1)
include hr

theorem frameRx_runt (h : d.length < 64) : s.frameRx n d bad = s.ctr (pgPmcL (n / 16)) PMC_RX_RUNT.COUNT 1 (n % 16) := by
  unfold frameRx
  dsimp only
  rw [if_neg (by omega), if_pos h]

variable (hl : 64 ≤ d.length)
include hl

theorem frameRx_oversize (h : s.maxFrame n < d.length) : s.frameRx n d bad = s.ctr (pgPmcL (n / 16)) PMC_RX_OVERSIZE.COUNT 1 (n % 16) := by
  unfold frameRx
  dsimp only
  rw [if_neg (by omega), if_neg (by omega), if_pos h]

variable (hm : d.length ≤ s.maxFrame n)
include hm

theorem frameRx_fcsErr (h : bad = true ∨ d.drop (d.length - 4) ≠ fcsOf (d.take (d.length - 4))) :
    s.frameRx n d bad = s.ctr (pgPmcL (n / 16)) PMC_RX_FCS_ERR.COUNT 1 (n % 16) := by
  unfold frameRx
  dsimp only
  rw [if_neg (by omega), if_neg (by omega), if_neg (by omega), if_pos (by simpa using h)]

variable (hb : bad = false) (hf : d.drop (d.length - 4) = fcsOf (d.take (d.length - 4)))
include hb hf

theorem frameRx_sound : s.frameRx n d bad =
    if beAt d 12 2 = 0x8808 then (s.ctr (pgPmcL (n / 16)) PMC_RX_MACCTL.COUNT 1 (n % 16)).macControl n d
    else (s.rxCounted n d.length).stage ((s.rxCounted n d.length).rxPkt n d) := by
  unfold frameRx
  dsimp only
  rw [if_neg (by omega), if_neg (by omega), if_neg (by omega), if_neg (by simp [hb, hf])]
  rfl

end

theorem stage_drops {k : Pkt} (hs : k.steered = false) (h : stagingCells < ((s.staged k.pipe).map Pkt.cells).sum + k.cells) :
    s.stage k = (s.ctr (pgPmcL k.pipe) PMC_RX_STG_DROP.COUNT 1 (k.inPort % 16)).upIo
      (·.accAdd (pgPmcL k.pipe) PORT_STG_DROP.COUNT 1 (k.inPort % 16)) := by
  unfold stage
  dsimp only
  rw [if_pos h, if_neg (by rw [hs]; decide)]

theorem stage_enters {k : Pkt} (hs : k.steered = false) (h : ((s.staged k.pipe).map Pkt.cells).sum + k.cells ≤ stagingCells) :
    s.stage k = (s.setStaged k.pipe (s.staged k.pipe ++ [k])).fcUpdate k.inPort := by
  unfold stage
  dsimp only
  rw [if_neg (by omega), if_neg (by rw [hs]; decide)]

theorem cells_body {d : List Byte} (h : 64 ≤ d.length) : ceilDiv ((d.take (d.length - 4)).length + 4) 64 = ceilDiv d.length 64 := by
  rw [List.length_take, Nat.min_eq_left (by omega), Nat.sub_add_cancel (by omega)]

theorem staged_setStaged (p q : Nat) (l : List Pkt) : (s.setStaged p l).staged q = if q = p then l else s.staged q := by
  unfold staged setStaged
  split
  next h => rw [h, SMap.get_set_same]
  next h => rw [SMap.get_set_ne _ _ _ _ h]

/-- The packet of the received frame has entered staging. -/
def staging (n : Nat) (d : List Byte) : State := (s.setStaged (n / 16) (s.staged (n / 16) ++ [s.rxPkt n d])).fcUpdate n

theorem stage_rxPkt_enters {n : Nat} {d : List Byte} (h : 64 ≤ d.length)
    (hs : ((s.staged (n / 16)).map Pkt.cells).sum + ceilDiv d.length 64 ≤ stagingCells) : s.stage (s.rxPkt n d) = s.staging n d :=
  s.stage_enters (k := s.rxPkt n d) rfl (by rw [← cells_body h] at hs; exact hs)

/-- A frame of the port has been dropped because staging was full. -/
def stgDropped (n : Nat) : State :=
  (s.ctr (pgPmcL (n / 16)) PMC_RX_STG_DROP.COUNT 1 (n % 16)).upIo (·.accAdd (pgPmcL (n / 16)) PORT_STG_DROP.COUNT 1 (n % 16))

theorem within_stgDropped (n : Nat) : s.Within (.acc :: ctrParts) (s.stgDropped n) :=
  .mono (.after (.upIo (Io.within_accAdd ..)) (within_ctr ..)) (by decide)

theorem get_stgDropped (n : Nat) : (s.stgDropped n).get (pgPmcL (n / 16)) PMC_RX_STG_DROP.COUNT (n % 16)
    = (s.get (pgPmcL (n / 16)) PMC_RX_STG_DROP.COUNT (n % 16) + 1) % 2 ^ 64 := by
  have hw : (s.ctr (pgPmcL (n / 16)) PMC_RX_STG_DROP.COUNT 1 (n % 16)).Within [.acc] (s.stgDropped n) := .upIo (Io.within_accAdd ..)
  have hk := KeepsWords.of_regs (hw.same .regs (by decide)) fun _ => False
  rw [get_rxCount_of_low hk (fun _ => False.elim) rxStgDrop, get_ctr_same _ _ _ _ _ rxStgDrop.wide (rxCount_addr rxStgDrop n).2]

theorem stage_rxPkt_drops {n : Nat} {d : List Byte} (h : 64 ≤ d.length)
    (hs : stagingCells < ((s.staged (n / 16)).map Pkt.cells).sum + ceilDiv d.length 64) : s.stage (s.rxPkt n d) =
    s.stgDropped n :=
  s.stage_drops (k := s.rxPkt n d) rfl (by rw [← cells_body h] at hs; exact hs)

theorem within_staging (n : Nat) (d : List Byte) : s.Within [.buf, .regs, .out] (s.staging n d) :=
  .mono (.after (within_fcUpdate _ _) (within_setBuf ..)) (by decide)

theorem buf_staging (n : Nat) (d : List Byte) :
    (s.staging n d).buf = { s.buf with staging := s.buf.staging.set [] (n / 16) (s.staged (n / 16) ++ [s.rxPkt n d]) } := by
  unfold staging
  rw [buf_fcUpdate]
  rfl

theorem staged_staging (n p : Nat) (d : List Byte) :
    (s.staging n d).staged p = if p = n / 16 then s.staged (n / 16) ++ [s.rxPkt n d] else s.staged p := by
  rw [← s.staged_setStaged]
  unfold staged
  rw [buf_staging]
  rfl

theorem keeps_staging (n : Nat) (d : List Byte) : KeepsWords (fcWord n) s (s.staging n d) := .after (keeps_fcUpdate _ _) (.of_regs rfl _)

/-- What a MAC Control frame leaves, once it has been counted. -/
theorem macControl_leaves {s x : State} {n c : Nat} (hn : n < 128) (d : List Byte) (hw : s.Within ioParts x)
    (hg : x.get (pgPmcL (n / 16)) PMC_RX_MACCTL.COUNT (n % 16) = c) :
    (x.macControl n d).get (pgPmcL (n / 16)) PMC_RX_MACCTL.COUNT (n % 16) = c ∧
    x.macControl n d = { s with io := (x.macControl n d).io, buf := { s.buf with sched := (x.macControl n d).buf.sched } } := by
  have hb : x.buf = s.buf := hw.same .buf (by decide)
  have hm : s.Within (ioParts ++ [.buf]) (x.macControl n d) := .mono (.after (within_macControl _ _ _) hw) (by decide)
  refine ⟨(get_macControl _ hn d).trans hg, hm.eq_ioBufOf ?_⟩
  rw [← hb]
  exact buf_macControl _ _ _

/-- What a data frame that enters staging leaves, once it has been counted. -/
theorem staging_leaves {s x : State} {n f b : Nat} (hn : n < 128) (d : List Byte) (hw : s.Within ioParts x) (ht : x.rxPkt n d = s.rxPkt n d)
    (hf : x.get (pgPmcL (n / 16)) PMC_RX_FRAMES.COUNT (n % 16) = f) (hb : x.get (pgPmcL (n / 16)) PMC_RX_BYTES.COUNT (n % 16) = b) :
    (x.staging n d).staged (n / 16) = s.staged (n / 16) ++ [s.rxPkt n d] ∧ (∀ p, p ≠ n / 16 → (x.staging n d).staged p = s.staged p) ∧
    (x.staging n d).get (pgPmcL (n / 16)) PMC_RX_FRAMES.COUNT (n % 16) = f ∧
    (x.staging n d).get (pgPmcL (n / 16)) PMC_RX_BYTES.COUNT (n % 16) = b ∧
    x.staging n d = { s with io := (x.staging n d).io, buf := { s.buf with staging := (x.staging n d).buf.staging } } := by
  have hxb : x.buf = s.buf := hw.same .buf (by decide)
  have hs (p : Nat) : x.staged p = s.staged p := by
    unfold staged
    rw [hxb]
  have hk (f : Fld) (h : RxCount f) := get_rxCount_of_low (x.keeps_staging n d) (fun _ => fcWord_low hn) h n
  have hm : s.Within (ioParts ++ [.buf]) (x.staging n d) := .mono (.after (within_staging _ _ _) hw) (by decide)
  refine ⟨?_, fun p hp => ?_, (hk _ rxFrames).trans hf, (hk _ rxBytes).trans hb, hm.eq_ioBufOf ?_⟩
  · rw [staged_staging, if_pos rfl, ht, hs]
  · rw [staged_staging, if_neg hp, hs]
  · rw [buf_staging, hxb]

end State

/-! ### The obligation -/

section
variable {s : State} {n : Fin 128} {d : List Byte} {bad : Bool}

theorem frameReceive_nothing (_ : s.on = true)
    (h : s.portExists n.val = false ∨ s.linkUp n.val = false ∨ s.get (pgEth (n.val / 4) 0) ETH_LOOPBACK.MODE = 1) :
    NoEffect (.frameReceive n d bad) s :=
  .live (f := fun s => s.frameIn n.val d bad) rfl (if_pos (by
    rcases h with h | h | h
    · simp [h]
    · simp [h]
    · exact .inr h))

/-- A data frame, or a MAC Control frame, that is sound. -/
theorem frameRx_sent (o : List Out) (hr : s.get (pgEth (n.val / 4) 1) ETH_MAC_CFG.RX_EN (n.val % 4) = 1) (h64 : 64 ≤ d.length)
    (hx : d.length ≤ s.maxFrame n.val) (hb : bad = false) (hf : d.drop (d.length - 4) = fcsOf (d.take (d.length - 4))) :
    (s.sent o).frameRx n.val d bad =
    if beAt d 12 2 = 0x8808 then ((s.sent o).ctr (pgPmcL (n.val / 16)) PMC_RX_MACCTL.COUNT 1 (n.val % 16)).macControl n.val d
    else ((s.sent o).rxCounted n.val d.length).stage (((s.sent o).rxCounted n.val d.length).rxPkt n.val d) :=
  State.frameRx_sound ((s.get_sent o _ _ _).trans hr) h64 ((s.maxFrame_sent o _).symm ▸ hx) hb hf

variable (hon : s.on = true)
  (hp : s.portExists n.val = true) (hu : s.linkUp n.val = true) (hm : s.get (pgEth (n.val / 4) 0) ETH_LOOPBACK.MODE ≠ 1)
include hon hp hu hm

/-- A received frame: it is enough to follow it from the state whose outputs hold its loopback. -/
theorem frameReceive_of {P : State → Prop} {F : List Part}
    (h : ∀ o, ∃ t, (s.sent o).frameRx n.val d bad = t ∧ s.Within F t ∧ P t) (hF : Part.pending ∉ F) : Completes (.frameReceive n d bad) s P := by
  obtain ⟨o, ho⟩ := s.frameIn_hears n.val d bad hp hu hm
  obtain ⟨t, h1, hw, h2⟩ := h o
  exact .live_eq (f := fun s => s.frameIn n.val d bad) rfl hon (ho.trans h1) (hw.same .pending hF) h2

/-- A frame that is discarded is counted, and nothing else happens. -/
theorem frameReceive_counted {f : Fld} (hc : State.RxCount f)
    (hf : ∀ o, (s.sent o).frameRx n.val d bad = (s.sent o).ctr (pgPmcL (n.val / 16)) f 1 (n.val % 16)) :
    Completes (.frameReceive n d bad) s (fun t =>
      t.get (pgPmcL (n.val / 16)) f (n.val % 16) = (s.get (pgPmcL (n.val / 16)) f (n.val % 16) + 1) % 2 ^ 64 ∧ OnlyIo s t) := by
  refine frameReceive_of hon hp hu hm (F := ioParts) (fun o => ?_) (by decide)
  have hw : s.Within ioParts ((s.sent o).ctr (pgPmcL (n.val / 16)) f 1 (n.val % 16)) :=
    .mono (.after ((s.sent o).within_ctr _ _ _ _) (s.within_sent o)) (by decide)
  have hg := (s.sent o).get_ctr_same (pgPmcL (n.val / 16)) f 1 (n.val % 16) hc.wide (State.rxCount_addr hc _).2
  rw [State.get_sent] at hg
  exact ⟨_, hf o, hw, hg, .of_within hw⟩

theorem frameReceive_disabled (hr : s.get (pgEth (n.val / 4) 1) ETH_MAC_CFG.RX_EN (n.val % 4) = 0) :
    Completes (.frameReceive n d bad) s (fun t => t.get (pgPmcL (n.val / 16)) PMC_RX_DISABLED.COUNT (n.val % 16)
      = (s.get (pgPmcL (n.val / 16)) PMC_RX_DISABLED.COUNT (n.val % 16) + 1) % 2 ^ 64 ∧ OnlyIo s t) :=
  frameReceive_counted hon hp hu hm ⟨⟨rfl, rfl, rfl⟩, rfl, by decide, by decide⟩ fun o =>
    State.frameRx_disabled (s.sent o) ((s.get_sent o _ _ _).trans hr)

variable (hr : s.get (pgEth (n.val / 4) 1) ETH_MAC_CFG.RX_EN (n.val % 4) = 1)
include hr

theorem frameReceive_runt (h : d.length < 64) :
    Completes (.frameReceive n d bad) s (fun t => t.get (pgPmcL (n.val / 16)) PMC_RX_RUNT.COUNT (n.val % 16)
      = (s.get (pgPmcL (n.val / 16)) PMC_RX_RUNT.COUNT (n.val % 16) + 1) % 2 ^ 64 ∧ OnlyIo s t) :=
  frameReceive_counted hon hp hu hm ⟨⟨rfl, rfl, rfl⟩, rfl, by decide, by decide⟩ fun o => State.frameRx_runt ((s.get_sent o _ _ _).trans hr) h

variable (h64 : 64 ≤ d.length)
include h64

theorem frameReceive_oversize (h : s.maxFrame n.val < d.length) :
    Completes (.frameReceive n d bad) s (fun t => t.get (pgPmcL (n.val / 16)) PMC_RX_OVERSIZE.COUNT (n.val % 16)
      = (s.get (pgPmcL (n.val / 16)) PMC_RX_OVERSIZE.COUNT (n.val % 16) + 1) % 2 ^ 64 ∧ OnlyIo s t) :=
  frameReceive_counted hon hp hu hm ⟨⟨rfl, rfl, rfl⟩, rfl, by decide, by decide⟩ fun o =>
    State.frameRx_oversize ((s.get_sent o _ _ _).trans hr) h64 ((s.maxFrame_sent o _).symm ▸ h)

variable (hx : d.length ≤ s.maxFrame n.val)
include hx

theorem frameReceive_fcsErr (h : bad = true ∨ d.drop (d.length - 4) ≠ fcsOf (d.take (d.length - 4))) :
    Completes (.frameReceive n d bad) s (fun t => t.get (pgPmcL (n.val / 16)) PMC_RX_FCS_ERR.COUNT (n.val % 16)
      = (s.get (pgPmcL (n.val / 16)) PMC_RX_FCS_ERR.COUNT (n.val % 16) + 1) % 2 ^ 64 ∧ OnlyIo s t) :=
  frameReceive_counted hon hp hu hm ⟨⟨rfl, rfl, rfl⟩, rfl, by decide, by decide⟩ fun o =>
    State.frameRx_fcsErr ((s.get_sent o _ _ _).trans hr) h64 ((s.maxFrame_sent o _).symm ▸ hx) h

variable (hb : bad = false) (hf : d.drop (d.length - 4) = fcsOf (d.take (d.length - 4)))
include hb hf

theorem frameReceive_macControl (ht : beAt d 12 2 = 0x8808) : Completes (.frameReceive n d bad) s (fun t =>
    t.get (pgPmcL (n.val / 16)) PMC_RX_MACCTL.COUNT (n.val % 16) = (s.get (pgPmcL (n.val / 16)) PMC_RX_MACCTL.COUNT (n.val % 16) + 1) % 2 ^ 64 ∧
    t = { s with io := t.io, buf := { s.buf with sched := t.buf.sched } }) := by
  refine frameReceive_of hon hp hu hm (F := .buf :: ioParts) (fun o => ?_) (by decide)
  have he := (frameRx_sent o hr h64 hx hb hf).trans (if_pos ht)
  have hw : s.Within ioParts ((s.sent o).ctr (pgPmcL (n.val / 16)) PMC_RX_MACCTL.COUNT 1 (n.val % 16)) :=
    .mono (.after ((s.sent o).within_ctr _ _ _ _) (s.within_sent o)) (by decide)
  have hg := (s.sent o).get_ctr_same (pgPmcL (n.val / 16)) PMC_RX_MACCTL.COUNT 1 (n.val % 16) State.rxMacctl.wide
    (State.rxCount_addr State.rxMacctl _).2
  rw [State.get_sent] at hg
  exact ⟨_, he, .mono (.after (State.within_macControl _ _ _) hw) (by decide), State.macControl_leaves n.isLt d hw hg⟩

variable (ht : beAt d 12 2 ≠ 0x8808)
include ht

/-- A data frame is counted, and then enters staging or is dropped. -/
theorem frameReceive_data {P : State → Prop} {f : State → State} (hF : ∀ x : State, x.Within (.acc :: .buf :: ctrParts) (f x))
    (h : ∀ x : State, s.Within ioParts x → x.rxPkt n.val d = s.rxPkt n.val d →
      x.get (pgPmcL (n.val / 16)) PMC_RX_FRAMES.COUNT (n.val % 16) = (s.get (pgPmcL (n.val / 16)) PMC_RX_FRAMES.COUNT (n.val % 16) + 1) % 2 ^ 64 →
      x.get (pgPmcL (n.val / 16)) PMC_RX_BYTES.COUNT (n.val % 16)
        = (s.get (pgPmcL (n.val / 16)) PMC_RX_BYTES.COUNT (n.val % 16) + d.length) % 2 ^ 64 →
      x.get (pgPmcL (n.val / 16)) PMC_RX_STG_DROP.COUNT (n.val % 16) = s.get (pgPmcL (n.val / 16)) PMC_RX_STG_DROP.COUNT (n.val % 16) →
      x.stage (x.rxPkt n.val d) = f x ∧ P (f x)) : Completes (.frameReceive n d bad) s P := by
  refine frameReceive_of hon hp hu hm (F := .buf :: ioParts) (fun o => ?_) (by decide)
  have he := (frameRx_sent o hr h64 hx hb hf).trans (if_neg ht)
  have hw : s.Within ioParts ((s.sent o).rxCounted n.val d.length) :=
    .mono (.after ((s.sent o).within_rxCounted _ _) (s.within_sent o)) (by decide)
  have hk : ((s.sent o).rxCounted n.val d.length).rxPkt n.val d = s.rxPkt n.val d := by
    unfold State.rxPkt
    rw [State.rxStamp_rxCounted _ n.isLt, State.rxStamp_sent]
  have hg := (s.sent o).get_rxCounted n.val d.length
  have hd := (s.sent o).get_rxCounted_drop n.val d.length
  rw [State.get_sent, State.get_sent] at hg
  rw [State.get_sent] at hd
  obtain ⟨h1, h2⟩ := h _ hw hk hg.1 hg.2 hd
  exact ⟨_, he.trans h1, .mono (.after (hF _) hw) (by decide), h2⟩

theorem frameReceive_stages (hs : ((s.staged (n.val / 16)).map Pkt.cells).sum + ceilDiv d.length 64 ≤ stagingCells) :
    Completes (.frameReceive n d bad) s (fun t =>
      t.staged (n.val / 16) = s.staged (n.val / 16) ++ [s.rxPkt n.val d] ∧ (∀ p, p ≠ n.val / 16 → t.staged p = s.staged p) ∧
      t.get (pgPmcL (n.val / 16)) PMC_RX_FRAMES.COUNT (n.val % 16) = (s.get (pgPmcL (n.val / 16)) PMC_RX_FRAMES.COUNT (n.val % 16) + 1) % 2 ^ 64 ∧
      t.get (pgPmcL (n.val / 16)) PMC_RX_BYTES.COUNT (n.val % 16)
        = (s.get (pgPmcL (n.val / 16)) PMC_RX_BYTES.COUNT (n.val % 16) + d.length) % 2 ^ 64 ∧
      t = { s with io := t.io, buf := { s.buf with staging := t.buf.staging } }) := by
  refine frameReceive_data hon hp hu hm hr h64 hx hb hf ht (f := fun x => x.staging n.val d)
    (fun x => .mono (x.within_staging _ _) (by decide)) fun x hw hk h1 h2 _ => ⟨x.stage_rxPkt_enters h64 ?_, State.staging_leaves n.isLt d hw hk h1 h2⟩
  rwa [State.staged, hw.same .buf (by decide)]

theorem frameReceive_drops (hs : stagingCells < ((s.staged (n.val / 16)).map Pkt.cells).sum + ceilDiv d.length 64) :
    Completes (.frameReceive n d bad) s (fun t => t.get (pgPmcL (n.val / 16)) PMC_RX_STG_DROP.COUNT (n.val % 16)
      = (s.get (pgPmcL (n.val / 16)) PMC_RX_STG_DROP.COUNT (n.val % 16) + 1) % 2 ^ 64 ∧ OnlyIo s t) := by
  have hF (x : State) : x.Within (.acc :: ctrParts) (x.stgDropped n.val) := x.within_stgDropped n.val
  refine frameReceive_data hon hp hu hm hr h64 hx hb hf ht (f := fun x => x.stgDropped n.val)
    (fun x => .mono (hF x) (by decide)) fun x hw _ _ _ h3 => ⟨x.stage_rxPkt_drops h64 ?_, ?_, .of_within (.mono (.after (hF x) hw) (by decide))⟩
  · rwa [State.staged, hw.same .buf (by decide)]
  · rw [State.get_stgDropped, h3]

end

/-- Settles O26, by the cases of the discards in their order and, for a sound frame, by what its EtherType and the room of staging say. -/
theorem frameReception : Obligations.FrameReception := by
  unfold Obligations.FrameReception
  refine fun s n d bad hon => ⟨frameReceive_nothing hon, fun hp hu hm => ⟨frameReceive_disabled hon hp hu hm,
    frameReceive_runt hon hp hu hm, fun hr h64 => frameReceive_oversize hon hp hu hm hr h64, fun hr h64 hx =>
    ⟨frameReceive_fcsErr hon hp hu hm hr h64 hx, fun hb hf => ⟨frameReceive_macControl hon hp hu hm hr h64 hx hb hf,
      frameReceive_stages hon hp hu hm hr h64 hx hb hf, frameReceive_drops hon hp hu hm hr h64 hx hb hf⟩⟩⟩⟩

end Sys2Proof.Machine
end

section
/-!
SUPPORT. PAUSE and PFC frames received and sent again (R105, R106).
-/
namespace Sys2Proof.Machine

/-! ### Words built from bits -/

/-- The number whose bits below `m` are `f`. -/
def bitSum (f : Nat → Bool) (m : Nat) : Nat := (List.range m).foldl (fun a i => a + (if f i then 2 ^ i else 0)) 0

theorem bitSum_succ (f : Nat → Bool) (m : Nat) : bitSum f (m + 1) = bitSum f m + (if f m then 2 ^ m else 0) := by
  unfold bitSum
  rw [List.range_succ, List.foldl_append]
  rfl

theorem bitSum_lt (f : Nat → Bool) (m : Nat) : bitSum f m < 2 ^ m := by
  induction m with
  | zero => exact Nat.one_pos
  | succ m ih =>
    rw [bitSum_succ, Nat.pow_succ]
    split <;> omega

theorem testBit_bitSum (f : Nat → Bool) (m k : Nat) : (bitSum f m).testBit k = (decide (k < m) && f k) := by
  induction m with
  | zero => simp [bitSum]
  | succ m ih =>
    have hlt := bitSum_lt f m
    rw [bitSum_succ]
    rcases Nat.lt_trichotomy k m with hk | rfl | hk
    · have h : (bitSum f m + if f m then 2 ^ m else 0).testBit k = (bitSum f m).testBit k := by
        split
        · rw [Nat.add_comm, Nat.testBit_two_pow_add_gt hk]
        · rfl
      rw [h, ih]
      simp [hk, Nat.lt_succ_of_lt hk]
    · have h : (bitSum f k + if f k then 2 ^ k else 0).testBit k = f k := by
        split
        next hf => rw [Nat.add_comm, Nat.testBit_two_pow_add_eq, Nat.testBit_lt_two_pow hlt, hf]; rfl
        next hf => rw [Nat.add_zero, Nat.testBit_lt_two_pow hlt]; simpa using hf
      rw [h]
      simp
    · have h := bitSum_lt f (m + 1)
      rw [bitSum_succ] at h
      rw [Nat.testBit_lt_two_pow (Nat.lt_of_lt_of_le h (Nat.pow_le_pow_right (by decide) hk))]
      simp [Nat.not_lt.2 hk]

theorem bitSum_congr {f g : Nat → Bool} {m : Nat} (h : ∀ i < m, f i = g i) : bitSum f m = bitSum g m := by
  refine Nat.eq_of_testBit_eq fun k => ?_
  rw [testBit_bitSum, testBit_bitSum]
  by_cases hk : k < m
  · rw [h k hk]
  · simp [hk]

theorem eq_bitSum {f : Nat → Bool} {c m : Nat} (hc : c < 2 ^ m) (h : ∀ i < m, c.testBit i = f i) : bitSum f m = c := by
  refine Nat.eq_of_testBit_eq fun k => ?_
  rw [testBit_bitSum]
  by_cases hk : k < m
  · simp [hk, h k hk]
  · rw [Nat.testBit_lt_two_pow (Nat.lt_of_lt_of_le hc (Nat.pow_le_pow_right (by decide) (Nat.not_lt.1 hk)))]
    simp [hk]

/-- Entries set one after another. -/
theorem SMap.get_setEach (c : Nat → Bool) (v : Nat → Nat) (e : SMap Nat) (m k : Nat) :
    ((List.range m).foldl (fun (e : SMap Nat) i => if c i then e.set 0 i (v i) else e) e).get 0 k
      = if (decide (k < m) && c k) = true then v k else e.get 0 k := by
  induction m with
  | zero => simp
  | succ m ih =>
    rw [List.range_succ, List.foldl_append, List.foldl_cons, List.foldl_nil]
    by_cases hk : k = m
    · subst hk
      split
      next hc => rw [SMap.get_set_same]; simp [hc]
      next hc => rw [ih]; simp [hc]
    · have h : decide (k < m + 1) = decide (k < m) := by
        rw [decide_eq_decide]
        omega
      rw [h, ← ih]
      split
      · exact SMap.get_set_ne _ _ _ _ hk
      · rfl

namespace State

variable (s : State)

/-! ### A received PAUSE frame -/

/-- The queues of a port that are paused once the quanta of `classes` have come. -/
def pausedNext (old classes : Nat) (quanta : Nat → Nat) : Nat :=
  bitSum (fun i => if classes.testBit i then decide (quanta i ≠ 0) else old.testBit i) 8

theorem pauseBit (c o : Bool) (q i : Nat) : (if c = true then (if q = 0 then 0 else 2 ^ i) else b2n o * 2 ^ i)
    = if (if c then decide (q ≠ 0) else o) = true then 2 ^ i else 0 := by
  cases c
  · cases o <;> simp [b2n]
  · by_cases hq : q = 0 <;> simp [hq]

theorem pauseRx_io (n classes : Nat) (quanta : Nat → Nat) : (s.pauseRx n classes quanta).io =
    (s.put (pgEth (n / 4) 1) ETH_FC_STAT.RX_PAUSED
      (pausedNext (s.get (pgEth (n / 4) 1) ETH_FC_STAT.RX_PAUSED (n % 4)) classes quanta) (n % 4)).io := by
  unfold pauseRx pausedNext bitSum
  dsimp only
  congr 2
  exact congrArg (fun f => (List.range 8).foldl f 0) (funext fun a => funext fun i => congrArg (a + ·) (pauseBit _ _ _ _))

theorem get_pauseRx (n classes : Nat) (quanta : Nat → Nat) :
    (s.pauseRx n classes quanta).get (pgEth (n / 4) 1) ETH_FC_STAT.RX_PAUSED (n % 4)
      = pausedNext (s.get (pgEth (n / 4) 1) ETH_FC_STAT.RX_PAUSED (n % 4)) classes quanta := by
  rw [State.get_eq, pauseRx_io, ← State.get_eq, State.get_put_same _ _ _ _ _ rfl (by decide)]
  exact Nat.mod_eq_of_lt (bitSum_lt _ _)

theorem testBit_pausedNext (old classes : Nat) (quanta : Nat → Nat) (i : Fin 8) :
    (pausedNext old classes quanta).testBit i.val = if classes.testBit i.val = true then decide (quanta i.val ≠ 0) else old.testBit i.val := by
  unfold pausedNext
  rw [testBit_bitSum, decide_eq_true i.isLt, Bool.true_and]

theorem pauseEnd_pauseRx (n classes : Nat) (quanta : Nat → Nat) {i : Fin 8} (hc : classes.testBit i.val = true) (hq : quanta i.val ≠ 0) :
    ((s.pauseRx n classes quanta).buf.sched.get {} n).pauseEnd.get 0 i.val
      = s.io.time.counted + ceilDiv (512 * quanta i.val) (max 1 (s.rate n)) := by
  unfold pauseRx
  extract_lets b old new x sc ends
  have hw : s.Within [.regs, .bank] x := s.within_putAny _ _ _ _
  have ht : x.io.time = s.io.time := hw.same .time (by decide)
  have hr : x.rate n = s.rate n := by
    unfold rate mode
    rw [hw.same .buf (by decide)]
  have he := SMap.get_setEach (fun i => classes.testBit i)
    (fun i => if quanta i = 0 then 0 else x.io.time.counted + ceilDiv (512 * quanta i) (max 1 (x.rate n))) sc.pauseEnd 8 i.val
  rw [hc, decide_eq_true i.isLt, Bool.true_and, if_pos rfl, if_neg hq, ht, hr] at he
  rw [← he, SMap.get_set_same]
  rfl

theorem get_pauseRx_macctl {n : Nat} (hn : n < 128) (classes : Nat) (quanta : Nat → Nat) :
    (s.pauseRx n classes quanta).get (pgPmcL (n / 16)) PMC_RX_MACCTL.COUNT (n % 16) = s.get (pgPmcL (n / 16)) PMC_RX_MACCTL.COUNT (n % 16) :=
  get_rxCount_of_low (s.keeps_pauseRx n _ _) (fun _ => fcWord_low hn) rxMacctl n

/-- A MAC Control frame of the port has been counted. -/
def macCounted (n : Nat) : State := s.ctr (pgPmcL (n / 16)) PMC_RX_MACCTL.COUNT 1 (n % 16)

theorem within_macCounted (n : Nat) : s.Within ctrParts (s.macCounted n) := within_ctr ..

theorem get_macCounted (n : Nat) : (s.macCounted n).get (pgPmcL (n / 16)) PMC_RX_MACCTL.COUNT (n % 16)
    = (s.get (pgPmcL (n / 16)) PMC_RX_MACCTL.COUNT (n % 16) + 1) % 2 ^ 64 :=
  get_ctr_same _ _ _ _ _ rxMacctl.wide (rxCount_addr rxMacctl n).2

/-- The registers of a port stay when a MAC Control frame is counted. -/
theorem get_macCounted_eth {n : Nat} (hn : n < 128) (f : Fld) (hf : f.rws = false ∧ f.lo + f.len ≤ 32)
    (ho : f.stride = 32 ∧ f.off + 100 ≤ 0x1000) :
    (s.macCounted n).get (pgEth (n / 4) 1) f (n % 4) = s.get (pgEth (n / 4) 1) f (n % 4) := by
  have e := pgEth_eq (n / 4) 1
  have ha := (rxCount_addr rxMacctl n).1
  refine get_ctr_narrow _ _ hf (.inr ?_) (.inl ?_)
  · have e2 : pgPmc = 0x140000 := rfl
    rw [ho.1]
    omega
  · rw [ho.1]
    omega

theorem fcMode_macCounted {n : Nat} (hn : n < 128) : (s.macCounted n).fcMode n = s.fcMode n :=
  congrArg (· % 3) (s.get_macCounted_eth hn ETH_MAC_CFG.FC_MODE (by decide) (by decide))

theorem pauseIn_counts {n : Nat} (hn : n < 128) (hp : s.portExists n = true) (hu : s.linkUp n = true)
    (hr : s.get (pgEth (n / 4) 1) ETH_MAC_CFG.RX_EN (n % 4) = 1) (pfc : Bool) (classes : Nat) (quanta : Nat → Nat) :
    s.pauseIn n pfc classes quanta =
      if pfc then (if s.fcMode n = 2 then
        (s.macCounted n).pauseRx n (classes &&& s.get (pgEth (n / 4) 1) ETH_PFC_MAP.RX_EN (n % 4)) quanta else s.macCounted n)
      else if s.fcMode n = 1 then (s.macCounted n).pauseRx n 0xFF (fun _ => quanta 0) else s.macCounted n := by
  rw [← s.fcMode_macCounted hn, ← s.get_macCounted_eth hn ETH_PFC_MAP.RX_EN (by decide) (by decide)]
  unfold pauseIn
  rw [if_neg (by simp [hp, hu]), if_neg (by omega)]
  rfl

/-- Nothing but the host interface and the transmit state of ports differs. -/
def SchedOnly (s t : State) : Prop := t = { s with io := t.io, buf := { s.buf with sched := t.buf.sched } }

/-- What a pause of queues leaves, once its frame has been counted. -/
theorem pauseRx_leaves {n : Nat} (hn : n < 128) (classes : Nat) (quanta : Nat → Nat) :
    ((s.macCounted n).pauseRx n classes quanta).get (pgEth (n / 4) 1) ETH_FC_STAT.RX_PAUSED (n % 4)
      = pausedNext (s.get (pgEth (n / 4) 1) ETH_FC_STAT.RX_PAUSED (n % 4)) classes quanta ∧
    (∀ i : Fin 8, classes.testBit i.val = true → quanta i.val ≠ 0 →
      (((s.macCounted n).pauseRx n classes quanta).buf.sched.get {} n).pauseEnd.get 0 i.val
        = s.io.time.counted + ceilDiv (512 * quanta i.val) (max 1 (s.rate n))) ∧
    ((s.macCounted n).pauseRx n classes quanta).get (pgPmcL (n / 16)) PMC_RX_MACCTL.COUNT (n % 16)
      = (s.get (pgPmcL (n / 16)) PMC_RX_MACCTL.COUNT (n % 16) + 1) % 2 ^ 64 ∧
    SchedOnly s ((s.macCounted n).pauseRx n classes quanta) := by
  have hg := s.get_macCounted_eth hn ETH_FC_STAT.RX_PAUSED (by decide) (by decide)
  have hm := s.get_macCounted n
  have hw := s.within_macCounted n
  generalize s.macCounted n = x at hg hm hw
  have hb : x.buf = s.buf := hw.same .buf (by decide)
  have ht : x.io.time = s.io.time := hw.same .time (by decide)
  have hr : x.rate n = s.rate n := by
    unfold rate mode
    rw [hb]
  have h : s.Within (ioParts ++ [.buf]) (x.pauseRx n classes quanta) := .mono (.after (within_pauseRx _ _ _ _) hw) (by decide)
  refine ⟨?_, fun i hc hq => ?_, ?_, h.eq_ioBufOf ?_⟩
  · rw [get_pauseRx, hg]
  · rw [pauseEnd_pauseRx _ _ _ _ hc hq, ht, hr]
  · rw [get_pauseRx_macctl _ hn, hm]
  · rw [buf_pauseRx, hb]

/-! ### A timer runs out -/

/-- The time of a queue's pause has passed. -/
def pauseRanOut (n q : Nat) : State := s.passTo ((s.buf.sched.get {} n).pauseEnd.get 0 q)

theorem within_pauseRanOut (n q : Nat) : s.Within ioParts (s.pauseRanOut n q) := .mono (s.within_passTo _) (by decide)

theorem counted_pauseRanOut (n q : Nat) (hi : s.io.tickInc ≠ 0) :
    (s.buf.sched.get {} n).pauseEnd.get 0 q ≤ (s.pauseRanOut n q).io.time.counted := by
  obtain ⟨d, hp, hle⟩ := s.passNs_passed ((s.buf.sched.get {} n).pauseEnd.get 0 q - s.io.time.counted)
  have hc := hp.counted
  have := hle hi
  have e : (s.pauseRanOut n q).io.time.counted = s.io.time.counted + d := hc
  omega

/-- The queue `q` of a port is released, at the end of its timer. -/
def pauseReleased (x : State) (n q old : Nat) (sc : Sched) : State :=
  { x.put (pgEth (n / 4) 1) ETH_FC_STAT.RX_PAUSED (old - 2 ^ q) (n % 4) with
    buf := { (x.put (pgEth (n / 4) 1) ETH_FC_STAT.RX_PAUSED (old - 2 ^ q) (n % 4)).buf with
      sched := (x.put (pgEth (n / 4) 1) ETH_FC_STAT.RX_PAUSED (old - 2 ^ q) (n % 4)).buf.sched.set {} n
        { sc with pauseEnd := sc.pauseEnd.set 0 q 0 } } }

theorem pauseExpire_eq {n q : Nat} (h : (s.get (pgEth (n / 4) 1) ETH_FC_STAT.RX_PAUSED (n % 4)).testBit q = true) : s.pauseExpire n q =
    pauseReleased (s.pauseRanOut n q) n q (s.get (pgEth (n / 4) 1) ETH_FC_STAT.RX_PAUSED (n % 4)) (s.buf.sched.get {} n) := by
  unfold pauseExpire
  dsimp only
  rw [h]
  rfl

theorem pauseReleased_leaves {s x : State} (hw : s.Within ioParts x) (n q old : Nat) (sc : Sched) (ho : old < 2 ^ 8) :
    (pauseReleased x n q old sc).get (pgEth (n / 4) 1) ETH_FC_STAT.RX_PAUSED (n % 4) = old - 2 ^ q ∧
    (pauseReleased x n q old sc).io.time = x.io.time ∧ s.Within (.buf :: ioParts) (pauseReleased x n q old sc) ∧
    SchedOnly s (pauseReleased x n q old sc) := by
  have hb : x.buf = s.buf := hw.same .buf (by decide)
  unfold pauseReleased
  have hp := State.get_put_same x (pgEth (n / 4) 1) ETH_FC_STAT.RX_PAUSED (old - 2 ^ q) (n % 4) rfl (by decide)
  rw [show ETH_FC_STAT.RX_PAUSED.len = 8 from rfl, Nat.mod_eq_of_lt (Nat.lt_of_le_of_lt (Nat.sub_le _ _) ho)] at hp
  have hy : x.Within [.regs, .bank] (x.put (pgEth (n / 4) 1) ETH_FC_STAT.RX_PAUSED (old - 2 ^ q) (n % 4)) := x.within_putAny _ _ _ _
  generalize x.put (pgEth (n / 4) 1) ETH_FC_STAT.RX_PAUSED (old - 2 ^ q) (n % 4) = y at hp hy
  have hyb : y.buf = s.buf := (hy.same .buf (by decide)).trans hb
  have h : s.Within (ioParts ++ [.buf])
      { y with buf := { y.buf with sched := y.buf.sched.set {} n { sc with pauseEnd := sc.pauseEnd.set 0 q 0 } } } :=
    .mono (.after (y.within_setBuf _) (.after hy hw)) (by decide)
  refine ⟨hp, hy.same .time (by decide), h.mono (by decide), h.eq_ioBufOf ?_⟩
  rw [hyb]

/-! ### XOFF again -/

theorem pfcSend_zero (n x : Nat) : s.pfcSend n 0 x = s := by
  unfold pfcSend
  exact if_pos rfl

theorem macTx_idle {n : Nat} (h : s.linkUp n = false ∨ s.get (pgEth (n / 4) 1) ETH_MAC_CFG.TX_EN (n % 4) = 0) (pfc : Bool) (classes : Nat)
    (quanta : List Nat) : s.macTx n pfc classes quanta = s :=
  if_neg (by rcases h with h | h <;> simp [h])

theorem macTx_sends {n : Nat} (hl : s.linkUp n = true) (ht : s.get (pgEth (n / 4) 1) ETH_MAC_CFG.TX_EN (n % 4) = 1) (pfc : Bool) (classes : Nat)
    (quanta : List Nat) : s.macTx n pfc classes quanta = s.emit (.macCtl n pfc classes quanta) := if_pos ⟨hl, ht⟩

/-- The priorities of a port for which XOFF is sent again. -/
def xoffAgain (n : Nat) : Nat :=
  bitSum (fun i => (s.txXoff n).testBit i && (s.pfcTx n).testBit i && decide (s.xon n ≤ s.stgOcc n (some i))) 8

theorem xoffResend_pause {n : Nat} (h : s.fcMode n = 1) : s.xoffResend n =
    if s.txXoff n ≠ 0 ∧ s.xon n ≤ s.stgOcc n none then s.macTx n false 0xFF [s.get (pgEth (n / 4) 1) ETH_FC_QUANTA.QUANTA (n % 4)] else s := by
  unfold xoffResend
  rw [h]
  rfl

theorem xoffResend_pfc {n : Nat} (h : s.fcMode n = 2) : s.xoffResend n = s.pfcSend n (s.xoffAgain n) (s.xoffAgain n) := by
  have e : s.xoffAgain n = bitSum (fun i => (s.txXoff n &&& s.pfcTx n).testBit i && decide (s.xon n ≤ s.stgOcc n (some i))) 8 :=
    bitSum_congr fun i _ => by rw [Nat.testBit_and]
  rw [e]
  unfold xoffResend
  rw [h]
  rfl

theorem fcMode_lt (n : Nat) : s.fcMode n < 3 := Nat.mod_lt _ (by decide)

theorem xoffResend_off {n : Nat} (h : s.fcMode n = 0) : s.xoffResend n = s := by
  unfold xoffResend
  rw [h]
  rfl

theorem xoffResend_cases (n : Nat) : s.xoffResend n = s ∨ (s.txXoff n ≠ 0 ∧ s.fcMode n ≠ 0 ∧
    ∃ pfc classes quanta, s.xoffResend n = s.macTx n pfc classes quanta) := by
  have hlt := s.fcMode_lt n
  have h3 : s.fcMode n = 0 ∨ s.fcMode n = 1 ∨ s.fcMode n = 2 := by omega
  rcases h3 with h | h | h
  · exact .inl (s.xoffResend_off h)
  · rw [s.xoffResend_pause h]
    split
    next hx => exact .inr ⟨hx.1, by omega, _, _, _, rfl⟩
    next => exact .inl rfl
  · rw [s.xoffResend_pfc h]
    by_cases hz : s.xoffAgain n = 0
    · exact .inl (by rw [hz, pfcSend_zero])
    · refine .inr ⟨fun hx => hz ?_, by omega, _, _, _, if_neg hz⟩
      exact eq_bitSum (by decide) fun i _ => by rw [hx]; simp

end State

section
variable {s : State} {n : Fin 128} (hon : s.on = true)

section
variable (pfc : Bool) (classes : BitVec 8) (quanta : List (BitVec 16))

theorem quanta_ne {i : Nat} : ((quanta.getD i 0).toNat ≠ 0) = (quanta.getD i 0 ≠ 0) := by
  rw [ne_eq, ne_eq, ← BitVec.toNat_inj]
  rfl

theorem pauseReceive_nothing (_ : s.on = true) (h : s.portExists n.val = false ∨ s.linkUp n.val = false) :
    NoEffect (.pauseReceive n pfc classes quanta) s :=
  .live (f := fun s => s.pauseIn n.val pfc classes.toNat fun i => (quanta.getD i 0).toNat) rfl
    (if_pos (by rcases h with h | h <;> simp [h]))

variable (hp : s.portExists n.val = true) (hu : s.linkUp n.val = true) (hr : s.get (pgEth (n.val / 4) 1) ETH_MAC_CFG.RX_EN (n.val % 4) = 1)
include hon hp hu hr

theorem pauseReceive_of {P : State → Prop} {t : State}
    (h : (if pfc then (if s.fcMode n.val = 2 then (s.macCounted n.val).pauseRx n.val
        (classes.toNat &&& s.get (pgEth (n.val / 4) 1) ETH_PFC_MAP.RX_EN (n.val % 4)) (fun i => (quanta.getD i 0).toNat) else s.macCounted n.val)
      else if s.fcMode n.val = 1 then (s.macCounted n.val).pauseRx n.val 0xFF (fun _ => (quanta.getD 0 0).toNat) else s.macCounted n.val) = t)
    (hq : t.pending = s.pending) (hP : P t) : Completes (.pauseReceive n pfc classes quanta) s P :=
  .live_eq (f := fun s => s.pauseIn n.val pfc classes.toNat fun i => (quanta.getD i 0).toNat) rfl hon
    ((s.pauseIn_counts n.isLt hp hu hr _ _ _).trans h) hq hP

theorem pauseReceive_pfc (hm : s.fcMode n.val = 2) : Completes (.pauseReceive n true classes quanta) s (fun t =>
    (∀ i : Fin 8, (t.get (pgEth (n.val / 4) 1) ETH_FC_STAT.RX_PAUSED (n.val % 4)).testBit i.val
      = if classes.toNat.testBit i.val && (s.get (pgEth (n.val / 4) 1) ETH_PFC_MAP.RX_EN (n.val % 4)).testBit i.val
        then decide (quanta.getD i.val 0 ≠ 0)
        else (s.get (pgEth (n.val / 4) 1) ETH_FC_STAT.RX_PAUSED (n.val % 4)).testBit i.val) ∧
    (∀ i : Fin 8, classes.toNat.testBit i.val = true →
      (s.get (pgEth (n.val / 4) 1) ETH_PFC_MAP.RX_EN (n.val % 4)).testBit i.val = true → quanta.getD i.val 0 ≠ 0 →
      (t.buf.sched.get {} n.val).pauseEnd.get 0 i.val
        = s.io.time.counted + ceilDiv (512 * (quanta.getD i.val 0).toNat) (max 1 (s.rate n.val))) ∧
    t.get (pgPmcL (n.val / 16)) PMC_RX_MACCTL.COUNT (n.val % 16) = (s.get (pgPmcL (n.val / 16)) PMC_RX_MACCTL.COUNT (n.val % 16) + 1) % 2 ^ 64 ∧
    State.SchedOnly s t) := by
  obtain ⟨h1, h2, h3, h4⟩ := s.pauseRx_leaves n.isLt (classes.toNat &&& s.get (pgEth (n.val / 4) 1) ETH_PFC_MAP.RX_EN (n.val % 4))
    fun i => (quanta.getD i 0).toNat
  refine pauseReceive_of hon true classes quanta hp hu hr ((if_pos rfl).trans (if_pos hm)) ?_ ⟨fun i => ?_, fun i hc he hq => ?_, h3, h4⟩
  · exact (congrArg State.pending h4 :)
  · rw [h1, State.testBit_pausedNext, Nat.testBit_and]
    refine if_congr Iff.rfl (decide_eq_decide.2 (quanta_ne quanta).to_iff) rfl
  · refine h2 i ?_ ((quanta_ne quanta).to_iff.2 hq)
    rw [Nat.testBit_and, hc, he]
    rfl

theorem pauseReceive_pause (hm : s.fcMode n.val = 1) : Completes (.pauseReceive n false classes quanta) s (fun t =>
    t.get (pgEth (n.val / 4) 1) ETH_FC_STAT.RX_PAUSED (n.val % 4) = (if quanta.getD 0 0 = 0 then 0 else 255) ∧
    (quanta.getD 0 0 ≠ 0 → ∀ i : Fin 8, (t.buf.sched.get {} n.val).pauseEnd.get 0 i.val
      = s.io.time.counted + ceilDiv (512 * (quanta.getD 0 0).toNat) (max 1 (s.rate n.val))) ∧
    t.get (pgPmcL (n.val / 16)) PMC_RX_MACCTL.COUNT (n.val % 16) = (s.get (pgPmcL (n.val / 16)) PMC_RX_MACCTL.COUNT (n.val % 16) + 1) % 2 ^ 64 ∧
    State.SchedOnly s t) := by
  obtain ⟨h1, h2, h3, h4⟩ := s.pauseRx_leaves n.isLt 0xFF fun _ => (quanta.getD 0 0).toNat
  have h255 (i : Fin 8) : (0xFF : Nat).testBit i.val = true := by
    revert i
    decide
  refine pauseReceive_of hon false classes quanta hp hu hr ((if_neg (by decide)).trans (if_pos hm)) ?_ ⟨?_, fun hq i => ?_, h3, h4⟩
  · exact (congrArg State.pending h4 :)
  · rw [h1]
    refine eq_bitSum (by split <;> decide) fun i hi => ?_
    rw [h255 ⟨i, hi⟩, if_pos rfl]
    split
    next h =>
      rw [h, Nat.zero_testBit]
      rfl
    next h => rw [h255 ⟨i, hi⟩, decide_eq_true ((quanta_ne quanta).to_iff.2 h)]
  · exact h2 i (h255 i) ((quanta_ne quanta).to_iff.2 hq)

theorem pauseReceive_other (h2 : pfc = true → s.fcMode n.val ≠ 2) (h1 : pfc = false → s.fcMode n.val ≠ 1) :
    Completes (.pauseReceive n pfc classes quanta) s (fun t =>
      t.get (pgPmcL (n.val / 16)) PMC_RX_MACCTL.COUNT (n.val % 16) = (s.get (pgPmcL (n.val / 16)) PMC_RX_MACCTL.COUNT (n.val % 16) + 1) % 2 ^ 64 ∧
      t.get (pgEth (n.val / 4) 1) ETH_FC_STAT.RX_PAUSED (n.val % 4) = s.get (pgEth (n.val / 4) 1) ETH_FC_STAT.RX_PAUSED (n.val % 4) ∧
      OnlyIo s t) := by
  have hw := s.within_macCounted n.val
  refine pauseReceive_of hon pfc classes quanta hp hu hr (t := s.macCounted n.val) ?_ (hw.same .pending (by decide))
    ⟨s.get_macCounted _, s.get_macCounted_eth n.isLt _ (by decide) (by decide), .of_within (hw.mono (by decide))⟩
  cases pfc with
  | true => exact (if_pos rfl).trans (if_neg (h2 rfl))
  | false => exact (if_neg (by decide)).trans (if_neg (h1 rfl))

end

include hon

theorem pauseTimerExpire_releases {q : Fin 8} (hq : (s.get (pgEth (n.val / 4) 1) ETH_FC_STAT.RX_PAUSED (n.val % 4)).testBit q.val = true) :
    Completes (.pauseTimerExpire n q) s (fun t =>
      (t.get (pgEth (n.val / 4) 1) ETH_FC_STAT.RX_PAUSED (n.val % 4)).testBit q.val = false ∧
      (∀ k : Fin 8, k ≠ q → (t.get (pgEth (n.val / 4) 1) ETH_FC_STAT.RX_PAUSED (n.val % 4)).testBit k.val
        = (s.get (pgEth (n.val / 4) 1) ETH_FC_STAT.RX_PAUSED (n.val % 4)).testBit k.val) ∧
      (s.io.tickInc ≠ 0 → (s.buf.sched.get {} n.val).pauseEnd.get 0 q.val ≤ t.io.time.counted) ∧ State.SchedOnly s t) := by
  have hlt : s.get (pgEth (n.val / 4) 1) ETH_FC_STAT.RX_PAUSED (n.val % 4) < 2 ^ 8 := s.io.get_lt _ _ _ rfl (by decide)
  obtain ⟨h1, h2, h3, h4⟩ := State.pauseReleased_leaves (s.within_pauseRanOut n.val q.val) n.val q.val _ (s.buf.sched.get {} n.val) hlt
  refine .live_eq (f := fun s => s.pauseExpire n.val q.val) rfl hon (s.pauseExpire_eq hq) (h3.same .pending (by decide))
    ⟨?_, fun k hk => ?_, fun hi => ?_, h4⟩
  · rw [h1, testBit_sub_pow hq, if_pos rfl]
  · rw [h1, testBit_sub_pow hq, if_neg fun h => hk (Fin.ext h)]
  · rw [h2]
    exact s.counted_pauseRanOut _ _ hi

theorem xoffResend_pauses (hu : s.linkUp n.val = true) (ht : s.get (pgEth (n.val / 4) 1) ETH_MAC_CFG.TX_EN (n.val % 4) = 1)
    (hm : s.fcMode n.val = 1) (hx : s.txXoff n.val ≠ 0) (ho : s.xon n.val ≤ s.stgOcc n.val none) : Completes (.xoffResend n) s (fun t =>
      t = s.emit (.macCtl n.val false 0xFF [s.get (pgEth (n.val / 4) 1) ETH_FC_QUANTA.QUANTA (n.val % 4)])) :=
  .live_eq (f := fun s => s.xoffResend n.val) rfl hon
    ((s.xoffResend_pause hm).trans ((if_pos ⟨hx, ho⟩).trans (s.macTx_sends hu ht _ _ _))) rfl rfl

theorem xoffResend_pfcs (hu : s.linkUp n.val = true) (ht : s.get (pgEth (n.val / 4) 1) ETH_MAC_CFG.TX_EN (n.val % 4) = 1)
    (c : Nat) (hm : s.fcMode n.val = 2) (hz : c ≠ 0) (hc : c < 256)
    (hb : ∀ i : Fin 8, c.testBit i.val = ((s.txXoff n.val).testBit i.val && (s.pfcTx n.val).testBit i.val &&
      decide (s.xon n.val ≤ s.stgOcc n.val (some i.val)))) : Completes (.xoffResend n) s (fun t =>
      t = s.emit (.macCtl n.val true c ((List.range 8).map fun i =>
        if c.testBit i then s.get (pgEth (n.val / 4) 1) ETH_FC_QUANTA.QUANTA (n.val % 4) else 0))) := by
  have he : s.xoffAgain n.val = c := eq_bitSum hc fun i hi => hb ⟨i, hi⟩
  have h : s.xoffResend n.val = s.emit (.macCtl n.val true c ((List.range 8).map fun i =>
      if c.testBit i then s.get (pgEth (n.val / 4) 1) ETH_FC_QUANTA.QUANTA (n.val % 4) else 0)) := by
    rw [s.xoffResend_pfc hm, he, ← s.macTx_sends hu ht]
    unfold State.pfcSend
    dsimp only
    rw [if_neg hz]
    simp only [and_self]
  exact .live_eq (f := fun s => s.xoffResend n.val) rfl hon h rfl rfl

omit hon in
theorem xoffResend_nothing (h : s.txXoff n.val = 0 ∨ s.fcMode n.val = 0 ∨ s.linkUp n.val = false ∨
    s.get (pgEth (n.val / 4) 1) ETH_MAC_CFG.TX_EN (n.val % 4) = 0) : NoEffect (.xoffResend n) s := by
  refine .live (f := fun s => s.xoffResend n.val) rfl ?_
  rcases s.xoffResend_cases n.val with hs | ⟨hx, hm, pfc, c, q, hs⟩
  · exact hs
  · rcases h with h | h | h
    · exact absurd h hx
    · exact absurd h hm
    · exact hs.trans (s.macTx_idle h _ _ _)

end

/-- Settles O27, by the flow control mode of the port, each pause as a sum over its queues. -/
theorem pauseFrames : Obligations.PauseFrames := by
  unfold Obligations.PauseFrames
  refine fun s n hon => ⟨fun classes quanta hp hu hr => ⟨pauseReceive_pfc hon classes quanta hp hu hr,
    pauseReceive_pause hon classes quanta hp hu hr, fun pfc => pauseReceive_other hon pfc classes quanta hp hu hr⟩,
    fun pfc classes quanta => pauseReceive_nothing pfc classes quanta hon, fun q => pauseTimerExpire_releases hon, fun q hq => ?_,
    fun hu ht => ⟨xoffResend_pauses hon hu ht, xoffResend_pfcs hon hu ht⟩, xoffResend_nothing⟩
  exact .live (f := fun s => s.pauseExpire n.val q.val) rfl (if_pos (by rw [hq]; rfl))

end Sys2Proof.Machine
end

section
/-!
SUPPORT. Transmission of a frame by a port (R294, R306, R307).
-/
namespace Sys2Proof.Machine

/-! ### Outputs stay -/

/-- What was put out stays put out. -/
structure Io.Outs (s t : Io) : Prop where
  keep : s.out ⊆ t.out

namespace Io.Outs
variable {s t u : Io}

theorem refl (s : Io) : s.Outs s := ⟨fun _ h => h⟩
theorem after (h' : t.Outs u) (h : s.Outs t) : s.Outs u := ⟨fun _ ho => h'.keep (h.keep ho)⟩
theorem of_eq (h : t.out = s.out) : s.Outs t := ⟨by rw [h]; exact fun _ ho => ho⟩
theorem within {F : List Part} (h : s.Within F t) (hF : Part.out ∉ F) : s.Outs t := of_eq (h.same .out hF)

theorem raise (s : Io) (b n : Nat) : s.Outs (s.raise b n) := by
  obtain ⟨_, l, hl, _⟩ := Io.edge_irq s (s.sourceOf b) (fun io => io.wr (b + 0x10) (s.rd (b + 0x10) ||| BitVec.ofNat 32 (2 ^ n))) rfl
  exact ⟨fun o ho => by
    have e : (s.raise b n).out = l ++ s.out := hl
    rw [e]
    exact List.mem_append_right _ ho⟩

theorem put (s : Io) (b : Nat) (f : Fld) (v i : Nat) : s.Outs (s.put b f v i) := within (s.within_putAny b f v i) (by decide)

theorem wrapped (s : Io) (a : Nat) : s.Outs (s.wrapped a) := by
  unfold Io.wrapped
  extract_lets x y
  have hy : s.Outs y := .after (within (x.within_bump _ _ _ _) (by decide)) (.of_eq rfl)
  clear_value y
  split
  · exact hy
  · exact .after (.raise _ _ _) (.after (within (y.within_wr _ _) (by decide)) hy)

theorem ctr (s : Io) (b : Nat) (f : Fld) (n i : Nat) : s.Outs (s.ctr b f n i) := by
  unfold Io.ctr Io.ctrAt
  extract_lets v x
  have hx : s.Outs x := within (s.within_wr64 _ _) (by decide)
  clear_value x
  split
  · exact hx
  · exact .after (wrapped _ _) hx

theorem complete (s : Io) (n : Nat) (irq : Bool) : s.Outs (s.complete n irq) := by
  have hf (x : Io) (m : SMap Nat) (b : Nat) : x.Outs (({ x with modCnt := m }).ringFlag n b) := .after (.raise _ _ _) (.of_eq rfl)
  unfold Io.complete
  dsimp only
  split
  · exact hf _ _ _
  · split
    · exact .refl s
    · split
      · exact hf _ _ _
      · exact .of_eq rfl

theorem foldl {β : Type} {f : Io → β → Io} {l : List β} (hf : ∀ b x, Io.Outs x (f x b)) (h : s.Outs t) : s.Outs (l.foldl f t) := by
  induction l generalizing t with
  | nil => exact h
  | cons b l ih => exact ih (.after (hf b t) h)

theorem emit (s : Io) (o : Out) : s.Outs (s.emit o) := ⟨fun _ h => List.mem_cons_of_mem _ h⟩

theorem ringWrite (s : Io) (n : Nat) (es : List Line) : s.Outs (s.ringWrite n es) := by
  unfold Io.ringWrite
  extract_lets +onlyGivenNames k c x y z
  have hx : s.Outs x := .foldl (fun _ _ => emit _ _) (.refl s)
  clear_value x
  have hy : s.Outs y := .after (t := x) (.of_eq rfl) hx
  clear_value y
  exact .after (complete _ _ _) (.after (put _ _ _ _ _) hy)

theorem ringPut (s : Io) (n : Nat) (es : List Line) : s.Outs (s.ringPut n es) := by
  unfold Io.ringPut
  split
  · exact ringWrite s n es
  · exact .after (put _ _ _ _ _) (.raise _ _ _)

theorem countSeverity (s : Io) (sev : Nat) : s.Outs (s.countSeverity sev) := by
  unfold Io.countSeverity
  split
  · exact ctr _ _ _ _ _
  · exact .after (.raise _ _ _) (ctr _ _ _ _ _)
  · exact .after (.raise _ _ _) (ctr _ _ _ _ _)
  · exact .refl s

theorem reportCorrected (s : Io) (key : Nat) (r : Line) : s.Outs (s.reportCorrected key r) := by
  have hr (x : Ras) : s.Outs { s with ras := x } := .of_eq rfl
  unfold Io.reportCorrected
  dsimp only
  split
  · exact .after (ctr _ _ _ _ _) (hr _)
  · exact .after (ringPut _ _ _) (hr _)

theorem report (s : Io) (sev code base loc detail : Nat) : s.Outs (s.report sev code base loc detail) := by
  unfold Io.report
  split
  · exact .refl s
  · extract_lets key r x
    have hx : s.Outs x := .after (countSeverity _ sev) (.of_eq rfl)
    clear_value x
    split
    · exact .after (reportCorrected x key r) hx
    · exact .after (t := x) (.of_eq rfl) hx

end Io.Outs

/-! ### What a report writes -/

/-- The pages that an error report may write. -/
abbrev reportPages : List Nat := [pgRas, pgPmc, pgRing 38]

theorem Io.pages_countSeverity (s : Io) (sev : Nat) : s.Pages reportPages (s.countSeverity sev) := by
  have hc (f : Fld) (hf : f.off + f.stride * 0 + 4 < 0x1000) : s.Pages reportPages (s.ctr pgRas f) := s.pages_ctr (by simp) f 1 0 hf (by simp)
  unfold countSeverity
  split
  · exact hc _ (by decide)
  · exact .after (pages_raise _ (by simp) _) (hc _ (by decide))
  · exact .after (pages_raise _ (by simp) _) (hc _ (by decide))
  · exact .refl _ s

theorem Io.Pages.mono {s t : Io} {ps qs : List Nat} (h : s.Pages ps t) (hs : ps ⊆ qs) : s.Pages qs t := Io.Keeps.mono h (inPages_mono hs)

theorem Io.pages_reportCorrected (s : Io) (key : Nat) (r : Line) : s.Pages reportPages (s.reportCorrected key r) := by
  have hr (x : Ras) : s.Pages reportPages { s with ras := x } := .of_regs rfl
  unfold reportCorrected
  dsimp only
  split
  · exact .after (pages_ctr _ (by simp) _ _ _ (by decide) (by simp)) (hr _)
  · exact .after ((pages_ringPut _ 38 _).mono (by simp)) (hr _)

theorem Io.pages_report (s : Io) (sev code base loc detail : Nat) : s.Pages reportPages (s.report sev code base loc detail) := by
  unfold report
  split
  · exact .refl _ s
  · extract_lets key r x
    have hx : s.Pages reportPages x := .after (pages_countSeverity _ sev) (.of_regs rfl)
    clear_value x
    split
    · exact .after (pages_reportCorrected x key r) hx
    · exact .after (t := x) (.of_regs rfl) hx

theorem State.pages_report (s : State) (sev code base loc detail : Nat) : s.Pages reportPages (s.report sev code base loc detail) :=
  .upIo (s.io.pages_report sev code base loc detail)


namespace State

variable (s : State)

/-! ### A frame starts (R306) -/

/-- The words that the start of a frame may write lie above the clocks, the features and the Ethernet pages, but for these. -/
def startWord (a : Nat) : Prop := 0x800000 ≤ a ∨ inPage pgPmc a ∨ inPage (pgRing 34) a

theorem startWord_of_copy {a : Nat} (h : copyWord a) : startWord a := by
  have e (n : Nat) : pgTmbP n = 0x800000 + (1 + n) * 0x1000 := rfl
  have e1 : pgTmb = 0x800000 := rfl
  have e4 (p : Nat) : pgTel p = 0x1000000 + p * 0x100000 + 0x70000 := rfl
  rcases h with ⟨q, hq, h⟩ | ⟨p, h1, _⟩ | ⟨m, _, h1, _⟩
  · simp only [List.mem_cons, List.not_mem_nil, or_false] at hq
    rcases hq with rfl | rfl | rfl
    · exact .inl (e1 ▸ h.1)
    · exact .inr (.inl h)
    · exact .inr (.inr h)
  · exact .inl (by rw [e4] at h1; omega)
  · exact .inl (by rw [e] at h1; omega)

/-- The words of the features and of the Ethernet pages are no words of a start. -/
theorem not_startWord {a : Nat} (h : a < 0x40000 ∨ (0x200000 ≤ a ∧ a < 0x800000)) : ¬ startWord a := by
  have e1 : pgPmc = 0x140000 := rfl
  have e2 : pgRing 34 = 0x66000 := rfl
  unfold startWord inPage
  rw [e1, e2]
  omega

variable {s} in
theorem startOf {t : State} (h : KeepsWords copyWord s t) : KeepsWords startWord s t := h.mono fun _ => startWord_of_copy

/-- Heads too long for the gate list in force see the same list, rate and features. -/
theorem oversize_congr {s t : State} (hr : Agree bufRest s t) (hk : KeepsWords startWord s t) (n q L : Nat) : t.oversize n q L = s.oversize n q L := by
  have ho : t.buf.oper = s.buf.oper := (congrArg Buf.oper hr.eq :)
  have hg : t.buf.group = s.buf.group := group_of_rest hr
  have hf : t.feature 7 = s.feature 7 := by
    have e : pgFtr = 0x30000 := rfl
    unfold feature Io.feature
    rw [hk _ (not_startWord (by omega))]
  unfold oversize operList wireTime rate mode
  rw [hf, ho, hg]

/-- A head too long for the list in force has been dropped (R329). -/
def headDropped (n q : Nat) (c : Copy) : State :=
  let s := s.changeQueue (8 * n + q) ((s.queue (8 * n + q)).drop 1)
  let s := (s.ctr (pgTgtP n) TGT_OVERSIZE_CNTq.COUNT 1 q).ctr pgTgt TGT_OVERSIZE_TOTAL.COUNT
  ((s.raiseOnce (pgTgtP n) 3).release c.pkt).traceDone c.tag 3 0 none

theorem keeps_headDropped (n q : Nat) (c : Copy) : KeepsWords startWord s (s.headDropped n q c) := by
  have e1 : pgTgtP n = 0xE00000 + (1 + n) * 0x1000 := rfl
  have e2 : pgTgt = 0xE00000 := rfl
  unfold headDropped
  extract_lets x y
  have hx : KeepsWords startWord s x := startOf (s.keeps_changeQueue _ _)
  clear_value x
  have hy : KeepsWords startWord x y := .after (.ctr _ _ _ _ _ (.inl (by omega)) (.inl (by omega)) fun _ h => .inr (.inl h))
    (.ctr _ _ _ _ _ (.inl (by omega)) (.inl (by omega)) fun _ h => .inr (.inl h))
  clear_value y
  have hr : KeepsWords startWord y (y.raiseOnce (pgTgtP n) 3) := .cond (.refl _ y) (.raise _ _ _ (.inl (by omega)))
  exact .after (startOf (keeps_traceDone _ _ _ _ _)) (.after (startOf (keeps_release _ _)) (.after hr (.after hy hx)))

theorem buf_raiseOnce (b n : Nat) : (s.raiseOnce b n).buf = s.buf := by
  unfold raiseOnce
  split
  · rfl
  · exact s.raise_buf b n

theorem storeOnly_headDropped (n q : Nat) (c : Copy) :
    StoreOnly (s.changeQueue (8 * n + q) ((s.queue (8 * n + q)).drop 1)) (s.headDropped n q c) := by
  unfold headDropped
  generalize s.changeQueue (8 * n + q) ((s.queue (8 * n + q)).drop 1) = x
  refine .after (storeOnly_traceDone _ _ _ _ _) (.after (storeOnly_release _ _) ⟨?_⟩)
  rw [buf_raiseOnce, State.ctr_buf, State.ctr_buf]

theorem queue_headDropped (n q : Nat) (c : Copy) (k : Nat) :
    (s.headDropped n q c).queue k = if k = 8 * n + q then (s.queue (8 * n + q)).drop 1 else s.queue k := by
  rw [queue_of_storeOnly (s.storeOnly_headDropped n q c), queue_changeQueue]

theorem rest_changeQueue (q : Nat) (l : List Copy) : Agree bufRest s (s.changeQueue q l) := ⟨by
  unfold bufRest
  rw [buf_changeQueue]⟩

theorem rest_of_storeOnly {s t : State} (h : StoreOnly s t) : Agree bufRest s t := ⟨congrArg (fun x : Buf => { x with queues := [] }) h.eq⟩

theorem rest_headDropped (n q : Nat) (c : Copy) : Agree bufRest s (s.headDropped n q c) :=
  .after (rest_of_storeOnly (s.storeOnly_headDropped n q c)) (s.rest_changeQueue _ _)

theorem dropOversize_succ (n q f : Nat) : s.dropOversize n q (f + 1) =
    match s.head (8 * n + q) with
    | none => s
    | some c => if s.oversize n q c.len then (s.headDropped n q c).dropOversize n q f else s := rfl

/-- What the discards at a head leave: the queue from its first frame that is not too long on (R329). -/
theorem dropOversize_leaves (n q f : Nat) : (s.queue (8 * n + q)).length ≤ f →
    (s.dropOversize n q f).queue (8 * n + q) = (s.queue (8 * n + q)).dropWhile (fun h => s.oversize n q h.len) ∧
    (∀ k, k ≠ 8 * n + q → (s.dropOversize n q f).queue k = s.queue k) ∧
    Agree bufRest s (s.dropOversize n q f) ∧ KeepsWords startWord s (s.dropOversize n q f) := by
  induction f generalizing s with
  | zero =>
    intro h
    have h0 : s.queue (8 * n + q) = [] := List.length_eq_zero_iff.1 (Nat.le_zero.1 h)
    exact ⟨by rw [h0]; exact h0, fun _ _ => rfl, .refl s, .refl _ s⟩
  | succ f ih =>
    intro h
    rw [dropOversize_succ]
    cases hq : s.queue (8 * n + q) with
    | nil =>
      rw [show s.head (8 * n + q) = none by rw [head, hq]; rfl]
      exact ⟨hq, fun _ _ => rfl, .refl s, .refl _ s⟩
    | cons c l =>
      rw [show s.head (8 * n + q) = some c by rw [head, hq]; rfl]
      dsimp only
      rw [List.dropWhile_cons]
      split
      next ho =>
        have hk := s.keeps_headDropped n q c
        have hr := s.rest_headDropped n q c
        have hl : (s.headDropped n q c).queue (8 * n + q) = l := by
          rw [queue_headDropped, if_pos rfl, hq, List.drop_one, List.tail_cons]
        rw [hq, List.length_cons] at h
        obtain ⟨h1, h2, h3, h4⟩ := ih (s.headDropped n q c) (by rw [hl]; omega)
        refine ⟨?_, fun k hne => ?_, h3.after hr, h4.after hk⟩
        · rw [h1, hl]
          simp only [oversize_congr hr hk]
        · rw [h2 k hne, queue_headDropped, if_neg hne]
      next => exact ⟨hq, fun _ _ => rfl, .refl s, .refl _ s⟩

theorem keeps_setDrr (n : Nat) (r : Drr) : KeepsWords startWord s (s.setDrr n r) := by
  have e : pgSchP n = 0xA00000 + (1 + n) * 0x1000 := rfl
  exact .foldl (fun _ _ _ => .put _ _ _ _ _ rfl (by decide) (.inl (by omega))) (.of_regs rfl _)

theorem keeps_chargeShapers (n q w : Nat) : KeepsWords startWord s (s.chargeShapers n q w) :=
  .foldl (fun _ _ _ => .of_regs rfl _) (.refl _ s)

theorem queues_setDrr (n : Nat) (r : Drr) : (s.setDrr n r).buf.queues = s.buf.queues :=
  (Agree.foldl (g := fun s : State => s.buf.queues) (fun _ _ _ => ⟨congrArg Buf.queues (State.put_buf _ _ _ _ _)⟩) ⟨rfl⟩).eq

theorem queues_chargeShapers (n q w : Nat) : (s.chargeShapers n q w).buf.queues = s.buf.queues :=
  (Agree.foldl (g := fun s : State => s.buf.queues) (f := fun s k => s.setBucket k ((s.bucket k).charge w)) (fun _ _ _ => ⟨rfl⟩) ⟨rfl⟩).eq

theorem txStamp_congr {s t : State} {n : Nat} (hn : n < 128) (hk : KeepsWords startWord s t) (ht : t.io.now16 = s.io.now16) :
    t.txStamp n = s.txStamp n := by
  have ha : t.get (pgEth (n / 4) 3) ETH_TS_TX_ADJj.PS (n % 4) = s.get (pgEth (n / 4) 3) ETH_TS_TX_ADJj.PS (n % 4) := by
    refine get_of_keeps hk _ _ _ (by decide) (not_startWord (.inr ?_))
    have e : pgEth (n / 4) 3 + ETH_TS_TX_ADJj.PS.off + ETH_TS_TX_ADJj.PS.stride * (n % 4) = 0x200000 + (4 * (n / 4) + 3) * 0x1000 + 0x50 + 4 * (n % 4) := rfl
    rw [e]
    omega
  unfold txStamp
  rw [ht, ha]

theorem now16_of_time {s t : State} (h : t.io.time = s.io.time) : t.io.now16 = s.io.now16 := by
  unfold Io.now16
  rw [h]

/-- What a start leaves, from the state in which its head was chosen. -/
theorem beginTx_leaves {n : Nat} (hn : n < 128) (q : Nat) (c : Copy) (r : Drr) :
    ((s.beginTx n q c r).buf.sched.get {} n).tx = some (c, q) ∧
    ((s.beginTx n q c r).buf.sched.get {} n).txStamp = s.txStamp n ∧
    (s.beginTx n q c r).queue (8 * n + q) = ((s.queue (8 * n + q)).drop 1).dropWhile (fun h => s.oversize n q h.len) ∧
    (∀ k, k ≠ 8 * n + q → (s.beginTx n q c r).queue k = s.queue k) := by
  unfold beginTx
  extract_lets x empty r1 r2 y z sc
  have hx : x.queue (8 * n + q) = ((s.queue (8 * n + q)).drop 1).dropWhile (fun h => s.oversize n q h.len) ∧
      (∀ k, k ≠ 8 * n + q → x.queue k = s.queue k) ∧ KeepsWords startWord s x ∧ x.io.now16 = s.io.now16 := by
    have hq (k : Nat) := s.queue_changeQueue (8 * n + q) ((s.queue (8 * n + q)).drop 1) k
    have hk : KeepsWords startWord s (s.changeQueue (8 * n + q) ((s.queue (8 * n + q)).drop 1)) := startOf (s.keeps_changeQueue _ _)
    have ht : (s.changeQueue (8 * n + q) ((s.queue (8 * n + q)).drop 1)).io.time = s.io.time :=
      (s.within_changeQueue _ _).same .time (by decide)
    have ho := oversize_congr (s.rest_changeQueue (8 * n + q) ((s.queue (8 * n + q)).drop 1)) hk
    have hw := within_newHead (s.changeQueue (8 * n + q) ((s.queue (8 * n + q)).drop 1)) n q
    obtain ⟨h1, h2, _, h4⟩ := dropOversize_leaves (s.changeQueue (8 * n + q) ((s.queue (8 * n + q)).drop 1)) n q _ (Nat.le_refl _)
    refine ⟨?_, fun k hne => ?_, h4.after hk, now16_of_time ((hw.same .time (by decide)).trans ht)⟩
    · refine h1.trans ?_
      rw [hq, if_pos rfl]
      simp only [ho]
    · exact (h2 k hne).trans (by rw [hq, if_neg hne])
  obtain ⟨h1, h2, hk, ht⟩ := hx
  clear_value x
  have hy : y.buf.queues = x.buf.queues ∧ KeepsWords startWord x y ∧ y.io.time = x.io.time :=
    ⟨(queues_chargeShapers _ _ _ _).trans (x.queues_setDrr n r2), .after (keeps_chargeShapers _ _ _ _) (x.keeps_setDrr n r2),
      ((within_chargeShapers _ _ _ _).after (x.within_setDrr n r2)).same .time (by decide)⟩
  clear_value y
  have hz : z.buf = y.buf ∧ KeepsWords startWord y z ∧ z.io.time = y.io.time :=
    ⟨y.buf_traceDone _ _ _ _, startOf (y.keeps_traceDone _ _ _ _), (y.within_traceDone _ _ _ _).same .time (by decide)⟩
  clear_value z
  have hq (k : Nat) : z.queue k = x.queue k := by
    unfold queue
    rw [hz.1, hy.1]
  refine ⟨?_, ?_, (hq _).trans h1, fun k hne => (hq _).trans (h2 k hne)⟩
  · rw [SMap.get_set_same]
  · rw [SMap.get_set_same]
    exact txStamp_congr hn (hz.2.1.after (hy.2.1.after hk)) ((now16_of_time (hz.2.2.trans hy.2.2)).trans ht)

/-! ### A start from the state before it -/

theorem keeps_clearHeads {n : Nat} (hn : n < 128) :
    KeepsWords (fun a => (0x800000 ≤ a ∧ a < 0x900000) ∨ a < 0x141000 ∨ 0x1000000 ≤ a) s (s.clearHeads n) :=
  .foldl (fun q _ x => .cond (x.keeps_wdDrain hn q) (.refl _ x)) (.refl _ s)

theorem txStamp_heads {n : Nat} (hn : n < 128) : (s.refillDue.clearHeads n).txStamp n = s.txStamp n := by
  have hk : KeepsWords (fun a => (0x800000 ≤ a ∧ a < 0x900000) ∨ a < 0x141000 ∨ 0x1000000 ≤ a) s (s.refillDue.clearHeads n) :=
    .after (keeps_clearHeads _ hn) (.of_regs (by rw [s.refillDue_io]) _)
  have ht : (s.refillDue.clearHeads n).io.now16 = s.io.now16 := by
    refine (now16_of_time ((within_clearHeads _ n).same .time (by decide))).trans ?_
    rw [s.refillDue_io]
    rfl
  have ha : (s.refillDue.clearHeads n).get (pgEth (n / 4) 3) ETH_TS_TX_ADJj.PS (n % 4) = s.get (pgEth (n / 4) 3) ETH_TS_TX_ADJj.PS (n % 4) := by
    refine get_of_keeps hk _ _ _ (by decide) ?_
    have e : pgEth (n / 4) 3 + ETH_TS_TX_ADJj.PS.off + ETH_TS_TX_ADJj.PS.stride * (n % 4) = 0x200000 + (4 * (n / 4) + 3) * 0x1000 + 0x50 + 4 * (n % 4) := rfl
    rw [e]
    omega
  unfold txStamp
  rw [ht, ha]

theorem within_heads (n : Nat) : s.Within (.time :: .wcount :: .modCnt :: .buf :: .tel :: ctrParts) (s.refillDue.clearHeads n) :=
  .mono (.after (within_clearHeads _ n) s.within_refillDue) (by decide)

theorem txStart_idle {n : Nat} (h : (s.refillDue.clearHeads n).mayStart n = false ∨ (s.refillDue.clearHeads n).choose n = none) :
    s.txStart n = s.refillDue.clearHeads n := by
  unfold txStart
  dsimp only
  rcases h with h | h
  · rw [h]
    rfl
  · rw [h]
    split <;> rfl

theorem txStart_begins {n q : Nat} {r : Drr} {c : Copy} (hm : (s.refillDue.clearHeads n).mayStart n = true)
    (hc : (s.refillDue.clearHeads n).choose n = some (q, r)) (hh : (s.refillDue.clearHeads n).head (8 * n + q) = some c) :
    s.txStart n = (s.refillDue.clearHeads n).beginTx n q c r := by
  unfold txStart
  dsimp only
  rw [hm, hc]
  dsimp only
  rw [hh]
  rfl

end State

theorem txFrameStart_begins {s : State} {n : Fin 128} (hon : s.on = true) (q : Nat) (r : Drr) (c : Copy)
    (hm : (s.refillDue.clearHeads n.val).mayStart n.val = true) (hc : (s.refillDue.clearHeads n.val).choose n.val = some (q, r))
    (hh : (s.refillDue.clearHeads n.val).head (8 * n.val + q) = some c) : Completes (.txFrameStart n) s (fun t =>
      (t.buf.sched.get {} n.val).tx = some (c, q) ∧ (t.buf.sched.get {} n.val).txStamp = s.txStamp n.val ∧
      t.queue (8 * n.val + q) = (((s.refillDue.clearHeads n.val).queue (8 * n.val + q)).drop 1).dropWhile
        (fun h => (s.refillDue.clearHeads n.val).oversize n.val q h.len) ∧
      (∀ k, k ≠ 8 * n.val + q → t.queue k = (s.refillDue.clearHeads n.val).queue k) ∧
      t = { s with io := t.io, buf := t.buf, tel := t.tel }) := by
  obtain ⟨h1, h2, h3, h4⟩ := (s.refillDue.clearHeads n.val).beginTx_leaves n.isLt q c r
  have hw : s.Within (ioParts ++ [.buf, .tel]) ((s.refillDue.clearHeads n.val).beginTx n.val q c r) :=
    .mono (.after (State.within_beginTx _ _ _ _ _) (s.within_heads n.val)) (by decide)
  exact .live_eq (f := fun s => s.txStart n.val) rfl hon (s.txStart_begins hm hc hh) (hw.same .pending (by decide))
    ⟨h1, h2.trans (s.txStamp_heads n.isLt), h3, h4, hw.eq_ioBufTel⟩

theorem txFrameStart_idle {s : State} {n : Fin 128} (hon : s.on = true)
    (h : (s.refillDue.clearHeads n.val).mayStart n.val = false ∨ (s.refillDue.clearHeads n.val).choose n.val = none) :
    Completes (.txFrameStart n) s (fun t => t = s.refillDue.clearHeads n.val ∧ t = { s with io := t.io, buf := t.buf, tel := t.tel }) := by
  have hw : s.Within (ioParts ++ [.buf, .tel]) (s.refillDue.clearHeads n.val) := (s.within_heads n.val).mono (by decide)
  exact .live_eq (f := fun s => s.txStart n.val) rfl hon (s.txStart_idle h) (hw.same .pending (by decide)) ⟨rfl, hw.eq_ioBufTel⟩

end Sys2Proof.Machine
end

section
/-!
SUPPORT. The end of a frame's transmission (R294, R305).
-/
namespace Sys2Proof.Machine

namespace State

variable (s : State)

/-! ### The cells of the frame are read (R305) -/

/-- What a reading of cells leaves: the queues, the transmit state of ports, and every register but those of reports. -/
structure CellsRead (s t : State) : Prop where
  pages : s.Pages reportPages t
  queues : t.buf.queues = s.buf.queues
  sched : t.buf.sched = s.buf.sched

theorem cellsRead (id : Nat) (cells : List (Nat × Bool)) : CellsRead s (s.readCells id cells) := by
  have hc (x : State) (c : Nat) : CellsRead x (x.cellBad id c) := by
    unfold cellBad
    dsimp only
    split
    · exact ⟨.refl _ x, rfl, rfl⟩
    · exact ⟨.of_regs rfl _, rfl, rfl⟩
  unfold readCells
  induction cells generalizing s with
  | nil => exact ⟨.refl _ s, rfl, rfl⟩
  | cons e l ih =>
    have h1 : CellsRead s (if e.2 = true then s.cellBad id e.1 else s.report 0 1 pgTmb e.1 0) := by
      split
      · exact hc s e.1
      · exact ⟨s.pages_report _ _ _ _ _, by rw [State.report_buf], by rw [State.report_buf]⟩
    obtain ⟨h2, h3, h4⟩ := ih (if e.2 = true then s.cellBad id e.1 else s.report 0 1 pgTmb e.1 0)
    exact ⟨h2.after h1.pages, h3.trans h1.queues, h4.trans h1.sched⟩

/-! ### The frame has left (R294) -/

/-- No frame is in transmission on port `n`. -/
def txFreed (n : Nat) : State :=
  { s with buf := { s.buf with sched := s.buf.sched.set {} n { s.buf.sched.get {} n with tx := none } } }

/-- A frame of `len` bytes of queue `q` that has left moves the counters of its queue and port. -/
def txMoved (n q len : Nat) : State :=
  ((((s.txFreed n).ctr (pgSchP n) SCH_Q_TX_PKTSq.COUNT 1 q).ctr (pgSchP n) SCH_Q_TX_BYTESq.COUNT len q).ctr
    (pgPmcL (n / 16)) PMC_TX_FRAMES.COUNT 1 (n % 16)).ctr (pgPmcL (n / 16)) PMC_TX_BYTES.COUNT len (n % 16)

/-- A frame of `len` bytes of queue `q` that has left is counted. -/
def txCounted (n q len : Nat) : State :=
  (s.txMoved n q len).upIo fun io =>
    (io.accAdd (pgPmcL (n / 16)) PORT_TX_FRAMES.COUNT 1 (n % 16)).accAdd (pgPmcL (n / 16)) PORT_TX_BYTES.COUNT len (n % 16)

theorem within_accounted (n q len : Nat) : (s.txMoved n q len).Within [.acc] (s.txCounted n q len) :=
  .mono (.upIo (.after (Io.within_accAdd ..) (Io.within_accAdd ..))) (by decide)

theorem regs_txCounted (n q len : Nat) : (s.txCounted n q len).io.regs = (s.txMoved n q len).io.regs :=
  (s.within_accounted n q len).same .regs (by decide)

/-- The correction of a frame that saturated is counted. -/
def corrCounted (n : Nat) (c : Copy) (stamp : Nat) (p : Stored) : State :=
  if corrOverflows p.bytes c.ptp stamp c.ts then
    { s with buf := { s.buf with corrSat := s.buf.corrSat.set 0 n (s.buf.corrSat.get 0 n + 1) } } else s

/-- The timestamp of a frame that takes one is captured. -/
def txStamped (n : Nat) (c : Copy) (stamp : Nat) (f : List Byte) : State :=
  if c.ptp.op = 3 then s.txtsCapture n stamp (beAt f (c.ptp.off + 4) 1) (beAt f (c.ptp.off + 30) 2) else s

/-- What else the end of a frame does: the correction that saturated, the timestamp, the output, the stomp, the release. -/
def txClosed (n : Nat) (c : Copy) (stamp : Nat) (f : List Byte) (p : Stored) : State :=
  (((((s.corrCounted n c stamp p).txStamped n c stamp f).emit (.frame n f p.bad.isSome)).stomp p.bad).release c.pkt)

theorem txDone_eq {n q : Nat} {c : Copy} (h : (s.buf.sched.get {} n).tx = some (c, q)) : s.txDone n =
    (s.txCounted n q c.len).txClosed n c (s.buf.sched.get {} n).txStamp (s.txFrame n c) (s.stored c.pkt) := by
  unfold txDone
  dsimp only
  rw [h]
  rfl

theorem frameOut_eq {n q : Nat} {c : Copy} (h : (s.buf.sched.get {} n).tx = some (c, q)) (cells : List (Nat × Bool)) : s.frameOut n cells =
    if ((s.readCells c.pkt cells).txDone n).get (pgEth (n / 4) 0) ETH_LOOPBACK.MODE = 1 then
      ((s.readCells c.pkt cells).txDone n).frameRx n ((s.readCells c.pkt cells).txFrame n c) ((s.readCells c.pkt cells).stored c.pkt).bad.isSome
    else (s.readCells c.pkt cells).txDone n := by
  unfold frameOut
  rw [h]

/-- The pages that the end of a frame writes beside its counters. -/
abbrev closePages (n : Nat) : List Nat := [pgEth (n / 4) 3, pgTmb, pgRas, pgPmc, pgRing 38]

/-- What the end of a frame leaves beside its counters. -/
structure TxClosed (s t : State) (n : Nat) (o : Out) : Prop where
  pages : s.Pages (closePages n) t
  queues : t.buf.queues = s.buf.queues
  sched : t.buf.sched = s.buf.sched
  out : o ∈ t.io.out

theorem pages_txtsCapture (n t dom seq : Nat) : s.Pages (closePages n) (s.txtsCapture n t dom seq) := by
  have hp (x : State) (v : Nat) : x.Pages (closePages n) (x.put (pgEth (n / 4) 3) ETH_TXTS_OVF.OVF v) := x.pages_put (by simp) _ _ _ (by decide)
  have hr (x : State) (j : Nat) : x.Pages (closePages n) (x.raise (pgEth (n / 4) 3) j) := x.pages_raise (by simp) j
  unfold txtsCapture
  dsimp only
  split
  · exact .after (hr _ _) (hp _ _)
  · exact .after (hr _ _) (.of_regs rfl _)

theorem buf_txtsCapture (n t dom seq : Nat) :
    (s.txtsCapture n t dom seq).buf.queues = s.buf.queues ∧ (s.txtsCapture n t dom seq).buf.sched = s.buf.sched := by
  unfold txtsCapture
  dsimp only
  split
  · rw [State.raise_buf, State.put_buf]
    exact ⟨rfl, rfl⟩
  · rw [State.raise_buf]
    exact ⟨rfl, rfl⟩

theorem pages_stomp (n : Nat) (bad : Option Nat) : s.Pages (closePages n) (s.stomp bad) := by
  unfold stomp
  split
  · exact .refl _ s
  · exact .after ((pages_report _ _ _ _ _ _).mono (by simp)) (.after (pages_raise _ (by simp) _)
      (s.pages_ctr (by simp) _ _ _ (by decide) (by simp)))

theorem buf_stomp (bad : Option Nat) : (s.stomp bad).buf = s.buf := (s.within_stomp bad).same .buf (by decide)

theorem outs_stomp (bad : Option Nat) : s.io.Outs (s.stomp bad).io := by
  unfold stomp
  split
  · exact .refl _
  · rw [State.report_io]
    exact .after (Io.Outs.report _ _ _ _ _ _) (.after (Io.Outs.raise _ _ _) (Io.Outs.ctr _ _ _ _ _))

theorem outs_release (id : Nat) : s.io.Outs (s.release id).io := by
  have hp (x : State) (f : Fld) (v : Nat) : x.io.Outs (x.put pgTmb f v).io := Io.Outs.put _ _ _ _ _
  have hl (x : State) : x.io.Outs x.lowCheck.io := by
    unfold lowCheck
    split
    · exact Io.Outs.raise _ _ _
    · exact .refl _
  have hf (x : State) (n : Nat) : x.io.Outs (x.setFree n).io := by
    unfold setFree
    extract_lets y z
    have hz : y.io.Outs z.io := by
      unfold z
      split
      · exact hp _ _ _
      · exact .refl _
    clear_value z
    exact .after (hl _) (hz.after (hp _ _ _))
  unfold release
  dsimp only
  split
  · exact .after (hf _ _) (.of_eq rfl)
  · exact .of_eq rfl

theorem txClosed_leaves (n : Nat) (c : Copy) (stamp : Nat) (f : List Byte) (p : Stored) :
    TxClosed s (s.txClosed n c stamp f p) n (.frame n f p.bad.isSome) := by
  have hx : s.Pages (closePages n) (s.corrCounted n c stamp p) ∧ (s.corrCounted n c stamp p).buf.queues = s.buf.queues ∧
      (s.corrCounted n c stamp p).buf.sched = s.buf.sched := by
    unfold corrCounted
    split
    · exact ⟨.of_regs rfl _, rfl, rfl⟩
    · exact ⟨.refl _ s, rfl, rfl⟩
  unfold txClosed
  generalize s.corrCounted n c stamp p = x at hx
  have hy : x.Pages (closePages n) (x.txStamped n c stamp f) ∧ (x.txStamped n c stamp f).buf.queues = x.buf.queues ∧
      (x.txStamped n c stamp f).buf.sched = x.buf.sched := by
    unfold txStamped
    split
    · exact ⟨x.pages_txtsCapture _ _ _ _, x.buf_txtsCapture _ _ _ _⟩
    · exact ⟨.refl _ x, rfl, rfl⟩
  generalize x.txStamped n c stamp f = y at hy
  have he : y.Pages (closePages n) (y.emit (.frame n f p.bad.isSome)) := .of_regs rfl _
  have heo : .frame n f p.bad.isSome ∈ (y.emit (.frame n f p.bad.isSome)).io.out := List.mem_cons_self
  have heb : (y.emit (.frame n f p.bad.isSome)).buf = y.buf := rfl
  generalize y.emit (.frame n f p.bad.isSome) = z at he heo heb
  have hs := store_release (z.stomp p.bad) c.pkt
  have hb : (z.stomp p.bad).buf = y.buf := (z.buf_stomp _).trans heb
  refine ⟨.after ((pages_release _ _).mono (by simp)) (.after (z.pages_stomp n _) (he.after (hy.1.after hx.1))), ?_, ?_,
    ((outs_release _ _).after (z.outs_stomp _)).keep heo⟩
  · rw [hs, hb, hy.2.1, hx.2.1]
  · rw [hs, hb, hy.2.2, hx.2.2]

/-! ### The counters of the frame -/

theorem txFreed_leaves (n : Nat) : ((s.txFreed n).buf.sched.get {} n).tx = none ∧ (s.txFreed n).buf.queues = s.buf.queues := by
  refine ⟨?_, rfl⟩
  unfold txFreed
  rw [SMap.get_set_same]

theorem schP_addr {n : Nat} (hn : n < 128) : 0xA00000 ≤ pgSchP n ∧ pgSchP n + 0x200 ≤ 0x1000000 ∧ pgSchP n % 0x1000 = 0 := by
  have e : pgSchP n = 0xA00000 + (1 + n) * 0x1000 := rfl
  omega

theorem txPackets : SCH_Q_TX_PKTSq.COUNT.Wide := ⟨rfl, rfl, rfl⟩
theorem txBytes : SCH_Q_TX_BYTESq.COUNT.Wide := ⟨rfl, rfl, rfl⟩
theorem txFrames : RxCount PMC_TX_FRAMES.COUNT := ⟨⟨rfl, rfl, rfl⟩, rfl, by decide, by decide⟩

/-- A counter of a queue in the page of its port's scheduler. -/
structure SchCount (f : Fld) : Prop where
  wide : f.Wide
  stride : f.stride = 16
  high : f.off + 8 ≤ 0x110

/-- The counters that a frame which has left moves. -/
structure TxCounted (s t : State) (n q len : Nat) : Prop where
  packets : t.get (pgSchP n) SCH_Q_TX_PKTSq.COUNT q = (s.get (pgSchP n) SCH_Q_TX_PKTSq.COUNT q + 1) % 2 ^ 64
  bytes : t.get (pgSchP n) SCH_Q_TX_BYTESq.COUNT q = (s.get (pgSchP n) SCH_Q_TX_BYTESq.COUNT q + len) % 2 ^ 64
  frames : t.get (pgPmcL (n / 16)) PMC_TX_FRAMES.COUNT (n % 16) = (s.get (pgPmcL (n / 16)) PMC_TX_FRAMES.COUNT (n % 16) + 1) % 2 ^ 64

section
variable {n q : Nat} (hn : n < 128)
include hn

/-- A counter of a queue stays where a counter of the ports' page moves. -/
theorem get_ctr_pmcL {f g : Fld} (hf : SchCount f) (len : Nat) (hq : q < 8) :
    (s.ctr (pgPmcL (n / 16)) g len (n % 16)).get (pgSchP n) f q = s.get (pgSchP n) f q := by
  obtain ⟨h1, h2, _⟩ := schP_addr hn
  have e : pgPmcL (n / 16) = 0x1000000 + n / 16 * 0x100000 + 0x80000 := rfl
  have e2 : pgPmc = 0x140000 := rfl
  have h3 := hf.high
  refine s.get_ctr_wide len hf.wide (.inr ?_) (.inl ?_)
  · omega
  · rw [hf.stride]
    omega

/-- A counter of the ports' page stays where a counter of a queue moves. -/
theorem get_ctr_schP {f g : Fld} (hf : RxCount f) (hg : SchCount g) (len : Nat) (hq : q < 8) :
    (s.ctr (pgSchP n) g len q).get (pgPmcL (n / 16)) f (n % 16) = s.get (pgPmcL (n / 16)) f (n % 16) := by
  obtain ⟨h1, h2, _⟩ := schP_addr hn
  have e : pgPmcL (n / 16) = 0x1000000 + n / 16 * 0x100000 + 0x80000 := rfl
  have h3 := hg.high
  refine s.get_ctr_wide len hf.wide (rxCount_addr hf n).2 (.inr ?_)
  rw [hg.stride]
  omega

theorem txCounted_counts (hq : q < 8) (len : Nat) : TxCounted s (s.txCounted n q len) n q len := by
  have hP : SchCount SCH_Q_TX_PKTSq.COUNT := ⟨txPackets, rfl, by decide⟩
  have hB : SchCount SCH_Q_TX_BYTESq.COUNT := ⟨txBytes, rfl, by decide⟩
  have ho (o : Nat) : offPmc (pgSchP n + o) := by
    have := (schP_addr hn).1
    have e2 : pgPmc = 0x140000 := rfl
    exact .inr (by omega)
  have oP : offPmc (pgSchP n + SCH_Q_TX_PKTSq.COUNT.off + SCH_Q_TX_PKTSq.COUNT.stride * q) := by
    rw [Nat.add_assoc]
    exact ho _
  have oB : offPmc (pgSchP n + SCH_Q_TX_BYTESq.COUNT.off + SCH_Q_TX_BYTESq.COUNT.stride * q) := by
    rw [Nat.add_assoc]
    exact ho _
  have oF := (rxCount_addr txFrames n).2
  have hx (b : Nat) (f : Fld) (i : Nat) : (s.txFreed n).get b f i = s.get b f i := rfl
  have hk := KeepsWords.of_regs (s.regs_txCounted n q len) fun _ => False
  refine ⟨?_, ?_, ?_⟩
  · rw [get_wide_of_keeps hk _ _ _ txPackets False.elim False.elim, txMoved, get_ctr_pmcL _ hn hP _ hq, get_ctr_pmcL _ hn hP _ hq,
      get_ctr_row _ _ _ txPackets oP (by decide), get_ctr_same _ _ _ _ _ txPackets oP, hx]
  · rw [get_wide_of_keeps hk _ _ _ txBytes False.elim False.elim, txMoved, get_ctr_pmcL _ hn hB _ hq, get_ctr_pmcL _ hn hB _ hq,
      get_ctr_same _ _ _ _ _ txBytes oB, get_ctr_row _ _ _ txBytes oB (by decide), hx]
  · rw [get_wide_of_keeps hk _ _ _ txFrames.wide False.elim False.elim, txMoved, get_ctr_row _ _ _ txFrames.wide oF (by decide),
      get_ctr_same _ _ _ _ _ txFrames.wide oF, get_ctr_schP _ hn txFrames hB _ hq, get_ctr_schP _ hn txFrames hP _ hq, hx]

/-- The pages that the end of a frame writes hold neither its counters nor the loopback of its port. -/
theorem get_closed {s t : State} (h : s.Pages (closePages n) t) :
    (∀ f, SchCount f → ∀ q < 8, t.get (pgSchP n) f q = s.get (pgSchP n) f q) ∧
    t.get (pgPmcL (n / 16)) PMC_TX_FRAMES.COUNT (n % 16) = s.get (pgPmcL (n / 16)) PMC_TX_FRAMES.COUNT (n % 16) ∧
    t.get (pgEth (n / 4) 0) ETH_LOOPBACK.MODE = s.get (pgEth (n / 4) 0) ETH_LOOPBACK.MODE := by
  obtain ⟨h1, h2, h3⟩ := schP_addr hn
  have e0 := pgEth_eq (n / 4) 0
  have e3 := pgEth_eq (n / 4) 3
  have e4 : pgTmb = 0x800000 := rfl
  have e5 : pgPmc = 0x140000 := rfl
  have e6 : pgRas = 0x180000 := rfl
  have e7 : pgRing 38 = 0x6A000 := rfl
  have e8 : pgPmcL (n / 16) = 0x1000000 + n / 16 * 0x100000 + 0x80000 := rfl
  have hp (b o : Nat) (ho : o < 0x1000) (hb : b % 0x1000 = 0) (hl : b = pgEth (n / 4) 0 ∨ 0xA00000 ≤ b) : ¬ inPages (closePages n) (b + o) :=
    not_inPages hb ho fun q hq => by
      simp only [List.mem_cons, List.not_mem_nil, or_false] at hq
      omega
  refine ⟨fun f hf q hq => ?_, ?_, ?_⟩
  · have h4 := hf.high
    refine get_wide_of_keeps h _ _ _ hf.wide ?_ ?_
    · rw [hf.stride, Nat.add_assoc]
      exact hp _ _ (by omega) h3 (.inr h1)
    · rw [hf.stride, Nat.add_assoc, Nat.add_assoc]
      exact hp _ _ (by omega) h3 (.inr h1)
  · have h4 := txFrames.high
    refine get_wide_of_keeps h _ _ _ txFrames.wide ?_ ?_
    · rw [txFrames.stride, Nat.add_assoc]
      exact hp _ _ (by omega) (by omega) (.inr (by omega))
    · rw [txFrames.stride, Nat.add_assoc, Nat.add_assoc]
      exact hp _ _ (by omega) (by omega) (.inr (by omega))
  · refine get_of_keeps h _ _ _ (by decide) ?_
    rw [Nat.add_assoc]
    exact hp _ _ (by decide) (by omega) (.inl rfl)

end

theorem buf_txCounted (n q len : Nat) : (s.txCounted n q len).buf = (s.txFreed n).buf := by
  have hw : (s.txFreed n).Within (.acc :: ctrParts) (s.txCounted n q len) :=
    .mono (.after (s.within_accounted n q len) (.after (within_ctr ..) (.after (within_ctr ..)
      (.after (within_ctr ..) (within_ctr ..))))) (by decide)
  exact hw.same .buf (by decide)

/-- What the end of a frame leaves (R294). -/
theorem txDone_leaves {n q : Nat} {c : Copy} (hn : n < 128) (hq : q < 8) (h : (s.buf.sched.get {} n).tx = some (c, q)) :
    ((s.txDone n).buf.sched.get {} n).tx = none ∧ .frame n (s.txFrame n c) (s.stored c.pkt).bad.isSome ∈ (s.txDone n).io.out ∧
    TxCounted s (s.txDone n) n q c.len ∧ (s.txDone n).buf.queues = s.buf.queues := by
  obtain ⟨h1, h2⟩ := s.txFreed_leaves n
  have hb := s.buf_txCounted n q c.len
  have hc := s.txCounted_counts hn hq c.len
  rw [s.txDone_eq h]
  generalize s.txCounted n q c.len = x at hb hc
  have ht := x.txClosed_leaves n c (s.buf.sched.get {} n).txStamp (s.txFrame n c) (s.stored c.pkt)
  obtain ⟨hg, hf, _⟩ := get_closed hn ht.pages
  refine ⟨?_, ht.out, ⟨?_, ?_, hf.trans hc.frames⟩, ?_⟩
  · rw [ht.sched, hb, h1]
  · exact (hg _ ⟨txPackets, rfl, by decide⟩ q hq).trans hc.packets
  · exact (hg _ ⟨txBytes, rfl, by decide⟩ q hq).trans hc.bytes
  · rw [ht.queues, hb, h2]

theorem loopback_txDone {n q : Nat} {c : Copy} (hn : n < 128) (h : (s.buf.sched.get {} n).tx = some (c, q)) :
    (s.txDone n).get (pgEth (n / 4) 0) ETH_LOOPBACK.MODE = s.get (pgEth (n / 4) 0) ETH_LOOPBACK.MODE := by
  have h1 := (schP_addr hn).1
  have e8 : pgPmcL (n / 16) = 0x1000000 + n / 16 * 0x100000 + 0x80000 := rfl
  have hc (x : State) (b : Nat) (f : Fld) (k i : Nat) (hb : 0xA00000 ≤ b) :
      KeepsWords (fun a => 0xA00000 ≤ a ∨ inPage pgPmc a) x (x.ctr b f k i) :=
    .ctr _ _ _ _ _ (.inl (by omega)) (.inl (by omega)) fun _ h => .inr h
  have hx : KeepsWords (fun a => 0xA00000 ≤ a ∨ inPage pgPmc a) s (s.txCounted n q c.len) := by
    exact .after (.of_regs (s.regs_txCounted n q c.len) _) (.after (hc _ _ _ _ _ (by omega)) (.after (hc _ _ _ _ _ (by omega))
      (.after (hc _ _ _ _ _ h1) (.after (hc _ _ _ _ _ h1) (.of_regs (t := s.txFreed n) rfl _)))))
  rw [s.txDone_eq h]
  generalize s.txCounted n q c.len = x at hx
  refine (get_closed hn (x.txClosed_leaves n c _ _ _).pages).2.2.trans (get_of_keeps hx _ _ _ (by decide) ?_)
  have e0 := pgEth_eq (n / 4) 0
  have e : ETH_LOOPBACK.MODE.off + ETH_LOOPBACK.MODE.stride * 0 < 0x1000 := by decide
  have e5 : pgPmc = 0x140000 := rfl
  unfold inPage
  rw [Nat.add_assoc, e5]
  omega

end State

/-! ### The obligation -/

section
variable {s : State} {n : Fin 128}

theorem txFrameDone_nothing (cells : List (Nat × Bool)) (h : (s.buf.sched.get {} n.val).tx = none) : NoEffect (.txFrameDone n cells) s := by
  refine .live (f := fun s => s.frameOut n.val cells) rfl ?_
  unfold State.frameOut
  rw [h]

theorem txFrameDone_leaves (hon : s.on = true) (c : Copy) (q : Fin 8) (cells : List (Nat × Bool))
    (h : (s.buf.sched.get {} n.val).tx = some (c, q.val)) : Completes (.txFrameDone n cells) s (fun t => ∃ v : State,
      t = { (if s.get (pgEth (n.val / 4) 0) ETH_LOOPBACK.MODE = 1 then
              v.frameRx n.val ((s.readCells c.pkt cells).txFrame n.val c) ((s.readCells c.pkt cells).stored c.pkt).bad.isSome
            else v) with pending := s.pending } ∧
      (v.buf.sched.get {} n.val).tx = none ∧
      .frame n.val ((s.readCells c.pkt cells).txFrame n.val c) ((s.readCells c.pkt cells).stored c.pkt).bad.isSome ∈ v.io.out ∧
      v.get (pgSchP n.val) SCH_Q_TX_PKTSq.COUNT q.val = (s.get (pgSchP n.val) SCH_Q_TX_PKTSq.COUNT q.val + 1) % 2 ^ 64 ∧
      v.get (pgSchP n.val) SCH_Q_TX_BYTESq.COUNT q.val = (s.get (pgSchP n.val) SCH_Q_TX_BYTESq.COUNT q.val + c.len) % 2 ^ 64 ∧
      v.get (pgPmcL (n.val / 16)) PMC_TX_FRAMES.COUNT (n.val % 16)
        = (s.get (pgPmcL (n.val / 16)) PMC_TX_FRAMES.COUNT (n.val % 16) + 1) % 2 ^ 64 ∧
      v.buf.queues = s.buf.queues ∧ v = { s with io := v.io, buf := v.buf }) := by
  have he := s.frameOut_eq h cells
  have hr := s.cellsRead c.pkt cells
  have hw : s.Within (ioParts ++ [.buf]) ((s.readCells c.pkt cells).txDone n.val) :=
    .mono (.after (State.within_txDone _ _) (s.within_readCells _ _)) (by decide)
  generalize s.readCells c.pkt cells = x at he hr hw
  have hx : (x.buf.sched.get {} n.val).tx = some (c, q.val) := by rw [hr.sched, h]
  obtain ⟨hg, hf, hm⟩ := State.get_closed n.isLt (hr.pages.mono (qs := State.closePages n.val) (by simp))
  obtain ⟨h1, h2, h3, h4⟩ := x.txDone_leaves n.isLt q.isLt hx
  rw [x.loopback_txDone n.isLt hx, hm] at he
  refine .live (f := fun s => s.frameOut n.val cells) rfl hon ⟨x.txDone n.val, ?_, h1, h2, ?_, ?_, ?_, h4.trans hr.queues, hw.eq_ioBuf⟩
  · rw [he]
  · rw [h3.packets, hg _ ⟨State.txPackets, rfl, by decide⟩ _ q.isLt]
  · rw [h3.bytes, hg _ ⟨State.txBytes, rfl, by decide⟩ _ q.isLt]
  · rw [h3.frames, hf]

end

/-- Settles O50, a start by induction over the heads too long for the gate list, the end through what each of its steps writes. -/
theorem transmission : Obligations.Transmission := by
  unfold Obligations.Transmission
  exact fun s n hon => ⟨txFrameStart_idle hon, txFrameStart_begins hon, txFrameDone_nothing, txFrameDone_leaves hon⟩

end Sys2Proof.Machine
end

section
/-!
SUPPORT. Table commands (R81, R87 to R91): what a command of one part leaves, given what its part does.
-/
namespace Sys2Proof.Machine

/-! ### The status of a command (R82, R87) -/

/-- The command ring of `c` stands in `t` as it did in `s`: its base, its size and the device's index. -/
structure RingKept (c : Cmd) (s t : Io) : Prop where
  base : t.ringBase c.ring = s.ringBase c.ring
  log : t.get (pgRing c.ring) RING_SIZE.LOG2 = s.get (pgRing c.ring) RING_SIZE.LOG2
  count : t.wcount.get 0 c.ring = s.wcount.get 0 c.ring

namespace RingKept
variable {c : Cmd} {s t u : Io}

theorem refl (s : Io) : RingKept c s s := ⟨rfl, rfl, rfl⟩
theorem after (h' : RingKept c t u) (h : RingKept c s t) : RingKept c s u :=
  ⟨h'.base.trans h.base, h'.log.trans h.log, h'.count.trans h.count⟩

theorem of_regs (h : t.regs = s.regs) (hw : t.wcount = s.wcount) : RingKept c s t := by
  refine ⟨?_, ?_, by rw [hw]⟩
  · unfold Io.ringBase
    exact Io.rd64_congr (Io.rd_congr h _) (Io.rd_congr h _)
  · exact Io.get_of_rd _ _ _ rfl (by decide) (Io.rd_congr h _)

theorem size (h : RingKept c s t) : t.ringSize c.ring = s.ringSize c.ring := by
  unfold Io.ringSize
  rw [h.log]

theorem phase (h : RingKept c s t) (k : Nat) : t.phase c.ring k = s.phase c.ring k := by
  unfold Io.phase
  rw [h.log]

theorem ring_eq (c : Cmd) : pgRing c.ring = 0x70000 + c.queue.val * 0x1000 := by
  unfold pgRing Cmd.ring
  omega

/-- The ring stands where none of its words is written and its index is as it was. -/
theorem of_keeps {p : Nat → Prop} (h : s.Keeps p t) (hw : t.wcount = s.wcount) (hp : ∀ a, p a → ¬ inPage (pgRing c.ring) a) :
    RingKept c s t := by
  have hn (o : Nat) (ho : o < 0x1000) : ¬ p (pgRing c.ring + o) := fun h => hp _ h ⟨Nat.le_add_right _ _, Nat.add_lt_add_left ho _⟩
  refine ⟨?_, ?_, by rw [hw]⟩
  · unfold Io.ringBase
    exact Io.rd64_congr (h.rd _ (hn 0x40 (by decide))) (h.rd _ (by rw [Nat.add_assoc]; exact hn 0x44 (by decide)))
  · exact Io.get_of_rd _ _ _ rfl (by decide) (h.rd _ (hn 0x48 (by decide)))

end RingKept

namespace Io
variable (s : Io)

theorem outs_unless (b : Bool) (o : Out) : s.Outs (if b then s else s.emit o) := by
  split
  · exact .refl s
  · exact .emit s o

/-- The returned data, in the INDIRECT buffer or in DATA. -/
def dataOut (c : Cmd) (entry : Nat) (r : Res) : Out :=
  if c.indirect = true then .dma (c.addr + r.off) (r.data.take (c.len - r.off)) else .dma (entry + 16) (r.data.take 32)

theorem cmdData_eq (c : Cmd) (entry : Nat) (r : Res) : s.cmdData c entry r =
    (let s := if r.data.isEmpty then s else s.emit (dataOut c entry r)
     let s := if r.at32.isEmpty then s else s.emit (.dma (entry + 32) r.at32)
     if r.index.isEmpty then s else s.emit (.dma (entry + 8) r.index)) := by
  unfold cmdData dataOut
  split
  · rfl
  · split <;> rfl

theorem outs_cmdData (c : Cmd) (entry : Nat) (r : Res) : s.Outs (s.cmdData c entry r) := by
  rw [cmdData_eq]
  exact .after (outs_unless _ _ _) (.after (outs_unless _ _ _) (outs_unless _ _ _))

theorem dataOut_mem (c : Cmd) (entry : Nat) (r : Res) (h : r.data ≠ []) : dataOut c entry r ∈ (s.cmdData c entry r).out := by
  rw [cmdData_eq]
  refine (Io.Outs.after (outs_unless _ _ _) (outs_unless _ _ _)).keep ?_
  rw [if_neg (by simpa using h)]
  exact List.mem_cons_self

/-- The end of a command, from the state in which its data have been put out. -/
def statusOut (s : Io) (c : Cmd) (w : Nat) (o : Out) : Io :=
  (({ s.emit o with wcount := (s.emit o).wcount.set 0 c.ring (w + 1) }).put (pgRing c.ring) RING_CONS.IDX ((w + 1) % s.ringSize c.ring)).complete
    c.ring (tb c.flags 0)

theorem pages_statusOut (c : Cmd) (w : Nat) (o : Out) : s.Pages [pgRing c.ring] (s.statusOut c w o) :=
  .after (pages_complete _ _ _) (.after (pages_put _ (by simp) _ _ _ (by decide)) (.of_regs rfl))

theorem outs_statusOut (c : Cmd) (w : Nat) (o : Out) : s.Outs (s.statusOut c w o) ∧ o ∈ (s.statusOut c w o).out := by
  have h : (s.emit o).Outs (s.statusOut c w o) := .after (.complete _ _ _) (.after (.put _ _ _ _ _) (.of_eq rfl))
  exact ⟨h.after (.emit s o), h.keep List.mem_cons_self⟩

theorem keeps_complete (n : Nat) (irq : Bool) : s.Keeps (· = pgRing n + 0x10) (s.complete n irq) := by
  have hf (x : Io) (k : Nat) : x.Keeps (· = pgRing n + 0x10) (x.ringFlag n k) := .raise _ _ _ rfl
  have hm (x : Io) (m : SMap Nat) : x.Keeps (· = pgRing n + 0x10) { x with modCnt := m } := .of_regs rfl
  unfold complete
  exact .cond (.after (hf _ _) (hm _ _)) (.cond (.refl _ s) (.cond (.after (hf _ _) (hm _ _)) (hm _ _)))

theorem statusOut_index (c : Cmd) (w : Nat) (o : Out) :
    (s.statusOut c w o).wcount.get 0 c.ring = w + 1 ∧
    (s.statusOut c w o).get (pgRing c.ring) RING_CONS.IDX = (w + 1) % s.ringSize c.ring % 2 ^ 16 := by
  unfold statusOut
  generalize hx : ({ s.emit o with wcount := (s.emit o).wcount.set 0 c.ring (w + 1) } : Io) = x
  have hxw : x.wcount.get 0 c.ring = w + 1 := by
    rw [← hx]
    exact SMap.get_set_same (s.emit o).wcount 0 (w + 1) c.ring
  have hy := x.get_put (pgRing c.ring) RING_CONS.IDX ((w + 1) % s.ringSize c.ring) 0 rfl (by decide)
  have hyw : (x.put (pgRing c.ring) RING_CONS.IDX ((w + 1) % s.ringSize c.ring)).wcount = x.wcount :=
    (x.within_putAny _ _ _ _).same .wcount (by decide)
  generalize x.put (pgRing c.ring) RING_CONS.IDX ((w + 1) % s.ringSize c.ring) = y at hy hyw
  have hk := y.keeps_complete c.ring (tb c.flags 0)
  refine ⟨?_, ?_⟩
  · rw [(y.within_complete _ _).same .wcount (by decide), hyw, hxw]
  · refine (Io.get_of_rd _ _ _ rfl (by decide) (hk.rd _ ?_)).trans hy
    rw [show RING_CONS.IDX.off = 0x50 from rfl]
    omega

theorem cmdDone_eq (c : Cmd) (rs : List (Nat × Res)) : s.cmdDone c rs =
    (rs.foldl (fun x e => x.cmdData c (s.ringBase c.ring + 64 * (s.wcount.get 0 c.ring % s.ringSize c.ring)) e.2) s).statusOut c
      (s.wcount.get 0 c.ring) (.dma (s.ringBase c.ring + 64 * (s.wcount.get 0 c.ring % s.ringSize c.ring) + 48)
        (statusBytes c ((rs.foldl (fun x e => x.cmdData c (s.ringBase c.ring + 64 * (s.wcount.get 0 c.ring % s.ringSize c.ring)) e.2) s).phase
          c.ring (s.wcount.get 0 c.ring)) rs)) := rfl

theorem within_cmdDatas (c : Cmd) (entry : Nat) (rs : List (Nat × Res)) :
    s.Within [.out] (rs.foldl (fun x e => x.cmdData c entry e.2) s) :=
  .each (fun _ _ => (within_cmdData ..)) (.refl _)

theorem pages_cmdDone (c : Cmd) (rs : List (Nat × Res)) : s.Pages [pgRing c.ring] (s.cmdDone c rs) := by
  have hw := s.within_cmdDatas c (s.ringBase c.ring + 64 * (s.wcount.get 0 c.ring % s.ringSize c.ring)) rs
  rw [cmdDone_eq]
  exact .after (pages_statusOut _ _ _ _) (.of_regs (hw.same .regs (by decide)))

/-- What the end of a command leaves (R82, R87). -/
theorem cmdDone_status (c : Cmd) (rs : List (Nat × Res)) :
    (s.cmdDone c rs).wcount.get 0 c.ring = s.wcount.get 0 c.ring + 1 ∧
    (s.cmdDone c rs).get (pgRing c.ring) RING_CONS.IDX = (s.wcount.get 0 c.ring + 1) % s.ringSize c.ring % 2 ^ 16 ∧
    .dma (s.ringBase c.ring + 64 * (s.wcount.get 0 c.ring % s.ringSize c.ring) + 48)
      (statusBytes c (s.phase c.ring (s.wcount.get 0 c.ring)) rs) ∈ (s.cmdDone c rs).out := by
  have hw := s.within_cmdDatas c (s.ringBase c.ring + 64 * (s.wcount.get 0 c.ring % s.ringSize c.ring)) rs
  have hr : RingKept c s _ := .of_regs (hw.same .regs (by decide)) (hw.same .wcount (by decide))
  rw [cmdDone_eq]
  generalize rs.foldl (fun x e => x.cmdData c (s.ringBase c.ring + 64 * (s.wcount.get 0 c.ring % s.ringSize c.ring)) e.2) s = x at hr
  obtain ⟨h1, h2⟩ := x.statusOut_index c (s.wcount.get 0 c.ring)
    (.dma (s.ringBase c.ring + 64 * (s.wcount.get 0 c.ring % s.ringSize c.ring) + 48) (statusBytes c (x.phase c.ring (s.wcount.get 0 c.ring)) rs))
  refine ⟨h1, ?_, ?_⟩
  · rw [h2, hr.size]
  · rw [← hr.phase]
    exact (x.outs_statusOut _ _ _).2

/-- The data of a command of one part are put out. -/
theorem cmdDone_data (c : Cmd) (p : Nat) (r : Res) (h : r.data ≠ []) :
    dataOut c (s.ringBase c.ring + 64 * (s.wcount.get 0 c.ring % s.ringSize c.ring)) r ∈ (s.cmdDone c [(p, r)]).out := by
  rw [cmdDone_eq]
  exact (outs_statusOut _ _ _ _).1.keep (s.dataOut_mem _ _ _ h)

end Io

/-! ### A command ends -/

namespace State
variable {s x : State} {c : Cmd}

/-- The command `c` of state `s` ends in `x`, in which its ring stands as it did. -/
theorem cmdDone_statusIs (hk : RingKept c s.io x.io) (rs : List (Nat × Res)) : StatusIs c rs s (x.upIo fun io => io.cmdDone c rs) := by
  obtain ⟨h1, h2, h3⟩ := x.io.cmdDone_status c rs
  rw [hk.count, hk.size] at h2
  rw [hk.count, hk.size, hk.base, hk.phase] at h3
  exact ⟨h1.trans (congrArg (· + 1) hk.count), h2, h3⟩

theorem cmdDone_answers (hk : RingKept c s.io x.io) (p : Nat) (r : Res) : Answers c p r s (x.upIo fun io => io.cmdDone c [(p, r)]) := by
  refine ⟨cmdDone_statusIs hk _, fun h => ?_⟩
  have hd := x.io.cmdDone_data c p r h
  rw [hk.count, hk.size, hk.base] at hd
  exact hd

theorem cmdDone_within (c : Cmd) (x : State) (rs : List (Nat × Res)) :
    x.Within [.regs, .wcount, .modCnt, .pcie, .out] (x.upIo fun io => io.cmdDone c rs) := .upIo (x.io.within_cmdDone c rs)

theorem cmdDone_pages (c : Cmd) (x : State) (rs : List (Nat × Res)) : x.Pages [pgRing c.ring] (x.upIo fun io => io.cmdDone c rs) :=
  .upIo (x.io.pages_cmdDone c rs)

end State

/-! ### The checks of a command (R88, R89) -/

theorem Cmd.badMask_of_flags {c : Cmd} (h : c.known = false ∨ c.flags.toNat / 4 ≠ 0) (valid : Nat) (one : Bool) : c.badMask valid one = true := by
  unfold Cmd.badMask
  rcases h with h | h
  · simp [h]
  · simp [h]

theorem Cmd.parts_ne_zero {c : Cmd} {p : Nat} (h : c.partList = [p]) : c.parts.toNat ≠ 0 := by
  intro h0
  unfold Cmd.partList at h
  rw [h0] at h
  exact absurd h (by simp [onesOf])

theorem Cmd.badMask_of_part {c : Cmd} {valid p : Nat} (hk : c.known = true) (hf : c.flags.toNat / 4 = 0) (hp : c.partList = [p])
    (hv : valid.testBit p = true) (one : Bool) : c.badMask valid one = false := by
  unfold Cmd.badMask
  rw [hp]
  simp [hk, hf, Cmd.parts_ne_zero hp, hv]

theorem Cmd.part_lt {c : Cmd} {p : Nat} (h : c.partList = [p]) : p < 8 := by
  have hm : p ∈ onesOf 8 c.parts.toNat := by
    have e : onesOf 8 c.parts.toNat = [p] := h
    rw [e]
    exact List.mem_singleton.2 rfl
  exact (mem_onesOf.1 hm).1

/-- The command `c` of table `g` passes the checks of every table command first: with none waiting, with reserved flags or no row, with
an INDIRECT buffer out of reach (R81, R88, R89). -/
structure Checked (c : Cmd) (g : State → State) : Prop where
  idle : ∀ s : State, s.cmdWaiting c = false → g s = s
  bad : ∀ s : State, s.cmdWaiting c = true → c.known = false ∨ c.flags.toNat / 4 ≠ 0 → g s = (s.unhold c.queue.val).cmdFail c ccBadCommand
  dma : ∀ s : State, s.cmdWaiting c = true → c.known = true → c.flags.toNat / 4 = 0 → c.partList = [0] → dmaFails c = true →
    g s = (s.unhold c.queue.val).cmdFail c ccDmaError

namespace State

theorem checked_runCmd (c : Cmd) {valid : Nat} (hv : valid.testBit 0 = true) (one : Bool) (pipe : Nat → Option Nat) (wait : State → Nat → Bool)
    (f : State → Nat → State × Res) : Checked c fun s => s.runCmd c valid one pipe (wait s) f where
  idle s h := if_pos (by rw [h]; rfl)
  bad s h hb := by
    unfold runCmd
    rw [h, Cmd.badMask_of_flags hb]
    rfl
  dma s h hk hf hp hd := by
    unfold runCmd
    rw [h, Cmd.badMask_of_part hk hf hp hv, hd]
    rfl

theorem checked_flowWrite (c : Cmd) (es : List ReadEnd) : Checked c fun s => s.flowWrite c es where
  idle s h := if_pos (by rw [h]; rfl)
  bad s h hb := by
    unfold flowWrite
    rw [h, Cmd.badMask_of_flags hb]
    rfl
  dma s h hk hf hp hd := by
    unfold flowWrite
    rw [h, Cmd.badMask_of_part hk hf hp rfl, hd]
    rfl

/-- A command that fails whole leaves its status and nothing else. -/
theorem cmdFail_leaves (s : State) (c : Cmd) (code : Nat) :
    StatusIs c (c.partList.map fun p => (p, { code := code })) s ((s.unhold c.queue.val).cmdFail c code) ∧
    OnlyStatus c s ((s.unhold c.queue.val).cmdFail c code) :=
  ⟨cmdDone_statusIs (s := s) (x := s.unhold c.queue.val) (.refl _) _, rfl⟩

end State

/-- Each row of the table queues runs the checks first. -/
theorem tableRow_checked {c : Cmd} {es : List ReadEnd} {x : Instr} (hx : x ∈ tableRows c es) :
    ∃ g, Checked c g ∧ ∀ s, exec x s = s.live g := by
  have run {x : Instr} {valid : Nat} {one : Bool} {pipe : Nat → Option Nat} {wait : State → Nat → Bool} {f : State → Nat → State × Res}
      (hv : valid.testBit 0 = true) (h : ∀ s, exec x s = s.live fun s => s.runCmd c valid one pipe (wait s) f) :
      ∃ g, Checked c g ∧ ∀ s, exec x s = s.live g := ⟨_, State.checked_runCmd c hv one pipe wait f, h⟩
  have flow : ∃ g, Checked c g ∧ ∀ s, exec (.flowWrite c es) s = s.live g := ⟨_, State.checked_flowWrite c es, fun _ => rfl⟩
  revert x
  unfold tableRows
  simp only [List.forall_mem_cons, List.not_mem_nil, false_implies, implies_true, and_true, flow, true_and]
  and_intros <;> exact run rfl fun _ => rfl

/-- Settles O35, by the checks that each row of the table queues runs first. -/
theorem tableCommandChecks : Obligations.TableCommandChecks := by
  unfold Obligations.TableCommandChecks
  intro s c es hon
  refine ⟨fun hw x hx => ?_, fun hw hb x hx => ?_, fun hw hk hf hp hi hd x hx => ?_⟩
  · obtain ⟨g, hg, he⟩ := tableRow_checked hx
    exact .live (he s) (hg.idle s hw)
  · obtain ⟨g, hg, he⟩ := tableRow_checked hx
    exact .live_eq (he s) hon (hg.bad s hw hb) rfl (s.cmdFail_leaves c _)
  · obtain ⟨g, hg, he⟩ := tableRow_checked hx
    have hd' : dmaFails c = true := by
      unfold dmaFails
      rw [hi, hd]
      rfl
    have h := s.cmdFail_leaves c ccDmaError
    rw [hp] at h
    exact .live_eq (he s) hon (hg.dma s hw hk hf hp hd') rfl h

end Sys2Proof.Machine
end

section
/-!
SUPPORT. Table commands of one part (R87 to R90): from what the part does to what the command leaves.
-/
namespace Sys2Proof.Machine

/-- The host interface in which a part runs: only counters of pipelines have moved since the command was taken. -/
structure PartIo (s i : Io) : Prop where
  within : s.Within ctrParts i
  keeps : s.Keeps fabWord i

namespace PartIo
variable {s i : Io} (h : PartIo s i)

theorem refl (s : Io) : PartIo s s := ⟨.mono (.refl s) (by decide), .refl _ s⟩

include h

/-- A register that is no counter of a pipeline. -/
theorem get (b : Nat) (f : Fld) (k : Nat) (hf : f.rws = false ∧ f.lo + f.len ≤ 32) (ha : ¬ fabWord (b + f.off + f.stride * k)) :
    i.get b f k = s.get b f k := Io.get_of_rd b f k hf.1 hf.2 (h.keeps.rd _ ha)

theorem ring (c : Cmd) : RingKept c s i := by
  refine .of_keeps h.keeps (h.within.same .wcount (by decide)) fun a ha hr => ?_
  have e := RingKept.ring_eq c
  have e2 : pgPmc = 0x140000 := rfl
  have hq := c.queue.isLt
  obtain ⟨h1, h2⟩ := hr
  rcases ha with ⟨h3, _⟩ | ⟨p, _, h3, _⟩
  · omega
  · have e3 : pgPmcL p = 0x1000000 + p * 0x100000 + 0x80000 := rfl
    omega

end PartIo

/-- The state in which the part of a command runs: its queue is free. -/
def State.cmdAt (s : State) (c : Cmd) (i : Io) : State := { s.unhold c.queue.val with io := i }

/-- The status of a command has been written in state `t`. -/
structure CmdEnds (c : Cmd) (t u : State) : Prop where
  frame : u = { t with io := u.io }
  pages : t.Pages [pgRing c.ring] u

theorem State.takesPart.on {s : State} {c : Cmd} {valid p : Nat} (h : s.takesPart c valid p) : s.on = true := h.1

/-- A command of one part that does not wait runs its part and ends with its result. -/
theorem State.runCmd_part {s : State} {c : Cmd} {valid p : Nat} (h : s.takesPart c valid p) {one : Bool} {pipe : Nat → Option Nat}
    {wait : Nat → Bool} {f : State → Nat → State × Res} (hp : ∀ q, pipe p = some q → q < 8) (hw : wait p = false) :
    ∃ i, PartIo s.io i ∧ s.runCmd c valid one pipe wait f =
      (f (s.cmdAt c i) p).1.upIo fun io => io.cmdDone c [(p, (f (s.cmdAt c i) p).2)] := by
  obtain ⟨_, h1, h2, h3, h4, h5, h6⟩ := h
  have hc : ∃ i, PartIo s.io i ∧ (s.unhold c.queue.val).countPart (pipe p) = s.cmdAt c i := by
    unfold countPart
    split
    next => exact ⟨s.io, .refl _, rfl⟩
    next q hq => exact ⟨_, ⟨Io.within_event _ _ _ _ _, Io.keeps_event _ (hp q hq) _ _ (by decide)⟩, rfl⟩
  obtain ⟨i, hi, he⟩ := hc
  refine ⟨i, hi, ?_⟩
  unfold runCmd
  rw [h1, Cmd.badMask_of_part h2 h3 h5 h6, h4, h5, List.any_cons, hw]
  simp only [runParts]
  rw [he]
  rfl

section
variable {x : Instr} {s : State} {c : Cmd} {valid p : Nat} {one : Bool} {pipe : Nat → Option Nat} {wait : State → Nat → Bool}
  {f : State → Nat → State × Res} {P : State → Prop}
  (hx : exec x s = s.live fun s => s.runCmd c valid one pipe (wait s) f) (h : s.takesPart c valid p)
  (hp : ∀ q, pipe p = some q → q < 8) (hw : wait s p = false)
include hx h hp hw

/-- A command of one part leaves what its part leaves, and its answer. -/
theorem Completes.part (hP : ∀ i, PartIo s.io i → ∃ t r, f (s.cmdAt c i) p = (t, r) ∧ RingKept c s.io t.io ∧ t.pending = s.pending ∧
    ∀ u, Answers c p r s u → CmdEnds c t u → P u) : Completes x s P := by
  obtain ⟨i, hi, he⟩ := State.runCmd_part h hp hw (one := one) (f := f)
  obtain ⟨t, r, hf, hk, hq, hu⟩ := hP i hi
  rw [hf] at he
  exact .live_eq hx h.on he hq (hu _ (State.cmdDone_answers hk p r) ⟨rfl, State.cmdDone_pages c t _⟩)

/-- A command whose part changes nothing. -/
theorem Completes.partReads {r : Res} (hf : ∀ i, PartIo s.io i → f (s.cmdAt c i) p = (s.cmdAt c i, r)) :
    Completes x s (fun t => Answers c p r s t ∧ OnlyStatus c s t) :=
  .part hx h hp hw fun i hi => ⟨_, r, hf i hi, hi.ring c, rfl, fun _ ha he => ⟨ha, he.frame⟩⟩

end

section
variable {x : Instr} {s : State} {c : Cmd} {valid p : Nat} {one : Bool} {pipe : Nat → Option Nat} {wait : State → Nat → Bool}
  {f : State → Nat → State × Res} {P : State → Prop} {r : Res}
  (hx : exec x s = s.live fun s => s.runCmd c valid one pipe (wait s) f) (h : s.takesPart c valid p)
  (hp : ∀ q, pipe p = some q → q < 8) (hw : wait s p = false)
include hx h hp hw

/-- A command whose part changes the action tables alone. -/
theorem Completes.partActs {a : Act} (hf : ∀ i, PartIo s.io i → f (s.cmdAt c i) p = ({ s.cmdAt c i with act := a }, r))
    (hP : ∀ u, Answers c p r s u → u.act = a → u = { s.unhold c.queue.val with io := u.io, act := a } → P u) : Completes x s P :=
  .part hx h hp hw fun i hi => ⟨_, r, hf i hi, hi.ring c, rfl, fun u ha he =>
    have h2 : u = { s.unhold c.queue.val with io := u.io, act := a } := he.frame
    hP u ha (congrArg State.act h2 :) h2⟩

/-- A command whose part changes the forwarding tables alone. -/
theorem Completes.partFwds {a : Fwd} (hf : ∀ i, PartIo s.io i → f (s.cmdAt c i) p = ({ s.cmdAt c i with fwd := a }, r))
    (hP : ∀ u, Answers c p r s u → u.fwd = a → u = { s.unhold c.queue.val with io := u.io, fwd := a } → P u) : Completes x s P :=
  .part hx h hp hw fun i hi => ⟨_, r, hf i hi, hi.ring c, rfl, fun u ha he =>
    have h2 : u = { s.unhold c.queue.val with io := u.io, fwd := a } := he.frame
    hP u ha (congrArg State.fwd h2 :) h2⟩

end

section
variable {x : Instr} {s : State} {c : Cmd} {valid p : Nat} {one : Bool} {pipe : Nat → Option Nat} {f : State → Nat → State × Res}
  {P : State → Prop} {r : Res} (hx : exec x s = s.live fun s => s.runCmd c valid one pipe (fun _ => false) f) (h : s.takesPart c valid p)
  (hp : ∀ q, pipe p = some q → q < 8)
include hx h hp

/-! The same of commands that never wait. -/

theorem Completes.reads (hf : ∀ i, PartIo s.io i → f (s.cmdAt c i) p = (s.cmdAt c i, r)) :
    Completes x s (fun t => Answers c p r s t ∧ OnlyStatus c s t) := .partReads (wait := fun _ _ => false) hx h hp rfl hf

theorem Completes.acts {a : Act} (hf : ∀ i, PartIo s.io i → f (s.cmdAt c i) p = ({ s.cmdAt c i with act := a }, r))
    (hP : ∀ u, Answers c p r s u → u.act = a → u = { s.unhold c.queue.val with io := u.io, act := a } → P u) : Completes x s P :=
  .partActs (wait := fun _ _ => false) hx h hp rfl hf hP

/-- A command whose part changes the forwarding tables and registers that are not its ring's. -/
theorem Completes.fwdsIo {a : Fwd} (hf : ∀ i, PartIo s.io i → ∃ j, f (s.cmdAt c i) p = ({ s.cmdAt c j with fwd := a }, r) ∧ RingKept c i j)
    (hP : ∀ u, Answers c p r s u → u.fwd = a → u = { s.unhold c.queue.val with io := u.io, fwd := a } → P u) : Completes x s P :=
  .part (wait := fun _ _ => false) hx h hp rfl fun i hi => by
    obtain ⟨j, hj, hk⟩ := hf i hi
    exact ⟨_, r, hj, hk.after (hi.ring c), rfl, fun u ha he =>
      have h2 : u = { s.unhold c.queue.val with io := u.io, fwd := a } := he.frame
      hP u ha (congrArg State.fwd h2 :) h2⟩

theorem Completes.fwds {a : Fwd} (hf : ∀ i, PartIo s.io i → f (s.cmdAt c i) p = ({ s.cmdAt c i with fwd := a }, r))
    (hP : ∀ u, Answers c p r s u → u.fwd = a → u = { s.unhold c.queue.val with io := u.io, fwd := a } → P u) : Completes x s P :=
  .partFwds (wait := fun _ _ => false) hx h hp rfl hf hP

end

/-- Words above the mailbox pages are no words of a command ring. -/
theorem RingKept.of_high {c : Cmd} {s t : Io} (h : s.High t) (hw : t.wcount = s.wcount) : RingKept c s t :=
  .of_keeps h hw fun a ha hr => by
    have e := RingKept.ring_eq c
    have hq := c.queue.isLt
    obtain ⟨h1, h2⟩ := hr
    unfold highWord at ha
    omega

/-- The part a command names, for a table whose parts are pipelines. -/
theorem pipe_lt {s : State} {c : Cmd} {valid p : Nat} (h : s.takesPart c valid p) : ∀ q, some p = some q → q < 8 := fun q hq => by
  obtain ⟨_, _, _, _, _, h5, _⟩ := h
  rw [← Option.some.inj hq]
  exact Cmd.part_lt h5

/-- A table of the whole device counts no part for a pipeline. -/
theorem noPipe : ∀ q, (none : Option Nat) = some q → q < 8 := fun _ h => nomatch h

end Sys2Proof.Machine
end

section
/-!
SUPPORT. Load balancer and NAT table commands (R216, R224).
-/
namespace Sys2Proof.Machine

theorem SMap.get_setIf {α : Type} [DecidableEq α] (m : SMap α) (d : α) (k : Nat) (v : α) (j : Nat) :
    (m.set d k v).get d j = if j = k then v else m.get d j := by
  split
  next h => rw [h, SMap.get_set_same]
  next h => exact SMap.get_set_ne _ _ _ _ h

/-! ### The slots of a pool -/

/-- Slot `first + w.2` of pool `pool` takes the value `w.1`. -/
def slotSet (pool first : Nat) (a : Act) (w : Nat × Nat) : Act :=
  { a with slot := a.slot.set 0 (4096 * pool + (first + w.2)) (BitVec.ofNat 16 w.1), gone := a.gone.set false (4096 * pool + (first + w.2)) false }

/-- Slots of pool `pool` from `first` on take the values `l`, the first of which has index `j`. -/
def slotsSet (pool first : Nat) (l : List Nat) (j : Nat) (a : Act) : Act := (l.zipIdx j).foldl (slotSet pool first) a

theorem foldl_setSlot (pool first : Nat) (l : List (Nat × Nat)) (s : State) :
    l.foldl (fun s w => s.setSlot pool (first + w.2) w.1) s = { s with act := l.foldl (slotSet pool first) s.act } := by
  induction l generalizing s with
  | nil => rfl
  | cons w l ih => exact ih _

theorem slotsSet_only (pool first : Nat) (l : List Nat) (j : Nat) (a : Act) :
    slotsSet pool first l j a = { a with slot := (slotsSet pool first l j a).slot, gone := (slotsSet pool first l j a).gone } := by
  unfold slotsSet
  induction l.zipIdx j generalizing a with
  | nil => rfl
  | cons w l ih => exact ih _

theorem slot_slotsSet (pool first : Nat) (l : List Nat) (j : Nat) (a : Act) (k : Nat) :
    (slotsSet pool first l j a).slot.get 0 k =
      if 4096 * pool + (first + j) ≤ k ∧ k < 4096 * pool + (first + j) + l.length
      then BitVec.ofNat 16 (l.getD (k - (4096 * pool + (first + j))) 0) else a.slot.get 0 k := by
  induction l generalizing j a with
  | nil => exact (if_neg (by rw [List.length_nil]; omega)).symm
  | cons v l ih =>
    have e : slotsSet pool first (v :: l) j a = slotsSet pool first l (j + 1) (slotSet pool first a (v, j)) := rfl
    have es : (slotSet pool first a (v, j)).slot = a.slot.set 0 (4096 * pool + (first + j)) (BitVec.ofNat 16 v) := rfl
    rw [e, ih, es]
    by_cases hk : k = 4096 * pool + (first + j)
    · subst hk
      rw [if_neg (by omega), SMap.get_set_same, if_pos ⟨Nat.le_refl _, by simp⟩, Nat.sub_self]
      rfl
    · rw [SMap.get_set_ne _ _ _ _ hk]
      by_cases hr : 4096 * pool + (first + (j + 1)) ≤ k ∧ k < 4096 * pool + (first + (j + 1)) + l.length
      · rw [if_pos hr, if_pos (by rw [List.length_cons]; omega),
          show k - (4096 * pool + (first + j)) = (k - (4096 * pool + (first + (j + 1)))) + 1 by omega]
        rfl
      · rw [if_neg hr, if_neg (by rw [List.length_cons]; omega)]

/-! ### The commands -/

/-- The word of a member with the STATE `v`. -/
def stateSet (w : W32) (v : Nat) : W32 := BitVec.ofNat 32 (setBitsOf w.toNat 30 2 v)

theorem gb_stateSet (w : W32) (v : Nat) : gb (stateSet w v) 30 2 = v % 4 ∧ gb (stateSet w v) 0 30 = gb w 0 30 := by
  have e : (stateSet w v).toNat = setBitsOf w.toNat 30 2 v :=
    (BitVec.toNat_ofNat _ _).trans (Nat.mod_eq_of_lt (setBitsOf_lt v w.isLt (by decide)))
  unfold gb
  rw [e]
  exact ⟨bitsOf_setBitsOf _ _ _ _, bitsOf_setBitsOf_ne _ _ _ _ _ _ (.inl (by decide))⟩

section
variable {s : State} {c : Cmd} (h : s.takesPart c 1 0)
include h

theorem lbSlotsRead_reads (hb : lbRangeBad c = false) : Completes (.lbSlotsRead c) s (fun t =>
    Answers c 0 { data := (List.range (lbCount c)).flatMap fun i => bytesLE 2 (s.slot (lbPool c) (lbFirst c + i)),
                  result := some (2 * lbCount c) } s t ∧ OnlyStatus c s t) :=
  .reads (f := fun t p => t.lbRead c p) rfl h noPipe fun _ _ => by
    unfold State.lbRead
    rw [hb]
    rfl

theorem lbSlotsWrite_writes (hb : lbRangeBad c = false) (hv : ∀ i, i < lbCount c → leAt c.host (2 * i) 2 < 2 ^ 14) :
    Completes (.lbSlotsWrite c) s (fun t => Answers c 0 {} s t ∧
      (∀ k, t.act.slot.get 0 k =
        if 4096 * lbPool c + lbFirst c ≤ k ∧ k < 4096 * lbPool c + lbFirst c + lbCount c
        then BitVec.ofNat 16 (leAt c.host (2 * (k - (4096 * lbPool c + lbFirst c))) 2) else s.act.slot.get 0 k) ∧
      t = { s.unhold c.queue.val with io := t.io, act := { s.act with slot := t.act.slot, gone := t.act.gone } }) := by
  refine .acts (f := fun t p => t.lbWrite c p) (r := {})
    (a := slotsSet (lbPool c) (lbFirst c) ((List.range (lbCount c)).map fun i => leAt c.host (2 * i) 2) 0 s.act)
    rfl h noPipe (fun i _ => ?_) fun u ha hu hf => ⟨ha, fun k => ?_, ?_⟩
  · unfold State.lbWrite
    dsimp only
    rw [hb, if_neg (by decide), if_neg ?_, foldl_setSlot]
    · rfl
    · simp only [List.any_map, List.any_eq_true, List.mem_range, Function.comp_apply, decide_eq_true_eq, not_exists, not_and, Nat.not_le]
      exact fun i hi => hv i hi
  · rw [hu, slot_slotsSet, List.length_map, List.length_range, Nat.add_zero]
    split
    next hk =>
      rw [List.getD_eq_getElem?_getD, List.getElem?_map, List.getElem?_range (by omega)]
      rfl
    next => rfl
  · rw [hu, ← slotsSet_only]
    exact hf

theorem writeMember_writes (hb : bitsOf (c.le 16 4) 8 20 = 0) : Completes (.writeMember c) s (fun t =>
    Answers c 0 {} s t ∧ (∀ k, t.member k = if k = lbMember c then BitVec.ofNat 32 (c.le 16 4) else s.member k) ∧
    (∀ k, t.act.memberExt.get 0 k = if k = lbMember c then BitVec.ofNat 128 (c.le 20 12) else s.act.memberExt.get 0 k) ∧
    t = { s.unhold c.queue.val with io := t.io, act := { s.act with member := t.act.member, memberExt := t.act.memberExt, gone := t.act.gone } }) := by
  refine .acts (f := fun t p => t.lbWriteMember c p) (r := {})
    (a := { s.act with member := s.act.member.set 0 (lbMember c) (BitVec.ofNat 32 (c.le 16 4)),
                       gone := s.act.gone.set false (8388608 + lbMember c) false,
                       memberExt := s.act.memberExt.set 0 (lbMember c) (BitVec.ofNat 128 (c.le 20 12)) })
    rfl h noPipe (fun _ _ => if_neg (by simp [hb])) fun u ha hu hf => ⟨ha, fun k => ?_, fun k => ?_, ?_⟩
  · unfold State.member
    rw [hu]
    exact SMap.get_setIf _ _ _ _ _
  · rw [hu]
    exact SMap.get_setIf _ _ _ _ _
  · rw [hu]
    exact hf

theorem setState_writes : Completes (.setState c) s (fun t =>
    Answers c 0 {} s t ∧ gb (t.member (lbMember c)) 30 2 = c.le 16 1 % 4 ∧ gb (t.member (lbMember c)) 0 30 = gb (s.member (lbMember c)) 0 30 ∧
    (∀ k, k ≠ lbMember c → t.member k = s.member k) ∧ t = { s.unhold c.queue.val with io := t.io, act := { s.act with member := t.act.member } }) := by
  have hg (u : State) (hu : u.act.member = s.act.member.set 0 (lbMember c) (stateSet (s.member (lbMember c)) (c.le 16 1))) (k : Nat) :
      u.member k = if k = lbMember c then stateSet (s.member (lbMember c)) (c.le 16 1) else s.member k := by
    unfold State.member
    rw [hu]
    exact SMap.get_setIf _ _ _ _ _
  refine .acts (f := fun t p => t.lbSetState c p) (r := {})
    (a := { s.act with member := s.act.member.set 0 (lbMember c) (stateSet (s.member (lbMember c)) (c.le 16 1)) })
    rfl h noPipe (fun _ _ => rfl) fun u ha hu hf => ⟨ha, ?_, ?_, fun k hk => ?_, ?_⟩
  · rw [hg u (by rw [hu]), if_pos rfl, (gb_stateSet _ _).1]
  · rw [hg u (by rw [hu]), if_pos rfl, (gb_stateSet _ _).2]
  · rw [hg u (by rw [hu]), if_neg hk]
  · rw [hu]
    exact hf

theorem lbWritePool_writes : Completes (.lbWritePool c) s (fun t =>
    Answers c 0 {} s t ∧ (∀ k, t.act.gap.get 0 k = if k = lbPool c then BitVec.ofNat 16 (c.le 16 2) else s.act.gap.get 0 k) ∧
    t = { s.unhold c.queue.val with io := t.io, act := { s.act with gap := t.act.gap } }) := by
  refine .acts (f := fun t p => t.lbWritePool c p) (r := {})
    (a := { s.act with gap := s.act.gap.set 0 (lbPool c) (BitVec.ofNat 16 (c.le 16 2)) }) rfl h noPipe (fun _ _ => rfl) fun u ha hu hf => ⟨ha, fun k => ?_, ?_⟩
  · rw [hu]
    exact SMap.get_setIf _ _ _ _ _
  · rw [hu]
    exact hf

theorem readMember_reads : Completes (.readMember c) s (fun t =>
    Answers c 0 { data := bytesLE 4 (s.member (lbMember c)).toNat ++ s.memberExt (lbMember c) } s t ∧ OnlyStatus c s t) :=
  .reads (f := fun t p => t.lbReadMember c p) rfl h noPipe fun _ _ => rfl

theorem readPool_reads : Completes (.readPool c) s (fun t => Answers c 0 { data := bytesLE 12 (s.natPool (natIdx c)).toNat } s t ∧ OnlyStatus c s t) :=
  .reads (f := fun t p => t.natReadPool c p) rfl h noPipe fun _ _ => rfl

theorem readBlock_reads : Completes (.readBlock c) s (fun t => Answers c 0 { data := bytesLE 4 (s.block (bitsOf c.idx 0 19)).toNat } s t ∧ OnlyStatus c s t) :=
  .reads (f := fun t p => t.natReadBlock c p) rfl h noPipe fun _ _ => rfl

theorem natWritePool_writes (hb : natPoolBad (BitVec.ofNat 96 (c.le 16 12 % 2 ^ 90)) = false)
    (hn : s.blocksOn (npBase (s.natPool (natIdx c))) (npBlocks (s.natPool (natIdx c))) = [])
    (hl : npBase (BitVec.ofNat 96 (c.le 16 12 % 2 ^ 90)) + npBlocks (BitVec.ofNat 96 (c.le 16 12 % 2 ^ 90)) ≤ 524288)
    (ho : s.natOverlap (natIdx c) (BitVec.ofNat 96 (c.le 16 12 % 2 ^ 90)) = none) : Completes (.natWritePool c) s (fun t =>
      Answers c 0 {} s t ∧ (∀ k, t.natPool k = if k = natIdx c then BitVec.ofNat 96 (c.le 16 12 % 2 ^ 90) else s.natPool k) ∧
      t = { s.unhold c.queue.val with io := t.io, act := { s.act with pool := t.act.pool } }) := by
  have hw (t : State) (h1 : t.blocksOn (npBase (t.natPool (natIdx c))) (npBlocks (t.natPool (natIdx c))) = [])
      (h2 : t.natOverlap (natIdx c) (BitVec.ofNat 96 (c.le 16 12 % 2 ^ 90)) = none) : t.natWritePool c 0 =
        ({ t with act := { t.act with pool := t.act.pool.set 0 (natIdx c) (BitVec.ofNat 96 (c.le 16 12 % 2 ^ 90)) } }, {}) := by
    unfold State.natWritePool
    dsimp only
    rw [hb, h1, if_neg (by decide), if_neg (by simp), if_neg (by omega), h2]
  refine .acts (f := fun t p => t.natWritePool c p) (r := {})
    (a := { s.act with pool := s.act.pool.set 0 (natIdx c) (BitVec.ofNat 96 (c.le 16 12 % 2 ^ 90)) }) rfl h noPipe (fun _ _ => hw _ hn ho) fun u ha hu hf => ⟨ha, fun k => ?_, ?_⟩
  · unfold State.natPool
    rw [hu]
    exact SMap.get_setIf _ _ _ _ _
  · rw [hu]
    exact hf

theorem natSearch_reads (hi : c.indirect = true) (hl : c.len = 16) : Completes (.natSearch c) s (fun t =>
    StatusIs c [(0, { result := some (s.binding (subscriber (c.ix 8 2 % 4096) (beAt c.host 0 16))).length })] s t ∧ OnlyStatus c s t) := by
  have hr := Completes.reads (x := .natSearch c) (f := fun t p => t.natSearch c p)
    (r := { result := some (s.binding (subscriber (c.ix 8 2 % 4096) (beAt c.host 0 16))).length,
            at32 := ((s.binding (subscriber (c.ix 8 2 % 4096) (beAt c.host 0 16))).flatMap (bytesLE 4)) ++
              List.replicate (4 * (4 - (s.binding (subscriber (c.ix 8 2 % 4096) (beAt c.host 0 16))).length)) 0 }) rfl h noPipe
    fun _ _ => if_neg (by simp [hi, hl])
  obtain ⟨t, he, ha, ho⟩ := hr
  exact ⟨t, he, ha.1, ho⟩

theorem writeAddr_writes (hm : bitsOf c.idx 16 10 < npAddrs (s.natPool (natIdx c)) →
      s.blocksOn (npBase (s.natPool (natIdx c)) + bitsOf c.idx 16 10 * npBpa (s.natPool (natIdx c))) (npBpa (s.natPool (natIdx c))) = []) :
    Completes (.writeAddr c) s (fun t => Answers c 0 {} s t ∧
      (∀ k, t.act.addr.get 0 k = if k = 1024 * natIdx c + bitsOf c.idx 16 10 then BitVec.ofNat 32 (c.be 16 4) else s.act.addr.get 0 k) ∧
      t = { s.unhold c.queue.val with io := t.io, act := { s.act with addr := t.act.addr } }) := by
  have hw (t : State) (h1 : bitsOf c.idx 16 10 < npAddrs (t.natPool (natIdx c)) →
      t.blocksOn (npBase (t.natPool (natIdx c)) + bitsOf c.idx 16 10 * npBpa (t.natPool (natIdx c))) (npBpa (t.natPool (natIdx c))) = []) :
      t.natWriteAddr c 0 = ({ t with act := { t.act with
        addr := t.act.addr.set 0 (1024 * natIdx c + bitsOf c.idx 16 10) (BitVec.ofNat 32 (c.be 16 4)) } }, {}) := by
    unfold State.natWriteAddr
    refine if_neg ?_
    split
    next h => rw [h1 h]; decide
    next => decide
  refine .acts (f := fun t p => t.natWriteAddr c p) (r := {})
    (a := { s.act with addr := s.act.addr.set 0 (1024 * natIdx c + bitsOf c.idx 16 10) (BitVec.ofNat 32 (c.be 16 4)) }) rfl h noPipe (fun _ _ => hw _ hm) fun u ha hu hf => ⟨ha, fun k => ?_, ?_⟩
  · rw [hu]
    exact SMap.get_setIf _ _ _ _ _
  · rw [hu]
    exact hf

theorem writePrefix_writes (hl : c.le 32 1 ∈ [32, 40, 48, 56, 64, 96]) : Completes (.writePrefix c) s (fun t =>
    Answers c 0 {} s t ∧
    (∀ k, t.act.pfx.get 0 k = if k = bitsOf c.idx 0 4 then BitVec.ofNat 136 (c.le 32 1 * 2 ^ 128 + c.be 16 16) else s.act.pfx.get 0 k) ∧
    t = { s.unhold c.queue.val with io := t.io, act := { s.act with pfx := t.act.pfx } }) := by
  refine .acts (f := fun t p => t.natWritePfx c p) (r := {})
    (a := { s.act with pfx := s.act.pfx.set 0 (bitsOf c.idx 0 4) (BitVec.ofNat 136 (c.le 32 1 * 2 ^ 128 + c.be 16 16)) }) rfl h noPipe (fun _ _ => if_neg (by rw [List.contains_iff_mem.2 hl]; decide)) fun u ha hu hf =>
    ⟨ha, fun k => ?_, ?_⟩
  · rw [hu]
    exact SMap.get_setIf _ _ _ _ _
  · rw [hu]
    exact hf

end

/-- Settles O42, each command through what its one part does to the tables of actions. -/
theorem balancerAndNatAccess : Obligations.BalancerAndNatAccess := by
  unfold Obligations.BalancerAndNatAccess
  exact fun s c h => ⟨fun hb => ⟨lbSlotsRead_reads h hb, lbSlotsWrite_writes h hb⟩, writeMember_writes h, setState_writes h, lbWritePool_writes h,
    readMember_reads h, readPool_reads h, natWritePool_writes h, natSearch_reads h, readBlock_reads h, writeAddr_writes h, writePrefix_writes h⟩

end Sys2Proof.Machine
end

section
/-!
SUPPORT. LPM and zone table commands (R143, R144, R228).
-/
namespace Sys2Proof.Machine

/-! ### A bank is stored -/

/-- Bank `p` holds `l`, and nothing but it and the array words of its entries differs. -/
structure LpmSet (c : Cmd) (s : State) (p : Nat) (l : List LpmEntry) (t : State) : Prop where
  bank : t.lpmBank p = l
  others : ∀ q, q ≠ p → t.lpmBank q = s.lpmBank q
  frame : t = { s.unhold c.queue.val with io := t.io, fwd := { s.fwd with lpm := t.fwd.lpm, upset := t.fwd.upset } }

theorem lpmSet_of {c : Cmd} {s t : State} {p : Nat} {l : List LpmEntry} (hf : t.fwd = (s.setLpm p l).fwd)
    (h : t = { s.unhold c.queue.val with io := t.io, fwd := (s.setLpm p l).fwd }) : LpmSet c s p l t := by
  refine ⟨?_, fun q hq => ?_, ?_⟩
  · unfold State.lpmBank
    rw [hf]
    exact SMap.get_set_same _ _ _ _
  · unfold State.lpmBank
    rw [hf]
    exact SMap.get_set_ne _ _ _ _ hq
  · rw [hf]
    exact h

theorem Completes.lpmSet {x : Instr} {c : Cmd} {s : State} {p : Nat} {l : List LpmEntry} {A : State → Prop}
    (h : Completes x s fun t => A t ∧ LpmSet c s p l t) : Completes x s (fun t => A t ∧ t.lpmBank p = l ∧ (∀ q, q ≠ p → t.lpmBank q = s.lpmBank q) ∧
      t = { s.unhold c.queue.val with io := t.io, fwd := { s.fwd with lpm := t.fwd.lpm, upset := t.fwd.upset } }) := by
  obtain ⟨t, he, ha, hl⟩ := h
  exact ⟨t, he, ha, hl.bank, hl.others, hl.frame⟩

theorem highWord_lpm (p : Nat) : highWord (pgLpm p) := by
  have e : pgLpm p = 0x1000000 + p * 0x100000 + 0x30000 := rfl
  unfold highWord
  omega

/-- A bank stored while a part runs, and its moves counted. -/
theorem setLpm_cmdAt (s : State) (c : Cmd) (k : Io) (p : Nat) (l : List LpmEntry) :
    (s.cmdAt c k).setLpm p l = { s.cmdAt c k with fwd := (s.setLpm p l).fwd } := rfl

theorem setLpm_ctr (s : State) (c : Cmd) (k : Io) (p : Nat) (l : List LpmEntry) (b : Nat) (f : Fld) (n i : Nat) :
    ((s.cmdAt c k).setLpm p l).ctr b f n i = { s.cmdAt c (k.ctr b f n i) with fwd := (s.setLpm p l).fwd } := rfl

theorem lpmBank_cmdAt (s : State) (c : Cmd) (k : Io) (p : Nat) : (s.cmdAt c k).lpmBank p = s.lpmBank p := rfl

/-- The count of moves is no register of a command ring. -/
theorem ring_lpmMoves (c : Cmd) (i : Io) (b k : Nat) : RingKept c i (i.ctr (pgLpm b) LPM_MOVE_CNT.COUNT k) :=
  .of_high (i.high_ctr (highWord_lpm b) _ _ _) ((i.within_ctr _ _ _ _).same .wcount (by decide))

theorem ring_lpmRaise (c : Cmd) (i : Io) (b n : Nat) : RingKept c i (i.raise (pgLpm b) n) :=
  .of_high (i.high_raise (highWord_lpm b) n) ((i.within_raise (pgLpm b) n).same .wcount (by decide))

/-- The pipeline that a bank of the LPM table counts for. -/
theorem bankPipe_lt {s : State} {c : Cmd} {p : Nat} (h : s.takesPart c 0x0F p) : ∀ q, some (2 * p) = some q → q < 8 := fun q hq => by
  obtain ⟨_, _, _, _, _, h5, h6⟩ := h
  have h8 := Cmd.part_lt h5
  have h4 : ∀ p : Fin 8, (0x0F : Nat).testBit p.val = true → p.val < 4 := by decide
  have hp : p < 4 := h4 ⟨p, h8⟩ h6
  have := Option.some.inj hq
  omega

/-! ### What the commands of a bank do -/

namespace State
variable {s : State} {c : Cmd} {b : Nat} {e : LpmEntry} (hc : lpmOfCmd c = some e)
include hc

section
variable {i : Nat} {x : LpmEntry} (hf : lpmFind (s.lpmBank b) (fun x => x.same e) = some (i, x))
include hf

theorem lpmRead_of_some : s.lpmRead c b = (s, { data := lpmData x, result := some i }) := by
  unfold lpmRead
  rw [hc]
  dsimp only
  rw [hf]

theorem lpmWrite_of_some : s.lpmWrite c b = (s.setLpm b ((s.lpmBank b).map fun y => if y.same e then e else y), { result := some i }) := by
  unfold lpmWrite
  rw [hc]
  dsimp only
  rw [hf]

theorem lpmDelete_of_some : s.lpmDelete c b =
    ((s.setLpm b (lpmRemove (s.lpmBank b) x).1).ctr (pgLpm (2 * b)) LPM_MOVE_CNT.COUNT (lpmRemove (s.lpmBank b) x).2, { result := some i }) := by
  unfold lpmDelete
  rw [hc]
  dsimp only
  rw [hf]

end

section
variable (hf : lpmFind (s.lpmBank b) (fun x => x.same e) = none)
include hf

theorem lpmRead_of_none : s.lpmRead c b = (s, { code := ccNotFound }) := by
  unfold lpmRead
  rw [hc]
  dsimp only
  rw [hf]

theorem lpmDelete_of_none : s.lpmDelete c b = (s, {}) := by
  unfold lpmDelete
  rw [hc]
  dsimp only
  rw [hf]

theorem lpmWrite_of_none : s.lpmWrite c b =
    match (s.lpmBank b).findIdx? fun x => !x.valid && x.group == e.group with
    | some i => (s.setLpm b ((s.lpmBank b).set i e), { result := some i })
    | none =>
      if lpmSize ≤ (s.lpmBank b).length then (s.raise (pgLpm (2 * b)) 2, { code := ccFull })
      else ((s.setLpm b (lpmInsert (s.lpmBank b) e).1).ctr (pgLpm (2 * b)) LPM_MOVE_CNT.COUNT (lpmInsert (s.lpmBank b) e).2,
        { result := (lpmFind (lpmInsert (s.lpmBank b) e).1 fun x => x.same e).map (·.1) }) := by
  unfold lpmWrite
  rw [hc]
  dsimp only
  rw [hf] <;> rfl

end

end State

/-! ### The commands of a bank -/

section
variable {s : State} {c : Cmd} {p : Nat} (h : s.takesPart c 0x0F p)
include h

section
variable {e : LpmEntry} (hc : lpmOfCmd c = some e)
include hc

section
variable {i : Nat} {x : LpmEntry} (hf : lpmFind (s.lpmBank p) (fun x => x.same e) = some (i, x))
include hf

theorem lpmRead_finds : Completes (.lpmRead c) s (fun t => Answers c p { data := lpmData x, result := some i } s t ∧ OnlyStatus c s t) :=
  .reads (f := fun t p => t.lpmRead c p) rfl h (bankPipe_lt h) fun _ _ => State.lpmRead_of_some hc hf

theorem lpmWrite_replaces : Completes (.lpmWrite c) s (fun t => Answers c p { result := some i } s t ∧
    LpmSet c s p ((s.lpmBank p).map fun y => if y.same e then e else y) t) :=
  .fwds (f := fun t p => t.lpmWrite c p) (a := (s.setLpm p ((s.lpmBank p).map fun y => if y.same e then e else y)).fwd) rfl h (bankPipe_lt h)
    (fun k _ => (State.lpmWrite_of_some (s := s.cmdAt c k) hc hf).trans (by rw [setLpm_cmdAt, lpmBank_cmdAt])) fun _ ha hu hfr => ⟨ha, lpmSet_of hu hfr⟩

theorem lpmDelete_removes : Completes (.lpmDelete c) s (fun t => Answers c p { result := some i } s t ∧
    LpmSet c s p (lpmRemove (s.lpmBank p) x).1 t) :=
  .fwdsIo (f := fun t p => t.lpmDelete c p) (a := (s.setLpm p (lpmRemove (s.lpmBank p) x).1).fwd) rfl h (bankPipe_lt h)
    (fun k _ => ⟨_, (State.lpmDelete_of_some (s := s.cmdAt c k) hc hf).trans (by rw [setLpm_ctr, lpmBank_cmdAt]), ring_lpmMoves c k _ _⟩) fun _ ha hu hfr => ⟨ha, lpmSet_of hu hfr⟩

end

section
variable (hf : lpmFind (s.lpmBank p) (fun x => x.same e) = none)
include hf

theorem lpmRead_notFound : Completes (.lpmRead c) s (fun t => Answers c p { code := ccNotFound } s t ∧ OnlyStatus c s t) :=
  .reads (f := fun t p => t.lpmRead c p) rfl h (bankPipe_lt h) fun _ _ => State.lpmRead_of_none hc hf

theorem lpmDelete_absent : Completes (.lpmDelete c) s (fun t => Answers c p {} s t ∧ OnlyStatus c s t) :=
  .reads (f := fun t p => t.lpmDelete c p) rfl h (bankPipe_lt h) fun _ _ => State.lpmDelete_of_none hc hf

theorem lpmWrite_lost {i : Nat} (hi : (s.lpmBank p).findIdx? (fun x => !x.valid && x.group == e.group) = some i) :
    Completes (.lpmWrite c) s (fun t => Answers c p { result := some i } s t ∧ LpmSet c s p ((s.lpmBank p).set i e) t) :=
  .fwds (f := fun t p => t.lpmWrite c p) (a := (s.setLpm p ((s.lpmBank p).set i e)).fwd) rfl h (bankPipe_lt h)
    (fun k _ => (State.lpmWrite_of_none (s := s.cmdAt c k) hc hf).trans (by
      rw [lpmBank_cmdAt, hi]
      exact congrArg (·, _) (setLpm_cmdAt _ _ _ _ _))) fun _ ha hu hfr => ⟨ha, lpmSet_of hu hfr⟩

section
variable (hi : (s.lpmBank p).findIdx? (fun x => !x.valid && x.group == e.group) = none)
include hi

omit h in
theorem lpmWrite_absent (k : Io) : (s.cmdAt c k).lpmWrite c p =
    if lpmSize ≤ (s.lpmBank p).length then ((s.cmdAt c k).raise (pgLpm (2 * p)) 2, { code := ccFull })
    else (((s.cmdAt c k).setLpm p (lpmInsert (s.lpmBank p) e).1).ctr (pgLpm (2 * p)) LPM_MOVE_CNT.COUNT (lpmInsert (s.lpmBank p) e).2,
      { result := (lpmFind (lpmInsert (s.lpmBank p) e).1 fun x => x.same e).map (·.1) }) := by
  rw [State.lpmWrite_of_none (s := s.cmdAt c k) hc hf, lpmBank_cmdAt, hi]

theorem lpmWrite_inserts (hl : (s.lpmBank p).length < lpmSize) : Completes (.lpmWrite c) s (fun t =>
    Answers c p { result := (lpmFind (lpmInsert (s.lpmBank p) e).1 fun x => x.same e).map (·.1) } s t ∧
    LpmSet c s p (lpmInsert (s.lpmBank p) e).1 t) :=
  .fwdsIo (f := fun t p => t.lpmWrite c p) (a := (s.setLpm p (lpmInsert (s.lpmBank p) e).1).fwd) rfl h (bankPipe_lt h)
    (fun k _ => ⟨_, ((lpmWrite_absent hc hf hi k).trans (if_neg (Nat.not_le.2 hl))).trans (by rw [setLpm_ctr]), ring_lpmMoves c k _ _⟩) fun _ ha hu hfr => ⟨ha, lpmSet_of hu hfr⟩

theorem lpmWrite_full (hl : lpmSize ≤ (s.lpmBank p).length) : Completes (.lpmWrite c) s (fun t =>
    Answers c p { code := ccFull } s t ∧ t.io.cause (pgLpm (2 * p)) 2 = true ∧ OnlyStatus c s t) := by
  refine .part (f := fun t p => t.lpmWrite c p) (wait := fun _ _ => false) rfl h (bankPipe_lt h) rfl fun k hk => ?_
  have hw := (s.cmdAt c k).within_raise (pgLpm (2 * p)) 2
  have he := lpmWrite_absent hc hf hi k
  rw [if_pos hl] at he
  refine ⟨_, _, he, ?_, hw.same .pending (by decide), fun u ha he => ⟨ha, ?_, ?_⟩⟩
  · rw [State.raise_io]
    exact (ring_lpmRaise c _ (2 * p) 2).after (hk.ring c)
  · have hr := (s.cmdAt c k).cause_raise (pgLpm (2 * p)) (n := 2) (by decide)
    have hn : ¬ inPages [pgRing c.ring] (pgLpm (2 * p) + 0x10) := by
      have e1 : pgLpm (2 * p) = 0x1000000 + 2 * p * 0x100000 + 0x30000 := rfl
      have e2 := RingKept.ring_eq c
      have hq := c.queue.isLt
      rintro ⟨q, hm, h1, h2⟩
      rw [List.mem_singleton.1 hm] at h1 h2
      omega
    unfold Io.cause at hr ⊢
    rw [he.pages _ hn]
    exact hr
  · exact he.frame

end

end

end

theorem lpmSearch_finds {i : Nat} {x : LpmEntry}
    (hf : lpmFind (s.lpmArr p) (fun y => y.hits (c.le 32 2 % 4096) (c.le 35 1 % 2) (c.be 16 16)) = some (i, x)) :
    Completes (.lpmSearch c) s (fun t => Answers c p { data := lpmData ((s.lpmBank p).getD i x), result := some i } s t ∧ OnlyStatus c s t) :=
  .reads (f := fun t p => t.lpmSearch c p) rfl h (bankPipe_lt h) fun _ _ => by
    unfold State.lpmSearch
    rw [show lpmFind ((s.cmdAt c _).lpmArr p) _ = _ from hf]
    rfl

end

/-! ### Zones -/

section
variable {s : State} {c : Cmd} {p : Nat} (h : s.takesPart c 0xFF p)
include h

theorem zoneTimeoutRead_set (hi : c.idx < 4096) : Completes (.zoneTimeoutRead c) s (fun t =>
    Answers c p { data := bytesLE 1 (s.act.zoneSet.get 0 (4096 * p + c.idx)) } s t ∧ OnlyStatus c s t) :=
  .reads (f := fun t p => t.zoneRead c p) rfl h (pipe_lt h) fun _ _ => if_pos hi

theorem zoneTimeoutWrite_set (hi : c.idx < 4096) : Completes (.zoneTimeoutWrite c) s (fun t => Answers c p {} s t ∧
    (∀ k, t.act.zoneSet.get 0 k = if k = 4096 * p + c.idx then c.le 16 1 % 16 else s.act.zoneSet.get 0 k) ∧
    t = { s.unhold c.queue.val with io := t.io, act := { s.act with zoneSet := t.act.zoneSet } }) := by
  refine .acts (f := fun t p => t.zoneWrite c p) (r := {})
    (a := { s.act with zoneSet := s.act.zoneSet.set 0 (4096 * p + c.idx) (c.le 16 1 % 16) }) rfl h (pipe_lt h) (fun _ _ => if_pos hi)
    fun u ha hu hf => ⟨ha, fun k => ?_, ?_⟩
  · rw [hu]
    exact SMap.get_setIf _ _ _ _ _
  · rw [hu]
    exact hf

theorem zoneTimeoutWrite_classes {n : Nat} (hi : c.idx = 4096 + n) (hn : n < 16) : Completes (.zoneTimeoutWrite c) s (fun t =>
    Answers c p {} s t ∧
    (∀ k, t.act.classes.get 0 k = if k = 16 * p + n then BitVec.ofNat 128 (c.le 16 16) else s.act.classes.get 0 k) ∧
    t = { s.unhold c.queue.val with io := t.io, act := { s.act with classes := t.act.classes } }) := by
  have hn' : c.idx - 4096 = n := by omega
  refine .acts (f := fun t p => t.zoneWrite c p) (r := {})
    (a := { s.act with classes := s.act.classes.set 0 (16 * p + n) (BitVec.ofNat 128 (c.le 16 16)) }) rfl h (pipe_lt h)
    (fun _ _ => ?_) fun u ha hu hf => ⟨ha, fun k => ?_, ?_⟩
  · rw [← hn']
    exact (if_neg (by omega)).trans (if_pos (by omega))
  · rw [hu]
    exact SMap.get_setIf _ _ _ _ _
  · rw [hu]
    exact hf

theorem zoneTimeout_badIndex (hi : 4112 ≤ c.idx) (x : Instr) (hx : x = Instr.zoneTimeoutRead c ∨ x = Instr.zoneTimeoutWrite c) :
    Completes x s (fun t => Answers c p { code := ccBadIndex } s t ∧ OnlyStatus c s t) := by
  rcases hx with rfl | rfl
  · exact .reads (f := fun t p => t.zoneRead c p) rfl h (pipe_lt h) fun _ _ => (if_neg (by omega)).trans (if_neg (by omega))
  · exact .reads (f := fun t p => t.zoneWrite c p) rfl h (pipe_lt h) fun _ _ => (if_neg (by omega)).trans (if_neg (by omega))

end

/-- Settles O39, each command through what its one part does to the bank or zone it names. -/
theorem lpmAndZoneAccess : Obligations.LpmAndZoneAccess := by
  unfold Obligations.LpmAndZoneAccess
  refine fun s c p => ⟨fun e h hc => ⟨fun i x hf => ⟨lpmRead_finds h hc hf, ?_, ?_⟩, fun hf => ⟨lpmRead_notFound h hc hf, lpmDelete_absent h hc hf,
    fun i hi => ?_, fun hi hl => ?_, fun hi hl => lpmWrite_full h hc hf hi hl⟩⟩, fun i x h hf => lpmSearch_finds h hf,
    fun h hi => ⟨zoneTimeoutRead_set h hi, zoneTimeoutWrite_set h hi⟩, fun n h hi hn => zoneTimeoutWrite_classes h hi hn,
    fun h hi x hx => zoneTimeout_badIndex h hi x hx⟩
  · exact (lpmWrite_replaces h hc hf).lpmSet
  · exact (lpmDelete_removes h hc hf).lpmSet
  · exact (lpmWrite_lost h hc hf hi).lpmSet
  · exact (lpmWrite_inserts h hc hf hi hl).lpmSet

end Sys2Proof.Machine
end

section
/-!
SUPPORT. Classifier entries and search profiles (R134, R137 to R140).
-/
namespace Sys2Proof.Machine

/-! ### What a part sees of the page of its banks -/

/-- The header of the page at `b` holds no counter of a pipeline. -/
structure PlainHead (b : Nat) : Prop where
  off : ∀ o < 0x40, ¬ fabWord (b + o)

theorem plainHead_cls (p : Nat) : PlainHead (pgCls p) := ⟨fun o ho h => by
  have e : pgCls p = 0x1000000 + p * 0x100000 + 0x10000 := rfl
  have e2 : pgPmc = 0x140000 := rfl
  rcases h with ⟨h1, h2⟩ | ⟨q, _, h1, h2⟩
  · omega
  · have e3 : pgPmcL q = 0x1000000 + q * 0x100000 + 0x80000 := rfl
    omega⟩

theorem plainHead_act (p : Nat) : PlainHead (pgAct p) := ⟨fun o ho h => by
  have e : pgAct p = 0x1000000 + p * 0x100000 + 0x50000 := rfl
  have e2 : pgPmc = 0x140000 := rfl
  rcases h with ⟨h1, h2⟩ | ⟨q, _, h1, h2⟩
  · omega
  · have e3 : pgPmcL q = 0x1000000 + q * 0x100000 + 0x80000 := rfl
    omega⟩

namespace PartIo
variable {s i : Io} (h : PartIo s i)
include h

theorem after {j : Io} (h' : PartIo i j) : PartIo s j := ⟨.mono (.after h'.within h.within) (by decide), h'.keeps.after h.keeps⟩

theorem feature {j : Nat} (hj : j < 128) : i.feature j = s.feature j := by
  unfold Io.feature
  rw [h.keeps.rd _ fun h => ?_]
  have e : pgFtr = 0x30000 := rfl
  have e2 : pgPmc = 0x140000 := rfl
  rcases h with ⟨h1, h2⟩ | ⟨q, _, h1, h2⟩
  · omega
  · have e3 : pgPmcL q = 0x1000000 + q * 0x100000 + 0x80000 := rfl
    omega

variable {b : Nat} (hb : PlainHead b)
include hb

theorem active : i.active b = s.active b := by
  unfold Io.active
  rw [h.keeps.rd _ (hb.off 0x24 (by decide))]

theorem rdSel : i.get b PG_SHADOW_CTL.RD_SEL = s.get b PG_SHADOW_CTL.RD_SEL := h.get b _ 0 (by decide) (hb.off 0x24 (by decide))

theorem busy : i.get b PG_SHADOW_CTL.SHADOW_BUSY = s.get b PG_SHADOW_CTL.SHADOW_BUSY := h.get b _ 0 (by decide) (hb.off 0x24 (by decide))

end PartIo

namespace State
variable {s : State} {i : Io} (h : PartIo s.io i) (c : Cmd)
include h

theorem feature_cmdAt {j : Nat} (hj : j < 128) : (s.cmdAt c i).feature j = s.feature j := h.feature hj

variable {b : Nat} (hb : PlainHead b)
include hb

theorem active_cmdAt : (s.cmdAt c i).io.active b = s.io.active b := h.active hb

theorem writeBanks_cmdAt : (s.cmdAt c i).writeBanks b = s.writeBanks b := by
  unfold writeBanks
  rw [feature_cmdAt h c (by decide), active_cmdAt h c hb]

theorem pendBank_cmdAt : (s.cmdAt c i).pendBank b = s.pendBank b := by
  unfold pendBank
  rw [feature_cmdAt h c (by decide), active_cmdAt h c hb]

end State

theorem State.writeBanks_lt {s : State} {b k : Nat} (h : k ∈ s.writeBanks b) : k < 2 := by
  unfold writeBanks at h
  split at h
  · rw [List.mem_singleton.1 h]
    omega
  · simp only [List.mem_cons, List.not_mem_nil, or_false] at h
    omega

theorem State.writeBanks_ne (s : State) (b : Nat) : s.writeBanks b ≠ [] := by
  unfold writeBanks
  split <;> simp

theorem State.pendBank_lt (s : State) (b : Nat) : s.pendBank b < 2 := by
  unfold pendBank
  split
  · omega
  · exact s.io.active_lt b

/-! ### Valid bits of a classifier entry -/

/-- The tables with the valid bit of entry `i` in each bank of `l` set to `v`. -/
def validSet (p i : Nat) (v : Bool) (l : List Nat) (F : Fwd) : Fwd :=
  l.foldl (fun F b => { F with clsValid := F.clsValid.set false (clsBank p i b) v, upset := F.upset.set 0 (upsetKey .cls p i) 0 }) F

theorem foldl_setClsOn (p i : Nat) (v : Bool) (l : List Nat) (s : State) :
    l.foldl (fun s b => s.setClsOn p i b v) s = { s with fwd := validSet p i v l s.fwd } := by
  induction l generalizing s with
  | nil => rfl
  | cons b l ih => exact ih _

theorem validSet_only (p i : Nat) (v : Bool) (l : List Nat) (F : Fwd) :
    validSet p i v l F = { F with clsValid := (validSet p i v l F).clsValid, upset := (validSet p i v l F).upset } := by
  unfold validSet
  induction l generalizing F with
  | nil => rfl
  | cons b l ih => exact ih _

theorem clsValid_validSet (p i : Nat) (v : Bool) (l : List Nat) (F : Fwd) (k : Nat) :
    (validSet p i v l F).clsValid.get false k = if ∃ b ∈ l, k = clsBank p i b then v else F.clsValid.get false k := by
  unfold validSet
  induction l generalizing F with
  | nil => simp
  | cons b l ih =>
    rw [List.foldl_cons, ih]
    by_cases hk : k = clsBank p i b
    · simp [hk, SMap.get_set_same]
    · simp [hk, SMap.get_set_ne]

theorem clsBank_div {p i b : Nat} (hb : b < 2) : clsBank p i b / 2 = clsKey p i := by
  unfold clsBank
  omega

/-- The valid bits of other entries stay. -/
theorem clsValid_validSet_other {p i k : Nat} (v : Bool) {l : List Nat} (hl : ∀ b ∈ l, b < 2) (F : Fwd) (hk : k / 2 ≠ clsKey p i) :
    (validSet p i v l F).clsValid.get false k = F.clsValid.get false k := by
  rw [clsValid_validSet, if_neg]
  rintro ⟨b, hb, rfl⟩
  exact hk (clsBank_div (hl b hb))

theorem cls_validSet (p i : Nat) (v : Bool) (l : List Nat) (F : Fwd) : (validSet p i v l F).cls = F.cls := by
  rw [validSet_only]

/-- The tables that a write of an entry's valid bit leaves. -/
theorem State.clsSetValid_eq (s : State) (p i : Nat) (v : Bool) :
    s.clsSetValid p i v = { s with fwd := validSet p i v (s.writeBanks (pgCls p)) s.fwd } := foldl_setClsOn _ _ _ _ _

/-! ### Classifier entries: READ, WRITE, DELETE -/

theorem clsRead_both {t : State} {c : Cmd} {p : Nat} (hi : c.indirect = true) (hl : c.len = 48) (hx : c.idx < 16384)
    (h0 : t.clsOn p c.idx 0 = true) (h1 : t.clsOn p c.idx 1 = true) :
    t.clsRead c p = (t, { data := bytesLE 48 ((t.clsImage p c.idx).toNat + 5 * 2 ^ 352), result := some 48 }) := by
  have h (b : Nat) (hb : b < 2) : t.clsOn p c.idx b = true := by
    have hb' : b = 0 ∨ b = 1 := by omega
    rcases hb' with rfl | rfl
    · exact h0
    · exact h1
  unfold State.clsRead
  dsimp only
  rw [if_neg (by simp [hi, hl]), if_neg (by omega), h _ (t.pendBank_lt _), h _ (t.io.active_lt _)]
  rfl

theorem clsRead_free {t : State} {c : Cmd} {p : Nat} (hi : c.indirect = true) (hl : c.len = 48) (hx : c.idx < 16384)
    (hf : t.clsFree p c.idx = true) : t.clsRead c p = (t, { code := ccNotFound }) := by
  unfold State.clsFree at hf
  simp only [Bool.and_eq_true, Bool.not_eq_true'] at hf
  have h (b : Nat) (hb : b < 2) : t.clsOn p c.idx b = false := by
    have hb' : b = 0 ∨ b = 1 := by omega
    rcases hb' with rfl | rfl
    · exact hf.1
    · exact hf.2
  unfold State.clsRead
  dsimp only
  rw [if_neg (by simp [hi, hl]), if_neg (by omega), h _ (t.pendBank_lt _), h _ (t.io.active_lt _)]
  rfl

section
variable {s : State} {c : Cmd} {p : Nat} (h : s.takesPart c 0xFF p)
include h

theorem clsRead_valid (hi : c.indirect = true) (hl : c.len = 48) (hx : c.idx < 16384) (h0 : s.clsOn p c.idx 0 = true)
    (h1 : s.clsOn p c.idx 1 = true) : Completes (.clsRead c) s (fun t =>
      Answers c p { data := bytesLE 48 ((s.clsImage p c.idx).toNat + 5 * 2 ^ 352), result := some 48 } s t ∧ OnlyStatus c s t) :=
  .reads (f := fun t p => t.clsRead c p) rfl h (pipe_lt h) fun i _ => clsRead_both (t := s.cmdAt c i) hi hl hx h0 h1

theorem clsRead_notFound (hi : c.indirect = true) (hl : c.len = 48) (hx : c.idx < 16384) (hf : s.clsFree p c.idx = true) :
    Completes (.clsRead c) s (fun t => Answers c p { code := ccNotFound } s t ∧ OnlyStatus c s t) :=
  .reads (f := fun t p => t.clsRead c p) rfl h (pipe_lt h) fun i _ => clsRead_free (t := s.cmdAt c i) hi hl hx hf

theorem cls_badIndex (hx : 16384 ≤ c.idx) (hi : c.indirect = true) (hl : c.len = 48) (hb : s.shadowBusy (pgCls p) = false) (x : Instr)
    (hr : x = Instr.clsRead c ∨ x = Instr.clsWrite c ∨ x = Instr.clsDelete c) :
    Completes x s (fun t => Answers c p { code := ccBadIndex } s t ∧ OnlyStatus c s t) := by
  rcases hr with rfl | rfl | rfl
  · refine .reads (f := fun t p => t.clsRead c p) rfl h (pipe_lt h) fun i _ => ?_
    unfold State.clsRead
    dsimp only
    rw [if_neg (by simp [hi, hl]), if_pos hx]
  · refine .partReads (f := fun t p => t.clsWrite c p) (wait := fun s p => s.shadowBusy (pgCls p)) rfl h (pipe_lt h) hb fun i _ => ?_
    unfold State.clsWrite
    dsimp only
    rw [if_neg (by simp [hi, hl]), if_pos hx]
  · exact .partReads (f := fun t p => t.clsDelete c p) (wait := fun s p => s.shadowBusy (pgCls p)) rfl h (pipe_lt h) hb fun i _ => if_pos hx

/-- A write of a page whose pending bank is being copied waits in its queue (R52). -/
theorem cls_waits (hb : s.shadowBusy (pgCls p) = true) (x : Instr)
    (hr : x = Instr.clsWrite c ∨ x = Instr.clsDelete c ∨ x = Instr.clsMove c ∨ x = Instr.searchProfileWrite c) :
    Completes x s (fun t => t = s.holdWait c) := by
  have hw {x : Instr} {f : State → Nat → State × Res}
      (hx : exec x s = s.live fun s => s.runCmd c 0xFF false some (fun p => s.shadowBusy (pgCls p)) f) : Completes x s (fun t => t = s.holdWait c) := by
    refine .live_eq (t := s.holdWait c) hx h.on ?_ rfl rfl
    obtain ⟨_, h1, h2, h3, h4, h5, h6⟩ := h
    unfold State.runCmd
    rw [h1, Cmd.badMask_of_part h2 h3 h5 h6, h4, h5, List.any_cons, hb]
    rfl
  rcases hr with rfl | rfl | rfl | rfl
  · exact hw (f := fun t p => t.clsWrite c p) rfl
  · exact hw (f := fun t p => t.clsDelete c p) rfl
  · exact hw (f := fun t p => t.clsMove c p) rfl
  · exact hw (f := fun t p => t.profWrite c p) rfl

/-! A write enters the image and its valid bit. -/

/-- The tables that a write of the entry that `c` names leaves. -/
def clsWritten (s : State) (c : Cmd) (p : Nat) : Fwd :=
  validSet p c.idx ((ofBytesLE (c.buffer 48)).testBit 352) (s.writeBanks (pgCls p)) (s.setCls p c.idx (entStore (ofBytesLE (c.buffer 48)))).fwd

omit h in
theorem clsStored_cmdAt (i : Io) (v : BitVec 384) (b : Bool) (l : List Nat) :
    ({ (s.cmdAt c i).setCls p c.idx v with fwd := validSet p c.idx b l ((s.cmdAt c i).setCls p c.idx v).fwd } : State) =
      { s.cmdAt c i with fwd := validSet p c.idx b l (s.setCls p c.idx v).fwd } := rfl

omit h in
theorem clsWrite_of_free {t : State} (hi : c.indirect = true) (hl : c.len = 48) (hx : c.idx < 16384)
    (hn : ¬ (t.feature 1 = true ∧ t.clsOn p c.idx (t.io.active (pgCls p)) = true)) :
    t.clsWrite c p =
      ((t.setCls p c.idx (entStore (ofBytesLE (c.buffer 48)))).clsSetValid p c.idx ((ofBytesLE (c.buffer 48)).testBit 352), {}) := by
  unfold State.clsWrite
  dsimp only
  rw [if_neg (by simp [hi, hl]), if_neg (by omega), if_neg hn]

omit h in
theorem clsSetValid_cmdAt {i : Io} (hio : PartIo s.io i) (v : BitVec 384) (b : Bool) :
    ((s.cmdAt c i).setCls p c.idx v).clsSetValid p c.idx b =
      { s.cmdAt c i with fwd := validSet p c.idx b (s.writeBanks (pgCls p)) (s.setCls p c.idx v).fwd } := by
  have hw : ((s.cmdAt c i).setCls p c.idx v).writeBanks (pgCls p) = s.writeBanks (pgCls p) :=
    State.writeBanks_cmdAt hio c (plainHead_cls p)
  rw [State.clsSetValid_eq, hw, clsStored_cmdAt]

omit h in
theorem clsWrite_cmdAt (hi : c.indirect = true) (hl : c.len = 48) (hx : c.idx < 16384)
    (ho : s.feature 1 = false ∨ s.clsOn p c.idx (s.io.active (pgCls p)) = false) {i : Io} (hio : PartIo s.io i) :
    (s.cmdAt c i).clsWrite c p = ({ s.cmdAt c i with fwd := clsWritten s c p }, {}) := by
  have hn : ¬ ((s.cmdAt c i).feature 1 = true ∧ (s.cmdAt c i).clsOn p c.idx ((s.cmdAt c i).io.active (pgCls p)) = true) := by
    rw [State.feature_cmdAt hio c (by decide), State.active_cmdAt hio c (plainHead_cls p)]
    rintro ⟨h1, h2⟩
    rcases ho with ho | ho
    · rw [ho] at h1
      exact Bool.noConfusion h1
    · exact Bool.noConfusion (ho.symm.trans h2)
  rw [clsWrite_of_free hi hl hx hn, clsSetValid_cmdAt hio, clsWritten]

omit h in
/-- What the tables of a written entry say. -/
theorem clsWritten_spec (s : State) (c : Cmd) (p : Nat) {v : BitVec 384} {b : Bool} (hv : entStore (ofBytesLE (c.buffer 48)) = v)
    (hb : (ofBytesLE (c.buffer 48)).testBit 352 = b) :
    (∀ k, (clsWritten s c p).cls.get 0 k = if k = clsKey p c.idx then v else s.fwd.cls.get 0 k) ∧
    (∀ n ∈ s.writeBanks (pgCls p), (clsWritten s c p).clsValid.get false (clsBank p c.idx n) = b) ∧
    (∀ k, k / 2 ≠ clsKey p c.idx → (clsWritten s c p).clsValid.get false k = s.fwd.clsValid.get false k) ∧
    clsWritten s c p = { s.fwd with cls := (clsWritten s c p).cls, clsValid := (clsWritten s c p).clsValid, upset := (clsWritten s c p).upset } := by
  unfold clsWritten
  rw [hv, hb]
  have hc := cls_validSet p c.idx b (s.writeBanks (pgCls p)) (s.setCls p c.idx v).fwd
  have ho := validSet_only p c.idx b (s.writeBanks (pgCls p)) (s.setCls p c.idx v).fwd
  refine ⟨fun k => ?_, fun n hn => ?_, fun k hk => clsValid_validSet_other _ (fun _ => State.writeBanks_lt) _ hk, ?_⟩
  · rw [hc]
    exact SMap.get_setIf _ _ _ _ _
  · rw [clsValid_validSet, if_pos ⟨n, hn, rfl⟩]
  · generalize validSet p c.idx b (s.writeBanks (pgCls p)) (s.setCls p c.idx v).fwd = F at hc ho ⊢
    rw [hc]
    exact ho

theorem clsWrite_writes (hi : c.indirect = true) (hl : c.len = 48) (hx : c.idx < 16384) (hb : s.shadowBusy (pgCls p) = false)
    (ho : s.feature 1 = false ∨ s.clsOn p c.idx (s.io.active (pgCls p)) = false) : Completes (.clsWrite c) s (fun t => Answers c p {} s t ∧
      (∀ k, t.fwd.cls.get 0 k = if k = clsKey p c.idx then entStore (ofBytesLE (c.buffer 48)) else s.fwd.cls.get 0 k) ∧
      (∀ b ∈ s.writeBanks (pgCls p), t.clsOn p c.idx b = (ofBytesLE (c.buffer 48)).testBit 352) ∧
      (∀ k, k / 2 ≠ clsKey p c.idx → t.fwd.clsValid.get false k = s.fwd.clsValid.get false k) ∧
      t = { s.unhold c.queue.val with io := t.io, fwd := { s.fwd with cls := t.fwd.cls, clsValid := t.fwd.clsValid, upset := t.fwd.upset } }) := by
  refine .partFwds (f := fun t p => t.clsWrite c p) (wait := fun s p => s.shadowBusy (pgCls p)) (a := clsWritten s c p) (r := {}) rfl h (pipe_lt h) hb
    (fun i hio => clsWrite_cmdAt hi hl hx ho hio) fun u ha hu hf => ?_
  obtain ⟨hc, hv, ho, he⟩ := clsWritten_spec s c p rfl rfl
  generalize clsWritten s c p = F at hu hf hc hv ho he
  subst hu
  exact ⟨ha, hc, hv, ho, hf.trans (congrArg (fun F : Fwd => ({ s.unhold c.queue.val with io := u.io, fwd := F } : State)) he)⟩

theorem clsWrite_refused (hi : c.indirect = true) (hl : c.len = 48) (hx : c.idx < 16384) (hb : s.shadowBusy (pgCls p) = false)
    (h1 : s.feature 1 = true) (ho : s.clsOn p c.idx (s.io.active (pgCls p)) = true)
    (hd : entStore (ofBytesLE (c.buffer 48)) ≠ s.clsImage p c.idx) :
    Completes (.clsWrite c) s (fun t => Answers c p { code := ccBadIndex, result := some 1 } s t ∧ OnlyStatus c s t) := by
  refine .partReads (f := fun t p => t.clsWrite c p) (wait := fun s p => s.shadowBusy (pgCls p)) rfl h (pipe_lt h) hb fun i hio => ?_
  have hn : (s.cmdAt c i).feature 1 = true ∧ (s.cmdAt c i).clsOn p c.idx ((s.cmdAt c i).io.active (pgCls p)) = true := by
    rw [State.feature_cmdAt hio c (by decide), State.active_cmdAt hio c (plainHead_cls p)]
    exact ⟨h1, ho⟩
  unfold State.clsWrite
  dsimp only
  rw [if_neg (by simp [hi, hl]), if_neg (by omega), if_pos hn]
  exact if_neg hd

end

/-! A delete clears the pending valid bits in each pipeline it names. -/

/-- The tables that a delete in the pipelines of `ps` leaves. -/
def clsDeleted (s : State) (c : Cmd) (ps : List Nat) (F : Fwd) : Fwd :=
  ps.foldl (fun F q => validSet q c.idx false (s.writeBanks (pgCls q)) F) F

theorem clsDeleted_only (s : State) (c : Cmd) (ps : List Nat) (F : Fwd) :
    clsDeleted s c ps F = { F with clsValid := (clsDeleted s c ps F).clsValid, upset := (clsDeleted s c ps F).upset } := by
  unfold clsDeleted
  induction ps generalizing F with
  | nil => rfl
  | cons q ps ih =>
    have hv := validSet_only q c.idx false (s.writeBanks (pgCls q)) F
    rw [List.foldl_cons]
    generalize validSet q c.idx false (s.writeBanks (pgCls q)) F = G at hv ⊢
    refine (ih G).trans ?_
    rw [hv]

theorem clsValid_clsDeleted {s : State} {c : Cmd} {ps : List Nat} (F : Fwd) {k : Nat} (hk : ∀ q ∈ ps, k / 2 ≠ clsKey q c.idx) :
    (clsDeleted s c ps F).clsValid.get false k = F.clsValid.get false k := by
  unfold clsDeleted
  induction ps generalizing F with
  | nil => rfl
  | cons q ps ih =>
    rw [List.foldl_cons, ih _ fun q hq => hk q (List.mem_cons_of_mem _ hq)]
    exact clsValid_validSet_other _ (fun _ => State.writeBanks_lt) _ (hk q List.mem_cons_self)

/-- A bit that a delete has cleared stays clear. -/
theorem clsDeleted_clear (s : State) (c : Cmd) (ps : List Nat) {F : Fwd} {k : Nat} (h : F.clsValid.get false k = false) :
    (clsDeleted s c ps F).clsValid.get false k = false := by
  unfold clsDeleted
  induction ps generalizing F with
  | nil => exact h
  | cons q ps ih =>
    refine ih ?_
    rw [clsValid_validSet]
    split
    · rfl
    · exact h

theorem clsDeleted_part {s : State} {c : Cmd} {ps : List Nat} (F : Fwd) {q b : Nat} (hq : q ∈ ps) (hb : b ∈ s.writeBanks (pgCls q)) :
    (clsDeleted s c ps F).clsValid.get false (clsBank q c.idx b) = false := by
  unfold clsDeleted
  induction ps generalizing F with
  | nil => exact absurd hq List.not_mem_nil
  | cons r ps ih =>
    rcases List.mem_cons.1 hq with rfl | hq
    · refine clsDeleted_clear s c ps ?_
      rw [clsValid_validSet, if_pos ⟨b, hb, rfl⟩]
    · exact ih _ hq

/-- The state in which a later part runs: earlier parts have left the tables `F`. -/
def State.fwdAt (s : State) (c : Cmd) (i : Io) (F : Fwd) : State := { s.cmdAt c i with fwd := F }

theorem clsDelete_fwdAt {s : State} {c : Cmd} (hx : c.idx < 16384) {i : Io} (hi : PartIo s.io i) (F : Fwd) (q : Nat) :
    (s.fwdAt c i F).clsDelete c q = (s.fwdAt c i (validSet q c.idx false (s.writeBanks (pgCls q)) F), {}) := by
  have hw : (s.fwdAt c i F).writeBanks (pgCls q) = s.writeBanks (pgCls q) := State.writeBanks_cmdAt hi c (plainHead_cls q)
  unfold State.clsDelete
  rw [if_neg (by omega), State.clsSetValid_eq, hw]
  rfl

/-- Counting a part for its pipeline (R89) is all that parts do to the host interface. -/
theorem PartIo.countPart {s : State} {c : Cmd} {i : Io} (h : PartIo s.io i) (F : Fwd) {q : Nat} (hq : q < 8) :
    ∃ j, PartIo s.io j ∧ (s.fwdAt c i F).countPart (some q) = s.fwdAt c j F :=
  ⟨_, h.after ⟨Io.within_event _ _ _ _ _, Io.keeps_event _ hq _ _ (by decide)⟩, rfl⟩

theorem runParts_clsDelete {s : State} {c : Cmd} (hx : c.idx < 16384) {ps : List Nat} (hp : ∀ q ∈ ps, q < 8) {i : Io} (hi : PartIo s.io i) (F : Fwd) :
    ∃ j, PartIo s.io j ∧
      runParts some (fun t q => t.clsDelete c q) ps (s.fwdAt c i F) = (s.fwdAt c j (clsDeleted s c ps F), ps.map fun q => (q, {})) := by
  induction ps generalizing i F with
  | nil => exact ⟨i, hi, rfl⟩
  | cons q ps ih =>
    obtain ⟨k, hk, he⟩ := hi.countPart (c := c) F (hp q List.mem_cons_self)
    obtain ⟨j, hj, hr⟩ := ih (fun q hq => hp q (List.mem_cons_of_mem _ hq)) hk (validSet q c.idx false (s.writeBanks (pgCls q)) F)
    refine ⟨j, hj, ?_⟩
    simp only [runParts]
    rw [he, clsDelete_fwdAt hx hk, hr]
    rfl

theorem clsDelete_clears {s : State} {c : Cmd} (hon : s.on = true) (hc : s.cmdWaiting c = true) (hm : c.badMask 0xFF false = false)
    (hd : dmaFails c = false) (hx : c.idx < 16384) (hb : ∀ q ∈ c.partList, s.shadowBusy (pgCls q) = false) : Completes (.clsDelete c) s (fun t =>
      (∀ q ∈ c.partList, ∀ b ∈ s.writeBanks (pgCls q), t.clsOn q c.idx b = false) ∧
      (∀ k, (∀ q ∈ c.partList, k / 2 ≠ clsKey q c.idx) → t.fwd.clsValid.get false k = s.fwd.clsValid.get false k) ∧
      StatusIs c (c.partList.map fun q => (q, {})) s t ∧
      t = { s.unhold c.queue.val with io := t.io, fwd := { s.fwd with clsValid := t.fwd.clsValid, upset := t.fwd.upset } }) := by
  obtain ⟨j, hj, hr⟩ := runParts_clsDelete (s := s) hx (ps := c.partList) (fun q hq => (mem_onesOf.1 hq).1) (.refl s.io) s.fwd
  have ha : c.partList.any (fun p => s.shadowBusy (pgCls p)) = false := List.any_eq_false.2 fun q hq => by simp [hb q hq]
  have he : s.runCmd c 0xFF false some (fun p => s.shadowBusy (pgCls p)) (fun t q => t.clsDelete c q) =
      (s.fwdAt c j (clsDeleted s c c.partList s.fwd)).upIo fun io => io.cmdDone c (c.partList.map fun q => (q, {})) := by
    unfold State.runCmd
    rw [hc, hm, hd, ha]
    exact congrArg (fun r : State × List (Nat × Res) => r.1.upIo fun io => io.cmdDone c r.2) hr
  have hst := State.cmdDone_statusIs (s := s) (x := s.fwdAt c j (clsDeleted s c c.partList s.fwd)) (hj.ring c) (c.partList.map fun q => (q, {}))
  refine .live_eq (f := fun s => s.runCmd c 0xFF false some (fun p => s.shadowBusy (pgCls p)) fun t q => t.clsDelete c q) rfl hon he rfl ⟨fun q hq b hb => clsDeleted_part _ hq hb, fun k hk => clsValid_clsDeleted _ hk, hst, ?_⟩
  have ho := clsDeleted_only s c c.partList s.fwd
  generalize clsDeleted s c c.partList s.fwd = F at ho ⊢
  exact congrArg (fun G : Fwd => ({ s.unhold c.queue.val with io := j.cmdDone c (c.partList.map fun q => (q, {})), fwd := G } : State)) ho

/-! ### Search profiles -/

/-- The tables with search profile `i` of pipeline `p` stored in each bank of `l`. -/
def profSet (p i : Nat) (v : BitVec 576) (l : List Nat) (F : Fwd) : Fwd :=
  l.foldl (fun F b => { F with prof := F.prof.set 0 (2 * (64 * p + i) + b) v, gone := F.gone.set false (64 * p + i) false }) F

theorem foldl_profSet (p i : Nat) (v : BitVec 576) (l : List Nat) (s : State) :
    l.foldl (fun s b => { s with fwd := { s.fwd with prof := s.fwd.prof.set 0 (2 * (64 * p + i) + b) v,
                                                     gone := s.fwd.gone.set false (64 * p + i) false } }) s =
      { s with fwd := profSet p i v l s.fwd } := by
  unfold profSet
  induction l generalizing s with
  | nil => rfl
  | cons b l ih => exact ih _

theorem profSet_only (p i : Nat) (v : BitVec 576) (l : List Nat) (F : Fwd) :
    profSet p i v l F = { F with prof := (profSet p i v l F).prof, gone := (profSet p i v l F).gone } := by
  unfold profSet
  induction l generalizing F with
  | nil => rfl
  | cons b l ih => exact ih _

theorem prof_profSet (p i : Nat) (v : BitVec 576) (l : List Nat) (F : Fwd) (k : Nat) :
    (profSet p i v l F).prof.get 0 k = if ∃ b ∈ l, k = 2 * (64 * p + i) + b then v else F.prof.get 0 k := by
  unfold profSet
  induction l generalizing F with
  | nil => simp
  | cons b l ih =>
    rw [List.foldl_cons, ih]
    by_cases hk : k = 2 * (64 * p + i) + b
    · simp [hk, SMap.get_set_same]
    · simp [hk, SMap.get_set_ne]

theorem gone_profSet (p i : Nat) (v : BitVec 576) {l : List Nat} (hl : l ≠ []) (F : Fwd) :
    (profSet p i v l F).gone.get false (64 * p + i) = false := by
  unfold profSet
  induction l generalizing F with
  | nil => exact absurd rfl hl
  | cons b l ih =>
    rw [List.foldl_cons]
    match l with
    | [] => exact SMap.get_set_same F.gone false false (64 * p + i)
    | c :: l => exact ih (by simp) _

section
variable {s : State} {c : Cmd} {p : Nat} (h : s.takesPart c 0xFF p) (hi : c.indirect = true) (hl : c.len = 72) (hx : c.idx < 64)
include hi hl hx

theorem profRead_cmdAt {i : Io} (hio : PartIo s.io i) : (s.cmdAt c i).profRead c p = (s.cmdAt c i,
    { data := bytesLE 72 (s.profile p c.idx (if s.get (pgCls p) PG_SHADOW_CTL.RD_SEL = 0
      then s.pendBank (pgCls p) else s.io.active (pgCls p))).toNat, result := some 72 }) := by
  have hr : (s.cmdAt c i).get (pgCls p) PG_SHADOW_CTL.RD_SEL = s.get (pgCls p) PG_SHADOW_CTL.RD_SEL := hio.rdSel (plainHead_cls p)
  unfold State.profRead
  dsimp only
  rw [if_neg (by simp [hi, hl]), if_neg (by omega), hr, State.pendBank_cmdAt hio c (plainHead_cls p),
    State.active_cmdAt hio c (plainHead_cls p)]
  rfl

theorem profWrite_cmdAt {i : Io} (hio : PartIo s.io i) : (s.cmdAt c i).profWrite c p = ({ s.cmdAt c i with
    fwd := profSet p c.idx (BitVec.ofNat 576 (ofBytesLE (c.buffer 72) &&& profFields)) (s.writeBanks (pgCls p)) s.fwd }, {}) := by
  unfold State.profWrite
  generalize BitVec.ofNat 576 (ofBytesLE (c.buffer 72) &&& profFields) = v
  dsimp only
  rw [if_neg (by simp [hi, hl]), if_neg (by omega), State.writeBanks_cmdAt hio c (plainHead_cls p), foldl_profSet]
  rfl

include h

theorem searchProfileRead_image : Completes (.searchProfileRead c) s (fun t =>
    Answers c p { data := bytesLE 72 (s.profile p c.idx (if s.get (pgCls p) PG_SHADOW_CTL.RD_SEL = 0
      then s.pendBank (pgCls p) else s.io.active (pgCls p))).toNat, result := some 72 } s t ∧ OnlyStatus c s t) :=
  .reads (f := fun t p => t.profRead c p) rfl h (pipe_lt h) fun _ hio => profRead_cmdAt hi hl hx hio

theorem searchProfileWrite_writes (hb : s.shadowBusy (pgCls p) = false) : Completes (.searchProfileWrite c) s (fun t =>
    Answers c p {} s t ∧
    (∀ b ∈ s.writeBanks (pgCls p), t.profile p c.idx b = BitVec.ofNat 576 (ofBytesLE (c.buffer 72) &&& profFields)) ∧
    (∀ k, k / 2 ≠ 64 * p + c.idx → t.fwd.prof.get 0 k = s.fwd.prof.get 0 k) ∧ t.fwd.gone.get false (64 * p + c.idx) = false ∧
    t = { s.unhold c.queue.val with io := t.io, fwd := { s.fwd with prof := t.fwd.prof, gone := t.fwd.gone } }) := by
  refine .partFwds (f := fun t p => t.profWrite c p) (wait := fun s p => s.shadowBusy (pgCls p)) (r := {}) rfl h (pipe_lt h) hb
    (fun i hio => profWrite_cmdAt hi hl hx hio) fun u ha hu hf => ?_
  generalize BitVec.ofNat 576 (ofBytesLE (c.buffer 72) &&& profFields) = v at hu hf ⊢
  have hp := prof_profSet p c.idx v (s.writeBanks (pgCls p)) s.fwd
  have hg := gone_profSet p c.idx v (s.writeBanks_ne (pgCls p)) s.fwd
  have ho := profSet_only p c.idx v (s.writeBanks (pgCls p)) s.fwd
  generalize profSet p c.idx v (s.writeBanks (pgCls p)) s.fwd = F at hu hf hp hg ho
  subst hu
  refine ⟨ha, fun b hb => (hp _).trans (if_pos ⟨b, hb, rfl⟩), fun k hk => (hp k).trans (if_neg ?_), hg,
    hf.trans (congrArg (fun F : Fwd => ({ s.unhold c.queue.val with io := u.io, fwd := F } : State)) ho)⟩
  rintro ⟨b, hb, rfl⟩
  have := State.writeBanks_lt hb
  omega

end

/-- Settles O36, each command through what its parts do to the entries they name. -/
theorem classifierAccess : Obligations.ClassifierAccess := by
  unfold Obligations.ClassifierAccess
  exact fun s c p hon => ⟨
    fun h hi hl hx => ⟨fun hv => clsRead_valid h hi hl hx hv.1 hv.2, fun hf => clsRead_notFound h hi hl hx hf⟩,
    fun h hx hi hl hb x hr => cls_badIndex h hx hi hl hb x hr,
    fun h hi hl hx hb => ⟨fun ho => clsWrite_writes h hi hl hx hb ho, fun h1 ho hd => clsWrite_refused h hi hl hx hb h1 ho hd⟩,
    fun h hb x hr => cls_waits h hb x hr,
    fun hc hm hd hx hb => clsDelete_clears hon hc hm hd hx hb,
    fun h hi hl hx => ⟨searchProfileRead_image h hi hl hx, fun hb => searchProfileWrite_writes h hi hl hx hb⟩⟩

end Sys2Proof.Machine
end

section
/-!
SUPPORT. Classifier SEARCH and MOVE (R139, R140).
-/
namespace Sys2Proof.Machine

/-! ### A moved entry -/

/-- The state with the entry at `src` of pipeline `p` moved to `dst`. -/
def State.clsMoved (s : State) (p src dst : Nat) : State :=
  ((((((s.setCls p dst (s.clsImage p src)).setClsOn p dst 0 (s.clsOn p src 0)).setClsOn p dst 1 (s.clsOn p src 1)).setClsOn p src 0 false).setClsOn
    p src 1 false).setCls p src 0)

/-- Nothing but classifier entries, their valid bits and their array words differs. -/
def ClsOnly (s t : State) : Prop := t = { s with fwd := { s.fwd with cls := t.fwd.cls, clsValid := t.fwd.clsValid, upset := t.fwd.upset } }

theorem ClsOnly.after {s t u : State} (h' : ClsOnly t u) (h : ClsOnly s t) : ClsOnly s u :=
  h'.trans (congrArg (fun x : State => { x with fwd := { x.fwd with cls := u.fwd.cls, clsValid := u.fwd.clsValid, upset := u.fwd.upset } }) h)

theorem ClsOnly.fwd {s t : State} (h : ClsOnly s t) : t.fwd = { s.fwd with cls := t.fwd.cls, clsValid := t.fwd.clsValid, upset := t.fwd.upset } :=
  congrArg State.fwd h

namespace State
variable (s : State) (p i b : Nat)

theorem setCls_only (v : BitVec 384) : ClsOnly s (s.setCls p i v) := rfl

theorem setClsOn_only (v : Bool) : ClsOnly s (s.setClsOn p i b v) := rfl

theorem setCls_cls (v : BitVec 384) : (s.setCls p i v).fwd.cls = s.fwd.cls.set 0 (clsKey p i) v := rfl

theorem setClsOn_cls (v : Bool) : (s.setClsOn p i b v).fwd.cls = s.fwd.cls := rfl

theorem setCls_clsValid (v : BitVec 384) : (s.setCls p i v).fwd.clsValid = s.fwd.clsValid := rfl

theorem setClsOn_clsValid (v : Bool) : (s.setClsOn p i b v).fwd.clsValid = s.fwd.clsValid.set false (clsBank p i b) v := rfl

end State

theorem State.clsMoved_only (s : State) (p src dst : Nat) : ClsOnly s (s.clsMoved p src dst) :=
  (setCls_only _ _ _ _).after ((setClsOn_only _ _ _ _ _).after ((setClsOn_only _ _ _ _ _).after ((setClsOn_only _ _ _ _ _).after
    ((setClsOn_only _ _ _ _ _).after (setCls_only _ _ _ _)))))

theorem State.clsMoved_cls (s : State) (p src dst : Nat) : (s.clsMoved p src dst).fwd.cls =
    (s.fwd.cls.set 0 (clsKey p dst) (s.clsImage p src)).set 0 (clsKey p src) 0 := by
  unfold clsMoved
  rw [setCls_cls, setClsOn_cls, setClsOn_cls, setClsOn_cls, setClsOn_cls, setCls_cls]

theorem State.clsMoved_valid (s : State) (p src dst : Nat) : (s.clsMoved p src dst).fwd.clsValid =
    ((((s.fwd.clsValid.set false (clsBank p dst 0) (s.clsOn p src 0)).set false (clsBank p dst 1) (s.clsOn p src 1)).set
      false (clsBank p src 0) false).set false (clsBank p src 1) false) := by
  unfold clsMoved
  rw [setCls_clsValid, setClsOn_clsValid, setClsOn_clsValid, setClsOn_clsValid, setClsOn_clsValid, setCls_clsValid]

section
variable (s : State) {p src dst : Nat}

/-- The moved image, at its new place. -/
theorem State.clsImage_clsMoved (h : src ≠ dst) : (s.clsMoved p src dst).clsImage p dst = s.clsImage p src := by
  have hk : clsKey p dst ≠ clsKey p src := by
    unfold clsKey
    omega
  unfold clsImage
  rw [clsMoved_cls, SMap.get_set_ne _ _ _ _ hk, SMap.get_set_same]
  rfl

theorem State.clsOn_clsMoved_dst (h : src ≠ dst) {b : Nat} (hb : b < 2) : (s.clsMoved p src dst).clsOn p dst b = s.clsOn p src b := by
  have hk (x : Nat) (hx : x < 2) : clsBank p dst b ≠ clsBank p src x := by
    unfold clsBank clsKey
    omega
  have h01 : clsBank p dst 0 ≠ clsBank p dst 1 := by
    unfold clsBank
    omega
  unfold clsOn
  rw [clsMoved_valid, SMap.get_set_ne _ _ _ _ (hk 1 (by decide)), SMap.get_set_ne _ _ _ _ (hk 0 (by decide))]
  have hb' : b = 0 ∨ b = 1 := by omega
  rcases hb' with rfl | rfl
  · rw [SMap.get_set_ne _ _ _ _ h01, SMap.get_set_same]
    rfl
  · rw [SMap.get_set_same]
    rfl

/-- The place it came from is free. -/
theorem State.clsFree_clsMoved (dst : Nat) : (s.clsMoved p src dst).clsFree p src = true := by
  have h01 : clsBank p src 0 ≠ clsBank p src 1 := by
    unfold clsBank
    omega
  have h0 : (s.clsMoved p src dst).clsOn p src 0 = false := by
    unfold clsOn
    rw [clsMoved_valid, SMap.get_set_ne _ _ _ _ h01, SMap.get_set_same]
  have h1 : (s.clsMoved p src dst).clsOn p src 1 = false := by
    unfold clsOn
    rw [clsMoved_valid, SMap.get_set_same]
  unfold clsFree
  rw [h0, h1]
  rfl

theorem State.clsValid_clsMoved {k : Nat} (h1 : k / 2 ≠ clsKey p src) (h2 : k / 2 ≠ clsKey p dst) :
    (s.clsMoved p src dst).fwd.clsValid.get false k = s.fwd.clsValid.get false k := by
  have hn {i b : Nat} (hb : b < 2) (hi : k / 2 ≠ clsKey p i) : k ≠ clsBank p i b := fun e => hi (e ▸ clsBank_div hb)
  rw [clsMoved_valid, SMap.get_set_ne _ _ _ _ (hn (by decide) h1), SMap.get_set_ne _ _ _ _ (hn (by decide) h1),
    SMap.get_set_ne _ _ _ _ (hn (by decide) h2), SMap.get_set_ne _ _ _ _ (hn (by decide) h2)]

end

section
variable {s : State} {c : Cmd} {p : Nat} (h : s.takesPart c 0xFF p)
include h

/-! ### SEARCH -/

section
variable (hi : c.indirect = true) (hl : c.len = 128) (hx : c.ix 8 1 < 64)
include hi hl hx

omit h in
theorem clsSearch_cmdAt {i : Io} (hio : PartIo s.io i) {b : Nat} (hb : b = if c.ix 9 1 % 2 = 1 then s.pendBank (pgCls p) else s.io.active (pgCls p)) :
    (s.cmdAt c i).clsSearch c p =
      match s.clsWinner p b (s.profile p (c.ix 8 1) b) (profKey (s.profile p (c.ix 8 1) b) (c.buffer 128)) with
      | some i' => (s.cmdAt c i, { result := some i' })
      | none => (s.cmdAt c i, { code := ccNotFound }) := by
  unfold State.clsSearch
  dsimp only
  rw [if_neg (by simp [hi, hl]), if_neg (by omega), State.pendBank_cmdAt hio c (plainHead_cls p), State.active_cmdAt hio c (plainHead_cls p), ← hb] <;> rfl

theorem clsSearch_winner {b n : Nat} (hb : b = if c.ix 9 1 % 2 = 1 then s.pendBank (pgCls p) else s.io.active (pgCls p))
    (hw : s.clsWinner p b (s.profile p (c.ix 8 1) b) (profKey (s.profile p (c.ix 8 1) b) (c.buffer 128)) = some n) :
    Completes (.clsSearch c) s (fun t => Answers c p { result := some n } s t ∧ OnlyStatus c s t) :=
  .reads (f := fun t p => t.clsSearch c p) rfl h (pipe_lt h) fun i hio => (clsSearch_cmdAt hi hl hx hio hb).trans (by rw [hw])

theorem clsSearch_notFound {b : Nat} (hb : b = if c.ix 9 1 % 2 = 1 then s.pendBank (pgCls p) else s.io.active (pgCls p))
    (hw : s.clsWinner p b (s.profile p (c.ix 8 1) b) (profKey (s.profile p (c.ix 8 1) b) (c.buffer 128)) = none) :
    Completes (.clsSearch c) s (fun t => Answers c p { code := ccNotFound } s t ∧ OnlyStatus c s t) :=
  .reads (f := fun t p => t.clsSearch c p) rfl h (pipe_lt h) fun i hio => (clsSearch_cmdAt hi hl hx hio hb).trans (by rw [hw])

end

/-! ### MOVE -/

section
variable (hx : c.idx < 16384) (hd : c.le 16 2 < 16384) (hb : s.shadowBusy (pgCls p) = false)
include hx hd

omit h in
theorem clsMove_of_free (t : State) (hf : t.clsFree p c.idx = true) : t.clsMove c p = (t, {}) := by
  unfold State.clsMove
  dsimp only
  rw [if_neg (by omega), hf]
  rfl

omit h in
theorem clsMove_of_taken (t : State) (hf : t.clsFree p c.idx = false) (ht : t.clsFree p (c.le 16 2) = false) :
    t.clsMove c p = (t, { code := ccBadIndex }) := by
  unfold State.clsMove
  dsimp only
  rw [if_neg (by omega), hf, ht]
  rfl

omit h in
theorem clsMove_of_between (t : State) (hf : t.clsFree p c.idx = false) (ht : t.clsFree p (c.le 16 2) = true) {n : Nat}
    (hn : t.clsBetween p c.idx (c.le 16 2) = some n) : t.clsMove c p = (t, { code := ccBadIndex, result := some n }) := by
  unfold State.clsMove
  dsimp only
  rw [if_neg (by omega), hf, ht, hn]
  rfl

omit h in
theorem clsMove_of_clear (t : State) (hf : t.clsFree p c.idx = false) (ht : t.clsFree p (c.le 16 2) = true)
    (hn : t.clsBetween p c.idx (c.le 16 2) = none) : t.clsMove c p = (t.clsMoved p c.idx (c.le 16 2), {}) := by
  unfold State.clsMove
  dsimp only
  rw [if_neg (by omega), hf, ht, hn]
  rfl

include h hb

omit hx hd in
theorem clsMove_reads {r : Res} (hf : ∀ i, (s.cmdAt c i).clsMove c p = (s.cmdAt c i, r)) :
    Completes (.clsMove c) s (fun t => Answers c p r s t ∧ OnlyStatus c s t) :=
  .partReads (f := fun t p => t.clsMove c p) (wait := fun s p => s.shadowBusy (pgCls p)) rfl h (pipe_lt h) hb fun i _ => hf i

theorem clsMove_moves (hf : s.clsFree p c.idx = false) (ht : s.clsFree p (c.le 16 2) = true)
    (hn : s.clsBetween p c.idx (c.le 16 2) = none) : Completes (.clsMove c) s (fun t =>
      Answers c p {} s t ∧ t.clsImage p (c.le 16 2) = s.clsImage p c.idx ∧ t.clsFree p c.idx = true ∧
      t.clsOn p (c.le 16 2) 0 = s.clsOn p c.idx 0 ∧ t.clsOn p (c.le 16 2) 1 = s.clsOn p c.idx 1 ∧
      (∀ k, k / 2 ≠ clsKey p c.idx → k / 2 ≠ clsKey p (c.le 16 2) → t.fwd.clsValid.get false k = s.fwd.clsValid.get false k) ∧
      t = { s.unhold c.queue.val with io := t.io, fwd := { s.fwd with cls := t.fwd.cls, clsValid := t.fwd.clsValid, upset := t.fwd.upset } }) := by
  have hne : c.idx ≠ c.le 16 2 := fun e => by
    rw [e, ht] at hf
    exact Bool.noConfusion hf
  refine .partFwds (f := fun t p => t.clsMove c p) (wait := fun s p => s.shadowBusy (pgCls p)) (a := (s.clsMoved p c.idx (c.le 16 2)).fwd) (r := {})
    rfl h (pipe_lt h) hb (fun i _ => clsMove_of_clear hx hd (s.cmdAt c i) hf ht hn) fun u ha hu hfr => ?_
  have h1 := s.clsImage_clsMoved (p := p) hne
  have h2 := s.clsFree_clsMoved (p := p) (src := c.idx) (c.le 16 2)
  have h3 := s.clsOn_clsMoved_dst (p := p) hne (b := 0) (by decide)
  have h4 := s.clsOn_clsMoved_dst (p := p) hne (b := 1) (by decide)
  have h5 := fun k h1 h2 => s.clsValid_clsMoved (p := p) (src := c.idx) (dst := c.le 16 2) (k := k) h1 h2
  have h6 := (s.clsMoved_only p c.idx (c.le 16 2)).fwd
  generalize s.clsMoved p c.idx (c.le 16 2) = m at hu hfr h1 h2 h3 h4 h5 h6
  unfold State.clsImage State.clsFree State.clsOn at *
  rw [← hu] at h1 h2 h3 h4 h5 h6 hfr
  exact ⟨ha, h1, h2, h3, h4, h5, hfr.trans (congrArg (fun F : Fwd => ({ s.unhold c.queue.val with io := u.io, fwd := F } : State)) h6)⟩

end

end

/-- Settles O37, each command through the winner or the place it finds. -/
theorem classifierSearchAndMove : Obligations.ClassifierSearchAndMove := by
  unfold Obligations.ClassifierSearchAndMove
  exact fun s c p h => ⟨
    fun hi hl hx => ⟨fun b i hb hw => clsSearch_winner h hi hl hx hb hw, fun b hb hw => clsSearch_notFound h hi hl hx hb hw⟩,
    fun hx hd hb => ⟨
      fun hf => clsMove_reads h hb fun i => clsMove_of_free hx hd (s.cmdAt c i) hf,
      fun hf ht => clsMove_reads h hb fun i => clsMove_of_taken hx hd (s.cmdAt c i) hf ht,
      fun i hf ht hn => clsMove_reads h hb fun j => clsMove_of_between hx hd (s.cmdAt c j) hf ht hn,
      fun hf ht hn => clsMove_moves h hx hd hb hf ht hn⟩⟩

end Sys2Proof.Machine
end

section
/-!
SUPPORT. Layer 2 and action table commands (R152, R198).
-/
namespace Sys2Proof.Machine

/-! ### A key returned in INDEX (R87, R152) -/

theorem Io.cmdData_index (s : Io) (c : Cmd) (entry : Nat) (r : Res) (h : r.index ≠ []) : .dma (entry + 8) r.index ∈ (s.cmdData c entry r).out := by
  rw [cmdData_eq]
  dsimp only
  rw [if_neg (c := r.index.isEmpty = true) (by simpa using h)]
  exact List.mem_cons_self

theorem State.cmdDone_index {s x : State} {c : Cmd} (hk : RingKept c s.io x.io) (p : Nat) (r : Res) (h : r.index ≠ []) :
    .dma (s.entryOf c + 8) r.index ∈ (x.upIo fun io => io.cmdDone c [(p, r)]).io.out := by
  have hd := (Io.outs_statusOut _ c (x.io.wcount.get 0 c.ring) (.dma (x.io.ringBase c.ring + 64 * (x.io.wcount.get 0 c.ring % x.io.ringSize c.ring) + 48)
    (statusBytes c ((x.io.cmdData c (x.io.ringBase c.ring + 64 * (x.io.wcount.get 0 c.ring % x.io.ringSize c.ring)) r).phase
      c.ring (x.io.wcount.get 0 c.ring)) [(p, r)]))).1.keep (x.io.cmdData_index c (x.io.ringBase c.ring + 64 * (x.io.wcount.get 0 c.ring % x.io.ringSize c.ring)) r h)
  have he : (x.upIo fun io => io.cmdDone c [(p, r)]).io = x.io.cmdDone c [(p, r)] := rfl
  rw [he, Io.cmdDone_eq]
  rw [hk.count, hk.size, hk.base] at hd
  rw [hk.count, hk.size, hk.base]
  exact hd

/-! ### Layer 2 entries -/

theorem mem_l2List {s : State} {p i : Nat} {e : BitVec 80} (h : (i, e) ∈ s.l2List p) : i < 65536 := by
  unfold State.l2List at h
  obtain ⟨x, _, hx⟩ := List.mem_filterMap.1 h
  split at hx
  · have := Option.some.inj hx
    have h1 : x.1 % 65536 = i := congrArg Prod.fst this
    omega
  · cases hx

/-- Entry `i` of pipeline `p` holds `e`, and nothing but it and its array word differs. -/
structure L2Set (c : Cmd) (s : State) (p i : Nat) (e : BitVec 80) (t : State) : Prop where
  entry : ∀ k, t.fwd.l2.get 0 k = if k = 65536 * p + i then e else s.fwd.l2.get 0 k
  frame : t = { s.unhold c.queue.val with io := t.io, fwd := { s.fwd with l2 := t.fwd.l2, upset := t.fwd.upset } }

theorem setL2_cmdAt (s : State) (c : Cmd) (i : Io) (p k : Nat) (e : BitVec 80) :
    (s.cmdAt c i).setL2 p k e = { s.cmdAt c i with fwd := (s.setL2 p k e).fwd } := rfl

theorem setL2_l2 (s : State) (p k : Nat) (e : BitVec 80) : (s.setL2 p k e).fwd.l2 = s.fwd.l2.set 0 (65536 * p + k) e := rfl

theorem setL2_fwd (s : State) (p k : Nat) (e : BitVec 80) :
    (s.setL2 p k e).fwd = { s.fwd with l2 := (s.setL2 p k e).fwd.l2, upset := (s.setL2 p k e).fwd.upset } := rfl

theorem l2Set_of {c : Cmd} {s u : State} {p k : Nat} {e : BitVec 80} (hu : u.fwd = (s.setL2 p k e).fwd)
    (hf : u = { s.unhold c.queue.val with io := u.io, fwd := (s.setL2 p k e).fwd }) : L2Set c s p k e u := by
  refine ⟨fun j => ?_, ?_⟩
  · rw [hu, setL2_l2]
    exact SMap.get_setIf _ _ _ _ _
  · rw [hu]
    exact hf.trans (congrArg (fun F : Fwd => ({ s.unhold c.queue.val with io := u.io, fwd := F } : State)) (setL2_fwd s p k e))

namespace State
variable {s : State} {c : Cmd} {p m f : Nat} (hk : l2CmdKey c = (m, f))
include hk

section
variable {i : Nat} {e : BitVec 80} (hf : s.l2Find p m f = some (i, e))
include hf

theorem l2Read_of_some : s.l2Read c p = (s, { data := l2Data (s.l2At p i), result := some i }) := by
  unfold l2Read
  rw [hk]
  dsimp only
  rw [hf]

theorem l2Delete_of_some : s.l2Delete c p = (s.setL2 p i 0, {}) := by
  unfold l2Delete
  rw [hk]
  dsimp only
  rw [hf]

theorem l2Write_of_some : s.l2Write c p =
    (s.setL2 p i (l2Make m f (c.le 16 1) ((c.le 17 1).testBit 0) false false 0 0), { result := some i }) := by
  unfold l2Write
  rw [hk]
  dsimp only
  rw [hf]

end

section
variable (hf : s.l2Find p m f = none)
include hf

theorem l2Read_of_none : s.l2Read c p = (s, { code := ccNotFound }) := by
  unfold l2Read
  rw [hk]
  dsimp only
  rw [hf]

theorem l2Delete_of_none : s.l2Delete c p = (s, {}) := by
  unfold l2Delete
  rw [hk]
  dsimp only
  rw [hf]

theorem l2Write_of_free {i : Nat} (hi : s.l2Free p = some i) : s.l2Write c p =
    (s.setL2 p i (l2Make m f (c.le 16 1) ((c.le 17 1).testBit 0) false false 0 0), { result := some i }) := by
  unfold l2Write
  rw [hk]
  dsimp only
  rw [hf]
  dsimp only
  rw [hi]

theorem l2Write_of_full (hi : s.l2Free p = none) : s.l2Write c p = (s, { code := ccFull }) := by
  unfold l2Write
  rw [hk]
  dsimp only
  rw [hf]
  dsimp only
  rw [hi]

end

end State

/-! FLUSH (R152). -/

/-- The entries that a flush removes. -/
def l2Flushed (s : State) (c : Cmd) (p : Nat) : List (Nat × BitVec 80) :=
  (s.l2List p).filter fun e =>
    (c.le 16 1 == 0xFF || l2Port e.2 == c.le 16 1) && (c.le 18 2 == 0xFFFF || l2Fid e.2 == c.le 18 2) && ((c.le 17 1).testBit 0 || !(l2Static e.2))

/-- The tables with each entry of `l` removed. -/
def l2Removed (p : Nat) (l : List (Nat × BitVec 80)) (F : Fwd) : Fwd :=
  l.foldl (fun F e => { F with l2 := F.l2.set 0 (65536 * p + e.1) 0, upset := F.upset.set 0 (upsetKey .l2 p e.1) 0 }) F

theorem foldl_setL2 (p : Nat) (l : List (Nat × BitVec 80)) (s : State) :
    l.foldl (fun s e => s.setL2 p e.1 0) s = { s with fwd := l2Removed p l s.fwd } := by
  unfold l2Removed
  induction l generalizing s with
  | nil => rfl
  | cons e l ih => exact ih _

theorem l2Removed_only (p : Nat) (l : List (Nat × BitVec 80)) (F : Fwd) :
    l2Removed p l F = { F with l2 := (l2Removed p l F).l2, upset := (l2Removed p l F).upset } := by
  unfold l2Removed
  induction l generalizing F with
  | nil => rfl
  | cons e l ih => exact ih _

theorem get_l2Removed (p : Nat) (l : List (Nat × BitVec 80)) (F : Fwd) (k : Nat) :
    (l2Removed p l F).l2.get 0 k = if ∃ e ∈ l, k = 65536 * p + e.1 then 0 else F.l2.get 0 k := by
  unfold l2Removed
  induction l generalizing F with
  | nil => simp
  | cons e l ih =>
    rw [List.foldl_cons, ih, SMap.get_setIf]
    simp only [List.exists_mem_cons_iff]
    by_cases hk : k = 65536 * p + e.1
    · simp only [hk, true_or, if_true, ite_self]
    · simp only [hk, false_or, if_false]

theorem l2Flush_cmdAt (s : State) (c : Cmd) (p : Nat) (i : Io) : (s.cmdAt c i).l2Flush c p =
    ({ s.cmdAt c i with fwd := l2Removed p (l2Flushed s c p) s.fwd }, { result := some (l2Flushed s c p).length }) := by
  have he : (s.cmdAt c i).l2Flush c p =
      ((l2Flushed s c p).foldl (fun s e => s.setL2 p e.1 0) (s.cmdAt c i), { result := some (l2Flushed s c p).length }) := rfl
  rw [he, foldl_setL2]
  rfl

/-- What READ_AT returns of a valid entry. -/
def l2AtRes (s : State) (c : Cmd) (p : Nat) : Res where
  data := l2Data (s.l2At p (c.ix 8 2))
  index := bytesBE 6 (l2Mac (s.l2At p (c.ix 8 2))) ++ bytesLE 2 (l2Fid (s.l2At p (c.ix 8 2)))
  result := some (c.ix 8 2)

section
variable {s : State} {c : Cmd} {p : Nat} (h : s.takesPart c 0xFF p)
include h

theorem l2Flush_removes : Completes (.l2Flush c) s (fun t =>
    (∀ i e, (i, e) ∈ s.l2List p → (c.le 16 1 = 0xFF ∨ l2Port e = c.le 16 1) → (c.le 18 2 = 0xFFFF ∨ l2Fid e = c.le 18 2) →
      ((c.le 17 1).testBit 0 = true ∨ l2Static e = false) → t.l2At p i = 0) ∧
    (∀ q i, i < 65536 → q ≠ p → t.l2At q i = s.l2At q i) ∧
    t = { s.unhold c.queue.val with io := t.io, fwd := { s.fwd with l2 := t.fwd.l2, upset := t.fwd.upset } }) := by
  refine .fwds (f := fun t p => t.l2Flush c p) (a := l2Removed p (l2Flushed s c p) s.fwd) (r := { result := some (l2Flushed s c p).length }) rfl h (pipe_lt h)
    (fun i _ => l2Flush_cmdAt s c p i) fun u _ hu hf => ?_
  have hg := get_l2Removed p (l2Flushed s c p) s.fwd
  have ho := l2Removed_only p (l2Flushed s c p) s.fwd
  generalize l2Removed p (l2Flushed s c p) s.fwd = F at hu hf hg ho
  subst hu
  refine ⟨fun i e he h1 h2 h3 => ?_, fun q i hi hq => ?_,
    hf.trans (congrArg (fun F : Fwd => ({ s.unhold c.queue.val with io := u.io, fwd := F } : State)) ho)⟩
  · refine (hg _).trans (if_pos ⟨(i, e), List.mem_filter.2 ⟨he, ?_⟩, rfl⟩)
    simp only [Bool.and_eq_true, Bool.or_eq_true, beq_iff_eq, Bool.not_eq_true']
    exact ⟨⟨h1, h2⟩, h3⟩
  · refine (hg _).trans (if_neg ?_)
    rintro ⟨e, he, hk⟩
    have := mem_l2List (List.mem_filter.1 he).1
    omega

/-! READ_AT returns the key in INDEX. -/

theorem l2ReadAt_valid (hv : l2Valid (s.l2At p (c.ix 8 2)) = true) : Completes (.l2ReadAt c) s (fun t =>
    StatusIs c [(p, { result := some (c.ix 8 2) })] s t ∧
    .dma (s.entryOf c + 8) (bytesBE 6 (l2Mac (s.l2At p (c.ix 8 2))) ++ bytesLE 2 (l2Fid (s.l2At p (c.ix 8 2)))) ∈ t.io.out ∧
    OnlyStatus c s t) := by
  obtain ⟨i, hi, he⟩ := State.runCmd_part h (pipe_lt h) (one := true) (wait := fun _ => false) (f := fun t p => t.l2ReadAt c p) rfl
  have hr : (s.cmdAt c i).l2ReadAt c p = (s.cmdAt c i, l2AtRes s c p) := if_pos hv
  rw [hr] at he
  have hk := hi.ring c
  exact .live_eq (f := fun s => s.runCmd c 0xFF true some (fun _ => false) fun t p => t.l2ReadAt c p) rfl h.on he rfl
    ⟨State.cmdDone_statusIs (x := s.cmdAt c i) hk [(p, l2AtRes s c p)], State.cmdDone_index (x := s.cmdAt c i) hk p (l2AtRes s c p) (by simp [l2AtRes, bytesBE, bytesLE]), rfl⟩

theorem l2ReadAt_invalid (hv : l2Valid (s.l2At p (c.ix 8 2)) = false) : Completes (.l2ReadAt c) s (fun t =>
    Answers c p { code := ccNotFound } s t ∧ OnlyStatus c s t) :=
  .reads (f := fun t p => t.l2ReadAt c p) rfl h (pipe_lt h) fun i _ => by
    unfold State.l2ReadAt
    dsimp only
    rw [show (s.cmdAt c i).l2At p (c.ix 8 2) = s.l2At p (c.ix 8 2) from rfl, hv]
    rfl

/-! The commands of a key. -/

section
variable {i : Nat} {e : BitVec 80} (hf : s.l2Find p (l2CmdKey c).1 (l2CmdKey c).2 = some (i, e))
include hf

theorem l2Read_finds : Completes (.l2Read c) s (fun t => Answers c p { data := l2Data (s.l2At p i), result := some i } s t ∧ OnlyStatus c s t) :=
  .reads (f := fun t p => t.l2Read c p) rfl h (pipe_lt h) fun j _ => State.l2Read_of_some (s := s.cmdAt c j) rfl hf

theorem l2Delete_removes : Completes (.l2Delete c) s (fun t => Answers c p {} s t ∧ L2Set c s p i 0 t) :=
  .fwds (f := fun t p => t.l2Delete c p) (a := (s.setL2 p i 0).fwd) rfl h (pipe_lt h)
    (fun j _ => (State.l2Delete_of_some (s := s.cmdAt c j) rfl hf).trans (by rw [setL2_cmdAt])) fun _ ha hu hfr => ⟨ha, l2Set_of hu hfr⟩

end

section
variable (hf : s.l2Find p (l2CmdKey c).1 (l2CmdKey c).2 = none)
include hf

theorem l2Read_notFound : Completes (.l2Read c) s (fun t => Answers c p { code := ccNotFound } s t ∧ OnlyStatus c s t) :=
  .reads (f := fun t p => t.l2Read c p) rfl h (pipe_lt h) fun j _ => State.l2Read_of_none (s := s.cmdAt c j) rfl hf

theorem l2Delete_absent : Completes (.l2Delete c) s (fun t => Answers c p {} s t ∧ OnlyStatus c s t) :=
  .reads (f := fun t p => t.l2Delete c p) rfl h (pipe_lt h) fun j _ => State.l2Delete_of_none (s := s.cmdAt c j) rfl hf

theorem l2Write_full (hi : s.l2Free p = none) : Completes (.l2Write c) s (fun t => Answers c p { code := ccFull } s t ∧ OnlyStatus c s t) :=
  .reads (f := fun t p => t.l2Write c p) rfl h (pipe_lt h) fun j _ => State.l2Write_of_full (s := s.cmdAt c j) rfl hf hi

end

theorem l2Write_enters {i : Nat} (hf : (∃ e, s.l2Find p (l2CmdKey c).1 (l2CmdKey c).2 = some (i, e)) ∨
    (s.l2Find p (l2CmdKey c).1 (l2CmdKey c).2 = none ∧ s.l2Free p = some i)) : Completes (.l2Write c) s (fun t =>
      Answers c p { result := some i } s t ∧
      L2Set c s p i (l2Make (l2CmdKey c).1 (l2CmdKey c).2 (c.le 16 1) ((c.le 17 1).testBit 0) false false 0 0) t) := by
  refine .fwds (f := fun t p => t.l2Write c p)
    (a := (s.setL2 p i (l2Make (l2CmdKey c).1 (l2CmdKey c).2 (c.le 16 1) ((c.le 17 1).testBit 0) false false 0 0)).fwd) rfl h (pipe_lt h)
    (fun j _ => ?_) fun _ ha hu hfr => ⟨ha, l2Set_of hu hfr⟩
  rcases hf with ⟨e, hf⟩ | ⟨hf, hi⟩
  · exact (State.l2Write_of_some (s := s.cmdAt c j) rfl hf).trans (Prod.ext (setL2_cmdAt ..) rfl)
  · exact (State.l2Write_of_free (s := s.cmdAt c j) rfl hf hi).trans (Prod.ext (setL2_cmdAt ..) rfl)

end

/-! ### Action profiles and templates (R198) -/

/-- The tables with the valid bit of profile `i` of pipeline `p` set to `v` in each bank of `l`. -/
def profOnSet (p i : Nat) (v : Bool) (l : List Nat) (F : Fwd) : Fwd :=
  l.foldl (fun F b => { F with actValid := F.actValid.set false (2 * actKey p i + b) v }) F

theorem foldl_setProfOn (p i : Nat) (v : Bool) (l : List Nat) (s : State) :
    l.foldl (fun s b => s.setProfOn p i b v) s = { s with fwd := profOnSet p i v l s.fwd } := by
  unfold profOnSet
  induction l generalizing s with
  | nil => rfl
  | cons b l ih => exact ih _

theorem profOnSet_only (p i : Nat) (v : Bool) (l : List Nat) (F : Fwd) :
    profOnSet p i v l F = { F with actValid := (profOnSet p i v l F).actValid } := by
  unfold profOnSet
  induction l generalizing F with
  | nil => rfl
  | cons b l ih => exact ih _

theorem act_profOnSet (p i : Nat) (v : Bool) (l : List Nat) (F : Fwd) : (profOnSet p i v l F).act = F.act := by
  rw [profOnSet_only]

theorem actValid_profOnSet (p i : Nat) (v : Bool) (l : List Nat) (F : Fwd) (k : Nat) :
    (profOnSet p i v l F).actValid.get false k = if ∃ b ∈ l, k = 2 * actKey p i + b then v else F.actValid.get false k := by
  unfold profOnSet
  induction l generalizing F with
  | nil => simp
  | cons b l ih =>
    rw [List.foldl_cons, ih, SMap.get_setIf]
    simp only [List.exists_mem_cons_iff]
    by_cases hk : k = 2 * actKey p i + b
    · simp only [hk, true_or, if_true, ite_self]
    · simp only [hk, false_or, if_false]

theorem State.profSetValid_eq (s : State) (p i : Nat) (v : Bool) :
    s.profSetValid p i v = { s with fwd := profOnSet p i v (s.writeBanks (pgAct p)) s.fwd } := foldl_setProfOn _ _ _ _ _

/-- A profile stored while a part runs, with its valid bits. -/
theorem profStored_cmdAt (s : State) (c : Cmd) (i : Io) (p k : Nat) (v : Prof) (b : Bool) (l : List Nat) :
    ({ (s.cmdAt c i).setProf p k v with fwd := profOnSet p k b l ((s.cmdAt c i).setProf p k v).fwd } : State) =
      { s.cmdAt c i with fwd := profOnSet p k b l (s.setProf p k v).fwd } := rfl

section
variable {s : State} {c : Cmd} {p : Nat}

theorem actRead_both {t : State} (hx : c.idx < 4096) (h0 : t.profOn p c.idx 0 = true) (h1 : t.profOn p c.idx 1 = true) :
    t.actRead c p = (t, { data := bytesLE 16 (t.prof p c.idx).toNat ++ [5] }) := by
  have h (b : Nat) (hb : b < 2) : t.profOn p c.idx b = true := by
    have hb' : b = 0 ∨ b = 1 := by omega
    rcases hb' with rfl | rfl
    · exact h0
    · exact h1
  unfold State.actRead
  dsimp only
  rw [if_pos hx, h _ (t.pendBank_lt _), h _ (t.io.active_lt _)]
  rfl

theorem profSetValid_stored {i : Io} (hio : PartIo s.io i) (v : Prof) (b : Bool) :
    ((s.cmdAt c i).setProf p c.idx v).profSetValid p c.idx b =
      { s.cmdAt c i with fwd := profOnSet p c.idx b (s.writeBanks (pgAct p)) (s.setProf p c.idx v).fwd } := by
  have hw : ((s.cmdAt c i).setProf p c.idx v).writeBanks (pgAct p) = s.writeBanks (pgAct p) :=
    State.writeBanks_cmdAt hio c (plainHead_act p)
  rw [State.profSetValid_eq, hw, profStored_cmdAt]

/-- A profile that is not refused, and not in force, is stored. -/
theorem profStore_of_free {t : State} (hr : profRefused (BitVec.ofNat 128 (c.le 16 16)) = false)
    (hk : prKind (BitVec.ofNat 128 (c.le 16 16)) = 3 → t.feature 3 = true)
    (ho : t.feature 1 = false ∨ t.profOn p c.idx (t.io.active (pgAct p)) = false) : t.profStore c p c.idx =
      ((t.setProf p c.idx (BitVec.ofNat 128 (c.le 16 16))).profSetValid p c.idx ((c.le 32 1).testBit 0), {}) := by
  have hk' : ¬ (prKind (BitVec.ofNat 128 (c.le 16 16)) = 3 ∧ (!t.feature 3) = true) := fun ⟨h1, h2⟩ => by
    rw [hk h1] at h2
    exact Bool.noConfusion h2
  have hn : ¬ (t.feature 1 = true ∧ t.profOn p c.idx (t.io.active (pgAct p)) = true) := fun ⟨h1, h2⟩ => by
    rcases ho with ho | ho
    · exact Bool.noConfusion (ho.symm.trans h1)
    · exact Bool.noConfusion (ho.symm.trans h2)
  unfold State.profStore
  dsimp only
  rw [hr, if_neg Bool.false_ne_true, if_neg hk', if_neg hn]

section
variable (h : s.takesPart c 0xFF p) (hx : c.idx < 4096)
include h hx

theorem actionProfileRead_both (h0 : s.profOn p c.idx 0 = true) (h1 : s.profOn p c.idx 1 = true) : Completes (.actionProfileRead c) s (fun t =>
    Answers c p { data := bytesLE 16 (s.prof p c.idx).toNat ++ [5] } s t ∧ OnlyStatus c s t) :=
  .reads (f := fun t p => t.actRead c p) rfl h (pipe_lt h) fun i _ => actRead_both (t := s.cmdAt c i) hx h0 h1

theorem actionProfileWrite_stores (hb : s.shadowBusy (pgAct p) = false) (hr : profRefused (BitVec.ofNat 128 (c.le 16 16)) = false)
    (hk : prKind (BitVec.ofNat 128 (c.le 16 16)) = 3 → s.feature 3 = true)
    (ho : s.feature 1 = false ∨ s.profOn p c.idx (s.io.active (pgAct p)) = false) : Completes (.actionProfileWrite c) s (fun t =>
      Answers c p {} s t ∧ t.prof p c.idx = BitVec.ofNat 128 (c.le 16 16) ∧
      (∀ b ∈ s.writeBanks (pgAct p), t.profOn p c.idx b = (c.le 32 1).testBit 0) ∧
      (∀ k, k ≠ actKey p c.idx → t.fwd.act.get 0 k = s.fwd.act.get 0 k) ∧
      t = { s.unhold c.queue.val with io := t.io, fwd := { s.fwd with act := t.fwd.act, actValid := t.fwd.actValid } }) := by
  have hf (i : Io) (hio : PartIo s.io i) : (s.cmdAt c i).actWrite c p = ({ s.cmdAt c i with
      fwd := profOnSet p c.idx ((c.le 32 1).testBit 0) (s.writeBanks (pgAct p)) (s.setProf p c.idx (BitVec.ofNat 128 (c.le 16 16))).fwd }, {}) := by
    refine (if_pos hx).trans ((profStore_of_free hr ?_ ?_).trans (Prod.ext (profSetValid_stored hio _ _) rfl))
    · rw [State.feature_cmdAt hio c (by decide)]
      exact hk
    · rw [State.feature_cmdAt hio c (by decide), State.active_cmdAt hio c (plainHead_act p)]
      exact ho
  refine .partFwds (f := fun t p => t.actWrite c p) (wait := fun s p => s.shadowBusy (pgAct p)) (r := {}) rfl h (pipe_lt h) hb hf fun u ha hu hfr => ?_
  generalize BitVec.ofNat 128 (c.le 16 16) = v at hu hfr ⊢
  generalize (c.le 32 1).testBit 0 = b at hu hfr ⊢
  have hc := act_profOnSet p c.idx b (s.writeBanks (pgAct p)) (s.setProf p c.idx v).fwd
  have hv := actValid_profOnSet p c.idx b (s.writeBanks (pgAct p)) (s.setProf p c.idx v).fwd
  have ho := profOnSet_only p c.idx b (s.writeBanks (pgAct p)) (s.setProf p c.idx v).fwd
  have hs : (s.setProf p c.idx v).fwd.act = s.fwd.act.set 0 (actKey p c.idx) v := rfl
  rw [hs] at hc
  generalize profOnSet p c.idx b (s.writeBanks (pgAct p)) (s.setProf p c.idx v).fwd = F at hu hfr hc hv ho
  subst hu
  unfold State.prof
  rw [hc]
  refine ⟨ha, SMap.get_set_same _ _ _ _, fun n hn => (hv _).trans (if_pos ⟨n, hn, rfl⟩), fun k hk => SMap.get_set_ne _ _ _ _ hk, ?_⟩
  refine hfr.trans (congrArg (fun F : Fwd => ({ s.unhold c.queue.val with io := u.io, fwd := F } : State)) ?_)
  exact ho.trans (congrArg (fun a => ({ s.fwd with act := a, actValid := u.fwd.actValid } : Fwd)) hs)

theorem actionProfileDelete_clears (hb : s.shadowBusy (pgAct p) = false) : Completes (.actionProfileDelete c) s (fun t =>
    Answers c p {} s t ∧ (∀ b ∈ s.writeBanks (pgAct p), t.profOn p c.idx b = false) ∧
    (∀ k, k / 2 ≠ actKey p c.idx → t.fwd.actValid.get false k = s.fwd.actValid.get false k) ∧
    t = { s.unhold c.queue.val with io := t.io, fwd := { s.fwd with actValid := t.fwd.actValid } }) := by
  have hf (i : Io) (hio : PartIo s.io i) : (s.cmdAt c i).actDelete c p =
      ({ s.cmdAt c i with fwd := profOnSet p c.idx false (s.writeBanks (pgAct p)) s.fwd }, {}) := by
    refine (if_neg (by omega)).trans (Prod.ext ((State.profSetValid_eq _ _ _ _).trans ?_) rfl)
    rw [State.writeBanks_cmdAt hio c (plainHead_act p)]
    rfl
  refine .partFwds (f := fun t p => t.actDelete c p) (wait := fun s p => s.shadowBusy (pgAct p)) (r := {}) rfl h (pipe_lt h) hb hf fun u ha hu hfr => ?_
  have hv := actValid_profOnSet p c.idx false (s.writeBanks (pgAct p)) s.fwd
  have ho := profOnSet_only p c.idx false (s.writeBanks (pgAct p)) s.fwd
  generalize profOnSet p c.idx false (s.writeBanks (pgAct p)) s.fwd = F at hu hfr hv ho
  subst hu
  refine ⟨ha, fun b hb => (hv _).trans (if_pos ⟨b, hb, rfl⟩), fun k hk => (hv k).trans (if_neg ?_),
    hfr.trans (congrArg (fun F : Fwd => ({ s.unhold c.queue.val with io := u.io, fwd := F } : State)) ho)⟩
  rintro ⟨b, hb, rfl⟩
  have := State.writeBanks_lt hb
  omega

end

/-! A template that is well formed and that no profile in force names is stored. -/

/-- The state that a stored template leaves. -/
def State.tmplStored (t : State) (p n : Nat) (v : BitVec 1024) : State :=
  { t with fwd := { t.fwd with tmpl := t.fwd.tmpl.set 0 (64 * p + n) v }
           act := { t.act with gone := t.act.gone.set false (tmplKey p n) false } }

theorem tmplWrite_stores {t : State} {n : Nat} (hi : c.indirect = true) (hl : c.len = 128) (ht : beAt (c.buffer 128) 1 1 ∈ [1, 2, 3, 6])
    (h1 : 14 ≤ beAt (c.buffer 128) 0 1) (h2 : beAt (c.buffer 128) 0 1 ≤ 120) (hu : t.tmplUser p n = none) : t.tmplWrite c p n = (t.tmplStored p n (lineOfBytes 1024 (c.buffer 128)), {}) := by
  simp only [List.mem_cons, List.not_mem_nil, or_false] at ht
  unfold State.tmplWrite
  generalize c.buffer 128 = d at ht h1 h2 ⊢
  dsimp only
  have h5 : beAt d 1 1 ≠ 5 := by omega
  have hle : (decide (14 ≤ beAt d 0 1) && decide (beAt d 0 1 ≤ 120)) = true := by simp [h1, h2]
  have h0 : ¬ (beAt d 1 1 = 0 ∨ 6 < beAt d 1 1 ∨ (!true) = true) := by
    rintro (h | h | h)
    · omega
    · omega
    · exact Bool.noConfusion h
  rw [if_neg (by simp [hi, hl]), if_neg h5, hle, if_neg h0, if_neg (by omega), hu]
  rfl

theorem templateWrite_stores (h : s.takesPart c 0xFF p) {n : Nat} (hx : c.idx = 0x10000 + n) (hn : n < 64) (hi : c.indirect = true) (hl : c.len = 128)
    (ht : beAt (c.buffer 128) 1 1 ∈ [1, 2, 3, 6]) (h1 : 14 ≤ beAt (c.buffer 128) 0 1) (h2 : beAt (c.buffer 128) 0 1 ≤ 120)
    (hu : s.tmplUser p n = none) : Completes (.templateWrite c) s (fun t =>
      Answers c p {} s t ∧
      (∀ k, t.fwd.tmpl.get 0 k = if k = 64 * p + n then lineOfBytes 1024 (c.buffer 128) else s.fwd.tmpl.get 0 k) ∧
      t = { s.unhold c.queue.val with
        io := t.io, fwd := { s.fwd with tmpl := t.fwd.tmpl }, act := { s.act with gone := t.act.gone } }) := by
  have hx' : c.idx - 0x10000 = n := by omega
  refine .part (f := fun t p => t.actWrite c p) (wait := fun _ _ => false) rfl h (pipe_lt h) rfl fun i hio => 
    ⟨(s.cmdAt c i).tmplStored p n (lineOfBytes 1024 (c.buffer 128)), {}, ?_, hio.ring c, rfl, ?_⟩
  · refine ((if_neg (by omega)).trans (if_neg (by omega))).trans ?_
    rw [hx']
    exact tmplWrite_stores (t := s.cmdAt c i) hi hl ht h1 h2 hu
  · intro u ha he
    have hfr := he.frame
    generalize lineOfBytes 1024 (c.buffer 128) = v at hfr ⊢
    have hf : u.fwd.tmpl = s.fwd.tmpl.set 0 (64 * p + n) v := congrArg (fun x : State => x.fwd.tmpl) hfr
    have hg : u.act.gone = s.act.gone.set false (tmplKey p n) false := congrArg (fun x : State => x.act.gone) hfr
    refine ⟨ha, fun k => ?_, ?_⟩
    · rw [hf]
      exact SMap.get_setIf _ _ _ _ _
    · rw [hf, hg]
      exact hfr

end

/-- Settles O38, each command through the entry, profile or template it names. -/
theorem actionAndLayer2Access : Obligations.ActionAndLayer2Access := by
  unfold Obligations.ActionAndLayer2Access
  refine fun s c p h => ⟨fun i e hf => ⟨l2Read_finds h hf, ?_⟩, fun hf => ⟨l2Read_notFound h hf, l2Delete_absent h hf, l2Write_full h hf⟩,
    fun i hf => ?_, l2Flush_removes h, l2ReadAt_valid h, l2ReadAt_invalid h, actionProfileRead_both h,
    actionProfileWrite_stores h, actionProfileDelete_clears h,
    fun n hx hn hi hl ht h1 h2 hu => templateWrite_stores h hx hn hi hl ht h1 h2 hu⟩
  · obtain ⟨t, he, ha, hl⟩ := l2Delete_removes h hf
    exact ⟨t, he, ha, hl.entry, hl.frame⟩
  · obtain ⟨t, he, ha, hl⟩ := l2Write_enters h hf
    exact ⟨t, he, ha, hl.entry, hl.frame⟩

end Sys2Proof.Machine
end

section
/-!
SUPPORT. What the memory controllers and the flow unit leave when they read, write, lose and degrade lines: no word below their pages but
those of reports, and no ring's index but ring 38's.
-/
namespace Sys2Proof.Machine

/-- The words that memory operations may write: those of the controllers and above, and those of reports (R478). -/
def memWord (a : Nat) : Prop := 0x400000 ≤ a ∨ inPages reportPages a

/-- A page of the memory controllers, or above them. -/
structure MemPage (b : Nat) : Prop where
  le : 0x400000 ≤ b

theorem MemPage.fmc (st i : Nat) : MemPage (pgFmc st i) := ⟨Nat.le_add_right _ _⟩
theorem MemPage.pmcL (p : Nat) : MemPage (pgPmcL p) := ⟨by
  have e : pgPmcL p = 0x1000000 + p * 0x100000 + 0x80000 := rfl
  omega⟩
theorem MemPage.flw (p : Nat) : MemPage (pgFlw p) := ⟨by
  have e : pgFlw p = 0x1000000 + p * 0x100000 + 0x40000 := rfl
  omega⟩

theorem MemPage.word {b : Nat} (h : MemPage b) (n : Nat) : memWord (b + n) := .inl (Nat.le_trans h.le (Nat.le_add_right b n))

/-! ### The PCI Express state under counters, rings and reports -/

namespace Io
variable (s : Io)

theorem link_within {F : List Part} {s t : Io} (h : s.Within F t) (hF : Part.pcie ∉ F) : Agree link s t :=
  ⟨congrArg (fun p : Pcie => { p with pend := 0 }) (h.same .pcie hF)⟩

theorem link_wrapped (a : Nat) : Agree link s (s.wrapped a) := by
  have h : Agree link s (({ s with sticky := s.sticky.set false a true } : Io).bump pgPmc PMC_OVF_CNT.COUNT) := .after (link_put _ _ _ _ _) ⟨rfl⟩
  unfold wrapped
  exact .cond h (.after (link_raise _ _ _) (.after (link_within (within_wr ..) (by decide)) h))

theorem link_ctr (b : Nat) (f : Fld) (n i : Nat) : Agree link s (s.ctr b f n i) := by
  have h (a v : Nat) : Agree link s (s.wr64 a v) := link_within (within_wr64 ..) (by decide)
  unfold ctr ctrAt
  exact .cond (h _ _) (.after (link_wrapped _ _) (h _ _))

theorem link_complete (n : Nat) (irq : Bool) : Agree link s (s.complete n irq) := by
  have h (x : Io) (m : SMap Nat) : Agree link x { x with modCnt := m } := ⟨rfl⟩
  have hf (x : Io) (n k : Nat) : Agree link x (x.ringFlag n k) := link_raise _ _ _
  unfold complete
  exact .cond (.after (hf _ _ _) (h _ _)) (.cond (.refl s) (.cond (.after (hf _ _ _) (h _ _)) (h _ _)))

theorem link_ringWrite (n : Nat) (es : List Line) : Agree link s (s.ringWrite n es) := by
  unfold ringWrite
  extract_lets k c x y z
  have hw : s.Within [.out] x := .each (fun _ _ => within_emit ..) (.refl _)
  have hy : Agree link x y := ⟨rfl⟩
  exact .after (link_complete _ _ _) (.after (link_put _ _ _ _ _) (.after hy (link_within hw (by decide))))

theorem link_ringPut (n : Nat) (es : List Line) : Agree link s (s.ringPut n es) :=
  .cond (s.link_ringWrite n es) (.after (link_put _ _ _ _ _) (link_raise _ _ _))

theorem link_report (sev code base loc detail : Nat) : Agree link s (s.report sev code base loc detail) := by
  have hr (x : Io) (y : Ras) : Agree link x { x with ras := y } := ⟨rfl⟩
  have hs : Agree link s (s.nextSeq.countSeverity sev) := by
    have h0 : Agree link s s.nextSeq := ⟨rfl⟩
    unfold countSeverity
    split
    · exact .after (link_ctr ..) h0
    · exact .after (link_raise ..) (.after (link_ctr ..) h0)
    · exact .after (link_raise ..) (.after (link_ctr ..) h0)
    · exact h0
  unfold report
  split
  · exact .refl s
  · extract_lets key r x
    have hx : Agree link s x := hs
    clear_value x
    split
    · unfold reportCorrected
      exact .cond (.after (link_ctr ..) (.after (hr _ _) hx)) (.after (link_ringPut ..) (.after (hr _ _) hx))
    · exact .after (hr _ _) hx

end Io

/-- What a memory operation keeps of the host interface. -/
structure Io.MemKept (s t : Io) : Prop where
  words : s.Keeps memWord t
  count : ∀ n, n ≠ 38 → t.wcount.get 0 n = s.wcount.get 0 n
  link : Agree Io.link s t

namespace Io.MemKept
variable {s t u : Io}

theorem refl (s : Io) : s.MemKept s := ⟨.refl _ s, fun _ _ => rfl, .refl s⟩
theorem after (h' : t.MemKept u) (h : s.MemKept t) : s.MemKept u :=
  ⟨.after h'.words h.words, fun n hn => (h'.count n hn).trans (h.count n hn), .after h'.link h.link⟩
theorem of_keeps (h : s.Keeps memWord t) (hw : t.wcount = s.wcount) (hl : Agree Io.link s t) : s.MemKept t := ⟨h, fun _ _ => by rw [hw], hl⟩
theorem of_within {F : List Part} (h : s.Within F t) (hF : Part.regs ∉ F ∧ Part.wcount ∉ F ∧ Part.pcie ∉ F) : s.MemKept t :=
  .of_keeps (.of_regs (h.same .regs hF.1)) (h.same .wcount hF.2.1) (link_within h hF.2.2)

theorem cond {c : Prop} [Decidable c] (ht : s.MemKept t) (hu : s.MemKept u) : s.MemKept (if c then t else u) := by
  split
  · exact ht
  · exact hu

theorem each {β : Type} {f : Io → β → Io} {l : List β} (hf : ∀ (x : Io) (b : β), x.MemKept (f x b)) (h : s.MemKept t) : s.MemKept (l.foldl f t) := by
  induction l generalizing t with
  | nil => exact h
  | cons b l ih => exact ih ((hf t b).after h)

/-- A command ring is none of the rings that reports use. -/
theorem ring (h : s.MemKept t) (c : Cmd) : RingKept c s t := by
  have e := RingKept.ring_eq c
  have hq := c.queue.isLt
  have h' : RingKept c s { t with wcount := s.wcount } := by
    refine .of_keeps (p := memWord) (.after (t := t) (.of_regs rfl) h.words) rfl fun a ha hr => ?_
    have e2 : pgRing 38 = 0x6A000 := rfl
    have e3 : pgPmc = 0x140000 := rfl
    have e4 : pgRas = 0x180000 := rfl
    obtain ⟨h1, h2⟩ := hr
    rcases ha with ha | ⟨b, hb, h3, h4⟩
    · omega
    · simp only [List.mem_cons, List.not_mem_nil, or_false] at hb
      omega
  exact ⟨h'.base, h'.log, h.count _ (by unfold Cmd.ring; omega)⟩

end Io.MemKept

namespace Io
variable (s : Io)

theorem mem_put {b : Nat} (hb : MemPage b) (f : Fld) (v i : Nat) : s.MemKept (s.put b f v i) :=
  .of_keeps (.putAny s b f v i (by rw [Nat.add_assoc]; exact hb.word _) (by rw [Nat.add_assoc, Nat.add_assoc]; exact hb.word _))
    ((s.within_putAny b f v i).same .wcount (by decide)) (s.link_put b f v i)

theorem mem_raise {b : Nat} (hb : MemPage b) (n : Nat) : s.MemKept (s.raise b n) := .of_keeps (.raise s b n (hb.word _)) (Io.raise_wcount s b n) (s.link_raise b n)

theorem mem_ctr {b : Nat} (hb : MemPage b) (f : Fld) (n i : Nat) : s.MemKept (s.ctr b f n i) :=
  .of_keeps (.ctr s b f n i (by rw [Nat.add_assoc]; exact hb.word _) (by rw [Nat.add_assoc, Nat.add_assoc]; exact hb.word _)
    fun _ h => .inr ⟨pgPmc, by simp, h⟩) ((s.within_ctr b f n i).same .wcount (by decide)) (s.link_ctr b f n i)

theorem mem_maxTo {b : Nat} (hb : MemPage b) (f : Fld) (v i : Nat) : s.MemKept (s.maxTo b f v i) := .cond (s.mem_put hb f _ i) (.refl s)

/-- Reports use ring 38 (R478). -/
theorem count_ringWrite {n m : Nat} (h : n ≠ m) (es : List Line) : (s.ringWrite m es).wcount.get 0 n = s.wcount.get 0 n := by
  unfold ringWrite
  extract_lets k c x y z
  have hw : s.Within [.out] x := .each (fun _ _ => within_emit ..) (.refl _)
  have hx : x.wcount = s.wcount := hw.same .wcount (by decide)
  have hy : y.wcount.get 0 n = s.wcount.get 0 n := by
    rw [← hx]
    exact SMap.get_set_ne _ _ _ _ h
  have hz : z.wcount = y.wcount := (y.within_putAny _ _ _ _).same .wcount (by decide)
  rw [(z.within_complete _ _).same .wcount (by decide), hz, hy]

theorem count_ringPut {n m : Nat} (h : n ≠ m) (es : List Line) : (s.ringPut m es).wcount.get 0 n = s.wcount.get 0 n := by
  unfold ringPut
  split
  · exact s.count_ringWrite h es
  · rw [((s.ringFlag m 1).within_bump _ _ _ _).same .wcount (by decide), (s.within_ringFlag m 1).same .wcount (by decide)]

theorem mem_report (sev code base loc detail : Nat) : s.MemKept (s.report sev code base loc detail) := by
  refine ⟨Keeps.mono (s.pages_report sev code base loc detail) fun _ h => Or.inr h, fun n hn => ?_, s.link_report ..⟩
  unfold report
  split
  · rfl
  · extract_lets key r x
    have hx : x.wcount = s.wcount := (s.nextSeq.within_countSeverity sev).same .wcount (by decide)
    split
    · rw [← hx]
      unfold reportCorrected
      extract_lets gap last
      split
      · exact congrArg (·.get 0 n) ((within_ctr _ _ _ _ _).same .wcount (by decide))
      · exact count_ringPut _ hn _
    · exact congrArg (·.get 0 n) hx

end Io

/-- What a memory operation keeps of the host interface, for the device. -/
def State.MemKept (s t : State) : Prop := s.io.MemKept t.io

namespace State.MemKept
variable {s t u : State}

theorem refl (s : State) : s.MemKept s := Io.MemKept.refl _
theorem after (h' : t.MemKept u) (h : s.MemKept t) : s.MemKept u := Io.MemKept.after h' h
theorem upIo {f : Io → Io} (h : s.io.MemKept (f s.io)) : s.MemKept (s.upIo f) := h
theorem of_within {F : List Part} (h : s.Within F t) (hF : Part.regs ∉ F ∧ Part.wcount ∉ F ∧ Part.pcie ∉ F) : s.MemKept t :=
  Io.MemKept.of_keeps (.of_regs (h.same .regs hF.1)) (h.same .wcount hF.2.1) ⟨(Agree.link_within h hF.2.2).eq⟩

theorem cond {c : Prop} [Decidable c] (ht : s.MemKept t) (hu : s.MemKept u) : s.MemKept (if c then t else u) := by
  split
  · exact ht
  · exact hu

theorem foldl {β : Type} {f : State → β → State} {l : List β} (hf : ∀ (x : State) (b : β), x.MemKept (f x b)) (h : s.MemKept t) :
    s.MemKept (l.foldl f t) := by
  induction l generalizing t with
  | nil => exact h
  | cons b l ih => exact ih ((hf t b).after h)

theorem each {β : Type} {f : State → β → State} {l : List β} (hf : ∀ (x : State) (b : β), x.MemKept (f x b)) (h : s.MemKept t) :
    s.MemKept (l.foldl f t) := foldl hf h

theorem ofSnd {α : Type} {p : α × State} {v : α} (h : s.MemKept p.2) (e : p = (v, u)) : s.MemKept u := by
  subst e
  exact h

theorem getD {o : Option State} (h : ∀ u, o = some u → s.MemKept u) (h' : s.MemKept t) : s.MemKept (o.getD t) := by
  cases o with
  | none => exact h'
  | some u => exact h u rfl

end State.MemKept

namespace State
variable (s : State)

theorem mem_put {b : Nat} (hb : MemPage b) (f : Fld) (v i : Nat) : s.MemKept (s.put b f v i) := .upIo (s.io.mem_put hb f v i)
theorem mem_bump {b : Nat} (hb : MemPage b) (f : Fld) (n i : Nat) : s.MemKept (s.bump b f n i) := .upIo (s.io.mem_put hb f _ i)
theorem mem_raise {b : Nat} (hb : MemPage b) (n : Nat) : s.MemKept (s.raise b n) := .upIo (s.io.mem_raise hb n)
theorem mem_raiseOnce {b : Nat} (hb : MemPage b) (n : Nat) : s.MemKept (s.raiseOnce b n) := .cond (.refl s) (s.mem_raise hb n)
theorem mem_ctr {b : Nat} (hb : MemPage b) (f : Fld) (n i : Nat) : s.MemKept (s.ctr b f n i) := .upIo (s.io.mem_ctr hb f n i)
theorem mem_report (sev code base loc detail : Nat) : s.MemKept (s.report sev code base loc detail) := .upIo (s.io.mem_report ..)

end State

theorem State.mem_lineLost (s : State) (pc la : ℕ) :
    s.MemKept (s.lineLost pc la) := by
  unfold State.lineLost
  exact State.mem_report ..

theorem State.mem_countWrite (s : State) (pc cls : ℕ) :
    s.MemKept (s.countWrite pc cls) := by
  unfold State.countWrite
  exact .after (.upIo (.of_within (Io.within_accAdd ..) (by decide))) (State.mem_ctr _ (.fmc ..) ..)

theorem State.mem_openRow (s : State) (pc la : ℕ) :
    s.MemKept (s.openRow pc la) := by
  unfold State.openRow
  extract_lets +onlyGivenNames s0
  have hs0 : s.MemKept s0 := .cond (State.mem_ctr _ (.fmc ..) ..) (.refl _)
  clear_value s0
  exact .after (.of_within (State.within_setFmc rfl) (by decide)) hs0

theorem State.mem_arrayWrite (s : State) (pc la : ℕ) (v : Line) (cls : ℕ) :
    s.MemKept (s.arrayWrite pc la v cls) := by
  unfold State.arrayWrite
  exact .after (.of_within (State.within_setArray ..) (by decide)) (.after (State.mem_countWrite ..) (State.mem_openRow ..))

theorem State.mem_drainWrite (s : State) (pc : ℕ) (w : WReq) :
    s.MemKept (s.drainWrite pc w) := by
  unfold State.drainWrite
  extract_lets +onlyGivenNames s0
  have hs0 : s.MemKept s0 := .of_within (State.within_setWq ..) (by decide)
  clear_value s0
  extract_lets +onlyGivenNames s1
  have hs1 : s.MemKept s1 := .after (.of_within (State.within_setTbuf ..) (by decide)) hs0
  clear_value s1
  exact .after (State.mem_arrayWrite ..) hs1

theorem State.mem_countRead (s : State) (pc cls : ℕ) :
    s.MemKept (s.countRead pc cls) := by
  unfold State.countRead
  exact .after (.upIo (.of_within (Io.within_accAdd ..) (by decide))) (State.mem_ctr _ (.fmc ..) ..)

theorem Io.mem_filtered (s : Io) (p : ℕ) (e : Evt) :
    s.MemKept (s.filtered p e) := by
  unfold Io.filtered
  exact .each (fun _ _ => (.cond (Io.mem_ctr _ (.pmcL ..) ..) (.refl _))) (.refl _)

theorem Io.mem_event (s : Io) (p base : ℕ) (hb : MemPage base) (f : Fld) (e : Evt) :
    s.MemKept (s.event p base f e) := by
  unfold Io.event
  exact .after (Io.mem_filtered ..) (Io.mem_ctr _ hb ..)

theorem State.mem_countFmc (s : State) (r : Req) (f : Fld) (code : ℕ) :
    s.MemKept (s.countFmc r f code) := by
  unfold State.countFmc
  split
  · exact .refl _
  · exact .upIo (Io.mem_event _ _ _ (.pmcL _) _ _)

theorem State.mem_queueRead (s : State) (r : Req) :
    s.MemKept (s.queueRead r) := by
  unfold State.queueRead
  split
  · exact .of_within (State.within_setRqWaiting ..) (by decide)
  · split
    · exact .after (.of_within (State.within_respond ..) (by decide)) (.after (State.mem_countFmc ..) (State.mem_ctr _ (.fmc ..) ..))
    · exact .after (.of_within (State.within_setRq ..) (by decide)) (State.mem_ctr _ (.fmc ..) ..)
    · exact .of_within (State.within_setRq ..) (by decide)

theorem State.mem_admitReads (s : State) (pc a0 : ℕ) :
    s.MemKept (s.admitReads pc a0) := by
  induction a0 generalizing s pc with
  | zero =>
    rw [State.admitReads]
    exact .refl _
  | succ r ih =>
    rw [State.admitReads]
    split
    · exact .refl _
    · exact .cond (.refl _) (.after (ih ..) (.after (State.mem_queueRead ..) (.of_within (State.within_setRqWaiting ..) (by decide))))

theorem State.mem_fly (s : State) (pc : ℕ) (r : Req) :
    s.MemKept (s.fly pc r) := by
  unfold State.fly
  extract_lets +onlyGivenNames s0
  have hs0 : s.MemKept s0 := .of_within (State.within_setRq ..) (by decide)
  clear_value s0
  extract_lets +onlyGivenNames s1
  have hs1 : s.MemKept s1 := .after (State.mem_countRead ..) (.after (State.mem_openRow ..) (.after (.of_within (State.within_bgPay ..) (by decide)) hs0))
  clear_value s1
  extract_lets +onlyGivenNames s2
  extract_lets +onlyGivenNames s3
  have hs3 : s.MemKept s3 := .after (.of_within (State.within_setFmc rfl) (by decide)) hs1
  clear_value s3
  exact .after (State.mem_admitReads ..) hs3

theorem State.mem_ahead (s : State) (pc cls a0 : ℕ) :
    s.MemKept (s.ahead pc cls a0) := by
  induction a0 generalizing s pc cls with
  | zero =>
    rw [State.ahead]
    exact .refl _
  | succ r ih =>
    rw [State.ahead]
    split
    · exact .refl _
    · extract_lets +onlyGivenNames m s2
      have hs2 : s.MemKept s2 := .of_within (State.within_setMode ..) (by decide)
      clear_value s2
      split
      · exact .after (ih ..) (.after (State.mem_drainWrite ..) hs2)
      · split
        · exact .after (ih ..) (.after (State.mem_fly ..) hs2)
        · exact hs2

theorem State.mem_setPcState (s : State) (pc v : ℕ) :
    s.MemKept (s.setPcState pc v) := by
  unfold State.setPcState
  extract_lets +onlyGivenNames s0
  have hs0 : s.MemKept s0 := State.mem_put _ (.fmc ..) ..
  clear_value s0
  extract_lets +onlyGivenNames b
  exact .after (State.mem_put _ (.fmc ..) ..) hs0

theorem State.mem_rebuildJoin (s : State) (pc : ℕ) :
    s.MemKept (s.rebuildJoin pc) := by
  unfold State.rebuildJoin
  extract_lets +onlyGivenNames st l s0
  extract_lets +onlyGivenNames s1
  have hs1 : s.MemKept s1 := .of_within (State.within_setFmc rfl) (by decide)
  clear_value s1
  split
  · extract_lets +onlyGivenNames b
    exact .after (State.mem_put _ (.fmc ..) ..) (.after (State.mem_put _ (.fmc ..) ..) (.after (State.mem_put _ (.fmc ..) ..) hs1))
  · exact hs1

theorem State.mem_rebuildLeave (s : State) (pc : ℕ) :
    s.MemKept (s.rebuildLeave pc) := by
  unfold State.rebuildLeave
  extract_lets +onlyGivenNames st b l
  split
  · extract_lets +onlyGivenNames s1
    extract_lets +onlyGivenNames s2
    have hs2 : s.MemKept s2 := .of_within (State.within_setFmc rfl) (by decide)
    clear_value s2
    extract_lets +onlyGivenNames s3
    have hs3 : s.MemKept s3 := .after (State.mem_put _ (.fmc ..) ..) (.after (State.mem_put _ (.fmc ..) ..) (.after (State.mem_put _ (.fmc ..) ..) hs2))
    clear_value s3
    exact .each (fun _ _ => (State.mem_rebuildJoin ..)) hs3
  · exact .of_within (State.within_setFmc rfl) (by decide)

theorem State.mem_rebuildCut (s : State) (pc : ℕ) :
    s.MemKept (s.rebuildCut pc) := by
  unfold State.rebuildCut
  exact .cond (.after (State.mem_rebuildLeave ..) (State.mem_put _ (.fmc ..) ..)) (.refl _)

theorem State.mem_setDegraded (s : State) (st : ℕ) (l : List (ℕ × ℕ)) :
    s.MemKept (s.setDegraded st l) := by
  unfold State.setDegraded
  extract_lets +onlyGivenNames old s0
  extract_lets +onlyGivenNames s1
  have hs1 : s.MemKept s1 := .of_within (State.within_setFmc rfl) (by decide)
  clear_value s1
  extract_lets +onlyGivenNames b s2
  have hs2 : s.MemKept s2 := .after (.upIo (Io.mem_maxTo _ (.fmc ..) ..)) (.after (State.mem_put _ (.fmc ..) ..) hs1)
  clear_value s2
  extract_lets +onlyGivenNames s3
  have hs3 : s.MemKept s3 := (.cond (.after (State.mem_raise _ (.fmc ..) ..) hs2) hs2)
  clear_value s3
  extract_lets +onlyGivenNames bits s4
  have hs4 : s.MemKept s4 := .after (State.mem_put _ (.fmc ..) ..) hs3
  clear_value s4
  exact .each (fun _ _ => (State.mem_put _ (.fmc ..) ..)) hs4

theorem State.mem_markStale (s : State) (pc : ℕ) :
    s.MemKept (s.markStale pc) := by
  unfold State.markStale
  extract_lets +onlyGivenNames st s0
  have hs0 : s.MemKept s0 := State.mem_put _ (.fmc ..) ..
  clear_value s0
  extract_lets +onlyGivenNames s1
  have hs1 : s.MemKept s1 := .after (State.mem_setDegraded ..) hs0
  clear_value s1
  exact .after (State.mem_report ..) (.after (State.mem_raise _ (.fmc ..) ..) hs1)

theorem State.mem_degrade (s : State) (pc la : ℕ) :
    s.MemKept (s.degrade pc la) := by
  unfold State.degrade
  extract_lets +onlyGivenNames st
  exact .cond (.refl _) (.cond (.after (State.mem_markStale ..) (.after (State.mem_raise _ (.fmc ..) ..) (State.mem_ctr _ (.fmc ..) ..))) (State.mem_setDegraded ..))

theorem State.mem_reissue (s : State) (r : Req) (first again : Bool) :
    s.MemKept (s.reissue r first again) := by
  unfold State.reissue
  split
  · extract_lets +onlyGivenNames p
    exact State.mem_queueRead ..
  · exact .after (.of_within (State.within_respond ..) (by decide)) (State.mem_lineLost ..)

theorem State.mem_moveQueues (s : State) (pc : ℕ) :
    s.MemKept (s.moveQueues pc) := by
  unfold State.moveQueues
  split
  · split
    · split
      · extract_lets +onlyGivenNames s12
        have hs12 : s.MemKept s12 := .after (.of_within (State.within_setTbuf ..) (by decide)) (.after (.of_within (State.within_setRqWaiting ..) (by decide)) (.of_within (State.within_setRq ..) (by decide)))
        clear_value s12
        extract_lets +onlyGivenNames s13
        have hs13 : s.MemKept s13 := by
          unfold s13
          refine .foldl (fun x14 b15 => ?_) ((.after (.of_within (State.within_setWq ..) (by decide)) hs12))
          exact .of_within (State.within_enterWq ..) (by decide)
        clear_value s13
        extract_lets +onlyGivenNames s16
        have hs16 : s.MemKept s16 := .each (fun _ _ => (State.mem_degrade ..)) hs13
        clear_value s16
        exact .each (fun _ _ => (State.mem_reissue ..)) hs16

theorem State.mem_freezePc (s : State) (kind pc : ℕ) :
    s.MemKept (s.freezePc kind pc) := by
  unfold State.freezePc
  split
  · exact .refl _
  · extract_lets +onlyGivenNames s2
    have hs2 : s.MemKept s2 := .after (State.mem_raise _ (.fmc ..) ..) (.after (State.mem_setPcState ..) (State.mem_rebuildCut ..))
    clear_value s2
    exact .after (State.mem_report ..) (.after (State.mem_moveQueues ..) hs2)

theorem State.mem_capture (s : State) (kind pc la : ℕ) (raw : Option (BitVec 576)) :
    s.MemKept (s.capture kind pc la raw) := by
  unfold State.capture
  extract_lets +onlyGivenNames b
  split
  · exact .refl _
  · split
    · rename_i a2 a3 t4 h5
      have ht4 : s.MemKept t4 := .ofSnd (.of_within (State.within_draw ..) (by decide)) h5
      split
      · rename_i a6 a7 t8 h9
        have ht8 : s.MemKept t8 := .ofSnd (.after (.of_within (State.within_draw ..) (by decide)) ht4) h9
        extract_lets +onlyGivenNames r s10
        have hs10 : s.MemKept s10 := .after (State.mem_put _ (.fmc ..) ..) (.after (State.mem_put _ (.fmc ..) ..) (.after (State.mem_put _ (.fmc ..) ..) ht8))
        clear_value s10
        extract_lets +onlyGivenNames s11
        have hs11 : s.MemKept s11 := .after (State.mem_put _ (.fmc ..) ..) (.after (State.mem_put _ (.fmc ..) ..) (.after (State.mem_put _ (.fmc ..) ..) hs10))
        clear_value s11
        exact .after (State.mem_raise _ (.fmc ..) ..) (.each (fun _ _ => (State.mem_put _ (.fmc ..) ..)) hs11)

theorem State.mem_freeze (s : State) (kind pc la : ℕ) (raw : Option (BitVec 576)) :
    s.MemKept (s.freeze kind pc la raw) := by
  unfold State.freeze
  exact .after (State.mem_freezePc ..) (State.mem_capture ..)

theorem State.mem_readEnds (s : State) (pc la who : ℕ) (e : ReadEnd) :
    s.MemKept ((s.readEnds pc la who e).2) := by
  unfold State.readEnds
  extract_lets +onlyGivenNames k scrub
  split
  · exact ((.refl _))
  · exact ((.after (State.mem_report ..) (.after (State.mem_raiseOnce _ (.fmc ..) ..) (State.mem_bump _ (.fmc ..) ..))))
  · exact ((.after (State.mem_freeze ..) (State.mem_bump _ (.fmc ..) ..)))
  · exact ((.after (State.mem_freeze ..) (State.mem_bump _ (.fmc ..) ..)))
  · exact ((.after (State.mem_freeze ..) (State.mem_bump _ (.fmc ..) ..)))

theorem State.mem_arrayRead (s : State) (l : Loc) (side : Bool) (cls who : ℕ) (e : ReadEnd) :
    s.MemKept ((s.arrayRead l side cls who e).2) := by
  unfold State.arrayRead
  extract_lets +onlyGivenNames p s0
  have hs0 : s.MemKept s0 := State.mem_ahead ..
  clear_value s0
  extract_lets +onlyGivenNames s1
  have hs1 : s.MemKept s1 := .after (State.mem_countRead ..) (.after (State.mem_openRow ..) (.after (.of_within (State.within_bgPay ..) (by decide)) hs0))
  clear_value s1
  extract_lets +onlyGivenNames v e2
  split
  · rename_i a3 a4 t5 h6
    have ht5 : s.MemKept t5 := .ofSnd (.after (State.mem_readEnds ..) hs1) h6
    split
    · exact ((.cond (.after (.of_within (State.within_scrubBack ..) (by decide)) ht5) ht5))
    · exact (ht5)

theorem State.mem_readCopy (s : State) (l : Loc) (side : Bool) (cls who : ℕ) (drain : Bool) (e : ReadEnd) :
    s.MemKept ((s.readCopy l side cls who drain e).2) := by
  unfold State.readCopy
  extract_lets +onlyGivenNames p
  split
  · exact ((State.mem_ctr _ (.fmc ..) ..))
  · exact .after (State.mem_arrayRead ..) (.after (State.mem_drainWrite ..) (State.mem_ctr _ (.fmc ..) ..))
  · exact State.mem_arrayRead ..

theorem State.mem_readReport (s : State) (pc la : ℕ) (lost : Bool) :
    s.MemKept (s.readReport pc la lost) := by
  unfold State.readReport
  exact .cond (State.mem_lineLost ..) (State.mem_report ..)

theorem State.mem_readNow (s : State) (l : Loc) (cls who : ℕ) (drain : Bool) (es : List ReadEnd) :
    s.MemKept ((s.readNow l cls who drain es).2) := by
  unfold State.readNow
  split
  · exact ((State.mem_lineLost ..))
  · extract_lets +onlyGivenNames p
    split
    · rename_i a6 a7 t8 h9
      have ht8 : s.MemKept t8 := .ofSnd (State.mem_readCopy ..) h9
      exact (ht8)
    · rename_i a10 t11 h12
      have ht11 : s.MemKept t11 := .ofSnd (State.mem_readCopy ..) h12
      split
      · exact ((.after (State.mem_readReport ..) ht11))
      · split
        · rename_i a19 a20 t21 h22
          have ht21 : s.MemKept t21 := .ofSnd (.after (State.mem_readCopy ..) ht11) h22
          exact ((.after (State.mem_readReport ..) ht21))
        · rename_i a23 t24 h25
          have ht24 : s.MemKept t24 := .ofSnd (.after (State.mem_readCopy ..) ht11) h25
          exact ((.after (State.mem_readReport ..) ht24))

theorem State.mem_loseRecord (s : State) (r : ℕ) :
    s.MemKept (s.loseRecord r) := by
  unfold State.loseRecord
  split
  · exact .refl _
  · extract_lets +onlyGivenNames s2
    extract_lets +onlyGivenNames s3
    have hs3 : s.MemKept s3 := .of_within (State.within_setFlow ..) (by decide)
    clear_value s3
    exact .after (State.mem_report ..) (.after (State.mem_raise _ (.flw ..) ..) (.after (State.mem_ctr _ (.flw ..) ..) hs3))

/-- A write that a copy takes. -/
theorem State.mem_refuseCopy {s : State} {w : WReq} {t : State} (he : s.refuseCopy w = some t) : s.MemKept t := by
  unfold State.refuseCopy at he
  split at he
  · split at he
    · obtain rfl := Option.some.inj he
      exact .after (mem_lineLost ..) (.of_within (within_writeFailed ..) (by decide))
    · exact absurd he (by simp)
  · obtain rfl := Option.some.inj he
    exact mem_degrade ..

theorem State.mem_accept {s : State} {w : WReq} {t : State} (he : s.accept w = some t) : s.MemKept t := by
  have hp : s.MemKept ((s.noteWrite w.pc w.la).bgPay w.cls w.who) :=
    .after (.of_within (within_bgPay ..) (by decide)) (.of_within (within_noteWrite ..) (by decide))
  unfold State.accept at he
  split at he
  · obtain rfl := Option.some.inj he
    exact .after (.of_within (within_enterWq ..) (by decide)) hp
  · dsimp only at he
    obtain rfl := Option.some.inj he
    exact .after (.of_within (within_setTbuf ..) (by decide)) hp
  · split at he
    · obtain rfl := Option.some.inj he
      exact .refl _
    · exact mem_refuseCopy he
  · exact absurd he (by simp)

theorem State.mem_acceptAll (s : State) (l : List WReq) :
    s.MemKept (s.acceptAll l) := by
  unfold State.acceptAll
  refine .foldl (fun x0 b1 => ?_) ((.refl _))
  split
  · rename_i a2 t3 h4
    have ht3 : x0.MemKept t3 := State.mem_accept h4
    exact ht3
  · exact .of_within (State.within_setFmc rfl) (by decide)

theorem State.mem_acceptLine (s : State) (w : WReq) :
    s.MemKept (s.acceptLine w) := by
  unfold State.acceptLine
  split
  · exact .after (State.mem_acceptAll ..) (.of_within (State.within_setFmc rfl) (by decide))

theorem State.mem_makeRoom (s : State) (pc : ℕ) :
    s.MemKept (s.makeRoom pc) := by
  unfold State.makeRoom
  split
  · exact .refl _
  · exact State.mem_drainWrite ..

theorem State.mem_settle (s : State) (pc a0 : ℕ) :
    s.MemKept (s.settle pc a0) := by
  induction a0 generalizing s pc with
  | zero =>
    rw [State.settle]
    exact .refl _
  | succ r ih =>
    rw [State.settle]
    split
    · exact .refl _
    · exact .after (ih ..) (.after (State.mem_acceptLine ..) (.cond (State.mem_makeRoom ..) (.refl _)))

theorem State.mem_writeNow (s : State) (l : Loc) (v : Line) (cls who : ℕ) :
    s.MemKept (s.writeNow l v cls who) := by
  unfold State.writeNow
  refine .foldl (fun x0 b1 => ?_) ((.refl _))
  extract_lets +onlyGivenNames s2
  have hs2 : x0.MemKept s2 := State.mem_settle ..
  clear_value s2
  exact .getD (fun _ he => (.after (State.mem_accept he) (.cond (.after (State.mem_makeRoom ..) hs2) hs2))) hs2

theorem State.mem_writeBack (s : State) (i : ℕ) :
    s.MemKept (s.writeBack i) := by
  unfold State.writeBack
  extract_lets +onlyGivenNames l
  exact .cond (.refl _) (State.mem_writeNow ..)

theorem State.mem_dropLine (s : State) (key r : ℕ) :
    s.MemKept (s.dropLine key r) := by
  unfold State.dropLine
  split
  · exact .after (.of_within (State.within_setCache ..) (by decide)) (State.mem_writeBack ..)
  · exact .refl _

theorem State.mem_loseBucket (s : State) (b : ℕ) :
    s.MemKept (s.loseBucket b) := by
  unfold State.loseBucket
  extract_lets +onlyGivenNames l v held s0
  have hs0 : s.MemKept s0 := .each (fun _ _ => (.after (State.mem_loseRecord ..) (State.mem_dropLine ..))) (.refl _)
  clear_value s0
  exact .after (State.mem_writeNow ..) hs0

theorem State.mem_dropFrom (s : State) (hash key r cls who b : ℕ) :
    s.MemKept (s.dropFrom hash key r cls who b) := by
  unfold State.dropFrom
  extract_lets +onlyGivenNames l
  split
  · rename_i a0 t1 h2
    have ht1 : s.MemKept t1 := .ofSnd (State.mem_readNow ..) h2
    exact .after (State.mem_loseBucket ..) ht1
  · rename_i a3 a4 t5 h6
    have ht5 : s.MemKept t5 := .ofSnd (State.mem_readNow ..) h6
    split
    · exact .cond (.after (State.mem_writeNow ..) ht5) ht5
    · exact ht5

theorem State.mem_setStash (s : State) (i : ℕ) (h : BitVec 128) :
    s.MemKept (s.setStash i h) := by
  unfold State.setStash
  extract_lets +onlyGivenNames s0
  extract_lets +onlyGivenNames s1
  have hs1 : s.MemKept s1 := .of_within (State.within_setFlow ..) (by decide)
  clear_value s1
  extract_lets +onlyGivenNames n was s2
  have hs2 : s.MemKept s2 := .after (.upIo (Io.mem_maxTo _ (.flw ..) ..)) (.after (State.mem_put _ (.flw ..) ..) hs1)
  clear_value s2
  exact .cond (.after (State.mem_raise _ (.flw ..) ..) hs2) hs2

theorem State.mem_clearHeader (s : State) (hash key r cls who : ℕ) :
    s.MemKept (s.clearHeader hash key r cls who) := by
  unfold State.clearHeader
  extract_lets +onlyGivenNames s0
  have hs0 : s.MemKept s0 := .after (State.mem_dropFrom ..) (State.mem_dropFrom ..)
  clear_value s0
  split
  · exact .cond (.after (State.mem_setStash ..) hs0) hs0
  · exact hs0

theorem State.mem_loseHot (s : State) (hash key r : ℕ) :
    s.MemKept (s.loseHot hash key r) := by
  unfold State.loseHot
  exact .cond (.refl _) (.after (State.mem_loseRecord ..) (State.mem_clearHeader ..))

theorem State.mem_hostRecord (s : State) (r : ℕ) (es : List ReadEnd) :
    s.MemKept ((s.hostRecord r es).2) := by
  unfold State.hostRecord
  extract_lets +onlyGivenNames h
  have hh : s.MemKept h.2 := by
    unfold h
    split
    · exact .refl _
    · exact State.mem_readNow ..
  clear_value h
  extract_lets +onlyGivenNames c
  have hc : s.MemKept c.2 := .after (State.mem_readNow ..) hh
  clear_value c
  split
  · exact hc
  · extract_lets +onlyGivenNames v
    exact .after (State.mem_loseHot ..) hc
  · exact hc

theorem State.mem_hostBucket (s : State) (b hash key : ℕ) (es : List ReadEnd) :
    s.MemKept ((s.hostBucket b hash key es).2) := by
  unfold State.hostBucket
  split
  · rename_i a0 t1 h2
    have ht1 : s.MemKept t1 := .ofSnd (State.mem_readNow ..) h2
    exact ((.after (State.mem_loseBucket ..) ht1))
  · rename_i a3 a4 t5 h6
    have ht5 : s.MemKept t5 := .ofSnd (State.mem_readNow ..) h6
    split
    · exact (ht5)
    · exact (ht5)

theorem State.mem_hostFind (s : State) (hash key : ℕ) (es : List ReadEnd) :
    s.MemKept ((s.hostFind hash key es).2) := by
  unfold State.hostFind
  split
  · exact ((.refl _))
  · split
    · exact ((.refl _))
    · exact ((.refl _))
    · split
      · rename_i a18 t19 h20
        have ht19 : s.MemKept t19 := .ofSnd (State.mem_hostBucket ..) h20
        exact .after (State.mem_hostBucket ..) ht19
      · exact State.mem_hostBucket ..

end Sys2Proof.Machine
end

section
/-!
SUPPORT. Account and profile map commands (R376), and how a command of a table of the whole device runs its part.
-/
namespace Sys2Proof.Machine

/-! ### A part of a table of the whole device runs in the state the command finds -/

theorem State.runCmd_noPipe {s : State} {c : Cmd} {valid p : Nat} (h : s.takesPart c valid p) {one : Bool} {wait : Nat → Bool}
    {f : State → Nat → State × Res} (hw : wait p = false) : s.runCmd c valid one (fun _ => none) wait f =
      (f (s.unhold c.queue.val) p).1.upIo fun io => io.cmdDone c [(p, (f (s.unhold c.queue.val) p).2)] := by
  obtain ⟨_, h1, h2, h3, h4, h5, h6⟩ := h
  unfold runCmd
  rw [h1, Cmd.badMask_of_part h2 h3 h5 h6, h4, h5, List.any_cons, hw]
  rfl

section
variable {x : Instr} {s : State} {c : Cmd} {valid p : Nat} {one : Bool} {f : State → Nat → State × Res} {P : State → Prop}
  (hx : exec x s = s.live fun s => s.runCmd c valid one (fun _ => none) (fun _ => false) f) (h : s.takesPart c valid p)
include hx h

/-- A command of one part of the whole device leaves what its part leaves, and its answer. -/
theorem Completes.whole {t : State} {r : Res} (hf : f (s.unhold c.queue.val) p = (t, r)) (hk : RingKept c s.io t.io) (hq : t.pending = s.pending)
    (hP : ∀ u, Answers c p r s u → CmdEnds c t u → P u) : Completes x s P := by
  have he := State.runCmd_noPipe h (one := one) (wait := fun _ => false) (f := f) rfl
  rw [hf] at he
  exact .live_eq hx h.on he hq (hP _ (State.cmdDone_answers hk p r) ⟨rfl, State.cmdDone_pages c t _⟩)

end

/-! ### Accounts -/

section
variable {s : State} {c : Cmd} (h : s.takesPart c 1 0)
include h

theorem table7_noFeature (hf : s.feature 5 = false) (es : List ReadEnd) (x : Instr)
    (hx : x ∈ [Instr.accountRead c es, .accountWrite c, .accountDelete c, .readMap c, .writeMap c]) :
    Completes x s (fun t => Answers c 0 { code := ccNoFeature } s t ∧ OnlyStatus c s t) := by
  have hf' (t : State) (ht : t.io = s.io) : t.feature 5 = false := (congrArg (fun io : Io => io.feature 5) ht).trans hf
  have hu : (s.unhold c.queue.val).feature 5 = false := hf' _ rfl
  have hn {y : Instr} {one : Bool} {f : State → Nat → State × Res} (hy : exec y s = s.live fun s => s.runCmd c 1 one (fun _ => none) (fun _ => false) f)
      (hr : f (s.unhold c.queue.val) 0 = (s.unhold c.queue.val, { code := ccNoFeature })) :
      Completes y s (fun t => Answers c 0 { code := ccNoFeature } s t ∧ OnlyStatus c s t) :=
    .whole hy h hr (.refl _) rfl fun _ ha he => ⟨ha, he.frame⟩
  simp only [List.mem_cons, List.not_mem_nil, or_false] at hx
  have h5 : (!(s.unhold c.queue.val).feature 5) = true := by rw [hu]; rfl
  rcases hx with rfl | rfl | rfl | rfl | rfl
  · exact hn (f := fun t p => t.accountRead c p es) rfl (if_pos h5)
  · exact hn (f := fun t p => t.accountSealed c p) rfl (by unfold State.accountSealed; rw [hu]; rfl)
  · exact hn (f := fun t p => t.accountSealed c p) rfl (by unfold State.accountSealed; rw [hu]; rfl)
  · exact hn (f := fun t p => t.mapRead c p) rfl (if_pos h5)
  · exact hn (f := fun t p => t.mapWrite c p) rfl (if_pos h5)

section
variable (hf : s.feature 5 = true)
include hf

theorem accountRead_reads {es : List ReadEnd} {v : Line} {s' : State} (hi : c.indirect = true) (hl : c.len = 64) (hx : c.idx < 4194304)
    (hr : (s.unhold c.queue.val).readNow (accountLoc c.idx) 3 0x01 false es = (some v, s')) :
    Completes (.accountRead c es) s (fun t => Answers c 0 { data := bytesLE 64 v.toNat } s t ∧ t = { s' with io := t.io }) := by
  have hm := State.mem_readNow (s.unhold c.queue.val) (accountLoc c.idx) 3 0x01 false es
  have hw := State.within_readNow (s.unhold c.queue.val) (accountLoc c.idx) 3 0x01 false es
  rw [hr] at hm hw
  refine .whole (f := fun t p => t.accountRead c p es) (t := s') (r := { data := bytesLE 64 v.toNat }) rfl h ?_ (hm.ring c) (hw.same .pending (by decide))
    fun _ ha he => ⟨ha, he.frame⟩
  have hf' : (!(s.unhold c.queue.val).feature 5) = false := by
    rw [show (s.unhold c.queue.val).feature 5 = true from hf]
    rfl
  unfold State.accountRead
  rw [hf', if_neg Bool.false_ne_true, if_neg (by simp [hi, hl]), if_neg (by omega), hr]

theorem account_sealed (x : Instr) (hx : x = Instr.accountWrite c ∨ x = Instr.accountDelete c) :
    Completes x s (fun t => Answers c 0 { code := ccSealed } s t ∧ OnlyStatus c s t) := by
  have hs : (s.unhold c.queue.val).accountSealed c 0 = (s.unhold c.queue.val, { code := ccSealed }) := by
    unfold State.accountSealed
    rw [show (s.unhold c.queue.val).feature 5 = true from hf]
    rfl
  rcases hx with rfl | rfl
  · exact .whole (f := fun t p => t.accountSealed c p) rfl h hs (.refl _) rfl fun _ ha he => ⟨ha, he.frame⟩
  · exact .whole (f := fun t p => t.accountSealed c p) rfl h hs (.refl _) rfl fun _ ha he => ⟨ha, he.frame⟩

/-! ### The profile map -/

variable {a : Nat} (hm : mapIndex c = some a)
include hm

theorem readMap_entry : Completes (.readMap c) s (fun t => Answers c 0 { data := bytesLE 1 (s.mapAt a).toNat } s t ∧ OnlyStatus c s t) := by
  refine .whole (f := fun t p => t.mapRead c p) (t := s.unhold c.queue.val) (r := { data := bytesLE 1 (s.mapAt a).toNat }) rfl h ?_ (.refl _) rfl
    fun _ ha he => ⟨ha, he.frame⟩
  unfold State.mapRead
  rw [show (s.unhold c.queue.val).feature 5 = true from hf, hm]
  rfl

omit h hf hm in
theorem mapWrite_eq {t : State} (hf : t.feature 5 = true) (hm : mapIndex c = some a) (hv : c.le 16 1 < 16) : t.mapWrite c 0 =
    if t.get pgQnc QNC_LOCKS.MAP = 1 then (t, { code := ccLocked })
    else ((t.upQnc fun q => { q with map := q.map.set 0 a (BitVec.ofNat 4 (c.le 16 1)) }).bump pgQnc QNC_ASSIGN_GEN.GEN, {}) := by
  unfold State.mapWrite
  rw [hf, hm]
  dsimp only
  rw [Bool.not_true, if_neg Bool.false_ne_true, if_neg (by omega)]

theorem writeMap_locked (hv : c.le 16 1 < 16) (hl : s.get pgQnc QNC_LOCKS.MAP = 1) : Completes (.writeMap c) s (fun t =>
    Answers c 0 { code := ccLocked } s t ∧ OnlyStatus c s t) :=
  .whole (f := fun t p => t.mapWrite c p) (t := s.unhold c.queue.val) (r := { code := ccLocked }) rfl h
    ((mapWrite_eq (t := s.unhold c.queue.val) hf hm hv).trans (if_pos hl)) (.refl _) rfl fun _ ha he => ⟨ha, he.frame⟩

omit h hf hm in
/-- The map of a written entry, and the generation it counts. -/
theorem map_bumped (s : State) (v : BitVec 4) (x : State) (hx : x = (s.upQnc fun q => { q with map := q.map.set 0 a v }).bump pgQnc QNC_ASSIGN_GEN.GEN) :
    x.qnc.map = s.qnc.map.set 0 a v ∧ x.get pgQnc QNC_ASSIGN_GEN.GEN = (s.get pgQnc QNC_ASSIGN_GEN.GEN + 1) % 2 ^ QNC_ASSIGN_GEN.GEN.len ∧
      x = { s with io := x.io, qnc := { s.qnc with map := x.qnc.map } } ∧ s.io.High x.io ∧ x.io.wcount = s.io.wcount := by
  have hb : x.io = s.io.bump pgQnc QNC_ASSIGN_GEN.GEN := congrArg State.io hx
  subst hx
  refine ⟨rfl, ?_, rfl, ?_, (s.io.within_bump _ _ _ _).same .wcount (by decide)⟩
  rotate_left
  · rw [hb]
    exact s.io.high_bump highWord_qnc _ _ _
  exact s.io.get_bump pgQnc QNC_ASSIGN_GEN.GEN 1 0 rfl rfl (by decide)

theorem writeMap_writes (hv : c.le 16 1 < 16) (hl : s.get pgQnc QNC_LOCKS.MAP = 0) : Completes (.writeMap c) s (fun t =>
    Answers c 0 {} s t ∧ (∀ k, t.mapAt k = if k = a then BitVec.ofNat 4 (c.le 16 1) else s.mapAt k) ∧
    t.get pgQnc QNC_ASSIGN_GEN.GEN = (s.get pgQnc QNC_ASSIGN_GEN.GEN + 1) % 2 ^ QNC_ASSIGN_GEN.GEN.len ∧
    t = { s.unhold c.queue.val with io := t.io, qnc := { s.qnc with map := t.qnc.map } }) := by
  have hn : ¬ (s.unhold c.queue.val).get pgQnc QNC_LOCKS.MAP = 1 := fun e => absurd (hl.symm.trans e) (by decide)
  have he := mapWrite_eq (t := s.unhold c.queue.val) hf hm hv
  rw [if_neg hn] at he
  obtain ⟨hxm, hxg, hxf, hxk, hxw⟩ := map_bumped (a := a) (s.unhold c.queue.val) (BitVec.ofNat 4 (c.le 16 1)) _ rfl
  generalize ((s.unhold c.queue.val).upQnc fun q => { q with map := q.map.set 0 a (BitVec.ofNat 4 (c.le 16 1)) }).bump pgQnc QNC_ASSIGN_GEN.GEN = x at *
  refine .whole (f := fun t p => t.mapWrite c p) rfl h he (.of_high hxk hxw) (congrArg State.pending hxf :) fun u ha hu => ?_
  have hq : u.qnc = x.qnc := (congrArg State.qnc hu.frame :)
  have hr := RingKept.ring_eq c
  have hc := c.queue.isLt
  refine ⟨ha, fun k => ?_, ?_, ?_⟩
  · unfold State.mapAt
    rw [hq, hxm]
    exact SMap.get_setIf _ _ _ _ _
  · refine (State.get_of_keeps hu.pages _ _ _ (by decide) fun hp => ?_).trans hxg
    obtain ⟨b, hb, h1, h2⟩ := hp
    rw [List.mem_singleton.1 hb, hr] at h2
    have e : pgQnc + QNC_ASSIGN_GEN.GEN.off + QNC_ASSIGN_GEN.GEN.stride * 0 ≥ 0x100000 := by decide
    omega
  · rw [hq]
    exact hu.frame.trans (congrArg (fun y : State => ({ y with io := u.io } : State)) hxf)

end

end

/-- Settles O41, each command through the account or map entry it names. -/
theorem accountAccess : Obligations.AccountAccess := by
  unfold Obligations.AccountAccess
  exact fun s c es h => ⟨fun hf x hx => table7_noFeature h hf es x hx, fun hf => ⟨
    fun v s' hi hl hx hr => accountRead_reads h hf hi hl hx hr, fun x hx => account_sealed h hf x hx,
    fun a hm => ⟨readMap_entry h hf hm, writeMap_writes h hf hm, writeMap_locked h hf hm⟩⟩⟩

end Sys2Proof.Machine
end

section
/-!
SUPPORT. The host's flow commands (R191, R192).
-/
namespace Sys2Proof.Machine

/-! ### A ring that is live after a memory operation -/

namespace Io.MemKept
variable {s t : Io} (h : s.MemKept t)
include h

theorem mayDma : t.mayDma = s.mayDma := by
  have hl : t.link = s.link := h.link.eq
  unfold Io.mayDma
  rw [show t.pcie.linkUp = s.pcie.linkUp from (congrArg Pcie.linkUp hl :), show t.pcie.bme = s.pcie.bme from (congrArg Pcie.bme hl :),
    show t.pcie.d3hot = s.pcie.d3hot from (congrArg Pcie.d3hot hl :)]

/-- No word of a command ring is written. -/
theorem ring_word (c : Cmd) {o : Nat} (ho : o < 0x1000) : t.rd (pgRing c.ring + o) = s.rd (pgRing c.ring + o) := by
  refine h.words.rd _ fun ha => ?_
  have e := RingKept.ring_eq c
  have hq := c.queue.isLt
  have e2 : pgRing 38 = 0x6A000 := rfl
  have e3 : pgPmc = 0x140000 := rfl
  have e4 : pgRas = 0x180000 := rfl
  rcases ha with ha | ⟨b, hb, h3, h4⟩
  · omega
  · simp only [List.mem_cons, List.not_mem_nil, or_false] at hb
    omega

theorem statusLive (c : Cmd) : t.statusLive c.ring = s.statusLive c.ring := by
  unfold Io.statusLive Io.cause
  rw [h.mayDma, h.ring_word c (by decide)]

end Io.MemKept

/-- The ring of a waiting command takes statuses. -/
theorem State.cmdWaiting_statusLive {s : State} {c : Cmd} (h : s.cmdWaiting c = true) : s.io.statusLive c.ring = true := by
  unfold State.cmdWaiting Io.ringLive at h
  unfold Io.statusLive
  simp only [Bool.and_eq_true] at h ⊢
  exact ⟨h.1.1.2, h.1.1.1.2⟩

/-! ### READ, DELETE, SEARCH, WALK, READ_BUCKET -/

section
variable {s : State} {c : Cmd} {es : List ReadEnd} (h : s.takesPart c 1 0)

section
variable {r : Nat} {a d : Line} {x s' : State}

theorem flowRead_of {t : State} (hb : bufferBad c 128 = false) (hx : c.idx < 67108864) (hr : t.hostRecord c.idx es = (some (a, d), s')) :
    t.flowRead c es = if hLife.get a = lifeFree then (s', { code := ccNotFound })
      else (s', { data := bytesLE 64 a.toNat ++ bytesLE 64 d.toNat, result := some c.idx }) := by
  unfold State.flowRead
  rw [hb, if_neg Bool.false_ne_true, if_neg (by omega), hr]

theorem flowDelete_none {t : State} {hash key : Nat} (hk : keyOf c 40 = some (hash, key)) (hf : t.hostFind hash key es = (.none, s')) :
    t.flowDelete c es = (s', { result := some 0xFFFFFFFF }) := by
  unfold State.flowDelete
  rw [hk]
  dsimp only
  rw [hf]

theorem flowDelete_at {t : State} {hash key : Nat} (hk : keyOf c 40 = some (hash, key)) (hf : t.hostFind hash key es = (.at' r, s')) :
    t.flowDelete c es = (s'.submitRemoval r 3 0, { result := some r }) := by
  unfold State.flowDelete
  rw [hk]
  dsimp only
  rw [hf]

theorem flowSearch_none {t : State} {hash key : Nat} (hk : keyOf c 168 = some (hash, key)) (hf : t.hostFind hash key es = (.none, s')) :
    t.flowSearch c es = (s', { code := ccNotFound }) := by
  unfold State.flowSearch
  rw [hk]
  dsimp only
  rw [hf]

theorem flowSearch_at {t : State} {hash key : Nat} (hk : keyOf c 168 = some (hash, key)) (hf : t.hostFind hash key es = (.at' r, s'))
    (hr : s'.hostRecord r (es.drop 4) = (some (a, d), x)) (hl : hLife.get a ≠ lifeFree) :
    t.flowSearch c es = (x, { data := bytesLE 64 a.toNat ++ bytesLE 64 d.toNat, off := 40, result := some r }) := by
  unfold State.flowSearch
  rw [hk]
  dsimp only
  rw [hf]
  dsimp only
  rw [hr]
  exact if_neg hl

end

include h

omit h in
/-- A host's read leaves the command's ring as it was. -/
theorem hostRecord_ring {t s' : State} {r : Nat} {v : Option (Line × Line)} (hr : t.hostRecord r es = (v, s')) (hk : RingKept c s.io t.io)
    (hp : t.pending = s.pending) : RingKept c s.io s'.io ∧ s'.pending = s.pending := by
  have hm := t.mem_hostRecord r es
  have hw := t.within_hostRecord r es
  rw [hr] at hm hw
  exact ⟨.after (hm.ring c) hk, (hw.same .pending (by decide)).trans hp⟩

omit h in
theorem hostFind_ring {t s' : State} {hash key : Nat} {v : Found} (hr : t.hostFind hash key es = (v, s')) (hk : RingKept c s.io t.io)
    (hp : t.pending = s.pending) : RingKept c s.io s'.io ∧ s'.pending = s.pending := by
  have hm := t.mem_hostFind hash key es
  have hw := t.within_hostFind hash key es
  rw [hr] at hm hw
  exact ⟨.after (hm.ring c) hk, (hw.same .pending (by decide)).trans hp⟩

theorem flowRead_record {a d : Line} {s' : State} (hi : c.indirect = true) (hl : 128 ≤ c.len) (hx : c.idx < 67108864)
    (hr : (s.unhold c.queue.val).hostRecord c.idx es = (some (a, d), s')) :
    (hLife.get a ≠ lifeFree → Completes (.flowRead c es) s (fun t =>
      Answers c 0 { data := bytesLE 64 a.toNat ++ bytesLE 64 d.toNat, result := some c.idx } s t ∧ t = { s' with io := t.io })) ∧
    (hLife.get a = lifeFree → Completes (.flowRead c es) s (fun t => Answers c 0 { code := ccNotFound } s t ∧ t = { s' with io := t.io })) := by
  have hb : bufferBad c 128 = false := by simp [bufferBad, hi, hl]
  obtain ⟨hk, hp⟩ := hostRecord_ring (s := s) (c := c) hr (.refl _) rfl
  have he := flowRead_of hb hx hr
  refine ⟨fun hf => ?_, fun hf => ?_⟩
  · exact .whole (f := fun t _ => t.flowRead c es) rfl h (he.trans (if_neg hf)) hk hp fun _ ha hu => ⟨ha, hu.frame⟩
  · exact .whole (f := fun t _ => t.flowRead c es) rfl h (he.trans (if_pos hf)) hk hp fun _ ha hu => ⟨ha, hu.frame⟩

section
variable {hash key : Nat} {s' : State}

theorem flowDelete_absent (hk : keyOf c 40 = some (hash, key)) (hf : (s.unhold c.queue.val).hostFind hash key es = (.none, s')) :
    Completes (.flowDelete c es) s (fun t => Answers c 0 { result := some 0xFFFFFFFF } s t ∧ t = { s' with io := t.io }) := by
  obtain ⟨hr, hp⟩ := hostFind_ring (s := s) (c := c) hf (.refl _) rfl
  exact .whole (f := fun t _ => t.flowDelete c es) rfl h (flowDelete_none hk hf) hr hp fun _ ha hu => ⟨ha, hu.frame⟩

theorem flowDelete_submits {r : Nat} (hk : keyOf c 40 = some (hash, key)) (hf : (s.unhold c.queue.val).hostFind hash key es = (.at' r, s')) :
    Completes (.flowDelete c es) s (fun t => Answers c 0 { result := some r } s t ∧ t = { s'.submitRemoval r 3 0 with io := t.io }) := by
  obtain ⟨hr, hp⟩ := hostFind_ring (s := s) (c := c) hf (.refl _) rfl
  have hw := s'.within_submitRemoval r 3 0
  refine .whole (f := fun t _ => t.flowDelete c es) rfl h (flowDelete_at hk hf) (.after ?_ hr) ((hw.same .pending (by decide)).trans hp)
    fun _ ha hu => ⟨ha, hu.frame⟩
  exact (State.MemKept.of_within hw (by decide)).ring c

theorem flowSearch_absent (hk : keyOf c 168 = some (hash, key)) (hf : (s.unhold c.queue.val).hostFind hash key es = (.none, s')) :
    Completes (.flowSearch c es) s (fun t => Answers c 0 { code := ccNotFound } s t ∧ t = { s' with io := t.io }) := by
  obtain ⟨hr, hp⟩ := hostFind_ring (s := s) (c := c) hf (.refl _) rfl
  exact .whole (f := fun t _ => t.flowSearch c es) rfl h (flowSearch_none hk hf) hr hp fun _ ha hu => ⟨ha, hu.frame⟩

theorem flowSearch_record {r : Nat} {a d : Line} {x : State} (hk : keyOf c 168 = some (hash, key))
    (hf : (s.unhold c.queue.val).hostFind hash key es = (.at' r, s')) (hr : s'.hostRecord r (es.drop 4) = (some (a, d), x))
    (hl : hLife.get a ≠ lifeFree) : Completes (.flowSearch c es) s (fun t =>
      Answers c 0 { data := bytesLE 64 a.toNat ++ bytesLE 64 d.toNat, off := 40, result := some r } s t ∧ t = { x with io := t.io }) := by
  obtain ⟨hk', hp⟩ := hostFind_ring (s := s) (c := c) hf (.refl _) rfl
  obtain ⟨hk', hp⟩ := hostRecord_ring (s := s) (c := c) hr hk' hp
  exact .whole (f := fun t _ => t.flowSearch c es) rfl h (flowSearch_at hk hf hr hl) hk' hp fun _ ha hu => ⟨ha, hu.frame⟩

end

theorem flowWalk_counts (h1 : 1 ≤ c.ix 12 2) (h2 : c.ix 12 2 ≤ 512) (hi : c.indirect = true) (hl : 4 * (c.ix 12 2 + 1) ≤ c.len)
    (hx : bitsOf c.idx 0 32 < 67108864) : Completes (.flowWalk c) s (fun t =>
      StatusIs c [(0, { result := some (min (c.ix 12 2) (s.flow.used.keys.filter fun r => bitsOf c.idx 0 32 ≤ r).length) })] s t ∧
      OnlyStatus c s t) := by
  have hb : bufferBad c (4 * (c.ix 12 2 + 1)) = false := by simp [bufferBad, hi, hl]
  have he : ∃ d, (s.unhold c.queue.val).flowWalk c = ((s.unhold c.queue.val).draw.2,
      { data := d, result := some (min (c.ix 12 2) (s.flow.used.keys.filter fun r => bitsOf c.idx 0 32 ≤ r).length) }) := by
    have hn : ¬ (c.ix 12 2 < 1 ∨ 512 < c.ix 12 2 ∨ false = true) := by
      rintro (h | h | h)
      · omega
      · omega
      · exact Bool.noConfusion h
    unfold State.flowWalk
    dsimp only
    rw [hb, if_neg hn, if_neg (by omega)]
    exact ⟨_, rfl⟩
  obtain ⟨d, he⟩ := he
  exact .whole (f := fun t _ => t.flowWalk c) rfl h he (.of_regs rfl rfl) rfl fun _ ha hu => ⟨ha.1, hu.frame⟩

theorem flowReadBucket_stash (hs : c.idx.testBit 63 = true) (hx : bitsOf c.idx 0 63 < 1024) (hi : c.indirect = true) (hl : 16 ≤ c.len) :
    Completes (.flowReadBucket c es) s (fun t =>
      Answers c 0 { data := bytesLE 16 (s.flow.stash.get 0 (bitsOf c.idx 0 63)).toNat, result := some (bitsOf c.idx 0 63) } s t ∧
      OnlyStatus c s t) := by
  have hb : bufferBad c 16 = false := by simp [bufferBad, hi, hl]
  refine .whole (f := fun t _ => t.flowBucket c es) (t := s.unhold c.queue.val)
    (r := { data := bytesLE 16 (s.flow.stash.get 0 (bitsOf c.idx 0 63)).toNat, result := some (bitsOf c.idx 0 63) }) rfl h ?_ (.refl _) rfl
    fun _ ha hu => ⟨ha, hu.frame⟩
  unfold State.flowBucket
  dsimp only
  rw [hs, if_pos rfl, if_neg (by omega), hb]
  rfl

end

/-! ### WRITE (R192) -/

/-- A held command whose status can be written ends with it. -/
theorem State.endCmd_live {s : State} {q : Nat} {j : CmdJob} (hj : s.jobs.get none q = some j) (hd : j.dead = false)
    (hl : s.io.statusLive j.cmd.ring = true) (r : Res) : s.endCmd q r = (s.unhold q).upIo fun io => io.cmdDone j.cmd [(0, r)] := by
  unfold endCmd
  rw [hj]
  dsimp only
  rw [hd, if_neg Bool.false_ne_true, if_pos hl]

/-- The state in which a WRITE is held. -/
def State.heldWrite (s : State) (c : Cmd) : State := { s with jobs := s.jobs.set none c.queue.val (some { cmd := c, op := 2 }) }

theorem State.heldWrite_job (s : State) (c : Cmd) : (s.heldWrite c).jobs.get none c.queue.val = some { cmd := c, op := 2 } :=
  SMap.get_set_same s.jobs none (some { cmd := c, op := 2 }) c.queue.val

theorem State.unhold_job (s : State) (q : Nat) : (s.unhold q).jobs.get none q = none := SMap.get_set_same s.jobs none none q

theorem State.unholdDone_frame (x : State) (q : Nat) (f : Io → Io) :
    (x.unhold q).upIo f = { x with io := ((x.unhold q).upIo f).io, jobs := x.jobs.set none q none } := rfl

/-- An update of a resident line clears CLEAN. -/
theorem lineClean_updateLine (s : State) (i : Nat) (f : Line → Line) : lineClean ((s.updateLine i f).cacheAt i) = false := by
  have hc : (s.updateLine i f).cacheAt i = { st := sb (s.cacheAt i).st 30 1 0, data := f (s.cacheAt i).data } := SMap.get_set_same _ _ _ _
  have hb := bitsOf_testBit (setBitsOf (s.cacheAt i).st.toNat 30 1 0) 30 1 0
  rw [bitsOf_setBitsOf] at hb
  rw [hc]
  unfold lineClean tb sb
  rw [BitVec.toNat_ofNat, Nat.testBit_mod_two_pow]
  simpa using hb

theorem data_updateLine (s : State) (i : Nat) (f : Line → Line) : ((s.updateLine i f).cacheAt i).data = f (s.cacheAt i).data :=
  congrArg CacheLine.data (SMap.get_set_same s.flow.cache {} _ i)

theorem cacheAt_updateLine (s : State) {i k : Nat} (f : Line → Line) (h : k ≠ i) : (s.updateLine i f).cacheAt k = s.cacheAt k :=
  SMap.get_set_ne _ _ _ _ h

theorem updateLine_frame (s : State) (i : Nat) (f : Line → Line) :
    s.updateLine i f = { s with flow := { s.flow with cache := (s.updateLine i f).flow.cache } } := rfl

theorem bitsOf_sub {m : Nat} (h : bitsOf m 5 10 = 0) : bitsOf m 7 8 = 0 := by
  refine Nat.eq_of_testBit_eq fun i => ?_
  rw [bitsOf_testBit, Nat.zero_testBit]
  by_cases hi : i < 8
  · have hb := bitsOf_testBit m 5 10 (2 + i)
    rw [h, Nat.zero_testBit, decide_eq_true (by omega), Bool.true_and, show 5 + (2 + i) = 7 + i by omega] at hb
    rw [← hb, Bool.and_false]
  · rw [decide_eq_false hi, Bool.false_and]

/-- A resident record takes the masked fields in its line (R172). -/
theorem writePresent_resident {c : Cmd} {t : State} {i r : Nat} (hm : bitsOf (wMask c) 5 10 = 0)  (hv : t.wayOf (hKey.get (t.lineView (t.hotLoc r))) r = some i) (hy : t.wayOf (hKey.get (t.cacheAt i).data) r = some i) :
    t.writePresent c.queue.val c r = (t.updateLine i (maskHot (wMask c) (wHotImage c))).endCmd c.queue.val { result := some r } := by
  have hbit (k : Nat) (hk : k < 10) : (wMask c).testBit (5 + k) = false := by
    have h := bitsOf_testBit (wMask c) 5 10 k
    rw [hm] at h
    simpa [hk] using h.symm
  have hc : t.curHot r = (t.cacheAt i).data := by
    unfold State.curHot
    dsimp only
    rw [hv]
  have hu : t.updateHot r 3 0x01 (maskHot (wMask c) (wHotImage c)) = t.updateLine i (maskHot (wMask c) (wHotImage c)) := by
    unfold State.updateHot
    dsimp only
    rw [hv]
  have hn (x : Line) : t.wNoFeature c x = false := by
    unfold State.wNoFeature
    rw [hbit 0 (by decide)]
    rfl
  unfold State.writePresent
  rw [hn, hc, hy, hu, hbit 1 (by decide)]
  rfl

section
variable {s : State} {c : Cmd} {es : List ReadEnd} (h : s.takesPart c 1 0)
include h

theorem flowWrite_sealed (hm : (wMask c).testBit 15 = true) : Completes (.flowWrite c es) s (fun t =>
    StatusIs c [(0, { code := ccSealed })] s t ∧ OnlyStatus c s t) := by
  obtain ⟨hon, h1, h2, h3, h4, h5, h6⟩ := h
  have hl := s.cmdFail_leaves c ccSealed
  rw [h5] at hl
  refine .live_eq (f := fun s => s.flowWrite c es) (t := (s.unhold c.queue.val).cmdFail c ccSealed) rfl hon ?_ rfl hl
  unfold State.flowWrite
  rw [h1, Cmd.badMask_of_part h2 h3 h5 h6, h4, hm]
  rfl

section
variable {hash key : Nat} (hm : (wMask c).testBit 15 = false) (hb : bitsOf (wMask c) 7 8 = 0) (hk : keyOf c 168 = some (hash, key))
  (hc : s.claimFor hash key = none) (ho : ∀ x ∈ s.flow.claims, x.owner ≠ 512 + c.queue.val)
include hm hb hk hc ho

/-- A WRITE that passes its checks and whose key no claim holds looks its key up. -/
theorem flowWrite_goes : s.flowWrite c es =
    match (s.heldWrite c).hostFind hash key es with
    | (.error, s) => s.endCmd c.queue.val { code := ccMemError }
    | (.at' r, s) => if hLife.get (s.curHot r) = lifeActive then s.writePresent c.queue.val c r else s.writeAbsent c.queue.val c hash key
    | (.none, s) => s.writeAbsent c.queue.val c hash key := by
  obtain ⟨_, h1, h2, h3, h4, h5, h6⟩ := h
  have hj := s.heldWrite_job c
  have hf : (s.heldWrite c).flow.claims.find? (fun x => x.owner == hostOwner c.queue.val) = none :=
    List.find?_eq_none.2 fun x hx => by simpa [hostOwner] using ho x hx
  have hs : (s.heldWrite c).writeStep c.queue.val es = (s.heldWrite c).writeGo c.queue.val c hash key es := by
    unfold State.writeStep
    rw [hj]
    dsimp only
    rw [hk]
    dsimp only
    rw [hf]
  have hg : ((s.heldWrite c).claimFor hash key).isSome = false := by
    rw [show (s.heldWrite c).claimFor hash key = none from hc]
    rfl
  have hn : ¬ (bitsOf (wMask c) 7 8 ≠ 0 ∨ (keyOf c 168).isNone = true) := by
    rw [hk, hb]
    simp
  unfold State.flowWrite
  rw [h1, Cmd.badMask_of_part h2 h3 h5 h6, h4, hm]
  refine (if_neg hn).trans (hs.trans ?_)
  unfold State.writeGo
  rw [hg]
  rfl

theorem flowWrite_notFound {s' : State} (hw : wCreate c = false) (hf : (s.heldWrite c).hostFind hash key es = (.none, s')) :
    Completes (.flowWrite c es) s (fun t => StatusIs c [(0, { code := ccNotFound })] s t ∧ t.jobs.get none c.queue.val = none) := by
  have hg := flowWrite_goes (es := es) h hm hb hk hc ho
  rw [hf] at hg
  have hm' := (s.heldWrite c).mem_hostFind hash key es
  have hw' := (s.heldWrite c).within_hostFind hash key es
  rw [hf] at hm' hw'
  have hj : s'.jobs.get none c.queue.val = some { cmd := c, op := 2 } := by
    rw [hw'.same .jobs (by decide)]
    exact s.heldWrite_job c
  have hl : s'.io.statusLive c.ring = true := (Io.MemKept.statusLive hm' c).trans (State.cmdWaiting_statusLive (s := s) h.2.1)
  have he := State.endCmd_live hj rfl hl { code := ccNotFound }
  have ha : s'.writeAbsent c.queue.val c hash key = s'.endCmd c.queue.val { code := ccNotFound } := by
    unfold State.writeAbsent
    rw [hw]
    rfl
  refine .live_eq (f := fun s => s.flowWrite c es) rfl h.on (hg.trans (ha.trans he)) (hw'.same .pending (by decide))
    ⟨State.cmdDone_statusIs (x := s'.unhold c.queue.val) (hm'.ring c) _, s'.unhold_job c.queue.val⟩

theorem flowWrite_present {i r : Nat} (hz : bitsOf (wMask c) 5 10 = 0) (hp : s.probe hash key = some i) (hr : lineRec (s.cacheAt i) = r)
    (ha : hLife.get (s.cacheAt i).data = lifeActive) (hv : s.wayOf (hKey.get (s.lineView (s.hotLoc r))) r = some i)
    (hy : s.wayOf (hKey.get (s.cacheAt i).data) r = some i) : Completes (.flowWrite c es) s (fun t =>
      StatusIs c [(0, { result := some r })] s t ∧ (t.cacheAt i).data = maskHot (wMask c) (wHotImage c) (s.cacheAt i).data ∧
      lineClean (t.cacheAt i) = false ∧ (∀ k, k ≠ i → t.cacheAt k = s.cacheAt k) ∧
      t.jobs.get none c.queue.val = none ∧ (∀ k, k ≠ c.queue.val → t.jobs.get none k = s.jobs.get none k) ∧
      t = { s.unhold c.queue.val with io := t.io, flow := { s.flow with cache := t.flow.cache }, jobs := t.jobs }) := by
  have hf : (s.heldWrite c).hostFind hash key es = (.at' r, s.heldWrite c) := by
    unfold State.hostFind
    rw [show (s.heldWrite c).probe hash key = some i from hp]
    exact Prod.ext (congrArg Found.at' hr) rfl
  have hg := flowWrite_goes (es := es) h hm hb hk hc ho
  rw [hf] at hg
  have hc' : (s.heldWrite c).curHot r = (s.cacheAt i).data := by
    unfold State.curHot
    dsimp only
    rw [show (s.heldWrite c).wayOf (hKey.get ((s.heldWrite c).lineView ((s.heldWrite c).hotLoc r))) r = some i from hv]
    rfl
  have hw := writePresent_resident (c := c) (t := s.heldWrite c) hz hv hy
  have h1 := lineClean_updateLine (s.heldWrite c) i (maskHot (wMask c) (wHotImage c))
  have h2 := data_updateLine (s.heldWrite c) i (maskHot (wMask c) (wHotImage c))
  have h3 := fun k => cacheAt_updateLine (s.heldWrite c) (i := i) (k := k) (maskHot (wMask c) (wHotImage c))
  have h4 := updateLine_frame (s.heldWrite c) i (maskHot (wMask c) (wHotImage c))
  generalize (s.heldWrite c).updateLine i (maskHot (wMask c) (wHotImage c)) = x at hw h1 h2 h3 h4
  have hxi : x.io = s.io := (congrArg State.io h4 :)
  have hxj : x.jobs = (s.heldWrite c).jobs := (congrArg State.jobs h4 :)
  have hj : x.jobs.get none c.queue.val = some { cmd := c, op := 2 } := by
    rw [hxj]
    exact s.heldWrite_job c
  have hl : x.io.statusLive c.ring = true := by
    rw [hxi]
    exact State.cmdWaiting_statusLive h.2.1
  have he := State.endCmd_live hj rfl hl { result := some r }
  have hs := State.cmdDone_statusIs (s := s) (c := c) (x := x.unhold c.queue.val) (.of_regs (congrArg Io.regs hxi) (congrArg Io.wcount hxi)) [(0, { result := some r })]
  have hu := State.unholdDone_frame x c.queue.val fun io => io.cmdDone c [(0, { result := some r })]
  dsimp only at he
  generalize (x.unhold c.queue.val).upIo (fun io => io.cmdDone c [(0, { result := some r })]) = u at he hs hu
  have huj : u.jobs = x.jobs.set none c.queue.val none := (congrArg State.jobs hu :)
  have huf : u.flow = x.flow := (congrArg State.flow hu :)
  have hut : u = { s.unhold c.queue.val with io := u.io, flow := { s.flow with cache := u.flow.cache }, jobs := u.jobs } := by
    rw [huf, huj]
    exact hu.trans (congrArg (fun y : State => ({ y with io := u.io, jobs := x.jobs.set none c.queue.val none } : State)) h4)
  unfold State.cacheAt at *
  rw [← huf] at h1 h2 h3
  refine .live_eq (f := fun s => s.flowWrite c es) rfl h.on (hg.trans ((if_pos (hc'.symm ▸ ha)).trans (hw.trans he))) (congrArg State.pending hut :)
    ⟨hs, h2, h1, fun k hk => h3 k hk, ?_, fun k hk => ?_, hut⟩
  · rw [huj, SMap.get_set_same]
  · rw [huj, SMap.get_set_ne _ _ _ _ hk, hxj]
    exact SMap.get_set_ne s.jobs none none (some { cmd := c, op := 2 }) hk

end

end

/-- Settles O40, each command through what the lookup and the record's halves give it. -/
theorem flowTableAccess : Obligations.FlowTableAccess := by
  unfold Obligations.FlowTableAccess
  exact fun s c es h => ⟨fun a d s' hi hl hx hr => flowRead_record h hi hl hx hr, fun hash key s' hk hf => flowDelete_absent h hk hf,
    fun hash key r s' hk hf => flowDelete_submits h hk hf, fun hash key s' hk hf => flowSearch_absent h hk hf,
    fun hash key r a d s' s'' hk hf hr hl => flowSearch_record h hk hf hr hl, fun h1 h2 hi hl hx => flowWalk_counts h h1 h2 hi hl hx,
    fun hs hx hi hl => flowReadBucket_stash h hs hx hi hl, fun hm => flowWrite_sealed h hm,
    fun hash key s' hm hb hk hw hc ho hf => flowWrite_notFound h hm hb hk hc ho hw hf,
    fun hash key i r hm hz hk hc ho hp hr ha hv hy => flowWrite_present h hm (bitsOf_sub hz) hk hc ho hz hp hr ha hv hy⟩

end Sys2Proof.Machine
end
